-- ==== Sys2Proof/Word.lean ====
section
/-!
DEFINITION. The plain types every other file counts in: bytes, 64-bit words, the units' number types (Table 0-5 of
00_scope.md) and the sparse table in which the model holds everything the spec numbers.
-/
namespace Sys2Proof

/-- A byte of memory, of a packet or of a frame. -/
abbrev Byte := BitVec 8

/-- A 64-bit word. -/
abbrev Word := BitVec 64

/-- Link L00 to L95 (R12). -/
abbrev LinkId := Fin 96

/-- Core port 0 to 127 (R12, R236). -/
abbrev PortId := Fin 128

/-- Lane 0 to 383 (R12). -/
abbrev LaneId := Fin 384

/-- Virtual channel VC0 to VC7 (R12). -/
abbrev Vc := Fin 8

/-- Larder stack 0 to 23 (R12). -/
abbrev StackId := Fin 24

/-- A sparse table: entry `k` holds `v`; a key that is not listed holds the table's default. Its canonical form and
its operations stand in Machine/Tbl.lean. -/
abbrev Tbl (α : Type) := List (Nat × α)

end Sys2Proof
end

