-- ==== Sys2Proof/Syntax.lean ====
section
/-!
DEFINITION. The commands of the block: one constructor of `Instr` for every row of spec/opcode_table.json, with the
operands the row's rules name. The table gives its rows no fields, so the operands are the model's (assumption 1).
-/
namespace Sys2Proof

/-- A fabric packet: the header of Table 5-1 (R143), the payload without its padding, and the trailer of Table 5-3
(R151). A packet with `payLen` 0 is a control packet and has no trailer (R142, R817). -/
structure Packet where
  opcode : BitVec 8 := 0
  coat : BitVec 4 := 0
  vc : Fin 8 := 0
  last : Bool := false
  dst : BitVec 12 := 0
  ordered : Bool := false
  ecnCe : Bool := false
  ecnEcho : Bool := false
  vphase : Bool := false
  src : BitVec 12 := 0
  mcast : Bool := false
  rsvA : BitVec 3 := 0
  tenant : BitVec 8 := 0
  status : BitVec 8 := 0
  tag : BitVec 16 := 0
  gen : BitVec 16 := 0
  via : BitVec 12 := 0
  rsvB : BitVec 4 := 0
  injTick : BitVec 16 := 0
  addr : Word := 0
  itemLen : BitVec 32 := 0
  payLen : BitVec 13 := 0
  rsvC : BitVec 3 := 0
  hdrCrc : BitVec 16 := 0
  payload : List Byte := []
  crc32 : BitVec 32 := 0
  stomp : Bool := false
  split : Bool := false
  rsvT : BitVec 30 := 0
  deriving DecidableEq, Repr

/-- The payload of a tick-marker block (Table 2-2, R30); times in units of 0.125 ns. -/
structure Marker where
  tickLow : BitVec 32
  txOffset : BitVec 14
  hops : BitVec 3
  holdover : Bool
  locked : Bool
  deriving DecidableEq, Repr

/-- The payload of an announce block (Table 2-3, R30); `echo` is signed, in units of 0.125 ns. -/
structure Announce where
  tickHigh : BitVec 16
  masterNode : BitVec 12
  masterPriority : BitVec 4
  hops : BitVec 3
  echo : BitVec 16
  deriving DecidableEq, Repr

/-- A function instance: a port, ring, collective group, weight stream, kernel or queue pair (R75). -/
inductive FnId where
  | port (l : LinkId)
  | sq (i : Fin 64)
  | cq (i : Fin 64)
  | ev
  | group (g : Fin 1024)
  | stream (k : Fin 64)
  | kernel (k : Fin 256)
  | qp (q : Fin 16384)
  deriving DecidableEq, Repr

/-- A fetched descriptor: its submission ring and its free-running index there (R104). -/
structure DRef where
  sq : Fin 64
  k : BitVec 32
  deriving DecidableEq, Repr

/-- A hardware thread of the Workroom: array and thread number (Table 15-1). -/
structure Thr where
  array : Fin 64
  hw : Fin 32
  deriving DecidableEq, Repr

/-- The three rings whose control words are registers (Table 24-5). -/
inductive RegRing where
  | sq0 | cq0 | ev
  deriving DecidableEq, Repr

/-- The adapter's capability message (Table 4-5a, ctl 0x01). -/
structure HostCap where
  maxLevel : BitVec 2
  version : BitVec 8
  maxTags : BitVec 10
  ident : Word
  deriving DecidableEq, Repr

/-- An Enzen frame: the header of Table 4-4 (R94) and its payload. -/
structure HostFrame where
  ftype : BitVec 8 := 0
  status : BitVec 8 := 0
  tag : BitVec 16 := 0
  dataOffset : BitVec 13 := 0
  addr : Word := 0
  payload : List Byte := []
  /-- bytes asked for by a frame without payload, a MEM_RD or REG_RD: its header's length (log 6) -/
  len : BitVec 13 := 0
  /-- the model's own field: the submission ring whose completion entry the frame writes (R137) -/
  compl : Option (Fin 64) := none
  deriving DecidableEq, Repr

/-- A link's LINK_CAP message (Table 6-3). -/
structure LinkCap where
  maxGen : BitVec 2
  vexlor : Bool
  level : BitVec 8
  laneMask : BitVec 4
  node : BitVec 12
  link : BitVec 8
  credits : List (BitVec 16)
  deriving DecidableEq, Repr

/-- The kind of a link frame (Table 6-2). -/
inductive FrameKind where
  | data | control | ackOnly | reserved
  deriving DecidableEq, Repr

/-- A packet that comes in on a link, with the kinds of the flits that bring it over a K1 link (R155, R156). -/
structure ArrivedPacket where
  pkt : Packet
  kinds : List (BitVec 3)
  deriving DecidableEq, Repr

/-- Source address and class enables of a received priority flow-control frame (R607). -/
structure PfcHead where
  src : BitVec 48
  enable : BitVec 8
  deriving DecidableEq, Repr

/-- A received congestion notification: the queue pair that it names, and the frame that brings it (R627). -/
structure CnpFrame where
  qp : Fin 16384
  frame : List Byte
  deriving DecidableEq, Repr

/-- A received link frame (R192): the codeword of each lane that the peer transmits on, in ascending lane order, as its 280 symbols
of 10 bits (R631). Packets, control messages and control blocks that it carries are commands of their own. -/
structure LinkFrame where
  words : List (List (BitVec 10))
  deriving DecidableEq, Repr

/-- An AUDIT message (Table 6-7): the partitions audited, and held, sent and rcvd of each. -/
structure AuditMsg where
  mask : BitVec 16
  held : List (BitVec 16)
  sent : List (BitVec 32)
  rcvd : List (BitVec 32)
  deriving DecidableEq, Repr

/-- A RESYNC message (Table 6-7): the partitions resynchronised, and retd and got of each. -/
structure ResyncMsg where
  mask : BitVec 16
  retd : List (BitVec 32)
  got : List (BitVec 32)
  deriving DecidableEq, Repr

/-- A received Ethernet frame: its bytes from the destination address to the FCS (Table 9-2). -/
structure EthFrame where
  bytes : List Byte
  fcsOk : Bool
  deriving DecidableEq, Repr

/-- An ARP request for an IPv4 address, with the frame that brought it (R603). -/
structure ArpRequest where
  senderMac : BitVec 48
  senderIp : BitVec 32
  targetIp : BitVec 32
  frame : List Byte
  deriving DecidableEq, Repr

/-- An IPv6 neighbour solicitation, with the frame that brought it (R603). -/
structure NeighbourSolicit where
  senderMac : BitVec 48
  senderIp : BitVec 128
  targetIp : BitVec 128
  frame : List Byte
  deriving DecidableEq, Repr

/-- A RoCEv2 packet that reached the gateway (R612): the port it came on, its queue pair number, PSN, the fields of the
header that its BTH opcode carries, whether its ICRC holds, its ECN field, its payload, and the frame that brought it. -/
structure RoceMsg where
  port : Fin 16
  qpn : BitVec 24
  psn : BitVec 24
  icrcOk : Bool := true
  ce : Bool := false
  va : Word := 0
  rkey : BitVec 32 := 0
  len : BitVec 32 := 0
  msn : BitVec 24 := 0
  timer : BitVec 5 := 0
  payload : List Byte := []
  frame : List Byte
  deriving DecidableEq, Repr

/-- A CAP training message (Table 18-4). -/
structure TrainCap where
  maxRate : BitVec 2
  present : BitVec 4
  farLoopOk : Bool
  eqVersion : BitVec 8
  nonce : BitVec 32
  deriving DecidableEq, Repr

/-- A training frame as it comes in on a lane: its line bits under stuffed coding, from its sync on (R639, R640). -/
structure TrainLine where
  lane : Fin 4
  bits : List Bool
  deriving DecidableEq, Repr

/-- The training frames of a lane in Detect, oldest first: whether the crc of each was good, before the last 100 µs and during them
(R640, R641). -/
structure DetectLane where
  before : List Bool
  during : List Bool
  deriving DecidableEq, Repr

/-- What a receiver finds of a lane of an aligning link (R636 to R638): the last block headers at its alignment, whether its codewords
decode, and its skew against the earliest lane in ps. -/
structure AlignLane where
  hdrs : List (BitVec 2)
  decodes : Bool
  skew : Nat
  deriving DecidableEq, Repr

/-- Why a lane faults (R647, detail of event 0x14 in Table 22-8). -/
inductive LaneCause where
  | lock | ucwLimit | rxPower | laser
  deriving DecidableEq, Repr

/-- A peer's lane-state block (Table 18-2). -/
structure LaneState where
  lane : Fin 4
  outMask : BitVec 4
  txNext : BitVec 4
  ucw : BitVec 8
  csym : BitVec 16
  deriving DecidableEq, Repr

/-- One optical measurement (R655): a laser input, a transmit output or a receive input, in 0.1 dBm. -/
inductive OpticalReading where
  | laser (e : Fin 24) (b : Bool) (pwr : BitVec 16)
  | tx (n : LaneId) (pwr : BitVec 16)
  | rx (n : LaneId) (pwr : BitVec 16)
  deriving DecidableEq, Repr

/-- The transport of an MCTP request (R676). -/
inductive Transport where
  | i3c | enzen
  deriving DecidableEq, Repr

/-- A PLDM request of base discovery (type 0) or of monitoring (type 2, R710). -/
inductive PldmReq where
  | discovery (cmd : BitVec 8)
  | getSensor (id : BitVec 16)
  deriving DecidableEq, Repr

/-- What the boot ROM reads from the board and the antifuses at power-good: the tamper loop's resistance (R804), whether
RESET_N is high and the rails are in regulation (R718). -/
structure FuseReading where
  loopOhms : Nat
  railsGood : Bool
  resetHigh : Bool
  deriving DecidableEq, Repr

/-- The commands of the block, in the order of spec/opcode_table.json. -/
inductive Instr where
  /-- TICK_BOUNDARY (R50): At each tick edge the part applies prepared boundary work in the order of Table 2-6, beginning by advancing the tick number. -/
  | tickBoundary
  /-- TICK_MARKER_RECEIVE (R32): Timestamps a peer's tick marker and steers the tick edge by at most 0.125 ns per tick from the computed error. -/
  | tickMarkerReceive (l : LinkId) (m : Marker) (rx : Nat)
  /-- ANNOUNCE_RECEIVE (R24): Takes an announce and elects the master and upstream link under R24 and R25. -/
  | announceReceive (l : LinkId) (a : Announce)
  /-- MASTER_ANNOUNCE_TIMEOUT (R28): After 256 ticks without an announce of the current master, drops that master and elects again. -/
  | masterAnnounceTimeout
  /-- LOCK_DECLARED (R37): Declares lock at the first tick numbered 29 mod 64 after the error has stayed within 0.5 ns for 64 ticks. -/
  | lockDeclared
  /-- LOCK_LOST (R33): Loses lock when the error exceeds 1 ns in 8 consecutive ticks. -/
  | lockLost
  /-- TICK_LOSS (R40): After 16,384 ticks of holdover, declares tick loss, runs free and raises an event. -/
  | tickLoss
  /-- TICK_STEP (R42): Lengthens the current tick so its next edge meets the master's and adopts the master's tick number. -/
  | tickStep
  /-- TICK_IN_EDGE (R47): A master with tick_source 1 aligns its tick edge to a rising edge on TICK_IN. -/
  | tickInEdge (early : Int)
  /-- TICK_IN_MISSED (R48): After 8 consecutive missed TICK_IN edges the master enters holdover. -/
  | tickInMissed
  /-- STARTUP_MASTERSHIP (R719): After its image has run 256 ticks, a module with priority above 0 that heard no better candidate takes mastership. -/
  | startupMastership
  /-- DESCRIPTOR_AUDIT (R62): Every 4,096 ticks audits descriptors and completions per ring and writes TIMEOUT for unaccounted descriptors. -/
  | descriptorAudit
  /-- FUNCTION_ON (R75): A function instance in Starting whose set-up is complete enters On at a tick boundary and its enable completes. -/
  | functionOn (f : FnId)
  /-- FUNCTION_OFF (R813): A function instance in Stopping whose accepted items all have outcomes reaches Off, completes its disables and applies any pending enable. -/
  | functionOff (f : FnId)
  /-- ENZEN_FLIT_RECEIVE (R92): Checks a received Enzen flit's CRC and sequence, handles ack and nak, and unpacks its frames. -/
  | enzenFlitReceive (flit : List Byte)
  /-- ENZEN_REPLAY_TIMEOUT (R92): Replays from ack + 1 when ack has not advanced for 2 µs with unacknowledged flits held. -/
  | enzenReplayTimeout
  /-- ENZEN_SIGNAL_DETECTED (R93): Leaves Detect after the adapter's training signal has been present on both lanes for 1 ms. -/
  | enzenSignalDetected
  /-- ENZEN_FEC_LOCK_HELD (R93): Leaves Train-E1, Train-E2 or Retrain after FEC lock has held for 1 ms. -/
  | enzenFecLockHeld
  /-- ENZEN_BRINGUP_TIMEOUT (R93): A bring-up state reaches its time limit and goes to Detect or falls back to Active at E1. -/
  | enzenBringupTimeout
  /-- ENZEN_FEC_LOCK_LOST (R93): Loss of FEC lock in Active starts Retrain at the current level and holds completions. -/
  | enzenFecLockLost
  /-- ENZEN_NAK_LIMIT (R93): Sixteen nak flits within 1,024 ticks start Retrain. -/
  | enzenNakLimit
  /-- LINK_CTL_CAP (R100): Takes the adapter's CAP in Negotiate and answers CAP_ACK. -/
  | linkCtlCap (c : HostCap)
  /-- LINK_CTL_CAP_ACK (R100): Takes the adapter's CAP_ACK and ends Negotiate when both capabilities are held. -/
  | linkCtlCapAck
  /-- LINK_CTL_CAP_RETRY (R100): Resends CAP every 100 µs until the peer's CAP_ACK arrives. -/
  | linkCtlCapRetry
  /-- LEVEL_REQ (R100): Answers a LEVEL_REQ with LEVEL_ACK and retrains at the lower level. -/
  | levelReq (level : BitVec 2)
  /-- HOST_RESET (R141): Takes every ring to Stopping, discards completions due to that host and answers HOST_RESET_ACK once all rings are Off. -/
  | hostReset
  /-- MEM_RD_DATA (R98): Counts the payload of a read response against its request and ends the read, failed or complete. -/
  | memRdData (f : HostFrame)
  /-- REG_WR (R781): A write to a register without behaviour of its own is staged or committed and applied at the tick boundary in order of arrival. -/
  | regWr (addr : Word) (wide : Bool) (val : Word)
  /-- CONFIG_BUNDLE_APPLY (R795): At Attic start, writes every record of the accepted configuration bundle in order and then applies held host writes. -/
  | configBundleApply
  /-- DOORBELL_PAGE_APPLY (R107): Applies a returned doorbell page at the next boundary, taking valid producer and consumer indices. -/
  | doorbellPageApply
  /-- DESCRIPTOR_FENCE_RELEASE (R115): A fenced descriptor starts once every earlier descriptor of its ring has an outcome. -/
  | descriptorFenceRelease (d : DRef)
  /-- DESCRIPTOR_TIMED_START (R818): A timed descriptor starts, or its boundary work applies, at apply_tick. -/
  | descriptorTimedStart (d : DRef)
  /-- RESERVED_OPCODE (R118): A fetched descriptor with a reserved opcode completes with BAD_DESCRIPTOR. -/
  | reservedOpcode (d : DRef)
  /-- INTERRUPT_MODERATION_TIMEOUT (R129): Sends the completion ring's interrupt when the oldest uninterrupted entry has waited mod_ticks ticks. -/
  | interruptModerationTimeout (q : Fin 64)
  /-- NOP (R117): Completes OK with result zero. -/
  | nopDesc (d : DRef)
  /-- RING_CONFIG (R122): Writes the configuration of a ring that is Off. -/
  | ringConfig (d : DRef)
  /-- RING_ENABLE (R139): Enables a ring under Table 3-6. -/
  | ringEnable (d : DRef)
  /-- RING_DISABLE (R138): Disables a ring under Table 3-6. -/
  | ringDisable (d : DRef)
  /-- FABRIC_PACKET_ARRIVAL (R183): A packet arriving on a link is checked, aged, metered, stamped, routed and queued into the core. -/
  | fabricPacketArrival (l : LinkId) (p : ArrivedPacket)
  /-- RD_REQ (R185): The memory owner checks and serves a read, returning RD_DATA packets or FAIL. -/
  | rdReq (p : Packet)
  /-- WR (R171): The memory owner checks and writes a write packet, counting bytes and sending WR_ACK when item_len is reached. -/
  | wr (p : Packet)
  /-- AT_FADD64 (R403): Executes a 64-bit integer fetch-and-add at the stack controller and returns the old value. -/
  | atFadd64 (p : Packet)
  /-- AT_SWAP64 (R403): Executes a 64-bit swap and returns the old value. -/
  | atSwap64 (p : Packet)
  /-- AT_CAS64 (R403): Executes a 64-bit compare-and-swap and returns the old value. -/
  | atCas64 (p : Packet)
  /-- AT_CAS128 (R403): Executes a 128-bit compare-and-swap and returns the old value. -/
  | atCas128 (p : Packet)
  /-- AT_FADD_FP32 (R404): Executes an FP32 add at the operand, rounded once by RNE, and returns the old value. -/
  | atFaddFp32 (p : Packet)
  /-- AT_FADD_BF16 (R404): Executes a BF16 add at the operand and returns the old value. -/
  | atFaddBf16 (p : Packet)
  /-- LAUNCH (R551): Admits a run into the kernel's run queue and answers LAUNCH_ACK, or refuses with FAIL. -/
  | launchPkt (port : PortId) (p : Packet)
  /-- ATTN_QUERY (R566): Reads the sequence entry and admits an attention run, or refuses it with FAIL. -/
  | attnQuery (port : PortId) (p : Packet)
  /-- COLL_START (R442): A member's start binds the slot's next operation when the slot is free, or waits or is discarded. -/
  | collStart (port : PortId) (p : Packet)
  /-- COLL_CONTRIB (R470): A contribution or partial cell is added or held at its Hawk position and finished tiles are sent as results. -/
  | collContrib (port : PortId) (p : Packet)
  /-- COLL_ARRIVE (R460): Records a member's or peer's arrival at a barrier and writes the op record when all have arrived. -/
  | collArrive (port : PortId) (p : Packet)
  /-- COLL_COUNTS (R455): Records an all-to-all member's counts and, when all are in, sends each member its COLL_LAYOUT. -/
  | collCounts (port : PortId) (p : Packet)
  /-- LANDING_CREDIT (R506): Records a member's grant of a landing buffer for a stream slot, or discards it. -/
  | landingCredit (l : LinkId) (p : Packet)
  /-- MGMT (R291): A route notice reaching the Attic port is taken for application at the next boundary. -/
  | mgmtPkt (p : Packet)
  /-- RD_DATA (R173): The requester counts returned read bytes against its item and ends the item when complete. -/
  | rdData (p : Packet)
  /-- WR_ACK (R168): The writer ends its write item at the acknowledgement. -/
  | wrAck (p : Packet)
  /-- AT_DATA (R168): The requester ends its atomic item with the returned old value. -/
  | atData (p : Packet)
  /-- FAIL (R168): The owner ends an item at its first FAIL, or ends matching items on a sweep FAIL, discarding later answers. -/
  | failPkt (p : Packet)
  /-- LAUNCH_ACK (R597): A launching thread receives the run number and resumes. -/
  | launchAck (p : Packet)
  /-- WRITE_TRACKING_TIMEOUT (R175): Drops a write item's tracking entry after age_limit + 8 ticks without a packet. -/
  | writeTrackingTimeout (src : BitVec 12) (tag : BitVec 16)
  /-- RESPONSE_TIMEOUT (R176): Ends a request with TIMEOUT when no answer arrives within the response time-out. -/
  | responseTimeout (tag : BitVec 16)
  /-- LINK_FRAME_RECEIVE (R200): Accepts or discards a link frame by decode and sequence, applies credit returns and acts on ack and nak. -/
  | linkFrameReceive (l : LinkId) (f : LinkFrame)
  /-- NAK_REPEAT_TIMEOUT (R201): Sets nak again when the expected frame has not arrived 1,024 ns after a nak. -/
  | nakRepeatTimeout (l : LinkId)
  /-- LINK_REPLAY_TIMEOUT (R202): Replays from ack + 1 when ack has not advanced for 512 ns with unacknowledged frames held. -/
  | linkReplayTimeout (l : LinkId)
  /-- REPLAY_LIMIT_RETRAIN (R205): Sends the link to lane retraining when the oldest frame has been replayed replay_limit times. -/
  | replayLimitRetrain (l : LinkId)
  /-- LINK_FALLBACK (R206): After four retrainings within 65,536 ticks, sets fallback and renegotiates at K1. -/
  | linkFallback (l : LinkId)
  /-- LINK_CAP (R208): Takes the peer's capability message, completing negotiation or ending service when in service. -/
  | linkCap (l : LinkId) (c : LinkCap)
  /-- LINK_CAP_TIMEOUT (R210): Returns the link to lane bring-up when no LINK_CAP arrives within 1 ms of service coding. -/
  | linkCapTimeout (l : LinkId)
  /-- LEVEL_OFFER (R700): Takes a peer's LEVEL_OFFER and changes the link level at the next boundary, or discards it at level 3. -/
  | levelOffer (l : LinkId) (level : BitVec 8)
  /-- CREDIT_AUDIT_DUE (R227): Sends an AUDIT on the link in its due tick with held, sent and rcvd per partition. -/
  | creditAuditDue (l : LinkId)
  /-- AUDIT (R229): Checks each audited partition and answers AUDIT_RESULT, counting failures. -/
  | audit (l : LinkId) (m : AuditMsg)
  /-- AUDIT_RESULT (R231): The sender takes the audit result for freezing of failed partitions at the next boundary. -/
  | auditResult (l : LinkId) (mask : BitVec 16)
  /-- PARTITION_FREEZE (R231): Freezes failed partitions at the first boundary after the failed audit result. -/
  | partitionFreeze (l : LinkId)
  /-- RESYNC_SEND (R232): The receiver sends RESYNC once a frozen partition has occ and pend both zero. -/
  | resyncSend (l : LinkId)
  /-- RESYNC (R232): The sender resets held, rcvd and sent for the resynchronised partitions. -/
  | resync (l : LinkId) (m : ResyncMsg)
  /-- PARTITION_UNFREEZE (R232): Both sides unfreeze the partition at the next boundary after resync. -/
  | partitionUnfreeze (l : LinkId)
  /-- FROZEN_PARTITION_TIMEOUT (R233): A partition frozen for 256 ticks makes the link fail. -/
  | frozenPartitionTimeout (l : LinkId) (q : Fin 16)
  /-- CELL_ARRIVE_OUTPUT (R257): A cell arriving at an output is placed in order, held, reassembled or discarded as aged or behind. -/
  | cellArriveOutput (o : PortId)
  /-- PACKET_TO_EGRESS_QUEUE (R259): An output passes a packet to its egress queue once its cells are in order or after 128 slots on cut-through. -/
  | packetToEgressQueue (o : PortId)
  /-- CELL_AGE_SWEEP (R265): Sweeps a unicast stream and declares a gap lost when its lowest held cell has aged. -/
  | cellAgeSweep (o : PortId)
  /-- PACKET_START (R325): At each packet start on a link port, picks an eligible queue by VC7 first then deficit round-robin and charges shapers. -/
  | packetStart (l : LinkId)
  /-- POOL_AUDIT (R274): Audits due pointer pools against their reference totals and starts a rebuild on mismatch. -/
  | poolAudit (j : Fin 512)
  /-- POOL_REBUILD_DONE (R276): Ends the one-pass rebuild of a pool's free list. -/
  | poolRebuildDone (j : Fin 512)
  /-- LINK_FAILURE_DECLARE (R738): Declares a link failed at step 3, drops its packets, sends notices and fails its items. -/
  | linkFailureDeclare (l : LinkId)
  /-- ROUTE_NOTICE_APPLY (R741): Applies a route notice at step 3 of the next boundary, adding or removing an exclusion. -/
  | routeNoticeApply
  /-- CROSSING_WINDOW_ROLL (R745): Opens a new crossing-record window when the older window of age_limit + 2 ticks expires. -/
  | crossingWindowRoll (l : LinkId)
  /-- COAT_LOAD (R308): Verifies a signed bundle and writes its entries into the staging area. -/
  | coatLoad (d : DRef)
  /-- COAT_SWITCH (R311): Requests a switch to the staging area at apply_tick. -/
  | coatSwitch (d : DRef)
  /-- COAT_ABORT (R312): Empties the staging area and cancels its unfinished loads and switches. -/
  | coatAbort (d : DRef)
  /-- COAT_QUERY (R307): Reports topcoat, undercoat, staging and retire tick. -/
  | coatQuery (d : DRef)
  /-- EXCL_CLEAR (R295): Empties the exclusion list. -/
  | exclClear (d : DRef)
  /-- ENVELOPE_VERIFY_DONE (R666): The Strongroom ends verification of an envelope and accepts or refuses it whole. -/
  | envelopeVerifyDone
  /-- COAT_STAGING_WRITE (R299): At step 5 writes up to 512 bundle entries per tick into the staging area. -/
  | coatStagingWrite
  /-- FRAME_FILL_DONE (R393): Zero fills of newly owned frames finish, letting COAT_LOAD or key re-installation complete. -/
  | frameFillDone (frame : BitVec 20)
  /-- COAT_SWITCH_APPLY (R301): At step 4 the staging area becomes the topcoat once loads are complete and no undercoat is held. -/
  | coatSwitchApply
  /-- UNDERCOAT_RETIRE (R304): Retires the undercoat at the first boundary with T ≥ L + age_limit + 2 and no open records. -/
  | undercoatRetire
  /-- ORDERED_HOLD_RELEASE (R306): Releases ordered packets held after a switch at elapsed tick S + age_limit + 1. -/
  | orderedHoldRelease
  /-- MC_OUTCOME_RECORD_TIMEOUT (R318): Closes a multicast outcome record after age_limit + 8 ticks without a packet and sends MC_OUTCOME. -/
  | mcOutcomeRecordTimeout (src : BitVec 12) (tag : BitVec 16)
  /-- SWAP (R336): A write of 1 to swap in TM_GATE_CTRL requests a gate bank swap. -/
  | swapReq (l : LinkId)
  /-- GATE_BANK_SWAP (R336): Swaps gate banks at the first qualifying boundary, or refuses an invalid list and sets swap_err. -/
  | gateBankSwap (l : LinkId)
  /-- DM_COPY (R422): Copies bytes between global or host addresses as fabric items. -/
  | dmCopy (d : DRef)
  /-- DM_FILL (R421): Writes a 64-bit pattern repeatedly over a range. -/
  | dmFill (d : DRef)
  /-- DM_CRC (R420): Computes the CRC-32 of a range. -/
  | dmCrc (d : DRef)
  /-- DM_AT_FADD64 (R420): Performs AT_FADD64 at an address for the ring's tenant. -/
  | dmAtFadd64 (d : DRef)
  /-- DM_AT_SWAP64 (R420): Performs AT_SWAP64 at an address. -/
  | dmAtSwap64 (d : DRef)
  /-- DM_AT_CAS64 (R420): Performs AT_CAS64 at an address. -/
  | dmAtCas64 (d : DRef)
  /-- DM_AT_CAS128 (R420): Performs AT_CAS128 at an address and reports whether the swap took place. -/
  | dmAtCas128 (d : DRef)
  /-- DM_AT_FADD_FP32 (R420): Performs AT_FADD_FP32 at an address. -/
  | dmAtFaddFp32 (d : DRef)
  /-- DM_AT_FADD_BF16 (R420): Performs AT_FADD_BF16 at an address. -/
  | dmAtFaddBf16 (d : DRef)
  /-- SCRUB_READ (R414): Reads lines in the scrub period, writes back corrected lines and retires frames over retire_ce. -/
  | scrubRead (line : Nat) (corrected : Nat) (bad : List (Fin 4))
  /-- GO (R415): A write of 1 to go in LARDER_RETIRE retires the named frame. -/
  | goReq (frame : BitVec 20)
  /-- FRAME_RETIRE_COPY_DONE (R416): At the boundary after the copy, redirects every access of the frame to its spare. -/
  | frameRetireCopyDone (frame : BitVec 20)
  /-- GROUP_ENABLE (R430): Reserves Hawk room and enables a collective group. -/
  | groupEnable (d : DRef)
  /-- GROUP_DISABLE (R433): Disables a collective group. -/
  | groupDisable (d : DRef)
  /-- TEMPLATE_SET (R435): Writes an operation template after reading its member table. -/
  | templateSet (d : DRef)
  /-- GROUP_QUERY (R427): Reports the group's state, generation and reservation. -/
  | groupQuery (d : DRef)
  /-- COLL_SLOT_BIND (R442): A waiting COLL_START binds its operation once the slot frees. -/
  | collSlotBind (g : Fin 1024) (slot : Fin 16)
  /-- COLL_OP_LIMIT_EXPIRED (R446): Ends an operation with TIMEOUT at every member when op_limit ticks pass after binding. -/
  | collOpLimitExpired (g : Fin 1024) (slot : Fin 16)
  /-- HAWK_GRANT_STEP (R487): At step 9 serves waiting grant requests from reserves and the pool in rotating order. -/
  | hawkGrantStep
  /-- GRAIN_AUDIT (R491): Audits Hawk grains and spill units and rebuilds counts on a mismatch. -/
  | grainAudit
  /-- STREAM_PROGRAM (R500): Copies a segment list into the program store for a stream that is Off. -/
  | streamProgram (d : DRef)
  /-- STREAM_ENABLE (R498): Enables a stream. -/
  | streamEnable (d : DRef)
  /-- STREAM_DISABLE (R523): Disables a stream. -/
  | streamDisable (d : DRef)
  /-- STREAM_START (R502): Starts one pass of a stream whose period is 0. -/
  | streamStart (d : DRef)
  /-- STREAM_QUERY (R497): Reports a stream's state, generation and pass. -/
  | streamQuery (d : DRef)
  /-- STREAM_PASS_START (R503): Begins a pass at its nominal start tick or when the previous pass has read its last chunk. -/
  | streamPassStart (k : Fin 64)
  /-- STREAM_SEGMENT_START (R505): Starts a segment once its predecessor is read and every member holds a grant, binding group and window. -/
  | streamSegmentStart (k : Fin 64)
  /-- STREAM_CHUNK_READ (R512): Reads a chunk while the allowance holds its stored bytes and multicasts it into the core. -/
  | streamChunkRead (k : Fin 64)
  /-- STREAM_DEADLINE (R520): At the end of a segment's deadline tick, ends waiting or unfinished member shares with LATE. -/
  | streamDeadline (k : Fin 64) (seg : BitVec 12)
  /-- STREAM_RECORD_TIMEOUT (R518): Closes a segment's outcome record after age_limit + 8 ticks with no chunk. -/
  | streamRecordTimeout (k : Fin 64) (seg : BitVec 12)
  /-- STREAM_REPAIR_START (R519): At the boundary after a record closes, resends failed chunks to members within their limits. -/
  | streamRepairStart (k : Fin 64) (seg : BitVec 12)
  /-- KERNEL_LOAD (R545): Records a kernel's code, arrays and limits in a slot that is Off. -/
  | kernelLoad (d : DRef)
  /-- KERNEL_ENABLE (R548): Enables a kernel, copying its code into its arrays. -/
  | kernelEnable (d : DRef)
  /-- KERNEL_DISABLE (R554): Disables a kernel. -/
  | kernelDisable (d : DRef)
  /-- KERNEL_RUN (R553): Launches one run of a kernel and completes when the run ends. -/
  | kernelRun (d : DRef)
  /-- KERNEL_QUERY (R544): Reports a kernel's state, generation, running threads and queued runs. -/
  | kernelQuery (d : DRef)
  /-- SEQ_SET (R563): Writes a sequence entry header and invalidates its page words. -/
  | seqSet (d : DRef)
  /-- SEQ_PAGES (R563): Writes page words of one plane of a sequence entry. -/
  | seqPages (d : DRef)
  /-- SEQ_CLEAR (R563): Invalidates a sequence entry. -/
  | seqClear (d : DRef)
  /-- KERNEL_CODE_COPY_DONE (R546): When the code copy ends, the kernel enters On at the next boundary. -/
  | kernelCodeCopyDone (k : Fin 256)
  /-- ARRAY_ZERO_DONE (R535): An unowned array finishes zeroing its memory and thread registers. -/
  | arrayZeroDone (a : Fin 64)
  /-- RUN_START (R553): Starts the oldest waiting run once all its threads have free hardware threads. -/
  | runStart (k : Fin 256)
  /-- RUN_LIMIT_EXPIRED (R555): Faults a run with TIMEOUT when run_limit ticks pass. -/
  | runLimitExpired (k : Fin 256) (run : BitVec 32)
  /-- ADD (R576): Scalar integer add. -/
  | add (t : Thr)
  /-- SUB (R576): Scalar integer subtract. -/
  | sub (t : Thr)
  /-- MUL (R576): Low 64 bits of a scalar product. -/
  | mul (t : Thr)
  /-- MULHU (R576): High 64 bits of the unsigned scalar product. -/
  | mulhu (t : Thr)
  /-- AND (R570): Scalar bitwise and. -/
  | and (t : Thr)
  /-- OR (R570): Scalar bitwise or. -/
  | or (t : Thr)
  /-- XOR (R570): Scalar bitwise xor. -/
  | xor (t : Thr)
  /-- SHL (R570): Scalar left shift by sb mod 64. -/
  | shl (t : Thr)
  /-- SHR (R570): Scalar logical right shift. -/
  | shr (t : Thr)
  /-- SAR (R570): Scalar arithmetic right shift. -/
  | sar (t : Thr)
  /-- MIN (R570): Signed scalar minimum. -/
  | min (t : Thr)
  /-- MAX (R570): Signed scalar maximum. -/
  | max (t : Thr)
  /-- MINU (R570): Unsigned scalar minimum. -/
  | minu (t : Thr)
  /-- MAXU (R570): Unsigned scalar maximum. -/
  | maxu (t : Thr)
  /-- SLT (R570): Signed less-than test. -/
  | slt (t : Thr)
  /-- SLTU (R570): Unsigned less-than test. -/
  | sltu (t : Thr)
  /-- ADDI (R570): Scalar add of an immediate. -/
  | addi (t : Thr)
  /-- ANDI (R570): Scalar and with an immediate. -/
  | andi (t : Thr)
  /-- ORI (R570): Scalar or with an immediate. -/
  | ori (t : Thr)
  /-- XORI (R570): Scalar xor with an immediate. -/
  | xori (t : Thr)
  /-- SHLI (R570): Scalar left shift by an immediate. -/
  | shli (t : Thr)
  /-- SHRI (R570): Scalar logical right shift by an immediate. -/
  | shri (t : Thr)
  /-- SARI (R570): Scalar arithmetic right shift by an immediate. -/
  | sari (t : Thr)
  /-- LI (R570): Loads a sign-extended immediate. -/
  | li (t : Thr)
  /-- LIH (R570): Loads an immediate into the upper 32 bits, keeping the lower bits. -/
  | lih (t : Thr)
  /-- FADD (R575): Scalar FP32 add. -/
  | fadd (t : Thr)
  /-- FSUB (R575): Scalar FP32 subtract. -/
  | fsub (t : Thr)
  /-- FMUL (R575): Scalar FP32 multiply. -/
  | fmul (t : Thr)
  /-- FMA (R575): Scalar FP32 fused multiply-add with one rounding. -/
  | fma (t : Thr)
  /-- FLT (R575): Scalar FP32 less-than test. -/
  | flt (t : Thr)
  /-- ITOF (R365): Converts a signed integer to FP32. -/
  | itof (t : Thr)
  /-- FTOI (R364): Converts FP32 to a clamped signed 64-bit integer. -/
  | ftoi (t : Thr)
  /-- VADD (R575): Vector add per element. -/
  | vadd (t : Thr)
  /-- VSUB (R575): Vector subtract per element. -/
  | vsub (t : Thr)
  /-- VMUL (R575): Vector multiply per element. -/
  | vmul (t : Thr)
  /-- VFMA (R575): Vector fused multiply-add with one rounding. -/
  | vfma (t : Thr)
  /-- VMIN (R575): Vector minimum with −0 below +0. -/
  | vmin (t : Thr)
  /-- VMAX (R575): Vector maximum with −0 below +0. -/
  | vmax (t : Thr)
  /-- VABS (R575): Vector absolute value. -/
  | vabs (t : Thr)
  /-- VNEG (R575): Vector negation. -/
  | vneg (t : Thr)
  /-- VAND (R573): Bitwise and of lanes. -/
  | vand (t : Thr)
  /-- VOR (R573): Bitwise or of lanes. -/
  | vor (t : Thr)
  /-- VXOR (R573): Bitwise xor of lanes. -/
  | vxor (t : Thr)
  /-- VSHL (R573): Vector left shift. -/
  | vshl (t : Thr)
  /-- VSHR (R573): Vector logical right shift. -/
  | vshr (t : Thr)
  /-- VSAR (R573): Vector arithmetic right shift. -/
  | vsar (t : Thr)
  /-- VMOV (R573): Copies a vector register. -/
  | vmov (t : Thr)
  /-- VBCAST (R573): Broadcasts a scalar into every active lane. -/
  | vbcast (t : Thr)
  /-- VLANE (R573): Writes each lane's index into it. -/
  | vlane (t : Thr)
  /-- VEXT (R573): Extracts one lane into a scalar register. -/
  | vext (t : Thr)
  /-- VINS (R573): Inserts a scalar into one lane. -/
  | vins (t : Thr)
  /-- VPERM (R573): Permutes lanes by an index vector. -/
  | vperm (t : Thr)
  /-- VEXP (R578): Correctly rounded e to the power per lane. -/
  | vexp (t : Thr)
  /-- VEXP2 (R578): Correctly rounded 2 to the power per lane. -/
  | vexp2 (t : Thr)
  /-- VLOG2 (R578): Correctly rounded base-2 logarithm per lane. -/
  | vlog2 (t : Thr)
  /-- VRCP (R578): Correctly rounded reciprocal per lane. -/
  | vrcp (t : Thr)
  /-- VRSQRT (R578): Correctly rounded reciprocal square root per lane. -/
  | vrsqrt (t : Thr)
  /-- VSQRT (R578): Correctly rounded square root per lane. -/
  | vsqrt (t : Thr)
  /-- VCMPR (R573): Compresses active lanes into the lowest lanes. -/
  | vcmpr (t : Thr)
  /-- VEXPD (R573): Expands the lowest lanes into the active lanes. -/
  | vexpd (t : Thr)
  /-- VSEL (R573): Selects lanes from two vectors by a predicate. -/
  | vsel (t : Thr)
  /-- PCMP (R579): Compares two vectors into a predicate. -/
  | pcmp (t : Thr)
  /-- PCMPS (R579): Compares a vector with a scalar into a predicate. -/
  | pcmps (t : Thr)
  /-- PAND (R573): Predicate and. -/
  | pand (t : Thr)
  /-- POR (R573): Predicate or. -/
  | por (t : Thr)
  /-- PXOR (R573): Predicate xor. -/
  | pxor (t : Thr)
  /-- PNOT (R573): Predicate not. -/
  | pnot (t : Thr)
  /-- PSET (R573): Sets all 256 predicate bits. -/
  | pset (t : Thr)
  /-- PCLR (R573): Clears all predicate bits. -/
  | pclr (t : Thr)
  /-- PFIRST (R573): Keeps only the lowest set bit of a predicate. -/
  | pfirst (t : Thr)
  /-- PCNT (R573): Counts set predicate bits into a scalar. -/
  | pcnt (t : Thr)
  /-- PLT (R573): Sets the low min(sa, 256) predicate bits. -/
  | plt (t : Thr)
  /-- PMOVS (R573): Moves 64 predicate bits into a scalar. -/
  | pmovs (t : Thr)
  /-- PMOVP (R573): Moves a scalar into 64 predicate bits. -/
  | pmovp (t : Thr)
  /-- CVT (R580): Converts elements between formats, including MXFP4 with block scales. -/
  | cvt (t : Thr)
  /-- BFPE (R582): Computes Skim-B block exponents over runs of 32 lanes. -/
  | bfpe (t : Thr)
  /-- BFPQ (R582): Writes Skim-B sign and mantissa fields. -/
  | bfpq (t : Thr)
  /-- BFPD (R582): Decodes Skim-B fields to FP32. -/
  | bfpd (t : Thr)
  /-- DOT (R584): Accumulates a dot product of register pairs, rounded once. -/
  | dot (t : Thr)
  /-- DOTS (R584): Accumulates a dot product with a scalar operand in every lane. -/
  | dots (t : Thr)
  /-- RADD (R586): Sums the active lanes by a fixed tree. -/
  | radd (t : Thr)
  /-- RMAX (R586): Maximum of the active lanes. -/
  | rmax (t : Thr)
  /-- RMIN (R586): Minimum of the active lanes. -/
  | rmin (t : Thr)
  /-- RMAXI (R587): Maximum of the active lanes and its lane. -/
  | rmaxi (t : Thr)
  /-- RMINI (R587): Minimum of the active lanes and its lane. -/
  | rmini (t : Thr)
  /-- VSCAN (R588): Inclusive prefix sums of the active lanes. -/
  | vscan (t : Thr)
  /-- LD (R589): Scalar load, zero-extended, by the path its address selects. -/
  | ld (t : Thr)
  /-- LDS (R590): Scalar load, sign-extended. -/
  | lds (t : Thr)
  /-- ST (R589): Scalar store. -/
  | st (t : Thr)
  /-- VLD (R591): Contiguous vector load. -/
  | vld (t : Thr)
  /-- VST (R591): Contiguous vector store. -/
  | vst (t : Thr)
  /-- VLDS (R591): Strided vector load on the thread's own node. -/
  | vlds (t : Thr)
  /-- VSTS (R591): Strided vector store on the thread's own node. -/
  | vsts (t : Thr)
  /-- VLDG (R591): Gather load by lane offsets. -/
  | vldg (t : Thr)
  /-- VSTG (R593): Scatter store by lane offsets, the higher lane winning. -/
  | vstg (t : Thr)
  /-- AFADD64 (R594): Atomic 64-bit add returning the old value. -/
  | afadd64 (t : Thr)
  /-- ASWAP64 (R594): Atomic 64-bit swap. -/
  | aswap64 (t : Thr)
  /-- ACAS64 (R594): Atomic 64-bit compare-and-swap. -/
  | acas64 (t : Thr)
  /-- ACAS128 (R594): Atomic 128-bit compare-and-swap on register pairs. -/
  | acas128 (t : Thr)
  /-- AFADDF32 (R594): Atomic FP32 add. -/
  | afaddf32 (t : Thr)
  /-- AFADDBF16 (R594): Atomic BF16 add. -/
  | afaddbf16 (t : Thr)
  /-- FENCE (R595): Waits until earlier accesses of the given scope are performed. -/
  | fence (t : Thr)
  /-- BAR (R596): Fences, then waits until every thread of the run reaches the same barrier or END. -/
  | bar (t : Thr)
  /-- LAUNCH_INSTRUCTION (R597): Sends a LAUNCH packet and waits for its answer, writing status and run number. -/
  | launchInstr (t : Thr)
  /-- GETS (R598): Reads node, tick, cycle count or flag word into a scalar. -/
  | gets (t : Thr)
  /-- BR (R599): Branches by an offset. -/
  | br (t : Thr)
  /-- BZ (R599): Branches when sa is zero. -/
  | bz (t : Thr)
  /-- BNZ (R599): Branches when sa is not zero. -/
  | bnz (t : Thr)
  /-- BPANY (R599): Branches when a predicate has any bit set. -/
  | bpany (t : Thr)
  /-- BPNONE (R599): Branches when a predicate has no bit set. -/
  | bpnone (t : Thr)
  /-- CALL (R599): Saves the return index and branches. -/
  | call (t : Thr)
  /-- RET (R599): Sets the program counter from sa. -/
  | ret (t : Thr)
  /-- END (R554): Ends the thread. -/
  | endThread (t : Thr)
  /-- NOP_INSTRUCTION (R599): Does nothing. -/
  | nop (t : Thr)
  /-- LOOP (R599): Decrements sa and branches while it is not zero. -/
  | loop (t : Thr)
  /-- QP_CONFIG (R611): Reads a queue-pair context for a queue pair that is Off. -/
  | qpConfig (d : DRef)
  /-- QP_ENABLE (R610): Enables a queue pair. -/
  | qpEnable (d : DRef)
  /-- QP_DISABLE (R610): Disables a queue pair. -/
  | qpDisable (d : DRef)
  /-- QP_QUERY (R610): Reports a queue pair's state, generation and next PSN. -/
  | qpQuery (d : DRef)
  /-- GW_WRITE (R620): Sends an RDMA WRITE from a local global address to the peer. -/
  | gwWrite (d : DRef)
  /-- GW_READ (R620): Issues an RDMA READ and writes responses into local memory. -/
  | gwRead (d : DRef)
  /-- GW_SEND (R620): Sends a SEND message from local memory. -/
  | gwSend (d : DRef)
  /-- GW_RECV_POST (R617): Returns receive slots to a queue pair. -/
  | gwRecvPost (d : DRef)
  /-- FRAME_DISCARDED (R602): An Ethernet frame that is misaddressed, bad, double-tagged or of an unhandled type is discarded and counted. -/
  | frameDiscarded (l : Fin 16) (f : EthFrame)
  /-- ARP_REQUEST (R603): Answers an ARP request for the port's IPv4 address. -/
  | arpRequest (l : Fin 16) (f : ArpRequest)
  /-- NEIGHBOUR_SOLICITATION (R603): Answers an IPv6 neighbour solicitation for the port's address. -/
  | neighbourSolicitation (l : Fin 16) (f : NeighbourSolicit)
  /-- PFC_FRAME_RECEIVE (R607): Pauses new frames of a class for the time given in a priority flow-control frame. -/
  | pfcFrameReceive (l : Fin 16) (head : PfcHead) (quanta : List (BitVec 16))
  /-- PFC_PAUSE_REPEAT (R606): Repeats the pause frame every 16 ticks while the class stays above xoff_units. -/
  | pfcPauseRepeat (l : Fin 16) (c : Fin 8)
  /-- SEND_FIRST (R616): Starts an incoming SEND into the next receive slot. -/
  | sendFirst (m : RoceMsg)
  /-- SEND_MIDDLE (R616): Writes a middle packet of an incoming SEND. -/
  | sendMiddle (m : RoceMsg)
  /-- SEND_LAST (R616): Writes the last packet of a SEND and its receive record. -/
  | sendLast (m : RoceMsg)
  /-- SEND_ONLY (R616): Writes a single-packet SEND and its receive record. -/
  | sendOnly (m : RoceMsg)
  /-- RDMA_WRITE_FIRST (R613): Checks and starts an incoming RDMA WRITE as fabric WR items. -/
  | rdmaWriteFirst (m : RoceMsg)
  /-- RDMA_WRITE_MIDDLE (R614): Writes a middle packet of an incoming RDMA WRITE. -/
  | rdmaWriteMiddle (m : RoceMsg)
  /-- RDMA_WRITE_LAST (R615): Writes the last packet of an RDMA WRITE and acknowledges after its WR_ACKs. -/
  | rdmaWriteLast (m : RoceMsg)
  /-- RDMA_WRITE_ONLY (R613): Checks and writes a single-packet RDMA WRITE. -/
  | rdmaWriteOnly (m : RoceMsg)
  /-- RDMA_READ_REQUEST (R615): Checks an incoming READ and serves it by RD_REQ items in PSN order. -/
  | rdmaReadRequest (m : RoceMsg)
  /-- RDMA_READ_RESPONSE (R620): Writes a READ response of an outgoing GW_READ into local memory. -/
  | rdmaReadResponse (m : RoceMsg)
  /-- ACKNOWLEDGE (R620): An ACK covering PSNs completes outgoing WRITE and SEND descriptors. -/
  | acknowledge (m : RoceMsg)
  /-- NAK_PSN_SEQUENCE_ERROR (R622): Retransmits from the oldest unacknowledged PSN. -/
  | nakPsnSequenceError (m : RoceMsg)
  /-- RNR_NAK (R622): Retransmits after the timer the NAK gives, within rnr_retry. -/
  | rnrNak (m : RoceMsg)
  /-- NAK_REMOTE_ACCESS_ERROR (R622): Ends the outgoing descriptor with ACCESS_DENIED and stops the queue pair. -/
  | nakRemoteAccessError (m : RoceMsg)
  /-- NAK_INVALID_REQUEST (R622): Ends the outgoing descriptor with ACCESS_DENIED and stops the queue pair. -/
  | nakInvalidRequest (m : RoceMsg)
  /-- NAK_REMOTE_OPERATIONAL_ERROR (R622): Ends the outgoing descriptor with DATA_ERROR and stops the queue pair. -/
  | nakRemoteOperationalError (m : RoceMsg)
  /-- CNP (R627): A received congestion notification lowers the queue pair's rate at the next step 7. -/
  | cnp (f : CnpFrame)
  /-- QP_ACK_TIMEOUT (R622): Retransmits after ack_ticks without ACK, or ends with TIMEOUT when retries are exhausted. -/
  | qpAckTimeout (q : Fin 16384)
  /-- QP_RNR_TIMER (R622): Retransmits after the RNR timer expires. -/
  | qpRnrTimer (q : Fin 16384)
  /-- TRAINING_CAP (R641): Takes a lane CAP training message in Negotiate and picks the initiator by nonce. -/
  | trainingCap (l : LinkId) (w : TrainLine)
  /-- TRAINING_STEP (R641): Switches the stepped lanes to the next rate after the STEP frames: a frame comes in on a lane, or, with no lane, the initiator has sent its 64. -/
  | trainingStep (l : LinkId) (lane : Option (Fin 4)) (bits : List Bool)
  /-- TRAINING_RESULT (R641): Takes the peer's PRBS result and passes or holds out lanes. -/
  | trainingResult (l : LinkId) (lane : Fin 4) (bits : List Bool)
  /-- TRAINING_LOOP (R657): Enters a far-end loop on mode 3 or leaves it on mode 0. -/
  | trainingLoop (l : LinkId) (lane : Fin 4) (bits : List Bool)
  /-- LANE_DETECT_DONE (R641): Leaves Detect when min_width + 1 lanes have held training lock for 100 µs. -/
  | laneDetectDone (l : LinkId) (seen : List DetectLane)
  /-- PRBS_WINDOW_END (R644): Ends a PRBS31 window and judges each lane against prbs_max_err. -/
  | prbsWindowEnd (l : LinkId) (errs : List Nat)
  /-- LANE_STATE_TIMEOUT (R641): A lane bring-up state reaches its time limit, returning to Detect or holding the lane out. -/
  | laneStateTimeout (l : LinkId) (lanes : BitVec 4)
  /-- LANE_FAULT (R647): A lane in service loses lock or reaches ucw_limit and is held out by the finding end. -/
  | laneFault (n : LaneId) (cause : LaneCause)
  /-- LANE_STATE_BLOCK (R648): Takes a peer's lane-state block and sets width from its tx_next. -/
  | laneStateBlock (l : LinkId) (b : LaneState)
  /-- RECOVER_RETRY (R651): Retries Recover 65,536 ticks after a failed recovery, setting failed after four. -/
  | recoverRetry (n : LaneId)
  /-- LASER_FAULT (R654): A laser fault signal darkens and holds out the lanes it feeds. -/
  | laserFault (e : Fin 24) (b : Bool)
  /-- LASER_FAULT_CLEAR (R654): When the fault clears and power reads above laser_low, starts Recover on those lanes. -/
  | laserFaultClear (e : Fin 24) (b : Bool) (pwr : Int)
  /-- OPTICAL_MEASURE (R655): Every 64 ticks measures laser, transmit and receive optical power and raises low-power events. -/
  | opticalMeasure (m : OpticalReading)
  /-- FAR_LOOP_TIMEOUT (R657): Leaves a far-end loop after 10 s without a training frame. -/
  | farLoopTimeout (l : LinkId)
  /-- FAILED (R651): Writing 1 to failed in LANE_STAT allows Recover on the lane again. -/
  | failedClear (n : LaneId)
  /-- FALLBACK (R206): Writing 1 to fallback in LINK_LL_CTRL clears fall-back so the link may negotiate above K1. -/
  | fallbackClear (l : LinkId)
  /-- SEC_SESSION_OPEN (R668): Draws ephemeral keys and writes a signed session offer. -/
  | secSessionOpen (d : DRef)
  /-- SEC_SESSION_FINISH (R667): Verifies the key-service reply and derives the session key. -/
  | secSessionFinish (d : DRef)
  /-- SEC_PROVISION (R669): Decrypts and checks a provisioning record for application at the next boundary. -/
  | secProvision (d : DRef)
  /-- PROVISION_APPLY (R670): Applies an accepted record at the next boundary, ending Lockdown and drawing new Larder keys. -/
  | provisionApply
  /-- SEC_ZEROISE (R681): Performs the alarm response with source 0xFE. -/
  | secZeroise (d : DRef)
  /-- SEC_FLOOR_RAISE (R664): Blows image-floor fuses up to a new floor. -/
  | secFloorRaise (d : DRef)
  /-- SEC_STATE (R676): Reports STRONG_STATE. -/
  | secState (d : DRef)
  /-- TAMPER_TRIP (R679): A tamper sensor trips and performs its policy response, clearing keys and driving ALARM_N for an alarm. -/
  | tamperTrip (sensor : Fin 8)
  /-- LOCKDOWN_ENTER (R682): At the boundary after keys clear, enters Lockdown, fails encrypted links and stops functions. -/
  | lockdownEnter
  /-- GET_VERSION (R676): Answers the SPDM version request. -/
  | getVersion (t : Transport)
  /-- GET_CAPABILITIES (R676): Answers the SPDM capabilities request. -/
  | getCapabilities (t : Transport)
  /-- NEGOTIATE_ALGORITHMS (R676): Answers SPDM algorithm negotiation. -/
  | negotiateAlgorithms (t : Transport)
  /-- GET_DIGESTS (R676): Returns certificate chain digests. -/
  | getDigests (t : Transport)
  /-- GET_CERTIFICATE (R676): Returns a portion of the certificate chain. -/
  | getCertificate (t : Transport) (offset len : BitVec 16)
  /-- CHALLENGE (R676): Returns a signed CHALLENGE_AUTH response. -/
  | challenge (t : Transport) (nonce : BitVec 256)
  /-- GET_MEASUREMENTS (R676): Returns measurement blocks, signed on request. -/
  | getMeasurements (t : Transport) (index : BitVec 8) (signed : Bool) (nonce : BitVec 256)
  /-- VENDOR_DEFINED_REQUEST (R677): Returns the ML-DSA-65 signature or certificate chain by command. -/
  | vendorDefinedRequest (t : Transport) (vendor : BitVec 32) (cmd : BitVec 8) (portion : BitVec 16)
  /-- FW_STAGE (R695): Reads, verifies and writes a firmware envelope into the bank not running. -/
  | fwStage (d : DRef)
  /-- FW_ACTIVATE (R697): At a boundary sets the trial bank active and restarts the Attic. -/
  | fwActivate (d : DRef)
  /-- FW_COMMIT (R698): Commits the running trial image. -/
  | fwCommit (d : DRef)
  /-- ATTIC_RESTART_DONE (R697): The new or old image reaches running, fetch resumes and LEVEL_OFFER is sent. -/
  | atticRestartDone (started : Bool)
  /-- WATCHDOG_EXPIRY (R697): A core watchdog expires and the Attic restarts under the boot procedure. -/
  | watchdogExpiry
  /-- DRAIN (R703): Starts a drain, closing admission of new work. -/
  | drain (d : DRef)
  /-- UNDRAIN (R706): Ends a drain and reopens admission at the next boundary. -/
  | undrain (d : DRef)
  /-- DRAINED_POINT (R704): When admitted work is done, no traffic has entered and no undercoat is held, completes DRAIN. -/
  | drainedPoint
  /-- DRAIN_LIMIT_EXPIRED (R705): Completes DRAIN with TIMEOUT after drain_limit ticks. -/
  | drainLimitExpired
  /-- SET_NUMERIC_EFFECTER_VALUE (R725): Sets or removes the sideband power cap. -/
  | setNumericEffecterValue (effecter : BitVec 16) (watts : BitVec 16)
  /-- PLDM_REQUEST (R710): Answers a PLDM discovery or monitoring request. -/
  | pldmRequest (r : PldmReq)
  /-- POWER_ON_RESET (R714): The supply crossing its threshold, or collapsing for 10 µs, resets the whole module. -/
  | powerOnReset
  /-- PIN_RESET (R714): RESET_N held low for 1 µs resets the module. -/
  | pinReset
  /-- POWER_GOOD (R718): With rails in regulation and RESET_N high, ends reset and starts the boot ROM. -/
  | powerGood (fuses : FuseReading)
  /-- SUPPLY_LOW (R712): A supply below 58 V holds the part at the floor within 20 µs. -/
  | supplyLow
  /-- SUPPLY_RECOVERED (R712): Releases the hold after 64 ticks at or above 58 V. -/
  | supplyRecovered
  /-- MODULE_RESET (R714): Writes its completion and schedules a module reset 8 ticks later. -/
  | moduleReset (d : DRef)
  /-- MODULE_RESET_APPLY (R714): Resets the module at the boundary 8 ticks after MODULE_RESET started. -/
  | moduleResetApply
  /-- POWER_CAP (R717): Sets or removes the command cap. -/
  | powerCap (d : DRef)
  /-- POWER_MEASURE (R727): Every 64 ticks measures input power, takes new caps and steps throttle and thermal fractions. -/
  | powerMeasure (watts : Nat) (junction : BitVec 8)
  /-- BRAKE_ASSERT (R733): PWR_BRAKE_N low for 200 ns sets the throttle level to 48 within 20 µs. -/
  | brakeAssert
  /-- BRAKE_RELEASE (R734): After PWR_BRAKE_N has been high 64 ticks, resumes the cap procedure from level 48. -/
  | brakeRelease
  /-- THERMAL_SHUTDOWN (R737): A junction at 120 °C or more shuts the module down within 1 ms. -/
  | thermalShutdown
  /-- READY_ASSERT (R720): Asserts READY at the first boundary with image running, Larder done, Enzen Active and tick lock. -/
  | readyAssert
  /-- READY_TIMEOUT (R723): Raises event 0x33 when READY has not asserted 4 s after power-good. -/
  | readyTimeout
  /-- FAULT_LOG_READ (R756): Copies fault-log entries into host memory. -/
  | faultLogRead (d : DRef)
  /-- CTR_READ (R769): Copies counter pages from one snapshot to host memory. -/
  | ctrRead (d : DRef)
  /-- DUMP_CONFIG (R770): Configures a dump channel from the next boundary. -/
  | dumpConfig (d : DRef)
  /-- PEEP_CONFIG (R773): Configures the Peephole of a link port. -/
  | peepConfig (d : DRef)
  /-- TELEM_COPY (R768): Copies bytes of the telemetry area into host memory. -/
  | telemCopy (d : DRef)
  /-- DUMP_DUE (R771): At a boundary 0 mod period, copies the channel's pages or skips when the previous record is unfinished. -/
  | dumpDue (c : Fin 4)
  /-- DUMP_RECORD_COMPLETE (R772): After the last page image of a record is written, writes its header. -/
  | dumpRecordComplete (c : Fin 4)
  /-- PORT_CTRL_ENABLE (R790): Writing enable in PORT_CTRL enables the link port. -/
  | portCtrlEnable (l : LinkId)
  /-- PORT_CTRL_DISABLE (R791): Writing disable in PORT_CTRL takes the port to Stopping and fails its link. -/
  | portCtrlDisable (l : LinkId)
  /-- RING_CTRL_ENABLE (R788): Writing enable in SQ0_CTRL, CQ0_CTRL or EV_CTRL enables that ring. -/
  | ringCtrlEnable (r : RegRing)
  /-- RING_CTRL_DISABLE (R788): Writing disable in SQ0_CTRL, CQ0_CTRL or EV_CTRL disables that ring. -/
  | ringCtrlDisable (r : RegRing)
  /-- BYPASS (R803): Test access port bypass instruction. -/
  | bypass
  /-- IDCODE (R803): Test access port returns IDCODE 0x1962_40AF. -/
  | idcode
  /-- SAMPLE_PRELOAD (R803): Test access port samples or preloads the boundary scan. -/
  | samplePreload (scan : List Bool)
  /-- EXTEST (R803): Test access port drives pins while RESET_N is low, else acts as BYPASS. -/
  | extest (scan : List Bool)
  /-- CORE_SLOT (R240): In each slot the cyclic core connects every input to slice (i + t) mod 128 and every slice to output (m + t) mod 128, so waiting cells cross stage one, slices add or serve held and spilled Hawk cells, and queued cells and replicas cross stage two. -/
  | coreSlot
  /-- LARDER_CONTROLLER_SLOT (R407): In each slot a stack controller takes up to five waiting requests, eligible by class guarantee and ordered under R73, and performs them. -/
  | larderControllerSlot (s : StackId)
  /-- LAST_BYTE_LEAVES (R316): A packet's last byte leaves its egress link, delivering multicast and stream copies, releasing replica credits and triggering COLL_STATUS, op records and stream counter words. -/
  | lastByteLeaves (l : LinkId)
  /-- ALIGN_COMPLETE (R641): The stepped or recovered lanes gain block lock, codeword lock and deskew, ending Align and entering Service, where the link layer sends LINK_CAP. -/
  | alignComplete (l : LinkId) (seen : List AlignLane)
  /-- ETHERNET_PORT_SERVICE (R659): The lanes of a link with eth_mode = 1 gain lock at their port type's coding and the Ethernet port enters service. -/
  | ethernetPortService (l : Fin 16)
  /-- LARDER_PHASE_END (R720): The start-up Larder phase ends after training the 24 stacks, drawing Larder keys, retiring recorded frames and writing firmware data and table store. -/
  | larderPhaseEnd
  /-- FLASH_WRITE_DONE (R690): A write to boot flash ends: an image bank's programming and read-back, which completes FW_STAGE, or a boot-record or retired-frame log write. -/
  | flashWriteDone (readBackOk : Bool)
  /-- OE_LASER_ENABLE (R654): A write of en_a or en_b in OE_LASER changes a laser enable, darkening the lanes it feeds when 0 and allowing Recover when 1. -/
  | oeLaserEnable (e : Fin 24) (enA enB : Bool)
  deriving DecidableEq, Repr

end Sys2Proof
end

