-- ==== Sys2Proof/Config.lean ====
section
/-!
DEFINITION. What an implementation fixes and what the spec leaves open: the free values (opaque constants without a
body, so that no proof can see one) and the cryptographic functions, which the model leaves uninterpreted.
-/
namespace Sys2Proof

/-- FREE VALUE. Use number `n` of a value that the spec leaves open (log 2). -/
opaque Config.freeValue : Nat → Word

/-- The serial number of CHIP_SERIAL, from the fuses (Table 24-2). -/
opaque Config.serial : Word

/-- Whether a signature verifies over a message under a public key, algorithm 0 being Ed25519 and 1 ML-DSA-65 with an empty context
(R663): uninterpreted (log 3). -/
opaque Config.verifySig : Nat → List Byte → List Byte → List Byte → Bool

/-- The digest of a byte string under SHA-384 (R661): uninterpreted (log 3). -/
opaque Config.sha384 : List Byte → BitVec 384

/-- A signature by the module's device key over the bytes, under key kind `n` (R667, R677): uninterpreted (log 3). -/
opaque Config.sign : Nat → List Byte → List Byte

/-- The X25519 shared secret of the module's ephemeral key of draw `n` and a public key (R667): uninterpreted (log 3). -/
opaque Config.x25519 : Nat → List Byte → List Byte

/-- The ML-KEM-768 shared secret that the module's decapsulation key of draw `n` finds in a ciphertext (R667): uninterpreted (log 3). -/
opaque Config.mlKem : Nat → List Byte → List Byte

/-- The default equalisation table of the firmware image: a header of 32 bytes and 1,536 entries (R645, log 3). -/
opaque Config.eqDefault : List Byte

/-- The plaintext of a record sealed under a session key, none when its tag does not verify (R669): uninterpreted
(log 3). -/
opaque Config.openRecord : BitVec 256 → List Byte → Option (List Byte)

/-- The certificate chain of the module's identity, and the chain of its second algorithm (R676): fixed at
manufacture. -/
opaque Config.certChain : Nat → List Byte

/-- FREE VALUE. What region `n` of boot flash holds when the module is first powered: bank A, none, the configuration bundle,
the equalisation table (log 31). -/
opaque Config.flash : Nat → List Byte

/-- The digest of Gingesia's image anchor of slot 0, fixed in the boot ROM (R663). -/
opaque Config.anchor0 : BitVec 384

/-- The digest of a byte string under SHA3-384 (Table 19-1): uninterpreted (log 3). -/
opaque Config.sha3 : List Byte → BitVec 384

/-- The digest of the boot ROM (Table 19-8a). -/
opaque Config.romDigest : BitVec 384

/-- `n` bytes of HKDF-SHA-384 from key material, salt and info (R673): uninterpreted (log 3). -/
opaque Config.hkdf384 : List Byte → List Byte → List Byte → Nat → List Byte

/-- AES-256-GCM of a plaintext under key, IV and associated data: the ciphertext with its tag of 16 bytes behind it (R674):
uninterpreted (log 3). -/
opaque Config.gcmSeal : List Byte → List Byte → List Byte → List Byte → List Byte

/-- The plaintext of a ciphertext with its tag under key, IV and associated data, none when the tag fails (R675): uninterpreted
(log 3). -/
opaque Config.gcmOpen : List Byte → List Byte → List Byte → List Byte → Option (List Byte)

end Sys2Proof
end

