-- ==== Sys2Proof/Machine/Operands.lean ====
section
/-!
DEFINITION. Bit fields, byte strings, checks and the layouts of packets, descriptors and frames (Tables 3-7, 4-4, 4-9, 5-1,
5-3 and 5-6).
-/
namespace Sys2Proof
namespace Machine

/-! ### Bit fields and bytes -/

/-- Field of `len` bits from bit `lo` of a number (R4). -/
def bitsOf (w lo len : Nat) : Nat := (w >>> lo) % 2 ^ len

/-- Field of a bit vector, as a number (R4). -/
def fld {n : Nat} (w : BitVec n) (lo len : Nat) : Nat := (w.toNat >>> lo) % 2 ^ len

/-- One bit of a bit vector (R4). -/
def bit {n : Nat} (w : BitVec n) (i : Nat) : Bool := w.getLsbD i

/-- The word with field `lo`, `len` replaced. -/
def setFld (w : Word) (lo len v : Nat) : Word :=
  (w &&& ~~~(BitVec.ofNat 64 ((2 ^ len - 1) * 2 ^ lo))) ||| BitVec.ofNat 64 ((v % 2 ^ len) * 2 ^ lo)

/-- A two's complement field of `len` bits as a signed number. -/
def signed (len v : Nat) : Int := if v % 2 ^ len < 2 ^ (len - 1) then (v % 2 ^ len : Nat) else (v % 2 ^ len : Nat) - (2 : Int) ^ len

/-- `n` bytes of a number, little-endian (R5). -/
def leBytes : Nat → Nat → List Byte
  | 0, _ => []
  | n + 1, v => BitVec.ofNat 8 v :: leBytes n (v / 256)

/-- The number that bytes spell, little-endian (R5). -/
def leNat : List Byte → Nat
  | [] => 0
  | b :: bs => b.toNat + 256 * leNat bs

/-- `n` bytes of a number, most significant first (R5, network order). -/
def beBytes (n v : Nat) : List Byte := (leBytes n v).reverse

/-- The number that bytes spell, most significant first. -/
def beNat (bs : List Byte) : Nat := leNat bs.reverse

/-- Bytes `i` to `i + n` of a list, zero beyond its end. -/
def slice (bs : List Byte) (i n : Nat) : List Byte :=
  let t := (bs.drop i).take n
  t ++ List.replicate (n - t.length) 0

/-- A little-endian field of `n` bytes at offset `i`. -/
def leAt (bs : List Byte) (i n : Nat) : Nat := leNat (slice bs i n)

/-- The bytes padded with zeros to a multiple of `m`. -/
def padTo (m : Nat) (bs : List Byte) : List Byte := bs ++ List.replicate ((m - bs.length % m) % m) 0

/-- Numbers `a`, `a + 1`, … (`n` of them). -/
def upFrom (a : Nat) : Nat → List Nat
  | 0 => []
  | n + 1 => a :: upFrom (a + 1) n

/-- The number rounded up to the next whole quotient. -/
def ceilDiv (a b : Nat) : Nat := (a + b - 1) / b

/-! ### Checks -/

/-- One bit of CRC-16 (R144). -/
def crc16Bit (c : BitVec 16) : BitVec 16 := if c.msb then (c <<< 1) ^^^ 0x1021 else c <<< 1

/-- One byte of CRC-16. -/
def crc16Byte (c : BitVec 16) (b : Byte) : BitVec 16 :=
  let c := c ^^^ (b.setWidth 16 <<< 8)
  crc16Bit (crc16Bit (crc16Bit (crc16Bit (crc16Bit (crc16Bit (crc16Bit (crc16Bit c)))))))

/-- CRC-16 with polynomial 0x1021 and initial value 0xFFFF (R144). -/
def crc16 (bs : List Byte) : BitVec 16 := bs.foldl crc16Byte 0xFFFF

/-- One bit of reflected CRC-32 (R152). -/
def crc32Bit (c : BitVec 32) : BitVec 32 := if bit c 0 then (c >>> 1) ^^^ 0xEDB88320 else c >>> 1

/-- One byte of CRC-32. -/
def crc32Byte (c : BitVec 32) (b : Byte) : BitVec 32 :=
  let c := c ^^^ b.setWidth 32
  crc32Bit (crc32Bit (crc32Bit (crc32Bit (crc32Bit (crc32Bit (crc32Bit (crc32Bit c)))))))

/-- CRC-32 of IEEE 802.3 (R152). -/
def crc32 (bs : List Byte) : BitVec 32 := ~~~(bs.foldl crc32Byte 0xFFFFFFFF)

/-! ### Status codes (Table 3-7, R82) -/

abbrev stOk : BitVec 8 := 0x00
abbrev stAged : BitVec 8 := 0x01
abbrev stLinkLost : BitVec 8 := 0x02
abbrev stNodeLost : BitVec 8 := 0x03
abbrev stMemberLost : BitVec 8 := 0x04
abbrev stPoliced : BitVec 8 := 0x05
abbrev stNoRoom : BitVec 8 := 0x06
abbrev stDataError : BitVec 8 := 0x07
abbrev stDenied : BitVec 8 := 0x08
abbrev stLate : BitVec 8 := 0x09
abbrev stPartial : BitVec 8 := 0x0A
abbrev stHalt : BitVec 8 := 0x0B
abbrev stStaleGen : BitVec 8 := 0x0C
abbrev stCancelled : BitVec 8 := 0x0D
abbrev stOverrun : BitVec 8 := 0x0E
abbrev stDrained : BitVec 8 := 0x0F
abbrev stTimeout : BitVec 8 := 0x10
abbrev stStaleCoat : BitVec 8 := 0x11
abbrev stBad : BitVec 8 := 0x12

/-! ### Fabric packets -/

/-- Header bits [239:0] (Table 5-1) with the fields that R152 takes as zero given. -/
def hdrNat (p : Packet) (coat ecn vph via inj : Nat) : Nat :=
  p.opcode.toNat + coat <<< 8 + p.vc.val <<< 12 + p.last.toNat <<< 15 + p.dst.toNat <<< 16 + p.ordered.toNat <<< 28
    + ecn <<< 29 + p.ecnEcho.toNat <<< 30 + vph <<< 31 + p.src.toNat <<< 32 + p.mcast.toNat <<< 44 + p.rsvA.toNat <<< 45
    + p.tenant.toNat <<< 48 + p.status.toNat <<< 56 + p.tag.toNat <<< 64 + p.gen.toNat <<< 80 + via <<< 96
    + p.rsvB.toNat <<< 108 + inj <<< 112 + p.addr.toNat <<< 128 + p.itemLen.toNat <<< 192 + p.payLen.toNat <<< 224
    + p.rsvC.toNat <<< 237

/-- Header bytes 0 to 29 as they travel (R143). -/
def hdrBytes (p : Packet) : List Byte :=
  leBytes 30 (hdrNat p p.coat.toNat p.ecnCe.toNat p.vphase.toNat p.via.toNat p.injTick.toNat)

/-- hdr_crc as a node computes it when the packet leaves (R144). -/
def hdrCrcOf (p : Packet) : BitVec 16 := crc16 (hdrBytes p)

/-- crc32 of a data packet (R152). -/
def crc32Of (p : Packet) : BitVec 32 := crc32 (leBytes 30 (hdrNat p 0 0 0 0 0) ++ padTo 8 p.payload)

/-- A data packet has a payload (R817). -/
def isData (p : Packet) : Bool := p.payLen ≠ 0

/-- Bytes of the packet on a link: header, padded payload and trailer (R142). -/
def pktLen (p : Packet) : Nat := if isData p then 32 + 8 * ceilDiv p.payLen.toNat 8 + 8 else 32

/-- The packet's byte string (R142). -/
def pktBytes (p : Packet) : List Byte :=
  hdrBytes p ++ leBytes 2 p.hdrCrc.toNat ++
    (if isData p then padTo 8 p.payload ++ leBytes 4 p.crc32.toNat ++
        leBytes 4 (p.stomp.toNat + p.split.toNat * 2 + p.rsvT.toNat * 4)
      else [])

/-- Flits of the packet on a K1 link (R155). -/
def k1Flits (p : Packet) : Nat := ceilDiv (pktLen p) 62

/-- Kinds of flit (Table 5-5). -/
abbrev flitIdle : BitVec 3 := 0
abbrev flitHead : BitVec 3 := 1
abbrev flitBody : BitVec 3 := 2
abbrev flitTail : BitVec 3 := 3
abbrev flitSingle : BitVec 3 := 5

/-- The kind is one that Table 5-5 reserves. -/
def flitReserved (k : BitVec 3) : Bool := k = 4 || k = 6 || k = 7

/-- Kind of flit `i` of `n`. -/
def flitKind (n i : Nat) : BitVec 3 :=
  if n = 1 then flitSingle else if i = 0 then flitHead else if i + 1 = n then flitTail else flitBody

/-- One flit of Table 5-5. -/
def flitBytes (kind : BitVec 3) (vc : Vc) (content : List Byte) : List Byte :=
  leBytes 2 (kind.toNat + vc.toNat * 8 + content.length * 256) ++ padTo 62 content

/-- The flits that carry a packet on a K1 link, one after another: its byte string in pieces of 62 bytes (R155). -/
def pktFlits (p : Packet) : List Byte :=
  (upFrom 0 (k1Flits p)).flatMap (fun i => flitBytes (flitKind (k1Flits p) i) p.vc (((pktBytes p).drop (62 * i)).take 62))

/-- The idle flits that fill `n` bytes and may go beyond them (R196). -/
def idleFlits (n : Nat) : List Byte := List.replicate (64 * ceilDiv n 64) 0

/-- Units that the packet costs on a link of generation `g` (R219). -/
def pktUnits (g : BitVec 2) (p : Packet) : Nat :=
  if g = 1 then k1Flits p else if isData p then ceilDiv (pktLen p) 64 else 1

/-- Bytes B charged for the packet on a link of generation `g` (Table 9-2). -/
def pktCharge (g : BitVec 2) (p : Packet) : Nat := if g = 1 then 64 * k1Flits p else pktLen p

/-- Cells of a unicast or multicast packet (R237). -/
def pktCells (p : Packet) : Nat := ceilDiv (pktLen p) 256

/-- Channel, and lowest and highest pay_len, of each opcode of Table 5-6; a control packet has 0 and 0. -/
def opRow (op : BitVec 8) : Option (Vc × Nat × Nat) :=
  match op.toNat with
  | 0x01 => some (0, 0, 0)
  | 0x02 => some (2, 1, 4096)
  | 0x08 => some (0, 8, 8)
  | 0x09 => some (0, 8, 8)
  | 0x0A => some (0, 16, 16)
  | 0x0B => some (0, 32, 32)
  | 0x0C => some (0, 4, 4)
  | 0x0D => some (0, 2, 2)
  | 0x10 => some (0, 1, 256)
  | 0x11 => some (0, 1, 4096)
  | 0x20 => some (3, 0, 0)
  | 0x21 => some (3, 1, 4096)
  | 0x22 => some (3, 0, 0)
  | 0x23 => some (3, 1, 4096)
  | 0x28 => some (4, 1, 4096)
  | 0x29 => some (4, 1, 4096)
  | 0x2A => some (4, 16, 16)
  | 0x30 => some (5, 1, 4096)
  | 0x31 => some (5, 8, 8)
  | 0x38 => some (5, 0, 0)
  | 0x50 => some (7, 1, 4096)
  | 0x81 => some (1, 1, 4096)
  | 0x82 => some (1, 0, 0)
  | 0x88 => some (1, 2, 16)
  | 0x8F => some (1, 0, 0)
  | 0x90 => some (1, 0, 0)
  | 0x91 => some (1, 1, 4096)
  | 0xA0 => some (1, 16, 16)
  | _ => none

/-- The opcode is one of Table 5-6 and pay_len is of its class and range (R165, R817). -/
def opOk (p : Packet) : Bool :=
  match opRow p.opcode with
  | some (_, lo, hi) => decide (lo ≤ p.payLen.toNat) && decide (p.payLen.toNat ≤ hi)
  | none => false

/-- Opcodes that K2 and K1 links do not carry (Table 5-4). -/
def k3Only (op : BitVec 8) : Bool := op = 0x0B || op = 0x11 || op = 0x91 || op = 0x23 || op = 0x29

/-- A link of generation `g` carries the opcode (R157). -/
def genCarries (g : BitVec 2) (op : BitVec 8) : Bool := g = 3 || !k3Only op

/-- Largest pay_len of a generation (Table 5-4). -/
def genMax (g : BitVec 2) : Nat := if g = 3 then 4096 else if g = 2 then 1024 else 256

/-- The packet is an atomic request. -/
def isAtomic (p : Packet) : Bool := 0x08 ≤ p.opcode.toNat && p.opcode.toNat ≤ 0x0D

/-- Answers, whose owner is their destination (R150, Table 5-6). -/
def isAnswer (op : BitVec 8) : Bool := 0x80 ≤ op.toNat

/-- The node that owns the packet's item (R150). A packet handled as one with a reserved opcode answers to its source (R165,
R817). -/
def ownerOf (p : Packet) : BitVec 12 := if isAnswer p.opcode && opOk p then p.dst else p.src

/-- FAIL serves only items whose answer column names it, and the answers to them; a reserved opcode draws one too (R165,
R168). -/
def failServes (p : Packet) : Bool :=
  isAnswer p.opcode && p.opcode ≠ 0x8F && p.opcode ≠ 0xA0 && opOk p || p.opcode.toNat ≤ 0x11 || !opOk p

/-- A copy of a multicast packet draws no FAIL (R262, R316). -/
def drawsFail (p : Packet) : Bool := !p.mcast && failServes p

/-- The packet with the CRCs that it leaves with (R144, R152). -/
def sealPkt (p : Packet) : Packet :=
  let q := if isData p then { p with crc32 := crc32Of p } else p
  { q with hdrCrc := hdrCrcOf q }

/-- The FAIL for packet `p` with status `st`, from node `node` (R167, Table 5-2a). -/
def failOf (node : BitVec 12) (st : BitVec 8) (p : Packet) : Packet :=
  { opcode := 0x8F, vc := 1, last := true, dst := ownerOf p, src := node, tenant := p.tenant, status := st, tag := p.tag,
    gen := p.gen, addr := p.addr, itemLen := p.payLen.setWidth 32 }

/-- The pieces into which R159 and R160 cut the payload of `p` at multiples of `lim`: `fuel` bounds their number. -/
def cutPkt (lim : Nat) (p : Packet) : Nat → Nat → List Byte → List Packet
  | 0, _, _ => []
  | fuel + 1, a, bs =>
    let n := lim - a % lim
    let here := bs.take n
    let rest := bs.drop n
    let q : Packet := { p with addr := BitVec.ofNat 64 a, payLen := BitVec.ofNat 13 here.length, payload := here,
                               last := p.last && rest.isEmpty, split := true }
    sealPkt q :: (if rest.isEmpty then [] else cutPkt lim p fuel (a + n) rest)

/-- The packets that a module sends onto a link of generation `g` for packet `p` (R159 to R161). -/
def splitFor (g : BitVec 2) (p : Packet) : List Packet :=
  if genMax g < p.payLen.toNat && !isAtomic p then cutPkt (genMax g) p 17 p.addr.toNat p.payload else [p]

/-! ### Descriptors (Table 4-9) -/

def dOpcode (d : BitVec 512) : BitVec 8 := d.extractLsb' 0 8
def dNoCompl (d : BitVec 512) : Bool := bit d 8
def dFence (d : BitVec 512) : Bool := bit d 9
def dTimed (d : BitVec 512) : Bool := bit d 10
def dExact (d : BitVec 512) : Bool := bit d 11
def dIrq (d : BitVec 512) : Bool := bit d 12
def dGen (d : BitVec 512) : BitVec 16 := d.extractLsb' 16 16
def dTarget (d : BitVec 512) : BitVec 16 := d.extractLsb' 32 16
def dCookie (d : BitVec 512) : BitVec 32 := d.extractLsb' 64 32
def dApply (d : BitVec 512) : BitVec 48 := d.extractLsb' 128 48

/-- Bytes `off` to `off + n - 1` of the descriptor, as a number. -/
def dByte (d : BitVec 512) (off n : Nat) : Nat := fld d (8 * off) (8 * n)

/-- The descriptor's 64-bit field at byte `off`. -/
def dWord (d : BitVec 512) (off : Nat) : Word := d.extractLsb' (8 * off) 64

/-- The reserved bits of the common header are zero (R6, Table 4-9). -/
def dHdrZero (d : BitVec 512) : Bool := fld d 13 3 = 0 && fld d 48 16 = 0 && fld d 96 32 = 0 && fld d 176 16 = 0

/-- Bits [hi:lo] of the descriptor are zero. -/
def dZero (d : BitVec 512) (lo len : Nat) : Bool := fld d lo len = 0

/-- Opcodes that are not reserved: the opcode tables of the chapters that define the families (Table 4-10). -/
def dKnown (op : BitVec 8) : Bool :=
  [0x00, 0x01, 0x02, 0x03, 0x04, 0x05, 0x06, 0x07, 0x08, 0x09, 0x0A, 0x0B, 0x10, 0x11, 0x12, 0x18, 0x19, 0x1A, 0x1B, 0x1C,
   0x1D, 0x20, 0x21, 0x22, 0x23, 0x30, 0x31, 0x32, 0x33, 0x34, 0x40, 0x41, 0x42, 0x43, 0x44, 0x48, 0x49, 0x4A, 0x50, 0x51,
   0x52, 0x53, 0x54, 0x60, 0x61, 0x62, 0x63, 0x64, 0x65, 0x66, 0x67, 0x70, 0x71, 0x72, 0x73, 0x74, 0x75, 0x80, 0x81, 0x82,
   0x83].contains op.toNat

/-- Families marked privileged in Table 4-10. -/
def dPrivFamily (op : BitVec 8) : Bool := op.toNat / 16 = 0 || op.toNat / 16 = 5 || op.toNat / 16 = 7

/-- The opcode's boundary work applies at apply_tick (R818). -/
def dBoundary (op : BitVec 8) : Bool := op = 0x50 || op = 0x51 || op = 0x05 || op = 0x07 || op = 0x0A

/-- A status as the part reports it: the reserved codes 0x13 to 0xFF, which a peer may send but the part never returns, count as
DATA_ERROR (R82, log 114). -/
def legalStatus (st : BitVec 8) : BitVec 8 := if st.toNat ≤ 0x12 then st else stDataError

/-! ### Enzen frames (Table 4-4) -/

/-- Header and payload of a frame (R94). -/
def frameBytes (f : HostFrame) : List Byte :=
  let n := if f.payload.isEmpty then f.len.toNat else f.payload.length
  leBytes 8 (f.ftype.toNat + f.status.toNat <<< 8 + n <<< 16 + f.tag.toNat <<< 32 + f.dataOffset.toNat <<< 48)
    ++ leBytes 8 f.addr.toNat ++ f.payload

/-- The frame whose header and payload the bytes are. -/
def frameOf (bs : List Byte) : HostFrame :=
  { ftype := BitVec.ofNat 8 (leAt bs 0 1), status := BitVec.ofNat 8 (leAt bs 1 1), tag := BitVec.ofNat 16 (leAt bs 4 2),
    dataOffset := BitVec.ofNat 13 (leAt bs 6 2), addr := BitVec.ofNat 64 (leAt bs 8 8),
    payload := (bs.drop 16).take (leAt bs 2 2 % 8192) }

end Machine
end Sys2Proof
end

