-- ==== Sys2Proof/Machine/StateHost.lean ====
section
/-!
DEFINITION. The state of the tick, the function instances, the Enzen link, the rings, the registers, the events and the
counters (chapters 02, 03, 04, 22, 23 and 24). Each field's docstring gives its width, its rule and, after `reset:`, its
value at reset.
-/
namespace Sys2Proof
namespace Machine

/-- A tick master as a follower knows it (R24). -/
structure Master where
  node : BitVec 12
  prio : BitVec 4
  deriving DecidableEq, Repr

/-- What a link last heard from its peer (R24, R30, R31). -/
structure Heard where
  /-- last announce accepted and the elapsed tick of it (R24) -/
  ann : Option (Announce × BitVec 48) := none
  /-- last marker accepted, its receive time in 0.125 ns and its elapsed tick (R31) -/
  mark : Option (Marker × Nat × BitVec 48) := none
  /-- last echo: time from the own marker's transmission to the peer's arrival in one tick, in 0.125 ns (Table 2-3) -/
  echo : Option Int := none
  deriving DecidableEq, Repr

/-- A step of the tick number that waits for the next edge (R42). -/
structure StepWait where
  ext : BitVec 10
  tick : BitVec 48
  deriving DecidableEq, Repr

/-- The tick (chapter 02). -/
structure TickState where
  /-- elapsed count | 48 | R22 (02) | reset: 0 -/
  elapsed : BitVec 48 := 0
  /-- offset of the tick number | 48 | R22 (02) | reset: 0 -/
  offset : BitVec 48 := 0
  /-- number of the tick before this one, from which the numbers that a step passes are known | 48 | R44 (02) | reset: 2^48 - 1 (DESIGN CHOICE, log 111) -/
  prev : BitVec 48 := 0xFFFFFFFFFFFF
  /-- slot of the tick | count | R21 (02) | reset: 0 -/
  slot : Nat := 0
  /-- slots of the current tick | count | R21, R42 (02) | reset: 1024 -/
  len : Nat := 1024
  /-- nanoseconds since the end of reset | count | R10 (00) | reset: 0 -/
  ns : Nat := 0
  /-- last step of Table 2-6 applied at this boundary | count | R50 (02) | reset: 0 -/
  phase : Nat := 0
  /-- steps of Table 2-6 without a row of their own that are still to apply at this boundary | list | R50 (02) | reset: none -/
  todo : List Nat := []
  /-- master followed, none while electing | 16 | R24 (02) | reset: none -/
  master : Option Master := none
  /-- the module is the tick master | 1 | R24, R719 (02, 21) | reset: false -/
  isMaster : Bool := false
  /-- the start-up wait of 256 ticks is over | 1 | R719 (21) | reset: false -/
  settled : Bool := false
  /-- hops to the master | 3 | R25 (02) | reset: 0 -/
  hops : BitVec 3 := 0
  /-- upstream link | 7 | R25 (02) | reset: none -/
  upstream : Option LinkId := none
  /-- what each link last heard | table | R24, R31 (02) | reset: nothing -/
  heard : Tbl Heard := []
  /-- elapsed tick of the master's last announce | 48 | R28 (02) | reset: 0 -/
  lastAnn : BitVec 48 := 0
  /-- last markers sent, per link, and their elapsed ticks | table | R30 (02) | reset: none -/
  txMark : Tbl (Option (Marker × BitVec 48)) := []
  /-- last announces sent, per link | table | R30 (02) | reset: none -/
  txAnn : Tbl (Option Announce) := []
  /-- last computed error, units of 0.0625 ns | signed | R32 (02) | reset: 0 -/
  error : Int := 0
  /-- that error was computed against the present upstream link | 1 | R42 (02) | reset: false -/
  errOk : Bool := false
  /-- elapsed tick of the last computed error | 48 | R32 (02) | reset: none -/
  errAt : Option (BitVec 48) := none
  /-- displacement of the tick edge, units of 0.0625 ns | signed | R32 (02) | reset: 0 -/
  edge : Int := 0
  /-- last frequency correction, units of 0.0625 ns per tick | signed | R32, R39 (02) | reset: 0 -/
  corr : Int := 0
  /-- consecutive ticks within 0.5 ns | count | R33 (02) | reset: 0 -/
  within : Nat := 0
  /-- consecutive ticks beyond 1 ns | count | R33 (02) | reset: 0 -/
  beyond : Nat := 0
  /-- lock | 1 | R33, R37 (02) | reset: false -/
  locked : Bool := false
  /-- holdover | 1 | R38 (02) | reset: false -/
  holdover : Bool := false
  /-- elapsed tick at which holdover began | 48 | R40 (02) | reset: 0 -/
  holdSince : BitVec 48 := 0
  /-- tick loss declared, the module runs free | 1 | R40 (02) | reset: false -/
  lost : Bool := false
  /-- step that waits for the next edge | 58 | R42 (02) | reset: none -/
  step : Option StepWait := none
  /-- offsets that steps replaced, newest first, and their elapsed ticks (R148) | list | R148 (05) | reset: none -/
  steps : List (BitVec 48 × BitVec 48) := []
  /-- consecutive TICK_IN edges missed | count | R48 (02) | reset: 0 -/
  missed : Nat := 0
  deriving DecidableEq, Repr

/-- The four function states (Table 3-6, R75). -/
inductive FnSt where
  | off | starting | on | stopping
  deriving DecidableEq, Repr

/-- A function instance: its state, its generation and the enables and disables that wait (R75 to R78, R813). An enable
or disable by register has no descriptor to complete. -/
structure Fn where
  /-- function state | 2 | R75 (03) | reset: off -/
  st : FnSt := .off
  /-- generation | 16 | R76 (03) | reset: 0 -/
  gen : BitVec 16 := 0
  /-- enable recorded as pending | 1 | R77 (03) | reset: false -/
  pend : Bool := false
  /-- disable recorded in Starting | 1 | R75 (03) | reset: false -/
  recDis : Bool := false
  /-- elapsed tick at which the state was entered | 48 | R77, R790 (03, 24) | reset: 0 -/
  since : BitVec 48 := 0
  /-- elapsed tick of the boundary for which the next change of state is prepared | 48 | R49 (02) | reset: 0 -/
  due : BitVec 48 := 0
  /-- enables that complete at On | list | R813 (03) | reset: none -/
  onWait : List DRef := []
  /-- enables that complete with the pending one | list | R813 (03) | reset: none -/
  pendWait : List DRef := []
  /-- disables that complete at Off | list | R813 (03) | reset: none -/
  offWait : List DRef := []
  deriving DecidableEq, Repr

/-- The bring-up states of Enzen (Table 4-3, R93). -/
inductive EnzSt where
  | detect | trainE1 | negotiate | trainE2 | active | retrain
  deriving DecidableEq, Repr

/-- A frame sent whose last flit is not yet acknowledged (R92). -/
structure SentFrame where
  frame : HostFrame
  lastSeq : BitVec 12
  /-- times its flits have been sent -/
  tries : Nat := 1
  /-- what its last flit carried: the highest sequence number received in order, and nak -/
  ack : BitVec 12 := 4095
  nak : Bool := false
  deriving DecidableEq, Repr

/-- What a host read is for: the doorbell page (R107), descriptors `k` and on of a ring (R111), the object that a
started descriptor needs (R821), or the code of a kernel in Starting (R546). -/
inductive HostUse where
  | doorbell (issued : BitVec 48)
  | fetch (sq : Fin 64) (k : BitVec 32) (n : Nat)
  | obj (d : DRef) (stage : Nat)
  | code (k : Fin 256)
  deriving DecidableEq, Repr

/-- One MEM_RD: issued when it holds a tag (R95, R98, R821). -/
structure HostRead where
  use : HostUse
  addr : Word
  len : Nat
  tag : Option (Fin 512) := none
  /-- bytes of answer counted (R95) -/
  got : Nat := 0
  /-- lowest offset that failed, and its status (R98) -/
  fail : Option (Nat × BitVec 8) := none
  data : Tbl Byte := []
  done : Bool := false
  deriving DecidableEq, Repr

/-- The Enzen link (chapter 04). -/
structure Enzen where
  /-- bring-up state | 3 | R93 (04) | reset: detect -/
  st : EnzSt := .detect
  /-- nanosecond at which the state was entered | count | R93 (04) | reset: 0 -/
  since : Nat := 0
  /-- current level, 1 E1 or 2 E2 | 2 | R91 (04) | reset: 1 (DESIGN CHOICE, log 5) -/
  level : BitVec 2 := 1
  /-- fall-backs counted | count | R93 (04) | reset: 0 -/
  fallbacks : Nat := 0
  /-- next flit sequence number | 12 | R92 (04) | reset: 0 (DESIGN CHOICE, log 5) -/
  txSeq : BitVec 12 := 0
  /-- flit sequence number expected | 12 | R92 (04) | reset: 0 (DESIGN CHOICE, log 5) -/
  rxExp : BitVec 12 := 0
  /-- highest flit sequence number that the peer has acknowledged | 12 | R92 (04) | reset: 4095 (DESIGN CHOICE, log 5) -/
  acked : BitVec 12 := 4095
  /-- nak set in the next flit | 1 | R92 (04) | reset: false -/
  nak : Bool := false
  /-- nanosecond at which ack last advanced | count | R92 (04) | reset: 0 -/
  ackAt : Nat := 0
  /-- elapsed ticks of the peer's naks in the last 1,024 ticks | list | R93 (04) | reset: none -/
  naks : List (BitVec 48) := []
  /-- bytes of a frame that goes on in the next flit | list | Table 4-2 (04) | reset: none -/
  part : List Byte := []
  /-- frames sent, not acknowledged, at most 512 flits | list | R92 (04) | reset: none -/
  sent : List SentFrame := []
  /-- frames that a pass through Detect lost, oldest first | list | R93, R814 (04) | reset: none -/
  lost : List HostFrame := []
  /-- frames that wait for the link | list | R140, R814 (04) | reset: none -/
  held : List HostFrame := []
  /-- frames received, not yet acted on | list | R94 (04) | reset: none -/
  inbox : List HostFrame := []
  /-- adapter's CAP | 84 | R100 (04) | reset: none -/
  cap : Option HostCap := none
  /-- CAP_ACK received | 1 | R100 (04) | reset: false -/
  capAck : Bool := false
  /-- nanosecond of the last CAP sent | count | R100 (04) | reset: 0 -/
  capAt : Nat := 0
  /-- training entered by LEVEL_REQ: it ends in Active | 1 | R100 (04) | reset: false -/
  toActive : Bool := false
  /-- the link passed through Detect since it was last Active | 1 | R814 (04) | reset: false -/
  viaDetect : Bool := false
  /-- host reads, outstanding and waiting for a tag | list | R95, R821 (04) | reset: none -/
  reads : List HostRead := []
  /-- frames with a reserved type, discarded | count | R94 (04) | reset: 0 -/
  reservedFrames : Nat := 0
  /-- MEM_RD_DATA that name no read, discarded | count | R814 (04) | reset: 0 -/
  strayData : Nat := 0
  /-- LINK_CTL with a reserved ctl, discarded | count | R100 (04) | reset: 0 -/
  reservedCtl : Nat := 0
  /-- HOST_RESET waits for every ring to reach Off | 1 | R141 (04) | reset: false -/
  hostReset : Bool := false
  /-- completions and events discarded under R141 | count | R141 (04) | reset: 0 -/
  discarded : Nat := 0
  deriving DecidableEq, Repr

/-- A ring's configuration and indices (R102 to R104, Table 4-12). SQ0, CQ0 and the event ring take their configuration
from registers (Table 24-7). -/
structure Ring where
  /-- ring base | 64 | R102 (04) | reset: 0 -/
  base : Word := 0
  /-- log2 of the depth | 5 | R102 (04) | reset: 6 (DESIGN CHOICE, log 5) -/
  depthLog2 : BitVec 5 := 6
  /-- bound completion ring | 6 | R103 (04) | reset: 0 (DESIGN CHOICE, log 5) -/
  cq : Fin 64 := 0
  /-- bound tenant | 8 | R103 (04) | reset: 0 (DESIGN CHOICE, log 5) -/
  tenant : BitVec 8 := 0
  /-- privileged submission ring | 1 | Table 4-12 (04) | reset: false -/
  priv : Bool := false
  /-- interrupts enabled | 1 | R129 (04) | reset: false -/
  irqEn : Bool := false
  /-- interrupt vector | 8 | R129 (04) | reset: 0 -/
  vector : BitVec 8 := 0
  /-- completions per interrupt | 16 | R129 (04) | reset: 1 (DESIGN CHOICE, log 5) -/
  modCount : BitVec 16 := 1
  /-- longest wait before an interrupt | 16 | R129 (04) | reset: 0 -/
  modTicks : BitVec 16 := 0
  /-- producer index | 32 | R104 (04) | reset: 0 -/
  prod : BitVec 32 := 0
  /-- consumer index | 32 | R104 (04) | reset: 0 -/
  cons : BitVec 32 := 0
  /-- sq_cons as last written to the consumer page | 32 | R108, R109 (04) | reset: 0 -/
  pub : BitVec 32 := 0
  /-- entries written since the last interrupt | count | R129 (04) | reset: 0 -/
  unint : Nat := 0
  /-- elapsed tick of the oldest of them | 48 | R129 (04) | reset: 0 -/
  oldest : BitVec 48 := 0
  /-- an interrupt may be sent | 1 | R130 (04) | reset: true -/
  armed : Bool := true
  /-- descriptors consumed since Starting | 32 | R58 (03) | reset: 0 -/
  consumed : BitVec 32 := 0
  /-- completions counted as written since Starting | 32 | R58 (03) | reset: 0 -/
  completed : BitVec 32 := 0
  deriving DecidableEq, Repr

/-- How far a fetched descriptor is (R115, R818): fetched, released by its fence, started, or prepared for a boundary. -/
inductive DStage where
  | fetched | started | prepared
  deriving DecidableEq, Repr

/-- A descriptor in flight (R114). -/
structure InFlight where
  ref : DRef
  sqGen : BitVec 16
  desc : BitVec 512
  /-- rack tick number of the fetch (R120) -/
  fetchTick : BitVec 48
  stage : DStage := .fetched
  /-- fence released (R115) -/
  fenceOk : Bool := false
  /-- apply_tick reached (R818) -/
  timeOk : Bool := false
  /-- elapsed tick from which prepared work applies (R49) -/
  due : BitVec 48 := 0
  /-- target generation to report (R80) -/
  gen : BitVec 16 := 0
  /-- work that its outcome still waits for: items of its own in the fabric, reads of host memory, device work -/
  waits : Nat := 0
  /-- first failure met, OK while none -/
  status : BitVec 8 := 0
  result : Word := 0
  /-- bytes read from host memory for it -/
  data : List Byte := []
  /-- progress of work that goes on in steps -/
  pos : Nat := 0
  aux : Word := 0
  deriving DecidableEq, Repr

/-- An event (Table 4-15, R132). -/
structure Event where
  code : BitVec 8
  gen : BitVec 16 := 0
  unit : BitVec 16 := 0
  rep : BitVec 16 := 1
  tick : BitVec 48 := 0
  detail : BitVec 128 := 0
  /-- a Peephole sample's truncated frame (R132) -/
  sample : List Byte := []
  deriving DecidableEq, Repr

/-- The rings and the descriptors in flight (chapter 04). -/
structure Rings where
  /-- submission rings | table | R101 (04) | reset: see Ring -/
  sq : Tbl Ring := []
  /-- completion rings | table | R101 (04) | reset: see Ring -/
  cq : Tbl Ring := []
  /-- event ring | R101 (04) | reset: see Ring -/
  ev : Ring := {}
  /-- descriptors in flight, at most 8,192 | list | R114 (04) | reset: none -/
  flight : List InFlight := []
  /-- descriptors being fetched | count | R114 (04) | reset: 0 -/
  fetching : Nat := 0
  /-- doorbell pages returned, and the elapsed tick from which each applies | list | R107 (04) | reset: none -/
  page : List (List Byte × BitVec 48) := []
  /-- held events, at most 256 | list | R133 (04) | reset: none -/
  evHeld : List Event := []
  /-- overflow entries, in order of their first event | list | R133 (04) | reset: none -/
  evOver : List Event := []
  /-- held Peephole samples dropped | count | R133 (04) | reset: 0 -/
  evDrops : Nat := 0
  deriving DecidableEq, Repr

/-- A register write that waits for its boundary (R781, R797). -/
structure RegWrite where
  addr : Nat
  wide : Bool
  val : Word
  /-- elapsed tick at whose boundary it applies (R49) -/
  due : BitVec 48
  deriving DecidableEq, Repr

/-- A register read that waits for the writes before it (R783). -/
structure RegRead where
  addr : Word
  wide : Bool
  tag : BitVec 16
  /-- writes that must apply first -/
  after : Nat
  deriving DecidableEq, Repr

/-- The set-up registers (chapter 24). -/
structure Regs where
  /-- applied register words by word number, a word not listed holds its reset value | 64 each | R778, R786 (24) | reset: Tables of 24 and the chapters it names -/
  word : Tbl Word := []
  /-- staged words, by word number | 64 each | R779 (24) | reset: none -/
  staged : Tbl (Option Word) := []
  /-- writes that wait for their boundary | list | R781 (24) | reset: none -/
  writes : List RegWrite := []
  /-- reads that wait | list | R783 (24) | reset: none -/
  reads : List RegRead := []
  /-- host writes held until the bundle | list | R797 (24) | reset: none -/
  heldWrites : List RegWrite := []
  /-- the bundle has been applied or refused | 1 | R797 (24) | reset: false -/
  bundleDone : Bool := false
  /-- records of an accepted bundle that wait to be written | list | R795 (24) | reset: none -/
  bundle : Option (List (BitVec 32 × Word)) := none
  /-- REG_ERR addr | 24 | Table 24-4 (24) | reset: 0 -/
  errAddr : BitVec 24 := 0
  /-- REG_ERR write | 1 | Table 24-4 (24) | reset: false -/
  errWrite : Bool := false
  /-- REG_ERR cause | 3 | Table 24-4 (24) | reset: 0 -/
  errCause : BitVec 3 := 0
  /-- REG_ERR count | 16 | Table 24-4 (24) | reset: 0 -/
  errCount : BitVec 16 := 0
  /-- REG_ERR err | 1 | Table 24-4 (24) | reset: false -/
  err : Bool := false
  deriving DecidableEq, Repr

/-- A dump channel (R770 to R772). -/
structure Dump where
  /-- configuration, none while the channel is stopped | 256 | R770 (23) | reset: none -/
  body : Option (BitVec 320) := none
  /-- configuration that applies at the next boundary | 256 | R770 (23) | reset: none -/
  next : Option (BitVec 320 × BitVec 48) := none
  /-- DUMP_CONFIGs that complete as it applies | list | R54, R770 (02, 23) | reset: none -/
  waits : List DRef := []
  /-- bound tenant | 8 | R770 (23) | reset: 0 -/
  tenant : BitVec 8 := 0
  /-- records written by this configuration | 32 | Table 23-7 (23) | reset: 0 -/
  seq : BitVec 32 := 0
  /-- dumps skipped since the last record | 16 | R771 (23) | reset: 0 -/
  skipped : BitVec 16 := 0
  /-- bytes of the record under way, header first | list | R771 (23) | reset: none -/
  record : List Byte := []
  /-- bytes of it that the ticks since it fell due have written | count | R771 (23) | reset: 0 -/
  written : Nat := 0
  /-- tick of the last dump that fell due | 48 | R771 (23) | reset: none -/
  lastDue : Option (BitVec 48) := none
  /-- offset of the record in the destination | count | R772 (23) | reset: 0 -/
  pos : Nat := 0
  deriving DecidableEq, Repr

/-- The Peephole of one link port (R773). -/
structure Peep where
  /-- configuration bytes 24 to 31 of PEEP_CONFIG | 64 | R773 (23) | reset: 0 -/
  cfg : BitVec 64 := 0
  /-- configuration that applies at the next boundary | 64 | R773 (23) | reset: none -/
  next : Option (BitVec 64 × BitVec 48) := none
  /-- PEEP_CONFIGs that complete as it applies | list | R54, R773 (02, 23) | reset: none -/
  waits : List DRef := []
  /-- frames selected | count | R773 (23) | reset: 0 -/
  count : Nat := 0
  deriving DecidableEq, Repr

/-- Counters, snapshot, dumps, Peephole and the fault log (chapters 22 and 23). -/
structure Counts where
  /-- counters, by page × 512 + word | 64 each | R758, R762 (23) | reset: 0 -/
  now : Tbl Word := []
  /-- snapshot of every counter | 64 each | R759 (23) | reset: 0 -/
  snap : Tbl Word := []
  /-- tick of the snapshot | 48 | R759 (23) | reset: 0 -/
  snapTick : BitVec 48 := 0
  /-- tenant that an owned page is bound to, by page | table | R767 (23) | reset: none -/
  owner : Tbl (Option (BitVec 8)) := []
  /-- counter pairs: entered, left and held by core port, input pairs then output pairs | table | R760 (23) | reset: 0 -/
  pairs : Tbl (Nat × Nat) := []
  /-- dump channels | table | R770 (23) | reset: stopped -/
  dump : Tbl Dump := []
  /-- Peephole ports | table | R773 (23) | reset: off -/
  peep : Tbl Peep := []
  /-- samples taken since reset | 32 | Table 23-9 (23) | reset: 0 -/
  sampleSeq : BitVec 32 := 0
  /-- samples taken in this tick | count | R774 (23) | reset: 0 -/
  sampled : Nat := 0
  /-- fault log, newest 65,536 entries, oldest first | list | R755 (22) | reset: none -/
  log : List Event := []
  /-- index of the next log entry | 32 | R755 (22) | reset: 0 -/
  logNext : BitVec 32 := 0
  /-- events sent on the sideband, oldest first | list | R61, R753 (22) | reset: none -/
  sideband : List Event := []
  deriving DecidableEq, Repr

end Machine
end Sys2Proof
end

