-- ==== Sys2Proof/Machine/StateFabric.lean ====
section
/-!
DEFINITION. The state of the fabric: links and credits, the cyclic core, the coats and their tables, multicast records,
traffic management and the items the part itself has outstanding (chapters 05 to 09).
-/
namespace Sys2Proof
namespace Machine

/-- A link control message (Tables 6-3, 6-7 and 20-6). -/
inductive LinkMsg where
  | cap (c : LinkCap)
  | levelOffer (level : BitVec 8)
  | audit (m : AuditMsg)
  | auditResult (mask : BitVec 16) (sumDiff sentDiff : List Int)
  | resync (m : ResyncMsg)
  deriving DecidableEq, Repr

/-- Bytes of a packet that a data frame carries: `len` of those that the packet takes on the link, from `off` on (R195, R196). -/
structure Piece where
  pkt : Packet
  off : Nat
  len : Nat
  deriving DecidableEq, Repr

/-- A frame that the part sends (R193, R194): its header and what its body carries. Sequenced ones are held for replay (R199). -/
structure TxFrame where
  seq : BitVec 12 := 0
  ack : BitVec 12 := 0
  nak : Bool := false
  kind : FrameKind := .data
  first : BitVec 8 := 0xFF
  ret : List (BitVec 5) := []
  pieces : List Piece := []
  msg : Option LinkMsg := none
  /-- sequenced frames sent before it since negotiation began (R673) -/
  x : Nat := 0
  /-- key and IV salt under which it goes, none where it goes in the clear (R674) -/
  key : List Byte := []
  deriving DecidableEq, Repr

/-- Credits and audit counts of one partition of a link, both directions (R212, R228, R229). -/
structure Part where
  /-- sender: units held | R228 (06) | reset: 0 -/
  held : Int := 0
  /-- sender: units deducted | 32 | R228 (06) | reset: 0 -/
  sent : BitVec 32 := 0
  /-- sender: units returned to it | 32 | R228 (06) | reset: 0 -/
  rcvd : BitVec 32 := 0
  /-- sender: reference total, the peer's advertised units | R212 (06) | reset: 0 -/
  ref : Nat := 0
  /-- receiver: units reserved at headers | 32 | R229 (06) | reset: 0 -/
  got : BitVec 32 := 0
  /-- receiver: units returned | 32 | R229 (06) | reset: 0 -/
  retd : BitVec 32 := 0
  /-- receiver: units reserved and not freed | R229 (06) | reset: 0 -/
  occ : Nat := 0
  /-- receiver: units freed and not returned | R229 (06) | reset: 0 -/
  pend : Nat := 0
  /-- sender: frozen since that elapsed tick | R231 (06) | reset: none -/
  txFrozen : Option (BitVec 48) := none
  /-- receiver: frozen since that elapsed tick | R231 (06) | reset: none -/
  rxFrozen : Option (BitVec 48) := none
  /-- sender: freeze waits for the boundary of that elapsed tick | R231 (06) | reset: none -/
  txFreezeAt : Option (BitVec 48) := none
  /-- receiver: freeze waits for the boundary of that elapsed tick | R231 (06) | reset: none -/
  rxFreezeAt : Option (BitVec 48) := none
  /-- sender: unfreeze waits for the boundary of that elapsed tick | R232 (06) | reset: none -/
  txThawAt : Option (BitVec 48) := none
  /-- receiver: unfreeze waits for the boundary of that elapsed tick | R232 (06) | reset: none -/
  rxThawAt : Option (BitVec 48) := none
  deriving DecidableEq, Repr

/-- A pair of the crossing record (Table 22-4, R745): owner, and counterpart node or group, or any. -/
structure CrossPair where
  owner : BitVec 12
  other : BitVec 12 := 0
  group : Bool := false
  any : Bool := false
  deriving DecidableEq, Repr

/-- One window of a crossing record (R745). -/
structure CrossWindow where
  opened : BitVec 48 := 0
  pairs : List CrossPair := []
  overflow : Bool := false
  deriving DecidableEq, Repr

/-- A packet under way on a link, started and not wholly sent (R325, R327). -/
structure TxNow where
  uid : Nat
  queue : Vc
  /-- nanosecond at which it started -/
  start : Nat
  /-- bytes of it laid into frames (R195) -/
  pos : Nat := 0
  /-- nanosecond by which the last of those has left -/
  leaves : Nat := 0
  /-- ack-only frames go out in its place until its next cell is in order (R261) -/
  underran : Bool := false
  /-- nanosecond of the queue's next closing at the start (R338, R339) -/
  closing : Option Nat := none
  deriving DecidableEq, Repr

/-- Bring-up states of a lane (Table 18-5). -/
inductive LaneSt where
  | dark | detect | negotiate | step | align | service | recover
  deriving DecidableEq, Repr

/-- One lane (chapter 18). -/
structure Lane where
  /-- bring-up state | 3 | R641 (18) | reset: dark -/
  st : LaneSt := .dark
  /-- nanosecond at which the state was entered | R641 (18) | reset: 0 -/
  since : Nat := 0
  /-- held out by this end | 1 | R647 (18) | reset: false -/
  ownOut : Bool := false
  /-- held out by the peer | 1 | R648 (18) | reset: false -/
  peerOut : Bool := false
  /-- darkened by its laser | 1 | R654 (18) | reset: true, every laser enable being 0 -/
  darkened : Bool := true
  /-- failed | 1 | Table 18-9 (18) | reset: false -/
  failed : Bool := false
  /-- consecutive failed recoveries | 8 | Table 18-9 (18) | reset: 0 -/
  fails : BitVec 8 := 0
  /-- received power | 16 | Table 18-9 (18) | reset: 0x8000 -/
  rxPower : BitVec 16 := 0x8000
  /-- transmit power | 16 | Table 18-9 (18) | reset: 0x8000 -/
  txPower : BitVec 16 := 0x8000
  /-- consecutive receive measurements below rx_low | R647 (18) | reset: 0 -/
  low : Nat := 0
  /-- PRBS31 errors of the last window | 32 | Table 18-9 (18) | reset: 0 -/
  prbsErr : BitVec 32 := 0
  /-- rate code in use | 2 | Table 18-1 (18) | reset: 0 -/
  rate : BitVec 2 := 0
  /-- attempts made at this step | R641 (18) | reset: 0 -/
  tries : Nat := 0
  /-- own check of this step, once its window ended | R641 (18) | reset: none -/
  pass : Option Bool := none
  /-- peer's check of this step, once its RESULT came | R641 (18) | reset: none -/
  peerPass : Option Bool := none
  /-- elapsed tick at which Recover may be tried again | R651 (18) | reset: none -/
  retryAt : Option (BitVec 48) := none
  /-- last 58 bits sent scrambled, newest lowest | 58 | R630 (18) | reset: 0 (DESIGN CHOICE, log 119) -/
  scr : BitVec 58 := 0
  /-- last 58 bits received scrambled, newest lowest | 58 | R630 (18) | reset: 0 (DESIGN CHOICE, log 119) -/
  descr : BitVec 58 := 0
  /-- last bit received under stuffed coding, and the length of its run | 5 | R639 (18) | reset: 0 of length 0 (DESIGN CHOICE, log 119) -/
  run : Bool × Nat := (false, 0)
  /-- the last 96 block headers received were invalid: oldest first | 96 | R636 (18) | reset: none -/
  hdrs : List Bool := []
  /-- consecutive codewords that failed to decode | R637 (18) | reset: 0 -/
  badWords : Nat := 0
  /-- elapsed ticks of the uncorrectable codewords of the last 64 ticks | list | R647 (18) | reset: none -/
  ucw : List (BitVec 48) := []
  /-- symbols corrected in this tick and in the last, saturating | 16 each | Table 18-2 (18) | reset: 0 -/
  csym : BitVec 16 := 0
  csymLast : BitVec 16 := 0
  /-- far-end loop entered on request, at that nanosecond of its last training frame | R657 (18) | reset: none -/
  farLoop : Option Nat := none
  deriving DecidableEq, Repr

/-- A laser input (R654, R655). -/
structure Laser where
  /-- fault signal | 1 | Table 18-11 (18) | reset: false -/
  fault : Bool := false
  /-- input power | 16 | Table 18-11 (18) | reset: 0x8000 -/
  power : BitVec 16 := 0x8000
  /-- consecutive measurements below laser_low | R655 (18) | reset: 0 -/
  low : Nat := 0
  deriving DecidableEq, Repr

/-- One link (chapters 06, 18, 19, 20 and 22). -/
structure Link where
  /-- in service | 1 | R208 (06) | reset: false -/
  up : Bool := false
  /-- lane layer reached service coding, negotiation under way | 1 | R207 (06) | reset: false -/
  nego : Bool := false
  /-- nanosecond at which negotiation started | R210 (06) | reset: 0 -/
  negoAt : Nat := 0
  /-- sequence number of the LINK_CAP sent in this negotiation | 12 | R208 (06) | reset: none -/
  capSeq : Option (BitVec 12) := none
  /-- peer's LINK_CAP | Table 6-3 (06) | reset: none -/
  cap : Option LinkCap := none
  /-- generation in use, 1 to 3 | 2 | R208 (06) | reset: 0 -/
  gen : BitVec 2 := 0
  /-- feature level in use | 8 | R208 (06) | reset: 0 -/
  level : BitVec 8 := 0
  /-- lanes in service | 4 | R208, R213 (06) | reset: 0 -/
  lanes : BitVec 4 := 0
  /-- peer node, kept after a failure | 12 | R279 (08) | reset: 0 -/
  peer : BitVec 12 := 0
  /-- peer is a Vexlor module | 1 | R208 (06) | reset: false -/
  vexlor : Bool := false
  /-- the peer has been known since reset | 1 | R279 (08) | reset: false -/
  known : Bool := false
  /-- a failure has been declared since the link was last in service | 1 | R287 (08) | reset: false -/
  failed : Bool := false
  /-- failure found, its cause and the elapsed tick of its boundary | R738 (22) | reset: none -/
  failAt : Option (BitVec 8 × BitVec 48) := none
  /-- next sequence number to send | 12 | R198 (06) | reset: 0 -/
  txSeq : BitVec 12 := 0
  /-- sequence number expected | 12 | R200 (06) | reset: 0 -/
  rxExp : BitVec 12 := 0
  /-- highest sequence number acknowledged by the peer | 12 | R198 (06) | reset: 4095 -/
  acked : BitVec 12 := 4095
  /-- nak set in the next frame | 1 | R200 (06) | reset: false -/
  nakNext : Bool := false
  /-- nanosecond of the last nak, while frames are discarded | R201 (06) | reset: none -/
  nakAt : Option Nat := none
  /-- nanosecond at which ack last advanced | R202 (06) | reset: 0 -/
  ackAt : Nat := 0
  /-- frames held for replay, oldest first | 64 KiB | R199 (06) | reset: none -/
  replay : List TxFrame := []
  /-- control messages that wait for a frame, oldest first | list | R197 (06) | reset: none -/
  ctl : List LinkMsg := []
  /-- frames of a replay under way still to be sent again | list | R202 (06) | reset: none -/
  again : List TxFrame := []
  /-- frame being sent, and its control blocks: position, active lane, payload | R192, R633 (06, 18) | reset: none -/
  sent : Option TxFrame := none
  blocks : List (Nat × Nat × Word) := []
  /-- codewords of the last whole frame sent, by active lane | R631 (18) | reset: none -/
  words : List (List (BitVec 10)) := []
  /-- body bytes left after the packets in the frame being sent | R195 (06) | reset: 0 -/
  room : Nat := 0
  /-- sequenced frames sent, and accepted, since negotiation began | counts | R673 (19) | reset: 0 -/
  txCount : Nat := 0
  rxCount : Nat := 0
  /-- marker frame, or the frame of the announce after it, still due in this tick | 2 flags | R633 (18) | reset: false -/
  markDue : Bool := false
  annDue : Bool := false
  /-- frames whose tag failed | count | R675 (19) | reset: 0 -/
  tagFails : Nat := 0
  /-- control blocks of unknown type received | count | R634 (18) | reset: 0 -/
  badBlocks : Nat := 0
  /-- key and IV salt in use in each direction | 36 bytes each | R673 (19) | reset: none -/
  keyTx : List Byte := []
  keyRx : List Byte := []
  /-- ack from which a replay under way started | 12 | R202 (06) | reset: none -/
  replayFrom : Option (BitVec 12) := none
  /-- replays of the oldest frame held | R205 (06) | reset: 0 -/
  replays : Nat := 0
  /-- retraining under R205 is due or under way | 1 | R205 (06) | reset: false -/
  retrain : Bool := false
  /-- elapsed ticks of the retrainings within 65,536 ticks | R206 (06) | reset: none -/
  retrains : List (BitVec 48) := []
  /-- partitions | table of 16 | R215 (06) | reset: see Part -/
  part : Tbl Part := []
  /-- RESYNC due from the receiver, as a mask | 16 | R232 (06) | reset: 0 -/
  resync : BitVec 16 := 0
  /-- packet under way | R325 (09) | reset: none -/
  tx : Option TxNow := none
  /-- crossing record, newer window | R745 (22) | reset: empty -/
  crossNew : CrossWindow := {}
  /-- crossing record, older window | R745 (22) | reset: empty -/
  crossOld : CrossWindow := {}
  /-- LINK_DOWN has been sent and no LINK_UP since | 1 | R289 (08) | reset: false -/
  noticed : Bool := false
  /-- encryption session of the link: derived | 1 | R674 (19) | reset: false -/
  keyed : Bool := false
  /-- nonce drawn at entry to Negotiate | 32 | R641 (18) | reset: 0 -/
  nonce : BitVec 32 := 0
  /-- peer's last CAP training message and the good CAPs received | R641 (18) | reset: none -/
  trainCap : Option TrainCap := none
  caps : Nat := 0
  /-- this end is the initiator | 1 | R641 (18) | reset: false -/
  initiator : Bool := false
  /-- STEP frames received for the next rate | R641 (18) | reset: 0 -/
  stepCount : Nat := 0
  /-- bytes so far of the packet whose last byte has not come in | list | R195, R742 (06, 22) | reset: none -/
  rxPkt : List Byte := []
  /-- bring-up failures | R643 (18) | reset: 0 -/
  bringFails : Nat := 0
  /-- tx_next of the peer's last marker frame | 4 | R648 (18) | reset: 0 -/
  peerTx : BitVec 4 := 0
  /-- a peer's LEVEL_OFFER accepted | 8 | R709 (20) | reset: none -/
  offer : Option (BitVec 8) := none
  deriving DecidableEq, Repr

/-- The kinds of cell (Table 7-2). -/
inductive CellKind where
  | unicast | mcast | contrib | result
  deriving DecidableEq, Repr

/-- The function whose traffic a packet carries, so that its delivery can be counted (R321): a collective result for a group,
slot and operation (tile or sender `idx`), or a chunk of a stream's segment. -/
inductive Ref where
  | none
  | coll (g : Fin 1024) (slot : Fin 16) (s : BitVec 32) (idx : Nat)
  | chunk (k : Fin 64) (pass : BitVec 32) (seg : Nat) (c : Nat)
  deriving DecidableEq, Repr

/-- A contribution that has been accepted at an input (R445): the operation and the tile it belongs to, the index at which its cells count
(a member in the first stage, a rank in the second), its first cell in the tile, and the cells of the tile for one result cell (R459). -/
structure Contrib where
  g : Fin 1024
  q : Fin 16
  s : BitVec 32
  stage2 : Bool
  tile : Nat
  idx : Nat
  c0 : Nat
  w : Nat
  deriving DecidableEq, Repr

/-- A cell with its tag (Table 7-2, R239). The model holds the packet beside the cell's number in it. -/
structure Cell where
  uid : Nat
  pkt : Packet
  idx : Nat
  count : Nat
  src : PortId
  /-- output, or a contribution's target slice -/
  dst : PortId := 0
  kind : CellKind
  /-- valid bytes less one -/
  lenM1 : BitVec 8 := 0
  /-- packet number of the input, for multicast -/
  pktNo : BitVec 16 := 0
  /-- member or rank of a contribution -/
  member : BitVec 7 := 0
  /-- what a contribution belongs to -/
  adm : Option Contrib := none
  ct : Bool := true
  bad : Bool := false
  ingress : BitVec 16 := 0
  seq : BitVec 16 := 0
  /-- room handle of a result (R486) -/
  room : BitVec 12 := 0
  /-- cell of the tile that a result holds -/
  tileCell : BitVec 12 := 0
  /-- payload of a result cell -/
  data : List Byte := []
  ref : Ref := .none
  deriving DecidableEq, Repr

/-- A packet in an input buffer (R242). -/
structure InPkt where
  uid : Nat
  pkt : Packet
  count : Nat
  kind : CellKind
  /-- output of a unicast packet -/
  out : PortId := 0
  /-- nanosecond at which it entered, for R246 -/
  enter : Nat
  /-- elapsed tick at which it entered (R239) -/
  tick : BitVec 48
  seq0 : BitVec 16 := 0
  crossed : Nat := 0
  ct : Bool := true
  bad : Bool := false
  /-- crosses no earlier than this elapsed tick (R306) -/
  holdTo : BitVec 48 := 0
  /-- units reserved on its link and their partition (R221) -/
  units : Nat := 0
  resPart : Fin 16 := 0
  freed : Nat := 0
  /-- units of it whose pointers an older entry holds as well (R276) -/
  shared : Nat := 0
  ref : Ref := .none
  /-- packet number of the input, for multicast (Table 7-2) -/
  pktNo : BitVec 16 := 0
  /-- it waits for its operation: it is tried again in every slot (R445) -/
  seen : Bool := false
  /-- a contribution once accepted, and its cells that have crossed (R246) -/
  adm : Option Contrib := none
  gone : List Nat := []
  deriving DecidableEq, Repr

/-- A packet of the part's own that finds an internal input's buffer full, and enters when units are free (R242). -/
structure Entering where
  kind : CellKind
  out : PortId
  holdTo : BitVec 48 := 0
  pkt : Packet
  ref : Ref := .none
  deriving DecidableEq, Repr

/-- The input stage of a core port (R242 to R248). -/
structure InPort where
  /-- packets waiting, oldest first | 16,384 units | R242 (07) | reset: none -/
  queue : List InPkt := []
  /-- sequence counters by 8 × output + channel | 16 each | R243 (07) | reset: 0 -/
  seq : Tbl (BitVec 16) := []
  /-- packet number for multicast | 16 | Table 7-2 (07) | reset: 0 -/
  pktNo : BitVec 16 := 0
  /-- VC3 and VC4 cells crossed in this pattern period | R246 (07) | reset: 0 -/
  vc34 : Nat := 0
  /-- core credits in use, by output | R254 (07) | reset: 0 -/
  used : Tbl Nat := []
  /-- blocks of 8 borrowed, by output | R255 (07) | reset: 0 -/
  blocks : Tbl Nat := []
  /-- free units on the free list | R274 (07) | reset: 16384 -/
  free : Nat := 16384
  /-- route generator | 16 | R281 (08) | reset: (0 × 16 + port mod 16) × 2 + 1, held here as its difference by xor from that seed -/
  lfsr : BitVec 16 := 0
  /-- pacing rate by output, held as 128 minus the rate | R350 (09) | reset: 0 -/
  slow : Tbl Nat := []
  /-- cells sent to each output in this pattern period | R350 (09) | reset: 0 -/
  sentTo : Tbl Nat := []
  /-- outputs congested in this tick | R351 (09) | reset: none -/
  congested : List Nat := []
  /-- packets that wait for free units of an internal input, oldest first | list | R242 (07) | reset: none -/
  entering : List Entering := []
  deriving DecidableEq, Repr

/-- A cell in a middle slice and the outputs whose entries for it wait (R249, R250). -/
structure SliceCell where
  cell : Cell
  outs : List PortId
  enter : Nat
  /-- reference count of a multicast cell (R250, R274) -/
  refs : Nat := 0
  /-- an older entry holds its pointer as well, and it holds one (R276) -/
  shared : Bool := false
  owns : Bool := true
  deriving DecidableEq, Repr

/-- A middle slice (R249 to R253). -/
structure Slice where
  /-- cells stored, oldest first | 2,048 cells | R249 (07) | reset: none -/
  cells : List SliceCell := []
  /-- contribution cells that have crossed and wait for the Hawk, oldest first | list | R470 (13) | reset: none -/
  contrib : List Cell := []
  /-- replica credits in use, by output | R251 (07) | reset: 0 -/
  repl : Tbl Nat := []
  /-- free cells on the free list | R274 (07) | reset: 2048 -/
  free : Nat := 2048
  deriving DecidableEq, Repr

/-- A packet that an output builds from its cells in order (R257 to R261). -/
structure OutPkt where
  uid : Nat
  pkt : Packet
  kind : CellKind
  src : PortId
  count : Nat
  /-- slices of the multicast cells present, for R251 -/
  slices : List (Nat × Nat) := []
  /-- cells present, in order for a unicast packet -/
  have_ : Nat := 0
  idxs : List Nat := []
  /-- nanosecond at which the first cell arrived (R259) -/
  first : Nat
  bad : Bool := false
  /-- it holds core credits; a FAIL of check 2 of Table 5-8 holds none -/
  credit : Bool := true
  /-- passed to the egress queue -/
  passed : Bool := false
  started : Bool := false
  /-- cut short by ageing or a failed link, ends with stomp (R266, R272) -/
  cut : Bool := false
  /-- cells of it whose pointers older entries hold as well (R276) -/
  shared : Nat := 0
  ref : Ref := .none
  deriving DecidableEq, Repr

/-- A unicast cell that waits for order (R257). -/
structure HeldCell where
  cell : Cell
  arrived : Nat
  /-- it has been discarded: only its place in the stream is kept (R266) -/
  ghost : Bool := false
  /-- an older entry holds its pointer as well (R276) -/
  shared : Bool := false
  deriving DecidableEq, Repr

/-- The output stage of a core port (R254 to R262). -/
structure OutPort where
  /-- cells that crossed stage two and wait for CELL_ARRIVE_OUTPUT, with their slice | list | R240 (07) | reset: none -/
  arriving : List (Cell × Nat) := []
  /-- expected value by stream | 16 each | R257 (07) | reset: 0 -/
  exp : Tbl (BitVec 16) := []
  /-- cells held by stream order | list | R257 (07) | reset: none -/
  held : List HeldCell := []
  /-- packets being built and packets in the egress queues, oldest first | list | R259 (07) | reset: none -/
  pkts : List OutPkt := []
  /-- uids of packets discarded whose later cells are dropped | list | R266 (07) | reset: none -/
  dead : List Nat := []
  /-- uids among them whose FAIL has already gone (R288) | list | R288 (08) | reset: none -/
  quiet : List Nat := []
  /-- shared blocks of 8 lent | R255 (07) | reset: 0 -/
  lent : Nat := 0
  /-- free credits on the free list | R274 (07) | reset: 1024 -/
  free : Nat := 1024
  deriving DecidableEq, Repr

/-- The cyclic core (chapter 07). -/
structure Core where
  /-- inputs | table of 128 | R236 (07) | reset: see InPort -/
  inp : Tbl InPort := []
  /-- middle slices | table of 128 | R249 (07) | reset: see Slice -/
  slice : Tbl Slice := []
  /-- outputs | table of 128 | R254 (07) | reset: see OutPort -/
  out : Tbl OutPort := []
  /-- number of the next packet that enters, to tell packets apart | count | model | reset: 0 -/
  uid : Nat := 0
  /-- packets delivered at internal outputs, by port | list | R259 (07) | reset: none -/
  delivered : List (PortId × Packet) := []
  /-- chunks of weight streams that an output discarded, not yet counted in their outcome record (R517) | list | R517 (14) | reset: none -/
  lost : List (PortId × Ref × BitVec 8) := []
  /-- pool rebuilds under way: pool and nanosecond at which the pass ends | list | R275 (07) | reset: none -/
  rebuild : List (Nat × Nat) := []
  /-- sums that the snapshot latched for the pools audited in this tick, and whether a reference count differed | list | R274 (07) | reset: none -/
  latched : List (Nat × Nat × Bool) := []
  /-- an older age_limit in force for retirement, and the elapsed tick until which it is | R271 (07) | reset: none -/
  oldAge : Option (Nat × BitVec 48) := none
  /-- age_limit in force at the last boundary | R271 (07) | reset: 64 -/
  ageNow : Nat := 64
  deriving DecidableEq, Repr

/-- A coat: the tables that change together (R296), each entry as its table lays it out; an entry of zero is not valid. -/
structure Coat where
  /-- coat number | 4 | R296 (08) | reset: 0 -/
  num : BitVec 4 := 0
  /-- routing table | 4,096 × 128 | R277 (08) | reset: invalid (R794) -/
  route : Tbl (BitVec 128) := []
  /-- multicast table | 4,096 × 256 | R313 (08) | reset: invalid -/
  mcast : Tbl (BitVec 256) := []
  /-- window table | 4,096 × 128 | R184 (05) | reset: invalid -/
  window : Tbl (BitVec 128) := []
  /-- group table | 1,024 × 4,608 | R424 (12) | reset: invalid -/
  group : Tbl (BitVec 4608) := []
  /-- extent table | 65,536 × 64 | R389 (11) | reset: invalid -/
  extent : Tbl (BitVec 64) := []
  deriving DecidableEq, Repr

/-- A table of a coat (Tables 8-7 and 11-2). -/
inductive CoatTable where
  | route | mcast | window | group | extent
  deriving DecidableEq, Repr

/-- A COAT_LOAD whose entries are being written (R299). -/
structure CoatLoad where
  d : DRef
  /-- entries that wait, in bundle order: table, index, value -/
  todo : List (CoatTable × Nat × Nat) := []
  total : Nat := 0
  base : Bool
  clr : Bool
  due : BitVec 48
  /-- its bundle has been verified and checked -/
  ready : Bool := false
  /-- carried from an earlier boundary: it goes before loads first prepared since (R54) -/
  carried : Bool := false
  /-- frames whose zero fill it waits for (R393) -/
  fills : List Nat := []
  deriving DecidableEq, Repr

/-- The staging area (R299). -/
structure Staging where
  num : BitVec 4
  /-- entries written, last first: table, index, value -/
  written : List (CoatTable × Nat × Nat) := []
  base : Bool := false
  clr : Bool := false
  loads : List CoatLoad := []
  deriving DecidableEq, Repr

/-- A COAT_SWITCH that waits for its boundary (R301, R311). -/
structure SwitchWait where
  d : DRef
  coat : BitVec 4
  due : BitVec 48
  deriving DecidableEq, Repr

/-- A route notice that waits for step 3 (R741). -/
structure Notice where
  up : Bool
  link : BitVec 8
  reporter : BitVec 12
  peer : BitVec 12
  due : BitVec 48
  deriving DecidableEq, Repr

/-- One output of an outcome record (R317). -/
structure OutcomeOut where
  out : PortId
  ok : Nat := 0
  bad : Nat := 0
  /-- status of its first failure -/
  status : BitVec 8 := 0
  deriving DecidableEq, Repr

/-- An outcome record (R317). -/
structure Outcome where
  src : BitVec 12
  tag : BitVec 16
  tenant : BitVec 8
  group : BitVec 12
  coat : BitVec 4
  itemLen : Nat
  outs : List OutcomeOut
  /-- elapsed tick of the last packet of the item that entered an input (R318) -/
  last : BitVec 48
  deriving DecidableEq, Repr

/-- Routing, coats and multicast (chapter 08). -/
structure Route where
  /-- topcoat | R296 (08) | reset: coat 0, every entry invalid (R794) -/
  top : Coat := {}
  /-- undercoat | R296 (08) | reset: none -/
  under : Option Coat := none
  /-- elapsed tick of the last packet of the undercoat | 48 | R304 (08) | reset: 0 -/
  lastUnder : BitVec 48 := 0
  /-- elapsed tick of the last switch | 48 | R306 (08) | reset: none -/
  switched : Option (BitVec 48) := none
  /-- staging area | R299 (08) | reset: closed -/
  staging : Option Staging := none
  /-- coat switches that wait | list | R301 (08) | reset: none -/
  switches : List SwitchWait := []
  /-- exclusion list, pairs (destination, via), at most 1,024 | list | R291 (08) | reset: empty -/
  excl : List (BitVec 12 × BitVec 12) := []
  /-- notices that wait for step 3 | list | R741 (22) | reset: none -/
  notices : List Notice := []
  /-- notices not applied, the list being full | count | R292 (08) | reset: 0 -/
  unapplied : Nat := 0
  /-- nodes declared lost | list | R739 (22) | reset: none -/
  lostNodes : List (BitVec 12) := []
  /-- nodes whose loss is carried to the next boundary, in order | list | R54, R739 (02, 22) | reset: none -/
  carried : List (BitVec 12) := []
  /-- outcome records, at most 4,096 | list | R317 (08) | reset: none -/
  records : List Outcome := []
  /-- packets of a group not valid in their coat, discarded | count | R820 (08) | reset: 0 -/
  badGroup : Nat := 0
  deriving DecidableEq, Repr

/-- Buckets and gates of one link port (chapter 09). -/
structure Tm where
  /-- deficit of queues 0 to 6 | signed | R325 (09) | reset: 0 -/
  deficit : Tbl Int := []
  /-- scheduler pointer | 3 | R325 (09) | reset: 0 -/
  cur : Nat := 0
  /-- shaper tokens of queues 0 to 7, in 1/256 byte | R328 (09) | reset: 0 -/
  tokens : Tbl Nat := []
  /-- port shaper tokens, in 1/256 byte | R328 (09) | reset: 0 -/
  ptokens : Nat := 0
  /-- operating bank | 1 | Table 9-10 (09) | reset: 0 -/
  bank : Bool := false
  /-- swap requested, at that elapsed tick | R336 (09) | reset: none -/
  swap : Option (BitVec 48) := none
  /-- swap_err | 1 | Table 9-10 (09) | reset: 0 -/
  swapErr : Bool := false
  /-- operating period in ticks | R336 (09) | reset: 1 -/
  period : Nat := 1
  /-- operating entry count | R336 (09) | reset: 1 -/
  count : Nat := 1
  /-- operating base tick | 48 | R336 (09) | reset: 0 -/
  base : BitVec 48 := 0
  /-- list position at the last step 8 | R55 (02) | reset: 0 -/
  pos : Nat := 0
  deriving DecidableEq, Repr

/-- A meter (R343). -/
structure Meter where
  /-- committed bucket, in 1/256 byte | R343 (09) | reset: 0 -/
  tc : Nat := 0
  /-- peak or excess bucket, in 1/256 byte | R343 (09) | reset: 0 -/
  te : Nat := 0
  /-- mode in force at the last step 7 | 2 | R348 (09) | reset: 0 -/
  mode : BitVec 2 := 0
  deriving DecidableEq, Repr

/-- What a thread's fabric item brings back (R592, R594, R597): nothing for a store; a scalar of `size` bytes, sign-extended
or not; the active lanes of a vector; an atomic's old value; the answer to a LAUNCH. -/
inductive ThreadAcc where
  | store
  | load (reg size : Nat) (sgn : Bool)
  | vload (reg size : Nat) (skip : Nat) (mask : BitVec 256)
  | atomic (reg : Nat) (pair : Bool)
  | launch (reg : Nat)
  deriving DecidableEq, Repr

/-- What one of the part's own fabric items works for (Table 5-2a, R748). -/
inductive OwnUse where
  | desc (d : DRef) (pos : Nat)
  | thread (t : Thr) (acc : ThreadAcc)
  | lib (k : Fin 256) (run : BitVec 32)
  | gwIn (q : Fin 16384) (psn : BitVec 24)
  | gwOut (d : DRef) (psn : BitVec 24)
  | done (k : Fin 256) (run : BitVec 32) (gen : BitVec 16)
  deriving DecidableEq, Repr

/-- A fabric item that the part has outstanding as its owner (R169, R176). -/
structure Own where
  tag : BitVec 16
  opcode : BitVec 8
  dst : BitVec 12
  addr : Word
  len : Nat
  use : OwnUse
  /-- elapsed tick at which it was sent -/
  sent : BitVec 48
  /-- bytes of answer counted (R173) -/
  got : Nat := 0
  data : Tbl Byte := []
  /-- outputs through which it went (R351) -/
  outs : List PortId := []
  /-- internal input from which it went -/
  inp : PortId := 0
  deriving DecidableEq, Repr

/-- An incoming write item (R171). -/
structure WriteTrack where
  src : BitVec 12
  tag : BitVec 16
  got : Nat
  len : Nat
  /-- elapsed tick of its last packet (R175) -/
  last : BitVec 48
  echo : Bool
  deriving DecidableEq, Repr

/-- The part's own items and the write items it tracks (chapter 05). -/
structure Items where
  /-- own items outstanding | list | R169 (05) | reset: none -/
  own : List Own := []
  /-- tags that ended with TIMEOUT and the elapsed tick of it | list | R178 (05) | reset: none -/
  quarantine : List (BitVec 16 × BitVec 48) := []
  /-- write items tracked, at most 32,768 | list | R174 (05) | reset: none -/
  track : List WriteTrack := []
  /-- tracking entries dropped | count | R175 (05) | reset: 0 -/
  dropped : Nat := 0
  /-- answers that match no item, discarded | count | R168 (05) | reset: 0 -/
  stray : Nat := 0
  /-- packets with a reserved opcode, discarded | count | R165 (05) | reset: 0 -/
  reservedOp : Nat := 0
  /-- packets with a flit of a reserved kind, discarded | count | R156 (05) | reset: 0 -/
  badFlit : Nat := 0
  /-- multicast packets that wait at a link port for an outcome record, with the mark of a crc32 failure | list | R317 (08) | reset: none -/
  waiting : List (LinkId × Bool × Packet) := []
  deriving DecidableEq, Repr

end Machine
end Sys2Proof
end

