-- ==== Sys2Proof/Machine/StateMemory.lean ====
section
/-!
DEFINITION. The state of the Larder (chapter 11).
-/
namespace Sys2Proof
namespace Machine

/-- Bytes of the module's memory that a checked range names. -/
inductive Place where
  /-- runs of Larder bytes: first byte and length -/
  | larder (runs : List (Nat × Nat))
  /-- array memory: 4 MiB × array + offset -/
  | array (base : Nat)
  /-- counter space: first counter page byte -/
  | counter (base : Nat)
  deriving DecidableEq, Repr

/-- A request that waits at a stack controller (R407): its requester index, the packet it comes from, the place that the packet's checked
range names, and the `len` bytes from byte `pos` that it asks for: of a read, one piece. -/
structure LarderReq where
  i : Nat
  pkt : Packet
  pl : Place
  pos : Nat
  len : Nat
  /-- the item has drawn its FAIL already (R413) -/
  failed : Bool := false
  deriving DecidableEq, Repr

/-- A frame being copied into a spare (R416). -/
structure Retire where
  frame : Nat
  spare : Nat
  /-- elapsed tick at which the copy began -/
  since : BitVec 48
  copied : Bool := false
  deriving DecidableEq, Repr

/-- A frame whose zero fill is under way (R393, R397). -/
structure Fill where
  frame : Nat
  tenant : BitVec 8
  /-- it follows the re-installation of a key (R397) -/
  rekey : Bool := false
  /-- rows of the frame that the fill has passed, by stack (R394) -/
  rows : Tbl Nat := []
  deriving DecidableEq, Repr

/-- The Larder (chapter 11). -/
structure Larder where
  /-- contents by byte: 256 × line number + byte, before remapping | 1,920 GB | R384, R388 (11) | reset: lists nothing, a byte not listed reads zero (R393) -/
  mem : Tbl Byte := []
  /-- 64-byte words that are uncorrectable, by word number | R412 (11) | reset: none -/
  badWord : Tbl Bool := []
  /-- owner of each frame | 8 each | R391 (11) | reset: unowned -/
  owner : Tbl (Option (BitVec 8)) := []
  /-- zero fills under way | R393 (11) | reset: none -/
  fills : List Fill := []
  /-- the tenant's Larder key is present | 256 × 1 | R396 (11) | reset: absent until the Larder phase (R720) -/
  key : Tbl Bool := []
  /-- the part's own Larder key is present | 1 | R396 (11) | reset: absent until the Larder phase -/
  partKey : Bool := false
  /-- frames remapped to a spare | R416 (11) | reset: none -/
  remap : Tbl (Option Nat) := []
  /-- spares in use | R416 (11) | reset: 0 -/
  sparesUsed : Nat := 0
  /-- copies under way | R416 (11) | reset: none -/
  retiring : List Retire := []
  /-- frame whose retirement was asked for by go, until its copy ends | 20 | Table 11-16 (11) | reset: none -/
  goFrame : Option Nat := none
  /-- refused of LARDER_RETIRE | 1 | Table 11-16 (11) | reset: false -/
  refused : Bool := false
  /-- corrected words of each frame in this scrub period | R415 (11) | reset: 0 -/
  ce : Tbl Nat := []
  /-- elapsed tick at which the scrub period began | 48 | R414 (11) | reset: 0 -/
  scrubAt : BitVec 48 := 0
  /-- next line to scrub | R414 (11) | reset: 0 -/
  scrubLine : Nat := 0
  /-- reserved region in force, GiB | Table 11-14 (11) | reset: 32 -/
  atticGib : Nat := 32
  /-- requests that wait, by stack, oldest first | R407 (11) | reset: none -/
  waiting : Tbl (List LarderReq) := []
  /-- lines served in this tick, by 4 × stack + class | R408 (11) | reset: 0 -/
  served : Tbl Nat := []
  /-- nanosecond of the last slot in which a stack served, and requests taken in it | R407 (11) | reset: 0 -/
  slotTaken : Tbl (Nat × Nat) := []
  /-- nanosecond of the last atomic, by 64-byte word | R406 (11) | reset: 0 -/
  lastAtomic : Tbl Nat := []
  /-- fraction of 256 to which the power manager paces the stacks | R411 (11, 21) | reset: 256 -/
  pace : Nat := 256
  /-- translation cache: coat, tenant and page, newest first, at most 65,536 | R390 (11) | reset: empty -/
  cache : List (BitVec 4 × BitVec 8 × Nat) := []
  deriving DecidableEq, Repr

end Machine
end Sys2Proof
end

