-- ==== Sys2Proof/Machine/StateWork.lean ====
section
/-!
DEFINITION. The state of the Workroom (chapters 15 and 16): kernels, runs, hardware threads and array memories.
-/
namespace Sys2Proof
namespace Machine

/-- A register that waits for a fabric answer (R574, R592). -/
inductive BusyReg where
  | s (n : Nat)
  | v (n : Nat)
  deriving DecidableEq, Repr

/-- One hardware thread (Table 15-1). -/
structure Thread where
  /-- a run occupies it | 1 | R553 (15) | reset: false -/
  active : Bool := false
  /-- it has executed END | 1 | R554 (15) | reset: false -/
  ended : Bool := false
  /-- kernel slot of its run | 8 | R553 (15) | reset: 0 -/
  kernel : Fin 256 := 0
  /-- run number | 32 | R552 (15) | reset: 0 -/
  run : BitVec 32 := 0
  /-- thread index in the run | 11 | Table 15-10 (15) | reset: 0 -/
  index : Nat := 0
  /-- program counter, an instruction index | R599 (16) | reset: 0 -/
  pc : Nat := 0
  /-- s0 to s31 | 32 × 64 | Table 15-1 (15) | reset: 0 (R535) -/
  s : Tbl Word := []
  /-- v0 to v31, by 256 × register + lane | 32 × 256 × 32 | Table 15-1 (15) | reset: 0 (R535) -/
  v : Tbl (BitVec 32) := []
  /-- p0 to p7 | 8 × 256 | Table 15-1 (15) | reset: 0 (R535) -/
  p : Tbl (BitVec 256) := []
  /-- sticky flag word | 5 | R577 (16) | reset: 0 -/
  flags : BitVec 5 := 0
  /-- registers that wait for fabric answers | R574 (16) | reset: none -/
  busy : List BusyReg := []
  /-- it waits for the answer to its LAUNCH | 1 | R597 (16) | reset: false -/
  waitAck : Bool := false
  /-- BARs executed | count | R596 (16) | reset: 0 -/
  bars : Nat := 0
  /-- it waits in a BAR | 1 | R596 (16) | reset: false -/
  inBar : Bool := false
  deriving DecidableEq, Repr

/-- What launched a run, to report its outcome to (R554, R567). -/
inductive Launcher where
  /-- a KERNEL_RUN -/
  | desc (d : DRef)
  /-- a LAUNCH packet: done_en and done -/
  | pkt (doneEn : Bool) (done : Word)
  /-- an ATTN_QUERY: its packet, and the entry read at admission: kv_fmt, head_dim and the page words of its range -/
  | query (p : Packet) (kvFmt headDim : Nat) (pages : List Word)
  deriving DecidableEq, Repr

/-- A run (R549 to R557). -/
structure Run where
  num : BitVec 32
  gen : BitVec 16
  by_ : Launcher
  threads : Nat
  args : List Byte
  /-- its arguments are here -/
  ready : Bool := true
  started : Bool := false
  /-- elapsed tick and nanosecond of its start -/
  startTick : BitVec 48 := 0
  startNs : Nat := 0
  /-- status of its fault, OK while none (R555) -/
  status : BitVec 8 := 0
  /-- payload of the ATTN_PARTIAL that it answers with (R567) -/
  out : List Byte := []
  deriving DecidableEq, Repr

/-- A kernel slot (Table 15-6). -/
structure Kernel where
  /-- loaded | 1 | R545 (15) | reset: false -/
  loaded : Bool := false
  /-- bound tenant | 8 | R544 (15) | reset: 0 -/
  tenant : BitVec 8 := 0
  /-- host address of the code | 64 | Table 15-6 (15) | reset: 0 -/
  code : Word := 0
  /-- bytes of code | 32 | Table 15-6 (15) | reset: 0 -/
  codeLen : Nat := 0
  /-- offset of the code in array memory | 22 | Table 15-6 (15) | reset: 0 -/
  codeOff : Nat := 0
  /-- library kernel, 0 none | 8 | Table 15-14 (15) | reset: 0 -/
  lib : Nat := 0
  /-- launch_en | 1 | Table 15-6 (15) | reset: false -/
  launchEn : Bool := false
  /-- array mask | 64 | Table 15-6 (15) | reset: 0 -/
  arrays : Word := 0
  /-- threads_max | 12 | Table 15-6 (15) | reset: 0 -/
  threadsMax : Nat := 0
  /-- run_limit | 32 | Table 15-6 (15) | reset: 0 -/
  runLimit : Nat := 0
  /-- entry | 32 | Table 15-6 (15) | reset: 0 -/
  entry : Nat := 0
  /-- the code has been copied; the elapsed tick from which On may be entered | 48 | R546 (15) | reset: none -/
  copied : Option (BitVec 48) := none
  /-- code bytes that came from the host | list | R546 (15) | reset: none -/
  bytes : List Byte := []
  /-- host bytes of the code wholly read, with the first failure's status | R546 (15) | reset: none -/
  fetched : Option (BitVec 8) := none
  /-- next run number | 32 | R552 (15) | reset: 0 -/
  nextRun : BitVec 32 := 0
  /-- runs in order of admission, waiting and started | list | R550 (15) | reset: none -/
  runs : List Run := []
  deriving DecidableEq, Repr

/-- A write of the sequence table that waits for its boundary (R563). -/
structure SeqWrite where
  d : DRef
  due : BitVec 48
  /-- page words of a SEQ_PAGES -/
  words : List Byte := []
  deriving DecidableEq, Repr

/-- The Workroom. -/
structure Work where
  /-- array memories: 4 MiB × array + offset | 64 × 4 MiB | Table 15-1 (15) | reset: zero (R535) -/
  mem : Tbl Byte := []
  /-- 64-byte words of array memory that are uncorrectable | R538 (15) | reset: none -/
  badWord : Tbl Bool := []
  /-- hardware threads, by 32 × array + thread | Table 15-1 (15) | reset: see Thread -/
  thr : Tbl Thread := []
  /-- kernel slots | 256 | chapter 15 | reset: see Kernel -/
  kernel : Tbl Kernel := []
  /-- arrays being zeroed, and the elapsed tick at which it began | R535 (15) | reset: none -/
  zeroing : List (Nat × BitVec 48) := []
  /-- sequence descriptors that wait for a boundary | R563 (15) | reset: none -/
  seqs : List SeqWrite := []
  /-- issue fraction of the power manager, in 1/256 | R530 (15, 21) | reset: 256 -/
  fraction : Nat := 256
  /-- done records that failed | count | R554 (15) | reset: 0 -/
  doneFails : Nat := 0
  deriving DecidableEq, Repr

end Machine
end Sys2Proof
end

