-- ==== Sys2Proof/Machine/StateColl.lean ====
section
/-!
DEFINITION. The state of collective groups and of the Hawk (chapters 12 and 13).
-/
namespace Sys2Proof
namespace Machine

/-- A member table entry (Table 12-6). -/
structure MemberBuf where
  dst : Word
  dstLen : Nat
  status : Word
  deriving DecidableEq, Repr

/-- An operation template (Table 12-5). -/
structure Template where
  kind : Nat
  op : Nat
  inFmt : BitVec 16
  outFmt : BitVec 16
  tileLog2 : Nat
  root : Nat
  opLimit : Nat
  length : Nat
  members : List MemberBuf
  deriving DecidableEq, Repr

/-- A Hawk position (R469, R476 to R478): arrival map, accumulator, the next member in ordered mode, cells in hold room and
cells spilled. -/
structure Pos where
  map : BitVec 128 := 0
  acc : List (BitVec 64) := []
  next : Nat := 0
  hold : List (Nat × List Byte) := []
  spill : List (Nat × List Byte) := []
  done : Bool := false
  deriving DecidableEq, Repr

/-- A tile that holds room (R485, R486): its positions of the first stage by result cell and of the second by partial
cell. -/
structure TileRec where
  tile : Nat
  handle : Nat
  grains : Nat
  spill : Nat
  fromReserve : Bool
  /-- tiles that had been given room before it: its age (R492) -/
  born : Nat := 0
  pos1 : Tbl Pos := []
  pos2 : Tbl Pos := []
  /-- result cells that have been sent to the slices -/
  sent : Nat := 0
  deriving DecidableEq, Repr

/-- A bound operation (R442). -/
structure CollOp where
  s : BitVec 32
  tmplIdx : Nat
  tmpl : Template
  entry : BitVec 4608
  gen : BitVec 16
  level : Nat
  /-- elapsed tick of the binding -/
  bound : BitVec 48
  /-- topcoat at the binding (R305) -/
  coat : BitVec 4 := 0
  /-- members whose COLL_START is in, members and ranks that arrived at a barrier -/
  starts : List Nat := []
  arrived : List Nat := []
  peers : List Nat := []
  /-- counts of an all-to-all by member, and whether the layouts have been sent -/
  counts : Tbl (List Nat) := []
  layouts : Bool := false
  tiles : List TileRec := []
  /-- tiles whose results have all left their slices (R489) -/
  doneTiles : List Nat := []
  /-- COLL_ARRIVE has been sent to the peers (R460) -/
  told : Bool := false
  /-- bytes delivered, by 2^20 × member + tile or sender -/
  delivered : Tbl Nat := []
  /-- records sent, by the same key, and members that have their op record -/
  recorded : Tbl Bool := []
  ended : List Nat := []
  deriving DecidableEq, Repr

/-- What became of the last operation of a slot (R494). -/
structure LastOp where
  s : BitVec 32
  status : BitVec 8
  deriving DecidableEq, Repr

/-- A collective group (R427 to R466). -/
structure Group where
  /-- grains reserved | 12 | R484 (13) | reset: 0 -/
  res : Nat := 0
  /-- grains of the reserve not drawn | 12 | R484 (13) | reset: 0 -/
  resFree : Nat := 0
  /-- spill units of the reserve not drawn | 12 | R484 (13) | reset: 0 -/
  resSpill : Nat := 0
  /-- templates | 64 | Table 12-5 (12) | reset: none -/
  tmpl : Tbl (Option Template) := []
  /-- templates that apply at a boundary: index, template and elapsed tick | R434 (12) | reset: none -/
  waiting : List (Nat × Template × BitVec 48) := []
  /-- operations bound, by slot | 16 | R442 (12) | reset: none -/
  ops : Tbl (Option CollOp) := []
  /-- operations that each slot has bound and ended | R442 (12) | reset: 0 -/
  count : Tbl Nat := []
  /-- last operation of each slot | R494 (13) | reset: none -/
  last : Tbl (Option LastOp) := []
  /-- held | 1 | R465 (12) | reset: false -/
  held : Bool := false
  /-- group level at the last binding | 8 | Table 12-4 (12) | reset: 0 -/
  level : Nat := 0
  /-- room of the tiles of operations that ended with a failure since the last boundary, which returns there | R489 (13) | reset: none -/
  ending : List TileRec := []
  /-- grains that its enable asked for and that are not yet reserved | 12 | R431, R484 (12, 13) | reset: 0 -/
  want : Nat := 0
  deriving DecidableEq, Repr

/-- A request for room (R485). -/
structure GrantReq where
  g : Fin 1024
  slot : Fin 16
  s : BitVec 32
  tile : Nat
  need : Nat
  spill : Nat
  /-- elapsed tick of the binding, for the age of the operation -/
  bound : BitVec 48
  deriving DecidableEq, Repr

/-- The Hawk's room and its groups. -/
structure Hawk where
  /-- groups | 1,024 | chapter 12 | reset: see Group -/
  group : Tbl Group := []
  /-- pool grains free | 12 | Table 13-8 (13) | reset: 3072 -/
  grains : Nat := 3072
  /-- pool spill units free | 15 | Table 13-8 (13) | reset: 3392 -/
  spill : Nat := 3392
  /-- grant requests in their order | R487 (13) | reset: none -/
  reqs : List GrantReq := []
  /-- the next step 9 serves no request | 1 | R492 (13) | reset: false -/
  skip : Bool := false
  /-- requests that step 9 serves at most, lowered by the power manager | R490 (13) | reset: 256 -/
  limit : Nat := 256
  /-- cells moved out to and back from the overflow region in this tick | R479 (13) | reset: 0 -/
  movedOut : Nat := 0
  movedIn : Nat := 0
  /-- nanosecond of the last addition of each slice | R470 (13) | reset: none -/
  addedAt : Tbl Nat := []
  /-- tiles given room since reset | count | R492 (13) | reset: 0 -/
  given : Nat := 0
  /-- sums of grains and of spill units that the snapshot latched in the ticks of their audit | 2 counts | R491 (13) | reset: none -/
  latched : Option (Nat × Nat) := none
  deriving DecidableEq, Repr

end Machine
end Sys2Proof
end

