-- ==== Sys2Proof/Machine/StateStream.lean ====
section
/-!
DEFINITION. The state of weight streams (chapter 14).
-/
namespace Sys2Proof
namespace Machine

/-- A segment of a program (Table 14-4). -/
structure Segment where
  src : Word
  srcLen : Nat
  tgtLen : Nat
  srcFmt : BitVec 16
  tgtFmt : BitVec 16
  group : Nat
  slot : Nat
  quota : Nat
  deadline : Nat
  deriving DecidableEq, Repr

/-- A landing grant (R506). -/
structure Grant where
  port : Nat
  slot : Nat
  base : Word
  size : Nat
  deriving DecidableEq, Repr

/-- A member's share of a segment under way (R517 to R522). -/
structure Share where
  out : PortId
  /-- grant consumed -/
  grant : Option Grant
  delivered : List Nat := []
  failed : List Nat := []
  /-- status of the last failure -/
  lastFail : BitVec 8 := 0x01
  /-- repair attempts made -/
  attempts : Nat := 0
  /-- chunks that the attempt under way still has to read -/
  repair : List Nat := []
  /-- outcome, none while the share is open -/
  status : Option (BitVec 8) := none
  deriving DecidableEq, Repr

/-- A segment that has started (R503 to R522). -/
structure SegRun where
  pass : BitVec 32
  seg : Nat
  /-- S_p -/
  start : BitVec 48
  /-- coat bound at the start (R505) -/
  coat : BitVec 4
  shares : List Share
  chunks : Nat
  /-- next chunk to read, and stored bytes read before it -/
  next : Nat := 0
  off : Nat := 0
  /-- stored bytes before each Skim-Z chunk that has been read -/
  offs : List Nat := []
  /-- elapsed tick of the last chunk sent, delivered or failed (R518) -/
  last : BitVec 48
  /-- chunks sent by repair -/
  repaired : Nat := 0
  /-- elapsed tick at which the outcome record closed, none while it is open -/
  closed : Option (BitVec 48) := none
  deriving DecidableEq, Repr

/-- A pass whose segment records are not all written (R501 to R503). -/
structure Pass where
  num : BitVec 32
  start : BitVec 48
  d : Option DRef
  /-- next segment to start -/
  next : Nat := 0
  /-- statuses of the records written, by segment -/
  recs : Tbl (Option (BitVec 8)) := []
  deriving DecidableEq, Repr

/-- One weight stream. -/
structure Stream where
  /-- bound tenant | 8 | R496 (14) | reset: none -/
  tenant : Option (BitVec 8) := none
  /-- program | 4,096 segments | R499 (14) | reset: empty -/
  program : List Segment := []
  /-- repair_limit | 4 | Table 14-3 (14) | reset: 0 -/
  repairLimit : Nat := 0
  /-- period | 32 | Table 14-3 (14) | reset: 0 -/
  period : Nat := 0
  /-- base_tick | 48 | Table 14-3 (14) | reset: 0 -/
  baseTick : BitVec 48 := 0
  /-- status_base | 64 | Table 14-3 (14) | reset: 0 -/
  statusBase : Word := 0
  /-- next pass of the generation | 32 | R501 (14) | reset: 0 -/
  nextPass : BitVec 32 := 0
  /-- last pass started | 32 | Table 14-2 (14) | reset: 0 -/
  lastPass : BitVec 32 := 0
  /-- starts that wait, with the elapsed tick of their boundary | list | R501 (14) | reset: none -/
  starts : List (DRef × BitVec 48) := []
  /-- passes open, oldest first | list | R503 (14) | reset: none -/
  passes : List Pass := []
  /-- segments started, oldest first | list | R503 (14) | reset: none -/
  segs : List SegRun := []
  /-- grants held | list | R506 (14) | reset: none -/
  grants : List Grant := []
  /-- grants accepted less consumed less released, by port | table | R510 (14) | reset: 0 -/
  balance : Tbl Nat := []
  /-- stored bytes that may still be read in this tick | 32 | R512 (14) | reset: 0 -/
  allowance : Nat := 0
  deriving DecidableEq, Repr

/-- The weight streams. -/
structure Streams where
  /-- streams | 64 | R496 (14) | reset: see Stream -/
  s : Tbl Stream := []
  /-- fraction of the power manager, in 1/256 | 9 | R527 (14, 21) | reset: 256 -/
  phi : Nat := 256
  deriving DecidableEq, Repr

end Machine
end Sys2Proof
end

