-- ==== Sys2Proof/Machine/StateGateway.lean ====
section
/-!
DEFINITION. The state of the Ethernet ports and the RDMA gateway (chapter 17).
-/
namespace Sys2Proof
namespace Machine

/-- BTH opcodes that the gateway accepts or sends (R612, R626), by what they do. -/
inductive RoceOp where
  | sendFirst | sendMiddle | sendLast | sendOnly
  | writeFirst | writeMiddle | writeLast | writeOnly
  | readReq | readFirst | readMiddle | readLast | readOnly | ack | cnp
  deriving DecidableEq, Repr

/-- A RoCEv2 packet that the gateway sends: BTH opcode, PSN, RETH and AETH fields and payload. Its other fields follow from its queue
pair's context and R625. -/
structure RoceTx where
  op : RoceOp
  psn : BitVec 24
  va : Word := 0
  rkey : BitVec 32 := 0
  len : Nat := 0
  syndrome : BitVec 8 := 0
  msn : BitVec 24 := 0
  /-- IP ECN is CE (Table 9-6) -/
  ce : Bool := false
  payload : List Byte := []
  deriving DecidableEq, Repr

/-- A frame that an Ethernet port sends. -/
inductive EthTx where
  | roce (q : Fin 16384) (p : RoceTx)
  /-- an ARP reply: to whom (R603) -/
  | arp (mac : BitVec 48) (ip : BitVec 32)
  /-- a neighbour advertisement: to whom (R603) -/
  | ndp (mac : BitVec 48) (ip : BitVec 128)
  /-- a priority flow-control frame for one class (R606) -/
  | pfc (c : Fin 8) (quanta : BitVec 16)
  deriving DecidableEq, Repr

/-- A RoCEv2 packet in the input buffer: its kind, itself, its class and the units of its class's share that it holds (R604, R605). -/
structure EthWait where
  op : RoceOp
  msg : RoceMsg
  cls : Fin 8
  units : Nat
  deriving DecidableEq, Repr

/-- An Ethernet port (R600 to R608). -/
structure EthPort where
  /-- in service | 1 | R601, R659 (17, 18) | reset: false -/
  up : Bool := false
  /-- egress queues by class | table of 8 | R605 (17) | reset: empty -/
  queue : Tbl (List EthTx) := []
  /-- frame under way | R607 (17) | reset: none -/
  tx : Option (Fin 8 × EthTx) := none
  /-- nanosecond at which its transmission time is over | Table 9-4 (09) | reset: 0 -/
  txEnd : Nat := 0
  /-- input buffer, oldest first | list | R604, R605 (17) | reset: empty -/
  waiting : List EthWait := []
  /-- nanosecond until which each class is paused by the peer | table of 8 | R607 (17) | reset: 0 -/
  paused : Tbl Nat := []
  /-- classes that this end has paused, with the elapsed tick of the last pause frame | table of 8 | R606 (17) | reset: none -/
  pausing : Tbl (Option (BitVec 48)) := []
  deriving DecidableEq, Repr

/-- A queue-pair context (Table 17-3). -/
structure QpCtx where
  port : Fin 16
  ipv6 : Bool
  mtu : Nat
  rd : Bool
  wr : Bool
  send : Bool
  pcp : BitVec 3
  dscp : BitVec 6
  retryCnt : Nat
  rnrRetry : Nat
  vlan : BitVec 12
  ackTicks : Nat
  dstMac : BitVec 48
  dstIp : BitVec 128
  dstQpn : BitVec 24
  sqPsn : BitVec 24
  rqPsn : BitVec 24
  rkey : BitVec 32
  regionBase : Word
  regionLen : Word
  recvBase : Word
  recvSlots : Nat
  slotLog2 : Nat
  deriving DecidableEq, Repr

/-- What an accepted incoming packet waits for before it is acknowledged, in PSN order (R615). -/
structure GwIn where
  /-- first PSN -/
  psn : BitVec 24
  /-- PSNs that it covers -/
  psns : Nat := 1
  /-- outstanding fabric items -/
  items : Nat := 0
  /-- an incoming READ: its global address and length, and whether its items have started -/
  read : Option (Word × Nat) := none
  started : Bool := true
  /-- bytes of a READ's data, by offset -/
  data : Tbl Byte := []
  /-- a SEND's last packet: slot and length of the receive record still to write (R616) -/
  record : Option (Nat × Nat) := none
  /-- message sequence number after it -/
  msn : BitVec 24 := 0
  deriving DecidableEq, Repr

/-- An outgoing descriptor of a queue pair (R620, R622). -/
structure GwOut where
  d : DRef
  /-- 0x64 GW_WRITE, 0x65 GW_READ, 0x66 GW_SEND -/
  op : BitVec 8
  addr : Word
  va : Word
  len : Nat
  rkey : BitVec 32
  /-- first PSN, and packets -/
  psn : BitVec 24
  n : Nat
  started : Bool := false
  /-- packets handed to the port, or requested of a READ -/
  sent : Nat := 0
  /-- packets acknowledged, or READ responses taken -/
  acked : Nat := 0
  /-- a read of local data is under way, from this packet on -/
  fetching : Option Nat := none
  /-- WR items of a GW_READ outstanding -/
  writes : Nat := 0
  deriving DecidableEq, Repr

/-- A dyadic number n / 2^e. -/
structure Dyadic where
  n : Nat
  e : Nat
  deriving DecidableEq, Repr

/-- A queue pair (R609 to R627). -/
structure Qp where
  /-- context | Table 17-3 (17) | reset: none -/
  ctx : Option QpCtx := none
  /-- bound tenant | 8 | R610 (17) | reset: 0 -/
  tenant : BitVec 8 := 0
  /-- next PSN to send | 24 | Table 17-2 (17) | reset: 0 -/
  sndPsn : BitVec 24 := 0
  /-- next PSN expected | 24 | R618 (17) | reset: 0 -/
  expPsn : BitVec 24 := 0
  /-- messages completed | 24 | R616 (17) | reset: 0 -/
  msn : BitVec 24 := 0
  /-- free receive slots | 16 | R617 (17) | reset: 0 -/
  free : Nat := 0
  /-- next receive slot k | R616 (17) | reset: 0 -/
  slot : Nat := 0
  /-- message being received: SEND slot or WRITE address, bytes so far, bytes announced | R613, R616 (17) | reset: none -/
  cur : Option (Option Nat × Word × Nat × Nat) := none
  /-- accepted packets not yet acknowledged, oldest first | list | R615 (17) | reset: none -/
  ins : List GwIn := []
  /-- outgoing descriptors, oldest first | list | R620 (17) | reset: none -/
  outs : List GwOut := []
  /-- packets ready to send, oldest first | list | R624, R627 (17) | reset: none -/
  ready : List RoceTx := []
  /-- bytes that may still be sent in this tick | R627 (17) | reset: 0 -/
  budget : Nat := 0
  /-- rate in bytes per tick | R627 (17) | reset: line rate at start -/
  rate : Dyadic := ⟨0, 0⟩
  /-- alpha | R627 (17) | reset: 1 -/
  alpha : Dyadic := ⟨1, 0⟩
  /-- quiet | R627 (17) | reset: 0 -/
  quiet : Nat := 0
  /-- a CNP arrived in this tick | 1 | R627 (17) | reset: false -/
  cnpIn : Bool := false
  /-- elapsed tick of the last CNP sent | R626 (17) | reset: none -/
  cnpOut : Option (BitVec 48) := none
  /-- elapsed tick of the last progress of acknowledgement | R622 (17) | reset: 0 -/
  ackAt : BitVec 48 := 0
  /-- retransmissions made after time-out, and after RNR NAK | R622 (17) | reset: 0 -/
  retries : Nat := 0
  rnrs : Nat := 0
  /-- nanosecond until which an RNR NAK holds it | R622 (17) | reset: none -/
  rnrTo : Option Nat := none
  /-- its port left service: incoming items answer nobody | 1 | R623 (17) | reset: false -/
  silent : Bool := false
  deriving DecidableEq, Repr

/-- Ethernet ports and queue pairs. -/
structure Gateway where
  /-- Ethernet ports, by link − 80 | 16 | R600 (17) | reset: see EthPort -/
  port : Tbl EthPort := []
  /-- queue pairs | 16,384 | R609 (17) | reset: see Qp -/
  qp : Tbl Qp := []
  deriving DecidableEq, Repr

end Machine
end Sys2Proof
end

