-- ==== Sys2Proof/Machine/StateBoard.lean ====
section
/-!
DEFINITION. The state of the Strongroom, the Attic, power, pins and boot flash (chapters 19, 20, 21 and 25).
-/
namespace Sys2Proof
namespace Machine

/-- What an envelope that the Strongroom verifies is for (R666). -/
inductive VerifyUse where
  | coat (d : DRef)
  | fw (d : DRef)
  | session (d : DRef)
  | bundle
  | eqTable
  deriving DecidableEq, Repr

/-- An envelope read whole, waiting for its verification (R666). -/
structure Verify where
  use : VerifyUse
  bytes : List Byte
  /-- nanosecond at which its last byte was read (R666) -/
  at_ : Nat := 0
  deriving DecidableEq, Repr

/-- An open session offer (R668): the draw that its secrets come from, and its signed bytes 0 to 1,255. -/
structure Offer where
  draw : Nat
  bytes : List Byte
  deriving DecidableEq, Repr

/-- An accepted provisioning record that waits for its boundary (R670). -/
structure Provision where
  d : DRef
  bytes : List Byte
  due : BitVec 48
  deriving DecidableEq, Repr

/-- A response of the SPDM responder (R676, R677), by content. -/
inductive SpdmReply where
  | version
  | capabilities
  | algorithms
  | digests (ds : List (BitVec 384))
  | certificate (portion : List Byte)
  | challengeAuth (sig : List Byte)
  | measurements (blocks : List (Nat × List Byte)) (sig : List Byte)
  | vendor (bytes : List Byte)
  | error
  deriving DecidableEq, Repr

/-- The Strongroom (chapter 19). -/
structure Strong where
  /-- Lockdown | 1 | R682 (19) | reset: false; kept by every reset kind (R716) -/
  lockdown : Bool := false
  /-- Erased | 1 | R684 (19) | reset: false; kept by every reset kind -/
  erased : Bool := false
  /-- keys have been cleared: elapsed tick of the Lockdown tick | 48 | R681, R682 (19) | reset: none -/
  lockAt : Option (BitVec 48) := none
  /-- the response that runs ends in terminal erase | 1 | Table 19-9 (19) | reset: false -/
  lockErase : Bool := false
  /-- ALARM_N driven low | 1 | R681, Table 25-5 (19, 25) | reset: false -/
  alarm : Bool := false
  /-- link master key installed | 1 | Table 19-10 (19) | reset: false -/
  linkKey : Bool := false
  /-- link master key | 256 | Table 19-2 (19) | reset: 0 -/
  linkMaster : BitVec 256 := 0
  /-- domain identifier | 32 | Table 19-7a (19) | reset: 0 -/
  domain : BitVec 32 := 0
  /-- session offer | R668 (19) | reset: none -/
  offer : Option Offer := none
  /-- session key | 256 | R667 (19) | reset: none -/
  session : Option (BitVec 256) := none
  /-- provisioning record accepted | R670 (19) | reset: none -/
  provision : Option Provision := none
  /-- envelopes that wait for verification, in order of arrival | list | R666 (19) | reset: none -/
  verify : List Verify := []
  /-- fuse: erase_armed | 1 | Table 19-10 (19) | reset: not blown (DESIGN CHOICE, log 32) -/
  eraseArmed : Bool := false
  /-- fuse: erase | 1 | Table 19-9 (19) | reset: not blown (DESIGN CHOICE, log 32) -/
  eraseFuse : Bool := false
  /-- fuses: image floor | 7 | Table 19-10 (19) | reset: 0 (DESIGN CHOICE, log 32) -/
  floor : BitVec 8 := 0
  /-- fuses: operator slots blown | 4 | Table 19-10 (19) | reset: none (DESIGN CHOICE, log 32) -/
  blown : BitVec 4 := 0
  /-- fuses: operator slots revoked | 4 | Table 19-10 (19) | reset: none (DESIGN CHOICE, log 32) -/
  revoked : BitVec 4 := 0
  /-- fuses: anchor digests of slots 1 to 4 | 4 × 384 | R663 (19) | reset: 0 (DESIGN CHOICE, log 32) -/
  anchors : Tbl (BitVec 384) := []
  /-- fuses: alarms counted, at most 64 | R716 (21) | reset: 0 (DESIGN CHOICE, log 32) -/
  alarmFuses : Nat := 0
  /-- fuses: records that ended Lockdown, at most 64 | R716 (21) | reset: 0 (DESIGN CHOICE, log 32) -/
  provFuses : Nat := 0
  /-- source of the last alarm | 8 | Table 19-10 (19) | reset: 0xFF -/
  lastSource : BitVec 8 := 0xFF
  /-- policy in force, 2 bits per sensor | 16 | Tables 19-8, 19-10 (19) | reset: 0x5055, the default column -/
  policy : BitVec 16 := 0x5055
  /-- alarms since power-up | 16 | Table 19-10 (19) | reset: 0 -/
  alarms : BitVec 16 := 0
  /-- tamper loop resistance recorded at power-up, ohms | R804 (25) | reset: 0 -/
  loopOhms : Nat := 0
  /-- message that the last Ed25519 signature of CHALLENGE_AUTH or MEASUREMENTS covered | R677 (19) | reset: none -/
  signed : List Byte := []
  /-- SPDM responses sent, oldest first | list | R676 (19) | reset: none -/
  replies : List (Transport × SpdmReply) := []
  deriving DecidableEq, Repr

/-- The boot record (Table 20-4). -/
structure BootRec where
  seq : BitVec 32 := 0
  /-- bank to boot: false A, true B -/
  active : Bool := false
  trial : Bool := false
  tried : Bool := false
  levelA : BitVec 8 := 4
  levelB : BitVec 8 := 0
  deriving DecidableEq, Repr

/-- An image being written into a bank of boot flash (R695). -/
structure FlashOp where
  d : DRef
  bank : Bool
  bytes : List Byte
  deriving DecidableEq, Repr

/-- Boot flash (Table 20-3). -/
structure Flash where
  /-- current boot record | 128 | R690 (20) | reset: kept; active A, level A 4, B empty (DESIGN CHOICE, log 31) -/
  record : BootRec := {}
  /-- which copy is current | 1 | R690 (20) | reset: kept; copy 0 (DESIGN CHOICE, log 31) -/
  copy : Bool := false
  /-- image bank A | 48 MiB | Table 20-3 (20) | reset: kept; a free value (log 31) -/
  bankA : List Byte := Config.flash 0
  /-- image bank B | 48 MiB | Table 20-3 (20) | reset: kept; empty (DESIGN CHOICE, log 31) -/
  bankB : List Byte := []
  /-- configuration bundle envelope | 2 MiB | Table 20-3 (20) | reset: kept; a free value (log 31) -/
  bundle : List Byte := Config.flash 2
  /-- equalisation table envelope | 1 MiB | Table 20-3 (20) | reset: kept; a free value (log 31) -/
  eqTable : List Byte := Config.flash 3
  /-- retired-frame log | 1 MiB | R418, Table 20-3 (11, 20) | reset: kept; empty (DESIGN CHOICE, log 31) -/
  retired : List Nat := []
  deriving DecidableEq, Repr

/-- What DRAIN, UNDRAIN, FW_ACTIVATE and MODULE_RESET wait for: their boundary (R697, R703, R706, R714). -/
structure AdminWait where
  d : DRef
  due : BitVec 48
  deriving DecidableEq, Repr

/-- The Attic (chapter 20). -/
structure Attic where
  /-- running feature level | 8 | Table 20-9 (20) | reset: 4 (R2) -/
  level : BitVec 8 := 4
  /-- running bank | 1 | Table 20-9 (20) | reset: A -/
  bank : Bool := false
  /-- the running image is not committed | 1 | Table 20-9 (20) | reset: false -/
  trial : Bool := false
  /-- recovery | 1 | R693 (20) | reset: 0 -/
  recovery : Bool := false
  /-- the Attic restarts, or its image does not run yet | 1 | R687, R688, R691 (20) | reset: false -/
  restarting : Bool := false
  /-- a rollback is to be reported by the image: bank and level refused | 9 | R692 (20) | reset: none -/
  refusedImage : Option (Bool × BitVec 8) := none
  /-- restarts since module reset | 16 | Table 20-9 (20) | reset: 0 -/
  restarts : BitVec 16 := 0
  /-- rollbacks since module reset | 16 | Table 20-9 (20) | reset: 0 -/
  rollbacks : BitVec 16 := 0
  /-- draining: no new work is admitted | 1 | R703, Table 20-9 (20) | reset: 0 -/
  draining : Bool := false
  /-- drained point reached | 1 | R704, Table 20-9 (20) | reset: 0 -/
  drainedPoint : Bool := false
  /-- DRAINs open, with the elapsed tick and the limit of the first | R705, R706 (20) | reset: none -/
  drains : List DRef := []
  drainSince : BitVec 48 := 0
  drainLimit : Nat := 0
  /-- elapsed tick of the last packet, VC7 apart, that entered from a link port | 48 | R704 (20) | reset: 0 -/
  lastEntry : BitVec 48 := 0
  /-- administration work that waits for its boundary | list | R697, R703, R706, R714 | reset: none -/
  prepared : List AdminWait := []
  /-- firmware descriptors, the first one running | list | R694 (20) | reset: none -/
  fw : List DRef := []
  /-- FW_ACTIVATE whose image is starting, and the status that it will complete with | R697 (20) | reset: none -/
  activating : Option (DRef × BitVec 8) := none
  /-- LEVEL_OFFER is due once the image runs | 1 | R700 (20) | reset: false -/
  offerDue : Bool := false
  /-- boot flash | Table 20-3 (20) | reset: kept -/
  flash : Flash := {}
  /-- image write to boot flash under way | R695 (20) | reset: none -/
  flashOp : Option FlashOp := none
  /-- retired frames whose records wait for boot flash, oldest first | list | R418, Table 20-2 (11, 20) | reset: none -/
  retireLog : List Nat := []
  /-- elapsed tick at which the running image started | 48 | R719 (21) | reset: none -/
  runAt : Option (BitVec 48) := none
  /-- equalisation table in use, none for that of the firmware image; an entry of none is the image's default entry | 1,536 × 64 | R645, R646 (18) | reset: none -/
  eq : Option (List (Option Word)) := none
  /-- bytes of the equalisation table and of the configuration bundle accepted, for measurement | list | Table 19-8a (19) | reset: none -/
  eqBytes : List Byte := []
  bundleBytes : List Byte := []
  /-- equalisation tables refused | count | R645 (18) | reset: 0 -/
  eqRefused : Nat := 0
  /-- equalisation entries replaced | count | R646 (18) | reset: 0 -/
  eqReplaced : Nat := 0
  /-- PLDM responses sent: sensor identifier and reading | list | R710 (20) | reset: none -/
  pldm : List (BitVec 16 × Nat) := []
  /-- state set that sensor 5 last reported | 6 | R710, Table 20-8 (20) | reset: 0 -/
  pldmState : Nat := 0
  /-- LEVEL_OFFERs that a level-3 image discarded | count | R701 (20) | reset: 0 -/
  offersDropped : Nat := 0
  deriving DecidableEq, Repr

/-- A POWER_CAP that waits for step 11 (R717). -/
structure CapWait where
  d : DRef
  watts : Nat
  due : BitVec 48
  deriving DecidableEq, Repr

/-- Power, reset and pins (chapters 21 and 25). -/
structure Power where
  /-- in reset, before power-good | 1 | R718 (21) | reset: true -/
  inReset : Bool := true
  /-- shut down by temperature | 1 | R737 (21) | reset: false -/
  shutdown : Bool := false
  /-- READY | 1 | R720 (21) | reset: false -/
  ready : Bool := false
  /-- event 0x33 has been raised | 1 | R723 (21) | reset: false -/
  late : Bool := false
  /-- the Larder phase of start-up has ended | 1 | R720 (21) | reset: false -/
  larderDone : Bool := false
  /-- elapsed tick at which a MODULE_RESET resets | 48 | R714 (21) | reset: none -/
  resetAt : Option (BitVec 48) := none
  /-- sideband cap, watts | 16 | R725 (21) | reset: none -/
  sideCap : Option Nat := none
  /-- command cap, watts | 16 | R725 (21) | reset: none -/
  cmdCap : Option Nat := none
  /-- sideband cap that arrived since the last measurement; 65,535 removes | 16 | R726 (21) | reset: none -/
  sideNew : Option Nat := none
  /-- POWER_CAPs that wait for a measurement, oldest first | list | R726 (21) | reset: none -/
  cmdNew : List CapWait := []
  /-- throttle level k | 6 | R727 (21) | reset: 0 -/
  k : Nat := 0
  /-- hold flag | 1 | R727 (21) | reset: false -/
  hold : Bool := false
  /-- brake in force | 1 | R733 (21) | reset: false -/
  brake : Bool := false
  /-- supply below 58.0 V holds the part at the floor | 1 | R712 (21) | reset: false -/
  supplyHold : Bool := false
  /-- last measurement, watts | 12 | Table 21-9 (21) | reset: 0 -/
  watts : Nat := 0
  /-- target of the last cap step | R727 (21) | reset: 2400 -/
  target : Nat := 2400
  /-- P has met the target since it was set | 1 | R731 (21) | reset: true -/
  met : Bool := true
  /-- lag | 1 | R731 (21) | reset: 0 -/
  lag : Bool := false
  /-- cap_alarm | 1 | R732 (21) | reset: 0 -/
  capAlarm : Bool := false
  /-- highest junction, 0.5 °C | 8 | Table 21-9 (21) | reset: 0 -/
  junction : BitVec 8 := 0
  /-- thermal fraction θ, 0 to 256 | R736 (21) | reset: 256 -/
  theta : Nat := 256
  /-- levers in force: level and θ applied at the last boundary | R728 (21) | reset: 0, 256 -/
  applied : Nat × Nat := (0, 256)
  /-- test access port: instruction in force | R803 (25) | reset: 1, IDCODE -/
  tap : Nat := 1
  /-- boundary-scan register of the test access port | R803 (25) | reset: empty -/
  scan : List Bool := []
  /-- pins driven by EXTEST, none otherwise | R803 (25) | reset: none -/
  driven : Option (List Bool) := none
  /-- TICK_OUT pulses driven | count | R46 (02) | reset: 0 -/
  tickOut : Nat := 0
  deriving DecidableEq, Repr

end Machine
end Sys2Proof
end

