-- ==== Sys2Proof/Machine/Tbl.lean ====
section
/-!
DEFINITION. Sparse tables in canonical form: keys strictly rising and no entry equal to the table's default, so that
equal contents are equal data. Memories are tables of bytes whose default is zero.
-/
namespace Sys2Proof
namespace Machine

/-- What key `k` holds. -/
def tblGet {α : Type} (d : α) : Tbl α → Nat → α
  | [], _ => d
  | (i, v) :: t, k => if i = k then v else tblGet d t k

/-- The table without key `k` (which then holds the default). -/
def tblErase {α : Type} : Tbl α → Nat → Tbl α
  | [], _ => []
  | (i, v) :: t, k => if i = k then t else if k < i then (i, v) :: t else (i, v) :: tblErase t k

/-- The table with `v` at key `k`, in rising order of the keys. -/
def tblInsert {α : Type} : Tbl α → Nat → α → Tbl α
  | [], k, v => [(k, v)]
  | (i, w) :: t, k, v =>
    if i = k then (k, v) :: t else if k < i then (k, v) :: (i, w) :: t else (i, w) :: tblInsert t k v

/-- The table after key `k` is written with `v`: writing the default removes the entry. -/
def tblSet {α : Type} [DecidableEq α] (d : α) (t : Tbl α) (k : Nat) (v : α) : Tbl α :=
  if v = d then tblErase t k else tblInsert t k v

/-- Every key of the table is above `k`. -/
def tblAbove {α : Type} (k : Nat) : Tbl α → Bool
  | [] => true
  | (i, _) :: _ => decide (k < i)

/-- The canonical form: keys strictly rising, no entry equal to the default. -/
def tblWf {α : Type} [DecidableEq α] (d : α) : Tbl α → Bool
  | [] => true
  | (i, v) :: t => decide (v ≠ d) && tblAbove i t && tblWf d t

/-- Every value of the table changed by `f`; entries that become the default are dropped. -/
def tblMap {α : Type} [DecidableEq α] (d : α) (f : Nat → α → α) : Tbl α → Tbl α
  | [] => []
  | (i, v) :: t => if f i v = d then tblMap d f t else (i, f i v) :: tblMap d f t

/-- The value at key `k` changed by `f`. -/
def tblMod {α : Type} [DecidableEq α] (d : α) (t : Tbl α) (k : Nat) (f : α → α) : Tbl α :=
  tblSet d t k (f (tblGet d t k))

/-- `n` consecutive bytes from address `a`. -/
def memRead (m : Tbl Byte) (a : Nat) : Nat → List Byte
  | 0 => []
  | n + 1 => tblGet 0 m a :: memRead m (a + 1) n

/-- The memory after the bytes are written from address `a` upward. -/
def memWrite (m : Tbl Byte) (a : Nat) : List Byte → Tbl Byte
  | [] => m
  | b :: bs => memWrite (tblSet 0 m a b) (a + 1) bs

end Machine
end Sys2Proof
end

