-- ==== Sys2Proof/Machine/State.lean ====
section
/-!
DEFINITION. The state of the module as plain data, the reasons to stop, and the state at the end of reset.
-/
namespace Sys2Proof
namespace Machine

/-- Why a step stops with a fault. No command of this block ends so: every event the spec describes has an effect, and a
command that is not due leaves the state as it is (log 1). -/
inductive Fault where
  /-- raised by no command; it keeps the type inhabited. Safe. -/
  | none
  deriving DecidableEq, Repr

/-- Why a command is refused. -/
inductive Refusal where
  /-- raised by Dispatch.lean for a row that has no meaning yet, named by its mnemonic. Safe. -/
  | notModelled (mnemonic : String)
  deriving DecidableEq, Repr

/-- The state of the module. -/
structure State where
  tick : TickState := {}
  /-- function instances by fnKey | table | R75 (03) | reset: Off, generation 0 -/
  fns : Tbl Fn := []
  enz : Enzen := {}
  rings : Rings := {}
  regs : Regs := {}
  counts : Counts := {}
  /-- links | table of 96 | R192 (06) | reset: see Link -/
  links : Tbl Link := []
  /-- lanes | table of 384 | R628 (18) | reset: see Lane -/
  lanes : Tbl Lane := []
  /-- laser inputs, 2 × engine + (0 A, 1 B) | table of 48 | R654 (18) | reset: see Laser -/
  lasers : Tbl Laser := []
  core : Core := {}
  route : Route := {}
  /-- traffic management by link port | table of 96 | chapter 09 | reset: see Tm -/
  tm : Tbl Tm := []
  /-- meters | table of 384 | R341 (09) | reset: see Meter -/
  meters : Tbl Meter := []
  items : Items := {}
  larder : Larder := {}
  work : Work := {}
  hawk : Hawk := {}
  streams : Streams := {}
  gw : Gateway := {}
  strong : Strong := {}
  attic : Attic := {}
  power : Power := {}
  /-- the model's own field: the next free value to use (log 2) -/
  free : Nat := 0
  /-- the model's own field: commands that wait, first in, first out -/
  pending : List Instr := []
  deriving DecidableEq, Repr

/-- The machine at the end of reset: each field at the value its docstring gives. -/
def State.reset : State := {}

end Machine
end Sys2Proof
end

