-- ==== Sys2Proof/Machine/RegMap.lean ====
section
/-!
DEFINITION. The set-up register map: addresses (Table 24-1), reset values, field types and ranges of every register, as
their tables in chapters 06, 07, 09, 11, 17 to 21 and 24 give them.
-/
namespace Sys2Proof
namespace Machine

/-- The registers of Table 24-1. -/
inductive RegName where
  | chipId | chipSerial | fabricCfg | regErr | coatState | hostCfg | admSqCfg | admCqCfg | evRingCfg | ringCtrl
  | atticState | atticTick | powerCfg | powerState | strongState | coreAgeCfg | coreAdmit | hawkState | larderCfg
  | larderRetire | larderQos | streamState | workArray | ethGwCfg | ethPortCfg | portCtrl | portEdge | linkLlCtrl | linkSec
  | portTenant | linkVcCfg | laneTest | oeLaser | laneCtrl | laneStat | tmInject | tmPortCfg | tmGateCtrl | tmShaper
  | tmMeter | tmGateEntry
  deriving DecidableEq, Repr

/-- One row of Table 24-1: base, instances and stride, sub-instances and stride, words, commit word. -/
structure RegBlock where
  name : RegName
  base : Nat
  n : Nat := 1
  stride : Nat := 0
  m : Nat := 1
  sub : Nat := 0
  words : Nat := 1
  commit : Option Nat := none
  deriving DecidableEq, Repr

/-- Table 24-1 (R786). -/
def regBlock : RegName → RegBlock
  | .chipId => { name := .chipId, base := 0x000000 }
  | .chipSerial => { name := .chipSerial, base := 0x000008 }
  | .fabricCfg => { name := .fabricCfg, base := 0x000010, commit := some 0 }
  | .regErr => { name := .regErr, base := 0x000018, commit := some 0 }
  | .coatState => { name := .coatState, base := 0x000020 }
  | .hostCfg => { name := .hostCfg, base := 0x001000, words := 4, commit := some 2 }
  | .admSqCfg => { name := .admSqCfg, base := 0x001020, words := 2, commit := some 1 }
  | .admCqCfg => { name := .admCqCfg, base := 0x001030, words := 2, commit := some 1 }
  | .evRingCfg => { name := .evRingCfg, base := 0x001040, words := 2, commit := some 1 }
  | .ringCtrl => { name := .ringCtrl, base := 0x001050, n := 3, stride := 8, commit := some 0 }
  | .atticState => { name := .atticState, base := 0x002000 }
  | .atticTick => { name := .atticTick, base := 0x002008, commit := some 0 }
  | .powerCfg => { name := .powerCfg, base := 0x002010, commit := some 0 }
  | .powerState => { name := .powerState, base := 0x002018 }
  | .strongState => { name := .strongState, base := 0x002020 }
  | .coreAgeCfg => { name := .coreAgeCfg, base := 0x003000, commit := some 0 }
  | .coreAdmit => { name := .coreAdmit, base := 0x003400, n := 128, stride := 8, commit := some 0 }
  | .hawkState => { name := .hawkState, base := 0x004000 }
  | .larderCfg => { name := .larderCfg, base := 0x005000, commit := some 0 }
  | .larderRetire => { name := .larderRetire, base := 0x005008, commit := some 0 }
  | .larderQos => { name := .larderQos, base := 0x005100, n := 24, stride := 8, commit := some 0 }
  | .streamState => { name := .streamState, base := 0x006000, n := 64, stride := 8 }
  | .workArray => { name := .workArray, base := 0x007000, n := 64, stride := 8 }
  | .ethGwCfg => { name := .ethGwCfg, base := 0x008000, words := 2, commit := some 1 }
  | .ethPortCfg => { name := .ethPortCfg, base := 0x008400, n := 16, stride := 64, words := 8, commit := some 6 }
  | .portCtrl => { name := .portCtrl, base := 0x010000, n := 96, stride := 8, commit := some 0 }
  | .portEdge => { name := .portEdge, base := 0x010400, n := 96, stride := 8, commit := some 0 }
  | .linkLlCtrl => { name := .linkLlCtrl, base := 0x010800, n := 96, stride := 8, commit := some 0 }
  | .linkSec => { name := .linkSec, base := 0x010C00, n := 96, stride := 8, commit := some 0 }
  | .portTenant => { name := .portTenant, base := 0x011000, n := 96, stride := 32, words := 4, commit := some 3 }
  | .linkVcCfg => { name := .linkVcCfg, base := 0x012000, n := 96, stride := 64, m := 8, sub := 8, commit := some 0 }
  | .laneTest => { name := .laneTest, base := 0x020000, commit := some 0 }
  | .oeLaser => { name := .oeLaser, base := 0x020100, n := 24, stride := 8, commit := some 0 }
  | .laneCtrl => { name := .laneCtrl, base := 0x021000, n := 384, stride := 16, words := 2, commit := some 0 }
  | .laneStat => { name := .laneStat, base := 0x023000, n := 384, stride := 16, words := 2, commit := some 0 }
  | .tmInject => { name := .tmInject, base := 0x040000, commit := some 0 }
  | .tmPortCfg => { name := .tmPortCfg, base := 0x041000, n := 96, stride := 32, words := 4, commit := some 3 }
  | .tmGateCtrl => { name := .tmGateCtrl, base := 0x042000, n := 96, stride := 16, words := 2, commit := some 1 }
  | .tmShaper => { name := .tmShaper, base := 0x044000, n := 96, stride := 128, m := 8, sub := 16, words := 2, commit := some 0 }
  | .tmMeter => { name := .tmMeter, base := 0x048000, n := 384, stride := 32, words := 4, commit := some 2 }
  | .tmGateEntry => { name := .tmGateEntry, base := 0x050000, n := 96, stride := 1024, m := 128, sub := 8, commit := some 0 }

/-- Every register, in the order of Table 24-1. -/
def regNames : List RegName :=
  [.chipId, .chipSerial, .fabricCfg, .regErr, .coatState, .hostCfg, .admSqCfg, .admCqCfg, .evRingCfg, .ringCtrl,
   .atticState, .atticTick, .powerCfg, .powerState, .strongState, .coreAgeCfg, .coreAdmit, .hawkState, .larderCfg,
   .larderRetire, .larderQos, .streamState, .workArray, .ethGwCfg, .ethPortCfg, .portCtrl, .portEdge, .linkLlCtrl, .linkSec,
   .portTenant, .linkVcCfg, .laneTest, .oeLaser, .laneCtrl, .laneStat, .tmInject, .tmPortCfg, .tmGateCtrl, .tmShaper,
   .tmMeter, .tmGateEntry]

/-- A word of the register space: its register, instance, sub-instance and word. -/
structure RegAt where
  name : RegName
  u : Nat
  v : Nat
  w : Nat
  deriving DecidableEq, Repr

/-- The word of a block that holds byte address `a`, if any. -/
def blockHit (b : RegBlock) (a : Nat) : Option RegAt :=
  if a < b.base then none
  else
    let off := a - b.base
    let st := if b.n = 1 then 8 * b.words else b.stride
    let r := off % st
    let sb := if b.m = 1 then 8 * b.words else b.sub
    if off / st < b.n ∧ r / sb < b.m ∧ r % sb / 8 < b.words then some ⟨b.name, off / st, r / sb, r % sb / 8⟩ else none

/-- The register word at a byte address; none where Table 24-1 maps nothing (R777). -/
def regFind (a : Nat) : Option RegAt := regNames.findSome? (fun n => blockHit (regBlock n) a)

/-- Number of a register word in the register space (R778). -/
def regIdx (n : RegName) (u v w : Nat) : Nat :=
  let b := regBlock n
  (b.base + u * b.stride + v * b.sub) / 8 + w

/-- Default shares of a partition (Table 6-4). -/
def vcShare (v : Nat) : Nat := [512, 512, 2048, 1536, 1536, 1024, 512, 512].getD v 0

/-- Default weights (Table 6-4); VC7 reads 0. -/
def vcWeight (v : Nat) : Nat := [8, 16, 64, 64, 64, 32, 16, 0].getD v 0

/-- Reset value of a stored register word; `eth` tells an Ethernet port, whose len_adj differs (Table 9-8). -/
def regReset (eth : Bool) (n : RegName) (u v w : Nat) : Word :=
  match n, w with
  | .fabricCfg, 0 => 0x0100_0000
  | .admSqCfg, 1 => 0x06
  | .admCqCfg, 1 => 0x1_0006
  | .evRingCfg, 1 => 0x06
  | .powerCfg, 0 => 0x132
  | .coreAgeCfg, 0 => 0x40
  | .coreAdmit, 0 => 0x1064
  | .larderCfg, 0 => 0x1024_0120
  | .larderQos, 0 => 0x0100_0880_0280_0400
  | .ethGwCfg, 0 => 0x0037_0004_0032
  | .ethGwCfg, 1 => 0x0000_0100_0000_0A00
  | .ethPortCfg, 0 => 0x05F2_0000
  | .ethPortCfg, 1 => 0xFA_C688
  | .ethPortCfg, 6 => 0x0200_0400
  | .portEdge, 0 => 0xFFF1
  | .linkLlCtrl, 0 => 0x807
  | .linkVcCfg, 0 => BitVec.ofNat 64 (vcShare v + vcShare v <<< 16 + vcWeight v <<< 32)
  | .laneTest, 0 => 0x0096_FFB0_0029_F11E
  | .laneCtrl, 0 => 0x1001
  | .tmInject, 0 => 0x04_0801
  | .tmPortCfg, 0 => if eth then 0x2000_0014 else 0x2000_0000
  | .tmPortCfg, 2 => 0x0100_0100_0100_0100
  | .tmPortCfg, 3 => 0x0000_0100_0100_0100
  | .tmGateCtrl, 0 => 0x1_0000_0000
  | .tmShaper, 0 => 0x20_0000
  | .tmMeter, 0 => if u < 256 then 0x80 else 0x14_0080
  | .tmMeter, 2 => 0x0000_2000_0000_2000
  | .tmGateEntry, 0 => 0xFF
  | _, _ => 0

/-- Bits `lo` to `lo + len - 1` set. -/
def mask (lo len : Nat) : Word := BitVec.ofNat 64 ((2 ^ len - 1) * 2 ^ lo)

/-- Bits of type RW in a register word. -/
def rwMask (n : RegName) (v w : Nat) : Word :=
  match n, w with
  | .fabricCfg, 0 => mask 16 16
  | .atticTick, 0 => mask 0 4
  | .powerCfg, 0 => mask 0 9
  | .coreAgeCfg, 0 => mask 0 13
  | .coreAdmit, 0 => mask 0 16
  | .larderCfg, 0 => mask 0 9 ||| mask 16 6 ||| mask 24 8
  | .larderRetire, 0 => mask 0 20
  | .larderQos, 0 => mask 0 13 ||| mask 16 13 ||| mask 32 13 ||| mask 48 13
  | .ethGwCfg, 0 => mask 0 20 ||| mask 32 16
  | .ethGwCfg, 1 => mask 0 64
  | .ethPortCfg, 0 => mask 8 8 ||| mask 16 14 ||| mask 32 3
  | .ethPortCfg, 1 => mask 0 24
  | .ethPortCfg, 6 => mask 0 14 ||| mask 16 14
  | .portEdge, 0 => mask 1 1
  | .portTenant, _ => mask 0 64
  | .linkVcCfg, 0 => if v = 7 then 0 else mask 32 8
  | .laneTest, 0 => mask 0 6 ||| mask 8 56
  | .oeLaser, 0 => mask 0 2
  | .laneCtrl, 0 => mask 8 8
  | .tmInject, 0 => mask 0 1 ||| mask 8 16
  | .tmPortCfg, 0 => mask 0 9 ||| mask 16 24
  | .tmPortCfg, 1 => mask 0 32
  | .tmPortCfg, 2 => mask 0 11 ||| mask 16 11 ||| mask 32 11 ||| mask 48 11
  | .tmPortCfg, 3 => mask 0 11 ||| mask 16 11 ||| mask 32 11 ||| mask 48 11
  | .tmGateCtrl, 0 => mask 0 1 ||| mask 16 12 ||| mask 32 7
  | .tmGateCtrl, 1 => mask 0 48
  | .tmShaper, 0 => mask 0 1 ||| mask 8 56
  | .tmMeter, 0 => mask 0 3 ||| mask 4 20
  | .tmMeter, 1 => mask 0 64
  | .tmMeter, 2 => mask 0 24 ||| mask 32 24
  | .tmGateEntry, 0 => mask 0 30
  | _, _ => 0

/-- Fields of type RWO in a register word: lowest bit and width (R7). -/
def rwoFields (n : RegName) (w : Nat) : List (Nat × Nat) :=
  match n, w with
  | .fabricCfg, 0 => [(0, 12)]
  | .hostCfg, 0 => [(0, 64)]
  | .hostCfg, 1 => [(0, 64)]
  | .hostCfg, 2 => [(0, 64)]
  | .admSqCfg, 0 => [(0, 64)]
  | .admSqCfg, 1 => [(0, 5), (8, 8)]
  | .admCqCfg, 0 => [(0, 64)]
  | .admCqCfg, 1 => [(0, 5), (5, 1), (8, 8), (16, 11), (32, 16)]
  | .evRingCfg, 0 => [(0, 64)]
  | .evRingCfg, 1 => [(0, 5), (5, 1), (8, 8)]
  | .atticTick, 0 => [(4, 1)]
  | .ethPortCfg, 0 => [(0, 1), (1, 1)]
  | .ethPortCfg, 2 => [(0, 48)]
  | .ethPortCfg, 3 => [(0, 32)]
  | .ethPortCfg, 4 => [(0, 64)]
  | .ethPortCfg, 5 => [(0, 64)]
  | .portEdge, 0 => [(0, 1), (4, 12)]
  | .linkLlCtrl, 0 => [(0, 2), (2, 1), (4, 2), (8, 4)]
  | .linkSec, 0 => [(0, 1)]
  | .linkVcCfg, 0 => [(0, 15), (16, 15)]
  | .laneCtrl, 0 => [(0, 1), (1, 2), (3, 1), (4, 1), (5, 2)]
  | _, _ => []

/-- Bits of type RWO in a register word. -/
def rwoMask (n : RegName) (w : Nat) : Word := (rwoFields n w).foldl (fun m f => m ||| mask f.1 f.2) 0

/-- Bits of the RWO fields that a write would change. -/
def rwoChanged (n : RegName) (w : Nat) (old new : Word) : Word :=
  ((rwoFields n w).filter (fun f => fld old f.1 f.2 ≠ fld new f.1 f.2)).foldl (fun m f => m ||| mask f.1 f.2) 0

/-- The words of a TM_METER without the fields that Table 9-12 gives as zero: yellow_vc_mask of a flow-class meter, and pir outside
two-rate mode (R6). -/
def meterTrim (u : Nat) (ws : List Word) : List Word :=
  match ws with
  | a :: b :: r =>
    (if 256 ≤ u then setFld a 8 8 0 else a) :: (if fld a 0 2 = 2 then b else setFld b 32 32 0) :: r
  | _ => ws

/-- The field lies between its bounds. -/
def inRange (w : Word) (lo len a b : Nat) : Bool := decide (a ≤ fld w lo len) && decide (fld w lo len ≤ b)

/-- The range rules of R784 on the words of a register. `ws` are all its words after the write. -/
def regLegal (n : RegName) (v : Nat) (ws : List Word) : Bool :=
  let w0 := ws.getD 0 0
  let w1 := ws.getD 1 0
  let w2 := ws.getD 2 0
  let w3 := ws.getD 3 0
  let marks := fun w : Word => inRange w 0 11 0 1024 && inRange w 16 11 0 1024 && inRange w 32 11 0 1024 && inRange w 48 11 0 1024
  match n with
  | .fabricCfg => inRange w0 16 16 16 65535
  | .hostCfg => fld w0 0 12 = 0 && fld w1 0 12 = 0 && fld w2 0 12 = 0
  | .admSqCfg => fld w0 0 12 = 0 && inRange w1 0 5 6 16
  | .admCqCfg => fld w0 0 12 = 0 && inRange w1 0 5 6 16 && inRange w1 16 11 1 1024
  | .evRingCfg => fld w0 0 12 = 0 && inRange w1 0 5 6 16
  | .powerCfg => inRange w0 0 8 1 255
  | .coreAdmit => inRange w0 0 8 0 128 && inRange w0 8 8 1 64
  | .larderCfg => inRange w0 0 8 8 255 && inRange w0 16 6 30 40 && inRange w0 24 8 1 255
  | .larderQos => decide (fld w0 0 13 + fld w0 16 13 + fld w0 32 13 + fld w0 48 13 ≤ 4096)
  | .ethGwCfg => inRange w0 0 16 1 65535 && inRange w0 16 4 1 15 && inRange w0 32 16 1 65535
  | .ethPortCfg => inRange w0 16 14 64 9216
  | .linkLlCtrl => inRange w0 0 2 1 3 && inRange w0 8 4 1 15
  | .linkVcCfg => inRange w0 0 15 0 16384 && inRange w0 16 15 0 16384 && (v = 7 || inRange w0 32 8 1 255)
  | .laneTest => inRange w0 0 6 20 36
  | .laneCtrl => inRange w0 8 8 1 255
  | .tmInject => inRange w0 8 8 1 128 && inRange w0 16 8 1 128
  | .tmPortCfg => inRange w0 16 24 1 16777215 && marks w2 && marks w3
  | .tmGateCtrl => inRange w0 32 7 1 64
  | .tmShaper => inRange w0 8 24 1 16777215
  | .tmMeter => fld w0 0 2 ≠ 3 && fld w0 4 2 ≠ 3 && fld w0 6 2 ≠ 3
  | _ => true

/-- Fields whose range violation leaves that field alone unchanged (R784): age_limit, and the len_adj fields of R323.
Answers the word to store and whether a field was refused. -/
def regNarrow (n : RegName) (w : Nat) (old new : Word) : Word × Bool :=
  let bad := fun lo => decide (128 ≤ fld new lo 8) && decide (fld new lo 8 < 192)
  match n, w with
  | .coreAgeCfg, 0 => if inRange new 0 13 4 4096 then (new, false) else (setFld new 0 13 (fld old 0 13), true)
  | .tmPortCfg, 0 => if bad 0 then (setFld new 0 8 (fld old 0 8), true) else (new, false)
  | .tmMeter, 0 => if bad 16 then (setFld new 16 8 (fld old 16 8), true) else (new, false)
  | _, _ => (new, false)

end Machine
end Sys2Proof
end

