-- ==== Sys2Proof/Machine/Ops.lean ====
section
/-!
DEFINITION. The named operations that every family uses: time, registers, counters, free values, frames to the host, host
reads, events, completions and the function instances. The block has no exception entry; raising an event (R132, R133) is
what stands in its place.
-/
namespace Sys2Proof
namespace Machine

/-- The outcome of a command. -/
abbrev Out := Host.Outcome State Fault Refusal

/-! ### Time (chapter 02) -/

/-- The rack tick number (R22). -/
def nowTick (s : State) : BitVec 48 := s.tick.elapsed + s.tick.offset

/-- Tick `a` is later than tick `b` (R23). -/
def later (a b : BitVec 48) : Bool := a ≠ b && decide ((a - b).toNat < 2 ^ 47)

/-- Elapsed ticks since `since` (R22). -/
def ageOf (s : State) (since : BitVec 48) : Nat := (s.tick.elapsed - since).toNat

/-- Elapsed tick at whose boundary work applies that is prepared now (R49). -/
def prepDue (s : State) : BitVec 48 := s.tick.elapsed + (if s.tick.slot ≤ 960 then 1 else 2)

/-- The elapsed tick `due` has been reached. -/
def reached (s : State) (due : BitVec 48) : Bool := s.tick.elapsed = due || later s.tick.elapsed due

/-- Tick numbers that this boundary stands for: its own and those that a forward step has just passed (R44). -/
def tickSpan (s : State) : Nat :=
  let n := (nowTick s - s.tick.prev).toNat
  if n < 2 ^ 47 then max n 1 else 1

/-- The tick number has reached, at this boundary, a number that is `r` mod `m`, its own or a passed one (R44). `m`
divides 2^48. -/
def hits (s : State) (m r : Nat) : Bool :=
  decide (((nowTick s).toNat + m - r % m) % m < tickSpan s)

/-- A step of Table 2-6 may act: slot 0, and no later step of the table has been applied at this boundary (R50). -/
def atStep (n : Nat) (s : State) : Bool := s.tick.slot = 0 && decide (s.tick.phase ≤ n)

/-- Step `n` of Table 2-6 has been applied at this boundary. -/
def setPhase (n : Nat) (s : State) : State := { s with tick.phase := max s.tick.phase n }

/-- The part's one tie rule: the key by which requester `i` of `n` is served (R73). -/
def tieKey (s : State) (n i : Nat) : Nat := (i + (nowTick s).toNat) % n

/-! ### Units -/

def link (s : State) (l : LinkId) : Link := tblGet {} s.links l.val
def setLink (s : State) (l : LinkId) (v : Link) : State := { s with links := tblSet {} s.links l.val v }
def modLink (l : LinkId) (f : Link → Link) (s : State) : State := setLink s l (f (link s l))

/-- Lane `j` of link `l` (R628). -/
def laneId (l : LinkId) (j : Fin 4) : LaneId := ⟨4 * l.val + j.val, by omega⟩
def lane (s : State) (n : LaneId) : Lane := tblGet {} s.lanes n.val
def setLane (s : State) (n : LaneId) (v : Lane) : State := { s with lanes := tblSet {} s.lanes n.val v }
def modLane (n : LaneId) (f : Lane → Lane) (s : State) : State := setLane s n (f (lane s n))

/-- Every lane of a link changed by `f`. -/
def modLanes (l : LinkId) (f : Fin 4 → Lane → Lane) (s : State) : State :=
  (List.finRange 4).foldl (fun s j => modLane (laneId l j) (f j) s) s

/-- The lanes of a link that satisfy `f`, as a mask. -/
def laneMask (s : State) (l : LinkId) (f : Lane → Bool) : BitVec 4 :=
  BitVec.ofNat 4 ((List.finRange 4).foldl (fun m j => m + (f (lane s (laneId l j))).toNat * 2 ^ j.val) 0)

/-- Number of lanes in a mask. -/
def laneCount (m : BitVec 4) : Nat := (bit m 0).toNat + (bit m 1).toNat + (bit m 2).toNat + (bit m 3).toNat

def inPort (s : State) (i : PortId) : InPort := tblGet {} s.core.inp i.val
def setIn (s : State) (i : PortId) (v : InPort) : State := { s with core.inp := tblSet {} s.core.inp i.val v }
def modIn (i : PortId) (f : InPort → InPort) (s : State) : State := setIn s i (f (inPort s i))

def midSlice (s : State) (m : PortId) : Slice := tblGet {} s.core.slice m.val
def setSlice (s : State) (m : PortId) (v : Slice) : State := { s with core.slice := tblSet {} s.core.slice m.val v }

def outPort (s : State) (o : PortId) : OutPort := tblGet {} s.core.out o.val
def setOut (s : State) (o : PortId) (v : OutPort) : State := { s with core.out := tblSet {} s.core.out o.val v }
def modOut (o : PortId) (f : OutPort → OutPort) (s : State) : State := setOut s o (f (outPort s o))

def tmOf (s : State) (l : LinkId) : Tm := tblGet {} s.tm l.val
def setTm (s : State) (l : LinkId) (v : Tm) : State := { s with tm := tblSet {} s.tm l.val v }

/-- Link port of a link (R236). -/
def linkPort (l : LinkId) : PortId := ⟨l.val, by omega⟩

/-- Link on a core port, for ports 0 to 95. -/
def portLink (p : PortId) : Option LinkId := if h : p.val < 96 then some ⟨p.val, h⟩ else none

/-- Groups of the Hawk and their operations, by slot. -/
def groupOf (s : State) (g : Fin 1024) : Group := tblGet {} s.hawk.group g.val
def setGroup (s : State) (g : Fin 1024) (v : Group) : State := { s with hawk.group := tblSet {} s.hawk.group g.val v }
def modGroup (g : Fin 1024) (f : Group → Group) (s : State) : State := setGroup s g (f (groupOf s g))
def opOf (s : State) (g : Fin 1024) (q : Fin 16) : Option CollOp := tblGet none (groupOf s g).ops q.val
def setOp (g : Fin 1024) (q : Fin 16) (o : Option CollOp) (s : State) : State :=
  modGroup g (fun v => { v with ops := tblSet none v.ops q.val o }) s
def modOp (g : Fin 1024) (q : Fin 16) (f : CollOp → CollOp) (s : State) : State :=
  match opOf s g q with
  | some o => setOp g q (some (f o)) s
  | none => s

/-- Port number `n` modulo 128. -/
def portOf (n : Nat) : PortId := ⟨n % 128, Nat.mod_lt _ (by decide)⟩

/-- Every link. -/
def allLinks : List LinkId := List.finRange 96

/-- Every core port. -/
def allPorts : List PortId := List.finRange 128

/-! ### Registers (chapter 24) -/

/-- Link L80 to L95 runs as an Ethernet port: bit eth_mode of its word (Table 17-5). -/
def ethMode (s : State) (l : Nat) : Bool :=
  80 ≤ l && l < 96 && bit (tblGet (regReset false .ethPortCfg (l - 80) 0 0) s.regs.word (regIdx .ethPortCfg (l - 80) 0 0)) 0

/-- The value that a register word not written holds. -/
def regDef (s : State) (n : RegName) (u v w : Nat) : Word := regReset (ethMode s u) n u v w

/-- A stored register word (R780). -/
def reg (s : State) (n : RegName) (u : Nat := 0) (v : Nat := 0) (w : Nat := 0) : Word :=
  tblGet (regDef s n u v w) s.regs.word (regIdx n u v w)

/-- The state with a register word stored. -/
def setReg (s : State) (n : RegName) (u v w : Nat) (x : Word) : State :=
  { s with regs.word := tblSet (regDef s n u v w) s.regs.word (regIdx n u v w) x }

/-- The module's own node identifier (Table 24-3). -/
def myNode (s : State) : BitVec 12 := BitVec.ofNat 12 (fld (reg s .fabricCfg) 0 12)

/-- resp_timeout (R176). -/
def respTimeout (s : State) : Nat := fld (reg s .fabricCfg) 16 16

/-- age_limit (Table 7-11). -/
def ageLimit (s : State) : Nat := fld (reg s .coreAgeCfg) 0 13

/-- edge_check_en of a link (R181). -/
def edgeCheck (s : State) (l : LinkId) : Bool := bit (reg s .portEdge l.val) 0

/-- edge_node of a link (R182). -/
def edgeNode (s : State) (l : LinkId) : BitVec 12 := BitVec.ofNat 12 (fld (reg s .portEdge l.val) 4 12)

/-- Records a refused access in REG_ERR (Table 24-4). -/
def regError (addr : Nat) (write : Bool) (cause : BitVec 3) (s : State) : State :=
  { s with
    regs.errAddr := BitVec.ofNat 24 addr, regs.errWrite := write, regs.errCause := cause,
    regs.errCount := if s.regs.errCount = 0xFFFF then 0xFFFF else s.regs.errCount + 1, regs.err := true }

/-- The bundle has been applied or refused, or there is none: host writes held until then follow, in order (R797). -/
def releaseWrites (s : State) : State :=
  { s with regs.bundleDone := true, regs.bundle := none, regs.heldWrites := [],
           regs.writes := s.regs.writes ++ s.regs.heldWrites.map (fun w => { w with due := prepDue s }) }

/-! ### Counters and free values -/

/-- Counter word `w` of page `p` advanced by `n` (R758). -/
def bump (p w n : Nat) (s : State) : State :=
  { s with counts.now := tblMod 0 s.counts.now (p * 512 + w) (· + BitVec.ofNat 64 n) }

/-- Counter word `w` of core port `p`, advanced by one (Table 23-3). -/
def bumpPort (p : PortId) (w : Nat) (s : State) : State := bump p.val w 1 s

/-- Counter word of the module page (Table 23-4, kind 2). -/
def bumpModule (w : Nat) (s : State) : State := bump 152 w 1 s

/-- The next free value and the state that has used it (log 2). -/
def takeFree (s : State) : Word × State := (Config.freeValue s.free, { s with free := s.free + 1 })

/-- `n` free bytes (log 2). -/
def freeBytes (n : Nat) (s : State) : List Byte × State :=
  ((upFrom 0 n).map (fun i => (Config.freeValue (s.free + i)).setWidth 8), { s with free := s.free + n })

/-! ### Frames to the host (chapter 04) -/

/-- Flits of a frame, which is sent in flits of its own (Table 4-2, log 6). -/
def flitsOf (f : HostFrame) : Nat := ceilDiv (16 + f.payload.length) 192

/-- Flits sent and not yet acknowledged as whole frames. -/
def flitsHeld (s : State) : Nat := s.enz.sent.foldl (fun n x => n + flitsOf x.frame) 0

/-- The replay buffer of 512 flits takes the frame (R92). -/
def flitRoom (s : State) (f : HostFrame) : Bool := decide (flitsHeld s + flitsOf f ≤ 512)

/-- A frame sent: it is kept until an ack covers its last flit, and its flits carry the ack and the nak that are due (R92). The
2 µs run from the first flit sent after every one was acknowledged. -/
def sendNow (f : HostFrame) (s : State) : State :=
  let last := s.enz.txSeq + BitVec.ofNat 12 (flitsOf f - 1)
  { s with enz.sent := s.enz.sent ++ [{ frame := f, lastSeq := last, ack := s.enz.rxExp - 1, nak := s.enz.nak }],
           enz.txSeq := last + 1, enz.nak := false,
           enz.ackAt := if s.enz.sent.isEmpty then s.tick.ns else s.enz.ackAt }

/-- A frame to the adapter: sent while the link is Active and takes it, held in order otherwise (R92, R140). -/
def sendFrame (f : HostFrame) (s : State) : State :=
  if s.enz.st = .active && s.enz.held.isEmpty && flitRoom s f then sendNow f s else { s with enz.held := s.enz.held ++ [f] }

/-- Frames held are sent, in order, while the link takes them: `fuel` bounds their number. -/
def flushHeld : Nat → State → State
  | 0, s => s
  | n + 1, s =>
    match s.enz.held with
    | [] => s
    | f :: t => if s.enz.st = .active && flitRoom s f then flushHeld n (sendNow f { s with enz.held := t }) else s

/-- Bytes written into host memory, in MEM_WR frames of at most 4,096 bytes (Table 4-5): `fuel` bounds their number. -/
def hostWrite : Nat → Word → List Byte → State → State
  | 0, _, _, s => s
  | fuel + 1, a, bs, s =>
    if bs.isEmpty then s
    else hostWrite fuel (a + 4096) (bs.drop 4096) (sendFrame { ftype := 0x03, addr := a, payload := bs.take 4096 } s)

/-- MEM_WR of a byte string, whatever its length. -/
def hostPut (a : Word) (bs : List Byte) (s : State) : State := hostWrite (ceilDiv bs.length 4096 + 1) a bs s

/-- Interrupt message with a vector (Table 4-5). -/
def sendMsg (vector : BitVec 8) (s : State) : State := sendFrame { ftype := 0x04, addr := vector.setWidth 64 } s

/-- A LINK_CTL frame: `ctl` and the other fields of Table 4-5a as one number. -/
def linkCtl (w0 w1 : Nat) : HostFrame := { ftype := 0x09, payload := leBytes 8 w0 ++ leBytes 8 w1 }

/-! ### Reads of host memory (R95, R98, R821) -/

/-- Outstanding reads allowed: the lower of 512 and the adapter's max_tags (R100). -/
def readLimit (s : State) : Nat :=
  match s.enz.cap with
  | some c => min 512 c.maxTags.toNat
  | none => 512

/-- Lowest tag that no outstanding read holds. -/
def freeTag (rs : List HostRead) : Option (Fin 512) :=
  (List.finRange 512).find? (fun t => rs.all (fun r => r.tag ≠ some t || r.done))

/-- The MEM_RD of a read with its tag: its header's length is what it asks for (log 6). -/
def readFrame (r : HostRead) (t : Fin 512) : HostFrame :=
  { ftype := 0x01, tag := BitVec.ofNat 16 t.val, addr := r.addr, len := BitVec.ofNat 13 r.len }

/-- Issues the oldest read that holds no tag, while Active and below the limit (R95, R140). -/
def issueRead (s : State) : State :=
  if s.enz.st = .active ∧ s.enz.held = [] ∧ flitsHeld s < 512 ∧ (s.enz.reads.filter (fun r => r.tag.isSome && !r.done)).length < readLimit s then
    match s.enz.reads.findIdx? (fun r => r.tag.isNone), freeTag s.enz.reads with
    | some i, some t =>
      match s.enz.reads[i]? with
      | some r =>
        sendNow (readFrame r t)
          { s with enz.reads := s.enz.reads.set i { r with tag := some t } }
      | none => s
    | _, _ => s
  else s

/-- Issues as many waiting reads as the limit admits. -/
def issueReads : Nat → State → State
  | 0, s => s
  | n + 1, s => issueReads n (issueRead s)

/-- The MEM_RDs of at most 4,096 bytes that read `len` bytes from `a`: `fuel` bounds their number. -/
def readPieces (u : HostUse) : Nat → Word → Nat → List HostRead
  | 0, _, _ => []
  | fuel + 1, a, len =>
    if len = 0 then [] else
      { use := u, addr := a, len := min len 4096 } :: readPieces u fuel (a + 4096) (len - 4096)

/-- Reads `len` bytes of host memory for a use. -/
def hostRead (u : HostUse) (a : Word) (len : Nat) (s : State) : State :=
  let ps := readPieces u (ceilDiv len 4096) a len
  issueReads ps.length { s with enz.reads := s.enz.reads ++ ps }

/-! ### Function instances (R75 to R81) -/

/-- Number of a function instance in the table of instances. -/
def fnKey : FnId → Nat
  | .port l => l.val
  | .sq i => 128 + i.val
  | .cq i => 192 + i.val
  | .ev => 256
  | .group g => 1024 + g.val
  | .stream k => 2048 + k.val
  | .kernel k => 2304 + k.val
  | .qp q => 4096 + q.val

def fnOf (s : State) (f : FnId) : Fn := tblGet {} s.fns (fnKey f)
def setFn (s : State) (f : FnId) (v : Fn) : State := { s with fns := tblSet {} s.fns (fnKey f) v }

/-- State of a function instance (Table 3-6). -/
def fnSt (s : State) (f : FnId) : FnSt := (fnOf s f).st

/-- Current generation of a function instance (R76). -/
def fnGen (s : State) (f : FnId) : BitVec 16 := (fnOf s f).gen

/-- Number by which registers and queries report a function state (Table 24-5). -/
def fnStCode : FnSt → Nat
  | .off => 0
  | .starting => 1
  | .on => 2
  | .stopping => 3

/-! ### Rings -/

/-- Submission ring `i`; SQ0 takes its configuration from ADM_SQ_CFG (Table 24-7, R793). -/
def sqRing (s : State) (i : Fin 64) : Ring :=
  let r := tblGet {} s.rings.sq i.val
  if i.val = 0 then
    { r with base := reg s .admSqCfg, depthLog2 := BitVec.ofNat 5 (fld (reg s .admSqCfg 0 0 1) 0 5), cq := 0,
             tenant := BitVec.ofNat 8 (fld (reg s .admSqCfg 0 0 1) 8 8), priv := true }
  else r

/-- Completion ring `j`; CQ0 takes its configuration from ADM_CQ_CFG. -/
def cqRing (s : State) (j : Fin 64) : Ring :=
  let r := tblGet {} s.rings.cq j.val
  if j.val = 0 then
    let w := reg s .admCqCfg 0 0 1
    { r with base := reg s .admCqCfg, depthLog2 := BitVec.ofNat 5 (fld w 0 5), irqEn := bit w 5,
             vector := BitVec.ofNat 8 (fld w 8 8), modCount := BitVec.ofNat 16 (fld w 16 11),
             modTicks := BitVec.ofNat 16 (fld w 32 16) }
  else r

/-- The event ring with its configuration from EV_RING_CFG. -/
def evRing (s : State) : Ring :=
  let w := reg s .evRingCfg 0 0 1
  { s.rings.ev with base := reg s .evRingCfg, depthLog2 := BitVec.ofNat 5 (fld w 0 5), irqEn := bit w 5,
                    vector := BitVec.ofNat 8 (fld w 8 8) }

def setSq (s : State) (i : Fin 64) (r : Ring) : State := { s with rings.sq := tblSet {} s.rings.sq i.val r }
def setCq (s : State) (j : Fin 64) (r : Ring) : State := { s with rings.cq := tblSet {} s.rings.cq j.val r }

/-- Depth of a ring (R102). -/
def depth (r : Ring) : Nat := 2 ^ r.depthLog2.toNat

/-- Host address of entry `k` of a ring (R104). -/
def entryAddr (r : Ring) (size : Nat) (k : BitVec 32) : Word := r.base + BitVec.ofNat 64 (k.toNat % depth r * size)

/-- Phase of entry `k` (R124). -/
def phaseOf (r : Ring) (k : BitVec 32) : Bool := k.toNat / depth r % 2 = 0

/-- Writes an entry of the consumer page (R108, Table 4-8). -/
def consumerPut (off : Nat) (v : BitVec 32) (s : State) : State :=
  hostPut (reg s .hostCfg 0 0 1 + BitVec.ofNat 64 off) (leBytes 4 v.toNat) s

/-- The part discards what is due to a host that announced its reset (R141). -/
def toHost (f : State → State) (s : State) : State :=
  if s.enz.hostReset then { s with enz.discarded := s.enz.discarded + 1 } else f s

/-! ### Events (R132, R133, R753, R755) -/

/-- An event entry as it is written (Table 4-15). -/
def eventBytes (phase : Bool) (e : Event) : List Byte :=
  leBytes 8 (e.code.toNat + phase.toNat <<< 15 + e.gen.toNat <<< 16 + e.unit.toNat <<< 32 + e.rep.toNat <<< 48)
    ++ leBytes 8 e.tick.toNat ++ leBytes 16 e.detail.toNat

/-- The event ring takes another entry; events are held while the Attic restarts (Table 20-2). -/
def evRoom (s : State) : Bool :=
  !s.attic.restarting && fnSt s .ev = .on && decide ((s.rings.ev.prod - s.rings.ev.cons).toNat < depth (evRing s))

/-- Writes one event into the ring, with its interrupt (R131) and its sample (R132). -/
def evWrite (e : Event) (s : State) : State :=
  let r := evRing s
  let k := s.rings.ev.prod
  let s := toHost (fun s =>
    let s := if e.sample.isEmpty then s
      else hostPut (reg s .hostCfg 0 0 2 + BitVec.ofNat 64 (256 * (k.toNat % depth r))) e.sample s
    let s := hostPut (entryAddr r 32 k) (eventBytes (phaseOf r k) e) s
    consumerPut 0x200 (k + 1) s) s
  let s := { s with rings.ev.prod := k + 1 }
  if r.irqEn && s.rings.ev.armed then sendMsg r.vector { s with rings.ev.armed := false } else s

/-- Adds an event's occurrences to a repeat count of at most 65,535 (Table 4-15). -/
def addRep (a b : BitVec 16) : BitVec 16 := if a.toNat + b.toNat < 65536 then a + b else 0xFFFF

/-- The held events with `e` merged into the first of its code and unit, if any (R133). -/
def evMerge (e : Event) : List Event → Option (List Event)
  | [] => none
  | h :: t =>
    if h.code = e.code ∧ h.unit = e.unit then some ({ h with rep := addRep h.rep e.rep } :: t)
    else (evMerge e t).map (h :: ·)

/-- The overflow entries with `e` placed in the entry of its code (R133). -/
def evOverflow (e : Event) : List Event → List Event
  | [] => [e]
  | h :: t =>
    if h.code = e.code then { h with rep := addRep h.rep e.rep, unit := if h.unit = e.unit then h.unit else 0xFFFF } :: t
    else h :: evOverflow e t

/-- An event that finds the event ring full, or not On, is held, or the steps of R133 apply. -/
def evHold (e : Event) (s : State) : State :=
  if s.rings.evHeld.length < 256 then { s with rings.evHeld := s.rings.evHeld ++ [e] }
  else
    match s.rings.evHeld.findIdx? (fun h => h.code = 0x80), decide (e.code = 0x80) with
    | some i, _ => bumpModule 18 { s with rings.evHeld := s.rings.evHeld.eraseIdx i ++ [e], rings.evDrops := s.rings.evDrops + 1 }
    | none, true => bumpModule 18 { s with rings.evDrops := s.rings.evDrops + 1 }
    | none, false =>
      match evMerge e s.rings.evHeld with
      | some h => bumpModule 18 { s with rings.evHeld := h }
      | none => bumpModule 18 { s with rings.evOver := evOverflow e s.rings.evOver }

/-- Raises an event: on the event ring, on the sideband and in the fault log (R61, R132, R753, R755). What is due to a host that
announced its reset is discarded and counted (R141). -/
def raise (e : Event) (s : State) : State :=
  let e := { e with tick := nowTick s }
  let s := { s with counts.log := (s.counts.log ++ [e]).drop (s.counts.log.length + 1 - 65536),
                    counts.logNext := s.counts.logNext + 1, counts.sideband := s.counts.sideband ++ [e] }
  if s.enz.hostReset then { s with enz.discarded := s.enz.discarded + 1 }
  else if evRoom s && s.rings.evHeld.isEmpty && s.rings.evOver.isEmpty then evWrite e s else evHold e s

/-- Event of code `c` about unit `u`, with its detail. -/
def raiseEv (c : BitVec 8) (u : Nat) (detail : Nat := 0) (gen : BitVec 16 := 0) (s : State) : State :=
  raise { code := c, unit := BitVec.ofNat 16 u, detail := BitVec.ofNat 128 detail, gen := gen } s

/-- Writes held events, then overflow entries, while the ring takes them (R133): `fuel` bounds their number. -/
def evFlush : Nat → State → State
  | 0, s => s
  | n + 1, s =>
    if !evRoom s then s
    else match s.rings.evHeld, s.rings.evOver with
      | e :: t, _ => evFlush n (evWrite e { s with rings.evHeld := t })
      | [], e :: t => evFlush n (evWrite e { s with rings.evOver := t })
      | [], [] => s

/-- An audit mismatch: the counter of its quantity, numbered from 0 in the order of Table 3-1, and its event, which numbers the quantities
from 1 as R760 does (R60, R61, R80, Table 22-8). `gen` is the generation of the instance audited. -/
def auditMismatch (quantity unit sub : Nat) (diff : Int) (gen : BitVec 16) (s : State) : State :=
  raiseEv 0x15 unit (quantity + 1 + sub <<< 8 + (diff % 4294967296).toNat <<< 16) gen (bumpModule quantity s)

/-! ### Completions (R123 to R130) -/

/-- The descriptor in flight that `d` names. -/
def flightOf (s : State) (d : DRef) : Option InFlight := s.rings.flight.find? (fun f => f.ref = d)

/-- The in-flight entry of `d` changed by `g`. -/
def modFlight (d : DRef) (g : InFlight → InFlight) (s : State) : State :=
  { s with rings.flight := s.rings.flight.map (fun f => if f.ref = d then g f else f) }

/-- Completion entry (Table 4-13). -/
def complBytes (s : State) (f : InFlight) (st : BitVec 8) (result : Word) (phase : Bool) : List Byte :=
  leBytes 8 (st.toNat + (dOpcode f.desc).toNat <<< 8
      + (if dTarget f.desc = 0xFFFF then 0 else f.gen.toNat) <<< 16 + (dTarget f.desc).toNat <<< 32
      + f.ref.sq.val <<< 48 + phase.toNat <<< 55)
    ++ leBytes 8 (f.sqGen.toNat + (f.ref.k.toNat % 65536) <<< 16 + (dCookie f.desc).toNat <<< 32)
    ++ leBytes 8 (nowTick s).toNat ++ leBytes 8 result.toNat

/-- Sends the interrupt of a completion ring (R129). -/
def cqInterrupt (j : Fin 64) (s : State) : State :=
  let r := cqRing s j
  setCq (sendMsg r.vector s) j { tblGet {} s.rings.cq j.val with unint := 0, armed := false }

/-- Interrupt rules at the writing of an entry (R129, R130); `force` is the descriptor's interrupt flag. -/
def cqModerate (j : Fin 64) (force : Bool) (s : State) : State :=
  let r := cqRing s j
  if !r.irqEn then s
  else if force then cqInterrupt j s
  else if r.armed && (r.modCount.toNat ≤ r.unint || r.modTicks = 0) then cqInterrupt j s
  else s

/-- A descriptor leaves flight, counted as completed on its ring (R58, R123). -/
def leaveFlight (d : DRef) (s : State) : State :=
  let r := tblGet {} s.rings.sq d.sq.val
  setSq { s with rings.flight := s.rings.flight.filter (fun g => g.ref ≠ d) } d.sq { r with completed := r.completed + 1 }

/-- Writes a completion entry into ring `j` and its producer index into the consumer page (R108, R123, R141). -/
def putCompletion (j : Fin 64) (f : InFlight) (st : BitVec 8) (result : Word) (s : State) : State :=
  let k := (tblGet {} s.rings.cq j.val).prod
  let entry := complBytes s f st result (phaseOf (cqRing s j) k)
  let a := entryAddr (cqRing s j) 32 k
  bumpModule 22 (toHost (fun s => consumerPut (0x100 + 4 * j.val) (k + 1)
    (sendFrame { ftype := 0x03, addr := a, payload := entry, compl := some f.ref.sq } s)) s)

/-- Counts the entry that has been written to ring `j` (R129). -/
def countCompletion (j : Fin 64) (s : State) : State :=
  let r := tblGet {} s.rings.cq j.val
  setCq s j { r with prod := r.prod + 1, unint := r.unint + 1, oldest := if r.unint = 0 then s.tick.elapsed else r.oldest }

/-- Ends a descriptor in flight with its one completion (R123, R126, R141). -/
def complete (d : DRef) (st : BitVec 8) (result : Word) (s : State) : State :=
  match flightOf s d with
  | none => s
  | some f =>
    let j := (sqRing s d.sq).cq
    let s := leaveFlight d s
    if dNoCompl f.desc && st = stOk then s
    else cqModerate j (dIrq f.desc) (countCompletion j (putCompletion j f st result s))

/-- Ends a descriptor with a status, the generation of the instance being `gen` (R80). -/
def completeGen (d : DRef) (st : BitVec 8) (gen : BitVec 16) (s : State) : State :=
  complete d st 0 (modFlight d (fun f => { f with gen := gen }) s)

/-- Ends each descriptor of a list with a status and a generation. -/
def completeAll (ds : List DRef) (st : BitVec 8) (gen : BitVec 16) (s : State) : State :=
  ds.foldl (fun s d => completeGen d st gen s) s

/-- The item of a WR has an entry, or one is free (R174). -/
def trackRoom (s : State) (p : Packet) : Bool :=
  s.items.track.any (fun t => t.src = p.src && t.tag = p.tag) || decide (s.items.track.length < 32768)

end Machine
end Sys2Proof
end

