-- ==== Sys2Proof/Machine/Enzen.lean ====
section
/-!
DEFINITION. The Enzen link (chapter 04): bring-up, LINK_CTL, replay and the return to Active. The rows that receive flits
and read data stand in EnzenRx.lean and HostReads.lean, since they draw on every family.
-/
namespace Sys2Proof
namespace Machine

/-- Enters a bring-up state at the current time (R93). -/
def enzEnter (st : EnzSt) (s : State) : State := { s with enz.st := st, enz.since := s.tick.ns }

/-- Removes the first received frame of a type, its row having acted on it. -/
def takeInbox (ty : BitVec 8) (s : State) : State :=
  match s.enz.inbox.findIdx? (fun f => f.ftype = ty) with
  | some i => { s with enz.inbox := s.enz.inbox.eraseIdx i }
  | none => s

/-- Frames that a pass through Detect makes never sent: those of Negotiate, which begins anew, and MEM_RDs, which are issued again for
themselves, are left out (R814, log 6). -/
def sentAgain (f : HostFrame) : Bool :=
  f.ftype ≠ 0x01 && !(f.ftype = 0x09 && (leAt f.payload 0 1 = 1 || leAt f.payload 0 1 = 2))

/-- A pass through Detect: what was sent and not acknowledged counts as never sent (R93, R814). -/
def enzToDetect (s : State) : State :=
  enzEnter .detect { s with
    enz.viaDetect := true, enz.cap := none, enz.capAck := false, enz.part := [], enz.nak := false, enz.txSeq := 0, enz.rxExp := 0,
    enz.acked := 4095, enz.toActive := false, enz.sent := [],
    enz.lost := s.enz.lost ++ (s.enz.sent.map (·.frame)).filter sentAgain }

/-- The MEM_RD of a read whose data has not wholly arrived, with the same tag (R814). -/
def reissue (r : HostRead) : Option HostFrame :=
  match r.tag, r.done with
  | some t, false => some (readFrame r t)
  | _, _ => none

/-- The link is Active again: frames treated as never sent, incomplete reads and held frames go out in order (R140,
R814). -/
def enzReturn (s : State) : State :=
  let rds := if s.enz.viaDetect then
    s.enz.reads.map (fun r => if r.done then r else { r with got := 0, fail := none, data := [] }) else s.enz.reads
  let again := if s.enz.viaDetect then rds.filterMap reissue else []
  let held := s.enz.lost ++ again ++ s.enz.held
  issueReads s.enz.reads.length (flushHeld held.length
    { s with enz.held := held, enz.lost := [], enz.viaDetect := false, enz.reads := rds, enz.toActive := false })

/-- Enters Active at a level (R93). -/
def enzActive (level : BitVec 2) (s : State) : State := enzReturn (enzEnter .active { s with enz.level := level })

/-- The part's own CAP (Table 4-5a): it offers E2, its feature level, 512 tags and CHIP_SERIAL. -/
def ownHostCap (s : State) : HostFrame :=
  linkCtl (0x01 + 2 <<< 8 + s.attic.level.toNat <<< 16 + 512 <<< 32) Config.serial.toNat

/-- Sends CAP in Negotiate (R100). -/
def sendHostCap (s : State) : State := sendNow (ownHostCap s) { s with enz.capAt := s.tick.ns }

/-- ENZEN_SIGNAL_DETECTED (R93). -/
def execEnzenSignalDetected (s : State) : Out := .next (if s.enz.st = .detect then enzEnter .trainE1 s else s)

/-- ENZEN_FEC_LOCK_HELD (R93): FEC lock has held for 1 ms. -/
def execEnzenFecLockHeld (s : State) : Out :=
  .next (match s.enz.st with
    | .trainE1 => if s.enz.toActive then enzActive 1 s else sendHostCap (enzEnter .negotiate { s with enz.level := 1 })
    | .trainE2 => enzActive 2 s
    | .retrain => enzActive s.enz.level s
    | _ => s)

/-- An event that goes to the sideband and the log only, Enzen being down (Table 22-8a, 0x22). -/
def raiseSide (e : Event) (s : State) : State :=
  let e := { e with tick := nowTick s }
  { s with counts.log := (s.counts.log ++ [e]).drop (s.counts.log.length + 1 - 65536),
           counts.logNext := s.counts.logNext + 1, counts.sideband := s.counts.sideband ++ [e] }

/-- ENZEN_BRINGUP_TIMEOUT (Table 4-3). DESIGN CHOICE (log 115): event 0x22 numbers the states of Table 4-3 in their order, from Detect = 0,
so that Retrain is 5. -/
def execEnzenBringupTimeout (s : State) : Out :=
  let past := fun n => decide (s.enz.since + n ≤ s.tick.ns)
  .next (match s.enz.st with
    | .trainE1 => if past 200000000 then enzToDetect s else s
    | .negotiate => if past 20000000 then enzToDetect s else s
    | .trainE2 => if past 200000000 then enzActive 1 { s with enz.fallbacks := s.enz.fallbacks + 1 } else s
    | .retrain => if past 50000000 then enzToDetect (raiseSide { code := 0x22, detail := 5 } s) else s
    | _ => s)

/-- ENZEN_FEC_LOCK_LOST (R93). -/
def execEnzenFecLockLost (s : State) : Out :=
  .next (if s.enz.st = .active then enzEnter .retrain (bumpModule 20 { s with enz.naks := [] }) else s)

/-- ENZEN_NAK_LIMIT (R93): 16 nak flits within 1,024 ticks. -/
def execEnzenNakLimit (s : State) : Out :=
  let recent := s.enz.naks.filter (fun t => ageOf s t < 1024)
  .next (if s.enz.st = .active && decide (16 ≤ recent.length) then
    enzEnter .retrain (bumpModule 20 { s with enz.naks := [] }) else s)

/-- Negotiate succeeds when the adapter's CAP and a CAP_ACK are held (R100). -/
def enzNegoDone (s : State) : State :=
  match s.enz.st, s.enz.cap, s.enz.capAck with
  | .negotiate, some c, true => if c.maxLevel = 2 then enzEnter .trainE2 s else enzActive 1 s
  | _, _, _ => s

/-- LINK_CTL_CAP (R100): takes the adapter's CAP and answers CAP_ACK. -/
def execLinkCtlCap (c : HostCap) (s : State) : Out :=
  let s := takeInbox 0x09 s
  .next (if s.enz.st = .negotiate then enzNegoDone (sendNow (linkCtl 0x02 0) { s with enz.cap := some c }) else s)

/-- LINK_CTL_CAP_ACK (R100). -/
def execLinkCtlCapAck (s : State) : Out :=
  let s := takeInbox 0x09 s
  .next (if s.enz.st = .negotiate then enzNegoDone { s with enz.capAck := true } else s)

/-- LINK_CTL_CAP_RETRY (R100): CAP again every 100 µs until the CAP_ACK. -/
def execLinkCtlCapRetry (s : State) : Out :=
  .next (if s.enz.st = .negotiate && !s.enz.capAck && decide (s.enz.capAt + 100000 ≤ s.tick.ns) then sendHostCap s else s)

/-- LEVEL_REQ (R100): answered with the lower of the requested level and E2; both ends retrain at it. DESIGN CHOICE
(log 115): Table 4-5a has no level 0 or 3; the model gives 0 no answer and takes 3 as a level above E2. -/
def execLevelReq (level : BitVec 2) (s : State) : Out :=
  let s := takeInbox 0x09 s
  .next (if s.enz.st = .active && level ≠ 0 then
    let lv : BitVec 2 := if level = 3 then 2 else level
    let s := sendNow (linkCtl (0x04 + lv.toNat <<< 10) 0) s
    enzEnter (if lv = 2 then .trainE2 else .trainE1) { s with enz.toActive := true }
  else s)

/-- Replays the flits after the last acknowledged one: every frame not wholly acknowledged is sent again, with the ack and the nak that are
due now (R92). -/
def enzReplay (s : State) : State :=
  if s.enz.sent.isEmpty then s
  else bumpModule 19 { s with
    enz.ackAt := s.tick.ns, enz.nak := false,
    enz.sent := s.enz.sent.map (fun x => { x with tries := x.tries + 1, ack := s.enz.rxExp - 1, nak := s.enz.nak }) }

/-- ENZEN_REPLAY_TIMEOUT (R92): ack has not advanced for 2 µs while flits are unacknowledged. The link carries flits in Negotiate and
Active. -/
def execEnzenReplayTimeout (s : State) : Out :=
  .next (if (s.enz.st = .negotiate || s.enz.st = .active) && !s.enz.sent.isEmpty && decide (s.enz.ackAt + 2000 ≤ s.tick.ns) then
    enzReplay s else s)

/-- An acknowledgement of the adapter: frames whose last flit it covers are no longer held, and others take their place (R92). One that
names no flit held says nothing. -/
def enzAck (ack : BitVec 12) (s : State) : State :=
  let n := (ack - s.enz.acked).toNat
  if n = 0 ∨ (s.enz.txSeq - 1 - s.enz.acked).toNat < n then s
  else
    let s := { s with enz.sent := s.enz.sent.filter (fun f => decide (n < (f.lastSeq - s.enz.acked).toNat)), enz.acked := ack,
                      enz.ackAt := s.tick.ns }
    issueReads 512 (flushHeld s.enz.held.length s)

/-- Splits received frame space into whole frames and the rest; IDLE frames fill space and are dropped. A REG_RD carries no
payload: its length asks for 4 or 8 bytes (log 6). `fuel` bounds the frames. -/
def unpackFrames : Nat → List Byte → List HostFrame × List Byte
  | 0, bs => ([], bs)
  | fuel + 1, bs =>
    if bs.length < 16 then ([], bs)
    else
      let f := frameOf bs
      let len := leAt bs 2 2 % 8192
      if f.ftype = 0x00 then unpackFrames fuel (bs.drop 16)
      else if f.ftype = 0x05 then
        let r := unpackFrames fuel (bs.drop 16)
        ({ f with payload := [], len := BitVec.ofNat 13 len } :: r.1, r.2)
      else if bs.length < 16 + len then ([], bs)
      else
        let r := unpackFrames fuel (bs.drop (16 + len))
        (f :: r.1, r.2)

end Machine
end Sys2Proof
end

