-- ==== Sys2Proof/Machine/LarderMap.lean ====
section
/-!
DEFINITION. Global addresses, windows, extents and the placing of lines (R179 to R187, R386 to R389).
-/
namespace Sys2Proof
namespace Machine

/-- Node of a global address (R179). -/
def addrNode (a : Word) : BitVec 12 := BitVec.ofNat 12 (a.toNat >>> 52)

/-- Offset of a global address (R179). -/
def addrOff (a : Word) : Nat := a.toNat % 2 ^ 52

/-- Global address of an offset of a node (R179). -/
def globalAddr (n : BitVec 12) (off : Nat) : Word := BitVec.ofNat 64 (n.toNat <<< 52 + off % 2 ^ 52)

/-- The regions of Table 5-7. -/
inductive Region where
  | larder | array | counter
  deriving DecidableEq, Repr

/-- Region of an offset; none where Table 5-7 reserves it (R180). -/
def regionOf (off : Nat) : Option Region :=
  if off < 0x020000000000 then some .larder
  else if off < 0x020010000000 then some .array
  else if 0x021000000000 ≤ off ∧ off < 0x021001000000 then some .counter
  else none

/-- Kind code of a region in a window entry (Table 5-9). -/
def regionKind : Region → Nat
  | .larder => 0
  | .array => 1
  | .counter => 2

/-- Unit of a window kind in bytes (Table 5-7). -/
def regionUnit : Region → Nat
  | .larder => 0x200000
  | .array => 0x400000
  | .counter => 0x1000

/-- What a window must permit (Table 5-9). -/
inductive Permit where
  | rd | wr | atomic | stream
  deriving DecidableEq, Repr

/-- Bit of a permission in a window entry. -/
def permitBit : Permit → Nat
  | .rd => 8
  | .wr => 9
  | .atomic => 10
  | .stream => 11

/-- The window entry covers bytes `off` to `off + len - 1` for the tenant (checks 2 of Table 5-10). -/
def winCovers (r : Region) (tenant : BitVec 8) (off len : Nat) (w : BitVec 128) : Bool :=
  bit w 0 && fld w 1 2 = regionKind r && fld w 16 8 = tenant.toNat
    && decide (fld w 32 32 * regionUnit r ≤ off) && decide (off + len ≤ (fld w 32 32 + fld w 64 32) * regionUnit r)

/-- The tenant's window that covers the bytes: the entry of lowest index (R186). -/
def findWindow (c : Coat) (r : Region) (tenant : BitVec 8) (off len : Nat) : Option (BitVec 128) :=
  (c.window.find? (fun e => winCovers r tenant off len e.2)).map (·.2)

/-- Frame of page `p` of the extents from entry `i` on (R387): `fuel` bounds their number. -/
def extentFrame (c : Coat) : Nat → Nat → Nat → Option Nat
  | 0, _, _ => none
  | fuel + 1, i, p =>
    let e := tblGet 0 c.extent i
    let n := fld e 24 20
    if p < n then some (fld e 0 20 + p)
    else if bit e 63 then none
    else extentFrame c fuel (i + 1) (p - n)

/-- Frame that holds an offset under a window (R387). -/
def winFrame (c : Coat) (w : BitVec 128) (off : Nat) : Option Nat :=
  extentFrame c 1024 (fld w 96 32) (off / 0x200000 - fld w 32 32)

/-- Byte of the Larder at an offset under a window: 256 × line number + byte in line (R388). -/
def winByte (c : Coat) (w : BitVec 128) (off : Nat) : Option Nat :=
  (winFrame c w off).map (fun f => f * 0x200000 + off % 0x200000)

/-- Stack and row of a physical line (R389). -/
def locate (x : Nat) : Nat × Nat :=
  let r := x / 24
  let h := (upFrom 0 6).foldl (fun h j => h + (r >>> (5 * j)) % 32) 0
  ((x % 24 + h) % 24, r)

/-- Stack that holds a byte of the Larder. -/
def stackOf (b : Nat) : StackId := ⟨(locate (b / 256)).1, by unfold locate; exact Nat.mod_lt _ (by decide)⟩

/-- Core port of a Larder port (Table 7-1). -/
def larderPort (s : StackId) : PortId := ⟨96 + s.val, by omega⟩

/-- Core port of the Workroom port that serves array `k` (R532). -/
def workPort (k : Nat) : PortId := ⟨120 + k % 6, by have := Nat.mod_lt k (show 6 > 0 by decide); omega⟩

/-- The coat that a stamped number names: topcoat, undercoat, or the topcoat for a number that is not held (R297,
R298). -/
def coatFor (s : State) (n : BitVec 4) : Coat :=
  if n = s.route.top.num then s.route.top
  else match s.route.under with
    | some c => if n = c.num then c else s.route.top
    | none => s.route.top

/-- The number names a held coat (R298). -/
def coatHeld (s : State) (n : BitVec 4) : Bool :=
  n = s.route.top.num || (match s.route.under with | some c => n = c.num | none => false)

/-- Core output at which a packet for the module's own memory is delivered (R278, R385, R532, log 12). -/
def memPort (s : State) (p : Packet) : PortId :=
  let off := addrOff p.addr
  match regionOf off with
  | some .larder =>
    let c := coatFor s p.coat
    match findWindow c .larder p.tenant off (max 1 p.payLen.toNat) with
    | some w => match winByte c w off with
      | some b => larderPort (stackOf b)
      | none => larderPort 0
    | none => larderPort 0
  | some .array => workPort ((off - 0x020000000000) / 0x400000)
  | some .counter => 126
  | none => larderPort 0

/-- Core output at which a packet for the module's own node is delivered: answers go to the input that sent their
request, kernels' requests to the Workroom, management to the Attic, the rest by their offset (R278, Table 7-1, log 12). -/
def localPort (s : State) (p : Packet) : PortId :=
  if isAnswer p.opcode then
    match s.items.own.find? (fun o => o.tag = p.tag) with
    | some o => o.inp
    | none => 126
  else if p.opcode = 0x10 ∨ p.opcode = 0x11 then workPort (addrOff p.addr)
  else if p.opcode = 0x50 then 126
  else memPort s p

end Machine
end Sys2Proof
end

