-- ==== Sys2Proof/Machine/Routing.lean ====
section
/-!
DEFINITION. The choice of a route (R277 to R285, R293, R294) and the packets that the part sends into its own core.
-/
namespace Sys2Proof
namespace Machine

/-! ### Routing entries (Table 8-1) -/

/-- Mode of an entry: 0 deterministic, 1 adaptive, 2 Valiant, 3 local. -/
def rtMode (e : BitVec 128) : Nat := fld e 1 2

/-- Candidates of an entry as (k, link number, alternate). -/
def rtCands (e : BitVec 128) : List (Nat × Nat × Bool) :=
  (upFrom 0 (fld e 4 3 + 1)).map (fun k => (k, fld e (64 + 8 * k) 7, bit e (8 + k)))

/-- Peer node of the link on a candidate (R279). -/
def candPeer (s : State) (l : Nat) : BitVec 12 := (tblGet {} s.links l).peer

/-- The exclusion list names this via for the destination (R291). -/
def excluded (s : State) (dest via : BitVec 12) : Bool := s.route.excl.contains (dest, via)

/-- A candidate is live for a destination (R279, R287). -/
def candLive (s : State) (dest : BitVec 12) (l : Nat) : Bool :=
  l < 96 && (tblGet {} s.links l).up && !(tblGet {} s.links l).failed && !excluded s dest (candPeer s l)

/-- A candidate is out for the destination: its own link to it failed, or an exclusion names it (R293, R739). -/
def candOut (s : State) (dest : BitVec 12) (l : Nat) : Bool :=
  excluded s dest (candPeer s l) || ((tblGet {} s.links l).failed && (tblGet {} s.links l).known && candPeer s l = dest)

/-- pick (R280): the first live candidate from position `start` on, wrapping once. -/
def pick (s : State) (dest : BitVec 12) (list : List (Nat × Nat × Bool)) (start : Nat) : Option Nat :=
  if list.isEmpty then none
  else ((list.drop (start % list.length) ++ list.take (start % list.length)).find? (fun c => candLive s dest c.2.1)).map (·.2.1)

/-- choose (R280) with one start for both lists. -/
def choose (s : State) (dest : BitVec 12) (e : BitVec 128) (start : Nat) : Option Nat :=
  match pick s dest ((rtCands e).filter (fun c => !c.2.2)) start with
  | some l => some l
  | none => pick s dest ((rtCands e).filter (fun c => c.2.2)) start

/-- The deterministic key of Table 8-2. -/
def detKey (p : Packet) : Nat :=
  (p.src ^^^ BitVec.ofNat 12 (p.tenant.toNat * 16) ^^^ BitVec.ofNat 12 p.vc.val).toNat

/-- Cells held at output `o` for channel `v` (Table 8-2). -/
def cellsAt (s : State) (o : PortId) (v : Vc) : Nat :=
  ((outPort s o).pkts.filter (fun q => q.pkt.vc = v)).foldl (fun n q => n + q.have_) 0
    + ((outPort s o).held.filter (fun h => !h.ghost && h.cell.pkt.vc = v)).length

/-- The least candidate of a list by (cells held, tie key). -/
def least (s : State) (v : Vc) : List (Nat × Nat × Bool) → Option (Nat × Nat × Nat)
  | [] => none
  | c :: t =>
    let me := (cellsAt s (portOf c.2.1) v, tieKey s 8 c.1, c.2.1)
    match least s v t with
    | none => some me
    | some b => if me.1 < b.1 ∨ (me.1 = b.1 ∧ me.2.1 < b.2.1) then some me else some b

/-- The adaptive choice of Table 8-2. -/
def adaptive (s : State) (dest : BitVec 12) (e : BitVec 128) (v : Vc) : Option Nat :=
  let live := fun alt => (rtCands e).filter (fun c => c.2.2 = alt && candLive s dest c.2.1)
  match least s v (live false) with
  | some b => some b.2.2
  | none => (least s v (live true)).map (·.2.2)

/-- Status of a lookup without a live candidate (R293). -/
def deadStatus (s : State) (dest : BitVec 12) (e : BitVec 128) : BitVec 8 :=
  if (rtCands e).any (fun c => candOut s dest c.2.1) then stNodeLost else stLinkLost

/-- One step of the route generator: a Galois register with mask 0xB400 (R281). -/
def lfsrStep (x : BitVec 16) : BitVec 16 := if bit x 0 then (x >>> 1) ^^^ 0xB400 else x >>> 1

/-- Seed of a route generator (R281). -/
def lfsrSeed (node : BitVec 12) (port : PortId) : BitVec 16 :=
  BitVec.ofNat 16 ((node.toNat * 16 + port.val % 16) * 2 + 1)

/-- The route generator of an input port; State holds its difference from the reset seed. -/
def lfsrOf (s : State) (i : PortId) : BitVec 16 := (inPort s i).lfsr ^^^ lfsrSeed 0 i

/-- The state with a route generator set. -/
def setLfsr (i : PortId) (x : BitVec 16) (s : State) : State := modIn i (fun q => { q with lfsr := x ^^^ lfsrSeed 0 i }) s

/-- Seeds every route generator for a node identifier (R281). -/
def seedAll (node : BitVec 12) (s : State) : State := allPorts.foldl (fun s i => setLfsr i (lfsrSeed node i) s) s

/-- Where a lookup sends a packet: an output, with the header as rewritten, or a FAIL. -/
inductive Hop where
  | go (o : PortId) (p : Packet)
  | fail (st : BitVec 8)
  deriving DecidableEq, Repr

/-- A lookup for destination `dest` of the packet, not choosing a Valiant route (R280, R285, R293, R294). -/
def hopFor (s : State) (p : Packet) (dest : BitVec 12) (det : Bool) : Hop :=
  let e := tblGet 0 (coatFor s p.coat).route dest.toNat
  if !bit e 0 then .fail stNodeLost
  else if rtMode e = 3 then .go (localPort s p) p
  else
    match (if det || p.ordered || rtMode e = 0 then choose s dest e (detKey p) else adaptive s dest e p.vc) with
    | some l => .go (portOf l) p
    | none => .fail (deadStatus s dest e)

/-- The route of a unicast packet that this module injects or stamps at an edge (R280 to R283, R189). -/
def hopIngress (i : PortId) (p : Packet) (s : State) : Hop × State :=
  let e := tblGet 0 (coatFor s p.coat).route p.dst.toNat
  if bit e 0 && rtMode e = 2 then
    let start := if p.ordered then detKey p else (lfsrOf s i).toNat
    let s' := if p.ordered then s else setLfsr i (lfsrStep (lfsrOf s i)) s
    match choose s p.dst e start with
    | some l => (.go (portOf l) { p with via := candPeer s l }, s')
    | none => (.fail (deadStatus s p.dst e), s')
  else (hopFor s p p.dst false, s)

/-- The route of a unicast packet in transit (R284, R285). -/
def hopTransit (p : Packet) (s : State) : Hop :=
  if !p.vphase && p.via ≠ 0 then
    if p.via = myNode s then hopFor s { p with vphase := true } p.dst false
    else hopFor s p p.via true
  else hopFor s p p.dst false

/-! ### Multicast entries (Table 8-10) -/

/-- Entry of a multicast group in the packet's coat. -/
def mcEntry (s : State) (p : Packet) : BitVec 256 := tblGet 0 (coatFor s p.coat).mcast p.dst.toNat

/-- Outputs of a multicast entry. -/
def mcOuts (e : BitVec 256) : List PortId := allPorts.filter (fun o => bit e (128 + o.val))

/-! ### Entering the core (R237, R242, R243) -/

/-- A change of route makes ordered packets wait (R306): elapsed tick before which the packet may not cross. -/
def orderedHold (s : State) (p : Packet) : BitVec 48 :=
  match s.route.switched, s.route.under with
  | some t, some u =>
    let a := tblGet 0 s.route.top.route p.dst.toNat
    let b := tblGet 0 u.route p.dst.toNat
    if p.ordered && ageOf s t ≤ ageLimit s
        && (rtMode a ≠ rtMode b || fld a 4 3 ≠ fld b 4 3 || fld a 8 8 ≠ fld b 8 8 || rtCands a ≠ rtCands b) then
      t + BitVec.ofNat 48 (ageLimit s + 1)
    else 0
  | _, _ => 0

/-- Raises L of the undercoat when a packet of it enters an input (R304). -/
def touchUnder (n : BitVec 4) (s : State) : State :=
  match s.route.under with
  | some u => if u.num = n ∧ n ≠ s.route.top.num then { s with route.lastUnder := s.tick.elapsed } else s
  | none => s

/-- Cells that an input cuts a packet into: a contribution's payload alone travels (R237, R238). -/
def entryCells (kind : CellKind) (p : Packet) : Nat :=
  if kind = .contrib then max 1 (ceilDiv p.payLen.toNat 256) else pktCells p

/-- Puts a packet into an input's queue; `units` of link partition `q` stay reserved for it (R221, R239, R243). -/
def enqueueNow (i : PortId) (kind : CellKind) (o : PortId) (units : Nat) (q : Fin 16) (bad : Bool) (hold : BitVec 48)
    (p : Packet) (s : State) (ref : Ref := .none) : State :=
  let inp := inPort s i
  let n := entryCells kind p
  let key := 8 * o.val + p.vc.val
  let sq := tblGet 0 inp.seq key
  let ct := if i.val < 96 then bit (reg s .linkLlCtrl i.val) 2 else true
  let e : InPkt := { uid := s.core.uid, pkt := p, count := n, kind := kind, out := o, enter := s.tick.ns, tick := s.tick.elapsed,
                     seq0 := sq, ct := ct, bad := bad, holdTo := hold, units := units, resPart := q, ref := ref, pktNo := inp.pktNo }
  let inp := { inp with
    queue := inp.queue ++ [e],
    free := inp.free - units,
    seq := if kind = .unicast then tblSet 0 inp.seq key (sq + BitVec.ofNat 16 n) else inp.seq,
    pktNo := if kind = .mcast then inp.pktNo + 1 else inp.pktNo }
  let pairs := tblMod (0, 0) s.counts.pairs i.val (fun c => (c.1 + n, c.2))
  touchUnder p.coat (setIn { s with core.uid := s.core.uid + 1, counts.pairs := pairs } i inp)

/-- Units of an internal input that a packet takes (R219, R242). -/
def ownUnits (p : Packet) : Nat := pktUnits 3 p

/-- Puts a packet into an input's queue. At an internal input it takes its units of the buffer there, and waits in front of it while they
are not free (R242). -/
def enqueue (i : PortId) (kind : CellKind) (o : PortId) (units : Nat) (q : Fin 16) (bad : Bool) (hold : BitVec 48)
    (p : Packet) (s : State) (ref : Ref := .none) : State :=
  if i.val < 96 then enqueueNow i kind o units q bad hold p s ref
  else if (inPort s i).entering.isEmpty && decide (ownUnits p ≤ (inPort s i).free) then enqueueNow i kind o (ownUnits p) q bad hold p s ref
  else modIn i (fun x => { x with entering := x.entering ++ [⟨kind, o, hold, p, ref⟩] }) s

/-- Packets that waited in front of an internal input enter while their units are free (R242): `fuel` bounds their number. -/
def admitEntering (i : PortId) : Nat → State → State
  | 0, s => s
  | fuel + 1, s =>
    match (inPort s i).entering with
    | [] => s
    | e :: t =>
      if ownUnits e.pkt ≤ (inPort s i).free then
        admitEntering i fuel (enqueueNow i e.kind e.out (ownUnits e.pkt) 0 false e.holdTo e.pkt
          (modIn i (fun q => { q with entering := t }) s) e.ref)
      else s

/-- Stamps a packet that the module injects or takes from an edge (Table 5-2, R297). -/
def stamp (s : State) (p : Packet) : Packet :=
  { p with coat := s.route.top.num, injTick := (nowTick s).setWidth 16, via := 0, vphase := false, ecnCe := false }

/-- A FAIL, or any packet of the part's own, enters the core at input `i`: stamped, routed and queued. A FAIL that cannot
be routed is dropped: no node waits for the outcome of a FAIL. The copy that R157 forbids draws its own FAIL at the
output. -/
def inject (i : PortId) (p : Packet) (s : State) : State :=
  let p := sealPkt (stamp s p)
  if p.mcast then
    if bit (mcEntry s p) 0 then enqueue i .mcast 0 0 0 false 0 p s
    else { s with route.badGroup := s.route.badGroup + 1 }
  else
    match hopIngress i p s with
    | (.go o q, s') => enqueue i .unicast o 0 0 false (orderedHold s q) q s'
    | (.fail _, s') => s'

/-- Counts a FAIL sent by a port (Table 23-3, word 199). -/
def countFail (i : PortId) (s : State) : State := bumpPort i 199 s

/-- Sends the FAIL for packet `p` into the core at input `i` (R167). -/
def sendFail (i : PortId) (st : BitVec 8) (p : Packet) (s : State) : State :=
  if drawsFail p then inject i (failOf (myNode s) st p) (countFail i s) else s

/-- An answer packet for request `p`: to its source, with the fields of Table 5-2a. -/
def answerTo (s : State) (op : BitVec 8) (p : Packet) : Packet :=
  { opcode := op, vc := 1, last := true, dst := p.src, src := myNode s, tenant := p.tenant, tag := p.tag, gen := p.gen,
    ordered := p.ordered, ecnEcho := p.ecnCe, addr := p.addr, itemLen := p.itemLen }

/-- A data packet with its payload. -/
def withPayload (bs : List Byte) (p : Packet) : Packet :=
  { p with payload := bs, payLen := BitVec.ofNat 13 bs.length }

end Machine
end Sys2Proof
end

