-- ==== Sys2Proof/Machine/Fabric.lean ====
section
/-!
DEFINITION. Fabric ingress (chapter 05, Table 5-8): checks, meters, stamps, samples and the arrival of a packet on a link.
-/
namespace Sys2Proof
namespace Machine

/-! ### Receive buffer of a link (R221, R222) -/

def part (s : State) (l : LinkId) (q : Fin 16) : Part := tblGet {} (link s l).part q.val
def modPart (l : LinkId) (q : Fin 16) (f : Part → Part) (s : State) : State :=
  modLink l (fun k => { k with part := tblMod {} k.part q.val f }) s

/-- Partition of a packet: 2 × vc + valiant_phase (R215). -/
def partOf (p : Packet) : Fin 16 := ⟨2 * p.vc.val + p.vphase.toNat, by have := p.vc.isLt; have := Bool.toNat_le p.vphase; omega⟩

/-- Reserves a packet's cost when its header arrives (R221). -/
def rxReserve (l : LinkId) (q : Fin 16) (u : Nat) (s : State) : State :=
  modPart l q (fun p => { p with got := p.got + BitVec.ofNat 32 u, occ := p.occ + u }) s

/-- Frees reserved units: they wait to be returned (R222, R223). -/
def rxFree (l : LinkId) (q : Fin 16) (u : Nat) (s : State) : State :=
  modPart l q (fun p => { p with occ := p.occ - u, pend := p.pend + u }) s

/-! ### Meters (R341 to R348) -/

/-- Colours of RFC 2697 and RFC 2698. -/
inductive Colour where
  | green | yellow | red
  deriving DecidableEq, Repr

/-- The charged length with a signed len_adj (R322). -/
def charged (b adj : Nat) : Nat := (max 1 ((b : Int) + signed 8 adj)).toNat

def meterOf (s : State) (i : Nat) : Meter := tblGet {} s.meters i

/-- The decision of Table 9-5 for C bytes, arriving yellow or green (R343, R344). -/
def meterDecide (mode : Nat) (yellow : Bool) (c : Nat) (m : Meter) : Colour × Meter :=
  if mode = 1 then
    if !yellow && c * 256 ≤ m.tc then (.green, { m with tc := m.tc - c * 256 })
    else if c * 256 ≤ m.te then (.yellow, { m with te := m.te - c * 256 })
    else (.red, m)
  else if mode = 2 then
    if m.te < c * 256 then (.red, m)
    else if yellow || m.tc < c * 256 then (.yellow, { m with te := m.te - c * 256 })
    else (.green, { m with te := m.te - c * 256, tc := m.tc - c * 256 })
  else (.green, m)

/-- Runs meter `i` on B bytes; `yellow` is the arrival colour when the meter is colour-aware. -/
def meterRun (i b : Nat) (yellow : Bool) (s : State) : Colour × State :=
  let w := reg s .tmMeter i
  let (c, m) := meterDecide (fld w 0 2) (bit w 2 && yellow) (charged b (fld w 16 8)) (meterOf s i)
  (c, { s with meters := tblSet {} s.meters i m })

/-- Action code of a colour: 0 pass, 1 mark, 2 drop (Table 9-6, Table 9-12). -/
def meterAction (s : State) (i : Nat) : Colour → Nat
  | .green => 0
  | .yellow => fld (reg s .tmMeter i) 4 2
  | .red => fld (reg s .tmMeter i) 6 2

/-! ### The Peephole (R773 to R775) -/

/-- Byte of the Larder at which the reserved region begins (R419). -/
def atticBase (s : State) : Nat := (915527 - 512 * s.larder.atticGib) * 0x200000

/-- One GiB. -/
def gib : Nat := 0x40000000

/-- Start of the telemetry area, its parts laid out in the order of Table 11-10 (log 13). -/
def telemBase (s : State) : Nat := atticBase s + gib * 5 / 2

/-- Sample header (Table 23-9). -/
def sampleHeader (seq : BitVec 32) (tick : BitVec 48) (port : Nat) (dir disc : Bool) (orig cap : Nat) : List Byte :=
  leBytes 16 (seq.toNat + tick.toNat <<< 32 + port <<< 80 + dir.toNat <<< 87 + disc.toNat <<< 88 + orig <<< 96 + cap <<< 112)

/-- A frame of port `l` passes its Peephole: direction (1 sent) and whether the port discards it. -/
def peepFrame (l : LinkId) (dir disc : Bool) (bytes : List Byte) (s : State) : State :=
  let p := tblGet {} s.counts.peep l.val
  if !bit p.cfg 48 || bit p.cfg 49 ≠ dir || (bit p.cfg 50 && !disc) then s
  else
    let s' := { s with counts.peep := tblSet {} s.counts.peep l.val { p with count := p.count + 1 } }
    if p.count % (fld p.cfg 0 24 + 1) ≠ fld p.cfg 0 24 then s'
    else if 64 ≤ s.counts.sampled then bumpPort (linkPort l) 205 s'
    else
      let cap := min (fld p.cfg 32 9) bytes.length
      let h := sampleHeader s.counts.sampleSeq (nowTick s) l.val dir disc bytes.length cap
      let s' := bumpPort (linkPort l) 204
        { s' with counts.sampled := s.counts.sampled + 1, counts.sampleSeq := s.counts.sampleSeq + 1 }
      if bit p.cfg 51 then
        let slot := s.counts.sampleSeq.toNat % 2097152
        let rec512 := slice (h ++ List.replicate 16 0 ++ bytes.take cap) 0 512
        { s' with larder.mem := memWrite s'.larder.mem (telemBase s + gib + 512 * slot) rec512 }
      else raise { code := 0x80, gen := fnGen s (.port l), unit := BitVec.ofNat 16 l.val, detail := BitVec.ofNat 128 (leNat h), sample := bytes.take cap } s'

/-! ### Arrival (R183 and the rules it draws on) -/

/-- A packet of the part's own that goes to a fixed output without routing, through the input `i` (check 2 of Table 5-8, R448,
Table 14-7): stamped and sealed, it takes its credits as any other (R254, R297). -/
def sendTo (i o : PortId) (p : Packet) (s : State) : State := enqueue i .unicast o 0 0 false 0 (sealPkt (stamp s p)) s

/-- Discards an arrived packet: its units are freed and the Peephole sees the discard (R222, R773). -/
def arriveDrop (l : LinkId) (p : Packet) (s : State) : State :=
  let u := pktUnits (link s l).gen p
  peepFrame l false true (pktBytes p) (rxFree l (partOf p) u (rxReserve l (partOf p) u s))

/-- Discards an arrived packet with a FAIL to its owner where FAIL serves it (R165, R167, Table 5-8). -/
def arriveFail (l : LinkId) (st : BitVec 8) (p : Packet) (s : State) : State :=
  let s := arriveDrop l p s
  if failServes p then inject (linkPort l) (failOf (myNode s) st p) (countFail (linkPort l) s) else s

/-- Age of a packet in rack ticks (R147): for age_limit + 2 elapsed ticks after a step, no less than by the number that the module would hold
had it not stepped (R148). -/
def pktAge (s : State) (p : Packet) : Nat :=
  (s.tick.steps.filter (fun x => decide (ageOf s x.2 < ageLimit s + 2))).foldl (fun a x =>
    max a (((s.tick.elapsed + x.1).setWidth 16 - p.injTick).toNat)) ((nowTick s).setWidth 16 - p.injTick).toNat

/-- Opens or renews the outcome record of a multicast item from an edge link (R317, R318); none when every record is in
use. -/
def openRecord (p : Packet) (e : BitVec 256) (s : State) : Option State :=
  if s.route.records.any (fun r => r.src = p.src && r.tag = p.tag) then
    some { s with route.records := s.route.records.map (fun r =>
      if r.src = p.src && r.tag = p.tag then { r with last := s.tick.elapsed } else r) }
  else if 4096 ≤ s.route.records.length then none
  else
    let r : Outcome := { src := p.src, tag := p.tag, tenant := p.tenant, group := p.dst, coat := p.coat,
                         itemLen := p.itemLen.toNat, outs := (mcOuts e).map (fun o => { out := o }), last := s.tick.elapsed }
    some { s with route.records := s.route.records ++ [r] }

/-- A checked packet enters the core from link `l` (R278 to R294, R314, R820). `bad` tells a crc32 failure found on a
cut-through port (R245). A packet that finds every outcome record in use waits with its units reserved (R317). -/
def arriveEnter (l : LinkId) (edge bad : Bool) (p : Packet) (s : State) : State :=
  let i := linkPort l
  let u := pktUnits (link s l).gen p
  let q := partOf p
  let enter := fun (kind : CellKind) (o : PortId) (p : Packet) (s : State) =>
    enqueue i kind o u q bad (if edge && kind ≠ .mcast then orderedHold s p else 0) p (peepFrame l false false (pktBytes p) (rxReserve l q u s))
  let wait := fun s : State => touchUnder p.coat { rxReserve l q u s with items.waiting := s.items.waiting ++ [(l, bad, p)] }
  if p.mcast then
    let e := mcEntry s p
    if edge then
      if p.opcode ≠ 0x02 || !bit e 0 || fld e 8 8 ≠ p.tenant.toNat then arriveFail l stDenied p s
      else if bit e 1 then
        match openRecord p e s with
        | some s' => enter .mcast 0 p s'
        | none => wait s
      else enter .mcast 0 p s
    else if !bit e 0 then arriveDrop l p { s with route.badGroup := s.route.badGroup + 1 }
    else
      match (if bit e 1 then openRecord p e s else some s) with
      | some s' => enter .mcast 0 p s'
      | none => wait s
  else
    let (hop, s') := if edge then hopIngress i p s else (hopTransit p s, s)
    match hop with
    | .fail st => arriveFail l st p s'
    | .go o p' =>
      if o.val < 96 then
        enter .unicast o p' s'
      else if p.opcode.toNat / 16 = 2 || p.opcode = 0x38 then enter .contrib o p' s'
      else enter .unicast o p' s'

/-- The checks on a packet from an edge link after its header CRC (Table 5-8): on success the packet as stamped. -/
def edgeChecks (l : LinkId) (p : Packet) (s : State) : Option Packet × State :=
  if p.src ≠ edgeNode s l then
    let s := arriveDrop l p s
    let s := if failServes p then sendTo (linkPort l) (linkPort l) { failOf (myNode s) stDenied p with dst := p.src } (countFail (linkPort l) s) else s
    (none, raiseEv 0x08 l.val (p.src.toNat + (edgeNode s l).toNat <<< 12) (fnGen s (.port l)) (bumpPort (linkPort l) 198 s))
  else if !opOk p then
    (none, arriveFail l stDenied p { s with items.reservedOp := s.items.reservedOp + 1 })
  else if !genCarries (link s l).gen p.opcode then (none, bumpPort (linkPort l) 198 (arriveFail l stDenied p s))
  else if !bit (reg s .portTenant l.val 0 (p.tenant.toNat / 64)) (p.tenant.toNat % 64) then
    (none, bumpPort (linkPort l) 198 (arriveFail l stDenied p s))
  else
    let t := p.tenant.toNat
    let pg := 1600 + t
    let s := bump pg 1 (pktLen p) (bump pg 0 1 s)
    if p.vc = 0 ∨ p.vc = 2 then
      let (c, s) := meterRun t (pktCharge (link s l).gen p) (bit (reg s .tmMeter t) (8 + p.vc.val)) s
      let k := match c with
        | .green => 2
        | .yellow => 4
        | .red => 6
      let s := bump pg (k + 1) (pktLen p) (bump pg k 1 s)
      let a := meterAction s t c
      if a = 2 then (none, bump pg 9 1 (arriveFail l stPoliced p s))
      else if a = 1 then (some { stamp s p with ecnCe := true }, bump pg 8 1 s)
      else (some (stamp s p), s)
    else (some (stamp s p), s)

/-- FABRIC_PACKET_ARRIVAL (R183): a packet arriving on a link is checked, aged, metered, stamped, routed and queued. `kinds` are the
kinds of the flits that brought it over a K1 link: a reserved one discards it (R156). A stomped packet draws no FAIL of this node
(R154). -/
def fabricArrival (l : LinkId) (p : Packet) (kinds : List (BitVec 3)) (s : State) : State :=
  let i := linkPort l
  let v := p.vc.val
  let s := bump l.val (24 * v + 1) (pktLen p) (bump l.val (24 * v) 1 s)
  let s := if v = 7 then s else { s with attic.lastEntry := s.tick.elapsed }
  if !(link s l).up then s
  else if (link s l).gen = 1 && kinds.any flitReserved then arriveDrop l p { s with items.badFlit := s.items.badFlit + 1 }
  else if p.hdrCrc ≠ hdrCrcOf p then arriveDrop l p (bumpPort i 195 s)
  else if isData p && p.stomp then arriveDrop l p s
  else
    let edge := edgeCheck s l
    let (r, s) : Option Packet × State :=
      if edge then edgeChecks l p s
      else if !opOk p then (none, arriveFail l stDenied p { s with items.reservedOp := s.items.reservedOp + 1 })
      else
        let s := if coatHeld s p.coat then s else bumpPort i 197 s
        if ageLimit s < pktAge s p then (none, arriveFail l stAged p s) else (some p, s)
    match r with
    | none => s
    | some q =>
      let bad := isData q && decide (q.crc32 ≠ crc32Of q)
      if bad then
        let s := raiseEv 0x16 3 (q.addr.toNat + 0x07 <<< 64) 0 (bumpPort i 196 s)
        if bit (reg s .linkLlCtrl l.val) 2 then arriveEnter l edge true q s else arriveFail l stDataError q s
      else arriveEnter l edge false q s

end Machine
end Sys2Proof
end

