-- ==== Sys2Proof/Machine/LaneCode.lean ====
section
/-!
DEFINITION. The coding of the lane layer (chapter 18, R193 to R197): link frames as bytes, their words in the blocks of the lanes, the
scrambler, the Krystra FEC, lock, and stuffed training frames.
-/
namespace Sys2Proof
namespace Machine

/-! ### Bits and scrambling (R630, R639) -/

/-- `n` bits of a number, least significant first. -/
def natBits : Nat → Nat → List Bool
  | 0, _ => []
  | n + 1, v => (v % 2 = 1) :: natBits n (v / 2)

/-- The number that bits spell, least significant first. -/
def bitsNat : List Bool → Nat
  | [] => 0
  | b :: t => b.toNat + 2 * bitsNat t

/-- The bits of a byte string in transmission order, least significant first (R631, log 119). -/
def byteBits (bs : List Byte) : List Bool := bs.flatMap (fun b => natBits 8 b.toNat)

/-- The bytes that bits in transmission order spell. -/
def bitBytes : List Bool → List Byte
  | a :: b :: c :: d :: e :: f :: g :: h :: t => BitVec.ofNat 8 (bitsNat [a, b, c, d, e, f, g, h]) :: bitBytes t
  | _ => []

/-- The register of the last 58 scrambled bits, newest lowest, after one more bit. -/
def scrPush (r : BitVec 58) (b : Bool) : BitVec 58 := (r <<< 1) ||| BitVec.ofNat 58 b.toNat

/-- The scrambler x⁵⁸ + x³⁹ + 1 over bits (R630): the bits sent and the register after them. -/
def scramble : BitVec 58 → List Bool → List Bool × BitVec 58
  | r, [] => ([], r)
  | r, d :: t =>
    let b := xor d (xor (bit r 38) (bit r 57))
    let z := scramble (scrPush r b) t
    (b :: z.1, z.2)

/-- The descrambler over received bits. -/
def descramble : BitVec 58 → List Bool → List Bool × BitVec 58
  | r, [] => ([], r)
  | r, b :: t =>
    let z := descramble (scrPush r b) t
    (xor b (xor (bit r 38) (bit r 57)) :: z.1, z.2)

/-- Stuffed coding (R639): after any run of 15 equal bits on the line, one bit of the opposite value. `last` and `run` are the last bit and
the length of its run. -/
def stuff : Bool → Nat → List Bool → List Bool
  | _, _, [] => []
  | last, run, b :: t =>
    let n := if b = last then run + 1 else 1
    if n = 15 then b :: (!b) :: stuff (!b) 1 t else b :: stuff b n t

/-- Removes the bit that follows any run of 15 equal received bits (R639). -/
def unstuff : Bool → Nat → List Bool → List Bool
  | _, _, [] => []
  | last, run, b :: t =>
    if run = 15 then unstuff b 1 t
    else b :: unstuff b (if b = last then run + 1 else 1) t

/-- The last line bit and the length of its run after more of them. -/
def runAfter (r : Bool × Nat) (bs : List Bool) : Bool × Nat :=
  bs.foldl (fun r b => (b, if r.2 ≠ 15 && b = r.1 then r.2 + 1 else 1)) r

/-- The scrambler's register after the line bits `bs`. -/
def scrAfter (r : BitVec 58) (bs : List Bool) : BitVec 58 := bs.foldl scrPush r

/-! ### The Krystra FEC (R631) -/

/-- Product of two symbols of GF(2¹⁰) with field polynomial x¹⁰ + x³ + 1: `fuel` bits of the first remain. -/
def gfMulAux : Nat → Nat → Nat → Nat
  | 0, _, _ => 0
  | n + 1, a, b =>
    let b2 := if b < 512 then 2 * b else Nat.xor (2 * b) 0x409
    if a % 2 = 1 then Nat.xor b (gfMulAux n (a / 2) b2) else gfMulAux n (a / 2) b2

/-- Product of two symbols. -/
def gfMul (a b : Nat) : Nat := if a = 0 ∨ b = 0 then 0 else gfMulAux 10 a b

/-- Power of a symbol, by the bits of the exponent. -/
def gfPowAux : Nat → Nat → Nat → Nat
  | 0, _, _ => 1
  | n + 1, a, e => if e % 2 = 1 then gfMul a (gfPowAux n (gfMul a a) (e / 2)) else gfPowAux n (gfMul a a) (e / 2)

/-- αᵉ, α being the symbol 2. -/
def gfAlpha (e : Nat) : Nat := gfPowAux 10 2 (e % 1023)

/-- Inverse of a symbol that is not zero. -/
def gfInv (a : Nat) : Nat := gfPowAux 10 a 1022

/-- Product of polynomials with the lowest coefficient first, modulo the power `n`. -/
def polyMul (n : Nat) (a b : List Nat) : List Nat :=
  (upFrom 0 n).map (fun k => (upFrom 0 (k + 1)).foldl (fun x i => Nat.xor x (gfMul (a.getD i 0) (b.getD (k - i) 0))) 0)

/-- Generator polynomial with roots α⁰ to α¹⁵, lowest coefficient first. -/
def rsGen : List Nat := (upFrom 0 16).foldl (fun g i => polyMul 17 g [gfAlpha i, 1]) [1]

/-- Remainder of the message times x¹⁶ by the generator, highest coefficient first, as one more symbol comes. -/
def rsStep (gen : List Nat) (rem : List Nat) (m : Nat) : List Nat :=
  let f := Nat.xor m (rem.headD 0)
  List.zipWith Nat.xor (rem.drop 1 ++ [0]) (gen.map (gfMul f))

/-- The 16 parity symbols of a message (R631). -/
def rsParity (msg : List Nat) : List Nat := msg.foldl (rsStep (rsGen.take 16).reverse) (List.replicate 16 0)

/-- The codeword of 264 message symbols: its parity follows the message. -/
def rsEncode (msg : List Nat) : List Nat := msg ++ rsParity msg

/-- Syndromes of a received word: its values at α⁰ to α¹⁵, the first symbol being the highest coefficient. -/
def rsSyndromes (w : List Nat) : List Nat :=
  (upFrom 0 16).map (fun j => let a := gfAlpha j
    w.foldl (fun x c => Nat.xor (gfMul x a) c) 0)

/-- State of the Berlekamp–Massey algorithm. -/
structure BmState where
  c : List Nat
  b : List Nat
  l : Nat
  m : Nat
  d : Nat

/-- One step of the algorithm, at syndrome `n`. -/
def bmStep (syn : List Nat) (s : BmState) (n : Nat) : BmState :=
  let d := (upFrom 1 s.l).foldl (fun x i => Nat.xor x (gfMul (s.c.getD i 0) (syn.getD (n - i) 0))) (syn.getD n 0)
  if d = 0 then { s with m := s.m + 1 }
  else
    let q := gfMul d (gfInv s.d)
    let c := (upFrom 0 17).map (fun i => Nat.xor (s.c.getD i 0) (if i < s.m then 0 else gfMul q (s.b.getD (i - s.m) 0)))
    if 2 * s.l ≤ n then { c := c, b := s.c, l := n + 1 - s.l, m := 1, d := d } else { s with c := c, m := s.m + 1 }

/-- Value of a polynomial, lowest coefficient first. -/
def polyEval (p : List Nat) (x : Nat) : Nat := p.reverse.foldl (fun a c => Nat.xor (gfMul a x) c) 0

/-- Errors that the syndromes tell: the locator's degree, and position and value of each root (Chien, Forney). -/
def rsErrors (syn : List Nat) : Nat × List (Nat × Nat) :=
  let z := (upFrom 0 16).foldl (bmStep syn) { c := [1], b := [1], l := 0, m := 1, d := 1 }
  let omega := polyMul 16 syn z.c
  let der := (upFrom 0 16).map (fun i => if i % 2 = 0 then z.c.getD (i + 1) 0 else 0)
  (z.l, (upFrom 0 280).filterMap (fun i =>
    let p := 279 - i
    let inv := gfAlpha (1023 - p)
    if polyEval z.c inv = 0 then some (i, gfMul (gfAlpha p) (gfMul (polyEval omega inv) (gfInv (polyEval der inv)))) else none))

/-- Decoding of a received word of 280 symbols: the message and the symbols corrected, at most 8; none when the word does not decode
(R631). -/
def rsDecode (w : List Nat) : Option (List Nat × Nat) :=
  if w.length ≠ 280 then none
  else
    let syn := rsSyndromes w
    if syn.all (· = 0) then some (w.take 264, 0)
    else
      let e := rsErrors syn
      let fixed := w.zipIdx.map (fun x => Nat.xor x.1 (((e.2.find? (fun y => y.1 = x.2)).map (·.2)).getD 0))
      if e.1 ≤ 8 ∧ e.2.length = e.1 ∧ (rsSyndromes fixed).all (· = 0) then some (fixed.take 264, e.1) else none

/-! ### Blocks (R630, R632, R633) -/

/-- A block before scrambling: control or data, and its 64 payload bits. -/
structure Block where
  ctrl : Bool
  payload : Word
  deriving DecidableEq, Repr

/-- Control blocks of a frame of `w` lanes: that at position `p` of the `j`-th active lane (R633). -/
def ctrlAt (cs : List (Nat × Nat × Word)) (p j : Nat) : Option Word := (cs.find? (fun c => c.1 = p && c.2.1 = j)).map (·.2.2)

/-- The words of a frame laid into the data blocks of the lanes, in ascending position and within it in ascending lane order (R632): the
blocks of the positions `ps`, each as the list of its lanes. -/
def layPositions (w : Nat) (cs : List (Nat × Nat × Word)) : List Nat → List Word → List (List Block)
  | [], _ => []
  | p :: t, ws =>
    let r := (upFrom 0 w).foldl (fun (r : List Block × List Word) j =>
      match ctrlAt cs p j with
      | some c => (r.1 ++ [⟨true, c⟩], r.2)
      | none => (r.1 ++ [⟨false, r.2.headD 0⟩], r.2.drop 1)) ([], ws)
    r.1 :: layPositions w cs t r.2

/-- 64-bit words of a byte string. -/
def wordsOf (bs : List Byte) : List Word := (upFrom 0 (ceilDiv bs.length 8)).map (fun i => BitVec.ofNat 64 (leAt bs (8 * i) 8))

/-- The 40 blocks of the `j`-th active lane of a frame (R632). -/
def laneBlocks (w : Nat) (cs : List (Nat × Nat × Word)) (bytes : List Byte) (j : Nat) : List Block :=
  (layPositions w cs (upFrom 0 40) (wordsOf bytes)).map (fun bs => bs.getD j ⟨false, 0⟩)

/-- The bits of a lane's blocks: header 0b01 or 0b10, its lower bit first, then the scrambled payload (R630, log 119). -/
def blockBits : BitVec 58 → List Block → List Bool × BitVec 58
  | r, [] => ([], r)
  | r, b :: t =>
    let p := scramble r (natBits 64 b.payload.toNat)
    let z := blockBits p.2 t
    ((!b.ctrl) :: b.ctrl :: (p.1 ++ z.1), z.2)

/-- Symbols of 10 bits from bits in transmission order, the first the least significant (R631): `n` of them. -/
def bitSymbols : Nat → List Bool → List Nat
  | 0, _ => []
  | n + 1, bs => bitsNat (bs.take 10) :: bitSymbols n (bs.drop 10)

/-- The codeword of a lane for its blocks, and its scrambler after it (R630, R631). -/
def laneWord (r : BitVec 58) (bs : List Block) : List (BitVec 10) × BitVec 58 :=
  let z := blockBits r bs
  ((rsEncode (bitSymbols 264 z.1)).map (BitVec.ofNat 10), z.2)

/-- One received block: its header as a number and its descrambled payload. -/
structure RxBlock where
  hdr : Nat
  payload : Word
  deriving DecidableEq, Repr

/-- Blocks that message bits spell, and the descrambler after them: `n` of them. -/
def rxBlocks : Nat → BitVec 58 → List Bool → List RxBlock × BitVec 58
  | 0, r, _ => ([], r)
  | n + 1, r, bs =>
    let p := descramble r ((bs.drop 2).take 64)
    let z := rxBlocks n p.2 (bs.drop 66)
    (⟨bitsNat (bs.take 2), BitVec.ofNat 64 (bitsNat p.1)⟩ :: z.1, z.2)

/-- Blocks of the 264 message symbols of a codeword. -/
def wordBlocks (r : BitVec 58) (msg : List Nat) : List RxBlock × BitVec 58 := rxBlocks 40 r (msg.flatMap (natBits 10))

/-- The header is one of the two valid ones (R636). -/
def hdrValid (h : Nat) : Bool := h = 1 || h = 2

/-- The frame's bytes from the blocks of its lanes (R632): the data blocks in ascending position, and within one in lane order. -/
def frameOfBlocks (lanes : List (List RxBlock)) : List Byte :=
  (upFrom 0 40).flatMap (fun p => lanes.flatMap (fun l => match l[p]? with
    | some b => if b.hdr = 1 then leBytes 8 b.payload.toNat else []
    | none => []))

/-! ### Lock (R636, R637) -/

/-- The last 96 headers, each told invalid or not, after more of them. -/
def pushHdrs (old new : List Bool) : List Bool := let l := old ++ new
  l.drop (l.length - 96)

/-- Block lock is gained by 96 consecutive valid headers (R636). -/
def gainsLock (hdrs : List (BitVec 2)) : Bool :=
  let l := hdrs.drop (hdrs.length - 96)
  decide (l.length = 96) && l.all (fun h => hdrValid h.toNat)

/-- Block lock or codeword lock is lost (R636, R637). -/
def lockLost (a : Lane) : Bool := decide (24 ≤ (a.hdrs.filter id).length) || decide (4 ≤ a.badWords)

/-! ### Link frames (R193 to R197) -/

/-- Code of a frame kind (Table 6-2). -/
def kindCode : FrameKind → Nat
  | .data => 0
  | .control => 1
  | .ackOnly => 2
  | .reserved => 3

/-- The 16-byte frame header (Table 6-2). -/
def headBytes (f : TxFrame) : List Byte :=
  leBytes 16 (f.seq.toNat + f.ack.toNat <<< 12 + f.nak.toNat <<< 24 + kindCode f.kind <<< 25 + f.first.toNat <<< 32
    + (upFrom 0 16).foldl (fun n q => n + (f.ret.getD q 0).toNat <<< (48 + 5 * q)) 0)

/-- A received frame header (Table 6-2). -/
structure FrameHead where
  seq : BitVec 12
  ack : BitVec 12
  nak : Bool
  kind : FrameKind
  first : BitVec 8
  ret : List (BitVec 5)
  deriving DecidableEq, Repr

/-- The header that 16 bytes spell. -/
def headOfBytes (bs : List Byte) : FrameHead :=
  let n := leAt bs 0 16
  { seq := BitVec.ofNat 12 (bitsOf n 0 12), ack := BitVec.ofNat 12 (bitsOf n 12 12), nak := bitsOf n 24 1 = 1,
    kind := match bitsOf n 25 2 with
      | 0 => .data
      | 1 => .control
      | 2 => .ackOnly
      | _ => .reserved,
    first := BitVec.ofNat 8 (bitsOf n 32 8), ret := (upFrom 0 16).map (fun q => BitVec.ofNat 5 (bitsOf n (48 + 5 * q) 5)) }

/-- A link control message at body byte 0 (Tables 6-3, 6-7 and 20-6). -/
def msgBytes : LinkMsg → List Byte
  | .cap c => leBytes 8 (0x01 + c.maxGen.toNat <<< 8 + c.vexlor.toNat <<< 10 + c.level.toNat <<< 16 + c.laneMask.toNat <<< 24
      + c.node.toNat <<< 32 + c.link.toNat <<< 48) ++ (upFrom 0 16).flatMap (fun q => leBytes 2 (c.credits.getD q 0).toNat)
  | .audit m => leBytes 4 (0x02 + m.mask.toNat <<< 16) ++ (upFrom 0 16).flatMap (fun q =>
      leBytes 4 (m.held.getD q 0).toNat ++ leBytes 4 (m.sent.getD q 0).toNat ++ leBytes 4 (m.rcvd.getD q 0).toNat)
  | .auditResult mask ds es => leBytes 4 (0x03 + mask.toNat <<< 16) ++ (upFrom 0 16).flatMap (fun q =>
      leBytes 2 (BitVec.ofInt 16 (ds.getD q 0)).toNat ++ leBytes 2 (BitVec.ofInt 16 (es.getD q 0)).toNat)
  | .resync m => leBytes 4 (0x04 + m.mask.toNat <<< 16) ++ (upFrom 0 16).flatMap (fun q =>
      leBytes 4 (m.retd.getD q 0).toNat ++ leBytes 4 (m.got.getD q 0).toNat)
  | .levelOffer v => leBytes 4 (0x05 + v.toNat <<< 16)

/-- Bytes that a packet takes on a link of generation `g` (R195, R196). -/
def wireBytes (g : BitVec 2) (p : Packet) : List Byte := if g = 1 then pktFlits p else pktBytes p

/-- The body of a frame before encryption, `n` bytes: pieces end to end, then pad words or idle flits, which are all zeros (R194 to
R196). -/
def bodyOf (g : BitVec 2) (n : Nat) (f : TxFrame) : List Byte :=
  slice (match f.msg with
    | some m => msgBytes m
    | none => f.pieces.flatMap (fun p => ((wireBytes g p.pkt).drop p.off).take p.len)) 0 n

/-! ### Training frames (R640) -/

/-- A training frame: message, body, frame count (Table 18-3). -/
def trainBytes (msg : BitVec 8) (body : BitVec 64) (fseq : BitVec 8) : List Byte :=
  let mid := leBytes 1 msg.toNat ++ leBytes 8 body.toNat ++ leBytes 1 fseq.toNat
  leBytes 4 0x3C5A96E1 ++ mid ++ leBytes 2 (crc16 mid).toNat

/-- Body of a CAP (Table 18-4). -/
def capBody (c : TrainCap) : BitVec 64 :=
  BitVec.ofNat 64 (c.maxRate.toNat + c.present.toNat <<< 2 + c.farLoopOk.toNat <<< 6 + c.eqVersion.toNat <<< 8 + c.nonce.toNat <<< 16)

/-- The crc of a received training frame is good (Table 18-3). -/
def trainGood (bs : List Byte) : Bool := leAt bs 14 2 = (crc16 (slice bs 4 10)).toNat

/-- The CAP that a body spells (Table 18-4). -/
def capOfBody (b : BitVec 64) : TrainCap :=
  { maxRate := b.extractLsb' 0 2, present := b.extractLsb' 2 4, farLoopOk := bit b 6, eqVersion := b.extractLsb' 8 8,
    nonce := b.extractLsb' 16 32 }

/-- A training frame that comes in on a lane: the stuffing is removed and the frame descrambled, its sync apart. The lane after it, and the
message and body of a frame whose sync and crc are good (R639, R640, Table 18-3). -/
def trainRx (a : Lane) (line : List Bool) : Lane × Option (BitVec 8 × BitVec 64) :=
  let raw := unstuff a.run.1 a.run.2 line
  let body := raw.drop 32
  let bs := bitBytes (raw.take 32 ++ (descramble a.descr body).1)
  ({ a with run := runAfter a.run line, descr := scrAfter a.descr body },
   if raw.length = 128 && leAt bs 0 4 = 0x3C5A96E1 && trainGood bs then
     some (BitVec.ofNat 8 (leAt bs 4 1), BitVec.ofNat 64 (leAt bs 5 8)) else none)

/-- The line bits of training frames under stuffed coding from a scrambler: the sync goes unscrambled (R639, Table 18-3). -/
def trainBits (r : BitVec 58) (bs : List Byte) : List Bool :=
  stuff false 0 (byteBits (bs.take 4) ++ (scramble r (byteBits (bs.drop 4))).1)

end Machine
end Sys2Proof
end

