-- ==== Sys2Proof/Machine/Links.lean ====
section
/-!
DEFINITION. The link layer (chapter 06): frames, replay, negotiation, credits and their audit, and the finding of link
failures (R738).
-/
namespace Sys2Proof
namespace Machine

/-! ### Links and lanes -/

/-- min_width + 1, the fewest lanes in service (Table 6-6). -/
def minLanes (s : State) (l : LinkId) : Nat := fld (reg s .linkLlCtrl l.val) 4 2 + 1

/-- fallback of a link (Table 6-6). -/
def fallback (s : State) (l : LinkId) : Bool := bit (reg s .linkLlCtrl l.val) 3

/-- The state with fallback of a link set or cleared. -/
def setFallback (l : LinkId) (b : Bool) (s : State) : State :=
  setReg s .linkLlCtrl l.val 0 0 (setFld (reg s .linkLlCtrl l.val) 3 1 b.toNat)

/-- The Attic has read the equalisation table, and its verification is over (R645). -/
def eqSettled (s : State) : Bool := s.attic.runAt.isSome && !s.strong.verify.any (fun v => decide (v.use = .eqTable))

/-- The lane may leave Dark: the equalisation table settled, light, lane_en, no near-end loop, and its port not Off (Table 18-5, R645, R656,
R792). -/
def laneLit (s : State) (n : LaneId) : Bool :=
  let l := n.val / 4
  let port := tblGet ({} : Fn) s.fns l
  eqSettled s && !(lane s n).darkened && bit (reg s .laneCtrl n.val) 0 && fld (reg s .laneCtrl n.val) 1 2 = 0
    && port.st ≠ .off && port.st ≠ .stopping

/-- Brings the lanes of a link back to Detect, those that may not leave Dark to Dark (R643, R653, R210). -/
def lanesToDetect (l : LinkId) (s : State) : State :=
  modLink l (fun k => { k with trainCap := none, caps := 0, initiator := false, stepCount := 0 })
    (modLanes l (fun j a =>
      { a with st := if laneLit s (laneId l j) then .detect else .dark, since := s.tick.ns, rate := 0, tries := 0,
               pass := none, peerPass := none, ownOut := a.darkened || a.failed, peerOut := false }) s)

/-- A failure of the link is found: it is declared at the boundary that R49 gives (R738, Table 22-2). -/
def findFailure (l : LinkId) (cause : BitVec 8) (s : State) : State :=
  let k := link s l
  if k.failAt.isSome || !(k.up || k.nego) then s else setLink s l { k with failAt := some (cause, prepDue s) }

/-- Frames of the replay buffer at a width (Table 6-1). -/
def replayCap (m : BitVec 4) : Nat := match laneCount m with
  | 3 => 68
  | 2 => 102
  | 1 => 204
  | _ => 51

/-- Body bytes of a frame at a width (Table 6-1). -/
def bodyBytes (m : BitVec 4) : Nat := match laneCount m with
  | 3 => 944
  | 2 => 624
  | 1 => 304
  | _ => 1264

/-- Body bytes of a frame on a link, less the tag of an encrypted one (Tables 6-1 and 19-7c). -/
def linkBody (k : Link) : Nat := bodyBytes k.lanes - (if k.keyed then 16 else 0)

/-- The lane begins Recover (R650, Table 18-5). -/
def toRecover (s : State) (a : Lane) : Lane :=
  { a with st := .recover, since := s.tick.ns, rate := 3, tries := 0, pass := none, peerPass := none, retryAt := none }

/-- Credits that the next sequenced frame returns for each partition, at most 31 (R223). -/
def retNow (k : Link) : List (BitVec 5) :=
  (upFrom 0 16).map (fun q => BitVec.ofNat 5 (min 31 (tblGet ({} : Part) k.part q).pend))

/-- The partitions after those returns left (R223, R229). -/
def afterRet (k : Link) : Tbl Part :=
  tblMap {} (fun _ p => { p with pend := p.pend - min 31 p.pend, retd := p.retd + BitVec.ofNat 32 (min 31 p.pend) }) k.part

/-- Sends a link control message: it waits for a control frame (R194, R197). -/
def sendCtl (l : LinkId) (m : LinkMsg) (s : State) : State := modLink l (fun k => { k with ctl := k.ctl ++ [m] }) s

/-- Sends a link control message in the next control frame (R227). -/
def sendCtlFirst (l : LinkId) (m : LinkMsg) (s : State) : State := modLink l (fun k => { k with ctl := m :: k.ctl }) s

/-! ### Keys of an encrypted link (R673 to R675) -/

/-- The bytes of "krystra link". -/
def krystraLink : List Byte := [0x6B, 0x72, 0x79, 0x73, 0x74, 0x72, 0x61, 0x20, 0x6C, 0x69, 0x6E, 0x6B]

/-- Key and IV salt of epoch `e` for the direction from node `a`, link `x` to node `b`, link `y` (R673). -/
def linkKeyOf (s : State) (a b : BitVec 12) (x y : Nat) (e : Nat) : List Byte :=
  Config.hkdf384 (leBytes 32 s.strong.linkMaster.toNat) (leBytes 4 s.strong.domain.toNat)
    (krystraLink ++ leBytes 2 a.toNat ++ leBytes 2 b.toNat ++ leBytes 1 x ++ leBytes 1 y ++ leBytes 4 e) 36

/-- Key and salt with which the part sends on a link after `x` sequenced frames. -/
def keyOut (s : State) (l : LinkId) (c : LinkCap) (x : Nat) : List Byte :=
  linkKeyOf s (myNode s) c.node l.val c.link.toNat (x / 2 ^ 36)

/-- Key and salt with which the peer sends after `x` sequenced frames. -/
def keyIn (s : State) (l : LinkId) (c : LinkCap) (x : Nat) : List Byte :=
  linkKeyOf s c.node (myNode s) c.link.toNat l.val (x / 2 ^ 36)

/-- The IV of frame `x` (R674). -/
def frameIv (key : List Byte) (x : Nat) : List Byte := key.drop 32 ++ leBytes 8 x

/-- The associated data: the frame header with ack and nak taken as zero (R674). -/
def frameAad (head : List Byte) : List Byte := let n := leAt head 0 16
  leBytes 16 (n - (bitsOf n 12 13) <<< 12)

/-- The part's own feature level: that of the running image (R2). -/
def ownLevel (s : State) : BitVec 8 := s.attic.level

/-- The LINK_CAP that the part sends (Table 6-3, R206). -/
def ownCap (s : State) (l : LinkId) : LinkCap :=
  let w := reg s .linkLlCtrl l.val
  { maxGen := if fallback s l then 1 else BitVec.ofNat 2 (fld w 0 2), vexlor := true, level := ownLevel s,
    laneMask := laneMask s l (fun a => a.st = .service && !a.ownOut), node := myNode s, link := BitVec.ofNat 8 l.val,
    credits := (upFrom 0 16).map (fun q => BitVec.ofNat 16 (fld (reg s .linkVcCfg l.val (q / 2)) (16 * (q % 2)) 15)) }

/-- Starts negotiation: sequence numbers, audit counts and partitions from the start, LINK_CAP as the first sequenced
frame, on the lanes in service (R198, R207, R212, R743). -/
def startNego (l : LinkId) (s : State) : State :=
  let s := modLink l (fun k =>
    { k with up := false, nego := true, negoAt := s.tick.ns, cap := none, txSeq := 0, rxExp := 0, acked := 4095,
             nakNext := false, nakAt := none, replay := [], replayFrom := none, replays := 0, part := [], resync := 0,
             tx := none, rxPkt := [], capSeq := some 0, failAt := none, ctl := [], again := [], room := 0, txCount := 0, rxCount := 0,
             keyed := false, keyTx := [], keyRx := [], peerTx := 0,
             lanes := laneMask s l (fun a => a.st = .service && !a.ownOut) }) s
  sendCtl l (.cap (ownCap s l)) s

/-- Distance of a sequence number after the last acknowledged one. -/
def ackDist (k : Link) (ack : BitVec 12) : Nat := (ack - k.acked).toNat

/-- Applies an acknowledgement: frames it covers leave the replay buffer, and a replay under way no longer sends them (R199). -/
def applyAck (l : LinkId) (ack : BitVec 12) (s : State) : State :=
  let k := link s l
  let n := ackDist k ack
  if n = 0 ∨ k.replay.length < n then s
  else
    let left := k.replay.drop n
    let again := k.again.filter (fun f => left.any (fun x => x.seq = f.seq))
    setLink s l { k with replay := left, acked := ack, ackAt := s.tick.ns, replays := 0, again := again,
                         replayFrom := if again.isEmpty then none else k.replayFrom,
                         capSeq := match k.capSeq with
                           | some c => if (ack - c).toNat < 2048 then none else some c
                           | none => none }

/-- Replays from ack + 1: the frames held are sent again in order, from the next frame on (R202, R203). -/
def replayNow (l : LinkId) (s : State) : State :=
  let k := link s l
  if k.replay.isEmpty then s
  else bumpPort (linkPort l) 192
    (setLink s l { k with replayFrom := some k.acked, again := k.replay, replays := k.replays + 1, ackAt := s.tick.ns })

/-- Acts on a nak: one that names the start of a replay under way is ignored (R202). -/
def applyNak (l : LinkId) (ack : BitVec 12) (s : State) : State :=
  if (link s l).replayFrom = some ack then s else replayNow l s

/-- Applies the credit returns of an accepted frame (R204). -/
def applyRet (rs : List (BitVec 5)) (t : Tbl Part) : Tbl Part :=
  (upFrom 0 16).foldl (fun t q =>
    let n := (rs.getD q 0).toNat
    tblMod {} t q (fun p => { p with held := p.held + n, rcvd := p.rcvd + BitVec.ofNat 32 n })) t

/-- A route notice packet about a link (R289, Table 8-3). -/
def noticePkt (s : State) (up : Bool) (l : LinkId) : Packet :=
  let body := leBytes 8 ((if up then 0x11 else 0x10) + l.val <<< 8 + (myNode s).toNat <<< 16 + (link s l).peer.toNat <<< 32)
    ++ leBytes 8 (nowTick s).toNat
  withPayload body { opcode := 0x50, vc := 7, last := true, dst := 4095, mcast := true, src := myNode s, itemLen := 16 }

/-- Sends a route notice from the Attic port (R289). -/
def sendNotice (up : Bool) (l : LinkId) (s : State) : State := inject 126 (noticePkt s up l) s

/-- Lanes that only this end names stay held out, and are recovered (R208, R650). -/
def holdUnnamed (l : LinkId) (mask : BitVec 4) (s : State) : State :=
  modLanes l (fun j a => if a.st = .service && !a.ownOut && !bit mask j.val then toRecover s { a with ownOut := true } else a) s

/-- Ends negotiation when the peer's LINK_CAP is held and the part's own is acknowledged (R208, R209, R212, R671, R673). After a refusal
(R209, R671) the lanes stay in Service without negotiation, and the link negotiates again only when its lanes have been back in bring-up
(DESIGN CHOICE, log 120). -/
def endNego (l : LinkId) (s : State) : State :=
  let k := link s l
  match k.nego, k.cap, k.capSeq with
  | true, some c, none =>
    let own := ownCap s l
    let lo := min own.level.toNat c.level.toNat
    let hi := max own.level.toNat c.level.toNat
    let mask := own.laneMask &&& c.laneMask
    let enc := bit (reg s .linkSec l.val) 0
    if lo + 1 < hi then
      raiseEv 0x1B l.val (own.level.toNat + c.level.toNat <<< 8) (fnGen s (.port l)) (setLink s l { k with nego := false })
    else if enc && (!c.vexlor || !s.strong.linkKey) then
      raiseEv 0x1C l.val ((!c.vexlor).toNat + (!s.strong.linkKey).toNat <<< 1) (fnGen s (.port l)) (setLink s l { k with nego := false })
    else if laneCount mask < minLanes s l then
      lanesToDetect l (setLink s l { k with nego := false })
    else
      let part := (upFrom 0 16).foldl (fun t q =>
        let n := (c.credits.getD q 0).toNat
        tblMod {} t q (fun p => { p with held := n, ref := n, sent := 0, rcvd := 0, got := 0, retd := 0 })) k.part
      let s := setLink s l { k with
        nego := false, up := true, failed := false, gen := if own.maxGen.toNat ≤ c.maxGen.toNat then own.maxGen else c.maxGen,
        level := BitVec.ofNat 8 lo, lanes := mask, peer := c.node, vexlor := c.vexlor, known := true, part := part,
        keyed := enc, keyTx := if enc then keyOut s l c k.txCount else [], keyRx := if enc then keyIn s l c k.rxCount else [],
        noticed := false, crossNew := { opened := s.tick.elapsed }, crossOld := { opened := s.tick.elapsed } }
      let s := holdUnnamed l mask s
      let s := if k.noticed then sendNotice true l s else s
      if k.failed then raiseEv 0x11 l.val (c.node.toNat <<< 8 + laneCount mask <<< 20) (fnGen s (.port l)) s else s
  | _, _, _ => s

/-! ### Receiving a frame (R200 to R204, R631, R634, R636, R637, R647, R675) -/

/-- Lanes on which the peer transmits: those that its last marker frame named, and before the first those in service (R648). -/
def rxLanes (s : State) (l : LinkId) : List (Fin 4) :=
  let m := if (link s l).peerTx = 0 then laneMask s l (fun a => a.st = .service) else (link s l).peerTx
  (List.finRange 4).filter (fun j => bit m j.val)

/-- What one lane makes of a codeword: the lane after it, its blocks, and the symbols corrected, none when it does not decode. -/
def laneRx (now : BitVec 48) (a : Lane) (w : List (BitVec 10)) : Lane × List RxBlock × Option Nat :=
  let raw := (w.map (·.toNat)).take 264
  let dec := rsDecode (w.map (·.toNat))
  let z := wordBlocks a.descr ((dec.map (·.1)).getD raw)
  let hdrs := (rxBlocks 40 0 (raw.flatMap (natBits 10))).1.map (fun b => !hdrValid b.hdr)
  let n := (dec.map (·.2)).getD 0
  ({ a with hdrs := pushHdrs a.hdrs hdrs, descr := z.2, csym := BitVec.ofNat 16 (min 65535 (a.csym.toNat + n)),
            badWords := if dec.isSome then 0 else a.badWords + 1,
            ucw := if dec.isSome then a.ucw else a.ucw.filter (fun t => decide ((now - t).toNat < 64)) ++ [now] }, z.1, dec.map (·.2))

/-- The codewords of a frame pass through the lanes: the lanes' locks and counts move, and unknown control blocks are counted (R634). The
frame's bytes come out when every codeword decodes. -/
def lanesRx (l : LinkId) (f : LinkFrame) (s : State) : Option (List Byte) × State :=
  let js := rxLanes s l
  let rx := js.zipIdx.map (fun x => (x.1, laneRx s.tick.elapsed (lane s (laneId l x.1)) (f.words.getD x.2 [])))
  let s := rx.foldl (fun s x => setLane s (laneId l x.1) x.2.1) s
  let fails := (rx.filter (fun x => x.2.2.2.isNone)).length
  let odd := rx.foldl (fun n x => if x.2.2.2.isSome then
    n + (x.2.2.1.filter (fun b => b.hdr = 2 && !(0xD2 ≤ b.payload.toNat % 256 && b.payload.toNat % 256 ≤ 0xD4))).length else n) 0
  let s := bump l.val 200 (rx.foldl (fun n x => n + x.2.2.2.getD 0) 0) (bump l.val 201 fails s)
  let s := modLink l (fun k => { k with badBlocks := k.badBlocks + odd }) s
  (if fails = 0 && !js.isEmpty then some (frameOfBlocks (rx.map (·.2.2.1))) else none, s)

/-- Count of the sequenced frame with number `seq`: the one nearest to that expected (R673). -/
def countOfSeq (k : Link) (seq : BitVec 12) : Nat := ((k.rxCount : Int) + (seq - k.rxExp).toInt).toNat

/-- The body of a received frame, none when its tag fails; on an encrypted link it is what the key opens (R674, R675). -/
def plainBody (k : Link) (bytes : List Byte) : Option (List Byte) :=
  let h := headOfBytes bytes
  let x := countOfSeq k h.seq
  if !k.keyed || h.kind = .ackOnly || x = 0 then some (bytes.drop 16)
  else Config.gcmOpen (k.keyRx.take 32) (frameIv k.keyRx x) (frameAad (bytes.take 16)) (bytes.drop 16)

/-! ### Packets in the bodies of data frames (R195, R196, R742) -/

/-- Length of the packet whose header the bytes begin with (R142). -/
def lenOfHead (bs : List Byte) : Nat :=
  let n := bitsOf (leAt bs 28 2) 0 13
  if n = 0 then 32 else 40 + 8 * ceilDiv n 8

/-- The packet under way after more of its bytes: none once its last byte is in. -/
def moreBytes (cur bs : List Byte) : List Byte :=
  let c := cur ++ bs
  if 32 ≤ c.length ∧ lenOfHead c ≤ c.length then [] else c

/-- One 8-byte word of a body on a K2 or K3 link: a zero word where a packet would start is a pad word (R195). -/
def wordIn (cur w : List Byte) : List Byte := if cur.isEmpty && w.all (· = 0) then [] else moreBytes cur w

/-- One flit of a body on a K1 link (Table 5-5, R196). -/
def flitIn (cur f : List Byte) : List Byte :=
  let k : BitVec 3 := BitVec.ofNat 3 (leAt f 0 1)
  let c := (f.drop 2).take (leAt f 1 1)
  if k = flitHead then c else if k = flitBody then cur ++ c else if k = flitTail ∨ k = flitSingle then [] else cur

/-- The packet under way after the body of a data frame. -/
def bodyIn (g : BitVec 2) (cur body : List Byte) : List Byte :=
  let n := if g = 1 then 64 else 8
  (upFrom 0 (body.length / n)).foldl (fun c i => (if g = 1 then flitIn else wordIn) c ((body.drop (n * i)).take n)) cur

/-- The packet that 32 header bytes spell, without its payload (Table 5-1). -/
def headPacket (bs : List Byte) : Packet :=
  let n := leAt bs 0 32
  { opcode := BitVec.ofNat 8 (bitsOf n 0 8), coat := BitVec.ofNat 4 (bitsOf n 8 4), vc := ⟨bitsOf n 12 3 % 8, Nat.mod_lt _ (by decide)⟩,
    last := bitsOf n 15 1 = 1, dst := BitVec.ofNat 12 (bitsOf n 16 12), ordered := bitsOf n 28 1 = 1, ecnCe := bitsOf n 29 1 = 1,
    ecnEcho := bitsOf n 30 1 = 1, vphase := bitsOf n 31 1 = 1, src := BitVec.ofNat 12 (bitsOf n 32 12), mcast := bitsOf n 44 1 = 1,
    rsvA := BitVec.ofNat 3 (bitsOf n 45 3), tenant := BitVec.ofNat 8 (bitsOf n 48 8), status := BitVec.ofNat 8 (bitsOf n 56 8),
    tag := BitVec.ofNat 16 (bitsOf n 64 16), gen := BitVec.ofNat 16 (bitsOf n 80 16), via := BitVec.ofNat 12 (bitsOf n 96 12),
    rsvB := BitVec.ofNat 4 (bitsOf n 108 4), injTick := BitVec.ofNat 16 (bitsOf n 112 16), addr := BitVec.ofNat 64 (bitsOf n 128 64),
    itemLen := BitVec.ofNat 32 (bitsOf n 192 32), payLen := BitVec.ofNat 13 (bitsOf n 224 13), rsvC := BitVec.ofNat 3 (bitsOf n 237 3),
    hdrCrc := BitVec.ofNat 16 (bitsOf n 240 16) }

/-- The packet under way on a link, once its header is in whole. -/
def rxUnderWay (k : Link) : Option Packet :=
  let p := headPacket k.rxPkt
  if 32 ≤ k.rxPkt.length ∧ p.hdrCrc = hdrCrcOf p then some p else none

/-- Discards a sequenced frame that is not the one expected or does not decode: nak at the first discard (R200). -/
def discardFrame (l : LinkId) (s : State) : State :=
  let k := link s l
  if k.nakAt.isSome then s
  else bumpPort (linkPort l) 193 (setLink s l { k with nakNext := true, nakAt := some s.tick.ns })

/-- Accepts the frame expected: its credit returns apply, and an epoch's last frame changes the key (R200, R204, R673). -/
def acceptFrame (l : LinkId) (ret : List (BitVec 5)) (s : State) : State :=
  modLink l (fun k =>
    let x := k.rxCount + 1
    { k with rxExp := k.rxExp + 1, rxCount := x, nakAt := none, part := applyRet ret k.part,
             keyRx := match k.keyed && x % 2 ^ 36 = 0, k.cap with
               | true, some c => keyIn s l c x
               | _, _ => k.keyRx }) s

/-- A frame whose codewords decode and whose tag holds: ack and nak act, and a sequenced one is accepted or discarded. A frame of the
reserved kind is discarded (R200, R202, R204). -/
def frameIn (l : LinkId) (h : FrameHead) (body : List Byte) (s : State) : State :=
  let s := applyAck l h.ack s
  let s := if h.nak then applyNak l h.ack s else s
  let s := if h.kind = .ackOnly then s
    else if h.kind ≠ .reserved && h.seq = (link s l).rxExp then
      acceptFrame l h.ret (if h.kind = .data then modLink l (fun k => { k with rxPkt := bodyIn k.gen k.rxPkt body }) s else s)
    else discardFrame l s
  endNego l s

/-- LINK_FRAME_RECEIVE (R200, R202, R204, R634, R675). -/
def linkFrame (l : LinkId) (f : LinkFrame) (s : State) : State :=
  if !((link s l).up || (link s l).nego) || (link s l).retrain then s
  else
    match lanesRx l f s with
    | (none, s) => discardFrame l s
    | (some bytes, s) =>
      match plainBody (link s l) bytes with
      | some body => frameIn l (headOfBytes bytes) body s
      | none => discardFrame l (modLink l (fun k => { k with tagFails := k.tagFails + 1 }) s)

/-- Meaning of LINK_FRAME_RECEIVE. -/
def execLinkFrameReceive (l : LinkId) (f : LinkFrame) (s : State) : Out := .next (linkFrame l f s)

/-- NAK_REPEAT_TIMEOUT (R201): sets nak again 1,024 ns after the last. -/
def execNakRepeatTimeout (l : LinkId) (s : State) : Out :=
  match (link s l).nakAt with
  | some t =>
    if t + 1024 ≤ s.tick.ns then
      .next (bumpPort (linkPort l) 193 (modLink l (fun k => { k with nakNext := true, nakAt := some s.tick.ns }) s))
    else .next s
  | none => .next s

/-- LINK_REPLAY_TIMEOUT (R202): replays when ack has not advanced for 512 ns, unless the lanes retrain (R205, R652). -/
def execLinkReplayTimeout (l : LinkId) (s : State) : Out :=
  let k := link s l
  .next (if (k.up || k.nego) && !k.retrain && !k.replay.isEmpty && decide (k.ackAt + 512 ≤ s.tick.ns) then replayNow l s else s)

/-- REPLAY_LIMIT_RETRAIN (R205, R652): after replay_limit replays of the oldest frame the link goes to lane retraining,
keeping its replay buffer. -/
def execReplayLimitRetrain (l : LinkId) (s : State) : Out :=
  let k := link s l
  if (k.up || k.nego) && !k.retrain && !k.replay.isEmpty && decide (fld (reg s .linkLlCtrl l.val) 8 4 ≤ k.replays) then
    let s := bumpPort (linkPort l) 203 (setLink s l { k with
      retrain := true, replays := 0, again := [], replayFrom := none, room := 0,
      retrains := k.retrains.filter (fun t => ageOf s t < 65536) ++ [s.tick.elapsed] })
    .next (modLanes l (fun _ a => if a.st = .service then toRecover s a else a) s)
  else .next s

/-- LINK_FALLBACK (R206): four retrainings within 65,536 ticks set fallback, and the link ends as for a lost link. -/
def execLinkFallback (l : LinkId) (s : State) : Out :=
  let k := link s l
  let recent := k.retrains.filter (fun t => ageOf s t < 65536)
  if 4 ≤ recent.length && !fallback s l then
    .next (findFailure l 4 (setFallback l true (setLink s l { k with retrains := [] })))
  else .next s

/-- LINK_CAP (R208, R211): takes the peer's LINK_CAP. In service it ends service, and the part negotiates again. -/
def execLinkCap (l : LinkId) (c : LinkCap) (s : State) : Out :=
  let k := link s l
  if k.up then .next (findFailure l 4 (setLink s l { k with cap := some c }))
  else if k.nego then .next (endNego l (setLink s l { k with cap := some c }))
  else .next s

/-- LINK_CAP_TIMEOUT (R210): no LINK_CAP within 1 ms of service coding sends the link back to lane bring-up. -/
def execLinkCapTimeout (l : LinkId) (s : State) : Out :=
  let k := link s l
  if k.nego && k.cap.isNone && decide (k.negoAt + 1000000 ≤ s.tick.ns) then
    .next (lanesToDetect l (setLink s l { k with nego := false, capSeq := none }))
  else .next s

/-! ### The credit audit (R227 to R234) -/

/-- Partitions that satisfy `f`, as a mask. -/
def partMask (k : Link) (f : Part → Bool) : BitVec 16 :=
  BitVec.ofNat 16 ((upFrom 0 16).foldl (fun m q => m + (f (tblGet {} k.part q)).toNat * 2 ^ q) 0)

/-- Partition `q` of every partition of a link changed by `f`. -/
def mapParts (f : Nat → Part → Part) (k : Link) : Link :=
  { k with part := (upFrom 0 16).foldl (fun t q => tblMod {} t q (f q)) k.part }

/-- An AUDIT with the figures of the moment (R228). -/
def auditOf (k : Link) (mask : BitVec 16) : AuditMsg :=
  { mask := mask,
    held := (upFrom 0 16).map (fun q => BitVec.ofInt 16 (tblGet ({} : Part) k.part q).held),
    sent := (upFrom 0 16).map (fun q => (tblGet ({} : Part) k.part q).sent),
    rcvd := (upFrom 0 16).map (fun q => (tblGet ({} : Part) k.part q).rcvd) }

/-- CREDIT_AUDIT_DUE (R227, R228, R234): sends AUDIT in ticks whose number mod 64 is n / 4, skipping frozen partitions. -/
def execCreditAuditDue (l : LinkId) (s : State) : Out :=
  let k := link s l
  if atStep 6 s && k.up && hits s 64 (l.val / 4) then
    .next (setPhase 6 (sendCtlFirst l (.audit (auditOf k (partMask k (fun p => p.txFrozen.isNone)))) s))
  else .next s

/-- Own advertised units of a partition, the reference total of the peer's audit (R212). -/
def advertised (s : State) (l : LinkId) (q : Nat) : Nat := fld (reg s .linkVcCfg l.val (q / 2)) (16 * (q % 2)) 15

/-- sum_diff of partition `q` for an AUDIT (R229): signed sum minus reference total. -/
def sumDiff (s : State) (l : LinkId) (m : AuditMsg) (q : Nat) : Int :=
  let p := tblGet ({} : Part) (link s l).part q
  ((m.held.getD q 0).toNat : Int) + p.occ + p.pend + ((p.retd - m.rcvd.getD q 0).toInt) - advertised s l q

/-- sent_diff of partition `q` for an AUDIT (R229): signed got minus sent. -/
def sentDiff (s : State) (l : LinkId) (m : AuditMsg) (q : Nat) : Int :=
  ((tblGet ({} : Part) (link s l).part q).got - m.sent.getD q 0).toInt

/-- A partition of an AUDIT fails one of the two checks. -/
def auditFails (s : State) (l : LinkId) (m : AuditMsg) (q : Nat) : Bool :=
  bit m.mask q && (sumDiff s l m q ≠ 0 || sentDiff s l m q ≠ 0)

/-- AUDIT (R229, R230, R231): checks each partition, answers AUDIT_RESULT, counts and reports each failure, and freezes
the failed partitions at the next boundary. -/
def execAudit (l : LinkId) (m : AuditMsg) (s : State) : Out :=
  if !(link s l).up then .next s else
  let bad := (upFrom 0 16).filter (auditFails s l m)
  let msg := LinkMsg.auditResult (BitVec.ofNat 16 (bad.foldl (fun a q => a + 2 ^ q) 0))
    ((upFrom 0 16).map (sumDiff s l m)) ((upFrom 0 16).map (sentDiff s l m))
  let s' := bad.foldl (fun t q => auditMismatch 0 l.val q (sumDiff s l m q) (fnGen s (.port l)) (bumpPort (linkPort l) 194 t)) s
  let s' := modLink l (mapParts (fun q p =>
    if auditFails s l m q then { p with rxFreezeAt := some (s.tick.elapsed + 1) } else p)) s'
  .next (sendCtl l msg s')

/-- AUDIT_RESULT (R231): the sender freezes the failed partitions at the next boundary. -/
def execAuditResult (l : LinkId) (m : BitVec 16) (s : State) : Out :=
  if !(link s l).up then .next s else
  .next (modLink l (mapParts (fun q p =>
    if bit m q then { p with txFreezeAt := some (s.tick.elapsed + 1) } else p)) s)

/-- A moment that waits for a boundary has come. -/
def dueNow (s : State) (t : Option (BitVec 48)) : Bool :=
  match t with
  | some e => reached s e
  | none => false

/-- PARTITION_FREEZE (R231): freezes, at the boundary, the partitions that wait for it. -/
def execPartitionFreeze (l : LinkId) (s : State) : Out :=
  if s.tick.slot ≠ 0 then .next s else
  .next (modLink l (mapParts (fun _ p =>
    let p := if dueNow s p.txFreezeAt then { p with txFrozen := some s.tick.elapsed, txFreezeAt := none } else p
    if dueNow s p.rxFreezeAt then { p with rxFrozen := some s.tick.elapsed, rxFreezeAt := none } else p)) s)

/-- A receiver partition that may be resynchronised: frozen, empty, and not already waiting to thaw (R232). -/
def resyncReady (p : Part) : Bool := p.rxFrozen.isSome && p.rxThawAt.isNone && p.occ = 0 && p.pend = 0

/-- RESYNC_SEND (R232): the receiver sends RESYNC for its frozen partitions with nothing reserved or unreturned, and
unfreezes them at the next boundary. -/
def execResyncSend (l : LinkId) (s : State) : Out :=
  let k := link s l
  let m := partMask k resyncReady
  if !k.up || m = 0 then .next s else
  let msg := LinkMsg.resync { mask := m, retd := (upFrom 0 16).map (fun q => (tblGet ({} : Part) k.part q).retd),
                              got := (upFrom 0 16).map (fun q => (tblGet ({} : Part) k.part q).got) }
  .next (sendCtl l msg (setLink s l (mapParts (fun _ p =>
    if resyncReady p then { p with rxThawAt := some (s.tick.elapsed + 1) } else p) k)))

/-- RESYNC (R232): the sender sets held, rcvd and sent from it, and unfreezes at the next boundary. -/
def execResync (l : LinkId) (m : ResyncMsg) (s : State) : Out :=
  if !(link s l).up then .next s else
  .next (modLink l (mapParts (fun q p =>
    if bit m.mask q then { p with held := p.ref, rcvd := m.retd.getD q 0, sent := m.got.getD q 0,
                                  txThawAt := some (s.tick.elapsed + 1) } else p)) s)

/-- PARTITION_UNFREEZE (R232): unfreezes, at the boundary, the partitions that wait for it. -/
def execPartitionUnfreeze (l : LinkId) (s : State) : Out :=
  if s.tick.slot ≠ 0 then .next s else
  .next (modLink l (mapParts (fun _ p =>
    let p := if dueNow s p.txThawAt then { p with txFrozen := none, txThawAt := none } else p
    if dueNow s p.rxThawAt then { p with rxFrozen := none, rxThawAt := none } else p)) s)

/-- FROZEN_PARTITION_TIMEOUT (R233): a partition frozen for 256 ticks fails its link. -/
def execFrozenPartitionTimeout (l : LinkId) (q : Fin 16) (s : State) : Out :=
  let p := part s l q
  let old := fun t : Option (BitVec 48) => match t with
    | some e => decide (256 ≤ ageOf s e)
    | none => false
  .next (if old p.txFrozen || old p.rxFrozen then findFailure l 3 s else s)

end Machine
end Sys2Proof
end

