-- ==== Sys2Proof/Machine/CoreOps.lean ====
section
/-!
DEFINITION. The cyclic core (chapter 07): crossing of stage one and stage two, the arrival of cells at an output, ageing,
multicast outcome records (R317 to R319), the pool audits and the depth samples.
-/
namespace Sys2Proof
namespace Machine

/-- vc34_cap of a core port (Table 7-12). -/
def vc34Cap (s : State) (i : PortId) : Nat := fld (reg s .coreAdmit i.val) 0 8

/-- lend_max of a core port (Table 7-12). -/
def lendMax (s : State) (o : PortId) : Nat := fld (reg s .coreAdmit o.val) 8 8

/-- mark_cells of a queue of a link port (Table 9-8). -/
def markCells (s : State) (o v : Nat) : Nat := fld (reg s .tmPortCfg o 0 (2 + v / 4)) (16 * (v % 4)) 11

/-- Depth of egress queue `v` of an output, in cells. -/
def queueDepth (s : State) (o : PortId) (v : Nat) : Nat :=
  ((outPort s o).pkts.filter (fun q => q.passed && q.pkt.vc.val = v)).foldl (fun n q => n + q.have_) 0

/-! ### Core credits (R254 to R256) -/

/-- Credits that an input may still use toward an output. -/
def creditsFree (q : InPort) (o : PortId) : Nat := 2 + 8 * tblGet 0 q.blocks o.val - tblGet 0 q.used o.val

/-- Returns the borrowed blocks that the credits in use do not need, when no packet of the input waits for that output
(R256). -/
def trimBlocks (i o : PortId) (s : State) : State :=
  let q := inPort s i
  let b := tblGet 0 q.blocks o.val
  if b = 0 || q.queue.any (fun e => e.kind = .unicast && e.out = o) then s
  else
    let keep := min b (ceilDiv (tblGet 0 q.used o.val - 2) 8)
    modOut o (fun p => { p with lent := p.lent - (b - keep) }) (setIn s i { q with blocks := tblSet 0 q.blocks o.val keep })

/-- A unicast cell leaves output `o`: its credit returns to input `i` (R256, R270). -/
def freeCredits (i o : PortId) (n : Nat) (s : State) : State :=
  trimBlocks i o (modOut o (fun p => { p with free := p.free + n })
    (modIn i (fun q => { q with used := tblSet 0 q.used o.val (tblGet 0 q.used o.val - n) }) s))

/-- Replica cells leave output `o`: their credits return to their slices (R251, R270). -/
def freeReplicas (o : PortId) (ms : List (Nat × Nat)) (s : State) : State :=
  ms.foldl (fun s m =>
    let c := midSlice s (portOf m.1)
    modOut o (fun p => { p with free := p.free + m.2 })
      (setSlice s (portOf m.1) { c with repl := tblSet 0 c.repl o.val (tblGet 0 c.repl o.val - m.2) })) s

/-! ### Stage one (R240, R244 to R248, R350) -/

/-- Entries of a slice's queue for output `o`; a result cell stands in none (R249, R252, log 83). -/
def sliceQueued (c : Slice) (o : PortId) : Nat := (c.cells.filter (fun e => e.cell.kind ≠ .result && e.outs.contains o)).length

/-- Outputs of a waiting packet. -/
def entryOuts (s : State) (e : InPkt) : List PortId :=
  match e.kind with
  | .mcast => mcOuts (mcEntry s e.pkt)
  | .contrib => []
  | _ => [e.out]

/-- Output of the queue in which a unicast or multicast packet waits: for multicast the lowest of its bitmap (R242, log 17). -/
def queueOut (s : State) (e : InPkt) : Option PortId := (entryOuts s e).head?

/-- The entry is the oldest of its queue (R242). -/
def isHead (s : State) (q : List InPkt) (e : InPkt) : Bool :=
  match q.find? (fun x => x.kind ≠ .contrib && x.pkt.vc = e.pkt.vc && queueOut s x = queueOut s e) with
  | some x => x.uid = e.uid
  | none => false

/-! ### Loans (R255) -/

/-- Blocks of 8 that input `i` asks of output `o` in a slot in which packets wait there: those that the head of one of its queues needs, and
otherwise one while it holds fewer than lend_max (R255). -/
def lendWant (s : State) (i o : PortId) : Nat :=
  let q := inPort s i
  let need := (q.queue.filter (fun e => e.kind = .unicast && e.out = o && e.crossed = 0 && isHead s q.queue e)).foldl
    (fun n e => max n (ceilDiv (e.count - creditsFree q o) 8)) 0
  if 0 < need then need else if tblGet 0 q.blocks o.val < lendMax s o then 1 else 0

/-- Input `i` borrows blocks of output `o` while the shared share has them (R255). -/
def lendOne (i : PortId) (s : State) (o : PortId) : State :=
  let take := min (lendWant s i o) (64 - (outPort s o).lent)
  modOut o (fun p => { p with lent := p.lent + take }) (modIn i (fun q => { q with blocks := tblMod 0 q.blocks o.val (· + take) }) s)

/-- Loans of one input, at each output for which a unicast packet waits. -/
def lendInput (s : State) (i : PortId) : State :=
  let outs := ((inPort s i).queue.filter (fun e => e.kind = .unicast)).map (·.out)
  (allPorts.filter outs.contains).foldl (lendOne i) s

/-! ### Contributions at an input (R246, R248, R485) -/

/-- Slice in which cell `k` of a contribution packet is added (R459, R467). -/
def contribSlice (a : Contrib) (k : Nat) : PortId := portOf (29 * a.g.val + 8 * a.q.val + a.tile + (a.c0 + k) / a.w)

/-- The contribution's tile holds granted grains, or its operation or tile is over and its cells are only discarded (R246, R494). -/
def roomReady (s : State) (a : Contrib) : Bool :=
  match opOf s a.g a.q with
  | some o => o.s ≠ a.s || o.doneTiles.contains a.tile || o.tiles.any (fun t => t.tile = a.tile)
  | none => true

/-- Cell of an accepted contribution that crosses to slice `m` next. -/
def contribNext (m : PortId) (e : InPkt) : Option Nat :=
  match e.adm with
  | some a => (upFrom 0 e.count).find? (fun k => !e.gone.contains k && contribSlice a k = m)
  | none => none

/-- No contribution of the channel stands in front of this one's cells for slice `m`: one not yet accepted, or one with cells for `m`
(R242, R468). -/
def contribHead (m : PortId) (q : List InPkt) (e : InPkt) : Bool :=
  match q.find? (fun x => x.kind = .contrib && x.pkt.vc = e.pkt.vc && (x.adm.isNone || (contribNext m x).isSome)) with
  | some x => x.uid = e.uid
  | none => false

/-- An accepted contribution may send a cell to slice `m` (Table 7-5). -/
def contribReady (s : State) (i m : PortId) (e : InPkt) : Bool :=
  match e.adm with
  | some a => (contribNext m e).isSome && contribHead m (inPort s i).queue e && roomReady s a
  | none => false

/-! ### Selection (R246 to R248) -/

/-- Pacing rate of an internal input toward an output, in cells per pattern period (R350); 128 where none applies. -/
def paceRate (s : State) (i o : PortId) : Nat :=
  if bit (reg s .tmInject) 0 && decide (96 ≤ i.val) && i.val ≠ 126 then 128 - tblGet 0 (inPort s i).slow o.val else 128

/-- The next cell of an entry counts toward the pacing rates: of a stream's chunk, which counts as one cell, the first (R350,
R526). -/
def paces (e : InPkt) : Bool := match e.ref with
  | .chunk _ _ _ _ => e.crossed = 0
  | _ => true

/-- A WR for the module's own memory waits here while it would open an item and every tracking entry is in use (R174). -/
def trackWaits (s : State) (e : InPkt) : Bool :=
  e.kind = .unicast && e.crossed = 0 && e.pkt.opcode = 0x02 && decide (96 ≤ e.out.val) && decide (e.out.val < 126) && !trackRoom s e.pkt

/-- A waiting packet may send its next cell to slice `m` (Table 7-5, R174, R350, R526). -/
def eligibleIn (s : State) (i m : PortId) (e : InPkt) : Bool :=
  let q := inPort s i
  let c := midSlice s m
  if e.kind = .contrib then contribReady s i m e
  else isHead s q.queue e && (e.holdTo = 0 || reached s e.holdTo) && !trackWaits s e
    && (entryOuts s e).all (fun o => decide (sliceQueued c o < 16))
    && (!paces e || (entryOuts s e).all (fun o => decide (tblGet 0 q.sentTo o.val < paceRate s i o)))
    && (e.kind = .mcast || e.crossed ≠ 0 || decide (e.count ≤ creditsFree q e.out))

/-- Class of a packet at the input (Table 7-5). -/
def inClass (s : State) (i : PortId) (e : InPkt) : Nat :=
  if (e.pkt.vc = 3 ∨ e.pkt.vc = 4) ∧ (inPort s i).vc34 < vc34Cap s i then 1 else if e.pkt.vc = 7 then 2 else 3

/-- Order of service of an input connected to slice `m`: class, time of entry, and the tie rule (R246, R248). -/
def inKey (s : State) (i m : PortId) (e : InPkt) : Nat × Nat × Nat :=
  (inClass s i e, e.enter, tieKey s 128 (if e.kind = .contrib then m.val else ((queueOut s e).map (·.val)).getD 0))

/-- First entry of least key. -/
def leastKey (key : InPkt → Nat × Nat × Nat) : List InPkt → Option InPkt
  | [] => none
  | e :: t =>
    match leastKey key t with
    | none => some e
    | some b =>
      let x := key e
      let y := key b
      if y.1 < x.1 ∨ (y.1 = x.1 ∧ (y.2.1 < x.2.1 ∨ (y.2.1 = x.2.1 ∧ y.2.2 < x.2.2))) then some b else some e

/-- Valid bytes of cell `k` of an entry, less one (Table 7-2). -/
def cellLen (e : InPkt) (k : Nat) : BitVec 8 :=
  let n := if e.kind = .contrib then e.pkt.payLen.toNat else pktLen e.pkt
  BitVec.ofNat 8 (min 256 (n - 256 * k) - 1)

/-- The cell that entry `e` sends next (R237, R239). -/
def nextCell (i : PortId) (e : InPkt) : Cell :=
  { uid := e.uid, pkt := e.pkt, idx := e.crossed, count := e.count, src := i, dst := e.out, kind := e.kind, ct := e.ct,
    lenM1 := cellLen e e.crossed, pktNo := e.pktNo,
    bad := e.bad && e.crossed + 1 = e.count, ingress := e.tick.setWidth 16, seq := e.seq0 + BitVec.ofNat 16 e.crossed,
    ref := e.ref }

/-- Room handle of a tile (R486). -/
def handleOf (s : State) (a : Contrib) : BitVec 12 :=
  match opOf s a.g a.q with
  | some o => ((o.tiles.find? (fun t => t.tile = a.tile)).map (fun t => BitVec.ofNat 12 t.handle)).getD 0
  | none => 0

/-- Cell `k` of contribution `e`, as it crosses to slice `m` (R238, R239, R486). -/
def contribCell (s : State) (i m : PortId) (e : InPkt) (a : Contrib) (k : Nat) : Cell :=
  { uid := e.uid, pkt := e.pkt, idx := k, count := e.count, src := i, dst := m, kind := .contrib, ct := e.ct, lenM1 := cellLen e k,
    bad := e.bad && k + 1 = e.count, ingress := e.tick.setWidth 16, member := BitVec.ofNat 7 a.idx, room := handleOf s a,
    tileCell := BitVec.ofNat 12 (a.c0 + k), data := (e.pkt.payload.drop (256 * k)).take 256, adm := some a }

/-- The tag of a cell (Table 7-2). -/
def tagBytes (c : Cell) : List Byte :=
  let code := match c.kind with
    | .unicast => 0
    | .mcast => 1
    | .contrib => 2
    | .result => 3
  let low := c.src.val + c.dst.val <<< 8 + c.pkt.vc.val <<< 16 + c.pkt.vphase.toNat <<< 19 + code <<< 20 + (decide (c.idx = 0)).toNat <<< 22
    + (decide (c.idx + 1 = c.count)).toNat <<< 23 + c.ct.toNat <<< 24 + c.bad.toNat <<< 25 + c.lenM1.toNat <<< 32 + c.ingress.toNat <<< 40
  let high := match c.kind with
    | .unicast => c.seq.toNat
    | .mcast => (c.pkt.dst.toNat + c.pkt.coat.toNat <<< 12) + c.pktNo.toNat <<< 16 + (c.idx % 32) <<< 32
    | _ => c.room.toNat + c.member.toNat <<< 12 + c.tileCell.toNat <<< 19
  leBytes 12 (low + high <<< 56)

/-- Cells of an entry that have crossed. -/
def cellsGone (e : InPkt) : Nat := if e.kind = .contrib then e.gone.length else e.crossed

/-- Units that leave the input's buffer with a cell (R221). -/
def unitsFreed (e : InPkt) : Nat :=
  if cellsGone e + 1 = e.count then e.units - e.freed else if e.ct then min 4 (e.units - e.freed) else 0

/-- Frees units of an input's buffer: those of a link port return to the link, and at an internal one the packets that wait enter. -/
def freeUnits (i : PortId) (q : Fin 16) (u : Nat) (s : State) : State :=
  let s := modIn i (fun p => { p with free := p.free + u }) s
  match portLink i with
  | some l => if u = 0 then s else rxFree l q u s
  | none => admitEntering i (inPort s i).entering.length s

/-- Entry `e` of input `i` has sent a cell and is now `e'`: it leaves with its last, and its channel's count and the counts of R760 move
(R247). -/
def sentCell (i : PortId) (e e' : InPkt) (s : State) : State :=
  let s := modIn i (fun q => { q with
    queue := if cellsGone e' = e.count then q.queue.filter (fun x => x.uid ≠ e.uid) else q.queue.map (fun x => if x.uid = e.uid then e' else x),
    vc34 := if e.pkt.vc = 3 ∨ e.pkt.vc = 4 then q.vc34 + 1 else q.vc34 }) s
  { s with counts.pairs := tblMod (0, 0) s.counts.pairs i.val (fun p => (p.1, p.2 + 1)) }

/-- Input `i` sends a cell of contribution `e` to slice `m` (R238, R246). -/
def crossContrib (i m : PortId) (e : InPkt) (s : State) : State :=
  match e.adm, contribNext m e with
  | some a, some k =>
    let u := unitsFreed e
    let c := midSlice s m
    let s := setSlice s m { c with contrib := c.contrib ++ [contribCell s i m e a k] }
    freeUnits i e.resPart u (sentCell i e { e with gone := e.gone ++ [k], freed := e.freed + u } s)
  | _, _ => s

/-- Input `i` sends a cell of a unicast or multicast entry `e` to slice `m` (R244, R247, R250, R255, R256). -/
def crossOne (i m : PortId) (e : InPkt) (s : State) : State :=
  let outs := entryOuts s e
  let start := e.kind = .unicast && e.crossed = 0
  let u := unitsFreed e
  let s := if start then modOut e.out (fun p => { p with free := p.free - e.count }) s else s
  let s := modIn i (fun q => { q with
    used := if start then tblSet 0 q.used e.out.val (tblGet 0 q.used e.out.val + e.count) else q.used,
    sentTo := if paces e then outs.foldl (fun t o => tblMod 0 t o.val (· + 1)) q.sentTo else q.sentTo }) s
  let c := midSlice s m
  let s := if outs.isEmpty then s
    else setSlice s m { c with cells := c.cells ++ [{ cell := nextCell i e, outs := outs, enter := s.tick.ns, refs := outs.length }],
                               free := c.free - 1 }
  let s := freeUnits i e.resPart u (sentCell i e { e with crossed := e.crossed + 1, freed := e.freed + u } s)
  if e.kind = .unicast then trimBlocks i e.out s else s

/-- Stage one for input `i` in the current slot. -/
def stageOne (s : State) (i : PortId) : State :=
  let m := portOf (i.val + s.tick.slot)
  match leastKey (inKey s i m) ((inPort s i).queue.filter (eligibleIn s i m)) with
  | some e => if e.kind = .contrib then crossContrib i m e s else crossOne i m e s
  | none => s

/-! ### Stage two (R240, R241, R251, R252) -/

/-- A replica credit of a slice for an output is free (R251). -/
def replFree (c : Slice) (o : PortId) : Bool := decide (tblGet 0 c.repl o.val < 2)

/-- The cell that a slice sends to the output it meets (R252). -/
def pickOut (s : State) (c : Slice) (o : PortId) : Option SliceCell :=
  let wait := c.cells.filter (fun e => e.outs.contains o && decide (e.enter < s.tick.ns))
  match wait.find? (fun e => e.cell.kind = .result && replFree c o) with
  | some e => some e
  | none => wait.find? (fun e => e.cell.kind = .unicast || (e.cell.kind = .mcast && replFree c o))

/-- The cell leaves slice `m` for output `o`; it is freed with its last entry. `bad` tells that its read was uncorrectable (R250, R251,
R253). -/
def sendOut (m o : PortId) (bad : Bool) (e : SliceCell) (s : State) : State :=
  let c := midSlice s m
  let same := fun x : SliceCell => x.cell.uid = e.cell.uid && x.cell.idx = e.cell.idx && x.enter = e.enter
  let left := e.outs.filter (· ≠ o)
  let c := { c with
    cells := if left.isEmpty then c.cells.filter (fun x => !same x)
      else c.cells.map (fun x => if same x then { x with outs := left, refs := x.refs - 1, cell.bad := x.cell.bad || bad } else x),
    free := if left.isEmpty && e.cell.kind ≠ .result && e.owns then c.free + 1 else c.free,
    repl := if e.cell.kind = .unicast then c.repl else tblMod 0 c.repl o.val (· + 1) }
  let cell := { e.cell with dst := o, bad := e.cell.bad || bad }
  let s := modOut o (fun p => { p with arriving := p.arriving ++ [(cell, m.val)],
                                       free := if e.cell.kind = .unicast then p.free else p.free - 1 }) (setSlice s m c)
  { s with counts.pairs := tblMod (0, 0) s.counts.pairs (128 + o.val) (fun p => (p.1 + 1, p.2)) }

/-- Stage two for slice `m` in the current slot; `errs` are the slices whose read in it is uncorrectable: event 0x16 names row 4 of Table
22-7 and the packet's address (R253, R752). -/
def stageTwo (errs : List PortId) (s : State) (m : PortId) : State :=
  let o := portOf (m.val + s.tick.slot)
  match pickOut s (midSlice s m) o with
  | none => s
  | some e =>
    if errs.contains m then sendOut m o true e (raiseEv 0x16 4 (e.cell.pkt.addr.toNat + stDataError.toNat <<< 64) 0 s)
    else sendOut m o false e s

/-! ### Samples of the queues (R763, R764) -/

/-- Bin of a depth (R763). -/
def depthBin (n : Nat) : Nat :=
  if n = 0 then 0 else if n < 16 then 1 else if n < 64 then 2 else if n < 128 then 3 else if n < 256 then 4
  else if n < 512 then 5 else if n < 768 then 6 else 7

/-- Depth samples of every egress queue at slots 0, 128, … 896 (R763); `depth` is the depth of each in cells. -/
def sampleDepths (depth : LinkId → Nat → Nat) (s : State) : State :=
  if s.tick.slot % 128 = 0 && s.tick.slot ≤ 896 then
    allLinks.foldl (fun t l => (upFrom 0 8).foldl (fun t v =>
      bump l.val (24 * v + 13 + depthBin (depth l v)) 1 t) t) s
  else s

/-- At every phase 0 the counts against vc34_cap and of pacing restart (R247, R350). -/
def phaseZero (s : State) : State :=
  if s.tick.slot % 128 = 0 then
    { s with core.inp := tblMap {} (fun _ q => { q with vc34 := 0, sentTo := [] }) s.core.inp }
  else s

/-- Inputs in the order of the tie rule for loans (R255). -/
def tieInputs (s : State) : List PortId := (upFrom 0 128).map (fun k => portOf (k + 128 - (nowTick s).toNat % 128))

/-- Both stages of the core in one slot, after its loans (R240, R255). -/
def coreCross (errs : List PortId) (s : State) : State :=
  let s := (tieInputs s).foldl lendInput (phaseZero s)
  let s := allPorts.foldl (stageTwo errs) s
  allPorts.foldl stageOne s

/-! ### Outcome records (R316 to R319) -/

/-- Status that MC_OUTCOME carries (R319). -/
def recordStatus (r : Outcome) : BitVec 8 :=
  if r.outs.all (fun o => o.ok = r.itemLen) then stOk
  else if r.outs.any (fun o => o.ok = r.itemLen) then stPartial
  else match r.outs.find? (fun o => o.status ≠ 0) with
    | some o => o.status
    | none => stAged

/-- Bitmap that MC_OUTCOME carries (R319). -/
def recordMap (r : Outcome) : Nat := r.outs.foldl (fun m o => if o.ok = r.itemLen then m + 2 ^ o.out.val else m) 0

/-- Closes a record: MC_OUTCOME leaves from the Attic port (R319). -/
def closeRecord (r : Outcome) (s : State) : State :=
  let s := { s with route.records := s.route.records.filter (fun x => x.src ≠ r.src || x.tag ≠ r.tag) }
  inject 126 (withPayload (leBytes 16 (recordMap r))
    { opcode := 0xA0, vc := 1, last := true, dst := r.src, src := myNode s, tenant := r.tenant, tag := r.tag,
      status := recordStatus r, addr := BitVec.ofNat 64 r.group.toNat, itemLen := 16 }) s

/-- Every output of a record has delivered or failed the whole item (R318). -/
def recordFull (r : Outcome) : Bool := r.outs.all (fun o => decide (r.itemLen ≤ o.ok + o.bad))

/-- A copy of a multicast packet was delivered at, or failed for, an output (R316, R317). -/
def mcCount (o : PortId) (ok : Bool) (st : BitVec 8) (p : Packet) (s : State) : State :=
  match s.route.records.find? (fun r => r.src = p.src && r.tag = p.tag) with
  | none => s
  | some r =>
    let n := p.payLen.toNat
    let r := { r with outs := r.outs.map (fun x =>
      if x.out = o then { x with ok := if ok then x.ok + n else x.ok, bad := if ok then x.bad else x.bad + n,
                                 status := if ok || x.status ≠ 0 then x.status else st } else x) }
    if recordFull r then closeRecord r s
    else { s with route.records := s.route.records.map (fun x => if x.src = r.src && x.tag = r.tag then r else x) }

/-! ### The output stage (R257 to R270, R272) -/

/-- Stream index of a cell (R257). -/
def streamOf (c : Cell) : Nat := 8 * c.src.val + c.pkt.vc.val

/-- A cell is aged (R263). -/
def cellAged (s : State) (c : Cell) : Bool := ageLimit s < (s.tick.elapsed.setWidth 16 - c.ingress).toNat

/-- The output is a link port whose link is out of service (R272). -/
def outDown (s : State) (o : PortId) : Bool :=
  match portLink o with
  | some l => !(link s l).up && !ethMode s l.val
  | none => false

/-- Counts a cell that leaves an output, sent or discarded (R760). -/
def countLeft (o : PortId) (n : Nat) (s : State) : State :=
  { s with counts.pairs := tblMod (0, 0) s.counts.pairs (128 + o.val) (fun p => (p.1, p.2 + n)) }

/-- A cell of packet `uid` may still come to output `o`: from an input, a slice or stage two. -/
def stillComing (s : State) (o : PortId) (uid : Nat) : Bool :=
  s.core.inp.any (fun q => q.2.queue.any (·.uid = uid))
    || s.core.slice.any (fun m => m.2.cells.any (fun x => x.cell.uid = uid && x.outs.contains o))
    || (outPort s o).arriving.any (·.1.uid = uid)
    || (outPort s o).held.any (fun h => h.cell.uid = uid && !h.ghost)

/-- Forgets the discarded packets of an output of which no cell can come any more. -/
def forgetDead (o : PortId) (s : State) : State :=
  modOut o (fun p => { p with dead := p.dead.filter (stillComing s o), quiet := p.quiet.filter (stillComing s o) }) s

/-- Drops one unicast cell: its credit returns (R270). -/
def dropCell (o : PortId) (c : Cell) (s : State) : State := countLeft o 1 (freeCredits c.src o 1 s)

/-- A chunk of a weight stream is discarded at an output (R517). -/
def loseRef (o : PortId) (st : BitVec 8) (r : Ref) (s : State) : State :=
  match r with
  | .chunk _ _ _ _ => { s with core.lost := s.core.lost ++ [(o, r, st)] }
  | _ => s

/-- Status of a packet that an output discards for age: its link's failure goes before (R267, R272). -/
def lossStatus (s : State) (o : PortId) : BitVec 8 := if outDown s o then stLinkLost else stAged

/-- The first cell of a discarded unicast packet draws its FAIL and is counted, unless that has been done (R267, R288). -/
def failCell (o : PortId) (st : BitVec 8) (c : Cell) (s : State) : State :=
  if c.idx ≠ 0 || (outPort s o).quiet.contains c.uid then s
  else loseRef o st c.ref (sendFail o st c.pkt (bumpPort o (24 * c.pkt.vc.val + 11) s))

/-- Marks a packet as discarded at an output: cells that come later are dropped (R266). -/
def markDead (o : PortId) (uid : Nat) (s : State) : State :=
  modOut o (fun p => { p with dead := if p.dead.contains uid then p.dead else p.dead ++ [uid] }) s

/-- Cells of a discarded packet that wait for order are freed; their places in the stream stay (R266). A first cell among them draws
the FAIL (R267). -/
def freeHeld (o : PortId) (uid : Nat) (st : BitVec 8) (s : State) : State :=
  let mine := (outPort s o).held.filter (fun h => h.cell.uid = uid && !h.ghost)
  let s := modOut o (fun p => { p with held := p.held.map (fun h => if h.cell.uid = uid then { h with ghost := true } else h) }) s
  mine.foldl (fun s h => dropCell o h.cell (failCell o st h.cell s)) s

/-- Discards packet `uid` at an output: cells present are freed, later ones will be dropped, one that has started ends
with stomp (R266). The FAIL goes out from the first cell, with status `st` (R267, R272). -/
def discardAt (o : PortId) (uid : Nat) (st : BitVec 8) (s : State) : State :=
  let s := markDead o uid s
  match (outPort s o).pkts.find? (fun q => q.uid = uid) with
  | none => freeHeld o uid st s
  | some q =>
    if q.cut then s
    else
      let s := bumpPort o (24 * q.pkt.vc.val + 11) s
      let s := loseRef o st q.ref (if q.kind = .unicast then sendFail o st q.pkt s else mcCount o false st q.pkt s)
      if q.started then
        freeHeld o uid st (modOut o (fun p => { p with pkts := p.pkts.map (fun x => if x.uid = uid then { x with cut := true } else x) }) s)
      else
        let s := countLeft o q.have_ (modOut o (fun p => { p with pkts := p.pkts.filter (fun x => x.uid ≠ uid) }) s)
        let s := if !q.credit then s else if q.kind = .unicast then freeCredits q.src o q.have_ s else freeReplicas o q.slices s
        freeHeld o uid st s

/-- Takes a unicast cell that is in order (R257, R266, R272). -/
def acceptCell (o : PortId) (h : HeldCell) (s : State) : State :=
  let c := h.cell
  let p := outPort s o
  if h.ghost then s
  else if p.dead.contains c.uid then dropCell o c (failCell o (lossStatus s o) c s)
  else if c.idx = 0 then
    if outDown s o then dropCell o c (failCell o stLinkLost c (markDead o c.uid s))
    else setOut s o { p with pkts := p.pkts ++
      [{ uid := c.uid, pkt := c.pkt, kind := .unicast, src := c.src, count := c.count, have_ := 1, first := h.arrived, bad := c.bad,
         shared := h.shared.toNat, ref := c.ref }] }
  else if p.pkts.any (fun q => q.uid = c.uid) then
    setOut s o { p with pkts := p.pkts.map (fun q =>
      if q.uid = c.uid then { q with have_ := q.have_ + 1, bad := q.bad || c.bad, shared := q.shared + h.shared.toNat } else q) }
  else dropCell o c (markDead o c.uid s)

/-- Takes held cells of a stream while the next expected one is there: `fuel` bounds their number. -/
def drainHeld (o : PortId) (k : Nat) : Nat → State → State
  | 0, s => s
  | fuel + 1, s =>
    let p := outPort s o
    let e := tblGet 0 p.exp k
    match p.held.find? (fun h => streamOf h.cell = k && h.cell.seq = e) with
    | none => s
    | some h =>
      let p := { p with held := p.held.filter (fun x => !(streamOf x.cell = k && x.cell.seq = e)), exp := tblSet 0 p.exp k (e + 1) }
      drainHeld o k fuel (acceptCell o h (setOut s o p))

/-- A unicast cell arrives at an output (R257, R264, R267): behind the expected value it is discarded, and an aged cell ends its packet
at once. -/
def arriveUnicast (o : PortId) (c : Cell) (s : State) : State :=
  let k := streamOf c
  let e := tblGet 0 (outPort s o).exp k
  if 32768 ≤ (c.seq - e).toNat then dropCell o c (failCell o (lossStatus s o) c s)
  else
    let gone := cellAged s c || ((outPort s o).dead.contains c.uid)
    let s := if cellAged s c then discardAt o c.uid (lossStatus s o) s else s
    let s := if gone then dropCell o c (failCell o (lossStatus s o) c s) else s
    let s := modOut o (fun p => { p with held := p.held ++ [{ cell := c, arrived := s.tick.ns, ghost := gone }] }) s
    drainHeld o k ((outPort s o).held.length + 1) s

/-- A multicast cell arrives at an output (R258, R259, R264, R268, R272). -/
def arriveMcast (o : PortId) (c : Cell) (m : Nat) (s : State) : State :=
  let drop := fun s => countLeft o 1 (freeReplicas o [(m, 1)] s)
  let p := outPort s o
  if p.dead.contains c.uid then drop s
  else if cellAged s c || outDown s o then
    let st := lossStatus s o
    if p.pkts.any (fun q => q.uid = c.uid) then drop (discardAt o c.uid st s)
    else drop (markDead o c.uid (loseRef o st c.ref (mcCount o false st c.pkt (bumpPort o (24 * c.pkt.vc.val + 11) s))))
  else if p.pkts.any (fun q => q.uid = c.uid) then
    setOut s o { p with pkts := p.pkts.map (fun q => if q.uid = c.uid then
      { q with have_ := q.have_ + 1, idxs := q.idxs ++ [c.idx], slices := q.slices ++ [(m, 1)], bad := q.bad || c.bad,
               first := if c.idx = 0 then s.tick.ns else q.first } else q) }
  else setOut s o { p with pkts := p.pkts ++
      [{ uid := c.uid, pkt := c.pkt, kind := .mcast, src := c.src, count := c.count, have_ := 1, idxs := [c.idx],
         slices := [(m, 1)], first := s.tick.ns, bad := c.bad, ref := c.ref }] }

/-- The lowest held cell of a stream that came before this slot: the one least ahead of what is expected (R265). -/
def lowestHeld (now : Nat) (e : BitVec 16) (k : Nat) : List HeldCell → Option HeldCell
  | [] => none
  | h :: t =>
    let mine := streamOf h.cell = k && decide (h.arrived < now)
    match lowestHeld now e k t with
    | none => if mine then some h else none
    | some b => if mine && decide ((h.cell.seq - e).toNat < (b.cell.seq - e).toNat) then some h else some b

/-- CELL_AGE_SWEEP (R265, R266): sweeps the stream of the current slot at an output. When its lowest held cell is aged, the cells
before it are lost: the packet that they cut and the aged cell's own are discarded. -/
def ageSweep (o : PortId) (s : State) : State :=
  let k := s.tick.slot
  let p := outPort s o
  let e := tblGet 0 p.exp k
  if 1024 ≤ k then s
  else match lowestHeld s.tick.ns e k p.held with
    | none => s
    | some h =>
      if !cellAged s h.cell || h.cell.seq = e then s
      else
        let cutBefore := p.pkts.filter (fun q => q.kind = .unicast && 8 * q.src.val + q.pkt.vc.val = k && decide (q.have_ < q.count) && !q.cut)
        let s := cutBefore.foldl (fun s q => discardAt o q.uid (lossStatus s o) s) s
        let s := if h.ghost then s else discardAt o h.cell.uid (lossStatus s o) s
        let s := modOut o (fun p => { p with exp := tblSet 0 p.exp k h.cell.seq }) s
        forgetDead o (drainHeld o k (p.held.length + 1) s)

/-! ### Pool audits (R274 to R276) -/

/-- Sum that the audit of a pool compares, and its reference total (Table 7-10). Pools from 384 on do not exist. -/
def poolSum (s : State) (j : Nat) : Option (Nat × Nat) :=
  if j < 128 then
    let q := inPort s (portOf j)
    some (q.free + q.queue.foldl (fun n e => n + (e.units - e.freed)) 0, 16384)
  else if j < 256 then
    let c := midSlice s (portOf j)
    some (c.free + (c.cells.filter (fun x => x.cell.kind ≠ .result && x.owns)).length, 2048)
  else if j < 384 then
    let o := portOf j
    let p := outPort s o
    let used := allPorts.foldl (fun n i => n + tblGet 0 (inPort s i).used o.val) 0
    let repl := allPorts.foldl (fun n m => n + tblGet 0 (midSlice s m).repl o.val) 0
    some (p.free + used + repl, 1024)
  else none

/-- A stored multicast cell's reference count differs from its queue entries (Table 7-10). -/
def refsWrong (s : State) (j : Nat) : Bool :=
  decide (128 ≤ j) && decide (j < 256) && (midSlice s (portOf j)).cells.any (fun x => x.cell.kind = .mcast && x.refs ≠ x.outs.length)

/-- Slots that the rebuild of a pool takes (R275). -/
def rebuildSlots (j : Nat) : Nat := if j < 128 then 16384 else if j < 256 then 2048 else 1024

/-- POOL_AUDIT (R274, R275): in the ticks whose number mod 64 is the pool's own, the sum latched at step 2 is held against the reference
total, and each multicast cell's reference count against its entries; on a mismatch the part counts, reports and starts the rebuild. -/
def execPoolAudit (j : Fin 512) (s : State) : Out :=
  match poolSum s j.val, s.core.latched.find? (fun x => x.1 = j.val) with
  | some (_, ref), some (_, sum, wrong) =>
    .next (if atStep 6 s && hits s 64 j.val && (sum ≠ ref || wrong) then
      let s := auditMismatch 1 j.val 0 ((sum : Int) - ref) 0 s
      { s with core.rebuild := s.core.rebuild ++ [(j.val, s.tick.ns + rebuildSlots j.val)] }
    else s)
  | _, _ => .next s

/-- Entries of an input after the pass: units that an older entry holds as well stay with it, and the newer packet counts as bad. -/
def passInput (q : InPort) : InPort :=
  let l := q.queue.map (fun e => { e with units := e.units - e.shared, bad := e.bad || decide (e.shared ≠ 0), shared := 0 })
  { q with queue := l, free := 16384 - l.foldl (fun n e => n + (e.units - e.freed)) 0 }

/-- A slice after the pass: reference counts are those of the entries, and a cell whose pointer an older entry holds is bad. -/
def passSlice (c : Slice) : Slice :=
  let l := c.cells.map (fun x =>
    { x with refs := x.outs.length, cell.bad := x.cell.bad || x.shared, owns := x.owns && !x.shared, shared := false })
  { c with cells := l, free := 2048 - (l.filter (fun x => x.cell.kind ≠ .result && x.owns)).length }

/-- Packets of an output after the pass: one with a cell whose pointer an older entry holds is bad. -/
def passOutput (p : OutPort) : OutPort :=
  { p with pkts := p.pkts.map (fun q => { q with bad := q.bad || decide (q.shared ≠ 0), shared := 0 }),
           held := p.held.map (fun h => { h with cell.bad := h.cell.bad || h.shared, shared := false }) }

/-- The pass over a pool's pointers (R276): the free list holds every pointer that no queue holds, and no other; a pointer found in
two queues stays with the older entry, whose newer cell counts as bad. -/
def rebuildPool (j : Nat) (s : State) : State :=
  if j < 128 then modIn (portOf j) passInput s
  else if j < 256 then setSlice s (portOf j) (passSlice (midSlice s (portOf j)))
  else match poolSum s j with
    | none => s
    | some (sum, ref) => modOut (portOf j) (fun p => passOutput { p with free := ref - (sum - p.free) }) s

/-- POOL_REBUILD_DONE (R276): the pass over a pool's pointers ends. -/
def execPoolRebuildDone (j : Fin 512) (s : State) : Out :=
  match s.core.rebuild.find? (fun r => r.1 = j.val) with
  | some r =>
    if r.2 ≤ s.tick.ns then
      .next (rebuildPool j.val { s with core.rebuild := s.core.rebuild.filter (fun x => x.1 ≠ j.val) })
    else .next s
  | none => .next s

end Machine
end Sys2Proof
end

