-- ==== Sys2Proof/Machine/Pages.lean ====
section
/-!
DEFINITION. Counter pages (R758 to R767): what each page is, whose it is, and its image in a snapshot.
-/
namespace Sys2Proof
namespace Machine

/-- A page of Table 23-2: its kind, unit and number of counter words, and the function that owns it. -/
structure PageInfo where
  kind : Nat
  unit : Nat
  count : Nat
  fn : Option FnId := none
  owned : Bool := false
  deriving DecidableEq, Repr

/-- Table 23-2; reserved pages have no entry (R762). -/
def pageInfo (k : Nat) : Option PageInfo :=
  if k < 128 then some ⟨0, k, 208, none, false⟩
  else if k < 152 then some ⟨1, k - 128, 15, none, false⟩
  else if k = 152 then some ⟨2, 0, 25, none, false⟩
  else if k = 153 then some ⟨3, 0, 14, none, false⟩
  else if h : 256 ≤ k ∧ k < 1280 then some ⟨4, k - 256, 27, some (.group ⟨k - 256, by omega⟩), true⟩
  else if h : 1280 ≤ k ∧ k < 1344 then some ⟨5, k - 1280, 35, some (.stream ⟨k - 1280, by omega⟩), true⟩
  else if h : 1344 ≤ k ∧ k < 1600 then some ⟨6, k - 1344, 35, some (.kernel ⟨k - 1344, by omega⟩), true⟩
  else if 1600 ≤ k ∧ k < 1856 then some ⟨7, k - 1600, 14, none, true⟩
  else if 1856 ≤ k ∧ k < 1872 then some ⟨8, k - 1856 + 80, 53, none, false⟩
  else none

/-- Tenant bound to a page's function; a tenant page belongs to its tenant (R767). -/
def pageTenant (s : State) (k : Nat) : Option (BitVec 8) :=
  if 1600 ≤ k ∧ k < 1856 then some (BitVec.ofNat 8 (k - 1600)) else tblGet none s.counts.owner k

/-- The tenant may read the page: shared pages stand open, owned ones to the tenant of their function (R767). -/
def pageReadable (s : State) (tenant : BitVec 8) (k : Nat) : Bool :=
  match pageInfo k with
  | some i => !i.owned || pageTenant s k = some tenant
  | none => true

/-- Header and count words of a page in the snapshot (Table 23-1, R761); nothing for a reserved page. -/
def pageImage (s : State) (k : Nat) : List Byte :=
  match pageInfo k with
  | none => []
  | some i =>
    let gen := match i.fn with
      | some f => (fnGen s f).toNat
      | none => 0
    let ten := if i.owned then ((pageTenant s k).getD 0).toNat else 0
    leBytes 16 (s.counts.snapTick.toNat + i.kind <<< 48 + 4 <<< 56 + i.unit <<< 64 + gen <<< 80 + ten <<< 96 + i.count <<< 112)
      ++ List.replicate 16 0
      ++ (upFrom 0 i.count).flatMap (fun w => leBytes 8 (tblGet 0 s.counts.snap (k * 512 + w)).toNat)

/-- The page's 4,096 bytes (R761). -/
def pageBytes (s : State) (k : Nat) : List Byte := slice (pageImage s k) 0 4096

/-- Binds a function's page to a tenant: another tenant than before finds its counters at zero (R767). -/
def bindPage (k : Nat) (tenant : BitVec 8) (s : State) : State :=
  if tblGet none s.counts.owner k = some tenant then s
  else { s with
    counts.owner := tblSet none s.counts.owner k (some tenant)
    counts.now := (upFrom 0 64).foldl (fun t w => tblSet 0 t (k * 512 + w) 0) s.counts.now }

/-- Page of a group, stream, kernel, tenant and Ethernet link. -/
def groupPage (g : Nat) : Nat := 256 + g
def streamPage (k : Nat) : Nat := 1280 + k
def kernelPage (k : Nat) : Nat := 1344 + k
def tenantPage (t : Nat) : Nat := 1600 + t
def ethPage (l : Nat) : Nat := 1856 + (l - 80)
def stackPage (s : Nat) : Nat := 128 + s
abbrev hawkPage : Nat := 153

end Machine
end Sys2Proof
end

