-- ==== Sys2Proof/Machine/Flags.lean ====
section
/-!
DEFINITION. Floating-point values, their formats, rounding and the sticky flags (R354 to R365, R575 to R578, R815): the
exact value first, one rounding at the end.
-/
namespace Sys2Proof
namespace Machine

/-- A floating-point value: a NaN, an infinity, or (-1)^s × m × 2^e exactly. -/
inductive Fp where
  | nan
  | inf (s : Bool)
  | num (s : Bool) (m : Nat) (e : Int)
  deriving DecidableEq, Repr

/-- A floating-point format of Table 10-1: width, bias, fraction bits, whether it has Inf, the pattern of its largest finite
magnitude and its canonical NaN (Table 10-2). -/
structure FpFmt where
  width : Nat
  bias : Nat
  fb : Nat
  hasInf : Bool
  maxPat : Nat
  nanPat : Nat
  deriving DecidableEq, Repr

def fp32 : FpFmt := ⟨32, 127, 23, true, 0x7F7FFFFF, 0x7FC00000⟩
def bf16 : FpFmt := ⟨16, 127, 7, true, 0x7F7F, 0x7FC0⟩
def fp16 : FpFmt := ⟨16, 15, 10, true, 0x7BFF, 0x7E00⟩
def e4m3 : FpFmt := ⟨8, 7, 3, false, 0x7E, 0x7F⟩
def e5m2 : FpFmt := ⟨8, 15, 2, true, 0x7B, 0x7E⟩

/-- FP4 (E2M1), the element of MXFP4 (Table 10-3). -/
def fp4 : FpFmt := ⟨4, 1, 1, false, 7, 7⟩

/-- Floating-point format of a format code (Table 10-1); none for MXFP4, the integers and reserved codes. -/
def fmtOf : Nat → Option FpFmt
  | 0 => some fp32
  | 1 => some bf16
  | 2 => some fp16
  | 3 => some e4m3
  | 4 => some e5m2
  | _ => none

/-- Bits per element of a format code (Table 16-5); MXFP4's scales are held apart. -/
def fmtWidth : Nat → Nat
  | 0 => 32
  | 1 => 16
  | 2 => 16
  | 3 => 8
  | 4 => 8
  | 5 => 4
  | 6 => 32
  | _ => 8

/-- Rounding modes (Table 10-5). -/
inductive Rnd where
  | rne | rtz | rup | rdn
  deriving DecidableEq, Repr

/-- Mode of its 2-bit code. -/
def rndOf : Nat → Rnd
  | 0 => .rne
  | 1 => .rtz
  | 2 => .rup
  | _ => .rdn

/-- The sticky flags of R577: NaN made, overflow, tiny or flushed, inexact, integer clamp. -/
abbrev FpFlags := BitVec 5

abbrev flNan : FpFlags := 1
abbrev flOver : FpFlags := 2
abbrev flTiny : FpFlags := 4
abbrev flInexact : FpFlags := 8
abbrev flClamp : FpFlags := 16

/-- Sign bit of a pattern of the format. -/
def signPat (f : FpFmt) (s : Bool) : Nat := s.toNat * 2 ^ (f.width - 1)

/-- The value that a pattern encodes (R354). -/
def decodeFp (f : FpFmt) (pat : Nat) : Fp :=
  let s := bitsOf pat (f.width - 1) 1 = 1
  let mag := pat % 2 ^ (f.width - 1)
  let ex := mag / 2 ^ f.fb
  let fr := mag % 2 ^ f.fb
  if f.maxPat < mag then (if f.hasInf && fr = 0 then .inf s else .nan)
  else if ex = 0 then .num s fr (1 - (f.bias : Int) - f.fb)
  else .num s (2 ^ f.fb + fr) ((ex : Int) - f.bias - f.fb)

/-- m × 2^sh rounded to an integer under a mode, for a value of sign `s`; and whether the rounding is inexact (R361). -/
def shiftRound (mode : Rnd) (s : Bool) (m : Nat) (sh : Int) : Nat × Bool :=
  if 0 ≤ sh then (m <<< sh.toNat, false)
  else
    let n := (-sh).toNat
    let q := m >>> n
    let r := m % 2 ^ n
    let half := 2 ^ (n - 1)
    let up := match mode with
      | .rne => decide (half < r) || (r = half && q % 2 = 1)
      | .rtz => false
      | .rup => !s && r ≠ 0
      | .rdn => s && r ≠ 0
    (if up then q + 1 else q, r ≠ 0)

/-- Pattern written on overflow (Table 10-6). -/
def overflowPat (f : FpFmt) (mode : Rnd) (sat s : Bool) : Nat :=
  if sat || mode = .rtz || (mode = .rup && s) || (mode = .rdn && !s) then signPat f s + f.maxPat
  else if f.hasInf then signPat f s + (f.maxPat / 2 ^ f.fb + 1) * 2 ^ f.fb
  else f.nanPat

/-- Exponent of the last place kept for a value whose leading bit has weight 2^top, and the exponent field less one. -/
def lastPlace (f : FpFmt) (top : Int) : Int × Nat :=
  let emin : Int := 1 - f.bias
  (max top emin - f.fb, (max top emin - emin).toNat)

/-- A value rounded once into a format (R355, R361 to R363), with the flags of R577 that the rounding sets. -/
def encodeFp (f : FpFmt) (mode : Rnd) (sat : Bool) : Fp → Nat × FpFlags
  | .nan => (f.nanPat, 0)
  | .inf s => if f.hasInf then (signPat f s + (f.maxPat / 2 ^ f.fb + 1) * 2 ^ f.fb, 0) else (overflowPat f mode sat s, flOver)
  | .num s m e =>
    if m = 0 then (signPat f s, 0)
    else
      let (q, x) := lastPlace f (Nat.log2 m + e)
      let (k, inexact) := shiftRound mode s m (e - q)
      let pat := k + x * 2 ^ f.fb
      let fi : FpFlags := if inexact then flInexact else 0
      if f.maxPat < pat then (overflowPat f mode sat s, flOver ||| flInexact)
      else if pat < 2 ^ f.fb then (signPat f s + pat, fi ||| flTiny)
      else (signPat f s + pat, fi)

/-- The value is a NaN. -/
def Fp.isNan : Fp → Bool
  | .nan => true
  | _ => false

/-- The value is a zero. -/
def Fp.isZero : Fp → Bool
  | .num _ m _ => m = 0
  | _ => false

/-- The value's sign, false for a NaN. -/
def Fp.sgn : Fp → Bool
  | .nan => false
  | .inf s => s
  | .num s _ _ => s

/-- Negation. -/
def Fp.neg : Fp → Fp
  | .nan => .nan
  | .inf s => .inf (!s)
  | .num s m e => .num (!s) m e

/-- The exact product; an infinity times zero is NaN (R584). -/
def Fp.mul : Fp → Fp → Fp
  | .nan, _ => .nan
  | _, .nan => .nan
  | .inf s, .inf t => .inf (s != t)
  | .inf s, .num t m _ => if m = 0 then .nan else .inf (s != t)
  | .num s m _, .inf t => if m = 0 then .nan else .inf (s != t)
  | .num s m e, .num t n d => .num (s != t) (m * n) (e + d)

/-- Least exponent of the finite terms. -/
def minExp : List Fp → Option Int
  | [] => none
  | .num _ m e :: t => if m = 0 then minExp t else match minExp t with
    | none => some e
    | some d => some (min e d)
  | _ :: t => minExp t

/-- A finite term as a multiple of 2^e0. -/
def scaled (e0 : Int) : Fp → Int
  | .num s m e => (if s then -1 else 1) * ((m * 2 ^ (e - e0).toNat : Nat) : Int)
  | _ => 0

/-- The exact sum of terms; a zero result takes its sign by R815, and infinities of both signs give NaN. -/
def sumFp (mode : Rnd) (ts : List Fp) : Fp :=
  if ts.any Fp.isNan then .nan
  else if ts.contains (.inf true) && ts.contains (.inf false) then .nan
  else if ts.contains (.inf true) then .inf true
  else if ts.contains (.inf false) then .inf false
  else
    let e0 := (minExp ts).getD 0
    let n := ts.foldl (fun a t => a + scaled e0 t) (0 : Int)
    if n = 0 then
      let s := if ts.all (fun t => t.isZero && t.sgn) then true
        else if ts.all (fun t => t.isZero && !t.sgn) then false else mode = .rdn
      .num s 0 0
    else .num (decide (n < 0)) n.natAbs e0

/-- The NaN flag: a NaN that no operand gave (R577). -/
def nanMade (r : Fp) (ops : List Fp) : FpFlags := if r.isNan && !ops.any Fp.isNan then flNan else 0

/-- An exact result of some operands, rounded into a format with its flags. -/
def finishFp (f : FpFmt) (mode : Rnd) (sat : Bool) (ops : List Fp) (r : Fp) : Nat × FpFlags :=
  let (p, g) := encodeFp f mode sat r
  (p, g ||| nanMade r ops)

/-- Addition of two patterns, rounded once (R575). -/
def fpAdd (f : FpFmt) (mode : Rnd) (sat : Bool) (a b : Nat) : Nat × FpFlags :=
  let x := decodeFp f a
  let y := decodeFp f b
  finishFp f mode sat [x, y] (sumFp mode [x, y])

/-- Subtraction. -/
def fpSub (f : FpFmt) (mode : Rnd) (sat : Bool) (a b : Nat) : Nat × FpFlags :=
  let x := decodeFp f a
  let y := decodeFp f b
  finishFp f mode sat [x, y] (sumFp mode [x, y.neg])

/-- Multiplication. -/
def fpMul (f : FpFmt) (mode : Rnd) (sat : Bool) (a b : Nat) : Nat × FpFlags :=
  let x := decodeFp f a
  let y := decodeFp f b
  finishFp f mode sat [x, y] (x.mul y)

/-- Fused multiply-add: one rounding. -/
def fpFma (f : FpFmt) (mode : Rnd) (sat : Bool) (a b c : Nat) : Nat × FpFlags :=
  let x := decodeFp f a
  let y := decodeFp f b
  let z := decodeFp f c
  finishFp f mode sat [x, y, z] (sumFp mode [x.mul y, z])

/-- Division, an operation of the library kernels only. -/
def fpDiv (f : FpFmt) (mode : Rnd) (a b : Nat) : Nat :=
  match decodeFp f a, decodeFp f b with
  | .nan, _ => f.nanPat
  | _, .nan => f.nanPat
  | .inf _, .inf _ => f.nanPat
  | .inf s, .num t _ _ => (encodeFp f mode false (.inf (s != t))).1
  | .num s _ _, .inf t => signPat f (s != t)
  | .num s m e, .num t n d =>
    if n = 0 then (if m = 0 then f.nanPat else (encodeFp f mode false (.inf (s != t))).1)
    else
      let q := (m * 2 ^ 80) / n
      let r := (m * 2 ^ 80) % n
      (encodeFp f mode false (.num (s != t) (2 * q + (decide (r ≠ 0)).toNat) (e - d - 81))).1

/-- x < y as real values; false with a NaN. -/
def Fp.lt : Fp → Fp → Bool
  | .nan, _ => false
  | _, .nan => false
  | .inf s, .inf t => s && !t
  | .inf s, .num _ _ _ => s
  | .num _ _ _, .inf t => !t
  | x, y =>
    let e0 := (minExp [x, y]).getD 0
    decide (scaled e0 x < scaled e0 y)

/-- x = y as real values; false with a NaN. -/
def Fp.eqv (x y : Fp) : Bool := !x.isNan && !y.isNan && !x.lt y && !y.lt x

/-- x before y in the order of minima and maxima, −0 below +0. -/
def Fp.below (x y : Fp) : Bool := x.lt y || (x.isZero && y.isZero && x.sgn && !y.sgn)

/-- Minimum or maximum of two patterns (Table 16-8): a NaN operand gives the canonical NaN. -/
def fpMinMax (f : FpFmt) (isMax : Bool) (a b : Nat) : Nat :=
  let x := decodeFp f a
  let y := decodeFp f b
  if x.isNan || y.isNan then f.nanPat
  else if isMax then (if x.below y then b else a) else (if y.below x then b else a)

/-- A pattern of one format in another (R362, R363). -/
def fpConv (g f : FpFmt) (mode : Rnd) (sat : Bool) (a : Nat) : Nat × FpFlags := encodeFp f mode sat (decodeFp g a)

/-- An integer as a value. -/
def fpOfInt (n : Int) : Fp := .num (decide (n < 0)) n.natAbs 0

/-- An integer clamped to a range, with the clamp flag (R364, R576). -/
def clampInt (lo hi n : Int) : Int × FpFlags :=
  if n < lo then (lo, flClamp) else if hi < n then (hi, flClamp) else (n, 0)

/-- Conversion to an integer range (R364). -/
def fpToInt (mode : Rnd) (lo hi : Int) : Fp → Int × FpFlags
  | .nan => (0, 0)
  | .inf s => (if s then lo else hi, flClamp)
  | .num s m e =>
    let (k, inexact) := shiftRound mode s m e
    let (n, g) := clampInt lo hi (if s then -(k : Int) else k)
    (n, if inexact then g ||| flInexact else g)

/-! ### Functions of FP32 (R578) -/

/-- Precision of the fixed-point evaluations, in fraction bits. -/
def fxBits : Nat := 256

/-- The series Σ y^k / k! with `n` terms after the first, in fixed point. -/
def expSeries (y : Int) : Nat → Nat → Int → Int → Int
  | 0, _, _, acc => acc
  | n + 1, k, t, acc =>
    let t' := t * y / (2 ^ fxBits : Int) / (k : Int)
    expSeries y n (k + 1) t' (acc + t')

/-- The series Σ y^(2k+1) / (2k+1), in fixed point. -/
def atanhSeries (y2 : Int) : Nat → Nat → Int → Int → Int
  | 0, _, _, acc => acc
  | n + 1, k, p, acc => atanhSeries y2 n (k + 2) (p * y2 / (2 ^ fxBits : Int)) (acc + p / (k : Int))

/-- ln 2 in fixed point: twice the inverse hyperbolic tangent of 1/3. -/
def ln2Fx : Int :=
  let y : Int := 2 ^ fxBits / 3
  2 * atanhSeries (2 ^ fxBits / 9) 90 1 y 0

/-- A finite value in fixed point, rounded down. -/
def toFx (s : Bool) (m : Nat) (e : Int) : Int :=
  let k : Int := e + fxBits
  let n : Int := if 0 ≤ k then m * 2 ^ k.toNat else (m / 2 ^ (-k).toNat : Nat)
  if s then -n else n

/-- A positive fixed-point value that is not exact, as a value: its last bit tells that more follow. -/
def stickyFx (n : Int) (e : Int) : Fp := .num false (2 * n.toNat + 1) (e - fxBits - 1)

/-- e^(y) for a fixed-point y (log 15). -/
def expFx (y : Int) : Fp :=
  let k := y / ln2Fx
  let r := y - k * ln2Fx
  stickyFx (expSeries r 80 1 (2 ^ fxBits) (2 ^ fxBits)) k

/-- A result beyond every FP32 value, and one below every FP32 magnitude. -/
def hugeFp : Fp := .num false 1 400
def tinyFp : Fp := .num false 1 (-400)

/-- e^x (Table 16-6). -/
def fpExp : Fp → Fp
  | .nan => .nan
  | .inf s => if s then .num false 0 0 else .inf false
  | .num s m e =>
    if m = 0 then .num false 1 0
    else if 8 ≤ (Nat.log2 m : Int) + e then (if s then tinyFp else hugeFp)
    else expFx (toFx s m e)

/-- 2^x (Table 16-6); exact for an integer x. -/
def fpExp2 : Fp → Fp
  | .nan => .nan
  | .inf s => if s then .num false 0 0 else .inf false
  | .num s m e =>
    if m = 0 then .num false 1 0
    else if 9 ≤ (Nat.log2 m : Int) + e then (if s then tinyFp else hugeFp)
    else
      let y := toFx s m e
      let k := y / (2 ^ fxBits : Int)
      let r := y - k * 2 ^ fxBits
      if r = 0 then .num false 1 k
      else stickyFx (expSeries (r * ln2Fx / (2 ^ fxBits : Int)) 80 1 (2 ^ fxBits) (2 ^ fxBits)) k

/-- log2 x (Table 16-6); exact for a power of two. -/
def fpLog2 : Fp → Fp
  | .nan => .nan
  | .inf s => if s then .nan else .inf false
  | .num s m e =>
    if m = 0 then .inf true
    else if s then .nan
    else
      let top : Int := Nat.log2 m + e
      if m = 2 ^ Nat.log2 m then fpOfInt top
      else
        let x := toFx false m (-(Nat.log2 m : Int))
        let one : Int := 2 ^ fxBits
        let y := (x - one) * one / (x + one)
        let ln := 2 * atanhSeries (y * y / one) 120 1 y 0
        let v := top * one + ln * one / ln2Fx
        .num (decide (v < 0)) (2 * v.natAbs + 1) (-(fxBits : Int) - 1)

/-- 1 / x (Table 16-6). -/
def fpRcp : Fp → Fp
  | .nan => .nan
  | .inf s => .num s 0 0
  | .num s m e =>
    if m = 0 then .inf s
    else .num s (2 * (2 ^ 100 / m) + (decide (2 ^ 100 % m ≠ 0)).toNat) (-e - 101)

/-- √x (Table 16-6): an integer square root of 100 bits and whether it is exact. -/
def fpSqrt : Fp → Fp
  | .nan => .nan
  | .inf s => if s then .nan else .inf false
  | .num s m e =>
    if m = 0 then .num s 0 0
    else if s then .nan
    else
      let odd := (e % 2).toNat
      let n := m * 2 ^ (200 + odd)
      let r := Nat.sqrt n
      .num false (2 * r + (decide (r * r ≠ n)).toNat) ((e - odd - 200) / 2 - 1)

/-- 1 / √x (Table 16-6): √(2^400 / x) and whether it is exact. -/
def fpRsqrt : Fp → Fp
  | .nan => .nan
  | .inf s => if s then .nan else .num false 0 0
  | .num s m e =>
    if m = 0 then .inf s
    else if s then .nan
    else
      let odd := (e % 2).toNat
      let n := 2 ^ 400 / (m * 2 ^ odd)
      let r := Nat.sqrt n
      let exact := decide (r * r * (m * 2 ^ odd) = 2 ^ 400)
      .num false (2 * r + (!exact).toNat) ((odd - e) / 2 - 201)

/-- A one-operand function of FP32 with its flags. -/
def fpFun (g : Fp → Fp) (mode : Rnd) (sat : Bool) (a : Nat) : Nat × FpFlags :=
  let x := decodeFp fp32 a
  finishFp fp32 mode sat [x] (g x)

end Machine
end Sys2Proof
end

