-- ==== Sys2Proof/Machine/Skim.lean ====
section
/-!
DEFINITION. Arrays of elements in memory and the Skim codecs (R356 to R360, R366 to R383): MXFP4 superblocks, Skim-Z, Skim-B
and Skim-X.
-/
namespace Sys2Proof
namespace Machine

/-! ### Format specifiers (Table 10-4) -/

/-- A format specifier. -/
structure FmtSpec where
  fmt : Nat := 0
  coding : Nat := 0
  rnd : Rnd := .rne
  sat : Bool := false
  rsv : Nat := 0
  deriving DecidableEq, Repr

/-- The specifier that 16 bits spell (R359). -/
def specOf (w : Nat) : FmtSpec :=
  { fmt := bitsOf w 0 4, coding := bitsOf w 4 2, rnd := rndOf (bitsOf w 6 2), sat := bitsOf w 8 1 = 1, rsv := bitsOf w 9 7 }

/-- The carrier admits the Skim-B coding (Table 10-8); codings 0 and 1 name no carrier. -/
def carrierOk (fmt coding : Nat) : Bool :=
  match coding with
  | 2 => fmt ≤ 2
  | 3 => fmt = 0 || fmt = 2
  | _ => true

/-- The specifier names a format of Table 10-1, a coding that its format allows, and zeros (R360). -/
def FmtSpec.ok (f : FmtSpec) : Bool := decide (f.fmt < 8) && carrierOk f.fmt f.coding && f.rsv = 0

/-- Bytes of `n` elements of plain data (R357, Table 10-1). -/
def plainLen (fmt n : Nat) : Nat := if fmt = 5 then 272 * ceilDiv n 512 else n * (fmtWidth fmt / 8)

/-- Bytes of a Skim-Z unit (R368). -/
def unitBytes (fmt : Nat) : Nat := if fmt = 0 ∨ fmt = 6 then 4 else if fmt = 1 ∨ fmt = 2 then 2 else 1

/-! ### Elements -/

/-- The value of an element pattern of a format other than MXFP4 (R354). -/
def elemValue (fmt pat : Nat) : Fp :=
  match fmtOf fmt with
  | some f => decodeFp f pat
  | none => fpOfInt (signed (fmtWidth fmt) pat)

/-- The pattern of a value in a format other than MXFP4 (R362 to R365). -/
def elemPat (fmt : Nat) (mode : Rnd) (sat : Bool) (v : Fp) : Nat × FpFlags :=
  match fmtOf fmt with
  | some f => encodeFp f mode sat v
  | none =>
    let w := fmtWidth fmt
    let (n, g) := fpToInt mode (-(2 : Int) ^ (w - 1)) (2 ^ (w - 1) - 1) v
    ((n % (2 : Int) ^ w).toNat, g)

/-- Value of an MXFP4 element under a scale byte (R356). -/
def mxValue (x pat : Nat) : Fp :=
  if x = 0xFF then .nan
  else match decodeFp fp4 pat with
    | .num s m e => .num s m (e + x - 127)
    | v => v

/-- The values of a superblock of 512 elements (R357). -/
def mxSuper (bs : List Byte) : List Fp :=
  (upFrom 0 512).map (fun j => mxValue (leAt bs (j / 32) 1) (bitsOf (leAt bs (16 + j / 2) 1) (4 * (j % 2)) 4))

/-- The values of `n` elements of plain data. -/
def plainValues (fmt n : Nat) (bs : List Byte) : List Fp :=
  if fmt = 5 then ((upFrom 0 (ceilDiv n 512)).flatMap (fun k => mxSuper (slice bs (272 * k) 272))).take n
  else (upFrom 0 n).map (fun j => elemValue fmt (leAt bs (j * (fmtWidth fmt / 8)) (fmtWidth fmt / 8)))

/-- Magnitude of a value. -/
def Fp.abs : Fp → Fp
  | .nan => .nan
  | .inf _ => .inf false
  | .num _ m e => .num false m e

/-- Largest of a list of magnitudes. -/
def maxAbs (xs : List Fp) : Fp := xs.foldl (fun a x => if a.lt x.abs then x.abs else a) (.num false 0 0)

/-- encode_mx (R358): the scale byte and the element patterns of a block, with their flags. -/
def encodeMx (mode : Rnd) (xs : List Fp) : Nat × List (Nat × FpFlags) :=
  if xs.any (fun x => x.isNan || x.abs = .inf false) then (0xFF, xs.map (fun _ => (0, 0)))
  else match maxAbs xs with
    | .num _ m e =>
      if m = 0 then (0, xs.map (fun x => (signPat fp4 x.sgn, 0)))
      else
        let xs' := (max 0 (min 254 ((Nat.log2 m : Int) + e - 2 + 127))).toNat
        (xs', xs.map (fun x => match x with
          | .num s m e => encodeFp fp4 mode true (.num s m (e - xs' + 127))
          | v => encodeFp fp4 mode true v))
    | _ => (0xFF, xs.map (fun _ => (0, 0)))

/-- A superblock from 512 values (R357, R358). -/
def mxBytes (mode : Rnd) (xs : List Fp) : List Byte :=
  let xs := xs ++ List.replicate (512 - xs.length) (.num false 0 0)
  let blocks := (upFrom 0 16).map (fun b => encodeMx mode ((xs.drop (32 * b)).take 32))
  let els := blocks.flatMap (fun b => b.2.map (·.1))
  blocks.map (fun b => BitVec.ofNat 8 b.1) ++
    (upFrom 0 256).map (fun j => BitVec.ofNat 8 (els.getD (2 * j) 0 + 16 * els.getD (2 * j + 1) 0))

/-- `n` values as plain data of a format. -/
def plainBytes (fmt : Nat) (mode : Rnd) (sat : Bool) (xs : List Fp) : List Byte :=
  if fmt = 5 then (upFrom 0 (ceilDiv xs.length 512)).flatMap (fun k => mxBytes mode ((xs.drop (512 * k)).take 512))
  else xs.flatMap (fun x => leBytes (fmtWidth fmt / 8) (elemPat fmt mode sat x).1)

/-! ### Skim-Z (R368 to R371) -/

/-- Number of set bits among the first `n` bits. -/
def popCount (w n : Nat) : Nat := (upFrom 0 n).foldl (fun c j => c + bitsOf w j 1) 0

/-- Decodes `n` units of `w` bytes; none when a group breaks R371. `fuel` bounds the groups. -/
def decodeZ (w : Nat) : Nat → Nat → List Byte → Option (List Byte)
  | 0, _, _ => some []
  | fuel + 1, n, bs =>
    if n = 0 then some []
    else
      let here := min n 64
      let map := leAt bs 0 8
      let used := popCount map 64
      if bs.length < 8 + w * used || map >>> here ≠ 0 then none
      else
        let units := (upFrom 0 here).flatMap (fun j =>
          if bitsOf map j 1 = 1 then slice bs (8 + w * popCount map j) w else List.replicate w 0)
        (decodeZ w fuel (n - here) (bs.drop (8 + w * used))).map (units ++ ·)

/-- Bytes of encoded groups that hold `n` units (R370); none when the data ends first. -/
def lenZ (w : Nat) : Nat → Nat → List Byte → Nat
  | 0, _, _ => 0
  | fuel + 1, n, bs =>
    if n = 0 then 0
    else
      let used := 8 + w * popCount (leAt bs 0 8) 64
      used + lenZ w fuel (n - min n 64) (bs.drop used)

/-- Encodes units of `w` bytes, 64 to a group (R369): `fuel` bounds the groups. -/
def encodeZ (w : Nat) : Nat → List Byte → List Byte
  | 0, _ => []
  | fuel + 1, bs =>
    if bs.isEmpty then []
    else
      let units := (upFrom 0 (min 64 (ceilDiv bs.length w))).map (fun j => slice bs (w * j) w)
      let map := (upFrom 0 units.length).foldl (fun m j => if (units.getD j []).all (· = 0) then m else m + 2 ^ j) 0
      leBytes 8 map ++ (units.filter (fun u => !u.all (· = 0))).flatten ++ encodeZ w fuel (bs.drop (64 * w))

/-! ### Skim-B (R372 to R377) -/

/-- Mantissa bits of a Skim-B coding. -/
def skimK (coding : Nat) : Nat := if coding = 2 then 7 else 11

/-- Biased exponent of an FP32 pattern, 0 for zero and subnormals (R375). -/
def bexp (pat : Nat) : Nat := bitsOf pat 23 8

/-- Mantissas of a block at exponent `e` (R375). -/
def skimMants (k e : Nat) (xs : List Nat) : List Nat :=
  xs.map (fun x => match decodeFp fp32 x with
    | .num _ m ex => (shiftRound .rne false m (ex - ((e : Int) - 126 - k))).1
    | _ => 0)

/-- encode_b on up to 32 FP32 patterns: E and, for each, sign and mantissa (R375, R376). -/
def encodeB (k : Nat) (xs : List Nat) : Nat × List (Bool × Nat) :=
  let sign := fun x => bitsOf x 31 1 = 1
  if xs.any (fun x => bexp x = 255) then
    (0xFF, xs.map (fun x => (decide (sign x), if bexp x ≠ 255 then 0 else if x % 2 ^ 23 = 0 then 2 ^ k - 1 else 2 ^ k - 2)))
  else
    let e0 := max 1 (xs.foldl (fun a x => max a (bexp x)) 0)
    let m0 := skimMants k e0 xs
    let e := if m0.all (· < 2 ^ k) || e0 = 254 then e0 else e0 + 1
    let ms := (skimMants k e xs).map (fun m => if e = 254 then min m (2 ^ k - 1) else m)
    (e, (xs.zip ms).map (fun p => (decide (sign p.1), p.2)))

/-- Value of an element of a block (R374, R376). -/
def decodeB (k e : Nat) (s : Bool) (m : Nat) : Fp :=
  if e = 0 then .num s 0 0
  else if e = 0xFF then (if m = 2 ^ k - 1 then .inf s else if m = 2 ^ k - 2 then .nan else .num s 0 0)
  else .num s m ((e : Int) - 126 - k)

/-- Bytes of a Skim-B block (R372, R373). -/
def skimBlock (k : Nat) : Nat := if k = 7 then 33 else 49

/-- Bytes of an encoded block. -/
def skimBytes (k : Nat) (b : Nat × List (Bool × Nat)) : List Byte :=
  let fields := (upFrom 0 32).map (fun j => let p := b.2.getD j (false, 0); p.1.toNat * 2 ^ k + p.2)
  BitVec.ofNat 8 b.1 :: leBytes (skimBlock k - 1) ((upFrom 0 32).foldl (fun a j => a + fields.getD j 0 <<< ((k + 1) * j)) 0)

/-- Encodes carrier values (as FP32 patterns) in Skim-B (R375, R377). -/
def encodeSkimB (coding : Nat) (xs : List Nat) : List Byte :=
  let k := skimK coding
  (upFrom 0 (ceilDiv xs.length 32)).flatMap (fun b => skimBytes k (encodeB k ((xs.drop (32 * b)).take 32)))

/-- Decodes `n` Skim-B elements to values. -/
def decodeSkimB (coding n : Nat) (bs : List Byte) : List Fp :=
  let k := skimK coding
  (upFrom 0 n).map (fun j =>
    let blk := slice bs (skimBlock k * (j / 32)) (skimBlock k)
    let f := bitsOf (leAt blk 1 (skimBlock k - 1)) ((k + 1) * (j % 32)) (k + 1)
    decodeB k (leAt blk 0 1) (decide (2 ^ k ≤ f)) (f % 2 ^ k))

/-- Bytes of `n` elements of a format under a coding with whole blocks; Skim-Z has no fixed length. -/
def codedLen (fmt coding n : Nat) : Nat :=
  if coding = 2 ∨ coding = 3 then skimBlock (skimK coding) * ceilDiv n 32 else plainLen fmt n

/-- Plain data of `n` elements from coded data (R366): none when a Skim-Z group breaks R371. -/
def decodeSkim (fmt coding n : Nat) (bs : List Byte) : Option (List Byte) :=
  if coding = 1 then
    let w := unitBytes fmt
    decodeZ w (plainLen fmt n / w / 64 + 1) (plainLen fmt n / w) bs
  else if coding = 0 then some (slice bs 0 (plainLen fmt n))
  else some ((decodeSkimB coding n bs).flatMap (fun v => leBytes (fmtWidth fmt / 8) (elemPat fmt .rne true v).1))

/-- Plain data of `n` elements in a coding (R366, R367). -/
def encodeSkim (fmt coding n : Nat) (bs : List Byte) : List Byte :=
  if coding = 1 then encodeZ (unitBytes fmt) (bs.length / 64 + 1) bs
  else if coding = 0 then bs
  else encodeSkimB coding ((plainValues fmt n bs).map (fun v => (encodeFp fp32 .rne false v).1))

/-! ### Skim-X (R379 to R383) -/

/-- The pairs of Table 10-10, and a target equal to the stored format. -/
def skimXok (stored target : Nat) : Bool :=
  stored = target || (stored = 5 && (decide (1 ≤ target) && decide (target ≤ 4)))
    || ((stored = 3 || stored = 4) && (target = 1 || target = 2))

/-- What Skim-X counts per stream (R383): overflows, flushes and NaN expansions. -/
structure XCount where
  ovf : Nat := 0
  flush : Nat := 0
  nans : Nat := 0
  deriving DecidableEq, Repr

/-- Smallest normal exponent of a format. -/
def minNormal (f : FpFmt) : Int := 1 - f.bias

/-- One value expanded to a target (R380 to R382). -/
def expandOne (mx : Bool) (f : FpFmt) (sat : Bool) (v : Fp) : Nat × XCount :=
  match v with
  | .nan => (f.nanPat, { nans := 1 })
  | .inf _ => ((encodeFp f .rne sat v).1, {})
  | .num s m e =>
    if mx && m ≠ 0 && decide ((Nat.log2 m : Int) + e < minNormal f) then (signPat f s, { flush := 1 })
    else
      let r := encodeFp f .rne sat v
      (r.1, if r.2 &&& flOver ≠ 0 then { ovf := 1 } else {})

/-- Plain data of `n` elements expanded from the stored to the target format (R379). -/
def expandX (stored target : Nat) (sat : Bool) (n : Nat) (bs : List Byte) : List Byte × XCount :=
  if stored = target then (bs, {})
  else match fmtOf target with
    | none => (bs, {})
    | some f =>
      let rs := (plainValues stored n bs).map (expandOne (stored = 5) f sat)
      (rs.flatMap (fun r => leBytes (f.width / 8) r.1),
        rs.foldl (fun c r => ⟨c.ovf + r.2.ovf, c.flush + r.2.flush, c.nans + r.2.nans⟩) {})

end Machine
end Sys2Proof
end

