-- ==== Sys2Proof/Machine/Larder.lean ====
section
/-!
DEFINITION. The Larder as its requesters see it (chapters 05 and 11): the destination checks, reads, writes, atomics, write
tracking, the controllers' slots, scrubbing and frame retirement.
-/
namespace Sys2Proof
namespace Machine

/-! ### Where a range lies (Tables 5-7 and 5-10) -/

/-- A check's outcome: where the range lies, or the status of the first check that fails. -/
inductive Checked where
  | ok (p : Place)
  | fail (st : BitVec 8)
  deriving DecidableEq, Repr

/-- Runs of Larder bytes of `len` bytes from offset `off` under a window (R387, R388): `fuel` bounds the pages. -/
def runsOf (c : Coat) (w : BitVec 128) : Nat → Nat → Nat → List (Nat × Nat)
  | 0, _, _ => []
  | fuel + 1, off, len =>
    if len = 0 then []
    else
      let n := min len (0x200000 - off % 0x200000)
      match winByte c w off with
      | some b => (b, n) :: runsOf c w fuel (off + n) (len - n)
      | none => []

/-- Tenant that owns array `a`: that of the kernels not Off whose masks hold it (R535). -/
def arrayOwner (s : State) (a : Nat) : Option (BitVec 8) :=
  ((List.finRange 256).find? (fun k =>
    fnSt s (.kernel k) ≠ .off && bit (tblGet ({} : Kernel) s.work.kernel k.val).arrays a)).map
      (fun k => (tblGet ({} : Kernel) s.work.kernel k.val).tenant)

/-- Check 5 of Table 5-10, with the wait of R397. -/
def keyReady (s : State) (t : BitVec 8) : Bool :=
  !s.strong.lockdown && tblGet false s.larder.key t.toNat && s.larder.fills.all (fun f => !(f.rekey && f.tenant = t))

/-- Checks 2, 3 and 5 of Table 5-10 on `len` bytes at an offset of the module, against coat `c` (R399, R536, R765). -/
def checkRange (s : State) (c : Coat) (t : BitVec 8) (off len : Nat) (pm : Permit) : Checked :=
  match regionOf off with
  | none => .fail stDenied
  | some r =>
    match findWindow c r t off (max 1 len) with
    | none => .fail stDenied
    | some w =>
      if !bit w (permitBit pm) || (r = .counter && pm ≠ .rd) then .fail stDenied
      else
        match r with
        | .larder => if keyReady s t then .ok (.larder (runsOf c w (len / 0x200000 + 2) off len)) else .fail stHalt
        | .array =>
          let a := (fld w 96 6 + off / 0x400000 - fld w 32 32) % 64
          if arrayOwner s a ≠ some t then .fail stDenied
          else if !keyReady s t then .fail stHalt
          else .ok (.array (a * 0x400000 + off % 0x400000))
        | .counter =>
          let k := fld w 96 32 + off / 4096 - fld w 32 32
          if !(upFrom 0 (ceilDiv (off % 4096 + max 1 len) 4096)).all (fun i => pageReadable s t (k + i)) then .fail stDenied
          else if !keyReady s t then .fail stHalt
          else .ok (.counter (k * 4096 + off % 4096))

/-- The five checks of Table 5-10 on a packet that reads or writes `len` bytes. The node field of a multicast WR is reserved and ignored
(R6, R315). -/
def checkPacket (s : State) (p : Packet) (len : Nat) (pm : Permit) : Checked :=
  if !p.mcast && addrNode p.addr ≠ myNode s then .fail stDenied
  else checkRange s (coatFor s p.coat) p.tenant (addrOff p.addr) len pm

/-! ### Lines and their counts (R407, R408, Table 23-4) -/

/-- Requester classes (R408). -/
inductive LClass where
  | fabric | stream | work | internal
  deriving DecidableEq, Repr

def LClass.num : LClass → Nat
  | .fabric => 0
  | .stream => 1
  | .work => 2
  | .internal => 3

/-- Lines that `n` bytes from byte `b` touch. -/
def linesOf (b n : Nat) : List Nat := if n = 0 then [] else upFrom (b / 256) ((b + n - 1) / 256 - b / 256 + 1)

/-- Lines of a place. -/
def placeLines : Place → List Nat
  | .larder runs => runs.flatMap (fun r => linesOf r.1 r.2)
  | _ => []

/-- A stack serves one line for a class and a tenant. -/
def countLine (cls : LClass) (wr : Bool) (tenant : Option (BitVec 8)) (s : State) (x : Nat) : State :=
  let st := (stackOf (x * 256)).val
  let s := bump (stackPage st) (cls.num + 4 * wr.toNat) 1 s
  let s := { s with larder.served := tblMod 0 s.larder.served (4 * st + cls.num) (· + 1) }
  match tenant with
  | some t => bump (tenantPage t.toNat) (12 + wr.toNat) 1 s
  | none => s

/-- The lines of a place served for a class. -/
def countPlace (cls : LClass) (wr : Bool) (tenant : Option (BitVec 8)) (p : Place) (s : State) : State :=
  (placeLines p).foldl (countLine cls wr tenant) s

/-- Uses the translations of the pages of a range: a page not in the cache is a miss of the page's first stack (R390,
log 14). -/
def translate (coat : BitVec 4) (tenant : BitVec 8) (page : Nat) (line : Nat) (s : State) : State :=
  let e := (coat, tenant, page)
  let rest := s.larder.cache.filter (· ≠ e)
  let hit := s.larder.cache.contains e
  let s := { s with larder.cache := (e :: rest).take 65536 }
  if hit then s else bump (stackPage (stackOf (line * 256)).val) 14 1 s

/-- Translations that a place under an offset uses. -/
def translateAll (coat : BitVec 4) (tenant : BitVec 8) (off : Nat) (p : Place) (s : State) : State :=
  match p with
  | .larder runs => (runs.zip (upFrom (off / 0x200000) runs.length)).foldl (fun s r => translate coat tenant r.2 (r.1.1 / 256) s) s
  | _ => s

/-! ### Bytes of a place -/

/-- A run holds an uncorrectable word. -/
def runBad (bad : Tbl Bool) (b n : Nat) : Bool :=
  if n = 0 then false else (upFrom (b / 64) ((b + n - 1) / 64 - b / 64 + 1)).any (fun w => tblGet false bad w)

/-- Bytes `i` to `i + n` of a list of runs. -/
def subRuns : List (Nat × Nat) → Nat → Nat → List (Nat × Nat)
  | [], _, _ => []
  | (b, m) :: t, i, n =>
    if n = 0 then []
    else if m ≤ i then subRuns t (i - m) n
    else
      let k := min n (m - i)
      (b + i, k) :: subRuns t 0 (n - k)

/-- Part of a place. -/
def subPlace (p : Place) (i n : Nat) : Place :=
  match p with
  | .larder runs => .larder (subRuns runs i n)
  | .array b => .array (b + i)
  | .counter b => .counter (b + i)

/-- Reads `n` bytes; none where a word of them is uncorrectable (R412, R413, R538). -/
def placeRead (s : State) (p : Place) (n : Nat) : Option (List Byte) :=
  match p with
  | .larder runs => if runs.any (fun r => runBad s.larder.badWord r.1 r.2) then none
      else some (runs.flatMap (fun r => memRead s.larder.mem r.1 r.2))
  | .array b => if runBad s.work.badWord b n then none else some (memRead s.work.mem b n)
  | .counter b =>
    some (slice ((upFrom (b / 4096) (ceilDiv (b % 4096 + n) 4096)).flatMap (pageBytes s)) (b % 4096) n)

/-- A memory with its uncorrectable words after a write, whether every word took it, and the words written in part (R402,
R413). `fuel` bounds the words. -/
def writeWords : Nat → Nat → List Byte → Tbl Byte × Tbl Bool → Bool × Nat → (Tbl Byte × Tbl Bool) × (Bool × Nat)
  | 0, _, _, m, r => (m, r)
  | fuel + 1, b, bs, m, r =>
    if bs.isEmpty then (m, r)
    else
      let n := 64 - b % 64
      let here := bs.take n
      let whole := here.length = 64
      let isBad := tblGet false m.2 (b / 64)
      let r' := (r.1 && (whole || !isBad), r.2 + (!whole).toNat)
      let m' := if isBad && !whole then m else (memWrite m.1 b here, if isBad then tblSet false m.2 (b / 64) false else m.2)
      writeWords fuel (b + n) (bs.drop n) m' r'

/-- Writes bytes over a list of runs of the Larder; false when a word did not take them. -/
def writeRuns : List (Nat × Nat) → List Byte → State → Bool → State × Bool
  | [], _, s, ok => (s, ok)
  | (b, n) :: t, bs, s, ok =>
    let here := bs.take n
    let (m, r) := writeWords (here.length / 64 + 2) b here (s.larder.mem, s.larder.badWord) (true, 0)
    let s := { s with larder.mem := m.1, larder.badWord := m.2 }
    let s := if r.2 = 0 then s else bump (stackPage (stackOf b).val) 9 r.2 s
    writeRuns t (bs.drop n) s (ok && r.1)

/-- Writes bytes into a place; false when a word of it did not take them. -/
def placeWrite (p : Place) (bs : List Byte) (s : State) : State × Bool :=
  match p with
  | .larder runs => writeRuns runs bs s true
  | .array b =>
    let (m, r) := writeWords (bs.length / 64 + 2) b bs (s.work.mem, s.work.badWord) (true, 0)
    ({ s with work.mem := m.1, work.badWord := m.2 }, r.1)
  | .counter _ => (s, false)

/-! ### Retirement of frames (R415 to R418) -/

/-- Retires a frame found bad in a line of stack `st`: a free spare takes its copy, or the retirement is refused. -/
def retireFrame (f st : Nat) (s : State) : State :=
  if s.larder.retiring.any (fun r => r.frame = f) then s
  else
    let room := s.larder.sparesUsed < 512
    let s := bump (stackPage st) 13 1 (raiseEv 0x17 st (f + (decide (¬ room)).toNat <<< 20) 0 s)
    if room then
      { s with larder.retiring := s.larder.retiring ++ [{ frame := f, spare := s.larder.sparesUsed, since := s.tick.elapsed }]
               larder.sparesUsed := s.larder.sparesUsed + 1
               attic.retireLog := if s.attic.retireLog.contains f || s.attic.flash.retired.contains f then s.attic.retireLog
                 else s.attic.retireLog ++ [f] }
    else { s with larder.refused := true, larder.goFrame := if s.larder.goFrame = some f then none else s.larder.goFrame }

/-- A read found an uncorrectable word in the place: counts, the event, and retirement of its frame (R415, R752). -/
def foundBad (row : Nat) (addr : Word) (p : Place) (s : State) : State :=
  let s := raiseEv 0x16 row (addr.toNat + stDataError.toNat <<< 64) 0 s
  match p with
  | .larder runs =>
    let words := (runs.flatMap (fun r => upFrom (r.1 / 64) ((r.1 + r.2 - 1) / 64 - r.1 / 64 + 1))).filter
      (fun w => tblGet false s.larder.badWord w)
    words.foldl (fun s w =>
      let st := (stackOf (w * 64)).val
      retireFrame (w * 64 / 0x200000) st (bump (stackPage st) 11 1 s)) s
  | _ => s

/-! ### Answers -/

/-- Core input through which the answer about a place enters: the home port of its first line, or the array's Workroom port
(R385, R532, log 12). -/
def placePort : Place → PortId
  | .larder ((b, _) :: _) => larderPort (stackOf b)
  | .larder [] => larderPort 0
  | .array b => workPort (b / 0x400000)
  | .counter _ => 126

/-- Counts a packet refused by the destination checks (Table 23-4, kind 7). -/
def countRefused (t st : BitVec 8) (s : State) : State :=
  if st = stDenied then bump (tenantPage t.toNat) 10 1 s
  else if st = stHalt then bump (tenantPage t.toNat) 11 1 s
  else s

/-- A packet refused at its destination: a FAIL, or a failed copy of a multicast packet (R185, R316). -/
def refuse (st : BitVec 8) (p : Packet) (s : State) : State :=
  let o := localPort s p
  let s := countRefused p.tenant st s
  if p.mcast then mcCount o false st p s else sendFail o st p s

/-! ### Reads, writes and atomics as a packet asks for them -/

/-- Pieces of a range cut at multiples of 4,096 (R166): `fuel` bounds their number. -/
def pieces : Nat → Nat → Nat → List (Nat × Nat)
  | 0, _, _ => []
  | fuel + 1, a, len =>
    if len = 0 then []
    else
      let n := min len (4096 - a % 4096)
      (a, n) :: pieces fuel (a + n) (len - n)

/-- Pieces of `len` bytes from global address `a`. -/
def piecesOf (a : Word) (len : Nat) : List (Nat × Nat) := pieces (len / 4096 + 2) a.toNat len

/-- Row of Table 22-9 that an uncorrectable word in a place makes (R752). -/
def badRow : Place → Nat
  | .array _ => 6
  | _ => 5

/-- Other pieces of a read that has drawn its FAIL draw none (R413). -/
def markFailed (p : Packet) (s : State) : State :=
  { s with larder.waiting := tblMap [] (fun _ q => q.map (fun r => if r.pkt = p then { r with failed := true } else r)) s.larder.waiting }

/-- Serves one piece of a read: its RD_DATA, or one FAIL for the item where a word of it is uncorrectable (R385, R413). -/
def readPiece (r : LarderReq) (s : State) : State :=
  let p := r.pkt
  let pl := subPlace r.pl r.pos r.len
  match placeRead s pl r.len with
  | some bs =>
    inject (placePort pl) (withPayload bs { answerTo s 0x81 p with
      addr := p.addr + BitVec.ofNat 64 r.pos, itemLen := BitVec.ofNat 32 r.len, last := r.pos + r.len = p.itemLen.toNat }) s
  | none =>
    let s := foundBad (badRow pl) p.addr pl s
    if r.failed then s else markFailed p (sendFail (placePort pl) stDataError p s)

/-- Counts the bytes of a WR packet; WR_ACK leaves when their count equals item_len (R65, R171, R401). -/
def countWrite (port : PortId) (p : Packet) (s : State) : State :=
  let old := s.items.track.find? (fun t => t.src = p.src && t.tag = p.tag)
  let got := (match old with | some t => t.got | none => 0) + p.payLen.toNat
  let echo := (match old with | some t => t.echo | none => false) || p.ecnCe
  let rest := s.items.track.filter (fun t => !(t.src = p.src && t.tag = p.tag))
  if got = p.itemLen.toNat then
    inject port { answerTo s 0x82 p with itemLen := 0, ecnEcho := echo } { s with items.track := rest }
  else { s with items.track := rest ++ [{ src := p.src, tag := p.tag, got := got, len := p.itemLen.toNat,
                                           last := s.tick.elapsed, echo := echo }] }

/-- Writes a WR packet's bytes (R316, R401, R413); a word written in part that is uncorrectable is found by the read of it (R402, R415). -/
def writePacket (r : LarderReq) (s : State) : State :=
  let p := r.pkt
  let o := localPort s p
  let (s, ok) := placeWrite r.pl p.payload s
  let s := if ok then s else foundBad (badRow r.pl) p.addr r.pl s
  if p.mcast then mcCount o ok (if ok then stOk else stDataError) p s
  else if ok then countWrite (placePort r.pl) p s
  else sendFail (placePort r.pl) stDataError p s

/-- Operand bytes of an atomic (Table 5-6). -/
def atomicWidth (op : Nat) : Nat := if op = 0x0B then 16 else if op = 0x0C then 4 else if op = 0x0D then 2 else 8

/-- The value that an atomic writes over `old` (Table 11-6, R404); `x` is its operand, `y` the second one of a compare. -/
def atomicNew (op old x y : Nat) : Nat :=
  match op with
  | 0x08 => (old + x) % 2 ^ 64
  | 0x09 => x
  | 0x0A => if old = x then y else old
  | 0x0B => if old = x then y else old
  | 0x0C => (fpAdd fp32 .rne false old x).1
  | _ => (fpAdd bf16 .rne false old x).1

/-- Operands of an atomic in its payload (Table 5-6). -/
def atomicOperands (op : Nat) (bs : List Byte) : Nat × Nat := (leAt bs 0 (atomicWidth op), leAt bs (atomicWidth op) (atomicWidth op))

/-- Performs an atomic at a place: the old value, or none when its word is uncorrectable (R403, R413). -/
def placeAtomic (op : Nat) (pl : Place) (x y : Nat) (s : State) : Option Nat × State :=
  let n := atomicWidth op
  match placeRead s pl n with
  | none => (none, s)
  | some bs =>
    let old := leNat bs
    let s := match pl with
      | .larder ((b, _) :: _) => bump (stackPage (stackOf b).val) 8 1 s
      | _ => s
    (some old, (placeWrite pl (leBytes n (atomicNew op old x y)) s).1)

/-- Performs an atomic request (R164, R403). -/
def atomicPacket (r : LarderReq) (s : State) : State :=
  let p := r.pkt
  let n := atomicWidth p.opcode.toNat
  let (x, y) := atomicOperands p.opcode.toNat p.payload
  match placeAtomic p.opcode.toNat r.pl x y s with
  | (none, s) => sendFail (placePort r.pl) stDataError p (foundBad (badRow r.pl) p.addr r.pl s)
  | (some old, s) => inject (placePort r.pl) (withPayload (leBytes n old) { answerTo s 0x88 p with itemLen := BitVec.ofNat 32 n }) s

/-- Performs a request at its place: its lines are counted for the fabric class. -/
def perform (r : LarderReq) (s : State) : State :=
  let s := countPlace .fabric (r.pkt.opcode ≠ 0x01) (some r.pkt.tenant) (subPlace r.pl r.pos r.len) s
  if r.pkt.opcode = 0x01 then readPiece r s else if r.pkt.opcode = 0x02 then writePacket r s else atomicPacket r s

/-- Bytes that a memory request names, and what they must permit. -/
def reqRange (p : Packet) : Nat × Permit :=
  if p.opcode = 0x01 then (p.itemLen.toNat, .rd) else if p.opcode = 0x02 then (p.payLen.toNat, .wr) else (atomicWidth p.opcode.toNat, .atomic)

/-- The destination checks of a memory request (R164, R185). -/
def checkRequest (s : State) (p : Packet) : Checked :=
  if isAtomic p && p.addr.toNat % atomicWidth p.opcode.toNat ≠ 0 then .fail stDenied
  else checkPacket s p (reqRange p).1 (reqRange p).2

/-- Requests into which a packet at a place falls: the pieces of a read (R166), or one. A read whose item_len lies outside R170 is served as
it stands: one of 0 draws no answer (DESIGN CHOICE, log 117). -/
def reqsOf (p : Packet) (pl : Place) : List LarderReq :=
  if p.opcode = 0x01 then (piecesOf p.addr p.itemLen.toNat).map (fun c =>
    let pos := c.1 - p.addr.toNat
    { i := (placePort (subPlace pl pos c.2)).val % 24, pkt := p, pl := pl, pos := pos, len := c.2 })
  else [{ i := (placePort pl).val % 24, pkt := p, pl := pl, pos := 0, len := (reqRange p).1 }]

/-! ### The controllers (R406 to R411) -/

/-- Requests that a controller takes in one slot, and lines that it serves in one tick (R407, Table 11-3). -/
abbrev slotRequests : Nat := 5
abbrev tickLines : Nat := 4915

/-- Requests taken by a stack in the current slot. -/
def takenNow (s : State) (st : Nat) : Nat :=
  let t := tblGet (0, 0) s.larder.slotTaken st
  if t.1 = s.tick.ns then t.2 else 0

/-- Lines served by a stack in this tick. -/
def servedNow (s : State) (st : Nat) : Nat :=
  (upFrom 0 4).foldl (fun n c => n + tblGet 0 s.larder.served (4 * st + c)) 0

/-- Stacks of the lines of a request, one entry for each line; an atomic counts as one line (R406). -/
def reqStacks (r : LarderReq) : List Nat := (placeLines (subPlace r.pl r.pos r.len)).map (fun x => (locate x).1)

/-- Word of an atomic's operand. -/
def atomicWord (r : LarderReq) : Nat := match r.pl with
  | .larder ((b, _) :: _) => b / 64
  | _ => 0

/-- An atomic may be served: none in this slot at the stack, none to its word in the last 4 slots (R406). -/
def atomicMay (s : State) (r : LarderReq) : Bool :=
  !isAtomic r.pkt ||
    ((tblGet 0 s.larder.lastAtomic (atomicWord r) = 0 || decide (tblGet 0 s.larder.lastAtomic (atomicWord r) + 4 ≤ s.tick.ns))
       && decide (tblGet 0 s.larder.lastAtomic (2 ^ 60 + r.i) ≠ s.tick.ns + 1))

/-- A stack takes one more line in this slot. -/
def noteLine (s : State) (st : Nat) : State :=
  { s with larder.slotTaken := tblSet (0, 0) s.larder.slotTaken st (s.tick.ns, takenNow s st + 1) }

/-- The slot's books after a request is taken. -/
def noteTaken (r : LarderReq) (s : State) : State :=
  let s := (reqStacks r).foldl noteLine s
  if isAtomic r.pkt then
    { s with larder.lastAtomic :=
        tblSet 0 (tblSet 0 s.larder.lastAtomic (atomicWord r) s.tick.ns) (2 ^ 60 + r.i) (s.tick.ns + 1) }
  else s

/-- A stack may take `n` more lines in this slot, below the ceiling that the power manager sets (R407, R411). -/
def mayTake (s : State) (st n : Nat) : Bool :=
  decide (takenNow s st + n ≤ slotRequests) && decide (servedNow s st + n ≤ tickLines * s.larder.pace / 256)

/-- The stacks of a request's lines may take them now, and its atomic unit is free (R406, R407). -/
def mayServe (s : State) (r : LarderReq) : Bool :=
  let sts := reqStacks r
  sts.all (fun st => mayTake s st (sts.filter (· = st)).length) && atomicMay s r

/-- A packet delivered at an internal port has been taken by its row. -/
def takeDelivered (p : Packet) (s : State) : State :=
  match s.core.delivered.findIdx? (fun d => d.2 = p) with
  | some i => { s with core.delivered := s.core.delivered.eraseIdx i }
  | none => s

/-- A request reaches the controller of its home port's stack: it is served in this slot when nothing waits there and its stacks may take
its lines, and waits otherwise (R385, R407). -/
def offer (s : State) (r : LarderReq) : State :=
  let q := tblGet [] s.larder.waiting r.i
  if q.isEmpty && s.larder.fills.isEmpty && mayServe s r then perform r (noteTaken r s)
  else { s with larder.waiting := tblSet [] s.larder.waiting r.i (q ++ [r]) }

/-! ### Requests at one array memory (R537) -/

/-- A packet asks for bytes of an array's memory. -/
def asksArray (s : State) (a : Nat) (p : Packet) : Bool :=
  (p.opcode = 0x01 || p.opcode = 0x02 || isAtomic p) && regionOf (addrOff p.addr) = some .array &&
    (match checkRequest s p with
     | .ok (.array b) => b / 0x400000 = a
     | _ => false)

/-- Code copying or zeroing waits at an array's memory: requester 2. -/
def copyWaits (s : State) (a : Nat) : Bool :=
  s.work.zeroing.any (fun z => z.1 = a)
    || (List.finRange 256).any (fun k =>
      let v := tblGet ({} : Kernel) s.work.kernel k.val
      fnSt s (.kernel k) = .starting && v.fetched = some stOk && v.copied.isNone && bit v.arrays a)

/-- A fabric access waits at an array's memory: requester 1. -/
def fabricWaits (s : State) (a : Nat) : Bool := s.core.delivered.any (fun d => asksArray s a d.2)

/-- Code copying or zeroing comes before fabric accesses in this tick (R73, R537). -/
def copyFirst (s : State) : Bool := decide (tieKey s 3 2 < tieKey s 3 1)

/-- A memory request that its checks admit: the requests of a Larder range go to their controllers, those of other memories are performed
at once. A fabric access to an array waits where copying comes first. -/
def admitRequest (p : Packet) (pl : Place) (s : State) : State :=
  let go := fun s => translateAll p.coat p.tenant (addrOff p.addr) pl (takeDelivered p s)
  match pl with
  | .larder _ => (reqsOf p pl).foldl offer (go s)
  | .array b => if copyFirst s && copyWaits s (b / 0x400000) then s else (reqsOf p pl).foldl (fun s r => perform r s) (go s)
  | .counter _ => (reqsOf p pl).foldl (fun s r => perform r s) (go s)

/-- A memory request is checked at its destination, and refused or admitted (R185, R385). A WR that would open an item while every entry is
in use stays where it is (R174). While the part drains, a request of another node that opens an item is refused (Table 20-7). -/
def memRequest (p : Packet) (s : State) : State :=
  if s.attic.draining && p.src ≠ myNode s && !s.items.track.any (fun t => t.src = p.src && t.tag = p.tag && p.opcode = 0x02) then
    refuse stDrained p (takeDelivered p s)
  else if p.opcode = 0x02 && !p.mcast && !trackRoom s p then s
  else match checkRequest s p with
    | .fail st => refuse st p (takeDelivered p s)
    | .ok pl => admitRequest p pl s

/-- RD_REQ: the memory owner checks the request and returns its RD_DATA packets, or a FAIL. -/
def execRdReq (p : Packet) (s : State) : Out := .next (if p.opcode = 0x01 then memRequest p s else s)

/-- WR: the memory owner checks and writes the packet and counts its bytes; WR_ACK leaves when the item is whole. -/
def execWr (p : Packet) (s : State) : Out := .next (if p.opcode = 0x02 then memRequest p s else s)

/-- AT_FADD64 (Table 11-6). -/
def execAtFadd64 (p : Packet) (s : State) : Out := .next (if p.opcode = 0x08 then memRequest p s else s)

/-- AT_SWAP64 (Table 11-6). -/
def execAtSwap64 (p : Packet) (s : State) : Out := .next (if p.opcode = 0x09 then memRequest p s else s)

/-- AT_CAS64 (Table 11-6). -/
def execAtCas64 (p : Packet) (s : State) : Out := .next (if p.opcode = 0x0A then memRequest p s else s)

/-- AT_CAS128 (Table 11-6, R405). -/
def execAtCas128 (p : Packet) (s : State) : Out := .next (if p.opcode = 0x0B then memRequest p s else s)

/-- AT_FADD_FP32 (Table 11-6, R404). -/
def execAtFaddFp32 (p : Packet) (s : State) : Out := .next (if p.opcode = 0x0C then memRequest p s else s)

/-- AT_FADD_BF16 (Table 11-6, R404). -/
def execAtFaddBf16 (p : Packet) (s : State) : Out := .next (if p.opcode = 0x0D then memRequest p s else s)

/-- Class of requester `i` (R408). -/
def classOf (i : Nat) : LClass := if i < 24 then .fabric else if i < 48 then .stream else if i < 50 then .internal else .work

/-- Fraction of 256 by which the power manager paces the Larder (R411). -/
def larderPace (s : State) : Nat := s.larder.pace

/-- Guarantee of a class at a stack, lines per tick (Table 11-15); the internal one is not scaled (R411). -/
def guarantee (s : State) (st : Nat) (c : LClass) : Nat :=
  let g := fld (reg s .larderQos st) (16 * c.num) 13
  if c = .internal then g else g * larderPace s / 256

/-- A waiting request may be taken: its stacks may take its lines, and a WR that opens an item finds a tracking entry (R174). -/
def mayStartReq (s : State) (r : LarderReq) : Bool := mayServe s r && (r.pkt.opcode ≠ 0x02 || r.pkt.mcast || trackRoom s r.pkt)

/-- The line that a frame's fill writes next in a stack, and its row within the frame: the stack has one line of each row (R389, R394). -/
def fillLine (f : Fill) (st : Nat) : Option (Nat × Nat) :=
  let first := f.frame * 8192
  (upFrom (tblGet 0 f.rows st) 2).findSome? (fun n =>
    let r := first / 24 + n
    let x := 24 * r + (st + 24 - (locate (24 * r)).1) % 24
    if first ≤ x ∧ x < first + 8192 then some (n, x) else none)

/-- A waiting requester at a controller: a packet's request, or the fills, which the Attic makes (R393, Table 11-7). -/
def waitersAt (s : State) (st : Nat) : List (Nat × Option LarderReq) :=
  ((tblGet [] s.larder.waiting st).filter (mayStartReq s)).map (fun r => (r.i, some r))
    ++ (if mayTake s st 1 && s.larder.fills.any (fun f => (fillLine f st).isSome) then [(49, none)] else [])

/-- The requester that a controller takes next (R407, R409). -/
def nextReq (s : State) (st : Nat) : Option (Nat × Option LarderReq) :=
  let q := waitersAt s st
  let below := q.filter (fun r => decide (tblGet 0 s.larder.served (4 * st + (classOf r.1).num) < guarantee s st (classOf r.1)))
  (if below.isEmpty then q else below).foldl (fun b r => match b with
    | none => some r
    | some x => if tieKey s 114 r.1 < tieKey s 114 x.1 then some r else some x) none

/-- Fills a line with zeros. -/
def zeroLine (x : Nat) (s : State) : State :=
  { s with larder.mem := s.larder.mem.filter (fun e => e.1 / 256 ≠ x), larder.badWord := s.larder.badWord.filter (fun e => e.1 / 4 ≠ x) }

/-- A controller serves the next fill line of its stack, in the internal class (R394). -/
def fillOne (st : Nat) (s : State) : State :=
  match s.larder.fills.findIdx? (fun f => (fillLine f st).isSome) with
  | none => s
  | some j =>
    match (s.larder.fills[j]?).bind (fun f => (fillLine f st).map (fun z => (f, z))) with
    | none => s
    | some (f, n, x) =>
      let s := countLine .internal true none (noteLine s st) x
      zeroLine x { s with larder.fills := s.larder.fills.set j { f with rows := tblSet 0 f.rows st (n + 1) } }

/-- A controller takes requests while the slot admits them: `fuel` bounds their number. -/
def controllerSlot (st : Nat) : Nat → State → State
  | 0, s => s
  | fuel + 1, s =>
    match nextReq s st with
    | none => s
    | some (_, none) => controllerSlot st fuel (fillOne st s)
    | some (_, some r) =>
      let q := tblGet [] s.larder.waiting st
      let s := { s with larder.waiting := tblSet [] s.larder.waiting st (q.erase r) }
      controllerSlot st fuel (perform r (noteTaken r s))

/-- LARDER_CONTROLLER_SLOT (R407). -/
def execLarderControllerSlot (st : StackId) (s : State) : Out := .next (controllerSlot st.val slotRequests s)

/-- Every line of a frame's fill has been written. -/
def fillEnded (f : Fill) : Bool := (upFrom 0 24).all (fun st => (fillLine f st).isNone)

/-- WRITE_TRACKING_TIMEOUT (R175). -/
def execWriteTrackingTimeout (src : BitVec 12) (tag : BitVec 16) (s : State) : Out :=
  .next (match s.items.track.find? (fun t => t.src = src && t.tag = tag) with
    | some t => if ageLimit s + 8 ≤ ageOf s t.last then
        { s with items.track := s.items.track.filter (fun x => !(x.src = src && x.tag = tag)), items.dropped := s.items.dropped + 1 }
        else s
    | none => s)

/-! ### Scrubbing, retirement and fills (R393, R397, R414 to R418) -/

/-- The scrub period in ticks (Table 11-14). -/
def scrubPeriod (s : State) : Nat := 2 ^ fld (reg s .larderCfg) 16 6

/-- SCRUB_READ (R414, R415): reads line `line`, finding `corrected` words to write back and the words `bad` of the line
uncorrectable; the errors are of the memory, so they come with the command. A new period restarts the frames' counts. -/
def execScrubRead (line corrected : Nat) (bad : List (Fin 4)) (s : State) : Out :=
  if !bit (reg s .larderCfg) 8 || 7500000000 ≤ line then .next s else
  let s := if scrubPeriod s ≤ ageOf s s.larder.scrubAt then { s with larder.scrubAt := s.tick.elapsed, larder.ce := [] } else s
  let f := line / 8192
  let st := (locate line).1
  let s := bump (stackPage st) 10 corrected (bump (stackPage st) 12 1 s)
  let s := { s with larder.scrubLine := line + 1, larder.ce := tblMod 0 s.larder.ce f (· + corrected)
                    larder.badWord := bad.foldl (fun t w => tblSet false t (4 * line + w.val) true) s.larder.badWord }
  let words := (upFrom (4 * line) 4).filter (fun w => tblGet false s.larder.badWord w)
  let s := words.foldl (fun s w => raiseEv 0x16 5 (w * 64 + stDataError.toNat <<< 64) 0 (bump (stackPage st) 11 1 s)) s
  .next (if !words.isEmpty || decide (fld (reg s .larderCfg) 24 8 ≤ tblGet 0 s.larder.ce f) then retireFrame f st s else s)

/-- GO (R415): a write of 1 to go retires the named frame. -/
def goRetire (f : BitVec 20) (s : State) : State :=
  if 915527 ≤ f.toNat then s
  else retireFrame f.toNat (locate (8192 * f.toNat)).1 { s with larder.goFrame := some f.toNat }

/-- Meaning of GO. -/
def execGoReq (f : BitVec 20) (s : State) : Out := .next (goRetire f s)

/-- FRAME_RETIRE_COPY_DONE (R416): at the boundary after the copy, every access of the frame goes to its spare. -/
def execFrameRetireCopyDone (f : BitVec 20) (s : State) : Out :=
  .next (match s.larder.retiring.find? (fun r => r.frame = f.toNat) with
    | some r => if s.tick.slot = 0 && r.since ≠ s.tick.elapsed then
        { s with larder.retiring := s.larder.retiring.filter (fun x => x.frame ≠ r.frame)
                 larder.remap := tblSet none s.larder.remap r.frame (some r.spare)
                 larder.goFrame := if s.larder.goFrame = some r.frame then none else s.larder.goFrame }
        else s
    | none => s)

/-- Fills a frame with zeros: its bytes leave the table of bytes that are not zero (R393, R397). -/
def zeroFrame (f : Nat) (s : State) : State :=
  { s with larder.mem := s.larder.mem.filter (fun e => !(f * 0x200000 ≤ e.1 && e.1 < (f + 1) * 0x200000))
           larder.badWord := s.larder.badWord.filter (fun e => !(f * 0x8000 ≤ e.1 && e.1 < (f + 1) * 0x8000)) }

end Machine
end Sys2Proof
end

