-- ==== Sys2Proof/Machine/Rings.lean ====
section
/-!
DEFINITION. Rings and descriptors (chapter 04): the doorbell page, fetching, the checks of R819, starts in ring order,
moderation, the descriptor audit, NOP and RING_CONFIG.
-/
namespace Sys2Proof
namespace Machine

/-! ### Checks of a fetched descriptor (R819) -/

/-- Reserved fields of the body, and fields that its opcode's layout gives as zero, as (first bit, bits) (R6, R421). -/
def bodyZeros (op : BitVec 8) : List (Nat × Nat) :=
  match op.toNat with
  | 0x01 => [(282, 6), (336, 176)]
  | 0x04 => [(288, 224)]
  | 0x05 => [(193, 319)]
  | 0x08 => [(224, 288)]
  | 0x0A => [(208, 304)]
  | 0x0B => [(299, 5), (304, 208)]
  | 0x10 => [(355, 29), (384, 64), (448, 64)]
  | 0x11 => [(192, 64), (352, 2), (355, 29), (448, 64)]
  | 0x12 => [(256, 64), (352, 2), (355, 29), (384, 64), (448, 64)]
  | 0x18 => [(320, 192)]
  | 0x19 => [(320, 192)]
  | 0x1A => [(384, 128)]
  | 0x1B => []
  | 0x1C => [(288, 224)]
  | 0x1D => [(272, 240)]
  | 0x20 => [(208, 304)]
  | 0x22 => [(198, 2), (203, 1), (206, 2), (245, 11), (268, 20), (368, 16), (448, 64)]
  | 0x30 => [(276, 12), (368, 16), (448, 64)]
  | 0x40 => [(312, 8), (396, 20), (480, 32)]
  | 0x43 => [(268, 4), (280, 232)]
  | 0x48 => [(216, 8), (234, 6), (272, 240)]
  | 0x49 => [(304, 208)]
  | 0x50 => [(294, 2), (296, 216)]
  | 0x51 => [(192, 64), (256, 32), (292, 4), (296, 216)]
  | 0x80 => [(268, 4), (280, 232)]
  | 0x81 => [(262, 26), (344, 8), (376, 8), (408, 8), (440, 72)]
  | 0x82 => [(216, 8), (233, 7), (244, 12), (256, 256)]
  | 0x83 => [(352, 160)]
  | 0x60 => [(256, 256)]
  | 0x64 => [(384, 128)]
  | 0x65 => [(384, 128)]
  | 0x66 => [(256, 64), (352, 32), (384, 128)]
  | 0x67 => [(208, 304)]
  | 0x70 => [(288, 224)]
  | 0x71 => [(288, 224)]
  | 0x72 => [(288, 224)]
  | 0x74 => [(200, 312)]
  | _ => [(192, 320)]

/-- The ring is privileged (R121). -/
def ringPriv (s : State) (i : Fin 64) : Bool := (sqRing s i).priv

/-- Checks 1 to 4 of R819 on a descriptor whose opcode is not reserved; none when they pass. -/
def staticCheck (s : State) (f : InFlight) : Option (BitVec 8) :=
  let d := f.desc
  if (dExact d && !dTimed d) || (!dTimed d && dApply d ≠ 0) then some stBad
  else if dPrivFamily (dOpcode d) && !ringPriv s f.ref.sq then some stDenied
  else if !dHdrZero d || !(bodyZeros (dOpcode d)).all (fun r => dZero d r.1 r.2) then some stBad
  else if dTimed d && dExact d && !later (dApply d) f.fetchTick then some stOverrun
  else none

/-- Descriptor `a` of a ring comes before descriptor `b` of the same ring. -/
def earlier (a b : DRef) : Bool := a.sq = b.sq && a.k ≠ b.k && decide ((b.k - a.k).toNat < 2 ^ 31)

/-- A descriptor of the ring before `d` is still being read from host memory. -/
def earlierFetch (s : State) (d : DRef) : Bool :=
  s.enz.reads.any (fun r => match r.use with
    | .fetch q k _ => earlier ⟨q, k⟩ d
    | _ => false)

/-- Its fence and its apply_tick let a fetched descriptor start, and every earlier one of its ring has started (R115,
R120, R818). -/
def mayStart (s : State) (f : InFlight) : Bool :=
  f.stage = .fetched && (!dFence f.desc || f.fenceOk)
    && (!dTimed f.desc || dBoundary (dOpcode f.desc) || f.timeOk || !later (dApply f.desc) f.fetchTick)
    && s.rings.flight.all (fun g => !(earlier g.ref f.ref && g.stage = .fetched)) && !earlierFetch s f.ref

/-- The descriptor `d` starts when it may and its opcode is `op`; `body` is the opcode's work. Otherwise the command is not
due. -/
def withDesc (d : DRef) (op : BitVec 8) (s : State) (body : InFlight → State → State) : State :=
  match flightOf s d with
  | none => s
  | some f =>
    if mayStart s f && dOpcode f.desc = op then body f (modFlight d (fun g => { g with stage := .started }) s) else s

/-- The tenant bound to the descriptor's ring (R103). -/
def dTenant (s : State) (f : InFlight) : BitVec 8 := (sqRing s f.ref.sq).tenant

/-- The descriptor waits for `n` more pieces of work. -/
def addWaits (d : DRef) (n : Nat) (s : State) : State := modFlight d (fun f => { f with waits := f.waits + n }) s

/-- Boundary work of descriptor `d` that is prepared for the boundary of elapsed tick `due` applies at this one: it is prepared, and
apply_tick of a timed descriptor is reached or passed (R44, R49, R818). -/
def workDue (s : State) (d : DRef) (due : BitVec 48) : Bool :=
  reached s due && (match flightOf s d with
    | some f => !dTimed f.desc || !later (dApply f.desc) (nowTick s)
    | none => true)

/-- Exact-tick work is carried past its tick: apply_tick came at an earlier boundary (R44, R53). -/
def missedTick (s : State) (f : InFlight) : Bool := dTimed f.desc && dExact f.desc && !later (dApply f.desc) s.tick.prev

/-! ### Rows of the rings -/

/-- DESCRIPTOR_FENCE_RELEASE (R115): a fenced descriptor is released once every earlier one of its ring has an outcome. -/
def execDescriptorFenceRelease (d : DRef) (s : State) : Out :=
  .next (match flightOf s d with
    | some f => if dFence f.desc && s.rings.flight.all (fun g => !earlier g.ref d) && !earlierFetch s d then
        modFlight d (fun g => { g with fenceOk := true }) s else s
    | none => s)

/-- DESCRIPTOR_TIMED_START (R818): apply_tick of a timed descriptor is reached. -/
def timedStart (d : DRef) (s : State) : State :=
  match flightOf s d with
  | some f => if dTimed f.desc && !later (dApply f.desc) (nowTick s) then modFlight d (fun g => { g with timeOk := true }) s else s
  | none => s

/-- RESERVED_OPCODE (R118): a fetched descriptor with a reserved opcode completes with BAD_DESCRIPTOR. -/
def execReservedOpcode (d : DRef) (s : State) : Out :=
  .next (match flightOf s d with
    | some f => if f.stage = .fetched && !dKnown (dOpcode f.desc) then complete d stBad 0 s else s
    | none => s)

/-- INTERRUPT_MODERATION_TIMEOUT (R129): the oldest entry without an interrupt has waited mod_ticks. -/
def execInterruptModerationTimeout (q : Fin 64) (s : State) : Out :=
  let r := cqRing s q
  .next (if r.irqEn && r.armed && decide (0 < r.unint) && decide (r.modTicks.toNat ≤ ageOf s r.oldest) then cqInterrupt q s else s)

/-- NOP (Table 4-11): completes OK with result zero. -/
def execNopDesc (d : DRef) (s : State) : Out := .next (withDesc d 0x00 s (fun _ s => complete d stOk 0 s))

/-- Target of a ring opcode: 0 a submission ring, 1 a completion ring, none when another bit of target_id is set. -/
def ringTarget (f : InFlight) : Option FnId :=
  let t := dTarget f.desc
  let i : Fin 64 := ⟨fld t 0 6, Nat.mod_lt _ (by decide)⟩
  if fld t 6 2 ≠ 0 ∨ fld t 9 7 ≠ 0 then none else some (if bit t 8 then .cq i else .sq i)

/-- The ring is one that registers set up (R793). -/
def isAdminRing : FnId → Bool
  | .sq i => i = 0
  | .cq i => i = 0
  | _ => false

/-- Checks of R122 on a RING_CONFIG body. -/
def ringCfgOk (d : BitVec 512) (isCq : Bool) : Bool :=
  fld d 192 12 = 0 && decide (6 ≤ fld d 256 8) && decide (fld d 256 8 ≤ 16)
    && (if isCq then fld d 264 8 = 0 && fld d 272 8 = 0 && !bit d 280 && decide (fld d 288 16 < 256)
          && decide (1 ≤ fld d 304 16) && decide (fld d 304 16 ≤ 1024)
        else decide (fld d 264 8 < 64) && !bit d 281 && fld d 288 16 = 0 && fld d 304 16 = 0 && fld d 320 16 = 0)

/-- The configuration that a RING_CONFIG writes (Table 4-12). -/
def ringOf (d : BitVec 512) (r : Ring) : Ring :=
  { r with base := dWord d 24, depthLog2 := BitVec.ofNat 5 (fld d 256 8), cq := ⟨fld d 264 8 % 64, Nat.mod_lt _ (by decide)⟩,
           tenant := BitVec.ofNat 8 (fld d 272 8), priv := bit d 280, irqEn := bit d 281, vector := BitVec.ofNat 8 (fld d 288 16),
           modCount := BitVec.ofNat 16 (fld d 304 16), modTicks := BitVec.ofNat 16 (fld d 320 16) }

/-- The generation check of R819, check 5: target_gen names the current generation of `fn`. -/
def genOk (s : State) (f : InFlight) (fn : FnId) : Bool := dGen f.desc = fnGen s fn

/-- RING_CONFIG (R122, R793). The row configures an instance that is Off, and target_gen is checked like any other. -/
def ringConfig (d : DRef) (f : InFlight) (s : State) : State :=
  match ringTarget f with
  | none => complete d stBad 0 s
  | some t =>
    let s := modFlight d (fun g => { g with gen := fnGen s t }) s
    let cq := match t with
      | .cq _ => true
      | _ => false
    if !genOk s f t then complete d stStaleGen 0 s
    else if isAdminRing t || fnSt s t ≠ .off || !ringCfgOk f.desc cq then complete d stBad 0 s
    else if bit f.desc 280 && d.sq ≠ 0 then complete d stDenied 0 s
    else match t with
      | .cq i => complete d stOk 0 (setCq s i (ringOf f.desc (tblGet {} s.rings.cq i.val)))
      | .sq i => complete d stOk 0 (setSq s i (ringOf f.desc (tblGet {} s.rings.sq i.val)))
      | _ => s

/-- Meaning of RING_CONFIG. -/
def execRingConfig (d : DRef) (s : State) : Out := .next (withDesc d 0x01 s (ringConfig d))

/-! ### The doorbell page (R105 to R114) -/

/-- Every ring, the event ring included, is Off. -/
def allRingsOff (s : State) : Bool :=
  fnSt s .ev = .off && (List.finRange 64).all (fun i => fnSt s (.sq i) = .off && fnSt s (.cq i) = .off)

/-- The slots of ring `i` that no read still needs end here: the first index being read, or the next to fetch (R109). -/
def readTo (s : State) (i : Fin 64) : BitVec 32 :=
  (s.enz.reads.findSome? (fun r => match r.use with
    | .fetch q k _ => if q = i then some k else none
    | _ => none)).getD (sqRing s i).cons

/-- Writes sq_cons into the consumer page when its value changes (R108, R109). -/
def putSqCons (i : Fin 64) (s : State) : State :=
  let v := readTo s i
  if v = (sqRing s i).pub then s
  else consumerPut (4 * i.val) v (setSq s i { tblGet {} s.rings.sq i.val with pub := v })

/-- Doorbell pages that were due at this boundary and are not: still being read, or back after slot 960 (R52, R107). -/
def latePages (s : State) : Nat :=
  (s.enz.reads.filter (fun r => r.tag.isSome && (match r.use with
    | .doorbell _ => true
    | _ => false))).length + (s.rings.page.filter (fun p => !reached s p.2)).length

/-- Step 10 of Table 2-6: the read of the doorbell page, in every tick in which a ring is not Off (R107); each late page counts as
carried work (R52). While Enzen lets no read out, the one that waits serves for the tick (log 115). -/
def doorbellPoll (s : State) : State :=
  let s := bump 152 6 (latePages s) s
  if allRingsOff s || s.enz.reads.any (fun r => r.tag.isNone && (match r.use with
      | .doorbell _ => true
      | _ => false)) then s
  else hostRead (.doorbell s.tick.elapsed) (reg s .hostCfg) 4096 s

/-- A valid index (R110). -/
def idxOk (a b : BitVec 32) (r : Ring) : Bool := decide ((a - b).toNat ≤ depth r)

/-- Applies the consumer index of completion ring `j`: a change re-arms its interrupt (R110, R130). -/
def applyCqCons (page : List Byte) (j : Fin 64) (s : State) : State :=
  let v := BitVec.ofNat 32 (leAt page (0x100 + 4 * j.val) 4)
  let raw := tblGet {} s.rings.cq j.val
  if fnSt s (.cq j) = .off || v = raw.cons || !idxOk raw.prod v (cqRing s j) then s
  else
    let s := setCq s j { raw with cons := v, armed := true }
    let r := cqRing s j
    if r.irqEn && decide (0 < r.unint) && (decide (r.modCount.toNat ≤ r.unint) || decide (r.modTicks.toNat ≤ ageOf s r.oldest)) then
      cqInterrupt j s else s

/-- Applies the consumer index of the event ring (R110, R131). DESIGN CHOICE (log 115): events written while the interrupt was disarmed
draw none when it is armed again; the next event does. -/
def applyEvCons (page : List Byte) (s : State) : State :=
  let v := BitVec.ofNat 32 (leAt page 0x200 4)
  if fnSt s .ev = .off || v = s.rings.ev.cons || !idxOk s.rings.ev.prod v (evRing s) then s
  else { s with rings.ev.cons := v, rings.ev.armed := true }

/-- Applies the producer index of submission ring `i`. One beyond the ring's depth is misuse: what is then read from the
ring is a free value, within its depth (R110, Table 3-8). -/
def applySqProd (page : List Byte) (i : Fin 64) (s : State) : State :=
  let v := BitVec.ofNat 32 (leAt page (4 * i.val) 4)
  let raw := tblGet {} s.rings.sq i.val
  let st := fnSt s (.sq i)
  if st ≠ .on && st ≠ .starting then s
  else if idxOk v raw.pub (sqRing s i) && idxOk v raw.cons (sqRing s i) then setSq s i { raw with prod := v }
  else
    let (x, s) := takeFree s
    setSq s i { raw with prod := raw.cons + BitVec.ofNat 32 (x.toNat % (depth (sqRing s i) + 1)) }

/-- Descriptors in flight or being fetched from rings bound to completion ring `j` (R113). -/
def cqLoad (s : State) (j : Fin 64) : Nat :=
  (s.rings.flight.filter (fun f => (sqRing s f.ref.sq).cq = j)).length
    + (s.enz.reads.filter (fun r => match r.use with
        | .fetch q _ _ => !r.done && (sqRing s q).cq = j
        | _ => false)).foldl (fun n r => n + r.len / 64) 0

/-- Descriptors that may be fetched from ring `i` now, with `left` of the tick's 64 (R112 to R114). -/
def fetchable (s : State) (i : Fin 64) (left : Nat) : Nat :=
  let r := sqRing s i
  let c := cqRing s r.cq
  let room := depth c - (c.prod - c.cons).toNat - cqLoad s r.cq
  if fnSt s (.sq i) ≠ .on then 0
  else min (min (min (r.prod - r.cons).toNat 16) left) (min room (8192 - s.rings.flight.length - s.rings.fetching))

/-- Fetches `n` descriptors of ring `i` with one MEM_RD, or two when they wrap (R112). -/
def fetchRing (i : Fin 64) (n : Nat) (s : State) : State :=
  let r := sqRing s i
  let raw := tblGet {} s.rings.sq i.val
  let first := min n (depth r - r.cons.toNat % depth r)
  let k2 := r.cons + BitVec.ofNat 32 first
  let s := setSq s i { raw with cons := raw.cons + BitVec.ofNat 32 n, consumed := raw.consumed + BitVec.ofNat 32 n }
  let s := { s with rings.fetching := s.rings.fetching + n }
  let s := hostRead (.fetch i r.cons first) (entryAddr r 64 r.cons) (64 * first) s
  if first < n then hostRead (.fetch i k2 (n - first)) (entryAddr r 64 k2) (64 * (n - first)) s else s

/-- Serves the submission rings in the order of the tie rule (R111). -/
def fetchAll : List (Fin 64) → Nat → State → State
  | [], _, s => s
  | i :: t, left, s =>
    let n := fetchable s i left
    if n = 0 then fetchAll t left s else fetchAll t (left - n) (fetchRing i n s)

/-- The 64 rings in the order of the tie rule in this tick; in recovery SQ0 alone (R73, R111, R693). -/
def ringOrder (s : State) : List (Fin 64) :=
  if s.attic.recovery then [0] else (upFrom 0 64).map (fun k => ⟨(k + 64 - (nowTick s).toNat % 64) % 64, Nat.mod_lt _ (by decide)⟩)

/-- Fetching is paused while the Attic restarts (R688). -/
def fetchPaused (s : State) : Bool := s.attic.restarting

/-- Applies one page (R107, R110). -/
def applyPage (page : List Byte) (s : State) : State :=
  applyEvCons page ((List.finRange 64).foldl (fun s i => applyCqCons page i (applySqProd page i s)) s)

/-- DOORBELL_PAGE_APPLY (R107, R110, R111): the pages that have come back for this boundary apply, in order. -/
def doorbellApply (s : State) : State :=
  let due := s.rings.page.filter (fun p => reached s p.2)
  if s.tick.slot ≠ 0 || due.isEmpty then s
  else
    let s := { s with rings.page := s.rings.page.filter (fun p => !reached s p.2) }
    let s := evFlush 512 (due.foldl (fun s p => applyPage p.1 s) s)
    if fetchPaused s then s else fetchAll (ringOrder s) 64 s

/-! ### The descriptor audit (R58, R62) -/

/-- Descriptors of ring `i` in flight or being fetched. -/
def sqLoad (s : State) (i : Fin 64) : Nat :=
  (s.rings.flight.filter (fun f => f.ref.sq = i)).length
    + (s.enz.reads.filter (fun r => match r.use with
        | .fetch q _ _ => !r.done && q = i
        | _ => false)).foldl (fun n r => n + r.len / 64) 0

/-- Started descriptors of a ring for which no work is left in flight (R62). -/
def orphans (s : State) (i : Fin 64) : List DRef :=
  (s.rings.flight.filter (fun f => f.ref.sq = i && f.stage = .started && f.waits = 0)).map (·.ref)

/-- Completions written, and descriptors of the ring with work in flight, less those consumed: what Table 3-1 wants to be zero. -/
def ringDiff (s : State) (i : Fin 64) : Int :=
  let r := tblGet {} s.rings.sq i.val
  (sqLoad s i : Int) - (orphans s i).length - (r.consumed - r.completed).toNat

/-- The audit of one ring: a mismatch draws one event with the signed difference, descriptors without work in flight complete with
TIMEOUT, and the count returns to its reference (R58 to R62). -/
def auditRing (s : State) (i : Fin 64) : State :=
  let d := ringDiff s i
  if d = 0 then s
  else
    let os := orphans s i
    let s := os.foldl (fun s d => complete d stTimeout 0 s) (auditMismatch 4 i.val 0 d (fnGen s (.sq i)) s)
    let r := tblGet {} s.rings.sq i.val
    setSq s i { r with completed := r.consumed - BitVec.ofNat 32 (sqLoad s i) }

/-- DESCRIPTOR_AUDIT (R22, R58, R62): every 4,096 elapsed ticks. -/
def execDescriptorAudit (s : State) : Out :=
  .next (if s.tick.slot = 0 && s.tick.elapsed.toNat % 4096 = 0 then (List.finRange 64).foldl auditRing s else s)

end Machine
end Sys2Proof
end

