-- ==== Sys2Proof/Machine/OwnItems.lean ====
section
/-!
DEFINITION. The fabric items that the part itself owns (R169 to R178, R816): tags, sending, counting of answers.
-/
namespace Sys2Proof
namespace Machine

/-- A tag is free: no item of the part carries it, and it has waited out R178. -/
def tagFree (s : State) (t : Nat) : Bool :=
  s.items.own.all (fun o => o.tag.toNat ≠ t)
    && s.items.quarantine.all (fun q => q.1.toNat ≠ t || decide (ageLimit s + 8 ≤ ageOf s q.2))

/-- Lowest free tag of a range. -/
def findTag (s : State) : Nat → Nat → Option Nat
  | _, 0 => none
  | t, n + 1 => if tagFree s t then some t else findTag s (t + 1) n

/-- Tags of a Workroom port (R532), of a gateway port (R614), and of data movement, which has the rest (log 9). -/
def workTags (port : PortId) : Nat × Nat := (8192 * (port.val - 120), 8192)
def gwTags (n : Nat) : Nat × Nat := (49152 + 512 * (n - 80), 512)
def hostTags : Nat × Nat := (57344, 8192)

/-- A packet of the part's own enters the core; where no route lives, its FAIL stands at the input's own port at once
(R167, R293). -/
def injectOwn (i : PortId) (p : Packet) (s : State) : State :=
  let p := sealPkt (stamp s p)
  match hopIngress i p s with
  | (.go o q, s') => enqueue i .unicast o 0 0 false (orderedHold s q) q s'
  | (.fail st, s') => { s' with core.delivered := s'.core.delivered ++ [(i, failOf (myNode s) st p)] }

/-- The item of a request: what the part keeps of it. -/
def ownOf (s : State) (tag : BitVec 16) : Option Own := s.items.own.find? (fun o => o.tag = tag)

/-- The item is over. -/
def dropOwn (tag : BitVec 16) (s : State) : State := { s with items.own := s.items.own.filter (fun o => o.tag ≠ tag) }

/-- Request packets of an item: one for a read or an atomic, one for each piece of a write (R166, R170, R816). -/
def itemPackets (base : Packet) (len : Nat) (payload : List Byte) : List Packet :=
  if base.opcode = 0x02 then
    (piecesOf base.addr len).map (fun c => withPayload (slice payload (c.1 - base.addr.toNat) c.2)
      { base with addr := BitVec.ofNat 64 c.1, itemLen := BitVec.ofNat 32 len, last := c.1 + c.2 = base.addr.toNat + len })
  else if base.opcode = 0x01 then [{ base with itemLen := BitVec.ofNat 32 len, last := true }]
  else [withPayload payload { base with itemLen := BitVec.ofNat 32 payload.length, last := true }]

/-- Sends an item through core input `i` with a tag of a range; none while every tag of it is in use. `base` gives
opcode, channel, address, tenant, generation and order. -/
def sendItem (i : PortId) (tags : Nat × Nat) (base : Packet) (len : Nat) (payload : List Byte) (use : OwnUse) (s : State) :
    Option State :=
  match findTag s tags.1 tags.2 with
  | none => none
  | some t =>
    let tag := BitVec.ofNat 16 t
    let base := { base with tag := tag, src := myNode s, dst := addrNode base.addr }
    let o : Own := { tag := tag, opcode := base.opcode, dst := base.dst, addr := base.addr, len := len, use := use,
                     sent := s.tick.elapsed, inp := i }
    let s := (itemPackets base len payload).foldl (fun s p => injectOwn i p s) { s with items.own := s.items.own ++ [o] }
    let outs := ((inPort s i).queue.filter (fun e => e.pkt.tag = tag && !isAnswer e.pkt.opcode)).map (·.out)
    some { s with items.own := s.items.own.map (fun x => if x.tag = tag then { x with outs := outs } else x) }

/-- Channel of a request that the part sends (R163). -/
def reqVc (op : BitVec 8) : Vc := match opRow op with
  | some (v, _, _) => v
  | none => 0

/-- Takes an answer from its port: the item it answers, with the packet removed from the delivered ones; otherwise the
answer is counted and discarded (R168). -/
def takeAnswer (p : Packet) (s : State) : Option Own × State :=
  let s := takeDelivered p s
  match ownOf s p.tag with
  | some o => if o.dst = p.src || p.opcode = 0x8F then (some o, s) else (none, { s with items.stray := s.items.stray + 1 })
  | none => (none, { s with items.stray := s.items.stray + 1 })

/-- Counts the bytes of an RD_DATA against its item (R65, R173); true when the count equals the declared length. -/
def countRead (o : Own) (p : Packet) (s : State) : Bool × Own × State :=
  let off := p.addr.toNat - o.addr.toNat
  let o' := { o with got := o.got + p.payLen.toNat, data := memWrite o.data off p.payload }
  let s := { s with items.own := s.items.own.map (fun x => if x.tag = o.tag then o' else x) }
  (decide (o'.got = o.len), o', s)

/-- The bytes that a read item collected. -/
def ownBytes (o : Own) : List Byte := memRead o.data 0 o.len

/-- The address is in the module's own node. -/
def isLocal (s : State) (a : Word) : Bool := addrNode a = myNode s

/-- A host or stream access of the part to its own memory: checks 2, 3 and 5 against the topcoat (R399). -/
def localCheck (s : State) (t : BitVec 8) (a : Word) (len : Nat) (pm : Permit) : Checked :=
  checkRange s s.route.top t (addrOff a) len pm

end Machine
end Sys2Proof
end

