-- ==== Sys2Proof/Machine/Traffic.lean ====
section
/-!
DEFINITION. Traffic management (chapter 09): eligibility, deficit round-robin, shapers, gates, refills and pacing.
-/
namespace Sys2Proof
namespace Machine

/-! ### Gates (R333 to R339) -/

/-- An entry of a gate list: time in slots from list position 0, and its open mask (Table 9-11). -/
def gateEntry (s : State) (l : LinkId) (bank : Bool) (j : Nat) : Nat × BitVec 8 :=
  let w := reg s .tmGateEntry l.val (64 * bank.toNat + j)
  (fld w 8 12 * 1024 + fld w 20 10, BitVec.ofNat 8 (fld w 0 8))

/-- The entries of a bank. -/
def gateList (s : State) (l : LinkId) (bank : Bool) (n : Nat) : List (Nat × BitVec 8) :=
  (upFrom 0 n).map (gateEntry s l bank)

/-- gate_en of a link port (Table 9-10). -/
def gateEn (s : State) (l : LinkId) : Bool := bit (reg s .tmGateCtrl l.val) 0

/-- Slots since list position 0 at the current slot; slots beyond 1,023 count as 1,023 (R43, R55). -/
def gateTime (s : State) (l : LinkId) : Nat := (tmOf s l).pos * 1024 + min s.tick.slot 1023

/-- Mask in force at a time: that of the last entry not after it (R334). -/
def gateMaskAt (es : List (Nat × BitVec 8)) (t : Nat) : BitVec 8 :=
  match (es.filter (fun e => decide (e.1 ≤ t))).getLast? with
  | some e => e.2
  | none => match es.getLast? with
    | some e => e.2
    | none => 0xFF

/-- The gate of queue `v` is open (R334, R335). -/
def gateOpen (s : State) (l : LinkId) (v : Nat) : Bool :=
  !gateEn s l || bit (gateMaskAt (gateList s l (tmOf s l).bank (tmOf s l).count) (gateTime s l)) v

/-- Slots from now to the next entry at which bit `v` passes from 1 to 0 (R338); none when no entry closes it. -/
def nextClosing (s : State) (l : LinkId) (v : Nat) : Option Nat :=
  let g := tmOf s l
  let es := gateList s l g.bank g.count
  let now := gateTime s l
  let p := g.period * 1024
  let prev := fun (i : Nat) => if i = 0 then es.length - 1 else i - 1
  let closes := (upFrom 0 es.length).filter (fun i => !bit (es.getD i (0, 0)).2 v && bit (es.getD (prev i) (0, 0)).2 v)
  let dist := closes.map (fun i =>
    let t := (es.getD i (0, 0)).1
    if now < t then t - now else t + p - now)
  dist.foldl (fun m d => match m with
    | none => some d
    | some x => some (min x d)) none

/-- Transmission time of a packet on a fabric port, in slots (Table 9-4). -/
def txTime (b body : Nat) : Nat := ceilDiv (64 * (ceilDiv b body + 1)) 10

/-- The guard band admits a start (R338). -/
def guardOk (s : State) (l : LinkId) (v : Nat) (p : Packet) : Bool :=
  !gateEn s l || (match nextClosing s l v with
    | some d => decide (txTime (pktCharge (link s l).gen p) (linkBody (link s l)) ≤ d)
    | none => true)

/-- Conditions of R333 on a pending list; the first entry that breaks them, when one does. -/
def gateFault (p : Nat) (es : List (Nat × BitVec 8)) : Option Nat :=
  (upFrom 0 es.length).find? (fun i =>
    let t := (es.getD i (0, 0)).1
    (i = 0 && t ≠ 0) || (0 < i && decide (t ≤ (es.getD (i - 1) (0, 0)).1)) || decide (p * 1024 ≤ t)
      || decide (4 < ((es.take (i + 1)).filter (fun e => e.1 / 1024 = t / 1024)).length))

/-- Pending period, count and base of a port (Table 9-10). -/
def pendPeriod (s : State) (l : LinkId) : Nat := fld (reg s .tmGateCtrl l.val) 16 12 + 1
def pendCount (s : State) (l : LinkId) : Nat := fld (reg s .tmGateCtrl l.val) 32 7
def pendBase (s : State) (l : LinkId) : BitVec 48 := BitVec.ofNat 48 (fld (reg s .tmGateCtrl l.val 0 1) 0 48)

/-- A request to swap banks, written at a boundary (R336). -/
def swapRequest (l : LinkId) (s : State) : State :=
  if (tmOf s l).swap.isSome then s else setTm s l { tmOf s l with swap := some s.tick.elapsed }

/-- Meaning of SWAP: a write of 1 to swap in TM_GATE_CTRL. -/
def execSwapReq (l : LinkId) (s : State) : Out := .next (swapRequest l s)

/-- GATE_BANK_SWAP (R336): at the first boundary that meets its three conditions, or has passed a tick number that meets them (R44),
the banks swap, or an invalid pending list is refused. -/
def gateBankSwap (l : LinkId) (s : State) : State :=
  let g := tmOf s l
  match g.swap with
  | none => s
  | some w =>
    let b := pendBase s l
    let p := pendPeriod s l
    if !atStep 8 s || ageOf s w < 2 || later b (nowTick s) || decide (tickSpan s ≤ (nowTick s - b).toNat % p) then s
    else
      let es := gateList s l (!g.bank) (pendCount s l)
      match gateFault p es with
      | some i => setPhase 8 (raiseEv 0x50 l.val i (fnGen s (.port l)) (setTm s l { g with swap := none, swapErr := true }))
      | none => setPhase 8 (setTm s l { g with swap := none, bank := !g.bank, period := p, count := pendCount s l, base := b,
                                               pos := (nowTick s - b).toNat % p })

/-- Step 8 of Table 2-6: the list position of every port (R55). -/
def gateStep (s : State) : State :=
  { s with tm := allLinks.foldl (fun t l =>
      tblMod {} t l.val (fun g => { g with pos := (nowTick s - g.base).toNat % g.period })) s.tm }

/-! ### Shapers (R328 to R332) and the scheduler (R324 to R327) -/

/-- len_adj, and the enables, bursts and rates of a port's shapers (Tables 9-8 and 9-9). -/
def portAdj (s : State) (l : LinkId) : Nat := fld (reg s .tmPortCfg l.val) 0 8
def pshapeEn (s : State) (l : LinkId) : Bool := bit (reg s .tmPortCfg l.val) 8
def shapeEn (s : State) (l : LinkId) (v : Nat) : Bool := bit (reg s .tmShaper l.val v) 0

/-- Largest charged length that a port can send (R330): that of a whole packet of its link's generation. -/
def largestCharge (s : State) (l : LinkId) : Nat :=
  let g := (link s l).gen
  let b := if g = 1 then 64 * 5 else 32 + (if g = 0 then 4096 else genMax g) + 8
  if ethMode s l.val then charged (fld (reg s .ethPortCfg (l.val - 80)) 16 14) (portAdj s l) else charged b (portAdj s l)

/-- Bytes charged to the port for a packet (R322). -/
def portCharge (s : State) (l : LinkId) (p : Packet) : Nat := charged (pktCharge (link s l).gen p) (portAdj s l)

/-- Both shapers hold C (Table 9-3, R332). -/
def shapersOk (s : State) (l : LinkId) (v c : Nat) : Bool :=
  (!shapeEn s l v || decide (c * 256 ≤ tblGet 0 (tmOf s l).tokens v)) && (!pshapeEn s l || decide (c * 256 ≤ (tmOf s l).ptokens))

/-- Head packet of queue `v` of a fabric port: passed to the queue and not started (R324). -/
def headOf (s : State) (l : LinkId) (v : Nat) : Option OutPkt :=
  (outPort s (linkPort l)).pkts.find? (fun q => q.passed && !q.started && q.pkt.vc.val = v)

/-- The packet's whole cost is held in its partition, which is not frozen (R218, R220, R231). -/
def creditsOk (s : State) (l : LinkId) (p : Packet) : Bool :=
  let k := link s l
  let q := part s l (partOf p)
  decide ((pktUnits k.gen p : Int) ≤ q.held) && q.txFrozen.isNone

/-- Conditions of Table 9-3 for queue `v` of a fabric port, in the order credits, shapers, gate, guard band. -/
def conds (s : State) (l : LinkId) (v : Nat) (p : Packet) : List Bool :=
  [creditsOk s l p, shapersOk s l v (portCharge s l p), gateOpen s l v, guardOk s l v p]

/-- Queue `v` is eligible (R324). -/
def eligible (s : State) (l : LinkId) (v : Nat) : Bool :=
  match headOf s l v with
  | some q => (conds s l v q.pkt).all id
  | none => false

/-- quantum of a queue (R325). -/
def quantum (s : State) (l : LinkId) (v : Nat) : Nat := fld (reg s .linkVcCfg l.val v) 32 8 * 128

/-- The loop of select (R325) over the eligible queues `el` with charges `c`: `fuel` bounds its turns. -/
def drrLoop (el : Nat → Bool) (c quant : Nat → Nat) : Nat → Nat → Tbl Int → Option (Nat × Tbl Int)
  | 0, _, _ => none
  | fuel + 1, cur, d =>
    if el cur && decide ((c cur : Int) ≤ tblGet 0 d cur) then some (cur, d)
    else
      let nxt := (cur + 1) % 7
      drrLoop el c quant fuel nxt (if el nxt then tblMod 0 d nxt (· + quant nxt) else d)

/-- select (R325): the queue, and pointer and deficits after the loop. -/
def selectQueue (el : Nat → Bool) (c quant : Nat → Nat) (g : Tm) : Option (Nat × Tm) :=
  if el 7 then some (7, g)
  else if !(upFrom 0 7).any el then none
  else (drrLoop el c quant 1000 g.cur g.deficit).map (fun r => (r.1, { g with cur := r.1, deficit := r.2 }))

/-- Charges a start of C bytes from queue `v` (R325, R326, R331); `last` tells that the queue becomes empty. -/
def chargeStart (s : State) (l : LinkId) (v c : Nat) (last : Bool) (g : Tm) : Tm :=
  { g with deficit := if v = 7 then g.deficit else if last then tblSet 0 g.deficit v 0 else tblMod 0 g.deficit v (· - (c : Int)),
           tokens := if shapeEn s l v then tblMod 0 g.tokens v (· - c * 256) else g.tokens,
           ptokens := if pshapeEn s l then g.ptokens - c * 256 else g.ptokens }

/-- The pair that a packet enters in the crossing record (Table 22-4). -/
def crossPair (p : Packet) : Option CrossPair :=
  if p.opcode = 0x02 ∧ p.mcast then some { owner := p.src, other := p.dst, group := true }
  else if isAnswer p.opcode then some { owner := p.dst, other := p.src }
  else if p.opcode.toNat ≤ 0x11 then some { owner := p.src, other := p.dst }
  else none

/-- Enters a pair in a window of at most 8,192 (R745). A pair that finds it full is entered as (owner, any), in the place of
that owner's pairs; with none of them there, the window overflows (log 36). -/
def crossEnter (c : CrossPair) (w : CrossWindow) : CrossWindow :=
  let any : CrossPair := { owner := c.owner, any := true }
  if w.pairs.contains c || w.pairs.contains any then w
  else if w.pairs.length < 8192 then { w with pairs := w.pairs ++ [c] }
  else if w.pairs.any (fun x => x.owner = c.owner) then
    { w with pairs := w.pairs.filter (fun x => x.owner ≠ c.owner) ++ [any] }
  else { w with overflow := true }

/-! ### Packets in frames (R195, R196, R261) -/

/-- Cells of a packet at an output that are in, from its first on without a gap. -/
def cellsReady (q : OutPkt) : Nat :=
  if q.kind = .mcast then ((upFrom 0 q.count).takeWhile (fun k => q.idxs.contains k)).length else q.have_

/-- Bytes that a packet takes on a link of generation `g` and that are ready to go. A packet cut short ends at once: what it lacks is
filled (R266). -/
def bytesReady (g : BitVec 2) (q : OutPkt) : Nat :=
  if q.cut || q.have_ = q.count then pktCharge g q.pkt
  else if g = 1 then 64 * (256 * cellsReady q / 62) else 256 * cellsReady q

/-- Bytes that the packet under way puts into a frame with `room` bytes left: as many as fit; none while they are not in (R195, R261). -/
def fits (g : BitVec 2) (q : OutPkt) (pos room : Nat) : Option Nat :=
  let n := min (pktCharge g q.pkt - pos) room
  if pos + n ≤ bytesReady g q then some n else none

/-- The packet as it goes out: with the header CRC of this node, and ended with stomp when it has been cut short (R143, R266). -/
def sentPkt (q : OutPkt) : Packet := { q.pkt with hdrCrc := hdrCrcOf q.pkt, stomp := q.pkt.stomp || q.cut }

/-- Number of the frame time that nanosecond `ns` lies in: a frame lasts 6.4 ns (R192). -/
def frameNo (ns : Nat) : Nat := 5 * ns / 32

/-- Nanosecond by which body byte `e` of the frame being sent has left, over `w` lanes. -/
def leavesAt (ns w e : Nat) : Nat := ceilDiv (32 * (frameNo ns * (320 * w) + 16 + e)) (5 * (320 * w))

/-- first_pkt of a frame in which a piece from byte `pos` of a packet starts at body byte `at_`: the first packet, or on a K1 link the
first flit, that starts in it (Table 6-2). -/
def firstOf (g : BitVec 2) (pos at_ n : Nat) : BitVec 8 :=
  let d := if g = 1 then (64 - pos % 64) % 64 else if pos = 0 then 0 else n
  if d < n then BitVec.ofNat 8 ((at_ + d) / 8) else 0xFF

/-- Puts `n` bytes of the packet under way behind the pieces of frame `f`, of which `used` body bytes are taken. -/
def addPiece (g : BitVec 2) (q : OutPkt) (pos n used : Nat) (f : TxFrame) : TxFrame :=
  { f with pieces := f.pieces ++ [⟨sentPkt q, pos, n⟩], first := if f.first = 0xFF then firstOf g pos used n else f.first }

/-- A packet that starts while the frame being sent has room takes its first bytes there (R195). -/
def layTail (l : LinkId) (q : OutPkt) (s : State) : State :=
  let k := link s l
  match k.tx, k.sent with
  | some t, some f =>
    match fits k.gen q t.pos k.room with
    | some n =>
      if n = 0 then s
      else
        let used := f.pieces.foldl (fun m p => m + p.len) 0
        let f' := addPiece k.gen q t.pos n used f
        setLink s l { k with
          tx := some { t with pos := t.pos + n, leaves := leavesAt s.tick.ns (laneCount k.lanes) (used + n) },
          sent := some f', replay := k.replay.map (fun x => if x.seq = f.seq then f' else x),
          room := if t.pos + n = pktCharge k.gen q.pkt then k.room - n else 0 }
    | none => s
  | _, _ => s

/-- Starts packet `q` on a link: credits, first bytes, crossing record and counters (R220, R327, R745). -/
def startOn (l : LinkId) (v : Nat) (q : OutPkt) (s : State) : State :=
  let o := linkPort l
  let k := link s l
  let p := { q.pkt with hdrCrc := hdrCrcOf q.pkt }
  let u := pktUnits k.gen p
  let close := if gateEn s l then (nextClosing s l v).map (s.tick.ns + ·) else none
  let s := modPart l (partOf p) (fun x => { x with held := x.held - u, sent := x.sent + BitVec.ofNat 32 u }) s
  let s := modLink l (fun k => { k with
    tx := some { uid := q.uid, queue := p.vc, start := s.tick.ns, closing := close },
    crossNew := match k.vexlor, crossPair p with
      | true, some c => crossEnter c k.crossNew
      | _, _ => k.crossNew }) s
  let s := modOut o (fun x => { x with pkts := x.pkts.map (fun y => if y.uid = q.uid then { y with started := true } else y) }) s
  bump l.val (24 * v + 3) (pktLen p) (bump l.val (24 * v + 2) 1 (peepFrame l true false (pktBytes p) (layTail l q s)))

/-- Packets whose start only the guard band defers (Table 23-3, word 24v + 9). -/
def countGuard (l : LinkId) (s : State) : State :=
  (upFrom 0 8).foldl (fun t v => match headOf s l v with
    | some q => match conds s l v q.pkt with
      | [true, true, true, false] => bump l.val (24 * v + 9) 1 t
      | _ => t
    | none => t) s

/-- PACKET_START on a fabric port (R325): with no packet under way, picks a queue and starts its head packet. -/
def packetStart (l : LinkId) (s : State) : State :=
  let k := link s l
  if k.tx.isSome || !k.up || k.retrain then s
  else
    let s := countGuard l s
    let c := fun v => match headOf s l v with
      | some q => portCharge s l q.pkt
      | none => 0
    match selectQueue (eligible s l) c (quantum s l) (tmOf s l) with
    | none => s
    | some (v, g) =>
      match headOf s l v with
      | none => s
      | some q =>
        let more := (outPort s (linkPort l)).pkts.any (fun x => x.passed && !x.started && x.pkt.vc.val = v && x.uid ≠ q.uid)
        startOn l v q (setTm s l (chargeStart s l v (c v) (!more) g))

/-- Stall counters of a link port in a slot: a non-empty queue that meets every condition but one (R764). -/
def countStalls (l : LinkId) (s : State) : State :=
  if (outPort s (linkPort l)).pkts.isEmpty then s
  else (upFrom 0 8).foldl (fun t v => match headOf s l v with
    | some q => match conds s l v q.pkt with
      | [false, true, true, true] => bump l.val (24 * v + 5) 1 t
      | [true, false, true, true] => bump l.val (24 * v + 6) 1 t
      | [true, true, false, true] => bump l.val (24 * v + 7) 1 t
      | _ => t
    | none => t) s

/-! ### Step 7: refills and pacing (R329, R330, R343, R348, R352) -/

/-- Bucket of a shaper after step 7; a smaller burst clamps it. -/
def refillBucket (en : Bool) (tokens rate burst largest : Nat) : Nat :=
  if en then min (tokens + rate) (max burst largest * 256) else min tokens (max burst largest * 256)

/-- Shapers of one port at step 7 (R329, R330, R348). -/
def refillPort (s : State) (l : LinkId) (g : Tm) : Tm :=
  let big := largestCharge s l
  { g with
    ptokens := refillBucket (pshapeEn s l) g.ptokens (fld (reg s .tmPortCfg l.val 0 1) 0 32) (fld (reg s .tmPortCfg l.val) 16 24) big,
    tokens := (upFrom 0 8).foldl (fun t v => tblMod 0 t v (fun x =>
      refillBucket (shapeEn s l v) x (fld (reg s .tmShaper l.val v) 32 32) (fld (reg s .tmShaper l.val v) 8 24) big)) g.tokens }

/-- A meter at step 7 (R343, R348): a change of mode fills its buckets, smaller bursts clamp them. -/
def refillMeter (s : State) (i : Nat) (m : Meter) : Meter :=
  let mode := BitVec.ofNat 2 (fld (reg s .tmMeter i) 0 2)
  let cir := fld (reg s .tmMeter i 0 1) 0 32
  let pir := fld (reg s .tmMeter i 0 1) 32 32
  let cbs := fld (reg s .tmMeter i 0 2) 0 24 * 256
  let pebs := fld (reg s .tmMeter i 0 2) 32 24 * 256
  if mode ≠ m.mode then { tc := cbs, te := pebs, mode := mode }
  else if mode = 1 then
    let tc := min m.tc cbs + cir
    { m with tc := min tc cbs, te := min (min m.te pebs + (tc - cbs)) pebs }
  else if mode = 2 then { m with tc := min (min m.tc cbs + cir) cbs, te := min (min m.te pebs + pir) pebs }
  else { m with tc := min m.tc cbs, te := min m.te pebs }

/-- Pacing of one internal input at step 7 (R352). Slowness is 128 minus the rate. -/
def repace (s : State) (q : InPort) : InPort :=
  let w := reg s .tmInject
  let lo := fld w 8 8
  let up := tblMap 0 (fun o x => if q.congested.contains o then x else x - fld w 16 8) q.slow
  { q with slow := q.congested.foldl (fun t o => tblMod 0 t o (fun x => min (128 - (128 - x) / 2) (128 - lo))) up, congested := [] }

/-- An output becomes congested in this tick for every internal input (R351). -/
def congest (o : PortId) (s : State) : State :=
  allPorts.foldl (fun s i => if 96 ≤ i.val ∧ i.val ≠ 126 then
    modIn i (fun q => { q with congested := if q.congested.contains o.val then q.congested else q.congested ++ [o.val] }) s else s) s

/-- Step 7 of Table 2-6 for shapers, meters and pacing. -/
def refillAll (s : State) : State :=
  let s := allLinks.foldl (fun t l => setTm t l (refillPort s l (tmOf s l))) s
  let s := { s with meters := (upFrom 0 384).foldl (fun t i => tblMod {} t i (refillMeter s i)) s.meters }
  (allPorts.filter (fun i => decide (96 ≤ i.val))).foldl (fun t i => modIn i (repace s) t) s

end Machine
end Sys2Proof
end

