-- ==== Sys2Proof/Machine/EthWire.lean ====
section
/-!
DEFINITION. The bytes of the frames that an Ethernet port sends (R5, R600 to R606, R625). Their fields are in network order. Where the
specification only names a standard, the layout is that standard's (log 118).
-/
namespace Sys2Proof
namespace Machine

/-! ### Ports and queue pairs -/

def ethPort (s : State) (l : Fin 16) : EthPort := tblGet {} s.gw.port l.val
def modEth (l : Fin 16) (f : EthPort → EthPort) (s : State) : State :=
  { s with gw.port := tblSet {} s.gw.port l.val (f (ethPort s l)) }

def qpOf (s : State) (q : Fin 16384) : Qp := tblGet {} s.gw.qp q.val
def modQp (q : Fin 16384) (f : Qp → Qp) (s : State) : State := { s with gw.qp := tblSet {} s.gw.qp q.val (f (qpOf s q)) }

/-- Link of an Ethernet port (R600), and its core port. -/
def ethLink (l : Fin 16) : LinkId := ⟨80 + l.val, by omega⟩
def ethCore (l : Fin 16) : PortId := linkPort (ethLink l)

/-- Word `w` of ETH_PORT_CFG (Table 17-5). -/
def ethCfg (s : State) (l : Fin 16) (w : Nat) : Word := reg s .ethPortCfg l.val 0 w

/-- mac_addr, ipv4_addr and ipv6_addr (Table 17-5). -/
def ethMac (s : State) (l : Fin 16) : Nat := fld (ethCfg s l 2) 0 48
def ethIp4 (s : State) (l : Fin 16) : Nat := fld (ethCfg s l 3) 0 32
def ethIp6 (s : State) (l : Fin 16) : BitVec 128 := ethCfg s l 5 ++ ethCfg s l 4

/-! ### Lengths -/

/-- Bytes of the headers and trailers of a RoCEv2 frame: Ethernet with FCS, IP, UDP, BTH and ICRC. -/
def roceHeads (c : QpCtx) : Nat := 14 + (if c.vlan = 0 then 0 else 4) + (if c.ipv6 then 40 else 20) + 8 + 12 + 4 + 4

/-- Bytes of the extended header that an opcode carries: RETH 16, AETH 4, and a CNP's 16 reserved bytes. -/
def extBytes : RoceOp → Nat
  | .writeFirst => 16
  | .writeOnly => 16
  | .readReq => 16
  | .readFirst => 4
  | .readLast => 4
  | .readOnly => 4
  | .ack => 4
  | .cnp => 16
  | _ => 0

/-- Bytes of a frame, FCS included. -/
def frameLen (s : State) : EthTx → Nat
  | .roce q p => match (qpOf s q).ctx with
    | some c => max 64 (roceHeads c + extBytes p.op + 4 * ceilDiv p.payload.length 4)
    | none => 64
  | .arp _ _ => 64
  | .ndp _ _ => 90
  | .pfc _ _ => 64

/-! ### Bytes -/

/-- The ones' complement sum of 16-bit words, complemented: the checksum of IPv4 and ICMPv6. -/
def ipSum (bs : List Byte) : Nat :=
  let t := (upFrom 0 (ceilDiv bs.length 2)).foldl (fun n i => n + beNat (slice bs (2 * i) 2)) 0
  let t := t % 65536 + t / 65536
  65535 - (t % 65536 + t / 65536)

/-- Ethernet header: addresses, an 802.1Q tag where there is one, and the type. -/
def ethHead (dst src : Nat) (tag : Option Nat) (type : Nat) : List Byte :=
  beBytes 6 dst ++ beBytes 6 src ++ (match tag with
    | some t => beBytes 2 0x8100 ++ beBytes 2 t
    | none => []) ++ beBytes 2 type

/-- A frame padded to 60 bytes, and its FCS. -/
def ethFrame (bs : List Byte) : List Byte :=
  let b := bs ++ List.replicate (60 - bs.length) 0
  b ++ leBytes 4 (crc32 b).toNat

/-- IPv4 header without options: traffic class, length of what follows, protocol, addresses; DF = 1 and TTL 64 (R625). -/
def ip4Head (tos len proto src dst : Nat) : List Byte :=
  let h := fun sum : Nat => [0x45, BitVec.ofNat 8 tos] ++ beBytes 2 (20 + len) ++ beBytes 2 0 ++ beBytes 2 0x4000
    ++ [64, BitVec.ofNat 8 proto] ++ beBytes 2 sum ++ beBytes 4 src ++ beBytes 4 dst
  h (ipSum (h 0))

/-- IPv6 header: flow label 0 (R625). -/
def ip6Head (tos len next hops src dst : Nat) : List Byte :=
  beBytes 4 (6 * 2 ^ 28 + tos * 2 ^ 20) ++ beBytes 2 len ++ [BitVec.ofNat 8 next, BitVec.ofNat 8 hops] ++ beBytes 16 src ++ beBytes 16 dst

/-- BTH code of an opcode of the reliable connected transport. -/
def bthCode (p : RoceOp) : Nat :=
  match p with
  | .sendFirst => 0x00
  | .sendMiddle => 0x01
  | .sendLast => 0x02
  | .sendOnly => 0x04
  | .writeFirst => 0x06
  | .writeMiddle => 0x07
  | .writeLast => 0x08
  | .writeOnly => 0x0A
  | .readReq => 0x0C
  | .readFirst => 0x0D
  | .readMiddle => 0x0E
  | .readLast => 0x0F
  | .readOnly => 0x10
  | .ack => 0x11
  | .cnp => 0x81

/-- BTH with its extended header: the last packet of a WRITE or SEND, and a READ request, ask for an acknowledgement. -/
def bthBytes (c : QpCtx) (p : RoceTx) : List Byte :=
  let pad := (4 - p.payload.length % 4) % 4
  let asks := match p.op with
    | .sendLast | .sendOnly | .writeLast | .writeOnly | .readReq => true
    | _ => false
  [BitVec.ofNat 8 (bthCode p.op), BitVec.ofNat 8 (pad * 16)] ++ beBytes 2 0xFFFF ++ beBytes 4 c.dstQpn.toNat
    ++ beBytes 4 (asks.toNat * 2 ^ 31 + p.psn.toNat)
    ++ (match p.op with
        | .writeFirst | .writeOnly | .readReq => beBytes 8 p.va.toNat ++ beBytes 4 p.rkey.toNat ++ beBytes 4 p.len
        | .readFirst | .readLast | .readOnly | .ack => [p.syndrome] ++ beBytes 3 p.msn.toNat
        | .cnp => List.replicate 16 0
        | _ => [])

/-- UDP header: source port 0xC000 + q, destination port 4791, no checksum (R612, R625). -/
def udpHead (q len : Nat) : List Byte := beBytes 2 (0xC000 + q % 16384) ++ beBytes 2 4791 ++ beBytes 2 (8 + len) ++ beBytes 2 0

/-- The invariant CRC: over the packet from its IP header, with the fields that change on the way taken as ones. -/
def icrcOf (v6 : Bool) (ip udp rest : List Byte) : List Byte :=
  let ones := fun (bs : List Byte) (at_ n : Nat) => bs.take at_ ++ List.replicate n 0xFF ++ bs.drop (at_ + n)
  let ip := if v6 then ones ([0x6F] ++ List.replicate 3 0xFF ++ ip.drop 4) 7 1 else ones (ones (ones ip 1 1) 8 1) 10 2
  leBytes 4 (crc32 (List.replicate 8 0xFF ++ ip ++ ones udp 6 2 ++ ones rest 4 1)).toNat

/-- The RoCEv2 frame of a queue pair (R625). -/
def roceBytes (s : State) (q : Fin 16384) (c : QpCtx) (p : RoceTx) : List Byte :=
  let rest := bthBytes c p ++ padTo 4 p.payload
  let udp := udpHead q.val (rest.length + 4)
  let tos := c.dscp.toNat * 4 + (if p.ce then 3 else 2)
  let len := 8 + rest.length + 4
  let ip := if c.ipv6 then ip6Head tos len 17 64 (ethIp6 s c.port).toNat c.dstIp.toNat
    else ip4Head tos len 17 (ethIp4 s c.port) (c.dstIp.toNat % 2 ^ 32)
  ethFrame (ethHead c.dstMac.toNat (ethMac s c.port) (if c.vlan = 0 then none else some (c.pcp.toNat * 8192 + c.vlan.toNat))
      (if c.ipv6 then 0x86DD else 0x0800) ++ ip ++ udp ++ rest ++ icrcOf c.ipv6 ip udp rest)

/-- An ARP reply for ipv4_addr (R603). -/
def arpBytes (s : State) (l : Fin 16) (mac : BitVec 48) (ip : BitVec 32) : List Byte :=
  ethFrame (ethHead mac.toNat (ethMac s l) none 0x0806 ++ beBytes 2 1 ++ beBytes 2 0x0800 ++ [6, 4] ++ beBytes 2 2
    ++ beBytes 6 (ethMac s l) ++ beBytes 4 (ethIp4 s l) ++ beBytes 6 mac.toNat ++ beBytes 4 ip.toNat)

/-- A neighbour advertisement for ipv6_addr, solicited, with the port's address as its option (R603). -/
def ndpBytes (s : State) (l : Fin 16) (mac : BitVec 48) (ip : BitVec 128) : List Byte :=
  let own := (ethIp6 s l).toNat
  let body := fun sum : Nat => [136, 0] ++ beBytes 2 sum ++ beBytes 4 0x60000000 ++ beBytes 16 own ++ [2, 1] ++ beBytes 6 (ethMac s l)
  let pseudo := beBytes 16 own ++ beBytes 16 ip.toNat ++ beBytes 4 32 ++ beBytes 4 58
  ethFrame (ethHead mac.toNat (ethMac s l) none 0x86DD ++ ip6Head 0 32 58 255 own ip.toNat ++ body (ipSum (pseudo ++ body 0)))

/-- A priority flow-control frame for the classes enabled, with their times (R606). -/
def pfcBytes (src : Nat) (enable : BitVec 8) (quanta : List (BitVec 16)) : List Byte :=
  ethFrame (ethHead 0x0180C2000001 src none 0x8808 ++ beBytes 2 0x0101 ++ beBytes 2 enable.toNat ++ quanta.flatMap (fun n => beBytes 2 n.toNat))

/-- The bytes of a frame that a port sends, from the destination address to the FCS. -/
def txBytes (s : State) (l : Fin 16) : EthTx → List Byte
  | .roce q p => match (qpOf s q).ctx with
    | some c => roceBytes s q c p
    | none => []
  | .arp mac ip => arpBytes s l mac ip
  | .ndp mac ip => ndpBytes s l mac ip
  | .pfc c n => pfcBytes (ethMac s l) (BitVec.ofNat 8 (2 ^ c.val)) ((upFrom 0 8).map (fun k => if k = c.val then n else 0))

end Machine
end Sys2Proof
end

