-- ==== Sys2Proof/Machine/Gateway.lean ====
section
/-!
DEFINITION. Ethernet ports and the RDMA gateway (chapter 17).
-/
namespace Sys2Proof
namespace Machine

/-! ### Ports and their registers -/

/-- The link runs as an Ethernet port. -/
def ethOn (s : State) (l : Fin 16) : Bool := bit (ethCfg s l 0) 0

/-- Bytes of line rate in a tick: 800 or 400 Gb/s over 1,024 ns (Table 17-1). -/
def lineRate (s : State) (l : Fin 16) : Nat := if bit (ethCfg s l 0) 1 then 51200 else 102400

/-- Class of a PCP (R604). -/
def pcpClass (s : State) (l : Fin 16) (pcp : Option (BitVec 3)) : Fin 8 :=
  let v := match pcp with
    | some k => fld (ethCfg s l 1) (3 * k.toNat) 3
    | none => fld (ethCfg s l 0) 32 3
  ⟨v % 8, Nat.mod_lt _ (by decide)⟩

/-- A counter of the port's page (Table 23-4, kind 8). -/
def bumpEth (l : Fin 16) (w n : Nat) (s : State) : State := bump (ethPage (80 + l.val)) w n s

/-! ### Frames sent -/

/-- Cells that a queue holds. -/
def queueCells (s : State) (fs : List EthTx) : Nat := fs.foldl (fun n f => n + ceilDiv (frameLen s f) 256) 0

/-- The frame marked with CE where its ECN field allows it (Table 9-6): the gateway's packets are ECT(0) (R625), the others have none. -/
def markFrame : EthTx → Option EthTx
  | .roce q p => some (.roce q { p with ce := true })
  | _ => none

/-- A frame enters the egress queue of a class, marked above the threshold (R349, R605); a mark that its ECN field does not allow is
counted. -/
def ethSend (l : Fin 16) (v : Fin 8) (f : EthTx) (s : State) : State :=
  let q := tblGet [] (ethPort s l).queue v.val
  let m := markCells s (ethLink l).val v.val
  let enter := fun (f : EthTx) (s : State) => modEth l (fun e => { e with queue := tblSet [] e.queue v.val (q ++ [f]) }) s
  if m = 0 || decide (queueCells s q < m) then enter f s
  else match markFrame f with
    | some g => enter g (bump (ethLink l).val (24 * v.val + 4) 1 s)
    | none => enter f (bumpEth l 46 1 s)

/-- A pause frame goes ahead of the other frames of class 7 (R606, log 27). -/
def pfcSend (l : Fin 16) (c : Fin 8) (quanta : BitVec 16) (s : State) : State :=
  bumpEth l (6 + c.val) 1 (modEth l (fun e => { e with queue := tblSet [] e.queue 7 (.pfc c quanta :: tblGet [] e.queue 7) }) s)

/-- Class of the frames that a queue pair sends: that of its PCP, or the port's default where it sends untagged. -/
def qpClass (s : State) (c : QpCtx) : Fin 8 := pcpClass s c.port (if c.vlan = 0 then none else some c.pcp)

/-- Charged length of a queue pair's packet (R322, R627). -/
def txCharge (s : State) (q : Fin 16384) (p : RoceTx) (c : QpCtx) : Nat :=
  charged (frameLen s (.roce q p)) (portAdj s (ethLink c.port))

/-- Moves ready packets into the port's queue while the tick's bytes last (R627): `fuel` bounds their number. -/
def pumpOut (q : Fin 16384) : Nat → State → State
  | 0, s => s
  | fuel + 1, s =>
    let x := qpOf s q
    match x.ctx, x.ready with
    | some c, p :: t =>
      if txCharge s q p c ≤ x.budget then
        pumpOut q fuel (ethSend c.port (qpClass s c) (.roce q p)
          (modQp q (fun x => { x with ready := t, budget := x.budget - txCharge s q p c }) s))
      else s
    | _, _ => s

/-- A packet is ready to be sent. -/
def qpSend (q : Fin 16384) (p : RoceTx) (s : State) : State :=
  let s := modQp q (fun x => { x with ready := x.ready ++ [p] }) s
  pumpOut q (qpOf s q).ready.length s

/-! ### PACKET_START and the end of a frame on an Ethernet port (R605, R607, R608) -/

/-- Transmission time of a frame in slots (Table 9-4). -/
def ethTime (s : State) (l : Fin 16) (b : Nat) : Nat := ceilDiv ((b + 20) * 1024) (lineRate s l)

/-- Conditions of Table 9-3 for the head frame of a class of an Ethernet port, in the order shapers, gate, guard band, pause. -/
def ethConds (s : State) (l : Fin 16) (v : Nat) (f : EthTx) : List Bool :=
  let b := frameLen s f
  [shapersOk s (ethLink l) v (charged b (portAdj s (ethLink l))), gateOpen s (ethLink l) v,
   !gateEn s (ethLink l) || (match nextClosing s (ethLink l) v with
     | some d => decide (ethTime s l b ≤ d)
     | none => true),
   decide (tblGet 0 (ethPort s l).paused v ≤ s.tick.ns)]

/-- The class is eligible (R324). -/
def ethEligible (s : State) (l : Fin 16) (v : Nat) : Bool :=
  match (tblGet [] (ethPort s l).queue v).head? with
  | none => false
  | some f => (ethConds s l v f).all id

/-- A counter of each class whose head frame breaks the one condition of Table 9-3 that `which` finds (Table 23-3). -/
def ethCount (l : Fin 16) (which : List Bool → Option Nat) (s : State) : State :=
  (upFrom 0 8).foldl (fun t v => match (tblGet [] (ethPort s l).queue v).head? with
    | some f => match which (ethConds s l v f) with
      | some w => bump (ethLink l).val (24 * v + w) 1 t
      | none => t
    | none => t) s

/-- The guard band alone defers the start (word 24v + 9). -/
def deferred (c : List Bool) : Option Nat := if c = [true, true, false, true] then some 9 else none

/-- Stall word of the one condition that a queue breaks (R764). -/
def ethStall (c : List Bool) : Option Nat :=
  if c = [false, true, true, true] then some 6 else if c = [true, false, true, true] then some 7
  else if c = [true, true, true, false] then some 8 else none

/-- A start on an Ethernet port: the queue that R325 selects sends its head frame. -/
def ethStart (l : Fin 16) (s : State) : State :=
  let e := ethPort s l
  if !e.up || e.tx.isSome then s
  else
    let s := ethCount l deferred s
    let c := fun v => match (tblGet [] e.queue v).head? with
      | some f => charged (frameLen s f) (portAdj s (ethLink l))
      | none => 0
    match selectQueue (ethEligible s l) c (quantum s (ethLink l)) (tmOf s (ethLink l)) with
    | none => s
    | some (v, g) =>
      match tblGet [] e.queue v with
      | [] => s
      | f :: t =>
        let s := setTm s (ethLink l) (chargeStart s (ethLink l) v (c v) t.isEmpty g)
        let fin := s.tick.ns + ethTime s l (frameLen s f)
        let s := modEth l (fun e => { e with queue := tblSet [] e.queue v t, txEnd := fin, tx := some (⟨v % 8, Nat.mod_lt _ (by decide)⟩, f) }) s
        bump (ethLink l).val (24 * v + 3) (frameLen s f) (bump (ethLink l).val (24 * v + 2) 1
          (peepFrame (ethLink l) true false (txBytes s l f) s))

/-- The last byte of a frame leaves, once its transmission time is over. -/
def ethLast (l : Fin 16) (s : State) : State :=
  match (ethPort s l).tx with
  | none => s
  | some (_, f) => if s.tick.ns < (ethPort s l).txEnd then s else bumpEth l 3 (frameLen s f) (bumpEth l 2 1 (modEth l (fun e => { e with tx := none }) s))

/-! ### Frames received that are not RoCEv2 (R602, R603) -/

/-- The frame is one that another row takes: the right size, address and type, one VLAN tag at most. -/
def ethAccepts (s : State) (l : Fin 16) (f : EthFrame) : Bool :=
  let n := f.bytes.length
  let dst := beNat (slice f.bytes 0 6)
  let t0 := beNat (slice f.bytes 12 2)
  let tagged := t0 = 0x8100 || t0 = 0x88A8
  let at_ := if tagged then 16 else 12
  let ty := beNat (slice f.bytes at_ 2)
  let ip := at_ + 2
  let own := dst = fld (ethCfg s l 2) 0 48
  let v6low := fld (ethCfg s l 4) 0 24
  let udp4 := ty = 0x0800 && leAt f.bytes (ip + 9) 1 = 17 && beNat (slice f.bytes (ip + 22) 2) = 4791
  let udp6 := ty = 0x86DD && leAt f.bytes (ip + 6) 1 = 17 && beNat (slice f.bytes (ip + 42) 2) = 4791
  let arp := ty = 0x0806 && beNat (slice f.bytes (ip + 6) 2) = 1 && beNat (slice f.bytes (ip + 24) 4) = fld (ethCfg s l 3) 0 32
  let nd := ty = 0x86DD && leAt f.bytes (ip + 6) 1 = 58 && leAt f.bytes (ip + 40) 1 = 135
  let pfc := ty = 0x8808 && beNat (slice f.bytes (ip) 2) = 0x0101 && dst = 0x0180C2000001
  f.fcsOk && decide (64 ≤ n) && decide (n ≤ fld (ethCfg s l 0) 16 14) && ty ≠ 0x8100 && ty ≠ 0x88A8
    && ((own && (udp4 || udp6 || arp || nd)) || (dst = 0xFFFFFFFFFFFF && arp) || (dst = 0x3333FF000000 + v6low && nd) || pfc)

/-- PCP of a frame's 802.1Q tag, if it has one (R604). -/
def framePcp (bs : List Byte) : Option (BitVec 3) :=
  if beNat (slice bs 12 2) = 0x8100 then some (BitVec.ofNat 3 (beNat (slice bs 14 2) / 8192)) else none

/-- A frame came in: it is counted in the port's pages, under its class, and shown to the Peephole with whether the port discards it
(R604, R773, Tables 23-3 and 23-4). -/
def ethCame (l : Fin 16) (disc : Bool) (bs : List Byte) (s : State) : State :=
  let v := (pcpClass s l (framePcp bs)).val
  let s := bump (ethLink l).val (24 * v + 1) bs.length (bump (ethLink l).val (24 * v) 1 s)
  peepFrame (ethLink l) false disc bs (bumpEth l 1 bs.length (bumpEth l 0 1 s))

/-- FRAME_DISCARDED (R602, R603): counted and shown to the Peephole. -/
def execFrameDiscarded (l : Fin 16) (f : EthFrame) (s : State) : Out :=
  .next (if !ethOn s l || !(ethPort s l).up || ethAccepts s l f then s
    else
      bumpEth l (if f.fcsOk then 5 else 4) 1 (ethCame l true f.bytes s))

/-- The port is up and takes the frame: it keeps R602, and its type is one of R603. -/
def ethTakes (s : State) (l : Fin 16) (bs : List Byte) : Bool := ethOn s l && (ethPort s l).up && ethAccepts s l ⟨bs, true⟩

/-- Units of a class's share that frames hold. -/
def heldUnits (s : State) (l : Fin 16) (c : Fin 8) : Nat :=
  ((ethPort s l).waiting.filter (fun w => w.cls = c)).foldl (fun n w => n + w.units) 0

/-- Units of a class's share of the input buffer (R605). -/
def classShare (s : State) (l : Fin 16) (c : Fin 8) : Nat :=
  fld (reg s .linkVcCfg (80 + l.val) c.val) 0 15 + fld (reg s .linkVcCfg (80 + l.val) c.val) 16 15

/-- Units of a frame. -/
def frameUnits (bs : List Byte) : Nat := ceilDiv bs.length 64

/-- Class of a received frame (R604). -/
def frameClass (s : State) (l : Fin 16) (bs : List Byte) : Fin 8 := pcpClass s l (framePcp bs)

/-- DEI of a frame's 802.1Q tag, with which it arrives yellow (R344). -/
def frameDei (bs : List Byte) : Bool := beNat (slice bs 12 2) = 0x8100 && beNat (slice bs 14 2) / 4096 % 2 = 1

/-- ECN field of a frame that holds an IP packet. -/
def frameEcn (bs : List Byte) : Nat :=
  let at_ := if beNat (slice bs 12 2) = 0x8100 then 16 else 12
  let ty := beNat (slice bs at_ 2)
  if ty = 0x0800 then leAt bs (at_ + 3) 1 % 4 else if ty = 0x86DD then leAt bs (at_ + 3) 1 / 16 % 4 else 0

/-- The flow-class meter of a frame (R341, R344, R345, Table 9-6): whether the frame goes on with CE, none when it is dropped. -/
def ethMeter (l : Fin 16) (bs : List Byte) (s : State) : Option Bool × State :=
  let c := frameClass s l bs
  let i := 256 + 8 * l.val + c.val
  let (col, s) := meterRun i bs.length (frameDei bs) s
  let k := match col with
    | .green => 0
    | .yellow => 1
    | .red => 2
  let s := bumpEth l (22 + 3 * c.val + k) 1 s
  match meterAction s i col with
  | 2 => (none, s)
  | 1 => if frameEcn bs = 0 then (some false, bumpEth l 46 1 s) else (some true, s)
  | _ => (some (frameEcn bs = 3), s)

/-- A frame that the port takes is metered and finds its class's share (R604, R605): whether it goes on with CE, none when it is
discarded. -/
def ethPass (l : Fin 16) (bs : List Byte) (s : State) : Option Bool × State :=
  match ethMeter l bs s with
  | (none, s) => (none, ethCame l true bs s)
  | (some ce, s) =>
    if classShare s l (frameClass s l bs) < heldUnits s l (frameClass s l bs) + frameUnits bs then (none, ethCame l true bs s)
    else (some ce, ethCame l false bs s)

/-- A frame that the port answers itself is taken, and the answer `f` sent (R603). -/
def ethReply (l : Fin 16) (bs : List Byte) (f : EthTx) (s : State) : State :=
  match ethPass l bs s with
  | (none, s) => s
  | (some _, s) => ethSend l (pcpClass s l none) f s

/-- ARP_REQUEST (R603). -/
def execArpRequest (l : Fin 16) (f : ArpRequest) (s : State) : Out :=
  let ip := fld (ethCfg s l 3) 0 32
  .next (if !ethTakes s l f.frame || ip = 0 || f.targetIp.toNat ≠ ip then s else ethReply l f.frame (.arp f.senderMac f.senderIp) s)

/-- NEIGHBOUR_SOLICITATION (R603). -/
def execNeighbourSolicitation (l : Fin 16) (f : NeighbourSolicit) (s : State) : Out :=
  .next (if !ethTakes s l f.frame || ethIp6 s l = 0 || f.targetIp ≠ ethIp6 s l then s
    else ethReply l f.frame (.ndp f.senderMac f.senderIp) s)

/-! ### Pause (R606, R607) -/

/-- pfc_en of a class. -/
def pfcEn (s : State) (l : Fin 16) (c : Nat) : Bool := bit (ethCfg s l 0) (8 + c)

/-- Sends a pause frame when a class reaches xoff_units, and a resume frame when it falls to xon_units. -/
def pfcCheck (l : Fin 16) (c : Fin 8) (s : State) : State :=
  let on := (tblGet none (ethPort s l).pausing c.val).isSome
  let mark := fun (v : Option (BitVec 48)) => modEth l (fun e => { e with pausing := tblSet none e.pausing c.val v })
  if pfcEn s l c.val && !on && decide (fld (ethCfg s l 6) 0 14 ≤ heldUnits s l c) then pfcSend l c 0xFFFF (mark (some s.tick.elapsed) s)
  else if on && decide (heldUnits s l c ≤ fld (ethCfg s l 6) 16 14) then pfcSend l c 0 (mark none s)
  else s

/-- PFC_PAUSE_REPEAT (R606): every 16 ticks while the class stays at xoff_units or above. -/
def execPfcPauseRepeat (l : Fin 16) (c : Fin 8) (s : State) : Out :=
  .next (match tblGet none (ethPort s l).pausing c.val with
    | some since =>
      if pfcEn s l c.val && decide (16 ≤ ageOf s since) && decide (fld (ethCfg s l 6) 0 14 ≤ heldUnits s l c) then
        pfcSend l c 0xFFFF (modEth l (fun e => { e with pausing := tblSet none e.pausing c.val (some s.tick.elapsed) }) s)
      else s
    | none => s)

/-- Nanoseconds of a pause of `n` quanta of 512 bit times. -/
def quantaNs (s : State) (l : Fin 16) (n : Nat) : Nat := ceilDiv (n * 64 * 1024) (lineRate s l)

/-- PFC_FRAME_RECEIVE (R607): the classes named stop for the times given. -/
def execPfcFrameReceive (l : Fin 16) (head : PfcHead) (quanta : List (BitVec 16)) (s : State) : Out :=
  .next (if !ethOn s l || !(ethPort s l).up then s
    else (upFrom 0 8).foldl (fun s c =>
      if bit head.enable c && pfcEn s l c then
        bumpEth l (14 + c) 1 (modEth l (fun e =>
          { e with paused := tblSet 0 e.paused c (s.tick.ns + quantaNs s l (quanta.getD c 0).toNat) }) s)
      else s) (ethCame l false (pfcBytes head.src.toNat head.enable quanta) s))

/-! ### Queue-pair descriptors (R610, R611, R617, R620) -/

/-- Queue pair of target_id; none when another bit is set. -/
def qpTarget (f : InFlight) : Option (Fin 16384) :=
  if fld (dTarget f.desc) 14 2 ≠ 0 then none else some ⟨fld (dTarget f.desc) 0 14, Nat.mod_lt _ (by decide)⟩

/-- A gateway descriptor: its queue pair, target_gen (R81) and, where asked, the binding (R610). -/
def withQp (d : DRef) (f : InFlight) (bound : Bool) (s : State) (body : Fin 16384 → State → State) : State :=
  match qpTarget f with
  | none => complete d stBad 0 s
  | some q =>
    let s := modFlight d (fun x => { x with gen := fnGen s (.qp q) }) s
    let x := qpOf s q
    if !genOk s f (.qp q) then complete d stStaleGen 0 s
    else if bound && (x.ctx.isNone || x.tenant ≠ dTenant s f) then complete d stDenied 0 s
    else body q s

/-- QP_CONFIG: the context is read from the host. -/
def execQpConfig (d : DRef) (s : State) : Out :=
  .next (withDesc d 0x60 s (fun f s => withQp d f false s (fun q s =>
    if fnSt s (.qp q) ≠ .off then complete d stBad 0 s
    else hostRead (.obj d 0) (dWord f.desc 24) 128 (modFlight d (fun x => { x with waits := 1 }) s))))

/-- A context from its 128 bytes. -/
def qpCtxOf (b : List Byte) : QpCtx :=
  { port := ⟨(leAt b 0 1 % 128 - 80) % 16, Nat.mod_lt _ (by decide)⟩, ipv6 := decide (128 ≤ leAt b 0 1),
    mtu := 1024 * 2 ^ bitsOf (leAt b 1 1) 0 2, rd := bitsOf (leAt b 1 1) 2 1 = 1, wr := bitsOf (leAt b 1 1) 3 1 = 1,
    send := bitsOf (leAt b 1 1) 4 1 = 1, pcp := BitVec.ofNat 3 (bitsOf (leAt b 1 1) 5 3), dscp := BitVec.ofNat 6 (leAt b 2 1),
    retryCnt := bitsOf (leAt b 3 1) 0 3, rnrRetry := bitsOf (leAt b 3 1) 3 3, vlan := BitVec.ofNat 12 (leAt b 4 2),
    ackTicks := leAt b 6 2, dstMac := BitVec.ofNat 48 (leAt b 8 6), dstIp := BitVec.ofNat 128 (leAt b 16 16),
    dstQpn := BitVec.ofNat 24 (leAt b 32 3), sqPsn := BitVec.ofNat 24 (leAt b 36 3), rqPsn := BitVec.ofNat 24 (leAt b 40 3),
    rkey := BitVec.ofNat 32 (leAt b 44 4), regionBase := BitVec.ofNat 64 (leAt b 48 8), regionLen := BitVec.ofNat 64 (leAt b 56 8),
    recvBase := BitVec.ofNat 64 (leAt b 64 8), recvSlots := leAt b 72 2, slotLog2 := leAt b 74 1 }

/-- The context keeps Table 17-3, and its port is an Ethernet port (R611). -/
def qpCtxOk (s : State) (b : List Byte) : Bool :=
  let port := leAt b 0 1 % 128
  decide (80 ≤ port) && decide (port ≤ 95) && ethMode s port && bitsOf (leAt b 1 1) 0 2 ≠ 3 && bitsOf (leAt b 2 1) 6 2 = 0
    && bitsOf (leAt b 3 1) 6 2 = 0 && bitsOf (leAt b 5 1) 4 4 = 0 && decide (4 ≤ leAt b 6 2) && leAt b 14 2 = 0
    && (decide (128 ≤ leAt b 0 1) || leAt b 20 12 = 0) && leAt b 35 1 = 0 && leAt b 39 1 = 0 && leAt b 43 1 = 0
    && decide (1 ≤ leAt b 72 2) && decide (12 ≤ leAt b 74 1) && decide (leAt b 74 1 ≤ 20) && leAt b 75 53 = 0

/-- The context has come (R611): it binds the queue pair to the ring's tenant. -/
def qpGot (d : DRef) (st : BitVec 8) (bs : List Byte) (s : State) : State :=
  match flightOf s d with
  | none => s
  | some f =>
    match qpTarget f with
    | none => s
    | some q =>
      if st ≠ stOk then complete d st 0 s
      else if fnSt s (.qp q) ≠ .off || !qpCtxOk s bs then complete d stBad 0 s
      else complete d stOk 0 (modQp q (fun _ => { ctx := some (qpCtxOf bs), tenant := dTenant s f }) s)

/-- QP_QUERY (Table 17-2). -/
def execQpQuery (d : DRef) (s : State) : Out :=
  .next (withDesc d 0x63 s (fun f s => withQp d f true s (fun q s =>
    let fn := fnOf s (.qp q)
    complete d stOk (BitVec.ofNat 64 (fnStCode fn.st + fn.pend.toNat <<< 2 + fn.gen.toNat <<< 16 + (qpOf s q).sndPsn.toNat <<< 32)) s)))

/-- Packets of a message. -/
def msgPackets (mtu len : Nat) : Nat := max 1 (ceilDiv len mtu)

/-- An outgoing descriptor joins its queue pair (R620). -/
def gwDesc (op : BitVec 8) (d : DRef) (f : InFlight) (s : State) : State :=
  withQp d f true s (fun q s =>
    let len := fld f.desc 320 32
    let most := if op = 0x66 then 1048576 else 2 ^ 31
    if len = 0 || decide (most < len) then complete d stBad 0 s
    else match fnSt s (.qp q), (qpOf s q).ctx with
      | .off, _ => complete d stCancelled 0 s
      | .stopping, _ => complete d stCancelled 0 s
      | _, none => complete d stCancelled 0 s
      | _, some c =>
        let o : GwOut := { d := d, op := op, addr := dWord f.desc 24, va := dWord f.desc 32, len := len,
                           rkey := BitVec.ofNat 32 (fld f.desc 352 32), psn := 0, n := msgPackets c.mtu len }
        modQp q (fun x => { x with outs := x.outs ++ [o] }) (modFlight d (fun x => { x with waits := 1 }) s))

/-- PSN `n` after another. -/
def psnAdd (p : BitVec 24) (n : Nat) : BitVec 24 := p + BitVec.ofNat 24 n

/-- PSNs from `a` up to `b`. -/
def psnDiff (a b : BitVec 24) : Nat := (b - a).toNat

/-- Bytes of one fetch of local data. -/
abbrev gwFetch : Nat := 1048576

/-- Outstanding READ requests of a queue pair (R620). -/
def readsOut (x : Qp) : Nat := (x.outs.filter (fun o => o.op = 0x65 && o.started && decide (o.acked < o.n))).length

/-- Changes the descriptor `d` of a queue pair. -/
def modGwOut (q : Fin 16384) (d : DRef) (f : GwOut → GwOut) (s : State) : State :=
  modQp q (fun x => { x with outs := x.outs.map (fun o => if o.d = d then f o else o) }) s

/-- Takes the oldest descriptor that has work to send one step on: it gets its PSNs at its start; a WRITE or SEND fetches its next
local bytes by RD_REQ, a READ sends its request (R620). -/
def gwPump (q : Fin 16384) (s : State) : State :=
  let x := qpOf s q
  match x.ctx, x.outs.find? (fun o => decide (o.sent < o.n)) with
  | some c, some o =>
    if fnSt s (.qp q) = .starting || (fnSt s (.qp q) = .stopping && !o.started) || x.rnrTo.isSome || o.fetching.isSome || !x.ready.isEmpty then s
    else if o.op = 0x65 && !o.started && decide (16 ≤ readsOut x) then s
    else
      let psn := if o.started then o.psn else x.sndPsn
      let s := if o.started then s else modQp q (fun x => { x with sndPsn := psnAdd x.sndPsn o.n, ackAt := s.tick.elapsed }) s
      let o := { o with started := true, psn := psn }
      let off := o.sent * c.mtu
      if o.op = 0x65 then
        let s := modGwOut q o.d (fun _ => { o with sent := o.n }) s
        qpSend q { op := .readReq, psn := psnAdd psn o.acked, va := o.va + BitVec.ofNat 64 (o.acked * c.mtu), rkey := o.rkey,
                   len := o.len - o.acked * c.mtu } s
      else
        let n := min (o.len - off) gwFetch
        let base : Packet := { opcode := 0x01, vc := 6, addr := o.addr + BitVec.ofNat 64 off, tenant := x.tenant }
        match sendItem (ethCore c.port) (gwTags (80 + c.port.val)) base n [] (.gwOut o.d (psnAdd psn o.sent)) s with
        | some s => modGwOut q o.d (fun _ => { o with fetching := some o.sent }) s
        | none => modGwOut q o.d (fun _ => o) s
  | _, _ => s

/-- GW_WRITE. -/
def execGwWrite (d : DRef) (s : State) : Out := .next (withDesc d 0x64 s (fun f s => gwStart f (gwDesc 0x64 d f s)))
where
  /-- The queue pair goes on. -/
  gwStart (f : InFlight) (s : State) : State := match qpTarget f with
    | some q => gwPump q s
    | none => s

/-- GW_READ. -/
def execGwRead (d : DRef) (s : State) : Out := .next (withDesc d 0x65 s (fun f s => execGwWrite.gwStart f (gwDesc 0x65 d f s)))

/-- GW_SEND. -/
def execGwSend (d : DRef) (s : State) : Out := .next (withDesc d 0x66 s (fun f s => execGwWrite.gwStart f (gwDesc 0x66 d f s)))

/-- GW_RECV_POST (R617). -/
def execGwRecvPost (d : DRef) (s : State) : Out :=
  .next (withDesc d 0x67 s (fun f s => withQp d f true s (fun q s =>
    let n := fld f.desc 192 16
    match (qpOf s q).ctx with
    | none => complete d stDenied 0 s
    | some c =>
      if c.recvSlots < (qpOf s q).free + n then complete d stBad 0 s
      else complete d stOk (BitVec.ofNat 64 ((qpOf s q).free + n)) (modQp q (fun x => { x with free := x.free + n }) s))))

/-! ### Stopping (R619, R622, R623) -/

/-- The queue pair enters Stopping: descriptors that have not started end with CANCELLED (R79). -/
def qpCancel (q : Fin 16384) (st : BitVec 8) (s : State) : State :=
  let gone := (qpOf s q).outs.filter (fun o => !o.started)
  gone.foldl (fun s o => complete o.d st 0 s) (modQp q (fun x => { x with outs := x.outs.filter (fun o => o.started) }) s)

/-- The queue pair leaves On for Stopping of itself. -/
def qpToStopping (q : Fin 16384) (s : State) : State :=
  let fn := fnOf s (.qp q)
  if fn.st = .on then qpCancel q stCancelled (setFn s (.qp q) { fn with st := .stopping, since := s.tick.elapsed })
  else if fn.st = .starting then setFn s (.qp q) { fn with recDis := true }
  else s

/-- The queue pair stops, with its event (R619, R622, Table 22-8). -/
def qpStop (q : Fin 16384) (syndrome : Nat) (st : BitVec 8) (s : State) : State :=
  qpToStopping q (raiseEv 0x68 q.val (syndrome + st.toNat <<< 8) (fnGen s (.qp q)) s)

/-- An outgoing descriptor ends. -/
def gwEnd (q : Fin 16384) (d : DRef) (st : BitVec 8) (s : State) : State :=
  complete d st 0 (modQp q (fun x => { x with outs := x.outs.filter (fun o => o.d ≠ d) }) s)

/-- The port leaves service (R601, R623): its queue pairs stop, their started descriptors end with LINK_LOST, and incoming items
answer nobody. -/
def ethPortDown (l : Fin 16) (s : State) : State :=
  let s := modEth l (fun e => { e with up := false, tx := none, queue := [], waiting := [], pausing := [], paused := [] }) s
  let qs := (s.gw.qp.filter (fun e => match e.2.ctx with | some c => c.port = l | none => false)).map (·.1)
  qs.foldl (fun s n =>
    let q : Fin 16384 := ⟨n % 16384, Nat.mod_lt _ (by decide)⟩
    let s := qpToStopping q s
    let s := modQp q (fun x => { x with ready := [], silent := true }) s
    ((qpOf s q).outs.filter (fun o => o.started)).foldl (fun s o => gwEnd q o.d stLinkLost s) s) s

/-- Hooks of the function states, used by Functions.lean: a context is held; the queue pair starts anew; it holds nothing open. -/
def qpRefusal (s : State) (q : Fin 16384) : Option (BitVec 8) := if (qpOf s q).ctx.isSome then none else some stDenied

def qpStarting (q : Fin 16384) (s : State) : State :=
  let x := qpOf s q
  match x.ctx with
  | none => s
  | some c => modQp q (fun x => { ctx := x.ctx, tenant := x.tenant, sndPsn := c.sqPsn, expPsn := c.rqPsn, free := c.recvSlots,
                                  budget := lineRate s c.port, rate := ⟨lineRate s c.port, 0⟩ }) s

def qpIdle (s : State) (q : Fin 16384) : Bool := (qpOf s q).outs.isEmpty && (qpOf s q).ins.isEmpty

/-! ### Incoming RDMA (R612 to R619) -/

/-- AETH syndromes: positive, and the NAKs of R613 to R619 (log 28). -/
abbrev synAck : Nat := 0x1F
abbrev synRnr : Nat := 0x21
abbrev synSeq : Nat := 0x60
abbrev synInvalid : Nat := 0x61
abbrev synAccess : Nat := 0x62
abbrev synOperational : Nat := 0x63

/-- A NAK for a PSN; any but a sequence error and an RNR NAK stops the queue pair (R617 to R619). -/
def gwNak (q : Fin 16384) (l : Fin 16) (syn : Nat) (st : BitVec 8) (psn : BitVec 24) (s : State) : State :=
  let x := qpOf s q
  let s := if x.silent then s else qpSend q { op := .ack, psn := psn, syndrome := BitVec.ofNat 8 syn, msn := x.msn } s
  let s := bumpEth l (if syn = synRnr then 52 else 49) 1 s
  if syn = synRnr || syn = synSeq then s else qpStop q syn st s

/-- A CNP to the peer, at most one in cnp_gap ticks (R626). -/
def cnpSend (q : Fin 16384) (l : Fin 16) (s : State) : State :=
  let x := qpOf s q
  let ok := match x.cnpOut with
    | some t => decide (fld (reg s .ethGwCfg) 0 16 ≤ ageOf s t)
    | none => true
  if ok && !x.silent then
    bumpEth l 47 1 (qpSend q { op := .cnp, psn := 0 } (modQp q (fun x => { x with cnpOut := some s.tick.elapsed }) s))
  else s

/-- Kind of answer `i` of `n` to a READ. -/
def respOp (i n : Nat) : RoceOp := if n = 1 then .readOnly else if i = 0 then .readFirst else if i + 1 = n then .readLast else .readMiddle

/-- The opcode answers a READ. -/
def isResp : RoceOp → Bool
  | .readFirst | .readMiddle | .readLast | .readOnly => true
  | _ => false

/-- The answer packets of a READ (R615). -/
def readAnswers (mtu : Nat) (psn : BitVec 24) (msn : BitVec 24) (bs : List Byte) : List RoceTx :=
  (upFrom 0 (msgPackets mtu bs.length)).map (fun i =>
    { op := respOp i (msgPackets mtu bs.length), psn := psnAdd psn i, syndrome := BitVec.ofNat 8 synAck, msn := msn,
      payload := slice bs (i * mtu) (min mtu (bs.length - i * mtu)) })

/-- The WR of a receive record (R616). -/
def gwRecordBytes (s : State) (q : Fin 16384) (msn len : Nat) : List Byte :=
  leBytes 8 (msn + len <<< 32) ++ leBytes 8 (stOk.toNat + (fnGen s (.qp q)).toNat <<< 16)

/-- Starts the RD_REQ items of an incoming READ, of at most 1 MiB each (R614): `fuel` bounds them; none while tags are short. -/
def readItems (q : Fin 16384) (c : QpCtx) (tenant : BitVec 8) (psn : BitVec 24) : Nat → Word → Nat → State → Option State
  | 0, _, _, s => some s
  | fuel + 1, a, n, s =>
    if n = 0 then some s
    else
      let k := min n gwFetch
      let base : Packet := { opcode := 0x01, vc := 6, addr := a, tenant := tenant }
      match sendItem (ethCore c.port) (gwTags (80 + c.port.val)) base k [] (.gwIn q psn) s with
      | some s => readItems q c tenant psn fuel (a + BitVec.ofNat 64 k) (n - k) s
      | none => none

/-- READs whose earlier WRITEs and SENDs are all done start their items (R615). -/
def startReads (q : Fin 16384) (c : QpCtx) : List GwIn → State → State
  | [], s => s
  | e :: t, s =>
    match e.read with
    | none => s
    | some (a, n) =>
      if e.started then startReads q c t s
      else match readItems q c (qpOf s q).tenant e.psn (n / gwFetch + 1) a n s with
        | none => s
        | some s =>
          startReads q c t (modQp q (fun x => { x with ins := x.ins.map (fun y =>
            if y.psn = e.psn && y.read = e.read && !y.started then { y with started := true, items := ceilDiv n gwFetch } else y) }) s)

/-- Takes what is done from the front of the accepted packets: READ answers leave in PSN order, receive records are written, and an ACK
covers the last PSN done (R615, R616). `fuel` bounds the packets; `ack` is the PSN to acknowledge. -/
def settleIns (q : Fin 16384) (c : QpCtx) : Nat → Option (BitVec 24 × BitVec 24) → State → State
  | 0, ack, s => sendAck ack s
  | fuel + 1, ack, s =>
    match (qpOf s q).ins with
    | [] => sendAck ack s
    | e :: t =>
      if !e.started || e.items ≠ 0 then sendAck ack s
      else match e.read, e.record with
        | some (_, n), _ =>
          let s := sendAck ack s
          let s := modQp q (fun x => { x with ins := t }) s
          let s := if (qpOf s q).silent then s
            else (readAnswers c.mtu e.psn e.msn (memRead e.data 0 n)).foldl (fun s p => qpSend q p s) s
          settleIns q c fuel none s
        | none, some (k, len) =>
          let a := c.recvBase + BitVec.ofNat 64 ((k % c.recvSlots) * 2 ^ c.slotLog2 + 2 ^ c.slotLog2 - 16)
          let base : Packet := { opcode := 0x02, vc := 6, addr := a, tenant := (qpOf s q).tenant }
          match sendItem (ethCore c.port) (gwTags (80 + c.port.val)) base 16 (gwRecordBytes s q e.msn.toNat len) (.gwIn q e.psn) s with
          | some s => sendAck ack (modQp q (fun x => { x with ins := { e with record := none, items := 1 } :: t }) s)
          | none => sendAck ack s
        | none, none => settleIns q c fuel (some (psnAdd e.psn (e.psns - 1), e.msn)) (modQp q (fun x => { x with ins := t }) s)
where
  /-- The ACK, if one is due. -/
  sendAck (ack : Option (BitVec 24 × BitVec 24)) (s : State) : State := match ack with
    | some (p, m) => if (qpOf s q).silent then s else qpSend q { op := .ack, psn := p, syndrome := BitVec.ofNat 8 synAck, msn := m } s
    | none => s

/-- The queue pair's accepted packets go on. -/
def settleQp (q : Fin 16384) (s : State) : State :=
  match (qpOf s q).ctx with
  | none => s
  | some c =>
    let s := startReads q c (qpOf s q).ins s
    let s := settleIns q c ((qpOf s q).ins.length + 1) none s
    startReads q c (qpOf s q).ins s

/-- The opcode starts a message. -/
def startsMsg : RoceOp → Bool
  | .sendFirst => true
  | .sendOnly => true
  | .writeFirst => true
  | .writeOnly => true
  | .readReq => true
  | _ => false

/-- The opcode ends a message. -/
def endsMsg : RoceOp → Bool
  | .sendLast => true
  | .sendOnly => true
  | .writeLast => true
  | .writeOnly => true
  | _ => false

/-- The opcode is of a SEND. -/
def isSend : RoceOp → Bool
  | .sendFirst => true
  | .sendMiddle => true
  | .sendLast => true
  | .sendOnly => true
  | _ => false

/-- The RETH checks of R613. -/
def rethOk (c : QpCtx) (m : RoceMsg) (may : Bool) : Bool :=
  may && m.rkey = c.rkey && decide (m.va.toNat + m.len.toNat ≤ c.regionLen.toNat)

/-- A packet's data leaves as one WR item, or none for no data; none while no tag is free. -/
def gwWr (q : Fin 16384) (c : QpCtx) (psn : BitVec 24) (a : Word) (bs : List Byte) (s : State) : Option State :=
  if bs.isEmpty then some s
  else sendItem (ethCore c.port) (gwTags (80 + c.port.val)) { opcode := 0x02, vc := 6, addr := a, tenant := (qpOf s q).tenant }
    bs.length bs (.gwIn q psn) s

/-- A data packet in sequence: `cur` is the message that it belongs to. None while it must wait. -/
def gwData (q : Fin 16384) (c : QpCtx) (op : RoceOp) (m : RoceMsg) (cur : Option Nat × Word × Nat × Nat) (s : State) : Option State :=
  let (slot, a, got, most) := cur
  let n := m.payload.length
  let done := endsMsg op
  if most < got + n || (done && slot.isNone && got + n ≠ most) then some (gwNak q c.port synInvalid stDenied m.psn s)
  else match gwWr q c m.psn (a + BitVec.ofNat 64 got) m.payload s with
    | none => none
    | some s =>
      some (modQp q (fun x =>
        let msn := if done then x.msn + 1 else x.msn
        let e : GwIn := { psn := m.psn, items := if n = 0 then 0 else 1, msn := msn,
                          record := if done then slot.map (fun k => (k, got + n)) else none }
        { x with expPsn := x.expPsn + 1, msn := msn, ins := x.ins ++ [e],
                 cur := if done then none else some (slot, a, got + n, most) }) s)

/-- An incoming READ, in sequence or again (R613, R615, R618). -/
def gwReadReq (q : Fin 16384) (c : QpCtx) (again : Bool) (m : RoceMsg) (s : State) : Option State :=
  let x := qpOf s q
  let n := msgPackets c.mtu m.len.toNat
  if !rethOk c m c.rd then some (gwNak q c.port synAccess stDenied m.psn s)
  else if 16 ≤ (x.ins.filter (fun e => e.read.isSome)).length then none
  else
    let msn := if again then x.msn else x.msn + 1
    let e : GwIn := { psn := m.psn, psns := n, read := some (c.regionBase + m.va, m.len.toNat), started := false, msn := msn }
    some (modQp q (fun x => { x with ins := x.ins ++ [e], msn := msn, expPsn := if again then x.expPsn else psnAdd x.expPsn n }) s)

/-- The gateway takes a packet whose queue pair is On; none while it must wait in the input buffer. -/
def gwTake (q : Fin 16384) (c : QpCtx) (op : RoceOp) (m : RoceMsg) (s : State) : Option State :=
  let x := qpOf s q
  let ahead := psnDiff x.expPsn m.psn
  if ahead ≠ 0 && ahead < 2 ^ 23 then some (gwNak q c.port synSeq stOk x.expPsn s)
  else if ahead ≠ 0 then
    if op = .readReq then gwReadReq q c true m s
    else
      let (p, n) := match x.ins with
        | e :: _ => (e.psn, e.msn)
        | [] => (x.expPsn, x.msn)
      some (qpSend q { op := .ack, psn := p - 1, syndrome := BitVec.ofNat 8 synAck, msn := n } s)
  else if s.attic.draining && startsMsg op then some (gwNak q c.port synOperational stDrained m.psn s)
  else if startsMsg op && x.cur.isSome then some (gwNak q c.port synInvalid stDenied m.psn s)
  else match op with
    | .readReq => gwReadReq q c false m s
    | .writeFirst | .writeOnly =>
      if !rethOk c m c.wr then some (gwNak q c.port synAccess stDenied m.psn s)
      else gwData q c op m (none, c.regionBase + m.va, 0, m.len.toNat) s
    | .sendFirst | .sendOnly =>
      if !c.send then some (gwNak q c.port synInvalid stDenied m.psn s)
      else if x.free = 0 then some (gwNak q c.port synRnr stOk m.psn s)
      else if 2 ^ c.slotLog2 - 16 < m.payload.length then some (gwNak q c.port synInvalid stDenied m.psn s)
      else match gwData q c op m (some x.slot, c.recvBase + BitVec.ofNat 64 ((x.slot % c.recvSlots) * 2 ^ c.slotLog2), 0, 2 ^ c.slotLog2 - 16) s with
        | some s => some (modQp q (fun x => { x with free := x.free - 1, slot := x.slot + 1 }) s)
        | none => none
    | _ =>
      match x.cur with
      | some cur => if cur.1.isSome = isSend op then gwData q c op m cur s else some (gwNak q c.port synInvalid stDenied m.psn s)
      | none => some (gwNak q c.port synInvalid stDenied m.psn s)

/-- Packets of the input buffer that can go on leave it, in order for each queue pair (R604): `fuel` bounds them. -/
def gwDrain (l : Fin 16) : List EthWait → State → State
  | [], s => s
  | w :: t, s =>
    let q : Fin 16384 := ⟨(w.msg.qpn.toNat - 2) % 16384, Nat.mod_lt _ (by decide)⟩
    let blocked := ((ethPort s l).waiting.takeWhile (fun x => x ≠ w)).any (fun x => x.msg.qpn = w.msg.qpn)
    let out := fun (s : State) => pfcCheck l w.cls (modEth l (fun e => { e with waiting := e.waiting.erase w }) s)
    if blocked then gwDrain l t s
    else if fnSt s (.qp q) ≠ .on then gwDrain l t (out s)
    else match (qpOf s q).ctx with
      | none => gwDrain l t (out s)
      | some c =>
        match gwTake q c w.op w.msg s with
        | some s => gwDrain l t (settleQp q (out s))
        | none => gwDrain l t s

/-- The ports' input buffers are tried again. -/
def gwRetry (s : State) : State := (List.finRange 16).foldl (fun s l => gwDrain l (ethPort s l).waiting s) s

/-- Queue pair and context that a packet is for: frame, ICRC, port, QPN and state checked (R602, R609, R612). -/
def roceFor (s : State) (m : RoceMsg) : Option (Fin 16384 × QpCtx) :=
  if !ethTakes s m.port m.frame || !m.icrcOk || m.qpn.toNat < 2 || 16386 ≤ m.qpn.toNat then none
  else
    let q : Fin 16384 := ⟨(m.qpn.toNat - 2) % 16384, Nat.mod_lt _ (by decide)⟩
    match (qpOf s q).ctx with
    | some c => if c.port = m.port && fnSt s (.qp q) = .on then some (q, c) else none
    | none => none

/-- A RoCEv2 packet that the port discards (R603, R609, R612). -/
def roceDiscard (m : RoceMsg) (s : State) : State :=
  if ethOn s m.port && (ethPort s m.port).up then bumpEth m.port 5 1 (ethCame m.port true m.frame s) else s

/-- A RoCEv2 packet of a queue pair arrives (R604, R605, R612, R626): `f` is what it does, unless its class discards it; with CE, a CNP
goes to the peer. -/
def roceCame (m : RoceMsg) (s : State) (f : Fin 16384 → QpCtx → State → State) : State :=
  match roceFor s m with
  | none => roceDiscard m s
  | some (q, c) =>
    match ethPass m.port m.frame s with
    | (none, s) => s
    | (some ce, s) => f q c (if ce || m.ce then cnpSend q m.port s else s)

/-- A packet that carries requests arrives: it takes its units of the class's share, and leaves them as soon as the gateway can take it
(R604 to R606). -/
def roceIn (op : RoceOp) (m : RoceMsg) (s : State) : State :=
  roceCame m s (fun _ _ s =>
    let cls := frameClass s m.port m.frame
    let s := modEth m.port (fun e => { e with waiting := e.waiting ++ [⟨op, m, cls, frameUnits m.frame⟩] }) s
    gwDrain m.port (ethPort s m.port).waiting (pfcCheck m.port cls s))

/-- Accepted packet that an item belongs to, changed by `f`. -/
def modGwIn (q : Fin 16384) (psn : BitVec 24) (f : GwIn → GwIn) (s : State) : State :=
  modQp q (fun x =>
    match x.ins.findIdx? (fun e => e.psn = psn && decide (e.items ≠ 0)) with
    | some i =>
      match x.ins[i]? with
      | some e => { x with ins := x.ins.set i (f e) }
      | none => x
    | none => x) s

/-- The read of the item's data for an incoming READ, at its offset. -/
def gwInData (q : Fin 16384) (psn : BitVec 24) (addr : Word) (bs : List Byte) (s : State) : State :=
  modGwIn q psn (fun e => match e.read with
    | some (a, _) => { e with data := memWrite e.data (addr - a).toNat bs }
    | none => e) s

/-- An item of an incoming message is done (R615, R616); `echo` tells fabric congestion (R626). -/
def gwInDone (q : Fin 16384) (psn : BitVec 24) (echo : Bool) (s : State) : State :=
  let s := settleQp q (modGwIn q psn (fun e => { e with items := e.items - 1 }) s)
  match (qpOf s q).ctx with
  | some c => gwRetry (if echo then cnpSend q c.port s else s)
  | none => s

/-- An item of an incoming message failed (R619). -/
def gwInFail (q : Fin 16384) (psn : BitVec 24) (st : BitVec 8) (s : State) : State :=
  match (qpOf s q).ctx with
  | none => s
  | some c =>
    let s := modQp q (fun x => { x with ins := x.ins.filter (fun e => !(e.psn = psn && decide (e.items ≠ 0))) }) s
    settleQp q (gwNak q c.port (if st = stDenied then synAccess else synOperational) st psn s)

/-! ### Outgoing RDMA (R620, R622) -/

/-- Kind of packet `i` of `n`, of a WRITE or SEND. -/
def outOp (op : BitVec 8) (i n : Nat) : RoceOp :=
  if op = 0x64 then (if n = 1 then .writeOnly else if i = 0 then .writeFirst else if i + 1 = n then .writeLast else .writeMiddle)
  else (if n = 1 then .sendOnly else if i = 0 then .sendFirst else if i + 1 = n then .sendLast else .sendMiddle)

/-- The queue pair that a descriptor's outgoing work belongs to. -/
def qpWith (s : State) (d : DRef) : Option (Fin 16384 × GwOut) :=
  s.gw.qp.findSome? (fun e => (e.2.outs.find? (fun o => o.d = d)).map (fun o => (⟨e.1 % 16384, Nat.mod_lt _ (by decide)⟩, o)))

/-- Local data have come (R620): their packets are ready to be sent. Data of a fetch that a retransmission has overtaken are dropped. -/
def gwOutData (d : DRef) (psn : BitVec 24) (bs : List Byte) (s : State) : State :=
  match qpWith s d with
  | none => s
  | some (q, o) =>
    match (qpOf s q).ctx, o.fetching with
    | some c, some i =>
      if psnAdd o.psn i ≠ psn then s
      else
        let k := msgPackets c.mtu bs.length
        let ps := (upFrom 0 k).map (fun j =>
          let head : RoceTx := { op := outOp o.op (i + j) o.n, psn := psnAdd o.psn (i + j), payload := slice bs (j * c.mtu) (min c.mtu (bs.length - j * c.mtu)) }
          if o.op = 0x64 && i + j = 0 then { head with va := o.va, rkey := o.rkey, len := o.len } else head)
        let s := modGwOut q d (fun o => { o with sent := i + k, fetching := none }) s
        gwPump q (ps.foldl (fun s p => qpSend q p s) s)
    | _, _ => s

/-- A descriptor's local item failed (Table 17-4). -/
def gwOutFail (d : DRef) (st : BitVec 8) (s : State) : State :=
  match qpWith s d with
  | none => s
  | some (q, _) => gwPump q (gwEnd q d st s)

/-- A GW_READ whose responses are all written completes (R620). -/
def gwReadEnd (q : Fin 16384) (d : DRef) (s : State) : State :=
  match (qpOf s q).outs.find? (fun o => o.d = d) with
  | some o => if o.acked = o.n && o.writes = 0 then gwPump q (gwEnd q d stOk s) else s
  | none => s

/-- A WR_ACK of a GW_READ's data (R620). -/
def gwOutWritten (d : DRef) (s : State) : State :=
  match qpWith s d with
  | none => s
  | some (q, _) => gwReadEnd q d (modGwOut q d (fun o => { o with writes := o.writes - 1 }) s)

/-- Progress of acknowledgement: the timers and counts of retries start anew. -/
def gwProgress (q : Fin 16384) (s : State) : State := modQp q (fun x => { x with ackAt := s.tick.elapsed, retries := 0, rnrs := 0 }) s

/-- RDMA_READ_RESPONSE (R620): the response expected next is written into local memory; another is discarded. While no tag is free it
stays in the network, and the peer's data is asked for again. -/
def execRdmaReadResponse (m : RoceMsg) (s : State) : Out :=
  .next (roceCame m s (fun q c s =>
    match (qpOf s q).outs.find? (fun o => o.op = 0x65 && o.started && decide (o.acked < o.n)) with
    | none => s
    | some o =>
      let off := o.acked * c.mtu
      let n := min c.mtu (o.len - off)
      if psnAdd o.psn o.acked ≠ m.psn || m.payload.length ≠ n then s
      else
        let base : Packet := { opcode := 0x02, vc := 6, addr := o.addr + BitVec.ofNat 64 off, tenant := (qpOf s q).tenant }
        match sendItem (ethCore c.port) (gwTags (80 + c.port.val)) base n m.payload (.gwOut o.d m.psn) s with
        | none => s
        | some s => gwPump q (gwProgress q (modGwOut q o.d (fun o => { o with acked := o.acked + 1, writes := o.writes + 1 }) s))))

/-- PSN `p` is covered by packets of the descriptor: how many of them. -/
def coveredBy (o : GwOut) (p : BitVec 24) : Nat :=
  let k := psnDiff o.psn p + 1
  if 2 ^ 23 ≤ psnDiff o.psn p then 0 else min k o.sent

/-- An ACK covers every PSN up to `p` (R620): WRITEs and SENDs wholly covered complete. -/
def gwAckTo (q : Fin 16384) (p : BitVec 24) (s : State) : State :=
  let s := modQp q (fun x => { x with outs := x.outs.map (fun o =>
    if o.op ≠ 0x65 && o.started then { o with acked := max o.acked (coveredBy o p) } else o) }) s
  let done := (qpOf s q).outs.filter (fun o => o.op ≠ 0x65 && o.started && o.acked = o.n)
  done.foldl (fun s o => gwEnd q o.d stOk s) s

/-- ACKNOWLEDGE. -/
def execAcknowledge (m : RoceMsg) (s : State) : Out :=
  .next (roceCame m s (fun q _ s => gwPump q (gwProgress q (gwAckTo q m.psn s))))

/-- Retransmits from the oldest unacknowledged PSN (R622). -/
def gwResend (q : Fin 16384) (l : Fin 16) (s : State) : State :=
  let s := modQp q (fun x => { x with
    outs := x.outs.map (fun o => if o.started && o.acked < o.n then { o with sent := o.acked, fetching := none } else o)
    ready := x.ready.filter (fun p => p.op = .ack || isResp p.op || p.op = .cnp)
    ackAt := s.tick.elapsed }) s
  gwPump q (bumpEth l 51 1 s)

/-- NAK_PSN_SEQUENCE_ERROR (R622): PSNs before the one it names are acknowledged. -/
def execNakPsnSequenceError (m : RoceMsg) (s : State) : Out :=
  .next (roceCame m s (fun q c s => gwResend q c.port (gwAckTo q (m.psn - 1) (bumpEth c.port 50 1 s))))

/-- The oldest started descriptor that is not wholly acknowledged. -/
def oldestOut (x : Qp) : Option GwOut := x.outs.find? (fun o => o.started && decide (o.acked < o.n))

/-- Retries are exhausted (R622): TIMEOUT, and the queue pair stops. -/
def gwExhaust (q : Fin 16384) (s : State) : State :=
  match oldestOut (qpOf s q) with
  | some o => qpStop q 0xFF stTimeout (gwEnd q o.d stTimeout s)
  | none => s

/-- Nanoseconds that an RNR NAK's timer field gives (log 28). -/
def rnrNs (timer : BitVec 5) : Nat :=
  [655360000, 10000, 20000, 30000, 40000, 60000, 80000, 120000, 160000, 240000, 320000, 480000, 640000, 960000, 1280000, 1920000,
   2560000, 3840000, 5120000, 7680000, 10240000, 15360000, 20480000, 30720000, 40960000, 61440000, 81920000, 122880000, 163840000,
   245760000, 327680000, 491520000].getD timer.toNat 10000

/-- RNR_NAK (R622). -/
def execRnrNak (m : RoceMsg) (s : State) : Out :=
  .next (roceCame m s (fun q c s =>
    let s := gwAckTo q (m.psn - 1) (bumpEth c.port 50 1 s)
    let x := qpOf s q
    if c.rnrRetry ≤ x.rnrs then gwExhaust q s
    else modQp q (fun x => { x with rnrs := x.rnrs + 1, rnrTo := some (s.tick.ns + rnrNs m.timer) }) s))

/-- A NAK that ends the descriptor of its PSN and stops the queue pair (R622, Table 17-4). -/
def gwRefused (syn : Nat) (st : BitVec 8) (m : RoceMsg) (s : State) : State :=
  roceCame m s (fun q c s =>
    let s := gwAckTo q (m.psn - 1) (bumpEth c.port 50 1 s)
    match (qpOf s q).outs.find? (fun o => o.started && decide (psnDiff o.psn m.psn < o.n)) with
    | some o => qpStop q syn st (gwEnd q o.d st s)
    | none => s)

/-- NAK_REMOTE_ACCESS_ERROR. -/
def execNakRemoteAccessError (m : RoceMsg) (s : State) : Out := .next (gwRefused synAccess stDenied m s)

/-- NAK_INVALID_REQUEST. -/
def execNakInvalidRequest (m : RoceMsg) (s : State) : Out := .next (gwRefused synInvalid stDenied m s)

/-- NAK_REMOTE_OPERATIONAL_ERROR. -/
def execNakRemoteOperationalError (m : RoceMsg) (s : State) : Out := .next (gwRefused synOperational stDataError m s)

/-- CNP (R627): noted for the next step 7. -/
def execCnp (f : CnpFrame) (s : State) : Out :=
  .next (match (qpOf s f.qp).ctx with
    | some c => if fnSt s (.qp f.qp) = .on && ethTakes s c.port f.frame then
        match ethPass c.port f.frame s with
        | (none, s) => s
        | (some _, s) => bumpEth c.port 48 1 (modQp f.qp (fun x => { x with cnpIn := true }) s)
      else s
    | none => s)

/-- QP_ACK_TIMEOUT (R622): no ACK for ack_ticks ticks. -/
def execQpAckTimeout (q : Fin 16384) (s : State) : Out :=
  let x := qpOf s q
  .next (match x.ctx, oldestOut x with
    | some c, some _ =>
      if x.rnrTo.isSome || ageOf s x.ackAt < c.ackTicks then s
      else if c.retryCnt ≤ x.retries then gwExhaust q s
      else gwResend q c.port (modQp q (fun x => { x with retries := x.retries + 1 }) s)
    | _, _ => s)

/-- QP_RNR_TIMER (R622): the timer of an RNR NAK has run out. -/
def execQpRnrTimer (q : Fin 16384) (s : State) : Out :=
  let x := qpOf s q
  .next (match x.ctx, x.rnrTo with
    | some c, some t => if t ≤ s.tick.ns then gwResend q c.port (modQp q (fun x => { x with rnrTo := none }) s) else s
    | _, _ => s)

/-! ### Step 7 (R624, R627) -/

/-- rate_step (R627), in exact dyadic arithmetic. -/
def rateStep (s : State) (x : Qp) (line : Nat) : Qp :=
  let w := reg s .ethGwCfg
  let g := fld w 16 4
  let w1 := reg s .ethGwCfg 0 0 1
  let a := x.alpha
  if x.cnpIn then
    let al : Dyadic := ⟨a.n * (2 ^ g - 1) + 2 ^ a.e, a.e + g⟩
    let r : Dyadic := ⟨x.rate.n * (2 ^ (al.e + 1) - al.n), x.rate.e + al.e + 1⟩
    let low := fld w1 32 32
    { x with alpha := al, rate := if r.n < low * 2 ^ r.e then ⟨low, 0⟩ else r, quiet := 0, cnpIn := false }
  else
    let quiet := x.quiet + 1
    if quiet % fld w 32 16 = 0 then
      let r : Dyadic := ⟨x.rate.n + fld w1 0 32 * 2 ^ x.rate.e, x.rate.e⟩
      { x with quiet := quiet, alpha := ⟨a.n * (2 ^ g - 1), a.e + g⟩, rate := if line * 2 ^ r.e < r.n then ⟨line, 0⟩ else r }
    else { x with quiet := quiet }

/-- Bytes that a queue pair may send in the tick that begins: its rate, and what it has saved toward its next packet (log 26). -/
def newBudget (s : State) (q : Fin 16384) (x : Qp) (c : QpCtx) : Nat :=
  let r := x.rate.n / 2 ^ x.rate.e
  let head := match x.ready.head? with
    | some p => txCharge s q p c
    | none => 0
  min (x.budget + r) (max r head)

/-- One queue pair's rate and budget at a boundary. -/
def refillQp (s : State) (q : Fin 16384) (x : Qp) : Qp :=
  match x.ctx with
  | none => x
  | some c =>
    if fnSt s (.qp q) = .off then x
    else
      let y := rateStep s x (lineRate s c.port)
      let b := newBudget s q y c
      { y with budget := b }

/-- Step 7 of Table 2-6 for the queue pairs; those with packets ready are served by the tie rule (R624). -/
def refillQps (s : State) : State :=
  let s := { s with gw.qp := tblMap {} (fun n x => refillQp s ⟨n % 16384, Nat.mod_lt _ (by decide)⟩ x) s.gw.qp }
  let t := (nowTick s).toNat % 16384
  let order := (s.gw.qp.filter (fun e => 16384 - t ≤ e.1)) ++ (s.gw.qp.filter (fun e => decide (e.1 < 16384 - t)))
  gwRetry (order.foldl (fun s e =>
    let q : Fin 16384 := ⟨e.1 % 16384, Nat.mod_lt _ (by decide)⟩
    settleQp q (gwPump q (pumpOut q (qpOf s q).ready.length s))) s)

end Machine
end Sys2Proof
end

