-- ==== Sys2Proof/Machine/Lanes.lean ====
section
/-!
DEFINITION. Serial lanes and optical engines (chapter 18): the bring-up ladder, lane faults and narrowing, lasers, optical
measurement and test loops.
-/
namespace Sys2Proof
namespace Machine

/-! ### Lanes of a link -/

/-- Lanes that neither end holds out and that took part in the ladder (R648). -/
def inLane (a : Lane) : Bool :=
  !a.ownOut && !a.peerOut && (a.st = .step || a.st = .align || a.st = .service || a.st = .recover)

/-- Lanes on which the part transmits from the frame after its next marker frame (R648). -/
def txNext (s : State) (l : LinkId) : BitVec 4 := laneMask s l (fun a => a.st = .service && !a.ownOut && !a.peerOut)

/-- Number by which registers and events report a lane state (Table 18-9). -/
def laneStCode : LaneSt → Nat
  | .dark => 0
  | .detect => 1
  | .negotiate => 2
  | .step => 3
  | .align => 4
  | .service => 5
  | .recover => 6

/-- Too few lanes remain in bring-up: one failure is counted, an event raised, and the link returns to Detect (R643). -/
def bringFail (l : LinkId) (code : Nat) (s : State) : State :=
  let left := laneMask s l inLane
  lanesToDetect l (raiseEv 0x1E l.val (code + left.toNat <<< 4) (fnGen s (.port l)) (modLink l (fun k => { k with bringFails := k.bringFails + 1 }) s))

/-- The lane goes to the end of its Ethernet port's service: the whole port leaves it (R601, R659). -/
def ethLanesDown (l : LinkId) (s : State) : State :=
  let s := modLanes l (fun j a => { a with st := if laneLit s (laneId l j) then .detect else .dark, since := s.tick.ns }) s
  if h : l.val - 80 < 16 then ethPortDown ⟨l.val - 80, h⟩ s else s

/-- What follows when lanes of a link have been held out: the port, the link or the bring-up ends when fewer than
min_width + 1 lanes remain (R214, R643, R653, R659). -/
def afterHold (l : LinkId) (code : Nat) (s : State) : State :=
  if ethMode s l.val then ethLanesDown l s
  else if minLanes s l ≤ laneCount (laneMask s l inLane) then s
  else if (link s l).up || (link s l).nego then findFailure l 1 s
  else bringFail l code s

/-- This end holds a lane out and begins Recover on it, unless a laser darkens it (R647, R650). -/
def holdLane (n : LaneId) (s : State) : State :=
  modLane n (fun a =>
    let a := { a with ownOut := true }
    if a.darkened then { a with st := .dark, since := s.tick.ns } else toRecover s a) s

/-- Link of a lane (R628). -/
def linkOfLane (n : LaneId) : LinkId := ⟨n.val / 4, by have := n.isLt; omega⟩

/-- A fault of a lane in Service or Align (R647); `cause` as in event 0x14. -/
def faultLane (n : LaneId) (cause : Nat) (s : State) : State :=
  let a := lane s n
  if a.st = .service ∨ a.st = .align then
    afterHold (linkOfLane n) (laneStCode a.st) (raiseEv 0x14 n.val cause 0 (holdLane n s))
  else s

/-- An attempt at a step failed: another follows, up to three, then the lane is held out (Table 18-5). -/
def attemptFail (n : LaneId) (s : State) : State :=
  if 2 ≤ (lane s n).tries then holdLane n s
  else modLane n (fun a => { a with tries := a.tries + 1, since := s.tick.ns, pass := none, peerPass := none }) s

/-- Recover of a lane failed (R651, R652). -/
def recoverFail (n : LaneId) (s : State) : State :=
  let a := lane s n
  let l := linkOfLane n
  if (link s l).up && (link s l).retrain && !a.ownOut && !a.peerOut then findFailure l 2 s
  else
    let f := a.fails + 1
    if 4 ≤ f.toNat then
      raiseEv 0x19 n.val f.toNat 0 (setLane s n { a with fails := f, failed := true, ownOut := true, pass := none, peerPass := none })
    else setLane s n { a with fails := f, retryAt := some (s.tick.elapsed + 65536), pass := none, peerPass := none }

/-- Both RESULTs of a lane are known: it passes only when both show it passing (Table 18-5). -/
def judgeLane (n : LaneId) (s : State) : State :=
  let a := lane s n
  match a.pass, a.peerPass with
  | some x, some y =>
    if a.st = .step then (if x && y then s else attemptFail n s)
    else if a.st = .recover then
      if x && y then
        setLane s n { a with st := .align, since := s.tick.ns, rate := 3, fails := 0, retryAt := none, pass := none, peerPass := none }
      else recoverFail n s
    else s
  | _, _ => s

/-- The lane passed the step that it stands at. -/
def stepPassed (a : Lane) : Bool := a.pass = some true && a.peerPass = some true

/-- Lanes of a link that satisfy `f`. -/
def lanesWhere (s : State) (l : LinkId) (f : Lane → Bool) : List (Fin 4) :=
  (List.finRange 4).filter (fun j => f (lane s (laneId l j)))

/-- All lanes that take a step take it together (R641): after rate code 3 they go to Align. -/
def stepDone (l : LinkId) (s : State) : State :=
  let js := lanesWhere s l (fun a => a.st = .step)
  if !js.isEmpty && js.all (fun j => stepPassed (lane s (laneId l j)) && (lane s (laneId l j)).rate = 3) then
    modLanes l (fun _ a =>
      if a.st = .step then { a with st := .align, since := s.tick.ns, pass := none, peerPass := none } else a) s
  else s

/-- Results of a link's lanes are judged, and the lanes that remain are counted (R643). -/
def judgeLink (l : LinkId) (s : State) : State :=
  let step := !(lanesWhere s l (fun a => a.st = .step)).isEmpty
  let s := (List.finRange 4).foldl (fun s j => judgeLane (laneId l j) s) s
  if step && decide (laneCount (laneMask s l inLane) < minLanes s l) then bringFail l 3 s else stepDone l s

/-- A training frame from the peer keeps a far-end loop up (R657). -/
def trainSeen (l : LinkId) (s : State) : State :=
  modLanes l (fun _ a => { a with farLoop := a.farLoop.map (fun _ => s.tick.ns) }) s

/-- A training frame comes in on a lane of a link; one that carries message `msg` does `f` with its body (R639, R640). -/
def onTrain (l : LinkId) (w : TrainLine) (msg : BitVec 8) (f : BitVec 64 → State → State) (s : State) : State :=
  let r := trainRx (lane s (laneId l w.lane)) w.bits
  let s := setLane s (laneId l w.lane) r.1
  match r.2 with
  | some (m, b) => if m = msg then f b (trainSeen l s) else trainSeen l s
  | none => s

/-! ### Equalisation (R645, R646, Table 18-6) -/

/-- Bytes of the equalisation table in use: header and entries (R645). -/
def eqInUse (s : State) : List Byte := if s.attic.eq.isSome then s.attic.eqBytes else Config.eqDefault

/-- The default entry of lane `n` at rate code `r`. -/
def eqDefaultEntry (n r : Nat) : Word := BitVec.ofNat 64 (leAt Config.eqDefault (32 + 8 * (4 * n + r)) 8)

/-- The entry that lane `n` uses at rate code `r`: an entry that breaks R646 is replaced by the default one. -/
def eqEntry (s : State) (n r : Nat) : Word :=
  match s.attic.eq with
  | some es => (es.getD (4 * n + r) none).getD (eqDefaultEntry n r)
  | none => eqDefaultEntry n r

/-- Transmit taps of a lane (pre2, pre1, main, post1), fixed at their table values (R646). -/
def laneTaps (s : State) (n : LaneId) : List Int :=
  let e := eqEntry s n.val (lane s n).rate.toNat
  [signed 6 (fld e 0 6), signed 6 (fld e 6 6), (fld e 12 6 : Int), signed 6 (fld e 18 6)]

/-- The CAP that the part sends in Negotiate (Table 18-4); a lane is present when it negotiates. -/
def ownTrainCap (s : State) (l : LinkId) : TrainCap :=
  { maxRate := 3, present := laneMask s l (fun a => a.st = .negotiate), farLoopOk := true,
    eqVersion := BitVec.ofNat 8 (leAt (eqInUse s) 8 1), nonce := (link s l).nonce }

/-! ### The ladder (R641 to R644) -/

/-- Draws the nonce of a CAP (Table 18-4). -/
def drawNonce (l : LinkId) (s : State) : State :=
  let (x, s) := takeFree s
  modLink l (fun k => { k with nonce := x.setWidth 32, caps := 0, trainCap := none }) s

/-- Training lock after one more frame: held or not, and the length of the run of good or bad frames that would change it (R640). -/
def lockStep (z : Bool × Nat) (good : Bool) : Bool × Nat :=
  if z.1 = good then (z.1, 0)
  else if (if z.1 then 4 else 8) ≤ z.2 + 1 then (good, 0) else (z.1, z.2 + 1)

/-- The lane held training lock when the last 100 µs began, and throughout them (R640, R641). -/
def heldLock (x : DetectLane) : Bool :=
  let z := x.before.foldl lockStep (false, 0)
  z.1 && (x.during.foldl (fun (y : Bool × Bool × Nat) g => let w := lockStep y.2 g
    (y.1 && w.1, w)) (true, z)).1

/-- Meaning of LANE_DETECT_DONE: min_width + 1 lanes have held training lock for 100 µs. -/
def execLaneDetectDone (l : LinkId) (seen : List DetectLane) (s : State) : Out :=
  let ok := fun (j : Fin 4) (a : Lane) =>
    ((seen[j.val]?).map heldLock).getD false && a.st = .detect && !a.ownOut && a.farLoop.isNone && decide (a.since + 100000 ≤ s.tick.ns)
  let js := (List.finRange 4).filter (fun j => ok j (lane s (laneId l j)))
  if ethMode s l.val || (link s l).up || (link s l).nego || decide (js.length < minLanes s l)
      || !(lanesWhere s l (fun a => a.st = .negotiate || a.st = .step || a.st = .align)).isEmpty then .next s
  else .next (drawNonce l (modLanes l (fun j a =>
    if ok j a then { a with st := .negotiate, since := s.tick.ns, tries := 0, pass := none, peerPass := none } else a) s))

/-- Lanes shown present in the part's own CAP. -/
def ownPresent (s : State) (l : LinkId) : BitVec 4 := laneMask s l (fun a => a.st = .negotiate)

/-- A CAP exchange has succeeded (Table 18-5). -/
def capDone (s : State) (l : LinkId) : Bool :=
  match (link s l).trainCap with
  | some c => decide (3 ≤ (link s l).caps) && c.present = ownPresent s l
  | none => false

/-- A CAP from the peer: the exchange ends with the initiator known and the lanes in Step, or, where the peer offers
max_rate below 3, with an event and the link still in Negotiate (R641, R642). -/
def trainCapIn (l : LinkId) (c : TrainCap) (s : State) : State :=
  if ownPresent s l = 0 then s
  else if c.nonce = (link s l).nonce then drawNonce l s
  else
    let before := capDone s l
    let s := modLink l (fun k =>
      { k with trainCap := some c, caps := k.caps + 1, initiator := decide (c.nonce.toNat < k.nonce.toNat) }) s
    if !capDone s l then s
    else if c.maxRate ≠ 3 then
      if before then s else raiseEv 0x1E l.val (2 + (ownPresent s l).toNat <<< 4 + 1 <<< 8) (fnGen s (.port l)) s
    else modLanes l (fun _ a =>
      if a.st = .negotiate then
        { a with st := .step, since := s.tick.ns, rate := 0, tries := 0, pass := some true, peerPass := some true }
      else a) s

/-- Meaning of TRAINING_CAP. -/
def execTrainingCap (l : LinkId) (w : TrainLine) (s : State) : Out := .next (onTrain l w 0x01 (fun b => trainCapIn l (capOfBody b)) s)

/-- The lanes of a STEP switch to the next rate together. -/
def switchRate (l : LinkId) (rate : BitVec 2) (lanes : BitVec 4) (s : State) : State :=
  let js := lanesWhere s l (fun a => a.st = .step)
  if js.isEmpty || !js.all (fun j => stepPassed (lane s (laneId l j)) && (lane s (laneId l j)).rate.toNat + 1 = rate.toNat) then s
  else
    let s := modLanes l (fun j a =>
      if a.st = .step && bit lanes j.val then
        { a with rate := rate, since := s.tick.ns, tries := 0, pass := none, peerPass := none } else a) s
    let s := (js.filter (fun j => !bit lanes j.val)).foldl (fun s j => holdLane (laneId l j) s) s
    if laneCount (laneMask s l inLane) < minLanes s l then bringFail l 3 s else s

/-- A STEP frame from the initiator: the responder switches after 8 of them (Table 18-5). -/
def trainStepIn (l : LinkId) (rate : BitVec 2) (lanes : BitVec 4) (s : State) : State :=
  let k := link s l
  if k.initiator then s
  else if k.stepCount < 7 then setLink s l { k with stepCount := k.stepCount + 1 }
  else switchRate l rate lanes (setLink s l { k with stepCount := 0 })

/-- The rate and lanes of the STEP that the part sends as initiator: the next rate, on the lanes at this step. -/
def ownStep (s : State) (l : LinkId) : BitVec 2 × BitVec 4 :=
  (((lanesWhere s l (fun a => a.st = .step)).head?.map (fun j => (lane s (laneId l j)).rate + 1)).getD 0, laneMask s l (fun a => a.st = .step))

/-- Meaning of TRAINING_STEP: the initiator has sent its 64 STEP frames, or a STEP frame comes in (Tables 18-4 and 18-5). -/
def execTrainingStep (l : LinkId) (lane : Option (Fin 4)) (bits : List Bool) (s : State) : Out :=
  match lane with
  | none => .next (if (link s l).initiator then switchRate l (ownStep s l).1 (ownStep s l).2 s else s)
  | some j => .next (onTrain l ⟨j, bits⟩ 0x02 (fun b => trainStepIn l (b.extractLsb' 0 2) (b.extractLsb' 2 4)) s)

/-- The peer's RESULT for a rate. -/
def trainResultIn (l : LinkId) (rate : BitVec 2) (pass : BitVec 4) (s : State) : State :=
  judgeLink l (modLanes l (fun j a =>
    if (a.st = .step || (a.st = .recover && a.retryAt.isNone && !a.failed)) && a.rate = rate && a.rate ≠ 0 then
      { a with peerPass := some (bit pass j.val) } else a) s)

/-- Meaning of TRAINING_RESULT (Table 18-4). -/
def execTrainingResult (l : LinkId) (lane : Fin 4) (bits : List Bool) (s : State) : Out :=
  .next (onTrain l ⟨lane, bits⟩ 0x03 (fun b => trainResultIn l (b.extractLsb' 0 2) (b.extractLsb' 2 4)) s)

/-- Lane rate of a rate code, in Mb/s (Table 18-1). -/
def laneRate (r : BitVec 2) : Nat := [26563, 106250, 212500, 437500].getD r.toNat 0

/-- Bits of the PRBS31 window of a lane in Step or Recover (R644, Table 18-5). -/
def windowLog2 (s : State) (a : Lane) : Nat := if a.st = .recover then 24 else fld (reg s .laneTest) 0 6

/-- A window of the lane can have ended since its state or its rate was entered (R644). -/
def windowOver (s : State) (a : Lane) : Bool := decide (a.since + 2 ^ windowLog2 s a * 1000 / laneRate a.rate ≤ s.tick.ns)

/-- Meaning of PRBS_WINDOW_END: each lane's errors against prbs_max_err; a lane in a loop only reports (R644, R658). -/
def execPrbsWindowEnd (l : LinkId) (errs : List Nat) (s : State) : Out :=
  let most := fld (reg s .laneTest) 8 24
  let s' := modLanes l (fun j a =>
    let e := errs.getD j.val 0
    let n := BitVec.ofNat 32 (min e 0xFFFFFFFF)
    let w := reg s .laneCtrl (laneId l j).val
    if (a.st = .step && a.rate ≠ 0 || a.st = .recover && a.retryAt.isNone && !a.failed) && windowOver s a then
      { a with pass := some (decide (e ≤ most)), prbsErr := n }
    else if fld w 1 2 ≠ 0 && bit w 3 && bit w 4 then { a with prbsErr := n }
    else a) s
  .next (judgeLink l s')

/-- The training message that the part sends on the lanes of a link, the same on each: CAP in Negotiate, RESULT once a window has ended,
STEP from the initiator between steps, IDLE else (R640, R641, Tables 18-3 and 18-4). -/
def trainOut (s : State) (l : LinkId) : BitVec 8 × BitVec 64 :=
  let told := lanesWhere s l (fun a => (a.st = .step && a.rate ≠ 0 || a.st = .recover) && a.pass.isSome)
  let most := told.foldl (fun n j => max n (lane s (laneId l j)).prbsErr.toNat) 0
  if !(lanesWhere s l (fun a => a.st = .negotiate)).isEmpty then (0x01, capBody (ownTrainCap s l))
  else match told.head? with
    | some j =>
      if (lane s (laneId l j)).peerPass.isSome && (link s l).initiator && (ownStep s l).2 ≠ 0 then
        (0x02, BitVec.ofNat 64 ((ownStep s l).1.toNat + (ownStep s l).2.toNat <<< 2))
      else (0x03, BitVec.ofNat 64 ((lane s (laneId l j)).rate.toNat
        + (laneMask s l (fun a => a.pass = some true)).toNat <<< 2 + most <<< 10))
    | none =>
      if (link s l).initiator && (ownStep s l).2 ≠ 0 && (ownStep s l).1 = 1 then
        (0x02, BitVec.ofNat 64 (1 + (ownStep s l).2.toNat <<< 2))
      else (0x00, 0)

/-- The time limit of a lane's state has passed (Table 18-5). -/
def limitPassed (s : State) (a : Lane) : Bool :=
  match a.st with
  | .negotiate => decide (a.since + 10000000 ≤ s.tick.ns)
  | .step => decide (a.since + 20000000 ≤ s.tick.ns) && !stepPassed a
  | .align => decide (a.since + 1000000 ≤ s.tick.ns)
  | .recover => decide (a.since + 500000 ≤ s.tick.ns) && a.retryAt.isNone && !a.failed
  | _ => false

/-- One lane reaches its time limit in Step, Align or Recover. -/
def laneLimit (n : LaneId) (s : State) : State :=
  match (lane s n).st with
  | .step => attemptFail n s
  | .align => afterHold (linkOfLane n) 4 (holdLane n s)
  | .recover => recoverFail n s
  | _ => s

/-- Meaning of LANE_STATE_TIMEOUT. A link that stays in Negotiate under R642 has no time limit. -/
def execLaneStateTimeout (l : LinkId) (lanes : BitVec 4) (s : State) : Out :=
  let js := (List.finRange 4).filter (fun j => bit lanes j.val && limitPassed s (lane s (laneId l j)))
  if js.any (fun j => (lane s (laneId l j)).st = .negotiate) then
    .next (if capDone s l then s else lanesToDetect l s)
  else
    let s := js.foldl (fun s j => if limitPassed s (lane s (laneId l j)) then laneLimit (laneId l j) s else s) s
    .next (judgeLink l s)

/-- Lanes still between Step and Service. -/
def aligning (a : Lane) : Bool := a.st = .align || a.st = .step && !a.ownOut

/-- The lane has block lock and codeword lock (R636, R637; DESIGN CHOICE, log 119: a codeword that decodes gives codeword lock). -/
def holdsLock (x : AlignLane) : Bool := gainsLock x.hdrs && x.decodes

/-- The lane lies within the skew that the receiver absorbs, 32 ns (R638). -/
def inSkew (x : AlignLane) : Bool := decide (x.skew ≤ 32000)

/-- What is seen of lane `j` satisfies `f`. -/
def seenAs (f : AlignLane → Bool) (seen : List AlignLane) (j : Fin 4) : Bool :=
  match seen[j.val]? with
  | some x => f x
  | none => false

/-- The lane enters Service and leaves the part's out_mask (Table 18-5, R650); its locks are watched anew. -/
def toService (ns : Nat) (a : Lane) : Lane :=
  { a with st := .service, since := ns, ownOut := false, hdrs := [], badWords := 0, ucw := [] }

/-- What follows when lanes of a link have entered Service: the link layer starts under R207, or a retrained link replays (R205, R652). -/
def afterAlign (l : LinkId) (s : State) : State :=
  let k := link s l
  if k.up || k.nego then
    if k.retrain && (lanesWhere s l (fun a => inLane a && !(a.st = .service))).isEmpty then
      replayNow l (setLink s l { k with retrain := false })
    else s
  else if !(lanesWhere s l aligning).isEmpty then s
  else if laneCount (laneMask s l inLane) < minLanes s l then bringFail l 4 s
  else startNego l s

/-- Meaning of ALIGN_COMPLETE: lanes in Align that hold both locks enter Service, or are held out where they lie beyond the skew
(R636 to R638, R641). -/
def execAlignComplete (l : LinkId) (seen : List AlignLane) (s : State) : Out :=
  let js := lanesWhere s l (fun a => a.st = .align)
  let far := js.filter (seenAs (fun x => holdsLock x && !inSkew x) seen)
  let good := js.filter (seenAs (fun x => holdsLock x && inSkew x) seen)
  if ethMode s l.val || (far ++ good).isEmpty then .next s
  else
    let s := far.foldl (fun s j => afterHold l 4 (holdLane (laneId l j) s)) s
    .next (afterAlign l (good.foldl (fun s j => modLane (laneId l j) (toService s.tick.ns) s) s))

/-! ### Lane faults and narrowing (R647 to R653) -/

/-- Uncorrectable codewords of a lane within the last 64 ticks (R647). -/
def ucwCount (s : State) (a : Lane) : Nat := (a.ucw.filter (fun t => decide (ageOf s t < 64))).length

/-- The model sees the codewords of the lane: those of a fabric link's lane in Service. What a lane in Align or of an Ethernet port finds
of its coding comes with the command. -/
def codeSeen (s : State) (n : LaneId) : Bool := (lane s n).st = .service && !ethMode s (linkOfLane n).val

/-- Meaning of LANE_FAULT: only the causes that hold (R636, R637, R647). -/
def execLaneFault (n : LaneId) (cause : LaneCause) (s : State) : Out :=
  match cause with
  | .lock => .next (if codeSeen s n && !lockLost (lane s n) then s else faultLane n 1 s)
  | .ucwLimit =>
    .next (if codeSeen s n && decide (ucwCount s (lane s n) < fld (reg s .laneCtrl n.val) 8 8) then s else faultLane n 2 s)
  | .rxPower => .next (if 8 ≤ (lane s n).low then faultLane n 3 s else s)
  | .laser => .next (if (lane s n).darkened then faultLane n 4 s else s)

/-- Meaning of LANE_STATE_BLOCK: the peer's out_mask and tx_next (R634, R648, R649, R653). -/
def execLaneStateBlock (l : LinkId) (b : LaneState) (s : State) : Out :=
  if !(link s l).up || ethMode s l.val then .next s
  else
    let s := modLanes l (fun j a =>
      let out := bit b.outMask j.val
      let a' := { a with peerOut := out }
      if out && !a.peerOut && a.st = .service then toRecover s a' else a') s
    let s := modLink l (fun k => { k with peerTx := b.txNext }) s
    let s := afterHold l 5 s
    .next (if laneCount b.txNext < minLanes s l then findFailure l 1 s else s)

/-- Meaning of RECOVER_RETRY: 65,536 ticks after a failed recovery the part tries again (R651). -/
def execRecoverRetry (n : LaneId) (s : State) : Out :=
  let a := lane s n
  match a.retryAt with
  | some t =>
    if a.st = .recover && !a.failed && !a.darkened && reached s t then .next (setLane s n (toRecover s a)) else .next s
  | none => .next s

/-- A write of 1 to failed allows Recover on the lane again (Table 18-9, R651). -/
def clearFailed (n : LaneId) (s : State) : State :=
  let a := lane s n
  if !a.failed then s
  else
    let a := { a with failed := false, fails := 0 }
    setLane s n (if a.st = .recover then toRecover s a else { a with ownOut := a.ownOut && a.st ≠ .detect })

/-- Meaning of FAILED. -/
def execFailedClear (n : LaneId) (s : State) : Out := .next (clearFailed n s)

/-- Meaning of FALLBACK: writing 1 clears fall-back (Table 6-6, R206). -/
def execFallbackClear (l : LinkId) (s : State) : Out := .next (setFallback l false s)

/-! ### Lasers and optical measurement (R654, R655) -/

/-- Laser input A (false) or B (true) of an engine. -/
def laser (s : State) (e : Fin 24) (b : Bool) : Laser := tblGet {} s.lasers (2 * e.val + b.toNat)
def modLaser (e : Fin 24) (b : Bool) (f : Laser → Laser) (s : State) : State :=
  { s with lasers := tblMod {} s.lasers (2 * e.val + b.toNat) f }

/-- Lanes that a laser feeds: lanes 0 and 1, or 2 and 3, of the engine's four links (R628). -/
def laserLanes (e : Fin 24) (b : Bool) : List LaneId :=
  (List.finRange 16).filterMap (fun i =>
    if (i.val % 4 / 2 = 1) = (b = true) then some ⟨16 * e.val + i.val, by have := e.isLt; have := i.isLt; omega⟩ else none)

/-- laser_low of LANE_TEST, signed. -/
def laserLow (s : State) : Int := signed 16 (fld (reg s .laneTest) 48 16)
/-- rx_low of LANE_TEST, signed. -/
def rxLow (s : State) : Int := signed 16 (fld (reg s .laneTest) 32 16)

/-- A lane loses its light (R654). -/
def darkenLane (n : LaneId) (s : State) : State :=
  let a := lane s n
  let l := linkOfLane n
  if a.darkened then s
  else
    let s := if ethMode s l.val then s else modLane n (fun a => { a with ownOut := a.ownOut || inLane a }) s
    let s := modLane n (fun a => { a with darkened := true, st := .dark, since := s.tick.ns, retryAt := none }) s
    if a.st = .service ∨ a.st = .align then afterHold l (laneStCode a.st) (raiseEv 0x14 n.val 4 0 s)
    else if a.st = .step then afterHold l 3 s
    else s

/-- A lane has light again: Recover where its link has been through the ladder, else Detect (R654, Table 18-5). -/
def lightLane (n : LaneId) (s : State) : State :=
  let l := linkOfLane n
  if !(lane s n).darkened then s
  else
    let s := modLane n (fun a => { a with darkened := false }) s
    if !laneLit s n then s
    else if !ethMode s l.val && !(lanesWhere s l inLane).isEmpty then modLane n (toRecover s) s
    else modLane n (fun a => { a with st := .detect, since := s.tick.ns, ownOut := a.failed }) s

/-- Applies R654 to a laser: its fault signal or an enable of 0 darkens its lanes; good power on an enabled laser without
fault lights them. -/
def laserCheck (e : Fin 24) (b : Bool) (s : State) : State :=
  let z := laser s e b
  let en := bit (reg s .oeLaser e.val) b.toNat
  if z.fault || !en then (laserLanes e b).foldl (fun s n => darkenLane n s) s
  else if laserLow s < z.power.toInt then (laserLanes e b).foldl (fun s n => lightLane n s) s
  else s

/-- Meaning of LASER_FAULT. -/
def execLaserFault (e : Fin 24) (b : Bool) (s : State) : Out :=
  .next (laserCheck e b (modLaser e b (fun z => { z with fault := true }) s))

/-- Meaning of LASER_FAULT_CLEAR; `pwr` is the laser power then read. -/
def execLaserFaultClear (e : Fin 24) (b : Bool) (pwr : Int) (s : State) : Out :=
  .next (laserCheck e b (modLaser e b (fun z => { z with fault := false, power := BitVec.ofInt 16 pwr }) s))

/-- Both laser enables of an engine take a value (Table 18-11, R654). -/
def laserEnable (e : Fin 24) (enA enB : Bool) (s : State) : State :=
  let w := setFld (reg s .oeLaser e.val) 0 2 (enA.toNat + 2 * enB.toNat)
  laserCheck e true (laserCheck e false (setReg s .oeLaser e.val 0 0 w))

/-- Meaning of OE_LASER_ENABLE. -/
def execOeLaserEnable (e : Fin 24) (enA enB : Bool) (s : State) : Out := .next (laserEnable e enA enB s)

/-- Meaning of OPTICAL_MEASURE: one of the measurements of R655, with the alarms of R647 and R655. -/
def execOpticalMeasure (m : OpticalReading) (s : State) : Out :=
  match m with
  | .laser e b p =>
    let low := decide (p.toInt < laserLow s)
    let n := if low then (laser s e b).low + 1 else 0
    let s := laserCheck e b (modLaser e b (fun z => { z with power := p, low := n }) s)
    .next (if n = 2 then raiseEv 0x1F e.val ((if b then 2 else 1) + p.toNat <<< 16) 0 s else s)
  | .tx n p => .next (modLane n (fun a => { a with txPower := p }) s)
  | .rx n p =>
    let s := modLane n (fun a => { a with rxPower := p, low := if p.toInt < rxLow s then a.low + 1 else 0 }) s
    .next (if 8 ≤ (lane s n).low then faultLane n 3 s else s)

/-! ### Far-end loops and Ethernet lanes (R657, R659) -/

/-- A LOOP frame on a lane (R657). -/
def trainLoopIn (n : LaneId) (mode : BitVec 2) (s : State) : State :=
  let a := lane s n
  if mode = 3 ∧ (a.st = .detect ∨ a.st = .negotiate) ∧ (ownTrainCap s (linkOfLane n)).farLoopOk then setLane s n { a with farLoop := some s.tick.ns }
  else if mode = 0 ∧ a.farLoop.isSome then setLane s n { a with farLoop := none, st := .detect, since := s.tick.ns }
  else s

/-- Meaning of TRAINING_LOOP. -/
def execTrainingLoop (l : LinkId) (lane : Fin 4) (bits : List Bool) (s : State) : Out :=
  .next (onTrain l ⟨lane, bits⟩ 0x04 (fun b => trainLoopIn (laneId l lane) (b.extractLsb' 0 2)) s)

/-- Meaning of FAR_LOOP_TIMEOUT: 10 s without a training frame end the loop (R657). -/
def execFarLoopTimeout (l : LinkId) (s : State) : Out :=
  .next (modLanes l (fun _ a =>
    match a.farLoop with
    | some t => if t + 10000000000 ≤ s.tick.ns then { a with farLoop := none, st := .detect, since := s.tick.ns } else a
    | none => a) s)

/-- The lanes of a link leave or enter Dark as lane_en, the port's state and the light allow (Table 18-5, R792). -/
def relight (l : LinkId) (s : State) : State :=
  modLanes l (fun j a =>
    if laneLit s (laneId l j) then
      if a.st = .dark then { a with st := .detect, since := s.tick.ns, ownOut := a.failed } else a
    else if a.st = .dark then a else { a with st := .dark, since := s.tick.ns, farLoop := none }) s

/-- Meaning of ETHERNET_PORT_SERVICE: the four lanes hold lock at the port type's rate and the port enters service (R659). -/
def execEthernetPortService (l : Fin 16) (s : State) : Out :=
  let k : LinkId := ⟨80 + l.val, by have := l.isLt; omega⟩
  if ethMode s k.val && (ethPort s l).up = false && (List.finRange 4).all (fun j => laneLit s (laneId k j)) then
    let rate : BitVec 2 := if bit (reg s .ethPortCfg l.val) 1 then 1 else 2
    .next (modEth l (fun e => { e with up := true })
      (modLanes k (fun _ a => { a with st := .service, since := s.tick.ns, rate := rate, ownOut := false, peerOut := false }) s))
  else .next s

end Machine
end Sys2Proof
end

