-- ==== Sys2Proof/Machine/Strongroom.lean ====
section
/-!
DEFINITION. The Strongroom (chapter 19): envelopes, sessions and provisioning, attestation, tamper responses and the
STRONG_STATE register. Cryptographic functions are uninterpreted (log 3).
-/
namespace Sys2Proof
namespace Machine

/-! ### Envelopes (R663 to R665) -/

/-- Payload bytes of an envelope's header. -/
def envLen (bs : List Byte) : Nat := leAt bs 8 4
/-- The payload, without its padding. -/
def envPayload (bs : List Byte) : List Byte := slice bs 64 (envLen bs)
/-- security_version of an envelope. -/
def envVersion (bs : List Byte) : Nat := leAt bs 12 4
/-- Payload bytes with their padding. -/
def envPadded (bs : List Byte) : Nat := 8 * ceilDiv (envLen bs) 8

/-- Digest of a trust-anchor slot (R663). -/
def anchorDigest (s : State) (k : Nat) : BitVec 384 := if k = 0 then Config.anchor0 else tblGet 0 s.strong.anchors k

/-- The named anchor may sign an envelope of this kind (second and third conditions of R664). -/
def anchorOk (s : State) (kind k : Nat) : Bool :=
  if kind = 1 then k = 0
  else if k = 0 then s.strong.blown = 0
  else decide (k ≤ 4) && bit s.strong.blown (k - 1) && !bit s.strong.revoked (k - 1)

/-- First condition of R664: the layout of the envelope and its zeros. -/
def envLayout (kind : Nat) (bs : List Byte) : Bool :=
  decide (64 + 5360 ≤ bs.length) && leAt bs 0 4 = 0x4B534531 && leAt bs 4 1 = kind
    && 64 + envPadded bs + 5360 = bs.length && leAt bs 6 2 = 0 && leAt bs 17 3 = 0 && leAt bs 28 36 = 0
    && leAt bs (64 + envLen bs) (envPadded bs - envLen bs) = 0 && leAt bs (64 + envPadded bs + 5357) 3 = 0
    && (kind = 1 || envVersion bs = 0)

/-- The message that both signatures of an envelope cover: its header and the digest of its unpadded payload (R663). -/
def envMessage (bs : List Byte) : List Byte := slice bs 0 64 ++ leBytes 48 (Config.sha384 (envPayload bs)).toNat

/-- Both signatures of the trailer verify under its public keys (R663, Table 19-4). -/
def signaturesOk (bs : List Byte) : Bool :=
  let t := 64 + envPadded bs
  Config.verifySig 0 (slice bs t 32) (slice bs (t + 1984) 64) (envMessage bs)
    && Config.verifySig 1 (slice bs (t + 32) 1952) (slice bs (t + 2048) 3309) (envMessage bs)

/-- The first condition of R664 that fails, numbered from 1; none for an acceptable envelope of this kind. -/
def envFault (s : State) (kind : Nat) (bs : List Byte) : Option Nat :=
  let k := leAt bs 16 1
  let dev := leAt bs 20 8
  if !envLayout kind bs then some 1
  else if kind = 1 && !anchorOk s kind k then some 2
  else if kind ≠ 1 && !anchorOk s kind k then some 3
  else if Config.sha384 (slice bs (64 + envPadded bs) 1984) ≠ anchorDigest s k then some 4
  else if dev ≠ 0 && dev ≠ Config.serial.toNat then some 5
  else if kind = 1 && decide (envVersion bs < s.strong.floor.toNat) then some 6
  else if !signaturesOk bs then some 7
  else none

/-- A refused envelope is counted and raises event 0x71 (R665). -/
def envRefuse (cond requester : Nat) (bs : List Byte) (s : State) : State :=
  raiseEv 0x71 0 (leAt bs 4 1 + cond <<< 8 + requester <<< 16) 0 (bumpModule 9 s)

/-- Kind of envelope that a use asks for (Table 19-3), and its requester (R666). -/
def verifyKind : VerifyUse → Nat × Nat
  | .coat _ => (2, 0)
  | .fw _ => (1, 0)
  | .session _ => (5, 0)
  | .bundle => (3, 2)
  | .eqTable => (4, 2)

/-- A waiting envelope comes before another: it arrived earlier, or in the same cycle and first under R73, with N = 3 (R666). -/
def verifyBefore (s : State) (a b : Verify) : Bool :=
  decide (a.at_ < b.at_) || a.at_ = b.at_ && decide (tieKey s 3 (verifyKind a.use).2 ≤ tieKey s 3 (verifyKind b.use).2)

/-- An envelope whose last byte has been read waits for its verification (R666). -/
def verifyLater (u : VerifyUse) (bs : List Byte) (s : State) : State :=
  let v : Verify := ⟨u, bs, s.tick.ns⟩
  { s with strong.verify := s.strong.verify.filter (fun x => verifyBefore s x v) ++ v :: s.strong.verify.filter (fun x => !verifyBefore s x v) }

/-! ### STRONG_STATE (Table 19-10) -/

/-- STRONG_STATE as SEC_STATE and the register report it. -/
def strongWord (s : State) : Word :=
  let z := s.strong
  BitVec.ofNat 64 ((if z.erased then 2 else if z.lockdown then 1 else 0) + z.linkKey.toNat <<< 2 + z.session.isSome.toNat <<< 3
    + z.eraseArmed.toNat <<< 4 + z.lastSource.toNat <<< 8 + z.floor.toNat <<< 16 + z.blown.toNat <<< 24
    + z.revoked.toNat <<< 28 + z.policy.toNat <<< 32 + z.alarms.toNat <<< 48)

/-! ### Alarms (R679 to R685, R716) -/

/-- The alarm response: every key marked in Table 19-2 is cleared, ALARM_N goes low, and Lockdown follows at the next tick
boundary. `erase` tells a terminal erase; a full alarm counter enters Erased (R681, R716, Table 19-9). -/
def alarmResponse (src : BitVec 8) (erase : Bool) (s : State) : State :=
  let z := s.strong
  let strong : Strong := { z with
    offer := none
    session := none
    linkKey := false
    linkMaster := 0
    alarm := true
    lastSource := src
    alarms := if z.alarms = 0xFFFF then z.alarms else z.alarms + 1
    alarmFuses := min 64 (z.alarmFuses + 1)
    eraseFuse := z.eraseFuse || erase
    lockErase := z.lockErase || erase || decide (64 ≤ z.alarmFuses)
    lockAt := some (z.lockAt.getD (s.tick.elapsed + 1)) }
  { s with strong := strong, larder.key := [], larder.partKey := false, larder.fills := s.larder.fills.filter (fun f => !f.rekey),
           links := tblMap {} (fun _ k => { k with keyed := false, keyTx := [], keyRx := [] }) s.links }

/-- Policy code of a sensor (Table 19-9): sensor 7 always raises an alarm, 0b11 is treated as alarm (R680). -/
def policyOf (s : State) (n : Nat) : Nat :=
  if n = 7 then 1 else if fld s.strong.policy (2 * n) 2 = 3 then 1 else fld s.strong.policy (2 * n) 2

/-- Meaning of TAMPER_TRIP (R679): the sensor's response. -/
def execTamperTrip (n : Fin 8) (s : State) : Out :=
  let s := raiseEv 0x70 n.val 0 0 (bumpModule (10 + n.val) s)
  .next (if policyOf s n.val = 0 then s else alarmResponse (BitVec.ofNat 8 n.val) (policyOf s n.val = 2) s)

/-- Meaning of SEC_ZEROISE: the alarm response with source 0xFE (Table 19-5, R681). -/
def execSecZeroise (d : DRef) (s : State) : Out :=
  .next (withDesc d 0x73 s (fun _ s => complete d stOk 0 (alarmResponse 0xFE false (raiseEv 0x70 0xFE 0 0 s))))

/-! ### Sessions and provisioning (R667 to R670) -/

/-- Random bytes of the DRBG, 8 for each free value (log 2). -/
def drbgBytes : Nat → State → List Byte × State
  | 0, s => ([], s)
  | n + 1, s =>
    let (w, s) := takeFree s
    let (t, s) := drbgBytes n s
    (leBytes 8 w.toNat ++ t, s)

/-- Meaning of SEC_SESSION_OPEN: a new offer ends any earlier session (R668, Table 19-6). -/
def execSecSessionOpen (d : DRef) (s : State) : Out :=
  .next (withDesc d 0x70 s (fun f s =>
    if s.strong.erased then complete d stDenied 0 s
    else if dByte f.desc 32 4 < 4629 then complete d stBad 0 s
    else
      let draw := s.free
      let (r, s) := drbgBytes 156 s
      let head := r ++ leBytes 8 Config.serial.toNat
      let dig := leBytes 48 (Config.sha384 head).toNat
      let offer := head ++ slice (Config.sign 0 dig) 0 64 ++ slice (Config.sign 1 dig) 0 3309
      let s := { s with strong.offer := some ⟨draw, head⟩, strong.session := none }
      complete d stOk 4629 (hostPut (dWord f.desc 24) offer s)))

/-- Meaning of SEC_SESSION_FINISH: the reply is read, then verified as an envelope (R666, R667). -/
def execSecSessionFinish (d : DRef) (s : State) : Out :=
  .next (withDesc d 0x71 s (fun f s =>
    if dByte f.desc 32 4 = 0 then complete d stBad 0 s
    else hostRead (.obj d 0) (dWord f.desc 24) (dByte f.desc 32 4) (addWaits d 1 s)))

/-- The reply has been read, or its read failed (R821). -/
def sessionGot (d : DRef) (st : BitVec 8) (bs : List Byte) (s : State) : State :=
  if st = stOk then verifyLater (.session d) bs s else complete d st 0 s

/-- The bytes of "krystra session". -/
def krystraSession : List Byte := [0x6B, 0x72, 0x79, 0x73, 0x74, 0x72, 0x61, 0x20, 0x73, 0x65, 0x73, 0x73, 0x69, 0x6F, 0x6E]

/-- The session key of an offer and the payload of its reply (R667). -/
def sessionKey (o : Offer) (p : List Byte) : BitVec 256 :=
  let ikm := Config.x25519 o.draw (slice p 0 32) ++ Config.mlKem o.draw (slice p 32 1088)
  let salt := leBytes 48 (Config.sha384 (slice o.bytes 0 1256 ++ p)).toNat
  BitVec.ofNat 256 (leNat (Config.hkdf384 ikm salt krystraSession 32))

/-- The reply has been verified: the session key is derived, or the descriptor is denied (R667). -/
def sessionDone (d : DRef) (ok : Bool) (bs : List Byte) (s : State) : State :=
  match s.strong.offer with
  | none => complete d stDenied 0 s
  | some o =>
    let p := envPayload bs
    if !ok || s.strong.erased || p.length ≠ 1152 || slice p 1120 32 ≠ slice o.bytes 1216 32 then complete d stDenied 0 s
    else complete d stOk 0 { s with strong.session := some (sessionKey o p), strong.offer := none }

/-- SEC_PROVISION ends: the session key that it used is erased (R668). -/
def provisionEnd (d : DRef) (st : BitVec 8) (s : State) : State :=
  complete d st 0 { s with strong.session := none, strong.provision := none }

/-- Meaning of SEC_PROVISION. -/
def execSecProvision (d : DRef) (s : State) : Out :=
  .next (withDesc d 0x72 s (fun f s =>
    if s.strong.erased || s.strong.session.isNone || s.strong.provision.isSome then complete d stDenied 0 s
    else if dByte f.desc 32 4 ≠ 156 then complete d stBad 0 s
    else hostRead (.obj d 0) (dWord f.desc 24) 156 (addWaits d 1 s)))

/-- The record's reserved fields are zero, and anchor_digest is zero without blow_slot (Table 19-7a). -/
def recordZeros (r : List Byte) : Bool :=
  leAt r 1 1 < 8 && leAt r 2 1 < 8 && leAt r 3 1 < 16 && leAt r 8 8 = 0 && leAt r 50 2 = 0 && leAt r 100 28 = 0
    && (leAt r 2 1 ≠ 0 || leAt r 52 48 = 0)

/-- A policy selects terminal erase for some sensor. -/
def erasesSome (policy : Nat) : Bool := (upFrom 0 8).any (fun n => bitsOf policy (2 * n) 2 = 2)

/-- R669 accepts the record. -/
def recordOk (s : State) (r : List Byte) : Bool :=
  let slot := leAt r 2 1
  let armed := s.strong.eraseArmed || bitsOf (leAt r 1 1) 1 1 = 1
  r.length = 128 && recordZeros r && decide (slot ≤ 4) && !(slot ≠ 0 && bit s.strong.blown (slot - 1))
    && !(bitsOf (leAt r 1 1) 2 1 = 1 && erasesSome (leAt r 48 2) && !armed)

/-- The sealed record has been read (R669): accepted, it waits for the next boundary (R670). -/
def provisionGot (d : DRef) (st : BitVec 8) (bs : List Byte) (s : State) : State :=
  if st ≠ stOk then provisionEnd d st s
  else match s.strong.session with
    | none => provisionEnd d stDenied s
    | some k =>
      match Config.openRecord k bs with
      | none => provisionEnd d stDenied s
      | some r =>
        if s.strong.erased || !recordOk s r then provisionEnd d stDenied s
        else { s with strong.provision := some ⟨d, r, prepDue s⟩ }

/-- Every tenant's key, drawn anew (R396, R670). -/
def allKeys : Tbl Bool := (upFrom 0 256).map (fun t => (t, true))

/-- Frames that tenants own, to be filled anew (R397). -/
def rekeyFills (s : State) : List Fill :=
  s.larder.owner.filterMap (fun e => e.2.map (fun t => { frame := e.1, tenant := t, rekey := true }))

/-- A record takes effect (R670, Table 19-7a). -/
def applyRecord (r : List Byte) (s : State) : State :=
  let z := s.strong
  let fl := leAt r 1 1
  let slot := leAt r 2 1
  let strong : Strong := { z with
    linkKey := z.linkKey || bitsOf fl 0 1 = 1
    linkMaster := if bitsOf fl 0 1 = 1 then BitVec.ofNat 256 (leAt r 16 32) else z.linkMaster
    domain := if bitsOf fl 0 1 = 1 then BitVec.ofNat 32 (leAt r 4 4) else z.domain
    eraseArmed := z.eraseArmed || bitsOf fl 1 1 = 1
    policy := if bitsOf fl 2 1 = 1 then BitVec.ofNat 16 (leAt r 48 2) else z.policy
    blown := if slot = 0 then z.blown else z.blown ||| BitVec.ofNat 4 (2 ^ (slot - 1))
    anchors := if slot = 0 then z.anchors else tblSet 0 z.anchors slot (BitVec.ofNat 384 (leAt r 52 48))
    revoked := z.revoked ||| BitVec.ofNat 4 (leAt r 3 1) }
  { s with strong := strong }

/-- Lockdown ends: ALARM_N is released, one provision fuse is blown, and new Larder keys are drawn (R670, R716). -/
def endLockdown (s : State) : State :=
  { s with strong.lockdown := false, strong.alarm := false, strong.provFuses := min 64 (s.strong.provFuses + 1),
           larder.key := allKeys, larder.partKey := true, larder.fills := s.larder.fills ++ rekeyFills s }

/-- Meaning of PROVISION_APPLY: at the boundary; an alarm at the same boundary wins (R670, R685). -/
def execProvisionApply (s : State) : Out :=
  match s.strong.provision with
  | none => .next s
  | some p =>
    if s.tick.slot ≠ 0 || !reached s p.due then .next s
    else if s.strong.lockAt.isSome then .next (provisionEnd p.d stHalt s)
    else
      let s := applyRecord p.bytes s
      .next (provisionEnd p.d stOk (if s.strong.lockdown && !s.strong.erased then endLockdown s else s))

/-- Meaning of SEC_FLOOR_RAISE: image-floor fuses are blown up to the new floor (Table 19-5). -/
def execSecFloorRaise (d : DRef) (s : State) : Out :=
  .next (withDesc d 0x74 s (fun f s =>
    let n := dByte f.desc 24 1
    if n = 0 || decide (64 < n) then complete d stBad 0 s
    else
      let fl := max s.strong.floor.toNat n
      complete d stOk (BitVec.ofNat 64 fl) { s with strong.floor := BitVec.ofNat 8 fl }))

/-- Meaning of SEC_STATE (Table 19-5). -/
def execSecState (d : DRef) (s : State) : Out :=
  .next (withDesc d 0x75 s (fun _ s => complete d stOk (strongWord s) s))

/-! ### Attestation (R676 to R678) -/

/-- A response of the SPDM responder; none while the Attic restarts, an error in Erased (R676, R684, Table 20-2). -/
def spdmReply (t : Transport) (r : State → SpdmReply × State) (s : State) : State :=
  let s := if t = .enzen then takeInbox 0x08 s else s
  if s.attic.restarting then s
  else
    let (a, s) := if s.strong.erased then (SpdmReply.error, s) else r s
    { s with strong.replies := s.strong.replies ++ [(t, a)] }

/-- Entries of a coat's table as bytes, each after its index. -/
def tableBytes {n : Nat} (k : Nat) (t : Tbl (BitVec n)) : List Byte := t.flatMap (fun e => leBytes 4 e.1 ++ leBytes k e.2.toNat)

/-- The tables of a coat as bytes (Table 19-8a, block 6). -/
def coatBytes (c : Coat) : List Byte :=
  tableBytes 16 c.route ++ tableBytes 32 c.mcast ++ tableBytes 16 c.window ++ tableBytes 576 c.group ++ tableBytes 8 c.extent

/-- Bytes of the running image. -/
def runningImage (s : State) : List Byte := if s.attic.bank then s.attic.flash.bankB else s.attic.flash.bankA

/-- A SHA3-384 digest as bytes. -/
def sha3Bytes (bs : List Byte) : List Byte := leBytes 48 (Config.sha3 bs).toNat

/-- Content of a measurement block (Table 19-8a). -/
def measurement (s : State) : Nat → List Byte
  | 1 => leBytes 48 Config.romDigest.toNat
  | 2 => sha3Bytes (envPayload (runningImage s))
  | 3 => leBytes 1 s.strong.floor.toNat ++ leBytes 4 (envVersion (runningImage s))
  | 4 => sha3Bytes s.attic.bundleBytes
  | 5 => sha3Bytes (eqInUse s)
  | 6 => sha3Bytes (coatBytes s.route.top)
  | 7 => leBytes 2 s.strong.policy.toNat ++ leBytes 2 ((strongWord s).toNat % 65536)
  | 8 => (upFrom 0 5).flatMap (fun k => leBytes 48 (anchorDigest s k).toNat) ++ leBytes 1 s.strong.revoked.toNat
  | _ => []

/-- Signs a message with the Alias Ed25519 key and keeps it for R677. -/
def spdmSign (msg : List Byte) (s : State) : List Byte × State := (Config.sign 0 msg, { s with strong.signed := msg })

/-- Meaning of GET_VERSION. -/
def execGetVersion (t : Transport) (s : State) : Out := .next (spdmReply t (fun s => (.version, s)) s)
/-- Meaning of GET_CAPABILITIES. -/
def execGetCapabilities (t : Transport) (s : State) : Out := .next (spdmReply t (fun s => (.capabilities, s)) s)
/-- Meaning of NEGOTIATE_ALGORITHMS: Ed25519, SHA-384 and SHA3-384 (R676). -/
def execNegotiateAlgorithms (t : Transport) (s : State) : Out := .next (spdmReply t (fun s => (.algorithms, s)) s)
/-- Meaning of GET_DIGESTS. -/
def execGetDigests (t : Transport) (s : State) : Out :=
  .next (spdmReply t (fun s => (.digests [Config.sha384 (Config.certChain 0)], s)) s)
/-- Meaning of GET_CERTIFICATE. -/
def execGetCertificate (t : Transport) (offset len : BitVec 16) (s : State) : Out :=
  .next (spdmReply t (fun s => (.certificate (((Config.certChain 0).drop offset.toNat).take len.toNat), s)) s)
/-- Meaning of CHALLENGE: a signature over the nonce and every measurement. -/
def execChallenge (t : Transport) (nonce : BitVec 256) (s : State) : Out :=
  .next (spdmReply t (fun s =>
    let (g, s) := spdmSign (leBytes 32 nonce.toNat ++ (upFrom 1 8).flatMap (measurement s)) s
    (.challengeAuth g, s)) s)
/-- Meaning of GET_MEASUREMENTS: one block, or all with index 0xFF (log 33), signed on request. -/
def execGetMeasurements (t : Transport) (index : BitVec 8) (signed : Bool) (nonce : BitVec 256) (s : State) : Out :=
  .next (spdmReply t (fun s =>
    let n := index.toNat
    let bs := if n = 0xFF then (upFrom 1 8).map (fun i => (i, measurement s i))
      else if 1 ≤ n ∧ n ≤ 8 then [(n, measurement s n)] else []
    if 8 < n && n ≠ 0xFF then (.error, s)
    else if signed then
      let (g, s) := spdmSign (leBytes 32 nonce.toNat ++ bs.flatMap (·.2)) s
      (.measurements bs g, s)
    else (.measurements bs [], s)) s)
/-- Meaning of VENDOR_DEFINED_REQUEST (R677). -/
def execVendorDefinedRequest (t : Transport) (vendor : BitVec 32) (cmd : BitVec 8) (portion : BitVec 16) (s : State) : Out :=
  .next (spdmReply t (fun s =>
    if vendor ≠ 0x4B525953 then (.error, s)
    else if cmd = 1 then (.vendor (Config.sign 1 s.strong.signed), s)
    else if cmd = 2 then (.vendor (((Config.certChain 1).drop (1024 * portion.toNat)).take 1024), s)
    else (.error, s)) s)

end Machine
end Sys2Proof
end

