-- ==== Sys2Proof/Machine/Attic.lean ====
section
/-!
DEFINITION. The Attic (chapter 20): boot, firmware update, feature levels, drain and the sideband.
-/
namespace Sys2Proof
namespace Machine

/-! ### Boot flash and the boot procedure (R690 to R693) -/

/-- Bytes of an image bank: false A, true B. -/
def bankBytes (s : State) (b : Bool) : List Byte := if b then s.attic.flash.bankB else s.attic.flash.bankA

/-- Feature level of a bank in the boot record; 0 when empty. -/
def bankLevel (s : State) (b : Bool) : BitVec 8 := if b then s.attic.flash.record.levelB else s.attic.flash.record.levelA

/-- Writes the boot record into the copy that is not current, with seq one higher (R690). -/
def writeBoot (r : BootRec) (s : State) : State :=
  { s with attic.flash.record := { r with seq := s.attic.flash.record.seq + 1 }, attic.flash.copy := !s.attic.flash.copy }

/-- The boot ROM accepts the image of a bank (R664, R691). -/
def bankOk (s : State) (b : Bool) : Bool := bankLevel s b ≠ 0 && (envFault s 1 (bankBytes s b)).isNone

/-- The image of a bank is started; it runs once ATTIC_RESTART_DONE says so. -/
def startImage (b : Bool) (s : State) : State :=
  let lv := bankLevel s b
  { s with attic.bank := b, attic.level := lv, attic.trial := s.attic.flash.record.trial, attic.recovery := false,
           attic.offerDue := s.attic.offerDue || (s.attic.runAt.isSome && lv ≠ s.attic.level) }

/-- A rollback is counted, and the started image will report the refused one (R692, Table 20-9). -/
def noteRollback (b : Bool) (s : State) : State :=
  { s with attic.rollbacks := if s.attic.rollbacks = 0xFFFF then 0xFFFF else s.attic.rollbacks + 1,
           attic.refusedImage := some (b, bankLevel s b) }

/-- The other bank is tried after one was refused; with neither the part is in recovery (R691, R693). -/
def bootOther (b : Bool) (s : State) : State :=
  if bankOk s (!b) then
    startImage (!b) (writeBoot { s.attic.flash.record with active := !b, trial := false } (noteRollback b s))
  else { s with attic.recovery := true }

/-- boot() of R691, up to the start of an image. -/
def bootRun (s : State) : State :=
  let r := s.attic.flash.record
  let back := r.trial && r.tried
  let s := if back then noteRollback r.active s else s
  let b := if back then !r.active else r.active
  let r' : BootRec := if back then { r with active := !r.active, trial := false }
    else if r.trial then { r with tried := true } else r
  let s := writeBoot r' s
  if bankOk s b then startImage b s else bootOther b s

/-- The Attic restarts: fetch stops and the boot ROM runs (R687, R688, R691). -/
def atticRestart (s : State) : State :=
  bootRun { s with attic.restarting := true,
                   attic.restarts := if s.attic.restarts = 0xFFFF then 0xFFFF else s.attic.restarts + 1 }

/-! ### Firmware descriptors (R694 to R698) -/

/-- Feature level of an envelope's payload (Table 19-3). -/
def envLevel (bs : List Byte) : Nat := leAt bs 5 1

/-- Two levels that may work together (R699). -/
def levelsNear (a b : Nat) : Bool := decide (a ≤ b + 1) && decide (b ≤ a + 1)

/-- An entry of a coat's tables carries a level above `n`. -/
def coatAbove (n : Nat) (c : Coat) : Bool :=
  c.route.any (fun e => decide (n < fld e.2 16 8)) || c.mcast.any (fun e => decide (n < fld e.2 16 8))
    || c.window.any (fun e => decide (n < fld e.2 24 8)) || c.group.any (fun e => decide (n < fld e.2 16 8))

/-- An entry written into the staging area carries a level above `n`. -/
def stagedAbove (n : Nat) (g : Staging) : Bool :=
  g.written.any (fun e => match e.1 with
    | .route | .mcast | .group => decide (n < bitsOf e.2.2 16 8)
    | .window => decide (n < bitsOf e.2.2 24 8)
    | .extent => false)

/-- R696 refuses FW_ACTIVATE of a bank. -/
def activateBad (s : State) (b : Bool) : Bool :=
  let lv := (bankLevel s b).toNat
  (b = s.attic.bank && !s.attic.recovery) || lv = 0
    || allLinks.any (fun l => (link s l).up && (match (link s l).cap with
        | some c => !levelsNear lv c.level.toNat
        | none => false))
    || (decide (lv < s.attic.level.toNat) &&
        (coatAbove lv s.route.top || (match s.route.under with | some c => coatAbove lv c | none => false)
          || (match s.route.staging with | some g => stagedAbove lv g | none => false)))

/-- Work that waits for its boundary (R49, R818). -/
def prepareAdmin (d : DRef) (s : State) : State :=
  if (flightOf s d).isSome then { addWaits d 1 s with attic.prepared := s.attic.prepared ++ [⟨d, prepDue s⟩] } else s

/-- Begins one firmware descriptor. -/
def fwBegin (d : DRef) (s : State) : State :=
  match flightOf s d with
  | none => s
  | some f =>
    let b := bit f.desc 192
    match (dOpcode f.desc).toNat with
    | 0x04 =>
      let n := dByte f.desc 32 4
      if n < 5432 ∨ 50331648 < n ∨ s.attic.trial then complete d stBad 0 s
      else hostRead (.obj d 0) (dWord f.desc 24) n (addWaits d 1 s)
    | 0x05 => if activateBad s b then complete d stBad 0 s else prepareAdmin d s
    | _ =>
      if !s.attic.trial then complete d stBad 0 s
      else complete d stOk 0 { writeBoot { s.attic.flash.record with trial := false } s with attic.trial := false }

/-- The firmware descriptors run one at a time, in order (R694): the first that is still open begins. -/
def fwRun : Nat → State → State
  | 0, s => s
  | fuel + 1, s =>
    match s.attic.fw with
    | [] => s
    | d :: t =>
      match flightOf s d with
      | none => fwRun fuel { s with attic.fw := t }
      | some f => if f.pos = 1 then s else fwRun fuel (fwBegin d (modFlight d (fun g => { g with pos := 1 }) s))

/-- Fuel for every firmware descriptor. -/
def fwPump (s : State) : State := fwRun (2 * s.attic.fw.length + 1) s

/-- A firmware descriptor starts: it takes its place in the order. -/
def fwStart (d : DRef) (s : State) : State :=
  fwPump { addWaits d 1 s with attic.fw := s.attic.fw ++ [d] }

/-- A firmware descriptor ends, and the next one begins. -/
def fwEnd (d : DRef) (st : BitVec 8) (result : Word) (s : State) : State := fwPump (complete d st result s)

/-- Meaning of FW_STAGE (R695). -/
def execFwStage (d : DRef) (s : State) : Out := .next (withDesc d 0x04 s (fun _ s => fwStart d s))
/-- Meaning of FW_ACTIVATE (R696, R697). -/
def execFwActivate (d : DRef) (s : State) : Out := .next (withDesc d 0x05 s (fun _ s => fwStart d s))
/-- Meaning of FW_COMMIT (R698). -/
def execFwCommit (d : DRef) (s : State) : Out := .next (withDesc d 0x06 s (fun _ s => fwStart d s))

/-- The envelope of a FW_STAGE has been read. -/
def fwGot (d : DRef) (st : BitVec 8) (bs : List Byte) (s : State) : State :=
  if st = stOk then verifyLater (.fw d) bs s else fwEnd d st 0 s

/-- The envelope of a FW_STAGE has been verified: it is written into the bank that does not run (R695). -/
def fwVerified (d : DRef) (ok : Bool) (bs : List Byte) (s : State) : State :=
  if !ok then fwEnd d stDenied 0 s
  else if !s.attic.recovery && !levelsNear (envLevel bs) s.attic.level.toNat then fwEnd d stBad 0 s
  else { s with attic.flashOp := some ⟨d, !s.attic.bank, bs⟩ }

/-- The bank of boot flash holds an image of a level. -/
def setBank (b : Bool) (bs : List Byte) (lv : BitVec 8) (s : State) : State :=
  let r := s.attic.flash.record
  let s := writeBoot (if b then { r with levelB := lv } else { r with levelA := lv }) s
  if b then { s with attic.flash.bankB := bs } else { s with attic.flash.bankA := bs }

/-- Meaning of FLASH_WRITE_DONE: the image write ends with its read-back, or else the oldest retired-frame record is written
(R418, R690, R695). An image that does not read back leaves the bank empty and ends with DATA_ERROR (log 34). -/
def execFlashWriteDone (ok : Bool) (s : State) : Out :=
  match s.attic.flashOp with
  | some w =>
    let s := { s with attic.flashOp := none }
    let lv := BitVec.ofNat 8 (envLevel w.bytes)
    .next (if ok then fwEnd w.d stOk (lv.setWidth 64) (setBank w.bank w.bytes lv s)
      else fwEnd w.d stDataError 0 (setBank w.bank [] 0 s))
  | none =>
    match s.attic.retireLog with
    | f :: t =>
      if s.attic.restarting then .next s
      else .next { s with attic.retireLog := t, attic.flash.retired := s.attic.flash.retired ++ [f] }
    | [] => .next s

/-! ### Restarts (R687, R697, R700) -/

/-- Meaning of WATCHDOG_EXPIRY: the Attic restarts under R691; an image that FW_ACTIVATE started has then failed by time-out
(R697). -/
def execWatchdogExpiry (s : State) : Out :=
  .next (atticRestart { s with attic.activating := s.attic.activating.map (fun a => (a.1, stTimeout)) })

/-- LEVEL_OFFER on every fabric link in service, after a restart at a new level (R700). -/
def sendOffers (s : State) : State :=
  if !s.attic.offerDue then s
  else (allLinks.filter (fun l => (link s l).up && !ethMode s l.val)).foldl (fun s l =>
    modLink l (fun k => { k with offer := match k.offer with
      | some v => some v
      | none => k.cap.map (·.level) }) (sendCtl l (.levelOffer s.attic.level) s)) { s with attic.offerDue := false }

/-- The first image since power-good runs: it reads the configuration bundle and the equalisation table (R645, R795). -/
def firstRun (s : State) : State :=
  let s := { s with attic.runAt := some s.tick.elapsed }
  let s := if s.attic.flash.bundle.isEmpty then releaseWrites s else verifyLater .bundle s.attic.flash.bundle s
  if s.attic.flash.eqTable.isEmpty then s else verifyLater .eqTable s.attic.flash.eqTable s

/-- The running image reports a rollback (R692; the layout of its detail is the model's, log 35). -/
def reportRollback (s : State) : State :=
  match s.attic.refusedImage with
  | some (b, lv) => raiseEv 0x20 0 (b.toNat + lv.toNat <<< 8) 0 { s with attic.refusedImage := none }
  | none => s

/-- FW_ACTIVATE completes once an image runs, with the level now running (R697). -/
def activateDone (s : State) : State :=
  match s.attic.activating with
  | some (d, st) => fwEnd d st (s.attic.level.setWidth 64) { s with attic.activating := none }
  | none => s

/-- The Attic's image runs again, or the boot ROM serves SQ0 in recovery. -/
def imageRuns (s : State) : State :=
  let s := { s with attic.restarting := false }
  let s := if s.attic.recovery || s.attic.runAt.isSome then s else firstRun s
  fwPump (activateDone (sendOffers (evFlush 512 (reportRollback s))))

/-- Meaning of ATTIC_RESTART_DONE: the started image reaches running; one that does not is refused, and the other bank's runs
at once (R691, R697). -/
def execAtticRestartDone (started : Bool) (s : State) : Out :=
  if !s.attic.restarting then .next s
  else if started || s.attic.recovery then .next (imageRuns s)
  else
    let s := { s with attic.activating := s.attic.activating.map (fun a => (a.1, if a.2 = stOk then stDenied else a.2)) }
    .next (imageRuns (bootOther s.attic.bank s))

/-- Meaning of LEVEL_OFFER: level 3 discards and counts it, others change the link's level at the next boundary (R700,
R701). -/
def execLevelOffer (l : LinkId) (level : BitVec 8) (s : State) : Out :=
  if !(link s l).up then .next s
  else if s.attic.level.toNat ≤ 3 then .next { s with attic.offersDropped := s.attic.offersDropped + 1 }
  else .next (modLink l (fun k => { k with offer := some level }) s)

/-- Accepted offers change their links' levels at the boundary (R700). -/
def applyOffers (s : State) : State :=
  (allLinks.filter (fun l => (link s l).offer.isSome)).foldl (fun s l =>
    modLink l (fun k => match k.offer with
      | some v => { k with offer := none, level := if v.toNat < s.attic.level.toNat then v else s.attic.level,
                           cap := k.cap.map (fun c => { c with level := v }) }
      | none => k) s) s

/-! ### Drain (R703 to R706) -/

/-- A descriptor whose work a drain waits for: not of a privileged family, not telemetry (Table 20-7). -/
def drainWaits (f : InFlight) : Bool := !dPrivFamily (dOpcode f.desc) && (dOpcode f.desc).toNat / 16 ≠ 8

/-- An item admitted before the drain is still without its outcome (R704). -/
def workOpen (s : State) : Bool :=
  s.rings.flight.any drainWaits || !s.items.own.isEmpty || !s.items.track.isEmpty || !s.items.waiting.isEmpty
    || !s.route.records.isEmpty || s.larder.waiting.any (fun e => !e.2.isEmpty)
    || s.hawk.group.any (fun g => g.2.ops.any (fun o => o.2.isSome))
    || s.streams.s.any (fun x => !x.2.segs.isEmpty) || s.work.kernel.any (fun k => !k.2.runs.isEmpty)
    || s.gw.qp.any (fun q => !q.2.outs.isEmpty || !q.2.ins.isEmpty)

/-- Meaning of DRAIN (R703). -/
def execDrain (d : DRef) (s : State) : Out :=
  .next (withDesc d 0x08 s (fun f s => if dByte f.desc 24 4 = 0 then complete d stBad 0 s else prepareAdmin d s))

/-- Meaning of UNDRAIN (R706). -/
def execUndrain (d : DRef) (s : State) : Out := .next (withDesc d 0x09 s (fun _ s => prepareAdmin d s))

/-- Completes the open DRAINs with a status. -/
def drainsEnd (st : BitVec 8) (s : State) : State :=
  s.attic.drains.foldl (fun s d => complete d st 0 s) { s with attic.drains := [] }

/-- Meaning of DRAINED_POINT (R704). -/
def execDrainedPoint (s : State) : Out :=
  if s.tick.slot = 0 && s.attic.draining && !s.attic.drains.isEmpty && !workOpen s && s.route.under.isNone
      && decide (ageLimit s + 2 ≤ ageOf s s.attic.lastEntry) then
    .next (raiseEv 0x21 0 stDrained.toNat 0 (drainsEnd stOk { s with attic.drainedPoint := true }))
  else .next s

/-- Meaning of DRAIN_LIMIT_EXPIRED (R705): admission stays closed. -/
def execDrainLimitExpired (s : State) : Out :=
  .next (if !s.attic.drains.isEmpty && decide (s.attic.drainLimit ≤ ageOf s s.attic.drainSince) then drainsEnd stTimeout s else s)

/-- A DRAIN applies at its boundary: it opens a drain, or joins the one that is open (R703, R706). -/
def drainApply (d : DRef) (f : InFlight) (s : State) : State :=
  if s.attic.drains.isEmpty then
    { s with attic.draining := true, attic.drains := [d], attic.drainSince := s.tick.elapsed, attic.drainLimit := dByte f.desc 24 4 }
  else { s with attic.drains := s.attic.drains ++ [d] }

/-- FW_ACTIVATE applies: the trial bank becomes active and the Attic restarts (R697). -/
def activateApply (d : DRef) (b : Bool) (s : State) : State :=
  let s := writeBoot { s.attic.flash.record with active := b, trial := true, tried := false } s
  let s := atticRestart s
  { s with attic.activating := some (d, if s.attic.bank = b && !s.attic.recovery then stOk else stDenied) }

/-- One piece of administration work at its boundary. -/
def adminApply (w : AdminWait) (s : State) : State :=
  match flightOf s w.d with
  | none => s
  | some f =>
    match (dOpcode f.desc).toNat with
    | 0x05 => if missedTick s f then fwEnd w.d stOverrun 0 s else activateApply w.d (bit f.desc 192) s
    | 0x07 => if missedTick s f then complete w.d stOverrun 0 s
        else complete w.d stOk 0 { s with power.resetAt := some (s.tick.elapsed + 8) }
    | 0x08 => drainApply w.d f s
    | 0x09 => complete w.d stOk 0 { drainsEnd stCancelled s with attic.draining := false, attic.drainedPoint := false }
    | _ => s

/-- Administration work that is due at this boundary, in order. -/
def atticBoundary (s : State) : State :=
  let due := s.attic.prepared.filter (fun w => workDue s w.d w.due)
  due.foldl (fun s w => adminApply w s) { s with attic.prepared := s.attic.prepared.filter (fun w => !workDue s w.d w.due) }

/-! ### ATTIC_STATE and the sideband (R710, Tables 20-8 and 20-9) -/

/-- ATTIC_STATE. -/
def atticWord (s : State) : Word :=
  let a := s.attic
  BitVec.ofNat 64 (a.level.toNat + a.bank.toNat <<< 8 + a.trial.toNat <<< 9 + a.recovery.toNat <<< 10 + a.draining.toNat <<< 11
    + a.drainedPoint.toNat <<< 12 + a.restarts.toNat <<< 16 + a.rollbacks.toNat <<< 32)

/-- State set of sensor 5, one bit each in the order of Table 20-8. -/
def stateSet (s : State) : Nat :=
  s.power.ready.toNat + s.attic.drainedPoint.toNat <<< 1 + s.strong.lockdown.toNat <<< 2 + s.strong.erased.toNat <<< 3
    + s.tick.lost.toNat <<< 4 + s.attic.recovery.toNat <<< 5

/-- Cap in force (R725). -/
def capInForce (s : State) : Nat :=
  match s.power.sideCap, s.power.cmdCap with
  | some a, some b => min a b
  | some a, none => a
  | none, some b => b
  | none, none => 2400

/-- Reading of a sensor of Table 20-8. The supply voltage is not held by the part, and a number that the table does not list has no
reading: both are free values (log 93). -/
def pldmReading (id : Nat) (s : State) : Nat × State :=
  match id with
  | 1 => (s.power.watts, s)
  | 2 => let (w, s) := takeFree s; (w.toNat % 65536, s)
  | 3 => (s.power.junction.toNat, s)
  | 4 => (capInForce s, s)
  | 5 => (stateSet s, s)
  | 6 => (s.attic.bank.toNat + s.attic.trial.toNat <<< 1 + s.attic.level.toNat <<< 8, s)
  | _ => let (w, s) := takeFree s; (w.toNat % 65536, s)

/-- Meaning of PLDM_REQUEST: answered, except while the Attic restarts (R710). A discovery command is answered under its own
number with sensor identifier 0. -/
def execPldmRequest (r : PldmReq) (s : State) : Out :=
  if s.attic.restarting then .next s
  else match r with
    | .discovery c => .next { s with attic.pldm := s.attic.pldm ++ [(0, c.toNat)] }
    | .getSensor id =>
      let (v, s) := pldmReading id.toNat s
      .next { s with attic.pldm := s.attic.pldm ++ [(id, v)] }

/-- A change of sensor 5 raises a PLDM platform event (R710). -/
def pldmEvent (s : State) : State :=
  if stateSet s = s.attic.pldmState then s
  else { s with attic.pldm := s.attic.pldm ++ [(5, stateSet s)], attic.pldmState := stateSet s }

end Machine
end Sys2Proof
end

