-- ==== Sys2Proof/Machine/HawkMath.lean ====
section
/-!
DEFINITION. The arithmetic of the Hawk (R471 to R481): exact words, ordered FP32 sums, minimum and maximum, and the final
rounding.
-/
namespace Sys2Proof
namespace Machine

/-- Bytes of an element of a reduction format. -/
def elemBytes (fmt : Nat) : Nat := fmtWidth fmt / 8

/-- The arithmetic of a template: exact sum, ordered sum, minimum, maximum, or none for gathered data. -/
inductive Arith where
  | exact | ordered | minimum | maximum | copy
  deriving DecidableEq, Repr

/-- Arithmetic of a kind, op and format (Tables 12-7 and 13-5, R471, R476, R481). -/
def arithOf (kind op fmt : Nat) : Arith :=
  if 2 ≤ kind then .copy
  else if op = 1 then .minimum
  else if op = 2 then .maximum
  else if fmt = 0 ∨ fmt = 1 then .ordered
  else .exact

/-- Partial width w (Table 12-10a). -/
def partialW (a : Arith) (fmt : Nat) : Nat :=
  match a with
  | .exact => 8 / elemBytes fmt
  | .ordered => 4 / elemBytes fmt
  | _ => 1

/-- lsb of a format, as a power of two (Table 13-1). -/
def lsbOf (fmt : Nat) : Int := if fmt = 2 then -24 else if fmt = 3 then -9 else if fmt = 4 then -16 else 0

/-- An exact accumulator word (Table 13-2) from its parts. -/
def exactWord (v : Int) (pinf ninf nan : Bool) : BitVec 64 :=
  BitVec.ofNat 64 ((v % (2 : Int) ^ 61).toNat + pinf.toNat <<< 61 + ninf.toNat <<< 62 + nan.toNat <<< 63)

/-- value of an exact word. -/
def exactValue (w : BitVec 64) : Int := signed 61 w.toNat

/-- The word of one contribution element (R471). -/
def exactOf (fmt pat : Nat) : BitVec 64 :=
  match elemValue fmt pat with
  | .nan => exactWord 0 false false true
  | .inf s => exactWord 0 (!s) s false
  | .num s m e =>
    let n : Nat := m * 2 ^ (e - lsbOf fmt).toNat
    exactWord (if s then -(n : Int) else n) false false false

/-- Addition of exact words: values in 61 bits, flags by OR (R473). -/
def exactAdd (a b : BitVec 64) : BitVec 64 :=
  exactWord (exactValue a + exactValue b) (bit a 61 || bit b 61) (bit a 62 || bit b 62) (bit a 63 || bit b 63)

/-- finish_exact (R474, R475): the pattern written, and whether an integer was clamped. -/
def finishExact (fmt : Nat) (mode : Rnd) (sat : Bool) (w : BitVec 64) : Nat × Bool :=
  let v := exactValue w
  match fmtOf fmt with
  | some f =>
    if bit w 63 || (bit w 61 && bit w 62) then (f.nanPat, false)
    else if bit w 61 then ((encodeFp f mode sat (.inf false)).1, false)
    else if bit w 62 then ((encodeFp f mode sat (.inf true)).1, false)
    else if v = 0 then (0, false)
    else ((encodeFp f mode sat (.num (decide (v < 0)) v.natAbs (lsbOf fmt))).1, false)
  | none =>
    let n := fmtWidth fmt
    let (c, g) := clampInt (-(2 : Int) ^ (n - 1)) (2 ^ (n - 1) - 1) v
    ((c % (2 : Int) ^ n).toNat, g ≠ 0)

/-- One step of a minimum or maximum (R481). -/
def minMaxStep (fmt : Nat) (isMax : Bool) (a b : Nat) : Nat :=
  match fmtOf fmt with
  | some f => fpMinMax f isMax a b
  | none =>
    let x := signed (fmtWidth fmt) a
    let y := signed (fmtWidth fmt) b
    if isMax then (if x < y then b else a) else (if y < x then b else a)

/-- Patterns of a cell's elements, `w` bytes each. -/
def cellElems (w : Nat) (bs : List Byte) : List Nat := (upFrom 0 (bs.length / w)).map (fun j => leAt bs (j * w) w)

/-- A contribution's elements as accumulator elements: the first of a position (R471, R476, R481). -/
def firstAcc (a : Arith) (fmt : Nat) (bs : List Byte) : List (BitVec 64) :=
  match a with
  | .exact => (cellElems (elemBytes fmt) bs).map (exactOf fmt)
  | .ordered => (cellElems (elemBytes fmt) bs).map (fun p => BitVec.ofNat 64 (encodeFp fp32 .rne false (elemValue fmt p)).1)
  | .copy => bs.map (fun b => b.setWidth 64)
  | _ => (cellElems (elemBytes fmt) bs).map (fun p => match fmtOf fmt with
      | some f => BitVec.ofNat 64 (if (decodeFp f p).isNan then f.nanPat else p)
      | none => BitVec.ofNat 64 p)

/-- A partial's elements as accumulator elements (R459, R480). -/
def partialAcc (a : Arith) (fmt : Nat) (bs : List Byte) : List (BitVec 64) :=
  (cellElems (match a with | .exact => 8 | .ordered => 4 | .copy => 1 | _ => elemBytes fmt) bs).map (BitVec.ofNat 64)

/-- A module's partial as bytes (R459). -/
def partialBytes (a : Arith) (fmt : Nat) (acc : List (BitVec 64)) : List Byte :=
  acc.flatMap (fun x => leBytes (match a with | .exact => 8 | .ordered => 4 | .copy => 1 | _ => elemBytes fmt) x.toNat)

/-- One addition at a position, element by element (R473, R476, R481). -/
def combineAcc (a : Arith) (fmt : Nat) (mode : Rnd) (acc x : List (BitVec 64)) : List (BitVec 64) :=
  if acc.isEmpty then x
  else (acc.zip x).map (fun p => match a with
    | .exact => exactAdd p.1 p.2
    | .ordered => BitVec.ofNat 64 (fpAdd fp32 mode false p.1.toNat p.2.toNat).1
    | .minimum => BitVec.ofNat 64 (minMaxStep fmt false p.1.toNat p.2.toNat)
    | .maximum => BitVec.ofNat 64 (minMaxStep fmt true p.1.toNat p.2.toNat)
    | .copy => p.1)

/-- The result cell of a complete position (R474, R477, R481) and the integers clamped. -/
def finishAcc (a : Arith) (out : FmtSpec) (acc : List (BitVec 64)) : List Byte × Nat :=
  match a with
  | .exact =>
    let rs := acc.map (finishExact out.fmt out.rnd out.sat)
    (rs.flatMap (fun r => leBytes (elemBytes out.fmt) r.1), (rs.filter (·.2)).length)
  | .ordered =>
    (acc.flatMap (fun x => leBytes (elemBytes out.fmt) (elemPat out.fmt out.rnd out.sat (decodeFp fp32 x.toNat)).1), 0)
  | .copy => (acc.flatMap (fun x => leBytes 1 x.toNat), 0)
  | _ => (acc.flatMap (fun x => leBytes (elemBytes out.fmt) x.toNat), 0)

/-- NaN elements of a contribution cell (Table 23-4, kind 3, word 11). -/
def nanCount (fmt : Nat) (bs : List Byte) : Nat :=
  match fmtOf fmt with
  | some f => ((cellElems (elemBytes fmt) bs).filter (fun p => (decodeFp f p).isNan)).length
  | none => 0

end Machine
end Sys2Proof
end

