-- ==== Sys2Proof/Machine/Hawk.lean ====
section
/-!
DEFINITION. Collective groups and the Hawk's room (chapters 12 and 13): group entries, tiles, positions, grants, results and
records.
-/
namespace Sys2Proof
namespace Machine

/-! ### Group entries (Table 12-1) -/

def gValid (e : BitVec 4608) : Bool := bit e 0
def gTenant (e : BitVec 4608) : BitVec 8 := BitVec.ofNat 8 (fld e 8 8)
def gLocal (e : BitVec 4608) : Nat := fld e 24 7
def gMods (e : BitVec 4608) : Nat := fld e 32 5 + 1
def gRank (e : BitVec 4608) : Nat := fld e 40 5
def gPort (e : BitVec 4608) (j : Nat) : Nat := fld e (256 + 32 * j) 7
def gNode (e : BitVec 4608) (j : Nat) : BitVec 12 := BitVec.ofNat 12 (fld e (256 + 32 * j + 7) 12)
def gPeer (e : BitVec 4608) (r : Nat) : BitVec 12 := BitVec.ofNat 12 (fld e (3328 + 32 * r) 12)
def gPeerCount (e : BitVec 4608) (r : Nat) : Nat := fld e (3328 + 32 * r + 12) 7

/-- Members of the group (R426). -/
def gTotal (e : BitVec 4608) : Nat :=
  if gMods e = 1 then gLocal e else (upFrom 0 (gMods e)).foldl (fun n r => n + gPeerCount e r) 0

/-- Global index of local member `j` (R426). -/
def gIndex (e : BitVec 4608) (j : Nat) : Nat :=
  if gMods e = 1 then j else (upFrom 0 (gRank e)).foldl (fun n r => n + gPeerCount e r) j

/-- Local member at a port with a node. -/
def gMember (e : BitVec 4608) (port : Nat) (node : BitVec 12) : Option Nat :=
  (upFrom 0 (gLocal e)).find? (fun j => gPort e j = port && gNode e j = node)

/-- Rank of a peer module. -/
def gPeerRank (e : BitVec 4608) (node : BitVec 12) : Option Nat :=
  if gMods e = 1 then none else (upFrom 0 (gMods e)).find? (fun r => r ≠ gRank e && gPeer e r = node)

/-- Ranks of the peer modules. -/
def gPeers (e : BitVec 4608) : List Nat := (upFrom 0 (gMods e)).filter (· ≠ gRank e)

/-- A group's entry in the topcoat. -/
def gEntry (s : State) (g : Fin 1024) : BitVec 4608 := tblGet 0 s.route.top.group g.val

/-! ### Groups, operations and tiles -/

/-- Sequence number that slot `q` binds next (R442). -/
def nextSeq (s : State) (g : Fin 1024) (q : Fin 16) : BitVec 32 :=
  BitVec.ofNat 32 (q.val + 16 * tblGet 0 (groupOf s g).count q.val)

/-- Format specifiers and arithmetic of a template. -/
def Template.inSpec (t : Template) : FmtSpec := specOf t.inFmt.toNat
def Template.outSpec (t : Template) : FmtSpec := specOf t.outFmt.toNat
def Template.arith (t : Template) : Arith := arithOf t.kind t.op t.inSpec.fmt
def Template.tileSize (t : Template) : Nat := 2 ^ t.tileLog2

/-- Partial width of a template: 1 for one module and for gathered data. -/
def Template.w (t : Template) : Nat := partialW t.arith t.inSpec.fmt

/-- Tiles of an operation (Table 12-7). -/
def tileCount (t : Template) (e : BitVec 4608) : Nat :=
  match t.kind with
  | 0 => ceilDiv t.length t.tileSize
  | 1 => t.length / t.tileSize
  | 2 => gTotal e * t.length / t.tileSize
  | 3 => ceilDiv t.length t.tileSize
  | _ => 0

/-- Bytes of tile `i` (R434, R452). -/
def tileBytes (t : Template) (i : Nat) : Nat :=
  if t.kind = 0 ∨ t.kind = 3 then min t.tileSize (t.length - i * t.tileSize) else t.tileSize

/-- Tiles per member of a reduce-scatter. -/
def scatterTiles (t : Template) (e : BitVec 4608) : Nat := t.length / (gLocal e * t.tileSize)

/-- Member `j` receives tile `i` (Table 12-7). -/
def receives (t : Template) (e : BitVec 4608) (j i : Nat) : Bool :=
  if t.kind = 1 then i / scatterTiles t e = j else true

/-- Position of tile `i` in member `j`'s result buffer (Table 12-7). -/
def tilePos (t : Template) (e : BitVec 4608) (j i : Nat) : Nat :=
  if t.kind = 1 then (i - j * scatterTiles t e) * t.tileSize else i * t.tileSize

/-- q, the index of the op record (R450). -/
def opIndex (t : Template) (e : BitVec 4608) : Nat :=
  if t.kind = 5 then gLocal e else tileCount t e

/-- Tiles, or senders of an all-to-all, whose records member `j` gets. -/
def recordsOf (t : Template) (e : BitVec 4608) (j : Nat) : List Nat :=
  if t.kind = 5 then upFrom 0 (gLocal e) else (upFrom 0 (tileCount t e)).filter (receives t e j)

/-- Bytes that record `i` of member `j` counts. -/
def recordBytes (o : CollOp) (j i : Nat) : Nat :=
  if o.tmpl.kind = 5 then (tblGet [] o.counts i).getD j 0 else tileBytes o.tmpl i

/-- p of Table 13-5. -/
def tileP (t : Template) : Nat := ceilDiv t.tileSize 32768

/-- Grains that one tile needs (Table 13-5). -/
def tileNeed (t : Template) (several : Bool) : Nat :=
  let p := tileP t
  let m := if several then 2 else 1
  match t.arith with
  | .exact => m * ceilDiv (p * t.w) 2
  | .ordered => m * ceilDiv (p * t.w) 2 + 4 * p + (if several then 4 * p * t.w else 0)
  | .copy => ceilDiv p 2
  | _ => m * ceilDiv p 2

/-- Spill units that one tile needs (R483). -/
def tileSpill (t : Template) (several : Bool) : Nat := if t.arith = .ordered then tileNeed t several else 0

/-- Slice of result cell `k` of a tile (R467). -/
def cellSlice (g : Fin 1024) (q : Fin 16) (tile k : Nat) : PortId := portOf (29 * g.val + 8 * q.val + tile + k)

/-! ### Records (Table 12-9, R449, R450) -/

/-- A COLL_STATUS to local member `j` (R449, Table 12-9), sent to the output of the member's port (log 117). -/
def sendRecord (o : CollOp) (j index : Nat) (final : Bool) (st : BitVec 8) (bytes : Nat) (s : State) : State :=
  match o.tmpl.members[j]? with
  | none => s
  | some m =>
    let body := leBytes 8 (o.s.toNat + st.toNat <<< 32 + o.gen.toNat <<< 48)
      ++ leBytes 8 (index + final.toNat <<< 31 + (bytes % 2 ^ 32) <<< 32)
    let a := m.status + BitVec.ofNat 64 (16 * index)
    let base : Packet :=
      { opcode := 0x2A, vc := 4, last := true, ordered := true, dst := gNode o.entry j, src := myNode s,
        tenant := gTenant o.entry, tag := o.s.setWidth 16, addr := a, itemLen := 16 }
    let p := withPayload body base
    sendTo 126 (portOf (gPort o.entry j)) p s

/-- Bytes of every record of a member. -/
def memberBytes (o : CollOp) (j : Nat) : Nat :=
  (recordsOf o.tmpl o.entry j).foldl (fun n i => n + recordBytes o j i) 0

/-- Bytes delivered to a member. -/
def deliveredBytes (o : CollOp) (j : Nat) : Nat :=
  (recordsOf o.tmpl o.entry j).foldl (fun n i => n + tblGet 0 o.delivered (j * 2 ^ 20 + i)) 0

/-- Returns a tile's room to where it came from (R489). -/
def returnRoom (g : Fin 1024) (t : TileRec) (s : State) : State :=
  if t.fromReserve then modGroup g (fun v => { v with resFree := v.resFree + t.grains, resSpill := v.resSpill + t.spill }) s
  else { s with hawk.grains := s.hawk.grains + t.grains, hawk.spill := s.hawk.spill + t.spill }

/-- Room of tiles that failed in the tick just ended returns at the boundary, at which their outcome is reached (R489, log 83). -/
def returnEnding (s : State) : State :=
  (List.finRange 1024).foldl (fun s g =>
    let v := groupOf s g
    if v.ending.isEmpty then s else v.ending.foldl (fun s t => returnRoom g t s) (modGroup g (fun v => { v with ending := [] }) s)) s

/-- A slot's operation is over with a status: its room returns, at once for OK or at a boundary, else at the next one, requests for it go,
and the slot is free (R442, R489, R494). -/
def closeOp (g : Fin 1024) (q : Fin 16) (o : CollOp) (st : BitVec 8) (s : State) : State :=
  let s := if st = stOk || s.tick.slot = 0 then o.tiles.foldl (fun s t => returnRoom g t s) s
    else modGroup g (fun v => { v with ending := v.ending ++ o.tiles }) s
  let s := { s with hawk.reqs := s.hawk.reqs.filter (fun r => !(r.g = g && r.slot = q)) }
  let s := bump (groupPage g.val) (8 + st.toNat) 1 s
  modGroup g (fun v => { v with ops := tblSet none v.ops q.val none, count := tblMod 0 v.count q.val (· + 1),
                                last := tblSet none v.last q.val (some ⟨o.s, st⟩) }) s

/-- Ends an operation with a failure at every member but the lost ones (R446, R453, R464). -/
def failOp (g : Fin 1024) (q : Fin 16) (st : BitVec 8) (lost : Nat → Bool) (s : State) : State :=
  match opOf s g q with
  | none => s
  | some o =>
    let js := (upFrom 0 (gLocal o.entry)).filter (fun j => !lost j && !o.ended.contains j)
    closeOp g q o st (js.foldl (fun s j => sendRecord o j (opIndex o.tmpl o.entry) true st (deliveredBytes o j) s) s)

/-- Every member's COLL_START is in (R441). -/
def allStarted (o : CollOp) : Bool := (upFrom 0 (gLocal o.entry)).all o.starts.contains

/-- Every member and peer has arrived at a barrier (Table 12-10). -/
def allArrived (o : CollOp) : Bool :=
  (upFrom 0 (gLocal o.entry)).all o.arrived.contains && (gPeers o.entry).all o.peers.contains

/-- Member `j` has every record that comes before its op record. -/
def memberDone (o : CollOp) (j : Nat) : Bool :=
  match o.tmpl.kind with
  | 4 => allArrived o
  | 5 => o.layouts && (recordsOf o.tmpl o.entry j).all (fun i => tblGet false o.recorded (j * 2 ^ 20 + i))
  | _ => (recordsOf o.tmpl o.entry j).all (fun i => tblGet false o.recorded (j * 2 ^ 20 + i))

/-- Sends the op records that are due, and frees the slot when every member has its own (R441, R450). -/
def finishOp (g : Fin 1024) (q : Fin 16) (s : State) : State :=
  match opOf s g q with
  | none => s
  | some o =>
    if !allStarted o then s
    else
      let js := (upFrom 0 (gLocal o.entry)).filter (fun j => memberDone o j && !o.ended.contains j)
      let s := js.foldl (fun s j => sendRecord o j (opIndex o.tmpl o.entry) true stOk (memberBytes o j) s) s
      let o' := { o with ended := o.ended ++ js }
      if (upFrom 0 (gLocal o.entry)).all o'.ended.contains then closeOp g q o' stOk s else setOp g q (some o') s

/-- Record `i` of member `j` is written once (R449). -/
def writeRecord (g : Fin 1024) (q : Fin 16) (j i : Nat) (s : State) : State :=
  match opOf s g q with
  | none => s
  | some o =>
    if tblGet false o.recorded (j * 2 ^ 20 + i) then s
    else setOp g q (some { o with recorded := tblSet false o.recorded (j * 2 ^ 20 + i) true })
      (sendRecord o j i false stOk (recordBytes o j i) s)

/-- The last byte of a collective result left an output (R449, R456). -/
def collDelivered (g : Fin 1024) (q : Fin 16) (sq : BitVec 32) (i : Nat) (out : PortId) (bytes : Nat) (s : State) : State :=
  match opOf s g q with
  | none => s
  | some o =>
    if o.s ≠ sq then s
    else match (upFrom 0 (gLocal o.entry)).find? (fun j => gPort o.entry j = out.val) with
      | none => s
      | some j =>
        let o := { o with delivered := tblMod 0 o.delivered (j * 2 ^ 20 + i) (· + bytes) }
        let s := bump (groupPage g.val) 3 bytes (setOp g q (some o) s)
        if recordBytes o j i ≤ tblGet 0 o.delivered (j * 2 ^ 20 + i) then finishOp g q (writeRecord g q j i s) else s

/-! ### Room (R485 to R492) -/

/-- Lowest room handle that no tile holds (R486). -/
def freeHandle (s : State) : Nat :=
  let used := s.hawk.group.flatMap (fun v => v.2.ending.map (·.handle) ++ v.2.ops.flatMap (fun o => match o.2 with
    | some o => o.tiles.map (·.handle)
    | none => []))
  ((upFrom 0 3072).find? (fun h => !used.contains h)).getD 0

/-- Gives a tile its room (R486). -/
def giveRoom (g : Fin 1024) (q : Fin 16) (tile need spill : Nat) (reserve : Bool) (s : State) : State :=
  let t : TileRec := { tile := tile, handle := freeHandle s, grains := need, spill := spill, fromReserve := reserve, born := s.hawk.given }
  let s := { s with hawk.given := s.hawk.given + 1 }
  let s := modOp g q (fun o => { o with tiles := o.tiles ++ [t] }) s
  if reserve then modGroup g (fun v => { v with resFree := v.resFree - need, resSpill := v.resSpill - spill }) (bump hawkPage 7 1 s)
  else bump hawkPage 8 1 { s with hawk.grains := s.hawk.grains - need, hawk.spill := s.hawk.spill - spill }

/-- The tile of request `r` is older than tile `tile` of operation `o`: of an earlier operation, or an earlier tile of it (R468, R485). -/
def olderTile (r : GrantReq) (o : CollOp) (tile : Nat) : Bool :=
  decide ((r.s - o.s).toInt < 0) || (r.s = o.s && decide (r.tile < tile))

/-- A tile's first contribution reaches an input: room from the reserve at once, or a grant request (R485). -/
def askRoom (g : Fin 1024) (q : Fin 16) (o : CollOp) (tile : Nat) (s : State) : State :=
  let several := decide (1 < gMods o.entry)
  let need := tileNeed o.tmpl several
  let spill := tileSpill o.tmpl several
  if s.hawk.reqs.any (fun r => r.g = g && r.slot = q && r.tile = tile) then s
  else if need ≤ (groupOf s g).resFree && !s.hawk.reqs.any (fun r => r.g = g && olderTile r o tile) then giveRoom g q tile need spill true s
  else bump hawkPage 6 1 { s with hawk.reqs := s.hawk.reqs ++ [⟨g, q, o.s, tile, need, spill, o.bound⟩] }

/-- Request `a` is served before request `b` (R487). -/
def reqBefore (s : State) (a b : GrantReq) : Bool :=
  let ka := tieKey s 1024 a.g.val
  let kb := tieKey s 1024 b.g.val
  decide (ka < kb) || (ka = kb && (decide (ageOf s b.bound < ageOf s a.bound)
    || (a.bound = b.bound && (decide ((a.s - b.s).toInt < 0) || (a.s = b.s && decide (a.tile < b.tile))))))

/-- Inserts a request in order of service. -/
def insertReq (s : State) (r : GrantReq) : List GrantReq → List GrantReq
  | [] => [r]
  | x :: t => if reqBefore s r x then r :: x :: t else x :: insertReq s r t

/-- The walk of grant_step (R487) over requests in order; `open_` is pool_open. Requests not served are kept. -/
def grantWalk : List GrantReq → Bool → Nat → List GrantReq → State → List GrantReq × State
  | [], _, _, kept, s => (kept, s)
  | r :: t, open_, n, kept, s =>
    if n = 0 then (kept ++ r :: t, s)
    else if r.need ≤ (groupOf s r.g).resFree then grantWalk t open_ (n - 1) kept (giveRoom r.g r.slot r.tile r.need r.spill true s)
    else if open_ && decide (r.need ≤ s.hawk.grains) && decide (r.spill ≤ s.hawk.spill) then
      grantWalk t open_ (n - 1) kept (giveRoom r.g r.slot r.tile r.need r.spill false s)
    else grantWalk t false (n - 1) (kept ++ [r]) (bump (groupPage r.g.val) 4 1 (bump hawkPage 9 1 s))

/-- HAWK_GRANT_STEP (R487, R490, R492): step 9 of Table 2-6. -/
def hawkGrantStep (s : State) : State :=
  if !atStep 9 s then s
  else if s.hawk.skip then setPhase 10 { s with hawk.skip := false }
  else
    let order := s.hawk.reqs.foldl (fun l r => insertReq s r l) []
    let (kept, s) := grantWalk order true s.hawk.limit [] s
    setPhase 10 { s with hawk.reqs := kept, hawk.movedOut := 0, hawk.movedIn := 0 }

/-- Spill units of the overflow region (R483). -/
def spillTotal (s : State) : Nat := 128 * s.larder.atticGib - 704

/-- Tiles that hold room, with their groups. -/
def liveTiles (s : State) : List (Nat × TileRec) :=
  s.hawk.group.flatMap (fun v => v.2.ops.flatMap (fun o => match o.2 with
    | some o => o.tiles.map (fun t => (v.1, t))
    | none => []))

/-- Tiles whose room has not returned: the live ones and those that failed since the last boundary. -/
def heldTiles (s : State) : List TileRec := (liveTiles s).map (·.2) ++ s.hawk.group.flatMap (fun v => v.2.ending)

/-- Grains and spill units accounted for (R491). -/
def grainSum (s : State) : Nat :=
  s.hawk.grains + s.hawk.group.foldl (fun n v => n + v.2.resFree) 0 + (heldTiles s).foldl (fun n t => n + t.grains) 0
def spillSum (s : State) : Nat :=
  s.hawk.spill + s.hawk.group.foldl (fun n v => n + v.2.resSpill) 0 + (heldTiles s).foldl (fun n t => n + t.spill) 0

/-- Tiles that hold room, with their group and slot, oldest first (R492). -/
def tilesByAge (s : State) : List (Nat × Nat × TileRec) :=
  let all := s.hawk.group.flatMap (fun v => v.2.ops.flatMap (fun o => match o.2 with
    | some c => c.tiles.map (fun t => (v.1, o.1, t))
    | none => []))
  all.insertionSort (fun a b => a.2.2.born ≤ b.2.2.born)

/-- Grains and spill units that the tile's source has: its group's reserve, or the pool. -/
def sourceRoom (s : State) (g : Nat) (reserve : Bool) : Nat × Nat :=
  let res := s.hawk.group.foldl (fun n v => n + v.2.res) 0
  if reserve then ((tblGet {} s.hawk.group g).res, (tblGet {} s.hawk.group g).res) else (3072 - res, spillTotal s - res)

/-- Operations of the younger tiles whose room an older tile holds as well: those that no longer fit their source when the tiles take
their room again in order of age (R492, log 116). -/
def doubleHeld (s : State) : List (Nat × Nat) :=
  let source := fun (x : Nat × Nat × TileRec) => if x.2.2.fromReserve then x.1 + 1 else 0
  let r := (tilesByAge s).foldl (fun (r : Tbl (Nat × Nat) × List (Nat × Nat)) x =>
    let used := tblGet (0, 0) r.1 (source x)
    let now := (used.1 + x.2.2.grains, used.2 + x.2.2.spill)
    let room := sourceRoom s x.1 x.2.2.fromReserve
    if now.1 ≤ room.1 ∧ now.2 ≤ room.2 then (tblSet (0, 0) r.1 (source x) now, r.2) else (r.1, r.2 ++ [(x.1, x.2.1)])) ([], [])
  r.2

/-- Both counts rebuilt from the tile records (R492): the operations of younger tiles of a grain held twice end with DATA_ERROR, and what no
live tile holds is free. -/
def rebuildRoom (s : State) : State :=
  let s := (doubleHeld s).foldl (fun s x => failOp ⟨x.1 % 1024, Nat.mod_lt _ (by decide)⟩ ⟨x.2 % 16, Nat.mod_lt _ (by decide)⟩ stDataError
    (fun _ => false) s) s
  let used := fun (g : Nat) (f : TileRec → Nat) => ((liveTiles s).filter (fun t => t.1 = g && t.2.fromReserve)).foldl (fun n t => n + f t.2) 0
  let pool := fun (f : TileRec → Nat) => ((liveTiles s).filter (fun t => !t.2.fromReserve)).foldl (fun n t => n + f t.2) 0
  let grp := tblMap {} (fun g v => { v with resFree := v.res - used g (·.grains), resSpill := v.res - used g (·.spill), ending := [] }) s.hawk.group
  let res := s.hawk.group.foldl (fun n v => n + v.2.res) 0
  { s with hawk.group := grp, hawk.grains := 3072 - res - pool (·.grains), hawk.spill := spillTotal s - res - pool (·.spill),
           hawk.skip := true }

/-- One check of the room: a sum that is not its reference is counted and reported (R60, R61, R491). -/
def roomCheck (sub sum ref : Nat) (s : State) : State := if sum = ref then s else auditMismatch 2 0 sub ((sum : Int) - ref) 0 s

/-- GRAIN_AUDIT (R491, R492): in ticks numbered 48 mod 64, on the figures of the snapshot of step 2. -/
def execGrainAudit (s : State) : Out :=
  match s.hawk.latched with
  | none => .next s
  | some (g, p) =>
    .next (if !atStep 6 s || !hits s 64 48 || (g = 3072 && p = spillTotal s) then s
    else rebuildRoom (roomCheck 1 p (spillTotal s) (roomCheck 0 g 3072 s)))

end Machine
end Sys2Proof
end

