-- ==== Sys2Proof/Machine/Collectives.lean ====
section
/-!
DEFINITION. The rows of the collectives (chapters 12 and 13): member and peer packets, the additions of the slices, results,
templates and queries. A contribution is accepted at its row, and its cells then cross in the slots of the core (log 17).
-/
namespace Sys2Proof
namespace Machine

/-! ### Packets at an input -/

/-- The waiting entry of a packet for the part's own functions at an input: the oldest that has not been accepted. -/
def waitEntry (s : State) (i : PortId) (p : Packet) : Option InPkt :=
  (inPort s i).queue.find? (fun e => e.kind = .contrib && e.pkt = p && e.adm.isNone)

/-- The oldest packet of a channel that waits for the part's own functions at an input (R242). -/
def frontOf (s : State) (i : PortId) (v : Vc) : Option InPkt :=
  (inPort s i).queue.find? (fun x => x.kind = .contrib && x.pkt.vc = v && x.adm.isNone)

/-- No earlier packet of the channel waits in front of it (R242). -/
def inFront (s : State) (i : PortId) (e : InPkt) : Bool :=
  match frontOf s i e.pkt.vc with
  | some x => x.uid = e.uid
  | none => true

/-- The packet is at the front of its queue, or comes straight from outside and nothing waits in front of it. -/
def mayTakeIn (s : State) (i : PortId) (p : Packet) : Bool :=
  match waitEntry s i p with
  | some e => inFront s i e
  | none => (frontOf s i p.vc).isNone

/-- A packet leaves its input: its units are freed (R221, R488). -/
def leaveInput (i : PortId) (p : Packet) (s : State) : State :=
  match waitEntry s i p with
  | some e =>
    let pairs := tblMod (0, 0) s.counts.pairs i.val (fun c => (c.1, c.2 + e.count))
    freeUnits i e.resPart (e.units - e.freed)
      (modIn i (fun q => { q with queue := q.queue.filter (fun x => x.uid ≠ e.uid) }) { s with counts.pairs := pairs })
  | none => s

/-- The packet stands in its input's queue: one that comes straight from outside enters it. -/
def standIn (i : PortId) (p : Packet) (s : State) : State :=
  if (waitEntry s i p).isSome then s else enqueue i .contrib 0 0 0 false 0 p s

/-- The entry of a packet that waits at an input changed by `f`. -/
def modEntry (i : PortId) (p : Packet) (f : InPkt → InPkt) (s : State) : State :=
  match waitEntry s i p with
  | some e => modIn i (fun q => { q with queue := q.queue.map (fun x => if x.uid = e.uid then f x else x) }) s
  | none => s

/-- The packet waits in its queue and is tried again in every slot (R445). -/
def holdIn (i : PortId) (p : Packet) (s : State) : State := modEntry i p (fun e => { e with seen := true }) (standIn i p s)

/-- The packet carries a data error found on a cut-through port (R245). -/
def entryBad (s : State) (i : PortId) (p : Packet) : Bool :=
  match waitEntry s i p with
  | some e => e.bad
  | none => false

/-! ### Addresses of member packets (R438) -/

def cGroup (p : Packet) : Fin 1024 := ⟨fld p.addr 42 10, Nat.mod_lt _ (by decide)⟩
def cSlot (p : Packet) : Fin 16 := ⟨fld p.addr 38 4, Nat.mod_lt _ (by decide)⟩
def cTmpl (p : Packet) : Nat := fld p.addr 32 6
def cSeq (p : Packet) : BitVec 32 := BitVec.ofNat 32 (fld p.addr 0 32)
def cTile (p : Packet) : Nat := fld p.addr 20 18
def cOff (p : Packet) : Nat := fld p.addr 0 20

/-- Sender of a packet: local member, or rank of a peer module (R458). -/
inductive Sender where
  | member (j : Nat)
  | peer (r : Nat)
  | stranger
  deriving DecidableEq, Repr

/-- Who sent a packet, by the group's entry. -/
def senderOf (e : BitVec 4608) (i : PortId) (p : Packet) : Sender :=
  match gMember e i.val p.src with
  | some j => .member j
  | none => match gPeerRank e p.src with
    | some r => .peer r
    | none => .stranger

/-- Checks 4 and 5 of Table 5-10 on a member packet, with the group's tenant in place of a window (R185, R447); check 4 is not
applied to a peer module's packet (R458). -/
def memberCheck (s : State) (g : Fin 1024) (e : BitVec 4608) (w : Sender) (p : Packet) : Option (BitVec 8) :=
  let named := match w with
    | .peer _ => false
    | _ => true
  if p.tenant ≠ gTenant e then some stDenied
  else if named && p.gen ≠ fnGen s (.group g) then some stStaleGen
  else if !keyReady s p.tenant then some stHalt
  else none

/-- The packet is discarded and counted (R494, Table 3-8). -/
def collDiscard (g : Fin 1024) (i : PortId) (p : Packet) (s : State) : State :=
  bump (groupPage g.val) 6 (max 1 (ceilDiv p.payLen.toNat 256)) (leaveInput i p s)

/-! ### Binding (R442, R457, R461) -/

/-- Templates whose boundary has come take their place (R434). -/
def settleTemplates (g : Fin 1024) (s : State) : State :=
  modGroup g (fun v =>
    { v with tmpl := (v.waiting.filter (fun w => reached s w.2.2)).foldl (fun t w => tblSet none t w.1 (some w.2.1)) v.tmpl,
             waiting := v.waiting.filter (fun w => !reached s w.2.2) }) s

/-- Level of the link toward a peer module: that of the link whose peer it is, else the module's own (R457). -/
def peerLevel (s : State) (n : BitVec 12) : Nat :=
  match allLinks.find? (fun l => (link s l).up && (link s l).peer = n) with
  | some l => (link s l).level.toNat
  | none => s.attic.level.toNat

/-- Group level at a binding (R457). -/
def groupLevel (s : State) (e : BitVec 4608) : Nat :=
  let ms := (upFrom 0 (gLocal e)).map (fun j => (tblGet ({} : Link) s.links (gPort e j)).level.toNat)
  let ps := (gPeers e).map (fun r => peerLevel s (gPeer e r))
  (ms ++ ps).foldl min s.attic.level.toNat

/-- The part raises COLL_START_DISCARDED (R444). -/
def startDiscarded (g : Fin 1024) (p : Packet) (s : State) : State :=
  raiseEv 0x60 g.val ((cSeq p).toNat + cTmpl p <<< 32 + (cSlot p).val <<< 40) (fnGen s (.group g))
    (bump (groupPage g.val) 5 1 s)

/-- An operation as it binds to a template. -/
def newOp (s : State) (g : Fin 1024) (e : BitVec 4608) (p : Packet) (t : Template) : CollOp :=
  { s := cSeq p, tmplIdx := cTmpl p, tmpl := t, entry := e, gen := fnGen s (.group g), level := groupLevel s e,
    bound := s.tick.elapsed, coat := s.route.top.num }

/-- Outcome that an operation meets at its binding, if any (R461, R465). -/
def bindStatus (s : State) (g : Fin 1024) (o : CollOp) : Option (BitVec 8) :=
  if (groupOf s g).held then some stMemberLost
  else if o.level = 3 ∧ o.tmpl.outSpec.coding ≠ 0 then some stDenied
  else if o.tmpl.kind = 5 ∧ (upFrom 0 (gLocal o.entry)).any (fun j => (tblGet ({} : Link) s.links (gPort o.entry j)).gen ≠ 3) then
    some stDenied
  else none

/-- Local member `j` of an entry is lost: its link has failed or its node is lost (R463). -/
def memberGone (s : State) (e : BitVec 4608) (j : Nat) : Bool :=
  (tblGet ({} : Link) s.links (gPort e j)).failed || s.route.lostNodes.contains (gNode e j)

/-- The slot binds the operation that a COLL_START of member `j` names (R442). -/
def bindOp (g : Fin 1024) (e : BitVec 4608) (p : Packet) (j : Nat) (t : Template) (s : State) : State :=
  let q := cSlot p
  let o := { newOp s g e p t with starts := [j] }
  let s := bump (groupPage g.val) 0 1 (setOp g q (some o) (modGroup g (fun v => { v with level := o.level }) s))
  match bindStatus s g o with
  | some st => failOp g q st (memberGone s e) s
  | none => finishOp g q s

/-- An op record for a COLL_START that binds nothing (Table 12-11). -/
def refuseStart (g : Fin 1024) (e : BitVec 4608) (p : Packet) (j : Nat) (st : BitVec 8) (s : State) : State :=
  match tblGet none (groupOf s g).tmpl (cTmpl p) with
  | none => startDiscarded g p s
  | some t =>
    let o := newOp s g e p t
    sendRecord o j (opIndex t e) true st 0 s

/-- A COLL_START from member `j` (R441 to R444, Table 12-11). None while it waits. -/
def collStart (g : Fin 1024) (e : BitVec 4608) (i : PortId) (j : Nat) (p : Packet) (s : State) : Option State :=
  let q := cSlot p
  match fnSt s (.group g) with
  | .starting => none
  | .off => some (refuseStart g e p j stCancelled (leaveInput i p s))
  | .stopping =>
    match opOf s g q with
    | some o => if o.s = cSeq p then some (join o (leaveInput i p s)) else some (refuseStart g e p j stCancelled (leaveInput i p s))
    | none => some (refuseStart g e p j stCancelled (leaveInput i p s))
  | .on =>
    match opOf s g q with
    | some o =>
      if o.s = cSeq p then some (join o (leaveInput i p s))
      else if cSeq p = o.s + 16 then none
      else some (startDiscarded g p (leaveInput i p s))
    | none =>
      if cSeq p ≠ nextSeq s g q then some (startDiscarded g p (leaveInput i p s))
      else if s.attic.draining then some (refuseStart g e p j stDrained (leaveInput i p s))
      else
        let s := settleTemplates g s
        match tblGet none (groupOf s g).tmpl (cTmpl p) with
        | none => some (startDiscarded g p (leaveInput i p s))
        | some t => some (bindOp g e p j t (leaveInput i p s))
where
  /-- The start joins the bound operation; a second one, or one of another template, is counted and reported (R444). -/
  join (o : CollOp) (s : State) : State :=
    let s := if o.starts.contains j || o.tmplIdx ≠ cTmpl p then startDiscarded g p s else s
    finishOp g (cSlot p) (modOp g (cSlot p) (fun o => { o with starts := if o.starts.contains j then o.starts else o.starts ++ [j] }) s)

/-- COLL_START at an input (R441 to R447); in Lockdown its op record is SECURITY_HALT (Table 19-9a). -/
def takeStart (i : PortId) (p : Packet) (s : State) : State :=
  let g := cGroup p
  let e := gEntry s g
  if p.opcode ≠ 0x20 then s
  else if !mayTakeIn s i p then holdIn i p s
  else match senderOf e i p, memberCheck s g e (senderOf e i p) p with
    | .peer _, _ => collDiscard g i p s
    | .member j, some st =>
      if st = stHalt && s.strong.lockdown then refuseStart g e p j stHalt (leaveInput i p s)
      else inject i (failOf (myNode s) st p) (countFail i (leaveInput i p s))
    | .stranger, some st => inject i (failOf (myNode s) st p) (countFail i (leaveInput i p s))
    | .stranger, none => collDiscard g i p s
    | .member j, none => (collStart g e i j p s).getD (holdIn i p s)

/-- Meaning of COLL_START. -/
def execCollStart (port : PortId) (p : Packet) (s : State) : Out := .next (takeStart port p s)

/-- COLL_SLOT_BIND (R442, R443): the COLL_START that waits for a free slot, first in the order of the tie rule, binds. -/
def execCollSlotBind (g : Fin 1024) (slot : Fin 16) (s : State) : Out :=
  let waits := fun (i : PortId) => ((inPort s i).queue.find? (fun e =>
    e.kind = .contrib && e.pkt.opcode = 0x20 && cGroup e.pkt = g && cSlot e.pkt = slot && inFront s i e)).map (fun e => (i, e.pkt))
  .next (if (opOf s g slot).isSome then s
    else match (tieInputs s).findSome? waits with
      | some (i, p) => takeStart i p s
      | none => s)

/-! ### Acceptance of the packets of an operation (R445, R494) -/

/-- What becomes of a COLL_CONTRIB, COLL_ARRIVE or COLL_COUNTS: it is of the bound operation, it waits, it is discarded, or
it draws a FAIL. -/
inductive Accept where
  | yes (o : CollOp)
  | wait
  | discard
  | fail (st : BitVec 8)
  deriving DecidableEq, Repr

/-- R445, R447 and R494 on a packet from `w`: until the slot binds anew, a packet of its last operation is discarded where that one failed. -/
def acceptOp (s : State) (g : Fin 1024) (e : BitVec 4608) (w : Sender) (p : Packet) : Accept :=
  match memberCheck s g e w p with
  | some st => .fail st
  | none =>
    if w = .stranger then .discard
    else match opOf s g (cSlot p) with
      | some o => if o.s.setWidth 16 = p.tag then .yes o else .wait
      | none => match tblGet none (groupOf s g).last (cSlot p).val with
        | some l => if l.s.setWidth 16 = p.tag && l.status ≠ stOk then .discard else .wait
        | none => .wait

/-- Runs `body` on an accepted packet; one that is not yet accepted waits in its queue. -/
def withOp (i : PortId) (p : Packet) (op : BitVec 8) (s : State) (body : Sender → CollOp → State → State) : State :=
  let g := cGroup p
  let e := gEntry s g
  let e := match opOf s g (cSlot p) with
    | some o => o.entry
    | none => e
  let w := senderOf e i p
  if p.opcode ≠ op then s
  else if !mayTakeIn s i p then holdIn i p s
  else match acceptOp s g e w p with
    | .fail st => inject i (failOf (myNode s) st p) (countFail i (leaveInput i p s))
    | .discard => collDiscard g i p s
    | .wait => holdIn i p s
    | .yes o => body w o s

/-! ### Packets between modules (R458 to R460) -/

/-- A packet of this module's share to peer `r`: it enters the core at the Attic port's input (log 17). -/
def toPeer (g : Fin 1024) (q : Fin 16) (o : CollOp) (op : BitVec 8) (low : Nat) (last : Bool) (bs : List Byte)
    (s : State) (r : Nat) : State :=
  let n := gPeer o.entry r
  let base : Packet :=
    { opcode := op, vc := 3, last := last, dst := n, src := myNode s, tenant := gTenant o.entry, tag := o.s.setWidth 16,
      addr := BitVec.ofNat 64 (n.toNat <<< 52 + g.val <<< 42 + q.val <<< 38 + low), itemLen := BitVec.ofNat 32 bs.length }
  inject 126 (withPayload bs base) s

/-- The same packet to every peer module. -/
def toPeers (g : Fin 1024) (q : Fin 16) (o : CollOp) (op : BitVec 8) (low : Nat) (last : Bool) (bs : List Byte)
    (s : State) : State :=
  (gPeers o.entry).foldl (toPeer g q o op low last bs) s

/-! ### COLL_ARRIVE (Table 12-10, R460) -/

/-- A member or peer arrives at a barrier. -/
def takeArrive (i : PortId) (p : Packet) (s : State) : State :=
  withOp i p 0x22 s (fun w o s =>
    let g := cGroup p
    let q := cSlot p
    if o.tmpl.kind ≠ 4 then collDiscard g i p s
    else
      let s := leaveInput i p s
      let o := match w with
        | .member j => { o with arrived := if o.arrived.contains j then o.arrived else o.arrived ++ [j] }
        | .peer r => { o with peers := if o.peers.contains r then o.peers else o.peers ++ [r] }
        | .stranger => o
      let tell := (upFrom 0 (gLocal o.entry)).all o.arrived.contains && !o.told
      let s := setOp g q (some { o with told := o.told || tell }) s
      finishOp g q (if tell then toPeers g q o 0x22 0 true [] s else s))

/-- Meaning of COLL_ARRIVE. -/
def execCollArrive (port : PortId) (p : Packet) (s : State) : Out := .next (takeArrive port p s)

/-! ### COLL_COUNTS (R454 to R456) -/

/-- Count of bytes from sender `i` to member `k`. -/
def a2aCount (o : CollOp) (i k : Nat) : Nat := (tblGet [] o.counts i).getD k 0

/-- off[i][k] (R455). -/
def a2aOff (o : CollOp) (i k : Nat) : Nat := (upFrom 0 i).foldl (fun n x => n + a2aCount o x k) 0

/-- The counts keep R454 and the result buffers hold them (R456). -/
def countsOk (o : CollOp) : Bool :=
  let m := gLocal o.entry
  (upFrom 0 m).all (fun i => (upFrom 0 m).all (fun k => a2aCount o i k % 256 = 0 && decide (a2aCount o i k ≤ 0x7FFFFF00)))
    && (upFrom 0 m).all (fun k => match o.tmpl.members[k]? with
        | some b => decide (a2aOff o m k ≤ b.dstLen)
        | none => false)

/-- The COLL_LAYOUT of member `k` (R455): one packet, also where its bytes cross a 4,096-byte boundary, which R166 forbids a data packet
(DESIGN CHOICE, log 117). -/
def sendLayout (o : CollOp) (s : State) (k : Nat) : State :=
  let m := gLocal o.entry
  let body := (upFrom 0 m).flatMap (fun i => leBytes 8 (a2aOff o i k) ++ leBytes 8 (a2aCount o i k))
  match o.tmpl.members[k]? with
  | none => s
  | some b =>
    let base : Packet :=
      { opcode := 0x29, vc := 4, last := true, ordered := true, dst := gNode o.entry k, src := myNode s,
        tenant := gTenant o.entry, tag := o.s.setWidth 16, addr := b.status + BitVec.ofNat 64 (16 * (m + 1)),
        itemLen := BitVec.ofNat 32 (16 * m) }
    sendTo 126 (portOf (gPort o.entry k)) (withPayload body base) s

/-- Every count is in: layouts go out, and the records of empty blocks (R455, R456). -/
def layOut (g : Fin 1024) (q : Fin 16) (o : CollOp) (s : State) : State :=
  let m := gLocal o.entry
  let s := (upFrom 0 m).foldl (sendLayout o) (setOp g q (some { o with layouts := true }) s)
  let s := (upFrom 0 m).foldl (fun s k => (upFrom 0 m).foldl (fun s i =>
    if a2aCount o i k = 0 then writeRecord g q k i s else s) s) s
  finishOp g q s

/-- The counts of a COLL_COUNTS for `m` members; one that holds another number of them breaks R454, and stands as counts that do. -/
def countsOf (m : Nat) (p : Packet) : List Nat :=
  if p.payLen.toNat = 4 * m then (upFrom 0 m).map (fun k => leAt p.payload (4 * k) 4) else [1]

/-- A member's COLL_COUNTS. -/
def takeCounts (i : PortId) (p : Packet) (s : State) : State :=
  withOp i p 0x23 s (fun w o s =>
    let g := cGroup p
    let q := cSlot p
    match w with
    | .member j =>
      if o.tmpl.kind ≠ 5 || !(tblGet [] o.counts j).isEmpty then collDiscard g i p s
      else
        let o := { o with counts := tblSet [] o.counts j (countsOf (gLocal o.entry) p) }
        let s := setOp g q (some o) (leaveInput i p s)
        if !(upFrom 0 (gLocal o.entry)).all (fun j => !(tblGet [] o.counts j).isEmpty) then s
        else if countsOk o then layOut g q o s
        else failOp g q stDenied (fun _ => false) s
    | _ => collDiscard g i p s)

/-- Meaning of COLL_COUNTS. -/
def execCollCounts (port : PortId) (p : Packet) (s : State) : Out := .next (takeCounts port p s)

/-! ### Blocks of an all-to-all (R456, R486) -/

/-- The bytes for an address cut where they cross a 4,096-byte boundary, with the offset of each piece (R166). -/
def blocks4k (a : Nat) (bs : List Byte) : List (Nat × List Byte) :=
  let n := 4096 - a % 4096
  if bs.length ≤ n then [(0, bs)] else [(0, bs.take n), (n, bs.drop n)]

/-- A COLL_RESULT to local member `j`: bytes `bs` for address `a` (R448, R456). -/
def resultPkt (s : State) (o : CollOp) (j : Nat) (a : Word) (len : Nat) (last : Bool) (bs : List Byte) : Packet :=
  sealPkt (stamp s (withPayload bs
    { opcode := 0x28, vc := 4, last := last, ordered := true, dst := gNode o.entry j, src := myNode s, tenant := gTenant o.entry,
      tag := o.s.setWidth 16, addr := a, itemLen := BitVec.ofNat 32 len }))

/-- The COLL_RESULTs that carry `bs` to address `a` of member `j`, of which none crosses a 4,096-byte block (R166). -/
def resultPkts (s : State) (o : CollOp) (j : Nat) (a : Word) (len : Nat) (last : Bool) (bs : List Byte) : List Packet :=
  (blocks4k a.toNat bs).map (fun x => resultPkt s o j (a + BitVec.ofNat 64 x.1) len (last && decide (x.1 + x.2.length = bs.length)) x.2)

/-- A block's bytes pass to the output of the receiving member as unicast cells; bytes beyond the count are discarded. Its units stay with
the last packet that carries it. -/
def takeBlock (i : PortId) (j : Nat) (p : Packet) (o : CollOp) (s : State) : State :=
  let g := cGroup p
  let k := fld p.addr 31 7
  let off := fld p.addr 0 31
  let n := a2aCount o j k
  match o.tmpl.members[k]? with
  | none => collDiscard g i p s
  | some b =>
    if n ≤ off then collDiscard g i p s
    else if entryBad s i p then failOp g (cSlot p) stDataError (fun _ => false) (leaveInput i p s)
    else
      let bs := p.payload.take (n - off)
      let s := if bs.length < p.payload.length then bump (groupPage g.val) 6 (ceilDiv (p.payload.length - bs.length) 256) s else s
      let (units, part) := match waitEntry s i p with
        | some x => (x.units, x.resPart)
        | none => (0, 0)
      let s := match waitEntry s i p with
        | some x =>
          let pairs := tblMod (0, 0) s.counts.pairs i.val (fun c => (c.1, c.2 + x.count))
          modIn i (fun q => { q with queue := q.queue.filter (fun y => y.uid ≠ x.uid), free := q.free + units }) { s with counts.pairs := pairs }
        | none => s
      let ps := resultPkts s o k (b.dst + BitVec.ofNat 64 (a2aOff o j k + off)) n (off + bs.length = n) bs
      (ps.zipIdx).foldl (fun s x => enqueue i .unicast (portOf (gPort o.entry k)) (if x.2 + 1 = ps.length then units else 0) part false 0 x.1 s
        (.coll g (cSlot p) o.s j)) s

/-! ### Additions in the slices (R467 to R481) -/

/-- Local members that contribute to a tile in the first stage, and whether a rank of another module owns it. -/
def tileOwners (t : Template) (e : BitVec 4608) (tile : Nat) : List Nat :=
  match t.kind with
  | 0 => upFrom 0 (gLocal e)
  | 1 => upFrom 0 (gLocal e)
  | 2 => (upFrom 0 (gLocal e)).filter (fun j => gIndex e j = tile / (t.length / t.tileSize))
  | 3 => (upFrom 0 (gLocal e)).filter (fun j => gIndex e j = t.root)
  | _ => []

/-- Rank of the module whose member owns a gathered tile. -/
def ownerRank (t : Template) (e : BitVec 4608) (tile : Nat) : Nat :=
  let x := if t.kind = 2 then tile / (t.length / t.tileSize) else t.root
  ((upFrom 0 (gMods e)).find? (fun r => decide (x < (upFrom 0 (r + 1)).foldl (fun n k => n + gPeerCount e k) 0))).getD 0

/-- The sender may contribute to the tile (Table 12-7, R458). -/
def mayContribute (o : CollOp) (w : Sender) (tile : Nat) : Bool :=
  match w with
  | .member j => (tileOwners o.tmpl o.entry tile).contains j
  | .peer r => if o.tmpl.kind = 0 then true
      else (o.tmpl.kind = 2 || o.tmpl.kind = 3) && ownerRank o.tmpl o.entry tile = r
  | .stranger => false

/-- Bytes of a sender's share of a tile: a member's plain bytes, or a module's partial (R459). -/
def shareBytes (o : CollOp) (w : Sender) (tile : Nat) : Nat :=
  match w with
  | .peer _ => tileBytes o.tmpl tile * (if o.tmpl.kind = 0 then o.tmpl.w else 1)
  | _ => tileBytes o.tmpl tile

/-- A tile of an operation changed by `f`. -/
def modTile (g : Fin 1024) (q : Fin 16) (tile : Nat) (f : TileRec → TileRec) (s : State) : State :=
  modOp g q (fun o => { o with tiles := o.tiles.map (fun t => if t.tile = tile then f t else t) }) s

/-- Tile record of an operation. -/
def tileOf (s : State) (g : Fin 1024) (q : Fin 16) (tile : Nat) : Option TileRec :=
  match opOf s g q with
  | some o => o.tiles.find? (fun t => t.tile = tile)
  | none => none

/-- Result cells of a tile. -/
def resultCells (t : Template) (tile : Nat) : Nat := ceilDiv (tileBytes t tile) 256

/-- A finished result cell enters its slice for every receiving output (R448, R470). The model holds its bytes as the
output delivers them: a Skim coding is applied and removed (Table 10-7). Bytes for which the contributions hold no whole element, or no
whole unit of the coding, have no value in the spec and are free (log 2). -/
def emitResult (g : Fin 1024) (q : Fin 16) (tile k : Nat) (acc : List (BitVec 64)) (s : State) : State :=
  match opOf s g q with
  | none => s
  | some o =>
    let out := o.tmpl.outSpec
    let (plain, clamps) := finishAcc o.tmpl.arith out acc
    let n := if out.fmt = 5 then 0 else plain.length / (fmtWidth out.fmt / 8)
    let bs := if out.coding = 0 then plain
      else (decodeSkim out.fmt out.coding n (encodeSkim out.fmt out.coding n plain)).getD []
    let (pad, s) := freeBytes (min 256 (tileBytes o.tmpl tile - 256 * k) - bs.length) s
    let bs := bs ++ pad
    let outs := (upFrom 0 (gLocal o.entry)).filterMap (fun j =>
      if receives o.tmpl o.entry j tile then some (portOf (gPort o.entry j)) else none)
    let hand := ((tileOf s g q tile).map (·.handle)).getD 0
    let c : Cell := { uid := s.core.uid, pkt := {}, idx := k, room := BitVec.ofNat 12 hand, tileCell := BitVec.ofNat 12 k, count := 1, src := cellSlice g q tile k, kind := .result,
                      ingress := s.tick.elapsed.setWidth 16, data := bs, ref := .coll g q o.s tile }
    let m := cellSlice g q tile k
    let v := midSlice s m
    let s := setSlice { s with core.uid := s.core.uid + 1 } m
      (if outs.isEmpty then v else { v with cells := v.cells ++ [{ cell := c, outs := outs, enter := s.tick.ns }] })
    let s := bump hawkPage 12 clamps s
    modTile g q tile (fun t => { t with sent := t.sent + 1 }) s

/-- The member or rank that ordered additions take next, and how many contribute at a position. -/
def contributors (o : CollOp) (stage2 : Bool) (tile : Nat) : Nat :=
  if stage2 then gMods o.entry else (tileOwners o.tmpl o.entry tile).length

/-- Stage of a cell: the second stage adds partials of an all-reduce over several modules. -/
def posOf (t : TileRec) (stage2 : Bool) (c : Nat) : Pos := tblGet {} (if stage2 then t.pos2 else t.pos1) c
def setPos (stage2 : Bool) (c : Nat) (p : Pos) (t : TileRec) : TileRec :=
  if stage2 then { t with pos2 := tblSet {} t.pos2 c p } else { t with pos1 := tblSet {} t.pos1 c p }

/-- Slice in which a cell is added (R467): partial cell `c` goes where its result cell goes. -/
def addSlice (o : CollOp) (g : Fin 1024) (q : Fin 16) (stage2 : Bool) (tile c : Nat) : PortId :=
  cellSlice g q tile (if stage2 then c / o.tmpl.w else c)

/-- A cell's elements as accumulator elements. -/
def cellAcc (o : CollOp) (stage2 : Bool) (bs : List Byte) : List (BitVec 64) :=
  if stage2 then partialAcc o.tmpl.arith o.tmpl.inSpec.fmt bs else firstAcc o.tmpl.arith o.tmpl.inSpec.fmt bs

/-- Counter word of an addition (Table 23-4, kind 3). -/
def addWord (a : Arith) : Option Nat :=
  match a with
  | .exact => some 0
  | .ordered => some 1
  | .copy => none
  | _ => some 2

/-- Adds a cell at a position (R470, R473, R476, R481). -/
def addCell (o : CollOp) (g : Fin 1024) (q : Fin 16) (stage2 : Bool) (tile c : Nat) (bs : List Byte) (s : State) : State :=
  let m := addSlice o g q stage2 tile c
  let s := match addWord o.tmpl.arith with
    | some w => bump hawkPage w 1 s
    | none => s
  let s := { s with hawk.addedAt := tblSet 0 s.hawk.addedAt m.val (s.tick.ns + 1) }
  modTile g q tile (fun t =>
    let p := posOf t stage2 c
    setPos stage2 c { p with acc := combineAcc o.tmpl.arith o.tmpl.inSpec.fmt o.tmpl.outSpec.rnd p.acc (cellAcc o stage2 bs),
                             next := p.next + 1 } t) s

/-- The position has everything and nothing waits in it (R469). -/
def posFull (o : CollOp) (stage2 : Bool) (tile : Nat) (p : Pos) : Bool :=
  !p.done && p.next = contributors o stage2 tile

/-- Partial cells of result cell `k` of a tile. -/
def partialCells (o : CollOp) (tile k : Nat) : List Nat :=
  (upFrom (k * o.tmpl.w) o.tmpl.w).filter (fun c => decide (256 * c < tileBytes o.tmpl tile * o.tmpl.w))

/-- A position that is complete is finished: into a result cell, or into partials for the second stage (R459, R470,
R474). `fuel` bounds the chain from the first stage into the second. -/
def finishPos (g : Fin 1024) (q : Fin 16) (tile : Nat) : Nat → Bool → Nat → State → State
  | 0, _, _, s => s
  | fuel + 1, stage2, c, s =>
    match opOf s g q, tileOf s g q tile with
    | some o, some t =>
      let p := posOf t stage2 c
      if !posFull o stage2 tile p then s
      else
        let s := modTile g q tile (setPos stage2 c { p with done := true }) s
        let several := decide (1 < gMods o.entry)
        if stage2 then
          let k := c / o.tmpl.w
          match tileOf s g q tile with
          | none => s
          | some t =>
            if (partialCells o tile k).all (fun x => (posOf t true x).done) then
              emitResult g q tile k ((partialCells o tile k).flatMap (fun x => (posOf t true x).acc)) s
            else s
        else if several && o.tmpl.kind = 0 then
          let bs := partialBytes o.tmpl.arith o.tmpl.inSpec.fmt p.acc
          let at_ := 256 * c * o.tmpl.w
          let total := tileBytes o.tmpl tile * o.tmpl.w
          let s := toPeers g q o 0x21 (tile <<< 20 + at_) (decide (total ≤ at_ + bs.length)) bs s
          (upFrom 0 (ceilDiv bs.length 256)).foldl (fun s x =>
            ownPartial fuel o (c * o.tmpl.w + x) ((bs.drop (256 * x)).take 256) s) s
        else emitResult g q tile c p.acc s
    | _, _ => s
where
  /-- The module's own partial cell enters the second stage at its rank, added at once if its turn has come. -/
  ownPartial (fuel : Nat) (o : CollOp) (c : Nat) (bs : List Byte) (s : State) : State :=
    match tileOf s g q tile with
    | none => s
    | some t =>
      let p := posOf t true c
      let r := gRank o.entry
      let p' := { p with map := p.map ||| (1#128 <<< r) }
      let s := modTile g q tile (setPos true c p') s
      if o.tmpl.arith ≠ .ordered || p.next = r then finishPos g q tile fuel true c (addCell o g q true tile c bs s)
      else modTile g q tile (setPos true c { p' with hold := p'.hold ++ [(r, bs)] }) s

/-- Smallest index of a list of cells. -/
def lowestCell : List (Nat × List Byte) → Option (Nat × List Byte)
  | [] => none
  | x :: t => match lowestCell t with
    | some y => if y.1 < x.1 then some y else some x
    | none => some x

/-- Keeps a cell whose turn has not come: in hold room, or spilled when eight cells are held (R478, R479). -/
def keepCell (g : Fin 1024) (q : Fin 16) (stage2 : Bool) (tile c idx : Nat) (bs : List Byte) (s : State) : State :=
  match tileOf s g q tile with
  | none => s
  | some t =>
    let p := posOf t stage2 c
    if p.hold.length < 8 then
      bump hawkPage 3 1 (modTile g q tile (setPos stage2 c { p with hold := p.hold ++ [(idx, bs)] }) s)
    else
      bump hawkPage 4 1 (modTile g q tile (setPos stage2 c { p with spill := p.spill ++ [(idx, bs)] })
        { s with hawk.movedOut := s.hawk.movedOut + 1 })

/-- A contribution cell reaches its slice (R469 to R481). -/
def slicesCell (g : Fin 1024) (q : Fin 16) (stage2 : Bool) (tile c idx : Nat) (bs : List Byte) (s : State) : State :=
  match opOf s g q, tileOf s g q tile with
  | some o, some t =>
    let p := posOf t stage2 c
    if bit p.map idx || p.done then
      raiseEv 0x61 g.val (c + idx <<< 12 + t.handle <<< 20) o.gen (bump hawkPage 10 1 s)
    else
      let s := if !stage2 && decide (o.tmpl.kind < 2) then bump hawkPage 11 (nanCount o.tmpl.inSpec.fmt bs) s else s
      let s := modTile g q tile (setPos stage2 c { p with map := p.map ||| (1#128 <<< idx) }) s
      if o.tmpl.arith ≠ .ordered || p.next = idx then finishPos g q tile 2 stage2 c (addCell o g q stage2 tile c bs s)
      else keepCell g q stage2 tile c idx bs s
  | _, _ => s

/-! ### COLL_CONTRIB (R440, R452 to R460, R485 to R488) -/

/-- Offset and length of a contribution keep R440 and its tile or block. -/
def contribOk (o : CollOp) (w : Sender) (p : Packet) : Bool :=
  let n := shareBytes o w (cTile p)
  decide (cTile p < tileCount o.tmpl o.entry) && mayContribute o w (cTile p) && cOff p % 256 = 0
    && decide (cOff p + p.payLen.toNat ≤ n) && (p.payLen.toNat % 256 = 0 || cOff p + p.payLen.toNat = n)

/-- Index at which a sender's cells of a tile count: a member's, or a peer's rank (R458, R469). -/
def contribIdx (o : CollOp) (w : Sender) : Nat :=
  match w with
  | .member j => if o.tmpl.kind < 2 then j else 0
  | .peer r => if o.tmpl.kind = 0 then r else 0
  | .stranger => 0

/-- What a contribution of the bound operation belongs to (R438, R459). -/
def contribOf (o : CollOp) (w : Sender) (p : Packet) : Contrib :=
  let stage2 := match w with
    | .peer _ => decide (o.tmpl.kind = 0)
    | _ => false
  { g := cGroup p, q := cSlot p, s := o.s, stage2 := stage2, tile := cTile p, idx := contribIdx o w, c0 := cOff p / 256,
    w := if stage2 then o.tmpl.w else 1 }

/-- A contribution of kinds 0 to 3 is accepted: it asks for its tile's room when it is the first of it, a gathered one goes to every peer
module, and its cells cross to their slices as these meet the input (R246, R458, R485). -/
def takeTile (i : PortId) (w : Sender) (p : Packet) (o : CollOp) (s : State) : State :=
  let g := cGroup p
  let q := cSlot p
  let tile := cTile p
  let bad := entryBad s i p
  if !contribOk o w p then collDiscard g i p s
  else
    let s := if o.doneTiles.contains tile || (tileOf s g q tile).isSome then s else askRoom g q o tile s
    let s := modEntry i p (fun e => { e with adm := some (contribOf o w p) }) (standIn i p s)
    match w with
    | .member _ => if 2 ≤ o.tmpl.kind && !bad then
        toPeers g q o 0x21 (tile <<< 20 + cOff p) (decide (tileBytes o.tmpl tile ≤ cOff p + p.payLen.toNat)) p.payload s else s
    | _ => s

/-- COLL_CONTRIB at an input. -/
def takeContrib (i : PortId) (p : Packet) (s : State) : State :=
  withOp i p 0x21 s (fun w o s =>
    match o.tmpl.kind, w with
    | 4, _ => collDiscard (cGroup p) i p s
    | 5, .member j => if o.layouts then takeBlock i j p o s else holdIn i p s
    | 5, _ => collDiscard (cGroup p) i p s
    | _, _ => takeTile i w p o s)

/-- Meaning of COLL_CONTRIB. -/
def execCollContrib (port : PortId) (p : Packet) (s : State) : Out := .next (takeContrib port p s)

/-- A packet of an operation that waits at an input is tried again; a COLL_START only where its slot holds an operation, for the row
COLL_SLOT_BIND takes it else. -/
def takeColl (i : PortId) (p : Packet) (s : State) : State :=
  if p.opcode = 0x20 then (if (opOf s (cGroup p) (cSlot p)).isSome then takeStart i p s else s) else if p.opcode = 0x21 then takeContrib i p s else if p.opcode = 0x22 then takeArrive i p s else if p.opcode = 0x23 then takeCounts i p s else s

/-- Every packet at the front of its channel that waits for its operation is tried again, in the order of the tie rule (R73, R443,
R445). -/
def collRetry (s : State) : State :=
  (tieInputs s).foldl (fun s i =>
    ((inPort s i).queue.filter (fun e => e.kind = .contrib && e.seen && e.adm.isNone && inFront s i e)).foldl (fun s e => takeColl i e.pkt s) s) s

/-! ### The Hawk in each slot (R453, R469, R470, R478, R479, R489, R493) -/

/-- The slice's adder has served a cell in this slot (R470). -/
def addedNow (s : State) (m : PortId) : Bool := tblGet 0 s.hawk.addedAt m.val = s.tick.ns + 1

/-- A contribution cell with bad = 1, or a Hawk cell read with an uncorrectable error, ends its operation (R453, R493). -/
def hawkBad (g : Fin 1024) (q : Fin 16) (s : State) : State := failOp g q stDataError (fun _ => false) (bump hawkPage 13 1 s)

/-- The same, found by a slice's own read: it raises event 0x16 for row 7 of Table 22-7 (R493, R752). -/
def hawkReadBad (g : Fin 1024) (q : Fin 16) (s : State) : State := raiseEv 0x16 7 (stDataError.toNat <<< 64) 0 (hawkBad g q s)

/-- A contribution cell at its slice, or none while it waits there: for the adder, or for the Hawk to move a cell out. `errs` are the slices
whose reads in this slot are uncorrectable. -/
def hawkCell (errs : List PortId) (c : Cell) (s : State) : Option State :=
  match c.adm with
  | none => some s
  | some a =>
    let at_ := a.c0 + c.idx
    let gone := bump (groupPage a.g.val) 6 1 s
    match opOf s a.g a.q with
    | none => some gone
    | some o =>
      if o.s ≠ a.s then some gone
      else if c.bad then some (hawkBad a.g a.q s)
      else match tileOf s a.g a.q a.tile with
        | none =>
          if o.doneTiles.contains a.tile then
            some (raiseEv 0x61 a.g.val (at_ + a.idx <<< 12 + c.room.toNat <<< 20) o.gen (bump hawkPage 10 1 s))
          else some gone
        | some t =>
          let p := posOf t a.stage2 at_
          let m := addSlice o a.g a.q a.stage2 a.tile at_
          let twice := bit p.map a.idx || p.done
          let adds := !twice && (o.tmpl.arith ≠ .ordered || p.next = a.idx)
          if adds && addedNow s m then none
          else if adds && decide (0 < p.next) && errs.contains m then some (hawkReadBad a.g a.q s)
          else if !twice && !adds && decide (8 ≤ p.hold.length) && decide (1024 ≤ s.hawk.movedOut) then none
          else some (slicesCell a.g a.q a.stage2 a.tile at_ a.idx c.data (bump (groupPage a.g.val) 2 c.data.length s))

/-- Takes the contribution cells that have reached slice `m`, oldest first. -/
def landSlice (errs : List PortId) (s : State) (m : PortId) : State :=
  let l := (midSlice s m).contrib
  if l.isEmpty then s
  else l.foldl (fun s c => match hawkCell errs c s with
    | some t => t
    | none => setSlice s m { midSlice s m with contrib := (midSlice s m).contrib ++ [c] }) (setSlice s m { midSlice s m with contrib := [] })

/-- Takes the contribution cells that have reached the slices. -/
def hawkLand (errs : List PortId) (s : State) : State := allPorts.foldl (landSlice errs) s

/-- A cell that waits at a position and whose turn has come: group, slot, stage, tile, cell, index. -/
structure HeldTurn where
  g : Fin 1024
  q : Fin 16
  stage2 : Bool
  tile : Nat
  c : Nat
  idx : Nat
  deriving DecidableEq, Repr

/-- Held or spilled cells of a table of positions whose turn has come. -/
def turnsIn (g : Fin 1024) (q : Fin 16) (stage2 : Bool) (tile : Nat) (t : Tbl Pos) : List HeldTurn :=
  t.filterMap (fun e => if (e.2.hold ++ e.2.spill).any (fun x => x.1 = e.2.next) then some ⟨g, q, stage2, tile, e.1, e.2.next⟩ else none)

/-- Every tile that holds room, with its group and slot. -/
def roomTiles (s : State) : List (Fin 1024 × Fin 16 × TileRec) :=
  (List.finRange 1024).flatMap (fun g =>
    let v := groupOf s g
    if v.ops.isEmpty then [] else (List.finRange 16).flatMap (fun q => match tblGet none v.ops q.val with
      | some o => o.tiles.map (fun t => (g, q, t))
      | none => []))

/-- Every cell whose turn has come. -/
def allTurns (s : State) : List HeldTurn :=
  (roomTiles s).flatMap (fun x => turnsIn x.1 x.2.1 false x.2.2.tile x.2.2.pos1 ++ turnsIn x.1 x.2.1 true x.2.2.tile x.2.2.pos2)

/-- Inserts a turn by index. -/
def insertTurn (x : HeldTurn) : List HeldTurn → List HeldTurn
  | [] => [x]
  | y :: t => if x.idx < y.idx then x :: y :: t else y :: insertTurn x t

/-- Serves one cell whose turn has come, unless its slice has added a cell in this slot; a spilled one comes back for it. -/
def serveTurn (errs : List PortId) (s : State) (x : HeldTurn) : State :=
  match opOf s x.g x.q, tileOf s x.g x.q x.tile with
  | some o, some t =>
    let m := addSlice o x.g x.q x.stage2 x.tile x.c
    let p := posOf t x.stage2 x.c
    if addedNow s m || p.next ≠ x.idx then s
    else if errs.contains m then hawkReadBad x.g x.q s
    else
      let serve := fun (h : List Byte) (p : Pos) (s : State) =>
        finishPos x.g x.q x.tile 2 x.stage2 x.c (addCell o x.g x.q x.stage2 x.tile x.c h (modTile x.g x.q x.tile (setPos x.stage2 x.c p) s))
      match p.hold.find? (fun h => h.1 = x.idx), p.spill.find? (fun h => h.1 = x.idx) with
      | some h, _ => serve h.2 { p with hold := p.hold.filter (fun y => y.1 ≠ x.idx) } s
      | none, some h =>
        if 1024 ≤ s.hawk.movedIn then s
        else serve h.2 { p with spill := p.spill.filter (fun y => y.1 ≠ x.idx) }
          (bump hawkPage 5 1 { s with hawk.movedIn := s.hawk.movedIn + 1 })
      | none, none => s
  | _, _ => s

/-- A slot with no addition serves the lowest-indexed held cell whose turn has come (R470). -/
def hawkServe (errs : List PortId) (s : State) : State := ((allTurns s).foldl (fun l x => insertTurn x l) []).foldl (serveTurn errs) s

/-- The lowest spilled cell of a position comes back into hold room that has become free (R478, R479). -/
def returnAt (g : Fin 1024) (q : Fin 16) (tile : Nat) (stage2 : Bool) (s : State) (x : Nat × Pos) : State :=
  match lowestCell x.2.spill with
  | some b =>
    if 8 ≤ x.2.hold.length || 1024 ≤ s.hawk.movedIn then s
    else bump hawkPage 5 1 (modTile g q tile (setPos stage2 x.1
      { x.2 with hold := x.2.hold ++ [b], spill := x.2.spill.filter (fun y => y.1 ≠ b.1) }) { s with hawk.movedIn := s.hawk.movedIn + 1 })
  | none => s

/-- Spilled cells come back into hold room as it frees (R478). -/
def hawkReturn (s : State) : State :=
  (roomTiles s).foldl (fun s x =>
    x.2.2.pos2.foldl (returnAt x.1 x.2.1 x.2.2.tile true) (x.2.2.pos1.foldl (returnAt x.1 x.2.1 x.2.2.tile false) s)) s

/-- The slices hold a result cell of the tile. -/
def resultsHeld (s : State) (g : Fin 1024) (q : Fin 16) (sq : BitVec 32) (tile : Nat) : Bool :=
  s.core.slice.any (fun v => v.2.cells.any (fun x => x.cell.ref = .coll g q sq tile))

/-- The tile is over: its room returns, and it is counted (R489). -/
def releaseTile (g : Fin 1024) (q : Fin 16) (tile : Nat) (s : State) : State :=
  match tileOf s g q tile with
  | none => s
  | some t =>
    bump (groupPage g.val) 1 1 (returnRoom g t (modOp g q (fun o =>
      { o with tiles := o.tiles.filter (fun x => x.tile ≠ tile), doneTiles := o.doneTiles ++ [tile] }) s))

/-- Room of the tiles whose last result replica has left its slice returns (R489). -/
def hawkRelease (s : State) : State :=
  (List.finRange 1024).foldl (fun s g =>
    let v := groupOf s g
    if v.ops.isEmpty then s
    else (List.finRange 16).foldl (fun s q => match tblGet none v.ops q.val with
      | some o => (o.tiles.filter (fun t => t.sent = resultCells o.tmpl t.tile && !resultsHeld s g q o.s t.tile)).foldl
          (fun s t => releaseTile g q t.tile s) s
      | none => s) s) s

/-- COLL_RESULTs that output `out` builds from a result cell (R166, R448); none when its operation is over. -/
def collResultAt (s : State) (out : PortId) (c : Cell) : List Packet :=
  match c.ref with
  | .coll g q sq tile =>
    match opOf s g q with
    | some o =>
      if o.s ≠ sq then []
      else match (upFrom 0 (gLocal o.entry)).find? (fun j => gPort o.entry j = out.val) with
        | none => []
        | some j => match o.tmpl.members[j]? with
          | none => []
          | some b =>
            let n := tileBytes o.tmpl tile
            resultPkts s o j (b.dst + BitVec.ofNat 64 (tilePos o.tmpl o.entry j tile + 256 * c.idx)) n
              (n ≤ 256 * c.idx + c.data.length) c.data
    | none => []
  | _ => []

/-- A result cell that a slice could not read ends its operation (R253, Table 22-7, log 83). -/
def resultBad (c : Cell) (s : State) : State :=
  match c.ref with
  | .coll g q sq _ => match opOf s g q with
    | some o => if o.s = sq then failOp g q stDataError (fun _ => false) s else s
    | none => s
  | _ => s

/-! ### Ends and losses (R446, R463 to R465) -/

/-- COLL_OP_LIMIT_EXPIRED (R446). -/
def execCollOpLimitExpired (g : Fin 1024) (slot : Fin 16) (s : State) : Out :=
  .next (match opOf s g slot with
    | some o => if o.tmpl.opLimit ≤ ageOf s o.bound then failOp g slot stTimeout (fun _ => false) s else s
    | none => s)

/-- A group with a lost member or peer: its bound operations end and it is held (R464, R465). -/
def collLossGroup (g : Fin 1024) (s : State) : State :=
  let e := gEntry s g
  if fnSt s (.group g) = .off || !gValid e then s
  else if !(upFrom 0 (gLocal e)).any (memberGone s e) && !(gPeers e).any (fun r => s.route.lostNodes.contains (gPeer e r)) then s
  else
    let s := (List.finRange 16).foldl (fun s q => match opOf s g q with
      | some o => failOp g q stMemberLost (memberGone s o.entry) s
      | none => s) s
    modGroup g (fun v => { v with held := true }) s

/-- Every group that a loss touches (R463). -/
def collLosses (s : State) : State := (List.finRange 1024).foldl (fun s g => collLossGroup g s) s

/-- Every bound operation of the groups that `f` picks ends with a status. -/
def collFailAll (f : Fin 1024 → Bool) (st : BitVec 8) (s : State) : State :=
  (List.finRange 1024).foldl (fun s g => if f g && !(groupOf s g).ops.isEmpty then
    (List.finRange 16).foldl (fun s q => failOp g q st (fun _ => false) s) s else s) s

/-! ### Group descriptors (R427, R428, R434, R435, Table 12-4) -/

/-- Group that a collectives descriptor names; none when another bit of target_id is set (R427). -/
def groupTarget (f : InFlight) : Option (Fin 1024) :=
  let t := dTarget f.desc
  if fld t 10 6 ≠ 0 then none else some ⟨fld t 0 10, Nat.mod_lt _ (by decide)⟩

/-- Runs a group descriptor: its group, its tenant (R428) and, where `gen` asks, its generation. -/
def withGroup (d : DRef) (f : InFlight) (gen : Bool) (s : State) (body : Fin 1024 → State → State) : State :=
  match groupTarget f with
  | none => complete d stBad 0 s
  | some g =>
    let s := modFlight d (fun x => { x with gen := fnGen s (.group g) }) s
    if gen && !genOk s f (.group g) then complete d stStaleGen 0 s
    else if gTenant (gEntry s g) ≠ dTenant s f then complete d stDenied 0 s
    else body g s

/-- Template that a TEMPLATE_SET body spells (Table 12-5), without its members. -/
def tmplOf (d : BitVec 512) : Template :=
  { kind := fld d 200 3, op := fld d 204 2, inFmt := d.extractLsb' 208 16, outFmt := d.extractLsb' 224 16,
    tileLog2 := fld d 240 5, root := fld d 256 12, opLimit := fld d 288 32, length := fld d 320 48, members := [] }

/-- out_fmt keeps the format of in_fmt and a coding that its kind allows (R435, Tables 10-7 and 10-8). -/
def tmplFmtOk (t : Template) : Bool :=
  t.inSpec.ok && t.outSpec.ok && t.inSpec.coding = 0 && t.outSpec.fmt = t.inSpec.fmt
    && (match t.kind with
        | 0 => t.inSpec.fmt ≠ 5 && t.outSpec.coding ≠ 1
        | 1 => t.inSpec.fmt ≠ 5 && t.outSpec.coding ≠ 1
        | 2 => true
        | 3 => true
        | _ => t.outSpec.coding = 0)

/-- length keeps Table 12-7. -/
def tmplLenOk (t : Template) (e : BitVec 4608) : Bool :=
  match t.kind with
  | 1 => decide (0 < gLocal e) && t.length % (gLocal e * t.tileSize) = 0
  | 2 => t.length % t.tileSize = 0
  | 4 => t.length = 0
  | 5 => t.length = 0
  | _ => true

/-- Checks of R435 that need no member table. -/
def tmplOk (s : State) (g : Fin 1024) (t : Template) : Bool :=
  let e := gEntry s g
  let several := decide (1 < gMods e)
  (fnSt s (.group g) = .starting || fnSt s (.group g) = .on) && decide (t.kind < 6)
    && (if 2 ≤ t.kind then t.op = 0 else decide (t.op < 3)) && decide (12 ≤ t.tileLog2) && decide (t.tileLog2 ≤ 20)
    && decide (tileCount t e ≤ 262144) && tmplLenOk t e && tmplFmtOk t && !(several && (t.kind = 1 || t.kind = 5))
    && (if t.kind = 3 then decide (t.root < gTotal e) else t.root = 0) && decide (1 ≤ t.opLimit)
    && (!several || decide (t.tileSize * t.w ≤ 1048576))
    && (decide (4 ≤ t.kind) || decide (tileNeed t several ≤ (groupOf s g).res))

/-- Bytes that a kind writes into a member's buffer. -/
def tmplWrites (t : Template) (e : BitVec 4608) : Nat :=
  match t.kind with
  | 0 => t.length
  | 1 => if gLocal e = 0 then 0 else t.length / gLocal e
  | 2 => gTotal e * t.length
  | 3 => t.length
  | _ => 0

/-- A member table entry from its bytes (Table 12-6). -/
def memberOf (bs : List Byte) (j : Nat) : MemberBuf :=
  { dst := BitVec.ofNat 64 (leAt bs (32 * j) 8), dstLen := leAt bs (32 * j + 8) 8, status := BitVec.ofNat 64 (leAt bs (32 * j + 16) 8) }

/-- A member's buffers lie in its node and hold the result (R435, R6). -/
def memberOk (t : Template) (e : BitVec 4608) (bs : List Byte) (j : Nat) : Bool :=
  let b := memberOf bs j
  addrNode b.dst = gNode e j && addrNode b.status = gNode e j && decide (tmplWrites t e ≤ b.dstLen)
    && b.status.toNat % 16 = 0 && leAt bs (32 * j + 24) 8 = 0

/-- TEMPLATE_SET starts: its checks, then the read of the member table (R434). -/
def templateSet (d : DRef) (f : InFlight) (s : State) : State :=
  withGroup d f true s (fun g s =>
    let t := tmplOf f.desc
    if !tmplOk s g t then complete d stBad 0 s
    else if gLocal (gEntry s g) = 0 then
      complete d stOk 0 (modGroup g (fun v => { v with waiting := v.waiting ++ [(fld f.desc 192 6, t, prepDue s)] }) s)
    else hostRead (.obj d 0) (dWord f.desc 48) (32 * gLocal (gEntry s g)) (modFlight d (fun x => { x with waits := 1 }) s))

/-- The member table has come: the template applies at the next boundary (R434, R435). -/
def templateGot (d : DRef) (st : BitVec 8) (bs : List Byte) (s : State) : State :=
  match flightOf s d with
  | none => s
  | some f =>
    match groupTarget f with
    | none => s
    | some g =>
      let t := tmplOf f.desc
      let e := gEntry s g
      if st ≠ stOk then complete d st 0 s
      else if !tmplOk s g t || !(upFrom 0 (gLocal e)).all (memberOk t e bs) then complete d stBad 0 s
      else
        let t := { t with members := (upFrom 0 (gLocal e)).map (memberOf bs) }
        complete d stOk 0 (modGroup g (fun v => { v with waiting := v.waiting ++ [(fld f.desc 192 6, t, prepDue s)] }) s)

/-- Meaning of TEMPLATE_SET. -/
def execTemplateSet (d : DRef) (s : State) : Out := .next (withDesc d 0x22 s (templateSet d))

/-- Result of GROUP_QUERY (Table 12-4). -/
def groupQueryWord (s : State) (g : Fin 1024) : Word :=
  let v := groupOf s g
  let fn := fnOf s (.group g)
  BitVec.ofNat 64 (fnStCode fn.st + v.held.toNat <<< 2 + fn.pend.toNat <<< 3 + v.ops.length <<< 4 + fn.gen.toNat <<< 16
    + v.res <<< 32 + v.level <<< 48)

/-- GROUP_QUERY. -/
def execGroupQuery (d : DRef) (s : State) : Out :=
  .next (withDesc d 0x23 s (fun f s => withGroup d f true s (fun g s => complete d stOk (groupQueryWord s g) s)))

end Machine
end Sys2Proof
end

