-- ==== Sys2Proof/Machine/DataMove.lean ====
section
/-!
DEFINITION. The data-movement descriptors (R420 to R422). A descriptor moves one item at a time, within the four that R422
allows (log 16): it reads a piece, then writes it.
-/
namespace Sys2Proof
namespace Machine

/-- Fields of a DM_COPY, DM_FILL or DM_CRC body (Table 11-12). -/
def dmSrc (d : BitVec 512) : Word := dWord d 24
def dmDst (d : BitVec 512) : Word := dWord d 32
def dmLen (d : BitVec 512) : Nat := dByte d 40 4
def dmSrcHost (d : BitVec 512) : Bool := bit d 352
def dmDstHost (d : BitVec 512) : Bool := bit d 353
def dmOrdered (d : BitVec 512) : Bool := bit d 354
def dmPattern (d : BitVec 512) : Nat := dByte d 48 8

/-- Largest item (R422). -/
abbrev dmPiece : Nat := 16777216

/-- Length of the piece at a position. -/
def dmHere (f : InFlight) : Nat := min dmPiece (dmLen f.desc - f.pos)

/-- Ends a data-movement descriptor with a failure at an address (Table 11-11). -/
def dmFail (d : DRef) (st : BitVec 8) (a : Word) (s : State) : State :=
  match flightOf s d with
  | some f => complete d st (if dOpcode f.desc = 0x12 then 0 else a) s
  | none => s

/-- A request item of a data-movement descriptor; with no tag free it ends as if no answer came (R176). -/
def dmSend (d : DRef) (f : InFlight) (op : BitVec 8) (a : Word) (len : Nat) (bs : List Byte) (s : State) : State :=
  let base : Packet := { opcode := op, vc := reqVc op, addr := a, tenant := dTenant s f, ordered := dmOrdered f.desc && op.toNat < 3 }
  match sendItem 127 hostTags base len bs (.desc d f.pos) s with
  | some s' => modFlight d (fun g => { g with waits := 1 }) s'
  | none => dmFail d stTimeout a s

/-- The next step of a copy, fill or CRC: with `bytes` the piece just read, it is written; otherwise the next piece is read.
`fuel` bounds the pieces that pass within the module's own memory. -/
def dmStep (d : DRef) : Nat → Option (List Byte) → State → State
  | 0, _, s => s
  | fuel + 1, bytes, s =>
    match flightOf s d with
    | none => s
    | some f =>
      let op := (dOpcode f.desc).toNat
      let n := dmHere f
      let src := dmSrc f.desc + BitVec.ofNat 64 f.pos
      let dst := dmDst f.desc + BitVec.ofNat 64 f.pos
      match bytes with
      | none =>
        if n = 0 then complete d stOk (if op = 0x12 then ((~~~ (BitVec.ofNat 32 f.aux.toNat)).setWidth 64) else 0) s
        else if op = 0x11 then
          dmStep d fuel (some ((upFrom 0 (n / 8)).flatMap (fun _ => leBytes 8 (dmPattern f.desc)))) s
        else if dmSrcHost f.desc then
          hostRead (.obj d f.pos) src n (modFlight d (fun g => { g with waits := 1 }) s)
        else if isLocal s src then
          match localCheck s (dTenant s f) src n .rd with
          | .fail st => dmFail d st src s
          | .ok pl =>
            let s := countPlace .fabric false (some (dTenant s f)) pl s
            match placeRead s pl n with
            | some bs => dmStep d fuel (some bs) s
            | none => dmFail d stDataError src (foundBad 5 src pl s)
        else dmSend d f 0x01 src n [] s
      | some bs =>
        let next := fun (s : State) => modFlight d (fun g => { g with pos := g.pos + n, waits := 0 }) s
        if op = 0x12 then
          let c := bs.foldl crc32Byte (BitVec.ofNat 32 f.aux.toNat)
          dmStep d fuel none (next (modFlight d (fun g => { g with aux := c.setWidth 64 }) s))
        else if dmDstHost f.desc then dmStep d fuel none (next (hostPut dst bs s))
        else if isLocal s dst then
          match localCheck s (dTenant s f) dst n .wr with
          | .fail st => dmFail d st dst s
          | .ok pl =>
            let (s, ok) := placeWrite pl bs (countPlace .fabric true (some (dTenant s f)) pl s)
            if ok then dmStep d fuel none (next s) else dmFail d stDataError dst s
        else dmSend d f 0x02 dst n bs s

/-- Fuel for the pieces of one descriptor. -/
abbrev dmFuel : Nat := 200

/-- A read item or a read of host memory brought its piece. -/
def dmGot (d : DRef) (bs : List Byte) (s : State) : State := dmStep d dmFuel (some bs) s

/-- A write item was acknowledged. -/
def dmAcked (d : DRef) (s : State) : State :=
  match flightOf s d with
  | some f => dmStep d dmFuel none (modFlight d (fun g => { g with pos := g.pos + dmHere f, waits := 0 }) s)
  | none => s

/-- Checks of R421 and Table 11-12 on a copy, fill or CRC. -/
def dmOk (f : InFlight) : Bool :=
  let d := f.desc
  let op := (dOpcode d).toNat
  dTarget d = 0xFFFF && decide (1 ≤ dmLen d) && decide (dmLen d ≤ 1073741824)
    && !(dmSrcHost d && dmDstHost d) && (op ≠ 0x11 || (dmLen d % 8 = 0 && (dmDst d).toNat % 8 = 0))

/-- Starts a copy, fill or CRC. -/
def dmStart (d : DRef) (f : InFlight) (s : State) : State :=
  if !dmOk f then complete d stBad 0 s
  else dmStep d dmFuel none (modFlight d (fun g => { g with aux := 0xFFFFFFFF }) s)

/-- DM_COPY (R422). -/
def execDmCopy (d : DRef) (s : State) : Out := .next (withDesc d 0x10 s (dmStart d))

/-- DM_FILL (R421). -/
def execDmFill (d : DRef) (s : State) : Out := .next (withDesc d 0x11 s (dmStart d))

/-- DM_CRC (R420). -/
def execDmCrc (d : DRef) (s : State) : Out := .next (withDesc d 0x12 s (dmStart d))

/-- Fabric atomic of a DM_AT_* descriptor (Table 11-11). -/
def dmAtOp (f : InFlight) : Nat := (dOpcode f.desc).toNat - 0x10

/-- Operand bytes of a DM_AT_* (Table 11-13, Table 5-6). -/
def dmAtBytes (op : Nat) : Nat := if op = 0x0A ∨ op = 0x0B then 2 * atomicWidth op else atomicWidth op
def dmAtPayload (f : InFlight) : List Byte := leBytes (dmAtBytes (dmAtOp f)) (dByte f.desc 32 32)

/-- An atomic descriptor's result (Table 11-11). -/
def dmAtResult (f : InFlight) (old : Nat) : Word :=
  if dmAtOp f = 0x0B then (if old = (atomicOperands 0x0B (dmAtPayload f)).1 then 1 else 0) else BitVec.ofNat 64 old

/-- Starts a DM_AT_* descriptor: at the module's own memory, or as a fabric atomic (R399, R403, R420). -/
def dmAtomic (d : DRef) (f : InFlight) (s : State) : State :=
  let op := dmAtOp f
  let a := dWord f.desc 24
  if dTarget f.desc ≠ 0xFFFF || dByte f.desc 32 32 / 2 ^ (8 * dmAtBytes op) ≠ 0 then complete d stBad 0 s
  else if isLocal s a then
    if a.toNat % atomicWidth op ≠ 0 then complete d stDenied 0 s
    else match localCheck s (dTenant s f) a (atomicWidth op) .atomic with
      | .fail st => complete d st 0 s
      | .ok pl =>
        let (x, y) := atomicOperands op (dmAtPayload f)
        match placeAtomic op pl x y (countPlace .fabric true (some (dTenant s f)) pl s) with
        | (some old, s) => complete d stOk (dmAtResult f old) s
        | (none, s) => complete d stDataError 0 (foundBad 5 a pl s)
  else dmSend d f (BitVec.ofNat 8 op) a (atomicWidth op) (dmAtPayload f) s

/-- DM_AT_FADD64. -/
def execDmAtFadd64 (d : DRef) (s : State) : Out := .next (withDesc d 0x18 s (dmAtomic d))

/-- DM_AT_SWAP64. -/
def execDmAtSwap64 (d : DRef) (s : State) : Out := .next (withDesc d 0x19 s (dmAtomic d))

/-- DM_AT_CAS64. -/
def execDmAtCas64 (d : DRef) (s : State) : Out := .next (withDesc d 0x1A s (dmAtomic d))

/-- DM_AT_CAS128. -/
def execDmAtCas128 (d : DRef) (s : State) : Out := .next (withDesc d 0x1B s (dmAtomic d))

/-- DM_AT_FADD_FP32. -/
def execDmAtFaddFp32 (d : DRef) (s : State) : Out := .next (withDesc d 0x1C s (dmAtomic d))

/-- DM_AT_FADD_BF16. -/
def execDmAtFaddBf16 (d : DRef) (s : State) : Out := .next (withDesc d 0x1D s (dmAtomic d))

/-- An item of a data-movement descriptor has its outcome: `bytes` is what a read or atomic returned. -/
def dmEnd (d : DRef) (o : Own) (st : BitVec 8) (bytes : List Byte) (s : State) : State :=
  match flightOf s d with
  | none => s
  | some f =>
    if 0x18 ≤ (dOpcode f.desc).toNat then complete d st (if st = stOk then dmAtResult f (leNat bytes) else 0) s
    else if st ≠ stOk then dmFail d st o.addr s
    else if o.opcode = 0x01 then dmGot d bytes s
    else dmAcked d s

end Machine
end Sys2Proof
end

