-- ==== Sys2Proof/Machine/Streams.lean ====
section
/-!
DEFINITION. Weight streams (chapter 14): programs, passes, segments, landing grants, chunks, repair and outcomes.
-/
namespace Sys2Proof
namespace Machine

/-! ### Streams -/

def streamOf' (s : State) (k : Fin 64) : Stream := tblGet {} s.streams.s k.val
def modStream (k : Fin 64) (f : Stream → Stream) (s : State) : State :=
  { s with streams.s := tblMod {} s.streams.s k.val f }

/-- The run of a segment of a pass changed by `f`. -/
def modRun (k : Fin 64) (pass : BitVec 32) (seg : Nat) (f : SegRun → SegRun) (s : State) : State :=
  modStream k (fun x => { x with segs := x.segs.map (fun r => if r.pass = pass && r.seg = seg then f r else r) }) s

/-- The run of a segment of a pass. -/
def runAt (s : State) (k : Fin 64) (pass : BitVec 32) (seg : Nat) : Option SegRun :=
  (streamOf' s k).segs.find? (fun r => r.pass = pass && r.seg = seg)

/-- The oldest run of a segment. -/
def oldestRun (s : State) (k : Fin 64) (seg : Nat) : Option SegRun := (streamOf' s k).segs.find? (fun r => r.seg = seg)

/-- The program's segment of a run. -/
def segOf (s : State) (k : Fin 64) (i : Nat) : Segment :=
  (streamOf' s k).program.getD i ⟨0, 0, 1, 0, 0, 0, 0, 4096, 0⟩

def Segment.sSpec (g : Segment) : FmtSpec := specOf g.srcFmt.toNat
def Segment.tSpec (g : Segment) : FmtSpec := specOf g.tgtFmt.toNat

/-- Tag of a stream's packets (Tables 14-5 and 14-7). -/
def streamTag (k : Fin 64) (slot : Nat) : BitVec 16 := BitVec.ofNat 16 (k.val + slot <<< 6)

/-! ### Chunks (R511) -/

/-- K: target bytes of a whole chunk. -/
def chunkK (g : Segment) : Nat := if g.sSpec.coding = 1 ∧ g.sSpec.fmt = g.tSpec.fmt then 2048 else 4096

/-- Chunks of a segment. -/
def chunkCount (g : Segment) : Nat := ceilDiv g.tgtLen (chunkK g)

/-- Target bytes of chunk `c`. -/
def chunkTgt (g : Segment) (c : Nat) : Nat := min (chunkK g) (g.tgtLen - c * chunkK g)

/-- Elements that `b` target bytes hold. -/
def tgtElems (fmt b : Nat) : Nat := if fmt = 5 then ceilDiv b 272 * 512 else b / (fmtWidth fmt / 8)

/-- Stored bytes of `b` target bytes, where the coding fixes them; 0 for Skim-Z. -/
def storedOf (g : Segment) (b : Nat) : Nat :=
  if g.sSpec.coding = 1 then 0
  else if g.sSpec.coding = 0 ∧ g.sSpec.fmt = g.tSpec.fmt then b
  else codedLen g.sSpec.fmt g.sSpec.coding (tgtElems g.tSpec.fmt b)

/-- Largest Skim-Z data of `b` plain bytes (R369). -/
def worstZ (w b : Nat) : Nat := b + 8 * ceilDiv (b / w) 64

/-- Stored bytes before chunk `c`. -/
def chunkOff (g : Segment) (r : SegRun) (c : Nat) : Nat :=
  if g.sSpec.coding = 1 then r.offs.getD c r.off else c * storedOf g (chunkK g)

/-- Bytes of a place's contents, for the bitmaps of Skim-Z groups. -/
def peekPlace (s : State) (pl : Place) (n : Nat) : List Byte :=
  match pl with
  | .larder runs => slice (runs.flatMap (fun r => memRead s.larder.mem r.1 r.2)) 0 n
  | _ => List.replicate n 0

/-- Stored bytes of chunk `c`, at offset `off` of the source. -/
def chunkLen (s : State) (tenant : BitVec 8) (coat : Coat) (g : Segment) (off c : Nat) : Nat :=
  if g.sSpec.coding ≠ 1 then storedOf g (chunkTgt g c)
  else
    let w := unitBytes g.sSpec.fmt
    let n := min (g.srcLen - off) (worstZ w (chunkTgt g c))
    match checkRange s coat tenant (addrOff g.src + off) n .stream with
    | .ok pl => min n (lenZ w (chunkTgt g c / w / 64 + 1) (chunkTgt g c / w) (peekPlace s pl n))
    | .fail _ => n

/-- Plain target bytes of a chunk and what Skim-X counts; none when its Skim-Z groups break R371 (R514). -/
def expandChunk (g : Segment) (c : Nat) (bs : List Byte) : Option (List Byte × XCount) :=
  let b := chunkTgt g c
  if g.sSpec.coding = 1 then
    let w := unitBytes g.sSpec.fmt
    (decodeZ w (b / w / 64 + 1) (b / w) bs).map (fun x => (x, {}))
  else if g.sSpec.coding = 0 ∧ g.sSpec.fmt = g.tSpec.fmt then some (slice bs 0 b, {})
  else
    let n := tgtElems g.tSpec.fmt b
    (decodeSkim g.sSpec.fmt g.sSpec.coding n bs).map (fun x =>
      let r := expandX g.sSpec.fmt g.tSpec.fmt g.tSpec.sat n x
      (slice r.1 0 b, r.2))

/-! ### Ends of shares, segments and passes (R515, R518, R522) -/

/-- The link of an output is in service. -/
def outUp (s : State) (o : PortId) : Bool :=
  match portLink o with
  | some l => (link s l).up
  | none => true

/-- The counter word of a share (Table 14-8). -/
def counterWord (s : State) (k : Fin 64) (r : SegRun) (st : BitVec 8) : Nat :=
  r.pass.toNat + r.seg <<< 32 + st.toNat <<< 48 + ((fnGen s (.stream k)).toNat % 256) <<< 56

/-- Sends a share's STREAM_COUNTER (R515). -/
def sendCounter (k : Fin 64) (r : SegRun) (x : Share) (st : BitVec 8) (s : State) : State :=
  match x.grant, portLink x.out with
  | some gr, some l =>
    if st = stLinkLost || !outUp s x.out then s
    else
      let base : Packet :=
        { opcode := 0x31, vc := 5, last := true, ordered := true, dst := edgeNode s l, src := myNode s,
          tenant := (streamOf' s k).tenant.getD 0, tag := streamTag k gr.slot, gen := fnGen s (.stream k),
          addr := gr.base + BitVec.ofNat 64 (gr.size * 65536 - 8), itemLen := 8 }
      sendTo 126 x.out (withPayload (leBytes 8 (counterWord s k r st)) base) s
  | _, _ => s

/-- Ends one share with a status, once. -/
def endShare (k : Fin 64) (pass : BitVec 32) (seg : Nat) (o : PortId) (st : BitVec 8) (s : State) : State :=
  match runAt s k pass seg with
  | none => s
  | some r =>
    match r.shares.find? (fun x => x.out = o && x.status.isNone) with
    | none => s
    | some x =>
      let s := modRun k pass seg (fun r => { r with shares := r.shares.map (fun y =>
        if y.out = o then { y with status := some st, repair := [] } else y) }) s
      bump (streamPage k.val) (16 + st.toNat) 1 (sendCounter k r x st s)

/-- Status of a segment from its members' (R522). -/
def segStatus (xs : List Share) : BitVec 8 :=
  if xs.all (fun x => x.status = some stOk) then (if xs.isEmpty then stDenied else stOk)
  else if xs.any (fun x => x.status = some stOk) then stPartial
  else match xs with
    | x :: _ => x.status.getD stDenied
    | [] => stDenied

/-- Bitmap of the outputs that ended OK. -/
def landedMap (xs : List Share) : Nat := xs.foldl (fun m x => if x.status = some stOk then m + 2 ^ x.out.val else m) 0

/-- Writes a segment status record (Table 14-10). -/
def writeSegRecord (k : Fin 64) (pass : BitVec 32) (seg : Nat) (st : BitVec 8) (repaired map : Nat) (s : State) : State :=
  hostPut ((streamOf' s k).statusBase + BitVec.ofNat 64 (32 * seg))
    (leBytes 8 (pass.toNat + st.toNat <<< 32 + (fnGen s (.stream k)).toNat <<< 48)
      ++ leBytes 8 (repaired % 65536 + ((nowTick s).toNat % 2 ^ 32) <<< 32) ++ leBytes 16 map) s

/-- First status of a pass's records that is not OK, in program order (R502). -/
def passStatus (p : Pass) : BitVec 8 :=
  match p.recs.find? (fun r => r.2 ≠ some stOk) with
  | some r => r.2.getD stOk
  | none => stOk

/-- A segment's record is written: when it is its pass's last, the pass is over (R502). -/
def recordSeg (k : Fin 64) (pass : BitVec 32) (seg : Nat) (st : BitVec 8) (s : State) : State :=
  let s := modStream k (fun x => { x with passes := x.passes.map (fun p =>
    if p.num = pass then { p with recs := tblSet none p.recs seg (some st) } else p) }) s
  match (streamOf' s k).passes.find? (fun p => p.num = pass) with
  | none => s
  | some p =>
    if p.recs.length < (streamOf' s k).program.length then s
    else
      let s := modStream k (fun x => { x with passes := x.passes.filter (fun q => q.num ≠ pass) }) s
      match p.d with
      | some d => complete d (passStatus p) (p.num.setWidth 64) s
      | none => s

/-- The audit of landing credits at the end of a segment (R510). -/
def landAudit (k : Fin 64) (s : State) : State :=
  (upFrom 0 96).foldl (fun s p =>
    let x := streamOf' s k
    let held := (x.grants.filter (fun g => g.port = p)).length
    let bal := tblGet 0 x.balance p
    if held = bal then s
    else modStream k (fun x => { x with balance := tblSet 0 x.balance p held }) (auditMismatch 3 k.val p ((held : Int) - bal) (fnGen s (.stream k)) s)) s

/-- A segment whose shares all have outcomes is over (R522). -/
def settleSeg (k : Fin 64) (pass : BitVec 32) (seg : Nat) (s : State) : State :=
  match runAt s k pass seg with
  | none => s
  | some r =>
    if !r.shares.all (fun x => x.status.isSome) then s
    else
      let st := segStatus r.shares
      let s := writeSegRecord k pass seg st r.repaired (landedMap r.shares) s
      let s := modStream k (fun x => { x with segs := x.segs.filter (fun y => !(y.pass = pass && y.seg = seg)) }) s
      landAudit k (recordSeg k pass seg st s)

/-- Ends every open share of a segment (R505, R521). -/
def endAll (k : Fin 64) (pass : BitVec 32) (seg : Nat) (st : BitVec 8) (s : State) : State :=
  match runAt s k pass seg with
  | none => s
  | some r => settleSeg k pass seg (r.shares.foldl (fun s x => endShare k pass seg x.out st s) s)

/-- Every open share has each chunk delivered or failed (R518). -/
def recordDone (r : SegRun) : Bool :=
  r.next = r.chunks && r.shares.all (fun x => x.status.isSome || (x.repair.isEmpty && x.delivered.length + x.failed.length = r.chunks))

/-- The outcome record closes; a member with failed chunks and no attempt left ends with its last failure (R518, R519). -/
def closeSeg (k : Fin 64) (pass : BitVec 32) (seg : Nat) (s : State) : State :=
  match runAt s k pass seg with
  | none => s
  | some r =>
    if !recordDone r || r.closed.isSome then settleSeg k pass seg s
    else
      let s := modRun k pass seg (fun r => { r with closed := some s.tick.elapsed }) s
      let spent := r.shares.filter (fun x => x.status.isNone && !x.failed.isEmpty && decide ((streamOf' s k).repairLimit ≤ x.attempts))
      settleSeg k pass seg (spent.foldl (fun s x => endShare k pass seg x.out x.lastFail s) s)

/-- A chunk's last byte left a member's link (R517). -/
def chunkDelivered (k : Fin 64) (pass : BitVec 32) (seg c : Nat) (o : PortId) (s : State) : State :=
  match runAt s k pass seg with
  | none => s
  | some r =>
    match r.shares.find? (fun x => x.out = o && x.status.isNone) with
    | none => s
    | some x =>
      if x.delivered.contains c then s
      else
        let s := modRun k pass seg (fun r => { r with last := s.tick.elapsed, shares := r.shares.map (fun y => if y.out = o then
          { y with delivered := y.delivered ++ [c], failed := y.failed.filter (· ≠ c) } else y) }) s
        let s := bump (streamPage k.val) 5 (chunkTgt (segOf s k seg) c) s
        let s := if x.delivered.length + 1 = r.chunks then endShare k pass seg o stOk s else s
        closeSeg k pass seg s

/-- A chunk failed at a member (R517); with its link out of service the member's share ends (Table 14-9). -/
def chunkFailed (k : Fin 64) (pass : BitVec 32) (seg c : Nat) (o : PortId) (st : BitVec 8) (s : State) : State :=
  match runAt s k pass seg with
  | none => s
  | some r =>
    match r.shares.find? (fun x => x.out = o && x.status.isNone) with
    | none => s
    | some x =>
      if st = stLinkLost then closeSeg k pass seg (endShare k pass seg o stLinkLost s)
      else if x.failed.contains c || x.delivered.contains c then s
      else closeSeg k pass seg (modRun k pass seg (fun r => { r with last := s.tick.elapsed, shares := r.shares.map (fun y => if y.out = o then
          { y with failed := y.failed ++ [c], lastFail := st } else y) }) s)

/-- Chunks that outputs discarded are counted in their records (R517). -/
def streamLosses (s : State) : State :=
  let l := s.core.lost
  l.foldl (fun s x => match x.2.1 with
    | .chunk k pass seg c => chunkFailed k pass seg c x.1 x.2.2 s
    | _ => s) { s with core.lost := [] }

/-- Every open share at a failed link ends with LINK_LOST (Table 14-9). -/
def streamLinkLost (o : PortId) (s : State) : State :=
  (List.finRange 64).foldl (fun s k => (streamOf' s k).segs.foldl (fun s r =>
    if r.shares.any (fun x => x.out = o && x.status.isNone) then
      closeSeg k r.pass r.seg (endShare k r.pass r.seg o stLinkLost s) else s) s) s

/-- Packets that a member's output sends for a chunk (R514, Table 14-7): none when the chunk breaks R371, no packet when the
member's share has ended. -/
def chunkPackets (s : State) (k : Fin 64) (pass : BitVec 32) (seg c : Nat) (o : PortId) (bs : List Byte) :
    Option (List Packet × XCount) :=
  match runAt s k pass seg, portLink o with
  | some r, some l =>
    match r.shares.find? (fun x => x.out = o && x.status.isNone) with
    | none => some ([], {})
    | some x =>
      match expandChunk (segOf s k seg) c bs, x.grant with
      | none, _ => none
      | _, none => some ([], {})
      | some (out, cnt), some gr =>
        let lim := genMax (link s l).gen
        let g := segOf s k seg
        let at_ := c * chunkK g
        let ps := (upFrom 0 (ceilDiv out.length lim)).map (fun i =>
          let piece := (out.drop (i * lim)).take lim
          let base : Packet :=
            { opcode := 0x30, vc := 5, ordered := true, last := at_ + i * lim + piece.length = g.tgtLen, dst := edgeNode s l,
              src := myNode s, tenant := (streamOf' s k).tenant.getD 0, tag := streamTag k gr.slot,
              gen := fnGen s (.stream k), addr := gr.base + BitVec.ofNat 64 (at_ + i * lim),
              itemLen := BitVec.ofNat 32 piece.length, coat := r.coat, injTick := (nowTick s).setWidth 16 }
          sealPkt (withPayload piece base))
        some (ps, cnt)
  | _, _ => some ([], {})

/-- Adds what Skim-X counted (R383). -/
def countX (k : Fin 64) (c : XCount) (s : State) : State :=
  bump (streamPage k.val) 13 c.nans (bump (streamPage k.val) 12 c.flush (bump (streamPage k.val) 11 c.ovf s))

/-! ### Landing credits (R506 to R509) -/

/-- First condition of R507 that a LANDING_CREDIT breaks. -/
def creditFault (s : State) (l : LinkId) (k : Fin 64) (p : Packet) : Option Nat :=
  let x := streamOf' s k
  if fnSt s (.stream k) ≠ .starting && fnSt s (.stream k) ≠ .on then some 1
  else if some p.tenant ≠ x.tenant || p.gen ≠ fnGen s (.stream k) then some 2
  else if addrNode p.addr ≠ edgeNode s l then some 3
  else if fld p.addr 0 16 = 0 then some 4
  else if x.grants.any (fun g => g.port = l.val && g.slot = fld p.tag 6 4) then some 5
  else none

/-- LANDING_CREDIT from a member (R506, R507). -/
def landingCredit (l : LinkId) (p : Packet) (s : State) : State :=
  let i := linkPort l
  let k : Fin 64 := ⟨fld p.tag 0 6, Nat.mod_lt _ (by decide)⟩
  let slot := fld p.tag 6 4
  if p.opcode ≠ 0x38 then s
  else if !mayTakeIn s i p then standIn i p s
  else
    let s := leaveInput i p s
    match creditFault s l k p with
    | some c => raiseEv 0x62 k.val (l.val + slot <<< 7 + c <<< 11) (fnGen s (.stream k)) (bump (streamPage k.val) 10 1 s)
    | none =>
      let gr : Grant := { port := l.val, slot := slot, base := BitVec.ofNat 64 (p.addr.toNat / 65536 * 65536), size := fld p.addr 0 16 }
      bump (streamPage k.val) 7 1 (modStream k (fun x =>
        { x with grants := x.grants ++ [gr], balance := tblMod 0 x.balance l.val (· + 1) }) s)

/-- Meaning of LANDING_CREDIT. -/
def execLandingCredit (l : LinkId) (p : Packet) (s : State) : Out := .next (landingCredit l p s)

/-! ### Descriptors (R496 to R502) -/

/-- Stream that a descriptor names (R497). -/
def streamTarget (f : InFlight) : Option (Fin 64) :=
  let t := dTarget f.desc
  if fld t 6 10 ≠ 0 then none else some ⟨fld t 0 6, Nat.mod_lt _ (by decide)⟩

/-- Runs a streams descriptor: its stream, its generation and its tenant (R497). STREAM_PROGRAM binds the tenant, so its own
is not checked (log 18). -/
def withStream (d : DRef) (f : InFlight) (gen ten : Bool) (s : State) (body : Fin 64 → State → State) : State :=
  match streamTarget f with
  | none => complete d stBad 0 s
  | some k =>
    let s := modFlight d (fun x => { x with gen := fnGen s (.stream k) }) s
    if gen && !genOk s f (.stream k) then complete d stStaleGen 0 s
    else if ten && (streamOf' s k).tenant ≠ some (dTenant s f) then complete d stDenied 0 s
    else body k s

/-- Field ranges of a STREAM_PROGRAM body (Table 14-3). -/
def programOk (d : BitVec 512) : Bool :=
  fld d 192 6 = 0 && decide (1 ≤ fld d 256 16) && decide (fld d 256 16 ≤ 4096) && fld d 384 5 = 0
    && (fld d 288 32 ≠ 0 || fld d 320 48 = 0)

/-- Segments stored by the other streams. -/
def storedSegs (s : State) (k : Fin 64) : Nat :=
  (s.streams.s.filter (fun e => e.1 ≠ k.val)).foldl (fun n e => n + e.2.program.length) 0

/-- STREAM_PROGRAM starts: its checks, then the read of the list (R499, R500). -/
def streamProgram (d : DRef) (f : InFlight) (s : State) : State :=
  withStream d f true false s (fun k s =>
    if fnSt s (.stream k) ≠ .off || !programOk f.desc then complete d stBad 0 s
    else if 16384 < storedSegs s k + fld f.desc 256 16 then complete d stNoRoom 0 s
    else hostRead (.obj d 0) (dWord f.desc 24) (64 * fld f.desc 256 16) (modFlight d (fun x => { x with waits := 1 }) s))

/-- A segment entry from its bytes (Table 14-4). -/
def segEntry (bs : List Byte) : Segment :=
  { src := BitVec.ofNat 64 (leAt bs 0 8), srcLen := leAt bs 8 4, tgtLen := leAt bs 12 4, srcFmt := BitVec.ofNat 16 (leAt bs 16 2),
    tgtFmt := BitVec.ofNat 16 (leAt bs 18 2), group := leAt bs 20 2 % 4096, slot := leAt bs 20 2 / 4096, quota := leAt bs 24 4,
    deadline := leAt bs 28 4 }

/-- A segment entry keeps R500. -/
def segEntryOk (s : State) (bs : List Byte) (g : Segment) : Bool :=
  addrNode g.src = myNode s && g.src.toNat % 256 = 0 && decide (1 ≤ g.tgtLen) && decide (g.group ≤ 4094)
    && decide (4096 ≤ g.quota) && leAt bs 22 2 = 0 && leAt bs 32 32 = 0
    && g.sSpec.ok && g.tSpec.ok && g.tSpec.coding = 0 && skimXok g.sSpec.fmt g.tSpec.fmt
    && (g.sSpec.coding = 0 || g.sSpec.coding = 1 || g.sSpec.fmt = g.tSpec.fmt)
    && (if g.tSpec.fmt = 5 then g.tgtLen % 272 = 0 else g.tgtLen % (fmtWidth g.tSpec.fmt / 8) = 0)
    && (if g.sSpec.coding = 1 then
          decide (g.srcLen ≤ worstZ (unitBytes g.sSpec.fmt) (plainLen g.sSpec.fmt (tgtElems g.tSpec.fmt g.tgtLen)))
        else g.srcLen = codedLen g.sSpec.fmt g.sSpec.coding (tgtElems g.tSpec.fmt g.tgtLen))

/-- The segment list has come (R499, R500). -/
def programGot (d : DRef) (st : BitVec 8) (bs : List Byte) (s : State) : State :=
  match flightOf s d with
  | none => s
  | some f =>
    match streamTarget f with
    | none => s
    | some k =>
      let n := fld f.desc 256 16
      let es := (upFrom 0 n).map (fun i => slice bs (64 * i) 64)
      if st ≠ stOk then complete d st 0 s
      else if fnSt s (.stream k) ≠ .off || !es.all (fun e => segEntryOk s e (segEntry e)) then complete d stBad 0 s
      else if 16384 < storedSegs s k + n then complete d stNoRoom 0 s
      else
        complete d stOk (BitVec.ofNat 64 n) (modStream k (fun x =>
          { x with tenant := some (dTenant s f), program := es.map segEntry, repairLimit := fld f.desc 272 4,
                   period := fld f.desc 288 32, baseTick := BitVec.ofNat 48 (fld f.desc 320 48),
                   statusBase := dWord f.desc 48 }) (bindPage (streamPage k.val) (dTenant s f) s))

/-- Meaning of STREAM_PROGRAM. -/
def execStreamProgram (d : DRef) (s : State) : Out := .next (withDesc d 0x30 s (streamProgram d))

/-- STREAM_START (R501, R502): one pass begins at its boundary. -/
def streamStart (d : DRef) (f : InFlight) (s : State) : State :=
  withStream d f true true s (fun k s =>
    if (streamOf' s k).period ≠ 0 then complete d stBad 0 s
    else match fnSt s (.stream k) with
      | .off => complete d stCancelled 0 s
      | .stopping => complete d stCancelled 0 s
      | _ => modStream k (fun x => { x with starts := x.starts ++ [(d, prepDue s)] }) (modFlight d (fun x => { x with waits := 1 }) s))

/-- Meaning of STREAM_START. -/
def execStreamStart (d : DRef) (s : State) : Out := .next (withDesc d 0x33 s (streamStart d))

/-- Result of STREAM_QUERY (Table 14-2). -/
def streamQueryWord (s : State) (k : Fin 64) : Word :=
  let fn := fnOf s (.stream k)
  BitVec.ofNat 64 (fnStCode fn.st + fn.pend.toNat <<< 2 + fn.gen.toNat <<< 16 + (streamOf' s k).lastPass.toNat <<< 32)

/-- STREAM_QUERY. -/
def execStreamQuery (d : DRef) (s : State) : Out :=
  .next (withDesc d 0x34 s (fun f s => withStream d f true true s (fun k s => complete d stOk (streamQueryWord s k) s)))

/-! ### Passes and segments (R501 to R505, R508) -/

/-- The stream has read the last chunk of every segment that has started. -/
def allRead (x : Stream) : Bool := x.segs.all (fun r => r.next = r.chunks)

/-- Every pass begun has read its last chunk. -/
def passesRead (x : Stream) : Bool := x.passes.all (fun p => p.next = x.program.length) && allRead x

/-- Nominal start of pass `p`. -/
def nominalStart (x : Stream) (p : BitVec 32) : BitVec 48 := x.baseTick + BitVec.ofNat 48 (p.toNat * x.period)

/-- STREAM_PASS_START (R501, R503): the next pass of the stream begins. -/
def passStart (k : Fin 64) (s : State) : State :=
  let x := streamOf' s k
  let begin_ := fun (sp : BitVec 48) (d : Option DRef) (s : State) =>
    let s := modStream k (fun x => { x with passes := x.passes ++ [{ num := x.nextPass, start := sp, d := d }],
                                            lastPass := x.nextPass, nextPass := x.nextPass + 1 }) s
    let s := bump (streamPage k.val) 0 1 s
    if later (nowTick s) sp then bump (streamPage k.val) 1 1 s else s
  if s.tick.slot ≠ 0 || fnSt s (.stream k) ≠ .on || !passesRead x then s
  else if x.period ≠ 0 then
    let sp := nominalStart x x.nextPass
    if later sp (nowTick s) then s else begin_ sp none s
  else match x.starts with
    | (d, due) :: t =>
      let sp := match flightOf s d with
        | some f => if dTimed f.desc then dApply f.desc else due + s.tick.offset
        | none => due + s.tick.offset
      if workDue s d due then begin_ sp (some d) (modStream k (fun x => { x with starts := t }) s) else s
    | [] => s

/-- Meaning of STREAM_PASS_START. -/
def execStreamPassStart (k : Fin 64) (s : State) : Out := .next (passStart k s)

/-- Members of a segment: the outputs of its group in the topcoat (R505). -/
def segMembers (s : State) (g : Segment) : List PortId := mcOuts (tblGet 0 s.route.top.mcast g.group)

/-- The group and window checks of R505. -/
def segAllowed (s : State) (k : Fin 64) (g : Segment) : Bool :=
  let e := tblGet 0 s.route.top.mcast g.group
  let t := (streamOf' s k).tenant.getD 0
  bit e 0 && fld e 8 8 = t.toNat
    && (mcOuts e).all (fun o => match portLink o with
        | some l => edgeCheck s l
        | none => false)
    && (match checkRange s s.route.top t (addrOff g.src) g.srcLen .stream with
        | .ok (.larder _) => true
        | _ => false)

/-- The deadline tick of a segment has ended (R504, R520). -/
def deadlinePast (s : State) (sp : BitVec 48) (g : Segment) : Bool :=
  g.deadline ≠ 0 && later (nowTick s) (sp + BitVec.ofNat 48 g.deadline)

/-- The share with which a member begins (R504, R505, R508). -/
def firstShare (x : Stream) (g : Segment) (allowed : Bool) (o : PortId) : Share × BitVec 8 :=
  let gr := x.grants.find? (fun r => r.port = o.val && r.slot = g.slot)
  let st := if !allowed then stDenied
    else match gr with
      | none => stLate
      | some r => if r.size * 65536 < g.tgtLen + 8 then stDenied else stOk
  ({ out := o, grant := gr }, st)

/-- Allowance of a segment for one tick (R512, R527). -/
def paced (phi : Nat) (g : Segment) : Nat := max 4096 (g.quota * phi / 256)

/-- Allowance that step 7 sets: that of the segment that reads, else of the last one started, whose repairs may still read (R512). -/
def fullAllowance (phi : Nat) (x : Stream) : Nat :=
  let at_ := fun (r : SegRun) => paced phi (x.program.getD r.seg ⟨0, 0, 1, 0, 0, 0, 0, 4096, 0⟩)
  match x.segs.find? (fun r => decide (r.next < r.chunks)), x.segs.getLast? with
  | some r, _ => at_ r
  | none, some r => at_ r
  | none, none => 0

/-- A segment starts: grants are consumed, and members that cannot take part end at once (R504, R505, R508); what
repairs have read in this tick stays deducted from its allowance (R512). -/
def startSeg (k : Fin 64) (p : Pass) (g : Segment) (s : State) : State :=
  let x := streamOf' s k
  let outs := segMembers s g
  let allowed := segAllowed s k g
  let fs := outs.map (firstShare x g allowed)
  let used := fs.filterMap (fun f => f.1.grant)
  let r : SegRun := { pass := p.num, seg := p.next, start := p.start, coat := s.route.top.num, shares := fs.map (·.1),
                      chunks := chunkCount g, last := s.tick.elapsed, next := if allowed then 0 else chunkCount g }
  let s := modStream k (fun x => { x with
    grants := x.grants.filter (fun gr => !used.contains gr)
    balance := used.foldl (fun t gr => tblMod 0 t gr.port (· - 1)) x.balance
    passes := x.passes.map (fun q => if q.num = p.num then { q with next := q.next + 1 } else q)
    segs := x.segs ++ [r]
    allowance := paced s.streams.phi g - (fullAllowance s.streams.phi x - x.allowance) }) s
  let s := bump (streamPage k.val) 8 used.length (bump (streamPage k.val) 2 1 s)
  settleSeg k p.num p.next ((fs.filter (fun f => f.2 ≠ stOk)).foldl (fun s f => endShare k p.num p.next f.1.out f.2 s) s)

/-- Writes the record of a segment that never started (R523, Table 14-9). -/
def skipSeg (k : Fin 64) (pass : BitVec 32) (seg : Nat) (st : BitVec 8) (s : State) : State :=
  let s := modStream k (fun x => { x with passes := x.passes.map (fun q =>
    if q.num = pass then { q with next := max q.next (seg + 1) } else q) }) s
  recordSeg k pass seg st (writeSegRecord k pass seg st 0 0 s)

/-- STREAM_SEGMENT_START (R503 to R505): the next segment of the pass under way starts. -/
def segmentStart (k : Fin 64) (s : State) : State :=
  let x := streamOf' s k
  match x.passes.find? (fun p => decide (p.next < x.program.length)) with
  | none => s
  | some p =>
    let g := segOf s k p.next
    let ready := (segMembers s g).all (fun o => x.grants.any (fun r => r.port = o.val && r.slot = g.slot))
    if s.tick.slot ≠ 0 || fnSt s (.stream k) ≠ .on || !allRead x then s
    else if s.attic.draining then skipSeg k p.num p.next stDrained s
    else if ready || !segAllowed s k g || deadlinePast s p.start g then startSeg k p g s
    else s

/-- Meaning of STREAM_SEGMENT_START. -/
def execStreamSegmentStart (k : Fin 64) (s : State) : Out := .next (segmentStart k s)

/-! ### Reading chunks (R511 to R513, R519, R521) -/

/-- The chunk that a stream reads next: its run, and for a repair the member it goes to. Repairs go first (R512). -/
def nextChunk (x : Stream) : Option (SegRun × Nat × Option PortId) :=
  match x.segs.findSome? (fun r => r.shares.findSome? (fun y => match y.repair with
      | c :: _ => some (r, c, some y.out)
      | [] => none)) with
  | some t => some t
  | none => (x.segs.find? (fun r => decide (r.next < r.chunks))).map (fun r => (r, r.next, none))

/-- A chunk that has been read enters the core (R513, R519). -/
def sendChunk (k : Fin 64) (g : Segment) (r : SegRun) (c : Nat) (dest : Option PortId) (port : PortId) (bs : List Byte)
    (s : State) : State :=
  let base : Packet :=
    { opcode := 0x30, vc := 5, ordered := true, mcast := dest.isNone, last := c + 1 = r.chunks,
      dst := match dest with
        | none => BitVec.ofNat 12 g.group
        | some _ => 0
      src := myNode s, tenant := (streamOf' s k).tenant.getD 0, tag := streamTag k g.slot, gen := fnGen s (.stream k),
      addr := BitVec.ofNat 64 (c * chunkK g), itemLen := BitVec.ofNat 32 (chunkTgt g c), coat := r.coat,
      injTick := (nowTick s).setWidth 16 }
  let p := sealPkt (withPayload bs base)
  match dest with
  | none => enqueue port .mcast 0 0 0 false 0 p s (.chunk k r.pass r.seg c)
  | some o => enqueue port .unicast o 0 0 false 0 p s (.chunk k r.pass r.seg c)

/-- What reading chunk `c` changes in the stream. -/
def chunkTaken (k : Fin 64) (r : SegRun) (c len : Nat) (dest : Option PortId) (s : State) : State :=
  let s := modStream k (fun x => { x with allowance := x.allowance - len }) s
  let s := modRun k r.pass r.seg (fun r => match dest with
    | none => { r with next := r.next + 1, off := r.off + len, offs := r.offs ++ [r.off], last := s.tick.elapsed }
    | some o => { r with repaired := r.repaired + 1, last := s.tick.elapsed, shares := r.shares.map (fun y =>
        if y.out = o then { y with repair := y.repair.filter (· ≠ c) } else y) }) s
  let s := bump (streamPage k.val) 4 len (bump (streamPage k.val) 3 1 s)
  if dest.isSome then bump (streamPage k.val) 6 1 s else s

/-- STREAM_CHUNK_READ (R512, R513, R521). -/
def chunkRead (k : Fin 64) (s : State) : State :=
  let x := streamOf' s k
  match nextChunk x with
  | none => s
  | some (r, c, dest) =>
    let g := segOf s k r.seg
    let t := x.tenant.getD 0
    let coat := coatFor s r.coat
    let off := if dest.isNone && g.sSpec.coding = 1 then r.off else chunkOff g r c
    let len := chunkLen s t coat g off c
    if x.allowance < len then s
    else match checkRange s coat t (addrOff g.src + off) len .stream with
      | .fail st => endAll k r.pass r.seg (if st = stHalt then stHalt else stDenied) s
      | .ok pl =>
        let s := translateAll r.coat t (addrOff g.src + off) pl (countPlace .stream false (some t) pl s)
        match placeRead s pl len with
        | none => endAll k r.pass r.seg stDataError (foundBad 8 (g.src + BitVec.ofNat 64 off) pl (chunkTaken k r c len dest s))
        | some bs => sendChunk k g r c dest (placePort pl) bs (chunkTaken k r c len dest s)

/-- STREAM_DEADLINE (R520): at the boundary after the deadline tick, open shares end with LATE. -/
def execStreamDeadline (k : Fin 64) (seg : BitVec 12) (s : State) : Out :=
  .next (match oldestRun s k seg.toNat with
    | some r => if s.tick.slot = 0 && deadlinePast s r.start (segOf s k r.seg) then endAll k r.pass r.seg stLate s else s
    | none => s)

/-- STREAM_RECORD_TIMEOUT (R518): outstanding chunks count as failed and the record closes. -/
def execStreamRecordTimeout (k : Fin 64) (seg : BitVec 12) (s : State) : Out :=
  .next (match oldestRun s k seg.toNat with
    | some r =>
      if r.next = r.chunks && r.closed.isNone && r.shares.all (fun x => x.repair.isEmpty) && decide (ageLimit s + 8 ≤ ageOf s r.last) then
        closeSeg k r.pass r.seg (modRun k r.pass r.seg (fun r => { r with shares := r.shares.map (fun x =>
          { x with failed := x.failed ++ (upFrom 0 r.chunks).filter (fun c => !x.failed.contains c && !x.delivered.contains c) }) }) s)
      else s
    | none => s)

/-- STREAM_REPAIR_START (R519): at the boundary after the record closes, members with failed chunks get an attempt. -/
def execStreamRepairStart (k : Fin 64) (seg : BitVec 12) (s : State) : Out :=
  .next (match oldestRun s k seg.toNat with
    | some r =>
      if s.tick.slot ≠ 0 || r.closed.isNone || r.closed = some s.tick.elapsed then s
      else
        let past := deadlinePast s r.start (segOf s k r.seg)
        let todo := r.shares.filter (fun x => x.status.isNone && !x.failed.isEmpty)
        let s := (todo.filter (fun x => !outUp s x.out)).foldl (fun s x => endShare k r.pass r.seg x.out stLinkLost s) s
        let s := if past then (todo.filter (fun x => outUp s x.out)).foldl (fun s x => endShare k r.pass r.seg x.out stLate s) s else s
        let s := modRun k r.pass r.seg (fun r => { r with closed := none, last := s.tick.elapsed, shares := r.shares.map (fun x =>
          if x.status.isNone && !x.failed.isEmpty then
            { x with repair := x.failed, failed := [], attempts := x.attempts + 1 } else x) }) s
        settleSeg k r.pass r.seg s
    | none => s)

/-! ### Life of a stream (R498, R523, R524) -/

/-- A stream enters Starting: passes from 0, no grants. -/
def streamFresh (k : Fin 64) (s : State) : State :=
  modStream k (fun x => { x with nextPass := 0, lastPass := 0, passes := [], segs := [], grants := [], balance := [], allowance := 0 }) s

/-- A stream enters On: with a period, its first pass is the lowest one not yet due (R501). -/
def streamOn (k : Fin 64) (s : State) : State :=
  modStream k (fun x =>
    if x.period = 0 then x
    else
      let gap := (nowTick s - x.baseTick).toNat
      { x with nextPass := if gap < 2 ^ 47 then BitVec.ofNat 32 (ceilDiv gap x.period) else 0 }) s

/-- A stream enters Stopping: what has not started ends with a status (R523). -/
def streamStop (st : BitVec 8) (k : Fin 64) (s : State) : State :=
  let x := streamOf' s k
  let s := x.starts.foldl (fun s d => complete d.1 st 0 s) (modStream k (fun x => { x with starts := [] }) s)
  x.passes.foldl (fun s p => (upFrom p.next (x.program.length - p.next)).foldl (fun s i => skipSeg k p.num i st s) s) s

/-- A stopped stream has nothing left open. -/
def streamIdle (s : State) (k : Fin 64) : Bool := (streamOf' s k).segs.isEmpty && (streamOf' s k).passes.isEmpty

/-- Grants still held are released when a stream leaves Stopping (R508). -/
def streamRelease (k : Fin 64) (s : State) : State :=
  bump (streamPage k.val) 9 (streamOf' s k).grants.length (modStream k (fun x => { x with grants := [], balance := [] }) s)

/-- Step 7 of Table 2-6 for the streams (R512, R527). -/
def refillStreams (s : State) : State :=
  { s with streams.s := tblMap {} (fun _ x =>
      { x with allowance := fullAllowance s.streams.phi x }) s.streams.s }

end Machine
end Sys2Proof
end

