-- ==== Sys2Proof/Machine/Tick.lean ====
section
/-!
DEFINITION. The fabric tick (chapter 02): election of the master, alignment, lock, holdover and steps.
-/
namespace Sys2Proof
namespace Machine

/-- tick_upstream_en of a link (R26). -/
def upstreamEn (s : State) (l : LinkId) : Bool := bit (reg s .portEdge l.val) 1

/-- tick_priority (Table 20-10): 0 while the part drains (R709). -/
def tickPriority (s : State) : BitVec 4 := if s.attic.draining then 0 else BitVec.ofNat 4 (fld (reg s .atticTick) 0 4)
def tickSource (s : State) : Bool := bit (reg s .atticTick) 4

/-- What a link last heard. -/
def heardOf (s : State) (l : LinkId) : Heard := tblGet {} s.tick.heard l.val
def setHeard (l : LinkId) (h : Heard) (s : State) : State := { s with tick.heard := tblSet {} s.tick.heard l.val h }

/-- Candidate `a` ranks before `b`: higher priority, then lower node identifier (R24). -/
def better (a b : Master) : Bool := b.prio < a.prio || (a.prio = b.prio && a.node < b.node)

/-- The masters announced on enabled links, with their link and the module's hops from them; more than 7 hops is out of reach,
and what a follower tells of the module itself is no other master (R24, R26, R35). -/
def candidates (s : State) : List (LinkId × Master × Nat) :=
  allLinks.filterMap (fun l =>
    match upstreamEn s l, (heardOf s l).ann with
    | true, some (a, _) =>
      if a.hops.toNat + 1 ≤ 7 && a.masterPriority ≠ 0 && a.masterNode ≠ myNode s then
        some (l, ⟨a.masterNode, a.masterPriority⟩, a.hops.toNat + 1) else none
    | _, _ => none)

/-- Best candidate heard. -/
def bestHeard (s : State) : Option Master :=
  (candidates s).foldl (fun b c => match b with
    | none => some c.2.1
    | some m => some (if better c.2.1 m then c.2.1 else m)) none

/-- The link with the fewest hops, then of lowest number (R25). -/
def nearest (cs : List (LinkId × Master × Nat)) : Option (LinkId × Nat) :=
  cs.foldl (fun b c => match b with
    | none => some (c.1, c.2.2)
    | some x => if c.2.2 < x.2 then some (c.1, c.2.2) else some x) none

/-- Upstream link toward a master (R25). -/
def upstreamFor (s : State) (m : Master) : Option (LinkId × Nat) := nearest ((candidates s).filter (fun c => c.2.1 = m))

/-- The link carries markers: its last one came in this tick or the one before (R38; the span is the model's reading of "within
2 ticks", log 112). -/
def carries (s : State) (l : LinkId) : Bool :=
  match (heardOf s l).mark with
  | some (_, _, t) => decide (ageOf s t ≤ 1)
  | none => false

/-- Upstream link toward a master among the links that carry its markers (R25, R38). -/
def freshFor (s : State) (m : Master) : Option (LinkId × Nat) :=
  nearest ((candidates s).filter (fun c => c.2.1 = m && carries s c.1))

/-- The module itself as a candidate: with priority above 0, once its start-up wait is over (R24, R719). -/
def selfCandidate (s : State) : Option Master :=
  if s.tick.settled && tickPriority s ≠ 0 then some ⟨myNode s, tickPriority s⟩ else none

/-- Takes mastership without stepping: a step that waits is dropped, and a tick that it had lengthened ends no earlier than the slot
it is in; a master counts as holding lock (R29, R719). -/
def becomeMaster (m : Master) (s : State) : State :=
  { s with tick.master := some m, tick.isMaster := true, tick.hops := 0, tick.upstream := none, tick.locked := true,
           tick.holdover := false, tick.lost := false, tick.errOk := false, tick.lastAnn := s.tick.elapsed, tick.step := none,
           tick.len := max 1024 s.tick.slot }

/-- Elapsed tick of the newest announce of a master's node on an enabled link (R28). -/
def newestAnn (s : State) (n : BitVec 12) : BitVec 48 :=
  allLinks.foldl (fun b l => match upstreamEn s l, (heardOf s l).ann with
    | true, some (a, t) => if a.masterNode = n && decide (ageOf s t < ageOf s b) then t else b
    | _, _ => b) (s.tick.elapsed + 1)

/-- Follows a master on its best upstream link (R25). -/
def followMaster (m : Master) (l : LinkId) (hops : Nat) (s : State) : State :=
  let same := !s.tick.isMaster && (match s.tick.master with
    | some x => x.node = m.node
    | none => false)
  let up := same && s.tick.upstream = some l
  { s with tick.master := some m, tick.isMaster := false, tick.hops := BitVec.ofNat 3 hops, tick.upstream := some l,
           tick.locked := same && s.tick.locked, tick.within := if same then s.tick.within else 0,
           tick.errOk := up && s.tick.errOk, tick.holdover := if up then s.tick.holdover else false, tick.lost := up && s.tick.lost,
           tick.lastAnn := if same then s.tick.lastAnn else newestAnn s m.node }

/-- The module follows nobody and is not master: it runs free (R35). -/
def runFree (s : State) : State :=
  { s with tick.master := none, tick.isMaster := false, tick.hops := 0, tick.upstream := none, tick.locked := false,
           tick.holdover := false, tick.lost := false, tick.errOk := false }

/-- The master followed, while no announce within reach says otherwise of its node (R28). -/
def current (s : State) : Option Master :=
  match s.tick.isMaster, s.tick.master with
  | false, some m => if (candidates s).any (fun c => c.2.1.node = m.node) then none else some m
  | _, _ => none

/-- The master followed is announced only from more than 7 hops (R35). -/
def outOfReach (s : State) : Bool :=
  match current s with
  | some m => allLinks.any (fun l => match upstreamEn s l, (heardOf s l).ann with
      | true, some (a, _) => a.masterNode = m.node
      | _, _ => false)
  | none => false

/-- The best of the masters heard and the one followed, which stays until R28 or R35 drops it. -/
def bestOther (s : State) : Option Master :=
  match bestHeard s, if outOfReach s then none else current s with
  | some b, some m => some (if better b m then b else m)
  | some b, none => some b
  | none, c => c

/-- Follows a master on its upstream link, one that carries its markers before any other; a master that no link announces any more is
followed as it is (R25, R28, R38). -/
def follow (m : Master) (s : State) : State :=
  match freshFor s m, upstreamFor s m with
  | some (l, h), _ => followMaster m l h s
  | none, some (l, h) => followMaster m l h s
  | none, none => s

/-- The election of R24 and R25 over what the module holds. -/
def elect (s : State) : State :=
  if !s.tick.settled then s
  else match selfCandidate s, bestOther s with
    | some me, some b => if better b me then follow b s else if s.tick.isMaster then s else becomeMaster me s
    | some me, none => if s.tick.isMaster then s else becomeMaster me s
    | none, some b => follow b s
    | none, none => runFree s

/-- ANNOUNCE_RECEIVE (R24, R26, R28): takes an announce on an enabled link and elects. -/
def execAnnounceReceive (l : LinkId) (a : Announce) (s : State) : Out :=
  if !upstreamEn s l then .next s
  else
    let s := setHeard l { heardOf s l with ann := some (a, s.tick.elapsed) } s
    let s := elect s
    .next (if s.tick.master = some ⟨a.masterNode, a.masterPriority⟩ then { s with tick.lastAnn := s.tick.elapsed } else s)

/-- The difference by which the follower's edge is early, in 0.0625 ns: twice rx - tx_p - delay in 0.125 ns (R32). -/
def markError (m : Marker) (echo : Int) (rx txf : Nat) : Int :=
  2 * (rx : Int) - 2 * m.txOffset.toNat - (echo + rx - txf)

/-- The edge moves by at most 0.125 ns in a tick (R32). -/
def edgeMove (err : Int) : Int := max (-2) (min 2 err)

/-- Applies the error of a tick (R32, R33). -/
def applyError (err : Int) (s : State) : State :=
  { s with tick.error := err, tick.errOk := true, tick.errAt := some s.tick.elapsed, tick.edge := s.tick.edge + edgeMove err,
           tick.corr := edgeMove err, tick.within := if err.natAbs ≤ 8 then s.tick.within + 1 else 0,
           tick.beyond := if 16 < err.natAbs then s.tick.beyond + 1 else 0 }

/-- The marker that the module sent on a link in this tick (R30). -/
def sentMark (s : State) (l : LinkId) : Option Marker :=
  match tblGet none s.tick.txMark l.val with
  | some (m, t) => if t = s.tick.elapsed then some m else none
  | none => none

/-- Timestamps a marker that arrived (R31): the echo of the next announce is the time from the own marker of the same tick
(Table 2-3), and a link whose tick_upstream_en is 1 keeps the marker (R26). -/
def stampMark (l : LinkId) (m : Marker) (rx : Nat) (s : State) : State :=
  let h := heardOf s l
  let h := match sentMark s l with
    | some x => { h with echo := some ((rx : Int) - x.txOffset.toNat) }
    | none => h
  setHeard l (if upstreamEn s l then { h with mark := some (m, rx, s.tick.elapsed) } else h) s

/-- TICK_MARKER_RECEIVE (R26, R31, R32): timestamps a peer's marker; the first of a tick from the upstream link steers the edge. -/
def execTickMarkerReceive (l : LinkId) (m : Marker) (rx : Nat) (s : State) : Out :=
  let t := stampMark l m rx s
  if upstreamEn s l && s.tick.upstream = some l && !s.tick.isMaster && s.tick.errAt ≠ some s.tick.elapsed then
    match (heardOf s l).ann, sentMark s l with
    | some (a, _), some x => .next (applyError (markError m (signed 16 a.echo.toNat) rx x.txOffset.toNat) t)
    | _, _ => .next t
  else .next t

/-- MASTER_ANNOUNCE_TIMEOUT (R28): after 256 ticks without an announce of the master, drops it and elects again. -/
def execMasterAnnounceTimeout (s : State) : Out :=
  match s.tick.master with
  | some m =>
    if !s.tick.isMaster && decide (256 ≤ ageOf s s.tick.lastAnn) then
      let heard := tblMap {} (fun _ (h : Heard) => match h.ann with
        | some (a, _) => if a.masterNode = m.node then { h with ann := none } else h
        | none => h) s.tick.heard
      .next (elect (runFree { s with tick.heard := heard, tick.lastAnn := s.tick.elapsed }))
    else .next s
  | none => .next s

/-- LOCK_DECLARED (R33, R37): at the first tick numbered 29 mod 64 after 64 ticks within 0.5 ns. DESIGN CHOICE (log 112): the error must
still be within 0.5 ns then. -/
def execLockDeclared (s : State) : Out :=
  .next (if s.tick.slot = 0 && !s.tick.isMaster && s.tick.upstream.isSome && !s.tick.locked && decide (64 ≤ s.tick.within)
      && hits s 64 29 then { s with tick.locked := true, tick.beyond := 0 } else s)

/-- LOCK_LOST (R33): the error has exceeded 1 ns in 8 consecutive ticks. -/
def execLockLost (s : State) : Out :=
  .next (if s.tick.locked && !s.tick.isMaster && decide (8 ≤ s.tick.beyond) then
    { s with tick.locked := false, tick.within := 0 } else s)

/-- Enters holdover (R38, R39, R48). -/
def enterHoldover (s : State) : State :=
  if s.tick.holdover then s else { s with tick.holdover := true, tick.holdSince := s.tick.elapsed }

/-- TICK_LOSS (R40): after 16,384 ticks of holdover the part declares tick loss and runs free. DESIGN CHOICE (log 112): its markers go on
saying holdover = 1, with locked = 0. -/
def execTickLoss (s : State) : Out :=
  if s.tick.holdover && !s.tick.lost && decide (16384 ≤ ageOf s s.tick.holdSince) then
    let last := match s.tick.master with
      | some m => m.node.toNat
      | none => 0
    .next (raiseEv 0x18 0 last 0 (bumpModule 8 { s with tick.lost := true, tick.locked := false }))
  else .next s

/-- The master's tick number when its marker arrived, from the marker and the link's announce. -/
def markerTick (a : Announce) (m : Marker) : BitVec 48 := a.tickHigh ++ m.tickLow

/-- Slots by which a step lengthens the tick: the next edge then meets the master's (R42). DESIGN CHOICE (log 112): where the edges are
aligned and only the numbers differ, which would take 0 or 1,024 slots, it is 1. -/
def stepExt (err : Int) : Nat :=
  let e := ((err / 16) % 1024).toNat
  if e = 0 then 1 else e

/-- TICK_STEP (R42): a follower that is not locked and lies more than 64 ns off, or holds another tick number, lengthens its
tick once and adopts the master's number at the edge. The error is one found against its present upstream link. -/
def execTickStep (s : State) : Out :=
  match s.tick.upstream with
  | none => .next s
  | some l =>
    match (heardOf s l).ann, (heardOf s l).mark with
    | some (a, _), some (m, _, at_) =>
      let mt := markerTick a m + (s.tick.elapsed - at_)
      if !s.tick.locked && !s.tick.isMaster && s.tick.step.isNone && s.tick.errOk
          && (decide (1024 < s.tick.error.natAbs) || mt ≠ nowTick s) then
        let ext := stepExt s.tick.error
        let adopt := if s.tick.error < 0 then mt + 2 else mt + 1
        .next { s with tick.step := some ⟨BitVec.ofNat 10 ext, adopt⟩, tick.len := 1024 + ext }
      else .next s
    | _, _ => .next s

/-- TICK_IN_EDGE (R47): a master with tick_source 1 aligns its edge to TICK_IN; `early` is how early its own edge is, in
0.0625 ns. -/
def execTickInEdge (early : Int) (s : State) : Out :=
  .next (if s.tick.isMaster && tickSource s then
    { s with tick.edge := s.tick.edge + edgeMove early, tick.corr := edgeMove early, tick.error := early, tick.missed := 0,
             tick.holdover := false, tick.lost := false, tick.locked := true }
    else s)

/-- TICK_IN_MISSED (R48): after 8 consecutive missed edges the master enters holdover. -/
def execTickInMissed (s : State) : Out :=
  if s.tick.isMaster && tickSource s then
    let s := { s with tick.missed := s.tick.missed + 1 }
    .next (if 8 ≤ s.tick.missed then enterHoldover s else s)
  else .next s

/-- STARTUP_MASTERSHIP (R719): once the image has run for 256 ticks, the module elects for the first time. -/
def execStartupMastership (s : State) : Out :=
  match s.attic.runAt with
  | some t =>
    if !s.tick.settled && decide (256 ≤ ageOf s t) then .next (elect { s with tick.settled := true }) else .next s
  | none => .next s

/-- A link that failed carries no markers: its announces lapse, the next upstream link is taken, or holdover begins (R38).
-/
def tickLinkLost (l : LinkId) (s : State) : State :=
  let s := setHeard l {} s
  if s.tick.upstream ≠ some l then s
  else match s.tick.master with
    | some m => match freshFor s m with
      | some (k, h) => followMaster m k h s
      | none => enterHoldover { s with tick.upstream := none }
    | none => { s with tick.upstream := none }

/-- The upstream link at a boundary (R38): one that still carries markers is kept and ends a holdover; else the next link under R25
that carries them is taken without a step; else the part is in holdover. -/
def upstreamStep (s : State) : State :=
  match s.tick.isMaster, s.tick.master with
  | false, some m =>
    if (match s.tick.upstream with
        | some l => carries s l && upstreamEn s l
        | none => false) then { s with tick.holdover := false, tick.lost := false }
    else match freshFor s m with
      | some (l, h) => followMaster m l h s
      | none => enterHoldover s
  | _, _ => s

/-- The marker that the module sends on a link; the offset at which its block leaves is the implementation's (R30,
log 4). -/
def markerFor (s : State) (tx : Word) : Marker :=
  { tickLow := (nowTick s).setWidth 32, txOffset := tx.setWidth 14, hops := s.tick.hops, holdover := s.tick.holdover,
    locked := s.tick.locked }

/-- The announce that the module sends on a link (R30, Table 2-3). Before it has an echo to tell, the field is a free value. -/
def announceFor (s : State) (l : LinkId) (x : Word) : Announce :=
  let m := s.tick.master.getD ⟨0, 0⟩
  { tickHigh := ((nowTick s) >>> 32).setWidth 16, masterNode := m.node,
    masterPriority := if s.tick.isMaster then tickPriority s else m.prio, hops := s.tick.hops,
    echo := match (heardOf s l).echo with
      | some e => BitVec.ofInt 16 e
      | none => x.setWidth 16 }

/-- The lane layer of a fabric link is in service coding: in service or negotiating, and not in retraining (R26, R207, R652). -/
def serviceCoding (s : State) (l : LinkId) : Bool :=
  ((link s l).up || (link s l).nego) && !(link s l).retrain && !ethMode s l.val

/-- Step 1 of Table 2-6 on one link: its marker, and its announce when one is due, for its next frames (R26, R30, R44, R633). -/
def sendMark (s : State) (l : LinkId) : State :=
  let (f, s) := takeFree s
  let s := { s with tick.txMark := tblSet none s.tick.txMark l.val (some (markerFor s f, s.tick.elapsed)) }
  let s := modLink l (fun k => { k with markDue := true, annDue := hits s 64 32 }) s
  if hits s 64 32 then
    let (x, s) := takeFree s
    { s with tick.txAnn := tblSet none s.tick.txAnn l.val (some (announceFor s l x)) }
  else s

/-- Step 1 of Table 2-6: markers on every fabric link in service coding, announces in ticks numbered 32 mod 64 (R26, R30). -/
def sendMarkers (s : State) : State := (allLinks.filter (serviceCoding s)).foldl sendMark s

/-- Step 1 of Table 2-6: the tick number advances, or takes the number that a step adopts (R22, R42, R44). In holdover the edge goes on
moving by the last correction (R39). -/
def advanceTick (s : State) : State :=
  let s := { s with tick.slot := 0, tick.len := 1024, tick.prev := nowTick s, tick.elapsed := s.tick.elapsed + 1, tick.phase := 1,
                    tick.edge := if s.tick.holdover && !s.tick.lost then s.tick.edge + s.tick.corr else s.tick.edge }
  match s.tick.step with
  | none => s
  | some w =>
    let s := { s with tick.step := none, tick.offset := w.tick - s.tick.elapsed,
                      tick.steps := (s.tick.offset, s.tick.elapsed) :: s.tick.steps.filter (fun p => ageOf s p.2 < 8194),
                      tick.error := 0, tick.errOk := false }
    raiseEv 0x1A 0 (w.ext.toNat + w.tick.toNat <<< 16) 0 (bumpModule 7 s)

end Machine
end Sys2Proof
end

