-- ==== Sys2Proof/Machine/IsaWord.lean ====
section
/-!
DEFINITION. The Workroom's instruction word (Tables 16-1 to 16-4): its fields, its encoder and decoder, and what each opcode
allows in each field (R571, Tables 16-7 to 16-19).
-/
namespace Sys2Proof
namespace Machine

/-- The fields of an instruction word (Table 16-1); `low` holds bits [31:0]. -/
structure IWord where
  cls : BitVec 4
  op : BitVec 5
  pg : BitVec 3
  d : BitVec 5
  a : BitVec 5
  b : BitVec 5
  c : BitVec 5
  low : BitVec 32
  deriving DecidableEq, Repr

/-- The word's fields (R570). -/
def decodeWord (w : Word) : IWord :=
  { cls := w.extractLsb' 60 4, op := w.extractLsb' 55 5, pg := w.extractLsb' 52 3, d := w.extractLsb' 47 5,
    a := w.extractLsb' 42 5, b := w.extractLsb' 37 5, c := w.extractLsb' 32 5, low := w.extractLsb' 0 32 }

/-- The word that fields spell (R570). -/
def encodeWord (i : IWord) : Word :=
  ((((((i.cls ++ i.op) ++ i.pg) ++ i.d) ++ i.a) ++ i.b) ++ i.c) ++ i.low

/-! ### Forms (Table 16-2) -/

def IWord.fmt (i : IWord) : Nat := fld i.low 28 4
def IWord.rnd (i : IWord) : Nat := fld i.low 26 2
def IWord.sat (i : IWord) : Bool := bit i.low 25
def IWord.aux (i : IWord) : Nat := fld i.low 20 5
def IWord.imm (i : IWord) : Word := i.low.signExtend 64
def IWord.size (i : IWord) : Nat := fld i.low 29 3
def IWord.maux (i : IWord) : Nat := fld i.low 24 5
def IWord.off (i : IWord) : Word := (i.low.extractLsb' 0 24).signExtend 64
def IWord.sfmt (i : IWord) : Nat := fld i.low 16 4
def IWord.part (i : IWord) : Nat := fld i.low 14 2
def IWord.boff (i : IWord) : Int := signed 32 i.low.toNat

/-- What a register field names: nothing, an s, v or p register, or an even pair. -/
inductive Opnd where
  | none | s | v | p | sPair | vPair
  deriving DecidableEq, Repr

/-- The form of bits [31:0] and what the opcode allows in them: format codes, whether rnd and sat are used, the largest
aux, and the size codes. -/
inductive Form where
  | r (fmts : List Nat) (rnd sat : Bool) (aux : Nat)
  | i
  | m (sizes : List Nat)
  | cvt
  | bf (tfmt sfmt : Nat)
  | b
  deriving DecidableEq, Repr

/-- One opcode's row: its form, its registers, and whether it acts on lanes. -/
structure OpRule where
  form : Form
  d : Opnd := .none
  a : Opnd := .none
  b : Opnd := .none
  c : Opnd := .none
  lanes : Bool := false
  deriving DecidableEq, Repr

/-- Formats of VADD and its like (Table 16-8). -/
abbrev vFmts : List Nat := [0, 1, 2, 6, 7]

/-- An integer scalar opcode of form R, and one of form I. -/
def intR : OpRule := { form := .r [0] false false 0, d := .s, a := .s, b := .s }
def intI : OpRule := { form := .i, d := .s, a := .s }

/-- A vector opcode of form R. -/
def vecR (fmts : List Nat) (rnd sat : Bool) (a b c : Opnd) : OpRule :=
  { form := .r fmts rnd sat 0, d := .v, a := a, b := b, c := c, lanes := true }

/-- Rows of Table 16-7. -/
def scalarRule (op : Nat) : Option OpRule :=
  if op ≤ 0x0F then some intR
  else if op ≤ 0x16 then some intI
  else if op = 0x17 ∨ op = 0x18 then some { form := .i, d := .s }
  else if op ≤ 0x1B then some { intR with form := .r [0] true true 0 }
  else if op = 0x1C then some { intR with form := .r [0] true true 0, c := .s }
  else if op = 0x1D then some intR
  else some { form := .r [0] true false 0, d := .s, a := .s }

/-- Rows of Table 16-8. -/
def vectorRule (op : Nat) : Option OpRule :=
  match op with
  | 0x00 => some (vecR vFmts true true .v .v .none)
  | 0x01 => some (vecR vFmts true true .v .v .none)
  | 0x02 => some (vecR vFmts true true .v .v .none)
  | 0x03 => some (vecR vFmts true true .v .v .v)
  | 0x04 => some (vecR vFmts false false .v .v .none)
  | 0x05 => some (vecR vFmts false false .v .v .none)
  | 0x06 => some (vecR vFmts false true .v .none .none)
  | 0x07 => some (vecR vFmts false true .v .none .none)
  | 0x08 => some (vecR [6] false false .v .v .none)
  | 0x09 => some (vecR [6] false false .v .v .none)
  | 0x0A => some (vecR [6] false false .v .v .none)
  | 0x0B => some (vecR [6, 7] false false .v .v .none)
  | 0x0C => some (vecR [6, 7] false false .v .v .none)
  | 0x0D => some (vecR [6, 7] false false .v .v .none)
  | 0x0E => some (vecR [6] false false .v .none .none)
  | 0x0F => some (vecR [6] false false .s .none .none)
  | 0x10 => some (vecR [6] false false .none .none .none)
  | 0x11 => some { form := .r [6] false false 0, d := .s, a := .v, b := .s }
  | 0x12 => some { form := .r [6] false false 0, d := .v, a := .s, b := .s }
  | 0x13 => some (vecR [6] false false .v .v .none)
  | 0x14 => some (vecR [0] true true .v .none .none)
  | 0x15 => some (vecR [0] true true .v .none .none)
  | 0x16 => some (vecR [0] true true .v .none .none)
  | 0x17 => some (vecR [0] true true .v .none .none)
  | 0x18 => some (vecR [0] true true .v .none .none)
  | 0x19 => some (vecR [0] true true .v .none .none)
  | 0x1A => some (vecR [6] false false .v .none .none)
  | 0x1B => some (vecR [6] false false .v .none .none)
  | 0x1C => some (vecR [6] false false .v .v .p)
  | _ => none

/-- Rows of Table 16-9. -/
def predRule (op : Nat) : Option OpRule :=
  match op with
  | 0x00 => some { form := .r [0, 6] false false 6, d := .p, a := .v, b := .v, lanes := true }
  | 0x01 => some { form := .r [0, 6] false false 6, d := .p, a := .v, b := .s, lanes := true }
  | 0x02 => some { form := .r [0] false false 0, d := .p, a := .p, b := .p }
  | 0x03 => some { form := .r [0] false false 0, d := .p, a := .p, b := .p }
  | 0x04 => some { form := .r [0] false false 0, d := .p, a := .p, b := .p }
  | 0x05 => some { form := .r [0] false false 0, d := .p, a := .p }
  | 0x06 => some { form := .r [0] false false 0, d := .p }
  | 0x07 => some { form := .r [0] false false 0, d := .p }
  | 0x08 => some { form := .r [0] false false 0, d := .p, a := .p }
  | 0x09 => some { form := .r [0] false false 0, d := .s, a := .p }
  | 0x0A => some { form := .r [0] false false 0, d := .p, a := .s }
  | 0x0B => some { form := .r [0] false false 3, d := .s, a := .p }
  | 0x0C => some { form := .r [0] false false 3, d := .p, a := .s }
  | _ => none

/-- Rows of Tables 16-10 to 16-13. -/
def convRule (op : Nat) : Option OpRule :=
  match op with
  | 0x00 => some { form := .cvt, d := .v, a := .v, c := .v, lanes := true }
  | 0x01 => some { form := .bf 0 0, d := .v, a := .v, lanes := true }
  | 0x02 => some { form := .bf 6 0, d := .v, a := .v, b := .v, lanes := true }
  | 0x03 => some { form := .bf 0 6, d := .v, a := .v, b := .v, lanes := true }
  | _ => none

def dotRule (op : Nat) : Option OpRule :=
  match op with
  | 0x00 => some { form := .r [1, 2, 3, 4, 5, 7] true true 1, d := .v, a := .vPair, b := .vPair, c := .v, lanes := true }
  | 0x01 => some { form := .r [1, 2, 3, 4, 5, 7] true true 1, d := .v, a := .vPair, b := .s, c := .v, lanes := true }
  | _ => none

def redRule (op : Nat) : Option OpRule :=
  match op with
  | 0x00 => some { form := .r [0, 6] true true 0, d := .s, a := .v, lanes := true }
  | 0x01 => some { form := .r [0, 6] false false 0, d := .s, a := .v, lanes := true }
  | 0x02 => some { form := .r [0, 6] false false 0, d := .s, a := .v, lanes := true }
  | 0x03 => some { form := .r [0, 6] false false 0, d := .s, a := .v, lanes := true }
  | 0x04 => some { form := .r [0, 6] false false 0, d := .s, a := .v, lanes := true }
  | 0x05 => some { form := .r [0, 6] true true 0, d := .v, a := .v, lanes := true }
  | _ => none

/-- Rows of Tables 16-14 and 16-15. -/
def memRule (op : Nat) : Option OpRule :=
  match op with
  | 0x00 => some { form := .m [0, 1, 2, 3], d := .s, a := .s }
  | 0x01 => some { form := .m [0, 1, 2, 3], d := .s, a := .s }
  | 0x02 => some { form := .m [0, 1, 2, 3], d := .s, a := .s }
  | 0x03 => some { form := .m [0, 1, 2, 4], d := .v, a := .s, lanes := true }
  | 0x04 => some { form := .m [0, 1, 2, 4], d := .v, a := .s, lanes := true }
  | 0x05 => some { form := .m [0, 1, 2], d := .v, a := .s, b := .s, lanes := true }
  | 0x06 => some { form := .m [0, 1, 2], d := .v, a := .s, b := .s, lanes := true }
  | 0x07 => some { form := .m [0, 1, 2], d := .v, a := .s, lanes := true }
  | 0x08 => some { form := .m [0, 1, 2], d := .v, a := .s, lanes := true }
  | _ => none

def atomRule (op : Nat) : Option OpRule :=
  match op with
  | 0x00 => some { form := .m [3], d := .s, a := .s, b := .s }
  | 0x01 => some { form := .m [3], d := .s, a := .s, b := .s }
  | 0x02 => some { form := .m [3], d := .s, a := .s, b := .s, c := .s }
  | 0x03 => some { form := .m [5], d := .sPair, a := .s, b := .sPair, c := .sPair }
  | 0x04 => some { form := .m [2], d := .s, a := .s, b := .s }
  | 0x05 => some { form := .m [1], d := .s, a := .s, b := .s }
  | _ => none

/-- Rows of Tables 16-17 and 16-19. -/
def syncRule (op : Nat) : Option OpRule :=
  match op with
  | 0x00 => some { form := .r [0] false false 2 }
  | 0x01 => some { form := .r [0] false false 2 }
  | 0x02 => some { form := .r [0] false false 0, d := .s, a := .s, b := .s, c := .s }
  | 0x03 => some { form := .r [0] false false 4, d := .s }
  | _ => none

def ctlRule (op : Nat) : Option OpRule :=
  match op with
  | 0x00 => some { form := .b }
  | 0x01 => some { form := .b, a := .s }
  | 0x02 => some { form := .b, a := .s }
  | 0x03 => some { form := .b, a := .p }
  | 0x04 => some { form := .b, a := .p }
  | 0x05 => some { form := .b, d := .s }
  | 0x06 => some { form := .r [0] false false 0, a := .s }
  | 0x07 => some { form := .r [0] false false 0 }
  | 0x08 => some { form := .r [0] false false 0 }
  | 0x09 => some { form := .b, a := .s }
  | _ => none

/-- The row of an opcode; none for a reserved class or op (Table 16-4). -/
def opRule (cls op : Nat) : Option OpRule :=
  match cls with
  | 0 => scalarRule op
  | 1 => vectorRule op
  | 2 => predRule op
  | 3 => convRule op
  | 4 => dotRule op
  | 5 => redRule op
  | 6 => memRule op
  | 7 => atomRule op
  | 8 => syncRule op
  | 9 => ctlRule op
  | _ => none

/-! ### R571 -/

/-- A register field holds what the opcode allows. -/
def opndOk (o : Opnd) (v : BitVec 5) : Bool :=
  match o with
  | .none => v = 0
  | .s => true
  | .v => true
  | .p => decide (v.toNat < 8)
  | .sPair => v.toNat % 2 = 0
  | .vPair => v.toNat % 2 = 0

/-- Elements per lane of a format (Table 16-5). -/
def perLane (fmt : Nat) : Nat :=
  match fmt with
  | 0 => 1
  | 1 => 2
  | 2 => 2
  | 3 => 4
  | 4 => 4
  | 5 => 8
  | 6 => 1
  | 7 => 4
  | _ => 1

/-- The part field of CVT (R580). -/
def partOk (t s part : Nat) : Bool :=
  let ns := perLane s
  let nt := perLane t
  if nt ≤ ns then decide (part < ns / nt) else decide (part < nt / ns)

/-- An MXFP4 conversion has an FP32 side for a target (R581). -/
def cvtOk (t s : Nat) : Bool := decide (t < 8) && decide (s < 8) && (t ≠ 5 || s = 0)

/-- Bits [31:0] hold what the opcode allows. -/
def formOk (f : Form) (i : IWord) : Bool :=
  match f with
  | .r fmts rnd sat aux => fmts.contains i.fmt && (rnd || i.rnd = 0) && (sat || !i.sat) && decide (i.aux ≤ aux) && fld i.low 0 20 = 0
  | .i => true
  | .m sizes => sizes.contains i.size && i.maux = 0
  | .cvt => cvtOk i.fmt i.sfmt && partOk i.fmt i.sfmt i.part && i.aux = 0 && fld i.low 0 14 = 0
  | .bf t s => i.fmt = t && i.sfmt = s && i.rnd = 0 && !i.sat && i.part = 0 && decide (i.aux ≤ 1) && fld i.low 0 14 = 0
  | .b => true

/-- An aux that only some formats use (R585), and a c field that only MXFP4 uses (R581, R585). -/
def extraOk (i : IWord) : Bool :=
  if i.cls = 4 then (i.aux = 0 || i.fmt = 3 || i.fmt = 4) && (i.c = 0 || i.fmt = 5)
  else if i.cls = 3 ∧ i.op = 0 then i.c = 0 || i.fmt = 5 || i.sfmt = 5
  else true

/-- The instruction keeps R571 under its opcode's row. -/
def wordOk (r : OpRule) (i : IWord) : Bool :=
  opndOk r.d i.d && opndOk r.a i.a && opndOk r.b i.b && opndOk r.c i.c && (r.lanes || i.pg = 0) && formOk r.form i && extraOk i

end Machine
end Sys2Proof
end

