-- ==== Sys2Proof/Machine/IsaAlu.lean ====
section
/-!
DEFINITION. The element arithmetic of the Workroom's instructions (chapter 16): scalars, packed lanes, comparisons,
conversions, dot products and reductions. A result comes with the flags of R577 that it sets.
-/
namespace Sys2Proof
namespace Machine

/-! ### Lanes (R572) -/

/-- Elements of a lane. -/
def laneElems (fmt : Nat) (x : BitVec 32) : List Nat :=
  (upFrom 0 (perLane fmt)).map (fun k => fld x (fmtWidth fmt * k) (fmtWidth fmt))

/-- A lane from its elements. -/
def laneOf (fmt : Nat) (es : List Nat) : BitVec 32 :=
  BitVec.ofNat 32 ((es.zip (upFrom 0 es.length)).foldl (fun n e => n + (e.1 % 2 ^ fmtWidth fmt) <<< (fmtWidth fmt * e.2)) 0)

/-- The flags of a list of results. -/
def orFlags {α : Type} (xs : List (α × FpFlags)) : FpFlags := xs.foldl (fun g x => g ||| x.2) 0

/-- A lane operation made of an element operation on up to three operands. -/
def lane3 (fmt : Nat) (f : Nat → Nat → Nat → Nat × FpFlags) (x y z : BitVec 32) : BitVec 32 × FpFlags :=
  let rs := ((laneElems fmt x).zip ((laneElems fmt y).zip (laneElems fmt z))).map (fun e => f e.1 e.2.1 e.2.2)
  (laneOf fmt (rs.map (·.1)), orFlags rs)

/-! ### Integers (R576) -/

/-- An exact integer result in `w` bits: wrapped, or clamped when sat is 1. -/
def intFin (w : Nat) (sat : Bool) (n : Int) : Nat × FpFlags :=
  if sat then
    let (c, g) := clampInt (-(2 : Int) ^ (w - 1)) (2 ^ (w - 1) - 1) n
    ((c % (2 : Int) ^ w).toNat, g)
  else ((n % (2 : Int) ^ w).toNat, 0)

/-! ### Element operations of the vector class (Table 16-8) -/

def elemAdd (fmt : Nat) (mode : Rnd) (sat : Bool) (a b _ : Nat) : Nat × FpFlags :=
  match fmtOf fmt with
  | some f => fpAdd f mode sat a b
  | none => intFin (fmtWidth fmt) sat (signed (fmtWidth fmt) a + signed (fmtWidth fmt) b)

def elemSub (fmt : Nat) (mode : Rnd) (sat : Bool) (a b _ : Nat) : Nat × FpFlags :=
  match fmtOf fmt with
  | some f => fpSub f mode sat a b
  | none => intFin (fmtWidth fmt) sat (signed (fmtWidth fmt) a - signed (fmtWidth fmt) b)

def elemMul (fmt : Nat) (mode : Rnd) (sat : Bool) (a b _ : Nat) : Nat × FpFlags :=
  match fmtOf fmt with
  | some f => fpMul f mode sat a b
  | none => intFin (fmtWidth fmt) sat (signed (fmtWidth fmt) a * signed (fmtWidth fmt) b)

def elemFma (fmt : Nat) (mode : Rnd) (sat : Bool) (a b c : Nat) : Nat × FpFlags :=
  match fmtOf fmt with
  | some f => fpFma f mode sat a b c
  | none => intFin (fmtWidth fmt) sat (signed (fmtWidth fmt) a * signed (fmtWidth fmt) b + signed (fmtWidth fmt) c)

/-- Minimum or maximum, −0 below +0; a NaN gives the canonical NaN (R575). -/
def elemMinMax (isMax : Bool) (fmt : Nat) (a b _ : Nat) : Nat × FpFlags :=
  match fmtOf fmt with
  | some f => (fpMinMax f isMax a b, 0)
  | none =>
    let x := signed (fmtWidth fmt) a
    let y := signed (fmtWidth fmt) b
    (if isMax then (if x < y then b else a) else (if y < x then b else a), 0)

/-- Absolute value; the integer minimum gives itself, or the maximum with sat = 1. -/
def elemAbs (fmt : Nat) (sat : Bool) (a _ _ : Nat) : Nat × FpFlags :=
  match fmtOf fmt with
  | some f => (if (decodeFp f a).isNan then f.nanPat else a % 2 ^ (f.width - 1), 0)
  | none => intFin (fmtWidth fmt) sat (signed (fmtWidth fmt) a).natAbs

/-- Negation. -/
def elemNeg (fmt : Nat) (sat : Bool) (a _ _ : Nat) : Nat × FpFlags :=
  match fmtOf fmt with
  | some f => (if (decodeFp f a).isNan then f.nanPat else (a + 2 ^ (f.width - 1)) % 2 ^ f.width, 0)
  | none => intFin (fmtWidth fmt) sat (-(signed (fmtWidth fmt) a))

/-- Shifts by the operand modulo the width. -/
def elemShl (fmt : Nat) (a b _ : Nat) : Nat × FpFlags :=
  let w := fmtWidth fmt
  ((a <<< (b % w)) % 2 ^ w, 0)
def elemShr (fmt : Nat) (a b _ : Nat) : Nat × FpFlags := (a >>> (b % fmtWidth fmt), 0)
def elemSar (fmt : Nat) (a b _ : Nat) : Nat × FpFlags :=
  let w := fmtWidth fmt
  (((signed w a / (2 : Int) ^ (b % w)) % (2 : Int) ^ w).toNat, 0)

/-! ### Comparisons (R579) -/

/-- The comparison that aux selects, on FP32 or INT32 patterns. -/
def compare32 (fmt aux : Nat) (a b : Nat) : Bool :=
  if fmt = 6 then
    let x := signed 32 a
    let y := signed 32 b
    match aux with
    | 0 => x = y
    | 1 => x ≠ y
    | 2 => x < y
    | 3 => x ≤ y
    | 4 => y < x
    | 5 => y ≤ x
    | _ => false
  else
    let x := decodeFp fp32 a
    let y := decodeFp fp32 b
    match aux with
    | 0 => x.eqv y
    | 1 => !x.isNan && !y.isNan && !x.eqv y
    | 2 => x.lt y
    | 3 => x.lt y || x.eqv y
    | 4 => y.lt x
    | 5 => y.lt x || x.eqv y
    | _ => x.isNan || y.isNan

/-! ### Conversions (R580 to R582) -/

/-- One element converted from `s` to `t`, with the MXFP4 scale of its lane (R362 to R365, R356); between integer formats
R576 applies. -/
def cvtElem (s t : Nat) (mode : Rnd) (sat : Bool) (scale pat : Nat) : Nat × FpFlags :=
  if s = 5 then elemPat t mode sat (mxValue scale pat)
  else if (s = 6 || s = 7) && (t = 6 || t = 7) then intFin (fmtWidth t) sat (signed (fmtWidth s) pat)
  else elemPat t mode sat (elemValue s pat)

/-- A lane converted into the destination lane `old` (R580). -/
def cvtLane (s t : Nat) (mode : Rnd) (sat : Bool) (part scale : Nat) (x old : BitVec 32) : BitVec 32 × FpFlags :=
  let ns := perLane s
  let nt := perLane t
  if nt ≤ ns then
    let rs := (((laneElems s x).drop (part * nt)).take nt).map (cvtElem s t mode sat scale)
    (laneOf t (rs.map (·.1)), orFlags rs)
  else
    let rs := (laneElems s x).map (cvtElem s t mode sat scale)
    let es := laneElems t old
    (laneOf t (es.take (part * ns) ++ rs.map (·.1) ++ es.drop (part * ns + ns)), orFlags rs)

/-- The field that BFPQ writes for a value at exponent `e` (R375, R376, R582); `free` stands where the rules give no
mantissa (log 2). -/
def bfpField (k e pat free : Nat) : Nat :=
  let sign := bitsOf pat 31 1 * 2 ^ k
  let free := free % 2 ^ k
  if e = 0xFF then sign + (if bexp pat ≠ 255 then 0 else if pat % 2 ^ 23 = 0 then 2 ^ k - 1 else 2 ^ k - 2)
  else if e = 0 || bexp pat = 255 then sign + free
  else
    let m := (skimMants k e [pat]).headD 0
    if m < 2 ^ k then sign + m else if e = 254 then sign + (2 ^ k - 1) else sign + free

/-- The FP32 pattern that BFPD writes (R374, R376). -/
def bfpValue (k e field : Nat) : Nat × FpFlags :=
  let f := field % 2 ^ (k + 1)
  ((encodeFp fp32 .rne false (decodeB k (e % 256) (decide (2 ^ k ≤ f)) (f % 2 ^ k))).1, 0)

/-! ### Dot product (R583 to R585) -/

/-- The format that DOT takes b in (R585). -/
def dotFmtB (fmt aux : Nat) : Nat := if aux = 1 then (if fmt = 3 then 4 else 3) else fmt

/-- Value of an operand element, under its scale for MXFP4. -/
def dotVal (fmt scale pat : Nat) : Fp := if fmt = 5 then mxValue scale pat else elemValue fmt pat

/-- One lane of a dot product: the accumulator `acc`, the elements of a and of b, and the lane of vc. -/
def dotLane (fmt aux : Nat) (mode : Rnd) (sat : Bool) (acc : BitVec 32) (as bs : List Nat) (vc : BitVec 32) : BitVec 32 × FpFlags :=
  if fmt = 7 then
    let n := (as.zip bs).foldl (fun (n : Int) e => n + signed 8 e.1 * signed 8 e.2) (signed 32 acc.toNat)
    let r := intFin 32 sat n
    (BitVec.ofNat 32 r.1, r.2)
  else
    let xs := as.map (dotVal fmt (fld vc 0 8))
    let ys := bs.map (dotVal (dotFmtB fmt aux) (fld vc 8 8))
    let z := decodeFp fp32 acc.toNat
    let r := finishFp fp32 mode sat (z :: (xs ++ ys)) (sumFp mode (z :: (xs.zip ys).map (fun e => e.1.mul e.2)))
    (BitVec.ofNat 32 r.1, r.2)

/-! ### Reductions (R586 to R588) -/

/-- A present or absent input of the tree. -/
abbrev Node := Option (Nat × Nat)

/-- One level of the tree: neighbours combined, a single present input passed on. -/
def treeLevel (f : Nat × Nat → Nat × Nat → (Nat × Nat) × FpFlags) : List Node → List Node × FpFlags
  | x :: y :: t =>
    let (rest, g) := treeLevel f t
    match x, y with
    | some a, some b =>
      let r := f a b
      (some r.1 :: rest, g ||| r.2)
    | some a, none => (some a :: rest, g)
    | none, y => (y :: rest, g)
  | [x] => ([x], 0)
  | [] => ([], 0)

/-- `n` levels of the tree. -/
def tree (f : Nat × Nat → Nat × Nat → (Nat × Nat) × FpFlags) : Nat → List Node → List Node × FpFlags
  | 0, xs => (xs, 0)
  | n + 1, xs =>
    let (ys, g) := treeLevel f xs
    let (zs, h) := tree f n ys
    (zs, g ||| h)

/-- The sum node of RADD. -/
def addNode (fmt : Nat) (mode : Rnd) (sat : Bool) (a b : Nat × Nat) : (Nat × Nat) × FpFlags :=
  let r := elemAdd fmt mode sat a.1 b.1 0
  ((r.1, a.2), r.2)

/-- RADD (R586, R587): +0 with no active lane. -/
def reduceAdd (fmt : Nat) (mode : Rnd) (sat : Bool) (xs : List Node) : Nat × FpFlags :=
  let (r, g) := tree (addNode fmt mode sat) 8 xs
  (match r.head? with
    | some (some a) => if fmt = 0 && (decodeFp fp32 a.1).isNan then fp32.nanPat else a.1
    | _ => 0, g)

/-- Value and index of a minimum or maximum (R587): the lowest NaN lane, else the lowest lane of the extreme value. -/
def reduceMinMax (isMax : Bool) (fmt : Nat) (xs : List Node) : Nat × Nat :=
  let act := xs.filterMap id
  let isNan := fun (p : Nat) => fmt = 0 && (decodeFp fp32 p).isNan
  match act.find? (fun x => isNan x.1) with
  | some x => (fp32.nanPat, x.2)
  | none =>
    match act with
    | [] => (if fmt = 0 then (if isMax then 0xFF800000 else 0x7F800000) else (if isMax then 0x80000000 else 0x7FFFFFFF), 0)
    | x :: t => t.foldl (fun best y =>
        let r := (elemMinMax isMax fmt best.1 y.1 0).1
        if r = best.1 then best else y) x

/-- VSCAN (R588): running sums of the active lanes; an inactive lane gives none. -/
def scanSums (fmt : Nat) (mode : Rnd) (sat : Bool) : List Node → Option Nat → List (Option Nat) × FpFlags
  | [], _ => ([], 0)
  | none :: t, acc =>
    let (r, g) := scanSums fmt mode sat t acc
    (none :: r, g)
  | some x :: t, none =>
    let p := if fmt = 0 && (decodeFp fp32 x.1).isNan then fp32.nanPat else x.1
    let (r, g) := scanSums fmt mode sat t (some p)
    (some p :: r, g)
  | some x :: t, some a =>
    let y := elemAdd fmt mode sat a x.1 0
    let (r, g) := scanSums fmt mode sat t (some y.1)
    (some y.1 :: r, y.2 ||| g)

/-! ### Scalars (Table 16-7) -/

/-- Low 32 bits as FP32, result zero-extended. -/
def scalarFp (f : Nat → Nat → Nat → Nat × FpFlags) (a b c : Word) : Word × FpFlags :=
  let r := f (fld a 0 32) (fld b 0 32) (fld c 0 32)
  (BitVec.ofNat 64 r.1, r.2)

/-- FP32 of a signed 64-bit integer (R365). -/
def intToFp (mode : Rnd) (a : Word) : Word × FpFlags :=
  let r := encodeFp fp32 mode false (fpOfInt a.toInt)
  (BitVec.ofNat 64 r.1, r.2)

/-- Signed 64-bit integer of an FP32 (R364). -/
def fpToWord (mode : Rnd) (a : Word) : Word × FpFlags :=
  let r := fpToInt mode (-(2 : Int) ^ 63) (2 ^ 63 - 1) (decodeFp fp32 (fld a 0 32))
  (BitVec.ofInt 64 r.1, r.2)

end Machine
end Sys2Proof
end

