-- ==== Sys2Proof/Machine/Threads.lean ====
section
/-!
DEFINITION. Hardware threads of the Workroom (chapters 15 and 16): their registers, fetching, the conditions of an issue,
faults, the end of a run and its report, and the paths of memory accesses.
-/
namespace Sys2Proof
namespace Machine

/-! ### Kernels, runs, threads -/

/-- Number of a hardware thread in the table of threads. -/
def thrKey (t : Thr) : Nat := 32 * t.array.val + t.hw.val

/-- The thread of that number. -/
def thrOfKey (n : Nat) : Thr :=
  ⟨⟨n / 32 % 64, Nat.mod_lt _ (by decide)⟩, ⟨n % 32, Nat.mod_lt _ (by decide)⟩⟩

def thr (s : State) (t : Thr) : Thread := tblGet {} s.work.thr (thrKey t)
def setThr (t : Thr) (v : Thread) (s : State) : State := { s with work.thr := tblSet {} s.work.thr (thrKey t) v }
def modThr (t : Thr) (f : Thread → Thread) (s : State) : State := setThr t (f (thr s t)) s

def kernelAt (s : State) (k : Fin 256) : Kernel := tblGet {} s.work.kernel k.val
def setKernel (k : Fin 256) (v : Kernel) (s : State) : State := { s with work.kernel := tblSet {} s.work.kernel k.val v }
def modKernel (k : Fin 256) (f : Kernel → Kernel) (s : State) : State := setKernel k (f (kernelAt s k)) s

/-- The run of a kernel with that number. -/
def workRun (s : State) (k : Fin 256) (n : BitVec 32) : Option Run := (kernelAt s k).runs.find? (fun r => r.num = n)

/-- The run changed by `f`. -/
def modWorkRun (k : Fin 256) (n : BitVec 32) (f : Run → Run) (s : State) : State :=
  modKernel k (fun v => { v with runs := v.runs.map (fun r => if r.num = n then f r else r) }) s

/-- Threads that a run occupies. -/
def runThreads (s : State) (k : Fin 256) (n : BitVec 32) : List (Thr × Thread) :=
  (s.work.thr.filter (fun e => e.2.active && e.2.kernel = k && e.2.run = n)).map (fun e => (thrOfKey e.1, e.2))

/-- The fabric items that a thread has outstanding (R533). -/
def thrItems (s : State) (t : Thr) : List Own :=
  s.items.own.filter (fun o => match o.use with
    | .thread u _ => u = t
    | _ => false)

/-- The fabric items of a run are over: those of its threads and those of a library kernel's work (R543). -/
def runQuiet (s : State) (k : Fin 256) (n : BitVec 32) : Bool :=
  (runThreads s k n).all (fun e => (thrItems s e.1).isEmpty)
    && s.items.own.all (fun o => match o.use with
        | .lib j r => !(j = k && r = n)
        | _ => true)

/-! ### Registers (Table 15-1, R572) -/

def Thread.sReg (h : Thread) (n : Nat) : Word := tblGet 0 h.s n
def Thread.lane (h : Thread) (r l : Nat) : BitVec 32 := tblGet 0 h.v (256 * r + l)
def Thread.pReg (h : Thread) (n : Nat) : BitVec 256 := tblGet 0 h.p n

def Thread.putS (h : Thread) (n : Nat) (x : Word) : Thread := { h with s := tblSet 0 h.s n x }
def Thread.putP (h : Thread) (n : Nat) (x : BitVec 256) : Thread := { h with p := tblSet 0 h.p n x }
def Thread.putLane (h : Thread) (r l : Nat) (x : BitVec 32) : Thread := { h with v := tblSet 0 h.v (256 * r + l) x }

/-- The lanes of register `r` that `mask` holds take the values of `f`; the others keep theirs (R573). -/
def Thread.putLanes (h : Thread) (r : Nat) (mask : BitVec 256) (f : Nat → BitVec 32) : Thread :=
  { h with v := (upFrom 0 256).foldl (fun v l => if bit mask l then tblSet 0 v (256 * r + l) (f l) else v) h.v }

/-- The sticky flags with more of them set (R577). -/
def Thread.flag (h : Thread) (g : FpFlags) : Thread := { h with flags := h.flags ||| g }

/-- The counter moves to the next instruction. -/
def Thread.next (h : Thread) : Thread := { h with pc := h.pc + 1 }

/-! ### The end of a run (R543, R553, R554, R567) -/

/-- Done record (Table 15-11). -/
def doneBytes (s : State) (r : Run) (st : BitVec 8) : List Byte :=
  leBytes 8 (r.num.toNat + st.toNat <<< 32 + r.gen.toNat <<< 48) ++ leBytes 8 ((nowTick s).toNat % 4294967296)

/-- Workroom port of the kernel: that of the lowest array of its mask (log 19). -/
def kernelPort (v : Kernel) : PortId := workPort (((upFrom 0 64).find? (fun a => bit v.arrays a)).getD 0)

/-- A done record could not be written: the failure is counted and raises an event (R554). -/
def doneFailed (k : Fin 256) (run : BitVec 32) (gen : BitVec 16) (st : BitVec 8) (s : State) : State :=
  raiseEv 0x42 k.val (run.toNat + st.toNat <<< 32) gen { s with work.doneFails := s.work.doneFails + 1 }

/-- Reports a run's outcome to its launcher (R554, R567). `partialBytes` is the payload of an ATTN_PARTIAL. -/
def reportRun (k : Fin 256) (v : Kernel) (r : Run) (partialBytes : List Byte) (s : State) : State :=
  let s := bump (kernelPage k.val) (16 + r.status.toNat) 1 s
  match r.by_ with
  | .desc d => complete d r.status (r.num.setWidth 64) (modFlight d (fun f => { f with gen := r.gen }) s)
  | .pkt en done =>
    if !en then s
    else
      let base : Packet := { opcode := 0x02, vc := reqVc 0x02, addr := done, tenant := v.tenant, ordered := true }
      match sendItem (kernelPort v) (workTags (kernelPort v)) base 16 (doneBytes s r r.status) (.done k r.num r.gen) s with
      | some s' => s'
      | none => doneFailed k r.num r.gen stNoRoom s
  | .query p _ _ _ =>
    if r.status = stOk then
      let ans : Packet := { answerTo s 0x91 p with itemLen := BitVec.ofNat 32 partialBytes.length }
      inject (kernelPort v) (withPayload partialBytes ans) s
    else sendFail (kernelPort v) r.status p s

/-- The run's hardware threads are free again. -/
def freeThreads (k : Fin 256) (n : BitVec 32) (s : State) : State :=
  { s with work.thr := tblMap {} (fun _ h => if h.active && h.kernel = k && h.run = n then { h with active := false } else h) s.work.thr }

/-- Takes a run off its kernel and reports it. -/
def endRun (k : Fin 256) (r : Run) (partialBytes : List Byte) (s : State) : State :=
  let v := kernelAt s k
  let s := modKernel k (fun v => { v with runs := v.runs.filter (fun x => x.num ≠ r.num) }) (freeThreads k r.num s)
  reportRun k v r partialBytes s

/-- A run ends once every thread has executed END or the run has faulted, and every access of its threads is performed or
has failed (R543, R554, R555). -/
def settleRun (k : Fin 256) (n : BitVec 32) (s : State) : State :=
  match workRun s k n with
  | none => s
  | some r =>
    if r.started && (r.status ≠ stOk || (runThreads s k n).all (fun e => e.2.ended)) && runQuiet s k n then endRun k r r.out s else s

/-- The barrier of a run: threads that wait in it go on when every thread has executed as many BARs or has ended (R596). -/
def settleBar (k : Fin 256) (n : BitVec 32) (s : State) : State :=
  let hs := runThreads s k n
  hs.foldl (fun s e =>
    if e.2.inBar && hs.all (fun x => x.2.ended || decide (e.2.bars ≤ x.2.bars)) then modThr e.1 (fun h => { h with inBar := false }) s else s) s

/-! ### Faults (R555 to R558) -/

/-- Detail of event 0x40 (Table 15-13). -/
def faultDetail (h : Thread) (t : Thr) (cause where_ : Nat) : Nat :=
  h.run.toNat + h.index <<< 32 + t.array.val <<< 43 + cause <<< 49 + (where_ % 2 ^ 64) <<< 64

/-- Status of a fault cause (Table 15-12); that of cause 0x05 is the item's. -/
def faultStatus (cause : Nat) : BitVec 8 :=
  match cause with
  | 0x01 => stBad
  | 0x02 => stDenied
  | 0x03 => stDenied
  | 0x04 => stDataError
  | 0x06 => stHalt
  | 0x07 => stTimeout
  | _ => stDenied

/-- A thread faults: its run has its status, its event is raised, and every thread of it stops (R555, R558). -/
def faultWith (t : Thr) (cause : Nat) (st : BitVec 8) (where_ : Nat) (s : State) : State :=
  let h := thr s t
  match workRun s h.kernel h.run with
  | none => s
  | some r =>
    if r.status ≠ stOk then settleRun h.kernel h.run s
    else
      let s := modWorkRun h.kernel h.run (fun r => { r with status := st }) s
      settleRun h.kernel h.run (raiseEv 0x40 h.kernel.val (faultDetail h t cause where_) r.gen s)

/-- A fault with the status of its cause. -/
def fault (t : Thr) (cause where_ : Nat) (s : State) : State := faultWith t cause (faultStatus cause) where_ s

/-! ### Issue (R528, R571, R574, R599) -/

/-- Byte of the array memories at which an array's memory begins. -/
def arrayBase (a : Nat) : Nat := a * 0x400000

/-- The thread may issue: its run goes on, and it waits for nothing. -/
def mayIssue (s : State) (h : Thread) : Bool :=
  h.active && !h.ended && !h.waitAck && !h.inBar
    && (match workRun s h.kernel h.run with
        | some r => r.started && r.status = stOk
        | none => false)

/-- A register that a field names waits for a fabric answer. -/
def busyField (h : Thread) (o : Opnd) (n : Nat) : Bool :=
  match o with
  | .s => h.busy.contains (.s n)
  | .v => h.busy.contains (.v n)
  | .sPair => h.busy.contains (.s n) || h.busy.contains (.s (n + 1))
  | .vPair => h.busy.contains (.v n) || h.busy.contains (.v (n + 1))
  | _ => false

/-- The instruction reads or writes a register that waits (R574); a gather and a scatter read v register a too. -/
def busyInstr (h : Thread) (r : OpRule) (i : IWord) : Bool :=
  busyField h r.d i.d.toNat || busyField h r.a i.a.toNat || busyField h r.b i.b.toNat || busyField h r.c i.c.toNat
    || (i.cls = 6 && (i.op = 7 || i.op = 8) && busyField h .v i.a.toNat)

/-- The instruction word at the thread's counter: outside the code region none and cause 0x08, in an uncorrectable word none
and cause 0x04. -/
def fetchInstr (s : State) (v : Kernel) (t : Thr) (h : Thread) : Nat × Option Word :=
  let a := arrayBase t.array.val + v.codeOff + 8 * h.pc
  if v.codeLen < 8 * h.pc + 8 then (0x08, none)
  else match placeRead s (.array a) 8 with
    | none => (0x04, none)
    | some bs => (0, some (BitVec.ofNat 64 (leNat bs)))

/-- Counter of an issue (Table 23-4, kind 6): vector instructions are those of the classes that act on lanes (log 25). -/
def issueWord (cls : Nat) : Nat := if 1 ≤ cls ∧ cls ≤ 5 then 4 else 5

/-- The thread's next instruction issues when it is opcode `op` of class `cls`, and `body` is its effect. An instruction that
may not be fetched, is reserved or breaks R571 faults its run; one of another opcode, or one whose operands are not ready, is
not due (log 1). -/
def issue (t : Thr) (cls op : Nat) (body : Kernel → IWord → Thread → State → Option State) (s : State) : State :=
  let h := thr s t
  if !mayIssue s h then s
  else
    let v := kernelAt s h.kernel
    match fetchInstr s v t h with
    | (c, none) =>
      if c = 0x04 then
        let a := globalAddr (myNode s) (0x020000000000 + arrayBase t.array.val + v.codeOff + 8 * h.pc)
        fault t c a.toNat (raiseEv 0x16 6 (a.toNat + stDataError.toNat <<< 64) 0 s)
      else fault t c h.pc s
    | (_, some w) =>
      let i := decodeWord w
      match opRule i.cls.toNat i.op.toNat with
      | none => fault t 0x01 h.pc s
      | some r =>
        if i.cls.toNat ≠ cls || i.op.toNat ≠ op then s
        else if !wordOk r i then fault t 0x01 h.pc s
        else if busyInstr h r i then s
        else match body v i h s with
          | none => s
          | some s' => bump (kernelPage h.kernel.val) (issueWord cls) 1 s'

/-- An instruction whose effect is on its thread's registers alone; the counter moves on. -/
def onThread (t : Thr) (cls op : Nat) (f : IWord → Thread → Thread) (s : State) : Out :=
  .next (issue t cls op (fun _ i h s => some (setThr t (f i h).next s)) s)

/-! ### Memory accesses (R531, R589 to R593) -/

/-- The path of an access (Table 15-3). -/
inductive MemPath where
  /-- the thread's own array memory, at that byte of it -/
  | direct (off : Nat)
  /-- the module's own Larder -/
  | stairs
  /-- another array's memory, or the counters, of the module's own node -/
  | node
  /-- another node -/
  | far
  /-- an offset that Table 5-7 reserves -/
  | reserved
  deriving DecidableEq, Repr

/-- Path that an address selects for a thread of array `arr`. -/
def memPath (s : State) (arr : Nat) (a : Word) : MemPath :=
  if addrNode a ≠ myNode s then .far
  else match regionOf (addrOff a) with
    | none => .reserved
    | some .larder => .stairs
    | some .array =>
      let o := addrOff a - 0x020000000000
      if o / 0x400000 = arr then .direct (o % 0x400000) else .node
    | some .counter => .node

/-- Where an access of `n` bytes lies that the part performs at once: its place, or the cause of the fault. -/
def accPlace (s : State) (t : Thr) (tenant : BitVec 8) (a : Word) (n : Nat) (pm : Permit) : Except Nat Place :=
  match memPath s t.array.val a with
  | .direct o => if o + n ≤ 0x400000 then .ok (.array (arrayBase t.array.val + o)) else .error 0x03
  | .reserved => .error 0x03
  | .far => .error 0x03
  | _ =>
    match localCheck s tenant a n pm with
    | .ok p => .ok p
    | .fail st => .error (if st = stHalt then 0x06 else 0x03)

/-- The lines and translations of an access over the back stairs (R399, R408). -/
def accCount (t : Thr) (wr : Bool) (tenant : BitVec 8) (a : Word) (p : Place) (s : State) : State :=
  translateAll s.route.top.num tenant (addrOff a) p
    (bump (kernelPage (thr s t).kernel.val) 6 (placeLines p).length (countPlace .work wr (some tenant) p s))

/-- Reads `n` bytes for a thread: the bytes or the cause of its fault. -/
def accRead (t : Thr) (tenant : BitVec 8) (a : Word) (n : Nat) (s : State) : Except Nat (List Byte) × State :=
  match accPlace s t tenant a n .rd with
  | .error c => (.error c, s)
  | .ok p =>
    let s := accCount t false tenant a p s
    match placeRead s p n with
    | some bs => (.ok bs, s)
    | none => (.error 0x04, foundBad 6 a p s)

/-- Writes bytes for a thread: none, or the cause of its fault. -/
def accWrite (t : Thr) (tenant : BitVec 8) (a : Word) (bs : List Byte) (s : State) : Option Nat × State :=
  match accPlace s t tenant a bs.length .wr with
  | .error c => (some c, s)
  | .ok p =>
    match placeWrite p bs (accCount t true tenant a p s) with
    | (s, true) => (none, s)
    | (s, false) => (some 0x04, foundBad 6 a p s)

/-- The bytes `a` to `a + n - 1` share an aligned 8-byte word with an item that the thread has outstanding (R540). -/
def thrConflict (s : State) (t : Thr) (a : Word) (n : Nat) : Bool :=
  (thrItems s t).any (fun o => decide (a.toNat / 8 ≤ (o.addr.toNat + max 1 o.len - 1) / 8)
    && decide (o.addr.toNat / 8 ≤ (a.toNat + max 1 n - 1) / 8))

/-- The thread may start another fabric access to `n` bytes at `a` (R533, R540). -/
def mayFabric (s : State) (t : Thr) (a : Word) (n : Nat) : Bool :=
  decide ((thrItems s t).length < 16) && !thrConflict s t a n

/-- Counts a fabric item of a thread. -/
def countItem (t : Thr) (s : State) : State := bump (kernelPage (thr s t).kernel.val) 7 1 s

/-- Sends a thread's request and lets the thread go on; none while it may start no item or no tag is free. -/
def thrSend (t : Thr) (base : Packet) (len : Nat) (payload : List Byte) (acc : ThreadAcc) (f : Thread → Thread) (s : State) :
    Option State :=
  if mayFabric s t base.addr len then
    let port := workPort t.array.val
    match sendItem port (workTags port) base len payload (.thread t acc) s with
    | some s' => some (countItem t (modThr t f s'))
    | none => none
  else none

/-- A request packet of a thread before it has its tag. -/
def thrPacket (op : BitVec 8) (tenant : BitVec 8) (a : Word) : Packet := { opcode := op, vc := reqVc op, addr := a, tenant := tenant }

/-- Address of a scalar access, and base of a vector access (R589). -/
def accAddr (i : IWord) (h : Thread) : Word := h.sReg i.a.toNat + i.off

end Machine
end Sys2Proof
end

