-- ==== Sys2Proof/Machine/IsaRegs.lean ====
section
/-!
DEFINITION. Instructions whose effect is on their thread's registers alone: the scalar, vector, predicate, conversion,
dot-product and reduction classes (Tables 16-7 to 16-13).
-/
namespace Sys2Proof
namespace Machine

/-! ### Shapes of instructions -/

/-- sd from sa and sb. -/
def scalar2 (f : Word → Word → Word) (i : IWord) (h : Thread) : Thread :=
  h.putS i.d.toNat (f (h.sReg i.a.toNat) (h.sReg i.b.toNat))

/-- sd from sa and the immediate. -/
def scalarImm (f : Word → Word → Word) (i : IWord) (h : Thread) : Thread := h.putS i.d.toNat (f (h.sReg i.a.toNat) i.imm)

/-- sd from FP32 operands, with flags. -/
def scalarF (f : Rnd → Bool → Nat → Nat → Nat → Nat × FpFlags) (i : IWord) (h : Thread) : Thread :=
  let r := scalarFp (f (rndOf i.rnd) i.sat) (h.sReg i.a.toNat) (h.sReg i.b.toNat) (h.sReg i.c.toNat)
  (h.putS i.d.toNat r.1).flag r.2

/-- The guard predicate of an instruction (R573). -/
def guard (i : IWord) (h : Thread) : BitVec 256 := h.pReg i.pg.toNat

/-- Lanes that a mask holds, in ascending order. -/
def maskLanes (m : BitVec 256) : List Nat := (upFrom 0 256).filter (fun l => bit m l)

/-- The mask of the lanes that satisfy `f`. -/
def maskOf (f : Nat → Bool) : BitVec 256 := BitVec.ofNat 256 ((upFrom 0 256).foldl (fun n l => if f l then n + 2 ^ l else n) 0)

/-- vd from a function of the lane with its flags, over the active lanes. -/
def lanesF (f : Nat → BitVec 32 × FpFlags) (i : IWord) (h : Thread) : Thread :=
  let m := guard i h
  (h.putLanes i.d.toNat m (fun l => (f l).1)).flag ((maskLanes m).foldl (fun g l => g ||| (f l).2) 0)

/-- vd from an element operation on the lanes of va, vb and vc (R572). -/
def vector3 (f : Nat → Rnd → Bool → Nat → Nat → Nat → Nat × FpFlags) (i : IWord) (h : Thread) : Thread :=
  lanesF (fun l => lane3 i.fmt (f i.fmt (rndOf i.rnd) i.sat) (h.lane i.a.toNat l) (h.lane i.b.toNat l) (h.lane i.c.toNat l)) i h

/-- vd from whole lanes of va and vb. -/
def vectorBits (f : BitVec 32 → BitVec 32 → BitVec 32) (i : IWord) (h : Thread) : Thread :=
  h.putLanes i.d.toNat (guard i h) (fun l => f (h.lane i.a.toNat l) (h.lane i.b.toNat l))

/-- vd from a function of FP32 on each lane (R578). -/
def vectorFun (g : Fp → Fp) (i : IWord) (h : Thread) : Thread :=
  lanesF (fun l => let r := fpFun g (rndOf i.rnd) i.sat (h.lane i.a.toNat l).toNat; (BitVec.ofNat 32 r.1, r.2)) i h

/-- pd from pa and pb. -/
def pred2 (f : BitVec 256 → BitVec 256 → BitVec 256) (i : IWord) (h : Thread) : Thread :=
  h.putP i.d.toNat (f (h.pReg i.a.toNat) (h.pReg i.b.toNat))

/-- pd from a comparison of va with another value of each lane (R579). -/
def predCmp (b : Nat → BitVec 32) (i : IWord) (h : Thread) : Thread :=
  h.putP i.d.toNat (maskOf (fun l => bit (guard i h) l && compare32 i.fmt i.aux (h.lane i.a.toNat l).toNat (b l).toNat))

/-- The active lanes of va as inputs of a reduction. -/
def nodes (i : IWord) (h : Thread) : List Node :=
  (upFrom 0 256).map (fun l => if bit (guard i h) l then some ((h.lane i.a.toNat l).toNat, l) else none)

/-! ### Scalar class (Table 16-7) -/

/-- ADD: sd := sa + sb. -/
def execAdd (t : Thr) (s : State) : Out :=
  onThread t 0x0 0x00 (scalar2 (· + ·)) s

/-- SUB: sd := sa − sb. -/
def execSub (t : Thr) (s : State) : Out :=
  onThread t 0x0 0x01 (scalar2 (· - ·)) s

/-- MUL: sd := the low 64 bits of sa × sb. -/
def execMul (t : Thr) (s : State) : Out :=
  onThread t 0x0 0x02 (scalar2 (· * ·)) s

/-- MULHU: sd := the high 64 bits of the unsigned product. -/
def execMulhu (t : Thr) (s : State) : Out :=
  onThread t 0x0 0x03 (scalar2 (fun a b => BitVec.ofNat 64 ((a.toNat * b.toNat) >>> 64))) s

/-- AND: sd := sa and sb. -/
def execAnd (t : Thr) (s : State) : Out :=
  onThread t 0x0 0x04 (scalar2 (· &&& ·)) s

/-- OR: sd := sa or sb. -/
def execOr (t : Thr) (s : State) : Out :=
  onThread t 0x0 0x05 (scalar2 (· ||| ·)) s

/-- XOR: sd := sa xor sb. -/
def execXor (t : Thr) (s : State) : Out :=
  onThread t 0x0 0x06 (scalar2 (· ^^^ ·)) s

/-- SHL: left shift by sb mod 64. -/
def execShl (t : Thr) (s : State) : Out :=
  onThread t 0x0 0x07 (scalar2 (fun a b => a <<< (b.toNat % 64))) s

/-- SHR: logical right shift by sb mod 64. -/
def execShr (t : Thr) (s : State) : Out :=
  onThread t 0x0 0x08 (scalar2 (fun a b => a >>> (b.toNat % 64))) s

/-- SAR: arithmetic right shift by sb mod 64. -/
def execSar (t : Thr) (s : State) : Out :=
  onThread t 0x0 0x09 (scalar2 (fun a b => a.sshiftRight (b.toNat % 64))) s

/-- MIN: signed minimum. -/
def execMin (t : Thr) (s : State) : Out :=
  onThread t 0x0 0x0A (scalar2 (fun a b => if a.slt b then a else b)) s

/-- MAX: signed maximum. -/
def execMax (t : Thr) (s : State) : Out :=
  onThread t 0x0 0x0B (scalar2 (fun a b => if a.slt b then b else a)) s

/-- MINU: unsigned minimum. -/
def execMinu (t : Thr) (s : State) : Out :=
  onThread t 0x0 0x0C (scalar2 (fun a b => if a.ult b then a else b)) s

/-- MAXU: unsigned maximum. -/
def execMaxu (t : Thr) (s : State) : Out :=
  onThread t 0x0 0x0D (scalar2 (fun a b => if a.ult b then b else a)) s

/-- SLT: 1 when sa < sb signed, else 0. -/
def execSlt (t : Thr) (s : State) : Out :=
  onThread t 0x0 0x0E (scalar2 (fun a b => if a.slt b then 1 else 0)) s

/-- SLTU: 1 when sa < sb unsigned, else 0. -/
def execSltu (t : Thr) (s : State) : Out :=
  onThread t 0x0 0x0F (scalar2 (fun a b => if a.ult b then 1 else 0)) s

/-- ADDI: sd := sa + imm. -/
def execAddi (t : Thr) (s : State) : Out :=
  onThread t 0x0 0x10 (scalarImm (· + ·)) s

/-- ANDI: sd := sa and imm. -/
def execAndi (t : Thr) (s : State) : Out :=
  onThread t 0x0 0x11 (scalarImm (· &&& ·)) s

/-- ORI: sd := sa or imm. -/
def execOri (t : Thr) (s : State) : Out :=
  onThread t 0x0 0x12 (scalarImm (· ||| ·)) s

/-- XORI: sd := sa xor imm. -/
def execXori (t : Thr) (s : State) : Out :=
  onThread t 0x0 0x13 (scalarImm (· ^^^ ·)) s

/-- SHLI: left shift by imm mod 64. -/
def execShli (t : Thr) (s : State) : Out :=
  onThread t 0x0 0x14 (scalarImm (fun a b => a <<< (b.toNat % 64))) s

/-- SHRI: logical right shift by imm mod 64. -/
def execShri (t : Thr) (s : State) : Out :=
  onThread t 0x0 0x15 (scalarImm (fun a b => a >>> (b.toNat % 64))) s

/-- SARI: arithmetic right shift by imm mod 64. -/
def execSari (t : Thr) (s : State) : Out :=
  onThread t 0x0 0x16 (scalarImm (fun a b => a.sshiftRight (b.toNat % 64))) s

/-- LI: sd := imm. -/
def execLi (t : Thr) (s : State) : Out :=
  onThread t 0x0 0x17 (fun i h => h.putS i.d.toNat i.imm) s

/-- LIH: sd[63:32] := imm, taken unsigned; sd[31:0] kept. -/
def execLih (t : Thr) (s : State) : Out :=
  onThread t 0x0 0x18 (fun i h => h.putS i.d.toNat (i.low ++ (h.sReg i.d.toNat).setWidth 32)) s

/-- FADD: FP32 sa + sb. -/
def execFadd (t : Thr) (s : State) : Out :=
  onThread t 0x0 0x19 (scalarF (fun m z a b _ => fpAdd fp32 m z a b)) s

/-- FSUB: FP32 sa − sb. -/
def execFsub (t : Thr) (s : State) : Out :=
  onThread t 0x0 0x1A (scalarF (fun m z a b _ => fpSub fp32 m z a b)) s

/-- FMUL: FP32 sa × sb. -/
def execFmul (t : Thr) (s : State) : Out :=
  onThread t 0x0 0x1B (scalarF (fun m z a b _ => fpMul fp32 m z a b)) s

/-- FMA: FP32 sa × sb + sc with one rounding. -/
def execFma (t : Thr) (s : State) : Out :=
  onThread t 0x0 0x1C (scalarF (fun m z a b c => fpFma fp32 m z a b c)) s

/-- FLT: 1 when FP32 sa < sb, else 0; 0 with a NaN. -/
def execFlt (t : Thr) (s : State) : Out :=
  onThread t 0x0 0x1D (scalar2 (fun a b => if compare32 0 2 (fld a 0 32) (fld b 0 32) then 1 else 0)) s

/-- ITOF: FP32 of signed sa (R365). -/
def execItof (t : Thr) (s : State) : Out :=
  onThread t 0x0 0x1E (fun i h => let r := intToFp (rndOf i.rnd) (h.sReg i.a.toNat); (h.putS i.d.toNat r.1).flag r.2) s

/-- FTOI: signed 64-bit integer of FP32 sa (R364). -/
def execFtoi (t : Thr) (s : State) : Out :=
  onThread t 0x0 0x1F (fun i h => let r := fpToWord (rndOf i.rnd) (h.sReg i.a.toNat); (h.putS i.d.toNat r.1).flag r.2) s

/-! ### Vector class (Table 16-8) -/

/-- VCMPR's compression. -/
def compress (i : IWord) (h : Thread) : Thread :=
  let ls := maskLanes (guard i h)
  h.putLanes i.d.toNat (maskOf (fun l => decide (l < ls.length))) (fun l => h.lane i.a.toNat (ls.getD l 0))

/-- VEXPD's expansion. -/
def expand (i : IWord) (h : Thread) : Thread :=
  let ls := maskLanes (guard i h)
  h.putLanes i.d.toNat (guard i h) (fun l => h.lane i.a.toNat (ls.idxOf l))

/-- VADD: vd := va + vb. -/
def execVadd (t : Thr) (s : State) : Out :=
  onThread t 0x1 0x00 (vector3 elemAdd) s

/-- VSUB: vd := va − vb. -/
def execVsub (t : Thr) (s : State) : Out :=
  onThread t 0x1 0x01 (vector3 elemSub) s

/-- VMUL: vd := va × vb. -/
def execVmul (t : Thr) (s : State) : Out :=
  onThread t 0x1 0x02 (vector3 elemMul) s

/-- VFMA: vd := va × vb + vc with one rounding; integers wrap or clamp once. -/
def execVfma (t : Thr) (s : State) : Out :=
  onThread t 0x1 0x03 (vector3 elemFma) s

/-- VMIN: minimum, −0 below +0. -/
def execVmin (t : Thr) (s : State) : Out :=
  onThread t 0x1 0x04 (vector3 (fun f _ _ => elemMinMax false f)) s

/-- VMAX: maximum, −0 below +0. -/
def execVmax (t : Thr) (s : State) : Out :=
  onThread t 0x1 0x05 (vector3 (fun f _ _ => elemMinMax true f)) s

/-- VABS: absolute value; the integer minimum gives itself, or the maximum with sat = 1. -/
def execVabs (t : Thr) (s : State) : Out :=
  onThread t 0x1 0x06 (vector3 (fun f _ z => elemAbs f z)) s

/-- VNEG: negation. -/
def execVneg (t : Thr) (s : State) : Out :=
  onThread t 0x1 0x07 (vector3 (fun f _ z => elemNeg f z)) s

/-- VAND: bitwise and of lanes. -/
def execVand (t : Thr) (s : State) : Out :=
  onThread t 0x1 0x08 (vectorBits (· &&& ·)) s

/-- VOR: bitwise or. -/
def execVor (t : Thr) (s : State) : Out :=
  onThread t 0x1 0x09 (vectorBits (· ||| ·)) s

/-- VXOR: bitwise xor. -/
def execVxor (t : Thr) (s : State) : Out :=
  onThread t 0x1 0x0A (vectorBits (· ^^^ ·)) s

/-- VSHL: left shift by vb mod the width. -/
def execVshl (t : Thr) (s : State) : Out :=
  onThread t 0x1 0x0B (vector3 (fun f _ _ => elemShl f)) s

/-- VSHR: logical right shift by vb mod the width. -/
def execVshr (t : Thr) (s : State) : Out :=
  onThread t 0x1 0x0C (vector3 (fun f _ _ => elemShr f)) s

/-- VSAR: arithmetic right shift by vb mod the width. -/
def execVsar (t : Thr) (s : State) : Out :=
  onThread t 0x1 0x0D (vector3 (fun f _ _ => elemSar f)) s

/-- VMOV: vd := va. -/
def execVmov (t : Thr) (s : State) : Out :=
  onThread t 0x1 0x0E (vectorBits (fun a _ => a)) s

/-- VBCAST: every active lane := sa[31:0]. -/
def execVbcast (t : Thr) (s : State) : Out :=
  onThread t 0x1 0x0F (fun i h => h.putLanes i.d.toNat (guard i h) (fun _ => (h.sReg i.a.toNat).setWidth 32)) s

/-- VLANE: lane l := l. -/
def execVlane (t : Thr) (s : State) : Out :=
  onThread t 0x1 0x10 (fun i h => h.putLanes i.d.toNat (guard i h) (fun l => BitVec.ofNat 32 l)) s

/-- VEXT: sd := lane sb mod 256 of va, zero-extended. -/
def execVext (t : Thr) (s : State) : Out :=
  onThread t 0x1 0x11 (fun i h => h.putS i.d.toNat ((h.lane i.a.toNat ((h.sReg i.b.toNat).toNat % 256)).setWidth 64)) s

/-- VINS: lane sb mod 256 of vd := sa[31:0]. -/
def execVins (t : Thr) (s : State) : Out :=
  onThread t 0x1 0x12 (fun i h => h.putLane i.d.toNat ((h.sReg i.b.toNat).toNat % 256) ((h.sReg i.a.toNat).setWidth 32)) s

/-- VPERM: lane l := the lane of va that lane l of vb names, mod 256. -/
def execVperm (t : Thr) (s : State) : Out :=
  onThread t 0x1 0x13 (fun i h => h.putLanes i.d.toNat (guard i h) (fun l => h.lane i.a.toNat ((h.lane i.b.toNat l).toNat % 256))) s

/-- VEXP: e^va (R578). -/
def execVexp (t : Thr) (s : State) : Out :=
  onThread t 0x1 0x14 (vectorFun fpExp) s

/-- VEXP2: 2^va. -/
def execVexp2 (t : Thr) (s : State) : Out :=
  onThread t 0x1 0x15 (vectorFun fpExp2) s

/-- VLOG2: log2 va. -/
def execVlog2 (t : Thr) (s : State) : Out :=
  onThread t 0x1 0x16 (vectorFun fpLog2) s

/-- VRCP: 1 / va. -/
def execVrcp (t : Thr) (s : State) : Out :=
  onThread t 0x1 0x17 (vectorFun fpRcp) s

/-- VRSQRT: 1 / √va. -/
def execVrsqrt (t : Thr) (s : State) : Out :=
  onThread t 0x1 0x18 (vectorFun fpRsqrt) s

/-- VSQRT: √va. -/
def execVsqrt (t : Thr) (s : State) : Out :=
  onThread t 0x1 0x19 (vectorFun fpSqrt) s

/-- VCMPR: active lanes of va, in ascending order, to lanes 0 onward of vd; the other lanes of vd are kept. -/
def execVcmpr (t : Thr) (s : State) : Out :=
  onThread t 0x1 0x1A compress s

/-- VEXPD: lanes 0 onward of va, in ascending order, to the active lanes of vd. -/
def execVexpd (t : Thr) (s : State) : Out :=
  onThread t 0x1 0x1B expand s

/-- VSEL: lane l := va when bit l of pc is 1, else vb. -/
def execVsel (t : Thr) (s : State) : Out :=
  onThread t 0x1 0x1C (fun i h => h.putLanes i.d.toNat (guard i h) (fun l => if bit (h.pReg i.c.toNat) l then h.lane i.a.toNat l else h.lane i.b.toNat l)) s

/-! ### Predicate class (Table 16-9) -/

/-- A predicate with its 64-bit part `k` replaced. -/
def movePart (k : Nat) (x : Word) (p : BitVec 256) : BitVec 256 :=
  (p &&& ~~~((BitVec.allOnes 64).setWidth 256 <<< (64 * k))) ||| (x.setWidth 256 <<< (64 * k))

/-- PCMP: pd := the comparison of va with vb that aux selects. -/
def execPcmp (t : Thr) (s : State) : Out :=
  onThread t 0x2 0x00 (fun i h => predCmp (fun l => h.lane i.b.toNat l) i h) s

/-- PCMPS: pd := the comparison of va with sb[31:0]. -/
def execPcmps (t : Thr) (s : State) : Out :=
  onThread t 0x2 0x01 (fun i h => predCmp (fun _ => (h.sReg i.b.toNat).setWidth 32) i h) s

/-- PAND: pd := pa and pb. -/
def execPand (t : Thr) (s : State) : Out :=
  onThread t 0x2 0x02 (pred2 (· &&& ·)) s

/-- POR: pd := pa or pb. -/
def execPor (t : Thr) (s : State) : Out :=
  onThread t 0x2 0x03 (pred2 (· ||| ·)) s

/-- PXOR: pd := pa xor pb. -/
def execPxor (t : Thr) (s : State) : Out :=
  onThread t 0x2 0x04 (pred2 (· ^^^ ·)) s

/-- PNOT: pd := not pa. -/
def execPnot (t : Thr) (s : State) : Out :=
  onThread t 0x2 0x05 (pred2 (fun a _ => ~~~a)) s

/-- PSET: pd := all 256 bits set. -/
def execPset (t : Thr) (s : State) : Out :=
  onThread t 0x2 0x06 (pred2 (fun _ _ => BitVec.allOnes 256)) s

/-- PCLR: pd := all clear. -/
def execPclr (t : Thr) (s : State) : Out :=
  onThread t 0x2 0x07 (pred2 (fun _ _ => 0)) s

/-- PFIRST: pd := only the lowest set bit of pa. -/
def execPfirst (t : Thr) (s : State) : Out :=
  onThread t 0x2 0x08 (pred2 (fun a _ => a &&& -a)) s

/-- PCNT: sd := the number of set bits of pa. -/
def execPcnt (t : Thr) (s : State) : Out :=
  onThread t 0x2 0x09 (fun i h => h.putS i.d.toNat (BitVec.ofNat 64 (popCount (h.pReg i.a.toNat).toNat 256))) s

/-- PLT: pd := bits 0 to min(sa, 256) − 1 set, the rest clear. -/
def execPlt (t : Thr) (s : State) : Out :=
  onThread t 0x2 0x0A (fun i h => h.putP i.d.toNat (BitVec.ofNat 256 (2 ^ Nat.min (h.sReg i.a.toNat).toNat 256 - 1))) s

/-- PMOVS: sd := bits [64 aux + 63 : 64 aux] of pa. -/
def execPmovs (t : Thr) (s : State) : Out :=
  onThread t 0x2 0x0B (fun i h => h.putS i.d.toNat ((h.pReg i.a.toNat).extractLsb' (64 * i.aux) 64)) s

/-- PMOVP: bits [64 aux + 63 : 64 aux] of pd := sa; the other bits are kept. -/
def execPmovp (t : Thr) (s : State) : Out :=
  onThread t 0x2 0x0C (fun i h => h.putP i.d.toNat (movePart i.aux (h.sReg i.a.toNat) (h.pReg i.d.toNat))) s

/-! ### Conversions (Table 16-10) -/

/-- The lanes of run `g` that are active. -/
def runLanes (i : IWord) (h : Thread) (g : Nat) : List Nat := (upFrom (32 * g) 32).filter (fun l => bit (guard i h) l)

/-- Element `part` of a lane of MXFP4 replaced. -/
def putNibble (part x : Nat) (old : BitVec 32) : BitVec 32 := laneOf 5 ((laneElems 5 old).set part x)

/-- CVT of one run to MXFP4: elements into vd, the scale into bits [7:0] of vc (R581). -/
def cvtMxRun (i : IWord) (h : Thread) (out : Thread) (g : Nat) : Thread :=
  let ls := runLanes i h g
  let r := encodeMx (rndOf i.rnd) (ls.map (fun l => decodeFp fp32 (h.lane i.a.toNat l).toNat))
  let out := (ls.zip r.2).foldl (fun o e => (o.putLane i.d.toNat e.1 (putNibble i.part e.2.1 (o.lane i.d.toNat e.1))).flag e.2.2) out
  ls.foldl (fun o l => o.putLane i.c.toNat l ((o.lane i.c.toNat l).extractLsb' 8 24 ++ BitVec.ofNat 8 r.1)) out

/-- CVT (R580, R581). -/
def convert (i : IWord) (h : Thread) : Thread :=
  if i.fmt = 5 then (upFrom 0 8).foldl (cvtMxRun i h) h
  else lanesF (fun l => cvtLane i.sfmt i.fmt (rndOf i.rnd) i.sat i.part (fld (h.lane i.c.toNat l) 0 8) (h.lane i.a.toNat l)
      (h.lane i.d.toNat l)) i h

/-- Mantissa bits of BFPE, BFPQ and BFPD (R582). -/
def bfpK (i : IWord) : Nat := if i.aux = 0 then 7 else 11

/-- Block exponent of the run of lane `l`, inactive lanes taken as +0 (R582). -/
def bfpRunE (i : IWord) (h : Thread) (l : Nat) : Nat :=
  (encodeB (bfpK i) ((upFrom (32 * (l / 32)) 32).map (fun j => if bit (guard i h) j then (h.lane i.a.toNat j).toNat else 0))).1

/-- CVT: converts sfmt to tfmt (R580, R581). -/
def execCvt (t : Thr) (s : State) : Out :=
  onThread t 0x3 0x00 convert s

/-- BFPE: block exponents of runs of 32 lanes (R582). -/
def execBfpe (t : Thr) (s : State) : Out :=
  onThread t 0x3 0x01 (fun i h => h.putLanes i.d.toNat (guard i h) (fun l => BitVec.ofNat 32 (bfpRunE i h l))) s

/-- BFPQ: sign and mantissa under the exponent of vb (R582); where R375 and R376 give no mantissa for that exponent, its
bits are free values, one for each lane (log 2). -/
def execBfpq (t : Thr) (s : State) : Out :=
  .next (issue t 0x3 0x02 (fun _ i h s =>
    let f := fun l => BitVec.ofNat 32 (bfpField (bfpK i) (fld (h.lane i.b.toNat l) 0 8) (h.lane i.a.toNat l).toNat
      (Config.freeValue (s.free + l)).toNat)
    some (setThr t (h.putLanes i.d.toNat (guard i h) f).next { s with free := s.free + 256 })) s)

/-- BFPD: the value of a field under the exponent of vb (R582). -/
def execBfpd (t : Thr) (s : State) : Out :=
  onThread t 0x3 0x03 (fun i h => lanesF (fun l => let r := bfpValue (bfpK i) (fld (h.lane i.b.toNat l) 0 8) (h.lane i.a.toNat l).toNat; (BitVec.ofNat 32 r.1, r.2)) i h) s

/-! ### Dot product (Table 16-12) -/

/-- Elements of a register pair in a lane (R583). -/
def pairElems (fmt : Nat) (h : Thread) (r l : Nat) : List Nat := laneElems fmt (h.lane r l) ++ laneElems fmt (h.lane (r + 1) l)

/-- Elements of a scalar operand (R583). -/
def scalarElems (fmt : Nat) (x : Word) : List Nat :=
  (upFrom 0 (2 * perLane fmt)).map (fun k => fld x (fmtWidth fmt * k) (fmtWidth fmt))

/-- A dot product with the elements of b as given for each lane. -/
def dotWith (b : Nat → List Nat) (i : IWord) (h : Thread) : Thread :=
  lanesF (fun l => dotLane i.fmt i.aux (rndOf i.rnd) i.sat (h.lane i.d.toNat l) (pairElems i.fmt h i.a.toNat l) (b l)
    (h.lane i.c.toNat l)) i h

/-- DOT: vd := vd + Σ a × b, pairs from va and vb (R584). -/
def execDot (t : Thr) (s : State) : Out :=
  onThread t 0x4 0x00 (fun i h => dotWith (fun l => pairElems i.fmt h i.b.toNat l) i h) s

/-- DOTS: as DOT, b from sb in every lane. -/
def execDots (t : Thr) (s : State) : Out :=
  onThread t 0x4 0x01 (fun i h => dotWith (fun _ => scalarElems i.fmt (h.sReg i.b.toNat)) i h) s

/-! ### Cross-lane reduction (Table 16-13) -/

/-- A minimum or maximum, with its lane when `idx` (R587). -/
def reduceTo (isMax idx : Bool) (i : IWord) (h : Thread) : Thread :=
  let r := reduceMinMax isMax i.fmt (nodes i h)
  h.putS i.d.toNat (BitVec.ofNat 64 (r.1 + (if idx then r.2 <<< 32 else 0)))

/-- VSCAN (R588). -/
def scanTo (i : IWord) (h : Thread) : Thread :=
  let r := scanSums i.fmt (rndOf i.rnd) i.sat (nodes i h) none
  (h.putLanes i.d.toNat (guard i h) (fun l => BitVec.ofNat 32 ((r.1.getD l none).getD 0))).flag r.2

/-- RADD: the sum of the active lanes by the fixed tree (R586). -/
def execRadd (t : Thr) (s : State) : Out :=
  onThread t 0x5 0x00 (fun i h => let r := reduceAdd i.fmt (rndOf i.rnd) i.sat (nodes i h); (h.putS i.d.toNat (BitVec.ofNat 64 r.1)).flag r.2) s

/-- RMAX: the maximum (R587). -/
def execRmax (t : Thr) (s : State) : Out :=
  onThread t 0x5 0x01 (reduceTo true false) s

/-- RMIN: the minimum (R587). -/
def execRmin (t : Thr) (s : State) : Out :=
  onThread t 0x5 0x02 (reduceTo false false) s

/-- RMAXI: the maximum and its lane (R587). -/
def execRmaxi (t : Thr) (s : State) : Out :=
  onThread t 0x5 0x03 (reduceTo true true) s

/-- RMINI: the minimum and its lane (R587). -/
def execRmini (t : Thr) (s : State) : Out :=
  onThread t 0x5 0x04 (reduceTo false true) s

/-- VSCAN: inclusive prefix sums (R588). -/
def execVscan (t : Thr) (s : State) : Out :=
  onThread t 0x5 0x05 scanTo s

end Machine
end Sys2Proof
end

