-- ==== Sys2Proof/Machine/IsaControl.lean ====
section
/-!
DEFINITION. The synchronisation and control classes (Tables 16-17 and 16-19).
-/
namespace Sys2Proof
namespace Machine

/-! ### Synchronisation -/

/-- A fence of that scope has nothing to wait for (R542, R595): accesses to array memory and over the back stairs are performed
within their own commands, so that only scope global waits, for fabric items. -/
def fenceClear (scope : Nat) (s : State) (t : Thr) : Bool := scope ≠ 2 || (thrItems s t).isEmpty

/-- FENCE (R542, R595). -/
def execFence (t : Thr) (s : State) : Out :=
  .next (issue t 0x8 0x00 (fun _ i h s => if fenceClear i.aux s t then some (setThr t h.next s) else none) s)

/-- BAR (R596). -/
def execBar (t : Thr) (s : State) : Out :=
  .next (issue t 0x8 0x01 (fun _ i h s =>
    if fenceClear i.aux s t then
      some (settleBar h.kernel h.run (setThr t { h.next with bars := h.bars + 1, inBar := true } s))
    else none) s)

/-- Bytes of a LAUNCH payload with that header (R549). -/
def launchLen (hdr : List Byte) : Nat := 32 + leAt hdr 2 1

/-- LAUNCH's effect (R597): a payload above 256 bytes is malformed under R551, and no packet can carry it. -/
def launchFrom (t : Thr) (v : Kernel) (i : IWord) (h : Thread) (s : State) : Option State :=
  let p := h.sReg i.b.toNat
  let a := h.sReg i.a.toNat
  if p.toNat % 8 ≠ 0 then some (fault t 0x02 p.toNat s)
  else match memPath s t.array.val p with
    | .direct o =>
      if 0x400000 < o + 32 then some (fault t 0x03 p.toNat s)
      else match accRead t v.tenant p 32 s with
        | (.error c, s) => some (fault t c p.toNat s)
        | (.ok hdr, s) =>
          let n := launchLen hdr
          if 256 < n then some (setThr t (h.putS i.d.toNat (stDenied.setWidth 64)).next s)
          else match accRead t v.tenant p n s with
            | (.error c, s) => some (fault t c p.toNat s)
            | (.ok bs, s) =>
              let base : Packet := { thrPacket 0x10 v.tenant a with gen := (h.sReg i.c.toNat).setWidth 16 }
              if decide ((thrItems s t).length < 16) then
                match sendItem (workPort t.array.val) (workTags (workPort t.array.val)) base n bs (.thread t (.launch i.d.toNat)) s with
                | some s' => some (countItem t (modThr t (fun h => { h.next with waitAck := true }) s'))
                | none => none
              else none
    | _ => some (fault t 0x03 p.toNat s)

/-- LAUNCH, the instruction. -/
def execLaunchInstr (t : Thr) (s : State) : Out := .next (issue t 0x8 0x02 (launchFrom t) s)

/-- Nanosecond at which the thread's run started. -/
def runStartNs (s : State) (h : Thread) : Nat :=
  match workRun s h.kernel h.run with
  | some r => r.startNs
  | none => s.tick.ns

/-- Value that GETS writes (Table 16-16); a Workroom cycle is 0.625 ns (Table 15-1). -/
def getsValue (aux : Nat) (s : State) (h : Thread) : Word :=
  match aux with
  | 0 => (myNode s).setWidth 64
  | 1 => (nowTick s).setWidth 64
  | 2 => BitVec.ofNat 64 ((s.tick.ns - runStartNs s h) * 8 / 5)
  | _ => h.flags.setWidth 64

/-- GETS (R598). -/
def execGets (t : Thr) (s : State) : Out :=
  .next (issue t 0x8 0x03 (fun _ i h s =>
    let h' := h.putS i.d.toNat (getsValue i.aux s h)
    some (setThr t (if i.aux = 4 then { h' with flags := 0 } else h').next s)) s)

/-! ### Control -/

/-- The counter at the instruction's own index plus its offset (R599). -/
def Thread.branch (h : Thread) (i : IWord) : Thread :=
  { h with pc := (BitVec.ofNat 64 h.pc + i.imm).toNat }

/-- A branch taken when `c` holds. -/
def branchIf (c : IWord → Thread → Bool) (i : IWord) (h : Thread) : Thread := if c i h then h.branch i else h.next

/-- A control instruction: its thread's registers and counter alone. -/
def control (t : Thr) (op : Nat) (f : IWord → Thread → Thread) (s : State) : Out :=
  .next (issue t 0x9 op (fun _ i h s => some (setThr t (f i h) s)) s)

/-- BR: branches. -/
def execBr (t : Thr) (s : State) : Out := control t 0x00 (branchIf (fun _ _ => true)) s

/-- BZ: branches when sa is zero. -/
def execBz (t : Thr) (s : State) : Out := control t 0x01 (branchIf (fun i h => h.sReg i.a.toNat = 0)) s

/-- BNZ: branches when sa is not zero. -/
def execBnz (t : Thr) (s : State) : Out := control t 0x02 (branchIf (fun i h => h.sReg i.a.toNat ≠ 0)) s

/-- BPANY: branches when pa has any bit set. -/
def execBpany (t : Thr) (s : State) : Out := control t 0x03 (branchIf (fun i h => h.pReg i.a.toNat ≠ 0)) s

/-- BPNONE: branches when pa has no bit set. -/
def execBpnone (t : Thr) (s : State) : Out := control t 0x04 (branchIf (fun i h => h.pReg i.a.toNat = 0)) s

/-- CALL: sd := own index + 1, and branches. -/
def execCall (t : Thr) (s : State) : Out :=
  control t 0x05 (fun i h => (h.putS i.d.toNat (BitVec.ofNat 64 (h.pc + 1))).branch i) s

/-- RET: the counter := sa. -/
def execRet (t : Thr) (s : State) : Out := control t 0x06 (fun i h => { h with pc := (h.sReg i.a.toNat).toNat }) s

/-- END: the thread ends; the run may end with it (R554), and barriers no longer wait for it (R596). -/
def execEndThread (t : Thr) (s : State) : Out :=
  .next (issue t 0x9 0x07 (fun _ _ h s =>
    some (settleRun h.kernel h.run (settleBar h.kernel h.run (setThr t { h with ended := true } s)))) s)

/-- NOP: nothing but the next instruction. -/
def execNop (t : Thr) (s : State) : Out := control t 0x08 (fun _ h => h.next) s

/-- LOOP: sa := sa − 1, and branches when it is not zero. -/
def execLoop (t : Thr) (s : State) : Out :=
  control t 0x09 (fun i h => branchIf (fun i h => h.sReg i.a.toNat ≠ 0) i (h.putS i.a.toNat (h.sReg i.a.toNat - 1))) s

end Machine
end Sys2Proof
end

