-- ==== Sys2Proof/Machine/IsaMem.lean ====
section
/-!
DEFINITION. Instructions that reach memory: loads, stores and atomics (Tables 16-14 and 16-15), by the path that each address
selects (Table 15-3).
-/
namespace Sys2Proof
namespace Machine

/-- Bytes of a size code (Table 16-3). -/
def sizeBytes (c : Nat) : Nat :=
  match c with
  | 0 => 1
  | 1 => 2
  | 2 => 4
  | 3 => 8
  | 4 => 2
  | _ => 16

/-- Alignment of an access (R590): the 12-bit size is aligned to 2 bytes. -/
def misaligned (c : Nat) (a : Word) : Bool := a.toNat % sizeBytes c ≠ 0

/-! ### Scalar loads and stores -/

/-- The value that a scalar load writes (R590). -/
def loadValue (n : Nat) (sgn : Bool) (bs : List Byte) : Word :=
  if sgn then BitVec.ofInt 64 (signed (8 * n) (leNat bs)) else BitVec.ofNat 64 (leNat bs)

/-- A scalar load. -/
def scalarLoad (sgn : Bool) (t : Thr) (v : Kernel) (i : IWord) (h : Thread) (s : State) : Option State :=
  let a := accAddr i h
  let n := sizeBytes i.size
  if misaligned i.size a then some (fault t 0x02 a.toNat s)
  else match memPath s t.array.val a with
    | .far | .node =>
      thrSend t (thrPacket 0x01 v.tenant a) n [] (.load i.d.toNat n sgn)
        (fun h => { h.next with busy := h.busy ++ [.s i.d.toNat] }) s
    | _ =>
      match accRead t v.tenant a n s with
      | (.ok bs, s) => some (setThr t (h.putS i.d.toNat (loadValue n sgn bs)).next s)
      | (.error c, s) => some (fault t c a.toNat s)

/-- LD: sd := memory, zero-extended. -/
def execLd (t : Thr) (s : State) : Out := .next (issue t 0x6 0x00 (scalarLoad false t) s)

/-- LDS: sd := memory, sign-extended. -/
def execLds (t : Thr) (s : State) : Out := .next (issue t 0x6 0x01 (scalarLoad true t) s)

/-- A scalar store. -/
def scalarStore (t : Thr) (v : Kernel) (i : IWord) (h : Thread) (s : State) : Option State :=
  let a := accAddr i h
  let n := sizeBytes i.size
  let bs := leBytes n (h.sReg i.d.toNat).toNat
  if misaligned i.size a then some (fault t 0x02 a.toNat s)
  else match memPath s t.array.val a with
    | .far | .node => thrSend t (thrPacket 0x02 v.tenant a) n bs .store Thread.next s
    | _ =>
      match accWrite t v.tenant a bs s with
      | (none, s) => some (setThr t h.next s)
      | (some c, s) => some (fault t c a.toNat s)

/-- ST: memory := sd. -/
def execSt (t : Thr) (s : State) : Out := .next (issue t 0x6 0x02 (scalarStore t) s)

/-! ### Contiguous vector accesses (R589, R591) -/

/-- Nibbles of a lane of a size code (Table 16-3). -/
def laneNibbles (c : Nat) : Nat := if c = 4 then 3 else 2 * sizeBytes c

/-- Bytes from the first active lane to the last one: first byte and number; none with no active lane. -/
def vecSpan (c : Nat) (m : BitVec 256) : Option (Nat × Nat) :=
  let ls := maskLanes m
  match ls.head?, ls.getLast? with
  | some x, some y =>
    let lo := x * laneNibbles c / 2
    some (lo, (y * laneNibbles c + laneNibbles c - 1) / 2 + 1 - lo)
  | _, _ => none

/-- Nibble `j` of a contiguous store, none where its lane is inactive. -/
def storeNibble (c : Nat) (m : BitVec 256) (f : Nat → BitVec 32) (j : Nat) : Option Nat :=
  let w := laneNibbles c
  if bit m (j / w) && decide (j / w < 256) then some (fld (f (j / w)) (4 * (j % w)) 4) else none

/-- A byte of a contiguous store: none where no active lane holds a bit of it, else its two nibbles. -/
def storeByte (c : Nat) (m : BitVec 256) (f : Nat → BitVec 32) (b : Nat) : Option (Option Nat × Option Nat) :=
  match storeNibble c m f (2 * b), storeNibble c m f (2 * b + 1) with
  | none, none => none
  | x, y => some (x, y)

/-- The byte written over `old`. -/
def mergeByte (x : Option Nat × Option Nat) (old : Byte) : Byte :=
  BitVec.ofNat 8 ((x.1.getD (old.toNat % 16)) + 16 * (x.2.getD (old.toNat / 16)))

/-- The stretches of bytes that hold active lanes: first byte and its bytes. -/
def storeRuns : List (Nat × Option (Option Nat × Option Nat)) → List (Nat × List (Option Nat × Option Nat))
  | [] => []
  | (_, none) :: t => storeRuns t
  | (b, some x) :: t =>
    match storeRuns t with
    | (b', xs) :: r => if b' = b + 1 then (b, x :: xs) :: r else (b, [x]) :: (b', xs) :: r
    | [] => [(b, [x])]

/-- Both nibbles of the byte are written. -/
def fullByte (x : Option Nat × Option Nat) : Bool := x.1.isSome && x.2.isSome

/-- The lane of a contiguous load from the bytes that start at byte `lo`. -/
def loadLane (c lo : Nat) (bs : List Byte) (l : Nat) : BitVec 32 :=
  let w := laneNibbles c
  let n := l * w
  BitVec.ofNat 32 (bitsOf (leAt bs (n / 2 - lo) 5) (4 * (n % 2)) (4 * w))

/-- The first byte and the last byte of an access lie in one region, and in the array of the first where it is direct
(R591). -/
def oneRegion (s : State) (arr : Nat) (a : Word) (n : Nat) : Bool :=
  let z := a + BitVec.ofNat 64 (n - 1)
  addrNode a = addrNode z && (regionOf (addrOff a)).isSome && regionOf (addrOff a) = regionOf (addrOff z)
    && (match memPath s arr a with
        | .direct o => decide (o + n ≤ 0x400000)
        | _ => true)

/-- The active bytes of a span that a thread reads at once: each stretch of active bytes is one access, the others read as
zero. -/
def readRuns (t : Thr) (tenant : BitVec 8) (base : Word) : List (Nat × Nat) → State → Except (Nat × Nat) (Tbl Byte) × State
  | [], s => (.ok [], s)
  | (b, n) :: r, s =>
    let a := base + BitVec.ofNat 64 b
    match accRead t tenant a n s with
    | (.error c, s) => (.error (c, a.toNat), s)
    | (.ok bs, s) =>
      match readRuns t tenant base r s with
      | (.error e, s) => (.error e, s)
      | (.ok m, s) => (.ok (memWrite m b bs), s)

/-- Writes the stretches of a store at once; a byte written in half keeps its other half. -/
def writeRunsAt (t : Thr) (tenant : BitVec 8) (base : Word) : List (Nat × List (Option Nat × Option Nat)) → State → Option (Nat × Nat) × State
  | [], s => (none, s)
  | (b, xs) :: r, s =>
    let a := base + BitVec.ofNat 64 b
    let old : Except Nat (List Byte) × State :=
      if xs.all fullByte then (.ok [], s)
      else match accPlace s t tenant a xs.length .wr with
        | .error c => (.error c, s)
        | .ok p => match placeRead s p xs.length with
          | some bs => (.ok bs, s)
          | none => (.error 0x04, foundBad 6 a p s)
    match old with
    | (.error c, s) => (some (c, a.toNat), s)
    | (.ok bs, s) =>
      match accWrite t tenant a ((xs.zip (upFrom 0 xs.length)).map (fun e => mergeByte e.1 (bs.getD e.2 0))) s with
      | (some c, s) => (some (c, a.toNat), s)
      | (none, s) => writeRunsAt t tenant base r s

/-- The bytes of a span that active lanes hold, in stretches: first byte and length. -/
def activeRuns (c : Nat) (m : BitVec 256) (sp : Nat × Nat) : List (Nat × Nat) :=
  (storeRuns ((upFrom sp.1 sp.2).map (fun b => (b, storeByte c m (fun _ => 0) b)))).map (fun r => (r.1, r.2.length))

/-- VLD's effect. -/
def vectorLoad (t : Thr) (v : Kernel) (i : IWord) (h : Thread) (s : State) : Option State :=
  let base := accAddr i h
  let m := guard i h
  match vecSpan i.size m with
  | none => some (setThr t h.next s)
  | some sp =>
    let a := base + BitVec.ofNat 64 sp.1
    if misaligned i.size base then some (fault t 0x02 a.toNat s)
    else if !oneRegion s t.array.val a sp.2 then some (fault t 0x03 a.toNat s)
    else match memPath s t.array.val a with
      | .far | .node =>
        thrSend t (thrPacket 0x01 v.tenant a) sp.2 [] (.vload i.d.toNat i.size sp.1 m)
          (fun h => { h.next with busy := h.busy ++ [.v i.d.toNat] }) s
      | _ =>
        match readRuns t v.tenant base (activeRuns i.size m sp) s with
        | (.error e, s) => some (fault t e.1 e.2 s)
        | (.ok mem, s) =>
          let bs := memRead mem sp.1 sp.2
          some (setThr t (h.putLanes i.d.toNat m (loadLane i.size sp.1 bs)).next s)

/-- VLD: vd := contiguous memory. -/
def execVld (t : Thr) (s : State) : Out := .next (issue t 0x6 0x03 (vectorLoad t) s)

/-- The WR packets of a store whose active bytes lie in stretches (R592): one item, whose length counts the active bytes
(log 20). -/
def sendRuns (t : Thr) (tenant : BitVec 8) (base : Word) (lo : Nat) (runs : List (Nat × List Byte)) (s : State) : Option State :=
  let port := workPort t.array.val
  let r := workTags port
  let total := runs.foldl (fun n x => n + x.2.length) 0
  let a := base + BitVec.ofNat 64 lo
  match findTag s r.1 r.2 with
  | none => none
  | some tag =>
    let b0 : Packet := thrPacket 0x02 tenant a
    let b : Packet := { b0 with tag := BitVec.ofNat 16 tag, src := myNode s, dst := addrNode a, itemLen := BitVec.ofNat 32 total }
    let o : Own := { tag := BitVec.ofNat 16 tag, opcode := 0x02, dst := addrNode a, addr := a, len := total,
                     use := .thread t .store, sent := s.tick.elapsed, inp := port }
    let ps := runs.flatMap (fun x =>
      let x0 := base + BitVec.ofNat 64 x.1
      (piecesOf x0 x.2.length).map (fun c => withPayload (slice x.2 (c.1 - x0.toNat) c.2)
        { b with addr := BitVec.ofNat 64 c.1, last := false }))
    let ps := (ps.zip (upFrom 1 ps.length)).map (fun e => { e.1 with last := decide (e.2 = ps.length) })
    some (ps.foldl (fun s p => injectOwn port p s) { s with items.own := s.items.own ++ [o] })

/-- VST's effect. -/
def vectorStore (t : Thr) (v : Kernel) (i : IWord) (h : Thread) (s : State) : Option State :=
  let base := accAddr i h
  let m := guard i h
  let f := h.lane i.d.toNat
  match vecSpan i.size m with
  | none => some (setThr t h.next s)
  | some sp =>
    let a := base + BitVec.ofNat 64 sp.1
    let runs := storeRuns ((upFrom sp.1 sp.2).map (fun b => (b, storeByte i.size m f b)))
    if misaligned i.size base then some (fault t 0x02 a.toNat s)
    else if !oneRegion s t.array.val a sp.2 then some (fault t 0x03 a.toNat s)
    else match memPath s t.array.val a with
      | .far | .node =>
        if mayFabric s t a sp.2 then
          let (x, s') := takeFree s
          let bytes := runs.map (fun r => (r.1, r.2.map (fun e => mergeByte e (x.setWidth 8))))
          match sendRuns t v.tenant base sp.1 bytes s' with
          | some s'' => some (countItem t (setThr t h.next s''))
          | none => none
        else none
      | _ =>
        match writeRunsAt t v.tenant base runs s with
        | (none, s) => some (setThr t h.next s)
        | (some e, s) => some (fault t e.1 e.2 s)

/-- VST: contiguous memory := vd. In a store of the 12-bit size over the fabric, the half of a byte whose lane is inactive is a
free value (log 20). -/
def execVst (t : Thr) (s : State) : Out := .next (issue t 0x6 0x04 (vectorStore t) s)

/-! ### Strided, gather and scatter accesses -/

/-- The active lanes and their addresses (R589). -/
def laneAddrs (f : Nat → Word) (i : IWord) (h : Thread) : List (Nat × Word) :=
  (maskLanes (guard i h)).map (fun l => (l, accAddr i h + f l))

/-- Addresses of a strided access. -/
def strided (h : Thread) (i : IWord) (l : Nat) : Word := BitVec.ofNat 64 l * h.sReg i.b.toNat

/-- Addresses of a gather or scatter: the field a names the s register of the base and the v register of the offsets
(log 21). -/
def gathered (h : Thread) (i : IWord) (l : Nat) : Word := (h.lane i.a.toNat l).setWidth 64

/-- The lanes loaded in ascending order: each lane's value, or the cause and address of the first fault. -/
def readLanes (t : Thr) (v : Kernel) (c : Nat) : List (Nat × Word) → State → Except (Nat × Nat) (Tbl (BitVec 32)) × State
  | [], s => (.ok [], s)
  | (l, a) :: r, s =>
    if misaligned c a then (.error (0x02, a.toNat), s)
    else match accRead t v.tenant a (sizeBytes c) s with
      | (.error e, s) => (.error (e, a.toNat), s)
      | (.ok bs, s) =>
        match readLanes t v c r s with
        | (.error e, s) => (.error e, s)
        | (.ok m, s) => (.ok (tblSet 0 m l (BitVec.ofNat 32 (leNat bs))), s)

/-- The lanes stored in ascending order, so that the higher lane remains (R593). -/
def writeLanes (t : Thr) (v : Kernel) (c : Nat) (f : Nat → BitVec 32) : List (Nat × Word) → State → Option (Nat × Nat) × State
  | [], s => (none, s)
  | (l, a) :: r, s =>
    if misaligned c a then (some (0x02, a.toNat), s)
    else match accWrite t v.tenant a (leBytes (sizeBytes c) (f l).toNat) s with
      | (some e, s) => (some (e, a.toNat), s)
      | (none, s) => writeLanes t v c f r s

/-- No item of the thread shares a word with a lane (R540). -/
def lanesClear (s : State) (t : Thr) (c : Nat) (ls : List (Nat × Word)) : Bool :=
  ls.all (fun e => !thrConflict s t e.2 (sizeBytes c))

/-- A load of lanes at their own addresses; lanes of other arrays and of counters on the own node are served at once
(log 21). -/
def lanesLoad (f : Thread → IWord → Nat → Word) (t : Thr) (v : Kernel) (i : IWord) (h : Thread) (s : State) : Option State :=
  let ls := laneAddrs (f h i) i h
  if !lanesClear s t i.size ls then none
  else match readLanes t v i.size ls s with
    | (.error e, s) => some (fault t e.1 e.2 s)
    | (.ok m, s) => some (setThr t (h.putLanes i.d.toNat (guard i h) (fun l => tblGet 0 m l)).next s)

/-- A store of lanes at their own addresses. -/
def lanesStore (f : Thread → IWord → Nat → Word) (t : Thr) (v : Kernel) (i : IWord) (h : Thread) (s : State) : Option State :=
  let ls := laneAddrs (f h i) i h
  if !lanesClear s t i.size ls then none
  else match writeLanes t v i.size (h.lane i.d.toNat) ls s with
    | (some e, s) => some (fault t e.1 e.2 s)
    | (none, s) => some (setThr t h.next s)

/-- VLDS: vd := strided memory. -/
def execVlds (t : Thr) (s : State) : Out := .next (issue t 0x6 0x05 (lanesLoad strided t) s)

/-- VSTS: strided memory := vd. -/
def execVsts (t : Thr) (s : State) : Out := .next (issue t 0x6 0x06 (lanesStore strided t) s)

/-- VLDG: vd := gathered memory. -/
def execVldg (t : Thr) (s : State) : Out := .next (issue t 0x6 0x07 (lanesLoad gathered t) s)

/-- VSTG: scattered memory := vd. -/
def execVstg (t : Thr) (s : State) : Out := .next (issue t 0x6 0x08 (lanesStore gathered t) s)

/-! ### Atomics (R539, R594) -/

/-- The value that an operand field names: a register, or an even pair, the lower register in the lower half. -/
def atomOperand (pair : Bool) (h : Thread) (n : Nat) : Nat :=
  (h.sReg n).toNat + (if pair then (h.sReg (n + 1)).toNat <<< 64 else 0)

/-- The old value of an atomic written to its register or pair. -/
def Thread.putOld (h : Thread) (pair : Bool) (n old : Nat) : Thread :=
  let h := h.putS n (BitVec.ofNat 64 old)
  if pair then h.putS (n + 1) (BitVec.ofNat 64 (old >>> 64)) else h

/-- The registers that wait for the old value. -/
def oldBusy (pair : Bool) (n : Nat) : List BusyReg := if pair then [.s n, .s (n + 1)] else [.s n]

/-- The atomic with fabric opcode `op`. -/
def atomicAcc (op : Nat) (t : Thr) (v : Kernel) (i : IWord) (h : Thread) (s : State) : Option State :=
  let a := accAddr i h
  let n := atomicWidth op
  let pair := decide (op = 0x0B)
  let cas := op = 0x0A ∨ op = 0x0B
  let x := atomOperand pair h i.b.toNat % 2 ^ (8 * n)
  let y := atomOperand pair h i.c.toNat % 2 ^ (8 * n)
  if a.toNat % n ≠ 0 then some (fault t 0x02 a.toNat s)
  else match memPath s t.array.val a with
    | .far | .node =>
      let pay := leBytes n x ++ (if cas then leBytes n y else [])
      thrSend t (thrPacket (BitVec.ofNat 8 op) v.tenant a) pay.length pay (.atomic i.d.toNat pair)
        (fun h => { h.next with busy := h.busy ++ oldBusy pair i.d.toNat }) s
    | _ =>
      match accPlace s t v.tenant a n .atomic with
      | .error c => some (fault t c a.toNat s)
      | .ok p =>
        match placeAtomic op p x y (accCount t true v.tenant a p s) with
        | (some old, s) => some (setThr t (h.putOld pair i.d.toNat old).next s)
        | (none, s) => some (fault t 0x04 a.toNat (foundBad 6 a p s))

/-- AFADD64: adds sb to the 64-bit word. -/
def execAfadd64 (t : Thr) (s : State) : Out := .next (issue t 0x7 0x00 (atomicAcc 0x08 t) s)

/-- ASWAP64: replaces the 64-bit word by sb. -/
def execAswap64 (t : Thr) (s : State) : Out := .next (issue t 0x7 0x01 (atomicAcc 0x09 t) s)

/-- ACAS64: replaces the word by sc where it equals sb. -/
def execAcas64 (t : Thr) (s : State) : Out := .next (issue t 0x7 0x02 (atomicAcc 0x0A t) s)

/-- ACAS128: as ACAS64 on 16 bytes and register pairs. -/
def execAcas128 (t : Thr) (s : State) : Out := .next (issue t 0x7 0x03 (atomicAcc 0x0B t) s)

/-- AFADDF32: adds FP32 sb[31:0]. -/
def execAfaddf32 (t : Thr) (s : State) : Out := .next (issue t 0x7 0x04 (atomicAcc 0x0C t) s)

/-- AFADDBF16: adds BF16 sb[15:0]. -/
def execAfaddbf16 (t : Thr) (s : State) : Out := .next (issue t 0x7 0x05 (atomicAcc 0x0D t) s)

end Machine
end Sys2Proof
end

