-- ==== Sys2Proof/Machine/Library.lean ====
section
/-!
DEFINITION. The kernel library (Table 15-14) and the attention service (R560 to R569): what a library run computes, done within
the command that starts it.
-/
namespace Sys2Proof
namespace Machine

/-! ### Reads and writes of a library run -/

/-- A library run that goes on, or the cause and address of its fault. -/
inductive LibRes (α : Type) where
  | ok (x : α) (s : State)
  | bad (cause addr : Nat) (s : State)

/-- Reads `n` bytes for a library run: on the own node at once; the bytes of another node are free values (log 22). -/
def libRead (t : Thr) (tenant : BitVec 8) (a : Word) (n : Nat) (s : State) : LibRes (List Byte) :=
  if n = 0 then .ok [] s
  else if addrNode a ≠ myNode s then
    let r := freeBytes n s
    .ok r.1 r.2
  else match accRead t tenant a n s with
    | (.ok bs, s) => .ok bs s
    | (.error c, s) => .bad c a.toNat s

/-- Writes bytes for a library run: on the own node at once, to another node by WR. -/
def libWrite (t : Thr) (k : Fin 256) (run : BitVec 32) (tenant : BitVec 8) (a : Word) (bs : List Byte) (s : State) : LibRes Unit :=
  if bs.isEmpty then .ok () s
  else if addrNode a ≠ myNode s then
    match sendItem (workPort t.array.val) (workTags (workPort t.array.val)) (thrPacket 0x02 tenant a) bs.length bs (.lib k run) s with
    | some s => .ok () s
    | none => .bad 0x05 a.toNat s
  else match accWrite t tenant a bs s with
    | (none, s) => .ok () s
    | (some c, s) => .bad c a.toNat s

/-- Reads `n` units of Skim-Z: group headers first, then their units (R368). `fuel` bounds the groups. -/
def libReadZ (t : Thr) (tenant : BitVec 8) (w : Nat) : Nat → Nat → Word → State → LibRes (List Byte)
  | 0, _, _, s => .ok [] s
  | fuel + 1, n, a, s =>
    if n = 0 then .ok [] s
    else match libRead t tenant a 8 s with
      | .bad c x s => .bad c x s
      | .ok hd s =>
        let m := w * popCount (leNat hd) 64
        match libRead t tenant (a + 8) m s with
        | .bad c x s => .bad c x s
        | .ok us s =>
          match libReadZ t tenant w fuel (n - min n 64) (a + BitVec.ofNat 64 (8 + m)) s with
          | .bad c x s => .bad c x s
          | .ok r s => .ok (hd ++ us ++ r) s

/-- Reads `n` coded elements of a format. -/
def libReadElems (t : Thr) (tenant : BitVec 8) (f : FmtSpec) (n : Nat) (a : Word) (s : State) : LibRes (List Byte) :=
  if f.coding = 1 then
    let units := plainLen f.fmt n / unitBytes f.fmt
    libReadZ t tenant (unitBytes f.fmt) (units / 64 + 1) units a s
  else libRead t tenant a (codedLen f.fmt f.coding n) s

/-! ### FP32 steps, each rounded once under RNE -/

def fAdd (a b : Nat) : Nat := (fpAdd fp32 .rne false a b).1
def fSub (a b : Nat) : Nat := (fpSub fp32 .rne false a b).1
def fMul (a b : Nat) : Nat := (fpMul fp32 .rne false a b).1
def fExp (a : Nat) : Nat := (fpFun fpExp .rne false a).1
def fMax (a b : Nat) : Nat := fpMinMax fp32 true a b
def fLt (a b : Nat) : Bool := (decodeFp fp32 a).lt (decodeFp fp32 b)

/-! ### Attention (R562, R568) -/

/-- A partial: running maximum, denominator and weighted value sum, as FP32 patterns. -/
structure AttnPart where
  m : Nat := 0xFF800000
  d : Nat := 0
  o : List Nat
  deriving DecidableEq, Repr

/-- The procedure combine of R568. -/
def attnCombine (x y : AttnPart) : AttnPart :=
  if x.m = 0xFF800000 then y
  else if y.m = 0xFF800000 then x
  else
    let m := fMax x.m y.m
    let a := fExp (fSub x.m m)
    let b := fExp (fSub y.m m)
    { m := m, d := fAdd (fMul x.d a) (fMul y.d b), o := (x.o.zip y.o).map (fun e => fAdd (fMul e.1 a) (fMul e.2 b)) }

/-- dot of R568: each step multiplies and adds with one rounding (log 23). -/
def attnDot (q k : List Nat) : Nat := (q.zip k).foldl (fun acc e => (fpFma fp32 .rne false e.1 e.2 acc).1) 0

/-- Elements of a row of a format as FP32 patterns. -/
def rowFp32 (fmt n : Nat) (bs : List Byte) : List Nat := (plainValues fmt n bs).map (fun v => (encodeFp fp32 .rne false v).1)

/-- Tokens in a page (R562). -/
def tokensPerPage (kvFmt headDim : Nat) : Nat := 65536 / (2 * headDim * (fmtWidth kvFmt / 8))

/-- Key and value rows of tokens `j` and on of one page, as FP32 patterns. -/
def pageRows (t : Thr) (tenant : BitVec 8) (kvFmt hd : Nat) (page : Word) : Nat → Nat → State → LibRes (List (List Nat × List Nat))
  | _, 0, s => .ok [] s
  | j, n + 1, s =>
    let len := hd * (fmtWidth kvFmt / 8)
    match libRead t tenant (page + BitVec.ofNat 64 (j * len)) len s with
    | .bad c a s => .bad c a s
    | .ok kb s =>
      match libRead t tenant (page + BitVec.ofNat 64 (32768 + j * len)) len s with
      | .bad c a s => .bad c a s
      | .ok vb s =>
        match pageRows t tenant kvFmt hd page (j + 1) n s with
        | .bad c a s => .bad c a s
        | .ok r s => .ok ((rowFp32 kvFmt hd kb, rowFp32 kvFmt hd vb) :: r) s

/-- One page's partial for a head (R568). -/
def attnPage (scale hd : Nat) (q : List Nat) (rows : List (List Nat × List Nat)) : AttnPart :=
  rows.foldl (fun p r => attnCombine p { m := fMul scale (attnDot q r.1), d := 0x3F800000, o := r.2 }) { o := List.replicate hd 0 }

/-- The partials of every head over the pages of a range, in ascending order: `pages` are the page words, `first` and `count` the
tokens of the range. -/
def attnPages (t : Thr) (tenant : BitVec 8) (kvFmt hd scale : Nat) (qs : List (List Nat)) :
    List Word → Nat → Nat → List AttnPart → State → LibRes (List AttnPart)
  | [], _, _, acc, s => .ok acc s
  | w :: ws, first, count, acc, s =>
    let tpp := tokensPerPage kvFmt hd
    let n := min count (tpp - first % tpp)
    let page := globalAddr (myNode s) (fld w 16 25 * 65536)
    match localCheck s tenant page 65536 .rd with
    | .fail st => .bad (if st = stHalt then 0x06 else 0x03) page.toNat s
    | .ok _ =>
      match pageRows t tenant kvFmt hd page (first % tpp) n s with
      | .bad c a s => .bad c a s
      | .ok rows s =>
        attnPages t tenant kvFmt hd scale qs ws (first + n) (count - n)
          ((acc.zip qs).map (fun e => attnCombine e.1 (attnPage scale hd e.2 rows))) s

/-- Payload of an ATTN_PARTIAL (Table 15-17). -/
def attnBytes (plane heads count : Nat) (ps : List AttnPart) : List Byte :=
  leBytes 8 (plane + heads <<< 16 + count <<< 32) ++ leBytes 8 0
    ++ ps.flatMap (fun p => leBytes 4 p.m ++ leBytes 4 p.d ++ p.o.flatMap (leBytes 4))

/-- ATTN_DECODE on an admitted query. -/
def attnRun (t : Thr) (tenant : BitVec 8) (p : Packet) (kvFmt hd : Nat) (pages : List Word) (s : State) : LibRes (List Byte) :=
  let b := p.payload
  let heads := bitsOf (leAt b 2 2) 0 4
  let qe := if bitsOf (leAt b 2 2) 4 2 = 0 then 4 else 2
  let qs := (upFrom 0 heads).map (fun h => rowFp32 (if qe = 4 then 0 else 1) hd (slice b (32 + h * hd * qe) (hd * qe)))
  match attnPages t tenant kvFmt hd (leAt b 12 4) qs pages (leAt b 4 4) (leAt b 8 4) (qs.map (fun _ => { o := List.replicate hd 0 })) s with
  | .bad c a s => .bad c a s
  | .ok ps s => .ok (attnBytes (leAt b 0 2) heads (leAt b 8 4) ps) s

/-! ### Sampling -/

/-- One round of Philox-4x32. -/
def philoxRound (c : Nat × Nat × Nat × Nat) (k : Nat × Nat) : Nat × Nat × Nat × Nat :=
  let p0 := 0xD2511F53 * c.1
  let p1 := 0xCD9E8D57 * c.2.2.1
  (((p1 >>> 32) ^^^ c.2.1) ^^^ k.1, p1 % 2 ^ 32, ((p0 >>> 32) ^^^ c.2.2.2) ^^^ k.2, p0 % 2 ^ 32)

/-- Rounds of Philox-4x32, the key advanced between them. -/
def philoxRounds : Nat → Nat × Nat × Nat × Nat → Nat × Nat → Nat × Nat × Nat × Nat
  | 0, c, _ => c
  | n + 1, c, k => philoxRounds n (philoxRound c k) ((k.1 + 0x9E3779B9) % 2 ^ 32, (k.2 + 0xBB67AE85) % 2 ^ 32)

/-- u of the sampling kernels: the top 24 bits of the first word of Philox-4x32-10, keyed by the seed at counter position
(log 23). -/
def sampleU (seed position : Word) : Nat :=
  let r := philoxRounds 10 (fld position 0 32, fld position 32 32, 0, 0) (fld seed 0 32, fld seed 32 32)
  (encodeFp fp32 .rne false (.num false (r.1 / 256) (-24))).1

/-- A candidate before others of equal logit, in descending order: insertion keeps the lower index first. -/
def insertCand (x : Nat × Nat) : List (Nat × Nat) → List (Nat × Nat)
  | [] => [x]
  | y :: t => if fLt y.1 x.1 then x :: y :: t else y :: insertCand x t

/-- The `k` candidates of largest logit, as (FP32 pattern, index). -/
def topCands (k : Nat) (logits : List Nat) : List (Nat × Nat) :=
  ((logits.zip (upFrom 0 logits.length)).foldl (fun l x => (insertCand x l).take k) [])

/-- Softmax of logit / temperature in FP32, summed in candidate order. -/
def softmax (temp : Nat) (cs : List (Nat × Nat)) : List Nat :=
  let zs := cs.map (fun c => fpDiv fp32 .rne c.1 temp)
  let top := zs.foldl (fun a z => if fLt a z then z else a) (zs.headD 0)
  let es := zs.map (fun z => fExp (fSub z top))
  let sum := es.foldl fAdd 0
  es.map (fun e => fpDiv fp32 .rne e sum)

/-- The smallest leading set whose probability reaches p, as its length. -/
def leadLen (p : Nat) : List Nat → Nat → Nat → Nat
  | [], _, n => n
  | x :: t, acc, n => let a := fAdd acc x; if fLt a p then leadLen p t a (n + 1) else n + 1

/-- The first candidate whose running probability exceeds u. -/
def pickCand (u : Nat) : List ((Nat × Nat) × Nat) → Nat → Option (Nat × Nat)
  | [], _ => none
  | (c, p) :: t, acc => let a := fAdd acc p; if fLt u a then some (c.2, p) else pickCand u t a

/-- The result word of a sampling kernel; where no candidate's running probability exceeds u, or a logit is NaN, the spec states
no result, and the word is a free value (log 23). -/
def sampleWord (nucleus : Bool) (k temp p u : Nat) (logits : List Nat) (s : State) : Word × State :=
  let cs := topCands k logits
  let cs := if nucleus then cs.take (leadLen p (softmax temp cs) 0 0) else cs
  match (if logits.any (fun x => (decodeFp fp32 x).isNan) then none else pickCand u (cs.zip (softmax temp cs)) 0) with
  | some r => (BitVec.ofNat 64 (r.1 + r.2 <<< 32), s)
  | none => takeFree s

/-! ### The library kernels -/

/-- Argument word `n` of a run. -/
def libArg (r : Run) (n : Nat) : Word := BitVec.ofNat 64 (leAt r.args (8 * n) 8)

/-- SAMPLE_TOPK and SAMPLE_TOPP. -/
def libSample (nucleus : Bool) (t : Thr) (k : Fin 256) (tenant : BitVec 8) (r : Run) (s : State) : LibRes Unit :=
  let a1 := libArg r 1
  let n := fld a1 0 32
  let f := specOf (fld a1 32 16)
  match libReadElems t tenant f n (libArg r 0) s with
  | .bad c a s => .bad c a s
  | .ok bs s =>
    match decodeSkim f.fmt f.coding n bs with
    | none => .bad 0x04 (libArg r 0).toNat s
    | some pl =>
      let logits := rowFp32 f.fmt n pl
      let w := sampleWord nucleus (fld a1 48 16) (fld (libArg r 4) 0 32) (fld (libArg r 4) 32 32) (sampleU (libArg r 2) (libArg r 3)) logits s
      libWrite t k r.num tenant (libArg r 5) (leBytes 8 w.1.toNat) w.2

/-- DEQUANT: a pair of formats that Table 10-10 does not list has no expansion; the destination's plain data are then free
values (log 23). -/
def libDequant (t : Thr) (k : Fin 256) (tenant : BitVec 8) (r : Run) (s : State) : LibRes Unit :=
  let a2 := libArg r 2
  let n := fld a2 0 32
  let f := specOf (fld a2 32 16)
  let g := specOf (fld a2 48 16)
  match libReadElems t tenant f n (libArg r 0) s with
  | .bad c a s => .bad c a s
  | .ok bs s =>
    match decodeSkim f.fmt f.coding n bs with
    | none => .bad 0x04 (libArg r 0).toNat s
    | some pl =>
      if f.ok && g.ok && skimXok f.fmt g.fmt then libWrite t k r.num tenant (libArg r 1) (expandX f.fmt g.fmt g.sat n pl).1 s
      else
        let z := freeBytes (plainLen g.fmt n) s
        libWrite t k r.num tenant (libArg r 1) z.1 z.2

/-- Address of row `x` (a signed index) of a table. -/
def rowAddr (base : Word) (x : Int) (bytes : Nat) : Word := base + BitVec.ofInt 64 (x * bytes)

/-- Rows `i` and on of GATHER (`gather`) or SCATTER, in ascending order. -/
def libRows (gather : Bool) (t : Thr) (k : Fin 256) (tenant : BitVec 8) (r : Run) (bytes : Nat) : Nat → Nat → State → LibRes Unit
  | _, 0, s => .ok () s
  | i, n + 1, s =>
    match libRead t tenant (libArg r 1 + BitVec.ofNat 64 (4 * i)) 4 s with
    | .bad c a s => .bad c a s
    | .ok ib s =>
      let x := signed 32 (leNat ib)
      let from_ := if gather then rowAddr (libArg r 0) x bytes else rowAddr (libArg r 0) i bytes
      let onto := if gather then rowAddr (libArg r 2) i bytes else rowAddr (libArg r 2) x bytes
      match libRead t tenant from_ bytes s with
      | .bad c a s => .bad c a s
      | .ok row s =>
        match libWrite t k r.num tenant onto row s with
        | .bad c a s => .bad c a s
        | .ok _ s => libRows gather t k tenant r bytes (i + 1) n s

/-- One token of EXPERT_COMBINE: FP32 accumulation in ascending j, each step one rounding (log 23). -/
def combineToken (k dim : Nat) (ws : List Nat) (outs : List (List Nat)) : List Nat :=
  (upFrom 0 dim).map (fun i =>
    (upFrom 0 k).foldl (fun acc j => (fpFma fp32 .rne false (ws.getD j 0) ((outs.getD j []).getD i 0) acc).1) 0)

/-- Outputs of `k` experts for one token. -/
def readExperts (t : Thr) (tenant : BitVec 8) (fmt dim : Nat) : Nat → Word → State → LibRes (List (List Nat))
  | 0, _, s => .ok [] s
  | n + 1, a, s =>
    let len := dim * (fmtWidth fmt / 8)
    match libRead t tenant a len s with
    | .bad c x s => .bad c x s
    | .ok bs s =>
      match readExperts t tenant fmt dim n (a + BitVec.ofNat 64 len) s with
      | .bad c x s => .bad c x s
      | .ok r s => .ok (rowFp32 fmt dim bs :: r) s

/-- Tokens `i` and on of EXPERT_COMBINE. -/
def libCombine (t : Thr) (k : Fin 256) (tenant : BitVec 8) (r : Run) (dim kk fmt : Nat) : Nat → Nat → State → LibRes Unit
  | _, 0, s => .ok () s
  | i, n + 1, s =>
    let len := dim * (fmtWidth fmt / 8)
    match libRead t tenant (libArg r 1 + BitVec.ofNat 64 (4 * kk * i)) (4 * kk) s with
    | .bad c a s => .bad c a s
    | .ok wb s =>
      match readExperts t tenant fmt dim kk (libArg r 0 + BitVec.ofNat 64 (i * kk * len)) s with
      | .bad c a s => .bad c a s
      | .ok outs s =>
        let row := combineToken kk dim (rowFp32 0 kk wb) outs
        let bytes := row.flatMap (fun x => leBytes (fmtWidth fmt / 8) (elemPat fmt .rne false (decodeFp fp32 x)).1)
        match libWrite t k r.num tenant (libArg r 2 + BitVec.ofNat 64 (i * len)) bytes s with
        | .bad c a s => .bad c a s
        | .ok _ s => libCombine t k tenant r dim kk fmt (i + 1) n s

/-- The work of a library run; an ATTN_DECODE run answers with the bytes of its partial. -/
def libWork (t : Thr) (k : Fin 256) (v : Kernel) (r : Run) (s : State) : LibRes (List Byte) :=
  let unit := fun (x : LibRes Unit) => match x with
    | .ok _ s => LibRes.ok ([] : List Byte) s
    | .bad c a s => LibRes.bad c a s
  let a3 := libArg r 3
  match v.lib with
  | 1 => match r.by_ with
    | .query p f hd pages => attnRun t v.tenant p f hd pages s
    | _ => .ok [] s
  | 2 => unit (libSample false t k v.tenant r s)
  | 3 => unit (libSample true t k v.tenant r s)
  | 4 => unit (libDequant t k v.tenant r s)
  | 5 => unit (libRows true t k v.tenant r (fld a3 32 32) 0 (fld a3 0 32) s)
  | 6 => unit (libRows false t k v.tenant r (fld a3 32 32) 0 (fld a3 0 32) s)
  | 7 => unit (libCombine t k v.tenant r (fld a3 32 16) (fld a3 48 8) (fld a3 56 8) 0 (fld a3 0 32) s)
  | _ => .ok [] s

end Machine
end Sys2Proof
end

