-- ==== Sys2Proof/Machine/Workroom.lean ====
section
/-!
DEFINITION. Kernels, runs, launches, the sequence table and the attention service's admission (chapter 15).
-/
namespace Sys2Proof
namespace Machine

/-! ### Descriptors that name a kernel (R544) -/

/-- Kernel slot of target_id; none when another of its bits is set. -/
def kernelTarget (f : InFlight) : Option (Fin 256) :=
  if fld (dTarget f.desc) 8 8 ≠ 0 then none else some ⟨fld (dTarget f.desc) 0 8, Nat.mod_lt _ (by decide)⟩

/-- A kernel descriptor: its slot, target_gen (R81) and, where asked, the slot's binding (R544). -/
def withKernel (d : DRef) (f : InFlight) (bound : Bool) (s : State) (body : Fin 256 → State → State) : State :=
  match kernelTarget f with
  | none => complete d stBad 0 s
  | some k =>
    let s := modFlight d (fun x => { x with gen := fnGen s (.kernel k) }) s
    let v := kernelAt s k
    if !genOk s f (.kernel k) then complete d stStaleGen 0 s
    else if bound && (!v.loaded || v.tenant ≠ dTenant s f) then complete d stDenied 0 s
    else body k s

/-- Set bits of an array mask. -/
def arrayCount (m : Word) : Nat := popCount m.toNat 64

/-- Field ranges of a KERNEL_LOAD body (R545, Table 15-6). -/
def loadOk (d : BitVec 512) : Bool :=
  let lib := bit d 310
  let len := fld d 256 32
  let off := fld d 288 22
  let entry := fld d 448 32
  (if lib then len = 0 && decide (1 ≤ fld d 192 64) && decide (fld d 192 64 ≤ 7)
    else len % 8 = 0 && decide (8 ≤ len) && decide (len ≤ 1048576))
    && off % 4096 = 0 && decide (off + len ≤ 0x400000) && dWord d 40 ≠ 0
    && decide (1 ≤ fld d 384 12) && decide (fld d 384 12 ≤ 32 * arrayCount (dWord d 40))
    && decide (1 ≤ fld d 416 32) && (if lib then entry = 0 else decide (8 * entry < len))

/-- KERNEL_LOAD (R544, R545). -/
def kernelLoad (d : DRef) (f : InFlight) (s : State) : State :=
  withKernel d f false s (fun k s =>
    let b := f.desc
    if fnSt s (.kernel k) ≠ .off || !loadOk b then complete d stBad 0 s
    else
      let v : Kernel := { loaded := true, tenant := dTenant s f, code := dWord b 24, codeLen := fld b 256 32,
                          codeOff := fld b 288 22, lib := if bit b 310 then fld b 192 8 else 0, launchEn := bit b 311,
                          arrays := dWord b 40, threadsMax := fld b 384 12, runLimit := fld b 416 32, entry := fld b 448 32 }
      complete d stOk 0 (setKernel k v (bindPage (kernelPage k.val) v.tenant s)))

/-- Meaning of KERNEL_LOAD. -/
def execKernelLoad (d : DRef) (s : State) : Out := .next (withDesc d 0x40 s (kernelLoad d))

/-- KERNEL_QUERY's result (Table 15-10). -/
def kernelQueryWord (s : State) (k : Fin 256) : Word :=
  let fn := fnOf s (.kernel k)
  let v := kernelAt s k
  let running := (v.runs.filter (fun r => r.started)).foldl (fun n r => n + r.threads) 0
  BitVec.ofNat 64 (fnStCode fn.st + fn.pend.toNat <<< 2 + fn.gen.toNat <<< 16 + running <<< 32
    + (v.runs.filter (fun r => !r.started && queued r)).length <<< 44)
where
  /-- The run holds an entry of the run queue (R550). -/
  queued (r : Run) : Bool := match r.by_ with
    | .desc _ => false
    | _ => true

/-- KERNEL_QUERY. -/
def execKernelQuery (d : DRef) (s : State) : Out :=
  .next (withDesc d 0x44 s (fun f s => withKernel d f true s (fun k s => complete d stOk (kernelQueryWord s k) s)))

/-! ### Enabling and disabling (R546, R548, R535), used by Functions.lean -/

/-- The status with which KERNEL_ENABLE is refused while the kernel is Off (R548). -/
def kernelRefusal (s : State) (k : Fin 256) : Option (BitVec 8) :=
  let v := kernelAt s k
  if (upFrom 0 64).any (fun a => bit v.arrays a && (match arrayOwner s a with | some t => t ≠ v.tenant | none => false)) then some stNoRoom
  else if (List.finRange 256).any (fun j =>
      let w := kernelAt s j
      j ≠ k && fnSt s (.kernel j) ≠ .off && v.arrays &&& w.arrays ≠ 0
        && decide (v.codeOff < w.codeOff + w.codeLen) && decide (w.codeOff < v.codeOff + v.codeLen)) then some stBad
  else none

/-- A kernel enters Starting: its run numbers restart (R552), and its code is read from the host (R546). -/
def kernelStarting (k : Fin 256) (s : State) : State :=
  let v := kernelAt s k
  let s := setKernel k { v with nextRun := 0, copied := none, bytes := [], fetched := if v.lib = 0 then none else some stOk } s
  if v.lib = 0 then hostRead (.code k) v.code v.codeLen s else s

/-- The host's code bytes have come, or a read of them has failed (R98, R821). -/
def codeGot (k : Fin 256) (st : BitVec 8) (bs : List Byte) (s : State) : State :=
  if fnSt s (.kernel k) = .starting then modKernel k (fun v => { v with fetched := some st, bytes := bs }) s else s

/-- Some array of the kernel's mask is being zeroed (R548). -/
def maskZeroing (s : State) (v : Kernel) : Bool := s.work.zeroing.any (fun z => bit v.arrays z.1)

/-- KERNEL_CODE_COPY_DONE (R546): the code stands in every array of the mask. A copy waits for the arrays' zeroing (R548), and in ticks in
which they come first for fabric accesses at those arrays (R537). -/
def execKernelCodeCopyDone (k : Fin 256) (s : State) : Out :=
  let v := kernelAt s k
  .next (if fnSt s (.kernel k) = .starting && v.fetched = some stOk && v.copied.isNone && !maskZeroing s v
      && (copyFirst s || !(upFrom 0 64).any (fun a => bit v.arrays a && fabricWaits s a)) then
      let arrays := (upFrom 0 64).filter (fun a => bit v.arrays a)
      let s := arrays.foldl (fun s a => (placeWrite (.array (arrayBase a + v.codeOff)) v.bytes s).1) s
      modKernel k (fun v => { v with copied := some s.tick.elapsed }) s
    else s)

/-- The set-up of the kernel is over: the copy ended before this boundary (R546), or the code could not be read (log 105). -/
def kernelReady (s : State) (k : Fin 256) : Bool :=
  match (kernelAt s k).copied, (kernelAt s k).fetched with
  | some c, _ => c ≠ s.tick.elapsed
  | none, some st => st ≠ stOk
  | none, none => false

/-- On entry to Stopping, runs that have not started end with CANCELLED (R79, R554); none with CANCELLED or a drain's status
starts. -/
def kernelStopping (k : Fin 256) (st : BitVec 8) (s : State) : State :=
  ((kernelAt s k).runs.filter (fun r => !r.started)).foldl (fun s r => endRun k { r with status := st } [] s) s

/-- Every run of the kernel has its outcome. -/
def kernelIdle (s : State) (k : Fin 256) : Bool := (kernelAt s k).runs.isEmpty

/-- The kernel has reached Off: arrays that no kernel owns now are zeroed (R535). -/
def kernelOff (k : Fin 256) (s : State) : State :=
  let v := kernelAt s k
  let free := (upFrom 0 64).filter (fun a => bit v.arrays a && (arrayOwner s a).isNone && s.work.zeroing.all (fun z => z.1 ≠ a))
  { s with work.zeroing := s.work.zeroing ++ free.map (fun a => (a, s.tick.elapsed)) }

/-- ARRAY_ZERO_DONE (R535): the array's 4 MiB and the registers of its hardware threads are zero. -/
def execArrayZeroDone (a : Fin 64) (s : State) : Out :=
  .next (if s.work.zeroing.any (fun z => z.1 = a.val) && (copyFirst s || !fabricWaits s a.val) then
      { s with
        work.zeroing := s.work.zeroing.filter (fun z => z.1 ≠ a.val)
        work.mem := s.work.mem.filter (fun e => e.1 / 0x400000 ≠ a.val)
        work.badWord := s.work.badWord.filter (fun e => e.1 / 0x10000 ≠ a.val)
        work.thr := s.work.thr.filter (fun e => e.1 / 32 ≠ a.val) }
    else s)

/-! ### Admission (R550 to R552) -/

/-- Entries of the run queue in use. -/
def queueUse (v : Kernel) : Nat := (v.runs.filter (fun r => !r.started && kernelQueryWord.queued r)).length

/-- Admits a run under the next number; the run as admitted. -/
def admitRun (k : Fin 256) (b : Launcher) (threads : Nat) (args : List Byte) (ready : Bool) (s : State) : BitVec 32 × State :=
  let v := kernelAt s k
  let r : Run := { num := v.nextRun, gen := fnGen s (.kernel k), by_ := b, threads := threads, args := args, ready := ready }
  (v.nextRun, bump (kernelPage k.val) 0 1 (setKernel k { v with nextRun := v.nextRun + 1, runs := v.runs ++ [r] } s))

/-- KERNEL_RUN's body keeps R551 and Table 15-7. -/
def runBodyOk (v : Kernel) (d : BitVec 512) : Bool :=
  decide (1 ≤ fld d 256 12) && decide (fld d 256 12 ≤ v.threadsMax) && decide (fld d 272 8 ≤ 224)
    && (fld d 272 8 ≠ 0 || dWord d 24 = 0)

/-- KERNEL_RUN (R544, R550 to R553): admitted at once, it starts when its arguments have come. -/
def kernelRun (d : DRef) (f : InFlight) (s : State) : State :=
  withKernel d f true s (fun k s =>
    let v := kernelAt s k
    let n := fld f.desc 272 8
    if !runBodyOk v f.desc then complete d stBad 0 s
    else if v.lib = 1 then complete d stDenied 0 s
    else match fnSt s (.kernel k) with
      | .off => complete d stCancelled 0 s
      | .stopping => complete d stCancelled 0 s
      | _ =>
        let s := (admitRun k (.desc d) (fld f.desc 256 12) [] (n = 0) (modFlight d (fun x => { x with waits := 1 }) s)).2
        if n = 0 then s else hostRead (.obj d 0) (dWord f.desc 24) n s)

/-- Meaning of KERNEL_RUN. -/
def execKernelRun (d : DRef) (s : State) : Out := .next (withDesc d 0x43 s (kernelRun d))

/-- The arguments of a KERNEL_RUN have come; a failed read ends the run with its status. -/
def argsGot (d : DRef) (st : BitVec 8) (bs : List Byte) (s : State) : State :=
  match s.work.kernel.find? (fun e => e.2.runs.any (fun r => r.by_ = .desc d)) with
  | none => s
  | some e =>
    let k : Fin 256 := ⟨e.1 % 256, Nat.mod_lt _ (by decide)⟩
    match e.2.runs.find? (fun r => r.by_ = .desc d) with
    | none => s
    | some r =>
      if st = stOk then modWorkRun k r.num (fun r => { r with args := bs, ready := true }) s
      else endRun k { r with status := st } [] s

/-- Kernel slot or sequence index that the address of a LAUNCH or a query names; its other bits are reserved and ignored (R6, R549,
R564). -/
def addrTarget (p : Packet) (bits : Nat) : Nat := addrOff p.addr % 2 ^ bits

/-- The LAUNCH's payload keeps Table 15-8 and R551; its reserved fields are ignored, and so is done when done_en = 0 (R6). -/
def launchOk (v : Kernel) (p : Packet) : Bool :=
  let w := leAt p.payload 0 8
  decide (32 ≤ p.payload.length) && decide (bitsOf w 16 8 ≤ 224) && p.payload.length = 32 + bitsOf w 16 8
    && (bitsOf w 24 1 = 0 || leAt p.payload 8 8 % 16 = 0)
    && decide (1 ≤ bitsOf w 0 12) && decide (bitsOf w 0 12 ≤ v.threadsMax)

/-- The statuses that LAUNCH and ATTN_QUERY share once their own checks have passed: generation, key, state, drain and room, in
that order (Tables 5-10 and 15-9). -/
def admitStatus (s : State) (k : Fin 256) (gen cur : BitVec 16) (tenant : BitVec 8) : Option (BitVec 8) :=
  if gen ≠ cur then some stStaleGen
  else if !keyReady s tenant then some stHalt
  else match fnSt s (.kernel k) with
    | .off => some stCancelled
    | .stopping => some stCancelled
    | _ => if s.attic.draining then some stDrained else if 64 ≤ queueUse (kernelAt s k) then some stNoRoom else none

/-- Two launches that reach one queue in one cycle are admitted by the tie rule: none with a smaller key waits beside this one
(R550). -/
def launchFirst (s : State) (port : PortId) (p : Packet) : Bool :=
  s.core.delivered.all (fun d => !(d.2.opcode = p.opcode && d.2.addr = p.addr && d.2 ≠ p)
    || decide (tieKey s 128 port.val ≤ tieKey s 128 d.1.val))

/-- A refused LAUNCH is counted on its kernel's page (Table 23-4). -/
def launchRefuse (k : Fin 256) (out : PortId) (st : BitVec 8) (p : Packet) (s : State) : State :=
  sendFail out st p (countRefused p.tenant st (bump (kernelPage k.val) 1 1 s))

/-- LAUNCH (R549 to R552): admitted with LAUNCH_ACK, or refused with a FAIL (Table 15-9). -/
def launchArrive (port : PortId) (p : Packet) (s : State) : State :=
  if !launchFirst s port p then s
  else
    let s := takeDelivered p s
    let out := localPort s p
    let k : Fin 256 := ⟨addrTarget p 8, Nat.mod_lt _ (by decide)⟩
    let v := kernelAt s k
    if !v.loaded || v.tenant ≠ p.tenant || !v.launchEn || v.lib ≠ 0 || !launchOk v p then
      launchRefuse k out stDenied p s
    else match admitStatus s k p.gen (fnGen s (.kernel k)) p.tenant with
      | some st => launchRefuse k out st p s
      | none =>
        let w := leAt p.payload 0 8
        let (num, s) := admitRun k (.pkt (bitsOf w 24 1 = 1) (BitVec.ofNat 64 (leAt p.payload 8 8))) (bitsOf w 0 12)
          (slice p.payload 32 (bitsOf w 16 8)) true s
        let ans : Packet := { answerTo s 0x90 p with addr := num.setWidth 64, itemLen := 0 }
        inject out ans s

/-- Meaning of LAUNCH. -/
def execLaunchPkt (port : PortId) (p : Packet) (s : State) : Out := .next (if p.opcode = 0x10 then launchArrive port p s else s)

/-! ### The sequence table (R560 to R563) -/

/-- Byte of the Larder at which the sequence table begins: the third part of the reserved region (Table 11-10, log 13). -/
def seqBase (s : State) : Nat := atticBase s + 2 * gib

/-- Byte at which entry `i` begins (R560). -/
def seqEntry (s : State) (i : Nat) : Nat := seqBase s + 131072 * i

/-- The 16 bytes of an entry's header that hold fields (Table 15-15). -/
def seqHdr (s : State) (i : Nat) : Nat := leNat (memRead s.larder.mem (seqEntry s i) 16)

/-- A header that Table 15-15 describes. -/
structure SeqHdr where
  valid : Bool
  tenant : BitVec 8
  gen : BitVec 16
  kernel : Nat
  kvFmt : Nat
  headDim : Nat
  planes : Nat
  ppMax : Nat
  deriving DecidableEq, Repr

/-- The header's fields. -/
def seqFields (w : Nat) : SeqHdr :=
  { valid := bitsOf w 0 1 = 1, tenant := BitVec.ofNat 8 (bitsOf w 8 8), gen := BitVec.ofNat 16 (bitsOf w 16 16),
    kernel := bitsOf w 32 8, kvFmt := bitsOf w 40 16, headDim := bitsOf w 64 10, planes := bitsOf w 80 16,
    ppMax := bitsOf w 96 16 }

/-- Sequence index of target_id; none when another bit is set (R544). -/
def seqTarget (f : InFlight) : Option Nat :=
  if fld (dTarget f.desc) 12 4 ≠ 0 then none else some (fld (dTarget f.desc) 0 12)

/-- The body of a SEQ_SET keeps Table 15-15 and R563. -/
def seqSetOk (s : State) (f : InFlight) : Bool :=
  let d := f.desc
  let v := kernelAt s ⟨fld d 192 8, Nat.mod_lt _ (by decide)⟩
  let spec := specOf (fld d 200 16)
  let hd := fld d 224 10
  let n := fld d 240 16 * fld d 256 16
  v.loaded && v.lib = 1 && v.tenant = dTenant s f
    && spec.ok && spec.coding = 0 && decide (1 ≤ spec.fmt) && decide (spec.fmt ≤ 4)
    && (hd = 64 || hd = 128 || hd = 256) && decide (1 ≤ n) && decide (n ≤ 16376)

/-- The entry is valid and another tenant's (R544). -/
def seqForeign (h : SeqHdr) (t : BitVec 8) : Bool := h.valid && h.tenant ≠ t

/-- Writes of the table wait for the next tick boundary (R563). -/
def seqWait (d : DRef) (words : List Byte) (s : State) : State :=
  { s with work.seqs := s.work.seqs ++ [{ d := d, due := prepDue s, words := words }] }

/-- SEQ_SET (R544, R563). -/
def seqSet (d : DRef) (f : InFlight) (s : State) : State :=
  match seqTarget f with
  | none => complete d stBad 0 s
  | some i =>
    let h := seqFields (seqHdr s i)
    let s := modFlight d (fun x => { x with gen := h.gen }) s
    if seqForeign h (dTenant s f) then complete d stDenied 0 s
    else if !seqSetOk s f then complete d stBad 0 s
    else seqWait d [] (modFlight d (fun x => { x with waits := 1 }) s)

/-- Meaning of SEQ_SET. -/
def execSeqSet (d : DRef) (s : State) : Out := .next (withDesc d 0x48 s (seqSet d))

/-- The pages of a SEQ_PAGES lie within the entry (R563). -/
def seqPagesOk (h : SeqHdr) (d : BitVec 512) : Bool :=
  decide (fld d 256 16 < h.planes) && decide (fld d 272 16 + fld d 288 16 ≤ h.ppMax)

/-- SEQ_PAGES (R544, R563): the page words are read from the host first. -/
def seqPages (d : DRef) (f : InFlight) (s : State) : State :=
  match seqTarget f with
  | none => complete d stBad 0 s
  | some i =>
    let h := seqFields (seqHdr s i)
    let s := modFlight d (fun x => { x with gen := h.gen }) s
    if dGen f.desc ≠ h.gen then complete d stStaleGen 0 s
    else if !h.valid || h.tenant ≠ dTenant s f then complete d stDenied 0 s
    else if !seqPagesOk h f.desc then complete d stBad 0 s
    else
      let s := modFlight d (fun x => { x with waits := 1 }) s
      if fld f.desc 288 16 = 0 then seqWait d [] s
      else hostRead (.obj d 0) (dWord f.desc 24) (8 * fld f.desc 288 16) s

/-- Meaning of SEQ_PAGES. -/
def execSeqPages (d : DRef) (s : State) : Out := .next (withDesc d 0x49 s (seqPages d))

/-- The page words have come. -/
def pagesGot (d : DRef) (st : BitVec 8) (bs : List Byte) (s : State) : State :=
  match flightOf s d with
  | none => s
  | some _ => if st ≠ stOk then complete d st 0 s else seqWait d bs s

/-- SEQ_CLEAR (R544, R563). -/
def seqClear (d : DRef) (f : InFlight) (s : State) : State :=
  match seqTarget f with
  | none => complete d stBad 0 s
  | some i =>
    let h := seqFields (seqHdr s i)
    let s := modFlight d (fun x => { x with gen := h.gen }) s
    if !h.valid || h.tenant ≠ dTenant s f then complete d stDenied 0 s
    else seqWait d [] (modFlight d (fun x => { x with waits := 1 }) s)

/-- Meaning of SEQ_CLEAR. -/
def execSeqClear (d : DRef) (s : State) : Out := .next (withDesc d 0x4A s (seqClear d))

/-- Bytes of the Larder written by the part itself. -/
def larderPut (a : Nat) (bs : List Byte) (s : State) : State := { s with larder.mem := memWrite s.larder.mem a bs }

/-- Zeros a range of the Larder's bytes. -/
def larderZero (a n : Nat) (s : State) : State :=
  { s with larder.mem := s.larder.mem.filter (fun e => !(decide (a ≤ e.1) && decide (e.1 < a + n))) }

/-- One write of the sequence table takes effect at its boundary (R563). -/
def seqApply (w : SeqWrite) (s : State) : State :=
  match flightOf s w.d with
  | none => s
  | some f =>
    let i := (seqTarget f).getD 0
    let h := seqFields (seqHdr s i)
    let a := seqEntry s i
    let d := f.desc
    let t := dTenant s f
    let gen := h.gen + 1
    let low := fun (valid : Nat) (ten : Nat) => leBytes 4 (valid + ten <<< 8 + gen.toNat <<< 16)
    if dOpcode d = 0x48 then
      if seqForeign h t then complete w.d stDenied 0 s
      else
        let hdr := low 1 t.toNat ++ leBytes 4 (fld d 192 24) ++ leBytes 8 (fld d 224 48)
        complete w.d stOk (gen.setWidth 64) (modFlight w.d (fun x => { x with gen := gen })
          (larderPut a hdr (larderZero a 131072 s)))
    else if !h.valid || h.tenant ≠ t then complete w.d stDenied 0 s
    else if dOpcode d = 0x49 then
      if dGen d ≠ h.gen then complete w.d stStaleGen 0 s
      else if !seqPagesOk h d then complete w.d stBad 0 s
      else
        let at_ := a + 64 + 8 * (fld d 256 16 * h.ppMax + fld d 272 16)
        complete w.d stOk (BitVec.ofNat 64 (fld d 288 16)) (larderPut at_ w.words s)
    else complete w.d stOk 0 (modFlight w.d (fun x => { x with gen := gen }) (larderPut a (low 0 t.toNat) s))

/-- The boundary's writes of the sequence table, in order. -/
def seqBoundary (s : State) : State :=
  let due := s.work.seqs.filter (fun w => workDue s w.d w.due)
  due.foldl (fun s w => seqApply w s) { s with work.seqs := s.work.seqs.filter (fun w => !workDue s w.d w.due) }

/-! ### Attention queries (R564 to R567) -/

/-- Pages that a range of tokens touches: first page and number. -/
def queryPages (tpp first count : Nat) : Nat × Nat :=
  if count = 0 then (first / tpp, 0) else (first / tpp, (first + count - 1) / tpp - first / tpp + 1)

/-- The payload of a query keeps Table 15-16 and R565 under its entry; its reserved fields are ignored (R6). -/
def queryOk (h : SeqHdr) (p : Packet) : Bool :=
  let b := p.payload
  let w := leAt b 2 2
  let heads := bitsOf w 0 4
  let fmt := bitsOf w 4 2
  let qe := if fmt = 0 then 4 else 2
  let tpp := tokensPerPage (specOf h.kvFmt).fmt h.headDim
  decide (32 ≤ b.length) && decide (leAt b 0 2 < h.planes) && decide (1 ≤ heads) && decide (fmt ≤ 1)
    && decide (leAt b 4 4 + leAt b 8 4 ≤ h.ppMax * tpp)
    && decide (16 + heads * (8 + 4 * h.headDim) ≤ 4096) && b.length = 32 + heads * h.headDim * qe

/-- The page words of a query's range (R561). -/
def queryWords (s : State) (i : Nat) (h : SeqHdr) (plane : Nat) (r : Nat × Nat) : List Word :=
  (upFrom r.1 r.2).map (fun p => BitVec.ofNat 64 (leNat (memRead s.larder.mem (seqEntry s i + 64 + 8 * (plane * h.ppMax + p)) 8)))

/-- ATTN_QUERY (R564 to R566): admitted as a run of the entry's kernel, or refused with a FAIL. -/
def attnArrive (port : PortId) (p : Packet) (s : State) : State :=
  if !launchFirst s port p then s
  else
    let s := takeDelivered p s
    let out := localPort s p
    let deny := fun (st : BitVec 8) => sendFail out st p (countRefused p.tenant st s)
    let i := addrTarget p 12
    let h := seqFields (seqHdr s i)
    let k : Fin 256 := ⟨h.kernel % 256, Nat.mod_lt _ (by decide)⟩
    let v := kernelAt s k
    if !h.valid || h.tenant ≠ p.tenant || !v.loaded || v.lib ≠ 1 || v.tenant ≠ p.tenant || !queryOk h p then deny stDenied
    else
      let b := p.payload
      let r := queryPages (tokensPerPage (specOf h.kvFmt).fmt h.headDim) (leAt b 4 4) (leAt b 8 4)
      let ws := queryWords s i h (leAt b 0 2) r
      if !ws.all (fun w => bit w 0) then deny stDenied
      else match admitStatus s k p.gen h.gen p.tenant with
        | some st => deny st
        | none => (admitRun k (.query p (specOf h.kvFmt).fmt h.headDim ws) (max 1 (min r.2 v.threadsMax)) [] true s).2

/-- Meaning of ATTN_QUERY. -/
def execAttnQuery (port : PortId) (p : Packet) (s : State) : Out := .next (if p.opcode = 0x11 then attnArrive port p s else s)

/-! ### Starting runs (R553) -/

/-- The kernel's oldest run that has not started, when it may start. -/
def waitingRun (s : State) (k : Fin 256) : Option Run :=
  if fnSt s (.kernel k) ≠ .on then none
  else match (kernelAt s k).runs.find? (fun r => !r.started) with
    | some r => if r.ready then some r else none
    | none => none

/-- Free hardware threads on the arrays of a mask, spread over the arrays (R553: the part chooses; log 24). -/
def freeThreadsOf (s : State) (m : Word) : List Thr :=
  (upFrom 0 2048).filterMap (fun n =>
    let t : Thr := ⟨⟨n % 64, Nat.mod_lt _ (by decide)⟩, ⟨n / 64 % 32, Nat.mod_lt _ (by decide)⟩⟩
    if bit m t.array.val && !(thr s t).active then some t else none)

/-- Another kernel's oldest run waits for threads of an array of this kernel and comes first under the tie rule (R553). -/
def yields (s : State) (k : Fin 256) (v : Kernel) : Bool :=
  (List.finRange 256).any (fun j => j ≠ k && decide (tieKey s 256 j.val < tieKey s 256 k.val)
    && v.arrays &&& (kernelAt s j).arrays ≠ 0 && (waitingRun s j).isSome)

/-- A thread at its start (Table 15-10). -/
def startThread (k : Fin 256) (v : Kernel) (r : Run) (t : Thr) (i : Nat) : Thread :=
  let fixed : Tbl Word := tblSet 0 (tblSet 0 (tblSet 0 (tblSet 0 [] 0 (BitVec.ofNat 64 i)) 1 (BitVec.ofNat 64 r.threads)) 2
    (BitVec.ofNat 64 (t.array.val + t.hw.val <<< 6 + r.gen.toNat <<< 16))) 3 (r.num.setWidth 64)
  { active := true, ended := decide (v.lib ≠ 0), kernel := k, run := r.num, index := i, pc := v.entry,
    s := (upFrom 4 28).foldl (fun m n => tblSet 0 m n (BitVec.ofNat 64 (leAt r.args (8 * (n - 4)) 8))) fixed,
    p := [(0, BitVec.allOnes 256)] }

/-- The run's threads take hardware threads, all together. -/
def placeThreads (k : Fin 256) (v : Kernel) (r : Run) (ts : List Thr) (s : State) : State :=
  (ts.zip (upFrom 0 ts.length)).foldl (fun s e => setThr e.1 (startThread k v r e.1 e.2) s) s

/-- RUN_START (R553): the oldest waiting run of the kernel starts. A library kernel's work is done at once (log 22). -/
def runStart (k : Fin 256) (s : State) : State :=
  match waitingRun s k with
  | none => s
  | some r =>
    let v := kernelAt s k
    let ts := (freeThreadsOf s v.arrays).take r.threads
    if ts.length < r.threads || yields s k v then s
    else
      let s := modWorkRun k r.num (fun r => { r with started := true, startTick := s.tick.elapsed, startNs := s.tick.ns })
        (bump (kernelPage k.val) 3 r.threads (bump (kernelPage k.val) 2 1 (placeThreads k v r ts s)))
      if v.lib = 0 then s
      else
        let t := ts.headD ⟨0, 0⟩
        match libWork t k v r s with
        | .ok bs s => settleRun k r.num (modWorkRun k r.num (fun r => { r with out := bs }) s)
        | .bad c a s => fault t c a s

/-- Meaning of RUN_START. -/
def execRunStart (k : Fin 256) (s : State) : Out := .next (runStart k s)

/-- The thread of a run whose fault is reported where all of them fault at once (R556). -/
def limitThread (s : State) (k : Fin 256) (r : Run) : Option Thr :=
  (((runThreads s k r.num).filter (fun e => !e.2.ended)).foldl (fun (b : Option (Thr × Nat)) e =>
    let key := tieKey s r.threads e.2.index
    match b with
    | some x => if key < x.2 then some (e.1, key) else b
    | none => some (e.1, key)) none).map (·.1)

/-- RUN_LIMIT_EXPIRED (R555): run_limit ticks have passed since the run started. -/
def execRunLimitExpired (k : Fin 256) (run : BitVec 32) (s : State) : Out :=
  .next (match workRun s k run with
    | some r =>
      if r.started && r.status = stOk && decide ((kernelAt s k).runLimit ≤ ageOf s r.startTick) then
        match limitThread s k r with
        | some t => fault t 0x07 (thr s t).pc s
        | none => s
      else s
    | none => s)

/-! ### Answers to threads (R541, R555, R597), used by the rows of the answers -/

/-- Without the registers of a list among those that wait. -/
def unbusy (h : Thread) (rs : List BusyReg) : Thread := { h with busy := h.busy.filter (fun r => !rs.contains r) }

/-- The registers that a thread's item fills. -/
def accRegs : ThreadAcc → List BusyReg
  | .store => []
  | .load r _ _ => [.s r]
  | .vload r _ _ _ => [.v r]
  | .atomic r pair => oldBusy pair r
  | .launch _ => []

/-- The item is performed: its value reaches the thread's registers; after a fault, loaded values are discarded (R555). -/
def threadGot (t : Thr) (acc : ThreadAcc) (bs : List Byte) (s : State) : State :=
  let h := unbusy (thr s t) (accRegs acc)
  let live : Bool := match workRun s h.kernel h.run with
    | some r => r.status = stOk
    | none => false
  let h' := match acc with
    | .store => h
    | .load r n sgn => h.putS r (loadValue n sgn bs)
    | .vload r c skip m => h.putLanes r m (loadLane c skip bs)
    | .atomic r pair => h.putOld pair r (leNat bs)
    | .launch _ => h
  settleRun h.kernel h.run (setThr t (if live then h' else h) s)

/-- The answer to a LAUNCH (R597): status, and the run number when it is OK. -/
def threadLaunched (t : Thr) (reg : Nat) (st : BitVec 8) (run : BitVec 32) (s : State) : State :=
  let h := { thr s t with waitAck := false }
  let w : Word := BitVec.ofNat 64 (st.toNat + (if st = stOk then run.toNat <<< 32 else 0))
  settleRun h.kernel h.run (setThr t (h.putS reg w) s)

/-- The item of a thread ended with FAIL or TIMEOUT (R555, R597). -/
def threadFailed (t : Thr) (acc : ThreadAcc) (st : BitVec 8) (addr : Word) (s : State) : State :=
  match acc with
  | .launch r => threadLaunched t r st 0 s
  | _ => faultWith t 0x05 st addr.toNat (modThr t (fun h => unbusy h (accRegs acc)) s)

/-- An item of a library run ended (R543, R555): a failure is the run's fault. -/
def libItemEnd (k : Fin 256) (run : BitVec 32) (st : BitVec 8) (addr : Word) (s : State) : State :=
  match (runThreads s k run).head? with
  | some e => if st = stOk then settleRun k run s else faultWith e.1 0x05 st addr.toNat s
  | none => s

end Machine
end Sys2Proof
end

