-- ==== Sys2Proof/Machine/Faults.lean ====
section
/-!
DEFINITION. Faults and work in flight (chapter 22): link and node failures, route notices, crossing records and sweeps, the
fault log, and the ends of the items that the part itself owns (R168, R173, R176, R747, R748).
-/
namespace Sys2Proof
namespace Machine

/-! ### Packets of a failed link (R272, R288, R742) -/

/-- Input `i` discards its queues for output `o`: each packet none of whose cells has crossed draws its FAIL here; the counters of
their streams go back to the first value that no cell carries (R272, log 37). -/
def dropInput (o i : PortId) (s : State) : State :=
  let q := inPort s i
  let mine := q.queue.filter (fun e => e.kind = .unicast && e.out = o)
  if mine.isEmpty then s
  else
    let seq := mine.reverse.foldl (fun t e =>
      tblSet 0 t (8 * o.val + e.pkt.vc.val) (e.seq0 + BitVec.ofNat 16 e.crossed)) q.seq
    let s := setIn s i { q with queue := q.queue.filter (fun e => !(e.kind = .unicast && e.out = o)), seq := seq }
    trimBlocks i o <| mine.foldl (fun s e =>
      let s := if e.crossed = 0 then loseRef o stLinkLost e.ref (sendFail i stLinkLost e.pkt s) else s
      let s := if e.crossed = 0 then s else freeCredits i o (e.count - e.crossed) s
      let s := { s with counts.pairs := tblMod (0, 0) s.counts.pairs i.val (fun p => (p.1, p.2 + (e.count - e.crossed))) }
      freeUnits i e.resPart (e.units - e.freed) s) s

/-- Output `o` discards a packet that had started: its first cell draws the FAIL, its cells are freed (R742). -/
def dropStarted (o : PortId) (s : State) (q : OutPkt) : State :=
  let s := if q.kind = .unicast then sendFail o stLinkLost q.pkt s else mcCount o false stLinkLost q.pkt s
  let s := loseRef o stLinkLost q.ref (bumpPort o (24 * q.pkt.vc.val + 11) s)
  let s := freeHeld o q.uid stLinkLost (markDead o q.uid (modOut o (fun p => { p with pkts := p.pkts.filter (fun x => x.uid ≠ q.uid) }) s))
  let s := countLeft o q.have_ s
  if !q.credit then s else if q.kind = .unicast then freeCredits q.src o q.have_ s else freeReplicas o q.slices s

/-- Packets of which any byte stands in the replay buffer, one for each run of pieces of the same packet (R199, R742). -/
def replayPackets : List Piece → List Packet
  | [] => []
  | f :: t =>
    match t.head? with
    | some g => if g.off ≠ 0 then replayPackets t else f.pkt :: replayPackets t
    | none => [f.pkt]

/-- A packet under way is the one that a piece carries. -/
def sameSent (q : OutPkt) (p : Packet) : Bool := decide ({ q.pkt with hdrCrc := hdrCrcOf q.pkt, stomp := p.stomp } = p)

/-- Everything queued for, under way on, or unacknowledged on the failed link ends (Table 22-3). -/
def dropLinkPackets (l : LinkId) (s : State) : State :=
  let o := linkPort l
  let going := (outPort s o).pkts.filter (·.started)
  let held := (replayPackets ((link s l).replay.flatMap (·.pieces))).filter (fun p => !going.any (fun q => !q.cut && sameSent q p))
  let s := (going.filter (fun q => !q.cut)).foldl (dropStarted o) s
  let s := (going.filter (·.cut)).foldl (fun s q =>
    let s := countLeft o q.have_ (modOut o (fun p => { p with pkts := p.pkts.filter (fun x => x.uid ≠ q.uid) }) s)
    if !q.credit then s else if q.kind = .unicast then freeCredits q.src o q.have_ s else freeReplicas o q.slices s) s
  let s := ((outPort s o).pkts.map (·.uid)).foldl (fun s u => discardAt o u stLinkLost s) s
  let s := held.foldl (fun s p => sendFail o stLinkLost p s) s
  let s := setTm s l { tmOf s l with deficit := [] }
  forgetDead o (allPorts.foldl (fun s i => dropInput o i s) s)

/-- Ordered unicast packets that arrived over link port `i` and whose cells have not all left the core's stages: output, uid,
packet and what it carries (R288). -/
def orderedWaiting (s : State) (i : PortId) : List (PortId × Nat × Packet × Ref) :=
  let here := (inPort s i).queue.filterMap (fun e =>
    if e.kind = .unicast && e.pkt.ordered then some (e.out, e.uid, e.pkt, e.ref) else none)
  let cellOf := fun (o : PortId) (c : Cell) =>
    if c.kind = .unicast && c.src = i && c.pkt.ordered then some (o, c.uid, c.pkt, c.ref) else none
  let mid := s.core.slice.flatMap (fun m => m.2.cells.filterMap (fun x => x.outs.head?.bind (fun o => cellOf o x.cell)))
  let out := s.core.out.flatMap (fun e => let o := portOf e.1
    e.2.arriving.filterMap (fun x => cellOf o x.1) ++ e.2.held.filterMap (fun x => cellOf o x.cell)
      ++ e.2.pkts.filterMap (fun q => if q.kind = .unicast && q.src = i && q.pkt.ordered && !q.started then
          some (o, q.uid, q.pkt, q.ref) else none))
  here ++ mid ++ out

/-- Discards one such packet with LINK_LOST: at its output when it stands there, and else as its cells come, unless it has already been
dropped (R288, R742). -/
def dropOrdered (i : PortId) (s : State) (x : PortId × Nat × Packet × Ref) : State :=
  let p := outPort s x.1
  match p.pkts.find? (fun q => q.uid = x.2.1) with
  | some q => if q.started || q.cut then s else discardAt x.1 x.2.1 stLinkLost s
  | none =>
    if p.quiet.contains x.2.1 || p.dead.contains x.2.1 || !stillComing s x.1 x.2.1 then s
    else
      let s := loseRef x.1 stLinkLost x.2.2.2 (sendFail i stLinkLost x.2.2.1 s)
      modOut x.1 (fun p => { p with dead := p.dead ++ [x.2.1], quiet := p.quiet ++ [x.2.1] }) s

/-- Discards the ordered packets for the part's own functions that arrived over link port `i` and wait there (R288). -/
def dropContribs (i : PortId) (s : State) : State :=
  ((inPort s i).queue.filter (fun e => e.kind = .contrib && e.pkt.ordered)).foldl (fun s e =>
    let pairs := tblMod (0, 0) s.counts.pairs i.val (fun c => (c.1, c.2 + (e.count - e.gone.length)))
    sendFail i stLinkLost e.pkt (freeUnits i e.resPart (e.units - e.freed)
      (modIn i (fun q => { q with queue := q.queue.filter (fun x => x.uid ≠ e.uid) }) { s with counts.pairs := pairs }))) s

/-- The packet that was arriving on the failed link, its last byte not yet in, draws its FAIL from its header (R742, Table 22-3). -/
def dropArriving (l : LinkId) (k : Link) (s : State) : State :=
  match rxUnderWay k with
  | some p => sendFail (linkPort l) stLinkLost p s
  | none => s

/-! ### Lost nodes (R739, R746) -/

/-- State of the routing entry for a node: some true with a live candidate, some false with none and one of them out (R739). -/
def nodeState (s : State) (n : BitVec 12) : Option Bool :=
  let e := tblGet 0 s.route.top.route n.toNat
  if !bit e 0 || rtMode e = 3 then none
  else if (rtCands e).any (fun c => candLive s n c.2.1) then some true
  else if (rtCands e).any (fun c => candOut s n c.2.1) then some false
  else none

/-- Sweep FAIL to an owner (Table 22-5). -/
def sweepFail (me lost : BitVec 12) (c : CrossPair) : Packet :=
  { opcode := 0x8F, vc := 1, last := true, dst := c.owner, src := me, status := stNodeLost,
    tag := BitVec.ofNat 16 (if c.any then 2 ^ 13 else c.other.toNat + c.group.toNat * 2 ^ 12),
    addr := globalAddr lost 0, itemLen := 0xFFFFFFFF }

/-- Each element of a list once. -/
def distinct {α : Type} [BEq α] : List α → List α
  | [] => []
  | x :: t => if t.contains x then distinct t else x :: distinct t

/-- Pairs that the windows of a link sweep: with overflow, every owner with any = 1 (R746). -/
def sweepPairs (k : Link) : List CrossPair :=
  let of := fun (w : CrossWindow) =>
    if w.overflow then (distinct (w.pairs.map (·.owner))).map (fun n => ({ owner := n, any := true } : CrossPair)) else w.pairs
  distinct (of k.crossOld ++ of k.crossNew)

/-- The sweep of every link to node `n`: FAILs sent, and whether a window had overflowed. They enter the core at the link's own port
(log 38). -/
def sweepNode (n : BitVec 12) (s : State) : Nat × Bool × State :=
  (allLinks.filter (fun l => (link s l).known && (link s l).vexlor && (link s l).peer = n)).foldl (fun r l =>
    let k := link r.2.2 l
    let ps := sweepPairs k
    (r.1 + ps.length, r.2.1 || k.crossOld.overflow || k.crossNew.overflow,
      ps.foldl (fun s c => inject (linkPort l) (sweepFail (myNode s) n c) (countFail (linkPort l) s)) r.2.2)) (0, false, s)

/-- Declares a node lost (R739, R746, event 0x12). -/
def loseNode (s : State) (n : BitVec 12) : State :=
  let own := (allLinks.find? (fun l => (link s l).failed && (link s l).known && (link s l).peer = n))
  let (k, ovf, s) := match own with
    | some _ => sweepNode n s
    | none => (0, false, s)
  let rep := match own with
    | some l => l.val
    | none => 0xFFF
  raiseEv 0x12 n.toNat (rep + (k % 65536) <<< 16 + ovf.toNat <<< 32) 0 { s with route.lostNodes := s.route.lostNodes ++ [n] }

/-- Nodes to be declared lost, those carried from earlier boundaries first (R54, R739). -/
def goneNodes (s : State) : List (BitVec 12) :=
  let gone := (s.route.top.route.map (fun e => BitVec.ofNat 12 e.1)).filter (fun n =>
    nodeState s n = some false && !s.route.lostNodes.contains n)
  s.route.carried.filter gone.contains ++ gone.filter (fun n => !s.route.carried.contains n)

/-- The node declarations of step 3: at most 64 losses in a tick, the rest carried in order, and each one carried counted (R52, R54, R739,
Table 2-6). -/
def nodeCheck (s : State) : State :=
  let back := s.route.lostNodes.filter (fun n => nodeState s n = some true)
  let s := back.foldl (fun s n => raiseEv 0x13 n.toNat 0 0 s)
    { s with route.lostNodes := s.route.lostNodes.filter (fun n => !back.contains n) }
  let gone := goneNodes s
  let s := bump 152 6 (gone.length - 64) { s with route.carried := gone.drop 64 }
  if gone.isEmpty then s else collLosses ((gone.take 64).foldl loseNode s)

/-- A link failure waits for step 3 of this boundary. -/
def failDue (s : State) (l : LinkId) : Bool :=
  match (link s l).failAt with
  | some (_, t) => reached s t
  | none => false

/-- A route notice waits for step 3 of this boundary. -/
def noticeDue (s : State) : Bool := s.route.notices.any (fun n => reached s n.due)

/-- Node declarations come after every link declaration and notice of the step (R739). -/
def nodesAfter (s : State) : State := if allLinks.any (failDue s) || noticeDue s then s else nodeCheck s

/-! ### Declarations -/

/-- Declares a link failed (R287 to R289, R738 to R743): its packets end, its credits and replay buffer are cleared, its notice goes
out, and what depended on it is told. -/
def declareLink (l : LinkId) (cause : BitVec 8) (s : State) : State :=
  let k := link s l
  let s := raiseEv 0x10 l.val (cause.toNat + k.peer.toNat <<< 8 + laneCount k.lanes <<< 20) (fnGen s (.port l)) (bumpPort (linkPort l) 202 s)
  let order := orderedWaiting s (linkPort l)
  let s := setLink s l { k with up := false, nego := false, failed := true, failAt := none }
  let s := dropLinkPackets l s
  let s := dropArriving l k (dropContribs (linkPort l) (order.foldl (dropOrdered (linkPort l)) s))
  let s := modLink l (fun k =>
    { k with replay := [], part := [], tx := none, rxPkt := [], replayFrom := none, again := [], ctl := [], room := 0, keyTx := [], keyRx := [], replays := 0, retrain := false, resync := 0, capSeq := none,
             cap := none, keyed := false, offer := none, noticed := true }) s
  let s := sendNotice false l s
  let s := tickLinkLost l s
  let s := collLosses s
  let s := streamLosses (streamLinkLost (linkPort l) s)
  lanesToDetect l s

/-- LINK_FAILURE_DECLARE (R738, R739): at step 3 of the boundary, one of at most 96 declarations; the nodes follow the last of them. -/
def execLinkFailureDeclare (l : LinkId) (s : State) : Out :=
  match (link s l).failAt with
  | some (c, t) =>
    if atStep 3 s && reached s t then
      let s := setPhase 3 s
      .next (nodesAfter (if (link s l).up then declareLink l c s
        else lanesToDetect l (modLink l (fun k => { k with nego := false, failAt := none }) s)))
    else .next s
  | none => .next s

/-- Applies a route notice (R291, R292). -/
def applyNotice (s : State) (n : Notice) : State :=
  let e := (n.peer, n.reporter)
  if n.up then { s with route.excl := s.route.excl.filter (· ≠ e) }
  else if s.route.excl.contains e then s
  else if 1024 ≤ s.route.excl.length then
    raiseEv 0x1D n.reporter.toNat (0x10 + n.link.toNat <<< 8 + n.peer.toNat <<< 16) 0 { s with route.unapplied := s.route.unapplied + 1 }
  else { s with route.excl := s.route.excl ++ [e] }

/-- ROUTE_NOTICE_APPLY (R741): the notices received in the tick before apply at step 3. -/
def execRouteNoticeApply (s : State) : Out :=
  .next (if atStep 3 s && noticeDue s then
    let now := s.route.notices.filter (fun n => reached s n.due)
    let s := setPhase 3 { s with route.notices := s.route.notices.filter (fun n => !reached s n.due) }
    nodesAfter (now.foldl applyNotice s)
  else s)

/-- Takes the route notice that a MGMT packet at the Attic port carries (Table 8-3, R291, R741). -/
def takeNotice (p : Packet) (s : State) : State :=
  let w := leAt p.payload 0 8
  let n : Notice := { up := bitsOf w 0 8 = 0x11, link := BitVec.ofNat 8 (bitsOf w 8 8), reporter := BitVec.ofNat 12 (bitsOf w 16 12),
                      peer := BitVec.ofNat 12 (bitsOf w 32 12), due := s.tick.elapsed + 1 }
  if p.payload.length = 16 && (bitsOf w 0 8 = 0x10 || bitsOf w 0 8 = 0x11) then
    { s with route.notices := s.route.notices ++ [n] } else s

/-- MGMT (R291, R316): a route notice reaches the Attic. -/
def execMgmtPkt (p : Packet) (s : State) : Out := .next (if p.opcode = 0x50 then takeNotice p (takeDelivered p s) else s)

/-- CROSSING_WINDOW_ROLL (R745): a window of age_limit + 2 ticks is over. -/
def execCrossingWindowRoll (l : LinkId) (s : State) : Out :=
  let k := link s l
  .next (if s.tick.slot = 0 && k.up && k.vexlor && decide (ageLimit s + 2 ≤ ageOf s k.crossNew.opened) then
    setLink s l { k with crossOld := k.crossNew, crossNew := { opened := s.tick.elapsed } } else s)

/-! ### Ends of the part's own items -/

/-- Items that each kind of answer ends (Table 5-6). -/
def answers (op req : BitVec 8) : Bool :=
  match op.toNat with
  | 0x81 => req = 0x01
  | 0x82 => req = 0x02
  | 0x88 => 0x08 ≤ req.toNat && req.toNat ≤ 0x0D
  | 0x90 => req = 0x10
  | _ => op = 0x8F

/-- The item has its outcome: what it works for goes on, with the bytes that it brought (R748). -/
def endOwn (o : Own) (st : BitVec 8) (bytes : List Byte) (echo : Bool) (s : State) : State :=
  let s := dropOwn o.tag s
  let ok : Bool := st = stOk
  match o.use with
  | .desc d _ => dmEnd d o st bytes s
  | .thread t a => if ok then threadGot t a bytes s else threadFailed t a st o.addr s
  | .lib k r => libItemEnd k r st o.addr s
  | .gwIn q psn =>
    if !ok then gwInFail q psn st s
    else gwInDone q psn echo (if o.opcode = 0x01 then gwInData q psn o.addr bytes s else s)
  | .gwOut d psn => if !ok then gwOutFail d st s else if o.opcode = 0x01 then gwOutData d psn bytes s else gwOutWritten d s
  | .done k r g => if ok then s else doneFailed k r g st s

/-- An answer with ecn_echo makes the item's outputs congested for the internal input that sent it (R351). -/
def echoPace (o : Own) (p : Packet) (s : State) : State :=
  if p.ecnEcho && decide (96 ≤ o.inp.val) && o.inp.val ≠ 126 then
    modIn o.inp (fun q => { q with congested := distinct (q.congested ++ o.outs.map (·.val)) }) s
  else s

/-- An answer arrives for the part: the item that it answers, and what the answer does to it (R168). -/
def withAnswer (p : Packet) (op : BitVec 8) (s : State) (body : Own → State → State) : State :=
  if p.opcode ≠ op then s
  else
    match takeAnswer p s with
    | (some o, s) => if answers op o.opcode then body o (echoPace o p s) else { s with items.stray := s.items.stray + 1 }
    | (none, s) => s

/-- RD_DATA (R65, R173): counts the payload; the item ends when its bytes are all in. -/
def execRdData (p : Packet) (s : State) : Out :=
  .next (withAnswer p 0x81 s (fun o s =>
    let (whole, o, s) := countRead o p s
    if whole then endOwn o stOk (ownBytes o) p.ecnEcho s else s))

/-- WR_ACK (R168, R171). -/
def execWrAck (p : Packet) (s : State) : Out := .next (withAnswer p 0x82 s (fun o s => endOwn o stOk [] p.ecnEcho s))

/-- AT_DATA (R168). -/
def execAtData (p : Packet) (s : State) : Out := .next (withAnswer p 0x88 s (fun o s => endOwn o stOk p.payload p.ecnEcho s))

/-- LAUNCH_ACK (R549, R597): the run number goes to the thread that launched. -/
def execLaunchAck (p : Packet) (s : State) : Out :=
  .next (withAnswer p 0x90 s (fun o s =>
    let s := dropOwn o.tag s
    match o.use with
    | .thread t (.launch r) => threadLaunched t r stOk (p.addr.setWidth 32) s
    | _ => s))

/-- The sweep ends every own item whose destination is the counterpart, or all of them (R747, R748). The part owns no multicast
item. -/
def sweepOwn (p : Packet) (s : State) : State :=
  let any := bit p.tag 13
  let group := bit p.tag 12
  let other := BitVec.ofNat 12 (fld p.tag 0 12)
  let gone := s.items.own.filter (fun o => any || (!group && o.dst = other))
  gone.foldl (fun s o => endOwn o stNodeLost [] false s) s

/-- FAIL (R168, R747, R748): ends the item it names; a sweep ends every item of a lost counterpart. -/
def execFailPkt (p : Packet) (s : State) : Out :=
  .next (if p.opcode = 0x8F && p.itemLen = 0xFFFFFFFF then sweepOwn p (takeDelivered p s)
    else withAnswer p 0x8F s (fun o s => endOwn o (legalStatus p.status) [] p.ecnEcho s))

/-- RESPONSE_TIMEOUT (R176, R178): an own item has waited the response time-out; its tag then rests. -/
def execResponseTimeout (tag : BitVec 16) (s : State) : Out :=
  .next (match ownOf s tag with
    | some o =>
      if respTimeout s ≤ ageOf s o.sent then
        let rest := s.items.quarantine.filter (fun q => q.1 ≠ tag && decide (ageOf s q.2 < ageLimit s + 8))
        endOwn o stTimeout [] false { s with items.quarantine := rest ++ [(tag, s.tick.elapsed)] }
      else s
    | none => s)

/-! ### The fault log (R755, R756) -/

/-- FAULT_LOG_READ (R756): copies the entries that the log holds of those wanted. With none copied, no entry is first: that half of
the result is a free value. -/
def faultLogRead (d : DRef) (f : InFlight) (s : State) : State :=
  let count := fld f.desc 288 11
  if dTarget f.desc ≠ 0xFFFF || count = 0 || 1024 < count || fld f.desc 192 5 ≠ 0 then complete d stBad 0 s
  else
    let first := BitVec.ofNat 32 (fld f.desc 256 32)
    let oldest := s.counts.logNext - BitVec.ofNat 32 s.counts.log.length
    let late := (first - oldest).toNat
    let skip := if late < 2 ^ 31 then 0 else min count (oldest - first).toNat
    let from_ := if late < 2 ^ 31 then late else 0
    let es := (s.counts.log.drop from_).take (count - skip)
    let s := hostPut (dWord f.desc 24) (es.flatMap (eventBytes false)) s
    if es.isEmpty then
      let (x, s) := takeFree s
      complete d stOk ((x.setWidth 32).setWidth 64) s
    else complete d stOk (((oldest + BitVec.ofNat 32 from_).setWidth 64) ||| BitVec.ofNat 64 (es.length <<< 32)) s

/-- Meaning of FAULT_LOG_READ. -/
def execFaultLogRead (d : DRef) (s : State) : Out := .next (withDesc d 0x0B s (faultLogRead d))

end Machine
end Sys2Proof
end

