-- ==== Sys2Proof/Machine/Counters.lean ====
section
/-!
DEFINITION. Counters, telemetry and the Peephole (chapter 23): the snapshot and its check, the telemetry descriptors, the
dump channels.
-/
namespace Sys2Proof
namespace Machine

/-! ### The snapshot (R759, R760) -/

/-- Cells that the input of a core port holds: those of its packets that have not crossed. -/
def inHeld (s : State) (i : PortId) : Nat :=
  (inPort s i).queue.foldl (fun n e => n + (e.count - (if e.kind = .contrib then e.gone.length else e.crossed))) 0

/-- Cells that the output of a core port holds: those on their way in, waiting for order, and in packets that hold credits. -/
def outHeld (s : State) (o : PortId) : Nat :=
  let p := outPort s o
  p.arriving.length + (p.held.filter (!·.ghost)).length + (p.pkts.filter (·.credit)).foldl (fun n q => n + q.have_) 0

/-- Checks one counter pair; on a mismatch counts, reports and takes the pool's count as its own (R760). -/
def checkPair (k : Nat) (held : Nat) (s : State) : State :=
  let p := tblGet (0, 0) s.counts.pairs k
  if p.1 = p.2 + held then s
  else auditMismatch 5 (k % 128) (k / 128) ((p.1 : Int) - p.2 - held) 0
    { s with counts.pairs := tblSet (0, 0) s.counts.pairs k (p.2 + held, p.2) }

/-- Checks every counter pair. -/
def checkPairs (s : State) : State :=
  allPorts.foldl (fun s i => checkPair (128 + i.val) (outHeld s i) (checkPair i.val (inHeld s i) s)) s

/-- The figures that the audits due at this boundary compare, as they stand at step 2 (R274, R491). -/
def latchAudits (s : State) : State :=
  let pools := (upFrom 0 384).filterMap (fun j => if hits s 64 (j % 64) then (poolSum s j).map (fun x => (j, x.1, refsWrong s j)) else none)
  { s with core.latched := pools, hawk.latched := if hits s 64 48 then some (grainSum s, spillSum s) else none }

/-- Step 2 of Table 2-6: latches every counter into the snapshot of the tick just ended, whose number is `t` (R759, R760). -/
def snapshot (t : BitVec 48) (s : State) : State :=
  latchAudits (checkPairs { s with counts.snap := s.counts.now, counts.snapTick := t })

/-! ### Telemetry descriptors (R768 to R770, R773) -/

/-- Reads by a descriptor's tenant are permitted for the pages from `k` on: always on a privileged ring (R767). -/
def pagesAllowed (s : State) (f : InFlight) (k n : Nat) : Bool :=
  ringPriv s f.ref.sq || (upFrom k n).all (pageReadable s (dTenant s f))

/-- CTR_READ (R767, R769): copies pages of the snapshot whole into host memory. -/
def ctrRead (d : DRef) (f : InFlight) (s : State) : State :=
  let k := fld f.desc 256 12
  let n := fld f.desc 272 8
  if dTarget f.desc ≠ 0xFFFF || n = 0 || 64 < n then complete d stBad 0 s
  else if !pagesAllowed s f k n then complete d stDenied 0 s
  else complete d stOk (s.counts.snapTick.setWidth 64) (hostPut (dWord f.desc 24) ((upFrom k n).flatMap (pageBytes s)) s)

/-- Meaning of CTR_READ. -/
def execCtrRead (d : DRef) (s : State) : Out := .next (withDesc d 0x80 s (ctrRead d))

/-- A dump channel. -/
def dumpOf (s : State) (c : Fin 4) : Dump := tblGet {} s.counts.dump c.val
def setDump (c : Fin 4) (v : Dump) (s : State) : State := { s with counts.dump := tblSet {} s.counts.dump c.val v }

/-- Fields of a DUMP_CONFIG body, body bit 0 being descriptor bit 192 (Table 23-6). -/
def dumpDst (b : BitVec 320) : Nat := fld b 0 64
def dumpSize (b : BitVec 320) : Nat := 2 ^ fld b 64 5
def dumpLarder (b : BitVec 320) : Bool := bit b 69
def dumpPeriod (b : BitVec 320) : Nat := fld b 96 32
def dumpRanges (b : BitVec 320) : List (Nat × Nat) := (upFrom 0 4).map (fun r => (fld b (128 + 32 * r) 12, fld b (140 + 32 * r) 12))

/-- Pages of the ranges, in order. -/
def dumpPages (b : BitVec 320) : List Nat := (dumpRanges b).flatMap (fun r => upFrom r.1 r.2)

/-- Bytes of a page in a record: its header and its count words (R772). -/
def pageSize (k : Nat) : Nat := match pageInfo k with
  | some i => 32 + 8 * i.count
  | none => 0

/-- Length of a record. -/
def dumpLen (b : BitVec 320) : Nat := (dumpPages b).foldl (fun n k => n + pageSize k) 32

/-- The body keeps Table 23-6, and a record fits its destination (log 39). -/
def dumpOk (b : BitVec 320) : Bool :=
  decide (16 ≤ fld b 64 5) && decide (fld b 64 5 ≤ 28) && (if dumpLarder b then dumpDst b = 0 else dumpDst b % 4096 = 0)
    && (dumpRanges b).all (fun r => r.2 = 0 || decide (r.1 + r.2 ≤ 4096)) && decide (dumpLen b ≤ dumpSize b)

/-- DUMP_CONFIG (R54, R768, R770): the channel's configuration applies at the next boundary, and the descriptor completes then. -/
def dumpConfig (d : DRef) (f : InFlight) (s : State) : State :=
  let b : BitVec 320 := f.desc.extractLsb' 192 320
  let t := (dTarget f.desc).toNat
  if dumpLarder b && !ringPriv s f.ref.sq then complete d stDenied 0 s
  else if h : t < 4 then
    if !dumpOk b then complete d stBad 0 s
    else if !(dumpRanges b).all (fun r => pagesAllowed s f r.1 r.2) then complete d stDenied 0 s
    else
      let c : Fin 4 := ⟨t, h⟩
      addWaits d 1 (setDump c { dumpOf s c with next := some (b, prepDue s), tenant := dTenant s f, waits := (dumpOf s c).waits ++ [d] } s)
  else complete d stBad 0 s

/-- Meaning of DUMP_CONFIG. -/
def execDumpConfig (d : DRef) (s : State) : Out := .next (withDesc d 0x81 s (dumpConfig d))

/-- PEEP_CONFIG (R54, R768, R773): it applies, and completes, at the next boundary. -/
def peepConfig (d : DRef) (f : InFlight) (s : State) : State :=
  let t := (dTarget f.desc).toNat
  if h : t < 96 then
    let fn := FnId.port ⟨t, h⟩
    let s := modFlight d (fun g => { g with gen := fnGen s fn }) s
    let len := fld f.desc 224 9
    if !genOk s f fn then complete d stStaleGen 0 s
    else if !ringPriv s f.ref.sq then complete d stDenied 0 s
    else if len < 64 || 256 < len || len % 8 ≠ 0 then complete d stBad 0 s
    else addWaits d 1 { s with counts.peep := tblMod {} s.counts.peep t (fun p =>
      { p with next := some (dWord f.desc 24, prepDue s), waits := p.waits ++ [d] }) }
  else complete d stBad 0 s

/-- Meaning of PEEP_CONFIG. -/
def execPeepConfig (d : DRef) (s : State) : Out := .next (withDesc d 0x82 s (peepConfig d))

/-- Bytes of the telemetry area (Table 11-10). -/
abbrev telemBytes : Nat := 2 * 0x40000000

/-- TELEM_COPY (R768): copies bytes of the telemetry area into host memory; a range beyond the area's end is no part of it. -/
def telemCopy (d : DRef) (f : InFlight) (s : State) : State :=
  let off := (dWord f.desc 24).toNat
  let n := dByte f.desc 40 4
  if !ringPriv s f.ref.sq then complete d stDenied 0 s
  else if dTarget f.desc ≠ 0xFFFF || n = 0 || 16777216 < n || telemBytes < off + n then complete d stBad 0 s
  else
    let pl := Place.larder [(telemBase s + off, n)]
    let s := countPlace .internal false none pl s
    match placeRead s pl n with
    | some bs => complete d stOk 0 (hostPut (dWord f.desc 32) bs s)
    | none => complete d stDataError 0 (foundBad 5 (BitVec.ofNat 64 (telemBase s + off)) pl s)

/-- Meaning of TELEM_COPY. -/
def execTelemCopy (d : DRef) (s : State) : Out := .next (withDesc d 0x83 s (telemCopy d))

/-! ### Dumps (R771, R772) -/

/-- Record header (Table 23-7). -/
def dumpHeader (len : Nat) (seq : BitVec 32) (tick : BitVec 48) (pages c : Nat) (skipped : BitVec 16) : List Byte :=
  leBytes 8 (len + seq.toNat <<< 32) ++ leBytes 8 (tick.toNat + pages <<< 48)
    ++ leBytes 16 (c + 4 <<< 8 + skipped.toNat <<< 16)

/-- DUMP_DUE (R44, R771): at step 2 of a boundary whose tick number is 0 mod period, or has passed such a number, a private copy of the pages is kept, or the dump is
skipped. -/
def execDumpDue (c : Fin 4) (s : State) : Out :=
  let v := dumpOf s c
  .next (match v.body with
    | none => s
    | some b =>
      if !atStep 2 s || dumpPeriod b = 0 || decide (tickSpan s ≤ (nowTick s).toNat % dumpPeriod b) || v.lastDue = some s.tick.elapsed then s
      else if !v.record.isEmpty then
        setPhase 2 (setDump c { v with lastDue := some s.tick.elapsed, skipped := if v.skipped = 0xFFFF then 0xFFFF else v.skipped + 1 } s)
      else
        let ps := dumpPages b
        let len := dumpLen b
        let r := dumpHeader len v.seq s.counts.snapTick ps.length c.val v.skipped ++ ps.flatMap (pageImage s)
        setPhase 2 (setDump c { v with lastDue := some s.tick.elapsed, record := r, written := 0, skipped := 0,
                                       pos := if dumpSize b < v.pos + len then 0 else v.pos } s))

/-- Bytes of a dump reach their destination at an offset of the record's start. -/
def dumpPut (c : Fin 4) (b : BitVec 320) (at_ : Nat) (bs : List Byte) (s : State) : State :=
  if bs.isEmpty then s
  else if dumpLarder b then
    let pl := Place.larder [(telemBase s + 0x10000000 * c.val + at_, bs.length)]
    (placeWrite pl bs (countPlace .internal true none pl s)).1
  else hostPut (BitVec.ofNat 64 (dumpDst b + at_)) bs s

/-- A tick's share of each record: page images first (R771, R772). -/
def dumpTick (s : State) : State :=
  (List.finRange 4).foldl (fun s c =>
    let v := dumpOf s c
    match v.body with
    | none => s
    | some b =>
      if v.record.isEmpty then s
      else
        let n := min v.record.length (v.written + if dumpLarder b then 65536 else 8192)
        dumpPut c b (v.pos + 32 + v.written) (((v.record.drop 32).drop v.written).take (n - v.written)) (setDump c { v with written := n } s)) s

/-- DUMP_RECORD_COMPLETE (R772): every page image is written; the header follows, and the record is counted. -/
def execDumpRecordComplete (c : Fin 4) (s : State) : Out :=
  let v := dumpOf s c
  .next (match v.body with
    | none => s
    | some b =>
      if v.record.isEmpty || decide (v.written < v.record.length) then s
      else dumpPut c b v.pos (v.record.take 32)
        (setDump c { v with record := [], written := 0, seq := v.seq + 1, pos := v.pos + v.record.length } s))

/-- Configurations of dump channels and Peephole ports that apply at this boundary (R770, R773). -/
def telemBoundary (s : State) : State :=
  let due := fun {α : Type} (n : Option (α × BitVec 48)) => match n with
    | some (_, t) => reached s t
    | none => false
  let ds := s.counts.dump.flatMap (fun e => if due e.2.next then e.2.waits else [])
    ++ s.counts.peep.flatMap (fun e => if due e.2.next then e.2.waits else [])
  let dump := tblMap {} (fun _ (v : Dump) => match v.next with
    | some (b, t) => if reached s t then { body := if dumpPeriod b = 0 then none else some b, tenant := v.tenant } else v
    | none => v) s.counts.dump
  let peep := tblMap {} (fun _ (p : Peep) => match p.next with
    | some (w, t) => if reached s t then { cfg := w } else p
    | none => p) s.counts.peep
  dumpTick (ds.foldl (fun s d => complete d stOk 0 s) { s with counts.dump := dump, counts.peep := peep, counts.sampled := 0 })

end Machine
end Sys2Proof
end

