-- ==== Sys2Proof/Machine/LinkSlot.lean ====
section
/-!
DEFINITION. The frames that a link sends, one in each 6.4 ns (R192 to R203, R213, R633, R648, R674): what stands in each, its codewords,
and the change of width after a marker frame.
-/
namespace Sys2Proof
namespace Machine

/-! ### Control blocks (R633, Tables 2-2, 2-3 and 18-2) -/

/-- Payload of a tick-marker block (Table 2-2). -/
def markerWord (m : Marker) : Word :=
  BitVec.ofNat 64 (0xD2 + m.tickLow.toNat <<< 8 + m.txOffset.toNat <<< 40 + m.hops.toNat <<< 54 + m.holdover.toNat <<< 57
    + m.locked.toNat <<< 58)

/-- Payload of an announce block (Table 2-3). -/
def announceWord (a : Announce) : Word :=
  BitVec.ofNat 64 (0xD3 + a.tickHigh.toNat <<< 8 + a.masterNode.toNat <<< 24 + a.masterPriority.toNat <<< 36 + a.hops.toNat <<< 40
    + a.echo.toNat <<< 44)

/-- Uncorrectable codewords that a lane received in the last tick (Table 18-2). -/
def ucwLast (s : State) (a : Lane) : Nat := (a.ucw.filter (fun t => decide (ageOf s t = 1))).length

/-- Payload of the lane-state block of lane `j` (Table 18-2, R648). -/
def laneStateWord (s : State) (l : LinkId) (j : Fin 4) : Word :=
  let a := lane s (laneId l j)
  BitVec.ofNat 64 (0xD4 + j.val <<< 8 + (laneMask s l (fun a => a.ownOut)).toNat <<< 16 + (txNext s l).toNat <<< 20
    + (min 255 (ucwLast s a)) <<< 24 + a.csymLast.toNat <<< 32)

/-- Lanes on which the part transmits, in ascending order. -/
def txLanes (k : Link) : List (Fin 4) := (List.finRange 4).filter (fun j => bit k.lanes j.val)

/-- Control blocks of the marker frame: a lane-state block in block 39 of every active lane, the tick marker in block 38 of the lowest. -/
def markerBlocks (s : State) (l : LinkId) : List (Nat × Nat × Word) :=
  (txLanes (link s l)).zipIdx.map (fun x => (39, x.2, laneStateWord s l x.1)) ++
    (match tblGet none s.tick.txMark l.val with
     | some (m, _) => [(38, 0, markerWord m)]
     | none => [])

/-- Control block of the frame after a marker frame in a tick with an announce. -/
def announceBlocks (s : State) (l : LinkId) : List (Nat × Nat × Word) :=
  match tblGet none s.tick.txAnn l.val with
  | some a => [(38, 0, announceWord a)]
  | none => []

/-! ### The frame on the lanes (R193 to R196, R630 to R632, R674) -/

/-- A frame's bytes on a link of generation `g`, with a body of `n` bytes before a tag: header, and body in the clear or sealed. -/
def frameOut (g : BitVec 2) (n : Nat) (f : TxFrame) : List Byte :=
  let head := headBytes f
  let body := bodyOf g n f
  head ++ (if f.key.isEmpty then body else Config.gcmSeal (f.key.take 32) (frameIv f.key f.x) (frameAad head) body)

/-- The frame being sent has gone whole: its codewords, one on each active lane, whose scramblers have moved on. An ack-only frame goes in
the clear, its body all zeros. -/
def closeFrame (l : LinkId) (s : State) : State :=
  let k := link s l
  match k.sent with
  | none => s
  | some f =>
    let js := txLanes k
    let n := (if f.key.isEmpty then bodyBytes k.lanes else linkBody k) - 8 * k.blocks.length
    let bytes := frameOut k.gen n f
    let z := js.zipIdx.map (fun x => (x.1, laneWord (lane s (laneId l x.1)).scr (laneBlocks js.length k.blocks bytes x.2)))
    let s := z.foldl (fun s x => modLane (laneId l x.1) (fun a => { a with scr := x.2.2 }) s) s
    modLink l (fun k => { k with words := z.map (·.2.1), sent := none, room := 0 }) s

/-! ### A change of width (R213, R648) -/

/-- Frames under construction at a new width: those that are whole, the one being filled and its bytes, and control messages that wait for
its end. -/
structure Reflow where
  out : List TxFrame := []
  cur : TxFrame := {}
  used : Nat := 0
  ctl : List LinkMsg := []

/-- Ends the frame being filled; the control messages that wait follow it, each in a frame of its own (R194, R197). -/
def Reflow.cut (r : Reflow) : Reflow :=
  { out := r.out ++ (if r.used = 0 then [] else [r.cur]) ++ r.ctl.map (fun m => { kind := .control, msg := some m }) }

/-- Lays a piece into frames of `n` body bytes; `fuel` bounds the frames that it takes. -/
def Reflow.lay (g : BitVec 2) (n : Nat) (p : Piece) : Nat → Nat → Reflow → Reflow
  | 0, _, r => r
  | fuel + 1, off, r =>
    let left := p.off + p.len - off
    if left = 0 then r
    else
      let m := min left (n - r.used)
      let d := { p with off := off, len := m }
      let r := { r with cur := { r.cur with pieces := r.cur.pieces ++ [d],
                                            first := if r.cur.first = 0xFF then firstOf g off r.used m else r.cur.first },
                        used := r.used + m }
      Reflow.lay g n p fuel (off + m) (if r.used = n then r.cut else r)

/-- One held frame goes into the new frames. A control message waits for the end of the packet, or of the frame, that it stood behind. -/
def reflowFrame (g : BitVec 2) (n : Nat) (r : Reflow) (f : TxFrame) : Reflow :=
  match f.msg with
  | some m => { r with ctl := r.ctl ++ [m] }
  | none => f.pieces.foldl (fun r p =>
      let r := if p.off = 0 && !r.ctl.isEmpty then r.cut else r
      Reflow.lay g n p (p.len + 1) p.off r) r

/-- The frames that stand for `fs` at `n` body bytes, and the bytes of a packet still under way, `more` of which are not laid yet, that
would not fill the last one: these are laid again later. -/
def reflow (g : BitVec 2) (n : Nat) (more : Bool) (fs : List TxFrame) : List TxFrame × Nat :=
  let r := fs.foldl (reflowFrame g n) {}
  match more, r.cur.pieces.getLast? with
  | true, some p =>
    if r.used = 0 then (r.cut.out, 0)
    else ({ r with cur := { r.cur with pieces := r.cur.pieces.dropLast, first := if p.off = 0 ∧ r.cur.pieces.length = 1 then 0xFF
                                                                              else r.cur.first },
                   used := r.used - p.len }.cut.out, p.len)
  | _, _ => (r.cut.out, 0)

/-- Credit returns of the held frames beyond those rebuilt: they are pending again. -/
def returnRets (fs : List TxFrame) (t : Tbl Part) : Tbl Part :=
  fs.foldl (fun t f => (upFrom 0 16).foldl (fun t q =>
    let n := (f.ret.getD q 0).toNat
    tblMod {} t q (fun p => { p with pend := p.pend + n, retd := p.retd - BitVec.ofNat 32 n })) t) t

/-- Rebuilds the unacknowledged frames at the link's width, from seq ack + 1 on, and sends them again (R213). The frame at each place keeps
the credit return, and on an encrypted link the key, of the one that stood there (log 120). -/
def rebuildFrames (l : LinkId) (s : State) : State :=
  let k := link s l
  match k.replay.head?, k.replay.getLast? with
  | some h, some z =>
    let more := match k.tx with
      | some t => match (outPort s (linkPort l)).pkts.find? (fun q => q.uid = t.uid) with
        | some q => decide (t.pos < pktCharge k.gen q.pkt)
        | none => false
      | none => false
    let r := reflow k.gen (linkBody k) more k.replay
    let fs := r.1.zipIdx.map (fun x => { x.1 with
      seq := k.acked + 1 + BitVec.ofNat 12 x.2, x := h.x + x.2, ret := ((k.replay[x.2]?).map (·.ret)).getD (List.replicate 16 0),
      key := (k.replay.getD x.2 z).key })
    setLink s l { k with
      replay := fs, again := fs, replayFrom := if fs.isEmpty then none else some k.acked, txSeq := k.acked + 1 + BitVec.ofNat 12 fs.length,
      txCount := h.x + fs.length, part := returnRets (k.replay.drop fs.length) k.part,
      tx := k.tx.map (fun t => { t with pos := t.pos - r.2 }) }
  | _, _ => s

/-- After a marker frame the part transmits on the lanes that it named there; on fewer lanes than before, held frames are rebuilt
(R213, R648). -/
def takeWidth (l : LinkId) (m : BitVec 4) (s : State) : State :=
  let k := link s l
  if m = 0 || m = k.lanes || !k.up then s
  else
    let s := setLink s l { k with lanes := m }
    if laneCount m < laneCount k.lanes then rebuildFrames l s else s

/-! ### The next frame (R197 to R204, R223, R261) -/

/-- The fields that every frame carries anew: ack and nak (R203). -/
def freshAck (k : Link) (f : TxFrame) : TxFrame := { f with ack := k.rxExp - 1, nak := k.nakNext }

/-- An ack-only frame (R194). -/
def ackOnlyFrame (k : Link) : TxFrame := freshAck k { kind := .ackOnly, first := 0, ret := List.replicate 16 0 }

/-- Frame `f` goes out now, with `room` body bytes left for packets that start in it. -/
def putFrame (l : LinkId) (f : TxFrame) (room : Nat) (s : State) : State :=
  modLink l (fun k => { k with sent := some f, room := room, nakNext := false }) s

/-- A new sequenced frame goes out: it takes the next number and the credits to return, and is held for replay. An epoch's end changes the
key (R198, R199, R223, R673). -/
def newFrame (l : LinkId) (f : TxFrame) (room : Nat) (s : State) : State :=
  let k := link s l
  let f := freshAck k { f with seq := k.txSeq, ret := retNow k, x := k.txCount, key := k.keyTx }
  let x := k.txCount + 1
  putFrame l f room (setLink s l { k with
    part := afterRet k, txSeq := k.txSeq + 1, txCount := x, replay := k.replay ++ [f],
    ackAt := if k.replay.isEmpty then s.tick.ns else k.ackAt,
    keyTx := match k.keyed && x % 2 ^ 36 = 0, k.cap with
      | true, some c => keyOut s l c x
      | _, _ => k.keyTx })

/-- Bytes that the pieces of a frame take in its body. -/
def frameUsed (f : TxFrame) : Nat := f.pieces.foldl (fun m p => m + p.len) 0

/-- A control message as it leaves: an AUDIT carries the figures of its own frame (R228). -/
def freshMsg (k : Link) (m : LinkMsg) : LinkMsg :=
  match m with
  | .audit a => .audit (auditOf k a.mask)
  | m => m

/-- The packet under way with bytes still to lay, and where they begin. -/
def underWay (s : State) (l : LinkId) : Option (OutPkt × TxNow) :=
  match (link s l).tx with
  | some t => match (outPort s (linkPort l)).pkts.find? (fun q => q.uid = t.uid) with
    | some q => if t.pos < pktCharge (link s l).gen q.pkt then some (q, t) else none
    | none => none
  | none => none

/-- A data frame for the packet under way, or an ack-only frame while its next cell is missing: one underrun each time (R195, R261). -/
def dataFrame (l : LinkId) (body : Nat) (q : OutPkt) (t : TxNow) (s : State) : State :=
  let k := link s l
  match fits k.gen q t.pos body with
  | some n =>
    let s := setLink s l { k with
      tx := some { t with pos := t.pos + n, leaves := leavesAt s.tick.ns (laneCount k.lanes) n, underran := false } }
    newFrame l (addPiece k.gen q t.pos n 0 {}) (if t.pos + n = pktCharge k.gen q.pkt then body - n else 0) s
  | none =>
    let s := if t.underran then s else bump l.val (24 * t.queue.val + 12) 1 s
    putFrame l (ackOnlyFrame k) 0 (setLink s l { k with tx := some { t with underran := true } })

/-- Sends the next frame, of `body` bytes: a replay first, then control, then the packet under way; else, or while the replay buffer is
full, an ack-only frame (R194, R197, R199, R202). -/
def sendLinkFrame (l : LinkId) (body : Nat) (s : State) : State :=
  let k := link s l
  match k.again with
  | f :: t =>
    if body < frameUsed f then putFrame l (ackOnlyFrame k) 0 s
    else putFrame l (freshAck k f) 0 (setLink s l { k with again := t, replayFrom := if t.isEmpty then none else k.replayFrom })
  | [] =>
    if replayCap k.lanes ≤ k.replay.length then putFrame l (ackOnlyFrame k) 0 s
    else match k.ctl, underWay s l with
      | m :: t, _ => newFrame l { kind := .control, msg := some (freshMsg k m) } 0 (setLink s l { k with ctl := t })
      | [], some (q, t) => dataFrame l body q t s
      | [], none => putFrame l (ackOnlyFrame k) 0 s

/-- The control blocks of the next frame (R633). -/
def nextBlocks (s : State) (l : LinkId) : List (Nat × Nat × Word) :=
  if (link s l).markDue then markerBlocks s l else if (link s l).annDue then announceBlocks s l else []

/-- A frame boundary: the last frame has gone, a marker frame's width takes effect, and the next frame begins. -/
def frameBoundary (l : LinkId) (s : State) : State :=
  let named := ((link s l).blocks.find? (fun c => c.1 = 39)).map (fun c => c.2.2.extractLsb' 20 4)
  let s := closeFrame l s
  let s := match named with
    | some m => takeWidth l m s
    | none => s
  let k := link s l
  let bs := nextBlocks s l
  let s := setLink s l { k with blocks := bs, markDue := false, annDue := k.annDue && k.markDue }
  sendLinkFrame l (linkBody k - 8 * bs.length) s

/-- A frame begins at this nanosecond (R192). -/
def frameStarts (ns : Nat) : Bool := ns = 0 || frameNo (ns - 1) ≠ frameNo ns

/-- One slot of a link that carries frames. A slot in which the packet under way waits for a cell is counted (Table 23-3, word 206). -/
def linkSlot (l : LinkId) (s : State) : State :=
  if !serviceCoding s l then s
  else
    let s := if frameStarts s.tick.ns then frameBoundary l s else s
    match (link s l).tx with
    | some t => if t.underran then bump l.val 206 1 s else s
    | none => s

end Machine
end Sys2Proof
end

