-- ==== Sys2Proof/Machine/Power.lean ====
section
/-!
DEFINITION. Power, reset and start-up (chapter 21), and the test access port and pins (chapter 25).
-/
namespace Sys2Proof
namespace Machine

/-! ### Reset (R713 to R716) -/

/-- A power-on, pin or module reset: every field at its reset value but what R714 and R716 keep - boot flash, the fuses,
Lockdown and Erased - and the model's own fields. -/
def resetAll (s : State) : State :=
  let z := s.strong
  let strong : Strong := {
    lockdown := z.lockdown
    erased := z.erased
    eraseArmed := z.eraseArmed
    eraseFuse := z.eraseFuse
    floor := z.floor
    blown := z.blown
    revoked := z.revoked
    anchors := z.anchors
    alarmFuses := z.alarmFuses
    provFuses := z.provFuses }
  { State.reset with strong := strong, attic.flash := s.attic.flash, larder.badWord := s.larder.badWord, free := s.free,
                     pending := s.pending }

/-- Meaning of POWER_ON_RESET. -/
def execPowerOnReset (s : State) : Out := .next (resetAll s)
/-- Meaning of PIN_RESET. -/
def execPinReset (s : State) : Out := .next (resetAll s)

/-- Meaning of MODULE_RESET (R714): it starts at a boundary. -/
def execModuleReset (d : DRef) (s : State) : Out := .next (withDesc d 0x07 s (fun _ s => prepareAdmin d s))

/-- Meaning of MODULE_RESET_APPLY: 8 ticks after MODULE_RESET started. -/
def execModuleResetApply (s : State) : Out :=
  .next (if s.tick.slot = 0 && dueNow s s.power.resetAt then resetAll s else s)

/-! ### Start-up (R718 to R723) -/

/-- Meaning of POWER_GOOD: reset ends, the tamper loop is recorded, Lockdown is entered while the alarm count exceeds the
provision count, and the boot ROM runs (R691, R716, R718, R804). -/
def execPowerGood (x : FuseReading) (s : State) : Out :=
  if !s.power.inReset || s.power.shutdown || !x.railsGood || !x.resetHigh then .next s
  else
    let lock := s.strong.erased || s.strong.eraseFuse || decide (s.strong.provFuses < s.strong.alarmFuses)
    .next (bootRun { s with power.inReset := false, tick.ns := 0, strong.loopOhms := x.loopOhms, strong.lockdown := lock,
                            strong.erased := s.strong.erased || s.strong.eraseFuse, strong.alarm := lock,
                            attic.restarting := true })

/-- The recorded frames retired again at start-up (R418). -/
def retireRecorded (s : State) : State :=
  (s.attic.flash.retired.zip (upFrom 0 s.attic.flash.retired.length)).foldl (fun s e =>
    { s with larder.remap := tblSet none s.larder.remap e.1 (some e.2), larder.sparesUsed := e.2 + 1 }) s

/-- Meaning of LARDER_PHASE_END: the reserved region is laid out, keys are drawn and recorded frames retired (R396, R418, R419,
R720). In Lockdown no tenant's key is drawn. -/
def execLarderPhaseEnd (s : State) : Out :=
  if s.power.larderDone || s.attic.runAt.isNone then .next s
  else
    let s := { s with larder.atticGib := fld (reg s .larderCfg) 0 8, larder.scrubAt := s.tick.elapsed,
                      larder.key := if s.strong.lockdown then [] else allKeys, larder.partKey := true, power.larderDone := true }
    .next { retireRecorded s with hawk.spill := spillTotal s }

/-- The conditions of R720, in the order listed. -/
def readyConds (s : State) : List Bool :=
  [s.attic.runAt.isSome && !s.attic.recovery && !s.attic.restarting, s.power.larderDone, s.enz.st = .active,
   s.tick.locked || s.tick.isMaster]

/-- Meaning of READY_ASSERT. -/
def execReadyAssert (s : State) : Out :=
  .next (if s.tick.slot = 0 && (readyConds s).all id then { s with power.ready := true } else s)

/-- Meaning of READY_TIMEOUT (R723). -/
def execReadyTimeout (s : State) : Out :=
  if s.power.ready || s.power.late || decide (s.tick.ns < 4000000000) then .next s
  else
    let unmet := ((readyConds s).zip (upFrom 0 4)).foldl (fun m c => m + (!c.1).toNat * 2 ^ c.2) 0
    .next (raiseEv 0x33 0 unmet 0 { s with power.late := true })

/-! ### Caps and measurement (R725 to R732) -/

/-- Meaning of SET_NUMERIC_EFFECTER_VALUE: effecter 1 holds the sideband cap (R725). -/
def execSetNumericEffecterValue (effecter watts : BitVec 16) (s : State) : Out :=
  .next (if effecter = 1 then { s with power.sideNew := some watts.toNat } else s)

/-- Meaning of POWER_CAP: it waits for the step 11 that takes it up (R717, R726). -/
def execPowerCap (d : DRef) (s : State) : Out :=
  .next (withDesc d 0x0A s (fun f s =>
    { addWaits d 1 s with power.cmdNew := s.power.cmdNew ++ [⟨d, dByte f.desc 24 2, prepDue s⟩] }))

/-- A cap as held: 65,535 removes it. -/
def capOf (w : Nat) : Option Nat := if w = 65535 then none else some w

/-- A POWER_CAP with exact_tick is carried past its boundary: an earlier step 11 at or after apply_tick did not take it, its preparation
ending after it (R53, R818). -/
def capMissed (s : State) (c : CapWait) : Bool :=
  match flightOf s c.d with
  | some f => dTimed f.desc && dExact f.desc && !later (dApply f.desc) s.tick.prev
      && decide ((64 - (dApply f.desc).toNat % 64) % 64 ≤ (s.tick.prev - dApply f.desc).toNat)
  | none => false

/-- Takes up the caps that arrived (R726), not while the Attic restarts (Table 20-2); one with an apply_tick at the first step 11 from that tick
on (R818). Answers the POWER_CAPs taken. -/
def takeCaps (s : State) : List DRef × State :=
  if s.attic.restarting then ([], s)
  else
    let due := s.power.cmdNew.filter (fun c => workDue s c.d c.due)
    let ok := due.filter (fun c => !capMissed s c)
    let late := due.filter (capMissed s)
    let s := { s with power.cmdNew := s.power.cmdNew.filter (fun c => !workDue s c.d c.due),
                      power.sideCap := match s.power.sideNew with
                        | some w => capOf w
                        | none => s.power.sideCap,
                      power.sideNew := none,
                      power.cmdCap := match ok.getLast? with
                        | some c => capOf c.watts
                        | none => s.power.cmdCap }
    (ok.map (·.d), late.foldl (fun s c => complete c.d stOverrun 0 s) s)

/-- Target of the cap step (R727). -/
def capTarget (s : State) : Nat := max (capInForce s) 1150

/-- cap_step of R727 for a measurement. -/
def capStep (p : Nat) (s : State) : State :=
  let t := capTarget s
  if s.power.brake || s.power.supplyHold then { s with power.k := 48, power.hold := false }
  else if s.power.hold then { s with power.hold := false }
  else if t < p then { s with power.k := min (s.power.k + ceilDiv (p - t) 20) 48, power.hold := true }
  else if p + fld (reg s .powerCfg) 0 8 < t then { s with power.k := s.power.k - 1 }
  else s

/-- The target against P: lag and event 0x30 when it changes before P met the previous one (R731; the layout of the detail is
the model's, log 35). -/
def lagStep (p : Nat) (s : State) : State :=
  let t := capTarget s
  let old := s.power.target
  let s := if t ≠ old && !(s.power.met || decide (p ≤ old)) then
      raiseEv 0x30 0 (old + t <<< 16) 0 (bumpModule 23 { s with power.lag := true })
    else s
  { s with power.target := t, power.met := if t = old then s.power.met || decide (p ≤ t) else decide (p ≤ t),
           power.lag := s.power.lag && decide (t < p) }

/-- cap_alarm and event 0x31 (R732). -/
def alarmStep (s : State) : State :=
  let c := capInForce s
  if 1150 ≤ c then { s with power.capAlarm := false }
  else if s.power.capAlarm then s
  else raiseEv 0x31 0 c 0 (bumpModule 24 { s with power.capAlarm := true })

/-- The thermal fraction θ for a highest junction in 0.5 °C (R736). -/
def thetaStep (j : BitVec 8) (s : State) : State :=
  let old := s.power.theta
  let t := if 210 ≤ j.toNat then old - 64 else if j.toNat < 200 then min (old + 32) 256 else old
  let s := { s with power.theta := t, power.junction := j }
  if old = 256 && t ≠ 256 then raiseEv 0x32 0 t 0 s else s

/-- Meaning of POWER_MEASURE: step 11 of Table 2-6 in ticks whose number is 0 mod 64 (R726 to R736). -/
def execPowerMeasure (watts : Nat) (junction : BitVec 8) (s : State) : Out :=
  if !atStep 11 s || !hits s 64 0 then .next s
  else
    let (ds, s) := takeCaps (setPhase 12 { s with power.watts := watts })
    let s := thetaStep junction (alarmStep (capStep watts (lagStep watts s)))
    .next (ds.foldl (fun s d => complete d stOk (BitVec.ofNat 64 (capInForce s)) s) s)

/-- Levers of Table 21-7 for a level: Workroom, Larder and stream fractions of 256, and Hawk requests. -/
def leverWork (k : Nat) : Nat := if k ≤ 16 then 256 - 16 * k else 0
def leverLarder (k : Nat) : Nat := if k ≤ 16 then 256 else if k ≤ 32 then 256 - 15 * (k - 16) else 16
def leverHawk (k : Nat) : Nat := if k ≤ 32 then 256 else 256 - 16 * (k - 32)

/-- The levers apply from the next tick boundary; the lower of cap and temperature applies to the Workroom (R728, R729,
R736). -/
def applyLevers (s : State) : State :=
  let k := s.power.k
  { s with power.applied := (k, s.power.theta), work.fraction := min (leverWork k) s.power.theta, larder.pace := leverLarder k,
           streams.phi := leverLarder k, hawk.limit := leverHawk k }

/-! ### The brake, the supply and the temperature (R712, R733, R734, R737) -/

/-- Meaning of BRAKE_ASSERT; brake_en = 0 ignores the pin (Table 21-8). -/
def execBrakeAssert (s : State) : Out :=
  .next (if bit (reg s .powerCfg) 8 then { s with power.brake := true, power.k := 48, power.hold := false } else s)
/-- Meaning of BRAKE_RELEASE: the pin has been high for 64 ticks. -/
def execBrakeRelease (s : State) : Out := .next { s with power.brake := false }
/-- Meaning of SUPPLY_LOW: held at the floor as under the brake (R712). -/
def execSupplyLow (s : State) : Out := .next { s with power.supplyHold := true, power.k := 48, power.hold := false }
/-- Meaning of SUPPLY_RECOVERED. -/
def execSupplyRecovered (s : State) : Out := .next { s with power.supplyHold := false }

/-- Meaning of THERMAL_SHUTDOWN: READY, laser enables, keys and rails are gone; only a power-on or pin reset restarts (R737). -/
def execThermalShutdown (s : State) : Out := .next { resetAll s with power.shutdown := true }

/-- POWER_STATE (Table 21-9). -/
def powerWord (s : State) : Word :=
  let p := s.power
  BitVec.ofNat 64 (p.watts % 4096 + (capInForce s % 4096) <<< 16 + p.k <<< 32 + (p.brake || p.supplyHold).toNat <<< 38
    + p.capAlarm.toNat <<< 39 + p.lag.toNat <<< 40 + p.junction.toNat <<< 48 + (min p.theta 255) <<< 56)

/-! ### The test access port (R803) -/

/-- Meaning of BYPASS. -/
def execBypass (s : State) : Out := .next { s with power.tap := 0xF, power.driven := none }
/-- Meaning of IDCODE: the port's data register is 0x196240AF. -/
def execIdcode (s : State) : Out := .next { s with power.tap := 1, power.driven := none }
/-- Meaning of SAMPLE_PRELOAD. -/
def execSamplePreload (scan : List Bool) (s : State) : Out :=
  .next { s with power.tap := 2, power.scan := scan, power.driven := none }
/-- Meaning of EXTEST: only while RESET_N is held low, else as BYPASS. -/
def execExtest (scan : List Bool) (s : State) : Out :=
  .next (if s.power.inReset then { s with power.tap := 0, power.scan := scan, power.driven := some scan }
    else { s with power.tap := 0xF, power.driven := none })

/-- What the port's data register captures: the identification code under IDCODE, the boundary scan under SAMPLE/PRELOAD and
EXTEST, one zero bit under BYPASS (R803). -/
def tapData (s : State) : List Bool :=
  if s.power.tap = 1 then (upFrom 0 32).map (fun i => bit (0x196240AF : BitVec 32) i)
  else if s.power.tap = 0xF then [false] else s.power.scan

end Machine
end Sys2Proof
end

