-- ==== Sys2Proof/Machine/Coats.lean ====
section
/-!
DEFINITION. Coats (chapter 08 and the checks of chapters 11 and 12): bundles, the staging area, switching, retirement and the
ownership of frames.
-/
namespace Sys2Proof
namespace Machine

/-! ### Tables (Tables 8-1, 8-7, 8-10, 5-9, 11-4 and 12-1) -/

/-- Table code of a bundle section. -/
def tableOf : Nat → Option CoatTable
  | 0 => some .route
  | 1 => some .mcast
  | 2 => some .window
  | 3 => some .group
  | 4 => some .extent
  | _ => none

/-- entry_size and number of entries of a table. -/
def entrySize : CoatTable → Nat
  | .route => 16
  | .mcast => 32
  | .window => 16
  | .group => 576
  | .extent => 8
def tableSize : CoatTable → Nat
  | .group => 1024
  | .extent => 65536
  | _ => 4096

/-- Reserved bits of an entry, as (first bit, bits). -/
def entryZeros : CoatTable → List (Nat × Nat)
  | .route => [(3, 1), (7, 1), (24, 40)] ++ (upFrom 0 8).map (fun k => (71 + 8 * k, 1))
  | .mcast => [(2, 6), (24, 104)]
  | .window => [(3, 5), (12, 4)]
  | .group => [(1, 7), (31, 1), (37, 3), (45, 211), (4352, 256)] ++ (upFrom 0 96).map (fun j => (256 + 32 * j + 19, 13))
      ++ (upFrom 0 32).map (fun r => (3328 + 32 * r + 19, 13))
  | .extent => [(20, 4), (44, 19)]

/-- The entry's own level field; an extent has none. -/
def entryLevel (t : CoatTable) (v : Nat) : Option Nat :=
  match t with
  | .window => some (bitsOf v 24 8)
  | .extent => none
  | _ => some (bitsOf v 16 8)

/-- A valid routing entry obeys R279. -/
def routeOk (v : Nat) : Bool :=
  bitsOf v 0 1 = 0 || bitsOf v 1 2 = 3 ||
    (let ks := upFrom 0 (bitsOf v 4 3 + 1)
     ks.any (fun k => bitsOf v (8 + k) 1 = 0) && ks.all (fun k => decide (bitsOf v (64 + 8 * k) 7 < 96)))

/-- A valid window entry has a kind and a length that Table 5-9 gives. -/
def windowOk (v : Nat) : Bool := bitsOf v 0 1 = 0 || (bitsOf v 1 2 ≠ 3 && bitsOf v 64 32 ≠ 0)

/-- Frames below the Attic reserved region (R392, R419). -/
def frameLimit (s : State) : Nat := 915527 - 512 * s.larder.atticGib

/-- An extent names frames that a window may map (R392). -/
def extentOk (s : State) (v : Nat) : Bool := v = 0 || (bitsOf v 24 20 ≠ 0 && decide (bitsOf v 0 20 + bitsOf v 24 20 ≤ frameLimit s))

/-- An entry of a bundle passes R308 and the checks on single entries. -/
def entryOk (s : State) (t : CoatTable) (level v : Nat) : Bool :=
  (entryZeros t).all (fun r => bitsOf v r.1 r.2 = 0) && (match entryLevel t v with | some n => n = level | none => true)
    && (match t with
        | .route => routeOk v
        | .window => windowOk v
        | .extent => extentOk s v
        | _ => true)

/-! ### Bundles (R308, Table 8-7) -/

/-- The sections of a bundle as entries (table, index, value); none where a section breaks R308. -/
def parseSections (s : State) : Nat → List Byte → Option (List (CoatTable × Nat × Nat))
  | 0, bs => if bs.isEmpty then some [] else none
  | n + 1, bs =>
    match tableOf (leAt bs 0 1) with
    | none => none
    | some t =>
      let level := leAt bs 1 1
      let first := leAt bs 2 2
      let count := leAt bs 4 2
      let z := entrySize t
      let vals := (upFrom 0 count).map (fun i => (t, first + i, leAt bs (16 + z * i) z))
      if bs.length < 16 + z * count || count = 0 || leAt bs 6 2 ≠ z || leAt bs 8 8 ≠ 0 || decide (tableSize t < first + count)
          || !(level = s.attic.level.toNat || level + 1 = s.attic.level.toNat) || !vals.all (fun e => entryOk s t level e.2.2) then none
      else (parseSections s n (bs.drop (16 + z * count))).map (vals ++ ·)

/-- The entries of a bundle in order; none where it breaks R308. -/
def parseBundle (s : State) (bs : List Byte) : Option (List (CoatTable × Nat × Nat)) :=
  if bs.length < 16 || leAt bs 1 3 ≠ 0 || leAt bs 8 8 ≠ 0 then none else parseSections s (leAt bs 4 4) (bs.drop 16)

/-! ### The staging area (R299, R300, R310) -/

/-- A coat with an entry written. -/
def coatPut (c : Coat) (e : CoatTable × Nat × Nat) : Coat :=
  match e.1 with
  | .route => { c with route := tblSet 0 c.route e.2.1 (BitVec.ofNat 128 e.2.2) }
  | .mcast => { c with mcast := tblSet 0 c.mcast e.2.1 (BitVec.ofNat 256 e.2.2) }
  | .window => { c with window := tblSet 0 c.window e.2.1 (BitVec.ofNat 128 e.2.2) }
  | .group => { c with group := tblSet 0 c.group e.2.1 (BitVec.ofNat 4608 e.2.2) }
  | .extent => { c with extent := tblSet 0 c.extent e.2.1 (BitVec.ofNat 64 e.2.2) }

/-- The coat that the staging area would make with a base: what is not written inherits the topcoat or is invalid (R300). -/
def stagedCoat (s : State) (g : Staging) (base : Bool) : Coat :=
  g.written.reverse.foldl coatPut (if base then { s.route.top with num := g.num } else { num := g.num })

/-- Extents of a window from entry `i` on, up to the first with last = 1 (R387): at most `fuel`. -/
def extentsFrom (c : Coat) : Nat → Nat → Option (List (BitVec 64))
  | 0, _ => none
  | fuel + 1, i =>
    if 65536 ≤ i then none
    else
      let e := tblGet 0 c.extent i
      if bit e 63 then some [e] else (extentsFrom c fuel (i + 1)).map (e :: ·)

/-- Valid Larder windows of a coat. -/
def larderWindows (c : Coat) : List (BitVec 128) :=
  (c.window.map (·.2)).filter (fun w => bit w 0 && fld w 1 2 = 0)

/-- A Larder window obeys R387 and names frames that a window may map (R392). -/
def windowFits (s : State) (c : Coat) (w : BitVec 128) : Bool :=
  match extentsFrom c 1024 (fld w 96 32) with
  | none => false
  | some es => es.all (fun e => extentOk s e.toNat && e ≠ 0) && es.foldl (fun n e => n + fld e 24 20) 0 = fld w 64 32

/-- Frames that a coat's windows map, with their tenants (R391). -/
def mappedFrames (c : Coat) : List (Nat × BitVec 8) :=
  (larderWindows c).flatMap (fun w =>
    ((extentsFrom c 1024 (fld w 96 32)).getD []).flatMap (fun e =>
      (upFrom (fld e 0 20) (fld e 24 20)).map (fun f => (f, BitVec.ofNat 8 (fld w 16 8)))))

/-- Frames mapped by the held coats. -/
def heldFrames (s : State) : List (Nat × BitVec 8) :=
  mappedFrames s.route.top ++ (match s.route.under with | some c => mappedFrames c | none => [])

/-- No frame belongs to two tenants (R392). -/
def oneTenant (fs : List (Nat × BitVec 8)) : Bool :=
  let t := fs.foldl (fun (t : Tbl (Option (BitVec 8)) × Bool) e => match tblGet none t.1 e.1 with
    | some x => (t.1, t.2 && x = e.2)
    | none => (tblSet none t.1 e.1 (some e.2), t.2)) ([], true)
  t.2

/-- A valid group entry obeys the first four lines of R424. -/
def groupOk (s : State) (e : BitVec 4608) : Bool :=
  let n := fld e 24 7
  let m := fld e 32 5
  let r := fld e 40 5
  let ports := (upFrom 0 n).map (fun j => fld e (256 + 32 * j) 7)
  !bit e 0 || ((decide (1 ≤ n) || decide (1 ≤ m)) && decide (n ≤ 96) && ports.all (fun p => decide (p < 96))
    && decide (ports.eraseDups.length = n) && (upFrom n (96 - n)).all (fun j => fld e (256 + 32 * j) 32 = 0)
    && (upFrom (m + 1) (31 - m)).all (fun k => fld e (3328 + 32 * k) 32 = 0)
    && fld e (3328 + 32 * r) 12 = (myNode s).toNat && fld e (3328 + 32 * r + 12) 7 = n)

/-- The staged coat changes no entry of a group that is not Off (R424). -/
def groupsKept (s : State) (c : Coat) : Bool :=
  (List.finRange 1024).all (fun g => fnSt s (.group g) = .off || tblGet 0 c.group g.val = tblGet 0 s.route.top.group g.val)

/-- The checks of R392 and R424 on a coat as the staging area would make it (R310). -/
def stagedOk (s : State) (c : Coat) : Bool :=
  (larderWindows c).all (windowFits s c) && oneTenant (heldFrames s ++ mappedFrames c)
    && c.group.all (fun e => groupOk s e.2) && groupsKept s c

/-- Ownership of frames follows the coats and the staging area (R391); fills of frames no longer owned stop. -/
def reown (s : State) : State :=
  let fs := heldFrames s ++ (match s.route.staging with
    | some g => mappedFrames (stagedCoat s g g.base)
    | none => [])
  let owner := fs.foldl (fun (t : Tbl (Option (BitVec 8))) e => tblSet none t e.1 (some e.2)) []
  { s with larder.owner := owner, larder.fills := s.larder.fills.filter (fun f => (tblGet none owner f.frame).isSome) }

/-- The staging area changed by `f`. -/
def modStaging (f : Staging → Staging) (s : State) : State :=
  { s with route.staging := s.route.staging.map f }

/-- A COAT_LOAD ends with a status other than OK: the area closes when nothing holds it open (R310). -/
def loadFail (d : DRef) (st : BitVec 8) (s : State) : State :=
  let s := modStaging (fun g => { g with loads := g.loads.filter (fun l => l.d ≠ d) }) s
  let s := match s.route.staging with
    | some g => if g.written.isEmpty && g.loads.isEmpty && s.route.switches.all (fun w => w.coat ≠ g.num) then
        { s with route.staging := none } else s
    | none => s
  complete d st 0 s

/-- Number of a coat descriptor's coat field (Table 8-5). -/
def dCoat (f : InFlight) : BitVec 4 := BitVec.ofNat 4 (fld f.desc 288 4)

/-- Meaning of COAT_LOAD: it opens the staging area and reads its bundle (R299, R308). -/
def execCoatLoad (d : DRef) (s : State) : Out :=
  .next (withDesc d 0x50 s (fun f s =>
    let n := dCoat f
    let len := fld f.desc 256 32
    let g : Staging := s.route.staging.getD { num := n }
    if coatHeld s n || g.num ≠ n || decide (len < 64) || decide (1048576 < len) then complete d stBad 0 s
    else
      let l : CoatLoad := { d := d, base := bit f.desc 292, clr := bit f.desc 293, due := 0 }
      hostRead (.obj d 0) (dWord f.desc 24) len
        (addWaits d 1 { s with route.staging := some { g with loads := g.loads ++ [l] } })))

/-- The bundle of a COAT_LOAD has been read. -/
def coatGot (d : DRef) (st : BitVec 8) (bs : List Byte) (s : State) : State :=
  if st = stOk then verifyLater (.coat d) bs s else loadFail d st s

/-- The part is in Lockdown or Erased. -/
def locked (s : State) : Bool := s.strong.lockdown || s.strong.erased

/-- The bundle has been verified: its entries are checked and prepared (R308, R309, R310, R392, R424, R682). -/
def coatVerified (d : DRef) (ok : Bool) (bs : List Byte) (s : State) : State :=
  match s.route.staging, flightOf s d with
  | some g, some _ =>
    match g.loads.find? (fun l => l.d = d) with
    | none => s
    | some l =>
      if !ok then loadFail d stDenied s
      else match parseBundle s (envPayload bs) with
        | none => loadFail d stBad s
        | some es =>
          let c := stagedCoat s { g with written := es.reverse ++ g.written } l.base
          if !stagedOk s c then loadFail d stBad s
          else if locked s && (mappedFrames c).any (fun e => (tblGet none s.larder.owner e.1).isNone) then loadFail d stHalt s
          else
            let l' : CoatLoad := { l with todo := es, total := es.length, due := prepDue s, ready := true }
            modStaging (fun g => { g with loads := g.loads.map (fun x => if x.d = d then l' else x) }) s
  | _, _ => s

/-- A COAT_LOAD completes OK: its base and clear_excl apply (R310). -/
def loadDone (l : CoatLoad) (s : State) : State :=
  complete l.d stOk (BitVec.ofNat 64 l.total)
    (modStaging (fun g => { g with loads := g.loads.filter (fun x => x.d ≠ l.d), base := l.base, clr := l.clr }) s)

/-- Frames that the staging area maps and nobody owns become owned and are filled with zeros (R391, R393). -/
def takeFrames (base : Bool) (s : State) : List Nat × State :=
  match s.route.staging with
  | none => ([], s)
  | some g =>
    (mappedFrames (stagedCoat s g base)).foldl (fun (r : List Nat × State) e =>
      match tblGet none r.2.larder.owner e.1 with
      | some _ => r
      | none => (r.1 ++ [e.1], { r.2 with larder.owner := tblSet none r.2.larder.owner e.1 (some e.2),
                                          larder.fills := r.2.larder.fills ++ [{ frame := e.1, tenant := e.2 }] })) ([], s)

/-- Writes entries of one COAT_LOAD within the budget left; answers what is left. -/
def writeLoad (l : CoatLoad) (left : Nat) (s : State) : Nat × State :=
  match flightOf s l.d with
  | none => (left, s)
  | some f =>
    if !l.ready || (l.todo.isEmpty && (l.total ≠ 0 || !l.fills.isEmpty)) || !workDue s l.d l.due then (left, s)
    else if dExact f.desc && (missedTick s f || decide (left < l.todo.length)) then (left, loadFail l.d stOverrun s)
    else
      let now := l.todo.take left
      let l : CoatLoad := { l with todo := l.todo.drop left }
      let s := modStaging (fun g => { g with written := now.reverse ++ g.written,
                                             loads := g.loads.map (fun x => if x.d = l.d then l else x) }) s
      if !l.todo.isEmpty then
        (0, bumpModule 6 (modStaging (fun g => { g with loads := g.loads.map (fun x => if x.d = l.d then { x with carried := true } else x) }) s))
      else
        let (fs, s) := takeFrames l.base s
        let l : CoatLoad := { l with fills := fs }
        let s := modStaging (fun g => { g with loads := g.loads.map (fun x => if x.d = l.d then l else x) }) s
        (left - now.length, if fs.isEmpty then loadDone l s else s)

/-- Loads in the order in which step 5 serves them: those carried keep their place, before work first prepared since (R54). -/
def loadOrder (ls : List CoatLoad) : List CoatLoad := ls.filter (·.carried) ++ ls.filter (fun l => !l.carried)

/-- Meaning of COAT_STAGING_WRITE: step 5 writes at most 512 entries, in order (R54, R299). -/
def execCoatStagingWrite (s : State) : Out :=
  if !atStep 5 s then .next s
  else match s.route.staging with
    | none => .next s
    | some g =>
      let order := loadOrder g.loads
      let s := modStaging (fun g => { g with loads := order }) (setPhase 6 s)
      .next (order.foldl (fun (r : Nat × State) l => writeLoad l r.1 r.2) (512, s)).2

/-- Meaning of FRAME_FILL_DONE: once the controllers have served every line of the fill (R394), the frame reads as zeros, and loads that
waited for it complete (R393, R397). -/
def execFrameFillDone (frame : BitVec 20) (s : State) : Out :=
  let f := frame.toNat
  if !s.larder.fills.any (fun x => x.frame = f && fillEnded x) then .next s
  else
    let s := zeroFrame f { s with larder.fills := s.larder.fills.filter (fun x => x.frame ≠ f) }
    match s.route.staging with
    | none => .next s
    | some g =>
      let s := modStaging (fun g => { g with loads := g.loads.map (fun l => { l with fills := l.fills.filter (· ≠ f) }) }) s
      .next ((g.loads.filter (fun l => l.ready && l.todo.isEmpty && l.fills = [f])).foldl (fun s l => loadDone l s) s)

/-! ### Switching and retirement (R301 to R306, R311) -/

/-- Meaning of COAT_SWITCH: it waits for its boundary (R311). -/
def execCoatSwitch (d : DRef) (s : State) : Out :=
  .next (withDesc d 0x51 s (fun f s =>
    match s.route.staging with
    | some g =>
      if g.num ≠ dCoat f then complete d stStaleCoat 0 s
      else { addWaits d 1 s with route.switches := s.route.switches ++ [⟨d, dCoat f, prepDue s⟩] }
    | none => complete d stStaleCoat 0 s))

/-- The switch itself: the topcoat becomes the undercoat and the staging area the topcoat; every COAT_SWITCH fetched that
names it completes (R295, R301, R304, R311). -/
def switchNow (g : Staging) (s : State) : State :=
  let c := stagedCoat s g g.base
  let ds := (s.rings.flight.filter (fun f => dOpcode f.desc = 0x51 && dCoat f = g.num)).map (·.ref)
  let route : Route := { s.route with
    top := c
    under := some s.route.top
    lastUnder := s.tick.elapsed - 1
    switched := some s.tick.elapsed
    staging := none
    switches := s.route.switches.filter (fun w => w.coat ≠ g.num)
    excl := if g.clr then [] else s.route.excl }
  let res := BitVec.ofNat 64 (g.num.toNat + s.route.top.num.toNat <<< 4)
  ds.foldl (fun s d => complete d stOk res s) { s with route := route }

/-- Waiting switches that name the staging area no longer, or whose exact tick cannot be met, end (R53, R311). -/
def switchMiss (w : SwitchWait) (s : State) : State :=
  match flightOf s w.d with
  | some f =>
    if dExact f.desc then
      complete w.d stOverrun 0 { s with route.switches := s.route.switches.filter (fun x => x.d ≠ w.d) }
    else bumpModule 6 s
  | none => s

/-- Meaning of COAT_SWITCH_APPLY: step 4, once every load is complete and no undercoat is held (R301, R310). -/
def execCoatSwitchApply (s : State) : Out :=
  if !atStep 4 s then .next s
  else
    let due := s.route.switches.filter (fun w => workDue s w.d w.due)
    match s.route.staging, due with
    | _, [] => .next s
    | none, _ =>
      .next (due.foldl (fun s w => complete w.d stStaleCoat 0 s)
        (setPhase 5 { s with route.switches := s.route.switches.filter (fun w => !workDue s w.d w.due) }))
    | some g, _ =>
      let s := setPhase 5 s
      let late := due.filter (fun w => match flightOf s w.d with | some f => missedTick s f | none => false)
      let s := late.foldl (fun s w => switchMiss w s) s
      if decide (late.length = due.length) then .next s
      else if !g.loads.isEmpty || s.route.under.isSome then .next (due.foldl (fun s w => switchMiss w s) s)
      else if !stagedOk s (stagedCoat s g g.base) then
        .next (due.foldl (fun s w => complete w.d stBad 0 s)
          { s with route.switches := s.route.switches.filter (fun w => !workDue s w.d w.due) })
      else .next (switchNow g s)

/-- age_limit by which coats retire: an older, higher one while it stays in force (R271). -/
def retireAge (s : State) : Nat :=
  match s.core.oldAge with
  | some (a, t) => if reached s t then ageLimit s else max a (ageLimit s)
  | none => ageLimit s

/-- Work admitted under a coat is open (R305, R505). -/
def coatBusy (s : State) (n : BitVec 4) : Bool :=
  s.route.records.any (fun r => r.coat = n)
    || s.hawk.group.any (fun g => g.2.ops.any (fun o => match o.2 with
        | some o => o.coat = n
        | none => false))
    || s.streams.s.any (fun x => x.2.segs.any (fun r => r.coat = n))

/-- Meaning of UNDERCOAT_RETIRE: step 4, before the switch (R304, R305, R390, R391). -/
def execUndercoatRetire (s : State) : Out :=
  match s.route.under with
  | none => .next s
  | some u =>
    if !atStep 4 s || decide (ageOf s s.route.lastUnder < retireAge s + 2) || coatBusy s u.num then .next s
    else .next (reown (setPhase 4 { s with route.under := none, larder.cache := s.larder.cache.filter (fun e => e.1 ≠ u.num) }))

/-- Meaning of ORDERED_HOLD_RELEASE: packets held after a switch may cross (R306). -/
def execOrderedHoldRelease (s : State) : Out :=
  if s.tick.slot ≠ 0 then .next s
  else .next { s with core.inp := tblMap {} (fun _ p => { p with queue := p.queue.map (fun q =>
    if reached s q.holdTo then { q with holdTo := 0 } else q) }) s.core.inp }

/-- Meaning of COAT_ABORT (R312). -/
def execCoatAbort (d : DRef) (s : State) : Out :=
  .next (withDesc d 0x52 s (fun _ s =>
    match s.route.staging with
    | none => complete d stOk 0 s
    | some g =>
      let ws := (s.route.switches.filter (fun w => w.coat = g.num)).map (·.d)
      let s := { s with route.staging := none, route.switches := s.route.switches.filter (fun w => w.coat ≠ g.num) }
      let s := (g.loads.map (·.d) ++ ws).foldl (fun s e => complete e stCancelled 0 s) s
      complete d stOk (BitVec.ofNat 64 (g.num.toNat + 16)) (reown s)))

/-- Rack tick number at which the undercoat can first retire (Table 8-6). -/
def retireTick (s : State) : BitVec 48 :=
  if s.route.under.isSome then s.route.lastUnder + BitVec.ofNat 48 (retireAge s + 2) + s.tick.offset else 0

/-- COAT_QUERY's result and COAT_STATE (Table 8-6). -/
def coatWord (s : State) : Word :=
  let under := match s.route.under with
    | some c => c.num.toNat
    | none => 0
  let stg := match s.route.staging with
    | some g => g.num.toNat
    | none => 0
  BitVec.ofNat 64 (s.route.top.num.toNat + under <<< 4 + stg <<< 8 + s.route.under.isSome.toNat <<< 12
    + s.route.staging.isSome.toNat <<< 13 + (retireTick s).toNat <<< 16)

/-- Meaning of COAT_QUERY (R307). -/
def execCoatQuery (d : DRef) (s : State) : Out := .next (withDesc d 0x53 s (fun _ s => complete d stOk (coatWord s) s))

/-- Meaning of EXCL_CLEAR (R295). -/
def execExclClear (d : DRef) (s : State) : Out :=
  .next (withDesc d 0x54 s (fun _ s => complete d stOk (BitVec.ofNat 64 s.route.excl.length) { s with route.excl := [] }))

/-- Meaning of MC_OUTCOME_RECORD_TIMEOUT: outputs still short count as failed with AGED (R318, R319). -/
def execMcOutcomeRecordTimeout (src : BitVec 12) (tag : BitVec 16) (s : State) : Out :=
  match s.route.records.find? (fun r => r.src = src && r.tag = tag) with
  | none => .next s
  | some r =>
    if s.tick.slot ≠ 0 || decide (ageOf s r.last < ageLimit s + 8) then .next s
    else .next (closeRecord { r with outs := r.outs.map (fun o =>
      if o.ok + o.bad < r.itemLen then
        { o with bad := r.itemLen - o.ok, status := if o.status ≠ 0 then o.status else stAged } else o) } s)

end Machine
end Sys2Proof
end

