-- ==== Sys2Proof/Machine/Functions.lean ====
section
/-!
DEFINITION. Function instances (Table 3-6, R75 to R81, R813): enables and disables, what each kind of function does at
its transitions, FUNCTION_ON and FUNCTION_OFF, the descriptors that enable and disable, the control words of ports and
rings, a host reset and Lockdown.
-/
namespace Sys2Proof
namespace Machine

/-! ### What each kind of function does -/

/-- The part reserves a group's grains and spill units in the pool, when the pool has them free (R484). -/
def groupReserve (g : Fin 1024) (s : State) : State :=
  let v := groupOf s g
  if v.want ≤ s.hawk.grains ∧ v.want ≤ s.hawk.spill then
    let s := setGroup s g { v with want := 0, res := v.want, resFree := v.want, resSpill := v.want }
    { s with hawk.grains := s.hawk.grains - v.want, hawk.spill := s.hawk.spill - v.want }
  else s

/-- Grains that groups not Off have reserved or asked for (R484). -/
def grainsReserved (s : State) : Nat := s.hawk.group.foldl (fun n v => n + v.2.res + v.2.want) 0

/-- The entry that the open staging area would give a group, when an area is open (R429). -/
def stagedGroup (s : State) (g : Fin 1024) : Option (BitVec 4608) :=
  s.route.staging.map (fun a =>
    let todo := (a.loads.filter (·.ready)).flatMap (·.todo)
    tblGet 0 (stagedCoat s { a with written := todo.reverse ++ a.written } (a.base || a.loads.any (fun l => l.ready && l.base))).group g.val)

/-- GROUP_ENABLE's conditions on the group's entry and on res_grains (R429). -/
def groupEnableOk (s : State) (g : Fin 1024) (want : Nat) : Bool :=
  decide (1 ≤ want) && decide (want ≤ 3072)
    && (match stagedGroup s g with
        | some e => e = gEntry s g
        | none => true)

/-- Status with which the chapters refuse an enable of an instance that is Off (R430, R484, R498, R548, R682). -/
def enableRefusal (s : State) (f : FnId) (want : Nat) : Option (BitVec 8) :=
  match f with
  | .group _ =>
    if locked s then some stHalt
    else if 3072 < grainsReserved s + want ∨ spillTotal s < grainsReserved s + want then some stNoRoom
    else none
  | .stream k => if locked s then some stHalt else if (streamOf' s k).program.isEmpty then some stBad else none
  | .kernel k => if locked s then some stHalt else kernelRefusal s k
  | .qp q => if locked s then some stHalt else qpRefusal s q
  | _ => none

/-- A producer index returns to zero: its entry of the consumer page is written when that changes it (R104, R108). -/
def zeroPut (off : Nat) (old : BitVec 32) (s : State) : State := if old = 0 then s else consumerPut off 0 s

/-- On entry to Starting (R104, R108, R134, R432, R484, R498, R546, R609, R792). -/
def startHook (f : FnId) (want : Nat) (s : State) : State :=
  match f with
  | .port l => relight l s
  | .sq i => putSqCons i (setSq s i { tblGet {} s.rings.sq i.val with prod := 0, cons := 0, consumed := 0, completed := 0 })
  | .cq i => zeroPut (0x100 + 4 * i.val) (tblGet {} s.rings.cq i.val).prod
      (setCq s i { tblGet {} s.rings.cq i.val with prod := 0, cons := 0, unint := 0, armed := true })
  | .ev => zeroPut 0x200 s.rings.ev.prod { s with rings.ev := { s.rings.ev with prod := 0, cons := 0, armed := true } }
  | .group g => groupReserve g (setGroup (bindPage (groupPage g.val) (gTenant (gEntry s g)) s) g { want := want })
  | .stream k => streamFresh k s
  | .kernel k => kernelStarting k s
  | .qp q => qpStarting q s

/-- Set-up is complete, so that the instance may enter On at this boundary (R431, R498, R546, R790). -/
def fnReady (s : State) (f : FnId) : Bool :=
  match f with
  | .port l => if h : ethMode s l.val ∧ 80 ≤ l.val then (ethPort s ⟨l.val - 80, by have := l.isLt; omega⟩).up else (link s l).up
  | .group g => (groupOf s g).want = 0
  | .kernel k => kernelReady s k
  | _ => true

/-- Status with which the set-up of an instance ended: that of a kernel's code read from the host (R98, R546, log 105). -/
def setUpStatus (s : State) (f : FnId) : BitVec 8 :=
  match f with
  | .kernel k => (kernelAt s k).fetched.getD stOk
  | _ => stOk

/-- On entry to On. -/
def onHook (f : FnId) (s : State) : State :=
  match f with
  | .stream k => streamOn k s
  | _ => s

/-- Fetched descriptors of a ring that have not started end with a status (R79). -/
def cancelFetched (i : Fin 64) (st : BitVec 8) (s : State) : State :=
  ((s.rings.flight.filter (fun f => f.ref.sq = i && f.stage = .fetched)).map (·.ref)).foldl (fun s d => complete d st 0 s) s

/-- A link is declared failed at this boundary, whatever failure of it already waits (R682, R791). -/
def failNow (l : LinkId) (cause : BitVec 8) (s : State) : State :=
  modLink l (fun k => { k with failAt := match k.failAt with
    | some (c, t) => if reached s t then some (c, t) else some (cause, s.tick.elapsed)
    | none => some (cause, s.tick.elapsed) }) s

/-- A link port enters Stopping: its link is declared failed with cause 6 at this boundary (R791). -/
def portStopping (l : LinkId) (s : State) : State :=
  let k := link s l
  if k.up then failNow l 6 s
  else relight l (setLink s l { k with nego := false, failAt := none })

/-- On entry to Stopping: what was accepted and has not started ends with `st` (R79, R466, R524, R791). -/
def stopHook (f : FnId) (st : BitVec 8) (s : State) : State :=
  match f with
  | .port l => if h : ethMode s l.val ∧ 80 ≤ l.val then relight l (ethPortDown ⟨l.val - 80, by have := l.isLt; omega⟩ s) else portStopping l s
  | .sq i => cancelFetched i st s
  | .stream k => streamStop st k s
  | .kernel k => kernelStopping k st s
  | .qp q => qpCancel q st s
  | _ => s

/-- A packet of the port stands in an input or output queue (R791). -/
def portHolds (s : State) (l : LinkId) : Bool :=
  !(inPort s (linkPort l)).queue.isEmpty || !(outPort s (linkPort l)).pkts.isEmpty || (outPort s (linkPort l)).held.any (!·.ghost)

/-- Completions of ring `i` that wait for the Enzen link (R137, R140). -/
def unwritten (s : State) (i : Fin 64) : Nat := ((s.enz.lost ++ s.enz.held).filter (fun f => f.compl = some i)).length

/-- Every accepted item has its outcome (Table 3-6, R137, R433, R791). -/
def fnIdle (s : State) (f : FnId) : Bool :=
  match f with
  | .port l => !portHolds s l && !(link s l).up
  | .sq i => sqLoad s i = 0 && unwritten s i = 0
  | .cq i => cqLoad s i = 0
  | .ev => true
  | .group g => (groupOf s g).ops.isEmpty
  | .stream k => streamIdle s k
  | .kernel k => kernelIdle s k
  | .qp q => qpIdle s q

/-- On leaving Stopping (R58, R137, R433, R508, R535): a group's reserve returns; a ring is audited, and its final index is written. -/
def offHook (f : FnId) (s : State) : State :=
  match f with
  | .sq i =>
    let s := auditRing s i
    consumerPut (4 * i.val) (sqRing s i).cons (setSq s i { tblGet {} s.rings.sq i.val with pub := (sqRing s i).cons })
  | .port l => relight l s
  | .group g =>
    let v := groupOf s g
    let pool := v.ending.filter (fun t => !t.fromReserve)
    let s := { s with hawk.grains := s.hawk.grains + v.res + pool.foldl (fun n t => n + t.grains) 0,
                      hawk.spill := s.hawk.spill + v.res + pool.foldl (fun n t => n + t.spill) 0 }
    setGroup s g {}
  | .stream k => streamRelease k s
  | .kernel k => kernelOff k s
  | _ => s

/-! ### The transitions (Table 3-6) -/

/-- Off to Starting, with a new generation (R76); `waits` complete when On is entered. -/
def fnStart (f : FnId) (want : Nat) (waits : List DRef) (s : State) : State :=
  let v := fnOf s f
  startHook f want (setFn s f { v with st := .starting, gen := v.gen + 1, pend := false, recDis := false,
                                       since := s.tick.elapsed, due := prepDue s, onWait := waits, pendWait := [] })

/-- To Stopping (R79). -/
def fnStop (f : FnId) (st : BitVec 8) (s : State) : State :=
  stopHook f st (setFn s f { fnOf s f with st := .stopping, recDis := false, since := s.tick.elapsed, due := prepDue s })

/-- An enable arrives (Table 3-6, R813); `want` is a group's res_grains. -/
def fnEnable (f : FnId) (d : Option DRef) (want : Nat) (s : State) : State :=
  let v := fnOf s f
  let ds := d.toList
  let wait := fun s : State => ds.foldl (fun s d => addWaits d 1 s) s
  match v.st with
  | .off =>
    if v.pend then wait (setFn s f { v with pendWait := v.pendWait ++ ds })
    else match enableRefusal s f want with
      | some st => completeAll ds st v.gen s
      | none => wait (fnStart f want ds s)
  | .starting | .on => completeAll ds stOk v.gen s
  | .stopping => wait (setFn s f { v with pend := true, pendWait := v.pendWait ++ ds })

/-- A disable arrives (Table 3-6, R78, R813). -/
def fnDisable (f : FnId) (d : Option DRef) (s : State) : State :=
  let v := fnOf s f
  let ds := d.toList
  let wait := fun s : State => ds.foldl (fun s d => addWaits d 1 s) s
  match v.st with
  | .off => completeAll ds stOk v.gen s
  | .starting => wait (setFn s f { v with recDis := true, offWait := v.offWait ++ ds })
  | .on => fnStop f stCancelled (wait (setFn s f { v with offWait := v.offWait ++ ds }))
  | .stopping =>
    completeAll v.pendWait stCancelled v.gen
      (wait (setFn s f { v with pend := false, pendWait := [], offWait := v.offWait ++ ds }))

/-- The function is a port. -/
def isPort : FnId → Bool
  | .port _ => true
  | _ => false

/-- Starting to On, at the boundary for which the change is prepared and at which set-up is complete (R49, R139, R431, R498, R813). A disable recorded in Starting applies
on reaching On; that of a port applies at the next boundary (R790). A group whose reserve the pool could not give yet asks
again. A set-up that failed takes the instance through On to Stopping, and its enable completes with the failure (log 105). -/
def functionOn (f : FnId) (s : State) : State :=
  let v := fnOf s f
  if s.tick.slot ≠ 0 || v.st ≠ .starting || !reached s v.due then s
  else if v.recDis && isPort f then fnStop f stCancelled s
  else if !fnReady s f then
    match f with
    | .group g => groupReserve g (setFn s f { v with due := prepDue s })
    | _ => s
  else
    let st := setUpStatus s f
    let s := setFn s f { v with st := .on, since := s.tick.elapsed, onWait := [] }
    let s := completeAll v.onWait st v.gen s
    let s := if st = stOk then onHook f s else s
    if v.recDis || st ≠ stOk then fnStop f stCancelled s else s

/-- Meaning of FUNCTION_ON. -/
def execFunctionOn (f : FnId) (s : State) : Out := .next (functionOn f s)

/-- A host reset is answered once every ring has reached Off (R100). -/
def hostResetAck (s : State) : State :=
  if s.enz.hostReset && allRingsOff s then sendFrame (linkCtl 0x06 0) { s with enz.hostReset := false } else s

/-- A pending enable takes effect a boundary after Stopping ended (R77). -/
def pendStart (f : FnId) (s : State) : State :=
  let v := fnOf s f
  let want := match v.pendWait.head?.bind (flightOf s) with
    | some x => fld x.desc 192 16
    | none => 0
  match enableRefusal s f want with
  | some st => completeAll v.pendWait st v.gen (setFn s f { v with pend := false, pendWait := [] })
  | none => fnStart f want v.pendWait s

/-- Stopping to Off, when every item has its outcome, and Off to Starting under a pending enable (R75 to R77, R813). -/
def functionOff (f : FnId) (s : State) : State :=
  let v := fnOf s f
  if s.tick.slot ≠ 0 || !reached s v.due then s
  else match v.st with
    | .stopping =>
      if fnIdle s f then
        let s := setFn s f { v with st := .off, since := s.tick.elapsed, due := prepDue s, recDis := false, offWait := [] }
        hostResetAck (completeAll v.offWait stOk v.gen (offHook f s))
      else s
    | .off => if v.pend then pendStart f s else s
    | _ => s

/-- Meaning of FUNCTION_OFF. -/
def execFunctionOff (f : FnId) (s : State) : Out := .next (functionOff f s)

/-! ### Descriptors that enable and disable -/

/-- The checks that both ring opcodes share, and the ring (R793, R819). -/
def ringDesc (d : DRef) (f : InFlight) (s : State) (body : FnId → State → State) : State :=
  match ringTarget f with
  | none => complete d stBad 0 s
  | some t =>
    let s := modFlight d (fun g => { g with gen := fnGen s t }) s
    if !genOk s f t then complete d stStaleGen 0 s
    else if isAdminRing t then complete d stBad 0 s
    else body t s

/-- Meaning of RING_ENABLE (R139). -/
def execRingEnable (d : DRef) (s : State) : Out :=
  .next (withDesc d 0x02 s (fun f s => ringDesc d f s (fun t s => fnEnable t (some d) 0 s)))

/-- RING_DISABLE targets the ring that carries it, or a completion ring to which a submission ring that is not Off is bound
(R138). -/
def disableBad (s : State) (d : DRef) (t : FnId) : Bool :=
  match t with
  | .sq i => i = d.sq
  | .cq j => (List.finRange 64).any (fun i => fnSt s (.sq i) ≠ .off && (sqRing s i).cq = j)
  | _ => false

/-- Meaning of RING_DISABLE (R138). -/
def execRingDisable (d : DRef) (s : State) : Out :=
  .next (withDesc d 0x03 s (fun f s => ringDesc d f s (fun t s =>
    if disableBad s d t then complete d stBad 0 s else fnDisable t (some d) s)))

/-- GROUP_ENABLE (R428 to R431, R813): it ignores target_gen; a group without a valid entry belongs to no tenant, and one in Starting or On
needs nothing. In Lockdown it completes
with SECURITY_HALT (R682). -/
def groupEnable (d : DRef) (f : InFlight) (s : State) : State :=
  match groupTarget f with
  | none => complete d stBad 0 s
  | some g =>
    if !gValid (gEntry s g) then completeGen d stBad (fnGen s (.group g)) s
    else withGroup d f false s (fun g s =>
      if fnSt s (.group g) = .starting || fnSt s (.group g) = .on then fnEnable (.group g) (some d) 0 s
      else if locked s then complete d stHalt 0 s
      else if !groupEnableOk s g (fld f.desc 192 16) then complete d stBad 0 s
      else fnEnable (.group g) (some d) (fld f.desc 192 16) s)

/-- Meaning of GROUP_ENABLE. -/
def execGroupEnable (d : DRef) (s : State) : Out := .next (withDesc d 0x20 s (groupEnable d))

/-- Meaning of GROUP_DISABLE (R433). -/
def execGroupDisable (d : DRef) (s : State) : Out :=
  .next (withDesc d 0x21 s (fun f s => withGroup d f true s (fun g s => fnDisable (.group g) (some d) s)))

/-- An enable of a stream, kernel or queue pair: in Lockdown it completes with SECURITY_HALT (R682). -/
def enableDesc (t : FnId) (d : DRef) (s : State) : State :=
  if locked s then complete d stHalt 0 s else fnEnable t (some d) 0 s

/-- Meaning of STREAM_ENABLE (R498): a stream with no program draws BAD_DESCRIPTOR. -/
def execStreamEnable (d : DRef) (s : State) : Out :=
  .next (withDesc d 0x31 s (fun f s =>
    match streamTarget f with
    | some k => if (streamOf' s k).program.isEmpty then withStream d f true false s (fun _ s => complete d stBad 0 s)
      else withStream d f true true s (fun k s => enableDesc (.stream k) d s)
    | none => complete d stBad 0 s))

/-- Meaning of STREAM_DISABLE (R523). -/
def execStreamDisable (d : DRef) (s : State) : Out :=
  .next (withDesc d 0x32 s (fun f s => withStream d f true true s (fun k s => fnDisable (.stream k) (some d) s)))

/-- Meaning of KERNEL_ENABLE (R546, R548). -/
def execKernelEnable (d : DRef) (s : State) : Out :=
  .next (withDesc d 0x41 s (fun f s => withKernel d f true s (fun k s => enableDesc (.kernel k) d s)))

/-- Meaning of KERNEL_DISABLE. -/
def execKernelDisable (d : DRef) (s : State) : Out :=
  .next (withDesc d 0x42 s (fun f s => withKernel d f true s (fun k s => fnDisable (.kernel k) (some d) s)))

/-- Meaning of QP_ENABLE. -/
def execQpEnable (d : DRef) (s : State) : Out :=
  .next (withDesc d 0x61 s (fun f s => withQp d f true s (fun q s => enableDesc (.qp q) d s)))

/-- Meaning of QP_DISABLE. -/
def execQpDisable (d : DRef) (s : State) : Out :=
  .next (withDesc d 0x62 s (fun f s => withQp d f true s (fun q s => fnDisable (.qp q) (some d) s)))

/-! ### Control words (Table 24-5, R787 to R793) -/

/-- The ring that a control word of RING_CTRL is about. -/
def regRingFn : RegRing → FnId
  | .sq0 => .sq 0
  | .cq0 => .cq 0
  | .ev => .ev

/-- Meaning of PORT_CTRL_ENABLE: an applied write of enable = 1 (R788). -/
def execPortCtrlEnable (l : LinkId) (s : State) : Out := .next (fnEnable (.port l) none 0 s)

/-- Meaning of PORT_CTRL_DISABLE. -/
def execPortCtrlDisable (l : LinkId) (s : State) : Out := .next (fnDisable (.port l) none s)

/-- Meaning of RING_CTRL_ENABLE. -/
def execRingCtrlEnable (r : RegRing) (s : State) : Out := .next (fnEnable (regRingFn r) none 0 s)

/-- Meaning of RING_CTRL_DISABLE. -/
def execRingCtrlDisable (r : RegRing) (s : State) : Out := .next (fnDisable (regRingFn r) none s)

/-! ### Host reset and Lockdown -/

/-- Every ring. -/
def allRings : List FnId := .ev :: (List.finRange 64).flatMap (fun i => [.sq i, .cq i])

/-- Meaning of HOST_RESET (R141): every ring goes to Stopping; completions and events are discarded from now on and counted, those held
for the ring among them. -/
def execHostReset (s : State) : Out :=
  let s := takeInbox 0x09 { s with enz.hostReset := true }
  let s := { s with enz.discarded := s.enz.discarded + s.rings.evHeld.length + s.rings.evOver.length, rings.evHeld := [], rings.evOver := [] }
  .next (hostResetAck (allRings.foldl (fun s f => fnDisable f none s) s))

/-- Instances of groups, streams, kernels and queue pairs that are not Off (R682). -/
def keyedFns (s : State) : List FnId :=
  ((List.finRange 1024).map FnId.group ++ (List.finRange 64).map FnId.stream ++ (List.finRange 256).map FnId.kernel
    ++ (s.gw.qp.filterMap (fun e => if h : e.1 < 16384 then some (FnId.qp ⟨e.1, h⟩) else none))).filter (fun f => fnSt s f ≠ .off)

/-- An instance that Lockdown stops: whatever of it has not started, and the enables that wait, end with SECURITY_HALT. -/
def lockStop (s : State) (f : FnId) : State :=
  let v := fnOf s f
  let s := completeAll (v.onWait ++ v.pendWait) stHalt v.gen (setFn s f { v with onWait := [], pendWait := [], pend := false })
  let s := if v.st = .stopping then s else fnStop f stHalt s
  match f with
  | .group g => (upFrom 0 16).foldl (fun s q => failOp g ⟨q % 16, Nat.mod_lt _ (by decide)⟩ stHalt (fun _ => false) s) s
  | .stream k => (streamOf' s k).segs.foldl (fun s r => endAll k r.pass r.seg stHalt s) s
  | .kernel k => ((kernelAt s k).runs.filter (fun r => r.status = stOk)).foldl (fun s r =>
      match limitThread s k r with
      | some t => fault t 0x06 (thr s t).pc s
      | none => settleRun k r.num (modWorkRun k r.num (fun r => { r with status := stHalt }) s)) s
  | .qp q => ((qpOf s q).outs.filter (fun o => o.started)).foldl (fun s o => gwEnd q o.d stHalt s) s
  | _ => s

/-- Array memories, thread registers, hold rooms, the sequence table and the overflow region are zeroed, and the part draws a new
Larder key (R683). -/
def lockErase (s : State) : State :=
  let s := { s with work.mem := [], work.thr := tblMap {} (fun _ h => { h with s := [], v := [], p := [], flags := 0 }) s.work.thr }
  let s := larderZero (seqBase s) (gib / 2) s
  { s with larder.partKey := !s.strong.erased }

/-- The descriptor moves data from or to the module's own memory (Table 11-12). -/
def touchesOwn (s : State) (f : InFlight) : Bool :=
  let d := f.desc
  match (dOpcode d).toNat with
  | 0x10 => (!dmSrcHost d && isLocal s (dmSrc d)) || (!dmDstHost d && isLocal s (dmDst d))
  | 0x11 => !dmDstHost d && isLocal s (dmDst d)
  | 0x12 => !dmSrcHost d && isLocal s (dmSrc d)
  | _ => false

/-- Descriptors of data movement that have started and touch the part's memory end with SECURITY_HALT (Table 19-9a). -/
def lockDesc (s : State) : State :=
  ((s.rings.flight.filter (fun f => f.stage = .started && touchesOwn s f)).map (·.ref)).foldl (fun s d => complete d stHalt 0 s) s

/-- LOCKDOWN_ENTER (R682, R683, R686): the Lockdown tick. Links with link_enc = 1 are declared failed at step 3 of this
boundary, and every function whose work needs a key stops. -/
def lockdownEnter (s : State) : State :=
  match s.strong.lockAt with
  | none => s
  | some t =>
    if s.tick.slot ≠ 0 || !reached s t then s
    else
      let s := { s with strong.lockAt := none, strong.lockdown := true, strong.erased := s.strong.erased || s.strong.lockErase }
      let s := (allLinks.filter (fun l => bit (reg s .linkSec l.val) 0 && (link s l).up)).foldl (fun s l => failNow l 5 s) s
      let s := (keyedFns s).foldl lockStop s
      lockErase (lockDesc s)

/-- Meaning of LOCKDOWN_ENTER. -/
def execLockdownEnter (s : State) : Out := .next (lockdownEnter s)

end Machine
end Sys2Proof
end

