-- ==== Sys2Proof/Machine/Registers.lean ====
section
/-!
DEFINITION. Reads and writes of the set-up registers (R776 to R797), the configuration bundle, and what becomes of an
envelope that has been verified.
-/
namespace Sys2Proof
namespace Machine

/-! ### Values read (R780) -/

/-- The control word of a function (Table 24-5). -/
def ctrlWord (s : State) (f : FnId) (up : Bool) : Word :=
  let v := fnOf s f
  BitVec.ofNat 64 (fnStCode v.st <<< 2 + v.pend.toNat <<< 4 + up.toNat <<< 5 + v.gen.toNat <<< 16)

/-- The link of a port is in service, as a fabric link or as an Ethernet port. -/
def linkUp (s : State) (l : LinkId) : Bool :=
  if h : 80 ≤ l.val then (link s l).up || (ethPort s ⟨l.val - 80, by have := l.isLt; omega⟩).up else (link s l).up

/-- The lane carries frames (Table 18-9). -/
def laneInUse (s : State) (n : LaneId) : Bool :=
  let l := linkOfLane n
  if (link s l).up then bit (link s l).lanes (n.val % 4) else linkUp s l && (lane s n).st = .service

/-- Word 0 of LANE_STAT. -/
def laneStat (s : State) (n : LaneId) : Word :=
  let a := lane s n
  BitVec.ofNat 64 (laneStCode a.st + (laneInUse s n).toNat <<< 3 + (a.ownOut || a.peerOut).toNat <<< 4 + a.failed.toNat <<< 5
    + a.fails.toNat <<< 8 + a.rxPower.toNat <<< 16 + a.txPower.toNat <<< 32)

/-- HAWK_STATE (Table 13-8). -/
def hawkWord (s : State) : Word :=
  let res := s.hawk.group.foldl (fun n v => n + v.2.res) 0
  BitVec.ofNat 64 (s.hawk.grains + res <<< 16 + s.hawk.spill <<< 32 + spillTotal s <<< 48)

/-- STREAM_STATE (Table 24-9). -/
def streamWord (s : State) (k : Fin 64) : Word :=
  let v := fnOf s (.stream k)
  let x := streamOf' s k
  BitVec.ofNat 64 (fnStCode v.st + v.pend.toNat <<< 2 + (x.tenant.getD 0).toNat <<< 8 + v.gen.toNat <<< 16 + x.program.length <<< 32)

/-- WORK_ARRAY (Table 24-9). -/
def arrayWord (s : State) (a : Nat) : Word :=
  let o := arrayOwner s a
  let busy := (s.work.thr.filter (fun e => e.1 / 32 = a && e.2.active)).length
  BitVec.ofNat 64 (o.isSome.toNat + (s.work.zeroing.any (fun z => z.1 = a)).toNat <<< 1 + (o.getD 0).toNat <<< 8 + busy <<< 16)

/-- OE_LASER (Table 18-11): its enables are stored. -/
def laserWord (s : State) (e : Fin 24) : Word :=
  let a := laser s e false
  let b := laser s e true
  setFld (setFld (setFld (setFld (reg s .oeLaser e.val) 2 1 a.fault.toNat) 3 1 b.fault.toNat) 16 16 a.power.toNat) 32 16 b.power.toNat

/-- Word 0 of TM_GATE_CTRL (Table 9-10). -/
def gateWord (s : State) (l : LinkId) : Word :=
  let g := tmOf s l
  setFld (setFld (setFld (reg s .tmGateCtrl l.val) 1 1 g.swap.isSome.toNat) 2 1 g.swapErr.toNat) 3 1 g.bank.toNat

/-- LARDER_RETIRE (Table 11-16). -/
def retireWord (s : State) : Word :=
  setFld (setFld (setFld (reg s .larderRetire) 20 1 s.larder.goFrame.isSome.toNat) 21 1 s.larder.refused.toNat) 32 10
    (512 - s.larder.sparesUsed)

/-- REG_ERR (Table 24-4). -/
def regErrWord (s : State) : Word :=
  BitVec.ofNat 64 (s.regs.errAddr.toNat + s.regs.errWrite.toNat <<< 24 + s.regs.errCause.toNat <<< 25 + s.regs.errCount.toNat <<< 32
    + s.regs.err.toNat <<< 48)

/-- Unit `u` of a block of `n`. -/
def unitOf (n u : Nat) (h : 0 < n) : Fin n := ⟨u % n, Nat.mod_lt _ h⟩

/-- The function of a control word. -/
def ctrlFn (u : Nat) : FnId :=
  match u with
  | 0 => .sq 0
  | 1 => .cq 0
  | _ => .ev

/-- The applied value of a register word (R780). -/
def regRead (s : State) (r : RegAt) : Word :=
  match r.name, r.w with
  | .chipId, _ => 0x1296240C57
  | .chipSerial, _ => Config.serial
  | .regErr, _ => regErrWord s
  | .coatState, _ => coatWord s
  | .ringCtrl, _ => ctrlWord s (ctrlFn r.u) false
  | .portCtrl, _ => ctrlWord s (.port (unitOf 96 r.u (by decide))) (linkUp s (unitOf 96 r.u (by decide)))
  | .atticState, _ => atticWord s
  | .powerState, _ => powerWord s
  | .strongState, _ => strongWord s
  | .hawkState, _ => hawkWord s
  | .larderRetire, _ => retireWord s
  | .streamState, _ => streamWord s (unitOf 64 r.u (by decide))
  | .workArray, _ => arrayWord s r.u
  | .laneStat, 0 => laneStat s (unitOf 384 r.u (by decide))
  | .laneStat, _ => BitVec.ofNat 64 (lane s (unitOf 384 r.u (by decide))).prbsErr.toNat
  | .oeLaser, _ => laserWord s (unitOf 24 r.u (by decide))
  | .tmGateCtrl, 0 => gateWord s (unitOf 96 r.u (by decide))
  | _, _ => reg s r.name r.u r.v r.w

/-! ### Reads (R776, R777, R783) -/

/-- The access is one that R777 refuses. -/
def regRefused (addr : Word) (wide : Bool) : Bool :=
  decide (2 ^ 24 ≤ addr.toNat) || addr.toNat % (if wide then 8 else 4) ≠ 0 || (regFind addr.toNat).isNone

/-- The answer to a REG_RD. -/
def regAnswer (r : RegRead) (st : BitVec 8) (v : Word) (s : State) : State :=
  sendFrame { ftype := 0x06, status := st, tag := r.tag, addr := r.addr, payload := leBytes (if r.wide then 8 else 4) v.toNat } s

/-- Answers a read with the value in force. -/
def regServe (s : State) (r : RegRead) : State :=
  match regFind r.addr.toNat with
  | none => regAnswer r stDenied 0 s
  | some x => regAnswer r stOk (if r.addr.toNat % 8 = 4 then regRead s x >>> 32 else regRead s x) s

/-- A REG_RD arrives: it is answered after every write that arrived before it (R783). -/
def regRd (addr : Word) (wide : Bool) (tag : BitVec 16) (s : State) : State :=
  let n := s.regs.writes.length + s.regs.heldWrites.length
  let r : RegRead := ⟨addr, wide, tag, n⟩
  if regRefused addr wide then regAnswer r stDenied 0 (regError addr.toNat false 1 s)
  else if n = 0 then regServe s r
  else { s with regs.reads := s.regs.reads ++ [r] }

/-! ### Writes (R778 to R784, R787 to R789) -/

/-- Functions that own a register's RWO fields (R787, Tables 24-3, 24-6 and 24-7). Those of tick_source, for which no rule names one, are
those of the other field that holds for the whole module, node_id (DESIGN CHOICE, log 48). -/
def regOwners (n : RegName) (u : Nat) : List FnId :=
  let port := fun k : Nat => [FnId.port (unitOf 96 k (by decide))]
  match n with
  | .fabricCfg => allLinks.map FnId.port
  | .hostCfg => allRings
  | .admSqCfg => [.sq 0]
  | .admCqCfg => [.cq 0]
  | .evRingCfg => [.ev]
  | .ethPortCfg => port (80 + u)
  | .portEdge => port u
  | .linkLlCtrl => port u
  | .linkSec => port u
  | .linkVcCfg => port u
  | .laneCtrl => port (u / 4)
  | .atticTick => allLinks.map FnId.port
  | _ => []

/-- The bits that a write puts into its word, and which bits it writes (R778). -/
def writeBits (a : Nat) (wide : Bool) (v : Word) : Word × Word :=
  if wide then (v, mask 0 64) else if a % 8 = 4 then (v <<< 32, mask 32 32) else (v &&& mask 0 32, mask 0 32)

/-- Enable and disable of a control word (R788, R789). -/
def ctrlWrite (f : FnId) (a : Nat) (cause : BitVec 3) (act : Word) (s : State) : State :=
  if bit act 0 && bit act 1 then regError a true cause s
  else if bit act 0 then fnEnable f none 0 s
  else if bit act 1 then fnDisable f none s
  else s

/-- What a committed write does besides storing its fields: W1C and W1S fields, control words, and what follows a changed field
(R281, R415, R656, Table 24-5). `act` holds the written bits of the commit word, `act0` those staged for word 0. -/
def regAction (r : RegAt) (a : Nat) (cause : BitVec 3) (act act0 : Word) (nodeChanged : Bool) (s : State) : State :=
  match r.name with
  | .regErr => if bit act 48 then { s with regs.err := false } else s
  | .ringCtrl => ctrlWrite (ctrlFn r.u) a cause act s
  | .portCtrl => ctrlWrite (.port (unitOf 96 r.u (by decide))) a cause act s
  | .linkLlCtrl => if bit act 3 then setFallback (unitOf 96 r.u (by decide)) false s else s
  | .larderRetire =>
    let s := if bit act 21 then { s with larder.refused := false } else s
    if bit act 20 then goRetire (BitVec.ofNat 20 (fld (reg s .larderRetire) 0 20)) s else s
  | .laneStat => if bit act 5 then clearFailed (unitOf 384 r.u (by decide)) s else s
  | .oeLaser => laserEnable (unitOf 24 r.u (by decide)) (bit (reg s .oeLaser r.u) 0) (bit (reg s .oeLaser r.u) 1) s
  | .laneCtrl => relight (unitOf 96 (r.u / 4) (by decide)) s
  | .tmGateCtrl =>
    let l : LinkId := unitOf 96 r.u (by decide)
    let s := if bit act0 2 then setTm s l { tmOf s l with swapErr := false } else s
    if bit act0 1 then swapRequest l s else s
  | .fabricCfg => if nodeChanged then seedAll (myNode s) s else s
  | _ => s

/-- The word that a write stores: RW fields as written; RWO fields too while their function is Off. A change of an RWO field of a
function that is not Off is misuse, and leaves that field a free value (R7, Table 3-8). -/
def storeWord (r : RegAt) (w : Nat) (off : Bool) (old new : Word) (s : State) : State :=
  let rw := rwMask r.name r.v w
  let ro := rwoMask r.name w
  let base := (old &&& ~~~(rw ||| ro)) ||| (new &&& rw)
  let ch := rwoChanged r.name w old new
  if off || ch = 0 then setReg s r.name r.u r.v w (base ||| (new &&& ro))
  else
    let (x, s) := takeFree s
    setReg s r.name r.u r.v w (base ||| (new &&& ro &&& ~~~ch) ||| (x &&& ch))

/-- Stores the words of a register. -/
def storeWords (r : RegAt) (off : Bool) : Nat → List Word → List Word → State → State
  | w, o :: os, n :: ns, s => storeWords r off (w + 1) os ns (storeWord r w off o n s)
  | _, _, _, s => s

/-- Units that the shares of a link's partitions add up to, with the word `x` for channel `v` (R217). -/
def shareSum (s : State) (l v : Nat) (x : Word) : Nat :=
  (upFrom 0 8).foldl (fun n q =>
    let w := if q = v then x else reg s .linkVcCfg l q
    n + fld w 0 15 + fld w 16 15) 0

/-- The words of a register keep the rules that its chapter states (R784): those of its fields, and the sum of R217. -/
def wordsLegal (s : State) (r : RegAt) (ws : List Word) : Bool :=
  regLegal r.name r.v ws && (r.name ≠ .linkVcCfg || decide (shareSum s r.u r.v (ws.getD 0 0) ≤ 16384))

/-- A write to the commit word: the staged words and this one apply together, or none of them (R779, R784). -/
def commitWrite (bundle : Bool) (r : RegAt) (a : Nat) (v m : Word) (s : State) : State :=
  let ws := upFrom 0 (regBlock r.name).words
  let old := ws.map (fun w => reg s r.name r.u r.v w)
  let staged := fun w : Nat => tblGet none s.regs.staged (regIdx r.name r.u r.v w)
  let asked := ws.map (fun w =>
    let o := reg s r.name r.u r.v w
    let n := if w = r.w then (o &&& ~~~m) ||| v else (staged w).getD o
    let k := rwMask r.name r.v w ||| rwoMask r.name w
    (o &&& ~~~k) ||| (n &&& k))
  let act0 := (staged 0).getD 0
  let s := { s with regs.staged := ws.foldl (fun t w => tblSet none t (regIdx r.name r.u r.v w) none) s.regs.staged }
  let cut := ws.map (fun w => regNarrow r.name w (old.getD w 0) (asked.getD w 0))
  let cause : BitVec 3 := if bundle then 4 else 2
  let cut := if r.name = .tmMeter then (meterTrim r.u (cut.map (·.1))).zip (cut.map (·.2)) else cut
  if !wordsLegal s r (cut.map (·.1)) then regError a true cause s
  else
    let off := (regOwners r.name r.u).all (fun f => fnSt s f = .off)
    let node := myNode s
    let s := storeWords r off 0 old (cut.map (·.1)) s
    let s := regAction r a (if bundle then 4 else 3) (v &&& m) act0 (decide (node ≠ myNode s)) s
    if cut.any (·.2) then regError a true cause s else s

/-- Applies one register write (R778, R779). Words of a register without a writable field ignore it, and so does an entry of a gate list's
operating bank (R337). -/
def applyWrite (bundle : Bool) (a : Nat) (wide : Bool) (val : Word) (s : State) : State :=
  match regFind a with
  | none => regError a true (if bundle then 4 else 1) s
  | some r =>
    let (v, m) := writeBits a wide val
    match (regBlock r.name).commit with
    | none => s
    | some c =>
      if r.name = .tmGateEntry && decide (decide (64 ≤ r.v) = (tmOf s (unitOf 96 r.u (by decide))).bank) then s else
      let k := regIdx r.name r.u r.v r.w
      if r.w ≠ c then
        let old := (tblGet none s.regs.staged k).getD (reg s r.name r.u r.v r.w)
        { s with regs.staged := tblSet none s.regs.staged k (some ((old &&& ~~~m) ||| v)) }
      else commitWrite bundle r a v m s

/-- REG_WR (R776, R777, R781, R797): a write that R777 refuses is ignored and recorded; others wait for their boundary, behind the
bundle until that is over. -/
def regWr (addr : Word) (wide : Bool) (val : Word) (s : State) : State :=
  let s := takeInbox 0x07 s
  let w : RegWrite := ⟨addr.toNat, wide, val, prepDue s⟩
  if regRefused addr wide then regError addr.toNat true 1 s
  else if s.regs.bundleDone then { s with regs.writes := s.regs.writes ++ [w] }
  else { s with regs.heldWrites := s.regs.heldWrites ++ [w] }

/-- Meaning of REG_WR. -/
def execRegWr (addr : Word) (wide : Bool) (val : Word) (s : State) : Out := .next (regWr addr wide val s)

/-- The writes that are due apply in order of arrival, and the reads that waited for them are answered (R781 to R783). -/
def applyDue (s : State) : State :=
  let now := s.regs.writes.filter (fun w => reached s w.due)
  let s := { s with regs.writes := s.regs.writes.filter (fun w => !reached s w.due) }
  let s := now.foldl (fun s w => applyWrite false w.addr w.wide w.val s) s
  let rs := s.regs.reads.map (fun r => { r with after := r.after - now.length })
  (rs.filter (fun r => r.after = 0)).foldl regServe { s with regs.reads := rs.filter (fun r => r.after ≠ 0) }

/-! ### The configuration bundle (R795 to R797) -/

/-- Records of a bundle's payload: address and value. -/
def bundleRecords (p : List Byte) : List (BitVec 32 × Word) :=
  (upFrom 0 (leAt p 4 4)).map (fun i => (BitVec.ofNat 32 (leAt p (16 + 16 * i) 4), BitVec.ofNat 64 (leAt p (24 + 16 * i) 8)))

/-- One record is written as an 8-byte register write; a misaligned one is skipped and recorded (R795, R796). -/
def applyRecordOf (s : State) (r : BitVec 32 × Word) : State :=
  if regRefused (r.1.setWidth 64) true then regError r.1.toNat true 4 s else applyWrite true r.1.toNat true r.2 s

/-- CONFIG_BUNDLE_APPLY (R795 to R797): every record in order; staged words left over are discarded; host writes held follow. -/
def bundleApply (s : State) : State :=
  match s.regs.bundle with
  | none => s
  | some rs =>
    if s.tick.slot ≠ 0 then s
    else
      let s := rs.foldl applyRecordOf s
      let s := releaseWrites { s with regs.staged := [] }
      applyDue { s with regs.writes := s.regs.writes.map (fun w => { w with due := s.tick.elapsed }) }

/-- Meaning of CONFIG_BUNDLE_APPLY. -/
def execConfigBundleApply (s : State) : Out := .next (bundleApply s)

/-! ### Verified envelopes (R664 to R666) -/

/-- An equalisation entry keeps R646. -/
def eqOk (e : Word) : Bool :=
  decide ((signed 6 (fld e 0 6)).natAbs + (signed 6 (fld e 6 6)).natAbs + fld e 12 6 + (signed 6 (fld e 18 6)).natAbs ≤ 63)

/-- An accepted equalisation table is used; an entry that breaks R646 is replaced by the default one and counted (R645,
R646). -/
def eqAccept (bs : List Byte) (s : State) : State :=
  let p := envPayload bs
  let es := (upFrom 0 1536).map (fun i => BitVec.ofNat 64 (leAt p (32 + 8 * i) 8))
  { s with
    attic.eq := some (es.map (fun e => if eqOk e then some e else none)), attic.eqBytes := p
    attic.eqReplaced := s.attic.eqReplaced + (es.filter (fun e => !eqOk e)).length }

/-- What follows a verification. -/
def verified (u : VerifyUse) (ok : Bool) (bs : List Byte) (s : State) : State :=
  match u with
  | .coat d => coatVerified d ok bs s
  | .fw d => fwVerified d ok bs s
  | .session d => sessionDone d ok bs s
  | .bundle =>
    if ok then { s with regs.bundle := some (bundleRecords (envPayload bs)), attic.bundleBytes := envPayload bs } else releaseWrites s
  | .eqTable =>
    allLinks.foldl (fun s l => relight l s) (if ok then eqAccept bs s else { s with attic.eqRefused := s.attic.eqRefused + 1 })

/-- ENVELOPE_VERIFY_DONE (R664 to R666): the Strongroom ends the verification of the oldest envelope; the work of a restarting Attic
waits. -/
def verifyDone (s : State) : State :=
  match s.strong.verify with
  | [] => s
  | v :: rest =>
    if s.attic.restarting then s
    else
      let s := { s with strong.verify := rest }
      match envFault s (verifyKind v.use).1 v.bytes with
      | some c => verified v.use false v.bytes (envRefuse c (verifyKind v.use).2 v.bytes s)
      | none => verified v.use true v.bytes s

/-- Meaning of ENVELOPE_VERIFY_DONE. -/
def execEnvelopeVerifyDone (s : State) : Out := .next (verifyDone s)

end Machine
end Sys2Proof
end

