-- ==== Sys2Proof/Machine/Slots.lean ====
section
/-!
DEFINITION. The steps of Table 2-6 without a row of their own that come after rows (7, 8 and 10): they apply at the latest before a row
that comes after them, or whose work they touch, so that each sees the results of the steps above it (R50, log 113).
-/
namespace Sys2Proof
namespace Machine

/-- Steps 7, 8 and 10 of Table 2-6 (R55, R56, R107, R329, R343, R352, R512, R627). -/
def innerStep (s : State) (n : Nat) : State :=
  if n = 7 then refillQps (refillStreams (refillAll s))
  else if n = 8 then gateStep s
  else doorbellPoll s

/-- The steps up to `n` that are still to apply at this boundary, in order (R50). -/
def runInner (n : Nat) (s : State) : State :=
  (s.tick.todo.filter (fun k => decide (k ≤ n))).foldl innerStep { s with tick.todo := s.tick.todo.filter (fun k => decide (n < k)) }

/-- The boundary's work without rows is all applied: what any row in the slots finds (R49, R50). -/
def settled (s : State) : State := runInner 10 s

/-- Meaning of GATE_BANK_SWAP, in step 8. -/
def execGateBankSwap (l : LinkId) (s : State) : Out := .next (gateBankSwap l (runInner 7 s))

/-- Meaning of HAWK_GRANT_STEP, step 9. -/
def execHawkGrantStep (s : State) : Out := .next (hawkGrantStep (runInner 8 s))

/-- Meaning of DOORBELL_PAGE_APPLY. -/
def execDoorbellPageApply (s : State) : Out := .next (doorbellApply (runInner 9 s))

/-- The work of this boundary is over: no row of Table 2-6 acts any more in this tick. -/
def closeBoundary (s : State) : State := if s.tick.slot = 0 then setPhase 12 (settled s) else s

/-- Meaning of DESCRIPTOR_TIMED_START: after the boundary work of the tick (R818). -/
def execDescriptorTimedStart (d : DRef) (s : State) : Out := .next (timedStart d (closeBoundary s))

/-- Meaning of FABRIC_PACKET_ARRIVAL. -/
def execFabricPacketArrival (l : LinkId) (p : ArrivedPacket) (s : State) : Out := .next (fabricArrival l p.pkt p.kinds (settled s))

/-- Meaning of STREAM_CHUNK_READ. -/
def execStreamChunkRead (k : Fin 64) (s : State) : Out := .next (chunkRead k (settled s))

/-- A request packet of RoCEv2 arrives. -/
def roceArrives (op : RoceOp) (m : RoceMsg) (s : State) : Out := .next (roceIn op m (settled s))

/-- SEND_FIRST. -/
def execSendFirst (m : RoceMsg) (s : State) : Out := roceArrives .sendFirst m s
/-- SEND_MIDDLE. -/
def execSendMiddle (m : RoceMsg) (s : State) : Out := roceArrives .sendMiddle m s
/-- SEND_LAST. -/
def execSendLast (m : RoceMsg) (s : State) : Out := roceArrives .sendLast m s
/-- SEND_ONLY. -/
def execSendOnly (m : RoceMsg) (s : State) : Out := roceArrives .sendOnly m s
/-- RDMA_WRITE_FIRST. -/
def execRdmaWriteFirst (m : RoceMsg) (s : State) : Out := roceArrives .writeFirst m s
/-- RDMA_WRITE_MIDDLE. -/
def execRdmaWriteMiddle (m : RoceMsg) (s : State) : Out := roceArrives .writeMiddle m s
/-- RDMA_WRITE_LAST. -/
def execRdmaWriteLast (m : RoceMsg) (s : State) : Out := roceArrives .writeLast m s
/-- RDMA_WRITE_ONLY. -/
def execRdmaWriteOnly (m : RoceMsg) (s : State) : Out := roceArrives .writeOnly m s
/-- RDMA_READ_REQUEST. -/
def execRdmaReadRequest (m : RoceMsg) (s : State) : Out := roceArrives .readReq m s

end Machine
end Sys2Proof
end

