-- ==== Sys2Proof/Machine/CoreMeaning.lean ====
section
/-!
DEFINITION. The rows of the cyclic core: a slot of crossings, the arrival of cells at an output, passing packets to the egress
queues, starts, and last bytes (chapters 05, 07, 09, 12 and 14).
-/
namespace Sys2Proof
namespace Machine

/-- Depth of an egress queue in cells: of a channel of a fabric port, or of a class of an Ethernet port (R605, R763). -/
def depthOf (s : State) (l : LinkId) (v : Nat) : Nat :=
  if h : ethMode s l.val ∧ 80 ≤ l.val then queueCells s (tblGet [] (ethPort s ⟨l.val - 80, by have := l.isLt; omega⟩).queue v)
  else queueDepth s (linkPort l) v

/-- What a slot does at a link: stalls are counted (R764), and a fabric link sends. -/
def portSlot (s : State) (l : LinkId) : State :=
  if h : ethMode s l.val ∧ 80 ≤ l.val then ethCount ⟨l.val - 80, by have := l.isLt; omega⟩ ethStall s
  else linkSlot l (countStalls l s)

/-- Reads that are uncorrectable in a slot of the core: the slices whose read of a stored cell is (R253), and those whose read of an
accumulator, of hold room or of a returned cell is (R493). -/
structure SlotFaults where
  cells : List PortId
  hawk : List PortId
  deriving DecidableEq, Repr

/-- The reads of this slot that are uncorrectable. No state of the spec tells them, so free values pick the slices (log 119). -/
def slotFaults (s : State) : SlotFaults × State :=
  let (a, s) := takeFree s
  let (b, s) := takeFree s
  let (c, s) := takeFree s
  let (d, s) := takeFree s
  (⟨allPorts.filter (fun m => bit (b ++ a) m.val), allPorts.filter (fun m => bit (d ++ c) m.val)⟩, s)

/-- CORE_SLOT (R236, R240, R43): waiting packets are tried, both stages cross, the Hawk takes the cells that reached it and serves those it
holds, room returns, and queues are sampled; then the slot ends. After the tick's last slot nothing crosses until the boundary. -/
def coreSlot (s : State) : State :=
  if s.tick.len ≤ s.tick.slot then s
  else
    let (f, s) := slotFaults s
    let s := coreCross f.cells (collRetry (settled s))
    let s := hawkRelease (hawkReturn (hawkServe f.hawk (hawkLand f.hawk s)))
    let s := allLinks.foldl portSlot (sampleDepths (depthOf s) s)
    { s with tick.slot := s.tick.slot + 1, tick.ns := s.tick.ns + 1 }

/-- Meaning of CORE_SLOT. -/
def execCoreSlot (s : State) : Out := .next (coreSlot s)

/-! ### Arrival at an output -/

/-- COLL_RESULTs at an output, of which the last holds the result cell's credit with slice `m`. -/
def addResults (o : PortId) (c : Cell) (m : Nat) : List Packet → State → State
  | [], s => s
  | p :: t, s =>
    let own := t.isEmpty
    let e : OutPkt := { uid := s.core.uid, pkt := p, kind := .result, src := c.src, count := own.toNat, have_ := own.toNat,
                        slices := if own then [(m, 1)] else [], first := s.tick.ns, credit := own, ref := c.ref }
    addResults o c m t (modOut o (fun q => { q with pkts := q.pkts ++ [e] }) { s with core.uid := s.core.uid + 1 })

/-- A result cell becomes a COLL_RESULT at its output (R448); one whose operation is over, or whose link is out of service, is
dropped, and one read with an uncorrectable error ends its operation. -/
def arriveResult (o : PortId) (c : Cell) (m : Nat) (s : State) : State :=
  let drop := fun s => countLeft o 1 (freeReplicas o [(m, 1)] s)
  if c.bad then drop (resultBad c s)
  else if (collResultAt s o c).isEmpty || outDown s o then drop s
  else addResults o c m (collResultAt s o c) s

/-- Packets at an output that hold a bad cell end there (R262). -/
def dropBad (o : PortId) (s : State) : State :=
  (((outPort s o).pkts.filter (fun q => q.bad && !q.cut)).map (·.uid)).foldl (fun s u => discardAt o u stDataError s) s

/-- A cell that crossed stage two arrives at its output (R257, R258, R262 to R268, R272). -/
def cellArrive (o : PortId) (s : State) : State :=
  match (outPort s o).arriving with
  | [] => s
  | (c, m) :: t =>
    let s := modOut o (fun p => { p with arriving := t }) s
    let s := match c.kind with
      | .unicast => arriveUnicast o c s
      | .mcast => arriveMcast o c m s
      | .result => arriveResult o c m s
      | .contrib => countLeft o 1 s
    streamLosses (forgetDead o (dropBad o s))

/-- Meaning of CELL_ARRIVE_OUTPUT. -/
def execCellArriveOutput (o : PortId) (s : State) : Out := .next (cellArrive o s)

/-- Meaning of CELL_AGE_SWEEP (R265 to R267). -/
def execCellAgeSweep (o : PortId) (s : State) : Out := .next (streamLosses (ageSweep o s))

/-! ### Passing packets on (R259, R260) -/

/-- The output is internal: a Larder, Workroom, Attic or host port, or a port toward the gateway (R236, R600). -/
def isInternal (s : State) (o : PortId) : Bool := decide (96 ≤ o.val) || ethMode s o.val

/-- The packet must be whole before it passes: it goes to an internal output, its chunk is expanded, or it is split (R159, R259,
R514). -/
def needsWhole (s : State) (o : PortId) (q : OutPkt) : Bool :=
  isInternal s o || (match q.ref with
    | .chunk _ _ _ _ => true
    | _ => false)
  || (match portLink o with
    | some l => decide (genMax (link s l).gen < q.pkt.payLen.toNat) && !isAtomic q.pkt
    | none => false)

/-- ct_en of a link port (Table 6-6). -/
def ctEn (s : State) (o : PortId) : Bool := decide (o.val < 96) && bit (reg s .linkLlCtrl o.val) 2

/-- The packet may pass to its egress queue (R259). -/
def mayPass (s : State) (o : PortId) (q : OutPkt) : Bool :=
  !q.passed && (q.have_ = q.count
    || (!needsWhole s o q && ctEn s o && decide (q.first + 128 ≤ s.tick.ns) && (q.kind ≠ .mcast || q.idxs.contains 0)))

/-- The packet that passes next: of those ready, the first under the tie rule over the stream index (R260). -/
def nextToPass (s : State) (o : PortId) : Option OutPkt :=
  ((outPort s o).pkts.filter (mayPass s o)).foldl (fun b q =>
    let key := fun x : OutPkt => tieKey s 1024 (8 * x.src.val + x.pkt.vc.val)
    match b with
    | some x => if key q < key x then some q else b
    | none => some q) none

/-- The cells of a packet leave an output: counted, and their credits returned (R256, R270, R760). -/
def freePkt (o : PortId) (q : OutPkt) (s : State) : State :=
  let s := countLeft o q.have_ (modOut o (fun p => { p with pkts := p.pkts.filter (fun x => x.uid ≠ q.uid) }) s)
  if !q.credit then s else if q.kind = .unicast then freeCredits q.src o q.have_ s else freeReplicas o q.slices s

/-- Answers to requests that the part never sends: it holds no item that one could match (R168). -/
def neverAsked (op : BitVec 8) : Bool := op = 0x91 || op = 0xA0

/-- A packet passes at an internal output: to its function, or a copy that the Attic or host port does not take fails (R316). An answer to
no request of the part's is counted and discarded (R168). -/
def passInternal (o : PortId) (q : OutPkt) (s : State) : State :=
  let s := freePkt o q s
  if q.kind = .mcast && (o.val = 127 || (o.val = 126 && q.pkt.opcode ≠ 0x50)) then mcCount o false stDenied q.pkt s
  else
    let s := if q.kind = .mcast && o.val = 126 then mcCount o true stOk q.pkt s else s
    if neverAsked q.pkt.opcode then { s with items.stray := s.items.stray + 1 }
    else { s with core.delivered := s.core.delivered ++ [(o, q.pkt)] }

/-- A packet enters an egress queue, marked when the queue's depth has reached mark_cells (R349); an output whose queue reaches
its mark is congested (R351). -/
def enterQueue (o : PortId) (q : OutPkt) (s : State) : State :=
  let v := q.pkt.vc.val
  let m := markCells s o.val v
  let full := fun s : State => m ≠ 0 && decide (m ≤ queueDepth s o v)
  let mark := full s
  let q := { q with passed := true, pkt := if mark then sealPkt { q.pkt with ecnCe := true } else q.pkt }
  let s := if mark then bumpPort o (24 * v + 4) s else s
  let s := modOut o (fun p => { p with pkts := p.pkts.filter (fun x => x.uid ≠ q.uid) ++ [q] }) s
  if full s then congest o s else s

/-- Several packets take the place of one: the last of them holds its cells. -/
def enterPieces (o : PortId) (q : OutPkt) : List Packet → State → State
  | [], s => s
  | [p], s => enterQueue o { q with pkt := p } s
  | p :: t, s =>
    let r : Ref := match q.ref with
      | .chunk _ _ _ _ => .none
      | x => x
    let e : OutPkt := { uid := s.core.uid, pkt := p, kind := q.kind, src := q.src, count := 0, have_ := 0, first := q.first,
                        credit := false, ref := r }
    enterPieces o q t (enterQueue o e { s with core.uid := s.core.uid + 1 })

/-- A chunk at a member's output is expanded into its STREAM_CELLs (R514); one that breaks R371 ends its segment (R521). -/
def passChunk (o : PortId) (q : OutPkt) (k : Fin 64) (pass : BitVec 32) (seg c : Nat) (s : State) : State :=
  match chunkPackets s k pass seg c o q.pkt.payload with
  | none => endAll k pass seg stDataError (freePkt o q s)
  | some ([], _) => freePkt o q s
  | some (ps, x) => enterPieces o q ps (countX k x s)

/-- A packet passes at a link port: refused where the link's generation does not carry it (R157), expanded, split (R159), or
as it stands. -/
def passLink (o : PortId) (l : LinkId) (q : OutPkt) (s : State) : State :=
  match q.ref with
  | .chunk k pass seg c => passChunk o q k pass seg c s
  | _ =>
    if !genCarries (link s l).gen q.pkt.opcode then discardAt o q.uid stDenied s
    else enterPieces o q (splitFor (link s l).gen q.pkt) s

/-- PACKET_TO_EGRESS_QUEUE (R259, R260): one packet that is ready passes on. -/
def toQueue (o : PortId) (s : State) : State :=
  match nextToPass s o with
  | none => s
  | some q =>
    if isInternal s o then passInternal o q s
    else match portLink o with
      | some l => passLink o l q s
      | none => s

/-- Meaning of PACKET_TO_EGRESS_QUEUE. -/
def execPacketToEgressQueue (o : PortId) (s : State) : Out := .next (streamLosses (toQueue o s))

/-! ### Starts and last bytes (R325, R327, R339) -/

/-- Meaning of PACKET_START: on a fabric port, or of a frame on an Ethernet port. -/
def execPacketStart (l : LinkId) (s : State) : Out :=
  .next (if h : ethMode s l.val ∧ 80 ≤ l.val then ethStart ⟨l.val - 80, by have := l.isLt; omega⟩ (settled s) else packetStart l (settled s))

/-- What the delivery of a packet's last byte tells: a multicast copy, a collective result, a stream's chunk (R316, R449, R517). -/
def delivered (o : PortId) (q : OutPkt) (s : State) : State :=
  match q.ref with
  | .coll g c sq i => collDelivered g c sq i o q.pkt.payLen.toNat s
  | .chunk k pass seg c => chunkDelivered k pass seg c o s
  | .none => if q.kind = .mcast then mcCount o true stOk q.pkt s else s

/-- LAST_BYTE_LEAVES of a fabric port: the packet under way ends when the frame time of its last byte has passed that byte (R192, R339). -/
def lastByte (l : LinkId) (s : State) : State :=
  let k := link s l
  let o := linkPort l
  match k.tx with
  | none => s
  | some t =>
    match (outPort s o).pkts.find? (fun q => q.uid = t.uid) with
    | none => setLink s l { k with tx := none }
    | some q =>
      if t.pos < pktCharge k.gen q.pkt || s.tick.ns < t.leaves then s
      else
        let late := match t.closing with
          | some c => decide (c < s.tick.ns)
          | none => false
        let s := if late then bumpPort o (24 * t.queue.val + 10) s else s
        let s := freePkt o q (setLink s l { k with tx := none })
        if q.cut then s else delivered o q s

/-- Meaning of LAST_BYTE_LEAVES. -/
def execLastByteLeaves (l : LinkId) (s : State) : Out :=
  .next (if h : ethMode s l.val ∧ 80 ≤ l.val then ethLast ⟨l.val - 80, by have := l.isLt; omega⟩ s else lastByte l s)

end Machine
end Sys2Proof
end

