-- ==== Sys2Proof/Machine/HostReads.lean ====
section
/-!
DEFINITION. What comes from the host: data for the part's reads, received flits, and what each read was for (chapter 04).
-/
namespace Sys2Proof
namespace Machine

/-! ### Descriptors that have been fetched (R115, R116, R819) -/

/-- Status with which a fetched descriptor ends before it can start: its ring has stopped (R79), recovery or a drain does not admit
it (R693, R703), or a check of R819 fails. A reserved opcode is left to its own row. -/
def fetchStatus (s : State) (f : InFlight) : Option (BitVec 8) :=
  let op := dOpcode f.desc
  if fnSt s (.sq f.ref.sq) ≠ .on then some stCancelled
  else if !dKnown op then none
  else match staticCheck s f with
    | some st => some st
    | none =>
      if s.attic.recovery && op ≠ 0x00 && op ≠ 0x04 && op ≠ 0x05 then some stDrained
      else if s.attic.draining && drainWaits f then some stDrained
      else none

/-- A descriptor as it was fetched. DESIGN CHOICE (log 115): the tick in which the part fetches it (R120) is that in which its bytes
arrive. -/
def fetchedDesc (s : State) (i : Fin 64) (k : BitVec 32) (desc : BitVec 512) : InFlight :=
  { ref := ⟨i, k⟩, sqGen := fnGen s (.sq i), desc := desc, fetchTick := nowTick s }

/-- One fetched descriptor joins those in flight, and ends at once where a check fails. -/
def takeDesc (i : Fin 64) (k : BitVec 32) (bs : List Byte) (s : State) : State :=
  let f := fetchedDesc s i k (BitVec.ofNat 512 (leNat bs))
  let s := { s with rings.flight := s.rings.flight ++ [f] }
  match fetchStatus s f with
  | some st => complete f.ref st 0 s
  | none => s

/-- A descriptor whose read failed ends with the read's status and the ring's generation (R116). What its entry carries of the
descriptor that was not read is a free value. -/
def failDesc (i : Fin 64) (k : BitVec 32) (st : BitVec 8) (s : State) : State :=
  let (x, s) := takeFree s
  let d : BitVec 512 := BitVec.ofNat 512 (fld x 0 8 + i.val <<< 32 + fld x 32 32 <<< 64)
  let f := { fetchedDesc s i k d with gen := fnGen s (.sq i) }
  complete f.ref st 0 { s with rings.flight := s.rings.flight ++ [f] }

/-- A read of descriptors has ended: the consumer page shows the slots that no read still needs (R108, R109), those fetched are counted
(Table 23-4), and each descriptor goes its way. -/
def fetchDone (i : Fin 64) (k : BitVec 32) (n : Nat) (st : BitVec 8) (bs : List Byte) (s : State) : State :=
  let s := putSqCons i { s with rings.fetching := s.rings.fetching - n }
  let s := if st = stOk then bump 152 21 n s else s
  (upFrom 0 n).foldl (fun s j =>
    let k := k + BitVec.ofNat 32 j
    if st = stOk then takeDesc i k (slice bs (64 * j) 64) s else failDesc i k st s) s

/-! ### What a read was for -/

/-- The object that a started descriptor needed has been read, or a read of it failed with `st` at `a` (R98, R821). -/
def objectGot (d : DRef) (st : BitVec 8) (a : Word) (bs : List Byte) (s : State) : State :=
  match flightOf s d with
  | none => s
  | some f =>
    match (dOpcode f.desc).toNat with
    | 0x04 => fwGot d st bs s
    | 0x10 => if st = stOk then dmGot d bs s else dmFail d st a s
    | 0x12 => if st = stOk then dmGot d bs s else dmFail d st a s
    | 0x22 => templateGot d st bs s
    | 0x30 => programGot d st bs s
    | 0x43 => argsGot d st bs s
    | 0x49 => pagesGot d st bs s
    | 0x50 => coatGot d st bs s
    | 0x60 => qpGot d st bs s
    | 0x71 => sessionGot d st bs s
    | 0x72 => provisionGot d st bs s
    | _ => s

/-- The doorbell page has been read: it waits for its boundary; a failed read changes nothing (R107). -/
def pageGot (st : BitVec 8) (bs : List Byte) (s : State) : State :=
  if st = stOk then { s with rings.page := s.rings.page ++ [(bs, prepDue s)] } else s

/-- Status of a read (R98). -/
def readStatus (r : HostRead) : BitVec 8 :=
  match r.fail with
  | some (_, st) => legalStatus st
  | none => stOk

/-- The failed read of lowest address among reads of one object (R821). -/
def firstFailed (rs : List HostRead) : Option HostRead :=
  (rs.filter (fun r => r.fail.isSome)).foldl (fun b r => match b with
    | some x => if r.addr.toNat < x.addr.toNat then some r else some x
    | none => some r) none

/-- Every read of a use has ended: its data go where they are needed. -/
def useDone (u : HostUse) (rs : List HostRead) (s : State) : State :=
  let bs := rs.flatMap (fun r => memRead r.data 0 r.len)
  let bad := firstFailed rs
  let st := match bad with
    | some r => readStatus r
    | none => stOk
  let at_ := match bad with
    | some r => r.addr
    | none => 0
  match u with
  | .doorbell _ => pageGot st bs s
  | .fetch i k n => fetchDone i k n st bs s
  | .obj d _ => objectGot d st at_ bs s
  | .code k => codeGot k st bs s

/-- Uses whose reads have all ended are over: their reads leave the list, and waiting reads are issued (R95). -/
def settleUse (u : HostUse) (s : State) : State :=
  let rs := s.enz.reads.filter (fun r => r.use = u)
  if rs.isEmpty || rs.any (fun r => !r.done) then issueReads 512 s
  else issueReads 512 (useDone u rs { s with enz.reads := s.enz.reads.filter (fun r => r.use ≠ u) })

/-- A frame of data counts toward its read, whatever its status (R95, R98). -/
def countData (f : HostFrame) (r : HostRead) : HostRead :=
  let off := f.dataOffset.toNat
  let got := r.got + f.payload.length
  let fail := if f.status = stOk then r.fail else match r.fail with
    | some (o, st) => if off < o then some (off, f.status) else some (o, st)
    | none => some (off, f.status)
  { r with got := got, fail := fail, done := decide (r.len ≤ got),
           data := if f.status = stOk then memWrite r.data off f.payload else r.data }

/-- Uncorrectable data in a read of host memory raises its event (R752, Table 22-7). -/
def hostBad (r : HostRead) (s : State) : State := raiseEv 0x16 9 (r.addr.toNat + stDataError.toNat <<< 64) 0 s

/-- MEM_RD_DATA (R95, R98, R814): data for an outstanding read; a frame that names none is discarded and counted. -/
def memRdData (f : HostFrame) (s : State) : State :=
  let s := takeInbox 0x02 s
  match s.enz.reads.findIdx? (fun r => !r.done && (match r.tag with
      | some t => t.val = f.tag.toNat
      | none => false)) with
  | none => { s with enz.strayData := s.enz.strayData + 1 }
  | some i =>
    match s.enz.reads[i]? with
    | none => s
    | some r =>
      let r := countData f r
      let s := { s with enz.reads := s.enz.reads.set i r }
      if r.done then settleUse r.use (if readStatus r = stDataError then hostBad r s else s) else s

/-- Meaning of MEM_RD_DATA. -/
def execMemRdData (f : HostFrame) (s : State) : Out := .next (memRdData f s)

/-! ### Received flits (R92, R94) -/

/-- CRC-32 at the end of a flit covers the bytes before it (Table 4-2). -/
def flitOk (flit : List Byte) : Bool := (crc32 (slice flit 0 196)).toNat = leAt flit 196 4

/-- A received frame is taken up: a register read is answered, frames of other rows wait for their row, a reserved type or a reserved
ctl is discarded and counted, and a frame of the part's own types is discarded (R94, R99, R100). -/
def takeFrame (s : State) (f : HostFrame) : State :=
  match f.ftype.toNat with
  | 0x05 => regRd f.addr (f.len.toNat = 8) f.tag s
  | 0x09 =>
    let c := leAt f.payload 0 1
    if 1 ≤ c ∧ c ≤ 6 then { s with enz.inbox := s.enz.inbox ++ [f] } else { s with enz.reservedCtl := s.enz.reservedCtl + 1 }
  | 0x02 => { s with enz.inbox := s.enz.inbox ++ [f] }
  | 0x07 => { s with enz.inbox := s.enz.inbox ++ [f] }
  | 0x08 => { s with enz.inbox := s.enz.inbox ++ [f] }
  | n => if 0x0A ≤ n then { s with enz.reservedFrames := s.enz.reservedFrames + 1 } else s

/-- What a good flit in sequence says of the part's own flits (R92, R93). DESIGN CHOICE (log 115): the nak flits that Table 4-3 counts are
those received. -/
def flitAck (flit : List Byte) (s : State) : State :=
  let w := leAt flit 0 4
  let s := if bitsOf w 24 1 = 1 then enzAck (BitVec.ofNat 12 (bitsOf w 12 12)) s else s
  if bitsOf w 25 1 = 1 then enzReplay { s with enz.naks := s.enz.naks.filter (fun t => ageOf s t < 1024) ++ [s.tick.elapsed] } else s

/-- ENZEN_FLIT_RECEIVE (R92, R94): a flit whose CRC fails, and every later one until the replay, is discarded and nak is set; a good
one in sequence gives its acknowledgement and its frames. -/
def enzenFlit (flit : List Byte) (s : State) : State :=
  if s.enz.st ≠ .negotiate && s.enz.st ≠ .active then s
  else if !flitOk flit then { s with enz.nak := true }
  else if leAt flit 0 2 % 4096 ≠ s.enz.rxExp.toNat then s
  else
    let s := flitAck flit { s with enz.rxExp := s.enz.rxExp + 1, enz.nak := false }
    let r := unpackFrames 16 (s.enz.part ++ slice flit 4 192)
    r.1.foldl takeFrame { s with enz.part := r.2 }

/-- Meaning of ENZEN_FLIT_RECEIVE. -/
def execEnzenFlitReceive (flit : List Byte) (s : State) : Out := .next (enzenFlit flit s)

end Machine
end Sys2Proof
end

