-- ==== Sys2Proof/Machine/Boundary.lean ====
section
/-!
DEFINITION. The tick boundary (R21, R49, R50, Table 2-6): the work of each boundary that no other row names.
-/
namespace Sys2Proof
namespace Machine

/-- The age limit in force from this boundary; when it is lowered, coats retire by the old one until the new one has been in force for
the old one's ticks (R271). -/
def ageStep (s : State) : State :=
  let now := ageLimit s
  let was := s.core.ageNow
  if now = was then s
  else if was < now then { s with core.ageNow := now }
  else
    let keep := match s.core.oldAge with
      | some (a, t) => if reached s t then was else max a was
      | none => was
    { s with core.ageNow := now, core.oldAge := some (keep, s.tick.elapsed + BitVec.ofNat 48 keep) }

/-- A packet that waited for an outcome record is tried again: its units are reserved anew as it enters (R317). -/
def retryPacket (s : State) (x : LinkId × Bool × Packet) : State :=
  let (l, bad, p) := x
  let u := pktUnits (link s l).gen p
  let s := modPart l (partOf p) (fun y => { y with occ := y.occ - u, got := y.got - BitVec.ofNat 32 u }) s
  arriveEnter l (edgeCheck s l) bad p s

/-- Packets that wait for outcome records are tried again, in order. -/
def retryWaiting (s : State) : State := s.items.waiting.foldl retryPacket { s with items.waiting := [] }

/-- Step 3 where no link failure and no notice is due: nodes are judged by the routing table alone (R739). -/
def nodeStep (s : State) : State := if allLinks.any (failDue s) || noticeDue s then s else nodeCheck s

/-- Counts kept for one tick start anew, and room of tiles that failed in the last one returns (R408, R479, R489, Table 18-2). -/
def freshTick (s : State) : State :=
  let s := returnEnding s
  { s with larder.served := [], hawk.movedIn := 0, hawk.movedOut := 0,
           lanes := tblMap {} (fun _ a => { a with csymLast := a.csym, csym := 0 }) s.lanes }

/-- Steps 1 and 2 of Table 2-6 and the register writes before them (R22, R26, R30, R46, R648, R759, R770, R781); the module chooses its
upstream link anew (R38), and the election follows the announces of this tick (R24). `t` is the number of the tick just ended. -/
def boundaryStart (t : BitVec 48) (s : State) : State :=
  let s := upstreamStep (ageStep (applyDue (advanceTick s)))
  let s := if hits s 64 32 then elect s else s
  let s := sendMarkers s
  telemBoundary (snapshot t { s with power.tickOut := s.power.tickOut + 1 })

/-- What Attic, power manager and sequence table apply at the boundary (R563, R697, R700, R703, R710, R728). -/
def boundaryAdmin (s : State) : State := seqBoundary (pldmEvent (applyLevers (atticBoundary (applyOffers s))))

/-- TICK_BOUNDARY (R21, R49, R50): after its last slot the tick ends and the next one begins. The steps of Table 2-6 that have rows of
their own follow as those rows, at slot 0; steps 7, 8 and 10 wait for the rows before them (log 113). -/
def tickBoundary (s : State) : State :=
  if s.tick.slot < s.tick.len then s
  else
    let t := nowTick s
    let s := boundaryStart t (settled s)
    let s := boundaryAdmin (nodeStep s)
    retryWaiting (freshTick { s with tick.todo := [7, 8, 10] })

/-- Meaning of TICK_BOUNDARY. -/
def execTickBoundary (s : State) : Out := .next (tickBoundary s)

end Machine
end Sys2Proof
end

