-- ==== Sys2Proof/Machine/Dispatch.lean ====
section
/-!
DEFINITION. The meaning of every command: one arm per constructor of Instr.
-/
namespace Sys2Proof
namespace Machine

def exec (i : Instr) (s : State) : Host.Outcome State Fault Refusal :=
  match i with
  | .tickBoundary => Sys2Proof.Machine.execTickBoundary s
  | .tickMarkerReceive l m rx => Sys2Proof.Machine.execTickMarkerReceive l m rx s
  | .announceReceive l a => Sys2Proof.Machine.execAnnounceReceive l a s
  | .masterAnnounceTimeout => Sys2Proof.Machine.execMasterAnnounceTimeout s
  | .lockDeclared => Sys2Proof.Machine.execLockDeclared s
  | .lockLost => Sys2Proof.Machine.execLockLost s
  | .tickLoss => Sys2Proof.Machine.execTickLoss s
  | .tickStep => Sys2Proof.Machine.execTickStep s
  | .tickInEdge early => Sys2Proof.Machine.execTickInEdge early s
  | .tickInMissed => Sys2Proof.Machine.execTickInMissed s
  | .startupMastership => Sys2Proof.Machine.execStartupMastership s
  | .descriptorAudit => Sys2Proof.Machine.execDescriptorAudit s
  | .functionOn f => Sys2Proof.Machine.execFunctionOn f s
  | .functionOff f => Sys2Proof.Machine.execFunctionOff f s
  | .enzenFlitReceive flit => Sys2Proof.Machine.execEnzenFlitReceive flit s
  | .enzenReplayTimeout => Sys2Proof.Machine.execEnzenReplayTimeout s
  | .enzenSignalDetected => Sys2Proof.Machine.execEnzenSignalDetected s
  | .enzenFecLockHeld => Sys2Proof.Machine.execEnzenFecLockHeld s
  | .enzenBringupTimeout => Sys2Proof.Machine.execEnzenBringupTimeout s
  | .enzenFecLockLost => Sys2Proof.Machine.execEnzenFecLockLost s
  | .enzenNakLimit => Sys2Proof.Machine.execEnzenNakLimit s
  | .linkCtlCap c => Sys2Proof.Machine.execLinkCtlCap c s
  | .linkCtlCapAck => Sys2Proof.Machine.execLinkCtlCapAck s
  | .linkCtlCapRetry => Sys2Proof.Machine.execLinkCtlCapRetry s
  | .levelReq level => Sys2Proof.Machine.execLevelReq level s
  | .hostReset => Sys2Proof.Machine.execHostReset s
  | .memRdData f => Sys2Proof.Machine.execMemRdData f s
  | .regWr addr wide val => Sys2Proof.Machine.execRegWr addr wide val s
  | .configBundleApply => Sys2Proof.Machine.execConfigBundleApply s
  | .doorbellPageApply => Sys2Proof.Machine.execDoorbellPageApply s
  | .descriptorFenceRelease d => Sys2Proof.Machine.execDescriptorFenceRelease d s
  | .descriptorTimedStart d => Sys2Proof.Machine.execDescriptorTimedStart d s
  | .reservedOpcode d => Sys2Proof.Machine.execReservedOpcode d s
  | .interruptModerationTimeout q => Sys2Proof.Machine.execInterruptModerationTimeout q s
  | .nopDesc d => Sys2Proof.Machine.execNopDesc d s
  | .ringConfig d => Sys2Proof.Machine.execRingConfig d s
  | .ringEnable d => Sys2Proof.Machine.execRingEnable d s
  | .ringDisable d => Sys2Proof.Machine.execRingDisable d s
  | .fabricPacketArrival l p => Sys2Proof.Machine.execFabricPacketArrival l p s
  | .rdReq p => Sys2Proof.Machine.execRdReq p s
  | .wr p => Sys2Proof.Machine.execWr p s
  | .atFadd64 p => Sys2Proof.Machine.execAtFadd64 p s
  | .atSwap64 p => Sys2Proof.Machine.execAtSwap64 p s
  | .atCas64 p => Sys2Proof.Machine.execAtCas64 p s
  | .atCas128 p => Sys2Proof.Machine.execAtCas128 p s
  | .atFaddFp32 p => Sys2Proof.Machine.execAtFaddFp32 p s
  | .atFaddBf16 p => Sys2Proof.Machine.execAtFaddBf16 p s
  | .launchPkt port p => Sys2Proof.Machine.execLaunchPkt port p s
  | .attnQuery port p => Sys2Proof.Machine.execAttnQuery port p s
  | .collStart port p => Sys2Proof.Machine.execCollStart port p s
  | .collContrib port p => Sys2Proof.Machine.execCollContrib port p s
  | .collArrive port p => Sys2Proof.Machine.execCollArrive port p s
  | .collCounts port p => Sys2Proof.Machine.execCollCounts port p s
  | .landingCredit l p => Sys2Proof.Machine.execLandingCredit l p s
  | .mgmtPkt p => Sys2Proof.Machine.execMgmtPkt p s
  | .rdData p => Sys2Proof.Machine.execRdData p s
  | .wrAck p => Sys2Proof.Machine.execWrAck p s
  | .atData p => Sys2Proof.Machine.execAtData p s
  | .failPkt p => Sys2Proof.Machine.execFailPkt p s
  | .launchAck p => Sys2Proof.Machine.execLaunchAck p s
  | .writeTrackingTimeout src tag => Sys2Proof.Machine.execWriteTrackingTimeout src tag s
  | .responseTimeout tag => Sys2Proof.Machine.execResponseTimeout tag s
  | .linkFrameReceive l f => Sys2Proof.Machine.execLinkFrameReceive l f s
  | .nakRepeatTimeout l => Sys2Proof.Machine.execNakRepeatTimeout l s
  | .linkReplayTimeout l => Sys2Proof.Machine.execLinkReplayTimeout l s
  | .replayLimitRetrain l => Sys2Proof.Machine.execReplayLimitRetrain l s
  | .linkFallback l => Sys2Proof.Machine.execLinkFallback l s
  | .linkCap l c => Sys2Proof.Machine.execLinkCap l c s
  | .linkCapTimeout l => Sys2Proof.Machine.execLinkCapTimeout l s
  | .levelOffer l level => Sys2Proof.Machine.execLevelOffer l level s
  | .creditAuditDue l => Sys2Proof.Machine.execCreditAuditDue l s
  | .audit l m => Sys2Proof.Machine.execAudit l m s
  | .auditResult l mask => Sys2Proof.Machine.execAuditResult l mask s
  | .partitionFreeze l => Sys2Proof.Machine.execPartitionFreeze l s
  | .resyncSend l => Sys2Proof.Machine.execResyncSend l s
  | .resync l m => Sys2Proof.Machine.execResync l m s
  | .partitionUnfreeze l => Sys2Proof.Machine.execPartitionUnfreeze l s
  | .frozenPartitionTimeout l q => Sys2Proof.Machine.execFrozenPartitionTimeout l q s
  | .cellArriveOutput o => Sys2Proof.Machine.execCellArriveOutput o s
  | .packetToEgressQueue o => Sys2Proof.Machine.execPacketToEgressQueue o s
  | .cellAgeSweep o => Sys2Proof.Machine.execCellAgeSweep o s
  | .packetStart l => Sys2Proof.Machine.execPacketStart l s
  | .poolAudit j => Sys2Proof.Machine.execPoolAudit j s
  | .poolRebuildDone j => Sys2Proof.Machine.execPoolRebuildDone j s
  | .linkFailureDeclare l => Sys2Proof.Machine.execLinkFailureDeclare l s
  | .routeNoticeApply => Sys2Proof.Machine.execRouteNoticeApply s
  | .crossingWindowRoll l => Sys2Proof.Machine.execCrossingWindowRoll l s
  | .coatLoad d => Sys2Proof.Machine.execCoatLoad d s
  | .coatSwitch d => Sys2Proof.Machine.execCoatSwitch d s
  | .coatAbort d => Sys2Proof.Machine.execCoatAbort d s
  | .coatQuery d => Sys2Proof.Machine.execCoatQuery d s
  | .exclClear d => Sys2Proof.Machine.execExclClear d s
  | .envelopeVerifyDone => Sys2Proof.Machine.execEnvelopeVerifyDone s
  | .coatStagingWrite => Sys2Proof.Machine.execCoatStagingWrite s
  | .frameFillDone frame => Sys2Proof.Machine.execFrameFillDone frame s
  | .coatSwitchApply => Sys2Proof.Machine.execCoatSwitchApply s
  | .undercoatRetire => Sys2Proof.Machine.execUndercoatRetire s
  | .orderedHoldRelease => Sys2Proof.Machine.execOrderedHoldRelease s
  | .mcOutcomeRecordTimeout src tag => Sys2Proof.Machine.execMcOutcomeRecordTimeout src tag s
  | .swapReq l => Sys2Proof.Machine.execSwapReq l s
  | .gateBankSwap l => Sys2Proof.Machine.execGateBankSwap l s
  | .dmCopy d => Sys2Proof.Machine.execDmCopy d s
  | .dmFill d => Sys2Proof.Machine.execDmFill d s
  | .dmCrc d => Sys2Proof.Machine.execDmCrc d s
  | .dmAtFadd64 d => Sys2Proof.Machine.execDmAtFadd64 d s
  | .dmAtSwap64 d => Sys2Proof.Machine.execDmAtSwap64 d s
  | .dmAtCas64 d => Sys2Proof.Machine.execDmAtCas64 d s
  | .dmAtCas128 d => Sys2Proof.Machine.execDmAtCas128 d s
  | .dmAtFaddFp32 d => Sys2Proof.Machine.execDmAtFaddFp32 d s
  | .dmAtFaddBf16 d => Sys2Proof.Machine.execDmAtFaddBf16 d s
  | .scrubRead line corrected bad => Sys2Proof.Machine.execScrubRead line corrected bad s
  | .goReq frame => Sys2Proof.Machine.execGoReq frame s
  | .frameRetireCopyDone frame => Sys2Proof.Machine.execFrameRetireCopyDone frame s
  | .groupEnable d => Sys2Proof.Machine.execGroupEnable d s
  | .groupDisable d => Sys2Proof.Machine.execGroupDisable d s
  | .templateSet d => Sys2Proof.Machine.execTemplateSet d s
  | .groupQuery d => Sys2Proof.Machine.execGroupQuery d s
  | .collSlotBind g slot => Sys2Proof.Machine.execCollSlotBind g slot s
  | .collOpLimitExpired g slot => Sys2Proof.Machine.execCollOpLimitExpired g slot s
  | .hawkGrantStep => Sys2Proof.Machine.execHawkGrantStep s
  | .grainAudit => Sys2Proof.Machine.execGrainAudit s
  | .streamProgram d => Sys2Proof.Machine.execStreamProgram d s
  | .streamEnable d => Sys2Proof.Machine.execStreamEnable d s
  | .streamDisable d => Sys2Proof.Machine.execStreamDisable d s
  | .streamStart d => Sys2Proof.Machine.execStreamStart d s
  | .streamQuery d => Sys2Proof.Machine.execStreamQuery d s
  | .streamPassStart k => Sys2Proof.Machine.execStreamPassStart k s
  | .streamSegmentStart k => Sys2Proof.Machine.execStreamSegmentStart k s
  | .streamChunkRead k => Sys2Proof.Machine.execStreamChunkRead k s
  | .streamDeadline k seg => Sys2Proof.Machine.execStreamDeadline k seg s
  | .streamRecordTimeout k seg => Sys2Proof.Machine.execStreamRecordTimeout k seg s
  | .streamRepairStart k seg => Sys2Proof.Machine.execStreamRepairStart k seg s
  | .kernelLoad d => Sys2Proof.Machine.execKernelLoad d s
  | .kernelEnable d => Sys2Proof.Machine.execKernelEnable d s
  | .kernelDisable d => Sys2Proof.Machine.execKernelDisable d s
  | .kernelRun d => Sys2Proof.Machine.execKernelRun d s
  | .kernelQuery d => Sys2Proof.Machine.execKernelQuery d s
  | .seqSet d => Sys2Proof.Machine.execSeqSet d s
  | .seqPages d => Sys2Proof.Machine.execSeqPages d s
  | .seqClear d => Sys2Proof.Machine.execSeqClear d s
  | .kernelCodeCopyDone k => Sys2Proof.Machine.execKernelCodeCopyDone k s
  | .arrayZeroDone a => Sys2Proof.Machine.execArrayZeroDone a s
  | .runStart k => Sys2Proof.Machine.execRunStart k s
  | .runLimitExpired k run => Sys2Proof.Machine.execRunLimitExpired k run s
  | .add t => Sys2Proof.Machine.execAdd t s
  | .sub t => Sys2Proof.Machine.execSub t s
  | .mul t => Sys2Proof.Machine.execMul t s
  | .mulhu t => Sys2Proof.Machine.execMulhu t s
  | .and t => Sys2Proof.Machine.execAnd t s
  | .or t => Sys2Proof.Machine.execOr t s
  | .xor t => Sys2Proof.Machine.execXor t s
  | .shl t => Sys2Proof.Machine.execShl t s
  | .shr t => Sys2Proof.Machine.execShr t s
  | .sar t => Sys2Proof.Machine.execSar t s
  | .min t => Sys2Proof.Machine.execMin t s
  | .max t => Sys2Proof.Machine.execMax t s
  | .minu t => Sys2Proof.Machine.execMinu t s
  | .maxu t => Sys2Proof.Machine.execMaxu t s
  | .slt t => Sys2Proof.Machine.execSlt t s
  | .sltu t => Sys2Proof.Machine.execSltu t s
  | .addi t => Sys2Proof.Machine.execAddi t s
  | .andi t => Sys2Proof.Machine.execAndi t s
  | .ori t => Sys2Proof.Machine.execOri t s
  | .xori t => Sys2Proof.Machine.execXori t s
  | .shli t => Sys2Proof.Machine.execShli t s
  | .shri t => Sys2Proof.Machine.execShri t s
  | .sari t => Sys2Proof.Machine.execSari t s
  | .li t => Sys2Proof.Machine.execLi t s
  | .lih t => Sys2Proof.Machine.execLih t s
  | .fadd t => Sys2Proof.Machine.execFadd t s
  | .fsub t => Sys2Proof.Machine.execFsub t s
  | .fmul t => Sys2Proof.Machine.execFmul t s
  | .fma t => Sys2Proof.Machine.execFma t s
  | .flt t => Sys2Proof.Machine.execFlt t s
  | .itof t => Sys2Proof.Machine.execItof t s
  | .ftoi t => Sys2Proof.Machine.execFtoi t s
  | .vadd t => Sys2Proof.Machine.execVadd t s
  | .vsub t => Sys2Proof.Machine.execVsub t s
  | .vmul t => Sys2Proof.Machine.execVmul t s
  | .vfma t => Sys2Proof.Machine.execVfma t s
  | .vmin t => Sys2Proof.Machine.execVmin t s
  | .vmax t => Sys2Proof.Machine.execVmax t s
  | .vabs t => Sys2Proof.Machine.execVabs t s
  | .vneg t => Sys2Proof.Machine.execVneg t s
  | .vand t => Sys2Proof.Machine.execVand t s
  | .vor t => Sys2Proof.Machine.execVor t s
  | .vxor t => Sys2Proof.Machine.execVxor t s
  | .vshl t => Sys2Proof.Machine.execVshl t s
  | .vshr t => Sys2Proof.Machine.execVshr t s
  | .vsar t => Sys2Proof.Machine.execVsar t s
  | .vmov t => Sys2Proof.Machine.execVmov t s
  | .vbcast t => Sys2Proof.Machine.execVbcast t s
  | .vlane t => Sys2Proof.Machine.execVlane t s
  | .vext t => Sys2Proof.Machine.execVext t s
  | .vins t => Sys2Proof.Machine.execVins t s
  | .vperm t => Sys2Proof.Machine.execVperm t s
  | .vexp t => Sys2Proof.Machine.execVexp t s
  | .vexp2 t => Sys2Proof.Machine.execVexp2 t s
  | .vlog2 t => Sys2Proof.Machine.execVlog2 t s
  | .vrcp t => Sys2Proof.Machine.execVrcp t s
  | .vrsqrt t => Sys2Proof.Machine.execVrsqrt t s
  | .vsqrt t => Sys2Proof.Machine.execVsqrt t s
  | .vcmpr t => Sys2Proof.Machine.execVcmpr t s
  | .vexpd t => Sys2Proof.Machine.execVexpd t s
  | .vsel t => Sys2Proof.Machine.execVsel t s
  | .pcmp t => Sys2Proof.Machine.execPcmp t s
  | .pcmps t => Sys2Proof.Machine.execPcmps t s
  | .pand t => Sys2Proof.Machine.execPand t s
  | .por t => Sys2Proof.Machine.execPor t s
  | .pxor t => Sys2Proof.Machine.execPxor t s
  | .pnot t => Sys2Proof.Machine.execPnot t s
  | .pset t => Sys2Proof.Machine.execPset t s
  | .pclr t => Sys2Proof.Machine.execPclr t s
  | .pfirst t => Sys2Proof.Machine.execPfirst t s
  | .pcnt t => Sys2Proof.Machine.execPcnt t s
  | .plt t => Sys2Proof.Machine.execPlt t s
  | .pmovs t => Sys2Proof.Machine.execPmovs t s
  | .pmovp t => Sys2Proof.Machine.execPmovp t s
  | .cvt t => Sys2Proof.Machine.execCvt t s
  | .bfpe t => Sys2Proof.Machine.execBfpe t s
  | .bfpq t => Sys2Proof.Machine.execBfpq t s
  | .bfpd t => Sys2Proof.Machine.execBfpd t s
  | .dot t => Sys2Proof.Machine.execDot t s
  | .dots t => Sys2Proof.Machine.execDots t s
  | .radd t => Sys2Proof.Machine.execRadd t s
  | .rmax t => Sys2Proof.Machine.execRmax t s
  | .rmin t => Sys2Proof.Machine.execRmin t s
  | .rmaxi t => Sys2Proof.Machine.execRmaxi t s
  | .rmini t => Sys2Proof.Machine.execRmini t s
  | .vscan t => Sys2Proof.Machine.execVscan t s
  | .ld t => Sys2Proof.Machine.execLd t s
  | .lds t => Sys2Proof.Machine.execLds t s
  | .st t => Sys2Proof.Machine.execSt t s
  | .vld t => Sys2Proof.Machine.execVld t s
  | .vst t => Sys2Proof.Machine.execVst t s
  | .vlds t => Sys2Proof.Machine.execVlds t s
  | .vsts t => Sys2Proof.Machine.execVsts t s
  | .vldg t => Sys2Proof.Machine.execVldg t s
  | .vstg t => Sys2Proof.Machine.execVstg t s
  | .afadd64 t => Sys2Proof.Machine.execAfadd64 t s
  | .aswap64 t => Sys2Proof.Machine.execAswap64 t s
  | .acas64 t => Sys2Proof.Machine.execAcas64 t s
  | .acas128 t => Sys2Proof.Machine.execAcas128 t s
  | .afaddf32 t => Sys2Proof.Machine.execAfaddf32 t s
  | .afaddbf16 t => Sys2Proof.Machine.execAfaddbf16 t s
  | .fence t => Sys2Proof.Machine.execFence t s
  | .bar t => Sys2Proof.Machine.execBar t s
  | .launchInstr t => Sys2Proof.Machine.execLaunchInstr t s
  | .gets t => Sys2Proof.Machine.execGets t s
  | .br t => Sys2Proof.Machine.execBr t s
  | .bz t => Sys2Proof.Machine.execBz t s
  | .bnz t => Sys2Proof.Machine.execBnz t s
  | .bpany t => Sys2Proof.Machine.execBpany t s
  | .bpnone t => Sys2Proof.Machine.execBpnone t s
  | .call t => Sys2Proof.Machine.execCall t s
  | .ret t => Sys2Proof.Machine.execRet t s
  | .endThread t => Sys2Proof.Machine.execEndThread t s
  | .nop t => Sys2Proof.Machine.execNop t s
  | .loop t => Sys2Proof.Machine.execLoop t s
  | .qpConfig d => Sys2Proof.Machine.execQpConfig d s
  | .qpEnable d => Sys2Proof.Machine.execQpEnable d s
  | .qpDisable d => Sys2Proof.Machine.execQpDisable d s
  | .qpQuery d => Sys2Proof.Machine.execQpQuery d s
  | .gwWrite d => Sys2Proof.Machine.execGwWrite d s
  | .gwRead d => Sys2Proof.Machine.execGwRead d s
  | .gwSend d => Sys2Proof.Machine.execGwSend d s
  | .gwRecvPost d => Sys2Proof.Machine.execGwRecvPost d s
  | .frameDiscarded l f => Sys2Proof.Machine.execFrameDiscarded l f s
  | .arpRequest l f => Sys2Proof.Machine.execArpRequest l f s
  | .neighbourSolicitation l f => Sys2Proof.Machine.execNeighbourSolicitation l f s
  | .pfcFrameReceive l head quanta => Sys2Proof.Machine.execPfcFrameReceive l head quanta s
  | .pfcPauseRepeat l c => Sys2Proof.Machine.execPfcPauseRepeat l c s
  | .sendFirst m => Sys2Proof.Machine.execSendFirst m s
  | .sendMiddle m => Sys2Proof.Machine.execSendMiddle m s
  | .sendLast m => Sys2Proof.Machine.execSendLast m s
  | .sendOnly m => Sys2Proof.Machine.execSendOnly m s
  | .rdmaWriteFirst m => Sys2Proof.Machine.execRdmaWriteFirst m s
  | .rdmaWriteMiddle m => Sys2Proof.Machine.execRdmaWriteMiddle m s
  | .rdmaWriteLast m => Sys2Proof.Machine.execRdmaWriteLast m s
  | .rdmaWriteOnly m => Sys2Proof.Machine.execRdmaWriteOnly m s
  | .rdmaReadRequest m => Sys2Proof.Machine.execRdmaReadRequest m s
  | .rdmaReadResponse m => Sys2Proof.Machine.execRdmaReadResponse m s
  | .acknowledge m => Sys2Proof.Machine.execAcknowledge m s
  | .nakPsnSequenceError m => Sys2Proof.Machine.execNakPsnSequenceError m s
  | .rnrNak m => Sys2Proof.Machine.execRnrNak m s
  | .nakRemoteAccessError m => Sys2Proof.Machine.execNakRemoteAccessError m s
  | .nakInvalidRequest m => Sys2Proof.Machine.execNakInvalidRequest m s
  | .nakRemoteOperationalError m => Sys2Proof.Machine.execNakRemoteOperationalError m s
  | .cnp f => Sys2Proof.Machine.execCnp f s
  | .qpAckTimeout q => Sys2Proof.Machine.execQpAckTimeout q s
  | .qpRnrTimer q => Sys2Proof.Machine.execQpRnrTimer q s
  | .trainingCap l w => Sys2Proof.Machine.execTrainingCap l w s
  | .trainingStep l lane bits => Sys2Proof.Machine.execTrainingStep l lane bits s
  | .trainingResult l lane bits => Sys2Proof.Machine.execTrainingResult l lane bits s
  | .trainingLoop l lane bits => Sys2Proof.Machine.execTrainingLoop l lane bits s
  | .laneDetectDone l seen => Sys2Proof.Machine.execLaneDetectDone l seen s
  | .prbsWindowEnd l errs => Sys2Proof.Machine.execPrbsWindowEnd l errs s
  | .laneStateTimeout l lanes => Sys2Proof.Machine.execLaneStateTimeout l lanes s
  | .laneFault n cause => Sys2Proof.Machine.execLaneFault n cause s
  | .laneStateBlock l b => Sys2Proof.Machine.execLaneStateBlock l b s
  | .recoverRetry n => Sys2Proof.Machine.execRecoverRetry n s
  | .laserFault e b => Sys2Proof.Machine.execLaserFault e b s
  | .laserFaultClear e b pwr => Sys2Proof.Machine.execLaserFaultClear e b pwr s
  | .opticalMeasure m => Sys2Proof.Machine.execOpticalMeasure m s
  | .farLoopTimeout l => Sys2Proof.Machine.execFarLoopTimeout l s
  | .failedClear n => Sys2Proof.Machine.execFailedClear n s
  | .fallbackClear l => Sys2Proof.Machine.execFallbackClear l s
  | .secSessionOpen d => Sys2Proof.Machine.execSecSessionOpen d s
  | .secSessionFinish d => Sys2Proof.Machine.execSecSessionFinish d s
  | .secProvision d => Sys2Proof.Machine.execSecProvision d s
  | .provisionApply => Sys2Proof.Machine.execProvisionApply s
  | .secZeroise d => Sys2Proof.Machine.execSecZeroise d s
  | .secFloorRaise d => Sys2Proof.Machine.execSecFloorRaise d s
  | .secState d => Sys2Proof.Machine.execSecState d s
  | .tamperTrip sensor => Sys2Proof.Machine.execTamperTrip sensor s
  | .lockdownEnter => Sys2Proof.Machine.execLockdownEnter s
  | .getVersion t => Sys2Proof.Machine.execGetVersion t s
  | .getCapabilities t => Sys2Proof.Machine.execGetCapabilities t s
  | .negotiateAlgorithms t => Sys2Proof.Machine.execNegotiateAlgorithms t s
  | .getDigests t => Sys2Proof.Machine.execGetDigests t s
  | .getCertificate t offset len => Sys2Proof.Machine.execGetCertificate t offset len s
  | .challenge t nonce => Sys2Proof.Machine.execChallenge t nonce s
  | .getMeasurements t index signed nonce => Sys2Proof.Machine.execGetMeasurements t index signed nonce s
  | .vendorDefinedRequest t vendor cmd portion => Sys2Proof.Machine.execVendorDefinedRequest t vendor cmd portion s
  | .fwStage d => Sys2Proof.Machine.execFwStage d s
  | .fwActivate d => Sys2Proof.Machine.execFwActivate d s
  | .fwCommit d => Sys2Proof.Machine.execFwCommit d s
  | .atticRestartDone started => Sys2Proof.Machine.execAtticRestartDone started s
  | .watchdogExpiry => Sys2Proof.Machine.execWatchdogExpiry s
  | .drain d => Sys2Proof.Machine.execDrain d s
  | .undrain d => Sys2Proof.Machine.execUndrain d s
  | .drainedPoint => Sys2Proof.Machine.execDrainedPoint s
  | .drainLimitExpired => Sys2Proof.Machine.execDrainLimitExpired s
  | .setNumericEffecterValue effecter watts => Sys2Proof.Machine.execSetNumericEffecterValue effecter watts s
  | .pldmRequest r => Sys2Proof.Machine.execPldmRequest r s
  | .powerOnReset => Sys2Proof.Machine.execPowerOnReset s
  | .pinReset => Sys2Proof.Machine.execPinReset s
  | .powerGood fuses => Sys2Proof.Machine.execPowerGood fuses s
  | .supplyLow => Sys2Proof.Machine.execSupplyLow s
  | .supplyRecovered => Sys2Proof.Machine.execSupplyRecovered s
  | .moduleReset d => Sys2Proof.Machine.execModuleReset d s
  | .moduleResetApply => Sys2Proof.Machine.execModuleResetApply s
  | .powerCap d => Sys2Proof.Machine.execPowerCap d s
  | .powerMeasure watts junction => Sys2Proof.Machine.execPowerMeasure watts junction s
  | .brakeAssert => Sys2Proof.Machine.execBrakeAssert s
  | .brakeRelease => Sys2Proof.Machine.execBrakeRelease s
  | .thermalShutdown => Sys2Proof.Machine.execThermalShutdown s
  | .readyAssert => Sys2Proof.Machine.execReadyAssert s
  | .readyTimeout => Sys2Proof.Machine.execReadyTimeout s
  | .faultLogRead d => Sys2Proof.Machine.execFaultLogRead d s
  | .ctrRead d => Sys2Proof.Machine.execCtrRead d s
  | .dumpConfig d => Sys2Proof.Machine.execDumpConfig d s
  | .peepConfig d => Sys2Proof.Machine.execPeepConfig d s
  | .telemCopy d => Sys2Proof.Machine.execTelemCopy d s
  | .dumpDue c => Sys2Proof.Machine.execDumpDue c s
  | .dumpRecordComplete c => Sys2Proof.Machine.execDumpRecordComplete c s
  | .portCtrlEnable l => Sys2Proof.Machine.execPortCtrlEnable l s
  | .portCtrlDisable l => Sys2Proof.Machine.execPortCtrlDisable l s
  | .ringCtrlEnable r => Sys2Proof.Machine.execRingCtrlEnable r s
  | .ringCtrlDisable r => Sys2Proof.Machine.execRingCtrlDisable r s
  | .bypass => Sys2Proof.Machine.execBypass s
  | .idcode => Sys2Proof.Machine.execIdcode s
  | .samplePreload scan => Sys2Proof.Machine.execSamplePreload scan s
  | .extest scan => Sys2Proof.Machine.execExtest scan s
  | .coreSlot => Sys2Proof.Machine.execCoreSlot s
  | .larderControllerSlot x => Sys2Proof.Machine.execLarderControllerSlot x s
  | .lastByteLeaves l => Sys2Proof.Machine.execLastByteLeaves l s
  | .alignComplete l seen => Sys2Proof.Machine.execAlignComplete l seen s
  | .ethernetPortService l => Sys2Proof.Machine.execEthernetPortService l s
  | .larderPhaseEnd => Sys2Proof.Machine.execLarderPhaseEnd s
  | .flashWriteDone readBackOk => Sys2Proof.Machine.execFlashWriteDone readBackOk s
  | .oeLaserEnable e enA enB => Sys2Proof.Machine.execOeLaserEnable e enA enB s

end Machine
end Sys2Proof
end

