-- ==== Sys2Proof/Safety.lean ====
section
/-!
DEFINITION. What counts as a safe state, and the terms in which the statements are written: a command that completes, the
parts of the state that a change leaves alone, and the canonical form of the memories.
-/
namespace Sys2Proof
namespace Machine

/-- The Larder's memory is canonical: addresses strictly rising, no zero byte listed (R393). -/
def Larder.memWf (m : Larder) : Bool := tblWf 0 m.mem

/-- The array memories are canonical (R535). -/
def Work.memWf (w : Work) : Bool := tblWf 0 w.mem

/-- Both addressed memories of the part are canonical. -/
def State.memWf (s : State) : Bool := s.larder.memWf && s.work.memWf

/-- The command completes: exec answers a next state, and `P` holds of it. -/
def Completes (c : Instr) (s : State) (P : State → Prop) : Prop := ∃ t, exec c s = .next t ∧ P t

/-- The command completes and leaves the state as it was: it is not due, or what it names is turned away (log 1). -/
def NoEffect (c : Instr) (s : State) : Prop := exec c s = .next s

/-- Only the Enzen link differs. -/
def EnzOnly (s t : State) : Prop := ∃ x, t = { s with enz := x }

/-- Only the Enzen link, the rings and the counts differ: what an event or a completion may change. -/
def HostOnly (s t : State) : Prop := ∃ x y z, t = { s with enz := x, rings := y, counts := z }

/-- The descriptor `d` is in flight as `f`, may start (R115, R118) and carries the opcode. -/
def Startable (s : State) (d : DRef) (op : BitVec 8) (f : InFlight) : Prop :=
  flightOf s d = some f ∧ mayStart s f = true ∧ dOpcode f.desc = op

/-- The state in which the descriptor has started. -/
def started (d : DRef) (s : State) : State := modFlight d (fun g => { g with stage := .started }) s

/-- A memory request at a place that the destination serves in the slot in which it arrives (R385, R407, R537): the part does not drain, the
request is one, at the Larder nothing waits at its stack, no frame is being filled and its stacks may take its lines, and at an array no
copying goes before it. -/
def ServedAtOnce (s : State) (p : Packet) (pl : Place) : Prop :=
  s.attic.draining = false ∧ ∃ r, reqsOf p pl = [r] ∧ match pl with
    | .larder _ => tblGet [] s.larder.waiting r.i = [] ∧ s.larder.fills = [] ∧ mayServe s r = true
    | .array b => copyFirst s = false ∨ copyWaits s (b / 0x400000) = false
    | .counter _ => True

/-- The thread's next instruction issues as `i`, an instruction of class `cls` and opcode `op` that keeps R571 and waits for no
register (R528, R571, R574, R599). -/
def Issues (s : State) (t : Thr) (cls op : Nat) (i : IWord) : Prop :=
  mayIssue s (thr s t) = true ∧ fetchInstr s (kernelAt s (thr s t).kernel) t (thr s t) = (0, some (encodeWord i))
    ∧ i.cls.toNat = cls ∧ i.op.toNat = op
    ∧ ∃ r, opRule cls op = some r ∧ wordOk r i = true ∧ busyInstr (thr s t) r i = false

/-- The state with the issue counted on the kernel's page (Table 23-4). -/
def counted (s : State) (t : Thr) (cls : Nat) (s' : State) : State := bump (kernelPage (thr s t).kernel.val) (issueWord cls) 1 s'

/-- Only this thread, which is now `h`, and the counts differ. -/
def ThreadStep (s : State) (t : Thr) (h : Thread) (s' : State) : Prop :=
  thr s' t = h ∧ (∀ u, u ≠ t → thr s' u = thr s u)
    ∧ s' = { s with work := { s.work with thr := s'.work.thr }, counts := s'.counts }

/-- The lanes of v register `d` that the mask holds have the values of `f`; every other lane, register and predicate is as it
was, and the counter is at the next instruction (R573). -/
def LanesWritten (h : Thread) (d : Nat) (m : BitVec 256) (f : Nat → BitVec 32) (h' : Thread) : Prop :=
  (∀ l, l < 256 → h'.lane d l = if bit m l then f l else h.lane d l)
    ∧ (∀ r l, l < 256 → r ≠ d → h'.lane r l = h.lane r l) ∧ h'.s = h.s ∧ h'.p = h.p ∧ h'.pc = h.pc + 1

/-- An element operation on one lane of va, vb and vc. -/
def elemLane (f : Nat → Rnd → Bool → Nat → Nat → Nat → Nat × FpFlags) (i : IWord) (h : Thread) (l : Nat) : BitVec 32 :=
  (lane3 i.fmt (f i.fmt (rndOf i.rnd) i.sat) (h.lane i.a.toNat l) (h.lane i.b.toNat l) (h.lane i.c.toNat l)).1

/-- A function of FP32 on one lane of va. -/
def funLane (g : Fp → Fp) (i : IWord) (h : Thread) (l : Nat) : BitVec 32 :=
  BitVec.ofNat 32 (fpFun g (rndOf i.rnd) i.sat (h.lane i.a.toNat l).toNat).1

/-- The command is a descriptor, in flight as `f`, that enables the function: it may start and names the function; its generation
(which GROUP_ENABLE ignores) and its tenant are right, and the row's own checks hold (R138, R139, R428 to R430, R498, R548, R610). -/
def Enables (s : State) (d : DRef) (f : InFlight) : Instr → FnId → Prop
  | .ringEnable e, t => e = d ∧ Startable s d 0x02 f ∧ ringTarget f = some t ∧ isAdminRing t = false ∧ dGen f.desc = fnGen s t
  | .groupEnable e, .group g => e = d ∧ Startable s d 0x20 f ∧ groupTarget f = some g ∧ gValid (gEntry s g) = true
      ∧ gTenant (gEntry s g) = dTenant s f ∧ (locked s = true ∨ groupEnableOk s g (fld f.desc 192 16) = true)
  | .streamEnable e, .stream k => e = d ∧ Startable s d 0x31 f ∧ streamTarget f = some k ∧ (streamOf' s k).program ≠ []
      ∧ dGen f.desc = fnGen s (.stream k) ∧ (streamOf' s k).tenant = some (dTenant s f)
  | .kernelEnable e, .kernel k => e = d ∧ Startable s d 0x41 f ∧ kernelTarget f = some k ∧ (kernelAt s k).loaded = true
      ∧ dGen f.desc = fnGen s (.kernel k) ∧ (kernelAt s k).tenant = dTenant s f
  | .qpEnable e, .qp q => e = d ∧ Startable s d 0x61 f ∧ qpTarget f = some q ∧ (qpOf s q).ctx.isSome = true
      ∧ dGen f.desc = fnGen s (.qp q) ∧ (qpOf s q).tenant = dTenant s f
  | _, _ => False

/-- The command is a descriptor, in flight as `f`, that disables the function, and its checks hold (R138, R433, R523, R610). -/
def Disables (s : State) (d : DRef) (f : InFlight) : Instr → FnId → Prop
  | .ringDisable e, t => e = d ∧ Startable s d 0x03 f ∧ ringTarget f = some t ∧ isAdminRing t = false ∧ dGen f.desc = fnGen s t
      ∧ disableBad s d t = false
  | .groupDisable e, .group g => e = d ∧ Startable s d 0x21 f ∧ groupTarget f = some g ∧ dGen f.desc = fnGen s (.group g)
      ∧ gTenant (gEntry s g) = dTenant s f
  | .streamDisable e, .stream k => e = d ∧ Startable s d 0x32 f ∧ streamTarget f = some k ∧ dGen f.desc = fnGen s (.stream k)
      ∧ (streamOf' s k).tenant = some (dTenant s f)
  | .kernelDisable e, .kernel k => e = d ∧ Startable s d 0x42 f ∧ kernelTarget f = some k ∧ (kernelAt s k).loaded = true
      ∧ dGen f.desc = fnGen s (.kernel k) ∧ (kernelAt s k).tenant = dTenant s f
  | .qpDisable e, .qp q => e = d ∧ Startable s d 0x62 f ∧ qpTarget f = some q ∧ (qpOf s q).ctx.isSome = true
      ∧ dGen f.desc = fnGen s (.qp q) ∧ (qpOf s q).tenant = dTenant s f
  | _, _ => False

/-- No other function instance differs. -/
def OtherFns (f : FnId) (s t : State) : Prop := ∀ g, g ≠ f → fnOf t g = fnOf s g

/-- The register words are listed by rising index, each once. -/
def RegsRise (s : State) : Prop := (s.regs.word.map Prod.fst).Pairwise (· < ·)

/-- A lane of the link that may leave Detect for Negotiate: it has held lock for 100 µs (R641). -/
def detected (s : State) (l : LinkId) (seen : List DetectLane) (j : Fin 4) : Bool :=
  let a := lane s (laneId l j)
  ((seen[j.val]?).map heldLock).getD false && a.st = .detect && !a.ownOut && a.farLoop.isNone && decide (a.since + 100000 ≤ s.tick.ns)

/-- Every lane of the link keeps its place in the ladder and what it has shown there. -/
def SameLadder (l : LinkId) (s t : State) : Prop := ∀ j, (lane t (laneId l j)).st = (lane s (laneId l j)).st
  ∧ (lane t (laneId l j)).rate = (lane s (laneId l j)).rate ∧ (lane t (laneId l j)).pass = (lane s (laneId l j)).pass

/-- No lane outside the link differs. -/
def OtherLanes (l : LinkId) (s t : State) : Prop := ∀ n, linkOfLane n ≠ l → lane t n = lane s n

/-- The answer names the item that the part has outstanding for a thread of a run that goes on, and tells no congestion (R168, R555). -/
def AnswersThread (s : State) (p : Packet) (o : Own) (x : Thr) (acc : ThreadAcc) : Prop :=
  ownOf s p.tag = some o ∧ o.dst = p.src ∧ o.use = .thread x acc ∧ p.ecnEcho = false
    ∧ (thr s x).active = true ∧ (thr s x).ended = false
    ∧ ∃ r, workRun s (thr s x).kernel (thr s x).run = some r ∧ r.status = stOk

/-- The item with the tag is over, and apart from that only thread `x` differs, which is now `h`. -/
def ItemEnded (s : State) (tag : BitVec 16) (x : Thr) (h : Thread) (t : State) : Prop :=
  ownOf t tag = none ∧ thr t x = h ∧ (∀ y, y ≠ x → thr t y = thr s y)
    ∧ t = { s with core := t.core, items := t.items, work := { s.work with thr := t.work.thr } }

/-- A frame of the queue pair comes in and its port takes it: every check of R602 to R604, R609 and R612 holds, its class's meter and share let
it in without CE (R341, R605, R626), and `s1` is the state with the frame counted and metered. -/
def RoceComes (s : State) (m : RoceMsg) (q : Fin 16384) (c : QpCtx) (s1 : State) : Prop :=
  roceFor s m = some (q, c) ∧ m.ce = false ∧ ethPass m.port m.frame s = (some false, s1)

/-- A request packet that the gateway can take in the slot in which it arrives: it is for the queue pair, its port takes it, it is in
sequence, nothing waits before it, its class sends no pause and a tag is free (R605, R606, R612 to R614). -/
def RoceArrives (s : State) (m : RoceMsg) (q : Fin 16384) (c : QpCtx) (s1 : State) : Prop :=
  s.tick.todo = [] ∧ RoceComes s m q c s1 ∧ m.psn = (qpOf s q).expPsn ∧ s.attic.draining = false
    ∧ (qpOf s q).ins = [] ∧ (ethPort s m.port).waiting = [] ∧ pfcEn s m.port (frameClass s m.port m.frame).val = false
    ∧ tblGet none (ethPort s m.port).pausing (frameClass s m.port m.frame).val = none
    ∧ (findTag s (gwTags (80 + c.port.val)).1 (gwTags (80 + c.port.val)).2).isSome = true

/-- Every queue pair but `q` is as it was. -/
def OtherQps (q : Fin 16384) (s t : State) : Prop := ∀ j, j ≠ q → qpOf t j = qpOf s j

end Machine
end Sys2Proof
end

