-- ==== Sys2Proof/Certificates/Slice0/Obligations.lean ====
section
/-!
DEFINITION. The statements for the provers. Each says what commands of one family do: the next state that exec answers, by
the rules of spec/ that its docstring names. `Completes c s P` says that exec answers a next state of which P holds;
`t = { s with a := t.a }` says that nothing but `a` differs.
-/
open Sys2Proof Sys2Proof.Machine

/-- R21, R22, R42, R46, R759: once its last slot is over the tick ends: the next one begins at slot 0, with its TICK_OUT pulse and the
snapshot of the tick that ended, applies every register write that is due, and takes the number of a step that waits; before that
TICK_BOUNDARY changes nothing. R32, with R26, R30 and R31: the first marker of a tick on the upstream link gives the error of the alignment
(units of 0.0625 ns, by the two equations that stand before R32) and moves the edge by at most 0.125 ns, later for a positive error
and earlier for a negative one. R33: the counts of ticks within 0.5 ns and beyond 1 ns. Every other marker is only timestamped, and one
on a link whose tick_upstream_en is 0 is not kept. R33 and R37: lock is declared only at a boundary that stands for a tick numbered 29
mod 64, after 64 consecutive ticks within 0.5 ns; it is lost after 8 consecutive ticks beyond 1 ns. A clause of no effect
(NoEffect), where an event's condition does not hold, is the model's choice (log 1). -/
def Obligations.TickBoundarySteeringAndLock : Prop :=
  ((∀ s : State, s.tick.len ≤ s.tick.slot →
      Completes .tickBoundary s fun t => t.tick.elapsed = s.tick.elapsed + 1 ∧ t.tick.slot = 0
        ∧ t.power.tickOut = s.power.tickOut + 1 ∧ t.counts.snapTick = nowTick s
        ∧ t.regs.writes = s.regs.writes.filter (fun w => !reached t w.due)
        ∧ (∀ w, s.tick.step = some w → nowTick t = w.tick) ∧ (s.tick.step = none → nowTick t = nowTick s + 1))
    ∧ (∀ s : State, s.tick.slot < s.tick.len → NoEffect .tickBoundary s))
  ∧ ((∀ (s : State) (l : LinkId) (m : Marker) (rx : Nat) (a : Announce) (k : BitVec 48) (x : Marker),
      upstreamEn s l = true → s.tick.upstream = some l → s.tick.isMaster = false → s.tick.errAt ≠ some s.tick.elapsed →
      (heardOf s l).ann = some (a, k) → sentMark s l = some x →
      Completes (.tickMarkerReceive l m rx) s fun t =>
        t.tick.error = 2 * (rx : Int) - 2 * m.txOffset.toNat - (a.echo.toInt + rx - x.txOffset.toNat)
        ∧ (0 < t.tick.error → s.tick.edge < t.tick.edge ∧ t.tick.edge ≤ s.tick.edge + 2)
        ∧ (t.tick.error < 0 → t.tick.edge < s.tick.edge ∧ s.tick.edge - 2 ≤ t.tick.edge)
        ∧ (t.tick.error = 0 → t.tick.edge = s.tick.edge)
        ∧ t.tick.within = (if t.tick.error.natAbs ≤ 8 then s.tick.within + 1 else 0)
        ∧ t.tick.beyond = (if 16 < t.tick.error.natAbs then s.tick.beyond + 1 else 0)
        ∧ t = { s with tick := { s.tick with
            heard := (stampMark l m rx s).tick.heard, error := t.tick.error, errOk := true, errAt := some s.tick.elapsed,
            edge := s.tick.edge + edgeMove t.tick.error, corr := edgeMove t.tick.error, within := t.tick.within,
            beyond := t.tick.beyond } })
    ∧ (∀ (s : State) (l : LinkId) (m : Marker) (rx : Nat),
      upstreamEn s l = false ∨ s.tick.upstream ≠ some l ∨ s.tick.isMaster = true ∨ s.tick.errAt = some s.tick.elapsed →
      exec (.tickMarkerReceive l m rx) s = .next (stampMark l m rx s))
    ∧ (∀ (s : State) (l : LinkId) (m : Marker) (rx : Nat), tblWf {} s.tick.heard = true →
      (heardOf (stampMark l m rx s) l).ann = (heardOf s l).ann
        ∧ (heardOf (stampMark l m rx s) l).mark = (if upstreamEn s l then some (m, rx, s.tick.elapsed) else (heardOf s l).mark)
        ∧ (∀ x, sentMark s l = some x → (heardOf (stampMark l m rx s) l).echo = some ((rx : Int) - x.txOffset.toNat))
        ∧ (∀ k, k ≠ l → heardOf (stampMark l m rx s) k = heardOf s k)))
  ∧ ((∀ s : State, s.tick.slot = 0 → s.tick.isMaster = false → s.tick.upstream.isSome = true → s.tick.locked = false →
      64 ≤ s.tick.within → hits s 64 29 = true →
      exec .lockDeclared s = .next { s with tick.locked := true, tick.beyond := 0 })
    ∧ (∀ s : State, tickSpan s = 1 → (hits s 64 29 = true ↔ (nowTick s).toNat % 64 = 29))
    ∧ (∀ s : State, (s.tick.within < 64 ∨ hits s 64 29 = false ∨ s.tick.slot ≠ 0) → NoEffect .lockDeclared s)
    ∧ (∀ s : State, s.tick.locked = true → s.tick.isMaster = false → 8 ≤ s.tick.beyond →
      exec .lockLost s = .next { s with tick.locked := false, tick.within := 0 })
    ∧ (∀ s : State, s.tick.beyond < 8 → NoEffect .lockLost s))

/-- R24, R25, R26, R28, R29, R35 and R719: an announce on an enabled link is kept, an announce of the master is its sign of life, and
the module elects anew; a master not heard for 256 ticks is dropped with its announces; after the start-up wait the module elects
for the first time. The election follows the best master on the upstream link that R25 picks, takes mastership without a step of
its own tick number where the module itself is best, and runs free where there is none. R42: a step lengthens the
current tick once, by 1 to 1,023 slots, and adopts the master's number. R40: after 16,384 ticks of holdover the part declares tick loss
with event 0x18. R47 and R48: a master with tick_source 1 follows TICK_IN by at most 0.125 ns a tick and enters holdover at the eighth
consecutive edge that it misses. The flags of holdover after a loss, and a step of 1 slot where the edges are aligned, are the model's
choice (log 112). -/
def Obligations.TickMastershipStepsAndPads : Prop :=
  ((∀ (s : State) (l : LinkId) (a : Announce), upstreamEn s l = true →
      let h := setHeard l { heardOf s l with ann := some (a, s.tick.elapsed) } s
      exec (.announceReceive l a) s = .next (if (elect h).tick.master = some ⟨a.masterNode, a.masterPriority⟩ then
        { elect h with tick.lastAnn := s.tick.elapsed } else elect h))
    ∧ (∀ (s : State) (l : LinkId) (a : Announce), upstreamEn s l = true → s.tick.settled = false →
      Completes (.announceReceive l a) s fun t =>
        t.tick.heard = (setHeard l { heardOf s l with ann := some (a, s.tick.elapsed) } s).tick.heard
        ∧ (s.tick.master = some ⟨a.masterNode, a.masterPriority⟩ → t.tick.lastAnn = s.tick.elapsed)
        ∧ t.tick.offset = s.tick.offset ∧ t.tick.elapsed = s.tick.elapsed ∧ t = { s with tick := t.tick })
    ∧ (∀ (s : State) (l : LinkId) (a : Announce), upstreamEn s l = false → NoEffect (.announceReceive l a) s)
    ∧ (∀ (s : State) (m : Master), s.tick.master = some m → s.tick.isMaster = false → 256 ≤ ageOf s s.tick.lastAnn →
      ∃ u, u.tick.heard = tblMap {} (fun _ (h : Heard) => if h.ann.any (fun x => x.1.masterNode = m.node) then { h with ann := none } else h)
          s.tick.heard
        ∧ u = { s with tick := { s.tick with
            heard := u.tick.heard, lastAnn := s.tick.elapsed, master := none, hops := 0, upstream := none, locked := false,
            holdover := false, lost := false, errOk := false, isMaster := false } }
        ∧ exec .masterAnnounceTimeout s = .next (elect u))
    ∧ (∀ (s : State) (m : Master), s.tick.master = some m → s.tick.isMaster = false → 256 ≤ ageOf s s.tick.lastAnn →
      s.tick.settled = false →
      Completes .masterAnnounceTimeout s fun t =>
        t.tick.master = none ∧ t.tick.upstream = none
        ∧ (∀ (l : Nat) (h : Heard) (a : Announce) (k : BitVec 48), (l, h) ∈ t.tick.heard → h.ann = some (a, k) →
            a.masterNode ≠ m.node)
        ∧ t.tick.offset = s.tick.offset ∧ t.tick.elapsed = s.tick.elapsed ∧ t = { s with tick := t.tick })
    ∧ (∀ s : State, (s.tick.master = none ∨ s.tick.isMaster = true ∨ ageOf s s.tick.lastAnn < 256) →
      NoEffect .masterAnnounceTimeout s)
    ∧ (∀ (s : State) (k : BitVec 48), s.attic.runAt = some k → s.tick.settled = false → 256 ≤ ageOf s k →
      exec .startupMastership s = .next (elect { s with tick.settled := true }))
    ∧ (∀ (s : State) (k : BitVec 48), s.attic.runAt = some k → s.tick.settled = false → 256 ≤ ageOf s k →
      tickPriority s ≠ 0 → s.tick.heard = [] → s.tick.isMaster = false → s.tick.master = none →
      Completes .startupMastership s fun t =>
        t.tick.settled = true ∧ t.tick.isMaster = true ∧ t.tick.master = some ⟨myNode s, tickPriority s⟩
        ∧ t.tick.locked = true ∧ t.tick.hops = 0 ∧ nowTick t = nowTick s ∧ t = { s with tick := t.tick })
    ∧ (∀ (s : State) (b : Master) (l : LinkId) (h : Nat), s.tick.settled = true → bestOther s = some b →
      (∀ me, selfCandidate s = some me → better b me = true) → freshFor s b = some (l, h) → elect s = followMaster b l h s)
    ∧ (∀ (s : State) (b : Master) (l : LinkId) (h : Nat), s.tick.settled = true → bestOther s = some b →
      (∀ me, selfCandidate s = some me → better b me = true) → freshFor s b = none → upstreamFor s b = some (l, h) →
      elect s = followMaster b l h s)
    ∧ (∀ (s : State) (me : Master), s.tick.settled = true → selfCandidate s = some me → s.tick.isMaster = false →
      (∀ b, bestOther s = some b → better b me = false) → elect s = becomeMaster me s ∧ nowTick (elect s) = nowTick s)
    ∧ (∀ s : State, s.tick.settled = true → selfCandidate s = none → bestOther s = none → elect s = runFree s)
    ∧ (∀ (s : State) (m : Master) (l : LinkId) (h : Nat), freshFor s m = some (l, h) → carries s l = true ∧ upstreamEn s l = true ∧ h ≤ 7
        ∧ ∀ c ∈ candidates s, c.2.1 = m → carries s c.1 = true → h < c.2.2 ∨ (h = c.2.2 ∧ l.val ≤ c.1.val)))
  ∧ ((∀ (s : State) (l : LinkId) (a : Announce) (m : Marker) (k k' : BitVec 48) (rx : Nat), s.tick.upstream = some l →
      (heardOf s l).ann = some (a, k) → (heardOf s l).mark = some (m, rx, k') → s.tick.locked = false →
      s.tick.isMaster = false → s.tick.step = none → s.tick.errOk = true →
      (1024 < s.tick.error.natAbs ∨ markerTick a m + (s.tick.elapsed - k') ≠ nowTick s) →
      exec .tickStep s = .next { s with
          tick.step := some ⟨BitVec.ofNat 10 (stepExt s.tick.error),
            markerTick a m + (s.tick.elapsed - k') + (if s.tick.error < 0 then 2 else 1)⟩,
          tick.len := 1024 + stepExt s.tick.error })
    ∧ (∀ e : Int, 1 ≤ stepExt e ∧ stepExt e ≤ 1023 ∧ ((e / 16) % 1024 ≠ 0 → (stepExt e : Int) = (e / 16) % 1024))
    ∧ (∀ s : State, (s.tick.upstream = none ∨ s.tick.locked = true ∨ s.tick.isMaster = true ∨ s.tick.step.isSome = true) →
      NoEffect .tickStep s)
    ∧ (∀ s : State, s.tick.holdover = true → s.tick.lost = false → 16384 ≤ ageOf s s.tick.holdSince →
      exec .tickLoss s = .next (raiseEv 0x18 0 ((s.tick.master.map (fun m => m.node.toNat)).getD 0) 0 (bumpModule 8 { s with
        tick.lost := true, tick.locked := false })))
    ∧ (∀ s : State, s.tick.holdover = true → s.tick.lost = false → 16384 ≤ ageOf s s.tick.holdSince →
      Completes .tickLoss s fun t =>
        t.tick = { s.tick with lost := true, locked := false }
        ∧ (∃ e, t.counts.sideband = s.counts.sideband ++ [e] ∧ e.code = 0x18 ∧ e.tick = nowTick s ∧ e.unit = 0
          ∧ e.detail = BitVec.ofNat 128 ((s.tick.master.map (fun m => m.node.toNat)).getD 0))
        ∧ HostOnly { s with tick := t.tick } t)
    ∧ (∀ s : State, (s.tick.holdover = false ∨ s.tick.lost = true ∨ ageOf s s.tick.holdSince < 16384) → NoEffect .tickLoss s)
    ∧ (∀ (s : State) (early : Int), s.tick.isMaster = true → tickSource s = true →
      exec (.tickInEdge early) s = .next { s with
        tick.edge := s.tick.edge + edgeMove early, tick.corr := edgeMove early, tick.error := early, tick.missed := 0,
        tick.holdover := false, tick.lost := false, tick.locked := true })
    ∧ (∀ e : Int, edgeMove e ≤ 2 ∧ -2 ≤ edgeMove e ∧ (0 < e → 0 < edgeMove e) ∧ (e < 0 → edgeMove e < 0)
      ∧ (-2 ≤ e → e ≤ 2 → edgeMove e = e))
    ∧ (∀ (s : State) (early : Int), (s.tick.isMaster = false ∨ tickSource s = false) → NoEffect (.tickInEdge early) s)
    ∧ (∀ s : State, s.tick.isMaster = true → tickSource s = true →
      Completes .tickInMissed s fun t =>
        t.tick.missed = s.tick.missed + 1 ∧ (8 ≤ t.tick.missed → t.tick.holdover = true)
        ∧ (8 ≤ t.tick.missed → s.tick.holdover = false → t.tick.holdSince = s.tick.elapsed)
        ∧ (t.tick.missed < 8 → t.tick.holdover = s.tick.holdover)
        ∧ t = { s with tick := { s.tick with missed := t.tick.missed, holdover := t.tick.holdover, holdSince := t.tick.holdSince } })
    ∧ (∀ s : State, (s.tick.isMaster = false ∨ tickSource s = false) → NoEffect .tickInMissed s))

/-- R93, Table 4-3, and R100: the bring-up of Enzen. Each clause is one way out of a state; only the Enzen link changes,
but for the count of a retraining and the sideband event 0x22 of a failed one. R814: no frame is lost where the link is Active
again. R100: the exchange of CAP, CAP_ACK and LEVEL_REQ, and R92: the replay after 2 µs without an acknowledgement, which sends every
flit held again and loses none. A clause of no effect (NoEffect), where an event's condition does not hold, is the model's choice
(log 1); so are the number 5 of the state Retrain in event 0x22 and the answer to a level 0 or 3 (log 115). -/
def Obligations.EnzenBringUpAndReplay : Prop :=
  ((∀ s : State, s.enz.st = .detect →
      exec .enzenSignalDetected s = .next { s with enz.st := .trainE1, enz.since := s.tick.ns })
    ∧ (∀ s : State, s.enz.st ≠ .detect → NoEffect .enzenSignalDetected s)
    ∧ (∀ s : State, s.enz.st = .trainE1 → s.enz.toActive = false →
      Completes .enzenFecLockHeld s fun t => t.enz.st = .negotiate ∧ t.enz.level = 1 ∧ t.enz.since = s.tick.ns ∧ t.enz.capAt = s.tick.ns
        ∧ t.enz.held = s.enz.held ∧ EnzOnly s t ∧ ∃ x, t.enz.sent = s.enz.sent ++ [x] ∧ x.frame = ownHostCap s)
    ∧ (∀ s : State, s.enz.st = .trainE1 → s.enz.toActive = true → exec .enzenFecLockHeld s = .next (enzActive 1 s))
    ∧ (∀ s : State, s.enz.st = .trainE2 → exec .enzenFecLockHeld s = .next (enzActive 2 s))
    ∧ (∀ s : State, s.enz.st = .retrain → exec .enzenFecLockHeld s = .next (enzActive s.enz.level s))
    ∧ (∀ s : State, (s.enz.st = .detect ∨ s.enz.st = .negotiate ∨ s.enz.st = .active) → NoEffect .enzenFecLockHeld s)
    ∧ (∀ (s : State) (lv : BitVec 2), let t := enzActive lv s
      t.enz.st = .active ∧ t.enz.level = lv ∧ t.enz.since = s.tick.ns ∧ t.enz.lost = [] ∧ t.enz.viaDetect = false
        ∧ t.enz.toActive = false ∧ EnzOnly s t
        ∧ (t.enz.sent.map (·.frame) ++ t.enz.held).filter (fun f => decide (f.ftype ≠ 0x01))
          = (s.enz.sent.map (·.frame) ++ s.enz.lost ++ s.enz.held).filter (fun f => decide (f.ftype ≠ 0x01)))
    ∧ (∀ s : State, s.enz.st = .trainE1 → s.enz.since + 200000000 ≤ s.tick.ns →
      exec .enzenBringupTimeout s = .next (enzToDetect s))
    ∧ (∀ s : State, s.enz.st = .negotiate → s.enz.since + 20000000 ≤ s.tick.ns →
      exec .enzenBringupTimeout s = .next (enzToDetect s))
    ∧ (∀ s : State, s.enz.st = .trainE2 → s.enz.since + 200000000 ≤ s.tick.ns →
      exec .enzenBringupTimeout s = .next (enzActive 1 { s with enz.fallbacks := s.enz.fallbacks + 1 }))
    ∧ (∀ s : State, s.enz.st = .retrain → s.enz.since + 50000000 ≤ s.tick.ns →
      Completes .enzenBringupTimeout s fun t => t.enz = (enzToDetect s).enz
        ∧ (∃ e, t.counts.sideband = s.counts.sideband ++ [e] ∧ e.code = 0x22 ∧ e.detail = 5 ∧ e.tick = nowTick s)
        ∧ t = { s with enz := t.enz, counts := t.counts })
    ∧ (∀ s : State, (s.enz.st = .detect ∨ s.enz.st = .active
        ∨ s.tick.ns < s.enz.since + (if s.enz.st = .negotiate then 20000000 else if s.enz.st = .retrain then 50000000 else 200000000)) →
      NoEffect .enzenBringupTimeout s)
    ∧ (∀ s : State, let t := enzToDetect s
      t.enz.st = .detect ∧ t.enz.since = s.tick.ns ∧ t.enz.viaDetect = true ∧ t.enz.sent = [] ∧ t.enz.txSeq = 0 ∧ t.enz.rxExp = 0
        ∧ t.enz.cap = none ∧ t.enz.capAck = false ∧ t.enz.held = s.enz.held ∧ t.enz.reads = s.enz.reads ∧ EnzOnly s t
        ∧ ∀ x ∈ s.enz.sent, x.frame.ftype ≠ 0x01 → x.frame.ftype ≠ 0x09 → x.frame ∈ t.enz.lost)
    ∧ (∀ s : State, s.enz.st = .active →
      exec .enzenFecLockLost s = .next (bumpModule 20 { s with enz.st := .retrain, enz.since := s.tick.ns, enz.naks := [] }))
    ∧ (∀ s : State, s.enz.st ≠ .active → NoEffect .enzenFecLockLost s)
    ∧ (∀ s : State, s.enz.st = .active → 16 ≤ (s.enz.naks.filter (fun k => ageOf s k < 1024)).length →
      exec .enzenNakLimit s = .next (bumpModule 20 { s with enz.st := .retrain, enz.since := s.tick.ns, enz.naks := [] }))
    ∧ (∀ s : State, (s.enz.st ≠ .active ∨ (s.enz.naks.filter (fun k => ageOf s k < 1024)).length < 16) → NoEffect .enzenNakLimit s))
  ∧ ((∀ (s : State) (c : HostCap), s.enz.st = .negotiate → s.enz.capAck = false →
      Completes (.linkCtlCap c) s fun t => t.enz.cap = some c ∧ t.enz.st = .negotiate ∧ t.enz.held = s.enz.held ∧ EnzOnly s t
        ∧ ∃ x, t.enz.sent = s.enz.sent ++ [x] ∧ x.frame = linkCtl 0x02 0)
    ∧ (∀ (s : State) (c : HostCap), s.enz.st = .negotiate → s.enz.capAck = true →
      Completes (.linkCtlCap c) s fun t => t.enz.cap = some c ∧ EnzOnly s t
        ∧ t.enz.st = (if c.maxLevel = 2 then EnzSt.trainE2 else EnzSt.active) ∧ (c.maxLevel ≠ 2 → t.enz.level = 1)
        ∧ ∃ x rest, t.enz.sent = s.enz.sent ++ x :: rest ∧ x.frame = linkCtl 0x02 0)
    ∧ (∀ (s : State) (c : HostCap), s.enz.st ≠ .negotiate → exec (.linkCtlCap c) s = .next (takeInbox 0x09 s))
    ∧ (∀ (s : State) (c : HostCap), s.enz.st = .negotiate → s.enz.cap = some c → c.maxLevel = 2 →
      exec .linkCtlCapAck s = .next (enzEnter .trainE2 { takeInbox 0x09 s with enz.capAck := true }))
    ∧ (∀ (s : State) (c : HostCap), s.enz.st = .negotiate → s.enz.cap = some c → c.maxLevel ≠ 2 →
      exec .linkCtlCapAck s = .next (enzActive 1 { takeInbox 0x09 s with enz.capAck := true }))
    ∧ (∀ s : State, s.enz.st = .negotiate → s.enz.cap = none →
      exec .linkCtlCapAck s = .next { takeInbox 0x09 s with enz.capAck := true })
    ∧ (∀ s : State, s.enz.st ≠ .negotiate → exec .linkCtlCapAck s = .next (takeInbox 0x09 s))
    ∧ (∀ (s : State) (ty : BitVec 8), let t := takeInbox ty s
      t = { s with enz.inbox := t.enz.inbox }
        ∧ ((∀ f ∈ s.enz.inbox, f.ftype ≠ ty) → t = s)
        ∧ (∀ (a b : List HostFrame) (f : HostFrame), s.enz.inbox = a ++ f :: b → f.ftype = ty → (∀ g ∈ a, g.ftype ≠ ty) →
            t.enz.inbox = a ++ b))
    ∧ (∀ s : State, s.enz.st = .negotiate → s.enz.capAck = false → s.enz.capAt + 100000 ≤ s.tick.ns →
      Completes .linkCtlCapRetry s fun t => t.enz.capAt = s.tick.ns ∧ t.enz.st = .negotiate ∧ t.enz.since = s.enz.since ∧ EnzOnly s t
        ∧ ∃ x, t.enz.sent = s.enz.sent ++ [x] ∧ x.frame = ownHostCap s)
    ∧ (∀ s : State, (s.enz.st ≠ .negotiate ∨ s.enz.capAck = true ∨ s.tick.ns < s.enz.capAt + 100000) → NoEffect .linkCtlCapRetry s)
    ∧ (∀ (s : State) (lv : BitVec 2), s.enz.st = .active → lv ≠ 0 →
      Completes (.levelReq lv) s fun t => t.enz.st = (if lv = 1 then EnzSt.trainE1 else EnzSt.trainE2) ∧ t.enz.since = s.tick.ns
        ∧ t.enz.toActive = true ∧ t.enz.held = s.enz.held ∧ EnzOnly s t
        ∧ ∃ x, t.enz.sent = s.enz.sent ++ [x] ∧ x.frame = linkCtl (0x04 + (if lv = 1 then 1 else 2) * 1024) 0)
    ∧ (∀ (s : State) (lv : BitVec 2), (s.enz.st ≠ .active ∨ lv = 0) → exec (.levelReq lv) s = .next (takeInbox 0x09 s))
    ∧ (∀ s : State, (s.enz.st = .negotiate ∨ s.enz.st = .active) → s.enz.sent ≠ [] → s.enz.ackAt + 2000 ≤ s.tick.ns →
      Completes .enzenReplayTimeout s fun t =>
        t.enz.sent = s.enz.sent.map (fun x => { x with tries := x.tries + 1, ack := s.enz.rxExp - 1, nak := s.enz.nak })
        ∧ t = bumpModule 19 { s with enz.ackAt := s.tick.ns, enz.nak := false, enz.sent := t.enz.sent })
    ∧ (∀ s : State, ((s.enz.st ≠ .negotiate ∧ s.enz.st ≠ .active) ∨ s.enz.sent = [] ∨ s.tick.ns < s.enz.ackAt + 2000) →
      NoEffect .enzenReplayTimeout s))

/-- R123, R124, R126 and Table 4-13: the completion of a descriptor in flight sends one MEM_WR of 32 bytes to the entry's place in
the completion ring, then the producer index, in the order in which the host is to find them (frames that the link does not take yet
are held, R140); the entry names status, opcode, generation, target, ring, slot, cookie, tick and result, with the phase of its pass; the
descriptor leaves flight. One whose NO_COMPLETION is set and whose outcome is OK leaves flight without an entry (R125), and R141: what is
due to a host that announced its reset is discarded and counted. A descriptor not in flight has no completion (R123). -/
def Obligations.CompletionEntryWritten : Prop :=
  (∀ (s : State) (d : DRef) (f : InFlight) (st : BitVec 8) (r : Word),
    flightOf s d = some f → s.enz.hostReset = false → (dNoCompl f.desc && st = stOk) = false →
    let j := (sqRing s d.sq).cq
    let k := (tblGet {} s.rings.cq j.val).prod
    let t := complete d st r s
    (∃ x y rest, t.enz.sent.map (·.frame) ++ t.enz.held = s.enz.sent.map (·.frame) ++ s.enz.held ++ x :: y :: rest
      ∧ x.ftype = 0x03 ∧ x.addr = (cqRing s j).base + BitVec.ofNat 64 (k.toNat % depth (cqRing s j) * 32)
      ∧ x.payload.length = 32
      ∧ leAt x.payload 0 1 = st.toNat ∧ leAt x.payload 1 1 = (dOpcode f.desc).toNat
      ∧ leAt x.payload 2 2 = (if dTarget f.desc = 0xFFFF then 0 else f.gen.toNat)
      ∧ leAt x.payload 4 2 = (dTarget f.desc).toNat
      ∧ leAt x.payload 6 1 = d.sq.val + 128 * (if k.toNat / depth (cqRing s j) % 2 = 0 then 1 else 0)
      ∧ leAt x.payload 8 2 = f.sqGen.toNat
      ∧ leAt x.payload 10 2 = d.k.toNat % 65536 ∧ leAt x.payload 12 4 = (dCookie f.desc).toNat
      ∧ leAt x.payload 16 8 = (nowTick s).toNat
      ∧ leAt x.payload 24 8 = r.toNat
      ∧ y.ftype = 0x03 ∧ y.addr = reg s .hostCfg 0 0 1 + BitVec.ofNat 64 (0x100 + 4 * j.val) ∧ y.payload = leBytes 4 (k + 1).toNat)
    ∧ t.rings.flight = s.rings.flight.filter (fun g => g.ref ≠ d)
    ∧ (s.enz.st = .active → s.enz.held = [] → flitsHeld s + 3 ≤ 512 → t.enz.held = [])
    ∧ HostOnly s t)
  ∧ (∀ (s : State) (d : DRef) (f : InFlight) (r : Word), flightOf s d = some f → dNoCompl f.desc = true →
    complete d stOk r s = leaveFlight d s ∧ (leaveFlight d s).rings.flight = s.rings.flight.filter (fun g => g.ref ≠ d)
      ∧ (leaveFlight d s).enz = s.enz ∧ HostOnly s (leaveFlight d s))
  ∧ (∀ (s : State) (d : DRef) (f : InFlight) (st : BitVec 8) (r : Word),
    flightOf s d = some f → s.enz.hostReset = true → (dNoCompl f.desc && st = stOk) = false →
    (complete d st r s).enz.discarded = s.enz.discarded + 1
      ∧ (complete d st r s).rings.flight = s.rings.flight.filter (fun g => g.ref ≠ d) ∧ HostOnly s (complete d st r s))
  ∧ (∀ (s : State) (d : DRef) (st : BitVec 8) (r : Word), flightOf s d = none → complete d st r s = s)

/-- R115, R118, R129, R62, R122, R818 and Table 4-11: the rows of the rings. A NOP and a reserved opcode complete; a fence
and a timed start release; RING_CONFIG writes the configuration of a ring that is Off; a moderated interrupt goes once
its oldest entry has waited; a doorbell page applies once; an audit that finds every ring in agreement changes
nothing. R62, R60: the audit of a ring whose counts disagree counts one mismatch, raises event 0x15 with the signed difference and
brings the count of completions into agreement; a descriptor without work in flight completes with TIMEOUT. A clause of no effect
(NoEffect), where an event's condition does not hold, is the model's choice (log 1). -/
def Obligations.RingRowsAndAudit : Prop :=
  ((∀ (s : State) (d : DRef) (f : InFlight), flightOf s d = some f → mayStart s f = true → dOpcode f.desc = 0x00 →
      exec (.nopDesc d) s = .next (complete d stOk 0 (started d s)))
    ∧ (∀ (s : State) (d : DRef) (f : InFlight), flightOf s d = some f → f.stage = .fetched → dKnown (dOpcode f.desc) = false →
      exec (.reservedOpcode d) s = .next (complete d stBad 0 s))
    ∧ (∀ (s : State) (d : DRef) (f : InFlight), flightOf s d = some f → dFence f.desc = true →
      (∀ g ∈ s.rings.flight, earlier g.ref d = false) → earlierFetch s d = false →
      exec (.descriptorFenceRelease d) s = .next (modFlight d (fun g => { g with fenceOk := true }) s))
    ∧ (∀ (s : State) (d : DRef) (g : InFlight), (g ∈ s.rings.flight ∧ earlier g.ref d = true) ∨ earlierFetch s d = true →
      NoEffect (.descriptorFenceRelease d) s)
    ∧ (∀ (s : State) (d : DRef) (f : InFlight), let u := closeBoundary s
      flightOf u d = some f → dTimed f.desc = true → later (dApply f.desc) (nowTick u) = false →
      exec (.descriptorTimedStart d) s = .next (modFlight d (fun g => { g with timeOk := true }) u))
    ∧ (∀ (s : State) (d : DRef), let u := closeBoundary s
      (∀ f, flightOf u d = some f → dTimed f.desc = false ∨ later (dApply f.desc) (nowTick u) = true) →
      exec (.descriptorTimedStart d) s = .next u)
    ∧ (∀ s : State, (s.tick.slot ≠ 0 → closeBoundary s = s) ∧ (s.tick.slot = 0 → s.tick.todo = [] → closeBoundary s = setPhase 12 s))
    ∧ (∀ (s : State) (d : DRef) (f : InFlight) (i : Fin 64), flightOf s d = some f → mayStart s f = true →
      dOpcode f.desc = 0x01 → ringTarget f = some (.cq i) → i ≠ 0 → fnSt s (.cq i) = .off → dGen f.desc = fnGen s (.cq i) →
      ringCfgOk f.desc true = true →
      let u := modFlight d (fun g => { g with gen := fnGen s (.cq i) }) (started d s)
      exec (.ringConfig d) s = .next (complete d stOk 0 (setCq u i (ringOf f.desc (tblGet {} s.rings.cq i.val))))
        ∧ Completes (.ringConfig d) s fun t => HostOnly s t ∧ flightOf t d = none)
    ∧ (∀ (s : State) (d : DRef) (f : InFlight) (i : Fin 64), flightOf s d = some f → mayStart s f = true →
      dOpcode f.desc = 0x01 → ringTarget f = some (.sq i) → i ≠ 0 → fnSt s (.sq i) = .off → dGen f.desc = fnGen s (.sq i) →
      ringCfgOk f.desc false = true → (bit f.desc 280 = true → d.sq = 0) →
      let u := modFlight d (fun g => { g with gen := fnGen s (.sq i) }) (started d s)
      exec (.ringConfig d) s = .next (complete d stOk 0 (setSq u i (ringOf f.desc (tblGet {} s.rings.sq i.val))))
        ∧ Completes (.ringConfig d) s fun t => HostOnly s t ∧ flightOf t d = none)
    ∧ (∀ (s : State) (d : DRef) (f : InFlight) (e : FnId), flightOf s d = some f → mayStart s f = true →
      dOpcode f.desc = 0x01 → ringTarget f = some e → dGen f.desc ≠ fnGen s e →
      exec (.ringConfig d) s = .next (complete d stStaleGen 0 (modFlight d (fun g => { g with gen := fnGen s e }) (started d s))))
    ∧ (∀ (x : BitVec 512) (r : Ring), (ringOf x r).base = dWord x 24 ∧ (ringOf x r).depthLog2 = BitVec.ofNat 5 (fld x 256 8)
      ∧ (ringOf x r).tenant = BitVec.ofNat 8 (fld x 272 8) ∧ (ringOf x r).irqEn = bit x 281
      ∧ (ringOf x r).vector = BitVec.ofNat 8 (fld x 288 16) ∧ (ringOf x r).modCount = BitVec.ofNat 16 (fld x 304 16)
      ∧ (ringOf x r).modTicks = BitVec.ofNat 16 (fld x 320 16)
      ∧ (fld x 264 8 < 64 → (ringOf x r).cq.val = fld x 264 8)
      ∧ (ringOf x r).prod = r.prod ∧ (ringOf x r).cons = r.cons)
    ∧ (∀ (s : State) (q : Fin 64), (cqRing s q).irqEn = true → (cqRing s q).armed = true → 0 < (cqRing s q).unint →
      (cqRing s q).modTicks.toNat ≤ ageOf s (cqRing s q).oldest →
      Completes (.interruptModerationTimeout q) s fun t => t = cqInterrupt q s ∧ HostOnly s t
        ∧ (tblWf {} s.rings.cq = true → (tblGet {} t.rings.cq q.val).unint = 0 ∧ (tblGet {} t.rings.cq q.val).armed = false)
        ∧ t.enz.sent.map (·.frame) ++ t.enz.held = s.enz.sent.map (·.frame) ++ s.enz.held
          ++ [{ ftype := 0x04, addr := (cqRing s q).vector.setWidth 64 }])
    ∧ (∀ (s : State) (q : Fin 64), ((cqRing s q).irqEn = false ∨ (cqRing s q).armed = false ∨ (cqRing s q).unint = 0
        ∨ ageOf s (cqRing s q).oldest < (cqRing s q).modTicks.toNat) → NoEffect (.interruptModerationTimeout q) s)
    ∧ (∀ s : State, s.tick.slot = 0 → s.tick.todo = [] → (∃ p ∈ s.rings.page, reached s p.2 = true) → fetchPaused s = false →
      let u := evFlush 512 ((s.rings.page.filter (fun p => reached s p.2)).foldl (fun s p => applyPage p.1 s)
        { s with rings.page := s.rings.page.filter (fun p => !reached s p.2) })
      exec .doorbellPageApply s = .next (fetchAll (ringOrder u) 64 u))
    ∧ (∀ s : State, s.tick.slot = 0 → s.tick.todo = [] → (∃ p ∈ s.rings.page, reached s p.2 = true) →
      Completes .doorbellPageApply s fun t => t.rings.page = s.rings.page.filter (fun p => !reached s p.2)
        ∧ t = { s with enz := t.enz, rings := t.rings, counts := t.counts, free := t.free })
    ∧ (∀ s : State, s.tick.todo = [] → (s.tick.slot ≠ 0 ∨ ∀ p ∈ s.rings.page, reached s p.2 = false) → NoEffect .doorbellPageApply s)
    ∧ (∀ s : State, s.tick.slot = 0 → s.tick.elapsed.toNat % 4096 = 0 →
      exec .descriptorAudit s = .next ((List.finRange 64).foldl auditRing s))
    ∧ (∀ s : State, (∀ i : Fin 64, ringDiff s i = 0) → NoEffect .descriptorAudit s)
    ∧ (∀ s : State, (s.tick.slot ≠ 0 ∨ s.tick.elapsed.toNat % 4096 ≠ 0) → NoEffect .descriptorAudit s))
  ∧ (∀ (s : State) (i : Fin 64), ringDiff s i ≠ 0 →
      (∃ e, (auditRing s i).counts.sideband = s.counts.sideband ++ [e] ∧ e.code = 0x15 ∧ e.unit = BitVec.ofNat 16 i.val
        ∧ e.gen = fnGen s (.sq i) ∧ e.detail = BitVec.ofNat 128 (5 + (ringDiff s i % 4294967296).toNat * 65536))
      ∧ (∀ d ∈ orphans s i, flightOf (auditRing s i) d = none)
      ∧ (orphans s i = [] → sqLoad s i < 2 ^ 32 → tblWf {} s.rings.sq = true →
        ((tblGet {} (auditRing s i).rings.sq i.val).consumed - (tblGet {} (auditRing s i).rings.sq i.val).completed).toNat = sqLoad s i)
      ∧ HostOnly s (auditRing s i))

/-- R110 and R111 to R114: an index that is not valid is ignored, a valid one is taken; and what one boundary fetches of a
ring respects every limit. -/
def Obligations.DoorbellIndicesAndFetchLimits : Prop :=
  (∀ (s : State) (page : List Byte) (i : Fin 64), fnSt s (.sq i) = .on →
    idxOk (BitVec.ofNat 32 (leAt page (4 * i.val) 4)) (tblGet {} s.rings.sq i.val).cons (sqRing s i) = true →
    applySqProd page i s = setSq s i { tblGet {} s.rings.sq i.val with prod := BitVec.ofNat 32 (leAt page (4 * i.val) 4) })
  ∧ (∀ (s : State) (page : List Byte) (j : Fin 64),
    idxOk (tblGet {} s.rings.cq j.val).prod (BitVec.ofNat 32 (leAt page (0x100 + 4 * j.val) 4)) (cqRing s j) = false →
    applyCqCons page j s = s)
  ∧ (∀ (s : State) (i : Fin 64) (left : Nat), fetchable s i left ≤ 16 ∧ fetchable s i left ≤ left
    ∧ fetchable s i left ≤ ((sqRing s i).prod - (sqRing s i).cons).toNat
    ∧ (fnSt s (.sq i) ≠ .on → fetchable s i left = 0)
    ∧ (0 < fetchable s i left → s.rings.flight.length + s.rings.fetching + fetchable s i left ≤ 8192)
    ∧ (0 < fetchable s i left → ((cqRing s (sqRing s i).cq).prod - (cqRing s (sqRing s i).cq).cons).toNat
        + cqLoad s (sqRing s i).cq + fetchable s i left ≤ depth (cqRing s (sqRing s i).cq)))

/-- R193, R200, R201, R199, R204, R631, R637 and R675: a received frame passes its lanes; one that does not decode, or whose tag fails,
is discarded; of the others the frame expected is accepted, its returns applied and the sequence number advanced; another is discarded,
and the first discard sets nak and counts; nak repeats after 1,024 ns; an acknowledgement frees what it covers. The header is read
as it is written. R202, R205, R206: frames held are replayed 512 ns after the last progress of ack, or at a nak, and none is lost;
replay_limit replays send the link to retraining with its replay buffer; four retrainings within 65,536 ticks set
fallback and end the link. A clause of no effect (NoEffect), where an event's condition does not hold, is the model's
choice (log 1). -/
def Obligations.LinkFramesReplayFallback : Prop :=
  ((∀ (s : State) (l : LinkId) (f : LinkFrame) (bytes body : List Byte) (u : State),
      ((link s l).up = true ∨ (link s l).nego = true) → (link s l).retrain = false → lanesRx l f s = (some bytes, u) →
      plainBody (link u l) bytes = some body → exec (.linkFrameReceive l f) s = .next (frameIn l (headOfBytes bytes) body u))
    ∧ (∀ (s : State) (l : LinkId) (f : LinkFrame) (u : State), ((link s l).up = true ∨ (link s l).nego = true) →
      (link s l).retrain = false → lanesRx l f s = (none, u) → exec (.linkFrameReceive l f) s = .next (discardFrame l u))
    ∧ (∀ (s : State) (l : LinkId) (f : LinkFrame) (bytes : List Byte) (u : State), ((link s l).up = true ∨ (link s l).nego = true) →
      (link s l).retrain = false → lanesRx l f s = (some bytes, u) → plainBody (link u l) bytes = none →
      exec (.linkFrameReceive l f) s
        = .next (discardFrame l (setLink u l { link u l with tagFails := (link u l).tagFails + 1 })))
    ∧ (∀ (s : State) (l : LinkId) (f : LinkFrame), ((link s l).up = false ∧ (link s l).nego = false) ∨ (link s l).retrain = true →
      NoEffect (.linkFrameReceive l f) s)
    ∧ (∀ (s : State) (l : LinkId) (f : LinkFrame), let u := (lanesRx l f s).2
      u = { s with lanes := u.lanes, links := u.links, counts := u.counts }
        ∧ (tblWf {} s.links = true → link u l = { link s l with badBlocks := (link u l).badBlocks }
          ∧ (link s l).badBlocks ≤ (link u l).badBlocks)
        ∧ (∀ n, linkOfLane n ≠ l → lane u n = lane s n)
        ∧ ((lanesRx l f s).1.isSome = true ↔ rxLanes s l ≠ [] ∧
            ∀ x ∈ (rxLanes s l).zipIdx, (rsDecode ((f.words.getD x.2 []).map (·.toNat))).isSome = true))
    ∧ (∀ f : TxFrame, f.ret.length = 16 → headOfBytes (headBytes f) = ⟨f.seq, f.ack, f.nak, f.kind, f.first, f.ret⟩)
    ∧ (∀ (s : State) (l : LinkId) (h : FrameHead) (body : List Byte), (link s l).up = true → (link s l).nego = false →
      h.nak = false → (h.kind = .data ∨ h.kind = .control) → h.ack = (link s l).acked → h.seq = (link s l).rxExp →
      ((link s l).keyed = true → ((link s l).rxCount + 1) % 2 ^ 36 ≠ 0) →
      frameIn l h body s = setLink s l { link s l with
        rxExp := (link s l).rxExp + 1, rxCount := (link s l).rxCount + 1, nakAt := none, part := applyRet h.ret (link s l).part,
        rxPkt := if h.kind = .data then bodyIn (link s l).gen (link s l).rxPkt body else (link s l).rxPkt })
    ∧ (∀ (t : Tbl Part) (ret : List (BitVec 5)) (q : Fin 16), tblWf {} t = true →
      (tblGet {} (applyRet ret t) q.val).held = (tblGet {} t q.val).held + (ret.getD q.val 0).toNat
        ∧ (tblGet {} (applyRet ret t) q.val).rcvd = (tblGet {} t q.val).rcvd + BitVec.ofNat 32 (ret.getD q.val 0).toNat)
    ∧ (∀ (s : State) (l : LinkId) (h : FrameHead) (body : List Byte), (link s l).up = true → (link s l).nego = false →
      h.nak = false → h.kind ≠ .ackOnly → h.ack = (link s l).acked → (h.seq ≠ (link s l).rxExp ∨ h.kind = .reserved) →
      frameIn l h body s = discardFrame l s)
    ∧ (∀ (s : State) (l : LinkId), (link s l).nakAt = none →
      discardFrame l s = bumpPort (linkPort l) 193 (setLink s l { link s l with nakNext := true, nakAt := some s.tick.ns }))
    ∧ (∀ (s : State) (l : LinkId) (k : Nat), (link s l).nakAt = some k → discardFrame l s = s)
    ∧ (∀ (s : State) (l : LinkId) (h : FrameHead) (body : List Byte) (n : Nat), (link s l).up = true → (link s l).nego = false →
      h.nak = false → h.kind = .ackOnly → 0 < n → n ≤ (link s l).replay.length → n < 4096 →
      h.ack = (link s l).acked + BitVec.ofNat 12 n →
      let t := frameIn l h body s
      (link t l).replay = (link s l).replay.drop n ∧ (link t l).acked = h.ack
        ∧ (link t l).replays = 0 ∧ (link t l).ackAt = s.tick.ns ∧ (link t l).rxExp = (link s l).rxExp
        ∧ (∀ x ∈ (link t l).again, x ∈ (link s l).again ∧ ∃ y ∈ (link t l).replay, y.seq = x.seq)
        ∧ t = { s with links := t.links })
    ∧ (∀ (s : State) (l : LinkId) (h : FrameHead) (body : List Byte), (link s l).up = true → (link s l).nego = false →
      h.nak = true → h.kind = .ackOnly → h.ack = (link s l).acked → (link s l).replayFrom ≠ some (link s l).acked →
      frameIn l h body s = replayNow l s)
    ∧ (∀ (s : State) (l : LinkId) (k : Nat), (link s l).nakAt = some k → k + 1024 ≤ s.tick.ns →
      exec (.nakRepeatTimeout l) s = .next (bumpPort (linkPort l) 193 (setLink s l { link s l with
        nakNext := true, nakAt := some s.tick.ns })))
    ∧ (∀ (s : State) (l : LinkId), ((link s l).nakAt = none ∨ ∃ k, (link s l).nakAt = some k ∧ s.tick.ns < k + 1024) →
      NoEffect (.nakRepeatTimeout l) s))
  ∧ ((∀ (s : State) (l : LinkId), ((link s l).up = true ∨ (link s l).nego = true) → (link s l).retrain = false →
      (link s l).replay ≠ [] → (link s l).ackAt + 512 ≤ s.tick.ns →
      exec (.linkReplayTimeout l) s = .next (replayNow l s))
    ∧ (∀ (s : State) (l : LinkId), (link s l).replay ≠ [] →
      replayNow l s = bumpPort (linkPort l) 192 (setLink s l { link s l with
        replayFrom := some (link s l).acked, again := (link s l).replay, replays := (link s l).replays + 1, ackAt := s.tick.ns }))
    ∧ (∀ (s : State) (l : LinkId), (s.tick.ns < (link s l).ackAt + 512 ∨ (link s l).replay = [] ∨ (link s l).retrain = true) →
      NoEffect (.linkReplayTimeout l) s)
    ∧ (∀ (s : State) (l : LinkId), ((link s l).up = true ∨ (link s l).nego = true) → (link s l).retrain = false →
      (link s l).replay ≠ [] → fld (reg s .linkLlCtrl l.val) 8 4 ≤ (link s l).replays →
      Completes (.replayLimitRetrain l) s fun t => link t l = { link s l with
          retrain := true, replays := 0, again := [], replayFrom := none, room := 0,
          retrains := (link s l).retrains.filter (fun k => ageOf s k < 65536) ++ [s.tick.elapsed] }
        ∧ (∀ j : Fin 4, (lane s (laneId l j)).st = .service → (lane t (laneId l j)).st = .recover)
        ∧ t = { s with links := t.links, lanes := t.lanes, counts := (bumpPort (linkPort l) 203 s).counts })
    ∧ (∀ (s : State) (l : LinkId), ((link s l).replays < fld (reg s .linkLlCtrl l.val) 8 4 ∨ (link s l).retrain = true
        ∨ (link s l).replay = []) → NoEffect (.replayLimitRetrain l) s)
    ∧ (∀ (s : State) (l : LinkId), 4 ≤ ((link s l).retrains.filter (fun k => ageOf s k < 65536)).length →
      fallback s l = false →
      exec (.linkFallback l) s = .next (findFailure l 4 (setFallback l true (setLink s l { link s l with retrains := [] }))))
    ∧ (∀ (s : State) (l : LinkId), 4 ≤ ((link s l).retrains.filter (fun k => ageOf s k < 65536)).length →
      fallback s l = false → (link s l).up = true → (link s l).failAt = none →
      Completes (.linkFallback l) s fun t => (link t l).failAt = some (4, prepDue s) ∧ (link t l).retrains = []
        ∧ t.regs = (setFallback l true s).regs ∧ t = { s with links := t.links, regs := t.regs })
    ∧ (∀ (s : State) (l : LinkId), (((link s l).retrains.filter (fun k => ageOf s k < 65536)).length < 4 ∨ fallback s l = true) →
      NoEffect (.linkFallback l) s))

/-- R208, R209, R210, R211, R212, R671 and R673: negotiation ends when both LINK_CAPs are through: the link is in service at the lower
generation and feature level, on the lanes both offer, holding the peer's credits as the audit's reference with the
audit counts at zero, encrypted where encryption is asked for; lanes that only this end names are held out and recovered. Feature levels
more than one apart, or encryption that the two ends cannot have, refuse the link with event 0x1B or 0x1C, and too few lanes send it back
to bring-up. A LINK_CAP in service ends service (cause 4); none within 1 ms ends negotiation. What becomes of the lanes after a refusal
is the model's choice (log 120); so is a clause of no effect (NoEffect), where an event's condition does not hold (log 1). -/
def Obligations.LinkNegotiation : Prop :=
  (∀ (s : State) (l : LinkId) (c : LinkCap), (link s l).up = false → (link s l).nego = true →
    exec (.linkCap l c) s = .next (endNego l (setLink s l { link s l with cap := some c })))
  ∧ (∀ (s : State) (l : LinkId) (q : BitVec 12), (link s l).capSeq = some q → endNego l s = s)
  ∧ (∀ (s : State) (l : LinkId) (c : LinkCap), (link s l).up = false → (link s l).nego = true → (link s l).capSeq = none →
    (link s l).failed = false → (link s l).noticed = false →
    (bit (reg s .linkSec l.val) 0 = true → c.vexlor = true ∧ s.strong.linkKey = true) →
    max s.attic.level.toNat c.level.toNat ≤ min s.attic.level.toNat c.level.toNat + 1 →
    minLanes s l ≤ laneCount ((ownCap s l).laneMask &&& c.laneMask) →
    Completes (.linkCap l c) s fun t => (link t l).up = true ∧ (link t l).nego = false
      ∧ (link t l).gen.toNat = min (ownCap s l).maxGen.toNat c.maxGen.toNat
      ∧ (link t l).level.toNat = min s.attic.level.toNat c.level.toNat
      ∧ (link t l).lanes = (ownCap s l).laneMask &&& c.laneMask ∧ (link t l).peer = c.node
      ∧ (link t l).keyed = bit (reg s .linkSec l.val) 0
      ∧ (bit (reg s .linkSec l.val) 0 = true → (link t l).keyTx = linkKeyOf s (myNode s) c.node l.val c.link.toNat ((link s l).txCount / 2 ^ 36)
          ∧ (link t l).keyRx = linkKeyOf s c.node (myNode s) c.link.toNat l.val ((link s l).rxCount / 2 ^ 36))
      ∧ (∀ j : Fin 4, (lane s (laneId l j)).st = .service → (lane s (laneId l j)).ownOut = false → bit c.laneMask j.val = false →
          (lane t (laneId l j)).st = .recover ∧ (lane t (laneId l j)).ownOut = true)
      ∧ (∀ q : Fin 16, tblWf {} (link s l).part = true →
          (part t l q).held = (c.credits.getD q.val 0).toNat ∧ (part t l q).ref = (c.credits.getD q.val 0).toNat
          ∧ (part t l q).sent = 0 ∧ (part t l q).rcvd = 0 ∧ (part t l q).got = 0 ∧ (part t l q).retd = 0)
      ∧ (link t l).txSeq = (link s l).txSeq ∧ (link t l).replay = (link s l).replay
      ∧ t = { s with links := t.links, lanes := t.lanes })
  ∧ (∀ (s : State) (l : LinkId) (c : LinkCap), (link s l).up = false → (link s l).nego = true → (link s l).capSeq = none →
    min s.attic.level.toNat c.level.toNat + 1 < max s.attic.level.toNat c.level.toNat →
    Completes (.linkCap l c) s fun t => link t l = { link s l with nego := false, cap := some c }
      ∧ (∃ e, t.counts.sideband = s.counts.sideband ++ [e] ∧ e.code = 0x1B ∧ e.unit = BitVec.ofNat 16 l.val
        ∧ e.detail = BitVec.ofNat 128 (s.attic.level.toNat + c.level.toNat * 256))
      ∧ HostOnly { s with links := t.links } t)
  ∧ (∀ (s : State) (l : LinkId) (c : LinkCap), (link s l).up = false → (link s l).nego = true → (link s l).capSeq = none →
    max s.attic.level.toNat c.level.toNat ≤ min s.attic.level.toNat c.level.toNat + 1 → bit (reg s .linkSec l.val) 0 = true →
    (c.vexlor = false ∨ s.strong.linkKey = false) →
    Completes (.linkCap l c) s fun t => link t l = { link s l with nego := false, cap := some c }
      ∧ (∃ e, t.counts.sideband = s.counts.sideband ++ [e] ∧ e.code = 0x1C ∧ e.unit = BitVec.ofNat 16 l.val)
      ∧ HostOnly { s with links := t.links } t)
  ∧ (∀ (s : State) (l : LinkId) (c : LinkCap), (link s l).up = false → (link s l).nego = true → (link s l).capSeq = none →
    max s.attic.level.toNat c.level.toNat ≤ min s.attic.level.toNat c.level.toNat + 1 → bit (reg s .linkSec l.val) 0 = false →
    laneCount ((ownCap s l).laneMask &&& c.laneMask) < minLanes s l →
    Completes (.linkCap l c) s fun t => (link t l).nego = false ∧ (link t l).up = false
      ∧ (tblWf {} s.lanes = true → ∀ j : Fin 4, (lane t (laneId l j)).st = (if laneLit s (laneId l j) then .detect else .dark))
      ∧ t = { s with links := t.links, lanes := t.lanes })
  ∧ (∀ (s : State) (l : LinkId) (c : LinkCap), (link s l).up = true →
    exec (.linkCap l c) s = .next (findFailure l 4 (setLink s l { link s l with cap := some c })))
  ∧ (∀ (s : State) (l : LinkId) (c : LinkCap), (link s l).up = true → (link s l).failAt = none →
    exec (.linkCap l c) s = .next (setLink (setLink s l { link s l with cap := some c }) l
      { link s l with cap := some c, failAt := some (4, prepDue s) }))
  ∧ (∀ (s : State) (l : LinkId) (c : LinkCap), (link s l).up = false → (link s l).nego = false → NoEffect (.linkCap l c) s)
  ∧ (∀ (s : State) (l : LinkId), (link s l).nego = true → (link s l).cap = none → (link s l).negoAt + 1000000 ≤ s.tick.ns →
    exec (.linkCapTimeout l) s = .next (lanesToDetect l (setLink s l { link s l with nego := false, capSeq := none })))
  ∧ (∀ (s : State) (l : LinkId), (s.tick.ns < (link s l).negoAt + 1000000 ∨ (link s l).nego = false ∨ (link s l).cap.isSome = true) →
    NoEffect (.linkCapTimeout l) s)

/-- R227, R228 and R234: link n sends its AUDIT in the tick whose number mod 64 is n / 4, in its next control frame, with held, sent and
rcvd of each partition as they are when the frame goes, and skips the partitions that are frozen; in other ticks it sends none. R229,
R230, R231: the receiver checks got = sent and the sum of R229, answers every AUDIT with an AUDIT_RESULT whose mask names the failed
partitions, and reports each failure; a failed partition freezes at the next boundary on both sides. R231, R232 and
R233: a partition freezes and thaws at the boundary it waits for; a frozen receiver partition with nothing reserved or
unreturned sends RESYNC; on RESYNC the sender's held becomes the reference total, its rcvd the receiver's retd and its
sent the receiver's got; a partition frozen for 256 ticks fails its link. A clause of no effect (NoEffect), where an
event's condition does not hold, is the model's choice (log 1). -/
def Obligations.CreditAudit : Prop :=
  ((∀ (s : State) (l : LinkId), s.tick.slot = 0 → s.tick.phase ≤ 6 → (link s l).up = true → hits s 64 (l.val / 4) = true →
      Completes (.creditAuditDue l) s fun t => (∃ m, link t l = { link s l with ctl := .audit m :: (link s l).ctl }
          ∧ m = auditOf (link s l) m.mask ∧ ∀ q : Fin 16, bit m.mask q.val = (part s l q).txFrozen.isNone)
        ∧ t.tick = { s.tick with phase := 6 } ∧ t = { s with links := t.links, tick := t.tick })
    ∧ (∀ (s : State) (n : Nat), n < 64 → tickSpan s = 1 → (hits s 64 n = true ↔ (nowTick s).toNat % 64 = n))
    ∧ (∀ (k : Link) (w : BitVec 16) (m : AuditMsg), freshMsg k (.audit m) = .audit (auditOf k m.mask) ∧ (auditOf k w).mask = w
      ∧ ∀ q : Fin 16, (auditOf k w).held.getD q.val 0 = BitVec.ofInt 16 (tblGet ({} : Part) k.part q.val).held
        ∧ (auditOf k w).sent.getD q.val 0 = (tblGet ({} : Part) k.part q.val).sent
        ∧ (auditOf k w).rcvd.getD q.val 0 = (tblGet ({} : Part) k.part q.val).rcvd)
    ∧ (∀ (s : State) (l : LinkId), (hits s 64 (l.val / 4) = false ∨ (link s l).up = false ∨ s.tick.slot ≠ 0 ∨ 6 < s.tick.phase) →
      NoEffect (.creditAuditDue l) s))
  ∧ ((∀ (s : State) (l : LinkId) (m : AuditMsg), (link s l).up = true →
      (∀ q : Fin 16, bit m.mask q.val = true →
        ((m.held.getD q.val 0).toNat : Int) + (part s l q).occ + (part s l q).pend
            + ((part s l q).retd - m.rcvd.getD q.val 0).toInt = advertised s l q.val
        ∧ (part s l q).got = m.sent.getD q.val 0) →
      Completes (.audit l m) s fun t => (∃ ds es, (link t l).ctl = (link s l).ctl ++ [.auditResult 0 ds es])
        ∧ (tblWf {} (link s l).part = true → ∀ q : Fin 16, part t l q = part s l q) ∧ t = { s with links := t.links })
    ∧ (∀ (s : State) (l : LinkId) (m : AuditMsg), (link s l).up = true →
      Completes (.audit l m) s fun t =>
        t.counts.sideband.length = s.counts.sideband.length + ((upFrom 0 16).filter (auditFails s l m)).length
        ∧ (∃ mask, (link t l).ctl = (link s l).ctl
            ++ [.auditResult mask ((upFrom 0 16).map (sumDiff s l m)) ((upFrom 0 16).map (sentDiff s l m))]
          ∧ ∀ q : Fin 16, bit mask q.val = auditFails s l m q.val)
        ∧ (tblWf {} (link s l).part = true → ∀ q : Fin 16, part t l q = if auditFails s l m q.val then
            { part s l q with rxFreezeAt := some (s.tick.elapsed + 1) } else part s l q)
        ∧ HostOnly { s with links := t.links } t)
    ∧ (∀ (s : State) (l : LinkId) (m : BitVec 16), (link s l).up = true →
      exec (.auditResult l m) s = .next (setLink s l (mapParts (fun q p =>
        if bit m q then { p with txFreezeAt := some (s.tick.elapsed + 1) } else p) (link s l))))
    ∧ (∀ (s : State) (l : LinkId) (m : AuditMsg) (w : BitVec 16) (r : ResyncMsg), (link s l).up = false →
      NoEffect (.audit l m) s ∧ NoEffect (.auditResult l w) s ∧ NoEffect (.resyncSend l) s ∧ NoEffect (.resync l r) s))
  ∧ ((∀ (s : State) (l : LinkId), s.tick.slot = 0 →
      Completes (.partitionFreeze l) s fun t => t = { s with links := t.links }
        ∧ (tblWf {} s.links = true → tblWf {} (link s l).part = true → ∀ q : Fin 16,
          let a := dueNow s (part s l q).txFreezeAt
          let b := dueNow s (part s l q).rxFreezeAt
          part t l q = { part s l q with
            txFrozen := if a then some s.tick.elapsed else (part s l q).txFrozen,
            txFreezeAt := if a then none else (part s l q).txFreezeAt,
            rxFrozen := if b then some s.tick.elapsed else (part s l q).rxFrozen,
            rxFreezeAt := if b then none else (part s l q).rxFreezeAt }))
    ∧ (∀ (s : State) (l : LinkId), s.tick.slot = 0 →
      Completes (.partitionUnfreeze l) s fun t => t = { s with links := t.links }
        ∧ (tblWf {} s.links = true → tblWf {} (link s l).part = true → ∀ q : Fin 16,
          let a := dueNow s (part s l q).txThawAt
          let b := dueNow s (part s l q).rxThawAt
          part t l q = { part s l q with
            txFrozen := if a then none else (part s l q).txFrozen,
            txThawAt := if a then none else (part s l q).txThawAt,
            rxFrozen := if b then none else (part s l q).rxFrozen,
            rxThawAt := if b then none else (part s l q).rxThawAt }))
    ∧ (∀ (s : State) (l : LinkId), s.tick.slot ≠ 0 → NoEffect (.partitionFreeze l) s ∧ NoEffect (.partitionUnfreeze l) s)
    ∧ (∀ (s : State) (l : LinkId) (q : Fin 16), (link s l).up = true → (part s l q).rxFrozen.isSome = true →
      (part s l q).rxThawAt = none → (part s l q).occ = 0 → (part s l q).pend = 0 →
      Completes (.resyncSend l) s fun t => t = { s with links := t.links } ∧ (∃ m, (link t l).ctl = (link s l).ctl ++ [.resync m]
          ∧ bit m.mask q.val = true ∧ ∀ r : Fin 16, bit m.mask r.val = resyncReady (part s l r)
            ∧ m.retd.getD r.val 0 = (part s l r).retd ∧ m.got.getD r.val 0 = (part s l r).got)
        ∧ (tblWf {} (link s l).part = true → ∀ r : Fin 16, part t l r = if resyncReady (part s l r) then
            { part s l r with rxThawAt := some (s.tick.elapsed + 1) } else part s l r))
    ∧ (∀ (s : State) (l : LinkId) (m : ResyncMsg), (link s l).up = true →
      Completes (.resync l m) s fun t => t = { s with links := t.links }
        ∧ (tblWf {} (link s l).part = true → ∀ q : Fin 16,
          part t l q = if bit m.mask q.val then
              { part s l q with
                held := (part s l q).ref, rcvd := m.retd.getD q.val 0, sent := m.got.getD q.val 0,
                txThawAt := some (s.tick.elapsed + 1) }
            else part s l q))
    ∧ (∀ (s : State) (l : LinkId) (q : Fin 16) (k : BitVec 48),
      (part s l q).txFrozen = some k ∨ (part s l q).rxFrozen = some k → 256 ≤ ageOf s k →
      exec (.frozenPartitionTimeout l q) s = .next (findFailure l 3 s))
    ∧ (∀ (s : State) (l : LinkId) (q : Fin 16),
      (∀ k, (part s l q).txFrozen = some k ∨ (part s l q).rxFrozen = some k → ageOf s k < 256) →
      NoEffect (.frozenPartitionTimeout l q) s)
    ∧ (∀ (s : State) (l : LinkId) (c : BitVec 8), ((link s l).up = true ∨ (link s l).nego = true) → (link s l).failAt = none →
      findFailure l c s = setLink s l { link s l with failAt := some (c, prepDue s) }))

/-- R204, R220 to R223, R228 and R229: credits are conserved. An accepted frame's returns keep held + sent - rcvd of each
of the sender's partitions; reserving at a header, freeing and returning keep the receiver's got = retd + occ + pend. R194, R197 to R199,
R202 and R223: of the frames that wait, a replayed one goes first, then a control message; a new sequenced frame takes the next number
and what is to be returned, and is held for replay, and where nothing waits or the replay buffer is full an ack-only frame goes. -/
def Obligations.CreditsConserved : Prop :=
  (∀ (rs : List (BitVec 5)) (tb : Tbl Part) (q : Fin 16), tblWf {} tb = true →
    let p := tblGet {} tb q.val
    let p' := tblGet {} (applyRet rs tb) q.val
    p'.held = p.held + (rs.getD q.val 0).toNat ∧ p'.rcvd = p.rcvd + (rs.getD q.val 0).setWidth 32
      ∧ BitVec.ofInt 32 p'.held + p'.sent - p'.rcvd = BitVec.ofInt 32 p.held + p.sent - p.rcvd
      ∧ p'.sent = p.sent ∧ p'.ref = p.ref ∧ p'.got = p.got ∧ p'.retd = p.retd ∧ p'.occ = p.occ ∧ p'.pend = p.pend)
  ∧ (∀ (s : State) (l : LinkId) (q : Fin 16) (u : Nat), tblWf {} s.links = true → tblWf {} (link s l).part = true →
    (part s l q).got = (part s l q).retd + BitVec.ofNat 32 ((part s l q).occ + (part s l q).pend) →
    (part (rxReserve l q u s) l q).got = (part (rxReserve l q u s) l q).retd
      + BitVec.ofNat 32 ((part (rxReserve l q u s) l q).occ + (part (rxReserve l q u s) l q).pend))
  ∧ (∀ (s : State) (l : LinkId) (q : Fin 16) (u : Nat), tblWf {} s.links = true → tblWf {} (link s l).part = true →
    u ≤ (part s l q).occ →
    (part s l q).got = (part s l q).retd + BitVec.ofNat 32 ((part s l q).occ + (part s l q).pend) →
    (part (rxFree l q u s) l q).got = (part (rxFree l q u s) l q).retd
      + BitVec.ofNat 32 ((part (rxFree l q u s) l q).occ + (part (rxFree l q u s) l q).pend))
  ∧ (∀ (k : Link) (q : Fin 16), tblWf {} k.part = true →
    let p := tblGet {} k.part q.val
    let p' := tblGet {} (afterRet k) q.val
    p.got = p.retd + BitVec.ofNat 32 (p.occ + p.pend) → p'.got = p'.retd + BitVec.ofNat 32 (p'.occ + p'.pend)
      ∧ p.pend = p'.pend + ((retNow k).getD q.val 0).toNat ∧ ((retNow k).getD q.val 0).toNat ≤ 31)
  ∧ (∀ (s : State) (l : LinkId) (f : TxFrame) (room : Nat), let t := newFrame l f room s
    (∃ x, (link t l).replay = (link s l).replay ++ [x] ∧ (link t l).sent = some x
      ∧ x = { f with seq := (link s l).txSeq, ack := (link s l).rxExp - 1, nak := (link s l).nakNext, ret := retNow (link s l),
                     x := (link s l).txCount, key := (link s l).keyTx })
    ∧ (link t l).txSeq = (link s l).txSeq + 1 ∧ (link t l).txCount = (link s l).txCount + 1 ∧ (link t l).nakNext = false
    ∧ (link t l).part = afterRet (link s l) ∧ (link t l).room = room ∧ t = { s with links := t.links })
  ∧ (∀ (s : State) (l : LinkId) (body : Nat) (f : TxFrame) (fs : List TxFrame), tblWf {} s.links = true →
    (link s l).again = f :: fs → frameUsed f ≤ body →
    let t := sendLinkFrame l body s
    (link t l).sent = some { f with ack := (link s l).rxExp - 1, nak := (link s l).nakNext } ∧ (link t l).again = fs
      ∧ (link t l).replay = (link s l).replay ∧ (link t l).txSeq = (link s l).txSeq ∧ t = { s with links := t.links })
  ∧ (∀ (s : State) (l : LinkId) (body : Nat) (m : LinkMsg) (ms : List LinkMsg), (link s l).again = [] →
    (link s l).replay.length < replayCap (link s l).lanes → (link s l).ctl = m :: ms →
    sendLinkFrame l body s
      = newFrame l { kind := .control, msg := some (freshMsg (link s l) m) } 0 (setLink s l { link s l with ctl := ms }))
  ∧ (∀ (s : State) (l : LinkId) (body : Nat), (link s l).again = [] →
    (replayCap (link s l).lanes ≤ (link s l).replay.length ∨ ((link s l).ctl = [] ∧ underWay s l = none)) →
    sendLinkFrame l body s = putFrame l (ackOnlyFrame (link s l)) 0 s)

/-- Table 5-8, R144, R147, R154, R156, R221, R222, R242 and R284: a packet that arrives meets every step of the boundary applied (R50); a
control packet in transit that passes its checks enters the input of its link, with its whole cost reserved in its partition, toward the
output that its route gives; a packet whose hdr_crc fails, that a reserved kind of flit brought over a K1 link, or that is stomped, is
discarded without a FAIL, its units freed for return; a link out of service takes nothing. That the steps of a boundary apply with the
first command that comes after them is the model's choice (log 113). -/
def Obligations.FabricPacketArrives : Prop :=
  (∀ (s : State) (l : LinkId) (p : Packet) (ks : List (BitVec 3)),
    exec (.fabricPacketArrival l ⟨p, ks⟩) s = .next (fabricArrival l p ks (settled s)))
  ∧ (∀ s : State, s.tick.todo = [] → settled s = s)
  ∧ (∀ (s : State) (l : LinkId) (p p' : Packet) (o : PortId) (ks : List (BitVec 3)), (link s l).up = true →
    ((link s l).gen = 1 → ks.any flitReserved = false) → p.hdrCrc = hdrCrcOf p →
    edgeCheck s l = false → opOk p = true → pktAge s p ≤ ageLimit s → isData p = false →
    p.mcast = false → hopTransit p s = .go o p' → o.val < 96 → (tblGet {} s.counts.peep l.val).cfg = 0 →
    let t := fabricArrival l p ks s
    (∃ e, (inPort t (linkPort l)).queue = (inPort s (linkPort l)).queue ++ [e] ∧ e.pkt = p' ∧ e.out = o
        ∧ e.kind = .unicast ∧ e.units = pktUnits (link s l).gen p ∧ e.resPart = partOf p ∧ e.tick = s.tick.elapsed
        ∧ e.enter = s.tick.ns ∧ e.count = pktCells p' ∧ e.bad = false ∧ e.holdTo = 0 ∧ e.crossed = 0)
      ∧ (inPort t (linkPort l)).free = (inPort s (linkPort l)).free - pktUnits (link s l).gen p
      ∧ (link t l).part = (link (rxReserve l (partOf p) (pktUnits (link s l).gen p) s) l).part
      ∧ t = { s with core := t.core, links := t.links, counts := t.counts, route := t.route, attic := t.attic })
  ∧ (∀ (s : State) (l : LinkId) (p : Packet) (ks : List (BitVec 3)), (link s l).up = true →
    (p.hdrCrc ≠ hdrCrcOf p ∨ (isData p = true ∧ p.stomp = true)) → ((link s l).gen = 1 → ks.any flitReserved = false) →
    (tblGet {} s.counts.peep l.val).cfg = 0 →
    let t := fabricArrival l p ks s
    t.core = s.core ∧ t.links = (rxFree l (partOf p) (pktUnits (link s l).gen p)
          (rxReserve l (partOf p) (pktUnits (link s l).gen p) s)).links
      ∧ t = { s with links := t.links, counts := t.counts, attic := t.attic })
  ∧ (∀ (s : State) (l : LinkId) (p : Packet) (ks : List (BitVec 3)), (link s l).up = true → (link s l).gen = 1 →
    ks.any flitReserved = true → (tblGet {} s.counts.peep l.val).cfg = 0 →
    let t := fabricArrival l p ks s
    t.items.badFlit = s.items.badFlit + 1 ∧ t.links = (rxFree l (partOf p) (pktUnits (link s l).gen p)
          (rxReserve l (partOf p) (pktUnits (link s l).gen p) s)).links
      ∧ t = { s with links := t.links, counts := t.counts, attic := t.attic, items := { s.items with badFlit := t.items.badFlit } })
  ∧ (∀ (s : State) (l : LinkId) (p : Packet) (ks : List (BitVec 3)), (link s l).up = false →
    fabricArrival l p ks s = { s with counts := (fabricArrival l p ks s).counts, attic := (fabricArrival l p ks s).attic })

/-- R224: in transit a packet's valiant_phase becomes 1 at its via node and only there, and never returns to 0; a packet
with no via node keeps it; so none goes from partition 1 of its channel to partition 0; nothing else of the header
changes. The route generator's seed is not zero and no step of it gives zero. -/
def Obligations.ValiantPhaseAndGenerator : Prop :=
  (∀ (s : State) (p p' : Packet) (o : PortId), hopTransit p s = .go o p' →
    p' = { p with vphase := p'.vphase } ∧ (p.vphase = true → p'.vphase = true)
    ∧ (p.vphase = false → (p'.vphase = true ↔ p.via = myNode s ∧ p.via ≠ 0))
    ∧ (p.via = 0 → p'.vphase = p.vphase) ∧ p'.vc = p.vc ∧ (partOf p).val % 2 ≤ (partOf p').val % 2)
  ∧ (∀ (node : BitVec 12) (i : PortId), lfsrSeed node i ≠ 0)
  ∧ (∀ x : BitVec 16, x ≠ 0 → lfsrStep x ≠ 0)

/-- R240, R241, R244 and R255: in a slot, whose uncorrectable reads are free values (log 119), what waits is tried, loans are made, both stages cross, the Hawk works, every link port has its
slot and the queues are sampled; then the slot ends. Input i meets slice (i + slot) mod 128 and slice
m meets output (m + slot) mod 128; a cell crosses stage two only in a later slot than stage one; a unicast packet
starts only with credits for every cell of it, and the loans of an output stay within its shared share. R257 and R259: a unicast cell in
order joins its packet at the output and the stream's expected value advances; a whole packet passes to its egress queue, or at an internal
output to its function. R265: a sweep with no aged cell, or beyond slot 1,023, changes nothing; an aged cell that came in an earlier slot is
discarded, its place passed. R274, R275 and R276: pool j is audited in the ticks whose number mod 64 is j mod 64, by the sum latched at step
2; a mismatch counts, raises event 0x15 and starts a rebuild; its pass gives the free list every pointer that no queue holds, and a
packet whose pointer an older entry holds counts as bad. R336: a swap written is kept until the first
boundary at least 2 ticks later whose tick number has reached the pending base, a whole number of periods after it;
then the banks swap, or an invalid list is refused with swap_err and event 0x50. A clause of no effect (NoEffect),
where an event's condition does not hold, is the model's choice (log 1), and so is that the steps of a boundary apply with the first
command that comes after them (log 113). -/
def Obligations.CoreSlotOutputsPoolsAndGates : Prop :=
  ((∀ s : State, s.tick.slot < s.tick.len →
      let f := (slotFaults s).1
      let u := hawkRelease (hawkReturn (hawkServe f.hawk (hawkLand f.hawk (coreCross f.cells (collRetry (settled (slotFaults s).2))))))
      let v := allLinks.foldl portSlot (sampleDepths (depthOf u) u)
      exec .coreSlot s = .next { v with tick.slot := v.tick.slot + 1, tick.ns := v.tick.ns + 1 })
    ∧ (∀ s : State, s.tick.slot < s.tick.len → s.tick.todo = [] →
      Completes .coreSlot s fun t => t.tick = { s.tick with slot := s.tick.slot + 1, ns := s.tick.ns + 1 })
    ∧ (∀ s : State, s.tick.len ≤ s.tick.slot → NoEffect .coreSlot s)
    ∧ (∀ (s : State) (i : PortId) (m : Nat), m ≠ (i.val + s.tick.slot) % 128 →
      tblGet {} (stageOne s i).core.slice m = tblGet {} s.core.slice m)
    ∧ (∀ (s : State) (errs : List PortId) (m : PortId) (o : PortId), o.val ≠ (m.val + s.tick.slot) % 128 →
      (outPort (stageTwo errs s m) o).arriving = (outPort s o).arriving)
    ∧ (∀ (s : State) (c : Slice) (o : PortId) (e : SliceCell), pickOut s c o = some e → e ∈ c.cells ∧ e.enter < s.tick.ns
      ∧ o ∈ e.outs ∧ (e.cell.kind ≠ .unicast → tblGet 0 c.repl o.val < 2))
    ∧ (∀ (s : State) (i m : PortId) (e : InPkt), eligibleIn s i m e = true → e.kind = .unicast → e.crossed = 0 →
      e.count ≤ creditsFree (inPort s i) e.out)
    ∧ (∀ (s : State) (i m : PortId) (e : InPkt), eligibleIn s i m e = true → e.kind ≠ .contrib →
      ∀ o ∈ entryOuts s e, sliceQueued (midSlice s m) o < 16)
    ∧ (∀ (s : State) (i o : PortId), tblWf {} s.core.out = true → (outPort s o).lent ≤ 64 → (outPort (lendOne i s o) o).lent ≤ 64))
  ∧ ((∀ (s : State) (o : PortId), exec (.cellArriveOutput o) s = .next (cellArrive o s)
      ∧ exec (.cellAgeSweep o) s = .next (streamLosses (ageSweep o s))
      ∧ exec (.packetToEgressQueue o) s = .next (streamLosses (toQueue o s)))
    ∧ (∀ (s : State) (o : PortId) (c : Cell) (m : Nat) (rest : List (Cell × Nat)), (outPort s o).arriving = (c, m) :: rest →
      c.kind = .unicast → c.idx = 0 → c.bad = false → c.seq = tblGet 0 (outPort s o).exp (8 * c.src.val + c.pkt.vc.val) →
      cellAged s c = false → outDown s o = false → (outPort s o).held = [] → (outPort s o).dead = [] →
      (∀ q ∈ (outPort s o).pkts, q.bad = false) → s.core.lost = [] → tblWf {} s.core.out = true →
      tblWf 0 (outPort s o).exp = true →
      Completes (.cellArriveOutput o) s fun t =>
        (∃ q, (outPort t o).pkts = (outPort s o).pkts ++ [q] ∧ q.uid = c.uid ∧ q.pkt = c.pkt ∧ q.have_ = 1 ∧ q.count = c.count
          ∧ q.first = s.tick.ns ∧ q.passed = false)
        ∧ tblGet 0 (outPort t o).exp (8 * c.src.val + c.pkt.vc.val) = c.seq + 1 ∧ (outPort t o).arriving = rest
        ∧ t = { s with core := t.core })
    ∧ (∀ (s : State) (o : PortId), (outPort s o).arriving = [] → cellArrive o s = s)
    ∧ (∀ (s : State) (o : PortId), (1024 ≤ s.tick.slot
        ∨ lowestHeld s.tick.ns (tblGet 0 (outPort s o).exp s.tick.slot) s.tick.slot (outPort s o).held = none) → s.core.lost = [] →
      NoEffect (.cellAgeSweep o) s)
    ∧ (∀ (s : State) (o : PortId) (h : HeldCell), (outPort s o).held = [h] → (outPort s o).pkts = [] → (outPort s o).dead = [] →
      streamOf h.cell = s.tick.slot → s.tick.slot < 1024 → h.arrived < s.tick.ns → cellAged s h.cell = true →
      h.cell.seq ≠ tblGet 0 (outPort s o).exp s.tick.slot → h.cell.idx ≠ 0 → h.ghost = false → s.core.lost = [] →
      tblWf {} s.core.out = true → tblWf 0 (outPort s o).exp = true →
      Completes (.cellAgeSweep o) s fun t => (outPort t o).held = []
        ∧ tblGet 0 (outPort t o).exp s.tick.slot = h.cell.seq + 1 ∧ t.larder = s.larder)
    ∧ (∀ (s : State) (o : PortId) (q : OutPkt), 96 ≤ o.val → (outPort s o).pkts = [q] → q.kind = .unicast → q.have_ = q.count →
      q.passed = false → neverAsked q.pkt.opcode = false → s.core.lost = [] → tblWf {} s.core.out = true →
      Completes (.packetToEgressQueue o) s fun t => t.core.delivered = s.core.delivered ++ [(o, q.pkt)]
        ∧ (outPort t o).pkts = [] ∧ t = { s with core := t.core, counts := t.counts })
    ∧ (∀ (s : State) (o : PortId) (l : LinkId) (q : OutPkt), o = linkPort l → ethMode s l.val = false →
      (outPort s o).pkts = [q] → q.kind = .unicast → q.ref = .none → q.have_ = q.count → q.passed = false →
      genCarries (link s l).gen q.pkt.opcode = true → q.pkt.payLen.toNat ≤ genMax (link s l).gen →
      markCells s o q.pkt.vc.val = 0 → s.core.lost = [] →
      Completes (.packetToEgressQueue o) s fun t => (outPort t o).pkts = [{ q with passed := true }]
        ∧ t = { s with core := t.core })
    ∧ (∀ (s : State) (o : PortId), nextToPass s o = none → s.core.lost = [] → NoEffect (.packetToEgressQueue o) s))
  ∧ ((∀ (s : State) (j : Fin 512) (x ref sum : Nat) (wrong : Bool), poolSum s j.val = some (x, ref) →
      s.core.latched.find? (fun y => y.1 = j.val) = some (j.val, sum, wrong) → (sum ≠ ref ∨ wrong = true) → s.tick.slot = 0 →
      s.tick.phase ≤ 6 → hits s 64 j.val = true →
      Completes (.poolAudit j) s fun t =>
        t.core = { s.core with rebuild := s.core.rebuild ++ [(j.val, s.tick.ns + rebuildSlots j.val)] }
        ∧ (∃ e, t.counts.sideband = s.counts.sideband ++ [e] ∧ e.code = 0x15 ∧ e.unit = BitVec.ofNat 16 j.val
          ∧ e.detail = BitVec.ofNat 128 (2 + (((sum : Int) - ref) % 4294967296).toNat * 65536))
        ∧ HostOnly { s with core := t.core } t)
    ∧ (∀ (s : State) (j : Fin 512), (384 ≤ j.val ∨ hits s 64 j.val = false ∨ s.tick.slot ≠ 0 ∨ 6 < s.tick.phase) →
      NoEffect (.poolAudit j) s)
    ∧ (∀ (s : State) (j : Fin 512) (x ref : Nat), poolSum s j.val = some (x, ref) →
      s.core.latched.find? (fun y => y.1 = j.val) = some (j.val, ref, false) → NoEffect (.poolAudit j) s)
    ∧ (∀ (s : State) (j : Fin 512) (k : Nat), s.core.rebuild.find? (fun r => r.1 = j.val) = some (j.val, k) → k ≤ s.tick.ns →
      exec (.poolRebuildDone j) s
        = .next (rebuildPool j.val { s with core.rebuild := s.core.rebuild.filter (fun x => x.1 ≠ j.val) }))
    ∧ (∀ (s : State) (j : Nat), j < 128 → tblWf {} s.core.inp = true →
      (inPort s (portOf j)).queue.foldl (fun n e => n + (e.units - e.freed)) 0 ≤ 16384 →
      let t := rebuildPool j s
      poolSum t j = some (16384, 16384) ∧ t = { s with core := t.core }
        ∧ (inPort t (portOf j)).queue = (inPort s (portOf j)).queue.map (fun e =>
            { e with units := e.units - e.shared, bad := e.bad || decide (e.shared ≠ 0), shared := 0 }))
    ∧ (∀ (s : State) (j : Nat), 128 ≤ j → j < 256 → tblWf {} s.core.slice = true →
      ((midSlice s (portOf j)).cells.filter (fun x => x.cell.kind ≠ .result && x.owns)).length ≤ 2048 →
      let t := rebuildPool j s
      poolSum t j = some (2048, 2048) ∧ refsWrong t j = false ∧ t = { s with core := t.core }
        ∧ ∀ x ∈ (midSlice s (portOf j)).cells, x.shared = true → ∃ y ∈ (midSlice t (portOf j)).cells,
            y.cell.uid = x.cell.uid ∧ y.cell.idx = x.cell.idx ∧ y.cell.bad = true ∧ y.owns = false)
    ∧ (∀ (s : State) (j sum : Nat), 256 ≤ j → j < 384 → tblWf {} s.core.out = true → poolSum s j = some (sum, 1024) →
      sum - (outPort s (portOf j)).free ≤ 1024 →
      poolSum (rebuildPool j s) j = some (1024, 1024) ∧ rebuildPool j s = { s with core := (rebuildPool j s).core })
    ∧ (∀ (s : State) (j : Fin 512), (∀ r ∈ s.core.rebuild, r.1 = j.val → s.tick.ns < r.2) → NoEffect (.poolRebuildDone j) s))
  ∧ ((∀ (s : State) (l : LinkId), (tmOf s l).swap = none →
      exec (.swapReq l) s = .next (setTm s l { tmOf s l with swap := some s.tick.elapsed }))
    ∧ (∀ (s : State) (l : LinkId), (tmOf s l).swap.isSome = true → NoEffect (.swapReq l) s)
    ∧ (∀ (s : State) (l : LinkId), exec (.gateBankSwap l) s = .next (gateBankSwap l (runInner 7 s))
      ∧ (s.tick.todo = [] → runInner 7 s = s))
    ∧ (∀ (s : State) (l : LinkId) (w : BitVec 48), (tmOf s l).swap = some w → s.tick.slot = 0 → s.tick.phase ≤ 8 →
      2 ≤ ageOf s w → later (pendBase s l) (nowTick s) = false → (nowTick s - pendBase s l).toNat % pendPeriod s l < tickSpan s →
      gateFault (pendPeriod s l) (gateList s l (!(tmOf s l).bank) (pendCount s l)) = none →
      gateBankSwap l s = setPhase 8 (setTm s l { tmOf s l with
        swap := none, bank := !(tmOf s l).bank, period := pendPeriod s l, count := pendCount s l, base := pendBase s l,
        pos := (nowTick s - pendBase s l).toNat % pendPeriod s l }))
    ∧ (∀ (s : State) (l : LinkId) (w : BitVec 48) (i : Nat), (tmOf s l).swap = some w → s.tick.slot = 0 → s.tick.phase ≤ 8 →
      2 ≤ ageOf s w → later (pendBase s l) (nowTick s) = false → (nowTick s - pendBase s l).toNat % pendPeriod s l < tickSpan s →
      gateFault (pendPeriod s l) (gateList s l (!(tmOf s l).bank) (pendCount s l)) = some i →
      let t := gateBankSwap l s
      t.tm = (setTm s l { tmOf s l with swap := none, swapErr := true }).tm
        ∧ (∃ e, t.counts.sideband = s.counts.sideband ++ [e] ∧ e.code = 0x50 ∧ e.unit = BitVec.ofNat 16 l.val
          ∧ e.detail = BitVec.ofNat 128 i)
        ∧ HostOnly { s with tm := t.tm, tick := { s.tick with phase := 8 } } t)
    ∧ (∀ (s : State) (l : LinkId), ((tmOf s l).swap = none ∨ (∃ w, (tmOf s l).swap = some w ∧ ageOf s w < 2)
        ∨ later (pendBase s l) (nowTick s) = true ∨ tickSpan s ≤ (nowTick s - pendBase s l).toNat % pendPeriod s l) →
      gateBankSwap l s = s))

/-- R195, R220, R261, R325 and R327: on a fabric port queue 7 goes before all others, a queue is picked only where it is eligible, and a
start takes the packet's whole cost from its partition and puts it under way; its bytes go into the frames as they are in, and where the
next ones are missing an ack-only frame goes and one underrun is counted; the packet ends when the frame time of its last byte has passed
that byte, and leaves its cells. An Ethernet port starts and ends frames instead. A clause of no effect (NoEffect), where an event's
condition does not hold, is the model's choice (log 1). -/
def Obligations.PacketStartsAndLastByte : Prop :=
  ((∀ (s : State) (l : LinkId), ethMode s l.val = false → exec (.packetStart l) s = .next (packetStart l (settled s)))
    ∧ (∀ (s : State) (p : Fin 16), ethMode s (80 + p.val) = true →
      exec (.packetStart ⟨80 + p.val, by omega⟩) s = .next (ethStart p (settled s)))
    ∧ (∀ (s : State) (l : LinkId), ((link s l).tx.isSome = true ∨ (link s l).up = false ∨ (link s l).retrain = true) → packetStart l s = s)
    ∧ (∀ (s : State) (l : LinkId) (v : Nat) (g : Tm) (q : OutPkt), (link s l).tx = none → (link s l).up = true → (link s l).retrain = false →
      let c := fun v => match headOf s l v with
        | some x => portCharge s l x.pkt
        | none => 0
      selectQueue (eligible s l) c (quantum s l) (tmOf s l) = some (v, g) → headOf s l v = some q →
      packetStart l s = startOn l v q (setTm (countGuard l s) l (chargeStart s l v (c v)
        (!(outPort s (linkPort l)).pkts.any (fun x => x.passed && !x.started && x.pkt.vc.val = v && x.uid ≠ q.uid)) g)))
    ∧ (∀ (el : Nat → Bool) (c quant : Nat → Nat) (g g' : Tm) (v : Nat), selectQueue el c quant g = some (v, g') →
      el v = true ∧ (el 7 = true → v = 7) ∧ g' = { g with cur := g'.cur, deficit := g'.deficit })
    ∧ (∀ (s : State) (l : LinkId) (v : Nat) (q : OutPkt), (link s l).up = true → tblWf {} (link s l).part = true →
      let t := startOn l v q s
      (∃ x, (link t l).tx = some x ∧ x.uid = q.uid ∧ x.start = s.tick.ns ∧ x.queue = q.pkt.vc)
      ∧ (part t l (partOf q.pkt)).held = (part s l (partOf q.pkt)).held - pktUnits (link s l).gen q.pkt
      ∧ (part t l (partOf q.pkt)).sent = (part s l (partOf q.pkt)).sent + BitVec.ofNat 32 (pktUnits (link s l).gen q.pkt)
      ∧ (∀ p, p ≠ partOf q.pkt → part t l p = part s l p)
      ∧ ((outPort s (linkPort l)).pkts ≠ [] → (outPort t (linkPort l)).pkts
          = (outPort s (linkPort l)).pkts.map (fun y => if y.uid = q.uid then { y with started := true } else y))
      ∧ t.core.inp = s.core.inp ∧ t.core.slice = s.core.slice)
    ∧ (∀ (s : State) (l : LinkId) (q : OutPkt), eligible s l 7 = true → headOf s l 7 = some q → creditsOk s l q.pkt = true
      ∧ pktUnits (link s l).gen q.pkt ≤ (part s l (partOf q.pkt)).held))
  ∧ ((∀ (g : BitVec 2) (q : OutPkt) (pos room n : Nat), fits g q pos room = some n ↔
      n = min (pktCharge g q.pkt - pos) room ∧ pos + n ≤ bytesReady g q)
    ∧ (∀ (s : State) (l : LinkId) (body : Nat) (q : OutPkt) (x : TxNow), fits (link s l).gen q x.pos body = none → x.underran = false →
      dataFrame l body q x s = putFrame l (ackOnlyFrame (link s l)) 0
        (setLink (bump l.val (24 * x.queue.val + 12) 1 s) l { link s l with tx := some { x with underran := true } }))
    ∧ (∀ (s : State) (l : LinkId) (body : Nat) (q : OutPkt) (x : TxNow), fits (link s l).gen q x.pos body = none → x.underran = true →
      dataFrame l body q x s = putFrame l (ackOnlyFrame (link s l)) 0 (setLink s l { link s l with tx := some x }))
    ∧ (∀ (s : State) (l : LinkId) (body n : Nat) (q : OutPkt) (x : TxNow), fits (link s l).gen q x.pos body = some n →
      let t := dataFrame l body q x s
      (∃ y f, (link t l).tx = some y ∧ y.uid = x.uid ∧ y.pos = x.pos + n ∧ y.underran = false ∧ (link t l).sent = some f
        ∧ f.pieces = [⟨sentPkt q, x.pos, n⟩] ∧ f.kind = .data ∧ (link t l).replay = (link s l).replay ++ [f])
      ∧ t = { s with links := t.links }))
  ∧ ((∀ (s : State) (l : LinkId), ethMode s l.val = false → exec (.lastByteLeaves l) s = .next (lastByte l s))
    ∧ (∀ (s : State) (p : Fin 16), ethMode s (80 + p.val) = true → exec (.lastByteLeaves ⟨80 + p.val, by omega⟩) s = .next (ethLast p s))
    ∧ (∀ (s : State) (l : LinkId) (x : TxNow) (q : OutPkt), (link s l).tx = some x →
      (outPort s (linkPort l)).pkts.find? (fun y => y.uid = x.uid) = some q → pktCharge (link s l).gen q.pkt ≤ x.pos → x.leaves ≤ s.tick.ns →
      q.cut = false → (∀ c, x.closing = some c → s.tick.ns ≤ c) →
      lastByte l s = delivered (linkPort l) q (freePkt (linkPort l) q (setLink s l { link s l with tx := none })))
    ∧ (∀ (s : State) (l : LinkId) (x : TxNow) (q : OutPkt), (link s l).up = true → (link s l).tx = some x →
      (outPort s (linkPort l)).pkts.find? (fun y => y.uid = x.uid) = some q → pktCharge (link s l).gen q.pkt ≤ x.pos → x.leaves ≤ s.tick.ns →
      q.ref = .none → q.kind = .unicast →
      let t := lastByte l s
      (link t l).tx = none ∧ (tblWf {} s.core.out = true → ∀ y ∈ (outPort t (linkPort l)).pkts, y.uid ≠ q.uid)
        ∧ t = { s with core := t.core, links := t.links, counts := t.counts })
    ∧ (∀ (s : State) (l : LinkId) (x : TxNow) (q : OutPkt), ethMode s l.val = false → (link s l).tx = some x →
      (outPort s (linkPort l)).pkts.find? (fun y => y.uid = x.uid) = some q →
      (x.pos < pktCharge (link s l).gen q.pkt ∨ s.tick.ns < x.leaves) → NoEffect (.lastByteLeaves l) s)
    ∧ (∀ (s : State) (l : LinkId), ethMode s l.val = false → (link s l).tx = none → NoEffect (.lastByteLeaves l) s))

/-- R329, R330, R331, R343 and R348: step 7 never fills a bucket beyond its burst, a start never takes more than a shaper
holds, and a metered packet takes exactly its charged length from the buckets its colour names. -/
def Obligations.BucketsStayWithinBursts : Prop :=
  (∀ (en : Bool) (tok rate burst largest : Nat), refillBucket en tok rate burst largest ≤ max burst largest * 256
    ∧ (tok ≤ max burst largest * 256 → tok ≤ refillBucket en tok rate burst largest)
    ∧ refillBucket false tok rate burst largest ≤ tok)
  ∧ (∀ (s : State) (i : Nat) (m : Meter), (refillMeter s i m).tc ≤ fld (reg s .tmMeter i 0 2) 0 24 * 256
    ∧ (refillMeter s i m).te ≤ fld (reg s .tmMeter i 0 2) 32 24 * 256)
  ∧ (∀ (s : State) (l : LinkId) (v c : Nat) (last : Bool), shapersOk s l v c = true → shapeEn s l v = true →
    tblWf 0 (tmOf s l).tokens = true →
    tblGet 0 (chargeStart s l v c last (tmOf s l)).tokens v + c * 256 = tblGet 0 (tmOf s l).tokens v)
  ∧ (∀ (mode : Nat) (yellow : Bool) (c : Nat) (m : Meter),
    let r := meterDecide mode yellow c m
    (r.1 = .red → r.2 = m) ∧ r.2.tc ≤ m.tc ∧ r.2.te ≤ m.te
    ∧ (mode = 1 → r.1 ≠ .red → r.2.tc + r.2.te + c * 256 = m.tc + m.te)
    ∧ (mode = 2 → r.1 = .yellow → r.2.te + c * 256 = m.te ∧ r.2.tc = m.tc)
    ∧ (mode = 2 → r.1 = .green → r.2.te + c * 256 = m.te ∧ r.2.tc + c * 256 = m.tc)
    ∧ (yellow = true → mode = 1 ∨ mode = 2 → r.1 ≠ .green))

/-- R299, R308, R310, R311, R295, R307 and R312: the coat descriptors. COAT_LOAD opens the staging area for its coat and
reads its bundle, and never names a held coat; COAT_SWITCH waits for its boundary, and a coat that is not the staging
area's ends with 0x11; COAT_ABORT closes the staging area and ends what waited for it; COAT_QUERY reads; EXCL_CLEAR
empties the exclusion list. R299: step 5 of a boundary writes at most 512 staged entries, in the bundle's order, and
the rest waits; R310: a load whose entries are all written and whose frames are all owned sets base and clear_excl and
completes. R296, R301 and R310: at step 4 a switch that is due, whose loads are complete and for which no undercoat
stands, makes the staging area the topcoat and the topcoat the undercoat at once; while an undercoat stands or a load
is open the topcoat stays. R304, R305, R390, R391 and R306: the undercoat retires at step 4, not before its last
packet is old and no work admitted under it is open; then its translations are gone and a frame that no held coat maps
belongs to nobody. An ordered packet held after a switch may cross once its wait is over, and no other field of the
queues changes. R393, R397: a frame whose fill is done reads zero, and no byte outside it changes; R318, R319: an
outcome record not touched for age_limit + 8 ticks closes at a boundary, and other records stay. R54: a load whose entries exceed the 512 keeps its place for the next
boundary and counts one overrun. A clause of no effect (NoEffect), where an event's condition does not hold, is the model's choice
(log 1). -/
def Obligations.CoatsStagedSwitchedRetired : Prop :=
  ((∀ (s : State) (d : DRef) (f : InFlight), Startable s d 0x50 f →
      let g := s.route.staging.getD { num := dCoat f }
      let len := fld f.desc 256 32
      coatHeld s (dCoat f) = false → g.num = dCoat f → 64 ≤ len → len ≤ 1048576 →
      exec (.coatLoad d) s = .next (hostRead (.obj d 0) (dWord f.desc 24) len (addWaits d 1 { started d s with
        route.staging := some { g with loads := g.loads ++ [{ d := d, base := bit f.desc 292, clr := bit f.desc 293, due := 0 }] } })))
    ∧ (∀ (s : State) (d : DRef) (f : InFlight), Startable s d 0x50 f → s.route.staging = none → coatHeld s (dCoat f) = false →
      64 ≤ fld f.desc 256 32 → fld f.desc 256 32 ≤ 1048576 →
      Completes (.coatLoad d) s fun t => (∃ g l, t.route.staging = some g ∧ g.num = dCoat f ∧ g.loads = [l] ∧ g.written = []
          ∧ l.d = d ∧ l.base = bit f.desc 292 ∧ l.clr = bit f.desc 293)
        ∧ t = { s with enz := t.enz, rings := t.rings, route := { s.route with staging := t.route.staging } })
    ∧ (∀ (s : State) (d : DRef) (f : InFlight), Startable s d 0x50 f → (coatHeld s (dCoat f) = true
        ∨ (∃ g, s.route.staging = some g ∧ g.num ≠ dCoat f) ∨ fld f.desc 256 32 < 64 ∨ 1048576 < fld f.desc 256 32) →
      exec (.coatLoad d) s = .next (complete d stBad 0 (started d s)))
    ∧ (∀ (s : State) (d : DRef) (f : InFlight) (g : Staging), Startable s d 0x51 f → s.route.staging = some g →
      g.num = dCoat f →
      exec (.coatSwitch d) s = .next { addWaits d 1 (started d s) with
        route.switches := s.route.switches ++ [⟨d, dCoat f, prepDue s⟩] })
    ∧ (∀ (s : State) (d : DRef) (f : InFlight), Startable s d 0x51 f →
      (s.route.staging = none ∨ ∃ g, s.route.staging = some g ∧ g.num ≠ dCoat f) →
      exec (.coatSwitch d) s = .next (complete d 0x11 0 (started d s)))
    ∧ (∀ (s : State) (d : DRef) (f : InFlight), Startable s d 0x52 f → s.route.staging = none →
      exec (.coatAbort d) s = .next (complete d stOk 0 (started d s)))
    ∧ (∀ (s : State) (d : DRef) (f : InFlight) (g : Staging), Startable s d 0x52 f → s.route.staging = some g →
      Completes (.coatAbort d) s fun t => t.route = { s.route with
          staging := none, switches := s.route.switches.filter (fun w => w.coat ≠ g.num) }
        ∧ flightOf t d = none ∧ (∀ l ∈ g.loads, flightOf t l.d = none)
        ∧ (∀ w ∈ s.route.switches, w.coat = g.num → flightOf t w.d = none) ∧ t.larder.mem = s.larder.mem
        ∧ HostOnly { s with route := t.route, larder := t.larder } t)
    ∧ (∀ (s : State) (d : DRef) (f : InFlight), Startable s d 0x53 f →
      exec (.coatQuery d) s = .next (complete d stOk (coatWord s) (started d s)))
    ∧ (∀ (s : State) (d : DRef) (f : InFlight), Startable s d 0x54 f →
      exec (.exclClear d) s = .next (complete d stOk (BitVec.ofNat 64 s.route.excl.length) { started d s with route.excl := [] })
        ∧ Completes (.exclClear d) s fun t => t.route.excl = [] ∧ flightOf t d = none
          ∧ HostOnly { s with route := { s.route with excl := [] } } t))
  ∧ ((∀ (s : State) (g : Staging), s.tick.slot = 0 → s.tick.phase ≤ 5 → s.route.staging = some g →
      exec .coatStagingWrite s = .next ((loadOrder g.loads).foldl (fun r l => writeLoad l r.1 r.2)
        (512, modStaging (fun x => { x with loads := loadOrder g.loads }) (setPhase 6 s))).2)
    ∧ (∀ (s : State) (g : Staging) (l : CoatLoad) (f : InFlight), s.tick.slot = 0 → s.tick.phase ≤ 5 →
      s.route.staging = some g → g.loads = [l] → l.ready = true → flightOf s l.d = some f → workDue s l.d l.due = true →
      dExact f.desc = false → 512 < l.todo.length →
      Completes .coatStagingWrite s fun t =>
        t.route.staging = some { g with written := (l.todo.take 512).reverse ++ g.written,
                                        loads := [{ l with todo := l.todo.drop 512, carried := true }] }
        ∧ t.counts = (bumpModule 6 s).counts
        ∧ t = { s with route := { s.route with staging := t.route.staging }, counts := t.counts, tick := { s.tick with phase := 6 } })
    ∧ (∀ (s : State) (g : Staging) (l : CoatLoad) (f : InFlight), s.tick.slot = 0 → s.tick.phase ≤ 5 →
      s.route.staging = some g → g.loads = [l] → l.ready = true → flightOf s l.d = some f → workDue s l.d l.due = true →
      dExact f.desc = false → l.todo ≠ [] → l.todo.length ≤ 512 →
      (∀ e ∈ mappedFrames (stagedCoat s { g with written := l.todo.reverse ++ g.written } l.base),
        (tblGet none s.larder.owner e.1).isSome = true) →
      Completes .coatStagingWrite s fun t =>
        t.route.staging = some { g with written := l.todo.reverse ++ g.written, loads := [], base := l.base, clr := l.clr }
        ∧ flightOf t l.d = none ∧ t.route.top = s.route.top ∧ t.larder = s.larder)
    ∧ (∀ s : State, (s.tick.slot ≠ 0 ∨ 5 < s.tick.phase ∨ s.route.staging = none) → NoEffect .coatStagingWrite s)
    ∧ (∀ (ls : List CoatLoad) (l : CoatLoad), l ∈ loadOrder ls ↔ l ∈ ls))
  ∧ ((∀ (s : State) (g : Staging), s.tick.slot = 0 → s.tick.phase ≤ 4 → s.route.staging = some g → g.loads = [] →
      s.route.under = none → s.route.switches.filter (fun w => workDue s w.d w.due) ≠ [] →
      (∀ w ∈ s.route.switches, ∀ f, flightOf s w.d = some f → missedTick s f = false) →
      stagedOk s (stagedCoat s g g.base) = true →
      exec .coatSwitchApply s = .next (switchNow g (setPhase 5 s)))
    ∧ (∀ (s : State) (g : Staging), let t := switchNow g s
      t.route = { s.route with
          top := stagedCoat s g g.base, under := some s.route.top, lastUnder := s.tick.elapsed - 1, switched := some s.tick.elapsed,
          staging := none, switches := s.route.switches.filter (fun w => w.coat ≠ g.num), excl := if g.clr then [] else s.route.excl }
        ∧ t.route.top.num = g.num
        ∧ (∀ f ∈ s.rings.flight, dOpcode f.desc = 0x51 → dCoat f = g.num → flightOf t f.ref = none)
        ∧ HostOnly { s with route := t.route } t)
    ∧ (∀ s : State, s.tick.slot = 0 → s.tick.phase ≤ 4 → s.route.staging = none →
      s.route.switches.filter (fun w => workDue s w.d w.due) ≠ [] →
      exec .coatSwitchApply s = .next ((s.route.switches.filter (fun w => workDue s w.d w.due)).foldl
        (fun s w => complete w.d stStaleCoat 0 s)
        (setPhase 5 { s with route.switches := s.route.switches.filter (fun w => !workDue s w.d w.due) })))
    ∧ (∀ s : State, s.route.under.isSome = true →
      Completes .coatSwitchApply s fun t => t.route.top = s.route.top ∧ t.route.under = s.route.under
        ∧ t.route.staging = s.route.staging)
    ∧ (∀ (s : State) (g : Staging), s.route.staging = some g → g.loads ≠ [] →
      Completes .coatSwitchApply s fun t => t.route.top = s.route.top ∧ t.route.under = s.route.under)
    ∧ (∀ s : State, (s.tick.slot ≠ 0 ∨ 4 < s.tick.phase ∨ s.route.switches.filter (fun w => workDue s w.d w.due) = []) →
      NoEffect .coatSwitchApply s))
  ∧ ((∀ (s : State) (u : Coat), s.route.under = some u → s.tick.slot = 0 → s.tick.phase ≤ 4 →
      retireAge s + 2 ≤ ageOf s s.route.lastUnder → coatBusy s u.num = false →
      Completes .undercoatRetire s fun t => t.route = { s.route with under := none }
        ∧ t.larder.cache = s.larder.cache.filter (fun e => e.1 ≠ u.num)
        ∧ (s.route.staging = none → ∀ fr, (∀ e ∈ mappedFrames s.route.top, e.1 ≠ fr) → tblGet none t.larder.owner fr = none)
        ∧ t.larder.mem = s.larder.mem
        ∧ t = { s with route := t.route, larder := t.larder, tick := { s.tick with phase := 4 } })
    ∧ (∀ (s : State) (u : Coat), s.route.under = some u →
      (ageOf s s.route.lastUnder < retireAge s + 2 ∨ coatBusy s u.num = true ∨ s.tick.slot ≠ 0) → NoEffect .undercoatRetire s)
    ∧ (∀ s : State, s.route.under = none → NoEffect .undercoatRetire s)
    ∧ (∀ s : State, s.tick.slot = 0 → tblWf {} s.core.inp = true →
      Completes .orderedHoldRelease s fun t => (∀ i : PortId, inPort t i = { inPort s i with
          queue := (inPort s i).queue.map (fun q => if reached s q.holdTo then { q with holdTo := 0 } else q) })
        ∧ t = { s with core := { s.core with inp := t.core.inp } })
    ∧ (∀ s : State, s.tick.slot ≠ 0 → NoEffect .orderedHoldRelease s))
  ∧ ((∀ (s : State) (fr : BitVec 20), s.larder.fills.any (fun x => x.frame = fr.toNat && fillEnded x) = true → s.route.staging = none →
      Completes (.frameFillDone fr) s fun t =>
        (∀ a, fr.toNat * 0x200000 ≤ a → a < (fr.toNat + 1) * 0x200000 → tblGet 0 t.larder.mem a = 0)
        ∧ (∀ a, a < fr.toNat * 0x200000 ∨ (fr.toNat + 1) * 0x200000 ≤ a → tblGet 0 t.larder.mem a = tblGet 0 s.larder.mem a)
        ∧ t.larder.fills = s.larder.fills.filter (fun x => x.frame ≠ fr.toNat) ∧ (s.larder.memWf = true → t.larder.memWf = true)
        ∧ t = { s with larder := t.larder })
    ∧ (∀ (s : State) (fr : BitVec 20) (g : Staging), s.larder.fills.any (fun x => x.frame = fr.toNat && fillEnded x) = true →
      s.route.staging = some g →
      Completes (.frameFillDone fr) s fun t =>
        t.larder = (zeroFrame fr.toNat { s with larder.fills := s.larder.fills.filter (fun x => x.frame ≠ fr.toNat) }).larder
        ∧ (∀ l ∈ g.loads, l.ready = true → l.todo = [] → l.fills = [fr.toNat] → flightOf t l.d = none)
        ∧ t.route.top = s.route.top ∧ t.route.under = s.route.under)
    ∧ (∀ (s : State) (fr : BitVec 20), s.larder.fills.any (fun x => x.frame = fr.toNat && fillEnded x) = false →
      NoEffect (.frameFillDone fr) s)
    ∧ (∀ (s : State) (src : BitVec 12) (tag : BitVec 16) (r : Outcome),
      s.route.records.find? (fun r => r.src = src && r.tag = tag) = some r → s.tick.slot = 0 →
      ageLimit s + 8 ≤ ageOf s r.last →
      exec (.mcOutcomeRecordTimeout src tag) s = .next (closeRecord { r with outs := r.outs.map (fun o =>
        if o.ok + o.bad < r.itemLen then
          { o with bad := r.itemLen - o.ok, status := if o.status ≠ 0 then o.status else stAged } else o) } s)
      ∧ Completes (.mcOutcomeRecordTimeout src tag) s fun t =>
        t.route.records = s.route.records.filter (fun x => x.src ≠ src || x.tag ≠ tag) ∧ t.larder = s.larder)
    ∧ (∀ (s : State) (src : BitVec 12) (tag : BitVec 16),
      (s.tick.slot ≠ 0 ∨ ∀ r ∈ s.route.records, r.src = src → r.tag = tag → ageOf s r.last < ageLimit s + 8) →
      NoEffect (.mcOutcomeRecordTimeout src tag) s))

/-- R185, R385, R401, R402, R407, R413 and R174, Table 5-6: a memory request that a check refuses draws its refusal; a WR that opens an item
waits while every tracking entry is in use; a request for the Larder that its stacks cannot take at once waits at its stack's controller.
A WR whose checks pass stores its payload in the bytes that its window gives, reads
back, and leaves every other byte of both memories as it was; a WR that a check refuses stores nothing. R385 and R166:
an RD_REQ that its checks admit answers with RD_DATA: one packet with the bytes of the memory when the range lies in
one piece of 4,096 bytes. No request to read changes a byte of either memory. That a packet of another opcode has no effect under a
row (NoEffect) is the model's choice (log 1). -/
def Obligations.WritesStoreReadsAnswer : Prop :=
  ((∀ (s : State) (p : Packet), (p.opcode = 0x01 → exec (.rdReq p) s = .next (memRequest p s))
      ∧ (p.opcode = 0x02 → exec (.wr p) s = .next (memRequest p s))
      ∧ (p.opcode ≠ 0x01 → NoEffect (.rdReq p) s) ∧ (p.opcode ≠ 0x02 → NoEffect (.wr p) s))
    ∧ (∀ (s : State) (p : Packet) (st : BitVec 8), s.attic.draining = false → (p.opcode = 0x02 → p.mcast = false → trackRoom s p = true) →
      checkRequest s p = .fail st → memRequest p s = refuse st p (takeDelivered p s))
    ∧ (∀ (s : State) (p : Packet), s.attic.draining = true → p.src ≠ myNode s →
      (∀ x ∈ s.items.track, x.src = p.src → x.tag = p.tag → p.opcode ≠ 0x02) →
      memRequest p s = refuse stDrained p (takeDelivered p s))
    ∧ (∀ (s : State) (p : Packet), s.attic.draining = false → p.opcode = 0x02 → p.mcast = false → trackRoom s p = false →
      memRequest p s = s)
    ∧ (∀ (s : State) (r : LarderReq), (tblGet [] s.larder.waiting r.i ≠ [] ∨ s.larder.fills ≠ [] ∨ mayServe s r = false) →
      offer s r = { s with larder.waiting := tblSet [] s.larder.waiting r.i (tblGet [] s.larder.waiting r.i ++ [r]) })
    ∧ (∀ (s : State) (r : LarderReq), tblGet [] s.larder.waiting r.i = [] → s.larder.fills = [] → mayServe s r = true →
      offer s r = perform r (noteTaken r s)))
  ∧ ((∀ (s : State) (p : Packet) (b : Nat), p.opcode = 0x02 → p.mcast = false → trackRoom s p = true →
      ServedAtOnce s p (.larder [(b, p.payload.length)]) →
      checkPacket s p p.payLen.toNat .wr = .ok (.larder [(b, p.payload.length)]) → s.larder.badWord = [] →
      s.larder.memWf = true →
      Completes (.wr p) s fun t => memRead t.larder.mem b p.payload.length = p.payload
        ∧ (∀ a, a < b ∨ b + p.payload.length ≤ a → tblGet 0 t.larder.mem a = tblGet 0 s.larder.mem a)
        ∧ (∃ x, t = countWrite (placePort (.larder [(b, p.payload.length)])) p x ∧ x.items = s.items)
        ∧ t.larder.memWf = true ∧ t.work = s.work ∧ t.regs = s.regs)
    ∧ (∀ (s : State) (p : Packet) (b : Nat), p.opcode = 0x02 → p.mcast = false → trackRoom s p = true → ServedAtOnce s p (.array b) →
      checkPacket s p p.payLen.toNat .wr = .ok (.array b) → s.work.badWord = [] → s.work.memWf = true →
      Completes (.wr p) s fun t => memRead t.work.mem b p.payload.length = p.payload
        ∧ (∀ a, a < b ∨ b + p.payload.length ≤ a → tblGet 0 t.work.mem a = tblGet 0 s.work.mem a)
        ∧ (∃ x, t = countWrite (placePort (.array b)) p x ∧ x.items = s.items)
        ∧ t.work.memWf = true ∧ t.larder.mem = s.larder.mem ∧ t.regs = s.regs)
    ∧ (∀ (s : State) (port : PortId) (p : Packet), s.items.track.find? (fun x => x.src = p.src && x.tag = p.tag) = none →
      (p.payLen.toNat = p.itemLen.toNat → countWrite port p s = inject port { answerTo s 0x82 p with itemLen := 0, ecnEcho := p.ecnCe } s)
      ∧ (p.payLen.toNat ≠ p.itemLen.toNat → countWrite port p s = { s with items.track := s.items.track
          ++ [{ src := p.src, tag := p.tag, got := p.payLen.toNat, len := p.itemLen.toNat, last := s.tick.elapsed, echo := p.ecnCe }] }))
    ∧ (∀ (s : State) (p : Packet) (st : BitVec 8), p.opcode = 0x02 → checkPacket s p p.payLen.toNat .wr = .fail st →
      Completes (.wr p) s fun t => t.larder.mem = s.larder.mem ∧ t.work.mem = s.work.mem ∧ t.regs = s.regs))
  ∧ ((∀ (s : State) (p : Packet) (b : Nat), p.opcode = 0x01 → ServedAtOnce s p (.array b) → 0 < p.itemLen.toNat →
      p.addr.toNat % 4096 + p.itemLen.toNat ≤ 4096 → checkPacket s p p.itemLen.toNat .rd = .ok (.array b) → s.work.badWord = [] →
      exec (.rdReq p) s = .next (inject (placePort (.array b)) (withPayload (memRead s.work.mem b p.itemLen.toNat)
        { answerTo s 0x81 p with addr := p.addr, itemLen := p.itemLen, last := true }) (takeDelivered p s)))
    ∧ (∀ (s : State) (p : Packet) (b : Nat), p.opcode = 0x01 → ServedAtOnce s p (.larder [(b, p.itemLen.toNat)]) → 0 < p.itemLen.toNat →
      p.addr.toNat % 4096 + p.itemLen.toNat ≤ 4096 → checkPacket s p p.itemLen.toNat .rd = .ok (.larder [(b, p.itemLen.toNat)]) →
      s.larder.badWord = [] →
      Completes (.rdReq p) s fun t => ∃ x, x.larder.mem = s.larder.mem ∧ t = inject (placePort (.larder [(b, p.itemLen.toNat)]))
        (withPayload (memRead s.larder.mem b p.itemLen.toNat)
          { answerTo s 0x81 p with addr := p.addr, itemLen := p.itemLen, last := true }) x)
    ∧ (∀ (s : State) (p : Packet), p.opcode = 0x01 →
      Completes (.rdReq p) s fun t => t.larder.mem = s.larder.mem ∧ t.work.mem = s.work.mem ∧ t.regs = s.regs))

/-- Table 11-6, R164, R403 to R405: each atomic answers the old value of its operand and stores the new one that its
opcode gives, over its own width and nowhere else, in the Larder and in an array; one whose address is not aligned to its width, or that
a check refuses, is refused. -/
def Obligations.AtomicsReplaceOneOperand : Prop :=
  (∀ e ∈ ([(.atFadd64, 0x08), (.atSwap64, 0x09), (.atCas64, 0x0A), (.atCas128, 0x0B), (.atFaddFp32, 0x0C),
      (.atFaddBf16, 0x0D)] : List ((Packet → Instr) × BitVec 8)),
    ∀ (s : State) (p : Packet) (b : Nat), p.opcode = e.2 →
    let n := atomicWidth p.opcode.toNat
    exec (e.1 p) s = .next (memRequest p s)
    ∧ (s.attic.draining = false → p.addr.toNat % n ≠ 0 → exec (e.1 p) s = .next (refuse stDenied p (takeDelivered p s)))
    ∧ (∀ st, s.attic.draining = false → p.addr.toNat % n = 0 → checkPacket s p n .atomic = .fail st →
        exec (e.1 p) s = .next (refuse st p (takeDelivered p s)))
    ∧ (ServedAtOnce s p (.larder [(b, n)]) → p.addr.toNat % n = 0 → checkPacket s p n .atomic = .ok (.larder [(b, n)]) →
      s.larder.badWord = [] → s.larder.memWf = true →
      let old := leNat (memRead s.larder.mem b n)
      let new := leBytes n (atomicNew p.opcode.toNat old (leAt p.payload 0 n) (leAt p.payload n n))
      Completes (e.1 p) s fun t => memRead t.larder.mem b n = new
        ∧ (∀ a, a < b ∨ b + n ≤ a → tblGet 0 t.larder.mem a = tblGet 0 s.larder.mem a)
        ∧ (∃ x, t = inject (placePort (.larder [(b, n)])) (withPayload (leBytes n old)
          { answerTo s 0x88 p with itemLen := BitVec.ofNat 32 n }) x)
        ∧ t.work = s.work ∧ t.regs = s.regs)
    ∧ (ServedAtOnce s p (.array b) → p.addr.toNat % n = 0 → checkPacket s p n .atomic = .ok (.array b) → s.work.badWord = [] →
      s.work.memWf = true →
      let old := leNat (memRead s.work.mem b n)
      let new := leBytes n (atomicNew p.opcode.toNat old (leAt p.payload 0 n) (leAt p.payload n n))
      Completes (e.1 p) s fun t => memRead t.work.mem b n = new
        ∧ (∀ a, a < b ∨ b + n ≤ a → tblGet 0 t.work.mem a = tblGet 0 s.work.mem a)
        ∧ (∃ x, t = inject (placePort (.array b)) (withPayload (leBytes n old)
          { answerTo s 0x88 p with itemLen := BitVec.ofNat 32 n }) x)
        ∧ t.larder = s.larder ∧ t.regs = s.regs))
  ∧ (∀ old x y : Nat, atomicNew 0x08 old x y = (old + x) % 2 ^ 64 ∧ atomicNew 0x09 old x y = x
    ∧ atomicNew 0x0A old x y = (if old = x then y else old) ∧ atomicNew 0x0B old x y = (if old = x then y else old)
    ∧ atomicNew 0x0C old x y = (fpAdd fp32 .rne false old x).1 ∧ atomicNew 0x0D old x y = (fpAdd bf16 .rne false old x).1)
  ∧ (atomicWidth 0x08 = 8 ∧ atomicWidth 0x09 = 8 ∧ atomicWidth 0x0A = 8 ∧ atomicWidth 0x0B = 16 ∧ atomicWidth 0x0C = 4
    ∧ atomicWidth 0x0D = 2)

/-- R394, R407, R175, R174 and R416: a request that a stack's controller takes is served and leaves its queue, and a fill writes its next
line; an item of a WR not touched for age_limit + 8 ticks is forgotten; at the boundary after its copy a frame's accesses go to its spare.
R414, R415, R416, Table 11-16: a scrub read moves the scrubber on, marks the words it finds uncorrectable and retires
their frame; a write of go retires the frame it names, with event 0x17, or is refused where no spare is left; neither changes a byte. A
clause of no effect (NoEffect), where an event's condition does not hold, is the model's choice (log 1). -/
def Obligations.LarderControllersScrubRetire : Prop :=
  ((∀ (s : State) (st : StackId), exec (.larderControllerSlot st) s = .next (controllerSlot st.val 5 s))
    ∧ (∀ (s : State) (st n : Nat), (nextReq s st = none → controllerSlot st (n + 1) s = s)
      ∧ (∀ i, nextReq s st = some (i, none) → controllerSlot st (n + 1) s = controllerSlot st n (fillOne st s))
      ∧ (∀ i r, nextReq s st = some (i, some r) → controllerSlot st (n + 1) s = controllerSlot st n (perform r (noteTaken r { s with
          larder.waiting := tblSet [] s.larder.waiting st ((tblGet [] s.larder.waiting st).erase r) }))))
    ∧ (∀ (s : State) (st i : Nat) (r : LarderReq), nextReq s st = some (i, some r) → r ∈ tblGet [] s.larder.waiting st ∧ mayStartReq s r = true)
    ∧ (∀ (s : State) (st : StackId) (r : LarderReq), tblGet [] s.larder.waiting st.val = [r] → s.larder.fills = [] →
      mayStartReq s r = true → tblWf [] s.larder.waiting = true →
      exec (.larderControllerSlot st) s = .next (perform r (noteTaken r
        { s with larder.waiting := tblSet [] s.larder.waiting st.val [] })))
    ∧ (∀ (s : State) (st n x : Nat) (f : Fill), s.larder.fills = [f] → fillLine f st = some (n, x) →
      let t := fillOne st s
      (∀ a, a / 256 = x → tblGet 0 t.larder.mem a = 0) ∧ (∀ a, a / 256 ≠ x → tblGet 0 t.larder.mem a = tblGet 0 s.larder.mem a)
        ∧ f.frame * 8192 ≤ x ∧ x < (f.frame + 1) * 8192 ∧ (∃ g, t.larder.fills = [g] ∧ g.frame = f.frame ∧ tblGet 0 g.rows st = n + 1))
    ∧ (∀ (s : State) (st : StackId), tblGet [] s.larder.waiting st.val = [] → s.larder.fills = [] → NoEffect (.larderControllerSlot st) s)
    ∧ (∀ (s : State) (src : BitVec 12) (tag : BitVec 16) (w : WriteTrack),
      s.items.track.find? (fun t => t.src = src && t.tag = tag) = some w → ageLimit s + 8 ≤ ageOf s w.last →
      exec (.writeTrackingTimeout src tag) s = .next { s with
        items.track := s.items.track.filter (fun x => !(x.src = src && x.tag = tag)), items.dropped := s.items.dropped + 1 })
    ∧ (∀ (s : State) (src : BitVec 12) (tag : BitVec 16),
      (∀ w ∈ s.items.track, w.src = src → w.tag = tag → ageOf s w.last < ageLimit s + 8) → NoEffect (.writeTrackingTimeout src tag) s)
    ∧ (∀ (s : State) (f : BitVec 20) (r : Retire), s.larder.retiring.find? (fun r => r.frame = f.toNat) = some r →
      s.tick.slot = 0 → r.since ≠ s.tick.elapsed →
      Completes (.frameRetireCopyDone f) s fun t => tblGet none t.larder.remap f.toNat = some r.spare
        ∧ (∀ x, x ≠ f.toNat → tblGet none t.larder.remap x = tblGet none s.larder.remap x)
        ∧ t = { s with larder := { s.larder with
            remap := t.larder.remap, retiring := s.larder.retiring.filter (fun x => x.frame ≠ f.toNat),
            goFrame := if s.larder.goFrame = some f.toNat then none else s.larder.goFrame } })
    ∧ (∀ (s : State) (f : BitVec 20), (s.tick.slot ≠ 0 ∨ ∀ r ∈ s.larder.retiring, r.frame = f.toNat → r.since = s.tick.elapsed) →
      NoEffect (.frameRetireCopyDone f) s))
  ∧ ((∀ (s : State) (line corrected : Nat) (bad : List (Fin 4)), bit (reg s .larderCfg) 8 = true → line < 7500000000 →
      Completes (.scrubRead line corrected bad) s fun t => t.larder.scrubLine = line + 1
        ∧ (∀ w ∈ bad, tblGet false t.larder.badWord (4 * line + w.val) = true)
        ∧ (∀ w, (∀ b ∈ bad, w ≠ 4 * line + b.val) → tblGet false t.larder.badWord w = tblGet false s.larder.badWord w)
        ∧ (bad ≠ [] → s.larder.retiring.any (fun r => r.frame = line / 8192) = false → s.larder.sparesUsed < 512 →
            t.larder.retiring = s.larder.retiring ++ [{ frame := line / 8192, spare := s.larder.sparesUsed,
                                                        since := s.tick.elapsed }])
        ∧ (bad = [] → (∀ w : Fin 4, tblGet false s.larder.badWord (4 * line + w.val) = false) →
            corrected + tblGet 0 s.larder.ce (line / 8192) < fld (reg s .larderCfg) 24 8 → tblWf 0 s.larder.ce = true →
            t.larder.retiring = s.larder.retiring ∧ t.counts.sideband = s.counts.sideband)
        ∧ t.larder.mem = s.larder.mem ∧ HostOnly { s with larder := t.larder, attic := t.attic } t)
    ∧ (∀ (s : State) (line corrected : Nat) (bad : List (Fin 4)), (bit (reg s .larderCfg) 8 = false ∨ 7500000000 ≤ line) →
      NoEffect (.scrubRead line corrected bad) s)
    ∧ (∀ (s : State) (f : BitVec 20), f.toNat < 915527 →
      exec (.goReq f) s = .next (retireFrame f.toNat (locate (8192 * f.toNat)).1 { s with larder.goFrame := some f.toNat }))
    ∧ (∀ (s : State) (f st : Nat), s.larder.retiring.any (fun r => r.frame = f) = false → s.larder.sparesUsed < 512 →
      let t := retireFrame f st s
      t.larder = { s.larder with
          retiring := s.larder.retiring ++ [{ frame := f, spare := s.larder.sparesUsed, since := s.tick.elapsed }],
          sparesUsed := s.larder.sparesUsed + 1 }
        ∧ (∃ e, t.counts.sideband = s.counts.sideband ++ [e] ∧ e.code = 0x17 ∧ e.unit = BitVec.ofNat 16 st
          ∧ e.detail = BitVec.ofNat 128 f)
        ∧ HostOnly { s with larder := t.larder, attic := t.attic } t)
    ∧ (∀ (s : State) (f st : Nat), s.larder.retiring.any (fun r => r.frame = f) = false → 512 ≤ s.larder.sparesUsed →
      let t := retireFrame f st s
      t.larder = { s.larder with refused := true, goFrame := if s.larder.goFrame = some f then none else s.larder.goFrame }
        ∧ (∃ e, t.counts.sideband = s.counts.sideband ++ [e] ∧ e.code = 0x17 ∧ e.detail = BitVec.ofNat 128 (f + 2 ^ 20))
        ∧ HostOnly { s with larder := t.larder } t)
    ∧ (∀ (s : State) (f st : Nat), s.larder.retiring.any (fun r => r.frame = f) = true → retireFrame f st s = s)
    ∧ (∀ (s : State) (f : BitVec 20), 915527 ≤ f.toNat → NoEffect (.goReq f) s))

/-- R92 and R94: in Negotiate and Active a flit whose CRC fails sets nak and changes nothing else, one out of sequence changes
nothing, and a good one in sequence moves the expected number on, clears nak, gives its acknowledgement and its frames. R95, R98, R107:
data for an outstanding read are counted at their offset whatever their status, data that name none are counted and discarded, and the
doorbell page waits for its boundary. R420, R421 and R422, Tables 11-11 and 11-12: within the module's own arrays a fill writes its
pattern and a copy its source bytes over exactly the destination range, a CRC answers the CRC-32 of the bytes and writes nothing, and
each completes OK; a source in host memory is read by MEM_RDs and one in another module by an RD_REQ item, a fill of host memory is
written by MEM_WRs and one of another module by a WR item, and a check that fails ends the descriptor with its status. R399, R403,
R420, Tables 11-11 and 11-13: an atomic descriptor on the module's own Larder replaces its one operand by what its opcode gives,
answers what Table 11-11 says, and changes no other byte; one on another module goes as one item; an address that is not aligned
ends with DENIED and a body that is not legal with BAD_DESCRIPTOR. A clause of no effect (NoEffect), where an event's condition does
not hold, is the model's choice (log 1). -/
def Obligations.HostFlitsAndDataMovement : Prop :=
  ((∀ (s : State) (flit : List Byte), s.enz.st = .negotiate ∨ s.enz.st = .active → flitOk flit = false →
      exec (.enzenFlitReceive flit) s = .next { s with enz.nak := true })
    ∧ (∀ (s : State) (flit : List Byte), (s.enz.st ≠ .negotiate ∧ s.enz.st ≠ .active)
        ∨ (flitOk flit = true ∧ leAt flit 0 2 % 4096 ≠ s.enz.rxExp.toNat) → NoEffect (.enzenFlitReceive flit) s)
    ∧ (∀ (s : State) (flit : List Byte), s.enz.st = .negotiate ∨ s.enz.st = .active → flitOk flit = true →
      leAt flit 0 2 % 4096 = s.enz.rxExp.toNat →
      let u := flitAck flit { s with enz.rxExp := s.enz.rxExp + 1, enz.nak := false }
      let r := unpackFrames 16 (u.enz.part ++ slice flit 4 192)
      exec (.enzenFlitReceive flit) s = .next (r.1.foldl takeFrame { u with enz.part := r.2 }))
    ∧ (∀ (s : State) (flit : List Byte), HostOnly s (flitAck flit s) ∧ (flitAck flit s).rings = s.rings
        ∧ (flitAck flit s).enz.rxExp = s.enz.rxExp ∧ (flitAck flit s).enz.part = s.enz.part
        ∧ (bitsOf (leAt flit 0 4) 25 1 = 0 → EnzOnly s (flitAck flit s)))
    ∧ (∀ (s : State) (f : HostFrame), s.enz.reads = [] →
      Completes (.memRdData f) s fun t => t.enz.strayData = s.enz.strayData + 1 ∧ t.enz.reads = [] ∧ EnzOnly s t)
    ∧ (∀ (s : State) (f : HostFrame) (r : HostRead) (k : Fin 512), s.enz.reads = [r] → r.done = false → r.tag = some k →
      k.val = f.tag.toNat → r.got + f.payload.length < r.len →
      Completes (.memRdData f) s fun t => t.enz.reads = [countData f r] ∧ (countData f r).got = r.got + f.payload.length
        ∧ (countData f r).done = false ∧ (f.status = stOk → (countData f r).data = memWrite r.data f.dataOffset.toNat f.payload)
        ∧ (f.status ≠ stOk → r.fail = none → (countData f r).fail = some (f.dataOffset.toNat, f.status)) ∧ EnzOnly s t)
    ∧ (∀ (s : State) (f : HostFrame) (i : Nat) (r : HostRead), s.enz.reads.findIdx? (fun r => !r.done && (match r.tag with
          | some t => t.val = f.tag.toNat
          | none => false)) = some i →
      s.enz.reads[i]? = some r →
      let c := countData f r
      let u := takeInbox 0x02 s
      let v := { u with enz.reads := s.enz.reads.set i c }
      exec (.memRdData f) s = .next (if c.done then settleUse r.use (if readStatus c = stDataError then hostBad c v else v) else v))
    ∧ (∀ (s : State) (f : HostFrame) (r : HostRead) (k : Fin 512) (n : BitVec 48), s.enz.reads = [r] → r.use = .doorbell n →
      r.done = false → r.tag = some k → k.val = f.tag.toNat → f.status = stOk → r.fail = none → r.len ≤ r.got + f.payload.length →
      Completes (.memRdData f) s fun t => t.enz.reads = []
        ∧ t.rings.page = s.rings.page ++ [(memRead (memWrite r.data f.dataOffset.toNat f.payload) 0 r.len, prepDue s)]
        ∧ t = { s with enz := t.enz, rings := { s.rings with page := t.rings.page } }))
  ∧ ((∀ (s : State) (d : DRef) (f : InFlight) (b : Nat), Startable s d 0x11 f → dmOk f = true → f.pos = 0 →
      dmLen f.desc ≤ dmPiece → dmDstHost f.desc = false → isLocal s (dmDst f.desc) = true →
      localCheck s (dTenant s f) (dmDst f.desc) (dmLen f.desc) .wr = .ok (.array b) → s.work.badWord = [] →
      s.work.memWf = true →
      Completes (.dmFill d) s fun t =>
        memRead t.work.mem b (dmLen f.desc) = (upFrom 0 (dmLen f.desc / 8)).flatMap (fun _ => leBytes 8 (dmPattern f.desc))
        ∧ (∀ a, a < b ∨ b + dmLen f.desc ≤ a → tblGet 0 t.work.mem a = tblGet 0 s.work.mem a)
        ∧ t.larder.mem = s.larder.mem ∧ flightOf t d = none)
    ∧ (∀ (s : State) (d : DRef) (f : InFlight) (a b : Nat), Startable s d 0x10 f → dmOk f = true → f.pos = 0 →
      dmLen f.desc ≤ dmPiece → dmSrcHost f.desc = false → dmDstHost f.desc = false →
      isLocal s (dmSrc f.desc) = true → isLocal s (dmDst f.desc) = true →
      localCheck s (dTenant s f) (dmSrc f.desc) (dmLen f.desc) .rd = .ok (.array a) →
      localCheck s (dTenant s f) (dmDst f.desc) (dmLen f.desc) .wr = .ok (.array b) → s.work.badWord = [] →
      s.work.memWf = true →
      Completes (.dmCopy d) s fun t => memRead t.work.mem b (dmLen f.desc) = memRead s.work.mem a (dmLen f.desc)
        ∧ (∀ x, x < b ∨ b + dmLen f.desc ≤ x → tblGet 0 t.work.mem x = tblGet 0 s.work.mem x)
        ∧ t.larder.mem = s.larder.mem ∧ flightOf t d = none)
    ∧ (∀ (s : State) (d : DRef) (f : InFlight) (a : Nat), Startable s d 0x12 f → dmOk f = true → f.pos = 0 →
      dmLen f.desc ≤ dmPiece → dmSrcHost f.desc = false → isLocal s (dmSrc f.desc) = true →
      localCheck s (dTenant s f) (dmSrc f.desc) (dmLen f.desc) .rd = .ok (.array a) → s.work.badWord = [] →
      Completes (.dmCrc d) s fun t => t.work = s.work ∧ t.larder.mem = s.larder.mem
        ∧ ∃ x, t = complete d stOk ((crc32 (memRead s.work.mem a (dmLen f.desc))).setWidth 64) x ∧ HostOnly s x)
    ∧ (∀ (e : (DRef → Instr) × BitVec 8), e ∈ [(.dmCopy, 0x10), (.dmCrc, 0x12)] →
      ∀ (s : State) (d : DRef) (f : InFlight), Startable s d e.2 f → dmOk f = true → f.pos = 0 →
      let u := modFlight d (fun g => { g with aux := 0xFFFFFFFF }) (started d s)
      let n := min dmPiece (dmLen f.desc)
      (dmSrcHost f.desc = true →
        exec (e.1 d) s = .next (hostRead (.obj d 0) (dmSrc f.desc) n (modFlight d (fun g => { g with waits := 1 }) u)))
        ∧ (dmSrcHost f.desc = false → isLocal s (dmSrc f.desc) = false →
          ∃ g, flightOf u d = some g ∧ exec (e.1 d) s = .next (dmSend d g 0x01 (dmSrc f.desc) n [] u))
        ∧ (∀ st, dmSrcHost f.desc = false → isLocal s (dmSrc f.desc) = true →
          localCheck s (dTenant s f) (dmSrc f.desc) n .rd = .fail st →
          exec (e.1 d) s = .next (complete d st (if e.2 = 0x12 then 0 else dmSrc f.desc) u)))
    ∧ (∀ (s : State) (d : DRef) (f : InFlight), Startable s d 0x11 f → dmOk f = true → f.pos = 0 →
      let u := modFlight d (fun g => { g with aux := 0xFFFFFFFF }) (started d s)
      let n := min dmPiece (dmLen f.desc)
      let bs := (upFrom 0 (n / 8)).flatMap (fun _ => leBytes 8 (dmPattern f.desc))
      (dmDstHost f.desc = true → dmLen f.desc ≤ dmPiece →
        exec (.dmFill d) s = .next (complete d stOk 0 (modFlight d (fun g => { g with pos := n, waits := 0 }) (hostPut (dmDst f.desc) bs u))))
        ∧ (dmDstHost f.desc = false → isLocal s (dmDst f.desc) = false →
          ∃ g, flightOf u d = some g ∧ exec (.dmFill d) s = .next (dmSend d g 0x02 (dmDst f.desc) n bs u))
        ∧ (∀ st, dmDstHost f.desc = false → isLocal s (dmDst f.desc) = true →
          localCheck s (dTenant s f) (dmDst f.desc) n .wr = .fail st →
          exec (.dmFill d) s = .next (complete d st (dmDst f.desc) u)))
    ∧ (∀ (e : (DRef → Instr) × BitVec 8), e ∈ [(.dmCopy, 0x10), (.dmFill, 0x11), (.dmCrc, 0x12)] →
      ∀ (s : State) (d : DRef) (f : InFlight), Startable s d e.2 f → dmOk f = false →
      exec (e.1 d) s = .next (complete d stBad 0 (started d s))))
  ∧ ((∀ e ∈ ([(.dmAtFadd64, 0x18), (.dmAtSwap64, 0x19), (.dmAtCas64, 0x1A), (.dmAtCas128, 0x1B), (.dmAtFaddFp32, 0x1C),
        (.dmAtFaddBf16, 0x1D)] : List ((DRef → Instr) × BitVec 8)),
      ∀ (s : State) (d : DRef) (f : InFlight) (b : Nat), Startable s d e.2 f → dTarget f.desc = 0xFFFF →
      let op := dmAtOp f
      let n := atomicWidth op
      let old := leNat (memRead s.larder.mem b n)
      let ops := atomicOperands op (dmAtPayload f)
      dByte f.desc 32 32 / 2 ^ (8 * dmAtBytes op) = 0 → isLocal s (dWord f.desc 24) = true →
      (dWord f.desc 24).toNat % n = 0 →
      localCheck s (dTenant s f) (dWord f.desc 24) n .atomic = .ok (.larder [(b, n)]) → s.larder.badWord = [] →
      s.larder.memWf = true →
      Completes (e.1 d) s fun t => memRead t.larder.mem b n = leBytes n (atomicNew op old ops.1 ops.2)
        ∧ (∀ a, a < b ∨ b + n ≤ a → tblGet 0 t.larder.mem a = tblGet 0 s.larder.mem a)
        ∧ t.work = s.work ∧ ∃ x, t = complete d stOk (dmAtResult f old) x)
    ∧ (∀ e ∈ ([(.dmAtFadd64, 0x18), (.dmAtSwap64, 0x19), (.dmAtCas64, 0x1A), (.dmAtCas128, 0x1B), (.dmAtFaddFp32, 0x1C),
        (.dmAtFaddBf16, 0x1D)] : List ((DRef → Instr) × BitVec 8)),
      ∀ (s : State) (d : DRef) (f : InFlight), Startable s d e.2 f → dTarget f.desc = 0xFFFF →
      dByte f.desc 32 32 / 2 ^ (8 * dmAtBytes (dmAtOp f)) = 0 → isLocal s (dWord f.desc 24) = true →
      (dWord f.desc 24).toNat % atomicWidth (dmAtOp f) ≠ 0 →
      exec (e.1 d) s = .next (complete d stDenied 0 (started d s)))
    ∧ (∀ e ∈ ([(.dmAtFadd64, 0x18), (.dmAtSwap64, 0x19), (.dmAtCas64, 0x1A), (.dmAtCas128, 0x1B), (.dmAtFaddFp32, 0x1C),
        (.dmAtFaddBf16, 0x1D)] : List ((DRef → Instr) × BitVec 8)),
      ∀ (s : State) (d : DRef) (f : InFlight), Startable s d e.2 f →
      (dTarget f.desc ≠ 0xFFFF ∨ dByte f.desc 32 32 / 2 ^ (8 * dmAtBytes (dmAtOp f)) ≠ 0 →
        exec (e.1 d) s = .next (complete d stBad 0 (started d s)))
        ∧ (dTarget f.desc = 0xFFFF → dByte f.desc 32 32 / 2 ^ (8 * dmAtBytes (dmAtOp f)) = 0 → isLocal s (dWord f.desc 24) = false →
          exec (e.1 d) s = .next (dmSend d f (BitVec.ofNat 8 (dmAtOp f)) (dWord f.desc 24) (atomicWidth (dmAtOp f)) (dmAtPayload f)
            (started d s)))))

/-- R441, R442 and R443: a COLL_START with the sequence number that its free slot binds next binds an operation on the
template it names, with that member's start in; one for the bound operation joins it; one that waits is held in its queue, and the first
waiting in the order of the tie rule binds once the slot is free. R460, R454, R455 and R446, Table 12-10: an arrival and a member's counts
join the bound operation, the last arrival of the module's members is told to every peer, and the last counts bring the layouts or end
the operation with ACCESS_DENIED; an operation that its limit ends leaves its slot, is counted, and its status is kept. A clause of no
effect (NoEffect), where an event's condition does not hold, is the model's choice (log 1). -/
def Obligations.CollectivesStartAndArrive : Prop :=
  ((∀ (s : State) (i : PortId) (p : Packet) (j : Nat) (m : Template), p.opcode = 0x20 → mayTakeIn s i p = true →
      senderOf (gEntry s (cGroup p)) i p = .member j →
      memberCheck s (cGroup p) (gEntry s (cGroup p)) (.member j) p = none → fnSt s (.group (cGroup p)) = .on →
      opOf s (cGroup p) (cSlot p) = none → cSeq p = nextSeq s (cGroup p) (cSlot p) → s.attic.draining = false →
      (tblGet none (groupOf (settleTemplates (cGroup p) s) (cGroup p)).tmpl (cTmpl p) = some m →
        exec (.collStart i p) s
          = .next (bindOp (cGroup p) (gEntry s (cGroup p)) p j m (leaveInput i p (settleTemplates (cGroup p) s))))
        ∧ (tblGet none (groupOf (settleTemplates (cGroup p) s) (cGroup p)).tmpl (cTmpl p) = none →
        exec (.collStart i p) s = .next (startDiscarded (cGroup p) p (leaveInput i p (settleTemplates (cGroup p) s))))
        ∧ ((groupOf s (cGroup p)).waiting = [] → (groupOf s (cGroup p)).held = false →
          tblGet none (groupOf s (cGroup p)).tmpl (cTmpl p) = some m → m.outSpec.coding = 0 → m.kind ≠ 5 →
          2 ≤ gLocal (gEntry s (cGroup p)) → tblWf {} s.hawk.group = true →
          Completes (.collStart i p) s fun t =>
            (∃ o, opOf t (cGroup p) (cSlot p) = some o ∧ o.s = cSeq p ∧ o.tmpl = m ∧ o.starts = [j] ∧ o.bound = s.tick.elapsed
              ∧ o.coat = s.route.top.num ∧ o.gen = fnGen s (.group (cGroup p)) ∧ o.tiles = [])
            ∧ t.larder = s.larder ∧ t.work = s.work))
    ∧ (∀ (s : State) (i : PortId) (p : Packet) (j : Nat) (o : CollOp), p.opcode = 0x20 → mayTakeIn s i p = true →
      senderOf (gEntry s (cGroup p)) i p = .member j →
      memberCheck s (cGroup p) (gEntry s (cGroup p)) (.member j) p = none → fnSt s (.group (cGroup p)) = .on →
      opOf s (cGroup p) (cSlot p) = some o →
      (o.s = cSeq p → o.starts.contains j = false → o.tmplIdx = cTmpl p →
        exec (.collStart i p) s = .next (finishOp (cGroup p) (cSlot p)
          (modOp (cGroup p) (cSlot p) (fun o => { o with starts := if o.starts.contains j then o.starts else o.starts ++ [j] })
            (leaveInput i p s))))
        ∧ (cSeq p = o.s + 16 → exec (.collStart i p) s = .next (holdIn i p s))
        ∧ (cSeq p ≠ o.s → cSeq p ≠ o.s + 16 → exec (.collStart i p) s = .next (startDiscarded (cGroup p) p (leaveInput i p s))))
    ∧ (∀ (s : State) (g : Fin 1024) (q : Fin 16) (i : PortId) (p : Packet), opOf s g q = none →
      (tieInputs s).findSome? (fun k => ((inPort s k).queue.find? (fun e => e.kind = .contrib && e.pkt.opcode = 0x20 && cGroup e.pkt = g
        && cSlot e.pkt = q && inFront s k e)).map (fun e => (k, e.pkt))) = some (i, p) →
      exec (.collSlotBind g q) s = .next (takeStart i p s))
    ∧ (∀ (s : State) (i : PortId) (p : Packet), exec (.collStart i p) s = .next (takeStart i p s))
    ∧ (∀ (s : State) (g : Fin 1024) (q : Fin 16), ((opOf s g q).isSome = true
        ∨ ∀ k : PortId, ∀ e ∈ (inPort s k).queue, e.pkt.opcode = 0x20 → ¬ (cGroup e.pkt = g ∧ cSlot e.pkt = q)) →
      NoEffect (.collSlotBind g q) s))
  ∧ ((∀ (s : State) (i : PortId) (p : Packet) (o : CollOp) (j : Nat), p.opcode = 0x22 → mayTakeIn s i p = true →
      opOf s (cGroup p) (cSlot p) = some o → o.s.setWidth 16 = p.tag → senderOf o.entry i p = .member j →
      memberCheck s (cGroup p) o.entry (.member j) p = none → o.tmpl.kind = 4 →
      let o1 := { o with arrived := if o.arrived.contains j then o.arrived else o.arrived ++ [j] }
      let tell := (upFrom 0 (gLocal o.entry)).all o1.arrived.contains && !o.told
      let u := setOp (cGroup p) (cSlot p) (some { o1 with told := o.told || tell }) (leaveInput i p s)
      exec (.collArrive i p) s
        = .next (finishOp (cGroup p) (cSlot p) (if tell then toPeers (cGroup p) (cSlot p) o1 0x22 0 true [] u else u)))
    ∧ (∀ (s : State) (i : PortId) (p : Packet) (o : CollOp) (r : Nat), p.opcode = 0x22 → mayTakeIn s i p = true →
      opOf s (cGroup p) (cSlot p) = some o → o.s.setWidth 16 = p.tag → senderOf o.entry i p = .peer r →
      memberCheck s (cGroup p) o.entry (.peer r) p = none → o.tmpl.kind = 4 →
      Completes (.collArrive i p) s fun t => ∃ o1 u, t = finishOp (cGroup p) (cSlot p) u ∧ opOf u (cGroup p) (cSlot p) = some o1
        ∧ o1.peers = (if o.peers.contains r then o.peers else o.peers ++ [r]) ∧ o1.arrived = o.arrived)
    ∧ (∀ (s : State) (i : PortId) (p : Packet) (o : CollOp) (j k : Nat), p.opcode = 0x22 → mayTakeIn s i p = true →
      opOf s (cGroup p) (cSlot p) = some o → o.s.setWidth 16 = p.tag → gMember o.entry i.val p.src = some j →
      memberCheck s (cGroup p) o.entry (.member j) p = none → o.tmpl.kind = 4 → o.ended = [] → o.arrived.contains j = false →
      k < gLocal o.entry → k ≠ j → o.arrived.contains k = false →
      Completes (.collArrive i p) s fun t =>
        (∃ o', opOf t (cGroup p) (cSlot p) = some o' ∧ o'.arrived = o.arrived ++ [j] ∧ o'.starts = o.starts ∧ o'.ended = [])
        ∧ t.larder = s.larder ∧ t.work = s.work)
    ∧ (∀ (s : State) (i : PortId) (p : Packet) (o : CollOp) (j : Nat), p.opcode = 0x23 → mayTakeIn s i p = true →
      opOf s (cGroup p) (cSlot p) = some o → o.s.setWidth 16 = p.tag → gMember o.entry i.val p.src = some j →
      memberCheck s (cGroup p) o.entry (.member j) p = none → o.tmpl.kind = 5 → tblGet [] o.counts j = [] →
      let o1 := { o with counts := tblSet [] o.counts j (countsOf (gLocal o.entry) p) }
      let u := setOp (cGroup p) (cSlot p) (some o1) (leaveInput i p s)
      let all := (upFrom 0 (gLocal o.entry)).all (fun x => !(tblGet [] o1.counts x).isEmpty)
      (all = false → exec (.collCounts i p) s = .next u)
        ∧ (all = true → countsOk o1 = true → exec (.collCounts i p) s = .next (layOut (cGroup p) (cSlot p) o1 u))
        ∧ (all = true → countsOk o1 = false →
          exec (.collCounts i p) s = .next (failOp (cGroup p) (cSlot p) stDenied (fun _ => false) u))
        ∧ (p.payLen.toNat = 4 * gLocal o.entry →
          countsOf (gLocal o.entry) p = (upFrom 0 (gLocal o.entry)).map (fun x => leAt p.payload (4 * x) 4)))
    ∧ (∀ (s : State) (i : PortId) (p : Packet) (o : CollOp) (j k : Nat), p.opcode = 0x23 → mayTakeIn s i p = true →
      opOf s (cGroup p) (cSlot p) = some o → o.s.setWidth 16 = p.tag → gMember o.entry i.val p.src = some j →
      memberCheck s (cGroup p) o.entry (.member j) p = none → o.tmpl.kind = 5 → p.payLen.toNat = 4 * gLocal o.entry →
      tblGet [] o.counts j = [] → k < gLocal o.entry → k ≠ j → tblGet [] o.counts k = [] →
      Completes (.collCounts i p) s fun t =>
        (∃ o', opOf t (cGroup p) (cSlot p) = some o'
          ∧ tblGet [] o'.counts j = (upFrom 0 (gLocal o.entry)).map (fun x => leAt p.payload (4 * x) 4)
          ∧ o'.layouts = o.layouts)
        ∧ t.larder = s.larder ∧ t.work = s.work)
    ∧ (∀ (s : State) (g : Fin 1024) (q : Fin 16) (o : CollOp), opOf s g q = some o → o.tmpl.opLimit ≤ ageOf s o.bound →
      exec (.collOpLimitExpired g q) s = .next (failOp g q stTimeout (fun _ => false) s)
        ∧ (tblWf {} s.hawk.group = true → tblWf none (groupOf s g).ops = true →
          Completes (.collOpLimitExpired g q) s fun t => opOf t g q = none
            ∧ tblGet none (groupOf t g).last q.val = some ⟨o.s, stTimeout⟩
            ∧ tblGet 0 (groupOf t g).count q.val = tblGet 0 (groupOf s g).count q.val + 1
            ∧ t.larder = s.larder ∧ t.work = s.work))
    ∧ (∀ (s : State) (g : Fin 1024) (q : Fin 16),
      (∀ o, opOf s g q = some o → ageOf s o.bound < o.tmpl.opLimit) → NoEffect (.collOpLimitExpired g q) s))

/-- R445, R485, R246: an accepted contribution asks for its tile's room when it is the first of it and stands in its queue with what it
contributes to; a block of an all-to-all passes to its receiver once the layouts are out; a contribution, arrival or counts to no bound
operation waits in its queue, and one that no member or peer sends is discarded and counted. R469, R470 and R473: a cell of a contribution that reaches
its slice, the position holding room, is marked in its position's arrival map and added once, and the tile, its handle and its room stay; the
slice serves one cell in a slot, and a second cell of the same member is counted and reported. R478, R479: in ordered arithmetic a cell whose
turn has not come is kept in hold room, or moved out when eight are held. -/
def Obligations.ContributionIsAdded : Prop :=
  (∀ (s : State) (i : PortId) (p : Packet) (o : CollOp) (w : Sender), p.opcode = 0x21 → mayTakeIn s i p = true →
    opOf s (cGroup p) (cSlot p) = some o → o.s.setWidth 16 = p.tag → senderOf o.entry i p = w → w ≠ .stranger →
    memberCheck s (cGroup p) o.entry w p = none →
    let kept := standIn i p (if o.doneTiles.contains (cTile p) || (tileOf s (cGroup p) (cSlot p) (cTile p)).isSome then s
      else askRoom (cGroup p) (cSlot p) o (cTile p) s)
    let u := modEntry i p (fun e => { e with adm := some (contribOf o w p) }) kept
    (o.tmpl.kind < 4 → contribOk o w p = false → exec (.collContrib i p) s = .next (collDiscard (cGroup p) i p s))
      ∧ (o.tmpl.kind < 4 → contribOk o w p = true → (o.tmpl.kind < 2 ∨ (∃ r, w = .peer r) ∨ entryBad s i p = true) →
        exec (.collContrib i p) s = .next u)
      ∧ (∀ j, w = .member j → 2 ≤ o.tmpl.kind → o.tmpl.kind < 4 → contribOk o w p = true → entryBad s i p = false →
        exec (.collContrib i p) s = .next (toPeers (cGroup p) (cSlot p) o 0x21 (cTile p <<< 20 + cOff p)
          (decide (tileBytes o.tmpl (cTile p) ≤ cOff p + p.payLen.toNat)) p.payload u))
      ∧ (o.tmpl.kind = 4 → exec (.collContrib i p) s = .next (collDiscard (cGroup p) i p s))
      ∧ (∀ j, w = .member j → o.tmpl.kind = 5 → exec (.collContrib i p) s
          = .next (if o.layouts then takeBlock i j p o s else holdIn i p s)))
  ∧ (∀ (s : State) (i : PortId) (p : Packet), mayTakeIn s i p = true → opOf s (cGroup p) (cSlot p) = none →
    tblGet none (groupOf s (cGroup p)).last (cSlot p).val = none →
    memberCheck s (cGroup p) (gEntry s (cGroup p)) (senderOf (gEntry s (cGroup p)) i p) p = none →
    (senderOf (gEntry s (cGroup p)) i p ≠ .stranger →
      (p.opcode = 0x21 → exec (.collContrib i p) s = .next (holdIn i p s)) ∧ (p.opcode = 0x22 → exec (.collArrive i p) s = .next (holdIn i p s))
        ∧ (p.opcode = 0x23 → exec (.collCounts i p) s = .next (holdIn i p s)))
      ∧ (senderOf (gEntry s (cGroup p)) i p = .stranger → p.opcode = 0x21 →
        exec (.collContrib i p) s = .next (collDiscard (cGroup p) i p s)))
  ∧ (∀ (s : State) (a : Contrib) (c : Cell) (errs : List PortId) (o : CollOp) (r : TileRec), c.adm = some a → c.bad = false →
    opOf s a.g a.q = some o → o.s = a.s → tileOf s a.g a.q a.tile = some r → o.tmpl.arith ≠ .ordered →
    bit (posOf r a.stage2 (a.c0 + c.idx)).map a.idx = false → (posOf r a.stage2 (a.c0 + c.idx)).done = false →
    let m := addSlice o a.g a.q a.stage2 a.tile (a.c0 + c.idx)
    (addedNow s m = true → hawkCell errs c s = none)
      ∧ (addedNow s m = false → m ∉ errs →
        hawkCell errs c s = some (slicesCell a.g a.q a.stage2 a.tile (a.c0 + c.idx) a.idx c.data
          (bump (groupPage a.g.val) 2 c.data.length s))))
  ∧ (∀ (s : State) (g : Fin 1024) (q : Fin 16) (o : CollOp) (r : TileRec) (tile c j : Nat) (stage2 : Bool) (bs : List Byte),
    opOf s g q = some o → tileOf s g q tile = some r → j < 128 →
    let p := posOf r stage2 c
    (bit p.map j = false → p.done = false → o.tmpl.arith ≠ .ordered → p.next + 1 ≠ contributors o stage2 tile →
      let t := slicesCell g q stage2 tile c j bs s
      (∃ r', tileOf t g q tile = some r'
        ∧ posOf r' stage2 c = { p with
            map := p.map ||| (1#128 <<< j),
            acc := combineAcc o.tmpl.arith o.tmpl.inSpec.fmt o.tmpl.outSpec.rnd p.acc (cellAcc o stage2 bs),
            next := p.next + 1 }
        ∧ r'.handle = r.handle ∧ r'.grains = r.grains ∧ r'.spill = r.spill ∧ r'.sent = r.sent)
        ∧ addedNow t (addSlice o g q stage2 tile c) = true ∧ t = { s with hawk := t.hawk, counts := t.counts })
      ∧ (bit p.map j = true ∨ p.done = true →
        slicesCell g q stage2 tile c j bs s
          = raiseEv 0x61 g.val (c + j <<< 12 + r.handle <<< 20) o.gen (bump hawkPage 10 1 s))
      ∧ (bit p.map j = false → p.done = false → o.tmpl.arith = .ordered → p.next ≠ j →
        let t := slicesCell g q stage2 tile c j bs s
        (∃ r', tileOf t g q tile = some r' ∧ (posOf r' stage2 c).map = p.map ||| (1#128 <<< j) ∧ (posOf r' stage2 c).acc = p.acc
          ∧ (posOf r' stage2 c).hold = (if p.hold.length < 8 then p.hold ++ [(j, bs)] else p.hold)
          ∧ (posOf r' stage2 c).spill = (if p.hold.length < 8 then p.spill else p.spill ++ [(j, bs)]))
        ∧ t = { s with hawk := t.hawk, counts := t.counts }))

/-- R427, R428, R434, R435, Table 12-4: TEMPLATE_SET that passes its checks reads its member table, or with no local
member is kept for its boundary; one that fails them ends with BAD_DESCRIPTOR; GROUP_QUERY answers the group's state and changes no
group; a group descriptor of a stale generation or of another tenant ends with its status. -/
def Obligations.GroupDescriptors : Prop :=
  (∀ (s : State) (d : DRef) (f : InFlight) (g : Fin 1024), Startable s d 0x22 f → groupTarget f = some g →
    dGen f.desc = fnGen s (.group g) → gTenant (gEntry s g) = dTenant s f →
    let u := modFlight d (fun x => { x with gen := fnGen s (.group g) }) (started d s)
    (tmplOk s g (tmplOf f.desc) = false → exec (.templateSet d) s = .next (complete d stBad 0 u))
      ∧ (tmplOk s g (tmplOf f.desc) = true → gLocal (gEntry s g) ≠ 0 →
        exec (.templateSet d) s = .next (hostRead (.obj d 0) (dWord f.desc 48) (32 * gLocal (gEntry s g))
          (modFlight d (fun x => { x with waits := 1 }) u)))
      ∧ (tmplOk s g (tmplOf f.desc) = true → gLocal (gEntry s g) = 0 →
        exec (.templateSet d) s = .next (complete d stOk 0
          (modGroup g (fun v => { v with waiting := v.waiting ++ [(fld f.desc 192 6, tmplOf f.desc, prepDue s)] }) u))
        ∧ Completes (.templateSet d) s fun t => (groupOf t g).waiting
            = (groupOf s g).waiting ++ [(fld f.desc 192 6, tmplOf f.desc, prepDue s)]
          ∧ flightOf t d = none ∧ HostOnly { s with hawk := t.hawk } t))
  ∧ (∀ (s : State) (d : DRef) (f : InFlight) (g : Fin 1024), Startable s d 0x23 f → groupTarget f = some g →
    dGen f.desc = fnGen s (.group g) → gTenant (gEntry s g) = dTenant s f →
    exec (.groupQuery d) s = .next (complete d stOk (groupQueryWord s g)
      (modFlight d (fun x => { x with gen := fnGen s (.group g) }) (started d s))))
  ∧ (∀ e ∈ ([(.templateSet, 0x22), (.groupQuery, 0x23)] : List ((DRef → Instr) × BitVec 8)),
    ∀ (s : State) (d : DRef) (f : InFlight), Startable s d e.2 f →
    (groupTarget f = none → exec (e.1 d) s = .next (complete d stBad 0 (started d s)))
      ∧ (∀ g, groupTarget f = some g →
        let u := modFlight d (fun x => { x with gen := fnGen s (.group g) }) (started d s)
        (dGen f.desc ≠ fnGen s (.group g) → exec (e.1 d) s = .next (complete d stStaleGen 0 u))
          ∧ (dGen f.desc = fnGen s (.group g) → gTenant (gEntry s g) ≠ dTenant s f →
            exec (e.1 d) s = .next (complete d stDenied 0 u))
          ∧ (Completes (e.1 d) s fun t => dGen f.desc ≠ fnGen s (.group g) → HostOnly s t ∧ flightOf t d = none)))

/-- R485, R487, R490, R491 and R492: step 9 serves the waiting requests in the order of the tie rule, each from its group's reserve where
that holds enough, else from the pool while it stays open; the step after a rebuild serves nothing. The audit of ticks numbered 48 mod 64
looks at the sums of the snapshot of step 2: it finds equal ones in order, and reports each unequal one and rebuilds both counts from the
tile records. A clause of no effect (NoEffect), where an event's condition does not hold, is the model's choice (log 1). -/
def Obligations.HawkGrantsAndAudit : Prop :=
  (∀ s : State, let u := runInner 8 s
    (u.tick.slot = 0 → u.tick.phase ≤ 9 → u.hawk.skip = false →
      let w := grantWalk (u.hawk.reqs.foldl (fun l r => insertReq u r l) []) true u.hawk.limit [] u
      exec .hawkGrantStep s = .next (setPhase 10 { w.2 with hawk.reqs := w.1, hawk.movedOut := 0, hawk.movedIn := 0 }))
      ∧ (u.tick.slot = 0 → u.tick.phase ≤ 9 → u.hawk.skip = true →
        exec .hawkGrantStep s = .next (setPhase 10 { u with hawk.skip := false }))
      ∧ (u.tick.slot ≠ 0 ∨ 9 < u.tick.phase → exec .hawkGrantStep s = .next u)
      ∧ (s.tick.todo = [] → u = s))
  ∧ (∀ (s : State) (r : GrantReq), s.tick.todo = [] → s.tick.slot = 0 → s.tick.phase ≤ 9 → s.hawk.skip = false → s.hawk.reqs = [r] →
    0 < s.hawk.limit → r.need ≤ (groupOf s r.g).resFree → tblWf {} s.hawk.group = true →
    Completes .hawkGrantStep s fun t => t.hawk.reqs = [] ∧ (groupOf t r.g).resFree = (groupOf s r.g).resFree - r.need
      ∧ t.hawk.grains = s.hawk.grains ∧ t.hawk.movedIn = 0 ∧ t.hawk.movedOut = 0
      ∧ t = { s with hawk := t.hawk, counts := t.counts, tick := t.tick })
  ∧ (∀ (s : State) (r : GrantReq), s.tick.todo = [] → s.tick.slot = 0 → s.tick.phase ≤ 9 → s.hawk.skip = false → s.hawk.reqs = [r] →
    0 < s.hawk.limit → (groupOf s r.g).resFree < r.need →
    Completes .hawkGrantStep s fun t =>
      (r.need ≤ s.hawk.grains → r.spill ≤ s.hawk.spill → t.hawk.reqs = [] ∧ t.hawk.grains = s.hawk.grains - r.need
        ∧ t.hawk.spill = s.hawk.spill - r.spill)
      ∧ (s.hawk.grains < r.need ∨ s.hawk.spill < r.spill → t.hawk.reqs = [r] ∧ t.hawk.grains = s.hawk.grains
        ∧ t.hawk.group = s.hawk.group))
  ∧ (∀ (s : State) (g p : Nat), s.hawk.latched = some (g, p) → s.tick.slot = 0 → s.tick.phase ≤ 6 → hits s 64 48 = true →
    g ≠ 3072 ∨ p ≠ spillTotal s →
    exec .grainAudit s = .next (rebuildRoom (roomCheck 1 p (spillTotal s) (roomCheck 0 g 3072 s))))
  ∧ (∀ (s : State) (sub sum ref : Nat),
    (sum = ref → roomCheck sub sum ref s = s)
      ∧ (sum ≠ ref → HostOnly s (roomCheck sub sum ref s) ∧ ∃ e, (roomCheck sub sum ref s).counts.sideband = s.counts.sideband ++ [e]
        ∧ e.code = 0x15 ∧ e.unit = 0
        ∧ e.detail = BitVec.ofNat 128 (3 + sub <<< 8 + (((sum : Int) - ref) % 4294967296).toNat <<< 16)))
  ∧ (∀ s : State, (rebuildRoom s).hawk.skip = true
    ∧ (doubleHeld s = [] → rebuildRoom s = { s with hawk := (rebuildRoom s).hawk }
      ∧ (rebuildRoom s).hawk.reqs = s.hawk.reqs
      ∧ (rebuildRoom s).hawk.grains = 3072 - s.hawk.group.foldl (fun n v => n + v.2.res) 0
          - ((liveTiles s).filter (fun t => !t.2.fromReserve)).foldl (fun n t => n + t.2.grains) 0))
  ∧ (∀ s : State, (s.hawk.latched = none ∨ s.tick.slot ≠ 0 ∨ hits s 64 48 = false ∨ s.hawk.latched = some (3072, spillTotal s)) →
    NoEffect .grainAudit s)
  ∧ (∀ s : State, tickSpan s = 1 → (hits s 64 48 = true ↔ (nowTick s).toNat % 64 = 48))

/-- R485, R486, R489 and R491: giving a tile room and ending an operation both keep the sums of grains and of spill units
that the audit checks. -/
def Obligations.HawkRoomConserved : Prop :=
  (∀ (s : State) (g : Fin 1024) (q : Fin 16) (o : CollOp) (tile need spill : Nat), opOf s g q = some o →
    tblWf {} s.hawk.group = true → tblWf none (groupOf s g).ops = true → need ≤ s.hawk.grains → spill ≤ s.hawk.spill →
    grainSum (giveRoom g q tile need spill false s) = grainSum s ∧ spillSum (giveRoom g q tile need spill false s) = spillSum s)
  ∧ (∀ (s : State) (g : Fin 1024) (q : Fin 16) (o : CollOp) (tile need spill : Nat), opOf s g q = some o →
    tblWf {} s.hawk.group = true → tblWf none (groupOf s g).ops = true → need ≤ (groupOf s g).resFree →
    spill ≤ (groupOf s g).resSpill →
    grainSum (giveRoom g q tile need spill true s) = grainSum s ∧ spillSum (giveRoom g q tile need spill true s) = spillSum s)
  ∧ (∀ (s : State) (g : Fin 1024) (q : Fin 16) (o : CollOp) (st : BitVec 8), opOf s g q = some o →
    tblWf {} s.hawk.group = true → tblWf none (groupOf s g).ops = true →
    grainSum (closeOp g q o st s) = grainSum s ∧ spillSum (closeOp g q o st s) = spillSum s)

/-- R471, R472 and R473: the exact sum of a position does not depend on the order in which its contributions arrive, for
any format and any contributions of one length; the word it ends in is the same, flags and value. -/
def Obligations.ExactSumAnyOrder : Prop :=
  ∀ (fmt : Nat) (mode : Rnd) (n : Nat) (xs ys : List (List Byte)), xs.Perm ys → (∀ x ∈ xs, x.length = n) →
    xs.foldl (fun acc x => combineAcc .exact fmt mode acc (firstAcc .exact fmt x)) []
      = ys.foldl (fun acc x => combineAcc .exact fmt mode acc (firstAcc .exact fmt x)) []

/-- R366, R368 to R371: Skim-Z loses nothing: decoding what the encoder makes of plain data of any format gives the data
back. -/
def Obligations.SkimZLossless : Prop :=
  (∀ (fmt n : Nat) (bs : List Byte), fmt < 8 → bs.length = plainLen fmt n →
    decodeSkim fmt 1 n (encodeSkim fmt 1 n bs) = some bs)
  ∧ (∀ (fmt n : Nat) (bs rest : List Byte), fmt < 8 → bs.length = plainLen fmt n →
    lenZ (unitBytes fmt) (plainLen fmt n / unitBytes fmt / 64 + 1) (plainLen fmt n / unitBytes fmt) (encodeSkim fmt 1 n bs ++ rest)
      = (encodeSkim fmt 1 n bs).length)

/-- R506, R507: a LANDING_CREDIT that R507 admits adds its grant to its stream and to the port's balance; one that breaks
R507 adds none, is counted and raises event 0x62. R496, R497, R499 to R502: the stream descriptors read their list, take a start for a
boundary and answer the query, and one that fails a check ends with its status. -/
def Obligations.StreamGrantsAndDescriptors : Prop :=
  (∀ (s : State) (l : LinkId) (p : Packet) (k : Fin 64), p.opcode = 0x38 → mayTakeIn s (linkPort l) p = true →
    fld p.tag 0 6 = k.val →
    let u := leaveInput (linkPort l) p s
    let gr : Grant := ⟨l.val, fld p.tag 6 4, BitVec.ofNat 64 (p.addr.toNat / 65536 * 65536), fld p.addr 0 16⟩
    (creditFault u l k p = none → exec (.landingCredit l p) s = .next (bump (streamPage k.val) 7 1 (modStream k (fun x =>
        { x with grants := x.grants ++ [gr], balance := tblMod 0 x.balance l.val (· + 1) }) u)))
      ∧ (∀ c, creditFault u l k p = some c → exec (.landingCredit l p) s = .next (raiseEv 0x62 k.val
        (l.val + fld p.tag 6 4 <<< 7 + c <<< 11) (fnGen s (.stream k)) (bump (streamPage k.val) 10 1 u)))
      ∧ creditFault u l k p = creditFault s l k p ∧ u.streams = s.streams)
  ∧ (∀ (s : State) (l : LinkId) (p : Packet) (k : Fin 64), p.opcode = 0x38 → mayTakeIn s (linkPort l) p = true →
    fld p.tag 0 6 = k.val → creditFault s l k p = none → tblWf {} s.streams.s = true →
    Completes (.landingCredit l p) s fun t =>
      (streamOf' t k).grants = (streamOf' s k).grants
        ++ [⟨l.val, fld p.tag 6 4, BitVec.ofNat 64 (p.addr.toNat / 65536 * 65536), fld p.addr 0 16⟩]
      ∧ tblGet 0 (streamOf' t k).balance l.val = tblGet 0 (streamOf' s k).balance l.val + 1
      ∧ (∀ j, j ≠ k → streamOf' t j = streamOf' s j) ∧ t.larder = s.larder)
  ∧ (∀ (s : State) (l : LinkId) (p : Packet) (k : Fin 64) (c : Nat), p.opcode = 0x38 → mayTakeIn s (linkPort l) p = true →
    fld p.tag 0 6 = k.val → creditFault s l k p = some c →
    Completes (.landingCredit l p) s fun t => t.streams = s.streams
      ∧ ∃ e, t.counts.sideband = s.counts.sideband ++ [e] ∧ e.code = 0x62 ∧ e.unit = BitVec.ofNat 16 k.val)
  ∧ (∀ (s : State) (d : DRef) (f : InFlight) (k : Fin 64), Startable s d 0x30 f → streamTarget f = some k →
    dGen f.desc = fnGen s (.stream k) →
    let u := modFlight d (fun x => { x with gen := fnGen s (.stream k) }) (started d s)
    (fnSt s (.stream k) = .off → programOk f.desc = true → storedSegs s k + fld f.desc 256 16 ≤ 16384 →
      exec (.streamProgram d) s = .next (hostRead (.obj d 0) (dWord f.desc 24) (64 * fld f.desc 256 16)
        (modFlight d (fun x => { x with waits := 1 }) u)))
      ∧ (fnSt s (.stream k) ≠ .off ∨ programOk f.desc = false → exec (.streamProgram d) s = .next (complete d stBad 0 u))
      ∧ (fnSt s (.stream k) = .off → programOk f.desc = true → 16384 < storedSegs s k + fld f.desc 256 16 →
        exec (.streamProgram d) s = .next (complete d stNoRoom 0 u)))
  ∧ (∀ (s : State) (d : DRef) (f : InFlight) (k : Fin 64), Startable s d 0x33 f → streamTarget f = some k →
    dGen f.desc = fnGen s (.stream k) → (streamOf' s k).tenant = some (dTenant s f) →
    let u := modFlight d (fun x => { x with gen := fnGen s (.stream k) }) (started d s)
    ((streamOf' s k).period = 0 → fnSt s (.stream k) = .on ∨ fnSt s (.stream k) = .starting →
      exec (.streamStart d) s = .next (modStream k (fun x => { x with starts := x.starts ++ [(d, prepDue s)] })
        (modFlight d (fun x => { x with waits := 1 }) u)))
      ∧ ((streamOf' s k).period = 0 → fnSt s (.stream k) = .off ∨ fnSt s (.stream k) = .stopping →
        exec (.streamStart d) s = .next (complete d stCancelled 0 u))
      ∧ ((streamOf' s k).period ≠ 0 → exec (.streamStart d) s = .next (complete d stBad 0 u)))
  ∧ (∀ (s : State) (d : DRef) (f : InFlight) (k : Fin 64), Startable s d 0x34 f → streamTarget f = some k →
    dGen f.desc = fnGen s (.stream k) → (streamOf' s k).tenant = some (dTenant s f) →
    exec (.streamQuery d) s = .next (complete d stOk (streamQueryWord s k)
      (modFlight d (fun x => { x with gen := fnGen s (.stream k) }) (started d s))))
  ∧ (∀ e ∈ ([(.streamProgram, 0x30), (.streamStart, 0x33), (.streamQuery, 0x34)] : List ((DRef → Instr) × BitVec 8)),
    ∀ (s : State) (d : DRef) (f : InFlight), Startable s d e.2 f →
    (streamTarget f = none → exec (e.1 d) s = .next (complete d stBad 0 (started d s)))
      ∧ (∀ k, streamTarget f = some k → dGen f.desc ≠ fnGen s (.stream k) →
        exec (e.1 d) s
          = .next (complete d stStaleGen 0 (modFlight d (fun x => { x with gen := fnGen s (.stream k) }) (started d s)))))

/-- R501, R503, R504, R505 and R508: a start whose boundary has come begins the next pass, and with a period the next pass begins at its
nominal start; the next segment of the pass starts when each member of its group holds a grant for its slot, consuming those grants and
binding the topcoat, and in a drain it is skipped. R512, R513, R517 to R521: a chunk read within the tick's allowance takes its bytes from it,
moves the segment on and enters the core, changing no memory; one beyond the allowance waits; a failed check or an uncorrectable word
ends the segment; a deadline that has passed ends it with LATE; a record not touched for age_limit + 8 ticks closes with its outstanding
chunks failed, and at a later boundary an attempt repairs them. A clause of no effect (NoEffect), where an event's condition does not
hold, is the model's choice (log 1). -/
def Obligations.StreamPassesSegmentsChunks : Prop :=
  ((∀ (s : State) (k : Fin 64) (d : DRef) (due : BitVec 48) (rest : List (DRef × BitVec 48)), s.tick.slot = 0 →
      fnSt s (.stream k) = .on → passesRead (streamOf' s k) = true → (streamOf' s k).period = 0 →
      (streamOf' s k).starts = (d, due) :: rest → workDue s d due = true → tblWf {} s.streams.s = true →
      Completes (.streamPassStart k) s fun t => (∃ sp, streamOf' t k = { streamOf' s k with
          starts := rest,
          passes := (streamOf' s k).passes ++ [{ num := (streamOf' s k).nextPass, start := sp, d := some d }],
          lastPass := (streamOf' s k).nextPass, nextPass := (streamOf' s k).nextPass + 1 }
          ∧ (∀ f, flightOf s d = some f → sp = if dTimed f.desc then dApply f.desc else due + s.tick.offset)
          ∧ (flightOf s d = none → sp = due + s.tick.offset))
        ∧ (∀ j, j ≠ k → streamOf' t j = streamOf' s j) ∧ t = { s with streams := t.streams, counts := t.counts })
    ∧ (∀ (s : State) (k : Fin 64), s.tick.slot = 0 → fnSt s (.stream k) = .on → passesRead (streamOf' s k) = true →
      (streamOf' s k).period ≠ 0 → tblWf {} s.streams.s = true →
      let sp := nominalStart (streamOf' s k) (streamOf' s k).nextPass
      (later sp (nowTick s) = true → NoEffect (.streamPassStart k) s)
        ∧ (later sp (nowTick s) = false → Completes (.streamPassStart k) s fun t => streamOf' t k = { streamOf' s k with
            passes := (streamOf' s k).passes ++ [{ num := (streamOf' s k).nextPass, start := sp, d := none }],
            lastPass := (streamOf' s k).nextPass, nextPass := (streamOf' s k).nextPass + 1 }
          ∧ t = { s with streams := t.streams, counts := t.counts }))
    ∧ (∀ (s : State) (k : Fin 64), (s.tick.slot ≠ 0 ∨ fnSt s (.stream k) ≠ .on ∨ passesRead (streamOf' s k) = false
        ∨ ((streamOf' s k).period = 0 ∧ ∀ x ∈ (streamOf' s k).starts, workDue s x.1 x.2 = false)) →
      NoEffect (.streamPassStart k) s)
    ∧ (∀ (s : State) (k : Fin 64) (p : Pass),
      (streamOf' s k).passes.find? (fun p => decide (p.next < (streamOf' s k).program.length)) = some p → s.tick.slot = 0 →
      fnSt s (.stream k) = .on → allRead (streamOf' s k) = true →
      let g := segOf s k p.next
      let ready := (segMembers s g).all (fun o => (streamOf' s k).grants.any (fun r => r.port = o.val && r.slot = g.slot))
      (s.attic.draining = true → exec (.streamSegmentStart k) s = .next (skipSeg k p.num p.next stDrained s))
        ∧ (s.attic.draining = false → (ready = true ∨ segAllowed s k g = false ∨ deadlinePast s p.start g = true) →
          exec (.streamSegmentStart k) s = .next (startSeg k p g s))
        ∧ (s.attic.draining = false → ready = false → segAllowed s k g = true → deadlinePast s p.start g = false →
          NoEffect (.streamSegmentStart k) s))
    ∧ (∀ (s : State) (k : Fin 64) (p : Pass),
      (streamOf' s k).passes.find? (fun p => decide (p.next < (streamOf' s k).program.length)) = some p → s.tick.slot = 0 →
      fnSt s (.stream k) = .on → allRead (streamOf' s k) = true → s.attic.draining = false →
      segAllowed s k (segOf s k p.next) = true → segMembers s (segOf s k p.next) ≠ [] → runAt s k p.num p.next = none →
      (∀ o ∈ segMembers s (segOf s k p.next), ∃ g ∈ (streamOf' s k).grants, g.port = o.val ∧ g.slot = (segOf s k p.next).slot) →
      (∀ g ∈ (streamOf' s k).grants, g.slot = (segOf s k p.next).slot → (segOf s k p.next).tgtLen + 8 ≤ g.size * 65536) →
      Completes (.streamSegmentStart k) s fun t => (∃ r, (streamOf' t k).segs = (streamOf' s k).segs ++ [r] ∧ r.pass = p.num
          ∧ r.seg = p.next ∧ r.start = p.start ∧ r.coat = s.route.top.num ∧ r.chunks = chunkCount (segOf s k p.next)
          ∧ r.next = 0 ∧ r.shares.map (·.out) = segMembers s (segOf s k p.next)
          ∧ ∀ x ∈ r.shares, x.status = none ∧ ∃ g, x.grant = some g ∧ g ∈ (streamOf' s k).grants ∧ g ∉ (streamOf' t k).grants)
        ∧ HostOnly { s with streams := t.streams } t)
    ∧ (∀ (s : State) (k : Fin 64), ((streamOf' s k).passes = [] ∨ s.tick.slot ≠ 0 ∨ allRead (streamOf' s k) = false) →
      NoEffect (.streamSegmentStart k) s))
  ∧ ((∀ (s : State) (k : Fin 64) (r : SegRun) (c : Nat) (dest : Option PortId), let u := settled s
      nextChunk (streamOf' u k) = some (r, c, dest) →
      let g := segOf u k r.seg
      let t := (streamOf' u k).tenant.getD 0
      let off := if dest.isNone && g.sSpec.coding = 1 then r.off else chunkOff g r c
      let len := chunkLen u t (coatFor u r.coat) g off c
      ((streamOf' u k).allowance < len → exec (.streamChunkRead k) s = .next u)
        ∧ (len ≤ (streamOf' u k).allowance →
          (∀ st, checkRange u (coatFor u r.coat) t (addrOff g.src + off) len .stream = .fail st →
            exec (.streamChunkRead k) s = .next (endAll k r.pass r.seg (if st = stHalt then stHalt else stDenied) u))
          ∧ (∀ pl, checkRange u (coatFor u r.coat) t (addrOff g.src + off) len .stream = .ok pl →
            let v := translateAll r.coat t (addrOff g.src + off) pl (countPlace .stream false (some t) pl u)
            (∀ bs, placeRead v pl len = some bs →
              exec (.streamChunkRead k) s = .next (sendChunk k g r c dest (placePort pl) bs (chunkTaken k r c len dest v)))
            ∧ (placeRead v pl len = none → exec (.streamChunkRead k) s = .next (endAll k r.pass r.seg stDataError
                (foundBad 8 (g.src + BitVec.ofNat 64 off) pl (chunkTaken k r c len dest v)))))))
    ∧ (∀ (s : State) (k : Fin 64), nextChunk (streamOf' (settled s) k) = none →
      exec (.streamChunkRead k) s = .next (settled s))
    ∧ (∀ s : State, s.tick.todo = [] → settled s = s)
    ∧ (∀ (s : State) (k : Fin 64) (r : SegRun) (c : Nat) (runs : List (Nat × Nat)) (bs : List Byte), s.tick.todo = [] →
      nextChunk (streamOf' s k) = some (r, c, none) → (segOf s k r.seg).sSpec.coding ≠ 1 →
      let g := segOf s k r.seg
      let off := chunkOff g r c
      let len := storedOf g (chunkTgt g c)
      len ≤ (streamOf' s k).allowance →
      checkRange s (coatFor s r.coat) ((streamOf' s k).tenant.getD 0) (addrOff g.src + off) len .stream = .ok (.larder runs) →
      placeRead s (.larder runs) len = some bs →
      Completes (.streamChunkRead k) s fun t => (streamOf' t k).allowance = (streamOf' s k).allowance - len
        ∧ (streamOf' t k).segs = (streamOf' s k).segs.map (fun y => if y.pass = r.pass && y.seg = r.seg then
            { y with next := y.next + 1, off := y.off + len, offs := y.offs ++ [y.off], last := s.tick.elapsed } else y)
        ∧ t.larder.mem = s.larder.mem ∧ t.work = s.work)
    ∧ (∀ (s : State) (k : Fin 64) (seg : BitVec 12) (r : SegRun), oldestRun s k seg.toNat = some r → s.tick.slot = 0 →
      deadlinePast s r.start (segOf s k r.seg) = true →
      exec (.streamDeadline k seg) s = .next (endAll k r.pass r.seg stLate s))
    ∧ (∀ (s : State) (k : Fin 64) (pass : BitVec 32) (seg : Nat) (r : SegRun) (st : BitVec 8), runAt s k pass seg = some r →
      tblWf {} s.streams.s = true →
      let t := endAll k pass seg st s
      runAt t k pass seg = none ∧ t.larder = s.larder ∧ t.work = s.work)
    ∧ (∀ (s : State) (k : Fin 64) (seg : BitVec 12), (∀ r, oldestRun s k seg.toNat = some r →
        deadlinePast s r.start (segOf s k r.seg) = false ∨ s.tick.slot ≠ 0) → NoEffect (.streamDeadline k seg) s)
    ∧ (∀ (s : State) (k : Fin 64) (seg : BitVec 12) (r : SegRun), oldestRun s k seg.toNat = some r → r.next = r.chunks →
      r.closed = none → ageLimit s + 8 ≤ ageOf s r.last → (∀ x ∈ r.shares, x.repair = []) →
      exec (.streamRecordTimeout k seg) s
        = .next (closeSeg k r.pass r.seg (modRun k r.pass r.seg (fun r => { r with shares := r.shares.map (fun x =>
          { x with failed := x.failed ++ (upFrom 0 r.chunks).filter (fun c => !x.failed.contains c && !x.delivered.contains c) }) }) s)))
    ∧ (∀ (s : State) (k : Fin 64) (seg : BitVec 12) (r : SegRun), oldestRun s k seg.toNat = some r → r.next = r.chunks →
      r.closed = none → r.shares ≠ [] → ageLimit s + 8 ≤ ageOf s r.last →
      (∀ x ∈ r.shares, x.repair = [] ∧ x.status = none ∧ x.delivered = [] ∧ x.failed = []
        ∧ x.attempts < (streamOf' s k).repairLimit) →
      Completes (.streamRecordTimeout k seg) s fun t =>
        runAt t k r.pass r.seg = some { r with
          closed := some s.tick.elapsed, shares := r.shares.map (fun x => { x with failed := upFrom 0 r.chunks }) }
        ∧ t = { s with streams := t.streams })
    ∧ (∀ (s : State) (k : Fin 64) (seg : BitVec 12), (∀ r, oldestRun s k seg.toNat = some r →
        r.next ≠ r.chunks ∨ r.closed.isSome = true ∨ ageOf s r.last < ageLimit s + 8) → NoEffect (.streamRecordTimeout k seg) s)
    ∧ (∀ (s : State) (k : Fin 64) (seg : BitVec 12) (r : SegRun) (b : BitVec 48), oldestRun s k seg.toNat = some r →
      s.tick.slot = 0 → r.closed = some b → b ≠ s.tick.elapsed →
      deadlinePast s r.start (segOf s k r.seg) = false →
      (∀ x ∈ r.shares, x.status = none → x.failed ≠ [] → outUp s x.out = true) →
      exec (.streamRepairStart k seg) s = .next (settleSeg k r.pass r.seg (modRun k r.pass r.seg (fun r =>
        { r with closed := none, last := s.tick.elapsed, shares := r.shares.map (fun x =>
          if x.status.isNone && !x.failed.isEmpty then
            { x with repair := x.failed, failed := [], attempts := x.attempts + 1 } else x) }) s)))
    ∧ (∀ (s : State) (k : Fin 64) (seg : BitVec 12) (r : SegRun) (b : BitVec 48), oldestRun s k seg.toNat = some r →
      s.tick.slot = 0 → r.closed = some b → b ≠ s.tick.elapsed → r.shares ≠ [] →
      deadlinePast s r.start (segOf s k r.seg) = false →
      (∀ x ∈ r.shares, x.status = none ∧ x.failed ≠ [] ∧ outUp s x.out = true) →
      Completes (.streamRepairStart k seg) s fun t =>
        runAt t k r.pass r.seg = some { r with
          closed := none, last := s.tick.elapsed,
          shares := r.shares.map (fun x => { x with repair := x.failed, failed := [], attempts := x.attempts + 1 }) }
        ∧ t = { s with streams := t.streams })
    ∧ (∀ (s : State) (k : Fin 64) (seg : BitVec 12), (∀ r, oldestRun s k seg.toNat = some r →
        r.closed = none ∨ r.closed = some s.tick.elapsed ∨ s.tick.slot ≠ 0) → NoEffect (.streamRepairStart k seg) s))

/-- R544, R545, R550 to R552: KERNEL_LOAD binds its slot to the ring's tenant with the body's fields; KERNEL_RUN is
admitted at once under the slot's next run number; KERNEL_QUERY answers the slot's word. R544, R563: the sequence
descriptors that pass their checks wait for their boundary, a SEQ_PAGES with words after its read, and change no byte
until then; one of another tenant's entry ends with DENIED, and every other check that fails with its status. R546, R548 and R535: the code that came from the host
stands in every array of the mask, and no other byte changes (R537: where the copy need not wait for fabric accesses); an array that has been zeroed reads zero with its
threads' registers at zero, and no other array changes. A clause of no effect (NoEffect), where an event's condition
does not hold, is the model's choice (log 1). -/
def Obligations.KernelsAndSequences : Prop :=
  ((∀ (s : State) (d : DRef) (f : InFlight) (k : Fin 256), Startable s d 0x40 f → kernelTarget f = some k →
      dGen f.desc = fnGen s (.kernel k) → fnSt s (.kernel k) = .off → loadOk f.desc = true →
      Completes (.kernelLoad d) s fun t => (kernelAt t k).loaded = true ∧ (kernelAt t k).tenant = dTenant s f
        ∧ (kernelAt t k).lib = (if bit f.desc 310 then fld f.desc 192 8 else 0) ∧ (kernelAt t k).launchEn = bit f.desc 311
        ∧ (kernelAt t k).code = dWord f.desc 24 ∧ (kernelAt t k).codeLen = fld f.desc 256 32
        ∧ (kernelAt t k).codeOff = fld f.desc 288 22 ∧ (kernelAt t k).arrays = dWord f.desc 40
        ∧ (kernelAt t k).threadsMax = fld f.desc 384 12 ∧ (kernelAt t k).runLimit = fld f.desc 416 32
        ∧ (kernelAt t k).entry = fld f.desc 448 32 ∧ (∀ j, j ≠ k → kernelAt t j = kernelAt s j)
        ∧ t.work.mem = s.work.mem ∧ t.work.thr = s.work.thr ∧ flightOf t d = none ∧ HostOnly { s with work := t.work } t)
    ∧ (∀ (s : State) (d : DRef) (f : InFlight) (k : Fin 256), Startable s d 0x40 f → kernelTarget f = some k →
      dGen f.desc = fnGen s (.kernel k) → fnSt s (.kernel k) ≠ .off ∨ loadOk f.desc = false →
      exec (.kernelLoad d) s
        = .next (complete d stBad 0 (modFlight d (fun x => { x with gen := fnGen s (.kernel k) }) (started d s))))
    ∧ (∀ (s : State) (d : DRef) (f : InFlight) (k : Fin 256), Startable s d 0x43 f → kernelTarget f = some k →
      dGen f.desc = fnGen s (.kernel k) → (kernelAt s k).loaded = true → (kernelAt s k).tenant = dTenant s f →
      runBodyOk (kernelAt s k) f.desc = true → (kernelAt s k).lib ≠ 1 → fnSt s (.kernel k) = .on →
      Completes (.kernelRun d) s fun t => kernelAt t k = { kernelAt s k with
          nextRun := (kernelAt s k).nextRun + 1,
          runs := (kernelAt s k).runs ++ [{ num := (kernelAt s k).nextRun, gen := fnGen s (.kernel k), by_ := .desc d,
                                            threads := fld f.desc 256 12, args := [], ready := fld f.desc 272 8 = 0 }] }
        ∧ (∃ f', flightOf t d = some f' ∧ f'.waits = 1) ∧ t.work.mem = s.work.mem ∧ HostOnly { s with work := t.work } t)
    ∧ (∀ (s : State) (d : DRef) (f : InFlight) (k : Fin 256), Startable s d 0x43 f → kernelTarget f = some k →
      dGen f.desc = fnGen s (.kernel k) → (kernelAt s k).loaded = true → (kernelAt s k).tenant = dTenant s f →
      let u := modFlight d (fun x => { x with gen := fnGen s (.kernel k) }) (started d s)
      let n := fld f.desc 272 8
      (runBodyOk (kernelAt s k) f.desc = false → exec (.kernelRun d) s = .next (complete d stBad 0 u))
        ∧ (runBodyOk (kernelAt s k) f.desc = true → (kernelAt s k).lib = 1 → exec (.kernelRun d) s = .next (complete d stDenied 0 u))
        ∧ (runBodyOk (kernelAt s k) f.desc = true → (kernelAt s k).lib ≠ 1 → fnSt s (.kernel k) = .off ∨ fnSt s (.kernel k) = .stopping →
          exec (.kernelRun d) s = .next (complete d stCancelled 0 u))
        ∧ (runBodyOk (kernelAt s k) f.desc = true → (kernelAt s k).lib ≠ 1 → fnSt s (.kernel k) = .on ∨ fnSt s (.kernel k) = .starting →
          let v := (admitRun k (.desc d) (fld f.desc 256 12) [] (n = 0) (modFlight d (fun x => { x with waits := 1 }) u)).2
          exec (.kernelRun d) s = .next (if n = 0 then v else hostRead (.obj d 0) (dWord f.desc 24) n v)))
    ∧ (∀ e ∈ ([(.kernelLoad, 0x40), (.kernelRun, 0x43), (.kernelQuery, 0x44)] : List ((DRef → Instr) × BitVec 8)),
      ∀ (s : State) (d : DRef) (f : InFlight), Startable s d e.2 f →
      (kernelTarget f = none → exec (e.1 d) s = .next (complete d stBad 0 (started d s)))
        ∧ (∀ k, kernelTarget f = some k →
          let u := modFlight d (fun x => { x with gen := fnGen s (.kernel k) }) (started d s)
          (dGen f.desc ≠ fnGen s (.kernel k) → exec (e.1 d) s = .next (complete d stStaleGen 0 u))
            ∧ (e.2 ≠ 0x40 → dGen f.desc = fnGen s (.kernel k) → (kernelAt s k).loaded = false ∨ (kernelAt s k).tenant ≠ dTenant s f →
              exec (e.1 d) s = .next (complete d stDenied 0 u))))
    ∧ (∀ (s : State) (d : DRef) (f : InFlight) (k : Fin 256), Startable s d 0x44 f → kernelTarget f = some k →
      dGen f.desc = fnGen s (.kernel k) → (kernelAt s k).loaded = true → (kernelAt s k).tenant = dTenant s f →
      exec (.kernelQuery d) s = .next (complete d stOk (kernelQueryWord s k)
        (modFlight d (fun x => { x with gen := fnGen s (.kernel k) }) (started d s)))))
  ∧ ((∀ (s : State) (d : DRef) (f : InFlight) (i : Nat), Startable s d 0x48 f → seqTarget f = some i →
      let h := seqFields (seqHdr s i)
      let u := modFlight d (fun x => { x with gen := h.gen }) (started d s)
      (seqForeign h (dTenant s f) = false → seqSetOk s f = true →
        exec (.seqSet d) s = .next (seqWait d [] (modFlight d (fun x => { x with waits := 1 }) u)))
        ∧ (seqForeign h (dTenant s f) = true → exec (.seqSet d) s = .next (complete d stDenied 0 u))
        ∧ (seqForeign h (dTenant s f) = false → seqSetOk s f = false → exec (.seqSet d) s = .next (complete d stBad 0 u)))
    ∧ (∀ (s : State) (d : DRef) (f : InFlight) (i : Nat), Startable s d 0x49 f → seqTarget f = some i →
      let h := seqFields (seqHdr s i)
      let u := modFlight d (fun x => { x with gen := h.gen }) (started d s)
      let w := modFlight d (fun x => { x with waits := 1 }) u
      (dGen f.desc ≠ h.gen → exec (.seqPages d) s = .next (complete d stStaleGen 0 u))
        ∧ (dGen f.desc = h.gen → h.valid = false ∨ h.tenant ≠ dTenant s f → exec (.seqPages d) s = .next (complete d stDenied 0 u))
        ∧ (dGen f.desc = h.gen → h.valid = true → h.tenant = dTenant s f →
          (seqPagesOk h f.desc = false → exec (.seqPages d) s = .next (complete d stBad 0 u))
          ∧ (seqPagesOk h f.desc = true → fld f.desc 288 16 ≠ 0 →
            exec (.seqPages d) s = .next (hostRead (.obj d 0) (dWord f.desc 24) (8 * fld f.desc 288 16) w))
          ∧ (seqPagesOk h f.desc = true → fld f.desc 288 16 = 0 → exec (.seqPages d) s = .next (seqWait d [] w))))
    ∧ (∀ (s : State) (d : DRef) (f : InFlight) (i : Nat), Startable s d 0x4A f → seqTarget f = some i →
      let h := seqFields (seqHdr s i)
      let u := modFlight d (fun x => { x with gen := h.gen }) (started d s)
      (h.valid = true → h.tenant = dTenant s f →
        exec (.seqClear d) s = .next (seqWait d [] (modFlight d (fun x => { x with waits := 1 }) u)))
        ∧ (h.valid = false ∨ h.tenant ≠ dTenant s f → exec (.seqClear d) s = .next (complete d stDenied 0 u)))
    ∧ (∀ e ∈ ([(.seqSet, 0x48), (.seqPages, 0x49), (.seqClear, 0x4A)] : List ((DRef → Instr) × BitVec 8)),
      ∀ (s : State) (d : DRef) (f : InFlight), Startable s d e.2 f → seqTarget f = none →
      exec (e.1 d) s = .next (complete d stBad 0 (started d s)))
    ∧ (∀ (s : State) (d : DRef) (ws : List Byte), (seqWait d ws s).work.seqs = s.work.seqs ++ [⟨d, prepDue s, ws⟩]
      ∧ seqWait d ws s = { s with work := { s.work with seqs := (seqWait d ws s).work.seqs } }))
  ∧ ((∀ (s : State) (k : Fin 256), fnSt s (.kernel k) = .starting → (kernelAt s k).fetched = some stOk →
      (kernelAt s k).copied = none → maskZeroing s (kernelAt s k) = false →
      copyFirst s = true ∨ (∀ a, a < 64 → bit (kernelAt s k).arrays a = true → fabricWaits s a = false) → s.work.badWord = [] → s.work.memWf = true →
      (kernelAt s k).codeOff + (kernelAt s k).bytes.length ≤ 0x400000 →
      Completes (.kernelCodeCopyDone k) s fun t =>
        (∀ a, a < 64 → bit (kernelAt s k).arrays a = true →
          memRead t.work.mem (arrayBase a + (kernelAt s k).codeOff) (kernelAt s k).bytes.length = (kernelAt s k).bytes)
        ∧ (∀ x, (∀ a, a < 64 → bit (kernelAt s k).arrays a = true → x < arrayBase a + (kernelAt s k).codeOff
              ∨ arrayBase a + (kernelAt s k).codeOff + (kernelAt s k).bytes.length ≤ x) →
            tblGet 0 t.work.mem x = tblGet 0 s.work.mem x)
        ∧ kernelAt t k = { kernelAt s k with copied := some s.tick.elapsed } ∧ t.work.memWf = true
        ∧ t = { s with work := t.work })
    ∧ (∀ (s : State) (k : Fin 256), (fnSt s (.kernel k) ≠ .starting ∨ (kernelAt s k).fetched ≠ some stOk ∨ (kernelAt s k).copied.isSome = true
        ∨ maskZeroing s (kernelAt s k) = true) →
      NoEffect (.kernelCodeCopyDone k) s)
    ∧ (∀ (s : State) (a : Fin 64), s.work.zeroing.any (fun z => z.1 = a.val) = true →
      copyFirst s = true ∨ fabricWaits s a.val = false →
      Completes (.arrayZeroDone a) s fun t =>
        (∀ x, arrayBase a.val ≤ x → x < arrayBase (a.val + 1) → tblGet 0 t.work.mem x = 0)
        ∧ (∀ x, x < arrayBase a.val ∨ arrayBase (a.val + 1) ≤ x → tblGet 0 t.work.mem x = tblGet 0 s.work.mem x)
        ∧ (∀ h : Fin 32, thr t ⟨a, h⟩ = {}) ∧ (∀ (b : Fin 64) (h : Fin 32), b ≠ a → thr t ⟨b, h⟩ = thr s ⟨b, h⟩)
        ∧ (s.work.memWf = true → t.work.memWf = true) ∧ t = { s with work := t.work })
    ∧ (∀ (s : State) (a : Fin 64), (s.work.zeroing.any (fun z => z.1 = a.val) = false
        ∨ (copyFirst s = false ∧ fabricWaits s a.val = true)) → NoEffect (.arrayZeroDone a) s))

/-- R549, R550, R552, R564 to R566: a LAUNCH that its checks admit becomes a run of its kernel under the next number,
which its answer carries; an ATTN_QUERY that its checks admit becomes a run of the entry's kernel. R553, Table 15-10,
R555: a run starts once enough hardware threads are free, on as many threads as it asked for, each with its index and
its start values; a run past its limit faults with cause 0x07. A clause of no effect (NoEffect), where an event's
condition does not hold, is the model's choice (log 1). -/
def Obligations.RunsAdmittedStartedExpired : Prop :=
  ((∀ (s : State) (port : PortId) (p : Packet) (k : Fin 256), p.opcode = 0x10 → launchFirst s port p = true → addrTarget p 8 = k.val →
      let u := takeDelivered p s
      let w := leAt p.payload 0 8
      let fits := (kernelAt s k).loaded && (kernelAt s k).tenant = p.tenant && (kernelAt s k).launchEn && (kernelAt s k).lib = 0
        && launchOk (kernelAt s k) p
      (fits = true → admitStatus u k p.gen (fnGen u (.kernel k)) p.tenant = none →
        let v := (admitRun k (.pkt (bitsOf w 24 1 = 1) (BitVec.ofNat 64 (leAt p.payload 8 8))) (bitsOf w 0 12)
          (slice p.payload 32 (bitsOf w 16 8)) true u).2
        exec (.launchPkt port p) s = .next (inject (localPort u p) { answerTo v 0x90 p with
            addr := (kernelAt s k).nextRun.setWidth 64, itemLen := 0 } v))
        ∧ (fits = false → exec (.launchPkt port p) s = .next (launchRefuse k (localPort u p) stDenied p u))
        ∧ (∀ st, fits = true → admitStatus u k p.gen (fnGen u (.kernel k)) p.tenant = some st →
          exec (.launchPkt port p) s = .next (launchRefuse k (localPort u p) st p u)))
    ∧ (∀ (s : State) (port : PortId) (p : Packet) (k : Fin 256), p.opcode = 0x10 → launchFirst s port p = true →
      addrTarget p 8 = k.val → (kernelAt s k).loaded = true → (kernelAt s k).tenant = p.tenant →
      (kernelAt s k).launchEn = true → (kernelAt s k).lib = 0 → launchOk (kernelAt s k) p = true →
      admitStatus s k p.gen (fnGen s (.kernel k)) p.tenant = none →
      let w := leAt p.payload 0 8
      Completes (.launchPkt port p) s fun t => kernelAt t k = { kernelAt s k with
          nextRun := (kernelAt s k).nextRun + 1,
          runs := (kernelAt s k).runs ++ [{
            num := (kernelAt s k).nextRun, gen := fnGen s (.kernel k),
            by_ := .pkt (bitsOf w 24 1 = 1) (BitVec.ofNat 64 (leAt p.payload 8 8)), threads := bitsOf w 0 12,
            args := slice p.payload 32 (bitsOf w 16 8), ready := true }] }
        ∧ t.work.mem = s.work.mem ∧ t.larder = s.larder)
    ∧ (∀ (s : State) (port : PortId) (p : Packet) (k : Fin 256), p.opcode = 0x10 → launchFirst s port p = true →
      addrTarget p 8 = k.val → (kernelAt s k).launchEn = false →
      Completes (.launchPkt port p) s fun t => t.work = s.work ∧ t.larder = s.larder)
    ∧ (∀ (s : State) (port : PortId) (p : Packet), p.opcode ≠ 0x10 ∨ launchFirst s port p = false → NoEffect (.launchPkt port p) s)
    ∧ (∀ (s : State) (port : PortId) (p : Packet) (k : Fin 256), p.opcode = 0x11 → launchFirst s port p = true →
      let u := takeDelivered p s
      let i := addrTarget p 12
      let h := seqFields (seqHdr s i)
      let r := queryPages (tokensPerPage (specOf h.kvFmt).fmt h.headDim) (leAt p.payload 4 4) (leAt p.payload 8 4)
      let ws := queryWords s i h (leAt p.payload 0 2) r
      let fits := h.valid && h.tenant = p.tenant && (kernelAt s k).loaded && (kernelAt s k).lib = 1 && (kernelAt s k).tenant = p.tenant
        && queryOk h p && ws.all (fun w => bit w 0)
      let deny := fun st => sendFail (localPort u p) st p (countRefused p.tenant st u)
      h.kernel = k.val →
      (fits = true → admitStatus u k p.gen h.gen p.tenant = none →
        exec (.attnQuery port p) s = .next (admitRun k (.query p (specOf h.kvFmt).fmt h.headDim ws)
          (max 1 (min r.2 (kernelAt s k).threadsMax)) [] true u).2)
        ∧ (fits = false → exec (.attnQuery port p) s = .next (deny stDenied))
        ∧ (∀ st, fits = true → admitStatus u k p.gen h.gen p.tenant = some st → exec (.attnQuery port p) s = .next (deny st)))
    ∧ (∀ (s : State) (port : PortId) (p : Packet), p.opcode ≠ 0x11 ∨ launchFirst s port p = false → NoEffect (.attnQuery port p) s)
    ∧ (∀ (s : State) (k : Fin 256) (b : Launcher) (n : Nat) (args : List Byte) (ready : Bool),
      (admitRun k b n args ready s).1 = (kernelAt s k).nextRun
        ∧ kernelAt (admitRun k b n args ready s).2 k = { kernelAt s k with
            nextRun := (kernelAt s k).nextRun + 1,
            runs := (kernelAt s k).runs ++ [{ num := (kernelAt s k).nextRun, gen := fnGen s (.kernel k), by_ := b, threads := n, args := args, ready := ready }] }
        ∧ (admitRun k b n args ready s).2 = { s with
            work := { s.work with kernel := (admitRun k b n args ready s).2.work.kernel }, counts := (admitRun k b n args ready s).2.counts }))
  ∧ ((∀ (s : State) (k : Fin 256) (r : Run), waitingRun s k = some r → workRun s k r.num = some r → (kernelAt s k).lib = 0 →
      r.threads ≤ (freeThreadsOf s (kernelAt s k).arrays).length → yields s k (kernelAt s k) = false →
      Completes (.runStart k) s fun t => workRun t k r.num = some { r with
          started := true, startTick := s.tick.elapsed, startNs := s.tick.ns }
        ∧ (∀ (i : Nat) (x : Thr), (freeThreadsOf s (kernelAt s k).arrays)[i]? = some x → i < r.threads →
            thr t x = startThread k (kernelAt s k) r x i)
        ∧ t.work.mem = s.work.mem ∧ t = { s with work := t.work, counts := t.counts })
    ∧ (∀ (s : State) (k : Fin 256) (r : Run), waitingRun s k = some r →
      r.threads ≤ (freeThreadsOf s (kernelAt s k).arrays).length → yields s k (kernelAt s k) = false →
      let ts := (freeThreadsOf s (kernelAt s k).arrays).take r.threads
      let x := ts.headD ⟨0, 0⟩
      let u := modWorkRun k r.num (fun r => { r with started := true, startTick := s.tick.elapsed, startNs := s.tick.ns })
        (bump (kernelPage k.val) 3 r.threads (bump (kernelPage k.val) 2 1 (placeThreads k (kernelAt s k) r ts s)))
      ((kernelAt s k).lib = 0 → exec (.runStart k) s = .next u)
        ∧ (∀ bs w, (kernelAt s k).lib ≠ 0 → libWork x k (kernelAt s k) r u = .ok bs w →
          exec (.runStart k) s = .next (settleRun k r.num (modWorkRun k r.num (fun r => { r with out := bs }) w)))
        ∧ (∀ c a w, (kernelAt s k).lib ≠ 0 → libWork x k (kernelAt s k) r u = .bad c a w →
          exec (.runStart k) s = .next (fault x c a w)))
    ∧ (∀ (s : State) (k : Fin 256), (∀ r, waitingRun s k = some r →
        (freeThreadsOf s (kernelAt s k).arrays).length < r.threads ∨ yields s k (kernelAt s k) = true) → NoEffect (.runStart k) s)
    ∧ (∀ (s : State) (k : Fin 256) (n : BitVec 32) (r : Run) (x : Thr), workRun s k n = some r → r.started = true →
      r.status = stOk → (kernelAt s k).runLimit ≤ ageOf s r.startTick → limitThread s k r = some x →
      exec (.runLimitExpired k n) s = .next (fault x 0x07 (thr s x).pc s))
    ∧ (∀ (s : State) (k : Fin 256) (n : BitVec 32) (r : Run), workRun s k n = some r →
      (ageOf s r.startTick < (kernelAt s k).runLimit ∨ r.started = false ∨ r.status ≠ stOk) → NoEffect (.runLimitExpired k n) s))

/-- R570, Table 16-1: fields and words agree in both directions, so no bit of an instruction word is dropped. -/
def Obligations.IsaWordFieldsAgree : Prop :=
  (∀ i : IWord, decodeWord (encodeWord i) = i) ∧ (∀ w : Word, encodeWord (decodeWord w) = w)

/-- Table 16-7, R576: the integer instructions of the scalar class write their result to sd, and nothing else of the
thread but the counter changes. Table 16-7, R364, R365, R575, R577: the FP32 instructions of the scalar class write
their result and OR their flags in; FLT is 0 where an operand is a NaN. -/
def Obligations.ScalarResults : Prop :=
  ((∀ e ∈ ([(.add, 0x00, fun a b => a + b), (.sub, 0x01, fun a b => a - b),
        (.mul, 0x02, fun a b => BitVec.ofNat 64 (a.toNat * b.toNat)),
        (.mulhu, 0x03, fun a b => BitVec.ofNat 64 (a.toNat * b.toNat / 2 ^ 64)), (.and, 0x04, fun a b => a &&& b),
        (.or, 0x05, fun a b => a ||| b), (.xor, 0x06, fun a b => a ^^^ b), (.shl, 0x07, fun a b => a <<< (b.toNat % 64)),
        (.shr, 0x08, fun a b => a >>> (b.toNat % 64)),
        (.sar, 0x09, fun a b => BitVec.ofInt 64 (a.toInt / 2 ^ (b.toNat % 64))),
        (.min, 0x0A, fun a b => if a.toInt < b.toInt then a else b), (.max, 0x0B, fun a b => if a.toInt < b.toInt then b else a),
        (.minu, 0x0C, fun a b => if a.toNat < b.toNat then a else b), (.maxu, 0x0D, fun a b => if a.toNat < b.toNat then b else a),
        (.slt, 0x0E, fun a b => if a.toInt < b.toInt then 1 else 0), (.sltu, 0x0F, fun a b => if a.toNat < b.toNat then 1 else 0)]
        : List ((Thr → Instr) × Nat × (Word → Word → Word))),
      ∀ (s : State) (t : Thr) (i : IWord), Issues s t 0 e.2.1 i →
      Completes (e.1 t) s (ThreadStep s t
        ((thr s t).putS i.d.toNat (e.2.2 ((thr s t).sReg i.a.toNat) ((thr s t).sReg i.b.toNat))).next))
    ∧ (∀ e ∈ ([(.addi, 0x10, fun a b => a + b), (.andi, 0x11, fun a b => a &&& b), (.ori, 0x12, fun a b => a ||| b),
        (.xori, 0x13, fun a b => a ^^^ b), (.shli, 0x14, fun a b => a <<< (b.toNat % 64)),
        (.shri, 0x15, fun a b => a >>> (b.toNat % 64)), (.sari, 0x16, fun a b => BitVec.ofInt 64 (a.toInt / 2 ^ (b.toNat % 64))),
        (.li, 0x17, fun _ b => b)]
        : List ((Thr → Instr) × Nat × (Word → Word → Word))),
      ∀ (s : State) (t : Thr) (i : IWord), Issues s t 0 e.2.1 i →
      Completes (e.1 t) s (ThreadStep s t
        ((thr s t).putS i.d.toNat (e.2.2 ((thr s t).sReg i.a.toNat) (i.low.signExtend 64))).next))
    ∧ (∀ (s : State) (t : Thr) (i : IWord), Issues s t 0 0x18 i →
      Completes (.lih t) s fun s' => ∃ x : Word, x.toNat = i.low.toNat * 2 ^ 32 + ((thr s t).sReg i.d.toNat).toNat % 2 ^ 32
        ∧ ThreadStep s t ((thr s t).putS i.d.toNat x).next s'))
  ∧ ((∀ e ∈ ([(.fadd, 0x19, fun m z a b _ => fpAdd fp32 m z a b), (.fsub, 0x1A, fun m z a b _ => fpSub fp32 m z a b),
        (.fmul, 0x1B, fun m z a b _ => fpMul fp32 m z a b), (.fma, 0x1C, fun m z a b c => fpFma fp32 m z a b c)]
        : List ((Thr → Instr) × Nat × (Rnd → Bool → Nat → Nat → Nat → Nat × FpFlags))),
      ∀ (s : State) (t : Thr) (i : IWord), Issues s t 0 e.2.1 i →
      let h := thr s t
      let r := e.2.2 (rndOf i.rnd) i.sat ((h.sReg i.a.toNat).toNat % 2 ^ 32) ((h.sReg i.b.toNat).toNat % 2 ^ 32)
        ((h.sReg i.c.toNat).toNat % 2 ^ 32)
      Completes (e.1 t) s (ThreadStep s t { (h.putS i.d.toNat (BitVec.ofNat 64 r.1)) with
        flags := h.flags ||| r.2, pc := h.pc + 1 }))
    ∧ (∀ (s : State) (t : Thr) (i : IWord), Issues s t 0 0x1D i →
      let h := thr s t
      let a := decodeFp fp32 ((h.sReg i.a.toNat).toNat % 2 ^ 32)
      let b := decodeFp fp32 ((h.sReg i.b.toNat).toNat % 2 ^ 32)
      Completes (.flt t) s fun s' => ∃ x : Word, x = (if a.lt b then 1 else 0) ∧ (a.isNan = true ∨ b.isNan = true → x = 0)
        ∧ ThreadStep s t (h.putS i.d.toNat x).next s')
    ∧ (∀ (s : State) (t : Thr) (i : IWord), Issues s t 0 0x1E i →
      let h := thr s t
      let r := encodeFp fp32 (rndOf i.rnd) false (fpOfInt (h.sReg i.a.toNat).toInt)
      Completes (.itof t) s (ThreadStep s t { (h.putS i.d.toNat (BitVec.ofNat 64 r.1)) with
        flags := h.flags ||| r.2, pc := h.pc + 1 }))
    ∧ (∀ (s : State) (t : Thr) (i : IWord), Issues s t 0 0x1F i →
      let h := thr s t
      let r := fpToInt (rndOf i.rnd) (-(2 : Int) ^ 63) (2 ^ 63 - 1) (decodeFp fp32 ((h.sReg i.a.toNat).toNat % 2 ^ 32))
      Completes (.ftoi t) s (ThreadStep s t { (h.putS i.d.toNat (BitVec.ofInt 64 r.1)) with
        flags := h.flags ||| r.2, pc := h.pc + 1 })))

/-- R572, R573, R578, Table 16-8: an arithmetic instruction of the vector class writes, in each lane that its guard holds,
the element operation on the same lane of its sources, and leaves every other lane and register as it was. -/
def Obligations.VectorArithmeticLanes : Prop :=
  ∀ e ∈ ([(.vadd, 0x00, elemLane elemAdd), (.vsub, 0x01, elemLane elemSub), (.vmul, 0x02, elemLane elemMul),
      (.vfma, 0x03, elemLane elemFma), (.vmin, 0x04, elemLane (fun f _ _ => elemMinMax false f)),
      (.vmax, 0x05, elemLane (fun f _ _ => elemMinMax true f)), (.vabs, 0x06, elemLane (fun f _ z => elemAbs f z)),
      (.vneg, 0x07, elemLane (fun f _ z => elemNeg f z)), (.vshl, 0x0B, elemLane (fun f _ _ => elemShl f)),
      (.vshr, 0x0C, elemLane (fun f _ _ => elemShr f)), (.vsar, 0x0D, elemLane (fun f _ _ => elemSar f)),
      (.vexp, 0x14, funLane fpExp), (.vexp2, 0x15, funLane fpExp2), (.vlog2, 0x16, funLane fpLog2), (.vrcp, 0x17, funLane fpRcp),
      (.vrsqrt, 0x18, funLane fpRsqrt), (.vsqrt, 0x19, funLane fpSqrt)]
      : List ((Thr → Instr) × Nat × (IWord → Thread → Nat → BitVec 32))),
    ∀ (s : State) (t : Thr) (i : IWord), Issues s t 1 e.2.1 i → tblWf 0 (thr s t).v = true →
    Completes (e.1 t) s fun s' => ∃ h', ThreadStep s t h' s'
      ∧ LanesWritten (thr s t) i.d.toNat ((thr s t).pReg i.pg.toNat) (e.2.2 i (thr s t)) h'

/-- R572, R573, Table 16-8: the bitwise, moving, broadcasting and permuting instructions of the vector class, lane by
lane; VCMPR and VEXPD move the active lanes in ascending order; VEXT and VINS move one lane. R579, Table 16-9: a
comparison writes pd, clear in the lanes that the guard does not hold; the other predicate instructions write pd or
sd, and no other register changes. -/
def Obligations.VectorMovesAndPredicates : Prop :=
  ((∀ e ∈ ([(.vand, 0x08, fun i h l => h.lane i.a.toNat l &&& h.lane i.b.toNat l),
        (.vor, 0x09, fun i h l => h.lane i.a.toNat l ||| h.lane i.b.toNat l),
        (.vxor, 0x0A, fun i h l => h.lane i.a.toNat l ^^^ h.lane i.b.toNat l), (.vmov, 0x0E, fun i h l => h.lane i.a.toNat l),
        (.vbcast, 0x0F, fun i h _ => (h.sReg i.a.toNat).setWidth 32), (.vlane, 0x10, fun _ _ l => BitVec.ofNat 32 l),
        (.vperm, 0x13, fun i h l => h.lane i.a.toNat ((h.lane i.b.toNat l).toNat % 256)),
        (.vexpd, 0x1B, fun i h l => h.lane i.a.toNat ((maskLanes (h.pReg i.pg.toNat)).idxOf l)),
        (.vsel, 0x1C, fun i h l => if bit (h.pReg i.c.toNat) l then h.lane i.a.toNat l else h.lane i.b.toNat l)]
        : List ((Thr → Instr) × Nat × (IWord → Thread → Nat → BitVec 32))),
      ∀ (s : State) (t : Thr) (i : IWord), Issues s t 1 e.2.1 i → tblWf 0 (thr s t).v = true →
      Completes (e.1 t) s fun s' => ∃ h', ThreadStep s t h' s'
        ∧ LanesWritten (thr s t) i.d.toNat ((thr s t).pReg i.pg.toNat) (e.2.2 i (thr s t)) h')
    ∧ (∀ (s : State) (t : Thr) (i : IWord), Issues s t 1 0x1A i → tblWf 0 (thr s t).v = true →
      let h := thr s t
      let ls := maskLanes (h.pReg i.pg.toNat)
      Completes (.vcmpr t) s fun s' => ∃ h', ThreadStep s t h' s'
        ∧ (∀ l, l < 256 → h'.lane i.d.toNat l
            = if l < ls.length then h.lane i.a.toNat (ls.getD l 0) else h.lane i.d.toNat l)
        ∧ (∀ r l, l < 256 → r ≠ i.d.toNat → h'.lane r l = h.lane r l) ∧ h'.s = h.s ∧ h'.p = h.p ∧ h'.pc = h.pc + 1)
    ∧ (∀ (s : State) (t : Thr) (i : IWord), Issues s t 1 0x11 i →
      let h := thr s t
      Completes (.vext t) s (ThreadStep s t (h.putS i.d.toNat
        ((h.lane i.a.toNat ((h.sReg i.b.toNat).toNat % 256)).setWidth 64)).next))
    ∧ (∀ (s : State) (t : Thr) (i : IWord), Issues s t 1 0x12 i → tblWf 0 (thr s t).v = true →
      let h := thr s t
      let k := (h.sReg i.b.toNat).toNat % 256
      Completes (.vins t) s fun s' => ∃ h', ThreadStep s t h' s' ∧ h'.lane i.d.toNat k = (h.sReg i.a.toNat).setWidth 32
        ∧ (∀ r l, l < 256 → (r ≠ i.d.toNat ∨ l ≠ k) → h'.lane r l = h.lane r l) ∧ h'.s = h.s ∧ h'.p = h.p ∧ h'.pc = h.pc + 1))
  ∧ ((∀ (s : State) (t : Thr) (i : IWord), Issues s t 2 0x00 i →
      let h := thr s t
      Completes (.pcmp t) s fun s' => ∃ m : BitVec 256, ThreadStep s t (h.putP i.d.toNat m).next s'
        ∧ ∀ l, l < 256 → bit m l = (bit (h.pReg i.pg.toNat) l
            && compare32 i.fmt i.aux (h.lane i.a.toNat l).toNat (h.lane i.b.toNat l).toNat))
    ∧ (∀ (s : State) (t : Thr) (i : IWord), Issues s t 2 0x01 i →
      let h := thr s t
      Completes (.pcmps t) s fun s' => ∃ m : BitVec 256, ThreadStep s t (h.putP i.d.toNat m).next s'
        ∧ ∀ l, l < 256 → bit m l = (bit (h.pReg i.pg.toNat) l
            && compare32 i.fmt i.aux (h.lane i.a.toNat l).toNat ((h.sReg i.b.toNat).toNat % 2 ^ 32)))
    ∧ (∀ e ∈ ([(.pand, 0x02, fun a b => a &&& b), (.por, 0x03, fun a b => a ||| b), (.pxor, 0x04, fun a b => a ^^^ b),
        (.pnot, 0x05, fun a _ => ~~~a), (.pset, 0x06, fun _ _ => BitVec.allOnes 256), (.pclr, 0x07, fun _ _ => 0)]
        : List ((Thr → Instr) × Nat × (BitVec 256 → BitVec 256 → BitVec 256))),
      ∀ (s : State) (t : Thr) (i : IWord), Issues s t 2 e.2.1 i →
      Completes (e.1 t) s (ThreadStep s t
        ((thr s t).putP i.d.toNat (e.2.2 ((thr s t).pReg i.a.toNat) ((thr s t).pReg i.b.toNat))).next))
    ∧ (∀ (s : State) (t : Thr) (i : IWord), Issues s t 2 0x08 i →
      let h := thr s t
      Completes (.pfirst t) s fun s' => ∃ m : BitVec 256, ThreadStep s t (h.putP i.d.toNat m).next s'
        ∧ ∀ l, l < 256 → (bit m l = true ↔ bit (h.pReg i.a.toNat) l = true ∧ ∀ k, k < l → bit (h.pReg i.a.toNat) k = false))
    ∧ (∀ (s : State) (t : Thr) (i : IWord), Issues s t 2 0x09 i →
      let h := thr s t
      Completes (.pcnt t) s (ThreadStep s t
        (h.putS i.d.toNat (BitVec.ofNat 64 ((upFrom 0 256).filter (fun l => bit (h.pReg i.a.toNat) l)).length)).next))
    ∧ (∀ (s : State) (t : Thr) (i : IWord), Issues s t 2 0x0A i →
      let h := thr s t
      Completes (.plt t) s fun s' => ∃ m : BitVec 256, ThreadStep s t (h.putP i.d.toNat m).next s'
        ∧ ∀ l, l < 256 → bit m l = decide (l < (h.sReg i.a.toNat).toNat))
    ∧ (∀ (s : State) (t : Thr) (i : IWord), Issues s t 2 0x0B i →
      let h := thr s t
      Completes (.pmovs t) s (ThreadStep s t
        (h.putS i.d.toNat (BitVec.ofNat 64 (fld (h.pReg i.a.toNat) (64 * i.aux) 64))).next))
    ∧ (∀ (s : State) (t : Thr) (i : IWord), Issues s t 2 0x0C i →
      let h := thr s t
      Completes (.pmovp t) s fun s' => ∃ m : BitVec 256, ThreadStep s t (h.putP i.d.toNat m).next s'
        ∧ ∀ l, l < 256 → bit m l = if l / 64 = i.aux then bit (h.sReg i.a.toNat) (l % 64) else bit (h.pReg i.d.toNat) l))

/-- R580 to R585, Tables 16-10 and 16-12: conversions outside MXFP4, block floating point and dot products, lane by lane;
a conversion to MXFP4 changes its thread alone. R586 to R588, Table 16-13: a reduction over the active lanes writes sd
alone: +0, or the neutral extreme, with no lane active; a prefix sum writes the active lanes of vd. -/
def Obligations.ConvertDotAndReductions : Prop :=
  ((∀ (s : State) (t : Thr) (i : IWord), Issues s t 3 0x00 i →
      Completes (.cvt t) s (ThreadStep s t (convert i (thr s t)).next))
    ∧ (∀ (s : State) (t : Thr) (i : IWord), Issues s t 3 0x00 i → i.fmt ≠ 5 → tblWf 0 (thr s t).v = true →
      Completes (.cvt t) s fun s' => ∃ h', ThreadStep s t h' s'
        ∧ LanesWritten (thr s t) i.d.toNat ((thr s t).pReg i.pg.toNat) (fun l =>
            (cvtLane i.sfmt i.fmt (rndOf i.rnd) i.sat i.part (((thr s t).lane i.c.toNat l).toNat % 256)
              ((thr s t).lane i.a.toNat l) ((thr s t).lane i.d.toNat l)).1) h')
    ∧ (∀ e ∈ ([(.bfpe, 3, 0x01, fun i h l => BitVec.ofNat 32 (bfpRunE i h l)),
        (.bfpd, 3, 0x03, fun i h l => BitVec.ofNat 32
          (bfpValue (bfpK i) ((h.lane i.b.toNat l).toNat % 256) (h.lane i.a.toNat l).toNat).1),
        (.dot, 4, 0x00, fun i h l => (dotLane i.fmt i.aux (rndOf i.rnd) i.sat (h.lane i.d.toNat l)
          (pairElems i.fmt h i.a.toNat l) (pairElems i.fmt h i.b.toNat l) (h.lane i.c.toNat l)).1),
        (.dots, 4, 0x01, fun i h l => (dotLane i.fmt i.aux (rndOf i.rnd) i.sat (h.lane i.d.toNat l)
          (pairElems i.fmt h i.a.toNat l) (scalarElems i.fmt (h.sReg i.b.toNat)) (h.lane i.c.toNat l)).1)]
        : List ((Thr → Instr) × Nat × Nat × (IWord → Thread → Nat → BitVec 32))),
      ∀ (s : State) (t : Thr) (i : IWord), Issues s t e.2.1 e.2.2.1 i → tblWf 0 (thr s t).v = true →
      Completes (e.1 t) s fun s' => ∃ h', ThreadStep s t h' s'
        ∧ LanesWritten (thr s t) i.d.toNat ((thr s t).pReg i.pg.toNat) (e.2.2.2 i (thr s t)) h')
    ∧ (∀ (s : State) (t : Thr) (i : IWord), Issues s t 3 0x02 i → tblWf 0 (thr s t).v = true →
      Completes (.bfpq t) s fun s' => s'.free = s.free + 256 ∧ ∃ h', ThreadStep { s with free := s'.free } t h' s'
        ∧ LanesWritten (thr s t) i.d.toNat ((thr s t).pReg i.pg.toNat) (fun l => BitVec.ofNat 32 (bfpField (bfpK i)
            (((thr s t).lane i.b.toNat l).toNat % 256) ((thr s t).lane i.a.toNat l).toNat (Config.freeValue (s.free + l)).toNat)) h'))
  ∧ ((∀ (s : State) (t : Thr) (i : IWord), Issues s t 5 0x00 i →
      let h := thr s t
      let r := reduceAdd i.fmt (rndOf i.rnd) i.sat (nodes i h)
      Completes (.radd t) s fun s' => ThreadStep s t { (h.putS i.d.toNat (BitVec.ofNat 64 r.1)) with
          flags := h.flags ||| r.2, pc := h.pc + 1 } s'
        ∧ (h.pReg i.pg.toNat = 0 → r = (0, 0)))
    ∧ (∀ e ∈ ([(.rmax, 0x01, true, false), (.rmin, 0x02, false, false), (.rmaxi, 0x03, true, true), (.rmini, 0x04, false, true)]
        : List ((Thr → Instr) × Nat × Bool × Bool)),
      ∀ (s : State) (t : Thr) (i : IWord), Issues s t 5 e.2.1 i →
      let h := thr s t
      let r := reduceMinMax e.2.2.1 i.fmt (nodes i h)
      Completes (e.1 t) s fun s' =>
        ThreadStep s t (h.putS i.d.toNat (BitVec.ofNat 64 (r.1 + if e.2.2.2 then r.2 * 2 ^ 32 else 0))).next s'
        ∧ (h.pReg i.pg.toNat = 0 → i.fmt = 0 → r = (if e.2.2.1 then 0xFF800000 else 0x7F800000, 0)))
    ∧ (∀ (s : State) (t : Thr) (i : IWord), Issues s t 5 0x05 i → tblWf 0 (thr s t).v = true →
      Completes (.vscan t) s fun s' => ∃ h', ThreadStep s t h' s'
        ∧ LanesWritten (thr s t) i.d.toNat ((thr s t).pReg i.pg.toNat) (fun l => BitVec.ofNat 32
            (((scanSums i.fmt (rndOf i.rnd) i.sat (nodes i (thr s t)) none).1.getD l none).getD 0)) h'))

/-- R531, R537, R589, R590, Tables 15-3 and 16-14: scalar accesses of a thread to its own array: a load reads the bytes
and changes no memory, a store writes its bytes and no other; one that is not aligned faults with cause 0x02, one of a reserved offset with cause 0x03, and one of
another array or node goes as an item when the thread may send one. R589 to
R591, R593: vector accesses. A load whose active bytes are readable fills the active lanes of vd and no other; a
strided or gathered access of the thread's own array reads, or a store writes, each active lane's bytes at its own
address. -/
def Obligations.ScalarAndVectorAccesses : Prop :=
  ((∀ e ∈ ([(.ld, 0x00, false), (.lds, 0x01, true)] : List ((Thr → Instr) × Nat × Bool)),
      ∀ (s : State) (t : Thr) (i : IWord) (o : Nat), Issues s t 6 e.2.1 i →
      let h := thr s t
      let a := accAddr i h
      let n := sizeBytes i.size
      a.toNat % n = 0 → memPath s t.array.val a = .direct o → o + n ≤ 0x400000 → s.work.badWord = [] →
      Completes (e.1 t) s (ThreadStep s t
        (h.putS i.d.toNat (loadValue n e.2.2 (memRead s.work.mem (arrayBase t.array.val + o) n))).next))
    ∧ (∀ (s : State) (t : Thr) (i : IWord) (o : Nat), Issues s t 6 0x02 i →
      let h := thr s t
      let a := accAddr i h
      let n := sizeBytes i.size
      let b := arrayBase t.array.val + o
      a.toNat % n = 0 → memPath s t.array.val a = .direct o → o + n ≤ 0x400000 → s.work.badWord = [] → s.work.memWf = true →
      Completes (.st t) s fun s' => memRead s'.work.mem b n = leBytes n (h.sReg i.d.toNat).toNat
        ∧ (∀ x, x < b ∨ b + n ≤ x → tblGet 0 s'.work.mem x = tblGet 0 s.work.mem x)
        ∧ ThreadStep { s with work := { s.work with mem := s'.work.mem } } t h.next s')
    ∧ (∀ e ∈ ([(.ld, 0x00), (.lds, 0x01), (.st, 0x02)] : List ((Thr → Instr) × Nat)),
      ∀ (s : State) (t : Thr) (i : IWord), Issues s t 6 e.2 i →
      let a := accAddr i (thr s t)
      a.toNat % sizeBytes i.size ≠ 0 → exec (e.1 t) s = .next (counted s t 6 (fault t 0x02 a.toNat s)))
    ∧ (∀ e ∈ ([(.ld, 0x00, false), (.lds, 0x01, true)] : List ((Thr → Instr) × Nat × Bool)),
      ∀ (s : State) (t : Thr) (i : IWord), Issues s t 6 e.2.1 i →
      let h := thr s t
      let a := accAddr i h
      let n := sizeBytes i.size
      let sent := thrSend t (thrPacket 0x01 (kernelAt s h.kernel).tenant a) n [] (.load i.d.toNat n e.2.2)
        (fun h => { h.next with busy := h.busy ++ [.s i.d.toNat] }) s
      a.toNat % n = 0 → memPath s t.array.val a = .far ∨ memPath s t.array.val a = .node →
      (∀ u, sent = some u → exec (e.1 t) s = .next (counted s t 6 u)) ∧ (sent = none → NoEffect (e.1 t) s))
    ∧ (∀ (s : State) (t : Thr) (i : IWord), Issues s t 6 0x02 i →
      let h := thr s t
      let a := accAddr i h
      let n := sizeBytes i.size
      let sent := thrSend t (thrPacket 0x02 (kernelAt s h.kernel).tenant a) n (leBytes n (h.sReg i.d.toNat).toNat) .store Thread.next s
      a.toNat % n = 0 → memPath s t.array.val a = .far ∨ memPath s t.array.val a = .node →
      (∀ u, sent = some u → exec (.st t) s = .next (counted s t 6 u)) ∧ (sent = none → NoEffect (.st t) s))
    ∧ (∀ e ∈ ([(.ld, 0x00), (.lds, 0x01), (.st, 0x02)] : List ((Thr → Instr) × Nat)),
      ∀ (s : State) (t : Thr) (i : IWord), Issues s t 6 e.2 i →
      let a := accAddr i (thr s t)
      a.toNat % sizeBytes i.size = 0 → memPath s t.array.val a = .reserved →
      exec (e.1 t) s = .next (counted s t 6 (fault t 0x03 a.toNat s))))
  ∧ ((∀ (s s1 : State) (t : Thr) (i : IWord) (sp : Nat × Nat) (m : Tbl Byte) (o : Nat), Issues s t 6 0x03 i →
      let h := thr s t
      let a := accAddr i h + BitVec.ofNat 64 sp.1
      vecSpan i.size (h.pReg i.pg.toNat) = some sp → (accAddr i h).toNat % sizeBytes i.size = 0 →
      oneRegion s t.array.val a sp.2 = true → memPath s t.array.val a = .direct o →
      readRuns t (kernelAt s h.kernel).tenant (accAddr i h) (activeRuns i.size (h.pReg i.pg.toNat) sp) s = (.ok m, s1) →
      tblWf 0 h.v = true →
      Completes (.vld t) s fun s' => s'.work.mem = s.work.mem ∧ s'.larder.mem = s.larder.mem
        ∧ LanesWritten h i.d.toNat (h.pReg i.pg.toNat) (loadLane i.size sp.1 (memRead m sp.1 sp.2)) (thr s' t))
    ∧ (∀ (s s1 : State) (t : Thr) (i : IWord) (sp : Nat × Nat) (o : Nat), Issues s t 6 0x04 i →
      let h := thr s t
      let a := accAddr i h + BitVec.ofNat 64 sp.1
      vecSpan i.size (h.pReg i.pg.toNat) = some sp → (accAddr i h).toNat % sizeBytes i.size = 0 →
      oneRegion s t.array.val a sp.2 = true → memPath s t.array.val a = .direct o →
      writeRunsAt t (kernelAt s h.kernel).tenant (accAddr i h)
        (storeRuns ((upFrom sp.1 sp.2).map (fun b => (b, storeByte i.size (h.pReg i.pg.toNat) (h.lane i.d.toNat) b)))) s
        = (none, s1) →
      Completes (.vst t) s fun s' => s'.work.mem = s1.work.mem ∧ s'.larder.mem = s1.larder.mem ∧ thr s' t = h.next
        ∧ s'.regs = s.regs)
    ∧ (∀ e ∈ ([(.vlds, 0x05, strided), (.vldg, 0x07, gathered)] : List ((Thr → Instr) × Nat × (Thread → IWord → Nat → Word))),
      ∀ (s : State) (t : Thr) (i : IWord) (off : Nat → Nat), Issues s t 6 e.2.1 i →
      let h := thr s t
      let n := sizeBytes i.size
      (∀ x ∈ laneAddrs (e.2.2 h i) i h, x.2.toNat % n = 0 ∧ memPath s t.array.val x.2 = .direct (off x.1)
        ∧ off x.1 + n ≤ 0x400000) → thrItems s t = [] → s.work.badWord = [] → tblWf 0 h.v = true →
      Completes (e.1 t) s fun s' => ∃ h', ThreadStep s t h' s' ∧ LanesWritten h i.d.toNat (h.pReg i.pg.toNat) (fun l =>
        BitVec.ofNat 32 (leNat (memRead s.work.mem (arrayBase t.array.val + off l) n))) h')
    ∧ (∀ e ∈ ([(.vsts, 0x06, strided), (.vstg, 0x08, gathered)] : List ((Thr → Instr) × Nat × (Thread → IWord → Nat → Word))),
      ∀ (s : State) (t : Thr) (i : IWord) (off : Nat → Nat), Issues s t 6 e.2.1 i →
      let h := thr s t
      let n := sizeBytes i.size
      (∀ x ∈ laneAddrs (e.2.2 h i) i h, x.2.toNat % n = 0 ∧ memPath s t.array.val x.2 = .direct (off x.1)
        ∧ off x.1 + n ≤ 0x400000) → thrItems s t = [] → s.work.badWord = [] → s.work.memWf = true →
      Completes (e.1 t) s fun s' => thr s' t = h.next
        ∧ (∀ x, (∀ y ∈ laneAddrs (e.2.2 h i) i h, x < arrayBase t.array.val + off y.1 ∨ arrayBase t.array.val + off y.1 + n ≤ x) →
            tblGet 0 s'.work.mem x = tblGet 0 s.work.mem x)
        ∧ (∀ y, (laneAddrs (e.2.2 h i) i h).getLast? = some y →
            memRead s'.work.mem (arrayBase t.array.val + off y.1) n = leBytes n (h.lane i.d.toNat y.1).toNat)
        ∧ s'.larder.mem = s.larder.mem ∧ s'.regs = s.regs))

/-- R539, R594, Tables 16-15 and 11-6: an atomic on the thread's own array stores what its opcode gives over its own
width, puts the old value in sd (a pair for 16 bytes), and changes no other byte; one that is not aligned
faults with cause 0x02, one of a reserved offset with cause 0x03, and one of another array or node goes as an item when the thread may send
one. A clause of no effect (NoEffect), where an event's condition does not hold, is the model's choice (log 1). -/
def Obligations.ThreadAtomics : Prop :=
  (∀ e ∈ ([(.afadd64, 0x00, 0x08), (.aswap64, 0x01, 0x09), (.acas64, 0x02, 0x0A), (.acas128, 0x03, 0x0B),
      (.afaddf32, 0x04, 0x0C), (.afaddbf16, 0x05, 0x0D)] : List ((Thr → Instr) × Nat × Nat)),
    ∀ (s : State) (t : Thr) (i : IWord) (o : Nat), Issues s t 7 e.2.1 i →
    let h := thr s t
    let a := accAddr i h
    let n := atomicWidth e.2.2
    let b := arrayBase t.array.val + o
    let old := leNat (memRead s.work.mem b n)
    let pair := decide (e.2.2 = 0x0B)
    let x := atomOperand pair h i.b.toNat % 2 ^ (8 * n)
    let y := atomOperand pair h i.c.toNat % 2 ^ (8 * n)
    a.toNat % n = 0 → memPath s t.array.val a = .direct o → o + n ≤ 0x400000 → s.work.badWord = [] → s.work.memWf = true →
    Completes (e.1 t) s fun s' => memRead s'.work.mem b n = leBytes n (atomicNew e.2.2 old x y)
      ∧ (∀ z, z < b ∨ b + n ≤ z → tblGet 0 s'.work.mem z = tblGet 0 s.work.mem z)
      ∧ ThreadStep { s with work := { s.work with mem := s'.work.mem } } t (h.putOld pair i.d.toNat old).next s')
  ∧ (∀ e ∈ ([(.afadd64, 0x00, 0x08), (.aswap64, 0x01, 0x09), (.acas64, 0x02, 0x0A), (.acas128, 0x03, 0x0B),
      (.afaddf32, 0x04, 0x0C), (.afaddbf16, 0x05, 0x0D)] : List ((Thr → Instr) × Nat × Nat)),
    ∀ (s : State) (t : Thr) (i : IWord), Issues s t 7 e.2.1 i →
    let h := thr s t
    let a := accAddr i h
    let n := atomicWidth e.2.2
    let pair := decide (e.2.2 = 0x0B)
    let pay := leBytes n (atomOperand pair h i.b.toNat % 2 ^ (8 * n))
      ++ (if e.2.2 = 0x0A ∨ e.2.2 = 0x0B then leBytes n (atomOperand pair h i.c.toNat % 2 ^ (8 * n)) else [])
    let sent := thrSend t (thrPacket (BitVec.ofNat 8 e.2.2) (kernelAt s h.kernel).tenant a) pay.length pay (.atomic i.d.toNat pair)
      (fun h => { h.next with busy := h.busy ++ oldBusy pair i.d.toNat }) s
    (a.toNat % n ≠ 0 → exec (e.1 t) s = .next (counted s t 7 (fault t 0x02 a.toNat s)))
      ∧ (a.toNat % n = 0 → memPath s t.array.val a = .reserved → exec (e.1 t) s = .next (counted s t 7 (fault t 0x03 a.toNat s)))
      ∧ (a.toNat % n = 0 → memPath s t.array.val a = .far ∨ memPath s t.array.val a = .node →
        (∀ u, sent = some u → exec (e.1 t) s = .next (counted s t 7 u)) ∧ (sent = none → NoEffect (e.1 t) s)))

/-- R542, R595 to R598, Table 16-17: a fence with nothing to wait for goes on; a barrier counts itself; a LAUNCH whose
payload is readable sends it as an item and waits for the answer; GETS reads its value and, for the flags, clears
them. R599, Table 16-19: a branch that is taken moves the counter by its offset from its own index, another goes on;
CALL keeps its return, RET takes it, LOOP counts down, NOP goes on, and END ends its thread. A clause of no effect
(NoEffect), where an event's condition does not hold, is the model's choice (log 1). -/
def Obligations.SynchronisationAndControl : Prop :=
  ((∀ (s : State) (t : Thr) (i : IWord), Issues s t 8 0x00 i → (i.aux ≠ 2 ∨ thrItems s t = []) →
      Completes (.fence t) s (ThreadStep s t (thr s t).next))
    ∧ (∀ (s : State) (t : Thr) (i : IWord), Issues s t 8 0x00 i → i.aux = 2 → thrItems s t ≠ [] → NoEffect (.fence t) s)
    ∧ (∀ (s : State) (t : Thr) (i : IWord), Issues s t 8 0x01 i → (i.aux ≠ 2 ∨ thrItems s t = []) →
      Completes (.bar t) s fun s' => (thr s' t).bars = (thr s t).bars + 1 ∧ (thr s' t).pc = (thr s t).pc + 1
        ∧ s' = { s with work := { s.work with thr := s'.work.thr }, counts := s'.counts })
    ∧ (∀ (s : State) (t : Thr) (i : IWord), Issues s t 8 0x01 i → (i.aux ≠ 2 ∨ thrItems s t = []) →
      let h := thr s t
      exec (.bar t) s = .next (counted s t 8 (settleBar h.kernel h.run (setThr t { h.next with bars := h.bars + 1, inBar := true } s))))
    ∧ (∀ (s : State) (t : Thr) (i : IWord), Issues s t 8 0x02 i →
      let h := thr s t
      let p := h.sReg i.b.toNat
      (p.toNat % 8 ≠ 0 → exec (.launchInstr t) s = .next (counted s t 8 (fault t 0x02 p.toNat s)))
        ∧ (p.toNat % 8 = 0 → (∀ o, memPath s t.array.val p ≠ .direct o) →
          exec (.launchInstr t) s = .next (counted s t 8 (fault t 0x03 p.toNat s))))
    ∧ (∀ (s : State) (t : Thr) (i : IWord) (o : Nat), Issues s t 8 0x02 i →
      let h := thr s t
      let p := h.sReg i.b.toNat
      let n := launchLen (memRead s.work.mem (arrayBase t.array.val + o) 32)
      p.toNat % 8 = 0 → memPath s t.array.val p = .direct o → o + 256 ≤ 0x400000 → n ≤ 256 → s.work.badWord = [] →
      (thrItems s t).length < 16 → (findTag s (workTags (workPort t.array.val)).1 (workTags (workPort t.array.val)).2).isSome = true →
      Completes (.launchInstr t) s fun s' => thr s' t = { h.next with waitAck := true } ∧ s'.work.mem = s.work.mem
        ∧ ∃ x ∈ s'.items.own, x.use = .thread t (.launch i.d.toNat) ∧ x.opcode = 0x10 ∧ x.addr = h.sReg i.a.toNat ∧ x.len = n)
    ∧ (∀ (s : State) (t : Thr) (i : IWord), Issues s t 8 0x03 i → i.aux ≠ 4 →
      Completes (.gets t) s (ThreadStep s t ((thr s t).putS i.d.toNat (getsValue i.aux s (thr s t))).next))
    ∧ (∀ (s : State) (t : Thr) (i : IWord), Issues s t 8 0x03 i → i.aux = 4 →
      Completes (.gets t) s (ThreadStep s t { ((thr s t).putS i.d.toNat ((thr s t).flags.setWidth 64)).next with flags := 0 })))
  ∧ ((∀ e ∈ ([(.br, 0x00, fun _ _ => true), (.bz, 0x01, fun i h => h.sReg i.a.toNat = 0),
        (.bnz, 0x02, fun i h => h.sReg i.a.toNat ≠ 0), (.bpany, 0x03, fun i h => h.pReg i.a.toNat ≠ 0),
        (.bpnone, 0x04, fun i h => h.pReg i.a.toNat = 0), (.nop, 0x08, fun _ _ => false)]
        : List ((Thr → Instr) × Nat × (IWord → Thread → Bool))),
      ∀ (s : State) (t : Thr) (i : IWord), Issues s t 9 e.2.1 i →
      Completes (e.1 t) s (ThreadStep s t { (thr s t) with
        pc := if e.2.2 i (thr s t) then (BitVec.ofNat 64 (thr s t).pc + i.low.signExtend 64).toNat else (thr s t).pc + 1 }))
    ∧ (∀ (s : State) (t : Thr) (i : IWord), Issues s t 9 0x05 i →
      Completes (.call t) s (ThreadStep s t { ((thr s t).putS i.d.toNat (BitVec.ofNat 64 ((thr s t).pc + 1))) with
        pc := (BitVec.ofNat 64 (thr s t).pc + i.low.signExtend 64).toNat }))
    ∧ (∀ (s : State) (t : Thr) (i : IWord), Issues s t 9 0x06 i →
      Completes (.ret t) s (ThreadStep s t { (thr s t) with pc := ((thr s t).sReg i.a.toNat).toNat }))
    ∧ (∀ (s : State) (t : Thr) (i : IWord), Issues s t 9 0x09 i → tblWf 0 (thr s t).s = true →
      let x := (thr s t).sReg i.a.toNat - 1
      Completes (.loop t) s (ThreadStep s t { ((thr s t).putS i.a.toNat x) with
        pc := if x ≠ 0 then (BitVec.ofNat 64 (thr s t).pc + i.low.signExtend 64).toNat else (thr s t).pc + 1 }))
    ∧ (∀ (s : State) (t : Thr) (i : IWord), Issues s t 9 0x07 i →
      Completes (.endThread t) s fun s' => (thr s' t).ended = true ∧ (thr s' t).pc = (thr s t).pc ∧ s'.work.mem = s.work.mem)
    ∧ (∀ (s : State) (t : Thr) (i : IWord), Issues s t 9 0x07 i →
      let h := thr s t
      exec (.endThread t) s = .next (counted s t 9 (settleRun h.kernel h.run
        (settleBar h.kernel h.run (setThr t { h with ended := true } s))))))

/-- R571, R599, R555, Table 15-12: whatever instruction a thread is asked to issue, a counter outside the code faults with
cause 0x08, and a reserved opcode or a field that R571 forbids with cause 0x01; a fault stops the thread's run. -/
def Obligations.IllegalInstructionsFault : Prop :=
  (∀ (t : Thr) (cls op : Nat) (body : Kernel → IWord → Thread → State → Option State) (s : State),
    mayIssue s (thr s t) = true → (kernelAt s (thr s t).kernel).codeLen < 8 * (thr s t).pc + 8 →
    issue t cls op body s = fault t 0x08 (thr s t).pc s)
  ∧ (∀ (t : Thr) (cls op : Nat) (body : Kernel → IWord → Thread → State → Option State) (s : State) (w : Word),
    mayIssue s (thr s t) = true → fetchInstr s (kernelAt s (thr s t).kernel) t (thr s t) = (0, some w) →
    opRule (decodeWord w).cls.toNat (decodeWord w).op.toNat = none → issue t cls op body s = fault t 0x01 (thr s t).pc s)
  ∧ (∀ (t : Thr) (body : Kernel → IWord → Thread → State → Option State) (s : State) (w : Word) (r : OpRule),
    mayIssue s (thr s t) = true → fetchInstr s (kernelAt s (thr s t).kernel) t (thr s t) = (0, some w) →
    opRule (decodeWord w).cls.toNat (decodeWord w).op.toNat = some r → wordOk r (decodeWord w) = false →
    issue t (decodeWord w).cls.toNat (decodeWord w).op.toNat body s = fault t 0x01 (thr s t).pc s)
  ∧ (∀ (s : State) (t : Thr) (cause a : Nat) (r : Run), workRun s (thr s t).kernel (thr s t).run = some r → r.status = stOk →
    faultStatus cause ≠ stOk → tblWf {} s.work.thr = true → mayIssue (fault t cause a s) (thr (fault t cause a s) t) = false)

/-- R610, R611, R617, R620, Table 17-2: the queue-pair descriptors. QP_CONFIG waits for its context; QP_QUERY answers; a
GW_WRITE, GW_READ or GW_SEND of a queue pair that is Starting or On joins its queue, and on an idle one that is On starts at once and takes
one PSN for each of its packets; GW_RECV_POST adds its slots; one that a check turns away ends with its status. R602, R603, R604, R606, R607:
a frame that no other row takes is discarded and counted; an ARP request or neighbour solicitation for the port's own address that its
class lets in is answered in its default class; a priority flow-control frame pauses the classes that it names and that have pfc_en; the
pause frame of a class that stays full is sent again after 16 ticks. A clause of no effect (NoEffect), where an event's condition does not
hold, is the model's choice (log 1). -/
def Obligations.GatewayDescriptorsAndFrames : Prop :=
  ((∀ (s : State) (d : DRef) (f : InFlight) (q : Fin 16384), Startable s d 0x60 f → qpTarget f = some q →
      dGen f.desc = fnGen s (.qp q) →
      let u := modFlight d (fun x => { x with gen := fnGen s (.qp q) }) (started d s)
      (fnSt s (.qp q) = .off → exec (.qpConfig d) s
        = .next (hostRead (.obj d 0) (dWord f.desc 24) 128 (modFlight d (fun x => { x with waits := 1 }) u)))
        ∧ (fnSt s (.qp q) ≠ .off → exec (.qpConfig d) s = .next (complete d stBad 0 u)))
    ∧ (∀ (s : State) (d : DRef) (f : InFlight) (q : Fin 16384), Startable s d 0x63 f → qpTarget f = some q →
      dGen f.desc = fnGen s (.qp q) → (qpOf s q).ctx.isSome = true → (qpOf s q).tenant = dTenant s f →
      exec (.qpQuery d) s = .next (complete d stOk (BitVec.ofNat 64 (fnStCode (fnSt s (.qp q))
          + (fnOf s (.qp q)).pend.toNat <<< 2 + (fnGen s (.qp q)).toNat <<< 16 + (qpOf s q).sndPsn.toNat <<< 32))
        (modFlight d (fun x => { x with gen := fnGen s (.qp q) }) (started d s))))
    ∧ (∀ e ∈ ([(.gwWrite, 0x64), (.gwRead, 0x65), (.gwSend, 0x66)] : List ((DRef → Instr) × BitVec 8)),
      ∀ (s : State) (d : DRef) (f : InFlight) (q : Fin 16384) (c : QpCtx), Startable s d e.2 f → qpTarget f = some q →
      dGen f.desc = fnGen s (.qp q) → (qpOf s q).ctx = some c → (qpOf s q).tenant = dTenant s f →
      let u := modFlight d (fun x => { x with gen := fnGen s (.qp q) }) (started d s)
      let len := fld f.desc 320 32
      let ok := decide (0 < len) && decide (len ≤ if e.2 = 0x66 then 1048576 else 2 ^ 31)
      (ok = true → fnSt s (.qp q) = .on ∨ fnSt s (.qp q) = .starting →
        exec (e.1 d) s = .next (gwPump q (modQp q (fun x => { x with outs := x.outs ++ [{
            d := d, op := e.2, addr := dWord f.desc 24, va := dWord f.desc 32, len := len,
            rkey := BitVec.ofNat 32 (fld f.desc 352 32), psn := 0, n := msgPackets c.mtu len }] })
          (modFlight d (fun x => { x with waits := 1 }) u))))
        ∧ (ok = true → fnSt s (.qp q) = .off ∨ fnSt s (.qp q) = .stopping →
          exec (e.1 d) s = .next (gwPump q (complete d stCancelled 0 u)))
        ∧ (ok = false → exec (e.1 d) s = .next (gwPump q (complete d stBad 0 u))))
    ∧ (∀ e ∈ ([(.gwWrite, 0x64), (.gwRead, 0x65), (.gwSend, 0x66)] : List ((DRef → Instr) × BitVec 8)),
      ∀ (s : State) (d : DRef) (f : InFlight) (q : Fin 16384) (c : QpCtx),
      Startable s d e.2 f → qpTarget f = some q → dGen f.desc = fnGen s (.qp q) → (qpOf s q).ctx = some c →
      (qpOf s q).tenant = dTenant s f → fnSt s (.qp q) = .on → (qpOf s q).outs = [] → (qpOf s q).ready = [] →
      (qpOf s q).rnrTo = none → 0 < fld f.desc 320 32 → fld f.desc 320 32 ≤ (if e.2 = 0x66 then 1048576 else 2 ^ 31) →
      Completes (e.1 d) s fun t => (∃ o, (qpOf t q).outs = [o] ∧ o.d = d ∧ o.op = e.2 ∧ o.addr = dWord f.desc 24
          ∧ o.va = dWord f.desc 32 ∧ o.len = fld f.desc 320 32 ∧ o.n = msgPackets c.mtu o.len ∧ o.started = true
          ∧ o.psn = (qpOf s q).sndPsn ∧ o.acked = 0 ∧ (qpOf t q).sndPsn = psnAdd (qpOf s q).sndPsn o.n)
        ∧ (∃ f', flightOf t d = some f' ∧ f'.waits = 1) ∧ OtherQps q s t ∧ t.larder = s.larder ∧ t.work = s.work)
    ∧ (∀ e ∈ ([(.qpConfig, 0x60, false), (.qpQuery, 0x63, true), (.gwRecvPost, 0x67, true)] : List ((DRef → Instr) × BitVec 8 × Bool)),
      ∀ (s : State) (d : DRef) (f : InFlight), Startable s d e.2.1 f →
      (qpTarget f = none → exec (e.1 d) s = .next (complete d stBad 0 (started d s)))
        ∧ (∀ q, qpTarget f = some q →
          let u := modFlight d (fun x => { x with gen := fnGen s (.qp q) }) (started d s)
          (dGen f.desc ≠ fnGen s (.qp q) → exec (e.1 d) s = .next (complete d stStaleGen 0 u))
            ∧ (e.2.2 = true → dGen f.desc = fnGen s (.qp q) → (qpOf s q).ctx = none ∨ (qpOf s q).tenant ≠ dTenant s f →
              exec (e.1 d) s = .next (complete d stDenied 0 u))))
    ∧ (∀ (s : State) (d : DRef) (f : InFlight) (q : Fin 16384) (c : QpCtx), Startable s d 0x67 f → qpTarget f = some q →
      dGen f.desc = fnGen s (.qp q) → (qpOf s q).ctx = some c → (qpOf s q).tenant = dTenant s f →
      (qpOf s q).free + fld f.desc 192 16 ≤ c.recvSlots →
      Completes (.gwRecvPost d) s fun t => qpOf t q = { qpOf s q with free := (qpOf s q).free + fld f.desc 192 16 }
        ∧ flightOf t d = none ∧ OtherQps q s t ∧ HostOnly { s with gw := t.gw } t)
    ∧ (∀ (s : State) (d : DRef) (f : InFlight) (q : Fin 16384) (c : QpCtx), Startable s d 0x67 f → qpTarget f = some q →
      dGen f.desc = fnGen s (.qp q) → (qpOf s q).ctx = some c → (qpOf s q).tenant = dTenant s f →
      let u := modFlight d (fun x => { x with gen := fnGen s (.qp q) }) (started d s)
      let n := (qpOf s q).free + fld f.desc 192 16
      (n ≤ c.recvSlots → exec (.gwRecvPost d) s = .next (complete d stOk (BitVec.ofNat 64 n)
          (modQp q (fun x => { x with free := x.free + fld f.desc 192 16 }) u)))
        ∧ (c.recvSlots < n → exec (.gwRecvPost d) s = .next (complete d stBad 0 u))))
  ∧ ((∀ (s : State) (l : Fin 16) (f : EthFrame), ethOn s l = true → (ethPort s l).up = true → ethAccepts s l f = false →
      exec (.frameDiscarded l f) s = .next (bumpEth l (if f.fcsOk then 5 else 4) 1 (ethCame l true f.bytes s)))
    ∧ (∀ (s : State) (l : Fin 16) (f : EthFrame), (ethOn s l = false ∨ (ethPort s l).up = false ∨ ethAccepts s l f = true) →
      NoEffect (.frameDiscarded l f) s)
    ∧ (∀ (s : State) (l : Fin 16) (disc : Bool) (bs : List Byte), ∃ n, ethCame l disc bs s
      = peepFrame (ethLink l) false disc bs { s with counts := { s.counts with now := n } })
    ∧ (∀ (s : State) (l : Fin 16) (bs : List Byte), let u := (ethPass l bs s).2
      u = { s with enz := u.enz, rings := u.rings, counts := u.counts, larder := u.larder, meters := u.meters }
        ∧ ∀ c ∈ (ethPass l bs s).1, heldUnits s l (frameClass s l bs) + frameUnits bs ≤ classShare s l (frameClass s l bs))
    ∧ (∀ (s : State) (l : Fin 16) (f : ArpRequest), ethTakes s l f.frame = true → fld (ethCfg s l 3) 0 32 ≠ 0 →
      f.targetIp.toNat = fld (ethCfg s l 3) 0 32 →
      exec (.arpRequest l f) s = .next (ethReply l f.frame (.arp f.senderMac f.senderIp) s))
    ∧ (∀ (s : State) (l : Fin 16) (f : ArpRequest), (ethTakes s l f.frame = false ∨ fld (ethCfg s l 3) 0 32 = 0
        ∨ f.targetIp.toNat ≠ fld (ethCfg s l 3) 0 32) → NoEffect (.arpRequest l f) s)
    ∧ (∀ (s : State) (l : Fin 16) (f : NeighbourSolicit), ethTakes s l f.frame = true → ethIp6 s l ≠ 0 → f.targetIp = ethIp6 s l →
      exec (.neighbourSolicitation l f) s = .next (ethReply l f.frame (.ndp f.senderMac f.senderIp) s))
    ∧ (∀ (s : State) (l : Fin 16) (f : NeighbourSolicit), (ethTakes s l f.frame = false ∨ ethIp6 s l = 0 ∨ f.targetIp ≠ ethIp6 s l) →
      NoEffect (.neighbourSolicitation l f) s)
    ∧ (∀ (s s1 : State) (l : Fin 16) (bs : List Byte) (f : EthTx), markFrame f = none →
      (ethPass l bs s = (none, s1) → ethReply l bs f s = s1)
        ∧ (∀ ce, ethPass l bs s = (some ce, s1) → let t := ethReply l bs f s
          tblGet [] (ethPort t l).queue (pcpClass s l none).val = tblGet [] (ethPort s l).queue (pcpClass s l none).val ++ [f]
          ∧ (∀ v, v ≠ (pcpClass s l none).val → tblGet [] (ethPort t l).queue v = tblGet [] (ethPort s l).queue v)
          ∧ (∀ j, j ≠ l → ethPort t j = ethPort s j) ∧ t.gw.qp = s.gw.qp ∧ t = { s1 with gw := t.gw, counts := t.counts }))
    ∧ (∀ (m : BitVec 48) (a : BitVec 32) (b : BitVec 128), markFrame (.arp m a) = none ∧ markFrame (.ndp m b) = none)
    ∧ (∀ (s : State) (l : Fin 16) (src : BitVec 48) (en : BitVec 8) (qs : List (BitVec 16)), ethOn s l = true →
      (ethPort s l).up = true → tblWf 0 (ethPort s l).paused = true →
      let u := ethCame l false (pfcBytes src.toNat en qs) s
      Completes (.pfcFrameReceive l ⟨src, en⟩ qs) s fun t =>
        (∀ c, c < 8 → tblGet 0 (ethPort t l).paused c = if bit en c && pfcEn s l c then
            s.tick.ns + quantaNs s l (qs.getD c 0).toNat else tblGet 0 (ethPort s l).paused c)
        ∧ (ethPort t l).queue = (ethPort s l).queue ∧ (ethPort t l).waiting = (ethPort s l).waiting
        ∧ (∀ j, j ≠ l → ethPort t j = ethPort s j) ∧ t.gw.qp = s.gw.qp ∧ t = { u with gw := t.gw, counts := t.counts })
    ∧ (∀ (s : State) (l : Fin 16) (src : BitVec 48) (en : BitVec 8) (qs : List (BitVec 16)), (ethOn s l = false
        ∨ (ethPort s l).up = false) → NoEffect (.pfcFrameReceive l ⟨src, en⟩ qs) s)
    ∧ (∀ (s : State) (l : Fin 16) (c : Fin 8) (b : BitVec 48), tblGet none (ethPort s l).pausing c.val = some b →
      pfcEn s l c.val = true → 16 ≤ ageOf s b → fld (ethCfg s l 6) 0 14 ≤ heldUnits s l c →
      Completes (.pfcPauseRepeat l c) s fun t =>
        tblGet [] (ethPort t l).queue 7 = .pfc c 0xFFFF :: tblGet [] (ethPort s l).queue 7
        ∧ (∀ v, v ≠ 7 → tblGet [] (ethPort t l).queue v = tblGet [] (ethPort s l).queue v)
        ∧ tblGet none (ethPort t l).pausing c.val = some s.tick.elapsed
        ∧ (∀ j, j ≠ l → ethPort t j = ethPort s j) ∧ t.gw.qp = s.gw.qp ∧ t = { s with gw := t.gw, counts := t.counts })
    ∧ (∀ (s : State) (l : Fin 16) (c : Fin 8), (∀ b, tblGet none (ethPort s l).pausing c.val = some b →
        ageOf s b < 16 ∨ pfcEn s l c.val = false ∨ heldUnits s l c < fld (ethCfg s l 6) 0 14) → NoEffect (.pfcPauseRepeat l c) s))

/-- R612 to R619: an in-sequence request packet with data is taken: its PSN is expended, its bytes leave as a WR item at
their place in the region or the receive slot, and a packet that ends its message counts it; an in-sequence READ
expends one PSN for each packet of its response; a packet ahead of the expected PSN changes nothing of what was
accepted; one that no queue pair of the port takes is discarded and counted; a refusal answers its NAK, and any but a sequence error and
an RNR NAK stops the queue pair. -/
def Obligations.RdmaRequests : Prop :=
  (∀ (s s1 : State) (m : RoceMsg) (q : Fin 16384) (c : QpCtx) (op : RoceOp) (i : Instr),
    (op, i) ∈ [(.writeFirst, Instr.rdmaWriteFirst m), (.writeOnly, Instr.rdmaWriteOnly m)] →
    RoceArrives s m q c s1 → (qpOf s q).cur = none → rethOk c m c.wr = true → m.payload ≠ [] →
    m.payload.length ≤ m.len.toNat → (op = .writeOnly → m.payload.length = m.len.toNat) →
    Completes i s fun t => (qpOf t q).expPsn = (qpOf s q).expPsn + 1
      ∧ (qpOf t q).msn = (if op = .writeOnly then (qpOf s q).msn + 1 else (qpOf s q).msn)
      ∧ (qpOf t q).cur = (if op = .writeOnly then none
          else some (none, c.regionBase + m.va, m.payload.length, m.len.toNat))
      ∧ (∃ o ∈ t.items.own, o.use = .gwIn q m.psn ∧ o.opcode = 0x02 ∧ o.addr = c.regionBase + m.va
          ∧ o.len = m.payload.length)
      ∧ (∃ e, (qpOf t q).ins = [e] ∧ e.psn = m.psn ∧ e.items = 1 ∧ e.record = none)
      ∧ OtherQps q s t ∧ t.larder = s1.larder ∧ t.work = s.work)
  ∧ (∀ (s s1 : State) (m : RoceMsg) (q : Fin 16384) (c : QpCtx) (op : RoceOp) (i : Instr),
    (op, i) ∈ [(.sendFirst, Instr.sendFirst m), (.sendOnly, Instr.sendOnly m)] →
    RoceArrives s m q c s1 → (qpOf s q).cur = none → c.send = true → 0 < (qpOf s q).free → m.payload ≠ [] →
    m.payload.length ≤ 2 ^ c.slotLog2 - 16 →
    let a := c.recvBase + BitVec.ofNat 64 ((qpOf s q).slot % c.recvSlots * 2 ^ c.slotLog2)
    Completes i s fun t => (qpOf t q).expPsn = (qpOf s q).expPsn + 1 ∧ (qpOf t q).free = (qpOf s q).free - 1
      ∧ (qpOf t q).slot = (qpOf s q).slot + 1
      ∧ (qpOf t q).msn = (if op = .sendOnly then (qpOf s q).msn + 1 else (qpOf s q).msn)
      ∧ (qpOf t q).cur = (if op = .sendOnly then none
          else some (some (qpOf s q).slot, a, m.payload.length, 2 ^ c.slotLog2 - 16))
      ∧ (∃ o ∈ t.items.own, o.use = .gwIn q m.psn ∧ o.opcode = 0x02 ∧ o.addr = a ∧ o.len = m.payload.length)
      ∧ (∃ e, (qpOf t q).ins = [e] ∧ e.psn = m.psn ∧ e.items = 1
          ∧ e.record = if op = .sendOnly then some ((qpOf s q).slot, m.payload.length) else none)
      ∧ OtherQps q s t ∧ t.larder = s1.larder ∧ t.work = s.work)
  ∧ (∀ (s s1 : State) (m : RoceMsg) (q : Fin 16384) (c : QpCtx) (op : RoceOp) (i : Instr) (slot : Option Nat) (a : Word)
      (got most : Nat),
    (op, i) ∈ [(.writeMiddle, Instr.rdmaWriteMiddle m), (.writeLast, Instr.rdmaWriteLast m), (.sendMiddle, Instr.sendMiddle m),
      (.sendLast, Instr.sendLast m)] →
    RoceArrives s m q c s1 → (qpOf s q).cur = some (slot, a, got, most) → slot.isSome = isSend op → m.payload ≠ [] →
    got + m.payload.length ≤ most → (op = .writeLast → got + m.payload.length = most) →
    Completes i s fun t => (qpOf t q).expPsn = (qpOf s q).expPsn + 1
      ∧ (qpOf t q).msn = (if endsMsg op then (qpOf s q).msn + 1 else (qpOf s q).msn)
      ∧ (qpOf t q).cur = (if endsMsg op then none else some (slot, a, got + m.payload.length, most))
      ∧ (qpOf t q).free = (qpOf s q).free ∧ (qpOf t q).slot = (qpOf s q).slot
      ∧ (∃ o ∈ t.items.own, o.use = .gwIn q m.psn ∧ o.opcode = 0x02 ∧ o.addr = a + BitVec.ofNat 64 got
          ∧ o.len = m.payload.length)
      ∧ OtherQps q s t ∧ t.larder = s1.larder ∧ t.work = s.work)
  ∧ (∀ (s s1 : State) (m : RoceMsg) (q : Fin 16384) (c : QpCtx), RoceArrives s m q c s1 → (qpOf s q).cur = none →
    rethOk c m c.rd = true → m.len ≠ 0 →
    Completes (.rdmaReadRequest m) s fun t =>
      (qpOf t q).expPsn = psnAdd (qpOf s q).expPsn (msgPackets c.mtu m.len.toNat) ∧ (qpOf t q).msn = (qpOf s q).msn + 1
      ∧ (∃ e, (qpOf t q).ins = [e] ∧ e.psn = m.psn ∧ e.psns = msgPackets c.mtu m.len.toNat
          ∧ e.read = some (c.regionBase + m.va, m.len.toNat))
      ∧ OtherQps q s t ∧ t.larder = s1.larder ∧ t.work = s.work)
  ∧ (∀ e ∈ ([(.sendFirst, .sendFirst), (.sendMiddle, .sendMiddle), (.sendLast, .sendLast), (.sendOnly, .sendOnly),
      (.writeFirst, .rdmaWriteFirst), (.writeMiddle, .rdmaWriteMiddle), (.writeLast, .rdmaWriteLast), (.writeOnly, .rdmaWriteOnly),
      (.readReq, .rdmaReadRequest)] : List (RoceOp × (RoceMsg → Instr))),
    ∀ (s : State) (m : RoceMsg), s.tick.todo = [] →
    exec (e.2 m) s = .next (roceIn e.1 m s)
      ∧ (roceFor s m = none → exec (e.2 m) s = .next (roceDiscard m s))
      ∧ (∀ q c s1, roceFor s m = some (q, c) → ethPass m.port m.frame s = (none, s1) → exec (e.2 m) s = .next s1)
      ∧ (∀ q c, roceFor s m = some (q, c) → (ethPort s m.port).waiting = [] → 0 < psnDiff (qpOf s q).expPsn m.psn →
        psnDiff (qpOf s q).expPsn m.psn < 2 ^ 23 →
        Completes (e.2 m) s fun t => (qpOf t q).expPsn = (qpOf s q).expPsn ∧ (qpOf t q).cur = (qpOf s q).cur
          ∧ (qpOf t q).msn = (qpOf s q).msn ∧ (qpOf t q).free = (qpOf s q).free ∧ (qpOf t q).slot = (qpOf s q).slot ∧ t.work = s.work))
  ∧ (∀ (s : State) (m : RoceMsg), (ethOn s m.port = true → (ethPort s m.port).up = true →
      roceDiscard m s = bumpEth m.port 5 1 (ethCame m.port true m.frame s))
    ∧ ((ethOn s m.port = false ∨ (ethPort s m.port).up = false) → roceDiscard m s = s))
  ∧ (∀ (s : State) (m : RoceMsg) (q : Fin 16384) (c : QpCtx) (op : RoceOp), psnDiff (qpOf s q).expPsn m.psn = 0 →
    (s.attic.draining = true → startsMsg op = true → gwTake q c op m s = some (gwNak q c.port synOperational stDrained m.psn s))
      ∧ (s.attic.draining = false → startsMsg op = true → (qpOf s q).cur.isSome = true →
        gwTake q c op m s = some (gwNak q c.port synInvalid stDenied m.psn s))
      ∧ (s.attic.draining = false → (qpOf s q).cur = none → (op = .writeFirst ∨ op = .writeOnly) → rethOk c m c.wr = false →
        gwTake q c op m s = some (gwNak q c.port synAccess stDenied m.psn s))
      ∧ (s.attic.draining = false → (qpOf s q).cur = none → (op = .sendFirst ∨ op = .sendOnly) → c.send = true → (qpOf s q).free = 0 →
        gwTake q c op m s = some (gwNak q c.port synRnr stOk m.psn s)))
  ∧ (∀ (s : State) (q : Fin 16384) (l : Fin 16) (st : BitVec 8) (psn : BitVec 24), (qpOf s q).silent = false →
    (∀ syn ∈ [synRnr, synSeq], gwNak q l syn st psn s = bumpEth l (if syn = synRnr then 52 else 49) 1
        (qpSend q { op := .ack, psn := psn, syndrome := BitVec.ofNat 8 syn, msn := (qpOf s q).msn } s))
      ∧ (∀ syn ∈ [synInvalid, synAccess, synOperational], gwNak q l syn st psn s = qpStop q syn st (bumpEth l 49 1
        (qpSend q { op := .ack, psn := psn, syndrome := BitVec.ofNat 8 syn, msn := (qpOf s q).msn } s))))

/-- R615, R620, R622, R626, R627: what an idle queue pair's one outgoing descriptor does on each answer and timer. An ACK
that covers it completes it; a READ response that is next is written to local memory; a sequence NAK and a time-out
send again from the oldest PSN that is not acknowledged; an RNR NAK holds the queue pair for its time; the other NAKs
end the descriptor and stop the queue pair with event 0x68, as do exhausted retries; a CNP that its class lets in is noted for the next step
7; an answer that no queue pair of the port takes is discarded and counted. A clause of no effect (NoEffect), where an event's condition does not hold, is the model's choice (log 1). -/
def Obligations.RdmaAnswersAndTimers : Prop :=
  (∀ (s s1 : State) (m : RoceMsg) (q : Fin 16384) (c : QpCtx) (o : GwOut), RoceComes s m q c s1 →
    (qpOf s q).outs = [o] → o.op ≠ 0x65 → o.started = true → o.acked ≤ o.n → coveredBy o m.psn = o.n →
    Completes (.acknowledge m) s fun t => (qpOf t q).outs = [] ∧ flightOf t o.d = none ∧ (qpOf t q).retries = 0
      ∧ (qpOf t q).rnrs = 0 ∧ OtherQps q s t ∧ HostOnly { s1 with gw := t.gw } t)
  ∧ (∀ (s s1 : State) (m : RoceMsg) (q : Fin 16384) (c : QpCtx) (o : GwOut), RoceComes s m q c s1 →
    (qpOf s q).outs = [o] → o.op = 0x65 → o.started = true → o.acked < o.n → psnAdd o.psn o.acked = m.psn →
    m.payload.length = min c.mtu (o.len - o.acked * c.mtu) →
    (findTag s (gwTags (80 + c.port.val)).1 (gwTags (80 + c.port.val)).2).isSome = true →
    Completes (.rdmaReadResponse m) s fun t =>
      (∃ o', (qpOf t q).outs = [o'] ∧ o'.acked = o.acked + 1 ∧ o'.writes = o.writes + 1 ∧ o'.d = o.d)
      ∧ (∃ w ∈ t.items.own, w.use = .gwOut o.d m.psn ∧ w.opcode = 0x02 ∧ w.len = m.payload.length
          ∧ w.addr = o.addr + BitVec.ofNat 64 (o.acked * c.mtu))
      ∧ (qpOf t q).retries = 0 ∧ OtherQps q s t ∧ t.larder = s1.larder ∧ t.work = s.work)
  ∧ (∀ (s s1 : State) (m : RoceMsg) (q : Fin 16384) (c : QpCtx) (o : GwOut), RoceComes s m q c s1 →
    (qpOf s q).outs = [o] → o.started = true → o.acked < o.n → coveredBy o (m.psn - 1) ≤ o.acked →
    Completes (.nakPsnSequenceError m) s fun t =>
      (∃ o', (qpOf t q).outs = [o'] ∧ o'.d = o.d ∧ o'.psn = o.psn ∧ o'.acked = o.acked ∧ (o.op ≠ 0x65 → o'.sent = o.acked))
      ∧ (qpOf t q).ackAt = s.tick.elapsed ∧ OtherQps q s t ∧ t.larder = s1.larder ∧ t.work = s.work)
  ∧ (∀ (s s1 : State) (m : RoceMsg) (q : Fin 16384) (c : QpCtx) (o : GwOut), RoceComes s m q c s1 →
    (qpOf s q).outs = [o] → o.started = true → o.acked < o.n → coveredBy o (m.psn - 1) ≤ o.acked →
    (qpOf s q).rnrs < c.rnrRetry →
    Completes (.rnrNak m) s fun t => qpOf t q = { qpOf s q with
        rnrs := (qpOf s q).rnrs + 1, rnrTo := some (s.tick.ns + rnrNs m.timer) }
      ∧ OtherQps q s t ∧ t = { s1 with gw := t.gw, counts := t.counts })
  ∧ (∀ (s s1 : State) (m : RoceMsg) (q : Fin 16384) (c : QpCtx) (o : GwOut) (i : Instr),
    i ∈ [Instr.nakRemoteAccessError m, .nakInvalidRequest m, .nakRemoteOperationalError m] →
    RoceComes s m q c s1 → (qpOf s q).outs = [o] → o.started = true → o.acked < o.n →
    coveredBy o (m.psn - 1) ≤ o.acked → psnDiff o.psn m.psn < o.n →
    Completes i s fun t => (qpOf t q).outs = [] ∧ flightOf t o.d = none ∧ fnSt t (.qp q) = .stopping
      ∧ (∃ e ∈ t.counts.sideband, e.code = 0x68 ∧ e.unit = BitVec.ofNat 16 q.val)
      ∧ OtherQps q s t ∧ HostOnly { s1 with gw := t.gw, fns := t.fns } t)
  ∧ (∀ (s : State) (q : Fin 16384) (c : QpCtx) (frame : List Byte), (qpOf s q).ctx = some c →
    (∀ s1 ce, fnSt s (.qp q) = .on → ethTakes s c.port frame = true → ethPass c.port frame s = (some ce, s1) →
      exec (.cnp ⟨q, frame⟩) s = .next (bumpEth c.port 48 1 (modQp q (fun x => { x with cnpIn := true }) s1)))
      ∧ (∀ s1, fnSt s (.qp q) = .on → ethTakes s c.port frame = true → ethPass c.port frame s = (none, s1) →
        exec (.cnp ⟨q, frame⟩) s = .next s1)
      ∧ (fnSt s (.qp q) ≠ .on ∨ ethTakes s c.port frame = false → NoEffect (.cnp ⟨q, frame⟩) s))
  ∧ (∀ e ∈ ([(.acknowledge, fun m q _ s => gwPump q (gwProgress q (gwAckTo q m.psn s))),
      (.nakPsnSequenceError, fun m q c s => gwResend q c.port (gwAckTo q (m.psn - 1) (bumpEth c.port 50 1 s)))]
      : List ((RoceMsg → Instr) × (RoceMsg → Fin 16384 → QpCtx → State → State))),
    ∀ (s s1 : State) (m : RoceMsg) (q : Fin 16384) (c : QpCtx), RoceComes s m q c s1 → exec (e.1 m) s = .next (e.2 m q c s1))
  ∧ (∀ e ∈ ([.acknowledge, .nakPsnSequenceError, .rnrNak, .rdmaReadResponse, .nakRemoteAccessError, .nakInvalidRequest,
      .nakRemoteOperationalError] : List (RoceMsg → Instr)),
    ∀ (s : State) (m : RoceMsg), roceFor s m = none → exec (e m) s = .next (roceDiscard m s))
  ∧ (∀ (s : State) (q : Fin 16384) (c : QpCtx) (o : GwOut), (qpOf s q).ctx = some c → fnSt s (.qp q) = .on →
    (qpOf s q).outs = [o] → o.started = true → o.acked < o.n → (qpOf s q).rnrTo = none →
    c.ackTicks ≤ ageOf s (qpOf s q).ackAt → (qpOf s q).retries < c.retryCnt →
    Completes (.qpAckTimeout q) s fun t => (qpOf t q).retries = (qpOf s q).retries + 1
      ∧ (∃ o', (qpOf t q).outs = [o'] ∧ o'.d = o.d ∧ o'.psn = o.psn ∧ o'.acked = o.acked ∧ (o.op ≠ 0x65 → o'.sent = o.acked))
      ∧ (qpOf t q).ackAt = s.tick.elapsed ∧ OtherQps q s t ∧ t.larder = s.larder ∧ t.work = s.work)
  ∧ (∀ (s : State) (q : Fin 16384) (c : QpCtx) (o : GwOut), (qpOf s q).ctx = some c → fnSt s (.qp q) = .on →
    (qpOf s q).outs = [o] → o.started = true → o.acked < o.n → (qpOf s q).rnrTo = none →
    c.ackTicks ≤ ageOf s (qpOf s q).ackAt → c.retryCnt ≤ (qpOf s q).retries →
    Completes (.qpAckTimeout q) s fun t => (qpOf t q).outs = [] ∧ flightOf t o.d = none ∧ fnSt t (.qp q) = .stopping
      ∧ OtherQps q s t ∧ HostOnly { s with gw := t.gw, fns := t.fns } t)
  ∧ (∀ (s : State) (q : Fin 16384) (c : QpCtx) (n : Nat), (qpOf s q).ctx = some c → (qpOf s q).rnrTo = some n →
    n ≤ s.tick.ns →
    Completes (.qpRnrTimer q) s fun t => (qpOf t q).rnrTo = none ∧ (qpOf t q).ackAt = s.tick.elapsed
      ∧ OtherQps q s t ∧ t.larder = s.larder ∧ t.work = s.work)
  ∧ (∀ (s : State) (q : Fin 16384) (c : QpCtx), (qpOf s q).ctx = some c →
    (∀ n, (qpOf s q).rnrTo = some n → n ≤ s.tick.ns →
      exec (.qpRnrTimer q) s = .next (gwResend q c.port (modQp q (fun x => { x with rnrTo := none }) s)))
      ∧ (∀ o, oldestOut (qpOf s q) = some o → (qpOf s q).rnrTo = none → c.ackTicks ≤ ageOf s (qpOf s q).ackAt →
        exec (.qpAckTimeout q) s = .next (if c.retryCnt ≤ (qpOf s q).retries then gwExhaust q s
          else gwResend q c.port (modQp q (fun x => { x with retries := x.retries + 1 }) s)))
      ∧ ((qpOf s q).rnrTo.isSome = true ∨ ageOf s (qpOf s q).ackAt < c.ackTicks ∨ oldestOut (qpOf s q) = none →
        NoEffect (.qpAckTimeout q) s))
  ∧ (∀ (s : State) (q : Fin 16384), (∀ n, (qpOf s q).rnrTo = some n → s.tick.ns < n) → NoEffect (.qpRnrTimer q) s)

/-- Table 3-6, R76 to R79, R813, R682: a descriptor that enables an instance starts one that is Off under the next
generation, completes at once where the instance is Starting or On, and is recorded as pending in Stopping; one that
disables it is recorded in Starting, stops it in On, drops a pending enable in Stopping and completes at once in Off, without effect.
In Lockdown an enable that needs a key ends, as does one that its function's chapter refuses. -/
def Obligations.FunctionDescriptors : Prop :=
  (∀ (s : State) (d : DRef) (f : InFlight) (c : Instr) (x : FnId), Enables s d f c x → fnSt s x = .off →
    (fnOf s x).pend = false → enableRefusal s x (fld f.desc 192 16) = none →
    Completes c s fun t => fnSt t x = .starting ∧ fnGen t x = fnGen s x + 1 ∧ (fnOf t x).onWait = [d]
      ∧ (∃ f', flightOf t d = some f' ∧ f'.waits = f.waits + 1) ∧ OtherFns x s t ∧ t.larder = s.larder ∧ t.work.mem = s.work.mem)
  ∧ (∀ (s : State) (d : DRef) (f : InFlight) (c : Instr) (x : FnId) (st : BitVec 8), Enables s d f c x → fnSt s x = .off →
    (fnOf s x).pend = false → enableRefusal s x (fld f.desc 192 16) = some st →
    Completes c s fun t => flightOf t d = none ∧ HostOnly s t)
  ∧ (∀ (s : State) (d : DRef) (f : InFlight) (c : Instr) (x : FnId), Enables s d f c x → fnSt s x = .off →
    (fnOf s x).pend = true → locked s = false →
    Completes c s fun t => fnOf t x = { fnOf s x with pendWait := (fnOf s x).pendWait ++ [d] }
      ∧ OtherFns x s t ∧ t = { s with fns := t.fns, rings := t.rings })
  ∧ (∀ (s : State) (d : DRef) (f : InFlight) (c : Instr) (x : FnId), Enables s d f c x →
    (fnSt s x = .starting ∨ fnSt s x = .on) → Completes c s fun t => flightOf t d = none ∧ HostOnly s t)
  ∧ (∀ (s : State) (d : DRef) (f : InFlight) (c : Instr) (x : FnId), Enables s d f c x → fnSt s x = .stopping →
    locked s = false →
    Completes c s fun t => fnOf t x = { fnOf s x with pend := true, pendWait := (fnOf s x).pendWait ++ [d] }
      ∧ OtherFns x s t ∧ t = { s with fns := t.fns, rings := t.rings })
  ∧ (∀ (s : State) (d : DRef) (f : InFlight) (c : Instr) (x : FnId), Enables s d f c x → locked s = true →
    (∀ i, x ≠ .sq i ∧ x ≠ .cq i) → Completes c s fun t => flightOf t d = none ∧ HostOnly s t)
  ∧ (∀ (s : State) (d : DRef) (f : InFlight) (c : Instr) (x : FnId), Disables s d f c x → fnSt s x = .off →
    Completes c s fun t => flightOf t d = none ∧ HostOnly s t)
  ∧ (∀ (s : State) (d : DRef) (f : InFlight) (c : Instr) (x : FnId), Disables s d f c x → fnSt s x = .starting →
    Completes c s fun t => fnOf t x = { fnOf s x with recDis := true, offWait := (fnOf s x).offWait ++ [d] }
      ∧ OtherFns x s t ∧ t = { s with fns := t.fns, rings := t.rings })
  ∧ (∀ (s : State) (d : DRef) (f : InFlight) (c : Instr) (x : FnId), Disables s d f c x → fnSt s x = .on →
    Completes c s fun t => fnSt t x = .stopping ∧ fnGen t x = fnGen s x ∧ (fnOf t x).offWait = (fnOf s x).offWait ++ [d]
      ∧ OtherFns x s t)
  ∧ (∀ (s : State) (d : DRef) (f : InFlight) (c : Instr) (x : FnId), Disables s d f c x → fnSt s x = .stopping →
    Completes c s fun t => fnOf t x = { fnOf s x with
        pend := false, pendWait := [], offWait := (fnOf s x).offWait ++ [d] }
      ∧ OtherFns x s t ∧ HostOnly { s with fns := t.fns } t)

/-- R75 to R77, R431, R790, R813: at the boundary for which it is prepared an instance whose set-up is
complete enters On, and stops at once where a disable was recorded or its set-up failed (a port with a recorded disable stops from
Starting, R790); one in Stopping that holds nothing more enters Off
with its generation kept, and a pending enable starts it again under the next generation. R788 to R793, R141: the
control words of a port and of the rings that registers set up enable and disable them like descriptors; a host reset
stops every ring that is On and records a disable for one that is Starting, and no other instance changes. A clause of
no effect (NoEffect), where an event's condition does not hold, is the model's choice (log 1). -/
def Obligations.FunctionBoundariesAndControlWords : Prop :=
  ((∀ (s : State) (x : FnId), s.tick.slot = 0 → fnSt s x = .starting → reached s (fnOf s x).due = true →
      fnReady s x = true → (fnOf s x).recDis = false → setUpStatus s x = stOk →
      Completes (.functionOn x) s fun t =>
        fnOf t x = { fnOf s x with st := .on, since := s.tick.elapsed, onWait := [] }
        ∧ (∀ d ∈ (fnOf s x).onWait, flightOf t d = none) ∧ OtherFns x s t
        ∧ HostOnly { s with fns := t.fns, streams := t.streams } t)
    ∧ (∀ (s : State) (x : FnId), s.tick.slot = 0 → fnSt s x = .starting → reached s (fnOf s x).due = true →
      ((fnReady s x = true ∧ ((fnOf s x).recDis = true ∨ setUpStatus s x ≠ stOk)) ∨ (isPort x = true ∧ (fnOf s x).recDis = true)) →
      Completes (.functionOn x) s fun t => fnSt t x = .stopping ∧ fnGen t x = fnGen s x ∧ (fnOf t x).recDis = false
        ∧ (fnOf t x).offWait = (fnOf s x).offWait ∧ (∀ g, g ≠ x → (∀ q, g ≠ .qp q) → fnOf t g = fnOf s g))
    ∧ (∀ (s : State) (x : FnId), (s.tick.slot ≠ 0 ∨ fnSt s x ≠ .starting ∨ reached s (fnOf s x).due = false
        ∨ (fnReady s x = false ∧ (∀ g, x ≠ .group g) ∧ (fnOf s x).recDis = false)) →
      NoEffect (.functionOn x) s)
    ∧ (∀ (s : State) (x : FnId), s.tick.slot = 0 → fnSt s x = .stopping → reached s (fnOf s x).due = true →
      fnIdle s x = true → tblWf {} s.fns = true →
      Completes (.functionOff x) s fun t =>
        fnOf t x = { fnOf s x with st := .off, since := s.tick.elapsed, due := prepDue s, recDis := false, offWait := [] }
        ∧ (∀ d ∈ (fnOf s x).offWait, flightOf t d = none) ∧ OtherFns x s t ∧ t.larder = s.larder ∧ t.work.mem = s.work.mem)
    ∧ (∀ (s : State) (x : FnId), s.tick.slot = 0 → fnSt s x = .off → reached s (fnOf s x).due = true →
      (fnOf s x).pend = true →
      enableRefusal s x (((fnOf s x).pendWait.head?.bind (flightOf s)).elim 0 (fun f => fld f.desc 192 16)) = none →
      Completes (.functionOff x) s fun t => fnSt t x = .starting ∧ fnGen t x = fnGen s x + 1 ∧ (fnOf t x).pend = false
        ∧ (fnOf t x).onWait = (fnOf s x).pendWait ∧ OtherFns x s t)
    ∧ (∀ (s : State) (g : Fin 1024), s.tick.slot = 0 → fnSt s (.group g) = .starting → reached s (fnOf s (.group g)).due = true →
      fnReady s (.group g) = false →
      exec (.functionOn (.group g)) s
        = .next (groupReserve g (setFn s (.group g) { fnOf s (.group g) with due := prepDue s })))
    ∧ (∀ (s : State) (x : FnId), s.tick.slot = 0 → fnSt s x = .off → reached s (fnOf s x).due = true → (fnOf s x).pend = false →
      NoEffect (.functionOff x) s)
    ∧ (∀ (s : State) (x : FnId), (s.tick.slot ≠ 0 ∨ reached s (fnOf s x).due = false ∨ fnSt s x = .on ∨ fnSt s x = .starting
        ∨ (fnSt s x = .stopping ∧ fnIdle s x = false)) → NoEffect (.functionOff x) s))
  ∧ ((∀ (s : State) (c : Instr) (x : FnId),
      ((∃ l, c = .portCtrlEnable l ∧ x = .port l) ∨ ∃ r, c = .ringCtrlEnable r ∧ x = regRingFn r) →
      fnSt s x = .off → (fnOf s x).pend = false →
      Completes c s fun t => fnSt t x = .starting ∧ fnGen t x = fnGen s x + 1 ∧ OtherFns x s t ∧ t.larder = s.larder
        ∧ t.work = s.work)
    ∧ (∀ (s : State) (c : Instr) (x : FnId),
      ((∃ l, c = .portCtrlEnable l ∧ x = .port l) ∨ ∃ r, c = .ringCtrlEnable r ∧ x = regRingFn r) →
      (fnSt s x = .starting ∨ fnSt s x = .on) → NoEffect c s)
    ∧ (∀ (s : State) (c : Instr) (x : FnId),
      ((∃ l, c = .portCtrlEnable l ∧ x = .port l) ∨ ∃ r, c = .ringCtrlEnable r ∧ x = regRingFn r) →
      fnSt s x = .stopping →
      Completes c s fun t => fnOf t x = { fnOf s x with pend := true } ∧ OtherFns x s t ∧ t = { s with fns := t.fns })
    ∧ (∀ (s : State) (c : Instr) (x : FnId),
      ((∃ l, c = .portCtrlDisable l ∧ x = .port l) ∨ ∃ r, c = .ringCtrlDisable r ∧ x = regRingFn r) →
      fnSt s x = .off → NoEffect c s)
    ∧ (∀ (s : State) (c : Instr) (x : FnId),
      ((∃ l, c = .portCtrlDisable l ∧ x = .port l) ∨ ∃ r, c = .ringCtrlDisable r ∧ x = regRingFn r) →
      fnSt s x = .stopping →
      Completes c s fun t => fnOf t x = { fnOf s x with pend := false, pendWait := [] } ∧ OtherFns x s t
        ∧ HostOnly { s with fns := t.fns } t)
    ∧ (∀ (s : State) (c : Instr) (x : FnId),
      ((∃ l, c = .portCtrlDisable l ∧ x = .port l) ∨ ∃ r, c = .ringCtrlDisable r ∧ x = regRingFn r) →
      fnSt s x = .on →
      Completes c s fun t => fnSt t x = .stopping ∧ fnGen t x = fnGen s x
        ∧ (∀ g, g ≠ x → (∀ q, g ≠ .qp q) → fnOf t g = fnOf s g) ∧ t.larder = s.larder ∧ t.work = s.work)
    ∧ (∀ (s : State) (c : Instr) (x : FnId),
      ((∃ l, c = .portCtrlDisable l ∧ x = .port l) ∨ ∃ r, c = .ringCtrlDisable r ∧ x = regRingFn r) →
      fnSt s x = .starting →
      Completes c s fun t => fnOf t x = { fnOf s x with recDis := true } ∧ OtherFns x s t ∧ t = { s with fns := t.fns })
    ∧ (∀ s : State, let u := takeInbox 0x09 { s with enz.hostReset := true }
      exec .hostReset s = .next (hostResetAck (allRings.foldl (fun s f => fnDisable f none s) { u with
        enz.discarded := u.enz.discarded + s.rings.evHeld.length + s.rings.evOver.length, rings.evHeld := [], rings.evOver := [] })))
    ∧ (∀ s : State, tblWf {} s.fns = true →
      Completes .hostReset s fun t =>
        (∀ x ∈ allRings, fnSt t x ≠ .on ∧ (fnSt t x = .starting → (fnOf t x).recDis = true)
          ∧ fnGen t x = fnGen s x)
        ∧ (∀ x, x ∉ allRings → fnOf t x = fnOf s x) ∧ t.larder = s.larder ∧ t.work = s.work))

/-- R639 to R644, Tables 18-3 to 18-5: the ladder. Stuffed coding undoes itself and keeps every run at 15 bits or fewer; a training frame that
a lane receives in step with its sender gives its message; training lock needs 8 good frames and is lost by 4 bad ones. Enough detected
lanes go to Negotiate with a fresh CAP exchange; the third matching CAP settles the initiator and takes the lanes to Step; a STEP (the 64
of the initiator, the responder's eighth) changes the rate of the lanes that passed and holds the others out; RESULTs and the ends of
windows are noted until both are known, and a recovering lane that both ends pass goes to Align; a lane or a link beyond its time limit is
held out or goes back; aligned lanes that hold both locks within the skew enter Service and the link layer starts. A clause of no effect
(NoEffect), where an event's condition does not hold, and the scrambler's and the stuffing's start are the model's choice (logs 1, 119). -/
def Obligations.LaneLadder : Prop :=
  ((∀ bs, unstuff false 0 (stuff false 0 bs) = bs)
    ∧ (∀ bs k b, ((stuff false 0 bs).drop k).take 16 ≠ List.replicate 16 b)
    ∧ (∀ r bs, (descramble r (scramble r bs).1).1 = bs)
    ∧ (∀ c, capOfBody (capBody c) = c)
    ∧ (∀ (a : Lane) msg body n, a.run = (false, 0) →
      (trainRx a (trainBits a.descr (trainBytes msg body n))).2 = some (msg, body))
    ∧ (∀ z, (List.foldl lockStep z (List.replicate 8 true)).1 = true ∧ (List.foldl lockStep z (List.replicate 4 false)).1 = false)
    ∧ (∀ n, n < 8 → (List.foldl lockStep (false, 0) (List.replicate n true)).1 = false)
    ∧ (∀ n, n < 4 → (List.foldl lockStep (true, 0) (List.replicate n false)).1 = true))
  ∧ ((∀ (s : State) (l : LinkId) (m : List DetectLane), tblWf {} s.lanes = true → ethMode s l.val = false → (link s l).up = false →
      (link s l).nego = false → lanesWhere s l (fun a => a.st = .negotiate || a.st = .step || a.st = .align) = [] →
      minLanes s l ≤ ((List.finRange 4).filter (detected s l m)).length →
      Completes (.laneDetectDone l m) s fun t =>
        (∀ j, lane t (laneId l j) = if detected s l m j then
            { lane s (laneId l j) with st := .negotiate, since := s.tick.ns, tries := 0, pass := none, peerPass := none }
          else lane s (laneId l j))
        ∧ OtherLanes l s t ∧ t = { s with lanes := t.lanes, links := (drawNonce l s).links, free := s.free + 1 })
    ∧ (∀ (s : State) (l : LinkId) (m : List DetectLane), (ethMode s l.val = true ∨ (link s l).up = true ∨ (link s l).nego = true ∨
        ((List.finRange 4).filter (detected s l m)).length < minLanes s l) → NoEffect (.laneDetectDone l m) s)
    ∧ (∀ (s : State) (l : LinkId) (w : TrainLine),
      exec (.trainingCap l w) s = .next (onTrain l w 0x01 (fun b => trainCapIn l (capOfBody b)) s)
      ∧ exec (.trainingStep l (some w.lane) w.bits) s =
          .next (onTrain l w 0x02 (fun b => trainStepIn l (b.extractLsb' 0 2) (b.extractLsb' 2 4)) s)
      ∧ exec (.trainingResult l w.lane w.bits) s =
          .next (onTrain l w 0x03 (fun b => trainResultIn l (b.extractLsb' 0 2) (b.extractLsb' 2 4)) s)
      ∧ exec (.trainingLoop l w.lane w.bits) s = .next (onTrain l w 0x04 (fun b => trainLoopIn (laneId l w.lane) (b.extractLsb' 0 2)) s))
    ∧ (∀ (s : State) (l : LinkId) (w : TrainLine) (msg m : BitVec 8) (b : BitVec 64) (f : BitVec 64 → State → State),
      let r := trainRx (lane s (laneId l w.lane)) w.bits
      let s1 := setLane s (laneId l w.lane) r.1
      (r.2 = some (msg, b) → onTrain l w msg f s = f b (trainSeen l s1))
      ∧ (r.2 = some (m, b) → m ≠ msg → onTrain l w msg f s = trainSeen l s1)
      ∧ (r.2 = none → onTrain l w msg f s = s1)))
  ∧ ((∀ (s : State) (l : LinkId) (c : TrainCap), ownPresent s l = 0 → trainCapIn l c s = s)
    ∧ (∀ (s : State) (l : LinkId) (c : TrainCap), ownPresent s l ≠ 0 → c.nonce = (link s l).nonce → trainCapIn l c s = drawNonce l s)
    ∧ (∀ (s : State) (l : LinkId) (c : TrainCap), ownPresent s l ≠ 0 → c.nonce ≠ (link s l).nonce →
      let s1 := modLink l (fun k =>
        { k with trainCap := some c, caps := k.caps + 1, initiator := decide (c.nonce.toNat < k.nonce.toNat) }) s
      ((link s l).caps < 2 ∨ c.present ≠ ownPresent s l → trainCapIn l c s = s1)
      ∧ (2 ≤ (link s l).caps → c.present = ownPresent s l → c.maxRate = 3 → trainCapIn l c s = modLanes l (fun _ a =>
          if a.st = .negotiate then
            { a with st := .step, since := s.tick.ns, rate := 0, tries := 0, pass := some true, peerPass := some true } else a) s1)
      ∧ (2 ≤ (link s l).caps → c.present = ownPresent s l → c.maxRate ≠ 3 → trainCapIn l c s = if capDone s l then s1 else
          raiseEv 0x1E l.val (2 + (ownPresent s l).toNat <<< 4 + 1 <<< 8) (fnGen s (.port l)) s1))
    ∧ (∀ (s : State) (l : LinkId) (bs : List Bool), exec (.trainingStep l none bs) s =
        .next (if (link s l).initiator then switchRate l (ownStep s l).1 (ownStep s l).2 s else s))
    ∧ (∀ (s : State) (l : LinkId) (r : BitVec 2) (m : BitVec 4),
      ((link s l).initiator = true → trainStepIn l r m s = s)
      ∧ ((link s l).initiator = false → (link s l).stepCount < 7 →
          trainStepIn l r m s = modLink l (fun k => { k with stepCount := k.stepCount + 1 }) s)
      ∧ ((link s l).initiator = false → (link s l).stepCount = 7 →
          trainStepIn l r m s = switchRate l r m (modLink l (fun k => { k with stepCount := 0 }) s)))
    ∧ (∀ (s : State) (l : LinkId) (r : BitVec 2) (m : BitVec 4), tblWf {} s.lanes = true →
      let js := lanesWhere s l (fun a => a.st = .step)
      let t := switchRate l r m s
      js ≠ [] → (∀ j ∈ js, stepPassed (lane s (laneId l j)) = true ∧ (lane s (laneId l j)).rate.toNat + 1 = r.toNat) →
      minLanes s l ≤ ((List.finRange 4).filter (fun j => inLane (lane s (laneId l j)) && (!js.contains j || bit m j.val))).length →
      (∀ j, lane t (laneId l j) = if !js.contains j then lane s (laneId l j)
        else if bit m j.val then
          { lane s (laneId l j) with rate := r, since := s.tick.ns, tries := 0, pass := none, peerPass := none }
        else lane (holdLane (laneId l j) s) (laneId l j))
      ∧ OtherLanes l s t ∧ t = { s with lanes := t.lanes })
    ∧ (∀ (s : State) (l : LinkId) (r : BitVec 2) (m : BitVec 4),
      (∃ j ∈ lanesWhere s l (fun a => a.st = .step), stepPassed (lane s (laneId l j)) = false ∨
        (lane s (laneId l j)).rate.toNat + 1 ≠ r.toNat) → switchRate l r m s = s))
  ∧ ((∀ (s : State) (l : LinkId) (r : BitVec 2) (p : BitVec 4), tblWf {} s.lanes = true →
      (∀ j, (lane s (laneId l j)).pass = none) → minLanes s l ≤ laneCount (laneMask s l inLane) →
      (∀ j, lane (trainResultIn l r p s) (laneId l j) =
        if ((lane s (laneId l j)).st = .step || ((lane s (laneId l j)).st = .recover
            && (lane s (laneId l j)).retryAt.isNone && !(lane s (laneId l j)).failed)) && (lane s (laneId l j)).rate = r && r ≠ 0
        then { lane s (laneId l j) with peerPass := some (bit p j.val) } else lane s (laneId l j))
      ∧ OtherLanes l s (trainResultIn l r p s)
      ∧ trainResultIn l r p s = { s with lanes := (trainResultIn l r p s).lanes })
    ∧ (∀ (s : State) (l : LinkId) (es : List Nat), (∀ j, (lane s (laneId l j)).peerPass = none) →
      minLanes s l ≤ laneCount (laneMask s l inLane) → tblWf {} s.lanes = true →
      Completes (.prbsWindowEnd l es) s fun t =>
        (∀ j, let a := lane s (laneId l j)
          let n := BitVec.ofNat 32 (min (es.getD j.val 0) 0xFFFFFFFF)
          let w := reg s .laneCtrl (laneId l j).val
          lane t (laneId l j) =
            if ((a.st = .step ∧ a.rate ≠ 0) ∨ (a.st = .recover ∧ a.retryAt = none ∧ a.failed = false)) ∧ windowOver s a = true then
              { a with pass := some (decide (es.getD j.val 0 ≤ fld (reg s .laneTest) 8 24)), prbsErr := n }
            else if fld w 1 2 ≠ 0 ∧ bit w 3 = true ∧ bit w 4 = true then { a with prbsErr := n } else a)
        ∧ OtherLanes l s t ∧ t = { s with lanes := t.lanes })
    ∧ (∀ (s : State) (l : LinkId) (es : List Nat), exec (.prbsWindowEnd l es) s = .next (judgeLink l (modLanes l (fun j a =>
        let n := BitVec.ofNat 32 (min (es.getD j.val 0) 0xFFFFFFFF)
        let w := reg s .laneCtrl (laneId l j).val
        if (a.st = .step && a.rate ≠ 0 || a.st = .recover && a.retryAt.isNone && !a.failed) && windowOver s a then
          { a with pass := some (decide (es.getD j.val 0 ≤ fld (reg s .laneTest) 8 24)), prbsErr := n }
        else if fld w 1 2 ≠ 0 && bit w 3 && bit w 4 then { a with prbsErr := n } else a) s)))
    ∧ (∀ (s : State) (n : LaneId) (x y : Bool), (lane s n).pass = some x → (lane s n).peerPass = some y →
      ((lane s n).st = .step → x = true → y = true → judgeLane n s = s)
      ∧ ((lane s n).st = .step → (x && y) = false → judgeLane n s = attemptFail n s)
      ∧ ((lane s n).st = .recover → x = true → y = true → judgeLane n s = modLane n (fun a =>
          { a with st := .align, since := s.tick.ns, rate := 3, fails := 0, retryAt := none, pass := none, peerPass := none }) s)
      ∧ ((lane s n).st = .recover → (x && y) = false → judgeLane n s = recoverFail n s))
    ∧ (∀ (s : State) (n : LaneId), (2 ≤ (lane s n).tries → attemptFail n s = holdLane n s)
      ∧ ((lane s n).tries < 2 → attemptFail n s =
          modLane n (fun a => { a with tries := a.tries + 1, since := s.tick.ns, pass := none, peerPass := none }) s))
    ∧ (∀ (s : State) (l : LinkId), lanesWhere s l (fun a => a.st = .step) ≠ [] →
      (∀ j ∈ lanesWhere s l (fun a => a.st = .step), stepPassed (lane s (laneId l j)) = true ∧ (lane s (laneId l j)).rate = 3) →
      stepDone l s = modLanes l (fun _ a =>
        if a.st = .step then { a with st := .align, since := s.tick.ns, pass := none, peerPass := none } else a) s))
  ∧ ((∀ (s : State) (l : LinkId) (m : BitVec 4) (j : Fin 4), bit m j.val = true → (lane s (laneId l j)).st = .negotiate →
      limitPassed s (lane s (laneId l j)) = true →
      exec (.laneStateTimeout l m) s = .next (if capDone s l then s else lanesToDetect l s))
    ∧ (∀ (s : State) (l : LinkId) (m : BitVec 4), (∀ j, bit m j.val = true → (lane s (laneId l j)).st ≠ .negotiate) →
      exec (.laneStateTimeout l m) s = .next (judgeLink l
        (((List.finRange 4).filter (fun j => bit m j.val && limitPassed s (lane s (laneId l j)))).foldl
          (fun s j => if limitPassed s (lane s (laneId l j)) then laneLimit (laneId l j) s else s) s)))
    ∧ (∀ (s : State) (n : LaneId), ((lane s n).st = .step → laneLimit n s = attemptFail n s)
      ∧ ((lane s n).st = .align → laneLimit n s = afterHold (linkOfLane n) 4 (holdLane n s))
      ∧ ((lane s n).st = .recover → laneLimit n s = recoverFail n s))
    ∧ (∀ (s : State) (l : LinkId) (m : List AlignLane),
      let js := lanesWhere s l (fun a => a.st = .align)
      let far := js.filter (seenAs (fun x => holdsLock x && !inSkew x) m)
      let good := js.filter (seenAs (fun x => holdsLock x && inSkew x) m)
      let s1 := far.foldl (fun s j => afterHold l 4 (holdLane (laneId l j) s)) s
      (ethMode s l.val = true ∨ far ++ good = [] → NoEffect (.alignComplete l m) s)
      ∧ (ethMode s l.val = false → far ++ good ≠ [] → exec (.alignComplete l m) s =
          .next (afterAlign l (good.foldl (fun s j => modLane (laneId l j) (toService s.tick.ns) s) s1))))
    ∧ (∀ (s : State) (l : LinkId), (link s l).up = false → (link s l).nego = false →
      (lanesWhere s l aligning ≠ [] → afterAlign l s = s)
      ∧ (lanesWhere s l aligning = [] → laneCount (laneMask s l inLane) < minLanes s l → afterAlign l s = bringFail l 4 s)
      ∧ (lanesWhere s l aligning = [] → minLanes s l ≤ laneCount (laneMask s l inLane) → afterAlign l s = startNego l s))
    ∧ (∀ (s : State) (l : LinkId), (link s l).up = true →
      ((link s l).retrain = true → lanesWhere s l (fun a => inLane a && !(a.st = .service)) = [] →
        afterAlign l s = replayNow l (modLink l (fun k => { k with retrain := false }) s))
      ∧ ((link s l).retrain = false → afterAlign l s = s)))

/-- R636, R637, R647 to R654, R634: block lock is gained by 96 valid headers, and lock lost by 24 invalid ones of 96 or 4 codewords that do
not decode. A fault that holds of a lane in Service or Align holds it out and sends it to Recover with event 0x14, and the link ends with too
few lanes; the peer's lane state is followed; Recover is tried again after 65,536 ticks and the fourth failure sets failed; failed and
fallback clear on a write of 1; an Ethernet port whose lanes hold lock enters service. R654, R655, R657: a laser's fault, and an enable of 0,
darken every lane that the laser feeds; the end of a fault on an enabled laser with good power lights them; measurements are stored, counted
and alarmed; a training LOOP enters and leaves the far-end loop, and 10 s without a training frame end it. A clause of no effect (NoEffect),
where an event's condition does not hold, is the model's choice (log 1). -/
def Obligations.LaneFaultsLasersAndLoops : Prop :=
  ((∀ hs : List (BitVec 2), gainsLock hs = true ↔ 96 ≤ hs.length ∧ ∀ h ∈ hs.drop (hs.length - 96), h = 1 ∨ h = 2)
    ∧ (∀ a : Lane, lockLost a = true ↔ 24 ≤ (a.hdrs.filter id).length ∨ 4 ≤ a.badWords)
    ∧ (∀ (s : State) (n : LaneId) (c : LaneCause) (k : Nat),
      (c = .lock ∧ k = 1 ∧ (codeSeen s n = true → lockLost (lane s n) = true))
        ∨ (c = .ucwLimit ∧ k = 2 ∧ (codeSeen s n = true → fld (reg s .laneCtrl n.val) 8 8 ≤ ucwCount s (lane s n)))
        ∨ (c = .rxPower ∧ k = 3 ∧ 8 ≤ (lane s n).low) ∨ (c = .laser ∧ k = 4 ∧ (lane s n).darkened = true) →
      exec (.laneFault n c) s = .next (faultLane n k s))
    ∧ (∀ (s : State) (n : LaneId), (codeSeen s n = true → lockLost (lane s n) = false → NoEffect (.laneFault n .lock) s)
      ∧ (codeSeen s n = true → ucwCount s (lane s n) < fld (reg s .laneCtrl n.val) 8 8 → NoEffect (.laneFault n .ucwLimit) s)
      ∧ ((lane s n).low < 8 → NoEffect (.laneFault n .rxPower) s)
      ∧ ((lane s n).darkened = false → NoEffect (.laneFault n .laser) s))
    ∧ (∀ (s : State) (n : LaneId) (k : Nat), k ≤ 4 → tblWf {} s.lanes = true → (lane s n).st = .service ∨ (lane s n).st = .align →
      (lane s n).darkened = false → inLane (lane s n) = true → ethMode s (linkOfLane n).val = false →
      minLanes s (linkOfLane n) + 1 ≤ laneCount (laneMask s (linkOfLane n) inLane) →
      let t := faultLane n k s
      lane t n = toRecover s { lane s n with ownOut := true } ∧ (∀ j, j ≠ n → lane t j = lane s j)
        ∧ (∃ e, t.counts.sideband = s.counts.sideband ++ [e] ∧ e.code = 0x14 ∧ e.unit = BitVec.ofNat 16 n.val
            ∧ e.detail = BitVec.ofNat 128 k)
        ∧ HostOnly { s with lanes := t.lanes } t)
    ∧ (∀ (s : State) (n : LaneId) (k : Nat), ((lane s n).st = .service ∨ (lane s n).st = .align →
        faultLane n k s = afterHold (linkOfLane n) (laneStCode (lane s n).st) (raiseEv 0x14 n.val k 0 (holdLane n s)))
      ∧ ((lane s n).st ≠ .service → (lane s n).st ≠ .align → faultLane n k s = s))
    ∧ (∀ (s : State) (l : LinkId) (k : Nat), (ethMode s l.val = true → afterHold l k s = ethLanesDown l s)
      ∧ (ethMode s l.val = false → minLanes s l ≤ laneCount (laneMask s l inLane) → afterHold l k s = s)
      ∧ (ethMode s l.val = false → laneCount (laneMask s l inLane) < minLanes s l →
        ((link s l).up = true ∨ (link s l).nego = true → afterHold l k s = findFailure l 1 s)
        ∧ ((link s l).up = false → (link s l).nego = false → afterHold l k s = bringFail l k s)))
    ∧ (∀ (s : State) (n : LaneId),
      ((link s (linkOfLane n)).up = true → (link s (linkOfLane n)).retrain = true → (lane s n).ownOut = false →
        (lane s n).peerOut = false → recoverFail n s = findFailure (linkOfLane n) 2 s)
      ∧ ((lane s n).ownOut = true → 4 ≤ ((lane s n).fails + 1).toNat → recoverFail n s =
        raiseEv 0x19 n.val ((lane s n).fails + 1).toNat 0 (modLane n (fun a =>
          { a with fails := a.fails + 1, failed := true, ownOut := true, pass := none, peerPass := none }) s))
      ∧ ((lane s n).ownOut = true → ((lane s n).fails + 1).toNat < 4 → recoverFail n s = modLane n (fun a =>
          { a with fails := a.fails + 1, retryAt := some (s.tick.elapsed + 65536), pass := none, peerPass := none }) s))
    ∧ (∀ (s : State) (l : LinkId) (b : LaneState), tblWf {} s.lanes = true → (link s l).up = true → ethMode s l.val = false →
      minLanes s l ≤ ((List.finRange 4).filter (fun j => !bit b.outMask j.val
        && inLane { lane s (laneId l j) with peerOut := false })).length →
      minLanes s l ≤ laneCount b.txNext →
      Completes (.laneStateBlock l b) s fun t =>
        (∀ j, lane t (laneId l j) = let a := lane s (laneId l j)
          if bit b.outMask j.val && !a.peerOut && a.st = .service then toRecover s { a with peerOut := true }
          else { a with peerOut := bit b.outMask j.val })
        ∧ (link t l).peerTx = b.txNext ∧ OtherLanes l s t ∧ t = { s with lanes := t.lanes, links := t.links })
    ∧ (∀ (s : State) (l : LinkId) (b : LaneState), (link s l).up = true → ethMode s l.val = false →
      let s2 := afterHold l 5 (modLink l (fun k => { k with peerTx := b.txNext }) (modLanes l (fun j a =>
        if bit b.outMask j.val && !a.peerOut && a.st = .service then toRecover s { a with peerOut := true }
        else { a with peerOut := bit b.outMask j.val }) s))
      exec (.laneStateBlock l b) s = .next (if laneCount b.txNext < minLanes s2 l then findFailure l 1 s2 else s2))
    ∧ (∀ (s : State) (l : LinkId) (b : LaneState), (link s l).up = false ∨ ethMode s l.val = true →
      NoEffect (.laneStateBlock l b) s)
    ∧ (∀ (s : State) (n : LaneId) (k : BitVec 48), (lane s n).retryAt = some k → (lane s n).st = .recover →
      (lane s n).failed = false → (lane s n).darkened = false → reached s k = true → tblWf {} s.lanes = true →
      Completes (.recoverRetry n) s fun t => lane t n = toRecover s (lane s n) ∧ (∀ j, j ≠ n → lane t j = lane s j)
        ∧ t = { s with lanes := t.lanes })
    ∧ (∀ (s : State) (n : LaneId), (lane s n).retryAt = none ∨ (lane s n).st ≠ .recover ∨ (lane s n).failed = true →
      NoEffect (.recoverRetry n) s)
    ∧ (∀ (s : State) (n : LaneId), exec (.failedClear n) s = .next (clearFailed n s))
    ∧ (∀ (s : State) (n : LaneId), (lane s n).failed = false → clearFailed n s = s)
    ∧ (∀ (s : State) (n : LaneId), (lane s n).failed = true → (lane s n).st = .recover →
      clearFailed n s = modLane n (fun a => toRecover s { a with failed := false, fails := 0 }) s)
    ∧ (∀ (s : State) (n : LaneId), (lane s n).failed = true → tblWf {} s.lanes = true →
      Completes (.failedClear n) s fun t => (lane t n).failed = false ∧ (lane t n).fails = 0 ∧ (lane t n).st = (lane s n).st
        ∧ (∀ j, j ≠ n → lane t j = lane s j) ∧ t = { s with lanes := t.lanes })
    ∧ (∀ (s : State) (l : LinkId), RegsRise s →
      Completes (.fallbackClear l) s fun t => fallback t l = false ∧ t = setFallback l false s ∧ t = { s with regs := t.regs })
    ∧ (∀ (s : State) (l : Fin 16), let k : LinkId := ⟨80 + l.val, by omega⟩
      ethMode s k.val = true → (ethPort s l).up = false → (∀ j, laneLit s (laneId k j) = true) →
      Completes (.ethernetPortService l) s fun t => (ethPort t l).up = true ∧ (∀ j, (lane t (laneId k j)).st = .service)
        ∧ (∀ j, j ≠ l → ethPort t j = ethPort s j) ∧ OtherLanes k s t ∧ t = { s with lanes := t.lanes, gw := t.gw })
    ∧ (∀ (s : State) (l : Fin 16), (ethPort s l).up = true → NoEffect (.ethernetPortService l) s))
  ∧ ((∀ (s : State) (e : Fin 24) (b : Bool), tblWf {} s.lanes = true →
      Completes (.laserFault e b) s fun t => t = laserCheck e b (modLaser e b (fun z => { z with fault := true }) s)
        ∧ (laser t e b).fault = true ∧ laser t e (!b) = laser s e (!b)
        ∧ (∀ n ∈ laserLanes e b, (lane t n).darkened = true ∧ ((lane s n).darkened = false → (lane t n).st = .dark))
        ∧ t.larder = s.larder ∧ t.work = s.work ∧ t.regs = s.regs)
    ∧ (∀ (s : State) (e : Fin 24) (b : Bool) (p : Int), tblWf {} s.lanes = true → tblWf {} s.lasers = true →
      Completes (.laserFaultClear e b p) s fun t =>
        t = laserCheck e b (modLaser e b (fun z => { z with fault := false, power := BitVec.ofInt 16 p }) s)
        ∧ laser t e b = { laser s e b with fault := false, power := BitVec.ofInt 16 p }
        ∧ (bit (reg s .oeLaser e.val) b.toNat = true → laserLow s < (BitVec.ofInt 16 p).toInt →
            ∀ n ∈ laserLanes e b, (lane t n).darkened = false)
        ∧ t.larder = s.larder ∧ t.work = s.work ∧ t.regs = s.regs)
    ∧ (∀ (s : State) (e : Fin 24) (a b : Bool), tblWf {} s.lanes = true → RegsRise s →
      Completes (.oeLaserEnable e a b) s fun t => t = laserEnable e a b s ∧ bit (reg t .oeLaser e.val) 0 = a ∧ bit (reg t .oeLaser e.val) 1 = b
        ∧ (a = false → ∀ n ∈ laserLanes e false, (lane t n).darkened = true)
        ∧ (b = false → ∀ n ∈ laserLanes e true, (lane t n).darkened = true)
        ∧ t.lasers = s.lasers ∧ t.larder = s.larder ∧ t.work = s.work)
    ∧ (∀ (s : State) (n : LaneId) (p : BitVec 16), tblWf {} s.lanes = true →
      Completes (.opticalMeasure (.tx n p)) s fun t => lane t n = { lane s n with txPower := p }
        ∧ (∀ j, j ≠ n → lane t j = lane s j) ∧ t = { s with lanes := t.lanes })
    ∧ (∀ (s : State) (n : LaneId) (p : BitVec 16), tblWf {} s.lanes = true → (lane s n).low + 1 < 8 ∨ rxLow s ≤ p.toInt →
      Completes (.opticalMeasure (.rx n p)) s fun t =>
        lane t n = { lane s n with rxPower := p, low := if p.toInt < rxLow s then (lane s n).low + 1 else 0 }
        ∧ (∀ j, j ≠ n → lane t j = lane s j) ∧ t = { s with lanes := t.lanes })
    ∧ (∀ (s : State) (e : Fin 24) (b : Bool) (p : BitVec 16), tblWf {} s.lasers = true →
      Completes (.opticalMeasure (.laser e b p)) s fun t => laser t e b = { laser s e b with
          power := p, low := if p.toInt < laserLow s then (laser s e b).low + 1 else 0 }
        ∧ t.larder = s.larder ∧ t.work = s.work ∧ t.regs = s.regs)
    ∧ (∀ (s : State) (e : Fin 24) (b : Bool) (p : BitVec 16),
      let n := if p.toInt < laserLow s then (laser s e b).low + 1 else 0
      let s1 := laserCheck e b (modLaser e b (fun z => { z with power := p, low := n }) s)
      exec (.opticalMeasure (.laser e b p)) s =
        .next (if n = 2 then raiseEv 0x1F e.val ((if b then 2 else 1) + p.toNat <<< 16) 0 s1 else s1))
    ∧ (∀ (s : State) (n : LaneId) (p : BitVec 16), tblWf {} s.lanes = true → p.toInt < rxLow s → 7 ≤ (lane s n).low →
      exec (.opticalMeasure (.rx n p)) s = .next (faultLane n 3 (modLane n (fun a =>
        { a with rxPower := p, low := a.low + 1 }) s)))
    ∧ (∀ (s : State) (e : Fin 24) (b : Bool),
      ((laser s e b).fault = true ∨ bit (reg s .oeLaser e.val) b.toNat = false →
        laserCheck e b s = (laserLanes e b).foldl (fun s n => darkenLane n s) s)
      ∧ ((laser s e b).fault = false → bit (reg s .oeLaser e.val) b.toNat = true → laserLow s < (laser s e b).power.toInt →
        laserCheck e b s = (laserLanes e b).foldl (fun s n => lightLane n s) s)
      ∧ ((laser s e b).fault = false → bit (reg s .oeLaser e.val) b.toNat = true → (laser s e b).power.toInt ≤ laserLow s →
        laserCheck e b s = s))
    ∧ (∀ (e : Fin 24) (b : Bool) (n : LaneId), n ∈ laserLanes e b ↔ n.val / 16 = e.val ∧ n.val % 4 / 2 = b.toNat)
    ∧ (∀ (s : State) (n : LaneId), ((lane s n).st = .detect ∨ (lane s n).st = .negotiate) →
      trainLoopIn n 3 s = modLane n (fun a => { a with farLoop := some s.tick.ns }) s)
    ∧ (∀ (s : State) (n : LaneId), (lane s n).st ≠ .detect → (lane s n).st ≠ .negotiate → trainLoopIn n 3 s = s)
    ∧ (∀ (s : State) (n : LaneId), ((lane s n).farLoop.isSome = true → trainLoopIn n 0 s =
        modLane n (fun a => { a with farLoop := none, st := .detect, since := s.tick.ns }) s)
      ∧ ((lane s n).farLoop = none → trainLoopIn n 0 s = s))
    ∧ (∀ (s : State) (l : LinkId), tblWf {} s.lanes = true →
      Completes (.farLoopTimeout l) s fun t =>
        (∀ j k, (lane s (laneId l j)).farLoop = some k → k + 10000000000 ≤ s.tick.ns →
          (lane t (laneId l j)).farLoop = none ∧ (lane t (laneId l j)).st = .detect)
        ∧ (∀ j, (∀ k, (lane s (laneId l j)).farLoop = some k → s.tick.ns < k + 10000000000) →
          lane t (laneId l j) = lane s (laneId l j))
        ∧ OtherLanes l s t ∧ t = { s with lanes := t.lanes }))

/-- R679 to R685: a tripped sensor whose policy is to report raises its event alone; any other clears every key at once, drives ALARM_N and
sets the Lockdown tick; SEC_ZEROISE does the same with source 0xFE; at the Lockdown tick encrypted links are declared failed, the array
memories, thread registers, the sequence table and the Hawk's overflow are erased and every instance whose work needs a key stops. R663 to
R670, Tables 19-3 to 19-7a: an envelope is accepted exactly when every condition holds, one refused changes nothing but its count, its event
and its requester's outcome, and they are verified in order of arrival; sessions, provisioning and the other security descriptors have the
effects of Table 19-5, or are denied. A clause of no effect (NoEffect), where an event's condition does not hold, is the model's choice
(log 1), and so are the free values that the keys' random bits are drawn from (log 2). -/
def Obligations.StrongroomAlarmsAndSessions : Prop :=
  ((∀ (s : State) (n : Fin 8), policyOf s n.val = 0 →
      exec (.tamperTrip n) s = .next (raiseEv 0x70 n.val 0 0 (bumpModule (10 + n.val) s)))
    ∧ (∀ (s : State) (n : Fin 8), policyOf s n.val ≠ 0 →
      Completes (.tamperTrip n) s fun t => t.strong.offer = none ∧ t.strong.session = none ∧ t.strong.linkKey = false
        ∧ t.strong.linkMaster = 0 ∧ t.strong.alarm = true ∧ t.strong.lastSource = BitVec.ofNat 8 n.val
        ∧ t.strong.lockAt = some (s.strong.lockAt.getD (s.tick.elapsed + 1)) ∧ t.strong.lockdown = s.strong.lockdown
        ∧ t.strong.policy = s.strong.policy ∧ t.larder.key = [] ∧ t.larder.partKey = false ∧ t.larder.mem = s.larder.mem
        ∧ (∀ l, (link t l).keyed = false)
        ∧ (∃ e, t.counts.sideband = s.counts.sideband ++ [e] ∧ e.code = 0x70 ∧ e.unit = BitVec.ofNat 16 n.val)
        ∧ HostOnly { s with strong := t.strong, larder := t.larder, links := t.links } t)
    ∧ (∀ (s : State) (d : DRef) (f : InFlight), Startable s d 0x73 f →
      Completes (.secZeroise d) s fun t => t.strong.offer = none ∧ t.strong.session = none ∧ t.strong.linkKey = false
        ∧ t.strong.linkMaster = 0 ∧ t.strong.alarm = true ∧ t.strong.lastSource = 0xFE
        ∧ t.strong.lockAt = some (s.strong.lockAt.getD (s.tick.elapsed + 1)) ∧ t.larder.key = [] ∧ t.larder.partKey = false
        ∧ flightOf t d = none ∧ HostOnly { s with strong := t.strong, larder := t.larder, links := t.links } t)
    ∧ (∀ (s : State) (d : DRef) (f : InFlight), Startable s d 0x73 f →
      exec (.secZeroise d) s = .next (complete d stOk 0 (alarmResponse 0xFE false (raiseEv 0x70 0xFE 0 0 (started d s)))))
    ∧ (∀ (s : State) (src : BitVec 8) (e : Bool),
      (alarmResponse src e s).strong.lockErase = (s.strong.lockErase || e || decide (64 ≤ s.strong.alarmFuses))
      ∧ (alarmResponse src e s).strong.eraseFuse = (s.strong.eraseFuse || e)
      ∧ (alarmResponse src e s).strong.alarmFuses = min 64 (s.strong.alarmFuses + 1)
      ∧ (alarmResponse src e s).strong.alarms = (if s.strong.alarms = 0xFFFF then 0xFFFF else s.strong.alarms + 1)
      ∧ (alarmResponse src e s).larder.fills = s.larder.fills.filter (fun f => !f.rekey))
    ∧ (∀ (s : State) (b : BitVec 48), s.strong.lockAt = some b → s.tick.slot = 0 → reached s b = true →
      let s1 := { s with
        strong.lockAt := none, strong.lockdown := true, strong.erased := s.strong.erased || s.strong.lockErase }
      let s2 := (allLinks.filter (fun l => bit (reg s1 .linkSec l.val) 0 && (link s1 l).up)).foldl (fun s l => failNow l 5 s) s1
      exec .lockdownEnter s = .next (lockErase (lockDesc ((keyedFns s2).foldl lockStop s2))))
    ∧ (∀ (s : State) (a : Nat), seqBase s ≤ a → a < seqBase s + gib / 2 → tblGet 0 (lockErase s).larder.mem a = 0)
    ∧ (∀ (s : State) (b : BitVec 48), s.strong.lockAt = some b → s.tick.slot = 0 → reached s b = true →
      Completes .lockdownEnter s fun t => t.strong.lockdown = true ∧ t.strong.lockAt = none
        ∧ t.strong.erased = (s.strong.erased || s.strong.lockErase) ∧ t.work.mem = [] ∧ t.larder.partKey = !t.strong.erased
        ∧ (∀ h, (thr t h).s = [] ∧ (thr t h).v = [] ∧ (thr t h).p = [] ∧ (thr t h).flags = 0)
        ∧ (∀ x ∈ keyedFns s, fnSt t x = .stopping))
    ∧ (∀ s : State, (s.strong.lockAt = none ∨ s.tick.slot ≠ 0) → NoEffect .lockdownEnter s))
  ∧ ((∀ (s : State) (kind : Nat) (bs : List Byte), envFault s kind bs = none ↔ envLayout kind bs = true
        ∧ anchorOk s kind (leAt bs 16 1) = true ∧ Config.sha384 (slice bs (64 + envPadded bs) 1984) = anchorDigest s (leAt bs 16 1)
        ∧ (leAt bs 20 8 = 0 ∨ leAt bs 20 8 = Config.serial.toNat) ∧ (kind = 1 → s.strong.floor.toNat ≤ envVersion bs)
        ∧ signaturesOk bs = true)
    ∧ (∀ (s : State) (kind k : Nat), anchorOk s kind k = true ↔ (kind = 1 ∧ k = 0) ∨ (kind ≠ 1 ∧ k = 0 ∧ s.strong.blown = 0)
        ∨ (kind ≠ 1 ∧ 1 ≤ k ∧ k ≤ 4 ∧ bit s.strong.blown (k - 1) = true ∧ bit s.strong.revoked (k - 1) = false))
    ∧ (∀ (s : State) (u : VerifyUse) (bs : List Byte), (∀ x ∈ s.strong.verify, x.at_ < s.tick.ns) →
      verifyLater u bs s = { s with strong.verify := s.strong.verify ++ [⟨u, bs, s.tick.ns⟩] })
    ∧ (∀ (s : State) (d : DRef) (f : InFlight), Startable s d 0x70 f → s.strong.erased = false → 4629 ≤ dByte f.desc 32 4 →
      let r := drbgBytes 156 (started d s)
      let head := r.1 ++ leBytes 8 Config.serial.toNat
      let dig := leBytes 48 (Config.sha384 head).toNat
      exec (.secSessionOpen d) s = .next (complete d stOk 4629 (hostPut (dWord f.desc 24)
        (head ++ slice (Config.sign 0 dig) 0 64 ++ slice (Config.sign 1 dig) 0 3309)
        { r.2 with strong.offer := some ⟨s.free, head⟩, strong.session := none })))
    ∧ (∀ (s : State) (d : DRef) (f : InFlight), Startable s d 0x70 f → s.strong.erased = false → 4629 ≤ dByte f.desc 32 4 →
      Completes (.secSessionOpen d) s fun t => t.strong.session = none ∧ (∃ o, t.strong.offer = some o ∧ o.draw = s.free)
        ∧ flightOf t d = none ∧ t.free = s.free + 156 ∧ HostOnly { s with strong := t.strong, free := t.free } t)
    ∧ (∀ (s : State) (d : DRef) (f : InFlight), Startable s d 0x70 f →
      (s.strong.erased = true → exec (.secSessionOpen d) s = .next (complete d stDenied 0 (started d s)))
      ∧ (s.strong.erased = false → dByte f.desc 32 4 < 4629 →
          exec (.secSessionOpen d) s = .next (complete d stBad 0 (started d s))))
    ∧ (∀ (s : State) (d : DRef) (f : InFlight), Startable s d 0x71 f →
      exec (.secSessionFinish d) s = .next (if dByte f.desc 32 4 = 0 then complete d stBad 0 (started d s)
        else hostRead (.obj d 0) (dWord f.desc 24) (dByte f.desc 32 4) (addWaits d 1 (started d s))))
    ∧ (∀ (s : State) (d : DRef) (f : InFlight), Startable s d 0x72 f →
      exec (.secProvision d) s = .next
        (if s.strong.erased || s.strong.session.isNone || s.strong.provision.isSome then complete d stDenied 0 (started d s)
        else if dByte f.desc 32 4 ≠ 156 then complete d stBad 0 (started d s)
        else hostRead (.obj d 0) (dWord f.desc 24) 156 (addWaits d 1 (started d s))))
    ∧ (∀ (s : State) (d : DRef) (bs : List Byte) (k : BitVec 256), s.strong.session = some k →
      (Config.openRecord k bs = none → provisionGot d stOk bs s = provisionEnd d stDenied s)
      ∧ (∀ r, Config.openRecord k bs = some r → s.strong.erased = false → recordOk s r = true →
          provisionGot d stOk bs s = { s with strong.provision := some ⟨d, r, prepDue s⟩ })
      ∧ (∀ r, Config.openRecord k bs = some r → recordOk s r = false → provisionGot d stOk bs s = provisionEnd d stDenied s))
    ∧ (∀ (s : State) (r : List Byte), recordOk s r = true ↔ r.length = 128 ∧ recordZeros r = true ∧ leAt r 2 1 ≤ 4
        ∧ (leAt r 2 1 ≠ 0 → bit s.strong.blown (leAt r 2 1 - 1) = false)
        ∧ (bitsOf (leAt r 1 1) 2 1 = 1 → erasesSome (leAt r 48 2) = true →
          s.strong.eraseArmed = true ∨ bitsOf (leAt r 1 1) 1 1 = 1))
    ∧ (∀ (s : State) (d : DRef) (f : InFlight), Startable s d 0x71 f → 0 < dByte f.desc 32 4 →
      Completes (.secSessionFinish d) s fun t => (∃ f', flightOf t d = some f' ∧ f'.waits = f.waits + 1)
        ∧ t = { s with enz := t.enz, rings := t.rings })
    ∧ (∀ (s : State) (d : DRef) (f : InFlight), Startable s d 0x72 f → s.strong.erased = false →
      s.strong.session.isSome = true → s.strong.provision = none → dByte f.desc 32 4 = 156 →
      Completes (.secProvision d) s fun t => (∃ f', flightOf t d = some f' ∧ f'.waits = f.waits + 1)
        ∧ t = { s with enz := t.enz, rings := t.rings })
    ∧ (∀ (s : State) (d : DRef) (f : InFlight), Startable s d 0x72 f → s.strong.session = none →
      Completes (.secProvision d) s fun t => flightOf t d = none ∧ HostOnly s t)
    ∧ (∀ (s : State) (d : DRef) (f : InFlight), Startable s d 0x74 f → 1 ≤ dByte f.desc 24 1 → dByte f.desc 24 1 ≤ 64 →
      Completes (.secFloorRaise d) s fun t =>
        t.strong = { s.strong with floor := BitVec.ofNat 8 (max s.strong.floor.toNat (dByte f.desc 24 1)) }
        ∧ flightOf t d = none ∧ HostOnly { s with strong := t.strong } t)
    ∧ (∀ (s : State) (d : DRef) (f : InFlight), Startable s d 0x74 f →
      exec (.secFloorRaise d) s = .next (if dByte f.desc 24 1 = 0 || decide (64 < dByte f.desc 24 1) then complete d stBad 0 (started d s)
        else complete d stOk (BitVec.ofNat 64 (max s.strong.floor.toNat (dByte f.desc 24 1)))
          { started d s with strong.floor := BitVec.ofNat 8 (max s.strong.floor.toNat (dByte f.desc 24 1)) }))
    ∧ (∀ (s : State) (d : DRef) (f : InFlight), Startable s d 0x75 f →
      exec (.secState d) s = .next (complete d stOk (strongWord s) (started d s)))
    ∧ (∀ (s : State) (p : Provision), s.strong.provision = some p → s.tick.slot = 0 → reached s p.due = true →
      exec .provisionApply s = .next (if s.strong.lockAt.isSome then provisionEnd p.d stHalt s
        else provisionEnd p.d stOk (if s.strong.lockdown && !s.strong.erased then endLockdown (applyRecord p.bytes s)
          else applyRecord p.bytes s)))
    ∧ (∀ (s : State) (p : Provision), s.strong.provision = some p → s.tick.slot = 0 → reached s p.due = true →
      s.strong.lockAt = none →
      Completes .provisionApply s fun t => t.strong.session = none ∧ t.strong.provision = none ∧ flightOf t p.d = none
        ∧ t.strong.policy = (if bitsOf (leAt p.bytes 1 1) 2 1 = 1 then BitVec.ofNat 16 (leAt p.bytes 48 2) else s.strong.policy)
        ∧ t.strong.linkKey = (s.strong.linkKey || bitsOf (leAt p.bytes 1 1) 0 1 = 1)
        ∧ t.strong.revoked = s.strong.revoked ||| BitVec.ofNat 4 (leAt p.bytes 3 1)
        ∧ t.strong.eraseArmed = (s.strong.eraseArmed || bitsOf (leAt p.bytes 1 1) 1 1 = 1)
        ∧ (bitsOf (leAt p.bytes 1 1) 0 1 = 1 → t.strong.linkMaster = BitVec.ofNat 256 (leAt p.bytes 16 32)
            ∧ t.strong.domain = BitVec.ofNat 32 (leAt p.bytes 4 4))
        ∧ (leAt p.bytes 2 1 = 0 → t.strong.blown = s.strong.blown ∧ t.strong.anchors = s.strong.anchors)
        ∧ (leAt p.bytes 2 1 ≠ 0 → t.strong.blown = s.strong.blown ||| BitVec.ofNat 4 (2 ^ (leAt p.bytes 2 1 - 1))
            ∧ t.strong.anchors = tblSet 0 s.strong.anchors (leAt p.bytes 2 1) (BitVec.ofNat 384 (leAt p.bytes 52 48)))
        ∧ (s.strong.lockdown = true → s.strong.erased = false →
            t.strong.lockdown = false ∧ t.strong.alarm = false ∧ t.larder.partKey = true ∧ t.larder.key = allKeys
              ∧ t.larder.fills = s.larder.fills ++ rekeyFills s)
        ∧ (s.strong.erased = true → t.strong.lockdown = s.strong.lockdown ∧ t.larder = s.larder)
        ∧ HostOnly { s with strong := t.strong, larder := t.larder } t)
    ∧ (∀ (s : State) (p : Provision), s.strong.provision = some p → s.tick.slot = 0 → reached s p.due = true →
      s.strong.lockAt.isSome = true →
      Completes .provisionApply s fun t => t.strong = { s.strong with session := none, provision := none }
        ∧ flightOf t p.d = none ∧ HostOnly { s with strong := t.strong } t)
    ∧ (∀ s : State, (s.strong.provision = none ∨ s.tick.slot ≠ 0) → NoEffect .provisionApply s)
    ∧ (∀ (s : State) (v : Verify) (vs : List Verify), s.strong.verify = v :: vs → s.attic.restarting = false →
      (envFault s (verifyKind v.use).1 v.bytes = none →
        exec .envelopeVerifyDone s = .next (verified v.use true v.bytes { s with strong.verify := vs }))
      ∧ (∀ c, envFault s (verifyKind v.use).1 v.bytes = some c → exec .envelopeVerifyDone s =
          .next (verified v.use false v.bytes (envRefuse c (verifyKind v.use).2 v.bytes { s with strong.verify := vs }))))
    ∧ (∀ (s : State) (v : Verify) (vs : List Verify) (c : Nat), s.strong.verify = v :: vs → s.attic.restarting = false →
      envFault s (verifyKind v.use).1 v.bytes = some c →
      Completes .envelopeVerifyDone s fun t => t.strong = { s.strong with verify := vs }
        ∧ (∃ e ∈ t.counts.sideband, e.code = 0x71 ∧ e.detail = BitVec.ofNat 128
            (leAt v.bytes 4 1 + c <<< 8 + (verifyKind v.use).2 <<< 16)))
    ∧ (∀ (s : State) (d : DRef) (bs : List Byte) (o : Offer), s.strong.erased = false → s.strong.offer = some o →
      (envPayload bs).length = 1152 → slice (envPayload bs) 1120 32 = slice o.bytes 1216 32 →
      verified (.session d) true bs s =
        complete d stOk 0 { s with strong.session := some (sessionKey o (envPayload bs)), strong.offer := none })
    ∧ (∀ (s : State) (d : DRef) (bs : List Byte), verified (.session d) false bs s = complete d stDenied 0 s
      ∧ (s.strong.offer = none → verified (.session d) true bs s = complete d stDenied 0 s)
      ∧ (∀ o, s.strong.offer = some o → slice (envPayload bs) 1120 32 ≠ slice o.bytes 1216 32 →
          verified (.session d) true bs s = complete d stDenied 0 s))
    ∧ (∀ (o : Offer) (p : List Byte), sessionKey o p = BitVec.ofNat 256 (leNat (Config.hkdf384
        (Config.x25519 o.draw (slice p 0 32) ++ Config.mlKem o.draw (slice p 32 1088))
        (leBytes 48 (Config.sha384 (slice o.bytes 0 1256 ++ p)).toNat) krystraSession 32)))
    ∧ (∀ (s : State) (bs : List Byte), (verified .bundle true bs s).regs.bundle = some (bundleRecords (envPayload bs))
      ∧ verified .bundle false bs s = releaseWrites s
      ∧ (verified .eqTable false bs s).attic.eqRefused = s.attic.eqRefused + 1
      ∧ (verified .eqTable true bs s).attic.eqBytes = envPayload bs)
    ∧ (∀ s : State, (s.strong.verify = [] ∨ s.attic.restarting = true) → NoEffect .envelopeVerifyDone s))

/-- R676 to R678, R684: the SPDM responder answers each request once with the content that chapter 19 gives, an error in
Erased and nothing while the Attic restarts; a signed answer's message is kept. -/
def Obligations.SpdmResponder : Prop :=
  (∀ (s : State) (p : Transport) (c : Instr) (r : SpdmReply), s.attic.restarting = false → s.strong.erased = false →
    (c, r) ∈ [(Instr.getVersion p, SpdmReply.version), (.getCapabilities p, .capabilities), (.negotiateAlgorithms p, .algorithms),
      (.getDigests p, .digests [Config.sha384 (Config.certChain 0)])] →
    Completes c s fun t => t.strong = { s.strong with replies := s.strong.replies ++ [(p, r)] }
      ∧ t = { s with strong := t.strong, enz := t.enz })
  ∧ (∀ (s : State) (p : Transport) (o n : BitVec 16), s.attic.restarting = false → s.strong.erased = false →
    Completes (.getCertificate p o n) s fun t => t.strong = { s.strong with
        replies := s.strong.replies ++ [(p, .certificate (((Config.certChain 0).drop o.toNat).take n.toNat))] }
      ∧ t = { s with strong := t.strong, enz := t.enz })
  ∧ (∀ (s : State) (p : Transport) (x : BitVec 256), s.attic.restarting = false → s.strong.erased = false →
    let m := leBytes 32 x.toNat ++ (upFrom 1 8).flatMap (measurement s)
    Completes (.challenge p x) s fun t => t.strong = { s.strong with
        signed := m, replies := s.strong.replies ++ [(p, .challengeAuth (Config.sign 0 m))] }
      ∧ t = { s with strong := t.strong, enz := t.enz })
  ∧ (∀ (s : State) (p : Transport) (i : BitVec 8) (x : BitVec 256), s.attic.restarting = false → s.strong.erased = false →
    let bs := if i = 0xFF then (upFrom 1 8).map (fun k => (k, measurement s k))
      else if i = 0 then [] else [(i.toNat, measurement s i.toNat)]
    let m := leBytes 32 x.toNat ++ bs.flatMap (·.2)
    (i.toNat ≤ 8 ∨ i = 0xFF → Completes (.getMeasurements p i false x) s fun t => t.strong = { s.strong with
        replies := s.strong.replies ++ [(p, .measurements bs [])] } ∧ t = { s with strong := t.strong, enz := t.enz })
    ∧ (i.toNat ≤ 8 ∨ i = 0xFF → Completes (.getMeasurements p i true x) s fun t => t.strong = { s.strong with
        signed := m, replies := s.strong.replies ++ [(p, .measurements bs (Config.sign 0 m))] }
        ∧ t = { s with strong := t.strong, enz := t.enz })
    ∧ (∀ sg, 8 < i.toNat → i ≠ 0xFF → Completes (.getMeasurements p i sg x) s fun t => t.strong = { s.strong with
        replies := s.strong.replies ++ [(p, .error)] } ∧ t = { s with strong := t.strong, enz := t.enz }))
  ∧ (∀ s : State, measurement s 1 = leBytes 48 Config.romDigest.toNat
    ∧ measurement s 2 = leBytes 48 (Config.sha3 (envPayload (runningImage s))).toNat
    ∧ measurement s 3 = leBytes 1 s.strong.floor.toNat ++ leBytes 4 (envVersion (runningImage s))
    ∧ measurement s 4 = leBytes 48 (Config.sha3 s.attic.bundleBytes).toNat
    ∧ measurement s 5 = leBytes 48 (Config.sha3 (eqInUse s)).toNat
    ∧ measurement s 6 = leBytes 48 (Config.sha3 (coatBytes s.route.top)).toNat
    ∧ measurement s 7 = leBytes 2 s.strong.policy.toNat ++ leBytes 2 ((strongWord s).toNat % 65536)
    ∧ (measurement s 8).length = 241)
  ∧ (∀ (s : State) (p : Transport) (k : BitVec 8) (q : BitVec 16) (v : BitVec 32), s.attic.restarting = false →
    s.strong.erased = false →
    Completes (.vendorDefinedRequest p v k q) s fun t => t.strong = { s.strong with replies := s.strong.replies ++ [(p,
        if v ≠ 0x4B525953 then .error
        else if k = 1 then .vendor (Config.sign 1 s.strong.signed)
        else if k = 2 then .vendor (((Config.certChain 1).drop (1024 * q.toNat)).take 1024) else .error)] }
      ∧ t = { s with strong := t.strong, enz := t.enz })
  ∧ (∀ (s : State) (p : Transport) (c : Instr), (c ∈ [Instr.getVersion p, .getCapabilities p, .negotiateAlgorithms p, .getDigests p]
      ∨ (∃ o n, c = .getCertificate p o n) ∨ (∃ x, c = .challenge p x) ∨ (∃ i b x, c = .getMeasurements p i b x)
      ∨ ∃ v k q, c = .vendorDefinedRequest p v k q) →
    (s.attic.restarting = true → Completes c s fun t => t = { s with enz := t.enz })
    ∧ (s.attic.restarting = false → s.strong.erased = true →
      Completes c s fun t => t.strong = { s.strong with replies := s.strong.replies ++ [(p, .error)] }
        ∧ t = { s with strong := t.strong, enz := t.enz }))

/-- R694 to R698: firmware descriptors run one at a time; FW_STAGE reads its envelope, which is verified, written into the bank that does
not run and read back; FW_ACTIVATE waits for its boundary unless R696 refuses the bank, and there sets the boot record and restarts the
Attic; FW_COMMIT makes the running trial image the committed one. R687, R690 to R693, R695, R418: an expired watchdog restarts the Attic and
boots by the boot record, a trial image that was tried before giving way to the other bank, and with neither bank good the part is in
recovery; the end of a restart runs the image, or the other bank's where it does not start, and completes FW_ACTIVATE; the end of an image
write makes the bank hold the image with its level, or nothing where it does not read back (log 34). A clause of no effect (NoEffect), where
an event's condition does not hold, is the model's choice (log 1). -/
def Obligations.FirmwareAndRestarts : Prop :=
  ((∀ (s : State) (d : DRef) (f : InFlight), Startable s d 0x04 f → f.pos ≠ 1 → s.attic.fw = [] → s.attic.trial = false →
      5432 ≤ dByte f.desc 32 4 → dByte f.desc 32 4 ≤ 50331648 →
      Completes (.fwStage d) s fun t => t.attic = { s.attic with fw := [d] }
        ∧ (∃ f', flightOf t d = some f' ∧ f'.waits = f.waits + 2) ∧ t = { s with enz := t.enz, rings := t.rings, attic := t.attic })
    ∧ (∀ (s : State) (d : DRef) (f : InFlight), Startable s d 0x04 f → f.pos ≠ 1 → s.attic.fw = [] →
      (dByte f.desc 32 4 < 5432 ∨ 50331648 < dByte f.desc 32 4 ∨ s.attic.trial = true) →
      Completes (.fwStage d) s fun t => flightOf t d = none ∧ HostOnly s t)
    ∧ (∀ (s : State) (d : DRef) (f : InFlight), Startable s d 0x05 f → f.pos ≠ 1 → s.attic.fw = [] →
      activateBad s (bit f.desc 192) = false →
      Completes (.fwActivate d) s fun t =>
        t.attic = { s.attic with fw := [d], prepared := s.attic.prepared ++ [⟨d, prepDue s⟩] }
        ∧ t = { s with rings := t.rings, attic := t.attic })
    ∧ (∀ (s : State) (d : DRef) (f : InFlight), Startable s d 0x05 f → f.pos ≠ 1 → s.attic.fw = [] →
      activateBad s (bit f.desc 192) = true → Completes (.fwActivate d) s fun t => flightOf t d = none ∧ HostOnly s t)
    ∧ (∀ (s : State) (d : DRef) (f : InFlight), Startable s d 0x06 f → f.pos ≠ 1 → s.attic.fw = [] → s.attic.trial = true →
      Completes (.fwCommit d) s fun t => t.attic.trial = false ∧ t.attic.fw = []
        ∧ t.attic.flash.record = { s.attic.flash.record with trial := false, seq := s.attic.flash.record.seq + 1 }
        ∧ t.attic.bank = s.attic.bank ∧ flightOf t d = none ∧ HostOnly { s with attic := t.attic } t)
    ∧ (∀ (s : State) (d : DRef) (f : InFlight), Startable s d 0x06 f → f.pos ≠ 1 → s.attic.fw = [] → s.attic.trial = false →
      Completes (.fwCommit d) s fun t => flightOf t d = none ∧ HostOnly s t))
  ∧ ((∀ (s : State) (d : DRef) (f : InFlight) (c : Instr) (op : BitVec 8),
      (c, op) ∈ [(Instr.fwStage d, (0x04 : BitVec 8)), (.fwActivate d, 0x05), (.fwCommit d, 0x06)] → Startable s d op f →
      exec c s = .next (fwPump { addWaits d 1 (started d s) with attic.fw := s.attic.fw ++ [d] }))
    ∧ (∀ (s : State) (x : DRef) (xs : List DRef) (g : InFlight), s.attic.fw = x :: xs → flightOf s x = some g → g.pos = 1 →
      fwPump s = s)
    ∧ (∀ (s : State) (d : DRef) (bs : List Byte), fwGot d stOk bs s = verifyLater (.fw d) bs s
      ∧ verified (.fw d) false bs s = fwEnd d stDenied 0 s
      ∧ (s.attic.recovery = false → levelsNear (envLevel bs) s.attic.level.toNat = false →
          verified (.fw d) true bs s = fwEnd d stBad 0 s)
      ∧ (s.attic.recovery = true ∨ levelsNear (envLevel bs) s.attic.level.toNat = true →
          verified (.fw d) true bs s = { s with attic.flashOp := some ⟨d, !s.attic.bank, bs⟩ }))
    ∧ (∀ (s : State) (w : AdminWait) (f : InFlight), flightOf s w.d = some f → dOpcode f.desc = 0x05 →
      adminApply w s = if missedTick s f then fwEnd w.d stOverrun 0 s else activateApply w.d (bit f.desc 192) s)
    ∧ (∀ (s : State) (d : DRef) (b : Bool), bankOk s b = true →
      let t := activateApply d b s
      t.attic.activating = some (d, stOk) ∧ t.attic.restarting = true ∧ t.attic.bank = b ∧ t.attic.level = bankLevel s b
        ∧ t.attic.trial = true ∧ t.attic.recovery = false
        ∧ t.attic.flash.record = { s.attic.flash.record with
            active := b, trial := true, tried := true, seq := s.attic.flash.record.seq + 2 }
        ∧ t = { s with attic := t.attic })
    ∧ (∀ (s : State) (d : DRef) (b : Bool), bankOk s b = false → bankOk s (!b) = true →
      let t := activateApply d b s
      t.attic.activating = some (d, stDenied) ∧ t.attic.restarting = true ∧ t.attic.bank = (!b)
        ∧ t.attic.flash.record.active = (!b) ∧ t.attic.flash.record.trial = false ∧ t.attic.refusedImage = some (b, bankLevel s b)
        ∧ t = { s with attic := t.attic })
    ∧ (∀ (s : State) (r : BootRec), writeBoot r s = { s with
        attic.flash := { s.attic.flash with record := { r with seq := s.attic.flash.record.seq + 1 }, copy := !s.attic.flash.copy } }))
  ∧ ((∀ s : State, exec .watchdogExpiry s =
        .next (atticRestart { s with attic.activating := s.attic.activating.map (fun a => (a.1, stTimeout)) }))
    ∧ (∀ s : State, bankOk s false = false → bankOk s true = false →
      Completes .watchdogExpiry s fun t => t.attic.recovery = true ∧ t = { s with attic := t.attic })
    ∧ (∀ s : State, s.attic.restarting = true →
      exec (.atticRestartDone true) s = .next (imageRuns s)
      ∧ (s.attic.recovery = true → exec (.atticRestartDone false) s = .next (imageRuns s))
      ∧ (s.attic.recovery = false → exec (.atticRestartDone false) s = .next (imageRuns (bootOther s.attic.bank { s with
          attic.activating := s.attic.activating.map (fun a => (a.1, if a.2 = stOk then stDenied else a.2)) }))))
    ∧ (∀ (s : State) (d : DRef) (st : BitVec 8), s.attic.activating = some (d, st) →
      activateDone s = fwEnd d st (s.attic.level.setWidth 64) { s with attic.activating := none })
    ∧ (∀ (s : State) (b : Bool) (lv : BitVec 8), s.attic.refusedImage = some (b, lv) →
      reportRollback s = raiseEv 0x20 0 (b.toNat + lv.toNat <<< 8) 0 { s with attic.refusedImage := none })
    ∧ (∀ s : State, Completes .watchdogExpiry s fun t => t.attic.restarting = true
        ∧ t.attic.restarts = (if s.attic.restarts = 0xFFFF then 0xFFFF else s.attic.restarts + 1)
        ∧ t = { s with attic := t.attic })
    ∧ (∀ s : State, let r := s.attic.flash.record
      (r.trial && r.tried) = true →
      Completes .watchdogExpiry s fun t => bankOk s (!r.active) = true → t.attic.bank = !r.active ∧ t.attic.flash.record.active = !r.active
        ∧ t.attic.flash.record.trial = false
        ∧ t.attic.rollbacks = (if s.attic.rollbacks = 0xFFFF then 0xFFFF else s.attic.rollbacks + 1)
        ∧ t.attic.level = bankLevel s (!r.active) ∧ t.attic.recovery = false)
    ∧ (∀ s : State, let r := s.attic.flash.record
      (r.trial && r.tried) = false →
      Completes .watchdogExpiry s fun t => bankOk s r.active = true → t.attic.bank = r.active ∧ t.attic.flash.record.active = r.active
        ∧ t.attic.flash.record.trial = r.trial ∧ t.attic.flash.record.tried = (r.tried || r.trial)
        ∧ t.attic.rollbacks = s.attic.rollbacks ∧ t.attic.level = bankLevel s r.active ∧ t.attic.recovery = false)
    ∧ (∀ s : State, s.attic.restarting = true → s.attic.recovery = false →
      Completes (.atticRestartDone true) s fun t => t.attic.restarting = false ∧ t.attic.bank = s.attic.bank
        ∧ t.attic.runAt = some (s.attic.runAt.getD s.tick.elapsed) ∧ t.larder = s.larder ∧ t.work = s.work)
    ∧ (∀ s : State, s.attic.restarting = true → s.attic.recovery = false →
      Completes (.atticRestartDone false) s fun t => bankOk s (!s.attic.bank) = true → t.attic.restarting = false ∧ t.attic.bank = !s.attic.bank
        ∧ t.attic.flash.record.active = !s.attic.bank ∧ t.larder = s.larder ∧ t.work = s.work)
    ∧ (∀ (s : State) (b : Bool), s.attic.restarting = false → NoEffect (.atticRestartDone b) s)
    ∧ (∀ (s : State) (w : FlashOp) (ok : Bool), s.attic.flashOp = some w →
      Completes (.flashWriteDone ok) s fun t => t.attic.flashOp = none ∧ flightOf t w.d = none
        ∧ bankBytes t w.bank = (if ok then w.bytes else [])
        ∧ bankLevel t w.bank = (if ok then BitVec.ofNat 8 (envLevel w.bytes) else 0)
        ∧ bankBytes t (!w.bank) = bankBytes s (!w.bank) ∧ bankLevel t (!w.bank) = bankLevel s (!w.bank)
        ∧ t.larder = s.larder ∧ t.work = s.work)
    ∧ (∀ (s : State) (w : FlashOp), s.attic.flashOp = some w →
      exec (.flashWriteDone true) s = .next (fwEnd w.d stOk ((BitVec.ofNat 8 (envLevel w.bytes)).setWidth 64)
        (setBank w.bank w.bytes (BitVec.ofNat 8 (envLevel w.bytes)) { s with attic.flashOp := none }))
      ∧ exec (.flashWriteDone false) s =
        .next (fwEnd w.d stDataError 0 (setBank w.bank [] 0 { s with attic.flashOp := none })))
    ∧ (∀ (s : State) (ok : Bool), s.attic.flashOp = none → s.attic.retireLog = [] ∨ s.attic.restarting = true →
      NoEffect (.flashWriteDone ok) s)
    ∧ (∀ (s : State) (n : Nat) (ns : List Nat) (ok : Bool), s.attic.flashOp = none → s.attic.retireLog = n :: ns →
      s.attic.restarting = false →
      exec (.flashWriteDone ok) s = .next { s with
        attic.retireLog := ns, attic.flash.retired := s.attic.flash.retired ++ [n] }))

/-- R700, R701, R703 to R706, R710, R725: DRAIN and UNDRAIN wait for their boundary and act there; the drained point ends every open DRAIN
with OK and event 0x21, an expired limit with TIMEOUT and admission still closed; a LEVEL_OFFER is kept for the next boundary, and discarded
by level 3; the sideband answers, with free values where the part holds no reading (log 93), and takes a cap. R712, R717, R725 to R737: a
POWER_CAP waits for the measurement that takes it up; at step 11 of every 64th tick the throttle level rises by the excess over 20 W and
holds, the hold passes, the brake forces level 48, lag and cap_alarm follow the target, and the thermal fraction follows the junction; the
level sets the levers of Table 21-7; the brake and a low supply hold the part at the floor. A clause of no effect (NoEffect), where an
event's condition does not hold, is the model's choice (log 1). -/
def Obligations.DrainSidebandAndPower : Prop :=
  ((∀ (s : State) (d : DRef) (f : InFlight) (c : Instr),
      (c = .drain d ∧ Startable s d 0x08 f ∧ dByte f.desc 24 4 ≠ 0) ∨ (c = .undrain d ∧ Startable s d 0x09 f) →
      Completes c s fun t => t.attic = { s.attic with prepared := s.attic.prepared ++ [⟨d, prepDue s⟩] }
        ∧ (∃ f', flightOf t d = some f' ∧ f'.waits = f.waits + 1) ∧ t = { s with rings := t.rings, attic := t.attic })
    ∧ (∀ (s : State) (d : DRef) (f : InFlight), Startable s d 0x08 f → dByte f.desc 24 4 = 0 →
      Completes (.drain d) s fun t => flightOf t d = none ∧ HostOnly s t)
    ∧ (∀ (s : State) (w : AdminWait) (f : InFlight), flightOf s w.d = some f →
      (dOpcode f.desc = 0x08 → s.attic.drains = [] → adminApply w s = { s with
        attic.draining := true, attic.drains := [w.d], attic.drainSince := s.tick.elapsed, attic.drainLimit := dByte f.desc 24 4 })
      ∧ (dOpcode f.desc = 0x08 → s.attic.drains ≠ [] → adminApply w s = { s with attic.drains := s.attic.drains ++ [w.d] })
      ∧ (dOpcode f.desc = 0x09 → adminApply w s = complete w.d stOk 0
          { drainsEnd stCancelled s with attic.draining := false, attic.drainedPoint := false }))
    ∧ (∀ (s : State) (d : DRef) (f : InFlight), Startable s d 0x08 f → dByte f.desc 24 4 = 0 →
      exec (.drain d) s = .next (complete d stBad 0 (started d s)))
    ∧ (∀ s : State, s.tick.slot = 0 → s.attic.draining = true → s.attic.drains ≠ [] → workOpen s = false →
      s.route.under = none → ageLimit s + 2 ≤ ageOf s s.attic.lastEntry →
      Completes .drainedPoint s fun t => t.attic = { s.attic with drains := [], drainedPoint := true }
        ∧ (∀ d ∈ s.attic.drains, flightOf t d = none) ∧ (∃ e ∈ t.counts.sideband, e.code = 0x21)
        ∧ HostOnly { s with attic := t.attic } t)
    ∧ (∀ s : State, (s.attic.draining = false ∨ s.attic.drains = [] ∨ workOpen s = true) → NoEffect .drainedPoint s)
    ∧ (∀ s : State, s.attic.drains ≠ [] → s.attic.drainLimit ≤ ageOf s s.attic.drainSince →
      Completes .drainLimitExpired s fun t =>
        t = s.attic.drains.foldl (fun u d => complete d stTimeout 0 u) { s with attic.drains := [] }
        ∧ t.attic = { s.attic with drains := [] }
        ∧ (∀ d ∈ s.attic.drains, flightOf t d = none) ∧ HostOnly { s with attic := t.attic } t)
    ∧ (∀ s : State, ageOf s s.attic.drainSince < s.attic.drainLimit ∨ s.attic.drains = [] → NoEffect .drainLimitExpired s)
    ∧ (∀ (s : State) (l : LinkId) (v : BitVec 8), (link s l).up = false → NoEffect (.levelOffer l v) s)
    ∧ (∀ (s : State) (l : LinkId) (v : BitVec 8), (link s l).up = true → 3 < s.attic.level.toNat →
      Completes (.levelOffer l v) s fun t => link t l = { link s l with offer := some v } ∧ (∀ j, j ≠ l → link t j = link s j)
        ∧ t = { s with links := t.links })
    ∧ (∀ (s : State) (l : LinkId) (v : BitVec 8), (link s l).up = true → s.attic.level.toNat ≤ 3 →
      exec (.levelOffer l v) s = .next { s with attic.offersDropped := s.attic.offersDropped + 1 })
    ∧ (∀ (s : State) (id : BitVec 16), s.attic.restarting = false →
      let v := fun n => exec (.pldmRequest (.getSensor id)) s = .next { s with attic.pldm := s.attic.pldm ++ [(id, n)] }
      (id = 1 → v s.power.watts) ∧ (id = 3 → v s.power.junction.toNat) ∧ (id = 4 → v (capInForce s)) ∧ (id = 5 → v (stateSet s))
      ∧ (id = 6 → v (s.attic.bank.toNat + s.attic.trial.toNat <<< 1 + s.attic.level.toNat <<< 8))
      ∧ (id = 2 ∨ id = 0 ∨ 6 < id.toNat → exec (.pldmRequest (.getSensor id)) s = .next { s with
          attic.pldm := s.attic.pldm ++ [(id, (Config.freeValue s.free).toNat % 65536)], free := s.free + 1 }))
    ∧ (∀ (s : State) (c : BitVec 8), s.attic.restarting = false →
      exec (.pldmRequest (.discovery c)) s = .next { s with attic.pldm := s.attic.pldm ++ [(0, c.toNat)] })
    ∧ (∀ (s : State) (r : PldmReq), s.attic.restarting = true → NoEffect (.pldmRequest r) s)
    ∧ (∀ (s : State) (w : BitVec 16), exec (.setNumericEffecterValue 1 w) s = .next { s with power.sideNew := some w.toNat })
    ∧ (∀ (s : State) (e w : BitVec 16), e ≠ 1 → NoEffect (.setNumericEffecterValue e w) s))
  ∧ ((∀ (s : State) (d : DRef) (f : InFlight), Startable s d 0x0A f →
      Completes (.powerCap d) s fun t => t.power = { s.power with
          cmdNew := s.power.cmdNew ++ [⟨d, dByte f.desc 24 2, prepDue s⟩] }
        ∧ (∃ f', flightOf t d = some f' ∧ f'.waits = f.waits + 1) ∧ t = { s with rings := t.rings, power := t.power })
    ∧ (∀ (s : State) (p : Nat) (j : BitVec 8), atStep 11 s = true → hits s 64 0 = true → s.power.sideNew = none →
      s.power.cmdNew = [] →
      Completes (.powerMeasure p j) s fun t =>
        t.power.k = (if s.power.brake || s.power.supplyHold then 48
          else if !s.power.hold && capTarget s < p then min (s.power.k + ceilDiv (p - capTarget s) 20) 48
          else if !s.power.hold && p + fld (reg s .powerCfg) 0 8 < capTarget s then s.power.k - 1 else s.power.k)
        ∧ t.power.hold = (!(s.power.brake || s.power.supplyHold) && !s.power.hold && decide (capTarget s < p))
        ∧ t.power.theta = (if 210 ≤ j.toNat then s.power.theta - 64
          else if j.toNat < 200 then min (s.power.theta + 32) 256 else s.power.theta)
        ∧ (s.power.k ≤ 48 → t.power.k ≤ 48) ∧ t.power.junction = j ∧ t.power.watts = p ∧ capInForce t = capInForce s
        ∧ HostOnly { s with tick := t.tick, power := t.power } t)
    ∧ (∀ s : State, tickSpan s = 1 → (hits s 64 0 = true ↔ (nowTick s).toNat % 64 = 0))
    ∧ (∀ (s : State) (p : Nat) (j : BitVec 8), atStep 11 s = true → hits s 64 0 = true →
      let r := takeCaps (setPhase 12 { s with power.watts := p })
      exec (.powerMeasure p j) s = .next (r.1.foldl (fun u d => complete d stOk (BitVec.ofNat 64 (capInForce u)) u)
        (thetaStep j (alarmStep (capStep p (lagStep p r.2))))))
    ∧ (∀ (s : State) (p : Nat) (j : BitVec 8), atStep 11 s = false ∨ hits s 64 0 = false → NoEffect (.powerMeasure p j) s)
    ∧ (∀ s : State, s.attic.restarting = true → takeCaps s = ([], s))
    ∧ (∀ (s : State) (w : Nat), s.attic.restarting = false → s.power.sideNew = some w → s.power.cmdNew = [] →
      takeCaps s = ([], { s with power.sideCap := if w = 65535 then none else some w, power.sideNew := none }))
    ∧ (∀ (s : State) (c : CapWait), s.attic.restarting = false → s.power.sideNew = none → s.power.cmdNew = [c] →
      (workDue s c.d c.due = false → takeCaps s = ([], s))
      ∧ (workDue s c.d c.due = true → capMissed s c = false → takeCaps s = ([c.d], { s with
          power.cmdNew := [], power.cmdCap := if c.watts = 65535 then none else some c.watts }))
      ∧ (workDue s c.d c.due = true → capMissed s c = true → takeCaps s = ([], complete c.d stOverrun 0 { s with power.cmdNew := [] })))
    ∧ (∀ s : State, (s.power.sideCap = none → s.power.cmdCap = none → capInForce s = 2400)
      ∧ (∀ a, s.power.sideCap = some a → s.power.cmdCap = none → capInForce s = a)
      ∧ (∀ b, s.power.sideCap = none → s.power.cmdCap = some b → capInForce s = b)
      ∧ (∀ a b, s.power.sideCap = some a → s.power.cmdCap = some b → capInForce s = min a b))
    ∧ (∀ (s : State) (p : Nat), capTarget s ≠ s.power.target → s.power.met = false → s.power.target < p →
      lagStep p s = let s1 := raiseEv 0x30 0 (s.power.target + capTarget s <<< 16) 0 (bumpModule 23 { s with power.lag := true })
        { s1 with power.target := capTarget s, power.met := decide (p ≤ capTarget s), power.lag := decide (capTarget s < p) })
    ∧ (∀ s : State, (1150 ≤ capInForce s → alarmStep s = { s with power.capAlarm := false })
      ∧ (capInForce s < 1150 → s.power.capAlarm = true → alarmStep s = s)
      ∧ (capInForce s < 1150 → s.power.capAlarm = false →
          alarmStep s = raiseEv 0x31 0 (capInForce s) 0 (bumpModule 24 { s with power.capAlarm := true })))
    ∧ (∀ (s : State) (j : BitVec 8), s.power.theta = 256 → 210 ≤ j.toNat →
      thetaStep j s = raiseEv 0x32 0 192 0 { s with power.theta := 192, power.junction := j })
    ∧ (∀ k, (k ≤ 16 → leverWork k = 256 - 16 * k ∧ leverLarder k = 256 ∧ leverHawk k = 256)
      ∧ (16 < k → k ≤ 32 → leverWork k = 0 ∧ leverLarder k = 256 - 15 * (k - 16) ∧ leverHawk k = 256)
      ∧ (32 < k → k ≤ 48 → leverWork k = 0 ∧ leverLarder k = 16 ∧ leverHawk k = 256 - 16 * (k - 32)))
    ∧ (∀ s : State, let t := applyLevers s
      t.work.fraction = min (leverWork s.power.k) s.power.theta ∧ t.larder.pace = leverLarder s.power.k
        ∧ t.streams.phi = leverLarder s.power.k ∧ t.hawk.limit = leverHawk s.power.k ∧ t.power.applied = (s.power.k, s.power.theta))
    ∧ (∀ s : State, bit (reg s .powerCfg) 8 = true →
      exec .brakeAssert s = .next { s with power.brake := true, power.k := 48, power.hold := false })
    ∧ (∀ s : State, bit (reg s .powerCfg) 8 = false → NoEffect .brakeAssert s)
    ∧ (∀ s : State, exec .brakeRelease s = .next { s with power.brake := false }
      ∧ exec .supplyLow s = .next { s with power.supplyHold := true, power.k := 48, power.hold := false }
      ∧ exec .supplyRecovered s = .next { s with power.supplyHold := false }))

/-- R713 to R716, R737: a power-on, pin or module reset and a thermal shutdown empty every memory and queue and stop every
instance and link, and keep the fuses, Lockdown, Erased and boot flash; MODULE_RESET waits for its boundary and resets
8 ticks after it. R716, R718 to R723, R396, R804: power-good ends reset, enters Lockdown while alarms outnumber
provisions, and runs the boot ROM; the Larder phase lays out the reserved region and draws the keys; READY needs every
condition of R720 at a boundary; event 0x33 tells once which of them were not met after 4 s. A clause of no effect
(NoEffect), where an event's condition does not hold, is the model's choice (log 1). -/
def Obligations.ResetsAndStartUp : Prop :=
  ((∀ (s : State) (c : Instr), (c ∈ [Instr.powerOnReset, .pinReset, .thermalShutdown]
        ∨ (c = .moduleResetApply ∧ s.tick.slot = 0 ∧ dueNow s s.power.resetAt = true)) →
      Completes c s fun t => t.larder.mem = [] ∧ t.work.mem = [] ∧ (∀ x, fnSt t x = .off) ∧ (∀ l, (link t l).up = false)
        ∧ t.regs = {} ∧ t.route.top = {} ∧ t.power.inReset = true ∧ t.power.shutdown = decide (c = .thermalShutdown)
        ∧ t.strong.session = none ∧ t.strong.linkKey = false ∧ t.strong.lockdown = s.strong.lockdown
        ∧ t.strong.erased = s.strong.erased ∧ t.strong.floor = s.strong.floor ∧ t.strong.blown = s.strong.blown
        ∧ t.strong.revoked = s.strong.revoked ∧ t.strong.anchors = s.strong.anchors
        ∧ t.strong.alarmFuses = s.strong.alarmFuses ∧ t.strong.provFuses = s.strong.provFuses
        ∧ t.attic.flash = s.attic.flash ∧ t.pending = s.pending)
    ∧ (∀ s : State, (s.tick.slot ≠ 0 ∨ s.power.resetAt = none) → NoEffect .moduleResetApply s)
    ∧ (∀ s : State, dueNow s s.power.resetAt = false → NoEffect .moduleResetApply s)
    ∧ (∀ (s : State) (w : AdminWait) (f : InFlight), flightOf s w.d = some f → dOpcode f.desc = 0x07 →
      adminApply w s = if missedTick s f then complete w.d stOverrun 0 s
        else complete w.d stOk 0 { s with power.resetAt := some (s.tick.elapsed + 8) })
    ∧ (∀ (s : State) (d : DRef) (f : InFlight), Startable s d 0x07 f →
      Completes (.moduleReset d) s fun t => t.attic = { s.attic with prepared := s.attic.prepared ++ [⟨d, prepDue s⟩] }
        ∧ (∃ f', flightOf t d = some f' ∧ f'.waits = f.waits + 1) ∧ t = { s with rings := t.rings, attic := t.attic }))
  ∧ ((∀ (s : State) (x : FuseReading), s.power.inReset = true → s.power.shutdown = false → x.railsGood = true →
      x.resetHigh = true →
      Completes (.powerGood x) s fun t => t.power = { s.power with inReset := false } ∧ t.tick.ns = 0
        ∧ t.strong.loopOhms = x.loopOhms ∧ t.strong.erased = (s.strong.erased || s.strong.eraseFuse)
        ∧ t.strong.lockdown = (s.strong.erased || s.strong.eraseFuse || decide (s.strong.provFuses < s.strong.alarmFuses))
        ∧ t.strong.alarm = t.strong.lockdown ∧ t.attic.restarting = true
        ∧ t = { s with tick := t.tick, strong := t.strong, attic := t.attic, power := t.power })
    ∧ (∀ (s : State) (x : FuseReading), let r := s.attic.flash.record
      s.power.inReset = true → s.power.shutdown = false → x.railsGood = true → x.resetHigh = true →
      (r.trial && r.tried) = false →
      Completes (.powerGood x) s fun t => (bankOk s r.active = true → t.attic.bank = r.active ∧ t.attic.recovery = false
          ∧ t.attic.level = bankLevel s r.active ∧ t.attic.flash.record.tried = (r.tried || r.trial))
        ∧ (bankOk s r.active = false → bankOk s (!r.active) = true → t.attic.bank = (!r.active) ∧ t.attic.recovery = false
          ∧ t.attic.flash.record.active = (!r.active) ∧ t.attic.flash.record.trial = false)
        ∧ (bankOk s r.active = false → bankOk s (!r.active) = false → t.attic.recovery = true))
    ∧ (∀ (s : State) (x : FuseReading), (s.power.inReset = false ∨ s.power.shutdown = true ∨ x.railsGood = false
        ∨ x.resetHigh = false) → NoEffect (.powerGood x) s)
    ∧ (∀ s : State, s.power.larderDone = false → s.attic.runAt.isSome = true →
      Completes .larderPhaseEnd s fun t => t.power = { s.power with larderDone := true } ∧ t.larder.partKey = true
        ∧ t.larder.key = (if s.strong.lockdown then [] else allKeys) ∧ t.larder.mem = s.larder.mem
        ∧ t.larder.atticGib = fld (reg s .larderCfg) 0 8
        ∧ t = { s with larder := t.larder, hawk := t.hawk, power := t.power })
    ∧ (∀ s : State, s.power.larderDone = false → s.attic.runAt.isSome = true →
      let s1 := { s with
        larder.atticGib := fld (reg s .larderCfg) 0 8, larder.scrubAt := s.tick.elapsed
        larder.key := if s.strong.lockdown then [] else allKeys, larder.partKey := true, power.larderDone := true }
      exec .larderPhaseEnd s = .next { retireRecorded s1 with hawk.spill := spillTotal s1 })
    ∧ (∀ (s : State) (n : Nat), s.attic.flash.retired = [n] →
      (retireRecorded s).larder = { s.larder with remap := tblSet none s.larder.remap n (some 0), sparesUsed := 1 })
    ∧ (∀ s : State, readyConds s = [s.attic.runAt.isSome && !s.attic.recovery && !s.attic.restarting, s.power.larderDone,
      decide (s.enz.st = .active), s.tick.locked || s.tick.isMaster])
    ∧ (∀ s : State, (s.power.larderDone = true ∨ s.attic.runAt = none) → NoEffect .larderPhaseEnd s)
    ∧ (∀ s : State, s.tick.slot = 0 → (∀ b ∈ readyConds s, b = true) →
      exec .readyAssert s = .next { s with power.ready := true })
    ∧ (∀ s : State, (s.tick.slot ≠ 0 ∨ false ∈ readyConds s) → NoEffect .readyAssert s)
    ∧ (∀ s : State, s.power.ready = false → s.power.late = false → 4000000000 ≤ s.tick.ns →
      Completes .readyTimeout s fun t => t.power = { s.power with late := true }
        ∧ (∃ e, t.counts.sideband = s.counts.sideband ++ [e] ∧ e.code = 0x33)
        ∧ HostOnly { s with power := t.power } t)
    ∧ (∀ s : State, s.power.ready = false → s.power.late = false → 4000000000 ≤ s.tick.ns →
      exec .readyTimeout s = .next (raiseEv 0x33 0 (((readyConds s).zip [0, 1, 2, 3]).foldl
        (fun m c => m + (!c.1).toNat * 2 ^ c.2) 0) 0 { s with power.late := true }))
    ∧ (∀ s : State, (s.power.ready = true ∨ s.power.late = true ∨ s.tick.ns < 4000000000) → NoEffect .readyTimeout s))

/-- R803: the test access port. IDCODE puts 0x196240AF into the data register, BYPASS one zero bit, SAMPLE/PRELOAD the
scan; EXTEST drives the pins only in reset, and is BYPASS otherwise. -/
def Obligations.TestAccessPort : Prop :=
  (∀ s : State, Completes .idcode s fun t => tapData t = (List.range 32).map (fun i => bit (0x196240AF : BitVec 32) i)
      ∧ t.power.driven = none ∧ t = { s with power := t.power })
  ∧ (∀ s : State, Completes .bypass s fun t => tapData t = [false] ∧ t.power.driven = none ∧ t = { s with power := t.power })
  ∧ (∀ (s : State) (b : List Bool), Completes (.samplePreload b) s fun t => tapData t = b ∧ t.power.driven = none
      ∧ t = { s with power := t.power })
  ∧ (∀ (s : State) (b : List Bool), s.power.inReset = true →
    Completes (.extest b) s fun t => t.power.driven = some b ∧ tapData t = b ∧ t = { s with power := t.power })
  ∧ (∀ (s : State) (b : List Bool), s.power.inReset = false →
    Completes (.extest b) s fun t => t.power.driven = none ∧ tapData t = [false] ∧ t = { s with power := t.power })

/-- R738 to R748, R291, R292, R756: a failure that is due ends the link's service at step 3 with event 0x10, a packet that was arriving
draws its FAIL, and the nodes follow the last declaration of the step; a node that is lost joins the lost ones with event 0x12 and a sweep
FAIL for each pair; notices that are due enter or leave the exclusion list, which a received notice reaches a boundary later; a crossing
window rolls; the fault log copies the entries that it holds of those wanted, and with none copied the index is a free value. A clause of
no effect (NoEffect), where an event's condition does not hold, is the model's choice (log 1). -/
def Obligations.LinkFailuresAndNotices : Prop :=
  (∀ (s : State) (l : LinkId) (c : BitVec 8) (b : BitVec 48), (link s l).failAt = some (c, b) → atStep 3 s = true →
    reached s b = true → (link s l).up = true →
    Completes (.linkFailureDeclare l) s fun t => (link t l).up = false ∧ (link t l).failed = true
      ∧ (link t l).failAt = none ∧ (link t l).noticed = true
      ∧ (∃ e ∈ t.counts.sideband, e.code = 0x10 ∧ e.unit = BitVec.ofNat 16 l.val ∧ e.gen = fnGen s (.port l)
          ∧ e.detail = BitVec.ofNat 128 (c.toNat + (link s l).peer.toNat <<< 8 + laneCount (link s l).lanes <<< 20)))
  ∧ (∀ (s : State) (l : LinkId) (c : BitVec 8) (b : BitVec 48), (link s l).failAt = some (c, b) → atStep 3 s = true →
    reached s b = true →
    ((link s l).up = true → exec (.linkFailureDeclare l) s = .next (nodesAfter (declareLink l c (setPhase 3 s))))
    ∧ ((link s l).up = false → exec (.linkFailureDeclare l) s = .next (nodesAfter (lanesToDetect l
        (modLink l (fun k => { k with nego := false, failAt := none }) (setPhase 3 s))))))
  ∧ (∀ (s : State) (l : LinkId), ((link s l).failAt = none ∨ s.tick.slot ≠ 0 ∨ 3 < s.tick.phase) →
    NoEffect (.linkFailureDeclare l) s)
  ∧ (∀ (s : State) (l : LinkId) (c : BitVec 8) (b : BitVec 48), (link s l).failAt = some (c, b) → reached s b = false →
    NoEffect (.linkFailureDeclare l) s)
  ∧ (∀ s : State, ((∃ l, failDue s l = true) ∨ noticeDue s = true → nodesAfter s = s)
    ∧ ((∀ l, failDue s l = false) → noticeDue s = false → nodesAfter s = nodeCheck s))
  ∧ (∀ (s : State) (l : LinkId) (p : Packet), rxUnderWay (link s l) = some p →
    dropArriving l (link s l) s = sendFail (linkPort l) stLinkLost p s)
  ∧ (∀ (s : State) (n : BitVec 12), let t := loseNode s n
    t.route.lostNodes = s.route.lostNodes ++ [n] ∧ (∃ e ∈ t.counts.sideband, e.code = 0x12 ∧ e.unit = BitVec.ofNat 16 n.toNat))
  ∧ (∀ (me lost : BitVec 12) (c : CrossPair), let p := sweepFail me lost c
    p.opcode = 0x8F ∧ p.vc = 1 ∧ p.dst = c.owner ∧ p.src = me ∧ p.tenant = 0 ∧ p.status = stNodeLost ∧ p.itemLen = 0xFFFFFFFF
      ∧ p.payLen = 0 ∧ p.payload = [] ∧ p.addr = lost.setWidth 64 <<< 52
      ∧ p.tag = if c.any then (0x2000 : BitVec 16) else c.other.setWidth 16 ||| BitVec.ofNat 16 (c.group.toNat <<< 12))
  ∧ (∀ k : Link, (k.crossOld.overflow = false → k.crossNew.overflow = false →
      ∀ c, c ∈ sweepPairs k ↔ c ∈ k.crossOld.pairs ∨ c ∈ k.crossNew.pairs)
    ∧ (k.crossOld.overflow = true → k.crossNew.overflow = true → ∀ c, c ∈ sweepPairs k ↔ c.any = true ∧ c.group = false ∧ c.other = 0
        ∧ ((∃ x ∈ k.crossOld.pairs, x.owner = c.owner) ∨ ∃ x ∈ k.crossNew.pairs, x.owner = c.owner)))
  ∧ (∀ (s : State) (n : Notice), s.route.notices = [n] → atStep 3 s = true → reached s n.due = true → n.up = false →
    (n.peer, n.reporter) ∉ s.route.excl → s.route.excl.length < 1024 →
    Completes .routeNoticeApply s fun t => t.route.excl = s.route.excl ++ [(n.peer, n.reporter)] ∧ t.route.notices = [])
  ∧ (∀ (s : State) (n : Notice), s.route.notices = [n] → atStep 3 s = true → reached s n.due = true → n.up = true →
    Completes .routeNoticeApply s fun t => (n.peer, n.reporter) ∉ t.route.excl ∧ t.route.notices = []
      ∧ (∀ e ∈ s.route.excl, e ≠ (n.peer, n.reporter) → e ∈ t.route.excl))
  ∧ (∀ s : State, atStep 3 s = true → noticeDue s = true →
    exec .routeNoticeApply s = .next (nodesAfter ((s.route.notices.filter (fun n => reached s n.due)).foldl applyNotice
      (setPhase 3 { s with route.notices := s.route.notices.filter (fun n => !reached s n.due) }))))
  ∧ (∀ (s : State) (n : Notice), n.up = false → (n.peer, n.reporter) ∉ s.route.excl → 1024 ≤ s.route.excl.length →
    applyNotice s n = raiseEv 0x1D n.reporter.toNat (0x10 + n.link.toNat <<< 8 + n.peer.toNat <<< 16) 0
      { s with route.unapplied := s.route.unapplied + 1 })
  ∧ (∀ s : State, noticeDue s = false ∨ atStep 3 s = false → NoEffect .routeNoticeApply s)
  ∧ (∀ (s : State) (p : Packet), p.opcode = 0x50 → p.payload.length = 16 →
    (bitsOf (leAt p.payload 0 8) 0 8 = 0x10 ∨ bitsOf (leAt p.payload 0 8) 0 8 = 0x11) →
    Completes (.mgmtPkt p) s fun t => (∃ n, t.route.notices = s.route.notices ++ [n]
        ∧ n.up = decide (bitsOf (leAt p.payload 0 8) 0 8 = 0x11) ∧ n.due = s.tick.elapsed + 1
        ∧ n.reporter = BitVec.ofNat 12 (bitsOf (leAt p.payload 0 8) 16 12)
        ∧ n.peer = BitVec.ofNat 12 (bitsOf (leAt p.payload 0 8) 32 12))
      ∧ t.route.excl = s.route.excl ∧ t = { s with core := t.core, route := t.route })
  ∧ (∀ (s : State) (p : Packet), p.opcode ≠ 0x50 → NoEffect (.mgmtPkt p) s)
  ∧ (∀ (s : State) (p : Packet), p.opcode = 0x50 → p.payload.length ≠ 16 →
    exec (.mgmtPkt p) s = .next (takeDelivered p s))
  ∧ (∀ (s : State) (l : LinkId), s.tick.slot = 0 → (link s l).up = true → (link s l).vexlor = true →
    ageLimit s + 2 ≤ ageOf s (link s l).crossNew.opened →
    Completes (.crossingWindowRoll l) s fun t => link t l = { link s l with
        crossOld := (link s l).crossNew, crossNew := { opened := s.tick.elapsed } }
      ∧ (∀ j, j ≠ l → link t j = link s j) ∧ t = { s with links := t.links })
  ∧ (∀ (s : State) (l : LinkId), (s.tick.slot ≠ 0 ∨ (link s l).up = false ∨ (link s l).vexlor = false
      ∨ ageOf s (link s l).crossNew.opened < ageLimit s + 2) → NoEffect (.crossingWindowRoll l) s)
  ∧ (∀ (s : State) (d : DRef) (f : InFlight), Startable s d 0x0B f → dTarget f.desc = 0xFFFF → 0 < fld f.desc 288 11 →
    fld f.desc 288 11 ≤ 1024 → fld f.desc 192 5 = 0 →
    let first := BitVec.ofNat 32 (fld f.desc 256 32)
    let at_ := (first - (s.counts.logNext - BitVec.ofNat 32 s.counts.log.length)).toNat
    at_ < s.counts.log.length → at_ < 2 ^ 31 →
    let es := (s.counts.log.drop at_).take (fld f.desc 288 11)
    exec (.faultLogRead d) s = .next (complete d stOk (first.setWidth 64 ||| BitVec.ofNat 64 (es.length <<< 32))
      (hostPut (dWord f.desc 24) (es.flatMap (eventBytes false)) (started d s))))
  ∧ (∀ (s : State) (d : DRef) (f : InFlight), Startable s d 0x0B f → (dTarget f.desc ≠ 0xFFFF ∨ fld f.desc 288 11 = 0 ∨
      1024 < fld f.desc 288 11 ∨ fld f.desc 192 5 ≠ 0) → exec (.faultLogRead d) s = .next (complete d stBad 0 (started d s)))
  ∧ (∀ (s : State) (d : DRef) (f : InFlight), Startable s d 0x0B f → dTarget f.desc = 0xFFFF → 0 < fld f.desc 288 11 →
    fld f.desc 288 11 ≤ 1024 → fld f.desc 192 5 = 0 →
    let first := BitVec.ofNat 32 (fld f.desc 256 32)
    let oldest := s.counts.logNext - BitVec.ofNat 32 s.counts.log.length
    2 ^ 31 ≤ (first - oldest).toNat →
    let es := s.counts.log.take (fld f.desc 288 11 - min (fld f.desc 288 11) (oldest - first).toNat)
    (es ≠ [] → exec (.faultLogRead d) s = .next (complete d stOk (oldest.setWidth 64 ||| BitVec.ofNat 64 (es.length <<< 32))
      (hostPut (dWord f.desc 24) (es.flatMap (eventBytes false)) (started d s))))
    ∧ (es = [] → exec (.faultLogRead d) s = .next (complete d stOk (((Config.freeValue s.free).setWidth 32).setWidth 64)
        { hostPut (dWord f.desc 24) [] (started d s) with free := s.free + 1 })))
  ∧ (∀ (s : State) (d : DRef) (f : InFlight), Startable s d 0x0B f → dTarget f.desc = 0xFFFF → 0 < fld f.desc 288 11 →
    fld f.desc 288 11 ≤ 1024 → fld f.desc 192 5 = 0 →
    let late := (BitVec.ofNat 32 (fld f.desc 256 32) - (s.counts.logNext - BitVec.ofNat 32 s.counts.log.length)).toNat
    late < 2 ^ 31 → s.counts.log.length ≤ late →
    exec (.faultLogRead d) s = .next (complete d stOk (((Config.freeValue s.free).setWidth 32).setWidth 64)
      { hostPut (dWord f.desc 24) [] (started d s) with free := s.free + 1 }))

/-- R168, R173, R176, R178, R351, R549, R555, R592, R594, R597, R747, R748: an answer ends the item that it names and brings what the
access asked for: a load its value, an atomic its old value, a store nothing, a LAUNCH its run number or its status; one that names no
open item is counted and discarded; RD_DATA short of the item's length is counted; an item that waits past the response time-out ends with
TIMEOUT and its tag rests; a sweep ends every item whose destination is the counterpart. A clause of no effect (NoEffect), where an event's
condition does not hold, is the model's choice (log 1), and so is DATA_ERROR for a status outside Table 3-7 (log 114). -/
def Obligations.AnswersEndThreadItems : Prop :=
  (∀ (s : State) (p : Packet) (o : Own) (x : Thr) (r n : Nat) (sgn : Bool), p.opcode = 0x81 →
    AnswersThread s p o x (.load r n sgn) → o.opcode = 0x01 → o.got = 0 → o.data = [] → p.addr = o.addr →
    p.payLen.toNat = p.payload.length → o.len = p.payload.length →
    Completes (.rdData p) s (ItemEnded s p.tag x
      ((unbusy (thr s x) [.s r]).putS r (loadValue n sgn p.payload))))
  ∧ (∀ (s : State) (p : Packet) (o : Own), p.opcode = 0x81 → ownOf s p.tag = some o → o.dst = p.src → o.opcode = 0x01 →
    p.ecnEcho = false → o.got + p.payLen.toNat < o.len →
    Completes (.rdData p) s fun t => ownOf t p.tag = some { o with
        got := o.got + p.payLen.toNat, data := memWrite o.data (p.addr.toNat - o.addr.toNat) p.payload }
      ∧ t = { s with core := t.core, items := t.items })
  ∧ (∀ (s : State) (p : Packet) (o : Own) (x : Thr), p.opcode = 0x82 → AnswersThread s p o x .store → o.opcode = 0x02 →
    Completes (.wrAck p) s (ItemEnded s p.tag x (thr s x)))
  ∧ (∀ (s : State) (p : Packet) (o : Own) (x : Thr) (r : Nat) (pair : Bool), p.opcode = 0x88 →
    AnswersThread s p o x (.atomic r pair) → 0x08 ≤ o.opcode.toNat → o.opcode.toNat ≤ 0x0D →
    Completes (.atData p) s (ItemEnded s p.tag x
      ((unbusy (thr s x) (oldBusy pair r)).putOld pair r (leNat p.payload))))
  ∧ (∀ (s : State) (p : Packet) (o : Own) (x : Thr) (r : Nat), p.opcode = 0x90 → AnswersThread s p o x (.launch r) →
    o.opcode = 0x10 →
    Completes (.launchAck p) s (ItemEnded s p.tag x ({ thr s x with waitAck := false }.putS r
      (BitVec.ofNat 64 ((p.addr.setWidth 32).toNat <<< 32)))))
  ∧ (∀ (s : State) (p : Packet) (o : Own) (x : Thr) (r : Nat), p.opcode = 0x8F → p.itemLen ≠ 0xFFFFFFFF →
    AnswersThread s { p with src := o.dst } o x (.launch r) → p.status ≠ stOk →
    Completes (.failPkt p) s (ItemEnded s p.tag x ({ thr s x with waitAck := false }.putS r
      (BitVec.ofNat 64 (legalStatus p.status).toNat))))
  ∧ (∀ (s : State) (p : Packet) (o : Own) (c : Instr) (op : BitVec 8) (st : BitVec 8) (bs : List Byte), ownOf s p.tag = some o →
    (c = .wrAck p ∧ op = 0x82 ∧ o.dst = p.src ∧ o.opcode = 0x02 ∧ st = stOk ∧ bs = []
      ∨ c = .atData p ∧ op = 0x88 ∧ o.dst = p.src ∧ 0x08 ≤ o.opcode.toNat ∧ o.opcode.toNat ≤ 0x0D ∧ st = stOk ∧ bs = p.payload
      ∨ c = .failPkt p ∧ op = 0x8F ∧ p.itemLen ≠ 0xFFFFFFFF ∧ st = legalStatus p.status ∧ bs = []) → p.opcode = op →
    exec c s = .next (endOwn o st bs p.ecnEcho (echoPace o p (takeDelivered p s))))
  ∧ (∀ (s : State) (p : Packet) (o : Own), p.opcode = 0x81 → ownOf s p.tag = some o → o.dst = p.src → o.opcode = 0x01 →
    o.got + p.payLen.toNat = o.len →
    let r := countRead o p (echoPace o p (takeDelivered p s))
    exec (.rdData p) s = .next (endOwn r.2.1 stOk (ownBytes r.2.1) p.ecnEcho r.2.2))
  ∧ (∀ (s : State) (p : Packet) (c : Instr) (op : BitVec 8),
    (c, op) ∈ [(Instr.rdData p, (0x81 : BitVec 8)), (.wrAck p, 0x82), (.atData p, 0x88), (.launchAck p, 0x90)] → p.opcode = op →
    (∀ o, ownOf s p.tag = some o → o.dst ≠ p.src) →
    exec c s = .next { takeDelivered p s with items.stray := s.items.stray + 1 })
  ∧ (∀ (s : State) (p : Packet), p.opcode = 0x8F → p.itemLen ≠ 0xFFFFFFFF → ownOf s p.tag = none →
    exec (.failPkt p) s = .next { takeDelivered p s with items.stray := s.items.stray + 1 })
  ∧ (∀ (s : State) (p : Packet), p.opcode = 0x8F → p.itemLen = 0xFFFFFFFF →
    exec (.failPkt p) s = .next ((s.items.own.filter (fun o =>
      bit p.tag 13 || (!bit p.tag 12 && o.dst = BitVec.ofNat 12 (fld p.tag 0 12)))).foldl
        (fun u o => endOwn o stNodeLost [] false u) (takeDelivered p s)))
  ∧ (∀ (s : State) (p : Packet) (c : Instr) (op : BitVec 8), (c, op) ∈ [(Instr.rdData p, (0x81 : BitVec 8)), (.wrAck p, 0x82),
      (.atData p, 0x88), (.launchAck p, 0x90), (.failPkt p, 0x8F)] → p.opcode ≠ op → NoEffect c s)
  ∧ (∀ (s : State) (o : Own) (x : Thr) (acc : ThreadAcc) (st : BitVec 8), o.use = .thread x acc → st ≠ stOk →
    (∀ r, acc ≠ .launch r) → ∀ bs e, endOwn o st bs e s =
      faultWith x 0x05 st o.addr.toNat (modThr x (fun h => unbusy h (accRegs acc)) (dropOwn o.tag s)))
  ∧ (∀ (s : State) (o : Own) (p : Packet), (p.ecnEcho = false → echoPace o p s = s)
    ∧ (p.ecnEcho = true → 96 ≤ o.inp.val → o.inp.val ≠ 126 → echoPace o p s =
        modIn o.inp (fun q => { q with congested := distinct (q.congested ++ o.outs.map (·.val)) }) s))
  ∧ (∀ (s : State) (p : Packet) (o : Own) (x : Thr) (r : Nat), AnswersThread s p o x (.launch r) →
    respTimeout s ≤ ageOf s o.sent →
    Completes (.responseTimeout p.tag) s fun t =>
      ItemEnded s p.tag x ({ thr s x with waitAck := false }.putS r (BitVec.ofNat 64 stTimeout.toNat)) t
      ∧ (p.tag, s.tick.elapsed) ∈ t.items.quarantine)
  ∧ (∀ (s : State) (tag : BitVec 16) (o : Own), ownOf s tag = some o → respTimeout s ≤ ageOf s o.sent →
    exec (.responseTimeout tag) s = .next (endOwn o stTimeout [] false { s with
      items.quarantine := s.items.quarantine.filter (fun q => q.1 ≠ tag && decide (ageOf s q.2 < ageLimit s + 8))
        ++ [(tag, s.tick.elapsed)] }))
  ∧ (∀ (s : State) (tag : BitVec 16), (∀ o, ownOf s tag = some o → ageOf s o.sent < respTimeout s) →
    NoEffect (.responseTimeout tag) s)

/-- R759, R767 to R773: CTR_READ copies pages of the snapshot that its tenant may read; DUMP_CONFIG and PEEP_CONFIG take effect, and
complete, at the next boundary; TELEM_COPY needs a privileged ring; a dump that falls due is kept whole, or skipped while a record is still
under way; a record that is wholly written is counted. R7, R337, R776 to R784, R795 to R797: a register write waits for its boundary, and
until the configuration bundle is over behind it; one that R777 refuses is recorded in REG_ERR and changes no register; a word that is not
the commit word is staged; a change of an RWO field while its function is not Off leaves the field a free value; a read is answered after
every write that arrived before it; a bundle that applies leaves nothing held or staged behind, and a record that R795 refuses is skipped
and recorded with cause 4. A clause of no effect (NoEffect), where an event's condition does not hold, is the model's choice (log 1). -/
def Obligations.TelemetryAndRegisterWrites : Prop :=
  ((∀ (s : State) (d : DRef) (f : InFlight), Startable s d 0x80 f → dTarget f.desc = 0xFFFF → 0 < fld f.desc 272 8 →
      fld f.desc 272 8 ≤ 64 → pagesAllowed s f (fld f.desc 256 12) (fld f.desc 272 8) = true →
      exec (.ctrRead d) s = .next (complete d stOk (s.counts.snapTick.setWidth 64) (hostPut (dWord f.desc 24)
        ((upFrom (fld f.desc 256 12) (fld f.desc 272 8)).flatMap (pageBytes s)) (started d s))))
    ∧ (∀ (s : State) (d : DRef) (f : InFlight), Startable s d 0x80 f → dTarget f.desc = 0xFFFF → 0 < fld f.desc 272 8 →
      fld f.desc 272 8 ≤ 64 → pagesAllowed s f (fld f.desc 256 12) (fld f.desc 272 8) = false →
      exec (.ctrRead d) s = .next (complete d stDenied 0 (started d s)))
    ∧ (∀ (s : State) (d : DRef) (f : InFlight), Startable s d 0x80 f →
      dTarget f.desc ≠ 0xFFFF ∨ fld f.desc 272 8 = 0 ∨ 64 < fld f.desc 272 8 →
      exec (.ctrRead d) s = .next (complete d stBad 0 (started d s)))
    ∧ (∀ (s : State) (d : DRef) (f : InFlight) (c : Fin 4), let b : BitVec 320 := f.desc.extractLsb' 192 320
      Startable s d 0x81 f → (dTarget f.desc).toNat = c.val → (dumpLarder b = true → ringPriv s f.ref.sq = true) →
      dumpOk b = true → (∀ r ∈ dumpRanges b, pagesAllowed s f r.1 r.2 = true) →
      Completes (.dumpConfig d) s fun t => dumpOf t c = { dumpOf s c with
            next := some (b, prepDue s), tenant := dTenant s f, waits := (dumpOf s c).waits ++ [d] }
        ∧ (∀ j, j ≠ c → dumpOf t j = dumpOf s j) ∧ (∃ f', flightOf t d = some f' ∧ f'.waits = f.waits + 1)
        ∧ t = { s with rings := t.rings, counts := t.counts })
    ∧ (∀ (s : State) (d : DRef) (f : InFlight), let b : BitVec 320 := f.desc.extractLsb' 192 320
      Startable s d 0x81 f →
      (dumpLarder b = true → ringPriv s f.ref.sq = false → exec (.dumpConfig d) s = .next (complete d stDenied 0 (started d s)))
      ∧ ((dumpLarder b = true → ringPriv s f.ref.sq = true) → (4 ≤ (dTarget f.desc).toNat ∨ dumpOk b = false) →
          exec (.dumpConfig d) s = .next (complete d stBad 0 (started d s)))
      ∧ ((dumpLarder b = true → ringPriv s f.ref.sq = true) → (dTarget f.desc).toNat < 4 → dumpOk b = true →
          (∃ r ∈ dumpRanges b, pagesAllowed s f r.1 r.2 = false) →
          exec (.dumpConfig d) s = .next (complete d stDenied 0 (started d s))))
    ∧ (∀ (s : State) (c : Fin 4) (b : BitVec 320) (k : BitVec 48), tblWf {} s.counts.dump = true →
      (dumpOf s c).next = some (b, k) → reached s k = true →
      dumpOf (telemBoundary s) c = { body := if dumpPeriod b = 0 then none else some b, tenant := (dumpOf s c).tenant }
        ∧ ∀ d ∈ (dumpOf s c).waits, flightOf (telemBoundary s) d = none)
    ∧ (∀ (s : State) (l : Nat) (w : Word) (k : BitVec 48), tblWf {} s.counts.peep = true →
      (tblGet {} s.counts.peep l).next = some (w, k) → reached s k = true →
      tblGet {} (telemBoundary s).counts.peep l = { cfg := w }
        ∧ ∀ d ∈ (tblGet {} s.counts.peep l).waits, flightOf (telemBoundary s) d = none)
    ∧ (∀ (s : State) (d : DRef) (f : InFlight) (l : LinkId), Startable s d 0x82 f → ringPriv s f.ref.sq = true →
      (dTarget f.desc).toNat = l.val → dGen f.desc = fnGen s (.port l) → 64 ≤ fld f.desc 224 9 → fld f.desc 224 9 ≤ 256 →
      fld f.desc 224 9 % 8 = 0 →
      Completes (.peepConfig d) s fun t =>
        tblGet {} t.counts.peep l.val = { tblGet {} s.counts.peep l.val with
            next := some (dWord f.desc 24, prepDue s), waits := (tblGet {} s.counts.peep l.val).waits ++ [d] }
        ∧ (∀ j, j ≠ l.val → tblGet {} t.counts.peep j = tblGet {} s.counts.peep j)
        ∧ (∃ f', flightOf t d = some f' ∧ f'.waits = f.waits + 1) ∧ t = { s with rings := t.rings, counts := t.counts })
    ∧ (∀ (s : State) (d : DRef) (f : InFlight) (l : LinkId), Startable s d 0x82 f → (dTarget f.desc).toNat = l.val →
      let u := modFlight d (fun g => { g with gen := fnGen s (.port l) }) (started d s)
      (dGen f.desc ≠ fnGen s (.port l) → exec (.peepConfig d) s = .next (complete d stStaleGen 0 u))
      ∧ (dGen f.desc = fnGen s (.port l) → ringPriv s f.ref.sq = false →
          exec (.peepConfig d) s = .next (complete d stDenied 0 u))
      ∧ (dGen f.desc = fnGen s (.port l) → ringPriv s f.ref.sq = true →
          fld f.desc 224 9 < 64 ∨ 256 < fld f.desc 224 9 ∨ fld f.desc 224 9 % 8 ≠ 0 →
          exec (.peepConfig d) s = .next (complete d stBad 0 u)))
    ∧ (∀ (s : State) (d : DRef) (f : InFlight), Startable s d 0x82 f → 96 ≤ (dTarget f.desc).toNat →
      exec (.peepConfig d) s = .next (complete d stBad 0 (started d s)))
    ∧ (∀ (s : State) (d : DRef) (f : InFlight) (bs : List Byte),
      let off := (dWord f.desc 24).toNat
      let n := dByte f.desc 40 4
      let pl := Place.larder [(telemBase s + off, n)]
      Startable s d 0x83 f → ringPriv s f.ref.sq = true → dTarget f.desc = 0xFFFF → 0 < n → n ≤ 16777216 →
      off + n ≤ telemBytes → placeRead (countPlace .internal false none pl (started d s)) pl n = some bs →
      exec (.telemCopy d) s = .next (complete d stOk 0 (hostPut (dWord f.desc 32) bs
        (countPlace .internal false none pl (started d s)))))
    ∧ (∀ (s : State) (d : DRef) (f : InFlight),
      let off := (dWord f.desc 24).toNat
      let n := dByte f.desc 40 4
      let pl := Place.larder [(telemBase s + off, n)]
      Startable s d 0x83 f →
      (ringPriv s f.ref.sq = false → exec (.telemCopy d) s = .next (complete d stDenied 0 (started d s)))
      ∧ (ringPriv s f.ref.sq = true → dTarget f.desc ≠ 0xFFFF ∨ n = 0 ∨ 16777216 < n ∨ telemBytes < off + n →
          exec (.telemCopy d) s = .next (complete d stBad 0 (started d s)))
      ∧ (ringPriv s f.ref.sq = true → dTarget f.desc = 0xFFFF → 0 < n → n ≤ 16777216 → off + n ≤ telemBytes →
          placeRead (countPlace .internal false none pl (started d s)) pl n = none →
          exec (.telemCopy d) s = .next (complete d stDataError 0 (foundBad 5 (BitVec.ofNat 64 (telemBase s + off)) pl
            (countPlace .internal false none pl (started d s))))))
    ∧ (∀ (s : State) (c : Fin 4) (b : BitVec 320), (dumpOf s c).body = some b → atStep 2 s = true → dumpPeriod b ≠ 0 →
      (nowTick s).toNat % dumpPeriod b < tickSpan s → (dumpOf s c).lastDue ≠ some s.tick.elapsed →
      Completes (.dumpDue c) s fun t => (dumpOf t c).lastDue = some s.tick.elapsed ∧ (dumpOf t c).seq = (dumpOf s c).seq
        ∧ ((dumpOf s c).record ≠ [] → (dumpOf t c).record = (dumpOf s c).record
            ∧ (dumpOf t c).skipped = (if (dumpOf s c).skipped = 0xFFFF then 0xFFFF else (dumpOf s c).skipped + 1))
        ∧ ((dumpOf s c).record = [] → (dumpOf t c).record = dumpHeader (dumpLen b) (dumpOf s c).seq s.counts.snapTick
              (dumpPages b).length c.val (dumpOf s c).skipped ++ (dumpPages b).flatMap (pageImage s)
            ∧ (dumpOf t c).skipped = 0 ∧ (dumpOf t c).written = 0
            ∧ (dumpOf t c).pos = (if dumpSize b < (dumpOf s c).pos + dumpLen b then 0 else (dumpOf s c).pos))
        ∧ (∀ j, j ≠ c → dumpOf t j = dumpOf s j) ∧ t = { s with counts := t.counts, tick := t.tick })
    ∧ (∀ (s : State) (c : Fin 4), (dumpOf s c).body = none ∨ atStep 2 s = false ∨ (dumpOf s c).lastDue = some s.tick.elapsed →
      NoEffect (.dumpDue c) s)
    ∧ (∀ (s : State) (c : Fin 4) (b : BitVec 320), (dumpOf s c).body = some b → (dumpOf s c).record ≠ [] →
      (dumpOf s c).record.length ≤ (dumpOf s c).written →
      exec (.dumpRecordComplete c) s = .next (dumpPut c b (dumpOf s c).pos ((dumpOf s c).record.take 32)
        (setDump c { dumpOf s c with
          record := [], written := 0, seq := (dumpOf s c).seq + 1, pos := (dumpOf s c).pos + (dumpOf s c).record.length } s)))
    ∧ (∀ (s : State) (c : Fin 4) (b : BitVec 320), (dumpOf s c).body = some b → (dumpOf s c).record ≠ [] →
      (dumpOf s c).record.length ≤ (dumpOf s c).written →
      Completes (.dumpRecordComplete c) s fun t => dumpOf t c = { dumpOf s c with
          record := [], written := 0, seq := (dumpOf s c).seq + 1, pos := (dumpOf s c).pos + (dumpOf s c).record.length }
        ∧ (∀ j, j ≠ c → dumpOf t j = dumpOf s j) ∧ t.work = s.work)
    ∧ (∀ (s : State) (c : Fin 4), ((dumpOf s c).body = none ∨ (dumpOf s c).record = []
        ∨ (dumpOf s c).written < (dumpOf s c).record.length) → NoEffect (.dumpRecordComplete c) s))
  ∧ ((∀ (s : State) (a : Word) (w : Bool) (v : Word), regRefused a w = false →
      Completes (.regWr a w v) s fun t =>
        t.regs = (if s.regs.bundleDone then { s.regs with writes := s.regs.writes ++ [⟨a.toNat, w, v, prepDue s⟩] }
          else { s.regs with heldWrites := s.regs.heldWrites ++ [⟨a.toNat, w, v, prepDue s⟩] })
        ∧ t = { s with regs := t.regs, enz := t.enz })
    ∧ (∀ (s : State) (a : Word) (w : Bool) (v : Word), regRefused a w = true →
      Completes (.regWr a w v) s fun t => t.regs.err = true ∧ t.regs.errWrite = true ∧ t.regs.errCause = 1
        ∧ t.regs.errAddr = BitVec.ofNat 24 a.toNat ∧ t.regs.word = s.regs.word ∧ t.regs.writes = s.regs.writes
        ∧ t.regs.heldWrites = s.regs.heldWrites ∧ t = { s with regs := t.regs, enz := t.enz })
    ∧ (∀ (s : State) (b w : Bool) (a : Nat) (v : Word),
      (regFind a = none → applyWrite b a w v s = regError a true (if b then 4 else 1) s)
      ∧ (∀ r, regFind a = some r → (regBlock r.name).commit = none → applyWrite b a w v s = s)
      ∧ (∀ r c, regFind a = some r → (regBlock r.name).commit = some c → r.name = .tmGateEntry →
          decide (64 ≤ r.v) = (tmOf s (unitOf 96 r.u (by decide))).bank → applyWrite b a w v s = s)
      ∧ (∀ r c, regFind a = some r → (regBlock r.name).commit = some c → r.name ≠ .tmGateEntry → r.w ≠ c →
          let k := regIdx r.name r.u r.v r.w
          let m := writeBits a w v
          let x := (tblGet none s.regs.staged k).getD (reg s r.name r.u r.v r.w)
          applyWrite b a w v s = { s with regs.staged := tblSet none s.regs.staged k (some ((x &&& ~~~m.2) ||| m.1)) })
      ∧ (∀ r, regFind a = some r → (regBlock r.name).commit = some r.w → r.name ≠ .tmGateEntry →
          applyWrite b a w v s = commitWrite b r a (writeBits a w v).1 (writeBits a w v).2 s))
    ∧ (∀ (s : State) (r : RegAt) (w : Nat) (off : Bool) (old new : Word),
      let base := (old &&& ~~~(rwMask r.name r.v w ||| rwoMask r.name w)) ||| (new &&& rwMask r.name r.v w)
      let ch := rwoChanged r.name w old new
      (off = true ∨ ch = 0 → storeWord r w off old new s = setReg s r.name r.u r.v w (base ||| (new &&& rwoMask r.name w)))
      ∧ (off = false → ch ≠ 0 → storeWord r w off old new s = setReg { s with free := s.free + 1 } r.name r.u r.v w
          (base ||| (new &&& rwoMask r.name w &&& ~~~ch) ||| (Config.freeValue s.free &&& ch))))
    ∧ (∀ (s : State) (a : Word) (w : Bool) (tag : BitVec 16),
      (regRefused a w = true → regRd a w tag s = regAnswer ⟨a, w, tag, s.regs.writes.length + s.regs.heldWrites.length⟩ stDenied 0
        (regError a.toNat false 1 s))
      ∧ (regRefused a w = false → s.regs.writes = [] → s.regs.heldWrites = [] → regRd a w tag s = regServe s ⟨a, w, tag, 0⟩)
      ∧ (regRefused a w = false → 0 < s.regs.writes.length + s.regs.heldWrites.length → regRd a w tag s = { s with
          regs.reads := s.regs.reads ++ [⟨a, w, tag, s.regs.writes.length + s.regs.heldWrites.length⟩] })
      ∧ (∀ x, regFind a.toNat = some x → regServe s ⟨a, w, tag, 0⟩ = regAnswer ⟨a, w, tag, 0⟩ stOk
          (if a.toNat % 8 = 4 then regRead s x >>> 32 else regRead s x) s))
    ∧ (∀ (s : State) (rs : List (BitVec 32 × Word)), s.regs.bundle = some rs → s.tick.slot = 0 →
      exec .configBundleApply s = .next (let u := releaseWrites { rs.foldl applyRecordOf s with regs.staged := [] }
        applyDue { u with regs.writes := u.regs.writes.map (fun w => { w with due := u.tick.elapsed }) }))
    ∧ (∀ (s : State) (rs : List (BitVec 32 × Word)), s.regs.bundle = some rs → s.tick.slot = 0 →
      Completes .configBundleApply s fun t => t.regs.bundle = none ∧ t.regs.bundleDone = true ∧ t.regs.heldWrites = []
        ∧ t.regs.writes = [])
    ∧ (∀ (s : State) (a : BitVec 32) (v : Word), s.regs.bundle = some [(a, v)] → s.tick.slot = 0 → s.regs.writes = [] →
      s.regs.heldWrites = [] → s.regs.reads = [] → regRefused (a.setWidth 64) true = true →
      Completes .configBundleApply s fun t => t.regs.word = s.regs.word ∧ t.regs.err = true ∧ t.regs.errCause = 4
        ∧ t = { s with regs := t.regs })
    ∧ (∀ s : State, (s.regs.bundle = none ∨ s.tick.slot ≠ 0) → NoEffect .configBundleApply s))

/-- A step takes the command at the front of the queue and is exec of it on the state with the queue's rest; with no
command waiting the block idles (log 1). -/
def Obligations.StepRunsFrontCommand : Prop :=
  (∀ (c : Instr) (rest : List Instr) (s : State),
    step { s with pending := c :: rest } = exec c { s with pending := rest })
  ∧ (∀ s : State, s.pending = [] → step s = .next s)

/-- Log 1 and log 40 name the model's choices: the state at the end of reset. Memories are empty and canonical, every
function instance is Off with generation 0, no routing entry is valid, no link is in service, the level is 4, the
policy is the default of Table 19-8, the Hawk pool is whole, and the queue of commands is empty. -/
def Obligations.ResetState : Prop :=
  State.reset.memWf = true ∧ State.reset.pending = [] ∧ (∀ x, fnSt State.reset x = .off ∧ fnGen State.reset x = 0)
    ∧ (∀ l, (link State.reset l).up = false) ∧ State.reset.route.top = {} ∧ State.reset.attic.level = 4
    ∧ State.reset.strong.policy = 0x5055 ∧ State.reset.strong.lastSource = 0xFF ∧ State.reset.power.target = 2400
    ∧ State.reset.power.theta = 256 ∧ State.reset.enz.st = .detect ∧ State.reset.rings.flight = []
    ∧ (∀ a n, memRead State.reset.larder.mem a n = List.replicate n 0)

/-- R393, R535: every step keeps the memories canonical: addresses strictly rising, and no byte listed that reads as an
unlisted one. -/
def Obligations.MemoriesStayCanonical : Prop :=
  ∀ s t : State, s.memWf = true → step s = .next t → t.memWf = true

/-- R669, R670, R716, Tables 19-5, 19-7a and 19-9: no command, a reset included, clears a fuse: operator slots once blown
stay blown, slots once revoked stay revoked, the image floor never falls, the erase fuses stay, and the alarm and provision counts never
fall. -/
def Obligations.FusesOnlyGrow : Prop :=
  ∀ (c : Instr) (s t : State), s.strong.floor.toNat ≤ 64 → exec c s = .next t →
    t.strong.blown &&& s.strong.blown = s.strong.blown ∧ t.strong.revoked &&& s.strong.revoked = s.strong.revoked
      ∧ s.strong.floor.toNat ≤ t.strong.floor.toNat ∧ (s.strong.eraseFuse = true → t.strong.eraseFuse = true)
      ∧ (s.strong.eraseArmed = true → t.strong.eraseArmed = true)
      ∧ min 64 s.strong.alarmFuses ≤ t.strong.alarmFuses ∧ min 64 s.strong.provFuses ≤ t.strong.provFuses
end

