-- ==== Sys2Proof/Laws/State.lean ====
section
/-!
SUPPORT. For each named update of the state, the fields that it leaves as they were, and the field that it writes.
-/
namespace Sys2Proof
namespace Machine

/-! ### setLink -/

@[simp] theorem setLink_tick (s : State) (l : LinkId) (v : Link) : (setLink s l v).tick = s.tick := rfl
@[simp] theorem setLink_fns (s : State) (l : LinkId) (v : Link) : (setLink s l v).fns = s.fns := rfl
@[simp] theorem setLink_enz (s : State) (l : LinkId) (v : Link) : (setLink s l v).enz = s.enz := rfl
@[simp] theorem setLink_rings (s : State) (l : LinkId) (v : Link) : (setLink s l v).rings = s.rings := rfl
@[simp] theorem setLink_regs (s : State) (l : LinkId) (v : Link) : (setLink s l v).regs = s.regs := rfl
@[simp] theorem setLink_counts (s : State) (l : LinkId) (v : Link) : (setLink s l v).counts = s.counts := rfl
@[simp] theorem setLink_lanes (s : State) (l : LinkId) (v : Link) : (setLink s l v).lanes = s.lanes := rfl
@[simp] theorem setLink_lasers (s : State) (l : LinkId) (v : Link) : (setLink s l v).lasers = s.lasers := rfl
@[simp] theorem setLink_core (s : State) (l : LinkId) (v : Link) : (setLink s l v).core = s.core := rfl
@[simp] theorem setLink_route (s : State) (l : LinkId) (v : Link) : (setLink s l v).route = s.route := rfl
@[simp] theorem setLink_tm (s : State) (l : LinkId) (v : Link) : (setLink s l v).tm = s.tm := rfl
@[simp] theorem setLink_meters (s : State) (l : LinkId) (v : Link) : (setLink s l v).meters = s.meters := rfl
@[simp] theorem setLink_items (s : State) (l : LinkId) (v : Link) : (setLink s l v).items = s.items := rfl
@[simp] theorem setLink_larder (s : State) (l : LinkId) (v : Link) : (setLink s l v).larder = s.larder := rfl
@[simp] theorem setLink_work (s : State) (l : LinkId) (v : Link) : (setLink s l v).work = s.work := rfl
@[simp] theorem setLink_hawk (s : State) (l : LinkId) (v : Link) : (setLink s l v).hawk = s.hawk := rfl
@[simp] theorem setLink_streams (s : State) (l : LinkId) (v : Link) : (setLink s l v).streams = s.streams := rfl
@[simp] theorem setLink_gw (s : State) (l : LinkId) (v : Link) : (setLink s l v).gw = s.gw := rfl
@[simp] theorem setLink_strong (s : State) (l : LinkId) (v : Link) : (setLink s l v).strong = s.strong := rfl
@[simp] theorem setLink_attic (s : State) (l : LinkId) (v : Link) : (setLink s l v).attic = s.attic := rfl
@[simp] theorem setLink_power (s : State) (l : LinkId) (v : Link) : (setLink s l v).power = s.power := rfl
@[simp] theorem setLink_free (s : State) (l : LinkId) (v : Link) : (setLink s l v).free = s.free := rfl
@[simp] theorem setLink_pending (s : State) (l : LinkId) (v : Link) : (setLink s l v).pending = s.pending := rfl

/-! ### setLane -/

@[simp] theorem setLane_tick (s : State) (n : LaneId) (v : Lane) : (setLane s n v).tick = s.tick := rfl
@[simp] theorem setLane_fns (s : State) (n : LaneId) (v : Lane) : (setLane s n v).fns = s.fns := rfl
@[simp] theorem setLane_enz (s : State) (n : LaneId) (v : Lane) : (setLane s n v).enz = s.enz := rfl
@[simp] theorem setLane_rings (s : State) (n : LaneId) (v : Lane) : (setLane s n v).rings = s.rings := rfl
@[simp] theorem setLane_regs (s : State) (n : LaneId) (v : Lane) : (setLane s n v).regs = s.regs := rfl
@[simp] theorem setLane_counts (s : State) (n : LaneId) (v : Lane) : (setLane s n v).counts = s.counts := rfl
@[simp] theorem setLane_links (s : State) (n : LaneId) (v : Lane) : (setLane s n v).links = s.links := rfl
@[simp] theorem setLane_lasers (s : State) (n : LaneId) (v : Lane) : (setLane s n v).lasers = s.lasers := rfl
@[simp] theorem setLane_core (s : State) (n : LaneId) (v : Lane) : (setLane s n v).core = s.core := rfl
@[simp] theorem setLane_route (s : State) (n : LaneId) (v : Lane) : (setLane s n v).route = s.route := rfl
@[simp] theorem setLane_tm (s : State) (n : LaneId) (v : Lane) : (setLane s n v).tm = s.tm := rfl
@[simp] theorem setLane_meters (s : State) (n : LaneId) (v : Lane) : (setLane s n v).meters = s.meters := rfl
@[simp] theorem setLane_items (s : State) (n : LaneId) (v : Lane) : (setLane s n v).items = s.items := rfl
@[simp] theorem setLane_larder (s : State) (n : LaneId) (v : Lane) : (setLane s n v).larder = s.larder := rfl
@[simp] theorem setLane_work (s : State) (n : LaneId) (v : Lane) : (setLane s n v).work = s.work := rfl
@[simp] theorem setLane_hawk (s : State) (n : LaneId) (v : Lane) : (setLane s n v).hawk = s.hawk := rfl
@[simp] theorem setLane_streams (s : State) (n : LaneId) (v : Lane) : (setLane s n v).streams = s.streams := rfl
@[simp] theorem setLane_gw (s : State) (n : LaneId) (v : Lane) : (setLane s n v).gw = s.gw := rfl
@[simp] theorem setLane_strong (s : State) (n : LaneId) (v : Lane) : (setLane s n v).strong = s.strong := rfl
@[simp] theorem setLane_attic (s : State) (n : LaneId) (v : Lane) : (setLane s n v).attic = s.attic := rfl
@[simp] theorem setLane_power (s : State) (n : LaneId) (v : Lane) : (setLane s n v).power = s.power := rfl
@[simp] theorem setLane_free (s : State) (n : LaneId) (v : Lane) : (setLane s n v).free = s.free := rfl
@[simp] theorem setLane_pending (s : State) (n : LaneId) (v : Lane) : (setLane s n v).pending = s.pending := rfl

/-! ### setIn -/

@[simp] theorem setIn_tick (s : State) (i : PortId) (v : InPort) : (setIn s i v).tick = s.tick := rfl
@[simp] theorem setIn_fns (s : State) (i : PortId) (v : InPort) : (setIn s i v).fns = s.fns := rfl
@[simp] theorem setIn_enz (s : State) (i : PortId) (v : InPort) : (setIn s i v).enz = s.enz := rfl
@[simp] theorem setIn_rings (s : State) (i : PortId) (v : InPort) : (setIn s i v).rings = s.rings := rfl
@[simp] theorem setIn_regs (s : State) (i : PortId) (v : InPort) : (setIn s i v).regs = s.regs := rfl
@[simp] theorem setIn_counts (s : State) (i : PortId) (v : InPort) : (setIn s i v).counts = s.counts := rfl
@[simp] theorem setIn_links (s : State) (i : PortId) (v : InPort) : (setIn s i v).links = s.links := rfl
@[simp] theorem setIn_lanes (s : State) (i : PortId) (v : InPort) : (setIn s i v).lanes = s.lanes := rfl
@[simp] theorem setIn_lasers (s : State) (i : PortId) (v : InPort) : (setIn s i v).lasers = s.lasers := rfl
@[simp] theorem setIn_route (s : State) (i : PortId) (v : InPort) : (setIn s i v).route = s.route := rfl
@[simp] theorem setIn_tm (s : State) (i : PortId) (v : InPort) : (setIn s i v).tm = s.tm := rfl
@[simp] theorem setIn_meters (s : State) (i : PortId) (v : InPort) : (setIn s i v).meters = s.meters := rfl
@[simp] theorem setIn_items (s : State) (i : PortId) (v : InPort) : (setIn s i v).items = s.items := rfl
@[simp] theorem setIn_larder (s : State) (i : PortId) (v : InPort) : (setIn s i v).larder = s.larder := rfl
@[simp] theorem setIn_work (s : State) (i : PortId) (v : InPort) : (setIn s i v).work = s.work := rfl
@[simp] theorem setIn_hawk (s : State) (i : PortId) (v : InPort) : (setIn s i v).hawk = s.hawk := rfl
@[simp] theorem setIn_streams (s : State) (i : PortId) (v : InPort) : (setIn s i v).streams = s.streams := rfl
@[simp] theorem setIn_gw (s : State) (i : PortId) (v : InPort) : (setIn s i v).gw = s.gw := rfl
@[simp] theorem setIn_strong (s : State) (i : PortId) (v : InPort) : (setIn s i v).strong = s.strong := rfl
@[simp] theorem setIn_attic (s : State) (i : PortId) (v : InPort) : (setIn s i v).attic = s.attic := rfl
@[simp] theorem setIn_power (s : State) (i : PortId) (v : InPort) : (setIn s i v).power = s.power := rfl
@[simp] theorem setIn_free (s : State) (i : PortId) (v : InPort) : (setIn s i v).free = s.free := rfl
@[simp] theorem setIn_pending (s : State) (i : PortId) (v : InPort) : (setIn s i v).pending = s.pending := rfl

/-! ### setSlice -/

@[simp] theorem setSlice_tick (s : State) (m : PortId) (v : Slice) : (setSlice s m v).tick = s.tick := rfl
@[simp] theorem setSlice_fns (s : State) (m : PortId) (v : Slice) : (setSlice s m v).fns = s.fns := rfl
@[simp] theorem setSlice_enz (s : State) (m : PortId) (v : Slice) : (setSlice s m v).enz = s.enz := rfl
@[simp] theorem setSlice_rings (s : State) (m : PortId) (v : Slice) : (setSlice s m v).rings = s.rings := rfl
@[simp] theorem setSlice_regs (s : State) (m : PortId) (v : Slice) : (setSlice s m v).regs = s.regs := rfl
@[simp] theorem setSlice_counts (s : State) (m : PortId) (v : Slice) : (setSlice s m v).counts = s.counts := rfl
@[simp] theorem setSlice_links (s : State) (m : PortId) (v : Slice) : (setSlice s m v).links = s.links := rfl
@[simp] theorem setSlice_lanes (s : State) (m : PortId) (v : Slice) : (setSlice s m v).lanes = s.lanes := rfl
@[simp] theorem setSlice_lasers (s : State) (m : PortId) (v : Slice) : (setSlice s m v).lasers = s.lasers := rfl
@[simp] theorem setSlice_route (s : State) (m : PortId) (v : Slice) : (setSlice s m v).route = s.route := rfl
@[simp] theorem setSlice_tm (s : State) (m : PortId) (v : Slice) : (setSlice s m v).tm = s.tm := rfl
@[simp] theorem setSlice_meters (s : State) (m : PortId) (v : Slice) : (setSlice s m v).meters = s.meters := rfl
@[simp] theorem setSlice_items (s : State) (m : PortId) (v : Slice) : (setSlice s m v).items = s.items := rfl
@[simp] theorem setSlice_larder (s : State) (m : PortId) (v : Slice) : (setSlice s m v).larder = s.larder := rfl
@[simp] theorem setSlice_work (s : State) (m : PortId) (v : Slice) : (setSlice s m v).work = s.work := rfl
@[simp] theorem setSlice_hawk (s : State) (m : PortId) (v : Slice) : (setSlice s m v).hawk = s.hawk := rfl
@[simp] theorem setSlice_streams (s : State) (m : PortId) (v : Slice) : (setSlice s m v).streams = s.streams := rfl
@[simp] theorem setSlice_gw (s : State) (m : PortId) (v : Slice) : (setSlice s m v).gw = s.gw := rfl
@[simp] theorem setSlice_strong (s : State) (m : PortId) (v : Slice) : (setSlice s m v).strong = s.strong := rfl
@[simp] theorem setSlice_attic (s : State) (m : PortId) (v : Slice) : (setSlice s m v).attic = s.attic := rfl
@[simp] theorem setSlice_power (s : State) (m : PortId) (v : Slice) : (setSlice s m v).power = s.power := rfl
@[simp] theorem setSlice_free (s : State) (m : PortId) (v : Slice) : (setSlice s m v).free = s.free := rfl
@[simp] theorem setSlice_pending (s : State) (m : PortId) (v : Slice) : (setSlice s m v).pending = s.pending := rfl

/-! ### setOut -/

@[simp] theorem setOut_tick (s : State) (o : PortId) (v : OutPort) : (setOut s o v).tick = s.tick := rfl
@[simp] theorem setOut_fns (s : State) (o : PortId) (v : OutPort) : (setOut s o v).fns = s.fns := rfl
@[simp] theorem setOut_enz (s : State) (o : PortId) (v : OutPort) : (setOut s o v).enz = s.enz := rfl
@[simp] theorem setOut_rings (s : State) (o : PortId) (v : OutPort) : (setOut s o v).rings = s.rings := rfl
@[simp] theorem setOut_regs (s : State) (o : PortId) (v : OutPort) : (setOut s o v).regs = s.regs := rfl
@[simp] theorem setOut_counts (s : State) (o : PortId) (v : OutPort) : (setOut s o v).counts = s.counts := rfl
@[simp] theorem setOut_links (s : State) (o : PortId) (v : OutPort) : (setOut s o v).links = s.links := rfl
@[simp] theorem setOut_lanes (s : State) (o : PortId) (v : OutPort) : (setOut s o v).lanes = s.lanes := rfl
@[simp] theorem setOut_lasers (s : State) (o : PortId) (v : OutPort) : (setOut s o v).lasers = s.lasers := rfl
@[simp] theorem setOut_route (s : State) (o : PortId) (v : OutPort) : (setOut s o v).route = s.route := rfl
@[simp] theorem setOut_tm (s : State) (o : PortId) (v : OutPort) : (setOut s o v).tm = s.tm := rfl
@[simp] theorem setOut_meters (s : State) (o : PortId) (v : OutPort) : (setOut s o v).meters = s.meters := rfl
@[simp] theorem setOut_items (s : State) (o : PortId) (v : OutPort) : (setOut s o v).items = s.items := rfl
@[simp] theorem setOut_larder (s : State) (o : PortId) (v : OutPort) : (setOut s o v).larder = s.larder := rfl
@[simp] theorem setOut_work (s : State) (o : PortId) (v : OutPort) : (setOut s o v).work = s.work := rfl
@[simp] theorem setOut_hawk (s : State) (o : PortId) (v : OutPort) : (setOut s o v).hawk = s.hawk := rfl
@[simp] theorem setOut_streams (s : State) (o : PortId) (v : OutPort) : (setOut s o v).streams = s.streams := rfl
@[simp] theorem setOut_gw (s : State) (o : PortId) (v : OutPort) : (setOut s o v).gw = s.gw := rfl
@[simp] theorem setOut_strong (s : State) (o : PortId) (v : OutPort) : (setOut s o v).strong = s.strong := rfl
@[simp] theorem setOut_attic (s : State) (o : PortId) (v : OutPort) : (setOut s o v).attic = s.attic := rfl
@[simp] theorem setOut_power (s : State) (o : PortId) (v : OutPort) : (setOut s o v).power = s.power := rfl
@[simp] theorem setOut_free (s : State) (o : PortId) (v : OutPort) : (setOut s o v).free = s.free := rfl
@[simp] theorem setOut_pending (s : State) (o : PortId) (v : OutPort) : (setOut s o v).pending = s.pending := rfl

/-! ### setTm -/

@[simp] theorem setTm_tick (s : State) (l : LinkId) (v : Tm) : (setTm s l v).tick = s.tick := rfl
@[simp] theorem setTm_fns (s : State) (l : LinkId) (v : Tm) : (setTm s l v).fns = s.fns := rfl
@[simp] theorem setTm_enz (s : State) (l : LinkId) (v : Tm) : (setTm s l v).enz = s.enz := rfl
@[simp] theorem setTm_rings (s : State) (l : LinkId) (v : Tm) : (setTm s l v).rings = s.rings := rfl
@[simp] theorem setTm_regs (s : State) (l : LinkId) (v : Tm) : (setTm s l v).regs = s.regs := rfl
@[simp] theorem setTm_counts (s : State) (l : LinkId) (v : Tm) : (setTm s l v).counts = s.counts := rfl
@[simp] theorem setTm_links (s : State) (l : LinkId) (v : Tm) : (setTm s l v).links = s.links := rfl
@[simp] theorem setTm_lanes (s : State) (l : LinkId) (v : Tm) : (setTm s l v).lanes = s.lanes := rfl
@[simp] theorem setTm_lasers (s : State) (l : LinkId) (v : Tm) : (setTm s l v).lasers = s.lasers := rfl
@[simp] theorem setTm_core (s : State) (l : LinkId) (v : Tm) : (setTm s l v).core = s.core := rfl
@[simp] theorem setTm_route (s : State) (l : LinkId) (v : Tm) : (setTm s l v).route = s.route := rfl
@[simp] theorem setTm_meters (s : State) (l : LinkId) (v : Tm) : (setTm s l v).meters = s.meters := rfl
@[simp] theorem setTm_items (s : State) (l : LinkId) (v : Tm) : (setTm s l v).items = s.items := rfl
@[simp] theorem setTm_larder (s : State) (l : LinkId) (v : Tm) : (setTm s l v).larder = s.larder := rfl
@[simp] theorem setTm_work (s : State) (l : LinkId) (v : Tm) : (setTm s l v).work = s.work := rfl
@[simp] theorem setTm_hawk (s : State) (l : LinkId) (v : Tm) : (setTm s l v).hawk = s.hawk := rfl
@[simp] theorem setTm_streams (s : State) (l : LinkId) (v : Tm) : (setTm s l v).streams = s.streams := rfl
@[simp] theorem setTm_gw (s : State) (l : LinkId) (v : Tm) : (setTm s l v).gw = s.gw := rfl
@[simp] theorem setTm_strong (s : State) (l : LinkId) (v : Tm) : (setTm s l v).strong = s.strong := rfl
@[simp] theorem setTm_attic (s : State) (l : LinkId) (v : Tm) : (setTm s l v).attic = s.attic := rfl
@[simp] theorem setTm_power (s : State) (l : LinkId) (v : Tm) : (setTm s l v).power = s.power := rfl
@[simp] theorem setTm_free (s : State) (l : LinkId) (v : Tm) : (setTm s l v).free = s.free := rfl
@[simp] theorem setTm_pending (s : State) (l : LinkId) (v : Tm) : (setTm s l v).pending = s.pending := rfl

/-! ### setReg -/

@[simp] theorem setReg_tick (s : State) (n : RegName) (u v w : Nat) (x : Word) : (setReg s n u v w x).tick = s.tick := rfl
@[simp] theorem setReg_fns (s : State) (n : RegName) (u v w : Nat) (x : Word) : (setReg s n u v w x).fns = s.fns := rfl
@[simp] theorem setReg_enz (s : State) (n : RegName) (u v w : Nat) (x : Word) : (setReg s n u v w x).enz = s.enz := rfl
@[simp] theorem setReg_rings (s : State) (n : RegName) (u v w : Nat) (x : Word) : (setReg s n u v w x).rings = s.rings := rfl
@[simp] theorem setReg_counts (s : State) (n : RegName) (u v w : Nat) (x : Word) : (setReg s n u v w x).counts = s.counts := rfl
@[simp] theorem setReg_links (s : State) (n : RegName) (u v w : Nat) (x : Word) : (setReg s n u v w x).links = s.links := rfl
@[simp] theorem setReg_lanes (s : State) (n : RegName) (u v w : Nat) (x : Word) : (setReg s n u v w x).lanes = s.lanes := rfl
@[simp] theorem setReg_lasers (s : State) (n : RegName) (u v w : Nat) (x : Word) : (setReg s n u v w x).lasers = s.lasers := rfl
@[simp] theorem setReg_core (s : State) (n : RegName) (u v w : Nat) (x : Word) : (setReg s n u v w x).core = s.core := rfl
@[simp] theorem setReg_route (s : State) (n : RegName) (u v w : Nat) (x : Word) : (setReg s n u v w x).route = s.route := rfl
@[simp] theorem setReg_tm (s : State) (n : RegName) (u v w : Nat) (x : Word) : (setReg s n u v w x).tm = s.tm := rfl
@[simp] theorem setReg_meters (s : State) (n : RegName) (u v w : Nat) (x : Word) : (setReg s n u v w x).meters = s.meters := rfl
@[simp] theorem setReg_items (s : State) (n : RegName) (u v w : Nat) (x : Word) : (setReg s n u v w x).items = s.items := rfl
@[simp] theorem setReg_larder (s : State) (n : RegName) (u v w : Nat) (x : Word) : (setReg s n u v w x).larder = s.larder := rfl
@[simp] theorem setReg_work (s : State) (n : RegName) (u v w : Nat) (x : Word) : (setReg s n u v w x).work = s.work := rfl
@[simp] theorem setReg_hawk (s : State) (n : RegName) (u v w : Nat) (x : Word) : (setReg s n u v w x).hawk = s.hawk := rfl
@[simp] theorem setReg_streams (s : State) (n : RegName) (u v w : Nat) (x : Word) : (setReg s n u v w x).streams = s.streams := rfl
@[simp] theorem setReg_gw (s : State) (n : RegName) (u v w : Nat) (x : Word) : (setReg s n u v w x).gw = s.gw := rfl
@[simp] theorem setReg_strong (s : State) (n : RegName) (u v w : Nat) (x : Word) : (setReg s n u v w x).strong = s.strong := rfl
@[simp] theorem setReg_attic (s : State) (n : RegName) (u v w : Nat) (x : Word) : (setReg s n u v w x).attic = s.attic := rfl
@[simp] theorem setReg_power (s : State) (n : RegName) (u v w : Nat) (x : Word) : (setReg s n u v w x).power = s.power := rfl
@[simp] theorem setReg_free (s : State) (n : RegName) (u v w : Nat) (x : Word) : (setReg s n u v w x).free = s.free := rfl
@[simp] theorem setReg_pending (s : State) (n : RegName) (u v w : Nat) (x : Word) : (setReg s n u v w x).pending = s.pending := rfl

/-! ### setFn -/

@[simp] theorem setFn_tick (s : State) (f : FnId) (v : Fn) : (setFn s f v).tick = s.tick := rfl
@[simp] theorem setFn_enz (s : State) (f : FnId) (v : Fn) : (setFn s f v).enz = s.enz := rfl
@[simp] theorem setFn_rings (s : State) (f : FnId) (v : Fn) : (setFn s f v).rings = s.rings := rfl
@[simp] theorem setFn_regs (s : State) (f : FnId) (v : Fn) : (setFn s f v).regs = s.regs := rfl
@[simp] theorem setFn_counts (s : State) (f : FnId) (v : Fn) : (setFn s f v).counts = s.counts := rfl
@[simp] theorem setFn_links (s : State) (f : FnId) (v : Fn) : (setFn s f v).links = s.links := rfl
@[simp] theorem setFn_lanes (s : State) (f : FnId) (v : Fn) : (setFn s f v).lanes = s.lanes := rfl
@[simp] theorem setFn_lasers (s : State) (f : FnId) (v : Fn) : (setFn s f v).lasers = s.lasers := rfl
@[simp] theorem setFn_core (s : State) (f : FnId) (v : Fn) : (setFn s f v).core = s.core := rfl
@[simp] theorem setFn_route (s : State) (f : FnId) (v : Fn) : (setFn s f v).route = s.route := rfl
@[simp] theorem setFn_tm (s : State) (f : FnId) (v : Fn) : (setFn s f v).tm = s.tm := rfl
@[simp] theorem setFn_meters (s : State) (f : FnId) (v : Fn) : (setFn s f v).meters = s.meters := rfl
@[simp] theorem setFn_items (s : State) (f : FnId) (v : Fn) : (setFn s f v).items = s.items := rfl
@[simp] theorem setFn_larder (s : State) (f : FnId) (v : Fn) : (setFn s f v).larder = s.larder := rfl
@[simp] theorem setFn_work (s : State) (f : FnId) (v : Fn) : (setFn s f v).work = s.work := rfl
@[simp] theorem setFn_hawk (s : State) (f : FnId) (v : Fn) : (setFn s f v).hawk = s.hawk := rfl
@[simp] theorem setFn_streams (s : State) (f : FnId) (v : Fn) : (setFn s f v).streams = s.streams := rfl
@[simp] theorem setFn_gw (s : State) (f : FnId) (v : Fn) : (setFn s f v).gw = s.gw := rfl
@[simp] theorem setFn_strong (s : State) (f : FnId) (v : Fn) : (setFn s f v).strong = s.strong := rfl
@[simp] theorem setFn_attic (s : State) (f : FnId) (v : Fn) : (setFn s f v).attic = s.attic := rfl
@[simp] theorem setFn_power (s : State) (f : FnId) (v : Fn) : (setFn s f v).power = s.power := rfl
@[simp] theorem setFn_free (s : State) (f : FnId) (v : Fn) : (setFn s f v).free = s.free := rfl
@[simp] theorem setFn_pending (s : State) (f : FnId) (v : Fn) : (setFn s f v).pending = s.pending := rfl

/-! ### setSq -/

@[simp] theorem setSq_tick (s : State) (i : Fin 64) (r : Ring) : (setSq s i r).tick = s.tick := rfl
@[simp] theorem setSq_fns (s : State) (i : Fin 64) (r : Ring) : (setSq s i r).fns = s.fns := rfl
@[simp] theorem setSq_enz (s : State) (i : Fin 64) (r : Ring) : (setSq s i r).enz = s.enz := rfl
@[simp] theorem setSq_regs (s : State) (i : Fin 64) (r : Ring) : (setSq s i r).regs = s.regs := rfl
@[simp] theorem setSq_counts (s : State) (i : Fin 64) (r : Ring) : (setSq s i r).counts = s.counts := rfl
@[simp] theorem setSq_links (s : State) (i : Fin 64) (r : Ring) : (setSq s i r).links = s.links := rfl
@[simp] theorem setSq_lanes (s : State) (i : Fin 64) (r : Ring) : (setSq s i r).lanes = s.lanes := rfl
@[simp] theorem setSq_lasers (s : State) (i : Fin 64) (r : Ring) : (setSq s i r).lasers = s.lasers := rfl
@[simp] theorem setSq_core (s : State) (i : Fin 64) (r : Ring) : (setSq s i r).core = s.core := rfl
@[simp] theorem setSq_route (s : State) (i : Fin 64) (r : Ring) : (setSq s i r).route = s.route := rfl
@[simp] theorem setSq_tm (s : State) (i : Fin 64) (r : Ring) : (setSq s i r).tm = s.tm := rfl
@[simp] theorem setSq_meters (s : State) (i : Fin 64) (r : Ring) : (setSq s i r).meters = s.meters := rfl
@[simp] theorem setSq_items (s : State) (i : Fin 64) (r : Ring) : (setSq s i r).items = s.items := rfl
@[simp] theorem setSq_larder (s : State) (i : Fin 64) (r : Ring) : (setSq s i r).larder = s.larder := rfl
@[simp] theorem setSq_work (s : State) (i : Fin 64) (r : Ring) : (setSq s i r).work = s.work := rfl
@[simp] theorem setSq_hawk (s : State) (i : Fin 64) (r : Ring) : (setSq s i r).hawk = s.hawk := rfl
@[simp] theorem setSq_streams (s : State) (i : Fin 64) (r : Ring) : (setSq s i r).streams = s.streams := rfl
@[simp] theorem setSq_gw (s : State) (i : Fin 64) (r : Ring) : (setSq s i r).gw = s.gw := rfl
@[simp] theorem setSq_strong (s : State) (i : Fin 64) (r : Ring) : (setSq s i r).strong = s.strong := rfl
@[simp] theorem setSq_attic (s : State) (i : Fin 64) (r : Ring) : (setSq s i r).attic = s.attic := rfl
@[simp] theorem setSq_power (s : State) (i : Fin 64) (r : Ring) : (setSq s i r).power = s.power := rfl
@[simp] theorem setSq_free (s : State) (i : Fin 64) (r : Ring) : (setSq s i r).free = s.free := rfl
@[simp] theorem setSq_pending (s : State) (i : Fin 64) (r : Ring) : (setSq s i r).pending = s.pending := rfl

/-! ### setCq -/

@[simp] theorem setCq_tick (s : State) (j : Fin 64) (r : Ring) : (setCq s j r).tick = s.tick := rfl
@[simp] theorem setCq_fns (s : State) (j : Fin 64) (r : Ring) : (setCq s j r).fns = s.fns := rfl
@[simp] theorem setCq_enz (s : State) (j : Fin 64) (r : Ring) : (setCq s j r).enz = s.enz := rfl
@[simp] theorem setCq_regs (s : State) (j : Fin 64) (r : Ring) : (setCq s j r).regs = s.regs := rfl
@[simp] theorem setCq_counts (s : State) (j : Fin 64) (r : Ring) : (setCq s j r).counts = s.counts := rfl
@[simp] theorem setCq_links (s : State) (j : Fin 64) (r : Ring) : (setCq s j r).links = s.links := rfl
@[simp] theorem setCq_lanes (s : State) (j : Fin 64) (r : Ring) : (setCq s j r).lanes = s.lanes := rfl
@[simp] theorem setCq_lasers (s : State) (j : Fin 64) (r : Ring) : (setCq s j r).lasers = s.lasers := rfl
@[simp] theorem setCq_core (s : State) (j : Fin 64) (r : Ring) : (setCq s j r).core = s.core := rfl
@[simp] theorem setCq_route (s : State) (j : Fin 64) (r : Ring) : (setCq s j r).route = s.route := rfl
@[simp] theorem setCq_tm (s : State) (j : Fin 64) (r : Ring) : (setCq s j r).tm = s.tm := rfl
@[simp] theorem setCq_meters (s : State) (j : Fin 64) (r : Ring) : (setCq s j r).meters = s.meters := rfl
@[simp] theorem setCq_items (s : State) (j : Fin 64) (r : Ring) : (setCq s j r).items = s.items := rfl
@[simp] theorem setCq_larder (s : State) (j : Fin 64) (r : Ring) : (setCq s j r).larder = s.larder := rfl
@[simp] theorem setCq_work (s : State) (j : Fin 64) (r : Ring) : (setCq s j r).work = s.work := rfl
@[simp] theorem setCq_hawk (s : State) (j : Fin 64) (r : Ring) : (setCq s j r).hawk = s.hawk := rfl
@[simp] theorem setCq_streams (s : State) (j : Fin 64) (r : Ring) : (setCq s j r).streams = s.streams := rfl
@[simp] theorem setCq_gw (s : State) (j : Fin 64) (r : Ring) : (setCq s j r).gw = s.gw := rfl
@[simp] theorem setCq_strong (s : State) (j : Fin 64) (r : Ring) : (setCq s j r).strong = s.strong := rfl
@[simp] theorem setCq_attic (s : State) (j : Fin 64) (r : Ring) : (setCq s j r).attic = s.attic := rfl
@[simp] theorem setCq_power (s : State) (j : Fin 64) (r : Ring) : (setCq s j r).power = s.power := rfl
@[simp] theorem setCq_free (s : State) (j : Fin 64) (r : Ring) : (setCq s j r).free = s.free := rfl
@[simp] theorem setCq_pending (s : State) (j : Fin 64) (r : Ring) : (setCq s j r).pending = s.pending := rfl

/-! ### modFlight -/

@[simp] theorem modFlight_tick (s : State) (d : DRef) (g : InFlight → InFlight) : (modFlight d g s).tick = s.tick := rfl
@[simp] theorem modFlight_fns (s : State) (d : DRef) (g : InFlight → InFlight) : (modFlight d g s).fns = s.fns := rfl
@[simp] theorem modFlight_enz (s : State) (d : DRef) (g : InFlight → InFlight) : (modFlight d g s).enz = s.enz := rfl
@[simp] theorem modFlight_regs (s : State) (d : DRef) (g : InFlight → InFlight) : (modFlight d g s).regs = s.regs := rfl
@[simp] theorem modFlight_counts (s : State) (d : DRef) (g : InFlight → InFlight) : (modFlight d g s).counts = s.counts := rfl
@[simp] theorem modFlight_links (s : State) (d : DRef) (g : InFlight → InFlight) : (modFlight d g s).links = s.links := rfl
@[simp] theorem modFlight_lanes (s : State) (d : DRef) (g : InFlight → InFlight) : (modFlight d g s).lanes = s.lanes := rfl
@[simp] theorem modFlight_lasers (s : State) (d : DRef) (g : InFlight → InFlight) : (modFlight d g s).lasers = s.lasers := rfl
@[simp] theorem modFlight_core (s : State) (d : DRef) (g : InFlight → InFlight) : (modFlight d g s).core = s.core := rfl
@[simp] theorem modFlight_route (s : State) (d : DRef) (g : InFlight → InFlight) : (modFlight d g s).route = s.route := rfl
@[simp] theorem modFlight_tm (s : State) (d : DRef) (g : InFlight → InFlight) : (modFlight d g s).tm = s.tm := rfl
@[simp] theorem modFlight_meters (s : State) (d : DRef) (g : InFlight → InFlight) : (modFlight d g s).meters = s.meters := rfl
@[simp] theorem modFlight_items (s : State) (d : DRef) (g : InFlight → InFlight) : (modFlight d g s).items = s.items := rfl
@[simp] theorem modFlight_larder (s : State) (d : DRef) (g : InFlight → InFlight) : (modFlight d g s).larder = s.larder := rfl
@[simp] theorem modFlight_work (s : State) (d : DRef) (g : InFlight → InFlight) : (modFlight d g s).work = s.work := rfl
@[simp] theorem modFlight_hawk (s : State) (d : DRef) (g : InFlight → InFlight) : (modFlight d g s).hawk = s.hawk := rfl
@[simp] theorem modFlight_streams (s : State) (d : DRef) (g : InFlight → InFlight) : (modFlight d g s).streams = s.streams := rfl
@[simp] theorem modFlight_gw (s : State) (d : DRef) (g : InFlight → InFlight) : (modFlight d g s).gw = s.gw := rfl
@[simp] theorem modFlight_strong (s : State) (d : DRef) (g : InFlight → InFlight) : (modFlight d g s).strong = s.strong := rfl
@[simp] theorem modFlight_attic (s : State) (d : DRef) (g : InFlight → InFlight) : (modFlight d g s).attic = s.attic := rfl
@[simp] theorem modFlight_power (s : State) (d : DRef) (g : InFlight → InFlight) : (modFlight d g s).power = s.power := rfl
@[simp] theorem modFlight_free (s : State) (d : DRef) (g : InFlight → InFlight) : (modFlight d g s).free = s.free := rfl
@[simp] theorem modFlight_pending (s : State) (d : DRef) (g : InFlight → InFlight) : (modFlight d g s).pending = s.pending := rfl

/-! ### setPhase -/

@[simp] theorem setPhase_fns (s : State) (n : Nat) : (setPhase n s).fns = s.fns := rfl
@[simp] theorem setPhase_enz (s : State) (n : Nat) : (setPhase n s).enz = s.enz := rfl
@[simp] theorem setPhase_rings (s : State) (n : Nat) : (setPhase n s).rings = s.rings := rfl
@[simp] theorem setPhase_regs (s : State) (n : Nat) : (setPhase n s).regs = s.regs := rfl
@[simp] theorem setPhase_counts (s : State) (n : Nat) : (setPhase n s).counts = s.counts := rfl
@[simp] theorem setPhase_links (s : State) (n : Nat) : (setPhase n s).links = s.links := rfl
@[simp] theorem setPhase_lanes (s : State) (n : Nat) : (setPhase n s).lanes = s.lanes := rfl
@[simp] theorem setPhase_lasers (s : State) (n : Nat) : (setPhase n s).lasers = s.lasers := rfl
@[simp] theorem setPhase_core (s : State) (n : Nat) : (setPhase n s).core = s.core := rfl
@[simp] theorem setPhase_route (s : State) (n : Nat) : (setPhase n s).route = s.route := rfl
@[simp] theorem setPhase_tm (s : State) (n : Nat) : (setPhase n s).tm = s.tm := rfl
@[simp] theorem setPhase_meters (s : State) (n : Nat) : (setPhase n s).meters = s.meters := rfl
@[simp] theorem setPhase_items (s : State) (n : Nat) : (setPhase n s).items = s.items := rfl
@[simp] theorem setPhase_larder (s : State) (n : Nat) : (setPhase n s).larder = s.larder := rfl
@[simp] theorem setPhase_work (s : State) (n : Nat) : (setPhase n s).work = s.work := rfl
@[simp] theorem setPhase_hawk (s : State) (n : Nat) : (setPhase n s).hawk = s.hawk := rfl
@[simp] theorem setPhase_streams (s : State) (n : Nat) : (setPhase n s).streams = s.streams := rfl
@[simp] theorem setPhase_gw (s : State) (n : Nat) : (setPhase n s).gw = s.gw := rfl
@[simp] theorem setPhase_strong (s : State) (n : Nat) : (setPhase n s).strong = s.strong := rfl
@[simp] theorem setPhase_attic (s : State) (n : Nat) : (setPhase n s).attic = s.attic := rfl
@[simp] theorem setPhase_power (s : State) (n : Nat) : (setPhase n s).power = s.power := rfl
@[simp] theorem setPhase_free (s : State) (n : Nat) : (setPhase n s).free = s.free := rfl
@[simp] theorem setPhase_pending (s : State) (n : Nat) : (setPhase n s).pending = s.pending := rfl

/-! ### bump -/

@[simp] theorem bump_tick (s : State) (p w n : Nat) : (bump p w n s).tick = s.tick := rfl
@[simp] theorem bump_fns (s : State) (p w n : Nat) : (bump p w n s).fns = s.fns := rfl
@[simp] theorem bump_enz (s : State) (p w n : Nat) : (bump p w n s).enz = s.enz := rfl
@[simp] theorem bump_rings (s : State) (p w n : Nat) : (bump p w n s).rings = s.rings := rfl
@[simp] theorem bump_regs (s : State) (p w n : Nat) : (bump p w n s).regs = s.regs := rfl
@[simp] theorem bump_links (s : State) (p w n : Nat) : (bump p w n s).links = s.links := rfl
@[simp] theorem bump_lanes (s : State) (p w n : Nat) : (bump p w n s).lanes = s.lanes := rfl
@[simp] theorem bump_lasers (s : State) (p w n : Nat) : (bump p w n s).lasers = s.lasers := rfl
@[simp] theorem bump_core (s : State) (p w n : Nat) : (bump p w n s).core = s.core := rfl
@[simp] theorem bump_route (s : State) (p w n : Nat) : (bump p w n s).route = s.route := rfl
@[simp] theorem bump_tm (s : State) (p w n : Nat) : (bump p w n s).tm = s.tm := rfl
@[simp] theorem bump_meters (s : State) (p w n : Nat) : (bump p w n s).meters = s.meters := rfl
@[simp] theorem bump_items (s : State) (p w n : Nat) : (bump p w n s).items = s.items := rfl
@[simp] theorem bump_larder (s : State) (p w n : Nat) : (bump p w n s).larder = s.larder := rfl
@[simp] theorem bump_work (s : State) (p w n : Nat) : (bump p w n s).work = s.work := rfl
@[simp] theorem bump_hawk (s : State) (p w n : Nat) : (bump p w n s).hawk = s.hawk := rfl
@[simp] theorem bump_streams (s : State) (p w n : Nat) : (bump p w n s).streams = s.streams := rfl
@[simp] theorem bump_gw (s : State) (p w n : Nat) : (bump p w n s).gw = s.gw := rfl
@[simp] theorem bump_strong (s : State) (p w n : Nat) : (bump p w n s).strong = s.strong := rfl
@[simp] theorem bump_attic (s : State) (p w n : Nat) : (bump p w n s).attic = s.attic := rfl
@[simp] theorem bump_power (s : State) (p w n : Nat) : (bump p w n s).power = s.power := rfl
@[simp] theorem bump_free (s : State) (p w n : Nat) : (bump p w n s).free = s.free := rfl
@[simp] theorem bump_pending (s : State) (p w n : Nat) : (bump p w n s).pending = s.pending := rfl

/-! ### setHeard -/

@[simp] theorem setHeard_fns (s : State) (l : LinkId) (h : Heard) : (setHeard l h s).fns = s.fns := rfl
@[simp] theorem setHeard_enz (s : State) (l : LinkId) (h : Heard) : (setHeard l h s).enz = s.enz := rfl
@[simp] theorem setHeard_rings (s : State) (l : LinkId) (h : Heard) : (setHeard l h s).rings = s.rings := rfl
@[simp] theorem setHeard_regs (s : State) (l : LinkId) (h : Heard) : (setHeard l h s).regs = s.regs := rfl
@[simp] theorem setHeard_counts (s : State) (l : LinkId) (h : Heard) : (setHeard l h s).counts = s.counts := rfl
@[simp] theorem setHeard_links (s : State) (l : LinkId) (h : Heard) : (setHeard l h s).links = s.links := rfl
@[simp] theorem setHeard_lanes (s : State) (l : LinkId) (h : Heard) : (setHeard l h s).lanes = s.lanes := rfl
@[simp] theorem setHeard_lasers (s : State) (l : LinkId) (h : Heard) : (setHeard l h s).lasers = s.lasers := rfl
@[simp] theorem setHeard_core (s : State) (l : LinkId) (h : Heard) : (setHeard l h s).core = s.core := rfl
@[simp] theorem setHeard_route (s : State) (l : LinkId) (h : Heard) : (setHeard l h s).route = s.route := rfl
@[simp] theorem setHeard_tm (s : State) (l : LinkId) (h : Heard) : (setHeard l h s).tm = s.tm := rfl
@[simp] theorem setHeard_meters (s : State) (l : LinkId) (h : Heard) : (setHeard l h s).meters = s.meters := rfl
@[simp] theorem setHeard_items (s : State) (l : LinkId) (h : Heard) : (setHeard l h s).items = s.items := rfl
@[simp] theorem setHeard_larder (s : State) (l : LinkId) (h : Heard) : (setHeard l h s).larder = s.larder := rfl
@[simp] theorem setHeard_work (s : State) (l : LinkId) (h : Heard) : (setHeard l h s).work = s.work := rfl
@[simp] theorem setHeard_hawk (s : State) (l : LinkId) (h : Heard) : (setHeard l h s).hawk = s.hawk := rfl
@[simp] theorem setHeard_streams (s : State) (l : LinkId) (h : Heard) : (setHeard l h s).streams = s.streams := rfl
@[simp] theorem setHeard_gw (s : State) (l : LinkId) (h : Heard) : (setHeard l h s).gw = s.gw := rfl
@[simp] theorem setHeard_strong (s : State) (l : LinkId) (h : Heard) : (setHeard l h s).strong = s.strong := rfl
@[simp] theorem setHeard_attic (s : State) (l : LinkId) (h : Heard) : (setHeard l h s).attic = s.attic := rfl
@[simp] theorem setHeard_power (s : State) (l : LinkId) (h : Heard) : (setHeard l h s).power = s.power := rfl
@[simp] theorem setHeard_free (s : State) (l : LinkId) (h : Heard) : (setHeard l h s).free = s.free := rfl
@[simp] theorem setHeard_pending (s : State) (l : LinkId) (h : Heard) : (setHeard l h s).pending = s.pending := rfl

/-! ### setThr -/

@[simp] theorem setThr_tick (s : State) (t : Thr) (v : Thread) : (setThr t v s).tick = s.tick := rfl
@[simp] theorem setThr_fns (s : State) (t : Thr) (v : Thread) : (setThr t v s).fns = s.fns := rfl
@[simp] theorem setThr_enz (s : State) (t : Thr) (v : Thread) : (setThr t v s).enz = s.enz := rfl
@[simp] theorem setThr_rings (s : State) (t : Thr) (v : Thread) : (setThr t v s).rings = s.rings := rfl
@[simp] theorem setThr_regs (s : State) (t : Thr) (v : Thread) : (setThr t v s).regs = s.regs := rfl
@[simp] theorem setThr_counts (s : State) (t : Thr) (v : Thread) : (setThr t v s).counts = s.counts := rfl
@[simp] theorem setThr_links (s : State) (t : Thr) (v : Thread) : (setThr t v s).links = s.links := rfl
@[simp] theorem setThr_lanes (s : State) (t : Thr) (v : Thread) : (setThr t v s).lanes = s.lanes := rfl
@[simp] theorem setThr_lasers (s : State) (t : Thr) (v : Thread) : (setThr t v s).lasers = s.lasers := rfl
@[simp] theorem setThr_core (s : State) (t : Thr) (v : Thread) : (setThr t v s).core = s.core := rfl
@[simp] theorem setThr_route (s : State) (t : Thr) (v : Thread) : (setThr t v s).route = s.route := rfl
@[simp] theorem setThr_tm (s : State) (t : Thr) (v : Thread) : (setThr t v s).tm = s.tm := rfl
@[simp] theorem setThr_meters (s : State) (t : Thr) (v : Thread) : (setThr t v s).meters = s.meters := rfl
@[simp] theorem setThr_items (s : State) (t : Thr) (v : Thread) : (setThr t v s).items = s.items := rfl
@[simp] theorem setThr_larder (s : State) (t : Thr) (v : Thread) : (setThr t v s).larder = s.larder := rfl
@[simp] theorem setThr_hawk (s : State) (t : Thr) (v : Thread) : (setThr t v s).hawk = s.hawk := rfl
@[simp] theorem setThr_streams (s : State) (t : Thr) (v : Thread) : (setThr t v s).streams = s.streams := rfl
@[simp] theorem setThr_gw (s : State) (t : Thr) (v : Thread) : (setThr t v s).gw = s.gw := rfl
@[simp] theorem setThr_strong (s : State) (t : Thr) (v : Thread) : (setThr t v s).strong = s.strong := rfl
@[simp] theorem setThr_attic (s : State) (t : Thr) (v : Thread) : (setThr t v s).attic = s.attic := rfl
@[simp] theorem setThr_power (s : State) (t : Thr) (v : Thread) : (setThr t v s).power = s.power := rfl
@[simp] theorem setThr_free (s : State) (t : Thr) (v : Thread) : (setThr t v s).free = s.free := rfl
@[simp] theorem setThr_pending (s : State) (t : Thr) (v : Thread) : (setThr t v s).pending = s.pending := rfl

/-! ### setKernel -/

@[simp] theorem setKernel_tick (s : State) (k : Fin 256) (v : Kernel) : (setKernel k v s).tick = s.tick := rfl
@[simp] theorem setKernel_fns (s : State) (k : Fin 256) (v : Kernel) : (setKernel k v s).fns = s.fns := rfl
@[simp] theorem setKernel_enz (s : State) (k : Fin 256) (v : Kernel) : (setKernel k v s).enz = s.enz := rfl
@[simp] theorem setKernel_rings (s : State) (k : Fin 256) (v : Kernel) : (setKernel k v s).rings = s.rings := rfl
@[simp] theorem setKernel_regs (s : State) (k : Fin 256) (v : Kernel) : (setKernel k v s).regs = s.regs := rfl
@[simp] theorem setKernel_counts (s : State) (k : Fin 256) (v : Kernel) : (setKernel k v s).counts = s.counts := rfl
@[simp] theorem setKernel_links (s : State) (k : Fin 256) (v : Kernel) : (setKernel k v s).links = s.links := rfl
@[simp] theorem setKernel_lanes (s : State) (k : Fin 256) (v : Kernel) : (setKernel k v s).lanes = s.lanes := rfl
@[simp] theorem setKernel_lasers (s : State) (k : Fin 256) (v : Kernel) : (setKernel k v s).lasers = s.lasers := rfl
@[simp] theorem setKernel_core (s : State) (k : Fin 256) (v : Kernel) : (setKernel k v s).core = s.core := rfl
@[simp] theorem setKernel_route (s : State) (k : Fin 256) (v : Kernel) : (setKernel k v s).route = s.route := rfl
@[simp] theorem setKernel_tm (s : State) (k : Fin 256) (v : Kernel) : (setKernel k v s).tm = s.tm := rfl
@[simp] theorem setKernel_meters (s : State) (k : Fin 256) (v : Kernel) : (setKernel k v s).meters = s.meters := rfl
@[simp] theorem setKernel_items (s : State) (k : Fin 256) (v : Kernel) : (setKernel k v s).items = s.items := rfl
@[simp] theorem setKernel_larder (s : State) (k : Fin 256) (v : Kernel) : (setKernel k v s).larder = s.larder := rfl
@[simp] theorem setKernel_hawk (s : State) (k : Fin 256) (v : Kernel) : (setKernel k v s).hawk = s.hawk := rfl
@[simp] theorem setKernel_streams (s : State) (k : Fin 256) (v : Kernel) : (setKernel k v s).streams = s.streams := rfl
@[simp] theorem setKernel_gw (s : State) (k : Fin 256) (v : Kernel) : (setKernel k v s).gw = s.gw := rfl
@[simp] theorem setKernel_strong (s : State) (k : Fin 256) (v : Kernel) : (setKernel k v s).strong = s.strong := rfl
@[simp] theorem setKernel_attic (s : State) (k : Fin 256) (v : Kernel) : (setKernel k v s).attic = s.attic := rfl
@[simp] theorem setKernel_power (s : State) (k : Fin 256) (v : Kernel) : (setKernel k v s).power = s.power := rfl
@[simp] theorem setKernel_free (s : State) (k : Fin 256) (v : Kernel) : (setKernel k v s).free = s.free := rfl
@[simp] theorem setKernel_pending (s : State) (k : Fin 256) (v : Kernel) : (setKernel k v s).pending = s.pending := rfl

/-! ### modQp -/

@[simp] theorem modQp_tick (s : State) (q : Fin 16384) (f : Qp → Qp) : (modQp q f s).tick = s.tick := rfl
@[simp] theorem modQp_fns (s : State) (q : Fin 16384) (f : Qp → Qp) : (modQp q f s).fns = s.fns := rfl
@[simp] theorem modQp_enz (s : State) (q : Fin 16384) (f : Qp → Qp) : (modQp q f s).enz = s.enz := rfl
@[simp] theorem modQp_rings (s : State) (q : Fin 16384) (f : Qp → Qp) : (modQp q f s).rings = s.rings := rfl
@[simp] theorem modQp_regs (s : State) (q : Fin 16384) (f : Qp → Qp) : (modQp q f s).regs = s.regs := rfl
@[simp] theorem modQp_counts (s : State) (q : Fin 16384) (f : Qp → Qp) : (modQp q f s).counts = s.counts := rfl
@[simp] theorem modQp_links (s : State) (q : Fin 16384) (f : Qp → Qp) : (modQp q f s).links = s.links := rfl
@[simp] theorem modQp_lanes (s : State) (q : Fin 16384) (f : Qp → Qp) : (modQp q f s).lanes = s.lanes := rfl
@[simp] theorem modQp_lasers (s : State) (q : Fin 16384) (f : Qp → Qp) : (modQp q f s).lasers = s.lasers := rfl
@[simp] theorem modQp_core (s : State) (q : Fin 16384) (f : Qp → Qp) : (modQp q f s).core = s.core := rfl
@[simp] theorem modQp_route (s : State) (q : Fin 16384) (f : Qp → Qp) : (modQp q f s).route = s.route := rfl
@[simp] theorem modQp_tm (s : State) (q : Fin 16384) (f : Qp → Qp) : (modQp q f s).tm = s.tm := rfl
@[simp] theorem modQp_meters (s : State) (q : Fin 16384) (f : Qp → Qp) : (modQp q f s).meters = s.meters := rfl
@[simp] theorem modQp_items (s : State) (q : Fin 16384) (f : Qp → Qp) : (modQp q f s).items = s.items := rfl
@[simp] theorem modQp_larder (s : State) (q : Fin 16384) (f : Qp → Qp) : (modQp q f s).larder = s.larder := rfl
@[simp] theorem modQp_work (s : State) (q : Fin 16384) (f : Qp → Qp) : (modQp q f s).work = s.work := rfl
@[simp] theorem modQp_hawk (s : State) (q : Fin 16384) (f : Qp → Qp) : (modQp q f s).hawk = s.hawk := rfl
@[simp] theorem modQp_streams (s : State) (q : Fin 16384) (f : Qp → Qp) : (modQp q f s).streams = s.streams := rfl
@[simp] theorem modQp_strong (s : State) (q : Fin 16384) (f : Qp → Qp) : (modQp q f s).strong = s.strong := rfl
@[simp] theorem modQp_attic (s : State) (q : Fin 16384) (f : Qp → Qp) : (modQp q f s).attic = s.attic := rfl
@[simp] theorem modQp_power (s : State) (q : Fin 16384) (f : Qp → Qp) : (modQp q f s).power = s.power := rfl
@[simp] theorem modQp_free (s : State) (q : Fin 16384) (f : Qp → Qp) : (modQp q f s).free = s.free := rfl
@[simp] theorem modQp_pending (s : State) (q : Fin 16384) (f : Qp → Qp) : (modQp q f s).pending = s.pending := rfl

/-! ### modEth -/

@[simp] theorem modEth_tick (s : State) (l : Fin 16) (f : EthPort → EthPort) : (modEth l f s).tick = s.tick := rfl
@[simp] theorem modEth_fns (s : State) (l : Fin 16) (f : EthPort → EthPort) : (modEth l f s).fns = s.fns := rfl
@[simp] theorem modEth_enz (s : State) (l : Fin 16) (f : EthPort → EthPort) : (modEth l f s).enz = s.enz := rfl
@[simp] theorem modEth_rings (s : State) (l : Fin 16) (f : EthPort → EthPort) : (modEth l f s).rings = s.rings := rfl
@[simp] theorem modEth_regs (s : State) (l : Fin 16) (f : EthPort → EthPort) : (modEth l f s).regs = s.regs := rfl
@[simp] theorem modEth_counts (s : State) (l : Fin 16) (f : EthPort → EthPort) : (modEth l f s).counts = s.counts := rfl
@[simp] theorem modEth_links (s : State) (l : Fin 16) (f : EthPort → EthPort) : (modEth l f s).links = s.links := rfl
@[simp] theorem modEth_lanes (s : State) (l : Fin 16) (f : EthPort → EthPort) : (modEth l f s).lanes = s.lanes := rfl
@[simp] theorem modEth_lasers (s : State) (l : Fin 16) (f : EthPort → EthPort) : (modEth l f s).lasers = s.lasers := rfl
@[simp] theorem modEth_core (s : State) (l : Fin 16) (f : EthPort → EthPort) : (modEth l f s).core = s.core := rfl
@[simp] theorem modEth_route (s : State) (l : Fin 16) (f : EthPort → EthPort) : (modEth l f s).route = s.route := rfl
@[simp] theorem modEth_tm (s : State) (l : Fin 16) (f : EthPort → EthPort) : (modEth l f s).tm = s.tm := rfl
@[simp] theorem modEth_meters (s : State) (l : Fin 16) (f : EthPort → EthPort) : (modEth l f s).meters = s.meters := rfl
@[simp] theorem modEth_items (s : State) (l : Fin 16) (f : EthPort → EthPort) : (modEth l f s).items = s.items := rfl
@[simp] theorem modEth_larder (s : State) (l : Fin 16) (f : EthPort → EthPort) : (modEth l f s).larder = s.larder := rfl
@[simp] theorem modEth_work (s : State) (l : Fin 16) (f : EthPort → EthPort) : (modEth l f s).work = s.work := rfl
@[simp] theorem modEth_hawk (s : State) (l : Fin 16) (f : EthPort → EthPort) : (modEth l f s).hawk = s.hawk := rfl
@[simp] theorem modEth_streams (s : State) (l : Fin 16) (f : EthPort → EthPort) : (modEth l f s).streams = s.streams := rfl
@[simp] theorem modEth_strong (s : State) (l : Fin 16) (f : EthPort → EthPort) : (modEth l f s).strong = s.strong := rfl
@[simp] theorem modEth_attic (s : State) (l : Fin 16) (f : EthPort → EthPort) : (modEth l f s).attic = s.attic := rfl
@[simp] theorem modEth_power (s : State) (l : Fin 16) (f : EthPort → EthPort) : (modEth l f s).power = s.power := rfl
@[simp] theorem modEth_free (s : State) (l : Fin 16) (f : EthPort → EthPort) : (modEth l f s).free = s.free := rfl
@[simp] theorem modEth_pending (s : State) (l : Fin 16) (f : EthPort → EthPort) : (modEth l f s).pending = s.pending := rfl

/-! ### setGroup -/

@[simp] theorem setGroup_tick (s : State) (g : Fin 1024) (v : Group) : (setGroup s g v).tick = s.tick := rfl
@[simp] theorem setGroup_fns (s : State) (g : Fin 1024) (v : Group) : (setGroup s g v).fns = s.fns := rfl
@[simp] theorem setGroup_enz (s : State) (g : Fin 1024) (v : Group) : (setGroup s g v).enz = s.enz := rfl
@[simp] theorem setGroup_rings (s : State) (g : Fin 1024) (v : Group) : (setGroup s g v).rings = s.rings := rfl
@[simp] theorem setGroup_regs (s : State) (g : Fin 1024) (v : Group) : (setGroup s g v).regs = s.regs := rfl
@[simp] theorem setGroup_counts (s : State) (g : Fin 1024) (v : Group) : (setGroup s g v).counts = s.counts := rfl
@[simp] theorem setGroup_links (s : State) (g : Fin 1024) (v : Group) : (setGroup s g v).links = s.links := rfl
@[simp] theorem setGroup_lanes (s : State) (g : Fin 1024) (v : Group) : (setGroup s g v).lanes = s.lanes := rfl
@[simp] theorem setGroup_lasers (s : State) (g : Fin 1024) (v : Group) : (setGroup s g v).lasers = s.lasers := rfl
@[simp] theorem setGroup_core (s : State) (g : Fin 1024) (v : Group) : (setGroup s g v).core = s.core := rfl
@[simp] theorem setGroup_route (s : State) (g : Fin 1024) (v : Group) : (setGroup s g v).route = s.route := rfl
@[simp] theorem setGroup_tm (s : State) (g : Fin 1024) (v : Group) : (setGroup s g v).tm = s.tm := rfl
@[simp] theorem setGroup_meters (s : State) (g : Fin 1024) (v : Group) : (setGroup s g v).meters = s.meters := rfl
@[simp] theorem setGroup_items (s : State) (g : Fin 1024) (v : Group) : (setGroup s g v).items = s.items := rfl
@[simp] theorem setGroup_larder (s : State) (g : Fin 1024) (v : Group) : (setGroup s g v).larder = s.larder := rfl
@[simp] theorem setGroup_work (s : State) (g : Fin 1024) (v : Group) : (setGroup s g v).work = s.work := rfl
@[simp] theorem setGroup_streams (s : State) (g : Fin 1024) (v : Group) : (setGroup s g v).streams = s.streams := rfl
@[simp] theorem setGroup_gw (s : State) (g : Fin 1024) (v : Group) : (setGroup s g v).gw = s.gw := rfl
@[simp] theorem setGroup_strong (s : State) (g : Fin 1024) (v : Group) : (setGroup s g v).strong = s.strong := rfl
@[simp] theorem setGroup_attic (s : State) (g : Fin 1024) (v : Group) : (setGroup s g v).attic = s.attic := rfl
@[simp] theorem setGroup_power (s : State) (g : Fin 1024) (v : Group) : (setGroup s g v).power = s.power := rfl
@[simp] theorem setGroup_free (s : State) (g : Fin 1024) (v : Group) : (setGroup s g v).free = s.free := rfl
@[simp] theorem setGroup_pending (s : State) (g : Fin 1024) (v : Group) : (setGroup s g v).pending = s.pending := rfl

/-! ### modStream -/

@[simp] theorem modStream_tick (s : State) (k : Fin 64) (f : Stream → Stream) : (modStream k f s).tick = s.tick := rfl
@[simp] theorem modStream_fns (s : State) (k : Fin 64) (f : Stream → Stream) : (modStream k f s).fns = s.fns := rfl
@[simp] theorem modStream_enz (s : State) (k : Fin 64) (f : Stream → Stream) : (modStream k f s).enz = s.enz := rfl
@[simp] theorem modStream_rings (s : State) (k : Fin 64) (f : Stream → Stream) : (modStream k f s).rings = s.rings := rfl
@[simp] theorem modStream_regs (s : State) (k : Fin 64) (f : Stream → Stream) : (modStream k f s).regs = s.regs := rfl
@[simp] theorem modStream_counts (s : State) (k : Fin 64) (f : Stream → Stream) : (modStream k f s).counts = s.counts := rfl
@[simp] theorem modStream_links (s : State) (k : Fin 64) (f : Stream → Stream) : (modStream k f s).links = s.links := rfl
@[simp] theorem modStream_lanes (s : State) (k : Fin 64) (f : Stream → Stream) : (modStream k f s).lanes = s.lanes := rfl
@[simp] theorem modStream_lasers (s : State) (k : Fin 64) (f : Stream → Stream) : (modStream k f s).lasers = s.lasers := rfl
@[simp] theorem modStream_core (s : State) (k : Fin 64) (f : Stream → Stream) : (modStream k f s).core = s.core := rfl
@[simp] theorem modStream_route (s : State) (k : Fin 64) (f : Stream → Stream) : (modStream k f s).route = s.route := rfl
@[simp] theorem modStream_tm (s : State) (k : Fin 64) (f : Stream → Stream) : (modStream k f s).tm = s.tm := rfl
@[simp] theorem modStream_meters (s : State) (k : Fin 64) (f : Stream → Stream) : (modStream k f s).meters = s.meters := rfl
@[simp] theorem modStream_items (s : State) (k : Fin 64) (f : Stream → Stream) : (modStream k f s).items = s.items := rfl
@[simp] theorem modStream_larder (s : State) (k : Fin 64) (f : Stream → Stream) : (modStream k f s).larder = s.larder := rfl
@[simp] theorem modStream_work (s : State) (k : Fin 64) (f : Stream → Stream) : (modStream k f s).work = s.work := rfl
@[simp] theorem modStream_hawk (s : State) (k : Fin 64) (f : Stream → Stream) : (modStream k f s).hawk = s.hawk := rfl
@[simp] theorem modStream_gw (s : State) (k : Fin 64) (f : Stream → Stream) : (modStream k f s).gw = s.gw := rfl
@[simp] theorem modStream_strong (s : State) (k : Fin 64) (f : Stream → Stream) : (modStream k f s).strong = s.strong := rfl
@[simp] theorem modStream_attic (s : State) (k : Fin 64) (f : Stream → Stream) : (modStream k f s).attic = s.attic := rfl
@[simp] theorem modStream_power (s : State) (k : Fin 64) (f : Stream → Stream) : (modStream k f s).power = s.power := rfl
@[simp] theorem modStream_free (s : State) (k : Fin 64) (f : Stream → Stream) : (modStream k f s).free = s.free := rfl
@[simp] theorem modStream_pending (s : State) (k : Fin 64) (f : Stream → Stream) : (modStream k f s).pending = s.pending := rfl

@[simp] theorem setLink_links (s : State) (l : LinkId) (v : Link) : (setLink s l v).links = tblSet {} s.links l.val v := rfl
@[simp] theorem setLane_lanes (s : State) (n : LaneId) (v : Lane) : (setLane s n v).lanes = tblSet {} s.lanes n.val v := rfl
@[simp] theorem setIn_inp (s : State) (i : PortId) (v : InPort) : (setIn s i v).core.inp = tblSet {} s.core.inp i.val v := rfl
@[simp] theorem setOut_out (s : State) (o : PortId) (v : OutPort) : (setOut s o v).core.out = tblSet {} s.core.out o.val v := rfl
@[simp] theorem setFn_fns (s : State) (f : FnId) (v : Fn) : (setFn s f v).fns = tblSet {} s.fns (fnKey f) v := rfl
@[simp] theorem setTm_tm (s : State) (l : LinkId) (v : Tm) : (setTm s l v).tm = tblSet {} s.tm l.val v := rfl
@[simp] theorem setGroup_group (s : State) (g : Fin 1024) (v : Group) : (setGroup s g v).hawk.group = tblSet {} s.hawk.group g.val v := rfl
@[simp] theorem setThr_thr (s : State) (t : Thr) (v : Thread) : (setThr t v s).work.thr = tblSet {} s.work.thr (thrKey t) v := rfl
@[simp] theorem setThr_mem (s : State) (t : Thr) (v : Thread) : (setThr t v s).work.mem = s.work.mem := rfl

end Machine
end Sys2Proof
end

