-- ==== Sys2Proof/Laws/Tbl.lean ====
section
/-!
SUPPORT. The laws of the sparse tables: reading after a write, and that every operation keeps the canonical form.
-/
namespace Sys2Proof
namespace Machine

variable {α : Type}

@[simp] theorem tblGet_nil (d : α) (k : Nat) : tblGet d [] k = d := rfl

/-- A key below every listed key holds the default. -/
theorem tblGet_of_above [DecidableEq α] (d : α) (k : Nat) :
    ∀ t : Tbl α, tblWf d t = true → tblAbove k t = true → tblGet d t k = d
  | [], _, _ => rfl
  | (i, v) :: t, hw, ha => by
    simp only [tblAbove, decide_eq_true_eq] at ha
    simp only [tblWf, Bool.and_eq_true, decide_eq_true_eq] at hw
    have h2 : tblAbove k t = true := by
      cases t with
      | nil => rfl
      | cons x r =>
        have := hw.1.2
        simp only [tblAbove, decide_eq_true_eq] at this ⊢
        omega
    rw [tblGet, if_neg (by omega)]
    exact tblGet_of_above d k t hw.2 h2

/-- Reading another key after an insertion. -/
theorem tblGet_tblInsert_ne (d : α) (k j : Nat) (v : α) (h : j ≠ k) :
    ∀ t : Tbl α, tblGet d (tblInsert t k v) j = tblGet d t j
  | [] => by simp [tblInsert, tblGet, Ne.symm h]
  | (i, w) :: t => by
    unfold tblInsert
    split
    · rename_i e; subst e; simp [tblGet, Ne.symm h]
    · split
      · simp [tblGet, Ne.symm h]
      · simp only [tblGet]; split
        · rfl
        · exact tblGet_tblInsert_ne d k j v h t

/-- Reading the key that an insertion wrote. -/
@[simp] theorem tblGet_tblInsert_self (d : α) (k : Nat) (v : α) : ∀ t : Tbl α, tblGet d (tblInsert t k v) k = v
  | [] => by simp [tblInsert, tblGet]
  | (i, w) :: t => by
    unfold tblInsert
    split
    · simp [tblGet]
    · split
      · simp [tblGet]
      · rename_i h _
        simp only [tblGet, if_neg h]
        exact tblGet_tblInsert_self d k v t

/-- Reading another key after an erasure. -/
theorem tblGet_tblErase_ne (d : α) (k j : Nat) (h : j ≠ k) : ∀ t : Tbl α, tblGet d (tblErase t k) j = tblGet d t j
  | [] => rfl
  | (i, w) :: t => by
    unfold tblErase
    split
    · rename_i e; subst e; simp [tblGet, Ne.symm h]
    · split
      · rfl
      · simp only [tblGet]; split
        · rfl
        · exact tblGet_tblErase_ne d k j h t

/-- Reading the key that an erasure removed. -/
theorem tblGet_tblErase_self [DecidableEq α] (d : α) (k : Nat) :
    ∀ t : Tbl α, tblWf d t = true → tblGet d (tblErase t k) k = d
  | [], _ => rfl
  | (i, w) :: t, hw => by
    have hw' := hw
    simp only [tblWf, Bool.and_eq_true, decide_eq_true_eq] at hw'
    unfold tblErase
    split
    · rename_i e; subst e; exact tblGet_of_above d i t hw'.2 hw'.1.2
    · split
      · rename_i h h2
        exact tblGet_of_above d k _ hw (by simpa [tblAbove] using h2)
      · rename_i h _
        simp only [tblGet, if_neg h]
        exact tblGet_tblErase_self d k t hw'.2

/-- A write leaves every other key as it was. -/
theorem tblGet_tblSet_ne [DecidableEq α] (d : α) (t : Tbl α) (k j : Nat) (v : α) (h : j ≠ k) :
    tblGet d (tblSet d t k v) j = tblGet d t j := by
  unfold tblSet
  split
  · exact tblGet_tblErase_ne d k j h t
  · exact tblGet_tblInsert_ne d k j v h t

/-- A read after a write to the same key gives the value written. -/
theorem tblGet_tblSet_self [DecidableEq α] (d : α) (t : Tbl α) (k : Nat) (v : α) (hw : tblWf d t = true) :
    tblGet d (tblSet d t k v) k = v := by
  unfold tblSet
  split
  · rename_i e; rw [e]; exact tblGet_tblErase_self d k t hw
  · exact tblGet_tblInsert_self d k v t

/-- A value that is not the default is read back from any table. -/
theorem tblGet_tblSet_of_ne [DecidableEq α] (d : α) (t : Tbl α) (k : Nat) (v : α) (h : v ≠ d) :
    tblGet d (tblSet d t k v) k = v := by
  simp [tblSet, h]

/-- An erasure keeps every listed key above a bound. -/
theorem tblAbove_tblErase [DecidableEq α] (d : α) (b k : Nat) :
    ∀ t : Tbl α, tblWf d t = true → tblAbove b t = true → tblAbove b (tblErase t k) = true
  | [], _, _ => rfl
  | (i, w) :: t, hw, ha => by
    simp only [tblWf, Bool.and_eq_true, decide_eq_true_eq] at hw
    simp only [tblAbove, decide_eq_true_eq] at ha
    unfold tblErase
    split
    · cases t with
      | nil => rfl
      | cons x r =>
        have := hw.1.2
        simp only [tblAbove, decide_eq_true_eq] at this ⊢
        omega
    · split <;> simpa [tblAbove] using ha

/-- An erasure keeps the canonical form. -/
theorem tblWf_tblErase [DecidableEq α] (d : α) (k : Nat) :
    ∀ t : Tbl α, tblWf d t = true → tblWf d (tblErase t k) = true
  | [], _ => rfl
  | (i, w) :: t, hw => by
    have hw' := hw
    simp only [tblWf, Bool.and_eq_true, decide_eq_true_eq] at hw'
    unfold tblErase
    split
    · exact hw'.2
    · split
      · exact hw
      · simp only [tblWf, Bool.and_eq_true, decide_eq_true_eq]
        exact ⟨⟨hw'.1.1, tblAbove_tblErase d i k t hw'.2 hw'.1.2⟩, tblWf_tblErase d k t hw'.2⟩

/-- An insertion above a bound keeps every listed key above it. -/
theorem tblAbove_tblInsert (b k : Nat) (v : α) (hb : b < k) :
    ∀ t : Tbl α, tblAbove b t = true → tblAbove b (tblInsert t k v) = true
  | [], _ => by simpa [tblInsert, tblAbove] using hb
  | (i, w) :: t, ha => by
    simp only [tblAbove, decide_eq_true_eq] at ha
    unfold tblInsert
    split
    · simpa [tblAbove] using hb
    · split
      · simpa [tblAbove] using hb
      · simpa [tblAbove] using ha

/-- An insertion of a value that is not the default keeps the canonical form. -/
theorem tblWf_tblInsert [DecidableEq α] (d : α) (k : Nat) (v : α) (hv : v ≠ d) :
    ∀ t : Tbl α, tblWf d t = true → tblWf d (tblInsert t k v) = true
  | [], _ => by simp [tblInsert, tblWf, tblAbove, hv]
  | (i, w) :: t, hw => by
    have hw' := hw
    simp only [tblWf, Bool.and_eq_true, decide_eq_true_eq] at hw'
    unfold tblInsert
    split
    · rename_i e; subst e
      simp only [tblWf, Bool.and_eq_true, decide_eq_true_eq]
      exact ⟨⟨hv, hw'.1.2⟩, hw'.2⟩
    · split
      · rename_i h h2
        simp only [tblWf, Bool.and_eq_true, decide_eq_true_eq] at hw ⊢
        exact ⟨⟨hv, by simpa [tblAbove] using h2⟩, hw⟩
      · rename_i h h2
        simp only [tblWf, Bool.and_eq_true, decide_eq_true_eq]
        exact ⟨⟨hw'.1.1, tblAbove_tblInsert i k v (by omega) t hw'.1.2⟩, tblWf_tblInsert d k v hv t hw'.2⟩

/-- A write keeps the canonical form. -/
theorem tblWf_tblSet [DecidableEq α] (d : α) (t : Tbl α) (k : Nat) (v : α) (hw : tblWf d t = true) :
    tblWf d (tblSet d t k v) = true := by
  unfold tblSet
  split
  · exact tblWf_tblErase d k t hw
  · rename_i h; exact tblWf_tblInsert d k v h t hw

/-- A change of one value keeps the canonical form. -/
theorem tblWf_tblMod [DecidableEq α] (d : α) (t : Tbl α) (k : Nat) (f : α → α) (hw : tblWf d t = true) :
    tblWf d (tblMod d t k f) = true := tblWf_tblSet d t k _ hw

/-- A change of every value keeps every listed key above a bound. -/
theorem tblAbove_tblMap [DecidableEq α] (d : α) (f : Nat → α → α) (b : Nat) :
    ∀ t : Tbl α, tblWf d t = true → tblAbove b t = true → tblAbove b (tblMap d f t) = true
  | [], _, _ => rfl
  | (i, v) :: t, hw, ha => by
    simp only [tblWf, Bool.and_eq_true, decide_eq_true_eq] at hw
    simp only [tblAbove, decide_eq_true_eq] at ha
    unfold tblMap
    split
    · refine tblAbove_tblMap d f b t hw.2 ?_
      cases t with
      | nil => rfl
      | cons x r =>
        have := hw.1.2
        simp only [tblAbove, decide_eq_true_eq] at this ⊢
        omega
    · simpa [tblAbove] using ha

/-- A change of every value keeps the canonical form. -/
theorem tblWf_tblMap [DecidableEq α] (d : α) (f : Nat → α → α) :
    ∀ t : Tbl α, tblWf d t = true → tblWf d (tblMap d f t) = true
  | [], _ => rfl
  | (i, v) :: t, hw => by
    simp only [tblWf, Bool.and_eq_true, decide_eq_true_eq] at hw
    unfold tblMap
    split
    · exact tblWf_tblMap d f t hw.2
    · rename_i h
      simp only [tblWf, Bool.and_eq_true, decide_eq_true_eq]
      exact ⟨⟨h, tblAbove_tblMap d f i t hw.2 hw.1.2⟩, tblWf_tblMap d f t hw.2⟩

/-! ### Memories -/

/-- A write of bytes keeps the canonical form of a memory. -/
theorem tblWf_memWrite : ∀ (bs : List Byte) (m : Tbl Byte) (a : Nat), tblWf 0 m = true → tblWf 0 (memWrite m a bs) = true
  | [], _, _, h => h
  | b :: bs, m, a, h => tblWf_memWrite bs _ _ (tblWf_tblSet 0 m a b h)

/-- A write leaves every byte outside the stored bytes as it was. -/
theorem tblGet_memWrite_outside : ∀ (bs : List Byte) (m : Tbl Byte) (a j : Nat), (j < a ∨ a + bs.length ≤ j) →
    tblGet 0 (memWrite m a bs) j = tblGet 0 m j
  | [], _, _, _, _ => rfl
  | b :: bs, m, a, j, h => by
    rw [memWrite, tblGet_memWrite_outside bs _ _ _ (by simp only [List.length_cons] at h; omega)]
    exact tblGet_tblSet_ne 0 m a j b (by simp only [List.length_cons] at h; omega)

/-- A read after a write of the same bytes gives the bytes written. -/
theorem memRead_memWrite : ∀ (bs : List Byte) (m : Tbl Byte) (a : Nat), tblWf 0 m = true →
    memRead (memWrite m a bs) a bs.length = bs
  | [], _, _, _ => rfl
  | b :: bs, m, a, h => by
    have h1 := tblWf_tblSet 0 m a b h
    have h2 : tblGet 0 (memWrite (tblSet 0 m a b) (a + 1) bs) a = b := by
      rw [tblGet_memWrite_outside bs _ _ _ (by omega)]
      exact tblGet_tblSet_self 0 m a b h
    simp only [List.length_cons, memRead, memWrite, h2, memRead_memWrite bs _ _ h1]

/-- The number of bytes read. -/
@[simp] theorem memRead_length (m : Tbl Byte) : ∀ (n a : Nat), (memRead m a n).length = n
  | 0, _ => rfl
  | n + 1, a => by simp [memRead, memRead_length m n (a + 1)]

end Machine
end Sys2Proof
end

