-- ==== Sys2Proof/Laws/Memory.lean ====
section
/-!
SUPPORT. The laws of the memories: the state at the end of reset has the canonical form, and every operation that
writes the Larder or an array memory keeps it.
-/
namespace Sys2Proof
namespace Machine

variable {α : Type}

/-- A filter keeps every listed key above a bound. -/
theorem tblAbove_filter (p : Nat × α → Bool) (d : α) [DecidableEq α] (b : Nat) :
    ∀ t : Tbl α, tblWf d t = true → tblAbove b t = true → tblAbove b (t.filter p) = true
  | [], _, _ => rfl
  | (i, v) :: t, hw, ha => by
    simp only [tblWf, Bool.and_eq_true, decide_eq_true_eq] at hw
    simp only [tblAbove, decide_eq_true_eq] at ha
    rw [List.filter_cons]
    split
    · simpa [tblAbove] using ha
    · refine tblAbove_filter p d b t hw.2 ?_
      cases t with
      | nil => rfl
      | cons x r =>
        have := hw.1.2
        simp only [tblAbove, decide_eq_true_eq] at this ⊢
        omega

/-- A filter keeps the canonical form. -/
theorem tblWf_filter (p : Nat × α → Bool) (d : α) [DecidableEq α] :
    ∀ t : Tbl α, tblWf d t = true → tblWf d (t.filter p) = true
  | [], _ => rfl
  | (i, v) :: t, hw => by
    simp only [tblWf, Bool.and_eq_true, decide_eq_true_eq] at hw
    rw [List.filter_cons]
    split
    · simp only [tblWf, Bool.and_eq_true, decide_eq_true_eq]
      exact ⟨⟨hw.1.1, tblAbove_filter p d i t hw.2 hw.1.2⟩, tblWf_filter p d t hw.2⟩
    · exact tblWf_filter p d t hw.2

/-- The memories at the end of reset list nothing. -/
@[simp] theorem reset_larder_mem : State.reset.larder.mem = [] := rfl
@[simp] theorem reset_work_mem : State.reset.work.mem = [] := rfl

/-- The memories at the end of reset are in canonical form. -/
theorem reset_memWf : State.reset.memWf = true := rfl

/-- A state whose two memories are in canonical form. -/
theorem memWf_iff (s : State) : s.memWf = true ↔ tblWf 0 s.larder.mem = true ∧ tblWf 0 s.work.mem = true := by
  simp [State.memWf, Larder.memWf, Work.memWf]

/-- Writing words keeps the canonical form of the memory. -/
theorem writeWords_wf : ∀ (fuel b : Nat) (bs : List Byte) (m : Tbl Byte × Tbl Bool) (r : Bool × Nat),
    tblWf 0 m.1 = true → tblWf 0 (writeWords fuel b bs m r).1.1 = true
  | 0, _, _, _, _, h => h
  | fuel + 1, b, bs, m, r, h => by
    simp only [writeWords]
    split
    · exact h
    · refine writeWords_wf fuel _ _ _ _ ?_
      split
      · exact h
      · exact tblWf_memWrite _ _ _ h

/-- Writing words leaves every byte outside the bytes written as it was. -/
theorem writeWords_outside : ∀ (fuel b : Nat) (bs : List Byte) (m : Tbl Byte × Tbl Bool) (r : Bool × Nat) (j : Nat),
    (j < b ∨ b + bs.length ≤ j) → tblGet 0 (writeWords fuel b bs m r).1.1 j = tblGet 0 m.1 j
  | 0, _, _, _, _, _, _ => rfl
  | fuel + 1, b, bs, m, r, j, h => by
    simp only [writeWords]
    split
    · rfl
    · rw [writeWords_outside fuel _ _ _ _ j (by simp only [List.length_drop]; omega)]
      split
      · rfl
      · exact tblGet_memWrite_outside _ _ _ _ (by simp only [List.length_take]; omega)

/-- Raising a counter writes no memory. -/
@[simp] theorem bump_larder_mem (pg i n : Nat) (s : State) : (bump pg i n s).larder.mem = s.larder.mem := rfl
@[simp] theorem bump_work_mem (pg i n : Nat) (s : State) : (bump pg i n s).work.mem = s.work.mem := rfl

/-- Writing runs of the Larder keeps both memories in canonical form. -/
theorem writeRuns_memWf : ∀ (rs : List (Nat × Nat)) (bs : List Byte) (s : State) (ok : Bool),
    s.memWf = true → (writeRuns rs bs s ok).1.memWf = true
  | [], _, _, _, h => h
  | (b, n) :: t, bs, s, ok, h => by
    simp only [writeRuns]
    refine writeRuns_memWf t _ _ _ ?_
    rw [memWf_iff] at h ⊢
    split
    · exact ⟨writeWords_wf _ _ _ _ _ h.1, h.2⟩
    · exact ⟨writeWords_wf _ _ _ _ _ h.1, h.2⟩

/-- A write to a place keeps both memories in canonical form. -/
theorem placeWrite_memWf (p : Place) (bs : List Byte) (s : State) (h : s.memWf = true) :
    (placeWrite p bs s).1.memWf = true := by
  cases p with
  | larder runs => exact writeRuns_memWf runs bs s true h
  | array b =>
    rw [memWf_iff] at h ⊢
    exact ⟨h.1, writeWords_wf (bs.length / 64 + 2) b bs (s.work.mem, s.work.badWord) (true, 0) h.2⟩
  | counter b => exact h

/-- Bytes that the part itself writes keep the memories in canonical form. -/
theorem larderPut_memWf (a : Nat) (bs : List Byte) (s : State) (h : s.memWf = true) : (larderPut a bs s).memWf = true := by
  rw [memWf_iff] at h ⊢
  exact ⟨tblWf_memWrite _ _ _ h.1, h.2⟩

/-- Zeroing a range keeps the memories in canonical form. -/
theorem larderZero_memWf (a n : Nat) (s : State) (h : s.memWf = true) : (larderZero a n s).memWf = true := by
  rw [memWf_iff] at h ⊢
  exact ⟨tblWf_filter _ 0 _ h.1, h.2⟩

/-- Zeroing a frame keeps the memories in canonical form. -/
theorem zeroFrame_memWf (f : Nat) (s : State) (h : s.memWf = true) : (zeroFrame f s).memWf = true := by
  rw [memWf_iff] at h ⊢
  exact ⟨tblWf_filter _ 0 _ h.1, h.2⟩

/-- Zeroing an array's memory keeps the memories in canonical form (R535). -/
theorem execArrayZeroDone_memWf (a : Fin 64) (s s' : State) (h : s.memWf = true)
    (e : execArrayZeroDone a s = .next s') : s'.memWf = true := by
  simp only [execArrayZeroDone] at e
  cases e
  rw [memWf_iff] at h ⊢
  split
  · exact ⟨h.1, tblWf_filter _ 0 _ h.2⟩
  · exact h

/-- Lockdown's erasure keeps the memories in canonical form (R683). -/
theorem lockErase_memWf (s : State) (h : s.memWf = true) : (lockErase s).memWf = true := by
  rw [memWf_iff] at h ⊢
  exact ⟨tblWf_filter _ 0 _ h.1, rfl⟩

/-- A write of a local byte range outside an address leaves that byte as it was. -/
theorem larderPut_outside (a : Nat) (bs : List Byte) (s : State) (j : Nat) (h : j < a ∨ a + bs.length ≤ j) :
    tblGet 0 (larderPut a bs s).larder.mem j = tblGet 0 s.larder.mem j :=
  tblGet_memWrite_outside bs _ _ _ h

end Machine
end Sys2Proof
end

