-- ==== Sys2Proof/Laws/Ops.lean ====
section
/-!
SUPPORT. What each shared operation can do, said once: the parts of the state that it may change, and what it writes.
-/
namespace Sys2Proof
namespace Machine

/-! ### Which parts of the state a change leaves alone -/

theorem EnzOnly.rfl (s : State) : EnzOnly s s := ⟨s.enz, Eq.refl s⟩

theorem EnzOnly.trans {s t u : State} : EnzOnly s t → EnzOnly t u → EnzOnly s u := by
  rintro ⟨x, h⟩ ⟨y, k⟩
  subst h; subst k
  exact ⟨y, Eq.refl _⟩

theorem HostOnly.rfl (s : State) : HostOnly s s := ⟨s.enz, s.rings, s.counts, Eq.refl s⟩

theorem HostOnly.trans {s t u : State} : HostOnly s t → HostOnly t u → HostOnly s u := by
  rintro ⟨x, y, z, h⟩ ⟨x', y', z', k⟩
  subst h; subst k
  exact ⟨x', y', z', Eq.refl _⟩

theorem EnzOnly.host {s t : State} : EnzOnly s t → HostOnly s t := by
  rintro ⟨x, h⟩
  subst h
  exact ⟨x, s.rings, s.counts, Eq.refl _⟩

theorem EnzOnly.eq {s t : State} : EnzOnly s t → t = { s with enz := t.enz } := by
  rintro ⟨x, h⟩; subst h; exact Eq.refl _

theorem HostOnly.eq {s t : State} : HostOnly s t → t = { s with enz := t.enz, rings := t.rings, counts := t.counts } := by
  rintro ⟨x, y, z, h⟩; subst h; exact Eq.refl _

/-! ### Frames to the host -/

/-- A frame to the adapter changes the Enzen link alone. -/
theorem sendFrame_enz (f : HostFrame) (s : State) : EnzOnly s (sendFrame f s) := by
  unfold sendFrame; split <;> exact ⟨_, rfl⟩

theorem hostWrite_enz : ∀ (n : Nat) (a : Word) (bs : List Byte) (s : State), EnzOnly s (hostWrite n a bs s)
  | 0, _, _, s => EnzOnly.rfl s
  | n + 1, a, bs, s => by
    unfold hostWrite
    split
    · exact EnzOnly.rfl s
    · exact (sendFrame_enz _ s).trans (hostWrite_enz n _ _ _)

/-- A write to host memory changes the Enzen link alone. -/
theorem hostPut_enz (a : Word) (bs : List Byte) (s : State) : EnzOnly s (hostPut a bs s) := hostWrite_enz _ a bs s

theorem sendMsg_enz (v : BitVec 8) (s : State) : EnzOnly s (sendMsg v s) := sendFrame_enz _ s

theorem consumerPut_enz (o : Nat) (v : BitVec 32) (s : State) : EnzOnly s (consumerPut o v s) := hostPut_enz _ _ s

/-! ### Reads of host memory -/

theorem issueRead_enz (s : State) : EnzOnly s (issueRead s) := by
  unfold issueRead
  split
  · split
    · split
      · exact ⟨_, rfl⟩
      · exact EnzOnly.rfl s
    · exact EnzOnly.rfl s
  · exact EnzOnly.rfl s

theorem issueReads_enz : ∀ (n : Nat) (s : State), EnzOnly s (issueReads n s)
  | 0, s => EnzOnly.rfl s
  | n + 1, s => (issueRead_enz s).trans (issueReads_enz n _)

/-- A read of host memory changes the Enzen link alone. -/
theorem hostRead_enz (u : HostUse) (a : Word) (n : Nat) (s : State) : EnzOnly s (hostRead u a n s) :=
  (show EnzOnly s { s with enz.reads := s.enz.reads ++ readPieces u (ceilDiv n 4096) a n } from ⟨_, rfl⟩).trans
    (issueReads_enz _ _)

/-! ### Events -/

theorem toHost_enz (g : State → State) (hg : ∀ x, EnzOnly x (g x)) (s : State) : EnzOnly s (toHost g s) := by
  unfold toHost
  split
  · exact ⟨_, rfl⟩
  · exact hg s

theorem bump_host (p w n : Nat) (s : State) : HostOnly s (bump p w n s) := ⟨_, _, _, rfl⟩

theorem bumpModule_host (w : Nat) (s : State) : HostOnly s (bumpModule w s) := bump_host _ _ _ s

/-- Writing an event changes the Enzen link and the rings, and no count. -/
theorem evWrite_host (e : Event) (s : State) : HostOnly s (evWrite e s) ∧ (evWrite e s).counts = s.counts := by
  simp only [evWrite]
  generalize hT : toHost _ s = t
  have H : EnzOnly s t := by
    rw [← hT]
    refine toHost_enz _ (fun x => EnzOnly.trans ?_ ((hostPut_enz _ _ _).trans (consumerPut_enz _ _ _))) s
    split
    · exact EnzOnly.rfl x
    · exact hostPut_enz _ _ x
  obtain ⟨x, hx⟩ := H
  rw [hx]
  split
  · obtain ⟨y, hy⟩ := sendMsg_enz (evRing s).vector
      { s with enz := x, rings.ev.prod := s.rings.ev.prod + 1, rings.ev.armed := false }
    exact ⟨⟨y, _, _, hy⟩, by rw [hy]⟩
  · exact ⟨⟨_, _, _, rfl⟩, rfl⟩

/-- Holding an event changes neither log nor sideband. -/
theorem evHold_host (e : Event) (s : State) : HostOnly s (evHold e s) ∧ (evHold e s).counts.log = s.counts.log
    ∧ (evHold e s).counts.sideband = s.counts.sideband ∧ (evHold e s).counts.logNext = s.counts.logNext := by
  unfold evHold
  split
  · exact ⟨⟨_, _, _, rfl⟩, rfl, rfl, rfl⟩
  · split
    · exact ⟨⟨_, _, _, rfl⟩, rfl, rfl, rfl⟩
    · exact ⟨⟨_, _, _, rfl⟩, rfl, rfl, rfl⟩
    · split <;> exact ⟨⟨_, _, _, rfl⟩, rfl, rfl, rfl⟩

/-- Raising an event changes the Enzen link, the rings and the counts alone. -/
theorem raise_host (e : Event) (s : State) : HostOnly s (raise e s) := by
  simp only [raise]
  split
  · exact ⟨_, _, _, rfl⟩
  · split
    · exact HostOnly.trans ⟨_, _, _, rfl⟩ (evWrite_host _ _).1
    · exact HostOnly.trans ⟨_, _, _, rfl⟩ (evHold_host _ _).1

/-- Every event raised reaches the sideband with the tick number of its raising (R61, R753). -/
theorem raise_sideband (e : Event) (s : State) :
    (raise e s).counts.sideband = s.counts.sideband ++ [{ e with tick := nowTick s }] := by
  simp only [raise]
  split
  · rfl
  · split
    · rw [(evWrite_host _ _).2]
    · rw [(evHold_host _ _).2.2.1]

/-- Every event raised advances the fault log (R755). -/
theorem raise_logNext (e : Event) (s : State) : (raise e s).counts.logNext = s.counts.logNext + 1 := by
  simp only [raise]
  split
  · rfl
  · split
    · rw [(evWrite_host _ _).2]
    · rw [(evHold_host _ _).2.2.2]

theorem raiseEv_host (c : BitVec 8) (u n : Nat) (g : BitVec 16) (s : State) : HostOnly s (raiseEv c u n g s) := raise_host _ s

theorem raiseEv_sideband (c : BitVec 8) (u n : Nat) (g : BitVec 16) (s : State) :
    (raiseEv c u n g s).counts.sideband = s.counts.sideband ++
      [{ code := c, unit := BitVec.ofNat 16 u, detail := BitVec.ofNat 128 n, gen := g, tick := nowTick s }] :=
  raise_sideband _ s

/-- The events held are at most 256 after one more is held, if they were before (R133). -/
theorem evHold_bound (e : Event) (s : State) (h : s.rings.evHeld.length ≤ 256) : (evHold e s).rings.evHeld.length ≤ 256 := by
  have merge : ∀ (l r : List Event), evMerge e l = some r → r.length = l.length := by
    intro l
    induction l with
    | nil => intro r hr; simp [evMerge] at hr
    | cons x t ih =>
      intro r hr
      unfold evMerge at hr
      split at hr
      · cases hr; rfl
      · cases hm : evMerge e t with
        | none => simp [hm] at hr
        | some q => simp [hm] at hr; subst hr; simp [ih q hm]
  unfold evHold
  split
  · rename_i hl; simp only [List.length_append, List.length_singleton]; omega
  · split
    · rename_i i hi
      simp only [bumpModule, bump, List.length_append, List.length_singleton]
      have hlt : i < s.rings.evHeld.length := by
        obtain ⟨hlt, -⟩ := List.findIdx?_eq_some_iff_getElem.mp hi
        exact hlt
      rw [List.length_eraseIdx_of_lt hlt]; omega
    · exact h
    · split
      · rename_i hm; simp only [bumpModule, bump]; rw [merge _ _ hm]; exact h
      · exact h

/-! ### Completions -/

theorem setSq_host (s : State) (i : Fin 64) (r : Ring) : HostOnly s (setSq s i r) := ⟨_, _, _, rfl⟩

theorem setCq_host (s : State) (j : Fin 64) (r : Ring) : HostOnly s (setCq s j r) := ⟨_, _, _, rfl⟩

@[simp] theorem setSq_flight (s : State) (i : Fin 64) (r : Ring) : (setSq s i r).rings.flight = s.rings.flight := rfl

@[simp] theorem setCq_flight (s : State) (j : Fin 64) (r : Ring) : (setCq s j r).rings.flight = s.rings.flight := rfl

theorem EnzOnly.rings_eq {s t : State} : EnzOnly s t → t.rings = s.rings := by
  rintro ⟨x, h⟩; subst h; exact Eq.refl _

theorem cqInterrupt_host (j : Fin 64) (s : State) :
    HostOnly s (cqInterrupt j s) ∧ (cqInterrupt j s).rings.flight = s.rings.flight := by
  unfold cqInterrupt
  simp only []
  refine ⟨(sendMsg_enz _ s).host.trans (setCq_host _ _ _), ?_⟩
  rw [setCq_flight, (sendMsg_enz _ s).rings_eq]

theorem cqModerate_host (j : Fin 64) (b : Bool) (s : State) :
    HostOnly s (cqModerate j b s) ∧ (cqModerate j b s).rings.flight = s.rings.flight := by
  unfold cqModerate
  simp only []
  split
  · exact ⟨HostOnly.rfl s, rfl⟩
  · split
    · exact cqInterrupt_host j s
    · split
      · exact cqInterrupt_host j s
      · exact ⟨HostOnly.rfl s, rfl⟩

theorem leaveFlight_host (d : DRef) (s : State) : HostOnly s (leaveFlight d s) := ⟨_, _, _, rfl⟩

@[simp] theorem leaveFlight_flight (d : DRef) (s : State) :
    (leaveFlight d s).rings.flight = s.rings.flight.filter (fun g => g.ref ≠ d) := rfl

theorem putCompletion_host (j : Fin 64) (f : InFlight) (st : BitVec 8) (r : Word) (s : State) :
    HostOnly s (putCompletion j f st r s) ∧ (putCompletion j f st r s).rings = s.rings := by
  unfold putCompletion
  have h := toHost_enz (fun x => consumerPut (0x100 + 4 * j.val) ((tblGet {} s.rings.cq j.val).prod + 1)
    (sendFrame { ftype := 0x03, addr := entryAddr (cqRing s j) 32 (tblGet {} s.rings.cq j.val).prod,
                 payload := complBytes s f st r (phaseOf (cqRing s j) (tblGet {} s.rings.cq j.val).prod), compl := some f.ref.sq } x))
    (fun x => (sendFrame_enz _ x).trans (consumerPut_enz _ _ _)) s
  exact ⟨h.host.trans (bumpModule_host _ _), h.rings_eq⟩

theorem countCompletion_host (j : Fin 64) (s : State) : HostOnly s (countCompletion j s) := setCq_host _ _ _

@[simp] theorem countCompletion_flight (j : Fin 64) (s : State) : (countCompletion j s).rings.flight = s.rings.flight := rfl

/-- A completion changes the Enzen link, the rings and the counts alone. -/
theorem complete_host (d : DRef) (st : BitVec 8) (r : Word) (s : State) : HostOnly s (complete d st r s) := by
  unfold complete
  split
  · exact HostOnly.rfl s
  · dsimp only
    split
    · exact leaveFlight_host d s
    · exact (leaveFlight_host d s).trans ((putCompletion_host _ _ _ _ _).1.trans
        ((countCompletion_host _ _).trans (cqModerate_host _ _ _).1))

/-- The descriptor that completes leaves flight and no other does (R123). -/
theorem complete_flight (d : DRef) (st : BitVec 8) (r : Word) (s : State) :
    (complete d st r s).rings.flight = s.rings.flight.filter (fun g => g.ref ≠ d) := by
  unfold complete
  split
  · rename_i h
    unfold flightOf at h
    symm
    rw [List.filter_eq_self]
    intro f hf
    have := List.find?_eq_none.mp h f hf
    simpa using this
  · dsimp only
    split
    · rfl
    · rw [(cqModerate_host _ _ _).2, countCompletion_flight, (putCompletion_host _ _ _ _ _).2, leaveFlight_flight]

/-- A descriptor completes at most once (R123). -/
theorem complete_none (d : DRef) (st : BitVec 8) (r : Word) (s : State) (h : flightOf s d = none) : complete d st r s = s := by
  unfold complete
  rw [h]

end Machine
end Sys2Proof
end

