-- ==== Sys2Proof/WellFormed.lean ====
section
/-!
DEFINITION. Which commands are well formed: the checks that an operand's type leaves open, each from the layout that its
row's rules name.
-/
namespace Sys2Proof

/-- A packet holds as many payload bytes as pay_len counts, and pay_len is at most 4,096 (R142, Table 5-6). -/
def Packet.wf (p : Packet) : Bool := decide (p.payload.length = p.payLen.toNat) && decide (p.payLen.toNat ≤ 4096)

/-- A marker's offset is one of a tick's 8,192 units of 0.125 ns (Table 2-2). -/
def Marker.wf (m : Marker) : Bool := decide (m.txOffset.toNat < 8192)

/-- A frame's payload fits its 13-bit length (Table 4-4). -/
def HostFrame.wf (f : HostFrame) : Bool := decide (f.payload.length ≤ 4096)

/-- A LINK_CAP advertises units for each of 16 partitions (Table 6-3). -/
def LinkCap.wf (c : LinkCap) : Bool := decide (c.credits.length = 16)

/-- A frame comes on at most 4 lanes, each with a codeword of 280 symbols (R192, R631). -/
def LinkFrame.wf (f : LinkFrame) : Bool := decide (f.words.length ≤ 4) && f.words.all (fun w => decide (w.length = 280))

/-- An AUDIT carries three values for each of 16 partitions (Table 6-7). -/
def AuditMsg.wf (m : AuditMsg) : Bool :=
  decide (m.held.length = 16) && decide (m.sent.length = 16) && decide (m.rcvd.length = 16)

/-- A RESYNC carries two values for each of 16 partitions (Table 6-7). -/
def ResyncMsg.wf (m : ResyncMsg) : Bool := decide (m.retd.length = 16) && decide (m.got.length = 16)

/-- The command is well formed. -/
def Instr.wf : Instr → Bool
  | .tickMarkerReceive _ m _ => m.wf
  | .memRdData f => f.wf
  | .enzenFlitReceive flit => decide (flit.length = 200)
  | .linkCap _ c => c.wf
  | .linkFrameReceive _ f => f.wf
  | .audit _ m => m.wf
  | .resync _ m => m.wf
  | .fabricPacketArrival _ a => a.pkt.wf
  | .rdReq p | .wr p | .atFadd64 p | .atSwap64 p | .atCas64 p | .atCas128 p | .atFaddFp32 p
  | .atFaddBf16 p | .launchPkt _ p | .attnQuery _ p | .collStart _ p | .collContrib _ p | .collArrive _ p
  | .collCounts _ p | .landingCredit _ p | .mgmtPkt p | .rdData p | .wrAck p | .atData p | .failPkt p | .launchAck p => p.wf
  | .pfcFrameReceive _ _ q => decide (q.length = 8)
  | .prbsWindowEnd _ e => decide (e.length = 4)
  | .laneDetectDone _ e => decide (e.length = 4)
  | .alignComplete _ e => decide (e.length = 4)
  | _ => true

end Sys2Proof
end

