-- ==== Sys2Proof/Tests/Slice0.lean ====
section
/-!
SUPPORT. Tests: the worked examples of the spec, the checks of well-formedness, and, for each statement of Obligations.lean
that has hypotheses, one theorem that shows states and operands that meet the hypotheses of each of its clauses.
-/
namespace Sys2Proof
open Machine
set_option Elab.async false

/-- The first descriptor of SQ0. -/
def d0 : DRef := ⟨0, 0⟩

/-- Thread 0 of array 0. -/
def t0 : Thr := ⟨0, 0⟩

/-- A descriptor in flight: opcode, target, and the rest of its bits as a number. -/
def fl (op : Nat) (target : Nat := 0) (rest : Nat := 0) : InFlight :=
  { ref := d0, sqGen := 0, desc := BitVec.ofNat 512 (op + target <<< 32 + rest), fetchTick := 0 }

/-- The state with that one descriptor in flight. -/
def inFlight (f : InFlight) (s : State) : State := { s with rings.flight := [f] }

/-- A marker and an announce. -/
def mk0 : Marker := ⟨0, 0, 0, false, false⟩
def an0 : Announce := ⟨0, 0, 0, 0, 0⟩

/-- The bytes of a RoCEv2 frame: the MAC addresses, type 0x0800, an IPv4 header that names UDP, and UDP to port 4791. -/
def fr0 : List Byte := List.replicate 12 0 ++ [8, 0, 0x45] ++ List.replicate 8 0 ++ [17] ++ List.replicate 12 0 ++ [0x12,
    0xB7] ++ List.replicate 40 0
/-- A message to queue pair 0 on Ethernet port 0. -/
def rm0 : RoceMsg := { port := 0, qpn := 2, psn := 0, frame := fr0 }
def q0 : OutPkt := { uid := 0, pkt := {}, kind := .unicast, src := 0, count := 1, first := 0, have_ := 1 }
def g0 : Staging := { num := 1 }
def w0 : IWord := decodeWord 0
def qc0 : QpCtx := { port := 0, ipv6 := false, mtu := 1024, rd := true, wr := true, send := true, pcp := 0,
                     dscp := 0, retryCnt := 7, rnrRetry := 7, vlan := 0, ackTicks := 100, dstMac := 0, dstIp := 0,
                         dstQpn := 0,
                     sqPsn := 0, rqPsn := 0, rkey := 0, regionBase := 0x200000000000, regionLen := 0x10000,
                     recvBase := 0x200000100000, recvSlots := 4, slotLog2 := 12 }
def rt1 : BitVec 128 := BitVec.ofNat 128 (1 + 5 <<< 64)
/-- A state with links 0 and 5 up and a route of node 9 through link 5. -/
def sR : State := { setLink (setLink State.reset 0 { up := true }) 5 { up := true, peer := 9 } with route.top.route := [(9, rt1)] }
def sealed (p : Packet) : Packet := { p with hdrCrc := hdrCrcOf p }
def p9 : Packet := sealed { opcode := 0x82, dst := 9, vc := 1 }
def q7 : OutPkt := { q0 with pkt := { opcode := 0x82, vc := 7 }, passed := true }
def c0 : Cell := { uid := 0, pkt := {}, idx := 0, count := 1, src := 0, kind := .unicast }
def ip0 : InPkt := { uid := 0, pkt := {}, count := 1, kind := .unicast, enter := 0, tick := 0 }
/-- Issues, as a test that computes. -/
def issuesB (s : State) (t : Thr) (cls op : Nat) (i : IWord) : Bool :=
  mayIssue s (thr s t) && decide (fetchInstr s (kernelAt s (thr s t).kernel) t (thr s t) = (0, some (encodeWord i)))
    && decide (i.cls.toNat = cls) && decide (i.op.toNat = op)
    && (match opRule cls op with
        | some r => wordOk r i && !busyInstr (thr s t) r i
        | none => false)

theorem issues_of {s : State} {t : Thr} {cls op : Nat} {i : IWord} (h : issuesB s t cls op i = true) : Issues s t cls op i := by
  unfold issuesB at h
  simp only [Bool.and_eq_true, decide_eq_true_eq] at h
  obtain ⟨⟨⟨⟨h1, h2⟩, h3⟩, h4⟩, h5⟩ := h
  refine ⟨h1, h2, h3, h4, ?_⟩
  split at h5
  · rename_i r hr
    simp only [Bool.and_eq_true, Bool.not_eq_true'] at h5
    exact ⟨r, hr, h5.1, h5.2⟩
  · cases h5

/-- ServedAtOnce, as a test that computes. -/
def servedB (s : State) (p : Packet) (pl : Place) : Bool :=
  !s.attic.draining && match reqsOf p pl with
    | [r] => match pl with
      | .larder _ => decide (tblGet [] s.larder.waiting r.i = []) && decide (s.larder.fills = []) && mayServe s r
      | .array b => !copyFirst s || !copyWaits s (b / 0x400000)
      | .counter _ => true
    | _ => false

theorem served_of {s : State} {p : Packet} {pl : Place} (h : servedB s p pl = true) : ServedAtOnce s p pl := by
  unfold servedB at h
  simp only [Bool.and_eq_true, Bool.not_eq_true'] at h
  refine ⟨h.1, ?_⟩
  have h2 := h.2
  split at h2
  · rename_i r hr
    refine ⟨r, hr, ?_⟩
    cases pl <;> simp_all [and_assoc]
  · cases h2

/-- What every value of an option keeps, as a test that computes. -/
theorem some_all {α : Type} {o : Option α} {P : α → Prop} [DecidablePred P] (h : o.all (fun x => decide (P x)) = true) :
    ∀ x, o = some x → P x := by
  intro x hx
  subst hx
  simpa using h

theorem pair_some {α β : Type} {x : Option α × β} (d : α) (h : x.1.isSome = true) : x = (some (x.1.getD d), x.2) := by
  obtain ⟨_ | a, b⟩ := x
  · cases h
  · rfl

theorem pair_of {α β : Type} {x : Option α × β} {a : α} (h : x.1 = some a) : x = (some a, x.2) := Prod.ext h rfl

theorem pair_none {α β : Type} {x : Option α × β} (h : x.1.isNone = true) : x = (none, x.2) := by
  obtain ⟨_ | a, b⟩ := x
  · rfl
  · cases h

/-- A coat with a window on one Larder frame and on the arrays, for tenant 0. -/
def coatM : Coat :=
  { num := 0
    window := [(0, BitVec.ofNat 128 (1 + 0xF <<< 8 + 1 <<< 64)),
               (1, BitVec.ofNat 128 (1 + 1 <<< 1 + 0xF <<< 8 + 0x80000 <<< 32 + 64 <<< 64)),
               (2, BitVec.ofNat 128 (1 + 2 <<< 1 + 0xF <<< 8 + 0x2100000 <<< 32 + 64 <<< 64))]
    extent := [(0, BitVec.ofNat 64 (0x123 + 1 <<< 24 + 1 <<< 63))] }

/-- A part whose memories tenant 0 may use: that coat, its key, and kernel 0, On, over every array. -/
def sM : State :=
  { State.reset with
    route.top := coatM, larder.key := [(0, true)], larder.partKey := true, larder.owner := [(0x123, some 0)],
    fns := [(fnKey (.kernel 0), { st := .on })],
    work.kernel := [(0, { loaded := true, arrays := 0xFFFFFFFFFFFFFFFF, codeLen := 64, threadsMax := 4, runLimit := 1000 })] }
def arr : Word := 0x20000000000
/-- A group of two members, on ports 0 and 1, of tenant 0. -/
def eG : BitVec 4608 := BitVec.ofNat 4608 (1 + 2 <<< 24 + (0x11 <<< 7) <<< 256 + (1 + 0x12 <<< 7) <<< 288)
def tmpl (kind : Nat) : Template :=
  { kind := kind, op := 0, inFmt := 0, outFmt := 0, tileLog2 := 12, root := 0, opLimit := 100, length := 4096, members := [] }
def op0 (kind : Nat := 0) : CollOp := { s := 0, tmplIdx := 0, tmpl := tmpl kind, entry := eG, gen := 0, level := 4, bound := 0 }
/-- That group On in a part whose memories tenant 0 may use. -/
def sG (v : Group) : State :=
  setGroup (setFn { sM with route.top := { coatM with group := [(0, eG)] } } (.group 0) { st := .on }) 0 v
def tile0 : TileRec := { tile := 0, handle := 0, grains := 4, spill := 0, fromReserve := true }
def seg0 (deadline : Nat := 0) : Segment :=
  { src := 0x1000, srcLen := 100, tgtLen := 100, srcFmt := 3, tgtFmt := 3, group := 1, slot := 2, quota := 4096, deadline := deadline }
/-- A stream On, of tenant 0, whose segment goes to link 7. -/
def sS (x : Stream) : State :=
  setFn { sM with route.top := { coatM with mcast := [(1, BitVec.ofNat 256 (1 + 1 <<< 135))] }, streams.s := [(0, x)] } (.stream 0) { st := .on }
def run0 : SegRun := { pass := 0, seg := 0, start := 0, coat := 0, shares := [], chunks := 1, last := 0 }

/-- Kernel 0 in a state of its own, in that part. -/
def v0 : Kernel := { loaded := true, arrays := 1, codeLen := 64, threadsMax := 4, runLimit := 1000, launchEn := true }
def sK (v : Kernel) (st : FnSt := .on) : State :=
  { sM with fns := [(fnKey (.kernel 0), { st := st })], work := { sM.work with kernel := [(0, v)] } }
def r0 : Run := { num := 0, gen := 0, by_ := .desc d0, threads := 2, args := [] }
/-- Sequence entry 0, valid, of tenant 0, for kernel 0: two-byte tokens of 64 elements, 2 planes, 4 pages each, all valid. -/
def sQ (v : Kernel) : State :=
  { sK v with larder.mem := memWrite [] (seqBase sM) (leBytes 16 (1 + 1 <<< 40 + 64 <<< 64 + 2 <<< 80 + 4 <<< 96)
      ++ List.replicate 48 0 ++ leBytes 8 1) }

/-- The plainest word of an opcode: every field zero but those that its row asks for. -/
def wOf (cls op : Nat) (d a b : BitVec 5 := 0) (c : BitVec 5 := 0) (x : Nat := 0) : IWord :=
  { cls := BitVec.ofNat 4 cls, op := BitVec.ofNat 5 op, pg := 0, d := d, a := a, b := b, c := c,
    low := BitVec.ofNat 32 (x + match opRule cls op with
      | some { form := .r (f :: _) _ _ _, .. } => f <<< 28
      | some { form := .m (z :: _), .. } => z <<< 29
      | some { form := .bf t f, .. } => t <<< 28 + f <<< 16
      | _ => 0) }
/-- Thread 0 of array 0 in a started run of kernel 0, about to issue that word. -/
def sI (i : IWord) (h : Thread := {}) (r : Run := { num := 0, gen := 0, by_ := .desc d0, threads := 1, args := [], started := true }) :
    State :=
  { sK { v0 with runs := [r] } with
    work := { sM.work with
      kernel := [(0, { v0 with runs := [r] })]
      thr := [(0, { h with active := true })]
      mem := memWrite [] (8 * h.pc) (leBytes 8 (encodeWord i).toNat) } }

/-- A part whose Ethernet port 0 is in service, with queue pair 0, On, as given. -/
def sE (x : Qp := { ctx := some qc0 }) (st : FnSt := .on) : State :=
  { setReg (setReg (setReg State.reset .ethPortCfg 0 0 0 (1 + 1518 <<< 16)) .ethPortCfg 0 0 3 5) .linkVcCfg 80 0 0 (64 + 64 <<< 16) with
    fns := [(fnKey (.qp 0), { st := st })], gw := { port := [(0, { up := true })], qp := [(0, x)] } }
def go0 (op : BitVec 8) : GwOut := { d := d0, op := op, addr := 0, va := 0, len := 100, rkey := 0, psn := 0, n := 1, started := true, sent := 1 }

/-- A part with one instance of each kind configured, and one of them in a state of its own. -/
def sF (x : FnId) (v : Fn) : State :=
  { sM with
    route.top := { coatM with group := [(0, eG)] }
    streams.s := [(0, { tenant := some 0, program := [seg0] })]
    work.kernel := [(0, v0)]
    gw := { port := [(0, { up := true })], qp := [(0, { ctx := some qc0 })] }
    fns := [(fnKey x, v)] }
/-- A part whose link 0 has four lanes as given. -/
def sL (a : Lane) (s : State := State.reset) : State := { s with lanes := [(0, a), (1, a), (2, a), (3, a)] }

/-! ### Worked examples of the spec -/

/-- Table 2-4: module 3's error of +3.750 ns, in 0.0625 ns, and its move of 0.125 ns. -/
theorem test_tick_table_2_4 :
    markError { mk0 with txOffset := 300 } 150 714 96 = 60 ∧ edgeMove 60 = 2 := by decide +kernel

/-- Table 6-8 passes, and the sum of one unit less of tick 3,000,084 fails. -/
theorem test_audit_table_6_8 :
    let m : AuditMsg := ⟨16, [0, 0, 0, 0, 612], [0, 0, 0, 0, 1000000], [0, 0, 0, 0, 998564]⟩
    let s (occ : Nat) := setLink State.reset 0 { up := true, part := [(4, { occ := occ, pend := 36, retd := 999064, got := 1000000 })] }
    auditFails (s 900) 0 m 4 = false ∧ auditFails (s 899) 0 m 4 = true := by decide +kernel

/-- Table 9-7: meter 9 over two ticks, in 1/256 byte. -/
theorem test_meter_table_9_7 :
    let s := setReg (setReg (setReg State.reset .tmMeter 9 0 0 2) .tmMeter 9 0 1 (0x00100000 + 0x00200000 <<< 32))
      .tmMeter 9 0 2 (12288 + 16384 <<< 32)
    let m0 := refillMeter s 9 { tc := 6000 * 256, te := 9000 * 256, mode := 2 }
    let m1 := meterDecide 2 false 4136 m0
    let m2 := meterDecide 2 false 4136 m1.2
    let m3 := meterDecide 2 false 4136 m2.2
    let m4 := meterDecide 2 false 4136 m3.2
    m0.tc = 10096 * 256 ∧ m0.te = 16384 * 256 ∧ m1.1 = .green ∧ m2.1 = .green ∧ m2.2.tc = 1824 * 256 ∧ m2.2.te = 8112 * 256
      ∧ m3.1 = .yellow ∧ m3.2.te = 3976 * 256 ∧ m4.1 = .red ∧ (refillMeter s 9 m4.2).tc = 5920 * 256
      ∧ (refillMeter s 9 m4.2).te = 12168 * 256 := by decide +kernel

/-- Table 10-9: the block's first bytes in Skim-B8, and the fields 0x5C0 and 0xB24 of Skim-B12. -/
theorem test_skim_table_10_9 :
    (encodeSkimB 2 ([0x40B80000, 0x3DCD0000, 0xC0490000, 0x3DC00000, 0x3CF60000] ++ List.replicate 27 0)).take 6
      = [0x81, 0x5C, 0x02, 0xB2, 0x02, 0x00]
    ∧ leAt (encodeSkimB 3 ([0x40B80000, 0x3DCD0000, 0xC0490000, 0x3DC00000, 0x3CF60000] ++ List.replicate 27 0)) 1 8 % 2 ^ 60
      = 0x5C0 + 26 <<< 12 + 0xB24 <<< 24 + 24 <<< 36 + 8 <<< 48 := by decide +kernel

/-- Table 10-11: MXFP4 to FP16. -/
theorem test_expand_table_10_11 :
    (expandOne true fp16 true (mxValue 0x8C 7)).1 = 0x7A00 ∧ (expandOne true fp16 true (mxValue 0x8D 7)).1 = 0x7BFF
      ∧ (expandOne true fp16 false (mxValue 0x8D 7)).1 = 0x7C00 ∧ (expandOne true fp16 true (mxValue 0x74 5)).1 = 0x1600
      ∧ (expandOne true fp16 true (mxValue 0x6D 15)).1 = 0x8000 := by decide +kernel

/-- Table 11-8: the keys of the two requesters in the two ticks. -/
theorem test_tie_table_11_8 :
    let s (t : Nat) := { State.reset with tick.offset := BitVec.ofNat 48 t }
    tieKey (s 9000003) 114 4 = 49 ∧ tieKey (s 9000003) 114 55 = 100 ∧ tieKey (s 9000040) 114 4 = 86
      ∧ tieKey (s 9000040) 114 55 = 23 := by decide +kernel

/-- Table 13-3: the exact FP16 sum of one element, and its result in each mode. -/
theorem test_exact_table_13_3 :
    let w := [0x3C00, 0x3C00, 0xB800].foldl (fun a x => exactAdd a (exactOf 2 x)) (exactOf 2 0x6800)
    w = 0x0000000801800000 ∧ (finishExact 2 .rne false w).1 = 0x6801 ∧ (finishExact 2 .rtz false w).1 = 0x6800
      ∧ (finishExact 2 .rup false w).1 = 0x6801 ∧ (finishExact 2 .rdn false w).1 = 0x6800
      ∧ exactAdd ([0x3C00, 0x3C00].foldl (fun a x => exactAdd a (exactOf 2 x)) (exactOf 2 0x6800)) (exactOf 2 0xFC00)
        = 0x4000000802000000 := by decide +kernel

/-- Table 13-4: the ordered BF16 sum of one element, before and after re-forming. -/
theorem test_ordered_table_13_4 :
    let sum (x : Nat) (ys : List Nat) := ys.foldl (fun a y => combineAcc .ordered 1 .rne a (firstAcc .ordered 1 (leBytes 2 y)))
      (firstAcc .ordered 1 (leBytes 2 x))
    (finishAcc .ordered (specOf 1) (sum 0x3F80 [0x4B80, 0xCB80, 0x3F80])).1 = leBytes 2 0x3F80
      ∧ (finishAcc .ordered (specOf 1) (sum 0x4B80 [0xCB80, 0x3F80, 0x3F80])).1 = leBytes 2 0x4000 := by decide +kernel

/-- Table 16-21: the words of the sum of squares, by their fields. -/
theorem test_words_table_16_21 :
    decodeWord 0x6180100040000000 = ⟨6, 3, 0, 0, 4, 0, 0, 0x40000000⟩
      ∧ decodeWord 0x6180900040000400 = ⟨6, 3, 0, 1, 4, 0, 0, 0x40000400⟩
      ∧ decodeWord 0x4004084020000000 = ⟨4, 0, 0, 8, 2, 2, 0, 0x20000000⟩
      ∧ decodeWord 0x5003200000000000 = ⟨5, 0, 0, 6, 8, 0, 0, 0⟩
      ∧ decodeWord 0x6103140040000000 = ⟨6, 2, 0, 6, 5, 0, 0, 0x40000000⟩
      ∧ decodeWord 0x9380000000000000 = ⟨9, 7, 0, 0, 0, 0, 0, 0⟩ := by decide +kernel

/-- The example's DOT of ones adds 4 to a lane of 4, and its RADD of 256 lanes of 8 is 2,048. -/
theorem test_sum_of_squares :
    dotLane 2 0 .rne false 0x40800000 [0x3C00, 0x3C00, 0x3C00, 0x3C00] [0x3C00, 0x3C00, 0x3C00, 0x3C00] 0 = (0x41000000, 0)
      ∧ (reduceAdd 0 .rne false (List.replicate 256 (some (0x41000000, 0)))).1 = 0x45000000 := by decide +kernel

/-- Table 21-10: the command cap of 1,500 W taken up at a measurement of 2,100 W. -/
theorem test_caps_table_21_10 :
    let s := { State.reset with tick.offset := 50000064, tick.phase := 1, power.cmdNew := [⟨d0, 1500, 0⟩] }
    (match exec (.powerMeasure 2100 0) s with
      | .next t => decide (t.power.k = 30 ∧ t.power.hold = true ∧ t.power.cmdNew = [])
      | _ => false) = true := by decide +kernel

/-! ### Well-formedness: an ill-formed term for each check, and one that keeps them all -/

theorem test_wf_refuses :
    (Instr.tickMarkerReceive 0 { mk0 with txOffset := 8192 } 0).wf = false
      ∧ (Instr.memRdData { payload := List.replicate 4097 0 }).wf = false
      ∧ (Instr.enzenFlitReceive [0]).wf = false
      ∧ (Instr.linkCap 0 ⟨3, true, 4, 15, 7, 3, []⟩).wf = false
      ∧ (Instr.linkFrameReceive 0 ⟨[[0]]⟩).wf = false
          ∧ (Instr.linkFrameReceive 0 ⟨List.replicate 5 (List.replicate 280 0)⟩).wf = false
      ∧ (Instr.audit 0 ⟨0, [], List.replicate 16 0, List.replicate 16 0⟩).wf = false
      ∧ (Instr.resync 0 ⟨0, List.replicate 16 0, []⟩).wf = false
      ∧ (Instr.wr { payLen := 4, payload := [1] }).wf = false
      ∧ (Instr.wr { payLen := 4097, payload := List.replicate 4097 0 }).wf = false
      ∧ (Instr.pfcFrameReceive 0 ⟨1, 1⟩ [0]).wf = false ∧ (Instr.prbsWindowEnd 0 [0]).wf = false
      ∧ (Instr.laneDetectDone 0 []).wf = false ∧ (Instr.alignComplete 0 []).wf = false := by decide +kernel

theorem test_wf_accepts :
    (Instr.wr { payLen := 4, payload := [1, 2, 3, 4] }).wf = true ∧ (Instr.tickMarkerReceive 0 mk0 0).wf = true
      ∧ (Instr.linkFrameReceive 0 ⟨List.replicate 4 (List.replicate 280 0)⟩).wf = true
      ∧ (Instr.audit 0 ⟨0, List.replicate 16 0, List.replicate 16 0, List.replicate 16 0⟩).wf = true := by decide +kernel

/-! ### The block -/

/-- No row of the table has bits, so no word spells a command, and the queue's front command is what a step runs. -/
theorem test_block :
    decodeTableWord 64 0 = none ∧ step { State.reset with pending := [.brakeRelease, .supplyLow] }
      = .next { State.reset with pending := [.supplyLow], power.brake := false } := ⟨rfl, rfl⟩

/-! ### No hypothesis is empty: a witness for each clause of each statement -/

/-- Every clause of TickBoundarySteeringAndLock has a state and operands that meet its hypotheses. -/
theorem test_witness_tickBoundarySteeringAndLock :
  (∃ (s : State), s.tick.len ≤ s.tick.slot)
  ∧ (∃ (s : State), s.tick.slot < s.tick.len)
  ∧ (∃ (s : State) (l : LinkId) (a : Announce) (k : BitVec 48) (x : Marker), upstreamEn s l = true ∧ s.tick.upstream = some l
      ∧ s.tick.isMaster = false ∧ s.tick.errAt ≠ some s.tick.elapsed ∧ (heardOf s l).ann = some (a, k)
      ∧ sentMark s l = some x)
  ∧ (∃ (s : State) (l : LinkId), (upstreamEn s l = false ∨ s.tick.upstream ≠ some l ∨ s.tick.isMaster = true ∨ s.tick.errAt = some s.tick.elapsed))
  ∧ (∃ (s : State) (l : LinkId) (x : Marker), tblWf {} s.tick.heard = true ∧ sentMark s l = some x)
  ∧ (∃ (s : State) (l : LinkId) (k : LinkId), tblWf {} s.tick.heard = true ∧ k ≠ l)
  ∧ (∃ (s : State), s.tick.slot = 0 ∧ s.tick.isMaster = false ∧ s.tick.upstream.isSome = true ∧ s.tick.locked = false
      ∧ 64 ≤ s.tick.within ∧ hits s 64 29 = true)
  ∧ (∃ (s : State), tickSpan s = 1)
  ∧ (∃ (s : State), (s.tick.within < 64 ∨ hits s 64 29 = false ∨ s.tick.slot ≠ 0))
  ∧ (∃ (s : State), s.tick.locked = true ∧ s.tick.isMaster = false ∧ 8 ≤ s.tick.beyond)
  ∧ (∃ (s : State), s.tick.beyond < 8) :=
  ⟨⟨{ State.reset with tick.slot := 1024 }, by decide +kernel⟩,
  ⟨State.reset, by decide +kernel⟩,
  ⟨{ (setReg State.reset .portEdge 0 0 0 2) with tick := { (State.reset.tick) with upstream := some 0, errAt := none, heard := [(0, { ann := some (an0, 0) })], txMark := [(0, some (mk0, 0))] } }, 0, an0, 0, mk0, by decide +kernel⟩,
  ⟨State.reset, 0, by decide +kernel⟩,
  ⟨{ State.reset with tick.txMark := [(0, some (mk0, 0))] }, 0, mk0, by decide +kernel⟩,
  ⟨State.reset, 0, 95, by decide +kernel⟩,
  ⟨{ State.reset with tick := { upstream := some 0, within := 64, elapsed := 29 } }, by decide +kernel⟩,
  ⟨State.reset, by decide +kernel⟩,
  ⟨State.reset, by decide +kernel⟩,
  ⟨{ State.reset with tick.locked := true, tick.beyond := 8 }, by decide +kernel⟩,
  ⟨State.reset, by decide +kernel⟩⟩

/-- Every clause of TickMastershipStepsAndPads has a state and operands that meet its hypotheses. -/
theorem test_witness_tickMastershipStepsAndPads :
  (∃ (s : State) (l : LinkId), upstreamEn s l = true ∧ s.tick.settled = false)
  ∧ (∃ (s : State) (l : LinkId), upstreamEn s l = false)
  ∧ (∃ (s : State) (m : Master), s.tick.master = some m ∧ s.tick.isMaster = false ∧ 256 ≤ ageOf s s.tick.lastAnn
      ∧ s.tick.settled = false)
  ∧ (∃ (s : State), (s.tick.master = none ∨ s.tick.isMaster = true ∨ ageOf s s.tick.lastAnn < 256))
  ∧ (∃ (s : State) (k : BitVec 48), s.attic.runAt = some k ∧ s.tick.settled = false ∧ 256 ≤ ageOf s k ∧ tickPriority s ≠ 0
      ∧ s.tick.heard = [] ∧ s.tick.isMaster = false ∧ s.tick.master = none)
  ∧ (∃ (s : State) (b : Master) (l : LinkId) (h : Nat), s.tick.settled = true ∧ bestOther s = some b
      ∧ (∀ me, selfCandidate s = some me → better b me = true) ∧ freshFor s b = some (l, h))
  ∧ (∃ (s : State) (b : Master) (l : LinkId) (h : Nat), s.tick.settled = true ∧ bestOther s = some b
      ∧ (∀ me, selfCandidate s = some me → better b me = true) ∧ freshFor s b = none ∧ upstreamFor s b = some (l, h))
  ∧ (∃ (s : State) (me : Master), s.tick.settled = true ∧ selfCandidate s = some me ∧ s.tick.isMaster = false
      ∧ (∀ b, bestOther s = some b → better b me = false))
  ∧ (∃ (s : State), s.tick.settled = true ∧ selfCandidate s = none ∧ bestOther s = none)
  ∧ (∃ (s : State) (l : LinkId) (a : Announce) (m : Marker) (k : BitVec 48) (k' : BitVec 48) (rx : Nat),
      s.tick.upstream = some l ∧ (heardOf s l).ann = some (a, k) ∧ (heardOf s l).mark = some (m, rx, k')
      ∧ s.tick.locked = false ∧ s.tick.isMaster = false ∧ s.tick.step = none ∧ s.tick.errOk = true
      ∧ (1024 < s.tick.error.natAbs ∨ markerTick a m + (s.tick.elapsed - k') ≠ nowTick s))
  ∧ (∃ (e : Int), (e / 16) % 1024 ≠ 0)
  ∧ (∃ (s : State), (s.tick.upstream = none ∨ s.tick.locked = true ∨ s.tick.isMaster = true ∨ s.tick.step.isSome = true))
  ∧ (∃ (s : State), s.tick.holdover = true ∧ s.tick.lost = false ∧ 16384 ≤ ageOf s s.tick.holdSince)
  ∧ (∃ (s : State), (s.tick.holdover = false ∨ s.tick.lost = true ∨ ageOf s s.tick.holdSince < 16384))
  ∧ (∃ (s : State), s.tick.isMaster = true ∧ tickSource s = true)
  ∧ (∃ (e : Int), 0 < e)
  ∧ (∃ (e : Int), e < 0)
  ∧ (∃ (e : Int), -2 ≤ e ∧ e ≤ 2)
  ∧ (∃ (s : State), (s.tick.isMaster = false ∨ tickSource s = false)) :=
  ⟨⟨setReg State.reset .portEdge 0 0 0 2, 0, by decide +kernel⟩,
  ⟨State.reset, 0, by decide +kernel⟩,
  ⟨{ State.reset with tick.master := some (⟨5, 3⟩ : Master), tick.elapsed := 0x100000 }, ⟨5, 3⟩, by decide +kernel⟩,
  ⟨State.reset, by decide +kernel⟩,
  ⟨{ setReg State.reset .atticTick 0 0 0 1 with tick := { elapsed := 256 }, attic.runAt := some 0 }, 0, by decide +kernel⟩,
  ⟨{ (setReg State.reset .portEdge 0 0 0 2) with tick := { (State.reset.tick) with settled := true, heard := [(0, { ann := some ({ an0 with masterNode := 5, masterPriority := 3 }, 0), mark := some (mk0, 100, 0) })] } }, ⟨5, 3⟩, 0, 1, by decide +kernel, by decide +kernel, some_all (by decide +kernel), by decide +kernel⟩,
  ⟨{ (setReg State.reset .portEdge 0 0 0 2) with tick := { (State.reset.tick) with settled := true, heard := [(0, { ann := some ({ an0 with masterNode := 5, masterPriority := 3 }, 0) })] } }, ⟨5, 3⟩, 0, 1, by decide +kernel, by decide +kernel, some_all (by decide +kernel), by decide +kernel⟩,
  ⟨{ (setReg State.reset .atticTick 0 0 0 1) with tick.settled := true }, ⟨0, 1⟩, by decide +kernel, by decide +kernel,
      by decide +kernel, some_all (by decide +kernel)⟩,
  ⟨{ State.reset with tick.settled := true }, by decide +kernel⟩,
  ⟨{ (setReg State.reset .portEdge 0 0 0 2) with tick := { (State.reset.tick) with upstream := some 0, errOk := true, error := 1025, heard := [(0, { ann := some (an0, 0), mark := some (mk0, 100, 0) })] } }, 0, an0, mk0, 0, 0, 100, by decide +kernel⟩,
  ⟨16, by decide +kernel⟩,
  ⟨State.reset, by decide +kernel⟩,
  ⟨{ State.reset with tick.holdover := true, tick.elapsed := 0x100000 }, by decide +kernel⟩,
  ⟨State.reset, by decide +kernel⟩,
  ⟨{ setReg State.reset .atticTick 0 0 0 16 with tick.isMaster := true }, by decide +kernel⟩,
  ⟨1, by decide +kernel⟩,
  ⟨-1, by decide +kernel⟩,
  ⟨0, by decide +kernel⟩,
  ⟨State.reset, by decide +kernel⟩⟩

/-- Every clause of EnzenBringUpAndReplay has a state and operands that meet its hypotheses. -/
theorem test_witness_enzenBringUpAndReplay :
  (∃ (s : State), s.enz.st = .detect)
  ∧ (∃ (s : State), s.enz.st ≠ .detect)
  ∧ (∃ (s : State), s.enz.st = .trainE1 ∧ s.enz.toActive = false)
  ∧ (∃ (s : State), s.enz.st = .trainE1 ∧ s.enz.toActive = true)
  ∧ (∃ (s : State), (s.enz.st = .detect ∨ s.enz.st = .negotiate ∨ s.enz.st = .active))
  ∧ (∃ (s : State), s.enz.st = .trainE1 ∧ s.enz.since + 200000000 ≤ s.tick.ns)
  ∧ (∃ (s : State), s.enz.st = .negotiate ∧ s.enz.since + 20000000 ≤ s.tick.ns)
  ∧ (∃ (s : State), s.enz.st = .trainE2 ∧ s.enz.since + 200000000 ≤ s.tick.ns)
  ∧ (∃ (s : State), s.enz.st = .retrain ∧ s.enz.since + 50000000 ≤ s.tick.ns)
  ∧ (∃ (s : State), (s.enz.st = .detect ∨ s.enz.st = .active ∨ s.tick.ns < s.enz.since + (if s.enz.st = .negotiate then 20000000 else if s.enz.st = .retrain then 50000000 else 200000000)))
  ∧ (∃ (s : State), s.enz.st ≠ .active)
  ∧ (∃ (s : State), s.enz.st = .active ∧ (16 ≤ (s.enz.naks.filter (fun k => ageOf s k < 1024)).length))
  ∧ (∃ (s : State), (s.enz.st ≠ .active ∨ (s.enz.naks.filter (fun k => ageOf s k < 1024)).length < 16))
  ∧ (∃ (s : State), s.enz.st = .negotiate ∧ s.enz.capAck = true)
  ∧ (∃ (s : State), s.enz.st ≠ .negotiate)
  ∧ (∃ (s : State) (c : HostCap), s.enz.st = .negotiate ∧ s.enz.cap = some c ∧ c.maxLevel = 2)
  ∧ (∃ (s : State) (c : HostCap), s.enz.st = .negotiate ∧ s.enz.cap = some c ∧ c.maxLevel ≠ 2)
  ∧ (∃ (s : State), s.enz.st = .negotiate ∧ s.enz.cap = none)
  ∧ (∃ (s : State) (ty : BitVec 8), (∀ f ∈ s.enz.inbox, f.ftype ≠ ty))
  ∧ (∃ (s : State) (ty : BitVec 8) (a : List HostFrame) (b : List HostFrame) (f : HostFrame), s.enz.inbox = a ++ f :: b
      ∧ f.ftype = ty ∧ (∀ g ∈ a, g.ftype ≠ ty))
  ∧ (∃ (s : State), s.enz.st = .negotiate ∧ s.enz.capAck = false ∧ s.enz.capAt + 100000 ≤ s.tick.ns)
  ∧ (∃ (s : State), (s.enz.st ≠ .negotiate ∨ s.enz.capAck = true ∨ s.tick.ns < s.enz.capAt + 100000))
  ∧ (∃ (s : State) (lv : BitVec 2), s.enz.st = .active ∧ lv ≠ 0)
  ∧ (∃ (s : State) (lv : BitVec 2), (s.enz.st ≠ .active ∨ lv = 0))
  ∧ (∃ (s : State), (s.enz.st = .negotiate ∨ s.enz.st = .active) ∧ s.enz.sent ≠ [] ∧ s.enz.ackAt + 2000 ≤ s.tick.ns)
  ∧ (∃ (s : State), ((s.enz.st ≠ .negotiate ∧ s.enz.st ≠ .active) ∨ s.enz.sent = [] ∨ s.tick.ns < s.enz.ackAt + 2000)) :=
  ⟨⟨{ State.reset with enz.st := .detect }, by decide +kernel⟩,
  ⟨{ State.reset with enz := { st := .active } }, by decide +kernel⟩,
  ⟨{ State.reset with enz.st := .trainE1 }, by decide +kernel⟩,
  ⟨{ State.reset with enz.st := .trainE1, enz.toActive := true }, by decide +kernel⟩,
  ⟨{ State.reset with enz.st := .detect }, by decide +kernel⟩,
  ⟨{ State.reset with enz.st := .trainE1, tick.ns := 200000000 }, by decide +kernel⟩,
  ⟨{ State.reset with enz.st := .negotiate, tick.ns := 20000000 }, by decide +kernel⟩,
  ⟨{ State.reset with enz.st := .trainE2, tick.ns := 200000000 }, by decide +kernel⟩,
  ⟨{ State.reset with enz.st := .retrain, tick.ns := 50000000 }, by decide +kernel⟩,
  ⟨{ State.reset with enz.st := .detect }, by decide +kernel⟩,
  ⟨State.reset, by decide +kernel⟩,
  ⟨{ State.reset with enz := { st := .active, naks := List.replicate 16 0 } }, by decide +kernel⟩,
  ⟨State.reset, by decide +kernel⟩,
  ⟨{ State.reset with enz.st := .negotiate, enz.capAck := true }, by decide +kernel⟩,
  ⟨State.reset, by decide +kernel⟩,
  ⟨{ State.reset with enz := { st := .negotiate, cap := some ⟨2, 1, 64, 0⟩ } }, ⟨2, 1, 64, 0⟩, by decide +kernel⟩,
  ⟨{ State.reset with enz.st := .negotiate, enz.cap := some ⟨1, 1, 64, 0⟩ }, ⟨1, 1, 64, 0⟩, by decide +kernel⟩,
  ⟨{ State.reset with enz.st := .negotiate }, by decide +kernel⟩,
  ⟨State.reset, 0, by decide +kernel⟩,
  ⟨{ (sK v0 .off) with enz.inbox := ([]) ++ ({ ftype := (0 : BitVec 8) } : HostFrame) :: ([]) }, 0, [], [],
      { ftype := (0 : BitVec 8) }, by decide +kernel⟩,
  ⟨{ State.reset with enz.st := .negotiate, tick.ns := 100000 }, by decide +kernel⟩,
  ⟨State.reset, by decide +kernel⟩,
  ⟨{ State.reset with enz := { st := .active } }, 1, by decide +kernel⟩,
  ⟨State.reset, 0, by decide +kernel⟩,
  ⟨{ State.reset with enz.st := .negotiate, enz.sent := [⟨{}, 0, 1, 0, false⟩], tick.ns := 2000 }, by decide +kernel⟩,
  ⟨State.reset, by decide +kernel⟩⟩

/-- Every clause of CompletionEntryWritten has a state and operands that meet its hypotheses. -/
theorem test_witness_completionEntryWritten :
  (∃ (s : State) (d : DRef) (f : InFlight) (st : BitVec 8), flightOf s d = some f ∧ s.enz.hostReset = false
      ∧ (dNoCompl f.desc && st = stOk) = false ∧ s.enz.st = .active ∧ s.enz.held = [] ∧ flitsHeld s + 3 ≤ 512)
  ∧ (∃ (s : State) (d : DRef) (f : InFlight), flightOf s d = some f ∧ dNoCompl f.desc = true)
  ∧ (∃ (s : State) (d : DRef) (f : InFlight) (st : BitVec 8), flightOf s d = some f ∧ s.enz.hostReset = true
      ∧ (dNoCompl f.desc && st = stOk) = false)
  ∧ (∃ (s : State) (d : DRef), flightOf s d = none) :=
  ⟨⟨inFlight (fl 0) ({ State.reset with enz.st := .active }), d0, fl 0, 0, by decide +kernel⟩,
  ⟨inFlight (fl 0x100) State.reset, d0, fl 0x100, by decide +kernel⟩,
  ⟨inFlight (fl 0) ({ State.reset with enz.hostReset := true }), d0, fl 0, 0, by decide +kernel⟩,
  ⟨State.reset, d0, by decide +kernel⟩⟩

/-- Every clause of RingRowsAndAudit has a state and operands that meet its hypotheses. -/
theorem test_witness_ringRowsAndAudit :
  (∃ (s : State) (d : DRef) (f : InFlight), flightOf s d = some f ∧ mayStart s f = true ∧ dOpcode f.desc = 0x00)
  ∧ (∃ (s : State) (d : DRef) (f : InFlight), flightOf s d = some f ∧ f.stage = .fetched ∧ dKnown (dOpcode f.desc) = false)
  ∧ (∃ (s : State) (d : DRef) (f : InFlight), flightOf s d = some f ∧ dFence f.desc = true
      ∧ (∀ g ∈ s.rings.flight, earlier g.ref d = false) ∧ earlierFetch s d = false)
  ∧ (∃ (s : State) (d : DRef) (g : InFlight), ((g ∈ s.rings.flight ∧ earlier g.ref d = true) ∨ earlierFetch s d = true))
  ∧ (∃ (s : State) (d : DRef) (f : InFlight), flightOf (closeBoundary s) d = some f ∧ dTimed f.desc = true
      ∧ later (dApply f.desc) (nowTick (closeBoundary s)) = false)
  ∧ (∃ (s : State) (d : DRef), (∀ f, flightOf (closeBoundary s) d = some f → dTimed f.desc = false ∨ later (dApply f.desc) (nowTick (closeBoundary s)) = true))
  ∧ (∃ (s : State), s.tick.slot ≠ 0)
  ∧ (∃ (s : State) (d : DRef) (f : InFlight) (i : Fin 64), flightOf s d = some f ∧ mayStart s f = true
      ∧ dOpcode f.desc = 0x01 ∧ ringTarget f = some (.cq i) ∧ i ≠ 0 ∧ fnSt s (.cq i) = .off ∧ dGen f.desc = fnGen s (.cq i)
      ∧ ringCfgOk f.desc true = true)
  ∧ (∃ (s : State) (d : DRef) (f : InFlight) (i : Fin 64), flightOf s d = some f ∧ mayStart s f = true
      ∧ dOpcode f.desc = 0x01 ∧ ringTarget f = some (.sq i) ∧ i ≠ 0 ∧ fnSt s (.sq i) = .off ∧ dGen f.desc = fnGen s (.sq i)
      ∧ ringCfgOk f.desc false = true ∧ (bit f.desc 280 = true → d.sq = 0))
  ∧ (∃ (s : State) (d : DRef) (f : InFlight) (e : FnId), flightOf s d = some f ∧ mayStart s f = true ∧ dOpcode f.desc = 0x01
      ∧ ringTarget f = some e ∧ dGen f.desc ≠ fnGen s e)
  ∧ (∃ (x : BitVec 512), fld x 264 8 < 64)
  ∧ (∃ (s : State) (q : Fin 64), (cqRing s q).irqEn = true ∧ (cqRing s q).armed = true ∧ 0 < (cqRing s q).unint
      ∧ (cqRing s q).modTicks.toNat ≤ ageOf s (cqRing s q).oldest)
  ∧ (∃ (s : State) (q : Fin 64), ((cqRing s q).irqEn = false ∨ (cqRing s q).armed = false ∨ (cqRing s q).unint = 0 ∨ ageOf s (cqRing s q).oldest < (cqRing s q).modTicks.toNat))
  ∧ (∃ (s : State), s.tick.slot = 0 ∧ s.tick.todo = [] ∧ (∃ p ∈ s.rings.page, reached s p.2 = true) ∧ fetchPaused s = false)
  ∧ (∃ (s : State), s.tick.todo = [] ∧ (s.tick.slot ≠ 0 ∨ ∀ p ∈ s.rings.page, reached s p.2 = false))
  ∧ (∃ (s : State), s.tick.slot = 0 ∧ s.tick.elapsed.toNat % 4096 = 0)
  ∧ (∃ (s : State), (∀ i : Fin 64, ringDiff s i = 0))
  ∧ (∃ (s : State), (s.tick.slot ≠ 0 ∨ s.tick.elapsed.toNat % 4096 ≠ 0))
  ∧ (∃ (s : State) (i : Fin 64), ringDiff s i ≠ 0 ∧ orphans s i = [] ∧ sqLoad s i < 2 ^ 32 ∧ tblWf {} s.rings.sq = true) :=
  ⟨⟨inFlight (fl 0) (State.reset), d0, fl 0, by decide +kernel⟩,
  ⟨inFlight (fl 0xFF 0 (0)) (State.reset), d0, fl 0xFF, by decide +kernel⟩,
  ⟨inFlight (fl 0x200 0 (0)) (State.reset), d0, fl 0x200, by decide +kernel⟩,
  ⟨{ State.reset with rings.flight := [fl 0, { fl 0x200 with ref := ⟨0, 1⟩ }] }, ⟨0, 1⟩, fl 0, by decide +kernel⟩,
  ⟨inFlight (fl 0x400 0 (0)) (State.reset), d0, fl 0x400, by decide +kernel⟩,
  ⟨State.reset, d0, some_all (by decide +kernel)⟩,
  ⟨{ State.reset with tick.slot := 1 }, by decide +kernel⟩,
  ⟨inFlight (fl 0x01 0x101 (6 <<< 256 + 1 <<< 304)) (State.reset), d0, fl 0x01 0x101 (6 <<< 256 + 1 <<< 304), 1,
      by decide +kernel⟩,
  ⟨inFlight (fl 0x01 1 (6 <<< 256)) State.reset, d0, fl 0x01 1 (6 <<< 256), 1, by decide +kernel⟩,
  ⟨inFlight (fl 0x01 1 (1 <<< 16)) State.reset, d0, fl 0x01 1 (1 <<< 16), .sq 1, by decide +kernel⟩,
  ⟨0, by decide +kernel⟩,
  ⟨setCq State.reset 1 { irqEn := true, unint := 1 }, 1, by decide +kernel⟩,
  ⟨State.reset, 0, by decide +kernel⟩,
  ⟨{ State.reset with rings.page := [([], 0)] }, by decide +kernel⟩,
  ⟨{ State.reset with tick.slot := 1 }, by decide +kernel, .inl (by decide +kernel)⟩,
  ⟨State.reset, by decide +kernel⟩,
  ⟨State.reset, by decide +kernel⟩,
  ⟨{ State.reset with tick.slot := 1 }, by decide +kernel⟩,
  ⟨inFlight (fl 0 0 (0)) (State.reset), 0, by decide +kernel⟩⟩

/-- Every clause of DoorbellIndicesAndFetchLimits has a state and operands that meet its hypotheses. -/
theorem test_witness_doorbellIndicesAndFetchLimits :
  (∃ (s : State) (page : List Byte) (i : Fin 64), fnSt s (.sq i) = .on
      ∧ idxOk (BitVec.ofNat 32 (leAt page (4 * i.val) 4)) (tblGet {} s.rings.sq i.val).cons (sqRing s i) = true)
  ∧ (∃ (s : State) (page : List Byte) (j : Fin 64),
      idxOk (tblGet {} s.rings.cq j.val).prod (BitVec.ofNat 32 (leAt page (0x100 + 4 * j.val) 4)) (cqRing s j) = false)
  ∧ (∃ (s : State) (i : Fin 64), fnSt s (.sq i) ≠ .on)
  ∧ (∃ (s : State) (i : Fin 64) (left : Nat), 0 < fetchable s i left) :=
  ⟨⟨setFn (State.reset) (.sq (0 : Fin 64)) { st := .on }, [], 0, by decide +kernel⟩,
  ⟨State.reset, List.replicate 256 0 ++ [1], 0, by decide +kernel⟩,
  ⟨State.reset, 0, by decide +kernel⟩,
  ⟨setSq (setFn State.reset (.sq 0) { st := .on }) 0 { prod := 1, depthLog2 := 6 }, 0, 1, by decide +kernel⟩⟩

/-- Every clause of LinkFramesReplayFallback has a state and operands that meet its hypotheses. -/
theorem test_witness_linkFramesReplayFallback :
  (∃ (s : State) (l : LinkId) (f : LinkFrame) (bytes : List Byte) (body : List Byte) (u : State),
      ((link s l).up = true ∨ (link s l).nego = true) ∧ (link s l).retrain = false ∧ lanesRx l f s = (some bytes, u)
      ∧ plainBody (link u l) bytes = some body)
  ∧ (∃ (s : State) (l : LinkId) (f : LinkFrame) (u : State), ((link s l).up = true ∨ (link s l).nego = true)
      ∧ (link s l).retrain = false ∧ lanesRx l f s = (none, u))
  ∧ (∃ (s : State) (l : LinkId), (((link s l).up = false ∧ (link s l).nego = false) ∨ (link s l).retrain = true))
  ∧ (∃ (s : State), tblWf {} s.links = true)
  ∧ (∃ (l : LinkId) (n : LaneId), linkOfLane n ≠ l)
  ∧ (∃ (f : TxFrame), f.ret.length = 16)
  ∧ (∃ (s : State) (l : LinkId) (h : FrameHead), (link s l).up = true ∧ (link s l).nego = false ∧ h.nak = false
      ∧ (h.kind = .data ∨ h.kind = .control) ∧ h.ack = (link s l).acked ∧ h.seq = (link s l).rxExp
      ∧ ((link s l).keyed = true → ((link s l).rxCount + 1) % 2 ^ 36 ≠ 0))
  ∧ (∃ (t : Tbl Part), tblWf {} t = true)
  ∧ (∃ (s : State) (l : LinkId) (h : FrameHead), (link s l).up = true ∧ (link s l).nego = false ∧ h.nak = false
      ∧ h.kind ≠ .ackOnly ∧ h.ack = (link s l).acked ∧ (h.seq ≠ (link s l).rxExp ∨ h.kind = .reserved))
  ∧ (∃ (s : State) (l : LinkId), (link s l).nakAt = none)
  ∧ (∃ (s : State) (l : LinkId) (h : FrameHead) (n : Nat), (link s l).up = true ∧ (link s l).nego = false ∧ h.nak = false
      ∧ h.kind = .ackOnly ∧ 0 < n ∧ n ≤ (link s l).replay.length ∧ n < 4096 ∧ h.ack = (link s l).acked + BitVec.ofNat 12 n)
  ∧ (∃ (s : State) (l : LinkId) (h : FrameHead), (link s l).up = true ∧ (link s l).nego = false ∧ h.nak = true
      ∧ h.kind = .ackOnly ∧ h.ack = (link s l).acked ∧ (link s l).replayFrom ≠ some (link s l).acked)
  ∧ (∃ (s : State) (l : LinkId) (k : Nat), (link s l).nakAt = some k ∧ k + 1024 ≤ s.tick.ns)
  ∧ (∃ (s : State) (l : LinkId), ((link s l).nakAt = none ∨ ∃ k, (link s l).nakAt = some k ∧ s.tick.ns < k + 1024))
  ∧ (∃ (s : State) (l : LinkId), ((link s l).up = true ∨ (link s l).nego = true) ∧ (link s l).retrain = false
      ∧ (link s l).replay ≠ [] ∧ (link s l).ackAt + 512 ≤ s.tick.ns)
  ∧ (∃ (s : State) (l : LinkId), (s.tick.ns < (link s l).ackAt + 512 ∨ (link s l).replay = [] ∨ (link s l).retrain = true))
  ∧ (∃ (s : State) (l : LinkId), ((link s l).up = true ∨ (link s l).nego = true) ∧ (link s l).retrain = false
      ∧ (link s l).replay ≠ [] ∧ fld (reg s .linkLlCtrl l.val) 8 4 ≤ (link s l).replays)
  ∧ (∃ (s : State) (l : LinkId), ((link s l).replays < fld (reg s .linkLlCtrl l.val) 8 4 ∨ (link s l).retrain = true ∨ (link s l).replay = []))
  ∧ (∃ (s : State) (l : LinkId), (4 ≤ ((link s l).retrains.filter (fun k => ageOf s k < 65536)).length)
      ∧ fallback s l = false ∧ (link s l).up = true ∧ (link s l).failAt = none)
  ∧ (∃ (s : State) (l : LinkId), (((link s l).retrains.filter (fun k => ageOf s k < 65536)).length < 4 ∨ fallback s l = true)) :=
  ⟨⟨setLink (sL { st := .service }) 0 { up := true }, 0, ⟨List.replicate 4 (List.replicate 280 0)⟩,
      (lanesRx 0 ⟨List.replicate 4 (List.replicate 280 0)⟩ (setLink (sL { st := .service }) 0 { up := true })).1.getD [],
      ((lanesRx 0 ⟨List.replicate 4 (List.replicate 280 0)⟩ (setLink (sL { st := .service }) 0 { up := true })).1.getD []).drop 16, (lanesRx 0 ⟨List.replicate 4 (List.replicate 280 0)⟩ (setLink (sL { st := .service }) 0 { up := true })).2, by decide +kernel, by decide +kernel, pair_some [] (by decide +kernel), by decide +kernel⟩,
  ⟨setLink State.reset 0 { up := true }, 0, ⟨[]⟩, (lanesRx 0 ⟨[]⟩ (setLink State.reset 0 { up := true })).2,
      by decide +kernel, by decide +kernel, pair_none (by decide +kernel)⟩,
  ⟨State.reset, 0, by decide +kernel⟩,
  ⟨State.reset, by decide +kernel⟩,
  ⟨0, 384 - 1, by decide +kernel⟩,
  ⟨{ ret := List.replicate 16 0 }, by decide +kernel⟩,
  ⟨setLink State.reset 0 { up := true }, 0, ⟨0, 4095, false, .data, 0xFF, List.replicate 16 0⟩, by decide +kernel⟩,
  ⟨[], by decide +kernel⟩,
  ⟨setLink State.reset 0 { up := true, rxExp := 7 }, 0, ⟨0, 4095, false, .data, 0xFF, List.replicate 16 0⟩,
      by decide +kernel⟩,
  ⟨State.reset, 0, by decide +kernel⟩,
  ⟨setLink State.reset 0 { up := true, replay := [{ seq := 0 }] }, 0, ⟨0, 0, false, .ackOnly, 0xFF, List.replicate 16 0⟩, 1,
      by decide +kernel⟩,
  ⟨setLink State.reset 0 { up := true }, 0, ⟨0, 4095, true, .ackOnly, 0xFF, List.replicate 16 0⟩, by decide +kernel⟩,
  ⟨{ (modLink (0 : LinkId) (fun x => { x with nakAt := some (0 : Nat) }) (State.reset)) with tick.ns := 1024 }, 0, 0,
      by decide +kernel⟩,
  ⟨State.reset, 0, .inl (by decide +kernel)⟩,
  ⟨{ (modLink (0 : LinkId) (fun x => { x with up := true, retrain := false }) (setLink State.reset 0 { up := true, replay := [{ seq := 0 }] })) with tick.ns := 512 }, 0, by decide +kernel⟩,
  ⟨State.reset, 0, by decide +kernel⟩,
  ⟨setLink State.reset 0 { up := true, replay := [{ seq := 0 }], replays := 15 }, 0, by decide +kernel⟩,
  ⟨State.reset, 0, by decide +kernel⟩,
  ⟨setLink State.reset 0 { up := true, retrains := [0, 0, 0, 0] }, 0, by decide +kernel⟩,
  ⟨State.reset, 0, by decide +kernel⟩⟩

/-- Every clause of LinkNegotiation has a state and operands that meet its hypotheses. -/
theorem test_witness_linkNegotiation :
  (∃ (s : State) (l : LinkId) (q : BitVec 12), (link s l).capSeq = some q)
  ∧ (∃ (s : State) (l : LinkId) (c : LinkCap), (link s l).up = false ∧ (link s l).nego = true ∧ (link s l).capSeq = none
      ∧ (link s l).failed = false ∧ (link s l).noticed = false
      ∧ (bit (reg s .linkSec l.val) 0 = true → c.vexlor = true ∧ s.strong.linkKey = true)
      ∧ max s.attic.level.toNat c.level.toNat ≤ min s.attic.level.toNat c.level.toNat + 1
      ∧ minLanes s l ≤ laneCount ((ownCap s l).laneMask &&& c.laneMask))
  ∧ (∃ (s : State) (l : LinkId) (c : LinkCap), (link s l).up = false ∧ (link s l).nego = true ∧ (link s l).capSeq = none
      ∧ min s.attic.level.toNat c.level.toNat + 1 < max s.attic.level.toNat c.level.toNat)
  ∧ (∃ (s : State) (l : LinkId) (c : LinkCap), (link s l).up = false ∧ (link s l).nego = true ∧ (link s l).capSeq = none
      ∧ max s.attic.level.toNat c.level.toNat ≤ min s.attic.level.toNat c.level.toNat + 1
      ∧ bit (reg s .linkSec l.val) 0 = true ∧ (c.vexlor = false ∨ s.strong.linkKey = false))
  ∧ (∃ (s : State) (l : LinkId) (c : LinkCap), (link s l).up = false ∧ (link s l).nego = true ∧ (link s l).capSeq = none
      ∧ max s.attic.level.toNat c.level.toNat ≤ min s.attic.level.toNat c.level.toNat + 1
      ∧ bit (reg s .linkSec l.val) 0 = false ∧ laneCount ((ownCap s l).laneMask &&& c.laneMask) < minLanes s l)
  ∧ (∃ (s : State) (l : LinkId), (link s l).up = true ∧ (link s l).failAt = none)
  ∧ (∃ (s : State) (l : LinkId), (link s l).up = false ∧ (link s l).nego = false)
  ∧ (∃ (s : State) (l : LinkId), (link s l).nego = true ∧ (link s l).cap = none ∧ (link s l).negoAt + 1000000 ≤ s.tick.ns)
  ∧ (∃ (s : State) (l : LinkId), (s.tick.ns < (link s l).negoAt + 1000000 ∨ (link s l).nego = false ∨ (link s l).cap.isSome = true)) :=
  ⟨⟨setLink (State.reset) (0 : LinkId) { capSeq := some (0 : BitVec 12) }, 0, 0, by decide +kernel⟩,
  ⟨setLane (setLink State.reset 0 { nego := true }) 0 { st := .service }, 0, ⟨3, true, 4, 15, 7, 3, List.replicate 16 100⟩,
      by decide +kernel⟩,
  ⟨setLink State.reset 0 { nego := true }, 0, ⟨3, true, 9, 15, 7, 3, List.replicate 16 100⟩, by decide +kernel⟩,
  ⟨setReg (setLink State.reset 0 { nego := true }) .linkSec 0 0 0 1, 0, ⟨3, false, 4, 15, 7, 3, List.replicate 16 100⟩,
      by decide +kernel⟩,
  ⟨setLink (State.reset) (0 : LinkId) { nego := true }, 0, ⟨3, true, 4, 15, 7, 3, List.replicate 16 100⟩, by decide +kernel⟩,
  ⟨setLink (State.reset) (0 : LinkId) { up := true }, 0, by decide +kernel⟩,
  ⟨State.reset, 0, by decide +kernel⟩,
  ⟨{ (setLink (State.reset) (0 : LinkId) { nego := true }) with tick.ns := 1000000 }, 0, by decide +kernel⟩,
  ⟨State.reset, 0, by decide +kernel⟩⟩

/-- Every clause of CreditAudit has a state and operands that meet its hypotheses. -/
theorem test_witness_creditAudit :
  (∃ (s : State) (l : LinkId), s.tick.slot = 0 ∧ s.tick.phase ≤ 6 ∧ (link s l).up = true ∧ hits s 64 (l.val / 4) = true)
  ∧ (∃ (s : State) (n : Nat), n < 64 ∧ tickSpan s = 1)
  ∧ (∃ (s : State) (l : LinkId), (hits s 64 (l.val / 4) = false ∨ (link s l).up = false ∨ s.tick.slot ≠ 0 ∨ 6 < s.tick.phase))
  ∧ (∃ (s : State) (l : LinkId) (m : AuditMsg), (link s l).up = true
      ∧ (∀ q : Fin 16, bit m.mask q.val = true → ((m.held.getD q.val 0).toNat : Int) + (part s l q).occ + (part s l q).pend + ((part s l q).retd - m.rcvd.getD q.val 0).toInt = advertised s l q.val ∧ (part s l q).got = m.sent.getD q.val 0))
  ∧ (∃ (s : State) (l : LinkId), (link s l).up = false)
  ∧ (∃ (s : State), s.tick.slot ≠ 0)
  ∧ (∃ (s : State) (l : LinkId) (q : Fin 16), (link s l).up = true ∧ (part s l q).rxFrozen.isSome = true
      ∧ (part s l q).rxThawAt = none ∧ (part s l q).occ = 0 ∧ (part s l q).pend = 0)
  ∧ (∃ (s : State) (l : LinkId) (q : Fin 16) (k : BitVec 48),
      ((part s l q).txFrozen = some k ∨ (part s l q).rxFrozen = some k) ∧ 256 ≤ ageOf s k)
  ∧ (∃ (s : State) (l : LinkId) (q : Fin 16), (∀ k,
      (part s l q).txFrozen = some k ∨ (part s l q).rxFrozen = some k → ageOf s k < 256))
  ∧ (∃ (s : State) (l : LinkId), ((link s l).up = true ∨ (link s l).nego = true) ∧ (link s l).failAt = none) :=
  ⟨⟨setLink (State.reset) (0 : LinkId) { up := true }, 0, by decide +kernel⟩,
  ⟨State.reset, 0, by decide +kernel⟩,
  ⟨State.reset, 95, by decide +kernel⟩,
  ⟨setLink (State.reset) (0 : LinkId) { up := true }, 0, ⟨0, [], [], []⟩, by decide +kernel⟩,
  ⟨State.reset, 0, by decide +kernel⟩,
  ⟨{ State.reset with tick.slot := 1 }, by decide +kernel⟩,
  ⟨setLink State.reset 0 { up := true, part := [(0, { rxFrozen := some 0 })] }, 0, 0, by decide +kernel⟩,
  ⟨{ setLink State.reset 0 { up := true, part := [(0, { txFrozen := some 0 })] } with tick.elapsed := 256 }, 0, 0, 0,
      by decide +kernel⟩,
  ⟨State.reset, 0, 0, by intro k hk; rcases hk with hk | hk <;> cases hk⟩,
  ⟨setLink (State.reset) (0 : LinkId) { up := true }, 0, by decide +kernel⟩⟩

/-- Every clause of CreditsConserved has a state and operands that meet its hypotheses. -/
theorem test_witness_creditsConserved :
  (∃ (tb : Tbl Part), tblWf {} tb = true)
  ∧ (∃ (s : State) (l : LinkId) (q : Fin 16) (u : Nat), tblWf {} s.links = true ∧ tblWf {} (link s l).part = true
      ∧ u ≤ (part s l q).occ ∧ (part s l q).got = (part s l q).retd + BitVec.ofNat 32 ((part s l q).occ + (part s l q).pend))
  ∧ (∃ (k : Link) (q : Fin 16), tblWf {} k.part = true
      ∧ (tblGet {} k.part q.val).got = (tblGet {} k.part q.val).retd + BitVec.ofNat 32 ((tblGet {} k.part q.val).occ + (tblGet {} k.part q.val).pend))
  ∧ (∃ (s : State) (l : LinkId) (body : Nat) (f : TxFrame) (fs : List TxFrame), tblWf {} s.links = true
      ∧ (link s l).again = f :: fs ∧ frameUsed f ≤ body)
  ∧ (∃ (s : State) (l : LinkId) (m : LinkMsg) (ms : List LinkMsg), (link s l).again = []
      ∧ (link s l).replay.length < replayCap (link s l).lanes ∧ (link s l).ctl = m :: ms)
  ∧ (∃ (s : State) (l : LinkId), (link s l).again = []
      ∧ (replayCap (link s l).lanes ≤ (link s l).replay.length ∨ ((link s l).ctl = [] ∧ underWay s l = none))) :=
  ⟨⟨[], by decide +kernel⟩,
  ⟨State.reset, 0, 0, 0, by decide +kernel⟩,
  ⟨{}, 0, by decide +kernel⟩,
  ⟨setLink (State.reset) (0 : LinkId) { again := ({} : TxFrame) :: ([]) }, 0, 0, {}, [], by decide +kernel⟩,
  ⟨setLink (sK v0) (0 : LinkId) { again := [], ctl := (.audit ⟨0, [], [], []⟩ : LinkMsg) :: ([]) }, 0,
      .audit ⟨0, [], [], []⟩, [], by decide +kernel⟩,
  ⟨State.reset, 0, by decide +kernel⟩⟩

/-- Every clause of FabricPacketArrives has a state and operands that meet its hypotheses. -/
theorem test_witness_fabricPacketArrives :
  (∃ (s : State), s.tick.todo = [])
  ∧ (∃ (s : State) (l : LinkId) (p : Packet) (p' : Packet) (o : PortId) (ks : List (BitVec 3)), (link s l).up = true
      ∧ ((link s l).gen = 1 → ks.any flitReserved = false) ∧ p.hdrCrc = hdrCrcOf p ∧ edgeCheck s l = false ∧ opOk p = true
      ∧ pktAge s p ≤ ageLimit s ∧ isData p = false ∧ p.mcast = false ∧ hopTransit p s = .go o p' ∧ o.val < 96
      ∧ (tblGet {} s.counts.peep l.val).cfg = 0)
  ∧ (∃ (s : State) (l : LinkId) (p : Packet) (ks : List (BitVec 3)), (link s l).up = true
      ∧ (p.hdrCrc ≠ hdrCrcOf p ∨ (isData p = true ∧ p.stomp = true)) ∧ ((link s l).gen = 1 → ks.any flitReserved = false)
      ∧ (tblGet {} s.counts.peep l.val).cfg = 0)
  ∧ (∃ (s : State) (l : LinkId) (ks : List (BitVec 3)), (link s l).up = true ∧ (link s l).gen = 1
      ∧ ks.any flitReserved = true ∧ (tblGet {} s.counts.peep l.val).cfg = 0)
  ∧ (∃ (s : State) (l : LinkId), (link s l).up = false) :=
  ⟨⟨State.reset, by decide +kernel⟩,
  ⟨setReg sR .portEdge 0 0 0 0, 0, p9, p9, 5, [], by decide +kernel⟩,
  ⟨setLink (State.reset) (0 : LinkId) { up := true }, 0, {}, [], by decide +kernel⟩,
  ⟨setLink State.reset 0 { up := true, gen := 1 }, 0, [7], by decide +kernel⟩,
  ⟨State.reset, 0, by decide +kernel⟩⟩

/-- Every clause of ValiantPhaseAndGenerator has a state and operands that meet its hypotheses. -/
theorem test_witness_valiantPhaseAndGenerator :
  (∃ (s : State) (p : Packet) (p' : Packet) (o : PortId), hopTransit p s = .go o p' ∧ p.vphase = false)
  ∧ (∃ (s : State) (p : Packet) (p' : Packet) (o : PortId), hopTransit p s = .go o p' ∧ p.via = 0)
  ∧ (∃ (x : BitVec 16), x ≠ 0) :=
  ⟨⟨sR, { p9 with via := 0 }, p9, 5, by decide +kernel⟩,
  ⟨sR, { p9 with via := 0 }, p9, 5, by decide +kernel⟩,
  ⟨1, by decide +kernel⟩⟩

/-- Every clause of CoreSlotOutputsPoolsAndGates has a state and operands that meet its hypotheses. -/
theorem test_witness_coreSlotOutputsPoolsAndGates :
  (∃ (s : State), s.tick.slot < s.tick.len ∧ s.tick.todo = [])
  ∧ (∃ (s : State), s.tick.len ≤ s.tick.slot)
  ∧ (∃ (s : State) (i : PortId) (m : Nat), m ≠ (i.val + s.tick.slot) % 128)
  ∧ (∃ (s : State) (m : PortId) (o : PortId), o.val ≠ (m.val + s.tick.slot) % 128)
  ∧ (∃ (s : State) (c : Slice) (o : PortId) (e : SliceCell), pickOut s c o = some e ∧ e.cell.kind ≠ .unicast)
  ∧ (∃ (s : State) (i : PortId) (m : PortId) (e : InPkt), eligibleIn s i m e = true ∧ e.kind = .unicast ∧ e.crossed = 0)
  ∧ (∃ (s : State) (i : PortId) (m : PortId) (e : InPkt), eligibleIn s i m e = true ∧ e.kind ≠ .contrib)
  ∧ (∃ (s : State) (o : PortId), tblWf {} s.core.out = true ∧ (outPort s o).lent ≤ 64)
  ∧ (∃ (s : State) (o : PortId) (c : Cell) (m : Nat) (rest : List (Cell × Nat)), (outPort s o).arriving = (c, m) :: rest
      ∧ c.kind = .unicast ∧ c.idx = 0 ∧ c.bad = false ∧ c.seq = tblGet 0 (outPort s o).exp (8 * c.src.val + c.pkt.vc.val)
      ∧ cellAged s c = false ∧ outDown s o = false ∧ (outPort s o).held = [] ∧ (outPort s o).dead = []
      ∧ (∀ q ∈ (outPort s o).pkts, q.bad = false) ∧ s.core.lost = [] ∧ tblWf {} s.core.out = true
      ∧ tblWf 0 (outPort s o).exp = true)
  ∧ (∃ (s : State) (o : PortId), (outPort s o).arriving = [])
  ∧ (∃ (s : State) (o : PortId), (1024 ≤ s.tick.slot ∨ lowestHeld s.tick.ns (tblGet 0 (outPort s o).exp s.tick.slot) s.tick.slot (outPort s o).held = none) ∧ s.core.lost = [])
  ∧ (∃ (s : State) (o : PortId) (h : HeldCell), (outPort s o).held = [h] ∧ (outPort s o).pkts = [] ∧ (outPort s o).dead = []
      ∧ streamOf h.cell = s.tick.slot ∧ s.tick.slot < 1024 ∧ h.arrived < s.tick.ns ∧ cellAged s h.cell = true
      ∧ h.cell.seq ≠ tblGet 0 (outPort s o).exp s.tick.slot ∧ h.cell.idx ≠ 0 ∧ h.ghost = false ∧ s.core.lost = []
      ∧ tblWf {} s.core.out = true ∧ tblWf 0 (outPort s o).exp = true)
  ∧ (∃ (s : State) (o : PortId) (q : OutPkt), 96 ≤ o.val ∧ (outPort s o).pkts = [q] ∧ q.kind = .unicast ∧ q.have_ = q.count
      ∧ q.passed = false ∧ neverAsked q.pkt.opcode = false ∧ s.core.lost = [] ∧ tblWf {} s.core.out = true)
  ∧ (∃ (s : State) (o : PortId) (l : LinkId) (q : OutPkt), o = linkPort l ∧ ethMode s l.val = false
      ∧ (outPort s o).pkts = [q] ∧ q.kind = .unicast ∧ q.ref = .none ∧ q.have_ = q.count ∧ q.passed = false
      ∧ genCarries (link s l).gen q.pkt.opcode = true ∧ q.pkt.payLen.toNat ≤ genMax (link s l).gen
      ∧ markCells s o q.pkt.vc.val = 0 ∧ s.core.lost = [])
  ∧ (∃ (s : State) (o : PortId), nextToPass s o = none ∧ s.core.lost = [])
  ∧ (∃ (s : State) (j : Fin 512) (x : Nat) (ref : Nat) (sum : Nat) (wrong : Bool), poolSum s j.val = some (x, ref)
      ∧ (s.core.latched.find? (fun y => y.1 = j.val) = some (j.val, sum, wrong)) ∧ (sum ≠ ref ∨ wrong = true)
      ∧ s.tick.slot = 0 ∧ s.tick.phase ≤ 6 ∧ hits s 64 j.val = true)
  ∧ (∃ (s : State) (j : Fin 512), (384 ≤ j.val ∨ hits s 64 j.val = false ∨ s.tick.slot ≠ 0 ∨ 6 < s.tick.phase))
  ∧ (∃ (s : State) (j : Fin 512) (x : Nat) (ref : Nat), poolSum s j.val = some (x, ref)
      ∧ (s.core.latched.find? (fun y => y.1 = j.val) = some (j.val, ref, false)))
  ∧ (∃ (s : State) (j : Fin 512) (k : Nat), (s.core.rebuild.find? (fun r => r.1 = j.val) = some (j.val, k)) ∧ k ≤ s.tick.ns)
  ∧ (∃ (s : State) (j : Nat), j < 128 ∧ tblWf {} s.core.inp = true
      ∧ ((inPort s (portOf j)).queue.foldl (fun n e => n + (e.units - e.freed)) 0 ≤ 16384))
  ∧ (∃ (s : State) (j : Nat) (sum : Nat), 256 ≤ j ∧ j < 384 ∧ tblWf {} s.core.out = true ∧ poolSum s j = some (sum, 1024)
      ∧ sum - (outPort s (portOf j)).free ≤ 1024)
  ∧ (∃ (s : State) (j : Fin 512), (∀ r ∈ s.core.rebuild, r.1 = j.val → s.tick.ns < r.2))
  ∧ (∃ (s : State) (l : LinkId), (tmOf s l).swap = none)
  ∧ (∃ (s : State) (l : LinkId), (tmOf s l).swap.isSome = true)
  ∧ (∃ (s : State) (l : LinkId) (w : BitVec 48), (tmOf s l).swap = some w ∧ s.tick.slot = 0 ∧ s.tick.phase ≤ 8
      ∧ 2 ≤ ageOf s w ∧ later (pendBase s l) (nowTick s) = false
      ∧ (nowTick s - pendBase s l).toNat % pendPeriod s l < tickSpan s
      ∧ gateFault (pendPeriod s l) (gateList s l (!(tmOf s l).bank) (pendCount s l)) = none)
  ∧ (∃ (s : State) (l : LinkId) (w : BitVec 48) (i : Nat), (tmOf s l).swap = some w ∧ s.tick.slot = 0 ∧ s.tick.phase ≤ 8
      ∧ 2 ≤ ageOf s w ∧ later (pendBase s l) (nowTick s) = false
      ∧ (nowTick s - pendBase s l).toNat % pendPeriod s l < tickSpan s
      ∧ gateFault (pendPeriod s l) (gateList s l (!(tmOf s l).bank) (pendCount s l)) = some i)
  ∧ (∃ (s : State) (l : LinkId), ((tmOf s l).swap = none ∨ (∃ w, (tmOf s l).swap = some w
      ∧ ageOf s w < 2) ∨ later (pendBase s l) (nowTick s) = true ∨ tickSpan s ≤ (nowTick s - pendBase s l).toNat % pendPeriod s l)) :=
  ⟨⟨State.reset, by decide +kernel⟩,
  ⟨{ State.reset with tick.slot := 1024 }, by decide +kernel⟩,
  ⟨State.reset, 0, 1, by decide +kernel⟩,
  ⟨State.reset, 1, 0, by decide +kernel⟩,
  ⟨{ State.reset with tick.ns := 1 }, { cells := [{ cell := { c0 with kind := .mcast }, outs := [0], enter := 0 }] }, 0,
      { cell := { c0 with kind := .mcast }, outs := [0], enter := 0 }, by decide +kernel⟩,
  ⟨setIn State.reset 0 { queue := [ip0] }, 0, 0, ip0, by decide +kernel⟩,
  ⟨setIn State.reset 0 { queue := [ip0] }, 0, 0, ip0, by decide +kernel⟩,
  ⟨State.reset, 0, by decide +kernel⟩,
  ⟨modOut (0 : PortId) (fun x => { x with arriving := (({ (c0 : Cell) with kind := .unicast, idx := 0, bad := false } : Cell), (0 : Nat)) :: ([]) }) (sR), 0, { (c0 : Cell) with kind := .unicast, idx := 0, bad := false }, 0, [], by decide +kernel⟩,
  ⟨setTm State.reset 0 { swap := some 0 }, 0, by decide +kernel⟩,
  ⟨{ State.reset with tick.slot := 1024 }, 0, by decide +kernel⟩,
  ⟨{ (setOut State.reset 0 { held := [⟨{ c0 with idx := 1, seq := 1 }, 0, false, false⟩] }) with tick.elapsed := 0xFFF0, tick.ns := 1 }, 0, ⟨{ c0 with idx := 1, seq := 1 }, 0, false, false⟩, by decide +kernel⟩,
  ⟨setOut State.reset 127 { pkts := [q0] }, 127, q0, by decide +kernel⟩,
  ⟨setOut (setReg State.reset .tmPortCfg 5 0 2 0) 5 { pkts := [q0] }, 5, 5, q0, by decide +kernel⟩,
  ⟨{ State.reset with tick.slot := 1024 }, 0, by decide +kernel⟩,
  ⟨{ State.reset with core.latched := [(0, 0, false)] }, 0, 16384, 16384, 0, false, by decide +kernel⟩,
  ⟨{ State.reset with tick.slot := 1 }, 0, by decide +kernel⟩,
  ⟨{ State.reset with core.latched := [(0, 16384, false)] }, 0, 16384, 16384, by decide +kernel⟩,
  ⟨{ setIn State.reset 0 { free := 16383 } with core.rebuild := [(0, 0)] }, 0, 0, by decide +kernel⟩,
  ⟨State.reset, 0, by decide +kernel⟩,
  ⟨State.reset, 256, 1024, by decide +kernel⟩,
  ⟨State.reset, 0, by decide +kernel⟩,
  ⟨State.reset, 0, by decide +kernel⟩,
  ⟨setTm (State.reset) (0 : LinkId) { swap := some 0 }, 0, by decide +kernel⟩,
  ⟨{ (setTm (State.reset) (0 : LinkId) { swap := some (0 : BitVec 48) }) with tick.elapsed := 0x100000 }, 0, 0,
      by decide +kernel⟩,
  ⟨{ setTm (setReg State.reset .tmGateEntry 0 64 0 (5 <<< 8)) 0 { swap := some 0 } with tick.elapsed := 2 }, 0, 0, 0,
      by decide +kernel⟩,
  ⟨State.reset, 0, .inl (by decide +kernel)⟩⟩

/-- Every clause of PacketStartsAndLastByte has a state and operands that meet its hypotheses. -/
theorem test_witness_packetStartsAndLastByte :
  (∃ (s : State) (p : Fin 16), ethMode s (80 + p.val) = true)
  ∧ (∃ (s : State) (l : LinkId), ((link s l).tx.isSome = true ∨ (link s l).up = false ∨ (link s l).retrain = true))
  ∧ (∃ p, ∃ (s : State) (l : LinkId) (q : OutPkt), (link s l).up = true ∧ tblWf {} (link s l).part = true ∧ p ≠ partOf q.pkt)
  ∧ (∃ (s : State) (l : LinkId), (link s l).up = true ∧ tblWf {} (link s l).part = true ∧ (outPort s (linkPort l)).pkts ≠ [])
  ∧ (∃ (s : State) (l : LinkId) (q : OutPkt), eligible s l 7 = true ∧ headOf s l 7 = some q)
  ∧ (∃ (s : State) (l : LinkId) (body : Nat) (q : OutPkt) (x : TxNow), fits (link s l).gen q x.pos body = none
      ∧ x.underran = false)
  ∧ (∃ (s : State) (l : LinkId) (body : Nat) (q : OutPkt) (x : TxNow), fits (link s l).gen q x.pos body = none
      ∧ x.underran = true)
  ∧ (∃ (s : State) (l : LinkId) (body : Nat) (n : Nat) (q : OutPkt) (x : TxNow), fits (link s l).gen q x.pos body = some n)
  ∧ (∃ (s : State) (l : LinkId) (x : TxNow) (q : OutPkt), (link s l).tx = some x
      ∧ ((outPort s (linkPort l)).pkts.find? (fun y => y.uid = x.uid) = some q) ∧ pktCharge (link s l).gen q.pkt ≤ x.pos
      ∧ x.leaves ≤ s.tick.ns ∧ q.cut = false ∧ (∀ c, x.closing = some c → s.tick.ns ≤ c))
  ∧ (∃ (s : State) (l : LinkId) (x : TxNow) (q : OutPkt), ethMode s l.val = false ∧ (link s l).tx = some x
      ∧ ((outPort s (linkPort l)).pkts.find? (fun y => y.uid = x.uid) = some q)
      ∧ (x.pos < pktCharge (link s l).gen q.pkt ∨ s.tick.ns < x.leaves))
  ∧ (∃ (s : State) (l : LinkId), ethMode s l.val = false ∧ (link s l).tx = none) :=
  ⟨⟨sE, 0, by decide +kernel⟩,
  ⟨State.reset, 0, by decide +kernel⟩,
  ⟨0, setOut (setLink State.reset 0 { up := true, lanes := 15, gen := 3, part := [(14, { held := 100 })] }) 0 { pkts := [q7] }, 0, q7, by decide +kernel⟩,
  ⟨setOut (setLink State.reset 0 { up := true, lanes := 15, gen := 3, part := [(14, { held := 100 })] }) 0 { pkts := [q7] },
      0, by decide +kernel⟩,
  ⟨setOut (setLink State.reset 0 { up := true, lanes := 15, gen := 3, part := [(14, { held := 100 })] }) 0 { pkts := [q7] },
      0, q7, by decide +kernel⟩,
  ⟨State.reset, 0, 300, { q0 with count := 2, pkt := { opcode := 0x02, payLen := 300, payload := List.replicate 300 0 } },
      { (⟨0, 0, 0, 200, 0, false, none⟩ : TxNow) with underran := false }, by decide +kernel⟩,
  ⟨State.reset, 0, 300, { q0 with count := 2, pkt := { opcode := 0x02, payLen := 300, payload := List.replicate 300 0 } },
      { (⟨0, 0, 0, 200, 0, true, none⟩ : TxNow) with underran := true }, by decide +kernel⟩,
  ⟨State.reset, 0, 100, 100, { q0 with count := 2, pkt := { opcode := 0x02, payLen := 300, payload := List.replicate 300 0 } }, ⟨0, 0, 0, 0, 0, false, none⟩, by decide +kernel⟩,
  ⟨{ (setOut (setLink State.reset 0 { up := true, tx := some ⟨0, 0, 0, 512, 0, false, none⟩ }) 0 { pkts := [{ q0 with pkt := { opcode := 0x82 } }] }) with tick.ns := 1000 }, 0, ⟨0, 0, 0, 512, 0, false, none⟩, { q0 with pkt := { opcode := 0x82 } }, by decide +kernel, by decide +kernel, by decide +kernel, by decide +kernel, by decide +kernel, some_all (by decide +kernel)⟩,
  ⟨{ (setOut (setLink State.reset 0 { up := true, tx := some ⟨0, 0, 0, 0, 0, false, none⟩ }) 0 { pkts := [{ q0 with pkt := { opcode := 0x82 } }] }) with tick.ns := 1000 }, 0, ⟨0, 0, 0, 0, 0, false, none⟩, { q0 with pkt := { opcode := 0x82 } }, by decide +kernel⟩,
  ⟨State.reset, 0, by decide +kernel⟩⟩

/-- Every clause of BucketsStayWithinBursts has a state and operands that meet its hypotheses. -/
theorem test_witness_bucketsStayWithinBursts :
  (∃ (tok : Nat) (burst : Nat) (largest : Nat), tok ≤ max burst largest * 256)
  ∧ (∃ (mode : Nat) (yellow : Bool) (c : Nat) (m : Meter), (meterDecide mode yellow c m).1 = .red)
  ∧ (∃ (mode : Nat) (yellow : Bool) (c : Nat) (m : Meter), mode = 1 ∧ (meterDecide mode yellow c m).1 ≠ .red)
  ∧ (∃ (mode : Nat) (yellow : Bool) (c : Nat) (m : Meter), mode = 2 ∧ (meterDecide mode yellow c m).1 = .yellow)
  ∧ (∃ (mode : Nat) (yellow : Bool) (c : Nat) (m : Meter), mode = 2 ∧ (meterDecide mode yellow c m).1 = .green)
  ∧ (∃ (mode : Nat) (yellow : Bool), yellow = true ∧ (mode = 1 ∨ mode = 2)) :=
  ⟨⟨1024, 4, 0, by decide +kernel⟩,
  ⟨1, false, 1, {}, by decide +kernel⟩,
  ⟨1, false, 0, {}, by decide +kernel⟩,
  ⟨2, true, 0, {}, by decide +kernel⟩,
  ⟨2, false, 0, {}, by decide +kernel⟩,
  ⟨1, true, by decide +kernel⟩⟩

/-- Every clause of CoatsStagedSwitchedRetired has a state and operands that meet its hypotheses. -/
theorem test_witness_coatsStagedSwitchedRetired :
  (∃ (s : State) (d : DRef) (f : InFlight), Startable s d 0x50 f ∧ coatHeld s (dCoat f) = false
      ∧ (s.route.staging.getD { num := dCoat f }).num = dCoat f ∧ 64 ≤ (fld f.desc 256 32) ∧ (fld f.desc 256 32) ≤ 1048576)
  ∧ (∃ (s : State) (d : DRef) (f : InFlight), Startable s d 0x50 f ∧ s.route.staging = none ∧ coatHeld s (dCoat f) = false
      ∧ 64 ≤ fld f.desc 256 32 ∧ fld f.desc 256 32 ≤ 1048576)
  ∧ (∃ (s : State) (d : DRef) (f : InFlight), Startable s d 0x50 f
      ∧ (coatHeld s (dCoat f) = true ∨ (∃ g, s.route.staging = some g
      ∧ g.num ≠ dCoat f) ∨ fld f.desc 256 32 < 64 ∨ 1048576 < fld f.desc 256 32))
  ∧ (∃ (s : State) (d : DRef) (f : InFlight) (g : Staging), Startable s d 0x51 f ∧ s.route.staging = some g ∧ g.num = dCoat f)
  ∧ (∃ (s : State) (d : DRef) (f : InFlight), Startable s d 0x51 f
      ∧ (s.route.staging = none ∨ ∃ g, s.route.staging = some g ∧ g.num ≠ dCoat f))
  ∧ (∃ (s : State) (d : DRef) (f : InFlight), Startable s d 0x52 f ∧ s.route.staging = none)
  ∧ (∃ (s : State) (d : DRef) (f : InFlight) (g : Staging), Startable s d 0x52 f ∧ s.route.staging = some g)
  ∧ (∃ (s : State) (d : DRef) (f : InFlight), Startable s d 0x53 f)
  ∧ (∃ (s : State) (d : DRef) (f : InFlight), Startable s d 0x54 f)
  ∧ (∃ (s : State) (g : Staging) (l : CoatLoad) (f : InFlight), s.tick.slot = 0 ∧ s.tick.phase ≤ 5 ∧ s.route.staging = some g
      ∧ g.loads = [l] ∧ l.ready = true ∧ flightOf s l.d = some f ∧ workDue s l.d l.due = true ∧ dExact f.desc = false
      ∧ 512 < l.todo.length)
  ∧ (∃ (s : State) (g : Staging) (l : CoatLoad) (f : InFlight), s.tick.slot = 0 ∧ s.tick.phase ≤ 5 ∧ s.route.staging = some g
      ∧ g.loads = [l] ∧ l.ready = true ∧ flightOf s l.d = some f ∧ workDue s l.d l.due = true ∧ dExact f.desc = false
      ∧ l.todo ≠ [] ∧ l.todo.length ≤ 512 ∧ (∀ e ∈ mappedFrames (stagedCoat s { g with written := l.todo.reverse ++ g.written } l.base), (tblGet none s.larder.owner e.1).isSome = true))
  ∧ (∃ (s : State), (s.tick.slot ≠ 0 ∨ 5 < s.tick.phase ∨ s.route.staging = none))
  ∧ (∃ (s : State) (g : Staging), s.tick.slot = 0 ∧ s.tick.phase ≤ 4 ∧ s.route.staging = some g ∧ g.loads = []
      ∧ s.route.under = none ∧ (s.route.switches.filter (fun w => workDue s w.d w.due) ≠ [])
      ∧ (∀ w ∈ s.route.switches, ∀ f, flightOf s w.d = some f → missedTick s f = false)
      ∧ stagedOk s (stagedCoat s g g.base) = true)
  ∧ (∃ f, ∃ (s : State) (g : Staging), (f ∈ s.rings.flight) ∧ dOpcode f.desc = 0x51 ∧ dCoat f = g.num)
  ∧ (∃ (s : State), s.tick.slot = 0 ∧ s.tick.phase ≤ 4 ∧ s.route.staging = none
      ∧ (s.route.switches.filter (fun w => workDue s w.d w.due) ≠ []))
  ∧ (∃ (s : State), s.route.under.isSome = true)
  ∧ (∃ (s : State) (g : Staging), s.route.staging = some g ∧ g.loads ≠ [])
  ∧ (∃ (s : State), (s.tick.slot ≠ 0 ∨ 4 < s.tick.phase ∨ s.route.switches.filter (fun w => workDue s w.d w.due) = []))
  ∧ (∃ (s : State) (u : Coat), s.route.under = some u ∧ s.tick.slot = 0 ∧ s.tick.phase ≤ 4
      ∧ retireAge s + 2 ≤ ageOf s s.route.lastUnder ∧ coatBusy s u.num = false)
  ∧ (∃ (s : State) (u : Coat), s.route.under = some u
      ∧ (ageOf s s.route.lastUnder < retireAge s + 2 ∨ coatBusy s u.num = true ∨ s.tick.slot ≠ 0))
  ∧ (∃ (s : State), s.tick.slot = 0 ∧ tblWf {} s.core.inp = true)
  ∧ (∃ (s : State), s.tick.slot ≠ 0)
  ∧ (∃ (s : State) (fr : BitVec 20), (s.larder.fills.any (fun x => x.frame = fr.toNat && fillEnded x) = true)
      ∧ s.route.staging = none)
  ∧ (∃ (s : State) (fr : BitVec 20) (g : Staging), (s.larder.fills.any (fun x => x.frame = fr.toNat && fillEnded x) = true)
      ∧ s.route.staging = some g)
  ∧ (∃ (s : State) (fr : BitVec 20), (s.larder.fills.any (fun x => x.frame = fr.toNat && fillEnded x) = false))
  ∧ (∃ (s : State) (src : BitVec 12) (tag : BitVec 16) (r : Outcome),
      (s.route.records.find? (fun r => r.src = src && r.tag = tag) = some r) ∧ s.tick.slot = 0
      ∧ ageLimit s + 8 ≤ ageOf s r.last)
  ∧ (∃ (s : State) (src : BitVec 12) (tag : BitVec 16),
      (s.tick.slot ≠ 0 ∨ ∀ r ∈ s.route.records, r.src = src → r.tag = tag → ageOf s r.last < ageLimit s + 8)) :=
  ⟨⟨inFlight (fl 0x50 0 (64 <<< 256 + 1 <<< 288)) State.reset, d0, fl 0x50 0 (64 <<< 256 + 1 <<< 288),
      ⟨by decide +kernel, by decide +kernel, by decide +kernel⟩, by decide +kernel⟩,
  ⟨inFlight (fl 0x50 0 (1 <<< 288 + 64 <<< 256)) (State.reset), d0, fl 0x50 0 (1 <<< 288 + 64 <<< 256),
      ⟨by decide +kernel, by decide +kernel, by decide +kernel⟩, by decide +kernel⟩,
  ⟨inFlight (fl 0x50 0 (63 <<< 256 + 1 <<< 288)) State.reset, d0, fl 0x50 0 (63 <<< 256 + 1 <<< 288),
      ⟨by decide +kernel, by decide +kernel, by decide +kernel⟩, .inr (.inr (.inl (by decide +kernel)))⟩,
  ⟨inFlight (fl 0x51) ({ State.reset with route.staging := some ({ (g0) with num := dCoat (fl 0x51) } : Staging) }), d0,
      fl 0x51, { (g0) with num := dCoat (fl 0x51) }, ⟨by decide +kernel, by decide +kernel, by decide +kernel⟩,
      by decide +kernel⟩,
  ⟨inFlight (fl 0x51) State.reset, d0, fl 0x51, ⟨by decide +kernel, by decide +kernel, by decide +kernel⟩,
      .inl (by decide +kernel)⟩,
  ⟨inFlight (fl 0x52) (State.reset), d0, fl 0x52, ⟨by decide +kernel, by decide +kernel, by decide +kernel⟩,
      by decide +kernel⟩,
  ⟨inFlight (fl 0x52) ({ State.reset with route.staging := some g0 }), d0, fl 0x52, g0,
      ⟨by decide +kernel, by decide +kernel, by decide +kernel⟩, by decide +kernel⟩,
  ⟨inFlight (fl 0x53) (State.reset), d0, fl 0x53, ⟨by decide +kernel, by decide +kernel, by decide +kernel⟩⟩,
  ⟨inFlight (fl 0x54) (State.reset), d0, fl 0x54, ⟨by decide +kernel, by decide +kernel, by decide +kernel⟩⟩,
  ⟨inFlight (fl 0x50) { State.reset with route.staging := some { num := 1, loads := [{ d := d0, base := false, clr := false, due := 0, ready := true, todo := List.replicate 513 (.window, 0, 0) }] } }, { num := 1, loads := [{ d := d0, base := false, clr := false, due := 0, ready := true, todo := List.replicate 513 (.window, 0, 0) }] }, { d := d0, base := false, clr := false, due := 0, ready := true, todo := List.replicate 513 (.window, 0, 0) }, fl 0x50, by decide +kernel⟩,
  ⟨{ inFlight (fl 0x50) State.reset with route.staging := some { num := 1, loads := [{ d := d0, todo := List.replicate 512 (.route, 7, 1), base := false, clr := false, due := 0, ready := true }] } }, { num := 1, loads := [{ d := d0, todo := List.replicate 512 (.route, 7, 1), base := false, clr := false, due := 0, ready := true }] }, { d := d0, todo := List.replicate 512 (.route, 7, 1), base := false, clr := false, due := 0, ready := true }, fl 0x50, by decide +kernel⟩,
  ⟨{ State.reset with tick.slot := 1 }, by decide +kernel⟩,
  ⟨{ State.reset with route.staging := some g0, route.switches := [⟨d0, 1, 0⟩] }, g0, by decide +kernel⟩,
  ⟨fl 0x51 0 (1 <<< 288), { inFlight (fl 0x51 0 (1 <<< 288)) State.reset with route.staging := some g0 }, g0,
      by decide +kernel⟩,
  ⟨{ ({ State.reset with route.staging := some g0, route.switches := [⟨d0, 1, 0⟩] }) with tick.slot := 0, route.staging := none }, by decide +kernel⟩,
  ⟨{ State.reset with route.under := some {} }, by decide +kernel⟩,
  ⟨{ inFlight (fl 0x50) State.reset with route.staging := some { num := 1, loads := [{ d := d0, todo := List.replicate 513 (.route, 7, 1), base := false, clr := false, due := 0, ready := true }] } }, { num := 1, loads := [{ d := d0, todo := List.replicate 513 (.route, 7, 1), base := false, clr := false, due := 0, ready := true }] }, by decide +kernel⟩,
  ⟨{ State.reset with tick.slot := 1 }, by decide +kernel⟩,
  ⟨{ State.reset with route.under := some ({} : Coat), tick.elapsed := 0x100000 }, {}, by decide +kernel⟩,
  ⟨{ State.reset with route.under := some ({} : Coat) }, {}, by decide +kernel⟩,
  ⟨State.reset, by decide +kernel⟩,
  ⟨{ State.reset with tick.slot := 1 }, by decide +kernel⟩,
  ⟨{ State.reset with larder.fills := [{ frame := 0x123, tenant := 0, rows := (List.range 24).map (fun i => (i, 400)) }] },
      0x123, by decide +kernel⟩,
  ⟨{ State.reset with larder.fills := [{ frame := 0x123, tenant := 0, rows := (List.range 24).map (fun i => (i, 400)) }], route.staging := some g0 }, 0x123, g0, by decide +kernel⟩,
  ⟨State.reset, 0, by decide +kernel⟩,
  ⟨{ State.reset with route.records := [{ src := 3, tag := 4, tenant := 0, group := 0, coat := 0, itemLen := 8, outs := [], last := 0 }], tick.elapsed := 72 }, 3, 4, { src := 3, tag := 4, tenant := 0, group := 0, coat := 0, itemLen := 8, outs := [], last := 0 }, by decide +kernel⟩,
  ⟨State.reset, 0, 0, by decide +kernel⟩⟩

/-- Every clause of WritesStoreReadsAnswer has a state and operands that meet its hypotheses. -/
theorem test_witness_writesStoreReadsAnswer :
  (∃ (p : Packet), p.opcode ≠ 0x01)
  ∧ (∃ (p : Packet), p.opcode ≠ 0x02)
  ∧ (∃ (s : State) (p : Packet) (st : BitVec 8), s.attic.draining = false
      ∧ (p.opcode = 0x02 → p.mcast = false → trackRoom s p = true) ∧ checkRequest s p = .fail st)
  ∧ (∃ (s : State) (p : Packet), s.attic.draining = true ∧ p.src ≠ myNode s
      ∧ (∀ x ∈ s.items.track, x.src = p.src → x.tag = p.tag → p.opcode ≠ 0x02))
  ∧ (∃ (s : State) (r : LarderReq), (tblGet [] s.larder.waiting r.i ≠ [] ∨ s.larder.fills ≠ [] ∨ mayServe s r = false))
  ∧ (∃ (s : State) (r : LarderReq), tblGet [] s.larder.waiting r.i = [] ∧ s.larder.fills = [] ∧ mayServe s r = true)
  ∧ (∃ (s : State) (p : Packet) (b : Nat), p.opcode = 0x02 ∧ p.mcast = false ∧ trackRoom s p = true
      ∧ ServedAtOnce s p (.larder [(b, p.payload.length)])
      ∧ checkPacket s p p.payLen.toNat .wr = .ok (.larder [(b, p.payload.length)]) ∧ s.larder.badWord = []
      ∧ s.larder.memWf = true)
  ∧ (∃ (s : State) (p : Packet) (b : Nat), p.opcode = 0x02 ∧ p.mcast = false ∧ trackRoom s p = true
      ∧ ServedAtOnce s p (.array b) ∧ checkPacket s p p.payLen.toNat .wr = .ok (.array b) ∧ s.work.badWord = []
      ∧ s.work.memWf = true)
  ∧ (∃ (s : State) (p : Packet), (s.items.track.find? (fun x => x.src = p.src && x.tag = p.tag) = none)
      ∧ p.payLen.toNat = p.itemLen.toNat)
  ∧ (∃ (s : State) (p : Packet), (s.items.track.find? (fun x => x.src = p.src && x.tag = p.tag) = none)
      ∧ p.payLen.toNat ≠ p.itemLen.toNat)
  ∧ (∃ (s : State) (p : Packet) (st : BitVec 8), p.opcode = 0x02 ∧ checkPacket s p p.payLen.toNat .wr = .fail st)
  ∧ (∃ (s : State) (p : Packet) (b : Nat), p.opcode = 0x01 ∧ ServedAtOnce s p (.array b) ∧ 0 < p.itemLen.toNat
      ∧ p.addr.toNat % 4096 + p.itemLen.toNat ≤ 4096 ∧ checkPacket s p p.itemLen.toNat .rd = .ok (.array b)
      ∧ s.work.badWord = [])
  ∧ (∃ (s : State) (p : Packet) (b : Nat), p.opcode = 0x01 ∧ ServedAtOnce s p (.larder [(b, p.itemLen.toNat)])
      ∧ 0 < p.itemLen.toNat ∧ p.addr.toNat % 4096 + p.itemLen.toNat ≤ 4096
      ∧ checkPacket s p p.itemLen.toNat .rd = .ok (.larder [(b, p.itemLen.toNat)]) ∧ s.larder.badWord = []) :=
  ⟨⟨{}, by decide +kernel⟩,
  ⟨{}, by decide +kernel⟩,
  ⟨sM, { opcode := 0x02, addr := 0x200000, payLen := 4, itemLen := 4, payload := [1, 2, 3, 4] }, stDenied, by decide +kernel⟩,
  ⟨{ State.reset with attic.draining := true }, { src := 3, opcode := 0x02 }, by decide +kernel⟩,
  ⟨{ State.reset with larder.fills := [{ frame := 5, tenant := 0 }] }, ⟨0, {}, .larder [(0, 8)], 0, 8, false⟩,
      by decide +kernel⟩,
  ⟨State.reset, ⟨0, {}, .larder [(0, 8)], 0, 8, false⟩, by decide +kernel⟩,
  ⟨sM, { opcode := 0x02, addr := 0x1FFFFC, payLen := 4, itemLen := 4, payload := [1, 2, 3, 4] }, 0x247FFFFC,
      by decide +kernel, by decide +kernel, by decide +kernel, served_of (by decide +kernel), by decide +kernel⟩,
  ⟨sM, { opcode := 0x02, addr := arr, payLen := 4, itemLen := 4, payload := [1, 2, 3, 4] }, 0, by decide +kernel,
      by decide +kernel, by decide +kernel, served_of (by decide +kernel), by decide +kernel⟩,
  ⟨sM, { opcode := 0x02, addr := 0x1FFFFC, payLen := 4, itemLen := 4, payload := [1, 2, 3, 4] }, by decide +kernel⟩,
  ⟨sM, { opcode := 0x01, addr := arr + 4092, itemLen := 4 }, by decide +kernel⟩,
  ⟨sM, { opcode := 0x02, addr := 0x200000, payLen := 4, itemLen := 4, payload := [1, 2, 3, 4] }, stDenied, by decide +kernel⟩,
  ⟨sM, { opcode := 0x01, addr := arr + 4092, itemLen := 4 }, 4092, by decide +kernel, served_of (by decide +kernel),
      by decide +kernel⟩,
  ⟨{ sM with larder.badWord := [] }, { ({ opcode := 0x02, addr := 0x1FFFFC, payLen := 4, itemLen := 4, payload := [1, 2, 3, 4] } : Packet) with opcode := 0x01, itemLen := 1 }, 0x247FFFFC, by decide +kernel, served_of (by decide +kernel), by decide +kernel⟩⟩

/-- Every clause of AtomicsReplaceOneOperand has a state and operands that meet its hypotheses. -/
theorem test_witness_atomicsReplaceOneOperand :
  (∀ e ∈ ([(.atFadd64, 0x08), (.atSwap64, 0x09), (.atCas64, 0x0A), (.atCas128, 0x0B), (.atFaddFp32, 0x0C),
      (.atFaddBf16, 0x0D)] : List ((Packet → Instr) × BitVec 8)), ∃ (s : State) (p : Packet), p.opcode = e.2
      ∧ s.attic.draining = false ∧ p.addr.toNat % (atomicWidth p.opcode.toNat) ≠ 0)
  ∧ (∀ e ∈ ([(.atFadd64, 0x08), (.atSwap64, 0x09), (.atCas64, 0x0A), (.atCas128, 0x0B), (.atFaddFp32, 0x0C),
      (.atFaddBf16, 0x0D)] : List ((Packet → Instr) × BitVec 8)), ∃ (s : State) (p : Packet) (st : BitVec 8), p.opcode = e.2
      ∧ s.attic.draining = false ∧ p.addr.toNat % (atomicWidth p.opcode.toNat) = 0
      ∧ checkPacket s p (atomicWidth p.opcode.toNat) .atomic = .fail st)
  ∧ (∀ e ∈ ([(.atFadd64, 0x08), (.atSwap64, 0x09), (.atCas64, 0x0A), (.atCas128, 0x0B), (.atFaddFp32, 0x0C),
      (.atFaddBf16, 0x0D)] : List ((Packet → Instr) × BitVec 8)), ∃ (s : State) (p : Packet) (b : Nat), p.opcode = e.2
      ∧ ServedAtOnce s p (.larder [(b, (atomicWidth p.opcode.toNat))]) ∧ p.addr.toNat % (atomicWidth p.opcode.toNat) = 0
      ∧ checkPacket s p (atomicWidth p.opcode.toNat) .atomic = .ok (.larder [(b, (atomicWidth p.opcode.toNat))])
      ∧ s.larder.badWord = [] ∧ s.larder.memWf = true)
  ∧ (∀ e ∈ ([(.atFadd64, 0x08), (.atSwap64, 0x09), (.atCas64, 0x0A), (.atCas128, 0x0B), (.atFaddFp32, 0x0C),
      (.atFaddBf16, 0x0D)] : List ((Packet → Instr) × BitVec 8)), ∃ (s : State) (p : Packet) (b : Nat), p.opcode = e.2
      ∧ ServedAtOnce s p (.array b) ∧ p.addr.toNat % (atomicWidth p.opcode.toNat) = 0
      ∧ checkPacket s p (atomicWidth p.opcode.toNat) .atomic = .ok (.array b) ∧ s.work.badWord = [] ∧ s.work.memWf = true) :=
  ⟨(fun e he => ⟨sM, { opcode := e.2, addr := 0x1FFFF1 },
      (by decide +kernel : ∀ e ∈ ([(.atFadd64, 0x08), (.atSwap64, 0x09), (.atCas64, 0x0A), (.atCas128, 0x0B),
      (.atFaddFp32, 0x0C), (.atFaddBf16, 0x0D)] : List ((Packet → Instr) × BitVec 8)),
      (({ opcode := e.2, addr := 0x1FFFF1 } : Packet).opcode = e.2) ∧ ((sM : State).attic.draining = false)
      ∧ (({ opcode := e.2, addr := 0x1FFFF1 } : Packet).addr.toNat % (atomicWidth ({ opcode := e.2, addr := 0x1FFFF1 } : Packet).opcode.toNat) ≠ 0)) e he⟩),
  (fun e he => ⟨sM, { opcode := e.2, addr := 0x200000 }, stDenied,
      (by decide +kernel : ∀ e ∈ ([(.atFadd64, 0x08), (.atSwap64, 0x09), (.atCas64, 0x0A), (.atCas128, 0x0B),
      (.atFaddFp32, 0x0C), (.atFaddBf16, 0x0D)] : List ((Packet → Instr) × BitVec 8)),
      (({ opcode := e.2, addr := 0x200000 } : Packet).opcode = e.2) ∧ ((sM : State).attic.draining = false)
      ∧ (({ opcode := e.2, addr := 0x200000 } : Packet).addr.toNat % (atomicWidth ({ opcode := e.2, addr := 0x200000 } : Packet).opcode.toNat) = 0) ∧ (checkPacket (sM : State) ({ opcode := e.2, addr := 0x200000 } : Packet) (atomicWidth ({ opcode := e.2, addr := 0x200000 } : Packet).opcode.toNat) .atomic = .fail (stDenied : BitVec 8))) e he⟩),
  (fun e he => ⟨sM, { opcode := e.2, addr := 0x1FFFF0 }, 0x247FFFF0, by
    have h := (by decide +kernel : ∀ e ∈ ([(.atFadd64, 0x08), (.atSwap64, 0x09), (.atCas64, 0x0A), (.atCas128, 0x0B),
        (.atFaddFp32, 0x0C), (.atFaddBf16, 0x0D)] : List ((Packet → Instr) × BitVec 8)),
        (({ opcode := e.2, addr := 0x1FFFF0 } : Packet).opcode = e.2)
        ∧ (servedB (sM : State) ({ opcode := e.2, addr := 0x1FFFF0 } : Packet) (.larder [((0x247FFFF0 : Nat),
        (atomicWidth ({ opcode := e.2, addr := 0x1FFFF0 } : Packet).opcode.toNat))]) = true)
        ∧ (({ opcode := e.2, addr := 0x1FFFF0 } : Packet).addr.toNat % (atomicWidth ({ opcode := e.2, addr := 0x1FFFF0 } : Packet).opcode.toNat) = 0) ∧ (checkPacket (sM : State) ({ opcode := e.2, addr := 0x1FFFF0 } : Packet) (atomicWidth ({ opcode := e.2, addr := 0x1FFFF0 } : Packet).opcode.toNat) .atomic = .ok (.larder [((0x247FFFF0 : Nat), (atomicWidth ({ opcode := e.2, addr := 0x1FFFF0 } : Packet).opcode.toNat))])) ∧ ((sM : State).larder.badWord = []) ∧ ((sM : State).larder.memWf = true)) e he
    exact ⟨h.1, served_of h.2.1, h.2.2⟩⟩),
  (fun e he => ⟨sM, { opcode := e.2, addr := arr }, 0, by
    have h := (by decide +kernel : ∀ e ∈ ([(.atFadd64, 0x08), (.atSwap64, 0x09), (.atCas64, 0x0A), (.atCas128, 0x0B),
        (.atFaddFp32, 0x0C), (.atFaddBf16, 0x0D)] : List ((Packet → Instr) × BitVec 8)),
        (({ opcode := e.2, addr := arr } : Packet).opcode = e.2)
        ∧ (servedB (sM : State) ({ opcode := e.2, addr := arr } : Packet) (.array (0 : Nat)) = true)
        ∧ (({ opcode := e.2, addr := arr } : Packet).addr.toNat % (atomicWidth ({ opcode := e.2, addr := arr } : Packet).opcode.toNat) = 0) ∧ (checkPacket (sM : State) ({ opcode := e.2, addr := arr } : Packet) (atomicWidth ({ opcode := e.2, addr := arr } : Packet).opcode.toNat) .atomic = .ok (.array (0 : Nat))) ∧ ((sM : State).work.badWord = []) ∧ ((sM : State).work.memWf = true)) e he
    exact ⟨h.1, served_of h.2.1, h.2.2⟩⟩)⟩

/-- Every clause of LarderControllersScrubRetire has a state and operands that meet its hypotheses. -/
theorem test_witness_larderControllersScrubRetire :
  (∃ (s : State) (st : Nat), nextReq s st = none)
  ∧ (∃ (s : State) (st : Nat) (i : Nat), nextReq s st = some (i, none))
  ∧ (∃ (s : State) (st : Nat) (i : Nat) (r : LarderReq), nextReq s st = some (i, some r))
  ∧ (∃ (s : State) (st : Nat) (i : Nat) (r : LarderReq), nextReq s st = some (i, some r))
  ∧ (∃ (s : State) (st : StackId) (r : LarderReq), tblGet [] s.larder.waiting st.val = [r] ∧ s.larder.fills = []
      ∧ mayStartReq s r = true ∧ tblWf [] s.larder.waiting = true)
  ∧ (∃ (s : State) (st : Nat) (n : Nat) (x : Nat) (f : Fill) (a : Nat), s.larder.fills = [f] ∧ fillLine f st = some (n, x)
      ∧ a / 256 = x)
  ∧ (∃ (s : State) (st : Nat) (n : Nat) (x : Nat) (f : Fill) (a : Nat), s.larder.fills = [f] ∧ fillLine f st = some (n, x)
      ∧ a / 256 ≠ x)
  ∧ (∃ (s : State) (st : StackId), tblGet [] s.larder.waiting st.val = [] ∧ s.larder.fills = [])
  ∧ (∃ (s : State) (src : BitVec 12) (tag : BitVec 16) (w : WriteTrack),
      (s.items.track.find? (fun t => t.src = src && t.tag = tag) = some w) ∧ ageLimit s + 8 ≤ ageOf s w.last)
  ∧ (∃ (s : State) (src : BitVec 12) (tag : BitVec 16),
      (∀ w ∈ s.items.track, w.src = src → w.tag = tag → ageOf s w.last < ageLimit s + 8))
  ∧ (∃ (s : State) (f : BitVec 20) (r : Retire), (s.larder.retiring.find? (fun r => r.frame = f.toNat) = some r)
      ∧ s.tick.slot = 0 ∧ r.since ≠ s.tick.elapsed)
  ∧ (∃ (s : State) (f : BitVec 20), (s.tick.slot ≠ 0 ∨ ∀ r ∈ s.larder.retiring, r.frame = f.toNat → r.since = s.tick.elapsed))
  ∧ (∃ (s : State) (line : Nat), bit (reg s .larderCfg) 8 = true ∧ line < 7500000000)
  ∧ (∃ (s : State) (line : Nat), (bit (reg s .larderCfg) 8 = false ∨ 7500000000 ≤ line))
  ∧ (∃ (f : BitVec 20), f.toNat < 915527)
  ∧ (∃ (s : State) (f : Nat), (s.larder.retiring.any (fun r => r.frame = f) = false) ∧ s.larder.sparesUsed < 512)
  ∧ (∃ (s : State) (f : Nat), (s.larder.retiring.any (fun r => r.frame = f) = false) ∧ 512 ≤ s.larder.sparesUsed)
  ∧ (∃ (s : State) (f : Nat), (s.larder.retiring.any (fun r => r.frame = f) = true))
  ∧ (∃ (f : BitVec 20), 915527 ≤ f.toNat) :=
  ⟨⟨State.reset, 0, by decide +kernel⟩,
  ⟨{ State.reset with larder.fills := [{ frame := 5, tenant := 0 }] }, 0, 49, by decide +kernel⟩,
  ⟨{ State.reset with larder.waiting := [(0, [⟨0, { opcode := 0x01 }, .larder [(0, 8)], 0, 8, false⟩])] }, 0, 0,
      ⟨0, { opcode := 0x01 }, .larder [(0, 8)], 0, 8, false⟩, by decide +kernel⟩,
  ⟨{ State.reset with larder.waiting := [(0, [⟨0, { opcode := 0x01 }, .larder [(0, 8)], 0, 8, false⟩])] }, 0, 0,
      ⟨0, { opcode := 0x01 }, .larder [(0, 8)], 0, 8, false⟩, by decide +kernel⟩,
  ⟨{ State.reset with larder.waiting := [(0, [⟨0, { opcode := 0x01 }, .larder [(0, 8)], 0, 8, false⟩])] }, 0,
      ⟨0, { opcode := 0x01 }, .larder [(0, 8)], 0, 8, false⟩, by decide +kernel⟩,
  ⟨{ State.reset with larder.fills := [{ frame := 5, tenant := 0 }] }, ((locate 40960).1),
      ((fillLine { frame := 5, tenant := 0 } ((locate 40960).1)).getD (0, 0)).1,
      ((fillLine { frame := 5, tenant := 0 } ((locate 40960).1)).getD (0, 0)).2, { frame := 5, tenant := 0 },
      256 * ((fillLine { frame := 5, tenant := 0 } ((locate 40960).1)).getD (0, 0)).2, by decide +kernel⟩,
  ⟨{ State.reset with larder.fills := [{ frame := 5, tenant := 0 }] }, ((locate 40960).1),
      ((fillLine { frame := 5, tenant := 0 } ((locate 40960).1)).getD (0, 0)).1,
      ((fillLine { frame := 5, tenant := 0 } ((locate 40960).1)).getD (0, 0)).2, { frame := 5, tenant := 0 }, 0,
      by decide +kernel⟩,
  ⟨State.reset, 0, by decide +kernel⟩,
  ⟨{ State.reset with items.track := [⟨3, 4, 0, 8, 0, false⟩], tick.elapsed := 72 }, 3, 4, ⟨3, 4, 0, 8, 0, false⟩,
      by decide +kernel⟩,
  ⟨State.reset, 0, 0, by decide +kernel⟩,
  ⟨{ State.reset with larder.retiring := [{ frame := 9, spare := 2, since := 0 }], tick.elapsed := 1 }, 9,
      { frame := 9, spare := 2, since := 0 }, by decide +kernel⟩,
  ⟨State.reset, 0, by decide +kernel⟩,
  ⟨State.reset, 0, by decide +kernel⟩,
  ⟨setReg State.reset .larderCfg 0 0 0 0x20, 0, by decide +kernel⟩,
  ⟨0, by decide +kernel⟩,
  ⟨State.reset, 0, by decide +kernel⟩,
  ⟨{ State.reset with larder.sparesUsed := 512 }, 0, by decide +kernel⟩,
  ⟨{ State.reset with larder.retiring := [{ frame := 9, spare := 2, since := 0 }], tick.elapsed := 1 }, 9, by decide +kernel⟩,
  ⟨915527, by decide +kernel⟩⟩

set_option maxRecDepth 20000 in
/-- Every clause of HostFlitsAndDataMovement has a state and operands that meet its hypotheses. -/
theorem test_witness_hostFlitsAndDataMovement :
  (∃ (s : State) (flit : List Byte), (s.enz.st = .negotiate ∨ s.enz.st = .active) ∧ flitOk flit = false)
  ∧ (∃ (s : State) (flit : List Byte), ((s.enz.st ≠ .negotiate ∧ s.enz.st ≠ .active) ∨ (flitOk flit = true
      ∧ leAt flit 0 2 % 4096 ≠ s.enz.rxExp.toNat)))
  ∧ (∃ (s : State) (flit : List Byte), (s.enz.st = .negotiate ∨ s.enz.st = .active) ∧ flitOk flit = true
      ∧ leAt flit 0 2 % 4096 = s.enz.rxExp.toNat)
  ∧ (∃ (flit : List Byte), bitsOf (leAt flit 0 4) 25 1 = 0)
  ∧ (∃ (s : State), s.enz.reads = [])
  ∧ (∃ (s : State) (f : HostFrame) (r : HostRead) (k : Fin 512), s.enz.reads = [r] ∧ r.done = false ∧ r.tag = some k
      ∧ k.val = f.tag.toNat ∧ r.got + f.payload.length < r.len)
  ∧ (∃ (s : State) (f : HostFrame) (i : Nat) (r : HostRead),
      (s.enz.reads.findIdx? (fun r => !r.done && (match r.tag with | some t => t.val = f.tag.toNat | none => false)) = some i) ∧ s.enz.reads[i]? = some r)
  ∧ (∃ (s : State) (f : HostFrame) (r : HostRead) (k : Fin 512) (n : BitVec 48), s.enz.reads = [r] ∧ r.use = .doorbell n
      ∧ r.done = false ∧ r.tag = some k ∧ k.val = f.tag.toNat ∧ f.status = stOk ∧ r.fail = none
      ∧ r.len ≤ r.got + f.payload.length)
  ∧ (∃ (s : State) (d : DRef) (f : InFlight) (b : Nat), Startable s d 0x11 f ∧ dmOk f = true ∧ f.pos = 0
      ∧ dmLen f.desc ≤ dmPiece ∧ dmDstHost f.desc = false ∧ isLocal s (dmDst f.desc) = true
      ∧ localCheck s (dTenant s f) (dmDst f.desc) (dmLen f.desc) .wr = .ok (.array b) ∧ s.work.badWord = []
      ∧ s.work.memWf = true)
  ∧ (∃ (s : State) (d : DRef) (f : InFlight) (a : Nat) (b : Nat), Startable s d 0x10 f ∧ dmOk f = true ∧ f.pos = 0
      ∧ dmLen f.desc ≤ dmPiece ∧ dmSrcHost f.desc = false ∧ dmDstHost f.desc = false ∧ isLocal s (dmSrc f.desc) = true
      ∧ isLocal s (dmDst f.desc) = true ∧ localCheck s (dTenant s f) (dmSrc f.desc) (dmLen f.desc) .rd = .ok (.array a)
      ∧ localCheck s (dTenant s f) (dmDst f.desc) (dmLen f.desc) .wr = .ok (.array b) ∧ s.work.badWord = []
      ∧ s.work.memWf = true)
  ∧ (∃ (s : State) (d : DRef) (f : InFlight) (a : Nat), Startable s d 0x12 f ∧ dmOk f = true ∧ f.pos = 0
      ∧ dmLen f.desc ≤ dmPiece ∧ dmSrcHost f.desc = false ∧ isLocal s (dmSrc f.desc) = true
      ∧ localCheck s (dTenant s f) (dmSrc f.desc) (dmLen f.desc) .rd = .ok (.array a) ∧ s.work.badWord = [])
  ∧ (∀ e ∈ ([(.dmCopy, 0x10), (.dmCrc, 0x12)] : List ((DRef → Instr) × BitVec 8)), ∃ (s : State) (d : DRef) (f : InFlight),
      Startable s d e.2 f ∧ dmOk f = true ∧ f.pos = 0 ∧ dmSrcHost f.desc = true)
  ∧ (∀ e ∈ ([(.dmCopy, 0x10), (.dmCrc, 0x12)] : List ((DRef → Instr) × BitVec 8)), ∃ (s : State) (d : DRef) (f : InFlight),
      Startable s d e.2 f ∧ dmOk f = true ∧ f.pos = 0 ∧ dmSrcHost f.desc = false ∧ isLocal s (dmSrc f.desc) = false)
  ∧ (∀ e ∈ ([(.dmCopy, 0x10), (.dmCrc, 0x12)] : List ((DRef → Instr) × BitVec 8)),
      ∃ (s : State) (d : DRef) (f : InFlight) (st : BitVec 8), Startable s d e.2 f ∧ dmOk f = true ∧ f.pos = 0
      ∧ dmSrcHost f.desc = false ∧ isLocal s (dmSrc f.desc) = true
      ∧ localCheck s (dTenant s f) (dmSrc f.desc) (min dmPiece (dmLen f.desc)) .rd = .fail st)
  ∧ (∃ (s : State) (d : DRef) (f : InFlight), Startable s d 0x11 f ∧ dmOk f = true ∧ f.pos = 0 ∧ dmDstHost f.desc = true
      ∧ dmLen f.desc ≤ dmPiece)
  ∧ (∃ (s : State) (d : DRef) (f : InFlight), Startable s d 0x11 f ∧ dmOk f = true ∧ f.pos = 0 ∧ dmDstHost f.desc = false
      ∧ isLocal s (dmDst f.desc) = false)
  ∧ (∃ (s : State) (d : DRef) (f : InFlight) (st : BitVec 8), Startable s d 0x11 f ∧ dmOk f = true ∧ f.pos = 0
      ∧ dmDstHost f.desc = false ∧ isLocal s (dmDst f.desc) = true
      ∧ localCheck s (dTenant s f) (dmDst f.desc) (min dmPiece (dmLen f.desc)) .wr = .fail st)
  ∧ (∀ e ∈ ([(.dmCopy, 0x10), (.dmFill, 0x11), (.dmCrc, 0x12)] : List ((DRef → Instr) × BitVec 8)),
      ∃ (s : State) (d : DRef) (f : InFlight), Startable s d e.2 f ∧ dmOk f = false)
  ∧ (∀ e ∈ ([(.dmAtFadd64, 0x18), (.dmAtSwap64, 0x19), (.dmAtCas64, 0x1A), (.dmAtCas128, 0x1B), (.dmAtFaddFp32, 0x1C),
      (.dmAtFaddBf16, 0x1D)] : List ((DRef → Instr) × BitVec 8)), ∃ (s : State) (d : DRef) (f : InFlight) (b : Nat),
      Startable s d e.2 f ∧ dTarget f.desc = 0xFFFF ∧ dByte f.desc 32 32 / 2 ^ (8 * dmAtBytes (dmAtOp f)) = 0
      ∧ isLocal s (dWord f.desc 24) = true ∧ (dWord f.desc 24).toNat % (atomicWidth (dmAtOp f)) = 0
      ∧ localCheck s (dTenant s f) (dWord f.desc 24) (atomicWidth (dmAtOp f)) .atomic = .ok (.larder [(b,
      (atomicWidth (dmAtOp f)))]) ∧ s.larder.badWord = [] ∧ s.larder.memWf = true)
  ∧ (∀ e ∈ ([(.dmAtFadd64, 0x18), (.dmAtSwap64, 0x19), (.dmAtCas64, 0x1A), (.dmAtCas128, 0x1B), (.dmAtFaddFp32, 0x1C),
      (.dmAtFaddBf16, 0x1D)] : List ((DRef → Instr) × BitVec 8)), ∃ (s : State) (d : DRef) (f : InFlight),
      Startable s d e.2 f ∧ dTarget f.desc = 0xFFFF ∧ dByte f.desc 32 32 / 2 ^ (8 * dmAtBytes (dmAtOp f)) = 0
      ∧ isLocal s (dWord f.desc 24) = true ∧ (dWord f.desc 24).toNat % atomicWidth (dmAtOp f) ≠ 0)
  ∧ (∀ e ∈ ([(.dmAtFadd64, 0x18), (.dmAtSwap64, 0x19), (.dmAtCas64, 0x1A), (.dmAtCas128, 0x1B), (.dmAtFaddFp32, 0x1C),
      (.dmAtFaddBf16, 0x1D)] : List ((DRef → Instr) × BitVec 8)), ∃ (s : State) (d : DRef) (f : InFlight),
      Startable s d e.2 f ∧ (dTarget f.desc ≠ 0xFFFF ∨ dByte f.desc 32 32 / 2 ^ (8 * dmAtBytes (dmAtOp f)) ≠ 0))
  ∧ (∀ e ∈ ([(.dmAtFadd64, 0x18), (.dmAtSwap64, 0x19), (.dmAtCas64, 0x1A), (.dmAtCas128, 0x1B), (.dmAtFaddFp32, 0x1C),
      (.dmAtFaddBf16, 0x1D)] : List ((DRef → Instr) × BitVec 8)), ∃ (s : State) (d : DRef) (f : InFlight),
      Startable s d e.2 f ∧ dTarget f.desc = 0xFFFF ∧ dByte f.desc 32 32 / 2 ^ (8 * dmAtBytes (dmAtOp f)) = 0
      ∧ isLocal s (dWord f.desc 24) = false) :=
  ⟨⟨{ State.reset with enz.st := .active }, [0, 0, 0, 1], by decide +kernel⟩,
  ⟨State.reset, [], by decide +kernel⟩,
  ⟨{ State.reset with enz.st := .active }, leBytes 2 0 ++ List.replicate 194 0 ++ leBytes 4 (crc32 (leBytes 2 0 ++ List.replicate 194 0)).toNat, by decide +kernel⟩,
  ⟨[], by decide +kernel⟩,
  ⟨State.reset, by decide +kernel⟩,
  ⟨{ State.reset with enz.reads := [{ use := .obj d0 0, addr := 0, len := 8, tag := some 2 }] },
      { ftype := 0x02, tag := 2, payload := [1, 2] }, { use := .obj d0 0, addr := 0, len := 8, tag := some 2 }, 2,
      by decide +kernel⟩,
  ⟨{ State.reset with enz.reads := [{ use := .obj d0 0, addr := 0, len := 8, tag := some 2 }] },
      { ftype := 0x02, tag := 2, payload := [1, 2] }, 0, { use := .obj d0 0, addr := 0, len := 8, tag := some 2 },
      by decide +kernel⟩,
  ⟨{ State.reset with enz.reads := [{ use := .doorbell 0, addr := 0, len := 8, tag := some 2 }] },
      { ftype := 0x02, tag := 2, payload := [1, 2, 3, 4, 5, 6, 7, 8] },
      { use := .doorbell 0, addr := 0, len := 8, tag := some 2 }, 2, 0, by decide +kernel⟩,
  ⟨inFlight (fl 0x11 0xFFFF (0 <<< 192 + 0x20000000000 <<< 256 + 16 <<< 320)) sM, d0,
      fl 0x11 0xFFFF (0 <<< 192 + 0x20000000000 <<< 256 + 16 <<< 320), 0,
      ⟨by decide +kernel, by decide +kernel, by decide +kernel⟩, by decide +kernel⟩,
  ⟨inFlight (fl 0x10 0xFFFF (0x20000000000 <<< 192 + 0x20000400000 <<< 256 + 16 <<< 320)) sM, d0,
      fl 0x10 0xFFFF (0x20000000000 <<< 192 + 0x20000400000 <<< 256 + 16 <<< 320), 0, 0x400000,
      ⟨by decide +kernel, by decide +kernel, by decide +kernel⟩, by decide +kernel⟩,
  ⟨inFlight (fl 0x12 0xFFFF (0x20000000000 <<< 192 + 0 <<< 256 + 16 <<< 320)) sM, d0,
      fl 0x12 0xFFFF (0x20000000000 <<< 192 + 0 <<< 256 + 16 <<< 320), 0,
      ⟨by decide +kernel, by decide +kernel, by decide +kernel⟩, by decide +kernel⟩,
  (fun e he => ⟨inFlight (fl e.2.toNat 0xFFFF (0 <<< 192 + 0x20000000000 <<< 256 + 16 <<< 320 + 1 <<< 352)) sM, d0,
      fl e.2.toNat 0xFFFF (0 <<< 192 + 0x20000000000 <<< 256 + 16 <<< 320 + 1 <<< 352),
      (by unfold Startable; decide +kernel : ∀ e ∈ ([(.dmCopy, 0x10), (.dmCrc, 0x12)] : List ((DRef → Instr) × BitVec 8)),
      (Startable (inFlight (fl e.2.toNat 0xFFFF (0 <<< 192 + 0x20000000000 <<< 256 + 16 <<< 320 + 1 <<< 352)) sM : State) (d0 : DRef) e.2 (fl e.2.toNat 0xFFFF (0 <<< 192 + 0x20000000000 <<< 256 + 16 <<< 320 + 1 <<< 352) : InFlight)) ∧ (dmOk (fl e.2.toNat 0xFFFF (0 <<< 192 + 0x20000000000 <<< 256 + 16 <<< 320 + 1 <<< 352) : InFlight) = true) ∧ ((fl e.2.toNat 0xFFFF (0 <<< 192 + 0x20000000000 <<< 256 + 16 <<< 320 + 1 <<< 352) : InFlight).pos = 0) ∧ (dmSrcHost (fl e.2.toNat 0xFFFF (0 <<< 192 + 0x20000000000 <<< 256 + 16 <<< 320 + 1 <<< 352) : InFlight).desc = true)) e he⟩),
  (fun e he => ⟨inFlight (fl e.2.toNat 0xFFFF (0x0010000000000000 <<< 192 + 0x20000000000 <<< 256 + 16 <<< 320)) sM, d0,
      fl e.2.toNat 0xFFFF (0x0010000000000000 <<< 192 + 0x20000000000 <<< 256 + 16 <<< 320),
      (by unfold Startable; decide +kernel : ∀ e ∈ ([(.dmCopy, 0x10), (.dmCrc, 0x12)] : List ((DRef → Instr) × BitVec 8)),
      (Startable (inFlight (fl e.2.toNat 0xFFFF (0x0010000000000000 <<< 192 + 0x20000000000 <<< 256 + 16 <<< 320)) sM : State) (d0 : DRef) e.2 (fl e.2.toNat 0xFFFF (0x0010000000000000 <<< 192 + 0x20000000000 <<< 256 + 16 <<< 320) : InFlight)) ∧ (dmOk (fl e.2.toNat 0xFFFF (0x0010000000000000 <<< 192 + 0x20000000000 <<< 256 + 16 <<< 320) : InFlight) = true) ∧ ((fl e.2.toNat 0xFFFF (0x0010000000000000 <<< 192 + 0x20000000000 <<< 256 + 16 <<< 320) : InFlight).pos = 0) ∧ (dmSrcHost (fl e.2.toNat 0xFFFF (0x0010000000000000 <<< 192 + 0x20000000000 <<< 256 + 16 <<< 320) : InFlight).desc = false) ∧ (isLocal (inFlight (fl e.2.toNat 0xFFFF (0x0010000000000000 <<< 192 + 0x20000000000 <<< 256 + 16 <<< 320)) sM : State) (dmSrc (fl e.2.toNat 0xFFFF (0x0010000000000000 <<< 192 + 0x20000000000 <<< 256 + 16 <<< 320) : InFlight).desc) = false)) e he⟩),
  (fun e he => ⟨inFlight (fl e.2.toNat 0xFFFF (0x200000 <<< 192 + 0x20000000000 <<< 256 + 16 <<< 320)) sM, d0,
      fl e.2.toNat 0xFFFF (0x200000 <<< 192 + 0x20000000000 <<< 256 + 16 <<< 320), stDenied,
      (by unfold Startable; decide +kernel : ∀ e ∈ ([(.dmCopy, 0x10), (.dmCrc, 0x12)] : List ((DRef → Instr) × BitVec 8)),
      (Startable (inFlight (fl e.2.toNat 0xFFFF (0x200000 <<< 192 + 0x20000000000 <<< 256 + 16 <<< 320)) sM : State) (d0 : DRef) e.2 (fl e.2.toNat 0xFFFF (0x200000 <<< 192 + 0x20000000000 <<< 256 + 16 <<< 320) : InFlight)) ∧ (dmOk (fl e.2.toNat 0xFFFF (0x200000 <<< 192 + 0x20000000000 <<< 256 + 16 <<< 320) : InFlight) = true) ∧ ((fl e.2.toNat 0xFFFF (0x200000 <<< 192 + 0x20000000000 <<< 256 + 16 <<< 320) : InFlight).pos = 0) ∧ (dmSrcHost (fl e.2.toNat 0xFFFF (0x200000 <<< 192 + 0x20000000000 <<< 256 + 16 <<< 320) : InFlight).desc = false) ∧ (isLocal (inFlight (fl e.2.toNat 0xFFFF (0x200000 <<< 192 + 0x20000000000 <<< 256 + 16 <<< 320)) sM : State) (dmSrc (fl e.2.toNat 0xFFFF (0x200000 <<< 192 + 0x20000000000 <<< 256 + 16 <<< 320) : InFlight).desc) = true) ∧ (localCheck (inFlight (fl e.2.toNat 0xFFFF (0x200000 <<< 192 + 0x20000000000 <<< 256 + 16 <<< 320)) sM : State) (dTenant (inFlight (fl e.2.toNat 0xFFFF (0x200000 <<< 192 + 0x20000000000 <<< 256 + 16 <<< 320)) sM : State) (fl e.2.toNat 0xFFFF (0x200000 <<< 192 + 0x20000000000 <<< 256 + 16 <<< 320) : InFlight)) (dmSrc (fl e.2.toNat 0xFFFF (0x200000 <<< 192 + 0x20000000000 <<< 256 + 16 <<< 320) : InFlight).desc) (min dmPiece (dmLen (fl e.2.toNat 0xFFFF (0x200000 <<< 192 + 0x20000000000 <<< 256 + 16 <<< 320) : InFlight).desc)) .rd = .fail (stDenied : BitVec 8))) e he⟩),
  ⟨inFlight (fl 0x11 0xFFFF (0 <<< 192 + 0x20000000000 <<< 256 + 16 <<< 320 + 1 <<< 353)) sM, d0,
      fl 0x11 0xFFFF (0 <<< 192 + 0x20000000000 <<< 256 + 16 <<< 320 + 1 <<< 353),
      ⟨by decide +kernel, by decide +kernel, by decide +kernel⟩, by decide +kernel⟩,
  ⟨inFlight (fl 0x11 0xFFFF (0 <<< 192 + 0x0010000000000000 <<< 256 + 16 <<< 320)) sM, d0,
      fl 0x11 0xFFFF (0 <<< 192 + 0x0010000000000000 <<< 256 + 16 <<< 320),
      ⟨by decide +kernel, by decide +kernel, by decide +kernel⟩, by decide +kernel⟩,
  ⟨inFlight (fl 0x11 0xFFFF (0 <<< 192 + 0x200000 <<< 256 + 16 <<< 320)) sM, d0,
      fl 0x11 0xFFFF (0 <<< 192 + 0x200000 <<< 256 + 16 <<< 320), stDenied,
      ⟨by decide +kernel, by decide +kernel, by decide +kernel⟩, by decide +kernel⟩,
  (fun e he => ⟨inFlight (fl e.2.toNat) sM, d0, fl e.2.toNat,
      (by unfold Startable; decide +kernel : ∀ e ∈ ([(.dmCopy, 0x10), (.dmFill, 0x11),
      (.dmCrc, 0x12)] : List ((DRef → Instr) × BitVec 8)),
      (Startable (inFlight (fl e.2.toNat) sM : State) (d0 : DRef) e.2 (fl e.2.toNat : InFlight))
      ∧ (dmOk (fl e.2.toNat : InFlight) = false)) e he⟩),
  (fun e he => ⟨inFlight (fl e.2.toNat 0xFFFF (0x1FFFF0 <<< 192)) sM, d0, fl e.2.toNat 0xFFFF (0x1FFFF0 <<< 192), 0x247FFFF0,
      (by unfold Startable; decide +kernel : ∀ e ∈ ([(.dmAtFadd64, 0x18), (.dmAtSwap64, 0x19), (.dmAtCas64, 0x1A),
      (.dmAtCas128, 0x1B), (.dmAtFaddFp32, 0x1C), (.dmAtFaddBf16, 0x1D)] : List ((DRef → Instr) × BitVec 8)),
      (Startable (inFlight (fl e.2.toNat 0xFFFF (0x1FFFF0 <<< 192)) sM : State) (d0 : DRef) e.2 (fl e.2.toNat 0xFFFF (0x1FFFF0 <<< 192) : InFlight)) ∧ (dTarget (fl e.2.toNat 0xFFFF (0x1FFFF0 <<< 192) : InFlight).desc = 0xFFFF) ∧ (dByte (fl e.2.toNat 0xFFFF (0x1FFFF0 <<< 192) : InFlight).desc 32 32 / 2 ^ (8 * dmAtBytes (dmAtOp (fl e.2.toNat 0xFFFF (0x1FFFF0 <<< 192) : InFlight))) = 0) ∧ (isLocal (inFlight (fl e.2.toNat 0xFFFF (0x1FFFF0 <<< 192)) sM : State) (dWord (fl e.2.toNat 0xFFFF (0x1FFFF0 <<< 192) : InFlight).desc 24) = true) ∧ ((dWord (fl e.2.toNat 0xFFFF (0x1FFFF0 <<< 192) : InFlight).desc 24).toNat % (atomicWidth (dmAtOp (fl e.2.toNat 0xFFFF (0x1FFFF0 <<< 192) : InFlight))) = 0) ∧ (localCheck (inFlight (fl e.2.toNat 0xFFFF (0x1FFFF0 <<< 192)) sM : State) (dTenant (inFlight (fl e.2.toNat 0xFFFF (0x1FFFF0 <<< 192)) sM : State) (fl e.2.toNat 0xFFFF (0x1FFFF0 <<< 192) : InFlight)) (dWord (fl e.2.toNat 0xFFFF (0x1FFFF0 <<< 192) : InFlight).desc 24) (atomicWidth (dmAtOp (fl e.2.toNat 0xFFFF (0x1FFFF0 <<< 192) : InFlight))) .atomic = .ok (.larder [((0x247FFFF0 : Nat), (atomicWidth (dmAtOp (fl e.2.toNat 0xFFFF (0x1FFFF0 <<< 192) : InFlight))))])) ∧ ((inFlight (fl e.2.toNat 0xFFFF (0x1FFFF0 <<< 192)) sM : State).larder.badWord = []) ∧ ((inFlight (fl e.2.toNat 0xFFFF (0x1FFFF0 <<< 192)) sM : State).larder.memWf = true)) e he⟩),
  (fun e he => ⟨inFlight (fl e.2.toNat 0xFFFF (0x1FFFF1 <<< 192)) sM, d0, fl e.2.toNat 0xFFFF (0x1FFFF1 <<< 192),
      (by unfold Startable; decide +kernel : ∀ e ∈ ([(.dmAtFadd64, 0x18), (.dmAtSwap64, 0x19), (.dmAtCas64, 0x1A),
      (.dmAtCas128, 0x1B), (.dmAtFaddFp32, 0x1C), (.dmAtFaddBf16, 0x1D)] : List ((DRef → Instr) × BitVec 8)),
      (Startable (inFlight (fl e.2.toNat 0xFFFF (0x1FFFF1 <<< 192)) sM : State) (d0 : DRef) e.2 (fl e.2.toNat 0xFFFF (0x1FFFF1 <<< 192) : InFlight)) ∧ (dTarget (fl e.2.toNat 0xFFFF (0x1FFFF1 <<< 192) : InFlight).desc = 0xFFFF) ∧ (dByte (fl e.2.toNat 0xFFFF (0x1FFFF1 <<< 192) : InFlight).desc 32 32 / 2 ^ (8 * dmAtBytes (dmAtOp (fl e.2.toNat 0xFFFF (0x1FFFF1 <<< 192) : InFlight))) = 0) ∧ (isLocal (inFlight (fl e.2.toNat 0xFFFF (0x1FFFF1 <<< 192)) sM : State) (dWord (fl e.2.toNat 0xFFFF (0x1FFFF1 <<< 192) : InFlight).desc 24) = true) ∧ ((dWord (fl e.2.toNat 0xFFFF (0x1FFFF1 <<< 192) : InFlight).desc 24).toNat % atomicWidth (dmAtOp (fl e.2.toNat 0xFFFF (0x1FFFF1 <<< 192) : InFlight)) ≠ 0)) e he⟩),
  (fun e he => ⟨inFlight (fl e.2.toNat) (State.reset), d0, fl e.2.toNat,
      (by unfold Startable; decide +kernel : ∀ e ∈ ([(.dmAtFadd64, 0x18), (.dmAtSwap64, 0x19), (.dmAtCas64, 0x1A),
      (.dmAtCas128, 0x1B), (.dmAtFaddFp32, 0x1C), (.dmAtFaddBf16, 0x1D)] : List ((DRef → Instr) × BitVec 8)),
      (Startable (inFlight (fl e.2.toNat) (State.reset) : State) (d0 : DRef) e.2 (fl e.2.toNat : InFlight))
      ∧ (dTarget (fl e.2.toNat : InFlight).desc ≠ 0xFFFF ∨ dByte (fl e.2.toNat : InFlight).desc 32 32 / 2 ^ (8 * dmAtBytes (dmAtOp (fl e.2.toNat : InFlight))) ≠ 0)) e he⟩),
  (fun e he => ⟨inFlight (fl e.2.toNat 0xFFFF (0x0010000000000000 <<< 192)) sM, d0,
      fl e.2.toNat 0xFFFF (0x0010000000000000 <<< 192),
      (by unfold Startable; decide +kernel : ∀ e ∈ ([(.dmAtFadd64, 0x18), (.dmAtSwap64, 0x19), (.dmAtCas64, 0x1A),
      (.dmAtCas128, 0x1B), (.dmAtFaddFp32, 0x1C), (.dmAtFaddBf16, 0x1D)] : List ((DRef → Instr) × BitVec 8)),
      (Startable (inFlight (fl e.2.toNat 0xFFFF (0x0010000000000000 <<< 192)) sM : State) (d0 : DRef) e.2 (fl e.2.toNat 0xFFFF (0x0010000000000000 <<< 192) : InFlight)) ∧ (dTarget (fl e.2.toNat 0xFFFF (0x0010000000000000 <<< 192) : InFlight).desc = 0xFFFF) ∧ (dByte (fl e.2.toNat 0xFFFF (0x0010000000000000 <<< 192) : InFlight).desc 32 32 / 2 ^ (8 * dmAtBytes (dmAtOp (fl e.2.toNat 0xFFFF (0x0010000000000000 <<< 192) : InFlight))) = 0) ∧ (isLocal (inFlight (fl e.2.toNat 0xFFFF (0x0010000000000000 <<< 192)) sM : State) (dWord (fl e.2.toNat 0xFFFF (0x0010000000000000 <<< 192) : InFlight).desc 24) = false)) e he⟩)⟩

/-- Every clause of CollectivesStartAndArrive has a state and operands that meet its hypotheses. -/
theorem test_witness_collectivesStartAndArrive :
  (∃ (s : State) (i : PortId) (p : Packet) (j : Nat) (m : Template), p.opcode = 0x20 ∧ mayTakeIn s i p = true
      ∧ senderOf (gEntry s (cGroup p)) i p = .member j ∧ memberCheck s (cGroup p) (gEntry s (cGroup p)) (.member j) p = none
      ∧ fnSt s (.group (cGroup p)) = .on ∧ opOf s (cGroup p) (cSlot p) = none ∧ cSeq p = nextSeq s (cGroup p) (cSlot p)
      ∧ s.attic.draining = false ∧ tblGet none (groupOf (settleTemplates (cGroup p) s) (cGroup p)).tmpl (cTmpl p) = some m)
  ∧ (∃ (s : State) (i : PortId) (p : Packet) (j : Nat), p.opcode = 0x20 ∧ mayTakeIn s i p = true
      ∧ senderOf (gEntry s (cGroup p)) i p = .member j ∧ memberCheck s (cGroup p) (gEntry s (cGroup p)) (.member j) p = none
      ∧ fnSt s (.group (cGroup p)) = .on ∧ opOf s (cGroup p) (cSlot p) = none ∧ cSeq p = nextSeq s (cGroup p) (cSlot p)
      ∧ s.attic.draining = false ∧ tblGet none (groupOf (settleTemplates (cGroup p) s) (cGroup p)).tmpl (cTmpl p) = none)
  ∧ (∃ (s : State) (i : PortId) (p : Packet) (j : Nat) (m : Template), p.opcode = 0x20 ∧ mayTakeIn s i p = true
      ∧ senderOf (gEntry s (cGroup p)) i p = .member j ∧ memberCheck s (cGroup p) (gEntry s (cGroup p)) (.member j) p = none
      ∧ fnSt s (.group (cGroup p)) = .on ∧ opOf s (cGroup p) (cSlot p) = none ∧ cSeq p = nextSeq s (cGroup p) (cSlot p)
      ∧ s.attic.draining = false ∧ (groupOf s (cGroup p)).waiting = [] ∧ (groupOf s (cGroup p)).held = false
      ∧ tblGet none (groupOf s (cGroup p)).tmpl (cTmpl p) = some m ∧ m.outSpec.coding = 0 ∧ m.kind ≠ 5
      ∧ 2 ≤ gLocal (gEntry s (cGroup p)) ∧ tblWf {} s.hawk.group = true)
  ∧ (∃ (s : State) (i : PortId) (p : Packet) (j : Nat) (o : CollOp), p.opcode = 0x20 ∧ mayTakeIn s i p = true
      ∧ senderOf (gEntry s (cGroup p)) i p = .member j ∧ memberCheck s (cGroup p) (gEntry s (cGroup p)) (.member j) p = none
      ∧ fnSt s (.group (cGroup p)) = .on ∧ opOf s (cGroup p) (cSlot p) = some o ∧ o.s = cSeq p ∧ o.starts.contains j = false
      ∧ o.tmplIdx = cTmpl p)
  ∧ (∃ (s : State) (i : PortId) (p : Packet) (j : Nat) (o : CollOp), p.opcode = 0x20 ∧ mayTakeIn s i p = true
      ∧ senderOf (gEntry s (cGroup p)) i p = .member j ∧ memberCheck s (cGroup p) (gEntry s (cGroup p)) (.member j) p = none
      ∧ fnSt s (.group (cGroup p)) = .on ∧ opOf s (cGroup p) (cSlot p) = some o ∧ cSeq p = o.s + 16)
  ∧ (∃ (s : State) (i : PortId) (p : Packet) (j : Nat) (o : CollOp), p.opcode = 0x20 ∧ mayTakeIn s i p = true
      ∧ senderOf (gEntry s (cGroup p)) i p = .member j ∧ memberCheck s (cGroup p) (gEntry s (cGroup p)) (.member j) p = none
      ∧ fnSt s (.group (cGroup p)) = .on ∧ opOf s (cGroup p) (cSlot p) = some o ∧ cSeq p ≠ o.s ∧ cSeq p ≠ o.s + 16)
  ∧ (∃ (s : State) (g : Fin 1024) (q : Fin 16) (i : PortId) (p : Packet), opOf s g q = none
      ∧ ((tieInputs s).findSome? (fun k => ((inPort s k).queue.find? (fun e => e.kind = .contrib && e.pkt.opcode = 0x20 && cGroup e.pkt = g && cSlot e.pkt = q && inFront s k e)).map (fun e => (k, e.pkt))) = some (i, p)))
  ∧ (∃ (s : State) (g : Fin 1024) (q : Fin 16), ((opOf s g q).isSome = true ∨ ∀ k : PortId, ∀ e ∈ (inPort s k).queue,
      e.pkt.opcode = 0x20 → ¬ (cGroup e.pkt = g ∧ cSlot e.pkt = q)))
  ∧ (∃ (s : State) (i : PortId) (p : Packet) (o : CollOp) (j : Nat), p.opcode = 0x22 ∧ mayTakeIn s i p = true
      ∧ opOf s (cGroup p) (cSlot p) = some o ∧ o.s.setWidth 16 = p.tag ∧ senderOf o.entry i p = .member j
      ∧ memberCheck s (cGroup p) o.entry (.member j) p = none ∧ o.tmpl.kind = 4)
  ∧ (∃ (s : State) (i : PortId) (p : Packet) (o : CollOp) (r : Nat), p.opcode = 0x22 ∧ mayTakeIn s i p = true
      ∧ opOf s (cGroup p) (cSlot p) = some o ∧ o.s.setWidth 16 = p.tag ∧ senderOf o.entry i p = .peer r
      ∧ memberCheck s (cGroup p) o.entry (.peer r) p = none ∧ o.tmpl.kind = 4)
  ∧ (∃ (s : State) (i : PortId) (p : Packet) (o : CollOp) (j : Nat) (k : Nat), p.opcode = 0x22 ∧ mayTakeIn s i p = true
      ∧ opOf s (cGroup p) (cSlot p) = some o ∧ o.s.setWidth 16 = p.tag ∧ gMember o.entry i.val p.src = some j
      ∧ memberCheck s (cGroup p) o.entry (.member j) p = none ∧ o.tmpl.kind = 4 ∧ o.ended = [] ∧ o.arrived.contains j = false
      ∧ k < gLocal o.entry ∧ k ≠ j ∧ o.arrived.contains k = false)
  ∧ (∃ (s : State) (i : PortId) (p : Packet) (o : CollOp) (j : Nat), p.opcode = 0x23 ∧ mayTakeIn s i p = true
      ∧ opOf s (cGroup p) (cSlot p) = some o ∧ o.s.setWidth 16 = p.tag ∧ gMember o.entry i.val p.src = some j
      ∧ memberCheck s (cGroup p) o.entry (.member j) p = none ∧ o.tmpl.kind = 5 ∧ tblGet [] o.counts j = []
      ∧ (((upFrom 0 (gLocal o.entry)).all (fun x => !(tblGet [] ({ o with counts := tblSet [] o.counts j (countsOf (gLocal o.entry) p) }).counts x).isEmpty)) = false))
  ∧ (∃ (s : State) (i : PortId) (p : Packet) (o : CollOp) (j : Nat), p.opcode = 0x23 ∧ mayTakeIn s i p = true
      ∧ opOf s (cGroup p) (cSlot p) = some o ∧ o.s.setWidth 16 = p.tag ∧ gMember o.entry i.val p.src = some j
      ∧ memberCheck s (cGroup p) o.entry (.member j) p = none ∧ o.tmpl.kind = 5 ∧ tblGet [] o.counts j = []
      ∧ (((upFrom 0 (gLocal o.entry)).all (fun x => !(tblGet [] ({ o with counts := tblSet [] o.counts j (countsOf (gLocal o.entry) p) }).counts x).isEmpty)) = true) ∧ countsOk ({ o with counts := tblSet [] o.counts j (countsOf (gLocal o.entry) p) }) = true)
  ∧ (∃ (s : State) (i : PortId) (p : Packet) (o : CollOp) (j : Nat), p.opcode = 0x23 ∧ mayTakeIn s i p = true
      ∧ opOf s (cGroup p) (cSlot p) = some o ∧ o.s.setWidth 16 = p.tag ∧ gMember o.entry i.val p.src = some j
      ∧ memberCheck s (cGroup p) o.entry (.member j) p = none ∧ o.tmpl.kind = 5 ∧ tblGet [] o.counts j = []
      ∧ (((upFrom 0 (gLocal o.entry)).all (fun x => !(tblGet [] ({ o with counts := tblSet [] o.counts j (countsOf (gLocal o.entry) p) }).counts x).isEmpty)) = true) ∧ countsOk ({ o with counts := tblSet [] o.counts j (countsOf (gLocal o.entry) p) }) = false)
  ∧ (∃ (s : State) (i : PortId) (p : Packet) (o : CollOp) (j : Nat) (k : Nat), p.opcode = 0x23 ∧ mayTakeIn s i p = true
      ∧ opOf s (cGroup p) (cSlot p) = some o ∧ o.s.setWidth 16 = p.tag ∧ gMember o.entry i.val p.src = some j
      ∧ memberCheck s (cGroup p) o.entry (.member j) p = none ∧ o.tmpl.kind = 5 ∧ p.payLen.toNat = 4 * gLocal o.entry
      ∧ tblGet [] o.counts j = [] ∧ k < gLocal o.entry ∧ k ≠ j ∧ tblGet [] o.counts k = [])
  ∧ (∃ (s : State) (g : Fin 1024) (q : Fin 16) (o : CollOp), opOf s g q = some o ∧ o.tmpl.opLimit ≤ ageOf s o.bound
      ∧ tblWf {} s.hawk.group = true ∧ tblWf none (groupOf s g).ops = true)
  ∧ (∃ (s : State) (g : Fin 1024) (q : Fin 16), (∀ o, opOf s g q = some o → ageOf s o.bound < o.tmpl.opLimit)) :=
  ⟨⟨sG { tmpl := [(3, some (tmpl 0))] }, 0, { opcode := 0x20, src := 0x11, addr := 0x300000000 }, 0, tmpl 0,
      by decide +kernel⟩,
  ⟨sG {}, 0, { opcode := 0x20, src := 0x11, addr := 0x300000000 }, 0, by decide +kernel⟩,
  ⟨sG { tmpl := [(3, some (tmpl 0))] }, 0, { opcode := 0x20, src := 0x11, addr := 0x300000000 }, 0, tmpl 0,
      by decide +kernel⟩,
  ⟨sG { ops := [(0, some (op0 0))] }, 0, { opcode := 0x20, src := 0x11, addr := 0 }, 0, op0 0, by decide +kernel⟩,
  ⟨sG { ops := [(0, some (op0 0))] }, 0, { opcode := 0x20, src := 0x11, addr := 16 }, 0, op0 0, by decide +kernel⟩,
  ⟨sG { ops := [(0, some (op0 0))] }, 0, { opcode := 0x20, src := 0x11, addr := 1 }, 0, op0 0, by decide +kernel⟩,
  ⟨setIn State.reset 5 { queue := [{ ip0 with kind := .contrib, pkt := { opcode := 0x20 } }] }, 0, 0, 5, { opcode := 0x20 },
      by decide +kernel⟩,
  ⟨sE, 0, 0, by decide +kernel⟩,
  ⟨sG { ops := [(0, some (op0 4))] }, 0, { opcode := 0x22, src := 0x11, addr := 0 }, op0 4, 0, by decide +kernel⟩,
  ⟨sG { ops := [(0, some ({ op0 4 with entry := eG + 1 <<< 32 + 0x13 <<< 3360 }))] }, 0, { opcode := 0x22, src := 0x13 },
      { op0 4 with entry := eG + 1 <<< 32 + 0x13 <<< 3360 }, 1, by decide +kernel⟩,
  ⟨sG { ops := [(0, some (op0 4))] }, 0, { opcode := 0x22, src := 0x11, addr := 0 }, op0 4, 0, 1, by decide +kernel⟩,
  ⟨sG { ops := [(0, some (op0 5))] }, 0, { opcode := 0x23, src := 0x11, payLen := 8, payload := List.replicate 8 0 }, op0 5,
      0, by decide +kernel⟩,
  ⟨sG { ops := [(0, some ({ op0 5 with counts := [(1, [0, 0])], tmpl := { tmpl 5 with members := [⟨0, 0, 0⟩, ⟨0, 0, 0⟩] } }))] }, 0, { opcode := 0x23, src := 0x11, payLen := 8, payload := List.replicate 8 0 }, { op0 5 with counts := [(1, [0, 0])], tmpl := { tmpl 5 with members := [⟨0, 0, 0⟩, ⟨0, 0, 0⟩] } }, 0, by decide +kernel⟩,
  ⟨sG { ops := [(0, some ({ op0 5 with counts := [(1, [0, 0])], tmpl := { tmpl 5 with members := [] } }))] }, 0,
      { opcode := 0x23, src := 0x11, payLen := 8, payload := List.replicate 8 0 },
      { op0 5 with counts := [(1, [0, 0])], tmpl := { tmpl 5 with members := [] } }, 0, by decide +kernel⟩,
  ⟨sG { ops := [(0, some (op0 5))] }, 0, { opcode := 0x23, src := 0x11, payLen := 8, payload := List.replicate 8 0 }, op0 5,
      0, 1, by decide +kernel⟩,
  ⟨{ (sG { ops := [(0, some (op0 0))] }) with tick.elapsed := 0x100000 }, 0, 0, op0 0, by decide +kernel⟩,
  ⟨State.reset, 0, 0, some_all (by decide +kernel)⟩⟩

/-- Every clause of ContributionIsAdded has a state and operands that meet its hypotheses. -/
theorem test_witness_contributionIsAdded :
  (∃ (s : State) (i : PortId) (p : Packet) (o : CollOp) (w : Sender), p.opcode = 0x21 ∧ mayTakeIn s i p = true
      ∧ opOf s (cGroup p) (cSlot p) = some o ∧ o.s.setWidth 16 = p.tag ∧ senderOf o.entry i p = w ∧ w ≠ .stranger
      ∧ memberCheck s (cGroup p) o.entry w p = none ∧ o.tmpl.kind < 4 ∧ contribOk o w p = false)
  ∧ (∃ (s : State) (i : PortId) (p : Packet) (o : CollOp) (w : Sender), p.opcode = 0x21 ∧ mayTakeIn s i p = true
      ∧ opOf s (cGroup p) (cSlot p) = some o ∧ o.s.setWidth 16 = p.tag ∧ senderOf o.entry i p = w ∧ w ≠ .stranger
      ∧ memberCheck s (cGroup p) o.entry w p = none ∧ o.tmpl.kind < 4 ∧ contribOk o w p = true
      ∧ (o.tmpl.kind < 2 ∨ (∃ r, w = .peer r) ∨ entryBad s i p = true))
  ∧ (∃ (s : State) (i : PortId) (p : Packet) (o : CollOp) (w : Sender) (j : Nat), p.opcode = 0x21 ∧ mayTakeIn s i p = true
      ∧ opOf s (cGroup p) (cSlot p) = some o ∧ o.s.setWidth 16 = p.tag ∧ senderOf o.entry i p = w ∧ w ≠ .stranger
      ∧ memberCheck s (cGroup p) o.entry w p = none ∧ w = .member j ∧ 2 ≤ o.tmpl.kind ∧ o.tmpl.kind < 4
      ∧ contribOk o w p = true ∧ entryBad s i p = false)
  ∧ (∃ (s : State) (i : PortId) (p : Packet) (o : CollOp) (w : Sender), p.opcode = 0x21 ∧ mayTakeIn s i p = true
      ∧ opOf s (cGroup p) (cSlot p) = some o ∧ o.s.setWidth 16 = p.tag ∧ senderOf o.entry i p = w ∧ w ≠ .stranger
      ∧ memberCheck s (cGroup p) o.entry w p = none ∧ o.tmpl.kind = 4)
  ∧ (∃ (s : State) (i : PortId) (p : Packet) (o : CollOp) (w : Sender) (j : Nat), p.opcode = 0x21 ∧ mayTakeIn s i p = true
      ∧ opOf s (cGroup p) (cSlot p) = some o ∧ o.s.setWidth 16 = p.tag ∧ senderOf o.entry i p = w ∧ w ≠ .stranger
      ∧ memberCheck s (cGroup p) o.entry w p = none ∧ w = .member j ∧ o.tmpl.kind = 5)
  ∧ (∃ (s : State) (i : PortId) (p : Packet), mayTakeIn s i p = true ∧ opOf s (cGroup p) (cSlot p) = none
      ∧ tblGet none (groupOf s (cGroup p)).last (cSlot p).val = none
      ∧ memberCheck s (cGroup p) (gEntry s (cGroup p)) (senderOf (gEntry s (cGroup p)) i p) p = none
      ∧ senderOf (gEntry s (cGroup p)) i p ≠ .stranger ∧ p.opcode = 0x21)
  ∧ (∃ (s : State) (i : PortId) (p : Packet), mayTakeIn s i p = true ∧ opOf s (cGroup p) (cSlot p) = none
      ∧ tblGet none (groupOf s (cGroup p)).last (cSlot p).val = none
      ∧ memberCheck s (cGroup p) (gEntry s (cGroup p)) (senderOf (gEntry s (cGroup p)) i p) p = none
      ∧ senderOf (gEntry s (cGroup p)) i p ≠ .stranger ∧ p.opcode = 0x22)
  ∧ (∃ (s : State) (i : PortId) (p : Packet), mayTakeIn s i p = true ∧ opOf s (cGroup p) (cSlot p) = none
      ∧ tblGet none (groupOf s (cGroup p)).last (cSlot p).val = none
      ∧ memberCheck s (cGroup p) (gEntry s (cGroup p)) (senderOf (gEntry s (cGroup p)) i p) p = none
      ∧ senderOf (gEntry s (cGroup p)) i p ≠ .stranger ∧ p.opcode = 0x23)
  ∧ (∃ (s : State) (i : PortId) (p : Packet), mayTakeIn s i p = true ∧ opOf s (cGroup p) (cSlot p) = none
      ∧ tblGet none (groupOf s (cGroup p)).last (cSlot p).val = none
      ∧ memberCheck s (cGroup p) (gEntry s (cGroup p)) (senderOf (gEntry s (cGroup p)) i p) p = none
      ∧ senderOf (gEntry s (cGroup p)) i p = .stranger ∧ p.opcode = 0x21)
  ∧ (∃ (s : State) (a : Contrib) (c : Cell) (o : CollOp) (r : TileRec), c.adm = some a ∧ c.bad = false
      ∧ opOf s a.g a.q = some o ∧ o.s = a.s ∧ tileOf s a.g a.q a.tile = some r ∧ o.tmpl.arith ≠ .ordered
      ∧ bit (posOf r a.stage2 (a.c0 + c.idx)).map a.idx = false ∧ (posOf r a.stage2 (a.c0 + c.idx)).done = false
      ∧ addedNow s (addSlice o a.g a.q a.stage2 a.tile (a.c0 + c.idx)) = true)
  ∧ (∃ (s : State) (a : Contrib) (c : Cell) (errs : List PortId) (o : CollOp) (r : TileRec), c.adm = some a ∧ c.bad = false
      ∧ opOf s a.g a.q = some o ∧ o.s = a.s ∧ tileOf s a.g a.q a.tile = some r ∧ o.tmpl.arith ≠ .ordered
      ∧ bit (posOf r a.stage2 (a.c0 + c.idx)).map a.idx = false ∧ (posOf r a.stage2 (a.c0 + c.idx)).done = false
      ∧ addedNow s (addSlice o a.g a.q a.stage2 a.tile (a.c0 + c.idx)) = false
      ∧ (addSlice o a.g a.q a.stage2 a.tile (a.c0 + c.idx)) ∉ errs)
  ∧ (∃ (s : State) (g : Fin 1024) (q : Fin 16) (o : CollOp) (r : TileRec) (tile : Nat) (c : Nat) (j : Nat) (stage2 : Bool),
      opOf s g q = some o ∧ tileOf s g q tile = some r ∧ j < 128 ∧ bit (posOf r stage2 c).map j = false
      ∧ (posOf r stage2 c).done = false ∧ o.tmpl.arith ≠ .ordered ∧ (posOf r stage2 c).next + 1 ≠ contributors o stage2 tile)
  ∧ (∃ (s : State) (g : Fin 1024) (q : Fin 16) (o : CollOp) (r : TileRec) (tile : Nat) (c : Nat) (j : Nat) (stage2 : Bool),
      opOf s g q = some o ∧ tileOf s g q tile = some r ∧ j < 128
      ∧ (bit (posOf r stage2 c).map j = true ∨ (posOf r stage2 c).done = true))
  ∧ (∃ (s : State) (g : Fin 1024) (q : Fin 16) (o : CollOp) (r : TileRec) (tile : Nat) (c : Nat) (j : Nat) (stage2 : Bool),
      opOf s g q = some o ∧ tileOf s g q tile = some r ∧ j < 128 ∧ bit (posOf r stage2 c).map j = false
      ∧ (posOf r stage2 c).done = false ∧ o.tmpl.arith = .ordered ∧ (posOf r stage2 c).next ≠ j) :=
  ⟨⟨sG { ops := [(0, some ({ op0 0 with tmpl := { tmpl 0 with inFmt := 2, outFmt := 2 }, tiles := [tile0] }))] }, 0,
      { opcode := 0x21, src := 0x11, addr := 1, payLen := 256, payload := List.replicate 256 0 },
      { op0 0 with tmpl := { tmpl 0 with inFmt := 2, outFmt := 2 }, tiles := [tile0] }, .member 0, by decide +kernel⟩,
  ⟨sG { ops := [(0, some ({ op0 0 with tmpl := { tmpl 0 with inFmt := 2, outFmt := 2 }, tiles := [tile0] }))] }, 0,
      { opcode := 0x21, src := 0x11, addr := 0, payLen := 256, payload := List.replicate 256 0 },
      { op0 0 with tmpl := { tmpl 0 with inFmt := 2, outFmt := 2 }, tiles := [tile0] }, .member 0, by decide +kernel,
      by decide +kernel, by decide +kernel, by decide +kernel, by decide +kernel, by decide +kernel, by decide +kernel,
      by decide +kernel, by decide +kernel, .inl (by decide +kernel)⟩,
  ⟨sG { ops := [(0, some ({ op0 2 with tmpl := { tmpl 2 with inFmt := 2, outFmt := 2 }, tiles := [tile0] }))] }, 0,
      { opcode := 0x21, src := 0x11, addr := 0, payLen := 256, payload := List.replicate 256 0 },
      { op0 2 with tmpl := { tmpl 2 with inFmt := 2, outFmt := 2 }, tiles := [tile0] }, .member 0, 0, by decide +kernel⟩,
  ⟨sG { ops := [(0, some ({ op0 4 with tmpl := { tmpl 4 with inFmt := 2, outFmt := 2 }, tiles := [tile0] }))] }, 0,
      { opcode := 0x21, src := 0x11, addr := 0, payLen := 256, payload := List.replicate 256 0 },
      { op0 4 with tmpl := { tmpl 4 with inFmt := 2, outFmt := 2 }, tiles := [tile0] }, .member 0, by decide +kernel⟩,
  ⟨sG { ops := [(0, some ({ op0 5 with tmpl := { tmpl 5 with inFmt := 2, outFmt := 2 }, tiles := [tile0] }))] }, 0,
      { opcode := 0x21, src := 0x11, addr := 0, payLen := 256, payload := List.replicate 256 0 },
      { op0 5 with tmpl := { tmpl 5 with inFmt := 2, outFmt := 2 }, tiles := [tile0] }, .member 0, 0, by decide +kernel⟩,
  ⟨sG {}, 0, { opcode := 0x21, src := 0x11, addr := 0 }, by decide +kernel⟩,
  ⟨sG {}, 0, { ({ opcode := 0x21, src := 0x11, addr := 0 } : Packet) with opcode := 0x22 }, by decide +kernel⟩,
  ⟨sG {}, 0, { ({ opcode := 0x21, src := 0x11, addr := 0 } : Packet) with opcode := 0x23 }, by decide +kernel⟩,
  ⟨sM, 0, { opcode := 0x21 }, by decide +kernel⟩,
  ⟨{ (sG { ops := [(0, some ({ op0 0 with tmpl := { tmpl 0 with inFmt := 2, outFmt := 2 }, tiles := [tile0] }))] }) with tick.ns := 5, hawk.addedAt := [((addSlice ({ op0 0 with tmpl := { tmpl 0 with inFmt := 2, outFmt := 2 }, tiles := [tile0] }) 0 0 false 0 0).val, 6)] }, ⟨0, 0, 0, false, 0, 0, 0, 1⟩, { c0 with adm := some ⟨0, 0, 0, false, 0, 0, 0, 1⟩ }, { op0 0 with tmpl := { tmpl 0 with inFmt := 2, outFmt := 2 }, tiles := [tile0] }, tile0, by decide +kernel⟩,
  ⟨sG { ops := [(0, some ({ op0 0 with tmpl := { tmpl 0 with inFmt := 2, outFmt := 2 }, tiles := [tile0] }))] },
      ⟨0, 0, 0, false, 0, 0, 0, 1⟩, { c0 with adm := some ⟨0, 0, 0, false, 0, 0, 0, 1⟩ }, [],
      { op0 0 with tmpl := { tmpl 0 with inFmt := 2, outFmt := 2 }, tiles := [tile0] }, tile0, by decide +kernel⟩,
  ⟨sG { ops := [(0, some { op0 0 with tmpl := { tmpl 0 with inFmt := 2, outFmt := 2 }, tiles := [tile0] })] }, 0, 0,
      { op0 0 with tmpl := { tmpl 0 with inFmt := 2, outFmt := 2 }, tiles := [tile0] }, tile0, 0, 0, 0, false,
      by decide +kernel⟩,
  ⟨sG { ops := [(0, some ({ op0 0 with tiles := [{ tile0 with pos1 := [(0, { done := true })] }] }))] }, 0, 0,
      { op0 0 with tiles := [{ tile0 with pos1 := [(0, { done := true })] }] },
      { tile0 with pos1 := [(0, { done := true })] }, 0, 0, 0, false, by decide +kernel⟩,
  ⟨sG { ops := [(0, some ({ op0 0 with tiles := [tile0] }))] }, 0, 0, { op0 0 with tiles := [tile0] }, tile0, 0, 0, 1, false,
      by decide +kernel⟩⟩

/-- Every clause of GroupDescriptors has a state and operands that meet its hypotheses. -/
theorem test_witness_groupDescriptors :
  (∃ (s : State) (d : DRef) (f : InFlight) (g : Fin 1024), Startable s d 0x22 f ∧ groupTarget f = some g
      ∧ dGen f.desc = fnGen s (.group g) ∧ gTenant (gEntry s g) = dTenant s f ∧ tmplOk s g (tmplOf f.desc) = false)
  ∧ (∃ (s : State) (d : DRef) (f : InFlight) (g : Fin 1024), Startable s d 0x22 f ∧ groupTarget f = some g
      ∧ dGen f.desc = fnGen s (.group g) ∧ gTenant (gEntry s g) = dTenant s f ∧ tmplOk s g (tmplOf f.desc) = true
      ∧ gLocal (gEntry s g) ≠ 0)
  ∧ (∃ (s : State) (d : DRef) (f : InFlight) (g : Fin 1024), Startable s d 0x22 f ∧ groupTarget f = some g
      ∧ dGen f.desc = fnGen s (.group g) ∧ gTenant (gEntry s g) = dTenant s f ∧ tmplOk s g (tmplOf f.desc) = true
      ∧ gLocal (gEntry s g) = 0)
  ∧ (∃ (s : State) (d : DRef) (f : InFlight) (g : Fin 1024), Startable s d 0x23 f ∧ groupTarget f = some g
      ∧ dGen f.desc = fnGen s (.group g) ∧ gTenant (gEntry s g) = dTenant s f)
  ∧ (∀ e ∈ ([(.templateSet, 0x22), (.groupQuery, 0x23)] : List ((DRef → Instr) × BitVec 8)),
      ∃ (s : State) (d : DRef) (f : InFlight), Startable s d e.2 f ∧ groupTarget f = none)
  ∧ (∀ e ∈ ([(.templateSet, 0x22), (.groupQuery, 0x23)] : List ((DRef → Instr) × BitVec 8)),
      ∃ (s : State) (d : DRef) (f : InFlight) (g : Fin 1024), Startable s d e.2 f ∧ groupTarget f = some g
      ∧ dGen f.desc ≠ fnGen s (.group g))
  ∧ (∀ e ∈ ([(.templateSet, 0x22), (.groupQuery, 0x23)] : List ((DRef → Instr) × BitVec 8)),
      ∃ (s : State) (d : DRef) (f : InFlight) (g : Fin 1024), Startable s d e.2 f ∧ groupTarget f = some g
      ∧ dGen f.desc = fnGen s (.group g) ∧ gTenant (gEntry s g) ≠ dTenant s f) :=
  ⟨⟨inFlight (fl 0x22) (State.reset), d0, fl 0x22, 0, ⟨by decide +kernel, by decide +kernel, by decide +kernel⟩,
      by decide +kernel⟩,
  ⟨inFlight (fl 0x22 0 (4 <<< 200 + 12 <<< 240 + 1 <<< 288)) (sG {}), d0, fl 0x22 0 (4 <<< 200 + 12 <<< 240 + 1 <<< 288), 0,
      ⟨by decide +kernel, by decide +kernel, by decide +kernel⟩, by decide +kernel⟩,
  ⟨inFlight (fl 0x22 0 (4 <<< 200 + 12 <<< 240 + 1 <<< 288)) (setFn State.reset (.group 0) { st := .on }), d0,
      fl 0x22 0 (4 <<< 200 + 12 <<< 240 + 1 <<< 288), 0, ⟨by decide +kernel, by decide +kernel, by decide +kernel⟩,
      by decide +kernel⟩,
  ⟨inFlight (fl 0x23) (sE), d0, fl 0x23, 0, ⟨by decide +kernel, by decide +kernel, by decide +kernel⟩, by decide +kernel⟩,
  (fun e he => ⟨inFlight (fl e.2.toNat 0x400) (State.reset), d0, fl e.2.toNat 0x400,
      (by unfold Startable; decide +kernel : ∀ e ∈ ([(.templateSet, 0x22),
      (.groupQuery, 0x23)] : List ((DRef → Instr) × BitVec 8)),
      (Startable (inFlight (fl e.2.toNat 0x400) (State.reset) : State) (d0 : DRef) e.2 (fl e.2.toNat 0x400 : InFlight))
      ∧ (groupTarget (fl e.2.toNat 0x400 : InFlight) = none)) e he⟩),
  (fun e he => ⟨inFlight (fl e.2.toNat 0 (1 <<< 16)) (sG {}), d0, fl e.2.toNat 0 (1 <<< 16), 0,
      (by unfold Startable; decide +kernel : ∀ e ∈ ([(.templateSet, 0x22),
      (.groupQuery, 0x23)] : List ((DRef → Instr) × BitVec 8)),
      (Startable (inFlight (fl e.2.toNat 0 (1 <<< 16)) (sG {}) : State) (d0 : DRef) e.2 (fl e.2.toNat 0 (1 <<< 16) : InFlight)) ∧ (groupTarget (fl e.2.toNat 0 (1 <<< 16) : InFlight) = some (0 : Fin 1024)) ∧ (dGen (fl e.2.toNat 0 (1 <<< 16) : InFlight).desc ≠ fnGen (inFlight (fl e.2.toNat 0 (1 <<< 16)) (sG {}) : State) (.group (0 : Fin 1024)))) e he⟩),
  (fun e he => ⟨inFlight (fl e.2.toNat 1) (setFn { sM with route.top := { coatM with group := [(1, eG + 7 <<< 8)] } } (.group 1) {}), d0, fl e.2.toNat 1, 1, (by unfold Startable; decide +kernel : ∀ e ∈ ([(.templateSet, 0x22), (.groupQuery, 0x23)] : List ((DRef → Instr) × BitVec 8)), (Startable (inFlight (fl e.2.toNat 1) (setFn { sM with route.top := { coatM with group := [(1, eG + 7 <<< 8)] } } (.group 1) {}) : State) (d0 : DRef) e.2 (fl e.2.toNat 1 : InFlight)) ∧ (groupTarget (fl e.2.toNat 1 : InFlight) = some (1 : Fin 1024)) ∧ (dGen (fl e.2.toNat 1 : InFlight).desc = fnGen (inFlight (fl e.2.toNat 1) (setFn { sM with route.top := { coatM with group := [(1, eG + 7 <<< 8)] } } (.group 1) {}) : State) (.group (1 : Fin 1024))) ∧ (gTenant (gEntry (inFlight (fl e.2.toNat 1) (setFn { sM with route.top := { coatM with group := [(1, eG + 7 <<< 8)] } } (.group 1) {}) : State) (1 : Fin 1024)) ≠ dTenant (inFlight (fl e.2.toNat 1) (setFn { sM with route.top := { coatM with group := [(1, eG + 7 <<< 8)] } } (.group 1) {}) : State) (fl e.2.toNat 1 : InFlight))) e he⟩)⟩

/-- Every clause of HawkGrantsAndAudit has a state and operands that meet its hypotheses. -/
theorem test_witness_hawkGrantsAndAudit :
  (∃ (s : State), (runInner 8 s).tick.slot = 0 ∧ (runInner 8 s).tick.phase ≤ 9 ∧ (runInner 8 s).hawk.skip = false)
  ∧ (∃ (s : State), (runInner 8 s).tick.slot = 0 ∧ (runInner 8 s).tick.phase ≤ 9 ∧ (runInner 8 s).hawk.skip = true)
  ∧ (∃ (s : State), ((runInner 8 s).tick.slot ≠ 0 ∨ 9 < (runInner 8 s).tick.phase))
  ∧ (∃ (s : State) (r : GrantReq), s.tick.todo = [] ∧ s.tick.slot = 0 ∧ s.tick.phase ≤ 9 ∧ s.hawk.skip = false
      ∧ s.hawk.reqs = [r] ∧ 0 < s.hawk.limit ∧ r.need ≤ (groupOf s r.g).resFree ∧ tblWf {} s.hawk.group = true)
  ∧ (∃ (s : State) (r : GrantReq), s.tick.todo = [] ∧ s.tick.slot = 0 ∧ s.tick.phase ≤ 9 ∧ s.hawk.skip = false
      ∧ s.hawk.reqs = [r] ∧ 0 < s.hawk.limit ∧ (groupOf s r.g).resFree < r.need)
  ∧ (∃ (s : State) (g : Nat) (p : Nat), s.hawk.latched = some (g, p) ∧ s.tick.slot = 0 ∧ s.tick.phase ≤ 6
      ∧ hits s 64 48 = true ∧ (g ≠ 3072 ∨ p ≠ spillTotal s))
  ∧ (∃ (sum : Nat) (ref : Nat), sum = ref)
  ∧ (∃ (sum : Nat) (ref : Nat), sum ≠ ref)
  ∧ (∃ (s : State), doubleHeld s = [])
  ∧ (∃ (s : State), (s.hawk.latched = none ∨ s.tick.slot ≠ 0 ∨ hits s 64 48 = false ∨ s.hawk.latched = some (3072,
      spillTotal s)))
  ∧ (∃ (s : State), tickSpan s = 1) :=
  ⟨⟨State.reset, by decide +kernel⟩,
  ⟨{ State.reset with hawk.skip := true }, by decide +kernel⟩,
  ⟨{ State.reset with tick.slot := 1 }, by decide +kernel⟩,
  ⟨{ State.reset with hawk.reqs := [⟨0, 0, 0, 0, 2, 0, 0⟩], hawk.group := [(0, { resFree := 2 })] }, ⟨0, 0, 0, 0, 2, 0, 0⟩,
      by decide +kernel⟩,
  ⟨{ State.reset with hawk.reqs := [(⟨0, 0, 0, 0, 4, 0, 0⟩ : GrantReq)], hawk.limit := 1 }, ⟨0, 0, 0, 0, 4, 0, 0⟩,
      by decide +kernel⟩,
  ⟨{ ({ State.reset with tick.elapsed := 48, hawk.grains := 3000 }) with hawk.latched := some ((0 : Nat), (0 : Nat)), tick.slot := 0 }, 0, 0, by decide +kernel⟩,
  ⟨(0 : Nat), 0, by decide +kernel⟩,
  ⟨0, 1, by decide +kernel⟩,
  ⟨State.reset, by decide +kernel⟩,
  ⟨State.reset, by decide +kernel⟩,
  ⟨State.reset, by decide +kernel⟩⟩

/-- Every clause of HawkRoomConserved has a state and operands that meet its hypotheses. -/
theorem test_witness_hawkRoomConserved :
  (∃ (s : State) (g : Fin 1024) (q : Fin 16) (o : CollOp) (need : Nat) (spill : Nat), opOf s g q = some o
      ∧ tblWf {} s.hawk.group = true ∧ tblWf none (groupOf s g).ops = true ∧ need ≤ s.hawk.grains ∧ spill ≤ s.hawk.spill)
  ∧ (∃ (s : State) (g : Fin 1024) (q : Fin 16) (o : CollOp) (need : Nat) (spill : Nat), opOf s g q = some o
      ∧ tblWf {} s.hawk.group = true ∧ tblWf none (groupOf s g).ops = true ∧ need ≤ (groupOf s g).resFree
      ∧ spill ≤ (groupOf s g).resSpill) :=
  ⟨⟨sG { ops := [(0, some (op0 0))] }, 0, 0, op0 0, 3072, 5, by decide +kernel⟩,
  ⟨sG { ops := [(0, some (op0 0))], resFree := 8, resSpill := 2 }, 0, 0, op0 0, 8, 2, by decide +kernel⟩⟩

/-- Every clause of ExactSumAnyOrder has a state and operands that meet its hypotheses. -/
theorem test_witness_exactSumAnyOrder : ∃ (n : Nat) (xs : List (List Byte)) (ys : List (List Byte)), xs.Perm ys
    ∧ (∀ x ∈ xs, x.length = n) :=
  ⟨0, [], [], by decide +kernel⟩

/-- Every clause of SkimZLossless has a state and operands that meet its hypotheses. -/
theorem test_witness_skimZLossless : ∃ (fmt : Nat) (n : Nat) (bs : List Byte), fmt < 8 ∧ bs.length = plainLen fmt n :=
  ⟨0, 2, List.replicate 8 0, by decide +kernel⟩

/-- Every clause of StreamGrantsAndDescriptors has a state and operands that meet its hypotheses. -/
theorem test_witness_streamGrantsAndDescriptors :
  (∃ (s : State) (l : LinkId) (p : Packet) (k : Fin 64), p.opcode = 0x38 ∧ mayTakeIn s (linkPort l) p = true
      ∧ fld p.tag 0 6 = k.val ∧ creditFault (leaveInput (linkPort l) p s) l k p = none)
  ∧ (∃ c, ∃ (s : State) (l : LinkId) (p : Packet) (k : Fin 64), p.opcode = 0x38 ∧ mayTakeIn s (linkPort l) p = true
      ∧ fld p.tag 0 6 = k.val ∧ creditFault (leaveInput (linkPort l) p s) l k p = some c)
  ∧ (∃ (s : State) (l : LinkId) (p : Packet) (k : Fin 64), p.opcode = 0x38 ∧ mayTakeIn s (linkPort l) p = true
      ∧ fld p.tag 0 6 = k.val ∧ creditFault s l k p = none ∧ tblWf {} s.streams.s = true)
  ∧ (∃ (s : State) (l : LinkId) (p : Packet) (k : Fin 64) (c : Nat), p.opcode = 0x38 ∧ mayTakeIn s (linkPort l) p = true
      ∧ fld p.tag 0 6 = k.val ∧ creditFault s l k p = some c)
  ∧ (∃ (s : State) (d : DRef) (f : InFlight) (k : Fin 64), Startable s d 0x30 f ∧ streamTarget f = some k
      ∧ dGen f.desc = fnGen s (.stream k) ∧ fnSt s (.stream k) = .off ∧ programOk f.desc = true
      ∧ storedSegs s k + fld f.desc 256 16 ≤ 16384)
  ∧ (∃ (s : State) (d : DRef) (f : InFlight) (k : Fin 64), Startable s d 0x30 f ∧ streamTarget f = some k
      ∧ dGen f.desc = fnGen s (.stream k) ∧ (fnSt s (.stream k) ≠ .off ∨ programOk f.desc = false))
  ∧ (∃ (s : State) (d : DRef) (f : InFlight) (k : Fin 64), Startable s d 0x33 f ∧ streamTarget f = some k
      ∧ dGen f.desc = fnGen s (.stream k) ∧ (streamOf' s k).tenant = some (dTenant s f) ∧ (streamOf' s k).period = 0
      ∧ (fnSt s (.stream k) = .on ∨ fnSt s (.stream k) = .starting))
  ∧ (∃ (s : State) (d : DRef) (f : InFlight) (k : Fin 64), Startable s d 0x33 f ∧ streamTarget f = some k
      ∧ dGen f.desc = fnGen s (.stream k) ∧ (streamOf' s k).tenant = some (dTenant s f) ∧ (streamOf' s k).period = 0
      ∧ (fnSt s (.stream k) = .off ∨ fnSt s (.stream k) = .stopping))
  ∧ (∃ (s : State) (d : DRef) (f : InFlight) (k : Fin 64), Startable s d 0x33 f ∧ streamTarget f = some k
      ∧ dGen f.desc = fnGen s (.stream k) ∧ (streamOf' s k).tenant = some (dTenant s f) ∧ (streamOf' s k).period ≠ 0)
  ∧ (∃ (s : State) (d : DRef) (f : InFlight) (k : Fin 64), Startable s d 0x34 f ∧ streamTarget f = some k
      ∧ dGen f.desc = fnGen s (.stream k) ∧ (streamOf' s k).tenant = some (dTenant s f))
  ∧ (∀ e ∈ ([(.streamProgram, 0x30), (.streamStart, 0x33), (.streamQuery, 0x34)] : List ((DRef → Instr) × BitVec 8)),
      ∃ (s : State) (d : DRef) (f : InFlight), Startable s d e.2 f ∧ streamTarget f = none)
  ∧ (∀ e ∈ ([(.streamProgram, 0x30), (.streamStart, 0x33), (.streamQuery, 0x34)] : List ((DRef → Instr) × BitVec 8)),
      ∃ (s : State) (d : DRef) (f : InFlight) (k : Fin 64), Startable s d e.2 f ∧ streamTarget f = some k
      ∧ dGen f.desc ≠ fnGen s (.stream k)) :=
  ⟨⟨sS { tenant := some 0 }, 0, { opcode := 0x38, addr := 0xFFF0000000000001, tag := 0x80 }, 0, by decide +kernel⟩,
  ⟨2, sS {}, 0, { opcode := 0x38, addr := 0xFFF0000000000001, tag := 0x80 }, 0, by decide +kernel⟩,
  ⟨sS { tenant := some 0 }, 0, { opcode := 0x38, addr := 0xFFF0000000000001, tag := 0x80 }, 0, by decide +kernel⟩,
  ⟨sS {}, 0, { opcode := 0x38, addr := 0xFFF0000000000001, tag := 0x80 }, 0, 2, by decide +kernel⟩,
  ⟨inFlight (fl 0x30 0 (1 <<< 256)) (State.reset), d0, fl 0x30 0 (1 <<< 256), 0,
      ⟨by decide +kernel, by decide +kernel, by decide +kernel⟩, by decide +kernel⟩,
  ⟨inFlight (fl 0x30) (sS {}), d0, fl 0x30, 0, ⟨by decide +kernel, by decide +kernel, by decide +kernel⟩, by decide +kernel⟩,
  ⟨inFlight (fl 0x33) (setFn (sS { tenant := some 0 }) (.stream 0) { st := .on }), d0, fl 0x33, 0,
      ⟨by decide +kernel, by decide +kernel, by decide +kernel⟩, by decide +kernel⟩,
  ⟨inFlight (fl 0x33) (setFn (sS { tenant := some 0 }) (.stream 0) { st := .off }), d0, fl 0x33, 0,
      ⟨by decide +kernel, by decide +kernel, by decide +kernel⟩, by decide +kernel⟩,
  ⟨inFlight (fl 0x33) (sS { tenant := some 0, period := 5 }), d0, fl 0x33, 0,
      ⟨by decide +kernel, by decide +kernel, by decide +kernel⟩, by decide +kernel⟩,
  ⟨inFlight (fl 0x34) (sS { tenant := some 0 }), d0, fl 0x34, 0, ⟨by decide +kernel, by decide +kernel, by decide +kernel⟩,
      by decide +kernel⟩,
  (fun e he => ⟨inFlight (fl e.2.toNat 64) (State.reset), d0, fl e.2.toNat 64,
      (by unfold Startable; decide +kernel : ∀ e ∈ ([(.streamProgram, 0x30), (.streamStart, 0x33),
      (.streamQuery, 0x34)] : List ((DRef → Instr) × BitVec 8)),
      (Startable (inFlight (fl e.2.toNat 64) (State.reset) : State) (d0 : DRef) e.2 (fl e.2.toNat 64 : InFlight))
      ∧ (streamTarget (fl e.2.toNat 64 : InFlight) = none)) e he⟩),
  (fun e he => ⟨inFlight (fl e.2.toNat 0 (1 <<< 16)) (sS {}), d0, fl e.2.toNat 0 (1 <<< 16), 0,
      (by unfold Startable; decide +kernel : ∀ e ∈ ([(.streamProgram, 0x30), (.streamStart, 0x33),
      (.streamQuery, 0x34)] : List ((DRef → Instr) × BitVec 8)),
      (Startable (inFlight (fl e.2.toNat 0 (1 <<< 16)) (sS {}) : State) (d0 : DRef) e.2 (fl e.2.toNat 0 (1 <<< 16) : InFlight)) ∧ (streamTarget (fl e.2.toNat 0 (1 <<< 16) : InFlight) = some (0 : Fin 64)) ∧ (dGen (fl e.2.toNat 0 (1 <<< 16) : InFlight).desc ≠ fnGen (inFlight (fl e.2.toNat 0 (1 <<< 16)) (sS {}) : State) (.stream (0 : Fin 64)))) e he⟩)⟩

/-- Every clause of StreamPassesSegmentsChunks has a state and operands that meet its hypotheses. -/
theorem test_witness_streamPassesSegmentsChunks :
  (∃ (s : State) (k : Fin 64) (d : DRef) (due : BitVec 48) (rest : List (DRef × BitVec 48)), s.tick.slot = 0
      ∧ fnSt s (.stream k) = .on ∧ passesRead (streamOf' s k) = true ∧ (streamOf' s k).period = 0
      ∧ (streamOf' s k).starts = (d, due) :: rest ∧ workDue s d due = true ∧ tblWf {} s.streams.s = true)
  ∧ (∃ (s : State) (k : Fin 64), s.tick.slot = 0 ∧ fnSt s (.stream k) = .on ∧ passesRead (streamOf' s k) = true
      ∧ (streamOf' s k).period ≠ 0 ∧ tblWf {} s.streams.s = true
      ∧ later (nominalStart (streamOf' s k) (streamOf' s k).nextPass) (nowTick s) = true)
  ∧ (∃ (s : State) (k : Fin 64), s.tick.slot = 0 ∧ fnSt s (.stream k) = .on ∧ passesRead (streamOf' s k) = true
      ∧ (streamOf' s k).period ≠ 0 ∧ tblWf {} s.streams.s = true
      ∧ later (nominalStart (streamOf' s k) (streamOf' s k).nextPass) (nowTick s) = false)
  ∧ (∃ (s : State) (k : Fin 64), (s.tick.slot ≠ 0 ∨ fnSt s (.stream k) ≠ .on ∨ passesRead (streamOf' s k) = false ∨ ((streamOf' s k).period = 0 ∧ ∀ x ∈ (streamOf' s k).starts, workDue s x.1 x.2 = false)))
  ∧ (∃ (s : State) (k : Fin 64) (p : Pass), ((streamOf' s k).passes.find? (fun p => decide (p.next < (streamOf' s k).program.length)) = some p) ∧ s.tick.slot = 0 ∧ fnSt s (.stream k) = .on ∧ allRead (streamOf' s k) = true ∧ s.attic.draining = true)
  ∧ (∃ (s : State) (k : Fin 64) (p : Pass), ((streamOf' s k).passes.find? (fun p => decide (p.next < (streamOf' s k).program.length)) = some p) ∧ s.tick.slot = 0 ∧ fnSt s (.stream k) = .on ∧ allRead (streamOf' s k) = true ∧ s.attic.draining = false ∧ (((segMembers s (segOf s k p.next)).all (fun o => (streamOf' s k).grants.any (fun r => r.port = o.val && r.slot = (segOf s k p.next).slot))) = true ∨ segAllowed s k (segOf s k p.next) = false ∨ deadlinePast s p.start (segOf s k p.next) = true))
  ∧ (∃ (s : State) (k : Fin 64) (p : Pass), ((streamOf' s k).passes.find? (fun p => decide (p.next < (streamOf' s k).program.length)) = some p) ∧ s.tick.slot = 0 ∧ fnSt s (.stream k) = .on ∧ allRead (streamOf' s k) = true ∧ s.attic.draining = false ∧ (((segMembers s (segOf s k p.next)).all (fun o => (streamOf' s k).grants.any (fun r => r.port = o.val && r.slot = (segOf s k p.next).slot))) = false) ∧ segAllowed s k (segOf s k p.next) = true ∧ deadlinePast s p.start (segOf s k p.next) = false)
  ∧ (∃ (s : State) (k : Fin 64) (p : Pass), ((streamOf' s k).passes.find? (fun p => decide (p.next < (streamOf' s k).program.length)) = some p) ∧ s.tick.slot = 0 ∧ fnSt s (.stream k) = .on ∧ allRead (streamOf' s k) = true ∧ s.attic.draining = false ∧ segAllowed s k (segOf s k p.next) = true ∧ segMembers s (segOf s k p.next) ≠ [] ∧ runAt s k p.num p.next = none ∧ (∀ o ∈ segMembers s (segOf s k p.next), ∃ g ∈ (streamOf' s k).grants, g.port = o.val ∧ g.slot = (segOf s k p.next).slot) ∧ (∀ g ∈ (streamOf' s k).grants, g.slot = (segOf s k p.next).slot → (segOf s k p.next).tgtLen + 8 ≤ g.size * 65536))
  ∧ (∃ (s : State) (k : Fin 64), ((streamOf' s k).passes = [] ∨ s.tick.slot ≠ 0 ∨ allRead (streamOf' s k) = false))
  ∧ (∃ (s : State) (k : Fin 64) (r : SegRun) (c : Nat) (dest : Option PortId),
      nextChunk (streamOf' (settled s) k) = some (r, c, dest)
      ∧ (streamOf' (settled s) k).allowance < (chunkLen (settled s) ((streamOf' (settled s) k).tenant.getD 0) (coatFor (settled s) r.coat) (segOf (settled s) k r.seg) (if dest.isNone && (segOf (settled s) k r.seg).sSpec.coding = 1 then r.off else chunkOff (segOf (settled s) k r.seg) r c) c))
  ∧ (∃ (s : State) (k : Fin 64), nextChunk (streamOf' (settled s) k) = none)
  ∧ (∃ (s : State) (k : Fin 64) (r : SegRun) (c : Nat) (runs : List (Nat × Nat)) (bs : List Byte), s.tick.todo = []
      ∧ nextChunk (streamOf' s k) = some (r, c, none) ∧ (segOf s k r.seg).sSpec.coding ≠ 1
      ∧ (storedOf (segOf s k r.seg) (chunkTgt (segOf s k r.seg) c)) ≤ (streamOf' s k).allowance
      ∧ checkRange s (coatFor s r.coat) ((streamOf' s k).tenant.getD 0) (addrOff (segOf s k r.seg).src + (chunkOff (segOf s k r.seg) r c)) (storedOf (segOf s k r.seg) (chunkTgt (segOf s k r.seg) c)) .stream = .ok (.larder runs) ∧ placeRead s (.larder runs) (storedOf (segOf s k r.seg) (chunkTgt (segOf s k r.seg) c)) = some bs)
  ∧ (∃ (s : State) (k : Fin 64) (seg : BitVec 12) (r : SegRun), oldestRun s k seg.toNat = some r ∧ s.tick.slot = 0
      ∧ deadlinePast s r.start (segOf s k r.seg) = true)
  ∧ (∃ (s : State) (k : Fin 64) (pass : BitVec 32) (seg : Nat) (r : SegRun), runAt s k pass seg = some r
      ∧ tblWf {} s.streams.s = true)
  ∧ (∃ (s : State) (k : Fin 64) (seg : BitVec 12), (∀ r,
      oldestRun s k seg.toNat = some r → deadlinePast s r.start (segOf s k r.seg) = false ∨ s.tick.slot ≠ 0))
  ∧ (∃ (s : State) (k : Fin 64) (seg : BitVec 12) (r : SegRun), oldestRun s k seg.toNat = some r ∧ r.next = r.chunks
      ∧ r.closed = none ∧ ageLimit s + 8 ≤ ageOf s r.last ∧ (∀ x ∈ r.shares, x.repair = []))
  ∧ (∃ (s : State) (k : Fin 64) (seg : BitVec 12) (r : SegRun), oldestRun s k seg.toNat = some r ∧ r.next = r.chunks
      ∧ r.closed = none ∧ r.shares ≠ [] ∧ ageLimit s + 8 ≤ ageOf s r.last
      ∧ (∀ x ∈ r.shares, x.repair = [] ∧ x.status = none ∧ x.delivered = [] ∧ x.failed = []
      ∧ x.attempts < (streamOf' s k).repairLimit))
  ∧ (∃ (s : State) (k : Fin 64) (seg : BitVec 12), (∀ r,
      oldestRun s k seg.toNat = some r → r.next ≠ r.chunks ∨ r.closed.isSome = true ∨ ageOf s r.last < ageLimit s + 8))
  ∧ (∃ (s : State) (k : Fin 64) (seg : BitVec 12) (r : SegRun) (b : BitVec 48), oldestRun s k seg.toNat = some r
      ∧ s.tick.slot = 0 ∧ r.closed = some b ∧ b ≠ s.tick.elapsed ∧ deadlinePast s r.start (segOf s k r.seg) = false
      ∧ (∀ x ∈ r.shares, x.status = none → x.failed ≠ [] → outUp s x.out = true))
  ∧ (∃ (s : State) (k : Fin 64) (seg : BitVec 12) (r : SegRun) (b : BitVec 48), oldestRun s k seg.toNat = some r
      ∧ s.tick.slot = 0 ∧ r.closed = some b ∧ b ≠ s.tick.elapsed ∧ r.shares ≠ []
      ∧ deadlinePast s r.start (segOf s k r.seg) = false
      ∧ (∀ x ∈ r.shares, x.status = none ∧ x.failed ≠ [] ∧ outUp s x.out = true))
  ∧ (∃ (s : State) (k : Fin 64) (seg : BitVec 12), (∀ r,
      oldestRun s k seg.toNat = some r → r.closed = none ∨ r.closed = some s.tick.elapsed ∨ s.tick.slot ≠ 0)) :=
  ⟨⟨sS { starts := [(d0, 0)] }, 0, d0, 0, [], by decide +kernel⟩,
  ⟨sS { period := 5, baseTick := 5 }, 0, by decide +kernel⟩,
  ⟨setFn (modStream (0 : Fin 64) (fun x => { x with period := 1 }) (State.reset)) (.stream (0 : Fin 64)) { st := .on }, 0,
      by decide +kernel⟩,
  ⟨{ State.reset with tick.slot := 1 }, 0, .inl (by decide +kernel)⟩,
  ⟨{ (sS { tenant := some 0, program := [seg0], passes := [{ num := 0, start := 0, d := none }] }) with attic.draining := true }, 0, { num := 0, start := 0, d := none }, by decide +kernel⟩,
  ⟨sS { tenant := some 0, program := [seg0], passes := [{ num := 0, start := 0, d := none }], grants := [⟨7, 2, 0, 1⟩] }, 0,
      { num := 0, start := 0, d := none }, by decide +kernel⟩,
  ⟨setReg (sS { tenant := some 0, program := [seg0], passes := [{ num := 0, start := 0, d := none }] }) .portEdge 7 0 0 1, 0,
      { num := 0, start := 0, d := none }, by decide +kernel⟩,
  ⟨setReg (sS { tenant := some 0, program := [seg0], passes := [{ num := 0, start := 0, d := none }], grants := [⟨7, 2, 0, 1⟩] }) .portEdge 7 0 0 1, 0, { num := 0, start := 0, d := none }, by decide +kernel⟩,
  ⟨{ (sS { tenant := some 0, program := [seg0], segs := [run0], allowance := 100 }) with tick.slot := 1 }, 0,
      by decide +kernel⟩,
  ⟨sS { tenant := some 0, program := [seg0], segs := [run0], allowance := 99 }, 0, run0, 0, none, by decide +kernel⟩,
  ⟨sM, 0, by decide +kernel⟩,
  ⟨sS { tenant := some 0, program := [seg0], segs := [run0], allowance := 100 }, 0, run0, 0, [(0x24601000, 100)],
      List.replicate 100 0, by decide +kernel⟩,
  ⟨{ sS { tenant := some 0, program := [seg0 5], segs := [run0] } with tick.elapsed := 6 }, 0, 0, run0, by decide +kernel⟩,
  ⟨sS { tenant := some 0, program := [seg0], segs := [run0], allowance := 100 }, 0, 0, 0, run0, by decide +kernel⟩,
  ⟨State.reset, 0, 0, some_all (by decide +kernel)⟩,
  ⟨{ sS { repairLimit := 1, program := [seg0], segs := [{ run0 with next := 1, shares := [{ out := 7, grant := none }] }] } with tick.elapsed := 72 }, 0, 0, { run0 with next := 1, shares := [{ out := 7, grant := none }] }, by decide +kernel⟩,
  ⟨{ sS { repairLimit := 1, program := [seg0], segs := [{ run0 with next := 1, shares := [{ out := 7, grant := none }] }] } with tick.elapsed := 72 }, 0, 0, { run0 with next := 1, shares := [{ out := 7, grant := none }] }, by decide +kernel⟩,
  ⟨State.reset, 0, 0, some_all (by decide +kernel)⟩,
  ⟨{ setLink (sS { repairLimit := 1, program := [seg0], segs := [{ run0 with next := 1, closed := some 0, shares := [{ out := 7, grant := none, failed := [0] }] }] }) 7 { up := true } with tick.elapsed := 73 }, 0, 0, { run0 with next := 1, closed := some 0, shares := [{ out := 7, grant := none, failed := [0] }] }, 0, by decide +kernel⟩,
  ⟨{ setLink (sS { repairLimit := 1, program := [seg0], segs := [{ run0 with next := 1, closed := some 0, shares := [{ out := 7, grant := none, failed := [0] }] }] }) 7 { up := true } with tick.elapsed := 73 }, 0, 0, { run0 with next := 1, closed := some 0, shares := [{ out := 7, grant := none, failed := [0] }] }, 0, by decide +kernel⟩,
  ⟨State.reset, 0, 0, some_all (by decide +kernel)⟩⟩

/-- Every clause of KernelsAndSequences has a state and operands that meet its hypotheses. -/
theorem test_witness_kernelsAndSequences :
  (∃ (s : State) (d : DRef) (f : InFlight) (k : Fin 256), Startable s d 0x40 f ∧ kernelTarget f = some k
      ∧ dGen f.desc = fnGen s (.kernel k) ∧ fnSt s (.kernel k) = .off ∧ loadOk f.desc = true)
  ∧ (∃ (s : State) (d : DRef) (f : InFlight) (k : Fin 256), Startable s d 0x40 f ∧ kernelTarget f = some k
      ∧ dGen f.desc = fnGen s (.kernel k) ∧ (fnSt s (.kernel k) ≠ .off ∨ loadOk f.desc = false))
  ∧ (∃ (s : State) (d : DRef) (f : InFlight) (k : Fin 256), Startable s d 0x43 f ∧ kernelTarget f = some k
      ∧ dGen f.desc = fnGen s (.kernel k) ∧ (kernelAt s k).loaded = true ∧ (kernelAt s k).tenant = dTenant s f
      ∧ runBodyOk (kernelAt s k) f.desc = true ∧ (kernelAt s k).lib ≠ 1 ∧ fnSt s (.kernel k) = .on)
  ∧ (∃ (s : State) (d : DRef) (f : InFlight) (k : Fin 256), Startable s d 0x43 f ∧ kernelTarget f = some k
      ∧ dGen f.desc = fnGen s (.kernel k) ∧ (kernelAt s k).loaded = true ∧ (kernelAt s k).tenant = dTenant s f
      ∧ runBodyOk (kernelAt s k) f.desc = false)
  ∧ (∃ (s : State) (d : DRef) (f : InFlight) (k : Fin 256), Startable s d 0x43 f ∧ kernelTarget f = some k
      ∧ dGen f.desc = fnGen s (.kernel k) ∧ (kernelAt s k).loaded = true ∧ (kernelAt s k).tenant = dTenant s f
      ∧ runBodyOk (kernelAt s k) f.desc = true ∧ (kernelAt s k).lib = 1)
  ∧ (∃ (s : State) (d : DRef) (f : InFlight) (k : Fin 256), Startable s d 0x43 f ∧ kernelTarget f = some k
      ∧ dGen f.desc = fnGen s (.kernel k) ∧ (kernelAt s k).loaded = true ∧ (kernelAt s k).tenant = dTenant s f
      ∧ runBodyOk (kernelAt s k) f.desc = true ∧ (kernelAt s k).lib ≠ 1
      ∧ (fnSt s (.kernel k) = .off ∨ fnSt s (.kernel k) = .stopping))
  ∧ (∃ (s : State) (d : DRef) (f : InFlight) (k : Fin 256), Startable s d 0x43 f ∧ kernelTarget f = some k
      ∧ dGen f.desc = fnGen s (.kernel k) ∧ (kernelAt s k).loaded = true ∧ (kernelAt s k).tenant = dTenant s f
      ∧ runBodyOk (kernelAt s k) f.desc = true ∧ (kernelAt s k).lib ≠ 1
      ∧ (fnSt s (.kernel k) = .on ∨ fnSt s (.kernel k) = .starting))
  ∧ (∀ e ∈ ([(.kernelLoad, 0x40), (.kernelRun, 0x43), (.kernelQuery, 0x44)] : List ((DRef → Instr) × BitVec 8)),
      ∃ (s : State) (d : DRef) (f : InFlight), Startable s d e.2 f ∧ kernelTarget f = none)
  ∧ (∀ e ∈ ([(.kernelLoad, 0x40), (.kernelRun, 0x43), (.kernelQuery, 0x44)] : List ((DRef → Instr) × BitVec 8)),
      ∃ (s : State) (d : DRef) (f : InFlight) (k : Fin 256), Startable s d e.2 f ∧ kernelTarget f = some k
      ∧ dGen f.desc ≠ fnGen s (.kernel k))
  ∧ (∀ e ∈ ([(.kernelRun, 0x43), (.kernelQuery, 0x44)] : List ((DRef → Instr) × BitVec 8)),
      ∃ (s : State) (d : DRef) (f : InFlight) (k : Fin 256), Startable s d e.2 f ∧ kernelTarget f = some k ∧ e.2 ≠ 0x40
      ∧ dGen f.desc = fnGen s (.kernel k) ∧ ((kernelAt s k).loaded = false ∨ (kernelAt s k).tenant ≠ dTenant s f))
  ∧ (∃ (s : State) (d : DRef) (f : InFlight) (k : Fin 256), Startable s d 0x44 f ∧ kernelTarget f = some k
      ∧ dGen f.desc = fnGen s (.kernel k) ∧ (kernelAt s k).loaded = true ∧ (kernelAt s k).tenant = dTenant s f)
  ∧ (∃ (s : State) (d : DRef) (f : InFlight) (i : Nat), Startable s d 0x48 f ∧ seqTarget f = some i
      ∧ seqForeign (seqFields (seqHdr s i)) (dTenant s f) = false ∧ seqSetOk s f = true)
  ∧ (∃ (s : State) (d : DRef) (f : InFlight) (i : Nat), Startable s d 0x48 f ∧ seqTarget f = some i
      ∧ seqForeign (seqFields (seqHdr s i)) (dTenant s f) = true)
  ∧ (∃ (s : State) (d : DRef) (f : InFlight) (i : Nat), Startable s d 0x48 f ∧ seqTarget f = some i
      ∧ seqForeign (seqFields (seqHdr s i)) (dTenant s f) = false ∧ seqSetOk s f = false)
  ∧ (∃ (s : State) (d : DRef) (f : InFlight) (i : Nat), Startable s d 0x49 f ∧ seqTarget f = some i
      ∧ dGen f.desc ≠ (seqFields (seqHdr s i)).gen)
  ∧ (∃ (s : State) (d : DRef) (f : InFlight) (i : Nat), Startable s d 0x49 f ∧ seqTarget f = some i
      ∧ dGen f.desc = (seqFields (seqHdr s i)).gen ∧ ((seqFields (seqHdr s i)).valid = false ∨ (seqFields (seqHdr s i)).tenant ≠ dTenant s f))
  ∧ (∃ (s : State) (d : DRef) (f : InFlight) (i : Nat), Startable s d 0x49 f ∧ seqTarget f = some i
      ∧ dGen f.desc = (seqFields (seqHdr s i)).gen ∧ (seqFields (seqHdr s i)).valid = true
      ∧ (seqFields (seqHdr s i)).tenant = dTenant s f ∧ seqPagesOk (seqFields (seqHdr s i)) f.desc = false)
  ∧ (∃ (s : State) (d : DRef) (f : InFlight) (i : Nat), Startable s d 0x49 f ∧ seqTarget f = some i
      ∧ dGen f.desc = (seqFields (seqHdr s i)).gen ∧ (seqFields (seqHdr s i)).valid = true
      ∧ (seqFields (seqHdr s i)).tenant = dTenant s f ∧ seqPagesOk (seqFields (seqHdr s i)) f.desc = true
      ∧ fld f.desc 288 16 ≠ 0)
  ∧ (∃ (s : State) (d : DRef) (f : InFlight) (i : Nat), Startable s d 0x49 f ∧ seqTarget f = some i
      ∧ dGen f.desc = (seqFields (seqHdr s i)).gen ∧ (seqFields (seqHdr s i)).valid = true
      ∧ (seqFields (seqHdr s i)).tenant = dTenant s f ∧ seqPagesOk (seqFields (seqHdr s i)) f.desc = true
      ∧ fld f.desc 288 16 = 0)
  ∧ (∃ (s : State) (d : DRef) (f : InFlight) (i : Nat), Startable s d 0x4A f ∧ seqTarget f = some i
      ∧ (seqFields (seqHdr s i)).valid = true ∧ (seqFields (seqHdr s i)).tenant = dTenant s f)
  ∧ (∃ (s : State) (d : DRef) (f : InFlight) (i : Nat), Startable s d 0x4A f ∧ seqTarget f = some i
      ∧ ((seqFields (seqHdr s i)).valid = false ∨ (seqFields (seqHdr s i)).tenant ≠ dTenant s f))
  ∧ (∀ e ∈ ([(.seqSet, 0x48), (.seqPages, 0x49), (.seqClear, 0x4A)] : List ((DRef → Instr) × BitVec 8)),
      ∃ (s : State) (d : DRef) (f : InFlight), Startable s d e.2 f ∧ seqTarget f = none)
  ∧ (∃ (s : State) (k : Fin 256), fnSt s (.kernel k) = .starting ∧ (kernelAt s k).fetched = some stOk
      ∧ (kernelAt s k).copied = none ∧ maskZeroing s (kernelAt s k) = false
      ∧ (copyFirst s = true ∨ (∀ a, a < 64 → bit (kernelAt s k).arrays a = true → fabricWaits s a = false))
      ∧ s.work.badWord = [] ∧ s.work.memWf = true ∧ (kernelAt s k).codeOff + (kernelAt s k).bytes.length ≤ 0x400000)
  ∧ (∃ (s : State) (k : Fin 256), (fnSt s (.kernel k) ≠ .starting ∨ (kernelAt s k).fetched ≠ some stOk ∨ (kernelAt s k).copied.isSome = true ∨ maskZeroing s (kernelAt s k) = true))
  ∧ (∃ (s : State) (a : Fin 64), (s.work.zeroing.any (fun z => z.1 = a.val) = true)
      ∧ (copyFirst s = true ∨ fabricWaits s a.val = false))
  ∧ (∃ (s : State) (a : Fin 64), (s.work.zeroing.any (fun z => z.1 = a.val) = false ∨ (copyFirst s = false
      ∧ fabricWaits s a.val = true))) :=
  ⟨⟨inFlight (fl 0x40 0 (64 <<< 256 + 1 <<< 320 + 4 <<< 384 + 1000 <<< 416)) (sK v0 .off), d0,
      fl 0x40 0 (64 <<< 256 + 1 <<< 320 + 4 <<< 384 + 1000 <<< 416), 0,
      ⟨by decide +kernel, by decide +kernel, by decide +kernel⟩, by decide +kernel⟩,
  ⟨inFlight (fl 0x40) (sM), d0, fl 0x40, 0, ⟨by decide +kernel, by decide +kernel, by decide +kernel⟩, by decide +kernel⟩,
  ⟨inFlight (fl 0x43 0 (1 <<< 256)) (sK v0), d0, fl 0x43 0 (1 <<< 256), 0,
      ⟨by decide +kernel, by decide +kernel, by decide +kernel⟩, by decide +kernel⟩,
  ⟨inFlight (fl 0x43) (sK v0), d0, fl 0x43, 0, ⟨by decide +kernel, by decide +kernel, by decide +kernel⟩, by decide +kernel⟩,
  ⟨inFlight (fl 0x43 0 (1 <<< 256)) (sK { v0 with lib := 1 }), d0, fl 0x43 0 (1 <<< 256), 0,
      ⟨by decide +kernel, by decide +kernel, by decide +kernel⟩, by decide +kernel⟩,
  ⟨inFlight (fl 0x43 0 (1 <<< 256)) (sK v0 .off), d0, fl 0x43 0 (1 <<< 256), 0,
      ⟨by decide +kernel, by decide +kernel, by decide +kernel⟩, by decide +kernel⟩,
  ⟨inFlight (fl 0x43 0 (1 <<< 256)) (sK v0), d0, fl 0x43 0 (1 <<< 256), 0,
      ⟨by decide +kernel, by decide +kernel, by decide +kernel⟩, by decide +kernel⟩,
  (fun e he => ⟨inFlight (fl e.2.toNat 256) (sK v0), d0, fl e.2.toNat 256,
      (by unfold Startable; decide +kernel : ∀ e ∈ ([(.kernelLoad, 0x40), (.kernelRun, 0x43),
      (.kernelQuery, 0x44)] : List ((DRef → Instr) × BitVec 8)),
      (Startable (inFlight (fl e.2.toNat 256) (sK v0) : State) (d0 : DRef) e.2 (fl e.2.toNat 256 : InFlight))
      ∧ (kernelTarget (fl e.2.toNat 256 : InFlight) = none)) e he⟩),
  (fun e he => ⟨inFlight (fl e.2.toNat 0 (1 <<< 16)) (sK v0), d0, fl e.2.toNat 0 (1 <<< 16), 0,
      (by unfold Startable; decide +kernel : ∀ e ∈ ([(.kernelLoad, 0x40), (.kernelRun, 0x43),
      (.kernelQuery, 0x44)] : List ((DRef → Instr) × BitVec 8)),
      (Startable (inFlight (fl e.2.toNat 0 (1 <<< 16)) (sK v0) : State) (d0 : DRef) e.2 (fl e.2.toNat 0 (1 <<< 16) : InFlight)) ∧ (kernelTarget (fl e.2.toNat 0 (1 <<< 16) : InFlight) = some (0 : Fin 256)) ∧ (dGen (fl e.2.toNat 0 (1 <<< 16) : InFlight).desc ≠ fnGen (inFlight (fl e.2.toNat 0 (1 <<< 16)) (sK v0) : State) (.kernel (0 : Fin 256)))) e he⟩),
  (fun e he => ⟨inFlight (fl e.2.toNat) (sK { v0 with loaded := false }), d0, fl e.2.toNat, 0,
      (by unfold Startable; decide +kernel : ∀ e ∈ ([(.kernelRun, 0x43),
      (.kernelQuery, 0x44)] : List ((DRef → Instr) × BitVec 8)),
      (Startable (inFlight (fl e.2.toNat) (sK { v0 with loaded := false }) : State) (d0 : DRef) e.2 (fl e.2.toNat : InFlight)) ∧ (kernelTarget (fl e.2.toNat : InFlight) = some (0 : Fin 256)) ∧ (e.2 ≠ 0x40) ∧ (dGen (fl e.2.toNat : InFlight).desc = fnGen (inFlight (fl e.2.toNat) (sK { v0 with loaded := false }) : State) (.kernel (0 : Fin 256))) ∧ ((kernelAt (inFlight (fl e.2.toNat) (sK { v0 with loaded := false }) : State) (0 : Fin 256)).loaded = false ∨ (kernelAt (inFlight (fl e.2.toNat) (sK { v0 with loaded := false }) : State) (0 : Fin 256)).tenant ≠ dTenant (inFlight (fl e.2.toNat) (sK { v0 with loaded := false }) : State) (fl e.2.toNat : InFlight))) e he⟩),
  ⟨inFlight (fl 0x44 0 (0)) (sK v0), d0, fl 0x44 0 (0), 0, ⟨by decide +kernel, by decide +kernel, by decide +kernel⟩,
      by decide +kernel⟩,
  ⟨inFlight (fl 0x48 0 (1 <<< 200 + 64 <<< 224 + 2 <<< 240 + 4 <<< 256)) (sK { v0 with lib := 1 }), d0,
      fl 0x48 0 (1 <<< 200 + 64 <<< 224 + 2 <<< 240 + 4 <<< 256), 0,
      ⟨by decide +kernel, by decide +kernel, by decide +kernel⟩, by decide +kernel⟩,
  ⟨inFlight (fl 0x48) (setReg (sQ v0) .admSqCfg 0 0 1 (7 <<< 8)), d0, fl 0x48, 0,
      ⟨by decide +kernel, by decide +kernel, by decide +kernel⟩, by decide +kernel⟩,
  ⟨inFlight (fl 0x48) (State.reset), d0, fl 0x48, 0, ⟨by decide +kernel, by decide +kernel, by decide +kernel⟩,
      by decide +kernel⟩,
  ⟨inFlight (fl 0x49 0 (1 <<< 16)) (sQ v0), d0, fl 0x49 0 (1 <<< 16), 0,
      ⟨by decide +kernel, by decide +kernel, by decide +kernel⟩, by decide +kernel⟩,
  ⟨inFlight (fl 0x49) (State.reset), d0, fl 0x49, 0, ⟨by decide +kernel, by decide +kernel, by decide +kernel⟩,
      by decide +kernel⟩,
  ⟨inFlight (fl 0x49 0 (9 <<< 256)) (sQ v0), d0, fl 0x49 0 (9 <<< 256), 0,
      ⟨by decide +kernel, by decide +kernel, by decide +kernel⟩, by decide +kernel⟩,
  ⟨inFlight (fl 0x49 0 (1 <<< 256 + 2 <<< 288)) (sQ v0), d0, fl 0x49 0 (1 <<< 256 + 2 <<< 288), 0,
      ⟨by decide +kernel, by decide +kernel, by decide +kernel⟩, by decide +kernel⟩,
  ⟨inFlight (fl 0x49) (sQ v0), d0, fl 0x49, 0, ⟨by decide +kernel, by decide +kernel, by decide +kernel⟩, by decide +kernel⟩,
  ⟨inFlight (fl 0x4A) (sQ v0), d0, fl 0x4A, 0, ⟨by decide +kernel, by decide +kernel, by decide +kernel⟩, by decide +kernel⟩,
  ⟨inFlight (fl 0x4A) (State.reset), d0, fl 0x4A, 0, ⟨by decide +kernel, by decide +kernel, by decide +kernel⟩,
      by decide +kernel⟩,
  (fun e he => ⟨inFlight (fl e.2.toNat 0x1000) (State.reset), d0, fl e.2.toNat 0x1000,
      (by unfold Startable; decide +kernel : ∀ e ∈ ([(.seqSet, 0x48), (.seqPages, 0x49),
      (.seqClear, 0x4A)] : List ((DRef → Instr) × BitVec 8)),
      (Startable (inFlight (fl e.2.toNat 0x1000) (State.reset) : State) (d0 : DRef) e.2 (fl e.2.toNat 0x1000 : InFlight))
      ∧ (seqTarget (fl e.2.toNat 0x1000 : InFlight) = none)) e he⟩),
  ⟨{ (sK { v0 with bytes := [1, 2, 3, 4], fetched := some stOk } .starting) with tick.elapsed := 1 }, 0, by decide +kernel,
      by decide +kernel, by decide +kernel, by decide +kernel, .inl (by decide +kernel), by decide +kernel⟩,
  ⟨State.reset, 0, by decide +kernel⟩,
  ⟨{ State.reset with work.zeroing := [(0, 0)] }, 0, by decide +kernel⟩,
  ⟨State.reset, 0, by decide +kernel⟩⟩

/-- Every clause of RunsAdmittedStartedExpired has a state and operands that meet its hypotheses. -/
theorem test_witness_runsAdmittedStartedExpired :
  (∃ (s : State) (port : PortId) (p : Packet) (k : Fin 256), p.opcode = 0x10 ∧ launchFirst s port p = true
      ∧ addrTarget p 8 = k.val ∧ ((kernelAt s k).loaded && (kernelAt s k).tenant = p.tenant && (kernelAt s k).launchEn && (kernelAt s k).lib = 0 && launchOk (kernelAt s k) p) = true ∧ admitStatus (takeDelivered p s) k p.gen (fnGen (takeDelivered p s) (.kernel k)) p.tenant = none)
  ∧ (∃ (s : State) (port : PortId) (p : Packet) (k : Fin 256), p.opcode = 0x10 ∧ launchFirst s port p = true
      ∧ addrTarget p 8 = k.val ∧ ((kernelAt s k).loaded && (kernelAt s k).tenant = p.tenant && (kernelAt s k).launchEn && (kernelAt s k).lib = 0 && launchOk (kernelAt s k) p) = false)
  ∧ (∃ (s : State) (port : PortId) (p : Packet) (k : Fin 256), p.opcode = 0x10 ∧ launchFirst s port p = true
      ∧ addrTarget p 8 = k.val ∧ ((kernelAt s k).loaded && (kernelAt s k).tenant = p.tenant && (kernelAt s k).launchEn && (kernelAt s k).lib = 0 && launchOk (kernelAt s k) p) = true ∧ (∃ st, admitStatus (takeDelivered p s) k p.gen (fnGen (takeDelivered p s) (.kernel k)) p.tenant = some st))
  ∧ (∃ (s : State) (port : PortId) (p : Packet) (k : Fin 256), p.opcode = 0x10 ∧ launchFirst s port p = true
      ∧ addrTarget p 8 = k.val ∧ (kernelAt s k).loaded = true ∧ (kernelAt s k).tenant = p.tenant
      ∧ (kernelAt s k).launchEn = true ∧ (kernelAt s k).lib = 0 ∧ launchOk (kernelAt s k) p = true
      ∧ admitStatus s k p.gen (fnGen s (.kernel k)) p.tenant = none)
  ∧ (∃ (s : State) (port : PortId) (p : Packet) (k : Fin 256), p.opcode = 0x10 ∧ launchFirst s port p = true
      ∧ addrTarget p 8 = k.val ∧ (kernelAt s k).launchEn = false)
  ∧ (∃ (s : State) (port : PortId) (p : Packet), (p.opcode ≠ 0x10 ∨ launchFirst s port p = false))
  ∧ (∃ (s : State) (port : PortId) (p : Packet) (k : Fin 256), p.opcode = 0x11 ∧ launchFirst s port p = true
      ∧ (seqFields (seqHdr s (addrTarget p 12))).kernel = k.val
      ∧ (((seqFields (seqHdr s (addrTarget p 12))).valid && (seqFields (seqHdr s (addrTarget p 12))).tenant = p.tenant && (kernelAt s k).loaded && (kernelAt s k).lib = 1 && (kernelAt s k).tenant = p.tenant && queryOk (seqFields (seqHdr s (addrTarget p 12))) p && (queryWords s (addrTarget p 12) (seqFields (seqHdr s (addrTarget p 12))) (leAt p.payload 0 2) (queryPages (tokensPerPage (specOf (seqFields (seqHdr s (addrTarget p 12))).kvFmt).fmt (seqFields (seqHdr s (addrTarget p 12))).headDim) (leAt p.payload 4 4) (leAt p.payload 8 4))).all (fun w => bit w 0)) = true) ∧ admitStatus (takeDelivered p s) k p.gen (seqFields (seqHdr s (addrTarget p 12))).gen p.tenant = none)
  ∧ (∃ (s : State) (port : PortId) (p : Packet) (k : Fin 256), p.opcode = 0x11 ∧ launchFirst s port p = true
      ∧ (seqFields (seqHdr s (addrTarget p 12))).kernel = k.val
      ∧ (((seqFields (seqHdr s (addrTarget p 12))).valid && (seqFields (seqHdr s (addrTarget p 12))).tenant = p.tenant && (kernelAt s k).loaded && (kernelAt s k).lib = 1 && (kernelAt s k).tenant = p.tenant && queryOk (seqFields (seqHdr s (addrTarget p 12))) p && (queryWords s (addrTarget p 12) (seqFields (seqHdr s (addrTarget p 12))) (leAt p.payload 0 2) (queryPages (tokensPerPage (specOf (seqFields (seqHdr s (addrTarget p 12))).kvFmt).fmt (seqFields (seqHdr s (addrTarget p 12))).headDim) (leAt p.payload 4 4) (leAt p.payload 8 4))).all (fun w => bit w 0)) = false))
  ∧ (∃ (s : State) (port : PortId) (p : Packet) (k : Fin 256), p.opcode = 0x11 ∧ launchFirst s port p = true
      ∧ (seqFields (seqHdr s (addrTarget p 12))).kernel = k.val
      ∧ (((seqFields (seqHdr s (addrTarget p 12))).valid && (seqFields (seqHdr s (addrTarget p 12))).tenant = p.tenant && (kernelAt s k).loaded && (kernelAt s k).lib = 1 && (kernelAt s k).tenant = p.tenant && queryOk (seqFields (seqHdr s (addrTarget p 12))) p && (queryWords s (addrTarget p 12) (seqFields (seqHdr s (addrTarget p 12))) (leAt p.payload 0 2) (queryPages (tokensPerPage (specOf (seqFields (seqHdr s (addrTarget p 12))).kvFmt).fmt (seqFields (seqHdr s (addrTarget p 12))).headDim) (leAt p.payload 4 4) (leAt p.payload 8 4))).all (fun w => bit w 0)) = true) ∧ (∃ st, admitStatus (takeDelivered p s) k p.gen (seqFields (seqHdr s (addrTarget p 12))).gen p.tenant = some st))
  ∧ (∃ (s : State) (port : PortId) (p : Packet), (p.opcode ≠ 0x11 ∨ launchFirst s port p = false))
  ∧ (∃ (s : State) (k : Fin 256) (r : Run), waitingRun s k = some r ∧ workRun s k r.num = some r ∧ (kernelAt s k).lib = 0
      ∧ r.threads ≤ (freeThreadsOf s (kernelAt s k).arrays).length ∧ yields s k (kernelAt s k) = false)
  ∧ (∃ (s : State) (k : Fin 256), (∀ r, waitingRun s k = some r → (freeThreadsOf s (kernelAt s k).arrays).length < r.threads ∨ yields s k (kernelAt s k) = true))
  ∧ (∃ (s : State) (k : Fin 256) (n : BitVec 32) (r : Run) (x : Thr), workRun s k n = some r ∧ r.started = true
      ∧ r.status = stOk ∧ (kernelAt s k).runLimit ≤ ageOf s r.startTick ∧ limitThread s k r = some x)
  ∧ (∃ (s : State) (k : Fin 256) (n : BitVec 32) (r : Run), workRun s k n = some r
      ∧ (ageOf s r.startTick < (kernelAt s k).runLimit ∨ r.started = false ∨ r.status ≠ stOk)) :=
  ⟨⟨sK v0, 0, { opcode := 0x10, payLen := 32, payload := leBytes 8 2 ++ List.replicate 24 0 }, 0, by decide +kernel⟩,
  ⟨State.reset, 0, { opcode := 0x10 }, 0, by decide +kernel⟩,
  ⟨sK v0 .off, 0, { opcode := 0x10, payLen := 32, payload := leBytes 8 2 ++ List.replicate 24 0 }, 0, by decide +kernel,
      by decide +kernel, by decide +kernel, by decide +kernel, Option.isSome_iff_exists.mp (by decide +kernel)⟩,
  ⟨sK v0, 0, { opcode := 0x10, payLen := 32, payload := leBytes 8 2 ++ List.replicate 24 0 }, 0, by decide +kernel⟩,
  ⟨State.reset, 0, { opcode := 0x10 }, 0, by decide +kernel⟩,
  ⟨State.reset, 0, {}, by decide +kernel⟩,
  ⟨sQ { v0 with lib := 1 }, 0, { opcode := 0x11, payload := leBytes 4 (1 <<< 16) ++ leBytes 8 (100 <<< 32) ++ List.replicate 20 0 ++ List.replicate 256 0 }, 0, by decide +kernel⟩,
  ⟨State.reset, 0, { opcode := 0x11 }, 0, by decide +kernel⟩,
  ⟨setFn (sQ { v0 with lib := 1 }) (.kernel 0) {}, 0,
      { opcode := 0x11, payload := leBytes 4 (1 <<< 16) ++ leBytes 8 (100 <<< 32) ++ List.replicate 20 0 ++ List.replicate 256 0 }, 0, by decide +kernel, by decide +kernel, by decide +kernel, by decide +kernel, Option.isSome_iff_exists.mp (by decide +kernel)⟩,
  ⟨State.reset, 0, {}, by decide +kernel⟩,
  ⟨sK { v0 with runs := [r0] }, 0, r0, by decide +kernel⟩,
  ⟨State.reset, 0, some_all (by decide +kernel)⟩,
  ⟨{ sK { v0 with runLimit := 5, runs := [{ r0 with started := true }] } with tick.elapsed := 5, work.thr := [(32, { active := true })] }, 0, 0, { r0 with started := true }, ⟨1, 0⟩, by decide +kernel⟩,
  ⟨sK { v0 with runs := [r0] }, 0, 0, r0, by decide +kernel⟩⟩

/-- Every clause of ScalarResults has a state and operands that meet its hypotheses. -/
theorem test_witness_scalarResults :
  (∀ e ∈ ([(.add, 0x00, fun a b => a + b), (.sub, 0x01, fun a b => a - b),
      (.mul, 0x02, fun a b => BitVec.ofNat 64 (a.toNat * b.toNat)),
      (.mulhu, 0x03, fun a b => BitVec.ofNat 64 (a.toNat * b.toNat / 2 ^ 64)), (.and, 0x04, fun a b => a &&& b),
      (.or, 0x05, fun a b => a ||| b), (.xor, 0x06, fun a b => a ^^^ b), (.shl, 0x07, fun a b => a <<< (b.toNat % 64)),
      (.shr, 0x08, fun a b => a >>> (b.toNat % 64)), (.sar, 0x09, fun a b => BitVec.ofInt 64 (a.toInt / 2 ^ (b.toNat % 64))),
      (.min, 0x0A, fun a b => if a.toInt < b.toInt then a else b),
      (.max, 0x0B, fun a b => if a.toInt < b.toInt then b else a),
      (.minu, 0x0C, fun a b => if a.toNat < b.toNat then a else b),
      (.maxu, 0x0D, fun a b => if a.toNat < b.toNat then b else a),
      (.slt, 0x0E, fun a b => if a.toInt < b.toInt then 1 else 0),
      (.sltu, 0x0F, fun a b => if a.toNat < b.toNat then 1 else 0)] : List ((Thr → Instr) × Nat × (Word → Word → Word))),
      ∃ (s : State) (t : Thr) (i : IWord), Issues s t 0 e.2.1 i)
  ∧ (∀ e ∈ ([(.addi, 0x10, fun a b => a + b), (.andi, 0x11, fun a b => a &&& b), (.ori, 0x12, fun a b => a ||| b),
      (.xori, 0x13, fun a b => a ^^^ b), (.shli, 0x14, fun a b => a <<< (b.toNat % 64)),
      (.shri, 0x15, fun a b => a >>> (b.toNat % 64)),
      (.sari, 0x16, fun a b => BitVec.ofInt 64 (a.toInt / 2 ^ (b.toNat % 64))),
      (.li, 0x17, fun _ b => b)] : List ((Thr → Instr) × Nat × (Word → Word → Word))), ∃ (s : State) (t : Thr) (i : IWord),
      Issues s t 0 e.2.1 i)
  ∧ (∃ (s : State) (t : Thr) (i : IWord), Issues s t 0 0x18 i)
  ∧ (∀ e ∈ ([(.fadd, 0x19, fun m z a b _ => fpAdd fp32 m z a b), (.fsub, 0x1A, fun m z a b _ => fpSub fp32 m z a b),
      (.fmul, 0x1B, fun m z a b _ => fpMul fp32 m z a b),
      (.fma, 0x1C, fun m z a b c => fpFma fp32 m z a b c)] : List ((Thr → Instr) × Nat × (Rnd → Bool → Nat → Nat → Nat → Nat × FpFlags))), ∃ (s : State) (t : Thr) (i : IWord), Issues s t 0 e.2.1 i)
  ∧ (∃ (s : State) (t : Thr) (i : IWord), Issues s t 0 0x1D i)
  ∧ (∃ (s : State) (t : Thr) (i : IWord), Issues s t 0 0x1E i)
  ∧ (∃ (s : State) (t : Thr) (i : IWord), Issues s t 0 0x1F i) :=
  ⟨(fun e he => ⟨sI (wOf 0 e.2.1), t0, wOf 0 e.2.1, by
    have h := (by decide +kernel : ∀ e ∈ ([(.add, 0x00, fun a b => a + b), (.sub, 0x01, fun a b => a - b),
        (.mul, 0x02, fun a b => BitVec.ofNat 64 (a.toNat * b.toNat)),
        (.mulhu, 0x03, fun a b => BitVec.ofNat 64 (a.toNat * b.toNat / 2 ^ 64)), (.and, 0x04, fun a b => a &&& b),
        (.or, 0x05, fun a b => a ||| b), (.xor, 0x06, fun a b => a ^^^ b), (.shl, 0x07, fun a b => a <<< (b.toNat % 64)),
        (.shr, 0x08, fun a b => a >>> (b.toNat % 64)),
        (.sar, 0x09, fun a b => BitVec.ofInt 64 (a.toInt / 2 ^ (b.toNat % 64))),
        (.min, 0x0A, fun a b => if a.toInt < b.toInt then a else b),
        (.max, 0x0B, fun a b => if a.toInt < b.toInt then b else a),
        (.minu, 0x0C, fun a b => if a.toNat < b.toNat then a else b),
        (.maxu, 0x0D, fun a b => if a.toNat < b.toNat then b else a),
        (.slt, 0x0E, fun a b => if a.toInt < b.toInt then 1 else 0),
        (.sltu, 0x0F, fun a b => if a.toNat < b.toNat then 1 else 0)] : List ((Thr → Instr) × Nat × (Word → Word → Word))),
        (issuesB (sI (wOf 0 e.2.1) : State) (t0 : Thr) 0 e.2.1 (wOf 0 e.2.1 : IWord) = true)) e he
    exact issues_of h⟩),
  (fun e he => ⟨sI (wOf 0 e.2.1), t0, wOf 0 e.2.1, by
    have h := (by decide +kernel : ∀ e ∈ ([(.addi, 0x10, fun a b => a + b), (.andi, 0x11, fun a b => a &&& b),
        (.ori, 0x12, fun a b => a ||| b), (.xori, 0x13, fun a b => a ^^^ b), (.shli, 0x14, fun a b => a <<< (b.toNat % 64)),
        (.shri, 0x15, fun a b => a >>> (b.toNat % 64)),
        (.sari, 0x16, fun a b => BitVec.ofInt 64 (a.toInt / 2 ^ (b.toNat % 64))),
        (.li, 0x17, fun _ b => b)] : List ((Thr → Instr) × Nat × (Word → Word → Word))),
        (issuesB (sI (wOf 0 e.2.1) : State) (t0 : Thr) 0 e.2.1 (wOf 0 e.2.1 : IWord) = true)) e he
    exact issues_of h⟩),
  ⟨sI (wOf 0 0x18), t0, wOf 0 0x18, issues_of (by decide +kernel)⟩,
  (fun e he => ⟨sI (wOf 0 e.2.1), t0, wOf 0 e.2.1, by
    have h := (by decide +kernel : ∀ e ∈ ([(.fadd, 0x19, fun m z a b _ => fpAdd fp32 m z a b),
        (.fsub, 0x1A, fun m z a b _ => fpSub fp32 m z a b), (.fmul, 0x1B, fun m z a b _ => fpMul fp32 m z a b),
        (.fma, 0x1C, fun m z a b c => fpFma fp32 m z a b c)] : List ((Thr → Instr) × Nat × (Rnd → Bool → Nat → Nat → Nat → Nat × FpFlags))), (issuesB (sI (wOf 0 e.2.1) : State) (t0 : Thr) 0 e.2.1 (wOf 0 e.2.1 : IWord) = true)) e he
    exact issues_of h⟩),
  ⟨sI (wOf 0 0x1D), t0, wOf 0 0x1D, issues_of (by decide +kernel)⟩,
  ⟨sI (wOf 0 0x1E), t0, wOf 0 0x1E, issues_of (by decide +kernel)⟩,
  ⟨sI (wOf 0 31) {}, t0, (wOf 0 31), issues_of (by decide +kernel)⟩⟩

/-- Every clause of VectorArithmeticLanes has a state and operands that meet its hypotheses. -/
theorem test_witness_vectorArithmeticLanes : ∀ e ∈ ([(.vadd, 0x00, elemLane elemAdd), (.vsub, 0x01, elemLane elemSub),
    (.vmul, 0x02, elemLane elemMul), (.vfma, 0x03, elemLane elemFma),
    (.vmin, 0x04, elemLane (fun f _ _ => elemMinMax false f)), (.vmax, 0x05, elemLane (fun f _ _ => elemMinMax true f)),
    (.vabs, 0x06, elemLane (fun f _ z => elemAbs f z)), (.vneg, 0x07, elemLane (fun f _ z => elemNeg f z)),
    (.vshl, 0x0B, elemLane (fun f _ _ => elemShl f)), (.vshr, 0x0C, elemLane (fun f _ _ => elemShr f)),
    (.vsar, 0x0D, elemLane (fun f _ _ => elemSar f)), (.vexp, 0x14, funLane fpExp), (.vexp2, 0x15, funLane fpExp2),
    (.vlog2, 0x16, funLane fpLog2), (.vrcp, 0x17, funLane fpRcp), (.vrsqrt, 0x18, funLane fpRsqrt),
    (.vsqrt, 0x19, funLane fpSqrt)] : List ((Thr → Instr) × Nat × (IWord → Thread → Nat → BitVec 32))),
    ∃ (s : State) (t : Thr) (i : IWord), Issues s t 1 e.2.1 i ∧ tblWf 0 (thr s t).v = true :=
  fun e he => ⟨sI (wOf 1 e.2.1), t0, wOf 1 e.2.1, by
    have h := (by decide +kernel : ∀ e ∈ ([(.vadd, 0x00, elemLane elemAdd), (.vsub, 0x01, elemLane elemSub),
        (.vmul, 0x02, elemLane elemMul), (.vfma, 0x03, elemLane elemFma),
        (.vmin, 0x04, elemLane (fun f _ _ => elemMinMax false f)), (.vmax, 0x05, elemLane (fun f _ _ => elemMinMax true f)),
        (.vabs, 0x06, elemLane (fun f _ z => elemAbs f z)), (.vneg, 0x07, elemLane (fun f _ z => elemNeg f z)),
        (.vshl, 0x0B, elemLane (fun f _ _ => elemShl f)), (.vshr, 0x0C, elemLane (fun f _ _ => elemShr f)),
        (.vsar, 0x0D, elemLane (fun f _ _ => elemSar f)), (.vexp, 0x14, funLane fpExp), (.vexp2, 0x15, funLane fpExp2),
        (.vlog2, 0x16, funLane fpLog2), (.vrcp, 0x17, funLane fpRcp), (.vrsqrt, 0x18, funLane fpRsqrt),
        (.vsqrt, 0x19, funLane fpSqrt)] : List ((Thr → Instr) × Nat × (IWord → Thread → Nat → BitVec 32))),
        (issuesB (sI (wOf 1 e.2.1) : State) (t0 : Thr) 1 e.2.1 (wOf 1 e.2.1 : IWord) = true)
        ∧ (tblWf 0 (thr (sI (wOf 1 e.2.1) : State) (t0 : Thr)).v = true)) e he
    exact ⟨issues_of h.1, h.2⟩⟩

/-- Every clause of VectorMovesAndPredicates has a state and operands that meet its hypotheses. -/
theorem test_witness_vectorMovesAndPredicates :
  (∀ e ∈ ([(.vand, 0x08, fun i h l => h.lane i.a.toNat l &&& h.lane i.b.toNat l),
      (.vor, 0x09, fun i h l => h.lane i.a.toNat l ||| h.lane i.b.toNat l),
      (.vxor, 0x0A, fun i h l => h.lane i.a.toNat l ^^^ h.lane i.b.toNat l), (.vmov, 0x0E, fun i h l => h.lane i.a.toNat l),
      (.vbcast, 0x0F, fun i h _ => (h.sReg i.a.toNat).setWidth 32), (.vlane, 0x10, fun _ _ l => BitVec.ofNat 32 l),
      (.vperm, 0x13, fun i h l => h.lane i.a.toNat ((h.lane i.b.toNat l).toNat % 256)),
      (.vexpd, 0x1B, fun i h l => h.lane i.a.toNat ((maskLanes (h.pReg i.pg.toNat)).idxOf l)),
      (.vsel, 0x1C, fun i h l => if bit (h.pReg i.c.toNat) l then h.lane i.a.toNat l else h.lane i.b.toNat l)] : List ((Thr → Instr) × Nat × (IWord → Thread → Nat → BitVec 32))), ∃ (s : State) (t : Thr) (i : IWord), Issues s t 1 e.2.1 i ∧ tblWf 0 (thr s t).v = true)
  ∧ (∃ (s : State) (t : Thr) (i : IWord), Issues s t 1 0x1A i ∧ tblWf 0 (thr s t).v = true)
  ∧ (∃ (s : State) (t : Thr) (i : IWord), Issues s t 1 0x11 i)
  ∧ (∃ (s : State) (t : Thr) (i : IWord), Issues s t 1 0x12 i ∧ tblWf 0 (thr s t).v = true)
  ∧ (∃ (s : State) (t : Thr) (i : IWord), Issues s t 2 0x00 i)
  ∧ (∃ (s : State) (t : Thr) (i : IWord), Issues s t 2 0x01 i)
  ∧ (∀ e ∈ ([(.pand, 0x02, fun a b => a &&& b), (.por, 0x03, fun a b => a ||| b), (.pxor, 0x04, fun a b => a ^^^ b),
      (.pnot, 0x05, fun a _ => ~~~a), (.pset, 0x06, fun _ _ => BitVec.allOnes 256),
      (.pclr, 0x07, fun _ _ => 0)] : List ((Thr → Instr) × Nat × (BitVec 256 → BitVec 256 → BitVec 256))),
      ∃ (s : State) (t : Thr) (i : IWord), Issues s t 2 e.2.1 i)
  ∧ (∃ (s : State) (t : Thr) (i : IWord), Issues s t 2 0x08 i)
  ∧ (∃ (s : State) (t : Thr) (i : IWord), Issues s t 2 0x09 i)
  ∧ (∃ (s : State) (t : Thr) (i : IWord), Issues s t 2 0x0A i)
  ∧ (∃ (s : State) (t : Thr) (i : IWord), Issues s t 2 0x0B i)
  ∧ (∃ (s : State) (t : Thr) (i : IWord), Issues s t 2 0x0C i) :=
  ⟨(fun e he => ⟨sI (wOf 1 e.2.1), t0, wOf 1 e.2.1, by
    have h := (by decide +kernel : ∀ e ∈ ([(.vand, 0x08, fun i h l => h.lane i.a.toNat l &&& h.lane i.b.toNat l),
        (.vor, 0x09, fun i h l => h.lane i.a.toNat l ||| h.lane i.b.toNat l),
        (.vxor, 0x0A, fun i h l => h.lane i.a.toNat l ^^^ h.lane i.b.toNat l),
        (.vmov, 0x0E, fun i h l => h.lane i.a.toNat l), (.vbcast, 0x0F, fun i h _ => (h.sReg i.a.toNat).setWidth 32),
        (.vlane, 0x10, fun _ _ l => BitVec.ofNat 32 l),
        (.vperm, 0x13, fun i h l => h.lane i.a.toNat ((h.lane i.b.toNat l).toNat % 256)),
        (.vexpd, 0x1B, fun i h l => h.lane i.a.toNat ((maskLanes (h.pReg i.pg.toNat)).idxOf l)),
        (.vsel, 0x1C, fun i h l => if bit (h.pReg i.c.toNat) l then h.lane i.a.toNat l else h.lane i.b.toNat l)] : List ((Thr → Instr) × Nat × (IWord → Thread → Nat → BitVec 32))), (issuesB (sI (wOf 1 e.2.1) : State) (t0 : Thr) 1 e.2.1 (wOf 1 e.2.1 : IWord) = true) ∧ (tblWf 0 (thr (sI (wOf 1 e.2.1) : State) (t0 : Thr)).v = true)) e he
    exact ⟨issues_of h.1, h.2⟩⟩),
  ⟨sI (wOf 1 0x1A), t0, wOf 1 0x1A, issues_of (by decide +kernel), by decide +kernel⟩,
  ⟨sI (wOf 1 0x11), t0, wOf 1 0x11, issues_of (by decide +kernel)⟩,
  ⟨sI (wOf 1 0x12), t0, wOf 1 0x12, issues_of (by decide +kernel), by decide +kernel⟩,
  ⟨sI (wOf 2 0x00), t0, wOf 2 0x00, issues_of (by decide +kernel)⟩,
  ⟨sI (wOf 2 0x01), t0, wOf 2 0x01, issues_of (by decide +kernel)⟩,
  (fun e he => ⟨sI (wOf 2 e.2.1), t0, wOf 2 e.2.1, by
    have h := (by decide +kernel : ∀ e ∈ ([(.pand, 0x02, fun a b => a &&& b), (.por, 0x03, fun a b => a ||| b),
        (.pxor, 0x04, fun a b => a ^^^ b), (.pnot, 0x05, fun a _ => ~~~a), (.pset, 0x06, fun _ _ => BitVec.allOnes 256),
        (.pclr, 0x07, fun _ _ => 0)] : List ((Thr → Instr) × Nat × (BitVec 256 → BitVec 256 → BitVec 256))),
        (issuesB (sI (wOf 2 e.2.1) : State) (t0 : Thr) 2 e.2.1 (wOf 2 e.2.1 : IWord) = true)) e he
    exact issues_of h⟩),
  ⟨sI (wOf 2 0x08), t0, wOf 2 0x08, issues_of (by decide +kernel)⟩,
  ⟨sI (wOf 2 0x09), t0, wOf 2 0x09, issues_of (by decide +kernel)⟩,
  ⟨sI (wOf 2 0x0A), t0, wOf 2 0x0A, issues_of (by decide +kernel)⟩,
  ⟨sI (wOf 2 0x0B), t0, wOf 2 0x0B, issues_of (by decide +kernel)⟩,
  ⟨sI (wOf 2 0x0C), t0, wOf 2 0x0C, issues_of (by decide +kernel)⟩⟩

/-- Every clause of ConvertDotAndReductions has a state and operands that meet its hypotheses. -/
theorem test_witness_convertDotAndReductions :
  (∃ (s : State) (t : Thr) (i : IWord), Issues s t 3 0x00 i ∧ i.fmt ≠ 5 ∧ tblWf 0 (thr s t).v = true)
  ∧ (∀ e ∈ ([(.bfpe, 3, 0x01, fun i h l => BitVec.ofNat 32 (bfpRunE i h l)),
      (.bfpd, 3, 0x03, fun i h l => BitVec.ofNat 32 (bfpValue (bfpK i) ((h.lane i.b.toNat l).toNat % 256) (h.lane i.a.toNat l).toNat).1), (.dot, 4, 0x00, fun i h l => (dotLane i.fmt i.aux (rndOf i.rnd) i.sat (h.lane i.d.toNat l) (pairElems i.fmt h i.a.toNat l) (pairElems i.fmt h i.b.toNat l) (h.lane i.c.toNat l)).1), (.dots, 4, 0x01, fun i h l => (dotLane i.fmt i.aux (rndOf i.rnd) i.sat (h.lane i.d.toNat l) (pairElems i.fmt h i.a.toNat l) (scalarElems i.fmt (h.sReg i.b.toNat)) (h.lane i.c.toNat l)).1)] : List ((Thr → Instr) × Nat × Nat × (IWord → Thread → Nat → BitVec 32))), ∃ (s : State) (t : Thr) (i : IWord), Issues s t e.2.1 e.2.2.1 i ∧ tblWf 0 (thr s t).v = true)
  ∧ (∃ (s : State) (t : Thr) (i : IWord), Issues s t 3 0x02 i ∧ tblWf 0 (thr s t).v = true)
  ∧ (∃ (s : State) (t : Thr) (i : IWord), Issues s t 5 0x00 i)
  ∧ (∀ e ∈ ([(.rmax, 0x01, true, false), (.rmin, 0x02, false, false), (.rmaxi, 0x03, true, true),
      (.rmini, 0x04, false, true)] : List ((Thr → Instr) × Nat × Bool × Bool)), ∃ (s : State) (t : Thr) (i : IWord),
      Issues s t 5 e.2.1 i)
  ∧ (∃ (s : State) (t : Thr) (i : IWord), Issues s t 5 0x05 i ∧ tblWf 0 (thr s t).v = true) :=
  ⟨⟨sI (wOf 3 0x00), t0, wOf 3 0x00, issues_of (by decide +kernel), by decide +kernel⟩,
  (fun e he => ⟨sI (wOf e.2.1 e.2.2.1), t0, wOf e.2.1 e.2.2.1, by
    have h := (by decide +kernel : ∀ e ∈ ([(.bfpe, 3, 0x01, fun i h l => BitVec.ofNat 32 (bfpRunE i h l)),
        (.bfpd, 3, 0x03, fun i h l => BitVec.ofNat 32 (bfpValue (bfpK i) ((h.lane i.b.toNat l).toNat % 256) (h.lane i.a.toNat l).toNat).1), (.dot, 4, 0x00, fun i h l => (dotLane i.fmt i.aux (rndOf i.rnd) i.sat (h.lane i.d.toNat l) (pairElems i.fmt h i.a.toNat l) (pairElems i.fmt h i.b.toNat l) (h.lane i.c.toNat l)).1), (.dots, 4, 0x01, fun i h l => (dotLane i.fmt i.aux (rndOf i.rnd) i.sat (h.lane i.d.toNat l) (pairElems i.fmt h i.a.toNat l) (scalarElems i.fmt (h.sReg i.b.toNat)) (h.lane i.c.toNat l)).1)] : List ((Thr → Instr) × Nat × Nat × (IWord → Thread → Nat → BitVec 32))), (issuesB (sI (wOf e.2.1 e.2.2.1) : State) (t0 : Thr) e.2.1 e.2.2.1 (wOf e.2.1 e.2.2.1 : IWord) = true) ∧ (tblWf 0 (thr (sI (wOf e.2.1 e.2.2.1) : State) (t0 : Thr)).v = true)) e he
    exact ⟨issues_of h.1, h.2⟩⟩),
  ⟨sI (wOf 3 0x02), t0, wOf 3 0x02, issues_of (by decide +kernel), by decide +kernel⟩,
  ⟨sI (wOf 5 0x00), t0, wOf 5 0x00, issues_of (by decide +kernel)⟩,
  (fun e he => ⟨sI (wOf 5 e.2.1), t0, wOf 5 e.2.1, by
    have h := (by decide +kernel : ∀ e ∈ ([(.rmax, 0x01, true, false), (.rmin, 0x02, false, false),
        (.rmaxi, 0x03, true, true), (.rmini, 0x04, false, true)] : List ((Thr → Instr) × Nat × Bool × Bool)),
        (issuesB (sI (wOf 5 e.2.1) : State) (t0 : Thr) 5 e.2.1 (wOf 5 e.2.1 : IWord) = true)) e he
    exact issues_of h⟩),
  ⟨sI (wOf 5 0x05), t0, wOf 5 0x05, issues_of (by decide +kernel), by decide +kernel⟩⟩

/-- Every clause of ScalarAndVectorAccesses has a state and operands that meet its hypotheses. -/
theorem test_witness_scalarAndVectorAccesses :
  (∀ e ∈ ([(.ld, 0x00, false), (.lds, 0x01, true)] : List ((Thr → Instr) × Nat × Bool)),
      ∃ (s : State) (t : Thr) (i : IWord) (o : Nat), Issues s t 6 e.2.1 i
      ∧ (accAddr i (thr s t)).toNat % (sizeBytes i.size) = 0 ∧ memPath s t.array.val (accAddr i (thr s t)) = .direct o
      ∧ o + (sizeBytes i.size) ≤ 0x400000 ∧ s.work.badWord = [])
  ∧ (∃ (s : State) (t : Thr) (i : IWord) (o : Nat), Issues s t 6 0x02 i
      ∧ (accAddr i (thr s t)).toNat % (sizeBytes i.size) = 0 ∧ memPath s t.array.val (accAddr i (thr s t)) = .direct o
      ∧ o + (sizeBytes i.size) ≤ 0x400000 ∧ s.work.badWord = [] ∧ s.work.memWf = true)
  ∧ (∀ e ∈ ([(.ld, 0x00), (.lds, 0x01), (.st, 0x02)] : List ((Thr → Instr) × Nat)), ∃ (s : State) (t : Thr) (i : IWord),
      Issues s t 6 e.2 i ∧ (accAddr i (thr s t)).toNat % sizeBytes i.size ≠ 0)
  ∧ (∃ (s : State) (t : Thr) (i : IWord), (Issues s t 6 (((.ld, 0x00, false) : (Thr → Instr) × Nat × Bool)).2.1 i)
      ∧ (accAddr i (thr s t)).toNat % (sizeBytes i.size) = 0
      ∧ (memPath s t.array.val (accAddr i (thr s t)) = .far ∨ memPath s t.array.val (accAddr i (thr s t)) = .node)
      ∧ (∃ u, (thrSend t (thrPacket 0x01 (kernelAt s (thr s t).kernel).tenant (accAddr i (thr s t))) (sizeBytes i.size) [] (.load i.d.toNat (sizeBytes i.size) (((.ld, 0x00, false) : (Thr → Instr) × Nat × Bool)).2.2) (fun y => { y.next with busy := y.busy ++ [.s i.d.toNat] }) s) = some u))
  ∧ (∃ (s : State) (t : Thr) (i : IWord), (Issues s t 6 (((.ld, 0x00, false) : (Thr → Instr) × Nat × Bool)).2.1 i)
      ∧ (accAddr i (thr s t)).toNat % (sizeBytes i.size) = 0
      ∧ (memPath s t.array.val (accAddr i (thr s t)) = .far ∨ memPath s t.array.val (accAddr i (thr s t)) = .node)
      ∧ ((thrSend t (thrPacket 0x01 (kernelAt s (thr s t).kernel).tenant (accAddr i (thr s t))) (sizeBytes i.size) [] (.load i.d.toNat (sizeBytes i.size) (((.ld, 0x00, false) : (Thr → Instr) × Nat × Bool)).2.2) (fun y => { y.next with busy := y.busy ++ [.s i.d.toNat] }) s) = none))
  ∧ (∃ (s : State) (t : Thr) (i : IWord), Issues s t 6 0x02 i ∧ (accAddr i (thr s t)).toNat % (sizeBytes i.size) = 0
      ∧ (memPath s t.array.val (accAddr i (thr s t)) = .far ∨ memPath s t.array.val (accAddr i (thr s t)) = .node)
      ∧ (∃ u, (thrSend t (thrPacket 0x02 (kernelAt s (thr s t).kernel).tenant (accAddr i (thr s t))) (sizeBytes i.size) (leBytes (sizeBytes i.size) ((thr s t).sReg i.d.toNat).toNat) .store Thread.next s) = some u))
  ∧ (∃ (s : State) (t : Thr) (i : IWord), Issues s t 6 0x02 i ∧ (accAddr i (thr s t)).toNat % (sizeBytes i.size) = 0
      ∧ (memPath s t.array.val (accAddr i (thr s t)) = .far ∨ memPath s t.array.val (accAddr i (thr s t)) = .node)
      ∧ (thrSend t (thrPacket 0x02 (kernelAt s (thr s t).kernel).tenant (accAddr i (thr s t))) (sizeBytes i.size) (leBytes (sizeBytes i.size) ((thr s t).sReg i.d.toNat).toNat) .store Thread.next s) = none)
  ∧ (∀ e ∈ ([(.ld, 0x00), (.lds, 0x01), (.st, 0x02)] : List ((Thr → Instr) × Nat)), ∃ (s : State) (t : Thr) (i : IWord),
      Issues s t 6 e.2 i ∧ (accAddr i (thr s t)).toNat % sizeBytes i.size = 0
      ∧ memPath s t.array.val (accAddr i (thr s t)) = .reserved)
  ∧ (∃ (s : State) (s1 : State) (t : Thr) (i : IWord) (sp : Nat × Nat) (m : Tbl Byte) (o : Nat), Issues s t 6 0x03 i
      ∧ vecSpan i.size ((thr s t).pReg i.pg.toNat) = some sp ∧ (accAddr i (thr s t)).toNat % sizeBytes i.size = 0
      ∧ oneRegion s t.array.val (accAddr i (thr s t) + BitVec.ofNat 64 sp.1) sp.2 = true
      ∧ memPath s t.array.val (accAddr i (thr s t) + BitVec.ofNat 64 sp.1) = .direct o
      ∧ readRuns t (kernelAt s (thr s t).kernel).tenant (accAddr i (thr s t)) (activeRuns i.size ((thr s t).pReg i.pg.toNat) sp) s = (.ok m, s1) ∧ tblWf 0 (thr s t).v = true)
  ∧ (∃ (s : State) (s1 : State) (t : Thr) (i : IWord) (sp : Nat × Nat) (o : Nat), Issues s t 6 0x04 i
      ∧ vecSpan i.size ((thr s t).pReg i.pg.toNat) = some sp ∧ (accAddr i (thr s t)).toNat % sizeBytes i.size = 0
      ∧ oneRegion s t.array.val (accAddr i (thr s t) + BitVec.ofNat 64 sp.1) sp.2 = true
      ∧ memPath s t.array.val (accAddr i (thr s t) + BitVec.ofNat 64 sp.1) = .direct o
      ∧ (writeRunsAt t (kernelAt s (thr s t).kernel).tenant (accAddr i (thr s t)) (storeRuns ((upFrom sp.1 sp.2).map (fun b => (b, storeByte i.size ((thr s t).pReg i.pg.toNat) ((thr s t).lane i.d.toNat) b)))) s = (none, s1)))
  ∧ (∀ e ∈ ([(.vlds, 0x05, strided), (.vldg, 0x07, gathered)] : List ((Thr → Instr) × Nat × (Thread → IWord → Nat → Word))),
      ∃ (s : State) (t : Thr) (i : IWord) (off : Nat → Nat), Issues s t 6 e.2.1 i
      ∧ (∀ x ∈ laneAddrs (e.2.2 (thr s t) i) i (thr s t), x.2.toNat % (sizeBytes i.size) = 0
      ∧ memPath s t.array.val x.2 = .direct (off x.1) ∧ off x.1 + (sizeBytes i.size) ≤ 0x400000) ∧ thrItems s t = []
      ∧ s.work.badWord = [] ∧ tblWf 0 (thr s t).v = true)
  ∧ (∀ e ∈ ([(.vsts, 0x06, strided), (.vstg, 0x08, gathered)] : List ((Thr → Instr) × Nat × (Thread → IWord → Nat → Word))),
      ∃ (s : State) (t : Thr) (i : IWord) (off : Nat → Nat), Issues s t 6 e.2.1 i
      ∧ (∀ x ∈ laneAddrs (e.2.2 (thr s t) i) i (thr s t), x.2.toNat % (sizeBytes i.size) = 0
      ∧ memPath s t.array.val x.2 = .direct (off x.1) ∧ off x.1 + (sizeBytes i.size) ≤ 0x400000) ∧ thrItems s t = []
      ∧ s.work.badWord = [] ∧ s.work.memWf = true) :=
  ⟨(fun e he => ⟨sI (wOf 6 e.2.1 0 1 0) { s := [(1, arr + 4096)] }, t0, (wOf 6 e.2.1 0 1 0), 4096, by
    have h := (by decide +kernel : ∀ e ∈ ([(.ld, 0x00, false), (.lds, 0x01, true)] : List ((Thr → Instr) × Nat × Bool)),
        (issuesB (sI (wOf 6 e.2.1 0 1 0) { s := [(1, arr + 4096)] } : State) (t0 : Thr) 6 e.2.1 ((wOf 6 e.2.1 0 1 0) : IWord) = true) ∧ ((accAddr ((wOf 6 e.2.1 0 1 0) : IWord) (thr (sI (wOf 6 e.2.1 0 1 0) { s := [(1, arr + 4096)] } : State) (t0 : Thr))).toNat % (sizeBytes ((wOf 6 e.2.1 0 1 0) : IWord).size) = 0) ∧ (memPath (sI (wOf 6 e.2.1 0 1 0) { s := [(1, arr + 4096)] } : State) (t0 : Thr).array.val (accAddr ((wOf 6 e.2.1 0 1 0) : IWord) (thr (sI (wOf 6 e.2.1 0 1 0) { s := [(1, arr + 4096)] } : State) (t0 : Thr))) = .direct (4096 : Nat)) ∧ ((4096 : Nat) + (sizeBytes ((wOf 6 e.2.1 0 1 0) : IWord).size) ≤ 0x400000) ∧ ((sI (wOf 6 e.2.1 0 1 0) { s := [(1, arr + 4096)] } : State).work.badWord = [])) e he
    exact ⟨issues_of h.1, h.2⟩⟩),
  ⟨sI (wOf 6 2 0 1 0) { s := [(1, arr + 4096)] }, t0, (wOf 6 2 0 1 0), 4096, issues_of (by decide +kernel),
      by decide +kernel⟩,
  (fun e he => ⟨sI (wOf 6 e.2 0 1 0 0 (1 <<< 29)) { s := [(1, arr + 4097)] }, t0, (wOf 6 e.2 0 1 0 0 (1 <<< 29)), by
    have h := (by decide +kernel : ∀ e ∈ ([(.ld, 0x00), (.lds, 0x01), (.st, 0x02)] : List ((Thr → Instr) × Nat)),
        (issuesB (sI (wOf 6 e.2 0 1 0 0 (1 <<< 29)) { s := [(1, arr + 4097)] } : State) (t0 : Thr) 6 e.2 ((wOf 6 e.2 0 1 0 0 (1 <<< 29)) : IWord) = true) ∧ ((accAddr ((wOf 6 e.2 0 1 0 0 (1 <<< 29)) : IWord) (thr (sI (wOf 6 e.2 0 1 0 0 (1 <<< 29)) { s := [(1, arr + 4097)] } : State) (t0 : Thr))).toNat % sizeBytes ((wOf 6 e.2 0 1 0 0 (1 <<< 29)) : IWord).size ≠ 0)) e he
    exact ⟨issues_of h.1, h.2⟩⟩),
  ⟨sI (wOf 6 (((.ld, 0x00, false) : (Thr → Instr) × Nat × Bool)).2.1 0 1 0) { s := [(1, 0x0010000000000000)] }, t0,
      (wOf 6 (((.ld, 0x00, false) : (Thr → Instr) × Nat × Bool)).2.1 0 1 0), issues_of (by decide +kernel),
      by decide +kernel, by decide +kernel, Option.isSome_iff_exists.mp (by decide +kernel)⟩,
  ⟨{ (sI (wOf 6 (((.ld, 0x00, false) : (Thr → Instr) × Nat × Bool)).2.1 0 1 0) { s := [(1, 0x0010000000000000)] }) with items.own := (List.range 512).map (fun n => { tag := BitVec.ofNat 16 n, opcode := 1, dst := 0, addr := 0, len := 8, sent := 0, use := .thread t0 .store }) }, t0, (wOf 6 (((.ld, 0x00, false) : (Thr → Instr) × Nat × Bool)).2.1 0 1 0), issues_of (by decide +kernel), by decide +kernel⟩,
  ⟨sI (wOf 6 2 0 1 0) { s := [(1, 0x0010000000000000)] }, t0, (wOf 6 2 0 1 0), issues_of (by decide +kernel),
      by decide +kernel, by decide +kernel, Option.isSome_iff_exists.mp (by decide +kernel)⟩,
  ⟨{ (sI (wOf 6 2 0 1 0) { s := [(1, 0x0010000000000000)] }) with items.own := (List.range 512).map (fun n => { tag := BitVec.ofNat 16 n, opcode := 1, dst := 0, addr := 0, len := 8, sent := 0, use := .thread t0 .store }) }, t0, (wOf 6 2 0 1 0), issues_of (by decide +kernel), by decide +kernel⟩,
  (fun e he => ⟨sI (wOf 6 e.2 0 1 0) { s := [(1, 0x30000000000)] }, t0, (wOf 6 e.2 0 1 0), by
    have h := (by decide +kernel : ∀ e ∈ ([(.ld, 0x00), (.lds, 0x01), (.st, 0x02)] : List ((Thr → Instr) × Nat)),
        (issuesB (sI (wOf 6 e.2 0 1 0) { s := [(1, 0x30000000000)] } : State) (t0 : Thr) 6 e.2 ((wOf 6 e.2 0 1 0) : IWord) = true) ∧ ((accAddr ((wOf 6 e.2 0 1 0) : IWord) (thr (sI (wOf 6 e.2 0 1 0) { s := [(1, 0x30000000000)] } : State) (t0 : Thr))).toNat % sizeBytes ((wOf 6 e.2 0 1 0) : IWord).size = 0) ∧ (memPath (sI (wOf 6 e.2 0 1 0) { s := [(1, 0x30000000000)] } : State) (t0 : Thr).array.val (accAddr ((wOf 6 e.2 0 1 0) : IWord) (thr (sI (wOf 6 e.2 0 1 0) { s := [(1, 0x30000000000)] } : State) (t0 : Thr))) = .reserved)) e he
    exact ⟨issues_of h.1, h.2⟩⟩),
  ⟨sI (wOf 6 3 0 1 0) { s := [(1, arr + 4096)], p := [(0, 1)] },
      sI (wOf 6 3 0 1 0) { s := [(1, arr + 4096)], p := [(0, 1)] }, t0, (wOf 6 3 0 1 0), (0, 1), [], 4096,
      issues_of (by decide +kernel), by decide +kernel, by decide +kernel, by decide +kernel, by decide +kernel, rfl,
      by decide +kernel⟩,
  ⟨sI (wOf 6 4 0 1 0) { s := [(1, arr + 4096)], p := [(0, 1)] },
      (writeRunsAt t0 (kernelAt (sI (wOf 6 4 0 1 0) { s := [(1, arr + 4096)], p := [(0, 1)] }) (thr (sI (wOf 6 4 0 1 0) { s := [(1, arr + 4096)], p := [(0, 1)] }) t0).kernel).tenant (accAddr ((wOf 6 4 0 1 0)) (thr (sI (wOf 6 4 0 1 0) { s := [(1, arr + 4096)], p := [(0, 1)] }) t0)) (storeRuns ((upFrom 0 1).map (fun b => (b, storeByte ((wOf 6 4 0 1 0)).size ((thr (sI (wOf 6 4 0 1 0) { s := [(1, arr + 4096)], p := [(0, 1)] }) t0).pReg ((wOf 6 4 0 1 0)).pg.toNat) ((thr (sI (wOf 6 4 0 1 0) { s := [(1, arr + 4096)], p := [(0, 1)] }) t0).lane ((wOf 6 4 0 1 0)).d.toNat) b)))) (sI (wOf 6 4 0 1 0) { s := [(1, arr + 4096)], p := [(0, 1)] })).2, t0, (wOf 6 4 0 1 0), (0, 1), 4096, issues_of (by decide +kernel), by decide +kernel, by decide +kernel, by decide +kernel, by decide +kernel, pair_none (by decide +kernel)⟩,
  (fun e he => ⟨sI (wOf 6 e.2.1), t0, wOf 6 e.2.1, fun _ => 0, by
    have h := (by decide +kernel : ∀ e ∈ ([(.vlds, 0x05, strided),
        (.vldg, 0x07, gathered)] : List ((Thr → Instr) × Nat × (Thread → IWord → Nat → Word))),
        (issuesB (sI (wOf 6 e.2.1) : State) (t0 : Thr) 6 e.2.1 (wOf 6 e.2.1 : IWord) = true)
        ∧ (∀ x ∈ laneAddrs (e.2.2 (thr (sI (wOf 6 e.2.1) : State) (t0 : Thr)) (wOf 6 e.2.1 : IWord)) (wOf 6 e.2.1 : IWord) (thr (sI (wOf 6 e.2.1) : State) (t0 : Thr)), x.2.toNat % (sizeBytes (wOf 6 e.2.1 : IWord).size) = 0 ∧ memPath (sI (wOf 6 e.2.1) : State) (t0 : Thr).array.val x.2 = .direct ((fun _ => 0 : Nat → Nat) x.1) ∧ (fun _ => 0 : Nat → Nat) x.1 + (sizeBytes (wOf 6 e.2.1 : IWord).size) ≤ 0x400000) ∧ (thrItems (sI (wOf 6 e.2.1) : State) (t0 : Thr) = []) ∧ ((sI (wOf 6 e.2.1) : State).work.badWord = []) ∧ (tblWf 0 (thr (sI (wOf 6 e.2.1) : State) (t0 : Thr)).v = true)) e he
    exact ⟨issues_of h.1, h.2⟩⟩),
  (fun e he => ⟨sI (wOf 6 e.2.1), t0, wOf 6 e.2.1, fun _ => 0, by
    have h := (by decide +kernel : ∀ e ∈ ([(.vsts, 0x06, strided),
        (.vstg, 0x08, gathered)] : List ((Thr → Instr) × Nat × (Thread → IWord → Nat → Word))),
        (issuesB (sI (wOf 6 e.2.1) : State) (t0 : Thr) 6 e.2.1 (wOf 6 e.2.1 : IWord) = true)
        ∧ (∀ x ∈ laneAddrs (e.2.2 (thr (sI (wOf 6 e.2.1) : State) (t0 : Thr)) (wOf 6 e.2.1 : IWord)) (wOf 6 e.2.1 : IWord) (thr (sI (wOf 6 e.2.1) : State) (t0 : Thr)), x.2.toNat % (sizeBytes (wOf 6 e.2.1 : IWord).size) = 0 ∧ memPath (sI (wOf 6 e.2.1) : State) (t0 : Thr).array.val x.2 = .direct ((fun _ => 0 : Nat → Nat) x.1) ∧ (fun _ => 0 : Nat → Nat) x.1 + (sizeBytes (wOf 6 e.2.1 : IWord).size) ≤ 0x400000) ∧ (thrItems (sI (wOf 6 e.2.1) : State) (t0 : Thr) = []) ∧ ((sI (wOf 6 e.2.1) : State).work.badWord = []) ∧ ((sI (wOf 6 e.2.1) : State).work.memWf = true)) e he
    exact ⟨issues_of h.1, h.2⟩⟩)⟩

/-- Every clause of ThreadAtomics has a state and operands that meet its hypotheses. -/
theorem test_witness_threadAtomics :
  (∀ e ∈ ([(.afadd64, 0x00, 0x08), (.aswap64, 0x01, 0x09), (.acas64, 0x02, 0x0A), (.acas128, 0x03, 0x0B),
      (.afaddf32, 0x04, 0x0C), (.afaddbf16, 0x05, 0x0D)] : List ((Thr → Instr) × Nat × Nat)),
      ∃ (s : State) (t : Thr) (i : IWord) (o : Nat), Issues s t 7 e.2.1 i
      ∧ (accAddr i (thr s t)).toNat % (atomicWidth e.2.2) = 0 ∧ memPath s t.array.val (accAddr i (thr s t)) = .direct o
      ∧ o + (atomicWidth e.2.2) ≤ 0x400000 ∧ s.work.badWord = [] ∧ s.work.memWf = true)
  ∧ (∀ e ∈ ([(.afadd64, 0x00, 0x08), (.aswap64, 0x01, 0x09), (.acas64, 0x02, 0x0A), (.acas128, 0x03, 0x0B),
      (.afaddf32, 0x04, 0x0C), (.afaddbf16, 0x05, 0x0D)] : List ((Thr → Instr) × Nat × Nat)),
      ∃ (s : State) (t : Thr) (i : IWord), Issues s t 7 e.2.1 i ∧ (accAddr i (thr s t)).toNat % (atomicWidth e.2.2) ≠ 0)
  ∧ (∀ e ∈ ([(.afadd64, 0x00, 0x08), (.aswap64, 0x01, 0x09), (.acas64, 0x02, 0x0A), (.acas128, 0x03, 0x0B),
      (.afaddf32, 0x04, 0x0C), (.afaddbf16, 0x05, 0x0D)] : List ((Thr → Instr) × Nat × Nat)),
      ∃ (s : State) (t : Thr) (i : IWord), Issues s t 7 e.2.1 i ∧ (accAddr i (thr s t)).toNat % (atomicWidth e.2.2) = 0
      ∧ memPath s t.array.val (accAddr i (thr s t)) = .reserved)
  ∧ (∃ (s : State) (t : Thr) (i : IWord), (Issues s t 7 (((.afadd64, 0x00, 0x08) : (Thr → Instr) × Nat × Nat)).2.1 i)
      ∧ ((accAddr i (thr s t)).toNat % (atomicWidth (((.afadd64, 0x00, 0x08) : (Thr → Instr) × Nat × Nat)).2.2) = 0)
      ∧ (memPath s t.array.val (accAddr i (thr s t)) = .far ∨ memPath s t.array.val (accAddr i (thr s t)) = .node)
      ∧ (∃ u, (thrSend t (thrPacket (BitVec.ofNat 8 (((.afadd64, 0x00,
      0x08) : (Thr → Instr) × Nat × Nat)).2.2) (kernelAt s (thr s t).kernel).tenant (accAddr i (thr s t))) (leBytes (atomicWidth (((.afadd64, 0x00, 0x08) : (Thr → Instr) × Nat × Nat)).2.2) (atomOperand (decide ((((.afadd64, 0x00, 0x08) : (Thr → Instr) × Nat × Nat)).2.2 = 0x0B)) (thr s t) i.b.toNat % 2 ^ (8 * (atomicWidth (((.afadd64, 0x00, 0x08) : (Thr → Instr) × Nat × Nat)).2.2))) ++ (if (((.afadd64, 0x00, 0x08) : (Thr → Instr) × Nat × Nat)).2.2 = 0x0A ∨ (((.afadd64, 0x00, 0x08) : (Thr → Instr) × Nat × Nat)).2.2 = 0x0B then leBytes (atomicWidth (((.afadd64, 0x00, 0x08) : (Thr → Instr) × Nat × Nat)).2.2) (atomOperand (decide ((((.afadd64, 0x00, 0x08) : (Thr → Instr) × Nat × Nat)).2.2 = 0x0B)) (thr s t) i.c.toNat % 2 ^ (8 * (atomicWidth (((.afadd64, 0x00, 0x08) : (Thr → Instr) × Nat × Nat)).2.2))) else [])).length (leBytes (atomicWidth (((.afadd64, 0x00, 0x08) : (Thr → Instr) × Nat × Nat)).2.2) (atomOperand (decide ((((.afadd64, 0x00, 0x08) : (Thr → Instr) × Nat × Nat)).2.2 = 0x0B)) (thr s t) i.b.toNat % 2 ^ (8 * (atomicWidth (((.afadd64, 0x00, 0x08) : (Thr → Instr) × Nat × Nat)).2.2))) ++ (if (((.afadd64, 0x00, 0x08) : (Thr → Instr) × Nat × Nat)).2.2 = 0x0A ∨ (((.afadd64, 0x00, 0x08) : (Thr → Instr) × Nat × Nat)).2.2 = 0x0B then leBytes (atomicWidth (((.afadd64, 0x00, 0x08) : (Thr → Instr) × Nat × Nat)).2.2) (atomOperand (decide ((((.afadd64, 0x00, 0x08) : (Thr → Instr) × Nat × Nat)).2.2 = 0x0B)) (thr s t) i.c.toNat % 2 ^ (8 * (atomicWidth (((.afadd64, 0x00, 0x08) : (Thr → Instr) × Nat × Nat)).2.2))) else [])) (.atomic i.d.toNat (decide ((((.afadd64, 0x00, 0x08) : (Thr → Instr) × Nat × Nat)).2.2 = 0x0B))) (fun y => { y.next with busy := y.busy ++ oldBusy (decide ((((.afadd64, 0x00, 0x08) : (Thr → Instr) × Nat × Nat)).2.2 = 0x0B)) i.d.toNat }) s) = some u))
  ∧ (∃ (s : State) (t : Thr) (i : IWord), (Issues s t 7 (((.afadd64, 0x00, 0x08) : (Thr → Instr) × Nat × Nat)).2.1 i)
      ∧ ((accAddr i (thr s t)).toNat % (atomicWidth (((.afadd64, 0x00, 0x08) : (Thr → Instr) × Nat × Nat)).2.2) = 0)
      ∧ (memPath s t.array.val (accAddr i (thr s t)) = .far ∨ memPath s t.array.val (accAddr i (thr s t)) = .node)
      ∧ ((thrSend t (thrPacket (BitVec.ofNat 8 (((.afadd64, 0x00,
      0x08) : (Thr → Instr) × Nat × Nat)).2.2) (kernelAt s (thr s t).kernel).tenant (accAddr i (thr s t))) (leBytes (atomicWidth (((.afadd64, 0x00, 0x08) : (Thr → Instr) × Nat × Nat)).2.2) (atomOperand (decide ((((.afadd64, 0x00, 0x08) : (Thr → Instr) × Nat × Nat)).2.2 = 0x0B)) (thr s t) i.b.toNat % 2 ^ (8 * (atomicWidth (((.afadd64, 0x00, 0x08) : (Thr → Instr) × Nat × Nat)).2.2))) ++ (if (((.afadd64, 0x00, 0x08) : (Thr → Instr) × Nat × Nat)).2.2 = 0x0A ∨ (((.afadd64, 0x00, 0x08) : (Thr → Instr) × Nat × Nat)).2.2 = 0x0B then leBytes (atomicWidth (((.afadd64, 0x00, 0x08) : (Thr → Instr) × Nat × Nat)).2.2) (atomOperand (decide ((((.afadd64, 0x00, 0x08) : (Thr → Instr) × Nat × Nat)).2.2 = 0x0B)) (thr s t) i.c.toNat % 2 ^ (8 * (atomicWidth (((.afadd64, 0x00, 0x08) : (Thr → Instr) × Nat × Nat)).2.2))) else [])).length (leBytes (atomicWidth (((.afadd64, 0x00, 0x08) : (Thr → Instr) × Nat × Nat)).2.2) (atomOperand (decide ((((.afadd64, 0x00, 0x08) : (Thr → Instr) × Nat × Nat)).2.2 = 0x0B)) (thr s t) i.b.toNat % 2 ^ (8 * (atomicWidth (((.afadd64, 0x00, 0x08) : (Thr → Instr) × Nat × Nat)).2.2))) ++ (if (((.afadd64, 0x00, 0x08) : (Thr → Instr) × Nat × Nat)).2.2 = 0x0A ∨ (((.afadd64, 0x00, 0x08) : (Thr → Instr) × Nat × Nat)).2.2 = 0x0B then leBytes (atomicWidth (((.afadd64, 0x00, 0x08) : (Thr → Instr) × Nat × Nat)).2.2) (atomOperand (decide ((((.afadd64, 0x00, 0x08) : (Thr → Instr) × Nat × Nat)).2.2 = 0x0B)) (thr s t) i.c.toNat % 2 ^ (8 * (atomicWidth (((.afadd64, 0x00, 0x08) : (Thr → Instr) × Nat × Nat)).2.2))) else [])) (.atomic i.d.toNat (decide ((((.afadd64, 0x00, 0x08) : (Thr → Instr) × Nat × Nat)).2.2 = 0x0B))) (fun y => { y.next with busy := y.busy ++ oldBusy (decide ((((.afadd64, 0x00, 0x08) : (Thr → Instr) × Nat × Nat)).2.2 = 0x0B)) i.d.toNat }) s) = none)) :=
  ⟨(fun e he => ⟨sI (wOf 7 e.2.1 0 1 0) { s := [(1, arr + 4096)] }, t0, (wOf 7 e.2.1 0 1 0), 4096, by
    have h := (by decide +kernel : ∀ e ∈ ([(.afadd64, 0x00, 0x08), (.aswap64, 0x01, 0x09), (.acas64, 0x02, 0x0A),
        (.acas128, 0x03, 0x0B), (.afaddf32, 0x04, 0x0C), (.afaddbf16, 0x05, 0x0D)] : List ((Thr → Instr) × Nat × Nat)),
        (issuesB (sI (wOf 7 e.2.1 0 1 0) { s := [(1, arr + 4096)] } : State) (t0 : Thr) 7 e.2.1 ((wOf 7 e.2.1 0 1 0) : IWord) = true) ∧ ((accAddr ((wOf 7 e.2.1 0 1 0) : IWord) (thr (sI (wOf 7 e.2.1 0 1 0) { s := [(1, arr + 4096)] } : State) (t0 : Thr))).toNat % (atomicWidth e.2.2) = 0) ∧ (memPath (sI (wOf 7 e.2.1 0 1 0) { s := [(1, arr + 4096)] } : State) (t0 : Thr).array.val (accAddr ((wOf 7 e.2.1 0 1 0) : IWord) (thr (sI (wOf 7 e.2.1 0 1 0) { s := [(1, arr + 4096)] } : State) (t0 : Thr))) = .direct (4096 : Nat)) ∧ ((4096 : Nat) + (atomicWidth e.2.2) ≤ 0x400000) ∧ ((sI (wOf 7 e.2.1 0 1 0) { s := [(1, arr + 4096)] } : State).work.badWord = []) ∧ ((sI (wOf 7 e.2.1 0 1 0) { s := [(1, arr + 4096)] } : State).work.memWf = true)) e he
    exact ⟨issues_of h.1, h.2⟩⟩),
  (fun e he => ⟨sI (wOf 7 e.2.1 0 1 0) { s := [(1, arr + 4097)] }, t0, (wOf 7 e.2.1 0 1 0), by
    have h := (by decide +kernel : ∀ e ∈ ([(.afadd64, 0x00, 0x08), (.aswap64, 0x01, 0x09), (.acas64, 0x02, 0x0A),
        (.acas128, 0x03, 0x0B), (.afaddf32, 0x04, 0x0C), (.afaddbf16, 0x05, 0x0D)] : List ((Thr → Instr) × Nat × Nat)),
        (issuesB (sI (wOf 7 e.2.1 0 1 0) { s := [(1, arr + 4097)] } : State) (t0 : Thr) 7 e.2.1 ((wOf 7 e.2.1 0 1 0) : IWord) = true) ∧ ((accAddr ((wOf 7 e.2.1 0 1 0) : IWord) (thr (sI (wOf 7 e.2.1 0 1 0) { s := [(1, arr + 4097)] } : State) (t0 : Thr))).toNat % (atomicWidth e.2.2) ≠ 0)) e he
    exact ⟨issues_of h.1, h.2⟩⟩),
  (fun e he => ⟨sI (wOf 7 e.2.1 0 1 0) { s := [(1, 0x30000000000)] }, t0, (wOf 7 e.2.1 0 1 0), by
    have h := (by decide +kernel : ∀ e ∈ ([(.afadd64, 0x00, 0x08), (.aswap64, 0x01, 0x09), (.acas64, 0x02, 0x0A),
        (.acas128, 0x03, 0x0B), (.afaddf32, 0x04, 0x0C), (.afaddbf16, 0x05, 0x0D)] : List ((Thr → Instr) × Nat × Nat)),
        (issuesB (sI (wOf 7 e.2.1 0 1 0) { s := [(1, 0x30000000000)] } : State) (t0 : Thr) 7 e.2.1 ((wOf 7 e.2.1 0 1 0) : IWord) = true) ∧ ((accAddr ((wOf 7 e.2.1 0 1 0) : IWord) (thr (sI (wOf 7 e.2.1 0 1 0) { s := [(1, 0x30000000000)] } : State) (t0 : Thr))).toNat % (atomicWidth e.2.2) = 0) ∧ (memPath (sI (wOf 7 e.2.1 0 1 0) { s := [(1, 0x30000000000)] } : State) (t0 : Thr).array.val (accAddr ((wOf 7 e.2.1 0 1 0) : IWord) (thr (sI (wOf 7 e.2.1 0 1 0) { s := [(1, 0x30000000000)] } : State) (t0 : Thr))) = .reserved)) e he
    exact ⟨issues_of h.1, h.2⟩⟩),
  ⟨sI (wOf 7 (((.afadd64, 0x00, 0x08) : (Thr → Instr) × Nat × Nat)).2.1 0 1 0) { s := [(1, 0x0010000000000000)] }, t0,
      (wOf 7 (((.afadd64, 0x00, 0x08) : (Thr → Instr) × Nat × Nat)).2.1 0 1 0), issues_of (by decide +kernel),
      by decide +kernel, by decide +kernel, Option.isSome_iff_exists.mp (by decide +kernel)⟩,
  ⟨{ (sI (wOf 7 (((.afadd64, 0x00, 0x08) : (Thr → Instr) × Nat × Nat)).2.1 0 1 0) { s := [(1, 0x0010000000000000)] }) with items.own := (List.range 512).map (fun n => { tag := BitVec.ofNat 16 n, opcode := 1, dst := 0, addr := 0, len := 8, sent := 0, use := .thread t0 .store }) }, t0, (wOf 7 (((.afadd64, 0x00, 0x08) : (Thr → Instr) × Nat × Nat)).2.1 0 1 0), issues_of (by decide +kernel), by decide +kernel⟩⟩

/-- Every clause of SynchronisationAndControl has a state and operands that meet its hypotheses. -/
theorem test_witness_synchronisationAndControl :
  (∃ (s : State) (t : Thr) (i : IWord), Issues s t 8 0x00 i ∧ (i.aux ≠ 2 ∨ thrItems s t = []))
  ∧ (∃ (s : State) (t : Thr) (i : IWord), Issues s t 8 0x00 i ∧ i.aux = 2 ∧ thrItems s t ≠ [])
  ∧ (∃ (s : State) (t : Thr) (i : IWord), Issues s t 8 0x01 i ∧ (i.aux ≠ 2 ∨ thrItems s t = []))
  ∧ (∃ (s : State) (t : Thr) (i : IWord), Issues s t 8 0x02 i ∧ ((thr s t).sReg i.b.toNat).toNat % 8 ≠ 0)
  ∧ (∃ (s : State) (t : Thr) (i : IWord), Issues s t 8 0x02 i ∧ ((thr s t).sReg i.b.toNat).toNat % 8 = 0
      ∧ (∀ o, memPath s t.array.val ((thr s t).sReg i.b.toNat) ≠ .direct o))
  ∧ (∃ (s : State) (t : Thr) (i : IWord) (o : Nat), Issues s t 8 0x02 i ∧ ((thr s t).sReg i.b.toNat).toNat % 8 = 0
      ∧ memPath s t.array.val ((thr s t).sReg i.b.toNat) = .direct o ∧ o + 256 ≤ 0x400000
      ∧ (launchLen (memRead s.work.mem (arrayBase t.array.val + o) 32)) ≤ 256 ∧ s.work.badWord = []
      ∧ (thrItems s t).length < 16 ∧ (findTag s (workTags (workPort t.array.val)).1 (workTags (workPort t.array.val)).2).isSome = true)
  ∧ (∃ (s : State) (t : Thr) (i : IWord), Issues s t 8 0x03 i ∧ i.aux ≠ 4)
  ∧ (∃ (s : State) (t : Thr) (i : IWord), Issues s t 8 0x03 i ∧ i.aux = 4)
  ∧ (∀ e ∈ ([(.br, 0x00, fun _ _ => true), (.bz, 0x01, fun i h => h.sReg i.a.toNat = 0),
      (.bnz, 0x02, fun i h => h.sReg i.a.toNat ≠ 0), (.bpany, 0x03, fun i h => h.pReg i.a.toNat ≠ 0),
      (.bpnone, 0x04, fun i h => h.pReg i.a.toNat = 0),
      (.nop, 0x08, fun _ _ => false)] : List ((Thr → Instr) × Nat × (IWord → Thread → Bool))),
      ∃ (s : State) (t : Thr) (i : IWord), Issues s t 9 e.2.1 i)
  ∧ (∃ (s : State) (t : Thr) (i : IWord), Issues s t 9 0x05 i)
  ∧ (∃ (s : State) (t : Thr) (i : IWord), Issues s t 9 0x06 i)
  ∧ (∃ (s : State) (t : Thr) (i : IWord), Issues s t 9 0x09 i ∧ tblWf 0 (thr s t).s = true)
  ∧ (∃ (s : State) (t : Thr) (i : IWord), Issues s t 9 0x07 i) :=
  ⟨⟨sI (wOf 8 0) {}, t0, (wOf 8 0), issues_of (by decide +kernel), by decide +kernel⟩,
  ⟨{ (sI (wOf 8 0 0 0 0 0 (2 <<< 20))) with items.own := [{ tag := 0, opcode := 1, dst := 0, addr := 0, len := 8, sent := 0, use := .thread t0 (.load 0 8 false) }] }, t0, (wOf 8 0 0 0 0 0 (2 <<< 20)), issues_of (by decide +kernel), by decide +kernel⟩,
  ⟨sI (wOf 8 1) {}, t0, (wOf 8 1), issues_of (by decide +kernel), by decide +kernel⟩,
  ⟨sI (wOf 8 2 0 0 1) { s := [(1, arr + 1)] }, t0, (wOf 8 2 0 0 1), issues_of (by decide +kernel), by decide +kernel⟩,
  ⟨sI (wOf 8 2 0 0 1) { s := [(1, 0x30000000000)] }, t0, (wOf 8 2 0 0 1), issues_of (by decide +kernel), by decide +kernel,
      fun o => by
      have hp : memPath (sI (wOf 8 2 0 0 1) { s := [(1, 0x30000000000)] }) 0
          ((thr (sI (wOf 8 2 0 0 1) { s := [(1, 0x30000000000)] }) t0).sReg 1) = .reserved := by decide +kernel
      intro hq
      exact MemPath.noConfusion (hp.symm.trans hq)⟩,
  ⟨sI (wOf 8 2 0 0 1) { s := [(1, arr + 4096)] }, t0, (wOf 8 2 0 0 1), 4096, issues_of (by decide +kernel),
      by decide +kernel⟩,
  ⟨sI (wOf 8 0x03), t0, wOf 8 0x03, issues_of (by decide +kernel), by decide +kernel⟩,
  ⟨sI (wOf 8 3 0 0 0 0 (4 <<< 20)) {}, t0, (wOf 8 3 0 0 0 0 (4 <<< 20)), issues_of (by decide +kernel), by decide +kernel⟩,
  (fun e he => ⟨sI (wOf 9 e.2.1) {}, t0, (wOf 9 e.2.1), by
    have h := (by decide +kernel : ∀ e ∈ ([(.br, 0x00, fun _ _ => true), (.bz, 0x01, fun i h => h.sReg i.a.toNat = 0),
        (.bnz, 0x02, fun i h => h.sReg i.a.toNat ≠ 0), (.bpany, 0x03, fun i h => h.pReg i.a.toNat ≠ 0),
        (.bpnone, 0x04, fun i h => h.pReg i.a.toNat = 0),
        (.nop, 0x08, fun _ _ => false)] : List ((Thr → Instr) × Nat × (IWord → Thread → Bool))),
        (issuesB (sI (wOf 9 e.2.1) {} : State) (t0 : Thr) 9 e.2.1 ((wOf 9 e.2.1) : IWord) = true)) e he
    exact issues_of h⟩),
  ⟨sI (wOf 9 0x05), t0, wOf 9 0x05, issues_of (by decide +kernel)⟩,
  ⟨sI (wOf 9 0x06), t0, wOf 9 0x06, issues_of (by decide +kernel)⟩,
  ⟨sI (wOf 9 0x09), t0, wOf 9 0x09, issues_of (by decide +kernel), by decide +kernel⟩,
  ⟨sI (wOf 9 0x07), t0, wOf 9 0x07, issues_of (by decide +kernel)⟩⟩

/-- Every clause of IllegalInstructionsFault has a state and operands that meet its hypotheses. -/
theorem test_witness_illegalInstructionsFault :
  (∃ (t : Thr) (s : State), mayIssue s (thr s t) = true ∧ (kernelAt s (thr s t).kernel).codeLen < 8 * (thr s t).pc + 8)
  ∧ (∃ (t : Thr) (s : State) (w : Word), mayIssue s (thr s t) = true
      ∧ fetchInstr s (kernelAt s (thr s t).kernel) t (thr s t) = (0, some w)
      ∧ opRule (decodeWord w).cls.toNat (decodeWord w).op.toNat = none)
  ∧ (∃ (t : Thr) (s : State) (w : Word) (r : OpRule), mayIssue s (thr s t) = true
      ∧ fetchInstr s (kernelAt s (thr s t).kernel) t (thr s t) = (0, some w)
      ∧ opRule (decodeWord w).cls.toNat (decodeWord w).op.toNat = some r ∧ wordOk r (decodeWord w) = false)
  ∧ (∃ (s : State) (t : Thr) (cause : Nat) (r : Run), workRun s (thr s t).kernel (thr s t).run = some r ∧ r.status = stOk
      ∧ faultStatus cause ≠ stOk ∧ tblWf {} s.work.thr = true) :=
  ⟨⟨t0, sI (wOf 9 8) { pc := 8 }, by decide +kernel⟩,
  ⟨t0, sI (wOf 10 0), encodeWord (wOf 10 0), by decide +kernel⟩,
  ⟨t0, sI (wOf 9 8 1), encodeWord (wOf 9 8 1), { form := .r [0] false false 0 }, by decide +kernel⟩,
  ⟨sI (wOf 9 8), t0, 1, { num := 0, gen := 0, by_ := .desc d0, threads := 1, args := [], started := true },
      by decide +kernel⟩⟩

/-- Every clause of GatewayDescriptorsAndFrames has a state and operands that meet its hypotheses. -/
theorem test_witness_gatewayDescriptorsAndFrames :
  (∃ (s : State) (d : DRef) (f : InFlight) (q : Fin 16384), Startable s d 0x60 f ∧ qpTarget f = some q
      ∧ dGen f.desc = fnGen s (.qp q) ∧ fnSt s (.qp q) = .off)
  ∧ (∃ (s : State) (d : DRef) (f : InFlight) (q : Fin 16384), Startable s d 0x60 f ∧ qpTarget f = some q
      ∧ dGen f.desc = fnGen s (.qp q) ∧ fnSt s (.qp q) ≠ .off)
  ∧ (∃ (s : State) (d : DRef) (f : InFlight) (q : Fin 16384), Startable s d 0x63 f ∧ qpTarget f = some q
      ∧ dGen f.desc = fnGen s (.qp q) ∧ (qpOf s q).ctx.isSome = true ∧ (qpOf s q).tenant = dTenant s f)
  ∧ (∀ e ∈ ([(.gwWrite, 0x64), (.gwRead, 0x65), (.gwSend, 0x66)] : List ((DRef → Instr) × BitVec 8)),
      ∃ (s : State) (d : DRef) (f : InFlight) (q : Fin 16384) (c : QpCtx), Startable s d e.2 f ∧ qpTarget f = some q
      ∧ dGen f.desc = fnGen s (.qp q) ∧ (qpOf s q).ctx = some c ∧ (qpOf s q).tenant = dTenant s f
      ∧ (decide (0 < (fld f.desc 320 32)) && decide ((fld f.desc 320 32) ≤ if e.2 = 0x66 then 1048576 else 2 ^ 31)) = true
      ∧ (fnSt s (.qp q) = .on ∨ fnSt s (.qp q) = .starting))
  ∧ (∀ e ∈ ([(.gwWrite, 0x64), (.gwRead, 0x65), (.gwSend, 0x66)] : List ((DRef → Instr) × BitVec 8)),
      ∃ (s : State) (d : DRef) (f : InFlight) (q : Fin 16384) (c : QpCtx), Startable s d e.2 f ∧ qpTarget f = some q
      ∧ dGen f.desc = fnGen s (.qp q) ∧ (qpOf s q).ctx = some c ∧ (qpOf s q).tenant = dTenant s f
      ∧ (decide (0 < (fld f.desc 320 32)) && decide ((fld f.desc 320 32) ≤ if e.2 = 0x66 then 1048576 else 2 ^ 31)) = true
      ∧ (fnSt s (.qp q) = .off ∨ fnSt s (.qp q) = .stopping))
  ∧ (∀ e ∈ ([(.gwWrite, 0x64), (.gwRead, 0x65), (.gwSend, 0x66)] : List ((DRef → Instr) × BitVec 8)),
      ∃ (s : State) (d : DRef) (f : InFlight) (q : Fin 16384) (c : QpCtx), Startable s d e.2 f ∧ qpTarget f = some q
      ∧ dGen f.desc = fnGen s (.qp q) ∧ (qpOf s q).ctx = some c ∧ (qpOf s q).tenant = dTenant s f
      ∧ (decide (0 < (fld f.desc 320 32)) && decide ((fld f.desc 320 32) ≤ if e.2 = 0x66 then 1048576 else 2 ^ 31)) = false)
  ∧ (∀ e ∈ ([(.gwWrite, 0x64), (.gwRead, 0x65), (.gwSend, 0x66)] : List ((DRef → Instr) × BitVec 8)),
      ∃ (s : State) (d : DRef) (f : InFlight) (q : Fin 16384) (c : QpCtx), Startable s d e.2 f ∧ qpTarget f = some q
      ∧ dGen f.desc = fnGen s (.qp q) ∧ (qpOf s q).ctx = some c ∧ (qpOf s q).tenant = dTenant s f ∧ fnSt s (.qp q) = .on
      ∧ (qpOf s q).outs = [] ∧ (qpOf s q).ready = [] ∧ (qpOf s q).rnrTo = none ∧ 0 < fld f.desc 320 32
      ∧ fld f.desc 320 32 ≤ (if e.2 = 0x66 then 1048576 else 2 ^ 31))
  ∧ (∀ e ∈ ([(.qpConfig, 0x60, false), (.qpQuery, 0x63, true),
      (.gwRecvPost, 0x67, true)] : List ((DRef → Instr) × BitVec 8 × Bool)), ∃ (s : State) (d : DRef) (f : InFlight),
      Startable s d e.2.1 f ∧ qpTarget f = none)
  ∧ (∀ e ∈ ([(.qpConfig, 0x60, false), (.qpQuery, 0x63, true),
      (.gwRecvPost, 0x67, true)] : List ((DRef → Instr) × BitVec 8 × Bool)),
      ∃ (s : State) (d : DRef) (f : InFlight) (q : Fin 16384), Startable s d e.2.1 f ∧ qpTarget f = some q
      ∧ dGen f.desc ≠ fnGen s (.qp q))
  ∧ (∀ e ∈ ([(.qpQuery, 0x63, true), (.gwRecvPost, 0x67, true)] : List ((DRef → Instr) × BitVec 8 × Bool)),
      ∃ (s : State) (d : DRef) (f : InFlight) (q : Fin 16384), Startable s d e.2.1 f ∧ qpTarget f = some q ∧ e.2.2 = true
      ∧ dGen f.desc = fnGen s (.qp q) ∧ ((qpOf s q).ctx = none ∨ (qpOf s q).tenant ≠ dTenant s f))
  ∧ (∃ (s : State) (d : DRef) (f : InFlight) (q : Fin 16384) (c : QpCtx), Startable s d 0x67 f ∧ qpTarget f = some q
      ∧ dGen f.desc = fnGen s (.qp q) ∧ (qpOf s q).ctx = some c ∧ (qpOf s q).tenant = dTenant s f
      ∧ (qpOf s q).free + fld f.desc 192 16 ≤ c.recvSlots)
  ∧ (∃ (s : State) (d : DRef) (f : InFlight) (q : Fin 16384) (c : QpCtx), Startable s d 0x67 f ∧ qpTarget f = some q
      ∧ dGen f.desc = fnGen s (.qp q) ∧ (qpOf s q).ctx = some c ∧ (qpOf s q).tenant = dTenant s f
      ∧ ((qpOf s q).free + fld f.desc 192 16) ≤ c.recvSlots)
  ∧ (∃ (s : State) (d : DRef) (f : InFlight) (q : Fin 16384) (c : QpCtx), Startable s d 0x67 f ∧ qpTarget f = some q
      ∧ dGen f.desc = fnGen s (.qp q) ∧ (qpOf s q).ctx = some c ∧ (qpOf s q).tenant = dTenant s f
      ∧ c.recvSlots < ((qpOf s q).free + fld f.desc 192 16))
  ∧ (∃ (s : State) (l : Fin 16) (f : EthFrame), ethOn s l = true ∧ (ethPort s l).up = true ∧ ethAccepts s l f = false)
  ∧ (∃ (s : State) (l : Fin 16) (f : EthFrame), (ethOn s l = false ∨ (ethPort s l).up = false ∨ ethAccepts s l f = true))
  ∧ (∃ (s : State) (l : Fin 16) (f : ArpRequest), ethTakes s l f.frame = true ∧ fld (ethCfg s l 3) 0 32 ≠ 0
      ∧ f.targetIp.toNat = fld (ethCfg s l 3) 0 32)
  ∧ (∃ (s : State) (l : Fin 16) (f : ArpRequest), (ethTakes s l f.frame = false ∨ fld (ethCfg s l 3) 0 32 = 0 ∨ f.targetIp.toNat ≠ fld (ethCfg s l 3) 0 32))
  ∧ (∃ (s : State) (l : Fin 16) (f : NeighbourSolicit), ethTakes s l f.frame = true ∧ ethIp6 s l ≠ 0
      ∧ f.targetIp = ethIp6 s l)
  ∧ (∃ (s : State) (l : Fin 16) (f : NeighbourSolicit),
      (ethTakes s l f.frame = false ∨ ethIp6 s l = 0 ∨ f.targetIp ≠ ethIp6 s l))
  ∧ (∃ (s : State) (s1 : State) (l : Fin 16) (bs : List Byte) (f : EthTx), markFrame f = none ∧ ethPass l bs s = (none, s1))
  ∧ (∃ (s : State) (s1 : State) (l : Fin 16) (bs : List Byte) (f : EthTx) (ce : Bool) (v : Nat), markFrame f = none
      ∧ ethPass l bs s = (some ce, s1) ∧ v ≠ (pcpClass s l none).val)
  ∧ (∃ (s : State) (s1 : State) (l : Fin 16) (bs : List Byte) (f : EthTx) (ce : Bool) (j : Fin 16), markFrame f = none
      ∧ ethPass l bs s = (some ce, s1) ∧ j ≠ l)
  ∧ (∃ (s : State) (l : Fin 16), ethOn s l = true ∧ (ethPort s l).up = true ∧ tblWf 0 (ethPort s l).paused = true)
  ∧ (∃ (s : State) (l : Fin 16), (ethOn s l = false ∨ (ethPort s l).up = false))
  ∧ (∃ (s : State) (l : Fin 16) (c : Fin 8) (b : BitVec 48), tblGet none (ethPort s l).pausing c.val = some b
      ∧ pfcEn s l c.val = true ∧ 16 ≤ ageOf s b ∧ fld (ethCfg s l 6) 0 14 ≤ heldUnits s l c)
  ∧ (∃ (s : State) (l : Fin 16) (c : Fin 8), (∀ b, tblGet none (ethPort s l).pausing c.val = some b → ageOf s b < 16 ∨ pfcEn s l c.val = false ∨ heldUnits s l c < fld (ethCfg s l 6) 0 14)) :=
  ⟨⟨inFlight (fl 0x60) (setFn (State.reset) (.qp (0 : Fin 16384)) { st := .off }), d0, fl 0x60, 0,
      ⟨by decide +kernel, by decide +kernel, by decide +kernel⟩, by decide +kernel⟩,
  ⟨inFlight (fl 0x60) (sE), d0, fl 0x60, 0, ⟨by decide +kernel, by decide +kernel, by decide +kernel⟩, by decide +kernel⟩,
  ⟨inFlight (fl 0x63 0 (0)) (sE), d0, fl 0x63 0 (0), 0, ⟨by decide +kernel, by decide +kernel, by decide +kernel⟩,
      by decide +kernel⟩,
  (fun e he => ⟨inFlight (fl e.2.toNat 0 (100 <<< 320)) (sE), d0, fl e.2.toNat 0 (100 <<< 320), 0, qc0,
      (by unfold Startable; decide +kernel : ∀ e ∈ ([(.gwWrite, 0x64), (.gwRead, 0x65),
      (.gwSend, 0x66)] : List ((DRef → Instr) × BitVec 8)),
      (Startable (inFlight (fl e.2.toNat 0 (100 <<< 320)) (sE) : State) (d0 : DRef) e.2 (fl e.2.toNat 0 (100 <<< 320) : InFlight)) ∧ (qpTarget (fl e.2.toNat 0 (100 <<< 320) : InFlight) = some (0 : Fin 16384)) ∧ (dGen (fl e.2.toNat 0 (100 <<< 320) : InFlight).desc = fnGen (inFlight (fl e.2.toNat 0 (100 <<< 320)) (sE) : State) (.qp (0 : Fin 16384))) ∧ ((qpOf (inFlight (fl e.2.toNat 0 (100 <<< 320)) (sE) : State) (0 : Fin 16384)).ctx = some (qc0 : QpCtx)) ∧ ((qpOf (inFlight (fl e.2.toNat 0 (100 <<< 320)) (sE) : State) (0 : Fin 16384)).tenant = dTenant (inFlight (fl e.2.toNat 0 (100 <<< 320)) (sE) : State) (fl e.2.toNat 0 (100 <<< 320) : InFlight)) ∧ ((decide (0 < (fld (fl e.2.toNat 0 (100 <<< 320) : InFlight).desc 320 32)) && decide ((fld (fl e.2.toNat 0 (100 <<< 320) : InFlight).desc 320 32) ≤ if e.2 = 0x66 then 1048576 else 2 ^ 31)) = true) ∧ (fnSt (inFlight (fl e.2.toNat 0 (100 <<< 320)) (sE) : State) (.qp (0 : Fin 16384)) = .on ∨ fnSt (inFlight (fl e.2.toNat 0 (100 <<< 320)) (sE) : State) (.qp (0 : Fin 16384)) = .starting)) e he⟩),
  (fun e he => ⟨inFlight (fl e.2.toNat 0 (100 <<< 320)) (sE { ctx := some qc0 } .off), d0, fl e.2.toNat 0 (100 <<< 320), 0,
      qc0, (by unfold Startable; decide +kernel : ∀ e ∈ ([(.gwWrite, 0x64), (.gwRead, 0x65),
      (.gwSend, 0x66)] : List ((DRef → Instr) × BitVec 8)),
      (Startable (inFlight (fl e.2.toNat 0 (100 <<< 320)) (sE { ctx := some qc0 } .off) : State) (d0 : DRef) e.2 (fl e.2.toNat 0 (100 <<< 320) : InFlight)) ∧ (qpTarget (fl e.2.toNat 0 (100 <<< 320) : InFlight) = some (0 : Fin 16384)) ∧ (dGen (fl e.2.toNat 0 (100 <<< 320) : InFlight).desc = fnGen (inFlight (fl e.2.toNat 0 (100 <<< 320)) (sE { ctx := some qc0 } .off) : State) (.qp (0 : Fin 16384))) ∧ ((qpOf (inFlight (fl e.2.toNat 0 (100 <<< 320)) (sE { ctx := some qc0 } .off) : State) (0 : Fin 16384)).ctx = some (qc0 : QpCtx)) ∧ ((qpOf (inFlight (fl e.2.toNat 0 (100 <<< 320)) (sE { ctx := some qc0 } .off) : State) (0 : Fin 16384)).tenant = dTenant (inFlight (fl e.2.toNat 0 (100 <<< 320)) (sE { ctx := some qc0 } .off) : State) (fl e.2.toNat 0 (100 <<< 320) : InFlight)) ∧ ((decide (0 < (fld (fl e.2.toNat 0 (100 <<< 320) : InFlight).desc 320 32)) && decide ((fld (fl e.2.toNat 0 (100 <<< 320) : InFlight).desc 320 32) ≤ if e.2 = 0x66 then 1048576 else 2 ^ 31)) = true) ∧ (fnSt (inFlight (fl e.2.toNat 0 (100 <<< 320)) (sE { ctx := some qc0 } .off) : State) (.qp (0 : Fin 16384)) = .off ∨ fnSt (inFlight (fl e.2.toNat 0 (100 <<< 320)) (sE { ctx := some qc0 } .off) : State) (.qp (0 : Fin 16384)) = .stopping)) e he⟩),
  (fun e he => ⟨inFlight (fl e.2.toNat 0 (0 <<< 320)) (sE), d0, fl e.2.toNat 0 (0 <<< 320), 0, qc0,
      (by unfold Startable; decide +kernel : ∀ e ∈ ([(.gwWrite, 0x64), (.gwRead, 0x65),
      (.gwSend, 0x66)] : List ((DRef → Instr) × BitVec 8)),
      (Startable (inFlight (fl e.2.toNat 0 (0 <<< 320)) (sE) : State) (d0 : DRef) e.2 (fl e.2.toNat 0 (0 <<< 320) : InFlight)) ∧ (qpTarget (fl e.2.toNat 0 (0 <<< 320) : InFlight) = some (0 : Fin 16384)) ∧ (dGen (fl e.2.toNat 0 (0 <<< 320) : InFlight).desc = fnGen (inFlight (fl e.2.toNat 0 (0 <<< 320)) (sE) : State) (.qp (0 : Fin 16384))) ∧ ((qpOf (inFlight (fl e.2.toNat 0 (0 <<< 320)) (sE) : State) (0 : Fin 16384)).ctx = some (qc0 : QpCtx)) ∧ ((qpOf (inFlight (fl e.2.toNat 0 (0 <<< 320)) (sE) : State) (0 : Fin 16384)).tenant = dTenant (inFlight (fl e.2.toNat 0 (0 <<< 320)) (sE) : State) (fl e.2.toNat 0 (0 <<< 320) : InFlight)) ∧ ((decide (0 < (fld (fl e.2.toNat 0 (0 <<< 320) : InFlight).desc 320 32)) && decide ((fld (fl e.2.toNat 0 (0 <<< 320) : InFlight).desc 320 32) ≤ if e.2 = 0x66 then 1048576 else 2 ^ 31)) = false)) e he⟩),
  (fun e he => ⟨inFlight (fl e.2.toNat 0 (100 <<< 320)) (sE), d0, fl e.2.toNat 0 (100 <<< 320), 0, qc0,
      (by unfold Startable; decide +kernel : ∀ e ∈ ([(.gwWrite, 0x64), (.gwRead, 0x65),
      (.gwSend, 0x66)] : List ((DRef → Instr) × BitVec 8)),
      (Startable (inFlight (fl e.2.toNat 0 (100 <<< 320)) (sE) : State) (d0 : DRef) e.2 (fl e.2.toNat 0 (100 <<< 320) : InFlight)) ∧ (qpTarget (fl e.2.toNat 0 (100 <<< 320) : InFlight) = some (0 : Fin 16384)) ∧ (dGen (fl e.2.toNat 0 (100 <<< 320) : InFlight).desc = fnGen (inFlight (fl e.2.toNat 0 (100 <<< 320)) (sE) : State) (.qp (0 : Fin 16384))) ∧ ((qpOf (inFlight (fl e.2.toNat 0 (100 <<< 320)) (sE) : State) (0 : Fin 16384)).ctx = some (qc0 : QpCtx)) ∧ ((qpOf (inFlight (fl e.2.toNat 0 (100 <<< 320)) (sE) : State) (0 : Fin 16384)).tenant = dTenant (inFlight (fl e.2.toNat 0 (100 <<< 320)) (sE) : State) (fl e.2.toNat 0 (100 <<< 320) : InFlight)) ∧ (fnSt (inFlight (fl e.2.toNat 0 (100 <<< 320)) (sE) : State) (.qp (0 : Fin 16384)) = .on) ∧ ((qpOf (inFlight (fl e.2.toNat 0 (100 <<< 320)) (sE) : State) (0 : Fin 16384)).outs = []) ∧ ((qpOf (inFlight (fl e.2.toNat 0 (100 <<< 320)) (sE) : State) (0 : Fin 16384)).ready = []) ∧ ((qpOf (inFlight (fl e.2.toNat 0 (100 <<< 320)) (sE) : State) (0 : Fin 16384)).rnrTo = none) ∧ (0 < fld (fl e.2.toNat 0 (100 <<< 320) : InFlight).desc 320 32) ∧ (fld (fl e.2.toNat 0 (100 <<< 320) : InFlight).desc 320 32 ≤ (if e.2 = 0x66 then 1048576 else 2 ^ 31))) e he⟩),
  (fun e he => ⟨inFlight (fl e.2.1.toNat 0x4000) (sE), d0, fl e.2.1.toNat 0x4000,
      (by unfold Startable; decide +kernel : ∀ e ∈ ([(.qpConfig, 0x60, false), (.qpQuery, 0x63, true),
      (.gwRecvPost, 0x67, true)] : List ((DRef → Instr) × BitVec 8 × Bool)),
      (Startable (inFlight (fl e.2.1.toNat 0x4000) (sE) : State) (d0 : DRef) e.2.1 (fl e.2.1.toNat 0x4000 : InFlight))
      ∧ (qpTarget (fl e.2.1.toNat 0x4000 : InFlight) = none)) e he⟩),
  (fun e he => ⟨inFlight (fl e.2.1.toNat 0 (1 <<< 16)) (sE), d0, fl e.2.1.toNat 0 (1 <<< 16), 0,
      (by unfold Startable; decide +kernel : ∀ e ∈ ([(.qpConfig, 0x60, false), (.qpQuery, 0x63, true),
      (.gwRecvPost, 0x67, true)] : List ((DRef → Instr) × BitVec 8 × Bool)),
      (Startable (inFlight (fl e.2.1.toNat 0 (1 <<< 16)) (sE) : State) (d0 : DRef) e.2.1 (fl e.2.1.toNat 0 (1 <<< 16) : InFlight)) ∧ (qpTarget (fl e.2.1.toNat 0 (1 <<< 16) : InFlight) = some (0 : Fin 16384)) ∧ (dGen (fl e.2.1.toNat 0 (1 <<< 16) : InFlight).desc ≠ fnGen (inFlight (fl e.2.1.toNat 0 (1 <<< 16)) (sE) : State) (.qp (0 : Fin 16384)))) e he⟩),
  (fun e he => ⟨inFlight (fl e.2.1.toNat) (sE {}), d0, fl e.2.1.toNat, 0,
      (by unfold Startable; decide +kernel : ∀ e ∈ ([(.qpQuery, 0x63, true),
      (.gwRecvPost, 0x67, true)] : List ((DRef → Instr) × BitVec 8 × Bool)),
      (Startable (inFlight (fl e.2.1.toNat) (sE {}) : State) (d0 : DRef) e.2.1 (fl e.2.1.toNat : InFlight))
      ∧ (qpTarget (fl e.2.1.toNat : InFlight) = some (0 : Fin 16384)) ∧ (e.2.2 = true)
      ∧ (dGen (fl e.2.1.toNat : InFlight).desc = fnGen (inFlight (fl e.2.1.toNat) (sE {}) : State) (.qp (0 : Fin 16384)))
      ∧ ((qpOf (inFlight (fl e.2.1.toNat) (sE {}) : State) (0 : Fin 16384)).ctx = none ∨ (qpOf (inFlight (fl e.2.1.toNat) (sE {}) : State) (0 : Fin 16384)).tenant ≠ dTenant (inFlight (fl e.2.1.toNat) (sE {}) : State) (fl e.2.1.toNat : InFlight))) e he⟩),
  ⟨inFlight (fl 0x67 0 (4 <<< 192)) (sE), d0, fl 0x67 0 (4 <<< 192), 0, qc0,
      ⟨by decide +kernel, by decide +kernel, by decide +kernel⟩, by decide +kernel⟩,
  ⟨inFlight (fl 0x67 0 (4 <<< 192)) (sE), d0, fl 0x67 0 (4 <<< 192), 0, qc0,
      ⟨by decide +kernel, by decide +kernel, by decide +kernel⟩, by decide +kernel⟩,
  ⟨inFlight (fl 0x67 0 (5 <<< 192)) (sE), d0, fl 0x67 0 (5 <<< 192), 0, qc0,
      ⟨by decide +kernel, by decide +kernel, by decide +kernel⟩, by decide +kernel⟩,
  ⟨sE, 0, ⟨[], false⟩, by decide +kernel⟩,
  ⟨sS {}, 0, ⟨fr0, true⟩, by decide +kernel⟩,
  ⟨sE, 0, ⟨0, 0, 5, fr0⟩, by decide +kernel⟩,
  ⟨State.reset, 0, ⟨0, 0, 5, fr0⟩, by decide +kernel⟩,
  ⟨setReg sE .ethPortCfg 0 0 4 7, 0, ⟨0, 0, 7, fr0⟩, by decide +kernel⟩,
  ⟨State.reset, 0, ⟨0, 0, 5, fr0⟩, by decide +kernel⟩,
  ⟨setReg sE .linkVcCfg 80 0 0 0, (ethPass 0 fr0 (setReg sE .linkVcCfg 80 0 0 0)).2, 0, fr0, .arp 0 0, by decide +kernel,
      pair_none (by decide +kernel)⟩,
  ⟨sE, (ethPass 0 fr0 sE).2, 0, fr0, .arp 0 0, ((ethPass 0 fr0 sE).1.getD false), 1, by decide +kernel,
      pair_some false (by decide +kernel), by decide +kernel⟩,
  ⟨sE, (ethPass 0 fr0 sE).2, 0, fr0, .arp 0 0, ((ethPass 0 fr0 sE).1.getD false), 1, by decide +kernel,
      pair_some false (by decide +kernel), by decide +kernel⟩,
  ⟨inFlight (fl 0x60 0 (0)) (sE), 0, by decide +kernel⟩,
  ⟨State.reset, 0, by decide +kernel⟩,
  ⟨{ (setReg (setReg sE .ethPortCfg 0 0 0 (1 + 1 <<< 8 + 1518 <<< 16)) .ethPortCfg 0 0 6 0) with tick.elapsed := 16, gw.port := [(0, { up := true, pausing := [(0, some 0)] })] }, 0, 0, 0, by decide +kernel⟩,
  ⟨State.reset, 0, 0, some_all (by decide +kernel)⟩⟩

/-- Every clause of RdmaRequests has a state and operands that meet its hypotheses. -/
theorem test_witness_rdmaRequests :
  (∃ (s : State) (s1 : State) (m : RoceMsg) (q : Fin 16384) (c : QpCtx) (op : RoceOp) (i : Instr),
      ((op, i) ∈ [(.writeFirst, Instr.rdmaWriteFirst m), (.writeOnly, Instr.rdmaWriteOnly m)]) ∧ RoceArrives s m q c s1
      ∧ (qpOf s q).cur = none ∧ rethOk c m c.wr = true ∧ m.payload ≠ [] ∧ m.payload.length ≤ m.len.toNat
      ∧ (op = .writeOnly → m.payload.length = m.len.toNat))
  ∧ (∃ (s : State) (s1 : State) (m : RoceMsg) (q : Fin 16384) (c : QpCtx) (op : RoceOp) (i : Instr),
      ((op, i) ∈ [(.sendFirst, Instr.sendFirst m), (.sendOnly, Instr.sendOnly m)]) ∧ RoceArrives s m q c s1
      ∧ (qpOf s q).cur = none ∧ c.send = true ∧ 0 < (qpOf s q).free ∧ m.payload ≠ [] ∧ m.payload.length ≤ 2 ^ c.slotLog2 - 16)
  ∧ (∃ (s : State) (s1 : State) (m : RoceMsg) (q : Fin 16384) (c : QpCtx) (op : RoceOp) (i : Instr) (slot : Option Nat) (a : Word) (got : Nat) (most : Nat), ((op, i) ∈ [(.writeMiddle, Instr.rdmaWriteMiddle m), (.writeLast, Instr.rdmaWriteLast m), (.sendMiddle, Instr.sendMiddle m), (.sendLast, Instr.sendLast m)]) ∧ RoceArrives s m q c s1 ∧ (qpOf s q).cur = some (slot, a, got, most) ∧ slot.isSome = isSend op ∧ m.payload ≠ [] ∧ got + m.payload.length ≤ most ∧ (op = .writeLast → got + m.payload.length = most))
  ∧ (∃ (s : State) (s1 : State) (m : RoceMsg) (q : Fin 16384) (c : QpCtx), RoceArrives s m q c s1 ∧ (qpOf s q).cur = none
      ∧ rethOk c m c.rd = true ∧ m.len ≠ 0)
  ∧ (∃ (s : State) (m : RoceMsg), s.tick.todo = [] ∧ roceFor s m = none)
  ∧ (∃ (s : State) (m : RoceMsg) (q : Fin 16384) (c : QpCtx) (s1 : State), s.tick.todo = [] ∧ roceFor s m = some (q, c)
      ∧ ethPass m.port m.frame s = (none, s1))
  ∧ (∃ (s : State) (m : RoceMsg) (q : Fin 16384) (c : QpCtx), s.tick.todo = [] ∧ roceFor s m = some (q, c)
      ∧ (ethPort s m.port).waiting = [] ∧ 0 < psnDiff (qpOf s q).expPsn m.psn ∧ psnDiff (qpOf s q).expPsn m.psn < 2 ^ 23)
  ∧ (∃ (s : State) (m : RoceMsg), ethOn s m.port = true ∧ (ethPort s m.port).up = true)
  ∧ (∃ (s : State) (m : RoceMsg), (ethOn s m.port = false ∨ (ethPort s m.port).up = false))
  ∧ (∃ (s : State) (m : RoceMsg) (q : Fin 16384) (op : RoceOp), psnDiff (qpOf s q).expPsn m.psn = 0 ∧ s.attic.draining = true
      ∧ startsMsg op = true)
  ∧ (∃ (s : State) (m : RoceMsg) (q : Fin 16384) (op : RoceOp), psnDiff (qpOf s q).expPsn m.psn = 0
      ∧ s.attic.draining = false ∧ startsMsg op = true ∧ (qpOf s q).cur.isSome = true)
  ∧ (∃ (s : State) (m : RoceMsg) (q : Fin 16384) (c : QpCtx) (op : RoceOp), psnDiff (qpOf s q).expPsn m.psn = 0
      ∧ s.attic.draining = false ∧ (qpOf s q).cur = none ∧ (op = .writeFirst ∨ op = .writeOnly) ∧ rethOk c m c.wr = false)
  ∧ (∃ (s : State) (m : RoceMsg) (q : Fin 16384) (c : QpCtx) (op : RoceOp), psnDiff (qpOf s q).expPsn m.psn = 0
      ∧ s.attic.draining = false ∧ (qpOf s q).cur = none ∧ (op = .sendFirst ∨ op = .sendOnly) ∧ c.send = true
      ∧ (qpOf s q).free = 0)
  ∧ (∃ (s : State) (q : Fin 16384), (qpOf s q).silent = false) :=
  ⟨⟨sE, (ethPass 0 fr0 (sE)).2, { rm0 with len := 4, payload := [1, 2, 3, 4] }, 0, qc0, .writeOnly,
      (.rdmaWriteOnly ({ rm0 with len := 4, payload := [1, 2, 3, 4] })), by simp,
      ⟨by decide +kernel, ⟨by decide +kernel, rfl, pair_of (by decide +kernel)⟩, by decide +kernel, by decide +kernel,
      by decide +kernel, by decide +kernel, by decide +kernel, by decide +kernel, by decide +kernel⟩, by decide +kernel⟩,
  ⟨sE { ctx := some qc0, free := 1 }, (ethPass 0 fr0 (sE { ctx := some qc0, free := 1 })).2,
      { rm0 with len := 4, payload := [1, 2, 3, 4] }, 0, qc0, .sendOnly,
      (.sendOnly ({ rm0 with len := 4, payload := [1, 2, 3, 4] })), by simp,
      ⟨by decide +kernel, ⟨by decide +kernel, rfl, pair_of (by decide +kernel)⟩, by decide +kernel, by decide +kernel,
      by decide +kernel, by decide +kernel, by decide +kernel, by decide +kernel, by decide +kernel⟩, by decide +kernel⟩,
  ⟨sE { ctx := some qc0, cur := some (none, 0, 4, 8) },
      (ethPass 0 fr0 (sE { ctx := some qc0, cur := some (none, 0, 4, 8) })).2,
      { rm0 with len := 4, payload := [1, 2, 3, 4] }, 0, qc0, .writeLast,
      (.rdmaWriteLast ({ rm0 with len := 4, payload := [1, 2, 3, 4] })), none, 0, 4, 8, by simp,
      ⟨by decide +kernel, ⟨by decide +kernel, rfl, pair_of (by decide +kernel)⟩, by decide +kernel, by decide +kernel,
      by decide +kernel, by decide +kernel, by decide +kernel, by decide +kernel, by decide +kernel⟩, by decide +kernel⟩,
  ⟨sE, (ethPass 0 fr0 (sE)).2, { rm0 with len := 4, payload := [1, 2, 3, 4] }, 0, qc0,
      ⟨by decide +kernel, ⟨by decide +kernel, rfl, pair_of (by decide +kernel)⟩, by decide +kernel, by decide +kernel,
      by decide +kernel, by decide +kernel, by decide +kernel, by decide +kernel, by decide +kernel⟩, by decide +kernel⟩,
  ⟨State.reset, rm0, by decide +kernel⟩,
  ⟨setReg sE .linkVcCfg 80 0 0 0, rm0, 0, qc0, (ethPass 0 fr0 (setReg sE .linkVcCfg 80 0 0 0)).2, by decide +kernel,
      by decide +kernel, pair_none (by decide +kernel)⟩,
  ⟨sE { ctx := some qc0, expPsn := 1 }, { rm0 with psn := 2 }, 0, qc0, by decide +kernel⟩,
  ⟨sE, { rm0 with len := 4, payload := [1, 2, 3, 4] }, by decide +kernel⟩,
  ⟨State.reset, rm0, by decide +kernel⟩,
  ⟨{ State.reset with attic.draining := true }, rm0, 0, .sendFirst, by decide +kernel⟩,
  ⟨sE { ctx := some qc0, cur := some (none, 0, 4, 8) }, rm0, 0, .sendFirst, by decide +kernel⟩,
  ⟨sE, { rm0 with len := 4, payload := [1, 2, 3, 4] }, 0, { qc0 with wr := false }, .writeFirst, by decide +kernel⟩,
  ⟨State.reset, rm0, 0, { (qc0) with send := true }, .sendFirst, by decide +kernel⟩,
  ⟨sE, 0, by decide +kernel⟩⟩

/-- Every clause of RdmaAnswersAndTimers has a state and operands that meet its hypotheses. -/
theorem test_witness_rdmaAnswersAndTimers :
  (∃ (s : State) (s1 : State) (m : RoceMsg) (q : Fin 16384) (c : QpCtx) (o : GwOut), RoceComes s m q c s1
      ∧ (qpOf s q).outs = [o] ∧ o.op ≠ 0x65 ∧ o.started = true ∧ o.acked ≤ o.n ∧ coveredBy o m.psn = o.n)
  ∧ (∃ (s : State) (s1 : State) (m : RoceMsg) (q : Fin 16384) (c : QpCtx) (o : GwOut), RoceComes s m q c s1
      ∧ (qpOf s q).outs = [o] ∧ o.op = 0x65 ∧ o.started = true ∧ o.acked < o.n ∧ psnAdd o.psn o.acked = m.psn
      ∧ m.payload.length = min c.mtu (o.len - o.acked * c.mtu)
      ∧ (findTag s (gwTags (80 + c.port.val)).1 (gwTags (80 + c.port.val)).2).isSome = true)
  ∧ (∃ (s : State) (s1 : State) (m : RoceMsg) (q : Fin 16384) (c : QpCtx) (o : GwOut), RoceComes s m q c s1
      ∧ (qpOf s q).outs = [o] ∧ o.started = true ∧ o.acked < o.n ∧ coveredBy o (m.psn - 1) ≤ o.acked
      ∧ (qpOf s q).rnrs < c.rnrRetry)
  ∧ (∃ (s : State) (s1 : State) (m : RoceMsg) (q : Fin 16384) (c : QpCtx) (o : GwOut) (i : Instr),
      (i ∈ [Instr.nakRemoteAccessError m, .nakInvalidRequest m, .nakRemoteOperationalError m]) ∧ RoceComes s m q c s1
      ∧ (qpOf s q).outs = [o] ∧ o.started = true ∧ o.acked < o.n ∧ coveredBy o (m.psn - 1) ≤ o.acked
      ∧ psnDiff o.psn m.psn < o.n)
  ∧ (∃ (s : State) (q : Fin 16384) (c : QpCtx) (frame : List Byte) (s1 : State) (ce : Bool), (qpOf s q).ctx = some c
      ∧ fnSt s (.qp q) = .on ∧ ethTakes s c.port frame = true ∧ ethPass c.port frame s = (some ce, s1))
  ∧ (∃ (s : State) (q : Fin 16384) (c : QpCtx) (frame : List Byte) (s1 : State), (qpOf s q).ctx = some c
      ∧ fnSt s (.qp q) = .on ∧ ethTakes s c.port frame = true ∧ ethPass c.port frame s = (none, s1))
  ∧ (∃ (s : State) (q : Fin 16384) (c : QpCtx) (frame : List Byte), (qpOf s q).ctx = some c
      ∧ (fnSt s (.qp q) ≠ .on ∨ ethTakes s c.port frame = false))
  ∧ (∃ (s : State) (m : RoceMsg), roceFor s m = none)
  ∧ (∃ (s : State) (q : Fin 16384) (c : QpCtx) (o : GwOut), (qpOf s q).ctx = some c ∧ fnSt s (.qp q) = .on
      ∧ (qpOf s q).outs = [o] ∧ o.started = true ∧ o.acked < o.n ∧ (qpOf s q).rnrTo = none
      ∧ c.ackTicks ≤ ageOf s (qpOf s q).ackAt ∧ (qpOf s q).retries < c.retryCnt)
  ∧ (∃ (s : State) (q : Fin 16384) (c : QpCtx) (o : GwOut), (qpOf s q).ctx = some c ∧ fnSt s (.qp q) = .on
      ∧ (qpOf s q).outs = [o] ∧ o.started = true ∧ o.acked < o.n ∧ (qpOf s q).rnrTo = none
      ∧ c.ackTicks ≤ ageOf s (qpOf s q).ackAt ∧ c.retryCnt ≤ (qpOf s q).retries)
  ∧ (∃ (s : State) (q : Fin 16384) (c : QpCtx) (n : Nat), (qpOf s q).ctx = some c ∧ (qpOf s q).rnrTo = some n ∧ n ≤ s.tick.ns)
  ∧ (∃ n, ∃ (s : State) (q : Fin 16384) (c : QpCtx), (qpOf s q).ctx = some c ∧ (qpOf s q).rnrTo = some n ∧ n ≤ s.tick.ns)
  ∧ (∃ o, ∃ (s : State) (q : Fin 16384) (c : QpCtx), (qpOf s q).ctx = some c ∧ oldestOut (qpOf s q) = some o
      ∧ (qpOf s q).rnrTo = none ∧ c.ackTicks ≤ ageOf s (qpOf s q).ackAt)
  ∧ (∃ (s : State) (q : Fin 16384) (c : QpCtx), (qpOf s q).ctx = some c
      ∧ ((qpOf s q).rnrTo.isSome = true ∨ ageOf s (qpOf s q).ackAt < c.ackTicks ∨ oldestOut (qpOf s q) = none))
  ∧ (∃ (s : State) (q : Fin 16384), (∀ n, (qpOf s q).rnrTo = some n → s.tick.ns < n)) :=
  ⟨⟨sE { ctx := some qc0, outs := [{ go0 0x64 with len := 100 }] },
      (ethPass 0 fr0 (sE { ctx := some qc0, outs := [{ go0 0x64 with len := 100 }] })).2, rm0, 0, qc0,
      { go0 0x64 with len := 100 }, ⟨by decide +kernel, rfl, pair_of (by decide +kernel)⟩, by decide +kernel⟩,
  ⟨sE { ctx := some qc0, outs := [{ go0 0x65 with len := 100 }] },
      (ethPass 0 fr0 (sE { ctx := some qc0, outs := [{ go0 0x65 with len := 100 }] })).2,
      { rm0 with payload := List.replicate 100 0 }, 0, qc0, { go0 0x65 with len := 100 },
      ⟨by decide +kernel, rfl, pair_of (by decide +kernel)⟩, by decide +kernel⟩,
  ⟨sE { ctx := some qc0, outs := [{ go0 0x64 with len := 100 }] },
      (ethPass 0 fr0 (sE { ctx := some qc0, outs := [{ go0 0x64 with len := 100 }] })).2, rm0, 0, qc0,
      { go0 0x64 with len := 100 }, ⟨by decide +kernel, rfl, pair_of (by decide +kernel)⟩, by decide +kernel⟩,
  ⟨sE { ctx := some qc0, outs := [{ go0 0x64 with len := 100 }] },
      (ethPass 0 fr0 (sE { ctx := some qc0, outs := [{ go0 0x64 with len := 100 }] })).2, rm0, 0, qc0,
      { go0 0x64 with len := 100 }, .nakInvalidRequest rm0, by simp, ⟨by decide +kernel, rfl, pair_of (by decide +kernel)⟩,
      by decide +kernel⟩,
  ⟨sE, 0, qc0, fr0, (ethPass 0 fr0 sE).2, ((ethPass 0 fr0 sE).1.getD false), by decide +kernel, by decide +kernel,
      by decide +kernel, pair_some false (by decide +kernel)⟩,
  ⟨setReg sE .linkVcCfg 80 0 0 0, 0, qc0, fr0, (ethPass 0 fr0 (setReg sE .linkVcCfg 80 0 0 0)).2, by decide +kernel,
      by decide +kernel, by decide +kernel, pair_none (by decide +kernel)⟩,
  ⟨modQp (0 : Fin 16384) (fun x => { x with ctx := some qc0 }) (State.reset), 0, qc0, [], by decide +kernel⟩,
  ⟨State.reset, rm0, by decide +kernel⟩,
  ⟨{ (setFn (modQp (0 : Fin 16384) (fun x => { x with ctx := some qc0, outs := [({ (go0 0x60 : GwOut) with started := true } : GwOut)] }) (State.reset)) (.qp (0 : Fin 16384)) { st := .on }) with tick.elapsed := 0x100000 }, 0, qc0, { (go0 0x60 : GwOut) with started := true }, by decide +kernel⟩,
  ⟨{ sE { ctx := some qc0, outs := [{ go0 0x64 with len := 100 }], retries := 7 } with tick.elapsed := 100 }, 0, qc0,
      { go0 0x64 with len := 100 }, by decide +kernel⟩,
  ⟨sE { ctx := some qc0, rnrTo := some 0 }, 0, qc0, 0, by decide +kernel⟩,
  ⟨0, sE { ctx := some qc0, rnrTo := some 0 }, 0, qc0, by decide +kernel⟩,
  ⟨{ go0 0x64 with len := 100 }, { sE { ctx := some qc0, outs := [{ go0 0x64 with len := 100 }] } with tick.elapsed := 100 },
      0, qc0, by decide +kernel⟩,
  ⟨sE { ctx := some qc0, rnrTo := some 0 }, 0, qc0, by decide +kernel⟩,
  ⟨State.reset, 0, some_all (by decide +kernel)⟩⟩

/-- Every clause of FunctionDescriptors has a state and operands that meet its hypotheses. -/
theorem test_witness_functionDescriptors :
  (∃ (s : State) (d : DRef) (f : InFlight) (c : Instr) (x : FnId), Enables s d f c x ∧ fnSt s x = .off
      ∧ (fnOf s x).pend = false ∧ enableRefusal s x (fld f.desc 192 16) = none)
  ∧ (∃ (s : State) (d : DRef) (f : InFlight) (c : Instr) (x : FnId) (st : BitVec 8), Enables s d f c x ∧ fnSt s x = .off
      ∧ (fnOf s x).pend = false ∧ enableRefusal s x (fld f.desc 192 16) = some st)
  ∧ (∃ (s : State) (d : DRef) (f : InFlight) (c : Instr) (x : FnId), Enables s d f c x ∧ fnSt s x = .off
      ∧ (fnOf s x).pend = true ∧ locked s = false)
  ∧ (∃ (s : State) (d : DRef) (f : InFlight) (c : Instr) (x : FnId), Enables s d f c x
      ∧ (fnSt s x = .starting ∨ fnSt s x = .on))
  ∧ (∃ (s : State) (d : DRef) (f : InFlight) (c : Instr) (x : FnId), Enables s d f c x ∧ fnSt s x = .stopping
      ∧ locked s = false)
  ∧ (∃ (s : State) (d : DRef) (f : InFlight) (c : Instr) (x : FnId), Enables s d f c x ∧ locked s = true
      ∧ (∀ i, x ≠ .sq i ∧ x ≠ .cq i))
  ∧ (∃ (s : State) (d : DRef) (f : InFlight) (c : Instr) (x : FnId), Disables s d f c x ∧ fnSt s x = .off)
  ∧ (∃ (s : State) (d : DRef) (f : InFlight) (c : Instr) (x : FnId), Disables s d f c x ∧ fnSt s x = .starting)
  ∧ (∃ (s : State) (d : DRef) (f : InFlight) (c : Instr) (x : FnId), Disables s d f c x ∧ fnSt s x = .on)
  ∧ (∃ (s : State) (d : DRef) (f : InFlight) (c : Instr) (x : FnId), Disables s d f c x ∧ fnSt s x = .stopping) :=
  ⟨⟨inFlight (fl 0x02 1 (4 <<< 192)) (sF (.sq 1) { st := .off }), d0, fl 0x02 1 (4 <<< 192), .ringEnable d0, .sq 1,
      ⟨rfl, ⟨by decide +kernel, by decide +kernel, by decide +kernel⟩, by decide +kernel⟩, by decide +kernel⟩,
  ⟨{ (inFlight (fl 0x31) (sF (.stream 0) {})) with strong.lockdown := true }, d0, fl 0x31, .streamEnable d0, .stream 0,
      stHalt, ⟨rfl, ⟨by decide +kernel, by decide +kernel, by decide +kernel⟩, by decide +kernel⟩, by decide +kernel⟩,
  ⟨inFlight (fl 0x31) (sF (.stream 0) { pend := true }), d0, fl 0x31, .streamEnable d0, .stream 0,
      ⟨rfl, ⟨by decide +kernel, by decide +kernel, by decide +kernel⟩, by decide +kernel⟩, by decide +kernel⟩,
  ⟨setFn (inFlight (fl 0x02 1 (4 <<< 192)) (sF (.sq 1) { st := .off })) (.sq 1 : FnId) { st := .starting }, d0,
      fl 0x02 1 (4 <<< 192), .ringEnable d0, .sq 1,
      ⟨rfl, ⟨by decide +kernel, by decide +kernel, by decide +kernel⟩, by decide +kernel⟩, by decide +kernel⟩,
  ⟨setFn (inFlight (fl 0x02 1 (4 <<< 192)) (sF (.sq 1) { st := .off })) (.sq 1 : FnId) { st := .stopping }, d0,
      fl 0x02 1 (4 <<< 192), .ringEnable d0, .sq 1,
      ⟨rfl, ⟨by decide +kernel, by decide +kernel, by decide +kernel⟩, by decide +kernel⟩, by decide +kernel⟩,
  ⟨{ inFlight (fl 0x20 0 (4 <<< 192)) (sF (.group 0) { st := .off }) with strong.lockdown := true }, d0,
      fl 0x20 0 (4 <<< 192), .groupEnable d0, .group 0,
      ⟨rfl, ⟨by decide +kernel, by decide +kernel, by decide +kernel⟩, by decide +kernel⟩, by decide +kernel⟩,
  ⟨inFlight (fl 0x03 1 (4 <<< 192)) (sF (.sq 1) { st := .off, pend := true }), d0, fl 0x03 1 (4 <<< 192), .ringDisable d0,
      .sq 1, ⟨rfl, ⟨by decide +kernel, by decide +kernel, by decide +kernel⟩, by decide +kernel⟩, by decide +kernel⟩,
  ⟨setFn (inFlight (fl 0x03 1 (4 <<< 192)) (sF (.sq 1) { st := .off, pend := true })) (.sq 1 : FnId) { st := .starting }, d0,
      fl 0x03 1 (4 <<< 192), .ringDisable d0, .sq 1,
      ⟨rfl, ⟨by decide +kernel, by decide +kernel, by decide +kernel⟩, by decide +kernel⟩, by decide +kernel⟩,
  ⟨setFn (inFlight (fl 0x03 1 (4 <<< 192)) (sF (.sq 1) { st := .off, pend := true })) (.sq 1 : FnId) { st := .on }, d0,
      fl 0x03 1 (4 <<< 192), .ringDisable d0, .sq 1,
      ⟨rfl, ⟨by decide +kernel, by decide +kernel, by decide +kernel⟩, by decide +kernel⟩, by decide +kernel⟩,
  ⟨setFn (inFlight (fl 0x03 1 (4 <<< 192)) (sF (.sq 1) { st := .off, pend := true })) (.sq 1 : FnId) { st := .stopping }, d0,
      fl 0x03 1 (4 <<< 192), .ringDisable d0, .sq 1,
      ⟨rfl, ⟨by decide +kernel, by decide +kernel, by decide +kernel⟩, by decide +kernel⟩, by decide +kernel⟩⟩

/-- Every clause of FunctionBoundariesAndControlWords has a state and operands that meet its hypotheses. -/
theorem test_witness_functionBoundariesAndControlWords :
  (∃ (s : State) (x : FnId), s.tick.slot = 0 ∧ fnSt s x = .starting ∧ reached s (fnOf s x).due = true ∧ fnReady s x = true
      ∧ (fnOf s x).recDis = false ∧ setUpStatus s x = stOk)
  ∧ (∃ (s : State) (x : FnId), s.tick.slot = 0 ∧ fnSt s x = .starting ∧ reached s (fnOf s x).due = true
      ∧ ((fnReady s x = true ∧ ((fnOf s x).recDis = true ∨ setUpStatus s x ≠ stOk)) ∨ (isPort x = true
      ∧ (fnOf s x).recDis = true)))
  ∧ (∃ (s : State) (x : FnId), (s.tick.slot ≠ 0 ∨ fnSt s x ≠ .starting ∨ reached s (fnOf s x).due = false ∨ (fnReady s x = false ∧ (∀ g, x ≠ .group g) ∧ (fnOf s x).recDis = false)))
  ∧ (∃ (s : State) (x : FnId), s.tick.slot = 0 ∧ fnSt s x = .stopping ∧ reached s (fnOf s x).due = true ∧ fnIdle s x = true
      ∧ tblWf {} s.fns = true)
  ∧ (∃ (s : State) (x : FnId), s.tick.slot = 0 ∧ fnSt s x = .off ∧ reached s (fnOf s x).due = true ∧ (fnOf s x).pend = true
      ∧ (enableRefusal s x (((fnOf s x).pendWait.head?.bind (flightOf s)).elim 0 (fun f => fld f.desc 192 16)) = none))
  ∧ (∃ (s : State) (x : FnId), s.tick.slot = 0 ∧ fnSt s x = .off ∧ reached s (fnOf s x).due = true ∧ (fnOf s x).pend = false)
  ∧ (∃ (s : State) (x : FnId), (s.tick.slot ≠ 0 ∨ reached s (fnOf s x).due = false ∨ fnSt s x = .on ∨ fnSt s x = .starting ∨ (fnSt s x = .stopping ∧ fnIdle s x = false)))
  ∧ (∃ (s : State) (c : Instr) (x : FnId), ((∃ l, c = .portCtrlEnable l ∧ x = .port l) ∨ ∃ r, c = .ringCtrlEnable r
      ∧ x = regRingFn r) ∧ fnSt s x = .off ∧ (fnOf s x).pend = false)
  ∧ (∃ (s : State) (c : Instr) (x : FnId), ((∃ l, c = .portCtrlEnable l ∧ x = .port l) ∨ ∃ r, c = .ringCtrlEnable r
      ∧ x = regRingFn r) ∧ (fnSt s x = .starting ∨ fnSt s x = .on))
  ∧ (∃ (s : State) (c : Instr) (x : FnId), ((∃ l, c = .portCtrlEnable l ∧ x = .port l) ∨ ∃ r, c = .ringCtrlEnable r
      ∧ x = regRingFn r) ∧ fnSt s x = .stopping)
  ∧ (∃ (s : State) (c : Instr) (x : FnId), ((∃ l, c = .portCtrlDisable l ∧ x = .port l) ∨ ∃ r, c = .ringCtrlDisable r
      ∧ x = regRingFn r) ∧ fnSt s x = .off)
  ∧ (∃ (s : State) (c : Instr) (x : FnId), ((∃ l, c = .portCtrlDisable l ∧ x = .port l) ∨ ∃ r, c = .ringCtrlDisable r
      ∧ x = regRingFn r) ∧ fnSt s x = .stopping)
  ∧ (∃ (s : State) (c : Instr) (x : FnId), ((∃ l, c = .portCtrlDisable l ∧ x = .port l) ∨ ∃ r, c = .ringCtrlDisable r
      ∧ x = regRingFn r) ∧ fnSt s x = .on)
  ∧ (∃ (s : State) (c : Instr) (x : FnId), ((∃ l, c = .portCtrlDisable l ∧ x = .port l) ∨ ∃ r, c = .ringCtrlDisable r
      ∧ x = regRingFn r) ∧ fnSt s x = .starting) :=
  ⟨⟨setFn (sR) (.port 0 : FnId) { st := .starting }, .port 0, by decide +kernel⟩,
  ⟨{ sF (.sq 1) { st := .starting, recDis := true } with tick.elapsed := 1 }, .sq 1, by decide +kernel⟩,
  ⟨{ State.reset with tick.slot := 1 }, .sq 1, .inl (by decide +kernel)⟩,
  ⟨setFn (State.reset) (.port 0 : FnId) { st := .stopping }, .port 0, by decide +kernel⟩,
  ⟨{ sF (.sq 1) { st := .off, pend := true } with tick.elapsed := 1 }, .sq 1, by decide +kernel⟩,
  ⟨setFn (State.reset) (.port 0 : FnId) { st := .off }, .port 0, by decide +kernel⟩,
  ⟨{ State.reset with tick.slot := 1 }, .port 0, by decide +kernel⟩,
  ⟨sF (.port 0) { st := .off }, .portCtrlEnable 0, .port 0, .inl ⟨0, rfl, rfl⟩, by decide +kernel⟩,
  ⟨sF (.port 0) { st := .on }, .portCtrlEnable 0, .port 0, .inl ⟨0, rfl, rfl⟩, by decide +kernel⟩,
  ⟨sF (.port 0) { st := .stopping }, .portCtrlEnable 0, .port 0, .inl ⟨0, rfl, rfl⟩, by decide +kernel⟩,
  ⟨sF (.port 0) { st := .off }, .portCtrlDisable 0, .port 0, .inl ⟨0, rfl, rfl⟩, by decide +kernel⟩,
  ⟨sF (.port 0) { st := .stopping }, .portCtrlDisable 0, .port 0, .inl ⟨0, rfl, rfl⟩, by decide +kernel⟩,
  ⟨sF (.port 0) { st := .on }, .portCtrlDisable 0, .port 0, .inl ⟨0, rfl, rfl⟩, by decide +kernel⟩,
  ⟨sF (.port 0) { st := .starting }, .portCtrlDisable 0, .port 0, .inl ⟨0, rfl, rfl⟩, by decide +kernel⟩⟩

/-- Every clause of LaneLadder has a state and operands that meet its hypotheses. -/
theorem test_witness_laneLadder :
  (∃ (a : Lane), a.run = (false, 0))
  ∧ (∃ n, n < 8)
  ∧ (∃ n, n < 4)
  ∧ (∃ (s : State) (l : LinkId) (m : List DetectLane), tblWf {} s.lanes = true ∧ ethMode s l.val = false
      ∧ (link s l).up = false ∧ (link s l).nego = false
      ∧ (lanesWhere s l (fun a => a.st = .negotiate || a.st = .step || a.st = .align) = [])
      ∧ minLanes s l ≤ ((List.finRange 4).filter (detected s l m)).length)
  ∧ (∃ (s : State) (l : LinkId) (m : List DetectLane),
      (ethMode s l.val = true ∨ (link s l).up = true ∨ (link s l).nego = true ∨ ((List.finRange 4).filter (detected s l m)).length < minLanes s l))
  ∧ (∃ (s : State) (l : LinkId) (w : TrainLine), (trainRx (lane s (laneId l w.lane)) w.bits).2 = none)
  ∧ (∃ (s : State) (l : LinkId), ownPresent s l = 0)
  ∧ (∃ (s : State) (l : LinkId) (c : TrainCap), ownPresent s l ≠ 0 ∧ c.nonce = (link s l).nonce)
  ∧ (∃ (s : State) (l : LinkId) (c : TrainCap), ownPresent s l ≠ 0 ∧ c.nonce ≠ (link s l).nonce
      ∧ ((link s l).caps < 2 ∨ c.present ≠ ownPresent s l))
  ∧ (∃ (s : State) (l : LinkId) (c : TrainCap), ownPresent s l ≠ 0 ∧ c.nonce ≠ (link s l).nonce ∧ 2 ≤ (link s l).caps
      ∧ c.present = ownPresent s l ∧ c.maxRate = 3)
  ∧ (∃ (s : State) (l : LinkId) (c : TrainCap), ownPresent s l ≠ 0 ∧ c.nonce ≠ (link s l).nonce ∧ 2 ≤ (link s l).caps
      ∧ c.present = ownPresent s l ∧ c.maxRate ≠ 3)
  ∧ (∃ (s : State) (l : LinkId), (link s l).initiator = true)
  ∧ (∃ (s : State) (l : LinkId), (link s l).initiator = false ∧ (link s l).stepCount < 7)
  ∧ (∃ (s : State) (l : LinkId), (link s l).initiator = false ∧ (link s l).stepCount = 7)
  ∧ (∃ (s : State) (l : LinkId) (r : BitVec 2), (∃ j ∈ lanesWhere s l (fun a => a.st = .step),
      stepPassed (lane s (laneId l j)) = false ∨ (lane s (laneId l j)).rate.toNat + 1 ≠ r.toNat))
  ∧ (∃ (s : State) (l : LinkId), (∀ j, (lane s (laneId l j)).peerPass = none)
      ∧ minLanes s l ≤ laneCount (laneMask s l inLane) ∧ tblWf {} s.lanes = true)
  ∧ (∃ (s : State) (n : LaneId) (x : Bool) (y : Bool), (lane s n).pass = some x ∧ (lane s n).peerPass = some y
      ∧ (lane s n).st = .step ∧ x = true ∧ y = true)
  ∧ (∃ (s : State) (n : LaneId) (x : Bool) (y : Bool), (lane s n).pass = some x ∧ (lane s n).peerPass = some y
      ∧ (lane s n).st = .step ∧ (x && y) = false)
  ∧ (∃ (s : State) (n : LaneId) (x : Bool) (y : Bool), (lane s n).pass = some x ∧ (lane s n).peerPass = some y
      ∧ (lane s n).st = .recover ∧ x = true ∧ y = true)
  ∧ (∃ (s : State) (n : LaneId) (x : Bool) (y : Bool), (lane s n).pass = some x ∧ (lane s n).peerPass = some y
      ∧ (lane s n).st = .recover ∧ (x && y) = false)
  ∧ (∃ (s : State) (n : LaneId), 2 ≤ (lane s n).tries)
  ∧ (∃ (s : State) (n : LaneId), (lane s n).tries < 2)
  ∧ (∃ (s : State) (l : LinkId), (lanesWhere s l (fun a => a.st = .step) ≠ [])
      ∧ (∀ j ∈ lanesWhere s l (fun a => a.st = .step), stepPassed (lane s (laneId l j)) = true
      ∧ (lane s (laneId l j)).rate = 3))
  ∧ (∃ (s : State) (l : LinkId) (m : BitVec 4) (j : Fin 4), bit m j.val = true ∧ (lane s (laneId l j)).st = .negotiate
      ∧ limitPassed s (lane s (laneId l j)) = true)
  ∧ (∃ (s : State) (l : LinkId) (m : BitVec 4), (∀ j, bit m j.val = true → (lane s (laneId l j)).st ≠ .negotiate))
  ∧ (∃ (s : State) (n : LaneId), (lane s n).st = .align)
  ∧ (∃ (s : State) (l : LinkId) (m : List AlignLane),
      (ethMode s l.val = true ∨ ((lanesWhere s l (fun a => a.st = .align)).filter (seenAs (fun x => holdsLock x && !inSkew x) m)) ++ ((lanesWhere s l (fun a => a.st = .align)).filter (seenAs (fun x => holdsLock x && inSkew x) m)) = []))
  ∧ (∃ (s : State) (l : LinkId) (m : List AlignLane), ethMode s l.val = false
      ∧ (((lanesWhere s l (fun a => a.st = .align)).filter (seenAs (fun x => holdsLock x && !inSkew x) m)) ++ ((lanesWhere s l (fun a => a.st = .align)).filter (seenAs (fun x => holdsLock x && inSkew x) m)) ≠ []))
  ∧ (∃ (s : State) (l : LinkId), (link s l).up = false ∧ (link s l).nego = false ∧ lanesWhere s l aligning ≠ [])
  ∧ (∃ (s : State) (l : LinkId), (link s l).up = false ∧ (link s l).nego = false ∧ lanesWhere s l aligning = []
      ∧ laneCount (laneMask s l inLane) < minLanes s l)
  ∧ (∃ (s : State) (l : LinkId), (link s l).up = false ∧ (link s l).nego = false ∧ lanesWhere s l aligning = []
      ∧ minLanes s l ≤ laneCount (laneMask s l inLane))
  ∧ (∃ (s : State) (l : LinkId), (link s l).up = true ∧ (link s l).retrain = true
      ∧ (lanesWhere s l (fun a => inLane a && !(a.st = .service)) = []))
  ∧ (∃ (s : State) (l : LinkId), (link s l).up = true ∧ (link s l).retrain = false) :=
  ⟨⟨{ run := (false, 0) }, by decide +kernel⟩,
  ⟨0, by decide +kernel⟩,
  ⟨0, by decide +kernel⟩,
  ⟨{ (sL { st := .detect, darkened := false }) with tick.ns := 100000 }, 0,
      List.replicate 4 ⟨List.replicate 200 true, List.replicate 8 true⟩, by decide +kernel⟩,
  ⟨setLink (sE {} .off) (0 : LinkId) { up := true }, 0, List.replicate 4 ⟨[], List.replicate 8 true⟩, by decide +kernel⟩,
  ⟨State.reset, 0, ⟨0, []⟩, by decide +kernel⟩,
  ⟨State.reset, 0, by decide +kernel⟩,
  ⟨sL { st := .negotiate, darkened := false }, 0, ⟨3, 15, true, 1, 0⟩, by decide +kernel⟩,
  ⟨sL { st := .negotiate, darkened := false } (setLink State.reset 0 { caps := 1 }), 0, ⟨3, 15, true, 0, 7⟩,
      by decide +kernel⟩,
  ⟨sL { st := .negotiate, darkened := false } (setLink State.reset 0 { caps := 2 }), 0, ⟨3, 15, true, 0, 7⟩,
      by decide +kernel⟩,
  ⟨setLink (sL { st := .negotiate, darkened := false }) 0 { caps := 2 }, 0, ⟨2, 15, true, 1, 7⟩, by decide +kernel⟩,
  ⟨setLink (State.reset) (0 : LinkId) { initiator := true }, 0, by decide +kernel⟩,
  ⟨State.reset, 0, by decide +kernel⟩,
  ⟨setLink (State.reset) (0 : LinkId) { stepCount := 7 }, 0, by decide +kernel⟩,
  ⟨sL { st := .step, darkened := false } (State.reset), 0, 0, by decide +kernel⟩,
  ⟨sL { st := .step, darkened := false } (State.reset), 0, by decide +kernel⟩,
  ⟨setLane (State.reset) (0 : LaneId) { pass := some true, peerPass := some true, st := .step }, 0, true, true,
      by decide +kernel⟩,
  ⟨setLane (State.reset) (0 : LaneId) { pass := some false, peerPass := some false, st := .step }, 0, false, false,
      by decide +kernel⟩,
  ⟨setLane (State.reset) (0 : LaneId) { pass := some true, peerPass := some true, st := .recover }, 0, true, true,
      by decide +kernel⟩,
  ⟨setLane (State.reset) (0 : LaneId) { pass := some false, peerPass := some false, st := .recover }, 0, false, false,
      by decide +kernel⟩,
  ⟨setLane (State.reset) (0 : LaneId) { tries := 2 }, 0, by decide +kernel⟩,
  ⟨State.reset, 0, by decide +kernel⟩,
  ⟨sL { st := .step, darkened := false, rate := 3, pass := some true, peerPass := some true }, 0, by decide +kernel⟩,
  ⟨{ sL { st := .negotiate, darkened := false } (State.reset) with tick.ns := 10000000 }, 0, 1, 0, by decide +kernel⟩,
  ⟨State.reset, 0, 0, by decide +kernel⟩,
  ⟨setLane (State.reset) (0 : LaneId) { st := .align }, 0, by decide +kernel⟩,
  ⟨State.reset, 0, [], by decide +kernel⟩,
  ⟨sL { st := .align, darkened := false }, 0, List.replicate 4 ⟨List.replicate 96 1, true, 0⟩, by decide +kernel⟩,
  ⟨sL { st := .step, darkened := false, pass := some true, peerPass := some true } (State.reset), 0, by decide +kernel⟩,
  ⟨State.reset, 0, by decide +kernel⟩,
  ⟨sL { st := .recover, darkened := false, rate := 3, pass := some true } (State.reset), 0, by decide +kernel⟩,
  ⟨setLink (State.reset) (0 : LinkId) { up := true, retrain := true }, 0, by decide +kernel⟩,
  ⟨setLink (State.reset) (0 : LinkId) { up := true }, 0, by decide +kernel⟩⟩

/-- Every clause of LaneFaultsLasersAndLoops has a state and operands that meet its hypotheses. -/
theorem test_witness_laneFaultsLasersAndLoops :
  (∃ (s : State) (n : LaneId) (c : LaneCause) (k : Nat),
      ((c = .lock ∧ k = 1 ∧ (codeSeen s n = true → lockLost (lane s n) = true)) ∨ (c = .ucwLimit ∧ k = 2
      ∧ (codeSeen s n = true → fld (reg s .laneCtrl n.val) 8 8 ≤ ucwCount s (lane s n))) ∨ (c = .rxPower ∧ k = 3
      ∧ 8 ≤ (lane s n).low) ∨ (c = .laser ∧ k = 4 ∧ (lane s n).darkened = true)))
  ∧ (∃ (s : State) (n : LaneId), codeSeen s n = true ∧ lockLost (lane s n) = false)
  ∧ (∃ (s : State) (n : LaneId), codeSeen s n = true ∧ ucwCount s (lane s n) < fld (reg s .laneCtrl n.val) 8 8)
  ∧ (∃ (s : State) (n : LaneId), (lane s n).low < 8)
  ∧ (∃ (s : State) (n : LaneId) (k : Nat) (j : LaneId), k ≤ 4 ∧ tblWf {} s.lanes = true
      ∧ ((lane s n).st = .service ∨ (lane s n).st = .align) ∧ (lane s n).darkened = false ∧ inLane (lane s n) = true
      ∧ ethMode s (linkOfLane n).val = false ∧ minLanes s (linkOfLane n) + 1 ≤ laneCount (laneMask s (linkOfLane n) inLane)
      ∧ j ≠ n)
  ∧ (∃ (s : State) (n : LaneId), (lane s n).st ≠ .service ∧ (lane s n).st ≠ .align)
  ∧ (∃ (s : State) (l : LinkId), ethMode s l.val = true)
  ∧ (∃ (s : State) (l : LinkId), ethMode s l.val = false ∧ minLanes s l ≤ laneCount (laneMask s l inLane))
  ∧ (∃ (s : State) (l : LinkId), ethMode s l.val = false ∧ laneCount (laneMask s l inLane) < minLanes s l
      ∧ ((link s l).up = true ∨ (link s l).nego = true))
  ∧ (∃ (s : State) (l : LinkId), ethMode s l.val = false ∧ laneCount (laneMask s l inLane) < minLanes s l
      ∧ (link s l).up = false ∧ (link s l).nego = false)
  ∧ (∃ (s : State) (n : LaneId), (link s (linkOfLane n)).up = true ∧ (link s (linkOfLane n)).retrain = true
      ∧ (lane s n).ownOut = false ∧ (lane s n).peerOut = false)
  ∧ (∃ (s : State) (n : LaneId), (lane s n).ownOut = true ∧ 4 ≤ ((lane s n).fails + 1).toNat)
  ∧ (∃ (s : State) (n : LaneId), (lane s n).ownOut = true ∧ ((lane s n).fails + 1).toNat < 4)
  ∧ (∃ (s : State) (l : LinkId) (b : LaneState), tblWf {} s.lanes = true ∧ (link s l).up = true ∧ ethMode s l.val = false
      ∧ (minLanes s l ≤ ((List.finRange 4).filter (fun j => !bit b.outMask j.val && inLane { lane s (laneId l j) with peerOut := false })).length) ∧ minLanes s l ≤ laneCount b.txNext)
  ∧ (∃ (s : State) (l : LinkId), ((link s l).up = false ∨ ethMode s l.val = true))
  ∧ (∃ (s : State) (n : LaneId) (k : BitVec 48), (lane s n).retryAt = some k ∧ (lane s n).st = .recover
      ∧ (lane s n).failed = false ∧ (lane s n).darkened = false ∧ reached s k = true ∧ tblWf {} s.lanes = true)
  ∧ (∃ (s : State) (n : LaneId), ((lane s n).retryAt = none ∨ (lane s n).st ≠ .recover ∨ (lane s n).failed = true))
  ∧ (∃ (s : State) (n : LaneId), (lane s n).failed = true ∧ (lane s n).st = .recover)
  ∧ (∃ (s : State) (n : LaneId), (lane s n).failed = true ∧ tblWf {} s.lanes = true)
  ∧ (∃ (s : State) (l : Fin 16), ethMode s ((⟨80 + l.val, by omega⟩ : LinkId)).val = true ∧ (ethPort s l).up = false
      ∧ (∀ j, laneLit s (laneId ((⟨80 + l.val, by omega⟩ : LinkId)) j) = true))
  ∧ (∃ (s : State) (l : Fin 16), (ethPort s l).up = true)
  ∧ (∃ (s : State), tblWf {} s.lanes = true ∧ tblWf {} s.lasers = true)
  ∧ (∃ (s : State), tblWf {} s.lanes = true ∧ RegsRise s)
  ∧ (∃ (s : State) (n : LaneId) (p : BitVec 16), tblWf {} s.lanes = true ∧ ((lane s n).low + 1 < 8 ∨ rxLow s ≤ p.toInt))
  ∧ (∃ (s : State) (n : LaneId) (p : BitVec 16), tblWf {} s.lanes = true ∧ p.toInt < rxLow s ∧ 7 ≤ (lane s n).low)
  ∧ (∃ (s : State) (e : Fin 24) (b : Bool), ((laser s e b).fault = true ∨ bit (reg s .oeLaser e.val) b.toNat = false))
  ∧ (∃ (s : State) (e : Fin 24) (b : Bool), (laser s e b).fault = false ∧ bit (reg s .oeLaser e.val) b.toNat = true
      ∧ (laser s e b).power.toInt ≤ laserLow s)
  ∧ (∃ (s : State) (n : LaneId), ((lane s n).st = .detect ∨ (lane s n).st = .negotiate))
  ∧ (∃ (s : State) (n : LaneId), (lane s n).st ≠ .detect ∧ (lane s n).st ≠ .negotiate)
  ∧ (∃ (s : State) (n : LaneId), (lane s n).farLoop.isSome = true)
  ∧ (∃ (s : State) (n : LaneId), (lane s n).farLoop = none) :=
  ⟨⟨sL { st := .service, darkened := false, low := 8 } (State.reset), 0, .rxPower, 3, by decide +kernel⟩,
  ⟨sL { st := .service, darkened := false, low := 8 } (State.reset), 0, by decide +kernel⟩,
  ⟨sL { st := .service, darkened := false, low := 8 } (State.reset), 0, by decide +kernel⟩,
  ⟨State.reset, 0, by decide +kernel⟩,
  ⟨sL { st := .service, darkened := false }, 0, 2, 4, by decide +kernel⟩,
  ⟨State.reset, 0, by decide +kernel⟩,
  ⟨setReg State.reset .ethPortCfg 0 0 0 1, 80, by decide +kernel⟩,
  ⟨sL { st := .service, darkened := false, low := 8 } (State.reset), 0, by decide +kernel⟩,
  ⟨setLink (State.reset) (0 : LinkId) { up := true }, 0, by decide +kernel⟩,
  ⟨State.reset, 0, by decide +kernel⟩,
  ⟨setLink (State.reset) (linkOfLane (0 : LaneId)) { up := true, retrain := true }, 0, by decide +kernel⟩,
  ⟨sL { st := .recover, darkened := false, ownOut := true, fails := 3 }, 0, by decide +kernel⟩,
  ⟨setLane (State.reset) (0 : LaneId) { ownOut := true }, 0, by decide +kernel⟩,
  ⟨setLink (sL { st := .service, darkened := false, low := 8 } (State.reset)) (0 : LinkId) { up := true }, 0,
      ⟨0, 0, 15, 0, 0⟩, by decide +kernel⟩,
  ⟨State.reset, 0, by decide +kernel⟩,
  ⟨setLane (State.reset) (0 : LaneId) { retryAt := some (0 : BitVec 48), st := .recover, failed := false, darkened := false }, 0, 0, by decide +kernel⟩,
  ⟨State.reset, 0, by decide +kernel⟩,
  ⟨setLane (State.reset) (0 : LaneId) { failed := true, st := .recover }, 0, by decide +kernel⟩,
  ⟨setLane (State.reset) (0 : LaneId) { failed := true }, 0, by decide +kernel⟩,
  ⟨{ (setReg State.reset .ethPortCfg 0 0 0 1) with attic.runAt := some 0, fns := [(80, { st := .starting })], lanes := [(320, { darkened := false }), (321, { darkened := false }), (322, { darkened := false }), (323, { darkened := false })] }, 0, by decide +kernel⟩,
  ⟨modEth (0 : Fin 16) (fun x => { x with up := true }) (State.reset), 0, by decide +kernel⟩,
  ⟨State.reset, by decide +kernel⟩,
  ⟨State.reset, by decide +kernel, by unfold RegsRise; decide +kernel⟩,
  ⟨State.reset, 0, 0, by decide +kernel⟩,
  ⟨sL { st := .service, darkened := false, low := 7 }, 0, -32768, by decide +kernel⟩,
  ⟨State.reset, 0, false, by decide +kernel⟩,
  ⟨setReg State.reset .oeLaser 0 0 0 1, 0, false, by decide +kernel⟩,
  ⟨setLane (State.reset) (0 : LaneId) { st := .detect }, 0, by decide +kernel⟩,
  ⟨State.reset, 0, by decide +kernel⟩,
  ⟨setLane (State.reset) (0 : LaneId) { farLoop := some 0 }, 0, by decide +kernel⟩,
  ⟨State.reset, 0, by decide +kernel⟩⟩

/-- Every clause of StrongroomAlarmsAndSessions has a state and operands that meet its hypotheses. -/
theorem test_witness_strongroomAlarmsAndSessions :
  (∃ (s : State) (n : Fin 8), policyOf s n.val = 0)
  ∧ (∃ (s : State) (n : Fin 8), policyOf s n.val ≠ 0)
  ∧ (∃ (s : State) (d : DRef) (f : InFlight), Startable s d 0x73 f)
  ∧ (∃ (s : State) (b : BitVec 48), s.strong.lockAt = some b ∧ s.tick.slot = 0 ∧ reached s b = true)
  ∧ (∃ (s : State) (a : Nat), seqBase s ≤ a ∧ a < seqBase s + gib / 2)
  ∧ (∃ (s : State), (s.strong.lockAt = none ∨ s.tick.slot ≠ 0))
  ∧ (∃ (kind : Nat), kind = 1)
  ∧ (∃ (s : State), (∀ x ∈ s.strong.verify, x.at_ < s.tick.ns))
  ∧ (∃ (s : State) (d : DRef) (f : InFlight), Startable s d 0x70 f ∧ s.strong.erased = false ∧ 4629 ≤ dByte f.desc 32 4)
  ∧ (∃ (s : State) (d : DRef) (f : InFlight), Startable s d 0x70 f ∧ s.strong.erased = true)
  ∧ (∃ (s : State) (d : DRef) (f : InFlight), Startable s d 0x70 f ∧ s.strong.erased = false ∧ dByte f.desc 32 4 < 4629)
  ∧ (∃ (r : List Byte), leAt r 2 1 ≠ 0)
  ∧ (∃ (r : List Byte), bitsOf (leAt r 1 1) 2 1 = 1 ∧ erasesSome (leAt r 48 2) = true)
  ∧ (∃ (s : State) (d : DRef) (f : InFlight), Startable s d 0x71 f ∧ 0 < dByte f.desc 32 4)
  ∧ (∃ (s : State) (d : DRef) (f : InFlight), Startable s d 0x72 f ∧ s.strong.erased = false ∧ s.strong.session.isSome = true
      ∧ s.strong.provision = none ∧ dByte f.desc 32 4 = 156)
  ∧ (∃ (s : State) (d : DRef) (f : InFlight), Startable s d 0x72 f ∧ s.strong.session = none)
  ∧ (∃ (s : State) (d : DRef) (f : InFlight), Startable s d 0x74 f ∧ 1 ≤ dByte f.desc 24 1 ∧ dByte f.desc 24 1 ≤ 64)
  ∧ (∃ (s : State) (d : DRef) (f : InFlight), Startable s d 0x75 f)
  ∧ (∃ (s : State) (p : Provision), s.strong.provision = some p ∧ s.tick.slot = 0 ∧ reached s p.due = true
      ∧ s.strong.lockAt = none)
  ∧ (∃ (s : State) (p : Provision), s.strong.provision = some p ∧ s.tick.slot = 0 ∧ reached s p.due = true
      ∧ s.strong.lockAt.isSome = true)
  ∧ (∃ (s : State), (s.strong.provision = none ∨ s.tick.slot ≠ 0))
  ∧ (∃ (s : State) (v : Verify) (vs : List Verify) (c : Nat), s.strong.verify = v :: vs ∧ s.attic.restarting = false
      ∧ envFault s (verifyKind v.use).1 v.bytes = some c)
  ∧ (∃ (s : State) (v : Verify) (vs : List Verify) (c : Nat), s.strong.verify = v :: vs ∧ s.attic.restarting = false
      ∧ envFault s (verifyKind v.use).1 v.bytes = some c)
  ∧ (∃ (s : State) (bs : List Byte) (o : Offer), s.strong.erased = false ∧ s.strong.offer = some o
      ∧ (envPayload bs).length = 1152 ∧ slice (envPayload bs) 1120 32 = slice o.bytes 1216 32)
  ∧ (∃ (s : State), s.strong.offer = none)
  ∧ (∃ (s : State) (bs : List Byte) (o : Offer), s.strong.offer = some o
      ∧ slice (envPayload bs) 1120 32 ≠ slice o.bytes 1216 32)
  ∧ (∃ (s : State), (s.strong.verify = [] ∨ s.attic.restarting = true)) :=
  ⟨⟨{ State.reset with strong.policy := 0 }, 0, by decide +kernel⟩,
  ⟨State.reset, 0, by decide +kernel⟩,
  ⟨inFlight (fl 0x73) (State.reset), d0, fl 0x73, ⟨by decide +kernel, by decide +kernel, by decide +kernel⟩⟩,
  ⟨{ State.reset with strong.lockAt := some (0 : BitVec 48) }, 0, by decide +kernel⟩,
  ⟨State.reset, seqBase State.reset, by decide +kernel⟩,
  ⟨State.reset, by decide +kernel⟩,
  ⟨1, by decide +kernel⟩,
  ⟨{ State.reset with tick.ns := 1000000 }, by decide +kernel⟩,
  ⟨inFlight (fl 0x70 0 (4629 <<< 256)) (State.reset), d0, fl 0x70 0 (4629 <<< 256),
      ⟨by decide +kernel, by decide +kernel, by decide +kernel⟩, by decide +kernel⟩,
  ⟨inFlight (fl 0x70) ({ State.reset with strong.erased := true }), d0, fl 0x70,
      ⟨by decide +kernel, by decide +kernel, by decide +kernel⟩, by decide +kernel⟩,
  ⟨inFlight (fl 0x70) (State.reset), d0, fl 0x70, ⟨by decide +kernel, by decide +kernel, by decide +kernel⟩,
      by decide +kernel⟩,
  ⟨[0, 0, 1], by decide +kernel⟩,
  ⟨[0, 4] ++ List.replicate 46 0 ++ [2], by decide +kernel⟩,
  ⟨inFlight (fl 0x71 0 (1 <<< 256)) (State.reset), d0, fl 0x71 0 (1 <<< 256),
      ⟨by decide +kernel, by decide +kernel, by decide +kernel⟩, by decide +kernel⟩,
  ⟨inFlight (fl 0x72 0 (156 <<< 256)) ({ State.reset with strong.session := some 7 }), d0, fl 0x72 0 (156 <<< 256),
      ⟨by decide +kernel, by decide +kernel, by decide +kernel⟩, by decide +kernel⟩,
  ⟨inFlight (fl 0x72) (State.reset), d0, fl 0x72, ⟨by decide +kernel, by decide +kernel, by decide +kernel⟩,
      by decide +kernel⟩,
  ⟨inFlight (fl 0x74 0 (3 <<< 192)) (State.reset), d0, fl 0x74 0 (3 <<< 192),
      ⟨by decide +kernel, by decide +kernel, by decide +kernel⟩, by decide +kernel⟩,
  ⟨inFlight (fl 0x75) ({ State.reset with strong.policy := 0 }), d0, fl 0x75,
      ⟨by decide +kernel, by decide +kernel, by decide +kernel⟩⟩,
  ⟨{ State.reset with strong.provision := some (⟨d0, [], 0⟩ : Provision) }, ⟨d0, [], 0⟩, by decide +kernel⟩,
  ⟨{ State.reset with strong.provision := some (⟨d0, [], 0⟩ : Provision), strong.lockAt := some 0 }, ⟨d0, [], 0⟩,
      by decide +kernel⟩,
  ⟨State.reset, by decide +kernel⟩,
  ⟨{ State.reset with strong.verify := [⟨.bundle, [], 0⟩] }, ⟨.bundle, [], 0⟩, [], 1, by decide +kernel⟩,
  ⟨{ State.reset with strong.verify := [⟨.bundle, [], 0⟩] }, ⟨.bundle, [], 0⟩, [], 1, by decide +kernel⟩,
  ⟨{ State.reset with strong.offer := some ⟨0, List.replicate 1256 0⟩ },
      (List.replicate 8 0 ++ leBytes 4 1152 ++ List.replicate 1204 0), ⟨0, List.replicate 1256 0⟩, by decide +kernel⟩,
  ⟨State.reset, by decide +kernel⟩,
  ⟨{ State.reset with strong.offer := some ⟨0, List.replicate 1256 1⟩ },
      (List.replicate 8 0 ++ leBytes 4 1152 ++ List.replicate 1204 0), ⟨0, List.replicate 1256 1⟩, by decide +kernel⟩,
  ⟨State.reset, by decide +kernel⟩⟩

/-- Every clause of SpdmResponder has a state and operands that meet its hypotheses. -/
theorem test_witness_spdmResponder :
  (∃ (s : State) (p : Transport) (c : Instr) (r : SpdmReply), s.attic.restarting = false ∧ s.strong.erased = false
      ∧ ((c, r) ∈ [(Instr.getVersion p, SpdmReply.version), (.getCapabilities p, .capabilities),
      (.negotiateAlgorithms p, .algorithms), (.getDigests p, .digests [Config.sha384 (Config.certChain 0)])]))
  ∧ (∃ (s : State) (i : BitVec 8), s.attic.restarting = false ∧ s.strong.erased = false ∧ (i.toNat ≤ 8 ∨ i = 0xFF))
  ∧ (∃ (s : State) (i : BitVec 8), s.attic.restarting = false ∧ s.strong.erased = false ∧ 8 < i.toNat ∧ i ≠ 0xFF)
  ∧ (∃ (s : State) (p : Transport) (c : Instr), (c ∈ [Instr.getVersion p, .getCapabilities p, .negotiateAlgorithms p,
      .getDigests p] ∨ (∃ o n, c = .getCertificate p o n) ∨ (∃ x, c = .challenge p x) ∨ (∃ i b x,
      c = .getMeasurements p i b x) ∨ ∃ v k q, c = .vendorDefinedRequest p v k q) ∧ s.attic.restarting = true)
  ∧ (∃ (s : State) (p : Transport) (c : Instr), (c ∈ [Instr.getVersion p, .getCapabilities p, .negotiateAlgorithms p,
      .getDigests p] ∨ (∃ o n, c = .getCertificate p o n) ∨ (∃ x, c = .challenge p x) ∨ (∃ i b x,
      c = .getMeasurements p i b x) ∨ ∃ v k q, c = .vendorDefinedRequest p v k q) ∧ s.attic.restarting = false
      ∧ s.strong.erased = true) :=
  ⟨⟨State.reset, .i3c, .getVersion .i3c, .version, by decide +kernel, by decide +kernel, .head _⟩,
  ⟨State.reset, 0, by decide +kernel⟩,
  ⟨State.reset, 9, by decide +kernel⟩,
  ⟨{ State.reset with attic.restarting := true }, .i3c, .getVersion .i3c, .inl (.head _), by decide +kernel⟩,
  ⟨{ State.reset with strong.erased := true }, .i3c, .getVersion .i3c, .inl (.head _), by decide +kernel⟩⟩

/-- Every clause of FirmwareAndRestarts has a state and operands that meet its hypotheses. -/
theorem test_witness_firmwareAndRestarts :
  (∃ (s : State) (d : DRef) (f : InFlight), Startable s d 0x04 f ∧ f.pos ≠ 1 ∧ s.attic.fw = [] ∧ s.attic.trial = false
      ∧ 5432 ≤ dByte f.desc 32 4 ∧ dByte f.desc 32 4 ≤ 50331648)
  ∧ (∃ (s : State) (d : DRef) (f : InFlight), Startable s d 0x04 f ∧ f.pos ≠ 1 ∧ s.attic.fw = []
      ∧ (dByte f.desc 32 4 < 5432 ∨ 50331648 < dByte f.desc 32 4 ∨ s.attic.trial = true))
  ∧ (∃ (s : State) (d : DRef) (f : InFlight), Startable s d 0x05 f ∧ f.pos ≠ 1 ∧ s.attic.fw = []
      ∧ activateBad s (bit f.desc 192) = false)
  ∧ (∃ (s : State) (d : DRef) (f : InFlight), Startable s d 0x05 f ∧ f.pos ≠ 1 ∧ s.attic.fw = []
      ∧ activateBad s (bit f.desc 192) = true)
  ∧ (∃ (s : State) (d : DRef) (f : InFlight), Startable s d 0x06 f ∧ f.pos ≠ 1 ∧ s.attic.fw = [] ∧ s.attic.trial = true)
  ∧ (∃ (s : State) (d : DRef) (f : InFlight), Startable s d 0x06 f ∧ f.pos ≠ 1 ∧ s.attic.fw = [] ∧ s.attic.trial = false)
  ∧ (∃ (s : State) (d : DRef) (f : InFlight) (c : Instr) (op : BitVec 8),
      ((c, op) ∈ [(Instr.fwStage d, (0x04 : BitVec 8)), (.fwActivate d, 0x05), (.fwCommit d, 0x06)]) ∧ Startable s d op f)
  ∧ (∃ (s : State) (x : DRef) (xs : List DRef) (g : InFlight), s.attic.fw = x :: xs ∧ flightOf s x = some g ∧ g.pos = 1)
  ∧ (∃ (s : State) (bs : List Byte), s.attic.recovery = false ∧ levelsNear (envLevel bs) s.attic.level.toNat = false)
  ∧ (∃ (s : State) (bs : List Byte), (s.attic.recovery = true ∨ levelsNear (envLevel bs) s.attic.level.toNat = true))
  ∧ (∃ (s : State) (w : AdminWait) (f : InFlight), flightOf s w.d = some f ∧ dOpcode f.desc = 0x05)
  ∧ (∃ (s : State), s.attic.restarting = true ∧ s.attic.recovery = true)
  ∧ (∃ (s : State), s.attic.restarting = true ∧ s.attic.recovery = false)
  ∧ (∃ (s : State) (d : DRef) (st : BitVec 8), s.attic.activating = some (d, st))
  ∧ (∃ (s : State) (b : Bool) (lv : BitVec 8), s.attic.refusedImage = some (b, lv))
  ∧ (∃ (s : State), ((s.attic.flash.record).trial && (s.attic.flash.record).tried) = true)
  ∧ (∃ (s : State), ((s.attic.flash.record).trial && (s.attic.flash.record).tried) = false)
  ∧ (∃ (s : State) (w : FlashOp), s.attic.flashOp = some w)
  ∧ (∃ (s : State), s.attic.flashOp = none ∧ (s.attic.retireLog = [] ∨ s.attic.restarting = true))
  ∧ (∃ (s : State) (n : Nat) (ns : List Nat), s.attic.flashOp = none ∧ s.attic.retireLog = n :: ns
      ∧ s.attic.restarting = false) :=
  ⟨⟨inFlight (fl 0x04 0 (5432 <<< 256)) (State.reset), d0, fl 0x04 0 (5432 <<< 256),
      ⟨by decide +kernel, by decide +kernel, by decide +kernel⟩, by decide +kernel⟩,
  ⟨inFlight (fl 0x04) (State.reset), d0, fl 0x04, ⟨by decide +kernel, by decide +kernel, by decide +kernel⟩,
      by decide +kernel⟩,
  ⟨inFlight (fl 0x05 0 (0)) ({ State.reset with attic.recovery := true }), d0, fl 0x05 0 (0),
      ⟨by decide +kernel, by decide +kernel, by decide +kernel⟩, by decide +kernel⟩,
  ⟨inFlight (fl 0x05) (State.reset), d0, fl 0x05, ⟨by decide +kernel, by decide +kernel, by decide +kernel⟩,
      by decide +kernel⟩,
  ⟨inFlight (fl 0x06) ({ State.reset with attic.trial := true }), d0, fl 0x06,
      ⟨by decide +kernel, by decide +kernel, by decide +kernel⟩, by decide +kernel⟩,
  ⟨inFlight (fl 0x06) (State.reset), d0, fl 0x06, ⟨by decide +kernel, by decide +kernel, by decide +kernel⟩,
      by decide +kernel⟩,
  ⟨inFlight (fl 0x04) State.reset, d0, fl 0x04, .fwStage d0, 0x04, .head _,
      ⟨by decide +kernel, by decide +kernel, by decide +kernel⟩⟩,
  ⟨inFlight ({ (fl 0x05) with pos := 1 }) { State.reset with attic.fw := [d0] }, d0, [], { (fl 0x05) with pos := 1 },
      by decide +kernel⟩,
  ⟨State.reset, [], by decide +kernel⟩,
  ⟨{ State.reset with attic.recovery := true }, [], by decide +kernel⟩,
  ⟨inFlight (fl 0x05 0 (0)) ({ State.reset with attic.recovery := true }), ⟨d0, 0⟩, fl 0x05 0 (0), by decide +kernel⟩,
  ⟨{ State.reset with attic.restarting := true, attic.recovery := true }, by decide +kernel⟩,
  ⟨{ State.reset with attic.restarting := true }, by decide +kernel⟩,
  ⟨{ State.reset with attic.activating := some (d0, (0 : BitVec 8)) }, d0, 0, by decide +kernel⟩,
  ⟨{ State.reset with attic.refusedImage := some (false, (0 : BitVec 8)) }, false, 0, by decide +kernel⟩,
  ⟨{ State.reset with attic.flash.record := { trial := true, tried := true } }, by decide +kernel⟩,
  ⟨State.reset, by decide +kernel⟩,
  ⟨{ State.reset with attic.flashOp := some (⟨d0, false, []⟩ : FlashOp) }, ⟨d0, false, []⟩, by decide +kernel⟩,
  ⟨State.reset, by decide +kernel⟩,
  ⟨{ State.reset with attic.retireLog := (0 : Nat) :: ([]) }, 0, [], by decide +kernel⟩⟩

/-- Every clause of DrainSidebandAndPower has a state and operands that meet its hypotheses. -/
theorem test_witness_drainSidebandAndPower :
  (∃ (s : State) (d : DRef) (f : InFlight) (c : Instr),
      ((c = .drain d ∧ Startable s d 0x08 f ∧ dByte f.desc 24 4 ≠ 0) ∨ (c = .undrain d ∧ Startable s d 0x09 f)))
  ∧ (∃ (s : State) (d : DRef) (f : InFlight), Startable s d 0x08 f ∧ dByte f.desc 24 4 = 0)
  ∧ (∃ (s : State) (w : AdminWait) (f : InFlight), flightOf s w.d = some f ∧ dOpcode f.desc = 0x08 ∧ s.attic.drains = [])
  ∧ (∃ (s : State) (w : AdminWait) (f : InFlight), flightOf s w.d = some f ∧ dOpcode f.desc = 0x08 ∧ s.attic.drains ≠ [])
  ∧ (∃ (s : State) (w : AdminWait) (f : InFlight), flightOf s w.d = some f ∧ dOpcode f.desc = 0x09)
  ∧ (∃ (s : State), s.tick.slot = 0 ∧ s.attic.draining = true ∧ s.attic.drains ≠ [] ∧ workOpen s = false
      ∧ s.route.under = none ∧ ageLimit s + 2 ≤ ageOf s s.attic.lastEntry)
  ∧ (∃ (s : State), (s.attic.draining = false ∨ s.attic.drains = [] ∨ workOpen s = true))
  ∧ (∃ (s : State), s.attic.drains ≠ [] ∧ s.attic.drainLimit ≤ ageOf s s.attic.drainSince)
  ∧ (∃ (s : State), (ageOf s s.attic.drainSince < s.attic.drainLimit ∨ s.attic.drains = []))
  ∧ (∃ (s : State) (l : LinkId), (link s l).up = false)
  ∧ (∃ (s : State) (l : LinkId), (link s l).up = true ∧ 3 < s.attic.level.toNat)
  ∧ (∃ (s : State) (l : LinkId), (link s l).up = true ∧ s.attic.level.toNat ≤ 3)
  ∧ (∃ (s : State) (id : BitVec 16), s.attic.restarting = false ∧ id = 1)
  ∧ (∃ (s : State) (id : BitVec 16), s.attic.restarting = false ∧ id = 3)
  ∧ (∃ (s : State) (id : BitVec 16), s.attic.restarting = false ∧ id = 4)
  ∧ (∃ (s : State) (id : BitVec 16), s.attic.restarting = false ∧ id = 5)
  ∧ (∃ (s : State) (id : BitVec 16), s.attic.restarting = false ∧ id = 6)
  ∧ (∃ (s : State) (id : BitVec 16), s.attic.restarting = false ∧ (id = 2 ∨ id = 0 ∨ 6 < id.toNat))
  ∧ (∃ (s : State), s.attic.restarting = true)
  ∧ (∃ (e : BitVec 16), e ≠ 1)
  ∧ (∃ (s : State) (d : DRef) (f : InFlight), Startable s d 0x0A f)
  ∧ (∃ (s : State), atStep 11 s = true ∧ hits s 64 0 = true ∧ s.power.sideNew = none ∧ s.power.cmdNew = [])
  ∧ (∃ (s : State), tickSpan s = 1)
  ∧ (∃ (s : State), (atStep 11 s = false ∨ hits s 64 0 = false))
  ∧ (∃ (s : State) (w : Nat), s.attic.restarting = false ∧ s.power.sideNew = some w ∧ s.power.cmdNew = [])
  ∧ (∃ (s : State) (c : CapWait), s.attic.restarting = false ∧ s.power.sideNew = none ∧ s.power.cmdNew = [c]
      ∧ workDue s c.d c.due = false)
  ∧ (∃ (s : State) (c : CapWait), s.attic.restarting = false ∧ s.power.sideNew = none ∧ s.power.cmdNew = [c]
      ∧ workDue s c.d c.due = true ∧ capMissed s c = false)
  ∧ (∃ (s : State), s.power.sideCap = none ∧ s.power.cmdCap = none)
  ∧ (∃ a, ∃ (s : State), s.power.sideCap = some a ∧ s.power.cmdCap = none)
  ∧ (∃ b, ∃ (s : State), s.power.sideCap = none ∧ s.power.cmdCap = some b)
  ∧ (∃ a, ∃ b, ∃ (s : State), s.power.sideCap = some a ∧ s.power.cmdCap = some b)
  ∧ (∃ (s : State) (p : Nat), capTarget s ≠ s.power.target ∧ s.power.met = false ∧ s.power.target < p)
  ∧ (∃ (s : State), 1150 ≤ capInForce s)
  ∧ (∃ (s : State), capInForce s < 1150 ∧ s.power.capAlarm = true)
  ∧ (∃ (s : State), capInForce s < 1150 ∧ s.power.capAlarm = false)
  ∧ (∃ (s : State) (j : BitVec 8), s.power.theta = 256 ∧ 210 ≤ j.toNat)
  ∧ (∃ k, k ≤ 16)
  ∧ (∃ (k : Nat), 16 < k ∧ k ≤ 32)
  ∧ (∃ (k : Nat), 32 < k ∧ k ≤ 48)
  ∧ (∃ (s : State), bit (reg s .powerCfg) 8 = true)
  ∧ (∃ (s : State), bit (reg s .powerCfg) 8 = false) :=
  ⟨⟨inFlight (fl 0x08 0 (1 <<< 192)) State.reset, d0, fl 0x08 0 (1 <<< 192), .drain d0,
      .inl ⟨rfl, ⟨by decide +kernel, by decide +kernel, by decide +kernel⟩, by decide +kernel⟩⟩,
  ⟨inFlight (fl 0x08) (State.reset), d0, fl 0x08, ⟨by decide +kernel, by decide +kernel, by decide +kernel⟩,
      by decide +kernel⟩,
  ⟨inFlight (fl 0x08 0 (1 <<< 192)) State.reset, ⟨d0, 0⟩, fl 0x08 0 (1 <<< 192), by decide +kernel⟩,
  ⟨inFlight (fl 0x08) { State.reset with attic.drains := [d0] }, ⟨d0, 0⟩, fl 0x08, by decide +kernel⟩,
  ⟨inFlight (fl 0x09) State.reset, ⟨d0, 0⟩, fl 0x09, by decide +kernel⟩,
  ⟨{ State.reset with attic.draining := true, attic.drains := [d0], attic.drainLimit := 9, tick.elapsed := 66 },
      by decide +kernel⟩,
  ⟨State.reset, by decide +kernel⟩,
  ⟨{ State.reset with attic.draining := true, attic.drains := [d0], attic.drainLimit := 9, tick.elapsed := 66 },
      by decide +kernel⟩,
  ⟨{ State.reset with attic.draining := true, attic.drains := [d0], attic.drainLimit := 9, tick.elapsed := 8 },
      by decide +kernel⟩,
  ⟨State.reset, 0, by decide +kernel⟩,
  ⟨{ (setLink (State.reset) (0 : LinkId) { up := true }) with attic.level := 4 }, 0, by decide +kernel⟩,
  ⟨{ setLink State.reset 0 { up := true } with attic.level := 3 }, 0, by decide +kernel⟩,
  ⟨State.reset, 1, by decide +kernel⟩,
  ⟨State.reset, 3, by decide +kernel⟩,
  ⟨State.reset, 4, by decide +kernel⟩,
  ⟨State.reset, 5, by decide +kernel⟩,
  ⟨State.reset, 6, by decide +kernel⟩,
  ⟨State.reset, 2, by decide +kernel⟩,
  ⟨{ State.reset with attic.restarting := true }, by decide +kernel⟩,
  ⟨0, by decide +kernel⟩,
  ⟨inFlight (fl 0x0A) (State.reset), d0, fl 0x0A, ⟨by decide +kernel, by decide +kernel, by decide +kernel⟩⟩,
  ⟨State.reset, by decide +kernel⟩,
  ⟨State.reset, by decide +kernel⟩,
  ⟨{ State.reset with tick.slot := 1 }, by decide +kernel⟩,
  ⟨{ State.reset with power.sideNew := some (0 : Nat) }, 0, by decide +kernel⟩,
  ⟨{ State.reset with power.cmdNew := [⟨d0, 1500, 5⟩] }, ⟨d0, 1500, 5⟩, by decide +kernel⟩,
  ⟨{ State.reset with power.cmdNew := [(⟨d0, 0, 0⟩ : CapWait)] }, ⟨d0, 0, 0⟩, by decide +kernel⟩,
  ⟨State.reset, by decide +kernel⟩,
  ⟨0, { State.reset with power.sideCap := some 0 }, by decide +kernel⟩,
  ⟨0, { State.reset with power.cmdCap := some 0 }, by decide +kernel⟩,
  ⟨0, 0, { State.reset with power.sideCap := some 0, power.cmdCap := some 0 }, by decide +kernel⟩,
  ⟨{ State.reset with power.sideCap := some 1500, power.target := 2400, power.met := false }, 2401, by decide +kernel⟩,
  ⟨State.reset, by decide +kernel⟩,
  ⟨{ State.reset with power.sideCap := some 1000, power.capAlarm := true }, by decide +kernel⟩,
  ⟨{ State.reset with power.sideCap := some 1000, power.capAlarm := false }, by decide +kernel⟩,
  ⟨{ State.reset with power.theta := 256 }, 210, by decide +kernel⟩,
  ⟨0, by decide +kernel⟩,
  ⟨17, by decide +kernel⟩,
  ⟨48, by decide +kernel⟩,
  ⟨State.reset, by decide +kernel⟩,
  ⟨setReg State.reset .powerCfg 0 0 0 0, by decide +kernel⟩⟩

/-- Every clause of ResetsAndStartUp has a state and operands that meet its hypotheses. -/
theorem test_witness_resetsAndStartUp :
  (∃ (s : State) (c : Instr), (c ∈ [Instr.powerOnReset, .pinReset, .thermalShutdown] ∨ (c = .moduleResetApply
      ∧ s.tick.slot = 0 ∧ dueNow s s.power.resetAt = true)))
  ∧ (∃ (s : State), (s.tick.slot ≠ 0 ∨ s.power.resetAt = none))
  ∧ (∃ (s : State), dueNow s s.power.resetAt = false)
  ∧ (∃ (s : State) (w : AdminWait) (f : InFlight), flightOf s w.d = some f ∧ dOpcode f.desc = 0x07)
  ∧ (∃ (s : State) (d : DRef) (f : InFlight), Startable s d 0x07 f)
  ∧ (∃ (s : State) (x : FuseReading), s.power.inReset = true ∧ s.power.shutdown = false ∧ x.railsGood = true
      ∧ x.resetHigh = true ∧ ((s.attic.flash.record).trial && (s.attic.flash.record).tried) = false)
  ∧ (∃ (s : State) (x : FuseReading), (s.power.inReset = false ∨ s.power.shutdown = true ∨ x.railsGood = false ∨ x.resetHigh = false))
  ∧ (∃ (s : State), s.power.larderDone = false ∧ s.attic.runAt.isSome = true)
  ∧ (∃ (s : State) (n : Nat), s.attic.flash.retired = [n])
  ∧ (∃ (s : State), (s.power.larderDone = true ∨ s.attic.runAt = none))
  ∧ (∃ (s : State), s.tick.slot = 0 ∧ (∀ b ∈ readyConds s, b = true))
  ∧ (∃ (s : State), (s.tick.slot ≠ 0 ∨ false ∈ readyConds s))
  ∧ (∃ (s : State), s.power.ready = false ∧ s.power.late = false ∧ 4000000000 ≤ s.tick.ns)
  ∧ (∃ (s : State), (s.power.ready = true ∨ s.power.late = true ∨ s.tick.ns < 4000000000)) :=
  ⟨⟨State.reset, .powerOnReset, by decide +kernel⟩,
  ⟨{ State.reset with tick.slot := 1 }, by decide +kernel⟩,
  ⟨State.reset, by decide +kernel⟩,
  ⟨inFlight (fl 0x07) State.reset, ⟨d0, 0⟩, fl 0x07, by decide +kernel⟩,
  ⟨inFlight (fl 0x07) (State.reset), d0, fl 0x07, ⟨by decide +kernel, by decide +kernel, by decide +kernel⟩⟩,
  ⟨{ State.reset with power.inReset := true }, { (⟨0, true, false⟩ : FuseReading) with railsGood := true, resetHigh := true }, by decide +kernel⟩,
  ⟨{ State.reset with power.inReset := false }, ⟨0, true, false⟩, by decide +kernel⟩,
  ⟨{ State.reset with attic.runAt := some 0 }, by decide +kernel⟩,
  ⟨{ State.reset with attic.flash.retired := [(0 : Nat)] }, 0, by decide +kernel⟩,
  ⟨{ State.reset with power.larderDone := true }, by decide +kernel⟩,
  ⟨{ State.reset with attic.runAt := some 0, power.larderDone := true, enz.st := .active, tick.locked := true },
      by decide +kernel⟩,
  ⟨{ State.reset with tick.slot := 1 }, by decide +kernel⟩,
  ⟨{ State.reset with tick.ns := 4000000000 }, by decide +kernel⟩,
  ⟨{ State.reset with power.ready := true }, by decide +kernel⟩⟩

/-- Every clause of TestAccessPort has a state and operands that meet its hypotheses. -/
theorem test_witness_testAccessPort :
  (∃ (s : State), s.power.inReset = true)
  ∧ (∃ (s : State), s.power.inReset = false) :=
  ⟨⟨{ State.reset with power.inReset := true }, by decide +kernel⟩,
  ⟨{ State.reset with power.inReset := false }, by decide +kernel⟩⟩

/-- Every clause of LinkFailuresAndNotices has a state and operands that meet its hypotheses. -/
theorem test_witness_linkFailuresAndNotices :
  (∃ (s : State) (l : LinkId) (c : BitVec 8) (b : BitVec 48), (link s l).failAt = some (c, b) ∧ atStep 3 s = true
      ∧ reached s b = true ∧ (link s l).up = true)
  ∧ (∃ (s : State) (l : LinkId) (c : BitVec 8) (b : BitVec 48), (link s l).failAt = some (c, b) ∧ atStep 3 s = true
      ∧ reached s b = true ∧ (link s l).up = false)
  ∧ (∃ (s : State) (l : LinkId), ((link s l).failAt = none ∨ s.tick.slot ≠ 0 ∨ 3 < s.tick.phase))
  ∧ (∃ (s : State) (l : LinkId) (c : BitVec 8) (b : BitVec 48), (link s l).failAt = some (c, b) ∧ reached s b = false)
  ∧ (∃ (s : State), ((∃ l, failDue s l = true) ∨ noticeDue s = true))
  ∧ (∃ (s : State), (∀ l, failDue s l = false) ∧ noticeDue s = false)
  ∧ (∃ (k : Link), k.crossOld.overflow = false ∧ k.crossNew.overflow = false)
  ∧ (∃ (k : Link), k.crossOld.overflow = true ∧ k.crossNew.overflow = true)
  ∧ (∃ (s : State) (n : Notice), s.route.notices = [n] ∧ atStep 3 s = true ∧ reached s n.due = true ∧ n.up = false
      ∧ (n.peer, n.reporter) ∉ s.route.excl ∧ s.route.excl.length < 1024)
  ∧ (∃ (s : State) (n : Notice), s.route.notices = [n] ∧ atStep 3 s = true ∧ reached s n.due = true ∧ n.up = true)
  ∧ (∃ (s : State), atStep 3 s = true ∧ noticeDue s = true)
  ∧ (∃ (s : State) (n : Notice), n.up = false ∧ (n.peer, n.reporter) ∉ s.route.excl ∧ 1024 ≤ s.route.excl.length)
  ∧ (∃ (s : State), (noticeDue s = false ∨ atStep 3 s = false))
  ∧ (∃ (p : Packet), p.opcode = 0x50 ∧ p.payload.length = 16
      ∧ (bitsOf (leAt p.payload 0 8) 0 8 = 0x10 ∨ bitsOf (leAt p.payload 0 8) 0 8 = 0x11))
  ∧ (∃ (p : Packet), p.opcode ≠ 0x50)
  ∧ (∃ (p : Packet), p.opcode = 0x50 ∧ p.payload.length ≠ 16)
  ∧ (∃ (s : State) (l : LinkId), s.tick.slot = 0 ∧ (link s l).up = true ∧ (link s l).vexlor = true
      ∧ ageLimit s + 2 ≤ ageOf s (link s l).crossNew.opened)
  ∧ (∃ (s : State) (l : LinkId), (s.tick.slot ≠ 0 ∨ (link s l).up = false ∨ (link s l).vexlor = false ∨ ageOf s (link s l).crossNew.opened < ageLimit s + 2))
  ∧ (∃ (s : State) (d : DRef) (f : InFlight), Startable s d 0x0B f ∧ dTarget f.desc = 0xFFFF ∧ 0 < fld f.desc 288 11
      ∧ fld f.desc 288 11 ≤ 1024 ∧ fld f.desc 192 5 = 0
      ∧ (((BitVec.ofNat 32 (fld f.desc 256 32)) - (s.counts.logNext - BitVec.ofNat 32 s.counts.log.length)).toNat) < s.counts.log.length ∧ (((BitVec.ofNat 32 (fld f.desc 256 32)) - (s.counts.logNext - BitVec.ofNat 32 s.counts.log.length)).toNat) < 2 ^ 31)
  ∧ (∃ (s : State) (d : DRef) (f : InFlight), Startable s d 0x0B f
      ∧ (dTarget f.desc ≠ 0xFFFF ∨ fld f.desc 288 11 = 0 ∨ 1024 < fld f.desc 288 11 ∨ fld f.desc 192 5 ≠ 0))
  ∧ (∃ (s : State) (d : DRef) (f : InFlight), Startable s d 0x0B f ∧ dTarget f.desc = 0xFFFF ∧ 0 < fld f.desc 288 11
      ∧ fld f.desc 288 11 ≤ 1024 ∧ fld f.desc 192 5 = 0
      ∧ 2 ^ 31 ≤ ((BitVec.ofNat 32 (fld f.desc 256 32)) - (s.counts.logNext - BitVec.ofNat 32 s.counts.log.length)).toNat
      ∧ (s.counts.log.take (fld f.desc 288 11 - min (fld f.desc 288 11) ((s.counts.logNext - BitVec.ofNat 32 s.counts.log.length) - (BitVec.ofNat 32 (fld f.desc 256 32))).toNat)) ≠ [])
  ∧ (∃ (s : State) (d : DRef) (f : InFlight), Startable s d 0x0B f ∧ dTarget f.desc = 0xFFFF ∧ 0 < fld f.desc 288 11
      ∧ fld f.desc 288 11 ≤ 1024 ∧ fld f.desc 192 5 = 0
      ∧ 2 ^ 31 ≤ ((BitVec.ofNat 32 (fld f.desc 256 32)) - (s.counts.logNext - BitVec.ofNat 32 s.counts.log.length)).toNat
      ∧ (s.counts.log.take (fld f.desc 288 11 - min (fld f.desc 288 11) ((s.counts.logNext - BitVec.ofNat 32 s.counts.log.length) - (BitVec.ofNat 32 (fld f.desc 256 32))).toNat)) = [])
  ∧ (∃ (s : State) (d : DRef) (f : InFlight), Startable s d 0x0B f ∧ dTarget f.desc = 0xFFFF ∧ 0 < fld f.desc 288 11
      ∧ fld f.desc 288 11 ≤ 1024 ∧ fld f.desc 192 5 = 0
      ∧ ((BitVec.ofNat 32 (fld f.desc 256 32) - (s.counts.logNext - BitVec.ofNat 32 s.counts.log.length)).toNat) < 2 ^ 31
      ∧ s.counts.log.length ≤ ((BitVec.ofNat 32 (fld f.desc 256 32) - (s.counts.logNext - BitVec.ofNat 32 s.counts.log.length)).toNat)) :=
  ⟨⟨setLink (State.reset) (0 : LinkId) { failAt := some ((0 : BitVec 8), (0 : BitVec 48)), up := true }, 0, 0, 0,
      by decide +kernel⟩,
  ⟨setLink (State.reset) (0 : LinkId) { failAt := some ((0 : BitVec 8), (0 : BitVec 48)) }, 0, 0, 0, by decide +kernel⟩,
  ⟨State.reset, 0, by decide +kernel⟩,
  ⟨setLink State.reset 0 { failAt := some (1, 1) }, 0, 1, 1, by decide +kernel⟩,
  ⟨setLink State.reset 0 { up := true, failAt := some (1, 0) }, .inl (by decide +kernel)⟩,
  ⟨State.reset, by decide +kernel⟩,
  ⟨{ crossOld.overflow := false, crossNew.overflow := false }, by decide +kernel⟩,
  ⟨{ crossOld.overflow := true, crossNew.overflow := true }, by decide +kernel⟩,
  ⟨{ State.reset with route.notices := [⟨false, 0, 3, 4, 0⟩], route.excl := [] }, ⟨false, 0, 3, 4, 0⟩, by decide +kernel⟩,
  ⟨{ State.reset with route.notices := [⟨true, 0, 3, 4, 0⟩], route.excl := [(4, 3)] }, ⟨true, 0, 3, 4, 0⟩, by decide +kernel⟩,
  ⟨{ State.reset with route.notices := [⟨false, 0, 3, 4, 0⟩], route.excl := [] }, by decide +kernel⟩,
  ⟨{ State.reset with route.excl := List.replicate 1024 (1, 1) }, ⟨false, 0, 3, 4, 0⟩, by decide +kernel⟩,
  ⟨State.reset, by decide +kernel⟩,
  ⟨{ opcode := 0x50, payload := leBytes 16 0x10 }, by decide +kernel⟩,
  ⟨{}, by decide +kernel⟩,
  ⟨{ opcode := 0x50 }, by decide +kernel⟩,
  ⟨{ (modLink (0 : LinkId) (fun x => { x with up := true, vexlor := true }) (State.reset)) with tick.elapsed := 0x100000 },
      0, by decide +kernel⟩,
  ⟨{ State.reset with tick.slot := 1 }, 0, by decide +kernel⟩,
  ⟨inFlight (fl 0x0B 0xFFFF (1 <<< 288)) ({ State.reset with counts.log := [{ code := 0x10 }], counts.logNext := 1 }), d0,
      fl 0x0B 0xFFFF (1 <<< 288), ⟨by decide +kernel, by decide +kernel, by decide +kernel⟩, by decide +kernel⟩,
  ⟨inFlight (fl 0x0B) (State.reset), d0, fl 0x0B, ⟨by decide +kernel, by decide +kernel, by decide +kernel⟩,
      by decide +kernel⟩,
  ⟨inFlight (fl 0x0B 0xFFFF (2 <<< 288 + 0xFFFFFFFF <<< 256)) ({ State.reset with counts.log := [{ code := 0x10 }], counts.logNext := 1 }), d0, fl 0x0B 0xFFFF (2 <<< 288 + 0xFFFFFFFF <<< 256), ⟨by decide +kernel, by decide +kernel, by decide +kernel⟩, by decide +kernel⟩,
  ⟨inFlight (fl 0x0B 0xFFFF (1 <<< 288 + 0xFFFFFFFE <<< 256)) ({ State.reset with counts.log := [{ code := 0x10 }], counts.logNext := 1 }), d0, fl 0x0B 0xFFFF (1 <<< 288 + 0xFFFFFFFE <<< 256), ⟨by decide +kernel, by decide +kernel, by decide +kernel⟩, by decide +kernel⟩,
  ⟨inFlight (fl 0x0B 0xFFFF (1 <<< 288 + 1 <<< 256)) ({ State.reset with counts.log := [{ code := 0x10 }], counts.logNext := 1 }), d0, fl 0x0B 0xFFFF (1 <<< 288 + 1 <<< 256), ⟨by decide +kernel, by decide +kernel, by decide +kernel⟩, by decide +kernel⟩⟩

/-- Every clause of AnswersEndThreadItems has a state and operands that meet its hypotheses. -/
theorem test_witness_answersEndThreadItems :
  (∃ (s : State) (p : Packet) (o : Own) (x : Thr) (r : Nat) (n : Nat) (sgn : Bool), p.opcode = 0x81
      ∧ AnswersThread s p o x (.load r n sgn) ∧ o.opcode = 0x01 ∧ o.got = 0 ∧ o.data = [] ∧ p.addr = o.addr
      ∧ p.payLen.toNat = p.payload.length ∧ o.len = p.payload.length)
  ∧ (∃ (s : State) (p : Packet) (o : Own), p.opcode = 0x81 ∧ ownOf s p.tag = some o ∧ o.dst = p.src ∧ o.opcode = 0x01
      ∧ p.ecnEcho = false ∧ o.got + p.payLen.toNat < o.len)
  ∧ (∃ (s : State) (p : Packet) (o : Own) (x : Thr), p.opcode = 0x82 ∧ AnswersThread s p o x .store ∧ o.opcode = 0x02)
  ∧ (∃ (s : State) (p : Packet) (o : Own) (x : Thr) (r : Nat) (pair : Bool), p.opcode = 0x88
      ∧ AnswersThread s p o x (.atomic r pair) ∧ 0x08 ≤ o.opcode.toNat ∧ o.opcode.toNat ≤ 0x0D)
  ∧ (∃ (s : State) (p : Packet) (o : Own) (x : Thr) (r : Nat), p.opcode = 0x90 ∧ AnswersThread s p o x (.launch r)
      ∧ o.opcode = 0x10)
  ∧ (∃ (s : State) (p : Packet) (o : Own) (x : Thr) (r : Nat), p.opcode = 0x8F ∧ p.itemLen ≠ 0xFFFFFFFF
      ∧ AnswersThread s { p with src := o.dst } o x (.launch r) ∧ p.status ≠ stOk)
  ∧ (∃ (s : State) (p : Packet) (o : Own) (c : Instr) (op : BitVec 8) (st : BitVec 8) (bs : List Byte),
      ownOf s p.tag = some o ∧ (c = .wrAck p ∧ op = 0x82 ∧ o.dst = p.src ∧ o.opcode = 0x02 ∧ st = stOk
      ∧ bs = [] ∨ c = .atData p ∧ op = 0x88 ∧ o.dst = p.src ∧ 0x08 ≤ o.opcode.toNat ∧ o.opcode.toNat ≤ 0x0D ∧ st = stOk
      ∧ bs = p.payload ∨ c = .failPkt p ∧ op = 0x8F ∧ p.itemLen ≠ 0xFFFFFFFF ∧ st = legalStatus p.status ∧ bs = [])
      ∧ p.opcode = op)
  ∧ (∃ (s : State) (p : Packet) (o : Own), p.opcode = 0x81 ∧ ownOf s p.tag = some o ∧ o.dst = p.src ∧ o.opcode = 0x01
      ∧ o.got + p.payLen.toNat = o.len)
  ∧ (∃ (s : State) (p : Packet) (c : Instr) (op : BitVec 8),
      ((c, op) ∈ [(Instr.rdData p, (0x81 : BitVec 8)), (.wrAck p, 0x82), (.atData p, 0x88), (.launchAck p, 0x90)])
      ∧ p.opcode = op ∧ (∀ o, ownOf s p.tag = some o → o.dst ≠ p.src))
  ∧ (∃ (s : State) (p : Packet), p.opcode = 0x8F ∧ p.itemLen ≠ 0xFFFFFFFF ∧ ownOf s p.tag = none)
  ∧ (∃ (p : Packet), p.opcode = 0x8F ∧ p.itemLen = 0xFFFFFFFF)
  ∧ (∃ (p : Packet) (c : Instr) (op : BitVec 8), ((c, op) ∈ [(Instr.rdData p, (0x81 : BitVec 8)), (.wrAck p, 0x82),
      (.atData p, 0x88), (.launchAck p, 0x90), (.failPkt p, 0x8F)]) ∧ p.opcode ≠ op)
  ∧ (∃ (o : Own) (x : Thr) (acc : ThreadAcc) (st : BitVec 8), o.use = .thread x acc ∧ st ≠ stOk ∧ (∀ r, acc ≠ .launch r))
  ∧ (∃ (o : Own) (p : Packet), p.ecnEcho = true ∧ 96 ≤ o.inp.val ∧ o.inp.val ≠ 126)
  ∧ (∃ (s : State) (p : Packet) (o : Own) (x : Thr) (r : Nat), AnswersThread s p o x (.launch r)
      ∧ respTimeout s ≤ ageOf s o.sent)
  ∧ (∃ (s : State) (tag : BitVec 16) (o : Own), ownOf s tag = some o ∧ respTimeout s ≤ ageOf s o.sent)
  ∧ (∃ (s : State) (tag : BitVec 16), (∀ o, ownOf s tag = some o → ageOf s o.sent < respTimeout s)) :=
  ⟨⟨{ sI (wOf 9 8) with items.own := [{ tag := 5, opcode := 0x01, dst := 3, addr := 64, len := 8, use := .thread t0 (.load 2 8 false), sent := 0 }] }, { opcode := 0x81, tag := 5, src := 3, addr := 64, payLen := 8, payload := List.replicate 8 1 }, { tag := 5, opcode := 0x01, dst := 3, addr := 64, len := 8, use := .thread t0 (.load 2 8 false), sent := 0 }, t0, 2, 8, false, by decide +kernel, ⟨by decide +kernel, by decide +kernel, by decide +kernel, by decide +kernel, by decide +kernel, by decide +kernel, _, rfl, by decide +kernel⟩, by decide +kernel⟩,
  ⟨{ sI (wOf 9 8) with items.own := [{ tag := 5, opcode := 0x01, dst := 3, addr := 64, len := 8, use := .thread t0 (.load 2 8 false), sent := 0 }] }, { opcode := 0x81, tag := 5, src := 3, addr := 64, payLen := 4, payload := List.replicate 4 1 }, { tag := 5, opcode := 0x01, dst := 3, addr := 64, len := 8, use := .thread t0 (.load 2 8 false), sent := 0 }, by decide +kernel⟩,
  ⟨{ sI (wOf 9 8) with items.own := [{ tag := 5, opcode := 0x02, dst := 3, addr := 64, len := 8, use := .thread t0 (.store), sent := 0 }] }, { opcode := 0x82, tag := 5, src := 3 }, { tag := 5, opcode := 0x02, dst := 3, addr := 64, len := 8, use := .thread t0 (.store), sent := 0 }, t0, by decide +kernel, ⟨by decide +kernel, by decide +kernel, by decide +kernel, by decide +kernel, by decide +kernel, by decide +kernel, _, rfl, by decide +kernel⟩, by decide +kernel⟩,
  ⟨{ sI (wOf 9 8) with items.own := [{ tag := 5, opcode := 0x08, dst := 3, addr := 64, len := 8, use := .thread t0 (.atomic 2 false), sent := 0 }] }, { opcode := 0x88, tag := 5, src := 3 }, { tag := 5, opcode := 0x08, dst := 3, addr := 64, len := 8, use := .thread t0 (.atomic 2 false), sent := 0 }, t0, 2, false, by decide +kernel, ⟨by decide +kernel, by decide +kernel, by decide +kernel, by decide +kernel, by decide +kernel, by decide +kernel, _, rfl, by decide +kernel⟩, by decide +kernel⟩,
  ⟨{ sI (wOf 9 8) with items.own := [{ tag := 5, opcode := 0x10, dst := 3, addr := 64, len := 8, use := .thread t0 (.launch 2), sent := 0 }] }, { opcode := 0x90, tag := 5, src := 3 }, { tag := 5, opcode := 0x10, dst := 3, addr := 64, len := 8, use := .thread t0 (.launch 2), sent := 0 }, t0, 2, by decide +kernel, ⟨by decide +kernel, by decide +kernel, by decide +kernel, by decide +kernel, by decide +kernel, by decide +kernel, _, rfl, by decide +kernel⟩, by decide +kernel⟩,
  ⟨{ sI (wOf 9 8) with items.own := [{ tag := 5, opcode := 0x10, dst := 3, addr := 64, len := 8, use := .thread t0 (.launch 2), sent := 0 }] }, { opcode := 0x8F, tag := 5, src := 3, status := stTimeout }, { tag := 5, opcode := 0x10, dst := 3, addr := 64, len := 8, use := .thread t0 (.launch 2), sent := 0 }, t0, 2, by decide +kernel, by decide +kernel, ⟨by decide +kernel, by decide +kernel, by decide +kernel, by decide +kernel, by decide +kernel, by decide +kernel, _, rfl, by decide +kernel⟩, by decide +kernel⟩,
  ⟨{ (sI (wOf 9 8)) with items.own := [{ tag := 5, opcode := 0x02, dst := 3, addr := 64, len := 8, use := .thread t0 (.store), sent := 0 }] }, { opcode := 0x82, tag := 5, src := 3 }, { tag := 5, opcode := 0x02, dst := 3, addr := 64, len := 8, use := .thread t0 (.store), sent := 0 }, .wrAck ({ opcode := 0x82, tag := 5, src := 3 }), 0x82, stOk, [], by decide +kernel, .inl ⟨rfl, by decide +kernel⟩, by decide +kernel⟩,
  ⟨{ sI (wOf 9 8) with items.own := [{ tag := 5, opcode := 0x01, dst := 3, addr := 64, len := 8, use := .thread t0 (.load 2 8 false), sent := 0 }] }, { opcode := 0x81, tag := 5, src := 3, addr := 64, payLen := 8, payload := List.replicate 8 1 }, { tag := 5, opcode := 0x01, dst := 3, addr := 64, len := 8, use := .thread t0 (.load 2 8 false), sent := 0 }, by decide +kernel⟩,
  ⟨{ (sI (wOf 9 8)) with items.own := [{ tag := 5, opcode := 0x02, dst := 3, addr := 64, len := 8, use := .thread t0 (.store), sent := 0 }] }, { opcode := 0x82, tag := 5, src := 4 }, .wrAck ({ opcode := 0x82, tag := 5, src := 4 }), 0x82, .tail _ (.head _), by decide +kernel, some_all (by decide +kernel)⟩,
  ⟨State.reset, { opcode := 0x8F }, by decide +kernel⟩,
  ⟨{ opcode := 0x8F, itemLen := 0xFFFFFFFF }, by decide +kernel⟩,
  ⟨{}, .rdData {}, 0x81, .head _, by decide +kernel⟩,
  ⟨{ tag := 5, opcode := 0x02, dst := 3, addr := 64, len := 8, use := .thread t0 (.store), sent := 0 }, t0, .store,
      stTimeout, by decide +kernel, by decide +kernel, by intro r hr; cases hr⟩,
  ⟨{ tag := 5, opcode := 2, dst := 3, addr := 64, len := 8, use := .thread t0 .store, sent := 0, inp := 96 },
      { ecnEcho := true }, by decide +kernel⟩,
  ⟨{ ({ sI (wOf 9 8) with items.own := [{ tag := 5, opcode := 0x10, dst := 3, addr := 64, len := 8, use := .thread t0 (.launch 2), sent := 0 }] }) with tick.elapsed := 0x100000 }, { opcode := 0x90, tag := 5, src := 3 }, { tag := 5, opcode := 0x10, dst := 3, addr := 64, len := 8, use := .thread t0 (.launch 2), sent := 0 }, t0, 2, ⟨by decide +kernel, by decide +kernel, by decide +kernel, by decide +kernel, by decide +kernel, by decide +kernel, _, rfl, by decide +kernel⟩, by decide +kernel⟩,
  ⟨{ ({ (sI (wOf 9 8)) with items.own := [{ tag := 5, opcode := 0x02, dst := 3, addr := 64, len := 8, use := .thread t0 (.store), sent := 0 }] }) with tick.elapsed := BitVec.ofNat 48 (respTimeout State.reset) }, 5, { tag := 5, opcode := 0x02, dst := 3, addr := 64, len := 8, use := .thread t0 (.store), sent := 0 }, by decide +kernel⟩,
  ⟨State.reset, 0, some_all (by decide +kernel)⟩⟩

/-- Every clause of TelemetryAndRegisterWrites has a state and operands that meet its hypotheses. -/
theorem test_witness_telemetryAndRegisterWrites :
  (∃ (s : State) (d : DRef) (f : InFlight), Startable s d 0x80 f ∧ dTarget f.desc = 0xFFFF ∧ 0 < fld f.desc 272 8
      ∧ fld f.desc 272 8 ≤ 64 ∧ pagesAllowed s f (fld f.desc 256 12) (fld f.desc 272 8) = true)
  ∧ (∃ (s : State) (d : DRef) (f : InFlight), Startable s d 0x80 f ∧ dTarget f.desc = 0xFFFF ∧ 0 < fld f.desc 272 8
      ∧ fld f.desc 272 8 ≤ 64 ∧ pagesAllowed s f (fld f.desc 256 12) (fld f.desc 272 8) = false)
  ∧ (∃ (s : State) (d : DRef) (f : InFlight), Startable s d 0x80 f
      ∧ (dTarget f.desc ≠ 0xFFFF ∨ fld f.desc 272 8 = 0 ∨ 64 < fld f.desc 272 8))
  ∧ (∃ (s : State) (d : DRef) (f : InFlight) (c : Fin 4), Startable s d 0x81 f ∧ (dTarget f.desc).toNat = c.val
      ∧ (dumpLarder ((f.desc.extractLsb' 192 320 : BitVec 320)) = true → ringPriv s f.ref.sq = true)
      ∧ dumpOk ((f.desc.extractLsb' 192 320 : BitVec 320)) = true
      ∧ (∀ r ∈ dumpRanges ((f.desc.extractLsb' 192 320 : BitVec 320)), pagesAllowed s f r.1 r.2 = true))
  ∧ (∃ (s : State) (d : DRef) (f : InFlight), Startable s d 0x81 f
      ∧ dumpLarder ((f.desc.extractLsb' 192 320 : BitVec 320)) = true ∧ ringPriv s f.ref.sq = false)
  ∧ (∃ (s : State) (d : DRef) (f : InFlight), Startable s d 0x81 f
      ∧ (dumpLarder ((f.desc.extractLsb' 192 320 : BitVec 320)) = true → ringPriv s f.ref.sq = true)
      ∧ (4 ≤ (dTarget f.desc).toNat ∨ dumpOk ((f.desc.extractLsb' 192 320 : BitVec 320)) = false))
  ∧ (∃ (s : State) (d : DRef) (f : InFlight), Startable s d 0x81 f
      ∧ (dumpLarder ((f.desc.extractLsb' 192 320 : BitVec 320)) = true → ringPriv s f.ref.sq = true)
      ∧ (dTarget f.desc).toNat < 4 ∧ dumpOk ((f.desc.extractLsb' 192 320 : BitVec 320)) = true
      ∧ (∃ r ∈ dumpRanges ((f.desc.extractLsb' 192 320 : BitVec 320)), pagesAllowed s f r.1 r.2 = false))
  ∧ (∃ (s : State) (c : Fin 4) (b : BitVec 320) (k : BitVec 48), tblWf {} s.counts.dump = true
      ∧ (dumpOf s c).next = some (b, k) ∧ reached s k = true)
  ∧ (∃ (s : State) (l : Nat) (w : Word) (k : BitVec 48), tblWf {} s.counts.peep = true
      ∧ (tblGet {} s.counts.peep l).next = some (w, k) ∧ reached s k = true)
  ∧ (∃ (s : State) (d : DRef) (f : InFlight) (l : LinkId), Startable s d 0x82 f ∧ ringPriv s f.ref.sq = true
      ∧ (dTarget f.desc).toNat = l.val ∧ dGen f.desc = fnGen s (.port l) ∧ 64 ≤ fld f.desc 224 9 ∧ fld f.desc 224 9 ≤ 256
      ∧ fld f.desc 224 9 % 8 = 0)
  ∧ (∃ (s : State) (d : DRef) (f : InFlight) (l : LinkId), Startable s d 0x82 f ∧ (dTarget f.desc).toNat = l.val
      ∧ dGen f.desc ≠ fnGen s (.port l))
  ∧ (∃ (s : State) (d : DRef) (f : InFlight) (l : LinkId), Startable s d 0x82 f ∧ (dTarget f.desc).toNat = l.val
      ∧ dGen f.desc = fnGen s (.port l) ∧ ringPriv s f.ref.sq = false)
  ∧ (∃ (s : State) (d : DRef) (f : InFlight) (l : LinkId), Startable s d 0x82 f ∧ (dTarget f.desc).toNat = l.val
      ∧ dGen f.desc = fnGen s (.port l) ∧ ringPriv s f.ref.sq = true
      ∧ (fld f.desc 224 9 < 64 ∨ 256 < fld f.desc 224 9 ∨ fld f.desc 224 9 % 8 ≠ 0))
  ∧ (∃ (s : State) (d : DRef) (f : InFlight), Startable s d 0x82 f ∧ 96 ≤ (dTarget f.desc).toNat)
  ∧ (∃ (s : State) (d : DRef) (f : InFlight) (bs : List Byte), Startable s d 0x83 f ∧ ringPriv s f.ref.sq = true
      ∧ dTarget f.desc = 0xFFFF ∧ 0 < (dByte f.desc 40 4) ∧ (dByte f.desc 40 4) ≤ 16777216
      ∧ ((dWord f.desc 24).toNat) + (dByte f.desc 40 4) ≤ telemBytes
      ∧ placeRead (countPlace .internal false none (Place.larder [(telemBase s + ((dWord f.desc 24).toNat),
      (dByte f.desc 40 4))]) (started d s)) (Place.larder [(telemBase s + ((dWord f.desc 24).toNat),
      (dByte f.desc 40 4))]) (dByte f.desc 40 4) = some bs)
  ∧ (∃ (s : State) (d : DRef) (f : InFlight), Startable s d 0x83 f ∧ ringPriv s f.ref.sq = false)
  ∧ (∃ (s : State) (d : DRef) (f : InFlight), Startable s d 0x83 f ∧ ringPriv s f.ref.sq = true
      ∧ (dTarget f.desc ≠ 0xFFFF ∨ (dByte f.desc 40 4) = 0 ∨ 16777216 < (dByte f.desc 40 4) ∨ telemBytes < ((dWord f.desc 24).toNat) + (dByte f.desc 40 4)))
  ∧ (∃ (s : State) (c : Fin 4) (b : BitVec 320), (dumpOf s c).body = some b ∧ atStep 2 s = true ∧ dumpPeriod b ≠ 0
      ∧ (nowTick s).toNat % dumpPeriod b < tickSpan s ∧ (dumpOf s c).lastDue ≠ some s.tick.elapsed)
  ∧ (∃ (s : State) (c : Fin 4), ((dumpOf s c).body = none ∨ atStep 2 s = false ∨ (dumpOf s c).lastDue = some s.tick.elapsed))
  ∧ (∃ (s : State) (c : Fin 4) (b : BitVec 320), (dumpOf s c).body = some b ∧ (dumpOf s c).record ≠ []
      ∧ (dumpOf s c).record.length ≤ (dumpOf s c).written)
  ∧ (∃ (s : State) (c : Fin 4), ((dumpOf s c).body = none ∨ (dumpOf s c).record = [] ∨ (dumpOf s c).written < (dumpOf s c).record.length))
  ∧ (∃ (a : Word) (w : Bool), regRefused a w = true)
  ∧ (∃ (a : Nat), regFind a = none)
  ∧ (∃ (r : RegAt) (w : Nat) (off : Bool) (old : Word) (new : Word), (off = true ∨ (rwoChanged r.name w old new) = 0))
  ∧ (∃ (s : State) (a : Word) (w : Bool), regRefused a w = false ∧ s.regs.writes = [] ∧ s.regs.heldWrites = [])
  ∧ (∃ (s : State) (rs : List (BitVec 32 × Word)), s.regs.bundle = some rs ∧ s.tick.slot = 0)
  ∧ (∃ (s : State) (a : BitVec 32) (v : Word), s.regs.bundle = some [(a, v)] ∧ s.tick.slot = 0 ∧ s.regs.writes = []
      ∧ s.regs.heldWrites = [] ∧ s.regs.reads = [] ∧ regRefused (a.setWidth 64) true = true)
  ∧ (∃ (s : State), (s.regs.bundle = none ∨ s.tick.slot ≠ 0)) :=
  ⟨⟨inFlight (fl 0x80 0xFFFF (1 <<< 272)) (State.reset), d0, fl 0x80 0xFFFF (1 <<< 272),
      ⟨by decide +kernel, by decide +kernel, by decide +kernel⟩, by decide +kernel⟩,
  ⟨inFlight ({ fl 0x80 0xFFFF (0x400 <<< 256 + 1 <<< 272) with ref := ⟨1, 0⟩ }) State.reset, ⟨1, 0⟩,
      { fl 0x80 0xFFFF (0x400 <<< 256 + 1 <<< 272) with ref := ⟨1, 0⟩ },
      ⟨by decide +kernel, by decide +kernel, by decide +kernel⟩, by decide +kernel⟩,
  ⟨inFlight (fl 0x80) (State.reset), d0, fl 0x80, ⟨by decide +kernel, by decide +kernel, by decide +kernel⟩,
      by decide +kernel⟩,
  ⟨inFlight (fl 0x81 0 (16 <<< 256)) (State.reset), d0, fl 0x81 0 (16 <<< 256), 0,
      ⟨by decide +kernel, by decide +kernel, by decide +kernel⟩, by decide +kernel⟩,
  ⟨inFlight ({ (fl 0x81 0 (1 <<< 261)) with ref := ⟨1, 0⟩ }) State.reset, ⟨1, 0⟩,
      { (fl 0x81 0 (1 <<< 261)) with ref := ⟨1, 0⟩ }, ⟨by decide +kernel, by decide +kernel, by decide +kernel⟩,
      by decide +kernel⟩,
  ⟨inFlight (fl 0x81) (State.reset), d0, fl 0x81, ⟨by decide +kernel, by decide +kernel, by decide +kernel⟩,
      by decide +kernel⟩,
  ⟨inFlight ({ (fl 0x81 0 (16 <<< 256 + 0x400 <<< 320 + 1 <<< 332)) with ref := ⟨1, 0⟩ }) State.reset, ⟨1, 0⟩,
      { (fl 0x81 0 (16 <<< 256 + 0x400 <<< 320 + 1 <<< 332)) with ref := ⟨1, 0⟩ },
      ⟨by decide +kernel, by decide +kernel, by decide +kernel⟩, by decide +kernel⟩,
  ⟨setDump (0 : Fin 4) { next := some ((0 : BitVec 320), (0 : BitVec 48)) } (State.reset), 0, 0, 0, by decide +kernel⟩,
  ⟨{ State.reset with counts.peep := [(0, { next := some (0, 0) })] }, 0, 0, 0, by decide +kernel⟩,
  ⟨inFlight (fl 0x82 0 (64 <<< 224)) (State.reset), d0, fl 0x82 0 (64 <<< 224), 0,
      ⟨by decide +kernel, by decide +kernel, by decide +kernel⟩, by decide +kernel⟩,
  ⟨inFlight (fl 0x82 0 (1 <<< 16)) (State.reset), d0, fl 0x82 0 (1 <<< 16), 0,
      ⟨by decide +kernel, by decide +kernel, by decide +kernel⟩, by decide +kernel⟩,
  ⟨inFlight ({ fl 0x82 0 (0) with ref := ⟨1, 0⟩ }) State.reset, ⟨1, 0⟩, { fl 0x82 0 (0) with ref := ⟨1, 0⟩ }, 0,
      ⟨by decide +kernel, by decide +kernel, by decide +kernel⟩, by decide +kernel⟩,
  ⟨inFlight (fl 0x82) (State.reset), d0, fl 0x82, 0, ⟨by decide +kernel, by decide +kernel, by decide +kernel⟩,
      by decide +kernel⟩,
  ⟨inFlight (fl 0x82 96) (State.reset), d0, fl 0x82 96, ⟨by decide +kernel, by decide +kernel, by decide +kernel⟩,
      by decide +kernel⟩,
  ⟨inFlight (fl 0x83 0xFFFF (8 <<< 320)) (State.reset), d0, fl 0x83 0xFFFF (8 <<< 320), List.replicate 8 0,
      ⟨by decide +kernel, by decide +kernel, by decide +kernel⟩, by decide +kernel⟩,
  ⟨inFlight ({ fl 0x83 0 (0) with ref := ⟨1, 0⟩ }) State.reset, ⟨1, 0⟩, { fl 0x83 0 (0) with ref := ⟨1, 0⟩ },
      ⟨by decide +kernel, by decide +kernel, by decide +kernel⟩, by decide +kernel⟩,
  ⟨inFlight (fl 0x83) (State.reset), d0, fl 0x83, ⟨by decide +kernel, by decide +kernel, by decide +kernel⟩,
      by decide +kernel⟩,
  ⟨{ State.reset with counts.dump := [(0, { body := some (16 <<< 64 + 1 <<< 96) })] }, 0, (16 <<< 64 + 1 <<< 96),
      by decide +kernel⟩,
  ⟨State.reset, 0, by decide +kernel⟩,
  ⟨{ State.reset with counts.dump := [(0, { body := some (16 <<< 64 + 1 <<< 96), record := [1], written := 1 })] }, 0,
      (16 <<< 64 + 1 <<< 96), by decide +kernel⟩,
  ⟨State.reset, 0, by decide +kernel⟩,
  ⟨1, false, by decide +kernel⟩,
  ⟨0xFFFFFFFF, by decide +kernel⟩,
  ⟨⟨.portEdge, 0, 0, 0⟩, 0, true, 0, 0, by decide +kernel⟩,
  ⟨State.reset, 0, false, by decide +kernel⟩,
  ⟨{ (inFlight (fl 0x80 0xFFFF (1 <<< 272)) (State.reset)) with regs.bundle := some ([]), tick.slot := 0 }, [],
      by decide +kernel⟩,
  ⟨{ State.reset with regs.bundle := some [((1 : BitVec 32), (0 : Word))], tick.slot := 0, regs.writes := [], regs.heldWrites := [], regs.reads := [] }, 1, 0, by decide +kernel⟩,
  ⟨State.reset, by decide +kernel⟩⟩

/-- Every clause of StepRunsFrontCommand has a state and operands that meet its hypotheses. -/
theorem test_witness_stepRunsFrontCommand : ∃ (s : State), s.pending = [] :=
  ⟨State.reset, by decide +kernel⟩

/-- Every clause of MemoriesStayCanonical has a state and operands that meet its hypotheses. -/
theorem test_witness_memoriesStayCanonical : ∃ (s : State) (t : State), s.memWf = true ∧ step s = .next t :=
  ⟨State.reset, State.reset, by decide +kernel, rfl⟩

/-- Every clause of FusesOnlyGrow has a state and operands that meet its hypotheses. -/
theorem test_witness_fusesOnlyGrow :
  (∃ (s : State), s.strong.floor.toNat ≤ 64 ∧ s.strong.eraseFuse = true)
  ∧ (∃ (s : State), s.strong.floor.toNat ≤ 64 ∧ s.strong.eraseArmed = true) :=
  ⟨⟨{ State.reset with strong.eraseFuse := true }, by decide +kernel⟩,
  ⟨{ State.reset with strong.eraseArmed := true }, by decide +kernel⟩⟩

end Sys2Proof
end

section
/-!
PROOF. The tick's election, steps, holdover and TICK_IN (R24 to R29, R35, R40, R42, R47, R48, R719): each clause of
TickMastershipStepsAndPads as a lemma about its command.
-/
namespace Sys2Proof
namespace Machine

/-! ### What a change of mastership leaves alone -/

/-- Only the tick differs, and in it neither the count of ticks, nor the number's offset, nor the slot, nor what links heard. -/
def MastershipOnly (s t : State) : Prop :=
  t = { s with tick := t.tick } ∧ t.tick.elapsed = s.tick.elapsed ∧ t.tick.offset = s.tick.offset
    ∧ t.tick.slot = s.tick.slot ∧ t.tick.heard = s.tick.heard

theorem MastershipOnly.refl (s : State) : MastershipOnly s s := ⟨rfl, rfl, rfl, rfl, rfl⟩

theorem followMaster_mastership (m : Master) (l : LinkId) (h : Nat) (s : State) : MastershipOnly s (followMaster m l h s) :=
  ⟨rfl, rfl, rfl, rfl, rfl⟩

theorem becomeMaster_mastership (m : Master) (s : State) : MastershipOnly s (becomeMaster m s) := ⟨rfl, rfl, rfl, rfl, rfl⟩

theorem runFree_mastership (s : State) : MastershipOnly s (runFree s) := ⟨rfl, rfl, rfl, rfl, rfl⟩

theorem enterHoldover_mastership (s : State) : MastershipOnly s (enterHoldover s) := by
  unfold enterHoldover
  split
  · exact .refl s
  · exact ⟨rfl, rfl, rfl, rfl, rfl⟩

theorem follow_mastership (m : Master) (s : State) : MastershipOnly s (follow m s) := by
  unfold follow
  split
  · exact followMaster_mastership _ _ _ s
  · exact followMaster_mastership _ _ _ s
  · exact .refl s

/-- The election changes mastership alone. -/
theorem elect_mastership (s : State) : MastershipOnly s (elect s) := by
  unfold elect
  split
  · exact .refl s
  · split
    · split
      · exact follow_mastership _ s
      · split
        · exact .refl s
        · exact becomeMaster_mastership _ s
    · split
      · exact .refl s
      · exact becomeMaster_mastership _ s
    · exact follow_mastership _ s
    · exact runFree_mastership s

/-! ### What the election does -/

/-- Before its start-up wait is over the module does not elect (R719). -/
theorem elect_of_not_settled {s : State} (h : s.tick.settled = false) : elect s = s := by
  simp [elect, h]

/-- A master heard that ranks before the module itself is followed (R24). -/
theorem elect_follows_better {s : State} {b : Master} (hset : s.tick.settled = true) (hb : bestOther s = some b)
    (hme : ∀ me, selfCandidate s = some me → better b me = true) : elect s = follow b s := by
  cases hs : selfCandidate s with
  | none => simp [elect, hset, hb, hs]
  | some me => simp [elect, hset, hb, hs, hme me hs]

/-- Links that carry the master's markers come before any other (R38). -/
theorem follow_fresh {s : State} {b : Master} {l : LinkId} {h : Nat} (hf : freshFor s b = some (l, h)) :
    follow b s = followMaster b l h s := by
  simp [follow, hf]

theorem follow_upstream {s : State} {b : Master} {l : LinkId} {h : Nat} (hf : freshFor s b = none)
    (hu : upstreamFor s b = some (l, h)) : follow b s = followMaster b l h s := by
  simp [follow, hf, hu]

@[simp] theorem nowTick_becomeMaster (m : Master) (s : State) : nowTick (becomeMaster m s) = nowTick s := rfl

/-- A module that no master heard outranks takes mastership (R24). -/
theorem elect_becomes_master {s : State} {me : Master} (hset : s.tick.settled = true) (hme : selfCandidate s = some me)
    (hm : s.tick.isMaster = false) (hb : ∀ b, bestOther s = some b → better b me = false) :
    elect s = becomeMaster me s := by
  cases ho : bestOther s with
  | none => simp [elect, hset, hme, ho, hm]
  | some b => simp [elect, hset, hme, ho, hm, hb b ho]

theorem elect_runs_free {s : State} (hset : s.tick.settled = true) (hme : selfCandidate s = none)
    (hb : bestOther s = none) : elect s = runFree s := by
  simp [elect, hset, hme, hb]

/-- A module whose links have heard nothing has no candidate. -/
theorem candidates_of_heard_nil {s : State} (h : s.tick.heard = []) : candidates s = [] := by
  have hann : ∀ l, (heardOf s l).ann = none := fun l => by simp [heardOf, h]
  simp [candidates, hann]

/-- A module that has heard nothing and follows nobody knows of no other master. -/
theorem bestOther_of_heard_nil {s : State} (hh : s.tick.heard = []) (hm : s.tick.master = none) : bestOther s = none := by
  simp [bestOther, bestHeard, candidates_of_heard_nil hh, current, hm]

/-! ### The upstream link (R25) -/

/-- A candidate stands for a link whose tick_upstream_en is 1, at most 7 hops from its master (R26, R35). -/
theorem candidates_enabled {s : State} {c : LinkId × Master × Nat} (h : c ∈ candidates s) :
    upstreamEn s c.1 = true ∧ c.2.2 ≤ 7 := by
  obtain ⟨l, -, hl⟩ := List.mem_filterMap.mp h
  split at hl
  next a _ hen _ =>
    split at hl
    next hc =>
      simp only [Bool.and_eq_true, decide_eq_true_eq] at hc
      cases hl
      exact ⟨hen, hc.1.1⟩
    next => cases hl
  next => cases hl

/-- The candidates stand in the order of their links. -/
theorem candidates_sorted (s : State) : (candidates s).Pairwise (fun a b => a.1 < b.1) := by
  refine List.Pairwise.filterMap _ ?_ (List.pairwise_lt_finRange 96)
  intro l k hlk a ha b hb
  have key : ∀ {j : LinkId} {c}, (match upstreamEn s j, (heardOf s j).ann with
      | true, some (a, _) =>
        if a.hops.toNat + 1 ≤ 7 && a.masterPriority ≠ 0 && a.masterNode ≠ myNode s then
          some (j, (⟨a.masterNode, a.masterPriority⟩ : Master), a.hops.toNat + 1) else none
      | _, _ => none) = some c → c.1 = j := by
    intro j c h
    split at h
    · split at h
      · cases h; rfl
      · cases h
    · cases h
  rw [key ha, key hb]
  exact hlk

/-- The step of `nearest`: the first of the fewest hops stays. -/
def nearer (b : Option (LinkId × Nat)) (c : LinkId × Master × Nat) : Option (LinkId × Nat) :=
  match b with
  | none => some (c.1, c.2.2)
  | some x => if c.2.2 < x.2 then some (c.1, c.2.2) else some x

theorem nearest_eq (cs : List (LinkId × Master × Nat)) : nearest cs = cs.foldl nearer none := rfl

/-- Of a list in the order of its links, what the fold answers ranks, by hops and then by link, at or before what it began
with and every entry, and is one of them. -/
theorem foldl_nearer : ∀ (cs : List (LinkId × Master × Nat)) (x y : LinkId × Nat),
    cs.Pairwise (fun a b => a.1 < b.1) → (∀ c ∈ cs, x.1 < c.1) → cs.foldl nearer (some x) = some y →
    (y = x ∨ ∃ c ∈ cs, y = (c.1, c.2.2)) ∧ (y.2 < x.2 ∨ y = x)
      ∧ ∀ c ∈ cs, y.2 < c.2.2 ∨ (y.2 = c.2.2 ∧ y.1.val ≤ c.1.val)
  | [], x, y, _, _, h => by
    cases h
    simp
  | c :: t, x, y, hs, hx, h => by
    obtain ⟨hct, ht⟩ := List.pairwise_cons.mp hs
    have hxc : x.1 < c.1 := hx c List.mem_cons_self
    by_cases hlt : c.2.2 < x.2
    · have h' : t.foldl nearer (some (c.1, c.2.2)) = some y := by simpa [nearer, hlt] using h
      obtain ⟨hmem, hle, hall⟩ := foldl_nearer t _ y ht hct h'
      refine ⟨.inr ?_, ?_, ?_⟩
      · rcases hmem with rfl | ⟨d, hd, rfl⟩
        · exact ⟨c, List.mem_cons_self, rfl⟩
        · exact ⟨d, List.mem_cons_of_mem _ hd, rfl⟩
      · rcases hle with hle | rfl
        · exact .inl (hle.trans hlt)
        · exact .inl hlt
      · rintro d hd
        rcases List.mem_cons.mp hd with rfl | hd
        · rcases hle with hle | rfl
          · exact .inl hle
          · exact .inr ⟨rfl, le_refl _⟩
        · exact hall d hd
    · have h' : t.foldl nearer (some x) = some y := by simpa [nearer, hlt] using h
      obtain ⟨hmem, hle, hall⟩ := foldl_nearer t x y ht (fun d hd => hx d (List.mem_cons_of_mem _ hd)) h'
      refine ⟨hmem.imp_right (fun ⟨d, hd, e⟩ => ⟨d, List.mem_cons_of_mem _ hd, e⟩), hle, ?_⟩
      rintro d hd
      rcases List.mem_cons.mp hd with rfl | hd
      · rcases hle with hle | rfl
        · exact .inl (by omega)
        · have : y.1.val < d.1.val := hxc
          omega
      · exact hall d hd

/-- `nearest` answers an entry of a list in the order of its links, and none ranks before it by hops and then by link (R25). -/
theorem nearest_spec {cs : List (LinkId × Master × Nat)} {l : LinkId} {h : Nat}
    (hs : cs.Pairwise (fun a b => a.1 < b.1)) (hn : nearest cs = some (l, h)) :
    (∃ c ∈ cs, c.1 = l ∧ c.2.2 = h) ∧ ∀ c ∈ cs, h < c.2.2 ∨ (h = c.2.2 ∧ l.val ≤ c.1.val) := by
  rw [nearest_eq] at hn
  cases cs with
  | nil => cases hn
  | cons c t =>
    obtain ⟨hct, ht⟩ := List.pairwise_cons.mp hs
    obtain ⟨hmem, hle, hall⟩ := foldl_nearer t (c.1, c.2.2) (l, h) ht hct hn
    refine ⟨?_, ?_⟩
    · rcases hmem with e | ⟨d, hd, e⟩
      · cases e
        exact ⟨c, List.mem_cons_self, rfl, rfl⟩
      · cases e
        exact ⟨d, List.mem_cons_of_mem _ hd, rfl, rfl⟩
    · rintro d hd
      rcases List.mem_cons.mp hd with rfl | hd
      · rcases hle with hlt | e
        · exact .inl hlt
        · cases e
          exact .inr ⟨rfl, le_refl _⟩
      · exact hall d hd

/-- The link that R25 picks among those that carry the master's markers. -/
theorem freshFor_spec {s : State} {m : Master} {l : LinkId} {h : Nat} (hf : freshFor s m = some (l, h)) :
    carries s l = true ∧ upstreamEn s l = true ∧ h ≤ 7
      ∧ ∀ c ∈ candidates s, c.2.1 = m → carries s c.1 = true → h < c.2.2 ∨ (h = c.2.2 ∧ l.val ≤ c.1.val) := by
  obtain ⟨⟨c, hc, rfl, rfl⟩, hall⟩ := nearest_spec ((candidates_sorted s).filter _) hf
  obtain ⟨hmem, hp⟩ := List.mem_filter.mp hc
  simp only [Bool.and_eq_true, decide_eq_true_eq] at hp
  obtain ⟨hen, h7⟩ := candidates_enabled hmem
  exact ⟨hp.2, hen, h7, fun d hd hm hcar => hall d (List.mem_filter.mpr ⟨hd, by simp [hm, hcar]⟩)⟩

/-! ### ANNOUNCE_RECEIVE (R24, R26) -/

/-- The link has heard an announce in this tick. -/
def hearAnnounce (l : LinkId) (a : Announce) (s : State) : State :=
  setHeard l { heardOf s l with ann := some (a, s.tick.elapsed) } s

theorem announceReceive_disabled {s : State} {l : LinkId} (a : Announce) (h : upstreamEn s l = false) :
    NoEffect (.announceReceive l a) s := by
  change execAnnounceReceive l a s = .next s
  simp [execAnnounceReceive, h]

/-- An announce on an enabled link is kept, the module elects, and where it follows the announced master, that master was heard now. -/
theorem announceReceive_enabled {s : State} {l : LinkId} (a : Announce) (h : upstreamEn s l = true) :
    exec (.announceReceive l a) s = .next (
      if (elect (hearAnnounce l a s)).tick.master = some ⟨a.masterNode, a.masterPriority⟩ then
        { elect (hearAnnounce l a s) with tick.lastAnn := s.tick.elapsed } else elect (hearAnnounce l a s)) := by
  have hel : (elect (hearAnnounce l a s)).tick.elapsed = s.tick.elapsed := (elect_mastership _).2.1
  rw [← hel]
  change execAnnounceReceive l a s = _
  rw [execAnnounceReceive, if_neg (by simp [h])]
  rfl

/-- Before the first election an announce is kept, and one of the master is its sign of life (R28). -/
theorem announceReceive_unsettled {s : State} {l : LinkId} (a : Announce) (h : upstreamEn s l = true)
    (hs : s.tick.settled = false) :
    Completes (.announceReceive l a) s fun t =>
      t.tick.heard = (hearAnnounce l a s).tick.heard
      ∧ (s.tick.master = some ⟨a.masterNode, a.masterPriority⟩ → t.tick.lastAnn = s.tick.elapsed)
      ∧ t.tick.offset = s.tick.offset ∧ t.tick.elapsed = s.tick.elapsed ∧ t = { s with tick := t.tick } := by
  refine ⟨_, announceReceive_enabled a h, ?_⟩
  rw [elect_of_not_settled (show (hearAnnounce l a s).tick.settled = false from hs)]
  split
  · exact ⟨rfl, fun _ => rfl, rfl, rfl, rfl⟩
  next hne => exact ⟨rfl, fun he => absurd he hne, rfl, rfl, rfl⟩

/-! ### MASTER_ANNOUNCE_TIMEOUT (R28) -/

/-- What a link heard, without an announce of the node. -/
def forgetNode (n : BitVec 12) (h : Heard) : Heard :=
  if h.ann.any (fun x => x.1.masterNode = n) then { h with ann := none } else h

/-- The master is dropped with its announces, and the module runs free until it elects. -/
def dropMaster (m : Master) (s : State) : State :=
  runFree { s with tick.heard := tblMap {} (fun _ => forgetNode m.node) s.tick.heard, tick.lastAnn := s.tick.elapsed }

theorem forgetNode_eq (n : BitVec 12) (h : Heard) : (match h.ann with
    | some (a, _) => if a.masterNode = n then { h with ann := none } else h
    | none => h) = forgetNode n h := by
  unfold forgetNode
  cases ha : h.ann with
  | none => rfl
  | some x => simp

theorem ann_of_forgetNode {n : BitVec 12} {h : Heard} {a : Announce} {k : BitVec 48}
    (e : (forgetNode n h).ann = some (a, k)) : a.masterNode ≠ n := by
  unfold forgetNode at e
  split at e
  · cases e
  next hne =>
    intro hn
    simp [e, hn] at hne

/-- Every entry of a table changed by `f` is an entry of the table, changed. -/
theorem mem_tblMap {α : Type} [DecidableEq α] {d : α} {f : Nat → α → α} {e : Nat × α} :
    ∀ {t : Tbl α}, e ∈ tblMap d f t → ∃ v, (e.1, v) ∈ t ∧ e.2 = f e.1 v
  | (i, v) :: t, h => by
    unfold tblMap at h
    split at h
    · obtain ⟨w, hw, he⟩ := mem_tblMap h
      exact ⟨w, List.mem_cons_of_mem _ hw, he⟩
    · rcases List.mem_cons.mp h with rfl | h
      · exact ⟨v, List.mem_cons_self, rfl⟩
      · obtain ⟨w, hw, he⟩ := mem_tblMap h
        exact ⟨w, List.mem_cons_of_mem _ hw, he⟩

theorem masterAnnounceTimeout_due {s : State} {m : Master} (hm : s.tick.master = some m) (hi : s.tick.isMaster = false)
    (h : 256 ≤ ageOf s s.tick.lastAnn) : exec .masterAnnounceTimeout s = .next (elect (dropMaster m s)) := by
  change execMasterAnnounceTimeout s = _
  simp only [execMasterAnnounceTimeout, hm]
  rw [if_pos (by simp [hi, h])]
  exact congrArg (fun f => Host.Outcome.next (elect (runFree
    { s with tick.heard := tblMap {} f s.tick.heard, tick.lastAnn := s.tick.elapsed })))
    (funext fun _ => funext fun h => forgetNode_eq m.node h)

theorem masterAnnounceTimeout_not_due {s : State}
    (h : s.tick.master = none ∨ s.tick.isMaster = true ∨ ageOf s s.tick.lastAnn < 256) : NoEffect .masterAnnounceTimeout s := by
  change execMasterAnnounceTimeout s = .next s
  unfold execMasterAnnounceTimeout
  split
  next m hm =>
    have : ¬ (s.tick.isMaster = false ∧ 256 ≤ ageOf s s.tick.lastAnn) := by
      rcases h with h | h | h
      · simp [hm] at h
      · simp [h]
      · omega
    simp_all
  next => rfl

/-- A master dropped before the first election leaves no announce of its own. -/
theorem masterAnnounceTimeout_unsettled {s : State} {m : Master} (hm : s.tick.master = some m) (hi : s.tick.isMaster = false)
    (h : 256 ≤ ageOf s s.tick.lastAnn) (hs : s.tick.settled = false) :
    Completes .masterAnnounceTimeout s fun t =>
      t.tick.master = none ∧ t.tick.upstream = none
      ∧ (∀ (l : Nat) (h : Heard) (a : Announce) (k : BitVec 48), (l, h) ∈ t.tick.heard → h.ann = some (a, k) →
          a.masterNode ≠ m.node)
      ∧ t.tick.offset = s.tick.offset ∧ t.tick.elapsed = s.tick.elapsed ∧ t = { s with tick := t.tick } := by
  refine ⟨_, masterAnnounceTimeout_due hm hi h, ?_⟩
  rw [elect_of_not_settled (show (dropMaster m s).tick.settled = false from hs)]
  refine ⟨rfl, rfl, fun l h a k hl ha => ?_, rfl, rfl, rfl⟩
  obtain ⟨v, -, rfl⟩ := mem_tblMap hl
  exact ann_of_forgetNode ha

/-! ### STARTUP_MASTERSHIP (R719) -/

theorem startupMastership_due {s : State} {k : BitVec 48} (hk : s.attic.runAt = some k) (hs : s.tick.settled = false)
    (h : 256 ≤ ageOf s k) : exec .startupMastership s = .next (elect { s with tick.settled := true }) := by
  change execStartupMastership s = _
  simp [execStartupMastership, hk, hs, h]

/-- A module that has heard of no other master takes mastership at its first election, and keeps its tick number (R29). -/
theorem startupMastership_alone {s : State} {k : BitVec 48} (hk : s.attic.runAt = some k) (hs : s.tick.settled = false)
    (h : 256 ≤ ageOf s k) (hp : tickPriority s ≠ 0) (hh : s.tick.heard = []) (hi : s.tick.isMaster = false)
    (hm : s.tick.master = none) :
    Completes .startupMastership s fun t =>
      t.tick.settled = true ∧ t.tick.isMaster = true ∧ t.tick.master = some ⟨myNode s, tickPriority s⟩
      ∧ t.tick.locked = true ∧ t.tick.hops = 0 ∧ nowTick t = nowTick s ∧ t = { s with tick := t.tick } := by
  have hme : selfCandidate { s with tick.settled := true } = some ⟨myNode s, tickPriority s⟩ :=
    if_pos (show (true && decide (tickPriority s ≠ 0)) = true by simpa using hp)
  have ho : bestOther { s with tick.settled := true } = none := bestOther_of_heard_nil hh hm
  refine ⟨_, startupMastership_due hk hs h, ?_⟩
  rw [elect_becomes_master rfl hme hi (by simp [ho])]
  exact ⟨rfl, rfl, rfl, rfl, rfl, rfl, rfl⟩

/-! ### TICK_STEP (R42) -/

theorem stepExt_bounds (e : Int) :
    1 ≤ stepExt e ∧ stepExt e ≤ 1023 ∧ ((e / 16) % 1024 ≠ 0 → (stepExt e : Int) = (e / 16) % 1024) := by
  simp only [stepExt]
  split <;> omega

theorem tickStep_due {s : State} {l : LinkId} {a : Announce} {m : Marker} {k k' : BitVec 48} {rx : Nat}
    (hu : s.tick.upstream = some l) (ha : (heardOf s l).ann = some (a, k)) (hm : (heardOf s l).mark = some (m, rx, k'))
    (hl : s.tick.locked = false) (hi : s.tick.isMaster = false) (hs : s.tick.step = none) (he : s.tick.errOk = true)
    (h : 1024 < s.tick.error.natAbs ∨ markerTick a m + (s.tick.elapsed - k') ≠ nowTick s) :
    exec .tickStep s = .next { s with
      tick.step := some ⟨BitVec.ofNat 10 (stepExt s.tick.error),
        markerTick a m + (s.tick.elapsed - k') + (if s.tick.error < 0 then 2 else 1)⟩,
      tick.len := 1024 + stepExt s.tick.error } := by
  change execTickStep s = _
  simp only [execTickStep, hu, ha, hm]
  rw [if_pos (by simpa [hl, hi, hs, he] using h), apply_ite (markerTick a m + (s.tick.elapsed - k') + ·)]

theorem tickStep_not_due {s : State}
    (h : s.tick.upstream = none ∨ s.tick.locked = true ∨ s.tick.isMaster = true ∨ s.tick.step.isSome = true) :
    NoEffect .tickStep s := by
  change execTickStep s = .next s
  unfold execTickStep
  split
  next => rfl
  next l hu =>
    split
    next =>
      refine if_neg ?_
      rcases h with h | h | h | h
      · simp [hu] at h
      · simp [h]
      · simp [h]
      · simp [Option.isSome_iff_ne_none.mp h]
    next => rfl

/-! ### TICK_LOSS (R40) -/

/-- The node of the master followed last, 0 where there is none: the detail of event 0x18. -/
def lastMaster (s : State) : Nat := (s.tick.master.map (fun m => m.node.toNat)).getD 0

theorem tickLoss_due {s : State} (hh : s.tick.holdover = true) (hl : s.tick.lost = false)
    (h : 16384 ≤ ageOf s s.tick.holdSince) :
    exec .tickLoss s = .next (raiseEv 0x18 0 (lastMaster s) 0 (bumpModule 8 { s with
      tick.lost := true, tick.locked := false })) := by
  change execTickLoss s = _
  cases hm : s.tick.master <;> simp [execTickLoss, hh, hl, h, hm, lastMaster]

/-- The loss is told by event 0x18, which names the master, and nothing but the tick and what an event changes differs. -/
theorem tickLoss_event {s : State} (hh : s.tick.holdover = true) (hl : s.tick.lost = false)
    (h : 16384 ≤ ageOf s s.tick.holdSince) :
    Completes .tickLoss s fun t =>
      t.tick = { s.tick with lost := true, locked := false }
      ∧ (∃ e, t.counts.sideband = s.counts.sideband ++ [e] ∧ e.code = 0x18 ∧ e.tick = nowTick s ∧ e.unit = 0
        ∧ e.detail = BitVec.ofNat 128 (lastMaster s))
      ∧ HostOnly { s with tick := t.tick } t := by
  refine ⟨_, tickLoss_due hh hl h, ?_⟩
  have hb := bumpModule_host 8 { s with tick.lost := true, tick.locked := false }
  have hr := hb.trans (raiseEv_host 0x18 0 (lastMaster s) 0 _)
  have ht : (raiseEv 0x18 0 (lastMaster s) 0 (bumpModule 8 { s with tick.lost := true, tick.locked := false })).tick
      = { s.tick with lost := true, locked := false } := by rw [hr.eq]
  exact ⟨ht, ⟨_, raiseEv_sideband _ _ _ _ _, rfl, rfl, rfl, rfl⟩, by rw [ht]; exact hr⟩

theorem tickLoss_not_due {s : State}
    (h : s.tick.holdover = false ∨ s.tick.lost = true ∨ ageOf s s.tick.holdSince < 16384) : NoEffect .tickLoss s := by
  change execTickLoss s = .next s
  rcases h with h | h | h
  · simp [execTickLoss, h]
  · simp [execTickLoss, h]
  · simp [execTickLoss, Nat.not_le.mpr h]

/-! ### TICK_IN (R47, R48) -/

theorem edgeMove_bounds (e : Int) : edgeMove e ≤ 2 ∧ -2 ≤ edgeMove e ∧ (0 < e → 0 < edgeMove e) ∧ (e < 0 → edgeMove e < 0)
    ∧ (-2 ≤ e → e ≤ 2 → edgeMove e = e) := by
  unfold edgeMove
  omega

theorem tickInEdge_master {s : State} (early : Int) (hi : s.tick.isMaster = true) (hs : tickSource s = true) :
    exec (.tickInEdge early) s = .next { s with
      tick.edge := s.tick.edge + edgeMove early, tick.corr := edgeMove early, tick.error := early, tick.missed := 0,
      tick.holdover := false, tick.lost := false, tick.locked := true } := by
  change execTickInEdge early s = _
  simp [execTickInEdge, hi, hs]

theorem tickInEdge_other {s : State} (early : Int) (h : s.tick.isMaster = false ∨ tickSource s = false) :
    NoEffect (.tickInEdge early) s := by
  change execTickInEdge early s = .next s
  rcases h with h | h <;> simp [execTickInEdge, h]

theorem tickInMissed_master {s : State} (hi : s.tick.isMaster = true) (hs : tickSource s = true) :
    Completes .tickInMissed s fun t =>
      t.tick.missed = s.tick.missed + 1 ∧ (8 ≤ t.tick.missed → t.tick.holdover = true)
      ∧ (8 ≤ t.tick.missed → s.tick.holdover = false → t.tick.holdSince = s.tick.elapsed)
      ∧ (t.tick.missed < 8 → t.tick.holdover = s.tick.holdover)
      ∧ t = { s with tick := { s.tick with missed := t.tick.missed, holdover := t.tick.holdover, holdSince := t.tick.holdSince } } := by
  let u : State := { s with tick.missed := s.tick.missed + 1 }
  have hx : exec .tickInMissed s = .next (if 8 ≤ u.tick.missed then enterHoldover u else u) := by
    change execTickInMissed s = _
    rw [execTickInMissed, if_pos (by simp [hi, hs])]
  refine ⟨_, hx, ?_⟩
  by_cases h8 : 8 ≤ u.tick.missed
  · rw [if_pos h8]
    by_cases hh : s.tick.holdover = true
    · rw [show enterHoldover u = u from if_pos hh]
      exact ⟨rfl, fun _ => hh, fun _ hn => absurd hh (by simp [hn]), fun _ => rfl, rfl⟩
    · rw [show enterHoldover u = { u with tick.holdover := true, tick.holdSince := u.tick.elapsed } from if_neg hh]
      exact ⟨rfl, fun _ => rfl, fun _ _ => rfl, fun hlt => absurd h8 (Nat.not_le.mpr hlt), rfl⟩
  · rw [if_neg h8]
    exact ⟨rfl, fun h => absurd h h8, fun h => absurd h h8, fun _ => rfl, rfl⟩

theorem tickInMissed_other {s : State} (h : s.tick.isMaster = false ∨ tickSource s = false) : NoEffect .tickInMissed s := by
  change execTickInMissed s = .next s
  rcases h with h | h <;> simp [execTickInMissed, h]

/-! ### The statement -/

/-- Settles O2: each clause is the lemma of its command. -/
theorem tickMastershipStepsAndPads : Obligations.TickMastershipStepsAndPads := by
  unfold Obligations.TickMastershipStepsAndPads
  refine ⟨⟨fun s l a h => announceReceive_enabled a h, fun s l a h hs => announceReceive_unsettled a h hs,
    fun s l a h => announceReceive_disabled a h,
    fun s m hm hi h => ⟨dropMaster m s, rfl, rfl, masterAnnounceTimeout_due hm hi h⟩,
    fun s m hm hi h hs => masterAnnounceTimeout_unsettled hm hi h hs, fun s h => masterAnnounceTimeout_not_due h,
    fun s k hk hs h => startupMastership_due hk hs h,
    fun s k hk hs h hp hh hi hm => startupMastership_alone hk hs h hp hh hi hm, ?_, ?_, ?_, fun s hs hme hb => elect_runs_free hs hme hb,
    fun s m l h hf => freshFor_spec hf⟩,
    fun s l a m k k' rx hu ha hm hl hi hs he h => tickStep_due hu ha hm hl hi hs he h, stepExt_bounds,
    fun s h => tickStep_not_due h, fun s hh hl h => tickLoss_due hh hl h, fun s hh hl h => tickLoss_event hh hl h,
    fun s h => tickLoss_not_due h, fun s e hi hs => tickInEdge_master e hi hs, edgeMove_bounds,
    fun s e h => tickInEdge_other e h, fun s hi hs => tickInMissed_master hi hs, fun s h => tickInMissed_other h⟩
  · intro s b l h hs hb hme hf
    rw [elect_follows_better hs hb hme, follow_fresh hf]
  · intro s b l h hs hb hme hf hu
    rw [elect_follows_better hs hb hme, follow_upstream hf hu]
  · intro s me hs hme hi hb
    rw [elect_becomes_master hs hme hi hb]
    exact ⟨rfl, nowTick_becomeMaster me s⟩

end Machine
end Sys2Proof
end

section
/-!
PROOF. What a tick boundary's work leaves alone. The commands that a boundary runs reach into every part of the state; the tick,
the pulses of TICK_OUT, the tick of the snapshot and the register writes that wait change in the boundary's first steps alone.
Each function that the boundary calls has one lemma here, in the order of the model's files.
-/
namespace Sys2Proof
namespace Machine

/-- What the first steps of a boundary settle: the tick, TICK_OUT's pulses, the snapshot's tick and the register writes that wait. -/
def clockOf (s : State) : TickState × Nat × BitVec 48 × List RegWrite :=
  (s.tick, s.power.tickOut, s.counts.snapTick, s.regs.writes)

theorem clockOf_eq_iff {s t : State} : clockOf t = clockOf s ↔ t.tick = s.tick ∧ t.power.tickOut = s.power.tickOut
    ∧ t.counts.snapTick = s.counts.snapTick ∧ t.regs.writes = s.regs.writes := by
  simp [clockOf]

theorem clockOf_ite {c : Prop} [Decidable c] {s a b : State} (ha : clockOf a = clockOf s) (hb : clockOf b = clockOf s) :
    clockOf (if c then a else b) = clockOf s := by
  split
  · exact ha
  · exact hb

theorem clockOf_foldl {α : Type} {f : State → α → State} (h : ∀ s x, clockOf (f s x) = clockOf s) :
    ∀ (l : List α) (s : State), clockOf (l.foldl f s) = clockOf s
  | [], _ => rfl
  | x :: l, s => (clockOf_foldl h l (f s x)).trans (h s x)

/-! ### Units and frames to the host -/

theorem clockOf_setReg (s n u v w x) : clockOf (setReg s n u v w x) = clockOf s := rfl
theorem clockOf_regError (a w c s) : clockOf (regError a w c s) = clockOf s := rfl
theorem clockOf_bump (p w n s) : clockOf (bump p w n s) = clockOf s := rfl
theorem clockOf_bumpModule (w s) : clockOf (bumpModule w s) = clockOf s := rfl
theorem clockOf_bumpPort (p w s) : clockOf (bumpPort p w s) = clockOf s := rfl
theorem clockOf_modFlight (d g s) : clockOf (modFlight d g s) = clockOf s := rfl
theorem clockOf_addWaits (d n s) : clockOf (addWaits d n s) = clockOf s := rfl
theorem clockOf_setFn (s f v) : clockOf (setFn s f v) = clockOf s := rfl
theorem clockOf_setCq (s j r) : clockOf (setCq s j r) = clockOf s := rfl
theorem clockOf_setLane (s n v) : clockOf (setLane s n v) = clockOf s := rfl
theorem clockOf_modLane (n f s) : clockOf (modLane n f s) = clockOf s := rfl
theorem clockOf_modLink (l f s) : clockOf (modLink l f s) = clockOf s := rfl
theorem clockOf_modIn (i f s) : clockOf (modIn i f s) = clockOf s := rfl
theorem clockOf_setGroup (s g v) : clockOf (setGroup s g v) = clockOf s := rfl
theorem clockOf_modGroup (g f s) : clockOf (modGroup g f s) = clockOf s := rfl
theorem clockOf_modStream (k f s) : clockOf (modStream k f s) = clockOf s := rfl
theorem clockOf_setKernel (k v s) : clockOf (setKernel k v s) = clockOf s := rfl
theorem clockOf_modQp (q f s) : clockOf (modQp q f s) = clockOf s := rfl
theorem clockOf_modEth (l f s) : clockOf (modEth l f s) = clockOf s := rfl
theorem clockOf_modPart (l q f s) : clockOf (modPart l q f s) = clockOf s := rfl

/-! Whatever replaces one of these parts of the state. -/

theorem clockOf_setEnz (s : State) (x) : clockOf { s with enz := x } = clockOf s := rfl
theorem clockOf_setRoute (s : State) (x) : clockOf { s with route := x } = clockOf s := rfl
theorem clockOf_setTms (s : State) (x) : clockOf { s with tm := x } = clockOf s := rfl
theorem clockOf_setMeters (s : State) (x) : clockOf { s with meters := x } = clockOf s := rfl
theorem clockOf_setItems (s : State) (x) : clockOf { s with items := x } = clockOf s := rfl
theorem clockOf_setLarder (s : State) (x) : clockOf { s with larder := x } = clockOf s := rfl
theorem clockOf_setWork (s : State) (x) : clockOf { s with work := x } = clockOf s := rfl
theorem clockOf_setHawk (s : State) (x) : clockOf { s with hawk := x } = clockOf s := rfl
theorem clockOf_setStreams (s : State) (x) : clockOf { s with streams := x } = clockOf s := rfl
theorem clockOf_setGw (s : State) (x) : clockOf { s with gw := x } = clockOf s := rfl
theorem clockOf_setAttic (s : State) (x) : clockOf { s with attic := x } = clockOf s := rfl

theorem clockOf_modLanes (l f s) : clockOf (modLanes l f s) = clockOf s :=
  clockOf_foldl (fun s j => clockOf_modLane (laneId l j) (f j) s) _ s

/-- Whatever changes the Enzen link alone leaves the clock alone. -/
theorem EnzOnly.clockOf {s t : State} (h : EnzOnly s t) : Machine.clockOf t = Machine.clockOf s := by
  rw [h.eq]
  rfl

theorem clockOf_sendFrame (f s) : clockOf (sendFrame f s) = clockOf s := (sendFrame_enz f s).clockOf
theorem clockOf_sendMsg (v s) : clockOf (sendMsg v s) = clockOf s := (sendMsg_enz v s).clockOf
theorem clockOf_hostPut (a bs s) : clockOf (hostPut a bs s) = clockOf s := (hostPut_enz a bs s).clockOf
theorem clockOf_consumerPut (o v s) : clockOf (consumerPut o v s) = clockOf s := (consumerPut_enz o v s).clockOf
theorem clockOf_hostRead (u a n s) : clockOf (hostRead u a n s) = clockOf s := (hostRead_enz u a n s).clockOf

/-! ### Events -/

/-- A change of the Enzen link, the rings and the counts leaves the clock alone where the snapshot's tick stays. -/
theorem HostOnly.clockOf {s t : State} (h : HostOnly s t) (hc : t.counts.snapTick = s.counts.snapTick) :
    Machine.clockOf t = Machine.clockOf s := by
  rw [clockOf_eq_iff]
  refine ⟨?_, ?_, hc, ?_⟩ <;> rw [h.eq]

theorem clockOf_evWrite (e s) : clockOf (evWrite e s) = clockOf s :=
  (evWrite_host e s).1.clockOf (by rw [(evWrite_host e s).2])

theorem clockOf_evHold (e s) : clockOf (evHold e s) = clockOf s := by
  unfold evHold
  split
  · rfl
  · split
    · rfl
    · rfl
    · split <;> rfl

theorem clockOf_setLog (s : State) (log sideband : List Event) (n) :
    clockOf { s with counts.log := log, counts.logNext := n, counts.sideband := sideband } = clockOf s := rfl

theorem clockOf_raise (e s) : clockOf (raise e s) = clockOf s := by
  unfold raise
  exact clockOf_ite ((clockOf_setEnz ..).trans (clockOf_setLog s ..))
    (clockOf_ite ((clockOf_evWrite ..).trans (clockOf_setLog s ..)) ((clockOf_evHold ..).trans (clockOf_setLog s ..)))

theorem clockOf_raiseEv (c u n g s) : clockOf (raiseEv c u n g s) = clockOf s := clockOf_raise ..

theorem clockOf_auditMismatch (k u b d g s) : clockOf (auditMismatch k u b d g s) = clockOf s := clockOf_raiseEv ..

/-! ### Completions -/

theorem clockOf_leaveFlight (d s) : clockOf (leaveFlight d s) = clockOf s := rfl
theorem clockOf_countCompletion (j s) : clockOf (countCompletion j s) = clockOf s := rfl

theorem clockOf_cqInterrupt (j s) : clockOf (cqInterrupt j s) = clockOf s :=
  (clockOf_setCq ..).trans (clockOf_sendMsg ..)

theorem clockOf_cqModerate (j b s) : clockOf (cqModerate j b s) = clockOf s :=
  clockOf_ite rfl (clockOf_ite (clockOf_cqInterrupt j s) (clockOf_ite (clockOf_cqInterrupt j s) rfl))

theorem clockOf_putCompletion (j f st r s) : clockOf (putCompletion j f st r s) = clockOf s :=
  (clockOf_bumpModule ..).trans
    (toHost_enz _ (fun _ => (sendFrame_enz ..).trans (consumerPut_enz ..)) s).clockOf

/-- A completion leaves the clock alone. -/
theorem clockOf_complete (d st r s) : clockOf (complete d st r s) = clockOf s := by
  unfold complete
  split
  · rfl
  · exact clockOf_ite (clockOf_leaveFlight ..) ((clockOf_cqModerate ..).trans ((clockOf_countCompletion ..).trans
      ((clockOf_putCompletion ..).trans (clockOf_leaveFlight ..))))

theorem clockOf_completeGen (d st g s) : clockOf (completeGen d st g s) = clockOf s :=
  (clockOf_complete ..).trans (clockOf_modFlight ..)

theorem clockOf_completeAll (ds st g s) : clockOf (completeAll ds st g s) = clockOf s :=
  clockOf_foldl (fun s d => clockOf_completeGen d st g s) ds s

/-! ### Packets into the core -/

theorem clockOf_touchUnder (n s) : clockOf (touchUnder n s) = clockOf s := by
  unfold touchUnder
  split
  · exact clockOf_ite rfl rfl
  · rfl

theorem clockOf_enqueueNow (i k o u q bad h p s r) : clockOf (enqueueNow i k o u q bad h p s r) = clockOf s :=
  (clockOf_touchUnder ..).trans rfl

theorem clockOf_enqueue (i k o u q bad h p s r) : clockOf (enqueue i k o u q bad h p s r) = clockOf s :=
  clockOf_ite (clockOf_enqueueNow ..) (clockOf_ite (clockOf_enqueueNow ..) (clockOf_modIn ..))

theorem clockOf_setLfsr (i x s) : clockOf (setLfsr i x s) = clockOf s := rfl

theorem clockOf_hopIngress (i p s) : clockOf (hopIngress i p s).2 = clockOf s := by
  unfold hopIngress
  extract_lets _ _ t
  have ht : clockOf t = clockOf s := clockOf_ite rfl (clockOf_setLfsr ..)
  split
  · split
    · exact ht
    · exact ht
  · rfl

/-- The state after a hop is chosen. -/
theorem clockOf_of_hopIngress {i p s x t} (h : hopIngress i p s = (x, t)) : clockOf t = clockOf s := by
  rw [← clockOf_hopIngress i p s, h]

theorem clockOf_injectOwn (i p s) : clockOf (injectOwn i p s) = clockOf s := by
  unfold injectOwn
  extract_lets
  split
  next h => exact (clockOf_enqueue ..).trans (clockOf_of_hopIngress h)
  next h => exact (clockOf_of_hopIngress h :)

theorem clockOf_inject (i p s) : clockOf (inject i p s) = clockOf s := by
  unfold inject
  extract_lets
  split
  · exact clockOf_ite (clockOf_enqueue ..) rfl
  · split
    next h => exact (clockOf_enqueue ..).trans (clockOf_of_hopIngress h)
    next h => exact clockOf_of_hopIngress h

/-- An item that is sent leaves the clock alone. -/
theorem clockOf_of_sendItem {i tags base n bs u s t} (h : sendItem i tags base n bs u s = some t) : clockOf t = clockOf s := by
  unfold sendItem at h
  split at h
  · cases h
  · cases h
    exact (clockOf_foldl (fun s p => clockOf_injectOwn i p s) ..).trans rfl

theorem clockOf_countFail (i s) : clockOf (countFail i s) = clockOf s := rfl

theorem clockOf_sendFail (i st p s) : clockOf (sendFail i st p s) = clockOf s :=
  clockOf_ite ((clockOf_inject ..).trans (clockOf_countFail ..)) rfl

theorem clockOf_sendTo (i o p s) : clockOf (sendTo i o p s) = clockOf s := clockOf_enqueue ..

/-! ### Lanes and links -/

theorem clockOf_relight (l s) : clockOf (relight l s) = clockOf s := clockOf_modLanes ..

theorem clockOf_lanesToDetect (l s) : clockOf (lanesToDetect l s) = clockOf s :=
  (clockOf_modLink ..).trans (clockOf_modLanes ..)

theorem clockOf_failNow (l c s) : clockOf (failNow l c s) = clockOf s := clockOf_modLink ..

theorem clockOf_findFailure (l c s) : clockOf (findFailure l c s) = clockOf s := clockOf_ite rfl rfl

theorem clockOf_bringFail (l c s) : clockOf (bringFail l c s) = clockOf s :=
  (clockOf_lanesToDetect ..).trans ((clockOf_raiseEv ..).trans (clockOf_modLink ..))

theorem clockOf_setFallback (l b s) : clockOf (setFallback l b s) = clockOf s := clockOf_setReg ..

theorem clockOf_clearFailed (n s) : clockOf (clearFailed n s) = clockOf s := clockOf_ite rfl (clockOf_setLane ..)

/-! ### The gateway's ports and queue pairs going down -/

theorem clockOf_qpCancel (q st s) : clockOf (qpCancel q st s) = clockOf s :=
  (clockOf_foldl (fun s (o : GwOut) => clockOf_complete o.d st 0 s) ..).trans (clockOf_modQp ..)

theorem clockOf_qpToStopping (q s) : clockOf (qpToStopping q s) = clockOf s :=
  clockOf_ite ((clockOf_qpCancel ..).trans (clockOf_setFn ..)) (clockOf_ite (clockOf_setFn ..) rfl)

theorem clockOf_gwEnd (q d st s) : clockOf (gwEnd q d st s) = clockOf s :=
  (clockOf_complete ..).trans (clockOf_modQp ..)

theorem clockOf_ethPortDown (l s) : clockOf (ethPortDown l s) = clockOf s := by
  refine (clockOf_foldl (fun s n => ?_) ..).trans (clockOf_modEth ..)
  exact (clockOf_foldl (fun s (o : GwOut) => clockOf_gwEnd _ o.d stLinkLost s) ..).trans
    ((clockOf_modQp ..).trans (clockOf_qpToStopping ..))

theorem clockOf_ethLanesDown (l s) : clockOf (ethLanesDown l s) = clockOf s := by
  unfold ethLanesDown
  extract_lets t
  have ht : clockOf t = clockOf s := clockOf_modLanes ..
  split
  · exact (clockOf_ethPortDown ..).trans ht
  · exact ht

/-! ### Lasers -/

theorem clockOf_afterHold (l c s) : clockOf (afterHold l c s) = clockOf s :=
  clockOf_ite (clockOf_ethLanesDown ..) (clockOf_ite rfl (clockOf_ite (clockOf_findFailure ..) (clockOf_bringFail ..)))

theorem clockOf_darkenLane (n s) : clockOf (darkenLane n s) = clockOf s := by
  unfold darkenLane
  extract_lets _ _ t u
  have hu : clockOf u = clockOf s := (clockOf_modLane ..).trans (clockOf_ite rfl (clockOf_modLane ..))
  exact clockOf_ite rfl (clockOf_ite ((clockOf_afterHold ..).trans ((clockOf_raiseEv ..).trans hu))
    (clockOf_ite ((clockOf_afterHold ..).trans hu) hu))

theorem clockOf_lightLane (n s) : clockOf (lightLane n s) = clockOf s :=
  clockOf_ite rfl (clockOf_ite (clockOf_modLane ..) (clockOf_ite rfl rfl))

theorem clockOf_laserCheck (e b s) : clockOf (laserCheck e b s) = clockOf s :=
  clockOf_ite (clockOf_foldl (fun s n => clockOf_darkenLane n s) ..)
    (clockOf_ite (clockOf_foldl (fun s n => clockOf_lightLane n s) ..) rfl)

theorem clockOf_laserEnable (e a b s) : clockOf (laserEnable e a b s) = clockOf s :=
  (clockOf_laserCheck ..).trans ((clockOf_laserCheck ..).trans (clockOf_setReg ..))

/-! ### Enabling a function -/

theorem clockOf_putSqCons (i s) : clockOf (putSqCons i s) = clockOf s :=
  clockOf_ite rfl ((clockOf_consumerPut ..).trans rfl)

theorem clockOf_zeroPut (o v s) : clockOf (zeroPut o v s) = clockOf s := clockOf_ite rfl (clockOf_consumerPut ..)

theorem clockOf_setOwner (s : State) (owner) (now : Tbl Word) :
    clockOf { s with counts.owner := owner, counts.now := now } = clockOf s := rfl

theorem clockOf_bindPage (k t s) : clockOf (bindPage k t s) = clockOf s := clockOf_ite rfl (clockOf_setOwner ..)

theorem clockOf_groupReserve (g s) : clockOf (groupReserve g s) = clockOf s := clockOf_ite rfl rfl

theorem clockOf_kernelStarting (k s) : clockOf (kernelStarting k s) = clockOf s :=
  clockOf_ite ((clockOf_hostRead ..).trans (clockOf_setKernel ..)) (clockOf_setKernel ..)

theorem clockOf_qpStarting (q s) : clockOf (qpStarting q s) = clockOf s := by
  unfold qpStarting
  extract_lets
  split
  · rfl
  · exact clockOf_modQp ..

theorem clockOf_startHook (f n s) : clockOf (startHook f n s) = clockOf s := by
  cases f with
  | port l => exact clockOf_relight ..
  | sq i => exact (clockOf_putSqCons ..).trans rfl
  | cq i => exact (clockOf_zeroPut ..).trans rfl
  | ev => exact (clockOf_zeroPut ..).trans rfl
  | group g => exact (clockOf_groupReserve ..).trans ((clockOf_setGroup ..).trans (clockOf_bindPage ..))
  | stream k => exact clockOf_modStream ..
  | kernel k => exact clockOf_kernelStarting ..
  | qp q => exact clockOf_qpStarting ..

theorem clockOf_fnStart (f n ds s) : clockOf (fnStart f n ds s) = clockOf s :=
  (clockOf_startHook ..).trans (clockOf_setFn ..)

/-- Descriptors that wait for one more end. -/
theorem clockOf_foldl_addWaits (ds : List DRef) (s) : clockOf (ds.foldl (fun s d => addWaits d 1 s) s) = clockOf s :=
  clockOf_foldl (fun s d => clockOf_addWaits d 1 s) ds s

theorem clockOf_fnEnable (f d n s) : clockOf (fnEnable f d n s) = clockOf s := by
  unfold fnEnable
  extract_lets
  split
  · split
    · exact (clockOf_foldl_addWaits ..).trans (clockOf_setFn ..)
    · split
      · exact clockOf_completeAll ..
      · exact (clockOf_foldl_addWaits ..).trans (clockOf_fnStart ..)
  · exact clockOf_completeAll ..
  · exact clockOf_completeAll ..
  · exact (clockOf_foldl_addWaits ..).trans (clockOf_setFn ..)

/-! ### Disabling a function -/

theorem clockOf_portStopping (l s) : clockOf (portStopping l s) = clockOf s :=
  clockOf_ite (clockOf_failNow ..) ((clockOf_relight ..).trans rfl)

theorem clockOf_cancelFetched (i st s) : clockOf (cancelFetched i st s) = clockOf s :=
  clockOf_foldl (fun s d => clockOf_complete d st 0 s) ..

theorem clockOf_recordSeg (k p g st s) : clockOf (recordSeg k p g st s) = clockOf s := by
  unfold recordSeg
  extract_lets t
  split
  · exact clockOf_modStream ..
  · split
    · exact clockOf_modStream ..
    · split
      · exact (clockOf_complete ..).trans rfl
      · rfl

theorem clockOf_skipSeg (k p g st s) : clockOf (skipSeg k p g st s) = clockOf s :=
  (clockOf_recordSeg ..).trans ((clockOf_hostPut ..).trans (clockOf_modStream ..))

theorem clockOf_streamStop (st k s) : clockOf (streamStop st k s) = clockOf s :=
  (clockOf_foldl (fun s _ => clockOf_foldl (fun s _ => clockOf_skipSeg _ _ _ _ s) _ s) ..).trans
    ((clockOf_foldl (fun s _ => clockOf_complete _ _ _ s) ..).trans (clockOf_modStream ..))

theorem clockOf_doneFailed (k n g st s) : clockOf (doneFailed k n g st s) = clockOf s :=
  (clockOf_raiseEv ..).trans (clockOf_setWork ..)

theorem clockOf_reportRun (k v r bs s) : clockOf (reportRun k v r bs s) = clockOf s := by
  unfold reportRun
  extract_lets t
  have ht : clockOf t = clockOf s := clockOf_bump ..
  split
  · exact (clockOf_complete ..).trans ((clockOf_modFlight ..).trans ht)
  · split
    · exact ht
    · extract_lets
      split
      next h => exact (clockOf_of_sendItem h).trans ht
      · exact (clockOf_doneFailed ..).trans ht
  · exact clockOf_ite ((clockOf_inject ..).trans ht) ((clockOf_sendFail ..).trans ht)

theorem clockOf_endRun (k r bs s) : clockOf (endRun k r bs s) = clockOf s :=
  (clockOf_reportRun ..).trans rfl

theorem clockOf_kernelStopping (k st s) : clockOf (kernelStopping k st s) = clockOf s :=
  clockOf_foldl (fun s _ => clockOf_endRun _ _ _ s) ..

theorem clockOf_stopHook (f st s) : clockOf (stopHook f st s) = clockOf s := by
  unfold stopHook
  split
  · split
    · exact (clockOf_relight ..).trans (clockOf_ethPortDown ..)
    · exact clockOf_portStopping ..
  · exact clockOf_cancelFetched ..
  · exact clockOf_streamStop ..
  · exact clockOf_kernelStopping ..
  · exact clockOf_qpCancel ..
  · rfl

theorem clockOf_fnStop (f st s) : clockOf (fnStop f st s) = clockOf s :=
  (clockOf_stopHook ..).trans (clockOf_setFn ..)

theorem clockOf_fnDisable (f d s) : clockOf (fnDisable f d s) = clockOf s := by
  unfold fnDisable
  extract_lets
  split
  · exact clockOf_completeAll ..
  · exact (clockOf_foldl_addWaits ..).trans (clockOf_setFn ..)
  · exact (clockOf_fnStop ..).trans ((clockOf_foldl_addWaits ..).trans (clockOf_setFn ..))
  · exact (clockOf_completeAll ..).trans ((clockOf_foldl_addWaits ..).trans (clockOf_setFn ..))

/-! ### Register writes and reads -/

theorem clockOf_ctrlWrite (f a c w s) : clockOf (ctrlWrite f a c w s) = clockOf s :=
  clockOf_ite (clockOf_regError ..) (clockOf_ite (clockOf_fnEnable ..) (clockOf_ite (clockOf_fnDisable ..) rfl))

theorem clockOf_retireFrame (f st s) : clockOf (retireFrame f st s) = clockOf s := by
  have ht : ∀ n, clockOf (bump (stackPage st) 13 1 (raiseEv 0x17 st n 0 s)) = clockOf s :=
    fun n => (clockOf_bump ..).trans (clockOf_raiseEv ..)
  have hset : ∀ (t : State) x y, clockOf { t with larder := x, attic := y } = clockOf t := fun _ _ _ => rfl
  exact clockOf_ite rfl (clockOf_ite ((hset ..).trans (ht _)) ((clockOf_setLarder ..).trans (ht _)))

theorem clockOf_goRetire (f s) : clockOf (goRetire f s) = clockOf s := clockOf_ite rfl ((clockOf_retireFrame ..).trans rfl)

theorem clockOf_swapRequest (l s) : clockOf (swapRequest l s) = clockOf s := clockOf_ite rfl rfl

theorem clockOf_seedAll (n s) : clockOf (seedAll n s) = clockOf s := clockOf_foldl (fun s i => clockOf_setLfsr i _ s) ..

theorem clockOf_regAction (r a c w w0 b s) : clockOf (regAction r a c w w0 b s) = clockOf s := by
  unfold regAction
  split
  · exact clockOf_ite rfl rfl
  · exact clockOf_ctrlWrite ..
  · exact clockOf_ctrlWrite ..
  · exact clockOf_ite (clockOf_setFallback ..) rfl
  · exact clockOf_ite ((clockOf_goRetire ..).trans (clockOf_ite rfl rfl)) (clockOf_ite rfl rfl)
  · exact clockOf_ite (clockOf_clearFailed ..) rfl
  · exact clockOf_laserEnable ..
  · exact clockOf_relight ..
  · exact clockOf_ite ((clockOf_swapRequest ..).trans (clockOf_ite rfl rfl)) (clockOf_ite rfl rfl)
  · exact clockOf_ite (clockOf_seedAll ..) rfl
  · rfl

theorem clockOf_storeWord (r w off o n s) : clockOf (storeWord r w off o n s) = clockOf s := clockOf_ite rfl rfl

theorem clockOf_storeWords (r off) : ∀ (w os ns s), clockOf (storeWords r off w os ns s) = clockOf s
  | w, _ :: os, _ :: ns, _ => (clockOf_storeWords r off (w + 1) os ns _).trans (clockOf_storeWord ..)
  | _, [], _, _ => rfl
  | _, _ :: _, [], _ => rfl

theorem clockOf_setStaged (s : State) (st) : clockOf { s with regs.staged := st } = clockOf s := rfl

theorem clockOf_commitWrite (b r a v m s) : clockOf (commitWrite b r a v m s) = clockOf s := by
  have hst : ∀ st, clockOf { s with regs.staged := st } = clockOf s := clockOf_setStaged s
  have hw : ∀ st off os ns c w w0 d,
      clockOf (regAction r a c w w0 d (storeWords r off 0 os ns { s with regs.staged := st })) = clockOf s :=
    fun st _ _ _ _ _ _ _ => (clockOf_regAction ..).trans ((clockOf_storeWords ..).trans (hst st))
  exact clockOf_ite ((clockOf_regError ..).trans (hst _)) (clockOf_ite ((clockOf_regError ..).trans (hw ..)) (hw ..))

theorem clockOf_applyWrite (b a w v s) : clockOf (applyWrite b a w v s) = clockOf s := by
  unfold applyWrite
  split
  · exact clockOf_regError ..
  · split
    split
    · rfl
    · exact clockOf_ite rfl (clockOf_ite (clockOf_setStaged ..) (clockOf_commitWrite ..))

theorem clockOf_regServe (s r) : clockOf (regServe s r) = clockOf s := by
  unfold regServe
  split
  · exact clockOf_sendFrame ..
  · exact clockOf_sendFrame ..

/-! ### The age limit, the snapshot's checks and telemetry -/

theorem clockOf_ageStep (s) : clockOf (ageStep s) = clockOf s := clockOf_ite rfl (clockOf_ite rfl rfl)

theorem clockOf_setPairs (s : State) (p) : clockOf { s with counts.pairs := p } = clockOf s := rfl

theorem clockOf_checkPair (k n s) : clockOf (checkPair k n s) = clockOf s :=
  clockOf_ite rfl ((clockOf_auditMismatch ..).trans (clockOf_setPairs ..))

theorem clockOf_checkPairs (s) : clockOf (checkPairs s) = clockOf s :=
  clockOf_foldl (fun _ _ => (clockOf_checkPair ..).trans (clockOf_checkPair ..)) ..

theorem clockOf_setLatched (s : State) (c h) : clockOf { s with core.latched := c, hawk.latched := h } = clockOf s := rfl

theorem clockOf_latchAudits (s) : clockOf (latchAudits s) = clockOf s := clockOf_setLatched ..

theorem clockOf_writeRuns : ∀ (rs bs s ok), clockOf (writeRuns rs bs s ok).1 = clockOf s
  | [], _, _, _ => rfl
  | (_, _) :: rs, _, _, _ => (clockOf_writeRuns rs _ _ _).trans
      (clockOf_ite (clockOf_setLarder ..) ((clockOf_bump ..).trans (clockOf_setLarder ..)))

theorem clockOf_placeWrite (p bs s) : clockOf (placeWrite p bs s).1 = clockOf s := by
  cases p with
  | larder runs => exact clockOf_writeRuns ..
  | array b => exact clockOf_setWork ..
  | counter b => rfl

theorem clockOf_countLine (c w n s x) : clockOf (countLine c w n s x) = clockOf s := by
  unfold countLine
  split
  · rfl
  · rfl

theorem clockOf_countPlace (c w n p s) : clockOf (countPlace c w n p s) = clockOf s :=
  clockOf_foldl (fun s x => clockOf_countLine c w n s x) ..

theorem clockOf_dumpPut (c b a bs s) : clockOf (dumpPut c b a bs s) = clockOf s :=
  clockOf_ite rfl (clockOf_ite ((clockOf_placeWrite ..).trans (clockOf_countPlace ..)) (clockOf_hostPut ..))

theorem clockOf_setDump (c v s) : clockOf (setDump c v s) = clockOf s := rfl

theorem clockOf_dumpTick (s) : clockOf (dumpTick s) = clockOf s := by
  refine clockOf_foldl (fun s c => ?_) ..
  extract_lets
  split
  · rfl
  · exact clockOf_ite rfl ((clockOf_dumpPut ..).trans (clockOf_setDump ..))

theorem clockOf_setTelemetry (s : State) (d p n) :
    clockOf { s with counts.dump := d, counts.peep := p, counts.sampled := n } = clockOf s := rfl

theorem clockOf_telemBoundary (s) : clockOf (telemBoundary s) = clockOf s :=
  (clockOf_dumpTick ..).trans ((clockOf_foldl (fun s d => clockOf_complete d stOk 0 s) ..).trans (clockOf_setTelemetry ..))

/-! ### The gateway's queue pairs (step 7) -/

theorem clockOf_bumpEth (l w n s) : clockOf (bumpEth l w n s) = clockOf s := rfl

theorem clockOf_pfcSend (l c n s) : clockOf (pfcSend l c n s) = clockOf s := rfl

theorem clockOf_pfcCheck (l c s) : clockOf (pfcCheck l c s) = clockOf s :=
  clockOf_ite ((clockOf_pfcSend ..).trans (clockOf_modEth ..)) (clockOf_ite ((clockOf_pfcSend ..).trans (clockOf_modEth ..)) rfl)

theorem clockOf_ethSend (l v f s) : clockOf (ethSend l v f s) = clockOf s := by
  unfold ethSend
  extract_lets
  split
  · exact clockOf_modEth ..
  · split
    · exact (clockOf_modEth ..).trans (clockOf_bump ..)
    · exact (clockOf_modEth ..).trans (clockOf_bumpEth ..)

theorem clockOf_pumpOut (q) : ∀ (n s), clockOf (pumpOut q n s) = clockOf s
  | 0, _ => rfl
  | n + 1, s => by
    unfold pumpOut
    extract_lets
    split
    · exact clockOf_ite ((clockOf_pumpOut q n _).trans ((clockOf_ethSend ..).trans (clockOf_modQp ..))) rfl
    · rfl

theorem clockOf_qpSend (q p s) : clockOf (qpSend q p s) = clockOf s :=
  (clockOf_pumpOut ..).trans (clockOf_modQp ..)

theorem clockOf_qpStop (q n st s) : clockOf (qpStop q n st s) = clockOf s :=
  (clockOf_qpToStopping ..).trans (clockOf_raiseEv ..)

theorem clockOf_gwNak (q l n st p s) : clockOf (gwNak q l n st p s) = clockOf s := by
  unfold gwNak
  extract_lets _ t u
  have hu : clockOf u = clockOf s := (clockOf_bumpEth ..).trans (clockOf_ite rfl (clockOf_qpSend ..))
  exact clockOf_ite hu ((clockOf_qpStop ..).trans hu)

theorem clockOf_of_gwReadReq {q c b m s t} (h : gwReadReq q c b m s = some t) : clockOf t = clockOf s := by
  unfold gwReadReq at h
  extract_lets at h
  split at h
  · cases h
    exact clockOf_gwNak ..
  · split at h
    · cases h
    · cases h
      exact clockOf_modQp ..

theorem clockOf_of_gwWr {q c p a bs s t} (h : gwWr q c p a bs s = some t) : clockOf t = clockOf s := by
  unfold gwWr at h
  split at h
  · cases h
    rfl
  · exact clockOf_of_sendItem h

theorem clockOf_of_gwData {q c op m cur s t} (h : gwData q c op m cur s = some t) : clockOf t = clockOf s := by
  unfold gwData at h
  split at h
  extract_lets at h
  split at h
  · cases h
    exact clockOf_gwNak ..
  · split at h
    · cases h
    next hw =>
      cases h
      exact (clockOf_modQp ..).trans (clockOf_of_gwWr hw)

/-- A message of a refused kind is answered by a NAK. -/
theorem clockOf_of_some_gwNak {q l n st p s t} (h : some (gwNak q l n st p s) = some t) : clockOf t = clockOf s := by
  cases h
  exact clockOf_gwNak ..

/-- A WRITE that begins here, after the check of its region. -/
theorem clockOf_of_gwTake_write {b : Bool} {q c op m cur l n st p s t}
    (h : (if b then some (gwNak q l n st p s) else gwData q c op m cur s) = some t) : clockOf t = clockOf s := by
  split at h
  · exact clockOf_of_some_gwNak h
  · exact clockOf_of_gwData h

/-- A SEND that begins here takes a receive slot. -/
theorem clockOf_of_gwTake_send {q c op m cur f s t}
    (h : (match gwData q c op m cur s with
      | some s => some (modQp q f s)
      | none => none) = some t) : clockOf t = clockOf s := by
  split at h
  next hd =>
    cases h
    exact (clockOf_modQp ..).trans (clockOf_of_gwData hd)
  · cases h

theorem clockOf_of_gwTake {q c op m s t} (h : gwTake q c op m s = some t) : clockOf t = clockOf s := by
  unfold gwTake at h
  extract_lets at h
  split at h
  · exact clockOf_of_some_gwNak h
  · split at h
    · split at h
      · exact clockOf_of_gwReadReq h
      · split at h
        cases h
        exact clockOf_qpSend ..
    · split at h
      · exact clockOf_of_some_gwNak h
      · split at h
        · exact clockOf_of_some_gwNak h
        · split at h
          case h_1 => exact clockOf_of_gwReadReq h
          case h_2 | h_3 => exact clockOf_of_gwTake_write h
          case h_4 | h_5 =>
            split at h
            · exact clockOf_of_some_gwNak h
            · split at h
              · exact clockOf_of_some_gwNak h
              · split at h
                · exact clockOf_of_some_gwNak h
                · exact clockOf_of_gwTake_send h
          case h_6 =>
            split at h
            · split at h
              · exact clockOf_of_gwData h
              · exact clockOf_of_some_gwNak h
            · exact clockOf_of_some_gwNak h

theorem clockOf_of_readItems {q c n p} : ∀ {k a m s t}, readItems q c n p k a m s = some t → clockOf t = clockOf s
  | 0, _, _, _, _, h => by
    cases h
    rfl
  | k + 1, a, m, s, t, h => by
    unfold readItems at h
    split at h
    · cases h
      rfl
    · extract_lets at h
      split at h
      next hs => exact (clockOf_of_readItems h).trans (clockOf_of_sendItem hs)
      · cases h

theorem clockOf_startReads (q c) : ∀ (es s), clockOf (startReads q c es s) = clockOf s
  | [], _ => rfl
  | e :: es, s => by
    unfold startReads
    split
    · rfl
    · split
      · exact clockOf_startReads q c es s
      · split
        · rfl
        next hr => exact (clockOf_startReads q c es _).trans ((clockOf_modQp ..).trans (clockOf_of_readItems hr))

theorem clockOf_sendAck (q a s) : clockOf (settleIns.sendAck q a s) = clockOf s := by
  unfold settleIns.sendAck
  split
  · exact clockOf_ite rfl (clockOf_qpSend ..)
  · rfl

theorem clockOf_settleIns (q c) : ∀ (n a s), clockOf (settleIns q c n a s) = clockOf s
  | 0, _, _ => clockOf_sendAck ..
  | n + 1, a, s => by
    unfold settleIns
    split
    · exact clockOf_sendAck ..
    · split
      · exact clockOf_sendAck ..
      · split
        · exact (clockOf_settleIns q c n none _).trans ((clockOf_ite (clockOf_modQp ..)
            ((clockOf_foldl (fun s p => clockOf_qpSend q p s) ..).trans (clockOf_modQp ..))).trans (clockOf_sendAck ..))
        · extract_lets
          split
          next hs => exact (clockOf_sendAck ..).trans ((clockOf_modQp ..).trans (clockOf_of_sendItem hs))
          · exact clockOf_sendAck ..
        · exact (clockOf_settleIns q c n _ _).trans (clockOf_modQp ..)

theorem clockOf_settleQp (q s) : clockOf (settleQp q s) = clockOf s := by
  unfold settleQp
  split
  · rfl
  · exact (clockOf_startReads ..).trans ((clockOf_settleIns ..).trans (clockOf_startReads ..))

theorem clockOf_gwDrain (l) : ∀ (ws s), clockOf (gwDrain l ws s) = clockOf s
  | [], _ => rfl
  | w :: ws, s => by
    have hout : ∀ s, clockOf (pfcCheck l w.cls (modEth l (fun e => { e with waiting := e.waiting.erase w }) s)) = clockOf s :=
      fun s => (clockOf_pfcCheck ..).trans (clockOf_modEth ..)
    unfold gwDrain
    extract_lets
    split
    · exact clockOf_gwDrain l ws s
    · split
      · exact (clockOf_gwDrain l ws _).trans (hout _)
      · split
        · exact (clockOf_gwDrain l ws _).trans (hout _)
        · split
          next hg => exact (clockOf_gwDrain l ws _).trans ((clockOf_settleQp ..).trans ((hout _).trans (clockOf_of_gwTake hg)))
          · exact clockOf_gwDrain l ws s

theorem clockOf_gwRetry (s) : clockOf (gwRetry s) = clockOf s := clockOf_foldl (fun s l => clockOf_gwDrain l _ s) ..

theorem clockOf_modGwOut (q d f s) : clockOf (modGwOut q d f s) = clockOf s := rfl

theorem clockOf_gwPump (q s) : clockOf (gwPump q s) = clockOf s := by
  unfold gwPump
  extract_lets
  split
  · split
    · rfl
    · split
      · rfl
      · extract_lets _ t
        have ht : clockOf t = clockOf s := clockOf_ite rfl (clockOf_modQp ..)
        split
        · exact (clockOf_qpSend ..).trans ((clockOf_modGwOut ..).trans ht)
        · split
          next hs => exact (clockOf_modGwOut ..).trans ((clockOf_of_sendItem hs).trans ht)
          · exact (clockOf_modGwOut ..).trans ht
  · rfl

theorem clockOf_refillQps (s) : clockOf (refillQps s) = clockOf s :=
  (clockOf_gwRetry ..).trans ((clockOf_foldl (fun _ _ => (clockOf_settleQp ..).trans
    ((clockOf_gwPump ..).trans (clockOf_pumpOut ..))) ..).trans (clockOf_setGw ..))

/-! ### Steps 7, 8 and 10 -/

theorem clockOf_refillStreams (s) : clockOf (refillStreams s) = clockOf s := clockOf_setStreams ..

theorem clockOf_setTm (s l v) : clockOf (setTm s l v) = clockOf s := rfl

theorem clockOf_refillAll (s) : clockOf (refillAll s) = clockOf s :=
  (clockOf_foldl (fun t i => clockOf_modIn i _ t) ..).trans ((clockOf_setMeters ..).trans
    (clockOf_foldl (fun t l => clockOf_setTm t l _) ..))

theorem clockOf_gateStep (s) : clockOf (gateStep s) = clockOf s := clockOf_setTms ..

theorem clockOf_doorbellPoll (s) : clockOf (doorbellPoll s) = clockOf s :=
  clockOf_ite (clockOf_bump ..) ((clockOf_hostRead ..).trans (clockOf_bump ..))

theorem clockOf_innerStep (s n) : clockOf (innerStep s n) = clockOf s :=
  clockOf_ite ((clockOf_refillQps ..).trans ((clockOf_refillStreams ..).trans (clockOf_refillAll ..)))
    (clockOf_ite (clockOf_gateStep ..) (clockOf_doorbellPoll ..))

/-! ### Collectives and lost nodes (step 3) -/

theorem clockOf_returnRoom (g t s) : clockOf (returnRoom g t s) = clockOf s := clockOf_ite (clockOf_modGroup ..) rfl

theorem clockOf_closeOp (g q o st s) : clockOf (closeOp g q o st s) = clockOf s :=
  (clockOf_modGroup ..).trans ((clockOf_bump ..).trans ((clockOf_setHawk ..).trans
    (clockOf_ite (clockOf_foldl (fun s t => clockOf_returnRoom g t s) ..) (clockOf_modGroup ..))))

theorem clockOf_sendRecord (o j i b st n s) : clockOf (sendRecord o j i b st n s) = clockOf s := by
  unfold sendRecord
  split
  · rfl
  · exact clockOf_sendTo ..

theorem clockOf_failOp (g q st f s) : clockOf (failOp g q st f s) = clockOf s := by
  unfold failOp
  split
  · rfl
  · exact (clockOf_closeOp ..).trans (clockOf_foldl (fun s _ => clockOf_sendRecord _ _ _ _ _ _ s) ..)

theorem clockOf_collLossGroup (g s) : clockOf (collLossGroup g s) = clockOf s := by
  unfold collLossGroup
  extract_lets
  refine clockOf_ite rfl (clockOf_ite rfl ((clockOf_modGroup ..).trans (clockOf_foldl (fun s q => ?_) ..)))
  split
  · exact clockOf_failOp ..
  · rfl

theorem clockOf_collLosses (s) : clockOf (collLosses s) = clockOf s := clockOf_foldl (fun s g => clockOf_collLossGroup g s) ..

/-- A fold over counts and a state leaves the clock alone where each step does. -/
theorem clockOf_foldl_sweep {α : Type} {f : Nat × Bool × State → α → Nat × Bool × State}
    (h : ∀ r x, clockOf (f r x).2.2 = clockOf r.2.2) : ∀ (l : List α) (r), clockOf (l.foldl f r).2.2 = clockOf r.2.2
  | [], _ => rfl
  | x :: l, r => (clockOf_foldl_sweep h l (f r x)).trans (h r x)

theorem clockOf_sweepNode (n s) : clockOf (sweepNode n s).2.2 = clockOf s :=
  clockOf_foldl_sweep (fun _ _ => clockOf_foldl (fun _ _ => (clockOf_inject ..).trans (clockOf_countFail ..)) ..) ..

theorem clockOf_loseNode (s n) : clockOf (loseNode s n) = clockOf s := by
  unfold loseNode
  extract_lets own
  split
  next k ovf t hsweep =>
    have ht : clockOf t = clockOf s := by
      cases hown : own with
      | none =>
        rw [hown] at hsweep
        cases hsweep
        rfl
      | some l =>
        rw [hown] at hsweep
        exact (congrArg (fun r => clockOf r.2.2) hsweep).symm.trans (clockOf_sweepNode n s)
    exact (clockOf_raiseEv ..).trans ((clockOf_setRoute ..).trans ht)

theorem clockOf_nodeCheck (s) : clockOf (nodeCheck s) = clockOf s := by
  unfold nodeCheck
  extract_lets _ _ _ _ _ u
  have hu : clockOf u = clockOf s := (clockOf_bump ..).trans ((clockOf_setRoute ..).trans
    ((clockOf_foldl (fun _ _ => clockOf_raiseEv ..) ..).trans (clockOf_setRoute ..)))
  exact clockOf_ite hu ((clockOf_collLosses ..).trans ((clockOf_foldl clockOf_loseNode ..).trans hu))

theorem clockOf_nodeStep (s) : clockOf (nodeStep s) = clockOf s := clockOf_ite rfl (clockOf_nodeCheck ..)

/-! ### Attic, levers and the sequence table -/

theorem clockOf_prepareAdmin (d s) : clockOf (prepareAdmin d s) = clockOf s :=
  clockOf_ite ((clockOf_setAttic ..).trans (clockOf_addWaits ..)) rfl

theorem clockOf_writeBoot (r s) : clockOf (writeBoot r s) = clockOf s := rfl

theorem clockOf_fwBegin (d s) : clockOf (fwBegin d s) = clockOf s := by
  unfold fwBegin
  split
  · rfl
  · extract_lets
    split
    · exact clockOf_ite (clockOf_complete ..) ((clockOf_hostRead ..).trans (clockOf_addWaits ..))
    · exact clockOf_ite (clockOf_complete ..) (clockOf_prepareAdmin ..)
    · exact clockOf_ite (clockOf_complete ..) ((clockOf_complete ..).trans ((clockOf_setAttic ..).trans (clockOf_writeBoot ..)))

theorem clockOf_fwRun : ∀ (n s), clockOf (fwRun n s) = clockOf s
  | 0, _ => rfl
  | n + 1, s => by
    unfold fwRun
    split
    · rfl
    · split
      · exact (clockOf_fwRun n _).trans (clockOf_setAttic ..)
      · exact clockOf_ite rfl ((clockOf_fwRun n _).trans ((clockOf_fwBegin ..).trans (clockOf_modFlight ..)))

theorem clockOf_fwPump (s) : clockOf (fwPump s) = clockOf s := clockOf_fwRun ..

theorem clockOf_fwEnd (d st r s) : clockOf (fwEnd d st r s) = clockOf s := (clockOf_fwPump ..).trans (clockOf_complete ..)

theorem clockOf_startImage (b s) : clockOf (startImage b s) = clockOf s := clockOf_setAttic ..

theorem clockOf_noteRollback (b s) : clockOf (noteRollback b s) = clockOf s := clockOf_setAttic ..

theorem clockOf_bootOther (b s) : clockOf (bootOther b s) = clockOf s :=
  clockOf_ite ((clockOf_startImage ..).trans ((clockOf_writeBoot ..).trans (clockOf_noteRollback ..))) (clockOf_setAttic ..)

theorem clockOf_bootRun (s) : clockOf (bootRun s) = clockOf s := by
  have h : ∀ (r) (b : Bool), clockOf (writeBoot r (if b then noteRollback s.attic.flash.record.active s else s)) = clockOf s :=
    fun _ _ => (clockOf_writeBoot ..).trans (clockOf_ite (clockOf_noteRollback ..) rfl)
  exact clockOf_ite ((clockOf_startImage ..).trans (h ..)) ((clockOf_bootOther ..).trans (h ..))

theorem clockOf_atticRestart (s) : clockOf (atticRestart s) = clockOf s := (clockOf_bootRun ..).trans (clockOf_setAttic ..)

theorem clockOf_activateApply (d b s) : clockOf (activateApply d b s) = clockOf s :=
  (clockOf_setAttic ..).trans ((clockOf_atticRestart ..).trans (clockOf_writeBoot ..))

theorem clockOf_drainApply (d f s) : clockOf (drainApply d f s) = clockOf s := clockOf_ite (clockOf_setAttic ..) (clockOf_setAttic ..)

theorem clockOf_drainsEnd (st s) : clockOf (drainsEnd st s) = clockOf s :=
  (clockOf_foldl (fun s d => clockOf_complete d st 0 s) ..).trans (clockOf_setAttic ..)

theorem clockOf_setResetAt (s : State) (x) : clockOf { s with power.resetAt := x } = clockOf s := rfl

theorem clockOf_adminApply (w s) : clockOf (adminApply w s) = clockOf s := by
  unfold adminApply
  split
  · rfl
  · split
    · exact clockOf_ite (clockOf_fwEnd ..) (clockOf_activateApply ..)
    · exact clockOf_ite (clockOf_complete ..) ((clockOf_complete ..).trans (clockOf_setResetAt ..))
    · exact clockOf_drainApply ..
    · exact (clockOf_complete ..).trans ((clockOf_setAttic ..).trans (clockOf_drainsEnd ..))
    · rfl

theorem clockOf_atticBoundary (s) : clockOf (atticBoundary s) = clockOf s :=
  (clockOf_foldl (fun s w => clockOf_adminApply w s) ..).trans (clockOf_setAttic ..)

theorem clockOf_applyOffers (s) : clockOf (applyOffers s) = clockOf s := clockOf_foldl (fun _ _ => clockOf_modLink ..) ..

theorem clockOf_applyLevers (s) : clockOf (applyLevers s) = clockOf s := rfl

theorem clockOf_pldmEvent (s) : clockOf (pldmEvent s) = clockOf s := clockOf_ite rfl (clockOf_setAttic ..)

theorem clockOf_larderPut (a bs s) : clockOf (larderPut a bs s) = clockOf s := clockOf_setLarder ..

theorem clockOf_larderZero (a n s) : clockOf (larderZero a n s) = clockOf s := clockOf_setLarder ..

theorem clockOf_seqApply (w s) : clockOf (seqApply w s) = clockOf s := by
  unfold seqApply
  split
  · rfl
  · extract_lets
    split
    · exact clockOf_ite (clockOf_complete ..) ((clockOf_complete ..).trans ((clockOf_modFlight ..).trans
        ((clockOf_larderPut ..).trans (clockOf_larderZero ..))))
    · refine clockOf_ite (clockOf_complete ..) (clockOf_ite ?_ ?_)
      · exact clockOf_ite (clockOf_complete ..) (clockOf_ite (clockOf_complete ..) ((clockOf_complete ..).trans (clockOf_larderPut ..)))
      · exact (clockOf_complete ..).trans ((clockOf_modFlight ..).trans (clockOf_larderPut ..))

theorem clockOf_seqBoundary (s) : clockOf (seqBoundary s) = clockOf s :=
  (clockOf_foldl (fun s w => clockOf_seqApply w s) ..).trans (clockOf_setWork ..)

theorem clockOf_boundaryAdmin (s) : clockOf (boundaryAdmin s) = clockOf s :=
  (clockOf_seqBoundary ..).trans ((clockOf_pldmEvent ..).trans ((clockOf_applyLevers ..).trans
    ((clockOf_atticBoundary ..).trans (clockOf_applyOffers ..))))

/-! ### Counts that start anew, and packets that waited -/

theorem clockOf_returnEnding (s) : clockOf (returnEnding s) = clockOf s :=
  clockOf_foldl (fun _ _ => clockOf_ite rfl ((clockOf_foldl (fun s t => clockOf_returnRoom _ t s) ..).trans (clockOf_modGroup ..))) ..

theorem clockOf_setTickCounts (s : State) (a b c d) :
    clockOf { s with larder.served := a, hawk.movedIn := b, hawk.movedOut := c, lanes := d } = clockOf s := rfl

theorem clockOf_freshTick (s) : clockOf (freshTick s) = clockOf s :=
  (clockOf_setTickCounts ..).trans (clockOf_returnEnding ..)

theorem clockOf_setPeep (s : State) (x) : clockOf { s with counts.peep := x } = clockOf s := rfl

theorem clockOf_peepFrame (l b d bs s) : clockOf (peepFrame l b d bs s) = clockOf s := by
  have hp : ∀ x, clockOf { s with counts.peep := x } = clockOf s := clockOf_setPeep s
  have hs : ∀ x n q, clockOf (bumpPort (linkPort l) 204
      { s with counts.peep := x, counts.sampled := n, counts.sampleSeq := q }) = clockOf s := fun _ _ _ => rfl
  exact clockOf_ite rfl (clockOf_ite (hp _) (clockOf_ite ((clockOf_bumpPort ..).trans (hp _))
    (clockOf_ite ((clockOf_setLarder ..).trans (hs ..)) ((clockOf_raise ..).trans (hs ..)))))

theorem clockOf_rxReserve (l q u s) : clockOf (rxReserve l q u s) = clockOf s := clockOf_modPart ..

theorem clockOf_rxFree (l q u s) : clockOf (rxFree l q u s) = clockOf s := clockOf_modPart ..

theorem clockOf_arriveDrop (l p s) : clockOf (arriveDrop l p s) = clockOf s :=
  (clockOf_peepFrame ..).trans ((clockOf_rxFree ..).trans (clockOf_rxReserve ..))

theorem clockOf_arriveFail (l st p s) : clockOf (arriveFail l st p s) = clockOf s :=
  clockOf_ite ((clockOf_inject ..).trans ((clockOf_countFail ..).trans (clockOf_arriveDrop ..))) (clockOf_arriveDrop ..)

theorem clockOf_of_openRecord {p e s t} (h : openRecord p e s = some t) : clockOf t = clockOf s := by
  unfold openRecord at h
  split at h
  · cases h
    exact clockOf_setRoute ..
  · split at h
    · cases h
    · cases h
      exact clockOf_setRoute ..

theorem clockOf_arriveEnter (l e b p s) : clockOf (arriveEnter l e b p s) = clockOf s := by
  unfold arriveEnter
  extract_lets i u q enter wait
  have henter : ∀ k o p t, clockOf (enter k o p t) = clockOf t :=
    fun _ _ _ _ => (clockOf_enqueue ..).trans ((clockOf_peepFrame ..).trans (clockOf_rxReserve ..))
  have hwait : ∀ t, clockOf (wait t) = clockOf t :=
    fun _ => (clockOf_touchUnder ..).trans ((clockOf_setItems ..).trans (clockOf_rxReserve ..))
  split
  · split
    · refine clockOf_ite (clockOf_arriveFail ..) (clockOf_ite ?_ (henter ..))
      split
      next h => exact (henter ..).trans (clockOf_of_openRecord h)
      · exact hwait s
    · refine clockOf_ite ((clockOf_arriveDrop ..).trans rfl) ?_
      split
      next h =>
        refine (henter ..).trans ?_
        split at h
        · exact clockOf_of_openRecord h
        · cases h
          rfl
      · exact hwait s
  · split
    next x t heq =>
    have ht : clockOf t = clockOf s := by
      split at heq
      · exact clockOf_of_hopIngress heq
      · cases heq
        rfl
    split
    · exact (clockOf_arriveFail ..).trans ht
    · exact clockOf_ite ((henter ..).trans ht) (clockOf_ite ((henter ..).trans ht) ((henter ..).trans ht))

theorem clockOf_retryPacket (s x) : clockOf (retryPacket s x) = clockOf s :=
  (clockOf_arriveEnter ..).trans (clockOf_modPart ..)

theorem clockOf_retryWaiting (s) : clockOf (retryWaiting s) = clockOf s :=
  (clockOf_foldl clockOf_retryPacket ..).trans (clockOf_setItems ..)

end Machine
end Sys2Proof
end

section
/-!
PROOF. TICK_BOUNDARY, the steering of the edge by markers, and lock (R21, R22, R26, R30 to R33, R37, R42, R46, R759): each clause of
TickBoundarySteeringAndLock as a lemma about its command.
-/
namespace Sys2Proof
namespace Machine

/-! ### What the steps after the tick's advance leave alone -/

/-- The date of a state: the count of ticks, the offset of their number, the slot, TICK_OUT's pulses and the register writes that
wait. -/
def dateOf (s : State) : BitVec 48 × BitVec 48 × Nat × Nat × List RegWrite :=
  (s.tick.elapsed, s.tick.offset, s.tick.slot, s.power.tickOut, s.regs.writes)

theorem dateOf_of_clockOf {s t : State} (h : clockOf t = clockOf s) : dateOf t = dateOf s := by
  obtain ⟨htick, hout, -, hw⟩ := clockOf_eq_iff.mp h
  simp [dateOf, htick, hout, hw]

theorem snapTick_of_clockOf {s t : State} (h : clockOf t = clockOf s) : t.counts.snapTick = s.counts.snapTick := by
  obtain ⟨-, -, hsnap, -⟩ := clockOf_eq_iff.mp h
  exact hsnap

theorem MastershipOnly.dateOf {s t : State} (h : MastershipOnly s t) : Machine.dateOf t = Machine.dateOf s := by
  obtain ⟨heq, hel, hoff, hslot, -⟩ := h
  rw [Machine.dateOf, hel, hoff, hslot, heq]
  rfl

theorem MastershipOnly.ite {c : Prop} [Decidable c] {s a b : State} (ha : MastershipOnly s a) (hb : MastershipOnly s b) :
    MastershipOnly s (if c then a else b) := by
  split
  · exact ha
  · exact hb

theorem upstreamStep_mastership (s) : MastershipOnly s (upstreamStep s) := by
  unfold upstreamStep
  split
  · refine .ite ⟨rfl, rfl, rfl, rfl, rfl⟩ ?_
    split
    · exact followMaster_mastership _ _ _ s
    · exact enterHoldover_mastership s
  · exact .refl s

theorem dateOf_sendMark (s l) : dateOf (sendMark s l) = dateOf s := by
  change dateOf (if _ then _ else _) = dateOf s
  split
  · rfl
  · rfl

theorem dateOf_sendMarkers (s) : dateOf (sendMarkers s) = dateOf s := by
  unfold sendMarkers
  generalize allLinks.filter (serviceCoding s) = ls
  induction ls generalizing s with
  | nil => rfl
  | cons l ls ih => exact (ih _).trans (dateOf_sendMark s l)

/-! ### The boundary's first steps -/

/-- Of the clock, the inner steps that are still to apply change their own list alone. -/
theorem clockOf_settled (s) :
    clockOf (settled s) = clockOf { s with tick.todo := s.tick.todo.filter (fun k => decide (10 < k)) } :=
  clockOf_foldl clockOf_innerStep ..

/-- The offset of the tick number after the next boundary: a step that waits sets it so that its number is reached there (R42). -/
def nextOffset (s : State) : BitVec 48 := (s.tick.step.map (fun w => w.tick - (s.tick.elapsed + 1))).getD s.tick.offset

theorem dateOf_advanceTick (s) :
    dateOf (advanceTick s) = (s.tick.elapsed + 1, nextOffset s, 0, s.power.tickOut, s.regs.writes) := by
  unfold advanceTick nextOffset
  extract_lets
  cases s.tick.step with
  | none => rfl
  | some w => exact dateOf_of_clockOf ((clockOf_raiseEv ..).trans (clockOf_bumpModule ..))

theorem clockOf_setReads (s : State) (x) : clockOf { s with regs.reads := x } = clockOf s := rfl

/-- The register writes that are due apply, and leave the list (R781). -/
theorem clockOf_applyDue (s) :
    clockOf (applyDue s) = clockOf { s with regs.writes := s.regs.writes.filter (fun w => !reached s w.due) } :=
  (clockOf_foldl clockOf_regServe ..).trans ((clockOf_setReads ..).trans
    (clockOf_foldl (fun s (w : RegWrite) => clockOf_applyWrite false w.addr w.wide w.val s) ..))

theorem dateOf_applyDue {s : State} {a b c d ws} (h : dateOf s = (a, b, c, d, ws)) :
    dateOf (applyDue s) = (a, b, c, d, ws.filter (fun w => !reached s w.due)) := by
  rw [dateOf_of_clockOf (clockOf_applyDue s)]
  simp only [dateOf, Prod.mk.injEq] at h ⊢
  obtain ⟨ha, hb, hc, hd, hws⟩ := h
  exact ⟨ha, hb, hc, hd, by rw [hws]⟩

theorem dateOf_pulse {s : State} {a b c d ws} (h : dateOf s = (a, b, c, d, ws)) :
    dateOf { s with power.tickOut := s.power.tickOut + 1 } = (a, b, c, d + 1, ws) := by
  simp only [dateOf, Prod.mk.injEq] at h ⊢
  obtain ⟨ha, hb, hc, hd, hws⟩ := h
  exact ⟨ha, hb, hc, by rw [hd], hws⟩

theorem reached_congr {s t : State} (h : t.tick.elapsed = s.tick.elapsed) (d : BitVec 48) : reached t d = reached s d := by
  simp [reached, h]

/-- The snapshot takes the number of the tick that ended (R759). -/
theorem clockOf_snapshot (t s) : clockOf (snapshot t s) = clockOf { s with counts.snapTick := t } :=
  (clockOf_latchAudits ..).trans ((clockOf_checkPairs ..).trans rfl)

theorem dateOf_setSnapTick (s : State) (n) : dateOf { s with counts.snapTick := n } = dateOf s := rfl

/-- Snapshot and telemetry leave the date alone (R759, R770). -/
theorem telemBoundary_snapshot_spec (n) (s : State) : (telemBoundary (snapshot n s)).counts.snapTick = n
    ∧ dateOf (telemBoundary (snapshot n s)) = dateOf s := by
  have h := (clockOf_telemBoundary ..).trans (clockOf_snapshot n s)
  exact ⟨snapTick_of_clockOf h, (dateOf_of_clockOf h).trans (dateOf_setSnapTick ..)⟩

/-- The boundary's first steps: the tick advances, the writes that are due apply, TICK_OUT gives a pulse, and the snapshot is taken. -/
theorem boundaryStart_spec (n) (s : State) : (boundaryStart n s).counts.snapTick = n
    ∧ dateOf (boundaryStart n s) = (s.tick.elapsed + 1, nextOffset s, 0, s.power.tickOut + 1,
      s.regs.writes.filter (fun w => !reached (advanceTick s) w.due)) := by
  unfold boundaryStart
  extract_lets t u v
  have hu : dateOf u = dateOf t := (MastershipOnly.ite (elect_mastership t) (.refl t)).dateOf
  have hv : dateOf v = dateOf (applyDue (advanceTick s)) := (dateOf_sendMarkers u).trans (hu.trans
    ((upstreamStep_mastership _).dateOf.trans (dateOf_of_clockOf (clockOf_ageStep ..))))
  clear_value v
  refine ⟨(telemBoundary_snapshot_spec n _).1, (telemBoundary_snapshot_spec n _).2.trans ?_⟩
  exact dateOf_pulse (hv.trans (dateOf_applyDue (dateOf_advanceTick s)))

/-! ### TICK_BOUNDARY -/

theorem tickBoundary_early {s : State} (h : s.tick.slot < s.tick.len) : NoEffect .tickBoundary s :=
  congrArg Host.Outcome.next (if_pos h)

theorem dateOf_setTodo (s : State) (x) : dateOf { s with tick.todo := x } = dateOf s := rfl

/-- The rest of a boundary's work, after the administration: the inner steps are still to apply. -/
def boundaryEnd (s : State) : State := retryWaiting (freshTick { s with tick.todo := [7, 8, 10] })

theorem boundaryEnd_spec (s) : (boundaryEnd s).counts.snapTick = s.counts.snapTick ∧ dateOf (boundaryEnd s) = dateOf s := by
  have h : clockOf (boundaryEnd s) = clockOf { s with tick.todo := [7, 8, 10] } :=
    (clockOf_retryWaiting ..).trans (clockOf_freshTick ..)
  have hsnap := snapTick_of_clockOf h
  exact ⟨hsnap, (dateOf_of_clockOf h).trans (dateOf_setTodo ..)⟩

theorem tickBoundary_eq {s : State} (h : s.tick.len ≤ s.tick.slot) :
    tickBoundary s = boundaryEnd (boundaryAdmin (nodeStep (boundaryStart (nowTick s) (settled s)))) :=
  if_neg (Nat.not_lt.mpr h)

/-- After the tick's last slot the boundary's first steps run, and the rest of its work leaves date and snapshot alone. -/
theorem tickBoundary_spec {s : State} (h : s.tick.len ≤ s.tick.slot) : (tickBoundary s).counts.snapTick = nowTick s
    ∧ dateOf (tickBoundary s) = dateOf (boundaryStart (nowTick s) (settled s)) := by
  have hstart := (boundaryStart_spec (nowTick s) (settled s)).1
  rw [tickBoundary_eq h]
  generalize boundaryStart (nowTick s) (settled s) = t at hstart ⊢
  have hadmin := (clockOf_boundaryAdmin ..).trans (clockOf_nodeStep t)
  have hend := boundaryEnd_spec (boundaryAdmin (nodeStep t))
  exact ⟨(hend.1.trans (snapTick_of_clockOf hadmin)).trans hstart, hend.2.trans (dateOf_of_clockOf hadmin)⟩

/-- What TICK_BOUNDARY does to date and snapshot after the tick's last slot. -/
theorem tickBoundary_due {s : State} (h : s.tick.len ≤ s.tick.slot) :
    Completes .tickBoundary s fun t => t.tick.elapsed = s.tick.elapsed + 1 ∧ t.tick.slot = 0
      ∧ t.power.tickOut = s.power.tickOut + 1 ∧ t.counts.snapTick = nowTick s
      ∧ t.regs.writes = s.regs.writes.filter (fun w => !reached t w.due)
      ∧ (∀ w, s.tick.step = some w → nowTick t = w.tick) ∧ (s.tick.step = none → nowTick t = nowTick s + 1) := by
  refine ⟨tickBoundary s, rfl, ?_⟩
  obtain ⟨hsnap, hdate⟩ := tickBoundary_spec h
  obtain ⟨htick, hout, -, hwrites⟩ := clockOf_eq_iff.mp (clockOf_settled s)
  have hadv := dateOf_advanceTick (settled s)
  have hoff : nextOffset (settled s) = nextOffset s := by
    rw [nextOffset, htick]
    rfl
  rw [(boundaryStart_spec _ _).2, htick, hout, hwrites, hoff] at hdate
  rw [htick, hoff] at hadv
  simp only [dateOf, Prod.mk.injEq] at hdate hadv
  obtain ⟨hel, ho, hslot, hpulse, hw⟩ := hdate
  refine ⟨hel, hslot, hpulse, hsnap, ?_, fun w hstep => ?_, fun hstep => ?_⟩
  · rw [hw]
    have helapsed : (tickBoundary s).tick.elapsed = (advanceTick (settled s)).tick.elapsed := hel.trans hadv.1.symm
    exact List.filter_congr fun w _ => by rw [reached_congr helapsed]
  · rw [nowTick, hel, ho, nextOffset, hstep]
    simp
  · rw [nowTick, hel, ho, nextOffset, hstep, nowTick]
    simp only [Option.map_none, Option.getD_none]
    ring

/-! ### TICK_MARKER_RECEIVE (R26, R31 to R33) -/

theorem signed_toNat (x : BitVec 16) : signed 16 x.toNat = x.toInt := by
  have := x.isLt
  rw [BitVec.toInt_eq_toNat_cond, signed, Nat.mod_eq_of_lt this]
  split <;> split <;> omega

/-- The first marker of a tick on the upstream link steers the edge, where the module has the link's announce and has sent a marker. -/
theorem tickMarkerReceive_steers {s : State} {l : LinkId} (m : Marker) (rx : Nat) {a : Announce} {k : BitVec 48} {x : Marker}
    (hen : upstreamEn s l = true) (hu : s.tick.upstream = some l) (hi : s.tick.isMaster = false)
    (he : s.tick.errAt ≠ some s.tick.elapsed) (ha : (heardOf s l).ann = some (a, k)) (hx : sentMark s l = some x) :
    exec (.tickMarkerReceive l m rx) s = .next (applyError (markError m a.echo.toInt rx x.txOffset.toNat) (stampMark l m rx s)) := by
  change execTickMarkerReceive l m rx s = _
  simp only [execTickMarkerReceive, ha, hx, signed_toNat]
  exact if_pos (by simp [hen, hu, hi, he])

/-- The edge moves by at most 0.125 ns in the direction of the error, and the tick is counted (R32, R33). -/
theorem tickMarkerReceive_error {s : State} {l : LinkId} (m : Marker) (rx : Nat) {a : Announce} {k : BitVec 48} {x : Marker}
    (hen : upstreamEn s l = true) (hu : s.tick.upstream = some l) (hi : s.tick.isMaster = false)
    (he : s.tick.errAt ≠ some s.tick.elapsed) (ha : (heardOf s l).ann = some (a, k)) (hx : sentMark s l = some x) :
    Completes (.tickMarkerReceive l m rx) s fun t =>
      t.tick.error = 2 * (rx : Int) - 2 * m.txOffset.toNat - (a.echo.toInt + rx - x.txOffset.toNat)
      ∧ (0 < t.tick.error → s.tick.edge < t.tick.edge ∧ t.tick.edge ≤ s.tick.edge + 2)
      ∧ (t.tick.error < 0 → t.tick.edge < s.tick.edge ∧ s.tick.edge - 2 ≤ t.tick.edge)
      ∧ (t.tick.error = 0 → t.tick.edge = s.tick.edge)
      ∧ t.tick.within = (if t.tick.error.natAbs ≤ 8 then s.tick.within + 1 else 0)
      ∧ t.tick.beyond = (if 16 < t.tick.error.natAbs then s.tick.beyond + 1 else 0)
      ∧ t = { s with tick := { s.tick with
          heard := (stampMark l m rx s).tick.heard, error := t.tick.error, errOk := true, errAt := some s.tick.elapsed,
          edge := s.tick.edge + edgeMove t.tick.error, corr := edgeMove t.tick.error, within := t.tick.within,
          beyond := t.tick.beyond } } := by
  refine ⟨_, tickMarkerReceive_steers m rx hen hu hi he ha hx, rfl, ?_⟩
  generalize markError m a.echo.toInt rx x.txOffset.toNat = e
  obtain ⟨hle, hge, hpos, hneg, hsame⟩ := edgeMove_bounds e
  have hedge : (applyError e (stampMark l m rx s)).tick.edge = s.tick.edge + edgeMove e := rfl
  have herr : (applyError e (stampMark l m rx s)).tick.error = e := rfl
  rw [hedge, herr]
  refine ⟨fun h => ?_, fun h => ?_, fun h => ?_, rfl, rfl, rfl⟩
  · have := hpos h
    omega
  · have := hneg h
    omega
  · have := hsame (by omega) (by omega)
    omega

/-- Every other marker is only timestamped (R26, R31). -/
theorem tickMarkerReceive_other {s : State} {l : LinkId} (m : Marker) (rx : Nat)
    (h : upstreamEn s l = false ∨ s.tick.upstream ≠ some l ∨ s.tick.isMaster = true ∨ s.tick.errAt = some s.tick.elapsed) :
    exec (.tickMarkerReceive l m rx) s = .next (stampMark l m rx s) := by
  change execTickMarkerReceive l m rx s = _
  refine if_neg ?_
  rcases h with h | h | h | h <;> simp [h]

/-- What a marker's timestamp leaves of what a link heard, before the marker itself is kept (R31). -/
def stampEcho (s : State) (l : LinkId) (rx : Nat) : Heard :=
  match sentMark s l with
  | some x => { heardOf s l with echo := some ((rx : Int) - x.txOffset.toNat) }
  | none => heardOf s l

theorem stampMark_eq (l : LinkId) (m : Marker) (rx : Nat) (s : State) : stampMark l m rx s =
    setHeard l (if upstreamEn s l then { stampEcho s l rx with mark := some (m, rx, s.tick.elapsed) } else stampEcho s l rx) s := rfl

theorem heardOf_setHeard_self {s : State} (hw : tblWf {} s.tick.heard = true) (l : LinkId) (h : Heard) :
    heardOf (setHeard l h s) l = h := tblGet_tblSet_self _ _ _ _ hw

theorem heardOf_setHeard_ne {l k : LinkId} (hk : k ≠ l) (h : Heard) (s : State) : heardOf (setHeard l h s) k = heardOf s k :=
  tblGet_tblSet_ne _ _ _ _ _ (fun e => hk (Fin.ext e))

theorem stampEcho_ann (s : State) (l : LinkId) (rx : Nat) : (stampEcho s l rx).ann = (heardOf s l).ann := by
  unfold stampEcho
  split
  · rfl
  · rfl

theorem stampEcho_mark (s : State) (l : LinkId) (rx : Nat) : (stampEcho s l rx).mark = (heardOf s l).mark := by
  unfold stampEcho
  split
  · rfl
  · rfl

theorem stampMark_heard {s : State} (l : LinkId) (m : Marker) (rx : Nat) (hw : tblWf {} s.tick.heard = true) :
    (heardOf (stampMark l m rx s) l).ann = (heardOf s l).ann
    ∧ (heardOf (stampMark l m rx s) l).mark = (if upstreamEn s l then some (m, rx, s.tick.elapsed) else (heardOf s l).mark)
    ∧ (∀ x, sentMark s l = some x → (heardOf (stampMark l m rx s) l).echo = some ((rx : Int) - x.txOffset.toNat))
    ∧ (∀ k, k ≠ l → heardOf (stampMark l m rx s) k = heardOf s k) := by
  rw [stampMark_eq, heardOf_setHeard_self hw]
  refine ⟨?_, ?_, fun x hx => ?_, fun k hk => heardOf_setHeard_ne hk _ s⟩
  · rw [← stampEcho_ann s l rx]
    split <;> rfl
  · rw [← stampEcho_mark s l rx]
    split <;> rfl
  · have hecho : (stampEcho s l rx).echo = some ((rx : Int) - x.txOffset.toNat) := by simp [stampEcho, hx]
    rw [← hecho]
    split <;> rfl

/-! ### Lock -/

theorem lockDeclared_due {s : State} (h0 : s.tick.slot = 0) (hi : s.tick.isMaster = false) (hu : s.tick.upstream.isSome = true)
    (hl : s.tick.locked = false) (hw : 64 ≤ s.tick.within) (hh : hits s 64 29 = true) :
    exec .lockDeclared s = .next { s with tick.locked := true, tick.beyond := 0 } :=
  congrArg Host.Outcome.next (if_pos (by simp [h0, hi, hu, hl, hw, hh]))

theorem hits_of_span_one {s : State} (h : tickSpan s = 1) : hits s 64 29 = true ↔ (nowTick s).toNat % 64 = 29 := by
  simp only [hits, h, decide_eq_true_eq]
  omega

theorem lockDeclared_not_due {s : State} (h : s.tick.within < 64 ∨ hits s 64 29 = false ∨ s.tick.slot ≠ 0) :
    NoEffect .lockDeclared s := by
  refine congrArg Host.Outcome.next (if_neg ?_)
  rcases h with h | h | h
  · simp [Nat.not_le.mpr h]
  · simp [h]
  · simp [h]

theorem lockLost_due {s : State} (hl : s.tick.locked = true) (hi : s.tick.isMaster = false) (hb : 8 ≤ s.tick.beyond) :
    exec .lockLost s = .next { s with tick.locked := false, tick.within := 0 } :=
  congrArg Host.Outcome.next (if_pos (by simp [hl, hi, hb]))

theorem lockLost_not_due {s : State} (h : s.tick.beyond < 8) : NoEffect .lockLost s :=
  congrArg Host.Outcome.next (if_neg (by simp [Nat.not_le.mpr h]))

/-! ### The statement -/

/-- Settles O1: each clause is the lemma of its command. -/
theorem tickBoundarySteeringAndLock : Obligations.TickBoundarySteeringAndLock := by
  unfold Obligations.TickBoundarySteeringAndLock
  exact ⟨⟨fun s h => tickBoundary_due h, fun s h => tickBoundary_early h⟩,
    ⟨fun s l m rx a k x hen hu hi he ha hx => tickMarkerReceive_error m rx hen hu hi he ha hx,
      fun s l m rx h => tickMarkerReceive_other m rx h, fun s l m rx hw => stampMark_heard l m rx hw⟩,
    fun s h0 hi hu hl hw hh => lockDeclared_due h0 hi hu hl hw hh, fun s h => hits_of_span_one h,
    fun s h => lockDeclared_not_due h, fun s hl hi hb => lockLost_due hl hi hb, fun s h => lockLost_not_due h⟩

end Machine
end Sys2Proof
end

section
/-!
PROOF. Function instances (R75 to R81): the table of instances, what the work of a transition leaves alone, and what each transition of
Table 3-6 makes of its function.
-/
namespace Sys2Proof
namespace Machine

/-! ### The table of instances -/

/-- No two instances share a place in the table. -/
theorem fnKey_injective : Function.Injective fnKey := by
  intro f g h
  cases f <;> cases g <;> simp only [fnKey, FnId.port.injEq, FnId.sq.injEq, FnId.cq.injEq, FnId.group.injEq, FnId.stream.injEq,
    FnId.kernel.injEq, FnId.qp.injEq, reduceCtorEq, Fin.ext_iff] at h ⊢ <;> omega

theorem fnOf_setFn_ne {f g : FnId} (h : g ≠ f) (s : State) (v : Fn) : fnOf (setFn s f v) g = fnOf s g :=
  tblGet_tblSet_ne _ _ _ _ _ (fnKey_injective.ne h)

/-- A function that is not Off is listed as it was set. -/
theorem fnOf_setFn_of_st (f : FnId) (s : State) {v : Fn} (h : v.st ≠ .off) : fnOf (setFn s f v) f = v :=
  tblGet_tblSet_of_ne _ _ _ _ (fun e => h (by rw [e]))

/-- A function with a pending enable is listed as it was set. -/
theorem fnOf_setFn_of_pend (f : FnId) (s : State) {v : Fn} (h : v.pend = true) : fnOf (setFn s f v) f = v :=
  tblGet_tblSet_of_ne _ _ _ _ (fun e => by simp [e] at h)

theorem fnOf_setFn_of_wf (f : FnId) {s : State} (v : Fn) (h : tblWf {} s.fns = true) : fnOf (setFn s f v) f = v :=
  tblGet_tblSet_self _ _ _ _ h

/-! ### What the core changes when a packet enters -/

/-- Only the core, the coats, the items and the counts differ. -/
def CoreOnly (s t : State) : Prop := ∃ c r i n, t = { s with core := c, route := r, items := i, counts := n }

theorem CoreOnly.refl (s : State) : CoreOnly s s := ⟨_, _, _, _, rfl⟩

theorem CoreOnly.trans {s t u : State} (h : CoreOnly s t) (k : CoreOnly t u) : CoreOnly s u := by
  obtain ⟨_, _, _, _, rfl⟩ := h
  obtain ⟨_, _, _, _, rfl⟩ := k
  exact ⟨_, _, _, _, rfl⟩

theorem touchUnder_core (n : BitVec 4) (s : State) : CoreOnly s (touchUnder n s) := by
  unfold touchUnder
  split
  · split
    · exact ⟨_, _, _, _, rfl⟩
    · exact .refl s
  · exact .refl s

theorem enqueueNow_core (i k o u q bad hold p s r) : CoreOnly s (enqueueNow i k o u q bad hold p s r) :=
  CoreOnly.trans ⟨_, _, _, _, rfl⟩ (touchUnder_core ..)

theorem enqueue_core (i k o u q bad hold p s r) : CoreOnly s (enqueue i k o u q bad hold p s r) := by
  unfold enqueue
  split
  · exact enqueueNow_core ..
  · split
    · exact enqueueNow_core ..
    · exact ⟨_, _, _, _, rfl⟩

theorem hopIngress_core (i p s) : CoreOnly s (hopIngress i p s).2 := by
  unfold hopIngress
  extract_lets e start t
  have ht : CoreOnly s t := by
    unfold t
    split
    · exact .refl s
    · exact ⟨_, _, _, _, rfl⟩
  split
  · split
    · exact ht
    · exact ht
  · exact .refl s

theorem injectOwn_core (i p s) : CoreOnly s (injectOwn i p s) := by
  have hop := hopIngress_core i (sealPkt (stamp s p)) s
  unfold injectOwn
  extract_lets q
  split
  next h => exact (h ▸ hop).trans (enqueue_core ..)
  next h => exact (h ▸ hop).trans ⟨_, _, _, _, rfl⟩

theorem inject_core (i p s) : CoreOnly s (inject i p s) := by
  have hop := hopIngress_core i (sealPkt (stamp s p)) s
  unfold inject
  extract_lets q
  split
  · split
    · exact enqueue_core ..
    · exact ⟨_, _, _, _, rfl⟩
  · split
    next h => exact (h ▸ hop).trans (enqueue_core ..)
    next h => exact (h ▸ hop :)

theorem sendFail_core (i st p s) : CoreOnly s (sendFail i st p s) := by
  unfold sendFail
  split
  · exact CoreOnly.trans ⟨_, _, _, _, rfl⟩ (inject_core ..)
  · exact .refl s

theorem CoreOnly.foldl {α : Type} {f : State → α → State} (h : ∀ s x, CoreOnly s (f s x)) :
    ∀ (l : List α) (s : State), CoreOnly s (l.foldl f s)
  | [], s => .refl s
  | x :: l, s => (h s x).trans (foldl h l (f s x))

theorem sendItem_core {i tags base n bs u s t} (h : sendItem i tags base n bs u s = some t) : CoreOnly s t := by
  unfold sendItem at h
  split at h
  · cases h
  · cases h
    exact (CoreOnly.trans ⟨_, _, _, _, rfl⟩ (CoreOnly.foldl (fun s p => injectOwn_core i p s) _ _)).trans ⟨_, _, _, _, rfl⟩

/-! ### What the work of a transition leaves alone -/

theorem HostOnly.foldl {α : Type} {f : State → α → State} (h : ∀ s x, HostOnly s (f s x)) :
    ∀ (l : List α) (s : State), HostOnly s (l.foldl f s)
  | [], s => .rfl s
  | x :: l, s => (h s x).trans (foldl h l (f s x))

theorem modFlight_host (d g s) : HostOnly s (modFlight d g s) := ⟨_, _, _, rfl⟩

theorem completeGen_host (d st g s) : HostOnly s (completeGen d st g s) := (modFlight_host ..).trans (complete_host ..)

theorem completeAll_host (ds st g s) : HostOnly s (completeAll ds st g s) := .foldl (fun s d => completeGen_host d st g s) ds s

theorem auditRing_host (s i) : HostOnly s (auditRing s i) := by
  unfold auditRing
  extract_lets d os t r
  split
  · exact .rfl s
  · exact ((bumpModule_host ..).trans (raiseEv_host ..)).trans
      ((HostOnly.foldl (fun s d => complete_host d stTimeout 0 s) ..).trans (setSq_host ..))

theorem cancelFetched_host (i st s) : HostOnly s (cancelFetched i st s) := .foldl (fun s d => complete_host d st 0 s) ..

theorem zeroPut_enz (o v s) : EnzOnly s (zeroPut o v s) := by
  unfold zeroPut
  split
  · exact .rfl s
  · exact consumerPut_enz ..

theorem putSqCons_host (i s) : HostOnly s (putSqCons i s) := by
  unfold putSqCons
  extract_lets v
  split
  · exact .rfl s
  · exact (setSq_host ..).trans (consumerPut_enz ..).host

/-- The lanes of a link change alone when they leave or enter Dark. -/
theorem modLanes_lanes (l f s) : ∃ x, modLanes l f s = { s with lanes := x } := by
  unfold modLanes
  generalize List.finRange 4 = js
  induction js generalizing s with
  | nil => exact ⟨_, rfl⟩
  | cons j js ih =>
    obtain ⟨x, hx⟩ := ih (modLane (laneId l j) (f j) s)
    exact ⟨x, hx⟩

theorem relight_lanes (l s) : ∃ x, relight l s = { s with lanes := x } := modLanes_lanes ..

theorem portStopping_links (l s) : ∃ x y, portStopping l s = { s with links := x, lanes := y } := by
  unfold portStopping
  extract_lets k
  split
  · exact ⟨_, _, rfl⟩
  · obtain ⟨y, hy⟩ := relight_lanes l (setLink s l { k with nego := false, failAt := none })
    exact ⟨_, y, hy⟩

theorem qpCancel_gw (q st s) : ∃ g, HostOnly { s with gw := g } (qpCancel q st s) :=
  ⟨_, HostOnly.foldl (fun s (o : GwOut) => complete_host o.d st 0 s) ..⟩

/-- The instances, the Larder and the bytes of the array memories: what no work at a transition changes but that of a port, whose queue
pairs stop with it. -/
def homeOf (s : State) : Tbl Fn × Larder × Tbl Byte := (s.fns, s.larder, s.work.mem)

theorem homeOf_eq_iff {s t : State} : homeOf t = homeOf s ↔ t.fns = s.fns ∧ t.larder = s.larder ∧ t.work.mem = s.work.mem := by
  simp [homeOf]

theorem fnOf_of_fns {s t : State} (h : t.fns = s.fns) (f : FnId) : fnOf t f = fnOf s f := by
  simp [fnOf, h]

theorem fnOf_of_homeOf {s t : State} (h : homeOf t = homeOf s) (f : FnId) : fnOf t f = fnOf s f :=
  fnOf_of_fns (homeOf_eq_iff.mp h).1 f

theorem HostOnly.homeOf {s t : State} (h : HostOnly s t) : Machine.homeOf t = Machine.homeOf s := by
  obtain ⟨_, _, _, rfl⟩ := h
  rfl

theorem HostOnly.fnOf {s t : State} (h : HostOnly s t) (f : FnId) : Machine.fnOf t f = Machine.fnOf s f := fnOf_of_homeOf h.homeOf f

theorem EnzOnly.homeOf {s t : State} (h : EnzOnly s t) : Machine.homeOf t = Machine.homeOf s := h.host.homeOf

theorem CoreOnly.homeOf {s t : State} (h : CoreOnly s t) : Machine.homeOf t = Machine.homeOf s := by
  obtain ⟨_, _, _, _, rfl⟩ := h
  rfl

theorem homeOf_ite {c : Prop} [Decidable c] {s a b : State} (ha : homeOf a = homeOf s) (hb : homeOf b = homeOf s) :
    homeOf (if c then a else b) = homeOf s := by
  split
  · exact ha
  · exact hb

theorem homeOf_foldl {α : Type} {f : State → α → State} (h : ∀ s x, homeOf (f s x) = homeOf s) :
    ∀ (l : List α) (s : State), homeOf (l.foldl f s) = homeOf s
  | [], _ => rfl
  | x :: l, s => (homeOf_foldl h l (f s x)).trans (h s x)

theorem homeOf_relight (l s) : homeOf (relight l s) = homeOf s := by
  obtain ⟨x, hx⟩ := relight_lanes l s
  rw [hx]
  rfl

/-! ### On entry to Starting -/

theorem homeOf_groupReserve (g s) : homeOf (groupReserve g s) = homeOf s := homeOf_ite rfl rfl

theorem bindPage_host (k t s) : HostOnly s (bindPage k t s) := by
  unfold bindPage
  split
  · exact .rfl s
  · exact ⟨_, _, _, rfl⟩

theorem homeOf_kernelStarting (k s) : homeOf (kernelStarting k s) = homeOf s :=
  homeOf_ite ((hostRead_enz ..).homeOf.trans rfl) rfl

theorem homeOf_qpStarting (q s) : homeOf (qpStarting q s) = homeOf s := by
  unfold qpStarting
  extract_lets
  split
  · rfl
  · rfl

theorem homeOf_startHook (f n s) : homeOf (startHook f n s) = homeOf s := by
  cases f with
  | port l => exact homeOf_relight ..
  | sq i => exact (putSqCons_host ..).homeOf.trans rfl
  | cq i => exact (zeroPut_enz ..).homeOf.trans rfl
  | ev => exact (zeroPut_enz ..).homeOf.trans rfl
  | group g => exact (homeOf_groupReserve ..).trans (bindPage_host ..).homeOf
  | stream k => rfl
  | kernel k => exact homeOf_kernelStarting ..
  | qp q => exact homeOf_qpStarting ..

/-! ### On entry to Stopping -/

theorem homeOf_recordSeg (k p g st s) : homeOf (recordSeg k p g st s) = homeOf s := by
  unfold recordSeg
  extract_lets t
  split
  · rfl
  · split
    · rfl
    · split
      · exact (complete_host ..).homeOf.trans rfl
      · rfl

theorem homeOf_skipSeg (k p g st s) : homeOf (skipSeg k p g st s) = homeOf s :=
  (homeOf_recordSeg ..).trans ((hostPut_enz ..).homeOf.trans rfl)

theorem homeOf_streamStop (st k s) : homeOf (streamStop st k s) = homeOf s :=
  (homeOf_foldl (fun s _ => homeOf_foldl (fun s _ => homeOf_skipSeg _ _ _ _ s) _ s) ..).trans
    ((HostOnly.foldl (fun s _ => complete_host _ _ _ s) ..).homeOf.trans rfl)

theorem homeOf_reportRun (k v r bs s) : homeOf (reportRun k v r bs s) = homeOf s := by
  unfold reportRun
  extract_lets t
  have ht : homeOf t = homeOf s := rfl
  split
  · exact (complete_host ..).homeOf.trans rfl
  · split
    · exact ht
    · extract_lets
      split
      next h => exact (sendItem_core h).homeOf.trans ht
      · exact (raiseEv_host ..).homeOf.trans rfl
  · exact homeOf_ite ((inject_core ..).homeOf.trans ht) ((sendFail_core ..).homeOf.trans ht)

theorem homeOf_freeThreads (k n s) : homeOf (freeThreads k n s) = homeOf s := rfl

theorem homeOf_modKernel (k f s) : homeOf (modKernel k f s) = homeOf s := rfl

theorem homeOf_endRun (k r bs s) : homeOf (endRun k r bs s) = homeOf s :=
  (homeOf_reportRun ..).trans ((homeOf_modKernel ..).trans (homeOf_freeThreads ..))

theorem homeOf_kernelStopping (k st s) : homeOf (kernelStopping k st s) = homeOf s :=
  homeOf_foldl (fun s _ => homeOf_endRun _ _ _ s) ..

theorem homeOf_qpCancel (q st s) : homeOf (qpCancel q st s) = homeOf s := by
  obtain ⟨g, hg⟩ := qpCancel_gw q st s
  exact hg.homeOf

/-- The work of every function but a port, on entry to Stopping. -/
theorem homeOf_stopHook {f : FnId} (hf : isPort f = false) (st s) : homeOf (stopHook f st s) = homeOf s := by
  cases f with
  | port l => cases hf
  | sq i => exact (cancelFetched_host ..).homeOf
  | stream k => exact homeOf_streamStop ..
  | kernel k => exact homeOf_kernelStopping ..
  | qp q => exact homeOf_qpCancel ..
  | cq i => rfl
  | ev => rfl
  | group g => rfl

/-! ### On leaving Stopping -/

theorem homeOf_setPool (s : State) (n m : Nat) : homeOf { s with hawk.grains := n, hawk.spill := m } = homeOf s := rfl

theorem homeOf_setGroup (s g v) : homeOf (setGroup s g v) = homeOf s := rfl

theorem homeOf_offHook (f s) : homeOf (offHook f s) = homeOf s := by
  cases f with
  | port l => exact homeOf_relight ..
  | sq i => exact (consumerPut_enz ..).homeOf.trans ((setSq_host ..).homeOf.trans (auditRing_host ..).homeOf)
  | group g => exact (homeOf_setGroup ..).trans (homeOf_setPool ..)
  | stream k => exact (bump_host ..).homeOf.trans rfl
  | kernel k => rfl
  | cq i => rfl
  | ev => rfl
  | qp q => rfl

/-! ### A port, whose queue pairs stop with it (R601, R623, R791) -/

/-- Of the instances only queue pairs change, and else only the gateway, the Enzen link, the rings and the counts. -/
def QpsOnly (s t : State) : Prop :=
  (∃ f g, HostOnly { s with fns := f, gw := g } t) ∧ ∀ x, (∀ q, x ≠ .qp q) → fnOf t x = fnOf s x

theorem QpsOnly.of_gw {s t : State} {g : Gateway} (h : HostOnly { s with gw := g } t) : QpsOnly s t :=
  ⟨⟨s.fns, g, h⟩, fun x _ => h.fnOf x⟩

theorem QpsOnly.trans {s t u : State} (h : QpsOnly s t) (k : QpsOnly t u) : QpsOnly s u := by
  obtain ⟨⟨f, g, _, _, _, rfl⟩, hx⟩ := h
  obtain ⟨⟨f', g', _, _, _, rfl⟩, kx⟩ := k
  exact ⟨⟨f', g', _, _, _, rfl⟩, fun x hq => (kx x hq).trans (hx x hq)⟩

theorem QpsOnly.foldl {α : Type} {f : State → α → State} (h : ∀ s x, QpsOnly s (f s x)) :
    ∀ (l : List α) (s : State), QpsOnly s (l.foldl f s)
  | [], s => .of_gw (.rfl s)
  | x :: l, s => (h s x).trans (foldl h l (f s x))

theorem setFn_qps (s q v) : QpsOnly s (setFn s (.qp q) v) :=
  ⟨⟨_, s.gw, .rfl _⟩, fun _ hx => fnOf_setFn_ne (hx q) s v⟩

theorem qpToStopping_qps (q s) : QpsOnly s (qpToStopping q s) := by
  unfold qpToStopping
  extract_lets fn
  split
  · obtain ⟨g, hg⟩ := qpCancel_gw q stCancelled (setFn s (.qp q) { fn with st := .stopping, since := s.tick.elapsed })
    exact (setFn_qps ..).trans (.of_gw hg)
  · split
    · exact setFn_qps ..
    · exact .of_gw (.rfl s)

theorem gwEnd_qps (q d st s) : QpsOnly s (gwEnd q d st s) := .of_gw (complete_host ..)

theorem modQp_qps (q f s) : QpsOnly s (modQp q f s) := .of_gw (.rfl _)

theorem modEth_qps (l f s) : QpsOnly s (modEth l f s) := .of_gw (.rfl _)

theorem ethPortDown_qps (l s) : QpsOnly s (ethPortDown l s) :=
  (modEth_qps ..).trans (.foldl (fun _ _ => (qpToStopping_qps ..).trans ((modQp_qps ..).trans
    (.foldl (fun s (o : GwOut) => gwEnd_qps _ o.d stLinkLost s) ..))) _ _)

/-- On entry to Stopping a port leaves the Larder and the Workroom alone, and of the instances it stops queue pairs alone. -/
theorem stopHook_port (l st s) : (∀ x, (∀ q, x ≠ .qp q) → fnOf (stopHook (.port l) st s) x = fnOf s x)
    ∧ (stopHook (.port l) st s).larder = s.larder ∧ (stopHook (.port l) st s).work = s.work := by
  simp only [stopHook]
  split
  next h =>
    obtain ⟨⟨f, g, _, _, _, he⟩, hx⟩ := ethPortDown_qps ⟨l.val - 80, by have := l.isLt; omega⟩ s
    obtain ⟨y, hy⟩ := relight_lanes l (ethPortDown ⟨l.val - 80, by have := l.isLt; omega⟩ s)
    rw [hy]
    exact ⟨hx, by rw [he], by rw [he]⟩
  · obtain ⟨x, y, hxy⟩ := portStopping_links l s
    rw [hxy]
    exact ⟨fun _ _ => rfl, rfl, rfl⟩

/-- On entry to Stopping no function but a queue pair changes, and queue pairs only with a port. -/
theorem fnOf_stopHook {f g : FnId} (h : isPort f = false ∨ ∀ q, g ≠ .qp q) (st s) : fnOf (stopHook f st s) g = fnOf s g := by
  by_cases hf : isPort f = false
  · exact fnOf_of_homeOf (homeOf_stopHook hf st s) g
  · cases f with
    | port l => exact (stopHook_port l st s).1 g (h.resolve_left hf)
    | _ => exact absurd rfl hf

end Machine
end Sys2Proof
end

section
/-!
PROOF. What each transition of Table 3-6 makes of its function, and of the descriptors that wait for it.
-/
namespace Sys2Proof
namespace Machine

/-! ### Descriptors in flight -/

theorem flightOf_eq_none {s : State} {d : DRef} : flightOf s d = none ↔ ∀ f ∈ s.rings.flight, f.ref ≠ d := by
  simp [flightOf]

theorem flightOf_of_rings {s t : State} (h : t.rings.flight = s.rings.flight) (d : DRef) : flightOf t d = flightOf s d := by
  simp [flightOf, h]

theorem flightOf_complete_self (d st r s) : flightOf (complete d st r s) d = none := by
  simp [flightOf_eq_none, complete_flight]

/-- No completion puts a descriptor in flight. -/
theorem flightOf_completeGen_none {s : State} {e : DRef} (h : flightOf s e = none) (d st g) :
    flightOf (completeGen d st g s) e = none := by
  rw [flightOf_eq_none] at h ⊢
  unfold completeGen
  rw [complete_flight]
  intro f hf
  obtain ⟨f', hf', rfl⟩ := List.mem_map.mp (List.mem_of_mem_filter hf)
  have := h f' hf'
  split <;> exact this

theorem flightOf_completeAll_none {s : State} {e : DRef} (h : flightOf s e = none) (ds st g) :
    flightOf (completeAll ds st g s) e = none := by
  induction ds generalizing s with
  | nil => exact h
  | cons d ds ih => exact ih (flightOf_completeGen_none h d st g)

/-- Every descriptor of the list has left flight. -/
theorem flightOf_completeAll_mem {d : DRef} {ds : List DRef} (h : d ∈ ds) (st g s) :
    flightOf (completeAll ds st g s) d = none := by
  induction ds generalizing s with
  | nil => cases h
  | cons e ds ih =>
    rcases List.mem_cons.mp h with rfl | h
    · exact flightOf_completeAll_none (flightOf_complete_self ..) ds st g
    · exact ih h (completeGen e st g s)

theorem flightOf_modFlight {g : InFlight → InFlight} (hg : ∀ f, (g f).ref = f.ref) (d : DRef) (s : State) :
    flightOf (modFlight d g s) d = (flightOf s d).map g := by
  unfold flightOf modFlight
  induction s.rings.flight with
  | nil => rfl
  | cons f t ih =>
    by_cases h : f.ref = d
    · simp [h, hg]
    · simpa [h] using ih

/-- Of the state before, only the Enzen link, the rings and the counts differ, and the descriptor has left flight. -/
def Ended (s : State) (d : DRef) (t : State) : Prop := flightOf t d = none ∧ HostOnly s t

theorem ended_complete {s u : State} (h : HostOnly s u) (d st r) : Ended s d (complete d st r u) :=
  ⟨flightOf_complete_self .., h.trans (complete_host ..)⟩

theorem ended_completeAll {s u : State} (h : HostOnly s u) (d st g) : Ended s d (completeAll [d] st g u) :=
  ⟨flightOf_completeAll_mem List.mem_cons_self .., h.trans (completeAll_host ..)⟩

/-! ### Starting and stopping a function -/

theorem rings_groupReserve (g s) : (groupReserve g s).rings = s.rings := by
  unfold groupReserve
  extract_lets v
  split <;> rfl

theorem rings_bindPage (k t s) : (bindPage k t s).rings = s.rings := by
  unfold bindPage
  split <;> rfl

/-- No work on entry to Starting takes a descriptor into flight or out of it. -/
theorem flight_startHook (f n s) : (startHook f n s).rings.flight = s.rings.flight := by
  cases f with
  | port l =>
    obtain ⟨x, hx⟩ := relight_lanes l s
    simp only [startHook, hx]
  | sq i =>
    simp only [startHook, putSqCons]
    split
    · rfl
    · rw [(consumerPut_enz ..).rings_eq]
      rfl
  | cq i => exact (congrArg Rings.flight (zeroPut_enz ..).rings_eq).trans rfl
  | ev => exact (congrArg Rings.flight (zeroPut_enz ..).rings_eq).trans rfl
  | group g =>
    simp only [startHook, rings_groupReserve]
    exact congrArg Rings.flight (rings_bindPage ..)
  | stream k => rfl
  | kernel k =>
    simp only [startHook, kernelStarting]
    split
    · exact congrArg Rings.flight (hostRead_enz ..).rings_eq
    · rfl
  | qp q =>
    simp only [startHook, qpStarting]
    split <;> rfl

theorem homeOf_fnStart (f n ds s) : homeOf (fnStart f n ds s) = homeOf (setFn s f
    { fnOf s f with st := .starting, gen := (fnOf s f).gen + 1, pend := false, recDis := false, since := s.tick.elapsed,
                    due := prepDue s, onWait := ds, pendWait := [] }) := homeOf_startHook ..

theorem flight_fnStart (f n ds s) : (fnStart f n ds s).rings.flight = s.rings.flight := flight_startHook ..

/-- Starting takes the function to its next generation (R76). -/
theorem fnOf_fnStart (f n ds s) : fnOf (fnStart f n ds s) f =
    { fnOf s f with st := .starting, gen := (fnOf s f).gen + 1, pend := false, recDis := false, since := s.tick.elapsed,
                    due := prepDue s, onWait := ds, pendWait := [] } :=
  (fnOf_of_homeOf (homeOf_fnStart f n ds s) f).trans (fnOf_setFn_of_st f s nofun)

theorem fnStart_others (f n ds s) : OtherFns f s (fnStart f n ds s) := fun g h =>
  (fnOf_of_homeOf (homeOf_fnStart f n ds s) g).trans (fnOf_setFn_ne h s _)

theorem fnStart_mems (f n ds s) : (fnStart f n ds s).larder = s.larder ∧ (fnStart f n ds s).work.mem = s.work.mem :=
  (homeOf_eq_iff.mp (homeOf_fnStart f n ds s)).2

theorem fnOf_fnStop (f st s) : fnOf (fnStop f st s) f =
    { fnOf s f with st := .stopping, recDis := false, since := s.tick.elapsed, due := prepDue s } := by
  have hset : fnOf (setFn s f { fnOf s f with st := .stopping, recDis := false, since := s.tick.elapsed, due := prepDue s }) f =
    { fnOf s f with st := .stopping, recDis := false, since := s.tick.elapsed, due := prepDue s } := fnOf_setFn_of_st f s nofun
  refine (fnOf_stopHook ?_ ..).trans hset
  cases f with
  | port l => exact .inr nofun
  | _ => exact .inl rfl

/-- A stop changes no other function, but queue pairs where a port stops. -/
theorem fnOf_fnStop_ne {f g : FnId} (hg : g ≠ f) (h : isPort f = false ∨ ∀ q, g ≠ .qp q) (st s) :
    fnOf (fnStop f st s) g = fnOf s g :=
  (fnOf_stopHook h ..).trans (fnOf_setFn_ne hg s _)

/-- A stop keeps the generation and the disables that wait for Off (R76, R79, R813). -/
theorem fnStop_spec (f st s) :
    let t := fnStop f st s
    fnSt t f = .stopping ∧ fnGen t f = fnGen s f ∧ (fnOf t f).recDis = false ∧ (fnOf t f).offWait = (fnOf s f).offWait
      ∧ ∀ g, g ≠ f → (isPort f = false ∨ ∀ q, g ≠ .qp q) → fnOf t g = fnOf s g :=
  have hself := fnOf_fnStop f st s
  ⟨congrArg Fn.st hself, (congrArg Fn.gen hself :), congrArg Fn.recDis hself, (congrArg Fn.offWait hself :),
    fun _ hg hq => fnOf_fnStop_ne hg hq ..⟩

/-! ### Enables and disables, by the state of the function (Table 3-6) -/

/-- Each descriptor of the list waits for one more piece of work. -/
def waitOn (ds : List DRef) (s : State) : State := ds.foldl (fun s d => addWaits d 1 s) s

theorem waitOn_rings (ds s) : ∃ x, waitOn ds s = { s with rings := x } := by
  unfold waitOn
  induction ds generalizing s with
  | nil => exact ⟨_, rfl⟩
  | cons d ds ih =>
    obtain ⟨x, hx⟩ := ih (addWaits d 1 s)
    exact ⟨x, hx⟩

theorem fnEnable_pending {f : FnId} {s : State} (hs : fnSt s f = .off) (hp : (fnOf s f).pend = true) (d n) :
    fnEnable f d n s = waitOn d.toList (setFn s f { fnOf s f with pendWait := (fnOf s f).pendWait ++ d.toList }) := by
  unfold fnSt at hs
  simp [fnEnable, waitOn, hs, hp]

theorem fnEnable_refused {f : FnId} {s : State} {n : Nat} {st : BitVec 8} (hs : fnSt s f = .off) (hp : (fnOf s f).pend = false)
    (hr : enableRefusal s f n = some st) (d) : fnEnable f d n s = completeAll d.toList st (fnGen s f) s := by
  unfold fnSt at hs
  simp [fnEnable, fnGen, hs, hp, hr]

theorem fnEnable_starts {f : FnId} {s : State} {n : Nat} (hs : fnSt s f = .off) (hp : (fnOf s f).pend = false)
    (hr : enableRefusal s f n = none) (d) : fnEnable f d n s = waitOn d.toList (fnStart f n d.toList s) := by
  unfold fnSt at hs
  simp [fnEnable, waitOn, hs, hp, hr]

theorem fnEnable_serving {f : FnId} {s : State} (hs : fnSt s f = .starting ∨ fnSt s f = .on) (d n) :
    fnEnable f d n s = completeAll d.toList stOk (fnGen s f) s := by
  unfold fnSt at hs
  rcases hs with hs | hs <;> simp [fnEnable, fnGen, hs]

theorem fnEnable_stopping {f : FnId} {s : State} (hs : fnSt s f = .stopping) (d n) : fnEnable f d n s =
    waitOn d.toList (setFn s f { fnOf s f with pend := true, pendWait := (fnOf s f).pendWait ++ d.toList }) := by
  unfold fnSt at hs
  simp [fnEnable, waitOn, hs]

theorem fnDisable_off {f : FnId} {s : State} (hs : fnSt s f = .off) (d) :
    fnDisable f d s = completeAll d.toList stOk (fnGen s f) s := by
  unfold fnSt at hs
  simp [fnDisable, fnGen, hs]

theorem fnDisable_starting {f : FnId} {s : State} (hs : fnSt s f = .starting) (d) : fnDisable f d s =
    waitOn d.toList (setFn s f { fnOf s f with recDis := true, offWait := (fnOf s f).offWait ++ d.toList }) := by
  unfold fnSt at hs
  simp [fnDisable, waitOn, hs]

theorem fnDisable_on {f : FnId} {s : State} (hs : fnSt s f = .on) (d) : fnDisable f d s =
    fnStop f stCancelled (waitOn d.toList (setFn s f { fnOf s f with offWait := (fnOf s f).offWait ++ d.toList })) := by
  unfold fnSt at hs
  simp [fnDisable, waitOn, hs]

theorem fnDisable_stopping {f : FnId} {s : State} (hs : fnSt s f = .stopping) (d) : fnDisable f d s =
    completeAll (fnOf s f).pendWait stCancelled (fnGen s f) (waitOn d.toList
      (setFn s f { fnOf s f with pend := false, pendWait := [], offWait := (fnOf s f).offWait ++ d.toList })) := by
  unfold fnSt at hs
  simp [fnDisable, fnGen, waitOn, hs]

/-- A change of a function that waits for its boundary: only the instances and the rings differ. -/
theorem waitOn_setFn_spec (f : FnId) (s : State) {v : Fn} (hv : v.st ≠ .off ∨ v.pend = true) (ds : List DRef) :
    let t := waitOn ds (setFn s f v)
    fnOf t f = v ∧ OtherFns f s t ∧ t = { s with fns := t.fns, rings := t.rings } := by
  obtain ⟨y, hy⟩ := waitOn_rings ds (setFn s f v)
  rw [hy]
  exact ⟨hv.elim (fnOf_setFn_of_st f s) (fnOf_setFn_of_pend f s), fun g hg => fnOf_setFn_ne hg s v, rfl⟩

/-- An enable of a function that is Off starts it under its next generation (R76). -/
theorem fnEnable_starts_spec {f : FnId} {s : State} {n : Nat} (hs : fnSt s f = .off) (hp : (fnOf s f).pend = false)
    (hr : enableRefusal s f n = none) (d : Option DRef) :
    let t := fnEnable f d n s
    fnSt t f = .starting ∧ fnGen t f = fnGen s f + 1 ∧ (fnOf t f).onWait = d.toList ∧ OtherFns f s t
      ∧ t.larder = s.larder ∧ t.work.mem = s.work.mem := by
  have hself := fnOf_fnStart f n d.toList s
  obtain ⟨hlarder, hmem⟩ := fnStart_mems f n d.toList s
  rw [fnEnable_starts hs hp hr]
  obtain ⟨y, hy⟩ := waitOn_rings d.toList (fnStart f n d.toList s)
  rw [hy]
  exact ⟨congrArg Fn.st hself, congrArg Fn.gen hself, congrArg Fn.onWait hself, fun g hg => fnStart_others f n _ s g hg, hlarder, hmem⟩

theorem fnEnable_pending_spec {f : FnId} {s : State} (hs : fnSt s f = .off) (hp : (fnOf s f).pend = true) (d : Option DRef) (n) :
    let t := fnEnable f d n s
    fnOf t f = { fnOf s f with pendWait := (fnOf s f).pendWait ++ d.toList }
      ∧ OtherFns f s t ∧ t = { s with fns := t.fns, rings := t.rings } := by
  rw [fnEnable_pending hs hp]
  refine waitOn_setFn_spec f s ?_ _
  exact .inr hp

/-- An enable in Stopping is recorded (R77). -/
theorem fnEnable_stopping_spec {f : FnId} {s : State} (hs : fnSt s f = .stopping) (d : Option DRef) (n) :
    let t := fnEnable f d n s
    fnOf t f = { fnOf s f with pend := true, pendWait := (fnOf s f).pendWait ++ d.toList }
      ∧ OtherFns f s t ∧ t = { s with fns := t.fns, rings := t.rings } := by
  rw [fnEnable_stopping hs]
  exact waitOn_setFn_spec f s (.inr rfl) _

/-- A disable in Starting is recorded (R78). -/
theorem fnDisable_starting_spec {f : FnId} {s : State} (hs : fnSt s f = .starting) (d : Option DRef) :
    let t := fnDisable f d s
    fnOf t f = { fnOf s f with recDis := true, offWait := (fnOf s f).offWait ++ d.toList }
      ∧ OtherFns f s t ∧ t = { s with fns := t.fns, rings := t.rings } := by
  rw [fnDisable_starting hs]
  refine waitOn_setFn_spec f s ?_ _
  exact .inl (fun e => nomatch hs.symm.trans e)

/-- A disable in On stops the function under its generation (R79); the queue pairs of a port may stop with it. -/
theorem fnDisable_on_spec {f : FnId} {s : State} (hs : fnSt s f = .on) (d : Option DRef) :
    let t := fnDisable f d s
    fnSt t f = .stopping ∧ fnGen t f = fnGen s f ∧ (fnOf t f).offWait = (fnOf s f).offWait ++ d.toList
      ∧ ∀ g, g ≠ f → (isPort f = false ∨ ∀ q, g ≠ .qp q) → fnOf t g = fnOf s g := by
  obtain ⟨hself, hothers, -⟩ := waitOn_setFn_spec f s (v := { fnOf s f with offWait := (fnOf s f).offWait ++ d.toList })
    (.inl (fun e => nomatch hs.symm.trans e)) d.toList
  rw [fnDisable_on hs]
  obtain ⟨hst, hgen, -, hwait, hne⟩ := fnStop_spec f stCancelled (waitOn d.toList
    (setFn s f { fnOf s f with offWait := (fnOf s f).offWait ++ d.toList }))
  exact ⟨hst, hgen.trans (congrArg Fn.gen hself :), hwait.trans (congrArg Fn.offWait hself :),
    fun g hg hq => (hne g hg hq).trans (hothers g hg)⟩

/-- A disable in Stopping drops a pending enable (R78). -/
theorem fnDisable_stopping_spec {f : FnId} {s : State} (hs : fnSt s f = .stopping) (d : Option DRef) :
    let t := fnDisable f d s
    fnOf t f = { fnOf s f with pend := false, pendWait := [], offWait := (fnOf s f).offWait ++ d.toList }
      ∧ OtherFns f s t ∧ HostOnly { s with fns := t.fns } t := by
  obtain ⟨hself, hothers, heq⟩ := waitOn_setFn_spec f s
    (v := { fnOf s f with pend := false, pendWait := [], offWait := (fnOf s f).offWait ++ d.toList })
    (.inl (fun e => nomatch hs.symm.trans e)) d.toList
  rw [fnDisable_stopping hs]
  generalize waitOn d.toList _ = u at hself hothers heq ⊢
  have hc := completeAll_host (fnOf s f).pendWait stCancelled (fnGen s f) u
  refine ⟨(hc.fnOf f).trans hself, fun g hg => (hc.fnOf g).trans (hothers g hg), ?_⟩
  generalize completeAll _ _ _ _ = t at hc ⊢
  obtain ⟨_, _, _, rfl⟩ := hc
  rw [heq]
  exact ⟨_, _, _, rfl⟩

end Machine
end Sys2Proof
end

section
/-!
PROOF. The descriptors that enable and disable a function (R76 to R79, R682, R813): each clause of FunctionDescriptors from the
transition that the descriptor's row makes.
-/
namespace Sys2Proof
namespace Machine

/-! ### What each row does once its checks hold -/

/-- The descriptor has started and reports the generation of the function that it names (R80). -/
def startedAt (d : DRef) (x : FnId) (s : State) : State := modFlight d (fun g => { g with gen := fnGen s x }) (started d s)

theorem startedAt_host (d x s) : HostOnly s (startedAt d x s) := ⟨_, _, _, rfl⟩

theorem flightOf_startedAt {s : State} {d : DRef} {f : InFlight} (h : flightOf s d = some f) (x : FnId) :
    flightOf (startedAt d x s) d = some { f with stage := .started, gen := fnGen s x } := by
  have hstart : flightOf (started d s) d = some { f with stage := .started } := by
    rw [started, flightOf_modFlight (by exact fun _ => rfl), h]
    rfl
  rw [startedAt, flightOf_modFlight (by exact fun _ => rfl), hstart]
  rfl

theorem withDesc_of_startable {s : State} {d : DRef} {op : BitVec 8} {f : InFlight} (h : Startable s d op f) (body) :
    withDesc d op s body = body f (started d s) := by
  obtain ⟨hf, hm, ho⟩ := h
  simp [withDesc, started, hf, hm, ho]

/-- The check of target_gen is passed (R81). -/
theorem genOk_startedAt {s : State} {f : InFlight} {x : FnId} (h : dGen f.desc = fnGen s x) (d : DRef) :
    ¬ (!genOk (startedAt d x s) f x) = true := by
  simp [genOk, h, show fnGen (startedAt d x s) x = fnGen s x from rfl]

theorem ringDesc_eq {s : State} {f : InFlight} {x : FnId} (ht : ringTarget f = some x) (ha : isAdminRing x = false)
    (hg : dGen f.desc = fnGen s x) (d body) : ringDesc d f (started d s) body = body x (startedAt d x s) := by
  rw [ringDesc, ht]
  exact (if_neg (genOk_startedAt hg d)).trans (if_neg (by simp [ha]))

theorem withGroup_eq {s : State} {f : InFlight} {g : Fin 1024} (ht : groupTarget f = some g) {gen : Bool}
    (hg : gen = true → dGen f.desc = fnGen s (.group g)) (hten : gTenant (gEntry s g) = dTenant s f) (d body) :
    withGroup d f gen (started d s) body = body g (startedAt d (.group g) s) := by
  have hgen : ¬ (gen && !genOk (startedAt d (.group g) s) f (.group g)) = true := fun h =>
    have ⟨htrue, hstale⟩ := Bool.and_eq_true_iff.mp h
    genOk_startedAt (hg htrue) d hstale
  rw [withGroup, ht]
  exact (if_neg hgen).trans (if_neg (not_not_intro hten))

theorem withStream_eq {s : State} {f : InFlight} {k : Fin 64} (ht : streamTarget f = some k)
    (hg : dGen f.desc = fnGen s (.stream k)) (hten : (streamOf' s k).tenant = some (dTenant s f)) (d body) :
    withStream d f true true (started d s) body = body k (startedAt d (.stream k) s) := by
  have hbound : ¬ (true && decide ((streamOf' s k).tenant ≠ some (dTenant s f))) = true := by simp [hten]
  rw [withStream, ht]
  exact (if_neg (genOk_startedAt hg d)).trans (if_neg hbound)

theorem withKernel_eq {s : State} {f : InFlight} {k : Fin 256} (ht : kernelTarget f = some k)
    (hg : dGen f.desc = fnGen s (.kernel k)) (hl : (kernelAt s k).loaded = true) (hten : (kernelAt s k).tenant = dTenant s f) (d body) :
    withKernel d f true (started d s) body = body k (startedAt d (.kernel k) s) := by
  have hbound : ¬ (true && (!(kernelAt s k).loaded || decide ((kernelAt s k).tenant ≠ dTenant s f))) = true := by simp [hl, hten]
  rw [withKernel, ht]
  exact (if_neg (genOk_startedAt hg d)).trans (if_neg hbound)

theorem withQp_eq {s : State} {f : InFlight} {q : Fin 16384} (ht : qpTarget f = some q)
    (hg : dGen f.desc = fnGen s (.qp q)) (hc : (qpOf s q).ctx.isSome = true) (hten : (qpOf s q).tenant = dTenant s f) (d body) :
    withQp d f true (started d s) body = body q (startedAt d (.qp q) s) := by
  have hbound : ¬ (true && ((qpOf s q).ctx.isNone || decide ((qpOf s q).tenant ≠ dTenant s f))) = true := by
    simp [Option.isSome_iff_ne_none.mp hc, hten]
  rw [withQp, ht]
  exact (if_neg (genOk_startedAt hg d)).trans (if_neg hbound)

/-! ### The rows that enable -/

/-- res_grains of the descriptor, which a group's enable alone reads (R429). -/
def resGrains (f : InFlight) : Nat := fld f.desc 192 16

/-- The enable of the function needs a key (R682). -/
def needsKey : FnId → Bool
  | .group _ | .stream _ | .kernel _ | .qp _ => true
  | _ => false

/-- RING_ENABLE and RING_DISABLE name submission and completion rings alone. -/
theorem ringTarget_cases {f : InFlight} {x : FnId} (h : ringTarget f = some x) : (∃ i, x = .sq i) ∨ ∃ i, x = .cq i := by
  unfold ringTarget at h
  extract_lets t i at h
  split at h
  · cases h
  · split at h
    · cases h
      exact .inr ⟨i, rfl⟩
    · cases h
      exact .inl ⟨i, rfl⟩

theorem needsKey_of_ringTarget {f : InFlight} {x : FnId} (h : ringTarget f = some x) : needsKey x = false := by
  rcases ringTarget_cases h with ⟨i, rfl⟩ | ⟨i, rfl⟩ <;> rfl

/-- An enable that needs no key is not refused (R682). -/
theorem enableRefusal_of_keyless {x : FnId} (h : needsKey x = false) (s n) : enableRefusal s x n = none := by
  cases x with
  | group _ | stream _ | kernel _ | qp _ => cases h
  | _ => rfl

/-- In Lockdown no enable that needs a key goes through (R682). -/
theorem unlocked_of_enableRefusal {s : State} {x : FnId} {n : Nat} (h : enableRefusal s x n = none) :
    locked s = false ∨ needsKey x = false := by
  cases hl : locked s with
  | false => exact .inl rfl
  | true =>
    cases x with
    | group _ | stream _ | kernel _ | qp _ => simp [enableRefusal, hl] at h
    | _ => exact .inr rfl

/-- No refusal of an enable depends on the rings. -/
theorem enableRefusal_startedAt (d y s x n) : enableRefusal (startedAt d y s) x n = enableRefusal s x n := by
  cases x <;> rfl

/-- What GROUP_ENABLE does with a group whose entry is valid and whose tenant is right (R428 to R431, R682). -/
def enableGroup (d : DRef) (f : InFlight) (g : Fin 1024) (s : State) : State :=
  if fnSt s (.group g) = .starting || fnSt s (.group g) = .on then fnEnable (.group g) (some d) 0 s
  else if locked s then complete d stHalt 0 s
  else if !groupEnableOk s g (resGrains f) then complete d stBad 0 s
  else fnEnable (.group g) (some d) (resGrains f) s

theorem exec_groupEnable {s : State} {d : DRef} {f : InFlight} {g : Fin 1024} (hs : Startable s d 0x20 f)
    (ht : groupTarget f = some g) (hv : gValid (gEntry s g) = true) (hten : gTenant (gEntry s g) = dTenant s f) :
    exec (.groupEnable d) s = .next (enableGroup d f g (startedAt d (.group g) s)) := by
  have hv' : ¬ (!gValid (gEntry s g)) = true := by simp [hv]
  refine congrArg Host.Outcome.next ?_
  rw [withDesc_of_startable hs, groupEnable, ht]
  exact (if_neg hv').trans (withGroup_eq ht (gen := false) nofun hten d _)

theorem exec_streamEnable {s : State} {d : DRef} {f : InFlight} {k : Fin 64} (hs : Startable s d 0x31 f)
    (ht : streamTarget f = some k) (hp : (streamOf' s k).program ≠ []) (hg : dGen f.desc = fnGen s (.stream k))
    (hten : (streamOf' s k).tenant = some (dTenant s f)) :
    exec (.streamEnable d) s = .next (enableDesc (.stream k) d (startedAt d (.stream k) s)) := by
  have hp' : ¬ (streamOf' s k).program.isEmpty = true := by simp [hp]
  refine congrArg Host.Outcome.next ?_
  rw [withDesc_of_startable hs, ht]
  exact (if_neg hp').trans (withStream_eq ht hg hten d _)

theorem exec_kernelEnable {s : State} {d : DRef} {f : InFlight} {k : Fin 256} (hs : Startable s d 0x41 f)
    (ht : kernelTarget f = some k) (hl : (kernelAt s k).loaded = true) (hg : dGen f.desc = fnGen s (.kernel k))
    (hten : (kernelAt s k).tenant = dTenant s f) :
    exec (.kernelEnable d) s = .next (enableDesc (.kernel k) d (startedAt d (.kernel k) s)) :=
  congrArg Host.Outcome.next ((withDesc_of_startable hs _).trans (withKernel_eq ht hg hl hten d _))

theorem exec_qpEnable {s : State} {d : DRef} {f : InFlight} {q : Fin 16384} (hs : Startable s d 0x61 f)
    (ht : qpTarget f = some q) (hc : (qpOf s q).ctx.isSome = true) (hg : dGen f.desc = fnGen s (.qp q))
    (hten : (qpOf s q).tenant = dTenant s f) :
    exec (.qpEnable d) s = .next (enableDesc (.qp q) d (startedAt d (.qp q) s)) :=
  congrArg Host.Outcome.next ((withDesc_of_startable hs _).trans (withQp_eq ht hg hc hten d _))

/-- Outside Lockdown the enable is that of Table 3-6. -/
theorem enableDesc_unlocked {s : State} (hl : locked s = false) (x d) : enableDesc x d s = fnEnable x (some d) 0 s := by
  simp [enableDesc, hl]

/-- res_grains counts for nothing but a group (R484). -/
theorem fnEnable_want {x : FnId} (h : ∀ g, x ≠ .group g) (d n m s) : fnEnable x d n s = fnEnable x d m s := by
  cases x with
  | group g => exact absurd rfl (h g)
  | _ => rfl

theorem enableGroup_unlocked {s : State} {f : InFlight} {g : Fin 1024} (hl : locked s = false)
    (hok : groupEnableOk s g (resGrains f) = true) (d) : enableGroup d f g s = fnEnable (.group g) (some d) (resGrains f) s := by
  unfold enableGroup
  split
  next hs =>
    have hs' : fnSt s (.group g) = .starting ∨ fnSt s (.group g) = .on := by simpa using hs
    rw [fnEnable_serving hs', fnEnable_serving hs']
  · simp [hl, hok]

/-- The row that enables a function makes the enable of Table 3-6, but in Lockdown where the enable needs a key. -/
theorem exec_enable {s : State} {d : DRef} {f : InFlight} {c : Instr} {x : FnId} (h : Enables s d f c x)
    (hk : locked s = false ∨ needsKey x = false) : exec c s = .next (fnEnable x (some d) (resGrains f) (startedAt d x s)) := by
  have hl : needsKey x = true → locked (startedAt d x s) = false := fun hx => hk.resolve_right (by simp [hx])
  unfold Enables at h
  split at h
  · obtain ⟨rfl, hs, ht, ha, hg⟩ := h
    have hr := needsKey_of_ringTarget ht
    rw [fnEnable_want (by rintro g rfl; cases hr) _ (resGrains f) 0]
    exact congrArg Host.Outcome.next ((withDesc_of_startable hs _).trans (ringDesc_eq ht ha hg _ _))
  next g =>
    obtain ⟨rfl, hs, ht, hv, hten, hok⟩ := h
    rw [exec_groupEnable hs ht hv hten, enableGroup_unlocked (hl rfl)]
    exact hok.resolve_left (by simp [hk.resolve_right nofun])
  · obtain ⟨rfl, hs, ht, hp, hg, hten⟩ := h
    rw [exec_streamEnable hs ht hp hg hten, enableDesc_unlocked (hl rfl), fnEnable_want (by simp)]
  · obtain ⟨rfl, hs, ht, hload, hg, hten⟩ := h
    rw [exec_kernelEnable hs ht hload hg hten, enableDesc_unlocked (hl rfl), fnEnable_want (by simp)]
  · obtain ⟨rfl, hs, ht, hc, hg, hten⟩ := h
    rw [exec_qpEnable hs ht hc hg hten, enableDesc_unlocked (hl rfl), fnEnable_want (by simp)]
  · cases h

/-- In Lockdown an enable that needs a key ends (R682). -/
theorem enable_locked {s : State} {d : DRef} {f : InFlight} {c : Instr} {x : FnId} (h : Enables s d f c x)
    (hl : locked s = true) (hx : needsKey x = true) : Completes c s (Ended s d) := by
  have hdesc : ∀ y, Ended s d (enableDesc y d (startedAt d x s)) := fun y => by
    rw [enableDesc, if_pos (show locked (startedAt d x s) = true from hl)]
    exact ended_complete (startedAt_host ..) ..
  unfold Enables at h
  split at h
  · obtain ⟨rfl, -, ht, -⟩ := h
    simp [needsKey_of_ringTarget ht] at hx
  next g =>
    obtain ⟨rfl, hs, ht, hv, hten, -⟩ := h
    refine ⟨_, exec_groupEnable hs ht hv hten, ?_⟩
    unfold enableGroup
    split
    next hserv =>
      rw [fnEnable_serving (by simpa using hserv)]
      exact ended_completeAll (startedAt_host ..) ..
    · rw [if_pos (show locked (startedAt _ _ s) = true from hl)]
      exact ended_complete (startedAt_host ..) ..
  · obtain ⟨rfl, hs, ht, hp, hg, hten⟩ := h
    exact ⟨_, exec_streamEnable hs ht hp hg hten, hdesc _⟩
  · obtain ⟨rfl, hs, ht, hload, hg, hten⟩ := h
    exact ⟨_, exec_kernelEnable hs ht hload hg hten, hdesc _⟩
  · obtain ⟨rfl, hs, ht, hc, hg, hten⟩ := h
    exact ⟨_, exec_qpEnable hs ht hc hg hten, hdesc _⟩
  · cases h

/-- The descriptor that enables a function is in flight. -/
theorem Enables.flight {s : State} {d : DRef} {f : InFlight} {c : Instr} {x : FnId} (h : Enables s d f c x) :
    flightOf s d = some f := by
  unfold Enables at h
  split at h
  case h_6 => cases h
  all_goals
    obtain ⟨-, ⟨hf, -⟩, -⟩ := h
    exact hf

theorem needsKey_of_enables {s : State} {d : DRef} {f : InFlight} {c : Instr} {x : FnId} (h : Enables s d f c x)
    (hx : ∀ i, x ≠ .sq i ∧ x ≠ .cq i) : needsKey x = true := by
  unfold Enables at h
  split at h
  · obtain ⟨-, -, ht, -⟩ := h
    rcases ringTarget_cases ht with ⟨i, rfl⟩ | ⟨i, rfl⟩
    · exact absurd rfl (hx i).1
    · exact absurd rfl (hx i).2
  case h_6 => cases h
  all_goals rfl

/-! ### The rows that disable -/

theorem isPort_of_disables {s : State} {d : DRef} {f : InFlight} {c : Instr} {x : FnId} (h : Disables s d f c x) :
    isPort x = false := by
  unfold Disables at h
  split at h
  · obtain ⟨-, -, ht, -⟩ := h
    rcases ringTarget_cases ht with ⟨i, rfl⟩ | ⟨i, rfl⟩ <;> rfl
  case h_6 => cases h
  all_goals rfl

theorem disableBad_startedAt (e y s d x) : disableBad (startedAt e y s) d x = disableBad s d x := by
  cases x <;> rfl

/-- The row that disables a function makes the disable of Table 3-6. -/
theorem exec_disable {s : State} {d : DRef} {f : InFlight} {c : Instr} {x : FnId} (h : Disables s d f c x) :
    exec c s = .next (fnDisable x (some d) (startedAt d x s)) := by
  unfold Disables at h
  split at h
  next e =>
    obtain ⟨rfl, hs, ht, ha, hg, hb⟩ := h
    have hb' : ¬ disableBad (startedAt e x s) e x = true := by simp [disableBad_startedAt, hb]
    exact congrArg Host.Outcome.next ((withDesc_of_startable hs _).trans ((ringDesc_eq ht ha hg _ _).trans (if_neg hb')))
  · obtain ⟨rfl, hs, ht, hg, hten⟩ := h
    exact congrArg Host.Outcome.next ((withDesc_of_startable hs _).trans (withGroup_eq ht (fun _ => hg) hten _ _))
  · obtain ⟨rfl, hs, ht, hg, hten⟩ := h
    exact congrArg Host.Outcome.next ((withDesc_of_startable hs _).trans (withStream_eq ht hg hten _ _))
  · obtain ⟨rfl, hs, ht, hl, hg, hten⟩ := h
    exact congrArg Host.Outcome.next ((withDesc_of_startable hs _).trans (withKernel_eq ht hg hl hten _ _))
  · obtain ⟨rfl, hs, ht, hc, hg, hten⟩ := h
    exact congrArg Host.Outcome.next ((withDesc_of_startable hs _).trans (withQp_eq ht hg hc hten _ _))
  · cases h

/-! ### The descriptors by the state of the function -/

/-- An enable starts a function that is Off, and its descriptor waits for On (R76, R813). -/
theorem enable_off {s : State} {d : DRef} {f : InFlight} {c : Instr} {x : FnId} (h : Enables s d f c x) (hs : fnSt s x = .off)
    (hp : (fnOf s x).pend = false) (hr : enableRefusal s x (resGrains f) = none) :
    Completes c s fun t => fnSt t x = .starting ∧ fnGen t x = fnGen s x + 1 ∧ (fnOf t x).onWait = [d]
      ∧ (∃ f', flightOf t d = some f' ∧ f'.waits = f.waits + 1) ∧ OtherFns x s t ∧ t.larder = s.larder ∧ t.work.mem = s.work.mem := by
  have hr' := (enableRefusal_startedAt d x s x (resGrains f)).trans hr
  have hflight : flightOf (fnStart x (resGrains f) [d] (startedAt d x s)) d = some { f with stage := .started, gen := fnGen s x } :=
    (flightOf_of_rings (flight_fnStart ..) d).trans (flightOf_startedAt h.flight x)
  obtain ⟨hst, hgen, hwait, hothers, hmems⟩ := fnEnable_starts_spec (s := startedAt d x s) hs hp hr' (some d)
  refine ⟨_, exec_enable h (unlocked_of_enableRefusal hr), hst, hgen, hwait, ?_, hothers, hmems⟩
  rw [fnEnable_starts (s := startedAt d x s) hs hp hr']
  exact ⟨_, (flightOf_modFlight (by exact fun _ => rfl) d _).trans (congrArg _ hflight), rfl⟩

/-- An enable that the function's chapter refuses, or that finds the part in Lockdown, ends (R430, R484, R498, R548, R682). -/
theorem enable_refused {s : State} {d : DRef} {f : InFlight} {c : Instr} {x : FnId} {st : BitVec 8} (h : Enables s d f c x)
    (hs : fnSt s x = .off) (hp : (fnOf s x).pend = false) (hr : enableRefusal s x (resGrains f) = some st) :
    Completes c s (Ended s d) := by
  have hx : needsKey x = true := by
    by_contra hn
    simp [enableRefusal_of_keyless (Bool.not_eq_true _ ▸ hn)] at hr
  cases hl : locked s with
  | true => exact enable_locked h hl hx
  | false =>
    refine ⟨_, exec_enable h (.inl hl), ?_⟩
    rw [fnEnable_refused (s := startedAt d x s) hs hp ((enableRefusal_startedAt ..).trans hr)]
    exact ended_completeAll (startedAt_host ..) ..

/-- An enable completes at once where the function is Starting or On (R813). -/
theorem enable_serving {s : State} {d : DRef} {f : InFlight} {c : Instr} {x : FnId} (h : Enables s d f c x)
    (hs : fnSt s x = .starting ∨ fnSt s x = .on) : Completes c s (Ended s d) := by
  by_cases hk : locked s = false ∨ needsKey x = false
  · refine ⟨_, exec_enable h hk, ?_⟩
    rw [fnEnable_serving (s := startedAt d x s) hs]
    exact ended_completeAll (startedAt_host ..) ..
  · simp only [not_or, Bool.not_eq_false] at hk
    exact enable_locked h hk.1 hk.2

theorem disable_off {s : State} {d : DRef} {f : InFlight} {c : Instr} {x : FnId} (h : Disables s d f c x) (hs : fnSt s x = .off) :
    Completes c s (Ended s d) := by
  refine ⟨_, exec_disable h, ?_⟩
  rw [fnDisable_off (s := startedAt d x s) hs]
  exact ended_completeAll (startedAt_host ..) ..

/-- A disable stops a function that is On, and its descriptor waits for Off (R79, R813). -/
theorem disable_on {s : State} {d : DRef} {f : InFlight} {c : Instr} {x : FnId} (h : Disables s d f c x) (hs : fnSt s x = .on) :
    Completes c s fun t => fnSt t x = .stopping ∧ fnGen t x = fnGen s x ∧ (fnOf t x).offWait = (fnOf s x).offWait ++ [d]
      ∧ OtherFns x s t := by
  obtain ⟨hst, hgen, hwait, hothers⟩ := fnDisable_on_spec (s := startedAt d x s) hs (some d)
  exact ⟨_, exec_disable h, hst, hgen, hwait, fun g hg => hothers g hg (.inl (isPort_of_disables h))⟩

/-! ### The statement -/

/-- Settles O44: each clause is the transition that Table 3-6 gives for the state of the function. -/
theorem functionDescriptors : Obligations.FunctionDescriptors := by
  unfold Obligations.FunctionDescriptors
  exact ⟨fun s d f c x h hs hp hr => enable_off h hs hp hr,
    fun s d f c x st h hs hp hr => enable_refused h hs hp hr,
    fun s d f c x h hs hp hl => ⟨_, exec_enable h (.inl hl), fnEnable_pending_spec (s := startedAt d x s) hs hp ..⟩,
    fun s d f c x h hs => enable_serving h hs,
    fun s d f c x h hs hl => ⟨_, exec_enable h (.inl hl), fnEnable_stopping_spec (s := startedAt d x s) hs ..⟩,
    fun s d f c x h hl hx => enable_locked h hl (needsKey_of_enables h hx),
    fun s d f c x h hs => disable_off h hs,
    fun s d f c x h hs => ⟨_, exec_disable h, fnDisable_starting_spec (s := startedAt d x s) hs _⟩,
    fun s d f c x h hs => disable_on h hs,
    fun s d f c x h hs => ⟨_, exec_disable h, fnDisable_stopping_spec (s := startedAt d x s) hs _⟩⟩

end Machine
end Sys2Proof
end

section
/-!
PROOF. Instances at boundaries (R75 to R77, R431, R790), the control words of ports and rings (R788 to R793) and a host reset (R141): each
clause of FunctionBoundariesAndControlWords from the transitions of Table 3-6.
-/
namespace Sys2Proof
namespace Machine

/-! ### Starting to On -/

/-- On entry to On a stream alone changes, and of it what the streams hold. -/
theorem onHook_streams (x s) : ∃ z, onHook x s = { s with streams := z } := by
  cases x <;> exact ⟨_, rfl⟩

/-- The function is On, and its enables have completed with the status of its set-up (R813, log 105). -/
def onCompleted (x : FnId) (s : State) : State :=
  completeAll (fnOf s x).onWait (setUpStatus s x) (fnGen s x)
    (setFn s x { fnOf s x with st := .on, since := s.tick.elapsed, onWait := [] })

/-- The function has entered On: where its set-up did not fail, it takes up work. -/
def enteredOn (x : FnId) (s : State) : State :=
  if setUpStatus s x = stOk then onHook x (onCompleted x s) else onCompleted x s

theorem enteredOn_spec (x : FnId) (s : State) :
    let t := enteredOn x s
    fnOf t x = { fnOf s x with st := .on, since := s.tick.elapsed, onWait := [] }
      ∧ (∀ d ∈ (fnOf s x).onWait, flightOf t d = none) ∧ OtherFns x s t ∧ HostOnly { s with fns := t.fns, streams := t.streams } t := by
  have hflight : ∀ d ∈ (fnOf s x).onWait, flightOf (onCompleted x s) d = none := fun d hd => flightOf_completeAll_mem hd ..
  have hhost : HostOnly _ (onCompleted x s) := completeAll_host ..
  have hself := (hhost.fnOf x).trans (fnOf_setFn_of_st x s nofun)
  have hothers : OtherFns x s (onCompleted x s) := fun g hg => (hhost.fnOf g).trans (fnOf_setFn_ne hg s _)
  have hframe : ∀ z, HostOnly { s with fns := (onCompleted x s).fns, streams := z } { onCompleted x s with streams := z } := fun z => by
    obtain ⟨_, _, _, hu⟩ := hhost
    rw [hu]
    exact ⟨_, _, _, rfl⟩
  unfold enteredOn
  split
  · obtain ⟨z, hz⟩ := onHook_streams x (onCompleted x s)
    rw [hz]
    exact ⟨hself, hflight, hothers, hframe z⟩
  · exact ⟨hself, hflight, hothers, hframe (onCompleted x s).streams⟩

section
variable {s : State} {x : FnId} (h0 : s.tick.slot = 0) (hs : fnSt s x = .starting) (hr : reached s (fnOf s x).due = true)
include h0 hs hr

/-- A port in which a disable is recorded stops from Starting (R790). -/
theorem functionOn_port (hp : isPort x = true) (hd : (fnOf s x).recDis = true) : functionOn x s = fnStop x stCancelled s := by
  unfold fnSt at hs
  simp [functionOn, h0, hs, hr, hp, hd]

/-- A function whose set-up is complete enters On, and stops at once where a disable was recorded or the set-up failed. -/
theorem functionOn_ready (hready : fnReady s x = true) (hport : ((fnOf s x).recDis && isPort x) = false) : functionOn x s =
    if (fnOf s x).recDis || setUpStatus s x ≠ stOk then fnStop x stCancelled (enteredOn x s) else enteredOn x s := by
  unfold fnSt at hs
  unfold functionOn
  simp only [h0, hs, hr, hport, hready]
  rfl

theorem functionOn_on (hready : fnReady s x = true) (hd : (fnOf s x).recDis = false) (hst : setUpStatus s x = stOk) :
    functionOn x s = enteredOn x s := by
  rw [functionOn_ready h0 hs hr hready (by simp [hd])]
  simp [hd, hst]

/-- The set-up of the function failed, or a disable was recorded: it is in Stopping under its generation (R790, log 105). -/
theorem functionOn_stops (h : (fnReady s x = true ∧ ((fnOf s x).recDis = true ∨ setUpStatus s x ≠ stOk))
    ∨ (isPort x = true ∧ (fnOf s x).recDis = true)) :
    let t := functionOn x s
    fnSt t x = .stopping ∧ fnGen t x = fnGen s x ∧ (fnOf t x).recDis = false ∧ (fnOf t x).offWait = (fnOf s x).offWait
      ∧ ∀ g, g ≠ x → (∀ q, g ≠ .qp q) → fnOf t g = fnOf s g := by
  by_cases hport : ((fnOf s x).recDis && isPort x) = true
  · obtain ⟨hd, hp⟩ := Bool.and_eq_true_iff.mp hport
    rw [functionOn_port h0 hs hr hp hd]
    obtain ⟨hst, hgen, hrec, hwait, hne⟩ := fnStop_spec x stCancelled s
    exact ⟨hst, hgen, hrec, hwait, fun g hg hq => hne g hg (.inr hq)⟩
  · obtain ⟨hready, hfail⟩ := h.resolve_right (fun ⟨hp, hd⟩ => hport (by simp [hp, hd]))
    obtain ⟨hself, -, hothers, -⟩ := enteredOn_spec x s
    rw [functionOn_ready h0 hs hr hready (Bool.not_eq_true _ ▸ hport), if_pos (by simpa using hfail)]
    obtain ⟨hst, hgen, hrec, hwait, hne⟩ := fnStop_spec x stCancelled (enteredOn x s)
    exact ⟨hst, hgen.trans (congrArg Fn.gen hself :), hrec, hwait.trans (congrArg Fn.offWait hself :),
      fun g hg hq => (hne g hg (.inr hq)).trans (hothers g hg)⟩

/-- A group that its reserve still lacks asks for it again (R484, log 61). -/
theorem functionOn_group_waits {g : Fin 1024} (hx : x = .group g) (hready : fnReady s x = false) :
    functionOn x s = groupReserve g (setFn s x { fnOf s x with due := prepDue s }) := by
  subst hx
  unfold fnSt at hs
  simp [functionOn, isPort, h0, hs, hr, hready]

end

theorem functionOn_not_due {s : State} {x : FnId} (h : s.tick.slot ≠ 0 ∨ fnSt s x ≠ .starting ∨ reached s (fnOf s x).due = false
    ∨ (fnReady s x = false ∧ (∀ g, x ≠ .group g) ∧ (fnOf s x).recDis = false)) : functionOn x s = s := by
  unfold fnSt at h
  rcases h with h | h | h | ⟨hready, hg, hd⟩
  · simp [functionOn, h]
  · simp [functionOn, h]
  · simp [functionOn, h]
  · cases x with
    | group g => exact absurd rfl (hg g)
    | _ => simp [functionOn, hready, hd]

/-! ### Stopping to Off, and a pending enable -/

theorem hostResetAck_enz (s) : EnzOnly s (hostResetAck s) := by
  unfold hostResetAck
  split
  · exact EnzOnly.trans ⟨_, rfl⟩ (sendFrame_enz ..)
  · exact .rfl s

/-- A function in Stopping that holds nothing more enters Off with its generation kept (R76, R813). -/
theorem functionOff_idle {s : State} {x : FnId} (h0 : s.tick.slot = 0) (hs : fnSt s x = .stopping)
    (hr : reached s (fnOf s x).due = true) (hi : fnIdle s x = true) (hw : tblWf {} s.fns = true) :
    let t := functionOff x s
    fnOf t x = { fnOf s x with st := .off, since := s.tick.elapsed, due := prepDue s, recDis := false, offWait := [] }
      ∧ (∀ d ∈ (fnOf s x).offWait, flightOf t d = none) ∧ OtherFns x s t ∧ t.larder = s.larder ∧ t.work.mem = s.work.mem := by
  have he : functionOff x s = hostResetAck (completeAll (fnOf s x).offWait stOk (fnGen s x) (offHook x (setFn s x
      { fnOf s x with st := .off, since := s.tick.elapsed, due := prepDue s, recDis := false, offWait := [] }))) := by
    unfold fnSt at hs
    simp [functionOff, fnGen, h0, hs, hr, hi]
  have hhome := (hostResetAck_enz (completeAll (fnOf s x).offWait stOk (fnGen s x) (offHook x (setFn s x
    { fnOf s x with st := .off, since := s.tick.elapsed, due := prepDue s, recDis := false, offWait := [] })))).homeOf.trans
      ((completeAll_host ..).homeOf.trans (homeOf_offHook ..))
  rw [← he] at hhome
  obtain ⟨-, hlarder, hmem⟩ := homeOf_eq_iff.mp hhome
  refine ⟨(fnOf_of_homeOf hhome x).trans (fnOf_setFn_of_wf x _ hw), fun d hd => ?_,
    fun g hg => (fnOf_of_homeOf hhome g).trans (fnOf_setFn_ne hg s _), hlarder, hmem⟩
  rw [he, flightOf_of_rings (congrArg Rings.flight (hostResetAck_enz _).rings_eq)]
  exact flightOf_completeAll_mem hd ..

/-- res_grains of the enable that waits for Off, which a group's enable alone reads (R77, R429). -/
def pendingGrains (s : State) (x : FnId) : Nat := ((fnOf s x).pendWait.head?.bind (flightOf s)).elim 0 resGrains

theorem pendStart_starts {s : State} {x : FnId} (hr : enableRefusal s x (pendingGrains s x) = none) :
    pendStart x s = fnStart x (pendingGrains s x) (fnOf s x).pendWait s := by
  unfold pendingGrains at hr ⊢
  unfold pendStart
  dsimp only
  generalize (fnOf s x).pendWait.head?.bind (flightOf s) = o at hr ⊢
  cases o with
  | none => simp [show enableRefusal s x 0 = none from hr]
  | some f => simp [resGrains, show enableRefusal s x (fld f.desc 192 16) = none from hr]

/-- A pending enable starts the function again under its next generation (R77). -/
theorem functionOff_pending {s : State} {x : FnId} (h0 : s.tick.slot = 0) (hs : fnSt s x = .off)
    (hr : reached s (fnOf s x).due = true) (hp : (fnOf s x).pend = true) (he : enableRefusal s x (pendingGrains s x) = none) :
    let t := functionOff x s
    fnSt t x = .starting ∧ fnGen t x = fnGen s x + 1 ∧ (fnOf t x).pend = false ∧ (fnOf t x).onWait = (fnOf s x).pendWait
      ∧ OtherFns x s t := by
  have heq : functionOff x s = fnStart x (pendingGrains s x) (fnOf s x).pendWait s := by
    unfold fnSt at hs
    simp [functionOff, h0, hs, hr, hp, pendStart_starts he]
  have hself := fnOf_fnStart x (pendingGrains s x) (fnOf s x).pendWait s
  rw [heq]
  exact ⟨congrArg Fn.st hself, congrArg Fn.gen hself, congrArg Fn.pend hself, congrArg Fn.onWait hself,
    fun g hg => fnStart_others x _ _ s g hg⟩

theorem functionOff_off {s : State} {x : FnId} (hs : fnSt s x = .off) (hp : (fnOf s x).pend = false) : functionOff x s = s := by
  unfold fnSt at hs
  simp [functionOff, hs, hp]

theorem functionOff_not_due {s : State} {x : FnId} (h : s.tick.slot ≠ 0 ∨ reached s (fnOf s x).due = false ∨ fnSt s x = .on
    ∨ fnSt s x = .starting ∨ (fnSt s x = .stopping ∧ fnIdle s x = false)) : functionOff x s = s := by
  unfold fnSt at h
  rcases h with h | h | h | h | ⟨h, hi⟩
  · simp [functionOff, h]
  · simp [functionOff, h]
  · simp [functionOff, h]
  · simp [functionOff, h]
  · simp [functionOff, h, hi]

theorem HostOnly.mems {s t : State} (h : HostOnly s t) : t.larder = s.larder ∧ t.work = s.work := by
  obtain ⟨_, _, _, rfl⟩ := h
  exact ⟨Eq.refl _, Eq.refl _⟩

/-! ### Control words (R788 to R793) -/

/-- A ring on entry to Starting changes the Enzen link, the rings and the counts alone. -/
theorem startHook_ring {x : FnId} (hp : isPort x = false) (hk : needsKey x = false) (n s) : HostOnly s (startHook x n s) := by
  cases x with
  | sq i => exact (setSq_host ..).trans (putSqCons_host ..)
  | cq i => exact (setCq_host ..).trans (zeroPut_enz ..).host
  | ev => exact HostOnly.trans ⟨_, _, _, rfl⟩ (zeroPut_enz ..).host
  | port l => cases hp
  | _ => cases hk

/-- A ring on entry to Stopping changes the Enzen link, the rings and the counts alone. -/
theorem stopHook_ring {x : FnId} (hp : isPort x = false) (hk : needsKey x = false) (st s) : HostOnly s (stopHook x st s) := by
  cases x with
  | sq i => exact cancelFetched_host ..
  | cq i => exact .rfl s
  | ev => exact .rfl s
  | port l => cases hp
  | _ => cases hk

theorem work_relight (l s) : (relight l s).work = s.work := by
  obtain ⟨z, hz⟩ := relight_lanes l s
  rw [hz]

/-- Neither a port nor a ring changes the Workroom when it starts. -/
theorem work_fnStart {x : FnId} (hk : needsKey x = false) (n ds s) : (fnStart x n ds s).work = s.work := by
  cases hp : isPort x with
  | true =>
    cases x with
    | port l => exact work_relight ..
    | _ => cases hp
  | false =>
    obtain ⟨-, hwork⟩ := (startHook_ring hp hk n _).mems
    exact hwork

/-- Neither a port nor a ring changes the Larder or the Workroom when it stops. -/
theorem mems_fnStop {x : FnId} (hk : needsKey x = false) (st s) :
    (fnStop x st s).larder = s.larder ∧ (fnStop x st s).work = s.work := by
  cases hp : isPort x with
  | true =>
    cases x with
    | port l => exact (stopHook_port l ..).2
    | _ => cases hp
  | false => exact (stopHook_ring hp hk st _).mems

section
variable {s : State} {c : Instr} {x : FnId}

/-- A control word with enable set makes the enable of Table 3-6, with no descriptor, and needs no key (R788, R793). -/
theorem exec_ctrlEnable (h : (∃ l, c = .portCtrlEnable l ∧ x = .port l) ∨ ∃ r, c = .ringCtrlEnable r ∧ x = regRingFn r) :
    exec c s = .next (fnEnable x none 0 s) ∧ needsKey x = false := by
  rcases h with ⟨l, rfl, rfl⟩ | ⟨r, rfl, rfl⟩
  · exact ⟨rfl, rfl⟩
  · exact ⟨rfl, by cases r <;> rfl⟩

theorem exec_ctrlDisable (h : (∃ l, c = .portCtrlDisable l ∧ x = .port l) ∨ ∃ r, c = .ringCtrlDisable r ∧ x = regRingFn r) :
    exec c s = .next (fnDisable x none s) ∧ needsKey x = false := by
  rcases h with ⟨l, rfl, rfl⟩ | ⟨r, rfl, rfl⟩
  · exact ⟨rfl, rfl⟩
  · exact ⟨rfl, by cases r <;> rfl⟩

theorem ctrlEnable_off (h : (∃ l, c = .portCtrlEnable l ∧ x = .port l) ∨ ∃ r, c = .ringCtrlEnable r ∧ x = regRingFn r)
    (hs : fnSt s x = .off) (hp : (fnOf s x).pend = false) :
    Completes c s fun t => fnSt t x = .starting ∧ fnGen t x = fnGen s x + 1 ∧ OtherFns x s t ∧ t.larder = s.larder
      ∧ t.work = s.work := by
  obtain ⟨he, hk⟩ := exec_ctrlEnable (s := s) h
  have hr := enableRefusal_of_keyless hk s 0
  obtain ⟨hst, hgen, -, hothers, hlarder, -⟩ := fnEnable_starts_spec hs hp hr none
  refine ⟨_, he, hst, hgen, hothers, hlarder, ?_⟩
  rw [fnEnable_starts hs hp hr]
  exact work_fnStart hk ..

theorem ctrlEnable_serving (h : (∃ l, c = .portCtrlEnable l ∧ x = .port l) ∨ ∃ r, c = .ringCtrlEnable r ∧ x = regRingFn r)
    (hs : fnSt s x = .starting ∨ fnSt s x = .on) : NoEffect c s :=
  (exec_ctrlEnable h).1.trans (congrArg _ (fnEnable_serving hs none 0))

theorem ctrlEnable_stopping (h : (∃ l, c = .portCtrlEnable l ∧ x = .port l) ∨ ∃ r, c = .ringCtrlEnable r ∧ x = regRingFn r)
    (hs : fnSt s x = .stopping) :
    Completes c s fun t => fnOf t x = { fnOf s x with pend := true } ∧ OtherFns x s t ∧ t = { s with fns := t.fns } := by
  obtain ⟨hself, hothers, -⟩ := fnEnable_stopping_spec hs none 0
  refine ⟨_, (exec_ctrlEnable h).1, ?_, hothers, ?_⟩
  · simpa using hself
  · rw [fnEnable_stopping hs]
    rfl

theorem ctrlDisable_off (h : (∃ l, c = .portCtrlDisable l ∧ x = .port l) ∨ ∃ r, c = .ringCtrlDisable r ∧ x = regRingFn r)
    (hs : fnSt s x = .off) : NoEffect c s :=
  (exec_ctrlDisable h).1.trans (congrArg _ (fnDisable_off hs none))

theorem ctrlDisable_stopping (h : (∃ l, c = .portCtrlDisable l ∧ x = .port l) ∨ ∃ r, c = .ringCtrlDisable r ∧ x = regRingFn r)
    (hs : fnSt s x = .stopping) :
    Completes c s fun t => fnOf t x = { fnOf s x with pend := false, pendWait := [] } ∧ OtherFns x s t
      ∧ HostOnly { s with fns := t.fns } t := by
  obtain ⟨hself, hothers, hhost⟩ := fnDisable_stopping_spec hs none
  exact ⟨_, (exec_ctrlDisable h).1, by simpa using hself, hothers, hhost⟩

theorem ctrlDisable_on (h : (∃ l, c = .portCtrlDisable l ∧ x = .port l) ∨ ∃ r, c = .ringCtrlDisable r ∧ x = regRingFn r)
    (hs : fnSt s x = .on) :
    Completes c s fun t => fnSt t x = .stopping ∧ fnGen t x = fnGen s x
      ∧ (∀ g, g ≠ x → (∀ q, g ≠ .qp q) → fnOf t g = fnOf s g) ∧ t.larder = s.larder ∧ t.work = s.work := by
  obtain ⟨he, hk⟩ := exec_ctrlDisable (s := s) h
  obtain ⟨hst, hgen, -, hne⟩ := fnDisable_on_spec hs none
  refine ⟨_, he, hst, hgen, fun g hg hq => hne g hg (.inr hq), ?_⟩
  rw [fnDisable_on hs]
  exact mems_fnStop hk ..

theorem ctrlDisable_starting (h : (∃ l, c = .portCtrlDisable l ∧ x = .port l) ∨ ∃ r, c = .ringCtrlDisable r ∧ x = regRingFn r)
    (hs : fnSt s x = .starting) :
    Completes c s fun t => fnOf t x = { fnOf s x with recDis := true } ∧ OtherFns x s t ∧ t = { s with fns := t.fns } := by
  obtain ⟨hself, hothers, -⟩ := fnDisable_starting_spec hs none
  refine ⟨_, (exec_ctrlDisable h).1, ?_, hothers, ?_⟩
  · simpa using hself
  · rw [fnDisable_starting hs]
    rfl

end

/-! ### A host reset (R141) -/

/-- The ring is not On under its generation, and where it is Starting a disable is recorded. -/
def RingDown (x : FnId) (s t : State) : Prop :=
  fnSt t x ≠ .on ∧ (fnSt t x = .starting → (fnOf t x).recDis = true) ∧ fnGen t x = fnGen s x

theorem RingDown.of_fnOf {x : FnId} {s t u : State} (h : RingDown x s t) (hu : fnOf u x = fnOf t x) : RingDown x s u := by
  unfold RingDown fnSt fnGen at h ⊢
  rwa [hu]

/-- A disable brings a ring down, and leaves the other instances and the memories alone. -/
theorem fnDisable_ring {x : FnId} (hp : isPort x = false) (hk : needsKey x = false) (s : State) :
    let t := fnDisable x none s
    RingDown x s t ∧ OtherFns x s t ∧ t.larder = s.larder ∧ t.work = s.work := by
  cases hs : fnSt s x with
  | off =>
    rw [fnDisable_off hs]
    exact ⟨⟨by simp [completeAll, hs], by simp [completeAll, hs], rfl⟩, fun _ _ => rfl, rfl, rfl⟩
  | starting =>
    obtain ⟨hself, hothers, heq⟩ := fnDisable_starting_spec hs none
    refine ⟨?_, hothers, (congrArg State.larder heq :), (congrArg State.work heq :)⟩
    unfold RingDown fnSt fnGen
    rw [hself]
    exact ⟨by simp [show (fnOf s x).st = .starting from hs], fun _ => rfl, rfl⟩
  | on =>
    obtain ⟨hst, hgen, -, hne⟩ := fnDisable_on_spec hs none
    refine ⟨⟨by simp [hst], by simp [hst], hgen⟩, fun g hg => hne g hg (.inl hp), ?_⟩
    rw [fnDisable_on hs]
    exact mems_fnStop hk ..
  | stopping =>
    obtain ⟨hself, hothers, hhost⟩ := fnDisable_stopping_spec hs none
    refine ⟨?_, hothers, hhost.mems⟩
    unfold RingDown fnSt fnGen
    rw [hself]
    exact ⟨by simp [show (fnOf s x).st = .stopping from hs], by simp [show (fnOf s x).st = .stopping from hs], rfl⟩

/-- A disable of each of a list of rings brings them down, and leaves the other instances and the memories alone. -/
theorem foldl_fnDisable_rings : ∀ (l : List FnId) (s : State), (∀ x ∈ l, isPort x = false ∧ needsKey x = false) →
    let t := l.foldl (fun s f => fnDisable f none s) s
    (∀ x ∈ l, RingDown x s t) ∧ (∀ x, x ∉ l → fnOf t x = fnOf s x) ∧ t.larder = s.larder ∧ t.work = s.work
  | [], s, _ => ⟨nofun, fun _ _ => rfl, rfl, rfl⟩
  | x :: l, s, h => by
    obtain ⟨hp, hk⟩ := h x List.mem_cons_self
    obtain ⟨hx, hothers, hlarder, hwork⟩ := fnDisable_ring hp hk s
    obtain ⟨hl, hrest, hlarder', hwork'⟩ :=
      foldl_fnDisable_rings l (fnDisable x none s) (fun y hy => h y (List.mem_cons_of_mem _ hy))
    refine ⟨fun y hy => ?_, fun y hy => ?_, hlarder'.trans hlarder, hwork'.trans hwork⟩
    · by_cases hyl : y ∈ l
      · obtain ⟨hon, hstart, hgen⟩ := hl y hyl
        refine ⟨hon, hstart, hgen.trans ?_⟩
        by_cases hyx : y = x
        · obtain ⟨-, -, hgenx⟩ := hx
          exact hyx ▸ hgenx
        · exact congrArg Fn.gen (hothers y hyx)
      · obtain rfl := (List.mem_cons.mp hy).resolve_right hyl
        exact hx.of_fnOf (hrest y hyl)
    · rw [List.mem_cons, not_or] at hy
      exact (hrest y hy.2).trans (hothers y hy.1)

theorem allRings_keyless {x : FnId} (h : x ∈ allRings) : isPort x = false ∧ needsKey x = false := by
  simp only [allRings, List.mem_cons, List.mem_flatMap, List.not_mem_nil, or_false] at h
  rcases h with rfl | ⟨i, -, rfl | rfl⟩
  · exact ⟨rfl, rfl⟩
  · exact ⟨rfl, rfl⟩
  · exact ⟨rfl, rfl⟩

theorem takeInbox_enz (ty s) : EnzOnly s (takeInbox ty s) := by
  unfold takeInbox
  split
  · exact ⟨_, rfl⟩
  · exact .rfl s

/-- The host has announced its reset: events that are held for its ring are discarded and counted (R141). -/
def hostResetSeen (s : State) : State :=
  let u := takeInbox 0x09 { s with enz.hostReset := true }
  { u with enz.discarded := u.enz.discarded + s.rings.evHeld.length + s.rings.evOver.length, rings.evHeld := [], rings.evOver := [] }

theorem hostResetSeen_host (s) : HostOnly s (hostResetSeen s) :=
  (EnzOnly.trans ⟨_, rfl⟩ (takeInbox_enz 0x09 { s with enz.hostReset := true })).host.trans ⟨_, _, _, rfl⟩

theorem exec_hostReset (s : State) :
    exec .hostReset s = .next (hostResetAck (allRings.foldl (fun s f => fnDisable f none s) (hostResetSeen s))) := by
  change execHostReset s = _
  unfold execHostReset hostResetSeen
  simp only [(takeInbox_enz ..).rings_eq]

theorem hostReset_spec (s : State) : Completes .hostReset s fun t =>
    (∀ x ∈ allRings, fnSt t x ≠ .on ∧ (fnSt t x = .starting → (fnOf t x).recDis = true) ∧ fnGen t x = fnGen s x)
      ∧ (∀ x, x ∉ allRings → fnOf t x = fnOf s x) ∧ t.larder = s.larder ∧ t.work = s.work := by
  obtain ⟨hdown, hrest, hlarder, hwork⟩ := foldl_fnDisable_rings allRings (hostResetSeen s) (fun x hx => allRings_keyless hx)
  have hack := hostResetAck_enz (allRings.foldl (fun s f => fnDisable f none s) (hostResetSeen s))
  have hseen := hostResetSeen_host s
  obtain ⟨hackLarder, hackWork⟩ := hack.host.mems
  obtain ⟨hseenLarder, hseenWork⟩ := hseen.mems
  refine ⟨_, exec_hostReset s, fun x hx => ?_, fun x hx => ?_, hackLarder.trans (hlarder.trans hseenLarder),
    hackWork.trans (hwork.trans hseenWork)⟩
  · obtain ⟨hon, hstart, hgen⟩ := (hdown x hx).of_fnOf (hack.host.fnOf x)
    exact ⟨hon, hstart, hgen.trans (congrArg Fn.gen (hseen.fnOf x))⟩
  · exact (hack.host.fnOf x).trans ((hrest x hx).trans (hseen.fnOf x))

/-! ### The statement -/

/-- Settles O45: each clause is the lemma of its transition, its control word or the host reset. -/
theorem functionBoundariesAndControlWords : Obligations.FunctionBoundariesAndControlWords := by
  unfold Obligations.FunctionBoundariesAndControlWords
  refine ⟨⟨?_, ?_, ?_, ?_, ?_, ?_, ?_, ?_⟩, ?_, ?_, ?_, ?_, ?_, ?_, ?_, ?_, ?_⟩
  · exact fun s x h0 hs hr hready hd hst =>
      ⟨_, congrArg Host.Outcome.next (functionOn_on h0 hs hr hready hd hst), enteredOn_spec x s⟩
  · exact fun s x h0 hs hr h => ⟨_, rfl, functionOn_stops h0 hs hr h⟩
  · exact fun s x h => congrArg Host.Outcome.next (functionOn_not_due h)
  · exact fun s x h0 hs hr hi hw => ⟨_, rfl, functionOff_idle h0 hs hr hi hw⟩
  · exact fun s x h0 hs hr hp he => ⟨_, rfl, functionOff_pending h0 hs hr hp he⟩
  · exact fun s g h0 hs hr hready => congrArg Host.Outcome.next (functionOn_group_waits h0 hs hr rfl hready)
  · exact fun s x _ hs _ hp => congrArg Host.Outcome.next (functionOff_off hs hp)
  · exact fun s x h => congrArg Host.Outcome.next (functionOff_not_due h)
  · exact fun s c x h hs hp => ctrlEnable_off h hs hp
  · exact fun s c x h hs => ctrlEnable_serving h hs
  · exact fun s c x h hs => ctrlEnable_stopping h hs
  · exact fun s c x h hs => ctrlDisable_off h hs
  · exact fun s c x h hs => ctrlDisable_stopping h hs
  · exact fun s c x h hs => ctrlDisable_on h hs
  · exact fun s c x h hs => ctrlDisable_starting h hs
  · exact fun s => exec_hostReset s
  · exact fun s _ => hostReset_spec s

end Machine
end Sys2Proof
end

section
/-!
PROOF. The little-endian bytes of a number (R5), and the frames that the host is to find, in their order (R92, R140): what sending a
frame, writing host memory and issuing reads make of them.
-/
namespace Sys2Proof
namespace Machine

/-! ### Bytes of a number (R5) -/

@[simp] theorem leBytes_length : ∀ n v, (leBytes n v).length = n
  | 0, _ => rfl
  | n + 1, v => congrArg (· + 1) (leBytes_length n (v / 256))

theorem leNat_leBytes : ∀ n v, leNat (leBytes n v) = v % 256 ^ n
  | 0, v => (Nat.mod_one v).symm
  | n + 1, v => by
    rw [pow_succ' 256, Nat.mod_mul, ← leNat_leBytes n]
    rfl

theorem leNat_append : ∀ xs ys, leNat (xs ++ ys) = leNat xs + 256 ^ xs.length * leNat ys
  | [], ys => by simp [leNat]
  | x :: xs, ys => by
    simp only [List.cons_append, leNat, leNat_append xs ys, List.length_cons]
    ring

theorem leNat_lt : ∀ bs, leNat bs < 256 ^ bs.length
  | [] => Nat.one_pos
  | b :: bs => by
    have hb := b.isLt
    have ih := leNat_lt bs
    simp only [leNat, List.length_cons, pow_succ]
    omega

@[simp] theorem leNat_replicate_zero : ∀ n, leNat (List.replicate n 0#8) = 0
  | 0 => rfl
  | n + 1 => by simp [List.replicate_succ, leNat, leNat_replicate_zero n]

theorem leNat_take (bs n) : leNat (bs.take n) = leNat bs % 256 ^ n := by
  rcases Nat.le_total bs.length n with h | h
  · rw [List.take_of_length_le h, Nat.mod_eq_of_lt ((leNat_lt bs).trans_le (Nat.pow_le_pow_right (by decide) h))]
  · have hlen : (bs.take n).length = n := List.length_take_of_le h
    have hlt := leNat_lt (bs.take n)
    conv_rhs => rw [← List.take_append_drop n bs, leNat_append]
    rw [hlen] at hlt ⊢
    rw [Nat.add_mul_mod_self_left, Nat.mod_eq_of_lt hlt]

theorem leNat_drop (bs n) : leNat (bs.drop n) = leNat bs / 256 ^ n := by
  rcases Nat.le_total bs.length n with h | h
  · rw [List.drop_of_length_le h, Nat.div_eq_of_lt ((leNat_lt bs).trans_le (Nat.pow_le_pow_right (by decide) h))]
    rfl
  · have hlen : (bs.take n).length = n := List.length_take_of_le h
    have hlt := leNat_lt (bs.take n)
    conv_rhs => rw [← List.take_append_drop n bs, leNat_append]
    rw [hlen] at hlt ⊢
    rw [Nat.add_mul_div_left _ _ (by positivity), Nat.div_eq_of_lt hlt, Nat.zero_add]

/-- A field of a byte string is a field of the number that the string spells. -/
theorem leAt_eq (bs i n) : leAt bs i n = leNat bs / 256 ^ i % 256 ^ n := by
  simp [leAt, slice, leNat_append, leNat_take, leNat_drop]

/-- A field that lies in the first of two byte strings. -/
theorem leAt_append_left {xs : List Byte} {i n : Nat} (h : i + n ≤ xs.length) (ys) : leAt (xs ++ ys) i n = leAt xs i n := by
  obtain ⟨k, hk⟩ := Nat.exists_eq_add_of_le h
  simp only [leAt_eq, leNat_append, hk]
  rw [show 256 ^ (i + n + k) * leNat ys = 256 ^ i * (256 ^ n * (256 ^ k * leNat ys)) by ring,
    Nat.add_mul_div_left _ _ (by positivity), Nat.add_mul_mod_self_left]

/-- A field that lies in the second of two byte strings. -/
theorem leAt_append_right (xs ys i n) : leAt (xs ++ ys) (xs.length + i) n = leAt ys i n := by
  have hlt := leNat_lt xs
  simp only [leAt_eq, leNat_append, pow_add, ← Nat.div_div_eq_div_mul]
  rw [Nat.add_mul_div_left _ _ (by positivity), Nat.div_eq_of_lt hlt, Nat.zero_add]

/-- A field of a number that is written in `m` bytes. -/
theorem leAt_leBytes {v i n m : Nat} (h : i + n ≤ m) : leAt (leBytes m v) i n = v / 256 ^ i % 256 ^ n := by
  obtain ⟨k, rfl⟩ := Nat.exists_eq_add_of_le h
  rw [leAt_eq, leNat_leBytes, pow_add, pow_add, Nat.mul_assoc, Nat.mod_mul_right_div_self, Nat.mod_mul_right_mod]

/-! ### Frames to the host (R92, R140) -/

/-- The frames that the host is to find, in their order: those sent and not acknowledged, then those held. -/
def hostFrames (s : State) : List HostFrame := s.enz.sent.map (·.frame) ++ s.enz.held

theorem hostFrames_of_enz {s t : State} (h : t.enz = s.enz) : hostFrames t = hostFrames s := by
  rw [hostFrames, h, hostFrames]

/-- The link takes a frame: it is sent at once. -/
theorem sendFrame_sent {f : HostFrame} {s : State} (hst : s.enz.st = .active) (hh : s.enz.held = []) (hr : flitRoom s f = true) :
    sendFrame f s = sendNow f s := by
  simp [sendFrame, hst, hh, hr]

/-- A frame comes after every frame before it, whether it is sent or held. -/
theorem hostFrames_sendFrame (f s) : hostFrames (sendFrame f s) = hostFrames s ++ [f] := by
  unfold sendFrame
  split
  next h =>
    have hh : s.enz.held = [] := by simp_all
    simp [hostFrames, sendNow, hh]
  next => simp [hostFrames]

/-- A short byte string goes in one frame. -/
theorem hostPut_eq {bs : List Byte} (h0 : bs ≠ []) (hn : bs.length ≤ 4096) (a s) :
    hostPut a bs s = sendFrame { ftype := 0x03, addr := a, payload := bs } s := by
  have hpos := List.length_pos_iff.mpr h0
  have hone : ceilDiv bs.length 4096 = 1 := by
    unfold ceilDiv
    omega
  simp [hostPut, hone, hostWrite, h0, List.take_of_length_le hn, List.drop_of_length_le hn]

theorem consumerPut_eq (o v s) : consumerPut o v s =
    sendFrame { ftype := 0x03, addr := reg s .hostCfg 0 0 1 + BitVec.ofNat 64 o, payload := leBytes 4 v.toNat } s :=
  hostPut_eq (by simp [leBytes]) (by simp) ..

theorem sendFrame_discarded (f s) : (sendFrame f s).enz.discarded = s.enz.discarded := by
  unfold sendFrame
  split <;> rfl

theorem sendFrame_reads (f s) : (sendFrame f s).enz.reads = s.enz.reads := by
  unfold sendFrame
  split <;> rfl

/-! ### Room for frames (R92) -/

/-- The link is Active, holds nothing back and takes `n` more flits. -/
def LinkOpen (n : Nat) (s : State) : Prop := s.enz.st = .active ∧ s.enz.held = [] ∧ flitsHeld s + n ≤ 512

theorem flitsHeld_sendNow (f s) : flitsHeld (sendNow f s) = flitsHeld s + flitsOf f := by
  simp [flitsHeld, sendNow]

/-- A frame of one flit takes the room of one. -/
theorem LinkOpen.sendFrame {n : Nat} {s : State} {f : HostFrame} (h : LinkOpen (n + 1) s) (hf : f.payload.length ≤ 176) :
    LinkOpen n (sendFrame f s) := by
  obtain ⟨hst, hh, hr⟩ := h
  have hone : flitsOf f = 1 := by
    unfold flitsOf ceilDiv
    omega
  rw [sendFrame_sent hst hh (by simp only [flitRoom, decide_eq_true_eq]; omega)]
  exact ⟨hst, hh, by rw [flitsHeld_sendNow]; omega⟩

theorem LinkOpen.of_enz {n : Nat} {s t : State} (h : LinkOpen n s) (he : t.enz = s.enz) : LinkOpen n t := by
  simpa only [LinkOpen, flitsHeld, he] using h

end Machine
end Sys2Proof
end

section
/-!
PROOF. Completions (R123 to R126, R129, R140, R141): the fields of an entry, the frames that a completion sends, and each clause of
CompletionEntryWritten.
-/
namespace Sys2Proof
namespace Machine

/-! ### The entry (Table 4-13) -/

theorem complBytes_length (s f st r p) : (complBytes s f st r p).length = 32 := by simp [complBytes]

/-- A field of the first, second, third or fourth word of an entry. -/
theorem leAt_complBytes (s f st r p i n) (h : i + n ≤ 8) :
    let w0 := st.toNat + (dOpcode f.desc).toNat <<< 8 + (if dTarget f.desc = 0xFFFF then 0 else f.gen.toNat) <<< 16
      + (dTarget f.desc).toNat <<< 32 + f.ref.sq.val <<< 48 + p.toNat <<< 55
    let w1 := f.sqGen.toNat + (f.ref.k.toNat % 65536) <<< 16 + (dCookie f.desc).toNat <<< 32
    leAt (complBytes s f st r p) i n = w0 / 256 ^ i % 256 ^ n
      ∧ leAt (complBytes s f st r p) (8 + i) n = w1 / 256 ^ i % 256 ^ n
      ∧ leAt (complBytes s f st r p) (16 + i) n = (nowTick s).toNat / 256 ^ i % 256 ^ n
      ∧ leAt (complBytes s f st r p) (24 + i) n = r.toNat / 256 ^ i % 256 ^ n := by
  intro w0 w1
  have field : ∀ v, leAt (leBytes 8 v) i n = v / 256 ^ i % 256 ^ n := fun v => leAt_leBytes h
  have hbytes : complBytes s f st r p = leBytes 8 w0 ++ (leBytes 8 w1 ++ (leBytes 8 (nowTick s).toNat ++ leBytes 8 r.toNat)) := by
    simp [complBytes, w0, w1]
  have skip : ∀ v ys k, leAt (leBytes 8 v ++ ys) (8 + k) n = leAt ys k n := fun v ys k => by
    simpa using leAt_append_right (leBytes 8 v) ys k n
  have here : ∀ v ys, leAt (leBytes 8 v ++ ys) i n = v / 256 ^ i % 256 ^ n := fun v ys => by
    rw [leAt_append_left (by simpa using h), field]
  rw [hbytes, show 16 + i = 8 + (8 + i) by omega, show 24 + i = 8 + (8 + (8 + i)) by omega]
  simp only [skip, here, field, and_self]

/-- The entry names each of its fields at the place that Table 4-13 gives it. -/
theorem complBytes_fields (s f st r p) :
    let e := complBytes s f st r p
    leAt e 0 1 = st.toNat ∧ leAt e 1 1 = (dOpcode f.desc).toNat
      ∧ leAt e 2 2 = (if dTarget f.desc = 0xFFFF then 0 else f.gen.toNat)
      ∧ leAt e 4 2 = (dTarget f.desc).toNat ∧ leAt e 6 1 = f.ref.sq.val + 128 * p.toNat
      ∧ leAt e 8 2 = f.sqGen.toNat ∧ leAt e 10 2 = f.ref.k.toNat % 65536 ∧ leAt e 12 4 = (dCookie f.desc).toNat
      ∧ leAt e 16 8 = (nowTick s).toNat ∧ leAt e 24 8 = r.toNat := by
  intro e
  have hst := st.isLt
  have hop := (dOpcode f.desc).isLt
  have htg := (dTarget f.desc).isLt
  have hsq := f.ref.sq.isLt
  have hp := p.toNat_le
  have hsg := f.sqGen.isLt
  have hck := (dCookie f.desc).isLt
  have htick := (nowTick s).isLt
  have hres := r.isLt
  have hgen : (if dTarget f.desc = 0xFFFF then 0 else f.gen.toNat) < 2 ^ 16 := by
    split
    · decide
    · exact f.gen.isLt
  obtain ⟨h0, -⟩ := leAt_complBytes s f st r p 0 1 (by decide)
  obtain ⟨h1, -⟩ := leAt_complBytes s f st r p 1 1 (by decide)
  obtain ⟨h2, h10, -⟩ := leAt_complBytes s f st r p 2 2 (by decide)
  obtain ⟨h4, -⟩ := leAt_complBytes s f st r p 4 2 (by decide)
  obtain ⟨h6, -⟩ := leAt_complBytes s f st r p 6 1 (by decide)
  obtain ⟨-, h8, -⟩ := leAt_complBytes s f st r p 0 2 (by decide)
  obtain ⟨-, h12, -⟩ := leAt_complBytes s f st r p 4 4 (by decide)
  obtain ⟨-, -, h16, h24⟩ := leAt_complBytes s f st r p 0 8 (by decide)
  simp only [Nat.shiftLeft_eq] at *
  refine ⟨h0.trans ?_, h1.trans ?_, h2.trans ?_, h4.trans ?_, h6.trans ?_, h8.trans ?_, h10.trans ?_, h12.trans ?_,
    h16.trans ?_, h24.trans ?_⟩ <;> omega

/-! ### What a completion sends -/

/-- A completion that writes an entry: the descriptor leaves flight, the entry is written and counted, and the ring's interrupt rules
apply. -/
theorem complete_eq {s : State} {d : DRef} {f : InFlight} (hf : flightOf s d = some f) {st : BitVec 8}
    (hn : (dNoCompl f.desc && st = stOk) = false) (r) : complete d st r s =
      cqModerate (sqRing s d.sq).cq (dIrq f.desc) (countCompletion (sqRing s d.sq).cq
        (putCompletion (sqRing s d.sq).cq f st r (leaveFlight d s))) := by
  simp only [complete, hf]
  exact if_neg (ne_true_of_eq_false hn)

/-- The entry of a completion, and the producer index that follows it (R108, R123). -/
def entryFrame (s : State) (j : Fin 64) (f : InFlight) (st : BitVec 8) (r : Word) : HostFrame :=
  let k := (tblGet {} s.rings.cq j.val).prod
  { ftype := 0x03, addr := entryAddr (cqRing s j) 32 k, payload := complBytes s f st r (phaseOf (cqRing s j) k), compl := some f.ref.sq }

def indexFrame (s : State) (j : Fin 64) : HostFrame :=
  { ftype := 0x03, addr := reg s .hostCfg 0 0 1 + BitVec.ofNat 64 (0x100 + 4 * j.val),
    payload := leBytes 4 ((tblGet {} s.rings.cq j.val).prod + 1).toNat }

/-- A completion is written as two frames (R123). -/
theorem putCompletion_eq {s : State} (h : s.enz.hostReset = false) (j f st r) : putCompletion j f st r s =
    bumpModule 22 (sendFrame (indexFrame s j) (sendFrame (entryFrame s j f st r) s)) := by
  have hreg : ∀ x, reg (sendFrame x s) .hostCfg 0 0 1 = reg s .hostCfg 0 0 1 := fun x => by
    rw [(sendFrame_enz x s).eq]
    rfl
  simp only [putCompletion, toHost, h, Bool.false_eq_true, if_false, consumerPut_eq, hreg]
  rfl

/-- A completion due to a host that announced its reset is discarded and counted (R141). -/
theorem putCompletion_hostReset {s : State} (h : s.enz.hostReset = true) (j f st r) :
    putCompletion j f st r s = bumpModule 22 { s with enz.discarded := s.enz.discarded + 1 } := by
  simp [putCompletion, toHost, h]

/-- The interrupt message of a completion ring (Table 4-5). -/
def irqFrame (s : State) (j : Fin 64) : HostFrame := { ftype := 0x04, addr := (cqRing s j).vector.setWidth 64 }

/-- The interrupt rules send the ring's message, or nothing (R129, R130). -/
theorem cqModerate_cases (j b s) : cqModerate j b s = s ∨ cqModerate j b s = cqInterrupt j s := by
  unfold cqModerate
  extract_lets r
  split
  · exact .inl rfl
  · split
    · exact .inr rfl
    · split
      · exact .inr rfl
      · exact .inl rfl

theorem cqInterrupt_enz (j s) : (cqInterrupt j s).enz = (sendFrame (irqFrame s j) s).enz := rfl

theorem hostFrames_cqInterrupt (j s) : hostFrames (cqInterrupt j s) = hostFrames s ++ [irqFrame s j] :=
  (hostFrames_of_enz (cqInterrupt_enz j s)).trans (hostFrames_sendFrame ..)

theorem hostFrames_cqModerate (j b s) : ∃ rest, hostFrames (cqModerate j b s) = hostFrames s ++ rest := by
  rcases cqModerate_cases j b s with h | h <;> rw [h]
  · exact ⟨[], (List.append_nil _).symm⟩
  · exact ⟨_, hostFrames_cqInterrupt ..⟩

theorem cqModerate_discarded (j b s) : (cqModerate j b s).enz.discarded = s.enz.discarded := by
  rcases cqModerate_cases j b s with h | h <;> rw [h]
  exact sendFrame_discarded ..

/-- An interrupt message is one flit. -/
theorem LinkOpen.cqModerate {s : State} (h : LinkOpen 1 s) (j b) : LinkOpen 0 (cqModerate j b s) := by
  rcases cqModerate_cases j b s with hm | hm <;> rw [hm]
  · obtain ⟨hst, hh, hr⟩ := h
    exact ⟨hst, hh, by omega⟩
  · exact (h.sendFrame (f := irqFrame s j) (by simp [irqFrame])).of_enz rfl

/-- Counting an entry sends nothing. -/
theorem countCompletion_enz (j w s) : (countCompletion j (bumpModule w s)).enz = s.enz := rfl

/-- The frames of a completion: entry, producer index and, where the rules ask for it, the interrupt. -/
theorem hostFrames_complete {s : State} {d : DRef} {f : InFlight} (hf : flightOf s d = some f) {st : BitVec 8}
    (hn : (dNoCompl f.desc && st = stOk) = false) (h : s.enz.hostReset = false) (r) :
    let j := (sqRing s d.sq).cq
    ∃ rest, hostFrames (complete d st r s) = hostFrames s ++ entryFrame s j f st r :: indexFrame s j :: rest := by
  intro j
  rw [complete_eq hf hn, putCompletion_eq (by exact h)]
  obtain ⟨rest, hrest⟩ := hostFrames_cqModerate j (dIrq f.desc) (countCompletion j
    (bumpModule 22 (sendFrame (indexFrame (leaveFlight d s) j) (sendFrame (entryFrame (leaveFlight d s) j f st r) (leaveFlight d s)))))
  refine ⟨rest, hrest.trans ?_⟩
  have hleft : hostFrames (leaveFlight d s) = hostFrames s := rfl
  rw [hostFrames_of_enz (countCompletion_enz ..), hostFrames_sendFrame, hostFrames_sendFrame, hleft]
  simp only [List.append_assoc, List.cons_append, List.nil_append]
  rfl

/-- A completion is three flits at most. -/
theorem LinkOpen.complete {s : State} (h : LinkOpen 3 s) {d : DRef} {f : InFlight} (hf : flightOf s d = some f) {st : BitVec 8}
    (hn : (dNoCompl f.desc && st = stOk) = false) (hr : s.enz.hostReset = false) (r) : LinkOpen 0 (complete d st r s) := by
  rw [complete_eq hf hn, putCompletion_eq (by exact hr)]
  have hleft : LinkOpen 3 (leaveFlight d s) := h.of_enz rfl
  have hentry := hleft.sendFrame (f := entryFrame (leaveFlight d s) (sqRing s d.sq).cq f st r) (by
    simp [entryFrame, complBytes_length])
  have hindex := hentry.sendFrame (f := indexFrame (leaveFlight d s) (sqRing s d.sq).cq) (by simp [indexFrame])
  exact (hindex.of_enz (countCompletion_enz ..)).cqModerate ..

theorem complete_discarded {s : State} {d : DRef} {f : InFlight} (hf : flightOf s d = some f) {st : BitVec 8}
    (hn : (dNoCompl f.desc && st = stOk) = false) (h : s.enz.hostReset = true) (r) :
    (complete d st r s).enz.discarded = s.enz.discarded + 1 := by
  rw [complete_eq hf hn, putCompletion_hostReset (by exact h), cqModerate_discarded]
  rfl

theorem ref_of_flightOf {s : State} {d : DRef} {f : InFlight} (h : flightOf s d = some f) : f.ref = d := by
  simpa using List.find?_some h

/-- The phase of a pass of the ring, as the entry holds it (R124). -/
theorem phaseOf_toNat (r : Ring) (k) : (phaseOf r k).toNat = if k.toNat / depth r % 2 = 0 then 1 else 0 := by
  unfold phaseOf
  split <;> simp_all

/-! ### The statement -/

/-- Settles O4: the frames of a completion, the fields of its entry, and the two outcomes that write none. -/
theorem completionEntryWritten : Obligations.CompletionEntryWritten := by
  unfold Obligations.CompletionEntryWritten
  refine ⟨fun s d f st r hf hr hn => ?_, fun s d f r hf hn => ?_, fun s d f st r hf hr hn => ?_, fun s d st r h => ?_⟩
  · intro j k t
    obtain ⟨rest, hframes⟩ := hostFrames_complete hf hn hr r
    obtain ⟨h0, h1, h2, h4, h6, h8, h10, h12, h16, h24⟩ := complBytes_fields s f st r (phaseOf (cqRing s j) k)
    rw [ref_of_flightOf hf, phaseOf_toNat] at h6
    rw [ref_of_flightOf hf] at h10
    refine ⟨⟨entryFrame s j f st r, indexFrame s j, rest, hframes, rfl, rfl, complBytes_length .., h0, h1, h2, h4, h6, h8, h10, h12,
      h16, h24, rfl, rfl, rfl⟩, complete_flight .., fun hst hh hroom => ?_, complete_host ..⟩
    obtain ⟨-, hheld, -⟩ := LinkOpen.complete ⟨hst, hh, hroom⟩ hf hn hr r
    exact hheld
  · refine ⟨?_, rfl, rfl, leaveFlight_host ..⟩
    simp [complete, hf, hn]
  · exact ⟨complete_discarded hf hn hr r, complete_flight .., complete_host ..⟩
  · exact complete_none d st r s h

end Machine
end Sys2Proof
end

section
/-!
PROOF. The producer index of a submission ring (R108 to R110): it is tested against sq_cons as the consumer page shows it as well as
against the next index to fetch.
-/
namespace Sys2Proof
namespace Machine

/-- An index beyond the ring's depth from the published sq_cons is misuse: a free value is used (R110, Table 3-8). -/
theorem free_applySqProd_of_unpublished {s : State} {page : List Byte} {i : Fin 64} (hon : fnSt s (.sq i) = .on)
    (hv : idxOk (BitVec.ofNat 32 (leAt page (4 * i.val) 4)) (tblGet {} s.rings.sq i.val).pub (sqRing s i) = false) :
    (applySqProd page i s).free = s.free + 1 := by
  have hserves : ¬ (decide (fnSt s (.sq i) ≠ .on) && decide (fnSt s (.sq i) ≠ .starting)) = true := by simp [hon]
  exact congrArg State.free ((if_neg hserves).trans (if_neg (by rw [hv]; exact Bool.false_ne_true)))

/-- Refutes O6: on a ring of 64 entries whose 16 descriptors are still being read, sq_cons is 0 in the consumer page and the next index
to fetch is 16. The producer index 80 is 64 from the latter, as the first clause asks, but 80 from the published sq_cons, and is taken
for misuse. -/
theorem not_doorbellIndicesAndFetchLimits : ¬ Obligations.DoorbellIndicesAndFetchLimits := by
  unfold Obligations.DoorbellIndicesAndFetchLimits
  rintro ⟨hprod, -⟩
  have htaken := hprod { fns := [(fnKey (.sq 1), { st := .on })], rings := { sq := [(1, { cons := 16 })] } }
    (List.replicate 4 0 ++ [80]) 1 (by decide) (by decide)
  have hfree := (free_applySqProd_of_unpublished (by decide) (by decide)).symm.trans (congrArg State.free htaken)
  exact absurd hfree (by decide)

end Machine
end Sys2Proof
end

section
/-!
PROOF. What events leave alone, and the rows of the rings that complete, release or configure (R115, R118, R122, R818): the first clauses
of RingRowsAndAudit.
-/
namespace Sys2Proof
namespace Machine

/-! ### What events leave alone -/

/-- The submission and completion rings, the descriptors in flight, the pages that wait and the reads of host memory: what the audit counts
and no event changes. -/
def booksOf (s : State) : Tbl Ring × Tbl Ring × List InFlight × List (List Byte × BitVec 48) × List HostRead :=
  (s.rings.sq, s.rings.cq, s.rings.flight, s.rings.page, s.enz.reads)

theorem booksOf_sendFrame (f s) : booksOf (sendFrame f s) = booksOf s := by
  simp only [booksOf, sendFrame_reads, (sendFrame_enz f s).rings_eq]

theorem booksOf_hostWrite (n a bs s) : booksOf (hostWrite n a bs s) = booksOf s := by
  induction n generalizing a bs s with
  | zero => rfl
  | succ n ih =>
    unfold hostWrite
    split
    · rfl
    · exact (ih ..).trans (booksOf_sendFrame ..)

theorem booksOf_hostPut (a bs s) : booksOf (hostPut a bs s) = booksOf s := booksOf_hostWrite ..

theorem booksOf_consumerPut (o v s) : booksOf (consumerPut o v s) = booksOf s := booksOf_hostPut ..

theorem booksOf_toHost {g : State → State} (hg : ∀ x, booksOf (g x) = booksOf x) (s) : booksOf (toHost g s) = booksOf s := by
  unfold toHost
  split
  · rfl
  · exact hg s

/-- A sample, where the event has one, the entry and the producer index go to the host (R132). -/
theorem booksOf_evWrite (e s) : booksOf (evWrite e s) = booksOf s := by
  have hput : booksOf (toHost (fun x => consumerPut 0x200 (s.rings.ev.prod + 1) (hostPut (entryAddr (evRing s) 32 s.rings.ev.prod)
      (eventBytes (phaseOf (evRing s) s.rings.ev.prod) e) (if e.sample.isEmpty then x
        else hostPut (reg x .hostCfg 0 0 2 + BitVec.ofNat 64 (256 * (s.rings.ev.prod.toNat % depth (evRing s)))) e.sample x))) s)
      = booksOf s := by
    refine booksOf_toHost (fun x => (booksOf_consumerPut ..).trans ((booksOf_hostPut ..).trans ?_)) s
    split
    · rfl
    · exact booksOf_hostPut ..
  unfold evWrite
  extract_lets r k s1 s2
  split
  · exact (booksOf_sendFrame ..).trans hput
  · exact hput

theorem booksOf_evHold (e s) : booksOf (evHold e s) = booksOf s := by
  unfold evHold
  split
  · rfl
  · split
    · rfl
    · rfl
    · split <;> rfl

theorem booksOf_setCounts (s : State) (x) : booksOf { s with counts := x } = booksOf s := rfl

theorem booksOf_raise (e s) : booksOf (raise e s) = booksOf s := by
  unfold raise
  simp only []
  split
  · rfl
  · split
    · exact (booksOf_evWrite ..).trans (booksOf_setCounts s ..)
    · exact (booksOf_evHold ..).trans (booksOf_setCounts s ..)

theorem booksOf_auditMismatch (k u b d g s) : booksOf (auditMismatch k u b d g s) = booksOf s := (booksOf_raise ..).trans rfl

theorem booksOf_evFlush (n s) : booksOf (evFlush n s) = booksOf s := by
  induction n generalizing s with
  | zero => rfl
  | succ n ih =>
    unfold evFlush
    split
    · rfl
    · split
      · exact (ih _).trans ((booksOf_evWrite ..).trans rfl)
      · exact (ih _).trans ((booksOf_evWrite ..).trans rfl)
      · rfl

/-! ### Rows that complete or release a descriptor -/

/-- The inner steps of a boundary change nothing where none is still to apply. -/
theorem runInner_idle {s : State} (h : s.tick.todo = []) (n) : runInner n s = s := by
  have htick : ({ s.tick with todo := [] } : TickState) = s.tick := by rw [← h]
  simp only [runInner, h, List.filter_nil, List.foldl_nil, htick]

theorem closeBoundary_idle {s : State} (h0 : s.tick.slot = 0) (h : s.tick.todo = []) : closeBoundary s = setPhase 12 s := by
  rw [closeBoundary, if_pos h0, settled, runInner_idle h]

/-- A fence is released once no earlier descriptor of its ring is in flight or being fetched (R115). -/
theorem fenceRelease_due {s : State} {d : DRef} {f : InFlight} (hf : flightOf s d = some f) (hfence : dFence f.desc = true)
    (hflight : ∀ g ∈ s.rings.flight, earlier g.ref d = false) (hfetch : earlierFetch s d = false) :
    exec (.descriptorFenceRelease d) s = .next (modFlight d (fun g => { g with fenceOk := true }) s) := by
  have hall : s.rings.flight.all (fun g => !earlier g.ref d) = true := List.all_eq_true.mpr fun g hg => by rw [hflight g hg]; rfl
  change execDescriptorFenceRelease d s = _
  simp [execDescriptorFenceRelease, hf, hfence, hall, hfetch]

theorem fenceRelease_waits {s : State} {d : DRef} (h : (∃ g ∈ s.rings.flight, earlier g.ref d = true) ∨ earlierFetch s d = true) :
    NoEffect (.descriptorFenceRelease d) s := by
  have hno : (s.rings.flight.all (fun g => !earlier g.ref d) && !earlierFetch s d) = false := by
    rcases h with ⟨g, hg, he⟩ | he
    · rw [List.all_eq_false.mpr ⟨g, hg, by simp [he]⟩, Bool.false_and]
    · simp [he]
  change execDescriptorFenceRelease d s = _
  simp only [execDescriptorFenceRelease, Bool.and_assoc, hno]
  split
  · simp
  · rfl

theorem timedStart_reached {s : State} {d : DRef} {f : InFlight} (hf : flightOf s d = some f) (ht : dTimed f.desc = true)
    (hl : later (dApply f.desc) (nowTick s) = false) : timedStart d s = modFlight d (fun g => { g with timeOk := true }) s := by
  simp [timedStart, hf, ht, hl]

theorem timedStart_waits {s : State} {d : DRef}
    (h : ∀ f, flightOf s d = some f → dTimed f.desc = false ∨ later (dApply f.desc) (nowTick s) = true) : timedStart d s = s := by
  unfold timedStart
  split
  next f hf =>
    refine if_neg ?_
    rcases h f hf with ht | hl
    · simp [ht]
    · simp [hl]
  next => rfl

theorem reservedOpcode_eq {s : State} {d : DRef} {f : InFlight} (hf : flightOf s d = some f) (hst : f.stage = .fetched)
    (hk : dKnown (dOpcode f.desc) = false) : exec (.reservedOpcode d) s = .next (complete d stBad 0 s) := by
  change execReservedOpcode d s = _
  simp [execReservedOpcode, hf, hst, hk]

/-! ### RING_CONFIG (R122) -/

/-- The ring's configuration is written and the descriptor completes. -/
def writeRing (d : DRef) (f : InFlight) (x : FnId) (s : State) : State :=
  match x with
  | .cq i => complete d stOk 0 (setCq s i (ringOf f.desc (tblGet {} s.rings.cq i.val)))
  | .sq i => complete d stOk 0 (setSq s i (ringOf f.desc (tblGet {} s.rings.sq i.val)))
  | _ => s

theorem exec_ringConfig {s : State} {d : DRef} {f : InFlight} (h : Startable s d 0x01 f) :
    exec (.ringConfig d) s = .next (ringConfig d f (started d s)) := congrArg Host.Outcome.next (withDesc_of_startable h _)

/-- target_gen is checked before anything else (R819). -/
theorem ringConfig_stale {s : State} {f : InFlight} {x : FnId} (ht : ringTarget f = some x) (hg : dGen f.desc ≠ fnGen s x) (d) :
    ringConfig d f (started d s) = complete d stStaleGen 0 (startedAt d x s) := by
  have hstale : (!genOk (startedAt d x s) f x) = true := by
    simp [genOk, show fnGen (startedAt d x s) x = fnGen s x from rfl, hg]
  rw [ringConfig, ht]
  exact if_pos hstale

/-- A ring that is Off takes a configuration that keeps R122. -/
theorem ringConfig_writes {s : State} {d : DRef} {f : InFlight} {x : FnId} {cq : Bool}
    (hx : (cq = true ∧ ∃ i, x = .cq i) ∨ (cq = false ∧ ∃ i, x = .sq i)) (ht : ringTarget f = some x) (ha : isAdminRing x = false)
    (hs : fnSt s x = .off) (hg : dGen f.desc = fnGen s x) (hc : ringCfgOk f.desc cq = true)
    (hp : bit f.desc 280 = true → d.sq = 0) : ringConfig d f (started d s) = writeRing d f x (startedAt d x s) := by
  have hoff : fnSt (startedAt d x s) x = .off := hs
  have hok : ¬ (isAdminRing x || decide (fnSt (startedAt d x s) x ≠ .off) || !ringCfgOk f.desc cq) = true := by simp [ha, hoff, hc]
  have hpriv : ¬ (bit f.desc 280 && decide (d.sq ≠ 0)) = true := by
    simpa using hp
  rw [ringConfig, ht]
  rcases hx with ⟨rfl, i, rfl⟩ | ⟨rfl, i, rfl⟩
  · exact (if_neg (genOk_startedAt hg d)).trans ((if_neg hok).trans (if_neg hpriv))
  · exact (if_neg (genOk_startedAt hg d)).trans ((if_neg hok).trans (if_neg hpriv))

/-- Only a submission ring may be made privileged (Table 4-12). -/
theorem unprivileged_of_ringCfgOk {x : BitVec 512} (h : ringCfgOk x true = true) : bit x 280 = false := by
  simp only [ringCfgOk, if_true, Bool.and_eq_true, Bool.not_eq_true'] at h
  obtain ⟨-, ⟨⟨⟨-, hpriv⟩, -⟩, -⟩, -⟩ := h
  exact hpriv

end Machine
end Sys2Proof
end

section
/-!
PROOF. Moderated interrupts (R129, R130), the doorbell page (R107, R110, R111), the descriptor audit (R58, R60, R62), and the statement of
RingRowsAndAudit.
-/
namespace Sys2Proof
namespace Machine

/-! ### Interrupts (R129) -/

theorem moderation_due {s : State} {q : Fin 64} (hen : (cqRing s q).irqEn = true) (ha : (cqRing s q).armed = true)
    (hu : 0 < (cqRing s q).unint) (ho : (cqRing s q).modTicks.toNat ≤ ageOf s (cqRing s q).oldest) :
    exec (.interruptModerationTimeout q) s = .next (cqInterrupt q s) := by
  refine congrArg Host.Outcome.next (if_pos ?_)
  simp [hen, ha, hu, ho]

theorem moderation_waits {s : State} {q : Fin 64} (h : (cqRing s q).irqEn = false ∨ (cqRing s q).armed = false
    ∨ (cqRing s q).unint = 0 ∨ ageOf s (cqRing s q).oldest < (cqRing s q).modTicks.toNat) :
    NoEffect (.interruptModerationTimeout q) s := by
  refine congrArg Host.Outcome.next (if_neg ?_)
  rcases h with h | h | h | h <;> simp [h]

/-- The interrupt leaves nothing to report, and the ring disarmed (R130). -/
theorem cqInterrupt_disarms (q) {s : State} (h : tblWf {} s.rings.cq = true) :
    (tblGet {} (cqInterrupt q s).rings.cq q.val).unint = 0 ∧ (tblGet {} (cqInterrupt q s).rings.cq q.val).armed = false := by
  have hcq : (cqInterrupt q s).rings.cq = tblSet {} s.rings.cq q.val { tblGet {} s.rings.cq q.val with unint := 0, armed := false } := by
    change tblSet {} (sendMsg _ s).rings.cq _ _ = _
    rw [(sendMsg_enz ..).rings_eq]
  rw [hcq, tblGet_tblSet_self _ _ _ _ h]
  exact ⟨rfl, rfl⟩

/-! ### The doorbell page (R107, R110, R111) -/

/-- Only the Enzen link, the rings, the counts and the count of free values differ, and no page that waits does. -/
def PagesKept (s t : State) : Prop :=
  t = { s with enz := t.enz, rings := t.rings, counts := t.counts, free := t.free } ∧ t.rings.page = s.rings.page

theorem PagesKept.refl (s : State) : PagesKept s s := ⟨rfl, rfl⟩

theorem PagesKept.trans {s t u : State} (h : PagesKept s t) (k : PagesKept t u) : PagesKept s u := by
  obtain ⟨ht, hp⟩ := h
  obtain ⟨hu, hq⟩ := k
  exact ⟨by rw [hu, ht], hq.trans hp⟩

theorem PagesKept.foldl {α : Type} {f : State → α → State} (h : ∀ s x, PagesKept s (f s x)) :
    ∀ (l : List α) (s : State), PagesKept s (l.foldl f s)
  | [], s => .refl s
  | x :: l, s => (h s x).trans (foldl h l (f s x))

theorem HostOnly.pagesKept {s t : State} (h : HostOnly s t) (hp : t.rings.page = s.rings.page) : PagesKept s t := by
  refine ⟨?_, hp⟩
  obtain ⟨x, y, z, rfl⟩ := h
  rfl

theorem EnzOnly.pagesKept {s t : State} (h : EnzOnly s t) : PagesKept s t := h.host.pagesKept (by rw [h.rings_eq])

theorem setSq_pagesKept (s i r) : PagesKept s (setSq s i r) := ⟨rfl, rfl⟩

theorem setCq_pagesKept (s j r) : PagesKept s (setCq s j r) := ⟨rfl, rfl⟩

theorem cqInterrupt_pagesKept (j s) : PagesKept s (cqInterrupt j s) := (sendMsg_enz ..).pagesKept.trans (setCq_pagesKept ..)

theorem applySqProd_pagesKept (page i s) : PagesKept s (applySqProd page i s) := by
  unfold applySqProd
  extract_lets v raw st
  split
  · exact .refl s
  · split
    · exact setSq_pagesKept ..
    · exact ⟨rfl, rfl⟩

theorem applyCqCons_pagesKept (page j s) : PagesKept s (applyCqCons page j s) := by
  unfold applyCqCons
  extract_lets v raw t r
  split
  · exact .refl s
  · split
    · exact (setCq_pagesKept ..).trans (cqInterrupt_pagesKept ..)
    · exact setCq_pagesKept ..

theorem applyEvCons_pagesKept (page s) : PagesKept s (applyEvCons page s) := by
  unfold applyEvCons
  extract_lets v
  split
  · exact .refl s
  · exact ⟨rfl, rfl⟩

theorem applyPage_pagesKept (page s) : PagesKept s (applyPage page s) :=
  (PagesKept.foldl (fun s i => (applySqProd_pagesKept page i s).trans (applyCqCons_pagesKept ..)) _ s).trans
    (applyEvCons_pagesKept ..)

theorem evFlush_host (n s) : HostOnly s (evFlush n s) := by
  induction n generalizing s with
  | zero => exact .rfl s
  | succ n ih =>
    unfold evFlush
    split
    · exact .rfl s
    · split
      · exact HostOnly.trans ⟨_, _, _, rfl⟩ ((evWrite_host ..).1.trans (ih _))
      · exact HostOnly.trans ⟨_, _, _, rfl⟩ ((evWrite_host ..).1.trans (ih _))
      · exact .rfl s

theorem evFlush_pagesKept (n s) : PagesKept s (evFlush n s) := by
  have hbooks := booksOf_evFlush n s
  simp only [booksOf, Prod.mk.injEq] at hbooks
  obtain ⟨-, -, -, hp, -⟩ := hbooks
  exact (evFlush_host n s).pagesKept hp

theorem fetchRing_pagesKept (i n s) : PagesKept s (fetchRing i n s) := by
  unfold fetchRing
  extract_lets r raw first k2 s1 _ s2 s3
  have hcount : PagesKept s s2 := ⟨rfl, rfl⟩
  have hfirst : PagesKept s s3 := hcount.trans (hostRead_enz ..).pagesKept
  split
  · exact hfirst.trans (hostRead_enz ..).pagesKept
  · exact hfirst

theorem fetchAll_pagesKept (is left s) : PagesKept s (fetchAll is left s) := by
  induction is generalizing left s with
  | nil => exact .refl s
  | cons i is ih =>
    unfold fetchAll
    extract_lets n
    split
    · exact ih ..
    · exact (fetchRing_pagesKept ..).trans (ih ..)

/-- The pages that are due apply in order, and events that were held follow while the ring takes them. -/
def pagesApplied (s : State) : State :=
  evFlush 512 ((s.rings.page.filter (fun p => reached s p.2)).foldl (fun s p => applyPage p.1 s)
    { s with rings.page := s.rings.page.filter (fun p => !reached s p.2) })

theorem pagesApplied_pagesKept (s) :
    PagesKept { s with rings.page := s.rings.page.filter (fun p => !reached s p.2) } (pagesApplied s) := by
  have happly : ∀ (s : State) (p : List Byte × BitVec 48), PagesKept s (applyPage p.1 s) := fun s p => applyPage_pagesKept p.1 s
  rw [pagesApplied]
  generalize s.rings.page.filter (fun p => reached s p.2) = due
  exact (PagesKept.foldl happly due _).trans (evFlush_pagesKept 512 _)

/-- The command applies what is due, and fetches unless the Attic restarts (R688). -/
theorem exec_doorbellPageApply {s : State} (h0 : s.tick.slot = 0) (ht : s.tick.todo = []) (hp : ∃ p ∈ s.rings.page, reached s p.2 = true) :
    exec .doorbellPageApply s = .next (if fetchPaused s then pagesApplied s
      else fetchAll (ringOrder (pagesApplied s)) 64 (pagesApplied s)) := by
  obtain ⟨p, hmem, hr⟩ := hp
  have hdue : (s.rings.page.filter (fun p => reached s p.2)).isEmpty = false :=
    List.isEmpty_eq_false_iff_exists_mem.mpr ⟨p, List.mem_filter.mpr ⟨hmem, hr⟩⟩
  have hpause : fetchPaused (pagesApplied s) = fetchPaused s := by
    rw [(pagesApplied_pagesKept s).1]
    rfl
  have hgo : ¬ (decide (s.tick.slot ≠ 0) || (s.rings.page.filter (fun p => reached s p.2)).isEmpty) = true := by simp [h0, hdue]
  rw [← hpause]
  change Host.Outcome.next (doorbellApply (runInner 9 s)) = _
  rw [runInner_idle ht]
  exact congrArg Host.Outcome.next (if_neg hgo)

theorem doorbellPageApply_waits {s : State} (ht : s.tick.todo = [])
    (h : s.tick.slot ≠ 0 ∨ ∀ p ∈ s.rings.page, reached s p.2 = false) : NoEffect .doorbellPageApply s := by
  change Host.Outcome.next (doorbellApply (runInner 9 s)) = _
  rw [runInner_idle ht]
  refine congrArg Host.Outcome.next (if_pos ?_)
  rcases h with h | h
  · simp [h]
  · have hnone : s.rings.page.filter (fun p => reached s p.2) = [] := List.filter_eq_nil_iff.mpr fun p hp => by simp [h p hp]
    simp [hnone]

/-! ### The descriptor audit (R58, R60, R62) -/

theorem EnzOnly.counts_eq {s t : State} (h : EnzOnly s t) : t.counts = s.counts := by rw [h.eq]

theorem sideband_putCompletion (j f st r s) : (putCompletion j f st r s).counts.sideband = s.counts.sideband :=
  have hbump : ∀ w x, (bumpModule w x).counts.sideband = x.counts.sideband := fun _ _ => rfl
  (hbump ..).trans (congrArg Counts.sideband
    (toHost_enz _ (fun _ => (sendFrame_enz ..).trans (consumerPut_enz ..)) s).counts_eq)

theorem counts_cqModerate (j b s) : (cqModerate j b s).counts = s.counts := by
  rcases cqModerate_cases j b s with h | h <;> rw [h]
  exact (sendMsg_enz ..).counts_eq

/-- A completion is no event. -/
theorem sideband_complete (d st r s) : (complete d st r s).counts.sideband = s.counts.sideband := by
  unfold complete
  split
  · rfl
  · extract_lets j t
    split
    · rfl
    · rw [counts_cqModerate]
      exact sideband_putCompletion ..

/-- The descriptors of a list end with TIMEOUT. -/
def timeOut (ds : List DRef) (s : State) : State := ds.foldl (fun s d => complete d stTimeout 0 s) s

theorem timeOut_flight (ds s) : (timeOut ds s).rings.flight = s.rings.flight.filter (fun g => g.ref ∉ ds) := by
  induction ds generalizing s with
  | nil => simp [timeOut]
  | cons d ds ih =>
    refine (ih _).trans ?_
    rw [complete_flight, List.filter_filter]
    exact List.filter_congr fun g _ => by simp [Bool.and_comm]

theorem timeOut_sideband (ds s) : (timeOut ds s).counts.sideband = s.counts.sideband := by
  induction ds generalizing s with
  | nil => rfl
  | cons d ds ih => exact (ih _).trans (sideband_complete ..)

/-- The state in which the mismatch of a ring has been raised (R60, R61). -/
def ringMismatch (s : State) (i : Fin 64) : State := auditMismatch 4 i.val 0 (ringDiff s i) (fnGen s (.sq i)) s

/-- A ring's count of completions brought to its reference (R60). -/
def agreeRing (s : State) (i : Fin 64) : State :=
  setSq s i { tblGet {} s.rings.sq i.val with
    completed := (tblGet {} s.rings.sq i.val).consumed - BitVec.ofNat 32 (sqLoad s i) }

theorem auditRing_agrees {s : State} {i : Fin 64} (h : ringDiff s i = 0) : auditRing s i = s := if_pos h

theorem auditRing_differs {s : State} {i : Fin 64} (h : ringDiff s i ≠ 0) :
    auditRing s i = agreeRing (timeOut (orphans s i) (ringMismatch s i)) i := if_neg h

theorem ringMismatch_sideband (s i) : (ringMismatch s i).counts.sideband = s.counts.sideband ++
    [{ code := 0x15, unit := BitVec.ofNat 16 i.val, gen := fnGen s (.sq i), tick := nowTick s,
       detail := BitVec.ofNat 128 (5 + (ringDiff s i % 4294967296).toNat * 65536) }] := by
  unfold ringMismatch auditMismatch
  rw [raiseEv_sideband]
  simp only [Nat.shiftLeft_eq]
  rfl

/-- The audit counts descriptors in flight and descriptors being fetched. -/
theorem sqLoad_of_booksOf {s t : State} (h : booksOf t = booksOf s) (i) : sqLoad t i = sqLoad s i := by
  simp only [booksOf, Prod.mk.injEq] at h
  obtain ⟨-, -, hflight, -, hreads⟩ := h
  simp only [sqLoad, hflight, hreads]

/-- The ring's counts agree: what was consumed and has not completed is what is in flight or being fetched. -/
theorem agreeRing_agrees {s : State} {i : Fin 64} (hw : tblWf {} s.rings.sq = true) (hl : sqLoad s i < 2 ^ 32) :
    let r := tblGet {} (agreeRing s i).rings.sq i.val
    (r.consumed - r.completed).toNat = sqLoad s i := by
  intro r
  have hr : r = { tblGet {} s.rings.sq i.val with
      completed := (tblGet {} s.rings.sq i.val).consumed - BitVec.ofNat 32 (sqLoad s i) } :=
    tblGet_tblSet_self {} s.rings.sq i.val _ hw
  rw [hr, sub_sub_cancel, BitVec.toNat_ofNat, Nat.mod_eq_of_lt hl]

theorem descriptorAudit_agrees {s : State} (h : ∀ i, ringDiff s i = 0) : NoEffect .descriptorAudit s := by
  have hfold : (List.finRange 64).foldl auditRing s = s := by
    generalize List.finRange 64 = l
    induction l with
    | nil => rfl
    | cons i l ih => rwa [List.foldl_cons, auditRing_agrees (h i)]
  refine congrArg Host.Outcome.next ?_
  rw [hfold, ite_self]

theorem auditRing_event {s : State} {i : Fin 64} (h : ringDiff s i ≠ 0) : (auditRing s i).counts.sideband = s.counts.sideband ++
    [{ code := 0x15, unit := BitVec.ofNat 16 i.val, gen := fnGen s (.sq i), tick := nowTick s,
       detail := BitVec.ofNat 128 (5 + (ringDiff s i % 4294967296).toNat * 65536) }] := by
  rw [auditRing_differs h, ← ringMismatch_sideband]
  exact timeOut_sideband ..

/-- The audit leaves no descriptor in flight that has no work in flight (R62). -/
theorem auditRing_orphans {s : State} {i : Fin 64} (h : ringDiff s i ≠ 0) {d : DRef} (hd : d ∈ orphans s i) :
    flightOf (auditRing s i) d = none := by
  rw [auditRing_differs h, flightOf_eq_none]
  intro f hf
  obtain ⟨-, hnot⟩ := List.mem_filter.mp ((congrArg (f ∈ ·) (timeOut_flight ..)).mp hf)
  rintro rfl
  exact of_decide_eq_true hnot hd

theorem auditRing_agreement {s : State} {i : Fin 64} (h : ringDiff s i ≠ 0) (ho : orphans s i = []) (hl : sqLoad s i < 2 ^ 32)
    (hw : tblWf {} s.rings.sq = true) :
    ((tblGet {} (auditRing s i).rings.sq i.val).consumed - (tblGet {} (auditRing s i).rings.sq i.val).completed).toNat
      = sqLoad s i := by
  have hbooks : booksOf (ringMismatch s i) = booksOf s := booksOf_auditMismatch ..
  have hsq : (ringMismatch s i).rings.sq = s.rings.sq := congrArg Prod.fst hbooks
  have hload : sqLoad (ringMismatch s i) i = sqLoad s i := sqLoad_of_booksOf hbooks i
  rw [auditRing_differs h, ho]
  exact (agreeRing_agrees (s := ringMismatch s i) (by rw [hsq]; exact hw) (by rw [hload]; exact hl)).trans hload

theorem ended_writeRing {s u : State} (h : HostOnly s u) {x : FnId} (hx : (∃ i, x = .cq i) ∨ ∃ i, x = .sq i) (d f) :
    Ended s d (writeRing d f x u) := by
  rcases hx with ⟨i, rfl⟩ | ⟨i, rfl⟩
  · exact ended_complete (h.trans (setCq_host ..)) ..
  · exact ended_complete (h.trans (setSq_host ..)) ..

theorem ringOf_fields (x : BitVec 512) (r : Ring) : (ringOf x r).base = dWord x 24
    ∧ (ringOf x r).depthLog2 = BitVec.ofNat 5 (fld x 256 8) ∧ (ringOf x r).tenant = BitVec.ofNat 8 (fld x 272 8)
    ∧ (ringOf x r).irqEn = bit x 281 ∧ (ringOf x r).vector = BitVec.ofNat 8 (fld x 288 16)
    ∧ (ringOf x r).modCount = BitVec.ofNat 16 (fld x 304 16) ∧ (ringOf x r).modTicks = BitVec.ofNat 16 (fld x 320 16)
    ∧ (fld x 264 8 < 64 → (ringOf x r).cq.val = fld x 264 8) ∧ (ringOf x r).prod = r.prod ∧ (ringOf x r).cons = r.cons :=
  ⟨rfl, rfl, rfl, rfl, rfl, rfl, rfl, fun h => Nat.mod_eq_of_lt h, rfl, rfl⟩

/-! ### The statement -/

/-- Settles O5: each clause is the lemma of its row; the last is the audit of one ring. -/
theorem ringRowsAndAudit : Obligations.RingRowsAndAudit := by
  unfold Obligations.RingRowsAndAudit
  refine ⟨⟨?_, ?_, ?_, ?_, ?_, ?_, ?_, ?_, ?_, ?_, ?_, ?_, ?_, ?_, ?_, ?_, ?_, ?_, ?_⟩, ?_⟩
  · exact fun s d f hf hm ho => congrArg Host.Outcome.next (withDesc_of_startable ⟨hf, hm, ho⟩ _)
  · exact fun s d f hf hst hk => reservedOpcode_eq hf hst hk
  · exact fun s d f hf hfence hflight hfetch => fenceRelease_due hf hfence hflight hfetch
  · exact fun s d g h => fenceRelease_waits (h.imp_left fun hg => ⟨g, hg⟩)
  · exact fun s d f hf ht hl => congrArg Host.Outcome.next (timedStart_reached hf ht hl)
  · exact fun s d h => congrArg Host.Outcome.next (timedStart_waits h)
  · exact fun s => ⟨fun h => if_neg h, closeBoundary_idle⟩
  · intro s d f i hf hm ho ht hi hs hg hc
    have hu := unprivileged_of_ringCfgOk hc
    have hcfg := (exec_ringConfig ⟨hf, hm, ho⟩).trans (congrArg Host.Outcome.next
      (ringConfig_writes (d := d) (.inl ⟨rfl, i, rfl⟩) ht (by simpa [isAdminRing] using hi) hs hg hc (by simp [hu])))
    obtain ⟨hend, hhost⟩ := ended_writeRing (startedAt_host d (.cq i) s) (.inl ⟨i, rfl⟩) d f
    exact ⟨hcfg, _, hcfg, hhost, hend⟩
  · intro s d f i hf hm ho ht hi hs hg hc hp
    have hcfg := (exec_ringConfig ⟨hf, hm, ho⟩).trans (congrArg Host.Outcome.next
      (ringConfig_writes (.inr ⟨rfl, i, rfl⟩) ht (by simpa [isAdminRing] using hi) hs hg hc hp))
    obtain ⟨hend, hhost⟩ := ended_writeRing (startedAt_host d (.sq i) s) (.inr ⟨i, rfl⟩) d f
    exact ⟨hcfg, _, hcfg, hhost, hend⟩
  · exact fun s d f e hf hm ho ht hg =>
      (exec_ringConfig ⟨hf, hm, ho⟩).trans (congrArg Host.Outcome.next (ringConfig_stale ht hg d))
  · exact ringOf_fields
  · exact fun s q hen ha hu ho =>
      ⟨_, moderation_due hen ha hu ho, rfl, (cqInterrupt_host q s).1, cqInterrupt_disarms q, hostFrames_cqInterrupt q s⟩
  · exact fun s q h => moderation_waits h
  · intro s h0 ht hp hpause
    exact (exec_doorbellPageApply h0 ht hp).trans (congrArg Host.Outcome.next (if_neg (ne_true_of_eq_false hpause)))
  · intro s h0 ht hp
    have hkept : PagesKept { s with rings.page := s.rings.page.filter (fun p => !reached s p.2) } (if fetchPaused s then pagesApplied s
        else fetchAll (ringOrder (pagesApplied s)) 64 (pagesApplied s)) := by
      split
      · exact pagesApplied_pagesKept s
      · exact (pagesApplied_pagesKept s).trans (fetchAll_pagesKept ..)
    obtain ⟨heq, hpage⟩ := hkept
    exact ⟨_, exec_doorbellPageApply h0 ht hp, hpage, heq⟩
  · exact fun s ht h => doorbellPageApply_waits ht h
  · exact fun s h0 hk => congrArg Host.Outcome.next (if_pos (by simp [h0, hk]))
  · exact fun s h => descriptorAudit_agrees h
  · exact fun s h => congrArg Host.Outcome.next (if_neg (by simpa [imp_iff_not_or] using h))
  · exact fun s i h => ⟨⟨_, auditRing_event h, rfl, rfl, rfl, rfl⟩, fun _ hd => auditRing_orphans h hd,
      fun ho hl hw => auditRing_agreement h ho hl hw, auditRing_host s i⟩

end Machine
end Sys2Proof
end

section
/-!
PROOF. The bring-up of Enzen, its capability exchange and its replay (R92, R93, R100, R814): what the return to Active sends, and each
clause of EnzenBringUpAndReplay.
-/
namespace Sys2Proof
namespace Machine

/-! ### What the return to Active sends (R140, R814) -/

/-- The frames that are no MEM_RD: those that the link may not lose, for a read is issued again for itself (R814). -/
def lasting (fs : List HostFrame) : List HostFrame := fs.filter (fun f => decide (f.ftype ≠ 0x01))

theorem lasting_append (fs gs) : lasting (fs ++ gs) = lasting fs ++ lasting gs := List.filter_append ..

theorem lasting_reads {fs : List HostFrame} (h : ∀ f ∈ fs, f.ftype = 0x01) : lasting fs = [] :=
  List.filter_eq_nil_iff.mpr fun f hf => by simp [h f hf]

/-- Frames that waited and reads have been sent: nothing that was sent is taken back, no frame is lost, and of the link only its frames and
its reads differ. -/
def Flushed (s t : State) : Prop :=
  t = { s with enz := { s.enz with sent := t.enz.sent, txSeq := t.enz.txSeq, nak := t.enz.nak, ackAt := t.enz.ackAt,
                                   held := t.enz.held, reads := t.enz.reads } }
    ∧ s.enz.sent <+: t.enz.sent ∧ lasting (hostFrames t) = lasting (hostFrames s)

theorem Flushed.refl (s : State) : Flushed s s := ⟨rfl, List.prefix_rfl, rfl⟩

theorem Flushed.trans {s t u : State} (h : Flushed s t) (k : Flushed t u) : Flushed s u := by
  obtain ⟨ht, hsent, hl⟩ := h
  obtain ⟨hu, hsent', hl'⟩ := k
  exact ⟨by rw [hu, ht], hsent.trans hsent', hl'.trans hl⟩

/-- The oldest frame held is sent. -/
theorem sendNow_flushed {s : State} {f : HostFrame} {t : List HostFrame} (h : s.enz.held = f :: t) :
    Flushed s (sendNow f { s with enz.held := t }) :=
  ⟨rfl, List.prefix_append .., by simp [hostFrames, sendNow, h]⟩

theorem flushHeld_flushed (n s) : Flushed s (flushHeld n s) := by
  induction n generalizing s with
  | zero => exact .refl s
  | succ n ih =>
    unfold flushHeld
    split
    · exact .refl s
    next f t h =>
      split
      · exact (sendNow_flushed h).trans (ih _)
      · exact .refl s

/-- A MEM_RD is sent while no frame is held. -/
theorem sendRead_flushed {s : State} (h : s.enz.held = []) (r t rs) :
    Flushed s (sendNow (readFrame r t) { s with enz.reads := rs }) := by
  refine ⟨rfl, List.prefix_append .., ?_⟩
  simp [hostFrames, sendNow, h, lasting, readFrame]

theorem issueRead_flushed (s) : Flushed s (issueRead s) := by
  unfold issueRead
  split
  next h =>
    obtain ⟨-, hheld, -⟩ := h
    split
    · split
      · exact sendRead_flushed hheld ..
      · exact .refl s
    · exact .refl s
  · exact .refl s

theorem issueReads_flushed (n s) : Flushed s (issueReads n s) := by
  induction n generalizing s with
  | zero => exact .refl s
  | succ n ih => exact (issueRead_flushed s).trans (ih _)

/-- The MEM_RDs that a pass through Detect makes never sent (R814). -/
def readsAgain (s : State) : List HostRead :=
  if s.enz.viaDetect then
    s.enz.reads.map (fun r => if r.done then r else { r with got := 0, fail := none, data := [] }) else s.enz.reads

/-- The link Active at a level, with every frame that a pass through Detect lost held before those that waited. -/
def returning (level : BitVec 2) (s : State) : State :=
  { s with enz := { s.enz with
      st := .active, level := level, since := s.tick.ns, lost := [], viaDetect := false, toActive := false, reads := readsAgain s,
      held := s.enz.lost ++ (if s.enz.viaDetect then (readsAgain s).filterMap reissue else []) ++ s.enz.held } }

theorem enzActive_flushed (level s) : Flushed (returning level s) (enzActive level s) :=
  (flushHeld_flushed ..).trans (issueReads_flushed ..)

theorem reissue_ftype {r : HostRead} {f : HostFrame} (h : reissue r = some f) : f.ftype = 0x01 := by
  unfold reissue at h
  split at h
  · cases h
    rfl
  · cases h

/-- No frame is lost where the link is Active again (R814). -/
theorem lasting_returning (level s) : lasting (hostFrames (returning level s))
    = lasting (s.enz.sent.map (·.frame) ++ s.enz.lost ++ s.enz.held) := by
  have hagain : lasting (if s.enz.viaDetect then (readsAgain s).filterMap reissue else []) = [] := by
    refine lasting_reads fun f hf => ?_
    split at hf
    · obtain ⟨r, -, hr⟩ := List.mem_filterMap.mp hf
      exact reissue_ftype hr
    · cases hf
  change lasting (s.enz.sent.map (·.frame) ++ (s.enz.lost ++ (if s.enz.viaDetect then (readsAgain s).filterMap reissue else [])
    ++ s.enz.held)) = _
  simp only [lasting_append, hagain, List.nil_append, List.append_assoc]

/-- Entering Active (R93, R814). -/
theorem enzActive_spec (lv : BitVec 2) (s : State) : let t := enzActive lv s
    t.enz.st = .active ∧ t.enz.level = lv ∧ t.enz.since = s.tick.ns ∧ t.enz.lost = [] ∧ t.enz.viaDetect = false
      ∧ t.enz.toActive = false ∧ EnzOnly s t
      ∧ lasting (t.enz.sent.map (·.frame) ++ t.enz.held)
        = lasting (s.enz.sent.map (·.frame) ++ s.enz.lost ++ s.enz.held) := by
  intro t
  obtain ⟨ht, -, hl⟩ := enzActive_flushed lv s
  have henz := congrArg State.enz ht
  exact ⟨congrArg Enzen.st henz, congrArg Enzen.level henz, congrArg Enzen.since henz, congrArg Enzen.lost henz,
    congrArg Enzen.viaDetect henz, congrArg Enzen.toActive henz, ⟨_, ht⟩, hl.trans (lasting_returning lv s)⟩

/-- The adapter's CAP stays, and what was sent stays before what is sent now. -/
theorem enzActive_keeps (lv s) : (enzActive lv s).enz.cap = s.enz.cap ∧ s.enz.sent <+: (enzActive lv s).enz.sent := by
  obtain ⟨ht, hsent, -⟩ := enzActive_flushed lv s
  exact ⟨(congrArg (fun x : State => x.enz.cap) ht :), hsent⟩

/-! ### The ways out of each state (Table 4-3) -/

theorem signalDetected_detect {s : State} (h : s.enz.st = .detect) :
    exec .enzenSignalDetected s = .next { s with enz.st := .trainE1, enz.since := s.tick.ns } :=
  congrArg Host.Outcome.next (if_pos h)

theorem signalDetected_elsewhere {s : State} (h : s.enz.st ≠ .detect) : NoEffect .enzenSignalDetected s :=
  congrArg Host.Outcome.next (if_neg h)

/-- What FEC lock held for 1 ms makes of each state. -/
theorem exec_fecLockHeld (s : State) : exec .enzenFecLockHeld s = .next (match s.enz.st with
    | .trainE1 => if s.enz.toActive then enzActive 1 s else sendHostCap (enzEnter .negotiate { s with enz.level := 1 })
    | .trainE2 => enzActive 2 s
    | .retrain => enzActive s.enz.level s
    | _ => s) := rfl

/-- CAP is sent, and the time of it noted (R100). -/
theorem sendHostCap_spec (s) : (sendHostCap s).enz.capAt = s.tick.ns ∧ (sendHostCap s).enz.st = s.enz.st
    ∧ (sendHostCap s).enz.since = s.enz.since ∧ (sendHostCap s).enz.level = s.enz.level ∧ (sendHostCap s).enz.held = s.enz.held
    ∧ EnzOnly s (sendHostCap s) ∧ ∃ x, (sendHostCap s).enz.sent = s.enz.sent ++ [x] ∧ x.frame = ownHostCap s :=
  ⟨rfl, rfl, rfl, rfl, rfl, ⟨_, rfl⟩, _, rfl, rfl⟩

/-- How long a state may last before the link goes on without lock (Table 4-3). -/
def bringupLimit : EnzSt → Nat
  | .negotiate => 20000000
  | .retrain => 50000000
  | _ => 200000000

/-- Where a bring-up state goes that has lasted too long. -/
def bringupFailed (s : State) : State :=
  match s.enz.st with
  | .trainE2 => enzActive 1 { s with enz.fallbacks := s.enz.fallbacks + 1 }
  | .retrain => enzToDetect (raiseSide { code := 0x22, detail := 5 } s)
  | _ => enzToDetect s

theorem bringupTimeout_due {s : State} (hst : s.enz.st = .trainE1 ∨ s.enz.st = .negotiate ∨ s.enz.st = .trainE2 ∨ s.enz.st = .retrain)
    (ht : s.enz.since + bringupLimit s.enz.st ≤ s.tick.ns) : exec .enzenBringupTimeout s = .next (bringupFailed s) := by
  change execEnzenBringupTimeout s = _
  unfold execEnzenBringupTimeout bringupFailed
  rcases hst with h | h | h | h <;> rw [h] at ht ⊢ <;> exact congrArg Host.Outcome.next (if_pos (decide_eq_true ht))

theorem bringupTimeout_waits {s : State} (h : s.enz.st = .detect ∨ s.enz.st = .active ∨ s.tick.ns < s.enz.since + bringupLimit s.enz.st) :
    NoEffect .enzenBringupTimeout s := by
  change execEnzenBringupTimeout s = _
  unfold execEnzenBringupTimeout
  rcases h with h | h | h
  · rw [h]
  · rw [h]
  · have hwait := decide_eq_false (Nat.not_le.mpr h)
    cases hs : s.enz.st <;> rw [hs] at hwait
    all_goals exact congrArg Host.Outcome.next (if_neg (ne_true_of_eq_false hwait))

theorem enzToDetect_spec (s : State) : let t := enzToDetect s
    t.enz.st = .detect ∧ t.enz.since = s.tick.ns ∧ t.enz.viaDetect = true ∧ t.enz.sent = [] ∧ t.enz.txSeq = 0 ∧ t.enz.rxExp = 0
      ∧ t.enz.cap = none ∧ t.enz.capAck = false ∧ t.enz.held = s.enz.held ∧ t.enz.reads = s.enz.reads ∧ EnzOnly s t
      ∧ ∀ x ∈ s.enz.sent, x.frame.ftype ≠ 0x01 → x.frame.ftype ≠ 0x09 → x.frame ∈ t.enz.lost := by
  refine ⟨rfl, rfl, rfl, rfl, rfl, rfl, rfl, rfl, rfl, rfl, ⟨_, rfl⟩, fun x hx h1 h9 => ?_⟩
  have hagain : sentAgain x.frame = true := by
    rw [sentAgain, decide_eq_false h9]
    simpa using h1
  exact List.mem_append_right _ (List.mem_filter.mpr ⟨List.mem_map.mpr ⟨x, hx, rfl⟩, hagain⟩)

theorem raiseSide_counts (e s) : raiseSide e s = { s with counts := (raiseSide e s).counts } := rfl

theorem raiseSide_sideband (e s) : (raiseSide e s).counts.sideband = s.counts.sideband ++ [{ e with tick := nowTick s }] := rfl

theorem enzToDetect_setCounts (s : State) (x) : enzToDetect { s with counts := x } = { enzToDetect s with counts := x } := rfl

/-- An event that is raised as the link goes to Detect reaches the sideband and the log (Table 22-8a). -/
theorem enzToDetect_raiseSide (e s) : enzToDetect (raiseSide e s) = { enzToDetect s with counts := (raiseSide e s).counts } :=
  (congrArg enzToDetect (raiseSide_counts e s)).trans (enzToDetect_setCounts ..)

/-- Retraining is counted (R93). -/
def toRetrain (s : State) : State := bumpModule 20 { s with enz.st := .retrain, enz.since := s.tick.ns, enz.naks := [] }

theorem fecLockLost_active {s : State} (h : s.enz.st = .active) : exec .enzenFecLockLost s = .next (toRetrain s) :=
  congrArg Host.Outcome.next (if_pos h)

theorem fecLockLost_elsewhere {s : State} (h : s.enz.st ≠ .active) : NoEffect .enzenFecLockLost s :=
  congrArg Host.Outcome.next (if_neg h)

theorem nakLimit_due {s : State} (h : s.enz.st = .active) (hn : 16 ≤ (s.enz.naks.filter (fun k => ageOf s k < 1024)).length) :
    exec .enzenNakLimit s = .next (toRetrain s) :=
  congrArg Host.Outcome.next (if_pos (Bool.and_eq_true_iff.mpr ⟨decide_eq_true h, decide_eq_true hn⟩))

theorem nakLimit_waits {s : State} (h : s.enz.st ≠ .active ∨ (s.enz.naks.filter (fun k => ageOf s k < 1024)).length < 16) :
    NoEffect .enzenNakLimit s := by
  refine congrArg Host.Outcome.next (if_neg fun hgo => ?_)
  obtain ⟨hst, hn⟩ := Bool.and_eq_true_iff.mp hgo
  rcases h with h | h
  · exact h (of_decide_eq_true hst)
  · exact absurd (of_decide_eq_true hn) (Nat.not_le.mpr h)

/-! ### LINK_CTL (R100) -/

/-- Of the link only the inbox differs. -/
theorem takeInbox_eq (ty s) : takeInbox ty s = { s with enz.inbox := (takeInbox ty s).enz.inbox } := by
  unfold takeInbox
  split <;> rfl

theorem takeInbox_none {s : State} {ty : BitVec 8} (h : ∀ f ∈ s.enz.inbox, f.ftype ≠ ty) : takeInbox ty s = s := by
  have hnone : s.enz.inbox.findIdx? (fun f => decide (f.ftype = ty)) = none :=
    List.findIdx?_eq_none_iff.mpr fun f hf => decide_eq_false (h f hf)
  rw [takeInbox, hnone]

/-- The first frame of the type leaves the inbox. -/
theorem takeInbox_first {s : State} {ty : BitVec 8} {a b : List HostFrame} {f : HostFrame} (hs : s.enz.inbox = a ++ f :: b)
    (hf : f.ftype = ty) (ha : ∀ g ∈ a, g.ftype ≠ ty) : (takeInbox ty s).enz.inbox = a ++ b := by
  have hnone : a.findIdx? (fun g => decide (g.ftype = ty)) = none :=
    List.findIdx?_eq_none_iff.mpr fun g hg => decide_eq_false (ha g hg)
  have hfirst : s.enz.inbox.findIdx? (fun g => decide (g.ftype = ty)) = some a.length := by
    simp [hs, List.findIdx?_append, hnone, List.findIdx?_cons, hf]
  rw [takeInbox, hfirst]
  simp [hs, List.eraseIdx_append_of_length_le]

theorem takeInbox_st (ty s) : (takeInbox ty s).enz.st = s.enz.st := (congrArg (fun x : State => x.enz.st) (takeInbox_eq ty s) :)
theorem takeInbox_cap (ty s) : (takeInbox ty s).enz.cap = s.enz.cap := (congrArg (fun x : State => x.enz.cap) (takeInbox_eq ty s) :)
theorem takeInbox_capAck (ty s) : (takeInbox ty s).enz.capAck = s.enz.capAck :=
  (congrArg (fun x : State => x.enz.capAck) (takeInbox_eq ty s) :)
theorem takeInbox_held (ty s) : (takeInbox ty s).enz.held = s.enz.held := (congrArg (fun x : State => x.enz.held) (takeInbox_eq ty s) :)
theorem takeInbox_sent (ty s) : (takeInbox ty s).enz.sent = s.enz.sent := (congrArg (fun x : State => x.enz.sent) (takeInbox_eq ty s) :)
theorem takeInbox_reads (ty s) : (takeInbox ty s).enz.reads = s.enz.reads := (congrArg (fun x : State => x.enz.reads) (takeInbox_eq ty s) :)
theorem takeInbox_tick (ty s) : (takeInbox ty s).tick = s.tick := (congrArg State.tick (takeInbox_eq ty s) :)

/-- Negotiate goes on until the adapter's CAP and a CAP_ACK are held. -/
theorem enzNegoDone_waits {s : State} (h : s.enz.cap = none ∨ s.enz.capAck = false) : enzNegoDone s = s := by
  unfold enzNegoDone
  split
  next _ c _ hc ha => rcases h with h | h <;> simp_all
  · rfl

/-- Both are held: the link trains at E2 where the adapter offers it, and is Active at E1 otherwise. -/
theorem enzNegoDone_done {s : State} {c : HostCap} (hst : s.enz.st = .negotiate) (hc : s.enz.cap = some c) (ha : s.enz.capAck = true) :
    enzNegoDone s = if c.maxLevel = 2 then enzEnter .trainE2 s else enzActive 1 s := by
  simp only [enzNegoDone, hst, hc, ha]

/-- CAP_ACK is sent, and the adapter's CAP is kept. -/
def capTaken (c : HostCap) (s : State) : State := sendNow (linkCtl 0x02 0) { takeInbox 0x09 s with enz.cap := some c }

theorem capTaken_spec (c s) : (capTaken c s).enz.cap = some c ∧ (capTaken c s).enz.st = s.enz.st
    ∧ (capTaken c s).enz.capAck = s.enz.capAck ∧ (capTaken c s).enz.held = s.enz.held ∧ EnzOnly s (capTaken c s)
    ∧ ∃ x, (capTaken c s).enz.sent = s.enz.sent ++ [x] ∧ x.frame = linkCtl 0x02 0 := by
  refine ⟨rfl, takeInbox_st .., takeInbox_capAck .., takeInbox_held .., (takeInbox_enz 0x09 s).trans ⟨_, rfl⟩, ?_⟩
  rw [← takeInbox_sent 0x09 s]
  exact ⟨_, rfl, rfl⟩

theorem exec_linkCtlCap {s : State} (h : s.enz.st = .negotiate) (c) : exec (.linkCtlCap c) s = .next (enzNegoDone (capTaken c s)) :=
  congrArg Host.Outcome.next (if_pos ((takeInbox_st ..).trans h))

theorem linkCtlCap_waits {s : State} (h : s.enz.st = .negotiate) (ha : s.enz.capAck = false) (c : HostCap) :
    Completes (.linkCtlCap c) s fun t => t.enz.cap = some c ∧ t.enz.st = .negotiate ∧ t.enz.held = s.enz.held ∧ EnzOnly s t
      ∧ ∃ x, t.enz.sent = s.enz.sent ++ [x] ∧ x.frame = linkCtl 0x02 0 := by
  obtain ⟨hcap, hst, hack, hheld, henz, hsent⟩ := capTaken_spec c s
  refine ⟨_, exec_linkCtlCap h c, ?_⟩
  rw [enzNegoDone_waits (.inr (hack.trans ha))]
  exact ⟨hcap, hst.trans h, hheld, henz, hsent⟩

theorem linkCtlCap_done {s : State} (h : s.enz.st = .negotiate) (ha : s.enz.capAck = true) (c : HostCap) :
    Completes (.linkCtlCap c) s fun t => t.enz.cap = some c ∧ EnzOnly s t
      ∧ t.enz.st = (if c.maxLevel = 2 then EnzSt.trainE2 else EnzSt.active) ∧ (c.maxLevel ≠ 2 → t.enz.level = 1)
      ∧ ∃ x rest, t.enz.sent = s.enz.sent ++ x :: rest ∧ x.frame = linkCtl 0x02 0 := by
  obtain ⟨hcap, hst, hack, -, henz, x, hsent, hx⟩ := capTaken_spec c s
  refine ⟨_, exec_linkCtlCap h c, ?_⟩
  rw [enzNegoDone_done (hst.trans h) hcap (hack.trans ha)]
  split
  next h2 => exact ⟨hcap, henz.trans ⟨_, rfl⟩, rfl, fun hn => absurd h2 hn, x, [], hsent, hx⟩
  next =>
    obtain ⟨hactive, hlevel, -, -, -, -, henz', -⟩ := enzActive_spec 1 (capTaken c s)
    obtain ⟨hcap', rest, hrest⟩ := enzActive_keeps 1 (capTaken c s)
    refine ⟨hcap'.trans hcap, henz.trans henz', hactive, fun _ => hlevel, x, rest, ?_, hx⟩
    rw [← hrest, hsent, List.append_assoc]
    rfl

theorem exec_linkCtlCapAck {s : State} (h : s.enz.st = .negotiate) :
    exec .linkCtlCapAck s = .next (enzNegoDone { takeInbox 0x09 s with enz.capAck := true }) :=
  congrArg Host.Outcome.next (if_pos ((takeInbox_st ..).trans h))

theorem linkCtlCapAck_done {s : State} {c : HostCap} (h : s.enz.st = .negotiate) (hc : s.enz.cap = some c) :
    exec .linkCtlCapAck s = .next (if c.maxLevel = 2 then enzEnter .trainE2 { takeInbox 0x09 s with enz.capAck := true }
      else enzActive 1 { takeInbox 0x09 s with enz.capAck := true }) :=
  (exec_linkCtlCapAck h).trans (congrArg Host.Outcome.next
    (enzNegoDone_done ((takeInbox_st ..).trans h) ((takeInbox_cap ..).trans hc) rfl))

theorem linkCtlCapAck_waits {s : State} (h : s.enz.st = .negotiate) (hc : s.enz.cap = none) :
    exec .linkCtlCapAck s = .next { takeInbox 0x09 s with enz.capAck := true } :=
  (exec_linkCtlCapAck h).trans (congrArg Host.Outcome.next (enzNegoDone_waits (.inl ((takeInbox_cap ..).trans hc))))

theorem linkCtlCapRetry_due {s : State} (h : s.enz.st = .negotiate) (ha : s.enz.capAck = false) (ht : s.enz.capAt + 100000 ≤ s.tick.ns) :
    exec .linkCtlCapRetry s = .next (sendHostCap s) :=
  congrArg Host.Outcome.next (if_pos (by simp [h, ha, ht]))

theorem linkCtlCapRetry_waits {s : State} (h : s.enz.st ≠ .negotiate ∨ s.enz.capAck = true ∨ s.tick.ns < s.enz.capAt + 100000) :
    NoEffect .linkCtlCapRetry s := by
  refine congrArg Host.Outcome.next (if_neg ?_)
  rcases h with h | h | h <;> simp [h]

/-- The level that a LEVEL_REQ draws: E1 where it asks for it, E2 otherwise (log 115). -/
theorem levelReq_answer : ∀ lv : BitVec 2, lv ≠ 0 → (if lv = 3 then (2 : BitVec 2) else lv) = if lv = 1 then 1 else 2 := by decide

theorem levelReq_active {s : State} {lv : BitVec 2} (h : s.enz.st = .active) (h0 : lv ≠ 0) :
    Completes (.levelReq lv) s fun t => t.enz.st = (if lv = 1 then EnzSt.trainE1 else EnzSt.trainE2) ∧ t.enz.since = s.tick.ns
      ∧ t.enz.toActive = true ∧ t.enz.held = s.enz.held ∧ EnzOnly s t
      ∧ ∃ x, t.enz.sent = s.enz.sent ++ [x] ∧ x.frame = linkCtl (0x04 + (if lv = 1 then 1 else 2) * 1024) 0 := by
  have hgo : (decide ((takeInbox 0x09 s).enz.st = .active) && decide (lv ≠ 0)) = true := by
    simpa [takeInbox_st, h] using h0
  refine ⟨_, congrArg Host.Outcome.next (if_pos hgo), ?_⟩
  rw [levelReq_answer lv h0, ← takeInbox_sent 0x09 s, ← takeInbox_held 0x09 s, ← takeInbox_tick 0x09 s]
  refine ⟨?_, rfl, rfl, rfl, (takeInbox_enz 0x09 s).trans ⟨_, rfl⟩, _, rfl, ?_⟩
  · by_cases h1 : lv = 1 <;> simp [h1, enzEnter]
  · by_cases h1 : lv = 1
    · rw [if_pos h1, if_pos h1]
      rfl
    · rw [if_neg h1, if_neg h1]
      rfl

theorem levelReq_elsewhere {s : State} {lv : BitVec 2} (h : s.enz.st ≠ .active ∨ lv = 0) :
    exec (.levelReq lv) s = .next (takeInbox 0x09 s) := by
  refine congrArg Host.Outcome.next (if_neg ?_)
  rcases h with h | h <;> simp [takeInbox_st, h]

/-! ### Replay (R92) -/

/-- Every flit held goes again, with the ack and the nak that are due now. -/
theorem replayTimeout_due {s : State} (hst : s.enz.st = .negotiate ∨ s.enz.st = .active) (hs : s.enz.sent ≠ [])
    (ht : s.enz.ackAt + 2000 ≤ s.tick.ns) : Completes .enzenReplayTimeout s fun t =>
      t.enz.sent = s.enz.sent.map (fun x => { x with tries := x.tries + 1, ack := s.enz.rxExp - 1, nak := s.enz.nak })
      ∧ t = bumpModule 19 { s with enz.ackAt := s.tick.ns, enz.nak := false, enz.sent := t.enz.sent } := by
  have hgo : ((decide (s.enz.st = .negotiate) || decide (s.enz.st = .active)) && !s.enz.sent.isEmpty
      && decide (s.enz.ackAt + 2000 ≤ s.tick.ns)) = true := by simpa [hs, ht] using hst
  have hempty : ¬ s.enz.sent.isEmpty = true := by simpa using hs
  exact ⟨_, congrArg Host.Outcome.next ((if_pos hgo).trans (if_neg hempty)), rfl, rfl⟩

theorem replayTimeout_waits {s : State} (h : (s.enz.st ≠ .negotiate ∧ s.enz.st ≠ .active) ∨ s.enz.sent = []
    ∨ s.tick.ns < s.enz.ackAt + 2000) : NoEffect .enzenReplayTimeout s := by
  refine congrArg Host.Outcome.next (if_neg ?_)
  rcases h with ⟨hn, ha⟩ | h | h
  · simp [hn, ha]
  · simp [h]
  · simp [h]

/-! ### The statement -/

/-- Settles O3: each clause is the lemma of its event. -/
theorem enzenBringUpAndReplay : Obligations.EnzenBringUpAndReplay := by
  unfold Obligations.EnzenBringUpAndReplay
  refine ⟨⟨?_, ?_, ?_, ?_, ?_, ?_, ?_, ?_, ?_, ?_, ?_, ?_, ?_, ?_, ?_, ?_, ?_, ?_⟩,
    ?_, ?_, ?_, ?_, ?_, ?_, ?_, ?_, ?_, ?_, ?_, ?_, ?_, ?_⟩
  · exact fun s h => signalDetected_detect h
  · exact fun s h => signalDetected_elsewhere h
  · intro s h ha
    obtain ⟨hat, hst, hsince, hlevel, hheld, henz, hsent⟩ := sendHostCap_spec (enzEnter .negotiate { s with enz.level := 1 })
    refine ⟨_, by rw [exec_fecLockHeld, h, ha]; rfl, hst, hlevel, hsince, hat, hheld, ?_, hsent⟩
    exact EnzOnly.trans ⟨_, rfl⟩ henz
  · exact fun s h ha => by rw [exec_fecLockHeld, h, ha]; rfl
  · exact fun s h => by rw [exec_fecLockHeld, h]
  · exact fun s h => by rw [exec_fecLockHeld, h]
  · rintro s (h | h | h) <;> exact (exec_fecLockHeld s).trans (by rw [h])
  · exact fun s lv => enzActive_spec lv s
  · exact fun s h ht => (bringupTimeout_due (.inl h) (by rw [h]; exact ht)).trans (by rw [bringupFailed, h])
  · exact fun s h ht => (bringupTimeout_due (.inr (.inl h)) (by rw [h]; exact ht)).trans (by rw [bringupFailed, h])
  · exact fun s h ht => (bringupTimeout_due (.inr (.inr (.inl h))) (by rw [h]; exact ht)).trans (by rw [bringupFailed, h])
  · intro s h ht
    refine ⟨_, (bringupTimeout_due (.inr (.inr (.inr h))) (by rw [h]; exact ht)).trans (by rw [bringupFailed, h]), ?_⟩
    rw [enzToDetect_raiseSide]
    exact ⟨rfl, ⟨_, raiseSide_sideband .., rfl, rfl, rfl⟩, rfl⟩
  · intro s h
    refine bringupTimeout_waits (h.imp_right (Or.imp_right fun ht => ht.trans_eq ?_))
    cases s.enz.st <;> rfl
  · exact enzToDetect_spec
  · exact fun s h => fecLockLost_active h
  · exact fun s h => fecLockLost_elsewhere h
  · exact fun s h hn => nakLimit_due h hn
  · exact fun s h => nakLimit_waits h
  · exact fun s c h ha => linkCtlCap_waits h ha c
  · exact fun s c h ha => linkCtlCap_done h ha c
  · exact fun s c h => congrArg Host.Outcome.next (if_neg (by rw [takeInbox_st]; exact h))
  · exact fun s c h hc h2 => (linkCtlCapAck_done h hc).trans (by rw [if_pos h2])
  · exact fun s c h hc h2 => (linkCtlCapAck_done h hc).trans (by rw [if_neg h2])
  · exact fun s h hc => linkCtlCapAck_waits h hc
  · exact fun s h => congrArg Host.Outcome.next (if_neg (by rw [takeInbox_st]; exact h))
  · exact fun s ty => ⟨takeInbox_eq ty s, takeInbox_none, fun a b f hs hf ha => takeInbox_first hs hf ha⟩
  · intro s h ha ht
    obtain ⟨hat, hst, hsince, -, -, henz, hsent⟩ := sendHostCap_spec s
    exact ⟨_, linkCtlCapRetry_due h ha ht, hat, hst.trans h, hsince, henz, hsent⟩
  · exact fun s h => linkCtlCapRetry_waits h
  · exact fun s lv h h0 => levelReq_active h h0
  · exact fun s lv h => levelReq_elsewhere h
  · exact fun s hst hs ht => replayTimeout_due hst hs ht
  · exact fun s h => replayTimeout_waits h

end Machine
end Sys2Proof
end

section
/-!
PROOF. Received flits (R92, R94) and data for the part's reads (R95, R98, R107): the first clauses of HostFlitsAndDataMovement.
-/
namespace Sys2Proof
namespace Machine

/-! ### Flits (R92, R94) -/

/-- The link carries flits. -/
def carriesFlits (s : State) : Prop := s.enz.st = .negotiate ∨ s.enz.st = .active

theorem enzenFlit_down {s : State} (h : ¬ carriesFlits s) (flit) : enzenFlit flit s = s := by
  refine if_pos ?_
  simpa [carriesFlits] using h

theorem enzenFlit_up {s : State} (h : carriesFlits s) (flit) : enzenFlit flit s =
    if flitOk flit = false then { s with enz.nak := true }
    else if leAt flit 0 2 % 4096 ≠ s.enz.rxExp.toNat then s
    else
      let u := flitAck flit { s with enz.rxExp := s.enz.rxExp + 1, enz.nak := false }
      let r := unpackFrames 16 (u.enz.part ++ slice flit 4 192)
      r.1.foldl takeFrame { u with enz.part := r.2 } := by
  have hup : ¬ (decide (s.enz.st ≠ .negotiate) && decide (s.enz.st ≠ .active)) = true := by
    rcases h with h | h <;> simp [h]
  refine (if_neg hup).trans ?_
  simp only [Bool.not_eq_true']

/-- The frames whose last flit an acknowledgement covers are no longer kept (R92). -/
def ackTaken (a : BitVec 12) (s : State) : State :=
  { s with enz.sent := s.enz.sent.filter (fun f => decide ((a - s.enz.acked).toNat < (f.lastSeq - s.enz.acked).toNat)),
           enz.acked := a, enz.ackAt := s.tick.ns }

theorem enzAck_cases (a s) : enzAck a s = s ∨ enzAck a s = issueReads 512 (flushHeld s.enz.held.length (ackTaken a s)) := by
  unfold enzAck
  extract_lets n
  split
  · exact .inl rfl
  · exact .inr rfl

/-- An acknowledgement frees frames and lets others go: what was received so far stays. -/
theorem enzAck_spec (a s) : EnzOnly s (enzAck a s) ∧ (enzAck a s).enz.rxExp = s.enz.rxExp ∧ (enzAck a s).enz.part = s.enz.part := by
  rcases enzAck_cases a s with h | h <;> rw [h]
  · exact ⟨.rfl s, rfl, rfl⟩
  · obtain ⟨hflush, -, -⟩ := (flushHeld_flushed s.enz.held.length (ackTaken a s)).trans (issueReads_flushed 512 _)
    exact ⟨⟨_, hflush⟩, (congrArg (fun x : State => x.enz.rxExp) hflush :), (congrArg (fun x : State => x.enz.part) hflush :)⟩

theorem enzReplay_spec (s) : HostOnly s (enzReplay s) ∧ (enzReplay s).rings = s.rings ∧ (enzReplay s).enz.rxExp = s.enz.rxExp
    ∧ (enzReplay s).enz.part = s.enz.part := by
  unfold enzReplay
  split
  · exact ⟨.rfl s, rfl, rfl, rfl⟩
  · exact ⟨⟨_, _, _, rfl⟩, rfl, rfl, rfl⟩

/-- The acknowledgement that a flit carries. -/
def ackStep (flit : List Byte) (s : State) : State :=
  if bitsOf (leAt flit 0 4) 24 1 = 1 then enzAck (BitVec.ofNat 12 (bitsOf (leAt flit 0 4) 12 12)) s else s

theorem ackStep_spec (flit s) : EnzOnly s (ackStep flit s) ∧ (ackStep flit s).enz.rxExp = s.enz.rxExp
    ∧ (ackStep flit s).enz.part = s.enz.part := by
  unfold ackStep
  split
  · exact enzAck_spec ..
  · exact ⟨.rfl s, rfl, rfl⟩

theorem flitAck_eq (flit s) : flitAck flit s = if bitsOf (leAt flit 0 4) 25 1 = 1 then
    enzReplay { ackStep flit s with enz.naks := (ackStep flit s).enz.naks.filter (fun k => ageOf (ackStep flit s) k < 1024)
      ++ [(ackStep flit s).tick.elapsed] } else ackStep flit s := rfl

/-- A flit without nak changes the link alone; one with nak is counted as a replay too. -/
theorem flitAck_spec (flit s) : HostOnly s (flitAck flit s) ∧ (flitAck flit s).rings = s.rings
    ∧ (flitAck flit s).enz.rxExp = s.enz.rxExp ∧ (flitAck flit s).enz.part = s.enz.part
    ∧ (bitsOf (leAt flit 0 4) 25 1 = 0 → EnzOnly s (flitAck flit s)) := by
  obtain ⟨henz, hrx, hpart⟩ := ackStep_spec flit s
  rw [flitAck_eq]
  split
  next h1 =>
    obtain ⟨hhost, hrings, hrx', hpart'⟩ := enzReplay_spec { ackStep flit s with
      enz.naks := (ackStep flit s).enz.naks.filter (fun k => ageOf (ackStep flit s) k < 1024) ++ [(ackStep flit s).tick.elapsed] }
    refine ⟨henz.host.trans (HostOnly.trans ⟨_, _, _, rfl⟩ hhost), hrings.trans henz.rings_eq, hrx'.trans hrx, hpart'.trans hpart,
      fun h0 => absurd (h1.symm.trans h0) (by decide)⟩
  next => exact ⟨henz.host, henz.rings_eq, hrx, hpart, fun _ => henz⟩

/-! ### Data for reads (R95, R98, R107) -/

/-- The frame's tag names the read, whose data have not all arrived (R95). -/
def namesRead (f : HostFrame) (r : HostRead) : Bool :=
  !r.done && (match r.tag with
    | some t => t.val = f.tag.toNat
    | none => false)

theorem namesRead_of_tag {f : HostFrame} {r : HostRead} {k : Fin 512} (hd : r.done = false) (ht : r.tag = some k)
    (hk : k.val = f.tag.toNat) : namesRead f r = true := by
  simp [namesRead, hd, ht, hk]

/-- Data that name no read are counted and discarded (R814). -/
theorem memRdData_stray {s : State} {f : HostFrame} (h : s.enz.reads.findIdx? (namesRead f) = none) :
    memRdData f s = { takeInbox 0x02 s with enz.strayData := (takeInbox 0x02 s).enz.strayData + 1 } := by
  rw [← takeInbox_reads 0x02 s] at h
  change (match (takeInbox 0x02 s).enz.reads.findIdx? (namesRead f) with
    | none => _
    | some i => _) = _
  rw [h]

/-- A read counts its data, and has ended once all of them have come. -/
theorem memRdData_counts {s : State} {f : HostFrame} {i : Nat} {r : HostRead} (h : s.enz.reads.findIdx? (namesRead f) = some i)
    (hr : s.enz.reads[i]? = some r) :
    let c := countData f r
    let v := { takeInbox 0x02 s with enz.reads := s.enz.reads.set i c }
    memRdData f s = if c.done then settleUse r.use (if readStatus c = stDataError then hostBad c v else v) else v := by
  intro c v
  rw [← takeInbox_reads 0x02 s] at h hr
  change (match (takeInbox 0x02 s).enz.reads.findIdx? (namesRead f) with
    | none => _
    | some i => _) = _
  rw [h]
  simp only [hr]
  rw [takeInbox_reads]
  rfl

theorem countData_spec (f r) : (countData f r).got = r.got + f.payload.length
    ∧ (countData f r).done = decide (r.len ≤ r.got + f.payload.length) ∧ (countData f r).use = r.use ∧ (countData f r).len = r.len
    ∧ (f.status = stOk → (countData f r).data = memWrite r.data f.dataOffset.toNat f.payload ∧ (countData f r).fail = r.fail)
    ∧ (f.status ≠ stOk → r.fail = none → (countData f r).fail = some (f.dataOffset.toNat, f.status)) := by
  refine ⟨rfl, rfl, rfl, rfl, fun h => ?_, fun h hn => ?_⟩
  · simp [countData, h]
  · simp only [countData, if_neg h, hn]

/-- With no read of host memory none is issued. -/
theorem issueReads_none {s : State} (h : s.enz.reads = []) (n) : issueReads n s = s := by
  have hone : issueRead s = s := by simp [issueRead, h]
  induction n with
  | zero => rfl
  | succ n ih => rwa [issueReads, hone]

/-- A doorbell page that has been read waits for its boundary (R107). -/
theorem settleUse_doorbell {s : State} {n : BitVec 48} {c : HostRead} (hr : s.enz.reads = [c]) (hu : c.use = .doorbell n)
    (hd : c.done = true) (hf : c.fail = none) : settleUse (.doorbell n) s = { s with
      enz.reads := [], rings.page := s.rings.page ++ [(memRead c.data 0 c.len, prepDue s)] } := by
  have hmine : s.enz.reads.filter (fun r => r.use = .doorbell n) = [c] := by simp [hr, hu]
  have hrest : s.enz.reads.filter (fun r => r.use ≠ .doorbell n) = [] := by simp [hr, hu]
  have hfail : firstFailed [c] = none := by simp [firstFailed, hf]
  have hended : ¬ ([c].isEmpty || [c].any (fun r => !r.done)) = true := by simp [hd]
  unfold settleUse
  simp only [hmine, hrest]
  refine (if_neg hended).trans ?_
  simp only [useDone, hfail, pageGot, if_true, List.flatMap_cons, List.flatMap_nil, List.append_nil]
  exact issueReads_none rfl _

theorem memRdData_no_reads {s : State} (h : s.enz.reads = []) (f : HostFrame) :
    Completes (.memRdData f) s fun t => t.enz.strayData = s.enz.strayData + 1 ∧ t.enz.reads = [] ∧ EnzOnly s t := by
  refine ⟨_, congrArg Host.Outcome.next (memRdData_stray (by rw [h]; rfl)), ?_, ?_, (takeInbox_enz 0x02 s).trans ⟨_, rfl⟩⟩
  · exact congrArg (· + 1) (congrArg (fun x : State => x.enz.strayData) (takeInbox_eq 0x02 s) :)
  · exact (takeInbox_reads ..).trans h

theorem findIdx_single {f : HostFrame} {r : HostRead} (h : namesRead f r = true) : [r].findIdx? (namesRead f) = some 0 := by
  simp [List.findIdx?_cons, h]

theorem memRdData_goes_on {s : State} {f : HostFrame} {r : HostRead} (hs : s.enz.reads = [r]) (hn : namesRead f r = true)
    (hg : r.got + f.payload.length < r.len) :
    Completes (.memRdData f) s fun t => t.enz.reads = [countData f r] ∧ (countData f r).got = r.got + f.payload.length
      ∧ (countData f r).done = false ∧ (f.status = stOk → (countData f r).data = memWrite r.data f.dataOffset.toNat f.payload)
      ∧ (f.status ≠ stOk → r.fail = none → (countData f r).fail = some (f.dataOffset.toNat, f.status)) ∧ EnzOnly s t := by
  obtain ⟨hgot, hdone, -, -, hok, hfail⟩ := countData_spec f r
  have hmore : (countData f r).done = false := hdone.trans (decide_eq_false (Nat.not_le.mpr hg))
  have hcount := memRdData_counts (s := s) (r := r) (by rw [hs]; exact findIdx_single hn) (by rw [hs]; rfl)
  refine ⟨_, congrArg Host.Outcome.next (hcount.trans (if_neg (ne_true_of_eq_false hmore))), ?_, hgot, hmore,
    fun h => (hok h).1, hfail, (takeInbox_enz 0x02 s).trans ⟨_, rfl⟩⟩
  change s.enz.reads.set 0 (countData f r) = _
  rw [hs]
  rfl

theorem memRdData_doorbell {s : State} {f : HostFrame} {r : HostRead} {n : BitVec 48} (hs : s.enz.reads = [r])
    (hu : r.use = .doorbell n) (hn : namesRead f r = true) (hst : f.status = stOk) (hf : r.fail = none)
    (hl : r.len ≤ r.got + f.payload.length) : Completes (.memRdData f) s fun t => t.enz.reads = []
      ∧ t.rings.page = s.rings.page ++ [(memRead (memWrite r.data f.dataOffset.toNat f.payload) 0 r.len, prepDue s)]
      ∧ t = { s with enz := t.enz, rings := { s.rings with page := t.rings.page } } := by
  obtain ⟨-, hdone, huse, hlen, hok, -⟩ := countData_spec f r
  obtain ⟨hdata, hfail⟩ := hok hst
  have hall : (countData f r).done = true := hdone.trans (decide_eq_true hl)
  have hgood : ¬ readStatus (countData f r) = stDataError := by
    rw [readStatus, hfail, hf]
    decide
  have hcount := memRdData_counts (s := s) (r := r) (by rw [hs]; exact findIdx_single hn) (by rw [hs]; rfl)
  have hsettle := settleUse_doorbell (s := { takeInbox 0x02 s with enz.reads := s.enz.reads.set 0 (countData f r) })
    (by rw [hs]; rfl) (huse.trans hu) hall (hfail.trans hf)
  have hlast := hcount.trans (if_pos hall)
  rw [if_neg hgood, hu, hsettle, hdata, hlen, takeInbox_eq] at hlast
  exact ⟨_, congrArg Host.Outcome.next hlast, rfl, rfl, rfl⟩

end Machine
end Sys2Proof
end

section
/-!
PROOF. Bytes read and written at a place whose words are all good (R402, R403, R412, R413, R538), and what counting its lines leaves alone.
-/
namespace Sys2Proof
namespace Machine

/-! ### Words that are all good -/

theorem memWrite_append (m : Tbl Byte) (a : Nat) (xs ys : List Byte) :
    memWrite m a (xs ++ ys) = memWrite (memWrite m a xs) (a + xs.length) ys := by
  induction xs generalizing m a with
  | nil => rfl
  | cons x xs ih =>
    simp only [List.cons_append, memWrite, ih, List.length_cons]
    rw [show a + 1 + xs.length = a + (xs.length + 1) by omega]

/-- Bytes written in two parts. -/
theorem memWrite_take_drop (m : Tbl Byte) (a n : Nat) (bs : List Byte) :
    memWrite (memWrite m a (bs.take n)) (a + n) (bs.drop n) = memWrite m a bs := by
  rcases Nat.le_total bs.length n with h | h
  · rw [List.take_of_length_le h, List.drop_of_length_le h]
    rfl
  · conv_rhs => rw [← List.take_append_drop n bs, memWrite_append, List.length_take_of_le h]

/-- Where no word is bad, every word takes its bytes. -/
theorem writeWords_good (fuel b : Nat) (bs : List Byte) (m : Tbl Byte) (k : Nat) (h : b % 64 + bs.length ≤ 64 * fuel) :
    (writeWords fuel b bs (m, []) (true, k)).1 = (memWrite m b bs, []) ∧ (writeWords fuel b bs (m, []) (true, k)).2.1 = true := by
  induction fuel generalizing b bs m k with
  | zero =>
    have hnil : bs = [] := List.length_eq_zero_iff.mp (by omega)
    rw [hnil]
    exact ⟨rfl, rfl⟩
  | succ fuel ih =>
    unfold writeWords
    split
    next hnil =>
      rw [List.isEmpty_iff.mp hnil]
      exact ⟨rfl, rfl⟩
    next =>
      have hrest : (b + (64 - b % 64)) % 64 + (bs.drop (64 - b % 64)).length ≤ 64 * fuel := by
        rw [List.length_drop]
        omega
      simpa [memWrite_take_drop] using ih (b + (64 - b % 64)) (bs.drop (64 - b % 64)) (memWrite m b (bs.take (64 - b % 64)))
        (k + (!decide ((bs.take (64 - b % 64)).length = 64)).toNat) hrest

theorem runBad_none (b n : Nat) : runBad [] b n = false := by simp [runBad]

/-- An array's bytes, where none of its words is bad. -/
theorem placeRead_array {s : State} (h : s.work.badWord = []) (b n) : placeRead s (.array b) n = some (memRead s.work.mem b n) := by
  simp [placeRead, h, runBad_none]

theorem placeWrite_array {s : State} (h : s.work.badWord = []) (b bs) :
    placeWrite (.array b) bs s = ({ s with work.mem := memWrite s.work.mem b bs, work.badWord := [] }, true) := by
  obtain ⟨hmem, hok⟩ := writeWords_good (bs.length / 64 + 2) b bs s.work.mem 0 (by omega)
  simp only [placeWrite, h, hmem, hok]

/-- The bytes of one run of the Larder. -/
theorem placeRead_run {s : State} (h : s.larder.badWord = []) (b n) :
    placeRead s (.larder [(b, n)]) n = some (memRead s.larder.mem b n) := by
  simp [placeRead, h, runBad_none]

theorem placeWrite_run {s : State} (h : s.larder.badWord = []) (b) (bs : List Byte) :
    let t := (placeWrite (.larder [(b, bs.length)]) bs s).1
    t.larder.mem = memWrite s.larder.mem b bs ∧ t.work = s.work := by
  obtain ⟨hmem, -⟩ := writeWords_good (bs.length / 64 + 2) b bs s.larder.mem 0 (by omega)
  simp only [placeWrite, writeRuns, List.take_length, h, hmem]
  split
  · exact ⟨rfl, rfl⟩
  · exact ⟨rfl, rfl⟩

/-! ### Lines counted (R407, R408) -/

/-- The memories of the two states and their bad words agree. -/
def SameBytes (s t : State) : Prop := t.larder.mem = s.larder.mem ∧ t.larder.badWord = s.larder.badWord ∧ t.work = s.work

theorem SameBytes.trans {s t u : State} (h : SameBytes s t) (k : SameBytes t u) : SameBytes s u := by
  obtain ⟨hm, hb, hw⟩ := h
  obtain ⟨hm', hb', hw'⟩ := k
  exact ⟨hm'.trans hm, hb'.trans hb, hw'.trans hw⟩

theorem countLine_bytes (cls wr tenant s x) : SameBytes s (countLine cls wr tenant s x) := by
  unfold countLine
  extract_lets st s1 _ s2
  split
  · exact ⟨rfl, rfl, rfl⟩
  · exact ⟨rfl, rfl, rfl⟩

/-- Counting the lines of a place changes no byte. -/
theorem countPlace_bytes (cls wr tenant pl s) : SameBytes s (countPlace cls wr tenant pl s) := by
  unfold countPlace
  induction placeLines pl generalizing s with
  | nil => exact ⟨rfl, rfl, rfl⟩
  | cons x xs ih => exact (countLine_bytes cls wr tenant s x).trans (ih _)

/-- An array has no lines of the Larder. -/
theorem countPlace_array (cls wr tenant b s) : countPlace cls wr tenant (.array b) s = s := rfl

/-- An atomic replaces its operand and answers the value before (R403). -/
theorem placeAtomic_run {s : State} (h : s.larder.badWord = []) (op b x y) :
    let old := leNat (memRead s.larder.mem b (atomicWidth op))
    ∃ v, placeAtomic op (.larder [(b, atomicWidth op)]) x y s = (some old, v)
      ∧ v.larder.mem = memWrite s.larder.mem b (leBytes (atomicWidth op) (atomicNew op old x y)) ∧ v.work = s.work := by
  intro old
  simp only [placeAtomic, placeRead_run h]
  have hwrite := placeWrite_run (s := bump (stackPage (stackOf b).val) 8 1 s) h b (leBytes (atomicWidth op) (atomicNew op old x y))
  rw [leBytes_length] at hwrite
  exact ⟨_, rfl, hwrite⟩

end Machine
end Sys2Proof
end

section
/-!
PROOF. Copies, fills, CRCs and atomic descriptors (R399, R403, R420 to R422), and the statement of HostFlitsAndDataMovement.
-/
namespace Sys2Proof
namespace Machine

/-! ### The start of a copy, fill or CRC -/

/-- The descriptor has started, with no byte yet in its CRC. -/
def dmBegun (d : DRef) (s : State) : State := modFlight d (fun g => { g with aux := 0xFFFFFFFF }) (started d s)

/-- The descriptor as it is then. -/
def begun (f : InFlight) : InFlight := { f with stage := .started, aux := 0xFFFFFFFF }

theorem flightOf_dmBegun {s : State} {d : DRef} {f : InFlight} (h : flightOf s d = some f) :
    flightOf (dmBegun d s) d = some (begun f) := by
  have hstart : flightOf (started d s) d = some { f with stage := .started } := by
    rw [started, flightOf_modFlight (by exact fun _ => rfl), h]
    rfl
  rw [dmBegun, flightOf_modFlight (by exact fun _ => rfl), hstart]
  rfl

theorem dmBegun_host (d s) : HostOnly s (dmBegun d s) := ⟨_, _, _, rfl⟩

theorem exec_dmMove {s : State} {d : DRef} {f : InFlight} {e : (DRef → Instr) × BitVec 8}
    (he : e ∈ [(.dmCopy, 0x10), (.dmFill, 0x11), (.dmCrc, 0x12)]) (h : Startable s d e.2 f) :
    exec (e.1 d) s = .next (dmStart d f (started d s)) := by
  simp only [List.mem_cons, List.not_mem_nil, or_false] at he
  rcases he with rfl | rfl | rfl <;> exact congrArg Host.Outcome.next (withDesc_of_startable h _)

theorem dmStart_bad {f : InFlight} (h : dmOk f = false) (d s) : dmStart d f s = complete d stBad 0 s := by
  simp [dmStart, h]

theorem dmStart_ok {f : InFlight} (h : dmOk f = true) (d s) : dmStart d f (started d s) = dmStep d dmFuel none (dmBegun d s) := by
  simp [dmStart, h, dmBegun]

/-- The length of a descriptor that its checks let start (R421, Table 11-12). -/
theorem dmLen_pos_of_dmOk {f : InFlight} (h : dmOk f = true) : 0 < dmLen f.desc := by
  simp only [dmOk, Bool.and_eq_true, decide_eq_true_eq] at h
  obtain ⟨⟨⟨⟨-, hlen⟩, -⟩, -⟩, -⟩ := h
  exact hlen

/-- A fill's length is a whole number of patterns (Table 11-12). -/
theorem dmLen_mod_of_fill {f : InFlight} (h : dmOk f = true) (hop : dOpcode f.desc = 0x11) : dmLen f.desc % 8 = 0 := by
  have hfill : (dOpcode f.desc).toNat = 0x11 := by rw [hop]; rfl
  simp only [dmOk, hfill, Bool.and_eq_true, decide_eq_true_eq, ne_eq, not_true_eq_false, decide_false, Bool.false_or] at h
  obtain ⟨-, hmod, -⟩ := h
  exact hmod

/-! ### The steps of a copy, fill or CRC, one piece at a time (R422, log 16) -/

section
variable {s : State} {d : DRef} {f : InFlight} (hf : flightOf s d = some f)
include hf

/-- With no piece left the descriptor completes. -/
theorem dmStep_done (h : dmHere f = 0) (fuel) : dmStep d (fuel + 1) none s =
    complete d stOk (if (dOpcode f.desc).toNat = 0x12 then ((~~~ (BitVec.ofNat 32 f.aux.toNat)).setWidth 64) else 0) s := by
  simp only [dmStep, hf]
  exact if_pos h

variable (h0 : f.pos = 0) (hn : 0 < dmLen f.desc)
include h0 hn

/-- A fill's bytes are its pattern. -/
theorem dmStep_fills (hop : dOpcode f.desc = 0x11) (fuel) : dmStep d (fuel + 1) none s = dmStep d fuel
    (some ((upFrom 0 (min dmPiece (dmLen f.desc) / 8)).flatMap (fun _ => leBytes 8 (dmPattern f.desc)))) s := by
  have hhere : dmHere f = min dmPiece (dmLen f.desc) := by rw [dmHere, h0, Nat.sub_zero]
  have hsome : ¬ min dmPiece (dmLen f.desc) = 0 := (lt_min (by decide) hn).ne'
  simp only [dmStep, hf, hhere, hop]
  exact (if_neg hsome).trans (if_pos rfl)

variable (hop : dOpcode f.desc ≠ 0x11)
include hop

/-- A piece to read lies in host memory, in another module, or in this one. -/
theorem dmStep_reads (fuel) : dmStep d (fuel + 1) none s =
    if dmSrcHost f.desc then
      hostRead (.obj d 0) (dmSrc f.desc) (min dmPiece (dmLen f.desc)) (modFlight d (fun g => { g with waits := 1 }) s)
    else if isLocal s (dmSrc f.desc) then
      match localCheck s (dTenant s f) (dmSrc f.desc) (min dmPiece (dmLen f.desc)) .rd with
      | .fail st => dmFail d st (dmSrc f.desc) s
      | .ok pl =>
        match placeRead (countPlace .fabric false (some (dTenant s f)) pl s) pl (min dmPiece (dmLen f.desc)) with
        | some bs => dmStep d fuel (some bs) (countPlace .fabric false (some (dTenant s f)) pl s)
        | none => dmFail d stDataError (dmSrc f.desc)
            (foundBad 5 (dmSrc f.desc) pl (countPlace .fabric false (some (dTenant s f)) pl s))
    else dmSend d f 0x01 (dmSrc f.desc) (min dmPiece (dmLen f.desc)) [] s := by
  have hhere : dmHere f = min dmPiece (dmLen f.desc) := by rw [dmHere, h0, Nat.sub_zero]
  have hsome : ¬ min dmPiece (dmLen f.desc) = 0 := (lt_min (by decide) hn).ne'
  have hnot : ¬ (dOpcode f.desc).toNat = 0x11 := fun h => hop (BitVec.eq_of_toNat_eq h)
  simp only [dmStep, hf, hhere, h0, BitVec.ofNat_eq_ofNat, BitVec.add_zero]
  exact (if_neg hsome).trans (if_neg hnot)

end

/-- The descriptor has gone on by `n` bytes and waits for nothing. -/
def dmNext (d : DRef) (n : Nat) (s : State) : State := modFlight d (fun g => { g with pos := g.pos + n, waits := 0 }) s

theorem dmNext_host (d n s) : HostOnly s (dmNext d n s) := modFlight_host ..

theorem flightOf_dmNext {s : State} {d : DRef} {f : InFlight} (h : flightOf s d = some f) (n) :
    flightOf (dmNext d n s) d = some { f with pos := f.pos + n, waits := 0 } := by
  rw [dmNext, flightOf_modFlight (by exact fun _ => rfl), h]
  rfl

section
variable {s : State} {d : DRef} {f : InFlight} (hf : flightOf s d = some f) (h0 : f.pos = 0) (hop : dOpcode f.desc ≠ 0x12)
include hf h0 hop

/-- A piece to write goes to host memory, to another module, or into this one. -/
theorem dmStep_writes (fuel bs) : dmStep d (fuel + 1) (some bs) s =
    if dmDstHost f.desc then dmStep d fuel none (dmNext d (min dmPiece (dmLen f.desc)) (hostPut (dmDst f.desc) bs s))
    else if isLocal s (dmDst f.desc) then
      match localCheck s (dTenant s f) (dmDst f.desc) (min dmPiece (dmLen f.desc)) .wr with
      | .fail st => dmFail d st (dmDst f.desc) s
      | .ok pl =>
        if (placeWrite pl bs (countPlace .fabric true (some (dTenant s f)) pl s)).2 then
          dmStep d fuel none (dmNext d (min dmPiece (dmLen f.desc))
            (placeWrite pl bs (countPlace .fabric true (some (dTenant s f)) pl s)).1)
        else dmFail d stDataError (dmDst f.desc) (placeWrite pl bs (countPlace .fabric true (some (dTenant s f)) pl s)).1
    else dmSend d f 0x02 (dmDst f.desc) (min dmPiece (dmLen f.desc)) bs s := by
  have hhere : dmHere f = min dmPiece (dmLen f.desc) := by rw [dmHere, h0, Nat.sub_zero]
  have hnot : ¬ (dOpcode f.desc).toNat = 0x12 := fun h => hop (BitVec.eq_of_toNat_eq h)
  simp only [dmStep, hf, hhere, h0, BitVec.ofNat_eq_ofNat, BitVec.add_zero]
  exact if_neg hnot

end

/-- The bytes are read from an array of the part. -/
theorem dmStep_reads_array {s : State} {d : DRef} {f : InFlight} (hf : flightOf s d = some f) (h0 : f.pos = 0) (hn : 0 < dmLen f.desc)
    (hlen : dmLen f.desc ≤ dmPiece) (hop : dOpcode f.desc ≠ 0x11) (hd : dmSrcHost f.desc = false)
    (hl : isLocal s (dmSrc f.desc) = true) {a : Nat}
    (hc : localCheck s (dTenant s f) (dmSrc f.desc) (dmLen f.desc) .rd = .ok (.array a)) (hb : s.work.badWord = []) (fuel) :
    dmStep d (fuel + 1) none s = dmStep d fuel (some (memRead s.work.mem a (dmLen f.desc))) s := by
  rw [dmStep_reads hf h0 hn hop, Nat.min_eq_right hlen, hc, if_neg (ne_true_of_eq_false hd), if_pos hl]
  simp only [countPlace_array, placeRead_array hb]

/-- A descriptor of one piece completes after it. -/
theorem dmStep_last {s : State} {d : DRef} {f : InFlight} (hf : flightOf s d = some f) (h0 : f.pos = 0) (fuel) :
    dmStep d (fuel + 1) none (dmNext d (dmLen f.desc) s) = complete d stOk
      (if (dOpcode f.desc).toNat = 0x12 then ((~~~ (BitVec.ofNat 32 f.aux.toNat)).setWidth 64) else 0)
      (dmNext d (dmLen f.desc) s) := by
  refine dmStep_done (flightOf_dmNext hf _) ?_ fuel
  simp [dmHere, h0]

/-! ### Within the module's own arrays -/

/-- The bytes stand in the array memories, whose words are all good. -/
def wroteArray (b : Nat) (bs : List Byte) (s : State) : State :=
  { s with work.mem := memWrite s.work.mem b bs, work.badWord := [] }

/-- The last piece is written in an array of the part, and the descriptor completes. -/
theorem dmStep_writes_array {s : State} {d : DRef} {f : InFlight} (hf : flightOf s d = some f) (h0 : f.pos = 0)
    (hlen : dmLen f.desc ≤ dmPiece) (hop : dOpcode f.desc ≠ 0x12) (hd : dmDstHost f.desc = false)
    (hl : isLocal s (dmDst f.desc) = true) {b : Nat}
    (hc : localCheck s (dTenant s f) (dmDst f.desc) (dmLen f.desc) .wr = .ok (.array b)) (hb : s.work.badWord = []) (fuel bs) :
    dmStep d (fuel + 2) (some bs) s = complete d stOk 0 (dmNext d (dmLen f.desc) (wroteArray b bs s)) := by
  have hnot : ¬ (dOpcode f.desc).toNat = 0x12 := fun h => hop (BitVec.eq_of_toNat_eq h)
  have hlast := dmStep_last (s := wroteArray b bs s) hf h0 fuel
  rw [if_neg hnot] at hlast
  rw [dmStep_writes hf h0 hop, Nat.min_eq_right hlen, hc, if_neg (ne_true_of_eq_false hd), if_pos hl]
  simp only [countPlace_array, placeWrite_array hb, if_true]
  exact hlast

/-- What a completion leaves after bytes have been written in an array. -/
theorem wroteArray_spec {s u : State} (hu : HostOnly s u) (hw : s.work.memWf = true) (b bs d n) :
    let t := complete d stOk 0 (dmNext d n (wroteArray b bs u))
    memRead t.work.mem b bs.length = bs
      ∧ (∀ a, a < b ∨ b + bs.length ≤ a → tblGet 0 t.work.mem a = tblGet 0 s.work.mem a)
      ∧ t.larder.mem = s.larder.mem ∧ flightOf t d = none := by
  intro t
  obtain ⟨hlarder, hwork⟩ := hu.mems
  obtain ⟨htl, htw⟩ := ((dmNext_host d n (wroteArray b bs u)).trans (complete_host d stOk 0 _)).mems
  have hmem : t.work.mem = memWrite s.work.mem b bs := by
    rw [htw, ← hwork]
    rfl
  have hsame : t.larder.mem = s.larder.mem := by
    rw [htl, ← hlarder]
    rfl
  rw [hmem]
  exact ⟨memRead_memWrite bs _ b hw, fun a ha => tblGet_memWrite_outside bs _ b a ha, hsame, flightOf_complete_self ..⟩

/-- A fill's bytes are as many as its length. -/
theorem pattern_length (n v : Nat) : ((upFrom 0 n).flatMap (fun _ => leBytes 8 v)).length = 8 * n := by
  have hlen : ∀ n a, (upFrom a n).length = n := fun n => by
    induction n with
    | zero => exact fun _ => rfl
    | succ n ih => exact fun a => congrArg (· + 1) (ih (a + 1))
  simp [List.length_flatMap, hlen, Nat.mul_comm]

theorem dmFill_array {s : State} {d : DRef} {f : InFlight} {b : Nat} (h : Startable s d 0x11 f) (hok : dmOk f = true) (h0 : f.pos = 0)
    (hl : dmLen f.desc ≤ dmPiece) (hd : dmDstHost f.desc = false) (hloc : isLocal s (dmDst f.desc) = true)
    (hc : localCheck s (dTenant s f) (dmDst f.desc) (dmLen f.desc) .wr = .ok (.array b)) (hb : s.work.badWord = [])
    (hw : s.work.memWf = true) : Completes (.dmFill d) s fun t =>
      memRead t.work.mem b (dmLen f.desc) = (upFrom 0 (dmLen f.desc / 8)).flatMap (fun _ => leBytes 8 (dmPattern f.desc))
      ∧ (∀ a, a < b ∨ b + dmLen f.desc ≤ a → tblGet 0 t.work.mem a = tblGet 0 s.work.mem a)
      ∧ t.larder.mem = s.larder.mem ∧ flightOf t d = none := by
  have hexec := exec_dmMove (e := (.dmFill, 0x11)) (by simp) h
  obtain ⟨hf, -, hop⟩ := h
  have hbegun := flightOf_dmBegun hf
  have hnot : dOpcode f.desc ≠ 0x12 := by
    rw [hop]
    decide
  have hlen : ((upFrom 0 (dmLen f.desc / 8)).flatMap (fun _ => leBytes 8 (dmPattern f.desc))).length = dmLen f.desc := by
    rw [pattern_length]
    exact Nat.mul_div_cancel' (Nat.dvd_of_mod_eq_zero (dmLen_mod_of_fill hok hop))
  have hfill := dmStep_fills hbegun h0 (dmLen_pos_of_dmOk hok) hop 199
  rw [show min dmPiece (dmLen (begun f).desc) = dmLen f.desc from Nat.min_eq_right hl] at hfill
  have hwrite := dmStep_writes_array hbegun h0 hl hnot hd hloc (b := b) hc hb 197
    ((upFrom 0 (dmLen f.desc / 8)).flatMap (fun _ => leBytes 8 (dmPattern f.desc)))
  have hspec := wroteArray_spec (dmBegun_host d s) hw b
    ((upFrom 0 (dmLen f.desc / 8)).flatMap (fun _ => leBytes 8 (dmPattern f.desc))) d (dmLen f.desc)
  rw [hlen] at hspec
  exact ⟨_, hexec.trans (congrArg Host.Outcome.next ((dmStart_ok hok d s).trans (hfill.trans hwrite))), hspec⟩

theorem dmCopy_array {s : State} {d : DRef} {f : InFlight} {a b : Nat} (h : Startable s d 0x10 f) (hok : dmOk f = true) (h0 : f.pos = 0)
    (hl : dmLen f.desc ≤ dmPiece) (hsrc : dmSrcHost f.desc = false) (hdst : dmDstHost f.desc = false)
    (hsl : isLocal s (dmSrc f.desc) = true) (hdl : isLocal s (dmDst f.desc) = true)
    (hsc : localCheck s (dTenant s f) (dmSrc f.desc) (dmLen f.desc) .rd = .ok (.array a))
    (hdc : localCheck s (dTenant s f) (dmDst f.desc) (dmLen f.desc) .wr = .ok (.array b)) (hb : s.work.badWord = [])
    (hw : s.work.memWf = true) : Completes (.dmCopy d) s fun t =>
      memRead t.work.mem b (dmLen f.desc) = memRead s.work.mem a (dmLen f.desc)
      ∧ (∀ x, x < b ∨ b + dmLen f.desc ≤ x → tblGet 0 t.work.mem x = tblGet 0 s.work.mem x)
      ∧ t.larder.mem = s.larder.mem ∧ flightOf t d = none := by
  have hexec := exec_dmMove (e := (.dmCopy, 0x10)) (by simp) h
  obtain ⟨hf, -, hop⟩ := h
  have hbegun := flightOf_dmBegun hf
  have hfill : dOpcode f.desc ≠ 0x11 := by
    rw [hop]
    decide
  have hcrc : dOpcode f.desc ≠ 0x12 := by
    rw [hop]
    decide
  have hread := dmStep_reads_array hbegun h0 (dmLen_pos_of_dmOk hok) hl hfill hsrc hsl (a := a) hsc hb 199
  have hwrite := dmStep_writes_array hbegun h0 hl hcrc hdst hdl (b := b) hdc hb 197 (memRead s.work.mem a (dmLen f.desc))
  have hspec := wroteArray_spec (dmBegun_host d s) hw b (memRead s.work.mem a (dmLen f.desc)) d (dmLen f.desc)
  rw [memRead_length] at hspec
  exact ⟨_, hexec.trans (congrArg Host.Outcome.next ((dmStart_ok hok d s).trans (hread.trans hwrite))), hspec⟩

/-- The CRC of the descriptor's bytes so far (R420). -/
def dmCrcKept (d : DRef) (c : BitVec 32) (s : State) : State := modFlight d (fun g => { g with aux := c.setWidth 64 }) s

theorem flightOf_dmCrcKept {s : State} {d : DRef} {f : InFlight} (h : flightOf s d = some f) (c) :
    flightOf (dmCrcKept d c s) d = some { f with aux := c.setWidth 64 } := by
  rw [dmCrcKept, flightOf_modFlight (by exact fun _ => rfl), h]
  rfl

/-- The descriptor's only piece goes into the CRC, which it answers (R152, R420). -/
theorem dmStep_crc {s : State} {d : DRef} {f : InFlight} (hf : flightOf s d = some f) (h0 : f.pos = 0) (hlen : dmLen f.desc ≤ dmPiece)
    (hop : dOpcode f.desc = 0x12) (ha : f.aux = 0xFFFFFFFF) (fuel bs) : dmStep d (fuel + 2) (some bs) s =
    complete d stOk ((crc32 bs).setWidth 64) (dmNext d (dmLen f.desc) (dmCrcKept d (bs.foldl crc32Byte 0xFFFFFFFF) s)) := by
  have hhere : dmHere f = dmLen f.desc := by
    rw [dmHere, h0, Nat.sub_zero]
    exact Nat.min_eq_right hlen
  have hnarrow : ∀ c : BitVec 32, BitVec.ofNat 32 (c.setWidth 64).toNat = c := fun c =>
    BitVec.eq_of_toNat_eq (by simp only [BitVec.toNat_ofNat, BitVec.toNat_setWidth]; omega)
  have hcrc : dmStep d (fuel + 2) (some bs) s =
      dmStep d (fuel + 1) none (dmNext d (dmLen f.desc) (dmCrcKept d (bs.foldl crc32Byte 0xFFFFFFFF) s)) := by
    simp only [dmStep, hf, hop, hhere, ha]
    exact if_pos rfl
  have hlast := dmStep_last (flightOf_dmCrcKept hf (bs.foldl crc32Byte 0xFFFFFFFF)) h0 fuel
  rw [if_pos (by rw [hop]; rfl), hnarrow] at hlast
  exact hcrc.trans hlast

theorem dmCrc_array {s : State} {d : DRef} {f : InFlight} {a : Nat} (h : Startable s d 0x12 f) (hok : dmOk f = true) (h0 : f.pos = 0)
    (hl : dmLen f.desc ≤ dmPiece) (hsrc : dmSrcHost f.desc = false) (hsl : isLocal s (dmSrc f.desc) = true)
    (hsc : localCheck s (dTenant s f) (dmSrc f.desc) (dmLen f.desc) .rd = .ok (.array a)) (hb : s.work.badWord = []) :
    Completes (.dmCrc d) s fun t => t.work = s.work ∧ t.larder.mem = s.larder.mem
      ∧ ∃ x, t = complete d stOk ((crc32 (memRead s.work.mem a (dmLen f.desc))).setWidth 64) x ∧ HostOnly s x := by
  have hexec := exec_dmMove (e := (.dmCrc, 0x12)) (by simp) h
  obtain ⟨hf, -, hop⟩ := h
  have hbegun := flightOf_dmBegun hf
  have hfill : dOpcode f.desc ≠ 0x11 := by
    rw [hop]
    decide
  have hread := dmStep_reads_array hbegun h0 (dmLen_pos_of_dmOk hok) hl hfill hsrc hsl (a := a) hsc hb 199
  have hcrc := dmStep_crc hbegun h0 hl hop rfl 197 (memRead s.work.mem a (dmLen f.desc))
  have hhost : ∀ n c, HostOnly s (dmNext d n (dmCrcKept d c (dmBegun d s))) := fun n c =>
    ((dmBegun_host d s).trans (modFlight_host ..)).trans (dmNext_host ..)
  obtain ⟨hlarder, hwork⟩ := ((hhost _ _).trans (complete_host ..)).mems
  exact ⟨_, hexec.trans (congrArg Host.Outcome.next ((dmStart_ok hok d s).trans (hread.trans hcrc))), hwork,
    congrArg Larder.mem hlarder, _, rfl, hhost ..⟩

end Machine
end Sys2Proof
end

section
/-!
PROOF. Copies, fills and CRCs whose bytes lie outside the part, or that a check turns away (R399, R420 to R422), atomic descriptors (R403,
R420), and the statement of HostFlitsAndDataMovement.
-/
namespace Sys2Proof
namespace Machine

/-! ### Bytes outside the part, and checks that fail -/

theorem dmFail_eq {s : State} {d : DRef} {f : InFlight} (h : flightOf s d = some f) (st a) :
    dmFail d st a s = complete d st (if dOpcode f.desc = 0x12 then 0 else a) s := by
  simp only [dmFail, h]

/-- A source in host memory is read by MEM_RDs, one in another module by an item, and one that a check refuses ends the descriptor. -/
theorem dmSource_outside {s : State} {d : DRef} {f : InFlight} {e : (DRef → Instr) × BitVec 8}
    (he : e ∈ [(.dmCopy, 0x10), (.dmCrc, 0x12)]) (h : Startable s d e.2 f) (hok : dmOk f = true) (h0 : f.pos = 0) :
    (dmSrcHost f.desc = true → exec (e.1 d) s = .next (hostRead (.obj d 0) (dmSrc f.desc) (min dmPiece (dmLen f.desc))
        (modFlight d (fun g => { g with waits := 1 }) (dmBegun d s))))
      ∧ (dmSrcHost f.desc = false → isLocal s (dmSrc f.desc) = false →
        ∃ g, flightOf (dmBegun d s) d = some g
          ∧ exec (e.1 d) s = .next (dmSend d g 0x01 (dmSrc f.desc) (min dmPiece (dmLen f.desc)) [] (dmBegun d s)))
      ∧ (∀ st, dmSrcHost f.desc = false → isLocal s (dmSrc f.desc) = true →
        localCheck s (dTenant s f) (dmSrc f.desc) (min dmPiece (dmLen f.desc)) .rd = .fail st →
        exec (e.1 d) s = .next (complete d st (if e.2 = 0x12 then 0 else dmSrc f.desc) (dmBegun d s))) := by
  have hthree : e ∈ [(.dmCopy, 0x10), (.dmFill, 0x11), (.dmCrc, 0x12)] := by
    simp only [List.mem_cons, List.not_mem_nil, or_false] at he ⊢
    exact he.imp_right .inr
  have hfill : e.2 ≠ 0x11 := by
    simp only [List.mem_cons, List.not_mem_nil, or_false] at he
    rcases he with rfl | rfl <;> decide
  have hexec := exec_dmMove hthree h
  obtain ⟨hf, -, hop⟩ := h
  have hbegun := flightOf_dmBegun hf
  have hread := (dmStart_ok hok d s).trans (dmStep_reads hbegun h0 (dmLen_pos_of_dmOk hok) (hop.trans_ne hfill) 199)
  refine ⟨fun hh => ?_, fun hh hl => ⟨_, hbegun, ?_⟩, fun st hh hl hc => ?_⟩
  · exact hexec.trans (congrArg Host.Outcome.next (hread.trans (if_pos hh)))
  · exact hexec.trans (congrArg Host.Outcome.next (hread.trans ((if_neg (ne_true_of_eq_false hh)).trans
      (if_neg (ne_true_of_eq_false hl)))))
  · have hlocal := hread.trans ((if_neg (ne_true_of_eq_false hh)).trans (if_pos hl))
    rw [show localCheck (dmBegun d s) (dTenant (dmBegun d s) (begun f)) (dmSrc (begun f).desc) (min dmPiece (dmLen (begun f).desc)) .rd
      = .fail st from hc] at hlocal
    refine hexec.trans (congrArg Host.Outcome.next (hlocal.trans ((dmFail_eq hbegun ..).trans ?_)))
    rw [show dOpcode (begun f).desc = e.2 from hop]
    rfl

/-- Of the descriptors in flight a completion depends on its own alone. -/
theorem complete_modFlight {s : State} {d : DRef} {f : InFlight} (hf : flightOf s d = some f) {g : InFlight → InFlight}
    (hg : ∀ x, (g x).ref = x.ref) (st r) : complete d st r (modFlight d g s) =
      if dNoCompl (g f).desc && st = stOk then leaveFlight d s
      else cqModerate (sqRing s d.sq).cq (dIrq (g f).desc) (countCompletion (sqRing s d.sq).cq
        (putCompletion (sqRing s d.sq).cq (g f) st r (leaveFlight d s))) := by
  have hleft : leaveFlight d (modFlight d g s) = leaveFlight d s := by
    have hsame : (s.rings.flight.map (fun x => if x.ref = d then g x else x)).filter (fun x => x.ref ≠ d)
        = s.rings.flight.filter (fun x => x.ref ≠ d) := by
      induction s.rings.flight with
      | nil => rfl
      | cons x xs ih =>
        by_cases hx : x.ref = d
        · simpa [hx, hg] using ih
        · simpa [hx] using ih
    simp only [leaveFlight, modFlight, hsame]
  have hflight : flightOf (modFlight d g s) d = some (g f) := by rw [flightOf_modFlight hg, hf]; rfl
  simp only [complete, hflight, hleft]
  rfl

theorem complete_modFlight_congr {s : State} {d : DRef} {f : InFlight} (hf : flightOf s d = some f) {g k : InFlight → InFlight}
    (hg : ∀ x, (g x).ref = x.ref) (hk : ∀ x, (k x).ref = x.ref) (h : g f = k f) (st r) :
    complete d st r (modFlight d g s) = complete d st r (modFlight d k s) := by
  rw [complete_modFlight hf hg, complete_modFlight hf hk, h]

/-- A fill's bytes go to host memory by MEM_WRs, to another module by an item, and a check that refuses them ends the descriptor. -/
theorem dmFill_outside {s : State} {d : DRef} {f : InFlight} (h : Startable s d 0x11 f) (hok : dmOk f = true) (h0 : f.pos = 0) :
    let n := min dmPiece (dmLen f.desc)
    let bs := (upFrom 0 (n / 8)).flatMap (fun _ => leBytes 8 (dmPattern f.desc))
    (dmDstHost f.desc = true → dmLen f.desc ≤ dmPiece → exec (.dmFill d) s = .next (complete d stOk 0
        (modFlight d (fun g => { g with pos := n, waits := 0 }) (hostPut (dmDst f.desc) bs (dmBegun d s)))))
      ∧ (dmDstHost f.desc = false → isLocal s (dmDst f.desc) = false →
        ∃ g, flightOf (dmBegun d s) d = some g ∧ exec (.dmFill d) s = .next (dmSend d g 0x02 (dmDst f.desc) n bs (dmBegun d s)))
      ∧ (∀ st, dmDstHost f.desc = false → isLocal s (dmDst f.desc) = true →
        localCheck s (dTenant s f) (dmDst f.desc) n .wr = .fail st →
        exec (.dmFill d) s = .next (complete d st (dmDst f.desc) (dmBegun d s))) := by
  intro n bs
  have hexec := exec_dmMove (e := (.dmFill, 0x11)) (by simp) h
  obtain ⟨hf, -, hop⟩ := h
  have hbegun := flightOf_dmBegun hf
  have hcrc : dOpcode f.desc ≠ 0x12 := by
    rw [hop]
    decide
  have hwrite := (dmStart_ok hok d s).trans ((dmStep_fills hbegun h0 (dmLen_pos_of_dmOk hok) hop 199).trans
    (dmStep_writes hbegun h0 hcrc 198 bs))
  refine ⟨fun hh hl => ?_, fun hh hl => ⟨_, hbegun, ?_⟩, fun st hh hl hc => ?_⟩
  · have hput : flightOf (hostPut (dmDst f.desc) bs (dmBegun d s)) d = some (begun f) :=
      (flightOf_of_rings (by rw [(hostPut_enz ..).rings_eq]) d).trans hbegun
    have hn : n = dmLen f.desc := Nat.min_eq_right hl
    have hlast := dmStep_last hput h0 197
    rw [if_neg (by rw [show dOpcode (begun f).desc = 0x11 from hop]; decide)] at hlast
    refine hexec.trans (congrArg Host.Outcome.next (hwrite.trans ((if_pos hh).trans ?_)))
    change dmStep d 198 none (dmNext d n (hostPut (dmDst f.desc) bs (dmBegun d s))) = _
    rw [hn]
    exact hlast.trans (complete_modFlight_congr hput (by exact fun _ => rfl) (by exact fun _ => rfl) (by simp [begun, h0]) ..)
  · exact hexec.trans (congrArg Host.Outcome.next (hwrite.trans ((if_neg (ne_true_of_eq_false hh)).trans
      (if_neg (ne_true_of_eq_false hl)))))
  · have hlocal := hwrite.trans ((if_neg (ne_true_of_eq_false hh)).trans (if_pos hl))
    rw [show localCheck (dmBegun d s) (dTenant (dmBegun d s) (begun f)) (dmDst (begun f).desc) (min dmPiece (dmLen (begun f).desc)) .wr
      = .fail st from hc] at hlocal
    refine hexec.trans (congrArg Host.Outcome.next (hlocal.trans ((dmFail_eq hbegun ..).trans ?_)))
    rw [if_neg (by exact hcrc)]
    rfl

/-! ### Atomic descriptors (R403, R420, Table 11-13) -/

/-- The rows of the atomic descriptors and their opcodes (Table 11-11). -/
def dmAtRows : List ((DRef → Instr) × BitVec 8) := [(.dmAtFadd64, 0x18), (.dmAtSwap64, 0x19), (.dmAtCas64, 0x1A),
  (.dmAtCas128, 0x1B), (.dmAtFaddFp32, 0x1C), (.dmAtFaddBf16, 0x1D)]

theorem exec_dmAt {s : State} {d : DRef} {f : InFlight} {e : (DRef → Instr) × BitVec 8} (he : e ∈ dmAtRows) (h : Startable s d e.2 f) :
    exec (e.1 d) s = .next (dmAtomic d f (started d s)) := by
  simp only [dmAtRows, List.mem_cons, List.not_mem_nil, or_false] at he
  rcases he with rfl | rfl | rfl | rfl | rfl | rfl <;> exact congrArg Host.Outcome.next (withDesc_of_startable h _)

theorem dmAtomic_bad {f : InFlight} (h : dTarget f.desc ≠ 0xFFFF ∨ dByte f.desc 32 32 / 2 ^ (8 * dmAtBytes (dmAtOp f)) ≠ 0) (d s) :
    dmAtomic d f s = complete d stBad 0 s := if_pos (by simpa using h)

section
variable {s : State} {d : DRef} {f : InFlight} (ht : dTarget f.desc = 0xFFFF)
  (hz : dByte f.desc 32 32 / 2 ^ (8 * dmAtBytes (dmAtOp f)) = 0)
include ht hz

theorem dmAtomic_legal : dmAtomic d f s =
    if isLocal s (dWord f.desc 24) then
      if (dWord f.desc 24).toNat % atomicWidth (dmAtOp f) ≠ 0 then complete d stDenied 0 s
      else match localCheck s (dTenant s f) (dWord f.desc 24) (atomicWidth (dmAtOp f)) .atomic with
        | .fail st => complete d st 0 s
        | .ok pl =>
          match placeAtomic (dmAtOp f) pl (atomicOperands (dmAtOp f) (dmAtPayload f)).1 (atomicOperands (dmAtOp f) (dmAtPayload f)).2
            (countPlace .fabric true (some (dTenant s f)) pl s) with
          | (some old, s) => complete d stOk (dmAtResult f old) s
          | (none, s) => complete d stDataError 0 (foundBad 5 (dWord f.desc 24) pl s)
    else dmSend d f (BitVec.ofNat 8 (dmAtOp f)) (dWord f.desc 24) (atomicWidth (dmAtOp f)) (dmAtPayload f) s :=
  if_neg (by simp [ht, hz])

/-- An operand of the part's own Larder is replaced, and the descriptor answers the value before (Table 11-11). -/
theorem dmAtomic_run (hl : isLocal s (dWord f.desc 24) = true) (ha : (dWord f.desc 24).toNat % atomicWidth (dmAtOp f) = 0) {b : Nat}
    (hc : localCheck s (dTenant s f) (dWord f.desc 24) (atomicWidth (dmAtOp f)) .atomic = .ok (.larder [(b, atomicWidth (dmAtOp f))]))
    (hb : s.larder.badWord = []) :
    let old := leNat (memRead s.larder.mem b (atomicWidth (dmAtOp f)))
    let ops := atomicOperands (dmAtOp f) (dmAtPayload f)
    ∃ v, dmAtomic d f s = complete d stOk (dmAtResult f old) v
      ∧ v.larder.mem = memWrite s.larder.mem b (leBytes (atomicWidth (dmAtOp f)) (atomicNew (dmAtOp f) old ops.1 ops.2))
      ∧ v.work = s.work := by
  intro old ops
  obtain ⟨hmem, hbad, hwork⟩ := countPlace_bytes .fabric true (some (dTenant s f)) (.larder [(b, atomicWidth (dmAtOp f))]) s
  obtain ⟨v, hat, hnew, hsame⟩ := placeAtomic_run (hbad.trans hb) (dmAtOp f) b ops.1 ops.2
  rw [hmem] at hat hnew
  refine ⟨v, ?_, hnew, hsame.trans hwork⟩
  rw [dmAtomic_legal ht hz, if_pos hl, if_neg (not_not_intro ha), hc]
  simp only [ops] at hat
  simp only [hat]
  rfl

end

theorem dmAt_local {s : State} {d : DRef} {f : InFlight} {e : (DRef → Instr) × BitVec 8} {b : Nat} (he : e ∈ dmAtRows)
    (h : Startable s d e.2 f) (ht : dTarget f.desc = 0xFFFF)
    (hz : dByte f.desc 32 32 / 2 ^ (8 * dmAtBytes (dmAtOp f)) = 0) (hl : isLocal s (dWord f.desc 24) = true)
    (ha : (dWord f.desc 24).toNat % atomicWidth (dmAtOp f) = 0)
    (hc : localCheck s (dTenant s f) (dWord f.desc 24) (atomicWidth (dmAtOp f)) .atomic = .ok (.larder [(b, atomicWidth (dmAtOp f))]))
    (hb : s.larder.badWord = []) (hw : s.larder.memWf = true) :
    let n := atomicWidth (dmAtOp f)
    let old := leNat (memRead s.larder.mem b n)
    let ops := atomicOperands (dmAtOp f) (dmAtPayload f)
    Completes (e.1 d) s fun t => memRead t.larder.mem b n = leBytes n (atomicNew (dmAtOp f) old ops.1 ops.2)
      ∧ (∀ a, a < b ∨ b + n ≤ a → tblGet 0 t.larder.mem a = tblGet 0 s.larder.mem a)
      ∧ t.work = s.work ∧ ∃ x, t = complete d stOk (dmAtResult f old) x := by
  intro n old ops
  obtain ⟨v, hat, hmem, hwork⟩ : ∃ v, dmAtomic d f (started d s) = complete d stOk (dmAtResult f old) v
      ∧ v.larder.mem = memWrite s.larder.mem b (leBytes n (atomicNew (dmAtOp f) old ops.1 ops.2)) ∧ v.work = s.work :=
    dmAtomic_run (s := started d s) ht hz hl ha hc hb
  obtain ⟨hvl, hvw⟩ := (complete_host d stOk (dmAtResult f old) v).mems
  have hnew : (complete d stOk (dmAtResult f old) v).larder.mem
      = memWrite s.larder.mem b (leBytes n (atomicNew (dmAtOp f) old ops.1 ops.2)) := (congrArg Larder.mem hvl).trans hmem
  have hread := memRead_memWrite (leBytes n (atomicNew (dmAtOp f) old ops.1 ops.2)) s.larder.mem b hw
  have houtside := tblGet_memWrite_outside (leBytes n (atomicNew (dmAtOp f) old ops.1 ops.2)) s.larder.mem b
  rw [leBytes_length] at hread houtside
  exact ⟨_, (exec_dmAt he h).trans (congrArg Host.Outcome.next hat), (congrArg (memRead · b n) hnew).trans hread,
    fun a ha => (congrArg (tblGet 0 · a) hnew).trans (houtside a ha), hvw.trans hwork, v, rfl⟩

/-! ### The statement -/

/-- Settles O20: each clause is the lemma of a flit, of a frame of data, or of where a descriptor's bytes lie. -/
theorem hostFlitsAndDataMovement : Obligations.HostFlitsAndDataMovement := by
  unfold Obligations.HostFlitsAndDataMovement
  refine ⟨⟨?_, ?_, ?_, ?_, ?_, ?_, ?_, ?_⟩, ⟨?_, ?_, ?_, ?_, ?_, ?_⟩, ?_, ?_, ?_⟩
  · exact fun s flit hs hbad => congrArg Host.Outcome.next ((enzenFlit_up hs flit).trans (if_pos hbad))
  · intro s flit h
    refine congrArg Host.Outcome.next ?_
    by_cases hs : carriesFlits s
    · rcases h with ⟨hn, ha⟩ | ⟨hok, hseq⟩
      · exact (hs.elim hn ha).elim
      · exact (enzenFlit_up hs flit).trans ((if_neg (by rw [hok]; decide)).trans (if_pos hseq))
    · exact enzenFlit_down hs flit
  · exact fun s flit hs hok hseq => congrArg Host.Outcome.next ((enzenFlit_up hs flit).trans
      ((if_neg (by rw [hok]; decide)).trans (if_neg (not_not_intro hseq))))
  · exact fun s flit => flitAck_spec flit s
  · exact fun s f h => memRdData_no_reads h f
  · exact fun s f r k hs hd ht hk hg => memRdData_goes_on hs (namesRead_of_tag hd ht hk) hg
  · exact fun s f i r hi hr => congrArg Host.Outcome.next (memRdData_counts hi hr)
  · exact fun s f r k n hs hu hd ht hk hst hf hl => memRdData_doorbell hs hu (namesRead_of_tag hd ht hk) hst hf hl
  · exact fun s d f b h hok h0 hl hd hloc hc hb hw => dmFill_array h hok h0 hl hd hloc hc hb hw
  · exact fun s d f a b h hok h0 hl hs hd hsl hdl hsc hdc hb hw => dmCopy_array h hok h0 hl hs hd hsl hdl hsc hdc hb hw
  · exact fun s d f a h hok h0 hl hs hsl hsc hb => dmCrc_array h hok h0 hl hs hsl hsc hb
  · exact fun e he s d f h hok h0 => dmSource_outside he h hok h0
  · exact fun s d f h hok h0 => dmFill_outside h hok h0
  · exact fun e he s d f h hbad => (exec_dmMove he h).trans (congrArg Host.Outcome.next (dmStart_bad hbad ..))
  · exact fun e he s d f b h ht hz hl ha hc hb hw => dmAt_local he h ht hz hl ha hc hb hw
  · exact fun e he s d f h ht hz hl ha => (exec_dmAt he h).trans (congrArg Host.Outcome.next
      ((dmAtomic_legal ht hz).trans ((if_pos hl).trans (if_pos ha))))
  · exact fun e he s d f h => ⟨fun hbad => (exec_dmAt he h).trans (congrArg Host.Outcome.next (dmAtomic_bad hbad ..)),
      fun ht hz hl => (exec_dmAt he h).trans (congrArg Host.Outcome.next
        ((dmAtomic_legal ht hz).trans (if_neg (ne_true_of_eq_false hl))))⟩

end Machine
end Sys2Proof
end

section
/-!
PROOF. Arrival of a fabric packet (R144, R147, R154, R156, R183, R221, R222): what each check leaves of it, and the statement of
FabricPacketArrives.
-/
namespace Sys2Proof
namespace Machine

/-! ### What an arrival counts -/

/-- The counts, but not the Peephole ports, and the Attic differ: what an arrival notes of itself. -/
def Noted (s t : State) : Prop := ∃ n a, n.peep = s.counts.peep ∧ t = { s with counts := n, attic := a }

theorem Noted.trans {s t u : State} (h : Noted s t) (k : Noted t u) : Noted s u := by
  obtain ⟨n, a, hn, rfl⟩ := h
  obtain ⟨m, b, hm, rfl⟩ := k
  exact ⟨m, b, hm.trans hn, rfl⟩

theorem Noted.peep {s t : State} (h : Noted s t) : t.counts.peep = s.counts.peep := by
  obtain ⟨n, a, hn, rfl⟩ := h
  exact hn

theorem bump_noted (p w n s) : Noted s (bump p w n s) := ⟨(bump p w n s).counts, s.attic, rfl, rfl⟩

/-- The packet and its bytes are counted on its port and channel, and any channel but VC7 puts off the drained point. -/
def arrivalCounted (l : LinkId) (p : Packet) (s : State) : State :=
  let s := bump l.val (24 * p.vc.val + 1) (pktLen p) (bump l.val (24 * p.vc.val) 1 s)
  if p.vc.val = 7 then s else { s with attic.lastEntry := s.tick.elapsed }

theorem arrivalCounted_noted (l p s) : Noted s (arrivalCounted l p s) := by
  unfold arrivalCounted
  extract_lets t
  have ht : Noted s t := (bump_noted ..).trans (bump_noted ..)
  split
  · exact ht
  · exact ht.trans ⟨t.counts, _, rfl, rfl⟩

theorem link_arrivalCounted (l p s m) : link (arrivalCounted l p s) m = link s m := by
  obtain ⟨n, a, -, h⟩ := arrivalCounted_noted l p s
  rw [h]
  rfl

/-- A coat number that the module does not hold is counted on the port (R298). -/
def coatNoted (l : LinkId) (p : Packet) (s : State) : State := if coatHeld s p.coat then s else bumpPort (linkPort l) 197 s

theorem coatNoted_noted (l p s) : Noted s (coatNoted l p s) := by
  unfold coatNoted
  split
  · exact ⟨s.counts, s.attic, rfl, rfl⟩
  · exact bump_noted ..

/-! ### Where each check sends the packet -/

section
variable {s : State} {l : LinkId} {p : Packet} {ks : List (BitVec 3)}

theorem fabricArrival_down (h : (link s l).up = false) : fabricArrival l p ks s = arrivalCounted l p s := by
  have hdown : (!(link (arrivalCounted l p s) l).up) = true := by rw [link_arrivalCounted, h]; rfl
  exact if_pos hdown

/-- A link in service lets the packet pass to its checks. -/
theorem up_arrivalCounted (hup : (link s l).up = true) : ¬ (!(link (arrivalCounted l p s) l).up) = true := by
  rw [link_arrivalCounted, hup]
  decide

theorem fabricArrival_reserved (hup : (link s l).up = true) (hgen : (link s l).gen = 1) (hks : ks.any flitReserved = true) :
    fabricArrival l p ks s =
      arriveDrop l p { arrivalCounted l p s with items.badFlit := (arrivalCounted l p s).items.badFlit + 1 } := by
  have hres : ((link (arrivalCounted l p s) l).gen = 1 && ks.any flitReserved) = true := by
    rw [link_arrivalCounted, hgen, hks]
    rfl
  exact (if_neg (up_arrivalCounted hup)).trans (if_pos hres)

variable (hup : (link s l).up = true) (hks : (link s l).gen = 1 → ks.any flitReserved = false)
include hup hks

omit hup in
/-- No kind of the packet's flits is reserved on its link. -/
theorem flits_arrivalCounted : ¬ ((link (arrivalCounted l p s) l).gen = 1 && ks.any flitReserved) = true := by
  rw [link_arrivalCounted]
  simpa using hks

theorem fabricArrival_hdrCrc (hcrc : p.hdrCrc ≠ hdrCrcOf p) :
    fabricArrival l p ks s = arriveDrop l p (bumpPort (linkPort l) 195 (arrivalCounted l p s)) :=
  (if_neg (up_arrivalCounted hup)).trans ((if_neg (flits_arrivalCounted hks)).trans (if_pos hcrc))

theorem fabricArrival_stomped (hcrc : p.hdrCrc = hdrCrcOf p) (hst : (isData p && p.stomp) = true) :
    fabricArrival l p ks s = arriveDrop l p (arrivalCounted l p s) :=
  (if_neg (up_arrivalCounted hup)).trans ((if_neg (flits_arrivalCounted hks)).trans
    ((if_neg (not_not_intro hcrc)).trans (if_pos hst)))

/-- A packet whose header CRC fails, or that is stomped, is dropped without a FAIL (R154). -/
theorem fabricArrival_discarded (hbad : p.hdrCrc ≠ hdrCrcOf p ∨ (isData p = true ∧ p.stomp = true)) :
    ∃ u, Noted s u ∧ fabricArrival l p ks s = arriveDrop l p u := by
  have hn := arrivalCounted_noted l p s
  by_cases hcrc : p.hdrCrc = hdrCrcOf p
  · obtain ⟨hd, hst⟩ := hbad.resolve_left (not_not_intro hcrc)
    exact ⟨_, hn, fabricArrival_stomped hup hks hcrc (by rw [hd, hst]; rfl)⟩
  · exact ⟨_, hn.trans (bump_noted ..), fabricArrival_hdrCrc hup hks hcrc⟩

/-- A control packet in transit that passes its checks goes on to the core. -/
theorem fabricArrival_transit (hcrc : p.hdrCrc = hdrCrcOf p) (hd : isData p = false) (he : edgeCheck s l = false)
    (hop : opOk p = true) (hage : pktAge s p ≤ ageLimit s) :
    fabricArrival l p ks s = arriveEnter l false false p (coatNoted l p (arrivalCounted l p s)) := by
  have hopen := up_arrivalCounted (p := p) hup
  have hflits := flits_arrivalCounted (p := p) hks
  obtain ⟨n, a, -, hu⟩ := arrivalCounted_noted l p s
  have hedge : edgeCheck (arrivalCounted l p s) l = false := by
    rw [hu]
    exact he
  obtain ⟨n, a, -, hc⟩ := (arrivalCounted_noted l p s).trans (coatNoted_noted l p _)
  have hyoung : ¬ ageLimit (coatNoted l p (arrivalCounted l p s)) < pktAge (coatNoted l p (arrivalCounted l p s)) p := by
    rw [hc]
    exact Nat.not_lt.mpr hage
  unfold fabricArrival
  extract_lets _ _ _ _ u _ edge c
  have hcoat : c = coatNoted l p (arrivalCounted l p s) := rfl
  have hside : edge = edgeCheck (arrivalCounted l p s) l := rfl
  have hcounted : u = arrivalCounted l p s := rfl
  clear_value c edge u
  simp only [hcounted, hside, hcoat, if_neg hopen, if_neg hflits, hcrc, hd, hedge, hop, if_neg hyoung]
  simp [hd]

end

/-! ### A packet discarded (R154, R156, R222) -/

theorem peepFrame_off {s : State} {l : LinkId} (h : (tblGet {} s.counts.peep l.val).cfg = 0) (dir disc bs) :
    peepFrame l dir disc bs s = s :=
  if_pos (by rw [h]; rfl)

/-- The packet's units are reserved and freed at once. -/
def reservedAndFreed (l : LinkId) (p : Packet) (s : State) : State :=
  rxFree l (partOf p) (pktUnits (link s l).gen p) (rxReserve l (partOf p) (pktUnits (link s l).gen p) s)

theorem arriveDrop_off {s : State} {l : LinkId} (h : (tblGet {} s.counts.peep l.val).cfg = 0) (p) : arriveDrop l p s = reservedAndFreed l p s :=
  peepFrame_off (s := reservedAndFreed l p s) h false true (pktBytes p)

/-! ### A packet on its way into the core (R221, R242, R284) -/

theorem touchUnder_route (n s) : ∃ r, touchUnder n s = { s with route := r } := by
  unfold touchUnder
  split
  · split
    · exact ⟨_, rfl⟩
    · exact ⟨s.route, rfl⟩
  · exact ⟨s.route, rfl⟩

/-- A unicast packet stands last in its input's queue, and its units are taken from the free list. -/
theorem enqueueNow_unicast (i o units q bad hold p s) : let t := enqueueNow i .unicast o units q bad hold p s
    (∃ e, (inPort t i).queue = (inPort s i).queue ++ [e] ∧ e.pkt = p ∧ e.out = o ∧ e.kind = .unicast ∧ e.units = units
        ∧ e.resPart = q ∧ e.tick = s.tick.elapsed ∧ e.enter = s.tick.ns ∧ e.count = pktCells p ∧ e.bad = bad ∧ e.holdTo = hold
        ∧ e.crossed = 0)
      ∧ (inPort t i).free = (inPort s i).free - units
      ∧ ∃ c n r, t = { s with core := c, counts := n, route := r } := by
  unfold enqueueNow
  extract_lets inp n key sq ct e inp' pairs _ _ t
  obtain ⟨r, ht⟩ := touchUnder_route p.coat (setIn { s with core.uid := s.core.uid + 1, counts.pairs := pairs } i inp')
  have hport : inPort t i = inp' := by
    unfold t
    rw [ht]
    refine tblGet_tblSet_of_ne _ _ _ _ fun h => ?_
    have hqueue : inp'.queue = [] := congrArg InPort.queue h
    exact List.append_ne_nil_of_right_ne_nil _ (List.cons_ne_nil e []) hqueue
  exact ⟨⟨e, congrArg InPort.queue hport, rfl, rfl, rfl, rfl, rfl, rfl, rfl, rfl, rfl, rfl, rfl⟩, congrArg InPort.free hport,
    _, _, _, ht⟩

theorem least_noted {s u : State} (h : Noted s u) (v cs) : least u v cs = least s v cs := by
  obtain ⟨n, a, -, rfl⟩ := h
  induction cs with
  | nil => rfl
  | cons c cs ih =>
    unfold least
    rw [ih]
    rfl

theorem hopFor_noted {s u : State} (h : Noted s u) (p dest det) : hopFor u p dest det = hopFor s p dest det := by
  have hleast := least_noted h
  obtain ⟨n, a, -, rfl⟩ := h
  simp only [hopFor, adaptive, hleast]
  rfl

theorem hopTransit_noted {s u : State} (h : Noted s u) (p) : hopTransit p u = hopTransit p s := by
  have hfor := hopFor_noted h
  obtain ⟨n, a, -, rfl⟩ := h
  simp only [hopTransit, hfor]
  rfl

/-- A unicast packet in transit to another link takes its units and its place in its link's input. -/
theorem arriveEnter_transit {s u : State} (h : Noted s u) {l : LinkId} {p p' : Packet} {o : PortId} (hm : p.mcast = false)
    (hop : hopTransit p s = .go o p') (ho : o.val < 96) (hp : (tblGet {} s.counts.peep l.val).cfg = 0) :
    arriveEnter l false false p u = enqueueNow (linkPort l) .unicast o (pktUnits (link s l).gen p) (partOf p) false 0 p'
      (rxReserve l (partOf p) (pktUnits (link s l).gen p) u) := by
  have hgo := (hopTransit_noted h p).trans hop
  have hoff := peepFrame_off (s := rxReserve l (partOf p) (pktUnits (link s l).gen p) u) (by exact h.peep ▸ hp) false false (pktBytes p')
  obtain ⟨c, a, -, rfl⟩ := h
  have hlink : (linkPort l).val < 96 := l.isLt
  unfold arriveEnter
  simp only [hm, hgo, ho, enqueue, hlink, if_true, Bool.false_eq_true, if_false, Bool.false_and]
  exact congrArg (enqueueNow (linkPort l) .unicast o (pktUnits (link s l).gen p) (partOf p) false 0 p' ·) hoff

/-! ### The statement -/

/-- Settles O11: each clause is the lemma of the check at which the packet leaves, or of its entry into the core. -/
theorem fabricPacketArrives : Obligations.FabricPacketArrives := by
  unfold Obligations.FabricPacketArrives
  refine ⟨fun _ _ _ _ => rfl, fun s h => runInner_idle h 10, ?_, ?_, ?_, ?_⟩
  · intro s l p p' o ks hup hks hcrc hside hop hage hd hm hgo ho hp t
    have hn := (arrivalCounted_noted l p s).trans (coatNoted_noted l p _)
    have ht : t = _ := (fabricArrival_transit hup hks hcrc hd hside hop hage).trans (arriveEnter_transit hn hm hgo ho hp)
    obtain ⟨n, a, -, hu⟩ := hn
    rw [hu] at ht
    obtain ⟨hq, hfree, c, m, r, hsame⟩ := enqueueNow_unicast (linkPort l) o (pktUnits (link s l).gen p) (partOf p) false 0 p'
      (rxReserve l (partOf p) (pktUnits (link s l).gen p) { s with counts := n, attic := a })
    rw [← ht] at hq hfree hsame
    refine ⟨hq, hfree, ?_⟩
    rw [hsame]
    exact ⟨rfl, rfl⟩
  · intro s l p ks hup hbad hks hp t
    obtain ⟨u, hu, hdrop⟩ := fabricArrival_discarded hup hks hbad
    have ht : t = reservedAndFreed l p u := hdrop.trans (arriveDrop_off (by rw [hu.peep, hp]) p)
    obtain ⟨n, a, -, rfl⟩ := hu
    rw [ht]
    exact ⟨rfl, rfl, rfl⟩
  · intro s l p ks hup hgen hks hp t
    have hn := arrivalCounted_noted l p s
    have ht : t = _ := (fabricArrival_reserved hup hgen hks).trans (arriveDrop_off (by rw [hn.peep, hp]) p)
    obtain ⟨n, a, -, hu⟩ := hn
    rw [ht, hu]
    exact ⟨rfl, rfl, rfl⟩
  · intro s l p ks hdown
    obtain ⟨n, a, -, hu⟩ := arrivalCounted_noted l p s
    rw [fabricArrival_down hdown, hu]

end Machine
end Sys2Proof
end

section
/-!
PROOF. Memory requests at their destination (R164, R174, R185, R385, R401 to R407): what is booked before one is performed, and what
performing it writes and answers.
-/
namespace Sys2Proof
namespace Machine

/-! ### What is booked before a request is performed -/

/-- The core, the counts and the books of the Larder differ, but no byte and no bad word. -/
def Booked (s t : State) : Prop := t.larder.mem = s.larder.mem ∧ t.larder.badWord = s.larder.badWord
  ∧ t = { s with core := t.core, larder := t.larder, counts := t.counts }

theorem Booked.refl (s : State) : Booked s s := ⟨rfl, rfl, rfl⟩

theorem Booked.eq {s t : State} (h : Booked s t) : ∃ c k n, k.mem = s.larder.mem ∧ k.badWord = s.larder.badWord
    ∧ t = { s with core := c, larder := k, counts := n } := ⟨_, _, _, h⟩

theorem Booked.trans {s t u : State} (h : Booked s t) (k : Booked t u) : Booked s u := by
  obtain ⟨_, _, _, hm, hb, rfl⟩ := h.eq
  obtain ⟨_, _, _, hm', hb', rfl⟩ := k.eq
  exact ⟨hm'.trans hm, hb'.trans hb, rfl⟩

theorem Booked.kept {s t : State} (h : Booked s t) : t.work = s.work ∧ t.regs = s.regs := by
  obtain ⟨_, _, _, -, -, rfl⟩ := h.eq
  exact ⟨rfl, rfl⟩

theorem Booked.foldl {α : Type} {f : State → α → State} (h : ∀ s x, Booked s (f s x)) :
    ∀ (l : List α) (s : State), Booked s (l.foldl f s)
  | [], s => .refl s
  | x :: l, s => (h s x).trans (foldl h l (f s x))

theorem takeDelivered_core (p s) : ∃ c, takeDelivered p s = { s with core := c } := by
  unfold takeDelivered
  split
  · exact ⟨_, rfl⟩
  · exact ⟨s.core, rfl⟩

theorem takeDelivered_booked (p s) : Booked s (takeDelivered p s) := by
  obtain ⟨c, h⟩ := takeDelivered_core p s
  rw [h]
  exact ⟨rfl, rfl, rfl⟩

theorem translate_cache (coat tenant page line s) : ∃ k n, translate coat tenant page line s = { s with larder.cache := k, counts := n } := by
  unfold translate
  extract_lets e rest hit larder t
  split
  · exact ⟨_, s.counts, rfl⟩
  · exact ⟨_, _, rfl⟩

/-- A place's translations change the cache alone (R390). -/
theorem translateAll_cache (coat tenant off pl s) :
    ∃ k n, translateAll coat tenant off pl s = { s with larder.cache := k, counts := n } := by
  cases pl with
  | array b => exact ⟨s.larder.cache, s.counts, rfl⟩
  | counter b => exact ⟨s.larder.cache, s.counts, rfl⟩
  | larder runs =>
    simp only [translateAll]
    induction runs.zip (upFrom (off / 0x200000) runs.length) generalizing s with
    | nil => exact ⟨s.larder.cache, s.counts, rfl⟩
    | cons x xs ih =>
      obtain ⟨k, n, h⟩ := translate_cache coat tenant x.2 (x.1.1 / 256) s
      obtain ⟨k', n', h'⟩ := ih (translate coat tenant x.2 (x.1.1 / 256) s)
      exact ⟨k', n', by rw [List.foldl_cons, h', h]⟩

theorem countLine_booked (cls wr tenant s x) : Booked s (countLine cls wr tenant s x) := by
  unfold countLine
  extract_lets st t _ u
  split
  · exact ⟨rfl, rfl, rfl⟩
  · exact ⟨rfl, rfl, rfl⟩

theorem countPlace_booked (cls wr tenant pl s) : Booked s (countPlace cls wr tenant pl s) := .foldl (countLine_booked cls wr tenant) ..

theorem noteTaken_booked (r s) : Booked s (noteTaken r s) := by
  unfold noteTaken
  extract_lets t
  have ht : Booked s t := .foldl (f := noteLine) (fun _ _ => ⟨rfl, rfl, rfl⟩) ..
  split
  · exact ht.trans ⟨rfl, rfl, rfl⟩
  · exact ht

/-- What is booked as a checked request leaves its port: the packet delivered, and the translations of its place. -/
def admitted (p : Packet) (pl : Place) (s : State) : State := translateAll p.coat p.tenant (addrOff p.addr) pl (takeDelivered p s)

theorem admitted_cache (p pl s) : ∃ c k n, admitted p pl s = { s with core := c, larder.cache := k, counts := n } := by
  obtain ⟨c, hc⟩ := takeDelivered_core p s
  obtain ⟨k, n, hk⟩ := translateAll_cache p.coat p.tenant (addrOff p.addr) pl (takeDelivered p s)
  exact ⟨c, k, n, by rw [admitted, hk, hc]⟩

theorem admitted_booked (p pl s) : Booked s (admitted p pl s) := by
  obtain ⟨c, k, n, h⟩ := admitted_cache p pl s
  rw [h]
  exact ⟨rfl, rfl, rfl⟩

/-! ### Where a request goes (R174, R185, R385, R407) -/

theorem offer_waits {s : State} {r : LarderReq}
    (h : tblGet [] s.larder.waiting r.i ≠ [] ∨ s.larder.fills ≠ [] ∨ mayServe s r = false) :
    offer s r = { s with larder.waiting := tblSet [] s.larder.waiting r.i (tblGet [] s.larder.waiting r.i ++ [r]) } :=
  if_neg (by simpa [imp_iff_not_or, or_assoc] using h)

theorem offer_served {s : State} {r : LarderReq} (hq : tblGet [] s.larder.waiting r.i = []) (hf : s.larder.fills = [])
    (hm : mayServe s r = true) : offer s r = perform r (noteTaken r s) :=
  if_pos (by rw [hq, hf, hm]; rfl)

theorem offer_admitted {s : State} {r : LarderReq} (hq : tblGet [] s.larder.waiting r.i = []) (hf : s.larder.fills = [])
    (hm : mayServe s r = true) (p pl) : offer (admitted p pl s) r = perform r (noteTaken r (admitted p pl s)) := by
  obtain ⟨c, k, n, h⟩ := admitted_cache p pl s
  rw [h]
  exact offer_served hq hf hm

section
variable {s : State} {p : Packet}

theorem memRequest_drained (hd : s.attic.draining = true) (hp : p.src ≠ myNode s)
    (ht : ∀ x ∈ s.items.track, x.src = p.src → x.tag = p.tag → p.opcode ≠ 0x02) :
    memRequest p s = refuse stDrained p (takeDelivered p s) :=
  if_pos (by simpa [hd, hp] using ht)

theorem memRequest_held (hd : s.attic.draining = false) (hop : p.opcode = 0x02) (hm : p.mcast = false)
    (ht : trackRoom s p = false) : memRequest p s = s :=
  (if_neg (by rw [hd]; exact Bool.false_ne_true)).trans (if_pos (by rw [hop, hm, ht]; rfl))

section
variable (hd : s.attic.draining = false) (hroom : p.opcode = 0x02 → p.mcast = false → trackRoom s p = true)
include hd hroom

theorem memRequest_refused {st : BitVec 8} (h : checkRequest s p = .fail st) : memRequest p s = refuse st p (takeDelivered p s) := by
  refine (if_neg (by rw [hd]; exact Bool.false_ne_true)).trans ((if_neg (by simpa using hroom)).trans ?_)
  rw [h]

theorem memRequest_admitted {pl : Place} (h : checkRequest s p = .ok pl) : memRequest p s = admitRequest p pl s := by
  refine (if_neg (by rw [hd]; exact Bool.false_ne_true)).trans ((if_neg (by simpa using hroom)).trans ?_)
  rw [h]

end

/-- A Larder range whose one request finds its controller free is performed at once. -/
theorem memRequest_larder {runs : List (Nat × Nat)} {r : LarderReq} (h : ServedAtOnce s p (.larder runs))
    (hr : reqsOf p (.larder runs) = [r]) (hroom : p.opcode = 0x02 → p.mcast = false → trackRoom s p = true)
    (hok : checkRequest s p = .ok (.larder runs)) : ∃ u, Booked s u ∧ memRequest p s = perform r u := by
  obtain ⟨hd, r', hr', hq, hf, hm⟩ := h
  obtain rfl : r' = r := by simpa using hr'.symm.trans hr
  refine ⟨_, (admitted_booked p (.larder runs) s).trans (noteTaken_booked r' _), ?_⟩
  rw [memRequest_admitted hd hroom hok]
  change (reqsOf p (.larder runs)).foldl offer (admitted p (.larder runs) s) = _
  rw [hr]
  exact offer_admitted hq hf hm ..

/-- A request for an array that no copying holds up is performed at once. -/
theorem memRequest_array {b : Nat} {r : LarderReq} (h : ServedAtOnce s p (.array b))
    (hr : reqsOf p (.array b) = [r]) (hroom : p.opcode = 0x02 → p.mcast = false → trackRoom s p = true)
    (hok : checkRequest s p = .ok (.array b)) : memRequest p s = perform r (takeDelivered p s) := by
  obtain ⟨hd, _, -, hcopy⟩ := h
  have hgo : ¬ (copyFirst s && copyWaits s (b / 0x400000)) = true := by
    rcases hcopy with h | h <;> rw [h] <;> simp
  refine (memRequest_admitted hd hroom hok).trans ((if_neg hgo).trans ?_)
  rw [hr]
  rfl

end

/-! ### Performing a request (R166, R385, R401) -/

/-- The lines that the request touches, counted for the fabric class (R408). -/
def linesCounted (r : LarderReq) (s : State) : State :=
  countPlace .fabric (r.pkt.opcode ≠ 0x01) (some r.pkt.tenant) (subPlace r.pl r.pos r.len) s

theorem linesCounted_booked (r s) : Booked s (linesCounted r s) := countPlace_booked ..

theorem linesCounted_array {r : LarderReq} {b : Nat} (h : r.pl = .array b) (s) : linesCounted r s = s := by
  simp only [linesCounted, h, subPlace, countPlace_array]

theorem perform_read {r : LarderReq} (h : r.pkt.opcode = 0x01) (s) : perform r s = readPiece r (linesCounted r s) := if_pos h

theorem perform_write {r : LarderReq} (h : r.pkt.opcode = 0x02) (s) : perform r s = writePacket r (linesCounted r s) :=
  (if_neg (by rw [h]; decide)).trans (if_pos h)

theorem perform_atomic {r : LarderReq} (h1 : r.pkt.opcode ≠ 0x01) (h2 : r.pkt.opcode ≠ 0x02) (s) :
    perform r s = atomicPacket r (linesCounted r s) := (if_neg h1).trans (if_neg h2)

/-- The one request of a WR or an atomic. -/
def wholeReq (p : Packet) (pl : Place) : LarderReq := { i := (placePort pl).val % 24, pkt := p, pl := pl, pos := 0, len := (reqRange p).1 }

theorem reqsOf_whole {p : Packet} (h : p.opcode ≠ 0x01) (pl) : reqsOf p pl = [wholeReq p pl] := if_neg h

/-- The one request of a read that no multiple of 4,096 cuts. -/
def pieceReq (p : Packet) (pl : Place) : LarderReq :=
  { i := (placePort (subPlace pl 0 p.itemLen.toNat)).val % 24, pkt := p, pl := pl, pos := 0, len := p.itemLen.toNat }

theorem pieces_one {a n : Nat} (h0 : 0 < n) (h : a % 4096 + n ≤ 4096) (fuel) : pieces (fuel + 2) a n = [(a, n)] := by
  simp only [pieces, if_neg (Nat.ne_of_gt h0), Nat.min_eq_left (Nat.le_sub_of_add_le' h), Nat.sub_self, if_true]

theorem reqsOf_piece {p : Packet} (hop : p.opcode = 0x01) (h0 : 0 < p.itemLen.toNat)
    (h : p.addr.toNat % 4096 + p.itemLen.toNat ≤ 4096) (pl) : reqsOf p pl = [pieceReq p pl] := by
  refine (if_pos hop).trans ?_
  rw [piecesOf, pieces_one h0 h]
  simp [pieceReq]

theorem subPlace_run {n : Nat} (h0 : 0 < n) (b) : subPlace (.larder [(b, n)]) 0 n = .larder [(b, n)] := by
  simp [subPlace, subRuns, Nat.ne_of_gt h0]

/-- A read of one piece answers with one packet (R166, R385). -/
theorem readPiece_one {s : State} {p : Packet} {pl : Place} {bs : List Byte}
    (h : placeRead s (subPlace pl 0 p.itemLen.toNat) p.itemLen.toNat = some bs) :
    readPiece (pieceReq p pl) s = inject (placePort (subPlace pl 0 p.itemLen.toNat)) (withPayload bs
      { answerTo s 0x81 p with addr := p.addr, itemLen := p.itemLen, last := true }) s := by
  simp [readPiece, pieceReq, h]

/-! ### Writes of words that are all good -/

theorem placeWrite_larder {s : State} (h : s.larder.badWord = []) (b) (bs : List Byte) : ∃ n,
    placeWrite (.larder [(b, bs.length)]) bs s
      = ({ s with larder.mem := memWrite s.larder.mem b bs, larder.badWord := [], counts := n }, true) := by
  obtain ⟨hmem, hok⟩ := writeWords_good (bs.length / 64 + 2) b bs s.larder.mem 0 (by omega)
  simp only [placeWrite, writeRuns, List.take_length, h, hmem, hok]
  split
  · exact ⟨s.counts, rfl⟩
  · exact ⟨_, rfl⟩

/-- A WR of one run stores its payload and is counted (R401). -/
theorem writePacket_larder {s : State} {p : Packet} (hm : p.mcast = false) (h : s.larder.badWord = []) (b : Nat) : ∃ n,
    writePacket (wholeReq p (.larder [(b, p.payload.length)])) s = countWrite (placePort (.larder [(b, p.payload.length)])) p
      { s with larder.mem := memWrite s.larder.mem b p.payload, larder.badWord := [], counts := n } := by
  obtain ⟨n, hw⟩ := placeWrite_larder h b p.payload
  exact ⟨n, by simp [writePacket, wholeReq, hw, hm]⟩

theorem writePacket_array {s : State} {p : Packet} (hm : p.mcast = false) (h : s.work.badWord = []) (b : Nat) :
    writePacket (wholeReq p (.array b)) s = countWrite (placePort (.array b)) p
      { s with work.mem := memWrite s.work.mem b p.payload, work.badWord := [] } := by
  simp [writePacket, wholeReq, placeWrite_array h, hm]

/-! ### Answers and refusals (R167, R171, R185, R316) -/

theorem CoreOnly.kept {s t : State} (h : CoreOnly s t) : t.larder = s.larder ∧ t.work = s.work ∧ t.regs = s.regs := by
  obtain ⟨_, _, _, _, rfl⟩ := h
  exact ⟨rfl, rfl, rfl⟩

theorem takeDelivered_coreOnly (p s) : CoreOnly s (takeDelivered p s) := by
  obtain ⟨c, h⟩ := takeDelivered_core p s
  exact ⟨c, _, _, _, h⟩

theorem countWrite_core (i p s) : CoreOnly s (countWrite i p s) := by
  unfold countWrite
  extract_lets old got echo rest
  split
  · exact CoreOnly.trans (t := { s with items.track := rest }) ⟨_, _, _, _, rfl⟩ (inject_core ..)
  · exact ⟨_, _, _, _, rfl⟩

theorem closeRecord_core (r s) : CoreOnly s (closeRecord r s) := by
  unfold closeRecord
  extract_lets _ t
  exact CoreOnly.trans (t := t) ⟨_, _, _, _, rfl⟩ (inject_core ..)

theorem mcCount_core (o ok st p s) : CoreOnly s (mcCount o ok st p s) := by
  unfold mcCount
  split
  · exact .refl s
  · extract_lets n r
    split
    · exact closeRecord_core ..
    · exact ⟨_, _, _, _, rfl⟩

theorem countRefused_core (t st s) : CoreOnly s (countRefused t st s) := by
  unfold countRefused
  split
  · exact ⟨_, _, _, _, rfl⟩
  · split
    · exact ⟨_, _, _, _, rfl⟩
    · exact .refl s

theorem refuse_core (st p s) : CoreOnly s (refuse st p s) := by
  unfold refuse
  extract_lets o t
  have ht : CoreOnly s t := countRefused_core ..
  split
  · exact ht.trans (mcCount_core ..)
  · exact ht.trans (sendFail_core ..)

/-! ### Requests that change no byte -/

/-- The bytes of both memories and the registers agree. -/
def KeepsBytes (s t : State) : Prop := t.larder.mem = s.larder.mem ∧ t.work.mem = s.work.mem ∧ t.regs = s.regs

theorem KeepsBytes.refl (s : State) : KeepsBytes s s := ⟨rfl, rfl, rfl⟩

theorem KeepsBytes.trans {s t u : State} (h : KeepsBytes s t) (k : KeepsBytes t u) : KeepsBytes s u := by
  obtain ⟨hl, hw, hr⟩ := h
  obtain ⟨hl', hw', hr'⟩ := k
  exact ⟨hl'.trans hl, hw'.trans hw, hr'.trans hr⟩

theorem KeepsBytes.foldl {α : Type} {f : State → α → State} {l : List α} (h : ∀ x ∈ l, ∀ s, KeepsBytes s (f s x)) (s : State) :
    KeepsBytes s (l.foldl f s) := by
  induction l generalizing s with
  | nil => exact .refl s
  | cons x l ih => exact (h x (List.mem_cons_self ..) s).trans (ih (fun y hy => h y (List.mem_cons_of_mem _ hy)) _)

theorem CoreOnly.bytes {s t : State} (h : CoreOnly s t) : KeepsBytes s t := by
  obtain ⟨_, _, _, _, rfl⟩ := h
  exact ⟨rfl, rfl, rfl⟩

theorem HostOnly.bytes {s t : State} (h : HostOnly s t) : KeepsBytes s t := by
  obtain ⟨_, _, _, rfl⟩ := h
  exact ⟨Eq.refl _, Eq.refl _, Eq.refl _⟩

theorem Booked.bytes {s t : State} (h : Booked s t) : KeepsBytes s t := by
  obtain ⟨_, _, _, hm, -, rfl⟩ := h.eq
  exact ⟨hm, rfl, rfl⟩

theorem retireFrame_bytes (f st s) : KeepsBytes s (retireFrame f st s) := by
  unfold retireFrame
  extract_lets room t
  have ht : KeepsBytes s t := ((raiseEv_host ..).trans (bump_host ..)).bytes
  split
  · exact .refl s
  · split
    · exact ht.trans ⟨rfl, rfl, rfl⟩
    · exact ht.trans ⟨rfl, rfl, rfl⟩

/-- An uncorrectable word found retires its frame and changes no byte (R415). -/
theorem foundBad_bytes (row addr pl s) : KeepsBytes s (foundBad row addr pl s) := by
  unfold foundBad
  extract_lets t
  have ht : KeepsBytes s t := (raiseEv_host ..).bytes
  split
  · exact ht.trans (.foldl (fun w _ s => (HostOnly.bytes (bump_host ..)).trans (retireFrame_bytes ..)) _)
  · exact ht

theorem readPiece_bytes (r s) : KeepsBytes s (readPiece r s) := by
  unfold readPiece
  extract_lets p pl _ t
  have ht : KeepsBytes s t := foundBad_bytes ..
  split
  · exact (inject_core ..).bytes
  · split
    · exact ht
    · exact (ht.trans (sendFail_core ..).bytes).trans ⟨rfl, rfl, rfl⟩

theorem perform_read_bytes {r : LarderReq} (h : r.pkt.opcode = 0x01) (s) : KeepsBytes s (perform r s) := by
  rw [perform_read h]
  exact (linesCounted_booked r s).bytes.trans (readPiece_bytes ..)

theorem offer_read_bytes {r : LarderReq} (h : r.pkt.opcode = 0x01) (s) : KeepsBytes s (offer s r) := by
  unfold offer
  extract_lets q
  split
  · exact (noteTaken_booked r s).bytes.trans (perform_read_bytes h _)
  · exact ⟨rfl, rfl, rfl⟩

theorem memRequest_cases (p s) : memRequest p s = s ∨ (∃ st, memRequest p s = refuse st p (takeDelivered p s))
    ∨ ∃ pl, checkRequest s p = .ok pl ∧ memRequest p s = admitRequest p pl s := by
  unfold memRequest
  split
  · exact .inr (.inl ⟨_, rfl⟩)
  · split
    · exact .inl rfl
    · split
      next st _ => exact .inr (.inl ⟨st, rfl⟩)
      next pl h => exact .inr (.inr ⟨pl, h, rfl⟩)

theorem pkt_of_mem_reqsOf {p : Packet} {pl : Place} {r : LarderReq} (h : r ∈ reqsOf p pl) : r.pkt = p := by
  unfold reqsOf at h
  split at h
  · obtain ⟨c, -, rfl⟩ := List.mem_map.mp h
    rfl
  · rw [List.mem_singleton.mp h]

/-- A request to read changes no byte (R385), whatever its checks say. -/
theorem memRequest_read_bytes {p : Packet} (h : p.opcode = 0x01) (s) : KeepsBytes s (memRequest p s) := by
  rcases memRequest_cases p s with hr | ⟨st, hr⟩ | ⟨pl, -, hr⟩
  · rw [hr]
    exact .refl s
  · rw [hr]
    exact ((takeDelivered_coreOnly p s).trans (refuse_core ..)).bytes
  · rw [hr]
    have hreq : ∀ r ∈ reqsOf p pl, r.pkt.opcode = 0x01 := fun r hr => by rw [pkt_of_mem_reqsOf hr, h]
    have hadm := (admitted_booked p pl s).bytes
    cases pl with
    | larder runs => exact hadm.trans (.foldl (fun r hr u => offer_read_bytes (hreq r hr) u) _)
    | counter b => exact hadm.trans (.foldl (fun r hr u => perform_read_bytes (hreq r hr) u) _)
    | array b =>
      by_cases hc : (copyFirst s && copyWaits s (b / 0x400000)) = true
      · rw [show admitRequest p (.array b) s = s from if_pos hc]
        exact .refl s
      · rw [show admitRequest p (.array b) s = (reqsOf p (.array b)).foldl (fun s r => perform r s) (admitted p (.array b) s) from if_neg hc]
        exact hadm.trans (.foldl (fun r hr u => perform_read_bytes (hreq r hr) u) _)

/-- A WR that a check refuses changes no byte (R185). -/
theorem memRequest_refused_bytes {s : State} {p : Packet} {st : BitVec 8} (h : checkRequest s p = .fail st) :
    KeepsBytes s (memRequest p s) := by
  rcases memRequest_cases p s with hr | ⟨st, hr⟩ | ⟨pl, hok, -⟩
  · rw [hr]
    exact .refl s
  · rw [hr]
    exact ((takeDelivered_coreOnly p s).trans (refuse_core ..)).bytes
  · rw [h] at hok
    cases hok

end Machine
end Sys2Proof
end

section
/-!
PROOF. WR and RD_REQ (R166, R174, R185, R385, R401, R402, R413): each clause of WritesStoreReadsAnswer as a lemma about its request.
-/
namespace Sys2Proof
namespace Machine

/-! ### The rows and their checks -/

theorem exec_rdReq {p : Packet} (h : p.opcode = 0x01) (s) : exec (.rdReq p) s = .next (memRequest p s) :=
  congrArg Host.Outcome.next (if_pos h)

theorem exec_wr {p : Packet} (h : p.opcode = 0x02) (s) : exec (.wr p) s = .next (memRequest p s) :=
  congrArg Host.Outcome.next (if_pos h)

theorem checkRequest_read {p : Packet} (h : p.opcode = 0x01) (s) : checkRequest s p = checkPacket s p p.itemLen.toNat .rd := by
  simp [checkRequest, isAtomic, reqRange, h]

theorem checkRequest_write {p : Packet} (h : p.opcode = 0x02) (s) : checkRequest s p = checkPacket s p p.payLen.toNat .wr := by
  simp [checkRequest, isAtomic, reqRange, h]

/-! ### A WR stores its payload (R401, R402) -/

section
variable {s : State} {p : Packet} {b : Nat} (hop : p.opcode = 0x02) (hm : p.mcast = false) (hroom : trackRoom s p = true)
include hop hm hroom

theorem wr_larder (h : ServedAtOnce s p (.larder [(b, p.payload.length)]))
    (hok : checkPacket s p p.payLen.toNat .wr = .ok (.larder [(b, p.payload.length)])) (hbad : s.larder.badWord = [])
    (hwf : s.larder.memWf = true) :
    Completes (.wr p) s fun t => memRead t.larder.mem b p.payload.length = p.payload
      ∧ (∀ a, a < b ∨ b + p.payload.length ≤ a → tblGet 0 t.larder.mem a = tblGet 0 s.larder.mem a)
      ∧ (∃ x, t = countWrite (placePort (.larder [(b, p.payload.length)])) p x ∧ x.items = s.items)
      ∧ t.larder.memWf = true ∧ t.work = s.work ∧ t.regs = s.regs := by
  have hne : p.opcode ≠ 0x01 := by rw [hop]; decide
  obtain ⟨u, hu, hmem⟩ := memRequest_larder h (reqsOf_whole hne _) (fun _ _ => hroom) ((checkRequest_write hop s).trans hok)
  rw [perform_write (by exact hop)] at hmem
  obtain ⟨c, k, n, hkm, hkb, hv⟩ := (hu.trans (linesCounted_booked _ u)).eq
  rw [hv] at hmem
  obtain ⟨m, hw⟩ := writePacket_larder (s := { s with core := c, larder := k, counts := n }) hm (hkb.trans hbad) b
  obtain ⟨hl, hwork, hregs⟩ := (countWrite_core (placePort (.larder [(b, p.payload.length)])) p { s with
    core := c, larder := { k with mem := memWrite k.mem b p.payload, badWord := [] }, counts := m }).kept
  refine ⟨_, (exec_wr hop s).trans (congrArg Host.Outcome.next (hmem.trans hw)), ?_, ?_, ⟨_, rfl, rfl⟩, ?_, hwork, hregs⟩
  · rw [hl]
    exact memRead_memWrite _ _ _ (by rw [hkm]; exact hwf)
  · intro a ha
    rw [hl]
    exact (tblGet_memWrite_outside _ _ _ _ ha).trans (by rw [hkm])
  · rw [hl]
    exact tblWf_memWrite _ _ _ (by rw [hkm]; exact hwf)

theorem wr_array (h : ServedAtOnce s p (.array b)) (hok : checkPacket s p p.payLen.toNat .wr = .ok (.array b))
    (hbad : s.work.badWord = []) (hwf : s.work.memWf = true) :
    Completes (.wr p) s fun t => memRead t.work.mem b p.payload.length = p.payload
      ∧ (∀ a, a < b ∨ b + p.payload.length ≤ a → tblGet 0 t.work.mem a = tblGet 0 s.work.mem a)
      ∧ (∃ x, t = countWrite (placePort (.array b)) p x ∧ x.items = s.items)
      ∧ t.work.memWf = true ∧ t.larder.mem = s.larder.mem ∧ t.regs = s.regs := by
  have hne : p.opcode ≠ 0x01 := by rw [hop]; decide
  have hmem := memRequest_array h (reqsOf_whole hne _) (fun _ _ => hroom) ((checkRequest_write hop s).trans hok)
  obtain ⟨c, hc⟩ := takeDelivered_core p s
  rw [perform_write (by exact hop), linesCounted_array rfl, hc] at hmem
  have hw := writePacket_array (s := { s with core := c }) hm hbad b
  obtain ⟨hl, hwork, hregs⟩ := (countWrite_core (placePort (.array b)) p { s with
    core := c, work := { s.work with mem := memWrite s.work.mem b p.payload, badWord := [] } }).kept
  refine ⟨_, (exec_wr hop s).trans (congrArg Host.Outcome.next (hmem.trans hw)), ?_, ?_, ⟨_, rfl, rfl⟩, ?_,
    congrArg Larder.mem hl, hregs⟩
  · rw [hwork]
    exact memRead_memWrite _ _ _ hwf
  · intro a ha
    rw [hwork]
    exact tblGet_memWrite_outside _ _ _ _ ha
  · rw [hwork]
    exact tblWf_memWrite _ _ _ hwf

end

/-- A WR of an item that no entry tracks yet ends it, or opens an entry (R65, R171, R401). -/
theorem countWrite_first {s : State} {p : Packet} (h : s.items.track.find? (fun x => x.src = p.src && x.tag = p.tag) = none) (port) :
    (p.payLen.toNat = p.itemLen.toNat → countWrite port p s = inject port { answerTo s 0x82 p with itemLen := 0, ecnEcho := p.ecnCe } s)
    ∧ (p.payLen.toNat ≠ p.itemLen.toNat → countWrite port p s = { s with items.track := s.items.track
        ++ [{ src := p.src, tag := p.tag, got := p.payLen.toNat, len := p.itemLen.toNat, last := s.tick.elapsed, echo := p.ecnCe }] }) := by
  have hrest : s.items.track.filter (fun x => !(x.src = p.src && x.tag = p.tag)) = s.items.track :=
    List.filter_eq_self.mpr fun x hx => by
      rw [Bool.eq_false_of_not_eq_true (List.find?_eq_none.mp h x hx)]
      rfl
  constructor
  · intro hlen
    simp only [countWrite, h, hrest, Nat.zero_add, Bool.false_or, if_pos hlen]
  · intro hlen
    simp only [countWrite, h, hrest, Nat.zero_add, Bool.false_or, if_neg hlen]

/-! ### An RD_REQ answers the bytes (R166, R385) -/

section
variable {s : State} {p : Packet} {b : Nat} (hop : p.opcode = 0x01) (h0 : 0 < p.itemLen.toNat)
  (hpiece : p.addr.toNat % 4096 + p.itemLen.toNat ≤ 4096)
include hop h0 hpiece

theorem rdReq_array (h : ServedAtOnce s p (.array b)) (hok : checkPacket s p p.itemLen.toNat .rd = .ok (.array b))
    (hbad : s.work.badWord = []) :
    exec (.rdReq p) s = .next (inject (placePort (.array b)) (withPayload (memRead s.work.mem b p.itemLen.toNat)
      { answerTo s 0x81 p with addr := p.addr, itemLen := p.itemLen, last := true }) (takeDelivered p s)) := by
  have hne : p.opcode ≠ 0x02 := by rw [hop]; decide
  have hmem := memRequest_array h (reqsOf_piece hop h0 hpiece _) (absurd · hne) ((checkRequest_read hop s).trans hok)
  obtain ⟨c, hc⟩ := takeDelivered_core p s
  rw [perform_read (by exact hop), linesCounted_array rfl, hc] at hmem
  rw [exec_rdReq hop, hmem, hc, readPiece_one (placeRead_array (s := { s with core := c }) hbad ..)]
  rfl

theorem rdReq_larder (h : ServedAtOnce s p (.larder [(b, p.itemLen.toNat)]))
    (hok : checkPacket s p p.itemLen.toNat .rd = .ok (.larder [(b, p.itemLen.toNat)])) (hbad : s.larder.badWord = []) :
    Completes (.rdReq p) s fun t => ∃ x, x.larder.mem = s.larder.mem ∧ t = inject (placePort (.larder [(b, p.itemLen.toNat)]))
      (withPayload (memRead s.larder.mem b p.itemLen.toNat)
        { answerTo s 0x81 p with addr := p.addr, itemLen := p.itemLen, last := true }) x := by
  have hne : p.opcode ≠ 0x02 := by rw [hop]; decide
  obtain ⟨u, hu, hmem⟩ := memRequest_larder h (reqsOf_piece hop h0 hpiece _) (absurd · hne) ((checkRequest_read hop s).trans hok)
  obtain ⟨c, k, n, hkm, hkb, hv⟩ := (hu.trans (linesCounted_booked (pieceReq p (.larder [(b, p.itemLen.toNat)])) u)).eq
  have hread := placeRead_run (s := { s with core := c, larder := k, counts := n }) (hkb.trans hbad) b p.itemLen.toNat
  rw [← subPlace_run h0] at hread
  have hone := readPiece_one (p := p) hread
  rw [subPlace_run h0] at hone
  rw [perform_read (by exact hop), hv, hone] at hmem
  refine ⟨_, (exec_rdReq hop s).trans (congrArg Host.Outcome.next hmem), { s with core := c, larder := k, counts := n }, hkm, ?_⟩
  rw [hkm]
  rfl

end

/-! ### The statement -/

/-- Settles O17: each clause is the lemma of where a request goes, of a WR, or of a read. -/
theorem writesStoreReadsAnswer : Obligations.WritesStoreReadsAnswer := by
  unfold Obligations.WritesStoreReadsAnswer
  refine ⟨⟨?_, ?_, ?_, ?_, ?_, ?_⟩, ⟨?_, ?_, ?_, ?_⟩, ?_, ?_, ?_⟩
  · exact fun s p => ⟨fun h => exec_rdReq h s, fun h => exec_wr h s, fun h => congrArg Host.Outcome.next (if_neg h),
      fun h => congrArg Host.Outcome.next (if_neg h)⟩
  · exact fun s p st hd hroom h => memRequest_refused hd hroom h
  · exact fun s p hd hp ht => memRequest_drained hd hp ht
  · exact fun s p hd hop hm ht => memRequest_held hd hop hm ht
  · exact fun s r h => offer_waits h
  · exact fun s r hq hf hm => offer_served hq hf hm
  · exact fun s p b hop hm hroom h hok hbad hwf => wr_larder hop hm hroom h hok hbad hwf
  · exact fun s p b hop hm hroom h hok hbad hwf => wr_array hop hm hroom h hok hbad hwf
  · exact fun s port p h => countWrite_first h port
  · exact fun s p st hop h => ⟨_, exec_wr hop s, memRequest_refused_bytes ((checkRequest_write hop s).trans h)⟩
  · exact fun s p b hop h h0 hpiece hok hbad => rdReq_array hop h0 hpiece h hok hbad
  · exact fun s p b hop h h0 hpiece hok hbad => rdReq_larder hop h0 hpiece h hok hbad
  · exact fun s p hop => ⟨_, exec_rdReq hop s, memRequest_read_bytes hop s⟩

end Machine
end Sys2Proof
end

section
/-!
PROOF. The fabric atomics (R164, R403 to R405, Table 11-6), and the statement of AtomicsReplaceOneOperand.
-/
namespace Sys2Proof
namespace Machine

/-! ### The rows and their checks -/

/-- The rows of the fabric atomics and their opcodes (Table 5-6). -/
def fabricAtomics : List ((Packet → Instr) × BitVec 8) :=
  [(.atFadd64, 0x08), (.atSwap64, 0x09), (.atCas64, 0x0A), (.atCas128, 0x0B), (.atFaddFp32, 0x0C), (.atFaddBf16, 0x0D)]

theorem exec_fabricAtomic {e : (Packet → Instr) × BitVec 8} (he : e ∈ fabricAtomics) {p : Packet} (h : p.opcode = e.2) (s) :
    exec (e.1 p) s = .next (memRequest p s) := by
  simp only [fabricAtomics, List.mem_cons, List.not_mem_nil, or_false] at he
  rcases he with rfl | rfl | rfl | rfl | rfl | rfl <;> exact congrArg Host.Outcome.next (if_pos h)

theorem isAtomic_of_mem {e : (Packet → Instr) × BitVec 8} (he : e ∈ fabricAtomics) {p : Packet} (h : p.opcode = e.2) :
    isAtomic p = true := by
  have hall : ∀ e ∈ fabricAtomics, 0x08 ≤ e.2.toNat ∧ e.2.toNat ≤ 0x0D := by simp [fabricAtomics]
  simpa [isAtomic, h] using hall e he

section
variable {p : Packet} (h : isAtomic p = true)
include h

/-- An atomic is neither a read nor a WR. -/
theorem opcode_of_isAtomic : p.opcode ≠ 0x01 ∧ p.opcode ≠ 0x02 := by
  have hge : 0x08 ≤ p.opcode.toNat := of_decide_eq_true (Bool.and_eq_true_iff.mp h).1
  exact ⟨fun he => absurd (he ▸ hge) (by decide), fun he => absurd (he ▸ hge) (by decide)⟩

theorem checkRequest_misaligned (ha : p.addr.toNat % atomicWidth p.opcode.toNat ≠ 0) (s) : checkRequest s p = .fail stDenied :=
  if_pos (by rw [h, decide_eq_true ha]; rfl)

theorem checkRequest_aligned (ha : p.addr.toNat % atomicWidth p.opcode.toNat = 0) (s) :
    checkRequest s p = checkPacket s p (atomicWidth p.opcode.toNat) .atomic := by
  obtain ⟨h1, h2⟩ := opcode_of_isAtomic h
  refine (if_neg (by rw [ha]; simp)).trans ?_
  rw [reqRange, if_neg h1, if_neg h2]

end

/-! ### The operand replaced (R403, R404) -/

/-- An atomic's answer: the old value of its operand. -/
def oldAnswer (s : State) (p : Packet) (old : Nat) : Packet :=
  withPayload (leBytes (atomicWidth p.opcode.toNat) old)
    { answerTo s 0x88 p with itemLen := BitVec.ofNat 32 (atomicWidth p.opcode.toNat) }

theorem oldAnswer_booked {s t : State} (h : Booked s t) (p old) : oldAnswer t p old = oldAnswer s p old := by
  obtain ⟨_, _, _, -, -, rfl⟩ := h.eq
  rfl

/-- What an atomic stores over the value `old`. -/
def newBytes (p : Packet) (old : Nat) : List Byte :=
  leBytes (atomicWidth p.opcode.toNat) (atomicNew p.opcode.toNat old (leAt p.payload 0 (atomicWidth p.opcode.toNat))
    (leAt p.payload (atomicWidth p.opcode.toNat) (atomicWidth p.opcode.toNat)))

theorem newBytes_length (p old) : (newBytes p old).length = atomicWidth p.opcode.toNat := leBytes_length ..

/-- The memory `m'` is `m` but for the atomic's operand at byte `b`, which holds its new value. -/
def OperandReplaced (p : Packet) (b : Nat) (m m' : Tbl Byte) : Prop :=
  memRead m' b (atomicWidth p.opcode.toNat) = newBytes p (leNat (memRead m b (atomicWidth p.opcode.toNat)))
    ∧ ∀ a, a < b ∨ b + atomicWidth p.opcode.toNat ≤ a → tblGet 0 m' a = tblGet 0 m a

theorem operandReplaced_memWrite {m : Tbl Byte} (h : tblWf 0 m = true) (p b) :
    OperandReplaced p b m (memWrite m b (newBytes p (leNat (memRead m b (atomicWidth p.opcode.toNat))))) := by
  have hread := memRead_memWrite (newBytes p (leNat (memRead m b (atomicWidth p.opcode.toNat)))) m b h
  have houtside := tblGet_memWrite_outside (newBytes p (leNat (memRead m b (atomicWidth p.opcode.toNat)))) m b
  rw [newBytes_length] at hread houtside
  exact ⟨hread, houtside⟩

theorem atomicPacket_larder {s : State} (h : s.larder.badWord = []) (p : Packet) (b : Nat) :
    let old := leNat (memRead s.larder.mem b (atomicWidth p.opcode.toNat))
    ∃ x, atomicPacket (wholeReq p (.larder [(b, atomicWidth p.opcode.toNat)])) s
        = inject (placePort (.larder [(b, atomicWidth p.opcode.toNat)])) (oldAnswer s p old) x
      ∧ x.larder.mem = memWrite s.larder.mem b (newBytes p old) ∧ x.work = s.work ∧ x.regs = s.regs := by
  intro old
  obtain ⟨n, hw⟩ := placeWrite_larder (s := bump (stackPage (stackOf b).val) 8 1 s) h b (newBytes p old)
  rw [newBytes_length] at hw
  refine ⟨{ s with larder.mem := memWrite s.larder.mem b (newBytes p old), larder.badWord := [], counts := n }, ?_, rfl, rfl, rfl⟩
  simp only [atomicPacket, wholeReq, atomicOperands, placeAtomic, placeRead_run h]
  unfold newBytes at hw
  rw [hw]
  rfl

theorem atomicPacket_array {s : State} (h : s.work.badWord = []) (p : Packet) (b : Nat) :
    let old := leNat (memRead s.work.mem b (atomicWidth p.opcode.toNat))
    ∃ x, atomicPacket (wholeReq p (.array b)) s = inject (placePort (.array b)) (oldAnswer s p old) x
      ∧ x.work.mem = memWrite s.work.mem b (newBytes p old) ∧ x.larder = s.larder ∧ x.regs = s.regs := by
  intro old
  refine ⟨{ s with work.mem := memWrite s.work.mem b (newBytes p old), work.badWord := [] }, ?_, rfl, rfl, rfl⟩
  simp only [atomicPacket, wholeReq, atomicOperands, placeAtomic, placeRead_array h, placeWrite_array h]
  rfl

section
variable {s : State} {p : Packet} {b : Nat} (h : isAtomic p = true) (ha : p.addr.toNat % atomicWidth p.opcode.toNat = 0)
include h ha

theorem atomic_larder (hs : ServedAtOnce s p (.larder [(b, atomicWidth p.opcode.toNat)]))
    (hok : checkPacket s p (atomicWidth p.opcode.toNat) .atomic = .ok (.larder [(b, atomicWidth p.opcode.toNat)]))
    (hbad : s.larder.badWord = []) (hwf : s.larder.memWf = true) :
    OperandReplaced p b s.larder.mem (memRequest p s).larder.mem
      ∧ (∃ x, memRequest p s = inject (placePort (.larder [(b, atomicWidth p.opcode.toNat)]))
        (oldAnswer s p (leNat (memRead s.larder.mem b (atomicWidth p.opcode.toNat)))) x)
      ∧ (memRequest p s).work = s.work ∧ (memRequest p s).regs = s.regs := by
  obtain ⟨h1, h2⟩ := opcode_of_isAtomic h
  obtain ⟨u, hu, hmem⟩ := memRequest_larder hs (reqsOf_whole h1 _) (absurd · h2) ((checkRequest_aligned h ha s).trans hok)
  have hv := hu.trans (linesCounted_booked (wholeReq p (.larder [(b, atomicWidth p.opcode.toNat)])) u)
  have hanswer := oldAnswer_booked hv p (leNat (memRead s.larder.mem b (atomicWidth p.opcode.toNat)))
  obtain ⟨hvw, hvr⟩ := hv.kept
  obtain ⟨hvm, hvb, -⟩ := hv
  obtain ⟨x, hx, hxm, hxw, hxr⟩ := atomicPacket_larder (hvb.trans hbad) p b
  rw [hvm] at hx hxm
  obtain ⟨hl, hwork, hregs⟩ := (inject_core (placePort (.larder [(b, atomicWidth p.opcode.toNat)]))
    (oldAnswer s p (leNat (memRead s.larder.mem b (atomicWidth p.opcode.toNat)))) x).kept
  rw [hmem, perform_atomic (by exact h1) (by exact h2), hx, hanswer, hl, hwork, hregs, hxm, hxw, hxr]
  exact ⟨operandReplaced_memWrite hwf p b, ⟨x, rfl⟩, hvw, hvr⟩

theorem atomic_array (hs : ServedAtOnce s p (.array b))
    (hok : checkPacket s p (atomicWidth p.opcode.toNat) .atomic = .ok (.array b)) (hbad : s.work.badWord = [])
    (hwf : s.work.memWf = true) :
    OperandReplaced p b s.work.mem (memRequest p s).work.mem
      ∧ (∃ x, memRequest p s = inject (placePort (.array b))
        (oldAnswer s p (leNat (memRead s.work.mem b (atomicWidth p.opcode.toNat)))) x)
      ∧ (memRequest p s).larder = s.larder ∧ (memRequest p s).regs = s.regs := by
  obtain ⟨h1, h2⟩ := opcode_of_isAtomic h
  have hmem := memRequest_array hs (reqsOf_whole h1 _) (absurd · h2) ((checkRequest_aligned h ha s).trans hok)
  have hanswer := oldAnswer_booked (takeDelivered_booked p s) p (leNat (memRead s.work.mem b (atomicWidth p.opcode.toNat)))
  obtain ⟨hul, huw, hur⟩ := (takeDelivered_coreOnly p s).kept
  obtain ⟨x, hx, hxm, hxl, hxr⟩ := atomicPacket_array ((congrArg Work.badWord huw).trans hbad) p b
  rw [huw] at hx hxm
  obtain ⟨hl, hwork, hregs⟩ := (inject_core (placePort (.array b))
    (oldAnswer s p (leNat (memRead s.work.mem b (atomicWidth p.opcode.toNat)))) x).kept
  rw [hmem, perform_atomic (by exact h1) (by exact h2), linesCounted_array rfl, hx, hanswer, hl, hwork, hregs, hxm, hxl, hxr]
  exact ⟨operandReplaced_memWrite hwf p b, ⟨x, rfl⟩, hul, hur⟩

end

/-! ### The statement -/

/-- Settles O18: every row is one memory request; its refusals, its two places and the values of Table 11-6 are the lemmas above. -/
theorem atomicsReplaceOneOperand : Obligations.AtomicsReplaceOneOperand := by
  unfold Obligations.AtomicsReplaceOneOperand
  refine ⟨fun e he s p b hop => ?_, fun old x y => ⟨rfl, rfl, rfl, rfl, rfl, rfl⟩, by decide⟩
  have hat := isAtomic_of_mem he hop
  have hexec := exec_fabricAtomic he hop s
  obtain ⟨-, h2⟩ := opcode_of_isAtomic hat
  refine ⟨hexec, fun hd ha => ?_, fun st hd ha hc => ?_, fun hs ha hok hbad hwf => ?_, fun hs ha hok hbad hwf => ?_⟩
  · rw [hexec, memRequest_refused hd (absurd · h2) (checkRequest_misaligned hat ha s)]
  · rw [hexec, memRequest_refused hd (absurd · h2) ((checkRequest_aligned hat ha s).trans hc)]
  · obtain ⟨⟨hread, hout⟩, hrest⟩ := atomic_larder hat ha hs hok hbad hwf
    exact ⟨_, hexec, hread, hout, hrest⟩
  · obtain ⟨⟨hread, hout⟩, hrest⟩ := atomic_array hat ha hs hok hbad hwf
    exact ⟨_, hexec, hread, hout, hrest⟩

end Machine
end Sys2Proof
end

section
/-!
PROOF. Answers to the part's own items (R168, R173, R176, R178, R549, R555, R592 to R597, R747, R748): threads and items, what each
answer does, and the statement of AnswersEndThreadItems.
-/
namespace Sys2Proof
namespace Machine

/-! ### The table of threads -/

theorem thrKey_injective : Function.Injective thrKey := by
  intro ⟨⟨a, ha⟩, ⟨b, hb⟩⟩ ⟨⟨c, hc⟩, ⟨d, hd⟩⟩ h
  simp only [thrKey] at h
  simp only [Thr.mk.injEq, Fin.mk.injEq]
  omega

theorem thr_setThr_ne {x y : Thr} (h : y ≠ x) (v s) : thr (setThr x v s) y = thr s y :=
  tblGet_tblSet_ne _ _ _ _ _ (thrKey_injective.ne h)

/-- A thread that a run occupies is listed as it was set. -/
theorem thr_setThr_self (x : Thr) {v : Thread} (h : v.active = true) (s) : thr (setThr x v s) x = v :=
  tblGet_tblSet_of_ne _ _ _ _ fun hd => by rw [hd] at h; cases h

/-- What a table holds beside its default is listed in it. -/
theorem mem_of_tblGet_ne {α : Type} {d : α} {k : Nat} : ∀ {t : Tbl α}, tblGet d t k ≠ d → (k, tblGet d t k) ∈ t
  | [], h => (h rfl).elim
  | (i, v) :: t, h => by
    unfold tblGet at h ⊢
    split
    next hi => exact hi ▸ List.mem_cons_self ..
    next hi => exact List.mem_cons_of_mem _ (mem_of_tblGet_ne (by rwa [if_neg hi] at h))

theorem mem_runThreads {s : State} {x : Thr} (h : (thr s x).active = true) :
    (thrOfKey (thrKey x), thr s x) ∈ runThreads s (thr s x).kernel (thr s x).run := by
  have hne : thr s x ≠ {} := fun hd => by rw [hd] at h; cases h
  exact List.mem_map.mpr ⟨_, List.mem_filter.mpr ⟨mem_of_tblGet_ne hne, by simp [thr] at h ⊢; exact h⟩, rfl⟩

/-! ### A run that goes on -/

/-- The thread has not ended, and its run has not faulted. -/
def RunGoesOn (s : State) (x : Thr) : Prop := (thr s x).active = true ∧ (thr s x).ended = false
  ∧ ∃ r, workRun s (thr s x).kernel (thr s x).run = some r ∧ r.status = stOk

/-- A run does not settle while a thread of it goes on (R554). -/
theorem settleRun_goesOn {s : State} {x : Thr} (h : RunGoesOn s x) : settleRun (thr s x).kernel (thr s x).run s = s := by
  obtain ⟨hact, hend, r, hr, hst⟩ := h
  have hall : (runThreads s (thr s x).kernel (thr s x).run).all (fun e => e.2.ended) = false :=
    List.all_eq_false.mpr ⟨_, mem_runThreads hact, by simp [hend]⟩
  simp [settleRun, hr, hst, hall]

/-- The thread as another, of the same run, that has not ended either. -/
def SameRun (h v : Thread) : Prop := v.active = h.active ∧ v.ended = h.ended ∧ v.kernel = h.kernel ∧ v.run = h.run

/-- Only the core and the items differ: what an answer changes beside its thread. -/
def CoreItems (s u : State) : Prop := ∃ c i, u = { s with core := c, items := i }

theorem takeDelivered_coreItems (p s) : CoreItems s (takeDelivered p s) := by
  obtain ⟨c, h⟩ := takeDelivered_core p s
  exact ⟨c, s.items, h⟩

theorem CoreItems.dropOwn {s u : State} (h : CoreItems s u) (tag) : CoreItems s (Machine.dropOwn tag u) := by
  obtain ⟨c, i, rfl⟩ := h
  exact ⟨c, _, rfl⟩

theorem CoreItems.thr_eq {s u : State} (h : CoreItems s u) (x) : thr u x = thr s x := by
  obtain ⟨c, i, rfl⟩ := h
  rfl

theorem thr_setThr_goesOn {s : State} {x : Thr} {v : Thread} (hgo : RunGoesOn s x) (hv : SameRun (thr s x) v) (u) :
    thr (setThr x v u) x = v := by
  obtain ⟨hact, -, -⟩ := hgo
  obtain ⟨hva, -, -, -⟩ := hv
  exact thr_setThr_self x (hva.trans hact) u

section
variable {s u : State} {x : Thr} {v : Thread} (hgo : RunGoesOn s x) (hu : CoreItems s u) (hv : SameRun (thr s x) v)
include hgo hu hv

/-- A run that goes on still does once its thread is `v`. -/
theorem settleRun_setThr : settleRun v.kernel v.run (setThr x v u) = setThr x v u := by
  have hself := thr_setThr_goesOn hgo hv u
  obtain ⟨c, i, rfl⟩ := hu
  obtain ⟨hact, hend, r, hr, hst⟩ := hgo
  obtain ⟨hva, hve, hvk, hvr⟩ := hv
  have hon : RunGoesOn (setThr x v { s with core := c, items := i }) x := by
    rw [RunGoesOn, hself, hvk, hvr]
    exact ⟨hva.trans hact, hve.trans hend, r, hr, hst⟩
  have hsettle := settleRun_goesOn hon
  rwa [hself] at hsettle

theorem itemEnded_setThr {tag : BitVec 16} (hown : ownOf u tag = none) : ItemEnded s tag x v (setThr x v u) := by
  have hself := thr_setThr_goesOn hgo hv u
  obtain ⟨c, i, rfl⟩ := hu
  exact ⟨hown, hself, fun y hy => thr_setThr_ne hy v _, rfl⟩

end

/-! ### Items (R168, R173) -/

theorem tag_of_ownOf {s : State} {tag : BitVec 16} {o : Own} (h : ownOf s tag = some o) : o.tag = tag := by
  simpa using List.find?_some h

theorem ownOf_dropOwn {tag e : BitVec 16} (h : e = tag) (s) : ownOf (dropOwn e s) tag = none := by
  simp [ownOf, dropOwn, h]

theorem ownOf_takeDelivered (p s tag) : ownOf (takeDelivered p s) tag = ownOf s tag := by
  obtain ⟨c, h⟩ := takeDelivered_core p s
  rw [h]
  rfl

theorem echoPace_quiet {p : Packet} (h : p.ecnEcho = false) (o s) : echoPace o p s = s := if_neg (by rw [h]; simp)

/-! ### Whose item an answer ends (R168) -/

section
variable {s : State} {p : Packet} {op : BitVec 8}

theorem withAnswer_other (h : p.opcode ≠ op) (body) : withAnswer p op s body = s := if_pos h

theorem takeAnswer_found {o : Own} (ho : ownOf s p.tag = some o) (hd : o.dst = p.src ∨ p.opcode = 0x8F) :
    takeAnswer p s = (some o, takeDelivered p s) := by
  unfold takeAnswer
  simp only [ownOf_takeDelivered, ho]
  exact if_pos (by simpa using hd)

theorem takeAnswer_stray (h : ∀ o, ownOf s p.tag = some o → o.dst ≠ p.src ∧ p.opcode ≠ 0x8F) :
    takeAnswer p s = (none, { takeDelivered p s with items.stray := s.items.stray + 1 }) := by
  obtain ⟨c, hc⟩ := takeDelivered_core p s
  unfold takeAnswer
  simp only [ownOf_takeDelivered]
  rw [hc]
  cases ho : ownOf s p.tag with
  | none => rfl
  | some o => exact if_neg (by simpa using h o ho)

theorem withAnswer_ends {o : Own} (hop : p.opcode = op) (ho : ownOf s p.tag = some o) (hd : o.dst = p.src ∨ p.opcode = 0x8F)
    (ha : answers op o.opcode = true) (body) : withAnswer p op s body = body o (echoPace o p (takeDelivered p s)) := by
  refine (if_neg (not_not_intro hop)).trans ?_
  rw [takeAnswer_found ho hd]
  exact if_pos ha

/-- An answer that names no open item is counted and discarded. -/
theorem withAnswer_stray (hop : p.opcode = op) (h : ∀ o, ownOf s p.tag = some o → o.dst ≠ p.src ∧ p.opcode ≠ 0x8F) (body) :
    withAnswer p op s body = { takeDelivered p s with items.stray := s.items.stray + 1 } := by
  refine (if_neg (not_not_intro hop)).trans ?_
  rw [takeAnswer_stray h]

end

/-! ### What an answer brings a thread (R541, R555, R592, R594, R597) -/

/-- The thread with the value that its access asked for. -/
def withValue (acc : ThreadAcc) (bs : List Byte) (h : Thread) : Thread :=
  match acc with
  | .store | .launch _ => h
  | .load r n sgn => h.putS r (loadValue n sgn bs)
  | .vload r c skip m => h.putLanes r m (loadLane c skip bs)
  | .atomic r pair => h.putOld pair r (leNat bs)

theorem withValue_sameRun (acc bs h rs) : SameRun h (withValue acc bs (unbusy h rs)) := by
  cases acc with
  | store => exact ⟨rfl, rfl, rfl, rfl⟩
  | load r n sgn => exact ⟨rfl, rfl, rfl, rfl⟩
  | vload r c skip m => exact ⟨rfl, rfl, rfl, rfl⟩
  | launch r => exact ⟨rfl, rfl, rfl, rfl⟩
  | atomic r pair => cases pair <;> exact ⟨rfl, rfl, rfl, rfl⟩

theorem unbusy_nil (h : Thread) : unbusy h [] = h := by
  simp [unbusy]

/-- The thread that launched goes on, with the answer's word in the register that it names (R597). -/
def released (h : Thread) (r : Nat) (w : Word) : Thread := { h with waitAck := false }.putS r w

theorem released_sameRun (h r w) : SameRun h (released h r w) := ⟨rfl, rfl, rfl, rfl⟩

section
variable {s u : State} {x : Thr} (hgo : RunGoesOn s x) (hu : CoreItems s u)
include hgo hu

/-- While the run goes on, an answer's value reaches the thread. -/
theorem threadGot_goesOn (acc bs) : threadGot x acc bs u = setThr x (withValue acc bs (unbusy (thr s x) (accRegs acc))) u := by
  have hv := withValue_sameRun acc bs (thr s x) (accRegs acc)
  refine Eq.trans ?_ (settleRun_setThr hgo hu hv)
  obtain ⟨-, -, hk, hn⟩ := hv
  obtain ⟨-, -, r, hr, hst⟩ := hgo
  obtain ⟨c, i, rfl⟩ := hu
  have hlive : workRun { s with core := c, items := i } (unbusy (thr s x) (accRegs acc)).kernel (unbusy (thr s x) (accRegs acc)).run
    = some r := hr
  unfold threadGot
  rw [hk, hn, CoreItems.thr_eq ⟨c, i, rfl⟩]
  simp only [hlive, hst, decide_true, if_true]
  cases acc <;> rfl

theorem threadLaunched_goesOn (r : Nat) (st : BitVec 8) (run : BitVec 32) : threadLaunched x r st run u =
    setThr x (released (thr s x) r (BitVec.ofNat 64 (st.toNat + (if st = stOk then run.toNat <<< 32 else 0)))) u := by
  have hlaunched := settleRun_setThr hgo hu (released_sameRun (thr s x) r
    (BitVec.ofNat 64 (st.toNat + (if st = stOk then run.toNat <<< 32 else 0))))
  rw [← hu.thr_eq x] at hlaunched ⊢
  exact hlaunched

/-- The item of a thread ends with its answer, and the thread has its value. -/
theorem itemEnded_endOwn {o : Own} {acc : ThreadAcc} (huse : o.use = .thread x acc) (bs e) :
    ItemEnded s o.tag x (withValue acc bs (unbusy (thr s x) (accRegs acc))) (endOwn o stOk bs e u) := by
  have hend : endOwn o stOk bs e u = threadGot x acc bs (dropOwn o.tag u) := by
    unfold endOwn
    rw [huse]
    rfl
  rw [hend, threadGot_goesOn hgo (hu.dropOwn o.tag)]
  exact itemEnded_setThr hgo (hu.dropOwn o.tag) (withValue_sameRun ..) (ownOf_dropOwn rfl _)

end

theorem endOwn_thread_failed {o : Own} {x : Thr} {acc : ThreadAcc} {st : BitVec 8} (huse : o.use = .thread x acc) (hst : st ≠ stOk)
    (bs e s) : endOwn o st bs e s = threadFailed x acc st o.addr (dropOwn o.tag s) := by
  unfold endOwn
  rw [huse]
  exact if_neg (mt of_decide_eq_true hst)

/-- A LAUNCH that fails releases its thread with the status alone (R597). -/
theorem endOwn_launch_failed {s u : State} {o : Own} {x : Thr} {r : Nat} {st : BitVec 8} (hgo : RunGoesOn s x)
    (hu : CoreItems s u) (huse : o.use = .thread x (.launch r)) (hst : st ≠ stOk) (bs e) :
    endOwn o st bs e u
      = setThr x (released (thr s x) r (BitVec.ofNat 64 st.toNat)) (dropOwn o.tag u) := by
  refine (endOwn_thread_failed huse hst bs e u).trans ((threadLaunched_goesOn hgo (hu.dropOwn o.tag) r st 0).trans ?_)
  rw [if_neg hst, Nat.add_zero]

theorem endOwn_access_failed {o : Own} {x : Thr} {acc : ThreadAcc} {st : BitVec 8} (huse : o.use = .thread x acc) (hst : st ≠ stOk)
    (hacc : ∀ r, acc ≠ .launch r) (bs e s) : endOwn o st bs e s =
      faultWith x 0x05 st o.addr.toNat (modThr x (fun h => unbusy h (accRegs acc)) (dropOwn o.tag s)) := by
  rw [endOwn_thread_failed huse hst]
  cases acc with
  | launch r => exact absurd rfl (hacc r)
  | store => rfl
  | load r n sgn => rfl
  | vload r c skip m => rfl
  | atomic r pair => rfl

theorem legalStatus_ne_ok {st : BitVec 8} (h : st ≠ stOk) : legalStatus st ≠ stOk := by
  unfold legalStatus
  split
  · exact h
  · decide

/-! ### The answers' rows -/

section
variable {s : State} {p : Packet} {o : Own} (ho : ownOf s p.tag = some o)
include ho

theorem exec_wrAck (hop : p.opcode = 0x82) (hd : o.dst = p.src) (hreq : o.opcode = 0x02) :
    exec (.wrAck p) s = .next (endOwn o stOk [] p.ecnEcho (echoPace o p (takeDelivered p s))) :=
  congrArg Host.Outcome.next (withAnswer_ends hop ho (.inl hd) (by rw [hreq]; rfl) _)

theorem exec_atData (hop : p.opcode = 0x88) (hd : o.dst = p.src) (hlo : 0x08 ≤ o.opcode.toNat) (hhi : o.opcode.toNat ≤ 0x0D) :
    exec (.atData p) s = .next (endOwn o stOk p.payload p.ecnEcho (echoPace o p (takeDelivered p s))) :=
  congrArg Host.Outcome.next (withAnswer_ends hop ho (.inl hd) (by simp [answers, hlo, hhi]) _)

theorem exec_failPkt (hop : p.opcode = 0x8F) (hone : p.itemLen ≠ 0xFFFFFFFF) :
    exec (.failPkt p) s = .next (endOwn o (legalStatus p.status) [] p.ecnEcho (echoPace o p (takeDelivered p s))) :=
  congrArg Host.Outcome.next ((if_neg (by simpa using fun _ => hone)).trans (withAnswer_ends hop ho (.inr hop) rfl _))

theorem exec_launchAck {x : Thr} {r : Nat} (hop : p.opcode = 0x90) (hd : o.dst = p.src) (hreq : o.opcode = 0x10)
    (huse : o.use = .thread x (.launch r)) : exec (.launchAck p) s =
      .next (threadLaunched x r stOk (p.addr.setWidth 32) (dropOwn o.tag (echoPace o p (takeDelivered p s)))) := by
  refine congrArg Host.Outcome.next ((withAnswer_ends hop ho (.inl hd) (by rw [hreq]; rfl) _).trans ?_)
  simp only [huse]

theorem exec_rdData (hop : p.opcode = 0x81) (hd : o.dst = p.src) (hreq : o.opcode = 0x01) :
    let r := countRead o p (echoPace o p (takeDelivered p s))
    exec (.rdData p) s = .next (if r.1 then endOwn r.2.1 stOk (ownBytes r.2.1) p.ecnEcho r.2.2 else r.2.2) :=
  congrArg Host.Outcome.next (withAnswer_ends hop ho (.inl hd) (by rw [hreq]; rfl) _)

end

/-! ### RD_DATA (R65, R173) -/

theorem ownOf_countRead {s : State} {p : Packet} {o : Own} (ho : ownOf s p.tag = some o) :
    ownOf (countRead o p s).2.2 p.tag = some (countRead o p s).2.1 := by
  have hpred : (fun x : Own => decide (x.tag = p.tag)) ∘ (fun x => if x.tag = o.tag then (countRead o p s).2.1 else x)
      = fun x => decide (x.tag = p.tag) := by
    funext x
    by_cases hx : x.tag = o.tag
    · simp [hx, countRead]
    · simp [hx]
  change (s.items.own.map (fun x => if x.tag = o.tag then (countRead o p s).2.1 else x)).find? _ = _
  rw [List.find?_map, hpred, show s.items.own.find? _ = some o from ho]
  exact congrArg some (if_pos rfl)

/-- The bytes of a read item that one RD_DATA brings whole. -/
theorem ownBytes_countRead {p : Packet} {o : Own} (h0 : o.data = []) (ha : p.addr = o.addr) (hlen : o.len = p.payload.length) (s) :
    ownBytes (countRead o p s).2.1 = p.payload := by
  simp only [ownBytes, countRead, h0, ha, hlen, Nat.sub_self]
  exact memRead_memWrite p.payload [] 0 rfl

/-! ### The response time-out (R176, R178) -/

/-- The tag rests from this tick on, and tags that have rested long enough rest no more. -/
def tagRested (tag : BitVec 16) (s : State) : State := { s with
  items.quarantine := s.items.quarantine.filter (fun q => q.1 ≠ tag && decide (ageOf s q.2 < ageLimit s + 8)) ++ [(tag, s.tick.elapsed)] }

theorem responseTimeout_due {s : State} {tag : BitVec 16} {o : Own} (ho : ownOf s tag = some o) (h : respTimeout s ≤ ageOf s o.sent) :
    exec (.responseTimeout tag) s = .next (endOwn o stTimeout [] false (tagRested tag s)) := by
  change Host.Outcome.next (match ownOf s tag with | some o => _ | none => _) = _
  rw [ho]
  exact congrArg Host.Outcome.next (if_pos h)

theorem responseTimeout_waits {s : State} {tag : BitVec 16} (h : ∀ o, ownOf s tag = some o → ageOf s o.sent < respTimeout s) :
    NoEffect (.responseTimeout tag) s := by
  change Host.Outcome.next (match ownOf s tag with | some o => _ | none => _) = _
  cases ho : ownOf s tag with
  | none => rfl
  | some o => exact congrArg Host.Outcome.next (if_neg (Nat.not_le.mpr (h o ho)))

/-! ### The sweep (R747, R748) -/

theorem exec_sweep {p : Packet} (hop : p.opcode = 0x8F) (hall : p.itemLen = 0xFFFFFFFF) (s) : exec (.failPkt p) s =
    .next ((s.items.own.filter (fun o => bit p.tag 13 || (!bit p.tag 12 && o.dst = BitVec.ofNat 12 (fld p.tag 0 12)))).foldl
      (fun u o => endOwn o stNodeLost [] false u) (takeDelivered p s)) := by
  obtain ⟨c, hc⟩ := takeDelivered_core p s
  refine congrArg Host.Outcome.next ((if_pos (by simp [hop, hall])).trans ?_)
  rw [sweepOwn, hc]

/-! ### Rows that have no effect, and answers that name no item (R168) -/

/-- The rows of the answers and their opcodes (Table 5-6). -/
def answerRows (p : Packet) : List (Instr × BitVec 8) := [(.rdData p, 0x81), (.wrAck p, 0x82), (.atData p, 0x88), (.launchAck p, 0x90)]

theorem exec_answerRow {p : Packet} {c : Instr} {op : BitVec 8} (hc : (c, op) ∈ answerRows p) (s) :
    ∃ body, exec c s = .next (withAnswer p op s body) := by
  simp only [answerRows, List.mem_cons, List.not_mem_nil, or_false, Prod.mk.injEq] at hc
  rcases hc with ⟨rfl, rfl⟩ | ⟨rfl, rfl⟩ | ⟨rfl, rfl⟩ | ⟨rfl, rfl⟩ <;> exact ⟨_, rfl⟩

theorem answer_stray {s : State} {p : Packet} {c : Instr} {op : BitVec 8} (hc : (c, op) ∈ answerRows p) (hop : p.opcode = op)
    (h : ∀ o, ownOf s p.tag = some o → o.dst ≠ p.src) :
    exec c s = .next { takeDelivered p s with items.stray := s.items.stray + 1 } := by
  have hfail : p.opcode ≠ 0x8F := by
    have hall : ∀ e ∈ answerRows p, e.2 ≠ 0x8F := by simp [answerRows]
    exact hop ▸ hall _ hc
  obtain ⟨body, hexec⟩ := exec_answerRow hc s
  exact hexec.trans (congrArg Host.Outcome.next (withAnswer_stray hop (fun o ho => ⟨h o ho, hfail⟩) body))

theorem failPkt_stray {s : State} {p : Packet} (hop : p.opcode = 0x8F) (hone : p.itemLen ≠ 0xFFFFFFFF) (h : ownOf s p.tag = none) :
    exec (.failPkt p) s = .next { takeDelivered p s with items.stray := s.items.stray + 1 } :=
  congrArg Host.Outcome.next ((if_neg (by simpa using fun _ => hone)).trans
    (withAnswer_stray hop (fun o ho => by rw [h] at ho; cases ho) _))

theorem answer_other {s : State} {p : Packet} {c : Instr} {op : BitVec 8} (hc : (c, op) ∈ answerRows p ++ [(.failPkt p, 0x8F)])
    (hop : p.opcode ≠ op) : NoEffect c s := by
  rcases List.mem_append.mp hc with hc | hc
  · obtain ⟨body, hexec⟩ := exec_answerRow hc s
    exact hexec.trans (congrArg Host.Outcome.next (withAnswer_other hop body))
  · obtain ⟨rfl, rfl⟩ := Prod.mk.inj (List.mem_singleton.mp hc)
    exact congrArg Host.Outcome.next ((if_neg fun h => hop (of_decide_eq_true (Bool.and_eq_true_iff.mp h).1)).trans
      (withAnswer_other hop _))

/-! ### What ends a thread's item -/

theorem AnswersThread.parts {s : State} {p : Packet} {o : Own} {x : Thr} {acc : ThreadAcc} (h : AnswersThread s p o x acc) :
    ownOf s p.tag = some o ∧ o.dst = p.src ∧ o.use = .thread x acc ∧ p.ecnEcho = false ∧ o.tag = p.tag ∧ RunGoesOn s x := by
  obtain ⟨ho, hd, huse, hecho, hact, hend, hrun⟩ := h
  exact ⟨ho, hd, huse, hecho, tag_of_ownOf ho, hact, hend, hrun⟩

section
variable {s : State} {p : Packet} {o : Own} {x : Thr}

theorem rdData_load {r n : Nat} {sgn : Bool} (hop : p.opcode = 0x81) (h : AnswersThread s p o x (.load r n sgn)) (hreq : o.opcode = 0x01)
    (hgot : o.got = 0) (hdata : o.data = []) (haddr : p.addr = o.addr) (hpay : p.payLen.toNat = p.payload.length)
    (hlen : o.len = p.payload.length) : Completes (.rdData p) s (ItemEnded s p.tag x
      ((unbusy (thr s x) [.s r]).putS r (loadValue n sgn p.payload))) := by
  obtain ⟨ho, hd, huse, hecho, htag, hgo⟩ := h.parts
  have hexec := exec_rdData ho hop hd hreq
  rw [echoPace_quiet hecho] at hexec
  refine ⟨_, hexec.trans (congrArg Host.Outcome.next (if_pos ?_)), ?_⟩
  · simp [countRead, hgot, hpay, hlen]
  · have hu : CoreItems s (countRead o p (takeDelivered p s)).2.2 := by
      obtain ⟨c, hc⟩ := takeDelivered_core p s
      exact ⟨c, _, by rw [hc]; rfl⟩
    rw [ownBytes_countRead hdata haddr hlen, ← htag]
    exact itemEnded_endOwn hgo hu (acc := .load r n sgn) huse _ _

theorem rdData_part (hop : p.opcode = 0x81) (ho : ownOf s p.tag = some o) (hd : o.dst = p.src) (hreq : o.opcode = 0x01)
    (hecho : p.ecnEcho = false) (hlen : o.got + p.payLen.toNat < o.len) : Completes (.rdData p) s fun t =>
      ownOf t p.tag = some { o with
        got := o.got + p.payLen.toNat, data := memWrite o.data (p.addr.toNat - o.addr.toNat) p.payload }
      ∧ t = { s with core := t.core, items := t.items } := by
  have hexec := exec_rdData ho hop hd hreq
  rw [echoPace_quiet hecho] at hexec
  have hpart : (countRead o p (takeDelivered p s)).1 = false := decide_eq_false (Nat.ne_of_lt hlen)
  refine ⟨_, hexec.trans (congrArg Host.Outcome.next (if_neg (ne_true_of_eq_false hpart))),
    ownOf_countRead ((ownOf_takeDelivered p s p.tag).trans ho), ?_⟩
  obtain ⟨c, hc⟩ := takeDelivered_core p s
  rw [hc]
  rfl

theorem launchAck_launch {r : Nat} (hop : p.opcode = 0x90) (h : AnswersThread s p o x (.launch r)) (hreq : o.opcode = 0x10) :
    Completes (.launchAck p) s (ItemEnded s p.tag x ({ thr s x with waitAck := false }.putS r
      (BitVec.ofNat 64 ((p.addr.setWidth 32).toNat <<< 32)))) := by
  obtain ⟨ho, hd, huse, hecho, htag, hgo⟩ := h.parts
  have hexec := exec_launchAck ho hop hd hreq huse
  have hu := (takeDelivered_coreItems p s).dropOwn o.tag
  have hword : stOk.toNat + (if stOk = stOk then (p.addr.setWidth 32).toNat <<< 32 else 0) = (p.addr.setWidth 32).toNat <<< 32 := by
    rw [if_pos rfl]
    exact Nat.zero_add _
  rw [echoPace_quiet hecho, threadLaunched_goesOn hgo hu, hword] at hexec
  exact ⟨_, hexec, itemEnded_setThr hgo hu (released_sameRun ..) (ownOf_dropOwn htag _)⟩

theorem failPkt_launch {r : Nat} (hop : p.opcode = 0x8F) (hone : p.itemLen ≠ 0xFFFFFFFF)
    (h : AnswersThread s { p with src := o.dst } o x (.launch r)) (hst : p.status ≠ stOk) :
    Completes (.failPkt p) s (ItemEnded s p.tag x ({ thr s x with waitAck := false }.putS r
      (BitVec.ofNat 64 (legalStatus p.status).toNat))) := by
  obtain ⟨ho, -, huse, hecho, htag, hgo⟩ := h.parts
  have hexec := exec_failPkt (p := p) ho hop hone
  have hu := takeDelivered_coreItems p s
  rw [echoPace_quiet (p := p) hecho, endOwn_launch_failed hgo hu huse (legalStatus_ne_ok hst)] at hexec
  exact ⟨_, hexec, itemEnded_setThr hgo (hu.dropOwn o.tag) (released_sameRun ..) (ownOf_dropOwn htag _)⟩

theorem responseTimeout_launch {r : Nat} (h : AnswersThread s p o x (.launch r)) (hdue : respTimeout s ≤ ageOf s o.sent) :
    Completes (.responseTimeout p.tag) s fun t =>
      ItemEnded s p.tag x ({ thr s x with waitAck := false }.putS r (BitVec.ofNat 64 stTimeout.toNat)) t
      ∧ (p.tag, s.tick.elapsed) ∈ t.items.quarantine := by
  obtain ⟨ho, -, huse, -, htag, hgo⟩ := h.parts
  have hexec := responseTimeout_due ho hdue
  have hu : CoreItems s (tagRested p.tag s) := ⟨s.core, _, rfl⟩
  rw [endOwn_launch_failed hgo hu huse (by decide)] at hexec
  exact ⟨_, hexec, itemEnded_setThr hgo (hu.dropOwn o.tag) (released_sameRun ..) (ownOf_dropOwn htag _),
    List.mem_append_right _ (List.mem_singleton_self _)⟩

end

/-! ### The statement -/

/-- Settles O55: each clause is the lemma of an answer, of the sweep or of the time-out. -/
theorem answersEndThreadItems : Obligations.AnswersEndThreadItems := by
  unfold Obligations.AnswersEndThreadItems
  refine ⟨?_, ?_, ?_, ?_, ?_, ?_, ?_, ?_, ?_, ?_, ?_, ?_, ?_, ?_, ?_, ?_, ?_⟩
  · exact fun s p o x r n sgn hop h hreq hgot hdata haddr hpay hlen => rdData_load hop h hreq hgot hdata haddr hpay hlen
  · exact fun s p o hop ho hd hreq hecho hlen => rdData_part hop ho hd hreq hecho hlen
  · intro s p o x hop h hreq
    obtain ⟨ho, hd, huse, hecho, htag, hgo⟩ := h.parts
    have hended := itemEnded_endOwn hgo (takeDelivered_coreItems p s) huse [] p.ecnEcho
    rw [htag] at hended
    have hexec := exec_wrAck ho hop hd hreq
    rw [echoPace_quiet hecho] at hexec
    rw [show withValue .store [] (unbusy (thr s x) (accRegs .store)) = thr s x from unbusy_nil _] at hended
    exact ⟨_, hexec, hended⟩
  · intro s p o x r pair hop h hlo hhi
    obtain ⟨ho, hd, huse, hecho, htag, hgo⟩ := h.parts
    have hended := itemEnded_endOwn hgo (takeDelivered_coreItems p s) huse p.payload p.ecnEcho
    rw [htag] at hended
    have hexec := exec_atData ho hop hd hlo hhi
    rw [echoPace_quiet hecho] at hexec
    exact ⟨_, hexec, hended⟩
  · exact fun s p o x r hop h hreq => launchAck_launch hop h hreq
  · exact fun s p o x r hop hone h hst => failPkt_launch hop hone h hst
  · rintro s p o c op st bs ho (⟨rfl, rfl, hd, hreq, rfl, rfl⟩ | ⟨rfl, rfl, hd, hlo, hhi, rfl, rfl⟩ | ⟨rfl, rfl, hone, rfl, rfl⟩) hop
    · exact exec_wrAck ho hop hd hreq
    · exact exec_atData ho hop hd hlo hhi
    · exact exec_failPkt ho hop hone
  · exact fun s p o hop ho hd hreq hlen => (exec_rdData ho hop hd hreq).trans
      (congrArg Host.Outcome.next (if_pos (decide_eq_true hlen)))
  · exact fun s p c op hc hop h => answer_stray hc hop h
  · exact fun s p hop hone h => failPkt_stray hop hone h
  · exact fun s p hop hall => exec_sweep hop hall s
  · exact fun s p c op hc hop => answer_other hc hop
  · exact fun s o x acc st huse hst hacc bs e => endOwn_access_failed huse hst hacc bs e s
  · exact fun s o p => ⟨fun h => echoPace_quiet h o s, fun h hlo hne => if_pos (by simp [h, hlo, hne])⟩
  · exact fun s p o x r h hdue => responseTimeout_launch h hdue
  · exact fun s tag o ho hdue => responseTimeout_due ho hdue
  · exact fun s tag h => responseTimeout_waits h

end Machine
end Sys2Proof
end

section
/-!
PROOF. The laws of links, their partitions and their lanes: what is read after each update, and what a mask holds.
-/
namespace Sys2Proof
namespace Machine

/-! ### Tables -/

section
variable {α : Type}

theorem tblInsert_tblInsert (k : Nat) (v w : α) : ∀ t : Tbl α, tblInsert (tblInsert t k v) k w = tblInsert t k w
  | [] => by simp [tblInsert]
  | (i, x) :: t => by
    rcases lt_trichotomy i k with h | h | h
    · have hne : i ≠ k := h.ne
      have hlt : ¬ k < i := h.not_gt
      simp [tblInsert, hne, hlt, tblInsert_tblInsert k v w t]
    · simp [tblInsert, h]
    · have hne : i ≠ k := h.ne'
      simp [tblInsert, hne, h]

theorem tblErase_tblInsert (k : Nat) (v : α) : ∀ t : Tbl α, tblErase (tblInsert t k v) k = tblErase t k
  | [] => by simp [tblInsert, tblErase]
  | (i, x) :: t => by
    rcases lt_trichotomy i k with h | h | h
    · have hne : i ≠ k := h.ne
      have hlt : ¬ k < i := h.not_gt
      simp [tblInsert, tblErase, hne, hlt, tblErase_tblInsert k v t]
    · simp [tblInsert, tblErase, h]
    · have hne : i ≠ k := h.ne'
      simp [tblInsert, tblErase, hne, h]

variable [DecidableEq α] {d : α}

/-- Of two writes to one key the second stands, in any table, where the first wrote no default. -/
theorem tblSet_tblSet {v : α} (h : v ≠ d) (t : Tbl α) (k : Nat) (w : α) : tblSet d (tblSet d t k v) k w = tblSet d t k w := by
  by_cases hw : w = d
  · simp [tblSet, h, hw, tblErase_tblInsert]
  · simp [tblSet, h, hw, tblInsert_tblInsert]

/-- A write is read back from a table in canonical form, and from any table where it wrote no default. -/
theorem tblGet_tblSet_of {t : Tbl α} {v : α} (h : tblWf d t = true ∨ v ≠ d) (k : Nat) : tblGet d (tblSet d t k v) k = v :=
  h.elim (tblGet_tblSet_self d t k v) (tblGet_tblSet_of_ne d t k v)

theorem tblGet_tblMod_ne {t : Tbl α} {k j : Nat} (f : α → α) (h : j ≠ k) : tblGet d (tblMod d t k f) j = tblGet d t j :=
  tblGet_tblSet_ne d t k j _ h

theorem tblGet_tblMap {f : Nat → α → α} {k : Nat} (hd : f k d = d) :
    ∀ {t : Tbl α}, tblWf d t = true → tblGet d (tblMap d f t) k = f k (tblGet d t k)
  | [], _ => hd.symm
  | (i, v) :: t, hw => by
    have hw' := hw
    simp only [tblWf, Bool.and_eq_true, decide_eq_true_eq] at hw'
    obtain ⟨⟨-, habove⟩, ht⟩ := hw'
    have ih := tblGet_tblMap (f := f) (k := k) hd ht
    by_cases hik : i = k
    · subst hik
      by_cases hv : f i v = d
      · have hrest : tblGet d t i = d := tblGet_of_above d i t ht habove
        simp [tblMap, tblGet, hv, ih, hrest, hd]
      · simp [tblMap, tblGet, hv]
    · by_cases hv : f i v = d
      · simp [tblMap, tblGet, hv, hik, ih]
      · simp [tblMap, tblGet, hv, hik, ih]

variable {ι : Type} {key : ι → Nat} {f : ι → α → α}

/-- Changes at other keys leave a key as it was. -/
theorem tblGet_foldl_tblMod_ne {k : Nat} : ∀ {js : List ι} {t : Tbl α}, (∀ j ∈ js, key j ≠ k) →
    tblGet d (js.foldl (fun t j => tblMod d t (key j) (f j)) t) k = tblGet d t k
  | [], _, _ => rfl
  | j :: js, t, h => by
    rw [List.foldl_cons, tblGet_foldl_tblMod_ne fun i hi => h i (List.mem_cons_of_mem j hi)]
    exact tblGet_tblMod_ne _ (h j List.mem_cons_self).symm

/-- Of changes at distinct keys, each key meets its own. -/
theorem tblGet_foldl_tblMod (hkey : Function.Injective key) {i : ι} : ∀ {js : List ι} {t : Tbl α}, js.Nodup → i ∈ js →
    (tblWf d t = true ∨ f i (tblGet d t (key i)) ≠ d) →
    tblGet d (js.foldl (fun t j => tblMod d t (key j) (f j)) t) (key i) = f i (tblGet d t (key i))
  | j :: js, t, hnd, hi, h => by
    obtain ⟨hj, hnd⟩ := List.nodup_cons.mp hnd
    rw [List.foldl_cons]
    rcases List.mem_cons.mp hi with rfl | hi
    · rw [tblGet_foldl_tblMod_ne fun k hk => hkey.ne (ne_of_mem_of_not_mem hk hj)]
      exact tblGet_tblSet_of h _
    · have hsame := tblGet_tblMod_ne (d := d) (t := t) (f j) (hkey.ne (ne_of_mem_of_not_mem hi hj))
      rw [tblGet_foldl_tblMod hkey hnd hi (by rw [hsame]; exact h.imp_left (tblWf_tblMod d t _ _)), hsame]

end

/-! ### Lists of numbers -/

theorem upFrom_eq_range' (a : Nat) : ∀ n, upFrom a n = List.range' a n
  | 0 => rfl
  | n + 1 => by rw [upFrom, upFrom_eq_range' (a + 1) n, List.range'_succ]

theorem mem_upFrom {q n : Nat} : q ∈ upFrom 0 n ↔ q < n := by
  simp [upFrom_eq_range']

theorem nodup_upFrom (a n : Nat) : (upFrom a n).Nodup := by
  rw [upFrom_eq_range']
  exact List.nodup_range'

theorem getD_map_upFrom {β : Type} {n q : Nat} (h : q < n) (f : Nat → β) (b : β) : ((upFrom 0 n).map f).getD q b = f q := by
  simp [upFrom_eq_range', h]

/-! ### Numbers made of digits -/

/-- The digits from place `a` on, laid above a number that ends below them, are read back, and so is that number. -/
theorem digits_foldl {c w : Nat} {f : Nat → Nat} (hf : ∀ q, f q < 2 ^ w) : ∀ (n a m : Nat), m < 2 ^ (c + w * a) →
    let x := (upFrom a n).foldl (fun m q => m + f q * 2 ^ (c + w * q)) m
    x < 2 ^ (c + w * (a + n)) ∧ x % 2 ^ (c + w * a) = m
      ∧ ∀ q, a ≤ q → q < a + n → x / 2 ^ (c + w * q) % 2 ^ w = f q
  | 0, a, m, hm => ⟨hm, Nat.mod_eq_of_lt hm, fun q h h' => absurd h' (Nat.not_lt.mpr h)⟩
  | n + 1, a, m, hm => by
    have hpow : 2 ^ (c + w * (a + 1)) = 2 ^ (c + w * a) * 2 ^ w := by rw [← pow_add]; ring_nf
    have hnext : m + f a * 2 ^ (c + w * a) < 2 ^ (c + w * (a + 1)) := by
      rw [hpow]
      calc m + f a * 2 ^ (c + w * a) < 2 ^ (c + w * a) + f a * 2 ^ (c + w * a) := Nat.add_lt_add_right hm _
        _ = 2 ^ (c + w * a) * (f a + 1) := by ring
        _ ≤ 2 ^ (c + w * a) * 2 ^ w := Nat.mul_le_mul_left _ (hf a)
    obtain ⟨hlt, hlow, hdig⟩ := digits_foldl hf n (a + 1) _ hnext
    have hsum : a + 1 + n = a + (n + 1) := by omega
    rw [hsum] at hlt hdig
    intro x
    have hlow : x % 2 ^ (c + w * (a + 1)) = m + f a * 2 ^ (c + w * a) := hlow
    refine ⟨hlt, ?_, fun q hq hq' => ?_⟩
    · calc x % 2 ^ (c + w * a) = x % 2 ^ (c + w * (a + 1)) % 2 ^ (c + w * a) := by
            rw [hpow, Nat.mod_mul_right_mod]
        _ = m := by rw [hlow, Nat.add_mul_mod_self_right, Nat.mod_eq_of_lt hm]
    · rcases Nat.eq_or_lt_of_le hq with rfl | hlt'
      · calc x / 2 ^ (c + w * a) % 2 ^ w = x % 2 ^ (c + w * (a + 1)) / 2 ^ (c + w * a) := by
              rw [hpow, Nat.mod_mul_right_div_self]
          _ = f a := by
              rw [hlow, Nat.add_mul_div_right _ _ (by positivity), Nat.div_eq_of_lt hm, Nat.zero_add]
      · exact hdig q hlt' hq'

/-- A mask summed from the flags of its bits. -/
theorem bit_mask_foldl {n : Nat} (f : Nat → Bool) {q : Nat} (h : q < n) :
    bit (BitVec.ofNat n ((upFrom 0 n).foldl (fun m q => m + (f q).toNat * 2 ^ q) 0)) q = f q := by
  have hdig := (digits_foldl (c := 0) (w := 1) (f := fun q => (f q).toNat) (fun q => by cases f q <;> decide) n 0 0
    (by simp)).2.2 q (Nat.zero_le q) (by omega)
  simp only [Nat.zero_add, Nat.one_mul, pow_one] at hdig
  rw [bit, BitVec.getLsbD_ofNat, decide_eq_true h, Bool.true_and, Nat.testBit_eq_decide_div_mod_eq, hdig]
  cases f q <;> rfl

/-- The mask of the places that a filter keeps. -/
theorem foldl_filter_mask (p : Nat → Bool) (ks : List Nat) (m : Nat) :
    (ks.filter p).foldl (fun a q => a + 2 ^ q) m = ks.foldl (fun m q => m + (p q).toNat * 2 ^ q) m := by
  induction ks generalizing m with
  | nil => rfl
  | cons k ks ih => cases hk : p k <;> simp [hk, ih]

/-! ### Links -/

section
variable {s : State} {l : LinkId} {v : Link}

theorem Link.ne_default_of_up (h : v.up = true) : v ≠ {} := ne_of_apply_ne Link.up (by rw [h]; decide)

/-- A link written is read back, from any table where it is not the default. -/
theorem link_setLink_of (h : tblWf {} s.links = true ∨ v ≠ {}) : link (setLink s l v) l = v := tblGet_tblSet_of h _

theorem link_setLink_of_ne (h : v ≠ {}) : link (setLink s l v) l = v := link_setLink_of (.inr h)

theorem link_setLink_of_up (h : v.up = true) : link (setLink s l v) l = v := link_setLink_of_ne (Link.ne_default_of_up h)

/-- Of two writes to a link the second stands. -/
theorem setLink_setLink (h : v ≠ {}) (w : Link) : setLink (setLink s l v) l w = setLink s l w := by
  simp only [setLink, tblSet_tblSet h]

/-- A change of a link just written. -/
theorem modLink_setLink (h : v ≠ {}) (f : Link → Link) : modLink l f (setLink s l v) = setLink s l (f v) := by
  rw [modLink, link_setLink_of_ne h, setLink_setLink h]

end

/-! ### Partitions -/

theorem tblGet_foldl_parts {t : Tbl Part} (h : tblWf {} t = true) (f : Nat → Part → Part) (q : Fin 16) :
    tblGet {} ((upFrom 0 16).foldl (fun t q => tblMod {} t q (f q)) t) q.val = f q.val (tblGet {} t q.val) :=
  tblGet_foldl_tblMod Function.injective_id (nodup_upFrom 0 16) (mem_upFrom.mpr q.isLt) (.inl h)

theorem tblGet_mapParts {k : Link} (h : tblWf {} k.part = true) (f : Nat → Part → Part) (q : Fin 16) :
    tblGet {} (mapParts f k).part q.val = f q.val (tblGet {} k.part q.val) := tblGet_foldl_parts h f q

theorem bit_partMask (k : Link) (f : Part → Bool) (q : Fin 16) : bit (partMask k f) q.val = f (tblGet {} k.part q.val) :=
  bit_mask_foldl (fun q => f (tblGet {} k.part q)) q.isLt

section
variable {s : State} {l : LinkId} {q : Fin 16}

theorem part_setLink_of {v : Link} (h : tblWf {} s.links = true ∨ v ≠ {}) : part (setLink s l v) l q = tblGet {} v.part q.val := by
  rw [part, link_setLink_of h]

theorem part_modPart_same (hl : tblWf {} s.links = true) (hp : tblWf {} (link s l).part = true) (f : Part → Part) :
    part (modPart l q f s) l q = f (part s l q) := by
  rw [modPart, modLink, part_setLink_of (.inl hl)]
  exact tblGet_tblSet_self _ _ _ _ hp

end

/-! ### Lanes -/

theorem laneId_injective (l : LinkId) : Function.Injective fun j : Fin 4 => (laneId l j).val := by
  intro i j h
  simp only [laneId] at h
  omega

theorem linkOfLane_laneId (l : LinkId) (j : Fin 4) : linkOfLane (laneId l j) = l := by
  apply Fin.ext
  simp only [linkOfLane, laneId]
  omega

section
variable {s : State} {l : LinkId}

theorem lane_setLane_ne {n m : LaneId} (h : m ≠ n) (v : Lane) : lane (setLane s n v) m = lane s m :=
  tblGet_tblSet_ne _ _ _ _ _ (Fin.val_ne_of_ne h)

theorem modLanes_foldl (f : Fin 4 → Lane → Lane) : modLanes l f s
    = { s with lanes := (List.finRange 4).foldl (fun t j => tblMod {} t (laneId l j).val (f j)) s.lanes } := by
  unfold modLanes
  generalize List.finRange 4 = js
  induction js generalizing s with
  | nil => rfl
  | cons j js ih => exact ih

/-- A lane changed with all lanes of its link is read back, from any table where it is not the default. -/
theorem lane_modLanes {f : Fin 4 → Lane → Lane} {j : Fin 4} (h : tblWf {} s.lanes = true ∨ f j (lane s (laneId l j)) ≠ {}) :
    lane (modLanes l f s) (laneId l j) = f j (lane s (laneId l j)) := by
  rw [modLanes_foldl]
  exact tblGet_foldl_tblMod (laneId_injective l) (List.nodup_finRange 4) (List.mem_finRange j) h

end

end Machine
end Sys2Proof
end

section
/-!
PROOF. The Valiant phase of a packet in transit (R224, R284), the route generator (R281), and the statement of
ValiantPhaseAndGenerator.
-/
namespace Sys2Proof
namespace Machine

/-- A lookup that finds an output leaves the header as it was. -/
theorem hopFor_go {s : State} {p p' : Packet} {dest : BitVec 12} {det : Bool} {o : PortId} (h : hopFor s p dest det = .go o p') :
    p' = p := by
  unfold hopFor at h
  extract_lets e at h
  split at h
  · cases h
  · split at h
    · cases h
      rfl
    · split at h
      · cases h
        rfl
      · cases h

/-- In transit the phase becomes 1 at the via node of a packet that has not met it; every other header stays. -/
theorem hopTransit_go {s : State} {p p' : Packet} {o : PortId} (h : hopTransit p s = .go o p') :
    p' = { p with vphase := p.vphase || (decide (p.via ≠ 0) && decide (p.via = myNode s)) } := by
  have hkept : p.vphase = (p.vphase || (decide (p.via ≠ 0) && decide (p.via = myNode s))) →
      p = { p with vphase := p.vphase || (decide (p.via ≠ 0) && decide (p.via = myNode s)) } := fun h => by rw [← h]
  unfold hopTransit at h
  split at h
  next hvia =>
    simp only [Bool.and_eq_true, Bool.not_eq_true', decide_eq_true_eq] at hvia
    obtain ⟨hphase, hne⟩ := hvia
    split at h
    next hhere => rw [hopFor_go h, hphase, decide_eq_true hne, decide_eq_true hhere]; rfl
    next haway => rw [hopFor_go h]; exact hkept (by rw [decide_eq_false haway]; simp)
  next hdone =>
    rw [hopFor_go h]
    refine hkept ?_
    cases hp : p.vphase
    · have hvia : p.via = 0 := by simpa [hp] using hdone
      rw [hvia]
      rfl
    · rfl

/-- The partition of a packet is odd in its second phase (R215). -/
theorem partOf_mod (p : Packet) : (partOf p).val % 2 = p.vphase.toNat := by
  have h := Bool.toNat_le p.vphase
  simp only [partOf]
  omega

/-- The seed of a route generator is odd. -/
theorem lfsrSeed_ne_zero (node : BitVec 12) (i : PortId) : lfsrSeed node i ≠ 0 := by
  intro h
  have h := congrArg BitVec.toNat h
  simp only [lfsrSeed, BitVec.toNat_ofNat, BitVec.ofNat_eq_ofNat] at h
  omega

/-- A step of the generator shifts out a zero, or sets the top bit that the shift has cleared. -/
theorem lfsrStep_ne_zero {x : BitVec 16} (hx : x ≠ 0) : lfsrStep x ≠ 0 := by
  unfold lfsrStep
  split
  next =>
    intro h
    have htop := congrArg (BitVec.getLsbD · 15) h
    simp at htop
  next heven =>
    intro h
    have hlow : x.toNat % 2 ≠ 1 := by simpa [bit, BitVec.getLsbD, Nat.testBit_zero] using heven
    have hhigh := congrArg BitVec.toNat h
    simp only [BitVec.toNat_ushiftRight, Nat.shiftRight_eq_div_pow, BitVec.ofNat_eq_ofNat, BitVec.toNat_ofNat] at hhigh
    exact hx (BitVec.eq_of_toNat_eq (by simp only [BitVec.ofNat_eq_ofNat, BitVec.toNat_ofNat]; omega))

/-- Settles O12: the header after a hop in transit, and the seed and the step of the generator. -/
theorem valiantPhaseAndGenerator : Obligations.ValiantPhaseAndGenerator := by
  unfold Obligations.ValiantPhaseAndGenerator
  refine ⟨?_, lfsrSeed_ne_zero, fun x => lfsrStep_ne_zero⟩
  intro s p p' o h
  have hp := hopTransit_go h
  subst hp
  refine ⟨rfl, fun hphase => by simp [hphase], fun hphase => by simp [hphase, and_comm], fun hvia => by simp [hvia], rfl, ?_⟩
  rw [partOf_mod, partOf_mod]
  cases p.vphase
  · exact Nat.zero_le _
  · exact Nat.le_refl 1

end Machine
end Sys2Proof
end

section
/-!
PROOF. Credits (R204, R220 to R223, R228, R229), the frame that a link sends next (R194, R197 to R199, R202), and the statement of
CreditsConserved.
-/
namespace Sys2Proof
namespace Machine

/-! ### Credits of a partition -/

/-- The returns of a frame reach each partition's held and rcvd (R204). -/
theorem tblGet_applyRet {t : Tbl Part} (h : tblWf {} t = true) (rs : List (BitVec 5)) (q : Fin 16) :
    tblGet {} (applyRet rs t) q.val = { tblGet {} t q.val with
      held := (tblGet {} t q.val).held + (rs.getD q.val 0).toNat,
      rcvd := (tblGet {} t q.val).rcvd + BitVec.ofNat 32 (rs.getD q.val 0).toNat } :=
  tblGet_foldl_parts h (fun q p => { p with held := p.held + (rs.getD q 0).toNat, rcvd := p.rcvd + BitVec.ofNat 32 (rs.getD q 0).toNat }) q

/-- Each partition returns at most 31 of its freed units (R223). -/
theorem tblGet_afterRet {k : Link} (h : tblWf {} k.part = true) (q : Nat) :
    tblGet {} (afterRet k) q = { tblGet {} k.part q with
      pend := (tblGet {} k.part q).pend - min 31 (tblGet {} k.part q).pend,
      retd := (tblGet {} k.part q).retd + BitVec.ofNat 32 (min 31 (tblGet {} k.part q).pend) } :=
  tblGet_tblMap rfl h

theorem toNat_retNow (k : Link) (q : Fin 16) : ((retNow k).getD q.val 0).toNat = min 31 (tblGet {} k.part q.val).pend := by
  rw [retNow, getD_map_upFrom q.isLt, BitVec.toNat_ofNat]
  omega

/-- The receiver's count: what a partition has taken, it has returned, holds, or is to return (R229). -/
def GotAgrees (p : Part) : Prop := p.got = p.retd + BitVec.ofNat 32 (p.occ + p.pend)

theorem GotAgrees.reserve {p : Part} (h : GotAgrees p) (u : Nat) :
    GotAgrees { p with got := p.got + BitVec.ofNat 32 u, occ := p.occ + u } := by
  simp only [GotAgrees] at h ⊢
  rw [h, BitVec.add_assoc, ← BitVec.ofNat_add, Nat.add_right_comm]

theorem GotAgrees.free {p : Part} (h : GotAgrees p) {u : Nat} (hu : u ≤ p.occ) :
    GotAgrees { p with occ := p.occ - u, pend := p.pend + u } := by
  simp only [GotAgrees] at h ⊢
  rw [h, show p.occ - u + (p.pend + u) = p.occ + p.pend by omega]

theorem GotAgrees.return {p : Part} (h : GotAgrees p) {n : Nat} (hn : n ≤ p.pend) :
    GotAgrees { p with pend := p.pend - n, retd := p.retd + BitVec.ofNat 32 n } := by
  simp only [GotAgrees] at h ⊢
  rw [h, BitVec.add_assoc, ← BitVec.ofNat_add, show n + (p.occ + (p.pend - n)) = p.occ + p.pend by omega]

/-- Units returned leave held + sent - rcvd of the sender's partition as it was (R228). -/
theorem heldSum_return (held : Int) (sent rcvd : BitVec 32) (n : Nat) :
    BitVec.ofInt 32 (held + n) + sent - (rcvd + BitVec.ofNat 32 n) = BitVec.ofInt 32 held + sent - rcvd := by
  rw [BitVec.ofInt_add, BitVec.ofInt_natCast]
  ring

/-! ### Frames that go out -/

theorem putFrame_setLink {s : State} {l : LinkId} {v : Link} (h : tblWf {} s.links = true ∨ v ≠ {}) (f room) :
    link (putFrame l f room (setLink s l v)) l = { v with sent := some f, room := room, nakNext := false } := by
  rw [putFrame, modLink, link_setLink_of (.inr (ne_of_apply_ne Link.sent (by simp))), link_setLink_of h]

/-- A frame as it goes out for the first time: with the next number, and what is to be returned (R198, R223). -/
def numbered (k : Link) (f : TxFrame) : TxFrame :=
  freshAck k { f with seq := k.txSeq, ret := retNow k, x := k.txCount, key := k.keyTx }

/-- A new frame takes the next number and is held for replay (R198, R199). -/
theorem link_newFrame (l f room s) : ∃ a key, link (newFrame l f room s) l = { link s l with
    part := afterRet (link s l), txSeq := (link s l).txSeq + 1, txCount := (link s l).txCount + 1,
    replay := (link s l).replay ++ [numbered (link s l) f], ackAt := a, keyTx := key,
    sent := some (numbered (link s l) f), room := room, nakNext := false } := by
  unfold newFrame putFrame
  extract_lets k g x
  rw [modLink_setLink (ne_of_apply_ne Link.replay (by simp)), link_setLink_of_ne (ne_of_apply_ne Link.sent (by simp))]
  exact ⟨_, _, rfl⟩

theorem newFrame_links (l f room s) : ∃ k, newFrame l f room s = { s with links := k } := ⟨_, rfl⟩

section
variable {s : State} {l : LinkId} {body : Nat}

theorem sendLinkFrame_again {f : TxFrame} {fs : List TxFrame} (h : (link s l).again = f :: fs) (hb : frameUsed f ≤ body) :
    sendLinkFrame l body s = putFrame l (freshAck (link s l) f) 0 (setLink s l { link s l with
      again := fs, replayFrom := if fs.isEmpty then none else (link s l).replayFrom }) := by
  simp [sendLinkFrame, h, hb.not_gt]

theorem sendLinkFrame_control {m : LinkMsg} {ms : List LinkMsg} (ha : (link s l).again = [])
    (hr : (link s l).replay.length < replayCap (link s l).lanes) (h : (link s l).ctl = m :: ms) :
    sendLinkFrame l body s = newFrame l { kind := .control, msg := some (freshMsg (link s l) m) } 0
      (setLink s l { link s l with ctl := ms }) := by
  simp [sendLinkFrame, ha, hr.not_ge, h]

theorem sendLinkFrame_ackOnly (ha : (link s l).again = [])
    (h : replayCap (link s l).lanes ≤ (link s l).replay.length ∨ ((link s l).ctl = [] ∧ underWay s l = none)) :
    sendLinkFrame l body s = putFrame l (ackOnlyFrame (link s l)) 0 s := by
  rcases h with h | ⟨hctl, hway⟩
  · simp [sendLinkFrame, ha, h]
  · simp [sendLinkFrame, ha, hctl, hway]

end

/-! ### The statement -/

/-- Settles O10: the partitions at each change of their credits, and the frame that each case sends. -/
theorem creditsConserved : Obligations.CreditsConserved := by
  unfold Obligations.CreditsConserved
  refine ⟨?_, ?_, ?_, ?_, ?_, ?_, ?_, ?_⟩
  · intro rs tb q hw p p'
    have hp : p' = _ := tblGet_applyRet hw rs q
    rw [hp]
    refine ⟨rfl, ?_, heldSum_return .., rfl, rfl, rfl, rfl, rfl, rfl⟩
    exact congrArg (p.rcvd + ·) (BitVec.eq_of_toNat_eq (by simp))
  · intro s l q u hl hp h
    rw [rxReserve, part_modPart_same hl hp]
    exact GotAgrees.reserve h u
  · intro s l q u hl hp hu h
    rw [rxFree, part_modPart_same hl hp]
    exact GotAgrees.free h hu
  · intro k q hw p p' h
    have hp : p' = _ := tblGet_afterRet hw q.val
    rw [toNat_retNow, hp]
    exact ⟨GotAgrees.return h (Nat.min_le_right ..), (Nat.sub_add_cancel (Nat.min_le_right ..)).symm, Nat.min_le_left ..⟩
  · intro s l f room t
    obtain ⟨a, key, ht⟩ := link_newFrame l f room s
    have ht : link t l = _ := ht
    rw [ht]
    exact ⟨⟨_, rfl, rfl, rfl⟩, rfl, rfl, rfl, rfl, rfl, rfl⟩
  · intro s l body f fs hw h hb t
    have ht : t = _ := sendLinkFrame_again h hb
    rw [ht, putFrame_setLink (.inl hw)]
    exact ⟨rfl, rfl, rfl, rfl, rfl⟩
  · exact fun s l body m ms ha hr h => sendLinkFrame_control ha hr h
  · exact fun s l body ha h => sendLinkFrame_ackOnly ha h

end Machine
end Sys2Proof
end

section
/-!
PROOF. Packet starts on a fabric port (R195, R220, R261, R324, R325, R327): which queue is picked, what a start takes, and the frames that
carry the packet's bytes.
-/
namespace Sys2Proof
namespace Machine

/-! ### The queue that is picked (R325) -/

theorem drrLoop_eligible {el : Nat → Bool} {c quant : Nat → Nat} {v : Nat} {d' : Tbl Int} : ∀ {fuel cur : Nat} {d : Tbl Int},
    drrLoop el c quant fuel cur d = some (v, d') → el v = true
  | 0, _, _, h => by cases h
  | fuel + 1, cur, d, h => by
    unfold drrLoop at h
    extract_lets nxt at h
    split at h
    next hel =>
      cases h
      exact (Bool.and_eq_true_iff.mp hel).1
    next => exact drrLoop_eligible h

/-- Queue 7 goes before all others, the queue picked is eligible, and only pointer and deficits move. -/
theorem selectQueue_some {el : Nat → Bool} {c quant : Nat → Nat} {g g' : Tm} {v : Nat} (h : selectQueue el c quant g = some (v, g')) :
    el v = true ∧ (el 7 = true → v = 7) ∧ g' = { g with cur := g'.cur, deficit := g'.deficit } := by
  unfold selectQueue at h
  split at h
  next h7 =>
    cases h
    exact ⟨h7, fun _ => rfl, rfl⟩
  next h7 =>
    split at h
    · cases h
    · obtain ⟨r, hr, hv⟩ := Option.map_eq_some_iff.mp h
      cases hv
      exact ⟨drrLoop_eligible hr, fun h => absurd h h7, rfl⟩

/-- An eligible head packet has its credits (Table 9-3). -/
theorem eligible_creditsOk {s : State} {l : LinkId} {v : Nat} {q : OutPkt} (h : eligible s l v = true) (hq : headOf s l v = some q) :
    creditsOk s l q.pkt = true := by
  simp only [eligible, hq, conds, List.all_cons, id, Bool.and_eq_true] at h
  exact h.1

theorem creditsOk_held {s : State} {l : LinkId} {p : Packet} (h : creditsOk s l p = true) :
    pktUnits (link s l).gen p ≤ (part s l (partOf p)).held :=
  of_decide_eq_true (Bool.and_eq_true_iff.mp h).1

theorem countGuard_counts (l s) : ∃ n, countGuard l s = { s with counts := n } := by
  unfold countGuard
  generalize upFrom 0 8 = vs
  suffices h : ∀ n, ∃ m, vs.foldl _ { s with counts := n } = { s with counts := m } from h s.counts
  induction vs with
  | nil => exact fun n => ⟨n, rfl⟩
  | cons v vs ih =>
    intro n
    rw [List.foldl_cons]
    split
    · split
      · exact ih _
      · exact ih n
    · exact ih n

section
variable {s : State} {l : LinkId}

theorem packetStart_blocked (h : (link s l).tx.isSome = true ∨ (link s l).up = false ∨ (link s l).retrain = true) :
    packetStart l s = s := by
  refine if_pos ?_
  rcases h with h | h | h <;> simp [h]

/-- The bytes charged for the head packet of a queue (R322). -/
def headCharge (s : State) (l : LinkId) (v : Nat) : Nat := (headOf s l v).elim 0 fun q => portCharge s l q.pkt

/-- The head packet of the queue picked starts, once its charge is taken. -/
theorem packetStart_picked {v : Nat} {g : Tm} {q : OutPkt} {c : Nat → Nat} (htx : (link s l).tx = none) (hup : (link s l).up = true)
    (hre : (link s l).retrain = false) (hc : c = headCharge s l)
    (hsel : selectQueue (eligible s l) c (quantum s l) (tmOf s l) = some (v, g)) (hq : headOf s l v = some q) :
    packetStart l s = startOn l v q (setTm (countGuard l s) l (chargeStart s l v (c v)
      (!(outPort s (linkPort l)).pkts.any (fun x => x.passed && !x.started && x.pkt.vc.val = v && x.uid ≠ q.uid)) g)) := by
  have hfree : ¬ ((link s l).tx.isSome || !(link s l).up || (link s l).retrain) = true := by simp [htx, hup, hre]
  obtain ⟨n, hn⟩ := countGuard_counts l s
  unfold packetStart
  rw [hn]
  extract_lets k u c'
  rw [if_neg hfree]
  have hc' : c' = c := by
    rw [hc]
    funext w
    simp only [c', headCharge, show headOf u l w = headOf s l w from rfl]
    cases headOf s l w <;> rfl
  have hpick : selectQueue (eligible u l) c (quantum u l) (tmOf u l) = some (v, g) := by
    rw [show eligible u l = eligible s l from rfl, show quantum u l = quantum s l from rfl]
    exact hsel
  have hhead : headOf u l v = some q := hq
  have hcharge : chargeStart u l = chargeStart s l := rfl
  rw [hc']
  simp only [hpick, hhead, hcharge]
  rfl

end

/-! ### A start (R220, R327) -/

/-- The Peephole changes counts, the telemetry area of the Larder, and what an event changes. -/
theorem peepFrame_host (l dir disc bs) (s : State) : ∃ m, HostOnly { s with larder := m } (peepFrame l dir disc bs s) := by
  unfold peepFrame
  extract_lets
  split
  · exact ⟨s.larder, .rfl s⟩
  · split
    · exact ⟨s.larder, _, _, _, rfl⟩
    · split
      · exact ⟨s.larder, _, _, _, rfl⟩
      · split
        · exact ⟨_, _, _, _, rfl⟩
        · exact ⟨s.larder, HostOnly.trans ⟨_, _, _, rfl⟩ (raise_host ..)⟩

/-- The first bytes of a packet may go into the frame being sent (R195); what else it has begun with stays. -/
theorem layTail_spec {s : State} {l : LinkId} {x : TxNow} (q : OutPkt) (hx : (link s l).tx = some x) :
    (∃ y, (link (layTail l q s) l).tx = some y ∧ y.uid = x.uid ∧ y.start = x.start ∧ y.queue = x.queue)
      ∧ (link (layTail l q s) l).part = (link s l).part ∧ ∃ k, layTail l q s = { s with links := k } := by
  have hkept : (∃ y, (link s l).tx = some y ∧ y.uid = x.uid ∧ y.start = x.start ∧ y.queue = x.queue)
      ∧ (link s l).part = (link s l).part ∧ ∃ k, s = { s with links := k } := ⟨⟨x, hx, rfl, rfl, rfl⟩, rfl, s.links, rfl⟩
  unfold layTail
  extract_lets k
  split
  next t f ht hf =>
    cases Option.some.inj (ht.symm.trans hx)
    split
    next n hn =>
      split
      · exact hkept
      · extract_lets used f'
        rw [link_setLink_of_ne (ne_of_apply_ne Link.tx (by simp))]
        exact ⟨⟨_, rfl, rfl, rfl, rfl⟩, rfl, _, rfl⟩
    next => exact hkept
  next => exact hkept

/-- The partition with the packet's units taken. -/
def unitsTaken (u : Nat) (p : Part) : Part := { p with held := p.held - u, sent := p.sent + BitVec.ofNat 32 u }

/-- The packets of an output once the one of the uid has started. -/
def startedPkts (uid : Nat) (o : OutPort) : OutPort :=
  { o with pkts := o.pkts.map (fun y => if y.uid = uid then { y with started := true } else y) }

/-- The start of packet `q` as `x`: its units are taken, it is under way, and it is marked; no byte of it is laid yet. -/
def packetBegun (l : LinkId) (q : OutPkt) (x : TxNow) (w : CrossWindow) (s : State) : State :=
  modOut (linkPort l) (startedPkts q.uid) (setLink s l { link s l with
    part := tblMod {} (link s l).part (partOf q.pkt).val (unitsTaken (pktUnits (link s l).gen q.pkt)), tx := some x, crossNew := w })

section
variable {s : State} {l : LinkId}

theorem link_packetBegun (hup : (link s l).up = true) (q x w) : link (packetBegun l q x w s) l = { link s l with
    part := tblMod {} (link s l).part (partOf q.pkt).val (unitsTaken (pktUnits (link s l).gen q.pkt)), tx := some x, crossNew := w } :=
  link_setLink_of_up (s := s) hup

/-- A start begins the packet and lays its first bytes where the frame being sent has room; what counts it leaves links and core alone. -/
theorem startOn_eq (hup : (link s l).up = true) (v : Nat) (q : OutPkt) : ∃ x w, x.uid = q.uid ∧ x.start = s.tick.ns
    ∧ x.queue = q.pkt.vc ∧ ∃ m e r n, startOn l v q s =
      { layTail l q (packetBegun l q x w s) with larder := m, enz := e, rings := r, counts := n } := by
  unfold startOn modPart
  extract_lets o k _ p u close a b c
  have hb : b = _ := modLink_setLink (v := { link s l with part := tblMod {} (link s l).part (partOf q.pkt).val (unitsTaken u) })
    (Link.ne_default_of_up hup) _
  obtain ⟨x, w, hid, hstart, hqueue, hc⟩ : ∃ x w, x.uid = q.uid ∧ x.start = s.tick.ns ∧ x.queue = q.pkt.vc
      ∧ c = packetBegun l q x w s := by
    unfold c
    rw [hb]
    exact ⟨_, _, rfl, rfl, rfl, rfl⟩
  obtain ⟨m, e, r, n, hm⟩ := peepFrame_host l true false (pktBytes p) (layTail l q c)
  rw [hc] at hm ⊢
  rw [hm]
  exact ⟨x, w, hid, hstart, hqueue, m, e, r, _, rfl⟩

/-- What a start leaves: the packet under way, its units out of its partition, and the packet marked as started. -/
theorem startOn_spec (hup : (link s l).up = true) (v : Nat) (q : OutPkt) :
    (∃ x, (link (startOn l v q s) l).tx = some x ∧ x.uid = q.uid ∧ x.start = s.tick.ns ∧ x.queue = q.pkt.vc)
      ∧ (link (startOn l v q s) l).part
        = tblMod {} (link s l).part (partOf q.pkt).val (unitsTaken (pktUnits (link s l).gen q.pkt))
      ∧ (startOn l v q s).core = (modOut (linkPort l) (startedPkts q.uid) s).core := by
  obtain ⟨x, w, hid, hstart, hqueue, m, e, r, n, ht⟩ := startOn_eq hup v q
  have hlink := link_packetBegun hup q x w
  obtain ⟨⟨y, hy, hyid, hystart, hyqueue⟩, hpart, k, hk⟩ := layTail_spec q (congrArg Link.tx hlink)
  have hcore : (layTail l q (packetBegun l q x w s)).core = (packetBegun l q x w s).core := by rw [hk]
  have hsame : link (startOn l v q s) l = link (layTail l q (packetBegun l q x w s)) l := by rw [ht]; rfl
  rw [hsame]
  exact ⟨⟨y, hy, hyid.trans hid, hystart.trans hstart, hyqueue.trans hqueue⟩, hpart.trans (congrArg Link.part hlink),
    (by rw [ht] : (startOn l v q s).core = _).trans hcore⟩

end

/-! ### Frames of the packet under way (R195, R261) -/

section
variable {s : State} {l : LinkId} {body : Nat} {q : OutPkt} {x : TxNow}

theorem fits_eq_some (g : BitVec 2) (q : OutPkt) (pos room n : Nat) : fits g q pos room = some n ↔
    n = min (pktCharge g q.pkt - pos) room ∧ pos + n ≤ bytesReady g q := by
  unfold fits
  extract_lets k
  split
  next h => exact ⟨fun e => Option.some.inj e ▸ ⟨rfl, h⟩, fun e => congrArg some e.1.symm⟩
  next h =>
    refine ⟨nofun, fun ⟨hn, hle⟩ => absurd hle ?_⟩
    rw [hn]
    exact h

theorem dataFrame_missing (h : fits (link s l).gen q x.pos body = none) : dataFrame l body q x s =
    putFrame l (ackOnlyFrame (link s l)) 0 (setLink (if x.underran then s else bump l.val (24 * x.queue.val + 12) 1 s) l
      { link s l with tx := some { x with underran := true } }) := by
  simp only [dataFrame, h]

/-- The bytes that are in go out in a new data frame, which is held for replay. -/
theorem dataFrame_ready {n : Nat} (h : fits (link s l).gen q x.pos body = some n) : let t := dataFrame l body q x s
    (∃ y f, (link t l).tx = some y ∧ y.uid = x.uid ∧ y.pos = x.pos + n ∧ y.underran = false ∧ (link t l).sent = some f
      ∧ f.pieces = [⟨sentPkt q, x.pos, n⟩] ∧ f.kind = .data ∧ (link t l).replay = (link s l).replay ++ [f])
    ∧ t = { s with links := t.links } := by
  simp only [dataFrame, h]
  generalize hy : (some { x with pos := x.pos + n, leaves := _, underran := false } : Option TxNow) = y
  generalize hroom : (if x.pos + n = pktCharge (link s l).gen q.pkt then body - n else 0) = room
  obtain ⟨a, key, hlink⟩ := link_newFrame l (addPiece (link s l).gen q x.pos n 0 {}) room (setLink s l { link s l with tx := y })
  obtain ⟨k, hk⟩ := newFrame_links l (addPiece (link s l).gen q x.pos n 0 {}) room (setLink s l { link s l with tx := y })
  rw [link_setLink_of_ne (ne_of_apply_ne Link.tx (by simp [← hy]))] at hlink
  refine ⟨?_, by rw [hk]; rfl⟩
  rw [hlink]
  exact ⟨_, _, hy.symm, rfl, rfl, rfl, rfl, rfl, rfl, rfl⟩

end

end Machine
end Sys2Proof
end

section
/-!
PROOF. The last byte of a packet on a fabric port (R192, R256, R270, R339), and the statement of PacketStartsAndLastByte.
-/
namespace Sys2Proof
namespace Machine

/-! ### The cells of a packet leave their output (R256, R270) -/

section
variable {s : State} {o : PortId} (hw : tblWf {} s.core.out = true)
include hw

theorem pkts_modOut (f : OutPort → OutPort) : (outPort (modOut o f s) o).pkts = (f (outPort s o)).pkts :=
  congrArg OutPort.pkts (tblGet_tblSet_self _ _ _ _ hw)

theorem pkts_trimBlocks (i : PortId) : (outPort (trimBlocks i o s) o).pkts = (outPort s o).pkts := by
  unfold trimBlocks
  extract_lets q b keep
  split
  · rfl
  · exact pkts_modOut (s := setIn s i { q with blocks := tblSet 0 q.blocks o.val keep }) hw _

theorem pkts_freeCredits (i : PortId) (n : Nat) : (outPort (freeCredits i o n s) o).pkts = (outPort s o).pkts :=
  (pkts_trimBlocks (tblWf_tblSet _ _ _ _ hw) i).trans
    (pkts_modOut (s := modIn i (fun q => { q with used := tblSet 0 q.used o.val (tblGet 0 q.used o.val - n) }) s) hw _)

end

theorem trimBlocks_core (i o s) : ∃ c, trimBlocks i o s = { s with core := c } := by
  unfold trimBlocks
  extract_lets q b keep
  split
  · exact ⟨s.core, rfl⟩
  · exact ⟨_, rfl⟩

theorem freeCredits_core (i o n s) : ∃ c, freeCredits i o n s = { s with core := c } := by
  unfold freeCredits
  obtain ⟨c, hc⟩ := trimBlocks_core i o (modOut o (fun p => { p with free := p.free + n })
    (modIn i (fun q => { q with used := tblSet 0 q.used o.val (tblGet 0 q.used o.val - n) }) s))
  exact ⟨c, hc⟩

/-- The output with the packet taken out of it, its cells counted. -/
def packetGone (o : PortId) (q : OutPkt) (s : State) : State :=
  countLeft o q.have_ (modOut o (fun p => { p with pkts := p.pkts.filter (fun x => x.uid ≠ q.uid) }) s)

theorem freePkt_unicast {q : OutPkt} (hk : q.kind = .unicast) (o s) : freePkt o q s =
    if q.credit then freeCredits q.src o q.have_ (packetGone o q s) else packetGone o q s := by
  cases hc : q.credit <;> simp [freePkt, packetGone, hc, hk]

/-- A unicast packet leaves the core and the counts alone changed. -/
theorem freePkt_core {q : OutPkt} (hk : q.kind = .unicast) (o s) : ∃ c n, freePkt o q s = { s with core := c, counts := n } := by
  rw [freePkt_unicast hk]
  split
  · obtain ⟨c, hc⟩ := freeCredits_core q.src o q.have_ (packetGone o q s)
    exact ⟨c, _, hc⟩
  · exact ⟨_, _, rfl⟩

/-- A unicast packet that leaves is no longer at its output. -/
theorem freePkt_gone {q : OutPkt} {s : State} {o : PortId} (hk : q.kind = .unicast) (hw : tblWf {} s.core.out = true) :
    ∀ y ∈ (outPort (freePkt o q s) o).pkts, y.uid ≠ q.uid := by
  have hgone : (outPort (packetGone o q s) o).pkts = (outPort s o).pkts.filter (fun x => x.uid ≠ q.uid) :=
    pkts_modOut hw fun p => { p with pkts := p.pkts.filter (fun x => x.uid ≠ q.uid) }
  have hpkts : (outPort (freePkt o q s) o).pkts = (outPort s o).pkts.filter (fun x => x.uid ≠ q.uid) := by
    rw [freePkt_unicast hk]
    split
    · exact (pkts_freeCredits (s := packetGone o q s) (tblWf_tblSet _ _ _ _ hw) q.src q.have_).trans hgone
    · exact hgone
  rw [hpkts]
  exact fun y hy => of_decide_eq_true (List.mem_filter.mp hy).2

/-! ### The last byte -/

section
variable {s : State} {l : LinkId} {x : TxNow} {q : OutPkt} (htx : (link s l).tx = some x)
  (hq : (outPort s (linkPort l)).pkts.find? (fun y => y.uid = x.uid) = some q)
include htx hq

theorem lastByte_waits (h : x.pos < pktCharge (link s l).gen q.pkt ∨ s.tick.ns < x.leaves) : lastByte l s = s := by
  simp only [lastByte, htx, hq, h, Bool.or_eq_true, decide_eq_true_eq, if_true]

variable (hpos : pktCharge (link s l).gen q.pkt ≤ x.pos) (hleaves : x.leaves ≤ s.tick.ns)
include hpos hleaves

/-- The packet ends: it is delivered unless it was cut short, and one that ran beyond its closing is counted (R339). -/
theorem lastByte_ends : ∃ n, ((∀ c, x.closing = some c → s.tick.ns ≤ c) → n = s.counts) ∧ lastByte l s =
    (if q.cut then id else delivered (linkPort l) q)
      (freePkt (linkPort l) q (setLink { s with counts := n } l { link s l with tx := none })) := by
  have hnot : ¬ (decide (x.pos < pktCharge (link s l).gen q.pkt) || decide (s.tick.ns < x.leaves)) = true := by
    simp [hpos, hleaves]
  simp only [lastByte, htx, hq, if_neg hnot]
  cases hc : x.closing with
  | none =>
    refine ⟨s.counts, fun _ => rfl, ?_⟩
    split <;> rfl
  | some c =>
    by_cases hlate : c < s.tick.ns
    · refine ⟨(bumpPort (linkPort l) (24 * x.queue.val + 10) s).counts, fun hin => absurd (hin c rfl) hlate.not_ge, ?_⟩
      simp only [hlate, decide_true, if_true]
      split <;> rfl
    · refine ⟨s.counts, fun _ => rfl, ?_⟩
      simp only [hlate, decide_false, Bool.false_eq_true, if_false]
      split <;> rfl

end

/-! ### The rows of a port: fabric or Ethernet (R327, Table 17-5) -/

theorem exec_packetStart_fabric {s : State} {l : LinkId} (h : ethMode s l.val = false) :
    exec (.packetStart l) s = .next (packetStart l (settled s)) := by
  change execPacketStart l s = _
  simp [execPacketStart, h]

theorem exec_packetStart_eth {s : State} {p : Fin 16} (h : ethMode s (80 + p.val) = true) :
    exec (.packetStart ⟨80 + p.val, by omega⟩) s = .next (ethStart p (settled s)) := by
  change execPacketStart _ s = _
  simp [execPacketStart, h]

theorem exec_lastByteLeaves_fabric {s : State} {l : LinkId} (h : ethMode s l.val = false) :
    exec (.lastByteLeaves l) s = .next (lastByte l s) := by
  change execLastByteLeaves l s = _
  simp [execLastByteLeaves, h]

theorem exec_lastByteLeaves_eth {s : State} {p : Fin 16} (h : ethMode s (80 + p.val) = true) :
    exec (.lastByteLeaves ⟨80 + p.val, by omega⟩) s = .next (ethLast p s) := by
  change execLastByteLeaves _ s = _
  simp [execLastByteLeaves, h]

/-! ### The statement -/

/-- Settles O14: the queue that is picked, what a start leaves, the frames of its bytes, and the end of the packet. -/
theorem packetStartsAndLastByte : Obligations.PacketStartsAndLastByte := by
  unfold Obligations.PacketStartsAndLastByte
  refine ⟨⟨?_, ?_, ?_, ?_, ?_, ?_, ?_⟩, ⟨?_, ?_, ?_, ?_⟩, ?_, ?_, ?_, ?_, ?_, ?_⟩
  · exact fun s l h => exec_packetStart_fabric h
  · exact fun s p h => exec_packetStart_eth h
  · exact fun s l h => packetStart_blocked h
  · intro s l v g q htx hup hre c hsel hq
    have hc : c = headCharge s l := by
      funext w
      unfold c headCharge
      cases headOf s l w <;> rfl
    exact packetStart_picked htx hup hre hc hsel hq
  · exact fun el c quant g g' v h => selectQueue_some h
  · intro s l v q hup hw t
    obtain ⟨hx, hpart, hcore⟩ : _ ∧ (link t l).part = _ ∧ t.core = _ := startOn_spec hup v q
    have htaken : part t l (partOf q.pkt) = unitsTaken (pktUnits (link s l).gen q.pkt) (part s l (partOf q.pkt)) := by
      rw [part, hpart]
      exact tblGet_tblSet_self _ _ _ _ hw
    refine ⟨hx, by rw [htaken]; rfl, by rw [htaken]; rfl, fun p hp => ?_, fun hne => ?_, by rw [hcore]; rfl, by rw [hcore]; rfl⟩
    · rw [part, hpart]
      exact tblGet_tblMod_ne _ (Fin.val_ne_of_ne hp)
    · have hset : startedPkts q.uid (outPort s (linkPort l)) ≠ {} := ne_of_apply_ne OutPort.pkts (by simpa [startedPkts] using hne)
      rw [outPort, hcore]
      exact congrArg OutPort.pkts (tblGet_tblSet_of_ne _ _ _ _ hset)
  · exact fun s l q h hq => ⟨eligible_creditsOk h hq, creditsOk_held (eligible_creditsOk h hq)⟩
  · exact fits_eq_some
  · exact fun s l body q x h hu => (dataFrame_missing h).trans (by rw [hu]; rfl)
  · intro s l body q x h hu
    have hx : { x with underran := true } = x := by rw [← hu]
    rw [dataFrame_missing h, hx, hu]
    rfl
  · exact fun s l body n q x h => dataFrame_ready h
  · exact fun s l h => exec_lastByteLeaves_fabric h
  · exact fun s p h => exec_lastByteLeaves_eth h
  · intro s l x q htx hq hpos hleaves hcut hclose
    obtain ⟨n, hn, hlast⟩ := lastByte_ends htx hq hpos hleaves
    rw [hlast, hn hclose, hcut]
    rfl
  · intro s l x q hup htx hq hpos hleaves href hk t
    obtain ⟨n, -, ht⟩ := lastByte_ends htx hq hpos hleaves
    have hend : t = freePkt (linkPort l) q (setLink { s with counts := n } l { link s l with tx := none }) := by
      refine ht.trans ?_
      split
      · rfl
      · simp [delivered, href, hk]
    obtain ⟨c, m, hcore⟩ := freePkt_core hk (linkPort l) (setLink { s with counts := n } l { link s l with tx := none })
    refine ⟨?_, fun hw => ?_, ?_⟩
    · rw [hend, hcore]
      exact congrArg Link.tx (link_setLink_of_up (s := s) (v := { link s l with tx := none }) hup)
    · rw [hend]
      exact freePkt_gone (s := setLink { s with counts := n } l { link s l with tx := none }) hk hw
    · rw [hend, hcore]
      rfl
  · exact fun s l x q he htx hq h => (exec_lastByteLeaves_fabric he).trans (congrArg Host.Outcome.next (lastByte_waits htx hq h))
  · intro s l he htx
    refine (exec_lastByteLeaves_fabric he).trans (congrArg Host.Outcome.next ?_)
    simp only [lastByte, htx]

end Machine
end Sys2Proof
end

section
/-!
PROOF. The credit audit (R227 to R234): what is sent and checked, freezing, thawing and resynchronisation, and the statement of
CreditAudit.
-/
namespace Sys2Proof
namespace Machine

/-! ### What an audit carries (R227, R228) -/

/-- In a tick that stands for itself alone a number is met where the tick's number is that one mod 64. -/
theorem hits_iff {s : State} {n : Nat} (hn : n < 64) (hspan : tickSpan s = 1) : hits s 64 n = true ↔ (nowTick s).toNat % 64 = n := by
  rw [hits, hspan, decide_eq_true_eq]
  omega

theorem auditOf_mask (k : Link) (w : BitVec 16) : (auditOf k w).mask = w := rfl

theorem auditOf_spec (k : Link) (w : BitVec 16) (q : Fin 16) :
    (auditOf k w).held.getD q.val 0 = BitVec.ofInt 16 (tblGet ({} : Part) k.part q.val).held
      ∧ (auditOf k w).sent.getD q.val 0 = (tblGet ({} : Part) k.part q.val).sent
      ∧ (auditOf k w).rcvd.getD q.val 0 = (tblGet ({} : Part) k.part q.val).rcvd := by
  unfold auditOf
  exact ⟨getD_map_upFrom q.isLt (fun q => BitVec.ofInt 16 (tblGet ({} : Part) k.part q).held) 0,
    getD_map_upFrom q.isLt (fun q => (tblGet ({} : Part) k.part q).sent) 0,
    getD_map_upFrom q.isLt (fun q => (tblGet ({} : Part) k.part q).rcvd) 0⟩

section
variable {s : State} {l : LinkId}

theorem mapParts_up (f k) : (mapParts f k).up = k.up := rfl

theorem mapParts_ctl (f k) : (mapParts f k).ctl = k.ctl := rfl

theorem link_sendCtlFirst (hup : (link s l).up = true) (m : LinkMsg) :
    link (sendCtlFirst l m s) l = { link s l with ctl := m :: (link s l).ctl } := link_setLink_of_up (by exact hup)

/-- The AUDIT that falls due in the tick goes before the control messages that wait. -/
theorem creditAuditDue_due (hslot : s.tick.slot = 0) (hphase : s.tick.phase ≤ 6) (hup : (link s l).up = true)
    (hh : hits s 64 (l.val / 4) = true) : exec (.creditAuditDue l) s =
      .next (setPhase 6 (sendCtlFirst l (.audit (auditOf (link s l) (partMask (link s l) (fun p => p.txFrozen.isNone)))) s)) :=
  if_pos (by simp [atStep, hslot, hphase, hup, hh])

theorem creditAuditDue_waits (h : hits s 64 (l.val / 4) = false ∨ (link s l).up = false ∨ s.tick.slot ≠ 0 ∨ 6 < s.tick.phase) :
    NoEffect (.creditAuditDue l) s := by
  refine if_neg ?_
  rcases h with h | h | h | h <;> simp [atStep, h]

/-! ### Checks and answers (R229, R230, R231) -/

theorem sendCtl_setLink {v : Link} (h : v ≠ {}) (m : LinkMsg) :
    sendCtl l m (setLink s l v) = setLink s l { v with ctl := v.ctl ++ [m] } := modLink_setLink h _

/-- The AUDIT_RESULT that answers an AUDIT. -/
def auditAnswer (s : State) (l : LinkId) (m : AuditMsg) : LinkMsg :=
  .auditResult (BitVec.ofNat 16 (((upFrom 0 16).filter (auditFails s l m)).foldl (fun a q => a + 2 ^ q) 0))
    ((upFrom 0 16).map (sumDiff s l m)) ((upFrom 0 16).map (sentDiff s l m))

/-- The partitions that fail wait to freeze at the next boundary. -/
def failsFrozen (s : State) (l : LinkId) (m : AuditMsg) (k : Link) : Link :=
  mapParts (fun q p => if auditFails s l m q then { p with rxFreezeAt := some (s.tick.elapsed + 1) } else p) k

/-- Each failed partition is counted and reported. -/
def failsReported (l : LinkId) (m : AuditMsg) (s : State) : State :=
  ((upFrom 0 16).filter (auditFails s l m)).foldl
    (fun t q => auditMismatch 0 l.val q (sumDiff s l m q) (fnGen s (.port l)) (bumpPort (linkPort l) 194 t)) s

theorem auditMismatch_host (k u b d g s) : HostOnly s (auditMismatch k u b d g s) := (bumpModule_host ..).trans (raiseEv_host ..)

theorem failsReported_host (l m s) : HostOnly s (failsReported l m s) :=
  .foldl (fun t _ => (bump_host _ _ _ t).trans (auditMismatch_host ..)) ..

/-- Each failed partition reaches the sideband once. -/
theorem failsReported_sideband (l m) (s : State) : (failsReported l m s).counts.sideband.length
    = s.counts.sideband.length + ((upFrom 0 16).filter (auditFails s l m)).length := by
  unfold failsReported
  generalize (upFrom 0 16).filter (auditFails s l m) = qs
  suffices h : ∀ t : State, (qs.foldl (fun t q => auditMismatch 0 l.val q (sumDiff s l m q) (fnGen s (.port l))
      (bumpPort (linkPort l) 194 t)) t).counts.sideband.length = t.counts.sideband.length + qs.length from h s
  induction qs with
  | nil => exact fun t => rfl
  | cons q qs ih =>
    intro t
    rw [List.foldl_cons, ih, auditMismatch, raiseEv_sideband, List.length_append, List.length_cons, List.length_cons,
      List.length_nil]
    simp only [bumpModule, bumpPort, bump]
    omega

/-- The link once an AUDIT is checked: its failed partitions wait to freeze, and the answer waits for a control frame. -/
def audited (s : State) (l : LinkId) (m : AuditMsg) : Link :=
  { failsFrozen s l m (link s l) with ctl := (link s l).ctl ++ [auditAnswer s l m] }

theorem exec_audit (hup : (link s l).up = true) (m : AuditMsg) :
    exec (.audit l m) s = .next (setLink (failsReported l m s) l (audited s l m)) := by
  have hlink : link (failsReported l m s) l = link s l := by
    obtain ⟨x, y, z, h⟩ := failsReported_host l m s
    rw [h]
    rfl
  have hmod : modLink l (failsFrozen s l m) (failsReported l m s) = setLink (failsReported l m s) l (failsFrozen s l m (link s l)) := by
    rw [modLink, hlink]
  refine (if_neg (by simp [hup])).trans (congrArg Host.Outcome.next ?_)
  exact (congrArg (sendCtl l (auditAnswer s l m)) hmod).trans (sendCtl_setLink (Link.ne_default_of_up (by exact hup)) _)

/-- Every AUDIT draws an answer; the partitions that it names wait to freeze, and each of them has been reported. -/
theorem audit_spec (hup : (link s l).up = true) (m : AuditMsg) : Completes (.audit l m) s fun t =>
    link t l = audited s l m ∧ t.counts = (failsReported l m s).counts ∧ HostOnly { s with links := t.links } t := by
  refine ⟨_, exec_audit hup m, link_setLink_of_up (by exact hup), rfl, ?_⟩
  obtain ⟨x, y, z, h⟩ := failsReported_host l m s
  rw [h]
  exact ⟨x, y, z, rfl⟩

theorem bit_auditMask (m : AuditMsg) (q : Fin 16) :
    bit (BitVec.ofNat 16 (((upFrom 0 16).filter (auditFails s l m)).foldl (fun a q => a + 2 ^ q) 0)) q.val = auditFails s l m q.val := by
  rw [foldl_filter_mask]
  exact bit_mask_foldl _ q.isLt

theorem part_failsFrozen (hw : tblWf {} (link s l).part = true) (m : AuditMsg) (q : Fin 16) :
    tblGet {} (failsFrozen s l m (link s l)).part q.val = if auditFails s l m q.val then
      { part s l q with rxFreezeAt := some (s.tick.elapsed + 1) } else part s l q :=
  tblGet_mapParts hw _ q

/-- A partition that agrees with the AUDIT in sum and in units sent passes. -/
theorem auditFails_of_agrees {m : AuditMsg} {q : Fin 16} (h : bit m.mask q.val = true →
      ((m.held.getD q.val 0).toNat : Int) + (part s l q).occ + (part s l q).pend
          + ((part s l q).retd - m.rcvd.getD q.val 0).toInt = advertised s l q.val
        ∧ (part s l q).got = m.sent.getD q.val 0) : auditFails s l m q.val = false := by
  cases hb : bit m.mask q.val with
  | false => simp [auditFails, hb]
  | true =>
    obtain ⟨hsum, hgot⟩ := h hb
    have hsum : sumDiff s l m q.val = 0 := sub_eq_zero.mpr hsum
    have hsent : sentDiff s l m q.val = 0 := by
      change ((part s l q).got - m.sent.getD q.val 0).toInt = 0
      rw [hgot, BitVec.sub_self]
      rfl
    simp [auditFails, hsum, hsent]

/-- Where every partition passes, nothing is reported, and the answer names none. -/
theorem auditFails_filter (m : AuditMsg) (h : ∀ q : Fin 16, auditFails s l m q.val = false) :
    (upFrom 0 16).filter (auditFails s l m) = [] :=
  List.filter_eq_nil_iff.mpr fun q hq => by simp [h ⟨q, mem_upFrom.mp hq⟩]

theorem audit_passed (hup : (link s l).up = true) {m : AuditMsg} (h : ∀ q : Fin 16, auditFails s l m q.val = false) :
    Completes (.audit l m) s fun t => (∃ ds es, (link t l).ctl = (link s l).ctl ++ [.auditResult 0 ds es])
      ∧ (tblWf {} (link s l).part = true → ∀ q : Fin 16, part t l q = part s l q) ∧ t = { s with links := t.links } := by
  have hnone := auditFails_filter m h
  have hquiet : failsReported l m s = s := by simp only [failsReported, hnone, List.foldl_nil]
  have hlink : link (setLink s l (audited s l m)) l = audited s l m := link_setLink_of_up (by exact hup)
  refine ⟨_, (exec_audit hup m).trans (by rw [hquiet]), ?_, fun hw q => ?_, rfl⟩
  · rw [hlink, audited, auditAnswer, hnone]
    exact ⟨_, _, rfl⟩
  · rw [part, hlink]
    exact (part_failsFrozen hw m q).trans (if_neg (by simp [h q]))

/-! ### Freezing and thawing (R231, R232) -/

theorem part_modLink_mapParts (f : Nat → Part → Part) (hl : tblWf {} s.links = true ∨ (link s l).up = true)
    (hp : tblWf {} (link s l).part = true) (q : Fin 16) : part (modLink l (mapParts f) s) l q = f q.val (part s l q) := by
  rw [modLink, part_setLink_of (hl.imp_right fun h => Link.ne_default_of_up (by exact h))]
  exact tblGet_mapParts hp f q

/-- A partition at the boundary for which its freeze waits (R231). -/
def frozenNow (s : State) (p : Part) : Part :=
  { p with
    txFrozen := if dueNow s p.txFreezeAt then some s.tick.elapsed else p.txFrozen,
    txFreezeAt := if dueNow s p.txFreezeAt then none else p.txFreezeAt,
    rxFrozen := if dueNow s p.rxFreezeAt then some s.tick.elapsed else p.rxFrozen,
    rxFreezeAt := if dueNow s p.rxFreezeAt then none else p.rxFreezeAt }

/-- A partition at the boundary for which its thaw waits (R232). -/
def thawedNow (s : State) (p : Part) : Part :=
  { p with
    txFrozen := if dueNow s p.txThawAt then none else p.txFrozen,
    txThawAt := if dueNow s p.txThawAt then none else p.txThawAt,
    rxFrozen := if dueNow s p.rxThawAt then none else p.rxFrozen,
    rxThawAt := if dueNow s p.rxThawAt then none else p.rxThawAt }

theorem exec_partitionFreeze (h : s.tick.slot = 0) (l : LinkId) :
    exec (.partitionFreeze l) s = .next (modLink l (mapParts fun _ => frozenNow s) s) := by
  refine (if_neg (not_not_intro h)).trans ?_
  congr 4
  funext _ p
  cases ha : dueNow s p.txFreezeAt <;> cases hb : dueNow s p.rxFreezeAt <;> simp [frozenNow, ha, hb]

theorem exec_partitionUnfreeze (h : s.tick.slot = 0) (l : LinkId) :
    exec (.partitionUnfreeze l) s = .next (modLink l (mapParts fun _ => thawedNow s) s) := by
  refine (if_neg (not_not_intro h)).trans ?_
  congr 4
  funext _ p
  cases ha : dueNow s p.txThawAt <;> cases hb : dueNow s p.rxThawAt <;> simp [thawedNow, ha, hb]

/-! ### Resynchronisation (R232, R233) -/

/-- The RESYNC of the partitions that are ready for it. -/
def resyncOf (k : Link) : ResyncMsg :=
  { mask := partMask k resyncReady, retd := (upFrom 0 16).map (fun q => (tblGet ({} : Part) k.part q).retd),
    got := (upFrom 0 16).map (fun q => (tblGet ({} : Part) k.part q).got) }

theorem resyncOf_spec (k : Link) (q : Fin 16) : bit (resyncOf k).mask q.val = resyncReady (tblGet {} k.part q.val)
    ∧ (resyncOf k).retd.getD q.val 0 = (tblGet ({} : Part) k.part q.val).retd
    ∧ (resyncOf k).got.getD q.val 0 = (tblGet ({} : Part) k.part q.val).got := by
  unfold resyncOf
  exact ⟨bit_partMask k resyncReady q, getD_map_upFrom q.isLt (fun q => (tblGet ({} : Part) k.part q).retd) 0,
    getD_map_upFrom q.isLt (fun q => (tblGet ({} : Part) k.part q).got) 0⟩

/-- A partition that RESYNC names thaws at the next boundary. -/
def thawDue (s : State) (p : Part) : Part := if resyncReady p then { p with rxThawAt := some (s.tick.elapsed + 1) } else p

/-- The link once its RESYNC waits for a control frame. -/
def resynced (s : State) (k : Link) : Link :=
  { mapParts (fun _ => thawDue s) k with ctl := k.ctl ++ [.resync (resyncOf k)] }

theorem resynced_ctl (s k) : (resynced s k).ctl = k.ctl ++ [.resync (resyncOf k)] := rfl

theorem resynced_up (s k) : (resynced s k).up = k.up := by
  simp only [resynced, mapParts_up]

theorem resynced_part (s k) : (resynced s k).part = (mapParts (fun _ => thawDue s) k).part := by
  simp only [resynced]

theorem exec_resyncSend (hup : (link s l).up = true) {q : Fin 16} (hq : resyncReady (part s l q) = true) :
    exec (.resyncSend l) s = .next (setLink s l (resynced s (link s l))) := by
  have hsome : partMask (link s l) resyncReady ≠ 0#16 := by
    intro h
    have hbit := bit_partMask (link s l) resyncReady q
    rw [h] at hbit
    exact absurd (hbit.trans hq) (by simp [bit])
  have hne : mapParts (fun _ => thawDue s) (link s l) ≠ {} := Link.ne_default_of_up (by rw [mapParts_up, hup])
  have hsent : sendCtl l (.resync (resyncOf (link s l))) (setLink s l (mapParts (fun _ => thawDue s) (link s l)))
      = setLink s l (resynced s (link s l)) := by
    rw [sendCtl_setLink hne, mapParts_ctl, resynced]
  exact (if_neg (by simp [hup, hsome])).trans (congrArg Host.Outcome.next hsent)

/-- A partition that RESYNC names takes its totals from it, and thaws at the next boundary. -/
def resyncTaken (s : State) (m : ResyncMsg) (q : Nat) (p : Part) : Part :=
  if bit m.mask q then
    { p with held := p.ref, rcvd := m.retd.getD q 0, sent := m.got.getD q 0, txThawAt := some (s.tick.elapsed + 1) }
  else p

theorem exec_resync (hup : (link s l).up = true) (m : ResyncMsg) :
    exec (.resync l m) s = .next (modLink l (mapParts (resyncTaken s m)) s) :=
  if_neg (by simp [hup])

theorem exec_frozenPartitionTimeout (l : LinkId) (q : Fin 16) (s : State) : exec (.frozenPartitionTimeout l q) s =
    .next (if (part s l q).txFrozen.any (fun k => decide (256 ≤ ageOf s k))
      || (part s l q).rxFrozen.any (fun k => decide (256 ≤ ageOf s k)) then findFailure l 3 s else s) := by
  change execFrozenPartitionTimeout l q s = _
  unfold execFrozenPartitionTimeout
  cases h : (part s l q).txFrozen <;> cases h' : (part s l q).rxFrozen <;> simp [h, h']

theorem findFailure_first (h : (link s l).up = true ∨ (link s l).nego = true) (hf : (link s l).failAt = none) (c : BitVec 8) :
    findFailure l c s = setLink s l { link s l with failAt := some (c, prepDue s) } :=
  if_neg (by rcases h with h | h <;> simp [h, hf])

theorem noEffect_down (h : (link s l).up = false) (m : AuditMsg) (w : BitVec 16) (r : ResyncMsg) :
    NoEffect (.audit l m) s ∧ NoEffect (.auditResult l w) s ∧ NoEffect (.resyncSend l) s ∧ NoEffect (.resync l r) s :=
  ⟨if_pos (by simp [h]), if_pos (by simp [h]), if_pos (by simp [h]), if_pos (by simp [h])⟩

end

/-! ### The statement -/

/-- Settles O9: each clause is the lemma of the audit that falls due, of its check, or of a partition that freezes, thaws or
resynchronises. -/
theorem creditAudit : Obligations.CreditAudit := by
  unfold Obligations.CreditAudit
  refine ⟨⟨?_, ?_, ?_, ?_⟩, ⟨?_, ?_, ?_, ?_⟩, ?_, ?_, ?_, ?_, ?_, ?_, ?_, ?_⟩
  · intro s l hslot hphase hup hh
    refine ⟨_, creditAuditDue_due hslot hphase hup hh, ⟨_, link_sendCtlFirst hup _, ?_, fun q => ?_⟩, ?_, rfl⟩
    · rw [auditOf_mask]
    · rw [auditOf_mask]
      exact bit_partMask (link s l) _ q
    · exact congrArg (fun n => { s.tick with phase := n }) (Nat.max_eq_right hphase)
  · exact fun s n hn hspan => hits_iff hn hspan
  · exact fun k w m => ⟨rfl, rfl, auditOf_spec k w⟩
  · exact fun s l h => creditAuditDue_waits h
  · exact fun s l m hup h => audit_passed hup fun q => auditFails_of_agrees (h q)
  · intro s l m hup
    obtain ⟨t, ht, hlink, hcounts, hhost⟩ := audit_spec hup m
    refine ⟨t, ht, ?_, ⟨_, by rw [hlink]; rfl, bit_auditMask m⟩, fun hw q => ?_, hhost⟩
    · rw [hcounts]
      exact failsReported_sideband l m s
    · rw [part, hlink]
      exact part_failsFrozen hw m q
  · exact fun s l m hup => if_neg (by simp [hup])
  · exact fun s l m w r h => noEffect_down h m w r
  · exact fun s l h => ⟨_, exec_partitionFreeze h l, rfl, fun hl hp q => part_modLink_mapParts _ (.inl hl) hp q⟩
  · exact fun s l h => ⟨_, exec_partitionUnfreeze h l, rfl, fun hl hp q => part_modLink_mapParts _ (.inl hl) hp q⟩
  · exact fun s l h => ⟨if_pos h, if_pos h⟩
  · intro s l q hup hfrozen hthaw hocc hpend
    have hlink : link (setLink s l (resynced s (link s l))) l = resynced s (link s l) :=
      link_setLink_of_up (by rw [resynced_up, hup])
    have hready : resyncReady (part s l q) = true := by simp [resyncReady, hfrozen, hthaw, hocc, hpend]
    refine ⟨_, exec_resyncSend hup hready, rfl, ⟨resyncOf (link s l), by rw [hlink, resynced_ctl], ?_,
      resyncOf_spec (link s l)⟩, fun hw r => ?_⟩
    · rw [(resyncOf_spec (link s l) q).1]
      exact hready
    · rw [part, hlink, resynced_part]
      exact tblGet_mapParts hw _ r
  · exact fun s l m hup => ⟨_, exec_resync hup m, rfl, fun hw q => part_modLink_mapParts _ (.inr hup) hw q⟩
  · intro s l q k hk hage
    refine (exec_frozenPartitionTimeout l q s).trans (congrArg Host.Outcome.next (if_pos ?_))
    rcases hk with hk | hk <;> simp [hk, hage]
  · intro s l q h
    refine (exec_frozenPartitionTimeout l q s).trans (congrArg Host.Outcome.next (if_neg ?_))
    simp only [Bool.or_eq_true, Option.any_eq_true, decide_eq_true_eq, not_or, not_exists, not_and, Nat.not_le]
    exact ⟨fun k hk => h k (.inl hk), fun k hk => h k (.inr hk)⟩
  · exact fun s l c h hf => findFailure_first h hf c

end Machine
end Sys2Proof
end

section
/-!
PROOF. Negotiation by LINK_CAP (R206, R208 to R212, R671, R673): how each end of it leaves the link, and the statement of LinkNegotiation.
-/
namespace Sys2Proof
namespace Machine

/-! ### The ends of negotiation -/

/-- The link in service: at the lower generation and level, on the lanes both ends offer, with the peer's credits (R208, R212, R673). -/
def inService (s : State) (l : LinkId) (c : LinkCap) (k : Link) : Link :=
  let own := ownCap s l
  let enc := bit (reg s .linkSec l.val) 0
  { k with
    nego := false, up := true, failed := false, gen := if own.maxGen.toNat ≤ c.maxGen.toNat then own.maxGen else c.maxGen,
    level := BitVec.ofNat 8 (min own.level.toNat c.level.toNat), lanes := own.laneMask &&& c.laneMask, peer := c.node,
    vexlor := c.vexlor, known := true,
    part := (upFrom 0 16).foldl (fun t q => tblMod {} t q (fun p =>
      { p with held := (c.credits.getD q 0).toNat, ref := (c.credits.getD q 0).toNat, sent := 0, rcvd := 0, got := 0, retd := 0 })) k.part,
    keyed := enc, keyTx := if enc then keyOut s l c k.txCount else [], keyRx := if enc then keyIn s l c k.rxCount else [],
    noticed := false, crossNew := { opened := s.tick.elapsed }, crossOld := { opened := s.tick.elapsed } }

section
variable {s : State} {l : LinkId} {c : LinkCap}

theorem endNego_waits {q : BitVec 12} (h : (link s l).capSeq = some q) : endNego l s = s := by
  unfold endNego
  extract_lets k
  split
  next hq => exact absurd (h.symm.trans hq) nofun
  next => rfl

theorem endNego_idle (h : (link s l).nego = false) : endNego l s = s := by
  unfold endNego
  extract_lets k
  split
  next hn _ _ => exact absurd (h.symm.trans hn) nofun
  next => rfl

/-- The link enters service: the lanes that only this end names are held out, and who knew of its failure is told (R208, R289). -/
def enterService (l : LinkId) (c : LinkCap) (s : State) : State :=
  let k := link s l
  let mask := (ownCap s l).laneMask &&& c.laneMask
  let s := holdUnnamed l mask (setLink s l (inService s l c k))
  let s := if k.noticed then sendNotice true l s else s
  if k.failed then raiseEv 0x11 l.val (c.node.toNat <<< 8 + laneCount mask <<< 20) (fnGen s (.port l)) s else s

/-- Negotiation ends, once both LINK_CAPs are through, by the first of the refusals that holds, or with the link in service. -/
theorem endNego_open (hn : (link s l).nego = true) (hc : (link s l).cap = some c) (hq : (link s l).capSeq = none) : endNego l s =
    if min s.attic.level.toNat c.level.toNat + 1 < max s.attic.level.toNat c.level.toNat then
      raiseEv 0x1B l.val (s.attic.level.toNat + c.level.toNat <<< 8) (fnGen s (.port l)) (setLink s l { link s l with nego := false })
    else if bit (reg s .linkSec l.val) 0 && (!c.vexlor || !s.strong.linkKey) then
      raiseEv 0x1C l.val ((!c.vexlor).toNat + (!s.strong.linkKey).toNat <<< 1) (fnGen s (.port l))
        (setLink s l { link s l with nego := false })
    else if laneCount ((ownCap s l).laneMask &&& c.laneMask) < minLanes s l then
      lanesToDetect l (setLink s l { link s l with nego := false })
    else enterService l c s := by
  unfold endNego
  extract_lets k
  split
  next c' _ hc' _ =>
    cases Option.some.inj (hc'.symm.trans hc)
    rfl
  next hno => exact absurd hq (hno c hn hc)

theorem enterService_quiet (hf : (link s l).failed = false) (hnot : (link s l).noticed = false) (c : LinkCap) : enterService l c s
    = holdUnnamed l ((ownCap s l).laneMask &&& c.laneMask) (setLink s l (inService s l c (link s l))) := by
  simp only [enterService, hf, hnot, Bool.false_eq_true, if_false]

end

/-! ### LINK_CAP while negotiation is open (R208, R209, R671) -/

/-- The link with the peer's LINK_CAP held. -/
def capHeld (l : LinkId) (c : LinkCap) (s : State) : State := setLink s l { link s l with cap := some c }

section
variable {s : State} {l : LinkId} {c : LinkCap}

theorem link_capHeld : link (capHeld l c s) l = { link s l with cap := some c } :=
  link_setLink_of_ne (ne_of_apply_ne Link.cap (by simp))

theorem setLink_capHeld (v : Link) : setLink (capHeld l c s) l v = setLink s l v :=
  setLink_setLink (ne_of_apply_ne Link.cap (by simp)) v

theorem ownCap_capHeld : ownCap (capHeld l c s) l = ownCap s l := rfl

theorem exec_linkCap_up (hup : (link s l).up = true) : exec (.linkCap l c) s = .next (findFailure l 4 (capHeld l c s)) :=
  if_pos hup

theorem exec_linkCap_idle (hup : (link s l).up = false) (hn : (link s l).nego = false) : NoEffect (.linkCap l c) s :=
  (if_neg (by simp [hup])).trans (if_neg (by simp [hn]))

variable (hup : (link s l).up = false) (hn : (link s l).nego = true)
include hup hn

theorem exec_linkCap_nego : exec (.linkCap l c) s = .next (endNego l (capHeld l c s)) :=
  (if_neg (by simp [hup])).trans (if_pos hn)

variable (hq : (link s l).capSeq = none)
include hq

/-- With its own LINK_CAP through, the link's negotiation ends at the peer's. -/
theorem exec_linkCap_open : exec (.linkCap l c) s = .next (
    if min s.attic.level.toNat c.level.toNat + 1 < max s.attic.level.toNat c.level.toNat then
      raiseEv 0x1B l.val (s.attic.level.toNat + c.level.toNat <<< 8) (fnGen s (.port l))
        (setLink s l { link s l with nego := false, cap := some c })
    else if bit (reg s .linkSec l.val) 0 && (!c.vexlor || !s.strong.linkKey) then
      raiseEv 0x1C l.val ((!c.vexlor).toNat + (!s.strong.linkKey).toNat <<< 1) (fnGen s (.port l))
        (setLink s l { link s l with nego := false, cap := some c })
    else if laneCount ((ownCap s l).laneMask &&& c.laneMask) < minLanes s l then
      lanesToDetect l (setLink s l { link s l with nego := false, cap := some c })
    else enterService l c (capHeld l c s)) := by
  have hlink := link_capHeld (s := s) (l := l) (c := c)
  have hopen := endNego_open (s := capHeld l c s) (l := l) (c := c) (by rw [hlink]; exact hn) (by rw [hlink]) (by rw [hlink]; exact hq)
  rw [hlink, setLink_capHeld] at hopen
  rw [exec_linkCap_nego hup hn, hopen]
  rfl

end

/-- What a refused negotiation leaves (R209, R671): the event, and the link out of negotiation. -/
theorem refused_spec {s : State} {l : LinkId} {v : Link} (hv : v ≠ {}) (code : BitVec 8) (d : Nat) (g : BitVec 16) :
    let t := raiseEv code l.val d g (setLink s l v)
    link t l = v ∧ (∃ e, t.counts.sideband = s.counts.sideband ++ [e] ∧ e.code = code ∧ e.unit = BitVec.ofNat 16 l.val
      ∧ e.detail = BitVec.ofNat 128 d) ∧ HostOnly { s with links := t.links } t := by
  have hside := raiseEv_sideband code l.val d g (setLink s l v)
  obtain ⟨x, y, z, h⟩ := raiseEv_host code l.val d g (setLink s l v)
  refine ⟨?_, ⟨_, hside, rfl, rfl, rfl⟩, ?_⟩
  · rw [h]
    exact link_setLink_of_ne hv
  · rw [h]
    exact ⟨x, y, z, rfl⟩

/-- A lane brought back to bring-up (R210, R643, R653). -/
def backToDetect (l : LinkId) (s : State) (j : Fin 4) (a : Lane) : Lane :=
  { a with st := if laneLit s (laneId l j) then .detect else .dark, since := s.tick.ns, rate := 0, tries := 0, pass := none,
           peerPass := none, ownOut := a.darkened || a.failed, peerOut := false }

/-- The link with nothing left of its lanes' training. -/
def trainingCleared (k : Link) : Link := { k with trainCap := none, caps := 0, initiator := false, stepCount := 0 }

/-- The return to bring-up changes the link and its lanes alone. -/
theorem lanesToDetect_setLink (s : State) (l : LinkId) {v : Link} (hv : v ≠ {}) : ∃ x,
    lanesToDetect l (setLink s l v) = { setLink s l (trainingCleared v) with lanes := x }
      ∧ (tblWf {} s.lanes = true → ∀ j : Fin 4, tblGet {} x (laneId l j).val = backToDetect l s j (lane s (laneId l j))) := by
  obtain ⟨x, hx⟩ := modLanes_lanes l (backToDetect l (setLink s l v)) (setLink s l v)
  refine ⟨x, ?_, fun hw j => ?_⟩
  · change modLink l trainingCleared (modLanes l (backToDetect l (setLink s l v)) (setLink s l v)) = _
    rw [hx]
    exact congrArg (fun u => { u with lanes := x }) (modLink_setLink hv trainingCleared)
  · have hlane := lane_modLanes (s := setLink s l v) (l := l) (j := j) (f := backToDetect l (setLink s l v)) (.inl hw)
    rw [hx] at hlane
    exact hlane

/-- A lane that only this end names is held out, and recovers (R208, R650). -/
def unnamedOut (s : State) (mask : BitVec 4) (j : Fin 4) (a : Lane) : Lane :=
  if a.st = .service && !a.ownOut && !bit mask j.val then toRecover s { a with ownOut := true } else a

theorem lane_holdUnnamed {s : State} {l : LinkId} {mask : BitVec 4} {j : Fin 4} (hst : (lane s (laneId l j)).st = .service)
    (hin : (lane s (laneId l j)).ownOut = false) (hmask : bit mask j.val = false) :
    (lane (holdUnnamed l mask s) (laneId l j)).st = .recover ∧ (lane (holdUnnamed l mask s) (laneId l j)).ownOut = true := by
  have hout : unnamedOut s mask j (lane s (laneId l j)) = toRecover s { lane s (laneId l j) with ownOut := true } :=
    if_pos (by simp [hst, hin, hmask])
  have hlane : lane (holdUnnamed l mask s) (laneId l j) = unnamedOut s mask j (lane s (laneId l j)) :=
    lane_modLanes (.inr (by rw [← unnamedOut, hout]; exact ne_of_apply_ne Lane.st (by simp [toRecover])))
  rw [hlane, hout]
  exact ⟨rfl, rfl⟩

theorem holdUnnamed_lanes (l mask s) : ∃ x, holdUnnamed l mask s = { s with lanes := x } := modLanes_lanes ..

theorem link_holdUnnamed (s : State) (l : LinkId) (mask : BitVec 4) {v : Link} (hv : v.up = true) :
    link (holdUnnamed l mask (setLink s l v)) l = v := by
  obtain ⟨x, hx⟩ := holdUnnamed_lanes l mask (setLink s l v)
  rw [hx]
  exact link_setLink_of_up (s := s) hv

theorem gen_inService (s l c k) : (inService s l c k).gen.toNat = min (ownCap s l).maxGen.toNat c.maxGen.toNat := by
  simp only [inService]
  split <;> omega

theorem level_inService (s l c k) : (inService s l c k).level.toNat = min s.attic.level.toNat c.level.toNat :=
  Nat.mod_eq_of_lt (lt_of_le_of_lt (Nat.min_le_right ..) c.level.isLt)

theorem part_inService {k : Link} (h : tblWf {} k.part = true) (s l) (c : LinkCap) (q : Fin 16) :
    tblGet {} (inService s l c k).part q.val = { tblGet {} k.part q.val with
      held := (c.credits.getD q.val 0).toNat, ref := (c.credits.getD q.val 0).toNat, sent := 0, rcvd := 0, got := 0, retd := 0 } :=
  tblGet_foldl_parts h (fun q p =>
    { p with held := (c.credits.getD q 0).toNat, ref := (c.credits.getD q 0).toNat, sent := 0, rcvd := 0, got := 0, retd := 0 }) q

theorem inService_up (s l c k) : (inService s l c k).up = true := rfl

theorem inService_capHeld (s l c k) : inService (capHeld l c s) l c k = inService s l c k := rfl

section
variable {s : State} {l : LinkId} {c : LinkCap} (hup : (link s l).up = false) (hn : (link s l).nego = true)
  (hq : (link s l).capSeq = none) (hlevel : max s.attic.level.toNat c.level.toNat ≤ min s.attic.level.toNat c.level.toNat + 1)
include hup hn hq hlevel

theorem linkCap_secret (he : bit (reg s .linkSec l.val) 0 = true) (h : c.vexlor = false ∨ s.strong.linkKey = false) :
    exec (.linkCap l c) s = .next (raiseEv 0x1C l.val ((!c.vexlor).toNat + (!s.strong.linkKey).toNat <<< 1) (fnGen s (.port l))
      (setLink s l { link s l with nego := false, cap := some c })) := by
  have hrefused : (bit (reg s .linkSec l.val) 0 && (!c.vexlor || !s.strong.linkKey)) = true := by
    rcases h with h | h <;> simp [he, h]
  rw [exec_linkCap_open hup hn hq, if_neg hlevel.not_gt, if_pos hrefused]

variable (henc : bit (reg s .linkSec l.val) 0 = true → c.vexlor = true ∧ s.strong.linkKey = true)
include henc

/-- Where neither level nor encryption refuses the link, the lanes that both ends offer decide. -/
theorem linkCap_agreed : exec (.linkCap l c) s = .next (if laneCount ((ownCap s l).laneMask &&& c.laneMask) < minLanes s l then
      lanesToDetect l (setLink s l { link s l with nego := false, cap := some c })
    else enterService l c (capHeld l c s)) := by
  have hgranted : ¬ (bit (reg s .linkSec l.val) 0 && (!c.vexlor || !s.strong.linkKey)) = true := by
    cases he : bit (reg s .linkSec l.val) 0 with
    | false => simp
    | true => simp [henc he]
  rw [exec_linkCap_open hup hn hq, if_neg hlevel.not_gt, if_neg hgranted]

theorem linkCap_serves (hwidth : minLanes s l ≤ laneCount ((ownCap s l).laneMask &&& c.laneMask)) (hf : (link s l).failed = false)
    (hnot : (link s l).noticed = false) : exec (.linkCap l c) s = .next (holdUnnamed l ((ownCap s l).laneMask &&& c.laneMask)
      (setLink s l (inService s l c { link s l with cap := some c }))) := by
  have hlink := link_capHeld (s := s) (l := l) (c := c)
  have hserve := enterService_quiet (s := capHeld l c s) (l := l) (by rw [hlink]; exact hf) (by rw [hlink]; exact hnot) c
  rw [hlink, setLink_capHeld, inService_capHeld, ownCap_capHeld] at hserve
  rw [linkCap_agreed hup hn hq hlevel henc, if_neg hwidth.not_gt, hserve]

end

/-! ### The statement -/

/-- Settles O8: each clause is an end of negotiation, or a LINK_CAP or time-out that finds none open. -/
theorem linkNegotiation : Obligations.LinkNegotiation := by
  unfold Obligations.LinkNegotiation
  refine ⟨?_, ?_, ?_, ?_, ?_, ?_, ?_, ?_, ?_, ?_, ?_⟩
  · exact fun s l c hup hn => exec_linkCap_nego hup hn
  · exact fun s l q hq => endNego_waits hq
  · intro s l c hup hn hq hf hnot henc hlevel hwidth
    have hexec := linkCap_serves hup hn hq hlevel henc hwidth hf hnot
    have hv := inService_up s l c { link s l with cap := some c }
    have hgen := gen_inService s l c { link s l with cap := some c }
    have hlev := level_inService s l c { link s l with cap := some c }
    have hkept := link_holdUnnamed s l ((ownCap s l).laneMask &&& c.laneMask) hv
    obtain ⟨x, hx⟩ := holdUnnamed_lanes l ((ownCap s l).laneMask &&& c.laneMask)
      (setLink s l (inService s l c { link s l with cap := some c }))
    refine ⟨_, hexec, ?_⟩
    simp only [part, hkept]
    refine ⟨hv, rfl, hgen, hlev, rfl, rfl, rfl, fun he => ⟨if_pos he, if_pos he⟩, fun j hst hin hbit => ?_, fun q hw => ?_,
      rfl, rfl, ?_⟩
    · exact lane_holdUnnamed hst hin (by simp only [bit, BitVec.getLsbD_and] at hbit ⊢; rw [hbit, Bool.and_false])
    · rw [part_inService (by exact hw)]
      exact ⟨rfl, rfl, rfl, rfl, rfl, rfl⟩
    · rw [hx]
      rfl
  · intro s l c hup hn hq hlevel
    obtain ⟨hlink, ⟨e, hside, hcode, hunit, hdetail⟩, hhost⟩ := refused_spec (s := s) (l := l)
      (v := { link s l with nego := false, cap := some c }) (ne_of_apply_ne Link.cap (by simp)) 0x1B
      (s.attic.level.toNat + c.level.toNat <<< 8) (fnGen s (.port l))
    refine ⟨_, (exec_linkCap_open hup hn hq).trans (congrArg Host.Outcome.next (if_pos hlevel)), hlink,
      ⟨e, hside, hcode, hunit, hdetail.trans (by rw [Nat.shiftLeft_eq])⟩, hhost⟩
  · intro s l c hup hn hq hlevel he h
    obtain ⟨hlink, ⟨e, hside, hcode, hunit, -⟩, hhost⟩ := refused_spec (s := s) (l := l)
      (v := { link s l with nego := false, cap := some c }) (ne_of_apply_ne Link.cap (by simp)) 0x1C
      ((!c.vexlor).toNat + (!s.strong.linkKey).toNat <<< 1) (fnGen s (.port l))
    exact ⟨_, linkCap_secret hup hn hq hlevel he h, hlink, ⟨e, hside, hcode, hunit⟩, hhost⟩
  · intro s l c hup hn hq hlevel he hwidth
    have hne : ({ link s l with nego := false, cap := some c } : Link) ≠ {} := ne_of_apply_ne Link.cap (by simp)
    obtain ⟨x, hx, hlanes⟩ := lanesToDetect_setLink s l hne
    have hexec := linkCap_agreed (c := c) hup hn hq hlevel (fun h => absurd (he.symm.trans h) nofun)
    rw [if_pos hwidth, hx] at hexec
    have hlink : link (setLink s l (trainingCleared { link s l with nego := false, cap := some c })) l = _ :=
      link_setLink_of_ne (ne_of_apply_ne Link.cap (by simp [trainingCleared]))
    refine ⟨_, hexec, congrArg Link.nego hlink, (congrArg Link.up hlink).trans hup, fun hw j => ?_, rfl⟩
    exact congrArg Lane.st (hlanes hw j)
  · exact fun s l c hup => exec_linkCap_up hup
  · intro s l c hup hf
    have hlink := link_capHeld (s := s) (l := l) (c := c)
    have hfound := findFailure_first (s := capHeld l c s) (l := l) (.inl (by rw [hlink]; exact hup)) (by rw [hlink]; exact hf) 4
    rw [exec_linkCap_up hup, hfound, hlink]
    rfl
  · exact fun s l c hup hn => exec_linkCap_idle hup hn
  · exact fun s l hn hc ht => if_pos (by simp [hn, hc, ht])
  · intro s l h
    refine if_neg ?_
    rcases h with h | h | h
    · simp [h]
    · simp [h]
    · cases hc : (link s l).cap with
      | none => simp [hc] at h
      | some c => simp

end Machine
end Sys2Proof
end

section
/-!
PROOF. Received frames (R192, R193, R200, R631, R637): what the lanes make of a frame, and its header.
-/
namespace Sys2Proof
namespace Machine

/-! ### The header (Table 6-2) -/

theorem bitsOf_eq (n lo len : Nat) : bitsOf n lo len = n / 2 ^ lo % 2 ^ len := by
  rw [bitsOf, Nat.shiftRight_eq_div_pow]

/-- A sum that starts from a number. -/
theorem foldl_add_init (f : Nat → Nat) (qs : List Nat) (m : Nat) :
    qs.foldl (fun n q => n + f q) m = m + qs.foldl (fun n q => n + f q) 0 := by
  induction qs generalizing m with
  | nil => rfl
  | cons q qs ih =>
    rw [List.foldl_cons, List.foldl_cons, ih (m + f q), ih (0 + f q)]
    omega

/-- The fields of a header before its returns, as a number of 48 bits. -/
def headFields (f : TxFrame) : Nat :=
  f.seq.toNat + f.ack.toNat * 2 ^ 12 + f.nak.toNat * 2 ^ 24 + kindCode f.kind * 2 ^ 25 + f.first.toNat * 2 ^ 32

theorem kindCode_lt (k : FrameKind) : kindCode k < 4 := by
  cases k <;> decide

theorem headFields_lt (f : TxFrame) : headFields f < 2 ^ 48 := by
  have hseq := f.seq.isLt
  have hack := f.ack.isLt
  have hnak := Bool.toNat_le f.nak
  have hkind := kindCode_lt f.kind
  have hfirst := f.first.isLt
  unfold headFields
  omega

/-- The header as a number: its fields, then the returns, five bits each. -/
def headNum (f : TxFrame) : Nat := (upFrom 0 16).foldl (fun m q => m + (f.ret.getD q 0).toNat * 2 ^ (48 + 5 * q)) (headFields f)

theorem headBytes_eq (f : TxFrame) : headBytes f = leBytes 16 (headNum f) := by
  rw [headBytes, headNum, foldl_add_init (fun q => (f.ret.getD q 0).toNat * 2 ^ (48 + 5 * q)) _ (headFields f)]
  simp only [Nat.shiftLeft_eq, headFields]

theorem headNum_spec (f : TxFrame) : headNum f < 2 ^ 128 ∧ headNum f % 2 ^ 48 = headFields f
    ∧ ∀ q, q < 16 → headNum f / 2 ^ (48 + 5 * q) % 2 ^ 5 = (f.ret.getD q 0).toNat := by
  obtain ⟨hlt, hlow, hdig⟩ := digits_foldl (c := 48) (w := 5) (f := fun q => (f.ret.getD q 0).toNat)
    (fun q => (f.ret.getD q 0).isLt) 16 0 (headFields f) (headFields_lt f)
  exact ⟨hlt, hlow, fun q hq => hdig q (Nat.zero_le q) (by omega)⟩

/-- A header is read as it is written. -/
theorem headOfBytes_headBytes {f : TxFrame} (h : f.ret.length = 16) :
    headOfBytes (headBytes f) = ⟨f.seq, f.ack, f.nak, f.kind, f.first, f.ret⟩ := by
  obtain ⟨hlt, hlow, hdig⟩ := headNum_spec f
  have hread : leAt (headBytes f) 0 16 = headNum f := by
    rw [headBytes_eq, leAt_leBytes (Nat.le_refl 16)]
    omega
  have hseq := f.seq.isLt
  have hack := f.ack.isLt
  have hnak := Bool.toNat_le f.nak
  have hkind := kindCode_lt f.kind
  have hfirst := f.first.isLt
  unfold headFields at hlow
  have hseqs : bitsOf (headNum f) 0 12 = f.seq.toNat := by rw [bitsOf_eq]; omega
  have hacks : bitsOf (headNum f) 12 12 = f.ack.toNat := by rw [bitsOf_eq]; omega
  have hnaks : bitsOf (headNum f) 24 1 = f.nak.toNat := by rw [bitsOf_eq]; omega
  have hkinds : bitsOf (headNum f) 25 2 = kindCode f.kind := by rw [bitsOf_eq]; omega
  have hfirsts : bitsOf (headNum f) 32 8 = f.first.toNat := by rw [bitsOf_eq]; omega
  have hrets : (upFrom 0 16).map (fun q => BitVec.ofNat 5 (bitsOf (headNum f) (48 + 5 * q) 5)) = f.ret := by
    refine List.ext_getElem (by simp [upFrom_eq_range', h]) fun q hq hq' => ?_
    have hq16 : q < 16 := h ▸ hq'
    simp only [List.getElem_map, upFrom_eq_range', List.getElem_range', bitsOf_eq, Nat.zero_add, Nat.one_mul, hdig q hq16]
    rw [List.getD_eq_getElem _ _ hq']
    simp
  simp only [headOfBytes, hread, hseqs, hacks, hnaks, hkinds, hfirsts, hrets]
  cases f.kind <;> cases f.nak <;> simp [kindCode]

/-! ### The lanes of a frame (R631, R632, R634, R637) -/

/-- What each lane on which the peer transmits makes of its codeword. -/
def framesRx (l : LinkId) (f : LinkFrame) (s : State) : List (Fin 4 × Lane × List RxBlock × Option Nat) :=
  (rxLanes s l).zipIdx.map (fun x => (x.1, laneRx s.tick.elapsed (lane s (laneId l x.1)) (f.words.getD x.2 [])))

theorem setLanes_spec (l : LinkId) (rx : List (Fin 4 × Lane × List RxBlock × Option Nat)) (s : State) :
    (∃ x, rx.foldl (fun s x => setLane s (laneId l x.1) x.2.1) s = { s with lanes := x })
      ∧ ∀ n, linkOfLane n ≠ l → lane (rx.foldl (fun s x => setLane s (laneId l x.1) x.2.1) s) n = lane s n := by
  induction rx generalizing s with
  | nil => exact ⟨⟨s.lanes, rfl⟩, fun _ _ => rfl⟩
  | cons x rx ih =>
    obtain ⟨⟨y, hy⟩, hother⟩ := ih (setLane s (laneId l x.1) x.2.1)
    refine ⟨⟨y, hy⟩, fun n hn => (hother n hn).trans (lane_setLane_ne ?_ _)⟩
    rintro rfl
    exact hn (linkOfLane_laneId l x.1)

/-- The lanes of a link once each has made of its codeword what it can. -/
def lanesSet (l : LinkId) (f : LinkFrame) (s : State) : State :=
  (framesRx l f s).foldl (fun s x => setLane s (laneId l x.1) x.2.1) s

/-- A frame through its lanes changes the lanes of its link, the link's count of unknown blocks, and the counts. -/
theorem lanesRx_state (l f s) : ∃ n y z, (lanesRx l f s).2
    = modLink l (fun k => { k with badBlocks := k.badBlocks + n }) (bump l.val 200 y (bump l.val 201 z (lanesSet l f s))) :=
  ⟨_, _, _, rfl⟩

/-- The frame's bytes come out where the peer transmits and every codeword decodes (R637). -/
theorem lanesRx_isSome (l f s) : (lanesRx l f s).1.isSome = true ↔ rxLanes s l ≠ [] ∧
    ∀ x ∈ (rxLanes s l).zipIdx, (rsDecode ((f.words.getD x.2 []).map (·.toNat))).isSome = true := by
  have hfst : (lanesRx l f s).1 = if ((framesRx l f s).filter (fun x => x.2.2.2.isNone)).length = 0 && !(rxLanes s l).isEmpty then
      some (frameOfBlocks ((framesRx l f s).map (·.2.2.1))) else none := rfl
  rw [hfst, framesRx]
  simp only [Option.isSome_ite, Bool.and_eq_true, decide_eq_true_eq, Bool.not_eq_true', List.isEmpty_eq_false_iff,
    List.length_eq_zero_iff, List.filter_eq_nil_iff, List.forall_mem_map, and_comm (b := rxLanes s l ≠ [])]
  refine and_congr_right fun _ => forall₂_congr fun x _ => ?_
  simp [laneRx, Option.isSome_iff_ne_none]

theorem lanesRx_frame (l f) (s : State) : ∃ x y z, (lanesRx l f s).2 = { s with lanes := x, links := y, counts := z } := by
  obtain ⟨n, y, z, h⟩ := lanesRx_state l f s
  obtain ⟨⟨x, hx⟩, -⟩ := setLanes_spec l (framesRx l f s) s
  rw [h, lanesSet, hx]
  exact ⟨x, _, _, rfl⟩

theorem lanesRx_otherLanes (l f s) {n : LaneId} (hn : linkOfLane n ≠ l) : lane (lanesRx l f s).2 n = lane s n := by
  obtain ⟨m, y, z, h⟩ := lanesRx_state l f s
  rw [h]
  exact (setLanes_spec l (framesRx l f s) s).2 n hn

theorem lanesRx_link (l f) {s : State} (hw : tblWf {} s.links = true) : link (lanesRx l f s).2 l = { link s l with
      badBlocks := (link (lanesRx l f s).2 l).badBlocks } ∧ (link s l).badBlocks ≤ (link (lanesRx l f s).2 l).badBlocks := by
  obtain ⟨n, y, z, h⟩ := lanesRx_state l f s
  obtain ⟨⟨x, hx⟩, -⟩ := setLanes_spec l (framesRx l f s) s
  have hlink : link (lanesRx l f s).2 l = { link s l with badBlocks := (link s l).badBlocks + n } := by
    rw [h, lanesSet, hx]
    exact link_setLink_of (.inl hw)
  rw [hlink]
  exact ⟨rfl, Nat.le_add_right ..⟩

end Machine
end Sys2Proof
end

section
/-!
PROOF. Acceptance, discard, acknowledgement, nak and replay (R199 to R206, R675), retraining and fallback, and the statement of
LinkFramesReplayFallback.
-/
namespace Sys2Proof
namespace Machine

/-! ### What a received frame does (R199, R200, R204) -/

section
variable {s : State} {l : LinkId} {h : FrameHead} {body : List Byte}

/-- A link in service or negotiation, not in retraining, takes frames. -/
theorem takesFrames (hsv : (link s l).up = true ∨ (link s l).nego = true) (hre : (link s l).retrain = false) :
    ¬ (!((link s l).up || (link s l).nego) || (link s l).retrain) = true := by
  rcases hsv with h | h <;> simp [h, hre]

theorem applyAck_none (hack : h.ack = (link s l).acked) : applyAck l h.ack s = s :=
  if_pos (.inl (by rw [ackDist, hack, BitVec.sub_self]; rfl))

/-- The frames of a replay under way that an acknowledgement leaves to send. -/
def stillAgain (k : Link) (left : List TxFrame) : List TxFrame := k.again.filter (fun f => left.any (fun x => x.seq = f.seq))

/-- An acknowledgement frees the frames that it covers (R199). -/
theorem applyAck_some {n : Nat} (h0 : 0 < n) (hn : n ≤ (link s l).replay.length) (h12 : n < 4096)
    (hack : h.ack = (link s l).acked + BitVec.ofNat 12 n) : ∃ from_ cap, applyAck l h.ack s = setLink s l { link s l with
      replay := (link s l).replay.drop n, acked := h.ack, ackAt := s.tick.ns, replays := 0,
      again := stillAgain (link s l) ((link s l).replay.drop n), replayFrom := from_, capSeq := cap } := by
  have hdist : ackDist (link s l) h.ack = n := by
    rw [ackDist, hack, add_sub_cancel_left, BitVec.toNat_ofNat]
    omega
  unfold applyAck
  extract_lets k m left again
  have hm : m = n := hdist
  have hcov : ¬ (m = 0 ∨ k.replay.length < m) := by
    rw [hm]
    exact fun h => h.elim h0.ne' hn.not_gt
  rw [if_neg hcov]
  unfold again left
  rw [hm]
  exact ⟨_, _, rfl⟩

/-- Where no negotiation is open, nothing is left of a received frame but its acknowledgement, its nak and its own sequence. -/
theorem endNego_setLink {v : Link} (hv : v.up = true) (hn : v.nego = false) : endNego l (setLink s l v) = setLink s l v :=
  endNego_idle (by rw [link_setLink_of_up hv, hn])

/-- The link once the frame expected is accepted, within an epoch of its key (R204, R673). -/
def accepted (ret : List (BitVec 5)) (k : Link) : Link :=
  { k with rxExp := k.rxExp + 1, rxCount := k.rxCount + 1, nakAt := none, part := applyRet ret k.part }

theorem acceptFrame_eq (ret : List (BitVec 5)) (hkey : (link s l).keyed = true → ((link s l).rxCount + 1) % 2 ^ 36 ≠ 0) :
    acceptFrame l ret s = setLink s l (accepted ret (link s l)) := by
  have hsame : ((link s l).keyed && decide (((link s l).rxCount + 1) % 2 ^ 36 = 0)) = false := by
    cases hk : (link s l).keyed with
    | false => rfl
    | true => simpa using hkey hk
  simp only [acceptFrame, modLink, hsame, accepted]

/-- The link with the body of a data frame taken. -/
def bodyTaken (body : List Byte) (k : Link) : Link := { k with rxPkt := bodyIn k.gen k.rxPkt body }

section
variable (hup : (link s l).up = true) (hn : (link s l).nego = false) (hnak : h.nak = false) (hack : h.ack = (link s l).acked)
include hup hn hnak hack

omit hup hn in
theorem frameIn_expected (hkind : h.kind = .data ∨ h.kind = .control) (hseq : h.seq = (link s l).rxExp) : frameIn l h body s
    = endNego l (acceptFrame l h.ret (if h.kind = .data then modLink l (bodyTaken body) s else s)) := by
  have hack' : h.kind ≠ .ackOnly := by rcases hkind with hk | hk <;> simp [hk]
  have htake : (decide (h.kind ≠ .reserved) && decide (h.seq = (link s l).rxExp)) = true := by
    rcases hkind with hk | hk <;> simp [hk, hseq]
  simp only [frameIn, applyAck_none hack, hnak, Bool.false_eq_true, if_false, if_neg hack', if_pos htake]
  rfl

/-- The frame expected is accepted (R204). -/
theorem frameIn_accepted (hkind : h.kind = .data ∨ h.kind = .control) (hseq : h.seq = (link s l).rxExp)
    (hkey : (link s l).keyed = true → ((link s l).rxCount + 1) % 2 ^ 36 ≠ 0) :
    frameIn l h body s = setLink s l (accepted h.ret (if h.kind = .data then bodyTaken body (link s l) else link s l)) := by
  rw [frameIn_expected hnak hack hkind hseq]
  by_cases hdata : h.kind = .data
  · have hlink : link (modLink l (bodyTaken body) s) l = bodyTaken body (link s l) := link_setLink_of_up (by exact hup)
    rw [if_pos hdata, if_pos hdata, acceptFrame_eq h.ret (by rw [hlink]; exact hkey), hlink]
    have htwice := setLink_setLink (s := s) (l := l) (v := bodyTaken body (link s l)) (Link.ne_default_of_up (by exact hup))
    rw [modLink, htwice, endNego_setLink (by exact hup) (by exact hn)]
  · rw [if_neg hdata, if_neg hdata, acceptFrame_eq h.ret hkey, endNego_setLink (by exact hup) (by exact hn)]

end

/-! ### Discards (R200, R201) -/

theorem discardFrame_first (h : (link s l).nakAt = none) : discardFrame l s
    = bumpPort (linkPort l) 193 (setLink s l { link s l with nakNext := true, nakAt := some s.tick.ns }) :=
  if_neg (by simp [h])

theorem discardFrame_again {k : Nat} (h : (link s l).nakAt = some k) : discardFrame l s = s :=
  if_pos (by simp [h])

theorem link_bumpPort (p w s m) : link (bumpPort p w s) m = link s m := rfl

theorem nego_discardFrame (hup : (link s l).up = true) : (link (discardFrame l s) l).nego = (link s l).nego := by
  cases hk : (link s l).nakAt with
  | none => rw [discardFrame_first hk, link_bumpPort, link_setLink_of_up (by exact hup)]
  | some k => rw [discardFrame_again hk]

theorem frameIn_discarded (hup : (link s l).up = true) (hn : (link s l).nego = false) (hnak : h.nak = false)
    (hack : h.ack = (link s l).acked) (hkind : h.kind ≠ .ackOnly) (hbad : h.seq ≠ (link s l).rxExp ∨ h.kind = .reserved) :
    frameIn l h body s = discardFrame l s := by
  have hnot : ¬ (decide (h.kind ≠ .reserved) && decide (h.seq = (link s l).rxExp)) = true := by
    rcases hbad with hbad | hbad <;> simp [hbad]
  have hin : frameIn l h body s = endNego l (discardFrame l s) := by
    simp only [frameIn, applyAck_none hack, hnak, Bool.false_eq_true, if_false, if_neg hkind, if_neg hnot]
  rw [hin, endNego_idle ((nego_discardFrame hup).trans hn)]

theorem nakRepeat_due {k : Nat} (h : (link s l).nakAt = some k) (ht : k + 1024 ≤ s.tick.ns) : exec (.nakRepeatTimeout l) s
    = .next (bumpPort (linkPort l) 193 (setLink s l { link s l with nakNext := true, nakAt := some s.tick.ns })) := by
  change execNakRepeatTimeout l s = _
  simp only [execNakRepeatTimeout, h, if_pos ht]
  rfl

theorem nakRepeat_waits (h : (link s l).nakAt = none ∨ ∃ k, (link s l).nakAt = some k ∧ s.tick.ns < k + 1024) :
    NoEffect (.nakRepeatTimeout l) s := by
  change execNakRepeatTimeout l s = _
  rcases h with h | ⟨k, h, ht⟩
  · simp only [execNakRepeatTimeout, h]
  · simp only [execNakRepeatTimeout, h, if_neg ht.not_ge]

/-! ### Replay (R202, R205) -/

theorem replayNow_held (h : (link s l).replay ≠ []) : replayNow l s = bumpPort (linkPort l) 192 (setLink s l { link s l with
    replayFrom := some (link s l).acked, again := (link s l).replay, replays := (link s l).replays + 1, ackAt := s.tick.ns }) :=
  if_neg (by simpa using h)

theorem nego_replayNow (hup : (link s l).up = true) : (link (replayNow l s) l).nego = (link s l).nego := by
  by_cases hr : (link s l).replay = []
  · rw [show replayNow l s = s from if_pos (by simp [hr])]
  · rw [replayNow_held hr, link_bumpPort, link_setLink_of_up (by exact hup)]

/-- A nak that names no replay under way replays (R202). -/
theorem frameIn_nak (hup : (link s l).up = true) (hn : (link s l).nego = false) (hnak : h.nak = true) (hkind : h.kind = .ackOnly)
    (hack : h.ack = (link s l).acked) (hfrom : (link s l).replayFrom ≠ some (link s l).acked) :
    frameIn l h body s = replayNow l s := by
  have hin : frameIn l h body s = endNego l (replayNow l s) := by
    have hacts : applyNak l h.ack s = replayNow l s := if_neg (by rw [hack]; exact hfrom)
    simp only [frameIn, applyAck_none hack, hnak, if_true, hkind, hacts]
  rw [hin, endNego_idle ((nego_replayNow hup).trans hn)]

/-- An acknowledgement alone leaves the replay buffer without the frames that it covers. -/
theorem frameIn_ack {n : Nat} (hup : (link s l).up = true) (hn : (link s l).nego = false) (hnak : h.nak = false)
    (hkind : h.kind = .ackOnly) (h0 : 0 < n) (hlen : n ≤ (link s l).replay.length) (h12 : n < 4096)
    (hack : h.ack = (link s l).acked + BitVec.ofNat 12 n) : ∃ from_ cap, frameIn l h body s = setLink s l { link s l with
      replay := (link s l).replay.drop n, acked := h.ack, ackAt := s.tick.ns, replays := 0,
      again := stillAgain (link s l) ((link s l).replay.drop n), replayFrom := from_, capSeq := cap } := by
  obtain ⟨from_, cap, happ⟩ := applyAck_some h0 hlen h12 hack
  have hin : frameIn l h body s = endNego l (applyAck l h.ack s) := by
    simp only [frameIn, hnak, Bool.false_eq_true, if_false, hkind, if_true]
  exact ⟨from_, cap, by rw [hin, happ, endNego_setLink (by exact hup) (by exact hn)]⟩

theorem mem_stillAgain {k : Link} {left : List TxFrame} {x : TxFrame} (hx : x ∈ stillAgain k left) :
    x ∈ k.again ∧ ∃ y ∈ left, y.seq = x.seq := by
  obtain ⟨hmem, hany⟩ := List.mem_filter.mp hx
  obtain ⟨y, hy, hseq⟩ := List.any_eq_true.mp hany
  exact ⟨hmem, y, hy, of_decide_eq_true hseq⟩

theorem linkReplayTimeout_due (hsv : (link s l).up = true ∨ (link s l).nego = true) (hre : (link s l).retrain = false)
    (hr : (link s l).replay ≠ []) (ht : (link s l).ackAt + 512 ≤ s.tick.ns) : exec (.linkReplayTimeout l) s = .next (replayNow l s) :=
  congrArg Host.Outcome.next (if_pos (by rcases hsv with h | h <;> simp [h, hre, hr, ht]))

theorem linkReplayTimeout_waits (h : s.tick.ns < (link s l).ackAt + 512 ∨ (link s l).replay = [] ∨ (link s l).retrain = true) :
    NoEffect (.linkReplayTimeout l) s :=
  congrArg Host.Outcome.next (if_neg (by rcases h with h | h | h <;> simp [h]))

/-! ### Retraining and fallback (R205, R206) -/

/-- The link as it goes to retraining: it keeps its replay buffer (R205). -/
def retraining (s : State) (k : Link) : Link :=
  { k with
    retrain := true, replays := 0, again := [], replayFrom := none, room := 0,
    retrains := k.retrains.filter (fun t => ageOf s t < 65536) ++ [s.tick.elapsed] }

/-- A lane in service goes to Recover, another stays. -/
def recovers (s : State) (a : Lane) : Lane := if a.st = .service then toRecover s a else a

theorem lane_recovers {u : State} {j : Fin 4} (hst : (lane u (laneId l j)).st = .service) (s : State) :
    (lane (modLanes l (fun _ => recovers s) u) (laneId l j)).st = .recover := by
  have hto : recovers s (lane u (laneId l j)) = toRecover s (lane u (laneId l j)) := if_pos hst
  rw [lane_modLanes (.inr (by rw [hto]; exact ne_of_apply_ne Lane.st (by simp [toRecover]))), hto]
  rfl

theorem replayLimitRetrain_due (hsv : (link s l).up = true ∨ (link s l).nego = true) (hre : (link s l).retrain = false)
    (hr : (link s l).replay ≠ []) (hlimit : fld (reg s .linkLlCtrl l.val) 8 4 ≤ (link s l).replays) :
    exec (.replayLimitRetrain l) s
      = .next (modLanes l (fun _ => recovers s) (bumpPort (linkPort l) 203 (setLink s l (retraining s (link s l))))) :=
  if_pos (by rcases hsv with h | h <;> simp [h, hre, hr, hlimit])

theorem replayLimitRetrain_waits (h : (link s l).replays < fld (reg s .linkLlCtrl l.val) 8 4 ∨ (link s l).retrain = true
    ∨ (link s l).replay = []) : NoEffect (.replayLimitRetrain l) s :=
  if_neg (by rcases h with h | h | h <;> simp [h])

theorem linkFallback_due (h4 : 4 ≤ ((link s l).retrains.filter (fun k => ageOf s k < 65536)).length) (hf : fallback s l = false) :
    exec (.linkFallback l) s = .next (findFailure l 4 (setFallback l true (setLink s l { link s l with retrains := [] }))) :=
  if_pos (by simp [h4, hf])

theorem linkFallback_waits (h : ((link s l).retrains.filter (fun k => ageOf s k < 65536)).length < 4 ∨ fallback s l = true) :
    NoEffect (.linkFallback l) s :=
  if_neg (by rcases h with h | h <;> simp [h])

end

/-- The fourth retraining ends the link as one lost, with fallback set (R206). -/
theorem linkFallback_found {s : State} {l : LinkId} (h4 : 4 ≤ ((link s l).retrains.filter (fun k => ageOf s k < 65536)).length)
    (hf : fallback s l = false) (hup : (link s l).up = true) (hfail : (link s l).failAt = none) : exec (.linkFallback l) s
      = .next { setLink s l { link s l with retrains := [], failAt := some (4, prepDue s) } with regs := (setFallback l true s).regs } := by
  have hlink : link (setFallback l true (setLink s l { link s l with retrains := [] })) l = { link s l with retrains := [] } :=
    link_setLink_of_up (by exact hup)
  have hfound := findFailure_first (s := setFallback l true (setLink s l { link s l with retrains := [] })) (l := l)
    (.inl (by rw [hlink]; exact hup)) (by rw [hlink]; exact hfail) 4
  have htwice := setLink_setLink (s := s) (l := l) (v := { link s l with retrains := [] }) (Link.ne_default_of_up (by exact hup))
    { link s l with retrains := [], failAt := some (4, prepDue s) }
  rw [linkFallback_due h4 hf, hfound, hlink, ← htwice]
  rfl

/-! ### The statement -/

/-- Settles O7: each clause is the lemma of what a frame, its acknowledgement or its nak does, or of replay, retraining or fallback. -/
theorem linkFramesReplayFallback : Obligations.LinkFramesReplayFallback := by
  unfold Obligations.LinkFramesReplayFallback
  refine ⟨⟨?_, ?_, ?_, ?_, ?_, ?_, ?_, ?_, ?_, ?_, ?_, ?_, ?_, ?_, ?_⟩, ?_, ?_, ?_, ?_, ?_, ?_, ?_, ?_⟩
  · intro s l f bytes body u hsv hre hrx hbody
    refine congrArg Host.Outcome.next ((if_neg (takesFrames hsv hre)).trans ?_)
    simp only [hrx, hbody]
  · intro s l f u hsv hre hrx
    refine congrArg Host.Outcome.next ((if_neg (takesFrames hsv hre)).trans ?_)
    simp only [hrx]
  · intro s l f bytes u hsv hre hrx hbody
    refine congrArg Host.Outcome.next ((if_neg (takesFrames hsv hre)).trans ?_)
    simp only [hrx, hbody]
    rfl
  · exact fun s l f h => congrArg Host.Outcome.next (if_pos (by rcases h with ⟨hup, hn⟩ | h <;> simp [*]))
  · intro s l f u
    obtain ⟨x, y, z, h⟩ := lanesRx_frame l f s
    refine ⟨?_, fun hw => lanesRx_link l f hw, fun n hn => lanesRx_otherLanes l f s hn, lanesRx_isSome l f s⟩
    unfold u
    rw [h]
  · exact fun f h => headOfBytes_headBytes h
  · intro s l h body hup hn hnak hkind hack hseq hkey
    rw [frameIn_accepted hup hn hnak hack hkind hseq hkey]
    split <;> rfl
  · intro t ret q hw
    rw [tblGet_applyRet hw]
    exact ⟨rfl, rfl⟩
  · exact fun s l h body hup hn hnak hkind hack hbad => frameIn_discarded hup hn hnak hack hkind hbad
  · exact fun s l h => discardFrame_first h
  · exact fun s l k h => discardFrame_again h
  · intro s l h body n hup hn hnak hkind h0 hlen h12 hack t
    obtain ⟨from_, cap, ht⟩ := frameIn_ack (body := body) hup hn hnak hkind h0 hlen h12 hack
    have ht : t = _ := ht
    rw [ht, link_setLink_of_up (by exact hup)]
    exact ⟨rfl, rfl, rfl, rfl, rfl, fun x hx => mem_stillAgain hx, rfl⟩
  · exact fun s l h body hup hn hnak hkind hack hfrom => frameIn_nak hup hn hnak hkind hack hfrom
  · exact fun s l k h ht => nakRepeat_due h ht
  · exact fun s l h => nakRepeat_waits h
  · exact fun s l hsv hre hr ht => linkReplayTimeout_due hsv hre hr ht
  · exact fun s l hr => replayNow_held hr
  · exact fun s l h => linkReplayTimeout_waits h
  · intro s l hsv hre hr hlimit
    have hne : retraining s (link s l) ≠ {} := ne_of_apply_ne Link.retrain (by simp [retraining])
    obtain ⟨x, hx⟩ := modLanes_lanes l (fun _ => recovers s) (bumpPort (linkPort l) 203 (setLink s l (retraining s (link s l))))
    refine ⟨_, replayLimitRetrain_due hsv hre hr hlimit, ?_, fun j hst => lane_recovers (by exact hst) s, ?_⟩
    · rw [hx]
      exact link_setLink_of_ne hne
    · rw [hx]
      rfl
  · exact fun s l h => replayLimitRetrain_waits h
  · exact fun s l h4 hf => linkFallback_due h4 hf
  · intro s l h4 hf hup hfail
    have hlink : link (setLink s l { link s l with retrains := [], failAt := some (4, prepDue s) }) l = _ :=
      link_setLink_of_up (by exact hup)
    exact ⟨_, linkFallback_found h4 hf hup hfail, congrArg Link.failAt hlink, congrArg Link.retrains hlink, rfl, rfl⟩
  · exact fun s l h => linkFallback_waits h

end Machine
end Sys2Proof
end

section
/-!
PROOF. A slot of the core leaves the clock alone but for its own advance (R240, R21): what stages, loans, collectives, Hawk, links and
samples change lies outside the tick. One lemma for each function that CORE_SLOT calls, in the order of the model's files.
-/
namespace Sys2Proof
namespace Machine

/-! ### Parts of the state -/

theorem clockOf_setSlice (s m v) : clockOf (setSlice s m v) = clockOf s := rfl
theorem clockOf_modOut (o f s) : clockOf (modOut o f s) = clockOf s := rfl
theorem clockOf_setLink (s l v) : clockOf (setLink s l v) = clockOf s := rfl
theorem clockOf_setCore (s : State) (x) : clockOf { s with core := x } = clockOf s := rfl
theorem clockOf_setFree (s : State) (n) : clockOf { s with free := n } = clockOf s := rfl
theorem clockOf_setOp (g q o s) : clockOf (setOp g q o s) = clockOf s := rfl

theorem clockOf_modOp (g q f s) : clockOf (modOp g q f s) = clockOf s := by
  unfold modOp
  split
  · exact clockOf_setOp ..
  · rfl

/-! ### Stages and loans of the core -/

theorem clockOf_trimBlocks (i o s) : clockOf (trimBlocks i o s) = clockOf s := by
  obtain ⟨c, hc⟩ := trimBlocks_core i o s
  rw [hc]
  rfl

theorem clockOf_admitEntering (i) : ∀ (n s), clockOf (admitEntering i n s) = clockOf s
  | 0, _ => rfl
  | n + 1, s => by
    unfold admitEntering
    split
    · rfl
    · exact clockOf_ite ((clockOf_admitEntering i n _).trans ((clockOf_enqueueNow ..).trans (clockOf_modIn ..))) rfl

theorem clockOf_freeUnits (i q u s) : clockOf (freeUnits i q u s) = clockOf s := by
  unfold freeUnits
  extract_lets t
  have ht : clockOf t = clockOf s := clockOf_modIn ..
  split
  · exact clockOf_ite ht ((clockOf_rxFree ..).trans ht)
  · exact (clockOf_admitEntering ..).trans ht

theorem clockOf_sentCell (i e e' s) : clockOf (sentCell i e e' s) = clockOf s := rfl

theorem clockOf_crossContrib (i m e s) : clockOf (crossContrib i m e s) = clockOf s := by
  unfold crossContrib
  split
  · exact (clockOf_freeUnits ..).trans ((clockOf_sentCell ..).trans (clockOf_setSlice ..))
  · rfl

theorem clockOf_crossOne (i m e s) : clockOf (crossOne i m e s) = clockOf s := by
  unfold crossOne
  extract_lets outs start u t t' c t'' t'''
  have ht : clockOf t = clockOf s := clockOf_ite (clockOf_modOut ..) rfl
  have ht'' : clockOf t'' = clockOf s := (clockOf_ite rfl (clockOf_setSlice ..)).trans ((clockOf_modIn ..).trans ht)
  have ht''' : clockOf t''' = clockOf s := (clockOf_freeUnits ..).trans ((clockOf_sentCell ..).trans ht'')
  exact clockOf_ite ((clockOf_trimBlocks ..).trans ht''') ht'''

theorem clockOf_stageOne (s i) : clockOf (stageOne s i) = clockOf s := by
  unfold stageOne
  extract_lets m
  split
  · exact clockOf_ite (clockOf_crossContrib ..) (clockOf_crossOne ..)
  · rfl

theorem clockOf_sendOut (m o bad e s) : clockOf (sendOut m o bad e s) = clockOf s := rfl

theorem clockOf_stageTwo (errs s m) : clockOf (stageTwo errs s m) = clockOf s := by
  unfold stageTwo
  extract_lets o
  split
  · rfl
  · exact clockOf_ite ((clockOf_sendOut ..).trans (clockOf_raiseEv ..)) (clockOf_sendOut ..)

theorem clockOf_phaseZero (s) : clockOf (phaseZero s) = clockOf s := clockOf_ite rfl rfl

theorem clockOf_lendOne (i s o) : clockOf (lendOne i s o) = clockOf s := rfl

theorem clockOf_lendInput (s i) : clockOf (lendInput s i) = clockOf s := clockOf_foldl (clockOf_lendOne i) ..

theorem clockOf_coreCross (errs s) : clockOf (coreCross errs s) = clockOf s :=
  (clockOf_foldl clockOf_stageOne ..).trans ((clockOf_foldl (clockOf_stageTwo errs) ..).trans
    ((clockOf_foldl clockOf_lendInput ..).trans (clockOf_phaseZero ..)))

theorem clockOf_sampleDepths (d s) : clockOf (sampleDepths d s) = clockOf s :=
  clockOf_ite (clockOf_foldl (fun t l => clockOf_foldl (fun t v => clockOf_bump l.val (24 * v + 13 + depthBin (d l v)) 1 t) _ t) _ s) rfl

/-! ### Packets of collectives at an input -/

theorem clockOf_leaveInput (i p s) : clockOf (leaveInput i p s) = clockOf s := by
  unfold leaveInput
  split
  · exact (clockOf_freeUnits ..).trans ((clockOf_modIn ..).trans (clockOf_setPairs ..))
  · rfl

theorem clockOf_standIn (i p s) : clockOf (standIn i p s) = clockOf s := clockOf_ite rfl (clockOf_enqueue ..)

theorem clockOf_modEntry (i p f s) : clockOf (modEntry i p f s) = clockOf s := by
  unfold modEntry
  split
  · exact clockOf_modIn ..
  · rfl

theorem clockOf_holdIn (i p s) : clockOf (holdIn i p s) = clockOf s := (clockOf_modEntry ..).trans (clockOf_standIn ..)

theorem clockOf_collDiscard (g i p s) : clockOf (collDiscard g i p s) = clockOf s :=
  (clockOf_bump ..).trans (clockOf_leaveInput ..)

/-- A packet that a check refuses leaves its input and draws a FAIL. -/
theorem clockOf_collRefused (i p f s) : clockOf (inject i f (countFail i (leaveInput i p s))) = clockOf s :=
  (clockOf_inject ..).trans ((clockOf_countFail ..).trans (clockOf_leaveInput ..))

theorem clockOf_finishOp (g q s) : clockOf (finishOp g q s) = clockOf s := by
  unfold finishOp
  split
  · rfl
  · refine clockOf_ite rfl ?_
    extract_lets js t
    have ht : clockOf t = clockOf s := clockOf_foldl (fun _ _ => clockOf_sendRecord ..) ..
    exact clockOf_ite ((clockOf_closeOp ..).trans ht) ((clockOf_setOp ..).trans ht)

theorem clockOf_writeRecord (g q j i s) : clockOf (writeRecord g q j i s) = clockOf s := by
  unfold writeRecord
  split
  · rfl
  · exact clockOf_ite rfl ((clockOf_setOp ..).trans (clockOf_sendRecord ..))

theorem clockOf_startDiscarded (g p s) : clockOf (startDiscarded g p s) = clockOf s :=
  (clockOf_raiseEv ..).trans (clockOf_bump ..)

theorem clockOf_settleTemplates (g s) : clockOf (settleTemplates g s) = clockOf s := clockOf_modGroup ..

theorem clockOf_bindOp (g e p j t s) : clockOf (bindOp g e p j t s) = clockOf s := by
  unfold bindOp
  extract_lets q _ o u
  have hu : clockOf u = clockOf s := (clockOf_bump ..).trans ((clockOf_setOp ..).trans (clockOf_modGroup ..))
  split
  · exact (clockOf_failOp ..).trans hu
  · exact (clockOf_finishOp ..).trans hu

theorem clockOf_refuseStart (g e p j st s) : clockOf (refuseStart g e p j st s) = clockOf s := by
  unfold refuseStart
  split
  · exact clockOf_startDiscarded ..
  · exact clockOf_sendRecord ..

/-- A start that is turned away leaves its input first. -/
theorem clockOf_refuseStart_leaveInput (g e p j st i s) : clockOf (refuseStart g e p j st (leaveInput i p s)) = clockOf s :=
  (clockOf_refuseStart ..).trans (clockOf_leaveInput ..)

theorem clockOf_startDiscarded_leaveInput (g p i s) : clockOf (startDiscarded g p (leaveInput i p s)) = clockOf s :=
  (clockOf_startDiscarded ..).trans (clockOf_leaveInput ..)

theorem clockOf_join (g j p o s) : clockOf (collStart.join g j p o s) = clockOf s :=
  (clockOf_finishOp ..).trans ((clockOf_modOp ..).trans (clockOf_ite (clockOf_startDiscarded ..) rfl))

/-- A start that does not wait leaves the clock alone. -/
theorem clockOf_of_collStart {g e i j p s t} (h : collStart g e i j p s = some t) : clockOf t = clockOf s := by
  have hjoin : ∀ o, clockOf (collStart.join g j p o (leaveInput i p s)) = clockOf s :=
    fun _ => (clockOf_join ..).trans (clockOf_leaveInput ..)
  unfold collStart at h
  extract_lets q u at h
  have hu : clockOf u = clockOf s := clockOf_settleTemplates ..
  split at h
  · cases h
  · cases h
    exact clockOf_refuseStart_leaveInput ..
  · split at h
    · split at h
      · cases h
        exact hjoin _
      · cases h
        exact clockOf_refuseStart_leaveInput ..
    · cases h
      exact clockOf_refuseStart_leaveInput ..
  · split at h
    · split at h
      · cases h
        exact hjoin _
      · split at h
        · cases h
        · cases h
          exact clockOf_startDiscarded_leaveInput ..
    · split at h
      · cases h
        exact clockOf_startDiscarded_leaveInput ..
      · split at h
        · cases h
          exact clockOf_refuseStart_leaveInput ..
        · split at h
          · cases h
            exact (clockOf_startDiscarded_leaveInput ..).trans hu
          · cases h
            exact (clockOf_bindOp ..).trans ((clockOf_leaveInput ..).trans hu)

theorem clockOf_takeStart (i p s) : clockOf (takeStart i p s) = clockOf s := by
  unfold takeStart
  extract_lets g e
  refine clockOf_ite rfl (clockOf_ite (clockOf_holdIn ..) ?_)
  split
  · exact clockOf_collDiscard ..
  · exact clockOf_ite (clockOf_refuseStart_leaveInput ..) (clockOf_collRefused ..)
  · exact clockOf_collRefused ..
  · exact clockOf_collDiscard ..
  · cases hstart : collStart g e i _ p s with
    | none => exact clockOf_holdIn ..
    | some t => exact clockOf_of_collStart hstart

/-- A packet of an operation leaves the clock alone where its acceptance does. -/
theorem clockOf_withOp {i p op s body} (h : ∀ w o s, clockOf (body w o s) = clockOf s) : clockOf (withOp i p op s body) = clockOf s := by
  unfold withOp
  extract_lets g e e' w
  refine clockOf_ite rfl (clockOf_ite (clockOf_holdIn ..) ?_)
  split
  · exact clockOf_collRefused ..
  · exact clockOf_collDiscard ..
  · exact clockOf_holdIn ..
  · exact h ..

theorem clockOf_toPeers (g q o op low last bs s) : clockOf (toPeers g q o op low last bs s) = clockOf s :=
  clockOf_foldl (fun _ _ => clockOf_inject ..) ..

theorem clockOf_takeArrive (i p s) : clockOf (takeArrive i p s) = clockOf s := by
  refine clockOf_withOp fun w o s => ?_
  extract_lets g q t o' tell u
  have hu : clockOf u = clockOf s := (clockOf_setOp ..).trans (clockOf_leaveInput ..)
  refine clockOf_ite (clockOf_collDiscard ..) ?_
  exact (clockOf_finishOp ..).trans (clockOf_ite ((clockOf_toPeers ..).trans hu) hu)

theorem clockOf_sendLayout (o s k) : clockOf (sendLayout o s k) = clockOf s := by
  unfold sendLayout
  extract_lets m body
  split
  · rfl
  · exact clockOf_sendTo ..

theorem clockOf_layOut (g q o s) : clockOf (layOut g q o s) = clockOf s :=
  (clockOf_finishOp ..).trans ((clockOf_foldl (fun _ _ => clockOf_foldl (fun _ _ => clockOf_ite (clockOf_writeRecord ..) rfl) ..) ..).trans
    ((clockOf_foldl (clockOf_sendLayout o) ..).trans (clockOf_setOp ..)))

theorem clockOf_takeCounts (i p s) : clockOf (takeCounts i p s) = clockOf s := by
  refine clockOf_withOp fun w o s => ?_
  extract_lets g q
  split
  · refine clockOf_ite (clockOf_collDiscard ..) ?_
    extract_lets o' t
    have ht : clockOf t = clockOf s := (clockOf_setOp ..).trans (clockOf_leaveInput ..)
    exact clockOf_ite ht (clockOf_ite ((clockOf_layOut ..).trans ht) ((clockOf_failOp ..).trans ht))
  · exact clockOf_collDiscard ..

theorem clockOf_takeBlock (i j p o s) : clockOf (takeBlock i j p o s) = clockOf s := by
  unfold takeBlock
  extract_lets g k off n bs t
  split
  · exact clockOf_collDiscard ..
  · refine clockOf_ite (clockOf_collDiscard ..) (clockOf_ite ((clockOf_failOp ..).trans (clockOf_leaveInput ..)) ?_)
    have ht : clockOf t = clockOf s := clockOf_ite (clockOf_bump ..) rfl
    split
    next units part _ =>
    extract_lets u ps
    have hu : clockOf u = clockOf t := by
      unfold u
      split
      · exact (clockOf_modIn ..).trans (clockOf_setPairs ..)
      · rfl
    exact (clockOf_foldl (fun _ _ => clockOf_enqueue ..) ..).trans (hu.trans ht)

theorem clockOf_giveRoom (g q tile need spill reserve s) : clockOf (giveRoom g q tile need spill reserve s) = clockOf s := by
  unfold giveRoom
  extract_lets t _ u v
  have hv : clockOf v = clockOf s := (clockOf_modOp ..).trans (clockOf_setHawk ..)
  exact clockOf_ite ((clockOf_modGroup ..).trans ((clockOf_bump ..).trans hv)) ((clockOf_bump ..).trans ((clockOf_setHawk ..).trans hv))

theorem clockOf_askRoom (g q o tile s) : clockOf (askRoom g q o tile s) = clockOf s :=
  clockOf_ite rfl (clockOf_ite (clockOf_giveRoom ..) ((clockOf_bump ..).trans (clockOf_setHawk ..)))

theorem clockOf_takeTile (i w p o s) : clockOf (takeTile i w p o s) = clockOf s := by
  unfold takeTile
  extract_lets g q tile bad t u
  have ht : clockOf t = clockOf s := clockOf_ite rfl (clockOf_askRoom ..)
  have hu : clockOf u = clockOf s := (clockOf_modEntry ..).trans ((clockOf_standIn ..).trans ht)
  refine clockOf_ite (clockOf_collDiscard ..) ?_
  split
  · exact clockOf_ite ((clockOf_toPeers ..).trans hu) hu
  · exact hu

theorem clockOf_takeContrib (i p s) : clockOf (takeContrib i p s) = clockOf s := by
  refine clockOf_withOp fun w o s => ?_
  split
  · exact clockOf_collDiscard ..
  · exact clockOf_ite (clockOf_takeBlock ..) (clockOf_holdIn ..)
  · exact clockOf_collDiscard ..
  · exact clockOf_takeTile ..

theorem clockOf_takeColl (i p s) : clockOf (takeColl i p s) = clockOf s :=
  clockOf_ite (clockOf_ite (clockOf_takeStart ..) rfl) (clockOf_ite (clockOf_takeContrib ..)
    (clockOf_ite (clockOf_takeArrive ..) (clockOf_ite (clockOf_takeCounts ..) rfl)))

theorem clockOf_collRetry (s) : clockOf (collRetry s) = clockOf s :=
  clockOf_foldl (fun _ _ => clockOf_foldl (fun _ _ => clockOf_takeColl ..) ..) ..

end Machine
end Sys2Proof
end

section
/-!
PROOF. The rest of a slot leaves the clock alone as well: additions, held and spilled cells of the Hawk (R469 to R489), and what the
links send (R192 to R213). With it, CORE_SLOT's own clauses (R240, R43).
-/
namespace Sys2Proof
namespace Machine

/-! ### Additions in the slices -/

theorem clockOf_modTile (g q tile f s) : clockOf (modTile g q tile f s) = clockOf s := clockOf_modOp ..

theorem clockOf_freeBytes (n s) : clockOf (freeBytes n s).2 = clockOf s := clockOf_setFree ..

theorem clockOf_emitResult (g q tile k acc s) : clockOf (emitResult g q tile k acc s) = clockOf s := by
  unfold emitResult
  split
  · rfl
  next o _ =>
    extract_lets out
    split
    extract_lets n bs
    split
    next pad t ht =>
    have ht : clockOf t = clockOf s := by rw [← clockOf_freeBytes _ s, ht]
    exact (clockOf_modTile ..).trans ((clockOf_bump ..).trans ((clockOf_setSlice ..).trans ((clockOf_setCore ..).trans ht)))

theorem clockOf_addCell (o g q stage2 tile c bs s) : clockOf (addCell o g q stage2 tile c bs s) = clockOf s := by
  unfold addCell
  extract_lets m t
  have ht : clockOf t = clockOf s := by
    unfold t
    split
    · exact clockOf_bump ..
    · rfl
  exact (clockOf_modTile ..).trans ((clockOf_setHawk ..).trans ht)

/-- The module's own partial leaves the clock alone where the position that it may complete does. -/
theorem clockOf_ownPartial {g q tile n} (h : ∀ stage2 c s, clockOf (finishPos g q tile n stage2 c s) = clockOf s) (o c bs s) :
    clockOf (finishPos.ownPartial g q tile n o c bs s) = clockOf s := by
  unfold finishPos.ownPartial
  split
  · rfl
  · extract_lets p r p' t
    have ht : clockOf t = clockOf s := clockOf_modTile ..
    exact clockOf_ite ((h ..).trans ((clockOf_addCell ..).trans ht)) ((clockOf_modTile ..).trans ht)

theorem clockOf_finishPos (g q tile) : ∀ n stage2 c s, clockOf (finishPos g q tile n stage2 c s) = clockOf s
  | 0, _, _, _ => by rw [finishPos]
  | n + 1, stage2, c, s => by
    unfold finishPos
    split
    · extract_lets p t several k bs at_ total u
      have ht : clockOf t = clockOf s := clockOf_modTile ..
      have hu : clockOf u = clockOf s := (clockOf_toPeers ..).trans ht
      refine clockOf_ite rfl (clockOf_ite ?_ (clockOf_ite ?_ ((clockOf_emitResult ..).trans ht)))
      · split
        · exact ht
        · exact clockOf_ite ((clockOf_emitResult ..).trans ht) ht
      · exact (clockOf_foldl (fun _ _ => clockOf_ownPartial (clockOf_finishPos g q tile n) ..) ..).trans hu
    · rfl

theorem clockOf_keepCell (g q stage2 tile c idx bs s) : clockOf (keepCell g q stage2 tile c idx bs s) = clockOf s := by
  unfold keepCell
  split
  · rfl
  · exact clockOf_ite ((clockOf_bump ..).trans (clockOf_modTile ..))
      ((clockOf_bump ..).trans ((clockOf_modTile ..).trans (clockOf_setHawk ..)))

theorem clockOf_slicesCell (g q stage2 tile c idx bs s) : clockOf (slicesCell g q stage2 tile c idx bs s) = clockOf s := by
  unfold slicesCell
  split
  · extract_lets p t u
    have ht : clockOf t = clockOf s := clockOf_ite (clockOf_bump ..) rfl
    have hu : clockOf u = clockOf s := (clockOf_modTile ..).trans ht
    exact clockOf_ite ((clockOf_raiseEv ..).trans (clockOf_bump ..))
      (clockOf_ite ((clockOf_finishPos ..).trans ((clockOf_addCell ..).trans hu)) ((clockOf_keepCell ..).trans hu))
  · rfl

/-! ### The Hawk in a slot -/

theorem clockOf_hawkBad (g q s) : clockOf (hawkBad g q s) = clockOf s := (clockOf_failOp ..).trans (clockOf_bump ..)

theorem clockOf_hawkReadBad (g q s) : clockOf (hawkReadBad g q s) = clockOf s := (clockOf_raiseEv ..).trans (clockOf_hawkBad ..)

theorem clockOf_of_some {s u t : State} (h : some u = some t) (hu : clockOf u = clockOf s) : clockOf t = clockOf s := by
  cases h
  exact hu

/-- A contribution cell that does not wait at its slice leaves the clock alone. -/
theorem clockOf_of_hawkCell {errs c s t} (h : hawkCell errs c s = some t) : clockOf t = clockOf s := by
  unfold hawkCell at h
  split at h
  · exact clockOf_of_some h rfl
  · extract_lets at_ gone at h
    have hgone : clockOf gone = clockOf s := clockOf_bump ..
    split at h
    · exact clockOf_of_some h hgone
    · split at h
      · exact clockOf_of_some h hgone
      · split at h
        · exact clockOf_of_some h (clockOf_hawkBad ..)
        · split at h
          · split at h
            · exact clockOf_of_some h ((clockOf_raiseEv ..).trans (clockOf_bump ..))
            · exact clockOf_of_some h hgone
          · extract_lets p m twice adds at h
            split at h
            · cases h
            · split at h
              · exact clockOf_of_some h (clockOf_hawkReadBad ..)
              · split at h
                · cases h
                · exact clockOf_of_some h ((clockOf_slicesCell ..).trans (clockOf_bump ..))

theorem clockOf_landSlice (errs s m) : clockOf (landSlice errs s m) = clockOf s := by
  refine clockOf_ite rfl ((clockOf_foldl (fun s c => ?_) ..).trans (clockOf_setSlice ..))
  cases hcell : hawkCell errs c s with
  | some t => exact clockOf_of_hawkCell hcell
  | none => exact clockOf_setSlice ..

theorem clockOf_hawkLand (errs s) : clockOf (hawkLand errs s) = clockOf s := clockOf_foldl (clockOf_landSlice errs) ..

theorem clockOf_serveTurn (errs s x) : clockOf (serveTurn errs s x) = clockOf s := by
  unfold serveTurn
  split
  · extract_lets m p serve
    have hserve : ∀ h p s, clockOf (serve h p s) = clockOf s :=
      fun _ _ _ => (clockOf_finishPos ..).trans ((clockOf_addCell ..).trans (clockOf_modTile ..))
    refine clockOf_ite rfl (clockOf_ite (clockOf_hawkReadBad ..) ?_)
    split
    · exact hserve ..
    · exact clockOf_ite rfl ((hserve ..).trans ((clockOf_bump ..).trans (clockOf_setHawk ..)))
    · rfl
  · rfl

theorem clockOf_hawkServe (errs s) : clockOf (hawkServe errs s) = clockOf s := clockOf_foldl (clockOf_serveTurn errs) ..

theorem clockOf_returnAt (g q tile stage2 s x) : clockOf (returnAt g q tile stage2 s x) = clockOf s := by
  unfold returnAt
  split
  · exact clockOf_ite rfl ((clockOf_bump ..).trans ((clockOf_modTile ..).trans (clockOf_setHawk ..)))
  · rfl

theorem clockOf_returnTile (x : Fin 1024 × Fin 16 × TileRec) (s : State) :
    clockOf (x.2.2.pos2.foldl (returnAt x.1 x.2.1 x.2.2.tile true) (x.2.2.pos1.foldl (returnAt x.1 x.2.1 x.2.2.tile false) s)) =
      clockOf s :=
  (clockOf_foldl (clockOf_returnAt _ _ _ _) ..).trans (clockOf_foldl (clockOf_returnAt _ _ _ _) ..)

theorem clockOf_hawkReturn (s) : clockOf (hawkReturn s) = clockOf s := clockOf_foldl (fun s x => clockOf_returnTile x s) (roomTiles s) s

theorem clockOf_releaseTile (g q tile s) : clockOf (releaseTile g q tile s) = clockOf s := by
  unfold releaseTile
  split
  · rfl
  · exact (clockOf_bump ..).trans ((clockOf_returnRoom ..).trans (clockOf_modOp ..))

theorem clockOf_hawkRelease (s) : clockOf (hawkRelease s) = clockOf s := by
  refine clockOf_foldl (fun s g => clockOf_ite rfl (clockOf_foldl (fun s q => ?_) ..)) ..
  split
  · exact clockOf_foldl (fun s (t : TileRec) => clockOf_releaseTile g q t.tile s) ..
  · rfl

/-! ### What the links send -/

theorem clockOf_closeFrame (l s) : clockOf (closeFrame l s) = clockOf s := by
  unfold closeFrame
  extract_lets k
  split
  · rfl
  · exact (clockOf_modLink ..).trans (clockOf_foldl (fun _ _ => clockOf_modLane ..) ..)

theorem clockOf_rebuildFrames (l s) : clockOf (rebuildFrames l s) = clockOf s := by
  unfold rebuildFrames
  extract_lets k
  split
  · exact clockOf_setLink ..
  · rfl

theorem clockOf_takeWidth (l m s) : clockOf (takeWidth l m s) = clockOf s :=
  clockOf_ite rfl (clockOf_ite ((clockOf_rebuildFrames ..).trans (clockOf_setLink ..)) (clockOf_setLink ..))

theorem clockOf_putFrame (l f room s) : clockOf (putFrame l f room s) = clockOf s := clockOf_modLink ..

theorem clockOf_newFrame (l f room s) : clockOf (newFrame l f room s) = clockOf s :=
  (clockOf_putFrame ..).trans (clockOf_setLink ..)

theorem clockOf_dataFrame (l body q t s) : clockOf (dataFrame l body q t s) = clockOf s := by
  unfold dataFrame
  extract_lets k
  split
  · exact (clockOf_newFrame ..).trans (clockOf_setLink ..)
  · exact (clockOf_putFrame ..).trans ((clockOf_setLink ..).trans (clockOf_ite rfl (clockOf_bump ..)))

theorem clockOf_sendLinkFrame (l body s) : clockOf (sendLinkFrame l body s) = clockOf s := by
  unfold sendLinkFrame
  extract_lets k
  split
  · exact clockOf_ite (clockOf_putFrame ..) ((clockOf_putFrame ..).trans (clockOf_setLink ..))
  · refine clockOf_ite (clockOf_putFrame ..) ?_
    split
    · exact (clockOf_newFrame ..).trans (clockOf_setLink ..)
    · exact clockOf_dataFrame ..
    · exact clockOf_putFrame ..

theorem clockOf_frameBoundary (l s) : clockOf (frameBoundary l s) = clockOf s := by
  unfold frameBoundary
  extract_lets named t u k bs v
  have hu : clockOf u = clockOf s := by
    unfold u named
    split
    · exact (clockOf_takeWidth ..).trans (clockOf_closeFrame ..)
    · exact clockOf_closeFrame ..
  exact (clockOf_sendLinkFrame ..).trans ((clockOf_setLink ..).trans hu)

theorem clockOf_linkSlot (l s) : clockOf (linkSlot l s) = clockOf s := by
  unfold linkSlot
  extract_lets t
  have ht : clockOf t = clockOf s := clockOf_ite (clockOf_frameBoundary ..) rfl
  refine clockOf_ite rfl ?_
  split
  · exact clockOf_ite ((clockOf_bump ..).trans ht) ht
  · exact ht

theorem clockOf_countStalls (l s) : clockOf (countStalls l s) = clockOf s := by
  refine clockOf_ite rfl (clockOf_foldl (fun t v => ?_) ..)
  split
  · split
    · exact clockOf_bump ..
    · exact clockOf_bump ..
    · exact clockOf_bump ..
    · rfl
  · rfl

theorem clockOf_ethCount (l which s) : clockOf (ethCount l which s) = clockOf s := by
  refine clockOf_foldl (fun t v => ?_) ..
  split
  · split
    · exact clockOf_bump ..
    · rfl
  · rfl

theorem clockOf_portSlot (s l) : clockOf (portSlot s l) = clockOf s := by
  unfold portSlot
  split
  · exact clockOf_ethCount ..
  · exact (clockOf_linkSlot ..).trans (clockOf_countStalls ..)

/-! ### CORE_SLOT -/

/-- The state at a slot's end, before the slot is counted (R240, R43). -/
def slotWork (s : State) : State :=
  let f := (slotFaults s).1
  let u := hawkRelease (hawkReturn (hawkServe f.hawk (hawkLand f.hawk (coreCross f.cells (collRetry (settled (slotFaults s).2))))))
  allLinks.foldl portSlot (sampleDepths (depthOf u) u)

theorem clockOf_slotWork (s) : clockOf (slotWork s) = clockOf (settled (slotFaults s).2) :=
  (clockOf_foldl clockOf_portSlot ..).trans ((clockOf_sampleDepths ..).trans ((clockOf_hawkRelease ..).trans ((clockOf_hawkReturn ..).trans
    ((clockOf_hawkServe ..).trans ((clockOf_hawkLand ..).trans ((clockOf_coreCross ..).trans (clockOf_collRetry ..)))))))

/-- Within the tick's slots CORE_SLOT does the slot's work and counts the slot. -/
theorem coreSlot_eq {s : State} (h : s.tick.slot < s.tick.len) : exec .coreSlot s =
    .next { slotWork s with tick.slot := (slotWork s).tick.slot + 1, tick.ns := (slotWork s).tick.ns + 1 } :=
  congrArg Host.Outcome.next (if_neg (Nat.not_le.mpr h))

/-- Of the tick, a slot changes its count and the time alone. -/
theorem coreSlot_tick {s : State} (h : s.tick.slot < s.tick.len) (htodo : s.tick.todo = []) :
    Completes .coreSlot s fun t => t.tick = { s.tick with slot := s.tick.slot + 1, ns := s.tick.ns + 1 } := by
  refine ⟨_, coreSlot_eq h, ?_⟩
  have htick : (slotWork s).tick = s.tick := by
    obtain ⟨htick, -⟩ := clockOf_eq_iff.mp (clockOf_slotWork s)
    rw [htick, settled, runInner_idle (s := (slotFaults s).2) htodo]
    rfl
  simp only [htick]

theorem coreSlot_over {s : State} (h : s.tick.len ≤ s.tick.slot) : NoEffect .coreSlot s :=
  congrArg Host.Outcome.next (if_pos h)

end Machine
end Sys2Proof
end

section
/-!
PROOF. The two stages and the loans of a slot (R240, R241, R251, R252, R255): which slice and which output a crossing writes, and what a
cell or packet must meet to cross.
-/
namespace Sys2Proof
namespace Machine

/-! ### A port or slice read after it is written -/

section
variable {s : State}

theorem inPort_setIn_same (h : tblWf {} s.core.inp = true) (i : PortId) (v : InPort) : inPort (setIn s i v) i = v :=
  tblGet_tblSet_self _ _ _ _ h

theorem midSlice_setSlice_same (h : tblWf {} s.core.slice = true) (m : PortId) (v : Slice) : midSlice (setSlice s m v) m = v :=
  tblGet_tblSet_self _ _ _ _ h

theorem outPort_setOut_same (h : tblWf {} s.core.out = true) (o : PortId) (v : OutPort) : outPort (setOut s o v) o = v :=
  tblGet_tblSet_self _ _ _ _ h

theorem tblWf_setOut (h : tblWf {} s.core.out = true) (o : PortId) (v : OutPort) : tblWf {} (setOut s o v).core.out = true :=
  tblWf_tblSet _ _ _ _ h

end

/-! ### Stage one writes the slice that the input meets (R240, R241) -/

theorem trimBlocks_slice (i o s) : (trimBlocks i o s).core.slice = s.core.slice := by
  unfold trimBlocks
  extract_lets q b keep
  split
  · rfl
  · rfl

theorem enqueueNow_slice (i k o u q bad hold p s r) : (enqueueNow i k o u q bad hold p s r).core.slice = s.core.slice := by
  unfold enqueueNow
  extract_lets inp n key sq ct e inp' pairs
  obtain ⟨r, h⟩ := touchUnder_route p.coat (setIn { s with core.uid := s.core.uid + 1, counts.pairs := pairs } i inp')
  rw [h]
  rfl

theorem admitEntering_slice (i) : ∀ (n : Nat) (s : State), (admitEntering i n s).core.slice = s.core.slice
  | 0, _ => rfl
  | n + 1, s => by
    unfold admitEntering
    split
    · rfl
    · split
      · exact (admitEntering_slice i n _).trans (enqueueNow_slice ..)
      · rfl

theorem freeUnits_slice (i q u s) : (freeUnits i q u s).core.slice = s.core.slice := by
  unfold freeUnits
  extract_lets t
  split
  · split
    · rfl
    · rfl
  · exact admitEntering_slice ..

/-- A cell stored in slice `m` leaves every other slice as it was. -/
theorem slice_setSlice_ne {m : PortId} {n : Nat} (h : n ≠ m.val) (s : State) (c : Slice) :
    tblGet {} (setSlice s m c).core.slice n = tblGet {} s.core.slice n := tblGet_tblSet_ne _ _ _ _ _ h

theorem crossContrib_slice {m : PortId} {n : Nat} (h : n ≠ m.val) (i e s) :
    tblGet {} (crossContrib i m e s).core.slice n = tblGet {} s.core.slice n := by
  unfold crossContrib
  split
  · rw [freeUnits_slice]
    exact slice_setSlice_ne h ..
  · rfl

theorem crossOne_slice {m : PortId} {n : Nat} (h : n ≠ m.val) (i e s) :
    tblGet {} (crossOne i m e s).core.slice n = tblGet {} s.core.slice n := by
  unfold crossOne
  extract_lets outs start u t t' c t'' t'''
  have ht : t'.core.slice = s.core.slice := by
    unfold t' t
    split <;> rfl
  have ht'' : tblGet {} t''.core.slice n = tblGet {} s.core.slice n := by
    unfold t''
    split
    · rw [ht]
    · rw [slice_setSlice_ne h, ht]
  have ht''' : tblGet {} t'''.core.slice n = tblGet {} s.core.slice n := by
    unfold t'''
    rw [freeUnits_slice]
    exact ht''
  split
  · rw [trimBlocks_slice, ht''']
  · exact ht'''

/-- Of the slices, stage one for input `i` writes that which the input meets, (i + slot) mod 128, alone. -/
theorem stageOne_slice {s : State} {i : PortId} {n : Nat} (h : n ≠ (i.val + s.tick.slot) % 128) :
    tblGet {} (stageOne s i).core.slice n = tblGet {} s.core.slice n := by
  unfold stageOne
  extract_lets m
  split
  · split
    · exact crossContrib_slice h ..
    · exact crossOne_slice h ..
  · rfl

/-! ### Stage two writes the output that the slice meets (R240, R241, R251, R252) -/

theorem sendOut_outPort {o p : PortId} (h : p ≠ o) (m bad e s) : outPort (sendOut m o bad e s) p = outPort s p :=
  tblGet_tblSet_ne _ _ _ _ _ (fun hv => h (Fin.ext hv))

theorem HostOnly.outPort {s t : State} (h : HostOnly s t) (o : PortId) : Machine.outPort t o = Machine.outPort s o := by
  rw [h.eq]
  rfl

/-- Of the outputs, stage two for slice `m` writes that which the slice meets, (m + slot) mod 128, alone. -/
theorem stageTwo_outPort {s : State} {m o : PortId} (h : o.val ≠ (m.val + s.tick.slot) % 128) (errs) :
    outPort (stageTwo errs s m) o = outPort s o := by
  have hne : o ≠ portOf (m.val + s.tick.slot) := fun e => h (congrArg Fin.val e)
  unfold stageTwo
  extract_lets o'
  split
  · rfl
  · split
    · rw [sendOut_outPort hne]
      exact (raiseEv_host ..).outPort o
    · exact sendOut_outPort hne ..

/-- A cell that crosses stage two came in an earlier slot, waits for that output, and has a replica credit unless it is a unicast
one. -/
theorem pickOut_spec {s : State} {c : Slice} {o : PortId} {e : SliceCell} (h : pickOut s c o = some e) :
    e ∈ c.cells ∧ e.enter < s.tick.ns ∧ o ∈ e.outs ∧ (e.cell.kind ≠ .unicast → tblGet 0 c.repl o.val < 2) := by
  unfold pickOut at h
  extract_lets wait at h
  have hwait : e ∈ wait → e ∈ c.cells ∧ e.enter < s.tick.ns ∧ o ∈ e.outs := fun he => by
    obtain ⟨hmem, hcond⟩ := List.mem_filter.mp he
    simp only [Bool.and_eq_true, List.contains_iff_mem, decide_eq_true_eq] at hcond
    exact ⟨hmem, hcond.2, hcond.1⟩
  split at h
  next x hfind =>
    cases h
    obtain ⟨hmem, hns, hout⟩ := hwait (List.mem_of_find?_eq_some hfind)
    have hcond := List.find?_some hfind
    simp only [replFree, Bool.and_eq_true, decide_eq_true_eq] at hcond
    exact ⟨hmem, hns, hout, fun _ => hcond.2⟩
  next =>
    obtain ⟨hmem, hns, hout⟩ := hwait (List.mem_of_find?_eq_some h)
    have hcond := List.find?_some h
    simp only [replFree, Bool.or_eq_true, Bool.and_eq_true, decide_eq_true_eq] at hcond
    exact ⟨hmem, hns, hout, fun hk => (hcond.resolve_left hk).2⟩

/-! ### What may cross stage one (R249, R254) -/

section
variable {s : State} {i m : PortId} {e : InPkt} (h : eligibleIn s i m e = true)
include h

/-- A unicast packet starts only with credits for every cell of it. -/
theorem eligibleIn_credits (hk : e.kind = .unicast) (h0 : e.crossed = 0) : e.count ≤ creditsFree (inPort s i) e.out := by
  simp only [eligibleIn, hk, h0, reduceCtorEq, if_false, Bool.and_eq_true] at h
  simpa using h.2

/-- A cell crosses only to a slice with room in the queue of each of its outputs. -/
theorem eligibleIn_room (hk : e.kind ≠ .contrib) : ∀ o ∈ entryOuts s e, sliceQueued (midSlice s m) o < 16 := by
  simp only [eligibleIn, hk, if_false, Bool.and_eq_true, List.all_eq_true, decide_eq_true_eq] at h
  obtain ⟨⟨⟨-, hroom⟩, -⟩, -⟩ := h
  exact hroom

end

/-! ### Loans (R255) -/

/-- The blocks that an input borrows stay within the output's shared share. -/
theorem lendOne_lent {s : State} {o : PortId} (hw : tblWf {} s.core.out = true) (hl : (outPort s o).lent ≤ 64) (i : PortId) :
    (outPort (lendOne i s o) o).lent ≤ 64 := by
  have h : (outPort (lendOne i s o) o).lent = (outPort s o).lent + min (lendWant s i o) (64 - (outPort s o).lent) :=
    congrArg OutPort.lent (outPort_setOut_same hw o _)
  omega

end Machine
end Sys2Proof
end

section
/-!
PROOF. The output stage (R257, R259, R265, R266): the arrival of a unicast cell in order, the age sweep, and a whole packet's way to its
egress queue or its function.
-/
namespace Sys2Proof
namespace Machine

/-! ### Two writes to one key -/

section
variable {α : Type} [DecidableEq α] {d : α}

theorem tblInsert_tblErase (k : Nat) (w : α) : ∀ t : Tbl α, tblWf d t = true → tblInsert (tblErase t k) k w = tblInsert t k w
  | [], _ => rfl
  | (i, x) :: t, hw => by
    simp only [tblWf, Bool.and_eq_true, decide_eq_true_eq] at hw
    obtain ⟨⟨-, habove⟩, ht⟩ := hw
    rcases lt_trichotomy i k with h | rfl | h
    · simp [tblInsert, tblErase, h.ne, h.not_gt, tblInsert_tblErase k w t ht]
    · cases t with
      | nil => simp [tblInsert, tblErase]
      | cons y r =>
        have hlt : i < y.1 := by simpa [tblAbove] using habove
        simp [tblInsert, tblErase, hlt.ne', hlt]
    · simp [tblInsert, tblErase, h.ne', h]

theorem tblErase_tblErase (k : Nat) : ∀ t : Tbl α, tblWf d t = true → tblErase (tblErase t k) k = tblErase t k
  | [], _ => rfl
  | (i, x) :: t, hw => by
    simp only [tblWf, Bool.and_eq_true, decide_eq_true_eq] at hw
    obtain ⟨⟨-, habove⟩, ht⟩ := hw
    rcases lt_trichotomy i k with h | rfl | h
    · simp [tblErase, h.ne, h.not_gt, tblErase_tblErase k t ht]
    · cases t with
      | nil => simp [tblErase]
      | cons y r =>
        have hlt : i < y.1 := by simpa [tblAbove] using habove
        simp [tblErase, hlt.ne', hlt]
    · simp [tblErase, h.ne', h]

/-- Of two writes to one key of a table in canonical form the second stands. -/
theorem tblSet_tblSet_of_wf {t : Tbl α} (h : tblWf d t = true) (k : Nat) (v w : α) : tblSet d (tblSet d t k v) k w = tblSet d t k w := by
  by_cases hv : v = d
  · have hset : tblSet d t k v = tblErase t k := if_pos hv
    rw [hset, tblSet, tblSet, tblErase_tblErase k t h, tblInsert_tblErase k w t h]
  · exact tblSet_tblSet hv t k w

end

theorem setOut_setOut {s : State} (h : tblWf {} s.core.out = true) (o : PortId) (v w : OutPort) :
    setOut (setOut s o v) o w = setOut s o w := by
  simp only [setOut, tblSet_tblSet_of_wf h]

theorem modOut_setOut {s : State} (h : tblWf {} s.core.out = true) (o : PortId) (f : OutPort → OutPort) (v : OutPort) :
    modOut o f (setOut s o v) = setOut s o (f v) := by
  rw [modOut, outPort_setOut_same h, setOut_setOut h]

/-! ### What leaves the state as it was -/

theorem streamLosses_none {s : State} (h : s.core.lost = []) : streamLosses s = s := by
  have hcore : ({ s.core with lost := [] } : Core) = s.core := by rw [← h]
  simp only [streamLosses, h, List.foldl_nil, hcore]

theorem dropBad_none {s : State} {o : PortId} (h : ∀ q ∈ (outPort s o).pkts, q.bad = false) : dropBad o s = s := by
  have hnil : (outPort s o).pkts.filter (fun q => q.bad && !q.cut) = [] :=
    List.filter_eq_nil_iff.mpr fun q hq => by simp [h q hq]
  simp only [dropBad, hnil, List.map_nil, List.foldl_nil]

theorem drainHeld_none {s : State} {o : PortId} (h : (outPort s o).held = []) (k n) : drainHeld o k n s = s := by
  cases n with
  | zero => rfl
  | succ n => simp [drainHeld, h]

/-! ### The one cell held at an output (R257) -/

/-- An output that has taken its one held cell: the expected value of the cell's stream has advanced. -/
def OutPort.taking (p : OutPort) (c : Cell) : OutPort :=
  { p with held := [], exp := tblSet 0 p.exp (streamOf c) (c.seq + 1) }

/-- The packet that a unicast cell opens at its output. -/
def openedPkt (s : State) (c : Cell) : OutPkt :=
  { uid := c.uid, pkt := c.pkt, kind := .unicast, src := c.src, count := c.count, have_ := 1, first := s.tick.ns, bad := c.bad,
    ref := c.ref }

/-- A cell that arrives now, as an output holds it. -/
def heldNow (s : State) (c : Cell) : HeldCell := { cell := c, arrived := s.tick.ns }

section
variable {s : State} {o : PortId} {p : OutPort} (hw : tblWf {} s.core.out = true)
include hw

/-- The held cell is taken where it is the next of its stream. -/
theorem drainHeld_one {h : HeldCell} (hh : p.held = [h]) (hseq : h.cell.seq = tblGet 0 p.exp (streamOf h.cell)) (n : Nat) :
    drainHeld o (streamOf h.cell) (n + 1) (setOut s o p) =
      drainHeld o (streamOf h.cell) n (acceptCell o h (setOut s o (p.taking h.cell))) := by
  simp only [drainHeld, outPort_setOut_same hw, setOut_setOut hw, hh, ← hseq, OutPort.taking]
  simp

/-- The place of a cell that was discarded is passed (R266). -/
theorem drainHeld_ghost {h : HeldCell} (hh : p.held = [h]) (hg : h.ghost = true)
    (hseq : h.cell.seq = tblGet 0 p.exp (streamOf h.cell)) :
    drainHeld o (streamOf h.cell) 2 (setOut s o p) = setOut s o (p.taking h.cell) := by
  have hskip : acceptCell o h (setOut s o (p.taking h.cell)) = setOut s o (p.taking h.cell) := if_pos hg
  rw [drainHeld_one hw hh hseq, hskip]
  exact drainHeld_none (by rw [outPort_setOut_same hw]; rfl) ..

/-- A first cell opens its packet. -/
theorem acceptCell_opens {c : Cell} (hdead : p.dead = []) (h0 : c.idx = 0) (hup : outDown s o = false) :
    acceptCell o (heldNow s c) (setOut s o p) = setOut s o { p with pkts := p.pkts ++ [openedPkt s c] } := by
  have hup' : outDown (setOut s o p) o = false := hup
  simp [acceptCell, heldNow, outPort_setOut_same hw, setOut_setOut hw, hdead, h0, hup', openedPkt]

/-- A unicast cell in order opens its packet, and the expected value of its stream advances. -/
theorem arriveUnicast_inOrder {c : Cell} (h0 : c.idx = 0) (hseq : c.seq = tblGet 0 p.exp (streamOf c)) (hage : cellAged s c = false)
    (hup : outDown s o = false) (hheld : p.held = []) (hdead : p.dead = []) :
    arriveUnicast o c (setOut s o p) = setOut s o { p.taking c with pkts := p.pkts ++ [openedPkt s c] } := by
  have hbehind : ¬ 32768 ≤ (c.seq - tblGet 0 p.exp (streamOf c)).toNat := by
    rw [← hseq, sub_self]
    decide
  have hage' : cellAged (setOut s o p) c = false := hage
  have hlive : p.dead.contains c.uid = false := by rw [hdead, List.contains_nil]
  have hhold : modOut o (fun p => { p with held := p.held ++ [heldNow s c] }) (setOut s o p) =
      setOut s o { p with held := [heldNow s c] } := by
    rw [modOut_setOut hw, hheld, List.nil_append]
  have harrive : arriveUnicast o c (setOut s o p) = drainHeld o (streamOf c) 2 (setOut s o { p with held := [heldNow s c] }) := by
    unfold arriveUnicast
    simp only [outPort_setOut_same hw, hbehind, if_false, hage', hlive, Bool.or_self, Bool.false_eq_true]
    exact (congrArg (fun t => drainHeld o (streamOf c) ((outPort t o).held.length + 1) t) hhold).trans (by rw [outPort_setOut_same hw]; rfl)
  rw [harrive]
  refine (drainHeld_one (p := { p with held := [heldNow s c] }) hw rfl hseq 1).trans ?_
  rw [acceptCell_opens hw (by exact hdead) (by exact h0) hup, drainHeld_none (by rw [outPort_setOut_same hw]; rfl)]
  rfl

end

/-! ### CELL_ARRIVE_OUTPUT -/

/-- The output after a unicast cell in order has arrived as the first of its packet. -/
def arrivedPort (s : State) (o : PortId) (c : Cell) (rest : List (Cell × Nat)) : OutPort :=
  { (outPort s o).taking c with arriving := rest, pkts := (outPort s o).pkts ++ [openedPkt s c] }

section
variable {s : State} {o : PortId} {c : Cell} {m : Nat} {rest : List (Cell × Nat)}
  (harr : (outPort s o).arriving = (c, m) :: rest) (hk : c.kind = .unicast) (h0 : c.idx = 0) (hbad : c.bad = false)
  (hseq : c.seq = tblGet 0 (outPort s o).exp (8 * c.src.val + c.pkt.vc.val)) (hage : cellAged s c = false)
  (hup : outDown s o = false) (hheld : (outPort s o).held = []) (hdead : (outPort s o).dead = [])
  (hgood : ∀ q ∈ (outPort s o).pkts, q.bad = false) (hlost : s.core.lost = []) (hw : tblWf {} s.core.out = true)
include harr hk h0 hbad hseq hage hup hheld hdead hgood hlost hw

/-- Of the state, the arrival changes the output alone: it takes the cell, and forgets packets of which no cell can come any more. -/
theorem cellArrive_inOrder : ∃ d u, cellArrive o s = setOut s o { arrivedPort s o c rest with dead := d, quiet := u } := by
  have hcell : cellArrive o s =
      streamLosses (forgetDead o (dropBad o (arriveUnicast o c (setOut s o { outPort s o with arriving := rest })))) := by
    simp only [cellArrive, harr, hk]
    rfl
  have harrive : arriveUnicast o c (setOut s o { outPort s o with arriving := rest }) = setOut s o (arrivedPort s o c rest) :=
    arriveUnicast_inOrder hw h0 hseq hage hup hheld hdead
  have hpkts : ∀ q ∈ (outPort (setOut s o (arrivedPort s o c rest)) o).pkts, q.bad = false := by
    rw [outPort_setOut_same hw]
    exact List.forall_mem_append.mpr ⟨hgood, List.forall_mem_singleton.mpr hbad⟩
  rw [hcell, harrive, dropBad_none hpkts, forgetDead, modOut_setOut hw, streamLosses_none (by exact hlost)]
  exact ⟨_, _, rfl⟩

theorem cellArriveOutput_inOrder (hexp : tblWf 0 (outPort s o).exp = true) :
    Completes (.cellArriveOutput o) s fun t =>
      (∃ q, (outPort t o).pkts = (outPort s o).pkts ++ [q] ∧ q.uid = c.uid ∧ q.pkt = c.pkt ∧ q.have_ = 1 ∧ q.count = c.count
        ∧ q.first = s.tick.ns ∧ q.passed = false)
      ∧ tblGet 0 (outPort t o).exp (8 * c.src.val + c.pkt.vc.val) = c.seq + 1 ∧ (outPort t o).arriving = rest
      ∧ t = { s with core := t.core } := by
  obtain ⟨d, u, h⟩ := cellArrive_inOrder harr hk h0 hbad hseq hage hup hheld hdead hgood hlost hw
  refine ⟨_, congrArg Host.Outcome.next h, ?_⟩
  simp only [outPort_setOut_same hw]
  exact ⟨⟨openedPkt s c, rfl, rfl, rfl, rfl, rfl, rfl, rfl⟩, tblGet_tblSet_self _ _ _ _ hexp, rfl, rfl⟩

end

theorem cellArrive_nothing {s : State} {o : PortId} (h : (outPort s o).arriving = []) : cellArrive o s = s := by
  simp only [cellArrive, h]

/-! ### The age sweep (R265, R266) -/

theorem cellAgeSweep_nothing {s : State} {o : PortId} (h : 1024 ≤ s.tick.slot
    ∨ lowestHeld s.tick.ns (tblGet 0 (outPort s o).exp s.tick.slot) s.tick.slot (outPort s o).held = none) (hlost : s.core.lost = []) :
    NoEffect (.cellAgeSweep o) s := by
  have hsweep : ageSweep o s = s := by
    rcases h with h | h
    · exact if_pos h
    · simp only [ageSweep, h, ite_self]
  exact congrArg Host.Outcome.next (by rw [hsweep, streamLosses_none hlost])

theorem trimBlocks_ports (i o s) : ∃ a b, trimBlocks i o s = { s with core.inp := a, core.out := b } := by
  unfold trimBlocks
  extract_lets q b keep
  split
  · exact ⟨s.core.inp, s.core.out, rfl⟩
  · exact ⟨_, _, rfl⟩

/-- A cell's credit that returns changes inputs and outputs alone. -/
theorem freeCredits_ports (i o n s) : ∃ a b, freeCredits i o n s = { s with core.inp := a, core.out := b } := by
  obtain ⟨a, b, h⟩ := trimBlocks_ports i o (modOut o (fun p => { p with free := p.free + n })
    (modIn i (fun q => { q with used := tblSet 0 q.used o.val (tblGet 0 q.used o.val - n) }) s))
  exact ⟨a, b, h⟩

/-- What the return of borrowed blocks changes of the output that lent them. -/
theorem trimBlocks_outPort {s : State} {o : PortId} (hw : tblWf {} s.core.out = true) (i) :
    (∃ l, outPort (trimBlocks i o s) o = { outPort s o with lent := l }) ∧ tblWf {} (trimBlocks i o s).core.out = true := by
  unfold trimBlocks
  extract_lets q b keep
  split
  · exact ⟨⟨_, rfl⟩, hw⟩
  · exact ⟨⟨_, outPort_setOut_same (s := setIn s i { q with blocks := tblSet 0 q.blocks o.val keep }) hw o _⟩, tblWf_setOut hw ..⟩

/-- What a cell's credit changes of its output: the free list and the blocks lent. -/
theorem freeCredits_outPort {s : State} {o : PortId} (hw : tblWf {} s.core.out = true) (i n) :
    (∃ f l, outPort (freeCredits i o n s) o = { outPort s o with free := f, lent := l })
      ∧ tblWf {} (freeCredits i o n s).core.out = true := by
  have hout := outPort_setOut_same (s := modIn i (fun q => { q with used := tblSet 0 q.used o.val (tblGet 0 q.used o.val - n) }) s) hw o
    { outPort s o with free := (outPort s o).free + n }
  obtain ⟨⟨l, h⟩, hw'⟩ := trimBlocks_outPort (s := modOut o (fun p => { p with free := p.free + n })
    (modIn i (fun q => { q with used := tblSet 0 q.used o.val (tblGet 0 q.used o.val - n) }) s)) (tblWf_setOut hw ..) i
  exact ⟨⟨(outPort s o).free + n, l, h.trans (congrArg (fun p : OutPort => { p with lent := l }) hout)⟩, hw'⟩

/-- The output whose one held cell is discarded: the cell's place in its stream stays. -/
def discardedPort (s : State) (o : PortId) (h : HeldCell) : OutPort :=
  { outPort s o with dead := [h.cell.uid], held := [{ h with ghost := true }] }

/-- The state with the output's one held cell dropped. -/
def cellDropped (s : State) (o : PortId) (h : HeldCell) : State := dropCell o h.cell (setOut s o (discardedPort s o h))

theorem cellDropped_spec {s : State} {o : PortId} (hw : tblWf {} s.core.out = true) (h : HeldCell) :
    (∃ f l, outPort (cellDropped s o h) o = { discardedPort s o h with free := f, lent := l })
      ∧ tblWf {} (cellDropped s o h).core.out = true ∧ (cellDropped s o h).core.lost = s.core.lost
      ∧ (cellDropped s o h).larder = s.larder := by
  obtain ⟨hout, hwf⟩ := freeCredits_outPort (o := o) (tblWf_setOut hw o (discardedPort s o h)) h.cell.src 1
  rw [outPort_setOut_same hw] at hout
  refine ⟨hout, hwf, ?_⟩
  obtain ⟨a, b, hports⟩ := freeCredits_ports h.cell.src o 1 (setOut s o (discardedPort s o h))
  rw [cellDropped, dropCell, hports]
  exact ⟨rfl, rfl⟩

section
variable {s : State} {o : PortId} {h : HeldCell} (hheld : (outPort s o).held = [h]) (hpkts : (outPort s o).pkts = [])
  (hdead : (outPort s o).dead = []) (hidx : h.cell.idx ≠ 0) (hghost : h.ghost = false) (hw : tblWf {} s.core.out = true)
include hheld hpkts hdead hidx hghost hw

/-- A held cell that is not the first of its packet is dropped without a FAIL (R266, R267). -/
theorem discardAt_held (st : BitVec 8) : discardAt o h.cell.uid st s = cellDropped s o h := by
  have hmark : markDead o h.cell.uid s = setOut s o { outPort s o with dead := [h.cell.uid] } := by
    simp [markDead, modOut, hdead]
  have hfree : freeHeld o h.cell.uid st (setOut s o { outPort s o with dead := [h.cell.uid] }) =
      dropCell o h.cell (failCell o st h.cell (setOut s o (discardedPort s o h))) := by
    simp [freeHeld, outPort_setOut_same hw, modOut_setOut hw, hheld, hghost, discardedPort]
  have hfail : ∀ t, failCell o st h.cell t = t := fun t => if_pos (by simp [hidx])
  have hnone : (outPort s o).pkts.find? (fun q => q.uid = h.cell.uid) = none := by rw [hpkts, List.find?_nil]
  simp only [discardAt, hmark, outPort_setOut_same hw, hnone]
  rw [hfree, hfail]
  rfl

variable (hst : streamOf h.cell = s.tick.slot) (hslot : s.tick.slot < 1024) (harr : h.arrived < s.tick.ns)
  (hage : cellAged s h.cell = true) (hseq : h.cell.seq ≠ tblGet 0 (outPort s o).exp s.tick.slot)
include hst hslot harr hage hseq

/-- The aged cell is dropped, its place becomes the expected one, and is passed. -/
theorem ageSweep_aged : ageSweep o s = forgetDead o (drainHeld o s.tick.slot 2 (modOut o
    (fun p => { p with exp := tblSet 0 p.exp s.tick.slot h.cell.seq }) (cellDropped s o h))) := by
  have hlow : lowestHeld s.tick.ns (tblGet 0 (outPort s o).exp s.tick.slot) s.tick.slot (outPort s o).held = some h := by
    simp [hheld, lowestHeld, hst, harr]
  have hkeep : (!cellAged s h.cell || decide (h.cell.seq = tblGet 0 (outPort s o).exp s.tick.slot)) = false := by
    rw [hage, decide_eq_false hseq]
    rfl
  unfold ageSweep
  simp only [Nat.not_le.mpr hslot, if_false, hlow, hkeep, Bool.false_eq_true, hpkts, List.filter_nil, List.foldl_nil, hghost,
    discardAt_held hheld hpkts hdead hidx hghost hw]
  rw [hheld]
  rfl

theorem cellAgeSweep_aged (hlost : s.core.lost = []) (hexp : tblWf 0 (outPort s o).exp = true) :
    Completes (.cellAgeSweep o) s fun t => (outPort t o).held = []
      ∧ tblGet 0 (outPort t o).exp s.tick.slot = h.cell.seq + 1 ∧ t.larder = s.larder := by
  obtain ⟨⟨f, l, hout⟩, hwu, hlostu, hlarder⟩ := cellDropped_spec hw h
  have hdrain : drainHeld o s.tick.slot 2
      (modOut o (fun p => { p with exp := tblSet 0 p.exp s.tick.slot h.cell.seq }) (cellDropped s o h)) =
      setOut (cellDropped s o h) o (OutPort.taking { discardedPort s o h with
        free := f, lent := l, exp := tblSet 0 (outPort s o).exp s.tick.slot h.cell.seq } h.cell) := by
    rw [modOut, hout, ← hst]
    exact drainHeld_ghost hwu (h := { h with ghost := true }) rfl rfl (tblGet_tblSet_self _ _ _ _ hexp).symm
  have hsweep := ageSweep_aged hheld hpkts hdead hidx hghost hw hst hslot harr hage hseq
  rw [hdrain, forgetDead, modOut_setOut hwu] at hsweep
  refine ⟨_, congrArg Host.Outcome.next ((congrArg streamLosses hsweep).trans (streamLosses_none (hlostu.trans hlost))), ?_⟩
  simp only [outPort_setOut_same hwu]
  refine ⟨rfl, ?_, hlarder⟩
  simp only [OutPort.taking, hst]
  exact tblGet_tblSet_self _ _ _ _ (tblWf_tblSet _ _ _ _ hexp)

end

/-! ### PACKET_TO_EGRESS_QUEUE (R259) -/

theorem toQueue_nothing {s : State} {o : PortId} (h : nextToPass s o = none) (hlost : s.core.lost = []) :
    NoEffect (.packetToEgressQueue o) s :=
  congrArg Host.Outcome.next (by rw [toQueue, h]; exact streamLosses_none hlost)

/-- The one packet of an output passes next where it is whole. -/
theorem nextToPass_one {s : State} {o : PortId} {q : OutPkt} (hpkts : (outPort s o).pkts = [q]) (hall : q.have_ = q.count)
    (hp : q.passed = false) : nextToPass s o = some q := by
  have hmay : mayPass s o q = true := by simp [mayPass, hall, hp]
  simp [nextToPass, hpkts, hmay]

/-- A unicast packet that leaves its output changes inputs, outputs and counts alone. -/
theorem freePkt_ports {q : OutPkt} (hk : q.kind = .unicast) (o s) :
    ∃ a b n, freePkt o q s = { s with core.inp := a, core.out := b, counts := n } := by
  rw [freePkt_unicast hk]
  split
  · obtain ⟨a, b, h⟩ := freeCredits_ports q.src o q.have_ (packetGone o q s)
    exact ⟨a, b, _, h⟩
  · exact ⟨_, _, _, rfl⟩

/-- Of the packets at its output, the one that leaves alone goes. -/
theorem freePkt_pkts {s : State} {o : PortId} {q : OutPkt} (hk : q.kind = .unicast) (hw : tblWf {} s.core.out = true) :
    (outPort (freePkt o q s) o).pkts = (outPort s o).pkts.filter (fun x => x.uid ≠ q.uid) := by
  have hgone : (outPort (packetGone o q s) o).pkts = (outPort s o).pkts.filter (fun x => x.uid ≠ q.uid) :=
    pkts_modOut hw fun p => { p with pkts := p.pkts.filter (fun x => x.uid ≠ q.uid) }
  rw [freePkt_unicast hk]
  split
  · exact (pkts_freeCredits (s := packetGone o q s) (tblWf_setOut hw ..) q.src q.have_).trans hgone
  · exact hgone

/-- A whole packet at an internal output passes to its function. -/
theorem passInternal_unicast {o : PortId} {q : OutPkt} (hk : q.kind = .unicast) (hop : neverAsked q.pkt.opcode = false) (s : State) :
    passInternal o q s =
      { freePkt o q s with core.delivered := (freePkt o q s).core.delivered ++ [(o, q.pkt)] } := by
  simp [passInternal, hk, hop]

theorem packetToEgressQueue_internal {s : State} {o : PortId} {q : OutPkt} (ho : 96 ≤ o.val) (hpkts : (outPort s o).pkts = [q])
    (hk : q.kind = .unicast) (hall : q.have_ = q.count) (hp : q.passed = false) (hop : neverAsked q.pkt.opcode = false)
    (hlost : s.core.lost = []) (hw : tblWf {} s.core.out = true) :
    Completes (.packetToEgressQueue o) s fun t => t.core.delivered = s.core.delivered ++ [(o, q.pkt)]
      ∧ (outPort t o).pkts = [] ∧ t = { s with core := t.core, counts := t.counts } := by
  have hin : isInternal s o = true := by simp [isInternal, ho]
  have hqueue : toQueue o s = { freePkt o q s with core.delivered := (freePkt o q s).core.delivered ++ [(o, q.pkt)] } := by
    simp only [toQueue, nextToPass_one hpkts hall hp, hin, if_true, passInternal_unicast hk hop]
  have hgone : (outPort (freePkt o q s) o).pkts = [] := by
    rw [freePkt_pkts hk hw, hpkts]
    simp
  obtain ⟨a, b, n, hports⟩ := freePkt_ports hk o s
  rw [hports] at hqueue
  refine ⟨_, congrArg Host.Outcome.next ((congrArg streamLosses hqueue).trans (streamLosses_none hlost)), rfl, ?_, rfl⟩
  rw [hports] at hgone
  exact hgone

/-- The packet in its egress queue, where no mark is set and nothing else stands at its output. -/
theorem enterQueue_unmarked {s : State} {o : PortId} {q : OutPkt} (hpkts : (outPort s o).pkts = [q])
    (hm : markCells s o.val q.pkt.vc.val = 0) :
    enterQueue o q s = setOut s o { outPort s o with pkts := [{ q with passed := true }] } := by
  have hm' : ∀ t, markCells (modOut o t s) o.val q.pkt.vc.val = 0 := fun _ => hm
  simp [enterQueue, hm, modOut, hpkts]

theorem passLink_whole {s : State} {o : PortId} {l : LinkId} {q : OutPkt} (href : q.ref = .none)
    (hgen : genCarries (link s l).gen q.pkt.opcode = true) (hlen : q.pkt.payLen.toNat ≤ genMax (link s l).gen) :
    passLink o l q s = enterQueue o q s := by
  have hsplit : splitFor (link s l).gen q.pkt = [q.pkt] := if_neg (by simp [Nat.not_lt.mpr hlen])
  unfold passLink
  split
  next hchunk => cases href.symm.trans hchunk
  next => simp only [hgen, hsplit, Bool.not_true, Bool.false_eq_true, if_false, enterPieces]

theorem packetToEgressQueue_link {s : State} {l : LinkId} {q : OutPkt} (heth : ethMode s l.val = false)
    (hpkts : (outPort s (linkPort l)).pkts = [q]) (href : q.ref = .none) (hall : q.have_ = q.count) (hp : q.passed = false)
    (hgen : genCarries (link s l).gen q.pkt.opcode = true) (hlen : q.pkt.payLen.toNat ≤ genMax (link s l).gen)
    (hm : markCells s (linkPort l) q.pkt.vc.val = 0) (hlost : s.core.lost = []) :
    Completes (.packetToEgressQueue (linkPort l)) s fun t => (outPort t (linkPort l)).pkts = [{ q with passed := true }]
      ∧ t = { s with core := t.core } := by
  have hin : isInternal s (linkPort l) = false := by
    have hlt : ¬ 96 ≤ (linkPort l).val := Nat.not_le.mpr l.isLt
    have heth : ethMode s (linkPort l).val = false := heth
    simp [isInternal, hlt, heth]
  have hport : portLink (linkPort l) = some l := dif_pos l.isLt
  have hqueue : toQueue (linkPort l) s = setOut s (linkPort l) { outPort s (linkPort l) with pkts := [{ q with passed := true }] } := by
    simp only [toQueue, nextToPass_one hpkts hall hp, hin, hport, Bool.false_eq_true, if_false, passLink_whole href hgen hlen]
    exact enterQueue_unmarked hpkts hm
  refine ⟨_, congrArg Host.Outcome.next ((congrArg streamLosses hqueue).trans (streamLosses_none hlost)), ?_, rfl⟩
  have hne : ({ outPort s (linkPort l) with pkts := [{ q with passed := true }] } : OutPort) ≠ {} :=
    fun h => List.cons_ne_nil _ _ (congrArg OutPort.pkts h)
  exact congrArg OutPort.pkts (tblGet_tblSet_of_ne _ _ _ _ hne)

end Machine
end Sys2Proof
end

section
/-!
PROOF. The pools and the gates (R274 to R276, R336): audit and rebuild of a pool, the request for a swap and the swap itself; and the
statement of the cyclic core.
-/
namespace Sys2Proof
namespace Machine

/-! ### POOL_AUDIT (R274, R275) -/

theorem poolSum_none {j : Nat} (h : 384 ≤ j) (s : State) : poolSum s j = none := by
  have h1 : ¬ j < 128 := by omega
  have h2 : ¬ j < 256 := by omega
  simp [poolSum, h1, h2, Nat.not_lt.mpr h]

section
variable {s : State} {j : Fin 512} {x ref sum : Nat} {wrong : Bool} (hsum : poolSum s j.val = some (x, ref))
  (hlatch : s.core.latched.find? (fun y => y.1 = j.val) = some (j.val, sum, wrong))
include hsum hlatch

/-- The audit of a pool whose sum was latched. -/
theorem exec_poolAudit : exec (.poolAudit j) s = .next (if atStep 6 s && hits s 64 j.val && (sum ≠ ref || wrong) then
    { auditMismatch 1 j.val 0 ((sum : Int) - ref) 0 s with
      core.rebuild := (auditMismatch 1 j.val 0 ((sum : Int) - ref) 0 s).core.rebuild ++ [(j.val, s.tick.ns + rebuildSlots j.val)] }
    else s) := by
  obtain ⟨y, z, w, h⟩ := auditMismatch_host 1 j.val 0 ((sum : Int) - ref) 0 s
  change execPoolAudit j s = _
  simp only [execPoolAudit, hsum, hlatch, h]

theorem poolAudit_mismatch (hbad : sum ≠ ref ∨ wrong = true) (h0 : s.tick.slot = 0) (h6 : s.tick.phase ≤ 6)
    (hhit : hits s 64 j.val = true) : Completes (.poolAudit j) s fun t =>
      t.core = { s.core with rebuild := s.core.rebuild ++ [(j.val, s.tick.ns + rebuildSlots j.val)] }
      ∧ (∃ e, t.counts.sideband = s.counts.sideband ++ [e] ∧ e.code = 0x15 ∧ e.unit = BitVec.ofNat 16 j.val
        ∧ e.detail = BitVec.ofNat 128 (2 + (((sum : Int) - ref) % 4294967296).toNat * 65536))
      ∧ HostOnly { s with core := t.core } t := by
  have hdue : (atStep 6 s && hits s 64 j.val && (sum ≠ ref || wrong)) = true := by
    rcases hbad with hbad | hbad <;> simp [atStep, h0, h6, hhit, hbad]
  have hside := raiseEv_sideband 0x15 j.val (1 + 1 + 0 <<< 8 + (((sum : Int) - ref) % 4294967296).toNat <<< 16) 0 (bumpModule 1 s)
  obtain ⟨y, z, w, h⟩ := auditMismatch_host 1 j.val 0 ((sum : Int) - ref) 0 s
  have hcounts : w.sideband = (auditMismatch 1 j.val 0 ((sum : Int) - ref) 0 s).counts.sideband := by rw [h]
  refine ⟨_, (exec_poolAudit hsum hlatch).trans (congrArg Host.Outcome.next (if_pos hdue)), ?_⟩
  rw [h]
  refine ⟨rfl, ⟨_, hcounts.trans hside, rfl, rfl, ?_⟩, ⟨_, _, _, rfl⟩⟩
  simp only [Nat.shiftLeft_eq]

end

theorem poolAudit_agrees {s : State} {j : Fin 512} {x ref : Nat} (hsum : poolSum s j.val = some (x, ref))
    (hlatch : s.core.latched.find? (fun y => y.1 = j.val) = some (j.val, ref, false)) : NoEffect (.poolAudit j) s :=
  (exec_poolAudit hsum hlatch).trans (congrArg Host.Outcome.next (if_neg (by simp)))

/-- A pool that does not exist, or that is not audited in this tick, or at this step. -/
theorem poolAudit_waits {s : State} {j : Fin 512}
    (h : 384 ≤ j.val ∨ hits s 64 j.val = false ∨ s.tick.slot ≠ 0 ∨ 6 < s.tick.phase) :
    NoEffect (.poolAudit j) s := by
  change execPoolAudit j s = _
  unfold execPoolAudit
  split
  next hsum _ =>
    refine congrArg Host.Outcome.next (if_neg ?_)
    rcases h with h | h | h | h
    · cases (poolSum_none h s).symm.trans hsum
    · simp [h]
    · simp [atStep, h]
    · simp [atStep, Nat.not_le.mpr h]
  next => rfl

/-! ### POOL_REBUILD_DONE (R276) -/

theorem poolRebuildDone_due {s : State} {j : Fin 512} {k : Nat} (h : s.core.rebuild.find? (fun r => r.1 = j.val) = some (j.val, k))
    (hk : k ≤ s.tick.ns) : exec (.poolRebuildDone j) s =
      .next (rebuildPool j.val { s with core.rebuild := s.core.rebuild.filter (fun x => x.1 ≠ j.val) }) := by
  change execPoolRebuildDone j s = _
  simp only [execPoolRebuildDone, h, hk, if_true]

theorem poolRebuildDone_waits {s : State} {j : Fin 512} (h : ∀ r ∈ s.core.rebuild, r.1 = j.val → s.tick.ns < r.2) :
    NoEffect (.poolRebuildDone j) s := by
  change execPoolRebuildDone j s = _
  unfold execPoolRebuildDone
  split
  next r hr =>
    have hj : r.1 = j.val := by simpa using List.find?_some hr
    exact if_neg (Nat.not_le.mpr (h r (List.mem_of_find?_eq_some hr) hj))
  next => rfl

/-- A sum over a list is bounded by that over the list where each of its terms is. -/
theorem foldl_add_map_le {α : Type} {f g : α → Nat} (h : ∀ x, f x ≤ g x) :
    ∀ (l : List α) (a b : Nat), a ≤ b → l.foldl (fun n x => n + f x) a ≤ l.foldl (fun n x => n + g x) b
  | [], _, _, hab => hab
  | x :: l, _, _, hab => foldl_add_map_le h l _ _ (Nat.add_le_add hab (h x))

/-- Entries of an input after the pass hold no more units than before. -/
theorem passInput_units (q : InPort) : (passInput q).queue.foldl (fun n e => n + (e.units - e.freed)) 0
    ≤ q.queue.foldl (fun n e => n + (e.units - e.freed)) 0 := by
  simp only [passInput, List.foldl_map]
  exact foldl_add_map_le (fun e => by omega) _ _ _ le_rfl

theorem passInput_free (q : InPort) : (passInput q).free = 16384 - (passInput q).queue.foldl (fun n e => n + (e.units - e.freed)) 0 := rfl

theorem rebuildPool_input {s : State} {j : Nat} (h : j < 128) : rebuildPool j s = setIn s (portOf j) (passInput (inPort s (portOf j))) :=
  if_pos h

/-- The pass over an input's pool (R276). -/
theorem rebuildPool_input_spec {s : State} {j : Nat} (hj : j < 128) (hw : tblWf {} s.core.inp = true)
    (hle : (inPort s (portOf j)).queue.foldl (fun n e => n + (e.units - e.freed)) 0 ≤ 16384) :
    let t := rebuildPool j s
    poolSum t j = some (16384, 16384) ∧ t = { s with core := t.core }
      ∧ (inPort t (portOf j)).queue = (inPort s (portOf j)).queue.map (fun e =>
          { e with units := e.units - e.shared, bad := e.bad || decide (e.shared ≠ 0), shared := 0 }) := by
  intro t
  have ht : t = setIn s (portOf j) (passInput (inPort s (portOf j))) := rebuildPool_input hj
  have hin : inPort t (portOf j) = passInput (inPort s (portOf j)) := by rw [ht, inPort_setIn_same hw]
  have hunits := passInput_units (inPort s (portOf j))
  have hfree := passInput_free (inPort s (portOf j))
  refine ⟨?_, by rw [ht]; rfl, by rw [hin]; rfl⟩
  rw [poolSum, if_pos hj, hin]
  exact congrArg (fun n => some (n, 16384)) (by omega)

/-- The cells of a slice that hold a pointer of its pool. -/
def ownedCells (c : Slice) : List SliceCell := c.cells.filter (fun x => x.cell.kind ≠ .result && x.owns)

theorem passSlice_owned (c : Slice) : (ownedCells (passSlice c)).length ≤ (ownedCells c).length := by
  simp only [ownedCells, passSlice, List.filter_map, List.length_map]
  exact List.Sublist.length_le (List.monotone_filter_right _ fun x hx => by
    simp only [Function.comp, Bool.and_eq_true] at hx ⊢
    exact ⟨hx.1, hx.2.1⟩)

theorem passSlice_free (c : Slice) : (passSlice c).free = 2048 - (ownedCells (passSlice c)).length := rfl

/-- After the pass each cell's reference count is that of its entries. -/
theorem passSlice_refs (c : Slice) : ∀ x ∈ (passSlice c).cells, x.refs = x.outs.length := by
  intro x hx
  obtain ⟨y, -, rfl⟩ := List.mem_map.mp hx
  rfl

theorem rebuildPool_slice {s : State} {j : Nat} (h : 128 ≤ j) (h' : j < 256) :
    rebuildPool j s = setSlice s (portOf j) (passSlice (midSlice s (portOf j))) :=
  (if_neg (Nat.not_lt.mpr h)).trans (if_pos h')

/-- The pass over a slice's pool (R276). -/
theorem rebuildPool_slice_spec {s : State} {j : Nat} (hj : 128 ≤ j) (hj' : j < 256) (hw : tblWf {} s.core.slice = true)
    (hle : (ownedCells (midSlice s (portOf j))).length ≤ 2048) :
    let t := rebuildPool j s
    poolSum t j = some (2048, 2048) ∧ refsWrong t j = false ∧ t = { s with core := t.core }
      ∧ ∀ x ∈ (midSlice s (portOf j)).cells, x.shared = true → ∃ y ∈ (midSlice t (portOf j)).cells,
          y.cell.uid = x.cell.uid ∧ y.cell.idx = x.cell.idx ∧ y.cell.bad = true ∧ y.owns = false := by
  intro t
  have ht : t = setSlice s (portOf j) (passSlice (midSlice s (portOf j))) := rebuildPool_slice hj hj'
  have hmid : midSlice t (portOf j) = passSlice (midSlice s (portOf j)) := by rw [ht, midSlice_setSlice_same hw]
  have howned := passSlice_owned (midSlice s (portOf j))
  have hfree := passSlice_free (midSlice s (portOf j))
  refine ⟨?_, ?_, by rw [ht]; rfl, fun x hx hs => ?_⟩
  · rw [poolSum, if_neg (Nat.not_lt.mpr hj), if_pos hj', hmid]
    exact congrArg (fun n => some (n, 2048)) (show (passSlice _).free + (ownedCells (passSlice _)).length = 2048 by omega)
  · have hrefs := passSlice_refs (midSlice s (portOf j))
    rw [refsWrong, hmid, Bool.and_eq_false_iff]
    exact .inr (List.any_eq_false.mpr fun x hx => by simp [hrefs x hx])
  · rw [hmid]
    exact ⟨_, List.mem_map.mpr ⟨x, hx, rfl⟩, rfl, rfl, by simp [hs], by simp [hs]⟩

/-- Core credits and replica credits in use toward an output. -/
def creditsInUse (s : State) (o : PortId) : Nat :=
  allPorts.foldl (fun n i => n + tblGet 0 (inPort s i).used o.val) 0 + allPorts.foldl (fun n m => n + tblGet 0 (midSlice s m).repl o.val) 0

theorem poolSum_output {j : Nat} (hj : 256 ≤ j) (hj' : j < 384) (s : State) :
    poolSum s j = some ((outPort s (portOf j)).free + creditsInUse s (portOf j), 1024) := by
  have h1 : ¬ j < 128 := by omega
  have h2 : ¬ j < 256 := by omega
  simp only [poolSum, h1, h2, hj', if_false, if_true, creditsInUse, Nat.add_assoc]

theorem creditsInUse_setOut (s o v p) : creditsInUse (setOut s o v) p = creditsInUse s p := rfl

theorem rebuildPool_output {s : State} {j sum : Nat} (hj : 256 ≤ j) (hsum : poolSum s j = some (sum, 1024)) : rebuildPool j s =
    setOut s (portOf j) (passOutput { outPort s (portOf j) with free := 1024 - (sum - (outPort s (portOf j)).free) }) := by
  rw [rebuildPool, if_neg (by omega), if_neg (by omega), hsum]
  rfl

/-- The pass over an output's pool (R276). -/
theorem rebuildPool_output_spec {s : State} {j sum : Nat} (hj : 256 ≤ j) (hj' : j < 384) (hw : tblWf {} s.core.out = true)
    (hsum : poolSum s j = some (sum, 1024)) (hle : sum - (outPort s (portOf j)).free ≤ 1024) :
    poolSum (rebuildPool j s) j = some (1024, 1024) ∧ rebuildPool j s = { s with core := (rebuildPool j s).core } := by
  rw [rebuildPool_output hj hsum]
  refine ⟨?_, rfl⟩
  have hparts := (poolSum_output hj hj' s).symm.trans hsum
  simp only [Option.some.injEq, Prod.mk.injEq, and_true] at hparts
  have hfree : ∀ p, (passOutput p).free = p.free := fun _ => rfl
  rw [poolSum_output hj hj', outPort_setOut_same hw, creditsInUse_setOut, hfree]
  exact congrArg (fun n => some (n, 1024)) (by simp only; omega)

/-! ### Swaps of gate banks (R336) -/

theorem swapReq_first {s : State} {l : LinkId} (h : (tmOf s l).swap = none) :
    exec (.swapReq l) s = .next (setTm s l { tmOf s l with swap := some s.tick.elapsed }) :=
  congrArg Host.Outcome.next (if_neg (by simp [h]))

theorem swapReq_again {s : State} {l : LinkId} (h : (tmOf s l).swap.isSome = true) : NoEffect (.swapReq l) s :=
  congrArg Host.Outcome.next (if_pos h)

theorem exec_gateBankSwap (s : State) (l : LinkId) : exec (.gateBankSwap l) s = .next (gateBankSwap l (runInner 7 s)) := rfl

theorem setPhase_eq {s : State} {n : Nat} (h : s.tick.phase ≤ n) : setPhase n s = { s with tick.phase := n } := by
  simp only [setPhase, max_eq_right h]

section
variable {s : State} {l : LinkId} {w : BitVec 48} (hswap : (tmOf s l).swap = some w) (h0 : s.tick.slot = 0) (h8 : s.tick.phase ≤ 8)
  (hage : 2 ≤ ageOf s w) (hbase : later (pendBase s l) (nowTick s) = false)
  (hspan : (nowTick s - pendBase s l).toNat % pendPeriod s l < tickSpan s)
include hswap h0 h8 hage hbase hspan

/-- A boundary meets the three conditions of a swap. -/
theorem gateBankSwap_due : gateBankSwap l s =
    match gateFault (pendPeriod s l) (gateList s l (!(tmOf s l).bank) (pendCount s l)) with
    | some i => setPhase 8 (raiseEv 0x50 l.val i (fnGen s (.port l)) (setTm s l { tmOf s l with swap := none, swapErr := true }))
    | none => setPhase 8 (setTm s l { tmOf s l with
        swap := none, bank := !(tmOf s l).bank, period := pendPeriod s l, count := pendCount s l, base := pendBase s l,
        pos := (nowTick s - pendBase s l).toNat % pendPeriod s l }) := by
  have hnot : ¬ (!atStep 8 s || ageOf s w < 2 || later (pendBase s l) (nowTick s)
      || decide (tickSpan s ≤ (nowTick s - pendBase s l).toNat % pendPeriod s l)) = true := by
    have hstep : (!atStep 8 s) = false := by simp [atStep, h0, h8]
    simp only [hstep, hbase, Bool.or_eq_true, decide_eq_true_eq, Bool.false_eq_true, false_or, or_false, not_or, Nat.not_lt, Nat.not_le]
    exact ⟨hage, hspan⟩
  simp only [gateBankSwap, hswap]
  exact if_neg hnot

theorem gateBankSwap_swaps (hok : gateFault (pendPeriod s l) (gateList s l (!(tmOf s l).bank) (pendCount s l)) = none) :
    gateBankSwap l s = setPhase 8 (setTm s l { tmOf s l with
      swap := none, bank := !(tmOf s l).bank, period := pendPeriod s l, count := pendCount s l, base := pendBase s l,
      pos := (nowTick s - pendBase s l).toNat % pendPeriod s l }) := by
  rw [gateBankSwap_due hswap h0 h8 hage hbase hspan, hok]

/-- An invalid list is refused with swap_err and event 0x50. -/
theorem gateBankSwap_refused {i : Nat}
    (hbad : gateFault (pendPeriod s l) (gateList s l (!(tmOf s l).bank) (pendCount s l)) = some i) :
    let t := gateBankSwap l s
    t.tm = (setTm s l { tmOf s l with swap := none, swapErr := true }).tm
      ∧ (∃ e, t.counts.sideband = s.counts.sideband ++ [e] ∧ e.code = 0x50 ∧ e.unit = BitVec.ofNat 16 l.val
        ∧ e.detail = BitVec.ofNat 128 i)
      ∧ HostOnly { s with tm := t.tm, tick := { s.tick with phase := 8 } } t := by
  intro t
  have hside := raiseEv_sideband 0x50 l.val i (fnGen s (.port l)) (setTm s l { tmOf s l with swap := none, swapErr := true })
  obtain ⟨x, y, z, h⟩ := raiseEv_host 0x50 l.val i (fnGen s (.port l)) (setTm s l { tmOf s l with swap := none, swapErr := true })
  have ht : t = setPhase 8 (raiseEv 0x50 l.val i (fnGen s (.port l)) (setTm s l { tmOf s l with swap := none, swapErr := true })) := by
    unfold t
    rw [gateBankSwap_due hswap h0 h8 hage hbase hspan, hbad]
  rw [h] at hside ht
  rw [setPhase_eq (by exact h8)] at ht
  rw [ht]
  exact ⟨rfl, ⟨_, hside, rfl, rfl, rfl⟩, ⟨_, _, _, rfl⟩⟩

end

/-- Before its three conditions are met a swap waits. -/
theorem gateBankSwap_waits {s : State} {l : LinkId} (h : (tmOf s l).swap = none ∨ (∃ w, (tmOf s l).swap = some w ∧ ageOf s w < 2)
    ∨ later (pendBase s l) (nowTick s) = true ∨ tickSpan s ≤ (nowTick s - pendBase s l).toNat % pendPeriod s l) :
    gateBankSwap l s = s := by
  cases hw : (tmOf s l).swap with
  | none => simp only [gateBankSwap, hw]
  | some w =>
    have hwait : (!atStep 8 s || ageOf s w < 2 || later (pendBase s l) (nowTick s)
        || decide (tickSpan s ≤ (nowTick s - pendBase s l).toNat % pendPeriod s l)) = true := by
      simp only [Bool.or_eq_true, decide_eq_true_eq]
      rcases h with h | ⟨v, hv, hage⟩ | h | h
      · cases hw.symm.trans h
      · cases hw.symm.trans hv
        exact .inl (.inl (.inr hage))
      · exact .inl (.inr h)
      · exact .inr h
    simp only [gateBankSwap, hw]
    exact if_pos hwait

/-! ### The statement -/

/-- Settles O13: each clause is the lemma of its command or of its part of the slot. -/
theorem coreSlotOutputsPoolsAndGates : Obligations.CoreSlotOutputsPoolsAndGates := by
  unfold Obligations.CoreSlotOutputsPoolsAndGates
  refine ⟨⟨fun s h => coreSlot_eq h, fun s h htodo => coreSlot_tick h htodo, fun s h => coreSlot_over h,
      fun s i m h => stageOne_slice h, fun s errs m o h => congrArg OutPort.arriving (stageTwo_outPort h errs),
      fun s c o e h => pickOut_spec h, fun s i m e h hk h0 => eligibleIn_credits h hk h0, fun s i m e h hk => eligibleIn_room h hk,
      fun s i o hw hl => lendOne_lent hw hl i⟩,
    ⟨fun s o => ⟨rfl, rfl, rfl⟩, ?_, fun s o h => cellArrive_nothing h, fun s o h hlost => cellAgeSweep_nothing h hlost, ?_, ?_, ?_,
      fun s o h hlost => toQueue_nothing h hlost⟩,
    ⟨?_, fun s j h => poolAudit_waits h, fun s j x ref hsum hlatch => poolAudit_agrees hsum hlatch,
      fun s j k h hk => poolRebuildDone_due h hk, fun s j hj hw hle => rebuildPool_input_spec hj hw hle,
      fun s j hj hj' hw hle => rebuildPool_slice_spec hj hj' hw hle,
      fun s j sum hj hj' hw hsum hle => rebuildPool_output_spec hj hj' hw hsum hle, fun s j h => poolRebuildDone_waits h⟩,
    ⟨fun s l h => swapReq_first h, fun s l h => swapReq_again h, fun s l => ⟨exec_gateBankSwap s l, fun h => runInner_idle h 7⟩,
      ?_, ?_, fun s l h => gateBankSwap_waits h⟩⟩
  · exact fun s o c m rest harr hk h0 hbad hseq hage hup hheld hdead hgood hlost hw hexp =>
      cellArriveOutput_inOrder harr hk h0 hbad hseq hage hup hheld hdead hgood hlost hw hexp
  · exact fun s o h hheld hpkts hdead hst hslot harr hage hseq hidx hghost hlost hw hexp =>
      cellAgeSweep_aged hheld hpkts hdead hidx hghost hw hst hslot harr hage hseq hlost hexp
  · exact fun s o q ho hpkts hk hall hp hop hlost hw => packetToEgressQueue_internal ho hpkts hk hall hp hop hlost hw
  · rintro s _ l q rfl heth hpkts - href hall hp hgen hlen hm hlost
    exact packetToEgressQueue_link heth hpkts href hall hp hgen hlen hm hlost
  · exact fun s j x ref sum wrong hsum hlatch hbad h0 h6 hhit => poolAudit_mismatch hsum hlatch hbad h0 h6 hhit
  · exact fun s l w hswap h0 h8 hage hbase hspan hok => gateBankSwap_swaps hswap h0 h8 hage hbase hspan hok
  · exact fun s l w i hswap h0 h8 hage hbase hspan hbad => gateBankSwap_refused hswap h0 h8 hage hbase hspan hbad

end Machine
end Sys2Proof
end

section
/-!
PROOF. The descriptors of the coats (R295, R299, R307, R308, R311, R312): what a row of completions leaves in flight, and what COAT_LOAD,
COAT_SWITCH, COAT_ABORT, COAT_QUERY and EXCL_CLEAR do.
-/
namespace Sys2Proof
namespace Machine

/-! ### Completions in a row -/

/-- No completion puts a descriptor in flight. -/
theorem flightOf_complete_none {s : State} {e : DRef} (h : flightOf s e = none) (d st r) : flightOf (complete d st r s) e = none := by
  rw [flightOf_eq_none] at h ⊢
  rw [complete_flight]
  exact fun f hf => h f (List.mem_of_mem_filter hf)

section
variable {α : Type} {act : State → α → State} {e : DRef}
  (hkeep : ∀ s x, flightOf s e = none → flightOf (act s x) e = none)
include hkeep

/-- Acts that put no descriptor in flight leave out of flight one that has left it. -/
theorem flightOf_foldl_none (xs : List α) {s : State} (h : flightOf s e = none) : flightOf (xs.foldl act s) e = none :=
  List.foldlRecOn xs act h fun t ht x _ => hkeep t x ht

/-- A descriptor that one of the acts ends has left flight after all of them. -/
theorem flightOf_foldl_mem {x : α} (hx : ∀ s, flightOf (act s x) e = none) {xs : List α} (h : x ∈ xs) (s : State) :
    flightOf (xs.foldl act s) e = none := by
  induction xs generalizing s with
  | nil => cases h
  | cons y ys ih =>
    rcases List.mem_cons.mp h with rfl | h
    · exact flightOf_foldl_none hkeep ys (hx s)
    · exact ih h (act s y)

end

/-- Every descriptor of a row of completions has left flight. -/
theorem flightOf_foldl_complete {d : DRef} {ds : List DRef} (h : d ∈ ds) (st r s) :
    flightOf (ds.foldl (fun s e => complete e st r s) s) d = none :=
  flightOf_foldl_mem (fun _ e hd => flightOf_complete_none hd e st r) (fun s => flightOf_complete_self d st r s) h s

/-- A change of coats and Larder that only a completion follows. -/
theorem HostOnly.route_larder {s t : State} {r : Route} {m : Larder} (h : HostOnly { s with route := r, larder := m } t) :
    t.route = r ∧ t.larder = m ∧ HostOnly { s with route := t.route, larder := t.larder } t := by
  obtain ⟨x, y, z, rfl⟩ := h
  exact ⟨Eq.refl _, Eq.refl _, x, y, z, Eq.refl _⟩

/-! ### COAT_LOAD (R299, R308) -/

/-- The load that a COAT_LOAD opens. -/
def loadOpened (d : DRef) (f : InFlight) : CoatLoad := { d := d, base := bit f.desc 292, clr := bit f.desc 293, due := 0 }

section
variable {s : State} {d : DRef} {f : InFlight} {g : Staging}

theorem coatLoad_opens (h : Startable s d 0x50 f) (hg : s.route.staging.getD { num := dCoat f } = g) (hheld : coatHeld s (dCoat f) = false)
    (hnum : g.num = dCoat f) (hmin : 64 ≤ fld f.desc 256 32) (hmax : fld f.desc 256 32 ≤ 1048576) :
    exec (.coatLoad d) s = .next (hostRead (.obj d 0) (dWord f.desc 24) (fld f.desc 256 32) (addWaits d 1 { started d s with
      route.staging := some { g with loads := g.loads ++ [loadOpened d f] } })) := by
  subst hg
  refine congrArg Host.Outcome.next ((withDesc_of_startable h _).trans (if_neg ?_))
  have hheld' : coatHeld (started d s) (dCoat f) = false := hheld
  have hnum' : ((started d s).route.staging.getD { num := dCoat f }).num = dCoat f := hnum
  simp [hheld', hnum', hmin, hmax]

/-- A COAT_LOAD that finds the staging area closed opens it for its coat. -/
theorem coatLoad_first (h : Startable s d 0x50 f) (hg : s.route.staging = none) (hheld : coatHeld s (dCoat f) = false)
    (hmin : 64 ≤ fld f.desc 256 32) (hmax : fld f.desc 256 32 ≤ 1048576) :
    Completes (.coatLoad d) s fun t => (∃ g l, t.route.staging = some g ∧ g.num = dCoat f ∧ g.loads = [l] ∧ g.written = []
        ∧ l.d = d ∧ l.base = bit f.desc 292 ∧ l.clr = bit f.desc 293)
      ∧ t = { s with enz := t.enz, rings := t.rings, route := { s.route with staging := t.route.staging } } := by
  refine ⟨_, coatLoad_opens h (by rw [hg, Option.getD_none]) hheld rfl hmin hmax, ?_⟩
  rw [(hostRead_enz ..).eq]
  exact ⟨⟨_, _, rfl, rfl, rfl, rfl, rfl, rfl, rfl⟩, rfl⟩

theorem coatLoad_refused (h : Startable s d 0x50 f) (hbad : coatHeld s (dCoat f) = true
      ∨ (∃ g, s.route.staging = some g ∧ g.num ≠ dCoat f) ∨ fld f.desc 256 32 < 64 ∨ 1048576 < fld f.desc 256 32) :
    exec (.coatLoad d) s = .next (complete d stBad 0 (started d s)) := by
  refine congrArg Host.Outcome.next ((withDesc_of_startable h _).trans (if_pos ?_))
  simp only [Bool.or_eq_true, decide_eq_true_eq]
  rcases hbad with hheld | ⟨g, hg, hnum⟩ | hmin | hmax
  · exact .inl (.inl (.inl hheld))
  · have hg' : (started d s).route.staging = some g := hg
    exact .inl (.inl (.inr (by simpa [hg'] using hnum)))
  · exact .inl (.inr hmin)
  · exact .inr hmax

/-! ### COAT_SWITCH (R311) -/

theorem coatSwitch_waits (h : Startable s d 0x51 f) (hg : s.route.staging = some g) (hnum : g.num = dCoat f) :
    exec (.coatSwitch d) s = .next { addWaits d 1 (started d s) with
      route.switches := s.route.switches ++ [⟨d, dCoat f, prepDue s⟩] } := by
  have hg' : (started d s).route.staging = some g := hg
  refine congrArg Host.Outcome.next ((withDesc_of_startable h _).trans ?_)
  simp only [hg', hnum, ne_eq, not_true_eq_false, if_false]
  rfl

theorem coatSwitch_stale (h : Startable s d 0x51 f)
    (hg : s.route.staging = none ∨ ∃ g, s.route.staging = some g ∧ g.num ≠ dCoat f) :
    exec (.coatSwitch d) s = .next (complete d stStaleCoat 0 (started d s)) := by
  refine congrArg Host.Outcome.next ((withDesc_of_startable h _).trans ?_)
  rcases hg with hg | ⟨g, hg, hnum⟩
  · have hg' : (started d s).route.staging = none := hg
    simp only [hg']
  · have hg' : (started d s).route.staging = some g := hg
    simp only [hg', ne_eq, hnum, not_false_eq_true, if_true]

/-! ### COAT_ABORT (R312) -/

theorem coatAbort_closed (h : Startable s d 0x52 f) (hg : s.route.staging = none) :
    exec (.coatAbort d) s = .next (complete d stOk 0 (started d s)) := by
  have hg' : (started d s).route.staging = none := hg
  refine congrArg Host.Outcome.next ((withDesc_of_startable h _).trans ?_)
  simp only [hg']

/-- The coats once the staging area of a coat has closed: its waiting switches are gone. -/
def stagingClosed (g : Staging) (r : Route) : Route :=
  { r with staging := none, switches := r.switches.filter (fun w => w.coat ≠ g.num) }

/-- The descriptors that an abort cancels: the loads of the staging area and the switches that wait for its coat. -/
def abortedOf (g : Staging) (s : State) : List DRef :=
  g.loads.map (·.d) ++ (s.route.switches.filter (fun w => w.coat = g.num)).map (·.d)

/-- The state once the staging area has closed and what waited for it has ended. -/
def abortedState (g : Staging) (s : State) : State :=
  reown ((abortedOf g s).foldl (fun s e => complete e stCancelled 0 s) { s with route := stagingClosed g s.route })

/-- What follows ownership leaves all but the Larder to what came before. -/
theorem HostOnly.reown {s t : State} (h : HostOnly s t) : HostOnly { s with larder := (reown t).larder } (reown t)
    ∧ (Machine.reown t).larder.mem = s.larder.mem := by
  obtain ⟨x, y, z, rfl⟩ := h
  exact ⟨⟨x, y, z, Eq.refl _⟩, Eq.refl _⟩

theorem abortedState_host (g s) :
    HostOnly { s with route := stagingClosed g s.route, larder := (abortedState g s).larder } (abortedState g s)
    ∧ (abortedState g s).larder.mem = s.larder.mem :=
  (HostOnly.foldl (fun s e => complete_host e stCancelled 0 s) (abortedOf g s) { s with route := stagingClosed g s.route }).reown

theorem flightOf_abortedState {e : DRef} (he : e ∈ abortedOf g s) : flightOf (abortedState g s) e = none :=
  flightOf_foldl_complete he stCancelled 0 _

theorem exec_coatAbort (h : Startable s d 0x52 f) (hg : s.route.staging = some g) :
    exec (.coatAbort d) s = .next (complete d stOk (BitVec.ofNat 64 (g.num.toNat + 16)) (abortedState g (started d s))) := by
  have hg' : (started d s).route.staging = some g := hg
  refine congrArg Host.Outcome.next ((withDesc_of_startable h _).trans ?_)
  simp only [hg']
  rfl

theorem coatAbort_closes (h : Startable s d 0x52 f) (hg : s.route.staging = some g) :
    Completes (.coatAbort d) s fun t => t.route = stagingClosed g s.route ∧ flightOf t d = none
      ∧ (∀ l ∈ g.loads, flightOf t l.d = none) ∧ (∀ w ∈ s.route.switches, w.coat = g.num → flightOf t w.d = none)
      ∧ t.larder.mem = s.larder.mem ∧ HostOnly { s with route := t.route, larder := t.larder } t := by
  obtain ⟨hab, hmem⟩ := abortedState_host g (started d s)
  have hhost := (HostOnly.trans (s := { s with route := stagingClosed g s.route, larder := (abortedState g (started d s)).larder })
    ⟨_, _, _, rfl⟩ hab).trans
    (complete_host d stOk (BitVec.ofNat 64 (g.num.toNat + 16)) _)
  obtain ⟨hroute, hlarder, hrest⟩ := hhost.route_larder
  have hgone : ∀ e ∈ abortedOf g s, flightOf (complete d stOk (BitVec.ofNat 64 (g.num.toNat + 16))
      (abortedState g (started d s))) e = none :=
    fun e he => flightOf_complete_none (flightOf_abortedState (s := started d s) he) _ _ _
  refine ⟨_, exec_coatAbort h hg, hroute, flightOf_complete_self .., ?_, ?_, hlarder ▸ hmem, hrest⟩
  · exact fun l hl => hgone l.d (List.mem_append_left _ (List.mem_map_of_mem hl))
  · exact fun w hw hc => hgone w.d (List.mem_append_right _ (List.mem_map_of_mem (List.mem_filter.mpr ⟨hw, decide_eq_true hc⟩)))

/-! ### COAT_QUERY (R307) and EXCL_CLEAR (R295) -/

theorem coatQuery_answers (h : Startable s d 0x53 f) : exec (.coatQuery d) s = .next (complete d stOk (coatWord s) (started d s)) :=
  congrArg Host.Outcome.next (withDesc_of_startable h _)

theorem exec_exclClear (h : Startable s d 0x54 f) : exec (.exclClear d) s =
    .next (complete d stOk (BitVec.ofNat 64 s.route.excl.length) { started d s with route.excl := [] }) :=
  congrArg Host.Outcome.next (withDesc_of_startable h _)

theorem exclClear_empties (h : Startable s d 0x54 f) : Completes (.exclClear d) s fun t => t.route.excl = [] ∧ flightOf t d = none
    ∧ HostOnly { s with route := { s.route with excl := [] } } t := by
  have hhost := HostOnly.trans (s := { s with route.excl := [] }) (t := { started d s with route.excl := [] }) ⟨_, _, _, rfl⟩
    (complete_host d stOk (BitVec.ofNat 64 s.route.excl.length) _)
  refine ⟨_, exec_exclClear h, ?_, flightOf_complete_self .., hhost⟩
  obtain ⟨x, y, z, h⟩ := hhost
  rw [h]

end

end Machine
end Sys2Proof
end

section
/-!
PROOF. The staging area (R54, R299, R310, R391): what step 5 of a boundary writes of a load, and what a load leaves when it ends.
-/
namespace Sys2Proof
namespace Machine

/-! ### Steps of a boundary (Table 2-6) -/

section
variable {s : State} {n : Nat}

/-- A step may act in slot 0, before any later one has. -/
theorem atStep_due (h0 : s.tick.slot = 0) (hn : s.tick.phase ≤ n) : atStep n s = true := by simp [atStep, h0, hn]

theorem atStep_not_due (h : s.tick.slot ≠ 0 ∨ n < s.tick.phase) : atStep n s = false := by
  rcases h with h | h <;> simp [atStep, h]

end

/-! ### The order of loads (R54) -/

theorem mem_loadOrder (ls : List CoatLoad) (l : CoatLoad) : l ∈ loadOrder ls ↔ l ∈ ls := by
  cases hc : l.carried <;> simp [loadOrder, hc]

theorem loadOrder_single (l : CoatLoad) : loadOrder [l] = [l] := by
  cases hc : l.carried <;> simp [loadOrder, hc]

/-! ### COAT_STAGING_WRITE (R54, R299, R310) -/

theorem exec_stagingWrite {s : State} {g : Staging} (h0 : s.tick.slot = 0) (hn : s.tick.phase ≤ 5) (hg : s.route.staging = some g) :
    exec .coatStagingWrite s = .next ((loadOrder g.loads).foldl (fun r l => writeLoad l r.1 r.2)
      (512, modStaging (fun x => { x with loads := loadOrder g.loads }) (setPhase 6 s))).2 := by
  change execCoatStagingWrite s = _
  simp only [execCoatStagingWrite, atStep_due h0 hn, hg]
  rfl

theorem stagingWrite_waits {s : State} (h : s.tick.slot ≠ 0 ∨ 5 < s.tick.phase ∨ s.route.staging = none) :
    NoEffect .coatStagingWrite s := by
  change execCoatStagingWrite s = _
  rcases or_assoc.mpr h with h | hg
  · exact if_pos (by simp [atStep_not_due h])
  · simp only [execCoatStagingWrite, hg, ite_self]

/-- The staging area with the first `n` entries of its one load written. -/
def entriesWritten (n : Nat) (l : CoatLoad) (g : Staging) : Staging :=
  { g with written := (l.todo.take n).reverse ++ g.written, loads := [{ l with todo := l.todo.drop n }] }

section
variable {s : State} {g : Staging} {l : CoatLoad} {f : InFlight}

theorem modStaging_some (hg : s.route.staging = some g) (k : Staging → Staging) :
    modStaging k s = { s with route.staging := some (k g) } := by
  rw [modStaging, hg]
  rfl

/-- With one load alone the boundary serves that one. -/
theorem stagingWrite_single (h0 : s.tick.slot = 0) (hn : s.tick.phase ≤ 5) (hg : s.route.staging = some g) (hl : g.loads = [l]) :
    exec .coatStagingWrite s = .next (writeLoad l 512 { s with tick := { s.tick with phase := 6 } }).2 := by
  have hsame : modStaging (fun x => { x with loads := [l] }) (setPhase 6 s) = setPhase 6 s := by
    rw [modStaging_some (s := setPhase 6 s) hg, ← hl, ← hg]
    rfl
  rw [exec_stagingWrite h0 hn hg, hl, loadOrder_single, hsame, setPhase_eq (by omega)]
  rfl

/-- The area's one load put in place of another. -/
theorem modStaging_load (hg : s.route.staging = some g) (hl : g.loads = [l]) {e : DRef} (he : l.d = e)
    (k : CoatLoad → CoatLoad) : modStaging (fun g => { g with loads := g.loads.map (fun x => if x.d = e then k x else x) }) s =
      { s with route.staging := some { g with loads := [k l] } } := by
  rw [modStaging_some hg, hl, List.map_singleton, if_pos he]

/-- Where every frame that the staged coat maps has an owner, none is taken. -/
theorem takeFrames_owned {base : Bool} (hg : s.route.staging = some g)
    (hown : ∀ e ∈ mappedFrames (stagedCoat s g base), (tblGet none s.larder.owner e.1).isSome = true) :
    takeFrames base s = ([], s) := by
  simp only [takeFrames, hg]
  refine List.foldlRecOn (motive := fun r => r = ([], s)) _ _ rfl fun r hr e he => ?_
  obtain ⟨x, hx⟩ := Option.isSome_iff_exists.mp (hown e he)
  simp only [hr, hx]

section
variable (hg : s.route.staging = some g) (hl : g.loads = [l]) (hr : l.ready = true) (hf : flightOf s l.d = some f)
  (hdue : workDue s l.d l.due = true) (hexact : dExact f.desc = false) (htodo : l.todo ≠ [])
include hg hl hr hf hdue hexact htodo

/-- A load that is due writes what fits; then it is carried with the rest, or it takes its frames. -/
theorem writeLoad_due (n : Nat) : writeLoad l n s =
    if !(l.todo.drop n).isEmpty then (0, bumpModule 6 { s with
      route.staging := some { entriesWritten n l g with loads := [{ l with todo := l.todo.drop n, carried := true }] } })
    else
      let r := takeFrames l.base { s with route.staging := some (entriesWritten n l g) }
      let l' : CoatLoad := { l with todo := l.todo.drop n, fills := r.1 }
      let t := modStaging (fun g => { g with loads := g.loads.map (fun x => if x.d = l.d then l' else x) }) r.2
      (n - (l.todo.take n).length, if r.1.isEmpty then loadDone l' t else t) := by
  have hserve : ¬ (!l.ready || (l.todo.isEmpty && (l.total ≠ 0 || !l.fills.isEmpty)) || !workDue s l.d l.due) = true := by
    simp [hr, hdue, htodo]
  have hmeets : ¬ (dExact f.desc && (missedTick s f || decide (n < l.todo.length))) = true := by simp [hexact]
  have hput : modStaging (fun g => { g with
      written := (l.todo.take n).reverse ++ g.written,
      loads := g.loads.map (fun x => if x.d = l.d then { l with todo := l.todo.drop n } else x) }) s =
        { s with route.staging := some (entriesWritten n l g) } := by
    rw [modStaging_some hg, hl, entriesWritten]
    simp
  simp only [writeLoad, hf]
  rw [if_neg hserve, if_neg hmeets, hput, modStaging_load (g := entriesWritten n l g) rfl rfl rfl]

/-- A load whose entries exceed what is left is carried to the next boundary with the rest, which counts an overrun (R54). -/
theorem writeLoad_carries {n : Nat} (hn : n < l.todo.length) : writeLoad l n s = (0, bumpModule 6 { s with
    route.staging := some { entriesWritten n l g with loads := [{ l with todo := l.todo.drop n, carried := true }] } }) := by
  rw [writeLoad_due hg hl hr hf hdue hexact htodo]
  exact if_pos (by simpa using hn)

/-- A load whose entries all go in, and whose frames are all owned, ends (R310). -/
theorem writeLoad_ends {n : Nat} (hn : l.todo.length ≤ n)
    (hown : ∀ e ∈ mappedFrames (stagedCoat s { g with written := l.todo.reverse ++ g.written } l.base),
      (tblGet none s.larder.owner e.1).isSome = true) :
    (writeLoad l n s).2 = loadDone { l with todo := l.todo.drop n, fills := [] } { s with
      route.staging := some { entriesWritten n l g with loads := [{ l with todo := l.todo.drop n, fills := [] }] } } := by
  have htake : takeFrames l.base { s with route.staging := some (entriesWritten n l g) }
      = ([], { s with route.staging := some (entriesWritten n l g) }) := by
    refine takeFrames_owned rfl ?_
    rw [entriesWritten, List.take_of_length_le hn]
    exact hown
  rw [writeLoad_due hg hl hr hf hdue hexact htodo, if_neg (by simpa using hn), htake]
  exact congrArg (loadDone _) (modStaging_load (g := entriesWritten n l g) rfl rfl rfl _)

end

/-- An area whose load has ended keeps the load's base and clear_excl, and forgets the load (R310). -/
def areaAfter (l : CoatLoad) (g : Staging) : Staging :=
  { g with loads := g.loads.filter (fun x => x.d ≠ l.d), base := l.base, clr := l.clr }

theorem loadDone_host (l : CoatLoad) (s : State) :
    HostOnly { s with route.staging := s.route.staging.map (areaAfter l) } (loadDone l s) := complete_host ..

section
variable (h0 : s.tick.slot = 0) (hn : s.tick.phase ≤ 5) (hg : s.route.staging = some g) (hl : g.loads = [l]) (hr : l.ready = true)
  (hf : flightOf s l.d = some f) (hdue : workDue s l.d l.due = true) (hexact : dExact f.desc = false)
include h0 hn hg hl hr hf hdue hexact

theorem stagingWrite_carries (hlong : 512 < l.todo.length) : Completes .coatStagingWrite s fun t =>
    t.route.staging = some { g with written := (l.todo.take 512).reverse ++ g.written,
                                    loads := [{ l with todo := l.todo.drop 512, carried := true }] }
    ∧ t.counts = (bumpModule 6 s).counts
    ∧ t = { s with route := { s.route with staging := t.route.staging }, counts := t.counts, tick := { s.tick with phase := 6 } } := by
  have htodo : l.todo ≠ [] := List.ne_nil_of_length_pos (by omega)
  refine ⟨_, stagingWrite_single h0 hn hg hl, ?_⟩
  rw [writeLoad_carries (s := { s with tick.phase := 6 }) hg hl hr hf hdue hexact htodo hlong]
  exact ⟨rfl, rfl, rfl⟩

theorem stagingWrite_ends (htodo : l.todo ≠ []) (hfits : l.todo.length ≤ 512)
    (hown : ∀ e ∈ mappedFrames (stagedCoat s { g with written := l.todo.reverse ++ g.written } l.base),
      (tblGet none s.larder.owner e.1).isSome = true) : Completes .coatStagingWrite s fun t =>
    t.route.staging = some { g with written := l.todo.reverse ++ g.written, loads := [], base := l.base, clr := l.clr }
    ∧ flightOf t l.d = none ∧ t.route.top = s.route.top ∧ t.larder = s.larder := by
  refine ⟨_, stagingWrite_single h0 hn hg hl, ?_⟩
  rw [writeLoad_ends (s := { s with tick.phase := 6 }) hg hl hr hf hdue hexact htodo hfits hown]
  refine ⟨?_, flightOf_complete_self .., ?_⟩
  · rw [(loadDone_host ..).eq]
    simp [areaAfter, entriesWritten, List.take_of_length_le hfits]
  · rw [(loadDone_host ..).eq]
    exact ⟨rfl, rfl⟩

end

end

end Machine
end Sys2Proof
end

section
/-!
PROOF. The switch of coats at step 4 of a boundary and the retirement of the undercoat (R295, R296, R301, R304 to R306, R310, R390, R391).
-/
namespace Sys2Proof
namespace Machine

/-! ### The switch itself (R295, R296, R301) -/

theorem coatPut_num (c : Coat) (e : CoatTable × Nat × Nat) : (coatPut c e).num = c.num := by
  obtain ⟨t, i, v⟩ := e
  cases t <;> rfl

/-- The staging area makes a coat of its own number. -/
theorem stagedCoat_num (s : State) (g : Staging) (base : Bool) : (stagedCoat s g base).num = g.num :=
  List.foldlRecOn (motive := fun c => c.num = g.num) _ _ (by cases base <;> rfl) fun c hc e _ => (coatPut_num c e).trans hc

/-- The coats after a switch. -/
def switchedRoute (g : Staging) (s : State) : Route := { s.route with
  top := stagedCoat s g g.base, under := some s.route.top, lastUnder := s.tick.elapsed - 1, switched := some s.tick.elapsed,
  staging := none, switches := s.route.switches.filter (fun w => w.coat ≠ g.num), excl := if g.clr then [] else s.route.excl }

theorem switchNow_host (g s) : HostOnly { s with route := switchedRoute g s } (switchNow g s) :=
  HostOnly.foldl (fun s d => complete_host d stOk _ s) ..

theorem switchNow_route (g s) : (switchNow g s).route = switchedRoute g s := by
  rw [(switchNow_host g s).eq]

/-- Every COAT_SWITCH in flight that names the staging area's coat ends (R311). -/
theorem flightOf_switchNow {s : State} {g : Staging} {f : InFlight} (hf : f ∈ s.rings.flight) (ho : dOpcode f.desc = 0x51)
    (hc : dCoat f = g.num) : flightOf (switchNow g s) f.ref = none :=
  flightOf_foldl_complete (List.mem_map_of_mem (List.mem_filter.mpr ⟨hf, by simp [ho, hc]⟩)) stOk _ _

theorem switchNow_spec (s : State) (g : Staging) : let t := switchNow g s
    t.route = switchedRoute g s ∧ t.route.top.num = g.num
      ∧ (∀ f ∈ s.rings.flight, dOpcode f.desc = 0x51 → dCoat f = g.num → flightOf t f.ref = none)
      ∧ HostOnly { s with route := t.route } t := by
  intro t
  rw [switchNow_route]
  exact ⟨rfl, stagedCoat_num .., fun f hf ho hc => flightOf_switchNow hf ho hc, switchNow_host g s⟩

/-! ### COAT_SWITCH_APPLY (R301, R310, R311) -/

/-- The switches whose boundary has come. -/
def dueSwitches (s : State) : List SwitchWait := s.route.switches.filter (fun w => workDue s w.d w.due)

section
variable {s : State} {g : Staging}

theorem switchApply_waits (h : s.tick.slot ≠ 0 ∨ 4 < s.tick.phase ∨ dueSwitches s = []) : NoEffect .coatSwitchApply s := by
  change execCoatSwitchApply s = _
  rcases or_assoc.mpr h with h | hdue
  · exact if_pos (by simp [atStep_not_due h])
  · have hdue' : s.route.switches.filter (fun w => workDue s w.d w.due) = [] := hdue
    simp only [execCoatSwitchApply, hdue', ite_self]

/-- With the staging area closed each due switch ends with 0x11. -/
theorem switchApply_closed (h0 : s.tick.slot = 0) (hn : s.tick.phase ≤ 4) (hg : s.route.staging = none) (hdue : dueSwitches s ≠ []) :
    exec .coatSwitchApply s = .next ((dueSwitches s).foldl (fun s w => complete w.d stStaleCoat 0 s)
      (setPhase 5 { s with route.switches := s.route.switches.filter (fun w => !workDue s w.d w.due) })) := by
  change execCoatSwitchApply s = _
  obtain ⟨w, ws, hws⟩ := List.exists_cons_of_ne_nil hdue
  have hws' : s.route.switches.filter (fun w => workDue s w.d w.due) = w :: ws := hws
  simp only [execCoatSwitchApply, atStep_due h0 hn, hg, hws, hws']
  rfl

/-- The due switches whose exact tick has passed (R53). -/
def lateSwitches (s : State) : List SwitchWait :=
  (dueSwitches s).filter (fun w => match flightOf s w.d with | some f => missedTick s f | none => false)

/-- The coats of a state: topcoat, undercoat and staging area. -/
def coatsOf (s : State) : Coat × Option Coat × Option Staging := (s.route.top, s.route.under, s.route.staging)

theorem coatsOf_eq_iff {s t : State} : coatsOf t = coatsOf s ↔
    t.route.top = s.route.top ∧ t.route.under = s.route.under ∧ t.route.staging = s.route.staging := by
  simp [coatsOf]

theorem HostOnly.coatsOf {s t : State} (h : HostOnly s t) : Machine.coatsOf t = Machine.coatsOf s := by
  obtain ⟨_, _, _, rfl⟩ := h
  exact Eq.refl _

theorem coatsOf_foldl {α : Type} {act : State → α → State} (h : ∀ s x, coatsOf (act s x) = coatsOf s) (xs : List α) (s : State) :
    coatsOf (xs.foldl act s) = coatsOf s :=
  List.foldlRecOn (motive := fun t => coatsOf t = coatsOf s) xs act rfl fun t ht x _ => (h t x).trans ht

/-- A switch that misses its exact tick ends, and another waits on: no coat changes. -/
theorem coatsOf_switchMiss (w s) : coatsOf (switchMiss w s) = coatsOf s := by
  unfold switchMiss
  split
  · split
    · exact (complete_host ..).coatsOf
    · exact (bumpModule_host ..).coatsOf
  · rfl

/-- With the staging area open the due switches miss their tick, wait, are refused or are made. -/
theorem switchApply_open (h0 : s.tick.slot = 0) (hn : s.tick.phase ≤ 4) (hg : s.route.staging = some g) (hdue : dueSwitches s ≠ []) :
    exec .coatSwitchApply s =
      let t := (lateSwitches s).foldl (fun s w => switchMiss w s) (setPhase 5 s)
      if decide ((lateSwitches s).length = (dueSwitches s).length) then .next t
      else if !g.loads.isEmpty || t.route.under.isSome then .next ((dueSwitches s).foldl (fun s w => switchMiss w s) t)
      else if !stagedOk t (stagedCoat t g g.base) then
        .next ((dueSwitches s).foldl (fun s w => complete w.d stBad 0 s)
          { t with route.switches := t.route.switches.filter (fun w => !workDue t w.d w.due) })
      else .next (switchNow g t) := by
  change execCoatSwitchApply s = _
  obtain ⟨w, ws, hws⟩ := List.exists_cons_of_ne_nil hdue
  have hws' : s.route.switches.filter (fun w => workDue s w.d w.due) = w :: ws := hws
  simp only [execCoatSwitchApply, atStep_due h0 hn, hg, hws', lateSwitches, hws]
  rfl

/-- The coats stay while an undercoat stands, while a load is open, and with the staging area closed. -/
theorem switchApply_keeps (hbusy : s.route.under.isSome = true ∨ ∀ g, s.route.staging = some g → g.loads ≠ []) :
    Completes .coatSwitchApply s fun t => coatsOf t = coatsOf s := by
  by_cases hwait : s.tick.slot ≠ 0 ∨ 4 < s.tick.phase ∨ dueSwitches s = []
  · exact ⟨s, switchApply_waits hwait, rfl⟩
  obtain ⟨h0, hn, hdue⟩ : s.tick.slot = 0 ∧ s.tick.phase ≤ 4 ∧ dueSwitches s ≠ [] := by simpa using hwait
  cases hg : s.route.staging with
  | none =>
    exact ⟨_, switchApply_closed h0 hn hg hdue, coatsOf_foldl (fun s (w : SwitchWait) => (complete_host w.d stStaleCoat 0 s).coatsOf) ..⟩
  | some g =>
    rw [Completes, switchApply_open h0 hn hg hdue]
    extract_lets t
    have ht : coatsOf t = coatsOf s := coatsOf_foldl (fun s w => coatsOf_switchMiss w s) ..
    obtain ⟨-, hunder, -⟩ := coatsOf_eq_iff.mp ht
    by_cases hall : decide ((lateSwitches s).length = (dueSwitches s).length) = true
    · exact ⟨t, if_pos hall, ht⟩
    · have hstop : (!g.loads.isEmpty || t.route.under.isSome) = true := by
        rcases hbusy with h | h
        · simp [hunder, h]
        · simp [h g hg]
      exact ⟨_, (if_neg hall).trans (if_pos hstop), (coatsOf_foldl (fun s w => coatsOf_switchMiss w s) ..).trans ht⟩

/-- A due switch whose loads are complete is made at once where no undercoat stands (R296, R301, R310). -/
theorem switchApply_switches (h0 : s.tick.slot = 0) (hn : s.tick.phase ≤ 4) (hg : s.route.staging = some g) (hl : g.loads = [])
    (hu : s.route.under = none) (hdue : dueSwitches s ≠ [])
    (hmet : ∀ w ∈ s.route.switches, ∀ f, flightOf s w.d = some f → missedTick s f = false)
    (hok : stagedOk s (stagedCoat s g g.base) = true) : exec .coatSwitchApply s = .next (switchNow g (setPhase 5 s)) := by
  have hlate : lateSwitches s = [] := by
    refine List.filter_eq_nil_iff.mpr fun w hw => ?_
    cases hf : flightOf s w.d with
    | none => simp
    | some f => simp [hmet w (List.mem_of_mem_filter hw) f hf]
  have hlen : ¬ 0 = (dueSwitches s).length := fun h => hdue (List.length_eq_zero_iff.mp h.symm)
  have hok' : stagedOk (setPhase 5 s) (stagedCoat (setPhase 5 s) g g.base) = true := hok
  rw [switchApply_open h0 hn hg hdue, hlate]
  simp [hlen, hl, hu, hok']

end

/-! ### UNDERCOAT_RETIRE (R304, R305, R390, R391) -/

/-- A write of other keys leaves a key as it was. -/
theorem tblGet_foldl_tblSet_ne {α β : Type} [DecidableEq α] {d : α} {key : β → Nat} {val : β → α} {k : Nat} (xs : List β)
    (h : ∀ x ∈ xs, key x ≠ k) (t : Tbl α) : tblGet d (xs.foldl (fun t x => tblSet d t (key x) (val x)) t) k = tblGet d t k :=
  List.foldlRecOn (motive := fun u => tblGet d u k = tblGet d t k) xs _ rfl fun u hu x hx =>
    (tblGet_tblSet_ne d u (key x) k (val x) (h x hx).symm).trans hu

/-- A frame that no coat maps belongs to nobody once ownership follows the coats (R391). -/
theorem reown_unmapped {s : State} {fr : Nat} (hg : s.route.staging = none) (hfr : ∀ e ∈ heldFrames s, e.1 ≠ fr) :
    tblGet none (reown s).larder.owner fr = none := by
  have hframes : (reown s).larder.owner = (heldFrames s ++ []).foldl
      (fun t (e : Nat × BitVec 8) => tblSet none t e.1 (some e.2)) [] := by
    simp only [reown, hg]
  rw [hframes, List.append_nil]
  exact tblGet_foldl_tblSet_ne _ hfr []

section
variable {s : State} {u : Coat}

theorem undercoatRetire_retires (hu : s.route.under = some u) (h0 : s.tick.slot = 0) (hn : s.tick.phase ≤ 4)
    (hage : retireAge s + 2 ≤ ageOf s s.route.lastUnder) (hidle : coatBusy s u.num = false) :
    Completes .undercoatRetire s fun t => t.route = { s.route with under := none }
      ∧ t.larder.cache = s.larder.cache.filter (fun e => e.1 ≠ u.num)
      ∧ (s.route.staging = none → ∀ fr, (∀ e ∈ mappedFrames s.route.top, e.1 ≠ fr) → tblGet none t.larder.owner fr = none)
      ∧ t.larder.mem = s.larder.mem
      ∧ t = { s with route := t.route, larder := t.larder, tick := { s.tick with phase := 4 } } := by
  have hexec : exec .undercoatRetire s = .next (reown (setPhase 4 { s with
      route.under := none, larder.cache := s.larder.cache.filter (fun e => e.1 ≠ u.num) })) := by
    change execUndercoatRetire s = _
    simp only [execUndercoatRetire, hu]
    exact if_neg (by simp [atStep_due h0 hn, hage, hidle])
  rw [setPhase_eq (by exact hn)] at hexec
  refine ⟨_, hexec, rfl, rfl, fun hg fr hfr => reown_unmapped hg ?_, rfl, rfl⟩
  simpa [heldFrames] using hfr

theorem undercoatRetire_waits (h : s.route.under = none ∨ ∃ u, s.route.under = some u
      ∧ (ageOf s s.route.lastUnder < retireAge s + 2 ∨ coatBusy s u.num = true ∨ s.tick.slot ≠ 0)) : NoEffect .undercoatRetire s := by
  change execUndercoatRetire s = _
  rcases h with hu | ⟨u, hu, h⟩
  · simp only [execUndercoatRetire, hu]
  · simp only [execUndercoatRetire, hu]
    refine if_pos ?_
    rcases h with hage | hbusy | h0
    · simp [hage]
    · simp [hbusy]
    · simp [atStep_not_due (n := 4) (.inl h0)]

/-! ### ORDERED_HOLD_RELEASE (R306) -/

/-- A held packet whose wait is over may cross. -/
def holdReleased (s : State) (p : InPort) : InPort :=
  { p with queue := p.queue.map (fun q => if reached s q.holdTo then { q with holdTo := 0 } else q) }

theorem orderedHoldRelease_releases (h0 : s.tick.slot = 0) (hw : tblWf {} s.core.inp = true) :
    Completes .orderedHoldRelease s fun t => (∀ i : PortId, inPort t i = holdReleased s (inPort s i))
      ∧ t = { s with core := { s.core with inp := t.core.inp } } :=
  ⟨{ s with core.inp := tblMap {} (fun _ p => holdReleased s p) s.core.inp }, if_neg (by simp [h0]),
    fun _ => tblGet_tblMap rfl hw, rfl⟩

theorem orderedHoldRelease_waits (h : s.tick.slot ≠ 0) : NoEffect .orderedHoldRelease s := if_pos h

end

end Machine
end Sys2Proof
end

section
/-!
PROOF. The end of a frame's fill (R393, R397) and of an outcome record (R318, R319), and the statement of CoatsStagedSwitchedRetired.
-/
namespace Sys2Proof
namespace Machine

/-! ### Bytes of a frame (R393, R397) -/

section
variable {α : Type} {d : α} {p : Nat × α → Bool} {k : Nat}

/-- A filter that lets a key through leaves it as it was. -/
theorem tblGet_filter_kept (h : ∀ v, p (k, v) = true) : ∀ t : Tbl α, tblGet d (t.filter p) k = tblGet d t k
  | [] => rfl
  | (i, v) :: t => by
    have ih := tblGet_filter_kept h t
    by_cases hi : i = k
    · simp [hi, h, tblGet]
    · cases hp : p (i, v) <;> simp [hp, hi, tblGet, ih]

/-- A filter that stops a key leaves the default at it. -/
theorem tblGet_filter_dropped (h : ∀ v, p (k, v) = false) : ∀ t : Tbl α, tblGet d (t.filter p) k = d
  | [] => rfl
  | (i, v) :: t => by
    have ih := tblGet_filter_dropped h t
    by_cases hi : i = k
    · simp [hi, h, ih]
    · cases hp : p (i, v) <;> simp [hp, hi, tblGet, ih]

end

/-- A frame filled with zeros reads zero. -/
theorem zeroFrame_inside {fr a : Nat} (hlo : fr * 0x200000 ≤ a) (hhi : a < (fr + 1) * 0x200000) (s : State) :
    tblGet 0 (zeroFrame fr s).larder.mem a = 0 := tblGet_filter_dropped (fun _ => by simp [hlo, hhi]) _

/-- No byte outside the frame changes. -/
theorem zeroFrame_outside {fr a : Nat} (h : a < fr * 0x200000 ∨ (fr + 1) * 0x200000 ≤ a) (s : State) :
    tblGet 0 (zeroFrame fr s).larder.mem a = tblGet 0 s.larder.mem a := by
  refine tblGet_filter_kept (fun _ => ?_) _
  rcases h with h | h
  · simp [h]
  · simp [h]

theorem zeroFrame_route (fr s) : (zeroFrame fr s).route = s.route := rfl

/-! ### FRAME_FILL_DONE (R393, R394, R397) -/

/-- The Larder with the frame filled, and the fill gone. -/
def frameFilled (fr : Nat) (s : State) : State :=
  zeroFrame fr { s with larder.fills := s.larder.fills.filter (fun x => x.frame ≠ fr) }

/-- What the end of a load leaves alone of coats and Larder. -/
def loadFrame (s : State) : Coat × Option Coat × Larder := (s.route.top, s.route.under, s.larder)

theorem loadFrame_eq_iff {s t : State} : loadFrame t = loadFrame s ↔
    t.route.top = s.route.top ∧ t.route.under = s.route.under ∧ t.larder = s.larder := by
  simp [loadFrame]

theorem loadFrame_loadDone (l s) : loadFrame (loadDone l s) = loadFrame s := by
  rw [(loadDone_host l s).eq]
  rfl

/-- No end of a load puts a descriptor in flight. -/
theorem flightOf_loadDone_none {s : State} {e : DRef} (h : flightOf s e = none) (l) : flightOf (loadDone l s) e = none :=
  flightOf_complete_none (s := modStaging _ s) h ..

section
variable {s : State} {fr : BitVec 20}

theorem frameFillDone_waits (h : s.larder.fills.any (fun x => x.frame = fr.toNat && fillEnded x) = false) :
    NoEffect (.frameFillDone fr) s := if_pos (by simp [h])

theorem frameFillDone_zeros (h : s.larder.fills.any (fun x => x.frame = fr.toNat && fillEnded x) = true) (hg : s.route.staging = none) :
    Completes (.frameFillDone fr) s fun t =>
      (∀ a, fr.toNat * 0x200000 ≤ a → a < (fr.toNat + 1) * 0x200000 → tblGet 0 t.larder.mem a = 0)
      ∧ (∀ a, a < fr.toNat * 0x200000 ∨ (fr.toNat + 1) * 0x200000 ≤ a → tblGet 0 t.larder.mem a = tblGet 0 s.larder.mem a)
      ∧ t.larder.fills = s.larder.fills.filter (fun x => x.frame ≠ fr.toNat) ∧ (s.larder.memWf = true → t.larder.memWf = true)
      ∧ t = { s with larder := t.larder } := by
  have hexec : exec (.frameFillDone fr) s = .next (frameFilled fr.toNat s) := by
    change execFrameFillDone fr s = _
    simp only [execFrameFillDone, h, zeroFrame_route, hg]
    rfl
  exact ⟨_, hexec, fun a hlo hhi => zeroFrame_inside hlo hhi _, fun a ha => zeroFrame_outside ha _, rfl,
    fun hw => tblWf_filter _ 0 _ hw, rfl⟩

/-- The loads that wait for the frame alone, their entries written. -/
def loadsFilled (fr : Nat) (g : Staging) : List CoatLoad := g.loads.filter (fun l => l.ready && l.todo.isEmpty && l.fills = [fr])

/-- No load of the staging area waits for the frame any more. -/
def waitsForgotten (fr : Nat) (s : State) : State :=
  modStaging (fun g => { g with loads := g.loads.map (fun l => { l with fills := l.fills.filter (· ≠ fr) }) }) s

/-- Once a frame is filled no load waits for it, and those that waited for it alone end (R393). -/
theorem frameFillDone_loads {g : Staging} (h : s.larder.fills.any (fun x => x.frame = fr.toNat && fillEnded x) = true)
    (hg : s.route.staging = some g) : Completes (.frameFillDone fr) s fun t =>
      t.larder = (frameFilled fr.toNat s).larder
      ∧ (∀ l ∈ g.loads, l.ready = true → l.todo = [] → l.fills = [fr.toNat] → flightOf t l.d = none)
      ∧ t.route.top = s.route.top ∧ t.route.under = s.route.under := by
  have hexec : exec (.frameFillDone fr) s = .next ((loadsFilled fr.toNat g).foldl (fun s l => loadDone l s)
      (waitsForgotten fr.toNat (frameFilled fr.toNat s))) := by
    change execFrameFillDone fr s = _
    simp only [execFrameFillDone, h, zeroFrame_route, hg]
    rfl
  refine ⟨_, hexec, ?_⟩
  have hkept := List.foldlRecOn (motive := fun t => loadFrame t = loadFrame (frameFilled fr.toNat s)) (loadsFilled fr.toNat g)
    (fun s l => loadDone l s) (b := waitsForgotten fr.toNat (frameFilled fr.toNat s)) rfl fun t ht l _ => (loadFrame_loadDone l t).trans ht
  obtain ⟨htop, hunder, hlarder⟩ := loadFrame_eq_iff.mp hkept
  refine ⟨hlarder, fun l hl hr htodo hfills => ?_, htop, hunder⟩
  exact flightOf_foldl_mem (fun _ l hd => flightOf_loadDone_none hd l) (fun _ => flightOf_complete_self ..)
    (List.mem_filter.mpr ⟨hl, by simp [hr, htodo, hfills]⟩) _

end

/-! ### MC_OUTCOME_RECORD_TIMEOUT (R318, R319) -/

theorem records_touchUnder (n s) : (touchUnder n s).route.records = s.route.records := by
  unfold touchUnder
  split
  · split <;> rfl
  · rfl

theorem records_enqueueNow (i k o u q bad hold p s r) : (enqueueNow i k o u q bad hold p s r).route.records = s.route.records :=
  (records_touchUnder ..).trans rfl

theorem records_enqueue (i k o u q bad hold p s r) : (enqueue i k o u q bad hold p s r).route.records = s.route.records := by
  unfold enqueue
  split
  · exact records_enqueueNow ..
  · split
    · exact records_enqueueNow ..
    · rfl

theorem records_hopIngress (i p s) : (hopIngress i p s).2.route.records = s.route.records := by
  unfold hopIngress
  extract_lets e start t
  have ht : t.route.records = s.route.records := by
    unfold t
    split <;> rfl
  split
  · split
    · exact ht
    · exact ht
  · rfl

/-- A packet that enters the core changes no outcome record. -/
theorem records_inject (i p s) : (inject i p s).route.records = s.route.records := by
  have hop := records_hopIngress i (sealPkt (stamp s p)) s
  unfold inject
  extract_lets q
  split
  · split
    · exact records_enqueue ..
    · rfl
  · split
    next h => exact (records_enqueue ..).trans (h ▸ hop :)
    next h => exact (h ▸ hop :)

theorem closeRecord_records (r s) :
    (closeRecord r s).route.records = s.route.records.filter (fun x => x.src ≠ r.src || x.tag ≠ r.tag) := records_inject ..

/-- A record whose outputs that are still short count as failed. -/
def recordAged (r : Outcome) : Outcome := { r with outs := r.outs.map (fun o =>
  if o.ok + o.bad < r.itemLen then { o with bad := r.itemLen - o.ok, status := if o.status ≠ 0 then o.status else stAged } else o) }

section
variable {s : State} {src : BitVec 12} {tag : BitVec 16}

theorem exec_recordTimeout {r : Outcome} (hr : s.route.records.find? (fun r => r.src = src && r.tag = tag) = some r)
    (h0 : s.tick.slot = 0) (hage : ageLimit s + 8 ≤ ageOf s r.last) :
    exec (.mcOutcomeRecordTimeout src tag) s = .next (closeRecord (recordAged r) s) := by
  change execMcOutcomeRecordTimeout src tag s = _
  simp only [execMcOutcomeRecordTimeout, hr]
  exact if_neg (by simp [h0, hage])

theorem recordTimeout_closes {r : Outcome} (hr : s.route.records.find? (fun r => r.src = src && r.tag = tag) = some r)
    (h0 : s.tick.slot = 0) (hage : ageLimit s + 8 ≤ ageOf s r.last) : Completes (.mcOutcomeRecordTimeout src tag) s fun t =>
      t.route.records = s.route.records.filter (fun x => x.src ≠ src || x.tag ≠ tag) ∧ t.larder = s.larder := by
  have hname := List.find?_some hr
  obtain ⟨rfl, rfl⟩ : r.src = src ∧ r.tag = tag := by simpa using hname
  refine ⟨_, exec_recordTimeout hr h0 hage, closeRecord_records .., ?_⟩
  obtain ⟨_, _, _, _, h⟩ := closeRecord_core (recordAged r) s
  rw [h]

theorem recordTimeout_waits
    (h : s.tick.slot ≠ 0 ∨ ∀ r ∈ s.route.records, r.src = src → r.tag = tag → ageOf s r.last < ageLimit s + 8) :
    NoEffect (.mcOutcomeRecordTimeout src tag) s := by
  change execMcOutcomeRecordTimeout src tag s = _
  unfold execMcOutcomeRecordTimeout
  split
  next => rfl
  next r hr =>
    refine if_pos ?_
    rcases h with h0 | hage
    · simp [h0]
    · have hname := List.find?_some hr
      obtain ⟨hsrc, htag⟩ : r.src = src ∧ r.tag = tag := by simpa using hname
      simp [hage r (List.mem_of_find?_eq_some hr) hsrc htag]

end

/-! ### The statement -/

/-- Settles O16: each clause is the lemma of its command. -/
theorem coatsStagedSwitchedRetired : Obligations.CoatsStagedSwitchedRetired := by
  unfold Obligations.CoatsStagedSwitchedRetired
  refine ⟨⟨?_, fun s d f h hg hheld hmin hmax => coatLoad_first h hg hheld hmin hmax, fun s d f h hbad => coatLoad_refused h hbad,
      fun s d f g h hg hnum => coatSwitch_waits h hg hnum, fun s d f h hg => coatSwitch_stale h hg,
      fun s d f h hg => coatAbort_closed h hg, fun s d f g h hg => coatAbort_closes h hg, fun s d f h => coatQuery_answers h,
      fun s d f h => ⟨exec_exclClear h, exclClear_empties h⟩⟩,
    ⟨fun s g h0 hn hg => exec_stagingWrite h0 hn hg,
      fun s g l f h0 hn hg hl hr hf hdue hexact hlong => stagingWrite_carries h0 hn hg hl hr hf hdue hexact hlong,
      fun s g l f h0 hn hg hl hr hf hdue hexact htodo hfits hown => stagingWrite_ends h0 hn hg hl hr hf hdue hexact htodo hfits hown,
      fun s h => stagingWrite_waits h, mem_loadOrder⟩,
    ⟨fun s g h0 hn hg hl hu hdue hmet hok => switchApply_switches h0 hn hg hl hu hdue hmet hok, switchNow_spec,
      fun s h0 hn hg hdue => switchApply_closed h0 hn hg hdue, ?_, ?_, fun s h => switchApply_waits h⟩,
    ⟨fun s u hu h0 hn hage hidle => undercoatRetire_retires hu h0 hn hage hidle,
      fun s u hu h => undercoatRetire_waits (.inr ⟨u, hu, h⟩), fun s hu => undercoatRetire_waits (.inl hu),
      fun s h0 hw => orderedHoldRelease_releases h0 hw, fun s h => orderedHoldRelease_waits h⟩,
    ⟨fun s fr h hg => frameFillDone_zeros h hg, fun s fr g h hg => frameFillDone_loads h hg, fun s fr h => frameFillDone_waits h,
      fun s src tag r hr h0 hage => ⟨exec_recordTimeout hr h0 hage, recordTimeout_closes hr h0 hage⟩,
      fun s src tag h => recordTimeout_waits h⟩⟩
  · exact fun s d f h hheld hnum hmin hmax => coatLoad_opens h rfl hheld hnum hmin hmax
  · intro s hu
    obtain ⟨t, hexec, ht⟩ := switchApply_keeps (.inl hu)
    exact ⟨t, hexec, coatsOf_eq_iff.mp ht⟩
  · intro s g hg hl
    obtain ⟨t, hexec, ht⟩ := switchApply_keeps (s := s) (.inr fun g' hg' => Option.some.inj (hg.symm.trans hg') ▸ hl)
    obtain ⟨htop, hunder, -⟩ := coatsOf_eq_iff.mp ht
    exact ⟨t, hexec, htop, hunder⟩

end Machine
end Sys2Proof
end

section
/-!
PROOF. The buckets of shapers and meters (chapter 09): their refill at step 7 (R329, R330, R343, R348), their charge at a start and by a
metered packet (R331, R343, R344), and the statement of BucketsStayWithinBursts.
-/
namespace Sys2Proof
namespace Machine

/-! ### Refills at step 7 (R329, R330, R343, R348) -/

section
variable {en : Bool} {tok rate burst largest : Nat}

/-- Enabled or not, the bucket ends at the burst or the port's largest charge, whichever is larger (R330). -/
theorem refillBucket_le_burst : refillBucket en tok rate burst largest ≤ max burst largest * 256 := by
  cases en
  case false => exact min_le_right ..
  case true => exact min_le_right ..

/-- A refill takes nothing from a bucket within its burst. -/
theorem le_refillBucket (h : tok ≤ max burst largest * 256) : tok ≤ refillBucket en tok rate burst largest := by
  cases en
  case false => exact le_min le_rfl h
  case true => exact le_min (Nat.le_add_right ..) h

theorem refillBucket_disabled_le : refillBucket false tok rate burst largest ≤ tok := min_le_left ..

end

/-- After step 7 both buckets of a meter are within cbs and pebs: full where the mode changed, clamped in every mode (R348). -/
theorem refillMeter_le_bursts (s : State) (i : Nat) (m : Meter) :
    (refillMeter s i m).tc ≤ fld (reg s .tmMeter i 0 2) 0 24 * 256
    ∧ (refillMeter s i m).te ≤ fld (reg s .tmMeter i 0 2) 32 24 * 256 := by
  simp only [refillMeter]
  split_ifs
  case pos => exact ⟨le_rfl, le_rfl⟩
  all_goals exact ⟨min_le_right .., min_le_right ..⟩

/-! ### The charge of a start (R331) -/

section
variable {s : State} {l : LinkId} {v c : Nat}

/-- A start that the shapers allow finds its bytes in its queue's bucket where that shaper is enabled (Table 9-3, R332). -/
theorem charge_le_tokens_of_shapersOk (hok : shapersOk s l v c = true) (hen : shapeEn s l v = true) :
    c * 256 ≤ tblGet 0 (tmOf s l).tokens v := by
  obtain ⟨hqueue, -⟩ := Bool.and_eq_true_iff.mp hok
  simpa [hen] using hqueue

theorem tokens_chargeStart (hen : shapeEn s l v = true) {g : Tm} (hw : tblWf 0 g.tokens = true) (last : Bool) :
    tblGet 0 (chargeStart s l v c last g).tokens v = tblGet 0 g.tokens v - c * 256 := by
  simp only [chargeStart, hen, if_true]
  exact tblGet_tblSet_self 0 g.tokens v _ hw

/-- An allowed start takes its whole charge: the subtraction of R331 never stops at zero. -/
theorem tokens_chargeStart_add (hok : shapersOk s l v c = true) (hen : shapeEn s l v = true)
    (hw : tblWf 0 (tmOf s l).tokens = true) (last : Bool) :
    tblGet 0 (chargeStart s l v c last (tmOf s l)).tokens v + c * 256 = tblGet 0 (tmOf s l).tokens v := by
  rw [tokens_chargeStart hen hw]
  exact Nat.sub_add_cancel (charge_le_tokens_of_shapersOk hok hen)

end

/-! ### The decision of a meter (R343, R344, Table 9-5) -/

/-- What a meter answers for C bytes: it passes all outside modes 1 and 2, refuses with its buckets as they were, or takes the charge from
the buckets that its mode names for the colour, each of which holds it. -/
inductive MeterOutcome (mode : Nat) (arrivedYellow : Bool) (c : Nat) (m : Meter) : Colour × Meter → Prop
  | unmetered (h1 : mode ≠ 1) (h2 : mode ≠ 2) : MeterOutcome mode arrivedYellow c m (.green, m)
  | red : MeterOutcome mode arrivedYellow c m (.red, m)
  | yellow (hte : c * 256 ≤ m.te) : MeterOutcome mode arrivedYellow c m (.yellow, { m with te := m.te - c * 256 })
  | srtcmGreen (hmode : mode = 1) (hy : arrivedYellow = false) (htc : c * 256 ≤ m.tc) :
      MeterOutcome mode arrivedYellow c m (.green, { m with tc := m.tc - c * 256 })
  | trtcmGreen (hmode : mode = 2) (hy : arrivedYellow = false) (hte : c * 256 ≤ m.te) (htc : c * 256 ≤ m.tc) :
      MeterOutcome mode arrivedYellow c m (.green, { m with te := m.te - c * 256, tc := m.tc - c * 256 })

theorem meterDecide_outcome (mode : Nat) (yellow : Bool) (c : Nat) (m : Meter) :
    MeterOutcome mode yellow c m (meterDecide mode yellow c m) := by
  unfold meterDecide
  split_ifs with h1 hgreen hte h2 hshort hyellow
  · obtain ⟨hy, htc⟩ : yellow = false ∧ c * 256 ≤ m.tc := by simpa using hgreen
    exact .srtcmGreen h1 hy htc
  · exact .yellow hte
  · exact .red
  · exact .red
  · exact .yellow (not_lt.mp hshort)
  · obtain ⟨hy, htc⟩ : yellow = false ∧ c * 256 ≤ m.tc := by simpa using hyellow
    exact .trtcmGreen h2 hy (not_lt.mp hshort) htc
  · exact .unmetered h1 h2

namespace MeterOutcome

variable {mode : Nat} {arrivedYellow : Bool} {c : Nat} {m : Meter} {r : Colour × Meter}

theorem eq_of_red (h : MeterOutcome mode arrivedYellow c m r) (hr : r.1 = .red) : r.2 = m := by
  cases h with
  | unmetered | red => rfl
  | yellow | srtcmGreen | trtcmGreen => cases hr

/-- No outcome fills a bucket. -/
theorem le (h : MeterOutcome mode arrivedYellow c m r) : r.2.tc ≤ m.tc ∧ r.2.te ≤ m.te := by
  cases h with
  | unmetered | red => exact ⟨le_rfl, le_rfl⟩
  | yellow => exact ⟨le_rfl, Nat.sub_le ..⟩
  | srtcmGreen => exact ⟨Nat.sub_le .., le_rfl⟩
  | trtcmGreen => exact ⟨Nat.sub_le .., Nat.sub_le ..⟩

/-- RFC 2697 charges a packet that is not red to one bucket: a green one to Tc, a yellow one to Te. -/
theorem srtcm_charge (h : MeterOutcome mode arrivedYellow c m r) (hmode : mode = 1) (hr : r.1 ≠ .red) :
    r.2.tc + r.2.te + c * 256 = m.tc + m.te := by
  cases h with
  | unmetered h1 => exact absurd hmode h1
  | red => exact absurd rfl hr
  | yellow | srtcmGreen => dsimp only; omega
  | trtcmGreen => omega

/-- Either RFC charges a yellow packet to Te or Tp alone. -/
theorem yellow_charge (h : MeterOutcome mode arrivedYellow c m r) (hr : r.1 = .yellow) : r.2.te + c * 256 = m.te ∧ r.2.tc = m.tc := by
  cases h with
  | yellow hte => exact ⟨Nat.sub_add_cancel hte, rfl⟩
  | unmetered | red | srtcmGreen | trtcmGreen => cases hr

/-- RFC 2698 charges a green packet to both buckets. -/
theorem trtcm_green_charge (h : MeterOutcome mode arrivedYellow c m r) (hmode : mode = 2) (hr : r.1 = .green) :
    r.2.te + c * 256 = m.te ∧ r.2.tc + c * 256 = m.tc := by
  cases h with
  | unmetered _ h2 => exact absurd hmode h2
  | red | yellow => cases hr
  | srtcmGreen => omega
  | trtcmGreen _ _ hte htc => exact ⟨Nat.sub_add_cancel hte, Nat.sub_add_cancel htc⟩

/-- A yellow arrival is never made green (R344). -/
theorem ne_green_of_arrivedYellow (h : MeterOutcome mode arrivedYellow c m r) (hy : arrivedYellow = true) (hmode : mode = 1 ∨ mode = 2) :
    r.1 ≠ .green := by
  cases h with
  | unmetered h1 h2 => exact absurd hmode (not_or.mpr ⟨h1, h2⟩)
  | red | yellow => exact Colour.noConfusion
  | srtcmGreen _ hg | trtcmGreen _ hg => simp [hg] at hy

end MeterOutcome

/-! ### The statement -/

/-- Settles O15: the refills, the charge of a start, and each colour's charge by the cases of Table 9-5. -/
theorem bucketsStayWithinBursts : Obligations.BucketsStayWithinBursts := by
  unfold Obligations.BucketsStayWithinBursts
  refine ⟨fun _ _ _ _ _ => ⟨refillBucket_le_burst, le_refillBucket, refillBucket_disabled_le⟩, refillMeter_le_bursts,
    fun _ _ _ _ last hok hen hw => tokens_chargeStart_add hok hen hw last, fun mode yellow c m => ?_⟩
  have h := meterDecide_outcome mode yellow c m
  obtain ⟨htc, hte⟩ := h.le
  exact ⟨h.eq_of_red, htc, hte, h.srtcm_charge, fun _ => h.yellow_charge, h.trtcm_green_charge, h.ne_green_of_arrivedYellow⟩

end Machine
end Sys2Proof
end

section
/-!
PROOF. Skim-Z (chapter 10): the units and the bitmap of a group (R368, R369), what the decoder and the stream reader find in a group
that the encoder wrote (R370, R371), and the statement of SkimZLossless.
-/
namespace Sys2Proof
namespace Machine

/-! ### Units (R368) -/

theorem upFrom_zero (n : Nat) : upFrom 0 n = List.range n := by
  rw [upFrom_eq_range', List.range_eq_range']

theorem slice_append_mid (xs ys zs : List Byte) : slice (xs ++ (ys ++ zs)) xs.length ys.length = ys := by
  simp [slice]

theorem slice_of_le {bs : List Byte} {i n : Nat} (h : i + n ≤ bs.length) : slice bs i n = (bs.drop i).take n := by
  have hlen : ((bs.drop i).take n).length = n := by
    rw [List.length_take, List.length_drop]
    omega
  simp [slice, hlen]

/-- The first `n` units of `w` bytes. -/
def zUnits (w n : Nat) (bs : List Byte) : List (List Byte) := (upFrom 0 n).map (fun j => slice bs (w * j) w)

@[simp] theorem length_zUnits (w n bs) : (zUnits w n bs).length = n := by
  simp [zUnits, upFrom_zero]

theorem length_of_mem_zUnits {w n : Nat} {bs u : List Byte} (h : u ∈ zUnits w n bs) : u.length = w := by
  obtain ⟨j, -, rfl⟩ := List.mem_map.mp h
  simp only [slice, List.length_append, List.length_replicate, List.length_take]
  omega

theorem flatten_zUnits {w n : Nat} {bs : List Byte} (h : w * n ≤ bs.length) : (zUnits w n bs).flatten = bs.take (w * n) := by
  induction n with
  | zero => rfl
  | succ n ih =>
    have hsplit : zUnits w (n + 1) bs = zUnits w n bs ++ [slice bs (w * n) w] := by
      simp [zUnits, upFrom_zero, List.range_succ]
    rw [Nat.mul_succ] at h ⊢
    rw [hsplit, List.flatten_append, ih (by omega), List.flatten_singleton, slice_of_le h, List.take_add]

/-- A unit is zero only when every bit of it is 0 (R368). -/
def isZeroUnit (u : List Byte) : Bool := u.all (· = 0)

theorem eq_replicate_of_isZeroUnit {u : List Byte} (h : isZeroUnit u = true) : u = List.replicate u.length 0 := by
  refine List.eq_replicate_iff.mpr ⟨rfl, fun b hb => ?_⟩
  exact of_decide_eq_true (List.all_eq_true.mp h b hb)

/-- The units that a group holds. -/
def zKept (us : List (List Byte)) : List (List Byte) := us.filter (fun u => !isZeroUnit u)

theorem zKept_append (us vs : List (List Byte)) : zKept (us ++ vs) = zKept us ++ zKept vs := List.filter_append ..

theorem zKept_cons_of_kept {u : List Byte} (h : isZeroUnit u = false) (us : List (List Byte)) : zKept (u :: us) = u :: zKept us :=
  List.filter_cons_of_pos (by rw [h]; rfl)

/-! ### The bitmap (R369) -/

/-- The bitmap of a group's units. -/
def zMask (us : List (List Byte)) : Nat :=
  (upFrom 0 us.length).foldl (fun m j => m + (!isZeroUnit (us.getD j [])).toNat * 2 ^ j) 0

/-- The bits of the bitmap lie below its number of units, and each tells whether its unit is kept. -/
theorem zMask_digits (us : List (List Byte)) : zMask us < 2 ^ us.length
    ∧ ∀ j < us.length, zMask us / 2 ^ j % 2 = (!isZeroUnit (us.getD j [])).toNat := by
  obtain ⟨hlt, -, hdig⟩ := digits_foldl (c := 0) (w := 1) (f := fun j => (!isZeroUnit (us.getD j [])).toNat)
    (fun j => Bool.toNat_lt _) us.length 0 0 Nat.one_pos
  simp only [Nat.zero_add, Nat.one_mul, pow_one] at hlt hdig
  exact ⟨hlt, fun j hj => hdig j (Nat.zero_le j) hj⟩

theorem zMask_lt (us : List (List Byte)) : zMask us < 2 ^ us.length := (zMask_digits us).1

theorem bitsOf_zMask (us : List (List Byte)) (j : Nat) : bitsOf (zMask us) j 1 = (!isZeroUnit (us.getD j [])).toNat := by
  rw [bitsOf_eq, pow_one]
  rcases Nat.lt_or_ge j us.length with h | h
  · exact (zMask_digits us).2 j h
  · rw [Nat.div_eq_of_lt ((zMask_lt us).trans_le (Nat.pow_le_pow_right (by decide) h)), List.getD_eq_default _ _ h]
    rfl

/-- The bits below place `k` count the kept ones of the first `k` units. -/
theorem popCount_zMask (us : List (List Byte)) (k : Nat) : popCount (zMask us) k = (zKept (us.take k)).length := by
  induction k with
  | zero => rfl
  | succ k ih =>
    have hstep : popCount (zMask us) (k + 1) = popCount (zMask us) k + bitsOf (zMask us) k 1 := by
      simp [popCount, upFrom_zero, List.range_succ]
    have hlast : (zKept us[k]?.toList).length = (!isZeroUnit (us.getD k [])).toNat := by
      rw [List.getD_eq_getElem?_getD]
      cases us[k]? with
      | none => rfl
      | some u => cases hu : isZeroUnit u <;> simp [zKept, hu]
    rw [hstep, ih, bitsOf_zMask, List.take_add_one, zKept_append, List.length_append, hlast]

/-! ### A group (R369) -/

/-- A group: its bitmap and its non-zero units. -/
def zGroup (us : List (List Byte)) : List Byte := leBytes 8 (zMask us) ++ (zKept us).flatten

section
variable {w : Nat} {us : List (List Byte)} (hw : ∀ u ∈ us, u.length = w)
include hw

theorem length_flatten_of_forall : us.flatten.length = w * us.length := by
  rw [List.length_flatten, List.map_congr_left hw, List.map_const', List.sum_replicate, smul_eq_mul, Nat.mul_comm]

theorem length_flatten_zKept : (zKept us).flatten.length = w * (zKept us).length :=
  length_flatten_of_forall fun u hu => hw u (List.mem_of_mem_filter hu)

theorem length_zGroup : (zGroup us).length = 8 + w * (zKept us).length := by
  rw [zGroup, List.length_append, leBytes_length, length_flatten_zKept hw]

/-- A kept unit stands behind the kept units before it. -/
theorem slice_zGroup {j : Nat} (hj : j < us.length) (hkept : isZeroUnit us[j] = false) (tail : List Byte) :
    slice (zGroup us ++ tail) (8 + w * popCount (zMask us) j) w = us[j] := by
  have hsplit : zKept us = zKept (us.take j) ++ us[j] :: zKept (us.drop (j + 1)) := by
    rw [← zKept_cons_of_kept hkept, ← List.drop_eq_getElem_cons hj, ← zKept_append, List.take_append_drop]
  have hbefore : (leBytes 8 (zMask us) ++ (zKept (us.take j)).flatten).length = 8 + w * popCount (zMask us) j := by
    rw [List.length_append, leBytes_length, popCount_zMask,
      length_flatten_zKept fun u hu => hw u (List.mem_of_mem_take hu)]
  have hmid := slice_append_mid (leBytes 8 (zMask us) ++ (zKept (us.take j)).flatten) us[j]
    ((zKept (us.drop (j + 1))).flatten ++ tail)
  rw [hbefore, hw _ (List.getElem_mem hj)] at hmid
  simpa [zGroup, hsplit] using hmid

/-- The decoder's reading of a group, place by place. -/
theorem flatMap_slice_zGroup (tail : List Byte) :
    (upFrom 0 us.length).flatMap (fun j => if bitsOf (zMask us) j 1 = 1 then
      slice (zGroup us ++ tail) (8 + w * popCount (zMask us) j) w else List.replicate w 0) = us.flatten := by
  have hunits : (upFrom 0 us.length).map (us.getD · []) = us := by
    refine List.ext_getElem (by simp [upFrom_zero]) fun j hj hj' => ?_
    simp [upFrom_zero, hj']
  conv_rhs => rw [← hunits, ← List.flatMap_def]
  refine List.flatMap_congr fun j hj => ?_
  have hj : j < us.length := mem_upFrom.mp hj
  rw [bitsOf_zMask, List.getD_eq_getElem _ _ hj]
  cases hzero : isZeroUnit us[j] with
  | false => exact slice_zGroup hw hj hzero tail
  | true =>
    have h := eq_replicate_of_isZeroUnit hzero
    rw [hw _ (List.getElem_mem hj)] at h
    exact h.symm

end

section
variable {us : List (List Byte)} (h64 : us.length ≤ 64)
include h64

theorem leAt_zGroup (tail : List Byte) : leAt (zGroup us ++ tail) 0 8 = zMask us := by
  have hlt : zMask us < 256 ^ 8 := (zMask_lt us).trans_le (Nat.pow_le_pow_right (n := 2) Nat.two_pos h64)
  rw [zGroup, List.append_assoc, leAt_append_left (by simp), leAt_leBytes (Nat.le_refl 8), pow_zero, Nat.div_one,
    Nat.mod_eq_of_lt hlt]

theorem popCount_zMask_all : popCount (zMask us) 64 = (zKept us).length := by
  rw [popCount_zMask, List.take_of_length_le h64]

end

/-! ### Data that the encoder wrote -/

/-- The coded form of `n` units of `w` bytes: one group for each 64 units, the last one for what remains (R369). -/
inductive ZCoded (w : Nat) : Nat → List Byte → List Byte → Prop
  | nil : ZCoded w 0 [] []
  | group {n : Nat} {us : List (List Byte)} {bs cs : List Byte} (hpos : n ≠ 0) (hlen : us.length = min n 64)
      (hw : ∀ u ∈ us, u.length = w) (htail : ZCoded w (n - min n 64) bs cs) : ZCoded w n (us.flatten ++ bs) (zGroup us ++ cs)

/-- One group of the encoder, with its bitmap as a sum of bits. -/
theorem encodeZ_succ {w n : Nat} {bs : List Byte} (hw : 0 < w) (hn : n ≠ 0) (hbs : bs.length = w * n) (fuel : Nat) :
    encodeZ w (fuel + 1) bs = zGroup (zUnits w (min n 64) bs) ++ encodeZ w fuel (bs.drop (w * 64)) := by
  have hne : bs.isEmpty = false := by
    have hpos : 0 < w * n := Nat.mul_pos hw (Nat.pos_of_ne_zero hn)
    exact List.isEmpty_eq_false_iff.mpr (List.ne_nil_of_length_pos (hbs ▸ hpos))
  have hunits : ceilDiv bs.length w = n := by
    rw [ceilDiv, hbs, Nat.add_sub_assoc hw, Nat.mul_add_div hw, Nat.div_eq_of_lt (Nat.sub_lt hw Nat.one_pos), Nat.add_zero]
  have hbit : ∀ (z : Bool) (m j : Nat), (if z = true then m else m + 2 ^ j) = m + (!z).toNat * 2 ^ j := by
    intro z m j
    cases z <;> simp
  simp only [encodeZ, hne, hunits, hbit, zGroup, zMask, zKept, isZeroUnit, zUnits, Nat.min_comm 64, Nat.mul_comm 64,
    Bool.false_eq_true, if_false]

theorem encodeZ_coded {w : Nat} (hw : 0 < w) : ∀ {fuel n : Nat} {bs : List Byte}, bs.length = w * n → n ≤ 64 * fuel →
    ZCoded w n bs (encodeZ w fuel bs)
  | fuel, 0, bs, hbs, _ => by
    obtain rfl : bs = [] := List.eq_nil_of_length_eq_zero hbs
    cases fuel with
    | zero | succ => exact .nil
  | fuel + 1, n + 1, bs, hbs, hfuel => by
    have hgroup : w * min (n + 1) 64 ≤ bs.length := hbs ▸ Nat.mul_le_mul_left w (Nat.min_le_left ..)
    have hplain : bs = (zUnits w (min (n + 1) 64) bs).flatten ++ bs.drop (w * 64) := by
      have htake : bs.take (w * min (n + 1) 64) = bs.take (w * 64) := by
        rw [List.take_eq_take_iff, hbs, Nat.mul_min_mul_left, Nat.mul_min_mul_left]
        congr 1
        omega
      rw [flatten_zUnits hgroup, htake, List.take_append_drop]
    have htail : (bs.drop (w * 64)).length = w * (n + 1 - min (n + 1) 64) := by
      rw [List.length_drop, hbs, ← Nat.mul_sub]
      congr 1
      omega
    rw [encodeZ_succ hw n.succ_ne_zero hbs]
    conv => arg 3; rw [hplain]
    exact .group n.succ_ne_zero (length_zUnits ..) (fun _ => length_of_mem_zUnits) (encodeZ_coded hw htail (by omega))

/-- The decoder gives the units back, whatever follows their groups (R370). -/
theorem ZCoded.decodeZ_append {w n : Nat} {bs cs : List Byte} (h : ZCoded w n bs cs) (rest : List Byte) :
    ∀ {fuel : Nat}, n ≤ 64 * fuel → decodeZ w fuel n (cs ++ rest) = some bs := by
  induction h with
  | nil =>
    intro fuel _
    cases fuel with
    | zero | succ => rfl
  | @group n us bs cs hpos hlen hw _ ih =>
    intro fuel hfuel
    have h64 : us.length ≤ 64 := hlen ▸ Nat.min_le_right ..
    have hsize : 8 + w * (zKept us).length = (zGroup us).length := (length_zGroup hw).symm
    have hmask : zMask us >>> us.length = 0 := by
      rw [Nat.shiftRight_eq_div_pow, Nat.div_eq_of_lt (zMask_lt us)]
    obtain ⟨fuel, rfl⟩ : ∃ k, fuel = k + 1 := Nat.exists_eq_succ_of_ne_zero (by omega)
    have hrest : decodeZ w fuel (n - us.length) (cs ++ rest) = some bs := hlen ▸ ih (by omega)
    simpa [decodeZ, hpos, ← hlen, leAt_zGroup h64, popCount_zMask_all h64, hsize, hmask, hrest]
      using flatMap_slice_zGroup hw (cs ++ rest)

/-- The reader finds where the groups of the units end, whatever follows them (R370). -/
theorem ZCoded.lenZ_append {w n : Nat} {bs cs : List Byte} (h : ZCoded w n bs cs) (rest : List Byte) :
    ∀ {fuel : Nat}, n ≤ 64 * fuel → lenZ w fuel n (cs ++ rest) = cs.length := by
  induction h with
  | nil =>
    intro fuel _
    cases fuel with
    | zero | succ => rfl
  | @group n us bs cs hpos hlen hw _ ih =>
    intro fuel hfuel
    have h64 : us.length ≤ 64 := hlen ▸ Nat.min_le_right ..
    have hsize : 8 + w * (zKept us).length = (zGroup us).length := (length_zGroup hw).symm
    obtain ⟨fuel, rfl⟩ : ∃ k, fuel = k + 1 := Nat.exists_eq_succ_of_ne_zero (by omega)
    simp [lenZ, hpos, leAt_zGroup h64, popCount_zMask_all h64, hsize, ih (fuel := fuel) (by omega)]

/-! ### The statement -/

/-- The plain data of every format is a whole number of units (R368). -/
theorem plainLen_eq_units {fmt : Nat} (h : fmt < 8) (n : Nat) :
    0 < unitBytes fmt ∧ plainLen fmt n = unitBytes fmt * (plainLen fmt n / unitBytes fmt) := by
  suffices hdvd : 0 < unitBytes fmt ∧ unitBytes fmt ∣ plainLen fmt n from ⟨hdvd.1, (Nat.mul_div_cancel' hdvd.2).symm⟩
  interval_cases fmt <;> simp [unitBytes, plainLen, fmtWidth]

/-- What Skim-Z makes of plain data is coded in groups, and their units are as many as both readers take. -/
theorem encodeSkim_coded {fmt n : Nat} {bs : List Byte} (hfmt : fmt < 8) (hbs : bs.length = plainLen fmt n) :
    ZCoded (unitBytes fmt) (plainLen fmt n / unitBytes fmt) bs (encodeSkim fmt 1 n bs) := by
  obtain ⟨hpos, hlen⟩ := plainLen_eq_units hfmt n
  have hfuel := Nat.div_le_self (plainLen fmt n) (unitBytes fmt)
  exact encodeZ_coded hpos (hbs.trans hlen) (by omega)

/-- Settles O27: the encoder's groups hold the units of the plain data, and decoder and reader follow the groups. -/
theorem skimZLossless : Obligations.SkimZLossless := by
  unfold Obligations.SkimZLossless
  refine ⟨fun fmt n bs hfmt hbs => ?_, fun fmt n bs rest hfmt hbs => ?_⟩
  · have h := (encodeSkim_coded hfmt hbs).decodeZ_append [] (fuel := plainLen fmt n / unitBytes fmt / 64 + 1) (by omega)
    rwa [List.append_nil] at h
  · exact (encodeSkim_coded hfmt hbs).lenZ_append rest (by omega)

end Machine
end Sys2Proof
end

section
/-!
PROOF. Every step keeps the memories in canonical form (R393, R535), part one: what a change must leave alone, and the shared operations,
the host link, fabric ingress and the links. Few functions write a memory (Laws/Memory.lean); each of the others hands on the two memories
that a function it calls has left. So each function of the model that answers a state has one lemma, in the order of the model's files,
and its proof follows the function's branches and cites the lemmas of what it calls. The proofs are elaborated one after another, as the
model's tests are, so that the whole text stays within the memory it is compiled in.
-/
namespace Sys2Proof
namespace Machine
set_option Elab.async false

variable {s t : State}

/-! ### What a change leaves alone -/

/-- Whatever leaves both memories alone keeps their canonical form. -/
theorem memWf_frame (h : s.memWf) (hl : t.larder.mem = s.larder.mem := by rfl) (hw : t.work.mem = s.work.mem := by rfl) :
    t.memWf := by
  rw [memWf_iff] at h ⊢
  rwa [hl, hw]

theorem memWf_counts {x} (h : s.memWf) : { s with counts := x }.memWf := h
theorem memWf_tick {x} (h : s.memWf) : { s with tick := x }.memWf := h
theorem memWf_items {x} (h : s.memWf) : { s with items := x }.memWf := h
theorem memWf_power {x} (h : s.memWf) : { s with power := x }.memWf := h

theorem memWf_ite {c : Prop} [Decidable c] (hs : s.memWf) (ht : t.memWf) : (if c then s else t).memWf := by
  split
  · exact hs
  · exact ht

theorem memWf_foldl {α : Type} {f : State → α → State} (hf : ∀ s x, s.memWf → (f s x).memWf) {l : List α} (h : s.memWf) :
    (l.foldl f s).memWf := by
  induction l generalizing s with
  | nil => exact h
  | cons x l ih => exact ih (hf s x h)

/-- What a command answers keeps the memories in canonical form. -/
def OutMemWf : Out → Prop
  | .next t => t.memWf
  | _ => True

/-- The state that a function answers, if any, has its memories in canonical form. -/
def OptMemWf : Option State → Prop
  | some t => t.memWf
  | none => True

/-- The state beside what a function answers has its memories in canonical form. -/
def PairMemWf {α : Type} (p : α × State) : Prop := p.2.memWf

/-- The state of a library run has its memories in canonical form. -/
def LibMemWf {α : Type} : LibRes α → Prop
  | .ok _ t => t.memWf
  | .bad _ _ t => t.memWf

theorem memWf_of_some {o : Option State} (h : OptMemWf o) (e : o = some t) : t.memWf := by
  subst e
  exact h

theorem memWf_of_eq {α : Type} {x : α} {p : α × State} (h : PairMemWf p) (e : p = (x, t)) : t.memWf := by
  subst e
  exact h

theorem memWf_of_eq_fst {α : Type} {x : α} {p : State × α} (h : p.1.memWf) (e : p = (t, x)) : t.memWf := by
  subst e
  exact h

theorem memWf_of_ok {α : Type} {x : α} {r : LibRes α} (h : LibMemWf r) (e : r = .ok x t) : t.memWf := by
  subst e
  exact h

theorem memWf_of_bad {α : Type} {c a : Nat} {r : LibRes α} (h : LibMemWf r) (e : r = .bad c a t) : t.memWf := by
  subst e
  exact h

theorem memWf_of_eq_third {α β : Type} {x : α} {y : β} {p : α × β × State} (h : p.2.2.memWf) (e : p = (x, y, t)) : t.memWf := by
  subst e
  exact h

theorem memWf_getD {o : Option State} (ho : OptMemWf o) (h : s.memWf) : (o.getD s).memWf := by
  cases o with
  | none => exact h
  | some t => exact ho

/-! ### Registers, counters, free values, the host, functions, events and completions -/

theorem setPhase_memWf {n} (h : s.memWf) : (setPhase n s).memWf := h
theorem setLink_memWf {l v} (h : s.memWf) : (setLink s l v).memWf := h
theorem modLink_memWf {l f} (h : s.memWf) : (modLink l f s).memWf := setLink_memWf h
theorem setLane_memWf {n v} (h : s.memWf) : (setLane s n v).memWf := h
theorem modLane_memWf {n f} (h : s.memWf) : (modLane n f s).memWf := setLane_memWf h
theorem modLanes_memWf {l f} (h : s.memWf) : (modLanes l f s).memWf := memWf_foldl (fun _ _ hs => modLane_memWf hs) h
theorem setIn_memWf {i v} (h : s.memWf) : (setIn s i v).memWf := h
theorem modIn_memWf {i f} (h : s.memWf) : (modIn i f s).memWf := setIn_memWf h
theorem setSlice_memWf {m v} (h : s.memWf) : (setSlice s m v).memWf := h
theorem setOut_memWf {o v} (h : s.memWf) : (setOut s o v).memWf := h
theorem modOut_memWf {o f} (h : s.memWf) : (modOut o f s).memWf := setOut_memWf h
theorem setTm_memWf {l v} (h : s.memWf) : (setTm s l v).memWf := h
theorem setGroup_memWf {g v} (h : s.memWf) : (setGroup s g v).memWf := h
theorem modGroup_memWf {g f} (h : s.memWf) : (modGroup g f s).memWf := setGroup_memWf h
theorem setOp_memWf {g q o} (h : s.memWf) : (setOp g q o s).memWf := modGroup_memWf h

theorem modOp_memWf {g q f} (h : s.memWf) : (modOp g q f s).memWf := by
  unfold modOp
  split
  · exact setOp_memWf h
  · exact h

theorem setReg_memWf {n u v w x} (h : s.memWf) : (setReg s n u v w x).memWf := h
theorem regError_memWf {addr write cause} (h : s.memWf) : (regError addr write cause s).memWf := h
theorem releaseWrites_memWf (h : s.memWf) : (releaseWrites s).memWf := h
theorem bump_memWf {p w n} (h : s.memWf) : (bump p w n s).memWf := h
theorem bumpPort_memWf {p w} (h : s.memWf) : (bumpPort p w s).memWf := bump_memWf h
theorem bumpModule_memWf {w} (h : s.memWf) : (bumpModule w s).memWf := bump_memWf h
theorem takeFree_memWf (h : s.memWf) : PairMemWf (takeFree s) := h
theorem freeBytes_memWf {n} (h : s.memWf) : PairMemWf (freeBytes n s) := h
theorem sendNow_memWf {f} (h : s.memWf) : (sendNow f s).memWf := h
theorem sendFrame_memWf {f} (h : s.memWf) : (sendFrame f s).memWf := memWf_ite (sendNow_memWf h) h

theorem flushHeld_memWf {n} (h : s.memWf) : (flushHeld n s).memWf := by
  induction n generalizing s with
  | zero => exact h
  | succ n ih =>
    unfold flushHeld
    split
    · exact h
    · exact memWf_ite (ih (sendNow_memWf h)) h

theorem hostWrite_memWf {n a bs} (h : s.memWf) : (hostWrite n a bs s).memWf := by
  induction n generalizing a bs s with
  | zero => exact h
  | succ n ih =>
    unfold hostWrite
    exact memWf_ite h (ih (sendFrame_memWf h))

theorem hostPut_memWf {a bs} (h : s.memWf) : (hostPut a bs s).memWf := hostWrite_memWf h
theorem sendMsg_memWf {vector} (h : s.memWf) : (sendMsg vector s).memWf := sendFrame_memWf h

theorem issueRead_memWf (h : s.memWf) : (issueRead s).memWf := by
  unfold issueRead
  split
  · split
    · split
      · exact sendNow_memWf h
      · exact h
    · exact h
  · exact h

theorem issueReads_memWf {n} (h : s.memWf) : (issueReads n s).memWf := by
  induction n generalizing s with
  | zero => exact h
  | succ n ih =>
    unfold issueReads
    exact ih (issueRead_memWf h)

theorem hostRead_memWf {u a len} (h : s.memWf) : (hostRead u a len s).memWf := issueReads_memWf h
theorem setFn_memWf {f v} (h : s.memWf) : (setFn s f v).memWf := h
theorem setSq_memWf {i r} (h : s.memWf) : (setSq s i r).memWf := h
theorem setCq_memWf {j r} (h : s.memWf) : (setCq s j r).memWf := h
theorem consumerPut_memWf {off v} (h : s.memWf) : (consumerPut off v s).memWf := hostPut_memWf h
theorem toHost_memWf {f} (hf : ∀ s, s.memWf → (f s).memWf) (h : s.memWf) : (toHost f s).memWf := memWf_ite h (hf _ h)

theorem evWrite_memWf {e} (h : s.memWf) : (evWrite e s).memWf := by
  unfold evWrite
  exact memWf_ite (sendMsg_memWf (memWf_frame (memWf_frame (toHost_memWf (fun _ hs => consumerPut_memWf (hostPut_memWf
    (memWf_ite hs (hostPut_memWf hs)))) h)))) (memWf_frame (toHost_memWf (fun _ hs => consumerPut_memWf (hostPut_memWf
    (memWf_ite hs (hostPut_memWf hs)))) h))

theorem evHold_memWf {e} (h : s.memWf) : (evHold e s).memWf := by
  unfold evHold
  split
  · exact h
  · split
    · exact bumpModule_memWf h
    · exact bumpModule_memWf h
    · split
      · exact bumpModule_memWf h
      · exact bumpModule_memWf h

theorem raise_memWf {e} (h : s.memWf) : (raise e s).memWf :=
  memWf_ite (memWf_frame (memWf_frame h)) (memWf_ite (evWrite_memWf (memWf_frame h)) (evHold_memWf (memWf_frame h)))

theorem raiseEv_memWf {c u detail gen} (h : s.memWf) : (raiseEv c u detail gen s).memWf := raise_memWf h

theorem evFlush_memWf {n} (h : s.memWf) : (evFlush n s).memWf := by
  induction n generalizing s with
  | zero => exact h
  | succ n ih =>
    unfold evFlush
    split
    · exact h
    · split
      · exact ih (evWrite_memWf h)
      · exact ih (evWrite_memWf h)
      · exact h

theorem auditMismatch_memWf {quantity unit sub diff gen} (h : s.memWf) :
    (auditMismatch quantity unit sub diff gen s).memWf :=
  raiseEv_memWf (bumpModule_memWf h)

theorem modFlight_memWf {d g} (h : s.memWf) : (modFlight d g s).memWf := h
theorem cqInterrupt_memWf {j} (h : s.memWf) : (cqInterrupt j s).memWf := setCq_memWf (sendMsg_memWf h)

theorem cqModerate_memWf {j force} (h : s.memWf) : (cqModerate j force s).memWf :=
  memWf_ite h (memWf_ite (cqInterrupt_memWf h) (memWf_ite (cqInterrupt_memWf h) h))

theorem leaveFlight_memWf {d} (h : s.memWf) : (leaveFlight d s).memWf := setSq_memWf h

theorem putCompletion_memWf {j f st result} (h : s.memWf) : (putCompletion j f st result s).memWf :=
  bumpModule_memWf (toHost_memWf (fun _ hs => consumerPut_memWf (sendFrame_memWf hs)) h)

theorem countCompletion_memWf {j} (h : s.memWf) : (countCompletion j s).memWf := setCq_memWf h

theorem complete_memWf {d st result} (h : s.memWf) : (complete d st result s).memWf := by
  unfold complete
  split
  · exact h
  · exact memWf_ite (leaveFlight_memWf h) (cqModerate_memWf (countCompletion_memWf (putCompletion_memWf
    (leaveFlight_memWf h))))

theorem completeGen_memWf {d st gen} (h : s.memWf) : (completeGen d st gen s).memWf := complete_memWf (modFlight_memWf h)

theorem completeAll_memWf {ds st gen} (h : s.memWf) : (completeAll ds st gen s).memWf :=
  memWf_foldl (fun _ _ hs => completeGen_memWf hs) h

/-! ### The Enzen link (chapter 04) -/

theorem enzEnter_memWf {st} (h : s.memWf) : (enzEnter st s).memWf := h

theorem takeInbox_memWf {ty} (h : s.memWf) : (takeInbox ty s).memWf := by
  unfold takeInbox
  split
  · exact h
  · exact h

theorem enzToDetect_memWf (h : s.memWf) : (enzToDetect s).memWf := enzEnter_memWf h
theorem enzReturn_memWf (h : s.memWf) : (enzReturn s).memWf := issueReads_memWf (flushHeld_memWf h)
theorem enzActive_memWf {level} (h : s.memWf) : (enzActive level s).memWf := enzReturn_memWf (enzEnter_memWf h)
theorem sendHostCap_memWf (h : s.memWf) : (sendHostCap s).memWf := sendNow_memWf h

theorem execEnzenFecLockHeld_memWf (h : s.memWf) : OutMemWf (execEnzenFecLockHeld s) := by
  unfold execEnzenFecLockHeld
  split
  · exact memWf_ite (enzActive_memWf h) (sendHostCap_memWf (enzEnter_memWf h))
  · exact enzActive_memWf h
  · exact enzActive_memWf h
  · exact h

theorem raiseSide_memWf {e} (h : s.memWf) : (raiseSide e s).memWf := memWf_counts h

theorem execEnzenBringupTimeout_memWf (h : s.memWf) : OutMemWf (execEnzenBringupTimeout s) := by
  unfold execEnzenBringupTimeout
  extract_lets
  split
  · exact memWf_ite (enzToDetect_memWf h) h
  · exact memWf_ite (enzToDetect_memWf h) h
  · exact memWf_ite (enzActive_memWf h) h
  · exact memWf_ite (enzToDetect_memWf (raiseSide_memWf h)) h
  · exact h

theorem enzNegoDone_memWf (h : s.memWf) : (enzNegoDone s).memWf := by
  unfold enzNegoDone
  split
  · exact memWf_ite (enzEnter_memWf h) (enzActive_memWf h)
  · exact h

theorem execLevelReq_memWf {level} (h : s.memWf) : OutMemWf (execLevelReq level s) := by
  unfold execLevelReq
  extract_lets t _ t1
  have ht : t.memWf := takeInbox_memWf h
  have ht1 : t1.memWf := sendNow_memWf ht
  exact memWf_ite (enzEnter_memWf ht1) ht

theorem enzReplay_memWf (h : s.memWf) : (enzReplay s).memWf := memWf_ite h (bumpModule_memWf h)
theorem enzAck_memWf {ack} (h : s.memWf) : (enzAck ack s).memWf := memWf_ite h (issueReads_memWf (flushHeld_memWf h))

/-! ### Routes, and packets into the core (chapter 08) -/

theorem setLfsr_memWf {i x} (h : s.memWf) : (setLfsr i x s).memWf := modIn_memWf h
theorem seedAll_memWf {node} (h : s.memWf) : (seedAll node s).memWf := memWf_foldl (fun _ _ hs => setLfsr_memWf hs) h

theorem hopIngress_memWf {i p} (h : s.memWf) : PairMemWf (hopIngress i p s) := by
  unfold hopIngress
  extract_lets _ _ t
  have ht : t.memWf := memWf_ite h (setLfsr_memWf h)
  split
  · split
    · exact ht
    · exact ht
  · exact h

theorem touchUnder_memWf {n} (h : s.memWf) : (touchUnder n s).memWf := by
  unfold touchUnder
  split
  · exact memWf_ite h h
  · exact h

theorem enqueueNow_memWf {i kind o units q bad hold p ref} (h : s.memWf) :
    (enqueueNow i kind o units q bad hold p s ref).memWf :=
  touchUnder_memWf (setIn_memWf h)

theorem enqueue_memWf {i kind o units q bad hold p ref} (h : s.memWf) :
    (enqueue i kind o units q bad hold p s ref).memWf :=
  memWf_ite (enqueueNow_memWf h) (memWf_ite (enqueueNow_memWf h) (modIn_memWf h))

theorem admitEntering_memWf {i n} (h : s.memWf) : (admitEntering i n s).memWf := by
  induction n generalizing s with
  | zero => exact h
  | succ n ih =>
    unfold admitEntering
    split
    · exact h
    · exact memWf_ite (ih (enqueueNow_memWf (modIn_memWf h))) h

theorem inject_memWf {i p} (h : s.memWf) : (inject i p s).memWf := by
  unfold inject
  extract_lets
  split
  · exact memWf_ite (enqueue_memWf h) h
  · split
    next u hu =>
      have hu := memWf_of_eq (hopIngress_memWf h) hu
      exact enqueue_memWf hu
    next u hu =>
      have hu := memWf_of_eq (hopIngress_memWf h) hu
      exact hu

theorem countFail_memWf {i} (h : s.memWf) : (countFail i s).memWf := bumpPort_memWf h

theorem sendFail_memWf {i st p} (h : s.memWf) : (sendFail i st p s).memWf :=
  memWf_ite (inject_memWf (countFail_memWf h)) h

/-! ### Fabric ingress (chapter 05) -/

theorem modPart_memWf {l q f} (h : s.memWf) : (modPart l q f s).memWf := modLink_memWf h
theorem rxReserve_memWf {l q u} (h : s.memWf) : (rxReserve l q u s).memWf := modPart_memWf h
theorem rxFree_memWf {l q u} (h : s.memWf) : (rxFree l q u s).memWf := modPart_memWf h

theorem meterRun_memWf {i b yellow} (h : s.memWf) : PairMemWf (meterRun i b yellow s) := by
  unfold meterRun
  extract_lets
  split
  · exact h

theorem peepFrame_memWf {l dir disc bytes} (h : s.memWf) : (peepFrame l dir disc bytes s).memWf := by
  unfold peepFrame
  extract_lets p _ t cap hdr _ u slot bs
  have ht : t.memWf := memWf_counts h
  have hu : u.memWf := bumpPort_memWf (memWf_counts ht)
  split
  · exact h
  · exact memWf_ite ht (memWf_ite (bumpPort_memWf ht) (memWf_ite (larderPut_memWf _ _ _ hu) (raise_memWf hu)))

theorem sendTo_memWf {i o p} (h : s.memWf) : (sendTo i o p s).memWf := enqueue_memWf h

theorem arriveDrop_memWf {l p} (h : s.memWf) : (arriveDrop l p s).memWf :=
  peepFrame_memWf (rxFree_memWf (rxReserve_memWf h))

theorem arriveFail_memWf {l st p} (h : s.memWf) : (arriveFail l st p s).memWf :=
  memWf_ite (inject_memWf (countFail_memWf (arriveDrop_memWf h))) (arriveDrop_memWf h)

theorem openRecord_memWf {p e} (h : s.memWf) : OptMemWf (openRecord p e s) := by
  unfold openRecord
  split
  · exact h
  · split
    · exact trivial
    · exact h

theorem arriveEnter_memWf {l edge bad p} (h : s.memWf) : (arriveEnter l edge bad p s).memWf := by
  unfold arriveEnter
  extract_lets i u q enter wait e
  have henter : ∀ {k o p t}, t.memWf → (enter k o p t).memWf :=
    fun ht => enqueue_memWf (peepFrame_memWf (rxReserve_memWf ht))
  have hwait : (wait s).memWf := touchUnder_memWf (memWf_items (rxReserve_memWf h))
  split
  · split
    · refine memWf_ite (arriveFail_memWf h) (memWf_ite ?_ (henter h))
      split
      next hq => exact henter (memWf_of_some (openRecord_memWf h) hq)
      · exact hwait
    · refine memWf_ite (arriveDrop_memWf (memWf_frame h)) ?_
      split
      next t hq =>
        refine henter ?_
        split at hq
        · exact memWf_of_some (openRecord_memWf h) hq
        · cases hq
          exact h
      · exact hwait
  · split
    next t hq =>
    have ht : t.memWf := by
      split at hq
      · exact memWf_of_eq (hopIngress_memWf h) hq
      · cases hq
        exact h
    split
    · exact arriveFail_memWf ht
    · exact memWf_ite (henter ht) (memWf_ite (henter ht) (henter ht))

theorem edgeChecks_memWf {l p} (h : s.memWf) : PairMemWf (edgeChecks l p s) := by
  unfold edgeChecks
  split
  · exact raiseEv_memWf (bumpPort_memWf (memWf_ite (sendTo_memWf (countFail_memWf (arriveDrop_memWf h)))
    (arriveDrop_memWf h)))
  · split
    · exact arriveFail_memWf h
    · split
      · exact bumpPort_memWf (arriveFail_memWf h)
      · split
        · exact bumpPort_memWf (arriveFail_memWf h)
        · extract_lets _ _ t
          have ht : t.memWf := bump_memWf (bump_memWf h)
          split
          · split
            next u hu =>
              have hu := memWf_of_eq (meterRun_memWf ht) hu
              extract_lets _ t2
              have ht2 : t2.memWf := bump_memWf (bump_memWf hu)
              split
              · exact bump_memWf (arriveFail_memWf ht2)
              · split
                · exact bump_memWf ht2
                · exact ht2
          · exact ht

theorem fabricArrival_memWf {l p kinds} (h : s.memWf) : (fabricArrival l p kinds s).memWf := by
  unfold fabricArrival
  extract_lets i v t _ u _ edge w
  have ht : t.memWf := bump_memWf (bump_memWf h)
  have hu : u.memWf := memWf_ite ht (memWf_frame ht)
  have hw : w.memWf := memWf_ite hu (bumpPort_memWf hu)
  refine memWf_ite hu (memWf_ite (arriveDrop_memWf (memWf_frame hu)) (memWf_ite (arriveDrop_memWf (bumpPort_memWf hu))
    (memWf_ite (arriveDrop_memWf hu) ?_)))
  split
  next x hq =>
  have hx : x.memWf := by
    split at hq
    · exact memWf_of_eq (edgeChecks_memWf hu) hq
    · split at hq
      · cases hq
        exact arriveFail_memWf (memWf_items hu)
      · split at hq
        · cases hq
          exact arriveFail_memWf hw
        · cases hq
          exact hw
  split
  · exact hx
  · exact memWf_ite (memWf_ite (arriveEnter_memWf (raiseEv_memWf (bumpPort_memWf hx)))
      (arriveFail_memWf (raiseEv_memWf (bumpPort_memWf hx)))) (arriveEnter_memWf hx)

/-! ### The link layer (chapter 06) -/

theorem setFallback_memWf {l b} (h : s.memWf) : (setFallback l b s).memWf := setReg_memWf h
theorem lanesToDetect_memWf {l} (h : s.memWf) : (lanesToDetect l s).memWf := modLink_memWf (modLanes_memWf h)
theorem findFailure_memWf {l cause} (h : s.memWf) : (findFailure l cause s).memWf := memWf_ite h (setLink_memWf h)
theorem sendCtl_memWf {l m} (h : s.memWf) : (sendCtl l m s).memWf := modLink_memWf h
theorem sendCtlFirst_memWf {l m} (h : s.memWf) : (sendCtlFirst l m s).memWf := modLink_memWf h
theorem startNego_memWf {l} (h : s.memWf) : (startNego l s).memWf := sendCtl_memWf (modLink_memWf h)
theorem applyAck_memWf {l ack} (h : s.memWf) : (applyAck l ack s).memWf := memWf_ite h (setLink_memWf h)
theorem replayNow_memWf {l} (h : s.memWf) : (replayNow l s).memWf := memWf_ite h (bumpPort_memWf (setLink_memWf h))
theorem applyNak_memWf {l ack} (h : s.memWf) : (applyNak l ack s).memWf := memWf_ite h (replayNow_memWf h)
theorem sendNotice_memWf {up l} (h : s.memWf) : (sendNotice up l s).memWf := inject_memWf h
theorem holdUnnamed_memWf {l mask} (h : s.memWf) : (holdUnnamed l mask s).memWf := modLanes_memWf h

theorem endNego_memWf {l} (h : s.memWf) : (endNego l s).memWf := by
  unfold endNego
  extract_lets
  split
  · exact memWf_ite (raiseEv_memWf (setLink_memWf h)) (memWf_ite (raiseEv_memWf (setLink_memWf h)) (memWf_ite
    (lanesToDetect_memWf (setLink_memWf h)) (memWf_ite (raiseEv_memWf (memWf_ite (sendNotice_memWf (holdUnnamed_memWf
    (setLink_memWf h))) (holdUnnamed_memWf (setLink_memWf h)))) (memWf_ite (sendNotice_memWf (holdUnnamed_memWf
    (setLink_memWf h))) (holdUnnamed_memWf (setLink_memWf h))))))
  · exact h

theorem lanesRx_memWf {l f} (h : s.memWf) : PairMemWf (lanesRx l f s) :=
  modLink_memWf (bump_memWf (bump_memWf (memWf_foldl (fun _ _ hs => setLane_memWf hs) h)))

theorem discardFrame_memWf {l} (h : s.memWf) : (discardFrame l s).memWf := memWf_ite h (bumpPort_memWf (setLink_memWf h))
theorem acceptFrame_memWf {l ret} (h : s.memWf) : (acceptFrame l ret s).memWf := modLink_memWf h

theorem frameIn_memWf {l y body} (h : s.memWf) : (frameIn l y body s).memWf := by
  unfold frameIn
  exact endNego_memWf (memWf_ite (memWf_ite (applyNak_memWf (applyAck_memWf h)) (applyAck_memWf h)) (memWf_ite
    (acceptFrame_memWf (memWf_ite (modLink_memWf (memWf_ite (applyNak_memWf (applyAck_memWf h)) (applyAck_memWf h)))
    (memWf_ite (applyNak_memWf (applyAck_memWf h)) (applyAck_memWf h)))) (discardFrame_memWf (memWf_ite
    (applyNak_memWf (applyAck_memWf h)) (applyAck_memWf h)))))

theorem linkFrame_memWf {l f} (h : s.memWf) : (linkFrame l f s).memWf := by
  unfold linkFrame
  split
  · exact h
  · split
    next u hu =>
      have hu := memWf_of_eq (lanesRx_memWf h) hu
      exact discardFrame_memWf hu
    next u hu =>
      have hu := memWf_of_eq (lanesRx_memWf h) hu
      split
      · exact frameIn_memWf hu
      · exact discardFrame_memWf (modLink_memWf hu)

theorem execNakRepeatTimeout_memWf {l} (h : s.memWf) : OutMemWf (execNakRepeatTimeout l s) := by
  unfold execNakRepeatTimeout
  split
  · split
    · exact bumpPort_memWf (modLink_memWf h)
    · exact h
  · exact h

theorem execReplayLimitRetrain_memWf {l} (h : s.memWf) : OutMemWf (execReplayLimitRetrain l s) := by
  unfold execReplayLimitRetrain
  extract_lets _ t
  have ht : t.memWf := bumpPort_memWf (setLink_memWf h)
  split
  · exact modLanes_memWf ht
  · exact h

theorem execLinkFallback_memWf {l} (h : s.memWf) : OutMemWf (execLinkFallback l s) := by
  unfold execLinkFallback
  extract_lets
  split
  · exact findFailure_memWf (setFallback_memWf (setLink_memWf h))
  · exact h

theorem execLinkCap_memWf {l c} (h : s.memWf) : OutMemWf (execLinkCap l c s) := by
  unfold execLinkCap
  extract_lets
  split
  · exact findFailure_memWf (setLink_memWf h)
  · split
    · exact endNego_memWf (setLink_memWf h)
    · exact h

theorem execLinkCapTimeout_memWf {l} (h : s.memWf) : OutMemWf (execLinkCapTimeout l s) := by
  unfold execLinkCapTimeout
  extract_lets
  split
  · exact lanesToDetect_memWf (setLink_memWf h)
  · exact h

theorem execCreditAuditDue_memWf {l} (h : s.memWf) : OutMemWf (execCreditAuditDue l s) := by
  unfold execCreditAuditDue
  extract_lets
  split
  · exact setPhase_memWf (sendCtlFirst_memWf h)
  · exact h

theorem execAudit_memWf {l m} (h : s.memWf) : OutMemWf (execAudit l m s) := by
  unfold execAudit
  split
  · exact h
  · exact sendCtl_memWf (modLink_memWf (memWf_foldl (fun _ _ hs => auditMismatch_memWf (bumpPort_memWf hs)) h))

theorem execAuditResult_memWf {l m} (h : s.memWf) : OutMemWf (execAuditResult l m s) := by
  unfold execAuditResult
  split
  · exact h
  · exact modLink_memWf h

theorem execPartitionFreeze_memWf {l} (h : s.memWf) : OutMemWf (execPartitionFreeze l s) := by
  unfold execPartitionFreeze
  split
  · exact h
  · exact modLink_memWf h

theorem execResyncSend_memWf {l} (h : s.memWf) : OutMemWf (execResyncSend l s) := by
  unfold execResyncSend
  extract_lets
  split
  · exact h
  · exact sendCtl_memWf (setLink_memWf h)

theorem execResync_memWf {l m} (h : s.memWf) : OutMemWf (execResync l m s) := by
  unfold execResync
  split
  · exact h
  · exact modLink_memWf h

theorem execPartitionUnfreeze_memWf {l} (h : s.memWf) : OutMemWf (execPartitionUnfreeze l s) := by
  unfold execPartitionUnfreeze
  split
  · exact h
  · exact modLink_memWf h

end Machine
end Sys2Proof
end

section
/-!
PROOF. Every step keeps the memories in canonical form, part two: the core, the Larder, the rings, own items and traffic management.
-/
namespace Sys2Proof
namespace Machine
set_option Elab.async false

variable {s t : State}

/-! ### The cyclic core (chapter 07) -/

theorem trimBlocks_memWf {i o} (h : s.memWf) : (trimBlocks i o s).memWf := memWf_ite h (modOut_memWf (setIn_memWf h))

theorem freeCredits_memWf {i o n} (h : s.memWf) : (freeCredits i o n s).memWf :=
  trimBlocks_memWf (modOut_memWf (modIn_memWf h))

theorem freeReplicas_memWf {o ms} (h : s.memWf) : (freeReplicas o ms s).memWf :=
  memWf_foldl (fun _ _ hs => modOut_memWf (setSlice_memWf hs)) h

theorem lendOne_memWf {i o} (h : s.memWf) : (lendOne i s o).memWf := modOut_memWf (modIn_memWf h)
theorem lendInput_memWf {i} (h : s.memWf) : (lendInput s i).memWf := memWf_foldl (fun _ _ hs => lendOne_memWf hs) h

theorem freeUnits_memWf {i q u} (h : s.memWf) : (freeUnits i q u s).memWf := by
  unfold freeUnits
  extract_lets t
  have ht : t.memWf := modIn_memWf h
  split
  · exact memWf_ite ht (rxFree_memWf ht)
  · exact admitEntering_memWf ht

theorem sentCell_memWf {i e e'} (h : s.memWf) : (sentCell i e e' s).memWf := by
  unfold sentCell
  extract_lets t
  have ht : t.memWf := modIn_memWf h
  exact ht

theorem crossContrib_memWf {i m e} (h : s.memWf) : (crossContrib i m e s).memWf := by
  unfold crossContrib
  split
  · exact freeUnits_memWf (sentCell_memWf (setSlice_memWf h))
  · exact h

theorem crossOne_memWf {i m e} (h : s.memWf) : (crossOne i m e s).memWf := by
  unfold crossOne
  exact memWf_ite (trimBlocks_memWf (freeUnits_memWf (sentCell_memWf (memWf_ite (modIn_memWf (memWf_ite
    (modOut_memWf h) h)) (setSlice_memWf (modIn_memWf (memWf_ite (modOut_memWf h) h))))))) (freeUnits_memWf
    (sentCell_memWf (memWf_ite (modIn_memWf (memWf_ite (modOut_memWf h) h)) (setSlice_memWf (modIn_memWf (memWf_ite
    (modOut_memWf h) h))))))

theorem stageOne_memWf {i} (h : s.memWf) : (stageOne s i).memWf := by
  unfold stageOne
  extract_lets
  split
  · exact memWf_ite (crossContrib_memWf h) (crossOne_memWf h)
  · exact h

theorem sendOut_memWf {m o bad e} (h : s.memWf) : (sendOut m o bad e s).memWf := by
  unfold sendOut
  extract_lets _ _ _ _ _ _ t
  have ht : t.memWf := modOut_memWf (setSlice_memWf h)
  exact ht

theorem stageTwo_memWf {errs m} (h : s.memWf) : (stageTwo errs s m).memWf := by
  unfold stageTwo
  extract_lets
  split
  · exact h
  · exact memWf_ite (sendOut_memWf (raiseEv_memWf h)) (sendOut_memWf h)

theorem sampleDepths_memWf {depth} (h : s.memWf) : (sampleDepths depth s).memWf :=
  memWf_ite (memWf_foldl (fun _ _ hs => memWf_foldl (fun _ _ hs => bump_memWf hs) hs) h) h

theorem phaseZero_memWf (h : s.memWf) : (phaseZero s).memWf := memWf_ite h h

theorem coreCross_memWf {errs} (h : s.memWf) : (coreCross errs s).memWf :=
  memWf_foldl (fun _ _ hs => stageOne_memWf hs) (memWf_foldl (fun _ _ hs => stageTwo_memWf hs) (memWf_foldl
    (fun _ _ hs => lendInput_memWf hs) (phaseZero_memWf h)))

theorem closeRecord_memWf {r} (h : s.memWf) : (closeRecord r s).memWf := inject_memWf h

theorem mcCount_memWf {o ok st p} (h : s.memWf) : (mcCount o ok st p s).memWf := by
  unfold mcCount
  split
  · exact h
  · exact memWf_ite (closeRecord_memWf h) h

theorem countLeft_memWf {o n} (h : s.memWf) : (countLeft o n s).memWf := h
theorem forgetDead_memWf {o} (h : s.memWf) : (forgetDead o s).memWf := modOut_memWf h
theorem dropCell_memWf {o c} (h : s.memWf) : (dropCell o c s).memWf := countLeft_memWf (freeCredits_memWf h)

theorem loseRef_memWf {o st r} (h : s.memWf) : (loseRef o st r s).memWf := by
  unfold loseRef
  split
  · exact h
  · exact h

theorem failCell_memWf {o st c} (h : s.memWf) : (failCell o st c s).memWf :=
  memWf_ite h (loseRef_memWf (sendFail_memWf (bumpPort_memWf h)))

theorem markDead_memWf {o uid} (h : s.memWf) : (markDead o uid s).memWf := modOut_memWf h

theorem freeHeld_memWf {o uid st} (h : s.memWf) : (freeHeld o uid st s).memWf :=
  memWf_foldl (fun _ _ hs => dropCell_memWf (failCell_memWf hs)) (modOut_memWf h)

theorem discardAt_memWf {o uid st} (h : s.memWf) : (discardAt o uid st s).memWf := by
  unfold discardAt
  extract_lets t
  have ht : t.memWf := markDead_memWf h
  split
  · exact freeHeld_memWf ht
  · exact memWf_ite ht (memWf_ite (freeHeld_memWf (modOut_memWf (loseRef_memWf (memWf_ite (sendFail_memWf
    (bumpPort_memWf ht)) (mcCount_memWf (bumpPort_memWf ht)))))) (freeHeld_memWf (memWf_ite (countLeft_memWf
    (modOut_memWf (loseRef_memWf (memWf_ite (sendFail_memWf (bumpPort_memWf ht)) (mcCount_memWf
    (bumpPort_memWf ht)))))) (memWf_ite (freeCredits_memWf (countLeft_memWf (modOut_memWf (loseRef_memWf (memWf_ite
    (sendFail_memWf (bumpPort_memWf ht)) (mcCount_memWf (bumpPort_memWf ht))))))) (freeReplicas_memWf (countLeft_memWf
    (modOut_memWf (loseRef_memWf (memWf_ite (sendFail_memWf (bumpPort_memWf ht)) (mcCount_memWf
    (bumpPort_memWf ht)))))))))))

theorem acceptCell_memWf {o y} (h : s.memWf) : (acceptCell o y s).memWf :=
  memWf_ite h (memWf_ite (dropCell_memWf (failCell_memWf h)) (memWf_ite (memWf_ite (dropCell_memWf (failCell_memWf
    (markDead_memWf h))) (setOut_memWf h)) (memWf_ite (setOut_memWf h) (dropCell_memWf (markDead_memWf h)))))

theorem drainHeld_memWf {o k n} (h : s.memWf) : (drainHeld o k n s).memWf := by
  induction n generalizing s with
  | zero => exact h
  | succ n ih =>
    unfold drainHeld
    extract_lets
    split
    · exact h
    · exact ih (acceptCell_memWf (setOut_memWf h))

theorem arriveUnicast_memWf {o c} (h : s.memWf) : (arriveUnicast o c s).memWf :=
  memWf_ite (dropCell_memWf (failCell_memWf h)) (drainHeld_memWf (modOut_memWf (memWf_ite (dropCell_memWf
    (failCell_memWf (memWf_ite (discardAt_memWf h) h))) (memWf_ite (discardAt_memWf h) h))))

theorem arriveMcast_memWf {o c m} (h : s.memWf) : (arriveMcast o c m s).memWf := by
  unfold arriveMcast
  exact memWf_ite (countLeft_memWf (freeReplicas_memWf h)) (memWf_ite (memWf_ite (countLeft_memWf (freeReplicas_memWf
    (discardAt_memWf h))) (countLeft_memWf (freeReplicas_memWf (markDead_memWf (loseRef_memWf (mcCount_memWf
    (bumpPort_memWf h))))))) (memWf_ite (setOut_memWf h) (setOut_memWf h)))

theorem ageSweep_memWf {o} (h : s.memWf) : (ageSweep o s).memWf := by
  unfold ageSweep
  extract_lets _ _ _ _ t
  have ht : t.memWf := memWf_foldl (fun _ _ hs => discardAt_memWf hs) h
  split
  · exact h
  · split
    · exact h
    · exact memWf_ite h (forgetDead_memWf (drainHeld_memWf (modOut_memWf (memWf_ite ht (discardAt_memWf ht)))))

theorem execPoolAudit_memWf {j} (h : s.memWf) : OutMemWf (execPoolAudit j s) := by
  unfold execPoolAudit
  split
  · exact memWf_ite (memWf_frame (auditMismatch_memWf h)) h
  · exact h

theorem rebuildPool_memWf {j} (h : s.memWf) : (rebuildPool j s).memWf := by
  unfold rebuildPool
  split
  · exact modIn_memWf h
  · split
    · exact setSlice_memWf h
    · split
      · exact h
      · exact modOut_memWf h

theorem execPoolRebuildDone_memWf {j} (h : s.memWf) : OutMemWf (execPoolRebuildDone j s) := by
  unfold execPoolRebuildDone
  split
  · split
    · exact rebuildPool_memWf h
    · exact h
  · exact h

/-! ### The Larder (chapter 11) -/

theorem bindPage_memWf {k tenant} (h : s.memWf) : (bindPage k tenant s).memWf := memWf_ite h (memWf_frame h)

theorem countLine_memWf {cls wr tenant x} (h : s.memWf) : (countLine cls wr tenant s x).memWf := by
  unfold countLine
  extract_lets _ t _ t1
  have ht : t.memWf := bump_memWf h
  split
  · exact bump_memWf ht
  · exact ht

theorem countPlace_memWf {cls wr tenant p} (h : s.memWf) : (countPlace cls wr tenant p s).memWf :=
  memWf_foldl (fun _ _ hs => countLine_memWf hs) h

theorem translate_memWf {coat tenant page line} (h : s.memWf) : (translate coat tenant page line s).memWf :=
  memWf_ite h (bump_memWf h)

theorem translateAll_memWf {coat tenant off p} (h : s.memWf) : (translateAll coat tenant off p s).memWf := by
  unfold translateAll
  split
  · exact memWf_foldl (fun _ _ hs => translate_memWf hs) h
  · exact h

theorem retireFrame_memWf {f st} (h : s.memWf) : (retireFrame f st s).memWf :=
  memWf_ite h (memWf_ite (memWf_frame (bump_memWf (raiseEv_memWf h))) (memWf_frame (bump_memWf (raiseEv_memWf h))))

theorem foundBad_memWf {row addr p} (h : s.memWf) : (foundBad row addr p s).memWf := by
  unfold foundBad
  extract_lets t
  have ht : t.memWf := raiseEv_memWf h
  split
  · exact memWf_foldl (fun _ _ hs => retireFrame_memWf (bump_memWf hs)) ht
  · exact ht

theorem countRefused_memWf {x st} (h : s.memWf) : (countRefused x st s).memWf :=
  memWf_ite (bump_memWf h) (memWf_ite (bump_memWf h) h)

theorem refuse_memWf {st p} (h : s.memWf) : (refuse st p s).memWf :=
  memWf_ite (mcCount_memWf (countRefused_memWf h)) (sendFail_memWf (countRefused_memWf h))

theorem markFailed_memWf {p} (h : s.memWf) : (markFailed p s).memWf := h

theorem readPiece_memWf {r} (h : s.memWf) : (readPiece r s).memWf := by
  unfold readPiece
  extract_lets _ _ _ t
  have ht : t.memWf := foundBad_memWf h
  split
  · exact inject_memWf h
  · exact memWf_ite ht (markFailed_memWf (sendFail_memWf ht))

theorem countWrite_memWf {port p} (h : s.memWf) : (countWrite port p s).memWf := memWf_ite (inject_memWf h) h

theorem writePacket_memWf {r} (h : s.memWf) : (writePacket r s).memWf := by
  unfold writePacket
  extract_lets
  split
  next u _ hu =>
    have hu := memWf_of_eq_fst (placeWrite_memWf _ _ _ h) hu
    exact memWf_ite (mcCount_memWf (memWf_ite hu (foundBad_memWf hu))) (memWf_ite (countWrite_memWf (memWf_ite hu
      (foundBad_memWf hu))) (sendFail_memWf (memWf_ite hu (foundBad_memWf hu))))

theorem placeAtomic_memWf {op pl x y} (h : s.memWf) : PairMemWf (placeAtomic op pl x y s) := by
  unfold placeAtomic
  extract_lets _ t
  have ht : t.memWf := by
    unfold t
    split
    · exact bump_memWf h
    · exact h
  split
  · exact h
  · exact placeWrite_memWf _ _ _ ht

theorem atomicPacket_memWf {r} (h : s.memWf) : (atomicPacket r s).memWf := by
  unfold atomicPacket
  extract_lets
  split
  · split
    next u hu =>
      have hu := memWf_of_eq (placeAtomic_memWf h) hu
      exact sendFail_memWf (foundBad_memWf hu)
    next u hu =>
      have hu := memWf_of_eq (placeAtomic_memWf h) hu
      exact inject_memWf hu

theorem perform_memWf {r} (h : s.memWf) : (perform r s).memWf :=
  memWf_ite (readPiece_memWf (countPlace_memWf h)) (memWf_ite (writePacket_memWf (countPlace_memWf h))
    (atomicPacket_memWf (countPlace_memWf h)))

theorem noteLine_memWf {st} (h : s.memWf) : (noteLine s st).memWf := h

theorem noteTaken_memWf {r} (h : s.memWf) : (noteTaken r s).memWf :=
  memWf_ite (memWf_frame (memWf_foldl (fun _ _ hs => noteLine_memWf hs) h)) (memWf_foldl
    (fun _ _ hs => noteLine_memWf hs) h)

theorem takeDelivered_memWf {p} (h : s.memWf) : (takeDelivered p s).memWf := by
  unfold takeDelivered
  split
  · exact h
  · exact h

theorem offer_memWf {r} (h : s.memWf) : (offer s r).memWf := memWf_ite (perform_memWf (noteTaken_memWf h)) h

theorem admitRequest_memWf {p pl} (h : s.memWf) : (admitRequest p pl s).memWf := by
  unfold admitRequest
  extract_lets
  split
  · exact memWf_foldl (fun _ _ hs => offer_memWf hs) (translateAll_memWf (takeDelivered_memWf h))
  · exact memWf_ite h (memWf_foldl (fun _ _ hs => perform_memWf hs) (translateAll_memWf (takeDelivered_memWf h)))
  · exact memWf_foldl (fun _ _ hs => perform_memWf hs) (translateAll_memWf (takeDelivered_memWf h))

theorem memRequest_memWf {p} (h : s.memWf) : (memRequest p s).memWf := by
  unfold memRequest
  split
  · exact refuse_memWf (takeDelivered_memWf h)
  · split
    · exact h
    · split
      · exact refuse_memWf (takeDelivered_memWf h)
      · exact admitRequest_memWf h

theorem zeroLine_memWf {x} (h : s.memWf) : (zeroLine x s).memWf := by
  rw [memWf_iff] at h ⊢
  exact ⟨tblWf_filter _ 0 _ h.1, h.2⟩

theorem fillOne_memWf {st} (h : s.memWf) : (fillOne st s).memWf := by
  unfold fillOne
  split
  · exact h
  · split
    · exact h
    · exact zeroLine_memWf (memWf_frame (countLine_memWf (noteLine_memWf h)))

theorem controllerSlot_memWf {st n} (h : s.memWf) : (controllerSlot st n s).memWf := by
  induction n generalizing s with
  | zero => exact h
  | succ n ih =>
    unfold controllerSlot
    split
    · exact h
    · exact ih (fillOne_memWf h)
    · exact ih (perform_memWf (noteTaken_memWf h))

theorem execWriteTrackingTimeout_memWf {src tag} (h : s.memWf) : OutMemWf (execWriteTrackingTimeout src tag s) := by
  unfold execWriteTrackingTimeout
  split
  · exact memWf_ite h h
  · exact h

theorem execScrubRead_memWf {line corrected bad} (h : s.memWf) : OutMemWf (execScrubRead line corrected bad s) := by
  unfold execScrubRead
  split
  · exact h
  · extract_lets _ t _ _ t1 _ t2 _ t3
    have ht : t.memWf := memWf_ite h h
    have ht1 : t1.memWf := bump_memWf (bump_memWf ht)
    have ht3 : t3.memWf := memWf_foldl (fun _ _ hs => raiseEv_memWf (bump_memWf hs)) ht1
    exact memWf_ite (retireFrame_memWf ht3) ht3

theorem goRetire_memWf {f} (h : s.memWf) : (goRetire f s).memWf := memWf_ite h (retireFrame_memWf h)

theorem execFrameRetireCopyDone_memWf {f} (h : s.memWf) : OutMemWf (execFrameRetireCopyDone f s) := by
  unfold execFrameRetireCopyDone
  split
  · exact memWf_ite h h
  · exact h

/-! ### Rings and descriptors (chapter 04) -/

theorem withDesc_memWf {d op body} (hb : ∀ a s, s.memWf → (body a s).memWf) (h : s.memWf) :
    (withDesc d op s body).memWf := by
  unfold withDesc
  split
  · exact h
  · exact memWf_ite (hb _ _ (modFlight_memWf h)) h

theorem addWaits_memWf {d n} (h : s.memWf) : (addWaits d n s).memWf := modFlight_memWf h

theorem execDescriptorFenceRelease_memWf {d} (h : s.memWf) : OutMemWf (execDescriptorFenceRelease d s) := by
  unfold execDescriptorFenceRelease
  split
  · exact memWf_ite (modFlight_memWf h) h
  · exact h

theorem timedStart_memWf {d} (h : s.memWf) : (timedStart d s).memWf := by
  unfold timedStart
  split
  · exact memWf_ite (modFlight_memWf h) h
  · exact h

theorem execReservedOpcode_memWf {d} (h : s.memWf) : OutMemWf (execReservedOpcode d s) := by
  unfold execReservedOpcode
  split
  · exact memWf_ite (complete_memWf h) h
  · exact h

theorem ringConfig_memWf {d f} (h : s.memWf) : (ringConfig d f s).memWf := by
  unfold ringConfig
  split
  · exact complete_memWf h
  · extract_lets t
    have ht : t.memWf := modFlight_memWf h
    split
    · exact complete_memWf ht
    · split
      · exact complete_memWf ht
      · split
        · exact complete_memWf ht
        · split
          · exact complete_memWf (setCq_memWf ht)
          · exact complete_memWf (setSq_memWf ht)
          · exact ht

theorem putSqCons_memWf {i} (h : s.memWf) : (putSqCons i s).memWf := memWf_ite h (consumerPut_memWf (setSq_memWf h))

theorem doorbellPoll_memWf (h : s.memWf) : (doorbellPoll s).memWf :=
  memWf_ite (bump_memWf h) (hostRead_memWf (bump_memWf h))

theorem applyCqCons_memWf {page j} (h : s.memWf) : (applyCqCons page j s).memWf :=
  memWf_ite h (memWf_ite (cqInterrupt_memWf (setCq_memWf h)) (setCq_memWf h))

theorem applyEvCons_memWf {page} (h : s.memWf) : (applyEvCons page s).memWf := memWf_ite h h

theorem applySqProd_memWf {page i} (h : s.memWf) : (applySqProd page i s).memWf := by
  unfold applySqProd
  extract_lets
  split
  · exact h
  · split
    · exact setSq_memWf h
    · split
      next u hu =>
        have hu := memWf_of_eq (takeFree_memWf h) hu
        exact setSq_memWf hu

theorem fetchRing_memWf {i n} (h : s.memWf) : (fetchRing i n s).memWf := by
  unfold fetchRing
  extract_lets _ _ _ _ t _ t1 t2
  have ht : t.memWf := setSq_memWf h
  have ht2 : t2.memWf := hostRead_memWf ht
  exact memWf_ite (hostRead_memWf ht2) ht2

theorem fetchAll_memWf {is left} (h : s.memWf) : (fetchAll is left s).memWf := by
  induction is generalizing left s with
  | nil => exact h
  | cons y ys ih =>
    unfold fetchAll
    exact memWf_ite (ih h) (ih (fetchRing_memWf h))

theorem applyPage_memWf {page} (h : s.memWf) : (applyPage page s).memWf :=
  applyEvCons_memWf (memWf_foldl (fun _ _ hs => applyCqCons_memWf (applySqProd_memWf hs)) h)

theorem doorbellApply_memWf (h : s.memWf) : (doorbellApply s).memWf :=
  memWf_ite h (memWf_ite (evFlush_memWf (memWf_foldl (fun _ _ hs => applyPage_memWf hs) h)) (fetchAll_memWf
    (evFlush_memWf (memWf_foldl (fun _ _ hs => applyPage_memWf hs) h))))

theorem auditRing_memWf {i} (h : s.memWf) : (auditRing s i).memWf :=
  memWf_ite h (setSq_memWf (memWf_foldl (fun _ _ hs => complete_memWf hs) (auditMismatch_memWf h)))

/-! ### The part's own items (chapter 05) -/

theorem injectOwn_memWf {i p} (h : s.memWf) : (injectOwn i p s).memWf := by
  unfold injectOwn
  extract_lets
  split
  next u hu =>
    have hu := memWf_of_eq (hopIngress_memWf h) hu
    exact enqueue_memWf hu
  next u hu =>
    have hu := memWf_of_eq (hopIngress_memWf h) hu
    exact hu

theorem dropOwn_memWf {tag} (h : s.memWf) : (dropOwn tag s).memWf := h

theorem sendItem_memWf {i tags base len payload use} (h : s.memWf) :
    OptMemWf (sendItem i tags base len payload use s) := by
  unfold sendItem
  split
  · exact trivial
  · extract_lets _ _ _ _ t
    have ht : t.memWf := memWf_foldl (fun _ _ hs => injectOwn_memWf hs) h
    exact ht

theorem takeAnswer_memWf {p} (h : s.memWf) : PairMemWf (takeAnswer p s) := by
  unfold takeAnswer
  extract_lets t
  have ht : t.memWf := takeDelivered_memWf h
  split
  · split
    · exact ht
    · exact ht
  · exact ht

theorem countRead_memWf {o p} (h : s.memWf) : (countRead o p s).2.2.memWf := memWf_frame h

/-! ### Traffic management (chapter 09) -/

theorem swapRequest_memWf {l} (h : s.memWf) : (swapRequest l s).memWf := memWf_ite h (setTm_memWf h)

theorem gateBankSwap_memWf {l} (h : s.memWf) : (gateBankSwap l s).memWf := by
  unfold gateBankSwap
  extract_lets
  split
  · exact h
  · split
    · exact h
    · split
      · exact setPhase_memWf (raiseEv_memWf (setTm_memWf h))
      · exact setPhase_memWf (setTm_memWf h)

theorem gateStep_memWf (h : s.memWf) : (gateStep s).memWf := memWf_frame h

theorem layTail_memWf {l q} (h : s.memWf) : (layTail l q s).memWf := by
  unfold layTail
  extract_lets
  split
  · split
    · exact memWf_ite h (setLink_memWf h)
    · exact h
  · exact h

theorem startOn_memWf {l v q} (h : s.memWf) : (startOn l v q s).memWf :=
  bump_memWf (bump_memWf (peepFrame_memWf (layTail_memWf (modOut_memWf (modLink_memWf (modPart_memWf h))))))

theorem countGuard_memWf {l} (h : s.memWf) : (countGuard l s).memWf := by
  unfold countGuard
  refine memWf_foldl (fun u _ hs => ?_) h
  split
  · split
    · exact bump_memWf hs
    · exact hs
  · exact hs

theorem packetStart_memWf {l} (h : s.memWf) : (packetStart l s).memWf := by
  unfold packetStart
  extract_lets _ t
  have ht : t.memWf := countGuard_memWf h
  split
  · exact h
  · split
    · exact ht
    · split
      · exact ht
      · exact startOn_memWf (setTm_memWf ht)

theorem countStalls_memWf {l} (h : s.memWf) : (countStalls l s).memWf := by
  unfold countStalls
  split
  · exact h
  · refine memWf_foldl (fun u _ hs => ?_) h
    split
    · split
      · exact bump_memWf hs
      · exact bump_memWf hs
      · exact bump_memWf hs
      · exact hs
    · exact hs

theorem congest_memWf {o} (h : s.memWf) : (congest o s).memWf :=
  memWf_foldl (fun _ _ hs => memWf_ite (modIn_memWf hs) hs) h

theorem refillAll_memWf (h : s.memWf) : (refillAll s).memWf := by
  unfold refillAll
  extract_lets t u
  have ht : t.memWf := memWf_foldl (fun _ _ hs => setTm_memWf hs) h
  have hu : u.memWf := memWf_frame ht
  exact memWf_foldl (fun _ _ hs => modIn_memWf hs) hu

theorem modEth_memWf {l f} (h : s.memWf) : (modEth l f s).memWf := h
theorem modQp_memWf {q f} (h : s.memWf) : (modQp q f s).memWf := h

end Machine
end Sys2Proof
end

section
/-!
PROOF. Every step keeps the memories in canonical form, part three: the gateway, the lanes, the Strongroom and the Attic.
-/
namespace Sys2Proof
namespace Machine
set_option Elab.async false

variable {s t : State}

/-! ### Ethernet ports and the gateway (chapter 17) -/

theorem bumpEth_memWf {l w n} (h : s.memWf) : (bumpEth l w n s).memWf := bump_memWf h

theorem ethSend_memWf {l v f} (h : s.memWf) : (ethSend l v f s).memWf := by
  unfold ethSend
  extract_lets
  split
  · exact modEth_memWf h
  · split
    · exact modEth_memWf (bump_memWf h)
    · exact modEth_memWf (bumpEth_memWf h)

theorem pfcSend_memWf {l c quanta} (h : s.memWf) : (pfcSend l c quanta s).memWf := bumpEth_memWf (modEth_memWf h)

theorem pumpOut_memWf {q n} (h : s.memWf) : (pumpOut q n s).memWf := by
  induction n generalizing s with
  | zero => exact h
  | succ n ih =>
    unfold pumpOut
    extract_lets
    split
    · exact memWf_ite (ih (ethSend_memWf (modQp_memWf h))) h
    · exact h

theorem qpSend_memWf {q p} (h : s.memWf) : (qpSend q p s).memWf := pumpOut_memWf (modQp_memWf h)

theorem ethCount_memWf {l which} (h : s.memWf) : (ethCount l which s).memWf := by
  unfold ethCount
  refine memWf_foldl (fun u _ hs => ?_) h
  split
  · split
    · exact bump_memWf hs
    · exact hs
  · exact hs

theorem ethStart_memWf {l} (h : s.memWf) : (ethStart l s).memWf := by
  unfold ethStart
  extract_lets _ t
  have ht : t.memWf := ethCount_memWf h
  split
  · exact h
  · split
    · exact ht
    · split
      · exact ht
      · exact bump_memWf (bump_memWf (peepFrame_memWf (modEth_memWf (setTm_memWf ht))))

theorem ethLast_memWf {l} (h : s.memWf) : (ethLast l s).memWf := by
  unfold ethLast
  split
  · exact h
  · exact memWf_ite h (bumpEth_memWf (bumpEth_memWf (modEth_memWf h)))

theorem ethCame_memWf {l disc bs} (h : s.memWf) : (ethCame l disc bs s).memWf :=
  peepFrame_memWf (bumpEth_memWf (bumpEth_memWf (bump_memWf (bump_memWf h))))

theorem ethMeter_memWf {l bs} (h : s.memWf) : PairMemWf (ethMeter l bs s) := by
  unfold ethMeter
  extract_lets
  split
  next u hu =>
    have hu := memWf_of_eq (meterRun_memWf h) hu
    extract_lets _ t
    have ht : t.memWf := bumpEth_memWf hu
    split
    · exact ht
    · split
      · exact bumpEth_memWf ht
      · exact ht
    · exact ht

theorem ethPass_memWf {l bs} (h : s.memWf) : PairMemWf (ethPass l bs s) := by
  unfold ethPass
  split
  next u hu =>
    have hu := memWf_of_eq (ethMeter_memWf h) hu
    exact ethCame_memWf hu
  next u hu =>
    have hu := memWf_of_eq (ethMeter_memWf h) hu
    split
    · exact ethCame_memWf hu
    · exact ethCame_memWf hu

theorem ethReply_memWf {l bs f} (h : s.memWf) : (ethReply l bs f s).memWf := by
  unfold ethReply
  split
  next u hu =>
    have hu := memWf_of_eq (ethPass_memWf h) hu
    exact hu
  next u hu =>
    have hu := memWf_of_eq (ethPass_memWf h) hu
    exact ethSend_memWf hu

theorem pfcCheck_memWf {l c} (h : s.memWf) : (pfcCheck l c s).memWf :=
  memWf_ite (pfcSend_memWf (modEth_memWf h)) (memWf_ite (pfcSend_memWf (modEth_memWf h)) h)

theorem execPfcPauseRepeat_memWf {l c} (h : s.memWf) : OutMemWf (execPfcPauseRepeat l c s) := by
  unfold execPfcPauseRepeat
  split
  · exact memWf_ite (pfcSend_memWf (modEth_memWf h)) h
  · exact h

theorem withQp_memWf {d f bound body} (hb : ∀ a s, s.memWf → (body a s).memWf) (h : s.memWf) :
    (withQp d f bound s body).memWf := by
  unfold withQp
  split
  · exact complete_memWf h
  · exact memWf_ite (complete_memWf (modFlight_memWf h)) (memWf_ite (complete_memWf (modFlight_memWf h)) (hb _ _
    (modFlight_memWf h)))

theorem qpGot_memWf {d st bs} (h : s.memWf) : (qpGot d st bs s).memWf := by
  unfold qpGot
  split
  · exact h
  · split
    · exact h
    · exact memWf_ite (complete_memWf h) (memWf_ite (complete_memWf h) (complete_memWf (modQp_memWf h)))

theorem gwDesc_memWf {op d f} (h : s.memWf) : (gwDesc op d f s).memWf := by
  unfold gwDesc
  refine withQp_memWf (fun _ u hs => ?_) h
  extract_lets
  split
  · exact complete_memWf hs
  · split
    · exact complete_memWf hs
    · exact complete_memWf hs
    · exact complete_memWf hs
    · exact modQp_memWf (modFlight_memWf hs)

theorem modGwOut_memWf {q d f} (h : s.memWf) : (modGwOut q d f s).memWf := modQp_memWf h

theorem gwPump_memWf {q} (h : s.memWf) : (gwPump q s).memWf := by
  unfold gwPump
  extract_lets
  split
  · split
    · exact h
    · split
      · exact h
      · extract_lets _ t _ _ t1
        have ht : t.memWf := memWf_ite h (modQp_memWf h)
        have ht1 : t1.memWf := modGwOut_memWf ht
        split
        · exact qpSend_memWf ht1
        · split
          next u hu =>
            have hu := memWf_of_some (sendItem_memWf ht) hu
            exact modGwOut_memWf hu
          · exact modGwOut_memWf ht
  · exact h

theorem gwStart_memWf {f} (h : s.memWf) : (execGwWrite.gwStart f s).memWf := by
  unfold execGwWrite.gwStart
  split
  · exact gwPump_memWf h
  · exact h

theorem execGwRecvPost_memWf {d} (h : s.memWf) : OutMemWf (execGwRecvPost d s) := by
  unfold execGwRecvPost
  refine withDesc_memWf (fun _ u0 hs0 => ?_) h
  refine withQp_memWf (fun _ u1 hs1 => ?_) hs0
  extract_lets
  split
  · exact complete_memWf hs1
  · exact memWf_ite (complete_memWf hs1) (complete_memWf (modQp_memWf hs1))

theorem qpCancel_memWf {q st} (h : s.memWf) : (qpCancel q st s).memWf :=
  memWf_foldl (fun _ _ hs => complete_memWf hs) (modQp_memWf h)

theorem qpToStopping_memWf {q} (h : s.memWf) : (qpToStopping q s).memWf :=
  memWf_ite (qpCancel_memWf (setFn_memWf h)) (memWf_ite (setFn_memWf h) h)

theorem qpStop_memWf {q syndrome st} (h : s.memWf) : (qpStop q syndrome st s).memWf :=
  qpToStopping_memWf (raiseEv_memWf h)

theorem gwEnd_memWf {q d st} (h : s.memWf) : (gwEnd q d st s).memWf := complete_memWf (modQp_memWf h)

theorem ethPortDown_memWf {l} (h : s.memWf) : (ethPortDown l s).memWf :=
  memWf_foldl (fun _ _ hs => memWf_foldl (fun _ _ hs => gwEnd_memWf hs) (modQp_memWf (qpToStopping_memWf hs)))
    (modEth_memWf h)

theorem qpStarting_memWf {q} (h : s.memWf) : (qpStarting q s).memWf := by
  unfold qpStarting
  extract_lets
  split
  · exact h
  · exact modQp_memWf h

theorem gwNak_memWf {q l syn st psn} (h : s.memWf) : (gwNak q l syn st psn s).memWf :=
  memWf_ite (bumpEth_memWf (memWf_ite h (qpSend_memWf h))) (qpStop_memWf (bumpEth_memWf (memWf_ite h (qpSend_memWf h))))

theorem cnpSend_memWf {q l} (h : s.memWf) : (cnpSend q l s).memWf :=
  memWf_ite (bumpEth_memWf (qpSend_memWf (modQp_memWf h))) h

theorem readItems_memWf {q c tenant psn n a len} (h : s.memWf) : OptMemWf (readItems q c tenant psn n a len s) := by
  induction n generalizing a len s with
  | zero => exact h
  | succ n ih =>
    unfold readItems
    split
    · exact h
    · extract_lets
      split
      next u hu =>
        have hu := memWf_of_some (sendItem_memWf h) hu
        exact ih hu
      · exact trivial

theorem startReads_memWf {q c es} (h : s.memWf) : (startReads q c es s).memWf := by
  induction es generalizing s with
  | nil => exact h
  | cons y ys ih =>
    unfold startReads
    split
    · exact h
    · split
      · exact ih h
      · split
        · exact h
        next u hu =>
          have hu := memWf_of_some (readItems_memWf h) hu
          exact ih (modQp_memWf hu)

theorem sendAck_memWf {q ack} (h : s.memWf) : (settleIns.sendAck q ack s).memWf := by
  unfold settleIns.sendAck
  split
  · exact memWf_ite h (qpSend_memWf h)
  · exact h

theorem settleIns_memWf {q c n ack} (h : s.memWf) : (settleIns q c n ack s).memWf := by
  induction n generalizing ack s with
  | zero => exact sendAck_memWf h
  | succ n ih =>
    unfold settleIns
    split
    · exact sendAck_memWf h
    · split
      · exact sendAck_memWf h
      · split
        · exact ih (memWf_ite (modQp_memWf (sendAck_memWf h)) (memWf_foldl (fun _ _ hs => qpSend_memWf hs)
          (modQp_memWf (sendAck_memWf h))))
        · extract_lets
          split
          next u hu =>
            have hu := memWf_of_some (sendItem_memWf h) hu
            exact sendAck_memWf (modQp_memWf hu)
          · exact sendAck_memWf h
        · exact ih (modQp_memWf h)

theorem settleQp_memWf {q} (h : s.memWf) : (settleQp q s).memWf := by
  unfold settleQp
  split
  · exact h
  · exact startReads_memWf (settleIns_memWf (startReads_memWf h))

theorem gwWr_memWf {q c psn a bs} (h : s.memWf) : OptMemWf (gwWr q c psn a bs s) := by
  unfold gwWr
  split
  · exact h
  · exact sendItem_memWf h

theorem gwData_memWf {q c op m cur} (h : s.memWf) : OptMemWf (gwData q c op m cur s) := by
  unfold gwData
  split
  · extract_lets
    split
    · exact gwNak_memWf h
    · split
      · exact trivial
      next u hu =>
        have hu := memWf_of_some (gwWr_memWf h) hu
        exact modQp_memWf hu

theorem gwReadReq_memWf {q c again m} (h : s.memWf) : OptMemWf (gwReadReq q c again m s) := by
  unfold gwReadReq
  extract_lets
  split
  · exact gwNak_memWf h
  · split
    · exact trivial
    · exact modQp_memWf h

theorem gwTake_memWf {q c op m} (h : s.memWf) : OptMemWf (gwTake q c op m s) := by
  unfold gwTake
  extract_lets
  split
  · exact gwNak_memWf h
  · split
    · split
      · exact gwReadReq_memWf h
      · split
        · exact qpSend_memWf h
    · split
      · exact gwNak_memWf h
      · split
        · exact gwNak_memWf h
        · split
          · exact gwReadReq_memWf h
          · split
            · exact gwNak_memWf h
            · exact gwData_memWf h
          · split
            · exact gwNak_memWf h
            · exact gwData_memWf h
          · split
            · exact gwNak_memWf h
            · split
              · exact gwNak_memWf h
              · split
                · exact gwNak_memWf h
                · split
                  next u hu =>
                    have hu := memWf_of_some (gwData_memWf h) hu
                    exact modQp_memWf hu
                  · exact trivial
          · split
            · exact gwNak_memWf h
            · split
              · exact gwNak_memWf h
              · split
                · exact gwNak_memWf h
                · split
                  next u hu =>
                    have hu := memWf_of_some (gwData_memWf h) hu
                    exact modQp_memWf hu
                  · exact trivial
          · split
            · split
              · exact gwData_memWf h
              · exact gwNak_memWf h
            · exact gwNak_memWf h

theorem gwDrain_memWf {l ws} (h : s.memWf) : (gwDrain l ws s).memWf := by
  induction ws generalizing s with
  | nil => exact h
  | cons y ys ih =>
    unfold gwDrain
    extract_lets
    split
    · exact ih h
    · split
      · exact ih (pfcCheck_memWf (modEth_memWf h))
      · split
        · exact ih (pfcCheck_memWf (modEth_memWf h))
        · split
          next u hu =>
            have hu := memWf_of_some (gwTake_memWf h) hu
            exact ih (settleQp_memWf (pfcCheck_memWf (modEth_memWf hu)))
          · exact ih h

theorem gwRetry_memWf (h : s.memWf) : (gwRetry s).memWf := memWf_foldl (fun _ _ hs => gwDrain_memWf hs) h
theorem roceDiscard_memWf {m} (h : s.memWf) : (roceDiscard m s).memWf := memWf_ite (bumpEth_memWf (ethCame_memWf h)) h

theorem roceCame_memWf {m f} (hf : ∀ q c s, s.memWf → (f q c s).memWf) (h : s.memWf) : (roceCame m s f).memWf := by
  unfold roceCame
  split
  · exact roceDiscard_memWf h
  · split
    next u hu =>
      have hu := memWf_of_eq (ethPass_memWf h) hu
      exact hu
    next u hu =>
      have hu := memWf_of_eq (ethPass_memWf h) hu
      exact hf _ _ _ (memWf_ite (cnpSend_memWf hu) hu)

theorem roceIn_memWf {op m} (h : s.memWf) : (roceIn op m s).memWf :=
  roceCame_memWf (fun _ _ _ hs => gwDrain_memWf (pfcCheck_memWf (modEth_memWf hs))) h

theorem modGwIn_memWf {q psn f} (h : s.memWf) : (modGwIn q psn f s).memWf := modQp_memWf h
theorem gwInData_memWf {q psn addr bs} (h : s.memWf) : (gwInData q psn addr bs s).memWf := modGwIn_memWf h

theorem gwInDone_memWf {q psn echo} (h : s.memWf) : (gwInDone q psn echo s).memWf := by
  unfold gwInDone
  extract_lets t
  have ht : t.memWf := settleQp_memWf (modGwIn_memWf h)
  split
  · exact gwRetry_memWf (memWf_ite (cnpSend_memWf ht) ht)
  · exact ht

theorem gwInFail_memWf {q psn st} (h : s.memWf) : (gwInFail q psn st s).memWf := by
  unfold gwInFail
  split
  · exact h
  · exact settleQp_memWf (gwNak_memWf (modQp_memWf h))

theorem gwOutData_memWf {d psn bs} (h : s.memWf) : (gwOutData d psn bs s).memWf := by
  unfold gwOutData
  split
  · exact h
  · split
    · exact memWf_ite h (gwPump_memWf (memWf_foldl (fun _ _ hs => qpSend_memWf hs) (modGwOut_memWf h)))
    · exact h

theorem gwOutFail_memWf {d st} (h : s.memWf) : (gwOutFail d st s).memWf := by
  unfold gwOutFail
  split
  · exact h
  · exact gwPump_memWf (gwEnd_memWf h)

theorem gwReadEnd_memWf {q d} (h : s.memWf) : (gwReadEnd q d s).memWf := by
  unfold gwReadEnd
  split
  · exact memWf_ite (gwPump_memWf (gwEnd_memWf h)) h
  · exact h

theorem gwOutWritten_memWf {d} (h : s.memWf) : (gwOutWritten d s).memWf := by
  unfold gwOutWritten
  split
  · exact h
  · exact gwReadEnd_memWf (modGwOut_memWf h)

theorem gwProgress_memWf {q} (h : s.memWf) : (gwProgress q s).memWf := modQp_memWf h

theorem execRdmaReadResponse_memWf {m} (h : s.memWf) : OutMemWf (execRdmaReadResponse m s) := by
  unfold execRdmaReadResponse
  refine roceCame_memWf (fun _ _ u0 hs => ?_) h
  split
  · exact hs
  · extract_lets
    split
    · exact hs
    · split
      · exact hs
      next u hu =>
        have hu := memWf_of_some (sendItem_memWf hs) hu
        exact gwPump_memWf (gwProgress_memWf (modGwOut_memWf hu))

theorem gwAckTo_memWf {q p} (h : s.memWf) : (gwAckTo q p s).memWf :=
  memWf_foldl (fun _ _ hs => gwEnd_memWf hs) (modQp_memWf h)

theorem gwResend_memWf {q l} (h : s.memWf) : (gwResend q l s).memWf := gwPump_memWf (bumpEth_memWf (modQp_memWf h))

theorem gwExhaust_memWf {q} (h : s.memWf) : (gwExhaust q s).memWf := by
  unfold gwExhaust
  split
  · exact qpStop_memWf (gwEnd_memWf h)
  · exact h

theorem gwRefused_memWf {syn st m} (h : s.memWf) : (gwRefused syn st m s).memWf := by
  unfold gwRefused
  refine roceCame_memWf (fun _ _ u hs => ?_) h
  extract_lets t
  have ht : t.memWf := gwAckTo_memWf (bumpEth_memWf hs)
  split
  · exact qpStop_memWf (gwEnd_memWf ht)
  · exact ht

theorem execCnp_memWf {f} (h : s.memWf) : OutMemWf (execCnp f s) := by
  unfold execCnp
  split
  · split
    · split
      next u hu =>
        have hu := memWf_of_eq (ethPass_memWf h) hu
        exact hu
      next u hu =>
        have hu := memWf_of_eq (ethPass_memWf h) hu
        exact bumpEth_memWf (modQp_memWf hu)
    · exact h
  · exact h

theorem execQpAckTimeout_memWf {q} (h : s.memWf) : OutMemWf (execQpAckTimeout q s) := by
  unfold execQpAckTimeout
  extract_lets
  split
  · exact memWf_ite h (memWf_ite (gwExhaust_memWf h) (gwResend_memWf (modQp_memWf h)))
  · exact h

theorem execQpRnrTimer_memWf {q} (h : s.memWf) : OutMemWf (execQpRnrTimer q s) := by
  unfold execQpRnrTimer
  extract_lets
  split
  · exact memWf_ite (gwResend_memWf (modQp_memWf h)) h
  · exact h

theorem refillQps_memWf (h : s.memWf) : (refillQps s).memWf :=
  gwRetry_memWf (memWf_foldl (fun _ _ hs => settleQp_memWf (gwPump_memWf (pumpOut_memWf hs))) h)

/-! ### Lanes and lasers (chapter 18) -/

theorem bringFail_memWf {l code} (h : s.memWf) : (bringFail l code s).memWf :=
  lanesToDetect_memWf (raiseEv_memWf (modLink_memWf h))

theorem ethLanesDown_memWf {l} (h : s.memWf) : (ethLanesDown l s).memWf := by
  unfold ethLanesDown
  extract_lets t
  have ht : t.memWf := modLanes_memWf h
  split
  · exact ethPortDown_memWf ht
  · exact ht

theorem afterHold_memWf {l code} (h : s.memWf) : (afterHold l code s).memWf :=
  memWf_ite (ethLanesDown_memWf h) (memWf_ite h (memWf_ite (findFailure_memWf h) (bringFail_memWf h)))

theorem holdLane_memWf {n} (h : s.memWf) : (holdLane n s).memWf := modLane_memWf h

theorem faultLane_memWf {n cause} (h : s.memWf) : (faultLane n cause s).memWf :=
  memWf_ite (afterHold_memWf (raiseEv_memWf (holdLane_memWf h))) h

theorem attemptFail_memWf {n} (h : s.memWf) : (attemptFail n s).memWf := memWf_ite (holdLane_memWf h) (modLane_memWf h)

theorem recoverFail_memWf {n} (h : s.memWf) : (recoverFail n s).memWf :=
  memWf_ite (findFailure_memWf h) (memWf_ite (raiseEv_memWf (setLane_memWf h)) (setLane_memWf h))

theorem judgeLane_memWf {n} (h : s.memWf) : (judgeLane n s).memWf := by
  unfold judgeLane
  extract_lets
  split
  · exact memWf_ite (memWf_ite h (attemptFail_memWf h)) (memWf_ite (memWf_ite (setLane_memWf h) (recoverFail_memWf h)) h)
  · exact h

theorem stepDone_memWf {l} (h : s.memWf) : (stepDone l s).memWf := memWf_ite (modLanes_memWf h) h

theorem judgeLink_memWf {l} (h : s.memWf) : (judgeLink l s).memWf :=
  memWf_ite (bringFail_memWf (memWf_foldl (fun _ _ hs => judgeLane_memWf hs) h)) (stepDone_memWf (memWf_foldl
    (fun _ _ hs => judgeLane_memWf hs) h))

theorem trainSeen_memWf {l} (h : s.memWf) : (trainSeen l s).memWf := modLanes_memWf h

theorem onTrain_memWf {l w msg f} (hf : ∀ b s, s.memWf → (f b s).memWf) (h : s.memWf) : (onTrain l w msg f s).memWf := by
  unfold onTrain
  extract_lets _ t
  have ht : t.memWf := setLane_memWf h
  split
  · exact memWf_ite (hf _ _ (trainSeen_memWf ht)) (trainSeen_memWf ht)
  · exact ht

theorem drawNonce_memWf {l} (h : s.memWf) : (drawNonce l s).memWf := by
  unfold drawNonce
  split
  next u hu =>
    have hu := memWf_of_eq (takeFree_memWf h) hu
    exact modLink_memWf hu

theorem execLaneDetectDone_memWf {l seen} (h : s.memWf) : OutMemWf (execLaneDetectDone l seen s) := by
  unfold execLaneDetectDone
  extract_lets
  split
  · exact h
  · exact drawNonce_memWf (modLanes_memWf h)

theorem trainCapIn_memWf {l c} (h : s.memWf) : (trainCapIn l c s).memWf :=
  memWf_ite h (memWf_ite (drawNonce_memWf h) (memWf_ite (modLink_memWf h) (memWf_ite (memWf_ite (modLink_memWf h)
    (raiseEv_memWf (modLink_memWf h))) (modLanes_memWf (modLink_memWf h)))))

theorem switchRate_memWf {l rate lanes} (h : s.memWf) : (switchRate l rate lanes s).memWf :=
  memWf_ite h (memWf_ite (bringFail_memWf (memWf_foldl (fun _ _ hs => holdLane_memWf hs) (modLanes_memWf h)))
    (memWf_foldl (fun _ _ hs => holdLane_memWf hs) (modLanes_memWf h)))

theorem trainStepIn_memWf {l rate lanes} (h : s.memWf) : (trainStepIn l rate lanes s).memWf :=
  memWf_ite h (memWf_ite (setLink_memWf h) (switchRate_memWf (setLink_memWf h)))

theorem execTrainingStep_memWf {l lane bits} (h : s.memWf) : OutMemWf (execTrainingStep l lane bits s) := by
  unfold execTrainingStep
  split
  · exact memWf_ite (switchRate_memWf h) h
  · exact onTrain_memWf (fun _ _ hs => trainStepIn_memWf hs) h

theorem trainResultIn_memWf {l rate pass} (h : s.memWf) : (trainResultIn l rate pass s).memWf :=
  judgeLink_memWf (modLanes_memWf h)

theorem laneLimit_memWf {n} (h : s.memWf) : (laneLimit n s).memWf := by
  unfold laneLimit
  split
  · exact attemptFail_memWf h
  · exact afterHold_memWf (holdLane_memWf h)
  · exact recoverFail_memWf h
  · exact h

theorem execLaneStateTimeout_memWf {l lanes} (h : s.memWf) : OutMemWf (execLaneStateTimeout l lanes s) := by
  unfold execLaneStateTimeout
  extract_lets _ t
  have ht : t.memWf := memWf_foldl (fun _ _ hs => memWf_ite (laneLimit_memWf hs) hs) h
  split
  · exact memWf_ite h (lanesToDetect_memWf h)
  · exact judgeLink_memWf ht

theorem afterAlign_memWf {l} (h : s.memWf) : (afterAlign l s).memWf :=
  memWf_ite (memWf_ite (replayNow_memWf (setLink_memWf h)) h) (memWf_ite h (memWf_ite (bringFail_memWf h)
    (startNego_memWf h)))

theorem execAlignComplete_memWf {l seen} (h : s.memWf) : OutMemWf (execAlignComplete l seen s) := by
  unfold execAlignComplete
  extract_lets _ _ _ t
  have ht : t.memWf := memWf_foldl (fun _ _ hs => afterHold_memWf (holdLane_memWf hs)) h
  split
  · exact h
  · exact afterAlign_memWf (memWf_foldl (fun _ _ hs => modLane_memWf hs) ht)

theorem execLaneFault_memWf {n cause} (h : s.memWf) : OutMemWf (execLaneFault n cause s) := by
  unfold execLaneFault
  split
  · exact memWf_ite h (faultLane_memWf h)
  · exact memWf_ite h (faultLane_memWf h)
  · exact memWf_ite (faultLane_memWf h) h
  · exact memWf_ite (faultLane_memWf h) h

theorem execLaneStateBlock_memWf {l b} (h : s.memWf) : OutMemWf (execLaneStateBlock l b s) := by
  unfold execLaneStateBlock
  split
  · exact h
  · exact memWf_ite (findFailure_memWf (afterHold_memWf (modLink_memWf (modLanes_memWf h)))) (afterHold_memWf
    (modLink_memWf (modLanes_memWf h)))

theorem execRecoverRetry_memWf {n} (h : s.memWf) : OutMemWf (execRecoverRetry n s) := by
  unfold execRecoverRetry
  extract_lets
  split
  · split
    · exact setLane_memWf h
    · exact h
  · exact h

theorem clearFailed_memWf {n} (h : s.memWf) : (clearFailed n s).memWf := memWf_ite h (setLane_memWf h)
theorem modLaser_memWf {e b f} (h : s.memWf) : (modLaser e b f s).memWf := h

theorem darkenLane_memWf {n} (h : s.memWf) : (darkenLane n s).memWf :=
  memWf_ite h (memWf_ite (afterHold_memWf (raiseEv_memWf (modLane_memWf (memWf_ite h (modLane_memWf h))))) (memWf_ite
    (afterHold_memWf (modLane_memWf (memWf_ite h (modLane_memWf h)))) (modLane_memWf (memWf_ite h (modLane_memWf h)))))

theorem lightLane_memWf {n} (h : s.memWf) : (lightLane n s).memWf :=
  memWf_ite h (memWf_ite (modLane_memWf h) (memWf_ite (modLane_memWf (modLane_memWf h)) (modLane_memWf
    (modLane_memWf h))))

theorem laserCheck_memWf {e b} (h : s.memWf) : (laserCheck e b s).memWf :=
  memWf_ite (memWf_foldl (fun _ _ hs => darkenLane_memWf hs) h) (memWf_ite (memWf_foldl
    (fun _ _ hs => lightLane_memWf hs) h) h)

theorem laserEnable_memWf {e enA enB} (h : s.memWf) : (laserEnable e enA enB s).memWf :=
  laserCheck_memWf (laserCheck_memWf (setReg_memWf h))

theorem execOpticalMeasure_memWf {m} (h : s.memWf) : OutMemWf (execOpticalMeasure m s) := by
  unfold execOpticalMeasure
  split
  · exact memWf_ite (raiseEv_memWf (laserCheck_memWf (modLaser_memWf h))) (laserCheck_memWf (modLaser_memWf h))
  · exact modLane_memWf h
  · exact memWf_ite (faultLane_memWf (modLane_memWf h)) (modLane_memWf h)

theorem trainLoopIn_memWf {n mode} (h : s.memWf) : (trainLoopIn n mode s).memWf :=
  memWf_ite (setLane_memWf h) (memWf_ite (setLane_memWf h) h)

theorem relight_memWf {l} (h : s.memWf) : (relight l s).memWf := modLanes_memWf h

theorem execEthernetPortService_memWf {l} (h : s.memWf) : OutMemWf (execEthernetPortService l s) := by
  unfold execEthernetPortService
  extract_lets
  split
  · exact modEth_memWf (modLanes_memWf h)
  · exact h

/-! ### The Strongroom (chapter 19) -/

theorem envRefuse_memWf {cond requester bs} (h : s.memWf) : (envRefuse cond requester bs s).memWf :=
  raiseEv_memWf (bumpModule_memWf h)

theorem verifyLater_memWf {u bs} (h : s.memWf) : (verifyLater u bs s).memWf := h
theorem alarmResponse_memWf {src erase} (h : s.memWf) : (alarmResponse src erase s).memWf := h

theorem drbgBytes_memWf {n} (h : s.memWf) : PairMemWf (drbgBytes n s) := by
  induction n generalizing s with
  | zero => exact h
  | succ n ih =>
    unfold drbgBytes
    split
    next u hu =>
      have hu := memWf_of_eq (takeFree_memWf h) hu
      split
      next v hv =>
        have hv := memWf_of_eq (ih hu) hv
        exact hv

theorem execSecSessionOpen_memWf {d} (h : s.memWf) : OutMemWf (execSecSessionOpen d s) := by
  unfold execSecSessionOpen
  refine withDesc_memWf (fun _ u0 hs => ?_) h
  split
  · exact complete_memWf hs
  · split
    · exact complete_memWf hs
    · extract_lets
      split
      next u hu =>
        have hu := memWf_of_eq (drbgBytes_memWf hs) hu
        exact complete_memWf (hostPut_memWf hu)

theorem sessionGot_memWf {d st bs} (h : s.memWf) : (sessionGot d st bs s).memWf :=
  memWf_ite (verifyLater_memWf h) (complete_memWf h)

theorem sessionDone_memWf {d ok bs} (h : s.memWf) : (sessionDone d ok bs s).memWf := by
  unfold sessionDone
  split
  · exact complete_memWf h
  · exact memWf_ite (complete_memWf h) (complete_memWf h)

theorem provisionEnd_memWf {d st} (h : s.memWf) : (provisionEnd d st s).memWf := complete_memWf h

theorem provisionGot_memWf {d st bs} (h : s.memWf) : (provisionGot d st bs s).memWf := by
  unfold provisionGot
  split
  · exact provisionEnd_memWf h
  · split
    · exact provisionEnd_memWf h
    · split
      · exact provisionEnd_memWf h
      · exact memWf_ite (provisionEnd_memWf h) h

theorem applyRecord_memWf {r} (h : s.memWf) : (applyRecord r s).memWf := h
theorem endLockdown_memWf (h : s.memWf) : (endLockdown s).memWf := h

theorem execProvisionApply_memWf (h : s.memWf) : OutMemWf (execProvisionApply s) := by
  unfold execProvisionApply
  split
  · exact h
  · split
    · exact h
    · split
      · exact provisionEnd_memWf h
      · exact provisionEnd_memWf (memWf_ite (endLockdown_memWf (applyRecord_memWf h)) (applyRecord_memWf h))

theorem spdmReply_memWf {x r} (hr : ∀ s, s.memWf → PairMemWf (r s)) (h : s.memWf) : (spdmReply x r s).memWf := by
  unfold spdmReply
  extract_lets t
  have ht : t.memWf := memWf_ite (takeInbox_memWf h) h
  refine memWf_ite ht ?_
  split
  next u hu =>
    have hu : u.memWf := by
      split at hu
      · cases hu
        exact ht
      · exact memWf_of_eq (hr t ht) hu
    exact memWf_frame hu

theorem spdmSign_memWf {msg} (h : s.memWf) : PairMemWf (spdmSign msg s) := h

theorem execChallenge_memWf {x nonce} (h : s.memWf) : OutMemWf (execChallenge x nonce s) := by
  unfold execChallenge
  refine spdmReply_memWf (fun u0 hs => ?_) h
  split
  next u hu =>
    have hu := memWf_of_eq (spdmSign_memWf hs) hu
    exact hu

theorem execGetMeasurements_memWf {x index signed nonce} (h : s.memWf) :
    OutMemWf (execGetMeasurements x index signed nonce s) := by
  unfold execGetMeasurements
  refine spdmReply_memWf (fun u0 hs => ?_) h
  extract_lets
  split
  · exact hs
  · split
    · split
      next u hu =>
        have hu := memWf_of_eq (spdmSign_memWf hs) hu
        exact hu
    · exact hs

theorem execVendorDefinedRequest_memWf {x vendor cmd portion} (h : s.memWf) :
    OutMemWf (execVendorDefinedRequest x vendor cmd portion s) := by
  unfold execVendorDefinedRequest
  refine spdmReply_memWf (fun u hs => ?_) h
  split
  · exact hs
  · split
    · exact hs
    · split
      · exact hs
      · exact hs

/-! ### The Attic (chapter 20) -/

theorem writeBoot_memWf {r} (h : s.memWf) : (writeBoot r s).memWf := h
theorem startImage_memWf {b} (h : s.memWf) : (startImage b s).memWf := h
theorem noteRollback_memWf {b} (h : s.memWf) : (noteRollback b s).memWf := h

theorem bootOther_memWf {b} (h : s.memWf) : (bootOther b s).memWf :=
  memWf_ite (startImage_memWf (writeBoot_memWf (noteRollback_memWf h))) h

theorem bootRun_memWf (h : s.memWf) : (bootRun s).memWf :=
  memWf_ite (startImage_memWf (writeBoot_memWf (memWf_ite (noteRollback_memWf h) h))) (bootOther_memWf
    (writeBoot_memWf (memWf_ite (noteRollback_memWf h) h)))

theorem atticRestart_memWf (h : s.memWf) : (atticRestart s).memWf := bootRun_memWf h

theorem prepareAdmin_memWf {d} (h : s.memWf) : (prepareAdmin d s).memWf := by
  unfold prepareAdmin
  split
  · extract_lets t
    have ht : t.memWf := addWaits_memWf h
    exact ht
  · exact h

theorem fwBegin_memWf {d} (h : s.memWf) : (fwBegin d s).memWf := by
  unfold fwBegin
  split
  · exact h
  · extract_lets _ _ _ t
    have ht : t.memWf := writeBoot_memWf h
    split
    · exact memWf_ite (complete_memWf h) (hostRead_memWf (addWaits_memWf h))
    · exact memWf_ite (complete_memWf h) (prepareAdmin_memWf h)
    · exact memWf_ite (complete_memWf h) (complete_memWf ht)

theorem fwRun_memWf {n} (h : s.memWf) : (fwRun n s).memWf := by
  induction n generalizing s with
  | zero => exact h
  | succ n ih =>
    unfold fwRun
    split
    · exact h
    · split
      · exact ih h
      · exact memWf_ite h (ih (fwBegin_memWf (modFlight_memWf h)))

theorem fwPump_memWf (h : s.memWf) : (fwPump s).memWf := fwRun_memWf h

theorem fwStart_memWf {d} (h : s.memWf) : (fwStart d s).memWf := by
  unfold fwStart
  refine fwPump_memWf ?_
  extract_lets t
  have ht : t.memWf := addWaits_memWf h
  exact ht

theorem fwEnd_memWf {d st result} (h : s.memWf) : (fwEnd d st result s).memWf := fwPump_memWf (complete_memWf h)
theorem fwGot_memWf {d st bs} (h : s.memWf) : (fwGot d st bs s).memWf := memWf_ite (verifyLater_memWf h) (fwEnd_memWf h)

theorem fwVerified_memWf {d ok bs} (h : s.memWf) : (fwVerified d ok bs s).memWf :=
  memWf_ite (fwEnd_memWf h) (memWf_ite (fwEnd_memWf h) h)

theorem setBank_memWf {b bs lv} (h : s.memWf) : (setBank b bs lv s).memWf := by
  unfold setBank
  extract_lets _ t
  have ht : t.memWf := writeBoot_memWf h
  exact memWf_ite ht ht

theorem execFlashWriteDone_memWf {ok} (h : s.memWf) : OutMemWf (execFlashWriteDone ok s) := by
  unfold execFlashWriteDone
  split
  · exact memWf_ite (fwEnd_memWf (setBank_memWf h)) (fwEnd_memWf (setBank_memWf h))
  · split
    · split
      · exact h
      · exact h
    · exact h

theorem sendOffers_memWf (h : s.memWf) : (sendOffers s).memWf :=
  memWf_ite h (memWf_foldl (fun _ _ hs => modLink_memWf (sendCtl_memWf hs)) h)

theorem firstRun_memWf (h : s.memWf) : (firstRun s).memWf :=
  memWf_ite (memWf_ite (releaseWrites_memWf h) (verifyLater_memWf h)) (verifyLater_memWf (memWf_ite
    (releaseWrites_memWf h) (verifyLater_memWf h)))

theorem reportRollback_memWf (h : s.memWf) : (reportRollback s).memWf := by
  unfold reportRollback
  split
  · exact raiseEv_memWf h
  · exact h

theorem activateDone_memWf (h : s.memWf) : (activateDone s).memWf := by
  unfold activateDone
  split
  · exact fwEnd_memWf h
  · exact h

theorem imageRuns_memWf (h : s.memWf) : (imageRuns s).memWf :=
  fwPump_memWf (activateDone_memWf (sendOffers_memWf (evFlush_memWf (reportRollback_memWf (memWf_ite h
    (firstRun_memWf h))))))

theorem execAtticRestartDone_memWf {started} (h : s.memWf) : OutMemWf (execAtticRestartDone started s) := by
  unfold execAtticRestartDone
  split
  · exact h
  · split
    · exact imageRuns_memWf h
    · exact imageRuns_memWf (bootOther_memWf h)

theorem execLevelOffer_memWf {l level} (h : s.memWf) : OutMemWf (execLevelOffer l level s) := by
  unfold execLevelOffer
  split
  · exact h
  · split
    · exact h
    · exact modLink_memWf h

theorem applyOffers_memWf (h : s.memWf) : (applyOffers s).memWf := memWf_foldl (fun _ _ hs => modLink_memWf hs) h
theorem drainsEnd_memWf {st} (h : s.memWf) : (drainsEnd st s).memWf := memWf_foldl (fun _ _ hs => complete_memWf hs) h

theorem execDrainedPoint_memWf (h : s.memWf) : OutMemWf (execDrainedPoint s) := by
  unfold execDrainedPoint
  split
  · exact raiseEv_memWf (drainsEnd_memWf h)
  · exact h

theorem drainApply_memWf {d f} (h : s.memWf) : (drainApply d f s).memWf := memWf_ite h h

theorem activateApply_memWf {d b} (h : s.memWf) : (activateApply d b s).memWf :=
  memWf_frame (atticRestart_memWf (writeBoot_memWf h))

theorem adminApply_memWf {w} (h : s.memWf) : (adminApply w s).memWf := by
  unfold adminApply
  split
  · exact h
  · split
    · exact memWf_ite (fwEnd_memWf h) (activateApply_memWf h)
    · exact memWf_ite (complete_memWf h) (complete_memWf h)
    · exact drainApply_memWf h
    · exact complete_memWf (memWf_frame (drainsEnd_memWf h))
    · exact h

theorem atticBoundary_memWf (h : s.memWf) : (atticBoundary s).memWf := memWf_foldl (fun _ _ hs => adminApply_memWf hs) h

theorem pldmReading_memWf {id} (h : s.memWf) : PairMemWf (pldmReading id s) := by
  unfold pldmReading
  split
  · exact h
  · split
    next u hu =>
      have hu := memWf_of_eq (takeFree_memWf h) hu
      exact hu
  · exact h
  · exact h
  · exact h
  · exact h
  · split
    next u hu =>
      have hu := memWf_of_eq (takeFree_memWf h) hu
      exact hu

theorem execPldmRequest_memWf {r} (h : s.memWf) : OutMemWf (execPldmRequest r s) := by
  unfold execPldmRequest
  split
  · exact h
  · split
    · exact h
    · split
      next u hu =>
        have hu := memWf_of_eq (pldmReading_memWf h) hu
        exact hu

theorem pldmEvent_memWf (h : s.memWf) : (pldmEvent s).memWf := memWf_ite h h

end Machine
end Sys2Proof
end

section
/-!
PROOF. Every step keeps the memories in canonical form, part four: collectives, data movement and weight streams.
-/
namespace Sys2Proof
namespace Machine
set_option Elab.async false

variable {s t : State}

/-! ### Groups and the Hawk's room (chapters 12 and 13) -/

theorem sendRecord_memWf {o j index final st bytes} (h : s.memWf) : (sendRecord o j index final st bytes s).memWf := by
  unfold sendRecord
  split
  · exact h
  · exact sendTo_memWf h

theorem returnRoom_memWf {g x} (h : s.memWf) : (returnRoom g x s).memWf := memWf_ite (modGroup_memWf h) h

theorem returnEnding_memWf (h : s.memWf) : (returnEnding s).memWf :=
  memWf_foldl (fun _ _ hs => memWf_ite hs (memWf_foldl (fun _ _ hs => returnRoom_memWf hs) (modGroup_memWf hs))) h

theorem closeOp_memWf {g q o st} (h : s.memWf) : (closeOp g q o st s).memWf :=
  modGroup_memWf (bump_memWf (memWf_frame (memWf_ite (memWf_foldl (fun _ _ hs => returnRoom_memWf hs) h)
    (modGroup_memWf h))))

theorem failOp_memWf {g q st lost} (h : s.memWf) : (failOp g q st lost s).memWf := by
  unfold failOp
  split
  · exact h
  · exact closeOp_memWf (memWf_foldl (fun _ _ hs => sendRecord_memWf hs) h)

theorem finishOp_memWf {g q} (h : s.memWf) : (finishOp g q s).memWf := by
  unfold finishOp
  split
  · exact h
  · exact memWf_ite h (memWf_ite (closeOp_memWf (memWf_foldl (fun _ _ hs => sendRecord_memWf hs) h)) (setOp_memWf
    (memWf_foldl (fun _ _ hs => sendRecord_memWf hs) h)))

theorem writeRecord_memWf {g q j i} (h : s.memWf) : (writeRecord g q j i s).memWf := by
  unfold writeRecord
  split
  · exact h
  · exact memWf_ite h (setOp_memWf (sendRecord_memWf h))

theorem collDelivered_memWf {g q sq i out bytes} (h : s.memWf) : (collDelivered g q sq i out bytes s).memWf := by
  unfold collDelivered
  split
  · exact h
  · split
    · exact h
    · split
      · exact h
      · exact memWf_ite (finishOp_memWf (writeRecord_memWf (bump_memWf (setOp_memWf h)))) (bump_memWf (setOp_memWf h))

theorem giveRoom_memWf {g q tile need spill reserve} (h : s.memWf) : (giveRoom g q tile need spill reserve s).memWf := by
  unfold giveRoom
  extract_lets _ _ t t1
  have ht1 : t1.memWf := modOp_memWf h
  exact memWf_ite (modGroup_memWf (bump_memWf ht1)) (bump_memWf ht1)

theorem askRoom_memWf {g q o tile} (h : s.memWf) : (askRoom g q o tile s).memWf :=
  memWf_ite h (memWf_ite (giveRoom_memWf h) (bump_memWf h))

theorem grantWalk_memWf {rs b n kept} (h : s.memWf) : PairMemWf (grantWalk rs b n kept s) := by
  induction rs generalizing b n kept s with
  | nil => exact h
  | cons y ys ih =>
    unfold grantWalk
    split
    · exact h
    · split
      · exact ih (giveRoom_memWf h)
      · split
        · exact ih (giveRoom_memWf h)
        · exact ih (bump_memWf (bump_memWf h))

theorem hawkGrantStep_memWf (h : s.memWf) : (hawkGrantStep s).memWf := by
  unfold hawkGrantStep
  split
  · exact h
  · split
    · exact setPhase_memWf h
    · extract_lets
      split
      next u hu =>
        have hu := memWf_of_eq (grantWalk_memWf h) hu
        exact setPhase_memWf hu

theorem rebuildRoom_memWf (h : s.memWf) : (rebuildRoom s).memWf :=
  memWf_frame (memWf_foldl (fun _ _ hs => failOp_memWf hs) h)

theorem roomCheck_memWf {sub sum ref} (h : s.memWf) : (roomCheck sub sum ref s).memWf :=
  memWf_ite h (auditMismatch_memWf h)

theorem execGrainAudit_memWf (h : s.memWf) : OutMemWf (execGrainAudit s) := by
  unfold execGrainAudit
  split
  · exact h
  · exact memWf_ite h (rebuildRoom_memWf (roomCheck_memWf (roomCheck_memWf h)))

/-! ### Collectives (chapters 12 and 13) -/

theorem leaveInput_memWf {i p} (h : s.memWf) : (leaveInput i p s).memWf := by
  unfold leaveInput
  split
  · exact freeUnits_memWf (modIn_memWf h)
  · exact h

theorem standIn_memWf {i p} (h : s.memWf) : (standIn i p s).memWf := memWf_ite h (enqueue_memWf h)

theorem modEntry_memWf {i p f} (h : s.memWf) : (modEntry i p f s).memWf := by
  unfold modEntry
  split
  · exact modIn_memWf h
  · exact h

theorem holdIn_memWf {i p} (h : s.memWf) : (holdIn i p s).memWf := modEntry_memWf (standIn_memWf h)
theorem collDiscard_memWf {g i p} (h : s.memWf) : (collDiscard g i p s).memWf := bump_memWf (leaveInput_memWf h)
theorem settleTemplates_memWf {g} (h : s.memWf) : (settleTemplates g s).memWf := modGroup_memWf h
theorem startDiscarded_memWf {g p} (h : s.memWf) : (startDiscarded g p s).memWf := raiseEv_memWf (bump_memWf h)

theorem bindOp_memWf {g e p j x} (h : s.memWf) : (bindOp g e p j x s).memWf := by
  unfold bindOp
  extract_lets _ _ _ t
  have ht : t.memWf := bump_memWf (setOp_memWf (modGroup_memWf h))
  split
  · exact failOp_memWf ht
  · exact finishOp_memWf ht

theorem refuseStart_memWf {g e p j st} (h : s.memWf) : (refuseStart g e p j st s).memWf := by
  unfold refuseStart
  split
  · exact startDiscarded_memWf h
  · exact sendRecord_memWf h

theorem join_memWf {g j p o} (h : s.memWf) : (collStart.join g j p o s).memWf :=
  finishOp_memWf (modOp_memWf (memWf_ite (startDiscarded_memWf h) h))

theorem collStart_memWf {g e i j p} (h : s.memWf) : OptMemWf (collStart g e i j p s) := by
  unfold collStart
  extract_lets _ t
  have ht : t.memWf := settleTemplates_memWf h
  split
  · exact trivial
  · exact refuseStart_memWf (leaveInput_memWf h)
  · split
    · split
      · exact join_memWf (leaveInput_memWf h)
      · exact refuseStart_memWf (leaveInput_memWf h)
    · exact refuseStart_memWf (leaveInput_memWf h)
  · split
    · split
      · exact join_memWf (leaveInput_memWf h)
      · split
        · exact trivial
        · exact startDiscarded_memWf (leaveInput_memWf h)
    · split
      · exact startDiscarded_memWf (leaveInput_memWf h)
      · split
        · exact refuseStart_memWf (leaveInput_memWf h)
        · split
          · exact startDiscarded_memWf (leaveInput_memWf ht)
          · exact bindOp_memWf (leaveInput_memWf ht)

theorem takeStart_memWf {i p} (h : s.memWf) : (takeStart i p s).memWf := by
  unfold takeStart
  extract_lets _ _
  refine memWf_ite h (memWf_ite (holdIn_memWf h) ?_)
  split
  · exact collDiscard_memWf h
  · exact memWf_ite (refuseStart_memWf (leaveInput_memWf h)) (inject_memWf (countFail_memWf (leaveInput_memWf h)))
  · exact inject_memWf (countFail_memWf (leaveInput_memWf h))
  · exact collDiscard_memWf h
  · exact memWf_getD (collStart_memWf h) (holdIn_memWf h)

theorem execCollSlotBind_memWf {g slot} (h : s.memWf) : OutMemWf (execCollSlotBind g slot s) := by
  unfold execCollSlotBind
  extract_lets
  split
  · exact h
  · split
    · exact takeStart_memWf h
    · exact h

theorem withOp_memWf {i p op body} (hb : ∀ a o s, s.memWf → (body a o s).memWf) (h : s.memWf) :
    (withOp i p op s body).memWf := by
  unfold withOp
  extract_lets
  split
  · exact h
  · split
    · exact holdIn_memWf h
    · split
      · exact inject_memWf (countFail_memWf (leaveInput_memWf h))
      · exact collDiscard_memWf h
      · exact holdIn_memWf h
      · exact hb _ _ _ h

theorem toPeer_memWf {g q o op low last bs r} (h : s.memWf) : (toPeer g q o op low last bs s r).memWf := inject_memWf h

theorem toPeers_memWf {g q o op low last bs} (h : s.memWf) : (toPeers g q o op low last bs s).memWf :=
  memWf_foldl (fun _ _ hs => toPeer_memWf hs) h

theorem takeArrive_memWf {i p} (h : s.memWf) : (takeArrive i p s).memWf :=
  withOp_memWf (fun _ _ _ hs => memWf_ite (collDiscard_memWf hs) (finishOp_memWf (memWf_ite (toPeers_memWf
    (setOp_memWf (leaveInput_memWf hs))) (setOp_memWf (leaveInput_memWf hs))))) h

theorem sendLayout_memWf {o k} (h : s.memWf) : (sendLayout o s k).memWf := by
  unfold sendLayout
  extract_lets
  split
  · exact h
  · exact sendTo_memWf h

theorem layOut_memWf {g q o} (h : s.memWf) : (layOut g q o s).memWf :=
  finishOp_memWf (memWf_foldl (fun _ _ hs => memWf_foldl (fun _ _ hs => memWf_ite (writeRecord_memWf hs) hs) hs)
    (memWf_foldl (fun _ _ hs => sendLayout_memWf hs) (setOp_memWf h)))

theorem takeCounts_memWf {i p} (h : s.memWf) : (takeCounts i p s).memWf := by
  unfold takeCounts
  refine withOp_memWf (fun _ _ u hs => ?_) h
  extract_lets
  split
  · exact memWf_ite (collDiscard_memWf hs) (memWf_ite (setOp_memWf (leaveInput_memWf hs)) (memWf_ite (layOut_memWf
    (setOp_memWf (leaveInput_memWf hs))) (failOp_memWf (setOp_memWf (leaveInput_memWf hs)))))
  · exact collDiscard_memWf hs

theorem takeBlock_memWf {i j p o} (h : s.memWf) : (takeBlock i j p o s).memWf := by
  unfold takeBlock
  extract_lets _ _ _ _ _ t
  have ht : t.memWf := memWf_ite (bump_memWf h) h
  split
  · exact collDiscard_memWf h
  · split
    · exact collDiscard_memWf h
    · split
      · exact failOp_memWf (leaveInput_memWf h)
      · split
        · extract_lets t1
          have ht1 : t1.memWf := by
            unfold t1
            split
            · exact modIn_memWf ht
            · exact ht
          exact memWf_foldl (fun _ _ hs => enqueue_memWf hs) ht1

theorem modTile_memWf {g q tile f} (h : s.memWf) : (modTile g q tile f s).memWf := modOp_memWf h

theorem emitResult_memWf {g q tile k acc} (h : s.memWf) : (emitResult g q tile k acc s).memWf := by
  unfold emitResult
  split
  · exact h
  · extract_lets
    split
    · extract_lets
      split
      next u hu =>
        have hu := memWf_of_eq (freeBytes_memWf h) hu
        exact modTile_memWf (bump_memWf (setSlice_memWf hu))

theorem addCell_memWf {o g q stage2 tile c bs} (h : s.memWf) : (addCell o g q stage2 tile c bs s).memWf := by
  unfold addCell
  extract_lets _ t _ t1
  have ht : t.memWf := by
    unfold t
    split
    · exact bump_memWf h
    · exact h
  exact modTile_memWf ht

/-- A partial cell that enters the second stage, where its position is finished with fuel that keeps the memories. -/
theorem ownPartial_memWf_of_finishPos {g q tile fuel o c bs}
    (hf : ∀ {b c s}, s.memWf → (finishPos g q tile fuel b c s).memWf) (h : s.memWf) :
    (finishPos.ownPartial g q tile fuel o c bs s).memWf := by
  unfold finishPos.ownPartial
  split
  · exact h
  · exact memWf_ite (hf (addCell_memWf (modTile_memWf h))) (modTile_memWf (modTile_memWf h))
theorem finishPos_memWf {g q tile fuel b c} (h : s.memWf) : (finishPos g q tile fuel b c s).memWf := by
  induction fuel generalizing b c s with
  | zero =>
    unfold finishPos
    exact h
  | succ fuel ih =>
    unfold finishPos
    split
    · extract_lets p t several k bs at_ total u
      have ht : t.memWf := modTile_memWf h
      have hu : u.memWf := toPeers_memWf ht
      refine memWf_ite h (memWf_ite ?_ (memWf_ite ?_ (emitResult_memWf ht)))
      · split
        · exact ht
        · exact memWf_ite (emitResult_memWf ht) ht
      · exact memWf_foldl (fun _ _ hs => ownPartial_memWf_of_finishPos ih hs) hu
    · exact h

theorem keepCell_memWf {g q stage2 tile c idx bs} (h : s.memWf) : (keepCell g q stage2 tile c idx bs s).memWf := by
  unfold keepCell
  split
  · exact h
  · exact memWf_ite (bump_memWf (modTile_memWf h)) (bump_memWf (modTile_memWf h))

theorem slicesCell_memWf {g q stage2 tile c idx bs} (h : s.memWf) : (slicesCell g q stage2 tile c idx bs s).memWf := by
  unfold slicesCell
  split
  · exact memWf_ite (raiseEv_memWf (bump_memWf h)) (memWf_ite (finishPos_memWf (addCell_memWf (modTile_memWf
    (memWf_ite (bump_memWf h) h)))) (keepCell_memWf (modTile_memWf (memWf_ite (bump_memWf h) h))))
  · exact h

theorem takeTile_memWf {i w p o} (h : s.memWf) : (takeTile i w p o s).memWf := by
  unfold takeTile
  extract_lets _ _ _ _ t t1
  have ht : t.memWf := memWf_ite h (askRoom_memWf h)
  have ht1 : t1.memWf := modEntry_memWf (standIn_memWf ht)
  split
  · exact collDiscard_memWf h
  · split
    · exact memWf_ite (toPeers_memWf ht1) ht1
    · exact ht1

theorem takeContrib_memWf {i p} (h : s.memWf) : (takeContrib i p s).memWf := by
  unfold takeContrib
  refine withOp_memWf (fun _ _ u hs => ?_) h
  split
  · exact collDiscard_memWf hs
  · exact memWf_ite (takeBlock_memWf hs) (holdIn_memWf hs)
  · exact collDiscard_memWf hs
  · exact takeTile_memWf hs

theorem takeColl_memWf {i p} (h : s.memWf) : (takeColl i p s).memWf :=
  memWf_ite (memWf_ite (takeStart_memWf h) h) (memWf_ite (takeContrib_memWf h) (memWf_ite (takeArrive_memWf h)
    (memWf_ite (takeCounts_memWf h) h)))

theorem collRetry_memWf (h : s.memWf) : (collRetry s).memWf :=
  memWf_foldl (fun _ _ hs => memWf_foldl (fun _ _ hs => takeColl_memWf hs) hs) h

theorem hawkBad_memWf {g q} (h : s.memWf) : (hawkBad g q s).memWf := failOp_memWf (bump_memWf h)
theorem hawkReadBad_memWf {g q} (h : s.memWf) : (hawkReadBad g q s).memWf := raiseEv_memWf (hawkBad_memWf h)

theorem hawkCell_memWf {errs c} (h : s.memWf) : OptMemWf (hawkCell errs c s) := by
  unfold hawkCell
  split
  · exact h
  · extract_lets _ t
    have ht : t.memWf := bump_memWf h
    split
    · exact ht
    · split
      · exact ht
      · split
        · exact hawkBad_memWf h
        · split
          · split
            · exact raiseEv_memWf (bump_memWf h)
            · exact ht
          · extract_lets
            split
            · exact trivial
            · split
              · exact hawkReadBad_memWf h
              · split
                · exact trivial
                · exact slicesCell_memWf (bump_memWf h)

theorem landSlice_memWf {errs m} (h : s.memWf) : (landSlice errs s m).memWf := by
  unfold landSlice
  extract_lets
  split
  · exact h
  · refine memWf_foldl (fun u0 _ hs => ?_) (setSlice_memWf h)
    split
    next u hu =>
      have hu := memWf_of_some (hawkCell_memWf hs) hu
      exact hu
    · exact setSlice_memWf hs

theorem hawkLand_memWf {errs} (h : s.memWf) : (hawkLand errs s).memWf := memWf_foldl (fun _ _ hs => landSlice_memWf hs) h

theorem serveTurn_memWf {errs x} (h : s.memWf) : (serveTurn errs s x).memWf := by
  unfold serveTurn
  split
  · extract_lets
    split
    · exact h
    · split
      · exact hawkReadBad_memWf h
      · split
        · exact finishPos_memWf (addCell_memWf (modTile_memWf h))
        · exact memWf_ite h (finishPos_memWf (addCell_memWf (modTile_memWf (bump_memWf h))))
        · exact h
  · exact h

theorem hawkServe_memWf {errs} (h : s.memWf) : (hawkServe errs s).memWf :=
  memWf_foldl (fun _ _ hs => serveTurn_memWf hs) h

theorem returnAt_memWf {g q tile stage2 x} (h : s.memWf) : (returnAt g q tile stage2 s x).memWf := by
  unfold returnAt
  split
  · exact memWf_ite h (bump_memWf (modTile_memWf h))
  · exact h

theorem hawkReturn_memWf (h : s.memWf) : (hawkReturn s).memWf :=
  memWf_foldl (fun _ _ hs => memWf_foldl (fun _ _ hs => returnAt_memWf hs) (memWf_foldl
    (fun _ _ hs => returnAt_memWf hs) hs)) h

theorem releaseTile_memWf {g q tile} (h : s.memWf) : (releaseTile g q tile s).memWf := by
  unfold releaseTile
  split
  · exact h
  · exact bump_memWf (returnRoom_memWf (modOp_memWf h))

theorem hawkRelease_memWf (h : s.memWf) : (hawkRelease s).memWf := by
  unfold hawkRelease
  refine memWf_foldl (fun u0 _ hs0 => ?_) h
  extract_lets
  split
  · exact hs0
  · refine memWf_foldl (fun u1 _ hs1 => ?_) hs0
    split
    · exact memWf_foldl (fun _ _ hs => releaseTile_memWf hs) hs1
    · exact hs1

theorem resultBad_memWf {c} (h : s.memWf) : (resultBad c s).memWf := by
  unfold resultBad
  split
  · split
    · exact memWf_ite (failOp_memWf h) h
    · exact h
  · exact h

theorem execCollOpLimitExpired_memWf {g slot} (h : s.memWf) : OutMemWf (execCollOpLimitExpired g slot s) := by
  unfold execCollOpLimitExpired
  split
  · exact memWf_ite (failOp_memWf h) h
  · exact h

theorem collLossGroup_memWf {g} (h : s.memWf) : (collLossGroup g s).memWf := by
  unfold collLossGroup
  extract_lets _ t
  have ht : t.memWf := by
    unfold t
    refine memWf_foldl (fun u _ hs => ?_) h
    split
    · exact failOp_memWf hs
    · exact hs
  exact memWf_ite h (memWf_ite h (modGroup_memWf ht))

theorem collLosses_memWf (h : s.memWf) : (collLosses s).memWf := memWf_foldl (fun _ _ hs => collLossGroup_memWf hs) h

theorem withGroup_memWf {d f gen body} (hb : ∀ a s, s.memWf → (body a s).memWf) (h : s.memWf) :
    (withGroup d f gen s body).memWf := by
  unfold withGroup
  split
  · exact complete_memWf h
  · exact memWf_ite (complete_memWf (modFlight_memWf h)) (memWf_ite (complete_memWf (modFlight_memWf h)) (hb _ _
    (modFlight_memWf h)))

theorem templateSet_memWf {d f} (h : s.memWf) : (templateSet d f s).memWf :=
  withGroup_memWf (fun _ _ hs => memWf_ite (complete_memWf hs) (memWf_ite (complete_memWf (modGroup_memWf hs))
    (hostRead_memWf (modFlight_memWf hs)))) h

theorem templateGot_memWf {d st bs} (h : s.memWf) : (templateGot d st bs s).memWf := by
  unfold templateGot
  split
  · exact h
  · split
    · exact h
    · exact memWf_ite (complete_memWf h) (memWf_ite (complete_memWf h) (complete_memWf (modGroup_memWf h)))

/-! ### Data movement (chapter 11) -/

theorem dmFail_memWf {d st a} (h : s.memWf) : (dmFail d st a s).memWf := by
  unfold dmFail
  split
  · exact complete_memWf h
  · exact h

theorem dmSend_memWf {d f op a len bs} (h : s.memWf) : (dmSend d f op a len bs s).memWf := by
  unfold dmSend
  extract_lets
  split
  next u hu =>
    have hu := memWf_of_some (sendItem_memWf h) hu
    exact modFlight_memWf hu
  · exact dmFail_memWf h

theorem dmStep_memWf {d n bytes} (h : s.memWf) : (dmStep d n bytes s).memWf := by
  induction n generalizing bytes s with
  | zero => exact h
  | succ n ih =>
    unfold dmStep
    split
    · exact h
    · extract_lets
      split
      · split
        · exact complete_memWf h
        · split
          · exact ih h
          · split
            · exact hostRead_memWf (modFlight_memWf h)
            · split
              · split
                · exact dmFail_memWf h
                · extract_lets t
                  have ht : t.memWf := countPlace_memWf h
                  split
                  · exact ih ht
                  · exact dmFail_memWf (foundBad_memWf ht)
              · exact dmSend_memWf h
      · split
        · exact ih (modFlight_memWf (modFlight_memWf h))
        · split
          · exact ih (modFlight_memWf (hostPut_memWf h))
          · split
            · split
              · exact dmFail_memWf h
              · split
                next u _ hu =>
                  have hu := memWf_of_eq_fst (placeWrite_memWf _ _ _ (countPlace_memWf h)) hu
                  exact memWf_ite (ih (modFlight_memWf hu)) (dmFail_memWf hu)
            · exact dmSend_memWf h

theorem dmGot_memWf {d bs} (h : s.memWf) : (dmGot d bs s).memWf := dmStep_memWf h

theorem dmAcked_memWf {d} (h : s.memWf) : (dmAcked d s).memWf := by
  unfold dmAcked
  split
  · exact dmStep_memWf (modFlight_memWf h)
  · exact h

theorem dmStart_memWf {d f} (h : s.memWf) : (dmStart d f s).memWf :=
  memWf_ite (complete_memWf h) (dmStep_memWf (modFlight_memWf h))

theorem dmAtomic_memWf {d f} (h : s.memWf) : (dmAtomic d f s).memWf := by
  unfold dmAtomic
  extract_lets
  split
  · exact complete_memWf h
  · split
    · split
      · exact complete_memWf h
      · split
        · exact complete_memWf h
        · split
          · split
            next u hu =>
              have hu := memWf_of_eq (placeAtomic_memWf (countPlace_memWf h)) hu
              exact complete_memWf hu
            next u hu =>
              have hu := memWf_of_eq (placeAtomic_memWf (countPlace_memWf h)) hu
              exact complete_memWf (foundBad_memWf hu)
    · exact dmSend_memWf h

theorem dmEnd_memWf {d o st bytes} (h : s.memWf) : (dmEnd d o st bytes s).memWf := by
  unfold dmEnd
  split
  · exact h
  · exact memWf_ite (complete_memWf h) (memWf_ite (dmFail_memWf h) (memWf_ite (dmGot_memWf h) (dmAcked_memWf h)))

/-! ### Weight streams (chapter 14) -/

theorem modStream_memWf {k f} (h : s.memWf) : (modStream k f s).memWf := h
theorem modRun_memWf {k pass seg f} (h : s.memWf) : (modRun k pass seg f s).memWf := modStream_memWf h

theorem sendCounter_memWf {k r x st} (h : s.memWf) : (sendCounter k r x st s).memWf := by
  unfold sendCounter
  split
  · exact memWf_ite h (sendTo_memWf h)
  · exact h

theorem endShare_memWf {k pass seg o st} (h : s.memWf) : (endShare k pass seg o st s).memWf := by
  unfold endShare
  split
  · exact h
  · split
    · exact h
    · exact bump_memWf (sendCounter_memWf (modRun_memWf h))

theorem writeSegRecord_memWf {k pass seg st repaired map} (h : s.memWf) :
    (writeSegRecord k pass seg st repaired map s).memWf :=
  hostPut_memWf h

theorem recordSeg_memWf {k pass seg st} (h : s.memWf) : (recordSeg k pass seg st s).memWf := by
  unfold recordSeg
  extract_lets t t1
  have ht : t.memWf := modStream_memWf h
  have ht1 : t1.memWf := modStream_memWf ht
  split
  · exact ht
  · split
    · exact ht
    · split
      · exact complete_memWf ht1
      · exact ht1

theorem landAudit_memWf {k} (h : s.memWf) : (landAudit k s).memWf :=
  memWf_foldl (fun _ _ hs => memWf_ite hs (modStream_memWf (auditMismatch_memWf hs))) h

theorem settleSeg_memWf {k pass seg} (h : s.memWf) : (settleSeg k pass seg s).memWf := by
  unfold settleSeg
  split
  · exact h
  · exact memWf_ite h (landAudit_memWf (recordSeg_memWf (modStream_memWf (writeSegRecord_memWf h))))

theorem endAll_memWf {k pass seg st} (h : s.memWf) : (endAll k pass seg st s).memWf := by
  unfold endAll
  split
  · exact h
  · exact settleSeg_memWf (memWf_foldl (fun _ _ hs => endShare_memWf hs) h)

theorem closeSeg_memWf {k pass seg} (h : s.memWf) : (closeSeg k pass seg s).memWf := by
  unfold closeSeg
  split
  · exact h
  · exact memWf_ite (settleSeg_memWf h) (settleSeg_memWf (memWf_foldl (fun _ _ hs => endShare_memWf hs) (modRun_memWf h)))

theorem chunkDelivered_memWf {k pass seg c o} (h : s.memWf) : (chunkDelivered k pass seg c o s).memWf := by
  unfold chunkDelivered
  split
  · exact h
  · split
    · exact h
    · exact memWf_ite h (closeSeg_memWf (memWf_ite (endShare_memWf (bump_memWf (modRun_memWf h))) (bump_memWf
      (modRun_memWf h))))

theorem chunkFailed_memWf {k pass seg c o st} (h : s.memWf) : (chunkFailed k pass seg c o st s).memWf := by
  unfold chunkFailed
  split
  · exact h
  · split
    · exact h
    · exact memWf_ite (closeSeg_memWf (endShare_memWf h)) (memWf_ite h (closeSeg_memWf (modRun_memWf h)))

theorem streamLosses_memWf (h : s.memWf) : (streamLosses s).memWf := by
  unfold streamLosses
  extract_lets
  refine memWf_foldl (fun u _ hs => ?_) h
  split
  · exact chunkFailed_memWf hs
  · exact hs

theorem streamLinkLost_memWf {o} (h : s.memWf) : (streamLinkLost o s).memWf :=
  memWf_foldl (fun _ _ hs => memWf_foldl (fun _ _ hs => memWf_ite (closeSeg_memWf (endShare_memWf hs)) hs) hs) h

theorem countX_memWf {k c} (h : s.memWf) : (countX k c s).memWf := bump_memWf (bump_memWf (bump_memWf h))

theorem landingCredit_memWf {l p} (h : s.memWf) : (landingCredit l p s).memWf := by
  unfold landingCredit
  extract_lets _ _ _ t
  have ht : t.memWf := leaveInput_memWf h
  split
  · exact h
  · split
    · exact standIn_memWf h
    · split
      · exact raiseEv_memWf (bump_memWf ht)
      · exact bump_memWf (modStream_memWf ht)

theorem withStream_memWf {d f gen ten body} (hb : ∀ a s, s.memWf → (body a s).memWf) (h : s.memWf) :
    (withStream d f gen ten s body).memWf := by
  unfold withStream
  split
  · exact complete_memWf h
  · exact memWf_ite (complete_memWf (modFlight_memWf h)) (memWf_ite (complete_memWf (modFlight_memWf h)) (hb _ _
    (modFlight_memWf h)))

theorem streamProgram_memWf {d f} (h : s.memWf) : (streamProgram d f s).memWf :=
  withStream_memWf (fun _ _ hs => memWf_ite (complete_memWf hs) (memWf_ite (complete_memWf hs) (hostRead_memWf
    (modFlight_memWf hs)))) h

theorem programGot_memWf {d st bs} (h : s.memWf) : (programGot d st bs s).memWf := by
  unfold programGot
  split
  · exact h
  · split
    · exact h
    · exact memWf_ite (complete_memWf h) (memWf_ite (complete_memWf h) (memWf_ite (complete_memWf h) (complete_memWf
      (modStream_memWf (bindPage_memWf h)))))

theorem streamStart_memWf {d f} (h : s.memWf) : (streamStart d f s).memWf := by
  unfold streamStart
  refine withStream_memWf (fun _ u hs => ?_) h
  split
  · exact complete_memWf hs
  · split
    · exact complete_memWf hs
    · exact complete_memWf hs
    · exact modStream_memWf (modFlight_memWf hs)

theorem passStart_memWf {k} (h : s.memWf) : (passStart k s).memWf := by
  unfold passStart
  extract_lets
  split
  · exact h
  · split
    · exact memWf_ite h (memWf_ite (bump_memWf (bump_memWf (modStream_memWf h))) (bump_memWf (modStream_memWf h)))
    · split
      · exact memWf_ite (memWf_ite (bump_memWf (bump_memWf (modStream_memWf (modStream_memWf h)))) (bump_memWf
        (modStream_memWf (modStream_memWf h)))) h
      · exact h

theorem startSeg_memWf {k p g} (h : s.memWf) : (startSeg k p g s).memWf :=
  settleSeg_memWf (memWf_foldl (fun _ _ hs => endShare_memWf hs) (bump_memWf (bump_memWf (modStream_memWf h))))

theorem skipSeg_memWf {k pass seg st} (h : s.memWf) : (skipSeg k pass seg st s).memWf :=
  recordSeg_memWf (writeSegRecord_memWf (modStream_memWf h))

theorem segmentStart_memWf {k} (h : s.memWf) : (segmentStart k s).memWf := by
  unfold segmentStart
  extract_lets
  split
  · exact h
  · exact memWf_ite h (memWf_ite (skipSeg_memWf h) (memWf_ite (startSeg_memWf h) h))

theorem sendChunk_memWf {k g r c dest port bs} (h : s.memWf) : (sendChunk k g r c dest port bs s).memWf := by
  unfold sendChunk
  extract_lets
  split
  · exact enqueue_memWf h
  · exact enqueue_memWf h

theorem chunkTaken_memWf {k r c len dest} (h : s.memWf) : (chunkTaken k r c len dest s).memWf :=
  memWf_ite (bump_memWf (bump_memWf (bump_memWf (modRun_memWf (modStream_memWf h))))) (bump_memWf (bump_memWf
    (modRun_memWf (modStream_memWf h))))

theorem chunkRead_memWf {k} (h : s.memWf) : (chunkRead k s).memWf := by
  unfold chunkRead
  extract_lets
  split
  · exact h
  · extract_lets
    split
    · exact h
    · split
      · exact endAll_memWf h
      · extract_lets t
        have ht : t.memWf := translateAll_memWf (countPlace_memWf h)
        split
        · exact endAll_memWf (foundBad_memWf (chunkTaken_memWf ht))
        · exact sendChunk_memWf (chunkTaken_memWf ht)

theorem execStreamDeadline_memWf {k seg} (h : s.memWf) : OutMemWf (execStreamDeadline k seg s) := by
  unfold execStreamDeadline
  split
  · exact memWf_ite (endAll_memWf h) h
  · exact h

theorem execStreamRecordTimeout_memWf {k seg} (h : s.memWf) : OutMemWf (execStreamRecordTimeout k seg s) := by
  unfold execStreamRecordTimeout
  split
  · exact memWf_ite (closeSeg_memWf (modRun_memWf h)) h
  · exact h

theorem execStreamRepairStart_memWf {k seg} (h : s.memWf) : OutMemWf (execStreamRepairStart k seg s) := by
  unfold execStreamRepairStart
  split
  · exact memWf_ite h (settleSeg_memWf (modRun_memWf (memWf_ite (memWf_foldl (fun _ _ hs => endShare_memWf hs)
    (memWf_foldl (fun _ _ hs => endShare_memWf hs) h)) (memWf_foldl (fun _ _ hs => endShare_memWf hs) h))))
  · exact h

theorem streamFresh_memWf {k} (h : s.memWf) : (streamFresh k s).memWf := modStream_memWf h
theorem streamOn_memWf {k} (h : s.memWf) : (streamOn k s).memWf := modStream_memWf h

theorem streamStop_memWf {st k} (h : s.memWf) : (streamStop st k s).memWf :=
  memWf_foldl (fun _ _ hs => memWf_foldl (fun _ _ hs => skipSeg_memWf hs) hs) (memWf_foldl
    (fun _ _ hs => complete_memWf hs) (modStream_memWf h))

theorem streamRelease_memWf {k} (h : s.memWf) : (streamRelease k s).memWf := bump_memWf (modStream_memWf h)
theorem refillStreams_memWf (h : s.memWf) : (refillStreams s).memWf := h

end Machine
end Sys2Proof
end

section
/-!
PROOF. Every step keeps the memories in canonical form, part five: the tick's election, threads, instructions and kernels.
-/
namespace Sys2Proof
namespace Machine
set_option Elab.async false

variable {s t : State}

/-! ### The tick (chapter 02) -/

theorem setHeard_memWf {l y} (h : s.memWf) : (setHeard l y s).memWf := h
theorem becomeMaster_memWf {m} (h : s.memWf) : (becomeMaster m s).memWf := h
theorem followMaster_memWf {m l hops} (h : s.memWf) : (followMaster m l hops s).memWf := h
theorem runFree_memWf (h : s.memWf) : (runFree s).memWf := h

theorem follow_memWf {m} (h : s.memWf) : (follow m s).memWf := by
  unfold follow
  split
  · exact followMaster_memWf h
  · exact followMaster_memWf h
  · exact h

theorem elect_memWf (h : s.memWf) : (elect s).memWf := by
  unfold elect
  split
  · exact h
  · split
    · exact memWf_ite (follow_memWf h) (memWf_ite h (becomeMaster_memWf h))
    · exact memWf_ite h (becomeMaster_memWf h)
    · exact follow_memWf h
    · exact runFree_memWf h

theorem execAnnounceReceive_memWf {l a} (h : s.memWf) : OutMemWf (execAnnounceReceive l a s) := by
  unfold execAnnounceReceive
  split
  · exact h
  · exact memWf_ite (memWf_frame (elect_memWf (setHeard_memWf h))) (elect_memWf (setHeard_memWf h))

theorem applyError_memWf {err} (h : s.memWf) : (applyError err s).memWf := h
theorem stampMark_memWf {l m rx} (h : s.memWf) : (stampMark l m rx s).memWf := setHeard_memWf h

theorem execTickMarkerReceive_memWf {l m rx} (h : s.memWf) : OutMemWf (execTickMarkerReceive l m rx s) := by
  unfold execTickMarkerReceive
  extract_lets t
  have ht : t.memWf := stampMark_memWf h
  split
  · split
    · exact applyError_memWf ht
    · exact ht
  · exact ht

theorem execMasterAnnounceTimeout_memWf (h : s.memWf) : OutMemWf (execMasterAnnounceTimeout s) := by
  unfold execMasterAnnounceTimeout
  split
  · split
    · exact elect_memWf (runFree_memWf h)
    · exact h
  · exact h

theorem enterHoldover_memWf (h : s.memWf) : (enterHoldover s).memWf := memWf_ite h h

theorem execTickLoss_memWf (h : s.memWf) : OutMemWf (execTickLoss s) := by
  unfold execTickLoss
  split
  · exact raiseEv_memWf (bumpModule_memWf h)
  · exact h

theorem execTickStep_memWf (h : s.memWf) : OutMemWf (execTickStep s) := by
  unfold execTickStep
  split
  · exact h
  · split
    · extract_lets
      split
      · exact h
      · exact h
    · exact h

theorem execTickInMissed_memWf (h : s.memWf) : OutMemWf (execTickInMissed s) := by
  unfold execTickInMissed
  split
  · exact memWf_ite (enterHoldover_memWf h) h
  · exact h

theorem execStartupMastership_memWf (h : s.memWf) : OutMemWf (execStartupMastership s) := by
  unfold execStartupMastership
  split
  · split
    · exact elect_memWf h
    · exact h
  · exact h

theorem tickLinkLost_memWf {l} (h : s.memWf) : (tickLinkLost l s).memWf := by
  unfold tickLinkLost
  extract_lets t
  have ht : t.memWf := setHeard_memWf h
  split
  · exact ht
  · split
    · split
      · exact followMaster_memWf ht
      · exact enterHoldover_memWf ht
    · exact ht

theorem upstreamStep_memWf (h : s.memWf) : (upstreamStep s).memWf := by
  unfold upstreamStep
  split
  · split
    · split
      · exact h
      · split
        · exact followMaster_memWf h
        · exact enterHoldover_memWf h
    · split
      · exact h
      · split
        · exact followMaster_memWf h
        · exact enterHoldover_memWf h
  · exact h

theorem sendMark_memWf {l} (h : s.memWf) : (sendMark s l).memWf := by
  unfold sendMark
  split
  next u hu =>
    have hu := memWf_of_eq (takeFree_memWf h) hu
    extract_lets _ t1 t2
    have ht2 : t2.memWf := modLink_memWf hu
    split
    · split
      next v hv =>
        have hv := memWf_of_eq (takeFree_memWf ht2) hv
        exact hv
    · exact ht2

theorem sendMarkers_memWf (h : s.memWf) : (sendMarkers s).memWf := memWf_foldl (fun _ _ hs => sendMark_memWf hs) h

theorem advanceTick_memWf (h : s.memWf) : (advanceTick s).memWf := by
  unfold advanceTick
  extract_lets _ t
  split
  · exact h
  · exact raiseEv_memWf (bumpModule_memWf h)

/-! ### Threads (chapter 15) -/

theorem setThr_memWf {x v} (h : s.memWf) : (setThr x v s).memWf := h
theorem modThr_memWf {x f} (h : s.memWf) : (modThr x f s).memWf := setThr_memWf h
theorem setKernel_memWf {k v} (h : s.memWf) : (setKernel k v s).memWf := h
theorem modKernel_memWf {k f} (h : s.memWf) : (modKernel k f s).memWf := setKernel_memWf h
theorem modWorkRun_memWf {k n f} (h : s.memWf) : (modWorkRun k n f s).memWf := modKernel_memWf h
theorem doneFailed_memWf {k run gen st} (h : s.memWf) : (doneFailed k run gen st s).memWf := raiseEv_memWf h

theorem reportRun_memWf {k v r partialBytes} (h : s.memWf) : (reportRun k v r partialBytes s).memWf := by
  unfold reportRun
  extract_lets t
  have ht : t.memWf := bump_memWf h
  split
  · exact complete_memWf (modFlight_memWf ht)
  · split
    · exact ht
    · extract_lets
      split
      next u hu =>
        have hu := memWf_of_some (sendItem_memWf ht) hu
        exact hu
      · exact doneFailed_memWf ht
  · exact memWf_ite (inject_memWf ht) (sendFail_memWf ht)

theorem freeThreads_memWf {k n} (h : s.memWf) : (freeThreads k n s).memWf := h

theorem endRun_memWf {k r partialBytes} (h : s.memWf) : (endRun k r partialBytes s).memWf :=
  reportRun_memWf (modKernel_memWf (freeThreads_memWf h))

theorem settleRun_memWf {k n} (h : s.memWf) : (settleRun k n s).memWf := by
  unfold settleRun
  split
  · exact h
  · exact memWf_ite (endRun_memWf h) h

theorem settleBar_memWf {k n} (h : s.memWf) : (settleBar k n s).memWf :=
  memWf_foldl (fun _ _ hs => memWf_ite (modThr_memWf hs) hs) h

theorem faultWith_memWf {x cause st where_} (h : s.memWf) : (faultWith x cause st where_ s).memWf := by
  unfold faultWith
  extract_lets _ t
  have ht : t.memWf := modWorkRun_memWf h
  split
  · exact h
  · exact memWf_ite (settleRun_memWf h) (settleRun_memWf (raiseEv_memWf ht))

theorem fault_memWf {x cause where_} (h : s.memWf) : (fault x cause where_ s).memWf := faultWith_memWf h

theorem issue_memWf {x cls op body} (hb : ∀ v i y s, s.memWf → OptMemWf (body v i y s)) (h : s.memWf) :
    (issue x cls op body s).memWf := by
  unfold issue
  extract_lets _ _
  refine memWf_ite h ?_
  split
  · exact memWf_ite (fault_memWf (raiseEv_memWf h)) (fault_memWf h)
  · extract_lets
    split
    · exact fault_memWf h
    · refine memWf_ite h (memWf_ite (fault_memWf h) (memWf_ite h ?_))
      split
      · exact h
      next hq => exact bump_memWf (memWf_of_some (hb _ _ _ _ h) hq)

theorem onThread_memWf {x cls op f} (h : s.memWf) : OutMemWf (onThread x cls op f s) :=
  issue_memWf (fun _ _ _ _ hs => setThr_memWf hs) h

theorem accCount_memWf {x wr tenant a p} (h : s.memWf) : (accCount x wr tenant a p s).memWf :=
  translateAll_memWf (bump_memWf (countPlace_memWf h))

theorem accRead_memWf {x tenant a n} (h : s.memWf) : PairMemWf (accRead x tenant a n s) := by
  unfold accRead
  split
  · exact h
  · extract_lets t
    have ht : t.memWf := accCount_memWf h
    split
    · exact ht
    · exact foundBad_memWf ht

theorem accWrite_memWf {x tenant a bs} (h : s.memWf) : PairMemWf (accWrite x tenant a bs s) := by
  unfold accWrite
  split
  · exact h
  · split
    next u hu =>
      have hu := memWf_of_eq_fst (placeWrite_memWf _ _ _ (accCount_memWf h)) hu
      exact hu
    next u hu =>
      have hu := memWf_of_eq_fst (placeWrite_memWf _ _ _ (accCount_memWf h)) hu
      exact foundBad_memWf hu

theorem countItem_memWf {x} (h : s.memWf) : (countItem x s).memWf := bump_memWf h

theorem thrSend_memWf {x base len payload acc f} (h : s.memWf) : OptMemWf (thrSend x base len payload acc f s) := by
  unfold thrSend
  split
  · extract_lets
    split
    next u hu =>
      have hu := memWf_of_some (sendItem_memWf h) hu
      exact countItem_memWf (modThr_memWf hu)
    · exact trivial
  · exact trivial

/-! ### Synchronisation and control (chapter 16) -/

theorem execFence_memWf {x} (h : s.memWf) : OutMemWf (execFence x s) := by
  unfold execFence
  refine issue_memWf (fun _ _ _ u hs => ?_) h
  split
  · exact setThr_memWf hs
  · exact trivial

theorem execBar_memWf {x} (h : s.memWf) : OutMemWf (execBar x s) := by
  unfold execBar
  refine issue_memWf (fun _ _ _ u hs => ?_) h
  split
  · exact settleBar_memWf (setThr_memWf hs)
  · exact trivial

theorem launchFrom_memWf {x v i y} (h : s.memWf) : OptMemWf (launchFrom x v i y s) := by
  unfold launchFrom
  extract_lets
  split
  · exact fault_memWf h
  · split
    · split
      · exact fault_memWf h
      · split
        next u hu =>
          have hu := memWf_of_eq (accRead_memWf h) hu
          exact fault_memWf hu
        next u hu =>
          have hu := memWf_of_eq (accRead_memWf h) hu
          extract_lets
          split
          · exact setThr_memWf hu
          · split
            next v hv =>
              have hv := memWf_of_eq (accRead_memWf hu) hv
              exact fault_memWf hv
            next v hv =>
              have hv := memWf_of_eq (accRead_memWf hu) hv
              split
              · split
                next w hw =>
                  have hw := memWf_of_some (sendItem_memWf hv) hw
                  exact countItem_memWf (modThr_memWf hw)
                · exact trivial
              · exact trivial
    · exact fault_memWf h

theorem control_memWf {x op f} (h : s.memWf) : OutMemWf (control x op f s) :=
  issue_memWf (fun _ _ _ _ hs => setThr_memWf hs) h

/-! ### Instructions that reach memory (chapter 16) -/

theorem scalarLoad_memWf {sgn x v i y} (h : s.memWf) : OptMemWf (scalarLoad sgn x v i y s) := by
  unfold scalarLoad
  extract_lets
  split
  · exact fault_memWf h
  · split
    · exact thrSend_memWf h
    · exact thrSend_memWf h
    · split
      next u hu =>
        have hu := memWf_of_eq (accRead_memWf h) hu
        exact setThr_memWf hu
      next u hu =>
        have hu := memWf_of_eq (accRead_memWf h) hu
        exact fault_memWf hu

theorem scalarStore_memWf {x v i y} (h : s.memWf) : OptMemWf (scalarStore x v i y s) := by
  unfold scalarStore
  extract_lets
  split
  · exact fault_memWf h
  · split
    · exact thrSend_memWf h
    · exact thrSend_memWf h
    · split
      next u hu =>
        have hu := memWf_of_eq (accWrite_memWf h) hu
        exact setThr_memWf hu
      next u hu =>
        have hu := memWf_of_eq (accWrite_memWf h) hu
        exact fault_memWf hu

theorem readRuns_memWf {x tenant base rs} (h : s.memWf) : PairMemWf (readRuns x tenant base rs s) := by
  induction rs generalizing s with
  | nil => exact h
  | cons y ys ih =>
    unfold readRuns
    extract_lets
    split
    next u hu =>
      have hu := memWf_of_eq (accRead_memWf h) hu
      exact hu
    next u hu =>
      have hu := memWf_of_eq (accRead_memWf h) hu
      split
      next v hv =>
        have hv := memWf_of_eq (ih hu) hv
        exact hv
      next v hv =>
        have hv := memWf_of_eq (ih hu) hv
        exact hv

theorem writeRunsAt_memWf {x tenant base rs} (h : s.memWf) : PairMemWf (writeRunsAt x tenant base rs s) := by
  induction rs generalizing s with
  | nil => exact h
  | cons r rs ih =>
    unfold writeRunsAt
    extract_lets a old
    have hold : PairMemWf old := by
      unfold old
      split
      · exact h
      · split
        · exact h
        · split
          · exact h
          · exact foundBad_memWf h
    clear_value old
    split
    · exact hold
    next u =>
      have hu : u.memWf := hold
      split
      next v hv => exact memWf_of_eq (accWrite_memWf hu) hv
      next v hv => exact ih (memWf_of_eq (accWrite_memWf hu) hv)

theorem vectorLoad_memWf {x v i y} (h : s.memWf) : OptMemWf (vectorLoad x v i y s) := by
  unfold vectorLoad
  extract_lets
  split
  · exact setThr_memWf h
  · extract_lets
    split
    · exact fault_memWf h
    · split
      · exact fault_memWf h
      · split
        · exact thrSend_memWf h
        · exact thrSend_memWf h
        · split
          next u hu =>
            have hu := memWf_of_eq (readRuns_memWf h) hu
            exact fault_memWf hu
          next u hu =>
            have hu := memWf_of_eq (readRuns_memWf h) hu
            exact setThr_memWf hu

theorem sendRuns_memWf {x tenant base lo runs} (h : s.memWf) : OptMemWf (sendRuns x tenant base lo runs s) := by
  unfold sendRuns
  extract_lets
  split
  · exact trivial
  · exact memWf_foldl (fun _ _ hs => injectOwn_memWf hs) h

theorem vectorStore_memWf {x v i y} (h : s.memWf) : OptMemWf (vectorStore x v i y s) := by
  unfold vectorStore
  extract_lets
  split
  · exact setThr_memWf h
  · extract_lets
    split
    · exact fault_memWf h
    · split
      · exact fault_memWf h
      · split
        · split
          · split
            next u hu =>
              have hu := memWf_of_eq (takeFree_memWf h) hu
              extract_lets
              split
              next v hv =>
                have hv := memWf_of_some (sendRuns_memWf hu) hv
                exact countItem_memWf (setThr_memWf hv)
              · exact trivial
          · exact trivial
        · split
          · split
            next u hu =>
              have hu := memWf_of_eq (takeFree_memWf h) hu
              extract_lets
              split
              next v hv =>
                have hv := memWf_of_some (sendRuns_memWf hu) hv
                exact countItem_memWf (setThr_memWf hv)
              · exact trivial
          · exact trivial
        · split
          next u hu =>
            have hu := memWf_of_eq (writeRunsAt_memWf h) hu
            exact setThr_memWf hu
          next u hu =>
            have hu := memWf_of_eq (writeRunsAt_memWf h) hu
            exact fault_memWf hu

theorem readLanes_memWf {x v c ls} (h : s.memWf) : PairMemWf (readLanes x v c ls s) := by
  induction ls generalizing s with
  | nil => exact h
  | cons y ys ih =>
    unfold readLanes
    split
    · exact h
    · split
      next u hu =>
        have hu := memWf_of_eq (accRead_memWf h) hu
        exact hu
      next u hu =>
        have hu := memWf_of_eq (accRead_memWf h) hu
        split
        next v hv =>
          have hv := memWf_of_eq (ih hu) hv
          exact hv
        next v hv =>
          have hv := memWf_of_eq (ih hu) hv
          exact hv

theorem writeLanes_memWf {x v c f ls} (h : s.memWf) : PairMemWf (writeLanes x v c f ls s) := by
  induction ls generalizing s with
  | nil => exact h
  | cons y ys ih =>
    unfold writeLanes
    split
    · exact h
    · split
      next u hu =>
        have hu := memWf_of_eq (accWrite_memWf h) hu
        exact hu
      next u hu =>
        have hu := memWf_of_eq (accWrite_memWf h) hu
        exact ih hu

theorem lanesLoad_memWf {f x v i y} (h : s.memWf) : OptMemWf (lanesLoad f x v i y s) := by
  unfold lanesLoad
  extract_lets
  split
  · exact trivial
  · split
    next u hu =>
      have hu := memWf_of_eq (readLanes_memWf h) hu
      exact fault_memWf hu
    next u hu =>
      have hu := memWf_of_eq (readLanes_memWf h) hu
      exact setThr_memWf hu

theorem lanesStore_memWf {f x v i y} (h : s.memWf) : OptMemWf (lanesStore f x v i y s) := by
  unfold lanesStore
  extract_lets
  split
  · exact trivial
  · split
    next u hu =>
      have hu := memWf_of_eq (writeLanes_memWf h) hu
      exact fault_memWf hu
    next u hu =>
      have hu := memWf_of_eq (writeLanes_memWf h) hu
      exact setThr_memWf hu

theorem atomicAcc_memWf {op x v i y} (h : s.memWf) : OptMemWf (atomicAcc op x v i y s) := by
  unfold atomicAcc
  extract_lets
  split
  · exact fault_memWf h
  · split
    · exact thrSend_memWf h
    · exact thrSend_memWf h
    · split
      · exact fault_memWf h
      · split
        next u hu =>
          have hu := memWf_of_eq (placeAtomic_memWf (accCount_memWf h)) hu
          exact setThr_memWf hu
        next u hu =>
          have hu := memWf_of_eq (placeAtomic_memWf (accCount_memWf h)) hu
          exact fault_memWf (foundBad_memWf hu)

/-! ### The kernel library (chapter 15) -/

theorem libRead_memWf {x tenant a n} (h : s.memWf) : LibMemWf (libRead x tenant a n s) := by
  unfold libRead
  split
  · exact h
  · split
    · exact freeBytes_memWf h
    · split
      next u hu =>
        have hu := memWf_of_eq (accRead_memWf h) hu
        exact hu
      next u hu =>
        have hu := memWf_of_eq (accRead_memWf h) hu
        exact hu

theorem libWrite_memWf {x k run tenant a bs} (h : s.memWf) : LibMemWf (libWrite x k run tenant a bs s) := by
  unfold libWrite
  split
  · exact h
  · split
    · split
      next u hu =>
        have hu := memWf_of_some (sendItem_memWf h) hu
        exact hu
      · exact h
    · split
      next u hu =>
        have hu := memWf_of_eq (accWrite_memWf h) hu
        exact hu
      next u hu =>
        have hu := memWf_of_eq (accWrite_memWf h) hu
        exact hu

theorem libReadZ_memWf {x tenant w fuel n a} (h : s.memWf) : LibMemWf (libReadZ x tenant w fuel n a s) := by
  induction fuel generalizing n a s with
  | zero => exact h
  | succ fuel ih =>
    unfold libReadZ
    split
    · exact h
    · split
      next u hu =>
        have hu := memWf_of_bad (libRead_memWf h) hu
        exact hu
      next u hu =>
        have hu := memWf_of_ok (libRead_memWf h) hu
        extract_lets
        split
        next v hv =>
          have hv := memWf_of_bad (libRead_memWf hu) hv
          exact hv
        next v hv =>
          have hv := memWf_of_ok (libRead_memWf hu) hv
          split
          next w hw =>
            have hw := memWf_of_bad (ih hv) hw
            exact hw
          next w hw =>
            have hw := memWf_of_ok (ih hv) hw
            exact hw

theorem libReadElems_memWf {x tenant f n a} (h : s.memWf) : LibMemWf (libReadElems x tenant f n a s) := by
  unfold libReadElems
  split
  · exact libReadZ_memWf h
  · exact libRead_memWf h

theorem pageRows_memWf {x tenant kvFmt hd page j n} (h : s.memWf) : LibMemWf (pageRows x tenant kvFmt hd page j n s) := by
  induction n generalizing j s with
  | zero => exact h
  | succ n ih =>
    unfold pageRows
    extract_lets
    split
    next u hu =>
      have hu := memWf_of_bad (libRead_memWf h) hu
      exact hu
    next u hu =>
      have hu := memWf_of_ok (libRead_memWf h) hu
      split
      next v hv =>
        have hv := memWf_of_bad (libRead_memWf hu) hv
        exact hv
      next v hv =>
        have hv := memWf_of_ok (libRead_memWf hu) hv
        split
        next w hw =>
          have hw := memWf_of_bad (ih hv) hw
          exact hw
        next w hw =>
          have hw := memWf_of_ok (ih hv) hw
          exact hw

theorem attnPages_memWf {x tenant kvFmt hd scale qs ws first count acc} (h : s.memWf) :
    LibMemWf (attnPages x tenant kvFmt hd scale qs ws first count acc s) := by
  induction ws generalizing first count acc s with
  | nil => exact h
  | cons y ys ih =>
    unfold attnPages
    extract_lets
    split
    · exact h
    · split
      next u hu =>
        have hu := memWf_of_bad (pageRows_memWf h) hu
        exact hu
      next u hu =>
        have hu := memWf_of_ok (pageRows_memWf h) hu
        exact ih hu

theorem attnRun_memWf {x tenant p kvFmt hd pages} (h : s.memWf) : LibMemWf (attnRun x tenant p kvFmt hd pages s) := by
  unfold attnRun
  extract_lets
  split
  next u hu =>
    have hu := memWf_of_bad (attnPages_memWf h) hu
    exact hu
  next u hu =>
    have hu := memWf_of_ok (attnPages_memWf h) hu
    exact hu

theorem sampleWord_memWf {nucleus k temp p u logits} (h : s.memWf) :
    PairMemWf (sampleWord nucleus k temp p u logits s) := by
  unfold sampleWord
  extract_lets
  split
  · exact h
  · exact takeFree_memWf h

theorem libSample_memWf {nucleus x k tenant r} (h : s.memWf) : LibMemWf (libSample nucleus x k tenant r s) := by
  unfold libSample
  extract_lets
  split
  next u hu =>
    have hu := memWf_of_bad (libReadElems_memWf h) hu
    exact hu
  next u hu =>
    have hu := memWf_of_ok (libReadElems_memWf h) hu
    split
    · exact hu
    · exact libWrite_memWf (sampleWord_memWf hu)

theorem libDequant_memWf {x k tenant r} (h : s.memWf) : LibMemWf (libDequant x k tenant r s) := by
  unfold libDequant
  extract_lets
  split
  next u hu =>
    have hu := memWf_of_bad (libReadElems_memWf h) hu
    exact hu
  next u hu =>
    have hu := memWf_of_ok (libReadElems_memWf h) hu
    split
    · exact hu
    · split
      · exact libWrite_memWf hu
      · exact libWrite_memWf (freeBytes_memWf hu)

theorem libRows_memWf {gather x k tenant r bytes i n} (h : s.memWf) :
    LibMemWf (libRows gather x k tenant r bytes i n s) := by
  induction n generalizing i s with
  | zero => exact h
  | succ n ih =>
    unfold libRows
    split
    next u hu =>
      have hu := memWf_of_bad (libRead_memWf h) hu
      exact hu
    next u hu =>
      have hu := memWf_of_ok (libRead_memWf h) hu
      extract_lets
      split
      next v hv =>
        have hv := memWf_of_bad (libRead_memWf hu) hv
        exact hv
      next v hv =>
        have hv := memWf_of_ok (libRead_memWf hu) hv
        split
        next w hw =>
          have hw := memWf_of_bad (libWrite_memWf hv) hw
          exact hw
        next w hw =>
          have hw := memWf_of_ok (libWrite_memWf hv) hw
          exact ih hw

theorem readExperts_memWf {x tenant fmt dim n a} (h : s.memWf) : LibMemWf (readExperts x tenant fmt dim n a s) := by
  induction n generalizing a s with
  | zero => exact h
  | succ n ih =>
    unfold readExperts
    extract_lets
    split
    next u hu =>
      have hu := memWf_of_bad (libRead_memWf h) hu
      exact hu
    next u hu =>
      have hu := memWf_of_ok (libRead_memWf h) hu
      split
      next v hv =>
        have hv := memWf_of_bad (ih hu) hv
        exact hv
      next v hv =>
        have hv := memWf_of_ok (ih hu) hv
        exact hv

theorem libCombine_memWf {x k tenant r dim kk fmt i n} (h : s.memWf) :
    LibMemWf (libCombine x k tenant r dim kk fmt i n s) := by
  induction n generalizing i s with
  | zero => exact h
  | succ n ih =>
    unfold libCombine
    extract_lets
    split
    next u hu =>
      have hu := memWf_of_bad (libRead_memWf h) hu
      exact hu
    next u hu =>
      have hu := memWf_of_ok (libRead_memWf h) hu
      split
      next v hv =>
        have hv := memWf_of_bad (readExperts_memWf hu) hv
        exact hv
      next v hv =>
        have hv := memWf_of_ok (readExperts_memWf hu) hv
        extract_lets
        split
        next w hw =>
          have hw := memWf_of_bad (libWrite_memWf hv) hw
          exact hw
        next w hw =>
          have hw := memWf_of_ok (libWrite_memWf hv) hw
          exact ih hw

theorem libWork_memWf {x k v r} (h : s.memWf) : LibMemWf (libWork x k v r s) := by
  unfold libWork
  extract_lets unit a
  have hunit : ∀ {r}, LibMemWf r → LibMemWf (unit r) := by
    intro r hr
    cases r with
    | ok => exact hr
    | bad => exact hr
  split
  · split
    · exact attnRun_memWf h
    · exact h
  · exact hunit (libSample_memWf h)
  · exact hunit (libSample_memWf h)
  · exact hunit (libDequant_memWf h)
  · exact hunit (libRows_memWf h)
  · exact hunit (libRows_memWf h)
  · exact hunit (libCombine_memWf h)
  · exact h

/-! ### Kernels and runs (chapter 15) -/

theorem withKernel_memWf {d f bound body} (hb : ∀ a s, s.memWf → (body a s).memWf) (h : s.memWf) :
    (withKernel d f bound s body).memWf := by
  unfold withKernel
  split
  · exact complete_memWf h
  · exact memWf_ite (complete_memWf (modFlight_memWf h)) (memWf_ite (complete_memWf (modFlight_memWf h)) (hb _ _
    (modFlight_memWf h)))

theorem kernelLoad_memWf {d f} (h : s.memWf) : (kernelLoad d f s).memWf :=
  withKernel_memWf (fun _ _ hs => memWf_ite (complete_memWf hs) (complete_memWf (setKernel_memWf (bindPage_memWf hs)))) h

theorem kernelStarting_memWf {k} (h : s.memWf) : (kernelStarting k s).memWf :=
  memWf_ite (hostRead_memWf (setKernel_memWf h)) (setKernel_memWf h)

theorem codeGot_memWf {k st bs} (h : s.memWf) : (codeGot k st bs s).memWf := memWf_ite (modKernel_memWf h) h

theorem kernelStopping_memWf {k st} (h : s.memWf) : (kernelStopping k st s).memWf :=
  memWf_foldl (fun _ _ hs => endRun_memWf hs) h

theorem kernelOff_memWf {k} (h : s.memWf) : (kernelOff k s).memWf := h

theorem admitRun_memWf {k b threads args ready} (h : s.memWf) : PairMemWf (admitRun k b threads args ready s) :=
  bump_memWf (setKernel_memWf h)

theorem kernelRun_memWf {d f} (h : s.memWf) : (kernelRun d f s).memWf := by
  unfold kernelRun
  refine withKernel_memWf (fun _ u hs => ?_) h
  extract_lets _ _ t
  have ht : t.memWf := admitRun_memWf (modFlight_memWf hs)
  split
  · exact complete_memWf hs
  · split
    · exact complete_memWf hs
    · split
      · exact complete_memWf hs
      · exact complete_memWf hs
      · exact memWf_ite ht (hostRead_memWf ht)

theorem argsGot_memWf {d st bs} (h : s.memWf) : (argsGot d st bs s).memWf := by
  unfold argsGot
  split
  · exact h
  · extract_lets
    split
    · exact h
    · exact memWf_ite (modWorkRun_memWf h) (endRun_memWf h)

theorem launchRefuse_memWf {k out st p} (h : s.memWf) : (launchRefuse k out st p s).memWf :=
  sendFail_memWf (countRefused_memWf (bump_memWf h))

theorem launchArrive_memWf {port p} (h : s.memWf) : (launchArrive port p s).memWf := by
  unfold launchArrive
  split
  · exact h
  · extract_lets t
    have ht : t.memWf := takeDelivered_memWf h
    split
    · exact launchRefuse_memWf ht
    · split
      · exact launchRefuse_memWf ht
      · split
        next u hu =>
          have hu := memWf_of_eq (admitRun_memWf ht) hu
          exact inject_memWf hu

theorem seqWait_memWf {d words} (h : s.memWf) : (seqWait d words s).memWf := h

theorem seqSet_memWf {d f} (h : s.memWf) : (seqSet d f s).memWf := by
  unfold seqSet
  split
  · exact complete_memWf h
  · exact memWf_ite (complete_memWf (modFlight_memWf h)) (memWf_ite (complete_memWf (modFlight_memWf h))
    (seqWait_memWf (modFlight_memWf (modFlight_memWf h))))

theorem seqPages_memWf {d f} (h : s.memWf) : (seqPages d f s).memWf := by
  unfold seqPages
  split
  · exact complete_memWf h
  · exact memWf_ite (complete_memWf (modFlight_memWf h)) (memWf_ite (complete_memWf (modFlight_memWf h)) (memWf_ite
    (complete_memWf (modFlight_memWf h)) (memWf_ite (seqWait_memWf (modFlight_memWf (modFlight_memWf h)))
    (hostRead_memWf (modFlight_memWf (modFlight_memWf h))))))

theorem pagesGot_memWf {d st bs} (h : s.memWf) : (pagesGot d st bs s).memWf := by
  unfold pagesGot
  split
  · exact h
  · exact memWf_ite (complete_memWf h) (seqWait_memWf h)

theorem seqClear_memWf {d f} (h : s.memWf) : (seqClear d f s).memWf := by
  unfold seqClear
  split
  · exact complete_memWf h
  · exact memWf_ite (complete_memWf (modFlight_memWf h)) (seqWait_memWf (modFlight_memWf (modFlight_memWf h)))

theorem seqApply_memWf {w} (h : s.memWf) : (seqApply w s).memWf := by
  unfold seqApply
  split
  · exact h
  · exact memWf_ite (memWf_ite (complete_memWf h) (complete_memWf (modFlight_memWf (larderPut_memWf _ _ _
    (larderZero_memWf _ _ _ h))))) (memWf_ite (complete_memWf h) (memWf_ite (memWf_ite (complete_memWf h) (memWf_ite
    (complete_memWf h) (complete_memWf (larderPut_memWf _ _ _ h)))) (complete_memWf (modFlight_memWf
    (larderPut_memWf _ _ _ h)))))

theorem seqBoundary_memWf (h : s.memWf) : (seqBoundary s).memWf := memWf_foldl (fun _ _ hs => seqApply_memWf hs) h

theorem attnArrive_memWf {port p} (h : s.memWf) : (attnArrive port p s).memWf := by
  unfold attnArrive
  split
  · exact h
  · extract_lets t
    have ht : t.memWf := takeDelivered_memWf h
    split
    · exact sendFail_memWf (countRefused_memWf ht)
    · split
      · exact sendFail_memWf (countRefused_memWf ht)
      · split
        · exact sendFail_memWf (countRefused_memWf ht)
        · exact admitRun_memWf ht

theorem placeThreads_memWf {k v r ts} (h : s.memWf) : (placeThreads k v r ts s).memWf :=
  memWf_foldl (fun _ _ hs => setThr_memWf hs) h

theorem runStart_memWf {k} (h : s.memWf) : (runStart k s).memWf := by
  unfold runStart
  split
  · exact h
  · extract_lets _ _ t
    have ht : t.memWf := modWorkRun_memWf (bump_memWf (bump_memWf (placeThreads_memWf h)))
    split
    · exact h
    · split
      · exact ht
      · split
        next u hu =>
          have hu := memWf_of_ok (libWork_memWf ht) hu
          exact settleRun_memWf (modWorkRun_memWf hu)
        next u hu =>
          have hu := memWf_of_bad (libWork_memWf ht) hu
          exact fault_memWf hu

theorem execRunLimitExpired_memWf {k run} (h : s.memWf) : OutMemWf (execRunLimitExpired k run s) := by
  unfold execRunLimitExpired
  split
  · split
    · split
      · exact fault_memWf h
      · exact h
    · exact h
  · exact h

theorem threadGot_memWf {x acc bs} (h : s.memWf) : (threadGot x acc bs s).memWf := settleRun_memWf (setThr_memWf h)

theorem threadLaunched_memWf {x reg st run} (h : s.memWf) : (threadLaunched x reg st run s).memWf :=
  settleRun_memWf (setThr_memWf h)

theorem threadFailed_memWf {x acc st addr} (h : s.memWf) : (threadFailed x acc st addr s).memWf := by
  unfold threadFailed
  split
  · exact threadLaunched_memWf h
  · exact faultWith_memWf (modThr_memWf h)

theorem libItemEnd_memWf {k run st addr} (h : s.memWf) : (libItemEnd k run st addr s).memWf := by
  unfold libItemEnd
  split
  · exact memWf_ite (settleRun_memWf h) (faultWith_memWf h)
  · exact h

end Machine
end Sys2Proof
end

section
/-!
PROOF. Every step keeps the memories in canonical form, part six: failures, telemetry, frames sent, power, coats, functions and registers.
-/
namespace Sys2Proof
namespace Machine
set_option Elab.async false

variable {s t : State}

/-! ### Failures and lost nodes (chapter 22) -/

theorem dropInput_memWf {o i} (h : s.memWf) : (dropInput o i s).memWf :=
  memWf_ite h (trimBlocks_memWf (memWf_foldl (fun _ _ hs => freeUnits_memWf (memWf_frame (memWf_ite (memWf_ite
    (loseRef_memWf (sendFail_memWf hs)) hs) (freeCredits_memWf (memWf_ite (loseRef_memWf (sendFail_memWf hs)) hs)))))
    (setIn_memWf h)))

theorem dropStarted_memWf {o q} (h : s.memWf) : (dropStarted o s q).memWf := by
  unfold dropStarted
  exact memWf_ite (countLeft_memWf (freeHeld_memWf (markDead_memWf (modOut_memWf (loseRef_memWf (bumpPort_memWf
    (memWf_ite (sendFail_memWf h) (mcCount_memWf h)))))))) (memWf_ite (freeCredits_memWf (countLeft_memWf
    (freeHeld_memWf (markDead_memWf (modOut_memWf (loseRef_memWf (bumpPort_memWf (memWf_ite (sendFail_memWf h)
    (mcCount_memWf h))))))))) (freeReplicas_memWf (countLeft_memWf (freeHeld_memWf (markDead_memWf (modOut_memWf
    (loseRef_memWf (bumpPort_memWf (memWf_ite (sendFail_memWf h) (mcCount_memWf h))))))))))

theorem dropLinkPackets_memWf {l} (h : s.memWf) : (dropLinkPackets l s).memWf := by
  unfold dropLinkPackets
  exact forgetDead_memWf (memWf_foldl (fun _ _ hs => dropInput_memWf hs) (setTm_memWf (memWf_foldl
    (fun _ _ hs => sendFail_memWf hs) (memWf_foldl (fun _ _ hs => discardAt_memWf hs) (memWf_foldl
    (fun _ _ hs => memWf_ite (countLeft_memWf (modOut_memWf hs)) (memWf_ite (freeCredits_memWf (countLeft_memWf
    (modOut_memWf hs))) (freeReplicas_memWf (countLeft_memWf (modOut_memWf hs))))) (memWf_foldl
    (fun _ _ hs => dropStarted_memWf hs) h))))))

theorem dropOrdered_memWf {i x} (h : s.memWf) : (dropOrdered i s x).memWf := by
  unfold dropOrdered
  extract_lets _ t
  have ht : t.memWf := loseRef_memWf (sendFail_memWf h)
  split
  · exact memWf_ite h (discardAt_memWf h)
  · exact memWf_ite h (modOut_memWf ht)

theorem dropContribs_memWf {i} (h : s.memWf) : (dropContribs i s).memWf :=
  memWf_foldl (fun _ _ hs => sendFail_memWf (freeUnits_memWf (modIn_memWf (memWf_frame hs)))) h

theorem dropArriving_memWf {l k} (h : s.memWf) : (dropArriving l k s).memWf := by
  unfold dropArriving
  split
  · exact sendFail_memWf h
  · exact h

theorem sweepNode_memWf {n} (h : s.memWf) : (sweepNode n s).2.2.memWf :=
  List.foldlRecOn (motive := fun (r : Nat × Bool × State) => r.2.2.memWf) _ _ h
    (fun _ hr _ _ => memWf_foldl (fun _ _ hs => inject_memWf (countFail_memWf hs)) hr)

theorem loseNode_memWf {n} (h : s.memWf) : (loseNode s n).memWf := by
  unfold loseNode
  extract_lets own
  split
  next u hu =>
    have hu : u.memWf := by
      clear_value own
      cases own with
      | none => exact memWf_of_eq_third (p := (_, _, s)) h hu
      | some l => exact memWf_of_eq_third (sweepNode_memWf h) hu
    exact raiseEv_memWf (memWf_frame hu)

theorem nodeCheck_memWf (h : s.memWf) : (nodeCheck s).memWf := by
  unfold nodeCheck
  extract_lets _ _ t _ _ t1
  have ht : t.memWf := memWf_foldl (fun _ _ hs => raiseEv_memWf hs) h
  have ht1 : t1.memWf := bump_memWf ht
  exact memWf_ite ht1 (collLosses_memWf (memWf_foldl (fun _ _ hs => loseNode_memWf hs) ht1))

theorem nodesAfter_memWf (h : s.memWf) : (nodesAfter s).memWf := memWf_ite h (nodeCheck_memWf h)

theorem declareLink_memWf {l cause} (h : s.memWf) : (declareLink l cause s).memWf := by
  unfold declareLink
  exact lanesToDetect_memWf (streamLosses_memWf (streamLinkLost_memWf (collLosses_memWf (tickLinkLost_memWf
    (sendNotice_memWf (modLink_memWf (dropArriving_memWf (dropContribs_memWf (memWf_foldl
    (fun _ _ hs => dropOrdered_memWf hs) (dropLinkPackets_memWf (setLink_memWf (raiseEv_memWf
    (bumpPort_memWf h)))))))))))))

theorem execLinkFailureDeclare_memWf {l} (h : s.memWf) : OutMemWf (execLinkFailureDeclare l s) := by
  unfold execLinkFailureDeclare
  split
  · split
    · exact nodesAfter_memWf (memWf_ite (declareLink_memWf (setPhase_memWf h)) (lanesToDetect_memWf (modLink_memWf
      (setPhase_memWf h))))
    · exact h
  · exact h

theorem applyNotice_memWf {n} (h : s.memWf) : (applyNotice s n).memWf :=
  memWf_ite h (memWf_ite h (memWf_ite (raiseEv_memWf h) h))

theorem takeNotice_memWf {p} (h : s.memWf) : (takeNotice p s).memWf := memWf_ite h h

theorem endOwn_memWf {o st bytes echo} (h : s.memWf) : (endOwn o st bytes echo s).memWf := by
  unfold endOwn
  extract_lets t
  have ht : t.memWf := dropOwn_memWf h
  split
  · exact dmEnd_memWf ht
  · exact memWf_ite (threadGot_memWf ht) (threadFailed_memWf ht)
  · exact libItemEnd_memWf ht
  · exact memWf_ite (gwInFail_memWf ht) (gwInDone_memWf (memWf_ite (gwInData_memWf ht) ht))
  · exact memWf_ite (gwOutFail_memWf ht) (memWf_ite (gwOutData_memWf ht) (gwOutWritten_memWf ht))
  · exact memWf_ite ht (doneFailed_memWf ht)

theorem echoPace_memWf {o p} (h : s.memWf) : (echoPace o p s).memWf := memWf_ite (modIn_memWf h) h

theorem withAnswer_memWf {p op body} (hb : ∀ a s, s.memWf → (body a s).memWf) (h : s.memWf) :
    (withAnswer p op s body).memWf := by
  unfold withAnswer
  split
  · exact h
  · split
    next u hu =>
      have hu := memWf_of_eq (takeAnswer_memWf h) hu
      exact memWf_ite (hb _ _ (echoPace_memWf hu)) hu
    next u hu =>
      have hu := memWf_of_eq (takeAnswer_memWf h) hu
      exact hu

theorem execRdData_memWf {p} (h : s.memWf) : OutMemWf (execRdData p s) := by
  refine withAnswer_memWf (fun o t ht => ?_) h
  split
  next u hu =>
    have hu := memWf_of_eq_third (countRead_memWf ht) hu
    exact memWf_ite (endOwn_memWf hu) hu

theorem execLaunchAck_memWf {p} (h : s.memWf) : OutMemWf (execLaunchAck p s) := by
  unfold execLaunchAck
  refine withAnswer_memWf (fun _ u hs => ?_) h
  extract_lets t
  have ht : t.memWf := dropOwn_memWf hs
  split
  · exact threadLaunched_memWf ht
  · exact ht

theorem sweepOwn_memWf {p} (h : s.memWf) : (sweepOwn p s).memWf := memWf_foldl (fun _ _ hs => endOwn_memWf hs) h

theorem execResponseTimeout_memWf {tag} (h : s.memWf) : OutMemWf (execResponseTimeout tag s) := by
  unfold execResponseTimeout
  split
  · exact memWf_ite (endOwn_memWf h) h
  · exact h

theorem faultLogRead_memWf {d f} (h : s.memWf) : (faultLogRead d f s).memWf := by
  unfold faultLogRead
  extract_lets _ _ _ _ _ _ _ t
  have ht : t.memWf := hostPut_memWf h
  split
  · exact complete_memWf h
  · split
    · split
      next u hu =>
        have hu := memWf_of_eq (takeFree_memWf ht) hu
        exact complete_memWf hu
    · exact complete_memWf ht

/-! ### Snapshots and telemetry (chapter 23) -/

theorem checkPair_memWf {k held} (h : s.memWf) : (checkPair k held s).memWf := memWf_ite h (auditMismatch_memWf h)

theorem checkPairs_memWf (h : s.memWf) : (checkPairs s).memWf :=
  memWf_foldl (fun _ _ hs => checkPair_memWf (checkPair_memWf hs)) h

theorem latchAudits_memWf (h : s.memWf) : (latchAudits s).memWf := h
theorem snapshot_memWf {x} (h : s.memWf) : (snapshot x s).memWf := latchAudits_memWf (checkPairs_memWf h)

theorem ctrRead_memWf {d f} (h : s.memWf) : (ctrRead d f s).memWf :=
  memWf_ite (complete_memWf h) (memWf_ite (complete_memWf h) (complete_memWf (hostPut_memWf h)))

theorem setDump_memWf {c v} (h : s.memWf) : (setDump c v s).memWf := h

theorem dumpConfig_memWf {d f} (h : s.memWf) : (dumpConfig d f s).memWf := by
  unfold dumpConfig
  extract_lets
  split
  · exact complete_memWf h
  · split
    · exact memWf_ite (complete_memWf h) (memWf_ite (complete_memWf h) (addWaits_memWf (setDump_memWf h)))
    · exact complete_memWf h

theorem peepConfig_memWf {d f} (h : s.memWf) : (peepConfig d f s).memWf := by
  unfold peepConfig
  extract_lets
  split
  · extract_lets _ t
    have ht : t.memWf := modFlight_memWf h
    exact memWf_ite (complete_memWf ht) (memWf_ite (complete_memWf ht) (memWf_ite (complete_memWf ht)
      (addWaits_memWf ht)))
  · exact complete_memWf h

theorem telemCopy_memWf {d f} (h : s.memWf) : (telemCopy d f s).memWf := by
  unfold telemCopy
  extract_lets _ _ _ t
  have ht : t.memWf := countPlace_memWf h
  split
  · exact complete_memWf h
  · split
    · exact complete_memWf h
    · split
      · exact complete_memWf (hostPut_memWf ht)
      · exact complete_memWf (foundBad_memWf ht)

theorem execDumpDue_memWf {c} (h : s.memWf) : OutMemWf (execDumpDue c s) := by
  unfold execDumpDue
  extract_lets
  split
  · exact h
  · exact memWf_ite h (memWf_ite (setPhase_memWf (setDump_memWf h)) (setPhase_memWf (setDump_memWf h)))

theorem dumpPut_memWf {c b at_ bs} (h : s.memWf) : (dumpPut c b at_ bs s).memWf :=
  memWf_ite h (memWf_ite (placeWrite_memWf _ _ _ (countPlace_memWf h)) (hostPut_memWf h))

theorem dumpTick_memWf (h : s.memWf) : (dumpTick s).memWf := by
  unfold dumpTick
  refine memWf_foldl (fun u _ hs => ?_) h
  extract_lets
  split
  · exact hs
  · exact memWf_ite hs (dumpPut_memWf (setDump_memWf hs))

theorem execDumpRecordComplete_memWf {c} (h : s.memWf) : OutMemWf (execDumpRecordComplete c s) := by
  unfold execDumpRecordComplete
  extract_lets
  split
  · exact h
  · exact memWf_ite h (dumpPut_memWf (setDump_memWf h))

theorem telemBoundary_memWf (h : s.memWf) : (telemBoundary s).memWf :=
  dumpTick_memWf (memWf_foldl (fun _ _ hs => complete_memWf hs) h)

/-! ### Frames that a link sends (chapter 06) -/

theorem closeFrame_memWf {l} (h : s.memWf) : (closeFrame l s).memWf := by
  unfold closeFrame
  extract_lets
  split
  · exact h
  · exact modLink_memWf (memWf_foldl (fun _ _ hs => modLane_memWf hs) h)

theorem rebuildFrames_memWf {l} (h : s.memWf) : (rebuildFrames l s).memWf := by
  unfold rebuildFrames
  extract_lets
  split
  · exact setLink_memWf h
  · exact h

theorem takeWidth_memWf {l m} (h : s.memWf) : (takeWidth l m s).memWf :=
  memWf_ite h (memWf_ite (rebuildFrames_memWf (setLink_memWf h)) (setLink_memWf h))

theorem putFrame_memWf {l f room} (h : s.memWf) : (putFrame l f room s).memWf := modLink_memWf h
theorem newFrame_memWf {l f room} (h : s.memWf) : (newFrame l f room s).memWf := putFrame_memWf (setLink_memWf h)

theorem dataFrame_memWf {l body q x} (h : s.memWf) : (dataFrame l body q x s).memWf := by
  unfold dataFrame
  extract_lets _ t
  have ht : t.memWf := memWf_ite h (bump_memWf h)
  split
  · exact newFrame_memWf (setLink_memWf h)
  · exact putFrame_memWf (setLink_memWf ht)

theorem sendLinkFrame_memWf {l body} (h : s.memWf) : (sendLinkFrame l body s).memWf := by
  unfold sendLinkFrame
  extract_lets
  split
  · exact memWf_ite (putFrame_memWf h) (putFrame_memWf (setLink_memWf h))
  · split
    · exact putFrame_memWf h
    · split
      · exact newFrame_memWf (setLink_memWf h)
      · exact dataFrame_memWf h
      · exact putFrame_memWf h

theorem frameBoundary_memWf {l} (h : s.memWf) : (frameBoundary l s).memWf := by
  unfold frameBoundary
  extract_lets named t u k bs v
  have ht : t.memWf := closeFrame_memWf h
  have hu : u.memWf := by
    unfold u
    clear_value named
    cases named with
    | none => exact ht
    | some m => exact takeWidth_memWf ht
  exact sendLinkFrame_memWf (setLink_memWf hu)

theorem linkSlot_memWf {l} (h : s.memWf) : (linkSlot l s).memWf := by
  unfold linkSlot
  split
  · exact h
  · extract_lets t
    have ht : t.memWf := memWf_ite (frameBoundary_memWf h) h
    split
    · exact memWf_ite (bump_memWf ht) ht
    · exact ht

/-! ### Power, reset and start-up (chapter 21) -/

theorem resetAll_memWf : (resetAll s).memWf := memWf_frame reset_memWf

theorem execPowerGood_memWf {x} (h : s.memWf) : OutMemWf (execPowerGood x s) := by
  unfold execPowerGood
  split
  · exact h
  · exact bootRun_memWf h

theorem retireRecorded_memWf (h : s.memWf) : (retireRecorded s).memWf := memWf_foldl (fun _ _ hs => memWf_frame hs) h

theorem execLarderPhaseEnd_memWf (h : s.memWf) : OutMemWf (execLarderPhaseEnd s) := by
  unfold execLarderPhaseEnd
  split
  · exact h
  · extract_lets _ _ t t1
    have ht1 : t1.memWf := retireRecorded_memWf h
    exact memWf_frame ht1

theorem execReadyTimeout_memWf (h : s.memWf) : OutMemWf (execReadyTimeout s) := by
  unfold execReadyTimeout
  split
  · exact h
  · exact raiseEv_memWf h

theorem execPowerCap_memWf {d} (h : s.memWf) : OutMemWf (execPowerCap d s) := by
  unfold execPowerCap
  refine withDesc_memWf (fun _ u hs => ?_) h
  extract_lets t
  have ht : t.memWf := addWaits_memWf hs
  exact ht

theorem takeCaps_memWf (h : s.memWf) : PairMemWf (takeCaps s) := by
  unfold takeCaps
  split
  · exact h
  · exact memWf_foldl (fun _ _ hs => complete_memWf hs) h

theorem capStep_memWf {p} (h : s.memWf) : (capStep p s).memWf := memWf_ite h (memWf_ite h (memWf_ite h (memWf_ite h h)))

theorem lagStep_memWf {p} (h : s.memWf) : (lagStep p s).memWf := by
  unfold lagStep
  extract_lets _ _ _ t
  have ht : t.memWf := memWf_ite (raiseEv_memWf (bumpModule_memWf (memWf_power h))) h
  exact memWf_power ht

theorem alarmStep_memWf (h : s.memWf) : (alarmStep s).memWf :=
  memWf_ite h (memWf_ite h (raiseEv_memWf (bumpModule_memWf h)))

theorem thetaStep_memWf {j} (h : s.memWf) : (thetaStep j s).memWf := memWf_ite (raiseEv_memWf h) h

theorem execPowerMeasure_memWf {watts junction} (h : s.memWf) : OutMemWf (execPowerMeasure watts junction s) := by
  unfold execPowerMeasure
  split
  · exact h
  · split
    next u hu =>
      have hu := memWf_of_eq (takeCaps_memWf (setPhase_memWf (memWf_power h))) hu
      exact memWf_foldl (fun _ _ hs => complete_memWf hs)
        (thetaStep_memWf (alarmStep_memWf (capStep_memWf (lagStep_memWf hu))))

theorem applyLevers_memWf (h : s.memWf) : (applyLevers s).memWf := h

/-! ### Coats (chapter 08) -/

theorem reown_memWf (h : s.memWf) : (reown s).memWf := h
theorem modStaging_memWf {f} (h : s.memWf) : (modStaging f s).memWf := h

theorem loadFail_memWf {d st} (h : s.memWf) : (loadFail d st s).memWf := by
  unfold loadFail
  extract_lets t _ t1
  have ht : t.memWf := modStaging_memWf h
  have ht1 : t1.memWf := by
    unfold t1
    split
    · exact memWf_ite ht ht
    · exact ht
  exact complete_memWf ht1

theorem coatGot_memWf {d st bs} (h : s.memWf) : (coatGot d st bs s).memWf :=
  memWf_ite (verifyLater_memWf h) (loadFail_memWf h)

theorem coatVerified_memWf {d ok bs} (h : s.memWf) : (coatVerified d ok bs s).memWf := by
  unfold coatVerified
  split
  · split
    · exact h
    · split
      · exact loadFail_memWf h
      · split
        · exact loadFail_memWf h
        · exact memWf_ite (loadFail_memWf h) (memWf_ite (loadFail_memWf h) (modStaging_memWf h))
  · exact h

theorem loadDone_memWf {l} (h : s.memWf) : (loadDone l s).memWf := complete_memWf (modStaging_memWf h)

theorem takeFrames_memWf {base} (h : s.memWf) : PairMemWf (takeFrames base s) := by
  unfold takeFrames
  split
  · exact h
  · refine List.foldlRecOn (motive := PairMemWf) _ _ h (fun r hr _ _ => ?_)
    split
    · exact hr
    · exact memWf_frame (s := r.2) hr

theorem writeLoad_memWf {l left} (h : s.memWf) : PairMemWf (writeLoad l left s) := by
  unfold writeLoad
  split
  · exact h
  · split
    · exact h
    · split
      · exact loadFail_memWf h
      · extract_lets _ _ t
        have ht : t.memWf := modStaging_memWf h
        split
        · exact bumpModule_memWf (modStaging_memWf ht)
        · split
          next u hu =>
            have hu := memWf_of_eq (takeFrames_memWf ht) hu
            exact memWf_ite (loadDone_memWf (modStaging_memWf hu)) (modStaging_memWf hu)

theorem execCoatStagingWrite_memWf (h : s.memWf) : OutMemWf (execCoatStagingWrite s) := by
  unfold execCoatStagingWrite
  split
  · exact h
  · split
    · exact h
    · exact List.foldlRecOn (motive := PairMemWf) _ _ (modStaging_memWf (setPhase_memWf h))
        (fun _ hr _ _ => writeLoad_memWf hr)

theorem execFrameFillDone_memWf {frame} (h : s.memWf) : OutMemWf (execFrameFillDone frame s) := by
  unfold execFrameFillDone
  extract_lets _ _ t t1
  have ht : t.memWf := zeroFrame_memWf _ _ h
  have ht1 : t1.memWf := modStaging_memWf ht
  split
  · exact h
  · split
    · exact ht
    · exact memWf_foldl (fun _ _ hs => loadDone_memWf hs) ht1

theorem execCoatSwitch_memWf {d} (h : s.memWf) : OutMemWf (execCoatSwitch d s) := by
  unfold execCoatSwitch
  refine withDesc_memWf (fun _ u hs => ?_) h
  split
  · split
    · exact complete_memWf hs
    · extract_lets t
      have ht : t.memWf := addWaits_memWf hs
      exact ht
  · exact complete_memWf hs

theorem switchNow_memWf {g} (h : s.memWf) : (switchNow g s).memWf := memWf_foldl (fun _ _ hs => complete_memWf hs) h

theorem switchMiss_memWf {w} (h : s.memWf) : (switchMiss w s).memWf := by
  unfold switchMiss
  split
  · exact memWf_ite (complete_memWf h) (bumpModule_memWf h)
  · exact h

theorem execCoatSwitchApply_memWf (h : s.memWf) : OutMemWf (execCoatSwitchApply s) := by
  unfold execCoatSwitchApply
  split
  · exact h
  · extract_lets _ _ t _ t1
    have ht : t.memWf := setPhase_memWf h
    have ht1 : t1.memWf := memWf_foldl (fun _ _ hs => switchMiss_memWf hs) ht
    split
    · exact h
    · exact memWf_foldl (fun _ _ hs => complete_memWf hs) (setPhase_memWf h)
    · split
      · exact ht1
      · split
        · exact memWf_foldl (fun _ _ hs => switchMiss_memWf hs) ht1
        · split
          · exact memWf_foldl (fun _ _ hs => complete_memWf hs) ht1
          · exact switchNow_memWf ht1

theorem execUndercoatRetire_memWf (h : s.memWf) : OutMemWf (execUndercoatRetire s) := by
  unfold execUndercoatRetire
  split
  · exact h
  · split
    · exact h
    · exact reown_memWf (setPhase_memWf h)

theorem execOrderedHoldRelease_memWf (h : s.memWf) : OutMemWf (execOrderedHoldRelease s) := by
  unfold execOrderedHoldRelease
  split
  · exact h
  · exact h

theorem execCoatAbort_memWf {d} (h : s.memWf) : OutMemWf (execCoatAbort d s) := by
  unfold execCoatAbort
  refine withDesc_memWf (fun _ u hs0 => ?_) h
  split
  · exact complete_memWf hs0
  · exact complete_memWf (reown_memWf (memWf_foldl (fun _ _ hs => complete_memWf hs) hs0))

theorem execMcOutcomeRecordTimeout_memWf {src tag} (h : s.memWf) : OutMemWf (execMcOutcomeRecordTimeout src tag s) := by
  unfold execMcOutcomeRecordTimeout
  split
  · exact h
  · split
    · exact h
    · exact closeRecord_memWf h

/-! ### Function instances (chapter 03) -/

theorem groupReserve_memWf {g} (h : s.memWf) : (groupReserve g s).memWf := by
  unfold groupReserve
  extract_lets _ t
  have ht : t.memWf := setGroup_memWf h
  exact memWf_ite ht h

theorem zeroPut_memWf {off old} (h : s.memWf) : (zeroPut off old s).memWf := memWf_ite h (consumerPut_memWf h)

theorem startHook_memWf {f want} (h : s.memWf) : (startHook f want s).memWf := by
  unfold startHook
  split
  · exact relight_memWf h
  · exact putSqCons_memWf (setSq_memWf h)
  · exact zeroPut_memWf (setCq_memWf h)
  · exact zeroPut_memWf h
  · exact groupReserve_memWf (setGroup_memWf (bindPage_memWf h))
  · exact streamFresh_memWf h
  · exact kernelStarting_memWf h
  · exact qpStarting_memWf h

theorem onHook_memWf {f} (h : s.memWf) : (onHook f s).memWf := by
  unfold onHook
  split
  · exact streamOn_memWf h
  · exact h

theorem cancelFetched_memWf {i st} (h : s.memWf) : (cancelFetched i st s).memWf :=
  memWf_foldl (fun _ _ hs => complete_memWf hs) h

theorem failNow_memWf {l cause} (h : s.memWf) : (failNow l cause s).memWf := modLink_memWf h

theorem portStopping_memWf {l} (h : s.memWf) : (portStopping l s).memWf :=
  memWf_ite (failNow_memWf h) (relight_memWf (setLink_memWf h))

theorem stopHook_memWf {f st} (h : s.memWf) : (stopHook f st s).memWf := by
  unfold stopHook
  split
  · split
    · exact relight_memWf (ethPortDown_memWf h)
    · exact portStopping_memWf h
  · exact cancelFetched_memWf h
  · exact streamStop_memWf h
  · exact kernelStopping_memWf h
  · exact qpCancel_memWf h
  · exact h

theorem offHook_memWf {f} (h : s.memWf) : (offHook f s).memWf := by
  unfold offHook
  split
  · exact consumerPut_memWf (setSq_memWf (auditRing_memWf h))
  · exact relight_memWf h
  · exact setGroup_memWf h
  · exact streamRelease_memWf h
  · exact kernelOff_memWf h
  · exact h

theorem fnStart_memWf {f want waits} (h : s.memWf) : (fnStart f want waits s).memWf := startHook_memWf (setFn_memWf h)
theorem fnStop_memWf {f st} (h : s.memWf) : (fnStop f st s).memWf := stopHook_memWf (setFn_memWf h)

theorem fnEnable_memWf {f d want} (h : s.memWf) : (fnEnable f d want s).memWf := by
  unfold fnEnable
  extract_lets
  split
  · split
    · exact memWf_foldl (fun _ _ hs => addWaits_memWf hs) (setFn_memWf h)
    · split
      · exact completeAll_memWf h
      · exact memWf_foldl (fun _ _ hs => addWaits_memWf hs) (fnStart_memWf h)
  · exact completeAll_memWf h
  · exact completeAll_memWf h
  · exact memWf_foldl (fun _ _ hs => addWaits_memWf hs) (setFn_memWf h)

theorem fnDisable_memWf {f d} (h : s.memWf) : (fnDisable f d s).memWf := by
  unfold fnDisable
  extract_lets
  split
  · exact completeAll_memWf h
  · exact memWf_foldl (fun _ _ hs => addWaits_memWf hs) (setFn_memWf h)
  · exact fnStop_memWf (memWf_foldl (fun _ _ hs => addWaits_memWf hs) (setFn_memWf h))
  · exact completeAll_memWf (memWf_foldl (fun _ _ hs => addWaits_memWf hs) (setFn_memWf h))

theorem functionOn_memWf {f} (h : s.memWf) : (functionOn f s).memWf := by
  unfold functionOn
  extract_lets _ _ t t1 t2
  have ht : t.memWf := setFn_memWf h
  have ht1 : t1.memWf := completeAll_memWf ht
  have ht2 : t2.memWf := memWf_ite (onHook_memWf ht1) ht1
  split
  · exact h
  · split
    · exact fnStop_memWf h
    · split
      · split
        · exact groupReserve_memWf (setFn_memWf h)
        · exact h
      · exact memWf_ite (fnStop_memWf ht2) ht2

theorem hostResetAck_memWf (h : s.memWf) : (hostResetAck s).memWf := memWf_ite (sendFrame_memWf h) h

theorem pendStart_memWf {f} (h : s.memWf) : (pendStart f s).memWf := by
  unfold pendStart
  extract_lets
  split
  · exact completeAll_memWf (setFn_memWf h)
  · exact fnStart_memWf h

theorem functionOff_memWf {f} (h : s.memWf) : (functionOff f s).memWf := by
  unfold functionOff
  extract_lets _ t
  have ht : t.memWf := setFn_memWf h
  split
  · exact h
  · split
    · exact memWf_ite (hostResetAck_memWf (completeAll_memWf (offHook_memWf ht))) h
    · exact memWf_ite (pendStart_memWf h) h
    · exact h

theorem ringDesc_memWf {d f body} (hb : ∀ a s, s.memWf → (body a s).memWf) (h : s.memWf) :
    (ringDesc d f s body).memWf := by
  unfold ringDesc
  split
  · exact complete_memWf h
  · exact memWf_ite (complete_memWf (modFlight_memWf h)) (memWf_ite (complete_memWf (modFlight_memWf h)) (hb _ _
    (modFlight_memWf h)))

theorem groupEnable_memWf {d f} (h : s.memWf) : (groupEnable d f s).memWf := by
  unfold groupEnable
  split
  · exact complete_memWf h
  · exact memWf_ite (completeGen_memWf h) (withGroup_memWf (fun _ _ hs => memWf_ite (fnEnable_memWf hs) (memWf_ite
    (complete_memWf hs) (memWf_ite (complete_memWf hs) (fnEnable_memWf hs)))) h)

theorem enableDesc_memWf {x d} (h : s.memWf) : (enableDesc x d s).memWf := memWf_ite (complete_memWf h) (fnEnable_memWf h)

theorem execStreamEnable_memWf {d} (h : s.memWf) : OutMemWf (execStreamEnable d s) := by
  unfold execStreamEnable
  refine withDesc_memWf (fun _ u hs0 => ?_) h
  split
  · exact memWf_ite (withStream_memWf (fun _ _ hs => complete_memWf hs) hs0) (withStream_memWf
    (fun _ _ hs => enableDesc_memWf hs) hs0)
  · exact complete_memWf hs0

theorem execHostReset_memWf (h : s.memWf) : OutMemWf (execHostReset s) := by
  unfold execHostReset
  extract_lets _ t _ _ t1
  have ht : t.memWf := takeInbox_memWf h
  exact hostResetAck_memWf (memWf_foldl (fun _ _ hs => fnDisable_memWf hs) ht)

theorem lockStop_memWf {f} (h : s.memWf) : (lockStop s f).memWf := by
  unfold lockStop
  extract_lets _ t t1
  have ht : t.memWf := completeAll_memWf (setFn_memWf h)
  have ht1 : t1.memWf := memWf_ite ht (fnStop_memWf ht)
  split
  · exact memWf_foldl (fun _ _ hs => failOp_memWf hs) ht1
  · exact memWf_foldl (fun _ _ hs => endAll_memWf hs) ht1
  · refine memWf_foldl (fun u _ hs2 => ?_) ht1
    split
    · exact fault_memWf hs2
    · exact settleRun_memWf (modWorkRun_memWf hs2)
  · exact memWf_foldl (fun _ _ hs => gwEnd_memWf hs) ht1
  · exact ht1

theorem lockDesc_memWf (h : s.memWf) : (lockDesc s).memWf := memWf_foldl (fun _ _ hs => complete_memWf hs) h

theorem lockdownEnter_memWf (h : s.memWf) : (lockdownEnter s).memWf := by
  unfold lockdownEnter
  split
  · exact h
  · exact memWf_ite h (lockErase_memWf _ (lockDesc_memWf (memWf_foldl (fun _ _ hs => lockStop_memWf hs) (memWf_foldl
    (fun _ _ hs => failNow_memWf hs) h))))

/-! ### Registers and bundles (chapter 24) -/

theorem regAnswer_memWf {r st v} (h : s.memWf) : (regAnswer r st v s).memWf := sendFrame_memWf h

theorem regServe_memWf {r} (h : s.memWf) : (regServe s r).memWf := by
  unfold regServe
  split
  · exact regAnswer_memWf h
  · exact regAnswer_memWf h

theorem regRd_memWf {addr wide tag} (h : s.memWf) : (regRd addr wide tag s).memWf :=
  memWf_ite (regAnswer_memWf (regError_memWf h)) (memWf_ite (regServe_memWf h) h)

theorem ctrlWrite_memWf {f a cause act} (h : s.memWf) : (ctrlWrite f a cause act s).memWf :=
  memWf_ite (regError_memWf h) (memWf_ite (fnEnable_memWf h) (memWf_ite (fnDisable_memWf h) h))

theorem regAction_memWf {r a cause act act0 nodeChanged} (h : s.memWf) :
    (regAction r a cause act act0 nodeChanged s).memWf := by
  unfold regAction
  split
  · exact memWf_ite h h
  · exact ctrlWrite_memWf h
  · exact ctrlWrite_memWf h
  · exact memWf_ite (setFallback_memWf h) h
  · exact memWf_ite (goRetire_memWf (memWf_ite h h)) (memWf_ite h h)
  · exact memWf_ite (clearFailed_memWf h) h
  · exact laserEnable_memWf h
  · exact relight_memWf h
  · exact memWf_ite (swapRequest_memWf (memWf_ite (setTm_memWf h) h)) (memWf_ite (setTm_memWf h) h)
  · exact memWf_ite (seedAll_memWf h) h
  · exact h

theorem storeWord_memWf {r w off old new} (h : s.memWf) : (storeWord r w off old new s).memWf := by
  unfold storeWord
  extract_lets
  split
  · exact setReg_memWf h
  · split
    next u hu =>
      have hu := memWf_of_eq (takeFree_memWf h) hu
      exact setReg_memWf hu

theorem storeWords_memWf {r off w os ns} (h : s.memWf) : (storeWords r off w os ns s).memWf := by
  induction os generalizing w ns s with
  | nil => exact h
  | cons o os ih =>
    cases ns with
    | nil => exact h
    | cons n ns => exact ih (storeWord_memWf h)

theorem commitWrite_memWf {bundle r a v m} (h : s.memWf) : (commitWrite bundle r a v m s).memWf :=
  memWf_ite (regError_memWf h) (memWf_ite (regError_memWf (regAction_memWf (storeWords_memWf h))) (regAction_memWf
    (storeWords_memWf h)))

theorem applyWrite_memWf {bundle a wide val} (h : s.memWf) : (applyWrite bundle a wide val s).memWf := by
  unfold applyWrite
  split
  · exact regError_memWf h
  · split
    · split
      · exact h
      · exact memWf_ite h (memWf_ite h (commitWrite_memWf h))

theorem regWr_memWf {addr wide val} (h : s.memWf) : (regWr addr wide val s).memWf :=
  memWf_ite (regError_memWf (takeInbox_memWf h)) (memWf_ite (memWf_frame (takeInbox_memWf h)) (memWf_frame
    (takeInbox_memWf h)))

theorem applyDue_memWf (h : s.memWf) : (applyDue s).memWf := by
  unfold applyDue
  extract_lets _ _ t t1
  have ht1 : t1.memWf := memWf_foldl (fun _ _ hs => applyWrite_memWf hs) h
  exact memWf_foldl (fun _ _ hs => regServe_memWf hs) ht1

theorem applyRecordOf_memWf {r} (h : s.memWf) : (applyRecordOf s r).memWf :=
  memWf_ite (regError_memWf h) (applyWrite_memWf h)

theorem bundleApply_memWf (h : s.memWf) : (bundleApply s).memWf := by
  unfold bundleApply
  split
  · exact h
  · exact memWf_ite h (applyDue_memWf (memWf_frame (releaseWrites_memWf (memWf_frame (memWf_foldl
    (fun _ _ hs => applyRecordOf_memWf hs) h)))))

theorem eqAccept_memWf {bs} (h : s.memWf) : (eqAccept bs s).memWf := h

theorem verified_memWf {u ok bs} (h : s.memWf) : (verified u ok bs s).memWf := by
  unfold verified
  split
  · exact coatVerified_memWf h
  · exact fwVerified_memWf h
  · exact sessionDone_memWf h
  · exact memWf_ite h (releaseWrites_memWf h)
  · exact memWf_foldl (fun _ _ hs => relight_memWf hs) (memWf_ite (eqAccept_memWf h) h)

theorem verifyDone_memWf (h : s.memWf) : (verifyDone s).memWf := by
  unfold verifyDone
  split
  · exact h
  · split
    · exact h
    · extract_lets _ t
      split
      · exact verified_memWf (envRefuse_memWf h)
      · exact verified_memWf h

/-! ### Steps 7, 8 and 10 of a boundary (Table 2-6) -/

theorem innerStep_memWf {n} (h : s.memWf) : (innerStep s n).memWf :=
  memWf_ite (refillQps_memWf (refillStreams_memWf (refillAll_memWf h))) (memWf_ite (gateStep_memWf h)
    (doorbellPoll_memWf h))

theorem runInner_memWf {n} (h : s.memWf) : (runInner n s).memWf := memWf_foldl (fun _ _ hs => innerStep_memWf hs) h
theorem settled_memWf (h : s.memWf) : (settled s).memWf := runInner_memWf h
theorem closeBoundary_memWf (h : s.memWf) : (closeBoundary s).memWf := memWf_ite (setPhase_memWf (settled_memWf h)) h
theorem roceArrives_memWf {op m} (h : s.memWf) : OutMemWf (roceArrives op m s) := roceIn_memWf (settled_memWf h)

end Machine
end Sys2Proof
end

section
/-!
PROOF. Every step keeps the memories in canonical form, part seven: the rows of the core and of the host, the boundary, every command, and the
statement of MemoriesStayCanonical.
-/
namespace Sys2Proof
namespace Machine
set_option Elab.async false

variable {s t : State}

/-! ### The rows of the core (chapter 07) -/

theorem portSlot_memWf {l} (h : s.memWf) : (portSlot s l).memWf := by
  unfold portSlot
  split
  · exact ethCount_memWf h
  · exact linkSlot_memWf (countStalls_memWf h)

theorem slotFaults_memWf (h : s.memWf) : PairMemWf (slotFaults s) := by
  unfold slotFaults
  split
  next u hu =>
    have hu := memWf_of_eq (takeFree_memWf h) hu
    split
    next v hv =>
      have hv := memWf_of_eq (takeFree_memWf hu) hv
      split
      next w hw =>
        have hw := memWf_of_eq (takeFree_memWf hv) hw
        split
        next u1 hu1 =>
          have hu1 := memWf_of_eq (takeFree_memWf hw) hu1
          exact hu1

theorem coreSlot_memWf (h : s.memWf) : (coreSlot s).memWf := by
  unfold coreSlot
  split
  · exact h
  · split
    next u hu =>
      have hu := memWf_of_eq (slotFaults_memWf h) hu
      exact memWf_tick (memWf_foldl (fun _ _ hs => portSlot_memWf hs) (sampleDepths_memWf (hawkRelease_memWf
        (hawkReturn_memWf (hawkServe_memWf (hawkLand_memWf (coreCross_memWf (collRetry_memWf (settled_memWf hu)))))))))

theorem addResults_memWf {o c m ps} (h : s.memWf) : (addResults o c m ps s).memWf := by
  induction ps generalizing s with
  | nil => exact h
  | cons y ys ih =>
    unfold addResults
    exact ih (modOut_memWf h)

theorem arriveResult_memWf {o c m} (h : s.memWf) : (arriveResult o c m s).memWf :=
  memWf_ite (countLeft_memWf (freeReplicas_memWf (resultBad_memWf h))) (memWf_ite (countLeft_memWf
    (freeReplicas_memWf h)) (addResults_memWf h))

theorem dropBad_memWf {o} (h : s.memWf) : (dropBad o s).memWf := memWf_foldl (fun _ _ hs => discardAt_memWf hs) h

theorem cellArrive_memWf {o} (h : s.memWf) : (cellArrive o s).memWf := by
  unfold cellArrive
  split
  · exact h
  · extract_lets t t1
    have ht : t.memWf := modOut_memWf h
    have ht1 : t1.memWf := by
      unfold t1
      split
      · exact arriveUnicast_memWf ht
      · exact arriveMcast_memWf ht
      · exact arriveResult_memWf ht
      · exact countLeft_memWf ht
    exact streamLosses_memWf (forgetDead_memWf (dropBad_memWf ht1))

theorem freePkt_memWf {o q} (h : s.memWf) : (freePkt o q s).memWf :=
  memWf_ite (countLeft_memWf (modOut_memWf h)) (memWf_ite (freeCredits_memWf (countLeft_memWf (modOut_memWf h)))
    (freeReplicas_memWf (countLeft_memWf (modOut_memWf h))))

theorem passInternal_memWf {o q} (h : s.memWf) : (passInternal o q s).memWf :=
  memWf_ite (mcCount_memWf (freePkt_memWf h)) (memWf_ite (memWf_frame (memWf_ite (mcCount_memWf (freePkt_memWf h))
    (freePkt_memWf h))) (memWf_frame (memWf_ite (mcCount_memWf (freePkt_memWf h)) (freePkt_memWf h))))

theorem enterQueue_memWf {o q} (h : s.memWf) : (enterQueue o q s).memWf :=
  memWf_ite (congest_memWf (modOut_memWf (memWf_ite (bumpPort_memWf h) h))) (modOut_memWf (memWf_ite
    (bumpPort_memWf h) h))

theorem enterPieces_memWf {o q ps} (h : s.memWf) : (enterPieces o q ps s).memWf := by
  induction ps generalizing s with
  | nil => exact h
  | cons p ps ih =>
    cases ps with
    | nil => exact enterQueue_memWf h
    | cons => exact ih (enterQueue_memWf (memWf_frame h))

theorem passChunk_memWf {o q k pass seg c} (h : s.memWf) : (passChunk o q k pass seg c s).memWf := by
  unfold passChunk
  split
  · exact endAll_memWf (freePkt_memWf h)
  · exact freePkt_memWf h
  · exact enterPieces_memWf (countX_memWf h)

theorem passLink_memWf {o l q} (h : s.memWf) : (passLink o l q s).memWf := by
  unfold passLink
  split
  · exact passChunk_memWf h
  · exact memWf_ite (discardAt_memWf h) (enterPieces_memWf h)

theorem toQueue_memWf {o} (h : s.memWf) : (toQueue o s).memWf := by
  unfold toQueue
  split
  · exact h
  · split
    · exact passInternal_memWf h
    · split
      · exact passLink_memWf h
      · exact h

theorem execPacketStart_memWf {l} (h : s.memWf) : OutMemWf (execPacketStart l s) := by
  unfold execPacketStart
  split
  · exact ethStart_memWf (settled_memWf h)
  · exact packetStart_memWf (settled_memWf h)

theorem delivered_memWf {o q} (h : s.memWf) : (delivered o q s).memWf := by
  unfold delivered
  split
  · exact collDelivered_memWf h
  · exact chunkDelivered_memWf h
  · exact memWf_ite (mcCount_memWf h) h

theorem lastByte_memWf {l} (h : s.memWf) : (lastByte l s).memWf := by
  unfold lastByte
  extract_lets
  split
  · exact h
  · split
    · exact setLink_memWf h
    · exact memWf_ite h (memWf_ite (freePkt_memWf (setLink_memWf (memWf_ite (bumpPort_memWf h) h))) (delivered_memWf
      (freePkt_memWf (setLink_memWf (memWf_ite (bumpPort_memWf h) h)))))

theorem execLastByteLeaves_memWf {l} (h : s.memWf) : OutMemWf (execLastByteLeaves l s) := by
  unfold execLastByteLeaves
  split
  · exact ethLast_memWf h
  · exact lastByte_memWf h

/-! ### What comes from the host (chapter 04) -/

theorem takeDesc_memWf {i k bs} (h : s.memWf) : (takeDesc i k bs s).memWf := by
  unfold takeDesc
  extract_lets _ _ t
  split
  · exact complete_memWf h
  · exact h

theorem failDesc_memWf {i k st} (h : s.memWf) : (failDesc i k st s).memWf := by
  unfold failDesc
  split
  next u hu =>
    have hu := memWf_of_eq (takeFree_memWf h) hu
    exact complete_memWf hu

theorem fetchDone_memWf {i k n st bs} (h : s.memWf) : (fetchDone i k n st bs s).memWf :=
  memWf_foldl (fun _ _ hs => memWf_ite (takeDesc_memWf hs) (failDesc_memWf hs)) (memWf_ite (bump_memWf
    (putSqCons_memWf h)) (putSqCons_memWf h))

theorem objectGot_memWf {d st a bs} (h : s.memWf) : (objectGot d st a bs s).memWf := by
  unfold objectGot
  split
  · exact h
  · split
    · exact fwGot_memWf h
    · exact memWf_ite (dmGot_memWf h) (dmFail_memWf h)
    · exact memWf_ite (dmGot_memWf h) (dmFail_memWf h)
    · exact templateGot_memWf h
    · exact programGot_memWf h
    · exact argsGot_memWf h
    · exact pagesGot_memWf h
    · exact coatGot_memWf h
    · exact qpGot_memWf h
    · exact sessionGot_memWf h
    · exact provisionGot_memWf h
    · exact h

theorem pageGot_memWf {st bs} (h : s.memWf) : (pageGot st bs s).memWf := memWf_ite h h

theorem useDone_memWf {u rs} (h : s.memWf) : (useDone u rs s).memWf := by
  unfold useDone
  extract_lets
  split
  · exact pageGot_memWf h
  · exact fetchDone_memWf h
  · exact objectGot_memWf h
  · exact codeGot_memWf h

theorem settleUse_memWf {u} (h : s.memWf) : (settleUse u s).memWf :=
  memWf_ite (issueReads_memWf h) (issueReads_memWf (useDone_memWf h))

theorem hostBad_memWf {r} (h : s.memWf) : (hostBad r s).memWf := raiseEv_memWf h

theorem memRdData_memWf {f} (h : s.memWf) : (memRdData f s).memWf := by
  unfold memRdData
  extract_lets t
  have ht : t.memWf := takeInbox_memWf h
  split
  · exact ht
  · split
    · exact ht
    · exact memWf_ite (settleUse_memWf (memWf_ite (hostBad_memWf ht) ht)) ht

theorem takeFrame_memWf {f} (h : s.memWf) : (takeFrame s f).memWf := by
  unfold takeFrame
  split
  · exact regRd_memWf h
  · exact memWf_ite h h
  · exact h
  · exact h
  · exact h
  · exact memWf_ite h h

theorem flitAck_memWf {flit} (h : s.memWf) : (flitAck flit s).memWf :=
  memWf_ite (enzReplay_memWf (memWf_frame (memWf_ite (enzAck_memWf h) h))) (memWf_ite (enzAck_memWf h) h)

theorem enzenFlit_memWf {flit} (h : s.memWf) : (enzenFlit flit s).memWf := by
  unfold enzenFlit
  extract_lets _ t r
  have ht : t.memWf := flitAck_memWf (memWf_frame h)
  exact memWf_ite h (memWf_ite (memWf_frame h) (memWf_ite h
    (memWf_foldl (fun _ _ hs => takeFrame_memWf hs) (memWf_frame ht))))

/-! ### The tick boundary (chapter 02) -/

theorem ageStep_memWf (h : s.memWf) : (ageStep s).memWf := memWf_ite h (memWf_ite h h)

theorem retryPacket_memWf {x} (h : s.memWf) : (retryPacket s x).memWf := by
  unfold retryPacket
  split
  · exact arriveEnter_memWf (modPart_memWf h)

theorem retryWaiting_memWf (h : s.memWf) : (retryWaiting s).memWf := memWf_foldl (fun _ _ hs => retryPacket_memWf hs) h
theorem nodeStep_memWf (h : s.memWf) : (nodeStep s).memWf := memWf_ite h (nodeCheck_memWf h)

theorem memWf_tickCounts {a b c} (h : s.memWf) : { s with larder.served := a, hawk := b, lanes := c }.memWf := h
theorem freshTick_memWf (h : s.memWf) : (freshTick s).memWf := memWf_tickCounts (returnEnding_memWf h)

theorem boundaryStart_memWf {n} (h : s.memWf) : (boundaryStart n s).memWf := by
  unfold boundaryStart
  extract_lets t u v
  have ht : t.memWf := upstreamStep_memWf (ageStep_memWf (applyDue_memWf (advanceTick_memWf h)))
  have hu : u.memWf := memWf_ite (elect_memWf ht) ht
  have hv : v.memWf := sendMarkers_memWf hu
  exact telemBoundary_memWf (snapshot_memWf (memWf_power hv))

theorem boundaryAdmin_memWf (h : s.memWf) : (boundaryAdmin s).memWf :=
  seqBoundary_memWf (pldmEvent_memWf (applyLevers_memWf (atticBoundary_memWf (applyOffers_memWf h))))

theorem tickBoundary_memWf (h : s.memWf) : (tickBoundary s).memWf := by
  unfold tickBoundary
  split
  · exact h
  · exact retryWaiting_memWf (freshTick_memWf (memWf_tick (boundaryAdmin_memWf (nodeStep_memWf
      (boundaryStart_memWf (settled_memWf h))))))

/-! ### Every command, and every step -/

theorem outMemWf_execArrayZeroDone {a} (h : s.memWf) : OutMemWf (execArrayZeroDone a s) := execArrayZeroDone_memWf a s _ h rfl

/-- What any command answers keeps the memories in canonical form (R393, R535). -/
theorem exec_memWf (h : s.memWf) : ∀ c : Instr, OutMemWf (exec c s)
  | .tickBoundary => tickBoundary_memWf h
  | .tickMarkerReceive _ _ _ => execTickMarkerReceive_memWf h
  | .announceReceive _ _ => execAnnounceReceive_memWf h
  | .masterAnnounceTimeout => execMasterAnnounceTimeout_memWf h
  | .lockDeclared | .lockLost | .tickInEdge _ | .setNumericEffecterValue _ _ | .brakeAssert | .readyAssert | .extest _ =>
      memWf_ite h h
  | .tickLoss => execTickLoss_memWf h
  | .tickStep => execTickStep_memWf h
  | .tickInMissed => execTickInMissed_memWf h
  | .startupMastership => execStartupMastership_memWf h
  | .descriptorAudit => memWf_ite (memWf_foldl (fun _ _ hs => auditRing_memWf hs) h) h
  | .functionOn _ => functionOn_memWf h
  | .functionOff _ => functionOff_memWf h
  | .enzenFlitReceive _ => enzenFlit_memWf h
  | .enzenReplayTimeout => memWf_ite (enzReplay_memWf h) h
  | .enzenSignalDetected => memWf_ite (enzEnter_memWf h) h
  | .enzenFecLockHeld => execEnzenFecLockHeld_memWf h
  | .enzenBringupTimeout => execEnzenBringupTimeout_memWf h
  | .enzenFecLockLost | .enzenNakLimit => memWf_ite (enzEnter_memWf (bumpModule_memWf h)) h
  | .linkCtlCap _ => memWf_ite (enzNegoDone_memWf (sendNow_memWf (memWf_frame (takeInbox_memWf h)))) (takeInbox_memWf h)
  | .linkCtlCapAck => memWf_ite (enzNegoDone_memWf (memWf_frame (takeInbox_memWf h))) (takeInbox_memWf h)
  | .linkCtlCapRetry => memWf_ite (sendHostCap_memWf h) h
  | .levelReq _ => execLevelReq_memWf h
  | .hostReset => execHostReset_memWf h
  | .memRdData _ => memRdData_memWf h
  | .regWr _ _ _ => regWr_memWf h
  | .configBundleApply => bundleApply_memWf h
  | .doorbellPageApply => doorbellApply_memWf (runInner_memWf h)
  | .descriptorFenceRelease _ => execDescriptorFenceRelease_memWf h
  | .descriptorTimedStart _ => timedStart_memWf (closeBoundary_memWf h)
  | .reservedOpcode _ => execReservedOpcode_memWf h
  | .interruptModerationTimeout _ => memWf_ite (cqInterrupt_memWf h) h
  | .nopDesc _ | .coatQuery _ | .exclClear _ | .secState _ => withDesc_memWf (fun _ _ hs => complete_memWf hs) h
  | .ringConfig _ => withDesc_memWf (fun _ _ hs => ringConfig_memWf hs) h
  | .ringEnable _ => withDesc_memWf (fun _ _ hs => ringDesc_memWf (fun _ _ hs => fnEnable_memWf hs) hs) h
  | .ringDisable _ =>
      withDesc_memWf (fun _ _ hs => ringDesc_memWf (fun _ _ hs => memWf_ite (complete_memWf hs) (fnDisable_memWf hs)) hs) h
  | .fabricPacketArrival _ _ => fabricArrival_memWf (settled_memWf h)
  | .rdReq _ | .wr _ | .atFadd64 _ | .atSwap64 _ | .atCas64 _ | .atCas128 _ | .atFaddFp32 _ | .atFaddBf16 _ =>
      memWf_ite (memRequest_memWf h) h
  | .launchPkt _ _ => memWf_ite (launchArrive_memWf h) h
  | .attnQuery _ _ => memWf_ite (attnArrive_memWf h) h
  | .collStart _ _ => takeStart_memWf h
  | .collContrib _ _ => takeContrib_memWf h
  | .collArrive _ _ => takeArrive_memWf h
  | .collCounts _ _ => takeCounts_memWf h
  | .landingCredit _ _ => landingCredit_memWf h
  | .mgmtPkt _ => memWf_ite (takeNotice_memWf (takeDelivered_memWf h)) h
  | .rdData _ => execRdData_memWf h
  | .wrAck _ | .atData _ => withAnswer_memWf (fun _ _ hs => endOwn_memWf hs) h
  | .failPkt _ => memWf_ite (sweepOwn_memWf (takeDelivered_memWf h)) (withAnswer_memWf (fun _ _ hs => endOwn_memWf hs) h)
  | .launchAck _ => execLaunchAck_memWf h
  | .writeTrackingTimeout _ _ => execWriteTrackingTimeout_memWf h
  | .responseTimeout _ => execResponseTimeout_memWf h
  | .linkFrameReceive _ _ => linkFrame_memWf h
  | .nakRepeatTimeout _ => execNakRepeatTimeout_memWf h
  | .linkReplayTimeout _ => memWf_ite (replayNow_memWf h) h
  | .replayLimitRetrain _ => execReplayLimitRetrain_memWf h
  | .linkFallback _ => execLinkFallback_memWf h
  | .linkCap _ _ => execLinkCap_memWf h
  | .linkCapTimeout _ => execLinkCapTimeout_memWf h
  | .levelOffer _ _ => execLevelOffer_memWf h
  | .creditAuditDue _ => execCreditAuditDue_memWf h
  | .audit _ _ => execAudit_memWf h
  | .auditResult _ _ => execAuditResult_memWf h
  | .partitionFreeze _ => execPartitionFreeze_memWf h
  | .resyncSend _ => execResyncSend_memWf h
  | .resync _ _ => execResync_memWf h
  | .partitionUnfreeze _ => execPartitionUnfreeze_memWf h
  | .frozenPartitionTimeout _ _ => memWf_ite (findFailure_memWf h) h
  | .cellArriveOutput _ => cellArrive_memWf h
  | .packetToEgressQueue _ => streamLosses_memWf (toQueue_memWf h)
  | .cellAgeSweep _ => streamLosses_memWf (ageSweep_memWf h)
  | .packetStart _ => execPacketStart_memWf h
  | .poolAudit _ => execPoolAudit_memWf h
  | .poolRebuildDone _ => execPoolRebuildDone_memWf h
  | .linkFailureDeclare _ => execLinkFailureDeclare_memWf h
  | .routeNoticeApply => memWf_ite (nodesAfter_memWf (memWf_foldl (fun _ _ hs => applyNotice_memWf hs) (setPhase_memWf h))) h
  | .crossingWindowRoll _ => memWf_ite (setLink_memWf h) h
  | .coatLoad _ | .secSessionFinish _ =>
      withDesc_memWf (fun _ _ hs => memWf_ite (complete_memWf hs) (hostRead_memWf (addWaits_memWf hs))) h
  | .coatSwitch _ => execCoatSwitch_memWf h
  | .coatAbort _ => execCoatAbort_memWf h
  | .envelopeVerifyDone => verifyDone_memWf h
  | .coatStagingWrite => execCoatStagingWrite_memWf h
  | .frameFillDone _ => execFrameFillDone_memWf h
  | .coatSwitchApply => execCoatSwitchApply_memWf h
  | .undercoatRetire => execUndercoatRetire_memWf h
  | .orderedHoldRelease => execOrderedHoldRelease_memWf h
  | .mcOutcomeRecordTimeout _ _ => execMcOutcomeRecordTimeout_memWf h
  | .swapReq _ => swapRequest_memWf h
  | .gateBankSwap _ => gateBankSwap_memWf (runInner_memWf h)
  | .dmCopy _ | .dmFill _ | .dmCrc _ => withDesc_memWf (fun _ _ hs => dmStart_memWf hs) h
  | .dmAtFadd64 _ | .dmAtSwap64 _ | .dmAtCas64 _ | .dmAtCas128 _ | .dmAtFaddFp32 _ | .dmAtFaddBf16 _ =>
      withDesc_memWf (fun _ _ hs => dmAtomic_memWf hs) h
  | .scrubRead _ _ _ => execScrubRead_memWf h
  | .goReq _ => goRetire_memWf h
  | .frameRetireCopyDone _ => execFrameRetireCopyDone_memWf h
  | .groupEnable _ => withDesc_memWf (fun _ _ hs => groupEnable_memWf hs) h
  | .groupDisable _ => withDesc_memWf (fun _ _ hs => withGroup_memWf (fun _ _ hs => fnDisable_memWf hs) hs) h
  | .templateSet _ => withDesc_memWf (fun _ _ hs => templateSet_memWf hs) h
  | .groupQuery _ => withDesc_memWf (fun _ _ hs => withGroup_memWf (fun _ _ hs => complete_memWf hs) hs) h
  | .collSlotBind _ _ => execCollSlotBind_memWf h
  | .collOpLimitExpired _ _ => execCollOpLimitExpired_memWf h
  | .hawkGrantStep => hawkGrantStep_memWf (runInner_memWf h)
  | .grainAudit => execGrainAudit_memWf h
  | .streamProgram _ => withDesc_memWf (fun _ _ hs => streamProgram_memWf hs) h
  | .streamEnable _ => execStreamEnable_memWf h
  | .streamDisable _ => withDesc_memWf (fun _ _ hs => withStream_memWf (fun _ _ hs => fnDisable_memWf hs) hs) h
  | .streamStart _ => withDesc_memWf (fun _ _ hs => streamStart_memWf hs) h
  | .streamQuery _ => withDesc_memWf (fun _ _ hs => withStream_memWf (fun _ _ hs => complete_memWf hs) hs) h
  | .streamPassStart _ => passStart_memWf h
  | .streamSegmentStart _ => segmentStart_memWf h
  | .streamChunkRead _ => chunkRead_memWf (settled_memWf h)
  | .streamDeadline _ _ => execStreamDeadline_memWf h
  | .streamRecordTimeout _ _ => execStreamRecordTimeout_memWf h
  | .streamRepairStart _ _ => execStreamRepairStart_memWf h
  | .kernelLoad _ => withDesc_memWf (fun _ _ hs => kernelLoad_memWf hs) h
  | .kernelEnable _ => withDesc_memWf (fun _ _ hs => withKernel_memWf (fun _ _ hs => enableDesc_memWf hs) hs) h
  | .kernelDisable _ => withDesc_memWf (fun _ _ hs => withKernel_memWf (fun _ _ hs => fnDisable_memWf hs) hs) h
  | .kernelRun _ => withDesc_memWf (fun _ _ hs => kernelRun_memWf hs) h
  | .kernelQuery _ => withDesc_memWf (fun _ _ hs => withKernel_memWf (fun _ _ hs => complete_memWf hs) hs) h
  | .seqSet _ => withDesc_memWf (fun _ _ hs => seqSet_memWf hs) h
  | .seqPages _ => withDesc_memWf (fun _ _ hs => seqPages_memWf hs) h
  | .seqClear _ => withDesc_memWf (fun _ _ hs => seqClear_memWf hs) h
  | .kernelCodeCopyDone _ => memWf_ite (modKernel_memWf (memWf_foldl (fun _ _ hs => placeWrite_memWf _ _ _ hs) h)) h
  | .arrayZeroDone _ => outMemWf_execArrayZeroDone h
  | .runStart _ => runStart_memWf h
  | .runLimitExpired _ _ => execRunLimitExpired_memWf h
  | .add _ | .sub _ | .mul _ | .mulhu _ | .and _ | .or _ | .xor _ | .shl _ | .shr _ | .sar _ | .min _ | .max _ | .minu _
  | .maxu _ | .slt _ | .sltu _ | .addi _ | .andi _ | .ori _ | .xori _ | .shli _ | .shri _ | .sari _ | .li _ | .lih _
  | .fadd _ | .fsub _ | .fmul _ | .fma _ | .flt _ | .itof _ | .ftoi _ | .vadd _ | .vsub _ | .vmul _ | .vfma _ | .vmin _
  | .vmax _ | .vabs _ | .vneg _ | .vand _ | .vor _ | .vxor _ | .vshl _ | .vshr _ | .vsar _ | .vmov _ | .vbcast _ | .vlane _
  | .vext _ | .vins _ | .vperm _ | .vexp _ | .vexp2 _ | .vlog2 _ | .vrcp _ | .vrsqrt _ | .vsqrt _ | .vcmpr _ | .vexpd _
  | .vsel _ | .pcmp _ | .pcmps _ | .pand _ | .por _ | .pxor _ | .pnot _ | .pset _ | .pclr _ | .pfirst _ | .pcnt _ | .plt _
  | .pmovs _ | .pmovp _ | .cvt _ | .bfpe _ | .bfpd _ | .dot _ | .dots _ | .radd _ | .rmax _ | .rmin _ | .rmaxi _ | .rmini _
  | .vscan _ => onThread_memWf h
  | .bfpq _ | .gets _ => issue_memWf (fun _ _ _ _ hs => setThr_memWf hs) h
  | .ld _ | .lds _ => issue_memWf (fun _ _ _ _ hs => scalarLoad_memWf hs) h
  | .st _ => issue_memWf (fun _ _ _ _ hs => scalarStore_memWf hs) h
  | .vld _ => issue_memWf (fun _ _ _ _ hs => vectorLoad_memWf hs) h
  | .vst _ => issue_memWf (fun _ _ _ _ hs => vectorStore_memWf hs) h
  | .vlds _ | .vldg _ => issue_memWf (fun _ _ _ _ hs => lanesLoad_memWf hs) h
  | .vsts _ | .vstg _ => issue_memWf (fun _ _ _ _ hs => lanesStore_memWf hs) h
  | .afadd64 _ | .aswap64 _ | .acas64 _ | .acas128 _ | .afaddf32 _ | .afaddbf16 _ =>
      issue_memWf (fun _ _ _ _ hs => atomicAcc_memWf hs) h
  | .fence _ => execFence_memWf h
  | .bar _ => execBar_memWf h
  | .launchInstr _ => issue_memWf (fun _ _ _ _ hs => launchFrom_memWf hs) h
  | .br _ | .bz _ | .bnz _ | .bpany _ | .bpnone _ | .call _ | .ret _ | .nop _ | .loop _ => control_memWf h
  | .endThread _ => issue_memWf (fun _ _ _ _ hs => settleRun_memWf (settleBar_memWf (setThr_memWf hs))) h
  | .qpConfig _ =>
      withDesc_memWf (fun _ _ hs => withQp_memWf (fun _ _ hs => memWf_ite (complete_memWf hs) (hostRead_memWf (modFlight_memWf hs))) hs) h
  | .qpEnable _ => withDesc_memWf (fun _ _ hs => withQp_memWf (fun _ _ hs => enableDesc_memWf hs) hs) h
  | .qpDisable _ => withDesc_memWf (fun _ _ hs => withQp_memWf (fun _ _ hs => fnDisable_memWf hs) hs) h
  | .qpQuery _ => withDesc_memWf (fun _ _ hs => withQp_memWf (fun _ _ hs => complete_memWf hs) hs) h
  | .gwWrite _ | .gwRead _ | .gwSend _ => withDesc_memWf (fun _ _ hs => gwStart_memWf (gwDesc_memWf hs)) h
  | .gwRecvPost _ => execGwRecvPost_memWf h
  | .frameDiscarded _ _ => memWf_ite h (bumpEth_memWf (ethCame_memWf h))
  | .arpRequest _ _ | .neighbourSolicitation _ _ => memWf_ite h (ethReply_memWf h)
  | .pfcFrameReceive _ _ _ =>
      memWf_ite h (memWf_foldl (fun _ _ hs => memWf_ite (bumpEth_memWf (modEth_memWf hs)) hs) (ethCame_memWf h))
  | .pfcPauseRepeat _ _ => execPfcPauseRepeat_memWf h
  | .sendFirst _ | .sendMiddle _ | .sendLast _ | .sendOnly _ | .rdmaWriteFirst _ | .rdmaWriteMiddle _ | .rdmaWriteLast _
  | .rdmaWriteOnly _ | .rdmaReadRequest _ => roceArrives_memWf h
  | .rdmaReadResponse _ => execRdmaReadResponse_memWf h
  | .acknowledge _ => roceCame_memWf (fun _ _ _ hs => gwPump_memWf (gwProgress_memWf (gwAckTo_memWf hs))) h
  | .nakPsnSequenceError _ => roceCame_memWf (fun _ _ _ hs => gwResend_memWf (gwAckTo_memWf (bumpEth_memWf hs))) h
  | .rnrNak _ =>
      roceCame_memWf (fun _ _ _ hs => memWf_ite (gwExhaust_memWf (gwAckTo_memWf (bumpEth_memWf hs)))
        (modQp_memWf (gwAckTo_memWf (bumpEth_memWf hs)))) h
  | .nakRemoteAccessError _ | .nakInvalidRequest _ | .nakRemoteOperationalError _ => gwRefused_memWf h
  | .cnp _ => execCnp_memWf h
  | .qpAckTimeout _ => execQpAckTimeout_memWf h
  | .qpRnrTimer _ => execQpRnrTimer_memWf h
  | .trainingCap _ _ => onTrain_memWf (fun _ _ hs => trainCapIn_memWf hs) h
  | .trainingStep _ _ _ => execTrainingStep_memWf h
  | .trainingResult _ _ _ => onTrain_memWf (fun _ _ hs => trainResultIn_memWf hs) h
  | .trainingLoop _ _ _ => onTrain_memWf (fun _ _ hs => trainLoopIn_memWf hs) h
  | .laneDetectDone _ _ => execLaneDetectDone_memWf h
  | .prbsWindowEnd _ _ => judgeLink_memWf (modLanes_memWf h)
  | .laneStateTimeout _ _ => execLaneStateTimeout_memWf h
  | .laneFault _ _ => execLaneFault_memWf h
  | .laneStateBlock _ _ => execLaneStateBlock_memWf h
  | .recoverRetry _ => execRecoverRetry_memWf h
  | .laserFault _ _ | .laserFaultClear _ _ _ => laserCheck_memWf (modLaser_memWf h)
  | .opticalMeasure _ => execOpticalMeasure_memWf h
  | .farLoopTimeout _ => modLanes_memWf h
  | .failedClear _ => clearFailed_memWf h
  | .fallbackClear _ => setFallback_memWf h
  | .secSessionOpen _ => execSecSessionOpen_memWf h
  | .secProvision _ =>
      withDesc_memWf (fun _ _ hs => memWf_ite (complete_memWf hs) (memWf_ite (complete_memWf hs) (hostRead_memWf (addWaits_memWf hs)))) h
  | .provisionApply => execProvisionApply_memWf h
  | .secZeroise _ => withDesc_memWf (fun _ _ hs => complete_memWf (alarmResponse_memWf (raiseEv_memWf hs))) h
  | .secFloorRaise _ => withDesc_memWf (fun _ _ hs => memWf_ite (complete_memWf hs) (complete_memWf hs)) h
  | .tamperTrip _ => memWf_ite (raiseEv_memWf (bumpModule_memWf h)) (alarmResponse_memWf (raiseEv_memWf (bumpModule_memWf h)))
  | .lockdownEnter => lockdownEnter_memWf h
  | .getVersion _ | .getCapabilities _ | .negotiateAlgorithms _ | .getDigests _ | .getCertificate _ _ _ =>
      spdmReply_memWf (fun _ hs => hs) h
  | .challenge _ _ => execChallenge_memWf h
  | .getMeasurements _ _ _ _ => execGetMeasurements_memWf h
  | .vendorDefinedRequest _ _ _ _ => execVendorDefinedRequest_memWf h
  | .fwStage _ | .fwActivate _ | .fwCommit _ => withDesc_memWf (fun _ _ hs => fwStart_memWf hs) h
  | .atticRestartDone _ => execAtticRestartDone_memWf h
  | .watchdogExpiry => atticRestart_memWf h
  | .drain _ => withDesc_memWf (fun _ _ hs => memWf_ite (complete_memWf hs) (prepareAdmin_memWf hs)) h
  | .undrain _ | .moduleReset _ => withDesc_memWf (fun _ _ hs => prepareAdmin_memWf hs) h
  | .drainedPoint => execDrainedPoint_memWf h
  | .drainLimitExpired => memWf_ite (drainsEnd_memWf h) h
  | .pldmRequest _ => execPldmRequest_memWf h
  | .powerOnReset | .pinReset => resetAll_memWf
  | .powerGood _ => execPowerGood_memWf h
  | .supplyLow | .supplyRecovered | .brakeRelease | .bypass | .idcode | .samplePreload _ => h
  | .moduleResetApply => memWf_ite (resetAll_memWf) h
  | .powerCap _ => execPowerCap_memWf h
  | .powerMeasure _ _ => execPowerMeasure_memWf h
  | .thermalShutdown => memWf_frame (resetAll_memWf)
  | .readyTimeout => execReadyTimeout_memWf h
  | .faultLogRead _ => withDesc_memWf (fun _ _ hs => faultLogRead_memWf hs) h
  | .ctrRead _ => withDesc_memWf (fun _ _ hs => ctrRead_memWf hs) h
  | .dumpConfig _ => withDesc_memWf (fun _ _ hs => dumpConfig_memWf hs) h
  | .peepConfig _ => withDesc_memWf (fun _ _ hs => peepConfig_memWf hs) h
  | .telemCopy _ => withDesc_memWf (fun _ _ hs => telemCopy_memWf hs) h
  | .dumpDue _ => execDumpDue_memWf h
  | .dumpRecordComplete _ => execDumpRecordComplete_memWf h
  | .portCtrlEnable _ | .ringCtrlEnable _ => fnEnable_memWf h
  | .portCtrlDisable _ | .ringCtrlDisable _ => fnDisable_memWf h
  | .coreSlot => coreSlot_memWf h
  | .larderControllerSlot _ => controllerSlot_memWf h
  | .lastByteLeaves _ => execLastByteLeaves_memWf h
  | .alignComplete _ _ => execAlignComplete_memWf h
  | .ethernetPortService _ => execEthernetPortService_memWf h
  | .larderPhaseEnd => execLarderPhaseEnd_memWf h
  | .flashWriteDone _ => execFlashWriteDone_memWf h
  | .oeLaserEnable _ _ _ => laserEnable_memWf h

theorem memWf_of_outMemWf {o : Out} (h : OutMemWf o) (e : o = .next t) : t.memWf := by
  subst e
  exact h

/-- Settles O59: a step is a command on the state with the queue's rest, or nothing, and every command keeps both memories. -/
theorem memoriesStayCanonical : Obligations.MemoriesStayCanonical := by
  intro s t h e
  unfold step at e
  split at e
  · cases e
    exact h
  next c rest _ =>
    have h' : { s with pending := rest }.memWf := h
    exact memWf_of_outMemWf (exec_memWf h' c) e

end Machine
end Sys2Proof
end

section
/-!
PROOF. The controllers of the Larder's stacks (R394, R407): what a controller takes next, what serving a request leaves of the queues, and
the line that a fill writes.
-/
namespace Sys2Proof
namespace Machine
set_option Elab.async false

/-! ### What a controller takes next (R407, R409) -/

section
variable {s : State} {st : Nat}

/-- A controller takes one of its waiters: none comes from elsewhere. -/
theorem nextReq_mem {x : Nat × Option LarderReq} (h : nextReq s st = some x) : x ∈ waitersAt s st := by
  unfold nextReq at h
  extract_lets q below at h
  refine List.foldlRecOn (motive := fun b => ∀ x, b = some x → x ∈ q) _ _ (fun _ h => by cases h) (fun b hb y hy => ?_) x h
  have hyq : y ∈ q := by
    split at hy
    · exact hy
    · exact List.mem_of_mem_filter hy
  split
  · rintro x ⟨rfl⟩
    exact hyq
  next z =>
    split
    · rintro x ⟨rfl⟩
      exact hyq
    · exact hb

/-- A lone waiter is taken, whether or not it is below its class's guarantee. -/
theorem nextReq_single {x : Nat × Option LarderReq} (h : waitersAt s st = [x]) : nextReq s st = some x := by
  unfold nextReq
  rw [h]
  extract_lets q below
  have hbelow : below = [] ∨ below = [x] := by
    simp only [below, q, List.filter_cons, List.filter_nil]
    split
    · exact .inr rfl
    · exact .inl rfl
  rcases hbelow with hb | hb <;> rw [hb] <;> rfl

theorem mem_waitersAt_request {i : Nat} {r : LarderReq} (h : (i, some r) ∈ waitersAt s st) :
    r ∈ tblGet [] s.larder.waiting st ∧ mayStartReq s r = true := by
  rcases List.mem_append.mp h with h | h
  · obtain ⟨x, hx, he⟩ := List.mem_map.mp h
    obtain ⟨-, rfl⟩ : x.i = i ∧ x = r := by simpa using he
    exact List.mem_filter.mp hx
  · split at h
    · simp at h
    · cases h

/-- The one request that waits, where no frame is filled, is the stack's one waiter. -/
theorem waitersAt_single {r : LarderReq} (hq : tblGet [] s.larder.waiting st = [r]) (hf : s.larder.fills = [])
    (hm : mayStartReq s r = true) : waitersAt s st = [(r.i, some r)] := by
  simp [waitersAt, hq, hf, hm]

theorem nextReq_idle (hq : tblGet [] s.larder.waiting st = []) (hf : s.larder.fills = []) : nextReq s st = none := by
  simp [nextReq, waitersAt, hq, hf]

/-- A stack where nothing waits and no fill is under way stays as it is. -/
theorem controllerSlot_idle (hq : tblGet [] s.larder.waiting st = []) (hf : s.larder.fills = []) : ∀ n, controllerSlot st n s = s
  | 0 => rfl
  | _ + 1 => by simp only [controllerSlot, nextReq_idle hq hf]

theorem controllerSlot_none (h : nextReq s st = none) (n) : controllerSlot st (n + 1) s = s := by
  simp only [controllerSlot, h]

theorem controllerSlot_fill {i : Nat} (h : nextReq s st = some (i, none)) (n) :
    controllerSlot st (n + 1) s = controllerSlot st n (fillOne st s) := by
  simp only [controllerSlot, h]

theorem controllerSlot_request {i : Nat} {r : LarderReq} (h : nextReq s st = some (i, some r)) (n) :
    controllerSlot st (n + 1) s = controllerSlot st n (perform r (noteTaken r { s with
      larder.waiting := tblSet [] s.larder.waiting st ((tblGet [] s.larder.waiting st).erase r) })) := by
  simp only [controllerSlot, h]

end

/-! ### What serving a request leaves of the queues -/

/-- The requests that wait at the controllers, and the frames being filled. -/
def queuesOf (s : State) : Tbl (List LarderReq) × List Fill := (s.larder.waiting, s.larder.fills)

theorem HostOnly.queues {s t : State} (h : HostOnly s t) : queuesOf t = queuesOf s := by
  rw [queuesOf, h.mems.1]
  exact Eq.refl _

theorem CoreOnly.queues {s t : State} (h : CoreOnly s t) : queuesOf t = queuesOf s := by
  rw [queuesOf, h.kept.1]
  rfl

theorem queuesOf_foldl {α : Type} {f : State → α → State} (h : ∀ s x, queuesOf (f s x) = queuesOf s) (xs : List α) (s : State) :
    queuesOf (xs.foldl f s) = queuesOf s :=
  List.foldlRecOn (motive := fun t => queuesOf t = queuesOf s) xs f rfl fun t ht x _ => (h t x).trans ht

theorem queuesOf_countLine (cls wr tenant s x) : queuesOf (countLine cls wr tenant s x) = queuesOf s := by
  unfold countLine
  extract_lets st t _ u
  split
  · rfl
  · rfl

theorem queuesOf_noteTaken (r s) : queuesOf (noteTaken r s) = queuesOf s := by
  unfold noteTaken
  extract_lets t
  have ht : queuesOf t = queuesOf s := queuesOf_foldl (f := noteLine) (fun _ _ => rfl) ..
  split
  · exact ht
  · exact ht

theorem queuesOf_retireFrame (f st s) : queuesOf (retireFrame f st s) = queuesOf s := by
  unfold retireFrame
  extract_lets room t
  have ht : queuesOf t = queuesOf s := ((raiseEv_host ..).trans (bump_host ..)).queues
  split
  · rfl
  · split
    · exact ht
    · exact ht

theorem queuesOf_foundBad (row addr pl s) : queuesOf (foundBad row addr pl s) = queuesOf s := by
  unfold foundBad
  extract_lets t
  have ht : queuesOf t = queuesOf s := (raiseEv_host ..).queues
  split
  · exact (queuesOf_foldl (fun s _ => (queuesOf_retireFrame ..).trans (HostOnly.queues (bump_host ..))) ..).trans ht
  · exact ht

theorem queuesOf_writeRuns (s bs ok) : ∀ rs, queuesOf (writeRuns rs bs s ok).1 = queuesOf s
  | [] => rfl
  | (b, n) :: rs => by
    simp only [writeRuns]
    refine (queuesOf_writeRuns _ _ _ rs).trans ?_
    split
    · rfl
    · rfl

theorem queuesOf_placeWrite (pl bs s) : queuesOf (placeWrite pl bs s).1 = queuesOf s := by
  cases pl with
  | larder runs => exact queuesOf_writeRuns ..
  | array b => rfl
  | counter a => rfl

/-- A stack at whose controller nothing waits while no frame is filled. -/
def StackIdle (st : Nat) (s : State) : Prop :=
  tblWf [] s.larder.waiting = true ∧ tblGet [] s.larder.waiting st = [] ∧ s.larder.fills = []

section
variable {st : Nat} {s t : State}

theorem StackIdle.of_queues (h : StackIdle st s) (hq : queuesOf t = queuesOf s) : StackIdle st t := by
  obtain ⟨hwaiting, hfills⟩ := Prod.mk.inj hq
  obtain ⟨hwf, hempty, hnone⟩ := h
  exact ⟨hwaiting ▸ hwf, hwaiting ▸ hempty, hfills ▸ hnone⟩

/-- Marking the pieces of a read that failed puts none into a queue (R413). -/
theorem StackIdle.markFailed (h : StackIdle st s) (p) : StackIdle st (markFailed p s) := by
  obtain ⟨hwf, hempty, hnone⟩ := h
  exact ⟨tblWf_tblMap _ _ _ hwf, by simp [Machine.markFailed, tblGet_tblMap, hwf, hempty], hnone⟩

theorem StackIdle.readPiece (h : StackIdle st s) (r) : StackIdle st (readPiece r s) := by
  unfold Machine.readPiece
  extract_lets p pl _ t
  have ht : StackIdle st t := h.of_queues (queuesOf_foundBad ..)
  split
  · exact h.of_queues (inject_core ..).queues
  · split
    · exact ht
    · exact (ht.of_queues (sendFail_core ..).queues).markFailed p

theorem StackIdle.writePacket (h : StackIdle st s) (r) : StackIdle st (writePacket r s) := by
  have hw : StackIdle st (placeWrite r.pl r.pkt.payload s).1 := h.of_queues (queuesOf_placeWrite ..)
  unfold Machine.writePacket
  extract_lets p o
  split
  next u ok hu =>
    rw [hu] at hw
    extract_lets v
    have hv : StackIdle st v := by
      unfold v
      split
      · exact hw
      · exact hw.of_queues (queuesOf_foundBad ..)
    split
    · exact hv.of_queues (mcCount_core ..).queues
    · split
      · exact hv.of_queues (countWrite_core ..).queues
      · exact hv.of_queues (sendFail_core ..).queues

theorem queuesOf_placeAtomic (op pl x y s) : queuesOf (placeAtomic op pl x y s).2 = queuesOf s := by
  simp only [placeAtomic]
  split
  · rfl
  · refine (queuesOf_placeWrite ..).trans ?_
    split
    · exact HostOnly.queues (bump_host ..)
    · rfl

theorem StackIdle.atomicPacket (h : StackIdle st s) (r) : StackIdle st (atomicPacket r s) := by
  unfold Machine.atomicPacket
  extract_lets p n
  split
  next x y _ =>
  have ha : StackIdle st (placeAtomic p.opcode.toNat r.pl x y s).2 := h.of_queues (queuesOf_placeAtomic ..)
  split
  next u hu =>
    rw [hu] at ha
    exact (ha.of_queues (queuesOf_foundBad ..)).of_queues (sendFail_core ..).queues
  next old u hu =>
    rw [hu] at ha
    exact ha.of_queues (inject_core ..).queues

/-- Performing a request puts none into a queue. -/
theorem StackIdle.perform (h : StackIdle st s) (r) : StackIdle st (perform r s) := by
  have hc : StackIdle st (linesCounted r s) := h.of_queues (queuesOf_foldl (fun u x => queuesOf_countLine _ _ _ u x) ..)
  unfold Machine.perform
  extract_lets t
  split
  · exact hc.readPiece r
  · split
    · exact hc.writePacket r
    · exact hc.atomicPacket r

theorem StackIdle.controllerSlot (h : StackIdle st s) (n) : controllerSlot st n s = s := controllerSlot_idle h.2.1 h.2.2 n

/-- The one request that waits is served, and the controller stops (R407, logs 78 and 121). -/
theorem controllerSlot_single {r : LarderReq} (hq : tblGet [] s.larder.waiting st = [r]) (hf : s.larder.fills = [])
    (hm : mayStartReq s r = true) (hwf : tblWf [] s.larder.waiting = true) (n) : controllerSlot st (n + 1) s =
      perform r (noteTaken r { s with larder.waiting := tblSet [] s.larder.waiting st [] }) := by
  have hidle : StackIdle st { s with larder.waiting := tblSet [] s.larder.waiting st [] } :=
    ⟨tblWf_tblSet [] _ st [] hwf, tblGet_tblSet_self [] _ st [] hwf, hf⟩
  rw [controllerSlot_request (nextReq_single (waitersAt_single hq hf hm)), hq, List.erase_cons_head]
  exact ((hidle.of_queues (queuesOf_noteTaken r _)).perform r).controllerSlot n

end

/-! ### The line that a fill writes (R389, R394) -/

/-- The line that a fill writes next lies in its frame. -/
theorem fillLine_inside {f : Fill} {st n x : Nat} (h : fillLine f st = some (n, x)) : f.frame * 8192 ≤ x ∧ x < (f.frame + 1) * 8192 := by
  obtain ⟨m, -, hm⟩ := List.exists_of_findSome?_eq_some h
  dsimp only at hm
  split at hm
  next hx =>
    obtain ⟨-, rfl⟩ : m = n ∧ _ = x := by simpa using hm
    omega
  · cases hm

theorem zeroLine_inside {x a : Nat} (h : a / 256 = x) (s : State) : tblGet 0 (zeroLine x s).larder.mem a = 0 :=
  tblGet_filter_dropped (fun _ => by simp [h]) _

theorem zeroLine_outside {x a : Nat} (h : a / 256 ≠ x) (s : State) : tblGet 0 (zeroLine x s).larder.mem a = tblGet 0 s.larder.mem a :=
  tblGet_filter_kept (fun _ => by simp [h]) _

/-- The books of a stack that has taken a line of a fill. -/
def fillBooked (st x : Nat) (s : State) : State := countLine .internal true none (noteLine s st) x

theorem fillBooked_booked (st x s) : Booked s (fillBooked st x s) :=
  Booked.trans (t := noteLine s st) ⟨rfl, rfl, rfl⟩ (countLine_booked ..)

section
variable {s : State} {f : Fill} {st n x : Nat}

/-- A frame alone in being filled has its next line of the stack written, and moves past its row. -/
theorem fillOne_single (hf : s.larder.fills = [f]) (h : fillLine f st = some (n, x)) : fillOne st s =
    zeroLine x { fillBooked st x s with larder.fills := [{ f with rows := tblSet 0 f.rows st (n + 1) }] } := by
  have hfills : (fillBooked st x s).larder.fills = [f] :=
    (congrArg Prod.snd (queuesOf_countLine .internal true none (noteLine s st) x)).trans hf
  have hfirst : s.larder.fills.findIdx? (fun g => (fillLine g st).isSome) = some 0 := by simp [hf, h, List.findIdx?_cons]
  have hline : (s.larder.fills[0]?).bind (fun g => (fillLine g st).map (fun z => (g, z))) = some (f, n, x) := by simp [hf, h]
  simp only [fillOne, hfirst, hline]
  change zeroLine x { fillBooked st x s with larder.fills := (fillBooked st x s).larder.fills.set 0 _ } = _
  rw [hfills]
  rfl

theorem fillOne_writes_line (hf : s.larder.fills = [f]) (h : fillLine f st = some (n, x)) :
    let t := fillOne st s
    (∀ a, a / 256 = x → tblGet 0 t.larder.mem a = 0) ∧ (∀ a, a / 256 ≠ x → tblGet 0 t.larder.mem a = tblGet 0 s.larder.mem a)
      ∧ f.frame * 8192 ≤ x ∧ x < (f.frame + 1) * 8192 ∧ (∃ g, t.larder.fills = [g] ∧ g.frame = f.frame ∧ tblGet 0 g.rows st = n + 1) := by
  intro t
  obtain ⟨hlo, hhi⟩ := fillLine_inside h
  have ht : t = _ := fillOne_single hf h
  have hmem : (fillBooked st x s).larder.mem = s.larder.mem := (fillBooked_booked st x s).1
  rw [ht]
  exact ⟨fun a ha => zeroLine_inside ha _, fun a ha => (zeroLine_outside ha _).trans (congrArg (tblGet 0 · a) hmem), hlo, hhi,
    _, rfl, rfl, tblGet_tblSet_of_ne 0 _ _ _ (Nat.succ_ne_zero n)⟩

end

end Machine
end Sys2Proof
end

section
/-!
PROOF. Forgotten writes (R175), the end of a frame's copy (R416), scrub reads and retirement (R414 to R416, Table 11-16), and the statement of
LarderControllersScrubRetire.
-/
namespace Sys2Proof
namespace Machine
set_option Elab.async false

/-! ### WRITE_TRACKING_TIMEOUT (R175) and FRAME_RETIRE_COPY_DONE (R416) -/

section
variable {s : State}

theorem writeTrackingTimeout_forgets {src : BitVec 12} {tag : BitVec 16} {w : WriteTrack}
    (h : s.items.track.find? (fun t => t.src = src && t.tag = tag) = some w) (hage : ageLimit s + 8 ≤ ageOf s w.last) :
    exec (.writeTrackingTimeout src tag) s = .next { s with
      items.track := s.items.track.filter (fun x => !(x.src = src && x.tag = tag)), items.dropped := s.items.dropped + 1 } := by
  change execWriteTrackingTimeout src tag s = _
  simp only [execWriteTrackingTimeout, h, if_pos hage]

theorem writeTrackingTimeout_young {src : BitVec 12} {tag : BitVec 16}
    (h : ∀ w ∈ s.items.track, w.src = src → w.tag = tag → ageOf s w.last < ageLimit s + 8) :
    NoEffect (.writeTrackingTimeout src tag) s := by
  change execWriteTrackingTimeout src tag s = _
  unfold execWriteTrackingTimeout
  split
  next w hw =>
    obtain ⟨hsrc, htag⟩ : w.src = src ∧ w.tag = tag := by simpa using List.find?_some hw
    rw [if_neg (Nat.not_le.mpr (h w (List.mem_of_find?_eq_some hw) hsrc htag))]
  · rfl

theorem frameRetireCopyDone_remaps {f : BitVec 20} {r : Retire} (h : s.larder.retiring.find? (fun r => r.frame = f.toNat) = some r)
    (h0 : s.tick.slot = 0) (hsince : r.since ≠ s.tick.elapsed) :
    Completes (.frameRetireCopyDone f) s fun t => tblGet none t.larder.remap f.toNat = some r.spare
      ∧ (∀ x, x ≠ f.toNat → tblGet none t.larder.remap x = tblGet none s.larder.remap x)
      ∧ t = { s with larder := { s.larder with
          remap := t.larder.remap, retiring := s.larder.retiring.filter (fun x => x.frame ≠ f.toNat),
          goFrame := if s.larder.goFrame = some f.toNat then none else s.larder.goFrame } } := by
  have hframe : r.frame = f.toNat := by simpa using List.find?_some h
  have hdue : (s.tick.slot = 0 && r.since ≠ s.tick.elapsed) = true := by simp [h0, hsince]
  refine ⟨_, by change execFrameRetireCopyDone f s = _; simp only [execFrameRetireCopyDone, h, if_pos hdue, hframe]; rfl, ?_⟩
  exact ⟨tblGet_tblSet_of_ne none _ _ _ (Option.some_ne_none _), fun x hx => tblGet_tblSet_ne none s.larder.remap _ x (some r.spare) hx, rfl⟩

theorem frameRetireCopyDone_waits {f : BitVec 20}
    (h : s.tick.slot ≠ 0 ∨ ∀ r ∈ s.larder.retiring, r.frame = f.toNat → r.since = s.tick.elapsed) :
    NoEffect (.frameRetireCopyDone f) s := by
  change execFrameRetireCopyDone f s = _
  unfold execFrameRetireCopyDone
  split
  next r hr =>
    have hframe : r.frame = f.toNat := by simpa using List.find?_some hr
    have hwait : ¬ (s.tick.slot = 0 && r.since ≠ s.tick.elapsed) = true := by
      rcases h with h | h
      · simp [h]
      · simp [h r (List.mem_of_find?_eq_some hr) hframe]
    rw [if_neg hwait]
  · rfl

end

/-! ### Retirement (R415, R416, Table 11-16) -/

/-- The Larder and the Attic differ, and what an event may change. -/
def LarderHost (s t : State) : Prop := HostOnly { s with larder := t.larder, attic := t.attic } t

theorem HostOnly.larderHost {s t : State} (h : HostOnly s t) : LarderHost s t := by
  obtain ⟨x, y, z, rfl⟩ := h
  exact ⟨x, y, z, Eq.refl _⟩

theorem LarderHost.trans {s t u : State} (h : LarderHost s t) (k : LarderHost t u) : LarderHost s u := by
  obtain ⟨_, _, _, ht⟩ := h
  obtain ⟨x, y, z, hu⟩ := k
  refine ⟨x, y, z, hu.trans ?_⟩
  rw [ht]

/-- The event and the count of a retirement, refused or not. -/
def retireNoted (f st : Nat) (refused : Bool) (s : State) : State :=
  bump (stackPage st) 13 1 (raiseEv 0x17 st (f + refused.toNat <<< 20) 0 s)

section
variable {s : State} {f st : Nat}

theorem retireNoted_host (b) : HostOnly s (retireNoted f st b s) := (raiseEv_host ..).trans (bump_host ..)

theorem retireNoted_event (b : Bool) : ∃ e, (retireNoted f st b s).counts.sideband = s.counts.sideband ++ [e] ∧ e.code = 0x17
    ∧ e.unit = BitVec.ofNat 16 st ∧ e.detail = BitVec.ofNat 128 (f + b.toNat <<< 20) :=
  ⟨_, raiseEv_sideband .., rfl, rfl, rfl⟩

/-- The Larder once a free spare takes the copy of the frame. -/
def spareTaken (f : Nat) (s : State) : Larder :=
  { s.larder with
    retiring := s.larder.retiring ++ [{ frame := f, spare := s.larder.sparesUsed, since := s.tick.elapsed }]
    sparesUsed := s.larder.sparesUsed + 1 }

/-- The Larder once the retirement of the frame is refused. -/
def retireRefused (f : Nat) (s : State) : Larder :=
  { s.larder with refused := true, goFrame := if s.larder.goFrame = some f then none else s.larder.goFrame }

/-- The Attic once the frame stands in its log of retired frames. -/
def retireLogged (f : Nat) (s : State) : Attic :=
  { s.attic with
    retireLog := if s.attic.retireLog.contains f || s.attic.flash.retired.contains f then s.attic.retireLog else s.attic.retireLog ++ [f] }

theorem retireFrame_again (h : s.larder.retiring.any (fun r => r.frame = f) = true) : retireFrame f st s = s := if_pos h

theorem retireFrame_spare (h : s.larder.retiring.any (fun r => r.frame = f) = false) (hroom : s.larder.sparesUsed < 512) :
    retireFrame f st s = { retireNoted f st false s with larder := spareTaken f s, attic := retireLogged f s } := by
  obtain ⟨x, y, z, hu⟩ := retireNoted_host (s := s) (f := f) (st := st) false
  refine (if_neg (by rw [h]; exact Bool.false_ne_true)).trans ((if_pos hroom).trans ?_)
  have hevent : bump (stackPage st) 13 1 (raiseEv 0x17 st (f + (decide (¬ s.larder.sparesUsed < 512)).toNat <<< 20) 0 s)
      = retireNoted f st false s := by simp only [hroom, retireNoted, not_true, decide_false]
  rw [hevent, hu]
  rfl

theorem retireFrame_full (h : s.larder.retiring.any (fun r => r.frame = f) = false) (hfull : 512 ≤ s.larder.sparesUsed) :
    retireFrame f st s = { retireNoted f st true s with larder := retireRefused f s } := by
  obtain ⟨x, y, z, hu⟩ := retireNoted_host (s := s) (f := f) (st := st) true
  refine (if_neg (by rw [h]; exact Bool.false_ne_true)).trans ((if_neg (Nat.not_lt.mpr hfull)).trans ?_)
  have hevent : bump (stackPage st) 13 1 (raiseEv 0x17 st (f + (decide (¬ s.larder.sparesUsed < 512)).toNat <<< 20) 0 s)
      = retireNoted f st true s := by simp only [Nat.not_lt.mpr hfull, retireNoted, not_false_eq_true, decide_true]
  rw [hevent, hu]
  rfl

theorem retireFrame_takes_spare (h : s.larder.retiring.any (fun r => r.frame = f) = false) (hroom : s.larder.sparesUsed < 512) :
    let t := retireFrame f st s
    t.larder = spareTaken f s
      ∧ (∃ e, t.counts.sideband = s.counts.sideband ++ [e] ∧ e.code = 0x17 ∧ e.unit = BitVec.ofNat 16 st ∧ e.detail = BitVec.ofNat 128 f)
      ∧ HostOnly { s with larder := t.larder, attic := t.attic } t := by
  intro t
  have ht : t = _ := retireFrame_spare h hroom
  obtain ⟨x, y, z, hu⟩ := retireNoted_host (s := s) (f := f) (st := st) false
  rw [ht]
  exact ⟨rfl, retireNoted_event false, x, y, z, by rw [hu]⟩

theorem retireFrame_refused (h : s.larder.retiring.any (fun r => r.frame = f) = false) (hfull : 512 ≤ s.larder.sparesUsed) :
    let t := retireFrame f st s
    t.larder = retireRefused f s
      ∧ (∃ e, t.counts.sideband = s.counts.sideband ++ [e] ∧ e.code = 0x17 ∧ e.detail = BitVec.ofNat 128 (f + 2 ^ 20))
      ∧ HostOnly { s with larder := t.larder } t := by
  intro t
  have ht : t = _ := retireFrame_full h hfull
  obtain ⟨x, y, z, hu⟩ := retireNoted_host (s := s) (f := f) (st := st) true
  obtain ⟨e, hside, hcode, -, hdetail⟩ := retireNoted_event (s := s) (f := f) (st := st) true
  rw [ht]
  exact ⟨rfl, ⟨e, hside, hcode, hdetail⟩, x, y, z, by rw [hu]⟩

/-- The bytes, the bad words and the place of the scrubber. -/
def scrubBooks (s : State) : Tbl Byte × Tbl Bool × Nat := (s.larder.mem, s.larder.badWord, s.larder.scrubLine)

theorem HostOnly.scrubBooks {s t : State} (h : HostOnly s t) : scrubBooks t = scrubBooks s := by
  rw [Machine.scrubBooks, h.mems.1]
  exact Eq.refl _

/-- A retirement, made or not, changes no byte, no bad word and not the scrubber's place. -/
theorem retireFrame_keeps (f st s) : scrubBooks (retireFrame f st s) = scrubBooks s ∧ LarderHost s (retireFrame f st s) := by
  cases h : s.larder.retiring.any (fun r => r.frame = f) with
  | true =>
    rw [retireFrame_again h]
    exact ⟨rfl, (HostOnly.rfl s).larderHost⟩
  | false =>
    rcases Nat.lt_or_ge s.larder.sparesUsed 512 with hroom | hfull
    · obtain ⟨hlarder, -, hhost⟩ := retireFrame_takes_spare (st := st) h hroom
      exact ⟨by rw [scrubBooks, hlarder]; rfl, hhost⟩
    · obtain ⟨hlarder, -, x, y, z, ht⟩ := retireFrame_refused (st := st) h hfull
      exact ⟨by rw [scrubBooks, hlarder]; rfl, x, y, z, by rw [ht]⟩

end

/-! ### SCRUB_READ (R414, R415) -/

/-- The counts of words corrected in each frame, which a new period restarts (Table 11-14). -/
def periodCe (s : State) : Tbl Nat := if scrubPeriod s ≤ ageOf s s.larder.scrubAt then [] else s.larder.ce

/-- The elapsed tick at which the scrub period under way began. -/
def periodAt (s : State) : BitVec 48 := if scrubPeriod s ≤ ageOf s s.larder.scrubAt then s.tick.elapsed else s.larder.scrubAt

/-- The bad words with those of a line added. -/
def badMarked (line : Nat) (bad : List (Fin 4)) (t : Tbl Bool) : Tbl Bool :=
  bad.foldl (fun t w => tblSet false t (4 * line + w.val) true) t

/-- The books of a scrub read: its counts, the line passed, the words corrected and those found uncorrectable. -/
def scrubNoted (line corrected : Nat) (bad : List (Fin 4)) (s : State) : State :=
  let st := (locate line).1
  let u := bump (stackPage st) 10 corrected (bump (stackPage st) 12 1 s)
  { u with larder := { s.larder with scrubAt := periodAt s
                                     scrubLine := line + 1
                                     ce := tblMod 0 (periodCe s) (line / 8192) (· + corrected)
                                     badWord := badMarked line bad s.larder.badWord } }

/-- The uncorrectable words of a line. -/
def badOfLine (line : Nat) (s : State) : List Nat := (upFrom (4 * line) 4).filter (fun w => tblGet false s.larder.badWord w)

/-- An uncorrectable word that the scrubber finds: its event and its count (R752). -/
def scrubWord (st : Nat) (s : State) (w : Nat) : State :=
  raiseEv 0x16 5 (w * 64 + stDataError.toNat <<< 64) 0 (bump (stackPage st) 11 1 s)

theorem scrubWords_host (st) (ws : List Nat) (s) : HostOnly s (ws.foldl (scrubWord st) s) :=
  .foldl (fun _ _ => (bump_host ..).trans (raiseEv_host ..)) ..

/-- The state in which a scrub read has told the words that it found. -/
def scrubTold (line corrected : Nat) (bad : List (Fin 4)) (s : State) : State :=
  (badOfLine line (scrubNoted line corrected bad s)).foldl (scrubWord (locate line).1) (scrubNoted line corrected bad s)

/-- A scrub read retires the line's frame: a word is uncorrectable, or the frame's corrected words reach the threshold (R415). -/
def scrubRetires (line corrected : Nat) (bad : List (Fin 4)) (s : State) : Bool :=
  let u := scrubTold line corrected bad s
  !(badOfLine line (scrubNoted line corrected bad s)).isEmpty ||
    decide (fld (reg u .larderCfg) 24 8 ≤ tblGet 0 u.larder.ce (line / 8192))

/-- The state after a scrub read. -/
def scrubbed (line corrected : Nat) (bad : List (Fin 4)) (s : State) : State :=
  let u := scrubTold line corrected bad s
  if scrubRetires line corrected bad s then retireFrame (line / 8192) (locate line).1 u else u

theorem tblGet_badMarked_of_mem {line : Nat} {bad : List (Fin 4)} {w : Fin 4} (h : w ∈ bad) (t : Tbl Bool) :
    tblGet false (badMarked line bad t) (4 * line + w.val) = true := by
  induction bad generalizing t with
  | nil => cases h
  | cons b bad ih =>
    by_cases hw : w ∈ bad
    · exact ih hw _
    · obtain rfl : w = b := (List.mem_cons.mp h).resolve_right hw
      have hother : ∀ x ∈ bad, 4 * line + x.val ≠ 4 * line + w.val := fun x hx he =>
        hw (Fin.ext (Nat.add_left_cancel he) ▸ hx)
      exact (tblGet_foldl_tblSet_ne (val := fun _ => true) bad hother _).trans (tblGet_tblSet_of_ne _ _ _ _ Bool.noConfusion)

theorem tblGet_badMarked_ne {line w : Nat} {bad : List (Fin 4)} (h : ∀ b ∈ bad, w ≠ 4 * line + b.val) (t : Tbl Bool) :
    tblGet false (badMarked line bad t) w = tblGet false t w :=
  tblGet_foldl_tblSet_ne (val := fun _ => true) bad (fun b hb => (h b hb).symm) t

theorem mem_badOfLine {line w : Nat} {s : State} :
    w ∈ badOfLine line s ↔ (4 * line ≤ w ∧ w < 4 * line + 4) ∧ tblGet false s.larder.badWord w = true := by
  rw [badOfLine, List.mem_filter, upFrom_eq_range', List.mem_range'_1]

section
variable {line corrected : Nat} {bad : List (Fin 4)} {s : State}

theorem scrubRead_off (h : bit (reg s .larderCfg) 8 = false ∨ 7500000000 ≤ line) : NoEffect (.scrubRead line corrected bad) s :=
  if_pos (by simpa using h)

theorem scrubRead_on (hon : bit (reg s .larderCfg) 8 = true) (hline : line < 7500000000) :
    exec (.scrubRead line corrected bad) s = .next (scrubbed line corrected bad s) := by
  have hdue : ¬ (!bit (reg s .larderCfg) 8 || 7500000000 ≤ line) = true := by simp [hon, hline]
  refine (if_neg hdue).trans ?_
  simp only [scrubbed, scrubRetires, scrubTold, scrubNoted, periodCe, periodAt]
  split
  · rfl
  · rfl

theorem scrubTold_host : HostOnly (scrubNoted line corrected bad s) (scrubTold line corrected bad s) := scrubWords_host ..

theorem scrubTold_larder : (scrubTold line corrected bad s).larder = (scrubNoted line corrected bad s).larder := scrubTold_host.mems.1

/-- A scrub read's own books change the Larder alone, and counts. -/
theorem scrubTold_larderHost : LarderHost s (scrubTold line corrected bad s) := by
  obtain ⟨x, y, z, h⟩ := scrubTold_host (line := line) (corrected := corrected) (bad := bad) (s := s)
  exact ⟨x, y, z, by rw [h]; rfl⟩

theorem scrubbed_keeps : scrubBooks (scrubbed line corrected bad s) = scrubBooks (scrubNoted line corrected bad s)
    ∧ LarderHost s (scrubbed line corrected bad s) := by
  have htold : scrubBooks (scrubTold line corrected bad s) = scrubBooks (scrubNoted line corrected bad s) := scrubTold_host.scrubBooks
  obtain ⟨hbooks, hhost⟩ := retireFrame_keeps (line / 8192) (locate line).1 (scrubTold line corrected bad s)
  unfold scrubbed
  extract_lets u
  split
  · exact ⟨hbooks.trans htold, scrubTold_larderHost.trans hhost⟩
  · exact ⟨htold, scrubTold_larderHost⟩

/-- A scrub read that finds an uncorrectable word retires the frame of its line (R415). -/
theorem scrubbed_retires (hbad : bad ≠ []) (h : s.larder.retiring.any (fun r => r.frame = line / 8192) = false)
    (hroom : s.larder.sparesUsed < 512) : (scrubbed line corrected bad s).larder.retiring =
      s.larder.retiring ++ [{ frame := line / 8192, spare := s.larder.sparesUsed, since := s.tick.elapsed }] := by
  obtain ⟨w, hw⟩ := List.exists_mem_of_ne_nil bad hbad
  have hfound : 4 * line + w.val ∈ badOfLine line (scrubNoted line corrected bad s) :=
    mem_badOfLine.mpr ⟨by omega, tblGet_badMarked_of_mem hw _⟩
  have hretires : scrubRetires line corrected bad s = true := by simp [scrubRetires, List.ne_nil_of_mem hfound]
  have hlarder := scrubTold_larder (line := line) (corrected := corrected) (bad := bad) (s := s)
  obtain ⟨hspare, -, -⟩ := retireFrame_takes_spare (s := scrubTold line corrected bad s) (f := line / 8192) (st := (locate line).1)
    (by rw [hlarder]; exact h) (by rw [hlarder]; exact hroom)
  obtain ⟨x, y, z, htold⟩ := scrubTold_host (line := line) (corrected := corrected) (bad := bad) (s := s)
  rw [scrubbed, if_pos hretires, hspare, spareTaken, htold]
  rfl

/-- A scrub read that finds no uncorrectable word below the threshold retires nothing and raises no event. -/
theorem scrubbed_quiet (hgood : ∀ w : Fin 4, tblGet false s.larder.badWord (4 * line + w.val) = false)
    (hce : corrected + tblGet 0 s.larder.ce (line / 8192) < fld (reg s .larderCfg) 24 8) (hwf : tblWf 0 s.larder.ce = true) :
    scrubbed line corrected [] s = scrubNoted line corrected [] s := by
  have hnone : badOfLine line (scrubNoted line corrected [] s) = [] := by
    refine List.eq_nil_iff_forall_not_mem.mpr fun w hw => ?_
    obtain ⟨⟨hlo, hhi⟩, hbad⟩ := mem_badOfLine.mp hw
    have hw4 := hgood ⟨w - 4 * line, by omega⟩
    rw [Nat.add_sub_cancel' hlo] at hw4
    exact Bool.false_ne_true (hw4.symm.trans hbad)
  have htold : scrubTold line corrected [] s = scrubNoted line corrected [] s := by rw [scrubTold, hnone]; rfl
  have hperiod : tblWf 0 (periodCe s) = true ∧ tblGet 0 (periodCe s) (line / 8192) ≤ tblGet 0 s.larder.ce (line / 8192) := by
    unfold periodCe
    split
    · exact ⟨rfl, Nat.zero_le _⟩
    · exact ⟨hwf, Nat.le_refl _⟩
  have hcount : tblGet 0 (scrubNoted line corrected [] s).larder.ce (line / 8192) = tblGet 0 (periodCe s) (line / 8192) + corrected :=
    tblGet_tblSet_self 0 _ _ _ hperiod.1
  have hreg : reg (scrubNoted line corrected [] s) .larderCfg = reg s .larderCfg := rfl
  have hbelow : ¬ fld (reg s .larderCfg) 24 8 ≤ tblGet 0 (scrubNoted line corrected [] s).larder.ce (line / 8192) := by
    rw [hcount]
    omega
  have hkept : ¬ scrubRetires line corrected [] s = true := by
    simp only [scrubRetires, htold, hnone, hreg]
    simpa using hbelow
  rw [scrubbed, if_neg hkept, htold]

theorem scrubRead_scrubs (hon : bit (reg s .larderCfg) 8 = true) (hline : line < 7500000000) :
    Completes (.scrubRead line corrected bad) s fun t => t.larder.scrubLine = line + 1
      ∧ (∀ w ∈ bad, tblGet false t.larder.badWord (4 * line + w.val) = true)
      ∧ (∀ w, (∀ b ∈ bad, w ≠ 4 * line + b.val) → tblGet false t.larder.badWord w = tblGet false s.larder.badWord w)
      ∧ (bad ≠ [] → s.larder.retiring.any (fun r => r.frame = line / 8192) = false → s.larder.sparesUsed < 512 →
          t.larder.retiring = s.larder.retiring ++ [{ frame := line / 8192, spare := s.larder.sparesUsed,
                                                      since := s.tick.elapsed }])
      ∧ (bad = [] → (∀ w : Fin 4, tblGet false s.larder.badWord (4 * line + w.val) = false) →
          corrected + tblGet 0 s.larder.ce (line / 8192) < fld (reg s .larderCfg) 24 8 → tblWf 0 s.larder.ce = true →
          t.larder.retiring = s.larder.retiring ∧ t.counts.sideband = s.counts.sideband)
      ∧ t.larder.mem = s.larder.mem ∧ HostOnly { s with larder := t.larder, attic := t.attic } t := by
  obtain ⟨hbooks, hhost⟩ := scrubbed_keeps (line := line) (corrected := corrected) (bad := bad) (s := s)
  simp only [scrubBooks, Prod.mk.injEq] at hbooks
  obtain ⟨hmem, hwords, hscrub⟩ := hbooks
  refine ⟨_, scrubRead_on hon hline, hscrub, ?_, ?_, scrubbed_retires, ?_, hmem, hhost⟩
  · rw [hwords]
    exact fun w hw => tblGet_badMarked_of_mem hw _
  · rw [hwords]
    exact fun w hw => tblGet_badMarked_ne hw _
  · rintro rfl hgood hce hwf
    rw [scrubbed_quiet hgood hce hwf]
    exact ⟨rfl, rfl⟩

end

/-! ### GO (R415) -/

theorem goReq_retires {f : BitVec 20} (h : f.toNat < 915527) (s : State) : exec (.goReq f) s =
    .next (retireFrame f.toNat (locate (8192 * f.toNat)).1 { s with larder.goFrame := some f.toNat }) :=
  congrArg Host.Outcome.next (if_neg (Nat.not_le.mpr h))

theorem goReq_unnamed {f : BitVec 20} (h : 915527 ≤ f.toNat) (s : State) : NoEffect (.goReq f) s := congrArg Host.Outcome.next (if_pos h)

/-- Settles O19: the controllers clause by clause, then writes that are forgotten and frames whose copy ends, then scrubbing and retirement. -/
theorem larderControllersScrubRetire : Obligations.LarderControllersScrubRetire := by
  unfold Obligations.LarderControllersScrubRetire
  refine ⟨⟨fun _ _ => rfl, ?_, ?_, ?_, ?_, ?_, ?_, ?_, ?_, ?_⟩, ⟨?_, ?_, ?_, ?_, ?_, ?_, ?_⟩⟩
  · exact fun s st n => ⟨fun h => controllerSlot_none h n, fun _ h => controllerSlot_fill h n, fun _ _ h => controllerSlot_request h n⟩
  · exact fun s st i r h => mem_waitersAt_request (nextReq_mem h)
  · exact fun s st r hq hf hm hwf => congrArg Host.Outcome.next (controllerSlot_single hq hf hm hwf 4)
  · exact fun s st n x f hf h => fillOne_writes_line hf h
  · exact fun s st hq hf => congrArg Host.Outcome.next (controllerSlot_idle hq hf 5)
  · exact fun s src tag w h hage => writeTrackingTimeout_forgets h hage
  · exact fun s src tag h => writeTrackingTimeout_young h
  · exact fun s f r h h0 hsince => frameRetireCopyDone_remaps h h0 hsince
  · exact fun s f h => frameRetireCopyDone_waits h
  · exact fun s line corrected bad hon hline => scrubRead_scrubs hon hline
  · exact fun s line corrected bad h => scrubRead_off h
  · exact fun s f h => goReq_retires h s
  · exact fun s f st h hroom => retireFrame_takes_spare h hroom
  · exact fun s f st h hfull => retireFrame_refused h hfull
  · exact fun s f st h => retireFrame_again h
  · exact fun s f h => goReq_unnamed h s

end Machine
end Sys2Proof
end

section
/-!
PROOF. Groups and the operations bound in their slots (R427, R442, R494): what is read after a change, and what the packets of an operation
and the end of one leave alone.
-/
namespace Sys2Proof
namespace Machine

/-! ### Groups and slots -/

section
variable {s : State} {g : Fin 1024} {q : Fin 16}

theorem groupOf_modGroup {f : Group → Group} (h : tblWf {} s.hawk.group = true ∨ f (groupOf s g) ≠ {}) :
    groupOf (modGroup g f s) g = f (groupOf s g) := tblGet_tblSet_of h _

theorem groupsWf_modGroup {f : Group → Group} (h : tblWf {} s.hawk.group = true) :
    tblWf {} (modGroup g f s).hawk.group = true := tblWf_tblSet _ _ _ _ h

/-- A group with an operation in a slot is listed as it was set. -/
theorem groupOf_setOp (o : CollOp) : groupOf (setOp g q (some o) s) g
    = { groupOf s g with ops := tblSet none (groupOf s g).ops q.val (some o) } := by
  refine groupOf_modGroup (.inr fun hdefault => ?_)
  have hread := tblGet_tblSet_of_ne none (groupOf s g).ops q.val (some o) (Option.some_ne_none o)
  have hops : tblSet none (groupOf s g).ops q.val (some o) = [] := congrArg Group.ops hdefault
  rw [hops] at hread
  cases hread

theorem opOf_setOp (o : CollOp) : opOf (setOp g q (some o) s) g q = some o := by
  rw [opOf, groupOf_setOp]
  exact tblGet_tblSet_of_ne none _ _ _ (Option.some_ne_none o)

end

/-! ### Packets that leave an input (R221, R488) -/

/-- Only the core, the links, the counts and the tick of the undercoat's last packet differ. -/
def InputOnly (s t : State) : Prop := ∃ c l n u, t = { s with core := c, links := l, counts := n, route.lastUnder := u }

theorem InputOnly.refl (s : State) : InputOnly s s := ⟨_, _, _, _, rfl⟩

theorem InputOnly.trans {s t u : State} (h : InputOnly s t) (k : InputOnly t u) : InputOnly s u := by
  obtain ⟨_, _, _, _, rfl⟩ := h
  obtain ⟨_, _, _, _, rfl⟩ := k
  exact ⟨_, _, _, _, rfl⟩

theorem touchUnder_input (n : BitVec 4) (s : State) : InputOnly s (touchUnder n s) := by
  unfold touchUnder
  split
  · split
    · exact ⟨_, _, _, _, rfl⟩
    · exact .refl s
  · exact .refl s

theorem enqueueNow_input (i k o u q bad hold p s r) : InputOnly s (enqueueNow i k o u q bad hold p s r) :=
  InputOnly.trans ⟨_, _, _, _, rfl⟩ (touchUnder_input ..)

theorem admitEntering_input (i) : ∀ (n s), InputOnly s (admitEntering i n s)
  | 0, s => .refl s
  | n + 1, s => by
    unfold admitEntering
    split
    · exact .refl s
    · split
      · exact (InputOnly.trans ⟨_, _, _, _, rfl⟩ (enqueueNow_input ..)).trans (admitEntering_input i n _)
      · exact .refl s

theorem freeUnits_input (i q u s) : InputOnly s (freeUnits i q u s) := by
  unfold freeUnits
  extract_lets t
  have ht : InputOnly s t := ⟨_, _, _, _, rfl⟩
  split
  · split
    · exact ht
    · exact ht.trans ⟨_, _, _, _, rfl⟩
  · exact ht.trans (admitEntering_input ..)

theorem leaveInput_input (i p s) : InputOnly s (leaveInput i p s) := by
  unfold leaveInput
  split
  · exact InputOnly.trans ⟨_, _, _, _, rfl⟩ (freeUnits_input ..)
  · exact .refl s

/-! ### Records and packets to the peers (R449, R460) -/

/-- Groups, Larder and Workroom are as they were. -/
structure CollKept (s t : State) : Prop where
  hawk : t.hawk = s.hawk
  larder : t.larder = s.larder
  work : t.work = s.work

theorem InputOnly.coll {s t : State} (h : InputOnly s t) : CollKept s t := by
  obtain ⟨_, _, _, _, rfl⟩ := h
  exact ⟨rfl, rfl, rfl⟩

theorem CoreOnly.coll {s t : State} (h : CoreOnly s t) : CollKept s t := by
  obtain ⟨_, _, _, _, rfl⟩ := h
  exact ⟨rfl, rfl, rfl⟩

theorem CollKept.groupOf {s t : State} (h : CollKept s t) (g) : Machine.groupOf t g = Machine.groupOf s g := by
  rw [Machine.groupOf, h.hawk]
  rfl

theorem CollKept.opOf {s t : State} (h : CollKept s t) (g q) : Machine.opOf t g q = Machine.opOf s g q := by
  rw [Machine.opOf, h.groupOf]
  rfl

theorem sendRecord_core (o j i b st n s) : CoreOnly s (sendRecord o j i b st n s) := by
  unfold sendRecord
  split
  · exact .refl s
  · exact enqueue_core ..

theorem toPeers_core (g q o op low last bs s) : CoreOnly s (toPeers g q o op low last bs s) :=
  .foldl (fun _ _ => inject_core ..) ..

/-! ### The end of an operation (R442, R446, R489, R494) -/

/-- What a group keeps of its slots: the operations bound, how many each has ended, and the last of each. -/
def slotBooks (v : Group) : Tbl (Option CollOp) × Tbl Nat × Tbl (Option LastOp) := (v.ops, v.count, v.last)

/-- The slots of the group are as they were, and so are Larder and Workroom; the groups stay in canonical form. -/
def SlotsKept (g : Fin 1024) (s t : State) : Prop :=
  tblWf {} t.hawk.group = true ∧ slotBooks (groupOf t g) = slotBooks (groupOf s g) ∧ t.larder = s.larder ∧ t.work = s.work

theorem SlotsKept.trans {g : Fin 1024} {s t u : State} (h : SlotsKept g s t) (k : SlotsKept g t u) : SlotsKept g s u := by
  obtain ⟨-, hbooks, hlarder, hwork⟩ := h
  obtain ⟨kwf, kbooks, klarder, kwork⟩ := k
  exact ⟨kwf, kbooks.trans hbooks, klarder.trans hlarder, kwork.trans hwork⟩

/-- The operation has left its slot, is counted, and its status is kept; Larder and Workroom are as they were. -/
def SlotFreed (g : Fin 1024) (q : Fin 16) (o : CollOp) (st : BitVec 8) (s t : State) : Prop :=
  opOf t g q = none ∧ tblGet none (groupOf t g).last q.val = some ⟨o.s, st⟩
    ∧ tblGet 0 (groupOf t g).count q.val = tblGet 0 (groupOf s g).count q.val + 1 ∧ t.larder = s.larder ∧ t.work = s.work

/-- A group with slot `q` freed of an operation that ended with a status. -/
def slotEnded (q : Fin 16) (o : CollOp) (st : BitVec 8) (v : Group) : Group :=
  { v with ops := tblSet none v.ops q.val none, count := tblMod 0 v.count q.val (· + 1),
           last := tblSet none v.last q.val (some ⟨o.s, st⟩) }

section
variable {s : State} {g : Fin 1024} {q : Fin 16} {o : CollOp} {st : BitVec 8}

/-- A change of a group's room alone keeps its slots. -/
theorem modGroup_slotsKept {f : Group → Group} (hf : ∀ v, slotBooks (f v) = slotBooks v) (hwf : tblWf {} s.hawk.group = true) :
    SlotsKept g s (modGroup g f s) :=
  ⟨groupsWf_modGroup hwf, by rw [groupOf_modGroup (.inl hwf), hf], rfl, rfl⟩

theorem returnRoom_slotsKept (t : TileRec) (hwf : tblWf {} s.hawk.group = true) : SlotsKept g s (returnRoom g t s) := by
  unfold returnRoom
  split
  · exact modGroup_slotsKept (fun _ => rfl) hwf
  · exact ⟨hwf, rfl, rfl, rfl⟩

/-- The room of the tiles returns, at once or at the next boundary, and the slots stay. -/
theorem returnRooms_slotsKept (ts : List TileRec) (hwf : tblWf {} s.hawk.group = true) :
    SlotsKept g s (ts.foldl (fun s t => returnRoom g t s) s) :=
  List.foldlRecOn ts _ (motive := SlotsKept g s) ⟨hwf, rfl, rfl, rfl⟩ fun _ hu t _ => hu.trans (returnRoom_slotsKept t hu.1)

theorem closeOp_frees (hwf : tblWf {} s.hawk.group = true) (hops : tblWf none (groupOf s g).ops = true) :
    SlotFreed g q o st s (closeOp g q o st s) := by
  unfold closeOp
  extract_lets u _ _ w
  have hu : SlotsKept g s u := by
    unfold u
    split
    · exact returnRooms_slotsKept o.tiles hwf
    · exact modGroup_slotsKept (fun _ => rfl) hwf
  obtain ⟨hwfw, hbooks, hlarder, hwork⟩ : SlotsKept g s w := hu
  simp only [slotBooks, Prod.mk.injEq] at hbooks
  obtain ⟨hopsw, hcount, -⟩ := hbooks
  change SlotFreed g q o st s (modGroup g (slotEnded q o st) w)
  have hgroup : groupOf (modGroup g (slotEnded q o st) w) g = slotEnded q o st (groupOf w g) := groupOf_modGroup (.inl hwfw)
  refine ⟨?_, ?_, ?_, hlarder, hwork⟩
  · rw [opOf, hgroup, slotEnded, hopsw]
    exact tblGet_tblSet_self none _ _ none hops
  · rw [hgroup]
    exact tblGet_tblSet_of_ne none _ _ _ (Option.some_ne_none _)
  · rw [hgroup, slotEnded, hcount]
    exact tblGet_tblSet_of_ne 0 _ _ _ (Nat.succ_ne_zero _)

theorem failOp_frees {lost : Nat → Bool} (h : opOf s g q = some o) (hwf : tblWf {} s.hawk.group = true)
    (hops : tblWf none (groupOf s g).ops = true) :
    SlotFreed g q o st s (failOp g q st lost s) := by
  simp only [failOp, h]
  generalize hu : List.foldl _ s _ = u
  have hkept : CollKept s u := hu ▸ (CoreOnly.foldl (fun _ _ => sendRecord_core ..) ..).coll
  have hgroup := hkept.groupOf g
  rw [SlotFreed, ← hgroup, ← hkept.larder, ← hkept.work]
  exact closeOp_frees (hkept.hawk ▸ hwf) (hgroup ▸ hops)

end

/-! ### Operations that go on (R441, R450) -/

/-- The slot holds the operation; Larder and Workroom are as they were. -/
def SlotHolds (g : Fin 1024) (q : Fin 16) (o : CollOp) (s t : State) : Prop :=
  opOf t g q = some o ∧ t.larder = s.larder ∧ t.work = s.work

theorem SlotHolds.of_kept {g : Fin 1024} {q : Fin 16} {o : CollOp} {s t u : State} (h : SlotHolds g q o t u) (k : CollKept s t) :
    SlotHolds g q o s u := by
  obtain ⟨hop, hlarder, hwork⟩ := h
  exact ⟨hop, hlarder.trans k.larder, hwork.trans k.work⟩

section
variable {s : State} {g : Fin 1024} {q : Fin 16} {o : CollOp}

/-- An operation with a member's start still out goes on as it is. -/
theorem finishOp_waits (h : opOf s g q = some o) (hout : allStarted o = false) : finishOp g q s = s := by
  simp [finishOp, h, hout]

/-- An operation none of whose members is done goes on, whether or not every start is in. -/
theorem finishOp_goes_on (h : opOf s g q = some o) (hdone : ∀ j, memberDone o j = false) (hended : o.ended = [])
    (hmembers : 0 < gLocal o.entry) : SlotHolds g q o s (finishOp g q s) := by
  cases hall : allStarted o with
  | false =>
    rw [finishOp_waits h hall]
    exact ⟨h, rfl, rfl⟩
  | true =>
    have hopen : (upFrom 0 (gLocal o.entry)).all o.ended.contains = false :=
      List.all_eq_false.mpr ⟨0, mem_upFrom.mpr hmembers, by simp [hended]⟩
    have hsame : finishOp g q s = setOp g q (some o) s := by
      simp [finishOp, h, hall, hdone, hopen]
    rw [hsame]
    exact ⟨opOf_setOp o, rfl, rfl⟩

end

end Machine
end Sys2Proof
end

section
/-!
PROOF. Starts, arrivals, counts and limits of collective operations (R441 to R446, R454, R455, R460), and the statement of
CollectivesStartAndArrive.
-/
namespace Sys2Proof
namespace Machine

/-! ### COLL_START (R441, R442, R444) -/

/-- The COLL_START at the input comes from local member `j` of the group that it names, which is On, and every check holds. -/
structure MemberStarts (s : State) (i : PortId) (p : Packet) (j : Nat) : Prop where
  opcode : p.opcode = 0x20
  front : mayTakeIn s i p = true
  sender : senderOf (gEntry s (cGroup p)) i p = .member j
  check : memberCheck s (cGroup p) (gEntry s (cGroup p)) (.member j) p = none
  on : fnSt s (.group (cGroup p)) = .on

/-- The COLL_START names the operation that its free slot binds next, while the part does not drain. -/
structure BindsNext (s : State) (p : Packet) : Prop where
  free : opOf s (cGroup p) (cSlot p) = none
  seq : cSeq p = nextSeq s (cGroup p) (cSlot p)
  stays : s.attic.draining = false

section
variable {s : State} {i : PortId} {p : Packet} {j : Nat} {o : CollOp} {m : Template}

theorem takeStart_member (h : MemberStarts s i p j) :
    takeStart i p s = (collStart (cGroup p) (gEntry s (cGroup p)) i j p s).getD (holdIn i p s) := by
  simp [takeStart, h.opcode, h.front, h.sender, h.check]

theorem takeStart_binds (h : MemberStarts s i p j) (hnext : BindsNext s p)
    (htmpl : tblGet none (groupOf (settleTemplates (cGroup p) s) (cGroup p)).tmpl (cTmpl p) = some m) :
    takeStart i p s = bindOp (cGroup p) (gEntry s (cGroup p)) p j m (leaveInput i p (settleTemplates (cGroup p) s)) := by
  rw [takeStart_member h]
  simp [collStart, h.on, hnext.free, hnext.seq, hnext.stays, htmpl]

theorem takeStart_no_template (h : MemberStarts s i p j) (hnext : BindsNext s p)
    (htmpl : tblGet none (groupOf (settleTemplates (cGroup p) s) (cGroup p)).tmpl (cTmpl p) = none) :
    takeStart i p s = startDiscarded (cGroup p) p (leaveInput i p (settleTemplates (cGroup p) s)) := by
  rw [takeStart_member h]
  simp [collStart, h.on, hnext.free, hnext.seq, hnext.stays, htmpl]

/-- The operation that binds, with the start of member `j` in. -/
def boundOp (s : State) (g : Fin 1024) (e : BitVec 4608) (p : Packet) (j : Nat) (t : Template) : CollOp :=
  { newOp s g e p t with starts := [j] }

/-- An operation of at least two members that may bind holds its slot, with the start of the member that named it in. -/
theorem bindOp_opens {u : State} {g : Fin 1024} {e : BitVec 4608} (hwf : tblWf {} u.hawk.group = true)
    (hheld : (groupOf u g).held = false) (hcoding : m.outSpec.coding = 0) (hkind : m.kind ≠ 5) (hmembers : 2 ≤ gLocal e) :
    SlotHolds g (cSlot p) (boundOp u g e p j m) u (bindOp g e p j m u) := by
  unfold bindOp
  extract_lets q o' o t
  have hop : opOf t g q = some o := opOf_setOp o
  have hheld' : (groupOf t g).held = false := by
    change (groupOf (setOp g q (some o) _) g).held = false
    rw [groupOf_setOp, groupOf_modGroup (.inl hwf)]
    exact hheld
  have hpass : bindStatus t g o = none := by
    simp only [bindStatus, hheld', Bool.false_eq_true, if_false]
    rw [if_neg (fun h => h.2 hcoding), if_neg (fun h => hkind h.1)]
  have hout : allStarted o = false := by
    have hother : ∃ x < gLocal e, x ≠ j := if h0 : j = 0 then ⟨1, hmembers, by omega⟩ else ⟨0, by omega, Ne.symm h0⟩
    obtain ⟨x, hx, hne⟩ := hother
    exact List.all_eq_false.mpr ⟨x, mem_upFrom.mpr hx, by simp [o, hne]⟩
  rw [hpass]
  change SlotHolds g q o u (finishOp g q t)
  rw [finishOp_waits hop hout]
  exact ⟨hop, rfl, rfl⟩

theorem collStart_opens (h : MemberStarts s i p j) (hnext : BindsNext s p) (hwait : (groupOf s (cGroup p)).waiting = [])
    (hheld : (groupOf s (cGroup p)).held = false) (htmpl : tblGet none (groupOf s (cGroup p)).tmpl (cTmpl p) = some m)
    (hcoding : m.outSpec.coding = 0) (hkind : m.kind ≠ 5) (hmembers : 2 ≤ gLocal (gEntry s (cGroup p)))
    (hwf : tblWf {} s.hawk.group = true) :
    Completes (.collStart i p) s fun t =>
      (∃ o, opOf t (cGroup p) (cSlot p) = some o ∧ o.s = cSeq p ∧ o.tmpl = m ∧ o.starts = [j] ∧ o.bound = s.tick.elapsed
        ∧ o.coat = s.route.top.num ∧ o.gen = fnGen s (.group (cGroup p)) ∧ o.tiles = [])
      ∧ t.larder = s.larder ∧ t.work = s.work := by
  have hsettled : groupOf (settleTemplates (cGroup p) s) (cGroup p) = _ := groupOf_modGroup (.inl hwf)
  have htmpl' : tblGet none (groupOf (settleTemplates (cGroup p) s) (cGroup p)).tmpl (cTmpl p) = some m := by
    rw [hsettled, hwait]
    exact htmpl
  have hheld' : (groupOf (settleTemplates (cGroup p) s) (cGroup p)).held = false := by
    rw [hsettled]
    exact hheld
  refine ⟨_, congrArg Host.Outcome.next (takeStart_binds h hnext htmpl'), ?_⟩
  obtain ⟨c, l, n, u, hu⟩ := leaveInput_input i p (settleTemplates (cGroup p) s)
  rw [hu]
  obtain ⟨hop, hlarder, hwork⟩ := bindOp_opens (p := p) (j := j)
    (u := { settleTemplates (cGroup p) s with core := c, links := l, counts := n, route.lastUnder := u })
    (show tblWf {} (settleTemplates (cGroup p) s).hawk.group = true from groupsWf_modGroup hwf) hheld' hcoding hkind hmembers
  exact ⟨⟨_, hop, rfl, rfl, rfl, rfl, rfl, rfl, rfl⟩, hlarder, hwork⟩

/-- A start of the bound operation by another member, on the operation's template, joins it. -/
theorem takeStart_joins (h : MemberStarts s i p j) (ho : opOf s (cGroup p) (cSlot p) = some o) (hseq : o.s = cSeq p)
    (hnew : o.starts.contains j = false) (htmpl : o.tmplIdx = cTmpl p) :
    takeStart i p s = finishOp (cGroup p) (cSlot p) (modOp (cGroup p) (cSlot p)
      (fun o => { o with starts := if o.starts.contains j then o.starts else o.starts ++ [j] }) (leaveInput i p s)) := by
  have hfirst : ¬ (o.starts.contains j || decide (o.tmplIdx ≠ cTmpl p)) = true := by
    rw [hnew]
    simp [htmpl]
  rw [takeStart_member h]
  simp only [collStart, h.on, ho, hseq, if_true, Option.getD_some, collStart.join]
  rw [if_neg hfirst]

/-- A start of the slot's next operation waits for the slot. -/
theorem takeStart_held (h : MemberStarts s i p j) (ho : opOf s (cGroup p) (cSlot p) = some o) (hseq : cSeq p = o.s + 16) :
    takeStart i p s = holdIn i p s := by
  have hne : ¬ o.s = cSeq p := by rw [hseq]; bv_omega
  rw [takeStart_member h]
  simp only [collStart, h.on, ho, if_neg hne, if_pos hseq, Option.getD_none]

theorem takeStart_discarded (h : MemberStarts s i p j) (ho : opOf s (cGroup p) (cSlot p) = some o) (hne : cSeq p ≠ o.s)
    (hnext : cSeq p ≠ o.s + 16) : takeStart i p s = startDiscarded (cGroup p) p (leaveInput i p s) := by
  rw [takeStart_member h]
  simp only [collStart, h.on, ho, if_neg (Ne.symm hne), if_neg hnext, Option.getD_some]

end

/-! ### COLL_SLOT_BIND (R442, R443) -/

/-- The COLL_START that waits at input `k` for slot `q` of the group, in front of its channel (R442). -/
def startWaits (s : State) (g : Fin 1024) (q : Fin 16) (k : PortId) : Option (PortId × Packet) :=
  ((inPort s k).queue.find? (fun e =>
    e.kind = .contrib && e.pkt.opcode = 0x20 && cGroup e.pkt = g && cSlot e.pkt = q && inFront s k e)).map (fun e => (k, e.pkt))

section
variable {s : State} {g : Fin 1024} {q : Fin 16}

theorem collSlotBind_bound (h : (opOf s g q).isSome = true) : NoEffect (.collSlotBind g q) s :=
  congrArg Host.Outcome.next (if_pos h)

theorem collSlotBind_takes {i : PortId} {p : Packet} (h : opOf s g q = none)
    (hfirst : (tieInputs s).findSome? (startWaits s g q) = some (i, p)) :
    exec (.collSlotBind g q) s = .next (takeStart i p s) := by
  have hfree : ¬ (opOf s g q).isSome = true := by simp [h]
  refine congrArg Host.Outcome.next ((if_neg hfree).trans ?_)
  change (match (tieInputs s).findSome? (startWaits s g q) with | some (i, p) => takeStart i p s | none => s) = _
  rw [hfirst]

theorem startWaits_eq_none
    (h : ∀ k : PortId, ∀ e ∈ (inPort s k).queue, e.pkt.opcode = 0x20 → ¬ (cGroup e.pkt = g ∧ cSlot e.pkt = q)) (k : PortId) :
    startWaits s g q k = none := by
  refine Option.map_eq_none_iff.mpr (List.find?_eq_none.mpr fun e he hwaits => ?_)
  simp only [Bool.and_eq_true, decide_eq_true_eq] at hwaits
  obtain ⟨⟨⟨⟨-, hop⟩, hgroup⟩, hslot⟩, -⟩ := hwaits
  exact h k e he hop ⟨hgroup, hslot⟩

theorem collSlotBind_idle (h : ∀ k, startWaits s g q k = none) : NoEffect (.collSlotBind g q) s := by
  have hnobody : (tieInputs s).findSome? (startWaits s g q) = none := List.findSome?_eq_none_iff.mpr fun k _ => h k
  refine congrArg Host.Outcome.next ((congrArg (fun x => if (opOf s g q).isSome then s else x) ?_).trans (ite_self s))
  change (match (tieInputs s).findSome? (startWaits s g q) with | some (i, p) => takeStart i p s | none => s) = _
  rw [hnobody]

end

/-! ### Packets of a bound operation (R445, R447) -/

theorem senderOf_of_gMember {e : BitVec 4608} {i : PortId} {p : Packet} {j : Nat} (h : gMember e i.val p.src = some j) :
    senderOf e i p = .member j := by
  simp [senderOf, h]

/-- The packet at the input is of the operation bound in its slot, comes from `w`, and every check holds. -/
structure OfBoundOp (s : State) (i : PortId) (p : Packet) (o : CollOp) (w : Sender) : Prop where
  front : mayTakeIn s i p = true
  bound : opOf s (cGroup p) (cSlot p) = some o
  tag : o.s.setWidth 16 = p.tag
  sender : senderOf o.entry i p = w
  check : memberCheck s (cGroup p) o.entry w p = none

section
variable {s : State} {i : PortId} {p : Packet} {j : Nat} {o : CollOp} {w : Sender}

theorem withOp_accepted {op : BitVec 8} (hop : p.opcode = op) (h : OfBoundOp s i p o w) (hw : w ≠ .stranger) (body) :
    withOp i p op s body = body w o s := by
  simp [withOp, acceptOp, hop, h.front, h.bound, h.tag, h.sender, h.check, hw]

/-! ### COLL_ARRIVE (Table 12-10, R460) -/

/-- The operation with the arrival of `w` in. -/
def withArrival (w : Sender) (o : CollOp) : CollOp :=
  match w with
  | .member j => { o with arrived := if o.arrived.contains j then o.arrived else o.arrived ++ [j] }
  | .peer r => { o with peers := if o.peers.contains r then o.peers else o.peers ++ [r] }
  | .stranger => o

/-- Every local member has arrived, and the peers have not been told. -/
def tellsPeers (o : CollOp) : Bool := (upFrom 0 (gLocal o.entry)).all o.arrived.contains && !o.told

/-- The operation once its peers have been told, where they are. -/
def toldOp (o : CollOp) : CollOp := { o with told := o.told || tellsPeers o }

/-- The state with the operation's arrival noted, and the peers told where it is the last of the module's members. -/
def arrivalNoted (g : Fin 1024) (q : Fin 16) (o : CollOp) (s : State) : State :=
  let u := setOp g q (some (toldOp o)) s
  if tellsPeers o then toPeers g q o 0x22 0 true [] u else u

theorem takeArrive_arrives (hop : p.opcode = 0x22) (h : OfBoundOp s i p o w) (hw : w ≠ .stranger) (hkind : o.tmpl.kind = 4) :
    takeArrive i p s
      = finishOp (cGroup p) (cSlot p) (arrivalNoted (cGroup p) (cSlot p) (withArrival w o) (leaveInput i p s)) := by
  have hbarrier : ¬ o.tmpl.kind ≠ 4 := not_not_intro hkind
  rw [takeArrive, withOp_accepted hop h hw, if_neg hbarrier]
  cases w <;> rfl

theorem arrivalNoted_holds (g q o s) : SlotHolds g q (toldOp o) s (arrivalNoted g q o s) := by
  unfold arrivalNoted
  extract_lets u
  have hu : opOf u g q = some (toldOp o) := opOf_setOp _
  split
  · have hkept := (toPeers_core g q o 0x22 0 true [] u).coll
    exact ⟨(hkept.opOf g q).trans hu, hkept.larder, hkept.work⟩
  · exact ⟨hu, rfl, rfl⟩

theorem collArrive_peer {r : Nat} (hop : p.opcode = 0x22) (h : OfBoundOp s i p o (.peer r)) (hkind : o.tmpl.kind = 4) :
    Completes (.collArrive i p) s fun t => ∃ o1 u, t = finishOp (cGroup p) (cSlot p) u ∧ opOf u (cGroup p) (cSlot p) = some o1
      ∧ o1.peers = (if o.peers.contains r then o.peers else o.peers ++ [r]) ∧ o1.arrived = o.arrived :=
  ⟨_, congrArg Host.Outcome.next (takeArrive_arrives hop h nofun hkind), _, _, rfl, (arrivalNoted_holds ..).1, rfl, rfl⟩

/-- No member of a barrier is done while a member has not arrived (Table 12-10). -/
theorem memberDone_of_absent {k : Nat} (hkind : o.tmpl.kind = 4) (hk : k < gLocal o.entry) (habsent : o.arrived.contains k = false)
    (j : Nat) : memberDone o j = false := by
  have hout : (upFrom 0 (gLocal o.entry)).all o.arrived.contains = false :=
    List.all_eq_false.mpr ⟨k, mem_upFrom.mpr hk, by rw [habsent]; exact Bool.false_ne_true⟩
  simp [memberDone, hkind, allArrived, hout]

/-- An arrival that leaves another member out joins the operation, which goes on. -/
theorem collArrive_goes_on {k : Nat} (hop : p.opcode = 0x22) (h : OfBoundOp s i p o (.member j)) (hkind : o.tmpl.kind = 4)
    (hended : o.ended = []) (hnew : o.arrived.contains j = false) (hk : k < gLocal o.entry) (hne : k ≠ j)
    (habsent : o.arrived.contains k = false) :
    Completes (.collArrive i p) s fun t =>
      (∃ o', opOf t (cGroup p) (cSlot p) = some o' ∧ o'.arrived = o.arrived ++ [j] ∧ o'.starts = o.starts ∧ o'.ended = [])
      ∧ t.larder = s.larder ∧ t.work = s.work := by
  refine ⟨_, congrArg Host.Outcome.next (takeArrive_arrives hop h nofun hkind), ?_⟩
  have harrived : (withArrival (.member j) o).arrived = o.arrived ++ [j] := by simp only [withArrival, hnew]; rfl
  have habsent' : (toldOp (withArrival (.member j) o)).arrived.contains k = false := by
    change (withArrival (.member j) o).arrived.contains k = false
    rw [harrived]
    simpa [hne] using habsent
  have hnoted := (arrivalNoted_holds (cGroup p) (cSlot p) (withArrival (.member j) o) _).of_kept (leaveInput_input i p s).coll
  obtain ⟨hbound, hlarder, hwork⟩ := hnoted
  obtain ⟨hgoes, hlarder', hwork'⟩ := finishOp_goes_on hbound
    (memberDone_of_absent (o := toldOp (withArrival (.member j) o)) hkind hk habsent') hended (Nat.zero_lt_of_lt hk)
  exact ⟨⟨_, hgoes, harrived, rfl, hended⟩, hlarder'.trans hlarder, hwork'.trans hwork⟩

/-! ### COLL_COUNTS (R454, R455) -/

/-- The operation with the counts of member `j` in. -/
def withCounts (j : Nat) (p : Packet) (o : CollOp) : CollOp :=
  { o with counts := tblSet [] o.counts j (countsOf (gLocal o.entry) p) }

/-- Every member's counts are in. -/
def allCounted (o : CollOp) : Bool := (upFrom 0 (gLocal o.entry)).all (fun x => !(tblGet [] o.counts x).isEmpty)

/-- The state in which the counts of member `j` have joined the operation. -/
def countsJoined (i : PortId) (p : Packet) (j : Nat) (o : CollOp) (s : State) : State :=
  setOp (cGroup p) (cSlot p) (some (withCounts j p o)) (leaveInput i p s)

theorem collCounts_joins (hop : p.opcode = 0x23) (h : OfBoundOp s i p o (.member j)) (hkind : o.tmpl.kind = 5)
    (hnew : tblGet [] o.counts j = []) : exec (.collCounts i p) s = .next (
      if !allCounted (withCounts j p o) then countsJoined i p j o s
      else if countsOk (withCounts j p o) then layOut (cGroup p) (cSlot p) (withCounts j p o) (countsJoined i p j o s)
      else failOp (cGroup p) (cSlot p) stDenied (fun _ => false) (countsJoined i p j o s)) := by
  have hfirst : ¬ (decide (o.tmpl.kind ≠ 5) || !(tblGet [] o.counts j).isEmpty) = true := by simp [hkind, hnew]
  refine congrArg Host.Outcome.next ?_
  rw [takeCounts, withOp_accepted hop h nofun]
  exact if_neg hfirst

/-- Counts that leave another member's out join the operation, and no layout goes out. -/
theorem collCounts_waits {k : Nat} (hop : p.opcode = 0x23) (h : OfBoundOp s i p o (.member j)) (hkind : o.tmpl.kind = 5)
    (hlen : p.payLen.toNat = 4 * gLocal o.entry) (hnew : tblGet [] o.counts j = []) (hk : k < gLocal o.entry) (hne : k ≠ j)
    (habsent : tblGet [] o.counts k = []) :
    Completes (.collCounts i p) s fun t =>
      (∃ o', opOf t (cGroup p) (cSlot p) = some o'
        ∧ tblGet [] o'.counts j = (upFrom 0 (gLocal o.entry)).map (fun x => leAt p.payload (4 * x) 4) ∧ o'.layouts = o.layouts)
      ∧ t.larder = s.larder ∧ t.work = s.work := by
  have hcounts : countsOf (gLocal o.entry) p = (upFrom 0 (gLocal o.entry)).map (fun x => leAt p.payload (4 * x) 4) := if_pos hlen
  have hsome : countsOf (gLocal o.entry) p ≠ [] := by
    rw [hcounts]
    exact List.ne_nil_of_mem (List.mem_map_of_mem (mem_upFrom.mpr hk))
  have habsent' : tblGet [] (withCounts j p o).counts k = [] := (tblGet_tblSet_ne [] o.counts j k _ hne).trans habsent
  have hout : allCounted (withCounts j p o) = false :=
    List.all_eq_false.mpr ⟨k, mem_upFrom.mpr hk, by simp [habsent']⟩
  refine ⟨_, (collCounts_joins hop h hkind hnew).trans (congrArg Host.Outcome.next (if_pos (by rw [hout]; rfl))), ?_⟩
  obtain ⟨-, hlarder, hwork⟩ := (leaveInput_input i p s).coll
  exact ⟨⟨_, opOf_setOp _, (tblGet_tblSet_of_ne [] o.counts j _ hsome).trans hcounts, rfl⟩, hlarder, hwork⟩

end

/-! ### COLL_OP_LIMIT_EXPIRED (R446) -/

section
variable {s : State} {g : Fin 1024} {q : Fin 16}

theorem collOpLimitExpired_ends {o : CollOp} (h : opOf s g q = some o) (hage : o.tmpl.opLimit ≤ ageOf s o.bound) :
    exec (.collOpLimitExpired g q) s = .next (failOp g q stTimeout (fun _ => false) s) := by
  change execCollOpLimitExpired g q s = _
  simp only [execCollOpLimitExpired, h, if_pos hage]

theorem collOpLimitExpired_young (h : ∀ o, opOf s g q = some o → ageOf s o.bound < o.tmpl.opLimit) :
    NoEffect (.collOpLimitExpired g q) s := by
  change execCollOpLimitExpired g q s = _
  unfold execCollOpLimitExpired
  split
  next o ho => rw [if_neg (Nat.not_le.mpr (h o ho))]
  · rfl

end

/-! ### The statement -/

/-- Settles O21: each clause is the lemma of a start, of the slot that binds, of an arrival, of counts, or of the limit. -/
theorem collectivesStartAndArrive : Obligations.CollectivesStartAndArrive := by
  unfold Obligations.CollectivesStartAndArrive
  refine ⟨⟨?_, ?_, ?_, fun _ _ _ => rfl, ?_⟩, ?_, ?_, ?_, ?_, ?_, ?_, ?_⟩
  · intro s i p j m hop hin hsender hcheck hon hfree hseq hdrain
    have hstart : MemberStarts s i p j := ⟨hop, hin, hsender, hcheck, hon⟩
    have hnext : BindsNext s p := ⟨hfree, hseq, hdrain⟩
    exact ⟨fun h => congrArg Host.Outcome.next (takeStart_binds hstart hnext h),
      fun h => congrArg Host.Outcome.next (takeStart_no_template hstart hnext h),
      fun hwait hheld htmpl hcoding hkind hmembers hwf =>
        collStart_opens hstart hnext hwait hheld htmpl hcoding hkind hmembers hwf⟩
  · intro s i p j o hop hin hsender hcheck hon ho
    have hstart : MemberStarts s i p j := ⟨hop, hin, hsender, hcheck, hon⟩
    exact ⟨fun hseq hnew htmpl => congrArg Host.Outcome.next (takeStart_joins hstart ho hseq hnew htmpl),
      fun hseq => congrArg Host.Outcome.next (takeStart_held hstart ho hseq),
      fun hne hnext => congrArg Host.Outcome.next (takeStart_discarded hstart ho hne hnext)⟩
  · exact fun s g q i p h hfirst => collSlotBind_takes h hfirst
  · exact fun s g q h => h.elim collSlotBind_bound fun hnone => collSlotBind_idle (startWaits_eq_none hnone)
  · intro s i p o j hop hin ho htag hsender hcheck hkind o1 tell u
    refine congrArg Host.Outcome.next ((takeArrive_arrives hop ⟨hin, ho, htag, hsender, hcheck⟩ nofun hkind).trans ?_)
    exact congrArg (finishOp (cGroup p) (cSlot p)) rfl
  · exact fun s i p o r hop hin ho htag hsender hcheck hkind =>
      collArrive_peer hop ⟨hin, ho, htag, hsender, hcheck⟩ hkind
  · exact fun s i p o j k hop hin ho htag hmember hcheck hkind hended hnew hk hne habsent =>
      collArrive_goes_on hop ⟨hin, ho, htag, senderOf_of_gMember hmember, hcheck⟩ hkind hended hnew hk hne habsent
  · intro s i p o j hop hin ho htag hmember hcheck hkind hnew o1 u all
    have hjoin : exec (.collCounts i p) s = .next (if !all then u
        else if countsOk o1 then layOut (cGroup p) (cSlot p) o1 u
        else failOp (cGroup p) (cSlot p) stDenied (fun _ => false) u) :=
      collCounts_joins hop ⟨hin, ho, htag, senderOf_of_gMember hmember, hcheck⟩ hkind hnew
    refine ⟨fun hall => ?_, fun hall hok => ?_, fun hall hok => ?_, fun hlen => if_pos hlen⟩
    · rw [hjoin, hall]; rfl
    · rw [hjoin, hall, hok]; rfl
    · rw [hjoin, hall, hok]; rfl
  · exact fun s i p o j k hop hin ho htag hmember hcheck hkind hlen hnew hk hne habsent =>
      collCounts_waits hop ⟨hin, ho, htag, senderOf_of_gMember hmember, hcheck⟩ hkind hlen hnew hk hne habsent
  · exact fun s g q o h hage => ⟨collOpLimitExpired_ends h hage,
      fun hwf hops => ⟨_, collOpLimitExpired_ends h hage, failOp_frees h hwf hops⟩⟩
  · exact fun s g q h => collOpLimitExpired_young h

end Machine
end Sys2Proof
end

section
/-!
PROOF. The descriptors of groups (R81, R427, R428, R434, R435, Table 12-4): TEMPLATE_SET, GROUP_QUERY and their refusals, and the statement of
GroupDescriptors.
-/
namespace Sys2Proof
namespace Machine

/-! ### TEMPLATE_SET and GROUP_QUERY once their group's checks hold -/

/-- The group with a template that waits for its boundary. -/
def templateWaits (s : State) (f : InFlight) (v : Group) : Group :=
  { v with waiting := v.waiting ++ [(fld f.desc 192 6, tmplOf f.desc, prepDue s)] }

section
variable {s : State} {d : DRef} {f : InFlight} {g : Fin 1024}

/-- The descriptor, an opcode `op` that may start, names the group; its generation and its tenant are right (R81, R427, R428). -/
structure GroupDesc (s : State) (d : DRef) (op : BitVec 8) (f : InFlight) (g : Fin 1024) : Prop where
  start : Startable s d op f
  target : groupTarget f = some g
  gen : dGen f.desc = fnGen s (.group g)
  tenant : gTenant (gEntry s g) = dTenant s f

theorem withDesc_withGroup {op : BitVec 8} (h : GroupDesc s d op f g) (body : InFlight → Fin 1024 → State → State) :
    withDesc d op s (fun f s => withGroup d f true s (body f)) = body f g (startedAt d (.group g) s) := by
  rw [withDesc_of_startable h.start]
  exact withGroup_eq h.target (fun _ => h.gen) h.tenant d (body f)

theorem exec_templateSet (h : GroupDesc s d 0x22 f g) : exec (.templateSet d) s = .next (
    if !tmplOk s g (tmplOf f.desc) then complete d stBad 0 (startedAt d (.group g) s)
    else if gLocal (gEntry s g) = 0 then complete d stOk 0 (modGroup g (templateWaits s f) (startedAt d (.group g) s))
    else hostRead (.obj d 0) (dWord f.desc 48) (32 * gLocal (gEntry s g))
      (modFlight d (fun x => { x with waits := 1 }) (startedAt d (.group g) s))) :=
  congrArg Host.Outcome.next (withDesc_withGroup h _)

theorem templateSet_bad (h : GroupDesc s d 0x22 f g) (hbad : tmplOk s g (tmplOf f.desc) = false) :
    exec (.templateSet d) s = .next (complete d stBad 0 (startedAt d (.group g) s)) := by
  rw [exec_templateSet h, hbad]
  rfl

theorem templateSet_reads (h : GroupDesc s d 0x22 f g) (hok : tmplOk s g (tmplOf f.desc) = true) (hlocal : gLocal (gEntry s g) ≠ 0) :
    exec (.templateSet d) s = .next (hostRead (.obj d 0) (dWord f.desc 48) (32 * gLocal (gEntry s g))
      (modFlight d (fun x => { x with waits := 1 }) (startedAt d (.group g) s))) := by
  rw [exec_templateSet h, hok, if_neg hlocal]
  rfl

theorem templateSet_keeps (h : GroupDesc s d 0x22 f g) (hok : tmplOk s g (tmplOf f.desc) = true) (hlocal : gLocal (gEntry s g) = 0) :
    exec (.templateSet d) s = .next (complete d stOk 0 (modGroup g (templateWaits s f) (startedAt d (.group g) s))) := by
  rw [exec_templateSet h, hok, if_pos hlocal]
  rfl

/-- A template kept for its boundary waits behind the others of its group, and nothing but the Hawk and the completion changes. -/
theorem complete_templateWaits (s : State) (d : DRef) (f : InFlight) (g : Fin 1024) (st r) :
    let t := complete d st r (modGroup g (templateWaits s f) (startedAt d (.group g) s))
    (groupOf t g).waiting = (groupOf s g).waiting ++ [(fld f.desc 192 6, tmplOf f.desc, prepDue s)]
      ∧ flightOf t d = none ∧ HostOnly { s with hawk := t.hawk } t := by
  intro t
  have hlisted : templateWaits s f (groupOf s g) ≠ {} := fun hdefault => by
    have hwaiting := congrArg Group.waiting hdefault
    simp [templateWaits] at hwaiting
  have hgroup : groupOf (modGroup g (templateWaits s f) (startedAt d (.group g) s)) g = templateWaits s f (groupOf s g) :=
    groupOf_modGroup (s := startedAt d (.group g) s) (.inr hlisted)
  obtain ⟨x, y, z, ht⟩ : HostOnly _ t := complete_host ..
  refine ⟨?_, flightOf_complete_self .., x, y, z, ?_⟩
  · rw [ht]
    exact congrArg Group.waiting hgroup
  · rw [ht]
    rfl

theorem groupQuery_answers (h : GroupDesc s d 0x23 f g) :
    exec (.groupQuery d) s = .next (complete d stOk (groupQueryWord s g) (startedAt d (.group g) s)) :=
  congrArg Host.Outcome.next (withDesc_withGroup h fun _ g s => complete d stOk (groupQueryWord s g) s)

end

/-! ### Refusals (R81, R427, R428) -/

section
variable {s : State} {d : DRef} {f : InFlight} {g : Fin 1024} {body : Fin 1024 → State → State}

theorem withGroup_no_target (h : groupTarget f = none) (gen) : withGroup d f gen s body = complete d stBad 0 s := by
  rw [withGroup, h]

theorem withGroup_stale (h : groupTarget f = some g) (hgen : dGen f.desc ≠ fnGen s (.group g)) :
    withGroup d f true (started d s) body = complete d stStaleGen 0 (startedAt d (.group g) s) := by
  have hstale : (true && !genOk (startedAt d (.group g) s) f (.group g)) = true := by
    simp [genOk, show fnGen (startedAt d (.group g) s) (.group g) = fnGen s (.group g) from rfl, hgen]
  rw [withGroup, h]
  exact if_pos hstale

theorem withGroup_denied (h : groupTarget f = some g) (hgen : dGen f.desc = fnGen s (.group g))
    (hten : gTenant (gEntry s g) ≠ dTenant s f) :
    withGroup d f true (started d s) body = complete d stDenied 0 (startedAt d (.group g) s) := by
  have hfresh : ¬ (true && !genOk (startedAt d (.group g) s) f (.group g)) = true := by
    rw [Bool.true_and]
    exact genOk_startedAt hgen d
  rw [withGroup, h]
  exact (if_neg hfresh).trans (if_pos hten)

end

/-- The rows that run on a group of a matching generation, with their opcodes. -/
def groupRows : List ((DRef → Instr) × BitVec 8) := [(.templateSet, 0x22), (.groupQuery, 0x23)]

/-- Each of the rows makes its group's checks first. -/
theorem exec_groupRow {e : (DRef → Instr) × BitVec 8} (he : e ∈ groupRows) {s : State} {d : DRef} {f : InFlight}
    (h : Startable s d e.2 f) : ∃ body, exec (e.1 d) s = .next (withGroup d f true (started d s) body) := by
  simp only [groupRows, List.mem_cons, List.not_mem_nil, or_false] at he
  rcases he with rfl | rfl <;> exact ⟨_, congrArg Host.Outcome.next (withDesc_of_startable h _)⟩

/-! ### The statement -/

/-- Settles O23: TEMPLATE_SET by its checks and its members, GROUP_QUERY, then what a row refuses before either. -/
theorem groupDescriptors : Obligations.GroupDescriptors := by
  unfold Obligations.GroupDescriptors
  refine ⟨?_, ?_, ?_⟩
  · intro s d f g hstart htarget hgen hten u
    have hdesc : GroupDesc s d 0x22 f g := ⟨hstart, htarget, hgen, hten⟩
    exact ⟨fun hbad => templateSet_bad hdesc hbad, fun hok hlocal => templateSet_reads hdesc hok hlocal,
      fun hok hlocal => ⟨templateSet_keeps hdesc hok hlocal, _, templateSet_keeps hdesc hok hlocal, complete_templateWaits ..⟩⟩
  · exact fun s d f g hstart htarget hgen hten => groupQuery_answers ⟨hstart, htarget, hgen, hten⟩
  · intro e he s d f hstart
    obtain ⟨body, hexec⟩ := exec_groupRow he hstart
    rw [hexec]
    refine ⟨fun hnone => congrArg Host.Outcome.next (withGroup_no_target hnone true),
      fun g htarget => ⟨fun hgen => ?_, fun hgen hten => ?_, ?_⟩⟩
    · exact congrArg Host.Outcome.next (withGroup_stale htarget hgen)
    · exact congrArg Host.Outcome.next (withGroup_denied htarget hgen hten)
    · refine ⟨_, hexec, fun hgen => ?_⟩
      rw [withGroup_stale htarget hgen]
      exact ⟨(startedAt_host ..).trans (complete_host ..), flightOf_complete_self ..⟩

end Machine
end Sys2Proof
end

section
/-!
PROOF. The exact sum of a position does not depend on the order of its contributions (R471 to R473).
-/
namespace Sys2Proof
namespace Machine
set_option Elab.async false

/-! ### Exact words (Table 13-2) -/

theorem exactWord_toNat (v : Int) (p n x : Bool) :
    (exactWord v p n x).toNat = (v % (2 : Int) ^ 61).toNat + p.toNat * 2 ^ 61 + n.toNat * 2 ^ 62 + x.toNat * 2 ^ 63 := by
  have hp := p.toNat_lt
  have hn := n.toNat_lt
  have hx := x.toNat_lt
  simp only [exactWord, BitVec.toNat_ofNat, Nat.shiftLeft_eq]
  omega

/-- The bits above the value of an exact word are its three flags. -/
theorem exactWord_flags (v : Int) (p n x : Bool) :
    bit (exactWord v p n x) 61 = p ∧ bit (exactWord v p n x) 62 = n ∧ bit (exactWord v p n x) 63 = x := by
  simp only [bit, BitVec.getLsbD, Nat.testBit_eq_decide_div_mod_eq, exactWord_toNat]
  cases p <;> cases n <;> cases x <;> simp only [Bool.toNat_true, Bool.toNat_false, decide_eq_true_eq, decide_eq_false_iff_not] <;> omega

/-- The value read back from an exact word differs by whole turns of 61 bits. -/
theorem exactValue_exactWord (v : Int) (p n x : Bool) : exactValue (exactWord v p n x) % (2 : Int) ^ 61 = v % (2 : Int) ^ 61 := by
  simp only [exactValue, signed, exactWord_toNat]
  split <;> omega

theorem exactWord_congr {v w : Int} (p n x : Bool) (h : v % (2 : Int) ^ 61 = w % (2 : Int) ^ 61) :
    exactWord v p n x = exactWord w p n x := by
  simp only [exactWord, h]

/-! ### Addition of exact words (R473) -/

theorem exactAdd_comm (a b : BitVec 64) : exactAdd a b = exactAdd b a := by
  simp only [exactAdd, Int.add_comm, Bool.or_comm]

theorem exactAdd_assoc (a b c : BitVec 64) : exactAdd (exactAdd a b) c = exactAdd a (exactAdd b c) := by
  have hl := exactValue_exactWord (exactValue a + exactValue b) (bit a 61 || bit b 61) (bit a 62 || bit b 62) (bit a 63 || bit b 63)
  have hr := exactValue_exactWord (exactValue b + exactValue c) (bit b 61 || bit c 61) (bit b 62 || bit c 62) (bit b 63 || bit c 63)
  obtain ⟨l1, l2, l3⟩ := exactWord_flags (exactValue a + exactValue b) (bit a 61 || bit b 61) (bit a 62 || bit b 62) (bit a 63 || bit b 63)
  obtain ⟨r1, r2, r3⟩ := exactWord_flags (exactValue b + exactValue c) (bit b 61 || bit c 61) (bit b 62 || bit c 62) (bit b 63 || bit c 63)
  simp only [exactAdd, l1, l2, l3, r1, r2, r3, Bool.or_assoc]
  exact exactWord_congr _ _ _ (by omega)

theorem exactAdd_right_comm (a b c : BitVec 64) : exactAdd (exactAdd a b) c = exactAdd (exactAdd a c) b := by
  rw [exactAdd_assoc, exactAdd_comm b c, ← exactAdd_assoc]

/-! ### Addition of contributions, element by element -/

theorem combineAcc_exact_nil (fmt : Nat) (mode : Rnd) (x : List (BitVec 64)) : combineAcc .exact fmt mode [] x = x := rfl

theorem combineAcc_exact_cons {fmt : Nat} {mode : Rnd} {acc : List (BitVec 64)} (h : acc ≠ []) (x : List (BitVec 64)) :
    combineAcc .exact fmt mode acc x = List.zipWith exactAdd acc x := by
  simp only [combineAcc, List.isEmpty_iff, h, if_false, List.map_zip_eq_zipWith]
  rfl

theorem zipWith_exactAdd_comm (x y : List (BitVec 64)) : List.zipWith exactAdd x y = List.zipWith exactAdd y x :=
  List.zipWith_comm_of_comm exactAdd_comm

theorem zipWith_exactAdd_right_comm : ∀ z x y : List (BitVec 64),
    List.zipWith exactAdd (List.zipWith exactAdd z x) y = List.zipWith exactAdd (List.zipWith exactAdd z y) x
  | [], _, _ => by simp
  | _ :: _, [], _ => by simp
  | _ :: _, _ :: _, [] => by simp
  | a :: z, b :: x, c :: y => by
    simp only [List.zipWith_cons_cons, exactAdd_right_comm a b c, zipWith_exactAdd_right_comm z x y]

/-- Two contributions of one length may be added in either order to whatever the position holds. -/
theorem combineAcc_exact_right_comm (fmt : Nat) (mode : Rnd) (z : List (BitVec 64)) {x y : List (BitVec 64)}
    (h : x.length = y.length) :
    combineAcc .exact fmt mode (combineAcc .exact fmt mode z x) y = combineAcc .exact fmt mode (combineAcc .exact fmt mode z y) x := by
  cases x with
  | nil =>
    obtain rfl : y = [] := List.length_eq_zero_iff.mp h.symm
    rfl
  | cons b x =>
    cases y with
    | nil => simp at h
    | cons c y =>
      cases z with
      | nil => simp only [combineAcc_exact_nil, combineAcc_exact_cons (List.cons_ne_nil _ _), zipWith_exactAdd_comm (b :: x)]
      | cons a z =>
        have hne : ∀ u v : List (BitVec 64), ∀ d, List.zipWith exactAdd (a :: u) (d :: v) ≠ [] := by simp
        rw [combineAcc_exact_cons (List.cons_ne_nil a z), combineAcc_exact_cons (List.cons_ne_nil a z), combineAcc_exact_cons (hne _ _ _),
          combineAcc_exact_cons (hne _ _ _), zipWith_exactAdd_right_comm]

theorem firstAcc_exact_length (fmt : Nat) (bs : List Byte) : (firstAcc .exact fmt bs).length = bs.length / elemBytes fmt := by
  simp [firstAcc, cellElems, upFrom_zero]

/-- Settles O26: the additions of two contributions commute, so the order of all of them does not matter. -/
theorem exactSumAnyOrder : Obligations.ExactSumAnyOrder := by
  unfold Obligations.ExactSumAnyOrder
  intro fmt mode n xs ys hperm hlen
  refine hperm.foldl_eq' (fun x hx y hy z => combineAcc_exact_right_comm fmt mode z ?_) []
  rw [firstAcc_exact_length, firstAcc_exact_length, hlen x hx, hlen y hy]

end Machine
end Sys2Proof
end

section
/-!
PROOF. The fields of an instruction word (R570, Table 16-1), a step as the command at the front of the queue (log 1), and the state at the
end of reset (log 40).
-/
namespace Sys2Proof
namespace Machine
set_option Elab.async false

/-! ### Fields and words -/

/-- The bits of a word from its fields, lowest field first. -/
theorem getLsbD_encodeWord (i : IWord) (k : Nat) : (encodeWord i).getLsbD k =
    if k < 32 then i.low.getLsbD k else if k < 37 then i.c.getLsbD (k - 32) else if k < 42 then i.b.getLsbD (k - 37)
    else if k < 47 then i.a.getLsbD (k - 42) else if k < 52 then i.d.getLsbD (k - 47) else if k < 55 then i.pg.getLsbD (k - 52)
    else if k < 60 then i.op.getLsbD (k - 55) else i.cls.getLsbD (k - 60) := by
  rw [encodeWord]
  grind

theorem decodeWord_encodeWord (i : IWord) : decodeWord (encodeWord i) = i := by
  obtain ⟨cls, op, pg, d, a, b, c, low⟩ := i
  simp only [decodeWord, IWord.mk.injEq]
  refine ⟨?_, ?_, ?_, ?_, ?_, ?_, ?_, ?_⟩ <;>
  · refine BitVec.eq_of_getLsbD_eq fun k hk => ?_
    rw [BitVec.getLsbD_extractLsb', getLsbD_encodeWord]
    grind

theorem encodeWord_decodeWord (w : Word) : encodeWord (decodeWord w) = w := by
  refine BitVec.eq_of_getLsbD_eq fun k hk => ?_
  simp only [getLsbD_encodeWord, decodeWord, BitVec.getLsbD_extractLsb']
  grind

/-- Settles O32: each direction is a lemma of encoder and decoder. -/
theorem isaWordFieldsAgree : Obligations.IsaWordFieldsAgree := ⟨decodeWord_encodeWord, encodeWord_decodeWord⟩

/-! ### A step -/

/-- Settles O57: the two branches of step, by the queue. -/
theorem stepRunsFrontCommand : Obligations.StepRunsFrontCommand := by
  unfold Obligations.StepRunsFrontCommand
  refine ⟨fun c rest s => rfl, fun s h => ?_⟩
  unfold step
  rw [h]

/-! ### The end of reset -/

theorem memRead_nil : ∀ n a : Nat, memRead [] a n = List.replicate n 0
  | 0, _ => rfl
  | n + 1, a => by rw [memRead, memRead_nil n, tblGet_nil, List.replicate_succ]

/-- Settles O58: the table of instances and the memories are empty, and the other fields stand in the definition of the state. -/
theorem resetState : Obligations.ResetState := by
  unfold Obligations.ResetState
  exact ⟨reset_memWf, rfl, fun x => ⟨rfl, rfl⟩, fun l => rfl, rfl, rfl, rfl, rfl, rfl, rfl, rfl, rfl, fun a n => memRead_nil n a⟩

end Machine
end Sys2Proof
end

section
/-!
PROOF. Issuing an instruction of a hardware thread (R528, R571, R574, R599): what each outcome of the fetch and of R571 does, what an
issue leaves of the state, and the statement of IllegalInstructionsFault.
-/
namespace Sys2Proof
namespace Machine
set_option Elab.async false

/-! ### The outcomes of an issue -/

section
variable {s : State} {t : Thr} {cls op : Nat} {i : IWord} {body : Kernel → IWord → Thread → State → Option State}

theorem fetchInstr_outside {v : Kernel} {h : Thread} (hlen : v.codeLen < 8 * h.pc + 8) : fetchInstr s v t h = (0x08, none) := by
  simp [fetchInstr, hlen]

theorem issue_outside (hmay : mayIssue s (thr s t) = true) (hlen : (kernelAt s (thr s t).kernel).codeLen < 8 * (thr s t).pc + 8) :
    issue t cls op body s = fault t 0x08 (thr s t).pc s := by
  simp [issue, hmay, fetchInstr_outside hlen]

theorem issue_reserved {w : Word} (hmay : mayIssue s (thr s t) = true)
    (hfetch : fetchInstr s (kernelAt s (thr s t).kernel) t (thr s t) = (0, some w))
    (hrule : opRule (decodeWord w).cls.toNat (decodeWord w).op.toNat = none) :
    issue t cls op body s = fault t 0x01 (thr s t).pc s := by
  simp [issue, hmay, hfetch, hrule]

theorem issue_forbidden {w : Word} {r : OpRule} (hmay : mayIssue s (thr s t) = true)
    (hfetch : fetchInstr s (kernelAt s (thr s t).kernel) t (thr s t) = (0, some w))
    (hrule : opRule (decodeWord w).cls.toNat (decodeWord w).op.toNat = some r) (hok : wordOk r (decodeWord w) = false) :
    issue t (decodeWord w).cls.toNat (decodeWord w).op.toNat body s = fault t 0x01 (thr s t).pc s := by
  simp [issue, hmay, hfetch, hrule, hok]

/-- An instruction that issues runs its body; the issue is counted where the body has an effect. -/
theorem issue_of_issues (h : Issues s t cls op i) : issue t cls op body s =
    ((body (kernelAt s (thr s t).kernel) i (thr s t) s).map (counted s t cls)).getD s := by
  obtain ⟨hmay, hfetch, hcls, hop, r, hrule, hok, hbusy⟩ := h
  simp [issue, hmay, hfetch, decodeWord_encodeWord, hcls, hop, hrule, hok, hbusy]
  cases body (kernelAt s (thr s t).kernel) i (thr s t) s <;> rfl

theorem issue_effect {s' : State} (h : Issues s t cls op i) (hbody : body (kernelAt s (thr s t).kernel) i (thr s t) s = some s') :
    issue t cls op body s = counted s t cls s' := by
  rw [issue_of_issues h, hbody]
  rfl

/-- The thread of an instruction that issues is active and has not ended. -/
theorem active_of_issues (h : Issues s t cls op i) : (thr s t).active = true ∧ (thr s t).ended = false := by
  obtain ⟨hmay, -⟩ := h
  simp only [mayIssue, Bool.and_eq_true, Bool.not_eq_true'] at hmay
  exact ⟨hmay.1.1.1.1, hmay.1.1.1.2⟩

theorem runGoesOn_of_issues (h : Issues s t cls op i) : RunGoesOn s t := by
  refine ⟨(active_of_issues h).1, (active_of_issues h).2, ?_⟩
  obtain ⟨hmay, -⟩ := h
  simp only [mayIssue, Bool.and_eq_true] at hmay
  obtain ⟨-, hrun⟩ := hmay
  split at hrun
  next r hr =>
    simp only [Bool.and_eq_true, decide_eq_true_eq] at hrun
    exact ⟨r, hr, hrun.2⟩
  next => cases hrun

@[simp] theorem thr_counted (s : State) (t : Thr) (cls : Nat) (u : State) (x : Thr) : thr (counted s t cls u) x = thr u x := rfl
@[simp] theorem counted_work (s : State) (t : Thr) (cls : Nat) (u : State) : (counted s t cls u).work = u.work := rfl

/-- An issue whose effect is on its thread alone. -/
theorem threadStep_counted {v : Thread} (hv : v.active = true) (u : State) : ThreadStep u t v (counted s t cls (setThr t v u)) :=
  ⟨thr_setThr_self t hv u, fun _ hy => thr_setThr_ne hy v u, rfl⟩

theorem issue_setThr (h : Issues s t cls op i) {v : Thread} (hv : v.active = (thr s t).active)
    (hbody : body (kernelAt s (thr s t).kernel) i (thr s t) s = some (setThr t v s)) :
    ∃ s', Host.Outcome.next (issue t cls op body s) = (.next s' : Out) ∧ ThreadStep s t v s' :=
  ⟨_, congrArg Host.Outcome.next (issue_effect h hbody), threadStep_counted (hv.trans (active_of_issues h).1) s⟩

/-- An instruction that works on its thread's registers alone, from the row's meaning. -/
theorem onThread_step {c : Instr} {f : IWord → Thread → Thread} (hexec : exec c s = onThread t cls op f s) (h : Issues s t cls op i)
    (hf : (f i (thr s t)).active = (thr s t).active := by rfl) :
    Completes c s (ThreadStep s t (f i (thr s t)).next) := by
  obtain ⟨s', hs', hstep⟩ := issue_setThr (v := (f i (thr s t)).next) (body := fun _ i h s => some (setThr t (f i h).next s)) h hf rfl
  exact ⟨s', hexec.trans hs', hstep⟩

end

/-! ### A fault stops its run (R555) -/

theorem tblGet_freeThreads {s : State} (hwf : tblWf {} s.work.thr = true) (k : Fin 256) (n : BitVec 32) (t : Thr) :
    thr (freeThreads k n s) t
      = if (thr s t).active && (thr s t).kernel = k && (thr s t).run = n then { thr s t with active := false } else thr s t :=
  tblGet_tblMap (f := fun _ (h : Thread) => if h.active && h.kernel = k && h.run = n then { h with active := false } else h) rfl hwf

/-- Reporting a run changes nothing of the Workroom but the count of done records that failed (R554). -/
theorem reportRun_work (k : Fin 256) (v : Kernel) (r : Run) (bs : List Byte) (s : State) :
    ∃ n, (reportRun k v r bs s).work = { s.work with doneFails := n } := by
  unfold reportRun
  extract_lets u
  have hu : u.work = s.work := rfl
  split
  · exact ⟨s.work.doneFails, (complete_host ..).mems.2.trans hu⟩
  · split
    · exact ⟨s.work.doneFails, hu⟩
    · extract_lets
      split
      next h => exact ⟨s.work.doneFails, (sendItem_core h).kept.2.1.trans hu⟩
      next => exact ⟨s.work.doneFails + 1, (raiseEv_host ..).mems.2⟩
  · split
    · exact ⟨s.work.doneFails, (inject_core ..).kept.2.1.trans hu⟩
    · exact ⟨s.work.doneFails, (sendFail_core ..).kept.2.1.trans hu⟩

theorem reportRun_thr (k : Fin 256) (v : Kernel) (r : Run) (bs : List Byte) (s : State) : (reportRun k v r bs s).work.thr = s.work.thr := by
  obtain ⟨n, h⟩ := reportRun_work k v r bs s
  rw [h]

theorem reportRun_mem (k : Fin 256) (v : Kernel) (r : Run) (bs : List Byte) (s : State) : (reportRun k v r bs s).work.mem = s.work.mem := by
  obtain ⟨n, h⟩ := reportRun_work k v r bs s
  rw [h]

theorem thr_endRun (k : Fin 256) (r : Run) (bs : List Byte) (s : State) (t : Thr) :
    thr (endRun k r bs s) t = thr (freeThreads k r.num s) t := by
  unfold endRun thr
  rw [reportRun_thr]
  rfl

theorem endRun_inactive {s : State} (hwf : tblWf {} s.work.thr = true) (t : Thr) {r : Run} (hr : (thr s t).run = r.num) (bs : List Byte) :
    (thr (endRun (thr s t).kernel r bs s) t).active = false := by
  rw [thr_endRun, tblGet_freeThreads hwf]
  split
  · rfl
  next hne => simpa [hr] using hne

/-- No thread of a run that is over, or whose status is not OK, issues. -/
theorem mayIssue_of_status {s : State} {h : Thread} {r : Run} (hr : workRun s h.kernel h.run = some r) (hst : r.status ≠ stOk) :
    mayIssue s h = false := by
  simp only [mayIssue, hr, decide_eq_false hst, Bool.and_false]

theorem settleRun_stops {s : State} (hwf : tblWf {} s.work.thr = true) (t : Thr) {r : Run}
    (hr : workRun s (thr s t).kernel (thr s t).run = some r) (hst : r.status ≠ stOk) :
    mayIssue (settleRun (thr s t).kernel (thr s t).run s) (thr (settleRun (thr s t).kernel (thr s t).run s) t) = false := by
  have hnum : r.num = (thr s t).run := by simpa using List.find?_some hr
  unfold settleRun
  rw [hr]
  dsimp only
  split
  · rw [mayIssue, endRun_inactive hwf t hnum.symm]
    rfl
  · exact mayIssue_of_status hr hst

theorem kernelAt_setKernel {k : Fin 256} {v : Kernel} {s : State} (h : v ≠ {}) : kernelAt (setKernel k v s) k = v :=
  tblGet_tblSet_of_ne _ _ _ _ h

theorem find?_map_num {n : BitVec 32} {f : Run → Run} (hf : ∀ r, (f r).num = r.num) {r : Run} {l : List Run}
    (h : l.find? (fun r => r.num = n) = some r) :
    (l.map (fun r => if r.num = n then f r else r)).find? (fun r => r.num = n) = some (f r) := by
  have hnum : r.num = n := by simpa using List.find?_some h
  rw [List.find?_map]
  have hp : ((fun r : Run => decide (r.num = n)) ∘ fun r => if r.num = n then f r else r) = fun r => decide (r.num = n) := by
    funext x
    by_cases hx : x.num = n <;> simp [hx, hf]
  rw [hp, h]
  simp [hnum]

/-- The run named is the one changed. -/
theorem workRun_modWorkRun {k : Fin 256} {n : BitVec 32} {f : Run → Run} (hf : ∀ r, (f r).num = r.num) {s : State} {r : Run}
    (h : workRun s k n = some r) : workRun (modWorkRun k n f s) k n = some (f r) := by
  have hfind := find?_map_num hf h
  have hruns : kernelAt (modWorkRun k n f s) k
      = { kernelAt s k with runs := (kernelAt s k).runs.map (fun r => if r.num = n then f r else r) } :=
    kernelAt_setKernel fun hd => by
      have hnil := congrArg Kernel.runs hd
      dsimp only at hnil
      rw [hnil] at hfind
      cases hfind
  rw [workRun, hruns]
  exact hfind

theorem fault_stops {s : State} {t : Thr} {cause a : Nat} {r : Run} (hr : workRun s (thr s t).kernel (thr s t).run = some r)
    (hst : r.status = stOk) (hcause : faultStatus cause ≠ stOk) (hwf : tblWf {} s.work.thr = true) :
    mayIssue (fault t cause a s) (thr (fault t cause a s) t) = false := by
  have hmod := workRun_modWorkRun (f := fun r => { r with status := faultStatus cause }) (fun _ => rfl) hr
  have hwork := (raiseEv_host 0x40 (thr s t).kernel.val (faultDetail (thr s t) t cause a) r.gen
    (modWorkRun (thr s t).kernel (thr s t).run (fun r => { r with status := faultStatus cause }) s)).mems.2
  simp only [fault, faultWith, hr, hst, ne_eq, not_true_eq_false, if_false]
  generalize raiseEv _ _ _ _ _ = u at hwork ⊢
  have hthr : thr u t = thr s t := by
    rw [thr, hwork]
    rfl
  have hrun : workRun u (thr u t).kernel (thr u t).run = some { r with status := faultStatus cause } := by
    rw [hthr, workRun, kernelAt, hwork]
    exact hmod
  have huwf : tblWf {} u.work.thr = true := by
    rw [hwork]
    exact hwf
  have hstop := settleRun_stops huwf t hrun hcause
  rwa [hthr] at hstop

/-- Settles O40: the three faults of an issue, and the run that a fault stops. -/
theorem illegalInstructionsFault : Obligations.IllegalInstructionsFault := by
  unfold Obligations.IllegalInstructionsFault
  exact ⟨fun t cls op body s => issue_outside, fun t cls op body s w => issue_reserved, fun t body s w r => issue_forbidden,
    fun s t cause a r => fault_stops⟩

end Machine
end Sys2Proof
end

section
/-!
PROOF. The scalar class (Table 16-7, R364, R365, R575 to R577): what its instructions write, and the statement of ScalarResults.
-/
namespace Sys2Proof
namespace Machine
set_option Elab.async false

/-! ### Words -/

theorem mul_eq_ofNat (a b : Word) : a * b = BitVec.ofNat 64 (a.toNat * b.toNat) := BitVec.eq_of_toNat_eq (by simp)

theorem sshiftRight_eq_ofInt (a : Word) (n : Nat) : a.sshiftRight n = BitVec.ofInt 64 (a.toInt / 2 ^ n) := by
  rw [BitVec.sshiftRight, Int.shiftRight_eq_div_pow]
  norm_cast

theorem ite_slt {α : Type} (a b : Word) (x y : α) : (if a.slt b then x else y) = if a.toInt < b.toInt then x else y := by
  simp only [BitVec.slt_eq_decide, decide_eq_true_eq]

theorem ite_ult {α : Type} (a b : Word) (x y : α) : (if a.ult b then x else y) = if a.toNat < b.toNat then x else y := by
  simp only [BitVec.ult_eq_decide, decide_eq_true_eq]

/-- LIH's word: the immediate above the low half of sd. -/
theorem append_low_toNat (x : BitVec 32) (y : Word) : (x ++ y.setWidth 32).toNat = x.toNat * 2 ^ 32 + y.toNat % 2 ^ 32 := by
  have hy := (y.setWidth 32).isLt
  rw [BitVec.toNat_append, ← Nat.shiftLeft_add_eq_or_of_lt hy, Nat.shiftLeft_eq, BitVec.toNat_setWidth]

theorem Fp.lt_nan {a b : Fp} (h : a.isNan = true ∨ b.isNan = true) : a.lt b = false := by
  cases a <;> cases b <;> simp_all [Fp.isNan, Fp.lt]

/-! ### The instructions -/

section
variable {s : State} {t : Thr} {op : Nat} {i : IWord} {c : Instr}

theorem scalar2_step {f g : Word → Word → Word} (h : Issues s t 0 op i) (hexec : exec c s = onThread t 0 op (scalar2 g) s)
    (hfg : ∀ a b, g a b = f a b := by exact fun _ _ => rfl) :
    Completes c s (ThreadStep s t ((thr s t).putS i.d.toNat (f ((thr s t).sReg i.a.toNat) ((thr s t).sReg i.b.toNat))).next) := by
  rw [← hfg]
  exact onThread_step hexec h

theorem scalarImm_step {f g : Word → Word → Word} (h : Issues s t 0 op i) (hexec : exec c s = onThread t 0 op (scalarImm g) s)
    (hfg : ∀ a b, g a b = f a b := by exact fun _ _ => rfl) :
    Completes c s (ThreadStep s t ((thr s t).putS i.d.toNat (f ((thr s t).sReg i.a.toNat) (i.low.signExtend 64))).next) := by
  rw [← hfg]
  exact onThread_step hexec h

theorem scalarF_step {f : Rnd → Bool → Nat → Nat → Nat → Nat × FpFlags} (h : Issues s t 0 op i)
    (hexec : exec c s = onThread t 0 op (scalarF f) s) :
    let v := thr s t
    let r := f (rndOf i.rnd) i.sat ((v.sReg i.a.toNat).toNat % 2 ^ 32) ((v.sReg i.b.toNat).toNat % 2 ^ 32)
      ((v.sReg i.c.toNat).toNat % 2 ^ 32)
    Completes c s (ThreadStep s t { (v.putS i.d.toNat (BitVec.ofNat 64 r.1)) with flags := v.flags ||| r.2, pc := v.pc + 1 }) :=
  onThread_step hexec h

end

/-- Settles O33: each instruction is the shape of its row with the row's operation. -/
theorem scalarResults : Obligations.ScalarResults := by
  unfold Obligations.ScalarResults
  refine ⟨⟨fun e he s t i h => ?_, fun e he s t i h => ?_, fun s t i h => ?_⟩,
    fun e he s t i h => ?_, fun s t i h => ?_, fun s t i h => ?_, fun s t i h => ?_⟩
  · simp only [List.mem_cons, List.not_mem_nil, or_false] at he
    rcases he with rfl | rfl | rfl | rfl | rfl | rfl | rfl | rfl | rfl | rfl | rfl | rfl | rfl | rfl | rfl | rfl
    · exact scalar2_step h rfl
    · exact scalar2_step h rfl
    · exact scalar2_step h rfl mul_eq_ofNat
    · exact scalar2_step h rfl fun a b => by rw [Nat.shiftRight_eq_div_pow]
    · exact scalar2_step h rfl
    · exact scalar2_step h rfl
    · exact scalar2_step h rfl
    · exact scalar2_step h rfl
    · exact scalar2_step h rfl
    · exact scalar2_step h rfl fun a b => sshiftRight_eq_ofInt a _
    · exact scalar2_step h rfl fun a b => ite_slt ..
    · exact scalar2_step h rfl fun a b => ite_slt ..
    · exact scalar2_step h rfl fun a b => ite_ult ..
    · exact scalar2_step h rfl fun a b => ite_ult ..
    · exact scalar2_step h rfl fun a b => ite_slt ..
    · exact scalar2_step h rfl fun a b => ite_ult ..
  · simp only [List.mem_cons, List.not_mem_nil, or_false] at he
    rcases he with rfl | rfl | rfl | rfl | rfl | rfl | rfl | rfl
    · exact scalarImm_step h rfl
    · exact scalarImm_step h rfl
    · exact scalarImm_step h rfl
    · exact scalarImm_step h rfl
    · exact scalarImm_step h rfl
    · exact scalarImm_step h rfl
    · exact scalarImm_step h rfl fun a b => sshiftRight_eq_ofInt a _
    · exact scalarImm_step (g := fun _ b => b) h rfl
  · obtain ⟨s', hs', hstep⟩ := onThread_step (c := .lih t) rfl h
    exact ⟨s', hs', _, append_low_toNat .., hstep⟩
  · simp only [List.mem_cons, List.not_mem_nil, or_false] at he
    rcases he with rfl | rfl | rfl | rfl
    · exact scalarF_step h rfl
    · exact scalarF_step h rfl
    · exact scalarF_step h rfl
    · exact scalarF_step h rfl
  · obtain ⟨s', hs', hstep⟩ := onThread_step (c := .flt t) rfl h
    refine ⟨s', hs', _, rfl, fun hnan => if_neg ?_, hstep⟩
    rw [Fp.lt_nan hnan]
    exact Bool.false_ne_true
  · exact onThread_step (c := .itof t) rfl h
  · exact onThread_step (c := .ftoi t) rfl h

end Machine
end Sys2Proof
end

section
/-!
PROOF. The vector and predicate classes (Tables 16-8 and 16-9): lanes, masks, and the statements of VectorArithmeticLanes and
VectorMovesAndPredicates.
-/
namespace Sys2Proof
namespace Machine
set_option Elab.async false

/-! ### Lanes (R572, R573) -/

/-- The lanes of one register that are written under a mask; a lane has one place in the table. -/
theorem tblGet_foldl_lanes {r d l : Nat} (hl : l < 256) (m : BitVec 256) (f : Nat → BitVec 32) :
    ∀ (ls : List Nat) {v : Tbl (BitVec 32)}, tblWf 0 v = true → (∀ k ∈ ls, k < 256) →
      tblGet 0 (ls.foldl (fun v k => if bit m k then tblSet 0 v (256 * d + k) (f k) else v) v) (256 * r + l)
        = if r = d ∧ l ∈ ls ∧ bit m l = true then f l else tblGet 0 v (256 * r + l)
  | [], v, _, _ => by simp
  | k :: ls, v, hwf, hls => by
    have hk : k < 256 := hls k List.mem_cons_self
    have hrest : ∀ j ∈ ls, j < 256 := fun j hj => hls j (List.mem_cons_of_mem k hj)
    rw [List.foldl_cons]
    by_cases hm : bit m k = true
    · rw [if_pos hm, tblGet_foldl_lanes hl m f ls (tblWf_tblSet 0 v _ _ hwf) hrest]
      by_cases hkey : 256 * r + l = 256 * d + k
      · obtain ⟨rfl, rfl⟩ : r = d ∧ l = k := by omega
        rw [tblGet_tblSet_self 0 v _ _ hwf, ite_self, if_pos ⟨rfl, List.mem_cons_self, hm⟩]
      · have hne : ¬ (r = d ∧ l = k) := by omega
        rw [tblGet_tblSet_ne 0 v _ _ _ hkey]
        refine if_congr ?_ rfl rfl
        simp only [List.mem_cons]
        tauto
    · rw [if_neg hm, tblGet_foldl_lanes hl m f ls hwf hrest]
      refine if_congr ?_ rfl rfl
      simp only [List.mem_cons]
      constructor
      · exact fun ⟨hr, hmem, hbit⟩ => ⟨hr, .inr hmem, hbit⟩
      · rintro ⟨hr, rfl | hmem, hbit⟩
        · exact absurd hbit hm
        · exact ⟨hr, hmem, hbit⟩

theorem putLanes_v (h : Thread) (d : Nat) (m : BitVec 256) (f : Nat → BitVec 32) : (h.putLanes d m f).v
    = (upFrom 0 256).foldl (fun v l => if bit m l then tblSet 0 v (256 * d + l) (f l) else v) h.v := by
  rw [Thread.putLanes]

@[simp] theorem putLanes_active (h : Thread) (d : Nat) (m : BitVec 256) (f : Nat → BitVec 32) :
    (h.putLanes d m f).active = h.active := by
  rw [Thread.putLanes]

theorem putS_active (h : Thread) (n : Nat) (x : Word) : (h.putS n x).active = h.active := by
  rw [Thread.putS]

theorem next_lane (h : Thread) (r l : Nat) : h.next.lane r l = h.lane r l := by
  rw [Thread.next, Thread.lane, Thread.lane]

theorem flag_lane (h : Thread) (g : FpFlags) (r l : Nat) : (h.flag g).lane r l = h.lane r l := by
  rw [Thread.flag, Thread.lane, Thread.lane]

@[simp] theorem flag_active (h : Thread) (g : FpFlags) : (h.flag g).active = h.active := by
  rw [Thread.flag]

theorem lane_putLanes {h : Thread} (hwf : tblWf 0 h.v = true) (d : Nat) (m : BitVec 256) (f : Nat → BitVec 32) (r : Nat) {l : Nat}
    (hl : l < 256) : (h.putLanes d m f).lane r l = if r = d ∧ bit m l = true then f l else h.lane r l := by
  have hmem : ∀ k, k ∈ upFrom 0 256 ↔ k < 256 := fun _ => mem_upFrom
  rw [Thread.lane, putLanes_v]
  generalize upFrom 0 256 = ls at hmem ⊢
  rw [tblGet_foldl_lanes hl m f ls hwf fun k => (hmem k).mp]
  exact if_congr (by simp only [(hmem l).mpr hl, true_and]) rfl rfl

theorem lanesF_eq (f : Nat → BitVec 32 × FpFlags) (i : IWord) (h : Thread) : lanesF f i h
    = (h.putLanes i.d.toNat (h.pReg i.pg.toNat) (fun l => (f l).1)).flag ((maskLanes (h.pReg i.pg.toNat)).foldl (fun g l => g ||| (f l).2) 0) := by
  rw [lanesF, guard]

theorem lanesWritten_putLanes {h : Thread} (hwf : tblWf 0 h.v = true) (d : Nat) (m : BitVec 256) (f : Nat → BitVec 32) :
    LanesWritten h d m f (h.putLanes d m f).next := by
  refine ⟨fun l hl => ?_, fun r l hl hr => ?_, by rw [Thread.next, Thread.putLanes], by rw [Thread.next, Thread.putLanes],
    by rw [Thread.next, Thread.putLanes]⟩
  · rw [next_lane, lane_putLanes hwf d m f d hl]
    exact if_congr (and_iff_right rfl) rfl rfl
  · rw [next_lane, lane_putLanes hwf d m f r hl, if_neg fun hrd => hr hrd.1]

theorem LanesWritten.flag {h v : Thread} {d : Nat} {m : BitVec 256} {f : Nat → BitVec 32} (hw : LanesWritten h d m f v.next)
    (g : FpFlags) : LanesWritten h d m f (v.flag g).next := by
  obtain ⟨hd, hother, hs, hp, hpc⟩ := hw
  simp only [next_lane] at hd hother
  simp only [LanesWritten, next_lane, flag_lane]
  rw [Thread.next] at hs hp hpc
  rw [Thread.next, Thread.flag]
  exact ⟨hd, hother, hs, hp, hpc⟩

section
variable {s : State} {t : Thr} {op cls : Nat} {i : IWord} {c : Instr} {f : Nat → BitVec 32}

/-- An instruction that writes the guarded lanes of vd alone. -/
theorem putLanes_step {f : IWord → Thread → Nat → BitVec 32} (h : Issues s t cls op i) (hwf : tblWf 0 (thr s t).v = true)
    (hexec : exec c s = onThread t cls op (fun i h => h.putLanes i.d.toNat (guard i h) (f i h)) s) :
    Completes c s fun s' => ∃ h', ThreadStep s t h' s'
      ∧ LanesWritten (thr s t) i.d.toNat ((thr s t).pReg i.pg.toNat) (f i (thr s t)) h' := by
  obtain ⟨s', hs', hstep⟩ := onThread_step hexec h (putLanes_active ..)
  exact ⟨s', hs', _, hstep, lanesWritten_putLanes hwf ..⟩

/-- The same with flags. -/
theorem putLanes_flag_step {k : IWord → Thread → Thread} (h : Issues s t cls op i) (hwf : tblWf 0 (thr s t).v = true)
    (hexec : exec c s = onThread t cls op k s)
    (hk : ∃ g, k i (thr s t) = ((thr s t).putLanes i.d.toNat ((thr s t).pReg i.pg.toNat) f).flag g) :
    Completes c s fun s' => ∃ h', ThreadStep s t h' s' ∧ LanesWritten (thr s t) i.d.toNat ((thr s t).pReg i.pg.toNat) f h' := by
  obtain ⟨g, hk⟩ := hk
  obtain ⟨s', hs', hstep⟩ := onThread_step hexec h (by rw [hk, flag_active, putLanes_active])
  rw [hk] at hstep
  exact ⟨s', hs', _, hstep, (lanesWritten_putLanes hwf ..).flag g⟩

/-- Lanes with flags, by a function of the lane. -/
theorem lanesF_step {k : IWord → Thread → Nat → BitVec 32 × FpFlags} (h : Issues s t cls op i) (hwf : tblWf 0 (thr s t).v = true)
    (hexec : exec c s = onThread t cls op (fun i h => lanesF (k i h) i h) s) :
    Completes c s fun s' => ∃ h', ThreadStep s t h' s'
      ∧ LanesWritten (thr s t) i.d.toNat ((thr s t).pReg i.pg.toNat) (fun l => (k i (thr s t) l).1) h' :=
  putLanes_flag_step h hwf hexec ⟨_, lanesF_eq ..⟩

theorem vector3_step {f : Nat → Rnd → Bool → Nat → Nat → Nat → Nat × FpFlags} (h : Issues s t 1 op i) (hwf : tblWf 0 (thr s t).v = true)
    (hexec : exec c s = onThread t 1 op (vector3 f) s) :
    Completes c s fun s' => ∃ h', ThreadStep s t h' s'
      ∧ LanesWritten (thr s t) i.d.toNat ((thr s t).pReg i.pg.toNat) (elemLane f i (thr s t)) h' :=
  lanesF_step h hwf hexec

theorem vectorFun_step {g : Fp → Fp} (h : Issues s t 1 op i) (hwf : tblWf 0 (thr s t).v = true)
    (hexec : exec c s = onThread t 1 op (vectorFun g) s) :
    Completes c s fun s' => ∃ h', ThreadStep s t h' s'
      ∧ LanesWritten (thr s t) i.d.toNat ((thr s t).pReg i.pg.toNat) (funLane g i (thr s t)) h' :=
  lanesF_step (k := fun i h l => let r := fpFun g (rndOf i.rnd) i.sat (h.lane i.a.toNat l).toNat; (BitVec.ofNat 32 r.1, r.2)) h hwf hexec

end

/-- Settles O34: each instruction is an element operation, or a function of FP32, on the guarded lanes. -/
theorem vectorArithmeticLanes : Obligations.VectorArithmeticLanes := by
  unfold Obligations.VectorArithmeticLanes
  intro e he s t i h hwf
  simp only [List.mem_cons, List.not_mem_nil, or_false] at he
  rcases he with rfl | rfl | rfl | rfl | rfl | rfl | rfl | rfl | rfl | rfl | rfl | rfl | rfl | rfl | rfl | rfl | rfl
  iterate 4 exact vector3_step h hwf rfl
  · exact vector3_step (f := fun f _ _ => elemMinMax false f) h hwf rfl
  · exact vector3_step (f := fun f _ _ => elemMinMax true f) h hwf rfl
  · exact vector3_step (f := fun f _ z => elemAbs f z) h hwf rfl
  · exact vector3_step (f := fun f _ z => elemNeg f z) h hwf rfl
  · exact vector3_step (f := fun f _ _ => elemShl f) h hwf rfl
  · exact vector3_step (f := fun f _ _ => elemShr f) h hwf rfl
  · exact vector3_step (f := fun f _ _ => elemSar f) h hwf rfl
  iterate 6 exact vectorFun_step h hwf rfl

/-! ### Masks -/

/-- A sum of distinct powers of two holds the bits that were added. -/
theorem testBit_foldl_pow (f : Nat → Bool) (k : Nat) : ∀ (n a acc : Nat), acc < 2 ^ a →
    ((upFrom a n).foldl (fun n l => if f l then n + 2 ^ l else n) acc).testBit k
      = if k < a then acc.testBit k else decide (k < a + n) && f k
  | 0, a, acc, hacc => by
    rw [upFrom, List.foldl_nil]
    split
    · rfl
    next hk => simp [hk, Nat.testBit_lt_two_pow (hacc.trans_le (Nat.pow_le_pow_right two_pos (not_lt.mp hk)))]
  | n + 1, a, acc, hacc => by
    have hpow : 2 ^ (a + 1) = 2 ^ a + 2 ^ a := by omega
    have hnext : (if f a = true then acc + 2 ^ a else acc) < 2 ^ (a + 1) := by split <;> omega
    rw [upFrom, List.foldl_cons, testBit_foldl_pow f k n (a + 1) _ hnext]
    rcases lt_trichotomy k a with hk | rfl | hk
    · rw [if_pos (hk.trans a.lt_succ_self), if_pos hk]
      split
      · rw [Nat.add_comm, Nat.testBit_two_pow_add_gt hk]
      · rfl
    · have hbit : acc.testBit k = false := Nat.testBit_lt_two_pow hacc
      rw [if_pos k.lt_succ_self, if_neg k.lt_irrefl]
      cases f k
      · simp [hbit]
      · simp [Nat.add_comm acc, Nat.testBit_two_pow_add_eq, hbit]
    · rw [if_neg (by omega), if_neg (by omega)]
      simp [Nat.add_comm 1 n, Nat.add_assoc]

theorem bit_maskOf (f : Nat → Bool) {l : Nat} (hl : l < 256) : bit (maskOf f) l = f l := by
  rw [bit, maskOf, BitVec.getLsbD_ofNat, testBit_foldl_pow f l 256 0 0 (by decide)]
  simp [hl]

/-- PFIRST's word: a bit of −a differs from that of a above the lowest bit set. -/
theorem bit_and_neg (a : BitVec 256) {l : Nat} (hl : l < 256) :
    bit (a &&& -a) l = true ↔ bit a l = true ∧ ∀ k, k < l → bit a k = false := by
  simp only [bit, BitVec.getLsbD_and, BitVec.getLsbD_neg, hl, decide_true, Bool.true_and, Bool.and_eq_true]
  refine and_congr_right fun ha => ?_
  simp [ha]

theorem foldl_bitsOf (a : BitVec 256) : ∀ (ls : List Nat) (n : Nat),
    ls.foldl (fun c j => c + bitsOf a.toNat j 1) n = n + (ls.filter (fun l => bit a l)).length
  | [], n => rfl
  | l :: ls, n => by
    have hbit : bitsOf a.toNat l 1 = (bit a l).toNat := by
      rw [bit, BitVec.getLsbD, Nat.toNat_testBit, bitsOf, Nat.shiftRight_eq_div_pow, pow_one]
    rw [List.foldl_cons, foldl_bitsOf a ls, hbit]
    cases hl : bit a l
    · simp [hl]
    · simp [hl, Nat.add_assoc, Nat.add_comm 1]

theorem popCount_eq (a : BitVec 256) : popCount a.toNat 256 = ((upFrom 0 256).filter (fun l => bit a l)).length := by
  rw [popCount, foldl_bitsOf, Nat.zero_add]

theorem extractLsb'_eq_fld (p : BitVec 256) (lo : Nat) : p.extractLsb' lo 64 = BitVec.ofNat 64 (fld p lo 64) := by
  refine BitVec.eq_of_toNat_eq ?_
  rw [BitVec.extractLsb'_toNat, BitVec.toNat_ofNat, fld, Nat.mod_mod]

theorem bit_lowMask (n : Nat) {l : Nat} (hl : l < 256) : bit (BitVec.ofNat 256 (2 ^ Nat.min n 256 - 1)) l = decide (l < n) := by
  rw [bit, BitVec.getLsbD_ofNat, Nat.testBit_two_pow_sub_one]
  simp [hl]

theorem bit_movePart (k : Nat) (x : Word) (p : BitVec 256) {l : Nat} (hl : l < 256) :
    bit (movePart k x p) l = if l / 64 = k then bit x (l % 64) else bit p l := by
  simp only [bit, movePart, BitVec.getLsbD_or, BitVec.getLsbD_and, BitVec.getLsbD_not, BitVec.getLsbD_shiftLeft, BitVec.getLsbD_setWidth,
    BitVec.getLsbD_allOnes, hl, decide_true, Bool.true_and]
  rcases lt_trichotomy (l / 64) k with h | h | h
  · have hlt : l < 64 * k := by omega
    simp [hlt, h.ne]
  · have hge : ¬ l < 64 * k := by omega
    have hmod : l - 64 * k = l % 64 := by omega
    have hlow : l % 64 < 64 := Nat.mod_lt _ (by decide)
    have hin : l % 64 < 256 := by omega
    simp [hge, hmod, h, hlow, hin]
  · have hge : ¬ l < 64 * k := by omega
    have hout : ¬ l - 64 * k < 64 := by omega
    simp [hge, hout, h.ne', BitVec.getLsbD_of_ge x _ (not_lt.mp hout)]

/-! ### The instructions -/

section
variable {s : State} {t : Thr} {op : Nat} {i : IWord} {c : Instr}

/-- VCMPR (Table 16-8): the active lanes of va go to lanes 0 onward. -/
theorem compress_step (h : Issues s t 1 0x1A i) (hwf : tblWf 0 (thr s t).v = true) :
    let v := thr s t
    let ls := maskLanes (v.pReg i.pg.toNat)
    Completes (.vcmpr t) s fun s' => ∃ h', ThreadStep s t h' s'
      ∧ (∀ l, l < 256 → h'.lane i.d.toNat l = if l < ls.length then v.lane i.a.toNat (ls.getD l 0) else v.lane i.d.toNat l)
      ∧ (∀ r l, l < 256 → r ≠ i.d.toNat → h'.lane r l = v.lane r l) ∧ h'.s = v.s ∧ h'.p = v.p ∧ h'.pc = v.pc + 1 := by
  intro v ls
  obtain ⟨s', hs', hstep⟩ := onThread_step (c := .vcmpr t) rfl h
  obtain ⟨hd, hother, hs, hp, hpc⟩ := lanesWritten_putLanes hwf i.d.toNat (maskOf (fun l => decide (l < ls.length)))
    (fun l => v.lane i.a.toNat (ls.getD l 0))
  refine ⟨s', hs', _, hstep, fun l hl => ?_, hother, hs, hp, hpc⟩
  exact (hd l hl).trans (if_congr (by rw [bit_maskOf _ hl, decide_eq_true_eq]) rfl rfl)

/-- VINS (Table 16-8) writes one lane. -/
theorem insert_step (h : Issues s t 1 0x12 i) (hwf : tblWf 0 (thr s t).v = true) :
    let v := thr s t
    let k := (v.sReg i.b.toNat).toNat % 256
    Completes (.vins t) s fun s' => ∃ h', ThreadStep s t h' s' ∧ h'.lane i.d.toNat k = (v.sReg i.a.toNat).setWidth 32
      ∧ (∀ r l, l < 256 → (r ≠ i.d.toNat ∨ l ≠ k) → h'.lane r l = v.lane r l) ∧ h'.s = v.s ∧ h'.p = v.p ∧ h'.pc = v.pc + 1 := by
  intro v k
  have hk : k < 256 := Nat.mod_lt _ (by decide)
  obtain ⟨s', hs', hstep⟩ := onThread_step (c := .vins t) rfl h
  refine ⟨s', hs', _, hstep, tblGet_tblSet_self 0 _ _ _ hwf, fun r l hl hne => ?_, rfl, rfl, rfl⟩
  have hkey : 256 * r + l ≠ 256 * i.d.toNat + k := by omega
  exact tblGet_tblSet_ne 0 _ _ _ _ hkey

/-- A comparison writes pd, clear where the guard is (R579). -/
theorem predCmp_step {b : Thread → IWord → Nat → BitVec 32} (h : Issues s t 2 op i)
    (hexec : exec c s = onThread t 2 op (fun i h => predCmp (b h i) i h) s) :
    let v := thr s t
    Completes c s fun s' => ∃ m : BitVec 256, ThreadStep s t (v.putP i.d.toNat m).next s'
      ∧ ∀ l, l < 256 → bit m l = (bit (v.pReg i.pg.toNat) l
          && compare32 i.fmt i.aux (v.lane i.a.toNat l).toNat (b v i l).toNat) := by
  obtain ⟨s', hs', hstep⟩ := onThread_step hexec h
  exact ⟨s', hs', _, hstep, fun l hl => bit_maskOf _ hl⟩

theorem pred2_step {f : BitVec 256 → BitVec 256 → BitVec 256} (h : Issues s t 2 op i) (hexec : exec c s = onThread t 2 op (pred2 f) s) :
    Completes c s (ThreadStep s t ((thr s t).putP i.d.toNat (f ((thr s t).pReg i.a.toNat) ((thr s t).pReg i.b.toNat))).next) :=
  onThread_step hexec h

/-- An instruction that writes a mask to pd. -/
theorem putP_step {k : IWord → Thread → BitVec 256} {P : BitVec 256 → Prop} (h : Issues s t 2 op i)
    (hexec : exec c s = onThread t 2 op (fun i h => h.putP i.d.toNat (k i h)) s) (hP : P (k i (thr s t))) :
    Completes c s fun s' => ∃ m : BitVec 256, ThreadStep s t ((thr s t).putP i.d.toNat m).next s' ∧ P m := by
  obtain ⟨s', hs', hstep⟩ := onThread_step hexec h
  exact ⟨s', hs', _, hstep, hP⟩

end

/-- Settles O35: moves by lanes, compression and single lanes, then comparisons and masks. -/
theorem vectorMovesAndPredicates : Obligations.VectorMovesAndPredicates := by
  unfold Obligations.VectorMovesAndPredicates
  refine ⟨⟨fun e he s t i h hwf => ?_, fun s t i h hwf => compress_step h hwf, fun s t i h => ?_, fun s t i h hwf => insert_step h hwf⟩,
    fun s t i h => ?_, fun s t i h => ?_, fun e he s t i h => ?_, fun s t i h => ?_, fun s t i h => ?_, fun s t i h => ?_,
    fun s t i h => ?_, fun s t i h => ?_⟩
  · simp only [List.mem_cons, List.not_mem_nil, or_false] at he
    rcases he with rfl | rfl | rfl | rfl | rfl | rfl | rfl | rfl | rfl
    all_goals exact putLanes_step h hwf rfl
  · exact onThread_step (c := .vext t) rfl h
  · exact predCmp_step (b := fun h i l => h.lane i.b.toNat l) h rfl
  · simpa only [BitVec.toNat_setWidth] using predCmp_step (b := fun h i _ => (h.sReg i.b.toNat).setWidth 32) (c := .pcmps t) h rfl
  · simp only [List.mem_cons, List.not_mem_nil, or_false] at he
    rcases he with rfl | rfl | rfl | rfl | rfl | rfl
    all_goals exact pred2_step h rfl
  · exact putP_step h rfl fun l hl => bit_and_neg _ hl
  · intro v
    rw [← popCount_eq]
    exact onThread_step (c := .pcnt t) rfl h (putS_active ..)
  · exact putP_step h rfl fun l hl => bit_lowMask _ hl
  · intro v
    rw [← extractLsb'_eq_fld]
    exact onThread_step (c := .pmovs t) rfl h
  · exact putP_step h rfl fun l hl => bit_movePart _ _ _ hl

end Machine
end Sys2Proof
end

section
/-!
PROOF. Conversions, block floating point, dot products and reductions (Tables 16-10, 16-12 and 16-13), and the statement of
ConvertDotAndReductions.
-/
namespace Sys2Proof
namespace Machine
set_option Elab.async false

/-! ### Conversions (R580 to R582) -/

theorem fld_low {n : Nat} (x : BitVec n) (len : Nat) : fld x 0 len = x.toNat % 2 ^ len := by rw [fld, Nat.shiftRight_zero]

theorem foldl_active {α : Type} {f : Thread → α → Thread} (hf : ∀ v x, (f v x).active = v.active) :
    ∀ (l : List α) (v : Thread), (l.foldl f v).active = v.active
  | [], _ => rfl
  | x :: l, v => (foldl_active hf l (f v x)).trans (hf v x)

theorem putLane_active (h : Thread) (r l : Nat) (x : BitVec 32) : (h.putLane r l x).active = h.active := by
  rw [Thread.putLane]

theorem cvtMxRun_active (i : IWord) (h v : Thread) (g : Nat) : (cvtMxRun i h v g).active = v.active := by
  unfold cvtMxRun
  extract_lets ls r out
  refine (foldl_active (fun _ _ => putLane_active ..) ls out).trans (foldl_active (fun _ _ => ?_) _ v)
  rw [flag_active, putLane_active]

theorem convert_active (i : IWord) (h : Thread) : (convert i h).active = h.active := by
  unfold convert
  split
  · exact foldl_active (fun _ _ => cvtMxRun_active ..) _ h
  · rw [lanesF_eq, flag_active, putLanes_active]

section
variable {s : State} {t : Thr} {i : IWord}

/-- A conversion to another format than MXFP4 acts lane by lane. -/
theorem convert_lanes (h : Issues s t 3 0x00 i) (hfmt : i.fmt ≠ 5) (hwf : tblWf 0 (thr s t).v = true) :
    Completes (.cvt t) s fun s' => ∃ h', ThreadStep s t h' s'
      ∧ LanesWritten (thr s t) i.d.toNat ((thr s t).pReg i.pg.toNat) (fun l =>
          (cvtLane i.sfmt i.fmt (rndOf i.rnd) i.sat i.part (((thr s t).lane i.c.toNat l).toNat % 256)
            ((thr s t).lane i.a.toNat l) ((thr s t).lane i.d.toNat l)).1) h' := by
  have hconv := (if_neg hfmt : convert i (thr s t) = _).trans (lanesF_eq ..)
  simpa only [fld_low, Nat.reducePow] using putLanes_flag_step (c := .cvt t) (k := convert) h hwf rfl ⟨_, hconv⟩

/-- BFPQ takes a free value for each lane, and writes its lanes (log 2). -/
theorem bfpq_lanes (h : Issues s t 3 0x02 i) (hwf : tblWf 0 (thr s t).v = true) :
    Completes (.bfpq t) s fun s' => s'.free = s.free + 256 ∧ ∃ h', ThreadStep { s with free := s'.free } t h' s'
      ∧ LanesWritten (thr s t) i.d.toNat ((thr s t).pReg i.pg.toNat) (fun l => BitVec.ofNat 32 (bfpField (bfpK i)
          (((thr s t).lane i.b.toNat l).toNat % 256) ((thr s t).lane i.a.toNat l).toNat (Config.freeValue (s.free + l)).toNat)) h' := by
  refine ⟨_, congrArg Host.Outcome.next (issue_effect h rfl), rfl, _, threadStep_counted ?_ { s with free := s.free + 256 }, ?_⟩
  · rw [Thread.next, putLanes_active]
    exact (active_of_issues h).1
  · simp only [fld_low, Nat.reducePow]
    exact lanesWritten_putLanes hwf ..

end

/-! ### Reductions (R586 to R588) -/

/-- With no lane active the tree combines nothing. -/
theorem treeLevel_none (f : Nat × Nat → Nat × Nat → (Nat × Nat) × FpFlags) : ∀ (xs : List Node), (∀ x ∈ xs, x = none) →
    (∀ x ∈ (treeLevel f xs).1, x = none) ∧ (treeLevel f xs).2 = 0
  | [], _ => by simp [treeLevel]
  | [x], h => ⟨h, rfl⟩
  | x :: y :: xs, h => by
    obtain ⟨hx, hy, hxs⟩ : x = none ∧ y = none ∧ ∀ z ∈ xs, z = none := by simpa using h
    obtain ⟨hnone, hflags⟩ := treeLevel_none f xs hxs
    subst hx hy
    simp only [treeLevel, hflags, and_true]
    simpa using hnone

theorem tree_none (f : Nat × Nat → Nat × Nat → (Nat × Nat) × FpFlags) : ∀ (n : Nat) (xs : List Node), (∀ x ∈ xs, x = none) →
    (∀ x ∈ (tree f n xs).1, x = none) ∧ (tree f n xs).2 = 0
  | 0, _, h => ⟨h, rfl⟩
  | n + 1, xs, h => by
    obtain ⟨hnone, hflags⟩ := treeLevel_none f xs h
    obtain ⟨hrest, hmore⟩ := tree_none f n _ hnone
    simp only [tree, hflags, hmore]
    exact ⟨hrest, rfl⟩

theorem nodes_none {i : IWord} {h : Thread} (hpg : h.pReg i.pg.toNat = 0) : ∀ x ∈ nodes i h, x = none := by
  intro x hx
  obtain ⟨l, -, rfl⟩ := List.mem_map.mp hx
  have hbit : bit (guard i h) l = false := by simp [guard, hpg, bit]
  rw [hbit]
  rfl

theorem reduceAdd_none {i : IWord} {h : Thread} (hpg : h.pReg i.pg.toNat = 0) (fmt : Nat) (mode : Rnd) (sat : Bool) :
    reduceAdd fmt mode sat (nodes i h) = (0, 0) := by
  obtain ⟨hnone, hflags⟩ := tree_none (addNode fmt mode sat) 8 (nodes i h) (nodes_none hpg)
  rw [reduceAdd]
  generalize tree (addNode fmt mode sat) 8 (nodes i h) = r at hnone hflags
  obtain ⟨xs, g⟩ := r
  cases xs with
  | nil => simpa using hflags
  | cons x xs =>
    obtain rfl : x = none := hnone x List.mem_cons_self
    simpa using hflags

theorem reduceMinMax_none {i : IWord} {h : Thread} (hpg : h.pReg i.pg.toNat = 0) (isMax : Bool) :
    reduceMinMax isMax 0 (nodes i h) = (if isMax then 0xFF800000 else 0x7F800000, 0) := by
  have hact : (nodes i h).filterMap id = [] := List.filterMap_eq_nil_iff.mpr (nodes_none hpg)
  rw [reduceMinMax, hact]
  rfl

theorem putS_flag_next (h : Thread) (n : Nat) (x : Word) (g : FpFlags) :
    ((h.putS n x).flag g).next = { (h.putS n x) with flags := h.flags ||| g, pc := h.pc + 1 } := rfl

/-- A sum by the tree (R586). -/
theorem radd_step {s : State} {t : Thr} {i : IWord} (h : Issues s t 5 0x00 i) :
    let v := thr s t
    let r := reduceAdd i.fmt (rndOf i.rnd) i.sat (nodes i v)
    Completes (.radd t) s fun s' =>
      ThreadStep s t { (v.putS i.d.toNat (BitVec.ofNat 64 r.1)) with flags := v.flags ||| r.2, pc := v.pc + 1 } s'
      ∧ (v.pReg i.pg.toNat = 0 → r = (0, 0)) := by
  intro v r
  obtain ⟨s', hs', hstep⟩ := onThread_step (c := .radd t) (f := fun i h =>
    let r := reduceAdd i.fmt (rndOf i.rnd) i.sat (nodes i h); (h.putS i.d.toNat (BitVec.ofNat 64 r.1)).flag r.2) rfl h
    ((flag_active ..).trans (putS_active ..))
  dsimp only at hstep
  rw [putS_flag_next] at hstep
  exact ⟨s', hs', hstep, fun hpg => reduceAdd_none hpg _ _ _⟩

/-- A prefix sum writes the active lanes of vd (R588). -/
theorem scan_lanes {s : State} {t : Thr} {i : IWord} (h : Issues s t 5 0x05 i) (hwf : tblWf 0 (thr s t).v = true) :
    Completes (.vscan t) s fun s' => ∃ h', ThreadStep s t h' s'
      ∧ LanesWritten (thr s t) i.d.toNat ((thr s t).pReg i.pg.toNat) (fun l => BitVec.ofNat 32
          (((scanSums i.fmt (rndOf i.rnd) i.sat (nodes i (thr s t)) none).1.getD l none).getD 0)) h' := by
  have hscan : ∃ g, scanTo i (thr s t) = ((thr s t).putLanes i.d.toNat ((thr s t).pReg i.pg.toNat) (fun l => BitVec.ofNat 32
      (((scanSums i.fmt (rndOf i.rnd) i.sat (nodes i (thr s t)) none).1.getD l none).getD 0))).flag g := ⟨_, by rw [scanTo, guard]⟩
  exact putLanes_flag_step (c := .vscan t) (k := scanTo) h hwf rfl hscan

/-- A minimum or maximum, with or without its lane (R587). -/
theorem reduceTo_step {s : State} {t : Thr} {op : Nat} {i : IWord} {c : Instr} {isMax idx : Bool} (h : Issues s t 5 op i)
    (hexec : exec c s = onThread t 5 op (reduceTo isMax idx) s) :
    let v := thr s t
    let r := reduceMinMax isMax i.fmt (nodes i v)
    Completes c s fun s' =>
      ThreadStep s t (v.putS i.d.toNat (BitVec.ofNat 64 (r.1 + if idx then r.2 * 2 ^ 32 else 0))).next s'
      ∧ (v.pReg i.pg.toNat = 0 → i.fmt = 0 → r = (if isMax then 0xFF800000 else 0x7F800000, 0)) := by
  intro v r
  obtain ⟨s', hs', hstep⟩ := onThread_step hexec h (putS_active ..)
  refine ⟨s', hs', ?_, fun hpg hfmt => ?_⟩
  · rwa [reduceTo, Nat.shiftLeft_eq] at hstep
  · rw [← reduceMinMax_none hpg, ← hfmt]

/-- Settles O36: conversions and dot products by lanes, then the reductions. -/
theorem convertDotAndReductions : Obligations.ConvertDotAndReductions := by
  unfold Obligations.ConvertDotAndReductions
  refine ⟨⟨fun s t i h => onThread_step (f := convert) rfl h (convert_active ..), fun s t i h => convert_lanes h, fun e he s t i h hwf => ?_,
    fun s t i h => bfpq_lanes h⟩, fun s t i h => ?_, fun e he s t i h => ?_, fun s t i h hwf => ?_⟩
  · simp only [List.mem_cons, List.not_mem_nil, or_false] at he
    rcases he with rfl | rfl | rfl | rfl
    · exact putLanes_step (f := fun i h l => BitVec.ofNat 32 (bfpRunE i h l)) h hwf rfl
    · simpa only [fld_low, Nat.reducePow] using lanesF_step (c := .bfpd t) (k := fun i h l =>
        let r := bfpValue (bfpK i) (fld (h.lane i.b.toNat l) 0 8) (h.lane i.a.toNat l).toNat; (BitVec.ofNat 32 r.1, r.2)) h hwf rfl
    · exact lanesF_step (k := fun i h l => dotLane i.fmt i.aux (rndOf i.rnd) i.sat (h.lane i.d.toNat l)
        (pairElems i.fmt h i.a.toNat l) (pairElems i.fmt h i.b.toNat l) (h.lane i.c.toNat l)) h hwf rfl
    · exact lanesF_step (k := fun i h l => dotLane i.fmt i.aux (rndOf i.rnd) i.sat (h.lane i.d.toNat l)
        (pairElems i.fmt h i.a.toNat l) (scalarElems i.fmt (h.sReg i.b.toNat)) (h.lane i.c.toNat l)) h hwf rfl
  · exact radd_step h
  · simp only [List.mem_cons, List.not_mem_nil, or_false] at he
    rcases he with rfl | rfl | rfl | rfl
    · exact reduceTo_step h rfl
    · exact reduceTo_step h rfl
    · exact reduceTo_step h rfl
    · exact reduceTo_step h rfl
  · exact scan_lanes h hwf

end Machine
end Sys2Proof
end

section
/-!
PROOF. What sending a packet or an item changes (R168, R169, R221), and what an access of a thread to its own array reads and writes at once
(R531, R537, R590).
-/
namespace Sys2Proof
namespace Machine
set_option Elab.async false

/-! ### Packets that enter the core -/

/-- Only the core, the coats and the counts differ: what a packet that enters the core changes. -/
def Entered (s t : State) : Prop := ∃ c r n, t = { s with core := c, route := r, counts := n }

theorem Entered.refl (s : State) : Entered s s := ⟨_, _, _, rfl⟩

theorem Entered.trans {s t u : State} (h : Entered s t) (k : Entered t u) : Entered s u := by
  obtain ⟨_, _, _, rfl⟩ := h
  obtain ⟨_, _, _, rfl⟩ := k
  exact ⟨_, _, _, rfl⟩

theorem Entered.foldl {α : Type} {f : State → α → State} (h : ∀ s x, Entered s (f s x)) :
    ∀ (l : List α) (s : State), Entered s (l.foldl f s)
  | [], s => .refl s
  | x :: l, s => (h s x).trans (foldl h l (f s x))

theorem touchUnder_entered (n : BitVec 4) (s : State) : Entered s (touchUnder n s) := by
  unfold touchUnder
  split
  · split
    · exact ⟨_, _, _, rfl⟩
    · exact .refl s
  · exact .refl s

theorem enqueueNow_entered (i k o u q bad hold p s r) : Entered s (enqueueNow i k o u q bad hold p s r) :=
  Entered.trans ⟨_, _, _, rfl⟩ (touchUnder_entered ..)

theorem enqueue_entered (i k o u q bad hold p s r) : Entered s (enqueue i k o u q bad hold p s r) := by
  unfold enqueue
  split
  · exact enqueueNow_entered ..
  · split
    · exact enqueueNow_entered ..
    · exact ⟨_, _, _, rfl⟩

theorem hopIngress_entered (i p s) : Entered s (hopIngress i p s).2 := by
  unfold hopIngress
  extract_lets e start t
  have ht : Entered s t := by
    unfold t
    split
    · exact .refl s
    · exact ⟨_, _, _, rfl⟩
  split
  · split
    · exact ht
    · exact ht
  · exact .refl s

theorem injectOwn_entered (i p s) : Entered s (injectOwn i p s) := by
  have hop := hopIngress_entered i (sealPkt (stamp s p)) s
  unfold injectOwn
  extract_lets q
  split
  next h => exact (h ▸ hop).trans (enqueue_entered ..)
  next h => exact (h ▸ hop).trans ⟨_, _, _, rfl⟩

theorem inject_entered (i p s) : Entered s (inject i p s) := by
  have hop := hopIngress_entered i (sealPkt (stamp s p)) s
  unfold inject
  extract_lets q
  split
  · split
    · exact enqueue_entered ..
    · exact ⟨_, _, _, rfl⟩
  · split
    next h => exact (h ▸ hop).trans (enqueue_entered ..)
    next h => exact (h ▸ hop :)

theorem sendFail_entered (i st p s) : Entered s (sendFail i st p s) := by
  unfold sendFail
  split
  · exact Entered.trans ⟨_, _, _, rfl⟩ (inject_entered ..)
  · exact .refl s

/-! ### Items (R168, R169) -/

theorem Entered.items {s t : State} (h : Entered s t) : t.items = s.items := by
  obtain ⟨_, _, _, rfl⟩ := h
  rfl

/-- An item that finds a free tag is sent, and is one of the part's outstanding items (R168). -/
theorem sendItem_sends {i : PortId} {tags : Nat × Nat} (base : Packet) (len : Nat) (bs : List Byte) (x : OwnUse) {s : State}
    (h : (findTag s tags.1 tags.2).isSome = true) : ∃ s' o, sendItem i tags base len bs x s = some s' ∧ o ∈ s'.items.own
      ∧ o.use = x ∧ o.opcode = base.opcode ∧ o.addr = base.addr ∧ o.len = len := by
  obtain ⟨n, hn⟩ := Option.isSome_iff_exists.mp h
  generalize hr : sendItem i tags base len bs x s = r
  unfold sendItem at hr
  rw [hn] at hr
  dsimp -zeta only at hr
  extract_lets tag base' o _ u outs at hr
  have hown : u.items.own = s.items.own ++ [o] := congrArg Items.own (Entered.foldl (fun s p => injectOwn_entered i p s) _ _).items
  refine ⟨_, if o.tag = tag then { o with outs := outs } else o, hr.symm,
    List.mem_map_of_mem (f := fun x => if x.tag = tag then { x with outs := outs } else x) (hown ▸ List.mem_append_right _ List.mem_cons_self), ?_⟩
  rw [if_pos rfl]
  exact ⟨rfl, rfl, rfl, rfl⟩

/-! ### A thread's own array (Table 15-3, R537) -/

section
variable {s : State} {t : Thr} {ten : BitVec 8} {a : Word} {o n : Nat}

theorem accPlace_direct (hpath : memPath s t.array.val a = .direct o) (hin : o + n ≤ 0x400000) (pm : Permit) :
    accPlace s t ten a n pm = .ok (.array (arrayBase t.array.val + o)) := by
  simp only [accPlace, hpath, if_pos hin]

theorem accPlace_reserved (hpath : memPath s t.array.val a = .reserved) (n : Nat) (pm : Permit) :
    accPlace s t ten a n pm = .error 0x03 := by
  simp only [accPlace, hpath]

/-- An access to an array is counted, but crosses no line of the Larder and uses no translation. -/
theorem accCount_array (wr : Bool) (b : Nat) (s : State) :
    accCount t wr ten a (.array b) s = { s with counts := (accCount t wr ten a (.array b) s).counts } := rfl

theorem accRead_direct (hpath : memPath s t.array.val a = .direct o) (hin : o + n ≤ 0x400000) (hgood : s.work.badWord = []) :
    ∃ c, accRead t ten a n s = (.ok (memRead s.work.mem (arrayBase t.array.val + o) n), { s with counts := c }) := by
  refine ⟨(accCount t false ten a (.array (arrayBase t.array.val + o)) s).counts, ?_⟩
  have hread := placeRead_array (s := accCount t false ten a (.array (arrayBase t.array.val + o)) s) hgood
    (arrayBase t.array.val + o) n
  simp only [accRead, accPlace_direct hpath hin, hread]
  rfl

theorem badWord_good {w : Work} (h : w.badWord = []) (m : Tbl Byte) : { w with mem := m, badWord := [] } = { w with mem := m } := by
  rw [← h]

theorem placeWrite_own (hgood : s.work.badWord = []) (b : Nat) (bs : List Byte) :
    placeWrite (.array b) bs s = ({ s with work.mem := memWrite s.work.mem b bs }, true) := by
  rw [placeWrite_array hgood]
  simp only [badWord_good hgood]

theorem accWrite_direct {bs : List Byte} (hpath : memPath s t.array.val a = .direct o) (hin : o + bs.length ≤ 0x400000)
    (hgood : s.work.badWord = []) : ∃ c, accWrite t ten a bs s
      = (none, { s with work.mem := memWrite s.work.mem (arrayBase t.array.val + o) bs, counts := c }) := by
  refine ⟨(accCount t true ten a (.array (arrayBase t.array.val + o)) s).counts, ?_⟩
  have hwrite := placeWrite_own (s := accCount t true ten a (.array (arrayBase t.array.val + o)) s) hgood
    (arrayBase t.array.val + o) bs
  simp only [accWrite, accPlace_direct hpath hin, hwrite]
  rfl

end

/-! ### What an access that the part performs at once leaves alone -/

theorem accCount_booked (t wr ten a p s) : Booked s (accCount t wr ten a p s) := by
  obtain ⟨k, n, h⟩ := translateAll_cache s.route.top.num ten (addrOff a) p
    (bump (kernelPage (thr s t).kernel.val) 6 (placeLines p).length (countPlace .work wr (some ten) p s))
  obtain ⟨hm, hb, heq⟩ := countPlace_booked .work wr (some ten) p s
  have htrans : accCount t wr ten a p s = _ := (congrArg (fun c => translateAll c ten (addrOff a) p _) rfl).trans h
  rw [htrans]
  exact (show Booked s _ from ⟨hm, hb, heq⟩).trans ⟨rfl, rfl, rfl⟩

/-- A read that succeeds changes neither bytes nor bad words. -/
theorem accRead_booked {t : Thr} {ten : BitVec 8} {a : Word} {n : Nat} {s u : State} {bs : List Byte}
    (h : accRead t ten a n s = (.ok bs, u)) : Booked s u := by
  unfold accRead at h
  split at h
  · cases h
  · extract_lets v at h
    split at h
    · obtain ⟨-, rfl⟩ := Prod.mk.inj h
      exact accCount_booked ..
    · cases h

theorem writeRuns_regs : ∀ (rs : List (Nat × Nat)) (bs : List Byte) (s : State) (ok : Bool),
    (writeRuns rs bs s ok).1.regs = s.regs ∧ (writeRuns rs bs s ok).1.work = s.work
  | [], _, _, _ => ⟨rfl, rfl⟩
  | (b, n) :: t, bs, s, ok => by
    simp only [writeRuns]
    split
    · exact writeRuns_regs t _ _ _
    · exact writeRuns_regs t _ _ _

theorem placeWrite_regs (p : Place) (bs : List Byte) (s : State) : (placeWrite p bs s).1.regs = s.regs ∧
    (placeWrite p bs s).1.work.thr = s.work.thr := by
  cases p with
  | larder runs => exact ⟨(writeRuns_regs runs bs s true).1, by rw [placeWrite, (writeRuns_regs runs bs s true).2]⟩
  | array b => exact ⟨rfl, rfl⟩
  | counter b => exact ⟨rfl, rfl⟩

/-- A write that succeeds changes no register and no thread. -/
theorem accWrite_regs {t : Thr} {ten : BitVec 8} {a : Word} {bs : List Byte} {s u : State}
    (h : accWrite t ten a bs s = (none, u)) : u.regs = s.regs ∧ u.work.thr = s.work.thr := by
  unfold accWrite at h
  split at h
  · cases h
  next p hp =>
    obtain ⟨hwork, hregs⟩ := (accCount_booked t true ten a p s).kept
    obtain ⟨hr, hw⟩ := placeWrite_regs p bs (accCount t true ten a p s)
    split at h
    next v hv =>
      cases h
      rw [hv] at hr hw
      exact ⟨hr.trans hregs, hw.trans (by rw [hwork])⟩
    next => cases h

end Machine
end Sys2Proof
end

section
/-!
PROOF. Accesses of a thread to memory (R531, R537, R539, R589 to R594, Tables 15-3, 16-14 and 16-15), and the statements of
ScalarAndVectorAccesses and ThreadAtomics.
-/
namespace Sys2Proof
namespace Machine
set_option Elab.async false

/-! ### Outcomes of an issue that reaches memory -/

section
variable {s : State} {t : Thr} {cls op : Nat} {i : IWord} {c : Instr} {body : Kernel → IWord → Thread → State → Option State}

/-- The command answers what the instruction's body does, counted, or nothing. -/
theorem exec_of_body {s' : State} (hexec : exec c s = .next (issue t cls op body s)) (h : Issues s t cls op i)
    (hbody : body (kernelAt s (thr s t).kernel) i (thr s t) s = some s') : exec c s = .next (counted s t cls s') := by
  rw [hexec, issue_effect h hbody]

theorem noEffect_of_body (hexec : exec c s = .next (issue t cls op body s)) (h : Issues s t cls op i)
    (hbody : body (kernelAt s (thr s t).kernel) i (thr s t) s = none) : NoEffect c s := by
  rw [NoEffect, hexec, issue_of_issues h, hbody]
  rfl

/-- An item that the thread sends is its effect; while it may send none, the instruction waits. -/
theorem exec_of_sent {sent : Option State} (hexec : exec c s = .next (issue t cls op body s)) (h : Issues s t cls op i)
    (hbody : body (kernelAt s (thr s t).kernel) i (thr s t) s = sent) :
    (∀ u, sent = some u → exec c s = .next (counted s t cls u)) ∧ (sent = none → NoEffect c s) :=
  ⟨fun _ hu => exec_of_body hexec h (hbody.trans hu), fun hnone => noEffect_of_body hexec h (hbody.trans hnone)⟩

/-- An instruction that changes its thread and, on the way, counts. -/
theorem threadStep_of_body {n : Counts} {v : Thread} (hexec : exec c s = .next (issue t cls op body s)) (h : Issues s t cls op i)
    (hv : v.active = (thr s t).active) (hbody : body (kernelAt s (thr s t).kernel) i (thr s t) s = some (setThr t v { s with counts := n })) :
    Completes c s (ThreadStep s t v) :=
  ⟨_, exec_of_body hexec h hbody, threadStep_counted (v := v) (hv.trans (active_of_issues h).1) { s with counts := n }⟩

end

theorem next_active (h : Thread) : h.next.active = h.active := rfl

/-! ### Scalar loads and stores (R590) -/

section
variable {s : State} {t : Thr} {op : Nat} {i : IWord} {c : Instr} {sgn : Bool}

theorem scalarLoad_own {o : Nat} (h : Issues s t 6 op i) (hexec : exec c s = .next (issue t 6 op (scalarLoad sgn t) s))
    (halign : (accAddr i (thr s t)).toNat % sizeBytes i.size = 0) (hpath : memPath s t.array.val (accAddr i (thr s t)) = .direct o)
    (hin : o + sizeBytes i.size ≤ 0x400000) (hgood : s.work.badWord = []) :
    Completes c s (ThreadStep s t ((thr s t).putS i.d.toNat
      (loadValue (sizeBytes i.size) sgn (memRead s.work.mem (arrayBase t.array.val + o) (sizeBytes i.size)))).next) := by
  obtain ⟨n, hread⟩ := accRead_direct (ten := (kernelAt s (thr s t).kernel).tenant) hpath hin hgood
  refine threadStep_of_body hexec h ((next_active _).trans (putS_active ..)) (n := n) ?_
  simp [scalarLoad, misaligned, halign, hpath, hread]

theorem scalarLoad_misaligned (h : Issues s t 6 op i) (hexec : exec c s = .next (issue t 6 op (scalarLoad sgn t) s))
    (halign : (accAddr i (thr s t)).toNat % sizeBytes i.size ≠ 0) :
    exec c s = .next (counted s t 6 (fault t 0x02 (accAddr i (thr s t)).toNat s)) :=
  exec_of_body hexec h (by simp [scalarLoad, misaligned, halign])

theorem scalarLoad_item (h : Issues s t 6 op i) (hexec : exec c s = .next (issue t 6 op (scalarLoad sgn t) s))
    (halign : (accAddr i (thr s t)).toNat % sizeBytes i.size = 0)
    (hpath : memPath s t.array.val (accAddr i (thr s t)) = .far ∨ memPath s t.array.val (accAddr i (thr s t)) = .node) :
    let v := thr s t
    let sent := thrSend t (thrPacket 0x01 (kernelAt s v.kernel).tenant (accAddr i v)) (sizeBytes i.size) []
      (.load i.d.toNat (sizeBytes i.size) sgn) (fun h => { h.next with busy := h.busy ++ [.s i.d.toNat] }) s
    (∀ u, sent = some u → exec c s = .next (counted s t 6 u)) ∧ (sent = none → NoEffect c s) := by
  intro v sent
  refine exec_of_sent hexec h ?_
  rcases hpath with hpath | hpath <;> simp [scalarLoad, misaligned, halign, hpath, sent, v]

theorem scalarLoad_reserved (h : Issues s t 6 op i) (hexec : exec c s = .next (issue t 6 op (scalarLoad sgn t) s))
    (halign : (accAddr i (thr s t)).toNat % sizeBytes i.size = 0) (hpath : memPath s t.array.val (accAddr i (thr s t)) = .reserved) :
    exec c s = .next (counted s t 6 (fault t 0x03 (accAddr i (thr s t)).toNat s)) :=
  exec_of_body hexec h (by simp [scalarLoad, misaligned, halign, hpath, accRead, accPlace_reserved hpath])

theorem scalarStore_own {o : Nat} (h : Issues s t 6 0x02 i) (halign : (accAddr i (thr s t)).toNat % sizeBytes i.size = 0)
    (hpath : memPath s t.array.val (accAddr i (thr s t)) = .direct o) (hin : o + sizeBytes i.size ≤ 0x400000)
    (hgood : s.work.badWord = []) (hwf : s.work.memWf = true) :
    let v := thr s t
    let n := sizeBytes i.size
    let b := arrayBase t.array.val + o
    Completes (.st t) s fun s' => memRead s'.work.mem b n = leBytes n (v.sReg i.d.toNat).toNat
      ∧ (∀ x, x < b ∨ b + n ≤ x → tblGet 0 s'.work.mem x = tblGet 0 s.work.mem x)
      ∧ ThreadStep { s with work := { s.work with mem := s'.work.mem } } t v.next s' := by
  intro v n b
  have hlen : (leBytes n (v.sReg i.d.toNat).toNat).length = n := leBytes_length ..
  obtain ⟨k, hwrite⟩ := accWrite_direct (ten := (kernelAt s (thr s t).kernel).tenant) (bs := leBytes n (v.sReg i.d.toNat).toNat)
    hpath (by rw [hlen]; exact hin) hgood
  have hread := memRead_memWrite (leBytes n (v.sReg i.d.toNat).toNat) s.work.mem b hwf
  have houtside := tblGet_memWrite_outside (leBytes n (v.sReg i.d.toNat).toNat) s.work.mem b
  rw [hlen] at hread houtside
  refine ⟨_, exec_of_body (c := .st t) (body := scalarStore t)
    (s' := setThr t v.next { s with work.mem := memWrite s.work.mem b (leBytes n (v.sReg i.d.toNat).toNat), counts := k }) rfl h ?_,
    hread, houtside, threadStep_counted (v := v.next) (active_of_issues h).1 _⟩
  dsimp only [v, n] at hwrite
  simp [scalarStore, misaligned, halign, hpath, hwrite, v, n, b]

theorem scalarStore_misaligned (h : Issues s t 6 0x02 i) (halign : (accAddr i (thr s t)).toNat % sizeBytes i.size ≠ 0) :
    exec (.st t) s = .next (counted s t 6 (fault t 0x02 (accAddr i (thr s t)).toNat s)) :=
  exec_of_body (body := scalarStore t) rfl h (by simp [scalarStore, misaligned, halign])

theorem scalarStore_item (h : Issues s t 6 0x02 i) (halign : (accAddr i (thr s t)).toNat % sizeBytes i.size = 0)
    (hpath : memPath s t.array.val (accAddr i (thr s t)) = .far ∨ memPath s t.array.val (accAddr i (thr s t)) = .node) :
    let v := thr s t
    let sent := thrSend t (thrPacket 0x02 (kernelAt s v.kernel).tenant (accAddr i v)) (sizeBytes i.size)
      (leBytes (sizeBytes i.size) (v.sReg i.d.toNat).toNat) .store Thread.next s
    (∀ u, sent = some u → exec (.st t) s = .next (counted s t 6 u)) ∧ (sent = none → NoEffect (.st t) s) := by
  intro v sent
  refine exec_of_sent (body := scalarStore t) rfl h ?_
  rcases hpath with hpath | hpath <;> simp [scalarStore, misaligned, halign, hpath, sent, v]

theorem scalarStore_reserved (h : Issues s t 6 0x02 i) (halign : (accAddr i (thr s t)).toNat % sizeBytes i.size = 0)
    (hpath : memPath s t.array.val (accAddr i (thr s t)) = .reserved) :
    exec (.st t) s = .next (counted s t 6 (fault t 0x03 (accAddr i (thr s t)).toNat s)) :=
  exec_of_body (body := scalarStore t) rfl h (by simp [scalarStore, misaligned, halign, hpath, accWrite, accPlace_reserved hpath])

end

/-! ### Contiguous vector accesses (R589, R591) -/

/-- Runs that are read change no byte and no thread. -/
theorem readRuns_booked {t : Thr} {ten : BitVec 8} {base : Word} : ∀ {rs : List (Nat × Nat)} {s u : State} {m : Tbl Byte},
    readRuns t ten base rs s = (.ok m, u) → Booked s u
  | [], s, u, m, h => by
    obtain ⟨-, rfl⟩ := Prod.mk.inj h
    exact .refl s
  | (b, n) :: rs, s, u, m, h => by
    unfold readRuns at h
    extract_lets a at h
    split at h
    · cases h
    next hread =>
      split at h
      · cases h
      next hrest =>
        obtain ⟨-, rfl⟩ := Prod.mk.inj h
        exact (accRead_booked hread).trans (readRuns_booked hrest)

/-- Runs that are written change no register and no thread. -/
theorem writeRunsAt_regs {t : Thr} {ten : BitVec 8} {base : Word} : ∀ {rs : List (Nat × List (Option Nat × Option Nat))} {s u : State},
    writeRunsAt t ten base rs s = (none, u) → u.regs = s.regs ∧ u.work.thr = s.work.thr
  | [], s, u, h => by
    obtain ⟨-, rfl⟩ := Prod.mk.inj h
    exact ⟨rfl, rfl⟩
  | (b, xs) :: rs, s, u, h => by
    unfold writeRunsAt at h
    extract_lets a old at h
    have hold : ∀ bs w, old = (.ok bs, w) → w = s := by
      intro bs w hw
      unfold old at hw
      split at hw
      · exact (Prod.mk.inj hw).2.symm
      · split at hw
        · cases hw
        · split at hw
          · exact (Prod.mk.inj hw).2.symm
          · cases hw
    clear_value old
    obtain ⟨_ | bs, w⟩ := old
    · cases h
    · obtain rfl := hold bs w rfl
      dsimp only at h
      split at h
      · cases h
      next hwrite =>
        obtain ⟨hr, ht⟩ := writeRunsAt_regs h
        obtain ⟨hr', ht'⟩ := accWrite_regs hwrite
        exact ⟨hr.trans hr', ht.trans ht'⟩

section
variable {s s1 : State} {t : Thr} {i : IWord} {sp : Nat × Nat} {o : Nat}

theorem vectorLoad_own {m : Tbl Byte} (h : Issues s t 6 0x03 i) :
    let v := thr s t
    let a := accAddr i v + BitVec.ofNat 64 sp.1
    vecSpan i.size (v.pReg i.pg.toNat) = some sp → (accAddr i v).toNat % sizeBytes i.size = 0 →
    oneRegion s t.array.val a sp.2 = true → memPath s t.array.val a = .direct o →
    readRuns t (kernelAt s v.kernel).tenant (accAddr i v) (activeRuns i.size (v.pReg i.pg.toNat) sp) s = (.ok m, s1) →
    tblWf 0 v.v = true →
    Completes (.vld t) s fun s' => s'.work.mem = s.work.mem ∧ s'.larder.mem = s.larder.mem
      ∧ LanesWritten v i.d.toNat (v.pReg i.pg.toNat) (loadLane i.size sp.1 (memRead m sp.1 sp.2)) (thr s' t) := by
  intro v a hspan halign hone hpath hread hwf
  have hbody : vectorLoad t (kernelAt s v.kernel) i v s
      = some (setThr t (v.putLanes i.d.toNat (v.pReg i.pg.toNat) (loadLane i.size sp.1 (memRead m sp.1 sp.2))).next s1) := by
    simp only [vectorLoad, guard, hspan, misaligned, halign, hread]
    dsimp only [a] at hone hpath
    simp [hone, hpath]
  obtain ⟨hmem, -, -⟩ := readRuns_booked hread
  obtain ⟨hwork, -⟩ := (readRuns_booked hread).kept
  have hthr := thr_setThr_self (v := (v.putLanes i.d.toNat (v.pReg i.pg.toNat) (loadLane i.size sp.1 (memRead m sp.1 sp.2))).next) t
    (by rw [Thread.next, putLanes_active]; exact (active_of_issues h).1) s1
  refine ⟨_, exec_of_body (c := .vld t) (body := vectorLoad t) rfl h hbody, (congrArg Work.mem hwork : _), hmem, ?_⟩
  exact (congrArg (LanesWritten v _ _ _) hthr).mpr (lanesWritten_putLanes hwf ..)

theorem vectorStore_own (h : Issues s t 6 0x04 i) :
    let v := thr s t
    let a := accAddr i v + BitVec.ofNat 64 sp.1
    vecSpan i.size (v.pReg i.pg.toNat) = some sp → (accAddr i v).toNat % sizeBytes i.size = 0 →
    oneRegion s t.array.val a sp.2 = true → memPath s t.array.val a = .direct o →
    writeRunsAt t (kernelAt s v.kernel).tenant (accAddr i v)
      (storeRuns ((upFrom sp.1 sp.2).map (fun b => (b, storeByte i.size (v.pReg i.pg.toNat) (v.lane i.d.toNat) b)))) s = (none, s1) →
    Completes (.vst t) s fun s' => s'.work.mem = s1.work.mem ∧ s'.larder.mem = s1.larder.mem ∧ thr s' t = v.next
      ∧ s'.regs = s.regs := by
  intro v a hspan halign hone hpath hwrite
  have hbody : vectorStore t (kernelAt s v.kernel) i v s = some (setThr t v.next s1) := by
    simp only [vectorStore, guard, hspan, misaligned, halign, hwrite]
    dsimp only [a] at hone hpath
    simp [hone, hpath]
  exact ⟨_, exec_of_body (c := .vst t) rfl h hbody, rfl, rfl, thr_setThr_self (v := v.next) t (active_of_issues h).1 s1,
    (writeRunsAt_regs hwrite).1⟩

end

/-! ### Strided, gathered and scattered accesses (R589, R593) -/

/-- The lanes of a mask are listed once each. -/
theorem mem_maskLanes {m : BitVec 256} {l : Nat} : l ∈ maskLanes m ↔ l < 256 ∧ bit m l = true := by
  rw [maskLanes, List.mem_filter, mem_upFrom]

theorem nodup_maskLanes (m : BitVec 256) : (maskLanes m).Nodup := (nodup_upFrom 0 256).filter _

theorem LanesWritten.congr {h v : Thread} {d : Nat} {m : BitVec 256} {f g : Nat → BitVec 32} (hw : LanesWritten h d m f v)
    (hfg : ∀ l ∈ maskLanes m, f l = g l) : LanesWritten h d m g v := by
  obtain ⟨hd, hrest⟩ := hw
  refine ⟨fun l hl => (hd l hl).trans ?_, hrest⟩
  split
  next hm => exact hfg l (mem_maskLanes.mpr ⟨hl, hm⟩)
  next => rfl

/-- Every lane lies in the thread's own array, aligned, at its offset. -/
def LanesOwn (s : State) (t : Thr) (n : Nat) (off : Nat → Nat) (ls : List (Nat × Word)) : Prop :=
  ∀ x ∈ ls, x.2.toNat % n = 0 ∧ memPath s t.array.val x.2 = .direct (off x.1) ∧ off x.1 + n ≤ 0x400000

theorem lanesClear_idle {s : State} {t : Thr} (h : thrItems s t = []) (c : Nat) (ls : List (Nat × Word)) : lanesClear s t c ls = true := by
  simp [lanesClear, thrConflict, h]

/-- Lanes of the own array are all read, each at its own offset. -/
theorem readLanes_own {t : Thr} {v : Kernel} {c : Nat} {off : Nat → Nat} : ∀ {ls : List (Nat × Word)} {s : State},
    LanesOwn s t (sizeBytes c) off ls → s.work.badWord = [] → ∃ n m, readLanes t v c ls s = (.ok m, { s with counts := n })
      ∧ tblWf 0 m = true ∧ ((ls.map Prod.fst).Nodup → ∀ l ∈ ls.map Prod.fst,
        tblGet 0 m l = BitVec.ofNat 32 (leNat (memRead s.work.mem (arrayBase t.array.val + off l) (sizeBytes c))))
  | [], s, _, _ => ⟨s.counts, [], rfl, rfl, by simp⟩
  | (l, a) :: ls, s, hown, hgood => by
    obtain ⟨halign, hpath, hin⟩ := hown (l, a) List.mem_cons_self
    obtain ⟨n, hread⟩ := accRead_direct (ten := v.tenant) hpath hin hgood
    obtain ⟨n', m, hrest, hwf, hget⟩ := readLanes_own (t := t) (v := v) (c := c) (off := off) (ls := ls) (s := { s with counts := n })
      (fun x hx => hown x (List.mem_cons_of_mem _ hx)) hgood
    refine ⟨n', tblSet 0 m l (BitVec.ofNat 32 (leNat (memRead s.work.mem (arrayBase t.array.val + off l) (sizeBytes c)))), ?_,
      tblWf_tblSet 0 m _ _ hwf, fun hnd k hk => ?_⟩
    · simp only [readLanes, misaligned, halign, hread, hrest]
      rfl
    · obtain ⟨hnot, hnd⟩ := List.nodup_cons.mp hnd
      rcases List.mem_cons.mp hk with rfl | hk
      · exact tblGet_tblSet_self 0 m _ _ hwf
      · rw [tblGet_tblSet_ne 0 m _ _ _ (ne_of_mem_of_not_mem hk hnot)]
        exact hget hnd k hk

/-- What the lanes of a store leave in memory, in ascending order (R593). -/
def storeLanes (b n : Nat) (off : Nat → Nat) (f : Nat → BitVec 32) (ls : List (Nat × Word)) (m : Tbl Byte) : Tbl Byte :=
  ls.foldl (fun m x => memWrite m (b + off x.1) (leBytes n (f x.1).toNat)) m

theorem writeLanes_own {t : Thr} {v : Kernel} {c : Nat} {off : Nat → Nat} {f : Nat → BitVec 32} :
    ∀ {ls : List (Nat × Word)} {s : State}, LanesOwn s t (sizeBytes c) off ls → s.work.badWord = [] →
      ∃ n, writeLanes t v c f ls s = (none,
        { s with work.mem := storeLanes (arrayBase t.array.val) (sizeBytes c) off f ls s.work.mem, counts := n })
  | [], s, _, _ => ⟨s.counts, rfl⟩
  | (l, a) :: ls, s, hown, hgood => by
    obtain ⟨halign, hpath, hin⟩ := hown (l, a) List.mem_cons_self
    obtain ⟨n, hwrite⟩ := accWrite_direct (ten := v.tenant) (bs := leBytes (sizeBytes c) (f l).toNat) hpath
      (by rw [leBytes_length]; exact hin) hgood
    obtain ⟨n', hrest⟩ := writeLanes_own (t := t) (v := v) (c := c) (off := off) (f := f) (ls := ls)
      (s := { s with work.mem := memWrite s.work.mem (arrayBase t.array.val + off l) (leBytes (sizeBytes c) (f l).toNat), counts := n })
      (fun x hx => hown x (List.mem_cons_of_mem _ hx)) hgood
    refine ⟨n', ?_⟩
    simp only [writeLanes, misaligned, halign, hwrite, hrest]
    rfl

theorem tblWf_storeLanes {b n : Nat} {off : Nat → Nat} {f : Nat → BitVec 32} : ∀ {ls : List (Nat × Word)} {m : Tbl Byte},
    tblWf 0 m = true → tblWf 0 (storeLanes b n off f ls m) = true
  | [], _, h => h
  | _ :: ls, _, h => tblWf_storeLanes (ls := ls) (tblWf_memWrite _ _ _ h)

theorem tblGet_storeLanes_outside {b n : Nat} {off : Nat → Nat} {f : Nat → BitVec 32} {x : Nat} : ∀ {ls : List (Nat × Word)} {m : Tbl Byte},
    (∀ y ∈ ls, x < b + off y.1 ∨ b + off y.1 + n ≤ x) → tblGet 0 (storeLanes b n off f ls m) x = tblGet 0 m x
  | [], _, _ => rfl
  | y :: ls, m, h => by
    have hy := h y List.mem_cons_self
    rw [storeLanes, List.foldl_cons]
    refine (tblGet_storeLanes_outside fun z hz => h z (List.mem_cons_of_mem y hz)).trans (tblGet_memWrite_outside _ _ _ _ ?_)
    rwa [leBytes_length]

/-- The lane stored last keeps its bytes. -/
theorem memRead_storeLanes_last {b n : Nat} {off : Nat → Nat} {f : Nat → BitVec 32} {ls : List (Nat × Word)} {m : Tbl Byte} {y : Nat × Word}
    (hwf : tblWf 0 m = true) (hlast : ls.getLast? = some y) :
    memRead (storeLanes b n off f ls m) (b + off y.1) n = leBytes n (f y.1).toNat := by
  obtain ⟨init, rfl⟩ := List.getLast?_eq_some_iff.mp hlast
  have hread := memRead_memWrite (leBytes n (f y.1).toNat) (storeLanes b n off f init m) (b + off y.1) (tblWf_storeLanes hwf)
  rw [leBytes_length] at hread
  rwa [storeLanes, List.foldl_append]

section
variable {s : State} {t : Thr} {op : Nat} {i : IWord} {c : Instr} {f : Thread → IWord → Nat → Word} {off : Nat → Nat}

theorem laneAddrs_fst (f : Nat → Word) (i : IWord) (h : Thread) : (laneAddrs f i h).map Prod.fst = maskLanes (h.pReg i.pg.toNat) := by
  rw [laneAddrs, List.map_map, guard]
  exact List.map_id _

theorem lanesLoad_own (h : Issues s t 6 op i) (hexec : exec c s = .next (issue t 6 op (lanesLoad f t) s))
    (hown : LanesOwn s t (sizeBytes i.size) off (laneAddrs (f (thr s t) i) i (thr s t))) (hidle : thrItems s t = [])
    (hgood : s.work.badWord = []) (hwf : tblWf 0 (thr s t).v = true) :
    Completes c s fun s' => ∃ h', ThreadStep s t h' s' ∧ LanesWritten (thr s t) i.d.toNat ((thr s t).pReg i.pg.toNat) (fun l =>
      BitVec.ofNat 32 (leNat (memRead s.work.mem (arrayBase t.array.val + off l) (sizeBytes i.size)))) h' := by
  obtain ⟨n, m, hread, -, hget⟩ := readLanes_own (v := kernelAt s (thr s t).kernel) hown hgood
  rw [laneAddrs_fst] at hget
  have hbody : lanesLoad f t (kernelAt s (thr s t).kernel) i (thr s t) s = some (setThr t
      ((thr s t).putLanes i.d.toNat ((thr s t).pReg i.pg.toNat) (fun l => tblGet 0 m l)).next { s with counts := n }) := by
    simp only [lanesLoad, lanesClear_idle hidle, hread, guard]
    rfl
  obtain ⟨s', hs', hstep⟩ := threadStep_of_body hexec h ((next_active _).trans (putLanes_active ..)) hbody
  exact ⟨s', hs', _, hstep, (lanesWritten_putLanes hwf ..).congr (hget (nodup_maskLanes _))⟩

theorem lanesStore_own (h : Issues s t 6 op i) (hexec : exec c s = .next (issue t 6 op (lanesStore f t) s))
    (hown : LanesOwn s t (sizeBytes i.size) off (laneAddrs (f (thr s t) i) i (thr s t))) (hidle : thrItems s t = [])
    (hgood : s.work.badWord = []) (hwf : s.work.memWf = true) :
    let v := thr s t
    let n := sizeBytes i.size
    let b := arrayBase t.array.val
    Completes c s fun s' => thr s' t = v.next
      ∧ (∀ x, (∀ y ∈ laneAddrs (f v i) i v, x < b + off y.1 ∨ b + off y.1 + n ≤ x) → tblGet 0 s'.work.mem x = tblGet 0 s.work.mem x)
      ∧ (∀ y, (laneAddrs (f v i) i v).getLast? = some y → memRead s'.work.mem (b + off y.1) n = leBytes n (v.lane i.d.toNat y.1).toNat)
      ∧ s'.larder.mem = s.larder.mem ∧ s'.regs = s.regs := by
  intro v n b
  obtain ⟨k, hwrite⟩ := writeLanes_own (v := kernelAt s v.kernel) (f := v.lane i.d.toNat) hown hgood
  refine ⟨_, exec_of_body hexec h (s' := setThr t v.next
    { s with work.mem := storeLanes b n off (v.lane i.d.toNat) (laneAddrs (f v i) i v) s.work.mem, counts := k }) ?_,
    thr_setThr_self (v := v.next) t (active_of_issues h).1 _, fun x hx => tblGet_storeLanes_outside hx, fun y hy => memRead_storeLanes_last hwf hy, rfl, rfl⟩
  dsimp only [v] at hwrite
  simp only [lanesStore, lanesClear_idle hidle, hwrite]
  rfl

end

/-- Settles O37: scalar accesses by their path, then vector accesses. -/
theorem scalarAndVectorAccesses : Obligations.ScalarAndVectorAccesses := by
  unfold Obligations.ScalarAndVectorAccesses
  refine ⟨⟨fun e he s t i o h => ?_, fun s t i o h => scalarStore_own h, fun e he s t i h => ?_,
    fun e he s t i h => ?_, fun s t i h => scalarStore_item h, fun e he s t i h => ?_⟩,
    fun s s1 t i sp m o h => vectorLoad_own h, fun s s1 t i sp o h => vectorStore_own h,
    fun e he s t i off h => ?_, fun e he s t i off h => ?_⟩
  · simp only [List.mem_cons, List.not_mem_nil, or_false] at he
    rcases he with rfl | rfl
    · exact scalarLoad_own h rfl
    · exact scalarLoad_own h rfl
  · simp only [List.mem_cons, List.not_mem_nil, or_false] at he
    rcases he with rfl | rfl | rfl
    · exact scalarLoad_misaligned h rfl
    · exact scalarLoad_misaligned h rfl
    · exact scalarStore_misaligned h
  · simp only [List.mem_cons, List.not_mem_nil, or_false] at he
    rcases he with rfl | rfl
    · exact scalarLoad_item h rfl
    · exact scalarLoad_item h rfl
  · simp only [List.mem_cons, List.not_mem_nil, or_false] at he
    rcases he with rfl | rfl | rfl
    · exact scalarLoad_reserved h rfl
    · exact scalarLoad_reserved h rfl
    · exact scalarStore_reserved h
  · simp only [List.mem_cons, List.not_mem_nil, or_false] at he
    rcases he with rfl | rfl
    · exact lanesLoad_own h rfl
    · exact lanesLoad_own h rfl
  · simp only [List.mem_cons, List.not_mem_nil, or_false] at he
    rcases he with rfl | rfl
    · exact lanesStore_own h rfl
    · exact lanesStore_own h rfl

end Machine
end Sys2Proof
end

section
/-!
PROOF. Atomics of a thread (R539, R594, Tables 11-6 and 16-15), and the statement of ThreadAtomics.
-/
namespace Sys2Proof
namespace Machine
set_option Elab.async false

section
variable {s : State} {t : Thr} {op fop : Nat} {i : IWord} {c : Instr}

theorem putOld_active (h : Thread) (pair : Bool) (n old : Nat) : (h.putOld pair n old).active = h.active := by
  cases pair <;> simp only [Thread.putOld, putS_active, if_true, Bool.false_eq_true, if_false]

/-- An atomic at an array replaces its operand and answers the value before (R403, R539). -/
theorem placeAtomic_own (hgood : s.work.badWord = []) (b x y : Nat) :
    let old := leNat (memRead s.work.mem b (atomicWidth fop))
    placeAtomic fop (.array b) x y s
      = (some old, { s with work.mem := memWrite s.work.mem b (leBytes (atomicWidth fop) (atomicNew fop old x y)) }) := by
  simp only [placeAtomic, placeRead_array hgood, placeWrite_own hgood]

theorem atomic_own {o : Nat} (h : Issues s t 7 op i) (hexec : exec c s = .next (issue t 7 op (atomicAcc fop t) s)) :
    let v := thr s t
    let a := accAddr i v
    let n := atomicWidth fop
    let b := arrayBase t.array.val + o
    let old := leNat (memRead s.work.mem b n)
    let pair := decide (fop = 0x0B)
    let x := atomOperand pair v i.b.toNat % 2 ^ (8 * n)
    let y := atomOperand pair v i.c.toNat % 2 ^ (8 * n)
    a.toNat % n = 0 → memPath s t.array.val a = .direct o → o + n ≤ 0x400000 → s.work.badWord = [] → s.work.memWf = true →
    Completes c s fun s' => memRead s'.work.mem b n = leBytes n (atomicNew fop old x y)
      ∧ (∀ z, z < b ∨ b + n ≤ z → tblGet 0 s'.work.mem z = tblGet 0 s.work.mem z)
      ∧ ThreadStep { s with work := { s.work with mem := s'.work.mem } } t (v.putOld pair i.d.toNat old).next s' := by
  intro v a n b old pair x y halign hpath hin hgood hwf
  have hread := memRead_memWrite (leBytes n (atomicNew fop old x y)) s.work.mem b hwf
  have houtside := tblGet_memWrite_outside (leBytes n (atomicNew fop old x y)) s.work.mem b
  rw [leBytes_length] at hread houtside
  have hplace := accPlace_direct (ten := (kernelAt s v.kernel).tenant) hpath hin .atomic
  have hact : (v.putOld pair i.d.toNat old).next.active = true :=
    ((next_active _).trans (putOld_active ..)).trans (active_of_issues h).1
  refine ⟨_, exec_of_body hexec h (s' := setThr t (v.putOld pair i.d.toNat old).next
    { s with work.mem := memWrite s.work.mem b (leBytes n (atomicNew fop old x y)),
             counts := (accCount t true (kernelAt s v.kernel).tenant a (.array b) s).counts }) ?_, hread, houtside, threadStep_counted hact _⟩
  have hatomic := placeAtomic_own (s := accCount t true (kernelAt s v.kernel).tenant a (.array b) s) (fop := fop) hgood b x y
  simp only [atomicAcc, halign, hpath, hplace, hatomic, v, a, n, b, pair, x, y]
  simp only [ne_eq, not_true_eq_false, if_false]
  rfl

theorem atomic_elsewhere (h : Issues s t 7 op i) (hexec : exec c s = .next (issue t 7 op (atomicAcc fop t) s)) :
    let v := thr s t
    let a := accAddr i v
    let n := atomicWidth fop
    let pair := decide (fop = 0x0B)
    let pay := leBytes n (atomOperand pair v i.b.toNat % 2 ^ (8 * n))
      ++ (if fop = 0x0A ∨ fop = 0x0B then leBytes n (atomOperand pair v i.c.toNat % 2 ^ (8 * n)) else [])
    let sent := thrSend t (thrPacket (BitVec.ofNat 8 fop) (kernelAt s v.kernel).tenant a) pay.length pay (.atomic i.d.toNat pair)
      (fun h => { h.next with busy := h.busy ++ oldBusy pair i.d.toNat }) s
    (a.toNat % n ≠ 0 → exec c s = .next (counted s t 7 (fault t 0x02 a.toNat s)))
      ∧ (a.toNat % n = 0 → memPath s t.array.val a = .reserved → exec c s = .next (counted s t 7 (fault t 0x03 a.toNat s)))
      ∧ (a.toNat % n = 0 → memPath s t.array.val a = .far ∨ memPath s t.array.val a = .node →
        (∀ u, sent = some u → exec c s = .next (counted s t 7 u)) ∧ (sent = none → NoEffect c s)) := by
  intro v a n pair pay sent
  refine ⟨fun halign => exec_of_body hexec h ?_, fun halign hpath => exec_of_body hexec h ?_,
    fun halign hpath => exec_of_sent hexec h ?_⟩
  · exact if_pos halign
  · have hplace := accPlace_reserved (ten := (kernelAt s v.kernel).tenant) hpath n .atomic
    simp only [atomicAcc, halign, hpath, hplace, v, a, n]
    rfl
  · rcases hpath with hpath | hpath
    · simp only [atomicAcc, halign, hpath, v, a, n]
      rfl
    · simp only [atomicAcc, halign, hpath, v, a, n]
      rfl

end

/-- Settles O38: each opcode at its own array, then misaligned, reserved and elsewhere. -/
theorem threadAtomics : Obligations.ThreadAtomics := by
  unfold Obligations.ThreadAtomics
  refine ⟨fun e he s t i o h => ?_, fun e he s t i h => ?_⟩
  · simp only [List.mem_cons, List.not_mem_nil, or_false] at he
    rcases he with rfl | rfl | rfl | rfl | rfl | rfl
    all_goals exact atomic_own h rfl
  · simp only [List.mem_cons, List.not_mem_nil, or_false] at he
    rcases he with rfl | rfl | rfl | rfl | rfl | rfl
    all_goals exact atomic_elsewhere h rfl

end Machine
end Sys2Proof
end

section
/-!
PROOF. Synchronisation and control (R542, R595 to R599, Tables 16-17 and 16-19), and the statement of SynchronisationAndControl.
-/
namespace Sys2Proof
namespace Machine
set_option Elab.async false

section
variable {s : State} {t : Thr} {op : Nat} {i : IWord} {c : Instr}

/-! ### Fences and barriers (R542, R595, R596) -/

theorem fenceClear_iff {scope : Nat} : fenceClear scope s t = true ↔ scope ≠ 2 ∨ thrItems s t = [] := by
  simp [fenceClear]

theorem fence_clear (h : Issues s t 8 0x00 i) (hclear : i.aux ≠ 2 ∨ thrItems s t = []) :
    Completes (.fence t) s (ThreadStep s t (thr s t).next) := by
  refine threadStep_of_body (c := .fence t) (n := s.counts)
    (body := fun _ i h s => if fenceClear i.aux s t then some (setThr t h.next s) else none) rfl h rfl ?_
  exact if_pos (fenceClear_iff.mpr hclear)

theorem fence_waits (h : Issues s t 8 0x00 i) (haux : i.aux = 2) (hitems : thrItems s t ≠ []) : NoEffect (.fence t) s := by
  refine noEffect_of_body (c := .fence t)
    (body := fun _ i h s => if fenceClear i.aux s t then some (setThr t h.next s) else none) rfl h (if_neg ?_)
  rw [fenceClear_iff]
  exact fun hclear => hclear.elim (· haux) hitems

theorem bar_exec (h : Issues s t 8 0x01 i) (hclear : i.aux ≠ 2 ∨ thrItems s t = []) :
    let v := thr s t
    exec (.bar t) s = .next (counted s t 8 (settleBar v.kernel v.run (setThr t { v.next with bars := v.bars + 1, inBar := true } s))) :=
  exec_of_body (c := .bar t) (body := fun _ i h s => if fenceClear i.aux s t then
    some (settleBar h.kernel h.run (setThr t { h.next with bars := h.bars + 1, inBar := true } s)) else none) rfl h
    (if_pos (fenceClear_iff.mpr hclear))

/-- A barrier that opens changes the threads that wait in it, and of them no more than that they wait (R596). -/
theorem settleBar_threads (k : Fin 256) (n : BitVec 32) (s : State) (t : Thr) (hact : (thr s t).active = true) :
    ∃ b w, settleBar k n s = { s with work.thr := w } ∧ thr (settleBar k n s) t = { thr s t with inBar := b } := by
  unfold settleBar
  extract_lets hs
  suffices hall : ∀ (l : List (Thr × Thread)) (u : State) (b : Bool) (w : Tbl Thread), u = { s with work.thr := w } →
      thr u t = { thr s t with inBar := b } → ∃ b w, l.foldl (fun s e =>
        if e.2.inBar && hs.all (fun x => x.2.ended || decide (e.2.bars ≤ x.2.bars)) then modThr e.1 (fun h => { h with inBar := false }) s
        else s) u = { s with work.thr := w } ∧ thr (l.foldl (fun s e =>
        if e.2.inBar && hs.all (fun x => x.2.ended || decide (e.2.bars ≤ x.2.bars)) then modThr e.1 (fun h => { h with inBar := false }) s
        else s) u) t = { thr s t with inBar := b } from hall hs s (thr s t).inBar s.work.thr rfl rfl
  intro l
  induction l with
  | nil => exact fun u b w hu ht => ⟨b, w, hu, ht⟩
  | cons e l ih =>
    intro u b w hu ht
    rw [List.foldl_cons]
    split
    · by_cases he : t = e.1
      · subst he
        refine ih _ false _ (by rw [hu]; rfl) ?_
        rw [modThr, ht]
        exact thr_setThr_self (v := { thr s e.1 with inBar := false }) e.1 hact u
      · refine ih _ b _ (by rw [hu]; rfl) ?_
        rw [modThr, thr_setThr_ne he]
        exact ht
    · exact ih u b w hu ht

theorem bar_counts (h : Issues s t 8 0x01 i) (hclear : i.aux ≠ 2 ∨ thrItems s t = []) :
    Completes (.bar t) s fun s' => (thr s' t).bars = (thr s t).bars + 1 ∧ (thr s' t).pc = (thr s t).pc + 1
      ∧ s' = { s with work := { s.work with thr := s'.work.thr }, counts := s'.counts } := by
  refine ⟨_, bar_exec h hclear, ?_⟩
  generalize hv : ({ (thr s t).next with bars := (thr s t).bars + 1, inBar := true } : Thread) = v
  have hself : thr (setThr t v s) t = v := thr_setThr_self t (by rw [← hv]; exact (active_of_issues h).1) s
  obtain ⟨b, w, heq, hthr⟩ := settleBar_threads (thr s t).kernel (thr s t).run (setThr t v s) t
    (by rw [hself, ← hv]; exact (active_of_issues h).1)
  rw [hself] at hthr
  rw [show thr (counted s t 8 _) t = _ from hthr, heq, ← hv]
  exact ⟨rfl, rfl, rfl⟩

/-! ### LAUNCH (R597) -/

theorem findTag_counts (c : Counts) : ∀ a n : Nat, findTag { s with counts := c } a n = findTag s a n
  | _, 0 => rfl
  | a, n + 1 => by
    rw [findTag, findTag, findTag_counts c (a + 1) n]
    rfl

theorem launch_misaligned (h : Issues s t 8 0x02 i) (halign : ((thr s t).sReg i.b.toNat).toNat % 8 ≠ 0) :
    exec (.launchInstr t) s = .next (counted s t 8 (fault t 0x02 ((thr s t).sReg i.b.toNat).toNat s)) :=
  exec_of_body (c := .launchInstr t) (body := launchFrom t) rfl h (if_pos halign)

theorem launch_elsewhere (h : Issues s t 8 0x02 i) (halign : ((thr s t).sReg i.b.toNat).toNat % 8 = 0)
    (hpath : ∀ o, memPath s t.array.val ((thr s t).sReg i.b.toNat) ≠ .direct o) :
    exec (.launchInstr t) s = .next (counted s t 8 (fault t 0x03 ((thr s t).sReg i.b.toNat).toNat s)) := by
  refine exec_of_body (c := .launchInstr t) (body := launchFrom t) rfl h ?_
  simp only [launchFrom, halign]
  cases hm : memPath s t.array.val ((thr s t).sReg i.b.toNat) with
  | direct o => exact absurd hm (hpath o)
  | _ => rfl

theorem launch_sends {o : Nat} (h : Issues s t 8 0x02 i) :
    let v := thr s t
    let p := v.sReg i.b.toNat
    let n := launchLen (memRead s.work.mem (arrayBase t.array.val + o) 32)
    p.toNat % 8 = 0 → memPath s t.array.val p = .direct o → o + 256 ≤ 0x400000 → n ≤ 256 → s.work.badWord = [] →
    (thrItems s t).length < 16 → (findTag s (workTags (workPort t.array.val)).1 (workTags (workPort t.array.val)).2).isSome = true →
    Completes (.launchInstr t) s fun s' => thr s' t = { v.next with waitAck := true } ∧ s'.work.mem = s.work.mem
      ∧ ∃ x ∈ s'.items.own, x.use = .thread t (.launch i.d.toNat) ∧ x.opcode = 0x10 ∧ x.addr = v.sReg i.a.toNat ∧ x.len = n := by
  intro v p n halign hpath hin hn hgood hitems htag
  obtain ⟨c1, hhead⟩ := accRead_direct (ten := (kernelAt s v.kernel).tenant) (n := 32) hpath (by omega) hgood
  obtain ⟨c2, hbytes⟩ := accRead_direct (ten := (kernelAt s v.kernel).tenant) (s := { s with counts := c1 }) (n := n)
    (a := p) (o := o) hpath (by omega) hgood
  obtain ⟨u, x, hsend, hx, huse, hop, haddr, hlen⟩ := sendItem_sends (i := workPort t.array.val) (tags := workTags (workPort t.array.val))
    { thrPacket 0x10 (kernelAt s v.kernel).tenant (v.sReg i.a.toNat) with gen := (v.sReg i.c.toNat).setWidth 16 } n
    (memRead s.work.mem (arrayBase t.array.val + o) n) (.thread t (.launch i.d.toNat)) (s := { s with counts := c2 })
    (by rw [findTag_counts]; exact htag)
  have hwork : u.work = s.work := (sendItem_core hsend).kept.2.1
  have hthr : thr u t = v := by rw [thr, hwork]; rfl
  have hroom : ¬ 0x400000 < o + 32 := by omega
  have hfits : ¬ 256 < n := by omega
  have hbody : launchFrom t (kernelAt s v.kernel) i v s = some (countItem t (modThr t (fun h => { h.next with waitAck := true }) u)) := by
    have hidle : (thrItems { s with counts := c2 } t).length < 16 := hitems
    simp only [launchFrom, p, n] at halign hpath hhead hbytes hsend hfits ⊢
    simp only [halign, hpath, if_neg hroom, hhead, if_neg hfits, hbytes, hidle, decide_true, hsend]
    rfl
  refine ⟨_, exec_of_body (c := .launchInstr t) (body := launchFrom t) rfl h hbody, ?_,
    (congrArg Work.mem hwork : u.work.mem = s.work.mem), x, hx, huse, hop, haddr, hlen⟩
  have hself := thr_setThr_self (v := { v.next with waitAck := true }) t (active_of_issues h).1 u
  rw [← hthr] at hself ⊢
  exact hself

/-! ### GETS (R598) -/

theorem gets_value (h : Issues s t 8 0x03 i) (haux : i.aux ≠ 4) :
    Completes (.gets t) s (ThreadStep s t ((thr s t).putS i.d.toNat (getsValue i.aux s (thr s t))).next) := by
  refine threadStep_of_body (c := .gets t) (n := s.counts) rfl h ((next_active _).trans (putS_active ..)) ?_
  simp only [if_neg haux]

theorem gets_flags (h : Issues s t 8 0x03 i) (haux : i.aux = 4) :
    Completes (.gets t) s (ThreadStep s t { ((thr s t).putS i.d.toNat ((thr s t).flags.setWidth 64)).next with flags := 0 }) := by
  refine threadStep_of_body (c := .gets t) (n := s.counts) rfl h
    ((next_active _).trans (putS_active (thr s t) i.d.toNat ((thr s t).flags.setWidth 64))) ?_
  simp only [haux]
  rfl

/-! ### Control (R599) -/

theorem putS_pc (h : Thread) (n : Nat) (x : Word) : (h.putS n x).pc = h.pc := by
  rw [Thread.putS]

theorem control_step {f : IWord → Thread → Thread} (h : Issues s t 9 op i) (hexec : exec c s = control t op f s)
    (hf : (f i (thr s t)).active = (thr s t).active) : Completes c s (ThreadStep s t (f i (thr s t))) :=
  threadStep_of_body (n := s.counts) (body := fun _ i h s => some (setThr t (f i h) s)) hexec h hf rfl

theorem branchIf_eq (q : IWord → Thread → Bool) (i : IWord) (h : Thread) : branchIf q i h
    = { h with pc := if q i h then (BitVec.ofNat 64 h.pc + i.low.signExtend 64).toNat else h.pc + 1 } := by
  unfold branchIf
  split <;> rfl

theorem branch_step {q : IWord → Thread → Bool} (h : Issues s t 9 op i) (hexec : exec c s = control t op (branchIf q) s) :
    Completes c s (ThreadStep s t { (thr s t) with
      pc := if q i (thr s t) then (BitVec.ofNat 64 (thr s t).pc + i.low.signExtend 64).toNat else (thr s t).pc + 1 }) := by
  rw [← branchIf_eq]
  exact control_step h hexec (by rw [branchIf_eq])

theorem loop_step (h : Issues s t 9 0x09 i) (hwf : tblWf 0 (thr s t).s = true) :
    let x := (thr s t).sReg i.a.toNat - 1
    Completes (.loop t) s (ThreadStep s t { ((thr s t).putS i.a.toNat x) with
      pc := if x ≠ 0 then (BitVec.ofNat 64 (thr s t).pc + i.low.signExtend 64).toNat else (thr s t).pc + 1 }) := by
  intro x
  have hx : ((thr s t).putS i.a.toNat x).sReg i.a.toNat = x := tblGet_tblSet_self 0 _ _ x hwf
  have hact : (branchIf (fun i h => h.sReg i.a.toNat ≠ 0) i ((thr s t).putS i.a.toNat x)).active = (thr s t).active := by
    rw [branchIf_eq]
    exact putS_active (thr s t) i.a.toNat x
  have hstep : Completes (.loop t) s (ThreadStep s t (branchIf (fun i h => h.sReg i.a.toNat ≠ 0) i ((thr s t).putS i.a.toNat x))) :=
    control_step (f := fun i h => branchIf (fun i h => h.sReg i.a.toNat ≠ 0) i (h.putS i.a.toNat (h.sReg i.a.toNat - 1))) h rfl hact
  rw [branchIf_eq, hx] at hstep
  simpa only [decide_eq_true_eq, putS_pc] using hstep

/-! ### END (R554, R596) -/

theorem end_exec (h : Issues s t 9 0x07 i) :
    let v := thr s t
    exec (.endThread t) s = .next (counted s t 9 (settleRun v.kernel v.run
      (settleBar v.kernel v.run (setThr t { v with ended := true } s)))) :=
  exec_of_body (c := .endThread t) (body := fun _ _ h s =>
    some (settleRun h.kernel h.run (settleBar h.kernel h.run (setThr t { h with ended := true } s)))) rfl h rfl

end

/-- A value that the change leaves no default is read back changed, from any table. -/
theorem tblGet_tblMap_of_ne {α : Type} [DecidableEq α] {d : α} {f : Nat → α → α} {k : Nat} :
    ∀ {t : Tbl α}, tblGet d t k ≠ d → f k (tblGet d t k) ≠ d → tblGet d (tblMap d f t) k = f k (tblGet d t k)
  | [], h, _ => (h rfl).elim
  | (j, v) :: t, h, hf => by
    rw [tblGet] at h hf ⊢
    split at h
    next hj =>
      subst hj
      rw [if_pos rfl] at hf ⊢
      rw [tblMap, if_neg hf, tblGet, if_pos rfl]
    next hj =>
      rw [if_neg hj] at hf ⊢
      rw [tblMap]
      split
      · exact tblGet_tblMap_of_ne h hf
      · rw [tblGet, if_neg hj]
        exact tblGet_tblMap_of_ne h hf

/-- A run that is over leaves its ended threads ended, at their counters, and writes no byte. -/
theorem settleRun_ended (k : Fin 256) (n : BitVec 32) {s : State} {t : Thr} (hend : (thr s t).ended = true) :
    (thr (settleRun k n s) t).ended = true ∧ (thr (settleRun k n s) t).pc = (thr s t).pc ∧ (settleRun k n s).work.mem = s.work.mem := by
  unfold settleRun
  split
  · exact ⟨hend, rfl, rfl⟩
  next r hr =>
    split
    · have hne : thr s t ≠ {} := fun hd => by rw [hd] at hend; cases hend
      have hfree : thr (freeThreads k r.num s) t = if (thr s t).active && (thr s t).kernel = k && (thr s t).run = r.num
          then { thr s t with active := false } else thr s t := by
        refine tblGet_tblMap_of_ne (f := fun _ (h : Thread) => if h.active && h.kernel = k && h.run = r.num then { h with active := false } else h)
          hne fun hd => ?_
        have hended := congrArg Thread.ended hd
        split at hended
        · rw [show (tblGet {} s.work.thr (thrKey t)).ended = true from hend] at hended
          cases hended
        · rw [show (tblGet {} s.work.thr (thrKey t)).ended = true from hend] at hended
          cases hended
      rw [thr_endRun, hfree]
      refine ⟨?_, ?_, reportRun_mem ..⟩
      · split
        · exact hend
        · exact hend
      · split
        · rfl
        · rfl
    · exact ⟨hend, rfl, rfl⟩

theorem end_ends {s : State} {t : Thr} {i : IWord} (h : Issues s t 9 0x07 i) : Completes (.endThread t) s fun s' =>
    (thr s' t).ended = true ∧ (thr s' t).pc = (thr s t).pc ∧ s'.work.mem = s.work.mem := by
  have hexec := end_exec h
  dsimp only at hexec
  generalize hv : ({ thr s t with ended := true } : Thread) = v at hexec
  have hself : thr (setThr t v s) t = v := thr_setThr_self t (by rw [← hv]; exact (active_of_issues h).1) s
  obtain ⟨b, w, heq, hthr⟩ := settleBar_threads (thr s t).kernel (thr s t).run (setThr t v s) t
    (by rw [hself, ← hv]; exact (active_of_issues h).1)
  rw [hself] at hthr
  obtain ⟨hended, hpc, hmem⟩ := settleRun_ended (thr s t).kernel (thr s t).run
    (s := settleBar (thr s t).kernel (thr s t).run (setThr t v s)) (t := t) (by rw [hthr, ← hv])
  replace hpc := hpc.trans ((congrArg Thread.pc hthr).trans (congrArg Thread.pc hv).symm)
  replace hmem := hmem.trans (congrArg (fun u : State => u.work.mem) heq)
  generalize settleRun _ _ _ = u at hexec hended hpc hmem
  exact ⟨_, hexec, hended, hpc, hmem⟩

/-- Settles O39: synchronisation, then control. -/
theorem synchronisationAndControl : Obligations.SynchronisationAndControl := by
  unfold Obligations.SynchronisationAndControl
  refine ⟨⟨fun s t i h => fence_clear h, fun s t i h => fence_waits h, fun s t i h => bar_counts h, fun s t i h => bar_exec h,
    fun s t i h => ⟨launch_misaligned h, launch_elsewhere h⟩, fun s t i o h => launch_sends h, fun s t i h => gets_value h,
    fun s t i h => gets_flags h⟩, fun e he s t i h => ?_, fun s t i h => ?_, fun s t i h => ?_, fun s t i h => loop_step h,
    fun s t i h => end_ends h, fun s t i h => end_exec h⟩
  · simp only [List.mem_cons, List.not_mem_nil, or_false] at he
    rcases he with rfl | rfl | rfl | rfl | rfl | rfl
    · exact branch_step h rfl
    · exact branch_step (q := fun i h => h.sReg i.a.toNat = 0) h rfl
    · exact branch_step (q := fun i h => h.sReg i.a.toNat ≠ 0) h rfl
    · exact branch_step (q := fun i h => h.pReg i.a.toNat ≠ 0) h rfl
    · exact branch_step (q := fun i h => h.pReg i.a.toNat = 0) h rfl
    · exact control_step (c := .nop t) h rfl rfl
  · exact control_step (c := .call t) h rfl rfl
  · exact control_step (c := .ret t) h rfl rfl

end Machine
end Sys2Proof
end
section
/-!
PROOF. Giving a tile its room and ending an operation move grains and spill units between the pool, the reserves and the tiles, and
lose none (O25; R485, R486, R489, R491). Both sums of the audit are one sum over the table of groups.
-/
namespace Sys2Proof
namespace Machine
set_option Elab.async false

/-! ### Sums over a table -/

/-- The sum of a figure over the entries of a table. -/
def tblSum {α : Type} (f : α → Nat) (t : Tbl α) : Nat := (t.map (fun e => f e.2)).sum

theorem tblSum_cons {α : Type} (f : α → Nat) (e : Nat × α) (t : Tbl α) : tblSum f (e :: t) = f e.2 + tblSum f t :=
  List.sum_cons

section
variable {α : Type} [DecidableEq α] {d : α} {f : α → Nat}

/-- An erasure takes the erased entry's figure out. -/
theorem tblSum_tblErase (hd : f d = 0) (k : Nat) : ∀ t : Tbl α, tblWf d t = true →
    tblSum f (tblErase t k) + f (tblGet d t k) = tblSum f t
  | [], _ => by rw [tblErase, tblGet, hd]; rfl
  | (i, w) :: t, hw => by
    have hw' := hw
    simp only [tblWf, Bool.and_eq_true, decide_eq_true_eq] at hw'
    obtain ⟨-, hwt⟩ := hw'
    by_cases hik : i = k
    · simp only [tblErase, tblGet, if_pos hik, tblSum_cons]
      omega
    · by_cases hki : k < i
      · rw [tblGet_of_above d k _ hw (by simpa [tblAbove] using hki), hd, tblErase, if_neg hik, if_pos hki, Nat.add_zero]
      · simp only [tblErase, tblGet, if_neg hik, if_neg hki, tblSum_cons]
        have := tblSum_tblErase hd k t hwt
        omega

/-- An insertion puts the new value's figure in place of the old one's. -/
theorem tblSum_tblInsert (hd : f d = 0) (k : Nat) (v : α) : ∀ t : Tbl α, tblWf d t = true →
    tblSum f (tblInsert t k v) + f (tblGet d t k) = tblSum f t + f v
  | [], _ => by
    rw [tblInsert, tblSum_cons, tblGet, hd, Nat.add_zero, Nat.add_comm]
  | (i, w) :: t, hw => by
    have hw' := hw
    simp only [tblWf, Bool.and_eq_true, decide_eq_true_eq] at hw'
    obtain ⟨-, hwt⟩ := hw'
    by_cases hik : i = k
    · simp only [tblInsert, tblGet, if_pos hik, tblSum_cons]
      omega
    · by_cases hki : k < i
      · rw [tblGet_of_above d k _ hw (by simpa [tblAbove] using hki), hd, tblInsert, if_neg hik, if_pos hki, tblSum_cons, Nat.add_zero,
          Nat.add_comm]
      · simp only [tblInsert, tblGet, if_neg hik, if_neg hki, tblSum_cons]
        have := tblSum_tblInsert hd k v t hwt
        omega

theorem tblSum_tblSet (hd : f d = 0) (k : Nat) (v : α) (t : Tbl α) (hw : tblWf d t = true) :
    tblSum f (tblSet d t k v) + f (tblGet d t k) = tblSum f t + f v := by
  unfold tblSet
  split
  next hv => rw [hv, hd, Nat.add_zero, tblSum_tblErase hd k t hw]
  next => exact tblSum_tblInsert hd k v t hw

end

/-! ### Grains and spill units as one measure -/

/-- The two measures of room: grains (R485) and spill units (R483). -/
inductive RoomKind
  | grains
  | spill

/-- Room of a measure that the pool has free. -/
def RoomKind.pool : RoomKind → State → Nat
  | .grains, s => s.hawk.grains
  | .spill, s => s.hawk.spill

/-- Room of a measure that a group's reserve has free. -/
def RoomKind.reserve : RoomKind → Group → Nat
  | .grains, v => v.resFree
  | .spill, v => v.resSpill

/-- Room of a measure that a tile holds. -/
def RoomKind.held : RoomKind → TileRec → Nat
  | .grains, t => t.grains
  | .spill, t => t.spill

/-- The room that a list of tiles holds. -/
def tilesRoom (k : RoomKind) (ts : List TileRec) : Nat := (ts.map k.held).sum

/-- The tiles of what is bound in a slot. -/
def slotTiles (o : Option CollOp) : List TileRec :=
  match o with
  | some o => o.tiles
  | none => []

/-- The room of a group: what its reserve has free, and what the tiles of its operations and of those that are ending hold. -/
def groupRoom (k : RoomKind) (v : Group) : Nat :=
  k.reserve v + tblSum (fun o => tilesRoom k (slotTiles o)) v.ops + tilesRoom k v.ending

/-- The room that a state accounts for. -/
def roomSum (k : RoomKind) (s : State) : Nat := k.pool s + tblSum (groupRoom k) s.hawk.group

theorem foldl_add_eq_sum {α : Type} (f : α → Nat) (n : Nat) (l : List α) : l.foldl (fun n x => n + f x) n = n + (l.map f).sum := by
  induction l generalizing n with
  | nil => rfl
  | cons x l ih => rw [List.foldl_cons, ih, List.map_cons, List.sum_cons, Nat.add_assoc]

theorem liveTiles_eq (s : State) : liveTiles s
    = s.hawk.group.flatMap (fun v => v.2.ops.flatMap (fun o => (slotTiles o.2).map (fun t => (v.1, t)))) :=
  List.flatMap_congr fun v _ => List.flatMap_congr fun o _ => by cases o.2 <;> rfl

/-- What the tiles of operations and those whose room has not returned hold is the tiles' part of the groups' room. -/
theorem tilesRoom_heldTiles (k : RoomKind) (s : State) : tilesRoom k (heldTiles s)
    = tblSum (fun v => tblSum (fun o => tilesRoom k (slotTiles o)) v.ops + tilesRoom k v.ending) s.hawk.group := by
  rw [heldTiles, liveTiles_eq]
  simp only [tilesRoom, tblSum, List.map_append, List.flatMap_def, List.map_flatten, List.map_map, List.sum_append,
    List.sum_flatten, Function.comp_def, List.sum_map_add]

theorem roomSum_eq (k : RoomKind) (s : State) : roomSum k s
    = k.pool s + (s.hawk.group.map (fun v => k.reserve v.2)).sum + tilesRoom k (heldTiles s) := by
  rw [tilesRoom_heldTiles]
  simp only [roomSum, groupRoom, tblSum, Nat.add_assoc, List.sum_map_add]

theorem grainSum_eq_roomSum (s : State) : grainSum s = roomSum .grains s := by
  simp only [roomSum_eq, grainSum, foldl_add_eq_sum, Nat.zero_add]
  rfl

theorem spillSum_eq_roomSum (s : State) : spillSum s = roomSum .spill s := by
  simp only [roomSum_eq, spillSum, foldl_add_eq_sum, Nat.zero_add]
  rfl

/-! ### What each change does to the room -/

section
variable {s : State} {g : Fin 1024} {q : Fin 16}

/-- A change of a group changes the sum by what it changes of that group's room. -/
theorem roomSum_modGroup (k : RoomKind) (f : Group → Group) (hwf : tblWf {} s.hawk.group = true) :
    roomSum k (modGroup g f s) + groupRoom k (groupOf s g) = roomSum k s + groupRoom k (f (groupOf s g)) := by
  have hempty : groupRoom k {} = 0 := by cases k <;> rfl
  have hset := tblSum_tblSet hempty g.val (f (groupOf s g)) s.hawk.group hwf
  have hpool : k.pool (modGroup g f s) = k.pool s := by cases k <;> rfl
  rw [roomSum, hpool, roomSum]
  change _ + tblSum (groupRoom k) (tblSet {} s.hawk.group g.val _) + groupRoom k (tblGet {} s.hawk.group g.val) = _
  omega

/-- A group with something else in a slot. -/
def slotSet (q : Fin 16) (o : Option CollOp) (v : Group) : Group := { v with ops := tblSet none v.ops q.val o }

/-- Another operation in a slot changes the group's room by what its tiles hold. -/
theorem groupRoom_setSlot (k : RoomKind) (v : Group) (o : Option CollOp) (hops : tblWf none v.ops = true) :
    groupRoom k (slotSet q o v) + tilesRoom k (slotTiles (tblGet none v.ops q.val))
      = groupRoom k v + tilesRoom k (slotTiles o) := by
  have hset := tblSum_tblSet (f := fun o => tilesRoom k (slotTiles o)) (d := none) rfl q.val o v.ops hops
  have hres : k.reserve (slotSet q o v) = k.reserve v := by cases k <;> rfl
  simp only [groupRoom, hres]
  simp only [slotSet]
  omega

/-- Returned room joins the sum. -/
theorem roomSum_returnRoom (k : RoomKind) (t : TileRec) (hwf : tblWf {} s.hawk.group = true) :
    roomSum k (returnRoom g t s) = roomSum k s + k.held t := by
  unfold returnRoom
  split
  · have := roomSum_modGroup (g := g) k (fun v => { v with resFree := v.resFree + t.grains, resSpill := v.resSpill + t.spill }) hwf
    cases k <;> simp only [groupRoom, RoomKind.reserve, RoomKind.held] at * <;> omega
  · cases k <;> simp only [roomSum, RoomKind.pool, RoomKind.held] <;> omega

theorem roomSum_returnRooms (k : RoomKind) : ∀ (ts : List TileRec) (s : State), tblWf {} s.hawk.group = true →
    roomSum k (ts.foldl (fun s t => returnRoom g t s) s) = roomSum k s + tilesRoom k ts
  | [], _, _ => rfl
  | t :: ts, s, hwf => by
    have hkept : SlotsKept g s (returnRoom g t s) := returnRoom_slotsKept t hwf
    rw [List.foldl_cons, roomSum_returnRooms k ts _ hkept.1, roomSum_returnRoom k t hwf, tilesRoom, tilesRoom, List.map_cons,
      List.sum_cons, Nat.add_assoc]

/-- Counts are no room. -/
theorem roomSum_bump (k : RoomKind) (p w n : Nat) (s : State) : roomSum k (bump p w n s) = roomSum k s := by cases k <;> rfl

/-- The operation with another tile. -/
def tileGiven (o : CollOp) (t : TileRec) : CollOp := { o with tiles := o.tiles ++ [t] }

/-- The room that a tile is given is in its operation. -/
theorem roomSum_newTile (k : RoomKind) {o : CollOp} (t : TileRec) (ho : opOf s g q = some o) (hwf : tblWf {} s.hawk.group = true)
    (hops : tblWf none (groupOf s g).ops = true) :
    roomSum k (setOp g q (some (tileGiven o t)) s) = roomSum k s + k.held t := by
  have hslot := groupRoom_setSlot (q := q) k (groupOf s g) (some (tileGiven o t)) hops
  have hsum := roomSum_modGroup (g := g) k (slotSet q (some (tileGiven o t))) hwf
  rw [opOf] at ho
  rw [ho] at hslot
  have htiles : tilesRoom k (slotTiles (some (tileGiven o t))) = tilesRoom k (slotTiles (some o)) + k.held t := by
    simp [slotTiles, tileGiven, tilesRoom]
  change roomSum k (modGroup g (slotSet q (some (tileGiven o t))) s) = _
  omega

/-- The tile that `giveRoom` adds. -/
def newTile (s : State) (tile need spill : Nat) (reserve : Bool) : TileRec :=
  { tile := tile, handle := freeHandle s, grains := need, spill := spill, fromReserve := reserve, born := s.hawk.given }

/-- Room taken from a group's reserve. -/
def reserveTaken (need spill : Nat) (v : Group) : Group :=
  { v with resFree := v.resFree - need, resSpill := v.resSpill - spill }

/-- Room taken from the pool. -/
def poolTaken (need spill : Nat) (s : State) : State :=
  { s with hawk.grains := s.hawk.grains - need, hawk.spill := s.hawk.spill - spill }

/-- The operation with another tile, in its slot. -/
def tileAdded (g : Fin 1024) (q : Fin 16) (o : CollOp) (t : TileRec) (s : State) : State :=
  setOp g q (some (tileGiven o t)) { s with hawk.given := s.hawk.given + 1 }

/-- Room taken from the pool leaves the sum. -/
theorem roomSum_takePool (k : RoomKind) {need spill : Nat} (hneed : need ≤ s.hawk.grains) (hspill : spill ≤ s.hawk.spill) (t : TileRec)
    (ht : t.grains = need ∧ t.spill = spill) :
    roomSum k (poolTaken need spill s) + k.held t = roomSum k s := by
  obtain ⟨rfl, rfl⟩ := ht
  cases k <;> simp only [poolTaken, roomSum, RoomKind.pool, RoomKind.held] <;> omega

/-- Room taken from a group's reserve leaves the sum. -/
theorem roomSum_takeReserve (k : RoomKind) {need spill : Nat} (hwf : tblWf {} s.hawk.group = true)
    (hneed : need ≤ (groupOf s g).resFree) (hspill : spill ≤ (groupOf s g).resSpill) (t : TileRec)
    (ht : t.grains = need ∧ t.spill = spill) :
    roomSum k (modGroup g (reserveTaken need spill) s) + k.held t
      = roomSum k s := by
  have hsum := roomSum_modGroup (g := g) k (reserveTaken need spill) hwf
  obtain ⟨rfl, rfl⟩ := ht
  cases k <;> simp only [reserveTaken, groupRoom, RoomKind.reserve, RoomKind.held] at * <;> omega

/-- Giving a tile room sets its operation with the new tile, and takes the room from its source. -/
theorem giveRoom_eq {o : CollOp} (tile need spill : Nat) (reserve : Bool) (ho : opOf s g q = some o) :
    giveRoom g q tile need spill reserve s =
      let u := tileAdded g q o (newTile s tile need spill reserve) s
      if reserve then modGroup g (reserveTaken need spill) (bump hawkPage 7 1 u) else bump hawkPage 8 1 (poolTaken need spill u) := by
  have hadd : modOp g q (fun o => tileGiven o (newTile s tile need spill reserve))
      { s with hawk.given := s.hawk.given + 1 } = tileAdded g q o (newTile s tile need spill reserve) s := by
    simp only [modOp, show opOf { s with hawk.given := s.hawk.given + 1 } g q = some o from ho]
    rfl
  rw [← hadd]
  rfl

theorem roomSum_given (k : RoomKind) (n : Nat) (s : State) : roomSum k { s with hawk.given := n } = roomSum k s := by cases k <;> rfl

theorem roomSum_giveRoom_pool (k : RoomKind) {o : CollOp} {tile need spill : Nat} (ho : opOf s g q = some o)
    (hwf : tblWf {} s.hawk.group = true) (hops : tblWf none (groupOf s g).ops = true) (hneed : need ≤ s.hawk.grains)
    (hspill : spill ≤ s.hawk.spill) :
    roomSum k (giveRoom g q tile need spill false s) = roomSum k s := by
  rw [giveRoom_eq _ _ _ _ ho]
  extract_lets u
  have hu : roomSum k u = roomSum k s + k.held (newTile s tile need spill false) :=
    (roomSum_newTile (s := { s with hawk.given := s.hawk.given + 1 }) k _ ho hwf hops).trans (by rw [roomSum_given])
  have htake := roomSum_takePool (s := u) k hneed hspill (newTile s tile need spill false) ⟨rfl, rfl⟩
  rw [if_neg Bool.false_ne_true, roomSum_bump]
  omega

theorem roomSum_giveRoom_reserve (k : RoomKind) {o : CollOp} {tile need spill : Nat} (ho : opOf s g q = some o)
    (hwf : tblWf {} s.hawk.group = true) (hops : tblWf none (groupOf s g).ops = true) (hneed : need ≤ (groupOf s g).resFree)
    (hspill : spill ≤ (groupOf s g).resSpill) :
    roomSum k (giveRoom g q tile need spill true s) = roomSum k s := by
  rw [giveRoom_eq _ _ _ _ ho]
  extract_lets u
  have hu : roomSum k u = roomSum k s + k.held (newTile s tile need spill true) :=
    (roomSum_newTile (s := { s with hawk.given := s.hawk.given + 1 }) k _ ho hwf hops).trans (by rw [roomSum_given])
  have hgroup : groupOf u g = slotSet q (some (tileGiven o (newTile s tile need spill true))) (groupOf s g) := groupOf_setOp _
  have hwfu : tblWf {} u.hawk.group = true := groupsWf_modGroup (s := { s with hawk.given := s.hawk.given + 1 }) hwf
  have hfree : need ≤ (groupOf u g).resFree ∧ spill ≤ (groupOf u g).resSpill := by
    rw [hgroup]
    exact ⟨hneed, hspill⟩
  have htake := roomSum_takeReserve (s := bump hawkPage 7 1 u) k hwfu hfree.1 hfree.2 (newTile s tile need spill true) ⟨rfl, rfl⟩
  rw [roomSum_bump] at htake
  rw [if_pos rfl]
  omega

/-- The slot that an ended operation leaves takes its tiles' room out of the sum. -/
theorem roomSum_slotEnded (k : RoomKind) {o : CollOp} {st : BitVec 8} (ho : opOf s g q = some o)
    (hwf : tblWf {} s.hawk.group = true) (hops : tblWf none (groupOf s g).ops = true) :
    roomSum k (modGroup g (slotEnded q o st) s) + tilesRoom k o.tiles = roomSum k s := by
  have hsum := roomSum_modGroup (g := g) k (slotEnded q o st) hwf
  have hslot := groupRoom_setSlot (q := q) k (groupOf s g) none hops
  have hsame : groupRoom k (slotEnded q o st (groupOf s g))
      = groupRoom k (slotSet q none (groupOf s g)) := by cases k <;> rfl
  rw [opOf] at ho
  rw [ho] at hslot
  have hnone : tilesRoom k (slotTiles none) = 0 := rfl
  rw [slotTiles] at hslot
  omega

/-- A group at whose next boundary the room of more tiles returns. -/
def endingAdded (ts : List TileRec) (v : Group) : Group := { v with ending := v.ending ++ ts }

theorem roomSum_closeOp (k : RoomKind) {o : CollOp} {st : BitVec 8} (ho : opOf s g q = some o) (hwf : tblWf {} s.hawk.group = true)
    (hops : tblWf none (groupOf s g).ops = true) : roomSum k (closeOp g q o st s) = roomSum k s := by
  unfold closeOp
  extract_lets u _ _ w
  have hu : SlotsKept g s u ∧ roomSum k u = roomSum k s + tilesRoom k o.tiles := by
    unfold u
    split
    · exact ⟨returnRooms_slotsKept o.tiles hwf, roomSum_returnRooms k o.tiles s hwf⟩
    · refine ⟨modGroup_slotsKept (fun _ => rfl) hwf, ?_⟩
      have hsum := roomSum_modGroup (g := g) k (endingAdded o.tiles) hwf
      have happ : groupRoom k (endingAdded o.tiles (groupOf s g))
          = groupRoom k (groupOf s g) + tilesRoom k o.tiles := by
        cases k <;> simp only [groupRoom, endingAdded, tilesRoom, List.map_append, List.sum_append, RoomKind.reserve] <;> omega
      change roomSum k (modGroup g (endingAdded o.tiles) s) = _
      omega
  obtain ⟨⟨hwfw, hbooks, -, -⟩, hsum⟩ := hu
  simp only [slotBooks, Prod.mk.injEq] at hbooks
  obtain ⟨hopsw, -, -⟩ := hbooks
  have hw : roomSum k w = roomSum k u := by
    rw [roomSum_bump]
    cases k <;> rfl
  have hgw : groupOf w g = groupOf u g := rfl
  have hended := roomSum_slotEnded (s := w) (g := g) (q := q) (o := o) (st := st) k (by rw [opOf, hgw, hopsw]; exact ho) hwfw
    (by rw [hgw, hopsw]; exact hops)
  change roomSum k (modGroup g (slotEnded q o st) w) = _
  omega

end

/-- Settles O25: both sums are the pool's room and the room of every group, of which a grant and the end of an operation change one
entry, by what they take from or return to the source. -/
theorem hawkRoomConserved : Obligations.HawkRoomConserved := by
  unfold Obligations.HawkRoomConserved
  simp only [grainSum_eq_roomSum, spillSum_eq_roomSum]
  exact ⟨fun s g q o tile need spill ho hwf hops hneed hspill =>
      ⟨roomSum_giveRoom_pool _ ho hwf hops hneed hspill, roomSum_giveRoom_pool _ ho hwf hops hneed hspill⟩,
    fun s g q o tile need spill ho hwf hops hneed hspill =>
      ⟨roomSum_giveRoom_reserve _ ho hwf hops hneed hspill, roomSum_giveRoom_reserve _ ho hwf hops hneed hspill⟩,
    fun s g q o st ho hwf hops => ⟨roomSum_closeOp _ ho hwf hops, roomSum_closeOp _ ho hwf hops⟩⟩

end Machine
end Sys2Proof
end
section
/-!
PROOF. Step 9 serves the waiting requests, and the audit of grains and spill units compares, reports and rebuilds (O24; R485, R487, R490
to R492).
-/
namespace Sys2Proof
namespace Machine
set_option Elab.async false

/-! ### Step 9 -/

/-- With no work due at the boundary, the step finds the state as it is. -/
theorem runInner_of_nothing_due {s : State} (n : Nat) (h : s.tick.todo = []) : runInner n s = s := by
  rw [runInner, h]
  change { s with tick.todo := [] } = s
  rw [← h]

section
variable {s : State}

theorem atStep_of {n : Nat} (hslot : s.tick.slot = 0) (hphase : s.tick.phase ≤ n) : atStep n s = true := by simp [atStep, hslot, hphase]

theorem atStep_not {n : Nat} (h : s.tick.slot ≠ 0 ∨ n < s.tick.phase) : atStep n s = false := by
  rw [atStep, Bool.and_eq_false_iff, decide_eq_false_iff_not, decide_eq_false_iff_not, Nat.not_le]
  exact h

theorem hawkGrantStep_serves (hslot : s.tick.slot = 0) (hphase : s.tick.phase ≤ 9) (hskip : s.hawk.skip = false) :
    let w := grantWalk (s.hawk.reqs.foldl (fun l r => insertReq s r l) []) true s.hawk.limit [] s
    hawkGrantStep s = setPhase 10 { w.2 with hawk.reqs := w.1, hawk.movedOut := 0, hawk.movedIn := 0 } := by
  simp [hawkGrantStep, atStep_of hslot hphase, hskip]

theorem hawkGrantStep_skips (hslot : s.tick.slot = 0) (hphase : s.tick.phase ≤ 9) (hskip : s.hawk.skip = true) :
    hawkGrantStep s = setPhase 10 { s with hawk.skip := false } := by
  simp [hawkGrantStep, atStep_of hslot hphase, hskip]

theorem hawkGrantStep_idle (h : s.tick.slot ≠ 0 ∨ 9 < s.tick.phase) : hawkGrantStep s = s := by simp [hawkGrantStep, atStep_not h]

/-- With one request waiting, the walk is over it alone. -/
theorem execHawkGrantStep_one {r : GrantReq} (hdue : s.tick.todo = []) (hslot : s.tick.slot = 0) (hphase : s.tick.phase ≤ 9)
    (hskip : s.hawk.skip = false) (hreqs : s.hawk.reqs = [r]) :
    let w := grantWalk [r] true s.hawk.limit [] s
    exec .hawkGrantStep s = .next (setPhase 10 { w.2 with hawk.reqs := w.1, hawk.movedOut := 0, hawk.movedIn := 0 }) := by
  change Host.Outcome.next (hawkGrantStep (runInner 8 s)) = _
  rw [runInner_of_nothing_due 8 hdue, hawkGrantStep_serves hslot hphase hskip, hreqs]
  rfl

/-! ### One request of the walk (R485, R487) -/

/-- The request served from its group's reserve or the pool, or kept. -/
theorem grantWalk_reserve {r : GrantReq} {n : Nat} (hn : 0 < n) (h : r.need ≤ (groupOf s r.g).resFree) :
    grantWalk [r] true n [] s = ([], giveRoom r.g r.slot r.tile r.need r.spill true s) := by
  rw [grantWalk, if_neg (Nat.ne_of_gt hn), if_pos h]
  rfl

theorem grantWalk_pool {r : GrantReq} {n : Nat} (hn : 0 < n) (h : (groupOf s r.g).resFree < r.need) (hneed : r.need ≤ s.hawk.grains)
    (hspill : r.spill ≤ s.hawk.spill) :
    grantWalk [r] true n [] s = ([], giveRoom r.g r.slot r.tile r.need r.spill false s) := by
  rw [grantWalk, if_neg (Nat.ne_of_gt hn), if_neg (Nat.not_le.2 h), if_pos (by simp [hneed, hspill])]
  rfl

theorem grantWalk_keeps {r : GrantReq} {n : Nat} (hn : 0 < n) (h : (groupOf s r.g).resFree < r.need)
    (hfull : s.hawk.grains < r.need ∨ s.hawk.spill < r.spill) :
    grantWalk [r] true n [] s = ([r], bump (groupPage r.g.val) 4 1 (bump hawkPage 9 1 s)) := by
  have hclosed : ¬((true && decide (r.need ≤ s.hawk.grains) && decide (r.spill ≤ s.hawk.spill)) = true) := by
    simp only [Bool.true_and, Bool.and_eq_true, decide_eq_true_eq]
    omega
  rw [grantWalk, if_neg (Nat.ne_of_gt hn), if_neg (Nat.not_le.2 h), if_neg hclosed]
  rfl

variable {g : Fin 1024} {q : Fin 16}

/-- A change of an operation is a change of the table of groups, which keeps its form and its reserves. -/
theorem modOp_groups (f : CollOp → CollOp) (hwf : tblWf {} s.hawk.group = true) :
    ∃ grp, modOp g q f s = { s with hawk.group := grp } ∧ tblWf {} grp = true
      ∧ (tblGet {} grp g.val).resFree = (groupOf s g).resFree := by
  unfold modOp
  split
  next o _ =>
    have hset : groupOf (setOp g q (some (f o)) s) g = slotSet q (some (f o)) (groupOf s g) := groupOf_setOp (f o)
    have hwf' : tblWf {} (setOp g q (some (f o)) s).hawk.group = true := groupsWf_modGroup hwf
    exact ⟨(setOp g q (some (f o)) s).hawk.group, rfl, hwf', (congrArg Group.resFree hset :)⟩
  next => exact ⟨_, rfl, hwf, rfl⟩

/-- The groups with the tile's room in its operation. -/
def roomGiven (g : Fin 1024) (q : Fin 16) (tile need spill : Nat) (reserve : Bool) (s : State) : State :=
  modOp g q (tileGiven · (newTile s tile need spill reserve)) { s with hawk.given := s.hawk.given + 1 }

/-- Room from the reserve is taken from its group. -/
theorem giveRoom_reserve (tile need spill : Nat) (hwf : tblWf {} s.hawk.group = true) :
    let t := giveRoom g q tile need spill true s
    (groupOf t g).resFree = (groupOf s g).resFree - need ∧ t.hawk.grains = s.hawk.grains
      ∧ t = { s with hawk := t.hawk, counts := t.counts } := by
  intro t
  have ht : t = modGroup g (reserveTaken need spill) (bump hawkPage 7 1 (roomGiven g q tile need spill true s)) := rfl
  obtain ⟨grp, hv, hgrp, hfree⟩ := modOp_groups (s := { s with hawk.given := s.hawk.given + 1 }) (g := g) (q := q)
    (tileGiven · (newTile s tile need spill true)) hwf
  rw [roomGiven, hv] at ht
  clear_value t
  subst ht
  refine ⟨?_, rfl, rfl⟩
  rw [groupOf_modGroup (.inl hgrp)]
  exact congrArg (· - need) hfree

/-- Room from the pool is taken from its free grains and spill units. -/
theorem giveRoom_pool (tile need spill : Nat) :
    let t := giveRoom g q tile need spill false s
    t.hawk.grains = s.hawk.grains - need ∧ t.hawk.spill = s.hawk.spill - spill := by
  intro t
  have ht : t = bump hawkPage 8 1 (poolTaken need spill (roomGiven g q tile need spill false s)) := rfl
  have hv : ∃ grp, roomGiven g q tile need spill false s = { s with hawk.given := s.hawk.given + 1, hawk.group := grp } := by
    unfold roomGiven modOp
    split <;> exact ⟨_, rfl⟩
  obtain ⟨grp, hv⟩ := hv
  rw [hv] at ht
  rw [ht]
  exact ⟨rfl, rfl⟩

/-! ### The audit (R491, R492) -/

theorem execGrainAudit_finds {g p : Nat} (hlatched : s.hawk.latched = some (g, p)) (hslot : s.tick.slot = 0) (hphase : s.tick.phase ≤ 6)
    (hhits : hits s 64 48 = true) (hne : g ≠ 3072 ∨ p ≠ spillTotal s) :
    execGrainAudit s = .next (rebuildRoom (roomCheck 1 p (spillTotal s) (roomCheck 0 g 3072 s))) := by
  have hdiff : ¬(g = 3072 ∧ p = spillTotal s) := not_and_or.2 hne
  simp [execGrainAudit, hlatched, atStep_of hslot hphase, hhits, hdiff]

theorem execGrainAudit_none
    (h : s.hawk.latched = none ∨ s.tick.slot ≠ 0 ∨ hits s 64 48 = false ∨ s.hawk.latched = some (3072, spillTotal s)) :
    execGrainAudit s = .next s := by
  cases hlatched : s.hawk.latched with
  | none => simp [execGrainAudit, hlatched]
  | some x =>
    obtain ⟨g, p⟩ := x
    have hquiet : (!atStep 6 s || !hits s 64 48 || (decide (g = 3072) && decide (p = spillTotal s))) = true := by
      rcases h with h | h | h | h
      · simp [hlatched] at h
      · simp [atStep_not (.inl h)]
      · simp [h]
      · rw [hlatched] at h
        simp_all
    simp only [execGrainAudit, hlatched]
    rw [if_pos (by simpa using hquiet)]

theorem roomCheck_reports {sub sum ref : Nat} (hne : sum ≠ ref) :
    HostOnly s (roomCheck sub sum ref s) ∧ ∃ e, (roomCheck sub sum ref s).counts.sideband = s.counts.sideband ++ [e]
      ∧ e.code = 0x15 ∧ e.unit = 0
      ∧ e.detail = BitVec.ofNat 128 (3 + sub <<< 8 + (((sum : Int) - ref) % 4294967296).toNat <<< 16) := by
  rw [roomCheck, if_neg hne, auditMismatch]
  exact ⟨(bumpModule_host ..).trans (raiseEv_host ..), _, raiseEv_sideband .., rfl, rfl, rfl⟩

theorem rebuildRoom_quiet (h : doubleHeld s = []) :
    rebuildRoom s = { s with hawk := (rebuildRoom s).hawk } ∧ (rebuildRoom s).hawk.reqs = s.hawk.reqs
      ∧ (rebuildRoom s).hawk.grains = 3072 - s.hawk.group.foldl (fun n v => n + v.2.res) 0
          - ((liveTiles s).filter (fun t => !t.2.fromReserve)).foldl (fun n t => n + t.2.grains) 0 := by
  rw [rebuildRoom, h]
  exact ⟨rfl, rfl, rfl⟩

/-- In consecutive ticks the audit's tick is the one whose number is 48 mod 64. -/
theorem hits_audit (hspan : tickSpan s = 1) : hits s 64 48 = true ↔ (nowTick s).toNat % 64 = 48 := by
  rw [hits, hspan, decide_eq_true_eq]
  omega

end

/-- Settles O24: step 9 walks the requests in order, of which one alone is served from its reserve or the pool or stays; the audit
reports each sum that differs and rebuilds. -/
theorem hawkGrantsAndAudit : Obligations.HawkGrantsAndAudit := by
  unfold Obligations.HawkGrantsAndAudit
  refine ⟨fun s => ?_, ?_, ?_, ?_, ?_, ?_, ?_, ?_⟩
  · intro u
    exact ⟨fun hslot hphase hskip => congrArg Host.Outcome.next (hawkGrantStep_serves hslot hphase hskip),
      fun hslot hphase hskip => congrArg Host.Outcome.next (hawkGrantStep_skips hslot hphase hskip),
      fun hlate => congrArg Host.Outcome.next (hawkGrantStep_idle hlate), runInner_of_nothing_due 8⟩
  · intro s r hdue hslot hphase hskip hreqs hlimit hneed hwf
    obtain ⟨hfree, hgrains, hrest⟩ := giveRoom_reserve (g := r.g) (q := r.slot) r.tile r.need r.spill hwf
    refine ⟨_, execHawkGrantStep_one hdue hslot hphase hskip hreqs, ?_⟩
    rw [grantWalk_reserve hlimit hneed]
    generalize giveRoom r.g r.slot r.tile r.need r.spill true s = t at *
    refine ⟨rfl, hfree, hgrains, rfl, rfl, ?_⟩
    generalize t.hawk = h, t.counts = c at hrest
    rw [hrest]
    rfl
  · intro s r hdue hslot hphase hskip hreqs hlimit hshort
    refine ⟨_, execHawkGrantStep_one hdue hslot hphase hskip hreqs, ?_, ?_⟩
    · intro hneed hspill
      obtain ⟨hgrains, hunits⟩ := giveRoom_pool (s := s) (g := r.g) (q := r.slot) r.tile r.need r.spill
      rw [grantWalk_pool hlimit hshort hneed hspill]
      exact ⟨rfl, hgrains, hunits⟩
    · intro hfull
      rw [grantWalk_keeps hlimit hshort hfull]
      exact ⟨rfl, rfl, rfl⟩
  · exact fun s g p hlatched hslot hphase hhits hne => execGrainAudit_finds hlatched hslot hphase hhits hne
  · exact fun s sub sum ref => ⟨fun heq => if_pos heq, roomCheck_reports⟩
  · exact fun s => ⟨rfl, rebuildRoom_quiet⟩
  · exact fun s h => execGrainAudit_none h
  · exact fun s => hits_audit

end Machine
end Sys2Proof
end
section
/-!
PROOF. A contribution asks for its room and stands in its queue; a cell that reaches its slice is added once, kept for its turn, or
counted and reported when it is a second one (O22; R445, R469, R470, R473, R478, R479, R485).
-/
namespace Sys2Proof
namespace Machine
set_option Elab.async false

/-! ### Acceptance (R445, R458) -/

section
variable {s : State} {i : PortId} {p : Packet} {o : CollOp} {w : Sender}

/-- An accepted contribution of kinds 0 to 3 is of a tile. -/
theorem takeContrib_tile (hop : p.opcode = 0x21) (h : OfBoundOp s i p o w) (hw : w ≠ .stranger) (hkind : o.tmpl.kind < 4) :
    takeContrib i p s = takeTile i w p o s := by
  rw [takeContrib, withOp_accepted hop h hw]
  split
  · omega
  · omega
  · omega
  · rfl

theorem takeTile_refused (hok : contribOk o w p = false) : takeTile i w p o s = collDiscard (cGroup p) i p s := by
  rw [takeTile, hok]
  rfl

/-- The state in which an accepted contribution's room is asked for and its packet stands in the queue with what it contributes to. -/
def contribStands (i : PortId) (p : Packet) (o : CollOp) (w : Sender) (s : State) : State :=
  modEntry i p (fun e => { e with adm := some (contribOf o w p) })
    (standIn i p (if o.doneTiles.contains (cTile p) || (tileOf s (cGroup p) (cSlot p) (cTile p)).isSome then s
      else askRoom (cGroup p) (cSlot p) o (cTile p) s))

/-- A contribution that is not shared with the peers stands in its queue. -/
theorem takeTile_stands (hok : contribOk o w p = true) (h : o.tmpl.kind < 2 ∨ (∃ r, w = .peer r) ∨ entryBad s i p = true) :
    takeTile i w p o s = contribStands i p o w s := by
  rw [takeTile, hok]
  simp only [Bool.not_true, Bool.false_eq_true, if_false]
  cases w with
  | member j =>
    have hkept : ¬((decide (2 ≤ o.tmpl.kind) && !entryBad s i p) = true) := by
      rcases h with h | ⟨r, hr⟩ | h
      · simp [Nat.not_le.2 h]
      · cases hr
      · simp [h]
    exact if_neg hkept
  | peer r => rfl
  | stranger => rfl

/-- A gathered contribution of a member goes to every peer module as well. -/
theorem takeTile_shared {j : Nat} (hok : contribOk o (.member j) p = true) (hkind : 2 ≤ o.tmpl.kind) (hgood : entryBad s i p = false) :
    takeTile i (.member j) p o s = toPeers (cGroup p) (cSlot p) o 0x21 (cTile p <<< 20 + cOff p)
      (decide (tileBytes o.tmpl (cTile p) ≤ cOff p + p.payLen.toNat)) p.payload (contribStands i p o (.member j) s) := by
  have hshared : (decide (2 ≤ o.tmpl.kind) && !entryBad s i p) = true := by simp [hkind, hgood]
  rw [takeTile, hok]
  exact if_pos hshared

/-- A packet of a slot with no operation bound and none ended waits. -/
theorem withOp_waits {op : BitVec 8} (hop : p.opcode = op) (hin : mayTakeIn s i p = true)
    (hnone : opOf s (cGroup p) (cSlot p) = none) (hlast : tblGet none (groupOf s (cGroup p)).last (cSlot p).val = none)
    (hcheck : memberCheck s (cGroup p) (gEntry s (cGroup p)) (senderOf (gEntry s (cGroup p)) i p) p = none)
    (hw : senderOf (gEntry s (cGroup p)) i p ≠ .stranger) (body) : withOp i p op s body = holdIn i p s := by
  simp [withOp, acceptOp, hop, hin, hnone, hlast, hcheck, hw]

theorem withOp_stranger {op : BitVec 8} (hop : p.opcode = op) (hin : mayTakeIn s i p = true)
    (hnone : opOf s (cGroup p) (cSlot p) = none)
    (hcheck : memberCheck s (cGroup p) (gEntry s (cGroup p)) (senderOf (gEntry s (cGroup p)) i p) p = none)
    (hw : senderOf (gEntry s (cGroup p)) i p = .stranger) (body) : withOp i p op s body = collDiscard (cGroup p) i p s := by
  rw [hw] at hcheck
  simp [withOp, acceptOp, hop, hin, hnone, hcheck, hw]

end

/-! ### Tiles and positions -/

section
variable {s : State} {g : Fin 1024} {q : Fin 16} {tile : Nat} {o : CollOp} {r : TileRec}

/-- The operation with one tile changed. -/
def withTile (tile : Nat) (f : TileRec → TileRec) (o : CollOp) : CollOp :=
  { o with tiles := o.tiles.map (fun t => if t.tile = tile then f t else t) }

theorem opOf_modTile (f : TileRec → TileRec) (ho : opOf s g q = some o) :
    opOf (modTile g q tile f s) g q = some (withTile tile f o) := by
  have hmod : modTile g q tile f s = setOp g q (some (withTile tile f o)) s := by simp only [modTile, modOp, ho, withTile]
  rw [hmod]
  exact opOf_setOp _

theorem tileOf_modTile {f : TileRec → TileRec} (hf : ∀ t, (f t).tile = t.tile) (ho : opOf s g q = some o)
    (hr : tileOf s g q tile = some r) : tileOf (modTile g q tile f s) g q tile = some (f r) := by
  simp only [tileOf, ho] at hr
  simp only [tileOf, opOf_modTile f ho, withTile]
  generalize o.tiles = ts at hr
  induction ts with
  | nil => cases hr
  | cons t ts ih =>
    by_cases ht : t.tile = tile
    · rw [List.find?_cons_of_pos (by simpa using ht), Option.some.injEq] at hr
      rw [List.map_cons, if_pos ht, List.find?_cons_of_pos (by simp [hf, ht]), hr]
    · rw [List.find?_cons_of_neg (by simpa using ht)] at hr
      rw [List.map_cons, if_neg ht, List.find?_cons_of_neg (by simpa using ht), ih hr]

/-- A tile changed is a change of the groups. -/
theorem modTile_groups (f : TileRec → TileRec) : ∃ grp, modTile g q tile f s = { s with hawk.group := grp } := by
  unfold modTile modOp
  split <;> exact ⟨_, rfl⟩

theorem setPos_tile (stage2 : Bool) (c : Nat) (p : Pos) (t : TileRec) : (setPos stage2 c p t).tile = t.tile := by
  cases stage2 <;> rfl

/-- What a tile keeps when a position changes. -/
theorem setPos_keeps (stage2 : Bool) (c : Nat) (p : Pos) (t : TileRec) :
    (setPos stage2 c p t).handle = t.handle ∧ (setPos stage2 c p t).grains = t.grains ∧ (setPos stage2 c p t).spill = t.spill
      ∧ (setPos stage2 c p t).sent = t.sent := by
  cases stage2 <;> exact ⟨rfl, rfl, rfl, rfl⟩

theorem posOf_setPos (stage2 : Bool) (c : Nat) {p : Pos} (t : TileRec) (hp : p ≠ {}) : posOf (setPos stage2 c p t) stage2 c = p := by
  cases stage2 <;> exact tblGet_tblSet_of_ne {} _ c p hp

/-- A contributor marked in an arrival map is in it. -/
theorem marked_ne_zero (m : BitVec 128) {j : Nat} (hj : j < 128) : m ||| (1#128 <<< j) ≠ 0 := by
  intro hzero
  have hbit := congrArg (BitVec.getLsbD · j) hzero
  simp [hj] at hbit

/-! ### A cell at its slice -/

/-- Only the Hawk and the counts differ. -/
def HawkOnly (s t : State) : Prop := ∃ h c, t = { s with hawk := h, counts := c }

theorem HawkOnly.trans {s t u : State} (h : HawkOnly s t) (k : HawkOnly t u) : HawkOnly s u := by
  obtain ⟨_, _, rfl⟩ := h
  obtain ⟨_, _, rfl⟩ := k
  exact ⟨_, _, rfl⟩

theorem HawkOnly.eq {s t : State} (h : HawkOnly s t) : t = { s with hawk := t.hawk, counts := t.counts } := by
  obtain ⟨_, _, rfl⟩ := h
  rfl

theorem modTile_hawk (f : TileRec → TileRec) : HawkOnly s (modTile g q tile f s) := by
  obtain ⟨grp, hmod⟩ := modTile_groups (s := s) (g := g) (q := q) (tile := tile) f
  exact ⟨_, _, hmod⟩

/-- A position with a contributor's arrival marked. -/
def posMarked (j : Nat) (p : Pos) : Pos := { p with map := p.map ||| (1#128 <<< j) }

/-- A position with a cell added. -/
def posAdded (o : CollOp) (stage2 : Bool) (bs : List Byte) (p : Pos) : Pos :=
  { p with acc := combineAcc o.tmpl.arith o.tmpl.inSpec.fmt o.tmpl.outSpec.rnd p.acc (cellAcc o stage2 bs), next := p.next + 1 }

/-- A position with a cell kept for its turn, in hold room or spilled. -/
def posKept (j : Nat) (bs : List Byte) (p : Pos) : Pos :=
  { p with hold := if p.hold.length < 8 then p.hold ++ [(j, bs)] else p.hold,
           spill := if p.hold.length < 8 then p.spill else p.spill ++ [(j, bs)] }

theorem posMarked_ne (p : Pos) {j : Nat} (hj : j < 128) : posMarked j p ≠ {} := fun h => marked_ne_zero p.map hj (congrArg Pos.map h)

theorem posAdded_ne (stage2 : Bool) (bs : List Byte) (p : Pos) : posAdded o stage2 bs p ≠ {} :=
  fun h => Nat.succ_ne_zero _ (congrArg Pos.next h)

theorem posKept_ne {j : Nat} {p : Pos} (bs : List Byte) (hp : p.map ≠ 0) : posKept j bs p ≠ {} := fun h => hp (congrArg Pos.map h)

/-- A slice's adder serves a cell: the addition is counted, and the slot noted. -/
def adderServes (o : CollOp) (m : PortId) (s : State) : State :=
  let u := match addWord o.tmpl.arith with
    | some w => bump hawkPage w 1 s
    | none => s
  { u with hawk.addedAt := tblSet 0 u.hawk.addedAt m.val (u.tick.ns + 1) }

theorem adderServes_hawk (o : CollOp) (m : PortId) : HawkOnly s (adderServes o m s) ∧ (adderServes o m s).hawk.group = s.hawk.group := by
  unfold adderServes
  split <;> exact ⟨⟨_, _, rfl⟩, rfl⟩

theorem addedNow_adderServes (o : CollOp) (m : PortId) : addedNow (adderServes o m s) m = true := by
  unfold adderServes addedNow
  extract_lets u
  exact decide_eq_true (tblGet_tblSet_of_ne 0 _ _ _ (Nat.succ_ne_zero _))

theorem addCell_eq (stage2 : Bool) (c : Nat) (bs : List Byte) : addCell o g q stage2 tile c bs s
    = modTile g q tile (fun t => setPos stage2 c (posAdded o stage2 bs (posOf t stage2 c)) t)
        (adderServes o (addSlice o g q stage2 tile c) s) := rfl

/-- The state once a cell that reached its slice is counted and its contributor marked. -/
def cellMarked (o : CollOp) (r : TileRec) (g : Fin 1024) (q : Fin 16) (stage2 : Bool) (tile c j : Nat) (bs : List Byte) (s : State) :
    State :=
  modTile g q tile (setPos stage2 c (posMarked j (posOf r stage2 c)))
    (if !stage2 && decide (o.tmpl.kind < 2) then bump hawkPage 11 (nanCount o.tmpl.inSpec.fmt bs) s else s)

section
variable {stage2 : Bool} {c j : Nat} {bs : List Byte}

/-- The tile and the operation once a contributor is marked. -/
theorem cellMarked_holds (ho : opOf s g q = some o) (hr : tileOf s g q tile = some r) :
    let v := cellMarked o r g q stage2 tile c j bs s
    HawkOnly s v ∧ (∃ o', opOf v g q = some o' ∧ o'.tmpl = o.tmpl ∧ o'.entry = o.entry)
      ∧ tileOf v g q tile = some (setPos stage2 c (posMarked j (posOf r stage2 c)) r) := by
  intro v
  obtain ⟨u, hu⟩ : ∃ u, u = if !stage2 && decide (o.tmpl.kind < 2) then bump hawkPage 11 (nanCount o.tmpl.inSpec.fmt bs) s else s :=
    ⟨_, rfl⟩
  have hkept : HawkOnly s u ∧ u.hawk = s.hawk := by
    rw [hu]
    split <;> exact ⟨⟨_, _, rfl⟩, rfl⟩
  have hv : v = modTile g q tile (setPos stage2 c (posMarked j (posOf r stage2 c))) u := hu ▸ rfl
  have ho' : opOf u g q = some o := by rw [opOf, groupOf, hkept.2]; exact ho
  have hr' : tileOf u g q tile = some r := by rw [tileOf, ho']; rw [tileOf, ho] at hr; exact hr
  rw [hv]
  exact ⟨hkept.1.trans (modTile_hawk _), ⟨_, opOf_modTile _ ho', rfl, rfl⟩, tileOf_modTile (setPos_tile stage2 c _) ho' hr'⟩

/-- A position that still waits for a contributor is not finished. -/
theorem finishPos_waits (n : Nat) {p : Pos} (ho : opOf s g q = some o) (hr : tileOf s g q tile = some r) (hp : posOf r stage2 c = p)
    (hnext : p.next ≠ contributors o stage2 tile) : finishPos g q tile n stage2 c s = s := by
  cases n with
  | zero => rw [finishPos]
  | succ n =>
    rw [finishPos]
    simp only [ho, hr, hp, posFull, decide_eq_false hnext, Bool.and_false, Bool.not_false, if_true]

/-- A cell added at a position that goes on waiting. -/
theorem addCell_waits (n : Nat) {o' : CollOp} (ho : opOf s g q = some o') (htmpl : o'.tmpl = o.tmpl) (hentry : o'.entry = o.entry)
    (hr : tileOf s g q tile = some r) (hnext : (posOf r stage2 c).next + 1 ≠ contributors o stage2 tile) :
    let t := finishPos g q tile n stage2 c (addCell o g q stage2 tile c bs s)
    HawkOnly s t ∧ addedNow t (addSlice o g q stage2 tile c) = true
      ∧ tileOf t g q tile = some (setPos stage2 c (posAdded o stage2 bs (posOf r stage2 c)) r) := by
  intro t
  obtain ⟨u, hu⟩ : ∃ u, u = adderServes o (addSlice o g q stage2 tile c) s := ⟨_, rfl⟩
  have hadder : HawkOnly s u ∧ u.hawk.group = s.hawk.group := hu ▸ adderServes_hawk o _
  have hserved : addedNow u (addSlice o g q stage2 tile c) = true := hu ▸ addedNow_adderServes o _
  have ho' : opOf u g q = some o' := by rw [opOf, groupOf, hadder.2]; exact ho
  have hr' : tileOf u g q tile = some r := by rw [tileOf, ho']; rw [tileOf, ho] at hr; exact hr
  have hop := opOf_modTile (tile := tile) (fun t => setPos stage2 c (posAdded o stage2 bs (posOf t stage2 c)) t) ho'
  have htile := tileOf_modTile (f := fun t => setPos stage2 c (posAdded o stage2 bs (posOf t stage2 c)) t)
    (fun t => setPos_tile stage2 c _ t) ho' hr'
  have hcontr : contributors (withTile tile (fun t => setPos stage2 c (posAdded o stage2 bs (posOf t stage2 c)) t) o') stage2 tile
      = contributors o stage2 tile := by
    simp only [contributors, withTile, htmpl, hentry]
  have ht : t = addCell o g q stage2 tile c bs s := by
    unfold t
    rw [addCell_eq, ← hu]
    exact finishPos_waits n hop htile (posOf_setPos stage2 c r (posAdded_ne stage2 bs _)) (hcontr.symm ▸ hnext)
  rw [ht, addCell_eq, ← hu]
  obtain ⟨grp, hmod⟩ := modTile_groups (s := u) (g := g) (q := q) (tile := tile)
    (fun t => setPos stage2 c (posAdded o stage2 bs (posOf t stage2 c)) t)
  refine ⟨hadder.1.trans (modTile_hawk _), ?_, htile⟩
  rw [hmod]
  exact hserved

/-- A cell whose turn has not come is kept at its position. -/
theorem keepCell_holds (ho : opOf s g q = some o) (hr : tileOf s g q tile = some r) :
    let t := keepCell g q stage2 tile c j bs s
    HawkOnly s t ∧ tileOf t g q tile = some (setPos stage2 c (posKept j bs (posOf r stage2 c)) r) := by
  by_cases hroom : (posOf r stage2 c).hold.length < 8
  · have hkeep : keepCell g q stage2 tile c j bs s
        = bump hawkPage 3 1 (modTile g q tile (setPos stage2 c (posKept j bs (posOf r stage2 c))) s) := by
      simp only [keepCell, hr, posKept, if_pos hroom]
    rw [hkeep]
    exact ⟨(modTile_hawk _).trans ⟨_, _, rfl⟩, tileOf_modTile (setPos_tile stage2 c _) ho hr⟩
  · have hkeep : keepCell g q stage2 tile c j bs s
        = bump hawkPage 4 1 (modTile g q tile (setPos stage2 c (posKept j bs (posOf r stage2 c)))
            { s with hawk.movedOut := s.hawk.movedOut + 1 }) := by
      simp only [keepCell, hr, posKept, if_neg hroom]
    have hmoved : HawkOnly s { s with hawk.movedOut := s.hawk.movedOut + 1 } := ⟨_, _, rfl⟩
    rw [hkeep]
    exact ⟨hmoved.trans ((modTile_hawk _).trans ⟨_, _, rfl⟩),
      tileOf_modTile (s := { s with hawk.movedOut := s.hawk.movedOut + 1 }) (setPos_tile stage2 c _) ho hr⟩

/-- A contributor's first cell is added where its turn has come or order is no matter, and else kept. -/
theorem slicesCell_first (ho : opOf s g q = some o) (hr : tileOf s g q tile = some r) (hmap : bit (posOf r stage2 c).map j = false)
    (hdone : (posOf r stage2 c).done = false) :
    slicesCell g q stage2 tile c j bs s
      = if o.tmpl.arith ≠ .ordered ∨ (posOf r stage2 c).next = j then
          finishPos g q tile 2 stage2 c (addCell o g q stage2 tile c bs (cellMarked o r g q stage2 tile c j bs s))
        else keepCell g q stage2 tile c j bs (cellMarked o r g q stage2 tile c j bs s) := by
  have hfirst : (bit (posOf r stage2 c).map j || (posOf r stage2 c).done) = false := by rw [hmap, hdone]; rfl
  simp only [slicesCell, ho, hr, hfirst, Bool.false_eq_true, if_false, Bool.or_eq_true, decide_eq_true_eq]
  rfl

theorem slicesCell_second (ho : opOf s g q = some o) (hr : tileOf s g q tile = some r)
    (hagain : bit (posOf r stage2 c).map j = true ∨ (posOf r stage2 c).done = true) :
    slicesCell g q stage2 tile c j bs s = raiseEv 0x61 g.val (c + j <<< 12 + r.handle <<< 20) o.gen (bump hawkPage 10 1 s) := by
  have htwice : (bit (posOf r stage2 c).map j || (posOf r stage2 c).done) = true := by simpa using hagain
  simp only [slicesCell, ho, hr, htwice, if_true]

/-- A cell of the bound operation whose slice is free reaches its position. -/
theorem hawkCell_serves {errs : List PortId} {a : Contrib} {x : Cell} (hadm : x.adm = some a) (hgood : x.bad = false)
    (ho : opOf s a.g a.q = some o) (hseq : o.s = a.s) (hr : tileOf s a.g a.q a.tile = some r) (harith : o.tmpl.arith ≠ .ordered)
    (hmap : bit (posOf r a.stage2 (a.c0 + x.idx)).map a.idx = false) (hdone : (posOf r a.stage2 (a.c0 + x.idx)).done = false) :
    let m := addSlice o a.g a.q a.stage2 a.tile (a.c0 + x.idx)
    (addedNow s m = true → hawkCell errs x s = none)
      ∧ (addedNow s m = false → m ∉ errs →
        hawkCell errs x s = some (slicesCell a.g a.q a.stage2 a.tile (a.c0 + x.idx) a.idx x.data
          (bump (groupPage a.g.val) 2 x.data.length s))) := by
  intro m
  constructor
  · intro hadded
    simp [hawkCell, hadm, ho, hseq, hgood, hr, hmap, hdone, harith, hadded, m]
  · intro hfree herr
    simp only [hawkCell, hadm, ho, hseq, hgood, hr, hmap, hdone]
    simp [harith, hfree, herr, m]

end

end

/-- Settles O22: the packet's rows by what it is of, and the cell's by whether it is its contributor's first and its turn has come. -/
theorem contributionIsAdded : Obligations.ContributionIsAdded := by
  unfold Obligations.ContributionIsAdded
  refine ⟨?_, ?_, ?_, ?_⟩
  · intro s i p o w hop hin ho htag hw hstranger hcheck kept u
    have hbound : OfBoundOp s i p o w := ⟨hin, ho, htag, hw, hcheck⟩
    refine ⟨?_, ?_, ?_, ?_, ?_⟩
    · intro hkind hok
      exact congrArg Host.Outcome.next ((takeContrib_tile hop hbound hstranger hkind).trans (takeTile_refused hok))
    · intro hkind hok hown
      exact congrArg Host.Outcome.next ((takeContrib_tile hop hbound hstranger hkind).trans (takeTile_stands hok hown))
    · rintro j rfl hmin hkind hok hgood
      exact congrArg Host.Outcome.next ((takeContrib_tile hop hbound hstranger hkind).trans (takeTile_shared hok hmin hgood))
    · intro hkind
      refine congrArg Host.Outcome.next ((withOp_accepted hop hbound hstranger _).trans ?_)
      simp only [hkind]
    · rintro j rfl hkind
      refine congrArg Host.Outcome.next ((withOp_accepted hop hbound hstranger _).trans ?_)
      simp only [hkind]
  · intro s i p hin hnone hlast hcheck
    refine ⟨fun hw => ⟨?_, ?_, ?_⟩, ?_⟩
    · exact fun hop => congrArg Host.Outcome.next (withOp_waits hop hin hnone hlast hcheck hw _)
    · exact fun hop => congrArg Host.Outcome.next (withOp_waits hop hin hnone hlast hcheck hw _)
    · exact fun hop => congrArg Host.Outcome.next (withOp_waits hop hin hnone hlast hcheck hw _)
    · exact fun hw hop => congrArg Host.Outcome.next (withOp_stranger hop hin hnone hcheck hw _)
  · intro s a x errs o r hadm hgood ho hseq hr harith hmap hdone
    exact hawkCell_serves hadm hgood ho hseq hr harith hmap hdone
  · intro s g q o r tile c j stage2 bs ho hr hj p
    refine ⟨?_, slicesCell_second ho hr, ?_⟩
    · intro hmap hdone harith hnext
      rw [slicesCell_first ho hr hmap hdone, if_pos (.inl harith)]
      obtain ⟨hkept, ⟨o', ho', htmpl, hentry⟩, htile⟩ := cellMarked_holds (stage2 := stage2) (c := c) (j := j) (bs := bs) ho hr
      have hpos := posOf_setPos stage2 c r (posMarked_ne p hj)
      obtain ⟨hadd, hserved, htile'⟩ := addCell_waits (bs := bs) 2 ho' htmpl hentry htile (by rw [hpos]; exact hnext)
      rw [hpos] at htile'
      obtain ⟨hhandle, hgrains, hspill, hsent⟩ :=
        setPos_keeps stage2 c (posAdded o stage2 bs (posMarked j p)) (setPos stage2 c (posMarked j p) r)
      obtain ⟨hhandle', hgrains', hspill', hsent'⟩ := setPos_keeps stage2 c (posMarked j p) r
      exact ⟨⟨_, htile', posOf_setPos stage2 c _ (posAdded_ne stage2 bs _), hhandle.trans hhandle', hgrains.trans hgrains',
        hspill.trans hspill', hsent.trans hsent'⟩, hserved, (hkept.trans hadd).eq⟩
    · intro hmap hdone harith hnext
      rw [slicesCell_first ho hr hmap hdone, if_neg (not_or.2 ⟨not_not_intro harith, hnext⟩)]
      obtain ⟨hkept, ⟨o', ho', -, -⟩, htile⟩ := cellMarked_holds (stage2 := stage2) (c := c) (j := j) (bs := bs) ho hr
      have hpos := posOf_setPos stage2 c r (posMarked_ne p hj)
      obtain ⟨hkeep, htile'⟩ := keepCell_holds (stage2 := stage2) (c := c) (j := j) (bs := bs) ho' htile
      rw [hpos] at htile'
      have hread := posOf_setPos stage2 c (setPos stage2 c (posMarked j p) r)
        (posKept_ne (j := j) (p := posMarked j p) bs (marked_ne_zero p.map hj))
      refine ⟨⟨_, htile', ?_⟩, (hkept.trans hkeep).eq⟩
      rw [hread]
      exact ⟨rfl, rfl, rfl, rfl⟩

end Machine
end Sys2Proof
end
section
/-!
PROOF. Landing credits and the descriptors of the weight streams (O28; R496, R497, R499 to R502, R506, R507).
-/
namespace Sys2Proof
namespace Machine
set_option Elab.async false

/-! ### A stream in its table -/

section
variable {s : State} {k : Fin 64} {f : Stream → Stream}

theorem streamOf'_modStream (h : tblWf {} s.streams.s = true ∨ f (streamOf' s k) ≠ {}) :
    streamOf' (modStream k f s) k = f (streamOf' s k) := tblGet_tblSet_of h _

theorem streamOf'_modStream_ne {j : Fin 64} (h : j ≠ k) : streamOf' (modStream k f s) j = streamOf' s j :=
  tblGet_tblMod_ne f (fun hval => h (Fin.ext hval))

theorem streamsWf_modStream (h : tblWf {} s.streams.s = true) : tblWf {} (modStream k f s).streams.s = true := tblWf_tblMod _ _ _ _ h

end

/-! ### Landing credits (R506, R507) -/

section
variable {s : State} {l : LinkId} {p : Packet} {k : Fin 64}

/-- A packet that leaves a link's input raises no event. -/
theorem leaveInput_link_sideband : (leaveInput (linkPort l) p s).counts.sideband = s.counts.sideband := by
  unfold leaveInput
  split
  · unfold freeUnits
    extract_lets u
    have hlink : portLink (linkPort l) = some l := by simp [portLink, linkPort]
    rw [hlink]
    simp only
    split <;> rfl
  · rfl

/-- What R507 asks of a credit does not depend on the input that the packet leaves. -/
theorem creditFault_leaveInput : creditFault (leaveInput (linkPort l) p s) l k p = creditFault s l k p := by
  obtain ⟨_, _, _, _, hleft⟩ := leaveInput_input (linkPort l) p s
  rw [hleft]
  rfl

theorem leaveInput_streams : (leaveInput (linkPort l) p s).streams = s.streams := by
  obtain ⟨_, _, _, _, hleft⟩ := leaveInput_input (linkPort l) p s
  rw [hleft]

/-- The grant of a LANDING_CREDIT. -/
def creditGrant (l : LinkId) (p : Packet) : Grant :=
  ⟨l.val, fld p.tag 6 4, BitVec.ofNat 64 (p.addr.toNat / 65536 * 65536), fld p.addr 0 16⟩

/-- The stream with a grant. -/
def grantAdded (l : LinkId) (p : Packet) (x : Stream) : Stream :=
  { x with grants := x.grants ++ [creditGrant l p], balance := tblMod 0 x.balance l.val (· + 1) }

/-- The packet is a LANDING_CREDIT of stream `k` that its input takes. -/
structure Credit (s : State) (l : LinkId) (p : Packet) (k : Fin 64) : Prop where
  op : p.opcode = 0x38
  front : mayTakeIn s (linkPort l) p = true
  stream : fld p.tag 0 6 = k.val

theorem landingCredit_eq (h : Credit s l p k) : landingCredit l p s =
    let u := leaveInput (linkPort l) p s
    match creditFault u l k p with
    | some c => raiseEv 0x62 k.val (l.val + fld p.tag 6 4 <<< 7 + c <<< 11) (fnGen u (.stream k)) (bump (streamPage k.val) 10 1 u)
    | none => bump (streamPage k.val) 7 1 (modStream k (grantAdded l p) u) := by
  obtain ⟨hop, hfront, hstream⟩ := h
  have hk : (⟨fld p.tag 0 6, Nat.mod_lt _ (by decide)⟩ : Fin 64) = k := Fin.ext hstream
  rw [landingCredit, hk, if_neg (not_not_intro hop), hfront]
  rfl

theorem landingCredit_takes (h : Credit s l p k) (hok : creditFault (leaveInput (linkPort l) p s) l k p = none) :
    landingCredit l p s = bump (streamPage k.val) 7 1 (modStream k (grantAdded l p) (leaveInput (linkPort l) p s)) := by
  rw [landingCredit_eq h]
  simp only [hok]

theorem landingCredit_refuses (h : Credit s l p k) {c : Nat} (hbad : creditFault (leaveInput (linkPort l) p s) l k p = some c) :
    landingCredit l p s = raiseEv 0x62 k.val (l.val + fld p.tag 6 4 <<< 7 + c <<< 11) (fnGen s (.stream k))
      (bump (streamPage k.val) 10 1 (leaveInput (linkPort l) p s)) := by
  have hgen : fnGen (leaveInput (linkPort l) p s) (.stream k) = fnGen s (.stream k) := by
    obtain ⟨_, _, _, _, hleft⟩ := leaveInput_input (linkPort l) p s
    rw [hleft]
    rfl
  rw [landingCredit_eq h]
  simp only [hbad, hgen]

/-- A credit taken adds its grant to its stream alone. -/
theorem landingCredit_adds (hwf : tblWf {} s.streams.s = true) :
    let t := bump (streamPage k.val) 7 1 (modStream k (grantAdded l p) (leaveInput (linkPort l) p s))
    (streamOf' t k).grants = (streamOf' s k).grants ++ [creditGrant l p]
      ∧ tblGet 0 (streamOf' t k).balance l.val = tblGet 0 (streamOf' s k).balance l.val + 1
      ∧ (∀ j, j ≠ k → streamOf' t j = streamOf' s j) ∧ t.larder = s.larder := by
  obtain ⟨_, _, _, _, hleft⟩ := leaveInput_input (linkPort l) p s
  rw [hleft]
  have hself := streamOf'_modStream (k := k) (f := grantAdded l p) (.inl hwf)
  refine ⟨congrArg Stream.grants hself, ?_, fun j hj => streamOf'_modStream_ne (s := s) hj, rfl⟩
  refine (congrArg (fun x => tblGet 0 x.balance l.val) hself).trans ?_
  exact tblGet_tblSet_of_ne 0 _ _ _ (Nat.succ_ne_zero _)

/-- A credit refused is counted and reported, and no stream changes. -/
theorem landingCredit_reports (d : Nat) (g : BitVec 16) :
    let t := raiseEv 0x62 k.val d g (bump (streamPage k.val) 10 1 (leaveInput (linkPort l) p s))
    t.streams = s.streams ∧ ∃ e, t.counts.sideband = s.counts.sideband ++ [e] ∧ e.code = 0x62 ∧ e.unit = BitVec.ofNat 16 k.val := by
  intro t
  obtain ⟨_, _, _, ht⟩ := raiseEv_host 0x62 k.val d g (bump (streamPage k.val) 10 1 (leaveInput (linkPort l) p s))
  refine ⟨?_, _, (raiseEv_sideband ..).trans (congrArg (· ++ _) leaveInput_link_sideband), rfl, rfl⟩
  unfold t
  rw [ht]
  exact leaveInput_streams

end

/-! ### The stream descriptors (R496, R497, R499 to R502) -/

section
variable {s : State} {d : DRef} {f : InFlight} {k : Fin 64} {body : Fin 64 → State → State} {ten : Bool}

/-- A row that does not check the tenant runs once its generation is right. -/
theorem withStream_free (ht : streamTarget f = some k) (hg : dGen f.desc = fnGen s (.stream k)) :
    withStream d f true false (started d s) body = body k (startedAt d (.stream k) s) := by
  rw [withStream, ht]
  exact if_neg (genOk_startedAt hg d)

theorem withStream_no_target (h : streamTarget f = none) : withStream d f true ten s body = complete d stBad 0 s := by
  rw [withStream, h]

theorem withStream_stale (h : streamTarget f = some k) (hgen : dGen f.desc ≠ fnGen s (.stream k)) :
    withStream d f true ten (started d s) body = complete d stStaleGen 0 (startedAt d (.stream k) s) := by
  have hstale : (true && !genOk (startedAt d (.stream k) s) f (.stream k)) = true := by
    simp [genOk, show fnGen (startedAt d (.stream k) s) (.stream k) = fnGen s (.stream k) from rfl, hgen]
  rw [withStream, h]
  exact if_pos hstale

theorem exec_streamProgram (h : Startable s d 0x30 f) (ht : streamTarget f = some k) (hg : dGen f.desc = fnGen s (.stream k)) :
    exec (.streamProgram d) s = .next (
      if fnSt s (.stream k) ≠ .off || !programOk f.desc then complete d stBad 0 (startedAt d (.stream k) s)
      else if 16384 < storedSegs s k + fld f.desc 256 16 then complete d stNoRoom 0 (startedAt d (.stream k) s)
      else hostRead (.obj d 0) (dWord f.desc 24) (64 * fld f.desc 256 16)
        (modFlight d (fun x => { x with waits := 1 }) (startedAt d (.stream k) s))) :=
  congrArg Host.Outcome.next ((withDesc_of_startable h _).trans (withStream_free ht hg))

theorem streamProgram_reads (h : Startable s d 0x30 f) (ht : streamTarget f = some k) (hg : dGen f.desc = fnGen s (.stream k))
    (hoff : fnSt s (.stream k) = .off) (hok : programOk f.desc = true) (hroom : storedSegs s k + fld f.desc 256 16 ≤ 16384) :
    exec (.streamProgram d) s = .next (hostRead (.obj d 0) (dWord f.desc 24) (64 * fld f.desc 256 16)
      (modFlight d (fun x => { x with waits := 1 }) (startedAt d (.stream k) s))) := by
  rw [exec_streamProgram h ht hg, if_neg (by simp [hoff, hok]), if_neg (Nat.not_lt.2 hroom)]

theorem streamProgram_bad (h : Startable s d 0x30 f) (ht : streamTarget f = some k) (hg : dGen f.desc = fnGen s (.stream k))
    (hbad : fnSt s (.stream k) ≠ .off ∨ programOk f.desc = false) :
    exec (.streamProgram d) s = .next (complete d stBad 0 (startedAt d (.stream k) s)) := by
  rw [exec_streamProgram h ht hg, if_pos (by simpa using hbad)]

theorem streamProgram_full (h : Startable s d 0x30 f) (ht : streamTarget f = some k) (hg : dGen f.desc = fnGen s (.stream k))
    (hoff : fnSt s (.stream k) = .off) (hok : programOk f.desc = true) (hfull : 16384 < storedSegs s k + fld f.desc 256 16) :
    exec (.streamProgram d) s = .next (complete d stNoRoom 0 (startedAt d (.stream k) s)) := by
  rw [exec_streamProgram h ht hg, if_neg (by simp [hoff, hok]), if_pos hfull]

/-- The descriptor, an opcode `op` that may start, names the stream; its generation and its tenant are right (R81, R497). -/
structure StreamDesc (s : State) (d : DRef) (op : BitVec 8) (f : InFlight) (k : Fin 64) : Prop where
  start : Startable s d op f
  target : streamTarget f = some k
  gen : dGen f.desc = fnGen s (.stream k)
  tenant : (streamOf' s k).tenant = some (dTenant s f)

theorem withDesc_withStream {op : BitVec 8} (h : StreamDesc s d op f k) (body : InFlight → Fin 64 → State → State) :
    withDesc d op s (fun f s => withStream d f true true s (body f)) = body f k (startedAt d (.stream k) s) := by
  rw [withDesc_of_startable h.start]
  exact withStream_eq h.target h.gen h.tenant d (body f)

theorem exec_streamStart (h : StreamDesc s d 0x33 f k) : exec (.streamStart d) s = .next (
    if (streamOf' s k).period ≠ 0 then complete d stBad 0 (startedAt d (.stream k) s)
    else match fnSt s (.stream k) with
      | .off => complete d stCancelled 0 (startedAt d (.stream k) s)
      | .stopping => complete d stCancelled 0 (startedAt d (.stream k) s)
      | _ => modStream k (fun x => { x with starts := x.starts ++ [(d, prepDue s)] })
          (modFlight d (fun x => { x with waits := 1 }) (startedAt d (.stream k) s))) :=
  congrArg Host.Outcome.next (withDesc_withStream h _)

theorem streamStart_waits (h : StreamDesc s d 0x33 f k) (hperiod : (streamOf' s k).period = 0)
    (hst : fnSt s (.stream k) = .on ∨ fnSt s (.stream k) = .starting) :
    exec (.streamStart d) s = .next (modStream k (fun x => { x with starts := x.starts ++ [(d, prepDue s)] })
      (modFlight d (fun x => { x with waits := 1 }) (startedAt d (.stream k) s))) := by
  rw [exec_streamStart h, if_neg (not_not_intro hperiod)]
  rcases hst with hst | hst <;> rw [hst]

theorem streamStart_cancelled (h : StreamDesc s d 0x33 f k) (hperiod : (streamOf' s k).period = 0)
    (hst : fnSt s (.stream k) = .off ∨ fnSt s (.stream k) = .stopping) :
    exec (.streamStart d) s = .next (complete d stCancelled 0 (startedAt d (.stream k) s)) := by
  rw [exec_streamStart h, if_neg (not_not_intro hperiod)]
  rcases hst with hst | hst <;> rw [hst]

theorem streamStart_bad (h : StreamDesc s d 0x33 f k) (hperiod : (streamOf' s k).period ≠ 0) :
    exec (.streamStart d) s = .next (complete d stBad 0 (startedAt d (.stream k) s)) := by
  rw [exec_streamStart h, if_pos hperiod]

theorem streamQuery_answers (h : StreamDesc s d 0x34 f k) :
    exec (.streamQuery d) s = .next (complete d stOk (streamQueryWord s k) (startedAt d (.stream k) s)) :=
  congrArg Host.Outcome.next (withDesc_withStream h fun _ k s => complete d stOk (streamQueryWord s k) s)

end

/-- The rows that run on a stream of a matching generation, with their opcodes. -/
def streamRows : List ((DRef → Instr) × BitVec 8) := [(.streamProgram, 0x30), (.streamStart, 0x33), (.streamQuery, 0x34)]

/-- Each of the rows makes its stream's checks first. -/
theorem exec_streamRow {e : (DRef → Instr) × BitVec 8} (he : e ∈ streamRows) {s : State} {d : DRef} {f : InFlight}
    (h : Startable s d e.2 f) : ∃ ten body, exec (e.1 d) s = .next (withStream d f true ten (started d s) body) := by
  simp only [streamRows, List.mem_cons, List.not_mem_nil, or_false] at he
  rcases he with rfl | rfl | rfl <;> exact ⟨_, _, congrArg Host.Outcome.next (withDesc_of_startable h _)⟩

/-- Settles O28: a credit by what R507 finds in it, and each descriptor by its checks. -/
theorem streamGrantsAndDescriptors : Obligations.StreamGrantsAndDescriptors := by
  unfold Obligations.StreamGrantsAndDescriptors
  refine ⟨?_, ?_, ?_, ?_, ?_, ?_, ?_⟩
  · intro s l p k hop hfront hk u gr
    have hcredit : Credit s l p k := ⟨hop, hfront, hk⟩
    refine ⟨fun hok => congrArg Host.Outcome.next (landingCredit_takes hcredit hok),
      fun c hbad => congrArg Host.Outcome.next (landingCredit_refuses hcredit hbad), creditFault_leaveInput, leaveInput_streams⟩
  · intro s l p k hop hfront hk hok hwf
    exact ⟨_, congrArg Host.Outcome.next (landingCredit_takes ⟨hop, hfront, hk⟩ (creditFault_leaveInput.trans hok)),
      landingCredit_adds hwf⟩
  · intro s l p k c hop hfront hk hbad
    exact ⟨_, congrArg Host.Outcome.next (landingCredit_refuses ⟨hop, hfront, hk⟩ (creditFault_leaveInput.trans hbad)),
      landingCredit_reports ..⟩
  · intro s d f k hstart ht hg u
    exact ⟨streamProgram_reads hstart ht hg, streamProgram_bad hstart ht hg, streamProgram_full hstart ht hg⟩
  · intro s d f k hstart ht hg hten u
    have hdesc : StreamDesc s d 0x33 f k := ⟨hstart, ht, hg, hten⟩
    exact ⟨streamStart_waits hdesc, streamStart_cancelled hdesc, streamStart_bad hdesc⟩
  · exact fun s d f k hstart ht hg hten => streamQuery_answers ⟨hstart, ht, hg, hten⟩
  · intro e he s d f hstart
    obtain ⟨ten, body, hexec⟩ := exec_streamRow he hstart
    rw [hexec]
    exact ⟨fun hnone => congrArg Host.Outcome.next (withStream_no_target hnone),
      fun k ht hgen => congrArg Host.Outcome.next (withStream_stale ht hgen)⟩

end Machine
end Sys2Proof
end
section
/-!
PROOF. A stream's passes begin at their starts and its segments at their grants (the first part of O29; R501, R503 to R505, R508).
-/
namespace Sys2Proof
namespace Machine
set_option Elab.async false

/-! ### What the streams' rows change -/

/-- Only the streams and the counts differ. -/
def StreamOnly (s t : State) : Prop := ∃ x c, t = { s with streams := x, counts := c }

theorem StreamOnly.trans {s t u : State} (h : StreamOnly s t) (k : StreamOnly t u) : StreamOnly s u := by
  obtain ⟨_, _, rfl⟩ := h
  obtain ⟨_, _, rfl⟩ := k
  exact ⟨_, _, rfl⟩

theorem StreamOnly.eq {s t : State} (h : StreamOnly s t) : t = { s with streams := t.streams, counts := t.counts } := by
  obtain ⟨_, _, rfl⟩ := h
  rfl

theorem modStream_only (k : Fin 64) (f : Stream → Stream) (s : State) : StreamOnly s (modStream k f s) := ⟨_, _, rfl⟩

/-! ### Passes (R501, R503) -/

/-- The stream with its next pass begun at `sp`. -/
def passAdded (sp : BitVec 48) (d : Option DRef) (x : Stream) : Stream :=
  { x with passes := x.passes ++ [{ num := x.nextPass, start := sp, d := d }], lastPass := x.nextPass, nextPass := x.nextPass + 1 }

/-- The next pass of a stream begins. -/
def passBegun (k : Fin 64) (sp : BitVec 48) (d : Option DRef) (s : State) : State :=
  let s := bump (streamPage k.val) 0 1 (modStream k (passAdded sp d) s)
  if later (nowTick s) sp then bump (streamPage k.val) 1 1 s else s

/-- The start of the pass that a descriptor asks for. -/
def startTick (s : State) (d : DRef) (due : BitVec 48) : BitVec 48 :=
  match flightOf s d with
  | some f => if dTimed f.desc then dApply f.desc else due + s.tick.offset
  | none => due + s.tick.offset

section
variable {s : State} {k : Fin 64}

theorem passStart_eq (k : Fin 64) (s : State) : passStart k s =
    if s.tick.slot ≠ 0 || fnSt s (.stream k) ≠ .on || !passesRead (streamOf' s k) then s
    else if (streamOf' s k).period ≠ 0 then
      (if later (nominalStart (streamOf' s k) (streamOf' s k).nextPass) (nowTick s) then s
        else passBegun k (nominalStart (streamOf' s k) (streamOf' s k).nextPass) none s)
    else match (streamOf' s k).starts with
      | (d, due) :: t => if workDue s d due then
          passBegun k (startTick s d due) (some d) (modStream k (fun x => { x with starts := t }) s) else s
      | [] => s := rfl

/-- The stream may begin a pass at this boundary. -/
theorem passStart_ready (hslot : s.tick.slot = 0) (hon : fnSt s (.stream k) = .on) (hread : passesRead (streamOf' s k) = true) :
    ¬(decide (s.tick.slot ≠ 0) || decide (fnSt s (.stream k) ≠ .on) || !passesRead (streamOf' s k)) = true := by
  simp [hslot, hon, hread]

theorem passBegun_only (k : Fin 64) (sp d) (s : State) : StreamOnly s (passBegun k sp d s) := by
  unfold passBegun
  extract_lets t
  split
  · exact ⟨_, _, rfl⟩
  · exact ⟨_, _, rfl⟩

theorem passBegun_streams (k : Fin 64) (sp d) (s : State) : (passBegun k sp d s).streams = (modStream k (passAdded sp d) s).streams := by
  unfold passBegun
  extract_lets t
  split <;> rfl

theorem streamOf'_passBegun (sp d) : streamOf' (passBegun k sp d s) k = passAdded sp d (streamOf' s k) := by
  rw [streamOf', passBegun_streams]
  refine streamOf'_modStream (.inr fun hdefault => ?_)
  have hpasses := congrArg Stream.passes hdefault
  simp [passAdded] at hpasses

theorem streamOf'_passBegun_ne {j : Fin 64} (hj : j ≠ k) (sp d) : streamOf' (passBegun k sp d s) j = streamOf' s j := by
  rw [streamOf', passBegun_streams]
  exact streamOf'_modStream_ne hj

theorem passStart_starts {d : DRef} {due : BitVec 48} {rest : List (DRef × BitVec 48)} (hslot : s.tick.slot = 0)
    (hon : fnSt s (.stream k) = .on) (hread : passesRead (streamOf' s k) = true) (hperiod : (streamOf' s k).period = 0)
    (hstarts : (streamOf' s k).starts = (d, due) :: rest) (hdue : workDue s d due = true) :
    passStart k s = passBegun k (startTick s d due) (some d) (modStream k (fun x => { x with starts := rest }) s) := by
  rw [passStart_eq, if_neg (passStart_ready hslot hon hread), if_neg (not_not_intro hperiod)]
  simp only [hstarts, hdue, if_true]

theorem passStart_period (hslot : s.tick.slot = 0) (hon : fnSt s (.stream k) = .on) (hread : passesRead (streamOf' s k) = true)
    (hperiod : (streamOf' s k).period ≠ 0) : passStart k s
      = if later (nominalStart (streamOf' s k) (streamOf' s k).nextPass) (nowTick s) then s
        else passBegun k (nominalStart (streamOf' s k) (streamOf' s k).nextPass) none s := by
  rw [passStart_eq, if_neg (passStart_ready hslot hon hread), if_pos hperiod]

theorem passStart_none (h : s.tick.slot ≠ 0 ∨ fnSt s (.stream k) ≠ .on ∨ passesRead (streamOf' s k) = false
    ∨ ((streamOf' s k).period = 0 ∧ ∀ x ∈ (streamOf' s k).starts, workDue s x.1 x.2 = false)) : passStart k s = s := by
  rw [passStart_eq]
  by_cases hready : (decide (s.tick.slot ≠ 0) || decide (fnSt s (.stream k) ≠ .on) || !passesRead (streamOf' s k)) = true
  · rw [if_pos hready]
  · rw [if_neg hready]
    simp only [ne_eq, Bool.or_eq_true, decide_eq_true_eq, Bool.not_eq_eq_eq_not, Bool.not_true, not_or, Bool.not_eq_false] at hready
    obtain ⟨⟨hslot, hon⟩, hread⟩ := hready
    obtain h | h | h | ⟨hperiod, hnone⟩ := h
    · exact absurd h hslot
    · exact absurd h hon
    · rw [h] at hread
      cases hread
    · rw [if_neg (not_not_intro hperiod)]
      split
      next d due t hstarts => simp [hnone (d, due) (by simp [hstarts])]
      next => rfl

/-! ### Segments (R503 to R505, R508) -/

/-- The next pass with a segment that has not started. -/
def openPass (s : State) (k : Fin 64) : Option Pass :=
  (streamOf' s k).passes.find? (fun p => decide (p.next < (streamOf' s k).program.length))

/-- Every member of a segment's group holds a grant for its slot. -/
def grantsReady (s : State) (k : Fin 64) (g : Segment) : Bool :=
  (segMembers s g).all (fun o => (streamOf' s k).grants.any (fun r => r.port = o.val && r.slot = g.slot))

theorem segmentStart_eq (k : Fin 64) (s : State) : segmentStart k s =
    match openPass s k with
    | none => s
    | some p =>
      if decide (s.tick.slot ≠ 0) || decide (fnSt s (.stream k) ≠ .on) || !allRead (streamOf' s k) then s
      else if s.attic.draining then skipSeg k p.num p.next stDrained s
      else if grantsReady s k (segOf s k p.next) || !segAllowed s k (segOf s k p.next) || deadlinePast s p.start (segOf s k p.next) then
        startSeg k p (segOf s k p.next) s
      else s := rfl

theorem segmentStart_open {p : Pass} (hp : openPass s k = some p) (hslot : s.tick.slot = 0) (hon : fnSt s (.stream k) = .on)
    (hread : allRead (streamOf' s k) = true) : segmentStart k s =
    if s.attic.draining then skipSeg k p.num p.next stDrained s
    else if grantsReady s k (segOf s k p.next) || !segAllowed s k (segOf s k p.next) || deadlinePast s p.start (segOf s k p.next) then
      startSeg k p (segOf s k p.next) s
    else s := by
  rw [segmentStart_eq, hp]
  exact if_neg (by simp [hslot, hon, hread])

theorem segmentStart_none (h : (streamOf' s k).passes = [] ∨ s.tick.slot ≠ 0 ∨ allRead (streamOf' s k) = false) :
    segmentStart k s = s := by
  rw [segmentStart_eq]
  cases hp : openPass s k with
  | none => rfl
  | some p =>
    refine if_pos ?_
    obtain h | h | h := h
    · rw [openPass, h] at hp
      cases hp
    · simp [h]
    · simp [h]

/-! ### The start of a segment whose members all hold their grants -/

/-- The share with which a member begins, and its first status. -/
def startShares (s : State) (k : Fin 64) (g : Segment) : List (Share × BitVec 8) :=
  (segMembers s g).map (firstShare (streamOf' s k) g (segAllowed s k g))

/-- The grants that the members consume. -/
def startGrants (s : State) (k : Fin 64) (g : Segment) : List Grant := (startShares s k g).filterMap (fun f => f.1.grant)

/-- The run with which a segment of pass `p` starts. -/
def startRun (s : State) (k : Fin 64) (p : Pass) (g : Segment) : SegRun :=
  { pass := p.num, seg := p.next, start := p.start, coat := s.route.top.num, shares := (startShares s k g).map (·.1),
    chunks := chunkCount g, last := s.tick.elapsed, next := if segAllowed s k g then 0 else chunkCount g }

/-- The stream once its segment has started. -/
def segStarted (s : State) (k : Fin 64) (p : Pass) (g : Segment) (x : Stream) : Stream :=
  { x with
    grants := x.grants.filter (fun gr => !(startGrants s k g).contains gr)
    balance := (startGrants s k g).foldl (fun t gr => tblMod 0 t gr.port (· - 1)) x.balance
    passes := x.passes.map (fun q => if q.num = p.num then { q with next := q.next + 1 } else q)
    segs := x.segs ++ [startRun s k p g]
    allowance := paced s.streams.phi g - (fullAllowance s.streams.phi (streamOf' s k) - (streamOf' s k).allowance) }

theorem startSeg_eq (k : Fin 64) (p : Pass) (g : Segment) (s : State) : startSeg k p g s =
    settleSeg k p.num p.next (((startShares s k g).filter (fun f => f.2 ≠ stOk)).foldl (fun s f => endShare k p.num p.next f.1.out f.2 s)
      (bump (streamPage k.val) 8 (startGrants s k g).length (bump (streamPage k.val) 2 1 (modStream k (segStarted s k p g) s)))) := rfl

/-- A member that holds a grant large enough begins with it, and with no end. -/
theorem firstShare_holds {x : Stream} {g : Segment} {o : PortId} (hgrant : ∃ r ∈ x.grants, r.port = o.val ∧ r.slot = g.slot)
    (hroom : ∀ r ∈ x.grants, r.slot = g.slot → g.tgtLen + 8 ≤ r.size * 65536) :
    ∃ r ∈ x.grants, firstShare x g true o = ({ out := o, grant := some r }, stOk) := by
  obtain ⟨r, hr, hport, hslot⟩ := hgrant
  obtain ⟨r', hfind⟩ : ∃ r', x.grants.find? (fun r => r.port = o.val && r.slot = g.slot) = some r' :=
    Option.isSome_iff_exists.mp (List.find?_isSome.mpr ⟨r, hr, by simp [hport, hslot]⟩)
  have hmem := List.mem_of_find?_eq_some hfind
  have hprop := List.find?_some hfind
  simp only [Bool.and_eq_true, decide_eq_true_eq] at hprop
  refine ⟨r', hmem, ?_⟩
  have hsize := hroom r' hmem hprop.2
  simp only [firstShare, hfind]
  rw [if_neg (by simp), if_neg (by omega)]

/-- A run that the stream did not hold is found once it has started. -/
theorem runAt_started {p : Pass} {g : Segment} (hnew : runAt s k p.num p.next = none) :
    runAt (modStream k (segStarted s k p g) s) k p.num p.next = some (startRun s k p g)
      ∧ streamOf' (modStream k (segStarted s k p g) s) k = segStarted s k p g (streamOf' s k) := by
  have hstream : streamOf' (modStream k (segStarted s k p g) s) k = segStarted s k p g (streamOf' s k) :=
    streamOf'_modStream (.inr fun hdefault => by
      have hsegs := congrArg Stream.segs hdefault
      simp [segStarted] at hsegs)
  refine ⟨?_, hstream⟩
  rw [runAt] at hnew ⊢
  rw [hstream, segStarted, List.find?_append, hnew]
  simp [startRun]

/-- A segment with an open share is not over. -/
theorem settleSeg_open {pass : BitVec 32} {seg : Nat} {r : SegRun} (hr : runAt s k pass seg = some r)
    (hopen : ∃ x ∈ r.shares, x.status = none) : settleSeg k pass seg s = s := by
  obtain ⟨x, hx, hstatus⟩ := hopen
  have hall : r.shares.all (fun x => x.status.isSome) = false := List.all_eq_false.mpr ⟨x, hx, by simp [hstatus]⟩
  simp [settleSeg, hr, hall]

/-- Where every member's grant holds the segment, no share ends at the start. -/
theorem startSeg_granted {p : Pass} {g : Segment} (hallowed : segAllowed s k g = true) (hmembers : segMembers s g ≠ [])
    (hnew : runAt s k p.num p.next = none)
    (hgrants : ∀ o ∈ segMembers s g, ∃ r ∈ (streamOf' s k).grants, r.port = o.val ∧ r.slot = g.slot)
    (hroom : ∀ r ∈ (streamOf' s k).grants, r.slot = g.slot → g.tgtLen + 8 ≤ r.size * 65536) :
    (∀ x ∈ (startRun s k p g).shares, x.status = none ∧ ∃ r, x.grant = some r ∧ r ∈ (streamOf' s k).grants)
      ∧ startSeg k p g s
        = bump (streamPage k.val) 8 (startGrants s k g).length (bump (streamPage k.val) 2 1 (modStream k (segStarted s k p g) s)) := by
  have hshare : ∀ f ∈ startShares s k g, f.2 = stOk ∧ f.1.status = none ∧ ∃ r, f.1.grant = some r ∧ r ∈ (streamOf' s k).grants := by
    intro f hf
    rw [startShares, hallowed] at hf
    obtain ⟨o, ho, rfl⟩ := List.mem_map.mp hf
    obtain ⟨r, hr, hfirst⟩ := firstShare_holds (hgrants o ho) hroom
    rw [hfirst]
    exact ⟨rfl, rfl, r, rfl, hr⟩
  have hshares : ∀ x ∈ (startRun s k p g).shares, x.status = none ∧ ∃ r, x.grant = some r ∧ r ∈ (streamOf' s k).grants := by
    intro x hx
    obtain ⟨f, hf, rfl⟩ := List.mem_map.mp hx
    exact (hshare f hf).2
  have hends : (startShares s k g).filter (fun f => f.2 ≠ stOk) = [] := List.filter_eq_nil_iff.mpr fun f hf => by simp [(hshare f hf).1]
  obtain ⟨hrun, -⟩ := runAt_started (s := s) (k := k) (p := p) (g := g) hnew
  refine ⟨hshares, ?_⟩
  rw [startSeg_eq, hends, List.foldl_nil]
  refine settleSeg_open (r := startRun s k p g) hrun ?_
  obtain ⟨o, ho⟩ := List.exists_mem_of_ne_nil _ hmembers
  have hx : (firstShare (streamOf' s k) g (segAllowed s k g) o).1 ∈ (startRun s k p g).shares :=
    List.mem_map_of_mem (List.mem_map_of_mem ho)
  exact ⟨_, hx, (hshares _ hx).1⟩

/-- The started segment has a share for each member, whose grant the stream has given up. -/
theorem startRun_holds {p : Pass} {g : Segment} (hallowed : segAllowed s k g = true) :
    (startRun s k p g).shares.map (·.out) = segMembers s g ∧ (startRun s k p g).next = 0
      ∧ ∀ x ∈ (startRun s k p g).shares, ∀ r, x.grant = some r → r ∉ (segStarted s k p g (streamOf' s k)).grants := by
  refine ⟨?_, by simp [startRun, hallowed], ?_⟩
  · simp only [startRun, startShares, List.map_map]
    exact List.map_id'' (fun _ => rfl) _
  · intro x hx r hr hmem
    obtain ⟨f, hf, rfl⟩ := List.mem_map.mp hx
    have hused : r ∈ startGrants s k g := List.mem_filterMap.mpr ⟨f, hf, hr⟩
    simp [segStarted, hused] at hmem

end

end Machine
end Sys2Proof
end
section
/-!
PROOF. Chunks are read within the tick's allowance, and segments end, close and are repaired (O29; R512, R513, R517 to R521).
-/
namespace Sys2Proof
namespace Machine
set_option Elab.async false

/-! ### Runs of a segment -/

section
variable {s : State} {k : Fin 64} {pass : BitVec 32} {seg : Nat} {r : SegRun}

/-- The stream with the runs of a segment of a pass changed. -/
def runsMapped (pass : BitVec 32) (seg : Nat) (f : SegRun → SegRun) (x : Stream) : Stream :=
  { x with segs := x.segs.map (fun r => if r.pass = pass && r.seg = seg then f r else r) }

theorem segs_ne_of_runAt (hr : runAt s k pass seg = some r) : (streamOf' s k).segs ≠ [] :=
  List.ne_nil_of_mem (List.mem_of_find?_eq_some hr)

theorem streamOf'_modRun {f : SegRun → SegRun} (hsegs : (streamOf' s k).segs ≠ []) :
    streamOf' (modRun k pass seg f s) k = runsMapped pass seg f (streamOf' s k) :=
  streamOf'_modStream (f := runsMapped pass seg f) (.inr fun hdefault => by
    have hnil := congrArg Stream.segs hdefault
    simp [runsMapped] at hnil
    exact hsegs hnil)

theorem find?_map_of_key {α : Type} {p : α → Bool} {f : α → α} (hf : ∀ x, p (f x) = p x) (l : List α) :
    (l.map (fun x => if p x then f x else x)).find? p = (l.find? p).map f := by
  induction l with
  | nil => rfl
  | cons x l ih =>
    by_cases hx : p x = true
    · rw [List.map_cons, if_pos hx, List.find?_cons_of_pos (by rw [hf]; exact hx), List.find?_cons_of_pos hx, Option.map_some]
    · rw [List.map_cons, if_neg hx, List.find?_cons_of_neg hx, List.find?_cons_of_neg hx, ih]

/-- The run of a segment after a change of it that keeps its pass and its segment. -/
theorem runAt_modRun {f : SegRun → SegRun} (hf : ∀ r, (f r).pass = r.pass ∧ (f r).seg = r.seg) (hr : runAt s k pass seg = some r) :
    runAt (modRun k pass seg f s) k pass seg = some (f r) := by
  have hkey : ∀ r : SegRun, (decide ((f r).pass = pass) && decide ((f r).seg = seg)) = (decide (r.pass = pass) && decide (r.seg = seg)) :=
    fun r => by rw [(hf r).1, (hf r).2]
  rw [runAt, streamOf'_modRun (segs_ne_of_runAt hr), runsMapped]
  refine (find?_map_of_key (p := fun r : SegRun => decide (r.pass = pass) && decide (r.seg = seg)) hkey _).trans ?_
  rw [show (streamOf' s k).segs.find? (fun r => r.pass = pass && r.seg = seg) = some r from hr, Option.map_some]

theorem runAt_key (hr : runAt s k pass seg = some r) : r.pass = pass ∧ r.seg = seg := by
  have h := List.find?_some hr
  simpa using h

/-- The oldest run of a segment is the one of its pass. -/
theorem runAt_of_oldest (hr : oldestRun s k seg = some r) : runAt s k r.pass r.seg = some r := by
  rw [oldestRun] at hr
  rw [runAt]
  generalize (streamOf' s k).segs = l at hr
  induction l with
  | nil => cases hr
  | cons x l ih =>
    by_cases hx : x.seg = seg
    · rw [List.find?_cons_of_pos (by simpa using hx), Option.some.injEq] at hr
      rw [hr, List.find?_cons_of_pos (by simp)]
    · rw [List.find?_cons_of_neg (by simpa using hx)] at hr
      have hseg : r.seg = seg := by simpa using List.find?_some hr
      rw [List.find?_cons_of_neg (by simp [hseg, hx]), ih hr]

/-! ### Ends of shares and segments (R515, R522) -/

/-- What the ends of shares and segments leave alone: Larder and Workroom. -/
def StoresKept (s t : State) : Prop := t.larder = s.larder ∧ t.work = s.work

theorem StoresKept.refl (s : State) : StoresKept s s := ⟨rfl, rfl⟩

theorem StoresKept.trans {s t u : State} (h : StoresKept s t) (k : StoresKept t u) : StoresKept s u :=
  ⟨k.1.trans h.1, k.2.trans h.2⟩

theorem CoreOnly.stores {s t : State} (h : CoreOnly s t) : StoresKept s t ∧ t.streams = s.streams := by
  obtain ⟨_, _, _, _, rfl⟩ := h
  exact ⟨⟨rfl, rfl⟩, rfl⟩

theorem HostOnly.stores {s t : State} (h : HostOnly s t) : StoresKept s t ∧ t.streams = s.streams := by
  obtain ⟨_, _, _, rfl⟩ := h
  exact ⟨⟨Eq.refl _, Eq.refl _⟩, Eq.refl _⟩

theorem sendCounter_core (k r x st s) : CoreOnly s (sendCounter k r x st s) := by
  unfold sendCounter
  split
  · split
    · exact .refl s
    · exact enqueue_core ..
  · exact .refl s

/-- The share's status and what is left to repair at its end. -/
def shareEnded (o : PortId) (st : BitVec 8) (r : SegRun) : SegRun :=
  { r with shares := r.shares.map (fun y => if y.out = o then { y with status := some st, repair := [] } else y) }

/-- Shares whose outcome is still out are at the outputs listed; the table of streams is canonical. -/
structure RunEnding (k : Fin 64) (pass : BitVec 32) (seg : Nat) (outs : List PortId) (s t : State) : Prop where
  stores : StoresKept s t
  wf : tblWf {} t.streams.s = true
  run : ∃ r, runAt t k pass seg = some r ∧ ∀ x ∈ r.shares, x.status.isSome = true ∨ x.out ∈ outs

/-- Ending the share at an output takes that output off the list. -/
theorem RunEnding.endShare {o : PortId} {outs : List PortId} {t : State} (st : BitVec 8) (h : RunEnding k pass seg (o :: outs) s t) :
    RunEnding k pass seg outs s (endShare k pass seg o st t) := by
  obtain ⟨hstores, hwf, r, hr, hopen⟩ := h
  simp only [Machine.endShare, hr]
  split
  next hnone =>
    refine ⟨hstores, hwf, r, hr, fun x hx => ?_⟩
    obtain hended | hout := hopen x hx
    · exact .inl hended
    · obtain rfl | hout := List.mem_cons.mp hout
      · have hnot := List.find?_eq_none.mp hnone x hx
        simp only [Bool.and_eq_true, decide_eq_true_eq, true_and, Bool.not_eq_true, Option.isNone_eq_false_iff] at hnot
        exact .inl hnot
      · exact .inr hout
  next x hfind =>
    have hrun : runAt (modRun k pass seg (shareEnded o st) t) k pass seg = some (shareEnded o st r) :=
      runAt_modRun (f := shareEnded o st) (fun _ => ⟨rfl, rfl⟩) hr
    obtain ⟨hkept, hstreams⟩ := (sendCounter_core k r x st (modRun k pass seg (shareEnded o st) t)).stores
    refine ⟨hstores.trans hkept, ?_, shareEnded o st r, ?_, fun y hy => ?_⟩
    · change tblWf {} (sendCounter k r x st (modRun k pass seg (shareEnded o st) t)).streams.s = true
      rw [hstreams]
      exact streamsWf_modStream hwf
    · change runAt (sendCounter k r x st (modRun k pass seg (shareEnded o st) t)) k pass seg = _
      rw [runAt, streamOf', hstreams]
      exact hrun
    · obtain ⟨y', hy', rfl⟩ := List.mem_map.mp hy
      by_cases hout : y'.out = o
      · simp [hout]
      · rw [if_neg hout]
        obtain hended | hmem := hopen y' hy'
        · exact .inl hended
        · exact .inr ((List.mem_cons.mp hmem).resolve_left hout)

/-- Once each share is ended none is open. -/
theorem RunEnding.endShares (st : BitVec 8) : ∀ (xs : List Share) (t : State), RunEnding k pass seg (xs.map (·.out)) s t →
    RunEnding k pass seg [] s (xs.foldl (fun s x => Machine.endShare k pass seg x.out st s) t)
  | [], _, h => h
  | _ :: xs, _, h => RunEnding.endShares st xs _ (h.endShare st)

/-- Larder and Workroom are as they were, and so are the runs of stream `k` where the table of streams is canonical. -/
def SegsKept (k : Fin 64) (s t : State) : Prop :=
  StoresKept s t ∧ (tblWf {} s.streams.s = true →
    tblWf {} t.streams.s = true ∧ (streamOf' t k).segs = (streamOf' s k).segs)

theorem SegsKept.refl (s : State) : SegsKept k s s := ⟨.refl s, fun h => ⟨h, rfl⟩⟩

theorem SegsKept.trans {t u : State} (h : SegsKept k s t) (h' : SegsKept k t u) : SegsKept k s u :=
  ⟨h.1.trans h'.1, fun hwf =>
    have ⟨hwft, hsegs⟩ := h.2 hwf
    have ⟨hwfu, hsegs'⟩ := h'.2 hwft
    ⟨hwfu, hsegs'.trans hsegs⟩⟩

theorem SegsKept.foldl {α : Type} {f : State → α → State} (h : ∀ s x, SegsKept k s (f s x)) :
    ∀ (l : List α) (s : State), SegsKept k s (l.foldl f s)
  | [], s => .refl s
  | x :: l, s => (h s x).trans (foldl h l (f s x))

theorem modStream_segs {f : Stream → Stream} (hf : ∀ x, (f x).segs = x.segs) : SegsKept k s (modStream k f s) :=
  ⟨⟨rfl, rfl⟩, fun hwf => ⟨streamsWf_modStream hwf, by rw [streamOf'_modStream (.inl hwf), hf]⟩⟩

theorem HostOnly.segs {t : State} (h : HostOnly s t) : SegsKept k s t := by
  obtain ⟨hstores, hstreams⟩ := h.stores
  exact ⟨hstores, fun hwf => ⟨hstreams ▸ hwf, by rw [streamOf', hstreams]; exact Eq.refl _⟩⟩

theorem recordSeg_segs (st : BitVec 8) : SegsKept k s (recordSeg k pass seg st s) := by
  unfold recordSeg
  extract_lets t
  have ht : SegsKept k s t := modStream_segs fun _ => rfl
  split
  · exact ht
  · split
    · exact ht
    · have hgone := ht.trans (modStream_segs (f := fun x => { x with passes := x.passes.filter (fun q => q.num ≠ pass) }) fun _ => rfl)
      split
      · exact hgone.trans (complete_host ..).segs
      · exact hgone

theorem landAudit_segs : SegsKept k s (landAudit k s) := by
  refine .foldl (fun s p => ?_) ..
  simp only
  split
  · exact .refl s
  · exact (auditMismatch_host ..).segs.trans (modStream_segs fun _ => rfl)

/-- A segment whose shares all have outcomes leaves its stream. -/
theorem settleSeg_over (hr : runAt s k pass seg = some r) (hover : ∀ x ∈ r.shares, x.status.isSome = true)
    (hwf : tblWf {} s.streams.s = true) :
    StoresKept s (settleSeg k pass seg s) ∧ runAt (settleSeg k pass seg s) k pass seg = none := by
  have hall : r.shares.all (fun x => x.status.isSome) = true := List.all_eq_true.mpr hover
  simp only [settleSeg, hr, hall, Bool.not_true, Bool.false_eq_true, if_false]
  generalize hw : writeSegRecord k pass seg _ _ _ s = w
  generalize hg : modStream k _ w = g
  have hrecord : HostOnly s w := hw ▸ (hostPut_enz ..).host
  have hwfw : tblWf {} w.streams.s = true := hrecord.stores.2 ▸ hwf
  obtain ⟨hstores, hsegs⟩ := (recordSeg_segs (s := g) (k := k) (pass := pass) (seg := seg) (segStatus r.shares)).trans landAudit_segs
  have hwfg : tblWf {} g.streams.s = true := hg ▸ streamsWf_modStream hwfw
  refine ⟨hrecord.stores.1.trans (StoresKept.trans (hg ▸ ⟨rfl, rfl⟩) hstores), ?_⟩
  rw [runAt, (hsegs hwfg).2, ← hg, streamOf'_modStream (.inl hwfw)]
  exact List.find?_eq_none.mpr fun x hx => by
    rw [Bool.not_eq_true]
    exact Bool.not_eq_true' _ ▸ (List.mem_filter.mp hx).2

/-- Ending every open share ends the segment. -/
theorem endAll_over (st : BitVec 8) (hr : runAt s k pass seg = some r) (hwf : tblWf {} s.streams.s = true) :
    StoresKept s (endAll k pass seg st s) ∧ runAt (endAll k pass seg st s) k pass seg = none := by
  have hstart : RunEnding k pass seg (r.shares.map (·.out)) s s :=
    ⟨.refl s, hwf, r, hr, fun x hx => .inr (List.mem_map_of_mem hx)⟩
  obtain ⟨hstores, hwf', r', hr', hended⟩ := hstart.endShares st
  obtain ⟨hsettled, hnone⟩ := settleSeg_over hr' (fun x hx => (hended x hx).resolve_right (by simp)) hwf'
  simp only [endAll, hr]
  exact ⟨hstores.trans hsettled, hnone⟩

/-! ### Chunks (R511 to R513) -/

theorem settled_of_nothing_due (h : s.tick.todo = []) : settled s = s := runInner_of_nothing_due 10 h

/-- A chunk of the program, and no repair, is of a run of the stream. -/
theorem nextChunk_mem {c : Nat} (h : nextChunk (streamOf' s k) = some (r, c, none)) : r ∈ (streamOf' s k).segs := by
  unfold nextChunk at h
  split at h
  next t hrepair =>
    obtain ⟨r', -, hr'⟩ := List.exists_of_findSome?_eq_some hrepair
    obtain ⟨y, -, hy⟩ := List.exists_of_findSome?_eq_some hr'
    split at hy
    · cases hy
      cases h
    · cases hy
  · obtain ⟨r', hfind, hr'⟩ := Option.map_eq_some_iff.mp h
    cases hr'
    exact List.mem_of_find?_eq_some hfind

/-- Only the Larder's translations and counts, and the module's counts, change when a place is looked up. -/
theorem lookedUp_kept (coat tenant off pl cls wr ten) :
    let v := translateAll coat tenant off pl (countPlace cls wr ten pl s)
    v.streams = s.streams ∧ v.tick = s.tick ∧ v.larder.mem = s.larder.mem ∧ v.larder.badWord = s.larder.badWord ∧ v.work = s.work := by
  intro v
  obtain ⟨_, _, _, hmem, hbad, hcount⟩ := (countPlace_booked cls wr ten pl s).eq
  obtain ⟨_, _, htrans⟩ := translateAll_cache coat tenant off pl (countPlace cls wr ten pl s)
  unfold v
  rw [htrans, hcount]
  exact ⟨rfl, rfl, hmem, hbad, rfl⟩

theorem placeRead_larder_of_eq {t : State} (hmem : t.larder.mem = s.larder.mem) (hbad : t.larder.badWord = s.larder.badWord)
    (runs : List (Nat × Nat)) (n : Nat) : placeRead t (.larder runs) n = placeRead s (.larder runs) n := by
  simp only [placeRead, hmem, hbad]

theorem sendChunk_core (g r c dest port bs) : CoreOnly s (sendChunk k g r c dest port bs s) := by
  unfold sendChunk
  extract_lets base p
  split <;> exact enqueue_core ..

/-- The run once a chunk of `len` stored bytes has been read. -/
def chunkRead1 (len : Nat) (now : BitVec 48) (r : SegRun) : SegRun :=
  { r with next := r.next + 1, off := r.off + len, offs := r.offs ++ [r.off], last := now }

theorem chunkTaken_own (c len : Nat) (hsegs : (streamOf' s k).segs ≠ []) :
    let t := chunkTaken k r c len none s
    streamOf' t k = runsMapped r.pass r.seg (chunkRead1 len s.tick.elapsed)
        { streamOf' s k with allowance := (streamOf' s k).allowance - len }
      ∧ t.larder = s.larder ∧ t.work = s.work := by
  intro t
  let allowed : Stream → Stream := fun x => { x with allowance := x.allowance - len }
  have hallowed : streamOf' (modStream k allowed s) k = allowed (streamOf' s k) :=
    streamOf'_modStream (.inr fun hdefault => hsegs (congrArg Stream.segs hdefault :))
  refine ⟨?_, rfl, rfl⟩
  have hrun := streamOf'_modRun (s := modStream k allowed s) (pass := r.pass) (seg := r.seg) (f := chunkRead1 len s.tick.elapsed)
    (by rw [hallowed]; exact hsegs)
  rw [hallowed] at hrun
  exact hrun

/-- The offset of the next chunk in its source. -/
def readOff (s : State) (k : Fin 64) (r : SegRun) (c : Nat) (dest : Option PortId) : Nat :=
  if dest.isNone && (segOf s k r.seg).sSpec.coding = 1 then r.off else chunkOff (segOf s k r.seg) r c

/-- The stored bytes of the next chunk. -/
def readLen (s : State) (k : Fin 64) (r : SegRun) (c : Nat) (dest : Option PortId) : Nat :=
  chunkLen s ((streamOf' s k).tenant.getD 0) (coatFor s r.coat) (segOf s k r.seg) (readOff s k r c dest) c

theorem chunkRead_eq {c : Nat} {dest : Option PortId} (h : nextChunk (streamOf' s k) = some (r, c, dest)) : chunkRead k s =
    if (streamOf' s k).allowance < readLen s k r c dest then s
    else match checkRange s (coatFor s r.coat) ((streamOf' s k).tenant.getD 0) (addrOff (segOf s k r.seg).src + readOff s k r c dest)
        (readLen s k r c dest) .stream with
      | .fail st => endAll k r.pass r.seg (if st = stHalt then stHalt else stDenied) s
      | .ok pl =>
        let v := translateAll r.coat ((streamOf' s k).tenant.getD 0) (addrOff (segOf s k r.seg).src + readOff s k r c dest) pl
          (countPlace .stream false (some ((streamOf' s k).tenant.getD 0)) pl s)
        match placeRead v pl (readLen s k r c dest) with
        | none => endAll k r.pass r.seg stDataError (foundBad 8 ((segOf s k r.seg).src + BitVec.ofNat 64 (readOff s k r c dest)) pl
            (chunkTaken k r c (readLen s k r c dest) dest v))
        | some bs => sendChunk k (segOf s k r.seg) r c dest (placePort pl) bs (chunkTaken k r c (readLen s k r c dest) dest v) := by
  simp only [chunkRead, h]
  rfl

/-- A chunk of the program read within the allowance takes its bytes from it, moves its run on and changes no memory. -/
theorem chunkRead_reads {c : Nat} {runs : List (Nat × Nat)} {bs : List Byte} (h : nextChunk (streamOf' s k) = some (r, c, none))
    (hallowance : readLen s k r c none ≤ (streamOf' s k).allowance)
    (hcheck : checkRange s (coatFor s r.coat) ((streamOf' s k).tenant.getD 0) (addrOff (segOf s k r.seg).src + readOff s k r c none)
      (readLen s k r c none) .stream = .ok (.larder runs))
    (hread : placeRead s (.larder runs) (readLen s k r c none) = some bs) :
    let t := chunkRead k s
    (streamOf' t k).allowance = (streamOf' s k).allowance - readLen s k r c none
      ∧ (streamOf' t k).segs = (streamOf' s k).segs.map (fun y => if y.pass = r.pass && y.seg = r.seg then
          chunkRead1 (readLen s k r c none) s.tick.elapsed y else y)
      ∧ t.larder.mem = s.larder.mem ∧ t.work = s.work := by
  intro t
  have ht := chunkRead_eq h
  rw [if_neg (Nat.not_lt.2 hallowance)] at ht
  simp only [hcheck] at ht
  generalize hv : translateAll r.coat _ _ _ _ = v at ht
  obtain ⟨hstreams, htick, hmem, hbad, hwork⟩ : v.streams = s.streams ∧ v.tick = s.tick ∧ v.larder.mem = s.larder.mem
      ∧ v.larder.badWord = s.larder.badWord ∧ v.work = s.work := hv ▸ lookedUp_kept ..
  rw [placeRead_larder_of_eq hmem hbad, hread] at ht
  simp only at ht
  have hstream : streamOf' v k = streamOf' s k := by rw [streamOf', hstreams]; rfl
  obtain ⟨hown, hlarder, hwork'⟩ := chunkTaken_own (s := v) (k := k) (r := r) c (readLen s k r c none)
    (by rw [hstream]; exact List.ne_nil_of_mem (nextChunk_mem h))
  obtain ⟨⟨hlarder', hwork''⟩, hstreams'⟩ :=
    (sendChunk_core (s := chunkTaken k r c (readLen s k r c none) none v) (k := k) (segOf s k r.seg) r c none
      (placePort (.larder runs)) bs).stores
  rw [hstream, htick] at hown
  have hsent : streamOf' t k = runsMapped r.pass r.seg (chunkRead1 (readLen s k r c none) s.tick.elapsed)
      { streamOf' s k with allowance := (streamOf' s k).allowance - readLen s k r c none } := by
    unfold t
    rw [ht, streamOf', hstreams']
    exact hown
  refine ⟨congrArg Stream.allowance hsent, congrArg Stream.segs hsent, ?_, ?_⟩
  · unfold t
    rw [ht, hlarder', hlarder, hmem]
  · unfold t
    rw [ht, hwork'', hwork', hwork]

/-! ### Deadlines, records and repair (R518 to R520) -/

/-- The run with its outstanding chunks failed. -/
def outstandingFailed (r : SegRun) : SegRun :=
  { r with shares := r.shares.map (fun x =>
    { x with failed := x.failed ++ (upFrom 0 r.chunks).filter (fun c => !x.failed.contains c && !x.delivered.contains c) }) }

/-- The run whose members with failed chunks get another attempt. -/
def repairBegun (now : BitVec 48) (r : SegRun) : SegRun :=
  { r with closed := none, last := now, shares := r.shares.map (fun x =>
    if x.status.isNone && !x.failed.isEmpty then { x with repair := x.failed, failed := [], attempts := x.attempts + 1 } else x) }

variable {id : BitVec 12}

theorem exec_streamDeadline (hr : oldestRun s k id.toNat = some r) : exec (.streamDeadline k id) s
    = .next (if s.tick.slot = 0 && deadlinePast s r.start (segOf s k r.seg) then endAll k r.pass r.seg stLate s else s) := by
  refine congrArg Host.Outcome.next ?_
  rw [hr]

theorem exec_streamRecordTimeout (hr : oldestRun s k id.toNat = some r) : exec (.streamRecordTimeout k id) s
    = .next (if r.next = r.chunks && r.closed.isNone && r.shares.all (fun x => x.repair.isEmpty)
        && decide (ageLimit s + 8 ≤ ageOf s r.last) then closeSeg k r.pass r.seg (modRun k r.pass r.seg outstandingFailed s) else s) := by
  refine congrArg Host.Outcome.next ?_
  rw [hr]
  rfl

theorem streamRecordTimeout_closes (hr : oldestRun s k id.toNat = some r) (hread : r.next = r.chunks) (hopen : r.closed = none)
    (hage : ageLimit s + 8 ≤ ageOf s r.last) (hrepair : ∀ x ∈ r.shares, x.repair = []) :
    exec (.streamRecordTimeout k id) s = .next (closeSeg k r.pass r.seg (modRun k r.pass r.seg outstandingFailed s)) := by
  have hquiet : r.shares.all (fun x => x.repair.isEmpty) = true := List.all_eq_true.mpr fun x hx => by simp [hrepair x hx]
  rw [exec_streamRecordTimeout hr, if_pos (by simp [hread, hopen, hage, hquiet])]

/-- A record all of whose chunks have failed, with attempts left, closes and stays open to repair. -/
theorem closeSeg_failed (hr : runAt s k pass seg = some r) (hread : r.next = r.chunks) (hopen : r.closed = none) (hshares : r.shares ≠ [])
    (hall : ∀ x ∈ r.shares, x.repair = [] ∧ x.status = none ∧ x.delivered = [] ∧ x.failed = upFrom 0 r.chunks
      ∧ x.attempts < (streamOf' s k).repairLimit) :
    closeSeg k pass seg s = modRun k pass seg (fun r => { r with closed := some s.tick.elapsed }) s := by
  have hdone : recordDone r = true := by
    simp only [recordDone, hread, decide_true, Bool.true_and, List.all_eq_true]
    intro x hx
    obtain ⟨hrepair, -, hdelivered, hfailed, -⟩ := hall x hx
    simp [hrepair, hdelivered, hfailed, upFrom_eq_range']
  let closed : SegRun → SegRun := fun r => { r with closed := some s.tick.elapsed }
  have hlimit : (streamOf' (modRun k pass seg closed s) k).repairLimit = (streamOf' s k).repairLimit := by
    rw [streamOf'_modRun (segs_ne_of_runAt hr)]
    rfl
  have hspent : r.shares.filter (fun x => x.status.isNone && !x.failed.isEmpty
      && decide ((streamOf' (modRun k pass seg closed s) k).repairLimit ≤ x.attempts)) = [] := by
    refine List.filter_eq_nil_iff.mpr fun x hx => ?_
    obtain ⟨-, -, -, -, hleft⟩ := hall x hx
    simp [hlimit, Nat.not_le.2 hleft]
  have hrun : runAt (modRun k pass seg closed s) k pass seg = some (closed r) := runAt_modRun (fun _ => ⟨rfl, rfl⟩) hr
  obtain ⟨x, hx⟩ := List.exists_mem_of_ne_nil _ hshares
  simp only [closeSeg, hr, hdone, hopen, Bool.not_true, Option.isSome_none, Bool.or_self, Bool.false_eq_true, if_false]
  rw [hspent, List.foldl_nil]
  exact settleSeg_open hrun ⟨x, hx, (hall x hx).2.1⟩

/-- Two changes of a run are one after the other in its stream. -/
theorem modRun_streams (f : SegRun → SegRun) (s : State) : modRun k pass seg f s = { s with streams := (modRun k pass seg f s).streams } := rfl

theorem exec_streamRepairStart {b : BitVec 48} (hr : oldestRun s k id.toNat = some r) (hslot : s.tick.slot = 0) (hclosed : r.closed = some b)
    (hb : b ≠ s.tick.elapsed) (hdeadline : deadlinePast s r.start (segOf s k r.seg) = false)
    (hup : ∀ x ∈ r.shares, x.status = none → x.failed ≠ [] → outUp s x.out = true) :
    exec (.streamRepairStart k id) s = .next (settleSeg k r.pass r.seg (modRun k r.pass r.seg (repairBegun s.tick.elapsed) s)) := by
  have hready : ¬(decide (s.tick.slot ≠ 0) || r.closed.isNone || decide (r.closed = some s.tick.elapsed)) = true := by
    simp [hslot, hclosed, hb]
  have hdown : (r.shares.filter (fun x => x.status.isNone && !x.failed.isEmpty)).filter (fun x => !outUp s x.out) = [] := by
    refine List.filter_eq_nil_iff.mpr fun x hx => ?_
    obtain ⟨hmem, hopen⟩ := List.mem_filter.mp hx
    simp only [Bool.and_eq_true, Option.isNone_iff_eq_none, Bool.not_eq_eq_eq_not, Bool.not_true, List.isEmpty_eq_false_iff] at hopen
    simp [hup x hmem hopen.1 hopen.2]
  refine congrArg Host.Outcome.next ?_
  rw [hr]
  refine (if_neg hready).trans ?_
  simp only [hdown, List.foldl_nil, hdeadline, Bool.false_eq_true, if_false]
  rfl

theorem streamRepairStart_none (h : ∀ r, oldestRun s k id.toNat = some r →
    r.closed = none ∨ r.closed = some s.tick.elapsed ∨ s.tick.slot ≠ 0) : NoEffect (.streamRepairStart k id) s := by
  refine congrArg Host.Outcome.next ?_
  cases hr : oldestRun s k id.toNat with
  | none => rfl
  | some r =>
    refine if_pos ?_
    rcases h r hr with hclosed | hclosed | hslot
    · simp [hclosed]
    · simp [hclosed]
    · simp [hslot]

end

/-- Settles O29: passes by their starts, segments by their grants; a chunk by the allowance, the check of its range and its words; the
ends and repairs of a segment on the runs of its pass. -/
theorem streamPassesSegmentsChunks : Obligations.StreamPassesSegmentsChunks := by
  unfold Obligations.StreamPassesSegmentsChunks
  refine ⟨⟨?_, ?_, ?_, ?_, ?_, ?_⟩, ?_, ?_, ?_, ?_, ?_, ?_, ?_, ?_, ?_, ?_, ?_, ?_, ?_⟩
  · intro s k d due rest hslot hon hread hperiod hstarts hdue hwf
    refine ⟨_, congrArg Host.Outcome.next (passStart_starts hslot hon hread hperiod hstarts hdue), ⟨startTick s d due, ?_, ?_, ?_⟩, ?_,
      ((modStream_only ..).trans (passBegun_only ..)).eq⟩
    · rw [streamOf'_passBegun, streamOf'_modStream (.inl hwf)]
      rfl
    · intro f hf
      rw [startTick, hf]
    · intro hf
      rw [startTick, hf]
    · exact fun j hj => (streamOf'_passBegun_ne hj ..).trans (streamOf'_modStream_ne hj)
  · intro s k hslot hon hread hperiod hwf sp
    have hstart := passStart_period hslot hon hread hperiod
    refine ⟨fun hlater => congrArg Host.Outcome.next (hstart.trans (if_pos hlater)), fun hnow =>
      ⟨_, congrArg Host.Outcome.next (hstart.trans (if_neg (Bool.not_eq_true _ ▸ hnow))), streamOf'_passBegun .., (passBegun_only ..).eq⟩⟩
  · exact fun s k h => congrArg Host.Outcome.next (passStart_none h)
  · intro s k p hp hslot hon hread g ready
    have hstart := segmentStart_open hp hslot hon hread
    refine ⟨fun hdrain => ?_, fun hopen hstarts => ?_, fun hopen hready hallowed hdeadline => ?_⟩
    · exact congrArg Host.Outcome.next (hstart.trans (if_pos hdrain))
    · refine congrArg Host.Outcome.next (hstart.trans ((if_neg (by simp [hopen])).trans (if_pos ?_)))
      rcases hstarts with h | h | h
      · simp [show grantsReady s k (segOf s k p.next) = true from h]
      · simp [show segAllowed s k (segOf s k p.next) = false from h]
      · simp [show deadlinePast s p.start (segOf s k p.next) = true from h]
    · refine congrArg Host.Outcome.next (hstart.trans ((if_neg (by simp [hopen])).trans (if_neg ?_)))
      simp [show grantsReady s k (segOf s k p.next) = false from hready, show segAllowed s k (segOf s k p.next) = true from hallowed,
        show deadlinePast s p.start (segOf s k p.next) = false from hdeadline]
  · intro s k p hp hslot hon hread hopen hallowed hmembers hnew hgrants hroom
    have hready : grantsReady s k (segOf s k p.next) = true := List.all_eq_true.mpr fun o ho => by
      obtain ⟨r, hr, hport, hgslot⟩ := hgrants o ho
      exact List.any_eq_true.mpr ⟨r, hr, by simp [hport, hgslot]⟩
    obtain ⟨hshares, hstart⟩ := startSeg_granted hallowed hmembers hnew hgrants hroom
    have hexec : segmentStart k s = startSeg k p (segOf s k p.next) s :=
      (segmentStart_open hp hslot hon hread).trans ((if_neg (by simp [hopen])).trans (if_pos (by simp [hready])))
    obtain ⟨houts, hnext, hgiven⟩ := startRun_holds (s := s) (k := k) (p := p) (g := segOf s k p.next) hallowed
    obtain ⟨-, hstream⟩ := runAt_started (s := s) (k := k) (p := p) (g := segOf s k p.next) hnew
    refine ⟨_, congrArg Host.Outcome.next (hexec.trans hstart), ⟨startRun s k p (segOf s k p.next), congrArg Stream.segs hstream, rfl, rfl,
      rfl, rfl, rfl, hnext, houts, fun x hx => ?_⟩, _, _, _, rfl⟩
    obtain ⟨hstatus, r, hr, hmem⟩ := hshares x hx
    exact ⟨hstatus, r, hr, hmem, fun hkept => hgiven x hx r hr (congrArg Stream.grants hstream ▸ hkept)⟩
  · exact fun s k h => congrArg Host.Outcome.next (segmentStart_none h)
  · intro s k r c dest u hnext g t off len
    have hread := chunkRead_eq hnext
    refine ⟨fun hmore => congrArg Host.Outcome.next (hread.trans (if_pos hmore)), fun hfits => ?_⟩
    rw [if_neg (Nat.not_lt.2 (show readLen u k r c dest ≤ _ from hfits))] at hread
    refine ⟨?_, ?_⟩
    · intro st hcheck
      change checkRange u (coatFor u r.coat) ((streamOf' u k).tenant.getD 0) (addrOff (segOf u k r.seg).src + readOff u k r c dest)
        (readLen u k r c dest) .stream = _ at hcheck
      rw [hcheck] at hread
      exact congrArg Host.Outcome.next hread
    · intro pl hcheck
      change checkRange u (coatFor u r.coat) ((streamOf' u k).tenant.getD 0) (addrOff (segOf u k r.seg).src + readOff u k r c dest)
        (readLen u k r c dest) .stream = _ at hcheck
      rw [hcheck] at hread
      intro v
      change chunkRead k u = (match placeRead v pl (readLen u k r c dest) with
        | none => endAll k r.pass r.seg stDataError (foundBad 8 (g.src + BitVec.ofNat 64 off) pl (chunkTaken k r c len dest v))
        | some bs => sendChunk k g r c dest (placePort pl) bs (chunkTaken k r c len dest v)) at hread
      refine ⟨fun bs hbs => ?_, fun hbs => ?_⟩
      · rw [show placeRead v pl (readLen u k r c dest) = some bs from hbs] at hread
        exact congrArg Host.Outcome.next hread
      · rw [show placeRead v pl (readLen u k r c dest) = none from hbs] at hread
        exact congrArg Host.Outcome.next hread
  · intro s k hnone
    refine congrArg Host.Outcome.next ?_
    simp only [chunkRead, hnone]
  · exact fun s => settled_of_nothing_due
  · intro s k r c runs bs hdue hnext hcoding g off len hfits hcheck hbs
    have hoff : readOff s k r c none = off := if_neg (by simp [hcoding])
    have hlen : readLen s k r c none = len := by
      rw [readLen, chunkLen, if_pos hcoding]
    rw [← hoff, ← hlen] at hcheck
    rw [← hlen] at hfits hbs
    have hreads := chunkRead_reads hnext hfits hcheck hbs
    rw [hlen] at hreads
    refine ⟨_, congrArg Host.Outcome.next (congrArg (chunkRead k) (settled_of_nothing_due hdue)), hreads⟩
  · intro s k seg r hr hslot hpast
    exact (exec_streamDeadline hr).trans (congrArg Host.Outcome.next (if_pos (by simp [hslot, hpast])))
  · intro s k pass seg r st hr hwf t
    obtain ⟨⟨hlarder, hwork⟩, hnone⟩ := endAll_over st hr hwf
    exact ⟨hnone, hlarder, hwork⟩
  · intro s k seg h
    cases hr : oldestRun s k seg.toNat with
    | none =>
      refine congrArg Host.Outcome.next ?_
      rw [hr]
    | some r =>
      refine (exec_streamDeadline hr).trans (congrArg Host.Outcome.next (if_neg ?_))
      rcases h r hr with h | h <;> simp [h]
  · exact fun s k seg r hr hread hopen hage hrepair => streamRecordTimeout_closes hr hread hopen hage hrepair
  · intro s k seg r hr hread hopen hshares hage hall
    have hrun : runAt (modRun k r.pass r.seg outstandingFailed s) k r.pass r.seg = some (outstandingFailed r) :=
      runAt_modRun (fun _ => ⟨rfl, rfl⟩) (runAt_of_oldest hr)
    have hfailed : outstandingFailed r = { r with shares := r.shares.map (fun x => { x with failed := upFrom 0 r.chunks }) } := by
      rw [outstandingFailed]
      refine congrArg (fun xs => { r with shares := xs }) (List.map_congr_left fun x hx => ?_)
      obtain ⟨-, -, hdelivered, hfailed, -⟩ := hall x hx
      simp [hdelivered, hfailed]
    have hlimit : (streamOf' (modRun k r.pass r.seg outstandingFailed s) k).repairLimit = (streamOf' s k).repairLimit := by
      rw [streamOf'_modRun (segs_ne_of_runAt (runAt_of_oldest hr))]
      rfl
    have hclose := closeSeg_failed hrun hread hopen (by simpa [hfailed] using hshares) (fun x hx => by
      rw [hfailed] at hx
      obtain ⟨y, hy, rfl⟩ := List.mem_map.mp hx
      obtain ⟨hrepair, hstatus, hdelivered, -, hattempts⟩ := hall y hy
      exact ⟨hrepair, hstatus, hdelivered, rfl, hlimit.symm ▸ hattempts⟩)
    refine ⟨_, streamRecordTimeout_closes hr hread hopen hage (fun x hx => (hall x hx).1), ?_, ?_⟩
    · have hclosed := runAt_modRun (f := fun r => { r with closed := some s.tick.elapsed }) (fun _ => ⟨rfl, rfl⟩) hrun
      rw [hfailed] at hclosed
      rw [hclose]
      exact hclosed
    · rw [hclose]
      rfl
  · intro s k seg h
    cases hr : oldestRun s k seg.toNat with
    | none =>
      refine congrArg Host.Outcome.next ?_
      rw [hr]
    | some r =>
      refine (exec_streamRecordTimeout hr).trans (congrArg Host.Outcome.next (if_neg ?_))
      rcases h r hr with h | h | h
      · simp [h]
      · simp [Option.isSome_iff_ne_none.mp h]
      · simp [Nat.not_le.2 h]
  · exact fun s k seg r b hr hslot hclosed hb hdeadline hup => exec_streamRepairStart hr hslot hclosed hb hdeadline hup
  · intro s k seg r b hr hslot hclosed hb hshares hdeadline hall
    have hrun : runAt (modRun k r.pass r.seg (repairBegun s.tick.elapsed) s) k r.pass r.seg = some (repairBegun s.tick.elapsed r) :=
      runAt_modRun (fun _ => ⟨rfl, rfl⟩) (runAt_of_oldest hr)
    have hbegun : repairBegun s.tick.elapsed r = { r with
        closed := none, last := s.tick.elapsed,
        shares := r.shares.map (fun x => { x with repair := x.failed, failed := [], attempts := x.attempts + 1 }) } := by
      rw [repairBegun]
      refine congrArg (fun xs => { r with closed := none, last := s.tick.elapsed, shares := xs }) (List.map_congr_left fun x hx => ?_)
      obtain ⟨hstatus, hfailed, -⟩ := hall x hx
      exact if_pos (by simp [hstatus, hfailed])
    obtain ⟨x, hx⟩ := List.exists_mem_of_ne_nil _ hshares
    have hopen : ∃ y ∈ (repairBegun s.tick.elapsed r).shares, y.status = none := by
      rw [hbegun]
      exact ⟨_, List.mem_map_of_mem hx, (hall x hx).1⟩
    have hsettle := settleSeg_open hrun hopen
    refine ⟨_, exec_streamRepairStart hr hslot hclosed hb hdeadline (fun x hx _ _ => (hall x hx).2.2), ?_, ?_⟩
    · rw [hsettle, hrun, hbegun]
    · rw [hsettle]
      rfl
  · exact fun s k seg h => streamRepairStart_none h

end Machine
end Sys2Proof
end
section
/-!
PROOF. The kernel descriptors, the sequence descriptors, code copies and the zeroing of arrays (O30; R535, R544 to R546, R548, R550 to
R552, R563).
-/
namespace Sys2Proof
namespace Machine
set_option Elab.async false

/-! ### The kernel descriptors (R544, R545, R550 to R552) -/

section
variable {s : State} {d : DRef} {f : InFlight} {k : Fin 256} {body : Fin 256 → State → State} {bound : Bool}

theorem kernelAt_setKernel_ne {j : Fin 256} {v : Kernel} (h : j ≠ k) : kernelAt (setKernel k v s) j = kernelAt s j :=
  tblGet_tblSet_ne ({} : Kernel) s.work.kernel _ _ v fun hval => h (Fin.ext hval)

theorem withKernel_no_target (h : kernelTarget f = none) : withKernel d f bound s body = complete d stBad 0 s := by
  rw [withKernel, h]

/-- A row that does not ask for the slot's binding runs once its generation is right. -/
theorem withKernel_free (ht : kernelTarget f = some k) (hg : dGen f.desc = fnGen s (.kernel k)) :
    withKernel d f false (started d s) body = body k (startedAt d (.kernel k) s) := by
  rw [withKernel, ht]
  exact if_neg (genOk_startedAt hg d)

theorem withKernel_stale (h : kernelTarget f = some k) (hgen : dGen f.desc ≠ fnGen s (.kernel k)) :
    withKernel d f bound (started d s) body = complete d stStaleGen 0 (startedAt d (.kernel k) s) := by
  have hstale : (!genOk (startedAt d (.kernel k) s) f (.kernel k)) = true := by
    simp [genOk, show fnGen (startedAt d (.kernel k) s) (.kernel k) = fnGen s (.kernel k) from rfl, hgen]
  rw [withKernel, h]
  exact if_pos hstale

theorem withKernel_denied (h : kernelTarget f = some k) (hgen : dGen f.desc = fnGen s (.kernel k))
    (hbound : (kernelAt s k).loaded = false ∨ (kernelAt s k).tenant ≠ dTenant s f) :
    withKernel d f true (started d s) body = complete d stDenied 0 (startedAt d (.kernel k) s) := by
  have hdenied : (true && (!(kernelAt s k).loaded || decide ((kernelAt s k).tenant ≠ dTenant s f))) = true := by simpa using hbound
  rw [withKernel, h]
  exact (if_neg (genOk_startedAt hgen d)).trans (if_pos hdenied)

/-- The kernel that a KERNEL_LOAD binds to its slot. -/
def kernelLoaded (s : State) (f : InFlight) : Kernel :=
  let b := f.desc
  { loaded := true, tenant := dTenant s f, code := dWord b 24, codeLen := fld b 256 32, codeOff := fld b 288 22,
    lib := if bit b 310 then fld b 192 8 else 0, launchEn := bit b 311, arrays := dWord b 40, threadsMax := fld b 384 12,
    runLimit := fld b 416 32, entry := fld b 448 32 }

theorem exec_kernelLoad (h : Startable s d 0x40 f) (ht : kernelTarget f = some k) (hg : dGen f.desc = fnGen s (.kernel k)) :
    exec (.kernelLoad d) s = .next (
      if fnSt s (.kernel k) ≠ .off || !loadOk f.desc then complete d stBad 0 (startedAt d (.kernel k) s)
      else complete d stOk 0 (setKernel k (kernelLoaded s f) (bindPage (kernelPage k.val) (dTenant s f) (startedAt d (.kernel k) s)))) :=
  congrArg Host.Outcome.next ((withDesc_of_startable h _).trans (withKernel_free ht hg))

/-- A kernel loaded changes its slot alone. -/
theorem kernelLoad_loads (h : Startable s d 0x40 f) (ht : kernelTarget f = some k) (hg : dGen f.desc = fnGen s (.kernel k))
    (hoff : fnSt s (.kernel k) = .off) (hok : loadOk f.desc = true) :
    Completes (.kernelLoad d) s fun t => kernelAt t k = kernelLoaded s f ∧ (∀ j, j ≠ k → kernelAt t j = kernelAt s j)
      ∧ t.work.mem = s.work.mem ∧ t.work.thr = s.work.thr ∧ flightOf t d = none ∧ HostOnly { s with work := t.work } t := by
  obtain ⟨x, y, z, hbound⟩ := (startedAt_host d (.kernel k) s).trans (bindPage_host (kernelPage k.val) (dTenant s f) _)
  obtain ⟨t, ht'⟩ : ∃ t, t = complete d stOk 0
    (setKernel k (kernelLoaded s f) (bindPage (kernelPage k.val) (dTenant s f) (startedAt d (.kernel k) s))) := ⟨_, rfl⟩
  have hdone : HostOnly (setKernel k (kernelLoaded s f) (bindPage (kernelPage k.val) (dTenant s f) (startedAt d (.kernel k) s))) t :=
    ht' ▸ complete_host ..
  have hflight : flightOf t d = none := ht' ▸ flightOf_complete_self ..
  rw [hbound] at hdone
  obtain ⟨x', y', z', hdone⟩ := hdone
  refine ⟨t, (exec_kernelLoad h ht hg).trans ?_, ?_⟩
  · rw [if_neg (by simp [hoff, hok]), ht']
  · rw [hdone] at hflight ⊢
    have hset : kernelAt (setKernel k (kernelLoaded s f) s) k = kernelLoaded s f :=
      kernelAt_setKernel fun hdefault => Bool.noConfusion (congrArg Kernel.loaded hdefault)
    exact ⟨hset, fun j hj => kernelAt_setKernel_ne (s := s) hj, rfl, rfl, hflight, _, _, _, rfl⟩

theorem kernelLoad_bad (h : Startable s d 0x40 f) (ht : kernelTarget f = some k) (hg : dGen f.desc = fnGen s (.kernel k))
    (hbad : fnSt s (.kernel k) ≠ .off ∨ loadOk f.desc = false) :
    exec (.kernelLoad d) s = .next (complete d stBad 0 (startedAt d (.kernel k) s)) := by
  rw [exec_kernelLoad h ht hg, if_pos (by simpa using hbad)]

/-- The descriptor, an opcode `op` that may start, names a kernel slot bound to its tenant; its generation is right (R81, R544). -/
structure KernelDesc (s : State) (d : DRef) (op : BitVec 8) (f : InFlight) (k : Fin 256) : Prop where
  start : Startable s d op f
  target : kernelTarget f = some k
  gen : dGen f.desc = fnGen s (.kernel k)
  loaded : (kernelAt s k).loaded = true
  tenant : (kernelAt s k).tenant = dTenant s f

theorem withDesc_withKernel {op : BitVec 8} (h : KernelDesc s d op f k) (body : InFlight → Fin 256 → State → State) :
    withDesc d op s (fun f s => withKernel d f true s (body f)) = body f k (startedAt d (.kernel k) s) := by
  rw [withDesc_of_startable h.start]
  exact withKernel_eq h.target h.gen h.loaded h.tenant d (body f)

/-- The state with a KERNEL_RUN's run admitted, which waits for its arguments where it has any. -/
def runAdmitted (s : State) (d : DRef) (f : InFlight) (k : Fin 256) : State :=
  (admitRun k (.desc d) (fld f.desc 256 12) [] (fld f.desc 272 8 = 0)
    (modFlight d (fun x => { x with waits := 1 }) (startedAt d (.kernel k) s))).2

theorem exec_kernelRun (h : KernelDesc s d 0x43 f k) : exec (.kernelRun d) s = .next (
    if !runBodyOk (kernelAt s k) f.desc then complete d stBad 0 (startedAt d (.kernel k) s)
    else if (kernelAt s k).lib = 1 then complete d stDenied 0 (startedAt d (.kernel k) s)
    else match fnSt s (.kernel k) with
      | .off => complete d stCancelled 0 (startedAt d (.kernel k) s)
      | .stopping => complete d stCancelled 0 (startedAt d (.kernel k) s)
      | _ => if fld f.desc 272 8 = 0 then runAdmitted s d f k
          else hostRead (.obj d 0) (dWord f.desc 24) (fld f.desc 272 8) (runAdmitted s d f k)) :=
  congrArg Host.Outcome.next (withDesc_withKernel h _)

theorem kernelRun_bad (h : KernelDesc s d 0x43 f k) (hbad : runBodyOk (kernelAt s k) f.desc = false) :
    exec (.kernelRun d) s = .next (complete d stBad 0 (startedAt d (.kernel k) s)) := by
  rw [exec_kernelRun h, hbad]
  rfl

theorem kernelRun_denied (h : KernelDesc s d 0x43 f k) (hok : runBodyOk (kernelAt s k) f.desc = true) (hlib : (kernelAt s k).lib = 1) :
    exec (.kernelRun d) s = .next (complete d stDenied 0 (startedAt d (.kernel k) s)) := by
  rw [exec_kernelRun h, hok, if_neg (by simp), if_pos hlib]

theorem kernelRun_cancelled (h : KernelDesc s d 0x43 f k) (hok : runBodyOk (kernelAt s k) f.desc = true) (hlib : (kernelAt s k).lib ≠ 1)
    (hst : fnSt s (.kernel k) = .off ∨ fnSt s (.kernel k) = .stopping) :
    exec (.kernelRun d) s = .next (complete d stCancelled 0 (startedAt d (.kernel k) s)) := by
  rw [exec_kernelRun h, hok, if_neg (by simp), if_neg hlib]
  rcases hst with hst | hst <;> rw [hst]

theorem kernelRun_admits (h : KernelDesc s d 0x43 f k) (hok : runBodyOk (kernelAt s k) f.desc = true) (hlib : (kernelAt s k).lib ≠ 1)
    (hst : fnSt s (.kernel k) = .on ∨ fnSt s (.kernel k) = .starting) :
    exec (.kernelRun d) s = .next (if fld f.desc 272 8 = 0 then runAdmitted s d f k
      else hostRead (.obj d 0) (dWord f.desc 24) (fld f.desc 272 8) (runAdmitted s d f k)) := by
  rw [exec_kernelRun h, hok, if_neg (by simp), if_neg hlib]
  rcases hst with hst | hst <;> rw [hst]

/-- The kernel with one more run, of its next number. -/
def withRun (s : State) (k : Fin 256) (b : Launcher) (n : Nat) (args : List Byte) (ready : Bool) : Kernel :=
  { kernelAt s k with
    nextRun := (kernelAt s k).nextRun + 1
    runs := (kernelAt s k).runs ++ [{ num := (kernelAt s k).nextRun, gen := fnGen s (.kernel k), by_ := b, threads := n, args := args,
                                      ready := ready }] }

/-- A run is admitted in its kernel alone, and counted. -/
theorem admitRun_holds (k : Fin 256) (b : Launcher) (n : Nat) (args : List Byte) (ready : Bool) (s : State) :
    admitRun k b n args ready s
        = ((kernelAt s k).nextRun, bump (kernelPage k.val) 0 1 (setKernel k (withRun s k b n args ready) s))
      ∧ kernelAt (admitRun k b n args ready s).2 k = withRun s k b n args ready :=
  ⟨rfl, kernelAt_setKernel (s := s) fun hdefault => by
    have hruns := congrArg Kernel.runs hdefault
    simp at hruns⟩

/-- A KERNEL_RUN admitted: its run, its descriptor, and nothing else but what its read asks. -/
theorem runAdmitted_holds (hf : flightOf s d = some f) :
    let t := if fld f.desc 272 8 = 0 then runAdmitted s d f k
      else hostRead (.obj d 0) (dWord f.desc 24) (fld f.desc 272 8) (runAdmitted s d f k)
    kernelAt t k = withRun s k (.desc d) (fld f.desc 256 12) [] (fld f.desc 272 8 = 0)
      ∧ (∃ f', flightOf t d = some f' ∧ f'.waits = 1) ∧ t.work.mem = s.work.mem ∧ HostOnly { s with work := t.work } t := by
  intro t
  have hread : EnzOnly (runAdmitted s d f k) t := by
    unfold t
    split
    · exact ⟨_, rfl⟩
    · exact hostRead_enz ..
  obtain ⟨hadmit, hkernel⟩ := admitRun_holds k (.desc d) (fld f.desc 256 12) [] (fld f.desc 272 8 = 0)
    (modFlight d (fun x => { x with waits := 1 }) (startedAt d (.kernel k) s))
  have hflight : flightOf (runAdmitted s d f k) d = some { f with stage := .started, gen := fnGen s (.kernel k), waits := 1 } := by
    have hwaits : flightOf (modFlight d (fun x => { x with waits := 1 }) (startedAt d (.kernel k) s)) d = _ :=
      flightOf_modFlight (by exact fun _ => rfl) d _
    rw [flightOf_startedAt hf] at hwaits
    rw [runAdmitted, hadmit]
    exact hwaits
  obtain ⟨x, ht⟩ := hread
  clear_value t
  subst ht
  refine ⟨hkernel, ⟨_, hflight, rfl⟩, ?_, ?_⟩
  · change (runAdmitted s d f k).work.mem = _
    rw [runAdmitted, hadmit]
    rfl
  · rw [runAdmitted, hadmit]
    exact ⟨_, _, _, rfl⟩

theorem kernelQuery_answers (h : KernelDesc s d 0x44 f k) :
    exec (.kernelQuery d) s = .next (complete d stOk (kernelQueryWord s k) (startedAt d (.kernel k) s)) :=
  congrArg Host.Outcome.next (withDesc_withKernel h fun _ k s => complete d stOk (kernelQueryWord s k) s)

end

/-- The rows that run on a kernel slot, with their opcodes. -/
def kernelRows : List ((DRef → Instr) × BitVec 8) := [(.kernelLoad, 0x40), (.kernelRun, 0x43), (.kernelQuery, 0x44)]

/-- Each of the rows makes its slot's checks first, and all but KERNEL_LOAD ask for its binding. -/
theorem exec_kernelRow {e : (DRef → Instr) × BitVec 8} (he : e ∈ kernelRows) {s : State} {d : DRef} {f : InFlight}
    (h : Startable s d e.2 f) : ∃ bound body, (e.2 ≠ 0x40 → bound = true)
      ∧ exec (e.1 d) s = .next (withKernel d f bound (started d s) body) := by
  simp only [kernelRows, List.mem_cons, List.not_mem_nil, or_false] at he
  rcases he with rfl | rfl | rfl
  · exact ⟨_, _, fun hne => absurd rfl hne, congrArg Host.Outcome.next (withDesc_of_startable h _)⟩
  · exact ⟨_, _, fun _ => rfl, congrArg Host.Outcome.next (withDesc_of_startable h _)⟩
  · exact ⟨_, _, fun _ => rfl, congrArg Host.Outcome.next (withDesc_of_startable h _)⟩

/-! ### The sequence descriptors (R544, R563) -/

section
variable {s : State} {d : DRef} {f : InFlight} {i : Nat}

/-- The header of a sequence entry. -/
def seqHeader (s : State) (i : Nat) : SeqHdr := seqFields (seqHdr s i)

/-- The descriptor has started and reports the generation of its sequence entry. -/
def seqStarted (s : State) (d : DRef) (i : Nat) : State := modFlight d (fun x => { x with gen := (seqHeader s i).gen }) (started d s)

/-- The descriptor waits for one piece of work. -/
def waitsOne (d : DRef) (s : State) : State := modFlight d (fun x => { x with waits := 1 }) s

/-- The check that a sequence entry is valid and the tenant's own. -/
theorem notOwn_iff {v : SeqHdr} {t : BitVec 8} : (!v.valid || decide (v.tenant ≠ t)) = true ↔ v.valid = false ∨ v.tenant ≠ t := by simp

theorem exec_seqSet (h : Startable s d 0x48 f) (ht : seqTarget f = some i) : exec (.seqSet d) s = .next (
    if seqForeign (seqHeader s i) (dTenant s f) then complete d stDenied 0 (seqStarted s d i)
    else if !seqSetOk s f then complete d stBad 0 (seqStarted s d i)
    else seqWait d [] (waitsOne d (seqStarted s d i))) := by
  refine congrArg Host.Outcome.next ((withDesc_of_startable h _).trans ?_)
  rw [seqSet, ht]
  rfl

theorem exec_seqPages (h : Startable s d 0x49 f) (ht : seqTarget f = some i) : exec (.seqPages d) s = .next (
    if dGen f.desc ≠ (seqHeader s i).gen then complete d stStaleGen 0 (seqStarted s d i)
    else if !(seqHeader s i).valid || (seqHeader s i).tenant ≠ dTenant s f then complete d stDenied 0 (seqStarted s d i)
    else if !seqPagesOk (seqHeader s i) f.desc then complete d stBad 0 (seqStarted s d i)
    else if fld f.desc 288 16 = 0 then seqWait d [] (waitsOne d (seqStarted s d i))
    else hostRead (.obj d 0) (dWord f.desc 24) (8 * fld f.desc 288 16) (waitsOne d (seqStarted s d i))) := by
  refine congrArg Host.Outcome.next ((withDesc_of_startable h _).trans ?_)
  rw [seqPages, ht]
  rfl

theorem exec_seqClear (h : Startable s d 0x4A f) (ht : seqTarget f = some i) : exec (.seqClear d) s = .next (
    if !(seqHeader s i).valid || (seqHeader s i).tenant ≠ dTenant s f then complete d stDenied 0 (seqStarted s d i)
    else seqWait d [] (waitsOne d (seqStarted s d i))) := by
  refine congrArg Host.Outcome.next ((withDesc_of_startable h _).trans ?_)
  rw [seqClear, ht]
  rfl

/-- The rows of the sequence table, with their opcodes. -/
def seqRows : List ((DRef → Instr) × BitVec 8) := [(.seqSet, 0x48), (.seqPages, 0x49), (.seqClear, 0x4A)]

theorem exec_seqRow_no_target {e : (DRef → Instr) × BitVec 8} (he : e ∈ seqRows) (h : Startable s d e.2 f) (ht : seqTarget f = none) :
    exec (e.1 d) s = .next (complete d stBad 0 (started d s)) := by
  simp only [seqRows, List.mem_cons, List.not_mem_nil, or_false] at he
  rcases he with rfl | rfl | rfl
  · exact congrArg Host.Outcome.next ((withDesc_of_startable h _).trans (by rw [seqSet, ht]))
  · exact congrArg Host.Outcome.next ((withDesc_of_startable h _).trans (by rw [seqPages, ht]))
  · exact congrArg Host.Outcome.next ((withDesc_of_startable h _).trans (by rw [seqClear, ht]))

end

/-! ### Code copies (R546) -/

/-- The arrays' memory with bytes written at one offset of each array of a list. -/
def copiedInto (off : Nat) (bs : List Byte) (l : List Nat) (m : Tbl Byte) : Tbl Byte :=
  l.foldl (fun m a => memWrite m (arrayBase a + off) bs) m

section
variable {off : Nat} {bs : List Byte}

theorem copiedInto_wf : ∀ (l : List Nat) (m : Tbl Byte), tblWf 0 m = true → tblWf 0 (copiedInto off bs l m) = true
  | [], _, h => h
  | _ :: l, _, h => copiedInto_wf l _ (tblWf_memWrite bs _ _ h)

/-- A byte that no copy reaches is as it was. -/
theorem tblGet_copiedInto (x : Nat) : ∀ (l : List Nat) (m : Tbl Byte),
    (∀ a ∈ l, x < arrayBase a + off ∨ arrayBase a + off + bs.length ≤ x) → tblGet 0 (copiedInto off bs l m) x = tblGet 0 m x
  | [], _, _ => rfl
  | a :: l, m, h => (tblGet_copiedInto x l _ fun b hb => h b (List.mem_cons_of_mem a hb)).trans
      (tblGet_memWrite_outside bs m _ x (h a List.mem_cons_self))

theorem memRead_of_eq {m m' : Tbl Byte} : ∀ (n a : Nat), (∀ x, a ≤ x → x < a + n → tblGet 0 m' x = tblGet 0 m x) →
    memRead m' a n = memRead m a n
  | 0, _, _ => rfl
  | n + 1, a, h => by
    rw [memRead, memRead, h a (Nat.le_refl a) (by omega), memRead_of_eq n (a + 1) fun x hlow hhigh => h x (by omega) (by omega)]

/-- The bytes copied into different arrays do not meet. -/
theorem memRead_copiedInto (hfit : off + bs.length ≤ 0x400000) {a : Nat} : ∀ (l : List Nat) (m : Tbl Byte), a ∈ l → tblWf 0 m = true →
    memRead (copiedInto off bs l m) (arrayBase a + off) bs.length = bs
  | [], _, h, _ => by cases h
  | b :: l, m, h, hwf => by
    by_cases hmem : a ∈ l
    · exact memRead_copiedInto hfit l _ hmem (tblWf_memWrite bs _ _ hwf)
    · have hab : a = b := (List.mem_cons.mp h).resolve_right hmem
      subst hab
      have hkeep : ∀ x, arrayBase a + off ≤ x → x < arrayBase a + off + bs.length →
          tblGet 0 (copiedInto off bs l (memWrite m (arrayBase a + off) bs)) x = tblGet 0 (memWrite m (arrayBase a + off) bs) x := by
        intro x hlow hhigh
        refine tblGet_copiedInto x l _ fun c hc => ?_
        have hne : c ≠ a := fun heq => hmem (heq ▸ hc)
        simp only [arrayBase] at hlow hhigh ⊢
        omega
      exact (memRead_of_eq bs.length _ hkeep).trans (memRead_memWrite bs m _ hwf)

end

section
variable {s : State} {k : Fin 256}

/-- The arrays of a mask. -/
def maskArrays (m : Word) : List Nat := (upFrom 0 64).filter (fun a => bit m a)

theorem mem_maskArrays {m : Word} {a : Nat} : a ∈ maskArrays m ↔ a < 64 ∧ bit m a = true := by
  rw [maskArrays, List.mem_filter, mem_upFrom]
/-- A copy into arrays without uncorrectable words writes their memory alone. -/
theorem copies_eq (off : Nat) (bs : List Byte) : ∀ (l : List Nat) (s : State), s.work.badWord = [] →
    l.foldl (fun s a => (placeWrite (.array (arrayBase a + off)) bs s).1) s = { s with work.mem := copiedInto off bs l s.work.mem }
  | [], _, _ => rfl
  | a :: l, s, hgood => by
    rw [List.foldl_cons, placeWrite_own hgood]
    exact copies_eq off bs l _ hgood

/-- The condition under which a kernel's code is copied. -/
def copyDue (s : State) (k : Fin 256) : Bool :=
  fnSt s (.kernel k) = .starting && (kernelAt s k).fetched = some stOk && (kernelAt s k).copied.isNone && !maskZeroing s (kernelAt s k)
    && (copyFirst s || !(upFrom 0 64).any (fun a => bit (kernelAt s k).arrays a && fabricWaits s a))

/-- A kernel's code copied, where it is due and no word of the arrays is uncorrectable. -/
theorem execKernelCodeCopyDone_copies (hdue : copyDue s k = true) (hgood : s.work.badWord = []) :
    execKernelCodeCopyDone k s = .next (modKernel k (fun v => { v with copied := some s.tick.elapsed })
      { s with work.mem := copiedInto (kernelAt s k).codeOff (kernelAt s k).bytes (maskArrays (kernelAt s k).arrays) s.work.mem }) := by
  refine congrArg Host.Outcome.next ((if_pos hdue).trans ?_)
  have hcopies := copies_eq (kernelAt s k).codeOff (kernelAt s k).bytes (maskArrays (kernelAt s k).arrays) s hgood
  simp only [maskArrays] at hcopies ⊢
  rw [hcopies]

theorem execKernelCodeCopyDone_waits (h : copyDue s k = false) : execKernelCodeCopyDone k s = .next s :=
  by
  have hnot : ¬copyDue s k = true := by simp [h]
  exact congrArg Host.Outcome.next (if_neg hnot)

/-- What the copy leaves. -/
theorem codeCopied_holds (hwf : s.work.memWf = true)
    (hfit : (kernelAt s k).codeOff + (kernelAt s k).bytes.length ≤ 0x400000) :
    let t := modKernel k (fun v => { v with copied := some s.tick.elapsed })
      { s with work.mem := copiedInto (kernelAt s k).codeOff (kernelAt s k).bytes (maskArrays (kernelAt s k).arrays) s.work.mem }
    (∀ a, a < 64 → bit (kernelAt s k).arrays a = true →
        memRead t.work.mem (arrayBase a + (kernelAt s k).codeOff) (kernelAt s k).bytes.length = (kernelAt s k).bytes)
      ∧ (∀ x, (∀ a, a < 64 → bit (kernelAt s k).arrays a = true → x < arrayBase a + (kernelAt s k).codeOff
            ∨ arrayBase a + (kernelAt s k).codeOff + (kernelAt s k).bytes.length ≤ x) →
          tblGet 0 t.work.mem x = tblGet 0 s.work.mem x)
      ∧ kernelAt t k = { kernelAt s k with copied := some s.tick.elapsed } ∧ t.work.memWf = true ∧ t = { s with work := t.work } := by
  refine ⟨?_, ?_, ?_, ?_, rfl⟩
  · exact fun a ha hbit => memRead_copiedInto hfit _ _ (mem_maskArrays.mpr ⟨ha, hbit⟩) hwf
  · exact fun x hx => tblGet_copiedInto x _ _ fun a ha => have ⟨hlt, hbit⟩ := mem_maskArrays.mp ha; hx a hlt hbit
  · exact kernelAt_setKernel fun hdefault => Option.some_ne_none _ (congrArg Kernel.copied hdefault)
  · exact copiedInto_wf _ _ hwf

/-! ### Arrays that have been zeroed (R535) -/

variable {a : Fin 64}

/-- The state with an array's bytes and its threads' registers at zero. -/
def arrayZeroed (a : Fin 64) (s : State) : State :=
  { s with
    work.zeroing := s.work.zeroing.filter (fun z => z.1 ≠ a.val)
    work.mem := s.work.mem.filter (fun e => e.1 / 0x400000 ≠ a.val)
    work.badWord := s.work.badWord.filter (fun e => e.1 / 0x10000 ≠ a.val)
    work.thr := s.work.thr.filter (fun e => e.1 / 32 ≠ a.val) }

theorem execArrayZeroDone_eq (a : Fin 64) (s : State) : execArrayZeroDone a s = .next (
    if s.work.zeroing.any (fun z => z.1 = a.val) && (copyFirst s || !fabricWaits s a.val) then arrayZeroed a s else s) := rfl

theorem thr_arrayZeroed_self (h : Fin 32) : thr (arrayZeroed a s) ⟨a, h⟩ = {} :=
  tblGet_filter_dropped (fun _ => by
    have hkey : (32 * a.val + h.val) / 32 = a.val := by omega
    simp [thrKey, hkey]) s.work.thr

theorem thr_arrayZeroed_ne {b : Fin 64} (hb : b ≠ a) (h : Fin 32) : thr (arrayZeroed a s) ⟨b, h⟩ = thr s ⟨b, h⟩ :=
  tblGet_filter_kept (fun _ => by
    have hkey : (32 * b.val + h.val) / 32 = b.val := by omega
    simpa [thrKey, hkey] using fun hval => hb (Fin.ext hval)) s.work.thr

theorem mem_arrayZeroed_self {x : Nat} (hlow : arrayBase a.val ≤ x) (hhigh : x < arrayBase (a.val + 1)) :
    tblGet 0 (arrayZeroed a s).work.mem x = 0 :=
  tblGet_filter_dropped (fun _ => by
    simp only [arrayBase] at hlow hhigh
    have hkey : x / 0x400000 = a.val := by omega
    simp [hkey]) s.work.mem

theorem mem_arrayZeroed_ne {x : Nat} (h : x < arrayBase a.val ∨ arrayBase (a.val + 1) ≤ x) :
    tblGet 0 (arrayZeroed a s).work.mem x = tblGet 0 s.work.mem x :=
  tblGet_filter_kept (fun _ => by
    simp only [arrayBase] at h
    have hkey : x / 0x400000 ≠ a.val := by omega
    simpa using hkey) s.work.mem

end

/-! ### The statement -/

/-- Settles O30: the kernel descriptors and the sequence descriptors by their checks, the copy as writes at one offset of each array, and
the zeroing as a filter of what the array holds. -/
theorem kernelsAndSequences : Obligations.KernelsAndSequences := by
  unfold Obligations.KernelsAndSequences
  refine ⟨⟨?_, ?_, ?_, ?_, ?_, ?_⟩, ⟨?_, ?_, ?_, ?_, ?_⟩, ?_, ?_, ?_, ?_⟩
  · intro s d f k hstart ht hg hoff hok
    obtain ⟨t, hexec, hkernel, hothers, hmem, hthr, hflight, honly⟩ := kernelLoad_loads hstart ht hg hoff hok
    refine ⟨t, hexec, ?_⟩
    simp only [hkernel]
    exact ⟨rfl, rfl, rfl, rfl, rfl, rfl, rfl, rfl, rfl, rfl, rfl, hothers, hmem, hthr, hflight, honly⟩
  · exact fun s d f k hstart ht hg hbad => kernelLoad_bad hstart ht hg hbad
  · intro s d f k hstart ht hg hloaded hten hok hlib hon
    exact ⟨_, kernelRun_admits ⟨hstart, ht, hg, hloaded, hten⟩ hok hlib (.inl hon), runAdmitted_holds hstart.1⟩
  · intro s d f k hstart ht hg hloaded hten u n
    have hdesc : KernelDesc s d 0x43 f k := ⟨hstart, ht, hg, hloaded, hten⟩
    exact ⟨kernelRun_bad hdesc, kernelRun_denied hdesc, kernelRun_cancelled hdesc, kernelRun_admits hdesc⟩
  · intro e he s d f hstart
    obtain ⟨bound, body, hbound, hexec⟩ := exec_kernelRow he hstart
    rw [hexec]
    refine ⟨fun hnone => congrArg Host.Outcome.next (withKernel_no_target hnone), fun k ht => ⟨fun hgen => ?_, fun hop hgen hdenied => ?_⟩⟩
    · exact congrArg Host.Outcome.next (withKernel_stale ht hgen)
    · rw [hbound hop]
      exact congrArg Host.Outcome.next (withKernel_denied ht hgen hdenied)
  · exact fun s d f k hstart ht hg hloaded hten => kernelQuery_answers ⟨hstart, ht, hg, hloaded, hten⟩
  · intro s d f i hstart ht h u
    refine ⟨fun hown hok => ?_, fun hforeign => ?_, fun hown hbad => ?_⟩
    · exact (exec_seqSet hstart ht).trans (congrArg Host.Outcome.next
        ((if_neg (Bool.not_eq_true _ ▸ hown)).trans (if_neg (by simp [hok]))))
    · exact (exec_seqSet hstart ht).trans (congrArg Host.Outcome.next (if_pos hforeign))
    · exact (exec_seqSet hstart ht).trans (congrArg Host.Outcome.next
        ((if_neg (Bool.not_eq_true _ ▸ hown)).trans (if_pos (by simp [hbad]))))
  · intro s d f i hstart ht h u w
    refine ⟨fun hstale => ?_, fun hgen hdenied => ?_, fun hgen hvalid hten => ?_⟩
    · exact (exec_seqPages hstart ht).trans (congrArg Host.Outcome.next (if_pos hstale))
    · exact (exec_seqPages hstart ht).trans (congrArg Host.Outcome.next
        ((if_neg (not_not_intro hgen)).trans (if_pos (notOwn_iff.mpr hdenied))))
    · have hrow := (exec_seqPages hstart ht).trans (congrArg Host.Outcome.next
        ((if_neg (not_not_intro hgen)).trans (if_neg (fun hor => (notOwn_iff.mp hor).elim (by simp [hvalid]) (not_not_intro hten)))))
      refine ⟨fun hbad => ?_, fun hok hwords => ?_, fun hok hwords => ?_⟩
      · exact hrow.trans (congrArg Host.Outcome.next (if_pos (by simpa [h, seqHeader] using hbad)))
      · exact hrow.trans (congrArg Host.Outcome.next ((if_neg (by simpa [h, seqHeader] using hok)).trans (if_neg hwords)))
      · exact hrow.trans (congrArg Host.Outcome.next ((if_neg (by simpa [h, seqHeader] using hok)).trans (if_pos hwords)))
  · intro s d f i hstart ht h u
    refine ⟨fun hvalid hten => ?_, fun hdenied => ?_⟩
    · exact (exec_seqClear hstart ht).trans (congrArg Host.Outcome.next (if_neg (fun hor => (notOwn_iff.mp hor).elim (by simp [hvalid]) (not_not_intro hten))))
    · exact (exec_seqClear hstart ht).trans (congrArg Host.Outcome.next (if_pos (notOwn_iff.mpr hdenied)))
  · exact fun e he s d f hstart ht => exec_seqRow_no_target he hstart ht
  · exact fun s d ws => ⟨rfl, rfl⟩
  · intro s k hstarting hfetched hcopied hzero hfirst hgood hwf hfit
    have hwait : (copyFirst s || !(upFrom 0 64).any (fun a => bit (kernelAt s k).arrays a && fabricWaits s a)) = true := by
      rcases hfirst with hfirst | hfree
      · simp [hfirst]
      · have hnone : (upFrom 0 64).any (fun a => bit (kernelAt s k).arrays a && fabricWaits s a) = false :=
          List.any_eq_false.mpr fun a ha => by
            rw [mem_upFrom] at ha
            by_cases hbit : bit (kernelAt s k).arrays a = true
            · simp [hfree a (by omega) hbit]
            · simp [hbit]
        simp [hnone]
    have hdue : copyDue s k = true := by simp [copyDue, hstarting, hfetched, hcopied, hzero, hwait]
    exact ⟨_, execKernelCodeCopyDone_copies hdue hgood, codeCopied_holds hwf hfit⟩
  · intro s k h
    refine execKernelCodeCopyDone_waits ?_
    rcases h with h | h | h | h
    · simp [copyDue, h]
    · simp only [copyDue, decide_eq_false h, Bool.and_false, Bool.false_and]
    · simp [copyDue, Option.isSome_iff_ne_none.mp h]
    · simp [copyDue, h]
  · intro s a hzeroing hfree
    have hdue : (s.work.zeroing.any (fun z => z.1 = a.val) && (copyFirst s || !fabricWaits s a.val)) = true := by
      rw [hzeroing]
      simpa using hfree
    refine ⟨arrayZeroed a s, congrArg Host.Outcome.next (if_pos hdue), fun x => mem_arrayZeroed_self, fun x => mem_arrayZeroed_ne,
      thr_arrayZeroed_self, fun b h hb => thr_arrayZeroed_ne hb h, fun hwf => tblWf_filter _ 0 _ hwf, rfl⟩
  · intro s a h
    refine congrArg Host.Outcome.next (if_neg ?_)
    rcases h with h | ⟨hfirst, hwaits⟩
    · simp [h]
    · simp [hfirst, hwaits]

end Machine
end Sys2Proof
end
section
/-!
PROOF. LAUNCH and ATTN_QUERY are admitted, runs start and expire (O31; R549, R550, R552, R553, R555, R564 to R566).
-/
namespace Sys2Proof
namespace Machine
set_option Elab.async false

/-! ### LAUNCH (R549 to R552) -/

section
variable {s : State} {port : PortId} {p : Packet} {k : Fin 256}

/-- The packet is of the opcode, and none that it would have to follow waits beside it (R550). -/
structure Launched (s : State) (port : PortId) (p : Packet) (op : BitVec 8) : Prop where
  op : p.opcode = op
  first : launchFirst s port p = true

theorem kernelAt_takeDelivered : kernelAt (takeDelivered p s) k = kernelAt s k := by
  obtain ⟨_, htaken⟩ := takeDelivered_core p s
  rw [htaken]
  rfl

/-- The checks of a LAUNCH that come before those it shares with queries (Table 15-9). -/
def launchFits (s : State) (k : Fin 256) (p : Packet) : Bool :=
  (kernelAt s k).loaded && (kernelAt s k).tenant = p.tenant && (kernelAt s k).launchEn && (kernelAt s k).lib = 0
    && launchOk (kernelAt s k) p

/-- The kernel with the run that a LAUNCH asks for. -/
def launchRun (s : State) (k : Fin 256) (p : Packet) : BitVec 32 × State :=
  let w := leAt p.payload 0 8
  admitRun k (.pkt (bitsOf w 24 1 = 1) (BitVec.ofNat 64 (leAt p.payload 8 8))) (bitsOf w 0 12) (slice p.payload 32 (bitsOf w 16 8)) true s

theorem exec_launchPkt (h : Launched s port p 0x10) (hk : addrTarget p 8 = k.val) : exec (.launchPkt port p) s = .next (
    let u := takeDelivered p s
    if launchFits s k p = false then launchRefuse k (localPort u p) stDenied p u
    else match admitStatus u k p.gen (fnGen u (.kernel k)) p.tenant with
      | some st => launchRefuse k (localPort u p) st p u
      | none =>
        let v := launchRun u k p
        inject (localPort u p) { answerTo v.2 0x90 p with addr := v.1.setWidth 64, itemLen := 0 } v.2) := by
  obtain ⟨hop, hfirst⟩ := h
  have hslot : (⟨addrTarget p 8, Nat.mod_lt _ (by decide)⟩ : Fin 256) = k := Fin.ext hk
  have hfits : (!(kernelAt s k).loaded || decide ((kernelAt s k).tenant ≠ p.tenant) || !(kernelAt s k).launchEn
      || decide ((kernelAt s k).lib ≠ 0) || !launchOk (kernelAt s k) p) = !launchFits s k p := by
    simp [launchFits, Bool.not_and]
  refine congrArg Host.Outcome.next ((if_pos hop).trans ?_)
  rw [launchArrive, hfirst, hslot]
  simp only [Bool.not_true, Bool.false_eq_true, if_false, kernelAt_takeDelivered, hfits]
  cases launchFits s k p <;> rfl

theorem launchPkt_refused (h : Launched s port p 0x10) (hk : addrTarget p 8 = k.val) (hfits : launchFits s k p = false) :
    exec (.launchPkt port p) s = .next (launchRefuse k (localPort (takeDelivered p s) p) stDenied p (takeDelivered p s)) :=
  (exec_launchPkt h hk).trans (congrArg Host.Outcome.next (if_pos hfits))

theorem launchPkt_turned (h : Launched s port p 0x10) (hk : addrTarget p 8 = k.val) (hfits : launchFits s k p = true) {st : BitVec 8}
    (hst : admitStatus (takeDelivered p s) k p.gen (fnGen (takeDelivered p s) (.kernel k)) p.tenant = some st) :
    exec (.launchPkt port p) s = .next (launchRefuse k (localPort (takeDelivered p s) p) st p (takeDelivered p s)) := by
  refine (exec_launchPkt h hk).trans (congrArg Host.Outcome.next ((if_neg (by simp [hfits])).trans ?_))
  rw [hst]

theorem launchPkt_admits (h : Launched s port p 0x10) (hk : addrTarget p 8 = k.val) (hfits : launchFits s k p = true)
    (hst : admitStatus (takeDelivered p s) k p.gen (fnGen (takeDelivered p s) (.kernel k)) p.tenant = none) :
    exec (.launchPkt port p) s = .next (
      let v := launchRun (takeDelivered p s) k p
      inject (localPort (takeDelivered p s) p) { answerTo v.2 0x90 p with addr := v.1.setWidth 64, itemLen := 0 } v.2) := by
  refine (exec_launchPkt h hk).trans (congrArg Host.Outcome.next ((if_neg (by simp [hfits])).trans ?_))
  rw [hst]

theorem admitStatus_takeDelivered (gen cur : BitVec 16) (tenant : BitVec 8) :
    admitStatus (takeDelivered p s) k gen cur tenant = admitStatus s k gen cur tenant := by
  obtain ⟨_, htaken⟩ := takeDelivered_core p s
  rw [htaken]
  rfl

theorem fnGen_takeDelivered (f : FnId) : fnGen (takeDelivered p s) f = fnGen s f := by
  obtain ⟨_, htaken⟩ := takeDelivered_core p s
  rw [htaken]
  rfl

/-- A LAUNCH admitted adds its run to its kernel, and changes no memory. -/
theorem launchPkt_holds (out : PortId) (ans : Packet) (b : Launcher) (n : Nat) (args : List Byte) (ready : Bool) :
    let t := inject out ans (admitRun k b n args ready (takeDelivered p s)).2
    kernelAt t k = withRun s k b n args ready ∧ t.work.mem = s.work.mem ∧ t.larder = s.larder := by
  obtain ⟨_, htaken⟩ := takeDelivered_core p s
  obtain ⟨hadmit, hkernel⟩ := admitRun_holds k b n args ready (takeDelivered p s)
  obtain ⟨_, _, _, _, hsent⟩ := inject_core out ans (admitRun k b n args ready (takeDelivered p s)).2
  rw [htaken] at hadmit hkernel hsent ⊢
  rw [hsent, hadmit]
  rw [hadmit] at hkernel
  exact ⟨hkernel, rfl, rfl⟩

theorem launchRefuse_kept (out : PortId) (st : BitVec 8) :
    (launchRefuse k out st p (takeDelivered p s)).work = s.work ∧ (launchRefuse k out st p (takeDelivered p s)).larder = s.larder := by
  have hbump : CoreOnly (takeDelivered p s) (bump (kernelPage k.val) 1 1 (takeDelivered p s)) := ⟨_, _, _, _, rfl⟩
  obtain ⟨_, _, _, _, hkept⟩ := (((takeDelivered_coreOnly p s).trans hbump).trans (countRefused_core p.tenant st _)).trans
    (sendFail_core out st p _)
  rw [launchRefuse, hkept]
  exact ⟨rfl, rfl⟩

theorem launchPkt_none (h : p.opcode ≠ 0x10 ∨ launchFirst s port p = false) : NoEffect (.launchPkt port p) s := by
  refine congrArg Host.Outcome.next ?_
  by_cases hop : p.opcode = 0x10
  · rw [if_pos hop, launchArrive, h.resolve_left (not_not_intro hop)]
    rfl
  · exact if_neg hop

/-! ### ATTN_QUERY (R564 to R566) -/

/-- The pages that a query's tokens touch under its entry's header. -/
def queryRange (h : SeqHdr) (p : Packet) : Nat × Nat :=
  queryPages (tokensPerPage (specOf h.kvFmt).fmt h.headDim) (leAt p.payload 4 4) (leAt p.payload 8 4)

/-- The page words of a query. -/
def queryPageWords (s : State) (p : Packet) (h : SeqHdr) : List Word :=
  queryWords s (addrTarget p 12) h (leAt p.payload 0 2) (queryRange h p)

/-- The checks of a query that come before those it shares with launches (R564, R565). -/
def queryFits (s : State) (k : Fin 256) (p : Packet) (h : SeqHdr) : Bool :=
  h.valid && h.tenant = p.tenant && (kernelAt s k).loaded && (kernelAt s k).lib = 1 && (kernelAt s k).tenant = p.tenant
    && queryOk h p && (queryPageWords s p h).all (fun w => bit w 0)

/-- A query turned away with a status. -/
def queryDenied (s : State) (p : Packet) (st : BitVec 8) : State :=
  sendFail (localPort (takeDelivered p s) p) st p (countRefused p.tenant st (takeDelivered p s))

theorem exec_attnQuery (h : Launched s port p 0x11) (hk : (seqHeader s (addrTarget p 12)).kernel = k.val) :
    exec (.attnQuery port p) s = .next (
      let v := seqHeader s (addrTarget p 12)
      if queryFits s k p v = false then queryDenied s p stDenied
      else match admitStatus (takeDelivered p s) k p.gen v.gen p.tenant with
        | some st => queryDenied s p st
        | none => (admitRun k (.query p (specOf v.kvFmt).fmt v.headDim (queryPageWords s p v))
            (max 1 (min (queryRange v p).2 (kernelAt s k).threadsMax)) [] true (takeDelivered p s)).2) := by
  obtain ⟨hop, hfirst⟩ := h
  have hheader : seqFields (seqHdr (takeDelivered p s) (addrTarget p 12)) = seqHeader s (addrTarget p 12) := by
    obtain ⟨_, htaken⟩ := takeDelivered_core p s
    rw [htaken]
    rfl
  have hwords : ∀ v r, queryWords (takeDelivered p s) (addrTarget p 12) v (leAt p.payload 0 2) r
      = queryWords s (addrTarget p 12) v (leAt p.payload 0 2) r := by
    obtain ⟨_, htaken⟩ := takeDelivered_core p s
    rw [htaken]
    exact fun _ _ => rfl
  generalize hv : seqHeader s (addrTarget p 12) = v at hk hheader ⊢
  have hfits : (!v.valid || decide (v.tenant ≠ p.tenant) || !(kernelAt s k).loaded || decide ((kernelAt s k).lib ≠ 1)
      || decide ((kernelAt s k).tenant ≠ p.tenant) || !queryOk v p || !(queryPageWords s p v).all (fun w => bit w 0))
        = !queryFits s k p v := by
    simp [queryFits, Bool.not_and]
  refine congrArg Host.Outcome.next ((if_pos hop).trans ?_)
  unfold attnArrive
  rw [if_neg (by simp [hfirst])]
  extract_lets u out deny i h j x b r ws
  have hdeny : deny = queryDenied s p := rfl
  have hh : h = v := hheader
  have hj : j = k := Fin.ext (by simp only [j, hh, hk]; omega)
  have hx : x = kernelAt s k := hj ▸ kernelAt_takeDelivered
  have hw : ∀ v r, queryWords u i v (leAt p.payload 0 2) r = queryWords s i v (leAt p.payload 0 2) r := hwords
  have hws : ws = queryWords s i h (leAt p.payload 0 2) (queryRange h p) := hw ..
  clear_value ws h j x deny
  subst hdeny hh hj hx hws
  by_cases hearly : (!h.valid || decide (h.tenant ≠ p.tenant) || !(kernelAt s j).loaded || decide ((kernelAt s j).lib ≠ 1)
      || decide ((kernelAt s j).tenant ≠ p.tenant) || !queryOk h p) = true
  · have hno : queryFits s j p h = false := by
      rw [hearly] at hfits
      simpa using hfits
    rw [if_pos hearly, if_pos hno]
  · rw [if_neg hearly]
    rw [(Bool.not_eq_true _).mp hearly, Bool.false_or] at hfits
    change (if (!(queryPageWords s p h).all (fun w => bit w 0)) = true then _ else _) = _
    rw [hfits]
    cases hq : queryFits s j p h with
    | false => rw [if_pos (Bool.not_false), if_pos rfl]
    | true =>
      rw [if_neg (by simp), if_neg (by simp)]
      generalize admitStatus u j p.gen h.gen p.tenant = st
      cases st with
      | none => rfl
      | some st => rfl

theorem attnQuery_none (h : p.opcode ≠ 0x11 ∨ launchFirst s port p = false) : NoEffect (.attnQuery port p) s := by
  refine congrArg Host.Outcome.next ?_
  by_cases hop : p.opcode = 0x11
  · rw [if_pos hop, attnArrive, h.resolve_left (not_not_intro hop)]
    rfl
  · exact if_neg hop

end

/-! ### Starts of runs (R553) -/

section
variable {s : State} {k : Fin 256} {r : Run}

/-- Threads set one after another hold what was set, where none is set twice. -/
theorem thr_setThreads {g : Thr × Nat → Thread} (hg : ∀ e, (g e).active = true) : ∀ (l : List (Thr × Nat)) (s : State),
    (l.map Prod.fst).Nodup → ∀ e ∈ l, thr (l.foldl (fun s e => setThr e.1 (g e) s) s) e.1 = g e
  | [], _, _, _, h => by cases h
  | x :: l, s, hnodup, e, he => by
    rw [List.map_cons, List.nodup_cons] at hnodup
    obtain ⟨hnew, hrest⟩ := hnodup
    obtain rfl | hmem := List.mem_cons.mp he
    · have hkeep : ∀ (l : List (Thr × Nat)) (s : State), e.1 ∉ l.map Prod.fst →
          thr (l.foldl (fun s e => setThr e.1 (g e) s) s) e.1 = thr s e.1 := by
        intro l
        induction l with
        | nil => exact fun _ _ => rfl
        | cons y l ih =>
          intro s hnot
          rw [List.map_cons, List.mem_cons, not_or] at hnot
          rw [List.foldl_cons, ih _ hnot.2, thr_setThr_ne hnot.1]
      rw [List.foldl_cons, hkeep l _ hnew, thr_setThr_self e.1 (hg e)]
    · exact thr_setThreads hg l _ hrest e hmem

theorem filterMap_guard {α β : Type} (f : α → β) (c : β → Bool) (l : List α) :
    l.filterMap (fun n => if c (f n) = true then some (f n) else none) = (l.map f).filter c := by
  induction l with
  | nil => rfl
  | cons x l ih => by_cases hx : c (f x) = true <;> simp [hx, ih]

/-- Hardware thread number `n` in the order in which free ones are taken. -/
def thrNumber (n : Nat) : Thr := ⟨⟨n % 64, Nat.mod_lt _ (by decide)⟩, ⟨n / 64 % 32, Nat.mod_lt _ (by decide)⟩⟩

/-- The free threads are listed once each. -/
theorem nodup_freeThreadsOf (m : Word) : (freeThreadsOf s m).Nodup := by
  have hlist : freeThreadsOf s m = ((upFrom 0 2048).map thrNumber).filter (fun t => bit m t.array.val && !(thr s t).active) :=
    filterMap_guard thrNumber (fun t => bit m t.array.val && !(thr s t).active) _
  rw [hlist]
  refine List.Nodup.filter _ (List.Nodup.map_on (fun i hi j hj hij => ?_) (nodup_upFrom 0 2048))
  rw [mem_upFrom] at hi hj
  simp only [thrNumber, Thr.mk.injEq, Fin.mk.injEq] at hij
  omega

/-- Only the threads' registers change when a run's threads are placed. -/
theorem placeThreads_only (k : Fin 256) (v : Kernel) (r : Run) (ts : List Thr) (s : State) :
    ∃ x, placeThreads k v r ts s = { s with work.thr := x } := by
  unfold placeThreads
  generalize ts.zip (upFrom 0 ts.length) = l
  induction l generalizing s with
  | nil => exact ⟨_, rfl⟩
  | cons e l ih =>
    obtain ⟨x, hx⟩ := ih (setThr e.1 (startThread k v r e.1 e.2) s)
    exact ⟨x, hx⟩

theorem thr_placeThreads (v : Kernel) {ts : List Thr} (hnodup : ts.Nodup) {i : Nat} {x : Thr} (hx : ts[i]? = some x) :
    thr (placeThreads k v r ts s) x = startThread k v r x i := by
  have hfst : (ts.zip (upFrom 0 ts.length)).map Prod.fst = ts := List.map_fst_zip (by simp [upFrom_eq_range'])
  have hmem : (x, i) ∈ ts.zip (upFrom 0 ts.length) := by
    obtain ⟨hlt, hget⟩ := List.getElem?_eq_some_iff.mp hx
    refine List.mem_iff_getElem?.mpr ⟨i, ?_⟩
    rw [List.getElem?_zip_eq_some]
    exact ⟨hx, by simp [upFrom_zero, hlt]⟩
  exact thr_setThreads (g := fun e => startThread k v r e.1 e.2) (fun _ => rfl) _ s (hfst.symm ▸ hnodup) _ hmem

/-- The threads on which a run starts. -/
def runThreadsFree (s : State) (k : Fin 256) (r : Run) : List Thr := (freeThreadsOf s (kernelAt s k).arrays).take r.threads

/-- The run as it starts. -/
def runStarted (s : State) (r : Run) : Run := { r with started := true, startTick := s.tick.elapsed, startNs := s.tick.ns }

/-- The state with a run on its threads. -/
def runPlaced (s : State) (k : Fin 256) (r : Run) : State :=
  modWorkRun k r.num (runStarted s)
    (bump (kernelPage k.val) 3 r.threads (bump (kernelPage k.val) 2 1 (placeThreads k (kernelAt s k) r (runThreadsFree s k r) s)))

theorem runStart_eq (hwaiting : waitingRun s k = some r) : runStart k s =
    if (runThreadsFree s k r).length < r.threads || yields s k (kernelAt s k) then s
    else if (kernelAt s k).lib = 0 then runPlaced s k r
    else match libWork ((runThreadsFree s k r).headD ⟨0, 0⟩) k (kernelAt s k) r (runPlaced s k r) with
      | .ok bs w => settleRun k r.num (modWorkRun k r.num (fun r => { r with out := bs }) w)
      | .bad c a w => fault ((runThreadsFree s k r).headD ⟨0, 0⟩) c a w := by
  rw [runStart, hwaiting]
  rfl

theorem runStart_ready (hwaiting : waitingRun s k = some r) (hroom : r.threads ≤ (freeThreadsOf s (kernelAt s k).arrays).length)
    (hfirst : yields s k (kernelAt s k) = false) : runStart k s =
    if (kernelAt s k).lib = 0 then runPlaced s k r
    else match libWork ((runThreadsFree s k r).headD ⟨0, 0⟩) k (kernelAt s k) r (runPlaced s k r) with
      | .ok bs w => settleRun k r.num (modWorkRun k r.num (fun r => { r with out := bs }) w)
      | .bad c a w => fault ((runThreadsFree s k r).headD ⟨0, 0⟩) c a w := by
  refine (runStart_eq hwaiting).trans (if_neg ?_)
  simp [runThreadsFree, hroom, hfirst]

theorem runStart_none (h : ∀ r, waitingRun s k = some r →
    (freeThreadsOf s (kernelAt s k).arrays).length < r.threads ∨ yields s k (kernelAt s k) = true) : runStart k s = s := by
  cases hwaiting : waitingRun s k with
  | none => simp [runStart, hwaiting]
  | some r =>
    refine (runStart_eq hwaiting).trans (if_pos ?_)
    rcases h r hwaiting with h | h
    · simp [runThreadsFree, h]
    · simp [h]

/-- A run placed: it has started, and each of its threads begins with its index. -/
theorem runPlaced_holds (hrun : workRun s k r.num = some r) :
    workRun (runPlaced s k r) k r.num = some (runStarted s r)
      ∧ (∀ (i : Nat) (x : Thr), (freeThreadsOf s (kernelAt s k).arrays)[i]? = some x → i < r.threads →
          thr (runPlaced s k r) x = startThread k (kernelAt s k) r x i)
      ∧ (runPlaced s k r).work.mem = s.work.mem
      ∧ runPlaced s k r = { s with work := (runPlaced s k r).work, counts := (runPlaced s k r).counts } := by
  obtain ⟨x, hx⟩ := placeThreads_only k (kernelAt s k) r (runThreadsFree s k r) s
  refine ⟨?_, ?_, ?_, ?_⟩
  · rw [runPlaced, hx]
    exact workRun_modWorkRun (f := runStarted s) (fun _ => rfl) hrun
  · intro i y hy hi
    have htaken : (runThreadsFree s k r)[i]? = some y := by rw [runThreadsFree, List.getElem?_take, if_pos hi]; exact hy
    exact thr_placeThreads (kernelAt s k) ((nodup_freeThreadsOf _).sublist (List.take_sublist ..)) htaken
  · rw [runPlaced, hx]
    rfl
  · rw [runPlaced, hx]
    rfl

/-! ### Runs past their limit (R555) -/

theorem execRunLimitExpired_eq {n : BitVec 32} (hrun : workRun s k n = some r) : exec (.runLimitExpired k n) s = .next (
    if r.started && r.status = stOk && decide ((kernelAt s k).runLimit ≤ ageOf s r.startTick) then
      match limitThread s k r with
      | some t => fault t 0x07 (thr s t).pc s
      | none => s
    else s) := by
  refine congrArg Host.Outcome.next ?_
  rw [hrun] <;> rfl

end

/-- Settles O31: a launch and a query by their checks; a run starts where its threads are free, each thread set once; and one past its
limit faults. -/
theorem runsAdmittedStartedExpired : Obligations.RunsAdmittedStartedExpired := by
  unfold Obligations.RunsAdmittedStartedExpired
  refine ⟨⟨?_, ?_, ?_, ?_, ?_, ?_, ?_⟩, ?_, ?_, ?_, ?_, ?_⟩
  · intro s port p k hop hfirst hk u w fits
    have hlaunch : Launched s port p 0x10 := ⟨hop, hfirst⟩
    refine ⟨fun hfits hst => ?_, fun hfits => launchPkt_refused hlaunch hk hfits,
      fun st hfits hst => launchPkt_turned hlaunch hk hfits hst⟩
    rw [launchPkt_admits hlaunch hk hfits hst]
    have hnum : (launchRun (takeDelivered p s) k p).1 = (kernelAt s k).nextRun := congrArg Kernel.nextRun kernelAt_takeDelivered
    simp only [hnum]
    rfl
  · intro s port p k hop hfirst hk hloaded hten hen hlib hok hst w
    have hfits : launchFits s k p = true := by simp [launchFits, hloaded, hten, hen, hlib, hok]
    rw [← admitStatus_takeDelivered, ← fnGen_takeDelivered] at hst
    exact ⟨_, launchPkt_admits ⟨hop, hfirst⟩ hk hfits hst, launchPkt_holds ..⟩
  · intro s port p k hop hfirst hk hen
    exact ⟨_, launchPkt_refused ⟨hop, hfirst⟩ hk (by simp [launchFits, hen]), launchRefuse_kept ..⟩
  · exact fun s port p h => launchPkt_none h
  · intro s port p k hop hfirst u i h r ws fits deny hk
    have hexec := exec_attnQuery ⟨hop, hfirst⟩ hk
    refine ⟨fun hfits hst => ?_, fun hfits => ?_, fun st hfits hst => ?_⟩
    · refine hexec.trans (congrArg Host.Outcome.next ((if_neg (Bool.not_eq_false _ ▸ hfits)).trans ?_))
      change (match admitStatus u k p.gen h.gen p.tenant with | some st => _ | none => _) = _
      rw [hst]
      rfl
    · exact hexec.trans (congrArg Host.Outcome.next (if_pos hfits))
    · refine hexec.trans (congrArg Host.Outcome.next ((if_neg (Bool.not_eq_false _ ▸ hfits)).trans ?_))
      change (match admitStatus u k p.gen h.gen p.tenant with | some st => _ | none => _) = _
      rw [hst]
      rfl
  · exact fun s port p h => attnQuery_none h
  · exact fun s k b n args ready => ⟨rfl, (admitRun_holds ..).2, rfl⟩
  · intro s k r hwaiting hrun hlib hroom hfirst
    exact ⟨_, congrArg Host.Outcome.next ((runStart_ready hwaiting hroom hfirst).trans (if_pos hlib)), runPlaced_holds hrun⟩
  · intro s k r hwaiting hroom hfirst ts x u
    have hstart := runStart_ready hwaiting hroom hfirst
    refine ⟨fun hlib => congrArg Host.Outcome.next (hstart.trans (if_pos hlib)), fun bs w hlib hwork => ?_, fun c a w hlib hwork => ?_⟩
    · rw [if_neg hlib, show libWork ((runThreadsFree s k r).headD ⟨0, 0⟩) k (kernelAt s k) r (runPlaced s k r) = _ from hwork] at hstart
      exact congrArg Host.Outcome.next hstart
    · rw [if_neg hlib, show libWork ((runThreadsFree s k r).headD ⟨0, 0⟩) k (kernelAt s k) r (runPlaced s k r) = _ from hwork] at hstart
      exact congrArg Host.Outcome.next hstart
  · exact fun s k h => congrArg Host.Outcome.next (runStart_none h)
  · intro s k n r x hrun hstarted hstatus hlimit hthread
    rw [execRunLimitExpired_eq hrun, if_pos (by simp [hstarted, hstatus, hlimit]), hthread]
  · intro s k n r hrun h
    refine (execRunLimitExpired_eq hrun).trans (congrArg Host.Outcome.next (if_neg ?_))
    rcases h with h | h | h
    · simp [Nat.not_le.2 h]
    · simp [h]
    · rw [decide_eq_false h, Bool.and_false, Bool.false_and]
      exact Bool.false_ne_true

end Machine
end Sys2Proof
end

section
/-!
PROOF. What the operations of the gateway and of the Ethernet ports change (chapter 17): one rule for a queue pair, for a port, for
the packets that a queue pair sends and for the step of its oldest outgoing descriptor.
-/
namespace Sys2Proof
namespace Machine
set_option Elab.async false

/-! ### Queue pairs and ports -/

section
variable {s : State} {q j : Fin 16384} {l k : Fin 16}

theorem tblSet_ne_nil {α : Type} [DecidableEq α] {d v : α} (h : v ≠ d) (t : Tbl α) (i : Nat) : tblSet d t i v ≠ [] := by
  rw [tblSet, if_neg h]
  cases t with
  | nil => exact List.cons_ne_nil _ _
  | cons e t =>
    obtain ⟨a, w⟩ := e
    simp only [tblInsert]
    split
    · exact List.cons_ne_nil _ _
    · split <;> exact List.cons_ne_nil _ _

/-- A queue pair with a context is not the queue pair of reset. -/
theorem Qp.ne_of_ctx {x : Qp} {c : QpCtx} (h : x.ctx = some c) : x ≠ {} := by
  rintro rfl
  cases h

theorem EthPort.ne_of_up {e : EthPort} (h : e.up = true) : e ≠ {} := by
  rintro rfl
  cases h

theorem qpOf_modQp {f : Qp → Qp} (h : f (qpOf s q) ≠ {}) : qpOf (modQp q f s) q = f (qpOf s q) :=
  tblGet_tblSet_of_ne ({} : Qp) s.gw.qp q.val _ h

theorem qpOf_modQp_ctx {f : Qp → Qp} {c : QpCtx} (h : (f (qpOf s q)).ctx = some c) : qpOf (modQp q f s) q = f (qpOf s q) :=
  qpOf_modQp (Qp.ne_of_ctx h)

theorem qpOf_modQp_ne (h : j ≠ q) (f : Qp → Qp) (s : State) : qpOf (modQp q f s) j = qpOf s j :=
  tblGet_tblSet_ne ({} : Qp) s.gw.qp q.val j.val _ (fun he => h (Fin.ext he))

theorem ethPort_modEth {f : EthPort → EthPort} (h : f (ethPort s l) ≠ {}) : ethPort (modEth l f s) l = f (ethPort s l) :=
  tblGet_tblSet_of_ne ({} : EthPort) s.gw.port l.val _ h

theorem ethPort_modEth_ne (h : k ≠ l) (f : EthPort → EthPort) (s : State) : ethPort (modEth l f s) k = ethPort s k :=
  tblGet_tblSet_ne ({} : EthPort) s.gw.port l.val k.val _ (fun he => h (Fin.ext he))

end

/-! ### Frames that come in (R602 to R605) -/

/-- A frame that comes in changes its meter, the counts, and what the Peephole writes or reports. -/
def FrameTaken (s t : State) : Prop := ∃ e r n m x, t = { s with enz := e, rings := r, counts := n, larder := m, meters := x }

theorem FrameTaken.eq {s t : State} (h : FrameTaken s t) :
    t = { s with enz := t.enz, rings := t.rings, counts := t.counts, larder := t.larder, meters := t.meters } := by
  obtain ⟨_, _, _, _, _, rfl⟩ := h
  rfl

theorem ethCame_eq (l disc bs) (s : State) : ∃ n, ethCame l disc bs s
    = peepFrame (ethLink l) false disc bs { s with counts := { s.counts with now := n } } := by
  unfold ethCame bumpEth bump
  exact ⟨_, rfl⟩

theorem ethCame_host (l disc bs) (s : State) : ∃ m, HostOnly { s with larder := m } (ethCame l disc bs s) := by
  obtain ⟨n, hcame⟩ := ethCame_eq l disc bs s
  obtain ⟨m, hpeep⟩ := peepFrame_host (ethLink l) false disc bs { s with counts := { s.counts with now := n } }
  exact ⟨m, hcame ▸ HostOnly.trans ⟨_, _, _, rfl⟩ hpeep⟩

theorem meterRun_eq (i b y) (s : State) : ∃ m, (meterRun i b y s).2 = { s with meters := m } := ⟨_, rfl⟩

theorem ethMeter_eq (l bs) (s : State) : ∃ m n, (ethMeter l bs s).2 = { s with meters := m, counts := n } := by
  unfold ethMeter
  extract_lets c i
  obtain ⟨m, hm⟩ := meterRun_eq i bs.length (frameDei bs) s
  generalize meterRun i bs.length (frameDei bs) s = p at hm
  obtain ⟨col, u⟩ := p
  dsimp only at hm
  subst hm
  dsimp -zeta only
  extract_lets k u
  split
  · exact ⟨_, _, rfl⟩
  · split <;> exact ⟨_, _, rfl⟩
  · exact ⟨_, _, rfl⟩

/-- A frame that its class lets in finds room in its class's share (R604, R605). -/
theorem ethPass_taken (l bs) (s : State) : FrameTaken s (ethPass l bs s).2
    ∧ ∀ c ∈ (ethPass l bs s).1, heldUnits s l (frameClass s l bs) + frameUnits bs ≤ classShare s l (frameClass s l bs) := by
  obtain ⟨m, n, hmeter⟩ := ethMeter_eq l bs s
  have hcame : ∀ disc, FrameTaken s (ethCame l disc bs (ethMeter l bs s).2) := fun disc => by
    obtain ⟨x, _, _, _, he⟩ := ethCame_host l disc bs (ethMeter l bs s).2
    rw [he, hmeter]
    exact ⟨_, _, _, _, _, rfl⟩
  unfold ethPass
  generalize ethMeter l bs s = p at hmeter hcame
  obtain ⟨r, u⟩ := p
  dsimp only at hmeter hcame
  cases r with
  | none => exact ⟨hcame true, by simp⟩
  | some ce =>
    dsimp only
    split
    · exact ⟨hcame true, by simp⟩
    · next hroom =>
      have hkeep : heldUnits u l (frameClass u l bs) = heldUnits s l (frameClass s l bs)
          ∧ classShare u l (frameClass u l bs) = classShare s l (frameClass s l bs) := by
        rw [hmeter]
        exact ⟨rfl, rfl⟩
      refine ⟨hcame false, fun _ _ => ?_⟩
      rw [hkeep.1, hkeep.2] at hroom
      omega

/-! ### Frames that a port sends -/

/-- A frame at the end of a class's egress queue. -/
def queued (v : Fin 8) (f : EthTx) (e : EthPort) : EthPort :=
  { e with queue := tblSet [] e.queue v.val (tblGet [] e.queue v.val ++ [f]) }

theorem queued_ne (v f e) : queued v f e ≠ {} := fun h =>
  tblSet_ne_nil (by simp) _ _ (congrArg EthPort.queue h)

/-- A frame enters its queue, with CE where it is marked (R349, R605). -/
theorem ethSend_eq (l v f) (s : State) : ∃ g n, ethSend l v f s = modEth l (queued v g) { s with counts := n }
    ∧ (markFrame f = none → g = f) := by
  unfold ethSend
  extract_lets x m enter
  split
  · exact ⟨f, s.counts, rfl, fun _ => rfl⟩
  · split
    next g hg => exact ⟨g, _, rfl, fun h => nomatch hg.symm.trans h⟩
    next => exact ⟨f, _, rfl, fun _ => rfl⟩

/-! ### Packets that a queue pair sends (R624, R627) -/

/-- A queue pair has sent packets: it differs in those that are ready and in its budget, the ports in their egress queues; apart from
the gateway only the counts differ. -/
structure QpSent (q : Fin 16384) (s t : State) : Prop where
  only : ∃ g n, t = { s with gw := g, counts := n }
  others : OtherQps q s t
  ports : ∀ l, ∃ x, ethPort t l = { ethPort s l with queue := x }
  own : ∃ r b, qpOf t q = { qpOf s q with ready := r, budget := b }

theorem QpSent.refl (q) (s : State) : QpSent q s s := ⟨⟨_, _, rfl⟩, fun _ _ => rfl, fun _ => ⟨_, rfl⟩, _, _, rfl⟩

theorem QpSent.trans {q : Fin 16384} {s t u : State} (h : QpSent q s t) (k : QpSent q t u) : QpSent q s u := by
  obtain ⟨⟨_, _, rfl⟩, ho, hp, r, b, hq⟩ := h
  obtain ⟨⟨_, _, rfl⟩, ko, kp, r', b', kq⟩ := k
  refine ⟨⟨_, _, rfl⟩, fun j hj => (ko j hj).trans (ho j hj), fun l => ?_, r', b', by rw [kq, hq]⟩
  obtain ⟨x, hx⟩ := hp l
  obtain ⟨y, hy⟩ := kp l
  exact ⟨y, by rw [hy, hx]⟩

theorem ethSend_sent (q l v f) (s : State) : QpSent q s (ethSend l v f s) := by
  obtain ⟨g, n, he, -⟩ := ethSend_eq l v f s
  rw [he]
  refine ⟨⟨_, _, rfl⟩, fun _ _ => rfl, fun k => ?_, _, _, rfl⟩
  by_cases h : k = l
  · subst h
    exact ⟨_, ethPort_modEth (s := { s with counts := n }) (queued_ne v g _)⟩
  · exact ⟨_, ethPort_modEth_ne h _ _⟩

/-- The ready packets and the budget of a queue pair change. -/
theorem QpSent.of_modQp {q : Fin 16384} {s : State} {f : Qp → Qp} (hne : f (qpOf s q) ≠ {})
    (h : ∃ r b, f (qpOf s q) = { qpOf s q with ready := r, budget := b }) : QpSent q s (modQp q f s) := by
  obtain ⟨r, b, hf⟩ := h
  exact ⟨⟨_, _, rfl⟩, fun j hj => qpOf_modQp_ne hj f s, fun _ => ⟨_, rfl⟩, r, b, (qpOf_modQp hne).trans hf⟩

theorem pumpOut_sent (q) : ∀ (n : Nat) (s : State), QpSent q s (pumpOut q n s)
  | 0, s => .refl q s
  | n + 1, s => by
    unfold pumpOut
    extract_lets x
    split
    · next c p t hc _ =>
      split
      · exact (QpSent.of_modQp (Qp.ne_of_ctx (c := c) hc) ⟨_, _, rfl⟩).trans ((ethSend_sent ..).trans (pumpOut_sent q n _))
      · exact .refl q s
    · exact .refl q s

theorem qpSend_sent (q p) (s : State) : QpSent q s (qpSend q p s) :=
  (QpSent.of_modQp (fun h => by simpa using congrArg Qp.ready h) ⟨_, _, rfl⟩).trans (pumpOut_sent ..)

theorem QpSent.foldl {α : Type} {q : Fin 16384} {f : State → α → State} (h : ∀ s x, QpSent q s (f s x)) :
    ∀ (l : List α) (s : State), QpSent q s (l.foldl f s)
  | [], s => .refl q s
  | x :: l, s => (h s x).trans (foldl h l (f s x))

section
variable {q : Fin 16384} {s t : State}

theorem QpSent.ctx (h : QpSent q s t) : (qpOf t q).ctx = (qpOf s q).ctx := by
  obtain ⟨r, b, he⟩ := h.own
  rw [he]

theorem QpSent.outs (h : QpSent q s t) : (qpOf t q).outs = (qpOf s q).outs := by
  obtain ⟨r, b, he⟩ := h.own
  rw [he]

theorem QpSent.ins (h : QpSent q s t) : (qpOf t q).ins = (qpOf s q).ins := by
  obtain ⟨r, b, he⟩ := h.own
  rw [he]

end

/-! ### The step of an outgoing descriptor (R620) -/

/-- The descriptor with the PSN at which it starts, or has started. -/
def outBegun (x : Qp) (o : GwOut) : GwOut := { o with started := true, psn := if o.started then o.psn else x.sndPsn }

/-- A descriptor that starts takes its PSNs. -/
def psnsTaken (q : Fin 16384) (o : GwOut) (s : State) : State :=
  if o.started then s else modQp q (fun x => { x with sndPsn := psnAdd x.sndPsn o.n, ackAt := s.tick.elapsed }) s

/-- The request of a READ, from its first response that is not taken. -/
def readRequest (c : QpCtx) (o : GwOut) : RoceTx :=
  { op := .readReq, psn := psnAdd o.psn o.acked, va := o.va + BitVec.ofNat 64 (o.acked * c.mtu), rkey := o.rkey,
    len := o.len - o.acked * c.mtu }

/-- What a started descriptor sends next: a READ its request, another the fetch of its local bytes. -/
def outStep (q : Fin 16384) (c : QpCtx) (tenant : BitVec 8) (o : GwOut) (s : State) : State :=
  if o.op = 0x65 then
    qpSend q (readRequest c o) (modGwOut q o.d (fun _ => { o with sent := o.n }) s)
  else match sendItem (ethCore c.port) (gwTags (80 + c.port.val))
      { opcode := 0x01, vc := 6, addr := o.addr + BitVec.ofNat 64 (o.sent * c.mtu), tenant := tenant }
      (min (o.len - o.sent * c.mtu) gwFetch) [] (.gwOut o.d (psnAdd o.psn o.sent)) s with
    | some s => modGwOut q o.d (fun _ => { o with fetching := some o.sent }) s
    | none => modGwOut q o.d (fun _ => o) s

/-- The queue pair holds its oldest descriptor back. -/
def pumpHeld (s : State) (q : Fin 16384) (o : GwOut) : Bool :=
  fnSt s (.qp q) = .starting || (fnSt s (.qp q) = .stopping && !o.started) || (qpOf s q).rnrTo.isSome || o.fetching.isSome
    || !(qpOf s q).ready.isEmpty

theorem gwPump_eq (q) (s : State) : gwPump q s = match (qpOf s q).ctx, (qpOf s q).outs.find? (fun o => decide (o.sent < o.n)) with
    | some c, some o =>
      if pumpHeld s q o then s
      else if o.op = 0x65 && !o.started && decide (16 ≤ readsOut (qpOf s q)) then s
      else outStep q c (qpOf s q).tenant (outBegun (qpOf s q) o) (psnsTaken q o s)
    | _, _ => s := rfl

/-- A queue pair has taken a step with its outgoing work: it differs in its descriptors, its PSNs and its packets, and nothing that it has
accepted does. -/
structure Pumped (q : Fin 16384) (s t : State) : Prop where
  only : ∃ g, CoreOnly { s with gw := g } t
  others : OtherQps q s t
  ports : ∀ l, ∃ x, ethPort t l = { ethPort s l with queue := x }
  own : ∃ x : Qp, qpOf t q = { qpOf s q with sndPsn := x.sndPsn, ackAt := x.ackAt, outs := x.outs, ready := x.ready, budget := x.budget }
    ∧ (x.ackAt = (qpOf s q).ackAt ∨ x.ackAt = s.tick.elapsed)

theorem QpSent.pumped {q : Fin 16384} {s t : State} (h : QpSent q s t) : Pumped q s t := by
  obtain ⟨⟨g, n, rfl⟩, ho, hp, r, b, hq⟩ := h
  exact ⟨⟨g, _, _, _, _, rfl⟩, ho, hp, { qpOf s q with ready := r, budget := b }, hq, .inl rfl⟩

theorem Pumped.trans {q : Fin 16384} {s t u : State} (h : Pumped q s t) (k : Pumped q t u) : Pumped q s u := by
  obtain ⟨⟨g, _, _, _, _, rfl⟩, ho, hp, x, hq, hx⟩ := h
  obtain ⟨⟨g', _, _, _, _, rfl⟩, ko, kp, y, kq, hy⟩ := k
  refine ⟨⟨g', _, _, _, _, rfl⟩, fun j hj => (ko j hj).trans (ho j hj), fun l => ?_, y, by rw [kq, hq], ?_⟩
  · obtain ⟨a, ha⟩ := hp l
    obtain ⟨b, hb⟩ := kp l
    exact ⟨b, by rw [hb, ha]⟩
  · rw [hq] at hy
    exact hy.elim (fun h => h ▸ hx) .inr

/-- A change of a queue pair's outgoing work. -/
theorem Pumped.of_modQp {q : Fin 16384} {s : State} {f : Qp → Qp} {c : QpCtx} (hc : (f (qpOf s q)).ctx = some c)
    (h : ∃ x : Qp, f (qpOf s q) = { qpOf s q with sndPsn := x.sndPsn, ackAt := x.ackAt, outs := x.outs, ready := x.ready, budget := x.budget }
      ∧ (x.ackAt = (qpOf s q).ackAt ∨ x.ackAt = s.tick.elapsed)) : Pumped q s (modQp q f s) := by
  obtain ⟨x, hf, hx⟩ := h
  exact ⟨⟨(modQp q f s).gw, .refl _⟩, fun j hj => qpOf_modQp_ne hj f s, fun _ => ⟨_, rfl⟩, x, (qpOf_modQp_ctx hc).trans hf, hx⟩

theorem CoreOnly.pumped {q : Fin 16384} {s t : State} (h : CoreOnly s t) : Pumped q s t := by
  obtain ⟨_, _, _, _, rfl⟩ := h
  exact ⟨⟨s.gw, _, _, _, _, rfl⟩, fun _ _ => rfl, fun _ => ⟨_, rfl⟩, qpOf s q, rfl, .inl rfl⟩

theorem modGwOut_pumped {q : Fin 16384} {s : State} {c : QpCtx} (hc : (qpOf s q).ctx = some c) (d f) : Pumped q s (modGwOut q d f s) :=
  .of_modQp hc ⟨{ qpOf s q with outs := (qpOf s q).outs.map (fun o => if o.d = d then f o else o) }, rfl, .inl rfl⟩

section
variable {q : Fin 16384} {s t : State} {c : QpCtx} {o : GwOut} {tenant : BitVec 8}

theorem Pumped.ctx (h : Pumped q s t) : (qpOf t q).ctx = (qpOf s q).ctx := by
  obtain ⟨x, he, -⟩ := h.own
  rw [he]

theorem psnsTaken_pumped (hc : (qpOf s q).ctx = some c) (o) : Pumped q s (psnsTaken q o s) := by
  unfold psnsTaken
  split
  · exact (CoreOnly.refl s).pumped
  · exact .of_modQp hc ⟨{ qpOf s q with sndPsn := _, ackAt := _ }, rfl, .inr rfl⟩

theorem outStep_pumped (hc : (qpOf s q).ctx = some c) : Pumped q s (outStep q c tenant o s) := by
  unfold outStep
  split
  · exact (modGwOut_pumped hc ..).trans (qpSend_sent ..).pumped
  · split
    next u hsend =>
      have hu : Pumped q s u := (sendItem_core hsend).pumped
      exact hu.trans (modGwOut_pumped (hu.ctx.trans hc) ..)
    next => exact modGwOut_pumped hc ..

/-- A descriptor that has gone a step on: once started it keeps its PSNs, and its packets count as sent only when they are. -/
def OutMoved (o o' : GwOut) : Prop := ∃ a p n x, o' = { o with started := a, psn := p, sent := n, fetching := x }
  ∧ (o.started = true → a = true ∧ p = o.psn) ∧ (o.op ≠ 0x65 → n = o.sent)

theorem OutMoved.refl (o : GwOut) : OutMoved o o := ⟨_, _, _, _, rfl, fun h => ⟨h, rfl⟩, fun _ => rfl⟩

theorem qpOf_modGwOut (hc : (qpOf s q).ctx = some c) (d f) : qpOf (modGwOut q d f s) q
    = { qpOf s q with outs := (qpOf s q).outs.map (fun o => if o.d = d then f o else o) } := qpOf_modQp_ctx (c := c) hc

/-- Sending changes the descriptors of its queue pair, its packets and its budget alone. -/
theorem outStep_own (hc : (qpOf s q).ctx = some c) (tenant o) : ∃ y r b n x,
    qpOf (outStep q c tenant o s) q = { qpOf s q with outs := y, ready := r, budget := b }
      ∧ y = (qpOf s q).outs.map (fun z => if z.d = o.d then { o with sent := n, fetching := x } else z)
      ∧ (o.op ≠ 0x65 → n = o.sent) ∧ (o.op = 0x65 → (outStep q c tenant o s).items = s.items) := by
  unfold outStep
  split
  next hread =>
    have hsent := qpSend_sent q (readRequest c o) (modGwOut q o.d (fun _ => { o with sent := o.n }) s)
    obtain ⟨r, b, hown⟩ := hsent.own
    obtain ⟨g, n, honly⟩ := hsent.only
    refine ⟨_, r, b, o.n, o.fetching, ?_, rfl, fun h => absurd hread h, fun _ => by rw [honly]; rfl⟩
    rw [hown, qpOf_modGwOut hc]
  next hread =>
    split
    next u hsend =>
      have hu : qpOf u q = qpOf s q := by
        obtain ⟨_, _, _, _, rfl⟩ := sendItem_core hsend
        rfl
      refine ⟨_, (qpOf s q).ready, (qpOf s q).budget, o.sent, some o.sent, ?_, rfl, fun _ => rfl, fun h => absurd h hread⟩
      rw [qpOf_modGwOut (hu ▸ hc), hu]
    next => exact ⟨_, (qpOf s q).ready, (qpOf s q).budget, o.sent, o.fetching, qpOf_modGwOut hc .., rfl, fun _ => rfl, fun h => absurd h hread⟩

theorem qpOf_psnsTaken (hc : (qpOf s q).ctx = some c) (o) : qpOf (psnsTaken q o s) q
    = if o.started then qpOf s q else { qpOf s q with sndPsn := psnAdd (qpOf s q).sndPsn o.n, ackAt := s.tick.elapsed } := by
  unfold psnsTaken
  split
  · rfl
  · exact qpOf_modQp_ctx (c := c) hc

/-- The one outgoing descriptor of a queue pair, after its step. -/
theorem gwPump_one (hc : (qpOf s q).ctx = some c) (hone : (qpOf s q).outs = [o]) :
    (∃ o', (qpOf (gwPump q s) q).outs = [o'] ∧ OutMoved o o') ∧ (o.started = true → (qpOf (gwPump q s) q).ackAt = (qpOf s q).ackAt)
      ∧ (o.op = 0x65 → (gwPump q s).items = s.items) := by
  have hstay : (∃ o', (qpOf s q).outs = [o'] ∧ OutMoved o o') ∧ (o.started = true → (qpOf s q).ackAt = (qpOf s q).ackAt)
      ∧ (o.op = 0x65 → s.items = s.items) := ⟨⟨o, hone, .refl o⟩, fun _ => rfl, fun _ => rfl⟩
  rw [gwPump_eq, hc, hone]
  by_cases hsent : o.sent < o.n
  · rw [show [o].find? (fun o => decide (o.sent < o.n)) = some o by simp [hsent]]
    dsimp only
    split
    · exact hstay
    · split
      · exact hstay
      · have htaken := qpOf_psnsTaken hc o
        have hc' : (qpOf (psnsTaken q o s) q).ctx = some c := (psnsTaken_pumped hc o).ctx.trans hc
        have houts : (qpOf (psnsTaken q o s) q).outs = [o] := by
          rw [htaken]
          split <;> exact hone
        obtain ⟨y, r, b, n, x, hown, hy, hn, hitems⟩ := outStep_own hc' (qpOf s q).tenant (outBegun (qpOf s q) o)
        refine ⟨⟨{ outBegun (qpOf s q) o with sent := n, fetching := x }, ?_, _, _, n, x, rfl, fun h => ⟨rfl, if_pos h⟩, hn⟩,
          fun h => ?_, fun h => (hitems h).trans ?_⟩
        · rw [hown, hy, houts]
          simp [outBegun]
        · rw [hown, htaken, if_pos h]
        · unfold psnsTaken
          split <;> rfl
  · rw [show [o].find? (fun o => decide (o.sent < o.n)) = none by simp [hsent]]
    exact hstay

/-- A descriptor that joins an idle queue pair that is On starts at once and takes its PSNs (R620). -/
theorem gwPump_begins (hc : (qpOf s q).ctx = some c) (hone : (qpOf s q).outs = [o]) (hon : fnSt s (.qp q) = .on)
    (hready : (qpOf s q).ready = []) (hrnr : (qpOf s q).rnrTo = none) (hnew : o.started = false) (hfetch : o.fetching = none)
    (hsent : o.sent < o.n) :
    (∃ n x, (qpOf (gwPump q s) q).outs = [{ outBegun (qpOf s q) o with sent := n, fetching := x }])
      ∧ (qpOf (gwPump q s) q).sndPsn = psnAdd (qpOf s q).sndPsn o.n := by
  have hheld : pumpHeld s q o = false := by simp [pumpHeld, hon, hready, hrnr, hfetch]
  have hreads : decide (16 ≤ readsOut (qpOf s q)) = false := by simp [readsOut, hone, hnew]
  have htaken := qpOf_psnsTaken hc o
  have hc' : (qpOf (psnsTaken q o s) q).ctx = some c := (psnsTaken_pumped hc o).ctx.trans hc
  obtain ⟨y, r, b, n, x, hown, hy, -, -⟩ := outStep_own hc' (qpOf s q).tenant (outBegun (qpOf s q) o)
  rw [gwPump_eq, hc, hone, show [o].find? (fun o => decide (o.sent < o.n)) = some o by simp [hsent]]
  simp only [hheld, hreads, Bool.and_false, Bool.false_eq_true, if_false]
  rw [hown, hy, htaken, hnew]
  refine ⟨⟨n, x, ?_⟩, rfl⟩
  simp [hone, outBegun]

theorem gwPump_pumped (q) (s : State) : Pumped q s (gwPump q s) := by
  rw [gwPump_eq]
  split
  next c o hc _ =>
    have ht := psnsTaken_pumped hc o
    split
    · exact (CoreOnly.refl s).pumped
    · split
      · exact (CoreOnly.refl s).pumped
      · exact ht.trans (outStep_pumped (ht.ctx.trans hc))
  next => exact (CoreOnly.refl s).pumped

end

end Machine
end Sys2Proof
end

section
/-!
PROOF. GatewayDescriptorsAndFrames: the descriptors of queue pairs (R610, R611, R617, R620), and the frames that a port answers, discards or
obeys (R602 to R607).
-/
namespace Sys2Proof
namespace Machine
set_option Elab.async false

/-! ### The descriptors of queue pairs -/

section
variable {s : State} {d : DRef} {f : InFlight} {q : Fin 16384} {c : QpCtx} {bound : Bool} {body : Fin 16384 → State → State}

theorem withQp_no_target (h : qpTarget f = none) : withQp d f bound s body = complete d stBad 0 s := by
  rw [withQp, h]

/-- A row that does not ask for the binding runs once its generation is right. -/
theorem withQp_free (ht : qpTarget f = some q) (hg : dGen f.desc = fnGen s (.qp q)) :
    withQp d f false (started d s) body = body q (startedAt d (.qp q) s) := by
  rw [withQp, ht]
  exact if_neg (genOk_startedAt hg d)

theorem withQp_stale (ht : qpTarget f = some q) (hgen : dGen f.desc ≠ fnGen s (.qp q)) :
    withQp d f bound (started d s) body = complete d stStaleGen 0 (startedAt d (.qp q) s) := by
  have hstale : (!genOk (startedAt d (.qp q) s) f (.qp q)) = true := by
    simp [genOk, show fnGen (startedAt d (.qp q) s) (.qp q) = fnGen s (.qp q) from rfl, hgen]
  rw [withQp, ht]
  exact if_pos hstale

theorem withQp_denied (ht : qpTarget f = some q) (hgen : dGen f.desc = fnGen s (.qp q))
    (hbound : (qpOf s q).ctx = none ∨ (qpOf s q).tenant ≠ dTenant s f) :
    withQp d f true (started d s) body = complete d stDenied 0 (startedAt d (.qp q) s) := by
  have hdenied : (true && ((qpOf s q).ctx.isNone || decide ((qpOf s q).tenant ≠ dTenant s f))) = true := by simpa using hbound
  rw [withQp, ht]
  exact (if_neg (genOk_startedAt hgen d)).trans (if_pos hdenied)

/-- The row reads one descriptor, of opcode `op`, through the checks of a queue pair. -/
def QpRow (i : DRef → Instr) (op : BitVec 8) (bound : Bool) : Prop :=
  ∃ body : DRef → InFlight → Fin 16384 → State → State, ∀ s d f, Startable s d op f →
    exec (i d) s = .next (withQp d f bound (started d s) (body d f))

theorem QpRow.turned_away {i : DRef → Instr} {op : BitVec 8} (hrow : QpRow i op bound) (h : Startable s d op f) :
    (qpTarget f = none → exec (i d) s = .next (complete d stBad 0 (started d s)))
      ∧ ∀ q, qpTarget f = some q →
        (dGen f.desc ≠ fnGen s (.qp q) → exec (i d) s = .next (complete d stStaleGen 0 (startedAt d (.qp q) s)))
          ∧ (bound = true → dGen f.desc = fnGen s (.qp q) → (qpOf s q).ctx = none ∨ (qpOf s q).tenant ≠ dTenant s f →
            exec (i d) s = .next (complete d stDenied 0 (startedAt d (.qp q) s))) := by
  obtain ⟨body, hexec⟩ := hrow
  rw [hexec s d f h]
  refine ⟨fun ht => congrArg _ (withQp_no_target ht), fun q ht => ⟨fun hgen => congrArg _ (withQp_stale ht hgen), ?_⟩⟩
  rintro rfl hgen hb
  exact congrArg _ (withQp_denied ht hgen hb)

theorem qpConfig_row : QpRow .qpConfig 0x60 false :=
  ⟨_, fun _ _ _ h => congrArg Host.Outcome.next (withDesc_of_startable h _)⟩

theorem qpQuery_row : QpRow .qpQuery 0x63 true := ⟨_, fun _ _ _ h => congrArg Host.Outcome.next (withDesc_of_startable h _)⟩

theorem gwRecvPost_row : QpRow .gwRecvPost 0x67 true :=
  ⟨_, fun _ _ _ h => congrArg Host.Outcome.next (withDesc_of_startable h _)⟩

theorem exec_qpConfig (h : Startable s d 0x60 f) (ht : qpTarget f = some q) (hg : dGen f.desc = fnGen s (.qp q)) :
    exec (.qpConfig d) s = .next (if fnSt s (.qp q) ≠ .off then complete d stBad 0 (startedAt d (.qp q) s)
      else hostRead (.obj d 0) (dWord f.desc 24) 128 (modFlight d (fun x => { x with waits := 1 }) (startedAt d (.qp q) s))) :=
  congrArg Host.Outcome.next ((withDesc_of_startable h _).trans (withQp_free ht hg))

theorem exec_gwRecvPost (h : Startable s d 0x67 f) (ht : qpTarget f = some q) (hg : dGen f.desc = fnGen s (.qp q))
    (hc : (qpOf s q).ctx = some c) (hten : (qpOf s q).tenant = dTenant s f) :
    exec (.gwRecvPost d) s = .next (
      if c.recvSlots < (qpOf s q).free + fld f.desc 192 16 then complete d stBad 0 (startedAt d (.qp q) s)
      else complete d stOk (BitVec.ofNat 64 ((qpOf s q).free + fld f.desc 192 16))
        (modQp q (fun x => { x with free := x.free + fld f.desc 192 16 }) (startedAt d (.qp q) s))) := by
  refine congrArg Host.Outcome.next ((withDesc_of_startable h _).trans ((withQp_eq ht hg (by simp [hc]) hten d _).trans ?_))
  dsimp only
  rw [show (qpOf (startedAt d (.qp q) s) q).ctx = some c from hc]
  rfl

end

/-! ### Outgoing descriptors (R620) -/

section
variable {s : State} {d : DRef} {op : BitVec 8} {f : InFlight} {q : Fin 16384} {c : QpCtx}

/-- The outgoing descriptor of a GW_WRITE, GW_READ or GW_SEND. -/
def outOf (op : BitVec 8) (d : DRef) (c : QpCtx) (f : InFlight) : GwOut :=
  { d := d, op := op, addr := dWord f.desc 24, va := dWord f.desc 32, len := fld f.desc 320 32,
    rkey := BitVec.ofNat 32 (fld f.desc 352 32), psn := 0, n := msgPackets c.mtu (fld f.desc 320 32) }

/-- The length of a message is one that R620 allows. -/
def lenOk (op : BitVec 8) (f : InFlight) : Bool :=
  decide (0 < fld f.desc 320 32) && decide (fld f.desc 320 32 ≤ if op = 0x66 then 1048576 else 2 ^ 31)

/-- The descriptor stands at the end of its queue pair's work. -/
def outJoined (q : Fin 16384) (o : GwOut) (d : DRef) (s : State) : State :=
  modQp q (fun x => { x with outs := x.outs ++ [o] }) (modFlight d (fun x => { x with waits := 1 }) s)

theorem lenOk_iff : lenOk op f = true ↔ ¬ (fld f.desc 320 32 = 0 || decide ((if op = 0x66 then 1048576 else 2 ^ 31) < fld f.desc 320 32)) = true := by
  simp only [lenOk, Bool.and_eq_true, decide_eq_true_eq, Bool.or_eq_true, not_or, Nat.not_lt, Nat.pos_iff_ne_zero]

section
variable (ht : qpTarget f = some q) (hg : dGen f.desc = fnGen s (.qp q)) (hc : (qpOf s q).ctx = some c)
  (hten : (qpOf s q).tenant = dTenant s f)
include ht hg hc hten

theorem gwDesc_eq (op) : gwDesc op d f (started d s) =
    if fld f.desc 320 32 = 0 || decide ((if op = 0x66 then 1048576 else 2 ^ 31) < fld f.desc 320 32) then
      complete d stBad 0 (startedAt d (.qp q) s)
    else match fnSt s (.qp q) with
      | .off | .stopping => complete d stCancelled 0 (startedAt d (.qp q) s)
      | .starting | .on => outJoined q (outOf op d c f) d (startedAt d (.qp q) s) := by
  rw [gwDesc, withQp_eq ht hg (by simp [hc]) hten]
  dsimp only
  rw [show fnSt (startedAt d (.qp q) s) (.qp q) = fnSt s (.qp q) from rfl,
    show (qpOf (startedAt d (.qp q) s) q).ctx = some c from hc]
  cases fnSt s (.qp q) <;> rfl

theorem gwDesc_joins (hok : lenOk op f = true) (hfn : fnSt s (.qp q) = .on ∨ fnSt s (.qp q) = .starting) :
    gwDesc op d f (started d s) = outJoined q (outOf op d c f) d (startedAt d (.qp q) s) := by
  rw [gwDesc_eq ht hg hc hten, if_neg (lenOk_iff.mp hok)]
  obtain hfn | hfn := hfn <;> rw [hfn]

theorem gwDesc_cancelled (hok : lenOk op f = true) (hfn : fnSt s (.qp q) = .off ∨ fnSt s (.qp q) = .stopping) :
    gwDesc op d f (started d s) = complete d stCancelled 0 (startedAt d (.qp q) s) := by
  rw [gwDesc_eq ht hg hc hten, if_neg (lenOk_iff.mp hok)]
  obtain hfn | hfn := hfn <;> rw [hfn]

theorem gwDesc_bad (hok : lenOk op f = false) : gwDesc op d f (started d s) = complete d stBad 0 (startedAt d (.qp q) s) := by
  rw [gwDesc_eq ht hg hc hten, if_pos]
  exact not_not.mp (lenOk_iff.not.mp (by simp [hok]))

end

/-- The row takes an outgoing descriptor and lets its queue pair go on. -/
def OutRow (i : DRef → Instr) (op : BitVec 8) : Prop :=
  ∀ s d f q, Startable s d op f → qpTarget f = some q → exec (i d) s = .next (gwPump q (gwDesc op d f (started d s)))

theorem gwStart_eq (ht : qpTarget f = some q) (s : State) : execGwWrite.gwStart f s = gwPump q s := by
  rw [execGwWrite.gwStart, ht]

theorem outRow_of_mem {i : DRef → Instr}
    (h : (i, op) ∈ ([(.gwWrite, 0x64), (.gwRead, 0x65), (.gwSend, 0x66)] : List ((DRef → Instr) × BitVec 8))) : OutRow i op := by
  simp only [List.mem_cons, Prod.mk.injEq, List.not_mem_nil, or_false] at h
  rcases h with ⟨rfl, rfl⟩ | ⟨rfl, rfl⟩ | ⟨rfl, rfl⟩ <;>
    exact fun s d f q h ht => congrArg Host.Outcome.next ((withDesc_of_startable h _).trans (gwStart_eq ht _))

/-- An outgoing descriptor starts at once on an idle queue pair that is On. -/
theorem outJoined_begins (hf : flightOf s d = some f) (hc : (qpOf s q).ctx = some c) (hon : fnSt s (.qp q) = .on)
    (houts : (qpOf s q).outs = []) (hready : (qpOf s q).ready = []) (hrnr : (qpOf s q).rnrTo = none) (op) :
    let t := gwPump q (outJoined q (outOf op d c f) d (startedAt d (.qp q) s))
    (∃ o, (qpOf t q).outs = [o] ∧ o.d = d ∧ o.op = op ∧ o.addr = dWord f.desc 24 ∧ o.va = dWord f.desc 32 ∧ o.len = fld f.desc 320 32
        ∧ o.n = msgPackets c.mtu o.len ∧ o.started = true ∧ o.psn = (qpOf s q).sndPsn ∧ o.acked = 0
        ∧ (qpOf t q).sndPsn = psnAdd (qpOf s q).sndPsn o.n)
      ∧ (∃ f', flightOf t d = some f' ∧ f'.waits = 1) ∧ OtherQps q s t ∧ t.larder = s.larder ∧ t.work = s.work := by
  intro t
  have hjoined : qpOf (outJoined q (outOf op d c f) d (startedAt d (.qp q) s)) q = { qpOf s q with outs := [outOf op d c f] } := by
    refine (qpOf_modQp_ctx (c := c) hc).trans ?_
    change { qpOf s q with outs := (qpOf s q).outs ++ [outOf op d c f] } = _
    rw [houts]
    rfl
  have hothers : OtherQps q s (outJoined q (outOf op d c f) d (startedAt d (.qp q) s)) := fun j hj => qpOf_modQp_ne hj _ _
  have hpackets : 0 < msgPackets c.mtu (fld f.desc 320 32) := by
    unfold msgPackets
    omega
  have hpump := gwPump_pumped q (outJoined q (outOf op d c f) d (startedAt d (.qp q) s))
  obtain ⟨⟨n, x, hone⟩, hpsn⟩ := gwPump_begins (s := outJoined q (outOf op d c f) d (startedAt d (.qp q) s)) (q := q) (c := c)
    (o := outOf op d c f) (by rw [hjoined]; exact hc) (by rw [hjoined]) hon (by rw [hjoined]; exact hready) (by rw [hjoined]; exact hrnr)
    rfl rfl hpackets
  rw [hjoined] at hone hpsn
  obtain ⟨g, hcore⟩ := hpump.only
  refine ⟨⟨_, hone, rfl, rfl, rfl, rfl, rfl, rfl, rfl, rfl, rfl, hpsn⟩, ?_, fun j hj => (hpump.others j hj).trans (hothers j hj),
    hcore.kept.1, hcore.kept.2.1⟩
  refine ⟨{ f with stage := .started, gen := fnGen s (.qp q), waits := 1 }, ?_, rfl⟩
  have hrings : t.rings = (modFlight d (fun x => { x with waits := 1 }) (startedAt d (.qp q) s)).rings := by
    obtain ⟨_, _, _, _, he⟩ := hcore
    change (gwPump q _).rings = _
    rw [he]
    rfl
  calc flightOf t d = flightOf (modFlight d (fun x => { x with waits := 1 }) (startedAt d (.qp q) s)) d := by
        unfold flightOf
        rw [hrings]
    _ = _ := by
        rw [flightOf_modFlight (by exact fun _ => rfl), flightOf_startedAt hf]
        rfl

end

end Machine
end Sys2Proof
end

section
/-!
PROOF. GatewayDescriptorsAndFrames (O41): pause frames and answers of a port, and the statement.
-/
namespace Sys2Proof
namespace Machine
set_option Elab.async false

/-! ### What a port's frames change -/

theorem HostOnly.qpOf {s t : State} (h : HostOnly s t) (q : Fin 16384) : Machine.qpOf t q = Machine.qpOf s q := by
  obtain ⟨_, _, _, rfl⟩ := h
  exact Eq.refl _

/-- Of the gateway only port `l` differs, which stays up; apart from the gateway only the counts differ. -/
structure PortOnly (l : Fin 16) (s t : State) : Prop where
  only : ∃ g n, t = { s with gw := g, counts := n }
  qp : t.gw.qp = s.gw.qp
  others : ∀ j, j ≠ l → ethPort t j = ethPort s j

theorem PortOnly.eq {l : Fin 16} {s t : State} (h : PortOnly l s t) : t = { s with gw := t.gw, counts := t.counts } := by
  obtain ⟨⟨_, _, rfl⟩, -, -⟩ := h
  rfl

theorem PortOnly.refl (l) (s : State) : PortOnly l s s := ⟨⟨_, _, rfl⟩, rfl, fun _ _ => rfl⟩

theorem PortOnly.trans {l : Fin 16} {s t u : State} (h : PortOnly l s t) (k : PortOnly l t u) : PortOnly l s u := by
  obtain ⟨⟨_, _, rfl⟩, hq, ho⟩ := h
  obtain ⟨⟨_, _, rfl⟩, kq, ko⟩ := k
  exact ⟨⟨_, _, rfl⟩, kq.trans hq, fun j hj => (ko j hj).trans (ho j hj)⟩

theorem modEth_port (l f) (s : State) : PortOnly l s (modEth l f s) :=
  ⟨⟨_, _, rfl⟩, rfl, fun _ hj => ethPort_modEth_ne hj f s⟩

theorem bumpEth_port (l l' w n) (s : State) : PortOnly l s (bumpEth l' w n s) := ⟨⟨_, _, rfl⟩, rfl, fun _ _ => rfl⟩

/-- A frame that is not marked stands at the end of its class's queue. -/
theorem ethSend_queues {f : EthTx} (hf : markFrame f = none) (l v) (s : State) : PortOnly l s (ethSend l v f s)
    ∧ tblGet [] (ethPort (ethSend l v f s) l).queue v.val = tblGet [] (ethPort s l).queue v.val ++ [f]
    ∧ ∀ w, w ≠ v.val → tblGet [] (ethPort (ethSend l v f s) l).queue w = tblGet [] (ethPort s l).queue w := by
  obtain ⟨g, n, hsend, hg⟩ := ethSend_eq l v f s
  obtain rfl := hg hf
  have hport : ethPort (ethSend l v g s) l = queued v g (ethPort s l) := hsend ▸ ethPort_modEth (queued_ne v g _)
  rw [hport]
  refine ⟨hsend ▸ PortOnly.trans (t := { s with counts := n }) ⟨⟨_, _, rfl⟩, rfl, fun _ _ => rfl⟩ (modEth_port ..), ?_, fun w hw => ?_⟩
  · exact tblGet_tblSet_of_ne ([] : List EthTx) _ _ _ (by simp)
  · exact tblGet_tblSet_ne ([] : List EthTx) _ _ _ _ hw

/-! ### A pause frame that comes in (R607) -/

/-- One class of a pause frame. -/
def pauseStep (l : Fin 16) (en : BitVec 8) (qs : List (BitVec 16)) (s : State) (c : Nat) : State :=
  if bit en c && pfcEn s l c then
    bumpEth l (14 + c) 1 (modEth l (fun e =>
      { e with paused := tblSet 0 e.paused c (s.tick.ns + quantaNs s l (qs.getD c 0).toNat) }) s)
  else s

/-- The classes of a pause frame stop for their times; of the port nothing else changes. -/
structure Paused (l : Fin 16) (en : BitVec 8) (qs : List (BitVec 16)) (cs : List Nat) (s t : State) : Prop where
  port : PortOnly l s t
  own : ethPort t l = { ethPort s l with paused := (ethPort t l).paused }
  wf : tblWf 0 (ethPort t l).paused = true
  get : ∀ c, tblGet 0 (ethPort t l).paused c = if c ∈ cs ∧ (bit en c && pfcEn s l c) = true then
    s.tick.ns + quantaNs s l (qs.getD c 0).toNat else tblGet 0 (ethPort s l).paused c

theorem pauseStep_paused {l : Fin 16} {s : State} (hup : (ethPort s l).up = true) (hwf : tblWf 0 (ethPort s l).paused = true) (en qs c) :
    Paused l en qs [c] s (pauseStep l en qs s c) := by
  unfold pauseStep
  split
  next h =>
    have hne : ∀ n, { ethPort s l with paused := n } ≠ {} := fun _ => EthPort.ne_of_up (by exact hup)
    have hown : ∀ n, ethPort (bumpEth l (14 + c) 1 (modEth l (fun e => { e with paused := tblSet 0 e.paused c n }) s)) l
        = { ethPort s l with paused := tblSet 0 (ethPort s l).paused c n } := fun n =>
      ethPort_modEth (f := fun e => { e with paused := tblSet 0 e.paused c n }) (hne _)
    refine ⟨(modEth_port ..).trans (bumpEth_port ..), ?_, ?_, fun j => ?_⟩
    · rw [hown]
    · rw [hown]
      exact tblWf_tblSet 0 _ _ _ hwf
    · rw [hown]
      by_cases hj : j = c
      · subst hj
        rw [if_pos ⟨List.mem_singleton_self j, h⟩]
        exact tblGet_tblSet_self 0 _ _ _ hwf
      · rw [if_neg (by simp [hj])]
        exact tblGet_tblSet_ne 0 _ _ _ _ hj
  next h =>
    refine ⟨.refl l s, rfl, hwf, fun j => (if_neg ?_).symm⟩
    rintro ⟨hj, hen⟩
    obtain rfl := List.mem_singleton.mp hj
    exact h hen

theorem pauseFold_paused {l : Fin 16} (en qs) : ∀ (cs : List Nat) {s : State}, (ethPort s l).up = true →
    tblWf 0 (ethPort s l).paused = true → Paused l en qs cs s (cs.foldl (pauseStep l en qs) s)
  | [], s, _, hwf => ⟨.refl l s, rfl, hwf, fun j => (if_neg (by simp)).symm⟩
  | c :: cs, s, hup, hwf => by
    have hstep := pauseStep_paused hup hwf en qs c
    rw [List.foldl_cons]
    generalize pauseStep l en qs s c = u at hstep ⊢
    have hrest := pauseFold_paused en qs cs (s := u) (by rw [hstep.own]; exact hup) hstep.wf
    refine ⟨hstep.port.trans hrest.port, by rw [hrest.own, hstep.own], hrest.wf, fun j => ?_⟩
    have hkeep : pfcEn u l j = pfcEn s l j ∧ u.tick.ns + quantaNs u l (qs.getD j 0).toNat = s.tick.ns + quantaNs s l (qs.getD j 0).toNat := by
      obtain ⟨_, _, rfl⟩ := hstep.port.only
      exact ⟨rfl, rfl⟩
    rw [hrest.get, hstep.get, hkeep.1, hkeep.2]
    by_cases hen : (bit en j && pfcEn s l j) = true
    · by_cases hj : j ∈ cs <;> simp [hen, hj]
    · simp [hen]

theorem EthPort.ne_of_queue {e : EthPort} (h : e.queue ≠ []) : e ≠ {} := by
  rintro rfl
  exact h rfl

/-- A port that has sent class `c`'s pause frame at tick `b`. -/
def pauseMarked (c : Fin 8) (b : BitVec 48) (e : EthPort) : EthPort :=
  { e with pausing := tblSet none e.pausing c.val (some b), queue := tblSet [] e.queue 7 (.pfc c 0xFFFF :: tblGet [] e.queue 7) }

/-- The pause frame of a class goes ahead of class 7's other frames (R606, log 27). -/
theorem pauseSent (l : Fin 16) (c : Fin 8) (b : BitVec 48) (s : State) :
    let t := pfcSend l c 0xFFFF (modEth l (fun e => { e with pausing := tblSet none e.pausing c.val (some b) }) s)
    ethPort t l = pauseMarked c b (ethPort s l) ∧ PortOnly l s t := by
  intro t
  have hmark : ethPort (modEth l (fun e => { e with pausing := tblSet none e.pausing c.val (some b) }) s) l
      = { ethPort s l with pausing := tblSet none (ethPort s l).pausing c.val (some b) } :=
    ethPort_modEth fun h => tblSet_ne_nil (Option.some_ne_none b) _ _ (congrArg EthPort.pausing h)
  have hfront : ∀ e : EthPort, { e with queue := tblSet [] e.queue 7 (.pfc c 0xFFFF :: tblGet [] e.queue 7) } ≠ {} := fun e =>
    have hne : tblSet [] e.queue 7 (.pfc c 0xFFFF :: tblGet [] e.queue 7) ≠ [] := tblSet_ne_nil (List.cons_ne_nil _ _) _ _
    EthPort.ne_of_queue hne
  refine ⟨?_, (modEth_port ..).trans ((modEth_port ..).trans (bumpEth_port ..))⟩
  refine (ethPort_modEth (l := l) (f := fun e => { e with queue := tblSet [] e.queue 7 (.pfc c 0xFFFF :: tblGet [] e.queue 7) })
    (hfront _)).trans ?_
  rw [hmark]
  rfl

end Machine

open Machine

/-- Settles O41: the rows of a queue pair's descriptors through their checks and one step of its outgoing work, the frames through what a
port's queues and pause times become. -/
theorem gatewayDescriptorsAndFrames : Obligations.GatewayDescriptorsAndFrames := by
  unfold Obligations.GatewayDescriptorsAndFrames
  refine ⟨⟨?_, ?_, ?_, ?_, ?_, ?_, ?_⟩, ?_, ?_, fun s l disc bs => ethCame_eq l disc bs s, ?_, ?_, ?_, ?_, ?_, ?_, fun _ _ _ => ⟨rfl, rfl⟩,
    ?_, ?_, ?_, ?_⟩
  · intro s d f q h ht hg u
    rw [exec_qpConfig h ht hg]
    exact ⟨fun hoff => congrArg _ (if_neg (not_not_intro hoff)), fun hon => congrArg _ (if_pos hon)⟩
  · intro s d f q h ht hg hc hten
    exact congrArg Host.Outcome.next ((withDesc_of_startable h _).trans (withQp_eq ht hg hc hten d _))
  · rintro ⟨i, op⟩ he s d f q c h ht hg hc hten u len ok
    rw [outRow_of_mem he s d f q h ht]
    exact ⟨fun hok hfn => congrArg _ (congrArg _ (gwDesc_joins ht hg hc hten hok hfn)),
      fun hok hfn => congrArg _ (congrArg _ (gwDesc_cancelled ht hg hc hten hok hfn)),
      fun hok => congrArg _ (congrArg _ (gwDesc_bad ht hg hc hten hok))⟩
  · rintro ⟨i, op⟩ he s d f q c h ht hg hc hten hon houts hready hrnr hpos hmost
    refine ⟨_, (outRow_of_mem he s d f q h ht).trans (congrArg _ (congrArg _ (gwDesc_joins ht hg hc hten ?_ (.inl hon)))),
      outJoined_begins h.1 hc hon houts hready hrnr op⟩
    simp only [lenOk, Bool.and_eq_true, decide_eq_true_eq]
    exact ⟨hpos, hmost⟩
  · intro e he s d f h
    simp only [List.mem_cons, List.not_mem_nil, or_false] at he
    rcases he with rfl | rfl | rfl
    · exact qpConfig_row.turned_away h
    · exact qpQuery_row.turned_away h
    · exact gwRecvPost_row.turned_away h
  · intro s d f q c h ht hg hc hten hroom
    refine ⟨_, (exec_gwRecvPost h ht hg hc hten).trans (congrArg _ (if_neg (Nat.not_lt.mpr hroom))), ?_, flightOf_complete_self .., ?_, ?_⟩
    · rw [(complete_host ..).qpOf, qpOf_modQp_ctx (c := c) (by exact hc)]
      rfl
    · exact fun j hj => ((complete_host ..).qpOf j).trans (qpOf_modQp_ne hj _ _)
    · obtain ⟨_, _, _, he⟩ := complete_host d stOk (BitVec.ofNat 64 ((qpOf s q).free + fld f.desc 192 16))
        (modQp q (fun x => { x with free := x.free + fld f.desc 192 16 }) (startedAt d (.qp q) s))
      rw [he]
      exact ⟨_, _, _, rfl⟩
  · intro s d f q c h ht hg hc hten u n
    rw [exec_gwRecvPost h ht hg hc hten]
    exact ⟨fun hroom => congrArg _ (if_neg (Nat.not_lt.mpr hroom)), fun hroom => congrArg _ (if_pos hroom)⟩
  · intro s l f hon hup hacc
    exact congrArg Host.Outcome.next (if_neg (by simp [hon, hup, hacc]))
  · intro s l f h
    refine congrArg Host.Outcome.next (if_pos ?_)
    obtain h | h | h := h <;> simp [h]
  · intro s l bs u
    exact ⟨(ethPass_taken l bs s).1.eq, (ethPass_taken l bs s).2⟩
  · intro s l f htakes hip hown
    exact congrArg Host.Outcome.next (if_neg (by simp [htakes, hip, hown]))
  · intro s l f h
    refine congrArg Host.Outcome.next (if_pos ?_)
    obtain h | h | h := h <;> simp [h]
  · intro s l f htakes hip hown
    exact congrArg Host.Outcome.next (if_neg (by simpa [htakes, hown] using hip))
  · intro s l f h
    refine congrArg Host.Outcome.next (if_pos ?_)
    obtain h | h | h := h <;> simp [h]
  · intro s s1 l bs f hf
    refine ⟨fun h => by rw [ethReply, h], fun ce h => ?_⟩
    have hpass := (ethPass_taken l bs s).1
    rw [h] at hpass
    obtain ⟨_, _, _, _, _, he⟩ := hpass
    dsimp only at he
    have hclass : pcpClass s1 l none = pcpClass s l none := by
      rw [he]
      rfl
    have hgw : s1.gw = s.gw := by rw [he]
    have hport : ∀ j, ethPort s1 j = ethPort s j := fun j => by rw [ethPort, hgw, ethPort]
    obtain ⟨hkept, hnew, hold⟩ := ethSend_queues hf l (pcpClass s1 l none) s1
    rw [ethReply, h]
    dsimp only
    rw [hclass, hport] at hnew hold
    rw [hclass] at hkept ⊢
    exact ⟨hnew, hold, fun j hj => (hkept.others j hj).trans (hport j), by rw [hkept.qp, hgw], hkept.eq⟩
  · intro s l src en qs hon hup hwf u
    obtain ⟨_, _, _, _, he⟩ := ethCame_host l false (pfcBytes src.toNat en qs) s
    have hgw : u.gw = s.gw := by rw [show u = _ from he]
    have hport : ∀ j, ethPort u j = ethPort s j := fun j => by rw [ethPort, hgw, ethPort]
    have hkeep : ∀ c, pfcEn u l c = pfcEn s l c ∧ u.tick.ns + quantaNs u l (qs.getD c 0).toNat
        = s.tick.ns + quantaNs s l (qs.getD c 0).toNat := fun c => by
      rw [show u = _ from he]
      exact ⟨rfl, rfl⟩
    have hpause := pauseFold_paused (l := l) en qs (upFrom 0 8) (s := u) (by rw [hport]; exact hup) (by rw [hport]; exact hwf)
    refine ⟨_, congrArg Host.Outcome.next (if_neg (by simp [hon, hup])), fun c hc => (hpause.get c).trans ?_, ?_, ?_,
      fun j hj => (hpause.port.others j hj).trans (hport j), hpause.port.qp.trans (by rw [hgw]), hpause.port.eq⟩
    · rw [(hkeep c).1, (hkeep c).2, hport]
      simp only [mem_upFrom.mpr hc, true_and]
    · exact (congrArg EthPort.queue hpause.own).trans (by rw [← hport])
    · exact (congrArg EthPort.waiting hpause.own).trans (by rw [← hport])
  · intro s l src en qs h
    refine congrArg Host.Outcome.next (if_pos ?_)
    obtain h | h := h <;> simp [h]
  · intro s l c b hp hen hage hheld
    obtain ⟨hport, hkept⟩ := pauseSent l c s.tick.elapsed s
    have hexec : exec (.pfcPauseRepeat l c) s = .next (pfcSend l c 0xFFFF
        (modEth l (fun e => { e with pausing := tblSet none e.pausing c.val (some s.tick.elapsed) }) s)) := by
      refine congrArg Host.Outcome.next ?_
      rw [hp]
      exact if_pos (by simp [hen, hage, hheld])
    refine ⟨_, hexec, ?_, fun v hv => ?_, ?_, hkept.others, hkept.qp, hkept.eq⟩
    · rw [hport]
      exact tblGet_tblSet_of_ne ([] : List EthTx) _ _ _ (List.cons_ne_nil _ _)
    · rw [hport]
      exact tblGet_tblSet_ne ([] : List EthTx) _ 7 v (.pfc c 0xFFFF :: tblGet [] (ethPort s l).queue 7) hv
    · rw [hport]
      exact tblGet_tblSet_of_ne none _ _ _ (Option.some_ne_none _)
  · intro s l c h
    refine congrArg Host.Outcome.next ?_
    cases hp : tblGet none (ethPort s l).pausing c.val with
    | none => rfl
    | some b =>
      refine if_neg ?_
      simp only [Bool.and_eq_true, decide_eq_true_eq]
      rintro ⟨⟨hen, hage⟩, hheld⟩
      obtain hb | hb | hb := h b hp
      · omega
      · simp [hen] at hb
      · omega

end Sys2Proof
end

section
/-!
PROOF. How the gateway takes the request packets that arrive (R612 to R619), and what settling its accepted packets keeps.
-/
namespace Sys2Proof
namespace Machine
set_option Elab.async false

/-! ### What a queue pair has accepted -/

/-- The context of a queue pair, and what its accepted packets have come to. -/
def takenOf (x : Qp) : Option QpCtx × BitVec 24 × Option (Option Nat × Word × Nat × Nat) × BitVec 24 × Nat × Nat :=
  (x.ctx, x.expPsn, x.cur, x.msn, x.free, x.slot)

/-- The gateway has gone on with queue pair `q` alone, which keeps what it has accepted; apart from the gateway only the core, the coats,
the items and the counts differ. -/
structure QpMoved (q : Fin 16384) (s t : State) : Prop where
  only : ∃ g, CoreOnly { s with gw := g } t
  others : OtherQps q s t
  own : ∀ c, (qpOf s q).ctx = some c → takenOf (qpOf t q) = takenOf (qpOf s q)

section
variable {q : Fin 16384} {s t u : State} {c : QpCtx}

theorem QpMoved.refl (q) (s : State) : QpMoved q s s := ⟨⟨s.gw, .refl s⟩, fun _ _ => rfl, fun _ _ => rfl⟩

theorem QpMoved.trans (h : QpMoved q s t) (k : QpMoved q t u) : QpMoved q s u := by
  obtain ⟨⟨g, _, _, _, _, rfl⟩, ho, ha⟩ := h
  obtain ⟨⟨g', _, _, _, _, rfl⟩, ko, ka⟩ := k
  exact ⟨⟨g', _, _, _, _, rfl⟩, fun j hj => (ko j hj).trans (ho j hj),
    fun c hc => (ka c ((congrArg Prod.fst (ha c hc)).trans hc)).trans (ha c hc)⟩

theorem QpMoved.foldl {α : Type} {f : State → α → State} (h : ∀ s x, QpMoved q s (f s x)) :
    ∀ (l : List α) (s : State), QpMoved q s (l.foldl f s)
  | [], s => .refl q s
  | x :: l, s => (h s x).trans (foldl h l (f s x))

theorem Pumped.moved (h : Pumped q s t) : QpMoved q s t := by
  obtain ⟨honly, ho, -, x, hown, -⟩ := h
  exact ⟨honly, ho, fun _ _ => by rw [hown]; rfl⟩

theorem QpSent.moved (h : QpSent q s t) : QpMoved q s t := h.pumped.moved

theorem CoreOnly.moved (h : CoreOnly s t) (q) : QpMoved q s t := h.pumped.moved

theorem PortOnly.moved {l : Fin 16} (h : PortOnly l s t) (q) : QpMoved q s t := by
  obtain ⟨⟨g, n, rfl⟩, hq, -⟩ := h
  have hqp : ∀ j, qpOf { s with gw := g, counts := n } j = qpOf s j := fun j => by
    change tblGet _ g.qp _ = _
    rw [show g.qp = s.gw.qp from hq]
    rfl
  exact ⟨⟨g, _, _, _, _, rfl⟩, fun j _ => hqp j, fun _ _ => by rw [hqp]⟩

theorem modQp_moved (f : Qp → Qp) (h : takenOf (f (qpOf s q)) = takenOf (qpOf s q)) : QpMoved q s (modQp q f s) :=
  ⟨⟨(modQp q f s).gw, .refl _⟩, fun j hj => qpOf_modQp_ne hj f s,
    fun c hc => by rw [qpOf_modQp_ctx (c := c) ((congrArg Prod.fst h).trans hc), h]⟩

theorem QpMoved.ctx (h : QpMoved q s t) (hc : (qpOf s q).ctx = some c) : (qpOf t q).ctx = some c :=
  (congrArg Prod.fst (h.own c hc)).trans hc

theorem QpMoved.mems (h : QpMoved q s t) : t.larder = s.larder ∧ t.work = s.work := by
  obtain ⟨⟨_, _, _, _, _, rfl⟩, -, -⟩ := h
  exact ⟨rfl, rfl⟩

theorem pfcCheck_port (l k s) : PortOnly l s (pfcCheck l k s) := by
  unfold pfcCheck
  extract_lets
  split
  · exact (modEth_port ..).trans ((modEth_port ..).trans (bumpEth_port ..))
  · split
    · exact (modEth_port ..).trans ((modEth_port ..).trans (bumpEth_port ..))
    · exact .refl l s

theorem cnpSend_moved (l s) : QpMoved q s (cnpSend q l s) := by
  unfold cnpSend
  extract_lets x ok
  split
  · exact (modQp_moved (q := q) _ rfl).trans ((qpSend_sent ..).moved.trans ((bumpEth_port l ..).moved q))
  · exact .refl q s

/-- A sequence error is answered, and stops nothing. -/
theorem gwNak_seq_moved (l st psn s) : QpMoved q s (gwNak q l synSeq st psn s) := by
  unfold gwNak
  extract_lets x u w
  have hu : QpMoved q s u := by
    unfold u
    split
    · exact .refl q s
    · exact (qpSend_sent ..).moved
  exact hu.trans ((bumpEth_port l ..).moved q)

/-! ### Settling (R615, R616) -/

theorem readItems_core (psn tenant) : ∀ (n : Nat) (a : Word) (k : Nat) {s t : State}, readItems q c tenant psn n a k s = some t → CoreOnly s t
  | 0, _, _, s, t, h => by
    cases h
    exact .refl s
  | n + 1, a, k, s, t, h => by
    unfold readItems at h
    extract_lets b base at h
    split at h
    · cases h
      exact .refl s
    · split at h
      next u hsend => exact (sendItem_core hsend).trans (readItems_core psn tenant n _ _ h)
      next => cases h

/-- A READ whose items have started. -/
def readBegun (e : GwIn) (n : Nat) (y : GwIn) : GwIn :=
  if y.psn = e.psn && y.read = e.read && !y.started then { y with started := true, items := ceilDiv n gwFetch } else y

theorem startReads_read {e : GwIn} {a : Word} {n : Nat} (he : e.read = some (a, n)) (hs : e.started = false) (es) (s : State) :
    startReads q c (e :: es) s = match readItems q c (qpOf s q).tenant e.psn (n / gwFetch + 1) a n s with
      | none => s
      | some w => startReads q c es (modQp q (fun x => { x with ins := x.ins.map (readBegun e n) }) w) := by
  rw [startReads, he]
  simp only [hs, Bool.false_eq_true, if_false]
  cases readItems q c (qpOf s q).tenant e.psn (n / gwFetch + 1) a n s with
  | none => rfl
  | some w =>
    simp only [← he]
    rfl

theorem startReads_skips {e : GwIn} (h : e.read = none ∨ e.started = true) (es) (s : State) :
    startReads q c (e :: es) s = if e.read = none then s else startReads q c es s := by
  rw [startReads]
  cases hr : e.read with
  | none => rfl
  | some x =>
    obtain h | h := h
    · cases hr.symm.trans h
    · simp only [h, if_true, reduceCtorEq, if_false]

theorem startReads_moved (c) : ∀ (es : List GwIn) (s : State), QpMoved q s (startReads q c es s)
  | [], s => .refl q s
  | e :: es, s => by
    by_cases h : e.read = none ∨ e.started = true
    · rw [startReads_skips h]
      split
      · exact .refl q s
      · exact startReads_moved c es s
    · obtain ⟨hr, hs⟩ := not_or.mp h
      obtain ⟨⟨a, n⟩, he⟩ := Option.ne_none_iff_exists'.mp hr
      rw [startReads_read he (by simpa using hs)]
      cases hread : readItems q c (qpOf s q).tenant e.psn (n / gwFetch + 1) a n s with
      | none => exact .refl q s
      | some w => exact (((readItems_core _ _ _ _ _ hread).moved q).trans (modQp_moved _ rfl)).trans (startReads_moved c es _)

theorem sendAck_moved (ack s) : QpMoved q s (settleIns.sendAck q ack s) := by
  unfold settleIns.sendAck
  split
  · split
    · exact .refl q s
    · exact (qpSend_sent ..).moved
  · exact .refl q s

theorem settleIns_moved (c) : ∀ (n : Nat) (ack) (s : State), QpMoved q s (settleIns q c n ack s)
  | 0, ack, s => sendAck_moved ack s
  | n + 1, ack, s => by
    unfold settleIns
    split
    · exact sendAck_moved ack s
    next e es _ =>
      split
      · exact sendAck_moved ack s
      · split
        next k x =>
          have htake : QpMoved q s (modQp q (fun x => { x with ins := es }) (settleIns.sendAck q ack s)) :=
            (sendAck_moved ack s).trans (modQp_moved _ rfl)
          refine htake.trans (QpMoved.trans ?_ (settleIns_moved c n none _))
          split
          · exact .refl q _
          · exact .foldl (fun s p => (qpSend_sent q p s).moved) _ _
        next k len _ _ =>
          extract_lets a base
          split
          next w hsend => exact (((sendItem_core hsend).moved q).trans (modQp_moved _ rfl)).trans (sendAck_moved ack _)
          next => exact sendAck_moved ack s
        next => exact (modQp_moved _ rfl).trans (settleIns_moved c n _ _)

theorem settleQp_moved (s) : QpMoved q s (settleQp q s) := by
  unfold settleQp
  split
  · exact .refl q s
  · exact ((startReads_moved _ _ s).trans (settleIns_moved _ _ _ _)).trans (startReads_moved _ _ _)

/-- While the one accepted packet has an item outstanding, the queue pair waits. -/
theorem settleIns_waits {e : GwIn} (hone : (qpOf s q).ins = [e]) (hwait : e.started = false ∨ e.items ≠ 0) (n) :
    settleIns q c (n + 1) none s = s := by
  unfold settleIns
  rw [hone]
  exact if_pos (by simpa using hwait)

theorem settleQp_waits {e : GwIn} (hone : (qpOf s q).ins = [e]) (hread : e.read = none) (hitems : e.items ≠ 0) : settleQp q s = s := by
  unfold settleQp
  split
  · rfl
  next c _ =>
    have hstart : startReads q c [e] s = s := by rw [startReads_skips (.inl hread), if_pos hread]
    dsimp only
    rw [hone, hstart, settleIns_waits hone (.inr hitems), hone, hstart]

/-- The one accepted packet is READ `e`, with its items started or not. -/
def OneRead (q : Fin 16384) (c : QpCtx) (e : GwIn) (n : Nat) (s : State) : Prop :=
  (qpOf s q).ctx = some c ∧ ((qpOf s q).ins = [e] ∨ (qpOf s q).ins = [{ e with started := true, items := ceilDiv n gwFetch }])

section
variable {e : GwIn} {a : Word} {n : Nat} (he : e.read = some (a, n)) (hs : e.started = false)
include he hs

theorem startReads_oneRead (h : OneRead q c e n s) : OneRead q c e n (startReads q c (qpOf s q).ins s) := by
  obtain ⟨hc, hins | hins⟩ := h
  · rw [hins, startReads_read he hs]
    cases hread : readItems q c (qpOf s q).tenant e.psn (n / gwFetch + 1) a n s with
    | none => exact ⟨hc, .inl hins⟩
    | some w =>
      have hw : qpOf w q = qpOf s q := by
        obtain ⟨_, _, _, _, rfl⟩ := readItems_core _ _ _ _ _ hread
        rfl
      have hmod : qpOf (modQp q (fun x => { x with ins := x.ins.map (readBegun e n) }) w) q
          = { qpOf s q with ins := [{ e with started := true, items := ceilDiv n gwFetch }] } := by
        rw [qpOf_modQp_ctx (c := c) (by rw [hw]; exact hc), hw, hins]
        simp [readBegun, hs]
      change OneRead q c e n (modQp q (fun x => { x with ins := x.ins.map (readBegun e n) }) w)
      exact ⟨by rw [hmod]; exact hc, .inr (by rw [hmod])⟩
  · rw [hins, startReads_skips (.inr rfl), if_neg (by simp [he])]
    exact ⟨hc, .inr hins⟩

theorem settleQp_oneRead (hn : n ≠ 0) (h : OneRead q c e n s) : OneRead q c e n (settleQp q s) := by
  have hfirst := startReads_oneRead he hs h
  have hwait : settleIns q c ((qpOf (startReads q c (qpOf s q).ins s) q).ins.length + 1) none (startReads q c (qpOf s q).ins s)
      = startReads q c (qpOf s q).ins s := by
    obtain ⟨-, hins | hins⟩ := hfirst
    · exact settleIns_waits hins (.inl hs) _
    · refine settleIns_waits hins (.inr ?_) _
      change ceilDiv n gwFetch ≠ 0
      simp only [ceilDiv, gwFetch, ne_eq, Nat.div_eq_zero_iff]
      omega
  unfold settleQp
  rw [h.1]
  dsimp only
  rw [hwait]
  exact startReads_oneRead he hs hfirst

end

end

end Machine
end Sys2Proof
end

section
/-!
PROOF. RdmaRequests (O42): a request packet that arrives leaves the input buffer at once, and each check of R613 to R619 as gwTake makes it.
-/
namespace Sys2Proof
namespace Machine
set_option Elab.async false

/-! ### A packet that arrives (R602 to R606, R612) -/

/-- A packet in the input buffer. -/
def waitOf (op : RoceOp) (m : RoceMsg) (s : State) : EthWait := ⟨op, m, frameClass s m.port m.frame, frameUnits m.frame⟩

/-- The packet stands last in the input buffer. -/
def buffered (op : RoceOp) (m : RoceMsg) (s : State) : State :=
  modEth m.port (fun e => { e with waiting := e.waiting ++ [waitOf op m s] }) s

/-- A packet leaves the input buffer. -/
def unbuffered (l : Fin 16) (w : EthWait) (s : State) : State :=
  pfcCheck l w.cls (modEth l (fun e => { e with waiting := e.waiting.erase w }) s)

theorem EthPort.ne_of_waiting {e : EthPort} (h : e.waiting ≠ []) : e ≠ {} := by
  rintro rfl
  exact h rfl

section
variable {s s1 : State} {m : RoceMsg} {q : Fin 16384} {c : QpCtx} {op : RoceOp}

/-- What roceFor has checked. -/
theorem roceFor_spec (h : roceFor s m = some (q, c)) : ethTakes s m.port m.frame = true ∧ (qpOf s q).ctx = some c ∧ c.port = m.port
    ∧ fnSt s (.qp q) = .on ∧ q = ⟨(m.qpn.toNat - 2) % 16384, Nat.mod_lt _ (by decide)⟩ := by
  unfold roceFor at h
  extract_lets p at h
  split at h
  · cases h
  next hchecks =>
    split at h
    next c' hc =>
      split at h
      next hport =>
        obtain ⟨hp, rfl⟩ := Prod.mk.inj (Option.some.inj h)
        simp only [Bool.or_eq_true, Bool.not_eq_true', not_or, Bool.not_eq_false, decide_eq_true_eq] at hchecks
        simp only [Bool.and_eq_true, decide_eq_true_eq] at hport
        exact ⟨hchecks.1.1.1, hp ▸ hc, hport.1, hp ▸ hport.2, hp.symm⟩
      · cases h
    next => cases h

theorem roceCame_none (h : roceFor s m = none) (f) : roceCame m s f = roceDiscard m s := by
  unfold roceCame
  rw [h]

theorem roceCame_dropped (h : roceFor s m = some (q, c)) (hpass : ethPass m.port m.frame s = (none, s1)) (f) : roceCame m s f = s1 := by
  unfold roceCame
  rw [h]
  dsimp only
  rw [hpass]

theorem roceCame_passed (h : roceFor s m = some (q, c)) {ce : Bool} (hpass : ethPass m.port m.frame s = (some ce, s1)) (f) :
    roceCame m s f = f q c (if ce || m.ce then cnpSend q m.port s1 else s1) := by
  unfold roceCame
  rw [h]
  dsimp only
  rw [hpass]

theorem roceCame_comes (h : RoceComes s m q c s1) (f) : roceCame m s f = f q c s1 := by
  obtain ⟨hfor, hce, hpass⟩ := h
  rw [roceCame_passed hfor hpass, hce]
  rfl

theorem RoceComes.taken (h : RoceComes s m q c s1) : FrameTaken s s1 := by
  have hpass := (ethPass_taken m.port m.frame s).1
  rw [h.2.2] at hpass
  exact hpass

/-- Nothing that the gateway holds changes while a frame comes in. -/
theorem FrameTaken.gw (h : FrameTaken s s1) : s1.gw = s.gw := by rw [h.eq]

theorem FrameTaken.qpOf (h : FrameTaken s s1) (q : Fin 16384) : Machine.qpOf s1 q = Machine.qpOf s q := by
  rw [Machine.qpOf, h.gw, Machine.qpOf]

theorem FrameTaken.ethPort (h : FrameTaken s s1) (l : Fin 16) : Machine.ethPort s1 l = Machine.ethPort s l := by
  rw [Machine.ethPort, h.gw, Machine.ethPort]

/-- A class that sends no pause frames sends none. -/
theorem pfcCheck_quiet {l : Fin 16} {k : Fin 8} (hen : pfcEn s l k.val = false) (hp : tblGet none (ethPort s l).pausing k.val = none) :
    pfcCheck l k s = s := by
  unfold pfcCheck
  extract_lets on mark
  have hon : on = false := by simp [on, hp]
  rw [hen, hon]
  rfl

/-- A packet that stands alone in the input buffer is taken if the gateway can take it. -/
theorem gwDrain_one {l : Fin 16} {w : EthWait} (halone : (ethPort s l).waiting = [w])
    (hq : q = ⟨(w.msg.qpn.toNat - 2) % 16384, Nat.mod_lt _ (by decide)⟩) (hon : fnSt s (.qp q) = .on) (hc : (qpOf s q).ctx = some c) :
    gwDrain l [w] s = match gwTake q c w.op w.msg s with
      | some v => settleQp q (unbuffered l w v)
      | none => s := by
  subst hq
  have hfront : ((ethPort s l).waiting.takeWhile (fun x => x ≠ w)).any (fun x => x.msg.qpn = w.msg.qpn) = false := by simp [halone]
  rw [gwDrain]
  dsimp only
  rw [hfront, hc]
  simp only [Bool.false_eq_true, if_false, hon, ne_eq, not_true_eq_false]
  cases gwTake _ c w.op w.msg s with
  | none => rfl
  | some v => rfl

theorem roceIn_eq (op m) (s : State) : roceIn op m s = roceCame m s (fun _ _ w =>
    gwDrain m.port (ethPort (buffered op m w) m.port).waiting (pfcCheck m.port (frameClass w m.port m.frame) (buffered op m w))) := rfl

theorem ethPort_buffered (op m) (s : State) : ethPort (buffered op m s) m.port
    = { ethPort s m.port with waiting := (ethPort s m.port).waiting ++ [waitOf op m s] } :=
  ethPort_modEth (f := fun e => { e with waiting := e.waiting ++ [waitOf op m s] }) (EthPort.ne_of_waiting (by simp))

/-- A request packet that the gateway can take in its slot. -/
theorem roceIn_arrives (h : RoceArrives s m q c s1) {v : State} (htake : gwTake q c op m (buffered op m s1) = some v) :
    ∃ t, roceIn op m s = settleQp q t ∧ PortOnly m.port v t := by
  obtain ⟨-, hcomes, -, -, -, hwait, hen, hpausing, -⟩ := h
  obtain ⟨htakes, hc, hcport, hon, hq⟩ := roceFor_spec hcomes.1
  have hin := ethPort_buffered op m s1
  rw [hcomes.taken.ethPort, hwait] at hin
  have hcls : (waitOf op m s1).cls = frameClass s m.port m.frame := by
    change frameClass s1 m.port m.frame = _
    rw [hcomes.taken.eq]
    rfl
  have hpfc : pfcEn s1 m.port (frameClass s m.port m.frame).val = false := by
    rw [hcomes.taken.eq]
    exact hen
  have hquiet : pfcCheck m.port (waitOf op m s1).cls (buffered op m s1) = buffered op m s1 := by
    refine pfcCheck_quiet (by rw [hcls]; exact hpfc) ?_
    rw [hin, hcls]
    exact hpausing
  have hout : PortOnly m.port v (unbuffered m.port (waitOf op m s1) v) := (modEth_port ..).trans (pfcCheck_port ..)
  refine ⟨_, ?_, hout⟩
  have hfn : fnSt (buffered op m s1) (.qp q) = .on := by
    rw [show fnSt (buffered op m s1) (.qp q) = fnSt s1 (.qp q) from rfl, hcomes.taken.eq]
    exact hon
  have hctx : (qpOf (buffered op m s1) q).ctx = some c := by
    rw [show qpOf (buffered op m s1) q = qpOf s1 q from rfl, hcomes.taken.qpOf]
    exact hc
  rw [roceIn_eq, roceCame_comes hcomes]
  rw [show frameClass s1 m.port m.frame = (waitOf op m s1).cls from rfl, hquiet, hin]
  refine (gwDrain_one (w := waitOf op m s1) (by rw [hin]; rfl) hq hfn hctx).trans ?_
  change (match gwTake q c op m (buffered op m s1) with
    | some v => settleQp q (unbuffered m.port (waitOf op m s1) v)
    | none => buffered op m s1) = _
  rw [htake]

/-! ### Packets in sequence (R613 to R617) -/

/-- A packet in sequence, by its opcode. -/
def takeNext (q : Fin 16384) (c : QpCtx) (op : RoceOp) (m : RoceMsg) (s : State) : Option State :=
  match op with
  | .readReq => gwReadReq q c false m s
  | .writeFirst | .writeOnly =>
    if !rethOk c m c.wr then some (gwNak q c.port synAccess stDenied m.psn s)
    else gwData q c op m (none, c.regionBase + m.va, 0, m.len.toNat) s
  | .sendFirst | .sendOnly =>
    if !c.send then some (gwNak q c.port synInvalid stDenied m.psn s)
    else if (qpOf s q).free = 0 then some (gwNak q c.port synRnr stOk m.psn s)
    else if 2 ^ c.slotLog2 - 16 < m.payload.length then some (gwNak q c.port synInvalid stDenied m.psn s)
    else match gwData q c op m (some (qpOf s q).slot,
        c.recvBase + BitVec.ofNat 64 (((qpOf s q).slot % c.recvSlots) * 2 ^ c.slotLog2), 0, 2 ^ c.slotLog2 - 16) s with
      | some s => some (modQp q (fun x => { x with free := x.free - 1, slot := x.slot + 1 }) s)
      | none => none
  | _ =>
    match (qpOf s q).cur with
    | some cur => if cur.1.isSome = isSend op then gwData q c op m cur s else some (gwNak q c.port synInvalid stDenied m.psn s)
    | none => some (gwNak q c.port synInvalid stDenied m.psn s)

theorem gwTake_inSeq (h : psnDiff (qpOf s q).expPsn m.psn = 0) (c op) : gwTake q c op m s
    = if s.attic.draining && startsMsg op then some (gwNak q c.port synOperational stDrained m.psn s)
      else if startsMsg op && (qpOf s q).cur.isSome then some (gwNak q c.port synInvalid stDenied m.psn s)
      else takeNext q c op m s := by
  unfold gwTake
  simp only [h, ne_eq, not_true_eq_false, decide_false, Bool.false_and, Bool.false_eq_true, if_false]
  rfl

theorem gwTake_next (h : psnDiff (qpOf s q).expPsn m.psn = 0) (hdrain : s.attic.draining = false)
    (hcur : startsMsg op = true → (qpOf s q).cur = none) (c) : gwTake q c op m s = takeNext q c op m s := by
  rw [gwTake_inSeq h, hdrain, Bool.false_and, if_neg Bool.false_ne_true, if_neg]
  intro hstart
  obtain ⟨hs, hc⟩ := Bool.and_eq_true_iff.mp hstart
  simp [hcur hs] at hc

theorem findTag_congr {t : State} (h : ∀ n, tagFree t n = tagFree s n) : ∀ a n : Nat, findTag t a n = findTag s a n
  | _, 0 => rfl
  | a, n + 1 => by rw [findTag, findTag, h, findTag_congr h (a + 1) n]

/-- A queue pair that has taken a data packet: its PSN is expended, it is accepted, and its message goes on or ends. -/
def dataTaken (op : RoceOp) (m : RoceMsg) (slot : Option Nat) (a : Word) (got most : Nat) (x : Qp) : Qp :=
  { x with
    expPsn := x.expPsn + 1
    msn := if endsMsg op then x.msn + 1 else x.msn
    ins := x.ins ++ [{ psn := m.psn, items := 1, msn := if endsMsg op then x.msn + 1 else x.msn,
                       record := if endsMsg op then slot.map (fun k => (k, got + m.payload.length)) else none }]
    cur := if endsMsg op then none else some (slot, a, got + m.payload.length, most) }

section
variable {slot : Option Nat} {a : Word} {got most : Nat}

/-- A data packet that its message has room for leaves as one WR item. -/
theorem gwData_taken (hfit : got + m.payload.length ≤ most) (hend : endsMsg op = true → slot = none → got + m.payload.length = most)
    (hne : m.payload ≠ []) (htag : (findTag s (gwTags (80 + c.port.val)).1 (gwTags (80 + c.port.val)).2).isSome = true) :
    ∃ w, gwData q c op m (slot, a, got, most) s = some (modQp q (dataTaken op m slot a got most) w) ∧ CoreOnly s w
      ∧ ∃ o ∈ w.items.own, o.use = .gwIn q m.psn ∧ o.opcode = 0x02 ∧ o.addr = a + BitVec.ofNat 64 got ∧ o.len = m.payload.length := by
  obtain ⟨w, o, hsend, ho, huse, hop, haddr, hlen⟩ := sendItem_sends (i := ethCore c.port) (tags := gwTags (80 + c.port.val))
    { opcode := 0x02, vc := 6, addr := a + BitVec.ofNat 64 got, tenant := (qpOf s q).tenant } m.payload.length m.payload
    (.gwIn q m.psn) htag
  have hwr : gwWr q c m.psn (a + BitVec.ofNat 64 got) m.payload s = some w := by
    rw [gwWr, if_neg (by simpa using hne)]
    exact hsend
  have hlen0 : m.payload.length ≠ 0 := by simpa using hne
  refine ⟨w, ?_, sendItem_core hsend, o, ho, huse, hop, haddr, hlen⟩
  unfold gwData
  dsimp only
  rw [if_neg, hwr]
  · dsimp only
    rw [if_neg hlen0]
    rfl
  · simp only [Bool.or_eq_true, decide_eq_true_eq, Bool.and_eq_true, Option.isNone_iff_eq_none, not_or, not_lt, not_and, ne_eq, not_not,
      and_imp]
    exact ⟨hfit, fun he hs => hend he hs⟩

/-- What becomes of a queue pair that takes a data packet, where `g` is what else its message changes. -/
structure DataArrived (g : Qp → Qp) (s s1 : State) (m : RoceMsg) (q : Fin 16384) (op : RoceOp) (slot : Option Nat) (a : Word)
    (got most : Nat) (t : State) : Prop where
  own : qpOf t q = g (dataTaken op m slot a got most (qpOf s q))
  item : ∃ o ∈ t.items.own, o.use = .gwIn q m.psn ∧ o.opcode = 0x02 ∧ o.addr = a + BitVec.ofNat 64 got ∧ o.len = m.payload.length
  rest : OtherQps q s t ∧ t.larder = s1.larder ∧ t.work = s.work

/-- A data packet that arrives in sequence, and that its message has room for, is taken (R614, R616). -/
theorem roceIn_data (h : RoceArrives s m q c s1) (hne : m.payload ≠ []) (hfit : got + m.payload.length ≤ most)
    (hend : endsMsg op = true → slot = none → got + m.payload.length = most) {g : Qp → Qp} {post : State → State}
    (hg : ∀ x, (g x).ins = x.ins) (hself : ∀ v, (qpOf v q).ctx = some c → qpOf (post v) q = g (qpOf v q))
    (hpost : ∀ v, (∃ y, post v = { v with gw := y }) ∧ OtherQps q v (post v))
    (htake : ∀ u, qpOf u q = qpOf s q → u.attic = s.attic → gwTake q c op m u = (gwData q c op m (slot, a, got, most) u).map post) :
    DataArrived g s s1 m q op slot a got most (roceIn op m s) := by
  have hcomes := h.2.1
  obtain ⟨-, hc, -, -, -⟩ := roceFor_spec hcomes.1
  have hins := h.2.2.2.2.1
  have hu : qpOf (buffered op m s1) q = qpOf s q := hcomes.taken.qpOf q
  have hsame : ∀ j, qpOf (buffered op m s1) j = qpOf s j := fun j => hcomes.taken.qpOf j
  have hattic : (buffered op m s1).attic = s.attic := by
    change s1.attic = _
    rw [hcomes.taken.eq]
  have htag : (findTag (buffered op m s1) (gwTags (80 + c.port.val)).1 (gwTags (80 + c.port.val)).2).isSome = true := by
    rw [findTag_congr (s := s)]
    · exact h.2.2.2.2.2.2.2.2
    · intro n
      change tagFree s1 n = _
      rw [hcomes.taken.eq]
      rfl
  obtain ⟨w, hdata, hcore, o, ho, huse, hop, haddr, hlen⟩ := gwData_taken (q := q) (a := a) hfit hend hne htag
  have hw : ∀ j, qpOf w j = qpOf s j := fun j => by
    obtain ⟨_, _, _, _, rfl⟩ := hcore
    exact hsame j
  have htaken : qpOf (modQp q (dataTaken op m slot a got most) w) q = dataTaken op m slot a got most (qpOf s q) := by
    rw [qpOf_modQp_ctx (c := c) (by rw [hw]; exact hc), hw]
  obtain ⟨⟨y, hy⟩, hothers⟩ := hpost (modQp q (dataTaken op m slot a got most) w)
  have hown := (hself _ (by rw [htaken]; exact hc)).trans (congrArg g htaken)
  obtain ⟨t, hin, hport⟩ := roceIn_arrives h ((htake _ hu hattic).trans (congrArg _ hdata))
  have hmoved := hport.moved q
  have ht : ∀ j, qpOf t j = qpOf (post (modQp q (dataTaken op m slot a got most) w)) j := fun j => by
    obtain ⟨⟨z, n, rfl⟩, hqp, -⟩ := hport
    exact congrArg (fun x => tblGet ({} : Qp) x j.val) hqp
  have hone : (qpOf t q).ins = [{ psn := m.psn, items := 1, msn := if endsMsg op then (qpOf s q).msn + 1 else (qpOf s q).msn,
                                  record := if endsMsg op then slot.map (fun k => (k, got + m.payload.length)) else none }] := by
    rw [ht, hown, hg]
    change (qpOf s q).ins ++ _ = _
    rw [hins]
    rfl
  rw [settleQp_waits hone rfl (by simp)] at hin
  rw [hin]
  have hitems : t.items = w.items := by
    obtain ⟨⟨z, n, rfl⟩, -, -⟩ := hport
    change (post _).items = _
    rw [hy]
    rfl
  refine ⟨(ht q).trans hown, ⟨o, by rw [hitems]; exact ho, huse, hop, haddr, hlen⟩,
    fun j hj => ((ht j).trans (hothers j hj)).trans ((qpOf_modQp_ne hj ..).trans (hw j)), ?_, ?_⟩
  · refine hmoved.mems.1.trans ?_
    rw [hy]
    exact hcore.kept.1
  · refine hmoved.mems.2.trans ?_
    rw [hy]
    refine hcore.kept.2.1.trans ?_
    change s1.work = _
    rw [hcomes.taken.eq]

end

end

end Machine
end Sys2Proof
end

section
/-!
PROOF. RdmaRequests (O42): the statement.
-/
namespace Sys2Proof
namespace Machine
set_option Elab.async false

section
variable {s s1 : State} {m : RoceMsg} {q : Fin 16384} {c : QpCtx} {op : RoceOp}

/-- The rows of request packets. -/
def RequestRow (op : RoceOp) (i : RoceMsg → Instr) : Prop := ∀ m s, s.tick.todo = [] → exec (i m) s = .next (roceIn op m s)

theorem requestRow_of_mem {i : RoceMsg → Instr} (h : (op, i) ∈ ([(.sendFirst, .sendFirst), (.sendMiddle, .sendMiddle), (.sendLast, .sendLast),
    (.sendOnly, .sendOnly), (.writeFirst, .rdmaWriteFirst), (.writeMiddle, .rdmaWriteMiddle), (.writeLast, .rdmaWriteLast),
    (.writeOnly, .rdmaWriteOnly), (.readReq, .rdmaReadRequest)] : List (RoceOp × (RoceMsg → Instr)))) : RequestRow op i := by
  simp only [List.mem_cons, Prod.mk.injEq, List.not_mem_nil, or_false] at h
  rcases h with ⟨rfl, rfl⟩ | ⟨rfl, rfl⟩ | ⟨rfl, rfl⟩ | ⟨rfl, rfl⟩ | ⟨rfl, rfl⟩ | ⟨rfl, rfl⟩ | ⟨rfl, rfl⟩ | ⟨rfl, rfl⟩ | ⟨rfl, rfl⟩ <;>
    exact fun m s h => congrArg Host.Outcome.next (congrArg (roceIn _ m) (settled_of_nothing_due h))

theorem psnDiff_self (p : BitVec 24) : psnDiff p p = 0 := by simp [psnDiff]

/-- A packet in sequence goes to its opcode's checks. -/
theorem RoceArrives.take (h : RoceArrives s m q c s1) (hcur : startsMsg op = true → (qpOf s q).cur = none) {u : State}
    (hu : qpOf u q = qpOf s q) (hattic : u.attic = s.attic) : gwTake q c op m u = takeNext q c op m u := by
  obtain ⟨-, -, hpsn, hdrain, -⟩ := h
  refine gwTake_next ?_ (by rw [hattic]; exact hdrain) (by rw [hu]; exact hcur) c
  rw [hu, hpsn]
  exact psnDiff_self _

theorem RoceArrives.write (h : RoceArrives s m q c s1) (hop : op = .writeFirst ∨ op = .writeOnly) (hcur : (qpOf s q).cur = none)
    (hok : rethOk c m c.wr = true) (hne : m.payload ≠ []) (hfit : m.payload.length ≤ m.len.toNat)
    (hend : op = .writeOnly → m.payload.length = m.len.toNat) :
    DataArrived id s s1 m q op none (c.regionBase + m.va) 0 m.len.toNat (roceIn op m s) := by
  refine roceIn_data h hne (by omega) (fun he _ => ?_) (g := id) (post := id) (fun _ => rfl) (fun _ _ => rfl)
    (fun v => ⟨⟨v.gw, rfl⟩, fun _ _ => rfl⟩) (fun u hu hattic => ?_)
  · obtain rfl | rfl := hop
    · cases he
    · simpa using hend rfl
  · rw [h.take (fun _ => hcur) hu hattic, Option.map_id]
    obtain rfl | rfl := hop <;> simp [takeNext, hok]

/-- A SEND that has taken its receive slot. -/
def slotTaken (x : Qp) : Qp := { x with free := x.free - 1, slot := x.slot + 1 }

theorem RoceArrives.send (h : RoceArrives s m q c s1) (hop : op = .sendFirst ∨ op = .sendOnly) (hcur : (qpOf s q).cur = none)
    (hsend : c.send = true) (hfree : 0 < (qpOf s q).free) (hne : m.payload ≠ []) (hfit : m.payload.length ≤ 2 ^ c.slotLog2 - 16) :
    DataArrived slotTaken s s1 m q op (some (qpOf s q).slot)
      (c.recvBase + BitVec.ofNat 64 ((qpOf s q).slot % c.recvSlots * 2 ^ c.slotLog2)) 0 (2 ^ c.slotLog2 - 16) (roceIn op m s) := by
  refine roceIn_data h hne (by omega) (fun _ he => absurd he (Option.some_ne_none _)) (g := slotTaken) (post := modQp q slotTaken) (fun _ => rfl)
    (fun v hc => qpOf_modQp_ctx (c := c) hc) (fun v => ⟨⟨(modQp q slotTaken v).gw, rfl⟩, fun j hj => qpOf_modQp_ne hj ..⟩)
    (fun u hu hattic => ?_)
  have hfree' : (qpOf s q).free ≠ 0 := Nat.ne_of_gt hfree
  rw [h.take (fun _ => hcur) hu hattic]
  obtain rfl | rfl := hop <;>
  · simp only [takeNext, hsend, Bool.not_true, Bool.false_eq_true, if_false, hu, if_neg hfree', if_neg (Nat.not_lt.mpr hfit)]
    cases gwData q c _ m _ u <;> rfl

theorem RoceArrives.more {slot : Option Nat} {a : Word} {got most : Nat} (h : RoceArrives s m q c s1)
    (hop : op = .writeMiddle ∨ op = .writeLast ∨ op = .sendMiddle ∨ op = .sendLast) (hcur : (qpOf s q).cur = some (slot, a, got, most))
    (hslot : slot.isSome = isSend op) (hne : m.payload ≠ []) (hfit : got + m.payload.length ≤ most)
    (hend : op = .writeLast → got + m.payload.length = most) : DataArrived id s s1 m q op slot a got most (roceIn op m s) := by
  refine roceIn_data h hne hfit (fun he hnone => ?_) (g := id) (post := id) (fun _ => rfl) (fun _ _ => rfl)
    (fun v => ⟨⟨v.gw, rfl⟩, fun _ _ => rfl⟩) (fun u hu hattic => ?_)
  · subst hnone
    obtain rfl | rfl | rfl | rfl := hop
    · cases he
    · exact hend rfl
    · cases he
    · cases hslot
  · have hstart : startsMsg op = false := by obtain rfl | rfl | rfl | rfl := hop <;> rfl
    rw [h.take (fun he => nomatch hstart.symm.trans he) hu hattic, Option.map_id]
    obtain rfl | rfl | rfl | rfl := hop <;> simp only [takeNext, hu, hcur, if_pos hslot, id]

/-- A READ in sequence. -/
def readTaken (c : QpCtx) (m : RoceMsg) (x : Qp) : GwIn :=
  { psn := m.psn, psns := msgPackets c.mtu m.len.toNat, read := some (c.regionBase + m.va, m.len.toNat), started := false, msn := x.msn + 1 }

theorem RoceArrives.read (h : RoceArrives s m q c s1) (hcur : (qpOf s q).cur = none) (hok : rethOk c m c.rd = true) (hlen : m.len ≠ 0) :
    let t := roceIn .readReq m s
    (qpOf t q).expPsn = psnAdd (qpOf s q).expPsn (msgPackets c.mtu m.len.toNat) ∧ (qpOf t q).msn = (qpOf s q).msn + 1
      ∧ (∃ e, (qpOf t q).ins = [e] ∧ e.psn = m.psn ∧ e.psns = msgPackets c.mtu m.len.toNat
          ∧ e.read = some (c.regionBase + m.va, m.len.toNat))
      ∧ OtherQps q s t ∧ t.larder = s1.larder ∧ t.work = s.work := by
  intro t
  have hcomes := h.2.1
  obtain ⟨-, hc, -, -, -⟩ := roceFor_spec hcomes.1
  have hins := h.2.2.2.2.1
  have hsame : ∀ j, qpOf (buffered .readReq m s1) j = qpOf s j := fun j => hcomes.taken.qpOf j
  have hattic : (buffered .readReq m s1).attic = s.attic := by
    change s1.attic = _
    rw [hcomes.taken.eq]
  have htake : gwTake q c .readReq m (buffered .readReq m s1) = some (modQp q (fun x => { x with
      ins := x.ins ++ [readTaken c m (qpOf s q)], msn := (qpOf s q).msn + 1,
      expPsn := psnAdd x.expPsn (msgPackets c.mtu m.len.toNat) }) (buffered .readReq m s1)) := by
    rw [h.take (fun _ => hcur) (hsame q) hattic, takeNext, gwReadReq]
    simp only [hok, hsame, hins]
    rfl
  obtain ⟨u, hin, hport⟩ := roceIn_arrives h htake
  have hu : ∀ j, qpOf u j = qpOf (modQp q (fun x => { x with
      ins := x.ins ++ [readTaken c m (qpOf s q)], msn := (qpOf s q).msn + 1,
      expPsn := psnAdd x.expPsn (msgPackets c.mtu m.len.toNat) }) (buffered .readReq m s1)) j := fun j => by
    obtain ⟨⟨z, n, rfl⟩, hqp, -⟩ := hport
    exact congrArg (fun x => tblGet ({} : Qp) x j.val) hqp
  have hown : qpOf u q = { qpOf s q with
      ins := [readTaken c m (qpOf s q)], msn := (qpOf s q).msn + 1,
      expPsn := psnAdd (qpOf s q).expPsn (msgPackets c.mtu m.len.toNat) } := by
    rw [hu, qpOf_modQp_ctx (c := c) (by rw [hsame]; exact hc), hsame, hins]
    rfl
  have hsettle := settleQp_moved (q := q) u
  have hctx : (qpOf u q).ctx = some c := by
    rw [hown]
    exact hc
  have hkept := hsettle.own c hctx
  have hread : OneRead q c (readTaken c m (qpOf s q)) m.len.toNat (settleQp q u) :=
    settleQp_oneRead rfl rfl (fun hz => hlen (BitVec.eq_of_toNat_eq hz)) ⟨hctx, .inl (by rw [hown])⟩
  have ht : t = settleQp q u := hin
  simp only [takenOf, hown, Prod.mk.injEq] at hkept
  obtain ⟨-, hpsn, -, hmsn, -⟩ := hkept
  rw [ht]
  refine ⟨hpsn, hmsn, ?_, fun j hj => (hsettle.others j hj).trans ((hu j).trans ((qpOf_modQp_ne hj ..).trans (hsame j))), ?_, ?_⟩
  · obtain ⟨-, hi | hi⟩ := hread <;> exact ⟨_, hi, rfl, rfl, rfl⟩
  · exact hsettle.mems.1.trans (hport.moved q).mems.1
  · refine hsettle.mems.2.trans ((hport.moved q).mems.2.trans ?_)
    change s1.work = _
    rw [hcomes.taken.eq]

theorem cnpSend_waiting (q l k) (s : State) : (ethPort (cnpSend q l s) k).waiting = (ethPort s k).waiting := by
  unfold cnpSend
  extract_lets x ok
  split
  · have hbump : ∀ u, ethPort (bumpEth l 47 1 u) k = ethPort u k := fun _ => rfl
    obtain ⟨y, hy⟩ := (qpSend_sent q { op := .cnp, psn := 0 } (modQp q (fun x => { x with cnpOut := some s.tick.elapsed }) s)).ports k
    rw [hbump, hy]
    rfl
  · rfl

/-- The input buffer of one packet. -/
theorem gwDrain_single (l : Fin 16) (w : EthWait) (s : State) {q : Fin 16384}
    (hq : q = ⟨(w.msg.qpn.toNat - 2) % 16384, Nat.mod_lt _ (by decide)⟩) : gwDrain l [w] s =
      if ((ethPort s l).waiting.takeWhile (fun x => x ≠ w)).any (fun x => x.msg.qpn = w.msg.qpn) then s
      else if fnSt s (.qp q) ≠ .on then unbuffered l w s
      else match (qpOf s q).ctx with
        | none => unbuffered l w s
        | some c =>
          match gwTake q c w.op w.msg s with
          | some v => settleQp q (unbuffered l w v)
          | none => s := by
  subst hq
  rfl

/-- A packet ahead of the expected PSN is answered with a sequence error (R618). -/
theorem gwDrain_ahead {l : Fin 16} {w : EthWait} (hq : q = ⟨(w.msg.qpn.toNat - 2) % 16384, Nat.mod_lt _ (by decide)⟩)
    (hahead : 0 < psnDiff (qpOf s q).expPsn w.msg.psn ∧ psnDiff (qpOf s q).expPsn w.msg.psn < 2 ^ 23) : QpMoved q s (gwDrain l [w] s) := by
  have hout : ∀ v, QpMoved q v (unbuffered l w v) := fun v => ((modEth_port ..).trans (pfcCheck_port ..)).moved q
  rw [gwDrain_single l w s hq]
  split
  · exact .refl q s
  · split
    · exact hout s
    · split
      · exact hout s
      next c _ =>
        have htake : gwTake q c w.op w.msg s = some (gwNak q c.port synSeq stOk (qpOf s q).expPsn s) := by
          unfold gwTake
          dsimp only
          exact if_pos (by simpa [Nat.pos_iff_ne_zero] using hahead)
        rw [htake]
        exact (gwNak_seq_moved ..).trans ((hout _).trans (settleQp_moved _))

/-- A packet ahead of the expected PSN, and any that its class discards, leaves what the queue pair has accepted as it was (R618). -/
theorem roceIn_ahead (hfor : roceFor s m = some (q, c)) (halone : (ethPort s m.port).waiting = [])
    (hahead : 0 < psnDiff (qpOf s q).expPsn m.psn) (hnear : psnDiff (qpOf s q).expPsn m.psn < 2 ^ 23) (op) :
    takenOf (qpOf (roceIn op m s) q) = takenOf (qpOf s q) ∧ (roceIn op m s).work = s.work := by
  obtain ⟨-, hc, -, -, hq⟩ := roceFor_spec hfor
  have hpass := (ethPass_taken m.port m.frame s).1
  rcases hres : ethPass m.port m.frame s with ⟨_ | ce, s1⟩
  · rw [hres] at hpass
    have hframe : FrameTaken s s1 := hpass
    rw [roceIn_eq, roceCame_dropped hfor hres, hframe.qpOf]
    exact ⟨rfl, by rw [hframe.eq]⟩
  rw [hres] at hpass
  have hframe : FrameTaken s s1 := hpass
  rw [roceIn_eq, roceCame_passed hfor hres]
  have hcnp : QpMoved q s1 (if ce || m.ce then cnpSend q m.port s1 else s1)
      ∧ (ethPort (if ce || m.ce then cnpSend q m.port s1 else s1) m.port).waiting = [] := by
    have hempty : (ethPort s1 m.port).waiting = [] := by rw [hframe.ethPort, halone]
    split
    · exact ⟨cnpSend_moved .., (cnpSend_waiting ..).trans hempty⟩
    · exact ⟨.refl q s1, hempty⟩
  generalize (if ce || m.ce then cnpSend q m.port s1 else s1) = w at hcnp
  obtain ⟨hw, hempty⟩ := hcnp
  have hin : (ethPort (buffered op m w) m.port).waiting = [waitOf op m w] := by
    rw [ethPort_buffered, hempty]
    rfl
  have hbuf : QpMoved q s1 (pfcCheck m.port (frameClass w m.port m.frame) (buffered op m w)) :=
    hw.trans (((modEth_port ..).moved q).trans ((pfcCheck_port ..).moved q))
  have hctx : (qpOf s1 q).ctx = some c := by
    rw [hframe.qpOf]
    exact hc
  have hdrain := hbuf.trans (gwDrain_ahead (l := m.port) (w := waitOf op m w) hq (by
    have hkept := hbuf.own c hctx
    have hpsn : (qpOf _ q).expPsn = (qpOf s1 q).expPsn := congrArg (fun x => x.2.1) hkept
    rw [hpsn, hframe.qpOf]
    exact ⟨hahead, hnear⟩))
  rw [hin]
  refine ⟨(hdrain.own c hctx).trans (by rw [hframe.qpOf]), hdrain.mems.2.trans ?_⟩
  rw [hframe.eq]

/-- A refusal answers its NAK; any but a sequence error and an RNR NAK stops the queue pair (R617 to R619). -/
theorem gwNak_eq (hsilent : (qpOf s q).silent = false) (l syn st psn) : gwNak q l syn st psn s =
    if syn = synRnr || syn = synSeq then bumpEth l (if syn = synRnr then 52 else 49) 1
      (qpSend q { op := .ack, psn := psn, syndrome := BitVec.ofNat 8 syn, msn := (qpOf s q).msn } s)
    else qpStop q syn st (bumpEth l (if syn = synRnr then 52 else 49) 1
      (qpSend q { op := .ack, psn := psn, syndrome := BitVec.ofNat 8 syn, msn := (qpOf s q).msn } s)) := by
  have hsend : (if (qpOf s q).silent then s else qpSend q { op := .ack, psn := psn, syndrome := BitVec.ofNat 8 syn, msn := (qpOf s q).msn } s)
      = qpSend q { op := .ack, psn := psn, syndrome := BitVec.ofNat 8 syn, msn := (qpOf s q).msn } s := if_neg (by simp [hsilent])
  unfold gwNak
  dsimp only
  rw [hsend]

end

end Machine

open Machine

/-- Settles O42: data packets and READs in sequence through the rule of a packet that the gateway can take at once, the others by the
checks of gwTake in their order. -/
theorem rdmaRequests : Obligations.RdmaRequests := by
  unfold Obligations.RdmaRequests
  refine ⟨?_, ?_, ?_, ?_, ?_, ?_, ?_, ?_⟩
  · intro s s1 m q c op i hi h hcur hok hne hfit hend
    simp only [List.mem_cons, Prod.mk.injEq, List.not_mem_nil, or_false] at hi
    have hop : op = .writeFirst ∨ op = .writeOnly := hi.imp And.left And.left
    obtain ⟨hown, hitem, hrest⟩ := h.write hop hcur hok hne hfit hend
    have hins := h.2.2.2.2.1
    rw [show BitVec.ofNat 64 0 = 0#64 from rfl, BitVec.add_zero] at hitem
    refine ⟨roceIn op m s, ?_, ?_⟩
    · rcases hi with ⟨rfl, rfl⟩ | ⟨rfl, rfl⟩
      · exact requestRow_of_mem (i := .rdmaWriteFirst) (by simp) m s h.1
      · exact requestRow_of_mem (i := .rdmaWriteOnly) (by simp) m s h.1
    · dsimp only
      rw [hown]
      obtain rfl | rfl := hop <;> simpa [dataTaken, endsMsg, hins] using ⟨hitem, hrest⟩
  · intro s s1 m q c op i hi h hcur hsend hfree hne hfit a
    simp only [List.mem_cons, Prod.mk.injEq, List.not_mem_nil, or_false] at hi
    have hop : op = .sendFirst ∨ op = .sendOnly := hi.imp And.left And.left
    obtain ⟨hown, hitem, hrest⟩ := h.send hop hcur hsend hfree hne hfit
    have hins := h.2.2.2.2.1
    rw [show BitVec.ofNat 64 0 = 0#64 from rfl, BitVec.add_zero] at hitem
    refine ⟨roceIn op m s, ?_, ?_⟩
    · rcases hi with ⟨rfl, rfl⟩ | ⟨rfl, rfl⟩
      · exact requestRow_of_mem (i := .sendFirst) (by simp) m s h.1
      · exact requestRow_of_mem (i := .sendOnly) (by simp) m s h.1
    · dsimp only
      rw [hown]
      obtain rfl | rfl := hop <;> simpa [dataTaken, slotTaken, endsMsg, hins, a] using ⟨hitem, hrest⟩
  · intro s s1 m q c op i slot a got most hi h hcur hslot hne hfit hend
    simp only [List.mem_cons, Prod.mk.injEq, List.not_mem_nil, or_false] at hi
    have hop : op = .writeMiddle ∨ op = .writeLast ∨ op = .sendMiddle ∨ op = .sendLast :=
      hi.imp And.left (Or.imp And.left (Or.imp And.left And.left))
    obtain ⟨hown, hitem, hrest⟩ := h.more hop hcur hslot hne hfit hend
    refine ⟨roceIn op m s, ?_, ?_⟩
    · rcases hi with ⟨rfl, rfl⟩ | ⟨rfl, rfl⟩ | ⟨rfl, rfl⟩ | ⟨rfl, rfl⟩
      · exact requestRow_of_mem (i := .rdmaWriteMiddle) (by simp) m s h.1
      · exact requestRow_of_mem (i := .rdmaWriteLast) (by simp) m s h.1
      · exact requestRow_of_mem (i := .sendMiddle) (by simp) m s h.1
      · exact requestRow_of_mem (i := .sendLast) (by simp) m s h.1
    · dsimp only
      rw [hown]
      exact ⟨rfl, rfl, rfl, rfl, rfl, hitem, hrest⟩
  · intro s s1 m q c h hcur hok hlen
    exact ⟨_, requestRow_of_mem (op := .readReq) (i := .rdmaReadRequest) (by simp) m s h.1, h.read hcur hok hlen⟩
  · rintro ⟨op, i⟩ he s m htodo
    have hexec := requestRow_of_mem he m s htodo
    refine ⟨hexec, fun hnone => hexec.trans (congrArg _ (roceCame_none hnone _)),
      fun q c s1 hfor hpass => hexec.trans (congrArg _ (roceCame_dropped hfor hpass _)), fun q c hfor halone hahead hnear => ?_⟩
    obtain ⟨hkept, hwork⟩ := roceIn_ahead hfor halone hahead hnear op
    simp only [takenOf, Prod.mk.injEq] at hkept
    obtain ⟨-, hpsn, hcur, hmsn, hfree, hslot⟩ := hkept
    exact ⟨_, hexec, hpsn, hcur, hmsn, hfree, hslot, hwork⟩
  · intro s m
    refine ⟨fun hon hup => if_pos (by simp [hon, hup]), fun h => if_neg ?_⟩
    obtain h | h := h <;> simp [h]
  · intro s m q c op hdiff
    refine ⟨fun hdrain hstart => ?_, fun hdrain hstart hcur => ?_, fun hdrain hcur hop hno => ?_, fun hdrain hcur hop hsend hfree => ?_⟩
    · rw [gwTake_inSeq hdiff, if_pos (by simp [hdrain, hstart])]
    · rw [gwTake_inSeq hdiff, if_neg (by simp [hdrain]), if_pos (by simp [hstart, hcur])]
    · rw [gwTake_next hdiff hdrain (fun _ => hcur)]
      obtain rfl | rfl := hop <;> simp [takeNext, hno]
    · rw [gwTake_next hdiff hdrain (fun _ => hcur)]
      obtain rfl | rfl := hop <;> simp [takeNext, hsend, hfree]
  · intro s q l st psn hsilent
    refine ⟨fun syn hsyn => ?_, fun syn hsyn => ?_⟩
    all_goals simp only [List.mem_cons, List.not_mem_nil, or_false] at hsyn
    · rw [gwNak_eq hsilent]
      exact if_pos (by simpa using hsyn)
    · rw [gwNak_eq hsilent]
      rcases hsyn with rfl | rfl | rfl <;> rfl

end Sys2Proof
end

section
/-!
PROOF. RdmaAnswersAndTimers (O43): what an answer or a timer does with a queue pair's one outgoing descriptor (R620, R622, R626, R627).
-/
namespace Sys2Proof
namespace Machine
set_option Elab.async false

/-! ### Events leave the descriptors in flight -/

theorem evWrite_flight (e : Event) (s : State) : (evWrite e s).rings.flight = s.rings.flight := by
  simp only [evWrite]
  generalize hT : toHost _ s = t
  have H : EnzOnly s t := by
    rw [← hT]
    refine toHost_enz _ (fun x => EnzOnly.trans ?_ ((hostPut_enz ..).trans (consumerPut_enz ..))) s
    split
    · exact EnzOnly.rfl x
    · exact hostPut_enz ..
  obtain ⟨x, rfl⟩ := H
  split
  · obtain ⟨y, hy⟩ := sendMsg_enz (evRing s).vector { s with enz := x, rings.ev.prod := s.rings.ev.prod + 1, rings.ev.armed := false }
    rw [hy]
  · rfl

theorem evHold_flight (e : Event) (s : State) : (evHold e s).rings.flight = s.rings.flight := by
  unfold evHold
  split
  · rfl
  · split
    · rfl
    · rfl
    · split <;> rfl

theorem raise_flight (e : Event) (s : State) : (raise e s).rings.flight = s.rings.flight := by
  simp only [raise]
  split
  · rfl
  · split
    · exact evWrite_flight ..
    · exact evHold_flight ..

/-! ### Acknowledgement (R620) -/

/-- A descriptor whose packets up to PSN `p` are acknowledged. -/
def ackedOut (p : BitVec 24) (o : GwOut) : GwOut :=
  if o.op ≠ 0x65 && o.started then { o with acked := max o.acked (coveredBy o p) } else o

theorem gwAckTo_eq (q p) (s : State) : gwAckTo q p s =
    ((qpOf (modQp q (fun x => { x with outs := x.outs.map (ackedOut p) }) s) q).outs.filter
      (fun o => o.op ≠ 0x65 && o.started && o.acked = o.n)).foldl (fun s o => gwEnd q o.d stOk s)
        (modQp q (fun x => { x with outs := x.outs.map (ackedOut p) }) s) := rfl

section
variable {s s1 : State} {q : Fin 16384} {c : QpCtx} {o : GwOut} {p : BitVec 24} {d : DRef} {st : BitVec 8}

/-- A queue pair whose only descriptor has ended. -/
structure OutOver (q : Fin 16384) (d : DRef) (s t : State) : Prop where
  own : qpOf t q = { qpOf s q with outs := [] }
  others : OtherQps q s t
  flight : flightOf t d = none
  host : HostOnly { s with gw := t.gw } t

theorem gwEnd_over (hc : (qpOf s q).ctx = some c) (hone : (qpOf s q).outs = [o]) (st) : OutOver q o.d s (gwEnd q o.d st s) := by
  have hqp := fun j => (complete_host o.d st 0 (modQp q (fun x => { x with outs := x.outs.filter (fun y => y.d ≠ o.d) }) s)).qpOf j
  refine ⟨?_, fun j hj => (hqp j).trans (qpOf_modQp_ne hj ..), flightOf_complete_self .., ?_⟩
  · refine (hqp q).trans ((qpOf_modQp_ctx (c := c) hc).trans ?_)
    rw [hone]
    simp
  · unfold gwEnd
    obtain ⟨_, _, _, he⟩ := complete_host o.d st 0 (modQp q (fun x => { x with outs := x.outs.filter (fun y => y.d ≠ o.d) }) s)
    rw [he]
    exact ⟨_, _, _, rfl⟩

/-- An ACK that covers the whole of a WRITE or SEND ends it. -/
theorem gwAckTo_completes (hc : (qpOf s q).ctx = some c) (hone : (qpOf s q).outs = [o]) (hop : o.op ≠ 0x65) (hs : o.started = true)
    (hle : o.acked ≤ o.n) (hall : coveredBy o p = o.n) : OutOver q o.d s (gwAckTo q p s) := by
  have hacked : ackedOut p o = { o with acked := o.n } := by
    rw [ackedOut, if_pos (by simpa [hs] using hop), hall, max_eq_right hle]
  have hmap : qpOf (modQp q (fun x => { x with outs := x.outs.map (ackedOut p) }) s) q
      = { qpOf s q with outs := [{ o with acked := o.n }] } := by
    rw [qpOf_modQp_ctx (c := c) hc, hone, List.map_singleton, hacked]
  rw [gwAckTo_eq, hmap]
  have hfilter : [{ o with acked := o.n }].filter (fun o => o.op ≠ 0x65 && o.started && o.acked = o.n) = [{ o with acked := o.n }] := by
    simpa [hs] using hop
  dsimp only
  rw [hfilter]
  have hend := gwEnd_over (o := { o with acked := o.n }) (c := c) (by rw [hmap]; exact hc) (by rw [hmap]) stOk
  exact ⟨by rw [List.foldl_cons, List.foldl_nil, hend.own, hmap], fun j hj => (hend.others j hj).trans (qpOf_modQp_ne hj ..), hend.flight, hend.host⟩

/-- An acknowledgement of nothing new changes no queue pair. -/
theorem gwAckTo_nothing (hc : (qpOf s q).ctx = some c) (hone : (qpOf s q).outs = [o]) (hopen : o.acked < o.n)
    (hold : coveredBy o p ≤ o.acked) : (∀ j, qpOf (gwAckTo q p s) j = qpOf s j) ∧ ∃ g, gwAckTo q p s = { s with gw := g } := by
  have hacked : ackedOut p o = o := by
    unfold ackedOut
    split
    · rw [max_eq_left hold]
    · rfl
  have hmap : qpOf (modQp q (fun x => { x with outs := x.outs.map (ackedOut p) }) s) q = qpOf s q := by
    rw [qpOf_modQp_ctx (c := c) hc, hone, List.map_singleton, hacked, ← hone]
  have hkeep : gwAckTo q p s = modQp q (fun x => { x with outs := x.outs.map (ackedOut p) }) s := by
    rw [gwAckTo_eq, hmap, hone]
    have hne : ¬ o.acked = o.n := by omega
    simp [hne]
  rw [hkeep]
  refine ⟨fun j => ?_, _, rfl⟩
  by_cases hj : j = q
  · rw [hj, hmap]
  · exact qpOf_modQp_ne hj ..

theorem gwPump_nothing (h : (qpOf s q).outs = []) : gwPump q s = s := by
  rw [gwPump_eq, h]
  cases (qpOf s q).ctx <;> rfl

/-! ### A queue pair that stops of itself (R622) -/

/-- A queue pair that is On and holds nothing open enters Stopping with its event. -/
theorem qpStop_stops (hc : (qpOf s q).ctx = some c) (hon : fnSt s (.qp q) = .on) (hnone : (qpOf s q).outs = []) (syn st) :
    let t := qpStop q syn st s
    qpOf t q = qpOf s q ∧ OtherQps q s t ∧ fnSt t (.qp q) = .stopping ∧ t.rings.flight = s.rings.flight
      ∧ (∃ e ∈ t.counts.sideband, e.code = 0x68 ∧ e.unit = BitVec.ofNat 16 q.val) ∧ HostOnly { s with gw := t.gw, fns := t.fns } t := by
  have hhost := raiseEv_host 0x68 q.val (syn + st.toNat <<< 8) (fnGen s (.qp q)) s
  have hside := raiseEv_sideband 0x68 q.val (syn + st.toNat <<< 8) (fnGen s (.qp q)) s
  have hflight : (raiseEv 0x68 q.val (syn + st.toNat <<< 8) (fnGen s (.qp q)) s).rings.flight = s.rings.flight := raise_flight ..
  unfold qpStop
  generalize raiseEv 0x68 q.val (syn + st.toNat <<< 8) (fnGen s (.qp q)) s = u at hhost hside hflight
  have hfn : fnSt u (.qp q) = .on := (congrArg Fn.st (hhost.fnOf _)).trans hon
  have hqp : ∀ j, qpOf u j = qpOf s j := hhost.qpOf
  have hstop : qpToStopping q u = modQp q (fun x => { x with outs := x.outs.filter (fun o => o.started) })
      (setFn u (.qp q) { fnOf u (.qp q) with st := .stopping, since := u.tick.elapsed }) := by
    unfold qpToStopping
    dsimp only
    rw [if_pos (show (fnOf u (.qp q)).st = .on from hfn)]
    unfold qpCancel
    rw [show (qpOf (setFn u (.qp q) { fnOf u (.qp q) with st := .stopping, since := u.tick.elapsed }) q).outs = [] from by
      exact (congrArg Qp.outs (hqp q)).trans hnone]
    rfl
  intro t
  rw [show t = _ from hstop]
  refine ⟨?_, fun j hj => (qpOf_modQp_ne hj ..).trans (hqp j), ?_, hflight,
    ⟨{ code := 0x68, unit := BitVec.ofNat 16 q.val, detail := BitVec.ofNat 128 (syn + st.toNat <<< 8), gen := fnGen s (.qp q),
       tick := nowTick s }, ?_, rfl, rfl⟩, ?_⟩
  · refine (qpOf_modQp_ctx (c := c) ((congrArg Qp.ctx (hqp q)).trans hc)).trans ?_
    rw [show qpOf (setFn u (.qp q) { fnOf u (.qp q) with st := .stopping, since := u.tick.elapsed }) q = qpOf s q from hqp q, hnone]
    exact congrArg (fun y => { qpOf s q with outs := y }) hnone.symm
  · exact congrArg Fn.st (fnOf_setFn_of_st (.qp q) u (v := { fnOf u (.qp q) with st := .stopping, since := u.tick.elapsed }) (by simp))
  · change _ ∈ u.counts.sideband
    rw [hside]
    exact List.mem_append_right _ (List.mem_singleton_self _)
  · obtain ⟨_, _, _, rfl⟩ := hhost
    exact ⟨_, _, _, rfl⟩

/-- The one descriptor ends and its queue pair stops. -/
theorem gwEnd_qpStop (hc : (qpOf s q).ctx = some c) (hon : fnSt s (.qp q) = .on) (hone : (qpOf s q).outs = [o]) (syn st) :
    let t := qpStop q syn st (gwEnd q o.d st s)
    (qpOf t q).outs = [] ∧ flightOf t o.d = none ∧ fnSt t (.qp q) = .stopping
      ∧ (∃ e ∈ t.counts.sideband, e.code = 0x68 ∧ e.unit = BitVec.ofNat 16 q.val)
      ∧ OtherQps q s t ∧ HostOnly { s with gw := t.gw, fns := t.fns } t := by
  intro t
  have hend := gwEnd_over hc hone st
  have hfn : fnSt (gwEnd q o.d st s) (.qp q) = .on := by
    rw [hend.host.eq]
    exact hon
  obtain ⟨hown, hothers, hst, hflight, hev, hhost⟩ := qpStop_stops (c := c) (by rw [hend.own]; exact hc) hfn (by rw [hend.own]) syn st
  refine ⟨(congrArg Qp.outs hown).trans (by rw [hend.own]), ?_, hst, hev, fun j hj => (hothers j hj).trans (hend.others j hj), ?_⟩
  · rw [flightOf, hflight]
    exact hend.flight
  · obtain ⟨_, _, _, he⟩ := hend.host
    obtain ⟨_, _, _, ht⟩ := hhost
    rw [show t = _ from ht, he]
    exact ⟨_, _, _, rfl⟩

/-! ### Sending again (R622) -/

/-- A descriptor that is sent again from its first packet that is not acknowledged. -/
def outAgain (o : GwOut) : GwOut := if o.started && o.acked < o.n then { o with sent := o.acked, fetching := none } else o

/-- A queue pair that sends again. -/
def qpAgain (now : BitVec 48) (x : Qp) : Qp :=
  { x with outs := x.outs.map outAgain, ready := x.ready.filter (fun p => p.op = .ack || isResp p.op || p.op = .cnp), ackAt := now }

theorem gwResend_eq (q l) (s : State) : gwResend q l s = gwPump q (bumpEth l 51 1 (modQp q (qpAgain s.tick.elapsed) s)) := rfl

theorem gwResend_pumped (hc : (qpOf s q).ctx = some c) (l) : Pumped q s (gwResend q l s) ∧ (qpOf (gwResend q l s) q).ackAt = s.tick.elapsed := by
  have hagain : qpOf (modQp q (qpAgain s.tick.elapsed) s) q = qpAgain s.tick.elapsed (qpOf s q) := qpOf_modQp_ctx (c := c) hc
  have hpump := gwPump_pumped q (bumpEth l 51 1 (modQp q (qpAgain s.tick.elapsed) s))
  have hstep : Pumped q s (bumpEth l 51 1 (modQp q (qpAgain s.tick.elapsed) s)) :=
    (Pumped.of_modQp (c := c) hc ⟨qpAgain s.tick.elapsed (qpOf s q), rfl, .inr rfl⟩).trans (CoreOnly.pumped ⟨_, _, _, _, rfl⟩)
  rw [gwResend_eq]
  refine ⟨hstep.trans hpump, ?_⟩
  obtain ⟨x, hown, hack⟩ := hpump.own
  have hnow : (qpOf (bumpEth l 51 1 (modQp q (qpAgain s.tick.elapsed) s)) q).ackAt = s.tick.elapsed := congrArg Qp.ackAt hagain
  rw [hown]
  exact hack.elim (fun h => h.trans hnow) id

/-- The one descriptor goes again from the oldest PSN that is not acknowledged. -/
theorem gwResend_one (hc : (qpOf s q).ctx = some c) (hone : (qpOf s q).outs = [o]) (hs : o.started = true) (hopen : o.acked < o.n) (l) :
    ∃ o', (qpOf (gwResend q l s) q).outs = [o'] ∧ o'.d = o.d ∧ o'.psn = o.psn ∧ o'.acked = o.acked ∧ (o.op ≠ 0x65 → o'.sent = o.acked) := by
  have hagain : qpOf (modQp q (qpAgain s.tick.elapsed) s) q = qpAgain s.tick.elapsed (qpOf s q) := qpOf_modQp_ctx (c := c) hc
  have houts : (qpOf (bumpEth l 51 1 (modQp q (qpAgain s.tick.elapsed) s)) q).outs = [{ o with sent := o.acked, fetching := none }] := by
    refine (congrArg Qp.outs hagain).trans ?_
    change (qpOf s q).outs.map outAgain = _
    rw [hone, List.map_singleton, outAgain, if_pos (by simp [hs, hopen])]
  obtain ⟨⟨o', ho', a, p, n, x, rfl, hpsn, hsent⟩, -, -⟩ := gwPump_one (c := c)
    (s := bumpEth l 51 1 (modQp q (qpAgain s.tick.elapsed) s)) ((congrArg Qp.ctx hagain).trans hc) houts
  rw [gwResend_eq]
  exact ⟨_, ho', rfl, (hpsn hs).2, rfl, hsent⟩

end

end Machine
end Sys2Proof
end

section
/-!
PROOF. RdmaAnswersAndTimers (O43): the rows of answers and timers, and the statement.
-/
namespace Sys2Proof
namespace Machine
set_option Elab.async false

section
variable {s s1 : State} {m : RoceMsg} {q : Fin 16384} {c : QpCtx} {o : GwOut}

theorem FrameTaken.tick (h : FrameTaken s s1) : s1.tick = s.tick := by rw [h.eq]

theorem FrameTaken.work (h : FrameTaken s s1) : s1.work = s.work := by rw [h.eq]

theorem FrameTaken.fnSt (h : FrameTaken s s1) (x : FnId) : Machine.fnSt s1 x = Machine.fnSt s x := by
  rw [h.eq]
  rfl

/-- What a queue pair is when an answer for it has come in. -/
theorem RoceComes.facts (h : RoceComes s m q c s1) : (∀ j, qpOf s1 j = qpOf s j) ∧ (qpOf s1 q).ctx = some c ∧ fnSt s1 (.qp q) = .on := by
  obtain ⟨-, hc, -, hon, -⟩ := roceFor_spec h.1
  exact ⟨h.taken.qpOf, by rw [h.taken.qpOf]; exact hc, (h.taken.fnSt _).trans hon⟩

theorem oldestOut_one (hone : (qpOf s q).outs = [o]) (hs : o.started = true) (hopen : o.acked < o.n) : oldestOut (qpOf s q) = some o := by
  simp [oldestOut, hone, hs, hopen]

/-! ### An ACK (R620) -/

/-- A queue pair that has made progress with its acknowledgements. -/
def progressed (now : BitVec 48) (x : Qp) : Qp := { x with ackAt := now, retries := 0, rnrs := 0 }

theorem gwProgress_eq (q) (s : State) : gwProgress q s = modQp q (progressed s.tick.elapsed) s := rfl

theorem ack_completes (h : RoceComes s m q c s1) (hone : (qpOf s q).outs = [o]) (hop : o.op ≠ 0x65) (hs : o.started = true)
    (hle : o.acked ≤ o.n) (hall : coveredBy o m.psn = o.n) :
    let t := gwPump q (gwProgress q (gwAckTo q m.psn s1))
    (qpOf t q).outs = [] ∧ flightOf t o.d = none ∧ (qpOf t q).retries = 0 ∧ (qpOf t q).rnrs = 0 ∧ OtherQps q s t
      ∧ HostOnly { s1 with gw := t.gw } t := by
  obtain ⟨hqp, hc, -⟩ := h.facts
  have hover := gwAckTo_completes (p := m.psn) hc (by rw [hqp]; exact hone) hop hs hle hall
  have hown : qpOf (gwProgress q (gwAckTo q m.psn s1)) q
      = progressed (gwAckTo q m.psn s1).tick.elapsed { qpOf s1 q with outs := [] } := by
    rw [gwProgress_eq, qpOf_modQp_ctx (c := c) (by rw [hover.own]; exact hc), hover.own]
  intro t
  have ht : t = gwProgress q (gwAckTo q m.psn s1) := gwPump_nothing (by rw [hown]; rfl)
  rw [ht]
  refine ⟨by rw [hown]; rfl, hover.flight, by rw [hown]; rfl, by rw [hown]; rfl,
    fun j hj => (qpOf_modQp_ne hj ..).trans ((hover.others j hj).trans (hqp j)), ?_⟩
  obtain ⟨_, _, _, he⟩ := hover.host
  rw [he]
  exact ⟨_, _, _, rfl⟩

/-! ### A READ response (R620) -/

/-- A READ whose next response has been taken. -/
def respTaken (o : GwOut) : GwOut := { o with acked := o.acked + 1, writes := o.writes + 1 }

/-- What a READ response does to its queue pair. -/
def readResponse (q : Fin 16384) (c : QpCtx) (m : RoceMsg) (s : State) : State :=
  match (qpOf s q).outs.find? (fun o => o.op = 0x65 && o.started && decide (o.acked < o.n)) with
  | none => s
  | some o =>
    if psnAdd o.psn o.acked ≠ m.psn || m.payload.length ≠ min c.mtu (o.len - o.acked * c.mtu) then s
    else
      match sendItem (ethCore c.port) (gwTags (80 + c.port.val))
          { opcode := 0x02, vc := 6, addr := o.addr + BitVec.ofNat 64 (o.acked * c.mtu), tenant := (qpOf s q).tenant }
          (min c.mtu (o.len - o.acked * c.mtu)) m.payload (.gwOut o.d m.psn) s with
      | none => s
      | some w => gwPump q (gwProgress q (modGwOut q o.d respTaken w))

theorem exec_rdmaReadResponse (h : RoceComes s m q c s1) : exec (.rdmaReadResponse m) s = .next (readResponse q c m s1) :=
  congrArg Host.Outcome.next (roceCame_comes h _)

theorem readResponse_taken (h : RoceComes s m q c s1) (hone : (qpOf s q).outs = [o]) (hop : o.op = 0x65) (hs : o.started = true)
    (hopen : o.acked < o.n) (hpsn : psnAdd o.psn o.acked = m.psn) (hlen : m.payload.length = min c.mtu (o.len - o.acked * c.mtu))
    (htag : (findTag s (gwTags (80 + c.port.val)).1 (gwTags (80 + c.port.val)).2).isSome = true) :
    let t := readResponse q c m s1
    (∃ o', (qpOf t q).outs = [o'] ∧ o'.acked = o.acked + 1 ∧ o'.writes = o.writes + 1 ∧ o'.d = o.d)
      ∧ (∃ w ∈ t.items.own, w.use = .gwOut o.d m.psn ∧ w.opcode = 0x02 ∧ w.len = m.payload.length
          ∧ w.addr = o.addr + BitVec.ofNat 64 (o.acked * c.mtu))
      ∧ (qpOf t q).retries = 0 ∧ OtherQps q s t ∧ t.larder = s1.larder ∧ t.work = s.work := by
  obtain ⟨hqp, hc, -⟩ := h.facts
  have htag1 : (findTag s1 (gwTags (80 + c.port.val)).1 (gwTags (80 + c.port.val)).2).isSome = true := by
    rw [findTag_congr (s := s)]
    · exact htag
    · intro n
      rw [h.taken.eq]
      rfl
  obtain ⟨w, i, hsend, hi, huse, hiop, haddr, hilen⟩ := sendItem_sends (i := ethCore c.port) (tags := gwTags (80 + c.port.val))
    { opcode := 0x02, vc := 6, addr := o.addr + BitVec.ofNat 64 (o.acked * c.mtu), tenant := (qpOf s1 q).tenant }
    (min c.mtu (o.len - o.acked * c.mtu)) m.payload (.gwOut o.d m.psn) htag1
  have hcore := sendItem_core hsend
  have hw : ∀ j, qpOf w j = qpOf s j := fun j => by
    obtain ⟨_, _, _, _, rfl⟩ := hcore
    exact hqp j
  have hcw : (qpOf w q).ctx = some c := by
    rw [hw, ← hqp]
    exact hc
  have hfind : (qpOf s1 q).outs.find? (fun o => o.op = 0x65 && o.started && decide (o.acked < o.n)) = some o := by
    rw [hqp, hone]
    simp [hop, hs, hopen]
  have hmod : qpOf (modGwOut q o.d respTaken w) q = { qpOf s q with outs := [respTaken o] } := by
    rw [qpOf_modGwOut hcw, hw, hone]
    simp
  have hown : qpOf (gwProgress q (modGwOut q o.d respTaken w)) q
      = progressed (modGwOut q o.d respTaken w).tick.elapsed { qpOf s q with outs := [respTaken o] } := by
    rw [gwProgress_eq, qpOf_modQp_ctx (c := c) (by rw [hmod, ← hw]; exact hcw), hmod]
  have hcall : readResponse q c m s1 = gwPump q (gwProgress q (modGwOut q o.d respTaken w)) := by
    unfold readResponse
    rw [hfind]
    dsimp only
    rw [if_neg (by simp [hpsn, hlen]), hsend]
  intro t
  rw [show t = _ from hcall]
  have hpump := gwPump_pumped q (gwProgress q (modGwOut q o.d respTaken w))
  obtain ⟨⟨o', ho', a, p, n, x, rfl, -, -⟩, -, hitems⟩ := gwPump_one (s := gwProgress q (modGwOut q o.d respTaken w)) (c := c)
    (o := respTaken o) (by rw [hown, ← hcw, hw]; rfl) (by rw [hown]; rfl)
  obtain ⟨y, hy, -⟩ := hpump.own
  have hmems := hpump.moved.mems
  refine ⟨⟨_, ho', rfl, rfl, rfl⟩, ⟨i, by rw [hitems hop]; exact hi, huse, hiop, by rw [hilen, hlen], haddr⟩, ?_,
    fun j hj => (hpump.others j hj).trans ((qpOf_modQp_ne hj ..).trans ((qpOf_modQp_ne hj ..).trans (hw j))), ?_, ?_⟩
  · rw [hy, hown]
    rfl
  · exact hmems.1.trans hcore.kept.1
  · exact hmems.2.trans (hcore.kept.2.1.trans h.taken.work)

/-! ### NAKs (R622) -/

/-- A NAK that acknowledges nothing new is counted, and changes no queue pair yet. -/
theorem nak_nothing (h : RoceComes s m q c s1) (hone : (qpOf s q).outs = [o]) (hopen : o.acked < o.n)
    (hold : coveredBy o (m.psn - 1) ≤ o.acked) : (∀ j, qpOf (gwAckTo q (m.psn - 1) (bumpEth c.port 50 1 s1)) j = qpOf s j)
      ∧ ∃ g n, gwAckTo q (m.psn - 1) (bumpEth c.port 50 1 s1) = { s1 with gw := g, counts := n } := by
  obtain ⟨hqp, hc, -⟩ := h.facts
  have hbump : ∀ j, qpOf (bumpEth c.port 50 1 s1) j = qpOf s j := hqp
  obtain ⟨hkeep, g, hg⟩ := gwAckTo_nothing (s := bumpEth c.port 50 1 s1) (p := m.psn - 1) (q := q) (c := c) (o := o) hc
    (by rw [hbump]; exact hone) hopen hold
  exact ⟨fun j => (hkeep j).trans (hbump j), g, _, hg.trans rfl⟩

/-- A queue pair that an RNR NAK holds until nanosecond `n`. -/
def rnrHeld (n : Nat) (x : Qp) : Qp := { x with rnrs := x.rnrs + 1, rnrTo := some n }

theorem gwRefused_eq (h : RoceComes s m q c s1) (hone : (qpOf s q).outs = [o]) (hs : o.started = true) (hopen : o.acked < o.n)
    (hold : coveredBy o (m.psn - 1) ≤ o.acked) (hin : psnDiff o.psn m.psn < o.n) (syn st) :
    gwRefused syn st m s = qpStop q syn st (gwEnd q o.d st (gwAckTo q (m.psn - 1) (bumpEth c.port 50 1 s1))) := by
  obtain ⟨hqp, -⟩ := nak_nothing h hone hopen hold
  have hfind : (qpOf (gwAckTo q (m.psn - 1) (bumpEth c.port 50 1 s1)) q).outs.find?
      (fun o => o.started && decide (psnDiff o.psn m.psn < o.n)) = some o := by
    rw [hqp, hone]
    simp [hs, hin]
  unfold gwRefused
  rw [roceCame_comes h]
  dsimp only
  rw [hfind]

/-! ### Timers (R622) -/

theorem exec_qpAckTimeout (hc : (qpOf s q).ctx = some c) (hold : oldestOut (qpOf s q) = some o) : exec (.qpAckTimeout q) s = .next (
    if (qpOf s q).rnrTo.isSome || ageOf s (qpOf s q).ackAt < c.ackTicks then s
    else if c.retryCnt ≤ (qpOf s q).retries then gwExhaust q s
    else gwResend q c.port (modQp q (fun x => { x with retries := x.retries + 1 }) s)) := by
  refine congrArg Host.Outcome.next ?_
  rw [hc, hold]

theorem exec_qpRnrTimer {n : Nat} (hc : (qpOf s q).ctx = some c) (hn : (qpOf s q).rnrTo = some n) : exec (.qpRnrTimer q) s = .next (
    if n ≤ s.tick.ns then gwResend q c.port (modQp q (fun x => { x with rnrTo := none }) s) else s) := by
  refine congrArg Host.Outcome.next ?_
  rw [hc, hn]

/-! ### A CNP (R627) -/

theorem exec_cnp {frame : List Byte} (hc : (qpOf s q).ctx = some c) : exec (.cnp ⟨q, frame⟩) s = .next (
    if fnSt s (.qp q) = .on && ethTakes s c.port frame then
      match ethPass c.port frame s with
      | (none, w) => w
      | (some _, w) => bumpEth c.port 48 1 (modQp q (fun x => { x with cnpIn := true }) w)
    else s) := by
  refine congrArg Host.Outcome.next ?_
  simp only [hc] <;> rfl

end

end Machine

open Machine

/-- Settles O43: each answer through what it acknowledges, then through the step, the end or the retransmission of the one descriptor. -/
theorem rdmaAnswersAndTimers : Obligations.RdmaAnswersAndTimers := by
  unfold Obligations.RdmaAnswersAndTimers
  refine ⟨?_, ?_, ?_, ?_, ?_, ?_, ?_, ?_, ?_, ?_, ?_, ?_, ?_⟩
  · intro s s1 m q c o h hone hop hs hle hall
    exact ⟨_, congrArg Host.Outcome.next (roceCame_comes h _), ack_completes h hone hop hs hle hall⟩
  · intro s s1 m q c o h hone hop hs hopen hpsn hlen htag
    exact ⟨_, exec_rdmaReadResponse h, readResponse_taken h hone hop hs hopen hpsn hlen htag⟩
  · intro s s1 m q c o h hone hs hopen hold
    obtain ⟨hqp, g, n, heq⟩ := nak_nothing h hone hopen hold
    obtain ⟨-, hc, -⟩ := h.facts
    have hc' : (qpOf (gwAckTo q (m.psn - 1) (bumpEth c.port 50 1 s1)) q).ctx = some c := by
      rw [hqp, ← h.taken.qpOf]
      exact hc
    obtain ⟨hpump, hack⟩ := gwResend_pumped hc' c.port
    have hmems := hpump.moved.mems
    refine ⟨_, congrArg Host.Outcome.next (roceCame_comes h _), gwResend_one hc' (by rw [hqp]; exact hone) hs hopen c.port, hack.trans ?_,
      fun j hj => (hpump.others j hj).trans (hqp j), hmems.1.trans (by rw [heq]), hmems.2.trans ?_⟩
    · rw [heq]
      rw [← h.taken.tick]
    · rw [heq]
      exact h.taken.work
  · intro s s1 m q c o h hone hs hopen hold hrnr
    obtain ⟨hqp, g, n, heq⟩ := nak_nothing h hone hopen hold
    obtain ⟨-, hc, -⟩ := h.facts
    have hc' : (qpOf (gwAckTo q (m.psn - 1) (bumpEth c.port 50 1 s1)) q).ctx = some c := by
      rw [hqp, ← h.taken.qpOf]
      exact hc
    have hexec : exec (.rnrNak m) s = .next (modQp q
        (rnrHeld ((gwAckTo q (m.psn - 1) (bumpEth c.port 50 1 s1)).tick.ns + rnrNs m.timer)) (gwAckTo q (m.psn - 1) (bumpEth c.port 50 1 s1))) := by
      refine congrArg Host.Outcome.next ((roceCame_comes h _).trans (if_neg ?_))
      rw [hqp]
      omega
    have hns : (gwAckTo q (m.psn - 1) (bumpEth c.port 50 1 s1)).tick.ns = s.tick.ns := by
      rw [heq]
      rw [← h.taken.tick]
    refine ⟨_, hexec, ?_, fun j hj => (qpOf_modQp_ne hj ..).trans (hqp j), ?_⟩
    · rw [qpOf_modQp_ctx (c := c) hc', hqp, hns]
      rfl
    · rw [heq]
      rfl
  · intro s s1 m q c o i hi h hone hs hopen hold hin
    obtain ⟨hqp, g, n, heq⟩ := nak_nothing h hone hopen hold
    obtain ⟨-, hc, hon⟩ := h.facts
    have hrow : ∃ syn st, exec i s = .next (gwRefused syn st m s) := by
      simp only [List.mem_cons, List.not_mem_nil, or_false] at hi
      rcases hi with rfl | rfl | rfl
      · exact ⟨synAccess, stDenied, rfl⟩
      · exact ⟨synInvalid, stDenied, rfl⟩
      · exact ⟨synOperational, stDataError, rfl⟩
    obtain ⟨syn, st, hexec⟩ := hrow
    have hc' : (qpOf (gwAckTo q (m.psn - 1) (bumpEth c.port 50 1 s1)) q).ctx = some c := by
      rw [hqp, ← h.taken.qpOf]
      exact hc
    have hon' : fnSt (gwAckTo q (m.psn - 1) (bumpEth c.port 50 1 s1)) (.qp q) = .on := by
      rw [heq]
      exact hon
    obtain ⟨houts, hflight, hst, hev, hothers, hhost⟩ := gwEnd_qpStop hc' hon' (by rw [hqp]; exact hone) syn st
    refine ⟨_, hexec.trans (congrArg _ (gwRefused_eq h hone hs hopen hold hin syn st)), houts, hflight, hst, hev,
      fun j hj => (hothers j hj).trans (hqp j), ?_⟩
    obtain ⟨_, _, _, he⟩ := hhost
    rw [he, heq]
    exact ⟨_, _, _, rfl⟩
  · intro s q c frame hc
    refine ⟨fun s1 ce hon htakes hpass => ?_, fun s1 hon htakes hpass => ?_, fun h => ?_⟩
    · rw [exec_cnp hc, if_pos (by simp [hon, htakes]), hpass]
    · rw [exec_cnp hc, if_pos (by simp [hon, htakes]), hpass]
    · refine (exec_cnp hc).trans (congrArg _ (if_neg ?_))
      obtain h | h := h <;> simp [h]
  · rintro ⟨i, f⟩ hi s s1 m q c h
    simp only [List.mem_cons, Prod.mk.injEq, List.not_mem_nil, or_false] at hi
    rcases hi with ⟨rfl, rfl⟩ | ⟨rfl, rfl⟩
    · exact congrArg Host.Outcome.next (roceCame_comes h _)
    · exact congrArg Host.Outcome.next (roceCame_comes h _)
  · intro i hi s m hnone
    simp only [List.mem_cons, List.not_mem_nil, or_false] at hi
    rcases hi with rfl | rfl | rfl | rfl | rfl | rfl | rfl <;> exact congrArg Host.Outcome.next (roceCame_none hnone _)
  · intro s q c o hc hon hone hs hopen hrnr hage hretry
    have hold := oldestOut_one hone hs hopen
    have hexec : exec (.qpAckTimeout q) s = .next (gwResend q c.port (modQp q (fun x => { x with retries := x.retries + 1 }) s)) := by
      rw [exec_qpAckTimeout hc hold, if_neg (by simp [hrnr, hage]), if_neg (by omega)]
    have hmod : qpOf (modQp q (fun x => { x with retries := x.retries + 1 }) s) q = { qpOf s q with retries := (qpOf s q).retries + 1 } :=
      qpOf_modQp_ctx (c := c) hc
    have hc' : (qpOf (modQp q (fun x => { x with retries := x.retries + 1 }) s) q).ctx = some c := by
      rw [hmod]
      exact hc
    obtain ⟨hpump, hack⟩ := gwResend_pumped hc' c.port
    obtain ⟨y, hy, -⟩ := hpump.own
    refine ⟨_, hexec, ?_, gwResend_one hc' (by rw [hmod]; exact hone) hs hopen c.port, hack,
      fun j hj => (hpump.others j hj).trans (qpOf_modQp_ne hj ..), hpump.moved.mems.1, hpump.moved.mems.2⟩
    rw [hy, hmod]
  · intro s q c o hc hon hone hs hopen hrnr hage hretry
    have hold := oldestOut_one hone hs hopen
    have hexec : exec (.qpAckTimeout q) s = .next (qpStop q 0xFF stTimeout (gwEnd q o.d stTimeout s)) := by
      rw [exec_qpAckTimeout hc hold, if_neg (by simp [hrnr, hage]), if_pos hretry, gwExhaust, hold]
    obtain ⟨houts, hflight, hst, -, hothers, hhost⟩ := gwEnd_qpStop hc hon hone 0xFF stTimeout
    exact ⟨_, hexec, houts, hflight, hst, hothers, hhost⟩
  · intro s q c n hc hn hdue
    have hmod : qpOf (modQp q (fun x => { x with rnrTo := none }) s) q = { qpOf s q with rnrTo := none } := qpOf_modQp_ctx (c := c) hc
    obtain ⟨hpump, hack⟩ := gwResend_pumped (s := modQp q (fun x => { x with rnrTo := none }) s) (q := q) (c := c)
      (by rw [hmod]; exact hc) c.port
    obtain ⟨y, hy, -⟩ := hpump.own
    refine ⟨_, (exec_qpRnrTimer hc hn).trans (congrArg _ (if_pos hdue)), ?_, hack,
      fun j hj => (hpump.others j hj).trans (qpOf_modQp_ne hj ..), hpump.moved.mems.1, hpump.moved.mems.2⟩
    rw [hy, hmod]
  · intro s q c hc
    refine ⟨fun n hn hdue => (exec_qpRnrTimer hc hn).trans (congrArg _ (if_pos hdue)), fun o hold hrnr hage => ?_, fun h => ?_⟩
    · rw [exec_qpAckTimeout hc hold, if_neg (by simp [hrnr, hage])]
    · cases hold : oldestOut (qpOf s q) with
      | none =>
        refine congrArg Host.Outcome.next ?_
        rw [hc, hold]
      | some o =>
        rw [hold] at h
        refine (exec_qpAckTimeout hc hold).trans (congrArg _ (if_pos ?_))
        obtain h | h | h := h
        · simp [h]
        · simp [h]
        · cases h
  · intro s q h
    refine congrArg Host.Outcome.next ?_
    cases hc : (qpOf s q).ctx with
    | none => rfl
    | some c =>
      cases hn : (qpOf s q).rnrTo with
      | none => rfl
      | some n => exact if_neg (Nat.not_le.mpr (h n hn))

end Sys2Proof
end

section
/-!
PROOF. Stuffed coding, the scrambler, CAP bodies and training frames (R630, R639, R640, Tables 18-3 and 18-4).
-/
namespace Sys2Proof
namespace Machine
set_option Elab.async false

/-! ### Stuffed coding (R639) -/

/-- Removing the stuffed bits gives the bits back, from any run that is not yet full. -/
theorem unstuff_stuff : ∀ (bs : List Bool) (last : Bool) (run : Nat), run < 15 → unstuff last run (stuff last run bs) = bs
  | [], _, _, _ => rfl
  | b :: t, last, run, h => by
    have hn : (if b = last then run + 1 else 1) ≤ 15 := by split <;> omega
    rw [stuff]
    by_cases hfull : (if b = last then run + 1 else 1) = 15
    · rw [if_pos hfull, unstuff, if_neg (by omega), hfull, unstuff, if_pos rfl, unstuff_stuff t (!b) 1 (by omega)]
    · rw [if_neg hfull, unstuff, if_neg (by omega), unstuff_stuff t b _ (by omega)]

/-- From a run of `run` bits of value `last`, no run of the line grows past 15. -/
def runsKept : Bool → Nat → List Bool → Prop
  | _, _, [] => True
  | last, run, b :: t => (if b = last then run + 1 else 1) ≤ 15 ∧ runsKept b (if b = last then run + 1 else 1) t

theorem runsKept_stuff : ∀ (bs : List Bool) (last : Bool) (run : Nat), run < 15 → runsKept last run (stuff last run bs)
  | [], _, _, _ => trivial
  | b :: t, last, run, h => by
    have hn : (if b = last then run + 1 else 1) ≤ 15 := by split <;> omega
    rw [stuff]
    by_cases hfull : (if b = last then run + 1 else 1) = 15
    · rw [if_pos hfull]
      refine ⟨hn, ?_⟩
      rw [runsKept, if_neg (by simp)]
      exact ⟨by omega, runsKept_stuff t (!b) 1 (by omega)⟩
    · rw [if_neg hfull]
      exact ⟨hn, runsKept_stuff t b _ (by omega)⟩

theorem runsKept_drop : ∀ (k : Nat) {xs : List Bool} {last : Bool} {run : Nat}, runsKept last run xs →
    ∃ last' run', runsKept last' run' (xs.drop k)
  | 0, _, last, run, h => ⟨last, run, h⟩
  | _ + 1, [], last, run, _ => ⟨last, run, trivial⟩
  | k + 1, _ :: _, _, _, h => runsKept_drop k h.2

theorem runsKept_replicate : ∀ (m : Nat) {b : Bool} {n : Nat} {rest : List Bool}, runsKept b n (List.replicate (m + 1) b ++ rest) →
    n + m + 1 ≤ 15
  | 0, _, _, _, h => by simpa using h.1
  | m + 1, b, n, rest, h => by
    rw [List.replicate_succ, List.cons_append, runsKept, if_pos rfl] at h
    have hrest := runsKept_replicate m h.2
    omega

/-- No 16 bits of the line are equal. -/
theorem take_ne_replicate {xs : List Bool} {last : Bool} {run : Nat} (h : runsKept last run xs) (b : Bool) :
    xs.take 16 ≠ List.replicate 16 b := by
  intro htake
  have hxs : xs = List.replicate 16 b ++ xs.drop 16 := by rw [← htake, List.take_append_drop]
  rw [hxs, List.replicate_succ, List.cons_append] at h
  have hpos : 1 ≤ (if b = last then run + 1 else 1) := by split <;> omega
  have hlong := runsKept_replicate 14 h.2
  omega

/-! ### The scrambler (R630) -/

theorem descramble_scramble : ∀ (r : BitVec 58) (bs : List Bool), (descramble r (scramble r bs).1).1 = bs
  | _, [] => rfl
  | r, d :: t => by
    simp only [scramble, descramble, List.cons.injEq]
    exact ⟨by simp, descramble_scramble _ t⟩

theorem length_scramble : ∀ (r : BitVec 58) (bs : List Bool), (scramble r bs).1.length = bs.length
  | _, [] => rfl
  | _, _ :: t => congrArg (· + 1) (length_scramble _ t)

/-! ### Bits and bytes (R631) -/

theorem bitsNat_natBits : ∀ n v : Nat, bitsNat (natBits n v) = v % 2 ^ n
  | 0, v => (Nat.mod_one v).symm
  | n + 1, v => by
    rw [natBits, bitsNat, bitsNat_natBits n, pow_succ', Nat.mod_mul]
    obtain h | h := Nat.mod_two_eq_zero_or_one v <;> simp [h]

theorem length_natBits : ∀ n v : Nat, (natBits n v).length = n
  | 0, _ => rfl
  | n + 1, v => congrArg (· + 1) (length_natBits n (v / 2))

theorem byteBits_cons (b : Byte) (bs : List Byte) : byteBits (b :: bs) = natBits 8 b.toNat ++ byteBits bs := rfl

theorem length_byteBits : ∀ bs : List Byte, (byteBits bs).length = 8 * bs.length
  | [] => rfl
  | b :: bs => by
    rw [byteBits_cons, List.length_append, length_natBits, length_byteBits bs, List.length_cons]
    omega

theorem bitBytes_byteBits : ∀ bs : List Byte, bitBytes (byteBits bs) = bs
  | [] => rfl
  | b :: bs => by
    have hcons : bitBytes (natBits 8 b.toNat ++ byteBits bs) = BitVec.ofNat 8 (bitsNat (natBits 8 b.toNat)) :: bitBytes (byteBits bs) := rfl
    rw [byteBits_cons, hcons, bitsNat_natBits, bitBytes_byteBits bs]
    exact congrArg (· :: bs) (BitVec.eq_of_toNat_eq (by simpa using b.isLt))

theorem byteBits_append (xs ys : List Byte) : byteBits (xs ++ ys) = byteBits xs ++ byteBits ys := List.flatMap_append

/-! ### Training frames (Table 18-3) -/

/-- Message, body and frame count of a training frame. -/
def trainMid (msg : BitVec 8) (body : BitVec 64) (n : BitVec 8) : List Byte :=
  leBytes 1 msg.toNat ++ leBytes 8 body.toNat ++ leBytes 1 n.toNat

@[simp] theorem length_trainMid (msg body n) : (trainMid msg body n).length = 10 := by simp [trainMid]

theorem trainBytes_eq (msg body n) :
    trainBytes msg body n = leBytes 4 0x3C5A96E1 ++ (trainMid msg body n ++ leBytes 2 (crc16 (trainMid msg body n)).toNat) :=
  List.append_assoc ..

section
variable (msg : BitVec 8) (body : BitVec 64) (n : BitVec 8)

theorem length_trainBytes : (trainBytes msg body n).length = 16 := by simp [trainBytes_eq]

theorem sync_trainBytes : leAt (trainBytes msg body n) 0 4 = 0x3C5A96E1 := by
  rw [trainBytes_eq, leAt_append_left (by simp), leAt_leBytes (by omega)]
  rfl

theorem leAt_trainMid {i k : Nat} (h : i + k ≤ 10) : leAt (trainBytes msg body n) (4 + i) k = leAt (trainMid msg body n) i k := by
  have happ := leAt_append_right (leBytes 4 0x3C5A96E1) (trainMid msg body n ++ leBytes 2 (crc16 (trainMid msg body n)).toNat) i k
  rw [leBytes_length] at happ
  rw [trainBytes_eq, happ, leAt_append_left (by rw [length_trainMid]; exact h)]

theorem msg_trainBytes : leAt (trainBytes msg body n) 4 1 = msg.toNat := by
  rw [show 4 = 4 + 0 from rfl, leAt_trainMid _ _ _ (by omega), trainMid, List.append_assoc, leAt_append_left (by simp),
    leAt_leBytes (by omega)]
  have := msg.isLt
  omega

theorem body_trainBytes : leAt (trainBytes msg body n) 5 8 = body.toNat := by
  have happ := leAt_append_right (leBytes 1 msg.toNat) (leBytes 8 body.toNat ++ leBytes 1 n.toNat) 0 8
  rw [leBytes_length] at happ
  rw [show 5 = 4 + (1 + 0) from rfl, leAt_trainMid _ _ _ (by omega), trainMid, List.append_assoc, happ, leAt_append_left (by simp),
    leAt_leBytes (by omega)]
  have := body.isLt
  omega

theorem trainGood_trainBytes : trainGood (trainBytes msg body n) = true := by
  have hmid : slice (trainBytes msg body n) 4 10 = trainMid msg body n := by
    have hslice := slice_append_mid (leBytes 4 0x3C5A96E1) (trainMid msg body n) (leBytes 2 (crc16 (trainMid msg body n)).toNat)
    rwa [leBytes_length, length_trainMid, ← trainBytes_eq] at hslice
  have hcrc : leAt (trainBytes msg body n) 14 2 = (crc16 (trainMid msg body n)).toNat := by
    have happ := leAt_append_right (leBytes 4 0x3C5A96E1 ++ trainMid msg body n) (leBytes 2 (crc16 (trainMid msg body n)).toNat) 0 2
    rw [List.length_append, leBytes_length, length_trainMid, List.append_assoc, ← trainBytes_eq] at happ
    rw [show 14 = 4 + 10 + 0 from rfl, happ, leAt_leBytes (by omega)]
    have := (crc16 (trainMid msg body n)).isLt
    omega
  simp only [trainGood, hmid, hcrc, decide_true]

/-- A lane whose stuffing and scrambler stand as the sender's gives the frame that was sent. -/
theorem trainRx_trainBits {a : Lane} (h : a.run = (false, 0)) :
    (trainRx a (trainBits a.descr (trainBytes msg body n))).2 = some (msg, body) := by
  have hsync : (byteBits ((trainBytes msg body n).take 4)).length = 32 := by rw [length_byteBits, List.length_take, length_trainBytes]; rfl
  have hrest : (scramble a.descr (byteBits ((trainBytes msg body n).drop 4))).1.length = 96 := by
    rw [length_scramble, length_byteBits, List.length_drop, length_trainBytes]
  have hraw : unstuff a.run.1 a.run.2 (trainBits a.descr (trainBytes msg body n)) = byteBits ((trainBytes msg body n).take 4)
      ++ (scramble a.descr (byteBits ((trainBytes msg body n).drop 4))).1 := by
    rw [h]
    exact unstuff_stuff _ false 0 (by omega)
  have hbytes : bitBytes (byteBits ((trainBytes msg body n).take 4) ++ byteBits ((trainBytes msg body n).drop 4)) = trainBytes msg body n := by
    rw [← byteBits_append, List.take_append_drop, bitBytes_byteBits]
  simp only [trainRx, hraw, List.take_left' hsync, List.drop_left' hsync, descramble_scramble, hbytes, List.length_append, hsync, hrest,
    sync_trainBytes, trainGood_trainBytes, msg_trainBytes, body_trainBytes]
  simp

end

/-! ### CAP bodies (Table 18-4) -/

theorem capOfBody_capBody (c : TrainCap) : capOfBody (capBody c) = c := by
  obtain ⟨r, p, f, e, x⟩ := c
  have hr := r.isLt
  have hp := p.isLt
  have he := e.isLt
  have hx := x.isLt
  have hf : f.toNat < 2 := Bool.toNat_lt f
  have hbody : (capBody ⟨r, p, f, e, x⟩).toNat = r.toNat + 4 * p.toNat + 64 * f.toNat + 256 * e.toNat + 65536 * x.toNat := by
    simp only [capBody, BitVec.toNat_ofNat, Nat.shiftLeft_eq]
    omega
  simp only [capOfBody, TrainCap.mk.injEq]
  refine ⟨?_, ?_, ?_, ?_, ?_⟩
  · apply BitVec.eq_of_toNat_eq
    simp only [BitVec.extractLsb'_toNat, hbody, Nat.shiftRight_eq_div_pow]
    omega
  · apply BitVec.eq_of_toNat_eq
    simp only [BitVec.extractLsb'_toNat, hbody, Nat.shiftRight_eq_div_pow]
    omega
  · have hbit : bit (capBody ⟨r, p, f, e, x⟩) 6 = decide ((capBody ⟨r, p, f, e, x⟩).toNat / 2 ^ 6 % 2 = 1) := Nat.testBit_eq_decide_div_mod_eq
    rw [hbit, hbody]
    cases f
    · simp only [Bool.toNat_false, decide_eq_false_iff_not]
      omega
    · simp only [Bool.toNat_true, decide_eq_true_eq]
      omega
  · apply BitVec.eq_of_toNat_eq
    simp only [BitVec.extractLsb'_toNat, hbody, Nat.shiftRight_eq_div_pow]
    omega
  · apply BitVec.eq_of_toNat_eq
    simp only [BitVec.extractLsb'_toNat, hbody, Nat.shiftRight_eq_div_pow]
    omega

/-! ### Training lock (R640) -/

theorem lockStep_kept {z : Bool × Nat} {g : Bool} (h : z.1 = g) : ∀ m : Nat, (List.foldl lockStep z (List.replicate m g)).1 = g
  | 0 => h
  | m + 1 => by
    rw [List.replicate_succ, List.foldl_cons]
    exact lockStep_kept (by rw [lockStep, if_pos h]; exact h) m

/-- Enough frames of one kind in a row decide the lock. -/
theorem lockStep_changes {g : Bool} : ∀ (m : Nat) {z : Bool × Nat}, z.1 = !g → (if z.1 then 4 else 8) ≤ z.2 + m + 1 →
    (List.foldl lockStep z (List.replicate (m + 1) g)).1 = g
  | m, z, hz, hlong => by
    have hne : z.1 ≠ g := by simp [hz]
    rw [List.replicate_succ, List.foldl_cons, lockStep, if_neg hne]
    by_cases hdone : (if z.1 then 4 else 8) ≤ z.2 + 1
    · rw [if_pos hdone]
      exact lockStep_kept rfl m
    · rw [if_neg hdone]
      cases m with
      | zero => exact absurd hlong hdone
      | succ m =>
        refine lockStep_changes m hz ?_
        dsimp only
        omega

theorem lockStep_decided (z : Bool × Nat) (g : Bool) (m : Nat) (h : (if g then 8 else 4) ≤ m + 1) :
    (List.foldl lockStep z (List.replicate (m + 1) g)).1 = g := by
  by_cases hz : z.1 = g
  · exact lockStep_kept hz _
  · have hz' : z.1 = !g := Bool.eq_not_of_ne hz
    refine lockStep_changes m hz' ?_
    cases g <;> simp_all <;> omega

/-- Fewer frames leave the lock as it is. -/
theorem lockStep_short {g : Bool} : ∀ (m : Nat) {z : Bool × Nat}, z.1 = !g → z.2 + m < (if z.1 then 4 else 8) →
    (List.foldl lockStep z (List.replicate m g)).1 = !g
  | 0, _, hz, _ => hz
  | m + 1, z, hz, hshort => by
    have hne : z.1 ≠ g := by simp [hz]
    rw [List.replicate_succ, List.foldl_cons, lockStep, if_neg hne, if_neg (by omega)]
    exact lockStep_short m hz (by dsimp only; omega)

end Machine
end Sys2Proof
end

section
/-!
PROOF. LaneLadder (O46): what the commands of bring-up do with the lanes of a link (R641 to R644, Table 18-5).
-/
namespace Sys2Proof
namespace Machine
set_option Elab.async false

section
variable {s : State} {l : LinkId} {n m : LaneId} {f : Fin 4 → Lane → Lane}

/-! ### Lanes of a link -/

theorem lane_setLane (h : tblWf {} s.lanes = true) (v : Lane) : lane (setLane s n v) n = v := tblGet_tblSet_self _ _ _ _ h

theorem lane_modLanes_ne (h : linkOfLane n ≠ l) : lane (modLanes l f s) n = lane s n := by
  rw [modLanes_foldl]
  refine tblGet_foldl_tblMod_ne fun j _ he => h ?_
  rw [show n = laneId l j from Fin.ext he.symm, linkOfLane_laneId]

theorem modLanes_otherLanes (l f) (s : State) : OtherLanes l s (modLanes l f s) := fun _ h => lane_modLanes_ne h

theorem lane_modLanes_wf (h : tblWf {} s.lanes = true) (f : Fin 4 → Lane → Lane) (j : Fin 4) :
    lane (modLanes l f s) (laneId l j) = f j (lane s (laneId l j)) := lane_modLanes (.inl h)

theorem tblWf_modLanes (h : tblWf {} s.lanes = true) (l f) : tblWf {} (modLanes l f s).lanes = true := by
  rw [modLanes_foldl]
  exact List.foldlRecOn (motive := fun t => tblWf ({} : Lane) t = true) (List.finRange 4)
    (fun t j => tblMod ({} : Lane) t (laneId l j).val (f j)) h fun t ht j _ => tblWf_tblMod ({} : Lane) t _ _ ht

theorem modLanes_eq (l f) (s : State) : modLanes l f s = { s with lanes := (modLanes l f s).lanes } := by
  obtain ⟨x, hx⟩ := modLanes_lanes l f s
  rw [hx]

/-- The lanes of a mask are those that satisfy its predicate. -/
theorem laneCount_laneMask (s : State) (l : LinkId) (p : Lane → Bool) : laneCount (laneMask s l p)
    = ((List.finRange 4).filter (fun j => p (lane s (laneId l j)))).length := by
  have hfin : List.finRange 4 = [0, 1, 2, 3] := by decide
  simp only [laneMask, hfin, List.foldl_cons, List.foldl_nil, List.filter_cons, List.filter_nil]
  cases p (lane s (laneId l 0)) <;> cases p (lane s (laneId l 1)) <;> cases p (lane s (laneId l 2)) <;> cases p (lane s (laneId l 3)) <;> rfl

theorem mem_lanesWhere {p : Lane → Bool} {j : Fin 4} : j ∈ lanesWhere s l p ↔ p (lane s (laneId l j)) = true := by
  simp [lanesWhere]

/-! ### Holding lanes out (R647, R650) -/

/-- The lane as this end holds it out. -/
def heldOut (s : State) (a : Lane) : Lane :=
  if a.darkened then { a with ownOut := true, st := .dark, since := s.tick.ns } else toRecover s { a with ownOut := true }

theorem heldOut_out (s : State) (a : Lane) : (heldOut s a).ownOut = true := by
  unfold heldOut
  split <;> rfl

theorem holdLane_eq (n) (s : State) : holdLane n s = modLane n (heldOut s) s := rfl

theorem heldOut_ne (s : State) (a : Lane) : heldOut s a ≠ {} := ne_of_apply_ne Lane.ownOut (by rw [heldOut_out]; decide)

/-- Each lane of a list is held out, no other lane changes. -/
theorem holdLanes_spec (js : List (Fin 4)) (s : State) :
    js.foldl (fun s j => holdLane (laneId l j) s) s
      = { s with lanes := js.foldl (fun t j => tblMod {} t (laneId l j).val (heldOut s)) s.lanes } := by
  induction js generalizing s with
  | nil => rfl
  | cons j js ih =>
    rw [List.foldl_cons, ih]
    rfl

theorem lane_holdLanes_mem {js : List (Fin 4)} (hnd : js.Nodup) {j : Fin 4} (hj : j ∈ js) :
    lane (js.foldl (fun s j => holdLane (laneId l j) s) s) (laneId l j) = heldOut s (lane s (laneId l j)) := by
  rw [holdLanes_spec]
  exact tblGet_foldl_tblMod (f := fun _ => heldOut s) (laneId_injective l) hnd hj (.inr (heldOut_ne s _))

theorem lane_holdLanes_ne {js : List (Fin 4)} (h : ∀ j ∈ js, n ≠ laneId l j) :
    lane (js.foldl (fun s j => holdLane (laneId l j) s) s) n = lane s n := by
  rw [holdLanes_spec]
  exact tblGet_foldl_tblMod_ne (f := fun _ => heldOut s) fun j hj he => h j hj (Fin.ext he.symm)

theorem laneId_ne {i j : Fin 4} (h : i ≠ j) : laneId l i ≠ laneId l j := fun he => h (laneId_injective l (congrArg Fin.val he))

/-! ### Detect (R641) -/

theorem drawNonce_eq (l) (s : State) : drawNonce l s = { s with links := (drawNonce l s).links, free := s.free + 1 } := rfl

/-- A lane that goes from Detect to Negotiate. -/
def negotiating (ns : Nat) (a : Lane) : Lane := { a with st := .negotiate, since := ns, tries := 0, pass := none, peerPass := none }

/-- A detected lane goes to Negotiate, another stays. -/
def toNegotiate (s : State) (seen : List DetectLane) (j : Fin 4) (a : Lane) : Lane :=
  if ((seen[j.val]?).map heldLock).getD false && a.st = .detect && !a.ownOut && a.farLoop.isNone && decide (a.since + 100000 ≤ s.tick.ns)
  then negotiating s.tick.ns a else a

theorem lane_drawNonce (l) (s : State) (n : LaneId) : lane (drawNonce l s) n = lane s n := rfl

theorem exec_laneDetectDone (l seen) (s : State) : exec (.laneDetectDone l seen) s = .next (
    if ethMode s l.val || (link s l).up || (link s l).nego || decide (((List.finRange 4).filter (detected s l seen)).length < minLanes s l)
      || !(lanesWhere s l (fun a => a.st = .negotiate || a.st = .step || a.st = .align)).isEmpty then s
    else drawNonce l (modLanes l (toNegotiate s seen) s)) := by
  change execLaneDetectDone l seen s = _
  unfold execLaneDetectDone
  extract_lets ok js
  rw [apply_ite Host.Outcome.next]
  rfl

/-! ### The CAP exchange (R641, R642) -/

/-- The link with one more CAP of its peer. -/
def capKept (c : TrainCap) (k : Link) : Link := { k with trainCap := some c, caps := k.caps + 1, initiator := decide (c.nonce.toNat < k.nonce.toNat) }

theorem link_capKept (c : TrainCap) (s : State) : link (modLink l (capKept c) s) l = capKept c (link s l) :=
  link_setLink_of_ne (ne_of_apply_ne Link.trainCap (by simp [capKept]))

theorem capDone_capKept (c : TrainCap) (s : State) : capDone (modLink l (capKept c) s) l
    = (decide (3 ≤ (link s l).caps + 1) && decide (c.present = ownPresent s l)) := by
  unfold capDone
  rw [link_capKept]
  rfl

theorem trainCapIn_eq (l c) (s : State) : trainCapIn l c s =
    if ownPresent s l = 0 then s
    else if c.nonce = (link s l).nonce then drawNonce l s
    else if !capDone (modLink l (capKept c) s) l then modLink l (capKept c) s
    else if c.maxRate ≠ 3 then
      if capDone s l then modLink l (capKept c) s
      else raiseEv 0x1E l.val (2 + (ownPresent s l).toNat <<< 4 + 1 <<< 8) (fnGen s (.port l)) (modLink l (capKept c) s)
    else modLanes l (fun _ a => if a.st = .negotiate then
      { a with st := .step, since := s.tick.ns, rate := 0, tries := 0, pass := some true, peerPass := some true } else a)
      (modLink l (capKept c) s) := rfl

/-! ### STEP (Table 18-5) -/

/-- A lane that switches to rate code `r`. -/
def switched (ns : Nat) (r : BitVec 2) (a : Lane) : Lane := { a with rate := r, since := ns, tries := 0, pass := none, peerPass := none }

theorem switchRate_eq (l r m) (s : State) : switchRate l r m s =
    let js := lanesWhere s l (fun a => a.st = .step)
    if js.isEmpty || !js.all (fun j => stepPassed (lane s (laneId l j)) && (lane s (laneId l j)).rate.toNat + 1 = r.toNat) then s
    else
      let t := (js.filter (fun j => !bit m j.val)).foldl (fun s j => holdLane (laneId l j) s)
        (modLanes l (fun j a => if a.st = .step && bit m j.val then switched s.tick.ns r a else a) s)
      if laneCount (laneMask t l inLane) < minLanes t l then bringFail l 3 t else t := rfl

/-- Lanes that have passed their step switch together where the STEP names them; the others are held out. -/
theorem switchRate_switches {r : BitVec 2} {m : BitVec 4} (hw : tblWf {} s.lanes = true)
    (hne : lanesWhere s l (fun a => a.st = .step) ≠ [])
    (hall : ∀ j ∈ lanesWhere s l (fun a => a.st = .step), stepPassed (lane s (laneId l j)) = true ∧ (lane s (laneId l j)).rate.toNat + 1 = r.toNat)
    (hmin : minLanes s l ≤ ((List.finRange 4).filter (fun j => inLane (lane s (laneId l j))
      && (!(lanesWhere s l (fun a => a.st = .step)).contains j || bit m j.val))).length) :
    (∀ j, lane (switchRate l r m s) (laneId l j) = if !(lanesWhere s l (fun a => a.st = .step)).contains j then lane s (laneId l j)
        else if bit m j.val then switched s.tick.ns r (lane s (laneId l j))
        else lane (holdLane (laneId l j) s) (laneId l j))
      ∧ OtherLanes l s (switchRate l r m s) ∧ switchRate l r m s = { s with lanes := (switchRate l r m s).lanes } := by
  have hcond : ¬ ((lanesWhere s l (fun a => a.st = .step)).isEmpty || !(lanesWhere s l (fun a => a.st = .step)).all
      (fun j => stepPassed (lane s (laneId l j)) && (lane s (laneId l j)).rate.toNat + 1 = r.toNat)) = true := by
    simpa [hne] using hall
  generalize hu : modLanes l (fun j a => if a.st = .step && bit m j.val then switched s.tick.ns r a else a) s = u
  have hulane : ∀ j, lane u (laneId l j) = if (lane s (laneId l j)).st = .step && bit m j.val then switched s.tick.ns r (lane s (laneId l j))
      else lane s (laneId l j) := fun j => by rw [← hu]; exact lane_modLanes_wf hw _ j
  have huother : OtherLanes l s u := by
    rw [← hu]
    exact modLanes_otherLanes l _ s
  have hnd : ((lanesWhere s l (fun a => a.st = .step)).filter (fun j => !bit m j.val)).Nodup := ((List.nodup_finRange 4).filter _).filter _
  obtain ⟨x, hx⟩ := modLanes_lanes l (fun j a => if a.st = .step && bit m j.val then switched s.tick.ns r a else a) s
  rw [hu] at hx
  generalize ht : ((lanesWhere s l (fun a => a.st = .step)).filter (fun j => !bit m j.val)).foldl (fun s j => holdLane (laneId l j) s) u = t
  have htlane : ∀ j, lane t (laneId l j) = if !(lanesWhere s l (fun a => a.st = .step)).contains j then lane s (laneId l j)
        else if bit m j.val then switched s.tick.ns r (lane s (laneId l j)) else heldOut s (lane s (laneId l j)) := fun j => by
    rw [← ht]
    by_cases hstep : j ∈ lanesWhere s l (fun a => a.st = .step)
    · have hst : (lane s (laneId l j)).st = .step := by simpa using mem_lanesWhere.mp hstep
      by_cases hbit : bit m j.val = true
      · rw [lane_holdLanes_ne fun i hi => laneId_ne (by rintro rfl; simp [hbit] at hi), hulane]
        simp [hstep, hst, hbit]
      · have hmem : j ∈ (lanesWhere s l (fun a => a.st = .step)).filter (fun j => !bit m j.val) := by simp [hstep, hbit]
        rw [lane_holdLanes_mem hnd hmem, hulane]
        have hns : u.tick.ns = s.tick.ns := by rw [hx]
        simp [hstep, hbit, heldOut, toRecover, hns]
    · have hst : (lane s (laneId l j)).st ≠ .step := fun h => hstep (mem_lanesWhere.mpr (by simp [h]))
      rw [lane_holdLanes_ne fun i hi => laneId_ne (by rintro rfl; exact hstep (List.mem_of_mem_filter hi)), hulane]
      simp [hstep, hst]
  have htother : OtherLanes l s t := fun n hn => by
    rw [← ht, lane_holdLanes_ne fun i _ he => hn (by rw [he, linkOfLane_laneId])]
    exact huother n hn
  have hteq : t = { s with lanes := t.lanes } := by
    rw [← ht, holdLanes_spec, hx]
  have hcount : laneCount (laneMask t l inLane) = ((List.finRange 4).filter (fun j => inLane (lane s (laneId l j))
      && (!(lanesWhere s l (fun a => a.st = .step)).contains j || bit m j.val))).length := by
    rw [laneCount_laneMask]
    congr 2
    funext j
    rw [htlane]
    by_cases hstep : j ∈ lanesWhere s l (fun a => a.st = .step)
    · by_cases hbit : bit m j.val = true
      · simp only [List.contains_eq_mem, hstep, decide_true, hbit, Bool.not_true, Bool.false_eq_true, if_false, if_true, Bool.or_true,
          Bool.and_true]
        rfl
      · simp [hstep, hbit, inLane, heldOut_out]
    · simp [hstep]
  have hresult : switchRate l r m s = t := by
    rw [switchRate_eq]
    dsimp only
    rw [if_neg hcond, hu, ht, if_neg]
    rw [hcount, show minLanes t l = minLanes s l by rw [hteq]; rfl]
    omega
  rw [hresult]
  refine ⟨fun j => (htlane j).trans ?_, htother, hteq⟩
  have hheld : lane (holdLane (laneId l j) s) (laneId l j) = heldOut s (lane s (laneId l j)) := lane_setLane hw _
  rw [hheld]

/-! ### RESULTs (R643, R644) -/

/-- Where no lane knows both results and enough lanes remain, nothing is judged yet. -/
theorem judgeLink_waits (h : ∀ j, (lane s (laneId l j)).pass = none ∨ (lane s (laneId l j)).peerPass = none)
    (hmin : minLanes s l ≤ laneCount (laneMask s l inLane)) : judgeLink l s = s := by
  have hjudge : ∀ j, judgeLane (laneId l j) s = s := fun j => by
    unfold judgeLane
    dsimp only
    split
    next x y hx hy =>
      obtain h | h := h j
      · cases hx.symm.trans h
      · cases hy.symm.trans h
    · rfl
  have hfold : (List.finRange 4).foldl (fun s j => judgeLane (laneId l j) s) s = s :=
    List.foldlRecOn (motive := fun t => t = s) (List.finRange 4) _ rfl fun t ht j _ => by rw [ht, hjudge]
  have hdone : stepDone l s = s := by
    refine if_neg ?_
    simp only [Bool.and_eq_true, Bool.not_eq_true', List.isEmpty_eq_false_iff_exists_mem, List.all_eq_true, stepPassed, decide_eq_true_eq]
    rintro ⟨⟨j, hj⟩, hall⟩
    obtain ⟨⟨hp, hq⟩, -⟩ := hall j hj
    obtain h | h := h j
    · cases hp.symm.trans h
    · cases hq.symm.trans h
  unfold judgeLink
  dsimp only
  rw [hfold, if_neg, hdone]
  simp [Nat.not_lt.mpr hmin]

end

end Machine
end Sys2Proof
end

section
/-!
PROOF. LaneLadder (O46): the statement.
-/
namespace Sys2Proof
namespace Machine
set_option Elab.async false

section
variable {s : State} {l : LinkId}

/-- Every lane that a list of measurements counts as detected goes to Negotiate together (R641). -/
theorem detect_done {seen : List DetectLane} (hw : tblWf {} s.lanes = true) (heth : ethMode s l.val = false) (hup : (link s l).up = false)
    (hnego : (link s l).nego = false) (hnone : lanesWhere s l (fun a => a.st = .negotiate || a.st = .step || a.st = .align) = [])
    (hmin : minLanes s l ≤ ((List.finRange 4).filter (detected s l seen)).length) :
    Completes (.laneDetectDone l seen) s fun t =>
      (∀ j, lane t (laneId l j) = if detected s l seen j then negotiating s.tick.ns (lane s (laneId l j)) else lane s (laneId l j))
      ∧ OtherLanes l s t ∧ t = { s with lanes := t.lanes, links := (drawNonce l s).links, free := s.free + 1 } := by
  refine ⟨_, (exec_laneDetectDone l seen s).trans (congrArg _ (if_neg ?_)), fun j => ?_, fun n hn => ?_, ?_⟩
  · simp [heth, hup, hnego, hnone, Nat.not_lt.mpr hmin]
  · rw [lane_drawNonce, lane_modLanes_wf hw]
    rfl
  · rw [lane_drawNonce]
    exact lane_modLanes_ne hn
  · obtain ⟨x, hx⟩ := modLanes_lanes l (toNegotiate s seen) s
    rw [hx]
    rfl

/-- A change of lanes that keeps what counts them in, and shows no result, is not judged yet. -/
theorem judgeLink_modLanes {f : Fin 4 → Lane → Lane} (hw : tblWf {} s.lanes = true)
    (hwait : ∀ j, (f j (lane s (laneId l j))).pass = none ∨ (f j (lane s (laneId l j))).peerPass = none)
    (hin : ∀ j, inLane (f j (lane s (laneId l j))) = inLane (lane s (laneId l j)))
    (hmin : minLanes s l ≤ laneCount (laneMask s l inLane)) : judgeLink l (modLanes l f s) = modLanes l f s := by
  refine judgeLink_waits (fun j => by rw [lane_modLanes_wf hw]; exact hwait j) ?_
  have hcount : laneCount (laneMask (modLanes l f s) l inLane) = laneCount (laneMask s l inLane) := by
    rw [laneCount_laneMask, laneCount_laneMask]
    congr 2
    funext j
    rw [lane_modLanes_wf hw, hin]
  rw [hcount, modLanes_eq]
  exact hmin

/-- A lane that has the peer's check. -/
def peerShown (r : BitVec 2) (p : BitVec 4) (j : Fin 4) (a : Lane) : Lane :=
  if (a.st = .step || (a.st = .recover && a.retryAt.isNone && !a.failed)) && a.rate = r && a.rate ≠ 0 then
    { a with peerPass := some (bit p j.val) } else a

theorem trainResultIn_eq (l r p) (s : State) : trainResultIn l r p s = judgeLink l (modLanes l (peerShown r p) s) := rfl

theorem inLane_peerShown (r p j a) : inLane (peerShown r p j a) = inLane a := by
  unfold peerShown
  split <;> rfl

/-- A lane at the end of a PRBS31 window. -/
def windowShown (s : State) (l : LinkId) (es : List Nat) (j : Fin 4) (a : Lane) : Lane :=
  let e := es.getD j.val 0
  let n := BitVec.ofNat 32 (min e 0xFFFFFFFF)
  let w := reg s .laneCtrl (laneId l j).val
  if (a.st = .step && a.rate ≠ 0 || a.st = .recover && a.retryAt.isNone && !a.failed) && windowOver s a then
    { a with pass := some (decide (e ≤ fld (reg s .laneTest) 8 24)), prbsErr := n }
  else if fld w 1 2 ≠ 0 && bit w 3 && bit w 4 then { a with prbsErr := n }
  else a

theorem exec_prbsWindowEnd (l es) (s : State) : exec (.prbsWindowEnd l es) s = .next (judgeLink l (modLanes l (windowShown s l es) s)) := rfl

theorem windowShown_keeps (es j a) : inLane (windowShown s l es j a) = inLane a ∧ (windowShown s l es j a).peerPass = a.peerPass := by
  unfold windowShown
  dsimp only
  split
  · exact ⟨rfl, rfl⟩
  · split <;> exact ⟨rfl, rfl⟩

/-! ### Time limits (Table 18-5) -/

/-- Lanes of the mask that have passed their time limit. -/
def limited (s : State) (l : LinkId) (m : BitVec 4) : List (Fin 4) :=
  (List.finRange 4).filter (fun j => bit m j.val && limitPassed s (lane s (laneId l j)))

theorem exec_laneStateTimeout (l m) (s : State) : exec (.laneStateTimeout l m) s = .next (
    if (limited s l m).any (fun j => (lane s (laneId l j)).st = .negotiate) then if capDone s l then s else lanesToDetect l s
    else judgeLink l ((limited s l m).foldl (fun s j => if limitPassed s (lane s (laneId l j)) then laneLimit (laneId l j) s else s) s)) := by
  change execLaneStateTimeout l m s = _
  rw [apply_ite Host.Outcome.next]
  rfl

theorem exec_alignComplete (l : LinkId) (seen : List AlignLane) (s : State) :
    let js := lanesWhere s l (fun a => a.st = .align)
    let far := js.filter (seenAs (fun x => holdsLock x && !inSkew x) seen)
    let good := js.filter (seenAs (fun x => holdsLock x && inSkew x) seen)
    let s1 := far.foldl (fun s j => afterHold l 4 (holdLane (laneId l j) s)) s
    exec (.alignComplete l seen) s = .next (if ethMode s l.val || (far ++ good).isEmpty then s
      else afterAlign l (good.foldl (fun s j => modLane (laneId l j) (toService s.tick.ns) s) s1)) := by
  intro js far good s1
  change execAlignComplete l seen s = _
  rw [apply_ite Host.Outcome.next]
  rfl

end

end Machine

open Machine

/-- Settles O46: the codings by induction on the line, the ladder by what each message, result and time limit does with the lanes. -/
theorem laneLadder : Obligations.LaneLadder := by
  unfold Obligations.LaneLadder
  refine ⟨⟨fun bs => unstuff_stuff bs false 0 (by omega), ?_, descramble_scramble, capOfBody_capBody,
    fun a msg body n h => trainRx_trainBits msg body n h, fun z => ⟨lockStep_decided z true 7 (by decide), lockStep_decided z false 3 (by decide)⟩,
    fun n hn => lockStep_short n rfl (by simpa using hn), fun n hn => lockStep_short n rfl (by simpa using hn)⟩,
    ⟨?_, ?_, fun s l w => ⟨rfl, rfl, rfl, rfl⟩, ?_⟩, ⟨?_, ?_, ?_, fun s l bs => rfl, ?_, ?_, ?_⟩, ⟨?_, ?_, fun s l es => rfl, ?_, ?_, ?_⟩,
    ?_, ?_, ?_, ?_, ?_, ?_⟩
  · intro bs k b
    obtain ⟨last, run, h⟩ := runsKept_drop k (runsKept_stuff bs false 0 (by omega))
    exact take_ne_replicate h b
  · intro s l m hw heth hup hnego hnone hmin
    exact detect_done hw heth hup hnego hnone hmin
  · intro s l m h
    refine (exec_laneDetectDone l m s).trans (congrArg _ (if_pos ?_))
    obtain h | h | h | h := h <;> simp [h]
  · intro s l w msg m b f r s1
    refine ⟨fun h => ?_, fun h hne => ?_, fun h => ?_⟩
    · have hcall : onTrain l w msg f s = match r.2 with
          | some (m, b) => if m = msg then f b (trainSeen l s1) else trainSeen l s1
          | none => s1 := rfl
      rw [hcall, h]
      exact if_pos rfl
    · have hcall : onTrain l w msg f s = match r.2 with
          | some (m, b) => if m = msg then f b (trainSeen l s1) else trainSeen l s1
          | none => s1 := rfl
      rw [hcall, h]
      exact if_neg hne
    · have hcall : onTrain l w msg f s = match r.2 with
          | some (m, b) => if m = msg then f b (trainSeen l s1) else trainSeen l s1
          | none => s1 := rfl
      rw [hcall, h]
  · intro s l c h
    rw [trainCapIn_eq, if_pos h]
  · intro s l c hown hnonce
    rw [trainCapIn_eq, if_neg hown, if_pos hnonce]
  · intro s l c hown hnonce s1
    have heq := trainCapIn_eq l c s
    rw [if_neg hown, if_neg hnonce, capDone_capKept] at heq
    refine ⟨fun h => ?_, fun hcaps hpres hrate => ?_, fun hcaps hpres hrate => ?_⟩
    · rw [heq, if_pos]
      · rfl
      · obtain h | h := h
        · simp [show ¬ 3 ≤ (link s l).caps + 1 by omega]
        · simp [h]
    · rw [heq, if_neg (by simp [show 3 ≤ (link s l).caps + 1 by omega, hpres]), if_neg (not_not_intro hrate)]
      rfl
    · rw [heq, if_neg (by simp [show 3 ≤ (link s l).caps + 1 by omega, hpres]), if_pos hrate]
      rfl
  · intro s l r m
    refine ⟨fun h => if_pos h, fun h hc => ?_, fun h hc => ?_⟩
    · exact (if_neg (by simp [h])).trans (if_pos hc)
    · exact (if_neg (by simp [h])).trans (if_neg (by omega))
  · intro s l r m hw js t hne hall hmin
    exact switchRate_switches hw hne hall hmin
  · rintro s l r m ⟨j, hj, h⟩
    refine if_pos ?_
    simp only [Bool.or_eq_true, Bool.not_eq_true', List.all_eq_false]
    refine .inr ⟨j, hj, ?_⟩
    obtain h | h := h <;> simp [h]
  · intro s l r p hw hpass hmin
    have hkeep : trainResultIn l r p s = modLanes l (peerShown r p) s := by
      rw [trainResultIn_eq]
      refine judgeLink_modLanes hw (fun j => .inl ?_) (fun j => inLane_peerShown ..) hmin
      unfold peerShown
      split <;> exact hpass j
    rw [hkeep]
    refine ⟨fun j => (lane_modLanes_wf hw _ j).trans ?_, modLanes_otherLanes l _ s, modLanes_eq l _ s⟩
    unfold peerShown
    by_cases hr : (lane s (laneId l j)).rate = r
    · subst hr
      rfl
    · simp [hr]
  · intro s l es hpeer hmin hw
    have hkeep : judgeLink l (modLanes l (windowShown s l es) s) = modLanes l (windowShown s l es) s :=
      judgeLink_modLanes hw (fun j => .inr ((windowShown_keeps es j _).2.trans (hpeer j))) (fun j => (windowShown_keeps es j _).1) hmin
    refine ⟨_, (exec_prbsWindowEnd l es s).trans (congrArg _ hkeep), fun j => ?_, modLanes_otherLanes l _ s, modLanes_eq l _ s⟩
    intro a n w
    rw [lane_modLanes_wf hw]
    simp only [windowShown, Bool.and_eq_true, Bool.or_eq_true, decide_eq_true_eq, Option.isNone_iff_eq_none, Bool.not_eq_true', and_assoc]
    rfl
  · intro s n x y hx hy
    have heq : judgeLane n s = if (lane s n).st = .step then (if x && y then s else attemptFail n s)
        else if (lane s n).st = .recover then
          if x && y then modLane n (fun a =>
            { a with st := .align, since := s.tick.ns, rate := 3, fails := 0, retryAt := none, pass := none, peerPass := none }) s
          else recoverFail n s
        else s := by
      unfold judgeLane
      dsimp only
      rw [hx, hy]
      rfl
    rw [heq]
    refine ⟨fun hst hx hy => ?_, fun hst hno => ?_, fun hst hx hy => ?_, fun hst hno => ?_⟩
    · rw [if_pos hst, if_pos (by simp [hx, hy])]
    · rw [if_pos hst, if_neg (by simp [hno])]
    · rw [if_neg (by simp [hst]), if_pos hst, if_pos (by simp [hx, hy])]
    · rw [if_neg (by simp [hst]), if_pos hst, if_neg (by simp [hno])]
  · exact fun s n => ⟨fun h => if_pos h, fun h => if_neg (by omega)⟩
  · intro s l hne hall
    refine if_pos ?_
    simpa [hne] using hall
  · intro s l m j hbit hst hlim
    refine (exec_laneStateTimeout l m s).trans (congrArg _ (if_pos ?_))
    exact List.any_eq_true.mpr ⟨j, by simp [limited, hbit, hlim], by simp [hst]⟩
  · intro s l m h
    refine (exec_laneStateTimeout l m s).trans (congrArg _ (if_neg ?_))
    simp only [limited, List.any_eq_true, List.mem_filter, Bool.and_eq_true, decide_eq_true_eq]
    rintro ⟨j, ⟨-, hbit, -⟩, hst⟩
    exact h j hbit hst
  · intro s n
    refine ⟨fun h => ?_, fun h => ?_, fun h => ?_⟩ <;> rw [laneLimit, h]
  · intro s l m js far good s1
    refine ⟨fun h => (exec_alignComplete l m s).trans (congrArg _ (if_pos ?_)), fun heth hne =>
      (exec_alignComplete l m s).trans (congrArg _ (if_neg ?_))⟩
    · obtain h | h := h
      · simp [h]
      · exact Bool.or_eq_true_iff.mpr (.inr (List.isEmpty_iff.mpr h))
    · rw [heth, Bool.false_or, List.isEmpty_iff]
      exact hne
  · intro s l hup hnego
    have hopen : ¬ ((link s l).up || (link s l).nego) = true := by simp [hup, hnego]
    refine ⟨fun h => ?_, fun h hfew => ?_, fun h hmin => ?_⟩
    · exact (if_neg hopen).trans (if_pos (by simpa using h))
    · exact (if_neg hopen).trans ((if_neg (by simp [h])).trans (if_pos hfew))
    · exact (if_neg hopen).trans ((if_neg (by simp [h])).trans (if_neg (by omega)))
  · intro s l hup
    have hopen : ((link s l).up || (link s l).nego) = true := by simp [hup]
    refine ⟨fun hre h => ?_, fun hre => ?_⟩
    · exact (if_pos hopen).trans (if_pos (by simp [hre, h]))
    · exact (if_pos hopen).trans (if_neg (by simp [hre]))

end Sys2Proof
end

section
/-!
PROOF. Stored register words that are read back, and what holding out, darkening and lighting lanes change (R643, R647, R654).
-/
namespace Sys2Proof
namespace Machine
set_option Elab.async false

/-! ### Register words (R780) -/

section
variable {α : Type}

theorem tblGet_of_keys_above (d : α) {k : Nat} : ∀ {t : Tbl α}, (∀ i ∈ t.map Prod.fst, k < i) → tblGet d t k = d
  | [], _ => rfl
  | (i, v) :: t, h => by
    have hi : k < i := h i (by simp)
    rw [tblGet, if_neg (by omega)]
    exact tblGet_of_keys_above d fun j hj => h j (by simp only [List.map_cons, List.mem_cons]; exact .inr hj)

/-- In a table of rising keys an erased key holds the default. -/
theorem tblGet_tblErase_of_rise (d : α) (k : Nat) : ∀ {t : Tbl α}, (t.map Prod.fst).Pairwise (· < ·) → tblGet d (tblErase t k) k = d
  | [], _ => rfl
  | (i, v) :: t, h => by
    obtain ⟨habove, ht⟩ := List.pairwise_cons.mp h
    rw [tblErase]
    split
    next hik => exact tblGet_of_keys_above d fun j hj => hik ▸ habove j hj
    next hik =>
      split
      next hki =>
        rw [tblGet, if_neg hik]
        exact tblGet_of_keys_above d fun j hj => by
          have := habove j hj
          dsimp only at this
          omega
      next =>
        rw [tblGet, if_neg hik]
        exact tblGet_tblErase_of_rise d k ht

theorem tblGet_tblSet_of_rise [DecidableEq α] (d : α) {t : Tbl α} (h : (t.map Prod.fst).Pairwise (· < ·)) (k : Nat) (v : α) :
    tblGet d (tblSet d t k v) k = v := by
  unfold tblSet
  split
  next hv => rw [hv, tblGet_tblErase_of_rise d k h]
  next => exact tblGet_tblInsert_self d k v t

end

section
variable {s t u : State} {l : LinkId} {n m : LaneId}

/-- A register word whose reset value does not depend on the port's mode is read back as it was stored. -/
theorem reg_setReg (h : RegsRise s) {r : RegName} {a b w : Nat} {x : Word} (hdef : ∀ e e', regReset e r a b w = regReset e' r a b w) :
    reg (setReg s r a b w x) r a b w = x := by
  unfold reg regDef
  rw [hdef _ (ethMode s a)]
  exact tblGet_tblSet_of_rise _ h _ _

theorem fallback_setFallback (h : RegsRise s) (l) : fallback (setFallback l false s) l = false := by
  unfold fallback setFallback
  rw [reg_setReg h fun _ _ => rfl]
  simp [bit, setFld]

/-! ### Lanes of Table 18-5 -/

theorem lane_modLane (h : tblWf {} s.lanes = true) (f : Lane → Lane) : lane (modLane n f s) n = f (lane s n) := lane_setLane h _

theorem lane_modLane_ne (h : m ≠ n) (f : Lane → Lane) : lane (modLane n f s) m = lane s m := lane_setLane_ne h _

theorem tblWf_modLane (h : tblWf {} s.lanes = true) (n f) : tblWf {} (modLane n f s).lanes = true := tblWf_tblMod _ _ _ _ h

/-- A failure that is found changes the links alone. -/
theorem findFailure_links (l c) (s : State) : ∃ x, findFailure l c s = { s with links := x } := by
  unfold findFailure
  extract_lets k
  split
  · exact ⟨_, rfl⟩
  · exact ⟨_, rfl⟩

/-! ### What darkening keeps (R654) -/

/-- A lane without light stays without it, and dark if it was; one that loses it goes dark. -/
structure LaneLight (a b : Lane) : Prop where
  stays : a.darkened = true → b.darkened = true ∧ (a.st = .dark → b.st = .dark)
  falls : a.darkened = false → b.darkened = true → b.st = .dark

theorem LaneLight.refl (a : Lane) : LaneLight a a := ⟨fun h => ⟨h, id⟩, fun h k => nomatch h.symm.trans k⟩

theorem LaneLight.trans {a b c : Lane} (h : LaneLight a b) (k : LaneLight b c) : LaneLight a c := by
  refine ⟨fun ha => ?_, fun ha hc => ?_⟩
  · obtain ⟨hb, hst⟩ := h.stays ha
    exact ⟨(k.stays hb).1, fun hd => (k.stays hb).2 (hst hd)⟩
  · cases hb : b.darkened
    case false => exact k.falls hb hc
    case true => exact (k.stays hb).2 (h.falls ha hb)

/-- A lane whose light stays as it is, and which leaves Dark only with light. -/
theorem LaneLight.of_same {a b : Lane} (hd : b.darkened = a.darkened) (hst : a.darkened = true → a.st = .dark → b.st = .dark) : LaneLight a b :=
  ⟨fun h => ⟨hd.trans h, hst h⟩, fun h k => nomatch (hd.trans h).symm.trans k⟩

/-- No dark lane gains light; lasers, memories and registers are as they were. -/
structure LightKept (s t : State) : Prop where
  lasers : t.lasers = s.lasers
  larder : t.larder = s.larder
  work : t.work = s.work
  regs : t.regs = s.regs
  wf : tblWf {} s.lanes = true → tblWf {} t.lanes = true
  dark : tblWf {} s.lanes = true → ∀ n, LaneLight (lane s n) (lane t n)

theorem LightKept.refl (s : State) : LightKept s s := ⟨rfl, rfl, rfl, rfl, id, fun _ _ => .refl _⟩

theorem LightKept.trans (h : LightKept s t) (k : LightKept t u) : LightKept s u :=
  ⟨k.lasers.trans h.lasers, k.larder.trans h.larder, k.work.trans h.work, k.regs.trans h.regs, fun hw => k.wf (h.wf hw), fun hw n =>
    (h.dark hw n).trans (k.dark (h.wf hw) n)⟩

theorem LightKept.foldl {α : Type} {f : State → α → State} (h : ∀ s x, LightKept s (f s x)) :
    ∀ (l : List α) (s : State), LightKept s (l.foldl f s)
  | [], s => .refl s
  | x :: l, s => (h s x).trans (foldl h l (f s x))

/-- What leaves the lanes, the lasers, the memories and the registers alone. -/
theorem LightKept.of_rest (hl : t.lanes = s.lanes) (h1 : t.lasers = s.lasers) (h2 : t.larder = s.larder) (h3 : t.work = s.work)
    (h4 : t.regs = s.regs) : LightKept s t := by
  refine ⟨h1, h2, h3, h4, fun hw => hl ▸ hw, fun _ n => ?_⟩
  have hlane : lane t n = lane s n := by rw [lane, hl, lane]
  rw [hlane]
  exact .refl _

theorem HostOnly.light (h : HostOnly s t) : LightKept s t := by
  obtain ⟨_, _, _, rfl⟩ := h
  exact .of_rest (Eq.refl _) (Eq.refl _) (Eq.refl _) (Eq.refl _) (Eq.refl _)

/-- A lane changed so that it gains no light. -/
theorem modLane_light {f : Lane → Lane} (hf : ∀ a, LaneLight a (f a)) (n) (s : State) : LightKept s (modLane n f s) := by
  refine ⟨rfl, rfl, rfl, rfl, fun hw => tblWf_modLane hw n f, fun hw m => ?_⟩
  by_cases h : m = n
  · subst h
    rw [lane_modLane hw]
    exact hf _
  · rw [lane_modLane_ne h]
    exact .refl _

/-- The lanes of a link changed so that none gains light. -/
theorem modLanes_light {f : Fin 4 → Lane → Lane} (h : ∀ j, LaneLight (lane s (laneId l j)) (f j (lane s (laneId l j)))) :
    LightKept s (modLanes l f s) := by
  have heq := modLanes_eq l f s
  refine ⟨by rw [heq], by rw [heq], by rw [heq], by rw [heq], fun hw => tblWf_modLanes hw l f, fun hw n => ?_⟩
  by_cases hl : linkOfLane n = l
  · have hid : n = laneId l ⟨n.val % 4, Nat.mod_lt _ (by decide)⟩ := by
      apply Fin.ext
      rw [← hl]
      simp only [laneId, linkOfLane]
      omega
    rw [hid, lane_modLanes_wf hw]
    exact h _
  · rw [lane_modLanes_ne hl]
    exact .refl _

/-- A lane without light may not leave Dark. -/
theorem laneLit_darkened (h : (lane s n).darkened = true) : laneLit s n = false := by simp [laneLit, h]

theorem ethPortDown_light (l) (s : State) : LightKept s (ethPortDown l s) := by
  obtain ⟨⟨f, g, x, y, z, he⟩, -⟩ := ethPortDown_qps l s
  rw [he]
  exact .of_rest rfl rfl rfl rfl rfl

theorem ethLanesDown_light (l) (s : State) : LightKept s (ethLanesDown l s) := by
  unfold ethLanesDown
  extract_lets u
  have hu : LightKept s u := modLanes_light fun j => .of_same rfl fun hj _ => by simp [laneLit_darkened hj]
  split
  · exact hu.trans (ethPortDown_light ..)
  · exact hu

theorem lanesToDetect_light (l) (s : State) : LightKept s (lanesToDetect l s) := by
  have hlanes : LightKept s (modLanes l (backToDetect l s) s) :=
    modLanes_light fun j => .of_same rfl fun hj _ => by simp [backToDetect, laneLit_darkened hj]
  have hlink : ∀ u : State, LightKept u (modLink l trainingCleared u) := fun u => .of_rest rfl rfl rfl rfl rfl
  exact hlanes.trans (hlink _)

theorem findFailure_light (l c) (s : State) : LightKept s (findFailure l c s) := by
  obtain ⟨x, hx⟩ := findFailure_links l c s
  rw [hx]
  exact .of_rest rfl rfl rfl rfl rfl

theorem bringFail_light (l c) (s : State) : LightKept s (bringFail l c s) := by
  have hlink : LightKept s (modLink l (fun k => { k with bringFails := k.bringFails + 1 }) s) := .of_rest rfl rfl rfl rfl rfl
  exact hlink.trans ((raiseEv_host ..).light.trans (lanesToDetect_light ..))

theorem afterHold_light (l c) (s : State) : LightKept s (afterHold l c s) := by
  unfold afterHold
  split
  · exact ethLanesDown_light ..
  · split
    · exact .refl s
    · split
      · exact findFailure_light ..
      · exact bringFail_light ..

/-- A lane that would leave no link too narrow stays alone in its fault. -/
theorem afterHold_wide (heth : ethMode s l.val = false) (hmin : minLanes s l ≤ laneCount (laneMask s l inLane)) (c) : afterHold l c s = s := by
  unfold afterHold
  rw [heth]
  exact if_pos hmin

/-- A lane without light. -/
def darkLane (ns : Nat) (a : Lane) : Lane := { a with darkened := true, st := .dark, since := ns, retryAt := none }

/-- What this end holds out of a lane that loses its light (R654). -/
def lightLost (n : LaneId) (s : State) : State :=
  if ethMode s (linkOfLane n).val then s else modLane n (fun a => { a with ownOut := a.ownOut || inLane a }) s

theorem darkenLane_eq (n) (s : State) : darkenLane n s =
    if (lane s n).darkened then s
    else if (lane s n).st = .service ∨ (lane s n).st = .align then
      afterHold (linkOfLane n) (laneStCode (lane s n).st) (raiseEv 0x14 n.val 4 0 (modLane n (darkLane (lightLost n s).tick.ns) (lightLost n s)))
    else if (lane s n).st = .step then afterHold (linkOfLane n) 3 (modLane n (darkLane (lightLost n s).tick.ns) (lightLost n s))
    else modLane n (darkLane (lightLost n s).tick.ns) (lightLost n s) := rfl

/-- A laser's lane loses its light and goes dark; no lane gains any. -/
theorem darkenLane_light (n) (s : State) : LightKept s (darkenLane n s)
    ∧ (tblWf {} s.lanes = true → (lane (darkenLane n s) n).darkened = true
      ∧ ((lane s n).darkened = false → (lane (darkenLane n s) n).st = .dark)) := by
  rw [darkenLane_eq]
  by_cases hd : (lane s n).darkened = true
  · rw [if_pos hd]
    exact ⟨.refl s, fun _ => ⟨hd, fun h => nomatch hd.symm.trans h⟩⟩
  · rw [if_neg hd]
    have hfirst : LightKept s (lightLost n s) := by
      unfold lightLost
      split
      · exact .refl s
      · exact modLane_light (f := fun a => { a with ownOut := a.ownOut || inLane a }) (fun _ => .of_same rfl fun _ h => h) n s
    have hown : tblWf {} s.lanes = true → (lane (modLane n (darkLane (lightLost n s).tick.ns) (lightLost n s)) n).darkened = true
        ∧ (lane (modLane n (darkLane (lightLost n s).tick.ns) (lightLost n s)) n).st = .dark := fun hw => by
      rw [lane_modLane (hfirst.wf hw)]
      exact ⟨rfl, rfl⟩
    have hu : LightKept s (modLane n (darkLane (lightLost n s).tick.ns) (lightLost n s)) :=
      hfirst.trans (modLane_light (fun _ => ⟨fun _ => ⟨rfl, fun _ => rfl⟩, fun _ _ => rfl⟩) n _)
    generalize modLane n (darkLane (lightLost n s).tick.ns) (lightLost n s) = u at hu hown
    have hrest : LightKept u (if (lane s n).st = .service ∨ (lane s n).st = .align then
          afterHold (linkOfLane n) (laneStCode (lane s n).st) (raiseEv 0x14 n.val 4 0 u)
        else if (lane s n).st = .step then afterHold (linkOfLane n) 3 u else u) := by
      split
      · exact (raiseEv_host ..).light.trans (afterHold_light ..)
      · split
        · exact afterHold_light ..
        · exact .refl u
    refine ⟨hu.trans hrest, fun hw => ?_⟩
    obtain ⟨hdark, hst⟩ := (hrest.dark (hu.wf hw) n).stays (hown hw).1
    exact ⟨hdark, fun _ => hst (hown hw).2⟩

/-- Every lane of a list loses its light. -/
theorem darkenLanes_light : ∀ (ns : List LaneId) (s : State), LightKept s (ns.foldl (fun s n => darkenLane n s) s)
    ∧ (tblWf {} s.lanes = true → ∀ n ∈ ns, (lane (ns.foldl (fun s n => darkenLane n s) s) n).darkened = true
      ∧ ((lane s n).darkened = false → (lane (ns.foldl (fun s n => darkenLane n s) s) n).st = .dark))
  | [], s => ⟨.refl s, fun _ _ h => nomatch h⟩
  | m :: ns, s => by
    obtain ⟨hm, hown⟩ := darkenLane_light m s
    obtain ⟨hrest, hall⟩ := darkenLanes_light ns (darkenLane m s)
    have hboth := hm.trans hrest
    refine ⟨hboth, fun hw n hn => ?_⟩
    rw [List.foldl_cons]
    have hd : (lane (ns.foldl (fun s n => darkenLane n s) (darkenLane m s)) n).darkened = true := by
      rcases List.mem_cons.mp hn with rfl | hn
      · exact ((hrest.dark (hm.wf hw) n).stays (hown hw).1).1
      · exact (hall (hm.wf hw) n hn).1
    exact ⟨hd, fun h => (hboth.dark hw n).falls h hd⟩

end

end Machine
end Sys2Proof
end

section
/-!
PROOF. Lasers: what the rule of R654 darkens and lights, and the measurements of R655.
-/
namespace Sys2Proof
namespace Machine
set_option Elab.async false

section
variable {s t u : State} {e : Fin 24} {b : Bool} {n m : LaneId}

/-! ### Lanes that have light again (R654) -/

/-- Every lane of the list has light; nothing else changes. -/
structure LanesLit (ns : List LaneId) (s t : State) : Prop where
  only : t = { s with lanes := t.lanes }
  wf : tblWf {} s.lanes = true → tblWf {} t.lanes = true
  lit : tblWf {} s.lanes = true → ∀ n ∈ ns, (lane t n).darkened = false
  rest : ∀ n, n ∉ ns → lane t n = lane s n

theorem LanesLit.none (s : State) : LanesLit [] s s := ⟨Eq.refl _, id, fun _ _ h => (List.not_mem_nil h).elim, fun _ _ => Eq.refl _⟩

theorem LanesLit.cons {ns : List LaneId} (h : LanesLit [n] s t) (k : LanesLit ns t u) : LanesLit (n :: ns) s u := by
  refine ⟨?_, fun hw => k.wf (h.wf hw), fun hw m hm => ?_, fun m hm => ?_⟩
  · rw [k.only, h.only]
  · by_cases hns : m ∈ ns
    · exact k.lit (h.wf hw) m hns
    · rw [k.rest m hns]
      exact h.lit hw m (by rcases List.mem_cons.mp hm with rfl | hm'; exacts [List.mem_singleton_self _, absurd hm' hns])
  · rw [List.mem_cons, not_or] at hm
    rw [k.rest m hm.2, h.rest m (by simpa using hm.1)]

/-- A change of one lane that leaves it light. -/
theorem modLane_lit {f : Lane → Lane} (h : tblWf {} s.lanes = true → (f (lane s n)).darkened = false) : LanesLit [n] s (modLane n f s) := by
  refine ⟨rfl, fun hw => tblWf_modLane hw n f, fun hw m hm => ?_, fun m hm => ?_⟩
  · rw [List.mem_singleton] at hm
    subst hm
    rw [lane_modLane hw]
    exact h hw
  · exact lane_modLane_ne (by simpa using hm) f

theorem LanesLit.again (h : LanesLit [n] s t) (k : LanesLit [n] t u) : LanesLit [n] s u := by
  refine ⟨by rw [k.only, h.only], fun hw => k.wf (h.wf hw), fun hw => k.lit (h.wf hw), fun m hm => by rw [k.rest m hm, h.rest m hm]⟩

/-- A lane that has light. -/
def litLane (a : Lane) : Lane := { a with darkened := false }

/-- A lane that begins in Detect. -/
def detecting (ns : Nat) (a : Lane) : Lane := { a with st := .detect, since := ns, ownOut := a.failed }

theorem lightLane_eq (n) (s : State) : lightLane n s =
    if !(lane s n).darkened then s
    else if !laneLit (modLane n litLane s) n then modLane n litLane s
    else if !ethMode (modLane n litLane s) (linkOfLane n).val && !(lanesWhere (modLane n litLane s) (linkOfLane n) inLane).isEmpty then
      modLane n (toRecover (modLane n litLane s)) (modLane n litLane s)
    else modLane n (detecting (modLane n litLane s).tick.ns) (modLane n litLane s) := rfl

theorem lightLane_lit (n) (s : State) : LanesLit [n] s (lightLane n s) := by
  rw [lightLane_eq]
  have hfirst : LanesLit [n] s (modLane n litLane s) := modLane_lit fun _ => rfl
  have hown : tblWf {} s.lanes = true → (lane (modLane n litLane s) n).darkened = false := fun hw => hfirst.lit hw n (List.mem_singleton_self n)
  by_cases hd : (!(lane s n).darkened) = true
  · rw [if_pos hd]
    exact ⟨rfl, id, fun _ m hm => by rw [List.mem_singleton.mp hm]; simpa using hd, fun _ _ => rfl⟩
  · rw [if_neg hd]
    generalize modLane n litLane s = u at hfirst hown
    have hback : ∀ {f : Lane → Lane}, (∀ a, (f a).darkened = a.darkened) → LanesLit [n] s (modLane n f u) := fun hf => by
      refine ⟨?_, fun hw => tblWf_modLane (hfirst.wf hw) n _, fun hw m hm => ?_, fun m hm => ?_⟩
      · rw [show modLane n _ u = { u with lanes := (modLane n _ u).lanes } from rfl, hfirst.only]
      · rw [List.mem_singleton.mp hm, lane_modLane (hfirst.wf hw), hf]
        exact hown hw
      · rw [lane_modLane_ne (by simpa using hm), hfirst.rest m hm]
    split
    · exact hfirst
    · split
      · exact hback fun _ => rfl
      · exact hback fun _ => rfl

theorem lightLanes_lit : ∀ (ns : List LaneId) (s : State), LanesLit ns s (ns.foldl (fun s n => lightLane n s) s)
  | [], s => .none s
  | n :: ns, s => (lightLane_lit n s).cons (lightLanes_lit ns (lightLane n s))

/-! ### The rule of a laser (R654) -/

theorem mem_laserLanes : n ∈ laserLanes e b ↔ n.val / 16 = e.val ∧ n.val % 4 / 2 = b.toNat := by
  simp only [laserLanes, List.mem_filterMap, List.mem_finRange, true_and]
  constructor
  · rintro ⟨i, hi⟩
    have hlt := i.isLt
    split at hi
    next hb =>
      obtain rfl := Option.some.inj hi
      refine ⟨by dsimp only; omega, ?_⟩
      dsimp only
      cases b
      · have : ¬ i.val % 4 / 2 = 1 := by simpa using hb
        simp only [Bool.toNat_false]
        omega
      · have : i.val % 4 / 2 = 1 := by simpa using hb
        simp only [Bool.toNat_true]
        omega
    next => exact nomatch hi
  · rintro ⟨he, hb⟩
    refine ⟨⟨n.val % 16, Nat.mod_lt _ (by decide)⟩, ?_⟩
    rw [if_pos]
    · congr 1
      apply Fin.ext
      dsimp only
      omega
    · have hmod : n.val % 16 % 4 / 2 = b.toNat := by omega
      dsimp only
      rw [hmod]
      cases b <;> simp

theorem laserLanes_disjoint (h : n ∈ laserLanes e b) : n ∉ laserLanes e (!b) := fun h' => by
  rw [mem_laserLanes] at h h'
  have := h.2.symm.trans h'.2
  cases b <;> exact absurd this (by decide)

theorem laserCheck_off (h : (laser s e b).fault = true ∨ bit (reg s .oeLaser e.val) b.toNat = false) :
    laserCheck e b s = (laserLanes e b).foldl (fun s n => darkenLane n s) s :=
  if_pos (by rcases h with h | h <;> simp [h])

theorem laserCheck_lights (hf : (laser s e b).fault = false) (hen : bit (reg s .oeLaser e.val) b.toNat = true)
    (hp : laserLow s < (laser s e b).power.toInt) : laserCheck e b s = (laserLanes e b).foldl (fun s n => lightLane n s) s :=
  (if_neg (by simp [hf, hen])).trans (if_pos hp)

theorem laserCheck_low (hf : (laser s e b).fault = false) (hen : bit (reg s .oeLaser e.val) b.toNat = true)
    (hp : (laser s e b).power.toInt ≤ laserLow s) : laserCheck e b s = s :=
  (if_neg (by simp [hf, hen])).trans (if_neg (by omega))

/-- What the rule of a laser keeps: the lanes that it does not feed stay without light. -/
structure LaserApplied (e : Fin 24) (b : Bool) (s t : State) : Prop where
  lasers : t.lasers = s.lasers
  larder : t.larder = s.larder
  work : t.work = s.work
  regs : t.regs = s.regs
  wf : tblWf {} s.lanes = true → tblWf {} t.lanes = true
  dark : tblWf {} s.lanes = true → ∀ n, n ∉ laserLanes e b → (lane s n).darkened = true → (lane t n).darkened = true

theorem laserCheck_applied (e b) (s : State) : LaserApplied e b s (laserCheck e b s) := by
  by_cases hoff : (laser s e b).fault = true ∨ bit (reg s .oeLaser e.val) b.toNat = false
  · rw [laserCheck_off hoff]
    have h := (darkenLanes_light (laserLanes e b) s).1
    exact ⟨h.lasers, h.larder, h.work, h.regs, h.wf, fun hw n _ hn => ((h.dark hw n).stays hn).1⟩
  · simp only [not_or, Bool.not_eq_true, Bool.not_eq_false] at hoff
    by_cases hp : laserLow s < (laser s e b).power.toInt
    · rw [laserCheck_lights hoff.1 hoff.2 hp]
      have h := lightLanes_lit (laserLanes e b) s
      exact ⟨by rw [h.only], by rw [h.only], by rw [h.only], by rw [h.only], h.wf, fun _ n hn hd => by rw [h.rest n hn]; exact hd⟩
    · rw [laserCheck_low hoff.1 hoff.2 (by omega)]
      exact ⟨rfl, rfl, rfl, rfl, id, fun _ _ _ => id⟩

theorem laserCheck_darkens (hw : tblWf {} s.lanes = true) (hoff : (laser s e b).fault = true ∨ bit (reg s .oeLaser e.val) b.toNat = false)
    (hn : n ∈ laserLanes e b) : (lane (laserCheck e b s) n).darkened = true
      ∧ ((lane s n).darkened = false → (lane (laserCheck e b s) n).st = .dark) := by
  rw [laserCheck_off hoff]
  exact (darkenLanes_light (laserLanes e b) s).2 hw n hn

theorem laser_congr (h : t.lasers = s.lasers) (e b) : laser t e b = laser s e b := by rw [laser, h, laser]

/-! ### Changes of a laser -/

theorem laserKey_ne (e : Fin 24) (b : Bool) : 2 * e.val + (!b).toNat ≠ 2 * e.val + b.toNat := by
  cases b <;> simp

theorem laser_modLaser {f : Laser → Laser} (h : tblWf {} s.lasers = true ∨ f (laser s e b) ≠ {}) :
    laser (modLaser e b f s) e b = f (laser s e b) := tblGet_tblSet_of h _

theorem laser_modLaser_other (f) : laser (modLaser e b f s) e (!b) = laser s e (!b) :=
  tblGet_tblMod_ne f (laserKey_ne e b)

/-- A laser that has failed. -/
def laserFailed (z : Laser) : Laser := { z with fault := true }

/-- A laser whose fault is over, with the power then read. -/
def laserCured (p : BitVec 16) (z : Laser) : Laser := { z with fault := false, power := p }

/-- A laser with a measurement stored. -/
def laserRead (p : BitVec 16) (n : Nat) (z : Laser) : Laser := { z with power := p, low := n }

theorem laserFault_darkens (hw : tblWf {} s.lanes = true) : Completes (.laserFault e b) s fun t =>
    t = laserCheck e b (modLaser e b (fun z => { z with fault := true }) s)
      ∧ (laser t e b).fault = true ∧ laser t e (!b) = laser s e (!b)
      ∧ (∀ n ∈ laserLanes e b, (lane t n).darkened = true ∧ ((lane s n).darkened = false → (lane t n).st = .dark))
      ∧ t.larder = s.larder ∧ t.work = s.work ∧ t.regs = s.regs := by
  have hself : laser (modLaser e b laserFailed s) e b = laserFailed (laser s e b) :=
    laser_modLaser (.inr (ne_of_apply_ne Laser.fault (by simp [laserFailed])))
  have hk := laserCheck_applied e b (modLaser e b laserFailed s)
  refine ⟨_, rfl, rfl, ?_, ?_, fun n hn => ?_, hk.larder, hk.work, hk.regs⟩
  · exact congrArg Laser.fault ((laser_congr hk.lasers e b).trans hself)
  · exact (laser_congr hk.lasers e _).trans (laser_modLaser_other _)
  · exact laserCheck_darkens (s := modLaser e b laserFailed s) hw (.inl (congrArg Laser.fault hself)) hn

theorem laserFaultClear_lights (hw : tblWf {} s.lanes = true) (hz : tblWf {} s.lasers = true) (p : Int) :
    Completes (.laserFaultClear e b p) s fun t =>
      t = laserCheck e b (modLaser e b (fun z => { z with fault := false, power := BitVec.ofInt 16 p }) s)
      ∧ laser t e b = { laser s e b with fault := false, power := BitVec.ofInt 16 p }
      ∧ (bit (reg s .oeLaser e.val) b.toNat = true → laserLow s < (BitVec.ofInt 16 p).toInt →
          ∀ n ∈ laserLanes e b, (lane t n).darkened = false)
      ∧ t.larder = s.larder ∧ t.work = s.work ∧ t.regs = s.regs := by
  have hself : laser (modLaser e b (laserCured (BitVec.ofInt 16 p)) s) e b = laserCured (BitVec.ofInt 16 p) (laser s e b) :=
    laser_modLaser (.inl hz)
  have hk := laserCheck_applied e b (modLaser e b (laserCured (BitVec.ofInt 16 p)) s)
  refine ⟨_, rfl, rfl, (laser_congr hk.lasers e b).trans hself, fun hen hp n hn => ?_, hk.larder, hk.work, hk.regs⟩
  change (lane (laserCheck e b (modLaser e b (laserCured (BitVec.ofInt 16 p)) s)) n).darkened = false
  rw [laserCheck_lights (s := modLaser e b (laserCured (BitVec.ofInt 16 p)) s) (by rw [hself]; rfl) hen (by rw [hself]; exact hp)]
  exact (lightLanes_lit (laserLanes e b) (modLaser e b (laserCured (BitVec.ofInt 16 p)) s)).lit hw n hn

theorem bit_setFld_two (w : Word) (a b : Bool) :
    bit (setFld w 0 2 (a.toNat + 2 * b.toNat)) 0 = a ∧ bit (setFld w 0 2 (a.toNat + 2 * b.toNat)) 1 = b := by
  cases a <;> cases b <;> simp [bit, setFld]

theorem reg_congr (h : t.regs = s.regs) (r : RegName) (a b c : Nat) : reg t r a b c = reg s r a b c := by
  simp only [reg, regDef, ethMode, h]

theorem laserEnable_darkens (hw : tblWf {} s.lanes = true) (hr : RegsRise s) (e) (a b : Bool) :
    Completes (.oeLaserEnable e a b) s fun t => t = laserEnable e a b s ∧ bit (reg t .oeLaser e.val) 0 = a ∧ bit (reg t .oeLaser e.val) 1 = b
      ∧ (a = false → ∀ n ∈ laserLanes e false, (lane t n).darkened = true)
      ∧ (b = false → ∀ n ∈ laserLanes e true, (lane t n).darkened = true)
      ∧ t.lasers = s.lasers ∧ t.larder = s.larder ∧ t.work = s.work := by
  obtain ⟨u, hu⟩ : ∃ u, u = setReg s .oeLaser e.val 0 0 (setFld (reg s .oeLaser e.val) 0 2 (a.toNat + 2 * b.toNat)) := ⟨_, rfl⟩
  have hreg : reg u .oeLaser e.val = setFld (reg s .oeLaser e.val) 0 2 (a.toNat + 2 * b.toNat) := by
    rw [hu]
    exact reg_setReg hr fun _ _ => rfl
  have hwu : tblWf {} u.lanes = true := by rw [hu]; exact hw
  have hrest : u.lasers = s.lasers ∧ u.larder = s.larder ∧ u.work = s.work := by rw [hu]; exact ⟨rfl, rfl, rfl⟩
  have heq : laserEnable e a b s = laserCheck e true (laserCheck e false u) := by rw [hu]; rfl
  clear hu
  have hA := laserCheck_applied e false u
  have hB := laserCheck_applied e true (laserCheck e false u)
  have hregA : reg (laserCheck e false u) .oeLaser e.val = setFld (reg s .oeLaser e.val) 0 2 (a.toNat + 2 * b.toNat) :=
    (reg_congr hA.regs ..).trans hreg
  have hregB : reg (laserCheck e true (laserCheck e false u)) .oeLaser e.val
      = setFld (reg s .oeLaser e.val) 0 2 (a.toNat + 2 * b.toNat) := (reg_congr hB.regs ..).trans hregA
  obtain ⟨hbitA, hbitB⟩ := bit_setFld_two (reg s .oeLaser e.val) a b
  refine ⟨laserEnable e a b s, rfl, rfl, ?_, ?_, fun ha n hn => ?_, fun hb n hn => ?_, ?_, ?_, ?_⟩ <;> rw [heq]
  · rw [hregB, hbitA]
  · rw [hregB, hbitB]
  · refine hB.dark (hA.wf hwu) n (laserLanes_disjoint hn) (laserCheck_darkens hwu (.inr ?_) hn).1
    rw [hreg]
    exact hbitA.trans ha
  · refine (laserCheck_darkens (hA.wf hwu) (.inr ?_) hn).1
    rw [hregA]
    exact hbitB.trans hb
  · rw [hB.lasers, hA.lasers, hrest.1]
  · rw [hB.larder, hA.larder, hrest.2.1]
  · rw [hB.work, hA.work, hrest.2.2]

/-! ### Measurements (R655) -/

/-- A lane with its received power stored. -/
def rxRead (p : BitVec 16) (low : Int) (a : Lane) : Lane := { a with rxPower := p, low := if p.toInt < low then a.low + 1 else 0 }

theorem exec_measureRx (n) (p : BitVec 16) (s : State) : exec (.opticalMeasure (.rx n p)) s = .next (
    if 8 ≤ (lane (modLane n (rxRead p (rxLow s)) s) n).low then faultLane n 3 (modLane n (rxRead p (rxLow s)) s)
    else modLane n (rxRead p (rxLow s)) s) := rfl

theorem measureTx_stored (hw : tblWf {} s.lanes = true) (n) (p : BitVec 16) :
    Completes (.opticalMeasure (.tx n p)) s fun t => lane t n = { lane s n with txPower := p }
      ∧ (∀ j, j ≠ n → lane t j = lane s j) ∧ t = { s with lanes := t.lanes } :=
  ⟨modLane n (fun a => { a with txPower := p }) s, rfl, lane_modLane hw _, fun _ hj => lane_modLane_ne hj _, rfl⟩

theorem measureRx_stored (hw : tblWf {} s.lanes = true) {p : BitVec 16} (h : (lane s n).low + 1 < 8 ∨ rxLow s ≤ p.toInt) :
    Completes (.opticalMeasure (.rx n p)) s fun t =>
      lane t n = { lane s n with rxPower := p, low := if p.toInt < rxLow s then (lane s n).low + 1 else 0 }
      ∧ (∀ j, j ≠ n → lane t j = lane s j) ∧ t = { s with lanes := t.lanes } := by
  have hown : lane (modLane n (rxRead p (rxLow s)) s) n = rxRead p (rxLow s) (lane s n) := lane_modLane hw _
  have hfew : ¬ 8 ≤ (lane (modLane n (rxRead p (rxLow s)) s) n).low := by
    rw [hown, rxRead]
    dsimp only
    split <;> omega
  exact ⟨modLane n (rxRead p (rxLow s)) s, by rw [exec_measureRx, if_neg hfew], hown, fun _ hj => lane_modLane_ne hj _, rfl⟩

theorem measureRx_faults (hw : tblWf {} s.lanes = true) {p : BitVec 16} (hp : p.toInt < rxLow s) (h7 : 7 ≤ (lane s n).low) :
    exec (.opticalMeasure (.rx n p)) s = .next (faultLane n 3 (modLane n (fun a => { a with rxPower := p, low := a.low + 1 }) s)) := by
  have hown : lane (modLane n (rxRead p (rxLow s)) s) n = rxRead p (rxLow s) (lane s n) := lane_modLane hw _
  have hread : rxRead p (rxLow s) = fun a => { a with rxPower := p, low := a.low + 1 } := by
    funext a
    rw [rxRead, if_pos hp]
  rw [exec_measureRx, if_pos, hread]
  rw [hown, hread]
  dsimp only
  omega

theorem exec_measureLaser (e b) (p : BitVec 16) (s : State) :
    let n := if p.toInt < laserLow s then (laser s e b).low + 1 else 0
    let s1 := laserCheck e b (modLaser e b (fun z => { z with power := p, low := n }) s)
    exec (.opticalMeasure (.laser e b p)) s =
      .next (if n = 2 then raiseEv 0x1F e.val ((if b then 2 else 1) + p.toNat <<< 16) 0 s1 else s1) := by
  intro n s1
  have hn : (if decide (p.toInt < laserLow s) = true then (laser s e b).low + 1 else 0) = n := by
    by_cases h : p.toInt < laserLow s
    · rw [if_pos (decide_eq_true h)]
      exact (if_pos h).symm
    · rw [if_neg (by rwa [decide_eq_true_eq])]
      exact (if_neg h).symm
  have hexec : ∀ m, (if decide (p.toInt < laserLow s) = true then (laser s e b).low + 1 else 0) = m →
      exec (.opticalMeasure (.laser e b p)) s = .next (if m = 2 then raiseEv 0x1F e.val ((if b then 2 else 1) + p.toNat <<< 16) 0
        (laserCheck e b (modLaser e b (laserRead p m) s)) else laserCheck e b (modLaser e b (laserRead p m) s)) := by
    rintro m rfl
    rfl
  exact hexec n hn

theorem measureLaser_stored (hz : tblWf {} s.lasers = true) (p : BitVec 16) :
    Completes (.opticalMeasure (.laser e b p)) s fun t => laser t e b = { laser s e b with
        power := p, low := if p.toInt < laserLow s then (laser s e b).low + 1 else 0 }
      ∧ t.larder = s.larder ∧ t.work = s.work ∧ t.regs = s.regs := by
  obtain ⟨n, hn⟩ : ∃ n, n = if p.toInt < laserLow s then (laser s e b).low + 1 else 0 := ⟨_, rfl⟩
  have hself : laser (modLaser e b (laserRead p n) s) e b = laserRead p n (laser s e b) := laser_modLaser (.inl hz)
  have hk := laserCheck_applied e b (modLaser e b (laserRead p n) s)
  have hexec := exec_measureLaser e b p s
  dsimp only at hexec
  rw [← hn] at hexec ⊢
  refine ⟨_, hexec, ?_⟩
  have hdone : ∀ {x}, x = laserCheck e b (modLaser e b (laserRead p n) s) ∨
      x = raiseEv 0x1F e.val ((if b then 2 else 1) + p.toNat <<< 16) 0 (laserCheck e b (modLaser e b (laserRead p n) s)) →
      laser x e b = laserRead p n (laser s e b) ∧ x.larder = s.larder ∧ x.work = s.work ∧ x.regs = s.regs := by
    rintro x (rfl | rfl)
    · exact ⟨(laser_congr hk.lasers e b).trans hself, hk.larder, hk.work, hk.regs⟩
    · have he := (raiseEv_host 0x1F e.val ((if b then 2 else 1) + p.toNat <<< 16) 0
        (laserCheck e b (modLaser e b (laserRead p n) s))).light
      exact ⟨(laser_congr (he.lasers.trans hk.lasers) e b).trans hself, he.larder.trans hk.larder, he.work.trans hk.work,
        he.regs.trans hk.regs⟩
  refine hdone ?_
  split
  · exact .inr rfl
  · exact .inl rfl

end

end Machine
end Sys2Proof
end

section
/-!
PROOF. Faults of lanes, lane state blocks, recovery, the bits that a write of 1 clears and far-end loops (R636, R647 to R653, R657).
-/
namespace Sys2Proof
namespace Machine
set_option Elab.async false

section
variable {s t : State} {l : LinkId} {n : LaneId}

/-! ### What lanes, links and ports are read from -/

theorem lane_congr (h : t.lanes = s.lanes) (n) : lane t n = lane s n := by rw [lane, h, lane]

theorem laneMask_congr (h : t.lanes = s.lanes) (l p) : laneMask t l p = laneMask s l p := by simp only [laneMask, lane_congr h]

theorem ethMode_congr (h : t.regs = s.regs) (l) : ethMode t l = ethMode s l := by simp only [ethMode, h]

theorem minLanes_congr (h : t.regs = s.regs) (l) : minLanes t l = minLanes s l := by simp only [minLanes, reg_congr h]

theorem modLink_lanes (l f) (s : State) : (modLink l f s).lanes = s.lanes := rfl

/-! ### Lock (R636, R637) -/

theorem hdrValid_iff (h : BitVec 2) : hdrValid h.toNat = true ↔ h = 1 ∨ h = 2 := by
  revert h
  decide

theorem gainsLock_iff (hs : List (BitVec 2)) : gainsLock hs = true ↔ 96 ≤ hs.length ∧ ∀ h ∈ hs.drop (hs.length - 96), h = 1 ∨ h = 2 := by
  have hlen : (hs.drop (hs.length - 96)).length = 96 ↔ 96 ≤ hs.length := by
    rw [List.length_drop]
    omega
  unfold gainsLock
  dsimp only
  simp only [Bool.and_eq_true, decide_eq_true_eq, hlen, List.all_eq_true, hdrValid_iff]

theorem lockLost_iff (a : Lane) : lockLost a = true ↔ 24 ≤ (a.hdrs.filter id).length ∨ 4 ≤ a.badWords := by
  simp only [lockLost, Bool.or_eq_true, decide_eq_true_eq]

/-! ### A lane that is held out (R647) -/

/-- The place of a lane within its link. -/
def laneIdx (n : LaneId) : Fin 4 := ⟨n.val % 4, Nat.mod_lt _ (by decide)⟩

theorem laneId_linkOfLane (n : LaneId) : laneId (linkOfLane n) (laneIdx n) = n := by
  apply Fin.ext
  simp only [laneId, linkOfLane, laneIdx]
  omega

/-- A list without repetition loses at most one of its elements with one value. -/
theorem length_filter_ne_le {α : Type} [DecidableEq α] {xs : List α} (hnd : xs.Nodup) (p : α → Bool) (a : α) :
    (xs.filter p).length ≤ (xs.filter (fun x => p x && x != a)).length + 1 := by
  have hfilter : xs.filter (fun x => p x && x != a) = (xs.filter p).erase a := by
    rw [(hnd.filter p).erase_eq_filter, List.filter_filter]
    exact List.filter_congr fun x _ => Bool.and_comm ..
  have hle := List.le_length_erase (a := a) (l := xs.filter p)
  rw [hfilter]
  omega

theorem inLane_heldOut (s : State) (a : Lane) : inLane (heldOut s a) = false := by simp [inLane, heldOut_out]

/-- A lane held out narrows its link by at most one. -/
theorem laneCount_holdLane (hw : tblWf {} s.lanes = true) (n) : laneCount (laneMask s (linkOfLane n) inLane)
    ≤ laneCount (laneMask (holdLane n s) (linkOfLane n) inLane) + 1 := by
  have hlane : ∀ j, inLane (lane (holdLane n s) (laneId (linkOfLane n) j))
      = (inLane (lane s (laneId (linkOfLane n) j)) && j != laneIdx n) := fun j => by
    rw [holdLane_eq]
    by_cases hj : j = laneIdx n
    · rw [hj, laneId_linkOfLane, lane_modLane hw, inLane_heldOut]
      simp
    · rw [lane_modLane_ne (fun he => hj (laneId_injective _ (congrArg Fin.val (he.trans (laneId_linkOfLane n).symm))))]
      simp [hj]
  rw [laneCount_laneMask, laneCount_laneMask]
  simp only [hlane]
  exact length_filter_ne_le (List.nodup_finRange 4) _ _

theorem faultLane_serving (h : (lane s n).st = .service ∨ (lane s n).st = .align) (k : Nat) : faultLane n k s
    = afterHold (linkOfLane n) (laneStCode (lane s n).st) (raiseEv 0x14 n.val k 0 (holdLane n s)) := if_pos h

theorem faultLane_idle (h1 : (lane s n).st ≠ .service) (h2 : (lane s n).st ≠ .align) (k : Nat) : faultLane n k s = s :=
  if_neg (not_or.mpr ⟨h1, h2⟩)

/-- A fault of a lane that its link can spare. -/
theorem faultLane_spared (hw : tblWf {} s.lanes = true) (hst : (lane s n).st = .service ∨ (lane s n).st = .align)
    (hd : (lane s n).darkened = false) (heth : ethMode s (linkOfLane n).val = false)
    (hmin : minLanes s (linkOfLane n) + 1 ≤ laneCount (laneMask s (linkOfLane n) inLane)) (k : Nat) :
    let t := faultLane n k s
    lane t n = toRecover s { lane s n with ownOut := true } ∧ (∀ j, j ≠ n → lane t j = lane s j)
      ∧ (∃ e, t.counts.sideband = s.counts.sideband ++ [e] ∧ e.code = 0x14 ∧ e.unit = BitVec.ofNat 16 n.val
          ∧ e.detail = BitVec.ofNat 128 k)
      ∧ HostOnly { s with lanes := t.lanes } t := by
  have hhost := raiseEv_host 0x14 n.val k 0 (holdLane n s)
  have hband := raiseEv_sideband 0x14 n.val k 0 (holdLane n s)
  have hcount := laneCount_holdLane hw n
  have hheld : heldOut s (lane s n) = toRecover s { lane s n with ownOut := true } := if_neg (by simp [hd])
  have hown : lane (holdLane n s) n = toRecover s { lane s n with ownOut := true } := by
    rw [holdLane_eq, lane_modLane hw, hheld]
  have hother : ∀ j, j ≠ n → lane (holdLane n s) j = lane s j := fun j hj => by
    rw [holdLane_eq, lane_modLane_ne hj]
  have hlanes : (raiseEv 0x14 n.val k 0 (holdLane n s)).lanes = (holdLane n s).lanes := by
    obtain ⟨x, y, z, he⟩ := hhost
    rw [he]
  have hregs : (raiseEv 0x14 n.val k 0 (holdLane n s)).regs = s.regs := hhost.light.regs
  have heq : faultLane n k s = raiseEv 0x14 n.val k 0 (holdLane n s) := by
    rw [faultLane_serving hst]
    refine afterHold_wide ((ethMode_congr hregs _).trans heth) ?_ _
    rw [minLanes_congr hregs, laneMask_congr hlanes]
    omega
  intro t
  simp only [t]
  rw [heq]
  refine ⟨(lane_congr hlanes n).trans hown, fun j hj => (lane_congr hlanes j).trans (hother j hj), ⟨_, hband, rfl, rfl, rfl⟩, ?_⟩
  rw [hlanes]
  exact hhost

/-! ### What follows a lane held out (R643, R653, R659) -/

theorem afterHold_eth (h : ethMode s l.val = true) (k) : afterHold l k s = ethLanesDown l s := if_pos h

theorem afterHold_narrow (heth : ethMode s l.val = false) (hmin : laneCount (laneMask s l inLane) < minLanes s l) (k) :
    afterHold l k s = if (link s l).up || (link s l).nego then findFailure l 1 s else bringFail l k s :=
  (if_neg (by simp [heth])).trans (if_neg (by omega))

/-! ### Recovery (R650 to R652) -/

theorem recoverFail_retrain (h1 : (link s (linkOfLane n)).up = true) (h2 : (link s (linkOfLane n)).retrain = true)
    (h3 : (lane s n).ownOut = false) (h4 : (lane s n).peerOut = false) : recoverFail n s = findFailure (linkOfLane n) 2 s :=
  if_pos (by simp [h1, h2, h3, h4])

/-- A held-out lane's recovery failed. -/
theorem recoverFail_counts (h : (lane s n).ownOut = true) : recoverFail n s = if 4 ≤ ((lane s n).fails + 1).toNat then
      raiseEv 0x19 n.val ((lane s n).fails + 1).toNat 0 (modLane n (fun a =>
        { a with fails := a.fails + 1, failed := true, ownOut := true, pass := none, peerPass := none }) s)
    else modLane n (fun a =>
        { a with fails := a.fails + 1, retryAt := some (s.tick.elapsed + 65536), pass := none, peerPass := none }) s :=
  if_neg (by simp [h])

theorem exec_recoverRetry {k : BitVec 48} (hk : (lane s n).retryAt = some k) : exec (.recoverRetry n) s = .next (
    if (lane s n).st = .recover && !(lane s n).failed && !(lane s n).darkened && reached s k then modLane n (toRecover s) s else s) := by
  change execRecoverRetry n s = _
  rw [execRecoverRetry, hk, apply_ite Host.Outcome.next] <;> rfl

theorem recoverRetry_again {k : BitVec 48} (hk : (lane s n).retryAt = some k) (hst : (lane s n).st = .recover)
    (hf : (lane s n).failed = false) (hd : (lane s n).darkened = false) (hr : reached s k = true) (hw : tblWf {} s.lanes = true) :
    Completes (.recoverRetry n) s fun t => lane t n = toRecover s (lane s n) ∧ (∀ j, j ≠ n → lane t j = lane s j)
      ∧ t = { s with lanes := t.lanes } := by
  refine ⟨modLane n (toRecover s) s, ?_, lane_modLane hw _, fun _ hj => lane_modLane_ne hj _, rfl⟩
  rw [exec_recoverRetry hk, if_pos (by simp [hst, hf, hd, hr])]

theorem recoverRetry_waits (h : (lane s n).retryAt = none ∨ (lane s n).st ≠ .recover ∨ (lane s n).failed = true) :
    NoEffect (.recoverRetry n) s := by
  cases hk : (lane s n).retryAt
  case none =>
    change execRecoverRetry n s = _
    rw [execRecoverRetry, hk]
  case some k =>
    rw [NoEffect, exec_recoverRetry hk, if_neg]
    rcases h with h | h | h
    · exact nomatch hk.symm.trans h
    · simp [h]
    · simp [h]

/-- A lane whose failed bit a write of 1 clears. -/
def unfailed (s : State) (a : Lane) : Lane :=
  if a.st = .recover then toRecover s { a with failed := false, fails := 0 }
  else { a with failed := false, fails := 0, ownOut := a.ownOut && a.st ≠ .detect }

theorem clearFailed_eq (n) (s : State) : clearFailed n s = if !(lane s n).failed then s else modLane n (unfailed s) s := rfl

theorem clearFailed_recover (hf : (lane s n).failed = true) (hst : (lane s n).st = .recover) :
    clearFailed n s = modLane n (fun a => toRecover s { a with failed := false, fails := 0 }) s := by
  have hlane : unfailed s (lane s n) = toRecover s { lane s n with failed := false, fails := 0 } := if_pos hst
  rw [clearFailed_eq, if_neg (by simp [hf]), modLane, hlane]
  rfl

theorem unfailed_spec (s : State) (a : Lane) : (unfailed s a).failed = false ∧ (unfailed s a).fails = 0 ∧ (unfailed s a).st = a.st := by
  unfold unfailed
  split
  next h => exact ⟨rfl, rfl, h.symm⟩
  next => exact ⟨rfl, rfl, rfl⟩

theorem failedClear_clears (hf : (lane s n).failed = true) (hw : tblWf {} s.lanes = true) :
    Completes (.failedClear n) s fun t => (lane t n).failed = false ∧ (lane t n).fails = 0 ∧ (lane t n).st = (lane s n).st
      ∧ (∀ j, j ≠ n → lane t j = lane s j) ∧ t = { s with lanes := t.lanes } := by
  have heq : clearFailed n s = modLane n (unfailed s) s := by rw [clearFailed_eq, if_neg (by simp [hf])]
  obtain ⟨h1, h2, h3⟩ := unfailed_spec s (lane s n)
  have hown : lane (modLane n (unfailed s) s) n = unfailed s (lane s n) := lane_modLane hw _
  exact ⟨_, congrArg Host.Outcome.next heq, by rw [hown, h1], by rw [hown, h2], by rw [hown, h3], fun _ hj => lane_modLane_ne hj _, rfl⟩

/-! ### Lane state blocks (R634, R648, R649, R653) -/

/-- A lane on which the peer shows its out_mask. -/
def peerHeld (s : State) (b : LaneState) (j : Fin 4) (a : Lane) : Lane :=
  if bit b.outMask j.val && !a.peerOut && a.st = .service then toRecover s { a with peerOut := true }
  else { a with peerOut := bit b.outMask j.val }

/-- A link whose peer transmits on the lanes of a mask. -/
def peerSends (m : BitVec 4) (k : Link) : Link := { k with peerTx := m }

/-- The link and its lanes after a lane state block. -/
def blockShown (l : LinkId) (b : LaneState) (s : State) : State := modLink l (peerSends b.txNext) (modLanes l (peerHeld s b) s)

theorem exec_laneStateBlock (l) (b : LaneState) (s : State) : exec (.laneStateBlock l b) s = .next (
    if !(link s l).up || ethMode s l.val then s
    else if laneCount b.txNext < minLanes (afterHold l 5 (blockShown l b s)) l then findFailure l 1 (afterHold l 5 (blockShown l b s))
    else afterHold l 5 (blockShown l b s)) := by
  have hlane : peerHeld s b = fun j a =>
      let out := bit b.outMask j.val
      let a' := { a with peerOut := out }
      if out && !a.peerOut && a.st = .service then toRecover s a' else a' := by
    funext j a
    unfold peerHeld
    dsimp only
    split
    next h => rw [Bool.and_eq_true, Bool.and_eq_true] at h; rw [h.1.1]
    next => rfl
  change execLaneStateBlock l b s = _
  rw [apply_ite Host.Outcome.next, blockShown, hlane]
  rfl

theorem inLane_peerHeld (s : State) (b : LaneState) (j a) :
    inLane (peerHeld s b j a) = (!bit b.outMask j.val && inLane { a with peerOut := false }) := by
  unfold peerHeld
  split
  next h =>
    rw [Bool.and_eq_true, Bool.and_eq_true] at h
    simp [h.1.1, inLane, toRecover]
  next => cases bit b.outMask j.val <;> simp [inLane]

/-- A lane state block that leaves its link wide enough at both ends. -/
theorem laneStateBlock_shown {b : LaneState} (hw : tblWf {} s.lanes = true) (hup : (link s l).up = true) (heth : ethMode s l.val = false)
    (hmin : minLanes s l ≤ ((List.finRange 4).filter (fun j => !bit b.outMask j.val
      && inLane { lane s (laneId l j) with peerOut := false })).length) (htx : minLanes s l ≤ laneCount b.txNext) :
    Completes (.laneStateBlock l b) s fun t =>
      (∀ j, lane t (laneId l j) = peerHeld s b j (lane s (laneId l j)))
      ∧ (link t l).peerTx = b.txNext ∧ OtherLanes l s t ∧ t = { s with lanes := t.lanes, links := t.links } := by
  have honly := modLanes_eq l (peerHeld s b) s
  have hshown : (blockShown l b s).lanes = (modLanes l (peerHeld s b) s).lanes := modLink_lanes ..
  have hlanes : ∀ j, lane (blockShown l b s) (laneId l j) = peerHeld s b j (lane s (laneId l j)) := fun j =>
    (lane_congr hshown _).trans (lane_modLanes_wf hw _ j)
  have hboth : blockShown l b s = { s with lanes := (blockShown l b s).lanes, links := (blockShown l b s).links } := by
    have hlink : ∀ u : State, modLink l (peerSends b.txNext) u = { u with links := (modLink l (peerSends b.txNext) u).links } := fun _ => rfl
    rw [hshown, blockShown, hlink, honly]
  have hregs : (blockShown l b s).regs = s.regs := by rw [hboth]
  have hlink : link (modLanes l (peerHeld s b) s) l = link s l := by
    rw [honly]
    rfl
  have hminShown := minLanes_congr hregs l
  have hwide : afterHold l 5 (blockShown l b s) = blockShown l b s := by
    refine afterHold_wide ((ethMode_congr hregs _).trans heth) ?_ _
    rw [hminShown, laneCount_laneMask]
    simp only [hlanes, inLane_peerHeld]
    exact hmin
  have hpeer : link (blockShown l b s) l = peerSends b.txNext (link s l) := by
    refine (link_setLink_of_up ?_).trans (congrArg (peerSends b.txNext) hlink)
    rw [hlink]
    exact hup
  refine ⟨blockShown l b s, ?_, hlanes, congrArg Link.peerTx hpeer, fun m hm => ?_, hboth⟩
  · rw [exec_laneStateBlock, if_neg (by simp [hup, heth]), hwide, hminShown, if_neg (by omega)]
  · exact (lane_congr hshown m).trans (modLanes_otherLanes l (peerHeld s b) s m hm)

/-! ### Ethernet ports (R659) -/

/-- A lane of an Ethernet port in service. -/
def ethServing (ns : Nat) (r : BitVec 2) (a : Lane) : Lane :=
  { a with st := .service, since := ns, rate := r, ownOut := false, peerOut := false }

theorem exec_ethernetPortService (l : Fin 16) (s : State) : exec (.ethernetPortService l) s = .next (
    if ethMode s (80 + l.val) && (ethPort s l).up = false && (List.finRange 4).all (fun j => laneLit s (laneId ⟨80 + l.val, by omega⟩ j)) then
      modEth l (fun e => { e with up := true })
        (modLanes ⟨80 + l.val, by omega⟩ (fun _ => ethServing s.tick.ns (if bit (reg s .ethPortCfg l.val) 1 then 1 else 2)) s)
    else s) := by
  change execEthernetPortService l s = _
  rw [apply_ite Host.Outcome.next]
  rfl

theorem ethernetPortService_enters {l : Fin 16} (heth : ethMode s (80 + l.val) = true) (hup : (ethPort s l).up = false)
    (hlit : ∀ j, laneLit s (laneId ⟨80 + l.val, by omega⟩ j) = true) :
    Completes (.ethernetPortService l) s fun t => (ethPort t l).up = true
      ∧ (∀ j, (lane t (laneId ⟨80 + l.val, by omega⟩ j)).st = .service)
      ∧ (∀ j, j ≠ l → ethPort t j = ethPort s j) ∧ OtherLanes ⟨80 + l.val, by omega⟩ s t ∧ t = { s with lanes := t.lanes, gw := t.gw } := by
  obtain ⟨r, hr⟩ : ∃ r : BitVec 2, r = if bit (reg s .ethPortCfg l.val) 1 then 1 else 2 := ⟨_, rfl⟩
  obtain ⟨k, hk⟩ : ∃ k : LinkId, k = ⟨80 + l.val, by omega⟩ := ⟨_, rfl⟩
  have hexec := exec_ethernetPortService l s
  rw [← hr, if_pos (by simpa [heth, hup] using hlit)] at hexec
  rw [← hk] at hexec ⊢
  have honly := modLanes_eq k (fun _ => ethServing s.tick.ns r) s
  have hserve : ∀ j, lane (modLanes k (fun _ => ethServing s.tick.ns r) s) (laneId k j) = ethServing s.tick.ns r (lane s (laneId k j)) := fun j =>
    lane_modLanes (.inr (ne_of_apply_ne Lane.st (by simp [ethServing])))
  have hlanes := modEth_lanes (modLanes k (fun _ => ethServing s.tick.ns r) s) l (fun e => { e with up := true })
  refine ⟨_, hexec, ?_, fun j => ?_, fun j hj => ?_, fun m hm => ?_, ?_⟩
  · rw [ethPort_modEth (ne_of_apply_ne EthPort.up (by simp))]
  · rw [lane_congr hlanes, hserve]
    rfl
  · rw [ethPort_modEth_ne hj, ethPort, honly]
    rfl
  · rw [lane_congr hlanes]
    exact modLanes_otherLanes k _ s m hm
  · have hgw : ∀ u : State, modEth l (fun e => { e with up := true }) u = { u with gw := (modEth l (fun e => { e with up := true }) u).gw } :=
      fun _ => rfl
    rw [hlanes, hgw, honly]

/-! ### Far-end loops (R657) -/

theorem trainLoopIn_eq (n) (mode : BitVec 2) (s : State) : trainLoopIn n mode s =
    if mode = 3 ∧ ((lane s n).st = .detect ∨ (lane s n).st = .negotiate) ∧ true then modLane n (fun a => { a with farLoop := some s.tick.ns }) s
    else if mode = 0 ∧ (lane s n).farLoop.isSome then modLane n (fun a => { a with farLoop := none, st := .detect, since := s.tick.ns }) s
    else s := rfl

/-- A lane after the time of its far-end loop was looked at. -/
def loopTimed (s : State) (a : Lane) : Lane :=
  match a.farLoop with
  | some t => if t + 10000000000 ≤ s.tick.ns then { a with farLoop := none, st := .detect, since := s.tick.ns } else a
  | none => a

theorem loopTimed_ends {a : Lane} {k : Nat} (h : a.farLoop = some k) (hk : k + 10000000000 ≤ s.tick.ns) :
    (loopTimed s a).farLoop = none ∧ (loopTimed s a).st = .detect := by
  unfold loopTimed
  rw [h]
  dsimp only
  rw [if_pos hk]
  exact ⟨rfl, rfl⟩

theorem loopTimed_stays {a : Lane} (h : ∀ k, a.farLoop = some k → s.tick.ns < k + 10000000000) : loopTimed s a = a := by
  unfold loopTimed
  split
  next k hk => exact if_neg (by have := h k hk; omega)
  next => rfl

theorem farLoopTimeout_ends (hw : tblWf {} s.lanes = true) (l) : Completes (.farLoopTimeout l) s fun t =>
    (∀ j k, (lane s (laneId l j)).farLoop = some k → k + 10000000000 ≤ s.tick.ns →
      (lane t (laneId l j)).farLoop = none ∧ (lane t (laneId l j)).st = .detect)
    ∧ (∀ j, (∀ k, (lane s (laneId l j)).farLoop = some k → s.tick.ns < k + 10000000000) → lane t (laneId l j) = lane s (laneId l j))
    ∧ OtherLanes l s t ∧ t = { s with lanes := t.lanes } := by
  have hlane : ∀ j, lane (modLanes l (fun _ => loopTimed s) s) (laneId l j) = loopTimed s (lane s (laneId l j)) := fun j =>
    lane_modLanes_wf hw _ j
  refine ⟨modLanes l (fun _ => loopTimed s) s, rfl, fun j k hk hns => ?_, fun j h => ?_, modLanes_otherLanes l _ s, modLanes_eq l _ s⟩
  · rw [hlane]
    exact loopTimed_ends hk hns
  · rw [hlane, loopTimed_stays h]

/-! ### The causes of a lane fault (R647) -/

theorem exec_laneFault {c : LaneCause} {k : Nat}
    (h : (c = .lock ∧ k = 1 ∧ (codeSeen s n = true → lockLost (lane s n) = true))
      ∨ (c = .ucwLimit ∧ k = 2 ∧ (codeSeen s n = true → fld (reg s .laneCtrl n.val) 8 8 ≤ ucwCount s (lane s n)))
      ∨ (c = .rxPower ∧ k = 3 ∧ 8 ≤ (lane s n).low) ∨ (c = .laser ∧ k = 4 ∧ (lane s n).darkened = true)) :
    exec (.laneFault n c) s = .next (faultLane n k s) := by
  rcases h with ⟨rfl, rfl, h⟩ | ⟨rfl, rfl, h⟩ | ⟨rfl, rfl, h⟩ | ⟨rfl, rfl, h⟩ <;> refine congrArg Host.Outcome.next ?_
  · exact if_neg (by simpa using h)
  · exact if_neg (by simpa using h)
  · exact if_pos h
  · exact if_pos h

theorem laneFault_absent (n) (s : State) : (codeSeen s n = true → lockLost (lane s n) = false → NoEffect (.laneFault n .lock) s)
    ∧ (codeSeen s n = true → ucwCount s (lane s n) < fld (reg s .laneCtrl n.val) 8 8 → NoEffect (.laneFault n .ucwLimit) s)
    ∧ ((lane s n).low < 8 → NoEffect (.laneFault n .rxPower) s) ∧ ((lane s n).darkened = false → NoEffect (.laneFault n .laser) s) :=
  ⟨fun h h' => congrArg Host.Outcome.next (if_pos (by simp [h, h'])), fun h h' => congrArg Host.Outcome.next (if_pos (by simp [h, h'])),
    fun h => congrArg Host.Outcome.next (if_neg (by omega)), fun h => congrArg Host.Outcome.next (if_neg (by simp [h]))⟩

end

end Machine

open Machine

/-- Settles O47: the lane faults by their causes, the lasers by the rule of R654, each command by its equation. -/
theorem laneFaultsLasersAndLoops : Obligations.LaneFaultsLasersAndLoops := by
  unfold Obligations.LaneFaultsLasersAndLoops
  refine ⟨⟨gainsLock_iff, lockLost_iff, fun s n c k => exec_laneFault, fun s n => laneFault_absent n s,
      fun s n k _ hw hst hd _ heth hmin => faultLane_spared hw hst hd heth hmin k,
      fun s n k => ⟨fun h => faultLane_serving h k, fun h1 h2 => faultLane_idle h1 h2 k⟩, fun s l k => ?_, fun s n => ?_,
      fun s l b hw hup heth => laneStateBlock_shown hw hup heth, fun s l b hup heth => ?_, fun s l b h => ?_,
      fun s n k => recoverRetry_again, fun s n => recoverRetry_waits, fun _ _ => rfl,
      fun s n h => by rw [clearFailed_eq, h]; rfl, fun s n => clearFailed_recover, fun s n => failedClear_clears,
      fun s l h => ⟨_, rfl, fallback_setFallback h l, rfl, rfl⟩, fun s l => ethernetPortService_enters, fun s l hup => ?_⟩,
    fun s e b => laserFault_darkens, fun s e b p hw hz => laserFaultClear_lights hw hz p, fun s e a b hw hr => laserEnable_darkens hw hr e a b,
    fun s n p hw => measureTx_stored hw n p, fun s n p hw h => measureRx_stored hw h, fun s e b p hz => measureLaser_stored hz p,
    fun s e b p => exec_measureLaser e b p s, fun s n p hw hp h7 => measureRx_faults hw hp h7,
    fun s e b => ⟨laserCheck_off, laserCheck_lights, laserCheck_low⟩, fun e b n => mem_laserLanes, fun s n h => ?_, fun s n h1 h2 => ?_,
    fun s n => ?_, fun s l hw => farLoopTimeout_ends hw l⟩
  · refine ⟨fun h => afterHold_eth h k, fun heth hmin => afterHold_wide heth hmin k, fun heth hmin => ?_⟩
    rw [afterHold_narrow heth hmin]
    exact ⟨fun h => if_pos (by simpa using h), fun h1 h2 => if_neg (by simp [h1, h2])⟩
  · refine ⟨recoverFail_retrain, fun ho hf => ?_, fun ho hf => ?_⟩
    · rw [recoverFail_counts ho, if_pos hf]
    · rw [recoverFail_counts ho, if_neg (by omega)]
  · refine (exec_laneStateBlock l b s).trans (congrArg Host.Outcome.next ?_)
    rw [if_neg (by simp [hup, heth])]
    rfl
  · exact (exec_laneStateBlock l b s).trans (congrArg Host.Outcome.next (if_pos (by rcases h with h | h <;> simp [h])))
  · exact (exec_ethernetPortService l s).trans (congrArg Host.Outcome.next (if_neg (by simp [hup])))
  · rw [trainLoopIn_eq]
    exact if_pos ⟨rfl, h, rfl⟩
  · rw [trainLoopIn_eq, if_neg (by simp [h1, h2])]
    exact if_neg fun h => absurd h.1 (by decide)
  · rw [trainLoopIn_eq, if_neg (by simp)]
    exact ⟨fun h => if_pos ⟨rfl, h⟩, fun h => if_neg (by simp [h])⟩

end Sys2Proof
end

section
/-!
PROOF. The SPDM responder (R676 to R678, R684).
-/
namespace Sys2Proof
namespace Machine
set_option Elab.async false

section
variable {s : State} {p : Transport} {r : State → SpdmReply × State} {a : SpdmReply}

/-- A request that came over the Enzen link leaves its inbox. -/
def spdmTaken (p : Transport) (s : State) : State := if p = .enzen then takeInbox 0x08 s else s

theorem spdmTaken_enz (p) (s : State) : EnzOnly s (spdmTaken p s) := by
  unfold spdmTaken takeInbox
  split
  · split
    · exact ⟨_, rfl⟩
    · exact ⟨_, rfl⟩
  · exact ⟨_, rfl⟩

/-- One reply was sent, and the responder's state is otherwise `g`. -/
def Answered (p : Transport) (a : SpdmReply) (g : Strong) (s t : State) : Prop :=
  t.strong = { g with replies := s.strong.replies ++ [(p, a)] } ∧ t = { s with strong := t.strong, enz := t.enz }

theorem spdmReply_restarting (h : s.attic.restarting = true) (p r) : spdmReply p r s = spdmTaken p s := by
  obtain ⟨x, hx⟩ := spdmTaken_enz p s
  have hrest : (spdmTaken p s).attic.restarting = true := by rw [hx]; exact h
  exact if_pos hrest

theorem spdmReply_running (h : s.attic.restarting = false) (p r) : ∃ x, spdmReply p r s =
    let (a, u) := if s.strong.erased then (SpdmReply.error, { s with enz := x }) else r { s with enz := x }
    { u with strong.replies := u.strong.replies ++ [(p, a)] } := by
  obtain ⟨x, hx⟩ := spdmTaken_enz p s
  have hrest : ¬ (spdmTaken p s).attic.restarting = true := by rw [hx]; simp [h]
  refine ⟨x, (if_neg hrest).trans ?_⟩
  change (let (a, u) := if (spdmTaken p s).strong.erased then (SpdmReply.error, spdmTaken p s) else r (spdmTaken p s)
    { u with strong.replies := u.strong.replies ++ [(p, a)] }) = _
  rw [hx]

/-- The responder keeps a signed message. -/
def withSigned (m : List Byte) (z : Strong) : Strong := { z with signed := m }

/-- A reply that signs nothing. -/
theorem spdmReply_plain (h : s.attic.restarting = false) (he : s.strong.erased = false)
    (hr : ∀ x, r { s with enz := x } = (a, { s with enz := x })) : Answered p a s.strong s (spdmReply p r s) := by
  obtain ⟨x, hx⟩ := spdmReply_running h p r
  rw [hx, he, if_neg Bool.false_ne_true, hr]
  exact ⟨rfl, rfl⟩

/-- A reply whose signed message is kept (R677). -/
theorem spdmReply_signed {m : List Byte} (h : s.attic.restarting = false) (he : s.strong.erased = false)
    (hr : ∀ x, r { s with enz := x } = (a, { s with enz := x, strong := withSigned m s.strong })) :
    Answered p a (withSigned m s.strong) s (spdmReply p r s) := by
  obtain ⟨x, hx⟩ := spdmReply_running h p r
  rw [hx, he, if_neg Bool.false_ne_true, hr]
  exact ⟨rfl, rfl⟩

theorem spdmReply_erased (h : s.attic.restarting = false) (he : s.strong.erased = true) (p r) :
    Answered p .error s.strong s (spdmReply p r s) := by
  obtain ⟨x, hx⟩ := spdmReply_running h p r
  rw [hx, he, if_pos rfl]
  exact ⟨rfl, rfl⟩

/-- Each request of the responder is answered by `spdmReply`. -/
theorem exec_spdm {c : Instr} (h : c ∈ [Instr.getVersion p, .getCapabilities p, .negotiateAlgorithms p, .getDigests p]
      ∨ (∃ o n, c = .getCertificate p o n) ∨ (∃ x, c = .challenge p x) ∨ (∃ i b x, c = .getMeasurements p i b x)
      ∨ ∃ v k q, c = .vendorDefinedRequest p v k q) (s : State) : ∃ r, exec c s = .next (spdmReply p r s) := by
  simp only [List.mem_cons, List.not_mem_nil, or_false] at h
  rcases h with (rfl | rfl | rfl | rfl) | ⟨o, n, rfl⟩ | ⟨x, rfl⟩ | ⟨i, b, x, rfl⟩ | ⟨v, k, q, rfl⟩ <;> exact ⟨_, rfl⟩

/-! ### Measurements (Table 19-8a) -/

/-- A measurement does not depend on the Enzen link. -/
theorem measurement_enz (x : Enzen) : measurement { s with enz := x } = measurement s := by
  funext k
  unfold measurement
  split <;> rfl

theorem length_measurement_keys (s : State) : (measurement s 8).length = 241 := by
  simp [measurement, upFrom, leBytes_length]

/-- The blocks that GET_MEASUREMENTS answers with (log 33). -/
def measured (s : State) (i : BitVec 8) : List (Nat × List Byte) :=
  if i.toNat = 0xFF then (upFrom 1 8).map (fun k => (k, measurement s k))
  else if 1 ≤ i.toNat ∧ i.toNat ≤ 8 then [(i.toNat, measurement s i.toNat)] else []

/-- What GET_MEASUREMENTS answers. -/
def measureReply (i : BitVec 8) (sg : Bool) (x : BitVec 256) (s : State) : SpdmReply × State :=
  if 8 < i.toNat && i.toNat ≠ 0xFF then (.error, s)
  else if sg then
    (.measurements (measured s i) (spdmSign (leBytes 32 x.toNat ++ (measured s i).flatMap (·.2)) s).1,
      (spdmSign (leBytes 32 x.toNat ++ (measured s i).flatMap (·.2)) s).2)
  else (.measurements (measured s i) [], s)

theorem exec_getMeasurements (p) (i : BitVec 8) (sg) (x : BitVec 256) (s : State) :
    exec (.getMeasurements p i sg x) s = .next (spdmReply p (measureReply i sg x) s) := rfl

theorem measured_eq {i : BitVec 8} (h : i.toNat ≤ 8 ∨ i = 0xFF) : measured s i =
    if i = 0xFF then (upFrom 1 8).map (fun k => (k, measurement s k)) else if i = 0 then [] else [(i.toNat, measurement s i.toNat)] := by
  unfold measured
  by_cases hff : i = 0xFF
  · rw [if_pos hff, hff]
    exact if_pos rfl
  · have hnat : i.toNat ≠ 0xFF := fun hn => hff (BitVec.eq_of_toNat_eq hn)
    rw [if_neg hnat, if_neg hff]
    by_cases h0 : i = 0
    · rw [if_pos h0, h0]
      exact if_neg (by decide)
    · have hpos : i.toNat ≠ 0 := fun hn => h0 (BitVec.eq_of_toNat_eq hn)
      rw [if_neg h0, if_pos ⟨by omega, h.resolve_right hff⟩]

theorem measured_enz (x : Enzen) (i) : measured { s with enz := x } i = measured s i := by
  unfold measured
  rw [measurement_enz]

/-- The index names blocks of Table 19-8a. -/
theorem measureReply_known {i : BitVec 8} (h : i.toNat ≤ 8 ∨ i = 0xFF) (sg x) (s : State) : measureReply i sg x s =
    if sg then (.measurements (measured s i) (Config.sign 0 (leBytes 32 x.toNat ++ (measured s i).flatMap (·.2))),
      { s with strong.signed := leBytes 32 x.toNat ++ (measured s i).flatMap (·.2) })
    else (.measurements (measured s i) [], s) := by
  unfold measureReply
  rw [if_neg]
  · rfl
  · rcases h with h | rfl
    · simp [Nat.not_lt.mpr h]
    · decide

theorem measureReply_unknown {i : BitVec 8} (h : 8 < i.toNat) (hff : i ≠ 0xFF) (sg x) (s : State) : measureReply i sg x s = (.error, s) :=
  if_pos (by
    have hnat : i.toNat ≠ 255 := fun hn => hff (BitVec.eq_of_toNat_eq hn)
    simp [h, hnat])

theorem getMeasurements_answers (h : s.attic.restarting = false) (he : s.strong.erased = false) (p) (i : BitVec 8) (x : BitVec 256) :
    let bs := if i = 0xFF then (upFrom 1 8).map (fun k => (k, measurement s k))
      else if i = 0 then [] else [(i.toNat, measurement s i.toNat)]
    let m := leBytes 32 x.toNat ++ bs.flatMap (·.2)
    (i.toNat ≤ 8 ∨ i = 0xFF → Completes (.getMeasurements p i false x) s (Answered p (.measurements bs []) s.strong s))
    ∧ (i.toNat ≤ 8 ∨ i = 0xFF →
      Completes (.getMeasurements p i true x) s (Answered p (.measurements bs (Config.sign 0 m)) (withSigned m s.strong) s))
    ∧ (∀ sg, 8 < i.toNat → i ≠ 0xFF → Completes (.getMeasurements p i sg x) s (Answered p .error s.strong s)) := by
  intro bs m
  refine ⟨fun hi => ⟨_, exec_getMeasurements p i false x s, spdmReply_plain h he fun y => ?_⟩,
    fun hi => ⟨_, exec_getMeasurements p i true x s, spdmReply_signed h he fun y => ?_⟩,
    fun sg h8 hff => ⟨_, exec_getMeasurements p i sg x s, spdmReply_plain h he fun y => measureReply_unknown h8 hff sg x _⟩⟩
  · rw [measureReply_known hi, measured_enz, measured_eq hi]
    rfl
  · rw [measureReply_known hi, measured_enz, measured_eq hi]
    rfl

theorem challenge_answers (h : s.attic.restarting = false) (he : s.strong.erased = false) (p) (x : BitVec 256) :
    let m := leBytes 32 x.toNat ++ (upFrom 1 8).flatMap (measurement s)
    Completes (.challenge p x) s (Answered p (.challengeAuth (Config.sign 0 m)) (withSigned m s.strong) s) := by
  intro m
  refine ⟨_, rfl, spdmReply_signed h he fun y => ?_⟩
  rw [measurement_enz]
  rfl

/-! ### Vendor requests (R677) -/

/-- What a vendor request is answered with. -/
def vendorReply (v : BitVec 32) (k : BitVec 8) (q : BitVec 16) (s : State) : SpdmReply :=
  if v ≠ 0x4B525953 then .error
  else if k = 1 then .vendor (Config.sign 1 s.strong.signed)
  else if k = 2 then .vendor (((Config.certChain 1).drop (1024 * q.toNat)).take 1024) else .error

theorem exec_vendorDefinedRequest (p) (v : BitVec 32) (k : BitVec 8) (q : BitVec 16) (s : State) :
    exec (.vendorDefinedRequest p v k q) s = .next (spdmReply p (fun s => (vendorReply v k q s, s)) s) := by
  have hreply : (fun s : State => (vendorReply v k q s, s)) = fun s =>
      if v ≠ 0x4B525953 then (.error, s)
      else if k = 1 then (.vendor (Config.sign 1 s.strong.signed), s)
      else if k = 2 then (.vendor (((Config.certChain 1).drop (1024 * q.toNat)).take 1024), s)
      else (.error, s) := by
    funext u
    simp only [vendorReply, apply_ite (fun a => (a, u))]
  rw [hreply]
  rfl

end

end Machine

open Machine

/-- Settles O49: each request is one `spdmReply`, which answers once unless the Attic restarts. -/
theorem spdmResponder : Obligations.SpdmResponder := by
  unfold Obligations.SpdmResponder
  refine ⟨fun s p c r h he hc => ?_, fun s p o n h he => ⟨_, rfl, spdmReply_plain h he fun _ => rfl⟩, fun s p x h he => challenge_answers h he p x,
    fun s p i x h he => getMeasurements_answers h he p i x,
    fun s => ⟨rfl, rfl, rfl, rfl, rfl, rfl, rfl, length_measurement_keys s⟩,
    fun s p k q v h he => ⟨_, exec_vendorDefinedRequest p v k q s, spdmReply_plain h he fun _ => rfl⟩, fun s p c hc => ?_⟩
  · simp only [List.mem_cons, Prod.mk.injEq, List.not_mem_nil, or_false] at hc
    rcases hc with ⟨rfl, rfl⟩ | ⟨rfl, rfl⟩ | ⟨rfl, rfl⟩ | ⟨rfl, rfl⟩ <;> exact ⟨_, rfl, spdmReply_plain h he fun _ => rfl⟩
  · obtain ⟨r, hr⟩ := exec_spdm hc s
    refine ⟨fun h => ⟨_, hr, ?_⟩, fun h he => ⟨_, hr, spdmReply_erased h he p r⟩⟩
    rw [spdmReply_restarting h]
    obtain ⟨x, hx⟩ := spdmTaken_enz p s
    rw [hx]

end Sys2Proof
end

section
/-!
PROOF. What the end of a failed link's packets leaves as it was: the other links, the events told and the lost nodes (R287, R742).
-/
namespace Sys2Proof
namespace Machine
set_option Elab.async false

section
variable {s t u : State}

/-! ### Links, events and lost nodes -/

/-- The links, the events told on the sideband, the exclusion list, the notices and the lost nodes. -/
def told (s : State) : Tbl Link × List Event × List (BitVec 12 × BitVec 12) × List Notice × List (BitVec 12) :=
  (s.links, s.counts.sideband, s.route.excl, s.route.notices, s.route.lostNodes)

/-- Links, exclusion list and notices are as they were, and no event told is taken back. -/
structure RoutesKept (s t : State) : Prop where
  links : t.links = s.links
  events : ∀ e ∈ s.counts.sideband, e ∈ t.counts.sideband
  excl : t.route.excl = s.route.excl
  notices : t.route.notices = s.route.notices

/-- As `RoutesKept`, and the lost nodes are as they were. -/
structure Told (s t : State) : Prop extends RoutesKept s t where
  lost : t.route.lostNodes = s.route.lostNodes

theorem RoutesKept.trans (h : RoutesKept s t) (k : RoutesKept t u) : RoutesKept s u :=
  ⟨k.links.trans h.links, fun e he => k.events e (h.events e he), k.excl.trans h.excl, k.notices.trans h.notices⟩

theorem RoutesKept.foldl {α : Type} {f : State → α → State} (h : ∀ s x, RoutesKept s (f s x)) : ∀ (l : List α) (s : State), RoutesKept s (l.foldl f s)
  | [], _ => ⟨Eq.refl _, fun _ => id, Eq.refl _, Eq.refl _⟩
  | x :: l, s => (h s x).trans (foldl h l (f s x))

theorem Told.of (h : told t = told s) : Told s t := by
  simp only [told, Prod.mk.injEq] at h
  obtain ⟨hl, he, hx, hn, hlost⟩ := h
  exact ⟨⟨hl, fun e hm => he ▸ hm, hx, hn⟩, hlost⟩

theorem Told.refl (s : State) : Told s s := .of (Eq.refl _)

theorem Told.trans (h : Told s t) (k : Told t u) : Told s u := ⟨h.toRoutesKept.trans k.toRoutesKept, k.lost.trans h.lost⟩

/-- A change that tells nothing comes before. -/
theorem Told.after (k : Told t u) (h : told t = told s) : Told s u := (Told.of h).trans k

theorem Told.ite {c : Prop} [Decidable c] {a b : State} (ha : Told s a) (hb : Told s b) : Told s (if c then a else b) := by
  split
  · exact ha
  · exact hb

theorem Told.foldl {α : Type} {f : State → α → State} (h : ∀ s x, Told s (f s x)) : ∀ (l : List α) (s : State), Told s (l.foldl f s)
  | [], s => .refl s
  | x :: l, s => (h s x).trans (foldl h l (f s x))

theorem EnzOnly.told (h : EnzOnly s t) : Told s t := by
  obtain ⟨x, rfl⟩ := h
  exact .of (Eq.refl _)

/-- What leaves the sideband as it was and may change only Enzen, the rings and the counts. -/
theorem HostOnly.told (h : HostOnly s t) (hs : ∀ e ∈ s.counts.sideband, e ∈ t.counts.sideband) : Told s t := by
  obtain ⟨_, _, _, rfl⟩ := h
  exact ⟨⟨Eq.refl _, hs, Eq.refl _, Eq.refl _⟩, Eq.refl _⟩

theorem raiseEv_told (c u d g) (s : State) : Told s (raiseEv c u d g s) :=
  (raiseEv_host ..).told fun e he => by
    rw [raiseEv_sideband]
    exact List.mem_append_left _ he

theorem auditMismatch_told (k u b d g) (s : State) : Told s (auditMismatch k u b d g s) := (raiseEv_told ..).after rfl

theorem complete_told (d st r) (s : State) : Told s (complete d st r s) :=
  (complete_host ..).told fun e he => by
    rw [sideband_complete]
    exact he

/-! ### Packets that enter the core -/

theorem touchUnder_told (n) (s : State) : Told s (touchUnder n s) := by
  unfold touchUnder
  split
  · exact .ite (.of rfl) (.refl s)
  · exact .refl s

theorem enqueueNow_told (i k o u q bad h p r) (s : State) : Told s (enqueueNow i k o u q bad h p s r) :=
  (touchUnder_told ..).after rfl

theorem enqueue_told (i k o u q bad h p r) (s : State) : Told s (enqueue i k o u q bad h p s r) :=
  .ite (enqueueNow_told ..) (.ite (enqueueNow_told ..) (.of rfl))

theorem sendTo_told (i o p) (s : State) : Told s (sendTo i o p s) := enqueue_told ..

theorem hopIngress_told (i p) (s : State) : Told s (hopIngress i p s).2 := by
  unfold hopIngress
  extract_lets _ _ v
  have hv : Told s v := .ite (.refl s) (.of rfl)
  split
  · split
    · exact hv
    · exact hv
  · exact .refl s

theorem inject_told (i p) (s : State) : Told s (inject i p s) := by
  unfold inject
  extract_lets q
  have hhop := hopIngress_told i q s
  split
  · exact .ite (enqueue_told ..) (.of rfl)
  · split
    next h => rw [h] at hhop; exact hhop.trans (enqueue_told ..)
    next h => rw [h] at hhop; exact hhop

theorem sendFail_told (i st p) (s : State) : Told s (sendFail i st p s) :=
  .ite ((inject_told ..).after rfl) (.refl s)

theorem admitEntering_told (i) : ∀ (n) (s : State), Told s (admitEntering i n s)
  | 0, s => .refl s
  | n + 1, s => by
    unfold admitEntering
    split
    · exact .refl s
    · refine .ite (Told.trans ?_ (admitEntering_told i n _)) (.refl s)
      exact (enqueueNow_told ..).after rfl

/-! ### Packets and cells that end -/

theorem trimBlocks_told (i o) (s : State) : Told s (trimBlocks i o s) := by
  obtain ⟨c, hc⟩ := trimBlocks_core i o s
  rw [hc]
  exact .of rfl

theorem freeCredits_told (i o n) (s : State) : Told s (freeCredits i o n s) := (trimBlocks_told ..).after rfl

theorem freeReplicas_told (o ms) (s : State) : Told s (freeReplicas o ms s) := by
  refine .foldl (fun _ _ => ?_) ms s
  exact .of rfl

theorem loseRef_told (o st r) (s : State) : Told s (loseRef o st r s) := by
  unfold loseRef
  split
  · exact .of rfl
  · exact .refl s

theorem closeRecord_told (r) (s : State) : Told s (closeRecord r s) := by
  unfold closeRecord
  extract_lets r u
  have hu : Told s u := .of rfl
  exact hu.trans (inject_told ..)

theorem mcCount_told (o ok st p) (s : State) : Told s (mcCount o ok st p s) := by
  unfold mcCount
  split
  · exact .refl s
  · extract_lets n r
    exact .ite (closeRecord_told ..) (.of rfl)

theorem failCell_told (o st c) (s : State) : Told s (failCell o st c s) := by
  unfold failCell
  split
  · exact .refl s
  · have hu : Told s (bumpPort o (24 * c.pkt.vc.val + 11) s) := .of rfl
    exact hu.trans ((sendFail_told ..).trans (loseRef_told ..))

theorem dropCell_told (o c) (s : State) : Told s (dropCell o c s) := (freeCredits_told ..).trans (.of rfl)

theorem freeHeld_told (o uid st) (s : State) : Told s (freeHeld o uid st s) := by
  unfold freeHeld
  extract_lets mine u
  have hu : Told s u := .of rfl
  refine hu.trans (.foldl (fun v c => ?_) mine u)
  exact (failCell_told ..).trans (dropCell_told ..)

/-- An output's credits go back to its source, or to the slices. -/
theorem creditsBack_told (k : CellKind) (c : Bool) (i o n ms) (s : State) :
    Told s (if !c then s else if k = .unicast then freeCredits i o n s else freeReplicas o ms s) :=
  .ite (.refl s) (.ite (freeCredits_told ..) (freeReplicas_told ..))

theorem discardAt_told (o uid st) (s : State) : Told s (discardAt o uid st s) := by
  unfold discardAt
  extract_lets v
  have hv : Told s v := .of rfl
  split
  · exact hv.trans (freeHeld_told ..)
  · split
    · exact hv
    · extract_lets w x y z
      have hx : Told s x := (hv.trans (.of rfl : Told v w)).trans (Told.trans (.ite (sendFail_told ..) (mcCount_told ..)) (loseRef_told ..))
      have hy : Told s y := hx.trans (.of rfl)
      split
      · exact hx.trans ((freeHeld_told ..).after rfl)
      · exact (hy.trans (creditsBack_told ..)).trans (freeHeld_told ..)

theorem dropStarted_told (o) (s : State) (q) : Told s (dropStarted o s q) := by
  unfold dropStarted
  extract_lets w x y z
  have hw : Told s w := .ite (sendFail_told ..) (mcCount_told ..)
  have hx : Told s x := hw.trans ((loseRef_told ..).after rfl)
  have hy : Told s y := hx.trans ((freeHeld_told ..).after rfl)
  exact hy.trans ((creditsBack_told ..).after rfl)

theorem dropOrdered_told (i) (s : State) (x) : Told s (dropOrdered i s x) := by
  unfold dropOrdered
  extract_lets p
  split
  · exact .ite (.refl s) (discardAt_told ..)
  · exact .ite (.refl s) (((sendFail_told ..).trans (loseRef_told ..)).trans (.of rfl))

theorem dropArriving_told (l k) (s : State) : Told s (dropArriving l k s) := by
  unfold dropArriving
  split
  · exact sendFail_told ..
  · exact .refl s

theorem sendNotice_told (b l) (s : State) : Told s (sendNotice b l s) := inject_told ..

/-! ### Operations and segments that a lost link or member ends -/

theorem sendRecord_told (o j i b st n) (s : State) : Told s (sendRecord o j i b st n s) := by
  unfold sendRecord
  split
  · exact .refl s
  · exact sendTo_told ..

theorem returnRoom_told (g r) (s : State) : Told s (returnRoom g r s) := .ite (.of rfl) (.of rfl)

theorem closeOp_told (g q o st) (s : State) : Told s (closeOp g q o st s) := by
  unfold closeOp
  extract_lets u v w
  have hu : Told s u := .ite (.foldl (fun _ _ => returnRoom_told ..) ..) (.of rfl)
  exact hu.trans (.of rfl)

theorem failOp_told (g q st f) (s : State) : Told s (failOp g q st f s) := by
  unfold failOp
  split
  · exact .refl s
  · exact Told.trans (.foldl (fun _ _ => sendRecord_told ..) ..) (closeOp_told ..)

theorem collLossGroup_told (g) (s : State) : Told s (collLossGroup g s) := by
  unfold collLossGroup
  extract_lets e u
  have hu : Told s u := .foldl (fun v q => by
    split
    · exact failOp_told ..
    · exact .refl v) _ s
  clear_value u
  split
  · exact .refl s
  · split
    · exact .refl s
    · exact hu.trans (.of rfl)

theorem collLosses_told (s : State) : Told s (collLosses s) := .foldl (fun _ _ => collLossGroup_told ..) ..

theorem modRun_told (k pass seg f) (s : State) : Told s (modRun k pass seg f s) := .of rfl

theorem sendCounter_told (k r x st) (s : State) : Told s (sendCounter k r x st s) := by
  unfold sendCounter
  split
  · exact .ite (.refl s) (sendTo_told ..)
  · exact .refl s

theorem endShare_told (k pass seg o st) (s : State) : Told s (endShare k pass seg o st s) := by
  unfold endShare
  split
  · exact .refl s
  · split
    · exact .refl s
    · exact (modRun_told ..).trans ((sendCounter_told ..).trans (.of rfl))

theorem recordSeg_told (k pass seg st) (s : State) : Told s (recordSeg k pass seg st s) := by
  unfold recordSeg
  extract_lets v w
  have hv : Told s v := .of rfl
  have hw : Told s w := hv.trans (.of rfl)
  split
  · exact hv
  · split
    · exact hv
    · split
      · exact hw.trans (complete_told ..)
      · exact hw

theorem landAudit_told (k) (s : State) : Told s (landAudit k s) :=
  .foldl (fun v _ => by
    dsimp only
    split
    · exact .refl v
    · exact (auditMismatch_told ..).trans (.of rfl)) ..

theorem settleSeg_told (k pass seg) (s : State) : Told s (settleSeg k pass seg s) := by
  unfold settleSeg
  split
  · exact .refl s
  · extract_lets st v w
    have hv : Told s v := (hostPut_enz ..).told
    have hw : Told s w := hv.trans (.of rfl)
    exact .ite (.refl s) ((hw.trans (recordSeg_told ..)).trans (landAudit_told ..))

theorem closeSeg_told (k pass seg) (s : State) : Told s (closeSeg k pass seg s) := by
  unfold closeSeg
  split
  · exact .refl s
  · extract_lets v spent
    exact .ite (settleSeg_told ..) (((modRun_told ..).trans (.foldl (fun _ _ => endShare_told ..) ..)).trans (settleSeg_told ..))

theorem chunkFailed_told (k pass seg c o st) (s : State) : Told s (chunkFailed k pass seg c o st s) := by
  unfold chunkFailed
  split
  · exact .refl s
  · split
    · exact .refl s
    · exact .ite ((endShare_told ..).trans (closeSeg_told ..)) (.ite (.refl s) ((modRun_told ..).trans (closeSeg_told ..)))

theorem streamLosses_told (s : State) : Told s (streamLosses s) := by
  unfold streamLosses
  refine Told.trans (t := { s with core.lost := [] }) (.of rfl) (.foldl (fun u x => ?_) ..)
  split
  · exact chunkFailed_told ..
  · exact .refl u

theorem streamLinkLost_told (o) (s : State) : Told s (streamLinkLost o s) :=
  .foldl (fun _ _ => .foldl (fun u _ => .ite ((endShare_told ..).trans (closeSeg_told ..)) (.refl u)) ..) ..

/-! ### The tick, and nodes that are lost -/

theorem tickLinkLost_told (l) (s : State) : Told s (tickLinkLost l s) := by
  unfold tickLinkLost
  extract_lets v
  have hv : Told s v := .of rfl
  refine .ite hv ?_
  split
  · split
    · exact hv.trans (.of rfl)
    · exact hv.trans (.ite (.of rfl) (.of rfl))
  · exact hv.trans (.of rfl)

/-- The sweep over one link to a lost node. -/
def sweepLink (n : BitVec 12) (r : Nat × Bool × State) (l : LinkId) : Nat × Bool × State :=
  let k := link r.2.2 l
  let ps := sweepPairs k
  (r.1 + ps.length, r.2.1 || k.crossOld.overflow || k.crossNew.overflow,
    ps.foldl (fun s c => inject (linkPort l) (sweepFail (myNode s) n c) (countFail (linkPort l) s)) r.2.2)

theorem sweepLink_told (n r l) : Told r.2.2 (sweepLink n r l).2.2 :=
  Told.foldl (fun s c => (inject_told (linkPort l) (sweepFail (myNode s) n c) (countFail (linkPort l) s)).after rfl) _ _

theorem sweepLinks_told (n) : ∀ (ls : List LinkId) (r), Told r.2.2 (ls.foldl (sweepLink n) r).2.2
  | [], _ => .refl _
  | l :: ls, r => (sweepLink_told n r l).trans (sweepLinks_told n ls (sweepLink n r l))

theorem sweepNode_told (n) (s : State) : Told s (sweepNode n s).2.2 := sweepLinks_told n _ (0, false, s)

end

end Machine
end Sys2Proof
end

section
/-!
PROOF. Link failures, lost nodes, route notices, crossing windows and the fault log (R738 to R748, R291, R292, R756).
-/
namespace Sys2Proof
namespace Machine
set_option Elab.async false

section
variable {s t u : State} {l m : LinkId}

/-! ### A link that has failed stays failed -/

/-- The link is out of service for good. -/
def LinkDown (k : Link) : Prop := k.up = false ∧ k.failed = true ∧ k.failAt = none

/-- A failed link stays failed and its notice sent, and no event told is taken back. -/
structure FailKept (l : LinkId) (s t : State) : Prop where
  events : ∀ e ∈ s.counts.sideband, e ∈ t.counts.sideband
  down : LinkDown (link s l) → LinkDown (link t l)
  noticed : LinkDown (link s l) → (link s l).noticed = true → (link t l).noticed = true

theorem FailKept.trans (h : FailKept l s t) (k : FailKept l t u) : FailKept l s u :=
  ⟨fun e he => k.events e (h.events e he), fun hd => k.down (h.down hd), fun hd hn => k.noticed (h.down hd) (h.noticed hd hn)⟩

theorem FailKept.of_link (h : link t l = link s l) (he : ∀ e ∈ s.counts.sideband, e ∈ t.counts.sideband) : FailKept l s t :=
  ⟨he, fun hd => h ▸ hd, fun _ hn => h ▸ hn⟩

theorem RoutesKept.fail (h : RoutesKept s t) (l) : FailKept l s t := .of_link (by rw [link, h.links, link]) h.events

theorem FailKept.same (h : told t = told s) : FailKept l s t := (Told.of h).fail l

theorem FailKept.refl (l) (s : State) : FailKept l s s := .of_link (Eq.refl _) fun _ => id

theorem FailKept.foldl {α : Type} {f : State → α → State} (h : ∀ s x, FailKept l s (f s x)) : ∀ (xs : List α) (s : State), FailKept l s (xs.foldl f s)
  | [], s => .refl l s
  | x :: xs, s => (h s x).trans (foldl h xs (f s x))

theorem link_setLink_other (h : m ≠ l) (v : Link) : link (setLink s l v) m = link s m :=
  tblGet_tblSet_ne ({} : Link) s.links l.val m.val v fun he => h (Fin.ext he)

/-- A change of a link that neither brings it back nor forgets its notice. -/
theorem modLink_fail {f : Link → Link} (hf : ∀ k, LinkDown k → LinkDown (f k) ∧ (k.noticed = true → (f k).noticed = true)) (l m) (s : State) :
    FailKept l s (modLink m f s) := by
  by_cases hm : l = m
  · subst hm
    have hlink : LinkDown (link s l) → link (modLink l f s) l = f (link s l) := fun hd =>
      link_setLink_of_ne (ne_of_apply_ne Link.failed (by rw [(hf _ hd).1.2.1]; decide))
    exact ⟨fun _ => id, fun hd => by rw [hlink hd]; exact (hf _ hd).1, fun hd hn => by rw [hlink hd]; exact (hf _ hd).2 hn⟩
  · exact .of_link (link_setLink_other hm _) fun _ => id

theorem rxFree_fail (l m q n) (s : State) : FailKept l s (rxFree m q n s) := modLink_fail (f := fun k => { k with part := tblMod {} k.part q.val (fun p => { p with occ := p.occ - n, pend := p.pend + n }) })
    (fun _ hd => ⟨hd, id⟩) l m s

theorem freeUnits_fail (l i q n) (s : State) : FailKept l s (freeUnits i q n s) := by
  unfold freeUnits
  extract_lets u
  have hu : FailKept l s u := .same rfl
  split
  · split
    · exact hu
    · exact hu.trans (rxFree_fail ..)
  · exact hu.trans ((admitEntering_told ..).fail l)

theorem dropInput_fail (l o i) (s : State) : FailKept l s (dropInput o i s) := by
  unfold dropInput
  extract_lets q mine seq u
  have hu : FailKept l s u := .same rfl
  clear_value u
  split
  · exact .refl l s
  · refine (hu.trans (.foldl (fun v e => ?_) ..)).trans ((trimBlocks_told ..).fail l)
    extract_lets w x cs y
    have hw : FailKept l v w := by
      dsimp only [w]
      split
      · exact ((sendFail_told ..).trans (loseRef_told ..)).fail l
      · exact .refl l v
    have hx : FailKept l w x := by
      dsimp only [x]
      split
      · exact .refl l w
      · exact (freeCredits_told ..).fail l
    have hy : FailKept l x y := .same rfl
    exact ((hw.trans hx).trans hy).trans (freeUnits_fail ..)

theorem dropContribs_fail (l i) (s : State) : FailKept l s (dropContribs i s) := by
  refine .foldl (fun v e => ?_) _ s
  extract_lets pairs
  have hv : FailKept l v (modIn i (fun q => { q with queue := q.queue.filter (fun x => x.uid ≠ e.uid) }) { v with counts.pairs := pairs }) :=
    .same rfl
  exact (hv.trans (freeUnits_fail ..)).trans ((sendFail_told ..).fail l)

theorem dropLinkPackets_fail (l m) (s : State) : FailKept l s (dropLinkPackets m s) := by
  unfold dropLinkPackets
  extract_lets o going held s1 s2 s3 s4 tm s5
  have h1 : FailKept l s s1 := .foldl (fun v q => (dropStarted_told o v q).fail l) ..
  have h2 : FailKept l s1 s2 := .foldl (fun v q => by
    extract_lets w
    have hw : Told v w := .of rfl
    exact (hw.trans (creditsBack_told ..)).fail l) ..
  have h3 : FailKept l s2 s3 := .foldl (fun v x => (discardAt_told o x stLinkLost v).fail l) ..
  have h4 : FailKept l s3 s4 := .foldl (fun v p => (sendFail_told o stLinkLost p v).fail l) ..
  have h5 : FailKept l s4 s5 := .same rfl
  clear_value s1 s2 s3 s4 s5
  have h6 : FailKept l s5 (allPorts.foldl (fun s i => dropInput o i s) s5) := .foldl (fun v i => dropInput_fail l o i v) ..
  have h7 : ∀ v : State, FailKept l v (forgetDead o v) := fun _ => .same rfl
  exact ((((h1.trans h2).trans h3).trans h4).trans h5).trans (h6.trans (h7 _))

theorem lanesToDetect_fail (l m) (s : State) : FailKept l s (lanesToDetect m s) := by
  have hlanes : FailKept l s (modLanes m (backToDetect m s) s) := by
    rw [modLanes_eq]
    exact .same rfl
  have hlink := modLink_fail (f := trainingCleared) (fun k hd => ⟨hd, id⟩) l m (modLanes m (backToDetect m s) s)
  exact hlanes.trans hlink

/-! ### Lost nodes (R739, R746) -/

theorem loseNode_eq (s : State) (n) : ∃ u : State, ∃ k, Told s u ∧
    loseNode s n = raiseEv 0x12 n.toNat k 0 { u with route.lostNodes := u.route.lostNodes ++ [n] } := by
  unfold loseNode
  extract_lets own
  cases own
  case none => exact ⟨s, _, .refl s, rfl⟩
  case some l => exact ⟨(sweepNode n s).2.2, _, sweepNode_told n s, rfl⟩

theorem loseNode_routes (s : State) (n) : RoutesKept s (loseNode s n) := by
  obtain ⟨u, k, hu, he⟩ := loseNode_eq s n
  rw [he]
  have hlost : RoutesKept u { u with route.lostNodes := u.route.lostNodes ++ [n] } := ⟨rfl, fun _ => id, rfl, rfl⟩
  exact (hu.toRoutesKept.trans hlost).trans (raiseEv_told ..).toRoutesKept

theorem loseNode_lost (s : State) (n) : (loseNode s n).route.lostNodes = s.route.lostNodes ++ [n]
    ∧ ∃ e ∈ (loseNode s n).counts.sideband, e.code = 0x12 ∧ e.unit = BitVec.ofNat 16 n.toNat := by
  obtain ⟨u, k, hu, he⟩ := loseNode_eq s n
  rw [he]
  refine ⟨(raiseEv_told ..).lost.trans (congrArg (· ++ [n]) hu.lost), ?_⟩
  rw [raiseEv_sideband]
  exact ⟨_, List.mem_append_right _ (List.mem_singleton_self _), rfl, rfl⟩

theorem nodeCheck_routes (s : State) : RoutesKept s (nodeCheck s) := by
  unfold nodeCheck
  extract_lets back r w gone r' x
  have hw : RoutesKept s w := RoutesKept.trans (t := { s with route.lostNodes := s.route.lostNodes.filter (fun n => !back.contains n) })
    ⟨rfl, fun _ => id, rfl, rfl⟩ (.foldl (fun y n => (raiseEv_told ..).toRoutesKept) ..)
  have hx : RoutesKept w x := ⟨rfl, fun _ => id, rfl, rfl⟩
  clear_value w x
  have hall := hw.trans hx
  split
  · exact hall
  · exact hall.trans ((RoutesKept.foldl loseNode_routes ..).trans (collLosses_told ..).toRoutesKept)

theorem nodesAfter_routes (s : State) : RoutesKept s (nodesAfter s) := by
  unfold nodesAfter
  split
  · exact (Told.refl s).toRoutesKept
  · exact nodeCheck_routes s

theorem nodesAfter_waits (h : (∃ l, failDue s l = true) ∨ noticeDue s = true) : nodesAfter s = s := by
  refine if_pos ?_
  rw [Bool.or_eq_true, List.any_eq_true]
  rcases h with ⟨l, hl⟩ | h
  · exact .inl ⟨l, List.mem_finRange l, hl⟩
  · exact .inr h

theorem nodesAfter_checks (h : ∀ l, failDue s l = false) (hn : noticeDue s = false) : nodesAfter s = nodeCheck s :=
  if_neg (by simp [h, hn])

/-! ### A link is declared failed (R738 to R743) -/

/-- The link as it leaves service (R287). -/
def linkFallen (k : Link) : Link := { k with up := false, nego := false, failed := true, failAt := none }

/-- The failed link with its queues and keys empty and its notice sent. -/
def linkCleared (k : Link) : Link :=
  { k with replay := [], part := [], tx := none, rxPkt := [], replayFrom := none, again := [], ctl := [], room := 0, keyTx := [], keyRx := [],
           replays := 0, retrain := false, resync := 0, capSeq := none, cap := none, keyed := false, offer := none, noticed := true }

/-- The event that a declaration raises. -/
def linkTold (l : LinkId) (cause : BitVec 8) (s : State) : State :=
  raiseEv 0x10 l.val (cause.toNat + (link s l).peer.toNat <<< 8 + laneCount (link s l).lanes <<< 20) (fnGen s (.port l)) (bumpPort (linkPort l) 202 s)

/-- The packets of the link end. -/
def linkEmptied (l : LinkId) (k : Link) (order : List (PortId × Nat × Packet × Ref)) (s : State) : State :=
  dropArriving l k (dropContribs (linkPort l) (order.foldl (dropOrdered (linkPort l)) (dropLinkPackets l s)))

/-- What depends on the link is told of its failure. -/
def linkNoticed (l : LinkId) (s : State) : State :=
  lanesToDetect l (streamLosses (streamLinkLost (linkPort l) (collLosses (tickLinkLost l (sendNotice false l s)))))

theorem declareLink_eq (l c) (s : State) : declareLink l c s = linkNoticed l (modLink l linkCleared
    (linkEmptied l (link s l) (orderedWaiting (linkTold l c s) (linkPort l)) (setLink (linkTold l c s) l (linkFallen (link s l))))) := rfl

theorem linkEmptied_fail (l k order) (s : State) : FailKept l s (linkEmptied l k order s) :=
  ((dropLinkPackets_fail l l s).trans (.foldl (fun v x => (dropOrdered_told (linkPort l) v x).fail l) order _)).trans
    ((dropContribs_fail l (linkPort l) _).trans ((dropArriving_told l k _).fail l))

theorem linkNoticed_fail (l) (s : State) : FailKept l s (linkNoticed l s) :=
  (((((sendNotice_told false l s).trans (tickLinkLost_told l _)).trans (collLosses_told _)).trans
    ((streamLinkLost_told (linkPort l) _).trans (streamLosses_told _))).fail l).trans (lanesToDetect_fail l l _)

theorem linkTold_told (l c) (s : State) : Told s (linkTold l c s)
    ∧ ∃ e ∈ (linkTold l c s).counts.sideband, e.code = 0x10 ∧ e.unit = BitVec.ofNat 16 l.val ∧ e.gen = fnGen s (.port l)
      ∧ e.detail = BitVec.ofNat 128 (c.toNat + (link s l).peer.toNat <<< 8 + laneCount (link s l).lanes <<< 20) := by
  refine ⟨(raiseEv_told ..).after rfl, ?_⟩
  rw [linkTold, raiseEv_sideband]
  exact ⟨_, List.mem_append_right _ (List.mem_singleton_self _), rfl, rfl, rfl, rfl⟩

/-- A declaration leaves the link failed, its notice sent and its event told. -/
theorem declareLink_fails (l c) (s : State) : LinkDown (link (declareLink l c s) l) ∧ (link (declareLink l c s) l).noticed = true
    ∧ ∃ e ∈ (declareLink l c s).counts.sideband, e.code = 0x10 ∧ e.unit = BitVec.ofNat 16 l.val ∧ e.gen = fnGen s (.port l)
      ∧ e.detail = BitVec.ofNat 128 (c.toNat + (link s l).peer.toNat <<< 8 + laneCount (link s l).lanes <<< 20) := by
  obtain ⟨-, e, he, hevent⟩ := linkTold_told l c s
  rw [declareLink_eq]
  generalize orderedWaiting (linkTold l c s) (linkPort l) = order
  generalize linkTold l c s = u at he
  have hfallen : link (setLink u l (linkFallen (link s l))) l = linkFallen (link s l) :=
    link_setLink_of_ne (ne_of_apply_ne Link.failed (by simp [linkFallen]))
  have hdown : LinkDown (link (setLink u l (linkFallen (link s l))) l) := by
    rw [hfallen]
    exact ⟨rfl, rfl, rfl⟩
  have hempty := linkEmptied_fail l (link s l) order (setLink u l (linkFallen (link s l)))
  have hev := hempty.events e he
  have hdown := hempty.down hdown
  generalize linkEmptied l (link s l) order (setLink u l (linkFallen (link s l))) = v at hev hdown
  have hclear : link (modLink l linkCleared v) l = linkCleared (link v l) :=
    link_setLink_of_ne (ne_of_apply_ne Link.noticed (by simp [linkCleared]))
  have hdown' : LinkDown (link (modLink l linkCleared v) l) := by
    rw [hclear]
    exact hdown
  have hlast := linkNoticed_fail l (modLink l linkCleared v)
  exact ⟨hlast.down hdown', hlast.noticed hdown' (by rw [hclear]; rfl), e, hlast.events e hev, hevent⟩

theorem exec_linkFailureDeclare {c : BitVec 8} {b : BitVec 48} (h : (link s l).failAt = some (c, b)) :
    exec (.linkFailureDeclare l) s = .next (if atStep 3 s && reached s b then nodesAfter (if (link s l).up then declareLink l c (setPhase 3 s)
      else lanesToDetect l (modLink l (fun k => { k with nego := false, failAt := none }) (setPhase 3 s))) else s) := by
  change execLinkFailureDeclare l s = _
  rw [execLinkFailureDeclare, h, apply_ite Host.Outcome.next] <;> rfl

theorem linkFailureDeclare_none (h : (link s l).failAt = none) : NoEffect (.linkFailureDeclare l) s := by
  change execLinkFailureDeclare l s = _
  rw [execLinkFailureDeclare, h]

theorem atStep_false {n : Nat} (h : s.tick.slot ≠ 0 ∨ n < s.tick.phase) : atStep n s = false := by
  rcases h with h | h
  · simp [atStep, h]
  · simp [atStep, Nat.not_le.mpr h]

theorem linkFailureDeclare_fails {c : BitVec 8} {b : BitVec 48} (h : (link s l).failAt = some (c, b)) (hs : atStep 3 s = true)
    (hr : reached s b = true) (hup : (link s l).up = true) :
    Completes (.linkFailureDeclare l) s fun t => (link t l).up = false ∧ (link t l).failed = true
      ∧ (link t l).failAt = none ∧ (link t l).noticed = true
      ∧ (∃ e ∈ t.counts.sideband, e.code = 0x10 ∧ e.unit = BitVec.ofNat 16 l.val ∧ e.gen = fnGen s (.port l)
          ∧ e.detail = BitVec.ofNat 128 (c.toNat + (link s l).peer.toNat <<< 8 + laneCount (link s l).lanes <<< 20)) := by
  obtain ⟨hdown, hnoticed, e, he, hevent⟩ := declareLink_fails l c (setPhase 3 s)
  have hafter := (nodesAfter_routes (declareLink l c (setPhase 3 s))).fail l
  obtain ⟨h1, h2, h3⟩ := hafter.down hdown
  refine ⟨nodesAfter (declareLink l c (setPhase 3 s)), ?_, h1, h2, h3, hafter.noticed hdown hnoticed, e, hafter.events e he, hevent⟩
  rw [exec_linkFailureDeclare h, hs, hr, if_pos hup]
  exact congrArg Host.Outcome.next (if_pos (Eq.refl true))

end

end Machine
end Sys2Proof
end

section
/-!
PROOF. Sweeps, route notices, crossing windows and the fault log; settles the obligation of chapter 22's failures (R741 to R746, R756).
-/
namespace Sys2Proof
namespace Machine
set_option Elab.async false

section
variable {s t : State} {l : LinkId} {n : Notice} {p : Packet} {d : DRef} {f : InFlight}

/-! ### Sweeps (R746) -/

theorem mem_distinct {α : Type} [DecidableEq α] {x : α} : ∀ {xs : List α}, x ∈ distinct xs ↔ x ∈ xs
  | [] => Iff.rfl
  | y :: xs => by
    rw [distinct]
    split
    next h =>
      rw [mem_distinct, List.mem_cons]
      rw [List.contains_iff_mem] at h
      exact ⟨.inr, fun hx => hx.elim (fun he => he ▸ h) id⟩
    next => rw [List.mem_cons, mem_distinct, List.mem_cons]

theorem mem_anyOwners {c : CrossPair} {ps : List CrossPair} :
    c ∈ (distinct (ps.map (·.owner))).map (fun n => ({ owner := n, any := true } : CrossPair))
      ↔ c.any = true ∧ c.group = false ∧ c.other = 0 ∧ ∃ x ∈ ps, x.owner = c.owner := by
  simp only [List.mem_map, mem_distinct]
  constructor
  · rintro ⟨_, ⟨x, hx, rfl⟩, rfl⟩
    exact ⟨rfl, rfl, rfl, x, hx, rfl⟩
  · rintro ⟨h1, h2, h3, x, hx, h4⟩
    obtain ⟨owner, other, group, any⟩ := c
    dsimp only at h1 h2 h3 h4
    exact ⟨owner, ⟨x, hx, h4⟩, by rw [h1, h2, h3]⟩

theorem mem_sweepPairs_exact {k : Link} (h1 : k.crossOld.overflow = false) (h2 : k.crossNew.overflow = false) (c) :
    c ∈ sweepPairs k ↔ c ∈ k.crossOld.pairs ∨ c ∈ k.crossNew.pairs := by
  simp [sweepPairs, mem_distinct, h1, h2]

theorem mem_sweepPairs_any {k : Link} (h1 : k.crossOld.overflow = true) (h2 : k.crossNew.overflow = true) (c) :
    c ∈ sweepPairs k ↔ c.any = true ∧ c.group = false ∧ c.other = 0
      ∧ ((∃ x ∈ k.crossOld.pairs, x.owner = c.owner) ∨ ∃ x ∈ k.crossNew.pairs, x.owner = c.owner) := by
  unfold sweepPairs
  dsimp only
  rw [mem_distinct, h1, h2, if_pos rfl, if_pos rfl, List.mem_append, mem_anyOwners, mem_anyOwners]
  simp only [and_or_left]

/-- The tag of a sweep FAIL names the counterpart and whether it is a group (Table 22-5). -/
theorem sweepTag_eq (n : BitVec 12) (g : Bool) :
    BitVec.ofNat 16 (n.toNat + g.toNat * 2 ^ 12) = n.setWidth 16 ||| BitVec.ofNat 16 (g.toNat <<< 12) := by
  have hn := n.isLt
  have hor := Nat.two_pow_add_eq_or_of_lt hn g.toNat
  have hg : g.toNat < 2 := Bool.toNat_lt g
  apply BitVec.eq_of_toNat_eq
  rw [BitVec.toNat_or, BitVec.toNat_ofNat, BitVec.toNat_ofNat, BitVec.toNat_setWidth, Nat.shiftLeft_eq, Nat.mod_eq_of_lt (by omega),
    Nat.mod_eq_of_lt (by omega), Nat.mod_eq_of_lt (by omega), Nat.or_comm, Nat.mul_comm g.toNat, ← hor]
  omega

theorem sweepAddr_eq (n : BitVec 12) : globalAddr n 0 = n.setWidth 64 <<< 52 := by
  have hn := n.isLt
  apply BitVec.eq_of_toNat_eq
  simp only [globalAddr, Nat.zero_mod, Nat.add_zero, BitVec.toNat_ofNat, BitVec.toNat_shiftLeft, BitVec.toNat_setWidth]
  rw [Nat.mod_eq_of_lt (a := n.toNat) (by omega)]

theorem sweepFail_fields (me lost : BitVec 12) (c : CrossPair) : let p := sweepFail me lost c
    p.opcode = 0x8F ∧ p.vc = 1 ∧ p.dst = c.owner ∧ p.src = me ∧ p.tenant = 0 ∧ p.status = stNodeLost ∧ p.itemLen = 0xFFFFFFFF
      ∧ p.payLen = 0 ∧ p.payload = [] ∧ p.addr = lost.setWidth 64 <<< 52
      ∧ p.tag = if c.any then (0x2000 : BitVec 16) else c.other.setWidth 16 ||| BitVec.ofNat 16 (c.group.toNat <<< 12) := by
  refine ⟨rfl, rfl, rfl, rfl, rfl, rfl, rfl, rfl, rfl, sweepAddr_eq lost, ?_⟩
  change BitVec.ofNat 16 (if c.any then 2 ^ 13 else c.other.toNat + c.group.toNat * 2 ^ 12) = _
  cases c.any
  · exact sweepTag_eq ..
  · rfl

/-! ### Route notices (R291, R292, R741) -/

theorem applyNotice_down (hup : n.up = false) (hex : (n.peer, n.reporter) ∉ s.route.excl) : applyNotice s n =
    if 1024 ≤ s.route.excl.length then raiseEv 0x1D n.reporter.toNat (0x10 + n.link.toNat <<< 8 + n.peer.toNat <<< 16) 0
        { s with route.unapplied := s.route.unapplied + 1 }
      else { s with route.excl := s.route.excl ++ [(n.peer, n.reporter)] } := by
  refine (if_neg (by simp [hup])).trans (if_neg ?_)
  rw [List.contains_iff_mem]
  exact hex

theorem applyNotice_up (hup : n.up = true) :
    applyNotice s n = { s with route.excl := s.route.excl.filter (· ≠ (n.peer, n.reporter)) } := if_pos hup

/-- The notices that are due apply at step 3, and the others stay. -/
def noticesTaken (s : State) : State :=
  (s.route.notices.filter (fun n => reached s n.due)).foldl applyNotice
    (setPhase 3 { s with route.notices := s.route.notices.filter (fun n => !reached s n.due) })

theorem exec_routeNoticeApply (s : State) : exec .routeNoticeApply s = .next (
    if atStep 3 s && noticeDue s then nodesAfter (noticesTaken s) else s) := rfl

theorem exec_routeNoticeApply_due (hs : atStep 3 s = true) (hd : noticeDue s = true) :
    exec .routeNoticeApply s = .next (nodesAfter (noticesTaken s)) := by
  rw [exec_routeNoticeApply, hs, hd]
  exact congrArg Host.Outcome.next (if_pos (Eq.refl true))

/-- The state with no notice waiting. -/
def noticesEmpty (s : State) : State := setPhase 3 { s with route.notices := [] }

theorem noticesTaken_one (h : s.route.notices = [n]) (hr : reached s n.due = true) : noticesTaken s = applyNotice (noticesEmpty s) n := by
  have hnow : s.route.notices.filter (fun n => reached s n.due) = [n] := by simp [h, hr]
  have hlater : s.route.notices.filter (fun n => !reached s n.due) = [] := by simp [h, hr]
  rw [noticesTaken, hnow, hlater]
  rfl

theorem noticeDue_one (h : s.route.notices = [n]) (hr : reached s n.due = true) : noticeDue s = true := by simp [noticeDue, h, hr]

theorem routeNotice_excludes (h : s.route.notices = [n]) (hs : atStep 3 s = true) (hr : reached s n.due = true) (hup : n.up = false)
    (hex : (n.peer, n.reporter) ∉ s.route.excl) (hlen : s.route.excl.length < 1024) :
    Completes .routeNoticeApply s fun t => t.route.excl = s.route.excl ++ [(n.peer, n.reporter)] ∧ t.route.notices = [] := by
  refine ⟨_, exec_routeNoticeApply_due hs (noticeDue_one h hr), ?_⟩
  have hkept := nodesAfter_routes (noticesTaken s)
  have htaken : noticesTaken s = { noticesEmpty s with route.excl := s.route.excl ++ [(n.peer, n.reporter)] } := by
    rw [noticesTaken_one h hr, applyNotice_down (s := noticesEmpty s) hup hex]
    exact if_neg (Nat.not_le.mpr hlen)
  exact ⟨hkept.excl.trans (by rw [htaken]), hkept.notices.trans (by rw [htaken]; rfl)⟩

theorem routeNotice_readmits (h : s.route.notices = [n]) (hs : atStep 3 s = true) (hr : reached s n.due = true) (hup : n.up = true) :
    Completes .routeNoticeApply s fun t => (n.peer, n.reporter) ∉ t.route.excl ∧ t.route.notices = []
      ∧ (∀ e ∈ s.route.excl, e ≠ (n.peer, n.reporter) → e ∈ t.route.excl) := by
  refine ⟨_, exec_routeNoticeApply_due hs (noticeDue_one h hr), ?_⟩
  have hkept := nodesAfter_routes (noticesTaken s)
  have htaken : noticesTaken s = { noticesEmpty s with route.excl := s.route.excl.filter (· ≠ (n.peer, n.reporter)) } := by
    rw [noticesTaken_one h hr, applyNotice_up hup]
    rfl
  have hexcl : (nodesAfter (noticesTaken s)).route.excl = s.route.excl.filter (· ≠ (n.peer, n.reporter)) := hkept.excl.trans (by rw [htaken])
  exact ⟨by rw [hexcl]; simp, hkept.notices.trans (by rw [htaken]; rfl), fun e he hne => by rw [hexcl]; simp [he, hne]⟩

/-- The notice that a MGMT packet carries (Table 8-3). -/
def noticeOf (p : Packet) (s : State) : Notice :=
  { up := bitsOf (leAt p.payload 0 8) 0 8 = 0x11, link := BitVec.ofNat 8 (bitsOf (leAt p.payload 0 8) 8 8),
    reporter := BitVec.ofNat 12 (bitsOf (leAt p.payload 0 8) 16 12), peer := BitVec.ofNat 12 (bitsOf (leAt p.payload 0 8) 32 12),
    due := s.tick.elapsed + 1 }

theorem exec_mgmtPkt (h : p.opcode = 0x50) (s : State) : exec (.mgmtPkt p) s = .next (takeNotice p (takeDelivered p s)) :=
  congrArg Host.Outcome.next (if_pos h)

theorem mgmtPkt_arrives (h : p.opcode = 0x50) (hlen : p.payload.length = 16)
    (hkind : bitsOf (leAt p.payload 0 8) 0 8 = 0x10 ∨ bitsOf (leAt p.payload 0 8) 0 8 = 0x11) :
    Completes (.mgmtPkt p) s fun t => (∃ n, t.route.notices = s.route.notices ++ [n]
        ∧ n.up = decide (bitsOf (leAt p.payload 0 8) 0 8 = 0x11) ∧ n.due = s.tick.elapsed + 1
        ∧ n.reporter = BitVec.ofNat 12 (bitsOf (leAt p.payload 0 8) 16 12)
        ∧ n.peer = BitVec.ofNat 12 (bitsOf (leAt p.payload 0 8) 32 12))
      ∧ t.route.excl = s.route.excl ∧ t = { s with core := t.core, route := t.route } := by
  obtain ⟨c, hc⟩ : ∃ c, takeDelivered p s = { s with core := c } := by
    unfold takeDelivered
    split
    · exact ⟨_, rfl⟩
    · exact ⟨_, rfl⟩
  have htake : takeNotice p { s with core := c } = { s with core := c, route.notices := s.route.notices ++ [noticeOf p s] } :=
    if_pos (by rcases hkind with hk | hk <;> simp [hlen, hk])
  rw [Completes, exec_mgmtPkt h, hc, htake]
  exact ⟨_, rfl, ⟨noticeOf p s, rfl, rfl, rfl, rfl, rfl⟩, rfl, rfl⟩

theorem mgmtPkt_malformed (h : p.opcode = 0x50) (hlen : p.payload.length ≠ 16) : exec (.mgmtPkt p) s = .next (takeDelivered p s) :=
  (exec_mgmtPkt h s).trans (congrArg Host.Outcome.next (if_neg (by simp [hlen])))

/-! ### Crossing windows (R745) -/

/-- The link with its newer window closed and another opened. -/
def windowRolled (s : State) (k : Link) : Link := { k with crossOld := k.crossNew, crossNew := { opened := s.tick.elapsed } }

theorem exec_crossingWindowRoll (l) (s : State) : exec (.crossingWindowRoll l) s = .next (
    if s.tick.slot = 0 && (link s l).up && (link s l).vexlor && decide (ageLimit s + 2 ≤ ageOf s (link s l).crossNew.opened) then
      setLink s l (windowRolled s (link s l)) else s) := rfl

theorem crossingWindow_rolls (h1 : s.tick.slot = 0) (h2 : (link s l).up = true) (h3 : (link s l).vexlor = true)
    (h4 : ageLimit s + 2 ≤ ageOf s (link s l).crossNew.opened) :
    Completes (.crossingWindowRoll l) s fun t => link t l = { link s l with
        crossOld := (link s l).crossNew, crossNew := { opened := s.tick.elapsed } }
      ∧ (∀ j, j ≠ l → link t j = link s j) ∧ t = { s with links := t.links } := by
  refine ⟨setLink s l (windowRolled s (link s l)), ?_, link_setLink_of_up h2, fun j hj => link_setLink_other hj _, rfl⟩
  rw [exec_crossingWindowRoll, if_pos (by simp [h1, h2, h3, h4])]

/-! ### The fault log (R756) -/

/-- FAULT_LOG_READ is admitted: for the module, of 1 to 1,024 entries, to an aligned address (Table 3-4, log 75). -/
def LogReadOk (f : InFlight) : Prop := dTarget f.desc = 0xFFFF ∧ 0 < fld f.desc 288 11 ∧ fld f.desc 288 11 ≤ 1024 ∧ fld f.desc 192 5 = 0

/-- The oldest entry that the log holds. -/
def logOldest (s : State) : BitVec 32 := s.counts.logNext - BitVec.ofNat 32 s.counts.log.length

/-- The first entry wanted. -/
def logFirst (f : InFlight) : BitVec 32 := BitVec.ofNat 32 (fld f.desc 256 32)

/-- The entry after the wanted one in the log, as the index of the copy's first. -/
def logFrom (f : InFlight) (s : State) : Nat :=
  if (logFirst f - logOldest s).toNat < 2 ^ 31 then (logFirst f - logOldest s).toNat else 0

/-- The entries copied. -/
def logCopied (f : InFlight) (s : State) : List Event :=
  (s.counts.log.drop (logFrom f s)).take (fld f.desc 288 11 - if (logFirst f - logOldest s).toNat < 2 ^ 31 then 0
    else min (fld f.desc 288 11) (logOldest s - logFirst f).toNat)

/-- The descriptor completes with a free value (log 75). -/
def logNone (d : DRef) (u : State) : State :=
  complete d stOk (((Config.freeValue u.free).setWidth 32).setWidth 64) { u with free := u.free + 1 }

theorem faultLogRead_ok (h : LogReadOk f) (s : State) : faultLogRead d f s =
    let es := logCopied f s
    let u := hostPut (dWord f.desc 24) (es.flatMap (eventBytes false)) s
    if es.isEmpty then logNone d u
    else complete d stOk ((logOldest s + BitVec.ofNat 32 (logFrom f s)).setWidth 64 ||| BitVec.ofNat 64 (es.length <<< 32)) u := by
  obtain ⟨h1, h2, h3, h4⟩ := h
  refine (if_neg ?_).trans rfl
  simp only [h1, h4, Bool.or_eq_true, decide_eq_true_eq, ne_eq, not_true, decide_false, Bool.false_eq_true, false_or, or_false]
  omega

theorem exec_faultLogRead (hs : Startable s d 0x0B f) : exec (.faultLogRead d) s = .next (faultLogRead d f (started d s)) :=
  congrArg Host.Outcome.next (withDesc_of_startable hs _)

theorem faultLogRead_bad (hs : Startable s d 0x0B f)
    (h : dTarget f.desc ≠ 0xFFFF ∨ fld f.desc 288 11 = 0 ∨ 1024 < fld f.desc 288 11 ∨ fld f.desc 192 5 ≠ 0) :
    exec (.faultLogRead d) s = .next (complete d stBad 0 (started d s)) := by
  rw [exec_faultLogRead hs]
  exact congrArg Host.Outcome.next (if_pos (by simpa only [Bool.or_eq_true, decide_eq_true_eq, or_assoc] using h))

/-- The log holds some of the entries wanted. -/
theorem faultLogRead_copies (hs : Startable s d 0x0B f) (h : LogReadOk f) (hne : logCopied f s ≠ []) : exec (.faultLogRead d) s = .next
    (complete d stOk ((logOldest s + BitVec.ofNat 32 (logFrom f s)).setWidth 64 ||| BitVec.ofNat 64 ((logCopied f s).length <<< 32))
      (hostPut (dWord f.desc 24) ((logCopied f s).flatMap (eventBytes false)) (started d s))) := by
  rw [exec_faultLogRead hs, faultLogRead_ok h]
  have hcopied : logCopied f (started d s) = logCopied f s := rfl
  exact congrArg Host.Outcome.next (if_neg (by rw [hcopied]; simpa using hne))

/-- With none copied, no entry is first: the result is a free value (log 75). -/
theorem faultLogRead_empty (hs : Startable s d 0x0B f) (h : LogReadOk f) (he : logCopied f s = []) : exec (.faultLogRead d) s = .next
    (complete d stOk (((Config.freeValue s.free).setWidth 32).setWidth 64)
      { hostPut (dWord f.desc 24) [] (started d s) with free := s.free + 1 }) := by
  have hcopied : logCopied f (started d s) = [] := he
  obtain ⟨x, hx⟩ := hostPut_enz (dWord f.desc 24) [] (started d s)
  have hfree : (hostPut (dWord f.desc 24) [] (started d s)).free = s.free := by
    rw [hx]
    rfl
  rw [exec_faultLogRead hs, faultLogRead_ok h, hcopied]
  refine congrArg Host.Outcome.next ((if_pos (Eq.refl true)).trans ?_)
  rw [List.flatMap_nil, logNone, hfree]

/-- The first entry wanted is not older than the log's oldest. -/
theorem logCopied_late (h : (logFirst f - logOldest s).toNat < 2 ^ 31) :
    logCopied f s = (s.counts.log.drop (logFirst f - logOldest s).toNat).take (fld f.desc 288 11) := by
  rw [logCopied, logFrom, if_pos h, if_pos h, Nat.sub_zero]

/-- The first entry wanted is older than the log's oldest. -/
theorem logCopied_early (h : 2 ^ 31 ≤ (logFirst f - logOldest s).toNat) :
    logCopied f s = s.counts.log.take (fld f.desc 288 11 - min (fld f.desc 288 11) (logOldest s - logFirst f).toNat) := by
  rw [logCopied, logFrom, if_neg (Nat.not_lt.mpr h), if_neg (Nat.not_lt.mpr h), List.drop_zero]

theorem faultLogRead_late (hs : Startable s d 0x0B f) (h : LogReadOk f) (hin : (logFirst f - logOldest s).toNat < s.counts.log.length)
    (hlate : (logFirst f - logOldest s).toNat < 2 ^ 31) :
    let es := (s.counts.log.drop (logFirst f - logOldest s).toNat).take (fld f.desc 288 11)
    exec (.faultLogRead d) s = .next (complete d stOk ((logFirst f).setWidth 64 ||| BitVec.ofNat 64 (es.length <<< 32))
      (hostPut (dWord f.desc 24) (es.flatMap (eventBytes false)) (started d s))) := by
  intro es
  have hes : logCopied f s = es := logCopied_late hlate
  have hne : es ≠ [] := by
    rw [← List.length_pos_iff, List.length_take, List.length_drop]
    have := h.2.1
    omega
  have hfirst : logOldest s + BitVec.ofNat 32 (logFrom f s) = logFirst f := by
    rw [logFrom, if_pos hlate, BitVec.ofNat_toNat, BitVec.setWidth_eq, BitVec.add_comm, BitVec.sub_add_cancel]
  rw [faultLogRead_copies hs h (by rw [hes]; exact hne), hes, hfirst]

theorem faultLogRead_early (hs : Startable s d 0x0B f) (h : LogReadOk f) (hearly : 2 ^ 31 ≤ (logFirst f - logOldest s).toNat) :
    let es := s.counts.log.take (fld f.desc 288 11 - min (fld f.desc 288 11) (logOldest s - logFirst f).toNat)
    (es ≠ [] → exec (.faultLogRead d) s = .next (complete d stOk ((logOldest s).setWidth 64 ||| BitVec.ofNat 64 (es.length <<< 32))
      (hostPut (dWord f.desc 24) (es.flatMap (eventBytes false)) (started d s))))
    ∧ (es = [] → exec (.faultLogRead d) s = .next (complete d stOk (((Config.freeValue s.free).setWidth 32).setWidth 64)
        { hostPut (dWord f.desc 24) [] (started d s) with free := s.free + 1 })) := by
  intro es
  have hes : logCopied f s = es := logCopied_early hearly
  have hfirst : logOldest s + BitVec.ofNat 32 (logFrom f s) = logOldest s := by
    rw [logFrom, if_neg (Nat.not_lt.mpr hearly)]
    exact BitVec.add_zero _
  refine ⟨fun hne => ?_, fun he => faultLogRead_empty hs h (hes.trans he)⟩
  rw [faultLogRead_copies hs h (by rw [hes]; exact hne), hes, hfirst]

theorem faultLogRead_beyond (hs : Startable s d 0x0B f) (h : LogReadOk f) (hlate : (logFirst f - logOldest s).toNat < 2 ^ 31)
    (hout : s.counts.log.length ≤ (logFirst f - logOldest s).toNat) :
    exec (.faultLogRead d) s = .next (complete d stOk (((Config.freeValue s.free).setWidth 32).setWidth 64)
      { hostPut (dWord f.desc 24) [] (started d s) with free := s.free + 1 }) :=
  faultLogRead_empty hs h (by rw [logCopied_late hlate, List.drop_eq_nil_of_le hout, List.take_nil])

end

end Machine

open Machine

/-- Settles O54: what ends with a link keeps it failed, and the nodes, notices, windows and the log by their equations. -/
theorem linkFailuresAndNotices : Obligations.LinkFailuresAndNotices := by
  unfold Obligations.LinkFailuresAndNotices
  refine ⟨fun s l c b => linkFailureDeclare_fails, fun s l c b h hs hr => ?_, fun s l h => ?_, fun s l c b h hr => ?_,
    fun s => ⟨nodesAfter_waits, nodesAfter_checks⟩, fun s l p h => by rw [dropArriving, h], fun s n => loseNode_lost s n,
    sweepFail_fields, fun k => ⟨mem_sweepPairs_exact, mem_sweepPairs_any⟩, fun s n => routeNotice_excludes, fun s n => routeNotice_readmits,
    fun s => exec_routeNoticeApply_due, fun s n hup hex hlen => (applyNotice_down hup hex).trans (if_pos hlen), fun s h => ?_,
    fun s p => mgmtPkt_arrives, fun s p h => congrArg Host.Outcome.next (if_neg h), fun s p => mgmtPkt_malformed,
    fun s l => crossingWindow_rolls, fun s l h => ?_,
    fun s d f hs h1 h2 h3 h4 hin hlate => faultLogRead_late hs ⟨h1, h2, h3, h4⟩ hin hlate, fun s d f => faultLogRead_bad,
    fun s d f hs h1 h2 h3 h4 hearly => faultLogRead_early hs ⟨h1, h2, h3, h4⟩ hearly,
    fun s d f hs h1 h2 h3 h4 hlate hout => faultLogRead_beyond hs ⟨h1, h2, h3, h4⟩ hlate hout⟩
  · rw [exec_linkFailureDeclare h, hs, hr]
    exact ⟨fun hup => congrArg Host.Outcome.next ((if_pos (Eq.refl true)).trans (by rw [if_pos hup])),
      fun hup => congrArg Host.Outcome.next ((if_pos (Eq.refl true)).trans (by rw [if_neg (by simp [hup])]))⟩
  · rcases h with h | h
    · exact linkFailureDeclare_none h
    · cases hf : (link s l).failAt
      case none => exact linkFailureDeclare_none hf
      case some x => exact (exec_linkFailureDeclare hf).trans (congrArg Host.Outcome.next (if_neg (by simp [atStep_false h])))
  · exact (exec_linkFailureDeclare h).trans (congrArg Host.Outcome.next (if_neg (by simp [hr])))
  · exact (exec_routeNoticeApply s).trans (congrArg Host.Outcome.next (if_neg (by rcases h with h | h <;> simp [h])))
  · refine (exec_crossingWindowRoll l s).trans (congrArg Host.Outcome.next (if_neg ?_))
    rcases h with h | h | h | h
    · simp [h]
    · simp [h]
    · simp [h]
    · simp [Nat.not_le.mpr h]

end Sys2Proof
end

section
/-!
PROOF. The boot procedure: which bank it starts and what it writes into the boot record (R690 to R693).
-/
namespace Sys2Proof
namespace Machine
set_option Elab.async false

section
variable {s t u : State} {b : Bool}

/-! ### What the boot ROM looks at -/

/-- The banks, their levels and the fuses that an image is verified by are as they were. -/
structure SameBanks (s t : State) : Prop where
  bytes : ∀ b, bankBytes t b = bankBytes s b
  level : ∀ b, bankLevel t b = bankLevel s b
  anchors : t.strong.anchors = s.strong.anchors
  floor : t.strong.floor = s.strong.floor
  blown : t.strong.blown = s.strong.blown
  revoked : t.strong.revoked = s.strong.revoked

theorem SameBanks.trans (h : SameBanks s t) (k : SameBanks t u) : SameBanks s u :=
  ⟨fun b => (k.bytes b).trans (h.bytes b), fun b => (k.level b).trans (h.level b), k.anchors.trans h.anchors, k.floor.trans h.floor,
    k.blown.trans h.blown, k.revoked.trans h.revoked⟩

theorem SameBanks.envFault (h : SameBanks s t) (kind bs) : envFault t kind bs = envFault s kind bs := by
  unfold Machine.envFault anchorOk anchorDigest
  rw [h.anchors, h.floor, h.blown, h.revoked]

theorem SameBanks.bankOk (h : SameBanks s t) (b) : bankOk t b = bankOk s b := by
  simp only [Machine.bankOk, h.level, h.bytes, h.envFault]

/-- A new boot record with the same levels. -/
theorem writeBoot_banks (r : BootRec) (hA : r.levelA = s.attic.flash.record.levelA) (hB : r.levelB = s.attic.flash.record.levelB) :
    SameBanks s (writeBoot r s) := by
  refine ⟨fun b => ?_, fun b => ?_, rfl, rfl, rfl, rfl⟩
  · cases b <;> rfl
  · cases b
    · exact hA
    · exact hB

theorem noteRollback_banks (b) (s : State) : SameBanks s (noteRollback b s) :=
  ⟨fun b => by cases b <;> rfl, fun b => by cases b <;> rfl, rfl, rfl, rfl, rfl⟩

/-! ### The boot procedure (R691) -/

/-- Only the Attic differs. -/
def AtticOnly (s t : State) : Prop := ∃ a, t = { s with attic := a }

theorem AtticOnly.trans (h : AtticOnly s t) (k : AtticOnly t u) : AtticOnly s u := by
  obtain ⟨_, rfl⟩ := h
  obtain ⟨_, rfl⟩ := k
  exact ⟨_, rfl⟩

theorem AtticOnly.eq (h : AtticOnly s t) : t = { s with attic := t.attic } := by
  obtain ⟨_, rfl⟩ := h
  rfl

/-- A trial image that was tried gives way: its rollback is counted. -/
def bootFirst (s : State) : State :=
  if s.attic.flash.record.trial && s.attic.flash.record.tried then noteRollback s.attic.flash.record.active s else s

/-- The boot record as the boot procedure writes it. -/
def bootRec (r : BootRec) : BootRec :=
  if r.trial && r.tried then { r with active := !r.active, trial := false } else if r.trial then { r with tried := true } else r

/-- The bank that the boot procedure tries first. -/
def bootBank (r : BootRec) : Bool := if r.trial && r.tried then !r.active else r.active

/-- The state in which the boot procedure looks at the banks. -/
def bootReady (s : State) : State := writeBoot (bootRec s.attic.flash.record) (bootFirst s)

theorem bootRun_eq (s : State) : bootRun s =
    if bankOk (bootReady s) (bootBank s.attic.flash.record) then startImage (bootBank s.attic.flash.record) (bootReady s)
    else bootOther (bootBank s.attic.flash.record) (bootReady s) := rfl

theorem bootFirst_banks (s : State) : SameBanks s (bootFirst s) := by
  unfold bootFirst
  split
  · exact noteRollback_banks _ s
  · exact ⟨fun _ => rfl, fun _ => rfl, rfl, rfl, rfl, rfl⟩

theorem bootFirst_record (s : State) : (bootFirst s).attic.flash.record = s.attic.flash.record := by
  unfold bootFirst
  split <;> rfl

theorem bootRec_levels (r : BootRec) : (bootRec r).levelA = r.levelA ∧ (bootRec r).levelB = r.levelB := by
  unfold bootRec
  split
  · exact ⟨rfl, rfl⟩
  · split <;> exact ⟨rfl, rfl⟩

theorem bootReady_banks (s : State) : SameBanks s (bootReady s) := by
  obtain ⟨hA, hB⟩ := bootRec_levels s.attic.flash.record
  have hrec := bootFirst_record s
  exact (bootFirst_banks s).trans (writeBoot_banks _ (by rw [hA, hrec]) (by rw [hB, hrec]))

theorem bootRun_ok (h : bankOk s (bootBank s.attic.flash.record) = true) :
    bootRun s = startImage (bootBank s.attic.flash.record) (bootReady s) := by
  rw [bootRun_eq, (bootReady_banks s).bankOk, if_pos h]

theorem bootRun_refused (h : bankOk s (bootBank s.attic.flash.record) = false) :
    bootRun s = bootOther (bootBank s.attic.flash.record) (bootReady s) := by
  rw [bootRun_eq, (bootReady_banks s).bankOk, if_neg (by simp [h])]

/-- The boot record names the other bank, and the refused image is noted. -/
def otherReady (b : Bool) (s : State) : State := writeBoot { s.attic.flash.record with active := !b, trial := false } (noteRollback b s)

theorem otherReady_banks (b) (s : State) : SameBanks s (otherReady b s) := (noteRollback_banks b s).trans (writeBoot_banks _ rfl rfl)

theorem bootOther_ok (h : bankOk s (!b) = true) : bootOther b s = startImage (!b) (otherReady b s) := if_pos h

theorem bootOther_recovery (h : bankOk s (!b) = false) : bootOther b s = { s with attic.recovery := true } := if_neg (by simp [h])

theorem bootFirst_attic (s : State) : AtticOnly s (bootFirst s) := by
  unfold bootFirst
  split
  · exact ⟨_, rfl⟩
  · exact ⟨s.attic, rfl⟩

theorem bootReady_attic (s : State) : AtticOnly s (bootReady s) := (bootFirst_attic s).trans ⟨_, rfl⟩

theorem bootOther_attic (b) (s : State) : AtticOnly s (bootOther b s) := by
  cases h : bankOk s (!b)
  case false => exact bootOther_recovery h ▸ ⟨_, rfl⟩
  case true => exact bootOther_ok h ▸ ⟨_, rfl⟩

theorem bootRun_attic (s : State) : AtticOnly s (bootRun s) := by
  cases h : bankOk s (bootBank s.attic.flash.record)
  case false => exact bootRun_refused h ▸ (bootReady_attic s).trans (bootOther_attic ..)
  case true => exact bootRun_ok h ▸ (bootReady_attic s).trans ⟨_, rfl⟩

/-! ### What the boot procedure leaves alone in the Attic -/

/-- A restart goes on, and the count of restarts and the descriptor that activates are as they were. -/
structure BootKept (s t : State) : Prop where
  restarting : t.attic.restarting = s.attic.restarting
  restarts : t.attic.restarts = s.attic.restarts
  activating : t.attic.activating = s.attic.activating
  runAt : t.attic.runAt = s.attic.runAt

theorem BootKept.trans (h : BootKept s t) (k : BootKept t u) : BootKept s u :=
  ⟨k.restarting.trans h.restarting, k.restarts.trans h.restarts, k.activating.trans h.activating, k.runAt.trans h.runAt⟩

theorem bootReady_kept (s : State) : BootKept s (bootReady s) := by
  have hfirst : BootKept s (bootFirst s) := by
    unfold bootFirst
    split <;> exact ⟨rfl, rfl, rfl, rfl⟩
  exact hfirst.trans ⟨rfl, rfl, rfl, rfl⟩

theorem bootOther_kept (b) (s : State) : BootKept s (bootOther b s) := by
  cases h : bankOk s (!b)
  case false => exact bootOther_recovery h ▸ ⟨rfl, rfl, rfl, rfl⟩
  case true => exact bootOther_ok h ▸ ⟨rfl, rfl, rfl, rfl⟩

theorem bootRun_kept (s : State) : BootKept s (bootRun s) := by
  cases h : bankOk s (bootBank s.attic.flash.record)
  case false => exact bootRun_refused h ▸ (bootReady_kept s).trans (bootOther_kept ..)
  case true => exact bootRun_ok h ▸ (bootReady_kept s).trans ⟨rfl, rfl, rfl, rfl⟩

/-! ### The bank that runs -/

section
variable (h : (s.attic.flash.record.trial && s.attic.flash.record.tried) = false)
include h

theorem bootBank_active : bootBank s.attic.flash.record = s.attic.flash.record.active := if_neg (by simp [h])

theorem bootFirst_same : bootFirst s = s := if_neg (by simp [h])

theorem bootRec_tried : (bootRec s.attic.flash.record).tried = (s.attic.flash.record.tried || s.attic.flash.record.trial)
    ∧ (bootRec s.attic.flash.record).trial = s.attic.flash.record.trial
    ∧ (bootRec s.attic.flash.record).active = s.attic.flash.record.active := by
  have hrec : bootRec s.attic.flash.record = if s.attic.flash.record.trial then { s.attic.flash.record with tried := true }
      else s.attic.flash.record := if_neg (by simp [h])
  rw [hrec]
  split
  next ht => simp [ht]
  next ht => simp [ht]

/-- The active bank's image is good: it is started. -/
theorem bootRun_active (hok : bankOk s s.attic.flash.record.active = true) :
    (bootRun s).attic.bank = s.attic.flash.record.active ∧ (bootRun s).attic.recovery = false
      ∧ (bootRun s).attic.level = bankLevel s s.attic.flash.record.active
      ∧ (bootRun s).attic.flash.record.active = s.attic.flash.record.active
      ∧ (bootRun s).attic.flash.record.trial = s.attic.flash.record.trial
      ∧ (bootRun s).attic.flash.record.tried = (s.attic.flash.record.tried || s.attic.flash.record.trial)
      ∧ (bootRun s).attic.rollbacks = s.attic.rollbacks := by
  obtain ⟨htried, htrial, hactive⟩ := bootRec_tried h
  have hbank := bootBank_active h
  rw [bootRun_ok (by rwa [hbank]), hbank]
  exact ⟨rfl, rfl, (bootReady_banks s).level _, hactive, htrial, htried, by rw [bootReady, bootFirst_same h]; rfl⟩

/-- The active bank's image is refused and the other's is good. -/
theorem bootRun_falls (hbad : bankOk s s.attic.flash.record.active = false) (hok : bankOk s (!s.attic.flash.record.active) = true) :
    (bootRun s).attic.bank = (!s.attic.flash.record.active) ∧ (bootRun s).attic.recovery = false
      ∧ (bootRun s).attic.flash.record.active = (!s.attic.flash.record.active) ∧ (bootRun s).attic.flash.record.trial = false
      ∧ (bootRun s).attic.refusedImage = some (s.attic.flash.record.active, bankLevel s s.attic.flash.record.active) := by
  have hbank := bootBank_active h
  rw [bootRun_refused (by rwa [hbank]), hbank, bootOther_ok (by rwa [(bootReady_banks s).bankOk])]
  exact ⟨rfl, rfl, rfl, rfl, congrArg (fun v => some (_, v)) ((bootReady_banks s).level _)⟩

end

theorem bankOk_either (h1 : bankOk s false = false) (h2 : bankOk s true = false) (b) : bankOk s b = false := by
  cases b
  · exact h1
  · exact h2

/-- With neither bank good the part is in recovery (R693). -/
theorem bootRun_recovery (h1 : bankOk s false = false) (h2 : bankOk s true = false) : (bootRun s).attic.recovery = true := by
  rw [bootRun_refused (bankOk_either h1 h2 _), bootOther_recovery (by rw [(bootReady_banks s).bankOk]; exact bankOk_either h1 h2 _)]

/-- A trial image that was tried gives way to the other bank (R692). -/
theorem bootRun_back (h : (s.attic.flash.record.trial && s.attic.flash.record.tried) = true)
    (hok : bankOk s (!s.attic.flash.record.active) = true) :
    (bootRun s).attic.bank = (!s.attic.flash.record.active) ∧ (bootRun s).attic.flash.record.active = (!s.attic.flash.record.active)
      ∧ (bootRun s).attic.flash.record.trial = false
      ∧ (bootRun s).attic.rollbacks = (if s.attic.rollbacks = 0xFFFF then 0xFFFF else s.attic.rollbacks + 1)
      ∧ (bootRun s).attic.level = bankLevel s (!s.attic.flash.record.active) ∧ (bootRun s).attic.recovery = false := by
  have hbank : bootBank s.attic.flash.record = !s.attic.flash.record.active := if_pos h
  have hrec : bootRec s.attic.flash.record = { s.attic.flash.record with active := !s.attic.flash.record.active, trial := false } := if_pos h
  have hfirst : bootFirst s = noteRollback s.attic.flash.record.active s := if_pos h
  rw [bootRun_ok (by rwa [hbank]), hbank]
  refine ⟨rfl, ?_, ?_, ?_, (bootReady_banks s).level _, rfl⟩
  · exact congrArg BootRec.active hrec
  · exact congrArg BootRec.trial hrec
  · change (bootFirst s).attic.rollbacks = _
    rw [hfirst]
    rfl

end

end Machine
end Sys2Proof
end

section
/-!
PROOF. Resets and start-up (R713 to R723, R396, R804).
-/
namespace Sys2Proof
namespace Machine
set_option Elab.async false

section
variable {s t : State} {d : DRef} {f : InFlight}

/-! ### Resets (R713 to R716) -/

/-- What a reset leaves. -/
structure AfterReset (shut : Bool) (s t : State) : Prop where
  larder : t.larder.mem = []
  work : t.work.mem = []
  fns : ∀ x, fnSt t x = .off
  links : ∀ l, (link t l).up = false
  regs : t.regs = {}
  route : t.route.top = {}
  inReset : t.power.inReset = true
  shutdown : t.power.shutdown = shut
  session : t.strong.session = none
  linkKey : t.strong.linkKey = false
  kept : t.strong.lockdown = s.strong.lockdown ∧ t.strong.erased = s.strong.erased ∧ t.strong.floor = s.strong.floor
    ∧ t.strong.blown = s.strong.blown ∧ t.strong.revoked = s.strong.revoked ∧ t.strong.anchors = s.strong.anchors
    ∧ t.strong.alarmFuses = s.strong.alarmFuses ∧ t.strong.provFuses = s.strong.provFuses
  flash : t.attic.flash = s.attic.flash
  pending : t.pending = s.pending

theorem resetAll_after (s : State) : AfterReset false s (resetAll s) :=
  ⟨rfl, rfl, fun _ => rfl, fun _ => rfl, rfl, rfl, rfl, rfl, rfl, rfl, ⟨rfl, rfl, rfl, rfl, rfl, rfl, rfl, rfl⟩, rfl, rfl⟩

theorem thermalShutdown_after (s : State) : AfterReset true s { resetAll s with power.shutdown := true } :=
  ⟨rfl, rfl, fun _ => rfl, fun _ => rfl, rfl, rfl, rfl, rfl, rfl, rfl, ⟨rfl, rfl, rfl, rfl, rfl, rfl, rfl, rfl⟩, rfl, rfl⟩

theorem exec_moduleResetApply (s : State) : exec .moduleResetApply s = .next (
    if s.tick.slot = 0 && dueNow s s.power.resetAt then resetAll s else s) := rfl

theorem exec_reset {c : Instr} (h : c ∈ [Instr.powerOnReset, .pinReset, .thermalShutdown]
      ∨ (c = .moduleResetApply ∧ s.tick.slot = 0 ∧ dueNow s s.power.resetAt = true)) :
    Completes c s (AfterReset (decide (c = .thermalShutdown)) s) := by
  simp only [List.mem_cons, List.not_mem_nil, or_false] at h
  rcases h with (rfl | rfl | rfl) | ⟨rfl, hslot, hdue⟩
  · exact ⟨resetAll s, rfl, resetAll_after s⟩
  · exact ⟨resetAll s, rfl, resetAll_after s⟩
  · exact ⟨{ resetAll s with power.shutdown := true }, rfl, thermalShutdown_after s⟩
  · exact ⟨resetAll s, by rw [exec_moduleResetApply, if_pos (by simp [hslot, hdue])], resetAll_after s⟩

theorem adminApply_reset {w : AdminWait} (hf : flightOf s w.d = some f) (ho : dOpcode f.desc = 0x07) :
    adminApply w s = if missedTick s f then complete w.d stOverrun 0 s
      else complete w.d stOk 0 { s with power.resetAt := some (s.tick.elapsed + 8) } := by
  unfold adminApply
  rw [hf]
  dsimp only
  rw [ho] <;> rfl

/-- Work that waits for its boundary. -/
theorem prepareAdmin_waits (hf : flightOf s d = some f) :
    prepareAdmin d s = { addWaits d 1 s with attic.prepared := s.attic.prepared ++ [⟨d, prepDue s⟩] } :=
  if_pos (by rw [hf]; rfl)

theorem flightOf_started (hf : flightOf s d = some f) : flightOf (started d s) d = some { f with stage := .started } := by
  rw [started, flightOf_modFlight (by exact fun _ => rfl), hf]
  rfl

theorem flightOf_addWaits (hf : flightOf s d = some f) (n) : flightOf (addWaits d n s) d = some { f with waits := f.waits + n } := by
  rw [addWaits, flightOf_modFlight (by exact fun _ => rfl), hf]
  rfl

/-- A descriptor that is admitted as administration work. -/
theorem admin_waits {c : Instr} (hf : flightOf s d = some f) (hexec : exec c s = .next (prepareAdmin d (started d s))) :
    Completes c s fun t => t.attic = { s.attic with prepared := s.attic.prepared ++ [⟨d, prepDue s⟩] }
      ∧ (∃ f', flightOf t d = some f' ∧ f'.waits = f.waits + 1) ∧ t = { s with rings := t.rings, attic := t.attic } := by
  have hstart := flightOf_started hf
  rw [prepareAdmin_waits hstart] at hexec
  exact ⟨_, hexec, rfl, ⟨_, flightOf_addWaits hstart 1, rfl⟩, rfl⟩

theorem moduleReset_waits (h : Startable s d 0x07 f) :
    Completes (.moduleReset d) s fun t => t.attic = { s.attic with prepared := s.attic.prepared ++ [⟨d, prepDue s⟩] }
      ∧ (∃ f', flightOf t d = some f' ∧ f'.waits = f.waits + 1) ∧ t = { s with rings := t.rings, attic := t.attic } :=
  admin_waits h.1 (congrArg Host.Outcome.next (withDesc_of_startable h _))

/-! ### Power-good (R691, R716, R718, R804) -/

/-- The state in which the boot ROM begins. -/
def poweredUp (x : FuseReading) (s : State) : State :=
  let lock := s.strong.erased || s.strong.eraseFuse || decide (s.strong.provFuses < s.strong.alarmFuses)
  { s with power.inReset := false, tick.ns := 0, strong.loopOhms := x.loopOhms, strong.lockdown := lock,
           strong.erased := s.strong.erased || s.strong.eraseFuse, strong.alarm := lock, attic.restarting := true }

theorem exec_powerGood (x) (s : State) : exec (.powerGood x) s = .next (
    if !s.power.inReset || s.power.shutdown || !x.railsGood || !x.resetHigh then s else bootRun (poweredUp x s)) := by
  change execPowerGood x s = _
  rw [apply_ite Host.Outcome.next]
  rfl

/-- Every condition of power-good holds. -/
def GoodPower (x : FuseReading) (s : State) : Prop :=
  s.power.inReset = true ∧ s.power.shutdown = false ∧ x.railsGood = true ∧ x.resetHigh = true

theorem exec_powerGood_boots {x : FuseReading} (h : GoodPower x s) : exec (.powerGood x) s = .next (bootRun (poweredUp x s)) := by
  obtain ⟨h1, h2, h3, h4⟩ := h
  rw [exec_powerGood, if_neg (by simp [h1, h2, h3, h4])]

theorem powerGood_ignored {x : FuseReading} (h : s.power.inReset = false ∨ s.power.shutdown = true ∨ x.railsGood = false ∨ x.resetHigh = false) :
    NoEffect (.powerGood x) s := by
  rw [NoEffect, exec_powerGood, if_pos]
  rcases h with h | h | h | h <;> simp [h]

theorem powerGood_starts {x : FuseReading} (h : GoodPower x s) : Completes (.powerGood x) s fun t => t.power = { s.power with inReset := false }
    ∧ t.tick.ns = 0 ∧ t.strong.loopOhms = x.loopOhms ∧ t.strong.erased = (s.strong.erased || s.strong.eraseFuse)
    ∧ t.strong.lockdown = (s.strong.erased || s.strong.eraseFuse || decide (s.strong.provFuses < s.strong.alarmFuses))
    ∧ t.strong.alarm = t.strong.lockdown ∧ t.attic.restarting = true
    ∧ t = { s with tick := t.tick, strong := t.strong, attic := t.attic, power := t.power } := by
  have hkept := bootRun_kept (poweredUp x s)
  refine ⟨_, exec_powerGood_boots h, ?_⟩
  obtain ⟨a, ha⟩ := bootRun_attic (poweredUp x s)
  have hrest : (bootRun (poweredUp x s)).attic.restarting = true := hkept.restarting
  rw [ha] at hrest ⊢
  exact ⟨rfl, rfl, rfl, rfl, rfl, rfl, hrest, rfl⟩

theorem poweredUp_banks (x) (s : State) : SameBanks s (poweredUp x s) := ⟨fun b => by cases b <;> rfl, fun b => by cases b <;> rfl, rfl, rfl, rfl, rfl⟩

theorem powerGood_boots {x : FuseReading} (h : GoodPower x s) (hr : (s.attic.flash.record.trial && s.attic.flash.record.tried) = false) :
    Completes (.powerGood x) s fun t =>
      (bankOk s s.attic.flash.record.active = true → t.attic.bank = s.attic.flash.record.active ∧ t.attic.recovery = false
        ∧ t.attic.level = bankLevel s s.attic.flash.record.active
        ∧ t.attic.flash.record.tried = (s.attic.flash.record.tried || s.attic.flash.record.trial))
      ∧ (bankOk s s.attic.flash.record.active = false → bankOk s (!s.attic.flash.record.active) = true →
        t.attic.bank = (!s.attic.flash.record.active) ∧ t.attic.recovery = false
        ∧ t.attic.flash.record.active = (!s.attic.flash.record.active) ∧ t.attic.flash.record.trial = false)
      ∧ (bankOk s s.attic.flash.record.active = false → bankOk s (!s.attic.flash.record.active) = false → t.attic.recovery = true) := by
  have hb := poweredUp_banks x s
  have hrec : (poweredUp x s).attic.flash.record = s.attic.flash.record := rfl
  refine ⟨_, exec_powerGood_boots h, ?_⟩
  generalize poweredUp x s = u at hb hrec
  rw [← hrec] at hr ⊢
  simp only [← hb.bankOk, ← hb.level]
  refine ⟨fun hok => ?_, fun hbad hok => ?_, fun hbad hbad' => ?_⟩
  · obtain ⟨h1, h2, h3, -, -, h4, -⟩ := bootRun_active hr hok
    exact ⟨h1, h2, h3, h4⟩
  · obtain ⟨h1, h2, h3, h4, -⟩ := bootRun_falls hr hbad hok
    exact ⟨h1, h2, h3, h4⟩
  · cases hact : u.attic.flash.record.active <;> rw [hact] at hbad hbad'
    · exact bootRun_recovery hbad hbad'
    · exact bootRun_recovery hbad' hbad

/-! ### The Larder phase (R396, R418) -/

/-- Recorded frames are retired again: the remap table and the count of spares change alone. -/
theorem retireRecorded_larder (s : State) : ∃ m n, retireRecorded s = { s with larder.remap := m, larder.sparesUsed := n } := by
  unfold retireRecorded
  generalize s.attic.flash.retired.zip (upFrom 0 s.attic.flash.retired.length) = es
  have hfold : ∀ (es : List (Nat × Nat)) (u : State), ∃ m n, es.foldl (fun s e =>
      { s with larder.remap := tblSet none s.larder.remap e.1 (some e.2), larder.sparesUsed := e.2 + 1 }) u
        = { u with larder.remap := m, larder.sparesUsed := n } := by
    intro es
    induction es with
    | nil => exact fun u => ⟨_, _, rfl⟩
    | cons e es ih =>
      intro u
      obtain ⟨m, n, he⟩ := ih { u with larder.remap := tblSet none u.larder.remap e.1 (some e.2), larder.sparesUsed := e.2 + 1 }
      exact ⟨m, n, he⟩
  exact hfold es s

/-- The reserved region laid out and the keys drawn. -/
def larderLaid (s : State) : State :=
  { s with larder.atticGib := fld (reg s .larderCfg) 0 8, larder.scrubAt := s.tick.elapsed
           larder.key := if s.strong.lockdown then [] else allKeys, larder.partKey := true, power.larderDone := true }

theorem exec_larderPhaseEnd (s : State) : exec .larderPhaseEnd s = .next (
    if s.power.larderDone || s.attic.runAt.isNone then s else { retireRecorded (larderLaid s) with hawk.spill := spillTotal (larderLaid s) }) := by
  change execLarderPhaseEnd s = _
  rw [apply_ite Host.Outcome.next]
  rfl

theorem exec_larderPhaseEnd_lays (h1 : s.power.larderDone = false) (h2 : s.attic.runAt.isSome = true) : exec .larderPhaseEnd s = .next
    { retireRecorded (larderLaid s) with hawk.spill := spillTotal (larderLaid s) } := by
  rw [exec_larderPhaseEnd, if_neg]
  rw [h1, ← Option.not_isSome, h2]
  decide

theorem larderPhaseEnd_lays (h1 : s.power.larderDone = false) (h2 : s.attic.runAt.isSome = true) :
    Completes .larderPhaseEnd s fun t => t.power = { s.power with larderDone := true } ∧ t.larder.partKey = true
      ∧ t.larder.key = (if s.strong.lockdown then [] else allKeys) ∧ t.larder.mem = s.larder.mem
      ∧ t.larder.atticGib = fld (reg s .larderCfg) 0 8 ∧ t = { s with larder := t.larder, hawk := t.hawk, power := t.power } := by
  refine ⟨_, exec_larderPhaseEnd_lays h1 h2, ?_⟩
  obtain ⟨m, n, he⟩ := retireRecorded_larder (larderLaid s)
  rw [he]
  exact ⟨rfl, rfl, rfl, rfl, rfl, rfl⟩

theorem retireRecorded_one {n : Nat} (h : s.attic.flash.retired = [n]) :
    (retireRecorded s).larder = { s.larder with remap := tblSet none s.larder.remap n (some 0), sparesUsed := 1 } := by
  rw [retireRecorded, h]
  rfl

theorem larderPhaseEnd_ignored (h : s.power.larderDone = true ∨ s.attic.runAt = none) : NoEffect .larderPhaseEnd s := by
  rw [NoEffect, exec_larderPhaseEnd, if_pos]
  rcases h with h | h <;> simp [h]

/-! ### READY (R720, R723) -/

theorem exec_readyAssert (s : State) : exec .readyAssert s = .next (
    if s.tick.slot = 0 && (readyConds s).all id then { s with power.ready := true } else s) := rfl

theorem exec_readyTimeout (s : State) : exec .readyTimeout s = .next (
    if s.power.ready || s.power.late || decide (s.tick.ns < 4000000000) then s
    else raiseEv 0x33 0 (((readyConds s).zip [0, 1, 2, 3]).foldl (fun m c => m + (!c.1).toNat * 2 ^ c.2) 0) 0 { s with power.late := true }) := by
  change execReadyTimeout s = _
  rw [apply_ite Host.Outcome.next]
  rfl

theorem exec_readyTimeout_late (h1 : s.power.ready = false) (h2 : s.power.late = false) (h3 : 4000000000 ≤ s.tick.ns) :
    exec .readyTimeout s = .next (raiseEv 0x33 0 (((readyConds s).zip [0, 1, 2, 3]).foldl
      (fun m c => m + (!c.1).toNat * 2 ^ c.2) 0) 0 { s with power.late := true }) := by
  rw [exec_readyTimeout, if_neg (by simp [h1, h2, Nat.not_lt.mpr h3])]

theorem readyTimeout_late (h1 : s.power.ready = false) (h2 : s.power.late = false) (h3 : 4000000000 ≤ s.tick.ns) :
    Completes .readyTimeout s fun t => t.power = { s.power with late := true }
      ∧ (∃ e, t.counts.sideband = s.counts.sideband ++ [e] ∧ e.code = 0x33) ∧ HostOnly { s with power := t.power } t := by
  refine ⟨_, exec_readyTimeout_late h1 h2 h3, ?_⟩
  generalize ((readyConds s).zip [0, 1, 2, 3]).foldl (fun m c => m + (!c.1).toNat * 2 ^ c.2) 0 = n
  have hhost := raiseEv_host 0x33 0 n 0 { s with power.late := true }
  have hpower : (raiseEv 0x33 0 n 0 { s with power.late := true }).power = { s.power with late := true } := by
    obtain ⟨x, y, z, he⟩ := hhost
    rw [he]
  refine ⟨hpower, ⟨_, raiseEv_sideband .., rfl⟩, ?_⟩
  rw [hpower]
  exact hhost

theorem readyTimeout_ignored (h : s.power.ready = true ∨ s.power.late = true ∨ s.tick.ns < 4000000000) : NoEffect .readyTimeout s := by
  rw [NoEffect, exec_readyTimeout, if_pos]
  rcases h with h | h | h <;> simp [h]

end

end Machine

open Machine

/-- Settles O52: a reset is the reset state but for what it keeps; power-good is the boot procedure; the rest by their equations. -/
theorem resetsAndStartUp : Obligations.ResetsAndStartUp := by
  unfold Obligations.ResetsAndStartUp
  refine ⟨⟨fun s c h => ?_, fun s h => ?_, fun s h => ?_, fun s w f => adminApply_reset, fun s d f => moduleReset_waits⟩,
    fun s x h1 h2 h3 h4 => powerGood_starts ⟨h1, h2, h3, h4⟩, fun s x h1 h2 h3 h4 hr => powerGood_boots ⟨h1, h2, h3, h4⟩ hr,
    fun s x => powerGood_ignored, fun s => larderPhaseEnd_lays, fun s => exec_larderPhaseEnd_lays, fun s n => retireRecorded_one,
    fun _ => rfl, fun s => larderPhaseEnd_ignored, fun s hslot h => ?_, fun s h => ?_, fun s => readyTimeout_late,
    fun s => exec_readyTimeout_late, fun s => readyTimeout_ignored⟩
  · obtain ⟨t, ht, k⟩ := exec_reset h
    obtain ⟨hk1, hk2, hk3, hk4, hk5, hk6, hk7, hk8⟩ := k.kept
    exact ⟨t, ht, k.larder, k.work, k.fns, k.links, k.regs, k.route, k.inReset, k.shutdown, k.session, k.linkKey, hk1, hk2, hk3, hk4, hk5,
      hk6, hk7, hk8, k.flash, k.pending⟩
  · refine (exec_moduleResetApply s).trans (congrArg Host.Outcome.next (if_neg ?_))
    rcases h with h | h
    · simp [h]
    · simp [h, dueNow]
  · exact (exec_moduleResetApply s).trans (congrArg Host.Outcome.next (if_neg (by simp [h])))
  · exact (exec_readyAssert s).trans (congrArg Host.Outcome.next (if_pos (by
      rw [Bool.and_eq_true, List.all_eq_true]
      exact ⟨by simp [hslot], h⟩)))
  · refine (exec_readyAssert s).trans (congrArg Host.Outcome.next (if_neg ?_))
    rw [Bool.and_eq_true, List.all_eq_true]
    rintro ⟨h1, h2⟩
    rcases h with h | h
    · exact h (by simpa using h1)
    · exact Bool.false_ne_true (h2 false h)

end Sys2Proof
end

section
/-!
PROOF. Firmware descriptors one at a time, and what the running image does (R694 to R698, R687).
-/
namespace Sys2Proof
namespace Machine
set_option Elab.async false

section
variable {s t u : State} {d e : DRef} {f g : InFlight}

/-! ### What firmware descriptors and a running image leave alone -/

/-- The Larder, the Workroom, the running image, and the banks of boot flash are as they were. -/
structure ImageKept (s t : State) : Prop where
  larder : t.larder = s.larder
  work : t.work = s.work
  restarting : t.attic.restarting = s.attic.restarting
  bank : t.attic.bank = s.attic.bank
  runAt : t.attic.runAt = s.attic.runAt
  flashOp : t.attic.flashOp = s.attic.flashOp
  active : t.attic.flash.record.active = s.attic.flash.record.active
  bytes : ∀ b, bankBytes t b = bankBytes s b
  level : ∀ b, bankLevel t b = bankLevel s b

theorem ImageKept.trans (h : ImageKept s t) (k : ImageKept t u) : ImageKept s u :=
  ⟨k.larder.trans h.larder, k.work.trans h.work, k.restarting.trans h.restarting, k.bank.trans h.bank, k.runAt.trans h.runAt,
    k.flashOp.trans h.flashOp, k.active.trans h.active, fun b => (k.bytes b).trans (h.bytes b), fun b => (k.level b).trans (h.level b)⟩

/-- What changes none of the parts that `ImageKept` speaks of. -/
theorem ImageKept.of_parts (h1 : t.larder = s.larder) (h2 : t.work = s.work) (h3 : t.attic.restarting = s.attic.restarting)
    (h4 : t.attic.bank = s.attic.bank) (h5 : t.attic.runAt = s.attic.runAt) (h6 : t.attic.flashOp = s.attic.flashOp)
    (h7 : t.attic.flash = s.attic.flash) : ImageKept s t :=
  ⟨h1, h2, h3, h4, h5, h6, by rw [h7], fun b => by simp only [bankBytes, h7], fun b => by simp only [bankLevel, h7]⟩

theorem ImageKept.refl (s : State) : ImageKept s s := .of_parts rfl rfl rfl rfl rfl rfl rfl

theorem ImageKept.foldl {α : Type} {f : State → α → State} (h : ∀ s x, ImageKept s (f s x)) : ∀ (l : List α) (s : State), ImageKept s (l.foldl f s)
  | [], s => .refl s
  | x :: l, s => (h s x).trans (foldl h l (f s x))

theorem HostOnly.image (h : HostOnly s t) : ImageKept s t := by
  obtain ⟨_, _, _, rfl⟩ := h
  exact .of_parts (Eq.refl _) (Eq.refl _) (Eq.refl _) (Eq.refl _) (Eq.refl _) (Eq.refl _) (Eq.refl _)

theorem prepareAdmin_image (d) (s : State) : ImageKept s (prepareAdmin d s) := by
  unfold prepareAdmin
  split
  · exact .of_parts rfl rfl rfl rfl rfl rfl rfl
  · exact .refl s

/-- The trial image that runs becomes the committed one (R698). -/
def committed (s : State) : State := { writeBoot { s.attic.flash.record with trial := false } s with attic.trial := false }

theorem committed_image (s : State) : ImageKept s (committed s) :=
  ⟨rfl, rfl, rfl, rfl, rfl, rfl, rfl, fun b => by cases b <;> rfl, fun b => by cases b <;> rfl⟩

/-! ### One firmware descriptor (R694) -/

theorem fwBegin_stage (hf : flightOf s d = some f) (ho : dOpcode f.desc = 0x04) : fwBegin d s =
    if dByte f.desc 32 4 < 5432 ∨ 50331648 < dByte f.desc 32 4 ∨ s.attic.trial then complete d stBad 0 s
    else hostRead (.obj d 0) (dWord f.desc 24) (dByte f.desc 32 4) (addWaits d 1 s) := by
  unfold fwBegin
  rw [hf]
  dsimp only
  rw [ho] <;> rfl

theorem fwBegin_activate (hf : flightOf s d = some f) (ho : dOpcode f.desc = 0x05) : fwBegin d s =
    if activateBad s (bit f.desc 192) then complete d stBad 0 s else prepareAdmin d s := by
  unfold fwBegin
  rw [hf]
  dsimp only
  rw [ho] <;> rfl

theorem fwBegin_commit (hf : flightOf s d = some f) (ho : dOpcode f.desc = 0x06) : fwBegin d s =
    if !s.attic.trial then complete d stBad 0 s else complete d stOk 0 (committed s) := by
  unfold fwBegin
  rw [hf]
  dsimp only
  rw [ho] <;> rfl

/-- What beginning a firmware descriptor can do. -/
theorem fwBegin_cases (d) (s : State) : fwBegin d s = s ∨ fwBegin d s = complete d stBad 0 s ∨ fwBegin d s = prepareAdmin d s
    ∨ fwBegin d s = complete d stOk 0 (committed s) ∨ ∃ a n, fwBegin d s = hostRead (.obj d 0) a n (addWaits d 1 s) := by
  unfold fwBegin
  split
  · exact .inl rfl
  · extract_lets
    split
    · split
      · exact .inr (.inl rfl)
      · exact .inr (.inr (.inr (.inr ⟨_, _, rfl⟩)))
    · split
      · exact .inr (.inl rfl)
      · exact .inr (.inr (.inl rfl))
    · split
      · exact .inr (.inl rfl)
      · exact .inr (.inr (.inr (.inl rfl)))

theorem fwBegin_image (d) (s : State) : ImageKept s (fwBegin d s) := by
  rcases fwBegin_cases d s with h | h | h | h | ⟨a, n, h⟩ <;> rw [h]
  · exact .refl s
  · exact (complete_host ..).image
  · exact prepareAdmin_image ..
  · exact (committed_image s).trans (complete_host ..).image
  · obtain ⟨x, hx⟩ := hostRead_enz (.obj d 0) a n (addWaits d 1 s)
    rw [hx]
    exact .of_parts rfl rfl rfl rfl rfl rfl rfl

theorem flightOf_modFlight_none (h : flightOf s e = none) (d) {k : InFlight → InFlight} (hk : ∀ f, (k f).ref = f.ref) :
    flightOf (modFlight d k s) e = none := by
  rw [flightOf_eq_none] at h ⊢
  intro f hf
  obtain ⟨f', hf', rfl⟩ := List.mem_map.mp hf
  split
  · rw [hk]
    exact h f' hf'
  · exact h f' hf'

theorem flightOf_fwBegin_none (h : flightOf s e = none) (d) : flightOf (fwBegin d s) e = none := by
  have hwait : flightOf (addWaits d 1 s) e = none := flightOf_modFlight_none (k := fun f => { f with waits := f.waits + 1 }) h d fun _ => rfl
  rcases fwBegin_cases d s with h' | h' | h' | h' | ⟨a, n, h'⟩ <;> rw [h']
  · exact h
  · exact flightOf_complete_none h ..
  · unfold prepareAdmin
    split
    · exact hwait
    · exact h
  · exact flightOf_complete_none (s := committed s) h ..
  · obtain ⟨x, hx⟩ := hostRead_enz (.obj d 0) a n (addWaits d 1 s)
    rw [hx]
    exact hwait

/-! ### The order of firmware descriptors (R694) -/

/-- The first firmware descriptor has begun. -/
def fwOpened (d : DRef) (s : State) : State := modFlight d (fun g => { g with pos := 1 }) s

theorem flightOf_fwOpened_none (h : flightOf s e = none) (d) : flightOf (fwOpened d s) e = none :=
  flightOf_modFlight_none (k := fun g => { g with pos := 1 }) h d fun _ => rfl

theorem fwRun_image : ∀ (n) (s : State), ImageKept s (fwRun n s)
  | 0, s => .refl s
  | n + 1, s => by
    unfold fwRun
    split
    · exact .refl s
    next d t _ =>
      split
      · exact ImageKept.trans (t := { s with attic.fw := t }) (.of_parts rfl rfl rfl rfl rfl rfl rfl) (fwRun_image n _)
      · split
        · exact .refl s
        · have hopen : ImageKept s (fwOpened d s) := .of_parts rfl rfl rfl rfl rfl rfl rfl
          exact (hopen.trans (fwBegin_image d _)).trans (fwRun_image n _)

theorem flightOf_fwRun_none : ∀ (n) {s : State}, flightOf s e = none → flightOf (fwRun n s) e = none
  | 0, _, h => h
  | n + 1, s, h => by
    unfold fwRun
    split
    · exact h
    next d t _ =>
      split
      · exact flightOf_fwRun_none n (s := { s with attic.fw := t }) h
      · split
        · exact h
        · exact flightOf_fwRun_none n (flightOf_fwBegin_none (flightOf_fwOpened_none h d) d)

theorem fwRun_waits {ds : List DRef} (h : s.attic.fw = d :: ds) (hf : flightOf s d = some g) (hp : g.pos = 1) (n) : fwRun (n + 1) s = s := by
  unfold fwRun
  rw [h]
  dsimp only
  rw [hf]
  dsimp only
  rw [if_pos hp]

theorem fwPump_waits {ds : List DRef} (h : s.attic.fw = d :: ds) (hf : flightOf s d = some g) (hp : g.pos = 1) : fwPump s = s :=
  fwRun_waits h hf hp _

theorem fwRun_begins {ds : List DRef} (h : s.attic.fw = d :: ds) (hf : flightOf s d = some g) (hp : g.pos ≠ 1) (n) :
    fwRun (n + 1) s = fwRun n (fwBegin d (fwOpened d s)) := by
  rw [fwRun, h]
  dsimp only
  rw [hf]
  dsimp only
  rw [if_neg hp, fwOpened]

theorem fwRun_ended (h : s.attic.fw = [d]) (hf : flightOf s d = none) (n) : fwRun (n + 2) s = { s with attic.fw := [] } := by
  rw [fwRun, h]
  dsimp only
  rw [hf]
  dsimp only
  rw [fwRun]

theorem fwPump_image (s : State) : ImageKept s (fwPump s) := fwRun_image ..

theorem fwEnd_image (d st r) (s : State) : ImageKept s (fwEnd d st r s) := (complete_host ..).image.trans (fwPump_image _)

theorem flightOf_fwEnd (d st r) (s : State) : flightOf (fwEnd d st r s) d = none := flightOf_fwRun_none _ (flightOf_complete_self ..)

/-! ### The running image (R687, R697, R700) -/

theorem evFlush_image (n) (s : State) : ImageKept s (evFlush n s) := (evFlush_host ..).image

theorem sendOffers_image (s : State) : ImageKept s (sendOffers s) := by
  unfold sendOffers
  split
  · exact .refl s
  · refine ImageKept.trans (t := { s with attic.offerDue := false }) (.of_parts rfl rfl rfl rfl rfl rfl rfl) (.foldl (fun u l => ?_) ..)
    exact .of_parts rfl rfl rfl rfl rfl rfl rfl

theorem reportRollback_image (s : State) : ImageKept s (reportRollback s) := by
  unfold reportRollback
  split
  · exact ImageKept.trans (t := { s with attic.refusedImage := none }) (.of_parts rfl rfl rfl rfl rfl rfl rfl) (raiseEv_host ..).image
  · exact .refl s

theorem activateDone_image (s : State) : ImageKept s (activateDone s) := by
  unfold activateDone
  split
  · exact ImageKept.trans (t := { s with attic.activating := none }) (.of_parts rfl rfl rfl rfl rfl rfl rfl) (fwEnd_image ..)
  · exact .refl s

/-- The image that starts first reads its bundle and table; its own state only notes when it began. -/
theorem firstRun_attic (s : State) : (firstRun s).attic = { s.attic with runAt := some s.tick.elapsed } ∧ (firstRun s).larder = s.larder
    ∧ (firstRun s).work = s.work := by
  unfold firstRun
  extract_lets a v w
  have hw : w.attic = v.attic ∧ w.larder = v.larder ∧ w.work = v.work := by
    dsimp only [w]
    split <;> exact ⟨rfl, rfl, rfl⟩
  obtain ⟨h1, h2, h3⟩ := hw
  split
  · exact ⟨h1, h2, h3⟩
  · exact ⟨h1, h2, h3⟩

/-- The image or the recovery service begins. -/
def imageBegun (s : State) : State :=
  if s.attic.recovery || s.attic.runAt.isSome then { s with attic.restarting := false } else firstRun { s with attic.restarting := false }

theorem imageRuns_kept (s : State) : ImageKept (imageBegun s) (imageRuns s) :=
  (((reportRollback_image _).trans (evFlush_image ..)).trans (sendOffers_image _)).trans ((activateDone_image _).trans (fwPump_image _))

theorem imageBegun_attic (s : State) : (imageBegun s).attic.restarting = false ∧ (imageBegun s).attic.bank = s.attic.bank
    ∧ (imageBegun s).attic.flash = s.attic.flash ∧ (imageBegun s).larder = s.larder ∧ (imageBegun s).work = s.work := by
  unfold imageBegun
  split
  · exact ⟨rfl, rfl, rfl, rfl, rfl⟩
  · obtain ⟨h1, h2, h3⟩ := firstRun_attic { s with attic.restarting := false }
    rw [h1, h2, h3]
    exact ⟨rfl, rfl, rfl, rfl, rfl⟩

theorem imageBegun_runAt (h : s.attic.recovery = false) : (imageBegun s).attic.runAt = some (s.attic.runAt.getD s.tick.elapsed) := by
  unfold imageBegun
  rw [h, Bool.false_or]
  cases hr : s.attic.runAt
  case none =>
    rw [if_neg (by decide), (firstRun_attic _).1]
    rfl
  case some k => exact hr

theorem imageRuns_spec (s : State) : (imageRuns s).attic.restarting = false ∧ (imageRuns s).attic.bank = s.attic.bank
    ∧ (imageRuns s).attic.flash.record.active = s.attic.flash.record.active ∧ (imageRuns s).larder = s.larder ∧ (imageRuns s).work = s.work := by
  have h := imageRuns_kept s
  obtain ⟨h1, h2, h3, h4, h5⟩ := imageBegun_attic s
  exact ⟨h.restarting.trans h1, h.bank.trans h2, h.active.trans (by rw [h3]), h.larder.trans h4, h.work.trans h5⟩

end

end Machine
end Sys2Proof
end

section
/-!
PROOF. Firmware descriptors, activation, watchdog restarts and the boot flash (R690 to R698, R418).
-/
namespace Sys2Proof
namespace Machine
set_option Elab.async false

section
variable {s t u : State} {d : DRef} {f : InFlight} {b : Bool}

/-! ### A firmware descriptor with no other open (R694) -/

/-- The descriptor's state once it has begun. -/
def fwFlight (f : InFlight) : InFlight := { f with stage := .started, waits := f.waits + 1, pos := 1 }

/-- The state in which a lone firmware descriptor begins. -/
def fwAlone (d : DRef) (s : State) : State := fwOpened d { addWaits d 1 (started d s) with attic.fw := s.attic.fw ++ [d] }

theorem flightOf_fwAlone (hf : flightOf s d = some f) : flightOf (fwAlone d s) d = some (fwFlight f) := by
  have hwait : flightOf { addWaits d 1 (started d s) with attic.fw := s.attic.fw ++ [d] } d
      = some { f with stage := .started, waits := f.waits + 1 } := flightOf_addWaits (flightOf_started hf) 1
  rw [fwAlone, fwOpened, flightOf_modFlight (by exact fun _ => rfl), hwait]
  rfl

theorem exec_fw {c : Instr} {op : BitVec 8} (hc : (c, op) ∈ [(Instr.fwStage d, (0x04 : BitVec 8)), (.fwActivate d, 0x05), (.fwCommit d, 0x06)])
    (h : Startable s d op f) : exec c s = .next (fwPump { addWaits d 1 (started d s) with attic.fw := s.attic.fw ++ [d] }) := by
  simp only [List.mem_cons, Prod.mk.injEq, List.not_mem_nil, or_false] at hc
  rcases hc with ⟨rfl, rfl⟩ | ⟨rfl, rfl⟩ | ⟨rfl, rfl⟩ <;> exact congrArg Host.Outcome.next (withDesc_of_startable h _)

theorem exec_fw_alone {c : Instr} {op : BitVec 8}
    (hc : (c, op) ∈ [(Instr.fwStage d, (0x04 : BitVec 8)), (.fwActivate d, 0x05), (.fwCommit d, 0x06)])
    (h : Startable s d op f) (hp : f.pos ≠ 1) (hfw : s.attic.fw = []) : exec c s = .next (fwRun 2 (fwBegin d (fwAlone d s))) := by
  have hwait : flightOf { addWaits d 1 (started d s) with attic.fw := s.attic.fw ++ [d] } d
      = some { f with stage := .started, waits := f.waits + 1 } := flightOf_addWaits (flightOf_started h.1) 1
  rw [exec_fw hc h]
  refine congrArg Host.Outcome.next ?_
  have hlist : ({ addWaits d 1 (started d s) with attic.fw := s.attic.fw ++ [d] } : State).attic.fw = [d] := by
    change s.attic.fw ++ [d] = [d]
    rw [hfw]
    rfl
  rw [fwPump, hlist]
  exact fwRun_begins hlist hwait hp _

theorem fwAlone_fw (hfw : s.attic.fw = []) (d) : (fwAlone d s).attic.fw = [d] := by
  change s.attic.fw ++ [d] = [d]
  rw [hfw]
  rfl

theorem fwAlone_attic (hfw : s.attic.fw = []) (d) : (fwAlone d s).attic = { s.attic with fw := [d] } := by
  have h := fwAlone_fw hfw d
  change { s.attic with fw := (fwAlone d s).attic.fw } = _
  rw [h]

theorem fwAlone_rings (d) (s : State) : fwAlone d s = { s with rings := (fwAlone d s).rings, attic := (fwAlone d s).attic } := rfl

/-- A lone firmware descriptor that ends at once leaves the Attic's list empty. -/
theorem fwRun_completed (hfw : u.attic.fw = [d]) (st r) : fwRun 2 (complete d st r u) = { complete d st r u with attic.fw := [] } := by
  refine fwRun_ended ?_ (flightOf_complete_self ..) 0
  obtain ⟨x, y, z, he⟩ := complete_host d st r u
  rw [he]
  exact hfw

/-- It was refused: nothing is left of it. -/
theorem fwAlone_refused (hfw : s.attic.fw = []) (st r) : flightOf (fwRun 2 (complete d st r (fwAlone d s))) d = none
    ∧ HostOnly s (fwRun 2 (complete d st r (fwAlone d s))) := by
  rw [fwRun_completed (fwAlone_fw hfw d)]
  refine ⟨flightOf_complete_self .., ?_⟩
  have hattic := fwAlone_attic hfw d
  have hempty : s.attic = { s.attic with fw := [] } := by rw [← hfw]
  obtain ⟨x, y, z, he⟩ := complete_host d st r (fwAlone d s)
  rw [he]
  refine ⟨x, y, z, ?_⟩
  rw [hattic]
  change { s with enz := x, rings := y, counts := z, attic := { s.attic with fw := [] } } = _
  rw [← hempty]

theorem activateBad_fwAlone (d) (s : State) (k : Bool) : activateBad (fwAlone d s) k = activateBad s k := rfl

section
variable (hp : f.pos ≠ 1) (hfw : s.attic.fw = [])
include hp hfw

theorem fwStage_reads (h : Startable s d 0x04 f) (ht : s.attic.trial = false) (h1 : 5432 ≤ dByte f.desc 32 4) (h2 : dByte f.desc 32 4 ≤ 50331648) :
    Completes (.fwStage d) s fun t => t.attic = { s.attic with fw := [d] }
      ∧ (∃ f', flightOf t d = some f' ∧ f'.waits = f.waits + 2) ∧ t = { s with enz := t.enz, rings := t.rings, attic := t.attic } := by
  have hf := flightOf_fwAlone h.1
  have hattic := fwAlone_attic hfw d
  have hwait := flightOf_addWaits hf 1
  obtain ⟨x, hx⟩ := hostRead_enz (.obj d 0) (dWord f.desc 24) (dByte f.desc 32 4) (addWaits d 1 (fwAlone d s))
  have hbegin : fwBegin d (fwAlone d s) = hostRead (.obj d 0) (dWord f.desc 24) (dByte f.desc 32 4) (addWaits d 1 (fwAlone d s)) := by
    have htrial : (fwAlone d s).attic.trial = false := by
      rw [hattic]
      exact ht
    refine (fwBegin_stage hf h.2.2).trans (if_neg ?_)
    rw [htrial]
    exact fun hbad => hbad.elim (Nat.not_lt.mpr h1) fun k => k.elim (Nat.not_lt.mpr h2) Bool.false_ne_true
  have hread : flightOf (fwBegin d (fwAlone d s)) d = some { fwFlight f with waits := (fwFlight f).waits + 1 } := by
    rw [hbegin, hx]
    exact hwait
  have hfwlist : (fwBegin d (fwAlone d s)).attic.fw = [d] := by
    rw [hbegin, hx]
    exact fwAlone_fw hfw d
  refine ⟨fwBegin d (fwAlone d s), ?_, ?_, ⟨_, hread, rfl⟩, ?_⟩
  · rw [exec_fw_alone (.head _) h hp hfw]
    exact congrArg Host.Outcome.next (fwRun_waits hfwlist hread rfl 1)
  · rw [hbegin, hx]
    exact hattic
  · rw [hbegin, hx]
    rfl

theorem fwStage_refused (h : Startable s d 0x04 f)
    (hbad : dByte f.desc 32 4 < 5432 ∨ 50331648 < dByte f.desc 32 4 ∨ s.attic.trial = true) :
    Completes (.fwStage d) s fun t => flightOf t d = none ∧ HostOnly s t := by
  have htrial : (fwAlone d s).attic.trial = s.attic.trial := rfl
  have hbegin : fwBegin d (fwAlone d s) = complete d stBad 0 (fwAlone d s) :=
    (fwBegin_stage (flightOf_fwAlone h.1) h.2.2).trans (if_pos hbad)
  refine ⟨_, exec_fw_alone (.head _) h hp hfw, ?_⟩
  rw [hbegin]
  exact fwAlone_refused hfw ..

theorem fwActivate_waits (h : Startable s d 0x05 f) (hok : activateBad s (bit f.desc 192) = false) :
    Completes (.fwActivate d) s fun t => t.attic = { s.attic with fw := [d], prepared := s.attic.prepared ++ [⟨d, prepDue s⟩] }
      ∧ t = { s with rings := t.rings, attic := t.attic } := by
  have hf := flightOf_fwAlone h.1
  have hbegin : fwBegin d (fwAlone d s) = prepareAdmin d (fwAlone d s) :=
    (fwBegin_activate hf h.2.2).trans (if_neg (by rw [activateBad_fwAlone]; exact ne_true_of_eq_false hok))
  rw [prepareAdmin_waits hf] at hbegin
  have hread : flightOf (fwBegin d (fwAlone d s)) d = some { fwFlight f with waits := (fwFlight f).waits + 1 } := by
    rw [hbegin]
    exact flightOf_addWaits hf 1
  have hfwlist : (fwBegin d (fwAlone d s)).attic.fw = [d] := by
    rw [hbegin]
    exact fwAlone_fw hfw d
  refine ⟨fwBegin d (fwAlone d s), ?_, ?_, ?_⟩
  · rw [exec_fw_alone (.tail _ (.head _)) h hp hfw]
    exact congrArg Host.Outcome.next (fwRun_waits hfwlist hread rfl 1)
  · rw [hbegin]
    exact congrArg (fun a : Attic => { a with prepared := s.attic.prepared ++ [(⟨d, prepDue s⟩ : AdminWait)] }) (fwAlone_attic hfw d)
  · rw [hbegin]
    rfl

theorem fwActivate_refused (h : Startable s d 0x05 f) (hbad : activateBad s (bit f.desc 192) = true) :
    Completes (.fwActivate d) s fun t => flightOf t d = none ∧ HostOnly s t := by
  have hbegin : fwBegin d (fwAlone d s) = complete d stBad 0 (fwAlone d s) :=
    (fwBegin_activate (flightOf_fwAlone h.1) h.2.2).trans (if_pos (by rw [activateBad_fwAlone]; exact hbad))
  refine ⟨_, exec_fw_alone (.tail _ (.head _)) h hp hfw, ?_⟩
  rw [hbegin]
  exact fwAlone_refused hfw ..

theorem fwCommit_refused (h : Startable s d 0x06 f) (ht : s.attic.trial = false) :
    Completes (.fwCommit d) s fun t => flightOf t d = none ∧ HostOnly s t := by
  have htrial : (fwAlone d s).attic.trial = s.attic.trial := rfl
  have hbegin : fwBegin d (fwAlone d s) = complete d stBad 0 (fwAlone d s) :=
    (fwBegin_commit (flightOf_fwAlone h.1) h.2.2).trans (if_pos (by rw [htrial, ht]; rfl))
  refine ⟨_, exec_fw_alone (.tail _ (.tail _ (.head _))) h hp hfw, ?_⟩
  rw [hbegin]
  exact fwAlone_refused hfw ..

theorem fwCommit_commits (h : Startable s d 0x06 f) (ht : s.attic.trial = true) :
    Completes (.fwCommit d) s fun t => t.attic.trial = false ∧ t.attic.fw = []
      ∧ t.attic.flash.record = { s.attic.flash.record with trial := false, seq := s.attic.flash.record.seq + 1 }
      ∧ t.attic.bank = s.attic.bank ∧ flightOf t d = none ∧ HostOnly { s with attic := t.attic } t := by
  have htrial : (fwAlone d s).attic.trial = s.attic.trial := rfl
  have hbegin : fwBegin d (fwAlone d s) = complete d stOk 0 (committed (fwAlone d s)) :=
    (fwBegin_commit (flightOf_fwAlone h.1) h.2.2).trans (if_neg (by rw [htrial, ht]; decide))
  have hrun := fwRun_completed (u := committed (fwAlone d s)) (fwAlone_fw hfw d) stOk 0
  refine ⟨_, exec_fw_alone (.tail _ (.tail _ (.head _))) h hp hfw, ?_⟩
  rw [hbegin, hrun]
  have hnone := flightOf_complete_self d stOk 0 (committed (fwAlone d s))
  obtain ⟨x, y, z, he⟩ := complete_host d stOk 0 (committed (fwAlone d s))
  rw [he] at hnone ⊢
  exact ⟨rfl, rfl, rfl, rfl, hnone, x, y, z, rfl⟩

end

/-! ### Activation and restarts (R687, R691, R697) -/

/-- The Attic as a restart begins. -/
def restarted (s : State) : State :=
  { s with attic.restarting := true, attic.restarts := if s.attic.restarts = 0xFFFF then 0xFFFF else s.attic.restarts + 1 }

theorem atticRestart_eq (s : State) : atticRestart s = bootRun (restarted s) := rfl

theorem restarted_banks (s : State) : SameBanks s (restarted s) :=
  ⟨fun b => by cases b <;> rfl, fun b => by cases b <;> rfl, rfl, rfl, rfl, rfl⟩

/-- The boot record names the bank to be tried. -/
def trialNamed (b : Bool) (s : State) : State := writeBoot { s.attic.flash.record with active := b, trial := true, tried := false } s

/-- The descriptor that activates, with the status it completes with so far. -/
def withActivating (d : DRef) (st : BitVec 8) (u : State) : State := { u with attic.activating := some (d, st) }

theorem activateApply_eq (d b) (s : State) : activateApply d b s = withActivating d
    (if (bootRun (restarted (trialNamed b s))).attic.bank = b && !(bootRun (restarted (trialNamed b s))).attic.recovery then stOk else stDenied)
    (bootRun (restarted (trialNamed b s))) := rfl

theorem withActivating_attic (d st) (h : AtticOnly s u) : AtticOnly s (withActivating d st u) := h.trans ⟨_, rfl⟩

theorem trialNamed_banks (b) (s : State) : SameBanks s (restarted (trialNamed b s)) :=
  (writeBoot_banks { s.attic.flash.record with active := b, trial := true, tried := false } rfl rfl : SameBanks s (trialNamed b s)).trans
    (restarted_banks _)

theorem bootReady_record (s : State) :
    (bootReady s).attic.flash.record = { bootRec s.attic.flash.record with seq := s.attic.flash.record.seq + 1 } := by
  have h := bootFirst_record s
  change { bootRec s.attic.flash.record with seq := (bootFirst s).attic.flash.record.seq + 1 } = _
  rw [h]

theorem activateApply_starts (d) (hok : bankOk s b = true) :
    let t := activateApply d b s
    t.attic.activating = some (d, stOk) ∧ t.attic.restarting = true ∧ t.attic.bank = b ∧ t.attic.level = bankLevel s b
      ∧ t.attic.trial = true ∧ t.attic.recovery = false
      ∧ t.attic.flash.record = { s.attic.flash.record with active := b, trial := true, tried := true, seq := s.attic.flash.record.seq + 2 }
      ∧ t = { s with attic := t.attic } := by
  have hbanks := trialNamed_banks b s
  have hready := bootReady_record (restarted (trialNamed b s))
  have hrun : bootRun (restarted (trialNamed b s)) = startImage b (bootReady (restarted (trialNamed b s))) :=
    bootRun_ok (by rw [hbanks.bankOk]; exact hok)
  have hrecord : (bootReady (restarted (trialNamed b s))).attic.flash.record
      = { s.attic.flash.record with active := b, trial := true, tried := true, seq := s.attic.flash.record.seq + 2 } := by
    rw [hready]
    change { s.attic.flash.record with active := b, trial := true, tried := true, seq := s.attic.flash.record.seq + 1 + 1 } = _
    rw [BitVec.add_assoc]
    rfl
  have hlevel := ((bootReady_banks (restarted (trialNamed b s))).level b).trans (hbanks.level b)
  have hkept := bootReady_kept (restarted (trialNamed b s))
  have honly := bootReady_attic (restarted (trialNamed b s))
  have heq : activateApply d b s = withActivating d stOk (startImage b (bootReady (restarted (trialNamed b s)))) := by
    have hb : (startImage b (bootReady (restarted (trialNamed b s)))).attic.bank = b := rfl
    have hr : (startImage b (bootReady (restarted (trialNamed b s)))).attic.recovery = false := rfl
    rw [activateApply_eq, hrun, hb, hr, if_pos (by simp)]
  intro t
  simp only [t]
  rw [heq]
  have hrest : (bootReady (restarted (trialNamed b s))).attic.restarting = true := hkept.restarting
  have hattic : AtticOnly s (bootReady (restarted (trialNamed b s))) := AtticOnly.trans ⟨_, rfl⟩ honly
  generalize bootReady (restarted (trialNamed b s)) = w at hrecord hlevel hrest hattic
  refine ⟨rfl, hrest, rfl, hlevel, congrArg BootRec.trial hrecord, rfl, hrecord, ?_⟩
  exact (withActivating_attic d stOk (hattic.trans ⟨_, rfl⟩)).eq

theorem activateApply_refused (d) (hbad : bankOk s b = false) (hok : bankOk s (!b) = true) :
    let t := activateApply d b s
    t.attic.activating = some (d, stDenied) ∧ t.attic.restarting = true ∧ t.attic.bank = (!b)
      ∧ t.attic.flash.record.active = (!b) ∧ t.attic.flash.record.trial = false ∧ t.attic.refusedImage = some (b, bankLevel s b)
      ∧ t = { s with attic := t.attic } := by
  have hbanks := trialNamed_banks b s
  obtain ⟨h1, -, h3, h4, h5⟩ := bootRun_falls (s := restarted (trialNamed b s)) (by rfl)
    (by rw [hbanks.bankOk]; exact hbad) (by rw [hbanks.bankOk]; exact hok)
  have hkept := bootRun_kept (restarted (trialNamed b s))
  have honly := bootRun_attic (restarted (trialNamed b s))
  rw [hbanks.level] at h5
  have hrest : (bootRun (restarted (trialNamed b s))).attic.restarting = true := hkept.restarting
  have hattic : AtticOnly s (bootRun (restarted (trialNamed b s))) := AtticOnly.trans ⟨_, rfl⟩ honly
  have heq := activateApply_eq d b s
  have hactive : (restarted (trialNamed b s)).attic.flash.record.active = b := rfl
  rw [hactive] at h1 h3 h5
  generalize bootRun (restarted (trialNamed b s)) = w at h1 h3 h4 h5 hrest hattic heq
  rw [h1, if_neg (by simp)] at heq
  intro t
  simp only [t]
  rw [heq]
  exact ⟨rfl, hrest, h1, h3, h4, h5, (withActivating_attic d stDenied hattic).eq⟩

end

end Machine
end Sys2Proof
end

section
/-!
PROOF. The boot flash and the Attic's restarts; settles the obligation of chapter 20's firmware (R687 to R698, R418).
-/
namespace Sys2Proof
namespace Machine
set_option Elab.async false

section
variable {s t u : State} {d : DRef} {f : InFlight} {b : Bool} {w : FlashOp}

/-! ### The envelope of a FW_STAGE (R695) -/

theorem verified_fw_near (bs : List Byte) (h : s.attic.recovery = true ∨ levelsNear (envLevel bs) s.attic.level.toNat = true) :
    verified (.fw d) true bs s = { s with attic.flashOp := some ⟨d, !s.attic.bank, bs⟩ } := by
  change fwVerified d true bs s = _
  rw [fwVerified, if_neg (by decide), if_neg (by rcases h with h | h <;> simp [h])]

theorem verified_fw_far (bs : List Byte) (h1 : s.attic.recovery = false) (h2 : levelsNear (envLevel bs) s.attic.level.toNat = false) :
    verified (.fw d) true bs s = fwEnd d stBad 0 s := by
  change fwVerified d true bs s = _
  rw [fwVerified, if_neg (by decide), if_pos (by simp [h1, h2])]

theorem adminApply_activate {w : AdminWait} (hf : flightOf s w.d = some f) (ho : dOpcode f.desc = 0x05) :
    adminApply w s = if missedTick s f then fwEnd w.d stOverrun 0 s else activateApply w.d (bit f.desc 192) s := by
  unfold adminApply
  rw [hf]
  dsimp only
  rw [ho] <;> rfl

/-! ### Watchdog restarts (R687, R691) -/

/-- An image that FW_ACTIVATE started has failed by time-out. -/
def activationLate (s : State) : State := { s with attic.activating := s.attic.activating.map (fun a => (a.1, stTimeout)) }

theorem exec_watchdogExpiry (s : State) : exec .watchdogExpiry s = .next (bootRun (restarted (activationLate s))) := rfl

theorem activationLate_banks (s : State) : SameBanks s (restarted (activationLate s)) :=
  ⟨fun b => by cases b <;> rfl, fun b => by cases b <;> rfl, rfl, rfl, rfl, rfl⟩

theorem watchdog_attic (s : State) : AtticOnly s (bootRun (restarted (activationLate s))) := AtticOnly.trans ⟨_, rfl⟩ (bootRun_attic _)

theorem watchdog_restarts (s : State) : Completes .watchdogExpiry s fun t => t.attic.restarting = true
    ∧ t.attic.restarts = (if s.attic.restarts = 0xFFFF then 0xFFFF else s.attic.restarts + 1) ∧ t = { s with attic := t.attic } := by
  have h := bootRun_kept (restarted (activationLate s))
  exact ⟨_, exec_watchdogExpiry s, h.restarting, h.restarts, (watchdog_attic s).eq⟩

theorem watchdog_recovery (h1 : bankOk s false = false) (h2 : bankOk s true = false) :
    Completes .watchdogExpiry s fun t => t.attic.recovery = true ∧ t = { s with attic := t.attic } := by
  have hb := activationLate_banks s
  exact ⟨_, exec_watchdogExpiry s, bootRun_recovery (by rw [hb.bankOk]; exact h1) (by rw [hb.bankOk]; exact h2), (watchdog_attic s).eq⟩

theorem watchdog_back (h : (s.attic.flash.record.trial && s.attic.flash.record.tried) = true) : Completes .watchdogExpiry s fun t =>
    bankOk s (!s.attic.flash.record.active) = true → t.attic.bank = (!s.attic.flash.record.active)
      ∧ t.attic.flash.record.active = (!s.attic.flash.record.active) ∧ t.attic.flash.record.trial = false
      ∧ t.attic.rollbacks = (if s.attic.rollbacks = 0xFFFF then 0xFFFF else s.attic.rollbacks + 1)
      ∧ t.attic.level = bankLevel s (!s.attic.flash.record.active) ∧ t.attic.recovery = false := by
  refine ⟨_, exec_watchdogExpiry s, fun hok => ?_⟩
  have hb := activationLate_banks s
  rw [← hb.level]
  exact bootRun_back (s := restarted (activationLate s)) h (by rw [hb.bankOk]; exact hok)

theorem watchdog_active (h : (s.attic.flash.record.trial && s.attic.flash.record.tried) = false) : Completes .watchdogExpiry s fun t =>
    bankOk s s.attic.flash.record.active = true → t.attic.bank = s.attic.flash.record.active
      ∧ t.attic.flash.record.active = s.attic.flash.record.active ∧ t.attic.flash.record.trial = s.attic.flash.record.trial
      ∧ t.attic.flash.record.tried = (s.attic.flash.record.tried || s.attic.flash.record.trial)
      ∧ t.attic.rollbacks = s.attic.rollbacks ∧ t.attic.level = bankLevel s s.attic.flash.record.active ∧ t.attic.recovery = false := by
  refine ⟨_, exec_watchdogExpiry s, fun hok => ?_⟩
  have hb := activationLate_banks s
  rw [← hb.level]
  obtain ⟨h1, h2, h3, h4, h5, h6, h7⟩ := bootRun_active (s := restarted (activationLate s)) h (by rw [hb.bankOk]; exact hok)
  exact ⟨h1, h4, h5, h6, h7, h3, h2⟩

/-! ### The end of a restart (R691, R697) -/

/-- An image that does not start: what it activates ends with DENIED. -/
def activationDenied (s : State) : State :=
  { s with attic.activating := s.attic.activating.map (fun a => (a.1, if a.2 = stOk then stDenied else a.2)) }

theorem activationDenied_banks (s : State) : SameBanks s (activationDenied s) :=
  ⟨fun b => by cases b <;> rfl, fun b => by cases b <;> rfl, rfl, rfl, rfl, rfl⟩

theorem exec_atticRestartDone (k : Bool) (s : State) : exec (.atticRestartDone k) s = .next (
    if !s.attic.restarting then s else if k || s.attic.recovery then imageRuns s else imageRuns (bootOther s.attic.bank (activationDenied s))) := by
  change execAtticRestartDone k s = _
  rw [apply_ite Host.Outcome.next, apply_ite Host.Outcome.next]
  rfl

theorem exec_atticRestartDone_runs {k : Bool} (h : s.attic.restarting = true) (hk : (k || s.attic.recovery) = true) :
    exec (.atticRestartDone k) s = .next (imageRuns s) := by
  rw [exec_atticRestartDone, if_neg (by simp [h]), if_pos hk]

theorem exec_atticRestartDone_fails (h : s.attic.restarting = true) (hr : s.attic.recovery = false) :
    exec (.atticRestartDone false) s = .next (imageRuns (bootOther s.attic.bank (activationDenied s))) := by
  rw [exec_atticRestartDone, if_neg (by simp [h]), if_neg (by simp [hr])]

theorem atticRestartDone_runs (h : s.attic.restarting = true) (hr : s.attic.recovery = false) :
    Completes (.atticRestartDone true) s fun t => t.attic.restarting = false ∧ t.attic.bank = s.attic.bank
      ∧ t.attic.runAt = some (s.attic.runAt.getD s.tick.elapsed) ∧ t.larder = s.larder ∧ t.work = s.work := by
  obtain ⟨h1, h2, -, h4, h5⟩ := imageRuns_spec s
  exact ⟨_, exec_atticRestartDone_runs h (Eq.refl true), h1, h2, (imageRuns_kept s).runAt.trans (imageBegun_runAt hr), h4, h5⟩

theorem atticRestartDone_other (h : s.attic.restarting = true) (hr : s.attic.recovery = false) :
    Completes (.atticRestartDone false) s fun t => bankOk s (!s.attic.bank) = true → t.attic.restarting = false ∧ t.attic.bank = (!s.attic.bank)
      ∧ t.attic.flash.record.active = (!s.attic.bank) ∧ t.larder = s.larder ∧ t.work = s.work := by
  refine ⟨_, exec_atticRestartDone_fails h hr, fun hok => ?_⟩
  have hother : bootOther s.attic.bank (activationDenied s) = startImage (!s.attic.bank) (otherReady s.attic.bank (activationDenied s)) :=
    bootOther_ok (by rw [(activationDenied_banks s).bankOk]; exact hok)
  rw [hother]
  have hready : (otherReady s.attic.bank (activationDenied s)).attic.flash.record.active = (!s.attic.bank)
      ∧ (otherReady s.attic.bank (activationDenied s)).larder = s.larder ∧ (otherReady s.attic.bank (activationDenied s)).work = s.work :=
    ⟨rfl, rfl, rfl⟩
  generalize otherReady s.attic.bank (activationDenied s) = v at hready
  obtain ⟨h1, h2, h3, h4, h5⟩ := imageRuns_spec (startImage (!s.attic.bank) v)
  exact ⟨h1, h2, h3.trans hready.1, h4.trans hready.2.1, h5.trans hready.2.2⟩

/-! ### The boot flash (R418, R690, R695) -/

/-- The image write is over. -/
def flashIdle (s : State) : State := { s with attic.flashOp := none }

theorem exec_flashWriteDone (hw : s.attic.flashOp = some w) (ok : Bool) : exec (.flashWriteDone ok) s = .next (
    if ok then fwEnd w.d stOk ((BitVec.ofNat 8 (envLevel w.bytes)).setWidth 64) (setBank w.bank w.bytes (BitVec.ofNat 8 (envLevel w.bytes)) (flashIdle s))
    else fwEnd w.d stDataError 0 (setBank w.bank [] 0 (flashIdle s))) := by
  change execFlashWriteDone ok s = _
  unfold execFlashWriteDone
  rw [hw] <;> rfl

/-- The bank written holds the image and its level, the other what it held. -/
theorem setBank_banks (b : Bool) (bs : List Byte) (lv : BitVec 8) (s : State) : bankBytes (setBank b bs lv s) b = bs
    ∧ bankLevel (setBank b bs lv s) b = lv ∧ bankBytes (setBank b bs lv s) (!b) = bankBytes s (!b)
    ∧ bankLevel (setBank b bs lv s) (!b) = bankLevel s (!b) ∧ (setBank b bs lv s).attic.flashOp = s.attic.flashOp
    ∧ (setBank b bs lv s).larder = s.larder ∧ (setBank b bs lv s).work = s.work := by
  cases b <;> exact ⟨rfl, rfl, rfl, rfl, rfl, rfl, rfl⟩

theorem fwEnd_setBank (st : BitVec 8) (r : Word) (bs : List Byte) (lv : BitVec 8) (w : FlashOp) (s : State) :
    let t := fwEnd w.d st r (setBank w.bank bs lv (flashIdle s))
    t.attic.flashOp = none ∧ flightOf t w.d = none ∧ bankBytes t w.bank = bs ∧ bankLevel t w.bank = lv
      ∧ bankBytes t (!w.bank) = bankBytes s (!w.bank) ∧ bankLevel t (!w.bank) = bankLevel s (!w.bank)
      ∧ t.larder = s.larder ∧ t.work = s.work := by
  have hend := fwEnd_image w.d st r (setBank w.bank bs lv (flashIdle s))
  have hnone := flightOf_fwEnd w.d st r (setBank w.bank bs lv (flashIdle s))
  obtain ⟨h1, h2, h3, h4, h5, h6, h7⟩ := setBank_banks w.bank bs lv (flashIdle s)
  have hbytes : bankBytes (flashIdle s) (!w.bank) = bankBytes s (!w.bank) := by cases w.bank <;> rfl
  have hlevel : bankLevel (flashIdle s) (!w.bank) = bankLevel s (!w.bank) := by cases w.bank <;> rfl
  exact ⟨hend.flashOp.trans h5, hnone, (hend.bytes _).trans h1, (hend.level _).trans h2, (hend.bytes _).trans (h3.trans hbytes),
    (hend.level _).trans (h4.trans hlevel), hend.larder.trans h6, hend.work.trans h7⟩

theorem flashWriteDone_ends (hw : s.attic.flashOp = some w) (ok : Bool) : Completes (.flashWriteDone ok) s fun t =>
    t.attic.flashOp = none ∧ flightOf t w.d = none ∧ bankBytes t w.bank = (if ok then w.bytes else [])
      ∧ bankLevel t w.bank = (if ok then BitVec.ofNat 8 (envLevel w.bytes) else 0)
      ∧ bankBytes t (!w.bank) = bankBytes s (!w.bank) ∧ bankLevel t (!w.bank) = bankLevel s (!w.bank)
      ∧ t.larder = s.larder ∧ t.work = s.work := by
  refine ⟨_, exec_flashWriteDone hw ok, ?_⟩
  cases ok
  · exact fwEnd_setBank ..
  · exact fwEnd_setBank ..

theorem flashWriteDone_idle (hw : s.attic.flashOp = none) (h : s.attic.retireLog = [] ∨ s.attic.restarting = true) (ok : Bool) :
    NoEffect (.flashWriteDone ok) s := by
  change execFlashWriteDone ok s = _
  unfold execFlashWriteDone
  rw [hw]
  dsimp only
  split
  next hlog => exact if_pos (h.resolve_left (by rw [hlog]; exact List.cons_ne_nil _ _))
  next => rfl

theorem flashWriteDone_retires {n : Nat} {ns : List Nat} (hw : s.attic.flashOp = none) (hlog : s.attic.retireLog = n :: ns)
    (hr : s.attic.restarting = false) (ok : Bool) : exec (.flashWriteDone ok) s = .next { s with
      attic.retireLog := ns, attic.flash.retired := s.attic.flash.retired ++ [n] } := by
  change execFlashWriteDone ok s = _
  unfold execFlashWriteDone
  rw [hw]
  dsimp only
  rw [hlog]
  exact if_neg (by simp [hr])

end

end Machine

open Machine

/-- Settles O50: the descriptors by the order of R694, restarts by the boot procedure, the flash by its two writes. -/
theorem firmwareAndRestarts : Obligations.FirmwareAndRestarts := by
  unfold Obligations.FirmwareAndRestarts
  refine ⟨⟨fun s d f h hp hfw ht h1 h2 => fwStage_reads hp hfw h ht h1 h2, fun s d f h hp hfw hbad => fwStage_refused hp hfw h hbad,
      fun s d f h hp hfw hok => fwActivate_waits hp hfw h hok, fun s d f h hp hfw hbad => fwActivate_refused hp hfw h hbad,
      fun s d f h hp hfw ht => fwCommit_commits hp hfw h ht, fun s d f h hp hfw ht => fwCommit_refused hp hfw h ht⟩,
    ⟨fun s d f c op => exec_fw, fun s x xs g => fwPump_waits, fun s d bs => ⟨rfl, rfl, verified_fw_far bs, verified_fw_near bs⟩,
      fun s w f => adminApply_activate, fun s d b => activateApply_starts d, fun s d b => activateApply_refused d, fun _ _ => rfl⟩,
    fun _ => rfl, fun s => watchdog_recovery, fun s h => ⟨exec_atticRestartDone_runs h (Eq.refl true),
      fun hr => exec_atticRestartDone_runs h (by rw [hr]; rfl), exec_atticRestartDone_fails h⟩, fun s d st h => ?_, fun s b lv h => ?_,
    watchdog_restarts, fun s => watchdog_back, fun s => watchdog_active, fun s => atticRestartDone_runs, fun s => atticRestartDone_other,
    fun s b h => (exec_atticRestartDone b s).trans (congrArg Host.Outcome.next (if_pos (by simp [h]))),
    fun s w ok h => flashWriteDone_ends h ok, fun s w h => ⟨exec_flashWriteDone h true, exec_flashWriteDone h false⟩,
    fun s ok hw h => flashWriteDone_idle hw h ok, fun s n ns ok hw hlog hr => flashWriteDone_retires hw hlog hr ok⟩
  · rw [activateDone, h]
  · rw [reportRollback, h]

end Sys2Proof
end

section
/-!
PROOF. Drain, level offers, the sideband and the power cap (R700 to R710, R712, R725 to R737).
-/
namespace Sys2Proof
namespace Machine
set_option Elab.async false

section
variable {s t u : State} {d : DRef} {f : InFlight} {l : LinkId}

/-! ### DRAIN and UNDRAIN (R703 to R706) -/

theorem drain_waits {c : Instr}
    (h : (c = .drain d ∧ Startable s d 0x08 f ∧ dByte f.desc 24 4 ≠ 0) ∨ (c = .undrain d ∧ Startable s d 0x09 f)) :
    Completes c s fun t => t.attic = { s.attic with prepared := s.attic.prepared ++ [⟨d, prepDue s⟩] }
      ∧ (∃ f', flightOf t d = some f' ∧ f'.waits = f.waits + 1) ∧ t = { s with rings := t.rings, attic := t.attic } := by
  rcases h with ⟨rfl, hs, hn⟩ | ⟨rfl, hs⟩
  · exact admin_waits hs.1 (congrArg Host.Outcome.next ((withDesc_of_startable hs _).trans (if_neg hn)))
  · exact admin_waits hs.1 (congrArg Host.Outcome.next (withDesc_of_startable hs _))

theorem drain_bad (hs : Startable s d 0x08 f) (hn : dByte f.desc 24 4 = 0) : exec (.drain d) s = .next (complete d stBad 0 (started d s)) :=
  congrArg Host.Outcome.next ((withDesc_of_startable hs _).trans (if_pos hn))

theorem drain_refused (hs : Startable s d 0x08 f) (hn : dByte f.desc 24 4 = 0) :
    Completes (.drain d) s fun t => flightOf t d = none ∧ HostOnly s t :=
  ⟨_, drain_bad hs hn, flightOf_complete_self .., HostOnly.trans (modFlight_host ..) (complete_host ..)⟩

theorem adminApply_drain {w : AdminWait} (hf : flightOf s w.d = some f) (ho : dOpcode f.desc = 0x08) :
    adminApply w s = drainApply w.d f s := by
  unfold adminApply
  rw [hf]
  dsimp only
  rw [ho] <;> rfl

theorem adminApply_undrain {w : AdminWait} (hf : flightOf s w.d = some f) (ho : dOpcode f.desc = 0x09) :
    adminApply w s = complete w.d stOk 0 { drainsEnd stCancelled s with attic.draining := false, attic.drainedPoint := false } := by
  unfold adminApply
  rw [hf]
  dsimp only
  rw [ho] <;> rfl

theorem drainApply_opens (h : s.attic.drains = []) : drainApply d f s = { s with
    attic.draining := true, attic.drains := [d], attic.drainSince := s.tick.elapsed, attic.drainLimit := dByte f.desc 24 4 } :=
  if_pos (by rw [h]; rfl)

theorem drainApply_joins (h : s.attic.drains ≠ []) : drainApply d f s = { s with attic.drains := s.attic.drains ++ [d] } :=
  if_neg (by simpa using h)

/-- The descriptors of a list complete: host state alone changes, and none of them is in flight. -/
theorem completes_host (st : BitVec 8) : ∀ (ds : List DRef) (s : State), HostOnly s (ds.foldl (fun s d => complete d st 0 s) s)
    ∧ (∀ e, flightOf s e = none → flightOf (ds.foldl (fun s d => complete d st 0 s) s) e = none)
    ∧ ∀ d ∈ ds, flightOf (ds.foldl (fun s d => complete d st 0 s) s) d = none
  | [], s => ⟨.rfl s, fun _ => id, fun _ h => nomatch h⟩
  | d :: ds, s => by
    obtain ⟨hhost, hnone, hall⟩ := completes_host st ds (complete d st 0 s)
    refine ⟨(complete_host ..).trans hhost, fun e he => hnone e (flightOf_complete_none he ..), fun e he => ?_⟩
    rcases List.mem_cons.mp he with rfl | he
    · exact hnone _ (flightOf_complete_self ..)
    · exact hall e he

theorem drainsEnd_spec (st : BitVec 8) (s : State) : HostOnly { s with attic.drains := [] } (drainsEnd st s)
    ∧ (drainsEnd st s).attic = { s.attic with drains := [] } ∧ ∀ d ∈ s.attic.drains, flightOf (drainsEnd st s) d = none := by
  obtain ⟨hhost, -, hall⟩ := completes_host st s.attic.drains { s with attic.drains := [] }
  refine ⟨hhost, ?_, hall⟩
  obtain ⟨x, y, z, he⟩ := hhost
  exact congrArg State.attic he

theorem exec_drainedPoint (s : State) : exec .drainedPoint s = .next (
    if s.tick.slot = 0 && s.attic.draining && !s.attic.drains.isEmpty && !workOpen s && s.route.under.isNone
      && decide (ageLimit s + 2 ≤ ageOf s s.attic.lastEntry) then
    raiseEv 0x21 0 stDrained.toNat 0 (drainsEnd stOk { s with attic.drainedPoint := true }) else s) := by
  change execDrainedPoint s = _
  rw [apply_ite Host.Outcome.next]
  rfl

theorem drainedPoint_ends (h1 : s.tick.slot = 0) (h2 : s.attic.draining = true) (h3 : s.attic.drains ≠ []) (h4 : workOpen s = false)
    (h5 : s.route.under = none) (h6 : ageLimit s + 2 ≤ ageOf s s.attic.lastEntry) :
    Completes .drainedPoint s fun t => t.attic = { s.attic with drains := [], drainedPoint := true }
      ∧ (∀ d ∈ s.attic.drains, flightOf t d = none) ∧ (∃ e ∈ t.counts.sideband, e.code = 0x21) ∧ HostOnly { s with attic := t.attic } t := by
  obtain ⟨hhost, hattic, hall⟩ := drainsEnd_spec stOk { s with attic.drainedPoint := true }
  have hraise := raiseEv_host 0x21 0 stDrained.toNat 0 (drainsEnd stOk { s with attic.drainedPoint := true })
  have hflight : ∀ d, flightOf (raiseEv 0x21 0 stDrained.toNat 0 (drainsEnd stOk { s with attic.drainedPoint := true })) d
      = flightOf (drainsEnd stOk { s with attic.drainedPoint := true }) d := flightOf_of_rings (raise_flight ..)
  have hband := raiseEv_sideband 0x21 0 stDrained.toNat 0 (drainsEnd stOk { s with attic.drainedPoint := true })
  have heq : (raiseEv 0x21 0 stDrained.toNat 0 (drainsEnd stOk { s with attic.drainedPoint := true })).attic
      = { s.attic with drains := [], drainedPoint := true } := by
    rw [hraise.eq]
    exact hattic
  refine ⟨_, (exec_drainedPoint s).trans (congrArg Host.Outcome.next (if_pos (by simp [h1, h2, h3, h4, h5, h6]))), heq,
    fun d hd => (hflight d).trans (hall d hd), ?_, ?_⟩
  · rw [hband]
    exact ⟨_, List.mem_append_right _ (List.mem_singleton_self _), rfl⟩
  · rw [heq]
    exact hhost.trans hraise

theorem drainedPoint_waits (h : s.attic.draining = false ∨ s.attic.drains = [] ∨ workOpen s = true) : NoEffect .drainedPoint s := by
  rw [NoEffect, exec_drainedPoint, if_neg]
  rcases h with h | h | h <;> simp [h]

theorem exec_drainLimitExpired (s : State) : exec .drainLimitExpired s = .next (
    if !s.attic.drains.isEmpty && decide (s.attic.drainLimit ≤ ageOf s s.attic.drainSince) then drainsEnd stTimeout s else s) := rfl

theorem drainLimit_ends (h1 : s.attic.drains ≠ []) (h2 : s.attic.drainLimit ≤ ageOf s s.attic.drainSince) :
    Completes .drainLimitExpired s fun t =>
      t = s.attic.drains.foldl (fun u d => complete d stTimeout 0 u) { s with attic.drains := [] }
      ∧ t.attic = { s.attic with drains := [] } ∧ (∀ d ∈ s.attic.drains, flightOf t d = none) ∧ HostOnly { s with attic := t.attic } t := by
  obtain ⟨hhost, hattic, hall⟩ := drainsEnd_spec stTimeout s
  refine ⟨_, (exec_drainLimitExpired s).trans (congrArg Host.Outcome.next (if_pos (by simp [h1, h2]))), rfl, hattic, hall, ?_⟩
  rw [hattic]
  exact hhost

theorem drainLimit_waits (h : ageOf s s.attic.drainSince < s.attic.drainLimit ∨ s.attic.drains = []) : NoEffect .drainLimitExpired s := by
  rw [NoEffect, exec_drainLimitExpired, if_neg]
  rcases h with h | h
  · simp [Nat.not_le.mpr h]
  · simp [h]

/-! ### Level offers (R700, R701) -/

theorem exec_levelOffer (l) (v : BitVec 8) (s : State) : exec (.levelOffer l v) s = .next (
    if !(link s l).up then s else if s.attic.level.toNat ≤ 3 then { s with attic.offersDropped := s.attic.offersDropped + 1 }
    else modLink l (fun k => { k with offer := some v }) s) := by
  change execLevelOffer l v s = _
  rw [apply_ite Host.Outcome.next, apply_ite Host.Outcome.next]
  rfl

theorem levelOffer_kept {v : BitVec 8} (hup : (link s l).up = true) (h : 3 < s.attic.level.toNat) :
    Completes (.levelOffer l v) s fun t => link t l = { link s l with offer := some v } ∧ (∀ j, j ≠ l → link t j = link s j)
      ∧ t = { s with links := t.links } := by
  refine ⟨modLink l (fun k => { k with offer := some v }) s, ?_, link_setLink_of_up hup, fun j hj => link_setLink_other hj _, rfl⟩
  rw [exec_levelOffer, if_neg (by simp [hup]), if_neg (by omega)]

theorem levelOffer_dropped {v : BitVec 8} (hup : (link s l).up = true) (h : s.attic.level.toNat ≤ 3) :
    exec (.levelOffer l v) s = .next { s with attic.offersDropped := s.attic.offersDropped + 1 } := by
  rw [exec_levelOffer, if_neg (by simp [hup]), if_pos h]

/-! ### The sideband (R710, R725) -/

theorem exec_pldmSensor (h : s.attic.restarting = false) (id : BitVec 16) : exec (.pldmRequest (.getSensor id)) s = .next
    { (pldmReading id.toNat s).2 with attic.pldm := (pldmReading id.toNat s).2.attic.pldm ++ [(id, (pldmReading id.toNat s).1)] } := by
  change execPldmRequest (.getSensor id) s = _
  unfold execPldmRequest
  rw [if_neg (by simp [h])]

/-- A sensor without a reading answers a free value (log 93). -/
theorem pldmReading_free {n : Nat} (h : n = 2 ∨ n = 0 ∨ 6 < n) :
    pldmReading n s = ((Config.freeValue s.free).toNat % 65536, { s with free := s.free + 1 }) := by
  unfold pldmReading
  split
  · omega
  · rfl
  · omega
  · omega
  · omega
  · omega
  · rfl

theorem pldmSensor_free {id : BitVec 16} (hr : s.attic.restarting = false) (h : id = 2 ∨ id = 0 ∨ 6 < id.toNat) :
    exec (.pldmRequest (.getSensor id)) s = .next { s with
      attic.pldm := s.attic.pldm ++ [(id, (Config.freeValue s.free).toNat % 65536)], free := s.free + 1 } := by
  have hn : id.toNat = 2 ∨ id.toNat = 0 ∨ 6 < id.toNat := by
    rcases h with rfl | rfl | h
    · exact .inl rfl
    · exact .inr (.inl rfl)
    · exact .inr (.inr h)
  rw [exec_pldmSensor hr, pldmReading_free hn]

theorem pldmSensor_reads (hr : s.attic.restarting = false) {id : BitVec 16} {n : Nat} (h : pldmReading id.toNat s = (n, s)) :
    exec (.pldmRequest (.getSensor id)) s = .next { s with attic.pldm := s.attic.pldm ++ [(id, n)] } := by
  rw [exec_pldmSensor hr, h]

/-! ### Caps (R717, R725, R726) -/

theorem powerCap_waits (h : Startable s d 0x0A f) : Completes (.powerCap d) s fun t =>
    t.power = { s.power with cmdNew := s.power.cmdNew ++ [⟨d, dByte f.desc 24 2, prepDue s⟩] }
      ∧ (∃ f', flightOf t d = some f' ∧ f'.waits = f.waits + 1) ∧ t = { s with rings := t.rings, power := t.power } :=
  ⟨_, congrArg Host.Outcome.next (withDesc_of_startable h _), rfl, ⟨_, flightOf_addWaits (flightOf_started h.1) 1, rfl⟩, rfl⟩

end

end Machine
end Sys2Proof
end

section
/-!
PROOF. The power measurement of step 11: caps, throttle level, lag, alarm and thermal fraction (R725 to R737).
-/
namespace Sys2Proof
namespace Machine
set_option Elab.async false

section
variable {s t u : State} {d : DRef} {f : InFlight} {c : CapWait} {p : Nat} {j : BitVec 8}

/-! ### Caps that arrived (R726) -/

/-- The caps of the module with those waiting. -/
def capsPut (new : List CapWait) (side cmd : Option Nat) (s : State) : State :=
  { s with power.cmdNew := new, power.sideCap := side, power.sideNew := none, power.cmdCap := cmd }

/-- Nothing arrived on the sideband and nothing is taken up. -/
theorem capsPut_same (h : s.power.sideNew = none) : capsPut s.power.cmdNew s.power.sideCap s.power.cmdCap s = s := by
  rw [capsPut, ← h]

theorem capsPut_unsided (h : s.power.sideNew = none) (new cmd) :
    capsPut new s.power.sideCap cmd s = { s with power.cmdNew := new, power.cmdCap := cmd } := by
  rw [capsPut, ← h]

/-- The POWER_CAPs whose measurement this is. -/
def capsDue (s : State) : List CapWait := s.power.cmdNew.filter (fun c => workDue s c.d c.due)

theorem takeCaps_running (h : s.attic.restarting = false) : takeCaps s =
    (((capsDue s).filter (fun c => !capMissed s c)).map (·.d), ((capsDue s).filter (capMissed s)).foldl (fun s c => complete c.d stOverrun 0 s)
      (capsPut (s.power.cmdNew.filter (fun c => !workDue s c.d c.due))
        (match s.power.sideNew with
          | some w => capOf w
          | none => s.power.sideCap)
        (match ((capsDue s).filter (fun c => !capMissed s c)).getLast? with
          | some c => capOf c.watts
          | none => s.power.cmdCap) s)) := by
  unfold takeCaps
  rw [if_neg (by simp [h])]
  rfl

theorem takeCaps_restarting (h : s.attic.restarting = true) : takeCaps s = ([], s) := if_pos h

theorem takeCaps_sideband {w : Nat} (h : s.attic.restarting = false) (hs : s.power.sideNew = some w) (hc : s.power.cmdNew = []) :
    takeCaps s = ([], { s with power.sideCap := if w = 65535 then none else some w, power.sideNew := none }) := by
  have hdue : capsDue s = [] := by rw [capsDue, hc]; rfl
  rw [takeCaps_running h, hdue, hs, hc]
  change ([], capsPut [] (capOf w) s.power.cmdCap s) = _
  rw [← hc]
  rfl

section
variable (h : s.attic.restarting = false) (hs : s.power.sideNew = none)
include h hs

theorem takeCaps_none (hc : s.power.cmdNew = []) : takeCaps s = ([], s) := by
  have hdue : capsDue s = [] := by rw [capsDue, hc]; rfl
  rw [takeCaps_running h, hdue, hs, hc]
  change ([], capsPut [] s.power.sideCap s.power.cmdCap s) = _
  rw [← hc, capsPut_same hs]

variable (hc : s.power.cmdNew = [c])
include hc

theorem takeCaps_waits (hw : workDue s c.d c.due = false) : takeCaps s = ([], s) := by
  have hdue : capsDue s = [] := by simp [capsDue, hc, hw]
  have hstay : s.power.cmdNew.filter (fun c => !workDue s c.d c.due) = s.power.cmdNew := by simp [hc, hw]
  rw [takeCaps_running h, hdue, hs, hstay]
  change ([], capsPut s.power.cmdNew s.power.sideCap s.power.cmdCap s) = _
  rw [capsPut_same hs]

theorem takeCaps_takes (hw : workDue s c.d c.due = true) (hm : capMissed s c = false) : takeCaps s = ([c.d], { s with
    power.cmdNew := [], power.cmdCap := if c.watts = 65535 then none else some c.watts }) := by
  have hdue : capsDue s = [c] := by simp [capsDue, hc, hw]
  have hstay : s.power.cmdNew.filter (fun c => !workDue s c.d c.due) = [] := by simp [hc, hw]
  have hok : ([c].filter (fun c => !capMissed s c)) = [c] := by simp [hm]
  have hlate : ([c].filter (capMissed s)) = [] := by simp [hm]
  rw [takeCaps_running h, hdue, hs, hstay, hok, hlate]
  change ([c.d], capsPut [] s.power.sideCap (capOf c.watts) s) = _
  rw [capsPut_unsided hs]
  rfl

theorem takeCaps_misses (hw : workDue s c.d c.due = true) (hm : capMissed s c = true) :
    takeCaps s = ([], complete c.d stOverrun 0 { s with power.cmdNew := [] }) := by
  have hdue : capsDue s = [c] := by simp [capsDue, hc, hw]
  have hstay : s.power.cmdNew.filter (fun c => !workDue s c.d c.due) = [] := by simp [hc, hw]
  have hok : ([c].filter (fun c => !capMissed s c)) = [] := by simp [hm]
  have hlate : ([c].filter (capMissed s)) = [c] := by simp [hm]
  rw [takeCaps_running h, hdue, hs, hstay, hok, hlate]
  change ([], complete c.d stOverrun 0 (capsPut [] s.power.sideCap s.power.cmdCap s)) = _
  rw [capsPut_unsided hs]

end

/-! ### The steps of a measurement (R727, R731, R732, R736) -/

/-- The throttle level after a measurement. -/
def kAfter (p : Nat) (s : State) : Nat :=
  if s.power.brake || s.power.supplyHold then 48
  else if !s.power.hold && capTarget s < p then min (s.power.k + ceilDiv (p - capTarget s) 20) 48
  else if !s.power.hold && p + fld (reg s .powerCfg) 0 8 < capTarget s then s.power.k - 1 else s.power.k

/-- Whether the throttle level holds after a measurement. -/
def holdAfter (p : Nat) (s : State) : Bool := !(s.power.brake || s.power.supplyHold) && !s.power.hold && decide (capTarget s < p)

theorem capStep_eq (p) (s : State) : capStep p s = { s with power.k := kAfter p s, power.hold := holdAfter p s } := by
  unfold capStep
  dsimp only
  cases hb : s.power.brake || s.power.supplyHold
  case true =>
    have hk : kAfter p s = 48 := if_pos hb
    have hh : holdAfter p s = false := by simp [holdAfter, hb]
    rw [hk, hh]
    rfl
  case false =>
    cases hh : s.power.hold
    case true =>
      have hk : kAfter p s = s.power.k := by simp [kAfter, hb, hh]
      have hh : holdAfter p s = false := by simp [holdAfter, hh]
      rw [hk, hh]
      rfl
    case false =>
      rw [if_neg Bool.false_ne_true, if_neg Bool.false_ne_true]
      by_cases hp : capTarget s < p
      · have hk : kAfter p s = min (s.power.k + ceilDiv (p - capTarget s) 20) 48 := by simp [kAfter, hb, hh, hp]
        have hh : holdAfter p s = true := by simp [holdAfter, hb, hh, hp]
        rw [hk, hh, if_pos hp]
      · have hhold : holdAfter p s = false := by simp [holdAfter, hh, hp]
        by_cases hp' : p + fld (reg s .powerCfg) 0 8 < capTarget s
        · have hk : kAfter p s = s.power.k - 1 := by simp [kAfter, hb, hh, hp, hp']
          rw [hk, hhold, if_neg hp, if_pos hp']
        · have hk : kAfter p s = s.power.k := by simp [kAfter, hb, hh, hp, hp']
          rw [hk, hhold, if_neg hp, if_neg hp', ← hh]

theorem kAfter_le (h : s.power.k ≤ 48) (p) : kAfter p s ≤ 48 := by
  unfold kAfter
  split
  · exact Nat.le_refl _
  · split
    · exact Nat.min_le_right ..
    · split
      · omega
      · exact h

/-- The thermal fraction after a measurement. -/
def thetaAfter (j : BitVec 8) (n : Nat) : Nat := if 210 ≤ j.toNat then n - 64 else if j.toNat < 200 then min (n + 32) 256 else n

/-- Only host state and the power state differ. -/
def PowerHost (q : Power) (s t : State) : Prop := ∃ x y z, t = { s with enz := x, rings := y, counts := z, power := q }

theorem HostOnly.power {q : Power} (h : HostOnly { s with power := q } t) : PowerHost q s t := by
  obtain ⟨x, y, z, rfl⟩ := h
  exact ⟨x, y, z, Eq.refl _⟩

theorem lagStep_power (p) (s : State) : ∃ a b c, PowerHost { s.power with target := a, met := b, lag := c } s (lagStep p s) := by
  unfold lagStep
  extract_lets q t old u
  have hu : ∃ c, PowerHost { s.power with lag := c } s u := by
    dsimp only [u]
    split
    · obtain ⟨x, y, z, he⟩ := raiseEv_host 0x30 0 (old + t <<< 16) 0 (bumpModule 23 { s with power.lag := true })
      exact ⟨true, x, y, z, he⟩
    · exact ⟨s.power.lag, s.enz, s.rings, s.counts, rfl⟩
  obtain ⟨c, x, y, z, he⟩ := hu
  clear_value u
  subst he
  exact ⟨_, _, _, x, y, z, rfl⟩

theorem alarmStep_of_enough (h : 1150 ≤ capInForce s) : alarmStep s = { s with power.capAlarm := false } := if_pos h

theorem alarmStep_of_raised (h : capInForce s < 1150) (ha : s.power.capAlarm = true) : alarmStep s = s := by
  unfold alarmStep
  dsimp only
  rw [if_neg (Nat.not_le.mpr h), if_pos ha]

theorem alarmStep_of_low (h : capInForce s < 1150) (ha : s.power.capAlarm = false) :
    alarmStep s = raiseEv 0x31 0 (capInForce s) 0 (bumpModule 24 { s with power.capAlarm := true }) := by
  unfold alarmStep
  dsimp only
  rw [if_neg (Nat.not_le.mpr h), if_neg (by simp [ha])]

theorem alarmStep_power (s : State) : ∃ a, PowerHost { s.power with capAlarm := a } s (alarmStep s) := by
  by_cases h : 1150 ≤ capInForce s
  · rw [alarmStep_of_enough h]
    exact ⟨false, s.enz, s.rings, s.counts, rfl⟩
  · cases ha : s.power.capAlarm
    case true =>
      rw [alarmStep_of_raised (Nat.not_le.mp h) ha]
      exact ⟨s.power.capAlarm, s.enz, s.rings, s.counts, rfl⟩
    case false =>
      rw [alarmStep_of_low (Nat.not_le.mp h) ha]
      obtain ⟨x, y, z, he⟩ := raiseEv_host 0x31 0 (capInForce s) 0 (bumpModule 24 { s with power.capAlarm := true })
      exact ⟨true, x, y, z, he⟩

/-- The state in which the thermal step raises its event. -/
def heated (j : BitVec 8) (s : State) : State := { s with power.theta := thetaAfter j s.power.theta, power.junction := j }

theorem thetaStep_eq (j) (s : State) : thetaStep j s =
    if s.power.theta = 256 && thetaAfter j s.power.theta ≠ 256 then raiseEv 0x32 0 (thetaAfter j s.power.theta) 0 (heated j s) else heated j s := rfl

theorem thetaStep_power (j) (s : State) : PowerHost { s.power with theta := thetaAfter j s.power.theta, junction := j } s (thetaStep j s) := by
  rw [thetaStep_eq]
  split
  · exact (raiseEv_host 0x32 0 _ 0 (heated j s)).power (s := s)
  · exact ⟨s.enz, s.rings, s.counts, rfl⟩

theorem exec_powerMeasure (p j) (s : State) : exec (.powerMeasure p j) s = .next (
    if !atStep 11 s || !hits s 64 0 then s else
      (takeCaps (setPhase 12 { s with power.watts := p })).1.foldl (fun u d => complete d stOk (BitVec.ofNat 64 (capInForce u)) u)
        (thetaStep j (alarmStep (capStep p (lagStep p (takeCaps (setPhase 12 { s with power.watts := p })).2))))) := by
  change execPowerMeasure p j s = _
  rw [apply_ite Host.Outcome.next]
  rfl

theorem exec_powerMeasure_due (h1 : atStep 11 s = true) (h2 : hits s 64 0 = true) (p j) : exec (.powerMeasure p j) s = .next
    ((takeCaps (setPhase 12 { s with power.watts := p })).1.foldl (fun u d => complete d stOk (BitVec.ofNat 64 (capInForce u)) u)
      (thetaStep j (alarmStep (capStep p (lagStep p (takeCaps (setPhase 12 { s with power.watts := p })).2))))) := by
  rw [exec_powerMeasure, if_neg (by simp [h1, h2])]

theorem powerMeasure_waits (h : atStep 11 s = false ∨ hits s 64 0 = false) : NoEffect (.powerMeasure p j) s := by
  rw [NoEffect, exec_powerMeasure, if_pos]
  rcases h with h | h <;> simp [h]

/-- The state in which a measurement is evaluated. -/
def measured11 (p : Nat) (s : State) : State := setPhase 12 { s with power.watts := p }

theorem takeCaps_measured (hs : s.power.sideNew = none) (hc : s.power.cmdNew = []) (p) : takeCaps (measured11 p s) = ([], measured11 p s) := by
  cases hr : s.attic.restarting
  case true => exact takeCaps_restarting hr
  case false => exact takeCaps_none hr hs hc

theorem hits_64_iff (h : tickSpan s = 1) : hits s 64 0 = true ↔ (nowTick s).toNat % 64 = 0 := by
  unfold hits
  rw [h, decide_eq_true_iff]
  omega

theorem lagStep_raises (h : capTarget s ≠ s.power.target) (hm : s.power.met = false) (hp : s.power.target < p) :
    lagStep p s =
      let s1 := raiseEv 0x30 0 (s.power.target + capTarget s <<< 16) 0 (bumpModule 23 { s with power.lag := true })
      { s1 with power.target := capTarget s, power.met := decide (p ≤ capTarget s), power.lag := decide (capTarget s < p) } := by
  unfold lagStep
  dsimp only
  obtain ⟨x, y, z, he⟩ := raiseEv_host 0x30 0 (s.power.target + capTarget s <<< 16) 0 (bumpModule 23 { s with power.lag := true })
  have hcond : (capTarget s ≠ s.power.target && !(s.power.met || decide (p ≤ s.power.target))) = true := by simp [h, hm, hp]
  rw [if_pos hcond, if_neg h, he]
  change _ = _
  congr 2

theorem thetaStep_hot (h : s.power.theta = 256) (hj : 210 ≤ j.toNat) :
    thetaStep j s = raiseEv 0x32 0 192 0 { s with power.theta := 192, power.junction := j } := by
  have ht : thetaAfter j s.power.theta = 192 := by rw [h]; exact if_pos hj
  rw [thetaStep_eq, if_pos (by rw [ht, h]; rfl), heated, ht]

/-- The levers of a throttle level (Table 21-7). -/
theorem levers_of_level (k : Nat) : (k ≤ 16 → leverWork k = 256 - 16 * k ∧ leverLarder k = 256 ∧ leverHawk k = 256)
    ∧ (16 < k → k ≤ 32 → leverWork k = 0 ∧ leverLarder k = 256 - 15 * (k - 16) ∧ leverHawk k = 256)
    ∧ (32 < k → k ≤ 48 → leverWork k = 0 ∧ leverLarder k = 16 ∧ leverHawk k = 256 - 16 * (k - 32)) := by
  refine ⟨fun h => ⟨if_pos h, if_pos h, if_pos (by omega)⟩, fun h h' => ⟨if_neg (by omega), ?_, if_pos h'⟩,
    fun h _ => ⟨if_neg (by omega), ?_, if_neg (by omega)⟩⟩
  · exact (if_neg (by omega)).trans (if_pos h')
  · exact (if_neg (by omega)).trans (if_neg (by omega))

theorem capInForce_cases (s : State) : (s.power.sideCap = none → s.power.cmdCap = none → capInForce s = 2400)
    ∧ (∀ a, s.power.sideCap = some a → s.power.cmdCap = none → capInForce s = a)
    ∧ (∀ b, s.power.sideCap = none → s.power.cmdCap = some b → capInForce s = b)
    ∧ (∀ a b, s.power.sideCap = some a → s.power.cmdCap = some b → capInForce s = min a b) := by
  refine ⟨fun h h' => ?_, fun a h h' => ?_, fun b h h' => ?_, fun a b h h' => ?_⟩ <;> rw [capInForce, h, h']

theorem brakeAssert_brakes (h : bit (reg s .powerCfg) 8 = true) :
    exec .brakeAssert s = .next { s with power.brake := true, power.k := 48, power.hold := false } :=
  congrArg Host.Outcome.next (if_pos h)

theorem brakeAssert_ignored (h : bit (reg s .powerCfg) 8 = false) : NoEffect .brakeAssert s :=
  congrArg Host.Outcome.next (if_neg (ne_true_of_eq_false h))

theorem setEffecter_other {e : BitVec 16} (h : e ≠ 1) (w) : NoEffect (.setNumericEffecterValue e w) s :=
  congrArg Host.Outcome.next (if_neg h)

theorem exec_pldmDiscovery (h : s.attic.restarting = false) (c) :
    exec (.pldmRequest (.discovery c)) s = .next { s with attic.pldm := s.attic.pldm ++ [(0, c.toNat)] } :=
  if_neg (ne_true_of_eq_false h)

theorem exec_pldm_restarting (h : s.attic.restarting = true) (r) : NoEffect (.pldmRequest r) s := if_pos h

/-- A measurement with no cap waiting sets level, hold and thermal fraction. -/
theorem powerMeasure_sets (h1 : atStep 11 s = true) (h2 : hits s 64 0 = true) (hs : s.power.sideNew = none) (hc : s.power.cmdNew = []) (p j) :
    Completes (.powerMeasure p j) s fun t => t.power.k = kAfter p s ∧ t.power.hold = holdAfter p s
      ∧ t.power.theta = thetaAfter j s.power.theta ∧ (s.power.k ≤ 48 → t.power.k ≤ 48) ∧ t.power.junction = j ∧ t.power.watts = p
      ∧ capInForce t = capInForce s ∧ HostOnly { s with tick := t.tick, power := t.power } t := by
  have hexec : exec (.powerMeasure p j) s = .next (thetaStep j (alarmStep (capStep p (lagStep p (measured11 p s))))) := by
    rw [exec_powerMeasure_due h1 h2]
    change Host.Outcome.next ((takeCaps (measured11 p s)).1.foldl (fun u d => complete d stOk (BitVec.ofNat 64 (capInForce u)) u)
      (thetaStep j (alarmStep (capStep p (lagStep p (takeCaps (measured11 p s)).2))))) = _
    rw [takeCaps_measured hs hc]
    rfl
  refine ⟨_, hexec, ?_⟩
  obtain ⟨a, b, c, x, y, z, hlag⟩ := lagStep_power p (measured11 p s)
  have hk : kAfter p (lagStep p (measured11 p s)) = kAfter p s := by rw [hlag]; rfl
  have hh : holdAfter p (lagStep p (measured11 p s)) = holdAfter p s := by rw [hlag]; rfl
  have hcap := capStep_eq p (lagStep p (measured11 p s))
  rw [hk, hh, hlag] at hcap
  obtain ⟨e, x', y', z', halarm⟩ := alarmStep_power (capStep p (lagStep p (measured11 p s)))
  obtain ⟨x'', y'', z'', htheta⟩ := thetaStep_power j (alarmStep (capStep p (lagStep p (measured11 p s))))
  rw [hlag] at halarm htheta ⊢
  rw [hcap] at halarm htheta ⊢
  rw [halarm] at htheta ⊢
  rw [htheta]
  exact ⟨rfl, rfl, rfl, fun hle => kAfter_le hle p, rfl, rfl, rfl, x'', y'', z'', rfl⟩

end

end Machine

open Machine

/-- Settles O51: DRAIN, UNDRAIN and POWER_CAP wait for their boundary; the drained point and the limit end every open DRAIN; a
measurement is the chain of its steps (caps, lag, level, alarm, thermal fraction), of which each changes only the power state. -/
theorem drainSidebandAndPower : Obligations.DrainSidebandAndPower := by
  unfold Obligations.DrainSidebandAndPower
  refine ⟨⟨fun s d f c h => drain_waits h, fun s d f h hn => drain_refused h hn, ?admin, fun s d f h hn => drain_bad h hn,
    fun s h1 h2 h3 h4 h5 h6 => drainedPoint_ends h1 h2 h3 h4 h5 h6, fun s h => drainedPoint_waits h,
    fun s h1 h2 => drainLimit_ends h1 h2, fun s h => drainLimit_waits h, ?offer, fun s l v hup h => levelOffer_kept hup h,
    fun s l v hup h => levelOffer_dropped hup h, ?sensor, fun s c h => exec_pldmDiscovery h c,
    fun s r h => exec_pldm_restarting h r, fun s w => rfl, fun s e w h => setEffecter_other h w⟩,
    fun s d f h => powerCap_waits h, fun s p j h1 h2 h3 h4 => powerMeasure_sets h1 h2 h3 h4 p j, fun s h => hits_64_iff h,
    fun s p j h1 h2 => exec_powerMeasure_due h1 h2 p j, fun s p j h => powerMeasure_waits h, fun s h => takeCaps_restarting h,
    fun s w h1 h2 h3 => takeCaps_sideband h1 h2 h3, ?caps, fun s => capInForce_cases s,
    fun s p h1 h2 h3 => lagStep_raises h1 h2 h3,
    fun s => ⟨alarmStep_of_enough, alarmStep_of_raised, alarmStep_of_low⟩, fun s j h1 h2 => thetaStep_hot h1 h2,
    levers_of_level, fun s => ⟨rfl, rfl, rfl, rfl, rfl⟩, fun s h => brakeAssert_brakes h, fun s h => brakeAssert_ignored h,
    fun s => ⟨rfl, rfl, rfl⟩⟩
  case admin =>
    intro s w f hf
    refine ⟨fun ho hd => ?_, fun ho hd => ?_, fun ho => adminApply_undrain hf ho⟩
    · rw [adminApply_drain hf ho, drainApply_opens hd]
    · rw [adminApply_drain hf ho, drainApply_joins hd]
  case offer =>
    intro s l v hup
    rw [NoEffect, exec_levelOffer, if_pos (by simp [hup])]
  case sensor =>
    intro s id hr
    refine ⟨?_, ?_, ?_, ?_, ?_, fun h => pldmSensor_free hr h⟩ <;>
      (rintro rfl; exact pldmSensor_reads hr rfl)
  case caps =>
    intro s c hr hs hc
    exact ⟨takeCaps_waits hr hs hc, takeCaps_takes hr hs hc, takeCaps_misses hr hs hc⟩

end Sys2Proof
end

section
/-!
PROOF. Work that leaves the Strongroom and the instances of the functions as they are, and what an instance that Lockdown stops
makes of them (R682, Table 19-9a).
-/
namespace Sys2Proof
namespace Machine
set_option Elab.async false

section
variable {s t u : State} {k : Fin 256} {f : FnId}

/-- The Strongroom and the instances are as they were. -/
def Rested (s t : State) : Prop := t.strong = s.strong ∧ t.fns = s.fns

theorem Rested.refl (s : State) : Rested s s := ⟨rfl, rfl⟩

theorem Rested.trans (h : Rested s t) (k : Rested t u) : Rested s u := ⟨k.1.trans h.1, k.2.trans h.2⟩

theorem Rested.ite {c : Prop} [Decidable c] {a b : State} (ha : Rested s a) (hb : Rested s b) : Rested s (if c then a else b) := by
  split
  · exact ha
  · exact hb

theorem Rested.foldl {α : Type} {f : State → α → State} (h : ∀ s x, Rested s (f s x)) :
    ∀ (l : List α) (s : State), Rested s (l.foldl f s)
  | [], s => .refl s
  | x :: l, s => (h s x).trans (foldl h l (f s x))

theorem HostOnly.rested (h : HostOnly s t) : Rested s t := by
  obtain ⟨_, _, _, he⟩ := h
  subst he
  exact .refl s

theorem CoreOnly.rested (h : CoreOnly s t) : Rested s t := by
  obtain ⟨_, _, _, _, he⟩ := h
  subst he
  exact .refl s

theorem EnzOnly.rested (h : EnzOnly s t) : Rested s t := by
  obtain ⟨_, he⟩ := h
  subst he
  exact .refl s

/-! ### Operations of groups -/

theorem returnRoom_rested (g r s) : Rested s (returnRoom g r s) := .ite (.refl s) (.refl s)

theorem closeOp_rested (g q o st s) : Rested s (closeOp g q o st s) := by
  unfold closeOp
  extract_lets u v w
  exact (.ite (.foldl (fun _ _ => returnRoom_rested ..) ..) (.refl s) : Rested s u)

theorem failOp_rested (g q st f s) : Rested s (failOp g q st f s) := by
  unfold failOp
  split
  · exact .refl s
  · exact Rested.trans (.foldl (fun _ _ => (sendRecord_core ..).rested) ..) (closeOp_rested ..)

/-! ### Segments and passes of streams -/

theorem endShare_rested (k pass seg o st s) : Rested s (endShare k pass seg o st s) := by
  unfold endShare
  split
  · exact .refl s
  · split
    · exact .refl s
    · extract_lets u
      have hu : Rested s u := .refl s
      refine hu.trans ?_
      unfold sendCounter
      split
      · exact .ite (.refl u) (enqueue_core ..).rested
      · exact .refl u

theorem recordSeg_rested (k pass seg st s) : Rested s (recordSeg k pass seg st s) := by
  unfold recordSeg
  extract_lets v w
  split
  · exact .refl s
  · split
    · exact .refl s
    · split
      · exact (complete_host _ _ _ w).rested
      · exact .refl s

theorem landAudit_rested (k s) : Rested s (landAudit k s) :=
  .foldl (fun v _ => by
    dsimp only
    split
    · exact .refl v
    · exact (auditMismatch_host ..).rested) ..

theorem settleSeg_rested (k pass seg s) : Rested s (settleSeg k pass seg s) := by
  unfold settleSeg
  split
  · exact .refl s
  · extract_lets st v w
    have hw : Rested s w := (hostPut_enz ..).rested
    exact .ite (.refl s) ((hw.trans (recordSeg_rested ..)).trans (landAudit_rested ..))

theorem endAll_rested (k pass seg st s) : Rested s (endAll k pass seg st s) := by
  unfold endAll
  split
  · exact .refl s
  · exact Rested.trans (.foldl (fun _ _ => endShare_rested ..) ..) (settleSeg_rested ..)

theorem writeSegRecord_rested (k pass seg st n m s) : Rested s (writeSegRecord k pass seg st n m s) := (hostPut_enz ..).rested

theorem modStream_rested (k f s) : Rested s (modStream k f s) := .refl s

theorem skipSeg_rested (k pass seg st s) : Rested s (skipSeg k pass seg st s) :=
  (modStream_rested ..).trans ((writeSegRecord_rested ..).trans (recordSeg_rested ..))

theorem streamStop_rested (st k s) : Rested s (streamStop st k s) :=
  ((modStream_rested ..).trans (.foldl (fun _ _ => (complete_host ..).rested) _ _)).trans
    (.foldl (fun _ _ => .foldl (fun _ _ => skipSeg_rested ..) _ _) _ _)

/-! ### Runs of kernels -/

theorem doneFailed_rested (k n g st s) : Rested s (doneFailed k n g st s) :=
  Rested.trans (.refl s) (raiseEv_host _ _ _ _ { s with work.doneFails := s.work.doneFails + 1 }).rested

theorem reportRun_rested (k v r bs s) : Rested s (reportRun k v r bs s) := by
  unfold reportRun
  extract_lets t
  have ht : Rested s t := .refl s
  clear_value t
  refine ht.trans ?_
  split
  · exact ((modFlight_host ..).trans (complete_host ..)).rested
  · split
    · exact .refl t
    · extract_lets
      split
      next h => exact (sendItem_core h).rested
      · exact doneFailed_rested ..
  · exact .ite (inject_core ..).rested (sendFail_core ..).rested

theorem endRun_rested (k r bs s) : Rested s (endRun k r bs s) := reportRun_rested _ _ _ _ (modKernel ..)

theorem settleRun_rested (k n s) : Rested s (settleRun k n s) := by
  unfold settleRun
  split
  · exact .refl s
  · exact .ite (endRun_rested ..) (.refl s)

theorem faultWith_rested (x cause st at_ s) : Rested s (faultWith x cause st at_ s) := by
  unfold faultWith
  extract_lets h
  split
  · exact .refl s
  · exact .ite (settleRun_rested ..) (Rested.trans ((raiseEv_host ..).rested : Rested (modWorkRun ..) _) (settleRun_rested ..))

theorem kernelStopping_rested (k st s) : Rested s (kernelStopping k st s) := .foldl (fun _ _ => endRun_rested ..) ..

/-! ### Queue pairs -/

theorem qpCancel_rested (q st s) : Rested s (qpCancel q st s) := by
  obtain ⟨g, hg⟩ := qpCancel_gw q st s
  exact hg.rested

theorem gwEnd_rested (q d st s) : Rested s (gwEnd q d st s) := (complete_host _ _ _ (modQp ..)).rested

/-! ### An instance that Lockdown stops -/

/-- The work of a function that Lockdown may stop, on entry to Stopping. -/
theorem stopHook_rested (h : isPort f = false) (st s) : Rested s (stopHook f st s) := by
  cases f with
  | port l => cases h
  | sq i => exact (cancelFetched_host ..).rested
  | stream k => exact streamStop_rested ..
  | kernel k => exact kernelStopping_rested ..
  | qp q => exact qpCancel_rested ..
  | _ => exact .refl s

/-- The Strongroom is as it was, and a function that is Stopping stays so. -/
def KeepsStopping (s t : State) : Prop := t.strong = s.strong ∧ ∀ x, fnSt s x = .stopping → fnSt t x = .stopping

theorem Rested.keeps (h : Rested s t) : KeepsStopping s t := ⟨h.1, fun x hx => (congrArg Fn.st (fnOf_of_fns h.2 x)).trans hx⟩

theorem KeepsStopping.trans (h : KeepsStopping s t) (k : KeepsStopping t u) : KeepsStopping s u :=
  ⟨k.1.trans h.1, fun x hx => k.2 x (h.2 x hx)⟩

theorem fnStop_keeps (h : isPort f = false) (st s) : KeepsStopping s (fnStop f st s) := by
  refine ⟨(stopHook_rested h st _).1, fun x hx => ?_⟩
  by_cases hxf : x = f
  · exact hxf ▸ (fnStop_spec f st s).1
  · exact (congrArg Fn.st (fnOf_fnStop_ne hxf (.inl h) st s)).trans hx

/-- A change of an instance's record that keeps its state. -/
theorem setFn_keeps {v : Fn} (h : v.st = fnSt s f) : KeepsStopping s (setFn s f v) := by
  refine ⟨rfl, fun x hx => ?_⟩
  by_cases hxf : x = f
  · subst hxf
    have hv : v.st ≠ .off := by rw [h, hx]; nofun
    exact (congrArg Fn.st (fnOf_setFn_of_st x s hv)).trans (h.trans hx)
  · exact (congrArg Fn.st (fnOf_setFn_ne hxf s v)).trans hx

end

end Machine
end Sys2Proof
end

section
/-!
PROOF. Alarms, SEC_ZEROISE and the Lockdown tick (R679 to R686).
-/
namespace Sys2Proof
namespace Machine
set_option Elab.async false

section
variable {s t u : State} {d : DRef} {f : InFlight} {x : FnId} {b : BitVec 48}

/-! ### The instances that Lockdown stops (R682) -/

/-- The part of LOCKDOWN_ENTER that every instance shares: what waits ends, and an instance that is not yet Stopping stops. -/
def lockHalt (s : State) (f : FnId) : State :=
  let s' := completeAll ((fnOf s f).onWait ++ (fnOf s f).pendWait) stHalt (fnOf s f).gen
    (setFn s f { fnOf s f with onWait := [], pendWait := [], pend := false })
  if (fnOf s f).st = .stopping then s' else fnStop f stHalt s'

theorem lockHalt_keeps (h : isPort x = false) (s : State) : KeepsStopping s (lockHalt s x) ∧ fnSt (lockHalt s x) x = .stopping := by
  have hset : KeepsStopping s (completeAll ((fnOf s x).onWait ++ (fnOf s x).pendWait) stHalt (fnOf s x).gen
      (setFn s x { fnOf s x with onWait := [], pendWait := [], pend := false })) :=
    (setFn_keeps (f := x) (v := { fnOf s x with onWait := [], pendWait := [], pend := false }) rfl).trans (completeAll_host ..).rested.keeps
  by_cases hst : (fnOf s x).st = .stopping
  · have he : lockHalt s x = _ := if_pos hst
    rw [he]
    exact ⟨hset, hset.2 x hst⟩
  · have he : lockHalt s x = _ := if_neg hst
    rw [he]
    exact ⟨hset.trans (fnStop_keeps h ..), (fnStop_spec ..).1⟩

theorem lockKernel_rested (k) (s : State) (r : Run) : Rested s (match limitThread s k r with
    | some t => fault t 0x06 (thr s t).pc s
    | none => settleRun k r.num (modWorkRun k r.num (fun r => { r with status := stHalt }) s)) := by
  split
  · exact faultWith_rested ..
  · exact Rested.trans (.refl s) (settleRun_rested k r.num (modWorkRun ..))

theorem lockStop_rested (s : State) (x) : Rested (lockHalt s x) (lockStop s x) := by
  unfold lockStop
  extract_lets v s1 s2
  change Rested s2 _
  cases x with
  | group g => exact .foldl (fun _ _ => failOp_rested ..) ..
  | stream k => exact .foldl (fun _ _ => endAll_rested ..) ..
  | kernel k => exact .foldl (lockKernel_rested k) ..
  | qp q => exact .foldl (fun _ _ => gwEnd_rested ..) ..
  | _ => exact .refl s2

theorem lockStop_keeps (h : isPort x = false) (s : State) : KeepsStopping s (lockStop s x) ∧ fnSt (lockStop s x) x = .stopping := by
  obtain ⟨hk, hx⟩ := lockHalt_keeps h s
  exact ⟨hk.trans (lockStop_rested s x).keeps, (lockStop_rested s x).keeps.2 x hx⟩

theorem lockStops_keeps : ∀ (xs : List FnId), (∀ x ∈ xs, isPort x = false) → ∀ s : State,
    KeepsStopping s (xs.foldl lockStop s) ∧ ∀ x ∈ xs, fnSt (xs.foldl lockStop s) x = .stopping
  | [], _, s => ⟨(Rested.refl s).keeps, fun _ h => (List.not_mem_nil h).elim⟩
  | x :: xs, hp, s => by
    obtain ⟨hk, hx⟩ := lockStop_keeps (hp x List.mem_cons_self) s
    obtain ⟨hks, hxs⟩ := lockStops_keeps xs (fun y hy => hp y (List.mem_cons_of_mem _ hy)) (lockStop s x)
    refine ⟨hk.trans hks, fun y hy => ?_⟩
    rcases List.mem_cons.mp hy with rfl | hy
    · exact hks.2 _ hx
    · exact hxs y hy

theorem isPort_keyedFns (h : x ∈ keyedFns s) : isPort x = false := by
  simp only [keyedFns, List.mem_filter, List.mem_append, List.mem_map, List.mem_filterMap] at h
  rcases h.1 with ((⟨_, _, rfl⟩ | ⟨_, _, rfl⟩) | ⟨_, _, rfl⟩) | ⟨e, _, he⟩
  · rfl
  · rfl
  · rfl
  · split at he
    · cases he
      rfl
    · cases he

theorem keyedFns_congr (hf : t.fns = s.fns) (hg : t.gw = s.gw) : keyedFns t = keyedFns s := by
  unfold keyedFns
  rw [hg]
  exact List.filter_congr fun x _ => by rw [fnSt, fnSt, fnOf_of_fns hf]

/-! ### Zeroing at the Lockdown tick (R683) -/

/-- What holds of the default and of every value after a change holds of every entry of the changed table. -/
theorem tblGet_tblMap_holds {α : Type} [DecidableEq α] {d : α} {f : Nat → α → α} {P : α → Prop} (hd : P d) (h : ∀ k v, P (f k v)) (k : Nat) :
    ∀ t : Tbl α, P (tblGet d (tblMap d f t) k)
  | [] => hd
  | (i, v) :: t => by
    rw [tblMap]
    split
    · exact tblGet_tblMap_holds hd h k t
    · rw [tblGet]
      split
      · exact h i v
      · exact tblGet_tblMap_holds hd h k t

theorem lockErase_sequence {a : Nat} (h1 : seqBase s ≤ a) (h2 : a < seqBase s + gib / 2) : tblGet 0 (lockErase s).larder.mem a = 0 :=
  tblGet_filter_dropped (p := fun e => !(decide (seqBase s ≤ e.1) && decide (e.1 < seqBase s + gib / 2)))
    (fun _ => by simp [h1, h2]) s.larder.mem

theorem lockErase_thr (h : Thr) (s : State) : (thr (lockErase s) h).s = [] ∧ (thr (lockErase s) h).v = [] ∧ (thr (lockErase s) h).p = []
    ∧ (thr (lockErase s) h).flags = 0 :=
  tblGet_tblMap_holds (P := fun v : Thread => v.s = [] ∧ v.v = [] ∧ v.p = [] ∧ v.flags = 0) ⟨rfl, rfl, rfl, rfl⟩
    (fun _ _ => ⟨rfl, rfl, rfl, rfl⟩) _ s.work.thr

theorem lockDesc_host (s : State) : HostOnly s (lockDesc s) := .foldl (fun _ _ => complete_host ..) ..

/-! ### LOCKDOWN_ENTER (R682, R683, R686) -/

/-- The state in which the Lockdown tick stops the part's work. -/
def lockedDown (s : State) : State := { s with
  strong.lockAt := none, strong.lockdown := true, strong.erased := s.strong.erased || s.strong.lockErase }

/-- The state in which the Lockdown tick stops the part's work, once the encrypted links have been declared failed. -/
def linksLocked (s : State) : State :=
  (allLinks.filter (fun l => bit (reg (lockedDown s) .linkSec l.val) 0 && (link (lockedDown s) l).up)).foldl (fun s l => failNow l 5 s) (lockedDown s)

theorem failNows_links (c : BitVec 8) : ∀ (ls : List LinkId) (s : State), ∃ x, ls.foldl (fun s l => failNow l c s) s = { s with links := x }
  | [], s => ⟨s.links, rfl⟩
  | l :: ls, s => by
    obtain ⟨x, hx⟩ := failNows_links c ls (failNow l c s)
    exact ⟨x, hx⟩

theorem exec_lockdownEnter (hb : s.strong.lockAt = some b) (h0 : s.tick.slot = 0) (hr : reached s b = true) :
    exec .lockdownEnter s = .next (lockErase (lockDesc ((keyedFns (linksLocked s)).foldl lockStop (linksLocked s)))) := by
  change Host.Outcome.next (lockdownEnter s) = _
  unfold lockdownEnter
  rw [hb]
  dsimp only
  rw [if_neg (by simp [h0, hr])]
  rfl

theorem lockdownEnter_waits (h : s.strong.lockAt = none ∨ s.tick.slot ≠ 0) : NoEffect .lockdownEnter s := by
  change Host.Outcome.next (lockdownEnter s) = _
  unfold lockdownEnter
  split
  · rfl
  next hb =>
    rw [if_pos]
    rcases h with h | h
    · rw [h] at hb
      cases hb
    · simp [h]

theorem lockdownEnter_stops (hb : s.strong.lockAt = some b) (h0 : s.tick.slot = 0) (hr : reached s b = true) :
    Completes .lockdownEnter s fun t => t.strong.lockdown = true ∧ t.strong.lockAt = none
      ∧ t.strong.erased = (s.strong.erased || s.strong.lockErase) ∧ t.work.mem = [] ∧ t.larder.partKey = !t.strong.erased
      ∧ (∀ h, (thr t h).s = [] ∧ (thr t h).v = [] ∧ (thr t h).p = [] ∧ (thr t h).flags = 0)
      ∧ (∀ x ∈ keyedFns s, fnSt t x = .stopping) := by
  refine ⟨_, exec_lockdownEnter hb h0 hr, ?_⟩
  obtain ⟨l, hl⟩ : ∃ l, linksLocked s = { lockedDown s with links := l } := failNows_links 5 _ (lockedDown s)
  have hkeyed : keyedFns (linksLocked s) = keyedFns s := by
    rw [hl]
    exact keyedFns_congr rfl rfl
  have hstrong : (linksLocked s).strong = (lockedDown s).strong := by rw [hl]
  obtain ⟨hkeep, hstops⟩ := lockStops_keeps (keyedFns (linksLocked s)) (fun _ => isPort_keyedFns) (linksLocked s)
  have hdesc := (lockDesc_host ((keyedFns (linksLocked s)).foldl lockStop (linksLocked s))).rested.keeps
  rw [hkeyed] at hkeep hstops hdesc ⊢
  have hs := (hkeep.trans hdesc).1.trans hstrong
  have hx := fun x hx => hdesc.2 x (hstops x hx)
  generalize lockDesc ((keyedFns s).foldl lockStop (linksLocked s)) = u at hs hx ⊢
  exact ⟨congrArg Strong.lockdown hs, congrArg Strong.lockAt hs, congrArg Strong.erased hs, rfl, rfl, fun h => lockErase_thr h u, hx⟩

/-! ### The alarm response (R679 to R681) -/

theorem policyOf_congr (h : t.strong = s.strong) (n) : policyOf t n = policyOf s n := by
  unfold policyOf
  rw [h]

/-- Every key is cleared, ALARM_N is driven and the Lockdown tick is set; only host state changes beside. -/
theorem alarmResponse_spec (src : BitVec 8) (e : Bool) (h : HostOnly s u) :
    let t := alarmResponse src e u
    (t.strong.offer = none ∧ t.strong.session = none ∧ t.strong.linkKey = false ∧ t.strong.linkMaster = 0)
      ∧ (t.strong.alarm = true ∧ t.strong.lastSource = src ∧ t.strong.lockAt = some (s.strong.lockAt.getD (s.tick.elapsed + 1))
        ∧ t.strong.lockdown = s.strong.lockdown ∧ t.strong.policy = s.strong.policy)
      ∧ (t.larder.key = [] ∧ t.larder.partKey = false ∧ t.larder.mem = s.larder.mem)
      ∧ HostOnly { s with strong := t.strong, larder := t.larder, links := t.links } t := by
  obtain ⟨x, y, z, rfl⟩ := h
  exact ⟨⟨rfl, rfl, rfl, rfl⟩, ⟨rfl, rfl, rfl, rfl, rfl⟩, ⟨rfl, rfl, rfl⟩, x, y, z, rfl⟩

/-- What the alarm response counts, burns and forgets (R681, R716). -/
theorem alarmResponse_counts (src : BitVec 8) (e : Bool) (s : State) :
    (alarmResponse src e s).strong.lockErase = (s.strong.lockErase || e || decide (64 ≤ s.strong.alarmFuses))
    ∧ (alarmResponse src e s).strong.eraseFuse = (s.strong.eraseFuse || e)
    ∧ (alarmResponse src e s).strong.alarmFuses = min 64 (s.strong.alarmFuses + 1)
    ∧ (alarmResponse src e s).strong.alarms = (if s.strong.alarms = 0xFFFF then 0xFFFF else s.strong.alarms + 1)
    ∧ (alarmResponse src e s).larder.fills = s.larder.fills.filter (fun f => !f.rekey) := by
  refine ⟨rfl, rfl, rfl, ?_, rfl⟩
  change (if s.strong.alarms = 0xFFFF then s.strong.alarms else s.strong.alarms + 1) = _
  split
  next h => exact h
  · rfl

theorem alarmResponse_keyed (src e) (s : State) (l) : (link (alarmResponse src e s) l).keyed = false :=
  tblGet_tblMap_holds (P := fun v : Link => v.keyed = false) rfl (fun _ _ => rfl) _ s.links

/-- What the trip of a sensor tells, whatever its policy. -/
def tripped (n : Fin 8) (s : State) : State := raiseEv 0x70 n.val 0 0 (bumpModule (10 + n.val) s)

theorem tripped_host (n) (s : State) : HostOnly s (tripped n s) := (bumpModule_host ..).trans (raiseEv_host ..)

theorem exec_tamperTrip (n : Fin 8) (s : State) : exec (.tamperTrip n) s = .next
    (if policyOf s n.val = 0 then tripped n s else alarmResponse (BitVec.ofNat 8 n.val) (policyOf s n.val = 2) (tripped n s)) := by
  rw [← policyOf_congr (tripped_host n s).rested.1]
  rfl

theorem tamperTrip_reports {n : Fin 8} (h : policyOf s n.val = 0) : exec (.tamperTrip n) s = .next (tripped n s) := by
  rw [exec_tamperTrip, if_pos h]

theorem tamperTrip_alarms {n : Fin 8} (h : policyOf s n.val ≠ 0) :
    Completes (.tamperTrip n) s fun t => t.strong.offer = none ∧ t.strong.session = none ∧ t.strong.linkKey = false
      ∧ t.strong.linkMaster = 0 ∧ t.strong.alarm = true ∧ t.strong.lastSource = BitVec.ofNat 8 n.val
      ∧ t.strong.lockAt = some (s.strong.lockAt.getD (s.tick.elapsed + 1)) ∧ t.strong.lockdown = s.strong.lockdown
      ∧ t.strong.policy = s.strong.policy ∧ t.larder.key = [] ∧ t.larder.partKey = false ∧ t.larder.mem = s.larder.mem
      ∧ (∀ l, (link t l).keyed = false)
      ∧ (∃ e, t.counts.sideband = s.counts.sideband ++ [e] ∧ e.code = 0x70 ∧ e.unit = BitVec.ofNat 16 n.val)
      ∧ HostOnly { s with strong := t.strong, larder := t.larder, links := t.links } t := by
  refine ⟨_, (exec_tamperTrip n s).trans (congrArg Host.Outcome.next (if_neg h)), ?_⟩
  obtain ⟨⟨h1, h2, h3, h4⟩, ⟨h5, h6, h7, h8, h9⟩, ⟨h10, h11, h12⟩, hhost⟩ :=
    alarmResponse_spec (BitVec.ofNat 8 n.val) (policyOf s n.val = 2) (tripped_host n s)
  have hside : (tripped n s).counts.sideband = s.counts.sideband
      ++ [{ code := 0x70, unit := BitVec.ofNat 16 n.val, detail := 0, gen := 0, tick := nowTick (bumpModule (10 + n.val) s) }] :=
    raiseEv_sideband ..
  exact ⟨h1, h2, h3, h4, h5, h6, h7, h8, h9, h10, h11, h12, alarmResponse_keyed _ _ _, ⟨_, hside, rfl, rfl⟩, hhost⟩

theorem secZeroise_runs (h : Startable s d 0x73 f) : exec (.secZeroise d) s =
    .next (complete d stOk 0 (alarmResponse 0xFE false (raiseEv 0x70 0xFE 0 0 (started d s)))) :=
  congrArg Host.Outcome.next (withDesc_of_startable h _)

theorem secZeroise_alarms (h : Startable s d 0x73 f) :
    Completes (.secZeroise d) s fun t => t.strong.offer = none ∧ t.strong.session = none ∧ t.strong.linkKey = false
      ∧ t.strong.linkMaster = 0 ∧ t.strong.alarm = true ∧ t.strong.lastSource = 0xFE
      ∧ t.strong.lockAt = some (s.strong.lockAt.getD (s.tick.elapsed + 1)) ∧ t.larder.key = [] ∧ t.larder.partKey = false
      ∧ flightOf t d = none ∧ HostOnly { s with strong := t.strong, larder := t.larder, links := t.links } t := by
  refine ⟨_, secZeroise_runs h, ?_⟩
  obtain ⟨⟨h1, h2, h3, h4⟩, ⟨h5, h6, h7, -, -⟩, ⟨h8, h9, -⟩, hhost⟩ := alarmResponse_spec 0xFE false
    ((modFlight_host ..).trans (raiseEv_host 0x70 0xFE 0 0 (started d s)) : HostOnly s _)
  have hflight := flightOf_complete_self d stOk 0 (alarmResponse 0xFE false (raiseEv 0x70 0xFE 0 0 (started d s)))
  obtain ⟨x, y, z, he⟩ := complete_host d stOk 0 (alarmResponse 0xFE false (raiseEv 0x70 0xFE 0 0 (started d s)))
  rw [he] at hflight ⊢
  exact ⟨h1, h2, h3, h4, h5, h6, h7, h8, h9, hflight, hhost.trans ⟨x, y, z, rfl⟩⟩

end

end Machine
end Sys2Proof
end

section
/-!
PROOF. Envelopes and their verification (R663 to R666).
-/
namespace Sys2Proof
namespace Machine
set_option Elab.async false

section
variable {s t u : State} {d : DRef} {f : InFlight} {kind k c : Nat} {bs : List Byte} {v : Verify} {vs : List Verify}

/-! ### The conditions of an envelope (R664) -/

theorem ite_some_eq_none {α : Type} {c : Prop} [Decidable c] {a : α} {o : Option α} :
    (if c then some a else o) = none ↔ ¬c ∧ o = none := by
  split
  next h => exact ⟨nofun, fun h' => (h'.1 h).elim⟩
  next h => exact ⟨fun h' => ⟨h, h'⟩, And.right⟩

theorem envFault_eq_none : envFault s kind bs = none ↔ envLayout kind bs = true
    ∧ anchorOk s kind (leAt bs 16 1) = true ∧ Config.sha384 (slice bs (64 + envPadded bs) 1984) = anchorDigest s (leAt bs 16 1)
    ∧ (leAt bs 20 8 = 0 ∨ leAt bs 20 8 = Config.serial.toNat) ∧ (kind = 1 → s.strong.floor.toNat ≤ envVersion bs)
    ∧ signaturesOk bs = true := by
  unfold envFault
  dsimp only
  simp only [ite_some_eq_none, Bool.not_eq_true', Bool.not_eq_false, Bool.and_eq_true, decide_eq_true_eq, not_and, not_lt,
    ne_eq, not_not, and_true]
  constructor
  · rintro ⟨hl, h1, h2, hd, hv, hf, hs⟩
    have ha : anchorOk s kind (leAt bs 16 1) = true := by
      by_cases hk : kind = 1
      · simpa using h1 hk
      · simpa using h2 hk
    exact ⟨hl, ha, hd, or_iff_not_imp_left.mpr hv, hf, hs⟩
  · rintro ⟨hl, ha, hd, hv, hf, hs⟩
    exact ⟨hl, fun _ => by simp [ha], fun _ => by simp [ha], hd, or_iff_not_imp_left.mp hv, hf, hs⟩

/-- The anchors that may sign (second and third conditions of R664). -/
theorem anchorOk_iff : anchorOk s kind k = true ↔ (kind = 1 ∧ k = 0) ∨ (kind ≠ 1 ∧ k = 0 ∧ s.strong.blown = 0)
    ∨ (kind ≠ 1 ∧ 1 ≤ k ∧ k ≤ 4 ∧ bit s.strong.blown (k - 1) = true ∧ bit s.strong.revoked (k - 1) = false) := by
  unfold anchorOk
  by_cases hk : kind = 1
  · simp [hk]
  · by_cases h0 : k = 0
    · simp [hk, h0]
    · have h1 : 1 ≤ k := Nat.pos_of_ne_zero h0
      simp [hk, h0, h1, and_assoc]

/-! ### The order of verification (R666) -/

theorem verifyLater_last {x : VerifyUse} (h : ∀ y ∈ s.strong.verify, y.at_ < s.tick.ns) :
    verifyLater x bs s = { s with strong.verify := s.strong.verify ++ [⟨x, bs, s.tick.ns⟩] } := by
  have hb : ∀ y ∈ s.strong.verify, verifyBefore s y ⟨x, bs, s.tick.ns⟩ = true := fun y hy => by simp [verifyBefore, h y hy]
  unfold verifyLater
  dsimp only
  rw [List.filter_eq_self.mpr hb, List.filter_eq_nil_iff.mpr fun y hy => by simp [hb y hy]]

/-- The envelope at the front has left the queue. -/
def nextVerify (vs : List Verify) (s : State) : State := { s with strong.verify := vs }

section
variable (hv : s.strong.verify = v :: vs) (hr : s.attic.restarting = false)
include hv hr

theorem verifyDone_eq : exec .envelopeVerifyDone s = .next (match envFault s (verifyKind v.use).1 v.bytes with
    | some c => verified v.use false v.bytes (envRefuse c (verifyKind v.use).2 v.bytes (nextVerify vs s))
    | none => verified v.use true v.bytes (nextVerify vs s)) := by
  change Host.Outcome.next (verifyDone s) = _
  unfold verifyDone
  rw [hv]
  dsimp only
  rw [if_neg (by simp [hr])]
  rfl

theorem verifyDone_accepts (h : envFault s (verifyKind v.use).1 v.bytes = none) :
    exec .envelopeVerifyDone s = .next (verified v.use true v.bytes { s with strong.verify := vs }) := by
  rw [verifyDone_eq hv hr, h]
  rfl

theorem verifyDone_refuses (h : envFault s (verifyKind v.use).1 v.bytes = some c) : exec .envelopeVerifyDone s =
    .next (verified v.use false v.bytes (envRefuse c (verifyKind v.use).2 v.bytes { s with strong.verify := vs })) := by
  rw [verifyDone_eq hv hr, h]
  rfl

end

theorem verifyDone_waits (h : s.strong.verify = [] ∨ s.attic.restarting = true) : NoEffect .envelopeVerifyDone s := by
  change Host.Outcome.next (verifyDone s) = _
  unfold verifyDone
  split
  · rfl
  next hv =>
    rcases h with h | h
    · rw [h] at hv
      cases hv
    · rw [if_pos h]

/-! ### What a refusal changes (R665) -/

/-- The Strongroom is as it was, and no event told is taken back. -/
def Answers (s t : State) : Prop := t.strong = s.strong ∧ ∀ e ∈ s.counts.sideband, e ∈ t.counts.sideband

theorem Answers.of (h : t.strong = s.strong) (hc : t.counts.sideband = s.counts.sideband) : Answers s t := ⟨h, fun _ he => hc ▸ he⟩

theorem Answers.refl (s : State) : Answers s s := .of rfl rfl

theorem Answers.trans (h : Answers s t) (k : Answers t u) : Answers s u := ⟨k.1.trans h.1, fun e he => k.2 e (h.2 e he)⟩

theorem complete_answers (d st r) (s : State) : Answers s (complete d st r s) :=
  .of (complete_host ..).rested.1 (sideband_complete ..)

theorem hostRead_answers (x a n) (s : State) : Answers s (hostRead x a n s) := by
  obtain ⟨y, hy⟩ := hostRead_enz x a n s
  rw [hy]
  exact .refl s

theorem prepareAdmin_answers (d) (s : State) : Answers s (prepareAdmin d s) := by
  unfold prepareAdmin
  split
  · exact .refl s
  · exact .refl s

theorem fwBegin_answers (d) (s : State) : Answers s (fwBegin d s) := by
  rcases fwBegin_cases d s with h | h | h | h | ⟨a, n, h⟩ <;> rw [h]
  · exact .refl s
  · exact complete_answers ..
  · exact prepareAdmin_answers ..
  · exact complete_answers d stOk 0 (committed s)
  · exact hostRead_answers _ _ _ (addWaits d 1 s)

theorem fwRun_answers : ∀ (n) (s : State), Answers s (fwRun n s)
  | 0, s => .refl s
  | n + 1, s => by
    unfold fwRun
    split
    · exact .refl s
    · split
      · exact fwRun_answers n { s with attic.fw := _ }
      · split
        · exact .refl s
        · exact (fwBegin_answers _ (modFlight ..)).trans (fwRun_answers n _)

theorem fwEnd_answers (d st r) (s : State) : Answers s (fwEnd d st r s) := (complete_answers ..).trans (fwRun_answers ..)

/-- The staging area is dropped once nothing stands in it. -/
def stagingDropped (s : State) : State :=
  match s.route.staging with
  | some g => if g.written.isEmpty && g.loads.isEmpty && s.route.switches.all (fun w => w.coat ≠ g.num) then
      { s with route.staging := none } else s
  | none => s

theorem stagingDropped_answers (s : State) : Answers s (stagingDropped s) := by
  unfold stagingDropped
  split
  · split
    · exact .refl s
    · exact .refl s
  · exact .refl s

theorem loadFail_answers (d st) (s : State) : Answers s (loadFail d st s) :=
  (stagingDropped_answers (modStaging (fun g => { g with loads := g.loads.filter (fun l => l.d ≠ d) }) s)).trans (complete_answers ..)

theorem coatRefused_answers (d bs) (s : State) : Answers s (coatVerified d false bs s) := by
  unfold coatVerified
  split
  · split
    · exact .refl s
    · exact loadFail_answers ..
  · exact .refl s

theorem sessionRefused (d bs) (s : State) : sessionDone d false bs s = complete d stDenied 0 s := by
  unfold sessionDone
  split
  · rfl
  · exact if_pos rfl

theorem relights_lanes : ∀ (ls : List LinkId) (s : State), ∃ x, ls.foldl (fun s l => relight l s) s = { s with lanes := x }
  | [], s => ⟨s.lanes, rfl⟩
  | l :: ls, s => by
    obtain ⟨x, hx⟩ := relight_lanes l s
    obtain ⟨y, hy⟩ := relights_lanes ls (relight l s)
    exact ⟨y, by rw [List.foldl_cons, hy, hx]⟩

theorem refused_answers (x : VerifyUse) (bs) (s : State) : Answers s (verified x false bs s) := by
  cases x with
  | coat d => exact coatRefused_answers ..
  | fw d => exact fwEnd_answers ..
  | session d =>
    change Answers s (sessionDone d false bs s)
    rw [sessionRefused]
    exact complete_answers ..
  | bundle => exact .refl s
  | eqTable =>
    obtain ⟨y, hy⟩ := relights_lanes allLinks { s with attic.eqRefused := s.attic.eqRefused + 1 }
    change Answers s (allLinks.foldl (fun s l => relight l s) { s with attic.eqRefused := s.attic.eqRefused + 1 })
    rw [hy]
    exact .refl s

theorem verifyDone_reports (hv : s.strong.verify = v :: vs) (hr : s.attic.restarting = false)
    (h : envFault s (verifyKind v.use).1 v.bytes = some c) :
    Completes .envelopeVerifyDone s fun t => t.strong = { s.strong with verify := vs }
      ∧ (∃ e ∈ t.counts.sideband, e.code = 0x71 ∧ e.detail = BitVec.ofNat 128
          (leAt v.bytes 4 1 + c <<< 8 + (verifyKind v.use).2 <<< 16)) := by
  refine ⟨_, verifyDone_refuses hv hr h, ?_⟩
  obtain ⟨hstrong, hevents⟩ := refused_answers v.use v.bytes (envRefuse c (verifyKind v.use).2 v.bytes (nextVerify vs s))
  have hside := raiseEv_sideband 0x71 0 (leAt v.bytes 4 1 + c <<< 8 + (verifyKind v.use).2 <<< 16) 0 (bumpModule 9 (nextVerify vs s))
  have hhost : HostOnly (nextVerify vs s) (envRefuse c (verifyKind v.use).2 v.bytes (nextVerify vs s)) :=
    (bumpModule_host ..).trans (raiseEv_host ..)
  have htold := hevents _ (hside ▸ List.mem_append_right _ List.mem_cons_self)
  exact ⟨hstrong.trans hhost.rested.1, _, htold, rfl, rfl⟩

/-! ### Bundles and equalisation tables -/

theorem verified_bundle (bs) (s : State) : (verified .bundle true bs s).regs.bundle = some (bundleRecords (envPayload bs))
    ∧ verified .bundle false bs s = releaseWrites s
    ∧ (verified .eqTable false bs s).attic.eqRefused = s.attic.eqRefused + 1
    ∧ (verified .eqTable true bs s).attic.eqBytes = envPayload bs := by
  refine ⟨rfl, rfl, ?_, ?_⟩
  · obtain ⟨y, hy⟩ := relights_lanes allLinks { s with attic.eqRefused := s.attic.eqRefused + 1 }
    change (allLinks.foldl (fun s l => relight l s) { s with attic.eqRefused := s.attic.eqRefused + 1 }).attic.eqRefused = _
    rw [hy]
  · obtain ⟨y, hy⟩ := relights_lanes allLinks (eqAccept bs s)
    change (allLinks.foldl (fun s l => relight l s) (eqAccept bs s)).attic.eqBytes = _
    rw [hy]
    rfl

end

end Machine
end Sys2Proof
end

section
/-!
PROOF. Sessions, provisioning and the other security descriptors (R667 to R670, Tables 19-5 to 19-7a).
-/
namespace Sys2Proof
namespace Machine
set_option Elab.async false

section
variable {s t u : State} {d : DRef} {f : InFlight} {bs r : List Byte} {k : BitVec 256} {o : Offer} {p : Provision}

/-! ### SEC_SESSION_OPEN (R668) -/

/-- The DRBG draws as many free values as it gives blocks, and changes nothing else. -/
theorem drbgBytes_free : ∀ (n : Nat) (s : State), (drbgBytes n s).2 = { s with free := s.free + n }
  | 0, _ => rfl
  | n + 1, s => by
    have ih := drbgBytes_free n (takeFree s).2
    change (drbgBytes n (takeFree s).2).2 = _
    rw [ih]
    change { s with free := s.free + 1 + n } = _
    rw [Nat.add_assoc, Nat.add_comm 1 n]

/-- The random part of an offer and the serial number. -/
def offerHead (s : State) : List Byte := (drbgBytes 156 s).1 ++ leBytes 8 Config.serial.toNat

/-- The digest that both keys sign. -/
def offerDigest (s : State) : List Byte := leBytes 48 (Config.sha384 (offerHead s)).toNat

/-- A new offer stands, and any earlier session is over. -/
def offered (s : State) : State :=
  { (drbgBytes 156 s).2 with strong.offer := some ⟨s.free, offerHead s⟩, strong.session := none }

section
variable (h : Startable s d 0x70 f) (he : s.strong.erased = false)
include h he

theorem sessionOpen_runs (hn : 4629 ≤ dByte f.desc 32 4) : exec (.secSessionOpen d) s = .next (complete d stOk 4629
    (hostPut (dWord f.desc 24) (offerHead (started d s) ++ slice (Config.sign 0 (offerDigest (started d s))) 0 64
      ++ slice (Config.sign 1 (offerDigest (started d s))) 0 3309) (offered (started d s)))) := by
  have he' : ¬(started d s).strong.erased = true := ne_true_of_eq_false he
  refine congrArg Host.Outcome.next ((withDesc_of_startable h _).trans ?_)
  rw [if_neg he', if_neg (Nat.not_lt.mpr hn)]
  rfl

theorem sessionOpen_bad (hn : dByte f.desc 32 4 < 4629) : exec (.secSessionOpen d) s = .next (complete d stBad 0 (started d s)) := by
  have he' : ¬(started d s).strong.erased = true := ne_true_of_eq_false he
  refine congrArg Host.Outcome.next ((withDesc_of_startable h _).trans ?_)
  rw [if_neg he', if_pos hn]

theorem sessionOpen_offers (hn : 4629 ≤ dByte f.desc 32 4) :
    Completes (.secSessionOpen d) s fun t => t.strong.session = none ∧ (∃ o, t.strong.offer = some o ∧ o.draw = s.free)
      ∧ flightOf t d = none ∧ t.free = s.free + 156 ∧ HostOnly { s with strong := t.strong, free := t.free } t := by
  refine ⟨_, sessionOpen_runs h he hn, ?_⟩
  have hfree : (offered (started d s)).free = s.free + 156 := congrArg State.free (drbgBytes_free 156 (started d s))
  have hoffer : ∃ w, offered (started d s) = { s with rings := (started d s).rings, strong := w, free := s.free + 156 }
      ∧ w.session = none ∧ ∃ o, w.offer = some o ∧ o.draw = s.free := by
    unfold offered
    rw [drbgBytes_free]
    exact ⟨_, rfl, rfl, _, rfl, rfl⟩
  obtain ⟨w, hw, hsess, hoff⟩ := hoffer
  generalize offered (started d s) = u at hw hfree ⊢
  generalize offerHead (started d s) ++ _ ++ _ = bytes
  have hput := hostPut_enz (dWord f.desc 24) bytes u
  have hend := complete_host d stOk 4629 (hostPut (dWord f.desc 24) bytes u)
  have hflight := flightOf_complete_self d stOk 4629 (hostPut (dWord f.desc 24) bytes u)
  obtain ⟨x, hx⟩ := hput
  obtain ⟨x', y', z', ht⟩ := hend
  rw [ht] at hflight ⊢
  rw [hx, hw] at hflight ⊢
  exact ⟨hsess, hoff, hflight, rfl, x', y', z', rfl⟩

end

theorem sessionOpen_denied (h : Startable s d 0x70 f) (he : s.strong.erased = true) :
    exec (.secSessionOpen d) s = .next (complete d stDenied 0 (started d s)) := by
  have he' : (started d s).strong.erased = true := he
  refine congrArg Host.Outcome.next ((withDesc_of_startable h _).trans ?_)
  rw [if_pos he']

/-! ### SEC_SESSION_FINISH (R667) -/

theorem sessionFinish_runs (h : Startable s d 0x71 f) : exec (.secSessionFinish d) s = .next
    (if dByte f.desc 32 4 = 0 then complete d stBad 0 (started d s)
      else hostRead (.obj d 0) (dWord f.desc 24) (dByte f.desc 32 4) (addWaits d 1 (started d s))) :=
  congrArg Host.Outcome.next (withDesc_of_startable h _)

/-- A descriptor that reads its object waits for it. -/
theorem objectRead_waits (hf : flightOf s d = some f) (a : Word) (n : Nat) :
    let t := hostRead (.obj d 0) a n (addWaits d 1 (started d s))
    (∃ f', flightOf t d = some f' ∧ f'.waits = f.waits + 1) ∧ t = { s with enz := t.enz, rings := t.rings } := by
  dsimp only
  have hfl := flightOf_addWaits (flightOf_started hf) 1
  obtain ⟨x, hx⟩ := hostRead_enz (.obj d 0) a n (addWaits d 1 (started d s))
  rw [hx]
  exact ⟨⟨_, hfl, rfl⟩, rfl⟩

theorem sessionFinish_reads (h : Startable s d 0x71 f) (hn : 0 < dByte f.desc 32 4) :
    Completes (.secSessionFinish d) s fun t => (∃ f', flightOf t d = some f' ∧ f'.waits = f.waits + 1)
      ∧ t = { s with enz := t.enz, rings := t.rings } :=
  ⟨_, (sessionFinish_runs h).trans (congrArg Host.Outcome.next (if_neg (Nat.ne_of_gt hn))), objectRead_waits h.1 ..⟩

theorem session_derived (he : s.strong.erased = false) (ho : s.strong.offer = some o) (hl : (envPayload bs).length = 1152)
    (hs : slice (envPayload bs) 1120 32 = slice o.bytes 1216 32) : verified (.session d) true bs s =
      complete d stOk 0 { s with strong.session := some (sessionKey o (envPayload bs)), strong.offer := none } := by
  change sessionDone d true bs s = _
  unfold sessionDone
  rw [ho]
  dsimp only
  rw [if_neg (by simp [he, hl, hs])]

theorem session_refused (s : State) (d : DRef) (bs : List Byte) : verified (.session d) false bs s = complete d stDenied 0 s
    ∧ (s.strong.offer = none → verified (.session d) true bs s = complete d stDenied 0 s)
    ∧ (∀ o, s.strong.offer = some o → slice (envPayload bs) 1120 32 ≠ slice o.bytes 1216 32 →
        verified (.session d) true bs s = complete d stDenied 0 s) := by
  refine ⟨sessionRefused d bs s, fun ho => ?_, fun o ho hs => ?_⟩
  · change sessionDone d true bs s = _
    unfold sessionDone
    rw [ho]
  · change sessionDone d true bs s = _
    unfold sessionDone
    rw [ho]
    dsimp only
    rw [if_pos (by simp [hs])]

/-! ### SEC_PROVISION (R669) -/

theorem provision_runs (h : Startable s d 0x72 f) : exec (.secProvision d) s = .next
    (if s.strong.erased || s.strong.session.isNone || s.strong.provision.isSome then complete d stDenied 0 (started d s)
      else if dByte f.desc 32 4 ≠ 156 then complete d stBad 0 (started d s)
      else hostRead (.obj d 0) (dWord f.desc 24) 156 (addWaits d 1 (started d s))) :=
  congrArg Host.Outcome.next (withDesc_of_startable h _)

theorem provision_reads (h : Startable s d 0x72 f) (he : s.strong.erased = false) (hs : s.strong.session.isSome = true)
    (hp : s.strong.provision = none) (hn : dByte f.desc 32 4 = 156) :
    Completes (.secProvision d) s fun t => (∃ f', flightOf t d = some f' ∧ f'.waits = f.waits + 1)
      ∧ t = { s with enz := t.enz, rings := t.rings } := by
  have hopen : ¬(s.strong.erased || s.strong.session.isNone || s.strong.provision.isSome) = true := by
    simp [he, hp, Option.isSome_iff_ne_none.mp hs]
  exact ⟨_, (provision_runs h).trans (congrArg Host.Outcome.next ((if_neg hopen).trans (if_neg (not_not_intro hn)))), objectRead_waits h.1 ..⟩

theorem provision_denied (h : Startable s d 0x72 f) (hs : s.strong.session = none) :
    Completes (.secProvision d) s fun t => flightOf t d = none ∧ HostOnly s t :=
  ⟨_, (provision_runs h).trans (congrArg Host.Outcome.next (if_pos (by simp [hs]))), flightOf_complete_self .., (modFlight_host ..).trans (complete_host ..)⟩

theorem provisionGot_unsealed (hs : s.strong.session = some k) (ho : Config.openRecord k bs = none) :
    provisionGot d stOk bs s = provisionEnd d stDenied s := by
  unfold provisionGot
  rw [if_neg (not_not_intro rfl), hs]
  dsimp only
  rw [ho]

theorem provisionGot_record (hs : s.strong.session = some k) (ho : Config.openRecord k bs = some r) : provisionGot d stOk bs s =
    if s.strong.erased || !recordOk s r then provisionEnd d stDenied s else { s with strong.provision := some ⟨d, r, prepDue s⟩ } := by
  unfold provisionGot
  rw [if_neg (not_not_intro rfl), hs]
  dsimp only
  rw [ho]

theorem recordOk_iff : recordOk s r = true ↔ r.length = 128 ∧ recordZeros r = true ∧ leAt r 2 1 ≤ 4
    ∧ (leAt r 2 1 ≠ 0 → bit s.strong.blown (leAt r 2 1 - 1) = false)
    ∧ (bitsOf (leAt r 1 1) 2 1 = 1 → erasesSome (leAt r 48 2) = true →
      s.strong.eraseArmed = true ∨ bitsOf (leAt r 1 1) 1 1 = 1) := by
  unfold recordOk
  generalize leAt r 2 1 = slot
  generalize bitsOf (leAt r 1 1) 2 1 = sets
  generalize bitsOf (leAt r 1 1) 1 1 = arms
  simp only [Bool.and_eq_true, decide_eq_true_eq, Bool.not_eq_true', Bool.and_eq_false_iff, decide_eq_false_iff_not, Bool.not_eq_false',
    Bool.or_eq_true, ne_eq, and_assoc, not_not]
  rw [or_assoc, ← imp_iff_not_or, ← Bool.not_eq_true, ← Bool.not_eq_true, ← imp_iff_not_or, or_iff_not_imp_left (a := slot = 0)]

/-! ### PROVISION_APPLY (R670, Table 19-7a) -/

theorem provisionEnd_spec (d st) (s : State) : (provisionEnd d st s).strong = { s.strong with session := none, provision := none }
    ∧ flightOf (provisionEnd d st s) d = none ∧ HostOnly { s with strong := { s.strong with session := none, provision := none } } (provisionEnd d st s) := by
  have hend := complete_host d st 0 { s with strong.session := none, strong.provision := none }
  exact ⟨hend.rested.1, flightOf_complete_self .., hend⟩

theorem provisionApply_waits (h : s.strong.provision = none ∨ s.tick.slot ≠ 0) : NoEffect .provisionApply s := by
  change execProvisionApply s = _
  unfold execProvisionApply
  split
  · rfl
  next hp =>
    rw [if_pos]
    rcases h with h | h
    · rw [h] at hp
      cases hp
    · simp [h]

/-- What a provision record leaves once it has taken effect (R670). -/
def provisioned (bs : List Byte) (s : State) : State :=
  if s.strong.lockdown && !s.strong.erased then endLockdown (applyRecord bs s) else applyRecord bs s

section
variable (hp : s.strong.provision = some p) (h0 : s.tick.slot = 0) (hr : reached s p.due = true)
include hp h0 hr

theorem exec_provisionApply : exec .provisionApply s = .next (if s.strong.lockAt.isSome then provisionEnd p.d stHalt s
    else provisionEnd p.d stOk (provisioned p.bytes s)) := by
  change execProvisionApply s = _
  unfold execProvisionApply
  rw [hp]
  dsimp only
  rw [if_neg (by simp [h0, hr])]
  split
  · rfl
  · rfl

theorem provisionApply_halts (hl : s.strong.lockAt.isSome = true) :
    Completes .provisionApply s fun t => t.strong = { s.strong with session := none, provision := none }
      ∧ flightOf t p.d = none ∧ HostOnly { s with strong := t.strong } t := by
  refine ⟨_, (exec_provisionApply hp h0 hr).trans (congrArg Host.Outcome.next (if_pos hl)), ?_⟩
  obtain ⟨hs, hf, hh⟩ := provisionEnd_spec p.d stHalt s
  rw [← hs] at hh
  exact ⟨hs, hf, hh⟩

theorem provisionApply_provisions (hl : s.strong.lockAt = none) :
    Completes .provisionApply s fun t => t.strong.session = none ∧ t.strong.provision = none ∧ flightOf t p.d = none
      ∧ t.strong.policy = (if bitsOf (leAt p.bytes 1 1) 2 1 = 1 then BitVec.ofNat 16 (leAt p.bytes 48 2) else s.strong.policy)
      ∧ t.strong.linkKey = (s.strong.linkKey || bitsOf (leAt p.bytes 1 1) 0 1 = 1)
      ∧ t.strong.revoked = s.strong.revoked ||| BitVec.ofNat 4 (leAt p.bytes 3 1)
      ∧ t.strong.eraseArmed = (s.strong.eraseArmed || bitsOf (leAt p.bytes 1 1) 1 1 = 1)
      ∧ (bitsOf (leAt p.bytes 1 1) 0 1 = 1 → t.strong.linkMaster = BitVec.ofNat 256 (leAt p.bytes 16 32)
          ∧ t.strong.domain = BitVec.ofNat 32 (leAt p.bytes 4 4))
      ∧ (leAt p.bytes 2 1 = 0 → t.strong.blown = s.strong.blown ∧ t.strong.anchors = s.strong.anchors)
      ∧ (leAt p.bytes 2 1 ≠ 0 → t.strong.blown = s.strong.blown ||| BitVec.ofNat 4 (2 ^ (leAt p.bytes 2 1 - 1))
          ∧ t.strong.anchors = tblSet 0 s.strong.anchors (leAt p.bytes 2 1) (BitVec.ofNat 384 (leAt p.bytes 52 48)))
      ∧ (s.strong.lockdown = true → s.strong.erased = false →
          t.strong.lockdown = false ∧ t.strong.alarm = false ∧ t.larder.partKey = true ∧ t.larder.key = allKeys
            ∧ t.larder.fills = s.larder.fills ++ rekeyFills s)
      ∧ (s.strong.erased = true → t.strong.lockdown = s.strong.lockdown ∧ t.larder = s.larder)
      ∧ HostOnly { s with strong := t.strong, larder := t.larder } t := by
  have hopen : ¬s.strong.lockAt.isSome = true := by simp [hl]
  refine ⟨_, (exec_provisionApply hp h0 hr).trans (congrArg Host.Outcome.next (if_neg hopen)), ?_⟩
  have hflight := flightOf_complete_self p.d stOk 0 { provisioned p.bytes s with strong.session := none, strong.provision := none }
  obtain ⟨x, y, z, he⟩ := complete_host p.d stOk 0 { provisioned p.bytes s with strong.session := none, strong.provision := none }
  rw [provisionEnd, he]
  rw [he] at hflight
  by_cases hlock : (s.strong.lockdown && !s.strong.erased) = true
  · have hends : provisioned p.bytes s = endLockdown (applyRecord p.bytes s) := if_pos hlock
    have hkept : s.strong.erased = false := by simp_all
    rw [hends] at hflight ⊢
    exact ⟨rfl, rfl, hflight, rfl, rfl, rfl, rfl, fun h => ⟨if_pos h, if_pos h⟩, fun h => ⟨if_pos h, if_pos h⟩,
      fun h => ⟨if_neg h, if_neg h⟩, fun _ _ => ⟨rfl, rfl, rfl, rfl, rfl⟩, fun h => absurd (h.symm.trans hkept) nofun, x, y, z, rfl⟩
  · have hends : provisioned p.bytes s = applyRecord p.bytes s := if_neg hlock
    rw [hends] at hflight ⊢
    exact ⟨rfl, rfl, hflight, rfl, rfl, rfl, rfl, fun h => ⟨if_pos h, if_pos h⟩, fun h => ⟨if_pos h, if_pos h⟩,
      fun h => ⟨if_neg h, if_neg h⟩, fun h1 h2 => (hlock (by simp [h1, h2])).elim, fun _ => ⟨rfl, rfl⟩, x, y, z, rfl⟩

end

/-! ### SEC_FLOOR_RAISE and SEC_STATE (Table 19-5) -/

/-- The image floor is raised. -/
def floorAt (n : Nat) (s : State) : State := { s with strong.floor := BitVec.ofNat 8 (max s.strong.floor.toNat n) }

theorem floorRaise_runs (h : Startable s d 0x74 f) : exec (.secFloorRaise d) s = .next
    (if dByte f.desc 24 1 = 0 || decide (64 < dByte f.desc 24 1) then complete d stBad 0 (started d s)
      else complete d stOk (BitVec.ofNat 64 (max s.strong.floor.toNat (dByte f.desc 24 1))) (floorAt (dByte f.desc 24 1) (started d s))) :=
  congrArg Host.Outcome.next (withDesc_of_startable h _)

theorem floorRaise_raises (h : Startable s d 0x74 f) (h1 : 1 ≤ dByte f.desc 24 1) (h2 : dByte f.desc 24 1 ≤ 64) :
    Completes (.secFloorRaise d) s fun t =>
      t.strong = { s.strong with floor := BitVec.ofNat 8 (max s.strong.floor.toNat (dByte f.desc 24 1)) }
      ∧ flightOf t d = none ∧ HostOnly { s with strong := t.strong } t := by
  have hrange : ¬(dByte f.desc 24 1 = 0 || decide (64 < dByte f.desc 24 1)) = true := by
    simp only [Bool.or_eq_true, decide_eq_true_eq]
    omega
  refine ⟨_, (floorRaise_runs h).trans (congrArg Host.Outcome.next (if_neg hrange)), ?_⟩
  obtain ⟨x, y, z, he⟩ := complete_host d stOk (BitVec.ofNat 64 (max s.strong.floor.toNat (dByte f.desc 24 1))) (floorAt (dByte f.desc 24 1) (started d s))
  have hf := flightOf_complete_self d stOk (BitVec.ofNat 64 (max s.strong.floor.toNat (dByte f.desc 24 1))) (floorAt (dByte f.desc 24 1) (started d s))
  rw [he] at hf ⊢
  exact ⟨rfl, hf, x, y, z, rfl⟩

theorem secState_runs (h : Startable s d 0x75 f) : exec (.secState d) s = .next (complete d stOk (strongWord s) (started d s)) :=
  congrArg Host.Outcome.next (withDesc_of_startable h _)

end

end Machine

open Machine

/-- Settles O48: every instance that Lockdown stops keeps those that are Stopping and the Strongroom; the alarm response, a session and
a record have their effects of Table 19-5; a refusal changes the queue of envelopes and what it tells alone. -/
theorem strongroomAlarmsAndSessions : Obligations.StrongroomAlarmsAndSessions := by
  unfold Obligations.StrongroomAlarmsAndSessions
  refine ⟨⟨fun s n h => tamperTrip_reports h, fun s n h => tamperTrip_alarms h, fun s d f h => secZeroise_alarms h,
    fun s d f h => secZeroise_runs h, fun s src e => alarmResponse_counts src e s, fun s b hb h0 hr => exec_lockdownEnter hb h0 hr,
    fun s a h1 h2 => lockErase_sequence h1 h2, fun s b hb h0 hr => lockdownEnter_stops hb h0 hr, fun s h => lockdownEnter_waits h⟩,
    fun s kind bs => envFault_eq_none, fun s kind k => anchorOk_iff, fun s u bs h => verifyLater_last h,
    fun s d f h he hn => sessionOpen_runs h he hn, fun s d f h he hn => sessionOpen_offers h he hn,
    fun s d f h => ⟨sessionOpen_denied h, sessionOpen_bad h⟩, fun s d f h => sessionFinish_runs h, fun s d f h => provision_runs h,
    ?sealed, fun s r => recordOk_iff, fun s d f h hn => sessionFinish_reads h hn,
    fun s d f h he hs hp hn => provision_reads h he hs hp hn, fun s d f h hs => provision_denied h hs,
    fun s d f h h1 h2 => floorRaise_raises h h1 h2, fun s d f h => floorRaise_runs h, fun s d f h => secState_runs h,
    fun s p hp h0 hr => exec_provisionApply hp h0 hr, fun s p hp h0 hr hl => provisionApply_provisions hp h0 hr hl,
    fun s p hp h0 hr hl => provisionApply_halts hp h0 hr hl, fun s h => provisionApply_waits h,
    fun s v vs hv hr => ⟨verifyDone_accepts hv hr, fun c => verifyDone_refuses hv hr⟩,
    fun s v vs c hv hr h => verifyDone_reports hv hr h, fun s d bs o he ho hl hs => session_derived he ho hl hs,
    fun s d bs => session_refused s d bs, fun o p => rfl, fun s bs => verified_bundle bs s, fun s h => verifyDone_waits h⟩
  case sealed =>
    intro s d bs k hs
    refine ⟨provisionGot_unsealed hs, fun r ho he hr => ?_, fun r ho hr => ?_⟩
    · rw [provisionGot_record hs ho, if_neg (by simp [he, hr])]
    · rw [provisionGot_record hs ho, if_pos (by simp [hr])]

end Sys2Proof
end

section
/-!
PROOF. The telemetry descriptors, dump channels and the Peephole (R759, R767 to R773).
-/
namespace Sys2Proof
namespace Machine
set_option Elab.async false

section
variable {s t u : State} {d : DRef} {f : InFlight} {c : Fin 4} {b : BitVec 320} {bs : List Byte} {l : LinkId}

/-! ### CTR_READ (R767, R769) -/

theorem ctrRead_runs (h : Startable s d 0x80 f) : exec (.ctrRead d) s = .next (ctrRead d f (started d s)) :=
  congrArg Host.Outcome.next (withDesc_of_startable h _)

theorem ctrRead_bad (h : Startable s d 0x80 f) (hb : dTarget f.desc ≠ 0xFFFF ∨ fld f.desc 272 8 = 0 ∨ 64 < fld f.desc 272 8) :
    exec (.ctrRead d) s = .next (complete d stBad 0 (started d s)) :=
  (ctrRead_runs h).trans (congrArg Host.Outcome.next (if_pos (by simpa [or_assoc] using hb)))

section
variable (h : Startable s d 0x80 f) (ht : dTarget f.desc = 0xFFFF) (h0 : 0 < fld f.desc 272 8) (h64 : fld f.desc 272 8 ≤ 64)
include h ht h0 h64

theorem ctrRead_checked : exec (.ctrRead d) s = .next
    (if !pagesAllowed s f (fld f.desc 256 12) (fld f.desc 272 8) then complete d stDenied 0 (started d s)
      else complete d stOk (s.counts.snapTick.setWidth 64) (hostPut (dWord f.desc 24)
        ((upFrom (fld f.desc 256 12) (fld f.desc 272 8)).flatMap (pageBytes s)) (started d s))) := by
  have hok : ¬(dTarget f.desc ≠ 0xFFFF || fld f.desc 272 8 = 0 || 64 < fld f.desc 272 8) = true := by
    simp [ht, Nat.ne_of_gt h0, h64]
  exact (ctrRead_runs h).trans (congrArg Host.Outcome.next (if_neg hok))

theorem ctrRead_copies (hp : pagesAllowed s f (fld f.desc 256 12) (fld f.desc 272 8) = true) :
    exec (.ctrRead d) s = .next (complete d stOk (s.counts.snapTick.setWidth 64) (hostPut (dWord f.desc 24)
        ((upFrom (fld f.desc 256 12) (fld f.desc 272 8)).flatMap (pageBytes s)) (started d s))) := by
  rw [ctrRead_checked h ht h0 h64, if_neg (by simp [hp])]

theorem ctrRead_denied (hp : pagesAllowed s f (fld f.desc 256 12) (fld f.desc 272 8) = false) :
    exec (.ctrRead d) s = .next (complete d stDenied 0 (started d s)) := by
  rw [ctrRead_checked h ht h0 h64, if_pos (by simp [hp])]

end

/-! ### Dump channels -/

theorem dumpOf_setDump {v : Dump} (hv : v ≠ {}) : dumpOf (setDump c v s) c = v := tblGet_tblSet_of_ne _ _ _ _ hv

theorem dumpOf_setDump_ne {j : Fin 4} (h : j ≠ c) (v : Dump) (s : State) : dumpOf (setDump c v s) j = dumpOf s j :=
  tblGet_tblSet_ne _ _ _ _ _ fun he => h (Fin.ext he)

/-! ### DUMP_CONFIG (R54, R768, R770) -/

/-- Body of a DUMP_CONFIG. -/
abbrev dumpBody (f : InFlight) : BitVec 320 := f.desc.extractLsb' 192 320

theorem dumpConfig_runs (h : Startable s d 0x81 f) : exec (.dumpConfig d) s = .next (dumpConfig d f (started d s)) :=
  congrArg Host.Outcome.next (withDesc_of_startable h _)

theorem dumpConfig_unprivileged (h : Startable s d 0x81 f) (hl : dumpLarder (dumpBody f) = true) (hp : ringPriv s f.ref.sq = false) :
    exec (.dumpConfig d) s = .next (complete d stDenied 0 (started d s)) :=
  (dumpConfig_runs h).trans (congrArg Host.Outcome.next (if_pos (by
    change (dumpLarder (dumpBody f) && !ringPriv s f.ref.sq) = true
    simp [hl, hp])))

/-- The configuration waits for its boundary, and the descriptor with it. -/
def dumpAsked (c : Fin 4) (d : DRef) (f : InFlight) (s : State) : State :=
  setDump c { dumpOf s c with next := some (dumpBody f, prepDue s), tenant := dTenant s f, waits := (dumpOf s c).waits ++ [d] } s

section
variable (h : Startable s d 0x81 f) (hl : dumpLarder (dumpBody f) = true → ringPriv s f.ref.sq = true)
include h hl

theorem dumpConfig_allowed : exec (.dumpConfig d) s = .next
    (if ht : (dTarget f.desc).toNat < 4 then
      if !dumpOk (dumpBody f) then complete d stBad 0 (started d s)
      else if !(dumpRanges (dumpBody f)).all (fun r => pagesAllowed s f r.1 r.2) then complete d stDenied 0 (started d s)
      else addWaits d 1 (dumpAsked ⟨(dTarget f.desc).toNat, ht⟩ d f (started d s))
    else complete d stBad 0 (started d s)) := by
  refine (dumpConfig_runs h).trans (congrArg Host.Outcome.next (if_neg ?_))
  change ¬(dumpLarder (dumpBody f) && !ringPriv s f.ref.sq) = true
  simpa using hl

theorem dumpConfig_bad (hb : 4 ≤ (dTarget f.desc).toNat ∨ dumpOk (dumpBody f) = false) :
    exec (.dumpConfig d) s = .next (complete d stBad 0 (started d s)) := by
  rw [dumpConfig_allowed h hl]
  split
  next ht => rw [if_pos (by simp [hb.resolve_left (Nat.not_le.mpr ht)])]
  · rfl

section
variable (hok : dumpOk (dumpBody f) = true)
include hok

theorem dumpConfig_denied (ht : (dTarget f.desc).toNat < 4) (hr : ∃ r ∈ dumpRanges (dumpBody f), pagesAllowed s f r.1 r.2 = false) :
    exec (.dumpConfig d) s = .next (complete d stDenied 0 (started d s)) := by
  have hall : (dumpRanges (dumpBody f)).all (fun r => pagesAllowed s f r.1 r.2) = false := by
    rw [List.all_eq_false]
    obtain ⟨r, hr, hn⟩ := hr
    exact ⟨r, hr, ne_true_of_eq_false hn⟩
  rw [dumpConfig_allowed h hl, dif_pos ht, if_neg (by simp [hok]), if_pos (by rw [hall]; rfl)]

theorem dumpConfig_waits (hc : (dTarget f.desc).toNat = c.val) (hr : ∀ r ∈ dumpRanges (dumpBody f), pagesAllowed s f r.1 r.2 = true) :
    Completes (.dumpConfig d) s fun t => dumpOf t c = { dumpOf s c with
          next := some (dumpBody f, prepDue s), tenant := dTenant s f, waits := (dumpOf s c).waits ++ [d] }
      ∧ (∀ j, j ≠ c → dumpOf t j = dumpOf s j) ∧ (∃ f', flightOf t d = some f' ∧ f'.waits = f.waits + 1)
      ∧ t = { s with rings := t.rings, counts := t.counts } := by
  have ht : (dTarget f.desc).toNat < 4 := hc ▸ c.isLt
  have hfin : (⟨(dTarget f.desc).toNat, ht⟩ : Fin 4) = c := Fin.ext hc
  refine ⟨_, (dumpConfig_allowed h hl).trans (congrArg Host.Outcome.next ((dif_pos ht).trans ((if_neg (by simp [hok])).trans (if_neg ?_)))), ?_⟩
  · rw [List.all_eq_true.mpr hr]
    exact Bool.false_ne_true
  · rw [hfin]
    have hflight : flightOf (dumpAsked c d f (started d s)) d = some { f with stage := .started } :=
      (flightOf_of_rings (s := started d s) rfl d).trans (flightOf_started h.1)
    exact ⟨dumpOf_setDump (fun he => nomatch congrArg Dump.next he), fun j hj => dumpOf_setDump_ne hj _ (started d s), ⟨_, flightOf_addWaits hflight 1, rfl⟩, rfl⟩

end
end

/-! ### PEEP_CONFIG (R54, R768, R773) -/

/-- The descriptor carries the generation of its port. -/
def peepStarted (l : LinkId) (d : DRef) (s : State) : State := modFlight d (fun g => { g with gen := fnGen s (.port l) }) (started d s)

/-- The Peephole's configuration waits for its boundary, and the descriptor with it. -/
def peepAsked (l : LinkId) (d : DRef) (f : InFlight) (s : State) : State :=
  { s with counts.peep := tblMod {} s.counts.peep l.val (fun p => { p with next := some (dWord f.desc 24, prepDue s), waits := p.waits ++ [d] }) }

theorem peepAsked_ne {j : Nat} (hj : j ≠ l.val) (d f) (s : State) : tblGet {} (peepAsked l d f s).counts.peep j = tblGet {} s.counts.peep j := by
  simp only [peepAsked]
  exact tblGet_tblMod_ne _ hj

theorem peepConfig_other (h : Startable s d 0x82 f) (ht : 96 ≤ (dTarget f.desc).toNat) :
    exec (.peepConfig d) s = .next (complete d stBad 0 (started d s)) :=
  congrArg Host.Outcome.next ((withDesc_of_startable h _).trans (dif_neg (Nat.not_lt.mpr ht)))

section
variable (h : Startable s d 0x82 f) (hl : (dTarget f.desc).toNat = l.val)
include h hl

theorem peepConfig_port : exec (.peepConfig d) s = .next
    (if dGen f.desc ≠ fnGen s (.port l) then complete d stStaleGen 0 (peepStarted l d s)
      else if !ringPriv s f.ref.sq then complete d stDenied 0 (peepStarted l d s)
      else if fld f.desc 224 9 < 64 || 256 < fld f.desc 224 9 || fld f.desc 224 9 % 8 ≠ 0 then complete d stBad 0 (peepStarted l d s)
      else addWaits d 1 (peepAsked l d f (peepStarted l d s))) := by
  have ht : (dTarget f.desc).toNat < 96 := hl ▸ l.isLt
  obtain rfl : l = ⟨(dTarget f.desc).toNat, ht⟩ := Fin.ext hl.symm
  refine congrArg Host.Outcome.next ((withDesc_of_startable h _).trans ?_)
  unfold peepConfig
  rw [dif_pos ht]
  by_cases hg : dGen f.desc = fnGen s (.port ⟨(dTarget f.desc).toNat, ht⟩)
  · rw [if_neg (not_not_intro hg), if_neg]
    · rfl
    · change ¬(!decide (dGen f.desc = fnGen s (.port _))) = true
      simp [hg]
  · rw [if_pos hg, if_pos]
    · rfl
    · change (!decide (dGen f.desc = fnGen s (.port _))) = true
      simp [hg]

theorem peepConfig_stale (hg : dGen f.desc ≠ fnGen s (.port l)) : exec (.peepConfig d) s = .next (complete d stStaleGen 0 (peepStarted l d s)) := by
  rw [peepConfig_port h hl, if_pos hg]

section
variable (hg : dGen f.desc = fnGen s (.port l))
include hg

theorem peepConfig_denied (hp : ringPriv s f.ref.sq = false) : exec (.peepConfig d) s = .next (complete d stDenied 0 (peepStarted l d s)) := by
  rw [peepConfig_port h hl, if_neg (not_not_intro hg), if_pos (by simp [hp])]

theorem peepConfig_bad (hp : ringPriv s f.ref.sq = true)
    (hb : fld f.desc 224 9 < 64 ∨ 256 < fld f.desc 224 9 ∨ fld f.desc 224 9 % 8 ≠ 0) :
    exec (.peepConfig d) s = .next (complete d stBad 0 (peepStarted l d s)) := by
  rw [peepConfig_port h hl, if_neg (not_not_intro hg), if_neg (by simp [hp]), if_pos (by simpa [or_assoc] using hb)]

theorem peepConfig_waits (hp : ringPriv s f.ref.sq = true) (h64 : 64 ≤ fld f.desc 224 9) (h256 : fld f.desc 224 9 ≤ 256)
    (h8 : fld f.desc 224 9 % 8 = 0) :
    Completes (.peepConfig d) s fun t =>
      tblGet {} t.counts.peep l.val = { tblGet {} s.counts.peep l.val with
          next := some (dWord f.desc 24, prepDue s), waits := (tblGet {} s.counts.peep l.val).waits ++ [d] }
      ∧ (∀ j, j ≠ l.val → tblGet {} t.counts.peep j = tblGet {} s.counts.peep j)
      ∧ (∃ f', flightOf t d = some f' ∧ f'.waits = f.waits + 1) ∧ t = { s with rings := t.rings, counts := t.counts } := by
  have hlen : ¬(fld f.desc 224 9 < 64 || 256 < fld f.desc 224 9 || fld f.desc 224 9 % 8 ≠ 0) = true := by
    simp only [Bool.or_eq_true, decide_eq_true_eq]
    omega
  refine ⟨_, (peepConfig_port h hl).trans (congrArg Host.Outcome.next ((if_neg (not_not_intro hg)).trans
    ((if_neg (by simp [hp])).trans (if_neg hlen)))), ?_, fun j hj => ?_, ?_, rfl⟩
  · exact tblGet_tblSet_of_ne _ _ _ _ fun he => nomatch congrArg Peep.next he
  · exact peepAsked_ne hj d f (peepStarted l d s)
  · have hflight : flightOf (peepAsked l d f (peepStarted l d s)) d = some { f with stage := .started, gen := fnGen s (.port l) } :=
      (flightOf_of_rings (s := startedAt d (.port l) s) rfl d).trans (flightOf_startedAt h.1 _)
    exact ⟨_, flightOf_addWaits hflight 1, rfl⟩

end

end

end

/-! ### TELEM_COPY (R768) -/

/-- The bytes of the telemetry area that a TELEM_COPY asks for. -/
abbrev telemPlace (s : State) (f : InFlight) : Place := .larder [(telemBase s + (dWord f.desc 24).toNat, dByte f.desc 40 4)]

/-- The lines that a TELEM_COPY reads have been counted. -/
abbrev telemCounted (f : InFlight) (s : State) : State := countPlace .internal false none (telemPlace s f) s

theorem atticGib_countPlace (cls wr tenant pl) (s : State) : (countPlace cls wr tenant pl s).larder.atticGib = s.larder.atticGib := by
  unfold countPlace
  generalize placeLines pl = xs
  induction xs generalizing s with
  | nil => rfl
  | cons x xs ih =>
    refine (ih _).trans ?_
    unfold countLine
    split
    · rfl
    · rfl

theorem telemBase_counted (f) (s : State) : telemBase (telemCounted f s) = telemBase s := by
  unfold telemBase atticBase
  rw [atticGib_countPlace]

theorem telemCopy_eq (d) (f : InFlight) (s : State) : telemCopy d f s = if !ringPriv s f.ref.sq then complete d stDenied 0 s
    else if dTarget f.desc ≠ 0xFFFF || dByte f.desc 40 4 = 0 || 16777216 < dByte f.desc 40 4
        || telemBytes < (dWord f.desc 24).toNat + dByte f.desc 40 4 then complete d stBad 0 s
      else match placeRead (telemCounted f s) (telemPlace s f) (dByte f.desc 40 4) with
        | some bs => complete d stOk 0 (hostPut (dWord f.desc 32) bs (telemCounted f s))
        | none => complete d stDataError 0 (foundBad 5 (BitVec.ofNat 64 (telemBase (telemCounted f s) + (dWord f.desc 24).toNat)) (telemPlace s f)
            (telemCounted f s)) := by
  unfold telemCopy
  rfl

theorem telemCopy_runs (h : Startable s d 0x83 f) : exec (.telemCopy d) s = .next (telemCopy d f (started d s)) :=
  congrArg Host.Outcome.next (withDesc_of_startable h _)

theorem telemCopy_denied (h : Startable s d 0x83 f) (hp : ringPriv s f.ref.sq = false) :
    exec (.telemCopy d) s = .next (complete d stDenied 0 (started d s)) :=
  (telemCopy_runs h).trans (congrArg Host.Outcome.next (if_pos (by
    change (!ringPriv s f.ref.sq) = true
    simp [hp])))

section
variable (h : Startable s d 0x83 f) (hp : ringPriv s f.ref.sq = true)
include h hp

theorem telemCopy_privileged : exec (.telemCopy d) s = .next
    (if dTarget f.desc ≠ 0xFFFF || dByte f.desc 40 4 = 0 || 16777216 < dByte f.desc 40 4
        || telemBytes < (dWord f.desc 24).toNat + dByte f.desc 40 4 then complete d stBad 0 (started d s)
      else match placeRead (telemCounted f (started d s)) (telemPlace (started d s) f) (dByte f.desc 40 4) with
        | some bs => complete d stOk 0 (hostPut (dWord f.desc 32) bs (telemCounted f (started d s)))
        | none => complete d stDataError 0 (foundBad 5 (BitVec.ofNat 64 (telemBase (started d s) + (dWord f.desc 24).toNat)) (telemPlace (started d s) f)
            (telemCounted f (started d s)))) := by
  have hring : ¬(!ringPriv (started d s) f.ref.sq) = true := by
    change ¬(!ringPriv s f.ref.sq) = true
    simp [hp]
  rw [telemCopy_runs h, telemCopy_eq, if_neg hring, telemBase_counted]

theorem telemCopy_bad (hb : dTarget f.desc ≠ 0xFFFF ∨ dByte f.desc 40 4 = 0 ∨ 16777216 < dByte f.desc 40 4
    ∨ telemBytes < (dWord f.desc 24).toNat + dByte f.desc 40 4) :
    exec (.telemCopy d) s = .next (complete d stBad 0 (started d s)) := by
  rw [telemCopy_privileged h hp, if_pos (by simpa [or_assoc] using hb)]

section
variable (ht : dTarget f.desc = 0xFFFF) (h0 : 0 < dByte f.desc 40 4) (hn : dByte f.desc 40 4 ≤ 16777216)
  (hin : (dWord f.desc 24).toNat + dByte f.desc 40 4 ≤ telemBytes)
include ht h0 hn hin

theorem telemCopy_reads : exec (.telemCopy d) s = .next
    (match placeRead (telemCounted f (started d s)) (telemPlace (started d s) f) (dByte f.desc 40 4) with
      | some bs => complete d stOk 0 (hostPut (dWord f.desc 32) bs (telemCounted f (started d s)))
      | none => complete d stDataError 0 (foundBad 5 (BitVec.ofNat 64 (telemBase (started d s) + (dWord f.desc 24).toNat)) (telemPlace (started d s) f)
          (telemCounted f (started d s)))) := by
  have hok : ¬(dTarget f.desc ≠ 0xFFFF || dByte f.desc 40 4 = 0 || 16777216 < dByte f.desc 40 4
      || telemBytes < (dWord f.desc 24).toNat + dByte f.desc 40 4) = true := by
    simp only [ht, ne_eq, not_true_eq_false, decide_false, Bool.false_or, Bool.or_eq_true, decide_eq_true_eq]
    omega
  rw [telemCopy_privileged h hp, if_neg hok]

theorem telemCopy_copies (hr : placeRead (telemCounted f (started d s)) (telemPlace (started d s) f) (dByte f.desc 40 4) = some bs) :
    exec (.telemCopy d) s = .next (complete d stOk 0 (hostPut (dWord f.desc 32) bs (telemCounted f (started d s)))) := by
  rw [telemCopy_reads h hp ht h0 hn hin, hr]

theorem telemCopy_uncorrectable (hr : placeRead (telemCounted f (started d s)) (telemPlace (started d s) f) (dByte f.desc 40 4) = none) :
    exec (.telemCopy d) s = .next (complete d stDataError 0
      (foundBad 5 (BitVec.ofNat 64 (telemBase (started d s) + (dWord f.desc 24).toNat)) (telemPlace (started d s) f) (telemCounted f (started d s)))) := by
  rw [telemCopy_reads h hp ht h0 hn hin, hr]

end
end

end Machine
end Sys2Proof
end

section
/-!
PROOF. Dumps and the boundary at which telemetry configurations apply (R770 to R773).
-/
namespace Sys2Proof
namespace Machine
set_option Elab.async false

section
variable {s t u : State} {d : DRef} {f : InFlight} {c : Fin 4} {b : BitVec 320} {bs : List Byte} {k : BitVec 48} {w : Word}

/-! ### DUMP_DUE (R44, R771) -/

/-- A dump that falls due while a record is under way. -/
def dumpSkipped (c : Fin 4) (s : State) : State := setPhase 2 (setDump c { dumpOf s c with
  lastDue := some s.tick.elapsed, skipped := if (dumpOf s c).skipped = 0xFFFF then 0xFFFF else (dumpOf s c).skipped + 1 } s)

/-- The record of a dump: its header and a copy of its pages. -/
def dumpRecord (c : Fin 4) (b : BitVec 320) (s : State) : List Byte :=
  dumpHeader (dumpLen b) (dumpOf s c).seq s.counts.snapTick (dumpPages b).length c.val (dumpOf s c).skipped ++ (dumpPages b).flatMap (pageImage s)

/-- A dump that falls due and is kept whole. -/
def dumpKept (c : Fin 4) (b : BitVec 320) (s : State) : State := setPhase 2 (setDump c { dumpOf s c with
  lastDue := some s.tick.elapsed, record := dumpRecord c b s, written := 0, skipped := 0,
  pos := if dumpSize b < (dumpOf s c).pos + dumpLen b then 0 else (dumpOf s c).pos } s)

theorem exec_dumpDue (hb : (dumpOf s c).body = some b) : exec (.dumpDue c) s = .next
    (if !atStep 2 s || dumpPeriod b = 0 || decide (tickSpan s ≤ (nowTick s).toNat % dumpPeriod b)
        || (dumpOf s c).lastDue = some s.tick.elapsed then s
      else if !(dumpOf s c).record.isEmpty then dumpSkipped c s else dumpKept c b s) := by
  change execDumpDue c s = _
  unfold execDumpDue
  extract_lets v
  split
  next h => exact nomatch hb.symm.trans h
  next b' h =>
    obtain rfl : b = b' := Option.some.inj (hb.symm.trans h)
    rfl

theorem dumpDue_waits (h : (dumpOf s c).body = none ∨ atStep 2 s = false ∨ (dumpOf s c).lastDue = some s.tick.elapsed) :
    NoEffect (.dumpDue c) s := by
  cases hb : (dumpOf s c).body
  case none =>
    change execDumpDue c s = _
    unfold execDumpDue
    dsimp only
    rw [hb]
  case some b =>
    have hwait := h.resolve_left (by simp [hb])
    rw [NoEffect, exec_dumpDue hb, if_pos]
    rcases hwait with h | h <;> simp [h]

theorem dumpOf_setPhase (n) (s : State) (c) : dumpOf (setPhase n s) c = dumpOf s c := rfl

theorem dumpDue_falls (hb : (dumpOf s c).body = some b) (h2 : atStep 2 s = true) (hp : dumpPeriod b ≠ 0)
    (hn : (nowTick s).toNat % dumpPeriod b < tickSpan s) (hl : (dumpOf s c).lastDue ≠ some s.tick.elapsed) :
    Completes (.dumpDue c) s fun t => (dumpOf t c).lastDue = some s.tick.elapsed ∧ (dumpOf t c).seq = (dumpOf s c).seq
      ∧ ((dumpOf s c).record ≠ [] → (dumpOf t c).record = (dumpOf s c).record
          ∧ (dumpOf t c).skipped = (if (dumpOf s c).skipped = 0xFFFF then 0xFFFF else (dumpOf s c).skipped + 1))
      ∧ ((dumpOf s c).record = [] → (dumpOf t c).record = dumpHeader (dumpLen b) (dumpOf s c).seq s.counts.snapTick
            (dumpPages b).length c.val (dumpOf s c).skipped ++ (dumpPages b).flatMap (pageImage s)
          ∧ (dumpOf t c).skipped = 0 ∧ (dumpOf t c).written = 0
          ∧ (dumpOf t c).pos = (if dumpSize b < (dumpOf s c).pos + dumpLen b then 0 else (dumpOf s c).pos))
      ∧ (∀ j, j ≠ c → dumpOf t j = dumpOf s j) ∧ t = { s with counts := t.counts, tick := t.tick } := by
  have hdue : ¬(!atStep 2 s || dumpPeriod b = 0 || decide (tickSpan s ≤ (nowTick s).toNat % dumpPeriod b)
      || (dumpOf s c).lastDue = some s.tick.elapsed) = true := by simp [h2, hp, hn, hl]
  have hexec := (exec_dumpDue hb).trans (congrArg Host.Outcome.next (if_neg hdue))
  by_cases hr : (dumpOf s c).record = []
  · refine ⟨_, hexec.trans (congrArg Host.Outcome.next (if_neg (by simp [hr]))), ?_⟩
    have hself : dumpOf (dumpKept c b s) c = { dumpOf s c with
        lastDue := some s.tick.elapsed, record := dumpRecord c b s, written := 0, skipped := 0,
        pos := if dumpSize b < (dumpOf s c).pos + dumpLen b then 0 else (dumpOf s c).pos } :=
      dumpOf_setDump fun he => nomatch congrArg Dump.lastDue he
    dsimp only
    rw [hself]
    exact ⟨rfl, rfl, fun h => (h hr).elim, fun _ => ⟨rfl, rfl, rfl, rfl⟩, fun j hj => dumpOf_setDump_ne hj _ s, rfl⟩
  · refine ⟨_, hexec.trans (congrArg Host.Outcome.next (if_pos (by simp [hr]))), ?_⟩
    have hself : dumpOf (dumpSkipped c s) c = { dumpOf s c with
        lastDue := some s.tick.elapsed, skipped := if (dumpOf s c).skipped = 0xFFFF then 0xFFFF else (dumpOf s c).skipped + 1 } :=
      dumpOf_setDump fun he => nomatch congrArg Dump.lastDue he
    dsimp only
    rw [hself]
    exact ⟨rfl, rfl, fun _ => ⟨rfl, rfl⟩, fun h => (hr h).elim, fun j hj => dumpOf_setDump_ne hj _ s, rfl⟩

/-! ### The bytes of a dump on their way -/

/-- The configurations and records of telemetry, the rings and the Workroom: what bytes on their way to a destination do not change. -/
def dumpSide (s : State) : Tbl Dump × Tbl Peep × Rings × Work := (s.counts.dump, s.counts.peep, s.rings, s.work)

theorem dumpSide_countPlace (cls wr tenant pl) (s : State) : dumpSide (countPlace cls wr tenant pl s) = dumpSide s := by
  unfold countPlace
  generalize placeLines pl = xs
  induction xs generalizing s with
  | nil => rfl
  | cons x xs ih =>
    refine (ih _).trans ?_
    unfold countLine
    split
    · rfl
    · rfl

theorem dumpSide_writeRuns : ∀ (rs : List (Nat × Nat)) (bs : List Byte) (s : State) (ok : Bool),
    dumpSide (writeRuns rs bs s ok).1 = dumpSide s
  | [], _, _, _ => rfl
  | (a, n) :: rs, bs, s, ok => by
    unfold writeRuns
    refine (dumpSide_writeRuns rs _ _ _).trans ?_
    split
    · rfl
    · rfl

theorem dumpSide_dumpPut (c b n bs) (s : State) : dumpSide (dumpPut c b n bs s) = dumpSide s := by
  unfold dumpPut
  split
  · rfl
  · split
    · exact (dumpSide_writeRuns ..).trans (dumpSide_countPlace ..)
    · obtain ⟨x, hx⟩ := hostPut_enz (BitVec.ofNat 64 (dumpDst b + n)) bs s
      rw [hx]
      rfl

theorem dumpOf_of_side (h : dumpSide t = dumpSide s) (c) : dumpOf t c = dumpOf s c :=
  have hdump : t.counts.dump = s.counts.dump := congrArg Prod.fst h
  congrArg (fun x => tblGet ({} : Dump) x c.val) hdump

/-! ### DUMP_RECORD_COMPLETE (R772) -/

/-- A channel whose record is wholly written, after that. -/
def countedDump (v : Dump) : Dump := { v with record := [], written := 0, seq := v.seq + 1, pos := v.pos + v.record.length }

theorem countedDump_ne {v : Dump} (h : v.body = some b) : countedDump v ≠ {} := fun he => by
  have hnone : v.body = none := (congrArg Dump.body he :)
  exact nomatch h.symm.trans hnone

/-- The record that is wholly written has been counted. -/
def recordCounted (c : Fin 4) (s : State) : State := setDump c (countedDump (dumpOf s c)) s

theorem exec_recordComplete (hb : (dumpOf s c).body = some b) : exec (.dumpRecordComplete c) s = .next
    (if (dumpOf s c).record.isEmpty || decide ((dumpOf s c).written < (dumpOf s c).record.length) then s
      else dumpPut c b (dumpOf s c).pos ((dumpOf s c).record.take 32) (recordCounted c s)) := by
  change execDumpRecordComplete c s = _
  unfold execDumpRecordComplete
  extract_lets v
  split
  next h => exact nomatch hb.symm.trans h
  next b' h =>
    obtain rfl : b = b' := Option.some.inj (hb.symm.trans h)
    rfl

theorem recordComplete_waits (h : (dumpOf s c).body = none ∨ (dumpOf s c).record = [] ∨ (dumpOf s c).written < (dumpOf s c).record.length) :
    NoEffect (.dumpRecordComplete c) s := by
  cases hb : (dumpOf s c).body
  case none =>
    change execDumpRecordComplete c s = _
    unfold execDumpRecordComplete
    dsimp only
    rw [hb]
  case some b =>
    have hwait := h.resolve_left (by simp [hb])
    rw [NoEffect, exec_recordComplete hb, if_pos]
    rcases hwait with h | h <;> simp [h]

section
variable (hb : (dumpOf s c).body = some b) (hr : (dumpOf s c).record ≠ []) (hw : (dumpOf s c).record.length ≤ (dumpOf s c).written)
include hb hr hw

theorem recordComplete_writes : exec (.dumpRecordComplete c) s = .next
    (dumpPut c b (dumpOf s c).pos ((dumpOf s c).record.take 32) (recordCounted c s)) := by
  rw [exec_recordComplete hb, if_neg (by simp [hr, hw])]

theorem recordComplete_counts : Completes (.dumpRecordComplete c) s fun t => dumpOf t c = { dumpOf s c with
      record := [], written := 0, seq := (dumpOf s c).seq + 1, pos := (dumpOf s c).pos + (dumpOf s c).record.length }
    ∧ (∀ j, j ≠ c → dumpOf t j = dumpOf s j) ∧ t.work = s.work := by
  refine ⟨_, recordComplete_writes hb hr hw, ?_⟩
  have hside := dumpSide_dumpPut c b (dumpOf s c).pos ((dumpOf s c).record.take 32) (recordCounted c s)
  have hwork := congrArg (fun x => x.2.2.2) hside
  exact ⟨(dumpOf_of_side hside c).trans (dumpOf_setDump (countedDump_ne hb)), fun j hj => (dumpOf_of_side hside j).trans (dumpOf_setDump_ne hj (countedDump (dumpOf s c)) s), hwork⟩

end

/-! ### The boundary at which configurations apply (R770, R773) -/

/-- The configuration of a dump channel that is due applies. -/
def dumpApplied (s : State) (v : Dump) : Dump :=
  match v.next with
  | some (b, t) => if reached s t then { body := if dumpPeriod b = 0 then none else some b, tenant := v.tenant } else v
  | none => v

/-- The configuration of the Peephole at a port that is due applies. -/
def peepApplied (s : State) (p : Peep) : Peep :=
  match p.next with
  | some (w, t) => if reached s t then { cfg := w } else p
  | none => p

/-- A configuration is due. -/
def telemDue {α : Type} (s : State) (n : Option (α × BitVec 48)) : Bool :=
  match n with
  | some (_, t) => reached s t
  | none => false

/-- The descriptors that complete at this boundary. -/
def telemWaits (s : State) : List DRef :=
  s.counts.dump.flatMap (fun e => if telemDue s e.2.next then e.2.waits else [])
    ++ s.counts.peep.flatMap (fun e => if telemDue s e.2.next then e.2.waits else [])

/-- The configurations that are due stand. -/
def telemApplied (s : State) : State := { s with
  counts.dump := tblMap {} (fun _ => dumpApplied s) s.counts.dump, counts.peep := tblMap {} (fun _ => peepApplied s) s.counts.peep,
  counts.sampled := 0 }

theorem mem_of_tblGet {α : Type} {d : α} {k : Nat} : ∀ {t : Tbl α}, tblGet d t k ≠ d → (k, tblGet d t k) ∈ t
  | [], h => (h rfl).elim
  | (i, v) :: t, h => by
    rw [tblGet] at h ⊢
    split
    next hi =>
      subst hi
      exact List.mem_cons_self
    next hi =>
      rw [if_neg hi] at h
      exact List.mem_cons_of_mem _ (mem_of_tblGet h)

theorem mem_telemWaits_dump (hn : (dumpOf s c).next = some (b, k)) (hr : reached s k = true) (hd : d ∈ (dumpOf s c).waits) : d ∈ telemWaits s := by
  have hmem : (c.val, dumpOf s c) ∈ s.counts.dump := mem_of_tblGet fun he => nomatch hn.symm.trans (congrArg Dump.next he)
  refine List.mem_append_left _ (List.mem_flatMap.mpr ⟨_, hmem, ?_⟩)
  have hdue : telemDue s (some (b, k)) = true := hr
  dsimp only
  rw [hn, if_pos hdue]
  exact hd

theorem mem_telemWaits_peep {l : Nat} (hn : (tblGet {} s.counts.peep l).next = some (w, k)) (hr : reached s k = true)
    (hd : d ∈ (tblGet {} s.counts.peep l).waits) : d ∈ telemWaits s := by
  have hmem : (l, tblGet {} s.counts.peep l) ∈ s.counts.peep := mem_of_tblGet fun he => nomatch hn.symm.trans (congrArg Peep.next he)
  refine List.mem_append_right _ (List.mem_flatMap.mpr ⟨_, hmem, ?_⟩)
  have hdue : telemDue s (some (w, k)) = true := hr
  dsimp only
  rw [hn, if_pos hdue]
  exact hd

/-- The configurations of telemetry: what no completion changes. -/
def telemOf (s : State) : Tbl Dump × Tbl Peep := (s.counts.dump, s.counts.peep)

theorem EnzOnly.telemOf (h : EnzOnly s t) : telemOf t = telemOf s := congrArg (fun c : Counts => (c.dump, c.peep)) h.counts_eq

theorem telemOf_putCompletion (j f st r) (s : State) : telemOf (putCompletion j f st r s) = telemOf s :=
  have hbump : ∀ u, telemOf (bumpModule 22 u) = telemOf u := fun _ => rfl
  (hbump _).trans (EnzOnly.telemOf (toHost_enz _ (fun _ => (sendFrame_enz ..).trans (consumerPut_enz ..)) s))

theorem telemOf_complete (d st r) (s : State) : telemOf (complete d st r s) = telemOf s := by
  unfold complete
  split
  · rfl
  · extract_lets j t
    split
    · rfl
    · refine (congrArg (fun c : Counts => (c.dump, c.peep)) (counts_cqModerate ..)).trans ?_
      exact telemOf_putCompletion _ _ _ _ t

theorem telemOf_completes : ∀ (ds : List DRef) (s : State), telemOf (ds.foldl (fun s d => complete d stOk 0 s) s) = telemOf s
  | [], _ => rfl
  | d :: ds, s => (telemOf_completes ds (complete d stOk 0 s)).trans (telemOf_complete ..)

/-- One channel's share of a tick. -/
def dumpShare (s : State) (c : Fin 4) : State :=
  match (dumpOf s c).body with
  | none => s
  | some b =>
    if (dumpOf s c).record.isEmpty then s
    else dumpPut c b ((dumpOf s c).pos + 32 + (dumpOf s c).written)
      ((((dumpOf s c).record.drop 32).drop (dumpOf s c).written).take
        (min (dumpOf s c).record.length ((dumpOf s c).written + if dumpLarder b then 65536 else 8192) - (dumpOf s c).written))
      (setDump c { dumpOf s c with
        written := min (dumpOf s c).record.length ((dumpOf s c).written + if dumpLarder b then 65536 else 8192) } s)

theorem dumpTick_eq (s : State) : dumpTick s = (List.finRange 4).foldl dumpShare s := rfl

theorem dumpPut_setDump_keeps (c b n bs v) (s : State) : (dumpPut c b n bs (setDump c v s)).counts.peep = s.counts.peep
    ∧ (dumpPut c b n bs (setDump c v s)).rings = s.rings ∧ ∀ j, j ≠ c → dumpOf (dumpPut c b n bs (setDump c v s)) j = dumpOf s j := by
  have hside := dumpSide_dumpPut c b n bs (setDump c v s)
  exact ⟨congrArg (fun x => x.2.1) hside, congrArg (fun x => x.2.2.1) hside,
    fun j hj => (dumpOf_of_side hside j).trans (dumpOf_setDump_ne hj v s)⟩

/-- A channel's share changes no Peephole and no ring, and of the channels itself alone, and that only while it has a record. -/
theorem dumpShare_keeps (s : State) (c : Fin 4) : (dumpShare s c).counts.peep = s.counts.peep ∧ (dumpShare s c).rings = s.rings
    ∧ ∀ j, (dumpOf s j).record = [] → dumpOf (dumpShare s c) j = dumpOf s j := by
  unfold dumpShare
  split
  · exact ⟨rfl, rfl, fun _ _ => rfl⟩
  · split
    · exact ⟨rfl, rfl, fun _ _ => rfl⟩
    next hr =>
      obtain ⟨hp, hrings, hd⟩ := dumpPut_setDump_keeps ..
      exact ⟨hp, hrings, fun j hj => hd j fun he => hr (by rw [← he, hj]; rfl)⟩

theorem dumpShares_keep : ∀ (cs : List (Fin 4)) (s : State), (cs.foldl dumpShare s).counts.peep = s.counts.peep
    ∧ (cs.foldl dumpShare s).rings = s.rings ∧ ∀ j, (dumpOf s j).record = [] → dumpOf (cs.foldl dumpShare s) j = dumpOf s j
  | [], _ => ⟨rfl, rfl, fun _ _ => rfl⟩
  | c :: cs, s => by
    obtain ⟨hp, hr, hd⟩ := dumpShare_keeps s c
    obtain ⟨hp', hr', hd'⟩ := dumpShares_keep cs (dumpShare s c)
    exact ⟨hp'.trans hp, hr'.trans hr, fun j hj => (hd' j (by rw [hd j hj, hj])).trans (hd j hj)⟩

theorem telemBoundary_eq (s : State) : telemBoundary s = dumpTick ((telemWaits s).foldl (fun s d => complete d stOk 0 s) (telemApplied s)) := rfl

theorem telemBoundary_completes (hd : d ∈ telemWaits s) : flightOf (telemBoundary s) d = none := by
  obtain ⟨-, -, hall⟩ := completes_host stOk (telemWaits s) (telemApplied s)
  rw [telemBoundary_eq, dumpTick_eq]
  exact (flightOf_of_rings (congrArg Rings.flight (dumpShares_keep _ _).2.1) d).trans (hall d hd)

theorem telemBoundary_dump (hwf : tblWf {} s.counts.dump = true) (hn : (dumpOf s c).next = some (b, k)) (hr : reached s k = true) :
    dumpOf (telemBoundary s) c = { body := if dumpPeriod b = 0 then none else some b, tenant := (dumpOf s c).tenant } := by
  have happly : dumpOf (telemApplied s) c = { body := if dumpPeriod b = 0 then none else some b, tenant := (dumpOf s c).tenant } := by
    refine (tblGet_tblMap rfl hwf).trans ?_
    change dumpApplied s (dumpOf s c) = _
    rw [dumpApplied, hn]
    exact if_pos hr
  have hdone : dumpOf ((telemWaits s).foldl (fun s d => complete d stOk 0 s) (telemApplied s)) c = dumpOf (telemApplied s) c :=
    congrArg (fun x : Tbl Dump × Tbl Peep => tblGet ({} : Dump) x.1 c.val) (telemOf_completes ..)
  rw [telemBoundary_eq, dumpTick_eq, (dumpShares_keep _ _).2.2 c (by rw [hdone, happly]), hdone, happly]

theorem telemBoundary_peep {l : Nat} (hwf : tblWf {} s.counts.peep = true) (hn : (tblGet {} s.counts.peep l).next = some (w, k))
    (hr : reached s k = true) : tblGet {} (telemBoundary s).counts.peep l = { cfg := w } := by
  have happly : tblGet {} (telemApplied s).counts.peep l = { cfg := w } := by
    refine (tblGet_tblMap rfl hwf).trans ?_
    rw [peepApplied, hn]
    exact if_pos hr
  have hdone := congrArg Prod.snd (telemOf_completes (telemWaits s) (telemApplied s))
  rw [telemBoundary_eq, dumpTick_eq, (dumpShares_keep _ _).1]
  exact (congrArg (fun x : Tbl Peep => tblGet {} x l) hdone).trans happly

end

end Machine
end Sys2Proof
end

section
/-!
PROOF. Register reads and writes and the configuration bundle (R7, R337, R776 to R784, R795 to R797).
-/
namespace Sys2Proof
namespace Machine
set_option Elab.async false

section
variable {s t u : State} {r : RegAt} {c a : Nat} {w b : Bool} {v : Word} {x : FnId} {tag : BitVec 16} {rs : List (BitVec 32 × Word)}

/-! ### REG_WR and REG_RD (R776, R777, R781, R783) -/

theorem regWr_waits {a : Word} (h : regRefused a w = false) :
    Completes (.regWr a w v) s fun t =>
      t.regs = (if s.regs.bundleDone then { s.regs with writes := s.regs.writes ++ [⟨a.toNat, w, v, prepDue s⟩] }
        else { s.regs with heldWrites := s.regs.heldWrites ++ [⟨a.toNat, w, v, prepDue s⟩] })
      ∧ t = { s with regs := t.regs, enz := t.enz } := by
  refine ⟨regWr a w v s, rfl, ?_⟩
  obtain ⟨y, hy⟩ := takeInbox_enz 0x07 s
  unfold regWr
  rw [hy]
  dsimp only
  rw [if_neg (ne_true_of_eq_false h)]
  cases hb : s.regs.bundleDone
  case true => exact ⟨rfl, rfl⟩
  case false => exact ⟨rfl, rfl⟩

theorem regWr_refused {a : Word} (h : regRefused a w = true) :
    Completes (.regWr a w v) s fun t => t.regs.err = true ∧ t.regs.errWrite = true ∧ t.regs.errCause = 1
      ∧ t.regs.errAddr = BitVec.ofNat 24 a.toNat ∧ t.regs.word = s.regs.word ∧ t.regs.writes = s.regs.writes
      ∧ t.regs.heldWrites = s.regs.heldWrites ∧ t = { s with regs := t.regs, enz := t.enz } := by
  refine ⟨regWr a w v s, rfl, ?_⟩
  obtain ⟨y, hy⟩ := takeInbox_enz 0x07 s
  unfold regWr
  rw [hy]
  dsimp only
  rw [if_pos h]
  exact ⟨rfl, rfl, rfl, rfl, rfl, rfl, rfl, rfl⟩

theorem regRd_cases (s : State) (a : Word) (w : Bool) (tag : BitVec 16) :
    (regRefused a w = true → regRd a w tag s = regAnswer ⟨a, w, tag, s.regs.writes.length + s.regs.heldWrites.length⟩ stDenied 0
      (regError a.toNat false 1 s))
    ∧ (regRefused a w = false → s.regs.writes = [] → s.regs.heldWrites = [] → regRd a w tag s = regServe s ⟨a, w, tag, 0⟩)
    ∧ (regRefused a w = false → 0 < s.regs.writes.length + s.regs.heldWrites.length → regRd a w tag s = { s with
        regs.reads := s.regs.reads ++ [⟨a, w, tag, s.regs.writes.length + s.regs.heldWrites.length⟩] })
    ∧ (∀ x, regFind a.toNat = some x → regServe s ⟨a, w, tag, 0⟩ = regAnswer ⟨a, w, tag, 0⟩ stOk
        (if a.toNat % 8 = 4 then regRead s x >>> 32 else regRead s x) s) := by
  refine ⟨fun h => if_pos h, fun h hw hh => ?_, fun h hn => (if_neg (ne_true_of_eq_false h)).trans (if_neg (Nat.ne_of_gt hn)), fun x hx => ?_⟩
  · unfold regRd
    dsimp only
    rw [if_neg (ne_true_of_eq_false h), hw, hh]
    exact if_pos rfl
  · unfold regServe
    rw [hx]

/-! ### One register write (R778 to R784) -/

theorem applyWrite_unknown (h : regFind a = none) : applyWrite b a w v s = regError a true (if b then 4 else 1) s := by
  unfold applyWrite
  rw [h]

theorem applyWrite_readOnly (h : regFind a = some r) (hc : (regBlock r.name).commit = none) : applyWrite b a w v s = s := by
  unfold applyWrite
  rw [h]
  dsimp only
  rw [hc]

/-- The bits `v` of the mask `m` are staged for a word. -/
def restaged (r : RegAt) (v m : Word) (s : State) : State :=
  let k := regIdx r.name r.u r.v r.w
  let x := (tblGet none s.regs.staged k).getD (reg s r.name r.u r.v r.w)
  { s with regs.staged := tblSet none s.regs.staged k (some ((x &&& ~~~m) ||| v)) }

section
variable (h : regFind a = some r) (hc : (regBlock r.name).commit = some c)
include h hc

theorem applyWrite_found : applyWrite b a w v s =
    if r.name = .tmGateEntry && decide (decide (64 ≤ r.v) = (tmOf s (unitOf 96 r.u (by decide))).bank) then s
    else if r.w ≠ c then restaged r (writeBits a w v).1 (writeBits a w v).2 s
    else commitWrite b r a (writeBits a w v).1 (writeBits a w v).2 s := by
  unfold applyWrite
  rw [h]
  dsimp only
  rw [hc]
  rfl

theorem applyWrite_operatingGate (hn : r.name = .tmGateEntry) (hg : decide (64 ≤ r.v) = (tmOf s (unitOf 96 r.u (by decide))).bank) :
    applyWrite b a w v s = s := by
  rw [applyWrite_found h hc, if_pos (by simp [hn, hg])]

theorem applyWrite_stages (hn : r.name ≠ .tmGateEntry) (hw : r.w ≠ c) :
    applyWrite b a w v s = restaged r (writeBits a w v).1 (writeBits a w v).2 s := by
  rw [applyWrite_found h hc, if_neg (by simp [hn]), if_pos hw]

end

theorem applyWrite_commits (h : regFind a = some r) (hc : (regBlock r.name).commit = some r.w) (hn : r.name ≠ .tmGateEntry) :
    applyWrite b a w v s = commitWrite b r a (writeBits a w v).1 (writeBits a w v).2 s := by
  rw [applyWrite_found h hc, if_neg (by simp [hn]), if_neg (not_not_intro rfl)]

theorem storeWord_cases (s : State) (r : RegAt) (w : Nat) (off : Bool) (old new : Word) :
    let base := (old &&& ~~~(rwMask r.name r.v w ||| rwoMask r.name w)) ||| (new &&& rwMask r.name r.v w)
    let ch := rwoChanged r.name w old new
    (off = true ∨ ch = 0 → storeWord r w off old new s = setReg s r.name r.u r.v w (base ||| (new &&& rwoMask r.name w)))
    ∧ (off = false → ch ≠ 0 → storeWord r w off old new s = setReg { s with free := s.free + 1 } r.name r.u r.v w
        (base ||| (new &&& rwoMask r.name w &&& ~~~ch) ||| (Config.freeValue s.free &&& ch))) :=
  ⟨fun h => if_pos (by rcases h with h | h <;> simp [h]), fun h h' => if_neg (by simpa [h] using h')⟩

/-! ### What no register write changes: the bundle and the writes held behind it -/

/-- The bundle, whether it is over, and the writes held behind it. -/
def bundleOf (s : State) : Option (List (BitVec 32 × Word)) × Bool × List RegWrite := (s.regs.bundle, s.regs.bundleDone, s.regs.heldWrites)

theorem bundleOf_of_regs (h : t.regs = s.regs) : bundleOf t = bundleOf s := by rw [bundleOf, h, bundleOf]

theorem bundleOf_foldl {α : Type} {f : State → α → State} (h : ∀ s x, bundleOf (f s x) = bundleOf s) :
    ∀ (l : List α) (s : State), bundleOf (l.foldl f s) = bundleOf s
  | [], _ => rfl
  | x :: l, s => (bundleOf_foldl h l (f s x)).trans (h s x)

theorem bundleOf_ite {c : Prop} [Decidable c] {y z : State} (hy : bundleOf y = bundleOf s) (hz : bundleOf z = bundleOf s) :
    bundleOf (if c then y else z) = bundleOf s := by
  split
  · exact hy
  · exact hz

theorem HostOnly.bundleOf (h : HostOnly s t) : Machine.bundleOf t = Machine.bundleOf s := by
  obtain ⟨_, _, _, rfl⟩ := h
  exact Eq.refl _

theorem bundleOf_regError (n d c) (s : State) : bundleOf (regError n d c s) = bundleOf s := rfl

theorem bundleOf_relight (l) (s : State) : bundleOf (relight l s) = bundleOf s := by
  obtain ⟨y, hy⟩ := relight_lanes l s
  rw [hy]
  rfl

theorem bundleOf_laserEnable (e p q) (s : State) : bundleOf (laserEnable e p q s) = bundleOf s :=
  have hset : ∀ y, bundleOf (setReg s .oeLaser e.val 0 0 y) = bundleOf s := fun _ => rfl
  (bundleOf_of_regs (laserCheck_applied ..).regs).trans ((bundleOf_of_regs (laserCheck_applied ..).regs).trans (hset _))

/-! ### Control words (R788, R789) -/

/-- The work of a port or a ring on entry to Starting. -/
theorem bundleOf_startHook (hk : needsKey x = false) (n) (s : State) : bundleOf (startHook x n s) = bundleOf s := by
  cases hp : isPort x
  case true =>
    cases x with
    | port l => exact bundleOf_relight ..
    | _ => cases hp
  case false => exact (startHook_ring hp hk n s).bundleOf

/-- The work of a port or a ring on entry to Stopping. -/
theorem bundleOf_stopHook (hk : needsKey x = false) (st) (s : State) : bundleOf (stopHook x st s) = bundleOf s := by
  cases hp : isPort x
  case true =>
    cases x with
    | port l =>
      unfold stopHook
      dsimp only
      split
      · exact (bundleOf_relight ..).trans (bundleOf_of_regs (ethPortDown_light ..).regs)
      · obtain ⟨y, z, hy⟩ := portStopping_links l s
        rw [hy]
        rfl
    | _ => cases hp
  case false => exact (stopHook_ring hp hk st s).bundleOf

theorem bundleOf_waits (ds : List DRef) (s : State) : bundleOf (ds.foldl (fun s d => addWaits d 1 s) s) = bundleOf s :=
  bundleOf_foldl (f := fun s d => addWaits d 1 s) (fun _ _ => rfl) ds s

theorem bundleOf_completeAll (ds st g) (s : State) : bundleOf (completeAll ds st g s) = bundleOf s := (completeAll_host ..).bundleOf

theorem bundleOf_fnEnable (hk : needsKey x = false) (d n) (s : State) : bundleOf (fnEnable x d n s) = bundleOf s := by
  unfold fnEnable
  extract_lets
  split
  · split
    · exact bundleOf_waits ..
    · split
      · exact bundleOf_completeAll ..
      · exact (bundleOf_waits ..).trans (bundleOf_startHook hk ..)
  · exact bundleOf_completeAll ..
  · exact bundleOf_completeAll ..
  · exact bundleOf_waits ..

theorem bundleOf_fnStop (hk : needsKey x = false) (st) (s : State) : bundleOf (fnStop x st s) = bundleOf s := bundleOf_stopHook hk ..

theorem bundleOf_fnDisable (hk : needsKey x = false) (d) (s : State) : bundleOf (fnDisable x d s) = bundleOf s := by
  unfold fnDisable
  extract_lets
  split
  · exact bundleOf_completeAll ..
  · exact bundleOf_waits ..
  · exact (bundleOf_fnStop hk ..).trans (bundleOf_waits ..)
  · exact (bundleOf_completeAll ..).trans (bundleOf_waits ..)

theorem bundleOf_ctrlWrite (hk : needsKey x = false) (n c y) (s : State) : bundleOf (ctrlWrite x n c y s) = bundleOf s :=
  bundleOf_ite rfl (bundleOf_ite (bundleOf_fnEnable hk ..) (bundleOf_ite (bundleOf_fnDisable hk ..) rfl))

theorem needsKey_ctrlFn (n : Nat) : needsKey (ctrlFn n) = false := by
  unfold ctrlFn
  split <;> rfl

/-! ### What follows a committed write -/

theorem bundleOf_goRetire (n) (s : State) : bundleOf (goRetire n s) = bundleOf s :=
  bundleOf_ite rfl (bundleOf_of_regs (retireFrame_bytes n.toNat _ { s with larder.goFrame := some n.toNat }).2.2)

theorem bundleOf_setLfsr (i y) (s : State) : bundleOf (setLfsr i y s) = bundleOf s := rfl

theorem bundleOf_seedAll (n) (s : State) : bundleOf (seedAll n s) = bundleOf s := bundleOf_foldl (fun _ _ => bundleOf_setLfsr ..) ..

theorem bundleOf_swapRequest (l) (s : State) : bundleOf (swapRequest l s) = bundleOf s := bundleOf_ite rfl rfl

theorem bundleOf_regAction (r n c y y0 ch) (s : State) : bundleOf (regAction r n c y y0 ch s) = bundleOf s := by
  unfold regAction
  split
  · exact bundleOf_ite rfl rfl
  · exact bundleOf_ctrlWrite (needsKey_ctrlFn _) ..
  · exact bundleOf_ctrlWrite rfl ..
  · exact bundleOf_ite rfl rfl
  · exact bundleOf_ite ((bundleOf_goRetire ..).trans (bundleOf_ite rfl rfl)) (bundleOf_ite rfl rfl)
  · exact bundleOf_ite (bundleOf_ite rfl rfl) rfl
  · exact bundleOf_laserEnable ..
  · exact bundleOf_relight ..
  · exact bundleOf_ite ((bundleOf_swapRequest ..).trans (bundleOf_ite rfl rfl)) (bundleOf_ite rfl rfl)
  · exact bundleOf_ite (bundleOf_seedAll ..) rfl
  · rfl

theorem bundleOf_storeWord (r w off o n) (s : State) : bundleOf (storeWord r w off o n s) = bundleOf s := bundleOf_ite rfl rfl

theorem bundleOf_storeWords (r off) : ∀ (w os ns) (s : State), bundleOf (storeWords r off w os ns s) = bundleOf s
  | w, _ :: os, _ :: ns, _ => (bundleOf_storeWords r off (w + 1) os ns _).trans (bundleOf_storeWord ..)
  | _, [], _, _ => rfl
  | _, _ :: _, [], _ => rfl

theorem bundleOf_staged (x) (s : State) : bundleOf { s with regs.staged := x } = bundleOf s := rfl

theorem bundleOf_commitWrite (b r n v m) (s : State) : bundleOf (commitWrite b r n v m s) = bundleOf s := by
  have hst : ∀ st, bundleOf { s with regs.staged := st } = bundleOf s := fun st => bundleOf_staged st s
  have hw : ∀ st off os ns c w w0 ch,
      bundleOf (regAction r n c w w0 ch (storeWords r off 0 os ns { s with regs.staged := st })) = bundleOf s :=
    fun st _ _ _ _ _ _ _ => (bundleOf_regAction ..).trans ((bundleOf_storeWords ..).trans (hst st))
  exact bundleOf_ite ((bundleOf_regError ..).trans (hst _)) (bundleOf_ite ((bundleOf_regError ..).trans (hw ..)) (hw ..))

theorem bundleOf_applyWrite (b n w v) (s : State) : bundleOf (applyWrite b n w v s) = bundleOf s := by
  unfold applyWrite
  split
  · exact bundleOf_regError ..
  · split
    split
    · rfl
    · exact bundleOf_ite rfl (bundleOf_ite (bundleOf_staged ..) (bundleOf_commitWrite ..))

theorem bundleOf_regServe (s : State) (q) : bundleOf (regServe s q) = bundleOf s := by
  unfold regServe
  split
  · exact (sendFrame_enz ..).host.bundleOf
  · exact (sendFrame_enz ..).host.bundleOf

theorem bundleOf_applyDue (s : State) : bundleOf (applyDue s) = bundleOf s :=
  (bundleOf_foldl bundleOf_regServe ..).trans (Eq.trans rfl ((bundleOf_foldl (fun s (w : RegWrite) => bundleOf_applyWrite false w.addr w.wide w.val s) ..).trans rfl))

/-! ### CONFIG_BUNDLE_APPLY (R795 to R797) -/

/-- The records of a bundle have been applied, and the writes held behind it are due at once. -/
def bundleWritten (rs : List (BitVec 32 × Word)) (s : State) : State :=
  let u := releaseWrites { rs.foldl applyRecordOf s with regs.staged := [] }
  { u with regs.writes := u.regs.writes.map (fun w => { w with due := u.tick.elapsed }) }

theorem exec_bundleApply (h : s.regs.bundle = some rs) (h0 : s.tick.slot = 0) :
    exec .configBundleApply s = .next (applyDue (bundleWritten rs s)) := by
  change Host.Outcome.next (bundleApply s) = _
  unfold bundleApply
  rw [h]
  dsimp only
  rw [if_neg (not_not_intro h0)]
  rfl

theorem bundleApply_waits (h : s.regs.bundle = none ∨ s.tick.slot ≠ 0) : NoEffect .configBundleApply s := by
  change Host.Outcome.next (bundleApply s) = _
  unfold bundleApply
  split
  · rfl
  next hb => rw [if_pos (h.resolve_left (by simp [hb]))]

theorem bundleWritten_due (rs) (s : State) : ∀ w ∈ (bundleWritten rs s).regs.writes, reached (bundleWritten rs s) w.due = true := by
  intro w hw
  obtain ⟨w', -, rfl⟩ := List.mem_map.mp hw
  simp [reached, bundleWritten]

theorem bundleApply_releases (h : s.regs.bundle = some rs) (h0 : s.tick.slot = 0) :
    Completes .configBundleApply s fun t => t.regs.bundle = none ∧ t.regs.bundleDone = true ∧ t.regs.heldWrites = [] ∧ t.regs.writes = [] := by
  refine ⟨_, exec_bundleApply h h0, ?_⟩
  have hbundle : bundleOf (applyDue (bundleWritten rs s)) = (none, true, []) := bundleOf_applyDue (bundleWritten rs s)
  have hnone : (bundleWritten rs s).regs.writes.filter (fun w => !reached (bundleWritten rs s) w.due) = [] :=
    List.filter_eq_nil_iff.mpr fun w hw => by simp [bundleWritten_due rs s w hw]
  have hwrites := congrArg (fun x => x.2.2.2) (clockOf_applyDue (bundleWritten rs s))
  simp only [bundleOf, Prod.mk.injEq] at hbundle
  obtain ⟨h1, h2, h3⟩ := hbundle
  exact ⟨h1, h2, h3, hwrites.trans hnone⟩

/-- With nothing written and nothing to answer, what is due is nothing. -/
theorem applyDue_nothing (h : s.regs.writes = []) (hr : s.regs.reads = []) : applyDue s = s := by
  unfold applyDue
  rw [h]
  simp only [List.filter_nil, List.foldl_nil, hr, List.map_nil]
  rw [← h, ← hr]

theorem bundleApply_skips {a : BitVec 32} (h : s.regs.bundle = some [(a, v)]) (h0 : s.tick.slot = 0) (hw : s.regs.writes = [])
    (hh : s.regs.heldWrites = []) (hr : s.regs.reads = []) (href : regRefused (a.setWidth 64) true = true) :
    Completes .configBundleApply s fun t => t.regs.word = s.regs.word ∧ t.regs.err = true ∧ t.regs.errCause = 4
      ∧ t = { s with regs := t.regs } := by
  refine ⟨_, exec_bundleApply h h0, ?_⟩
  have hrec : [(a, v)].foldl applyRecordOf s = regError a.toNat true 4 s := if_pos href
  have hwrites : (bundleWritten [(a, v)] s).regs.writes = [] := by
    unfold bundleWritten releaseWrites
    rw [hrec]
    change ((s.regs.writes ++ s.regs.heldWrites.map _).map _) = []
    rw [hw, hh]
    rfl
  have hreads : (bundleWritten [(a, v)] s).regs.reads = [] := by
    unfold bundleWritten releaseWrites
    rw [hrec]
    exact hr
  rw [applyDue_nothing hwrites hreads]
  unfold bundleWritten
  rw [hrec]
  exact ⟨rfl, rfl, rfl, rfl⟩

end

end Machine

open Machine

/-- Settles O56: the telemetry descriptors by their checks; a channel's share of a tick changes no other channel; no register write
touches the bundle or what is held behind it, so that a bundle that applies leaves nothing of either. -/
theorem telemetryAndRegisterWrites : Obligations.TelemetryAndRegisterWrites := by
  unfold Obligations.TelemetryAndRegisterWrites
  refine ⟨⟨fun s d f h ht h0 hn hp => ctrRead_copies h ht h0 hn hp, fun s d f h ht h0 hn hp => ctrRead_denied h ht h0 hn hp,
    fun s d f h hb => ctrRead_bad h hb, fun s d f c => fun h hc hl hok hr => dumpConfig_waits h hl hok hc hr,
    fun s d f => fun h => ⟨dumpConfig_unprivileged h, dumpConfig_bad h, fun hl ht hok hr => dumpConfig_denied h hl hok ht hr⟩,
    fun s c b k hwf hn hr => ⟨telemBoundary_dump hwf hn hr, fun d hd => telemBoundary_completes (mem_telemWaits_dump hn hr hd)⟩,
    fun s l w k hwf hn hr => ⟨telemBoundary_peep hwf hn hr, fun d hd => telemBoundary_completes (mem_telemWaits_peep hn hr hd)⟩,
    fun s d f l h hp hl hg h64 h256 h8 => peepConfig_waits h hl hg hp h64 h256 h8,
    fun s d f l h hl => ⟨peepConfig_stale h hl, peepConfig_denied h hl, peepConfig_bad h hl⟩, fun s d f h ht => peepConfig_other h ht,
    fun s d f bs => fun h hp ht h0 hn hin hr => telemCopy_copies h hp ht h0 hn hin hr,
    fun s d f => fun h => ⟨telemCopy_denied h, telemCopy_bad h, telemCopy_uncorrectable h⟩,
    fun s c b hb h2 hp hn hl => dumpDue_falls hb h2 hp hn hl, fun s c h => dumpDue_waits h,
    fun s c b hb hr hw => recordComplete_writes hb hr hw, fun s c b hb hr hw => recordComplete_counts hb hr hw,
    fun s c h => recordComplete_waits h⟩,
    fun s a w v h => regWr_waits h, fun s a w v h => regWr_refused h, ?_, fun s r w off old new => storeWord_cases s r w off old new,
    fun s a w tag => regRd_cases s a w tag, fun s rs h h0 => exec_bundleApply h h0, fun s rs h h0 => bundleApply_releases h h0,
    fun s a v h h0 hw hh hr href => bundleApply_skips h h0 hw hh hr href, fun s h => bundleApply_waits h⟩
  intro s b w a v
  exact ⟨applyWrite_unknown, fun r h hc => applyWrite_readOnly h hc, fun r c h hc hn hg => applyWrite_operatingGate h hc hn hg,
    fun r c h hc hn hw => applyWrite_stages h hc hn hw, fun r h hc hn => applyWrite_commits h hc hn⟩

end Sys2Proof
end

section
/-!
PROOF. The fuses that a state holds, and what it means that none has been cleared (R669, R670, R716, Tables 19-7a, 19-9, 19-10).
-/
namespace Sys2Proof
namespace Machine

/-- The fuses of Tables 19-7a, 19-9 and 19-10 that no command clears. -/
structure Fuses where
  blown : BitVec 4
  revoked : BitVec 4
  floor : BitVec 8
  erase : Bool
  armed : Bool
  alarms : Nat
  provisions : Nat

/-- The fuses that the Strongroom holds. -/
def fusesOfStrong (z : Strong) : Fuses := ⟨z.blown, z.revoked, z.floor, z.eraseFuse, z.eraseArmed, z.alarmFuses, z.provFuses⟩

/-- The fuses of a state. -/
def fusesOf (s : State) : Fuses := fusesOfStrong s.strong

/-- Every fuse blown before is blown still, and the floor and the counts stand no lower, the floor within its bound. -/
structure Fuses.Grow (old new : Fuses) : Prop where
  blown : new.blown &&& old.blown = old.blown
  revoked : new.revoked &&& old.revoked = old.revoked
  floor : old.floor.toNat ≤ new.floor.toNat
  bound : new.floor.toNat ≤ 64
  erase : old.erase = true → new.erase = true
  armed : old.armed = true → new.armed = true
  alarms : min 64 old.alarms ≤ new.alarms
  provisions : min 64 old.provisions ≤ new.provisions

theorem Fuses.Grow.refl {f : Fuses} (h : f.floor.toNat ≤ 64) : f.Grow f :=
  ⟨BitVec.and_self, BitVec.and_self, Nat.le_refl _, h, id, id, Nat.min_le_right .., Nat.min_le_right ..⟩

/-- Bits that are set stay so when more are set. -/
theorem and_or_of_and {n : Nat} {x y : BitVec n} (h : x &&& y = y) (z : BitVec n) : (x ||| z) &&& y = y := by
  ext i hi
  have hbit : (x &&& y)[i] = y[i] := by rw [h]
  simp only [BitVec.getElem_and, BitVec.getElem_or] at hbit ⊢
  rw [Bool.and_or_distrib_right, hbit]
  exact Bool.or_eq_left_iff_imp.mpr fun hz => ((Bool.and_eq_true ..).mp hz).2

/-- No fuse of `old` is cleared in the state. -/
def Grown (old : Fuses) (s : State) : Prop := old.Grow (fusesOf s)

section
variable {s t : State} {old : Fuses}

/-- Whatever leaves the Strongroom alone clears no fuse. -/
theorem grown_frame (h : Grown old s) (hs : t.strong = s.strong := by rfl) : Grown old t := by
  unfold Grown fusesOf
  rwa [hs]

theorem Rested.grown (h : Rested s t) (hs : Grown old s) : Grown old t :=
  grown_frame hs h.1

theorem HostOnly.grown (h : HostOnly s t) : Grown old s → Grown old t := h.rested.grown

theorem CoreOnly.grown (h : CoreOnly s t) : Grown old s → Grown old t := h.rested.grown

theorem EnzOnly.grown (h : EnzOnly s t) : Grown old s → Grown old t := h.rested.grown

theorem Booked.grown (h : Booked s t) (hs : Grown old s) : Grown old t := by
  obtain ⟨_, _, _, _, _, he⟩ := h.eq
  subst he
  exact hs

theorem QpsOnly.grown (h : QpsOnly s t) (hs : Grown old s) : Grown old t := by
  obtain ⟨⟨_, _, he⟩, -⟩ := h
  exact he.grown hs

theorem InputOnly.grown (h : InputOnly s t) (hs : Grown old s) : Grown old t := by
  obtain ⟨_, _, _, _, he⟩ := h
  subst he
  exact hs

theorem larderPut_grown {a bs} (h : Grown old s) : Grown old (larderPut a bs s) := h

theorem larderZero_grown {a n} (h : Grown old s) : Grown old (larderZero a n s) := h

theorem lockErase_grown (h : Grown old s) : Grown old (lockErase s) := h

theorem zeroFrame_grown {f} (h : Grown old s) : Grown old (zeroFrame f s) := h

theorem writeRuns_grown : ∀ {rs : List (Nat × Nat)} {bs : List Byte} {s : State} {ok : Bool}, Grown old s →
    Grown old (writeRuns rs bs s ok).1
  | [], _, _, _, h => h
  | (_, _) :: rs, _, _, _, h => by
    unfold writeRuns
    refine writeRuns_grown (rs := rs) ?_
    split
    · exact h
    · exact h

theorem placeWrite_grown {p bs} (h : Grown old s) : Grown old (placeWrite p bs s).1 := by
  cases p with
  | larder rs => exact writeRuns_grown h
  | array a => exact h
  | counter a => exact h

end

end Machine
end Sys2Proof
end

section
/-!
PROOF. No command clears a fuse (R669, R670, R716), part one: what a change must leave alone, and the shared
operations, the host link, fabric ingress and the links. The fuses change in five functions (an alarm, a record, the end of
Lockdown, the floor, a reset); every other function hands on those that a function it calls has left. So each function of the
model that answers a state has one lemma, in the order of the model's files, whose proof follows the function's branches and
cites the lemmas of what it calls.
-/
namespace Sys2Proof
namespace Machine
set_option Elab.async false

variable {s t : State} {old : Fuses}

/-! ### What a change leaves alone -/

theorem grown_counts {x} (h : Grown old s) : Grown old { s with counts := x } := h
theorem grown_tick {x} (h : Grown old s) : Grown old { s with tick := x } := h
theorem grown_items {x} (h : Grown old s) : Grown old { s with items := x } := h
theorem grown_power {x} (h : Grown old s) : Grown old { s with power := x } := h

theorem grown_ite {c : Prop} [Decidable c] (hs : Grown old s) (ht : Grown old t) : Grown old (if c then s else t) := by
  split
  · exact hs
  · exact ht

theorem grown_foldl {α : Type} {f : State → α → State} (hf : ∀ s x, Grown old s → Grown old (f s x)) {l : List α} (h : Grown old s) :
    Grown old (l.foldl f s) := by
  induction l generalizing s with
  | nil => exact h
  | cons x l ih => exact ih (hf s x h)

/-- What a command answers clears no fuse. -/
def OutGrown (old : Fuses) : Out → Prop
  | .next t => Grown old t
  | _ => True

/-- The state that a function answers, if any, has no fuse cleared. -/
def OptGrown (old : Fuses) : Option State → Prop
  | some t => Grown old t
  | none => True

/-- The state beside what a function answers has no fuse cleared. -/
def PairGrown (old : Fuses) {α : Type} (p : α × State) : Prop := Grown old p.2

/-- The state of a library run has no fuse cleared. -/
def LibGrown (old : Fuses) {α : Type} : LibRes α → Prop
  | .ok _ t => Grown old t
  | .bad _ _ t => Grown old t

theorem grown_of_some {o : Option State} (h : OptGrown old o) (e : o = some t) : Grown old t := by
  subst e
  exact h

theorem grown_of_eq {α : Type} {x : α} {p : α × State} (h : PairGrown old p) (e : p = (x, t)) : Grown old t := by
  subst e
  exact h

theorem grown_of_eq_fst {α : Type} {x : α} {p : State × α} (h : Grown old p.1) (e : p = (t, x)) : Grown old t := by
  subst e
  exact h

theorem grown_of_ok {α : Type} {x : α} {r : LibRes α} (h : LibGrown old r) (e : r = .ok x t) : Grown old t := by
  subst e
  exact h

theorem grown_of_bad {α : Type} {c a : Nat} {r : LibRes α} (h : LibGrown old r) (e : r = .bad c a t) : Grown old t := by
  subst e
  exact h

theorem grown_of_eq_third {α β : Type} {x : α} {y : β} {p : α × β × State} (h : Grown old p.2.2) (e : p = (x, y, t)) : Grown old t := by
  subst e
  exact h

theorem grown_getD {o : Option State} (ho : OptGrown old o) (h : Grown old s) : Grown old (o.getD s) := by
  cases o with
  | none => exact h
  | some t => exact ho

/-! ### Registers, counters, free values, the host, functions, events and completions -/

theorem setPhase_grown {n} (h : Grown old s) : Grown old (setPhase n s) := h
theorem setLink_grown {l v} (h : Grown old s) : Grown old (setLink s l v) := h
theorem modLink_grown {l f} (h : Grown old s) : Grown old (modLink l f s) := setLink_grown h
theorem setLane_grown {n v} (h : Grown old s) : Grown old (setLane s n v) := h
theorem modLane_grown {n f} (h : Grown old s) : Grown old (modLane n f s) := setLane_grown h
theorem modLanes_grown {l f} (h : Grown old s) : Grown old (modLanes l f s) := grown_foldl (fun _ _ hs => modLane_grown hs) h
theorem setIn_grown {i v} (h : Grown old s) : Grown old (setIn s i v) := h
theorem modIn_grown {i f} (h : Grown old s) : Grown old (modIn i f s) := setIn_grown h
theorem setSlice_grown {m v} (h : Grown old s) : Grown old (setSlice s m v) := h
theorem setOut_grown {o v} (h : Grown old s) : Grown old (setOut s o v) := h
theorem modOut_grown {o f} (h : Grown old s) : Grown old (modOut o f s) := setOut_grown h
theorem setTm_grown {l v} (h : Grown old s) : Grown old (setTm s l v) := h
theorem setGroup_grown {g v} (h : Grown old s) : Grown old (setGroup s g v) := h
theorem modGroup_grown {g f} (h : Grown old s) : Grown old (modGroup g f s) := setGroup_grown h
theorem setOp_grown {g q o} (h : Grown old s) : Grown old (setOp g q o s) := modGroup_grown h

theorem modOp_grown {g q f} (h : Grown old s) : Grown old (modOp g q f s) := by
  unfold modOp
  split
  · exact setOp_grown h
  · exact h

theorem setReg_grown {n u v w x} (h : Grown old s) : Grown old (setReg s n u v w x) := h
theorem regError_grown {addr write cause} (h : Grown old s) : Grown old (regError addr write cause s) := h
theorem releaseWrites_grown (h : Grown old s) : Grown old (releaseWrites s) := h
theorem bump_grown {p w n} (h : Grown old s) : Grown old (bump p w n s) := (bump_host ..).grown h
theorem bumpPort_grown {p w} (h : Grown old s) : Grown old (bumpPort p w s) := bump_grown h
theorem bumpModule_grown {w} (h : Grown old s) : Grown old (bumpModule w s) := (bumpModule_host ..).grown h
theorem takeFree_grown (h : Grown old s) : PairGrown old (takeFree s) := h
theorem freeBytes_grown {n} (h : Grown old s) : PairGrown old (freeBytes n s) := h
theorem sendNow_grown {f} (h : Grown old s) : Grown old (sendNow f s) := h
theorem sendFrame_grown {f} (h : Grown old s) : Grown old (sendFrame f s) := (sendFrame_enz ..).grown h

theorem flushHeld_grown {n} (h : Grown old s) : Grown old (flushHeld n s) := by
  induction n generalizing s with
  | zero => exact h
  | succ n ih =>
    unfold flushHeld
    split
    · exact h
    · exact grown_ite (ih (sendNow_grown h)) h

theorem hostPut_grown {a bs} (h : Grown old s) : Grown old (hostPut a bs s) := (hostPut_enz ..).grown h
theorem sendMsg_grown {vector} (h : Grown old s) : Grown old (sendMsg vector s) := (sendMsg_enz ..).grown h
theorem issueReads_grown {n} (h : Grown old s) : Grown old (issueReads n s) := (issueReads_enz ..).grown h
theorem hostRead_grown {u a len} (h : Grown old s) : Grown old (hostRead u a len s) := (hostRead_enz ..).grown h
theorem setFn_grown {f v} (h : Grown old s) : Grown old (setFn s f v) := h
theorem setSq_grown {i r} (h : Grown old s) : Grown old (setSq s i r) := (setSq_host ..).grown h
theorem setCq_grown {j r} (h : Grown old s) : Grown old (setCq s j r) := (setCq_host ..).grown h
theorem consumerPut_grown {off v} (h : Grown old s) : Grown old (consumerPut off v s) := (consumerPut_enz ..).grown h
theorem raise_grown {e} (h : Grown old s) : Grown old (raise e s) := (raise_host ..).grown h
theorem raiseEv_grown {c u detail gen} (h : Grown old s) : Grown old (raiseEv c u detail gen s) := (raiseEv_host ..).grown h
theorem evFlush_grown {n} (h : Grown old s) : Grown old (evFlush n s) := (evFlush_host ..).grown h

theorem auditMismatch_grown {quantity unit sub diff gen} (h : Grown old s) :
    Grown old (auditMismatch quantity unit sub diff gen s) :=
  raiseEv_grown (bumpModule_grown h)

theorem modFlight_grown {d g} (h : Grown old s) : Grown old (modFlight d g s) := (modFlight_host ..).grown h
theorem cqInterrupt_grown {j} (h : Grown old s) : Grown old (cqInterrupt j s) := setCq_grown (sendMsg_grown h)
theorem complete_grown {d st result} (h : Grown old s) : Grown old (complete d st result s) := (complete_host ..).grown h
theorem completeGen_grown {d st gen} (h : Grown old s) : Grown old (completeGen d st gen s) := (completeGen_host ..).grown h
theorem completeAll_grown {ds st gen} (h : Grown old s) : Grown old (completeAll ds st gen s) := (completeAll_host ..).grown h

/-! ### The Enzen link (chapter 04) -/

theorem enzEnter_grown {st} (h : Grown old s) : Grown old (enzEnter st s) := h
theorem takeInbox_grown {ty} (h : Grown old s) : Grown old (takeInbox ty s) := (takeInbox_enz ..).grown h
theorem enzToDetect_grown (h : Grown old s) : Grown old (enzToDetect s) := enzEnter_grown h
theorem enzReturn_grown (h : Grown old s) : Grown old (enzReturn s) := issueReads_grown (flushHeld_grown h)
theorem enzActive_grown {level} (h : Grown old s) : Grown old (enzActive level s) := enzReturn_grown (enzEnter_grown h)
theorem sendHostCap_grown (h : Grown old s) : Grown old (sendHostCap s) := sendNow_grown h

theorem execEnzenFecLockHeld_grown (h : Grown old s) : OutGrown old (execEnzenFecLockHeld s) := by
  unfold execEnzenFecLockHeld
  split
  · exact grown_ite (enzActive_grown h) (sendHostCap_grown (enzEnter_grown h))
  · exact enzActive_grown h
  · exact enzActive_grown h
  · exact h

theorem raiseSide_grown {e} (h : Grown old s) : Grown old (raiseSide e s) := grown_counts h

theorem execEnzenBringupTimeout_grown (h : Grown old s) : OutGrown old (execEnzenBringupTimeout s) := by
  unfold execEnzenBringupTimeout
  extract_lets
  split
  · exact grown_ite (enzToDetect_grown h) h
  · exact grown_ite (enzToDetect_grown h) h
  · exact grown_ite (enzActive_grown h) h
  · exact grown_ite (enzToDetect_grown (raiseSide_grown h)) h
  · exact h

theorem enzNegoDone_grown (h : Grown old s) : Grown old (enzNegoDone s) := by
  unfold enzNegoDone
  split
  · exact grown_ite (enzEnter_grown h) (enzActive_grown h)
  · exact h

theorem execLevelReq_grown {level} (h : Grown old s) : OutGrown old (execLevelReq level s) := by
  unfold execLevelReq
  extract_lets t _ t1
  have ht : Grown old t := takeInbox_grown h
  have ht1 : Grown old t1 := sendNow_grown ht
  exact grown_ite (enzEnter_grown ht1) ht

theorem enzReplay_grown (h : Grown old s) : Grown old (enzReplay s) := grown_ite h (bumpModule_grown h)
theorem enzAck_grown {ack} (h : Grown old s) : Grown old (enzAck ack s) := grown_ite h (issueReads_grown (flushHeld_grown h))

/-! ### Routes, and packets into the core (chapter 08) -/

theorem setLfsr_grown {i x} (h : Grown old s) : Grown old (setLfsr i x s) := modIn_grown h
theorem seedAll_grown {node} (h : Grown old s) : Grown old (seedAll node s) := grown_foldl (fun _ _ hs => setLfsr_grown hs) h

theorem hopIngress_grown {i p} (h : Grown old s) : PairGrown old (hopIngress i p s) := by
  unfold hopIngress
  extract_lets _ _ t
  have ht : Grown old t := grown_ite h (setLfsr_grown h)
  split
  · split
    · exact ht
    · exact ht
  · exact h

theorem touchUnder_grown {n} (h : Grown old s) : Grown old (touchUnder n s) := (touchUnder_core ..).grown h

theorem enqueueNow_grown {i kind o units q bad hold p ref} (h : Grown old s) :
    Grown old (enqueueNow i kind o units q bad hold p s ref) :=
  touchUnder_grown (setIn_grown h)

theorem enqueue_grown {i kind o units q bad hold p ref} (h : Grown old s) :
    Grown old (enqueue i kind o units q bad hold p s ref) :=
  grown_ite (enqueueNow_grown h) (grown_ite (enqueueNow_grown h) (modIn_grown h))

theorem inject_grown {i p} (h : Grown old s) : Grown old (inject i p s) := (inject_core ..).grown h
theorem countFail_grown {i} (h : Grown old s) : Grown old (countFail i s) := bumpPort_grown h
theorem sendFail_grown {i st p} (h : Grown old s) : Grown old (sendFail i st p s) := (sendFail_core ..).grown h

/-! ### Fabric ingress (chapter 05) -/

theorem modPart_grown {l q f} (h : Grown old s) : Grown old (modPart l q f s) := modLink_grown h
theorem rxReserve_grown {l q u} (h : Grown old s) : Grown old (rxReserve l q u s) := modPart_grown h
theorem rxFree_grown {l q u} (h : Grown old s) : Grown old (rxFree l q u s) := modPart_grown h

theorem meterRun_grown {i b yellow} (h : Grown old s) : PairGrown old (meterRun i b yellow s) := by
  unfold meterRun
  extract_lets
  split
  · exact h

theorem peepFrame_grown {l dir disc bytes} (h : Grown old s) : Grown old (peepFrame l dir disc bytes s) := by
  unfold peepFrame
  extract_lets p _ t cap hdr _ u slot bs
  have ht : Grown old t := grown_counts h
  have hu : Grown old u := bumpPort_grown (grown_counts ht)
  split
  · exact h
  · exact grown_ite ht (grown_ite (bumpPort_grown ht) (grown_ite (larderPut_grown hu) (raise_grown hu)))

theorem sendTo_grown {i o p} (h : Grown old s) : Grown old (sendTo i o p s) := enqueue_grown h

theorem arriveDrop_grown {l p} (h : Grown old s) : Grown old (arriveDrop l p s) :=
  peepFrame_grown (rxFree_grown (rxReserve_grown h))

theorem arriveFail_grown {l st p} (h : Grown old s) : Grown old (arriveFail l st p s) :=
  grown_ite (inject_grown (countFail_grown (arriveDrop_grown h))) (arriveDrop_grown h)

theorem openRecord_grown {p e} (h : Grown old s) : OptGrown old (openRecord p e s) := by
  unfold openRecord
  split
  · exact h
  · split
    · exact trivial
    · exact h

theorem arriveEnter_grown {l edge bad p} (h : Grown old s) : Grown old (arriveEnter l edge bad p s) := by
  unfold arriveEnter
  extract_lets i u q enter wait e
  have henter : ∀ {k o p t}, Grown old t → Grown old (enter k o p t) :=
    fun ht => enqueue_grown (peepFrame_grown (rxReserve_grown ht))
  have hwait : Grown old (wait s) := touchUnder_grown (grown_items (rxReserve_grown h))
  split
  · split
    · refine grown_ite (arriveFail_grown h) (grown_ite ?_ (henter h))
      split
      next hq => exact henter (grown_of_some (openRecord_grown h) hq)
      · exact hwait
    · refine grown_ite (arriveDrop_grown (grown_frame h)) ?_
      split
      next t hq =>
        refine henter ?_
        split at hq
        · exact grown_of_some (openRecord_grown h) hq
        · cases hq
          exact h
      · exact hwait
  · split
    next t hq =>
    have ht : Grown old t := by
      split at hq
      · exact grown_of_eq (hopIngress_grown h) hq
      · cases hq
        exact h
    split
    · exact arriveFail_grown ht
    · exact grown_ite (henter ht) (grown_ite (henter ht) (henter ht))

theorem edgeChecks_grown {l p} (h : Grown old s) : PairGrown old (edgeChecks l p s) := by
  unfold edgeChecks
  split
  · exact raiseEv_grown (bumpPort_grown (grown_ite (sendTo_grown (countFail_grown (arriveDrop_grown h)))
    (arriveDrop_grown h)))
  · split
    · exact arriveFail_grown h
    · split
      · exact bumpPort_grown (arriveFail_grown h)
      · split
        · exact bumpPort_grown (arriveFail_grown h)
        · extract_lets _ _ t
          have ht : Grown old t := bump_grown (bump_grown h)
          split
          · split
            next u hu =>
              have hu := grown_of_eq (meterRun_grown ht) hu
              extract_lets _ t2
              have ht2 : Grown old t2 := bump_grown (bump_grown hu)
              split
              · exact bump_grown (arriveFail_grown ht2)
              · split
                · exact bump_grown ht2
                · exact ht2
          · exact ht

theorem fabricArrival_grown {l p kinds} (h : Grown old s) : Grown old (fabricArrival l p kinds s) := by
  unfold fabricArrival
  extract_lets i v t _ u _ edge w
  have ht : Grown old t := bump_grown (bump_grown h)
  have hu : Grown old u := grown_ite ht (grown_frame ht)
  have hw : Grown old w := grown_ite hu (bumpPort_grown hu)
  refine grown_ite hu (grown_ite (arriveDrop_grown (grown_frame hu)) (grown_ite (arriveDrop_grown (bumpPort_grown hu))
    (grown_ite (arriveDrop_grown hu) ?_)))
  split
  next x hq =>
  have hx : Grown old x := by
    split at hq
    · exact grown_of_eq (edgeChecks_grown hu) hq
    · split at hq
      · cases hq
        exact arriveFail_grown (grown_items hu)
      · split at hq
        · cases hq
          exact arriveFail_grown hw
        · cases hq
          exact hw
  split
  · exact hx
  · exact grown_ite (grown_ite (arriveEnter_grown (raiseEv_grown (bumpPort_grown hx)))
      (arriveFail_grown (raiseEv_grown (bumpPort_grown hx)))) (arriveEnter_grown hx)

/-! ### The link layer (chapter 06) -/

theorem setFallback_grown {l b} (h : Grown old s) : Grown old (setFallback l b s) := setReg_grown h
theorem lanesToDetect_grown {l} (h : Grown old s) : Grown old (lanesToDetect l s) := modLink_grown (modLanes_grown h)
theorem findFailure_grown {l cause} (h : Grown old s) : Grown old (findFailure l cause s) := grown_ite h (setLink_grown h)
theorem sendCtl_grown {l m} (h : Grown old s) : Grown old (sendCtl l m s) := modLink_grown h
theorem sendCtlFirst_grown {l m} (h : Grown old s) : Grown old (sendCtlFirst l m s) := modLink_grown h
theorem startNego_grown {l} (h : Grown old s) : Grown old (startNego l s) := sendCtl_grown (modLink_grown h)
theorem applyAck_grown {l ack} (h : Grown old s) : Grown old (applyAck l ack s) := grown_ite h (setLink_grown h)
theorem replayNow_grown {l} (h : Grown old s) : Grown old (replayNow l s) := grown_ite h (bumpPort_grown (setLink_grown h))
theorem applyNak_grown {l ack} (h : Grown old s) : Grown old (applyNak l ack s) := grown_ite h (replayNow_grown h)
theorem sendNotice_grown {up l} (h : Grown old s) : Grown old (sendNotice up l s) := inject_grown h
theorem holdUnnamed_grown {l mask} (h : Grown old s) : Grown old (holdUnnamed l mask s) := modLanes_grown h

theorem endNego_grown {l} (h : Grown old s) : Grown old (endNego l s) := by
  unfold endNego
  extract_lets
  split
  · exact grown_ite (raiseEv_grown (setLink_grown h)) (grown_ite (raiseEv_grown (setLink_grown h)) (grown_ite
    (lanesToDetect_grown (setLink_grown h)) (grown_ite (raiseEv_grown (grown_ite (sendNotice_grown (holdUnnamed_grown
    (setLink_grown h))) (holdUnnamed_grown (setLink_grown h)))) (grown_ite (sendNotice_grown (holdUnnamed_grown
    (setLink_grown h))) (holdUnnamed_grown (setLink_grown h))))))
  · exact h

theorem lanesRx_grown {l f} (h : Grown old s) : PairGrown old (lanesRx l f s) :=
  modLink_grown (bump_grown (bump_grown (grown_foldl (fun _ _ hs => setLane_grown hs) h)))

theorem discardFrame_grown {l} (h : Grown old s) : Grown old (discardFrame l s) := grown_ite h (bumpPort_grown (setLink_grown h))
theorem acceptFrame_grown {l ret} (h : Grown old s) : Grown old (acceptFrame l ret s) := modLink_grown h

theorem frameIn_grown {l y body} (h : Grown old s) : Grown old (frameIn l y body s) := by
  unfold frameIn
  exact endNego_grown (grown_ite (grown_ite (applyNak_grown (applyAck_grown h)) (applyAck_grown h)) (grown_ite
    (acceptFrame_grown (grown_ite (modLink_grown (grown_ite (applyNak_grown (applyAck_grown h)) (applyAck_grown h)))
    (grown_ite (applyNak_grown (applyAck_grown h)) (applyAck_grown h)))) (discardFrame_grown (grown_ite
    (applyNak_grown (applyAck_grown h)) (applyAck_grown h)))))

theorem linkFrame_grown {l f} (h : Grown old s) : Grown old (linkFrame l f s) := by
  unfold linkFrame
  split
  · exact h
  · split
    next u hu =>
      have hu := grown_of_eq (lanesRx_grown h) hu
      exact discardFrame_grown hu
    next u hu =>
      have hu := grown_of_eq (lanesRx_grown h) hu
      split
      · exact frameIn_grown hu
      · exact discardFrame_grown (modLink_grown hu)

theorem execNakRepeatTimeout_grown {l} (h : Grown old s) : OutGrown old (execNakRepeatTimeout l s) := by
  unfold execNakRepeatTimeout
  split
  · split
    · exact bumpPort_grown (modLink_grown h)
    · exact h
  · exact h

theorem execReplayLimitRetrain_grown {l} (h : Grown old s) : OutGrown old (execReplayLimitRetrain l s) := by
  unfold execReplayLimitRetrain
  extract_lets _ t
  have ht : Grown old t := bumpPort_grown (setLink_grown h)
  split
  · exact modLanes_grown ht
  · exact h

theorem execLinkFallback_grown {l} (h : Grown old s) : OutGrown old (execLinkFallback l s) := by
  unfold execLinkFallback
  extract_lets
  split
  · exact findFailure_grown (setFallback_grown (setLink_grown h))
  · exact h

theorem execLinkCap_grown {l c} (h : Grown old s) : OutGrown old (execLinkCap l c s) := by
  unfold execLinkCap
  extract_lets
  split
  · exact findFailure_grown (setLink_grown h)
  · split
    · exact endNego_grown (setLink_grown h)
    · exact h

theorem execLinkCapTimeout_grown {l} (h : Grown old s) : OutGrown old (execLinkCapTimeout l s) := by
  unfold execLinkCapTimeout
  extract_lets
  split
  · exact lanesToDetect_grown (setLink_grown h)
  · exact h

theorem execCreditAuditDue_grown {l} (h : Grown old s) : OutGrown old (execCreditAuditDue l s) := by
  unfold execCreditAuditDue
  extract_lets
  split
  · exact setPhase_grown (sendCtlFirst_grown h)
  · exact h

theorem execAudit_grown {l m} (h : Grown old s) : OutGrown old (execAudit l m s) := by
  unfold execAudit
  split
  · exact h
  · exact sendCtl_grown (modLink_grown (grown_foldl (fun _ _ hs => auditMismatch_grown (bumpPort_grown hs)) h))

theorem execAuditResult_grown {l m} (h : Grown old s) : OutGrown old (execAuditResult l m s) := by
  unfold execAuditResult
  split
  · exact h
  · exact modLink_grown h

theorem execPartitionFreeze_grown {l} (h : Grown old s) : OutGrown old (execPartitionFreeze l s) := by
  unfold execPartitionFreeze
  split
  · exact h
  · exact modLink_grown h

theorem execResyncSend_grown {l} (h : Grown old s) : OutGrown old (execResyncSend l s) := by
  unfold execResyncSend
  extract_lets
  split
  · exact h
  · exact sendCtl_grown (setLink_grown h)

theorem execResync_grown {l m} (h : Grown old s) : OutGrown old (execResync l m s) := by
  unfold execResync
  split
  · exact h
  · exact modLink_grown h

theorem execPartitionUnfreeze_grown {l} (h : Grown old s) : OutGrown old (execPartitionUnfreeze l s) := by
  unfold execPartitionUnfreeze
  split
  · exact h
  · exact modLink_grown h

end Machine
end Sys2Proof
end

section
/-!
PROOF. No command clears a fuse (R669, R670, R716), part two: the core, the Larder, the rings, own items and traffic management.
-/
namespace Sys2Proof
namespace Machine
set_option Elab.async false

variable {s t : State} {old : Fuses}

/-! ### The cyclic core (chapter 07) -/

theorem trimBlocks_grown {i o} (h : Grown old s) : Grown old (trimBlocks i o s) := grown_ite h (modOut_grown (setIn_grown h))

theorem freeCredits_grown {i o n} (h : Grown old s) : Grown old (freeCredits i o n s) :=
  trimBlocks_grown (modOut_grown (modIn_grown h))

theorem freeReplicas_grown {o ms} (h : Grown old s) : Grown old (freeReplicas o ms s) :=
  grown_foldl (fun _ _ hs => modOut_grown (setSlice_grown hs)) h

theorem lendOne_grown {i o} (h : Grown old s) : Grown old (lendOne i s o) := modOut_grown (modIn_grown h)
theorem lendInput_grown {i} (h : Grown old s) : Grown old (lendInput s i) := grown_foldl (fun _ _ hs => lendOne_grown hs) h
theorem freeUnits_grown {i q u} (h : Grown old s) : Grown old (freeUnits i q u s) := (freeUnits_input ..).grown h

theorem sentCell_grown {i e e'} (h : Grown old s) : Grown old (sentCell i e e' s) := by
  unfold sentCell
  extract_lets t
  have ht : Grown old t := modIn_grown h
  exact ht

theorem crossContrib_grown {i m e} (h : Grown old s) : Grown old (crossContrib i m e s) := by
  unfold crossContrib
  split
  · exact freeUnits_grown (sentCell_grown (setSlice_grown h))
  · exact h

theorem crossOne_grown {i m e} (h : Grown old s) : Grown old (crossOne i m e s) := by
  unfold crossOne
  exact grown_ite (trimBlocks_grown (freeUnits_grown (sentCell_grown (grown_ite (modIn_grown (grown_ite
    (modOut_grown h) h)) (setSlice_grown (modIn_grown (grown_ite (modOut_grown h) h))))))) (freeUnits_grown
    (sentCell_grown (grown_ite (modIn_grown (grown_ite (modOut_grown h) h)) (setSlice_grown (modIn_grown (grown_ite
    (modOut_grown h) h))))))

theorem stageOne_grown {i} (h : Grown old s) : Grown old (stageOne s i) := by
  unfold stageOne
  extract_lets
  split
  · exact grown_ite (crossContrib_grown h) (crossOne_grown h)
  · exact h

theorem sendOut_grown {m o bad e} (h : Grown old s) : Grown old (sendOut m o bad e s) := by
  unfold sendOut
  extract_lets _ _ _ _ _ _ t
  have ht : Grown old t := modOut_grown (setSlice_grown h)
  exact ht

theorem stageTwo_grown {errs m} (h : Grown old s) : Grown old (stageTwo errs s m) := by
  unfold stageTwo
  extract_lets
  split
  · exact h
  · exact grown_ite (sendOut_grown (raiseEv_grown h)) (sendOut_grown h)

theorem sampleDepths_grown {depth} (h : Grown old s) : Grown old (sampleDepths depth s) :=
  grown_ite (grown_foldl (fun _ _ hs => grown_foldl (fun _ _ hs => bump_grown hs) hs) h) h

theorem phaseZero_grown (h : Grown old s) : Grown old (phaseZero s) := grown_ite h h

theorem coreCross_grown {errs} (h : Grown old s) : Grown old (coreCross errs s) :=
  grown_foldl (fun _ _ hs => stageOne_grown hs) (grown_foldl (fun _ _ hs => stageTwo_grown hs) (grown_foldl
    (fun _ _ hs => lendInput_grown hs) (phaseZero_grown h)))

theorem closeRecord_grown {r} (h : Grown old s) : Grown old (closeRecord r s) := (closeRecord_core ..).grown h
theorem mcCount_grown {o ok st p} (h : Grown old s) : Grown old (mcCount o ok st p s) := (mcCount_core ..).grown h
theorem countLeft_grown {o n} (h : Grown old s) : Grown old (countLeft o n s) := h
theorem forgetDead_grown {o} (h : Grown old s) : Grown old (forgetDead o s) := modOut_grown h
theorem dropCell_grown {o c} (h : Grown old s) : Grown old (dropCell o c s) := countLeft_grown (freeCredits_grown h)

theorem loseRef_grown {o st r} (h : Grown old s) : Grown old (loseRef o st r s) := by
  unfold loseRef
  split
  · exact h
  · exact h

theorem failCell_grown {o st c} (h : Grown old s) : Grown old (failCell o st c s) :=
  grown_ite h (loseRef_grown (sendFail_grown (bumpPort_grown h)))

theorem markDead_grown {o uid} (h : Grown old s) : Grown old (markDead o uid s) := modOut_grown h

theorem freeHeld_grown {o uid st} (h : Grown old s) : Grown old (freeHeld o uid st s) :=
  grown_foldl (fun _ _ hs => dropCell_grown (failCell_grown hs)) (modOut_grown h)

theorem discardAt_grown {o uid st} (h : Grown old s) : Grown old (discardAt o uid st s) := by
  unfold discardAt
  extract_lets t
  have ht : Grown old t := markDead_grown h
  split
  · exact freeHeld_grown ht
  · exact grown_ite ht (grown_ite (freeHeld_grown (modOut_grown (loseRef_grown (grown_ite (sendFail_grown
    (bumpPort_grown ht)) (mcCount_grown (bumpPort_grown ht)))))) (freeHeld_grown (grown_ite (countLeft_grown
    (modOut_grown (loseRef_grown (grown_ite (sendFail_grown (bumpPort_grown ht)) (mcCount_grown
    (bumpPort_grown ht)))))) (grown_ite (freeCredits_grown (countLeft_grown (modOut_grown (loseRef_grown (grown_ite
    (sendFail_grown (bumpPort_grown ht)) (mcCount_grown (bumpPort_grown ht))))))) (freeReplicas_grown (countLeft_grown
    (modOut_grown (loseRef_grown (grown_ite (sendFail_grown (bumpPort_grown ht)) (mcCount_grown
    (bumpPort_grown ht)))))))))))

theorem acceptCell_grown {o y} (h : Grown old s) : Grown old (acceptCell o y s) :=
  grown_ite h (grown_ite (dropCell_grown (failCell_grown h)) (grown_ite (grown_ite (dropCell_grown (failCell_grown
    (markDead_grown h))) (setOut_grown h)) (grown_ite (setOut_grown h) (dropCell_grown (markDead_grown h)))))

theorem drainHeld_grown {o k n} (h : Grown old s) : Grown old (drainHeld o k n s) := by
  induction n generalizing s with
  | zero => exact h
  | succ n ih =>
    unfold drainHeld
    extract_lets
    split
    · exact h
    · exact ih (acceptCell_grown (setOut_grown h))

theorem arriveUnicast_grown {o c} (h : Grown old s) : Grown old (arriveUnicast o c s) :=
  grown_ite (dropCell_grown (failCell_grown h)) (drainHeld_grown (modOut_grown (grown_ite (dropCell_grown
    (failCell_grown (grown_ite (discardAt_grown h) h))) (grown_ite (discardAt_grown h) h))))

theorem arriveMcast_grown {o c m} (h : Grown old s) : Grown old (arriveMcast o c m s) := by
  unfold arriveMcast
  exact grown_ite (countLeft_grown (freeReplicas_grown h)) (grown_ite (grown_ite (countLeft_grown (freeReplicas_grown
    (discardAt_grown h))) (countLeft_grown (freeReplicas_grown (markDead_grown (loseRef_grown (mcCount_grown
    (bumpPort_grown h))))))) (grown_ite (setOut_grown h) (setOut_grown h)))

theorem ageSweep_grown {o} (h : Grown old s) : Grown old (ageSweep o s) := by
  unfold ageSweep
  extract_lets _ _ _ _ t
  have ht : Grown old t := grown_foldl (fun _ _ hs => discardAt_grown hs) h
  split
  · exact h
  · split
    · exact h
    · exact grown_ite h (forgetDead_grown (drainHeld_grown (modOut_grown (grown_ite ht (discardAt_grown ht)))))

theorem execPoolAudit_grown {j} (h : Grown old s) : OutGrown old (execPoolAudit j s) := by
  unfold execPoolAudit
  split
  · exact grown_ite (grown_frame (auditMismatch_grown h)) h
  · exact h

theorem rebuildPool_grown {j} (h : Grown old s) : Grown old (rebuildPool j s) := by
  unfold rebuildPool
  split
  · exact modIn_grown h
  · split
    · exact setSlice_grown h
    · split
      · exact h
      · exact modOut_grown h

theorem execPoolRebuildDone_grown {j} (h : Grown old s) : OutGrown old (execPoolRebuildDone j s) := by
  unfold execPoolRebuildDone
  split
  · split
    · exact rebuildPool_grown h
    · exact h
  · exact h

/-! ### The Larder (chapter 11) -/

theorem bindPage_grown {k tenant} (h : Grown old s) : Grown old (bindPage k tenant s) := (bindPage_host ..).grown h
theorem countLine_grown {cls wr tenant x} (h : Grown old s) : Grown old (countLine cls wr tenant s x) := (countLine_booked ..).grown h
theorem countPlace_grown {cls wr tenant p} (h : Grown old s) : Grown old (countPlace cls wr tenant p s) := (countPlace_booked ..).grown h

theorem translate_grown {coat tenant page line} (h : Grown old s) : Grown old (translate coat tenant page line s) :=
  grown_ite h (bump_grown h)

theorem translateAll_grown {coat tenant off p} (h : Grown old s) : Grown old (translateAll coat tenant off p s) := by
  unfold translateAll
  split
  · exact grown_foldl (fun _ _ hs => translate_grown hs) h
  · exact h

theorem retireFrame_grown {f st} (h : Grown old s) : Grown old (retireFrame f st s) :=
  have hs := bump_grown (p := stackPage st) (w := 13) (n := 1) (raiseEv_grown h)
  grown_ite h (grown_ite (grown_frame hs) (grown_frame hs))

theorem foundBad_grown {row addr p} (h : Grown old s) : Grown old (foundBad row addr p s) := by
  unfold foundBad
  extract_lets t
  have ht : Grown old t := raiseEv_grown h
  split
  · exact grown_foldl (fun _ _ hs => retireFrame_grown (bump_grown hs)) ht
  · exact ht

theorem countRefused_grown {x st} (h : Grown old s) : Grown old (countRefused x st s) := (countRefused_core ..).grown h
theorem refuse_grown {st p} (h : Grown old s) : Grown old (refuse st p s) := (refuse_core ..).grown h
theorem markFailed_grown {p} (h : Grown old s) : Grown old (markFailed p s) := h

theorem readPiece_grown {r} (h : Grown old s) : Grown old (readPiece r s) := by
  unfold readPiece
  extract_lets _ _ _ t
  have ht : Grown old t := foundBad_grown h
  split
  · exact inject_grown h
  · exact grown_ite ht (markFailed_grown (sendFail_grown ht))

theorem countWrite_grown {port p} (h : Grown old s) : Grown old (countWrite port p s) := (countWrite_core ..).grown h

theorem writePacket_grown {r} (h : Grown old s) : Grown old (writePacket r s) := by
  unfold writePacket
  extract_lets
  split
  next u _ hu =>
    have hu := grown_of_eq_fst (placeWrite_grown h) hu
    exact grown_ite (mcCount_grown (grown_ite hu (foundBad_grown hu))) (grown_ite (countWrite_grown (grown_ite hu
      (foundBad_grown hu))) (sendFail_grown (grown_ite hu (foundBad_grown hu))))

theorem placeAtomic_grown {op pl x y} (h : Grown old s) : PairGrown old (placeAtomic op pl x y s) := by
  unfold placeAtomic
  extract_lets _ t
  have ht : Grown old t := by
    unfold t
    split
    · exact bump_grown h
    · exact h
  split
  · exact h
  · exact placeWrite_grown ht

theorem atomicPacket_grown {r} (h : Grown old s) : Grown old (atomicPacket r s) := by
  unfold atomicPacket
  extract_lets
  split
  · split
    next u hu =>
      have hu := grown_of_eq (placeAtomic_grown h) hu
      exact sendFail_grown (foundBad_grown hu)
    next u hu =>
      have hu := grown_of_eq (placeAtomic_grown h) hu
      exact inject_grown hu

theorem perform_grown {r} (h : Grown old s) : Grown old (perform r s) :=
  grown_ite (readPiece_grown (countPlace_grown h)) (grown_ite (writePacket_grown (countPlace_grown h))
    (atomicPacket_grown (countPlace_grown h)))

theorem noteLine_grown {st} (h : Grown old s) : Grown old (noteLine s st) := h
theorem noteTaken_grown {r} (h : Grown old s) : Grown old (noteTaken r s) := (noteTaken_booked ..).grown h
theorem takeDelivered_grown {p} (h : Grown old s) : Grown old (takeDelivered p s) := (takeDelivered_booked ..).grown h
theorem offer_grown {r} (h : Grown old s) : Grown old (offer s r) := grown_ite (perform_grown (noteTaken_grown h)) h

theorem admitRequest_grown {p pl} (h : Grown old s) : Grown old (admitRequest p pl s) := by
  unfold admitRequest
  extract_lets
  split
  · exact grown_foldl (fun _ _ hs => offer_grown hs) (translateAll_grown (takeDelivered_grown h))
  · exact grown_ite h (grown_foldl (fun _ _ hs => perform_grown hs) (translateAll_grown (takeDelivered_grown h)))
  · exact grown_foldl (fun _ _ hs => perform_grown hs) (translateAll_grown (takeDelivered_grown h))

theorem memRequest_grown {p} (h : Grown old s) : Grown old (memRequest p s) := by
  unfold memRequest
  split
  · exact refuse_grown (takeDelivered_grown h)
  · split
    · exact h
    · split
      · exact refuse_grown (takeDelivered_grown h)
      · exact admitRequest_grown h

theorem zeroLine_grown {x} (h : Grown old s) : Grown old (zeroLine x s) := h

theorem fillOne_grown {st} (h : Grown old s) : Grown old (fillOne st s) := by
  unfold fillOne
  split
  · exact h
  · split
    · exact h
    · exact zeroLine_grown (grown_frame (countLine_grown (noteLine_grown h)))

theorem controllerSlot_grown {st n} (h : Grown old s) : Grown old (controllerSlot st n s) := by
  induction n generalizing s with
  | zero => exact h
  | succ n ih =>
    unfold controllerSlot
    split
    · exact h
    · exact ih (fillOne_grown h)
    · exact ih (perform_grown (noteTaken_grown h))

theorem execWriteTrackingTimeout_grown {src tag} (h : Grown old s) : OutGrown old (execWriteTrackingTimeout src tag s) := by
  unfold execWriteTrackingTimeout
  split
  · exact grown_ite h h
  · exact h

theorem execScrubRead_grown {line corrected bad} (h : Grown old s) : OutGrown old (execScrubRead line corrected bad s) := by
  unfold execScrubRead
  split
  · exact h
  · extract_lets _ t _ _ t1 _ t2 _ t3
    have ht : Grown old t := grown_ite h h
    have ht1 : Grown old t1 := bump_grown (bump_grown ht)
    have ht3 : Grown old t3 := grown_foldl (fun _ _ hs => raiseEv_grown (bump_grown hs)) ht1
    exact grown_ite (retireFrame_grown ht3) ht3

theorem goRetire_grown {f} (h : Grown old s) : Grown old (goRetire f s) := grown_ite h (retireFrame_grown h)

theorem execFrameRetireCopyDone_grown {f} (h : Grown old s) : OutGrown old (execFrameRetireCopyDone f s) := by
  unfold execFrameRetireCopyDone
  split
  · exact grown_ite h h
  · exact h

/-! ### Rings and descriptors (chapter 04) -/

theorem withDesc_grown {d op body} (hb : ∀ a s, Grown old s → Grown old (body a s)) (h : Grown old s) :
    Grown old (withDesc d op s body) := by
  unfold withDesc
  split
  · exact h
  · exact grown_ite (hb _ _ (modFlight_grown h)) h

theorem addWaits_grown {d n} (h : Grown old s) : Grown old (addWaits d n s) := modFlight_grown h

theorem execDescriptorFenceRelease_grown {d} (h : Grown old s) : OutGrown old (execDescriptorFenceRelease d s) := by
  unfold execDescriptorFenceRelease
  split
  · exact grown_ite (modFlight_grown h) h
  · exact h

theorem timedStart_grown {d} (h : Grown old s) : Grown old (timedStart d s) := by
  unfold timedStart
  split
  · exact grown_ite (modFlight_grown h) h
  · exact h

theorem execReservedOpcode_grown {d} (h : Grown old s) : OutGrown old (execReservedOpcode d s) := by
  unfold execReservedOpcode
  split
  · exact grown_ite (complete_grown h) h
  · exact h

theorem ringConfig_grown {d f} (h : Grown old s) : Grown old (ringConfig d f s) := by
  unfold ringConfig
  split
  · exact complete_grown h
  · extract_lets t
    have ht : Grown old t := modFlight_grown h
    split
    · exact complete_grown ht
    · split
      · exact complete_grown ht
      · split
        · exact complete_grown ht
        · split
          · exact complete_grown (setCq_grown ht)
          · exact complete_grown (setSq_grown ht)
          · exact ht

theorem putSqCons_grown {i} (h : Grown old s) : Grown old (putSqCons i s) := (putSqCons_host ..).grown h

theorem doorbellPoll_grown (h : Grown old s) : Grown old (doorbellPoll s) :=
  grown_ite (bump_grown h) (hostRead_grown (bump_grown h))

theorem applyCqCons_grown {page j} (h : Grown old s) : Grown old (applyCqCons page j s) :=
  grown_ite h (grown_ite (cqInterrupt_grown (setCq_grown h)) (setCq_grown h))

theorem applyEvCons_grown {page} (h : Grown old s) : Grown old (applyEvCons page s) := grown_ite h h

theorem applySqProd_grown {page i} (h : Grown old s) : Grown old (applySqProd page i s) := by
  unfold applySqProd
  extract_lets
  split
  · exact h
  · split
    · exact setSq_grown h
    · split
      next u hu =>
        have hu := grown_of_eq (takeFree_grown h) hu
        exact setSq_grown hu

theorem fetchRing_grown {i n} (h : Grown old s) : Grown old (fetchRing i n s) := by
  unfold fetchRing
  extract_lets _ _ _ _ t _ t1 t2
  have ht : Grown old t := setSq_grown h
  have ht2 : Grown old t2 := hostRead_grown ht
  exact grown_ite (hostRead_grown ht2) ht2

theorem fetchAll_grown {is left} (h : Grown old s) : Grown old (fetchAll is left s) := by
  induction is generalizing left s with
  | nil => exact h
  | cons y ys ih =>
    unfold fetchAll
    exact grown_ite (ih h) (ih (fetchRing_grown h))

theorem applyPage_grown {page} (h : Grown old s) : Grown old (applyPage page s) :=
  applyEvCons_grown (grown_foldl (fun _ _ hs => applyCqCons_grown (applySqProd_grown hs)) h)

theorem doorbellApply_grown (h : Grown old s) : Grown old (doorbellApply s) :=
  grown_ite h (grown_ite (evFlush_grown (grown_foldl (fun _ _ hs => applyPage_grown hs) h)) (fetchAll_grown
    (evFlush_grown (grown_foldl (fun _ _ hs => applyPage_grown hs) h))))

theorem auditRing_grown {i} (h : Grown old s) : Grown old (auditRing s i) := (auditRing_host ..).grown h

/-! ### The part's own items (chapter 05) -/

theorem injectOwn_grown {i p} (h : Grown old s) : Grown old (injectOwn i p s) := (injectOwn_core ..).grown h
theorem dropOwn_grown {tag} (h : Grown old s) : Grown old (dropOwn tag s) := h

theorem sendItem_grown {i tags base len payload use} (h : Grown old s) :
    OptGrown old (sendItem i tags base len payload use s) := by
  unfold sendItem
  split
  · exact trivial
  · extract_lets _ _ _ _ t
    have ht : Grown old t := grown_foldl (fun _ _ hs => injectOwn_grown hs) h
    exact ht

theorem takeAnswer_grown {p} (h : Grown old s) : PairGrown old (takeAnswer p s) := by
  unfold takeAnswer
  extract_lets t
  have ht : Grown old t := takeDelivered_grown h
  split
  · split
    · exact ht
    · exact ht
  · exact ht

theorem countRead_grown {o p} (h : Grown old s) : Grown old (countRead o p s).2.2 := grown_frame h

/-! ### Traffic management (chapter 09) -/

theorem swapRequest_grown {l} (h : Grown old s) : Grown old (swapRequest l s) := grown_ite h (setTm_grown h)

theorem gateBankSwap_grown {l} (h : Grown old s) : Grown old (gateBankSwap l s) := by
  unfold gateBankSwap
  extract_lets
  split
  · exact h
  · split
    · exact h
    · split
      · exact setPhase_grown (raiseEv_grown (setTm_grown h))
      · exact setPhase_grown (setTm_grown h)

theorem grown_tm {x} (h : Grown old s) : Grown old { s with tm := x } := h
theorem gateStep_grown (h : Grown old s) : Grown old (gateStep s) := grown_tm h

theorem layTail_grown {l q} (h : Grown old s) : Grown old (layTail l q s) := by
  unfold layTail
  extract_lets
  split
  · split
    · exact grown_ite h (setLink_grown h)
    · exact h
  · exact h

theorem startOn_grown {l v q} (h : Grown old s) : Grown old (startOn l v q s) :=
  bump_grown (bump_grown (peepFrame_grown (layTail_grown (modOut_grown (modLink_grown (modPart_grown h))))))

theorem countGuard_grown {l} (h : Grown old s) : Grown old (countGuard l s) := by
  unfold countGuard
  refine grown_foldl (fun u _ hs => ?_) h
  split
  · split
    · exact bump_grown hs
    · exact hs
  · exact hs

theorem packetStart_grown {l} (h : Grown old s) : Grown old (packetStart l s) := by
  unfold packetStart
  extract_lets _ t
  have ht : Grown old t := countGuard_grown h
  split
  · exact h
  · split
    · exact ht
    · split
      · exact ht
      · exact startOn_grown (setTm_grown ht)

theorem countStalls_grown {l} (h : Grown old s) : Grown old (countStalls l s) := by
  unfold countStalls
  split
  · exact h
  · refine grown_foldl (fun u _ hs => ?_) h
    split
    · split
      · exact bump_grown hs
      · exact bump_grown hs
      · exact bump_grown hs
      · exact hs
    · exact hs

theorem congest_grown {o} (h : Grown old s) : Grown old (congest o s) :=
  grown_foldl (fun _ _ hs => grown_ite (modIn_grown hs) hs) h

theorem refillAll_grown (h : Grown old s) : Grown old (refillAll s) := by
  unfold refillAll
  extract_lets t u
  have ht : Grown old t := grown_foldl (fun _ _ hs => setTm_grown hs) h
  have hu : Grown old u := grown_frame ht
  exact grown_foldl (fun _ _ hs => modIn_grown hs) hu

theorem modEth_grown {l f} (h : Grown old s) : Grown old (modEth l f s) := (modEth_qps ..).grown h
theorem modQp_grown {q f} (h : Grown old s) : Grown old (modQp q f s) := (modQp_qps ..).grown h

end Machine
end Sys2Proof
end

section
/-!
PROOF. No command clears a fuse (R669, R670, R716), part three: the gateway, the lanes, the Strongroom and the Attic.
-/
namespace Sys2Proof
namespace Machine
set_option Elab.async false

variable {s t : State} {old : Fuses}

/-! ### Ethernet ports and the gateway (chapter 17) -/

theorem bumpEth_grown {l w n} (h : Grown old s) : Grown old (bumpEth l w n s) := bump_grown h

theorem ethSend_grown {l v f} (h : Grown old s) : Grown old (ethSend l v f s) := by
  unfold ethSend
  extract_lets
  split
  · exact modEth_grown h
  · split
    · exact modEth_grown (bump_grown h)
    · exact modEth_grown (bumpEth_grown h)

theorem pfcSend_grown {l c quanta} (h : Grown old s) : Grown old (pfcSend l c quanta s) := bumpEth_grown (modEth_grown h)

theorem pumpOut_grown {q n} (h : Grown old s) : Grown old (pumpOut q n s) := by
  induction n generalizing s with
  | zero => exact h
  | succ n ih =>
    unfold pumpOut
    extract_lets
    split
    · exact grown_ite (ih (ethSend_grown (modQp_grown h))) h
    · exact h

theorem qpSend_grown {q p} (h : Grown old s) : Grown old (qpSend q p s) := pumpOut_grown (modQp_grown h)

theorem ethCount_grown {l which} (h : Grown old s) : Grown old (ethCount l which s) := by
  unfold ethCount
  refine grown_foldl (fun u _ hs => ?_) h
  split
  · split
    · exact bump_grown hs
    · exact hs
  · exact hs

theorem ethStart_grown {l} (h : Grown old s) : Grown old (ethStart l s) := by
  unfold ethStart
  extract_lets _ t
  have ht : Grown old t := ethCount_grown h
  split
  · exact h
  · split
    · exact ht
    · split
      · exact ht
      · exact bump_grown (bump_grown (peepFrame_grown (modEth_grown (setTm_grown ht))))

theorem ethLast_grown {l} (h : Grown old s) : Grown old (ethLast l s) := by
  unfold ethLast
  split
  · exact h
  · exact grown_ite h (bumpEth_grown (bumpEth_grown (modEth_grown h)))

theorem ethCame_grown {l disc bs} (h : Grown old s) : Grown old (ethCame l disc bs s) :=
  peepFrame_grown (bumpEth_grown (bumpEth_grown (bump_grown (bump_grown h))))

theorem ethMeter_grown {l bs} (h : Grown old s) : PairGrown old (ethMeter l bs s) := by
  unfold ethMeter
  extract_lets
  split
  next u hu =>
    have hu := grown_of_eq (meterRun_grown h) hu
    extract_lets _ t
    have ht : Grown old t := bumpEth_grown hu
    split
    · exact ht
    · split
      · exact bumpEth_grown ht
      · exact ht
    · exact ht

theorem ethPass_grown {l bs} (h : Grown old s) : PairGrown old (ethPass l bs s) := by
  unfold ethPass
  split
  next u hu =>
    have hu := grown_of_eq (ethMeter_grown h) hu
    exact ethCame_grown hu
  next u hu =>
    have hu := grown_of_eq (ethMeter_grown h) hu
    split
    · exact ethCame_grown hu
    · exact ethCame_grown hu

theorem ethReply_grown {l bs f} (h : Grown old s) : Grown old (ethReply l bs f s) := by
  unfold ethReply
  split
  next u hu =>
    have hu := grown_of_eq (ethPass_grown h) hu
    exact hu
  next u hu =>
    have hu := grown_of_eq (ethPass_grown h) hu
    exact ethSend_grown hu

theorem pfcCheck_grown {l c} (h : Grown old s) : Grown old (pfcCheck l c s) :=
  grown_ite (pfcSend_grown (modEth_grown h)) (grown_ite (pfcSend_grown (modEth_grown h)) h)

theorem execPfcPauseRepeat_grown {l c} (h : Grown old s) : OutGrown old (execPfcPauseRepeat l c s) := by
  unfold execPfcPauseRepeat
  split
  · exact grown_ite (pfcSend_grown (modEth_grown h)) h
  · exact h

theorem withQp_grown {d f bound body} (hb : ∀ a s, Grown old s → Grown old (body a s)) (h : Grown old s) :
    Grown old (withQp d f bound s body) := by
  unfold withQp
  split
  · exact complete_grown h
  · exact grown_ite (complete_grown (modFlight_grown h)) (grown_ite (complete_grown (modFlight_grown h)) (hb _ _
    (modFlight_grown h)))

theorem qpGot_grown {d st bs} (h : Grown old s) : Grown old (qpGot d st bs s) := by
  unfold qpGot
  split
  · exact h
  · split
    · exact h
    · exact grown_ite (complete_grown h) (grown_ite (complete_grown h) (complete_grown (modQp_grown h)))

theorem gwDesc_grown {op d f} (h : Grown old s) : Grown old (gwDesc op d f s) := by
  unfold gwDesc
  refine withQp_grown (fun _ u hs => ?_) h
  extract_lets
  split
  · exact complete_grown hs
  · split
    · exact complete_grown hs
    · exact complete_grown hs
    · exact complete_grown hs
    · exact modQp_grown (modFlight_grown hs)

theorem modGwOut_grown {q d f} (h : Grown old s) : Grown old (modGwOut q d f s) := modQp_grown h

theorem gwPump_grown {q} (h : Grown old s) : Grown old (gwPump q s) := by
  unfold gwPump
  extract_lets
  split
  · split
    · exact h
    · split
      · exact h
      · extract_lets _ t _ _ t1
        have ht : Grown old t := grown_ite h (modQp_grown h)
        have ht1 : Grown old t1 := modGwOut_grown ht
        split
        · exact qpSend_grown ht1
        · split
          next u hu =>
            have hu := grown_of_some (sendItem_grown ht) hu
            exact modGwOut_grown hu
          · exact modGwOut_grown ht
  · exact h

theorem gwStart_grown {f} (h : Grown old s) : Grown old (execGwWrite.gwStart f s) := by
  unfold execGwWrite.gwStart
  split
  · exact gwPump_grown h
  · exact h

theorem execGwRecvPost_grown {d} (h : Grown old s) : OutGrown old (execGwRecvPost d s) := by
  unfold execGwRecvPost
  refine withDesc_grown (fun _ u0 hs0 => ?_) h
  refine withQp_grown (fun _ u1 hs1 => ?_) hs0
  extract_lets
  split
  · exact complete_grown hs1
  · exact grown_ite (complete_grown hs1) (complete_grown (modQp_grown hs1))

theorem qpCancel_grown {q st} (h : Grown old s) : Grown old (qpCancel q st s) := (qpCancel_rested ..).grown h
theorem qpToStopping_grown {q} (h : Grown old s) : Grown old (qpToStopping q s) := (qpToStopping_qps ..).grown h

theorem qpStop_grown {q syndrome st} (h : Grown old s) : Grown old (qpStop q syndrome st s) :=
  qpToStopping_grown (raiseEv_grown h)

theorem gwEnd_grown {q d st} (h : Grown old s) : Grown old (gwEnd q d st s) := (gwEnd_rested ..).grown h
theorem ethPortDown_grown {l} (h : Grown old s) : Grown old (ethPortDown l s) := (ethPortDown_qps ..).grown h

theorem qpStarting_grown {q} (h : Grown old s) : Grown old (qpStarting q s) := by
  unfold qpStarting
  extract_lets
  split
  · exact h
  · exact modQp_grown h

theorem gwNak_grown {q l syn st psn} (h : Grown old s) : Grown old (gwNak q l syn st psn s) :=
  grown_ite (bumpEth_grown (grown_ite h (qpSend_grown h))) (qpStop_grown (bumpEth_grown (grown_ite h (qpSend_grown h))))

theorem cnpSend_grown {q l} (h : Grown old s) : Grown old (cnpSend q l s) :=
  grown_ite (bumpEth_grown (qpSend_grown (modQp_grown h))) h

theorem readItems_grown {q c tenant psn n a len} (h : Grown old s) : OptGrown old (readItems q c tenant psn n a len s) := by
  induction n generalizing a len s with
  | zero => exact h
  | succ n ih =>
    unfold readItems
    split
    · exact h
    · extract_lets
      split
      next u hu =>
        have hu := grown_of_some (sendItem_grown h) hu
        exact ih hu
      · exact trivial

theorem startReads_grown {q c es} (h : Grown old s) : Grown old (startReads q c es s) := by
  induction es generalizing s with
  | nil => exact h
  | cons y ys ih =>
    unfold startReads
    split
    · exact h
    · split
      · exact ih h
      · split
        · exact h
        next u hu =>
          have hu := grown_of_some (readItems_grown h) hu
          exact ih (modQp_grown hu)

theorem sendAck_grown {q ack} (h : Grown old s) : Grown old (settleIns.sendAck q ack s) := by
  unfold settleIns.sendAck
  split
  · exact grown_ite h (qpSend_grown h)
  · exact h

theorem settleIns_grown {q c n ack} (h : Grown old s) : Grown old (settleIns q c n ack s) := by
  induction n generalizing ack s with
  | zero => exact sendAck_grown h
  | succ n ih =>
    unfold settleIns
    split
    · exact sendAck_grown h
    · split
      · exact sendAck_grown h
      · split
        · exact ih (grown_ite (modQp_grown (sendAck_grown h)) (grown_foldl (fun _ _ hs => qpSend_grown hs)
          (modQp_grown (sendAck_grown h))))
        · extract_lets
          split
          next u hu =>
            have hu := grown_of_some (sendItem_grown h) hu
            exact sendAck_grown (modQp_grown hu)
          · exact sendAck_grown h
        · exact ih (modQp_grown h)

theorem settleQp_grown {q} (h : Grown old s) : Grown old (settleQp q s) := by
  unfold settleQp
  split
  · exact h
  · exact startReads_grown (settleIns_grown (startReads_grown h))

theorem gwWr_grown {q c psn a bs} (h : Grown old s) : OptGrown old (gwWr q c psn a bs s) := by
  unfold gwWr
  split
  · exact h
  · exact sendItem_grown h

theorem gwData_grown {q c op m cur} (h : Grown old s) : OptGrown old (gwData q c op m cur s) := by
  unfold gwData
  split
  · extract_lets
    split
    · exact gwNak_grown h
    · split
      · exact trivial
      next u hu =>
        have hu := grown_of_some (gwWr_grown h) hu
        exact modQp_grown hu

theorem gwReadReq_grown {q c again m} (h : Grown old s) : OptGrown old (gwReadReq q c again m s) := by
  unfold gwReadReq
  extract_lets
  split
  · exact gwNak_grown h
  · split
    · exact trivial
    · exact modQp_grown h

theorem gwTake_grown {q c op m} (h : Grown old s) : OptGrown old (gwTake q c op m s) := by
  unfold gwTake
  extract_lets
  split
  · exact gwNak_grown h
  · split
    · split
      · exact gwReadReq_grown h
      · split
        · exact qpSend_grown h
    · split
      · exact gwNak_grown h
      · split
        · exact gwNak_grown h
        · split
          · exact gwReadReq_grown h
          · split
            · exact gwNak_grown h
            · exact gwData_grown h
          · split
            · exact gwNak_grown h
            · exact gwData_grown h
          · split
            · exact gwNak_grown h
            · split
              · exact gwNak_grown h
              · split
                · exact gwNak_grown h
                · split
                  next u hu =>
                    have hu := grown_of_some (gwData_grown h) hu
                    exact modQp_grown hu
                  · exact trivial
          · split
            · exact gwNak_grown h
            · split
              · exact gwNak_grown h
              · split
                · exact gwNak_grown h
                · split
                  next u hu =>
                    have hu := grown_of_some (gwData_grown h) hu
                    exact modQp_grown hu
                  · exact trivial
          · split
            · split
              · exact gwData_grown h
              · exact gwNak_grown h
            · exact gwNak_grown h

theorem gwDrain_grown {l ws} (h : Grown old s) : Grown old (gwDrain l ws s) := by
  induction ws generalizing s with
  | nil => exact h
  | cons y ys ih =>
    unfold gwDrain
    extract_lets
    split
    · exact ih h
    · split
      · exact ih (pfcCheck_grown (modEth_grown h))
      · split
        · exact ih (pfcCheck_grown (modEth_grown h))
        · split
          next u hu =>
            have hu := grown_of_some (gwTake_grown h) hu
            exact ih (settleQp_grown (pfcCheck_grown (modEth_grown hu)))
          · exact ih h

theorem gwRetry_grown (h : Grown old s) : Grown old (gwRetry s) := grown_foldl (fun _ _ hs => gwDrain_grown hs) h
theorem roceDiscard_grown {m} (h : Grown old s) : Grown old (roceDiscard m s) := grown_ite (bumpEth_grown (ethCame_grown h)) h

theorem roceCame_grown {m f} (hf : ∀ q c s, Grown old s → Grown old (f q c s)) (h : Grown old s) : Grown old (roceCame m s f) := by
  unfold roceCame
  split
  · exact roceDiscard_grown h
  · split
    next u hu =>
      have hu := grown_of_eq (ethPass_grown h) hu
      exact hu
    next u hu =>
      have hu := grown_of_eq (ethPass_grown h) hu
      exact hf _ _ _ (grown_ite (cnpSend_grown hu) hu)

theorem roceIn_grown {op m} (h : Grown old s) : Grown old (roceIn op m s) :=
  roceCame_grown (fun _ _ _ hs => gwDrain_grown (pfcCheck_grown (modEth_grown hs))) h

theorem modGwIn_grown {q psn f} (h : Grown old s) : Grown old (modGwIn q psn f s) := modQp_grown h
theorem gwInData_grown {q psn addr bs} (h : Grown old s) : Grown old (gwInData q psn addr bs s) := modGwIn_grown h

theorem gwInDone_grown {q psn echo} (h : Grown old s) : Grown old (gwInDone q psn echo s) := by
  unfold gwInDone
  extract_lets t
  have ht : Grown old t := settleQp_grown (modGwIn_grown h)
  split
  · exact gwRetry_grown (grown_ite (cnpSend_grown ht) ht)
  · exact ht

theorem gwInFail_grown {q psn st} (h : Grown old s) : Grown old (gwInFail q psn st s) := by
  unfold gwInFail
  split
  · exact h
  · exact settleQp_grown (gwNak_grown (modQp_grown h))

theorem gwOutData_grown {d psn bs} (h : Grown old s) : Grown old (gwOutData d psn bs s) := by
  unfold gwOutData
  split
  · exact h
  · split
    · exact grown_ite h (gwPump_grown (grown_foldl (fun _ _ hs => qpSend_grown hs) (modGwOut_grown h)))
    · exact h

theorem gwOutFail_grown {d st} (h : Grown old s) : Grown old (gwOutFail d st s) := by
  unfold gwOutFail
  split
  · exact h
  · exact gwPump_grown (gwEnd_grown h)

theorem gwReadEnd_grown {q d} (h : Grown old s) : Grown old (gwReadEnd q d s) := by
  unfold gwReadEnd
  split
  · exact grown_ite (gwPump_grown (gwEnd_grown h)) h
  · exact h

theorem gwOutWritten_grown {d} (h : Grown old s) : Grown old (gwOutWritten d s) := by
  unfold gwOutWritten
  split
  · exact h
  · exact gwReadEnd_grown (modGwOut_grown h)

theorem gwProgress_grown {q} (h : Grown old s) : Grown old (gwProgress q s) := modQp_grown h

theorem execRdmaReadResponse_grown {m} (h : Grown old s) : OutGrown old (execRdmaReadResponse m s) := by
  unfold execRdmaReadResponse
  refine roceCame_grown (fun _ _ u0 hs => ?_) h
  split
  · exact hs
  · extract_lets
    split
    · exact hs
    · split
      · exact hs
      next u hu =>
        have hu := grown_of_some (sendItem_grown hs) hu
        exact gwPump_grown (gwProgress_grown (modGwOut_grown hu))

theorem gwAckTo_grown {q p} (h : Grown old s) : Grown old (gwAckTo q p s) :=
  grown_foldl (fun _ _ hs => gwEnd_grown hs) (modQp_grown h)

theorem gwResend_grown {q l} (h : Grown old s) : Grown old (gwResend q l s) := gwPump_grown (bumpEth_grown (modQp_grown h))

theorem gwExhaust_grown {q} (h : Grown old s) : Grown old (gwExhaust q s) := by
  unfold gwExhaust
  split
  · exact qpStop_grown (gwEnd_grown h)
  · exact h

theorem gwRefused_grown {syn st m} (h : Grown old s) : Grown old (gwRefused syn st m s) := by
  unfold gwRefused
  refine roceCame_grown (fun _ _ u hs => ?_) h
  extract_lets t
  have ht : Grown old t := gwAckTo_grown (bumpEth_grown hs)
  split
  · exact qpStop_grown (gwEnd_grown ht)
  · exact ht

theorem execCnp_grown {f} (h : Grown old s) : OutGrown old (execCnp f s) := by
  unfold execCnp
  split
  · split
    · split
      next u hu =>
        have hu := grown_of_eq (ethPass_grown h) hu
        exact hu
      next u hu =>
        have hu := grown_of_eq (ethPass_grown h) hu
        exact bumpEth_grown (modQp_grown hu)
    · exact h
  · exact h

theorem execQpAckTimeout_grown {q} (h : Grown old s) : OutGrown old (execQpAckTimeout q s) := by
  unfold execQpAckTimeout
  extract_lets
  split
  · exact grown_ite h (grown_ite (gwExhaust_grown h) (gwResend_grown (modQp_grown h)))
  · exact h

theorem execQpRnrTimer_grown {q} (h : Grown old s) : OutGrown old (execQpRnrTimer q s) := by
  unfold execQpRnrTimer
  extract_lets
  split
  · exact grown_ite (gwResend_grown (modQp_grown h)) h
  · exact h

theorem refillQps_grown (h : Grown old s) : Grown old (refillQps s) :=
  gwRetry_grown (grown_foldl (fun _ _ hs => settleQp_grown (gwPump_grown (pumpOut_grown hs))) h)

/-! ### Lanes and lasers (chapter 18) -/

theorem bringFail_grown {l code} (h : Grown old s) : Grown old (bringFail l code s) :=
  lanesToDetect_grown (raiseEv_grown (modLink_grown h))

theorem ethLanesDown_grown {l} (h : Grown old s) : Grown old (ethLanesDown l s) := by
  unfold ethLanesDown
  extract_lets t
  have ht : Grown old t := modLanes_grown h
  split
  · exact ethPortDown_grown ht
  · exact ht

theorem afterHold_grown {l code} (h : Grown old s) : Grown old (afterHold l code s) :=
  grown_ite (ethLanesDown_grown h) (grown_ite h (grown_ite (findFailure_grown h) (bringFail_grown h)))

theorem holdLane_grown {n} (h : Grown old s) : Grown old (holdLane n s) := modLane_grown h

theorem faultLane_grown {n cause} (h : Grown old s) : Grown old (faultLane n cause s) :=
  grown_ite (afterHold_grown (raiseEv_grown (holdLane_grown h))) h

theorem attemptFail_grown {n} (h : Grown old s) : Grown old (attemptFail n s) := grown_ite (holdLane_grown h) (modLane_grown h)

theorem recoverFail_grown {n} (h : Grown old s) : Grown old (recoverFail n s) :=
  grown_ite (findFailure_grown h) (grown_ite (raiseEv_grown (setLane_grown h)) (setLane_grown h))

theorem judgeLane_grown {n} (h : Grown old s) : Grown old (judgeLane n s) := by
  unfold judgeLane
  extract_lets
  split
  · exact grown_ite (grown_ite h (attemptFail_grown h)) (grown_ite (grown_ite (setLane_grown h) (recoverFail_grown h)) h)
  · exact h

theorem stepDone_grown {l} (h : Grown old s) : Grown old (stepDone l s) := grown_ite (modLanes_grown h) h

theorem judgeLink_grown {l} (h : Grown old s) : Grown old (judgeLink l s) :=
  grown_ite (bringFail_grown (grown_foldl (fun _ _ hs => judgeLane_grown hs) h)) (stepDone_grown (grown_foldl
    (fun _ _ hs => judgeLane_grown hs) h))

theorem trainSeen_grown {l} (h : Grown old s) : Grown old (trainSeen l s) := modLanes_grown h

theorem onTrain_grown {l w msg f} (hf : ∀ b s, Grown old s → Grown old (f b s)) (h : Grown old s) : Grown old (onTrain l w msg f s) := by
  unfold onTrain
  extract_lets _ t
  have ht : Grown old t := setLane_grown h
  split
  · exact grown_ite (hf _ _ (trainSeen_grown ht)) (trainSeen_grown ht)
  · exact ht

theorem drawNonce_grown {l} (h : Grown old s) : Grown old (drawNonce l s) := by
  unfold drawNonce
  split
  next u hu =>
    have hu := grown_of_eq (takeFree_grown h) hu
    exact modLink_grown hu

theorem execLaneDetectDone_grown {l seen} (h : Grown old s) : OutGrown old (execLaneDetectDone l seen s) := by
  unfold execLaneDetectDone
  extract_lets
  split
  · exact h
  · exact drawNonce_grown (modLanes_grown h)

theorem trainCapIn_grown {l c} (h : Grown old s) : Grown old (trainCapIn l c s) :=
  grown_ite h (grown_ite (drawNonce_grown h) (grown_ite (modLink_grown h) (grown_ite (grown_ite (modLink_grown h)
    (raiseEv_grown (modLink_grown h))) (modLanes_grown (modLink_grown h)))))

theorem switchRate_grown {l rate lanes} (h : Grown old s) : Grown old (switchRate l rate lanes s) :=
  grown_ite h (grown_ite (bringFail_grown (grown_foldl (fun _ _ hs => holdLane_grown hs) (modLanes_grown h)))
    (grown_foldl (fun _ _ hs => holdLane_grown hs) (modLanes_grown h)))

theorem trainStepIn_grown {l rate lanes} (h : Grown old s) : Grown old (trainStepIn l rate lanes s) :=
  grown_ite h (grown_ite (setLink_grown h) (switchRate_grown (setLink_grown h)))

theorem execTrainingStep_grown {l lane bits} (h : Grown old s) : OutGrown old (execTrainingStep l lane bits s) := by
  unfold execTrainingStep
  split
  · exact grown_ite (switchRate_grown h) h
  · exact onTrain_grown (fun _ _ hs => trainStepIn_grown hs) h

theorem trainResultIn_grown {l rate pass} (h : Grown old s) : Grown old (trainResultIn l rate pass s) :=
  judgeLink_grown (modLanes_grown h)

theorem laneLimit_grown {n} (h : Grown old s) : Grown old (laneLimit n s) := by
  unfold laneLimit
  split
  · exact attemptFail_grown h
  · exact afterHold_grown (holdLane_grown h)
  · exact recoverFail_grown h
  · exact h

theorem execLaneStateTimeout_grown {l lanes} (h : Grown old s) : OutGrown old (execLaneStateTimeout l lanes s) := by
  unfold execLaneStateTimeout
  extract_lets _ t
  have ht : Grown old t := grown_foldl (fun _ _ hs => grown_ite (laneLimit_grown hs) hs) h
  split
  · exact grown_ite h (lanesToDetect_grown h)
  · exact judgeLink_grown ht

theorem afterAlign_grown {l} (h : Grown old s) : Grown old (afterAlign l s) :=
  grown_ite (grown_ite (replayNow_grown (setLink_grown h)) h) (grown_ite h (grown_ite (bringFail_grown h)
    (startNego_grown h)))

theorem execAlignComplete_grown {l seen} (h : Grown old s) : OutGrown old (execAlignComplete l seen s) := by
  unfold execAlignComplete
  extract_lets _ _ _ t
  have ht : Grown old t := grown_foldl (fun _ _ hs => afterHold_grown (holdLane_grown hs)) h
  split
  · exact h
  · exact afterAlign_grown (grown_foldl (fun _ _ hs => modLane_grown hs) ht)

theorem execLaneFault_grown {n cause} (h : Grown old s) : OutGrown old (execLaneFault n cause s) := by
  unfold execLaneFault
  split
  · exact grown_ite h (faultLane_grown h)
  · exact grown_ite h (faultLane_grown h)
  · exact grown_ite (faultLane_grown h) h
  · exact grown_ite (faultLane_grown h) h

theorem execLaneStateBlock_grown {l b} (h : Grown old s) : OutGrown old (execLaneStateBlock l b s) := by
  unfold execLaneStateBlock
  split
  · exact h
  · exact grown_ite (findFailure_grown (afterHold_grown (modLink_grown (modLanes_grown h)))) (afterHold_grown
    (modLink_grown (modLanes_grown h)))

theorem execRecoverRetry_grown {n} (h : Grown old s) : OutGrown old (execRecoverRetry n s) := by
  unfold execRecoverRetry
  extract_lets
  split
  · split
    · exact setLane_grown h
    · exact h
  · exact h

theorem clearFailed_grown {n} (h : Grown old s) : Grown old (clearFailed n s) := grown_ite h (setLane_grown h)
theorem modLaser_grown {e b f} (h : Grown old s) : Grown old (modLaser e b f s) := h

theorem darkenLane_grown {n} (h : Grown old s) : Grown old (darkenLane n s) :=
  grown_ite h (grown_ite (afterHold_grown (raiseEv_grown (modLane_grown (grown_ite h (modLane_grown h))))) (grown_ite
    (afterHold_grown (modLane_grown (grown_ite h (modLane_grown h)))) (modLane_grown (grown_ite h (modLane_grown h)))))

theorem lightLane_grown {n} (h : Grown old s) : Grown old (lightLane n s) :=
  grown_ite h (grown_ite (modLane_grown h) (grown_ite (modLane_grown (modLane_grown h)) (modLane_grown
    (modLane_grown h))))

theorem laserCheck_grown {e b} (h : Grown old s) : Grown old (laserCheck e b s) :=
  grown_ite (grown_foldl (fun _ _ hs => darkenLane_grown hs) h) (grown_ite (grown_foldl
    (fun _ _ hs => lightLane_grown hs) h) h)

theorem laserEnable_grown {e enA enB} (h : Grown old s) : Grown old (laserEnable e enA enB s) :=
  laserCheck_grown (laserCheck_grown (setReg_grown h))

theorem execOpticalMeasure_grown {m} (h : Grown old s) : OutGrown old (execOpticalMeasure m s) := by
  unfold execOpticalMeasure
  split
  · exact grown_ite (raiseEv_grown (laserCheck_grown (modLaser_grown h))) (laserCheck_grown (modLaser_grown h))
  · exact modLane_grown h
  · exact grown_ite (faultLane_grown (modLane_grown h)) (modLane_grown h)

theorem trainLoopIn_grown {n mode} (h : Grown old s) : Grown old (trainLoopIn n mode s) :=
  grown_ite (setLane_grown h) (grown_ite (setLane_grown h) h)

theorem relight_grown {l} (h : Grown old s) : Grown old (relight l s) := modLanes_grown h

theorem execEthernetPortService_grown {l} (h : Grown old s) : OutGrown old (execEthernetPortService l s) := by
  unfold execEthernetPortService
  extract_lets
  split
  · exact modEth_grown (modLanes_grown h)
  · exact h

/-! ### The Strongroom (chapter 19) -/

theorem envRefuse_grown {cond requester bs} (h : Grown old s) : Grown old (envRefuse cond requester bs s) :=
  raiseEv_grown (bumpModule_grown h)

theorem verifyLater_grown {u bs} (h : Grown old s) : Grown old (verifyLater u bs s) := h

theorem alarmResponse_grown {src erase} (h : Grown old s) : Grown old (alarmResponse src erase s) :=
  ⟨h.blown, h.revoked, h.floor, h.bound, 
    fun he => by simp [fusesOf, fusesOfStrong, alarmResponse, show s.strong.eraseFuse = true from h.erase he], h.armed,
    le_min (Nat.min_le_left ..) (Nat.le_succ_of_le h.alarms), h.provisions⟩

theorem drbgBytes_grown {n} (h : Grown old s) : PairGrown old (drbgBytes n s) := by
  induction n generalizing s with
  | zero => exact h
  | succ n ih =>
    unfold drbgBytes
    split
    next u hu =>
      have hu := grown_of_eq (takeFree_grown h) hu
      split
      next v hv =>
        have hv := grown_of_eq (ih hu) hv
        exact hv

theorem execSecSessionOpen_grown {d} (h : Grown old s) : OutGrown old (execSecSessionOpen d s) := by
  unfold execSecSessionOpen
  refine withDesc_grown (fun _ u0 hs => ?_) h
  split
  · exact complete_grown hs
  · split
    · exact complete_grown hs
    · extract_lets
      split
      next u hu =>
        have hu := grown_of_eq (drbgBytes_grown hs) hu
        exact complete_grown (hostPut_grown hu)

theorem sessionGot_grown {d st bs} (h : Grown old s) : Grown old (sessionGot d st bs s) :=
  grown_ite (verifyLater_grown h) (complete_grown h)

theorem sessionDone_grown {d ok bs} (h : Grown old s) : Grown old (sessionDone d ok bs s) := by
  unfold sessionDone
  split
  · exact complete_grown h
  · exact grown_ite (complete_grown h) (complete_grown h)

theorem provisionEnd_grown {d st} (h : Grown old s) : Grown old (provisionEnd d st s) := complete_grown h

theorem provisionGot_grown {d st bs} (h : Grown old s) : Grown old (provisionGot d st bs s) := by
  unfold provisionGot
  split
  · exact provisionEnd_grown h
  · split
    · exact provisionEnd_grown h
    · split
      · exact provisionEnd_grown h
      · exact grown_ite (provisionEnd_grown h) h

theorem applyRecord_grown {r} (h : Grown old s) : Grown old (applyRecord r s) := by
  refine ⟨?_, and_or_of_and h.revoked _, h.floor, h.bound, h.erase, fun he => ?_, h.alarms, h.provisions⟩
  · change (if leAt r 2 1 = 0 then s.strong.blown else s.strong.blown ||| BitVec.ofNat 4 (2 ^ (leAt r 2 1 - 1))) &&& old.blown = old.blown
    split
    · exact h.blown
    · exact and_or_of_and h.blown _
  · change (s.strong.eraseArmed || _) = true
    rw [show s.strong.eraseArmed = true from h.armed he, Bool.true_or]

theorem endLockdown_grown (h : Grown old s) : Grown old (endLockdown s) :=
  ⟨h.blown, h.revoked, h.floor, h.bound, h.erase, h.armed, h.alarms, le_min (Nat.min_le_left ..) (Nat.le_succ_of_le h.provisions)⟩

theorem execProvisionApply_grown (h : Grown old s) : OutGrown old (execProvisionApply s) := by
  unfold execProvisionApply
  split
  · exact h
  · split
    · exact h
    · split
      · exact provisionEnd_grown h
      · exact provisionEnd_grown (grown_ite (endLockdown_grown (applyRecord_grown h)) (applyRecord_grown h))

theorem spdmReply_grown {x r} (hr : ∀ s, Grown old s → PairGrown old (r s)) (h : Grown old s) : Grown old (spdmReply x r s) := by
  unfold spdmReply
  extract_lets t
  have ht : Grown old t := grown_ite (takeInbox_grown h) h
  refine grown_ite ht ?_
  split
  next u hu =>
    have hu : Grown old u := by
      split at hu
      · cases hu
        exact ht
      · exact grown_of_eq (hr t ht) hu
    exact hu

theorem spdmSign_grown {msg} (h : Grown old s) : PairGrown old (spdmSign msg s) := h

theorem execChallenge_grown {x nonce} (h : Grown old s) : OutGrown old (execChallenge x nonce s) := by
  unfold execChallenge
  refine spdmReply_grown (fun u0 hs => ?_) h
  split
  next u hu =>
    have hu := grown_of_eq (spdmSign_grown hs) hu
    exact hu

theorem execGetMeasurements_grown {x index signed nonce} (h : Grown old s) :
    OutGrown old (execGetMeasurements x index signed nonce s) := by
  unfold execGetMeasurements
  refine spdmReply_grown (fun u0 hs => ?_) h
  extract_lets
  split
  · exact hs
  · split
    · split
      next u hu =>
        have hu := grown_of_eq (spdmSign_grown hs) hu
        exact hu
    · exact hs

theorem execVendorDefinedRequest_grown {x vendor cmd portion} (h : Grown old s) :
    OutGrown old (execVendorDefinedRequest x vendor cmd portion s) := by
  unfold execVendorDefinedRequest
  refine spdmReply_grown (fun u hs => ?_) h
  split
  · exact hs
  · split
    · exact hs
    · split
      · exact hs
      · exact hs

/-! ### The Attic (chapter 20) -/

theorem writeBoot_grown {r} (h : Grown old s) : Grown old (writeBoot r s) := h
theorem startImage_grown {b} (h : Grown old s) : Grown old (startImage b s) := h
theorem noteRollback_grown {b} (h : Grown old s) : Grown old (noteRollback b s) := h

theorem bootOther_grown {b} (h : Grown old s) : Grown old (bootOther b s) :=
  grown_ite (startImage_grown (writeBoot_grown (noteRollback_grown h))) h

theorem bootRun_grown (h : Grown old s) : Grown old (bootRun s) :=
  grown_ite (startImage_grown (writeBoot_grown (grown_ite (noteRollback_grown h) h))) (bootOther_grown
    (writeBoot_grown (grown_ite (noteRollback_grown h) h)))

theorem atticRestart_grown (h : Grown old s) : Grown old (atticRestart s) := bootRun_grown h

theorem prepareAdmin_grown {d} (h : Grown old s) : Grown old (prepareAdmin d s) := by
  unfold prepareAdmin
  split
  · extract_lets t
    have ht : Grown old t := addWaits_grown h
    exact ht
  · exact h

theorem fwBegin_grown {d} (h : Grown old s) : Grown old (fwBegin d s) := by
  unfold fwBegin
  split
  · exact h
  · extract_lets _ _ _ t
    have ht : Grown old t := writeBoot_grown h
    split
    · exact grown_ite (complete_grown h) (hostRead_grown (addWaits_grown h))
    · exact grown_ite (complete_grown h) (prepareAdmin_grown h)
    · exact grown_ite (complete_grown h) (complete_grown ht)

theorem fwRun_grown {n} (h : Grown old s) : Grown old (fwRun n s) := by
  induction n generalizing s with
  | zero => exact h
  | succ n ih =>
    unfold fwRun
    split
    · exact h
    · split
      · exact ih h
      · exact grown_ite h (ih (fwBegin_grown (modFlight_grown h)))

theorem fwPump_grown (h : Grown old s) : Grown old (fwPump s) := fwRun_grown h

theorem fwStart_grown {d} (h : Grown old s) : Grown old (fwStart d s) := by
  unfold fwStart
  refine fwPump_grown ?_
  extract_lets t
  have ht : Grown old t := addWaits_grown h
  exact ht

theorem fwEnd_grown {d st result} (h : Grown old s) : Grown old (fwEnd d st result s) := fwPump_grown (complete_grown h)
theorem fwGot_grown {d st bs} (h : Grown old s) : Grown old (fwGot d st bs s) := grown_ite (verifyLater_grown h) (fwEnd_grown h)

theorem fwVerified_grown {d ok bs} (h : Grown old s) : Grown old (fwVerified d ok bs s) :=
  grown_ite (fwEnd_grown h) (grown_ite (fwEnd_grown h) h)

theorem setBank_grown {b bs lv} (h : Grown old s) : Grown old (setBank b bs lv s) := by
  unfold setBank
  extract_lets _ t
  have ht : Grown old t := writeBoot_grown h
  exact grown_ite ht ht

theorem execFlashWriteDone_grown {ok} (h : Grown old s) : OutGrown old (execFlashWriteDone ok s) := by
  unfold execFlashWriteDone
  split
  · exact grown_ite (fwEnd_grown (setBank_grown h)) (fwEnd_grown (setBank_grown h))
  · split
    · split
      · exact h
      · exact h
    · exact h

theorem sendOffers_grown (h : Grown old s) : Grown old (sendOffers s) :=
  grown_ite h (grown_foldl (fun _ _ hs => modLink_grown (sendCtl_grown hs)) h)

theorem firstRun_grown (h : Grown old s) : Grown old (firstRun s) :=
  grown_ite (grown_ite (releaseWrites_grown h) (verifyLater_grown h)) (verifyLater_grown (grown_ite
    (releaseWrites_grown h) (verifyLater_grown h)))

theorem reportRollback_grown (h : Grown old s) : Grown old (reportRollback s) := by
  unfold reportRollback
  split
  · exact raiseEv_grown h
  · exact h

theorem activateDone_grown (h : Grown old s) : Grown old (activateDone s) := by
  unfold activateDone
  split
  · exact fwEnd_grown h
  · exact h

theorem imageRuns_grown (h : Grown old s) : Grown old (imageRuns s) :=
  fwPump_grown (activateDone_grown (sendOffers_grown (evFlush_grown (reportRollback_grown (grown_ite h
    (firstRun_grown h))))))

theorem execAtticRestartDone_grown {started} (h : Grown old s) : OutGrown old (execAtticRestartDone started s) := by
  unfold execAtticRestartDone
  split
  · exact h
  · split
    · exact imageRuns_grown h
    · exact imageRuns_grown (bootOther_grown h)

theorem execLevelOffer_grown {l level} (h : Grown old s) : OutGrown old (execLevelOffer l level s) := by
  unfold execLevelOffer
  split
  · exact h
  · split
    · exact h
    · exact modLink_grown h

theorem applyOffers_grown (h : Grown old s) : Grown old (applyOffers s) := grown_foldl (fun _ _ hs => modLink_grown hs) h
theorem drainsEnd_grown {st} (h : Grown old s) : Grown old (drainsEnd st s) := grown_foldl (fun _ _ hs => complete_grown hs) h

theorem execDrainedPoint_grown (h : Grown old s) : OutGrown old (execDrainedPoint s) := by
  unfold execDrainedPoint
  split
  · exact raiseEv_grown (drainsEnd_grown h)
  · exact h

theorem drainApply_grown {d f} (h : Grown old s) : Grown old (drainApply d f s) := grown_ite h h

theorem activateApply_grown {d b} (h : Grown old s) : Grown old (activateApply d b s) :=
  grown_frame (atticRestart_grown (writeBoot_grown h))

theorem adminApply_grown {w} (h : Grown old s) : Grown old (adminApply w s) := by
  unfold adminApply
  split
  · exact h
  · split
    · exact grown_ite (fwEnd_grown h) (activateApply_grown h)
    · exact grown_ite (complete_grown h) (complete_grown h)
    · exact drainApply_grown h
    · exact complete_grown (grown_frame (drainsEnd_grown h))
    · exact h

theorem atticBoundary_grown (h : Grown old s) : Grown old (atticBoundary s) := grown_foldl (fun _ _ hs => adminApply_grown hs) h

theorem pldmReading_grown {id} (h : Grown old s) : PairGrown old (pldmReading id s) := by
  unfold pldmReading
  split
  · exact h
  · split
    next u hu =>
      have hu := grown_of_eq (takeFree_grown h) hu
      exact hu
  · exact h
  · exact h
  · exact h
  · exact h
  · split
    next u hu =>
      have hu := grown_of_eq (takeFree_grown h) hu
      exact hu

theorem execPldmRequest_grown {r} (h : Grown old s) : OutGrown old (execPldmRequest r s) := by
  unfold execPldmRequest
  split
  · exact h
  · split
    · exact h
    · split
      next u hu =>
        have hu := grown_of_eq (pldmReading_grown h) hu
        exact hu

theorem pldmEvent_grown (h : Grown old s) : Grown old (pldmEvent s) := grown_ite h h

end Machine
end Sys2Proof
end

section
/-!
PROOF. No command clears a fuse (R669, R670, R716), part four: collectives, data movement and weight streams.
-/
namespace Sys2Proof
namespace Machine
set_option Elab.async false

variable {s t : State} {old : Fuses}

/-! ### Groups and the Hawk's room (chapters 12 and 13) -/

theorem sendRecord_grown {o j index final st bytes} (h : Grown old s) : Grown old (sendRecord o j index final st bytes s) :=
  (sendRecord_core ..).grown h
theorem returnRoom_grown {g x} (h : Grown old s) : Grown old (returnRoom g x s) := (returnRoom_rested ..).grown h

theorem returnEnding_grown (h : Grown old s) : Grown old (returnEnding s) :=
  grown_foldl (fun _ _ hs => grown_ite hs (grown_foldl (fun _ _ hs => returnRoom_grown hs) (modGroup_grown hs))) h

theorem closeOp_grown {g q o st} (h : Grown old s) : Grown old (closeOp g q o st s) := (closeOp_rested ..).grown h
theorem failOp_grown {g q st lost} (h : Grown old s) : Grown old (failOp g q st lost s) := (failOp_rested ..).grown h

theorem finishOp_grown {g q} (h : Grown old s) : Grown old (finishOp g q s) := by
  unfold finishOp
  split
  · exact h
  · exact grown_ite h (grown_ite (closeOp_grown (grown_foldl (fun _ _ hs => sendRecord_grown hs) h)) (setOp_grown
    (grown_foldl (fun _ _ hs => sendRecord_grown hs) h)))

theorem writeRecord_grown {g q j i} (h : Grown old s) : Grown old (writeRecord g q j i s) := by
  unfold writeRecord
  split
  · exact h
  · exact grown_ite h (setOp_grown (sendRecord_grown h))

theorem collDelivered_grown {g q sq i out bytes} (h : Grown old s) : Grown old (collDelivered g q sq i out bytes s) := by
  unfold collDelivered
  split
  · exact h
  · split
    · exact h
    · split
      · exact h
      · exact grown_ite (finishOp_grown (writeRecord_grown (bump_grown (setOp_grown h)))) (bump_grown (setOp_grown h))

theorem giveRoom_grown {g q tile need spill reserve} (h : Grown old s) : Grown old (giveRoom g q tile need spill reserve s) := by
  unfold giveRoom
  extract_lets _ _ t t1
  have ht1 : Grown old t1 := modOp_grown h
  exact grown_ite (modGroup_grown (bump_grown ht1)) (bump_grown ht1)

theorem askRoom_grown {g q o tile} (h : Grown old s) : Grown old (askRoom g q o tile s) :=
  grown_ite h (grown_ite (giveRoom_grown h) (bump_grown h))

theorem grantWalk_grown {rs b n kept} (h : Grown old s) : PairGrown old (grantWalk rs b n kept s) := by
  induction rs generalizing b n kept s with
  | nil => exact h
  | cons y ys ih =>
    unfold grantWalk
    split
    · exact h
    · split
      · exact ih (giveRoom_grown h)
      · split
        · exact ih (giveRoom_grown h)
        · exact ih (bump_grown (bump_grown h))

theorem hawkGrantStep_grown (h : Grown old s) : Grown old (hawkGrantStep s) := by
  unfold hawkGrantStep
  split
  · exact h
  · split
    · exact setPhase_grown h
    · extract_lets
      split
      next u hu =>
        have hu := grown_of_eq (grantWalk_grown h) hu
        exact setPhase_grown hu

theorem rebuildRoom_grown (h : Grown old s) : Grown old (rebuildRoom s) :=
  grown_frame (grown_foldl (fun _ _ hs => failOp_grown hs) h)

theorem roomCheck_grown {sub sum ref} (h : Grown old s) : Grown old (roomCheck sub sum ref s) :=
  grown_ite h (auditMismatch_grown h)

theorem execGrainAudit_grown (h : Grown old s) : OutGrown old (execGrainAudit s) := by
  unfold execGrainAudit
  split
  · exact h
  · exact grown_ite h (rebuildRoom_grown (roomCheck_grown (roomCheck_grown h)))

/-! ### Collectives (chapters 12 and 13) -/

theorem leaveInput_grown {i p} (h : Grown old s) : Grown old (leaveInput i p s) := (leaveInput_input ..).grown h
theorem standIn_grown {i p} (h : Grown old s) : Grown old (standIn i p s) := grown_ite h (enqueue_grown h)

theorem modEntry_grown {i p f} (h : Grown old s) : Grown old (modEntry i p f s) := by
  unfold modEntry
  split
  · exact modIn_grown h
  · exact h

theorem holdIn_grown {i p} (h : Grown old s) : Grown old (holdIn i p s) := modEntry_grown (standIn_grown h)
theorem collDiscard_grown {g i p} (h : Grown old s) : Grown old (collDiscard g i p s) := bump_grown (leaveInput_grown h)
theorem settleTemplates_grown {g} (h : Grown old s) : Grown old (settleTemplates g s) := modGroup_grown h
theorem startDiscarded_grown {g p} (h : Grown old s) : Grown old (startDiscarded g p s) := raiseEv_grown (bump_grown h)

theorem bindOp_grown {g e p j x} (h : Grown old s) : Grown old (bindOp g e p j x s) := by
  unfold bindOp
  extract_lets _ _ _ t
  have ht : Grown old t := bump_grown (setOp_grown (modGroup_grown h))
  split
  · exact failOp_grown ht
  · exact finishOp_grown ht

theorem refuseStart_grown {g e p j st} (h : Grown old s) : Grown old (refuseStart g e p j st s) := by
  unfold refuseStart
  split
  · exact startDiscarded_grown h
  · exact sendRecord_grown h

theorem join_grown {g j p o} (h : Grown old s) : Grown old (collStart.join g j p o s) :=
  finishOp_grown (modOp_grown (grown_ite (startDiscarded_grown h) h))

theorem collStart_grown {g e i j p} (h : Grown old s) : OptGrown old (collStart g e i j p s) := by
  unfold collStart
  extract_lets _ t
  have ht : Grown old t := settleTemplates_grown h
  split
  · exact trivial
  · exact refuseStart_grown (leaveInput_grown h)
  · split
    · split
      · exact join_grown (leaveInput_grown h)
      · exact refuseStart_grown (leaveInput_grown h)
    · exact refuseStart_grown (leaveInput_grown h)
  · split
    · split
      · exact join_grown (leaveInput_grown h)
      · split
        · exact trivial
        · exact startDiscarded_grown (leaveInput_grown h)
    · split
      · exact startDiscarded_grown (leaveInput_grown h)
      · split
        · exact refuseStart_grown (leaveInput_grown h)
        · split
          · exact startDiscarded_grown (leaveInput_grown ht)
          · exact bindOp_grown (leaveInput_grown ht)

theorem takeStart_grown {i p} (h : Grown old s) : Grown old (takeStart i p s) := by
  unfold takeStart
  extract_lets _ _
  refine grown_ite h (grown_ite (holdIn_grown h) ?_)
  split
  · exact collDiscard_grown h
  · exact grown_ite (refuseStart_grown (leaveInput_grown h)) (inject_grown (countFail_grown (leaveInput_grown h)))
  · exact inject_grown (countFail_grown (leaveInput_grown h))
  · exact collDiscard_grown h
  · exact grown_getD (collStart_grown h) (holdIn_grown h)

theorem execCollSlotBind_grown {g slot} (h : Grown old s) : OutGrown old (execCollSlotBind g slot s) := by
  unfold execCollSlotBind
  extract_lets
  split
  · exact h
  · split
    · exact takeStart_grown h
    · exact h

theorem withOp_grown {i p op body} (hb : ∀ a o s, Grown old s → Grown old (body a o s)) (h : Grown old s) :
    Grown old (withOp i p op s body) := by
  unfold withOp
  extract_lets
  split
  · exact h
  · split
    · exact holdIn_grown h
    · split
      · exact inject_grown (countFail_grown (leaveInput_grown h))
      · exact collDiscard_grown h
      · exact holdIn_grown h
      · exact hb _ _ _ h

theorem toPeers_grown {g q o op low last bs} (h : Grown old s) : Grown old (toPeers g q o op low last bs s) := (toPeers_core ..).grown h

theorem takeArrive_grown {i p} (h : Grown old s) : Grown old (takeArrive i p s) :=
  withOp_grown (fun _ _ _ hs => grown_ite (collDiscard_grown hs) (finishOp_grown (grown_ite (toPeers_grown
    (setOp_grown (leaveInput_grown hs))) (setOp_grown (leaveInput_grown hs))))) h

theorem sendLayout_grown {o k} (h : Grown old s) : Grown old (sendLayout o s k) := by
  unfold sendLayout
  extract_lets
  split
  · exact h
  · exact sendTo_grown h

theorem layOut_grown {g q o} (h : Grown old s) : Grown old (layOut g q o s) :=
  finishOp_grown (grown_foldl (fun _ _ hs => grown_foldl (fun _ _ hs => grown_ite (writeRecord_grown hs) hs) hs)
    (grown_foldl (fun _ _ hs => sendLayout_grown hs) (setOp_grown h)))

theorem takeCounts_grown {i p} (h : Grown old s) : Grown old (takeCounts i p s) := by
  unfold takeCounts
  refine withOp_grown (fun _ _ u hs => ?_) h
  extract_lets
  split
  · exact grown_ite (collDiscard_grown hs) (grown_ite (setOp_grown (leaveInput_grown hs)) (grown_ite (layOut_grown
    (setOp_grown (leaveInput_grown hs))) (failOp_grown (setOp_grown (leaveInput_grown hs)))))
  · exact collDiscard_grown hs

theorem takeBlock_grown {i j p o} (h : Grown old s) : Grown old (takeBlock i j p o s) := by
  unfold takeBlock
  extract_lets _ _ _ _ _ t
  have ht : Grown old t := grown_ite (bump_grown h) h
  split
  · exact collDiscard_grown h
  · split
    · exact collDiscard_grown h
    · split
      · exact failOp_grown (leaveInput_grown h)
      · split
        · extract_lets t1
          have ht1 : Grown old t1 := by
            unfold t1
            split
            · exact modIn_grown ht
            · exact ht
          exact grown_foldl (fun _ _ hs => enqueue_grown hs) ht1

theorem modTile_grown {g q tile f} (h : Grown old s) : Grown old (modTile g q tile f s) := modOp_grown h

theorem emitResult_grown {g q tile k acc} (h : Grown old s) : Grown old (emitResult g q tile k acc s) := by
  unfold emitResult
  split
  · exact h
  · extract_lets
    split
    · extract_lets
      split
      next u hu =>
        have hu := grown_of_eq (freeBytes_grown h) hu
        exact modTile_grown (bump_grown (setSlice_grown hu))

theorem addCell_grown {o g q stage2 tile c bs} (h : Grown old s) : Grown old (addCell o g q stage2 tile c bs s) := by
  unfold addCell
  extract_lets _ t _ t1
  have ht : Grown old t := by
    unfold t
    split
    · exact bump_grown h
    · exact h
  exact modTile_grown ht

/-- A partial cell that enters the second stage, where its position is finished with fuel that clears no fuse. -/
theorem ownPartial_grown_of_finishPos {g q tile fuel o c bs}
    (hf : ∀ {b c s}, Grown old s → Grown old (finishPos g q tile fuel b c s)) (h : Grown old s) :
    Grown old (finishPos.ownPartial g q tile fuel o c bs s) := by
  unfold finishPos.ownPartial
  split
  · exact h
  · exact grown_ite (hf (addCell_grown (modTile_grown h))) (modTile_grown (modTile_grown h))

theorem finishPos_grown {g q tile fuel b c} (h : Grown old s) : Grown old (finishPos g q tile fuel b c s) := by
  induction fuel generalizing b c s with
  | zero =>
    unfold finishPos
    exact h
  | succ fuel ih =>
    unfold finishPos
    split
    · extract_lets p t several k bs at_ total u
      have ht : Grown old t := modTile_grown h
      have hu : Grown old u := toPeers_grown ht
      refine grown_ite h (grown_ite ?_ (grown_ite ?_ (emitResult_grown ht)))
      · split
        · exact ht
        · exact grown_ite (emitResult_grown ht) ht
      · exact grown_foldl (fun _ _ hs => ownPartial_grown_of_finishPos ih hs) hu
    · exact h

theorem keepCell_grown {g q stage2 tile c idx bs} (h : Grown old s) : Grown old (keepCell g q stage2 tile c idx bs s) := by
  unfold keepCell
  split
  · exact h
  · exact grown_ite (bump_grown (modTile_grown h)) (bump_grown (modTile_grown h))

theorem slicesCell_grown {g q stage2 tile c idx bs} (h : Grown old s) : Grown old (slicesCell g q stage2 tile c idx bs s) := by
  unfold slicesCell
  split
  · exact grown_ite (raiseEv_grown (bump_grown h)) (grown_ite (finishPos_grown (addCell_grown (modTile_grown
    (grown_ite (bump_grown h) h)))) (keepCell_grown (modTile_grown (grown_ite (bump_grown h) h))))
  · exact h

theorem takeTile_grown {i w p o} (h : Grown old s) : Grown old (takeTile i w p o s) := by
  unfold takeTile
  extract_lets _ _ _ _ t t1
  have ht : Grown old t := grown_ite h (askRoom_grown h)
  have ht1 : Grown old t1 := modEntry_grown (standIn_grown ht)
  split
  · exact collDiscard_grown h
  · split
    · exact grown_ite (toPeers_grown ht1) ht1
    · exact ht1

theorem takeContrib_grown {i p} (h : Grown old s) : Grown old (takeContrib i p s) := by
  unfold takeContrib
  refine withOp_grown (fun _ _ u hs => ?_) h
  split
  · exact collDiscard_grown hs
  · exact grown_ite (takeBlock_grown hs) (holdIn_grown hs)
  · exact collDiscard_grown hs
  · exact takeTile_grown hs

theorem takeColl_grown {i p} (h : Grown old s) : Grown old (takeColl i p s) :=
  grown_ite (grown_ite (takeStart_grown h) h) (grown_ite (takeContrib_grown h) (grown_ite (takeArrive_grown h)
    (grown_ite (takeCounts_grown h) h)))

theorem collRetry_grown (h : Grown old s) : Grown old (collRetry s) :=
  grown_foldl (fun _ _ hs => grown_foldl (fun _ _ hs => takeColl_grown hs) hs) h

theorem hawkBad_grown {g q} (h : Grown old s) : Grown old (hawkBad g q s) := failOp_grown (bump_grown h)
theorem hawkReadBad_grown {g q} (h : Grown old s) : Grown old (hawkReadBad g q s) := raiseEv_grown (hawkBad_grown h)

theorem hawkCell_grown {errs c} (h : Grown old s) : OptGrown old (hawkCell errs c s) := by
  unfold hawkCell
  split
  · exact h
  · extract_lets _ t
    have ht : Grown old t := bump_grown h
    split
    · exact ht
    · split
      · exact ht
      · split
        · exact hawkBad_grown h
        · split
          · split
            · exact raiseEv_grown (bump_grown h)
            · exact ht
          · extract_lets
            split
            · exact trivial
            · split
              · exact hawkReadBad_grown h
              · split
                · exact trivial
                · exact slicesCell_grown (bump_grown h)

theorem landSlice_grown {errs m} (h : Grown old s) : Grown old (landSlice errs s m) := by
  unfold landSlice
  extract_lets
  split
  · exact h
  · refine grown_foldl (fun u0 _ hs => ?_) (setSlice_grown h)
    split
    next u hu =>
      have hu := grown_of_some (hawkCell_grown hs) hu
      exact hu
    · exact setSlice_grown hs

theorem hawkLand_grown {errs} (h : Grown old s) : Grown old (hawkLand errs s) := grown_foldl (fun _ _ hs => landSlice_grown hs) h

theorem serveTurn_grown {errs x} (h : Grown old s) : Grown old (serveTurn errs s x) := by
  unfold serveTurn
  split
  · extract_lets
    split
    · exact h
    · split
      · exact hawkReadBad_grown h
      · split
        · exact finishPos_grown (addCell_grown (modTile_grown h))
        · exact grown_ite h (finishPos_grown (addCell_grown (modTile_grown (bump_grown h))))
        · exact h
  · exact h

theorem hawkServe_grown {errs} (h : Grown old s) : Grown old (hawkServe errs s) :=
  grown_foldl (fun _ _ hs => serveTurn_grown hs) h

theorem returnAt_grown {g q tile stage2 x} (h : Grown old s) : Grown old (returnAt g q tile stage2 s x) := by
  unfold returnAt
  split
  · exact grown_ite h (bump_grown (modTile_grown h))
  · exact h

theorem hawkReturn_grown (h : Grown old s) : Grown old (hawkReturn s) :=
  grown_foldl (fun _ _ hs => grown_foldl (fun _ _ hs => returnAt_grown hs) (grown_foldl
    (fun _ _ hs => returnAt_grown hs) hs)) h

theorem releaseTile_grown {g q tile} (h : Grown old s) : Grown old (releaseTile g q tile s) := by
  unfold releaseTile
  split
  · exact h
  · exact bump_grown (returnRoom_grown (modOp_grown h))

theorem hawkRelease_grown (h : Grown old s) : Grown old (hawkRelease s) := by
  unfold hawkRelease
  refine grown_foldl (fun u0 _ hs0 => ?_) h
  extract_lets
  split
  · exact hs0
  · refine grown_foldl (fun u1 _ hs1 => ?_) hs0
    split
    · exact grown_foldl (fun _ _ hs => releaseTile_grown hs) hs1
    · exact hs1

theorem resultBad_grown {c} (h : Grown old s) : Grown old (resultBad c s) := by
  unfold resultBad
  split
  · split
    · exact grown_ite (failOp_grown h) h
    · exact h
  · exact h

theorem execCollOpLimitExpired_grown {g slot} (h : Grown old s) : OutGrown old (execCollOpLimitExpired g slot s) := by
  unfold execCollOpLimitExpired
  split
  · exact grown_ite (failOp_grown h) h
  · exact h

theorem collLossGroup_grown {g} (h : Grown old s) : Grown old (collLossGroup g s) := by
  unfold collLossGroup
  extract_lets _ t
  have ht : Grown old t := by
    unfold t
    refine grown_foldl (fun u _ hs => ?_) h
    split
    · exact failOp_grown hs
    · exact hs
  exact grown_ite h (grown_ite h (modGroup_grown ht))

theorem collLosses_grown (h : Grown old s) : Grown old (collLosses s) := grown_foldl (fun _ _ hs => collLossGroup_grown hs) h

theorem withGroup_grown {d f gen body} (hb : ∀ a s, Grown old s → Grown old (body a s)) (h : Grown old s) :
    Grown old (withGroup d f gen s body) := by
  unfold withGroup
  split
  · exact complete_grown h
  · exact grown_ite (complete_grown (modFlight_grown h)) (grown_ite (complete_grown (modFlight_grown h)) (hb _ _
    (modFlight_grown h)))

theorem templateSet_grown {d f} (h : Grown old s) : Grown old (templateSet d f s) :=
  withGroup_grown (fun _ _ hs => grown_ite (complete_grown hs) (grown_ite (complete_grown (modGroup_grown hs))
    (hostRead_grown (modFlight_grown hs)))) h

theorem templateGot_grown {d st bs} (h : Grown old s) : Grown old (templateGot d st bs s) := by
  unfold templateGot
  split
  · exact h
  · split
    · exact h
    · exact grown_ite (complete_grown h) (grown_ite (complete_grown h) (complete_grown (modGroup_grown h)))

/-! ### Data movement (chapter 11) -/

theorem dmFail_grown {d st a} (h : Grown old s) : Grown old (dmFail d st a s) := by
  unfold dmFail
  split
  · exact complete_grown h
  · exact h

theorem dmSend_grown {d f op a len bs} (h : Grown old s) : Grown old (dmSend d f op a len bs s) := by
  unfold dmSend
  extract_lets
  split
  next u hu =>
    have hu := grown_of_some (sendItem_grown h) hu
    exact modFlight_grown hu
  · exact dmFail_grown h

theorem dmStep_grown {d n bytes} (h : Grown old s) : Grown old (dmStep d n bytes s) := by
  induction n generalizing bytes s with
  | zero => exact h
  | succ n ih =>
    unfold dmStep
    split
    · exact h
    · extract_lets
      split
      · split
        · exact complete_grown h
        · split
          · exact ih h
          · split
            · exact hostRead_grown (modFlight_grown h)
            · split
              · split
                · exact dmFail_grown h
                · extract_lets t
                  have ht : Grown old t := countPlace_grown h
                  split
                  · exact ih ht
                  · exact dmFail_grown (foundBad_grown ht)
              · exact dmSend_grown h
      · split
        · exact ih (modFlight_grown (modFlight_grown h))
        · split
          · exact ih (modFlight_grown (hostPut_grown h))
          · split
            · split
              · exact dmFail_grown h
              · split
                next u _ hu =>
                  have hu := grown_of_eq_fst (placeWrite_grown (countPlace_grown h)) hu
                  exact grown_ite (ih (modFlight_grown hu)) (dmFail_grown hu)
            · exact dmSend_grown h

theorem dmGot_grown {d bs} (h : Grown old s) : Grown old (dmGot d bs s) := dmStep_grown h

theorem dmAcked_grown {d} (h : Grown old s) : Grown old (dmAcked d s) := by
  unfold dmAcked
  split
  · exact dmStep_grown (modFlight_grown h)
  · exact h

theorem dmStart_grown {d f} (h : Grown old s) : Grown old (dmStart d f s) :=
  grown_ite (complete_grown h) (dmStep_grown (modFlight_grown h))

theorem dmAtomic_grown {d f} (h : Grown old s) : Grown old (dmAtomic d f s) := by
  unfold dmAtomic
  extract_lets
  split
  · exact complete_grown h
  · split
    · split
      · exact complete_grown h
      · split
        · exact complete_grown h
        · split
          · split
            next u hu =>
              have hu := grown_of_eq (placeAtomic_grown (countPlace_grown h)) hu
              exact complete_grown hu
            next u hu =>
              have hu := grown_of_eq (placeAtomic_grown (countPlace_grown h)) hu
              exact complete_grown (foundBad_grown hu)
    · exact dmSend_grown h

theorem dmEnd_grown {d o st bytes} (h : Grown old s) : Grown old (dmEnd d o st bytes s) := by
  unfold dmEnd
  split
  · exact h
  · exact grown_ite (complete_grown h) (grown_ite (dmFail_grown h) (grown_ite (dmGot_grown h) (dmAcked_grown h)))

/-! ### Weight streams (chapter 14) -/

theorem modStream_grown {k f} (h : Grown old s) : Grown old (modStream k f s) := (modStream_rested ..).grown h
theorem modRun_grown {k pass seg f} (h : Grown old s) : Grown old (modRun k pass seg f s) := modStream_grown h
theorem endShare_grown {k pass seg o st} (h : Grown old s) : Grown old (endShare k pass seg o st s) := (endShare_rested ..).grown h
theorem settleSeg_grown {k pass seg} (h : Grown old s) : Grown old (settleSeg k pass seg s) := (settleSeg_rested ..).grown h
theorem endAll_grown {k pass seg st} (h : Grown old s) : Grown old (endAll k pass seg st s) := (endAll_rested ..).grown h

theorem closeSeg_grown {k pass seg} (h : Grown old s) : Grown old (closeSeg k pass seg s) := by
  unfold closeSeg
  split
  · exact h
  · exact grown_ite (settleSeg_grown h) (settleSeg_grown (grown_foldl (fun _ _ hs => endShare_grown hs) (modRun_grown h)))

theorem chunkDelivered_grown {k pass seg c o} (h : Grown old s) : Grown old (chunkDelivered k pass seg c o s) := by
  unfold chunkDelivered
  split
  · exact h
  · split
    · exact h
    · exact grown_ite h (closeSeg_grown (grown_ite (endShare_grown (bump_grown (modRun_grown h))) (bump_grown
      (modRun_grown h))))

theorem chunkFailed_grown {k pass seg c o st} (h : Grown old s) : Grown old (chunkFailed k pass seg c o st s) := by
  unfold chunkFailed
  split
  · exact h
  · split
    · exact h
    · exact grown_ite (closeSeg_grown (endShare_grown h)) (grown_ite h (closeSeg_grown (modRun_grown h)))

theorem streamLosses_grown (h : Grown old s) : Grown old (streamLosses s) := by
  unfold streamLosses
  extract_lets
  refine grown_foldl (fun u _ hs => ?_) h
  split
  · exact chunkFailed_grown hs
  · exact hs

theorem streamLinkLost_grown {o} (h : Grown old s) : Grown old (streamLinkLost o s) :=
  grown_foldl (fun _ _ hs => grown_foldl (fun _ _ hs => grown_ite (closeSeg_grown (endShare_grown hs)) hs) hs) h

theorem countX_grown {k c} (h : Grown old s) : Grown old (countX k c s) := bump_grown (bump_grown (bump_grown h))

theorem landingCredit_grown {l p} (h : Grown old s) : Grown old (landingCredit l p s) := by
  unfold landingCredit
  extract_lets _ _ _ t
  have ht : Grown old t := leaveInput_grown h
  split
  · exact h
  · split
    · exact standIn_grown h
    · split
      · exact raiseEv_grown (bump_grown ht)
      · exact bump_grown (modStream_grown ht)

theorem withStream_grown {d f gen ten body} (hb : ∀ a s, Grown old s → Grown old (body a s)) (h : Grown old s) :
    Grown old (withStream d f gen ten s body) := by
  unfold withStream
  split
  · exact complete_grown h
  · exact grown_ite (complete_grown (modFlight_grown h)) (grown_ite (complete_grown (modFlight_grown h)) (hb _ _
    (modFlight_grown h)))

theorem streamProgram_grown {d f} (h : Grown old s) : Grown old (streamProgram d f s) :=
  withStream_grown (fun _ _ hs => grown_ite (complete_grown hs) (grown_ite (complete_grown hs) (hostRead_grown
    (modFlight_grown hs)))) h

theorem programGot_grown {d st bs} (h : Grown old s) : Grown old (programGot d st bs s) := by
  unfold programGot
  split
  · exact h
  · split
    · exact h
    · exact grown_ite (complete_grown h) (grown_ite (complete_grown h) (grown_ite (complete_grown h) (complete_grown
      (modStream_grown (bindPage_grown h)))))

theorem streamStart_grown {d f} (h : Grown old s) : Grown old (streamStart d f s) := by
  unfold streamStart
  refine withStream_grown (fun _ u hs => ?_) h
  split
  · exact complete_grown hs
  · split
    · exact complete_grown hs
    · exact complete_grown hs
    · exact modStream_grown (modFlight_grown hs)

theorem passStart_grown {k} (h : Grown old s) : Grown old (passStart k s) := by
  unfold passStart
  extract_lets
  split
  · exact h
  · split
    · exact grown_ite h (grown_ite (bump_grown (bump_grown (modStream_grown h))) (bump_grown (modStream_grown h)))
    · split
      · exact grown_ite (grown_ite (bump_grown (bump_grown (modStream_grown (modStream_grown h)))) (bump_grown
        (modStream_grown (modStream_grown h)))) h
      · exact h

theorem startSeg_grown {k p g} (h : Grown old s) : Grown old (startSeg k p g s) :=
  settleSeg_grown (grown_foldl (fun _ _ hs => endShare_grown hs) (bump_grown (bump_grown (modStream_grown h))))

theorem skipSeg_grown {k pass seg st} (h : Grown old s) : Grown old (skipSeg k pass seg st s) := (skipSeg_rested ..).grown h

theorem segmentStart_grown {k} (h : Grown old s) : Grown old (segmentStart k s) := by
  unfold segmentStart
  extract_lets
  split
  · exact h
  · exact grown_ite h (grown_ite (skipSeg_grown h) (grown_ite (startSeg_grown h) h))

theorem sendChunk_grown {k g r c dest port bs} (h : Grown old s) : Grown old (sendChunk k g r c dest port bs s) := (sendChunk_core ..).grown h

theorem chunkTaken_grown {k r c len dest} (h : Grown old s) : Grown old (chunkTaken k r c len dest s) :=
  grown_ite (bump_grown (bump_grown (bump_grown (modRun_grown (modStream_grown h))))) (bump_grown (bump_grown
    (modRun_grown (modStream_grown h))))

theorem chunkRead_grown {k} (h : Grown old s) : Grown old (chunkRead k s) := by
  unfold chunkRead
  extract_lets
  split
  · exact h
  · extract_lets
    split
    · exact h
    · split
      · exact endAll_grown h
      · extract_lets t
        have ht : Grown old t := translateAll_grown (countPlace_grown h)
        split
        · exact endAll_grown (foundBad_grown (chunkTaken_grown ht))
        · exact sendChunk_grown (chunkTaken_grown ht)

theorem execStreamDeadline_grown {k seg} (h : Grown old s) : OutGrown old (execStreamDeadline k seg s) := by
  unfold execStreamDeadline
  split
  · exact grown_ite (endAll_grown h) h
  · exact h

theorem execStreamRecordTimeout_grown {k seg} (h : Grown old s) : OutGrown old (execStreamRecordTimeout k seg s) := by
  unfold execStreamRecordTimeout
  split
  · exact grown_ite (closeSeg_grown (modRun_grown h)) h
  · exact h

theorem execStreamRepairStart_grown {k seg} (h : Grown old s) : OutGrown old (execStreamRepairStart k seg s) := by
  unfold execStreamRepairStart
  split
  · exact grown_ite h (settleSeg_grown (modRun_grown (grown_ite (grown_foldl (fun _ _ hs => endShare_grown hs)
    (grown_foldl (fun _ _ hs => endShare_grown hs) h)) (grown_foldl (fun _ _ hs => endShare_grown hs) h))))
  · exact h

theorem streamFresh_grown {k} (h : Grown old s) : Grown old (streamFresh k s) := modStream_grown h
theorem streamOn_grown {k} (h : Grown old s) : Grown old (streamOn k s) := modStream_grown h
theorem streamStop_grown {st k} (h : Grown old s) : Grown old (streamStop st k s) := (streamStop_rested ..).grown h
theorem streamRelease_grown {k} (h : Grown old s) : Grown old (streamRelease k s) := bump_grown (modStream_grown h)
theorem refillStreams_grown (h : Grown old s) : Grown old (refillStreams s) := h

end Machine
end Sys2Proof
end

section
/-!
PROOF. No command clears a fuse (R669, R670, R716), part five: the tick's election, threads, instructions and kernels.
-/
namespace Sys2Proof
namespace Machine
set_option Elab.async false

variable {s t : State} {old : Fuses}

/-! ### The tick (chapter 02) -/

theorem setHeard_grown {l y} (h : Grown old s) : Grown old (setHeard l y s) := h
theorem becomeMaster_grown {m} (h : Grown old s) : Grown old (becomeMaster m s) := h
theorem followMaster_grown {m l hops} (h : Grown old s) : Grown old (followMaster m l hops s) := h
theorem runFree_grown (h : Grown old s) : Grown old (runFree s) := h

theorem follow_grown {m} (h : Grown old s) : Grown old (follow m s) := by
  unfold follow
  split
  · exact followMaster_grown h
  · exact followMaster_grown h
  · exact h

theorem elect_grown (h : Grown old s) : Grown old (elect s) := by
  unfold elect
  split
  · exact h
  · split
    · exact grown_ite (follow_grown h) (grown_ite h (becomeMaster_grown h))
    · exact grown_ite h (becomeMaster_grown h)
    · exact follow_grown h
    · exact runFree_grown h

theorem execAnnounceReceive_grown {l a} (h : Grown old s) : OutGrown old (execAnnounceReceive l a s) := by
  unfold execAnnounceReceive
  split
  · exact h
  · exact grown_ite (grown_frame (elect_grown (setHeard_grown h))) (elect_grown (setHeard_grown h))

theorem applyError_grown {err} (h : Grown old s) : Grown old (applyError err s) := h
theorem stampMark_grown {l m rx} (h : Grown old s) : Grown old (stampMark l m rx s) := setHeard_grown h

theorem execTickMarkerReceive_grown {l m rx} (h : Grown old s) : OutGrown old (execTickMarkerReceive l m rx s) := by
  unfold execTickMarkerReceive
  extract_lets t
  have ht : Grown old t := stampMark_grown h
  split
  · split
    · exact applyError_grown ht
    · exact ht
  · exact ht

theorem execMasterAnnounceTimeout_grown (h : Grown old s) : OutGrown old (execMasterAnnounceTimeout s) := by
  unfold execMasterAnnounceTimeout
  split
  · split
    · exact elect_grown (runFree_grown h)
    · exact h
  · exact h

theorem enterHoldover_grown (h : Grown old s) : Grown old (enterHoldover s) := grown_ite h h

theorem execTickLoss_grown (h : Grown old s) : OutGrown old (execTickLoss s) := by
  unfold execTickLoss
  split
  · exact raiseEv_grown (bumpModule_grown h)
  · exact h

theorem execTickStep_grown (h : Grown old s) : OutGrown old (execTickStep s) := by
  unfold execTickStep
  split
  · exact h
  · split
    · extract_lets
      split
      · exact h
      · exact h
    · exact h

theorem execTickInMissed_grown (h : Grown old s) : OutGrown old (execTickInMissed s) := by
  unfold execTickInMissed
  split
  · exact grown_ite (enterHoldover_grown h) h
  · exact h

theorem execStartupMastership_grown (h : Grown old s) : OutGrown old (execStartupMastership s) := by
  unfold execStartupMastership
  split
  · split
    · exact elect_grown h
    · exact h
  · exact h

theorem tickLinkLost_grown {l} (h : Grown old s) : Grown old (tickLinkLost l s) := by
  unfold tickLinkLost
  extract_lets t
  have ht : Grown old t := setHeard_grown h
  split
  · exact ht
  · split
    · split
      · exact followMaster_grown ht
      · exact enterHoldover_grown ht
    · exact ht

theorem upstreamStep_grown (h : Grown old s) : Grown old (upstreamStep s) := by
  unfold upstreamStep
  split
  · split
    · split
      · exact h
      · split
        · exact followMaster_grown h
        · exact enterHoldover_grown h
    · split
      · exact h
      · split
        · exact followMaster_grown h
        · exact enterHoldover_grown h
  · exact h

theorem sendMark_grown {l} (h : Grown old s) : Grown old (sendMark s l) := by
  unfold sendMark
  split
  next u hu =>
    have hu := grown_of_eq (takeFree_grown h) hu
    extract_lets _ t1 t2
    have ht2 : Grown old t2 := modLink_grown hu
    split
    · split
      next v hv =>
        have hv := grown_of_eq (takeFree_grown ht2) hv
        exact hv
    · exact ht2

theorem sendMarkers_grown (h : Grown old s) : Grown old (sendMarkers s) := grown_foldl (fun _ _ hs => sendMark_grown hs) h

theorem advanceTick_grown (h : Grown old s) : Grown old (advanceTick s) := by
  unfold advanceTick
  extract_lets _ t
  split
  · exact h
  · exact raiseEv_grown (bumpModule_grown h)

/-! ### Threads (chapter 15) -/

theorem setThr_grown {x v} (h : Grown old s) : Grown old (setThr x v s) := h
theorem modThr_grown {x f} (h : Grown old s) : Grown old (modThr x f s) := setThr_grown h
theorem setKernel_grown {k v} (h : Grown old s) : Grown old (setKernel k v s) := h
theorem modKernel_grown {k f} (h : Grown old s) : Grown old (modKernel k f s) := setKernel_grown h
theorem modWorkRun_grown {k n f} (h : Grown old s) : Grown old (modWorkRun k n f s) := modKernel_grown h
theorem doneFailed_grown {k run gen st} (h : Grown old s) : Grown old (doneFailed k run gen st s) := (doneFailed_rested ..).grown h
theorem endRun_grown {k r partialBytes} (h : Grown old s) : Grown old (endRun k r partialBytes s) := (endRun_rested ..).grown h
theorem settleRun_grown {k n} (h : Grown old s) : Grown old (settleRun k n s) := (settleRun_rested ..).grown h

theorem settleBar_grown {k n} (h : Grown old s) : Grown old (settleBar k n s) :=
  grown_foldl (fun _ _ hs => grown_ite (modThr_grown hs) hs) h

theorem faultWith_grown {x cause st where_} (h : Grown old s) : Grown old (faultWith x cause st where_ s) := (faultWith_rested ..).grown h
theorem fault_grown {x cause where_} (h : Grown old s) : Grown old (fault x cause where_ s) := faultWith_grown h

theorem issue_grown {x cls op body} (hb : ∀ v i y s, Grown old s → OptGrown old (body v i y s)) (h : Grown old s) :
    Grown old (issue x cls op body s) := by
  unfold issue
  extract_lets _ _
  refine grown_ite h ?_
  split
  · exact grown_ite (fault_grown (raiseEv_grown h)) (fault_grown h)
  · extract_lets
    split
    · exact fault_grown h
    · refine grown_ite h (grown_ite (fault_grown h) (grown_ite h ?_))
      split
      · exact h
      next hq => exact bump_grown (grown_of_some (hb _ _ _ _ h) hq)

theorem onThread_grown {x cls op f} (h : Grown old s) : OutGrown old (onThread x cls op f s) :=
  issue_grown (fun _ _ _ _ hs => setThr_grown hs) h

theorem accCount_grown {x wr tenant a p} (h : Grown old s) : Grown old (accCount x wr tenant a p s) := (accCount_booked ..).grown h

theorem accRead_grown {x tenant a n} (h : Grown old s) : PairGrown old (accRead x tenant a n s) := by
  unfold accRead
  split
  · exact h
  · extract_lets t
    have ht : Grown old t := accCount_grown h
    split
    · exact ht
    · exact foundBad_grown ht

theorem accWrite_grown {x tenant a bs} (h : Grown old s) : PairGrown old (accWrite x tenant a bs s) := by
  unfold accWrite
  split
  · exact h
  · split
    next u hu =>
      have hu := grown_of_eq_fst (placeWrite_grown (accCount_grown h)) hu
      exact hu
    next u hu =>
      have hu := grown_of_eq_fst (placeWrite_grown (accCount_grown h)) hu
      exact foundBad_grown hu

theorem countItem_grown {x} (h : Grown old s) : Grown old (countItem x s) := bump_grown h

theorem thrSend_grown {x base len payload acc f} (h : Grown old s) : OptGrown old (thrSend x base len payload acc f s) := by
  unfold thrSend
  split
  · extract_lets
    split
    next u hu =>
      have hu := grown_of_some (sendItem_grown h) hu
      exact countItem_grown (modThr_grown hu)
    · exact trivial
  · exact trivial

/-! ### Synchronisation and control (chapter 16) -/

theorem execFence_grown {x} (h : Grown old s) : OutGrown old (execFence x s) := by
  unfold execFence
  refine issue_grown (fun _ _ _ u hs => ?_) h
  split
  · exact setThr_grown hs
  · exact trivial

theorem execBar_grown {x} (h : Grown old s) : OutGrown old (execBar x s) := by
  unfold execBar
  refine issue_grown (fun _ _ _ u hs => ?_) h
  split
  · exact settleBar_grown (setThr_grown hs)
  · exact trivial

theorem launchFrom_grown {x v i y} (h : Grown old s) : OptGrown old (launchFrom x v i y s) := by
  unfold launchFrom
  extract_lets
  split
  · exact fault_grown h
  · split
    · split
      · exact fault_grown h
      · split
        next u hu =>
          have hu := grown_of_eq (accRead_grown h) hu
          exact fault_grown hu
        next u hu =>
          have hu := grown_of_eq (accRead_grown h) hu
          extract_lets
          split
          · exact setThr_grown hu
          · split
            next v hv =>
              have hv := grown_of_eq (accRead_grown hu) hv
              exact fault_grown hv
            next v hv =>
              have hv := grown_of_eq (accRead_grown hu) hv
              split
              · split
                next w hw =>
                  have hw := grown_of_some (sendItem_grown hv) hw
                  exact countItem_grown (modThr_grown hw)
                · exact trivial
              · exact trivial
    · exact fault_grown h

theorem control_grown {x op f} (h : Grown old s) : OutGrown old (control x op f s) :=
  issue_grown (fun _ _ _ _ hs => setThr_grown hs) h

/-! ### Instructions that reach memory (chapter 16) -/

theorem scalarLoad_grown {sgn x v i y} (h : Grown old s) : OptGrown old (scalarLoad sgn x v i y s) := by
  unfold scalarLoad
  extract_lets
  split
  · exact fault_grown h
  · split
    · exact thrSend_grown h
    · exact thrSend_grown h
    · split
      next u hu =>
        have hu := grown_of_eq (accRead_grown h) hu
        exact setThr_grown hu
      next u hu =>
        have hu := grown_of_eq (accRead_grown h) hu
        exact fault_grown hu

theorem scalarStore_grown {x v i y} (h : Grown old s) : OptGrown old (scalarStore x v i y s) := by
  unfold scalarStore
  extract_lets
  split
  · exact fault_grown h
  · split
    · exact thrSend_grown h
    · exact thrSend_grown h
    · split
      next u hu =>
        have hu := grown_of_eq (accWrite_grown h) hu
        exact setThr_grown hu
      next u hu =>
        have hu := grown_of_eq (accWrite_grown h) hu
        exact fault_grown hu

theorem readRuns_grown {x tenant base rs} (h : Grown old s) : PairGrown old (readRuns x tenant base rs s) := by
  induction rs generalizing s with
  | nil => exact h
  | cons y ys ih =>
    unfold readRuns
    extract_lets
    split
    next u hu =>
      have hu := grown_of_eq (accRead_grown h) hu
      exact hu
    next u hu =>
      have hu := grown_of_eq (accRead_grown h) hu
      split
      next v hv =>
        have hv := grown_of_eq (ih hu) hv
        exact hv
      next v hv =>
        have hv := grown_of_eq (ih hu) hv
        exact hv

theorem writeRunsAt_grown {x tenant base rs} (h : Grown old s) : PairGrown old (writeRunsAt x tenant base rs s) := by
  induction rs generalizing s with
  | nil => exact h
  | cons r rs ih =>
    unfold writeRunsAt
    extract_lets a pre
    have hold : PairGrown old pre := by
      unfold pre
      split
      · exact h
      · split
        · exact h
        · split
          · exact h
          · exact foundBad_grown h
    clear_value pre
    split
    · exact hold
    next u =>
      have hu : Grown old u := hold
      split
      next v hv => exact grown_of_eq (accWrite_grown hu) hv
      next v hv => exact ih (grown_of_eq (accWrite_grown hu) hv)

theorem vectorLoad_grown {x v i y} (h : Grown old s) : OptGrown old (vectorLoad x v i y s) := by
  unfold vectorLoad
  extract_lets
  split
  · exact setThr_grown h
  · extract_lets
    split
    · exact fault_grown h
    · split
      · exact fault_grown h
      · split
        · exact thrSend_grown h
        · exact thrSend_grown h
        · split
          next u hu =>
            have hu := grown_of_eq (readRuns_grown h) hu
            exact fault_grown hu
          next u hu =>
            have hu := grown_of_eq (readRuns_grown h) hu
            exact setThr_grown hu

theorem sendRuns_grown {x tenant base lo runs} (h : Grown old s) : OptGrown old (sendRuns x tenant base lo runs s) := by
  unfold sendRuns
  extract_lets
  split
  · exact trivial
  · exact grown_foldl (fun _ _ hs => injectOwn_grown hs) h

theorem vectorStore_grown {x v i y} (h : Grown old s) : OptGrown old (vectorStore x v i y s) := by
  unfold vectorStore
  extract_lets
  split
  · exact setThr_grown h
  · extract_lets
    split
    · exact fault_grown h
    · split
      · exact fault_grown h
      · split
        · split
          · split
            next u hu =>
              have hu := grown_of_eq (takeFree_grown h) hu
              extract_lets
              split
              next v hv =>
                have hv := grown_of_some (sendRuns_grown hu) hv
                exact countItem_grown (setThr_grown hv)
              · exact trivial
          · exact trivial
        · split
          · split
            next u hu =>
              have hu := grown_of_eq (takeFree_grown h) hu
              extract_lets
              split
              next v hv =>
                have hv := grown_of_some (sendRuns_grown hu) hv
                exact countItem_grown (setThr_grown hv)
              · exact trivial
          · exact trivial
        · split
          next u hu =>
            have hu := grown_of_eq (writeRunsAt_grown h) hu
            exact setThr_grown hu
          next u hu =>
            have hu := grown_of_eq (writeRunsAt_grown h) hu
            exact fault_grown hu

theorem readLanes_grown {x v c ls} (h : Grown old s) : PairGrown old (readLanes x v c ls s) := by
  induction ls generalizing s with
  | nil => exact h
  | cons y ys ih =>
    unfold readLanes
    split
    · exact h
    · split
      next u hu =>
        have hu := grown_of_eq (accRead_grown h) hu
        exact hu
      next u hu =>
        have hu := grown_of_eq (accRead_grown h) hu
        split
        next v hv =>
          have hv := grown_of_eq (ih hu) hv
          exact hv
        next v hv =>
          have hv := grown_of_eq (ih hu) hv
          exact hv

theorem writeLanes_grown {x v c f ls} (h : Grown old s) : PairGrown old (writeLanes x v c f ls s) := by
  induction ls generalizing s with
  | nil => exact h
  | cons y ys ih =>
    unfold writeLanes
    split
    · exact h
    · split
      next u hu =>
        have hu := grown_of_eq (accWrite_grown h) hu
        exact hu
      next u hu =>
        have hu := grown_of_eq (accWrite_grown h) hu
        exact ih hu

theorem lanesLoad_grown {f x v i y} (h : Grown old s) : OptGrown old (lanesLoad f x v i y s) := by
  unfold lanesLoad
  extract_lets
  split
  · exact trivial
  · split
    next u hu =>
      have hu := grown_of_eq (readLanes_grown h) hu
      exact fault_grown hu
    next u hu =>
      have hu := grown_of_eq (readLanes_grown h) hu
      exact setThr_grown hu

theorem lanesStore_grown {f x v i y} (h : Grown old s) : OptGrown old (lanesStore f x v i y s) := by
  unfold lanesStore
  extract_lets
  split
  · exact trivial
  · split
    next u hu =>
      have hu := grown_of_eq (writeLanes_grown h) hu
      exact fault_grown hu
    next u hu =>
      have hu := grown_of_eq (writeLanes_grown h) hu
      exact setThr_grown hu

theorem atomicAcc_grown {op x v i y} (h : Grown old s) : OptGrown old (atomicAcc op x v i y s) := by
  unfold atomicAcc
  extract_lets
  split
  · exact fault_grown h
  · split
    · exact thrSend_grown h
    · exact thrSend_grown h
    · split
      · exact fault_grown h
      · split
        next u hu =>
          have hu := grown_of_eq (placeAtomic_grown (accCount_grown h)) hu
          exact setThr_grown hu
        next u hu =>
          have hu := grown_of_eq (placeAtomic_grown (accCount_grown h)) hu
          exact fault_grown (foundBad_grown hu)

/-! ### The kernel library (chapter 15) -/

theorem libRead_grown {x tenant a n} (h : Grown old s) : LibGrown old (libRead x tenant a n s) := by
  unfold libRead
  split
  · exact h
  · split
    · exact freeBytes_grown h
    · split
      next u hu =>
        have hu := grown_of_eq (accRead_grown h) hu
        exact hu
      next u hu =>
        have hu := grown_of_eq (accRead_grown h) hu
        exact hu

theorem libWrite_grown {x k run tenant a bs} (h : Grown old s) : LibGrown old (libWrite x k run tenant a bs s) := by
  unfold libWrite
  split
  · exact h
  · split
    · split
      next u hu =>
        have hu := grown_of_some (sendItem_grown h) hu
        exact hu
      · exact h
    · split
      next u hu =>
        have hu := grown_of_eq (accWrite_grown h) hu
        exact hu
      next u hu =>
        have hu := grown_of_eq (accWrite_grown h) hu
        exact hu

theorem libReadZ_grown {x tenant w fuel n a} (h : Grown old s) : LibGrown old (libReadZ x tenant w fuel n a s) := by
  induction fuel generalizing n a s with
  | zero => exact h
  | succ fuel ih =>
    unfold libReadZ
    split
    · exact h
    · split
      next u hu =>
        have hu := grown_of_bad (libRead_grown h) hu
        exact hu
      next u hu =>
        have hu := grown_of_ok (libRead_grown h) hu
        extract_lets
        split
        next v hv =>
          have hv := grown_of_bad (libRead_grown hu) hv
          exact hv
        next v hv =>
          have hv := grown_of_ok (libRead_grown hu) hv
          split
          next w hw =>
            have hw := grown_of_bad (ih hv) hw
            exact hw
          next w hw =>
            have hw := grown_of_ok (ih hv) hw
            exact hw

theorem libReadElems_grown {x tenant f n a} (h : Grown old s) : LibGrown old (libReadElems x tenant f n a s) := by
  unfold libReadElems
  split
  · exact libReadZ_grown h
  · exact libRead_grown h

theorem pageRows_grown {x tenant kvFmt hd page j n} (h : Grown old s) : LibGrown old (pageRows x tenant kvFmt hd page j n s) := by
  induction n generalizing j s with
  | zero => exact h
  | succ n ih =>
    unfold pageRows
    extract_lets
    split
    next u hu =>
      have hu := grown_of_bad (libRead_grown h) hu
      exact hu
    next u hu =>
      have hu := grown_of_ok (libRead_grown h) hu
      split
      next v hv =>
        have hv := grown_of_bad (libRead_grown hu) hv
        exact hv
      next v hv =>
        have hv := grown_of_ok (libRead_grown hu) hv
        split
        next w hw =>
          have hw := grown_of_bad (ih hv) hw
          exact hw
        next w hw =>
          have hw := grown_of_ok (ih hv) hw
          exact hw

theorem attnPages_grown {x tenant kvFmt hd scale qs ws first count acc} (h : Grown old s) :
    LibGrown old (attnPages x tenant kvFmt hd scale qs ws first count acc s) := by
  induction ws generalizing first count acc s with
  | nil => exact h
  | cons y ys ih =>
    unfold attnPages
    extract_lets
    split
    · exact h
    · split
      next u hu =>
        have hu := grown_of_bad (pageRows_grown h) hu
        exact hu
      next u hu =>
        have hu := grown_of_ok (pageRows_grown h) hu
        exact ih hu

theorem attnRun_grown {x tenant p kvFmt hd pages} (h : Grown old s) : LibGrown old (attnRun x tenant p kvFmt hd pages s) := by
  unfold attnRun
  extract_lets
  split
  next u hu =>
    have hu := grown_of_bad (attnPages_grown h) hu
    exact hu
  next u hu =>
    have hu := grown_of_ok (attnPages_grown h) hu
    exact hu

theorem sampleWord_grown {nucleus k temp p u logits} (h : Grown old s) :
    PairGrown old (sampleWord nucleus k temp p u logits s) := by
  unfold sampleWord
  extract_lets
  split
  · exact h
  · exact takeFree_grown h

theorem libSample_grown {nucleus x k tenant r} (h : Grown old s) : LibGrown old (libSample nucleus x k tenant r s) := by
  unfold libSample
  extract_lets
  split
  next u hu =>
    have hu := grown_of_bad (libReadElems_grown h) hu
    exact hu
  next u hu =>
    have hu := grown_of_ok (libReadElems_grown h) hu
    split
    · exact hu
    · exact libWrite_grown (sampleWord_grown hu)

theorem libDequant_grown {x k tenant r} (h : Grown old s) : LibGrown old (libDequant x k tenant r s) := by
  unfold libDequant
  extract_lets
  split
  next u hu =>
    have hu := grown_of_bad (libReadElems_grown h) hu
    exact hu
  next u hu =>
    have hu := grown_of_ok (libReadElems_grown h) hu
    split
    · exact hu
    · split
      · exact libWrite_grown hu
      · exact libWrite_grown (freeBytes_grown hu)

theorem libRows_grown {gather x k tenant r bytes i n} (h : Grown old s) :
    LibGrown old (libRows gather x k tenant r bytes i n s) := by
  induction n generalizing i s with
  | zero => exact h
  | succ n ih =>
    unfold libRows
    split
    next u hu =>
      have hu := grown_of_bad (libRead_grown h) hu
      exact hu
    next u hu =>
      have hu := grown_of_ok (libRead_grown h) hu
      extract_lets
      split
      next v hv =>
        have hv := grown_of_bad (libRead_grown hu) hv
        exact hv
      next v hv =>
        have hv := grown_of_ok (libRead_grown hu) hv
        split
        next w hw =>
          have hw := grown_of_bad (libWrite_grown hv) hw
          exact hw
        next w hw =>
          have hw := grown_of_ok (libWrite_grown hv) hw
          exact ih hw

theorem readExperts_grown {x tenant fmt dim n a} (h : Grown old s) : LibGrown old (readExperts x tenant fmt dim n a s) := by
  induction n generalizing a s with
  | zero => exact h
  | succ n ih =>
    unfold readExperts
    extract_lets
    split
    next u hu =>
      have hu := grown_of_bad (libRead_grown h) hu
      exact hu
    next u hu =>
      have hu := grown_of_ok (libRead_grown h) hu
      split
      next v hv =>
        have hv := grown_of_bad (ih hu) hv
        exact hv
      next v hv =>
        have hv := grown_of_ok (ih hu) hv
        exact hv

theorem libCombine_grown {x k tenant r dim kk fmt i n} (h : Grown old s) :
    LibGrown old (libCombine x k tenant r dim kk fmt i n s) := by
  induction n generalizing i s with
  | zero => exact h
  | succ n ih =>
    unfold libCombine
    extract_lets
    split
    next u hu =>
      have hu := grown_of_bad (libRead_grown h) hu
      exact hu
    next u hu =>
      have hu := grown_of_ok (libRead_grown h) hu
      split
      next v hv =>
        have hv := grown_of_bad (readExperts_grown hu) hv
        exact hv
      next v hv =>
        have hv := grown_of_ok (readExperts_grown hu) hv
        extract_lets
        split
        next w hw =>
          have hw := grown_of_bad (libWrite_grown hv) hw
          exact hw
        next w hw =>
          have hw := grown_of_ok (libWrite_grown hv) hw
          exact ih hw

theorem libWork_grown {x k v r} (h : Grown old s) : LibGrown old (libWork x k v r s) := by
  unfold libWork
  extract_lets unit a
  have hunit : ∀ {r}, LibGrown old r → LibGrown old (unit r) := by
    intro r hr
    cases r with
    | ok => exact hr
    | bad => exact hr
  split
  · split
    · exact attnRun_grown h
    · exact h
  · exact hunit (libSample_grown h)
  · exact hunit (libSample_grown h)
  · exact hunit (libDequant_grown h)
  · exact hunit (libRows_grown h)
  · exact hunit (libRows_grown h)
  · exact hunit (libCombine_grown h)
  · exact h

/-! ### Kernels and runs (chapter 15) -/

theorem withKernel_grown {d f bound body} (hb : ∀ a s, Grown old s → Grown old (body a s)) (h : Grown old s) :
    Grown old (withKernel d f bound s body) := by
  unfold withKernel
  split
  · exact complete_grown h
  · exact grown_ite (complete_grown (modFlight_grown h)) (grown_ite (complete_grown (modFlight_grown h)) (hb _ _
    (modFlight_grown h)))

theorem kernelLoad_grown {d f} (h : Grown old s) : Grown old (kernelLoad d f s) :=
  withKernel_grown (fun _ _ hs => grown_ite (complete_grown hs) (complete_grown (setKernel_grown (bindPage_grown hs)))) h

theorem kernelStarting_grown {k} (h : Grown old s) : Grown old (kernelStarting k s) :=
  grown_ite (hostRead_grown (setKernel_grown h)) (setKernel_grown h)

theorem codeGot_grown {k st bs} (h : Grown old s) : Grown old (codeGot k st bs s) := grown_ite (modKernel_grown h) h
theorem kernelStopping_grown {k st} (h : Grown old s) : Grown old (kernelStopping k st s) := (kernelStopping_rested ..).grown h
theorem kernelOff_grown {k} (h : Grown old s) : Grown old (kernelOff k s) := h

theorem admitRun_grown {k b threads args ready} (h : Grown old s) : PairGrown old (admitRun k b threads args ready s) :=
  bump_grown (setKernel_grown h)

theorem kernelRun_grown {d f} (h : Grown old s) : Grown old (kernelRun d f s) := by
  unfold kernelRun
  refine withKernel_grown (fun _ u hs => ?_) h
  extract_lets _ _ t
  have ht : Grown old t := admitRun_grown (modFlight_grown hs)
  split
  · exact complete_grown hs
  · split
    · exact complete_grown hs
    · split
      · exact complete_grown hs
      · exact complete_grown hs
      · exact grown_ite ht (hostRead_grown ht)

theorem argsGot_grown {d st bs} (h : Grown old s) : Grown old (argsGot d st bs s) := by
  unfold argsGot
  split
  · exact h
  · extract_lets
    split
    · exact h
    · exact grown_ite (modWorkRun_grown h) (endRun_grown h)

theorem launchRefuse_grown {k out st p} (h : Grown old s) : Grown old (launchRefuse k out st p s) :=
  sendFail_grown (countRefused_grown (bump_grown h))

theorem launchArrive_grown {port p} (h : Grown old s) : Grown old (launchArrive port p s) := by
  unfold launchArrive
  split
  · exact h
  · extract_lets t
    have ht : Grown old t := takeDelivered_grown h
    split
    · exact launchRefuse_grown ht
    · split
      · exact launchRefuse_grown ht
      · split
        next u hu =>
          have hu := grown_of_eq (admitRun_grown ht) hu
          exact inject_grown hu

theorem seqWait_grown {d words} (h : Grown old s) : Grown old (seqWait d words s) := h

theorem seqSet_grown {d f} (h : Grown old s) : Grown old (seqSet d f s) := by
  unfold seqSet
  split
  · exact complete_grown h
  · exact grown_ite (complete_grown (modFlight_grown h)) (grown_ite (complete_grown (modFlight_grown h))
    (seqWait_grown (modFlight_grown (modFlight_grown h))))

theorem seqPages_grown {d f} (h : Grown old s) : Grown old (seqPages d f s) := by
  unfold seqPages
  split
  · exact complete_grown h
  · exact grown_ite (complete_grown (modFlight_grown h)) (grown_ite (complete_grown (modFlight_grown h)) (grown_ite
    (complete_grown (modFlight_grown h)) (grown_ite (seqWait_grown (modFlight_grown (modFlight_grown h)))
    (hostRead_grown (modFlight_grown (modFlight_grown h))))))

theorem pagesGot_grown {d st bs} (h : Grown old s) : Grown old (pagesGot d st bs s) := by
  unfold pagesGot
  split
  · exact h
  · exact grown_ite (complete_grown h) (seqWait_grown h)

theorem seqClear_grown {d f} (h : Grown old s) : Grown old (seqClear d f s) := by
  unfold seqClear
  split
  · exact complete_grown h
  · exact grown_ite (complete_grown (modFlight_grown h)) (seqWait_grown (modFlight_grown (modFlight_grown h)))

theorem seqApply_grown {w} (h : Grown old s) : Grown old (seqApply w s) := by
  unfold seqApply
  split
  · exact h
  · exact grown_ite (grown_ite (complete_grown h) (complete_grown (modFlight_grown (larderPut_grown 
    (larderZero_grown h))))) (grown_ite (complete_grown h) (grown_ite (grown_ite (complete_grown h) (grown_ite
    (complete_grown h) (complete_grown (larderPut_grown h)))) (complete_grown (modFlight_grown
    (larderPut_grown h)))))

theorem seqBoundary_grown (h : Grown old s) : Grown old (seqBoundary s) := grown_foldl (fun _ _ hs => seqApply_grown hs) h

theorem attnArrive_grown {port p} (h : Grown old s) : Grown old (attnArrive port p s) := by
  unfold attnArrive
  split
  · exact h
  · extract_lets t
    have ht : Grown old t := takeDelivered_grown h
    split
    · exact sendFail_grown (countRefused_grown ht)
    · split
      · exact sendFail_grown (countRefused_grown ht)
      · split
        · exact sendFail_grown (countRefused_grown ht)
        · exact admitRun_grown ht

theorem placeThreads_grown {k v r ts} (h : Grown old s) : Grown old (placeThreads k v r ts s) :=
  grown_foldl (fun _ _ hs => setThr_grown hs) h

theorem runStart_grown {k} (h : Grown old s) : Grown old (runStart k s) := by
  unfold runStart
  split
  · exact h
  · extract_lets _ _ t
    have ht : Grown old t := modWorkRun_grown (bump_grown (bump_grown (placeThreads_grown h)))
    split
    · exact h
    · split
      · exact ht
      · split
        next u hu =>
          have hu := grown_of_ok (libWork_grown ht) hu
          exact settleRun_grown (modWorkRun_grown hu)
        next u hu =>
          have hu := grown_of_bad (libWork_grown ht) hu
          exact fault_grown hu

theorem execRunLimitExpired_grown {k run} (h : Grown old s) : OutGrown old (execRunLimitExpired k run s) := by
  unfold execRunLimitExpired
  split
  · split
    · split
      · exact fault_grown h
      · exact h
    · exact h
  · exact h

theorem threadGot_grown {x acc bs} (h : Grown old s) : Grown old (threadGot x acc bs s) := settleRun_grown (setThr_grown h)

theorem threadLaunched_grown {x reg st run} (h : Grown old s) : Grown old (threadLaunched x reg st run s) :=
  settleRun_grown (setThr_grown h)

theorem threadFailed_grown {x acc st addr} (h : Grown old s) : Grown old (threadFailed x acc st addr s) := by
  unfold threadFailed
  split
  · exact threadLaunched_grown h
  · exact faultWith_grown (modThr_grown h)

theorem libItemEnd_grown {k run st addr} (h : Grown old s) : Grown old (libItemEnd k run st addr s) := by
  unfold libItemEnd
  split
  · exact grown_ite (settleRun_grown h) (faultWith_grown h)
  · exact h

end Machine
end Sys2Proof
end

section
/-!
PROOF. No command clears a fuse (R669, R670, R716), part six: failures, telemetry, frames sent, power, coats, functions and registers.
-/
namespace Sys2Proof
namespace Machine
set_option Elab.async false

variable {s t : State} {old : Fuses}

/-! ### Failures and lost nodes (chapter 22) -/

theorem dropInput_grown {o i} (h : Grown old s) : Grown old (dropInput o i s) :=
  grown_ite h (trimBlocks_grown (grown_foldl (fun _ _ hs => freeUnits_grown (grown_frame (grown_ite (grown_ite
    (loseRef_grown (sendFail_grown hs)) hs) (freeCredits_grown (grown_ite (loseRef_grown (sendFail_grown hs)) hs)))))
    (setIn_grown h)))

theorem dropStarted_grown {o q} (h : Grown old s) : Grown old (dropStarted o s q) := by
  unfold dropStarted
  exact grown_ite (countLeft_grown (freeHeld_grown (markDead_grown (modOut_grown (loseRef_grown (bumpPort_grown
    (grown_ite (sendFail_grown h) (mcCount_grown h)))))))) (grown_ite (freeCredits_grown (countLeft_grown
    (freeHeld_grown (markDead_grown (modOut_grown (loseRef_grown (bumpPort_grown (grown_ite (sendFail_grown h)
    (mcCount_grown h))))))))) (freeReplicas_grown (countLeft_grown (freeHeld_grown (markDead_grown (modOut_grown
    (loseRef_grown (bumpPort_grown (grown_ite (sendFail_grown h) (mcCount_grown h))))))))))

theorem dropLinkPackets_grown {l} (h : Grown old s) : Grown old (dropLinkPackets l s) := by
  unfold dropLinkPackets
  exact forgetDead_grown (grown_foldl (fun _ _ hs => dropInput_grown hs) (setTm_grown (grown_foldl
    (fun _ _ hs => sendFail_grown hs) (grown_foldl (fun _ _ hs => discardAt_grown hs) (grown_foldl
    (fun _ _ hs => grown_ite (countLeft_grown (modOut_grown hs)) (grown_ite (freeCredits_grown (countLeft_grown
    (modOut_grown hs))) (freeReplicas_grown (countLeft_grown (modOut_grown hs))))) (grown_foldl
    (fun _ _ hs => dropStarted_grown hs) h))))))

theorem dropOrdered_grown {i x} (h : Grown old s) : Grown old (dropOrdered i s x) := by
  unfold dropOrdered
  extract_lets _ t
  have ht : Grown old t := loseRef_grown (sendFail_grown h)
  split
  · exact grown_ite h (discardAt_grown h)
  · exact grown_ite h (modOut_grown ht)

theorem dropContribs_grown {i} (h : Grown old s) : Grown old (dropContribs i s) :=
  grown_foldl (fun _ _ hs => sendFail_grown (freeUnits_grown (modIn_grown (grown_frame hs)))) h

theorem dropArriving_grown {l k} (h : Grown old s) : Grown old (dropArriving l k s) := by
  unfold dropArriving
  split
  · exact sendFail_grown h
  · exact h

theorem sweepNode_grown {n} (h : Grown old s) : Grown old (sweepNode n s).2.2 :=
  List.foldlRecOn (motive := fun (r : Nat × Bool × State) => Grown old r.2.2) _ _ h
    (fun _ hr _ _ => grown_foldl (fun _ _ hs => inject_grown (countFail_grown hs)) hr)

theorem loseNode_grown {n} (h : Grown old s) : Grown old (loseNode s n) := by
  unfold loseNode
  extract_lets own
  split
  next u hu =>
    have hu : Grown old u := by
      clear_value own
      cases own with
      | none => exact grown_of_eq_third (p := (_, _, s)) h hu
      | some l => exact grown_of_eq_third (sweepNode_grown h) hu
    exact raiseEv_grown (grown_frame hu)

theorem nodeCheck_grown (h : Grown old s) : Grown old (nodeCheck s) := by
  unfold nodeCheck
  extract_lets _ _ t _ _ t1
  have ht : Grown old t := grown_foldl (fun _ _ hs => raiseEv_grown hs) h
  have ht1 : Grown old t1 := bump_grown ht
  exact grown_ite ht1 (collLosses_grown (grown_foldl (fun _ _ hs => loseNode_grown hs) ht1))

theorem nodesAfter_grown (h : Grown old s) : Grown old (nodesAfter s) := grown_ite h (nodeCheck_grown h)

theorem declareLink_grown {l cause} (h : Grown old s) : Grown old (declareLink l cause s) := by
  unfold declareLink
  exact lanesToDetect_grown (streamLosses_grown (streamLinkLost_grown (collLosses_grown (tickLinkLost_grown
    (sendNotice_grown (modLink_grown (dropArriving_grown (dropContribs_grown (grown_foldl
    (fun _ _ hs => dropOrdered_grown hs) (dropLinkPackets_grown (setLink_grown (raiseEv_grown
    (bumpPort_grown h)))))))))))))

theorem execLinkFailureDeclare_grown {l} (h : Grown old s) : OutGrown old (execLinkFailureDeclare l s) := by
  unfold execLinkFailureDeclare
  split
  · split
    · exact nodesAfter_grown (grown_ite (declareLink_grown (setPhase_grown h)) (lanesToDetect_grown (modLink_grown
      (setPhase_grown h))))
    · exact h
  · exact h

theorem applyNotice_grown {n} (h : Grown old s) : Grown old (applyNotice s n) :=
  grown_ite h (grown_ite h (grown_ite (raiseEv_grown h) h))

theorem takeNotice_grown {p} (h : Grown old s) : Grown old (takeNotice p s) := grown_ite h h

theorem endOwn_grown {o st bytes echo} (h : Grown old s) : Grown old (endOwn o st bytes echo s) := by
  unfold endOwn
  extract_lets t
  have ht : Grown old t := dropOwn_grown h
  split
  · exact dmEnd_grown ht
  · exact grown_ite (threadGot_grown ht) (threadFailed_grown ht)
  · exact libItemEnd_grown ht
  · exact grown_ite (gwInFail_grown ht) (gwInDone_grown (grown_ite (gwInData_grown ht) ht))
  · exact grown_ite (gwOutFail_grown ht) (grown_ite (gwOutData_grown ht) (gwOutWritten_grown ht))
  · exact grown_ite ht (doneFailed_grown ht)

theorem echoPace_grown {o p} (h : Grown old s) : Grown old (echoPace o p s) := grown_ite (modIn_grown h) h

theorem withAnswer_grown {p op body} (hb : ∀ a s, Grown old s → Grown old (body a s)) (h : Grown old s) :
    Grown old (withAnswer p op s body) := by
  unfold withAnswer
  split
  · exact h
  · split
    next u hu =>
      have hu := grown_of_eq (takeAnswer_grown h) hu
      exact grown_ite (hb _ _ (echoPace_grown hu)) hu
    next u hu =>
      have hu := grown_of_eq (takeAnswer_grown h) hu
      exact hu

theorem execRdData_grown {p} (h : Grown old s) : OutGrown old (execRdData p s) := by
  refine withAnswer_grown (fun o t ht => ?_) h
  split
  next u hu =>
    have hu := grown_of_eq_third (countRead_grown ht) hu
    exact grown_ite (endOwn_grown hu) hu

theorem execLaunchAck_grown {p} (h : Grown old s) : OutGrown old (execLaunchAck p s) := by
  unfold execLaunchAck
  refine withAnswer_grown (fun _ u hs => ?_) h
  extract_lets t
  have ht : Grown old t := dropOwn_grown hs
  split
  · exact threadLaunched_grown ht
  · exact ht

theorem sweepOwn_grown {p} (h : Grown old s) : Grown old (sweepOwn p s) := grown_foldl (fun _ _ hs => endOwn_grown hs) h

theorem execResponseTimeout_grown {tag} (h : Grown old s) : OutGrown old (execResponseTimeout tag s) := by
  unfold execResponseTimeout
  split
  · exact grown_ite (endOwn_grown h) h
  · exact h

theorem faultLogRead_grown {d f} (h : Grown old s) : Grown old (faultLogRead d f s) := by
  unfold faultLogRead
  extract_lets _ _ _ _ _ _ _ t
  have ht : Grown old t := hostPut_grown h
  split
  · exact complete_grown h
  · split
    · split
      next u hu =>
        have hu := grown_of_eq (takeFree_grown ht) hu
        exact complete_grown hu
    · exact complete_grown ht

/-! ### Snapshots and telemetry (chapter 23) -/

theorem checkPair_grown {k held} (h : Grown old s) : Grown old (checkPair k held s) := grown_ite h (auditMismatch_grown h)

theorem checkPairs_grown (h : Grown old s) : Grown old (checkPairs s) :=
  grown_foldl (fun _ _ hs => checkPair_grown (checkPair_grown hs)) h

theorem latchAudits_grown (h : Grown old s) : Grown old (latchAudits s) := h
theorem snapshot_grown {x} (h : Grown old s) : Grown old (snapshot x s) := latchAudits_grown (checkPairs_grown h)

theorem ctrRead_grown {d f} (h : Grown old s) : Grown old (ctrRead d f s) :=
  grown_ite (complete_grown h) (grown_ite (complete_grown h) (complete_grown (hostPut_grown h)))

theorem setDump_grown {c v} (h : Grown old s) : Grown old (setDump c v s) := h

theorem dumpConfig_grown {d f} (h : Grown old s) : Grown old (dumpConfig d f s) := by
  unfold dumpConfig
  extract_lets
  split
  · exact complete_grown h
  · split
    · exact grown_ite (complete_grown h) (grown_ite (complete_grown h) (addWaits_grown (setDump_grown h)))
    · exact complete_grown h

theorem peepConfig_grown {d f} (h : Grown old s) : Grown old (peepConfig d f s) := by
  unfold peepConfig
  extract_lets
  split
  · extract_lets _ t
    have ht : Grown old t := modFlight_grown h
    exact grown_ite (complete_grown ht) (grown_ite (complete_grown ht) (grown_ite (complete_grown ht)
      (addWaits_grown ht)))
  · exact complete_grown h

theorem telemCopy_grown {d f} (h : Grown old s) : Grown old (telemCopy d f s) := by
  unfold telemCopy
  extract_lets _ _ _ t
  have ht : Grown old t := countPlace_grown h
  split
  · exact complete_grown h
  · split
    · exact complete_grown h
    · split
      · exact complete_grown (hostPut_grown ht)
      · exact complete_grown (foundBad_grown ht)

theorem execDumpDue_grown {c} (h : Grown old s) : OutGrown old (execDumpDue c s) := by
  unfold execDumpDue
  extract_lets
  split
  · exact h
  · exact grown_ite h (grown_ite (setPhase_grown (setDump_grown h)) (setPhase_grown (setDump_grown h)))

theorem dumpPut_grown {c b at_ bs} (h : Grown old s) : Grown old (dumpPut c b at_ bs s) :=
  grown_ite h (grown_ite (placeWrite_grown (countPlace_grown h)) (hostPut_grown h))

theorem dumpTick_grown (h : Grown old s) : Grown old (dumpTick s) := by
  unfold dumpTick
  refine grown_foldl (fun u _ hs => ?_) h
  extract_lets
  split
  · exact hs
  · exact grown_ite hs (dumpPut_grown (setDump_grown hs))

theorem execDumpRecordComplete_grown {c} (h : Grown old s) : OutGrown old (execDumpRecordComplete c s) := by
  unfold execDumpRecordComplete
  extract_lets
  split
  · exact h
  · exact grown_ite h (dumpPut_grown (setDump_grown h))

theorem telemBoundary_grown (h : Grown old s) : Grown old (telemBoundary s) :=
  dumpTick_grown (grown_foldl (fun _ _ hs => complete_grown hs) h)

/-! ### Frames that a link sends (chapter 06) -/

theorem closeFrame_grown {l} (h : Grown old s) : Grown old (closeFrame l s) := by
  unfold closeFrame
  extract_lets
  split
  · exact h
  · exact modLink_grown (grown_foldl (fun _ _ hs => modLane_grown hs) h)

theorem rebuildFrames_grown {l} (h : Grown old s) : Grown old (rebuildFrames l s) := by
  unfold rebuildFrames
  extract_lets
  split
  · exact setLink_grown h
  · exact h

theorem takeWidth_grown {l m} (h : Grown old s) : Grown old (takeWidth l m s) :=
  grown_ite h (grown_ite (rebuildFrames_grown (setLink_grown h)) (setLink_grown h))

theorem putFrame_grown {l f room} (h : Grown old s) : Grown old (putFrame l f room s) := modLink_grown h
theorem newFrame_grown {l f room} (h : Grown old s) : Grown old (newFrame l f room s) := putFrame_grown (setLink_grown h)

theorem dataFrame_grown {l body q x} (h : Grown old s) : Grown old (dataFrame l body q x s) := by
  unfold dataFrame
  extract_lets _ t
  have ht : Grown old t := grown_ite h (bump_grown h)
  split
  · exact newFrame_grown (setLink_grown h)
  · exact putFrame_grown (setLink_grown ht)

theorem sendLinkFrame_grown {l body} (h : Grown old s) : Grown old (sendLinkFrame l body s) := by
  unfold sendLinkFrame
  extract_lets
  split
  · exact grown_ite (putFrame_grown h) (putFrame_grown (setLink_grown h))
  · split
    · exact putFrame_grown h
    · split
      · exact newFrame_grown (setLink_grown h)
      · exact dataFrame_grown h
      · exact putFrame_grown h

theorem frameBoundary_grown {l} (h : Grown old s) : Grown old (frameBoundary l s) := by
  unfold frameBoundary
  extract_lets named t u k bs v
  have ht : Grown old t := closeFrame_grown h
  have hu : Grown old u := by
    unfold u
    clear_value named
    cases named with
    | none => exact ht
    | some m => exact takeWidth_grown ht
  exact sendLinkFrame_grown (setLink_grown hu)

theorem linkSlot_grown {l} (h : Grown old s) : Grown old (linkSlot l s) := by
  unfold linkSlot
  split
  · exact h
  · extract_lets t
    have ht : Grown old t := grown_ite (frameBoundary_grown h) h
    split
    · exact grown_ite (bump_grown ht) ht
    · exact ht

/-! ### Power, reset and start-up (chapter 21) -/

/-- A reset keeps every fuse (R716). -/
theorem resetAll_grown (h : Grown old s) : Grown old (resetAll s) := h

theorem execPowerGood_grown {x} (h : Grown old s) : OutGrown old (execPowerGood x s) := by
  unfold execPowerGood
  split
  · exact h
  · exact bootRun_grown h

theorem retireRecorded_grown (h : Grown old s) : Grown old (retireRecorded s) := grown_foldl (fun _ _ hs => grown_frame hs) h

theorem execLarderPhaseEnd_grown (h : Grown old s) : OutGrown old (execLarderPhaseEnd s) := by
  unfold execLarderPhaseEnd
  split
  · exact h
  · extract_lets _ _ t t1
    have ht1 : Grown old t1 := retireRecorded_grown h
    exact grown_frame ht1

theorem execReadyTimeout_grown (h : Grown old s) : OutGrown old (execReadyTimeout s) := by
  unfold execReadyTimeout
  split
  · exact h
  · exact raiseEv_grown h

theorem execPowerCap_grown {d} (h : Grown old s) : OutGrown old (execPowerCap d s) := by
  unfold execPowerCap
  refine withDesc_grown (fun _ u hs => ?_) h
  extract_lets t
  have ht : Grown old t := addWaits_grown hs
  exact ht

theorem takeCaps_grown (h : Grown old s) : PairGrown old (takeCaps s) := by
  unfold takeCaps
  split
  · exact h
  · exact grown_foldl (fun _ _ hs => complete_grown hs) h

theorem capStep_grown {p} (h : Grown old s) : Grown old (capStep p s) := grown_ite h (grown_ite h (grown_ite h (grown_ite h h)))

theorem lagStep_grown {p} (h : Grown old s) : Grown old (lagStep p s) := by
  unfold lagStep
  extract_lets _ _ _ t
  have ht : Grown old t := grown_ite (raiseEv_grown (bumpModule_grown (grown_power h))) h
  exact grown_power ht

theorem alarmStep_grown (h : Grown old s) : Grown old (alarmStep s) :=
  grown_ite h (grown_ite h (raiseEv_grown (bumpModule_grown h)))

theorem thetaStep_grown {j} (h : Grown old s) : Grown old (thetaStep j s) := grown_ite (raiseEv_grown h) h

theorem execPowerMeasure_grown {watts junction} (h : Grown old s) : OutGrown old (execPowerMeasure watts junction s) := by
  unfold execPowerMeasure
  split
  · exact h
  · split
    next u hu =>
      have hu := grown_of_eq (takeCaps_grown (setPhase_grown (grown_power h))) hu
      exact grown_foldl (fun _ _ hs => complete_grown hs)
        (thetaStep_grown (alarmStep_grown (capStep_grown (lagStep_grown hu))))

theorem applyLevers_grown (h : Grown old s) : Grown old (applyLevers s) := h

/-! ### Coats (chapter 08) -/

theorem reown_grown (h : Grown old s) : Grown old (reown s) := h
theorem modStaging_grown {f} (h : Grown old s) : Grown old (modStaging f s) := h

theorem loadFail_grown {d st} (h : Grown old s) : Grown old (loadFail d st s) := by
  unfold loadFail
  extract_lets t _ t1
  have ht : Grown old t := modStaging_grown h
  have ht1 : Grown old t1 := by
    unfold t1
    split
    · exact grown_ite ht ht
    · exact ht
  exact complete_grown ht1

theorem coatGot_grown {d st bs} (h : Grown old s) : Grown old (coatGot d st bs s) :=
  grown_ite (verifyLater_grown h) (loadFail_grown h)

theorem coatVerified_grown {d ok bs} (h : Grown old s) : Grown old (coatVerified d ok bs s) := by
  unfold coatVerified
  split
  · split
    · exact h
    · split
      · exact loadFail_grown h
      · split
        · exact loadFail_grown h
        · exact grown_ite (loadFail_grown h) (grown_ite (loadFail_grown h) (modStaging_grown h))
  · exact h

theorem loadDone_grown {l} (h : Grown old s) : Grown old (loadDone l s) := complete_grown (modStaging_grown h)

theorem takeFrames_grown {base} (h : Grown old s) : PairGrown old (takeFrames base s) := by
  unfold takeFrames
  split
  · exact h
  · refine List.foldlRecOn (motive := PairGrown old) _ _ h (fun r hr _ _ => ?_)
    split
    · exact hr
    · exact grown_frame (s := r.2) hr

theorem writeLoad_grown {l left} (h : Grown old s) : PairGrown old (writeLoad l left s) := by
  unfold writeLoad
  split
  · exact h
  · split
    · exact h
    · split
      · exact loadFail_grown h
      · extract_lets _ _ t
        have ht : Grown old t := modStaging_grown h
        split
        · exact bumpModule_grown (modStaging_grown ht)
        · split
          next u hu =>
            have hu := grown_of_eq (takeFrames_grown ht) hu
            exact grown_ite (loadDone_grown (modStaging_grown hu)) (modStaging_grown hu)

theorem execCoatStagingWrite_grown (h : Grown old s) : OutGrown old (execCoatStagingWrite s) := by
  unfold execCoatStagingWrite
  split
  · exact h
  · split
    · exact h
    · exact List.foldlRecOn (motive := PairGrown old) _ _ (modStaging_grown (setPhase_grown h))
        (fun _ hr _ _ => writeLoad_grown hr)

theorem execFrameFillDone_grown {frame} (h : Grown old s) : OutGrown old (execFrameFillDone frame s) := by
  unfold execFrameFillDone
  extract_lets _ _ t t1
  have ht : Grown old t := zeroFrame_grown h
  have ht1 : Grown old t1 := modStaging_grown ht
  split
  · exact h
  · split
    · exact ht
    · exact grown_foldl (fun _ _ hs => loadDone_grown hs) ht1

theorem execCoatSwitch_grown {d} (h : Grown old s) : OutGrown old (execCoatSwitch d s) := by
  unfold execCoatSwitch
  refine withDesc_grown (fun _ u hs => ?_) h
  split
  · split
    · exact complete_grown hs
    · extract_lets t
      have ht : Grown old t := addWaits_grown hs
      exact ht
  · exact complete_grown hs

theorem switchNow_grown {g} (h : Grown old s) : Grown old (switchNow g s) := grown_foldl (fun _ _ hs => complete_grown hs) h

theorem switchMiss_grown {w} (h : Grown old s) : Grown old (switchMiss w s) := by
  unfold switchMiss
  split
  · exact grown_ite (complete_grown h) (bumpModule_grown h)
  · exact h

theorem execCoatSwitchApply_grown (h : Grown old s) : OutGrown old (execCoatSwitchApply s) := by
  unfold execCoatSwitchApply
  split
  · exact h
  · extract_lets _ _ t _ t1
    have ht : Grown old t := setPhase_grown h
    have ht1 : Grown old t1 := grown_foldl (fun _ _ hs => switchMiss_grown hs) ht
    split
    · exact h
    · exact grown_foldl (fun _ _ hs => complete_grown hs) (setPhase_grown h)
    · split
      · exact ht1
      · split
        · exact grown_foldl (fun _ _ hs => switchMiss_grown hs) ht1
        · split
          · exact grown_foldl (fun _ _ hs => complete_grown hs) ht1
          · exact switchNow_grown ht1

theorem execUndercoatRetire_grown (h : Grown old s) : OutGrown old (execUndercoatRetire s) := by
  unfold execUndercoatRetire
  split
  · exact h
  · split
    · exact h
    · exact reown_grown (setPhase_grown h)

theorem execOrderedHoldRelease_grown (h : Grown old s) : OutGrown old (execOrderedHoldRelease s) := by
  unfold execOrderedHoldRelease
  split
  · exact h
  · exact h

theorem execCoatAbort_grown {d} (h : Grown old s) : OutGrown old (execCoatAbort d s) := by
  unfold execCoatAbort
  refine withDesc_grown (fun _ u hs0 => ?_) h
  split
  · exact complete_grown hs0
  · exact complete_grown (reown_grown (grown_foldl (fun _ _ hs => complete_grown hs) hs0))

theorem execMcOutcomeRecordTimeout_grown {src tag} (h : Grown old s) : OutGrown old (execMcOutcomeRecordTimeout src tag s) := by
  unfold execMcOutcomeRecordTimeout
  split
  · exact h
  · split
    · exact h
    · exact closeRecord_grown h

/-! ### Function instances (chapter 03) -/

theorem groupReserve_grown {g} (h : Grown old s) : Grown old (groupReserve g s) := by
  unfold groupReserve
  extract_lets _ t
  have ht : Grown old t := setGroup_grown h
  exact grown_ite ht h

theorem zeroPut_grown {off was} (h : Grown old s) : Grown old (zeroPut off was s) := (zeroPut_enz ..).grown h

theorem startHook_grown {f want} (h : Grown old s) : Grown old (startHook f want s) := by
  unfold startHook
  split
  · exact relight_grown h
  · exact putSqCons_grown (setSq_grown h)
  · exact zeroPut_grown (setCq_grown h)
  · exact zeroPut_grown h
  · exact groupReserve_grown (setGroup_grown (bindPage_grown h))
  · exact streamFresh_grown h
  · exact kernelStarting_grown h
  · exact qpStarting_grown h

theorem onHook_grown {f} (h : Grown old s) : Grown old (onHook f s) := by
  unfold onHook
  split
  · exact streamOn_grown h
  · exact h

theorem cancelFetched_grown {i st} (h : Grown old s) : Grown old (cancelFetched i st s) := (cancelFetched_host ..).grown h
theorem failNow_grown {l cause} (h : Grown old s) : Grown old (failNow l cause s) := modLink_grown h

theorem portStopping_grown {l} (h : Grown old s) : Grown old (portStopping l s) :=
  grown_ite (failNow_grown h) (relight_grown (setLink_grown h))

theorem stopHook_grown {f st} (h : Grown old s) : Grown old (stopHook f st s) := by
  unfold stopHook
  split
  · split
    · exact relight_grown (ethPortDown_grown h)
    · exact portStopping_grown h
  · exact cancelFetched_grown h
  · exact streamStop_grown h
  · exact kernelStopping_grown h
  · exact qpCancel_grown h
  · exact h

theorem offHook_grown {f} (h : Grown old s) : Grown old (offHook f s) := by
  unfold offHook
  split
  · exact consumerPut_grown (setSq_grown (auditRing_grown h))
  · exact relight_grown h
  · exact setGroup_grown h
  · exact streamRelease_grown h
  · exact kernelOff_grown h
  · exact h

theorem fnStart_grown {f want waits} (h : Grown old s) : Grown old (fnStart f want waits s) := startHook_grown (setFn_grown h)
theorem fnStop_grown {f st} (h : Grown old s) : Grown old (fnStop f st s) := stopHook_grown (setFn_grown h)

theorem fnEnable_grown {f d want} (h : Grown old s) : Grown old (fnEnable f d want s) := by
  unfold fnEnable
  extract_lets
  split
  · split
    · exact grown_foldl (fun _ _ hs => addWaits_grown hs) (setFn_grown h)
    · split
      · exact completeAll_grown h
      · exact grown_foldl (fun _ _ hs => addWaits_grown hs) (fnStart_grown h)
  · exact completeAll_grown h
  · exact completeAll_grown h
  · exact grown_foldl (fun _ _ hs => addWaits_grown hs) (setFn_grown h)

theorem fnDisable_grown {f d} (h : Grown old s) : Grown old (fnDisable f d s) := by
  unfold fnDisable
  extract_lets
  split
  · exact completeAll_grown h
  · exact grown_foldl (fun _ _ hs => addWaits_grown hs) (setFn_grown h)
  · exact fnStop_grown (grown_foldl (fun _ _ hs => addWaits_grown hs) (setFn_grown h))
  · exact completeAll_grown (grown_foldl (fun _ _ hs => addWaits_grown hs) (setFn_grown h))

theorem functionOn_grown {f} (h : Grown old s) : Grown old (functionOn f s) := by
  unfold functionOn
  extract_lets _ _ t t1 t2
  have ht : Grown old t := setFn_grown h
  have ht1 : Grown old t1 := completeAll_grown ht
  have ht2 : Grown old t2 := grown_ite (onHook_grown ht1) ht1
  split
  · exact h
  · split
    · exact fnStop_grown h
    · split
      · split
        · exact groupReserve_grown (setFn_grown h)
        · exact h
      · exact grown_ite (fnStop_grown ht2) ht2

theorem hostResetAck_grown (h : Grown old s) : Grown old (hostResetAck s) := (hostResetAck_enz ..).grown h

theorem pendStart_grown {f} (h : Grown old s) : Grown old (pendStart f s) := by
  unfold pendStart
  extract_lets
  split
  · exact completeAll_grown (setFn_grown h)
  · exact fnStart_grown h

theorem functionOff_grown {f} (h : Grown old s) : Grown old (functionOff f s) := by
  unfold functionOff
  extract_lets _ t
  have ht : Grown old t := setFn_grown h
  split
  · exact h
  · split
    · exact grown_ite (hostResetAck_grown (completeAll_grown (offHook_grown ht))) h
    · exact grown_ite (pendStart_grown h) h
    · exact h

theorem ringDesc_grown {d f body} (hb : ∀ a s, Grown old s → Grown old (body a s)) (h : Grown old s) :
    Grown old (ringDesc d f s body) := by
  unfold ringDesc
  split
  · exact complete_grown h
  · exact grown_ite (complete_grown (modFlight_grown h)) (grown_ite (complete_grown (modFlight_grown h)) (hb _ _
    (modFlight_grown h)))

theorem groupEnable_grown {d f} (h : Grown old s) : Grown old (groupEnable d f s) := by
  unfold groupEnable
  split
  · exact complete_grown h
  · exact grown_ite (completeGen_grown h) (withGroup_grown (fun _ _ hs => grown_ite (fnEnable_grown hs) (grown_ite
    (complete_grown hs) (grown_ite (complete_grown hs) (fnEnable_grown hs)))) h)

theorem enableDesc_grown {x d} (h : Grown old s) : Grown old (enableDesc x d s) := grown_ite (complete_grown h) (fnEnable_grown h)

theorem execStreamEnable_grown {d} (h : Grown old s) : OutGrown old (execStreamEnable d s) := by
  unfold execStreamEnable
  refine withDesc_grown (fun _ u hs0 => ?_) h
  split
  · exact grown_ite (withStream_grown (fun _ _ hs => complete_grown hs) hs0) (withStream_grown
    (fun _ _ hs => enableDesc_grown hs) hs0)
  · exact complete_grown hs0

theorem execHostReset_grown (h : Grown old s) : OutGrown old (execHostReset s) := by
  unfold execHostReset
  extract_lets _ t _ _ t1
  have ht : Grown old t := takeInbox_grown h
  exact hostResetAck_grown (grown_foldl (fun _ _ hs => fnDisable_grown hs) ht)

theorem lockStop_grown {f} (h : Grown old s) : Grown old (lockStop s f) := by
  unfold lockStop
  extract_lets _ t t1
  have ht : Grown old t := completeAll_grown (setFn_grown h)
  have ht1 : Grown old t1 := grown_ite ht (fnStop_grown ht)
  split
  · exact grown_foldl (fun _ _ hs => failOp_grown hs) ht1
  · exact grown_foldl (fun _ _ hs => endAll_grown hs) ht1
  · refine grown_foldl (fun u _ hs2 => ?_) ht1
    split
    · exact fault_grown hs2
    · exact settleRun_grown (modWorkRun_grown hs2)
  · exact grown_foldl (fun _ _ hs => gwEnd_grown hs) ht1
  · exact ht1

theorem lockDesc_grown (h : Grown old s) : Grown old (lockDesc s) := (lockDesc_host ..).grown h

theorem lockdownEnter_grown (h : Grown old s) : Grown old (lockdownEnter s) := by
  unfold lockdownEnter
  split
  · exact h
  · exact grown_ite h (lockErase_grown (lockDesc_grown (grown_foldl (fun _ _ hs => lockStop_grown hs) (grown_foldl
    (fun _ _ hs => failNow_grown hs) h))))

/-! ### Registers and bundles (chapter 24) -/

theorem regAnswer_grown {r st v} (h : Grown old s) : Grown old (regAnswer r st v s) := sendFrame_grown h

theorem regServe_grown {r} (h : Grown old s) : Grown old (regServe s r) := by
  unfold regServe
  split
  · exact regAnswer_grown h
  · exact regAnswer_grown h

theorem regRd_grown {addr wide tag} (h : Grown old s) : Grown old (regRd addr wide tag s) :=
  grown_ite (regAnswer_grown (regError_grown h)) (grown_ite (regServe_grown h) h)

theorem ctrlWrite_grown {f a cause act} (h : Grown old s) : Grown old (ctrlWrite f a cause act s) :=
  grown_ite (regError_grown h) (grown_ite (fnEnable_grown h) (grown_ite (fnDisable_grown h) h))

theorem regAction_grown {r a cause act act0 nodeChanged} (h : Grown old s) :
    Grown old (regAction r a cause act act0 nodeChanged s) := by
  unfold regAction
  split
  · exact grown_ite h h
  · exact ctrlWrite_grown h
  · exact ctrlWrite_grown h
  · exact grown_ite (setFallback_grown h) h
  · exact grown_ite (goRetire_grown (grown_ite h h)) (grown_ite h h)
  · exact grown_ite (clearFailed_grown h) h
  · exact laserEnable_grown h
  · exact relight_grown h
  · exact grown_ite (swapRequest_grown (grown_ite (setTm_grown h) h)) (grown_ite (setTm_grown h) h)
  · exact grown_ite (seedAll_grown h) h
  · exact h

theorem storeWord_grown {r w off was new} (h : Grown old s) : Grown old (storeWord r w off was new s) := by
  unfold storeWord
  extract_lets
  split
  · exact setReg_grown h
  · split
    next u hu =>
      have hu := grown_of_eq (takeFree_grown h) hu
      exact setReg_grown hu

theorem storeWords_grown {r off w os ns} (h : Grown old s) : Grown old (storeWords r off w os ns s) := by
  induction os generalizing w ns s with
  | nil => exact h
  | cons o os ih =>
    cases ns with
    | nil => exact h
    | cons n ns => exact ih (storeWord_grown h)

theorem commitWrite_grown {bundle r a v m} (h : Grown old s) : Grown old (commitWrite bundle r a v m s) :=
  grown_ite (regError_grown h) (grown_ite (regError_grown (regAction_grown (storeWords_grown h))) (regAction_grown
    (storeWords_grown h)))

theorem applyWrite_grown {bundle a wide val} (h : Grown old s) : Grown old (applyWrite bundle a wide val s) := by
  unfold applyWrite
  split
  · exact regError_grown h
  · split
    · split
      · exact h
      · exact grown_ite h (grown_ite h (commitWrite_grown h))

theorem regWr_grown {addr wide val} (h : Grown old s) : Grown old (regWr addr wide val s) :=
  grown_ite (regError_grown (takeInbox_grown h)) (grown_ite (grown_frame (takeInbox_grown h)) (grown_frame
    (takeInbox_grown h)))

theorem applyDue_grown (h : Grown old s) : Grown old (applyDue s) := by
  unfold applyDue
  extract_lets _ _ t t1
  have ht1 : Grown old t1 := grown_foldl (fun _ _ hs => applyWrite_grown hs) h
  exact grown_foldl (fun _ _ hs => regServe_grown hs) ht1

theorem applyRecordOf_grown {r} (h : Grown old s) : Grown old (applyRecordOf s r) :=
  grown_ite (regError_grown h) (applyWrite_grown h)

theorem bundleApply_grown (h : Grown old s) : Grown old (bundleApply s) := by
  unfold bundleApply
  split
  · exact h
  · exact grown_ite h (applyDue_grown (grown_frame (releaseWrites_grown (grown_frame (grown_foldl
    (fun _ _ hs => applyRecordOf_grown hs) h)))))

theorem eqAccept_grown {bs} (h : Grown old s) : Grown old (eqAccept bs s) := h

theorem verified_grown {u ok bs} (h : Grown old s) : Grown old (verified u ok bs s) := by
  unfold verified
  split
  · exact coatVerified_grown h
  · exact fwVerified_grown h
  · exact sessionDone_grown h
  · exact grown_ite h (releaseWrites_grown h)
  · exact grown_foldl (fun _ _ hs => relight_grown hs) (grown_ite (eqAccept_grown h) h)

theorem verifyDone_grown (h : Grown old s) : Grown old (verifyDone s) := by
  unfold verifyDone
  split
  · exact h
  · split
    · exact h
    · extract_lets _ t
      split
      · exact verified_grown (envRefuse_grown h)
      · exact verified_grown h

/-! ### Steps 7, 8 and 10 of a boundary (Table 2-6) -/

theorem innerStep_grown {n} (h : Grown old s) : Grown old (innerStep s n) :=
  grown_ite (refillQps_grown (refillStreams_grown (refillAll_grown h))) (grown_ite (gateStep_grown h)
    (doorbellPoll_grown h))

theorem runInner_grown {n} (h : Grown old s) : Grown old (runInner n s) := grown_foldl (fun _ _ hs => innerStep_grown hs) h
theorem settled_grown (h : Grown old s) : Grown old (settled s) := runInner_grown h
theorem closeBoundary_grown (h : Grown old s) : Grown old (closeBoundary s) := grown_ite (setPhase_grown (settled_grown h)) h
theorem roceArrives_grown {op m} (h : Grown old s) : OutGrown old (roceArrives op m s) := roceIn_grown (settled_grown h)

end Machine
end Sys2Proof
end

section
/-!
PROOF. No command clears a fuse (R669, R670, R716), part seven: the rows of the core and of the host, the boundary, and every command.
-/
namespace Sys2Proof
namespace Machine
set_option Elab.async false

variable {s t : State} {old : Fuses}

/-! ### The rows of the core (chapter 07) -/

theorem portSlot_grown {l} (h : Grown old s) : Grown old (portSlot s l) := by
  unfold portSlot
  split
  · exact ethCount_grown h
  · exact linkSlot_grown (countStalls_grown h)

theorem slotFaults_grown (h : Grown old s) : PairGrown old (slotFaults s) := by
  unfold slotFaults
  split
  next u hu =>
    have hu := grown_of_eq (takeFree_grown h) hu
    split
    next v hv =>
      have hv := grown_of_eq (takeFree_grown hu) hv
      split
      next w hw =>
        have hw := grown_of_eq (takeFree_grown hv) hw
        split
        next u1 hu1 =>
          have hu1 := grown_of_eq (takeFree_grown hw) hu1
          exact hu1

theorem coreSlot_grown (h : Grown old s) : Grown old (coreSlot s) := by
  unfold coreSlot
  split
  · exact h
  · split
    next u hu =>
      have hu := grown_of_eq (slotFaults_grown h) hu
      exact grown_tick (grown_foldl (fun _ _ hs => portSlot_grown hs) (sampleDepths_grown (hawkRelease_grown
        (hawkReturn_grown (hawkServe_grown (hawkLand_grown (coreCross_grown (collRetry_grown (settled_grown hu)))))))))

theorem addResults_grown {o c m ps} (h : Grown old s) : Grown old (addResults o c m ps s) := by
  induction ps generalizing s with
  | nil => exact h
  | cons y ys ih =>
    unfold addResults
    exact ih (modOut_grown h)

theorem arriveResult_grown {o c m} (h : Grown old s) : Grown old (arriveResult o c m s) :=
  grown_ite (countLeft_grown (freeReplicas_grown (resultBad_grown h))) (grown_ite (countLeft_grown
    (freeReplicas_grown h)) (addResults_grown h))

theorem dropBad_grown {o} (h : Grown old s) : Grown old (dropBad o s) := grown_foldl (fun _ _ hs => discardAt_grown hs) h

theorem cellArrive_grown {o} (h : Grown old s) : Grown old (cellArrive o s) := by
  unfold cellArrive
  split
  · exact h
  · extract_lets t t1
    have ht : Grown old t := modOut_grown h
    have ht1 : Grown old t1 := by
      unfold t1
      split
      · exact arriveUnicast_grown ht
      · exact arriveMcast_grown ht
      · exact arriveResult_grown ht
      · exact countLeft_grown ht
    exact streamLosses_grown (forgetDead_grown (dropBad_grown ht1))

theorem freePkt_grown {o q} (h : Grown old s) : Grown old (freePkt o q s) :=
  grown_ite (countLeft_grown (modOut_grown h)) (grown_ite (freeCredits_grown (countLeft_grown (modOut_grown h)))
    (freeReplicas_grown (countLeft_grown (modOut_grown h))))

theorem passInternal_grown {o q} (h : Grown old s) : Grown old (passInternal o q s) :=
  grown_ite (mcCount_grown (freePkt_grown h)) (grown_ite (grown_frame (grown_ite (mcCount_grown (freePkt_grown h))
    (freePkt_grown h))) (grown_frame (grown_ite (mcCount_grown (freePkt_grown h)) (freePkt_grown h))))

theorem enterQueue_grown {o q} (h : Grown old s) : Grown old (enterQueue o q s) :=
  grown_ite (congest_grown (modOut_grown (grown_ite (bumpPort_grown h) h))) (modOut_grown (grown_ite
    (bumpPort_grown h) h))

theorem enterPieces_grown {o q ps} (h : Grown old s) : Grown old (enterPieces o q ps s) := by
  induction ps generalizing s with
  | nil => exact h
  | cons p ps ih =>
    cases ps with
    | nil => exact enterQueue_grown h
    | cons => exact ih (enterQueue_grown (grown_frame h))

theorem passChunk_grown {o q k pass seg c} (h : Grown old s) : Grown old (passChunk o q k pass seg c s) := by
  unfold passChunk
  split
  · exact endAll_grown (freePkt_grown h)
  · exact freePkt_grown h
  · exact enterPieces_grown (countX_grown h)

theorem passLink_grown {o l q} (h : Grown old s) : Grown old (passLink o l q s) := by
  unfold passLink
  split
  · exact passChunk_grown h
  · exact grown_ite (discardAt_grown h) (enterPieces_grown h)

theorem toQueue_grown {o} (h : Grown old s) : Grown old (toQueue o s) := by
  unfold toQueue
  split
  · exact h
  · split
    · exact passInternal_grown h
    · split
      · exact passLink_grown h
      · exact h

theorem execPacketStart_grown {l} (h : Grown old s) : OutGrown old (execPacketStart l s) := by
  unfold execPacketStart
  split
  · exact ethStart_grown (settled_grown h)
  · exact packetStart_grown (settled_grown h)

theorem delivered_grown {o q} (h : Grown old s) : Grown old (delivered o q s) := by
  unfold delivered
  split
  · exact collDelivered_grown h
  · exact chunkDelivered_grown h
  · exact grown_ite (mcCount_grown h) h

theorem lastByte_grown {l} (h : Grown old s) : Grown old (lastByte l s) := by
  unfold lastByte
  extract_lets
  split
  · exact h
  · split
    · exact setLink_grown h
    · exact grown_ite h (grown_ite (freePkt_grown (setLink_grown (grown_ite (bumpPort_grown h) h))) (delivered_grown
      (freePkt_grown (setLink_grown (grown_ite (bumpPort_grown h) h)))))

theorem execLastByteLeaves_grown {l} (h : Grown old s) : OutGrown old (execLastByteLeaves l s) := by
  unfold execLastByteLeaves
  split
  · exact ethLast_grown h
  · exact lastByte_grown h

/-! ### What comes from the host (chapter 04) -/

theorem takeDesc_grown {i k bs} (h : Grown old s) : Grown old (takeDesc i k bs s) := by
  unfold takeDesc
  extract_lets _ _ t
  split
  · exact complete_grown h
  · exact h

theorem failDesc_grown {i k st} (h : Grown old s) : Grown old (failDesc i k st s) := by
  unfold failDesc
  split
  next u hu =>
    have hu := grown_of_eq (takeFree_grown h) hu
    exact complete_grown hu

theorem fetchDone_grown {i k n st bs} (h : Grown old s) : Grown old (fetchDone i k n st bs s) :=
  grown_foldl (fun _ _ hs => grown_ite (takeDesc_grown hs) (failDesc_grown hs)) (grown_ite (bump_grown
    (putSqCons_grown h)) (putSqCons_grown h))

theorem objectGot_grown {d st a bs} (h : Grown old s) : Grown old (objectGot d st a bs s) := by
  unfold objectGot
  split
  · exact h
  · split
    · exact fwGot_grown h
    · exact grown_ite (dmGot_grown h) (dmFail_grown h)
    · exact grown_ite (dmGot_grown h) (dmFail_grown h)
    · exact templateGot_grown h
    · exact programGot_grown h
    · exact argsGot_grown h
    · exact pagesGot_grown h
    · exact coatGot_grown h
    · exact qpGot_grown h
    · exact sessionGot_grown h
    · exact provisionGot_grown h
    · exact h

theorem pageGot_grown {st bs} (h : Grown old s) : Grown old (pageGot st bs s) := grown_ite h h

theorem useDone_grown {u rs} (h : Grown old s) : Grown old (useDone u rs s) := by
  unfold useDone
  extract_lets
  split
  · exact pageGot_grown h
  · exact fetchDone_grown h
  · exact objectGot_grown h
  · exact codeGot_grown h

theorem settleUse_grown {u} (h : Grown old s) : Grown old (settleUse u s) :=
  grown_ite (issueReads_grown h) (issueReads_grown (useDone_grown h))

theorem hostBad_grown {r} (h : Grown old s) : Grown old (hostBad r s) := raiseEv_grown h

theorem memRdData_grown {f} (h : Grown old s) : Grown old (memRdData f s) := by
  unfold memRdData
  extract_lets t
  have ht : Grown old t := takeInbox_grown h
  split
  · exact ht
  · split
    · exact ht
    · exact grown_ite (settleUse_grown (grown_ite (hostBad_grown ht) ht)) ht

theorem takeFrame_grown {f} (h : Grown old s) : Grown old (takeFrame s f) := by
  unfold takeFrame
  split
  · exact regRd_grown h
  · exact grown_ite h h
  · exact h
  · exact h
  · exact h
  · exact grown_ite h h

theorem flitAck_grown {flit} (h : Grown old s) : Grown old (flitAck flit s) :=
  grown_ite (enzReplay_grown (grown_frame (grown_ite (enzAck_grown h) h))) (grown_ite (enzAck_grown h) h)

theorem enzenFlit_grown {flit} (h : Grown old s) : Grown old (enzenFlit flit s) := by
  unfold enzenFlit
  extract_lets _ t r
  have ht : Grown old t := flitAck_grown (grown_frame h)
  exact grown_ite h (grown_ite (grown_frame h) (grown_ite h
    (grown_foldl (fun _ _ hs => takeFrame_grown hs) (grown_frame ht))))

/-! ### The tick boundary (chapter 02) -/

theorem ageStep_grown (h : Grown old s) : Grown old (ageStep s) := grown_ite h (grown_ite h h)

theorem retryPacket_grown {x} (h : Grown old s) : Grown old (retryPacket s x) := by
  unfold retryPacket
  split
  · exact arriveEnter_grown (modPart_grown h)

theorem retryWaiting_grown (h : Grown old s) : Grown old (retryWaiting s) := grown_foldl (fun _ _ hs => retryPacket_grown hs) h
theorem nodeStep_grown (h : Grown old s) : Grown old (nodeStep s) := grown_ite h (nodeCheck_grown h)
theorem grown_tickCounts {a b c} (h : Grown old s) : Grown old { s with larder.served := a, hawk := b, lanes := c } := h
theorem freshTick_grown (h : Grown old s) : Grown old (freshTick s) := grown_tickCounts (returnEnding_grown h)

theorem boundaryStart_grown {n} (h : Grown old s) : Grown old (boundaryStart n s) := by
  unfold boundaryStart
  extract_lets t u v
  have ht : Grown old t := upstreamStep_grown (ageStep_grown (applyDue_grown (advanceTick_grown h)))
  have hu : Grown old u := grown_ite (elect_grown ht) ht
  have hv : Grown old v := sendMarkers_grown hu
  exact telemBoundary_grown (snapshot_grown (grown_power hv))

theorem boundaryAdmin_grown (h : Grown old s) : Grown old (boundaryAdmin s) :=
  seqBoundary_grown (pldmEvent_grown (applyLevers_grown (atticBoundary_grown (applyOffers_grown h))))

theorem tickBoundary_grown (h : Grown old s) : Grown old (tickBoundary s) := by
  unfold tickBoundary
  split
  · exact h
  · exact retryWaiting_grown (freshTick_grown (grown_tick (boundaryAdmin_grown (nodeStep_grown
      (boundaryStart_grown (settled_grown h))))))

/-! ### Every command, and every step -/

theorem execArrayZeroDone_grown {a} (h : Grown old s) : OutGrown old (execArrayZeroDone a s) := grown_ite h h

/-- The floor rises to what a descriptor names, at most 64 (Table 19-9). -/
theorem raiseFloor_grown {n : Nat} (h : Grown old s) (hn : n ≤ 64) :
    Grown old { s with strong.floor := BitVec.ofNat 8 (max s.strong.floor.toNat n) } := by
  have hb : s.strong.floor.toNat ≤ 64 := h.bound
  have hmax : (BitVec.ofNat 8 (max s.strong.floor.toNat n)).toNat = max s.strong.floor.toNat n := by
    rw [BitVec.toNat_ofNat, Nat.mod_eq_of_lt (by omega)]
  exact ⟨h.blown, h.revoked, (Nat.le_trans h.floor (Nat.le_max_left ..)).trans_eq hmax.symm, hmax.trans_le (max_le hb hn), h.erase, h.armed,
    h.alarms, h.provisions⟩

theorem execSecFloorRaise_grown {d} (h : Grown old s) : OutGrown old (execSecFloorRaise d s) := by
  refine withDesc_grown (fun _ u hu => ?_) h
  dsimp only
  split
  · exact complete_grown hu
  next hn =>
    simp only [Bool.or_eq_true, decide_eq_true_eq, not_or, Nat.not_lt] at hn
    exact complete_grown (raiseFloor_grown hu hn.2)

/-- What any command answers clears no fuse (R669, R670, R716). -/
theorem exec_grown (h : Grown old s) : ∀ c : Instr, OutGrown old (exec c s)
  | .tickBoundary => tickBoundary_grown h
  | .tickMarkerReceive _ _ _ => execTickMarkerReceive_grown h
  | .announceReceive _ _ => execAnnounceReceive_grown h
  | .masterAnnounceTimeout => execMasterAnnounceTimeout_grown h
  | .lockDeclared | .lockLost | .tickInEdge _ | .setNumericEffecterValue _ _ | .brakeAssert | .readyAssert | .extest _ =>
      grown_ite h h
  | .tickLoss => execTickLoss_grown h
  | .tickStep => execTickStep_grown h
  | .tickInMissed => execTickInMissed_grown h
  | .startupMastership => execStartupMastership_grown h
  | .descriptorAudit => grown_ite (grown_foldl (fun _ _ hs => auditRing_grown hs) h) h
  | .functionOn _ => functionOn_grown h
  | .functionOff _ => functionOff_grown h
  | .enzenFlitReceive _ => enzenFlit_grown h
  | .enzenReplayTimeout => grown_ite (enzReplay_grown h) h
  | .enzenSignalDetected => grown_ite (enzEnter_grown h) h
  | .enzenFecLockHeld => execEnzenFecLockHeld_grown h
  | .enzenBringupTimeout => execEnzenBringupTimeout_grown h
  | .enzenFecLockLost | .enzenNakLimit => grown_ite (enzEnter_grown (bumpModule_grown h)) h
  | .linkCtlCap _ => grown_ite (enzNegoDone_grown (sendNow_grown (grown_frame (takeInbox_grown h)))) (takeInbox_grown h)
  | .linkCtlCapAck => grown_ite (enzNegoDone_grown (grown_frame (takeInbox_grown h))) (takeInbox_grown h)
  | .linkCtlCapRetry => grown_ite (sendHostCap_grown h) h
  | .levelReq _ => execLevelReq_grown h
  | .hostReset => execHostReset_grown h
  | .memRdData _ => memRdData_grown h
  | .regWr _ _ _ => regWr_grown h
  | .configBundleApply => bundleApply_grown h
  | .doorbellPageApply => doorbellApply_grown (runInner_grown h)
  | .descriptorFenceRelease _ => execDescriptorFenceRelease_grown h
  | .descriptorTimedStart _ => timedStart_grown (closeBoundary_grown h)
  | .reservedOpcode _ => execReservedOpcode_grown h
  | .interruptModerationTimeout _ => grown_ite (cqInterrupt_grown h) h
  | .nopDesc _ | .coatQuery _ | .exclClear _ | .secState _ => withDesc_grown (fun _ _ hs => complete_grown hs) h
  | .ringConfig _ => withDesc_grown (fun _ _ hs => ringConfig_grown hs) h
  | .ringEnable _ => withDesc_grown (fun _ _ hs => ringDesc_grown (fun _ _ hs => fnEnable_grown hs) hs) h
  | .ringDisable _ =>
      withDesc_grown (fun _ _ hs => ringDesc_grown (fun _ _ hs => grown_ite (complete_grown hs) (fnDisable_grown hs)) hs) h
  | .fabricPacketArrival _ _ => fabricArrival_grown (settled_grown h)
  | .rdReq _ | .wr _ | .atFadd64 _ | .atSwap64 _ | .atCas64 _ | .atCas128 _ | .atFaddFp32 _ | .atFaddBf16 _ =>
      grown_ite (memRequest_grown h) h
  | .launchPkt _ _ => grown_ite (launchArrive_grown h) h
  | .attnQuery _ _ => grown_ite (attnArrive_grown h) h
  | .collStart _ _ => takeStart_grown h
  | .collContrib _ _ => takeContrib_grown h
  | .collArrive _ _ => takeArrive_grown h
  | .collCounts _ _ => takeCounts_grown h
  | .landingCredit _ _ => landingCredit_grown h
  | .mgmtPkt _ => grown_ite (takeNotice_grown (takeDelivered_grown h)) h
  | .rdData _ => execRdData_grown h
  | .wrAck _ | .atData _ => withAnswer_grown (fun _ _ hs => endOwn_grown hs) h
  | .failPkt _ => grown_ite (sweepOwn_grown (takeDelivered_grown h)) (withAnswer_grown (fun _ _ hs => endOwn_grown hs) h)
  | .launchAck _ => execLaunchAck_grown h
  | .writeTrackingTimeout _ _ => execWriteTrackingTimeout_grown h
  | .responseTimeout _ => execResponseTimeout_grown h
  | .linkFrameReceive _ _ => linkFrame_grown h
  | .nakRepeatTimeout _ => execNakRepeatTimeout_grown h
  | .linkReplayTimeout _ => grown_ite (replayNow_grown h) h
  | .replayLimitRetrain _ => execReplayLimitRetrain_grown h
  | .linkFallback _ => execLinkFallback_grown h
  | .linkCap _ _ => execLinkCap_grown h
  | .linkCapTimeout _ => execLinkCapTimeout_grown h
  | .levelOffer _ _ => execLevelOffer_grown h
  | .creditAuditDue _ => execCreditAuditDue_grown h
  | .audit _ _ => execAudit_grown h
  | .auditResult _ _ => execAuditResult_grown h
  | .partitionFreeze _ => execPartitionFreeze_grown h
  | .resyncSend _ => execResyncSend_grown h
  | .resync _ _ => execResync_grown h
  | .partitionUnfreeze _ => execPartitionUnfreeze_grown h
  | .frozenPartitionTimeout _ _ => grown_ite (findFailure_grown h) h
  | .cellArriveOutput _ => cellArrive_grown h
  | .packetToEgressQueue _ => streamLosses_grown (toQueue_grown h)
  | .cellAgeSweep _ => streamLosses_grown (ageSweep_grown h)
  | .packetStart _ => execPacketStart_grown h
  | .poolAudit _ => execPoolAudit_grown h
  | .poolRebuildDone _ => execPoolRebuildDone_grown h
  | .linkFailureDeclare _ => execLinkFailureDeclare_grown h
  | .routeNoticeApply => grown_ite (nodesAfter_grown (grown_foldl (fun _ _ hs => applyNotice_grown hs) (setPhase_grown h))) h
  | .crossingWindowRoll _ => grown_ite (setLink_grown h) h
  | .coatLoad _ | .secSessionFinish _ =>
      withDesc_grown (fun _ _ hs => grown_ite (complete_grown hs) (hostRead_grown (addWaits_grown hs))) h
  | .coatSwitch _ => execCoatSwitch_grown h
  | .coatAbort _ => execCoatAbort_grown h
  | .envelopeVerifyDone => verifyDone_grown h
  | .coatStagingWrite => execCoatStagingWrite_grown h
  | .frameFillDone _ => execFrameFillDone_grown h
  | .coatSwitchApply => execCoatSwitchApply_grown h
  | .undercoatRetire => execUndercoatRetire_grown h
  | .orderedHoldRelease => execOrderedHoldRelease_grown h
  | .mcOutcomeRecordTimeout _ _ => execMcOutcomeRecordTimeout_grown h
  | .swapReq _ => swapRequest_grown h
  | .gateBankSwap _ => gateBankSwap_grown (runInner_grown h)
  | .dmCopy _ | .dmFill _ | .dmCrc _ => withDesc_grown (fun _ _ hs => dmStart_grown hs) h
  | .dmAtFadd64 _ | .dmAtSwap64 _ | .dmAtCas64 _ | .dmAtCas128 _ | .dmAtFaddFp32 _ | .dmAtFaddBf16 _ =>
      withDesc_grown (fun _ _ hs => dmAtomic_grown hs) h
  | .scrubRead _ _ _ => execScrubRead_grown h
  | .goReq _ => goRetire_grown h
  | .frameRetireCopyDone _ => execFrameRetireCopyDone_grown h
  | .groupEnable _ => withDesc_grown (fun _ _ hs => groupEnable_grown hs) h
  | .groupDisable _ => withDesc_grown (fun _ _ hs => withGroup_grown (fun _ _ hs => fnDisable_grown hs) hs) h
  | .templateSet _ => withDesc_grown (fun _ _ hs => templateSet_grown hs) h
  | .groupQuery _ => withDesc_grown (fun _ _ hs => withGroup_grown (fun _ _ hs => complete_grown hs) hs) h
  | .collSlotBind _ _ => execCollSlotBind_grown h
  | .collOpLimitExpired _ _ => execCollOpLimitExpired_grown h
  | .hawkGrantStep => hawkGrantStep_grown (runInner_grown h)
  | .grainAudit => execGrainAudit_grown h
  | .streamProgram _ => withDesc_grown (fun _ _ hs => streamProgram_grown hs) h
  | .streamEnable _ => execStreamEnable_grown h
  | .streamDisable _ => withDesc_grown (fun _ _ hs => withStream_grown (fun _ _ hs => fnDisable_grown hs) hs) h
  | .streamStart _ => withDesc_grown (fun _ _ hs => streamStart_grown hs) h
  | .streamQuery _ => withDesc_grown (fun _ _ hs => withStream_grown (fun _ _ hs => complete_grown hs) hs) h
  | .streamPassStart _ => passStart_grown h
  | .streamSegmentStart _ => segmentStart_grown h
  | .streamChunkRead _ => chunkRead_grown (settled_grown h)
  | .streamDeadline _ _ => execStreamDeadline_grown h
  | .streamRecordTimeout _ _ => execStreamRecordTimeout_grown h
  | .streamRepairStart _ _ => execStreamRepairStart_grown h
  | .kernelLoad _ => withDesc_grown (fun _ _ hs => kernelLoad_grown hs) h
  | .kernelEnable _ => withDesc_grown (fun _ _ hs => withKernel_grown (fun _ _ hs => enableDesc_grown hs) hs) h
  | .kernelDisable _ => withDesc_grown (fun _ _ hs => withKernel_grown (fun _ _ hs => fnDisable_grown hs) hs) h
  | .kernelRun _ => withDesc_grown (fun _ _ hs => kernelRun_grown hs) h
  | .kernelQuery _ => withDesc_grown (fun _ _ hs => withKernel_grown (fun _ _ hs => complete_grown hs) hs) h
  | .seqSet _ => withDesc_grown (fun _ _ hs => seqSet_grown hs) h
  | .seqPages _ => withDesc_grown (fun _ _ hs => seqPages_grown hs) h
  | .seqClear _ => withDesc_grown (fun _ _ hs => seqClear_grown hs) h
  | .kernelCodeCopyDone _ => grown_ite (modKernel_grown (grown_foldl (fun _ _ hs => placeWrite_grown hs) h)) h
  | .arrayZeroDone _ => execArrayZeroDone_grown h
  | .runStart _ => runStart_grown h
  | .runLimitExpired _ _ => execRunLimitExpired_grown h
  | .add _ | .sub _ | .mul _ | .mulhu _ | .and _ | .or _ | .xor _ | .shl _ | .shr _ | .sar _ | .min _ | .max _ | .minu _
  | .maxu _ | .slt _ | .sltu _ | .addi _ | .andi _ | .ori _ | .xori _ | .shli _ | .shri _ | .sari _ | .li _ | .lih _
  | .fadd _ | .fsub _ | .fmul _ | .fma _ | .flt _ | .itof _ | .ftoi _ | .vadd _ | .vsub _ | .vmul _ | .vfma _ | .vmin _
  | .vmax _ | .vabs _ | .vneg _ | .vand _ | .vor _ | .vxor _ | .vshl _ | .vshr _ | .vsar _ | .vmov _ | .vbcast _ | .vlane _
  | .vext _ | .vins _ | .vperm _ | .vexp _ | .vexp2 _ | .vlog2 _ | .vrcp _ | .vrsqrt _ | .vsqrt _ | .vcmpr _ | .vexpd _
  | .vsel _ | .pcmp _ | .pcmps _ | .pand _ | .por _ | .pxor _ | .pnot _ | .pset _ | .pclr _ | .pfirst _ | .pcnt _ | .plt _
  | .pmovs _ | .pmovp _ | .cvt _ | .bfpe _ | .bfpd _ | .dot _ | .dots _ | .radd _ | .rmax _ | .rmin _ | .rmaxi _ | .rmini _
  | .vscan _ => onThread_grown h
  | .bfpq _ | .gets _ => issue_grown (fun _ _ _ _ hs => setThr_grown hs) h
  | .ld _ | .lds _ => issue_grown (fun _ _ _ _ hs => scalarLoad_grown hs) h
  | .st _ => issue_grown (fun _ _ _ _ hs => scalarStore_grown hs) h
  | .vld _ => issue_grown (fun _ _ _ _ hs => vectorLoad_grown hs) h
  | .vst _ => issue_grown (fun _ _ _ _ hs => vectorStore_grown hs) h
  | .vlds _ | .vldg _ => issue_grown (fun _ _ _ _ hs => lanesLoad_grown hs) h
  | .vsts _ | .vstg _ => issue_grown (fun _ _ _ _ hs => lanesStore_grown hs) h
  | .afadd64 _ | .aswap64 _ | .acas64 _ | .acas128 _ | .afaddf32 _ | .afaddbf16 _ =>
      issue_grown (fun _ _ _ _ hs => atomicAcc_grown hs) h
  | .fence _ => execFence_grown h
  | .bar _ => execBar_grown h
  | .launchInstr _ => issue_grown (fun _ _ _ _ hs => launchFrom_grown hs) h
  | .br _ | .bz _ | .bnz _ | .bpany _ | .bpnone _ | .call _ | .ret _ | .nop _ | .loop _ => control_grown h
  | .endThread _ => issue_grown (fun _ _ _ _ hs => settleRun_grown (settleBar_grown (setThr_grown hs))) h
  | .qpConfig _ =>
      withDesc_grown (fun _ _ hs => withQp_grown (fun _ _ hs => grown_ite (complete_grown hs) (hostRead_grown (modFlight_grown hs))) hs) h
  | .qpEnable _ => withDesc_grown (fun _ _ hs => withQp_grown (fun _ _ hs => enableDesc_grown hs) hs) h
  | .qpDisable _ => withDesc_grown (fun _ _ hs => withQp_grown (fun _ _ hs => fnDisable_grown hs) hs) h
  | .qpQuery _ => withDesc_grown (fun _ _ hs => withQp_grown (fun _ _ hs => complete_grown hs) hs) h
  | .gwWrite _ | .gwRead _ | .gwSend _ => withDesc_grown (fun _ _ hs => gwStart_grown (gwDesc_grown hs)) h
  | .gwRecvPost _ => execGwRecvPost_grown h
  | .frameDiscarded _ _ => grown_ite h (bumpEth_grown (ethCame_grown h))
  | .arpRequest _ _ | .neighbourSolicitation _ _ => grown_ite h (ethReply_grown h)
  | .pfcFrameReceive _ _ _ =>
      grown_ite h (grown_foldl (fun _ _ hs => grown_ite (bumpEth_grown (modEth_grown hs)) hs) (ethCame_grown h))
  | .pfcPauseRepeat _ _ => execPfcPauseRepeat_grown h
  | .sendFirst _ | .sendMiddle _ | .sendLast _ | .sendOnly _ | .rdmaWriteFirst _ | .rdmaWriteMiddle _ | .rdmaWriteLast _
  | .rdmaWriteOnly _ | .rdmaReadRequest _ => roceArrives_grown h
  | .rdmaReadResponse _ => execRdmaReadResponse_grown h
  | .acknowledge _ => roceCame_grown (fun _ _ _ hs => gwPump_grown (gwProgress_grown (gwAckTo_grown hs))) h
  | .nakPsnSequenceError _ => roceCame_grown (fun _ _ _ hs => gwResend_grown (gwAckTo_grown (bumpEth_grown hs))) h
  | .rnrNak _ =>
      roceCame_grown (fun _ _ _ hs => grown_ite (gwExhaust_grown (gwAckTo_grown (bumpEth_grown hs)))
        (modQp_grown (gwAckTo_grown (bumpEth_grown hs)))) h
  | .nakRemoteAccessError _ | .nakInvalidRequest _ | .nakRemoteOperationalError _ => gwRefused_grown h
  | .cnp _ => execCnp_grown h
  | .qpAckTimeout _ => execQpAckTimeout_grown h
  | .qpRnrTimer _ => execQpRnrTimer_grown h
  | .trainingCap _ _ => onTrain_grown (fun _ _ hs => trainCapIn_grown hs) h
  | .trainingStep _ _ _ => execTrainingStep_grown h
  | .trainingResult _ _ _ => onTrain_grown (fun _ _ hs => trainResultIn_grown hs) h
  | .trainingLoop _ _ _ => onTrain_grown (fun _ _ hs => trainLoopIn_grown hs) h
  | .laneDetectDone _ _ => execLaneDetectDone_grown h
  | .prbsWindowEnd _ _ => judgeLink_grown (modLanes_grown h)
  | .laneStateTimeout _ _ => execLaneStateTimeout_grown h
  | .laneFault _ _ => execLaneFault_grown h
  | .laneStateBlock _ _ => execLaneStateBlock_grown h
  | .recoverRetry _ => execRecoverRetry_grown h
  | .laserFault _ _ | .laserFaultClear _ _ _ => laserCheck_grown (modLaser_grown h)
  | .opticalMeasure _ => execOpticalMeasure_grown h
  | .farLoopTimeout _ => modLanes_grown h
  | .failedClear _ => clearFailed_grown h
  | .fallbackClear _ => setFallback_grown h
  | .secSessionOpen _ => execSecSessionOpen_grown h
  | .secProvision _ =>
      withDesc_grown (fun _ _ hs => grown_ite (complete_grown hs) (grown_ite (complete_grown hs) (hostRead_grown (addWaits_grown hs)))) h
  | .provisionApply => execProvisionApply_grown h
  | .secZeroise _ => withDesc_grown (fun _ _ hs => complete_grown (alarmResponse_grown (raiseEv_grown hs))) h
  | .secFloorRaise _ => execSecFloorRaise_grown h
  | .tamperTrip _ => grown_ite (raiseEv_grown (bumpModule_grown h)) (alarmResponse_grown (raiseEv_grown (bumpModule_grown h)))
  | .lockdownEnter => lockdownEnter_grown h
  | .getVersion _ | .getCapabilities _ | .negotiateAlgorithms _ | .getDigests _ | .getCertificate _ _ _ =>
      spdmReply_grown (fun _ hs => hs) h
  | .challenge _ _ => execChallenge_grown h
  | .getMeasurements _ _ _ _ => execGetMeasurements_grown h
  | .vendorDefinedRequest _ _ _ _ => execVendorDefinedRequest_grown h
  | .fwStage _ | .fwActivate _ | .fwCommit _ => withDesc_grown (fun _ _ hs => fwStart_grown hs) h
  | .atticRestartDone _ => execAtticRestartDone_grown h
  | .watchdogExpiry => atticRestart_grown h
  | .drain _ => withDesc_grown (fun _ _ hs => grown_ite (complete_grown hs) (prepareAdmin_grown hs)) h
  | .undrain _ | .moduleReset _ => withDesc_grown (fun _ _ hs => prepareAdmin_grown hs) h
  | .drainedPoint => execDrainedPoint_grown h
  | .drainLimitExpired => grown_ite (drainsEnd_grown h) h
  | .pldmRequest _ => execPldmRequest_grown h
  | .powerOnReset | .pinReset => resetAll_grown h
  | .powerGood _ => execPowerGood_grown h
  | .supplyLow | .supplyRecovered | .brakeRelease | .bypass | .idcode | .samplePreload _ => h
  | .moduleResetApply => grown_ite (resetAll_grown h) h
  | .powerCap _ => execPowerCap_grown h
  | .powerMeasure _ _ => execPowerMeasure_grown h
  | .thermalShutdown => grown_frame (resetAll_grown h)
  | .readyTimeout => execReadyTimeout_grown h
  | .faultLogRead _ => withDesc_grown (fun _ _ hs => faultLogRead_grown hs) h
  | .ctrRead _ => withDesc_grown (fun _ _ hs => ctrRead_grown hs) h
  | .dumpConfig _ => withDesc_grown (fun _ _ hs => dumpConfig_grown hs) h
  | .peepConfig _ => withDesc_grown (fun _ _ hs => peepConfig_grown hs) h
  | .telemCopy _ => withDesc_grown (fun _ _ hs => telemCopy_grown hs) h
  | .dumpDue _ => execDumpDue_grown h
  | .dumpRecordComplete _ => execDumpRecordComplete_grown h
  | .portCtrlEnable _ | .ringCtrlEnable _ => fnEnable_grown h
  | .portCtrlDisable _ | .ringCtrlDisable _ => fnDisable_grown h
  | .coreSlot => coreSlot_grown h
  | .larderControllerSlot _ => controllerSlot_grown h
  | .lastByteLeaves _ => execLastByteLeaves_grown h
  | .alignComplete _ _ => execAlignComplete_grown h
  | .ethernetPortService _ => execEthernetPortService_grown h
  | .larderPhaseEnd => execLarderPhaseEnd_grown h
  | .flashWriteDone _ => execFlashWriteDone_grown h
  | .oeLaserEnable _ _ _ => laserEnable_grown h

end Machine

open Machine

/-- Settles O60, by the relation between the fuses before and after that every function of the model keeps (`Grown`). -/
theorem fusesOnlyGrow : Obligations.FusesOnlyGrow := by
  intro c s t hf he
  have hg : OutGrown (fusesOf s) (exec c s) := exec_grown (Fuses.Grow.refl hf) c
  rw [he] at hg
  obtain ⟨hblown, hrevoked, hfloor, -, herase, harmed, halarms, hprovisions⟩ := hg
  exact ⟨hblown, hrevoked, hfloor, herase, harmed, halarms, hprovisions⟩

end Sys2Proof
end
